-- ==== Sys2Proof/Word.lean ====
section
/-! DEFINITION. The word types of the Salyel model and their plainest arithmetic.
Values that the manual adds, shifts, masks or shows software as words are bit vectors. -/

namespace Sys2Proof

/-- One byte of device memory. -/
abbrev Byte := BitVec 8
/-- One 32-bit register of a page (R47). -/
abbrev Word := BitVec 32
/-- One 64-bit scalar, counter or serial number. -/
abbrev DWord := BitVec 64
/-- The 256 data bits of one word in 288/256 form. -/
abbrev Line := BitVec 256

/-- Condition of a word in 288/256 form as its decoder finds it (R14, R73):
clean, one bad byte at a position 0 to 35, or more than the code corrects. -/
inductive CodeState where
  | clean
  | one (byte : Fin 36)
  | many
deriving DecidableEq, Repr, Inhabited

end Sys2Proof
end

