-- ==== Sys2Proof/Syntax.lean ====
section
/-! DEFINITION. The commands of the Salyel: one constructor per row of spec/opcode_table.json.
A command carries what its sender or its surroundings decide (a register access, a frame, a measured
temperature, which array or job an event concerns); everything else the command uses is state. -/

namespace Sys2Proof

/-- The safety islands (R8, R433). -/
inductive Island where
  | sia | sib
deriving DecidableEq, Repr, Inhabited

/-- Who sends a register access (R48). -/
inductive Requester where
  | mgmt | host | xs
deriving DecidableEq, Repr, Inhabited

/-- The four write views of a page (R51). -/
inductive View where
  | base | set | clr | tog
deriving DecidableEq, Repr, Inhabited

/-- A register access of a command that stands for a write: requester, view, byte enables, value; a host's write may arrive in a
poisoned TLP (R408). -/
structure Acc where
  req  : Requester
  view : View
  be   : BitVec 4
  val  : Word
  poisoned : Bool := false
deriving DecidableEq, Repr, Inhabited

/-- An array by its logical place (R23): compute die and logical number. -/
structure Arr where
  die : Fin 4
  num : Fin 24
deriving DecidableEq, Repr, Inhabited

/-- The six issue units of an array (R111). -/
inductive IssueUnit where
  | seq | tensor | fft | vector | shuffle | move
deriving DecidableEq, Repr, Inhabited

/-- A job's name: queue ID and free-running descriptor index (R341). -/
structure JobId where
  queue : BitVec 20
  index : Word
deriving DecidableEq, Repr, Inhabited

/-- A Hinge flit as it arrives (R11): header, header CRC, the 256-bit payload word and the condition of
its 288/256 form; the device address of a write, for which the header has no field (assumption 16). -/
structure Flit where
  hdr  : BitVec 48
  hcrc : BitVec 16
  data : Line
  code : CodeState
  addr : Nat := 0
deriving DecidableEq, Repr, Inhabited

/-- The receiving end of a Hinge link: the die identity at which a flit arrives and the neighbour that
sent it (R9). -/
structure HingeEnd where
  rx : Fin 8
  tx : Fin 8
deriving DecidableEq, Repr, Inhabited

/-- The fields of a discovery answer (R17). -/
structure DiscAnswer where
  cls      : BitVec 8
  stepping : BitVec 8
  port     : BitVec 8
  stack    : BitVec 8
  serial   : DWord
  unitMap  : Word
deriving DecidableEq, Repr, Inhabited

/-- What a request from the XS die asks for (R30, R42). -/
inductive XsKind where
  | read | write
  | mailboxRead (off : BitVec 12)
  | mailboxWrite (off : BitVec 12) (val : Word)
  | reserved
deriving DecidableEq, Repr, Inhabited

/-- A request from the XS die at the Dike: kind, first device address, length in 256-bit words, the words
of a write and the condition in which they arrive. -/
structure XsReq where
  kind  : XsKind
  addr  : BitVec 48
  words : Nat
  data  : List Line
  code  : CodeState
deriving DecidableEq, Repr, Inhabited

/-- An item that the XS die hands back: its bytes and the condition in which its worst word arrives (R25, R217). -/
structure XsItem where
  code : CodeState
  data : List Byte
deriving DecidableEq, Repr, Inhabited

/-- What ends a selection or a final check of a plan slot: whether a word of the selector's own state read uncorrectable (R295, R297,
R309). -/
structure SelectorEnd where
  slot : Fin 64
  bad  : Bool
deriving DecidableEq, Repr, Inhabited

/-- In what condition a word of DRAM and the word of the check-bit cache that holds its check bytes are found (R374, R377). -/
structure DramFound where
  code  : CodeState
  check : CodeState
deriving DecidableEq, Repr, Inhabited

/-- Which memory an island has read, NOR or PSRAM, and the condition in which the PSRAM word is found (R395). -/
structure IslRead where
  nor  : Bool
  code : CodeState
deriving DecidableEq, Repr, Inhabited

/-- Header ECC outcome of a CSI-2 packet (R210, R211). -/
inductive EccState where
  | ok | one | two
deriving DecidableEq, Repr, Inhabited

/-- The parts of a CSI-2 packet that the receiver acts on (R210, R211). -/
inductive CsiKind where
  | frameStart | frameEnd | lineSync
  | long (dataType : BitVec 8) (crcOk : Bool) (payload : List Byte)
deriving DecidableEq, Repr, Inhabited

structure CsiPacket where
  vc   : BitVec 4
  ecc  : EccState
  kind : CsiKind
deriving DecidableEq, Repr, Inhabited

/-- A received Ethernet frame (R213, R214). -/
structure EthFrame where
  fcsOk   : Bool
  dst     : BitVec 48
  pause   : Bool
  vlan    : Option (BitVec 12)
  udpPort : Option (BitVec 16)
  payload : List Byte
deriving DecidableEq, Repr, Inhabited

/-- An accepted CAN FD frame (R215, R232). -/
structure CanFrame where
  ident    : BitVec 29
  extended : Bool
  data     : List Byte
deriving DecidableEq, Repr, Inhabited

/-- A Xagus frame (R411): the header bits [1279:1216], its CRC, the control fields and four payload words. -/
structure XFrame where
  typ     : BitVec 6
  src     : BitVec 5
  dst     : BitVec 5
  vc      : BitVec 2
  words   : BitVec 2
  operand : BitVec 44
  hcrc    : BitVec 16
  seq     : BitVec 12
  ack     : BitVec 12
  fecOk   : Bool
  poison  : BitVec 4
  payload : List Line
  code    : List CodeState
  creditVc : BitVec 2 := 0#2
  credits : BitVec 10 := 0#10
deriving DecidableEq, Repr, Inhabited

/-- A BAR2 or BAR4 request TLP from the host (R404, R408). -/
structure Tlp where
  offset   : BitVec 36
  data     : List Byte
  len      : Nat
  poisoned : Bool
deriving DecidableEq, Repr, Inhabited

/-- The result of a device read of host memory (R407). -/
inductive CompletionStatus where
  | ok | poisoned | unsupported | aborted
deriving DecidableEq, Repr, Inhabited

/-- The temperatures of one sampling round in units of 1/16 degC; none for a sensor out of range (R512). -/
structure Temps where
  hub    : List (Option Int)
  diodeA : Int
  diodeB : Int
  inlet  : Option Int
  outlet : Option Int
  stages : Option Int
  board  : Option Int
deriving DecidableEq, Repr, Inhabited


/-- A command of the Salyel. Each constructor is a row of the opcode table; the rule that governs it is named. -/
inductive Instr where
  /-- HINGE_FLIT (R11): A 352-bit Hinge flit arrives at a receiving port and is checked, corrected or discarded, then acted on. -/
  | hingeFlit (e : HingeEnd) (f : Flit)
  /-- HINGE_LINK_DOWN (R13): The eighth consecutive failed replay of one flit takes the Hinge link down, which is a fault of the compute die on it. -/
  | hingeLinkDown (e : HingeEnd)
  /-- STOP (R15): Tap command that gates a die's array clocks and halts its sequencers. -/
  | stop (i : Island) (d : Fin 4)
  /-- FENCE (R15): Tap command that makes HB discard the die's flits, answer requests to it with poison and close its ring ports. -/
  | fence (i : Island) (d : Fin 4)
  /-- RESET (R15): Tap command that resets a die and its stack, overriding every STOP and FENCE on it. -/
  | reset (i : Island) (d : Fin 4)
  /-- RELEASE (R16): Tap command that withdraws the issuing island's own STOP or FENCE. -/
  | release (i : Island) (d : Fin 4)
  /-- READ_ID (R15): Tap command that returns a die's class, stepping, serial and unit map. -/
  | readId (i : Island) (d : Fin 4)
  /-- READ_FAULT (R15): Tap command that returns a die's fault syndrome. -/
  | readFault (i : Island) (d : Fin 4)
  /-- TAP_COMMAND_DROP (R439): A tap drops every STOP and FENCE of an island from which no keep-alive has arrived for 5 ms. -/
  | tapCommandDrop (i : Island) (d : Fin 4)
  /-- DISCOVERY (R19): On hub reset release, HB sends a discovery flit on ports 0 to 6. -/
  | discovery
  /-- DISCOVERY_ANSWER (R17): A discovery answer flit arrives and its fields are entered in the topology table. -/
  | discoveryAnswer (p : Fin 7) (ans : DiscAnswer)
  /-- DISC_ANSWER_TIMEOUT (R19): A port's answer wait expires; the flit is sent again, or the port is recorded absent after the last retry. -/
  | discAnswerTimeout (p : Fin 7)
  /-- TOPOLOGY_COPY (R19): An island takes the hub's topology copy, compares it with its own readings and writes its verdict. -/
  | topologyCopy (i : Island)
  /-- REDISCOVERY (R24): A compute die leaving reset is rediscovered alone and returns to service only if every answer field matches. -/
  | rediscovery (d : Fin 4) (ans : Option DiscAnswer)
  /-- RESCAN (R24): DISC_CTRL.rescan repeats the identity comparison for one port without a die reset. -/
  | rescan (acc : Acc) (ans : Option DiscAnswer)
  /-- ADMISSION_START (R28): Verified hub firmware starts XS admission with UCIe link training. -/
  | admissionStart
  /-- UCIE_TRAINING_DONE (R28): UCIe link training completes and the die's chain is received into the admission buffer. -/
  | ucieTrainingDone
  /-- CHAIN_RECEIVED (R28): The die's certificate chain has arrived and the security engine verifies it. -/
  | chainReceived (cert : List Byte) (inter : Option (List Byte))
  /-- CHAIN_VERIFIED (R27): Chain verification ends; on acceptance the windows take effect, the mailbox opens and the slot is admitted. -/
  | chainVerified
  /-- ADMISSION_OVERRUN (R29): An admission step overruns its bound and the slot is faulted. -/
  | admissionOverrun
  /-- COMMIT (R32): DIKE_CTRL.commit asks for the window set to be applied once requests past the Dike complete. -/
  | commit (acc : Acc)
  /-- COMMIT_APPLY (R32): With earlier XS requests complete, the new window set is checked and applied as a whole, or refused. -/
  | commitApply
  /-- READMIT (R35): DIKE_CTRL.readmit repeats admission of a faulted slot unless it is locked out. -/
  | readmit (acc : Acc)
  /-- DIKE_FENCE (R34): DIKE_CTRL.fence faults the XS slot at once. -/
  | dikeFence (acc : Acc)
  /-- DIKE_ENABLE_CLEAR (R34): Writing 0 to DIKE_CTRL.enable faults the slot as a firmware fence. -/
  | dikeEnableClear (acc : Acc)
  /-- XS_REQUEST (R30): A request from the XS die reaches the Dike and is checked against the windows and rate limits. -/
  | xsRequest (r : XsReq)
  /-- XS_REQUEST_UNSTALL (R31): A request stalled on an empty token bucket proceeds once tokens refill. -/
  | xsRequestUnstall
  /-- UCIE_LINK_LOSS (R33): Loss of the UCIe link is a violation that faults the slot. -/
  | ucieLinkLoss
  /-- H2X_RING (R42): The host rings h2x_ring; h2x_pending sets and the Dike sends the eight words to the die. -/
  | h2xRing (acc : Acc)
  /-- X2H_ACK (R42): The host writes x2h_ack; x2h_valid clears and the die is told the words were taken. -/
  | x2hAck (acc : Acc)
  /-- H2X_ACK (R42): The die writes h2x_ack; h2x_pending clears and the h2x_ack event is raised. -/
  | h2xAck
  /-- X2H_POST (R42): The die writes x2h_post; x2h_valid sets and the x2h_valid event is raised. -/
  | x2hPost
  /-- H2X_DATA_WRITE (R41): A write to H2X_DATA is stored, or ignored while h2x_pending is 1. -/
  | h2xDataWrite (k : Fin 8) (acc : Acc)
  /-- GRID_SAMPLE (R36): The block manager samples the 16-point hotspot grid and sets the stack throttle step. -/
  | gridSample (d : Fin 4) (temps : List (Option Int))
  /-- ST_THR_WRITE (R38): A write to ST_THR1 to ST_THR3 is clamped to its reset value and read back as clamped. -/
  | stThrWrite (n : Fin 4) (k : Fin 3) (acc : Acc)
  /-- ST_HYST_WRITE (R38): A write to ST_HYST is clamped to 3 to 8 °C. -/
  | stHystWrite (n : Fin 4) (acc : Acc)
  /-- RESET_REQ (R69): CD_CTRL.reset_req asks the islands to reset the die. -/
  | resetReq (d : Fin 4) (acc : Acc)
  /-- CLK_STEP_WRITE (R504): A write to CD_CTRL.clk_step changes the die's array clock, or is stored and takes effect as the lower value during a dip. -/
  | clkStepWrite (d : Fin 4) (acc : Acc)
  /-- REGISTER_WRITE (R51): A write to a register without behaviour of its own is applied through its view, after width, decode and level checks. -/
  | registerWrite (page : BitVec 8) (off : BitVec 12) (acc : Acc)
  /-- RC_READ (R47): A base-view read covering an RC field returns it and clears it to its reset value. -/
  | rcRead (page : BitVec 8) (off : BitVec 12) (view : View) (be : BitVec 4) (req : Requester)
  /-- BLK_LEVEL_WRITE (R61): A write to BLK_LEVEL arms the unlock sequence, completes it to expert level, or lapses expert level. -/
  | blkLevelWrite (page : BitVec 8) (acc : Acc)
  /-- UNLOCK_TIMEOUT (R61): The second unlock word fails to arrive within 64 register-clock cycles, and armed clears. -/
  | unlockTimeout (page : BitVec 8)
  /-- GEN_HOST_EXPERT_WRITE (R63): A write to GEN_HOST_EXPERT from the management complex sets whether BAR0 may unlock pages; BAR0 writes are ignored. -/
  | genHostExpertWrite (acc : Acc)
  /-- TUMBLER_SCRUB (R59): A block votes and repairs every tumbler field of its page at least once every 1 ms. -/
  | tumblerScrub (page : BitVec 8)
  /-- BLOCK_RESET (R69): GEN_BLK_RESET.go resets one page, or is refused. -/
  | blockReset (acc : Acc)
  /-- BLOCK_RESET_DONE (R67): A block reset completes and BLK_STATUS.ready sets. -/
  | blockResetDone
  /-- MODULE_RESET_REQ (R70): GEN_CTRL.module_reset_req asks the islands for a module reset with cause 2. -/
  | moduleResetReq (acc : Acc)
  /-- SLOT_START (R117): The block manager chooses an idle array, grants reduction entries and loads the program unless it is already held. -/
  | slotStart (n : Arr) (j : JobId) (slot : Nat)
  /-- PROGRAM_LOAD_DONE (R117): The program is loaded; registers and descriptors are initialised and issue begins at entry. -/
  | programLoadDone (n : Arr)
  /-- INSTRUCTION_COMPLETE (R111): An instruction in flight completes on its unit and its writes land. -/
  | instructionComplete (n : Arr) (u : IssueUnit)
  /-- NOP (R123): Does nothing. -/
  | nop (n : Arr)
  /-- END (R135): Performs a FENCE.P and then completes the slot. -/
  | endSlot (n : Arr)
  /-- JMP (R123): Branches to the immediate target. -/
  | jmp (n : Arr)
  /-- BRZ (R123): Branches if the scalar is zero. -/
  | brz (n : Arr)
  /-- BRNZ (R123): Branches if the scalar is not zero. -/
  | brnz (n : Arr)
  /-- LOOP (R123): Decrements the scalar and branches if it is not zero. -/
  | loop (n : Arr)
  /-- CALL (R123): Pushes the next index and branches. -/
  | call (n : Arr)
  /-- RET (R123): Pops the return stack and branches. -/
  | ret (n : Arr)
  /-- SLI (R123): Loads a zero-extended immediate into a scalar. -/
  | sli (n : Arr)
  /-- SLIH (R123): Loads the immediate into bits [63:32] of a scalar. -/
  | slih (n : Arr)
  /-- SADD (R123): Adds two scalars, or a scalar and a sign-extended immediate, modulo 2^64. -/
  | sadd (n : Arr)
  /-- SSUB (R123): Subtracts two scalars modulo 2^64. -/
  | ssub (n : Arr)
  /-- SMUL (R123): Multiplies a scalar by a sign-extended immediate, keeping the low 64 bits. -/
  | smul (n : Arr)
  /-- SGET (R352): Reads a numbered field of a tensor descriptor into a scalar. -/
  | sget (n : Arr)
  /-- FENCE_A (R127): Stalls issue until earlier instructions complete and their writes are visible to this array. -/
  | fenceA (n : Arr)
  /-- FENCE_D (R127): Stalls until earlier writes are visible to every array and the block manager of this die. -/
  | fenceD (n : Arr)
  /-- FENCE_P (R127): Stalls until earlier writes are visible package-wide and to the host. -/
  | fenceP (n : Arr)
  /-- FENCE_X (R419): Stalls until every earlier remote write and signal has been acknowledged. -/
  | fenceX (n : Arr)
  /-- FENCE_DONE (R127): A fence's visibility condition is met and later instructions may issue. -/
  | fenceDone (n : Arr)
  /-- BAR_D (R129): A slot arrives at a die barrier: it fences, adds 1 to the die counter and waits. -/
  | barD (n : Arr)
  /-- BAR_P (R129): A slot arrives at a package barrier on a fence object: it fences, adds 1 and waits. -/
  | barP (n : Arr)
  /-- BARRIER_RELEASE (R129): A barrier counter reaches the next multiple of its count and the waiting slots continue. -/
  | barrierRelease (n : Arr)
  /-- FWAIT (R128): A slot waits until a fence object is at least a value. -/
  | fwait (n : Arr)
  /-- FWAIT_SATISFIED (R128): The awaited fence object reaches its value and FWAIT completes. -/
  | fwaitSatisfied (n : Arr)
  /-- FSIG (R128): Performs a FENCE.P or FENCE.X and then adds the increment to a local or remote fence object. -/
  | fsig (n : Arr)
  /-- ROWWAIT (R155): A slot waits until a row ready counter reaches the row. -/
  | rowwait (n : Arr)
  /-- ROWWAIT_T (R131): A slot waits on a row ready counter with a cycle limit. -/
  | rowwaitT (n : Arr)
  /-- ROWWAIT_SATISFIED (R154): The awaited row counter reaches the row and ROWWAIT or ROWWAIT.T completes. -/
  | rowwaitSatisfied (n : Arr)
  /-- ROWWAIT_T_EXPIRY (R131): The cycle limit of ROWWAIT.T passes first and execution branches to the expiry path. -/
  | rowwaitTExpiry (n : Arr)
  /-- ROWPUB (R154): Performs a fence of die or package scope and then sets a row ready counter. -/
  | rowpub (n : Arr)
  /-- RDSLOT (R123): Reads the slot index or slot count into a scalar. -/
  | rdslot (n : Arr)
  /-- LD (R123): Copies 256-bit words from device memory into the line buffers. -/
  | ld (n : Arr)
  /-- ST (R343): Copies line-buffer words to device memory, or rings one doorbell through the device window. -/
  | st (n : Arr)
  /-- LDT (R152): Loads a descriptor-shaped tile with padding and row skips, or fetches KV pages. -/
  | ldt (n : Arr)
  /-- STT (R180): Stores a tile through a descriptor, or stores tokens to a KV page. -/
  | stt (n : Arr)
  /-- GATHER (R579): Reads table elements named by line-buffer indices. -/
  | gather (n : Arr)
  /-- SCATTER (R579): Writes elements into table positions named by indices, the highest index winning. -/
  | scatter (n : Arr)
  /-- SCATADD (R123): Adds elements into table positions in order of arrival at memory. -/
  | scatadd (n : Arr)
  /-- SCATADD_S (R123): Adds elements into table positions in ascending element order. -/
  | scataddS (n : Arr)
  /-- LBCOPY (R123): Copies words within the line buffers. -/
  | lbcopy (n : Arr)
  /-- LBFILL (R123): Fills line-buffer words with a 32-bit pattern. -/
  | lbfill (n : Arr)
  /-- DOT (R125): Computes K-tile partials of m output tiles and routes them to the owner slot. -/
  | dot (n : Arr)
  /-- CONV (R150): Computes convolution K-tile partials over a stripe under a parameter block. -/
  | conv (n : Arr)
  /-- CONTRACTION_RESUME (R92): A contraction held at issue issues once enough reduction entries of its grant are unreserved. -/
  | contractionResume (n : Arr)
  /-- PARTIAL_ARRIVAL (R88): A K-tile partial reaches its owner's reduction buffer or accumulator and is combined. -/
  | partialArrival (k : Nat)
  /-- RED_GET (R126): The owner slot waits for all partials of m tiles to be combined. -/
  | redGet (n : Arr)
  /-- RED_GET_COMPLETE (R126): All partials are combined; results are written and reduction entries released. -/
  | redGetComplete (n : Arr)
  /-- FFT (R159): Runs forward complex transforms, 1D or 2D. -/
  | fft (n : Arr)
  /-- IFFT (R160): Runs inverse complex transforms. -/
  | ifft (n : Arr)
  /-- SPMUL (R165): Multiplies complex elements pairwise. -/
  | spmul (n : Arr)
  /-- KVEXP (R188): Expands latents into keys or values as a contraction owned by the issuing slot. -/
  | kvexp (n : Arr)
  /-- VADD (R99): Element-wise FP32 add. -/
  | vadd (n : Arr)
  /-- VSUB (R99): Element-wise FP32 subtract. -/
  | vsub (n : Arr)
  /-- VMUL (R99): Element-wise FP32 multiply. -/
  | vmul (n : Arr)
  /-- VFMA (R99): Element-wise fused multiply-add with one rounding. -/
  | vfma (n : Arr)
  /-- VDIV (R99): Element-wise correctly rounded divide. -/
  | vdiv (n : Arr)
  /-- VSQRT (R99): Element-wise correctly rounded square root. -/
  | vsqrt (n : Arr)
  /-- VMIN (R99): Element-wise minimum. -/
  | vmin (n : Arr)
  /-- VMAX (R99): Element-wise maximum. -/
  | vmax (n : Arr)
  /-- VCMP (R123): Element-wise comparison giving integer 1 or 0. -/
  | vcmp (n : Arr)
  /-- VSEL (R123): Element-wise selection by a mask. -/
  | vsel (n : Arr)
  /-- VIADD (R123): Element-wise 32-bit integer add modulo 2^32. -/
  | viadd (n : Arr)
  /-- VSH (R123): Element-wise shift by a signed count. -/
  | vsh (n : Arr)
  /-- VAND (R123): Element-wise bitwise and. -/
  | vand (n : Arr)
  /-- VOR (R123): Element-wise bitwise or. -/
  | vor (n : Arr)
  /-- VCVT (R96): Converts elements between formats with saturating or IEEE behaviour. -/
  | vcvt (n : Arr)
  /-- VCVTMX (R97): Converts FP32 elements to an MX format in blocks of 32. -/
  | vcvtmx (n : Arr)
  /-- VREDSUM (R101): Sums each group of 256 elements in the canonical tree. -/
  | vredsum (n : Arr)
  /-- VREDMAX (R123): Reduces each group of 256 elements to its maximum. -/
  | vredmax (n : Arr)
  /-- TRANS (R123): Transposes a matrix of 32-bit elements. -/
  | trans (n : Arr)
  /-- SHUF (R123): Permutes elements by an index vector within the line buffers. -/
  | shuf (n : Arr)
  /-- PACK (R123): Packs 8-bit elements to 4-bit or 6-bit by low bits. -/
  | pack (n : Arr)
  /-- UNPACK (R123): Widens packed elements to one byte each. -/
  | unpack (n : Arr)
  /-- VRCP_F (R100): Fast approximate reciprocal, mark N. -/
  | vrcpF (n : Arr)
  /-- VRSQ_F (R100): Fast approximate reciprocal square root, mark N. -/
  | vrsqF (n : Arr)
  /-- VEXP_F (R100): Fast approximate exp, mark N. -/
  | vexpF (n : Arr)
  /-- VLOG_F (R100): Fast approximate log, mark N. -/
  | vlogF (n : Arr)
  /-- RDCYC (R123): Reads the cycle counter into a scalar. -/
  | rdcyc (n : Arr)
  /-- RDID (R123): Reads the physical array, die and stepping into a scalar. -/
  | rdid (n : Arr)
  /-- CKDIG (R331): Folds line-buffer words into the slot's checkpoint digest as one tile. -/
  | ckdig (n : Arr)
  /-- LBSIG (R476): Computes the CRC-64 test signature of line-buffer words. -/
  | lbsig (n : Arr)
  /-- BRK (R137): Halts the array while the debug port is unlocked, otherwise acts as NOP. -/
  | brk (n : Arr)
  /-- SLOT_STOP (R135): Another slot of a faulted or aborted job stops at its next instruction boundary. -/
  | slotStop (n : Arr)
  /-- ARRAY_DRAIN_DONE (R135): After a fault, the instructions in flight have completed and the array returns to idle unless suspect. -/
  | arrayDrainDone (n : Arr)
  /-- HALT (R136): ARR_CTRL.halt halts the array at its next instruction boundary. -/
  | halt (n : Arr) (acc : Acc)
  /-- RESUME (R136): ARR_CTRL.resume resumes a halted array. -/
  | resume (n : Arr) (acc : Acc)
  /-- ABORT (R136): ARR_CTRL.abort aborts the array's current job with cause 0x7. -/
  | abort (n : Arr) (acc : Acc)
  /-- ARR_CAP_DISABLE_WRITE (R106): A write to ARR_CAP_DISABLE withdraws capabilities; clearing a set bit is ignored. -/
  | arrCapDisableWrite (n : Arr) (acc : Acc)
  /-- ARR_INJECT_ONE_BYTE (R107): Arms the corruption of one byte of a line-buffer word at its next write. -/
  | arrInjectOneByte (n : Arr) (acc : Acc)
  /-- ARR_INJECT_TWO_BYTES (R107): Arms the corruption of two bytes of a line-buffer word at its next write. -/
  | arrInjectTwoBytes (n : Arr) (acc : Acc)
  /-- KV_RESOLVE (R177): A KV fetch's resolve request reaches the page manager, which reads the entry and pins the page. -/
  | kvResolve (n : Arr)
  /-- PIN_RELEASE (R178): The last word of a page reaches the line buffers and its pin is released. -/
  | pinRelease (n : Arr)
  /-- KV_WRITE_REQUEST (R180): A KV store's write request allocates, writes in place or starts a copy on write. -/
  | kvWriteRequest (n : Arr)
  /-- COW_COPY_DONE (R181): The copy ends and the device waits for package-wide visibility. -/
  | cowCopyDone (n : Arr)
  /-- COW_COMMIT (R181): The copy is visible; the writer's entry is rewritten, the old page released and the tokens written. -/
  | cowCommit (n : Arr)
  /-- KV_WRITE_RESUME (R181): A write request that waited on a copy is decided against the rewritten entry. -/
  | kvWriteResume (n : Arr)
  /-- SEQ_OPEN (R185): Opens a sequence. -/
  | seqOpen (j : JobId)
  /-- SEQ_CLOSE (R185): Invalidates every valid entry of a sequence, dropping references, and closes it. -/
  | seqClose (j : JobId)
  /-- SHARE (R185): Copies valid entries of a source sequence and adds references. -/
  | share (j : JobId)
  /-- FREE (R185): Invalidates named valid entries and drops their references. -/
  | free (j : JobId)
  /-- ALLOC (R185): Allocates a zeroed page for each named entry. -/
  | alloc (j : JobId)
  /-- KV_ENABLE (R198): Setting KV_CTRL.enable checks the pool configuration and starts the sweep, or is refused. -/
  | kvEnable (acc : Acc)
  /-- KV_SWEEP_DONE (R199): The sweep of every state word ends, the manager runs and the enabled event is raised. -/
  | kvSweepDone
  /-- KV_DISABLE (R198): Writing 0 to KV_CTRL.enable disables the page manager once no KV job, fetch or store is in flight. -/
  | kvDisable (acc : Acc)
  /-- KV_RESUME (R187): KV_CTRL.resume leaves the faulted state. -/
  | kvResume (acc : Acc)
  /-- STREAM_ENABLE (R204): Setting a stream's enable bit reads and checks its descriptor, or is refused. -/
  | streamEnable (s : Fin 128) (acc : Acc)
  /-- STREAM_DISABLE (R204): Clearing a stream's enable bit stops the stream. -/
  | streamDisable (s : Fin 128) (acc : Acc)
  /-- CSI_PACKET (R211): A CSI-2 packet arrives and is assigned to a stream, corrected, stored or discarded. -/
  | csiPacket (r : Fin 24) (p : CsiPacket)
  /-- ETH_FRAME (R214): A received Ethernet frame is matched to a flow and its UDP payload becomes an item. -/
  | ethFrame (m : Fin 4) (f : EthFrame)
  /-- SPI_FRAME (R215): An inertial SPI frame becomes an item. -/
  | spiFrame (i : Island) (data : List Byte)
  /-- CAN_FD_FRAME (R215): An accepted CAN FD frame becomes an item. -/
  | canFdFrame (i : Island) (ctl : Fin 2) (f : CanFrame)
  /-- XS_ITEM_RETURN (R217): An item routed through XS returns from the die and is committed. -/
  | xsItemReturn (s : Fin 128) (item : XsItem)
  /-- ITEM_COMMIT (R208): An item's data and record are made visible and its stream's fence object is incremented. -/
  | itemCommit (s : Fin 128)
  /-- DROP_RECORD (R207): A drop record is committed once ring and queue have room. -/
  | dropRecord (s : Fin 128)
  /-- STALE (R226): A stream's staleness timer expires and its score drops with cause 3. -/
  | stale (s : Fin 128)
  /-- WARD_POINT (R220): After a ward point's frame end the tile is injected and its ingress digest formed. -/
  | wardPoint (s : Fin 128)
  /-- WARD_RUN (R221): With the ingress digest complete, the ward job runs on an idle array or is deferred. -/
  | wardRun (s : Fin 128) (a : Fin 24)
  /-- PREEMPT (R222): At the fourth ward point a running array is halted, saved and given the ward program. -/
  | preempt (s : Fin 128)
  /-- WARD_JOB_DONE (R220): The ward job ends; its digests are judged and any preempted job restored. -/
  | wardJobDone (s : Fin 128) (us : Nat)
  /-- OVERRUN (R222): A preemption reaches WARD_PREEMPT_MAX; the ward is abandoned as incomplete. -/
  | overrun (s : Fin 128)
  /-- WARD_BUDGET_REFILL (R221): A die's ward budget refills at 20 µs per ms up to 180 µs. -/
  | wardBudgetRefill (d : Fin 4)
  /-- EGO_ENABLE (R229): Setting EGO_CTRL.enable restarts pose numbering and awaits the first inertial item. -/
  | egoEnable (acc : Acc)
  /-- INERTIAL_ITEM (R233): An inertial item is integrated into the pose and a pose record written, or rejected. -/
  | inertialItem
  /-- WHEEL_ITEM (R234): A wheel item updates the velocity. -/
  | wheelItem
  /-- PROJ_ENABLE (R239): Setting PROJ_CTRL.enable checks the calibration table, or is refused. -/
  | projEnable (acc : Acc)
  /-- P2I (R245): Projects points into a camera image. -/
  | p2i (j : JobId)
  /-- P2G (R245): Projects points into grid cells. -/
  | p2g (j : JobId)
  /-- F2G (R245): Projects grid cells at given heights into a camera frame. -/
  | f2g (j : JobId)
  /-- DELTA (R246): Replaces a calibration entry's delta. -/
  | delta (j : JobId)
  /-- BIAS (R230): Publishes new inertial biases, which the ego engine applies to later items. -/
  | bias (j : JobId)
  /-- FUS_ENABLE (R270): Setting FUS_CTRL.enable checks configuration and clears contexts and state grid, or is refused. -/
  | fusEnable (acc : Acc)
  /-- FUS_RESUME (R269): FUS_CTRL.resume returns a faulted fusion block to idle with the state grid cleared. -/
  | fusResume (acc : Acc)
  /-- INSTANT_REQUEST (R251): A fusion job's request for an instant is taken and numbered. -/
  | instantRequest (j : JobId)
  /-- FUSION_INPUT (R249): A perception job signals a fusion input, which is used on time or enters the late lane. -/
  | fusionInput (sensor : Fin 64) (seq : Word)
  /-- FUSION_TIMEOUT (R252): A sensor's wait passes and a fusion timeout record is published. -/
  | fusionTimeout (sensor : Fin 64)
  /-- INSTANT_RELEASE (R252): Every valid sensor is delivered or timed out and the release position R is fixed. -/
  | instantRelease
  /-- INSTANT_INPUTS_READY (R264): All inputs up to R are present; the grid and tracks are combined and results written. -/
  | instantInputsReady
  /-- INSTANT_DEADLINE (R266): The fusion job's deadline passes while waiting; missing sensors are masked and incomplete is set. -/
  | instantDeadline
  /-- COLL_ENABLE (R310): Setting COLL_CTRL.enable checks the bases, or is refused. -/
  | collEnable (acc : Acc)
  /-- PUBLISH (R280): A PUBLISH command checks a buffer header and starts building its reflex grid. -/
  | publish (j : JobId)
  /-- GRID_BUILD_DONE (R280): The reflex grid is built; the buffer becomes current, the epoch advances and the publication is signalled. -/
  | gridBuildDone
  /-- RETIRE (R280): No user of the previous buffer remains and its retire signal is sent. -/
  | retire
  /-- LOAD (R291): A LOAD command waits until no plan query uses the roadmap slot. -/
  | load (j : JobId)
  /-- ROADMAP_CHECK (R291): With the slot free, the roadmap image is checked and bound, or refused. -/
  | roadmapCheck (j : JobId)
  /-- REFLEX_QUERY (R289): A reflex unit takes a waiting query from its ports. -/
  | reflexQuery (u : Fin 6)
  /-- REFLEX_VERDICT (R288): A reflex query ends and its verdict is written with done set. -/
  | reflexVerdict (u : Fin 6) (ns : Nat)
  /-- PLAN (R298): A PLAN command is taken and waits for its checker bank. -/
  | plan (j : JobId)
  /-- SWEEP_START (R293): The checker bank is free and the roadmap sweep starts on the current epoch. -/
  | sweepStart (slot : Fin 64)
  /-- SWEEP_DONE (R292): Every edge checker ends and selection begins. -/
  | sweepDone (slot : Fin 64) (ns : Nat)
  /-- SELECTION_DONE (R295): Selection yields up to eight ranked paths and final checks begin. -/
  | selectionDone (e : SelectorEnd)
  /-- ATTEMPT_DONE (R297): A final-check attempt ends; the result is written on a pass, or the next rank is tried. -/
  | attemptDone (e : SelectorEnd)
  /-- PLAN_DEADLINE (R298): The query's deadline passes and it ends kept. -/
  | planDeadline (slot : Fin 64)
  /-- PLAN_ENABLE (R303): Setting PLAN_CTRL.enable clears every slot header before taking commands. -/
  | planEnable (acc : Acc)
  /-- PLAN_RESUME (R309): PLAN_CTRL.resume leaves the faulted state. -/
  | planResume (acc : Acc)
  /-- RECORD (R321): Setting JRN_CTRL.mode to record writes a segment header and starts recording. -/
  | record (acc : Acc)
  /-- REPLAY (R324): Setting JRN_CTRL.mode to replay enters waiting and starts the header check. -/
  | replay (acc : Acc)
  /-- JRN_OFF (R337): Writing mode 0 ends a recording with a segment end, or stops a replay. -/
  | jrnOff (acc : Acc)
  /-- SEGMENT (R321): JRN_CTRL.segment ends the segment and starts a new one. -/
  | segment (acc : Acc)
  /-- JRN_STOP (R330): JRN_CTRL.stop stops a replay with cause 0x9. -/
  | jrnStop (acc : Acc)
  /-- JOURNAL_WRITE (R323): A staged record is written into the journal ring, or lost or overwritten as wrap directs. -/
  | journalWrite
  /-- HEADER_CHECK_DONE (R324): The replay header check ends and replay begins, or stops. -/
  | headerCheckDone
  /-- REPLAY_APPLY (R325): The next positioned record is applied once every lower position is applied. -/
  | replayApply
  /-- REPLAY_REMOTE_SIGNAL (R329): A recorded remote signal is applied, in domain mode once its live signal has arrived. -/
  | replayRemoteSignal
  /-- REPLAY_STALL (R330): No record is applied for JRN_STALL_US and the stall event is raised. -/
  | replayStall
  /-- Q_ENABLE (R342): Enables a queue after checking its state, or refuses. -/
  | qEnable (acc : Acc)
  /-- Q_DISABLE (R342): Stops taking descriptors from a queue. -/
  | qDisable (acc : Acc)
  /-- Q_WRITEBACK (R342): A disabled queue's in_flight reaches 0 and its state is written back. -/
  | qWriteback (q : BitVec 20)
  /-- RESET_INDICES (R342): Sets a disabled queue's producer, consumer and in_flight to 0. -/
  | resetIndices (acc : Acc)
  /-- DOORBELL (R344): A BAR4 doorbell write advances a queue index, or is ignored. -/
  | doorbell (q : BitVec 20) (be : BitVec 4) (index : Option Word) (poisoned : Bool)
  /-- JOB_TAKE (R347): The queue engine takes the next descriptor of a pending queue and checks it. -/
  | jobTake
  /-- JOB_RELEASE (R354): A waiting job's fences are satisfied; it is released and its program chosen. -/
  | jobRelease (j : JobId)
  /-- JOB_PLACE (R354): A released job is placed on free arrays or its hub engine. -/
  | jobPlace (j : JobId) (arrays : List Arr)
  /-- JOB_COMPLETE (R357): Every slot or command has ended; outputs are made visible, signals applied and the completion written. -/
  | jobComplete (j : JobId)
  /-- COMPLETION_RECORD (R360): A staged completion record is written once its queue has room. -/
  | completionRecord (cq : Fin 128)
  /-- QENG_ABORT (R361): Ends a named job at any stage, or refuses. -/
  | qengAbort (acc : Acc)
  /-- COPY (R356): DMA command that copies bytes. -/
  | copy (j : JobId)
  /-- FILL (R356): DMA command that fills bytes with a pattern. -/
  | fill (j : JobId)
  /-- FENCE_INC (R364): A write to FENCE_INC increments a fence object as a publication. -/
  | fenceInc (acc : Acc)
  /-- FENCE_SET (R364): FENCE_SET_CMD.go sets a fence object to a value, or is refused. -/
  | fenceSet (acc : Acc)
  /-- DRAM_WRITE (R375): A write enters the controller's write queue and becomes visible. -/
  | dramWrite (addr : BitVec 48) (data : Line) (mask : Word) (poison : Bool)
  /-- DRAM_READ (R377): A read is served from DRAM or the write queue and decoded. -/
  | dramRead (addr : BitVec 48) (found : DramFound)
  /-- TRAIN (R381): MEMG_CTRL.train starts training of every channel. -/
  | train (acc : Acc)
  /-- TRAINING_STEP_DONE (R381): A training step ends; the next begins or the channel fails. -/
  | trainingStepDone (failed : List (Fin 32)) (temps : List Int) (dip : Bool)
  /-- SEGMENT_SWEPT (R380): A segment's sweep to coded zeros ends and its ready bit sets. -/
  | segmentSwept
  /-- TEMPERATURE_READ (R383): The hub reads the package temperature and starts a retraining on drift. -/
  | temperatureRead (p : Fin 8) (celsius : Int)
  /-- MR4_READ (R383): The controller reads MR4 and sets the refresh multiplier. -/
  | mr4Read (c : Fin 32) (rate : BitVec 3) (hot : Bool)
  /-- REFRESH (R383): A bank's refresh falls due and is issued. -/
  | refresh (c : Fin 32) (bank : Fin 16)
  /-- RETRAIN (R383): MC_CTRL.retrain retrains both channels one after the other. -/
  | retrain (k : Fin 16) (acc : Acc)
  /-- RETRAIN_DONE (R383): A channel retraining ends and spillway is left. -/
  | retrainDone (k : Fin 16) (us : Nat)
  /-- FLUSH (R379): MC_CTRL.flush drains the write queue and writes back the check cache. -/
  | flush (k : Fin 16) (acc : Acc)
  /-- FLUSH_DONE (R379): A flush ends and recovery, retraining or copy may begin. -/
  | flushDone (k : Fin 16)
  /-- PATROL_SCRUB (R384): The patrol scrub reads a granule and writes back corrections. -/
  | patrolScrub (k : Fin 16) (codes : List CodeState)
  /-- ROW_RETIRE_DONE (R385): A row is copied to a spare and the remap entry written. -/
  | rowRetireDone (k : Fin 16)
  /-- CHANNEL_RETIRE (R388): MEMG_RETIRE.go starts retiring a channel with a copy, or is refused. -/
  | channelRetire (acc : Acc)
  /-- CHANNEL_RESTORE (R388): MEMG_RETIRE with restore remaps a channel at once without copy. -/
  | channelRestore (acc : Acc)
  /-- CHANNEL_COPY_DONE (R388): The channel copy ends and the channel is powered down. -/
  | channelCopyDone
  /-- PARK_PREP (R390): MEMG_CTRL.park_prep drains every controller and writes the save image. -/
  | parkPrep (acc : Acc)
  /-- PARK_READY (R390): The save image is written and park_ready is raised. -/
  | parkReady
  /-- PARK_RESTORE (R390): MEMG_CTRL.park_restore leaves self-refresh and reloads saved values. -/
  | parkRestore (acc : Acc) (drifted : Bool)
  /-- MEMORY_TEST (R398): MEMG_TEST_CMD.go tests the named channels. -/
  | memoryTest (acc : Acc)
  /-- TEST_DONE (R398): A memory test ends with channels swept and failures recorded. -/
  | testDone (failed : Word)
  /-- MC_SPILL_WRITE (R397): A write to MC_SPILL is applied or ignored if out of range. -/
  | mcSpillWrite (k : Fin 16) (acc : Acc)
  /-- MC_REMAP_ENTRY_WRITE (R397): A write to MC_REMAP_ENTRY takes effect only in mode 0 or 1. -/
  | mcRemapEntryWrite (k : Fin 16) (acc : Acc)
  /-- MC_INJECT_ONE_BYTE (R397): Arms the corruption of one byte of a DRAM word at its next write. -/
  | mcInjectOneByte (k : Fin 16) (acc : Acc)
  /-- MC_INJECT_TWO_BYTES (R397): Arms the corruption of two bytes of a DRAM word at its next write. -/
  | mcInjectTwoBytes (k : Fin 16) (acc : Acc)
  /-- PSR_READ (R395): PSR_RD_CMD.go asks the island to read 32 bytes of PSRAM. -/
  | psrRead (i : Island) (acc : Acc)
  /-- NOR_READ (R395): NOR_RD_CMD.go asks the island to read 32 bytes of NOR. -/
  | norRead (i : Island) (acc : Acc)
  /-- READ_DONE (R395): The island has read the data into the read registers and busy clears. -/
  | readDone (i : Island) (src : IslRead)
  /-- BAR2_WRITE (R404): A BAR2 write TLP is mapped through an aperture and written, or dropped. -/
  | bar2Write (t : Tlp)
  /-- BAR2_READ (R404): A BAR2 read TLP is mapped and answered, or refused with a poisoned completion. -/
  | bar2Read (t : Tlp)
  /-- HOST_READ_COMPLETION (R407): A completion for a device read of host memory arrives. -/
  | hostReadCompletion (tag : Nat) (status : CompletionStatus) (data : List Byte)
  /-- COMPLETION_TIMEOUT (R407): A device read of host memory is not answered in 65 ms and its words are poisoned. -/
  | completionTimeout (tag : Nat)
  /-- MSI_SEND (R409): A pending MSI vector is sent once unmasked and sendable. -/
  | msiSend (v : Fin 32)
  /-- PERST (R410): PERST# resets the PCIE block and configuration space only. -/
  | perst
  /-- HOT_RESET (R410): A hot reset resets the PCIE block and configuration space only. -/
  | hotReset
  /-- PCIE_LINK_DOWN (R410): The host link goes down; the PCIE block resets and link_down is raised. -/
  | pcieLinkDown
  /-- D3HOT_EXIT (R410): A transition from D3hot to D0 resets the PCIE block and configuration space. -/
  | d3hotExit
  /-- PCIE_RETRAIN (R400): PCIE_CTRL.retrain retrains the host link. -/
  | pcieRetrain (acc : Acc)
  /-- XAGUS_WRITE (R418): A remote write frame is applied and acknowledged, or refused. -/
  | xagusWrite (l : Fin 8) (f : XFrame)
  /-- READ_REQUEST (R417): A remote read request frame is served through the inbound apertures. -/
  | readRequest (l : Fin 8) (f : XFrame)
  /-- READ_RETURN (R417): A read return frame delivers remote data. -/
  | readReturn (l : Fin 8) (f : XFrame)
  /-- WRITE_ACKNOWLEDGE (R418): A write acknowledgement frame arrives, possibly refused. -/
  | writeAcknowledge (l : Fin 8) (f : XFrame)
  /-- REMOTE_SIGNAL (R418): A remote signal frame is applied as a publication. -/
  | remoteSignal (l : Fin 8) (f : XFrame)
  /-- SIGNAL_ACKNOWLEDGE (R418): A signal acknowledgement frame arrives. -/
  | signalAcknowledge (l : Fin 8) (f : XFrame)
  /-- HELLO (R414): A HELLO frame gives a peer's identity and requested ID. -/
  | hello (l : Fin 8) (f : XFrame)
  /-- LINK_STATE (R414): A link-state frame updates and floods the domain record. -/
  | linkState (l : Fin 8) (f : XFrame)
  /-- COLLECTIVE_DATA (R422): A collective data frame contributes to a collective. -/
  | collectiveData (l : Fin 8) (f : XFrame)
  /-- COLLECTIVE_CONTROL (R421): A collective control frame coordinates a collective's members. -/
  | collectiveControl (l : Fin 8) (f : XFrame)
  /-- TWIN_DIGEST (R425): A twin digest frame arrives; the first copy is published. -/
  | twinDigest (l : Fin 8) (f : XFrame)
  /-- TWIN_CONTROL (R426): A twin control frame, such as a twin restart, arrives. -/
  | twinControl (l : Fin 8) (f : XFrame)
  /-- XL_LINK_DOWN (R412): Eight failed replays, or loss of every lane, take a Xagus link down and routes are recomputed. -/
  | xlLinkDown (l : Fin 8)
  /-- XL_RETRAIN (R413): XL_CTRL.retrain retrains a link without retired lanes. -/
  | xlRetrain (l : Fin 8) (acc : Acc)
  /-- XL_TRAINING_DONE (R413): A link's training ends on the working lanes and frames are replayed. -/
  | xlTrainingDone (l : Fin 8) (lanes : BitVec 4)
  /-- XGS_ENABLE (R414): Setting XGS_CTRL.enable starts domain formation. -/
  | xgsEnable (acc : Acc)
  /-- REDISCOVER (R414): XGS_CTRL.rediscover starts domain formation again. -/
  | rediscover (acc : Acc)
  /-- TWIN_RESTART (R426): XGS_CTRL.twin_restart restarts pairing indices on both modules. -/
  | twinRestart (acc : Acc)
  /-- DOMAIN_QUIESCENT (R414): No link-state record changes for 1 ms; IDs are assigned and routes computed. -/
  | domainQuiescent
  /-- COLLECTIVE_START (R421): Every member's slot has go and its wait satisfied, and the collective starts. -/
  | collectiveStart (n : Fin 64)
  /-- COLLECTIVE_DONE (R423): A member's collective ends; results are visible, status written and signal added. -/
  | collectiveDone (n : Fin 64)
  /-- TWIN_COMPARE (R426): Both digests of a pairing index are present and compared. -/
  | twinCompare (slot : Fin 64) (index : Word)
  /-- TWIN_ABSENT (R429): The twin's digest has not arrived within XGS_TWIN_WAIT. -/
  | twinAbsent (slot : Fin 64)
  /-- ISLAND_TWIN_DIGEST (R425): An island receives the twin's digest over the cross lines and checks it against the Xagus copy. -/
  | islandTwinDigest (i : Island) (slot : Fin 64) (index : Word) (digest : DWord)
  /-- HEARTBEAT (R437): An island sends and receives its heartbeat over the pair line. -/
  | heartbeat (i : Island) (lockstepBad : Bool)
  /-- PEER_DOWN (R437): The peer's heartbeat is absent for 1 ms, or it reports lockstep mismatch; the peer is reset. -/
  | peerDown (i : Island)
  /-- PEER_RETURN (R437): The reset peer boots and copies state from the survivor. -/
  | peerReturn (i : Island)
  /-- PEER_RETURN_TIMEOUT (R437): The peer does not return within 50 ms and the survivor stays single. -/
  | peerReturnTimeout (i : Island)
  /-- HUB_LINK_LOSS (R438): An island loses its Hinge link to HB for 1 ms. -/
  | hubLinkLoss (i : Island) (peerToo : Bool)
  /-- LOCKSTEP_MISMATCH (R434): An island's lockstep monitor finds a mismatch and resets the island. -/
  | lockstepMismatch (i : Island)
  /-- CLOCK_CHECK (R436): An island measures the peer clock and module reference every 1 ms. -/
  | clockCheck (i : Island) (peerPpm : Int) (refPpm : Int)
  /-- FAULT_FORWARD (R441): FLT forwards a block event to the routed islands and logs it. -/
  | faultForward
  /-- ISLAND_FAULT_EVENT (R443): An island receives a forwarded event and acts by its severity. -/
  | islandFaultEvent (i : Island)
  /-- TAP_REPORT (R445): An island receives a tap report from a die and acts on it. -/
  | tapReport (i : Island) (d : Fin 4) (hottest : Option Int) (syndrome : Line)
  /-- TAP_KEEPALIVE_LOSS (R445): A die's tap keep-alive is absent for 5 ms and the island resets it. -/
  | tapKeepaliveLoss (i : Island) (d : Fin 4)
  /-- RELEASE_MESSAGE (R453): An island receives a safety-relevant job's release and opens or joins a deadline timer. -/
  | releaseMessage (i : Island)
  /-- COMPLETION_MESSAGE (R453): An island receives a completion and closes the timer cleanly or records it. -/
  | completionMessage (i : Island)
  /-- DEADLINE_MISS (R456): A deadline timer expires; fallback starts and FLT is asked which agents hold the job. -/
  | deadlineMiss (i : Island) (q : BitVec 20) (tag : Word)
  /-- SLOT_STALE (R455): A routed slot has no result for its slot deadline and is treated as missed. -/
  | slotStale (i : Island) (slot : Fin 64)
  /-- RECOVERY_ANSWER (R456): FLT answers the recovery query and the island resets dies or asks for a block reset. -/
  | recoveryAnswer (i : Island)
  /-- RECOVERY_TIMEOUT (R456): No recovery answer arrives within 2 ms and the module is reset. -/
  | recoveryTimeout (i : Island)
  /-- ENGINE_RESET_TIMEOUT (R456): A reset hub engine page is not ready within 10 ms and the module is reset. -/
  | engineResetTimeout (i : Island)
  /-- RESULT_MESSAGE (R459): An island receives a plan result message, keeps the plan and emits a plan frame. -/
  | resultMessage (i : Island)
  /-- FALLBACK_FRAME (R460): At each cadence period a slot in fallback emits its next fallback frame. -/
  | fallbackFrame (i : Island) (slot : Fin 64)
  /-- STATUS_FRAME (R459): An island emits a status frame every 100 ms. -/
  | statusFrame (i : Island)
  /-- DIE_RESET (R465): An island resets a die with STOP, FENCE and RESET and zeroes its memories. -/
  | dieReset (i : Island) (d : Fin 4)
  /-- DIE_SELF_TEST_DONE (R465): The die's self-test pass and repair entries are applied, and rediscovery follows. -/
  | dieSelfTestDone (d : Fin 4) (failures : List (Fin 26 × Fin 12))
  /-- MODULE_RESET (R466): An island asserts a module reset and the hub restarts. -/
  | moduleReset (i : Island) (cause : BitVec 4)
  /-- CLEAR_LOG (R441): FLT_CTRL.clear_log empties the FLT log. -/
  | clearLog (acc : Acc)
  /-- FLT_INJECT (R471): FLT_INJECT.go forwards a synthetic event, or is refused. -/
  | fltInject (acc : Acc)
  /-- STEST_ENABLE (R497): Setting STEST_CTRL.enable starts the rotation if the test image matches. -/
  | stestEnable (acc : Acc)
  /-- SLICE_START (R478): A slice falls due on a die and an array is chosen for the window. -/
  | sliceStart (d : Fin 4)
  /-- WINDOW_OPEN (R479): The chosen array is idle and its sluice window opens. -/
  | windowOpen (d : Fin 4)
  /-- DRAIN_TIMEOUT (R479): The chosen array is still running after STEST_DRAIN_MAX and the slice is skipped. -/
  | drainTimeout (d : Fin 4)
  /-- PART_DONE (R484): A test part ends and is judged; the window closes after its last part. -/
  | partDone (d : Fin 4) (pass : Bool) (overlapsDip : Bool)
  /-- COVERAGE (R487): An array's age since its last pass exceeds twice the interval and a coverage warning is raised. -/
  | coverage (d : Fin 4) (a : Fin 24) (ageMs : Nat)
  /-- TARGETED_TEST (R488): STEST_TARGET_CMD.go tests the named arrays ahead of the rotation. -/
  | targetedTest (acc : Acc)
  /-- ARRAY_OUT (R490): Removes an array from service once its current slot ends. -/
  | arrayOut (acc : Acc)
  /-- ARRAY_RETURN (R490): Returns a firmware-held array to service. -/
  | arrayReturn (acc : Acc)
  /-- DIE_OUT (R491): Stops placement on a die and has it fenced once no slot runs. -/
  | dieOut (acc : Acc)
  /-- SPILL (R492): Starts copying a stack to DRAM. -/
  | spill (acc : Acc)
  /-- STACK_RETURN (R492): Starts copying a spilled stack back from DRAM. -/
  | stackReturn (acc : Acc)
  /-- STACK_COPY_DONE (R492): A stack spill or return copy ends and the window switches. -/
  | stackCopyDone
  /-- ISLAND_TEST (R493): STEST_ISLAND_CMD resets one island through the other. -/
  | islandTest (acc : Acc)
  /-- REPAIR_CLEAR (R486): STEST_REPAIR_CLEAR.go removes one repair table entry, or is refused. -/
  | repairClear (acc : Acc)
  /-- POWER_GOOD (R516): Both inputs and every rail are in regulation and bring-up starts. -/
  | powerGood
  /-- REQUEST_DEEP_SLEEP (R499): Power state request for Deep Sleep. -/
  | requestDeepSleep (acc : Acc)
  /-- REQUEST_PARK (R499): Power state request for Park. -/
  | requestPark (acc : Acc)
  /-- REQUEST_WARM (R499): Power state request for Warm. -/
  | requestWarm (acc : Acc)
  /-- REQUEST_RUN (R499): Power state request for Run. -/
  | requestRun (acc : Acc)
  /-- UNGATE (R499): One array per die ungates in turn. -/
  | ungate (d : Fin 4)
  /-- GATE (R502): An array idle for PWR_GATE_IDLE is gated. -/
  | gate (n : Arr)
  /-- WAKE (R501): A wake filter frame, WAKE# pin or counter alarm wakes the module from Park or Deep Sleep. -/
  | wake
  /-- MAIN_INPUT_FAULT (R505): The main input leaves its limits for 100 µs and every main rail switches off. -/
  | mainInputFault
  /-- MAIN_INPUT_RESTORED (R505): The main input is back in range for 100 ms and the module restarts. -/
  | mainInputRestored
  /-- ISLAND_INPUT_FAULT (R505): The island input falls too low; both islands reset and the module is held in reset. -/
  | islandInputFault
  /-- ISLAND_INPUT_RESTORED (R505): The island input is in range for 10 ms and the module leaves reset. -/
  | islandInputRestored
  /-- RAIL_FAULT (R507): A rail stays outside its limits long enough for a die or module reset. -/
  | railFault (rail : Fin 10)
  /-- DIP (R508): A core rail falls below its warning level; the dip interval opens and the domain steps to 300 MHz. -/
  | dip (rail : Fin 5) (mv : Nat)
  /-- DIP_STEP_UP (R508): The rail has been above warning for 100 µs and the domain goes up one step or the dip closes. -/
  | dipStepUp (rail : Fin 5) (us : Nat)
  /-- DIP_LONG (R508): A rail stays below warning for SUP_DIP_MAX and is recorded as a fault. -/
  | dipLong (rail : Fin 5)
  /-- THERMAL_SAMPLE (R512): THM samples every sensor and raises warn, hot, coolant or reset actions. -/
  | thermalSample (t : Temps)
  /-- REDUCED_SERVICE (R518): PWR_SERVICE.level write of reduced starts reduced service, or is refused. -/
  | reducedService (acc : Acc)
  /-- FULL_SERVICE (R518): PWR_SERVICE.level write of full lifts reduced service, or is refused. -/
  | fullService (acc : Acc)
  /-- ISLAND_BOOT (R527): An island ROM chooses a bank, verifies its images and starts the island firmware. -/
  | islandBoot (i : Island) (role : Bool) (bootSrc : Bool)
  /-- HUB_IMAGE_ACCEPT (R528): All checkers accept the hub image, the hub firmware starts and GEN_FW_REV is written. -/
  | hubImageAccept
  /-- HUB_IMAGE_REFUSED (R529): A checker refuses the hub image and another bank or island is tried. -/
  | hubImageRefused
  /-- TEST_CONTENT_ACCEPT (R528): The test content image is verified and measurement 7 is written. -/
  | testContentAccept
  /-- HOST_GO (R530): SEC_BOOT_CMD.host_go starts verification of a host-supplied hub image. -/
  | hostGo (acc : Acc)
  /-- TEST_GO (R530): SEC_BOOT_CMD.test_go starts verification of a host-placed test image. -/
  | testGo (acc : Acc)
  /-- CONFIRM (R535): SEC_BOOT_CMD.confirm confirms the trial banks and advances counters. -/
  | confirm (acc : Acc)
  /-- ACTIVATE (R537): SEC_BOOT_CMD.activate requests an activating restart, or is refused. -/
  | activate (acc : Acc)
  /-- ACTIVATING_RESTART (R537): Both islands and the module restart through their ROMs once no slot is mid-fallback. -/
  | activatingRestart
  /-- TRIAL_WINDOW_EXPIRY (R537): A trial bank is not confirmed within its trial window. -/
  | trialWindowExpiry
  /-- ATTEST (R534): SEC_ATTEST_CMD.go writes a signed attestation report. -/
  | attest (acc : Acc)
  /-- CERT (R534): SEC_ATTEST_CMD.cert writes the identity and device-CA certificates. -/
  | cert (acc : Acc)
  /-- ATTEST_DONE (R534): The report or certificates are visible and busy clears. -/
  | attestDone
  /-- UPDATE (R535): SEC_UPDATE_CMD.go verifies an image set and programs the inactive banks. -/
  | update (acc : Acc)
  /-- UPDATE_DONE (R535): Both islands have written their trial banks. -/
  | updateDone
  /-- ENROL (R538): SEC_ENROL_CMD.go writes the owner key digest once. -/
  | enrol (acc : Acc)
  /-- ROLLBACK_ADVANCE (R525): SEC_ROLLBACK_CMD.go raises an anti-rollback counter, or is refused. -/
  | rollbackAdvance (acc : Acc)
  /-- EXTEND (R532): SEC_EXTEND_CMD.go extends a measurement slot. -/
  | extend (acc : Acc)
  /-- CHALLENGE (R540): SEC_DEBUG_CMD.challenge draws a fresh debug nonce. -/
  | challenge (acc : Acc)
  /-- SUBMIT (R541): SEC_DEBUG_CMD.submit checks a debug token and unlocks its scopes, or refuses it. -/
  | submit (acc : Acc)
  /-- LOCK (R541): SEC_DEBUG_CMD.lock relocks every debug scope. -/
  | lock (acc : Acc)
  /-- ARM (R545): FARM_CTRL.arm arms a replay boundary, or is refused. -/
  | arm (acc : Acc)
  /-- DISARM (R558): FARM_CTRL.disarm disarms the boundary and records are applied again. -/
  | disarm (acc : Acc)
  /-- BOUNDARY (R545): Every condition at the armed boundary holds and the state becomes at_boundary. -/
  | boundary
  /-- BOUNDARY_FAIL (R546): The boundary is not reached within FARM_BOUNDARY_WAIT. -/
  | boundaryFail
  /-- CONTINUE (R547): FARM_CTRL.continue disarms and starts the next segment. -/
  | farmContinue (acc : Acc)
  /-- SAVE (R550): FARM_CTRL.save writes a checkpoint image at the boundary. -/
  | save (acc : Acc)
  /-- SAVED (R550): The checkpoint image is written and hashed. -/
  | saved
  /-- RESTORE (R551): FARM_CTRL.restore reads and checks a checkpoint image on a fresh module. -/
  | restore (acc : Acc)
  /-- RESTORED (R551): The image's regions, state block and registers are written and queues enabled. -/
  | restored
  /-- STRAGGLER (R553): Replay has not reached the straggle position in time. -/
  | straggler
  /-- PERIODIC (R554): The telemetry period expires and a periodic record is written. -/
  | periodic
  /-- TAKEOVER (R555): FARM_TAKEOVER.go takes a domain ID and restarts domain formation. -/
  | takeover (acc : Acc)
  /-- RELINK (R556): FARM_RELINK.go holds a link's routes while its optical path moves. -/
  | relink (acc : Acc)
  /-- RELINK_EXPIRED (R556): A relinking link is not up within FARM_RELINK_MAX and is treated as down. -/
  | relinkExpired (l : Fin 8)
  /-- CSI_LINK_CHANGE (R227): A CSI receiver's PHY enters or leaves high-speed reception or completes deskew, changing CSI_STATUS and raising link_change to the islands. -/
  | csiLinkChange (r : Fin 24) (link : Bool) (deskewed : Bool)
  /-- ETH_LINK_CHANGE (R227): An Ethernet MAC gains or loses block lock, FEC alignment or link, changing ETH_STATUS and raising link_change to the islands. -/
  | ethLinkChange (m : Fin 4) (blockLock : Bool) (fecLock : Bool) (link : Bool)
  /-- PCIE_LINK_UP (R410): The host link finishes training and reaches L0, setting PCIE_STATUS.link_up and raising link_up. -/
  | pcieLinkUp (speed : BitVec 3) (width : BitVec 5) (flit : Bool) (master : Bool)
  /-- HOST_DATA_RECORD_CLOSE (R322): A coalesced host-data capture record is closed after 1 µs without a further BAR2 write. -/
  | hostDataRecordClose
  /-- QENG_ENABLE (R366): Setting QENG_CTRL.enable checks QENG_STATE_BASE and starts the queue engine, or is refused with cfg_err. -/
  | qengEnable (acc : Acc)
  /-- ING_ENABLE (R227): Writing ING_CTRL.enable starts ingress, or on clearing stops every stream and drops the items in flight. -/
  | ingEnable (acc : Acc)
  /-- XL_ENABLE (R431): Setting XL_CTRL.enable turns a Xagus link on and starts its training, which leads to domain formation when it comes up. -/
  | xlEnable (l : Fin 8) (acc : Acc)
  /-- THERMAL_DIODE_RELEASE (R513): The islands' thermal diodes read below 115 °C and the module held in reset for overtemperature is released. -/
  | thermalDiodeRelease
deriving DecidableEq, Repr

end Sys2Proof
end

