-- ==== Sys2Proof/Machine/Fp.lean ====
section
/-! DEFINITION. The number formats of R74 and the arithmetic on them: exact values, rounding to nearest with ties to
even, FP32 operations, conversions (R80 to R84, R96 to R101, R105). Bit patterns are naturals. -/

namespace Sys2Proof.Machine

/-! ### Exact values -/

/-- What a bit pattern stands for: NaN, an infinity, or (−1)^neg × m × 2^e. -/
inductive Val where
  | nan
  | inf (neg : Bool)
  | fin (neg : Bool) (m : Nat) (e : Int)
deriving DecidableEq, Repr, Inhabited

/-- A binary floating format: exponent bits, significand bits, bias, whether it has infinities, whether it has NaNs. -/
structure FloatFmt where
  eb   : Nat
  mb   : Nat
  bias : Nat
  inf  : Bool
  nan  : Bool
deriving DecidableEq, Repr

def fp32 : FloatFmt := ⟨8, 23, 127, true, true⟩
def bf16 : FloatFmt := ⟨8, 7, 127, true, true⟩
def fp16 : FloatFmt := ⟨5, 10, 15, true, true⟩
def e5m2 : FloatFmt := ⟨5, 2, 15, true, true⟩
def e4m3 : FloatFmt := ⟨4, 3, 7, false, true⟩
def e2m3 : FloatFmt := ⟨2, 3, 1, false, false⟩
def e3m2 : FloatFmt := ⟨3, 2, 3, false, false⟩
def e2m1 : FloatFmt := ⟨2, 1, 1, false, false⟩
/-- IEEE binary64, for the intermediate arithmetic of rules that name it. -/
def fp64 : FloatFmt := ⟨11, 52, 1023, true, true⟩

/-- Bits of a pattern of the format, sign included. -/
def FloatFmt.width (f : FloatFmt) : Nat := f.eb + f.mb + 1

/-- The magnitude pattern of infinity (exponent all ones), or of the lowest NaN of a format without infinities. -/
def FloatFmt.top (f : FloatFmt) : Nat := (2 ^ f.eb - 1) * 2 ^ f.mb

/-- The magnitude pattern of the largest finite value (R74). -/
def FloatFmt.maxFin (f : FloatFmt) : Nat :=
  if f.inf then f.top - 1 else if f.nan then 2 ^ (f.eb + f.mb) - 2 else 2 ^ (f.eb + f.mb) - 1

/-- The canonical NaN of R99 and R96: 0x7FC0_0000, 0x7FC0, 0x7E00, 0x7E, 0x7F. -/
def FloatFmt.qnan (f : FloatFmt) : Nat :=
  if f.inf then f.top + 2 ^ (f.mb - 1) else 2 ^ (f.eb + f.mb) - 1

/-- The pattern of a signed magnitude. -/
def FloatFmt.signed (f : FloatFmt) (neg : Bool) (mag : Nat) : Nat := (if neg then 2 ^ (f.eb + f.mb) else 0) + mag

/-- The value of a pattern (R74; subnormals honoured). -/
def FloatFmt.val (f : FloatFmt) (bits : Nat) : Val :=
  let neg := bits.testBit (f.eb + f.mb)
  let mag := bits % 2 ^ (f.eb + f.mb)
  if f.inf ∧ mag = f.top then .inf neg
  else if f.maxFin < mag then .nan
  else
    let ex := mag / 2 ^ f.mb
    let frac := mag % 2 ^ f.mb
    if ex = 0 then .fin neg frac (1 - (f.bias : Int) - f.mb)
    else .fin neg (2 ^ f.mb + frac) ((ex : Int) - f.bias - f.mb)

/-! ### Rounding -/

/-- Number of bits of a natural. -/
def bitLen (n : Nat) : Nat := if n = 0 then 0 else Nat.log2 n + 1

/-- m × 2^e rounded to an integer, to nearest with ties to even. -/
def roundInt (m : Nat) (e : Int) : Nat :=
  if 0 ≤ e then m * 2 ^ e.toNat
  else
    let k := (-e).toNat
    let q := m / 2 ^ k
    let r := m % 2 ^ k
    if 2 ^ k < 2 * r ∨ (2 * r = 2 ^ k ∧ q % 2 = 1) then q + 1 else q

/-- Magnitude pattern of m × 2^e rounded to nearest, ties to even, before any overflow is dealt with: a pattern above
`maxFin` means that the rounded magnitude exceeds the largest finite value. -/
def FloatFmt.roundMag (f : FloatFmt) (m : Nat) (e : Int) : Nat :=
  if m = 0 then 0
  else
    let qmin : Int := 1 - (f.bias : Int) - f.mb
    let q := max ((bitLen m : Int) + e - (f.mb + 1)) qmin
    (q - qmin).toNat * 2 ^ f.mb + roundInt m (e - q)

/-- IEEE rounding of an exact value (R80, R83, R99): overflow gives infinity, or NaN in a format without one. The
second component tells a finite overflow. -/
def FloatFmt.round (f : FloatFmt) (neg : Bool) (m : Nat) (e : Int) : Nat × Bool :=
  let mag := f.roundMag m e
  if mag ≤ f.maxFin then (f.signed neg mag, false)
  else ((if f.inf then f.signed neg f.top else f.qnan), true)

/-! ### Numeric flags (ARR_NUM_FLAGS) -/

def flInvalid : Nat := 1
def flOverflow : Nat := 2
def flIntSat : Nat := 4
def flNanIn : Nat := 8

/-- A result pattern with the flags it raises. -/
structure Num where
  val   : Nat
  flags : Nat
deriving DecidableEq, Repr, Inhabited

def Val.isNan : Val → Bool
  | .nan => true
  | _ => false

def Val.isInf : Val → Bool
  | .inf _ => true
  | _ => false

def Val.sign : Val → Bool
  | .nan => false
  | .inf n => n
  | .fin n _ _ => n

def Val.isZero : Val → Bool
  | .fin _ m _ => m == 0
  | _ => false

/-- The value with its sign changed. -/
def Val.neg : Val → Val
  | .nan => .nan
  | .inf n => .inf !n
  | .fin n m e => .fin (!n) m e

/-- A finite value as an integer multiple of 2^q, q not above its exponent. -/
def Val.scaled (v : Val) (q : Int) : Int :=
  match v with
  | .fin n m e => let x : Int := (m * 2 ^ (e - q).toNat : Nat); if n then -x else x
  | _ => 0

/-- Exponent of a finite value. -/
def Val.exp : Val → Int
  | .fin _ _ e => e
  | _ => 0

/-- An exact integer multiple of 2^q rounded; an exact zero takes the sign `z`. -/
def FloatFmt.roundScaled (f : FloatFmt) (x : Int) (q : Int) (z : Bool) : Nat × Bool :=
  if x = 0 then (f.signed z 0, false) else f.round (decide (x < 0)) x.natAbs q

/-- A finite overflow as a flag. -/
def ovFlag (b : Bool) : Nat := if b then flOverflow else 0

/-- NaN from a NaN operand. -/
def FloatFmt.nanIn (f : FloatFmt) : Num := ⟨f.qnan, flNanIn⟩
/-- NaN made from operands none of which is NaN. -/
def FloatFmt.made (f : FloatFmt) : Num := ⟨f.qnan, flInvalid⟩

/-! ### Operations with one rounding (R99, R105) -/

/-- The sum of two values. -/
def FloatFmt.addV (f : FloatFmt) (a b : Val) : Num :=
  match a, b with
  | .nan, _ => f.nanIn
  | _, .nan => f.nanIn
  | .inf x, .inf y => if x = y then ⟨f.signed x f.top, 0⟩ else f.made
  | .inf x, _ => ⟨f.signed x f.top, 0⟩
  | _, .inf y => ⟨f.signed y f.top, 0⟩
  | .fin x _ e, .fin y _ g =>
    let q := min e g
    let r := f.roundScaled (a.scaled q + b.scaled q) q (x && y)
    ⟨r.1, ovFlag r.2⟩

/-- The exact product of two values. -/
def Val.mul (a b : Val) : Val :=
  match a, b with
  | .nan, _ => .nan
  | _, .nan => .nan
  | .inf x, .inf y => .inf (x != y)
  | .inf x, .fin y m _ => if m = 0 then .nan else .inf (x != y)
  | .fin x m _, .inf y => if m = 0 then .nan else .inf (x != y)
  | .fin x m e, .fin y n g => .fin (x != y) (m * n) (e + g)

/-- A value rounded to the format. -/
def FloatFmt.ofVal (f : FloatFmt) : Val → Num
  | .nan => ⟨f.qnan, 0⟩
  | .inf n => ⟨f.signed n f.top, 0⟩
  | .fin n m e => let r := f.round n m e; ⟨r.1, ovFlag r.2⟩

/-- The product of two values, one rounding. -/
def FloatFmt.mulV (f : FloatFmt) (a b : Val) : Num :=
  if a.isNan || b.isNan then f.nanIn
  else match a.mul b with
    | .nan => f.made
    | v => f.ofVal v

/-- a × b + c, one rounding. -/
def FloatFmt.fmaV (f : FloatFmt) (a b c : Val) : Num :=
  if a.isNan || b.isNan || c.isNan then f.nanIn
  else match a.mul b with
    | .nan => f.made
    | p => let r := f.addV p c; if r.flags = flNanIn then f.made else r

/-- A quotient of positive naturals scaled by 2^e, as a value whose last bit is sticky. -/
def quotient (m n : Nat) (e : Int) : Nat × Int :=
  let q := m * 2 ^ 160 / n
  (2 * q + (if m * 2 ^ 160 % n = 0 then 0 else 1), e - 161)

/-- a / b, one rounding. -/
def FloatFmt.divV (f : FloatFmt) (a b : Val) : Num :=
  match a, b with
  | .nan, _ => f.nanIn
  | _, .nan => f.nanIn
  | .inf _, .inf _ => f.made
  | .inf x, .fin y _ _ => ⟨f.signed (x != y) f.top, 0⟩
  | .fin x _ _, .inf y => ⟨f.signed (x != y) 0, 0⟩
  | .fin x m e, .fin y n g =>
    if n = 0 then (if m = 0 then f.made else ⟨f.signed (x != y) f.top, 0⟩)
    else if m = 0 then ⟨f.signed (x != y) 0, 0⟩
    else
      let q := quotient m n (e - g)
      let r := f.round (x != y) q.1 q.2
      ⟨r.1, ovFlag r.2⟩

/-- The integer square root: `k` bits decided, from the top. -/
def isqrtGo (n : Nat) : Nat → Nat → Nat
  | 0, r => r
  | k + 1, r => let t := r + 2 ^ k; isqrtGo n k (if t * t ≤ n then t else r)

/-- The integer part of the square root. -/
def isqrt (n : Nat) : Nat := isqrtGo n (bitLen n / 2 + 1) 0

/-- The square root of a value, one rounding. -/
def FloatFmt.sqrtV (f : FloatFmt) (a : Val) : Num :=
  match a with
  | .nan => f.nanIn
  | .inf n => if n then f.made else ⟨f.signed false f.top, 0⟩
  | .fin n m e =>
    if m = 0 then ⟨f.signed n 0, 0⟩
    else if n then f.made
    else
      let e2 := e - (e % 2)
      let m2 := m * 2 ^ (e % 2).toNat * 2 ^ 240
      let r := isqrt m2
      let q := f.round false (2 * r + (if r * r = m2 then 0 else 1)) (e2 / 2 - 121)
      ⟨q.1, ovFlag q.2⟩

/-! ### FP32 -/

def f32v (x : Nat) : Val := fp32.val (x % 2 ^ 32)
def f32add (a b : Nat) : Num := fp32.addV (f32v a) (f32v b)
def f32sub (a b : Nat) : Num := fp32.addV (f32v a) (f32v b).neg
def f32mul (a b : Nat) : Num := fp32.mulV (f32v a) (f32v b)
def f32fma (a b c : Nat) : Num := fp32.fmaV (f32v a) (f32v b) (f32v c)
def f32div (a b : Nat) : Num := fp32.divV (f32v a) (f32v b)
def f32sqrt (a : Nat) : Num := fp32.sqrtV (f32v a)

/-- Order of two values that are not NaN, −0 equal to +0. -/
def Val.lt (a b : Val) : Bool :=
  match a, b with
  | .nan, _ => false
  | _, .nan => false
  | .inf x, .inf y => x && !y
  | .inf x, .fin _ _ _ => x
  | .fin _ _ _, .inf y => !y
  | .fin _ _ e, .fin _ _ g => let q := min e g; decide (a.scaled q < b.scaled q)

def Val.eq (a b : Val) : Bool := !a.isNan && !b.isNan && !a.lt b && !b.lt a
def Val.le (a b : Val) : Bool := a.lt b || a.eq b

def f32lt (a b : Nat) : Bool := (f32v a).lt (f32v b)
def f32le (a b : Nat) : Bool := (f32v a).le (f32v b)
def f32isNan (a : Nat) : Bool := (f32v a).isNan
def f32isFin (a : Nat) : Bool := !(f32v a).isNan && !(f32v a).isInf

/-- min of R99: the non-NaN operand when exactly one is NaN, −0 below +0. -/
def f32min (a b : Nat) : Num :=
  let x := f32v a
  let y := f32v b
  if x.isNan && y.isNan then fp32.nanIn
  else if x.isNan then ⟨b % 2 ^ 32, flNanIn⟩
  else if y.isNan then ⟨a % 2 ^ 32, flNanIn⟩
  else if x.isZero && y.isZero then ⟨if x.sign then a % 2 ^ 32 else b % 2 ^ 32, 0⟩
  else ⟨if y.lt x then b % 2 ^ 32 else a % 2 ^ 32, 0⟩

/-- max of R99. -/
def f32max (a b : Nat) : Num :=
  let x := f32v a
  let y := f32v b
  if x.isNan && y.isNan then fp32.nanIn
  else if x.isNan then ⟨b % 2 ^ 32, flNanIn⟩
  else if y.isNan then ⟨a % 2 ^ 32, flNanIn⟩
  else if x.isZero && y.isZero then ⟨if x.sign then b % 2 ^ 32 else a % 2 ^ 32, 0⟩
  else ⟨if x.lt y then b % 2 ^ 32 else a % 2 ^ 32, 0⟩

/-- The FP32 pattern of an integer, rounded. -/
def f32ofInt (i : Int) : Nat := (fp32.roundScaled i 0 false).1

/-- A rational n / 2^k as FP32. -/
def f32ofScaled (i : Int) (e : Int) : Nat := (fp32.roundScaled i e false).1

/-- The integer nearest to a value, ties to even; none for NaN and infinities. -/
def Val.toInt : Val → Option Int
  | .fin n m e => let r : Int := (roundInt m e : Nat); some (if n then -r else r)
  | _ => none

/-- The largest integer not above a value. -/
def Val.floor : Val → Int
  | .fin n m e =>
    let x : Int := if n then -(m : Int) else m
    if 0 ≤ e then x * 2 ^ e.toNat else x.fdiv (2 ^ (-e).toNat)
  | _ => 0

/-! ### Formats by code (R121) -/

/-- Is the code a format (0xE and 0xF are reserved)? -/
def fmtOk (c : Nat) : Bool := decide (c < 14)

/-- Bits of an element. -/
def fmtWidth (c : Nat) : Nat :=
  if c = 0 ∨ c = 1 ∨ c = 4 ∨ c = 5 ∨ c = 6 then 8
  else if c = 2 ∨ c = 3 ∨ c = 9 then 4
  else if c = 7 ∨ c = 8 then 6
  else if c = 10 ∨ c = 11 then 16
  else 32

/-- The floating format of a code, if it is one. -/
def fmtFloat (c : Nat) : Option FloatFmt :=
  match c with
  | 4 => some e4m3
  | 5 => some e5m2
  | 7 => some e2m3
  | 8 => some e3m2
  | 9 => some e2m1
  | 10 => some bf16
  | 11 => some fp16
  | 12 => some fp32
  | _ => none

/-- An MX element format: MXINT8, MXFP6, MXFP4. -/
def fmtMx (c : Nat) : Bool := decide (6 ≤ c ∧ c ≤ 9)

/-- An integer format of R77: INT8, UINT8, INT4, UINT4. -/
def fmtInt (c : Nat) : Bool := decide (c < 4)

/-- Range of an integer format. -/
def fmtRange (c : Nat) : Int × Int :=
  match c with
  | 0 => (-128, 127)
  | 1 => (0, 255)
  | 2 => (-8, 7)
  | 3 => (0, 15)
  | _ => (-2147483648, 2147483647)

/-- The integer a pattern of an integer format spells. -/
def fmtToInt (c x : Nat) : Int :=
  match c with
  | 0 => let v : Nat := x % 256; if v < 128 then (v : Int) else (v : Int) - 256
  | 1 => ((x % 256 : Nat) : Int)
  | 2 => let v : Nat := x % 16; if v < 8 then (v : Int) else (v : Int) - 16
  | 3 => ((x % 16 : Nat) : Int)
  | _ => let v : Nat := x % 2 ^ 32; if v < 2 ^ 31 then (v : Int) else (v : Int) - 2 ^ 32

/-- The value of an element (R74), an MX element with scale 2^0. -/
def fmtVal (c x : Nat) : Val :=
  match fmtFloat c with
  | some f => f.val (x % 2 ^ f.width)
  | none =>
    if c = 6 then let i := fmtToInt 0 x; .fin (decide (i < 0)) i.natAbs (-6)
    else let i := fmtToInt c x; .fin (decide (i < 0)) i.natAbs 0

/-- The pattern of an integer in `w` bits. -/
def intPat (w : Nat) (i : Int) : Nat := (i % 2 ^ w).toNat

/-- An integer saturated to a format's range. -/
def satInt (c : Nat) (i : Int) : Num :=
  let r := fmtRange c
  let j := max r.1 (min r.2 i)
  ⟨intPat (fmtWidth c) j, if j = i then 0 else flIntSat⟩

/-- Conversion to a target that is not an MX element (R96); to FP32 it is IEEE whatever `sat` (R99). -/
def convert (fo : Nat) (sat : Bool) (v : Val) : Num :=
  let sat := sat && fo != 12
  match fmtFloat fo with
  | some f =>
    match v with
    | .nan => ⟨f.qnan, flNanIn⟩
    | .inf n =>
      if sat then ⟨f.signed n f.maxFin, flOverflow⟩
      else if f.inf then ⟨f.signed n f.top, 0⟩
      else ⟨f.qnan, flInvalid⟩
    | .fin n m e =>
      let mag := f.roundMag m e
      if mag ≤ f.maxFin then ⟨f.signed n mag, 0⟩
      else if sat then ⟨f.signed n f.maxFin, flOverflow⟩
      else ⟨(if f.inf then f.signed n f.top else f.qnan), flOverflow⟩
  | none =>
    match v with
    | .nan => ⟨0, flNanIn + flInvalid⟩
    | .inf n => ⟨intPat (fmtWidth fo) (if n then (fmtRange fo).1 else (fmtRange fo).2), flIntSat⟩
    | .fin _ _ _ => satInt fo (v.toInt.getD 0)

/-! ### MX blocks (R97) -/

/-- floor(log2) of a finite non-zero value. -/
def Val.log2 : Val → Int
  | .fin _ m e => (bitLen m : Int) - 1 + e
  | _ => 0

/-- Is the magnitude of `a` above that of `b`? -/
def Val.magLt (a b : Val) : Bool :=
  let abs := fun (v : Val) => if v.sign then v.neg else v
  (abs a).lt (abs b)

/-- emax of an MX element type. -/
def mxEmax (fo : Nat) : Int := if fo = 7 ∨ fo = 9 then 2 else if fo = 8 then 4 else 0

/-- An element divided by 2^X, rounded and saturated to the element format. -/
def mxElem (fo : Nat) (v : Val) (x : Int) : Nat :=
  if fo = 6 then
    match v with
    | .inf n => intPat 8 (if n then -127 else 127)
    | .fin n m e =>
      let r : Int := (roundInt m (e - x + 6) : Nat)
      intPat 8 (max (-127) (min 127 (if n then -r else r)))
    | .nan => 0
  else
    match fmtFloat fo, v with
    | some f, .inf n => f.signed n f.maxFin
    | some f, .fin n m e => f.signed n (min (f.roundMag m (e - x)) f.maxFin)
    | _, _ => 0

/-- A block converted to MX (R97): the scale byte, the elements, the flags. -/
def mxBlock (fo : Nat) (vs : List Val) : Nat × List Nat × Nat :=
  if vs.any Val.isNan then (0xFF, vs.map fun _ => 0, flNanIn)
  else
    let amax := vs.foldl (fun a v => if a.magLt v then v else a) (.fin false 0 0)
    if amax.isZero then (0, vs.map fun _ => 0, 0)
    else
      let x := if amax.isInf then 127 else max (-127) (min 127 (amax.log2 - mxEmax fo))
      ((x + 127).toNat, vs.map fun v => mxElem fo v x, if amax.isInf then flOverflow else 0)

/-! ### Dot products (R77 to R86) -/

/-- Which path a pair of operand formats takes (R77). -/
inductive PairPath where
  | integer | floating | split | refused
deriving DecidableEq, Repr

/-- An 8-, 6- or 4-bit operand of the floating 8-bit row of R77. -/
def fmtSmall (c : Nat) : Bool := decide (c < 10)

def pairPath (fa fb : Nat) : PairPath :=
  if fmtInt fa && fmtInt fb then .integer
  else if fmtSmall fa && fmtSmall fb then
    -- not both integer and not both 4-bit, but for two MXFP4
    if fmtWidth fa = 4 ∧ fmtWidth fb = 4 ∧ ¬(fa = 9 ∧ fb = 9) then .refused else .floating
  else if (fa = 10 ∨ fa = 11) ∧ (fb = 10 ∨ fb = 11) then .floating
  else if fa = 12 ∧ fb = 12 then .split
  else .refused

/-- Does a pair need four-bit products (both operands of 4 bits) or the 16-bit products (R106)? -/
def pairFourBit (fa fb : Nat) : Bool := fmtWidth fa == 4 && fmtWidth fb == 4
def pairSixteen (fa fb : Nat) : Bool := decide (10 ≤ fa ∧ 10 ≤ fb)

/-- hi(x) and lo(x) of the split-BF16 path (R84), as exact values. -/
def splitBf16 (v : Val) : Val × Val :=
  match v with
  | .fin n m e =>
    if m = 0 then (v, .fin false 0 0)
    else
      -- x rounded to BF16 precision as an exact value, 2^128 included
      let q := max ((bitLen m : Int) + e - 8) (-133)
      let hi : Val := .fin n (roundInt m (e - q)) q
      let s := min e q
      let d := v.scaled s - hi.scaled s
      let lo := (bf16.roundScaled d s false).1
      (hi, bf16.val lo)
  | _ => (v, .fin false 0 0)

/-- The exact products of an element pair. -/
def products (split : Bool) (a b : Val) : List Val :=
  if split then
    let sa := splitBf16 a
    let sb := splitBf16 b
    if a.isNan || b.isNan || a.isInf || b.isInf then [a.mul b]
    else [sa.1.mul sb.1, sa.1.mul sb.2, sa.2.mul sb.1]
  else [a.mul b]

/-- Exact sum of finite products in units of 2^-266 (R80). -/
def exactSum (ps : List Val) : Int := ps.foldl (fun s p => s + p.scaled (-266)) 0

/-- A floating DPU step (R80, R82, R83): the element pairs and the two block scales. -/
def dpuStep (split : Bool) (as bs : List Val) (sa sb : Nat) : Num :=
  let pairs := as.zip bs
  let nanOp := pairs.any fun p => p.1.isNan || p.2.isNan
  let nin := if nanOp ∨ (!pairs.isEmpty ∧ (sa = 0xFF ∨ sb = 0xFF)) then flNanIn else 0
  let ps := pairs.flatMap fun p => products split p.1 p.2
  if nin ≠ 0 then ⟨fp32.qnan, nin⟩
  else if ps.any Val.isNan then ⟨fp32.qnan, flInvalid⟩
  else
    let pos := ps.any fun p => p.isInf && !p.sign
    let neg := ps.any fun p => p.isInf && p.sign
    if pos && neg then ⟨fp32.qnan, flInvalid⟩
    else if pos then ⟨fp32.signed false fp32.top, 0⟩
    else if neg then ⟨fp32.signed true fp32.top, 0⟩
    else
      let r := fp32.roundScaled (exactSum ps) (-266 + (sa : Int) + sb - 254) false
      ⟨r.1, ovFlag r.2⟩

/-- An integer DPU step (R81). -/
def dpuInt (as bs : List Int) : Int := ((as.zip bs).map fun p => p.1 * p.2).sum

/-- A flag-collecting FP32 addition. -/
def addN (a b : Num) : Num := let r := f32add a.val b.val; ⟨r.val, a.flags ||| b.flags ||| r.flags⟩

/-- The combination of the eight pieces of a K-tile (R86). -/
def pieceTree (q : List Num) : Num :=
  let g := fun i => q.getD i ⟨0, 0⟩
  addN (addN (addN (g 0) (g 1)) (addN (g 2) (g 3))) (addN (addN (g 4) (g 5)) (addN (g 6) (g 7)))

/-- The largest power of two below `n`, for n of 2 or more (R87). -/
def treeSplit (n : Nat) : Nat := 2 ^ Nat.log2 (n - 1)

/-- The canonical tree of R87 over a list of values; `fuel` bounds its depth. -/
def treeWith {α : Type} (op : α → α → α) (d : α) : Nat → List α → α
  | 0, l => l.headD d
  | fuel + 1, l =>
    if l.length ≤ 1 then l.headD d
    else
      let h := treeSplit l.length
      op (treeWith op d fuel (l.take h)) (treeWith op d fuel (l.drop h))

/-- The canonical tree with enough fuel for any list. -/
def tree {α : Type} (op : α → α → α) (d : α) (l : List α) : α := treeWith op d (bitLen l.length + 1) l

/-- VREDSUM's group sum: 256 lanes, a short group filled with +0 (R101, R123). -/
def laneSum (l : List Nat) : Num :=
  tree addN ⟨0, 0⟩ ((l ++ List.replicate (256 - l.length) 0).map fun x => ⟨x, 0⟩)

end Sys2Proof.Machine
end

