-- ==== Sys2Proof/Machine/ArrayDecode.lean ====
section
/-! DEFINITION. The array instruction word: its fields, operand references and format codes, and the checks that the
word alone decides (R119 to R124). -/

namespace Sys2Proof.Machine

/-- The fields of an instruction word (R119). -/
structure Insn where
  op   : Nat
  fa   : Nat
  fb   : Nat
  fo   : Nat
  sat  : Bool
  zero : Nat
  mod  : Nat
  imm  : Nat
  c    : Nat
  b    : Nat
  a    : Nat
  d    : Nat
deriving DecidableEq, Repr, Inhabited

/-- Bits [hi:lo] of an instruction word. -/
def wordBits (w : BitVec 128) (hi lo : Nat) : Nat := w.toNat / 2 ^ lo % 2 ^ (hi - lo + 1)

/-- The fields of a word (R119). -/
def decodeInsn (w : BitVec 128) : Insn where
  op := wordBits w 127 120
  fa := wordBits w 119 116
  fb := wordBits w 115 112
  fo := wordBits w 111 108
  sat := w.getLsbD 107
  zero := wordBits w 106 104
  mod := wordBits w 103 96
  imm := wordBits w 95 64
  c := wordBits w 63 48
  b := wordBits w 47 32
  a := wordBits w 31 16
  d := wordBits w 15 0

/-- What an operand reference names (R120). -/
inductive Ref where
  | lb (word : Nat)
  | sreg (r : Nat)
  | td (slot : Nat)
  | obj (object : Nat)
  | none
  | reserved
deriving DecidableEq, Repr

/-- An operand reference decoded (R120). -/
def decodeRef (r : Nat) : Ref :=
  if r < 0x8000 then .lb r
  else if r < 0x8020 then .sreg (r - 0x8000)
  else if 0xA000 ≤ r ∧ r < 0xA010 then .td (r - 0xA000)
  else if 0xC000 ≤ r ∧ r < 0xD000 then .obj (r - 0xC000)
  else if r = 0xFFFF then .none
  else .reserved

/-- What an operation accepts at an operand place. -/
inductive Want where
  /-- not used: must be none -/
  | n
  /-- scalar register -/
  | s
  /-- scalar register or none -/
  | sn
  /-- line-buffer word, named directly or by a scalar -/
  | l
  /-- line-buffer word or none -/
  | ln
  /-- tensor descriptor slot -/
  | t
  /-- fence object -/
  | f
deriving DecidableEq, Repr

def Want.accepts (w : Want) (r : Ref) : Bool :=
  match w, r with
  | .n, .none => true
  | .s, .sreg _ => true
  | .sn, .sreg _ => true
  | .sn, .none => true
  | .l, .lb _ => true
  | .l, .sreg _ => true
  | .ln, .lb _ => true
  | .ln, .sreg _ => true
  | .ln, .none => true
  | .t, .td _ => true
  | .f, .obj _ => true
  | _, _ => false

/-- Which bits of mod an operation uses (R122). -/
inductive ModUse where
  | none | bit0 | tiles | vector | predicate
deriving DecidableEq, Repr

/-- Which format fields an operation uses, and what they may hold (R122, R123). -/
inductive FmtUse where
  | none | pair | cvt | cvtmx | pack | unpack
deriving DecidableEq, Repr

/-- A row of R123: opcode, operands d, a, b, c, formats, modifier, mark N. -/
structure OpInfo where
  op   : Nat
  d    : Want
  a    : Want
  b    : Want
  c    : Want
  fmt  : FmtUse := .none
  mod  : ModUse := .none
  n    : Bool := false
deriving DecidableEq, Repr

/-- The operations of R123. -/
def opTable : List OpInfo :=
  [⟨0x00, .n, .n, .n, .n, .none, .none, false⟩, ⟨0x01, .n, .n, .n, .n, .none, .none, false⟩,
   ⟨0x02, .n, .n, .n, .n, .none, .none, false⟩, ⟨0x03, .n, .s, .n, .n, .none, .none, false⟩,
   ⟨0x04, .n, .s, .n, .n, .none, .none, false⟩, ⟨0x05, .n, .s, .n, .n, .none, .none, false⟩,
   ⟨0x06, .n, .n, .n, .n, .none, .none, false⟩, ⟨0x07, .n, .n, .n, .n, .none, .none, false⟩,
   ⟨0x08, .s, .n, .n, .n, .none, .none, false⟩, ⟨0x09, .s, .n, .n, .n, .none, .none, false⟩,
   ⟨0x0A, .s, .s, .sn, .n, .none, .none, false⟩, ⟨0x0B, .s, .s, .s, .n, .none, .none, false⟩,
   ⟨0x0C, .s, .s, .n, .n, .none, .none, false⟩, ⟨0x0D, .s, .t, .n, .n, .none, .none, false⟩]
  ++ [⟨0x10, .n, .n, .n, .n, .none, .none, false⟩, ⟨0x11, .n, .n, .n, .n, .none, .none, false⟩,
   ⟨0x12, .n, .n, .n, .n, .none, .none, false⟩, ⟨0x13, .n, .n, .n, .n, .none, .none, false⟩,
   ⟨0x14, .n, .n, .n, .n, .none, .none, false⟩, ⟨0x15, .n, .n, .n, .f, .none, .none, false⟩,
   ⟨0x16, .n, .s, .n, .f, .none, .none, false⟩, ⟨0x17, .n, .n, .sn, .f, .none, .bit0, false⟩,
   ⟨0x18, .n, .s, .s, .n, .none, .none, false⟩, ⟨0x19, .n, .s, .s, .s, .none, .none, false⟩,
   ⟨0x1A, .n, .s, .s, .n, .none, .bit0, false⟩, ⟨0x1B, .s, .n, .n, .n, .none, .bit0, false⟩]
  ++ [⟨0x20, .l, .s, .n, .n, .none, .none, false⟩, ⟨0x21, .s, .l, .n, .n, .none, .none, false⟩,
   ⟨0x22, .l, .t, .s, .n, .none, .none, false⟩, ⟨0x23, .t, .l, .s, .n, .none, .none, false⟩,
   ⟨0x24, .l, .t, .l, .n, .none, .none, false⟩, ⟨0x25, .t, .l, .l, .n, .none, .none, false⟩,
   ⟨0x26, .t, .l, .l, .n, .none, .none, true⟩, ⟨0x27, .t, .l, .l, .n, .none, .none, false⟩,
   ⟨0x28, .l, .l, .n, .n, .none, .none, false⟩, ⟨0x29, .l, .n, .s, .n, .none, .none, false⟩]
  ++ [⟨0x30, .s, .l, .l, .ln, .pair, .tiles, false⟩, ⟨0x31, .s, .l, .l, .l, .pair, .tiles, false⟩,
   ⟨0x32, .l, .s, .n, .n, .none, .tiles, false⟩, ⟨0x33, .l, .l, .n, .n, .none, .bit0, false⟩,
   ⟨0x34, .l, .l, .n, .n, .none, .bit0, false⟩, ⟨0x35, .l, .l, .l, .n, .none, .none, false⟩,
   ⟨0x36, .l, .l, .l, .s, .pair, .tiles, false⟩]
  ++ [⟨0x40, .l, .l, .l, .n, .none, .vector, false⟩, ⟨0x41, .l, .l, .l, .n, .none, .vector, false⟩,
   ⟨0x42, .l, .l, .l, .n, .none, .vector, false⟩, ⟨0x43, .l, .l, .l, .l, .none, .vector, false⟩,
   ⟨0x44, .l, .l, .l, .n, .none, .vector, false⟩, ⟨0x45, .l, .l, .n, .n, .none, .vector, false⟩,
   ⟨0x46, .l, .l, .l, .n, .none, .vector, false⟩, ⟨0x47, .l, .l, .l, .n, .none, .vector, false⟩,
   ⟨0x48, .l, .l, .l, .n, .none, .predicate, false⟩, ⟨0x49, .l, .l, .l, .l, .none, .vector, false⟩]
  ++ [⟨0x50, .l, .l, .l, .n, .none, .vector, false⟩, ⟨0x51, .l, .l, .l, .n, .none, .vector, false⟩,
   ⟨0x52, .l, .l, .l, .n, .none, .vector, false⟩, ⟨0x53, .l, .l, .l, .n, .none, .vector, false⟩,
   ⟨0x54, .l, .l, .n, .n, .cvt, .vector, false⟩, ⟨0x55, .l, .l, .n, .l, .cvtmx, .vector, false⟩,
   ⟨0x56, .l, .l, .n, .n, .none, .vector, false⟩, ⟨0x57, .l, .l, .n, .n, .none, .vector, false⟩]
  ++ [⟨0x60, .l, .l, .n, .n, .none, .none, false⟩, ⟨0x61, .l, .l, .l, .n, .none, .none, false⟩,
   ⟨0x62, .l, .l, .n, .n, .pack, .none, false⟩, ⟨0x63, .l, .l, .n, .n, .unpack, .none, false⟩,
   ⟨0x70, .l, .l, .n, .n, .none, .none, true⟩, ⟨0x71, .l, .l, .n, .n, .none, .none, true⟩,
   ⟨0x72, .l, .l, .n, .n, .none, .none, true⟩, ⟨0x73, .l, .l, .n, .n, .none, .none, true⟩]
  ++ [⟨0xF0, .s, .n, .n, .n, .none, .none, true⟩, ⟨0xF1, .s, .n, .n, .n, .none, .none, true⟩,
   ⟨0xF2, .n, .l, .n, .n, .none, .none, false⟩, ⟨0xF3, .s, .l, .n, .n, .none, .none, false⟩,
   ⟨0xF4, .n, .n, .n, .n, .none, .none, false⟩]

/-- The row of R123 of an opcode. -/
def opInfo (op : Nat) : Option OpInfo := opTable.find? fun r => decide (r.op = op)

/-- The formats an operation uses hold what it accepts; those it does not use are 0 (R122). -/
def fmtUseOk (i : Insn) (u : FmtUse) : Bool :=
  match u with
  | .none => decide (i.fa = 0 ∧ i.fb = 0 ∧ i.fo = 0) && !i.sat
  | .pair => fmtOk i.fa && fmtOk i.fb && decide (i.fo = 12 ∨ i.fo = 13) && !i.sat
  | .cvt => fmtOk i.fa && decide (i.fb = 0) && fmtOk i.fo && !fmtMx i.fo
  | .cvtmx => decide (i.fa = 12 ∧ i.fb = 0) && fmtMx i.fo && !i.sat
  | .pack => decide (i.fb = 0) && fmtOk i.fa && decide (fmtWidth i.fa = 8) && fmtOk i.fo && decide (fmtWidth i.fo < 8)
      && !i.sat
  | .unpack => decide (i.fb = 0) && !i.sat
      && decide ((i.fa = 2 ∧ i.fo = 0) ∨ (i.fa = 3 ∧ i.fo = 1) ∨ (7 ≤ i.fa ∧ i.fa ≤ 9 ∧ i.fo = i.fa))

/-- The modifier uses only the bits of its operation, and names what it may (R122 to R126). -/
def modUseOk (i : Insn) (u : ModUse) : Bool :=
  match u with
  | .none => decide (i.mod = 0)
  | .bit0 => decide (i.mod < 2)
  | .tiles => decide (1 ≤ i.mod)
  | .vector => decide (i.mod % 64 = 0)
  | .predicate => decide (i.mod % 64 < 5)

/-- Operations with a vector length in imm, 1 to 262,144 (R123). -/
def hasLength (op : Nat) : Bool :=
  decide ((0x40 ≤ op ∧ op < 0x58) ∨ (0x61 ≤ op ∧ op ≤ 0x63) ∨ (0x70 ≤ op ∧ op ≤ 0x73))

/-- Operations that branch to imm. -/
def branches (op : Nat) : Bool := decide ((0x02 ≤ op ∧ op ≤ 0x06) ∨ op = 0x19)

/-- The branch target (R123: JMP names imm[11:0]). -/
def Insn.target (i : Insn) : Nat := if i.op = 0x02 then i.imm % 4096 else i.imm

/-- Does operand b suit mod[7] (R124: a broadcast b is a scalar register)? -/
def broadcastOk (i : Insn) : Bool :=
  !(decide (0x40 ≤ i.op ∧ i.op < 0x60) && i.mod.testBit 7)
    || (match decodeRef i.b with | .sreg _ => true | _ => false)

/-- The check of R122 that the word and the program's length decide. -/
def Insn.legal (i : Insn) (count : Nat) : Bool :=
  match opInfo i.op with
  | none => false
  | some r =>
    decide (i.zero = 0) && r.d.accepts (decodeRef i.d) && r.a.accepts (decodeRef i.a) && r.b.accepts (decodeRef i.b)
      && r.c.accepts (decodeRef i.c) && fmtUseOk i r.fmt && modUseOk i r.mod && broadcastOk i
      && (!branches i.op || decide (i.target < count))
      && (!hasLength i.op || decide (1 ≤ i.imm ∧ i.imm ≤ 262144))
      && (decide (i.op ≠ 0x17) || decide ((decodeRef i.b = .none) ↔ (i.mod = 0)))

/-- Is the operation marked N (R123)? -/
def Insn.markN (i : Insn) : Bool :=
  match opInfo i.op with
  | some r => r.n
  | none => false

end Sys2Proof.Machine
end

