-- ==== Sys2Proof/Machine/Digest.lean ====
section
/-! DEFINITION. Digests and checks: SHA3-512 (FIPS 202; R26, R115, R331, R534), CRC-16-CCITT (R11), CRC-32 (R218)
and CRC-64 (R302, R425). -/

namespace Sys2Proof.Machine

/-! ### SHA3-512 -/

/-- Round constants of Keccak-f[1600]. -/
def keccakRC : List DWord :=
  [0x0000000000000001#64, 0x0000000000008082#64, 0x800000000000808A#64, 0x8000000080008000#64,
   0x000000000000808B#64, 0x0000000080000001#64, 0x8000000080008081#64, 0x8000000000008009#64,
   0x000000000000008A#64, 0x0000000000000088#64, 0x0000000080008009#64, 0x000000008000000A#64,
   0x000000008000808B#64, 0x800000000000008B#64, 0x8000000000008089#64, 0x8000000000008003#64,
   0x8000000000008002#64, 0x8000000000000080#64, 0x000000000000800A#64, 0x800000008000000A#64,
   0x8000000080008081#64, 0x8000000000008080#64, 0x0000000080000001#64, 0x8000000080008008#64]

/-- Rotation offsets of rho, lane x + 5y. -/
def keccakRot : List Nat :=
  [0, 1, 62, 28, 27, 36, 44, 6, 55, 20, 3, 10, 43, 25, 39, 41, 45, 15, 21, 8, 18, 2, 61, 56, 14]

/-- One round of Keccak-f[1600] on 25 lanes. -/
def keccakRound (a : List DWord) (rc : DWord) : List DWord :=
  let at' := fun (l : List DWord) (i : Nat) => l.getD i 0#64
  let c := (List.range 5).map fun x => at' a x ^^^ at' a (x + 5) ^^^ at' a (x + 10) ^^^ at' a (x + 15) ^^^ at' a (x + 20)
  let d := (List.range 5).map fun x => at' c ((x + 4) % 5) ^^^ (at' c ((x + 1) % 5)).rotateLeft 1
  let t := (List.range 25).map fun i => ((at' a i) ^^^ at' d (i % 5)).rotateLeft (keccakRot.getD i 0)
  let b := (List.range 25).map fun i =>
    let x := i % 5
    let y := i / 5
    at' t ((x + 3 * y) % 5 + 5 * x)
  let e := (List.range 25).map fun i =>
    let r := i / 5 * 5
    at' b i ^^^ (~~~(at' b (r + (i + 1) % 5)) &&& at' b (r + (i + 2) % 5))
  match e with
  | h :: tl => (h ^^^ rc) :: tl
  | [] => []

/-- Keccak-f[1600]. -/
def keccakF (a : List DWord) : List DWord := keccakRC.foldl keccakRound a

/-- Eight bytes as a lane, byte 0 least significant. -/
def laneOf : List Byte → Nat
  | [] => 0
  | b :: t => b.toNat + 256 * laneOf t

/-- The bytes of a lane. -/
def laneBytes (l : DWord) : List Byte := (List.range 8).map fun i => BitVec.ofNat 8 (l.toNat / 256 ^ i)

/-- A block of 72 bytes absorbed. -/
def keccakAbsorb (a : List DWord) (block : List Byte) : List DWord :=
  keccakF ((List.range 25).map fun i =>
    if i < 9 then a.getD i 0#64 ^^^ BitVec.ofNat 64 (laneOf ((block.drop (8 * i)).take 8)) else a.getD i 0#64)

/-- Padding of SHA3: 01, then 1, zeros and a final 1, to a whole block of 72 bytes. -/
def sha3Pad (m : List Byte) : List Byte :=
  let n := 72 - m.length % 72
  if n = 1 then m ++ [0x86#8] else m ++ [0x06#8] ++ List.replicate (n - 2) 0#8 ++ [0x80#8]

/-- Blocks absorbed one after another; `n` bounds their number. -/
def keccakBlocks : Nat → List DWord → List Byte → List DWord
  | 0, a, _ => a
  | n + 1, a, m => keccakBlocks n (keccakAbsorb a (m.take 72)) (m.drop 72)

/-- SHA3-512 of a message. -/
def sha3_512 (m : List Byte) : List Byte :=
  let p := sha3Pad m
  ((keccakBlocks (p.length / 72) (List.replicate 25 0#64) p).take 8).flatMap laneBytes

/-- Bytes 0 to 7 of a SHA3-512 digest, read little-endian (R331). -/
def digest64 (m : List Byte) : DWord := BitVec.ofNat 64 (laneOf ((sha3_512 m).take 8))

/-! ### CRCs -/

/-- One bit into a CRC of width `w` that shifts left. -/
def crcBit (w : Nat) (poly : BitVec w) (c : BitVec w) (b : Bool) : BitVec w :=
  if c.msb != b then (c <<< 1) ^^^ poly else c <<< 1

/-- A list of bits, most significant first, into a left-shifting CRC. -/
def crcBits (w : Nat) (poly c : BitVec w) (bits : List Bool) : BitVec w := bits.foldl (crcBit w poly) c

/-- The bits of a byte, most significant first. -/
def msbBits (b : Byte) : List Bool := (List.range 8).map fun i => b.getLsbD (7 - i)

/-- The bits of a byte, least significant first. -/
def lsbBits (b : Byte) : List Bool := (List.range 8).map fun i => b.getLsbD i

/-- The low 16 bits in reverse order and so on: a word with its bits reversed. -/
def revBits (w : Nat) (c : BitVec w) : BitVec w := (List.range w).foldl (fun r i => if c.getLsbD i then r ||| (1#w <<< (w - 1 - i)) else r) 0#w

/-- CRC-16-CCITT of R11 over the 48 header bits, most significant first. -/
def crc16 (hdr : BitVec 48) : BitVec 16 :=
  crcBits 16 0x1021#16 0xFFFF#16 ((List.range 48).map fun i => hdr.getLsbD (47 - i))

/-- CRC-16-CCITT over 64 header bits, most significant first (R411). -/
def crc16w (n : Nat) (hdr : BitVec n) : BitVec 16 :=
  crcBits 16 0x1021#16 0xFFFF#16 ((List.range n).map fun i => hdr.getLsbD (n - 1 - i))

/-- A CRC with reflected input and output, initial value and final xor all ones. -/
def crcReflected (w : Nat) (poly : BitVec w) (bs : List Byte) : BitVec w :=
  ~~~(revBits w (crcBits w poly (BitVec.allOnes w) (bs.flatMap lsbBits)))

/-- CRC-32 of IEEE 802.3 (R218). -/
def crc32 (bs : List Byte) : BitVec 32 := crcReflected 32 0x04C11DB7#32 bs

/-- CRC-64 of R476. -/
def crc64 (bs : List Byte) : BitVec 64 := crcReflected 64 0x42F0E1EBA9EA3693#64 bs

end Sys2Proof.Machine
end

