-- ==== Sys2Proof/Config.lean ====
section
/-! DEFINITION. What the spec leaves open: free values (constants without a body, so that nothing in the model
can rest on what they are) and the fixed sizes of the model. -/

namespace Sys2Proof.Config

/-- A value that the spec does not state. The model applies it to a counter of State that each use advances
(State.fresh), so that no two uses are known to agree (assumption 2). -/
opaque free : Nat → Nat

/-- A value that the spec does not state and that an unmarked job may read: a function of what it depends on (R312; assumption 2). The
first number names the use. -/
opaque freeOf : List Nat → Nat

/-- The answer of ML-DSA-87 verification (R26, R523): public key, message digest, signature. The spec names
the algorithm and does not define it (assumption 3). -/
opaque mldsaVerify : List Byte → List Byte → List Byte → Bool

/-- The ML-DSA-87 signature that a private identity (named by its certificate digest) gives over a message (R534; assumption 3). -/
opaque mldsaSign : List Byte → List Byte → List Byte

/-- The choice that the projection engine's atan2 makes among the results that its bound of 1 ulp allows (R240): its bits are the same on
every module, so it is a function of its operands y and x (assumption 27). -/
opaque atan2 : Nat → Nat → Nat

/-- The verdict of a hit test in the band that R279 leaves open (the exact distance is more than r + margin and not more than
2 mm beyond it), or of geometry outside its range: a function of the inputs (assumption 30). -/
opaque hitBand : List Nat → Bool

/-- Does a traversal visit a BVH node whose box the widened capsule does not reach? A function of node and capsule; what makes
a node visited is not stated (R277, R292; assumption 31). -/
opaque nodeVisit : List Nat → Bool

/-- exp_D (R189, R191): the exponential built from D-marked FP32 operations in the sequence that a firmware arithmetic revision
fixes. The spec gives no sequence: a function of the revision and the operand (assumption 34). -/
opaque expD : Nat → Nat → Nat

/-- The four check bytes of the 288/256 code for a word of 32 bytes: a Reed–Solomon code that the spec names and does not define
(R373, R548; assumption 43). -/
opaque checkBytes : List Byte → List Byte

/-- conf and masked where FUS_HEALTH_CFG.full_health is 0, a division by zero (R256): a function of the dividend and of the number of
observations (assumption 50). -/
opaque zeroHealth : Nat → Nat → Nat

/-- The subsystem vendor ID and subsystem ID that a hub firmware image carries, low half and high half (R401): where they stand in the image
is not stated; a function of its digest (assumption 81). -/
opaque subsystem : List Byte → BitVec 32

/-- Where the save area of a die lies in its pool, in words (R222; assumption 26). -/
opaque wardSave : Nat → Nat

/-- Does an island's critical record stand unacknowledged, as FAULT# shows it (R571)? By what it is acknowledged is not stated: a
function of the island, of its critical records so far and of its time (assumption 51). -/
opaque unacknowledged : Nat → Nat → Nat → Bool

/-- The detail bytes of an event record whose content the spec leaves to its kind (R442): a function of kind, page, bit and of what the
record is about (assumption 52). -/
opaque recordDetail : Nat → Nat → Nat → List Byte → List Byte

end Sys2Proof.Config
end

