-- ==== Sys2Proof/Machine/RegDefs.lean ====
section
/-! DEFINITION. The register map: the page directory of R44 and, for each block, its registers, their
fields, access codes and reset values as the owning chapters list them. -/

namespace Sys2Proof.Machine

/-- Access codes of a register field (00_scope, R51 to R58). -/
inductive FAcc where
  | rw | rwv | ro | rov | rc | w1c | wo
deriving DecidableEq, Repr

/-- One field of a register: bits [hi:lo], access code, reset value. -/
structure FieldDef where
  hi    : Nat
  lo    : Nat
  acc   : FAcc
  reset : Nat
deriving DecidableEq, Repr

/-- A register, or a row of `count` equal registers `stride` bytes apart, within a page. -/
structure RegDef where
  off    : Nat
  stride : Nat
  count  : Nat
  fields : List FieldDef
deriving DecidableEq, Repr

/-- The blocks of R44. -/
inductive Blk where

  | gen | pwr | thm | sup | sec | disc | dike | qeng | fenceB | jrn | det | ing | csi | eth | ward | fus | proj | ego | coll | planB | kv | xgs | xl | pcie | isl | flt | stest | farm | xslot | mc | memg | cd | arr | st | psr | nor
deriving DecidableEq, Repr

/-- A page run of R44: block, first page, number of pages, type code of BLK_ID, BLK_DECODE mask. -/
structure PageRun where
  blk   : Blk
  first : Nat
  count : Nat
  type  : Nat
  mask  : Nat
deriving DecidableEq, Repr

/-- The page directory (R44). -/
def pageDir : List PageRun :=

  [⟨.gen, 0, 1, 0x0, 0xFF⟩,
   ⟨.pwr, 1, 1, 0x1, 0xFF⟩,
   ⟨.thm, 2, 1, 0x2, 0xFF⟩,
   ⟨.sup, 3, 1, 0x3, 0x7F⟩,
   ⟨.sec, 4, 1, 0x4, 0x1FF⟩,
   ⟨.disc, 5, 1, 0x5, 0x7F⟩,
   ⟨.dike, 6, 1, 0x6, 0x7F⟩,
   ⟨.qeng, 7, 1, 0x7, 0x1FF⟩,
   ⟨.fenceB, 8, 1, 0x8, 0x1FF⟩,
   ⟨.jrn, 9, 1, 0x9, 0xFF⟩,
   ⟨.det, 10, 1, 0xA, 0xFF⟩,
   ⟨.ing, 11, 1, 0xB, 0xFF⟩,
   ⟨.csi, 12, 24, 0xC, 0x7F⟩,
   ⟨.eth, 36, 4, 0x24, 0x7F⟩,
   ⟨.ward, 40, 1, 0x28, 0xFF⟩,
   ⟨.fus, 41, 1, 0x29, 0x1FF⟩,
   ⟨.proj, 42, 1, 0x2A, 0x1FF⟩,
   ⟨.ego, 43, 1, 0x2B, 0xFF⟩,
   ⟨.coll, 44, 1, 0x2C, 0x1FF⟩,
   ⟨.planB, 45, 1, 0x2D, 0x1FF⟩,
   ⟨.kv, 46, 1, 0x2E, 0xFF⟩,
   ⟨.xgs, 47, 1, 0x2F, 0xFF⟩,
   ⟨.xl, 48, 8, 0x30, 0x7F⟩,
   ⟨.pcie, 56, 1, 0x38, 0xFF⟩,
   ⟨.isl, 57, 2, 0x39, 0x1FF⟩,
   ⟨.flt, 59, 1, 0x3B, 0x1FF⟩,
   ⟨.stest, 60, 1, 0x3C, 0xFF⟩,
   ⟨.farm, 61, 1, 0x3D, 0xFF⟩,
   ⟨.xslot, 62, 1, 0x3E, 0x1F⟩,
   ⟨.mc, 64, 16, 0x40, 0xFF⟩,
   ⟨.memg, 80, 1, 0x50, 0xFF⟩,
   ⟨.cd, 96, 4, 0x60, 0x7F⟩,
   ⟨.arr, 128, 96, 0x80, 0xFF⟩,
   ⟨.st, 224, 4, 0xE0, 0x7F⟩,
   ⟨.psr, 228, 2, 0xE4, 0x7F⟩,
   ⟨.nor, 230, 2, 0xE6, 0x7F⟩]

/-- The run of the directory that holds page `p` (none: a page absent from R44). -/
def pageRun (p : Nat) : Option PageRun :=
  pageDir.find? fun r => decide (r.first ≤ p ∧ p < r.first + r.count)

/-- The registers of block GEN above the common header. -/
def genRegs : List RegDef :=
  [/- GEN_DEVICE -/ ⟨0x020, 0x0, 1, [⟨31, 16, .ro, 0x7⟩, ⟨15, 0, .ro, 0x5⟩]⟩,
   /- GEN_GRADE -/ ⟨0x024, 0x0, 1, [⟨7, 0, .rov, 0x0⟩, ⟨12, 8, .rov, 0x0⟩]⟩,
   /- GEN_STEPPING -/ ⟨0x028, 0x0, 1, [⟨7, 0, .ro, 0x0⟩]⟩,
   /- GEN_SERIAL_LO -/ ⟨0x02C, 0x0, 1, [⟨31, 0, .rov, 0x0⟩]⟩,
   /- GEN_SERIAL_HI -/ ⟨0x030, 0x0, 1, [⟨31, 0, .rov, 0x0⟩]⟩,
   /- GEN_FW_REV -/ ⟨0x034, 0x0, 1, [⟨15, 0, .rov, 0x0⟩, ⟨31, 16, .ro, 0x0⟩]⟩,
   /- GEN_UNITMAP -/ ⟨0x040, 0x4, 4, [⟨25, 0, .rov, 0x0⟩]⟩,
   /- GEN_XS -/ ⟨0x050, 0x0, 1, [⟨0, 0, .rov, 0x0⟩, ⟨1, 1, .ro, 0x0⟩]⟩,
   /- GEN_RESET_CAUSE -/ ⟨0x054, 0x0, 1, [⟨3, 0, .ro, 0x0⟩, ⟨15, 8, .ro, 0x0⟩]⟩,
   /- GEN_CTRL -/ ⟨0x060, 0x0, 1, [⟨0, 0, .wo, 0x0⟩]⟩,
   /- GEN_SCRATCH -/ ⟨0x070, 0x4, 4, [⟨31, 0, .rw, 0x0⟩]⟩,
   /- GEN_ACCESS_ERR -/ ⟨0x080, 0x0, 1, [⟨7, 0, .rc, 0x0⟩, ⟨15, 8, .rc, 0x0⟩, ⟨23, 16, .ro, 0x0⟩]⟩,
   /- GEN_HOST_EXPERT -/ ⟨0x100, 0x0, 1, [⟨0, 0, .rwv, 0x1⟩]⟩,
   /- GEN_BLK_RESET -/ ⟨0x104, 0x0, 1, [⟨7, 0, .wo, 0x0⟩, ⟨29, 29, .ro, 0x0⟩, ⟨30, 30, .ro, 0x0⟩, ⟨31, 31, .wo, 0x0⟩]⟩]

/-- The registers of block PWR above the common header. -/
def pwrRegs : List RegDef :=
  [/- PWR_STATE -/ ⟨0x020, 0x0, 1, [⟨2, 0, .rov, 0x3⟩, ⟨6, 4, .wo, 0x0⟩, ⟨8, 8, .ro, 0x0⟩]⟩,
   /- PWR_SERVICE -/ ⟨0x024, 0x0, 1, [⟨1, 0, .rwv, 0x0⟩, ⟨5, 4, .ro, 0x0⟩]⟩,
   /- PWR_CLK -/ ⟨0x028, 0x0, 1, [⟨1, 0, .ro, 0x3⟩, ⟨3, 2, .ro, 0x3⟩, ⟨5, 4, .ro, 0x3⟩, ⟨7, 6, .ro, 0x3⟩, ⟨9, 8, .ro, 0x2⟩, ⟨11, 10, .ro, 0x2⟩]⟩,
   /- PWR_UNGATED -/ ⟨0x030, 0x4, 4, [⟨23, 0, .ro, 0x0⟩]⟩,
   /- PWR_INPUT -/ ⟨0x040, 0x0, 1, [⟨15, 0, .ro, 0x0⟩, ⟨31, 16, .rc, 0x0⟩]⟩,
   /- PWR_GATE_IDLE -/ ⟨0x100, 0x0, 1, [⟨15, 0, .rw, 0x0⟩]⟩]

/-- The registers of block THM above the common header. -/
def thmRegs : List RegDef :=
  [/- THM_HUB_MAX -/ ⟨0x020, 0x0, 1, [⟨15, 0, .ro, 0x0⟩, ⟨19, 16, .ro, 0x0⟩]⟩,
   /- THM_DIE_MAX -/ ⟨0x024, 0x0, 1, [⟨7, 0, .ro, 0x0⟩, ⟨15, 8, .ro, 0x0⟩, ⟨23, 16, .ro, 0x0⟩, ⟨31, 24, .ro, 0x0⟩]⟩,
   /- THM_COOLANT -/ ⟨0x028, 0x0, 1, [⟨15, 0, .ro, 0x0⟩, ⟨31, 16, .ro, 0x0⟩]⟩,
   /- THM_BOARD -/ ⟨0x02C, 0x0, 1, [⟨7, 0, .ro, 0x0⟩, ⟨15, 8, .ro, 0x0⟩]⟩,
   /- THM_STATUS -/ ⟨0x030, 0x0, 1, [⟨4, 0, .ro, 0x0⟩, ⟨12, 8, .ro, 0x0⟩, ⟨16, 16, .ro, 0x0⟩, ⟨24, 24, .ro, 0x0⟩]⟩,
   /- THM_WARN -/ ⟨0x100, 0x0, 1, [⟨7, 0, .rwv, 0x69⟩, ⟨15, 8, .rwv, 0x73⟩]⟩,
   /- THM_COOL_LIMIT -/ ⟨0x104, 0x0, 1, [⟨7, 0, .rwv, 0x41⟩, ⟨15, 8, .rwv, 0x6⟩]⟩]

/-- The registers of block SUP above the common header. -/
def supRegs : List RegDef :=
  [/- SUP_DIP -/ ⟨0x020, 0x0, 1, [⟨4, 0, .ro, 0x0⟩, ⟨12, 8, .ro, 0x0⟩]⟩,
   /- SUP_DIPS -/ ⟨0x024, 0x0, 1, [⟨31, 0, .rc, 0x0⟩]⟩,
   /- SUP_LAST_DIP -/ ⟨0x028, 0x0, 1, [⟨2, 0, .ro, 0x0⟩, ⟨15, 4, .ro, 0x0⟩, ⟨31, 16, .ro, 0x0⟩]⟩,
   /- SUP_INPUT -/ ⟨0x02C, 0x0, 1, [⟨9, 0, .ro, 0x0⟩, ⟨25, 16, .ro, 0x0⟩]⟩,
   /- SUP_RAIL -/ ⟨0x040, 0x4, 10, [⟨11, 0, .ro, 0x0⟩, ⟨27, 16, .rc, 0xFFF⟩]⟩,
   /- SUP_DIP_MAX -/ ⟨0x100, 0x0, 1, [⟨7, 0, .rwv, 0xA⟩]⟩,
   /- SUP_LEVELS -/ ⟨0x104, 0x0, 1, [⟨11, 0, .rov, 0x2BC⟩, ⟨27, 16, .rov, 0x294⟩]⟩]

/-- The registers of block SEC above the common header. -/
def secRegs : List RegDef :=
  [/- SEC_STATUS -/ ⟨0x020, 0x0, 1, [⟨1, 0, .ro, 0x0⟩, ⟨2, 2, .ro, 0x0⟩, ⟨3, 3, .ro, 0x0⟩, ⟨4, 4, .rov, 0x0⟩]⟩,
   /- SEC_BOOT_CMD -/ ⟨0x024, 0x0, 1, [⟨0, 0, .wo, 0x0⟩, ⟨1, 1, .wo, 0x0⟩, ⟨2, 2, .wo, 0x0⟩, ⟨3, 3, .wo, 0x0⟩, ⟨31, 31, .ro, 0x0⟩]⟩,
   /- SEC_ATTEST_ADDR_LO -/ ⟨0x030, 0x0, 1, [⟨31, 5, .rw, 0x0⟩]⟩,
   /- SEC_ATTEST_ADDR_HI -/ ⟨0x034, 0x0, 1, [⟨15, 0, .rw, 0x0⟩]⟩,
   /- SEC_ATTEST_CMD -/ ⟨0x038, 0x0, 1, [⟨0, 0, .wo, 0x0⟩, ⟨1, 1, .wo, 0x0⟩, ⟨8, 8, .ro, 0x0⟩, ⟨9, 9, .ro, 0x0⟩]⟩,
   /- SEC_NONCE -/ ⟨0x040, 0x4, 16, [⟨31, 0, .rw, 0x0⟩]⟩,
   /- SEC_MEAS_SEL -/ ⟨0x080, 0x0, 1, [⟨3, 0, .rw, 0x0⟩]⟩,
   /- SEC_ROLLBACK_SEL -/ ⟨0x084, 0x0, 1, [⟨6, 0, .rw, 0x0⟩]⟩,
   /- SEC_ROLLBACK_VALUE -/ ⟨0x088, 0x0, 1, [⟨6, 0, .rov, 0x0⟩]⟩,
   /- SEC_UPDATE_ADDR_LO -/ ⟨0x08C, 0x0, 1, [⟨31, 5, .rw, 0x0⟩]⟩,
   /- SEC_UPDATE_ADDR_HI -/ ⟨0x090, 0x0, 1, [⟨15, 0, .rw, 0x0⟩]⟩,
   /- SEC_UPDATE_CMD -/ ⟨0x094, 0x0, 1, [⟨0, 0, .wo, 0x0⟩, ⟨3, 1, .ro, 0x0⟩, ⟨7, 4, .ro, 0x0⟩]⟩,
   /- SEC_DEBUG_STATE -/ ⟨0x098, 0x0, 1, [⟨5, 0, .rov, 0x0⟩, ⟨8, 8, .ro, 0x0⟩, ⟨9, 9, .ro, 0x0⟩]⟩,
   /- SEC_DEBUG_CMD -/ ⟨0x09C, 0x0, 1, [⟨0, 0, .wo, 0x0⟩, ⟨1, 1, .wo, 0x0⟩, ⟨2, 2, .wo, 0x0⟩]⟩,
   /- SEC_DEBUG_TOKEN_ADDR_LO -/ ⟨0x0A0, 0x0, 1, [⟨31, 5, .rw, 0x0⟩]⟩,
   /- SEC_DEBUG_TOKEN_ADDR_HI -/ ⟨0x0A4, 0x0, 1, [⟨15, 0, .rw, 0x0⟩]⟩,
   /- SEC_MEAS_DATA -/ ⟨0x0C0, 0x4, 16, [⟨31, 0, .ro, 0x0⟩]⟩,
   /- SEC_ENROL_ADDR_LO -/ ⟨0x100, 0x0, 1, [⟨31, 5, .rw, 0x0⟩]⟩,
   /- SEC_ENROL_ADDR_HI -/ ⟨0x104, 0x0, 1, [⟨15, 0, .rw, 0x0⟩]⟩,
   /- SEC_ENROL_CMD -/ ⟨0x108, 0x0, 1, [⟨31, 31, .wo, 0x0⟩, ⟨0, 0, .ro, 0x0⟩]⟩,
   /- SEC_ROLLBACK_CMD -/ ⟨0x10C, 0x0, 1, [⟨6, 0, .wo, 0x0⟩, ⟨13, 8, .wo, 0x0⟩, ⟨30, 30, .ro, 0x0⟩, ⟨31, 31, .wo, 0x0⟩]⟩,
   /- SEC_EXTEND_ADDR_LO -/ ⟨0x110, 0x0, 1, [⟨31, 5, .rw, 0x0⟩]⟩,
   /- SEC_EXTEND_ADDR_HI -/ ⟨0x114, 0x0, 1, [⟨15, 0, .rw, 0x0⟩]⟩,
   /- SEC_EXTEND_CMD -/ ⟨0x118, 0x0, 1, [⟨3, 0, .wo, 0x0⟩, ⟨31, 31, .wo, 0x0⟩]⟩,
   /- SEC_DEBUG_NONCE -/ ⟨0x140, 0x4, 16, [⟨31, 0, .ro, 0x0⟩]⟩]

/-- The registers of block DISC above the common header. -/
def discRegs : List RegDef :=
  [/- DISC_CTRL -/ ⟨0x020, 0x0, 1, [⟨0, 0, .wo, 0x0⟩, ⟨10, 8, .rw, 0x0⟩]⟩,
   /- DISC_STATUS -/ ⟨0x024, 0x0, 1, [⟨0, 0, .ro, 0x0⟩, ⟨1, 1, .rov, 0x0⟩, ⟨6, 4, .ro, 0x0⟩, ⟨22, 16, .rov, 0x0⟩]⟩,
   /- DISC_TOPO_CLASS -/ ⟨0x040, 0x10, 7, [⟨31, 28, .rov, 0x0⟩, ⟨27, 20, .rov, 0x0⟩, ⟨18, 16, .rov, 0x0⟩, ⟨0, 0, .rov, 0x0⟩]⟩,
   /- DISC_TOPO_SERIAL_LO -/ ⟨0x044, 0x10, 7, [⟨31, 0, .rov, 0x0⟩]⟩,
   /- DISC_TOPO_SERIAL_HI -/ ⟨0x048, 0x10, 7, [⟨31, 0, .rov, 0x0⟩]⟩,
   /- DISC_TOPO_UNITMAP -/ ⟨0x04C, 0x10, 7, [⟨25, 0, .rov, 0x0⟩]⟩,
   /- DISC_ISLAND_CMP -/ ⟨0x0C0, 0x0, 1, [⟨6, 0, .rov, 0x0⟩, ⟨14, 8, .rov, 0x0⟩]⟩,
   /- DISC_TIMEOUT -/ ⟨0x100, 0x0, 1, [⟨9, 0, .rw, 0x64⟩]⟩,
   /- DISC_RETRY -/ ⟨0x104, 0x0, 1, [⟨2, 0, .rw, 0x3⟩]⟩]

/-- The registers of block DIKE above the common header. -/
def dikeRegs : List RegDef :=
  [/- DIKE_CTRL -/ ⟨0x020, 0x0, 1, [⟨0, 0, .rwv, 0x0⟩, ⟨1, 1, .wo, 0x0⟩, ⟨2, 2, .wo, 0x0⟩, ⟨3, 3, .wo, 0x0⟩]⟩,
   /- DIKE_STATUS -/ ⟨0x024, 0x0, 1, [⟨2, 0, .rov, 0x0⟩, ⟨3, 3, .ro, 0x0⟩, ⟨6, 4, .ro, 0x0⟩, ⟨9, 8, .ro, 0x0⟩]⟩,
   /- DIKE_VIOL -/ ⟨0x028, 0x0, 1, [⟨3, 0, .ro, 0x0⟩, ⟨11, 8, .ro, 0x0⟩]⟩,
   /- DIKE_VIOL_ADDR_LO -/ ⟨0x02C, 0x0, 1, [⟨31, 0, .ro, 0x0⟩]⟩,
   /- DIKE_VIOL_ADDR_HI -/ ⟨0x030, 0x0, 1, [⟨15, 0, .ro, 0x0⟩]⟩,
   /- DIKE_STALL_COUNT -/ ⟨0x034, 0x0, 1, [⟨31, 0, .rc, 0x0⟩]⟩,
   /- DIKE_WIN_BASE_LO -/ ⟨0x100, 0x10, 16, [⟨31, 12, .rw, 0x0⟩]⟩,
   /- DIKE_WIN_BASE_HI -/ ⟨0x104, 0x10, 16, [⟨15, 0, .rw, 0x0⟩]⟩,
   /- DIKE_WIN_SIZE -/ ⟨0x108, 0x10, 16, [⟨5, 0, .rw, 0xC⟩, ⟨9, 8, .rwv, 0x0⟩, ⟨31, 31, .rwv, 0x0⟩]⟩,
   /- DIKE_WIN_RATE -/ ⟨0x10C, 0x10, 16, [⟨15, 0, .rw, 0x0⟩, ⟨27, 16, .rw, 0x0⟩]⟩]

/-- The registers of block QENG above the common header. -/
def qengRegs : List RegDef :=
  [/- QENG_CTRL -/ ⟨0x020, 0x0, 1, [⟨0, 0, .rwv, 0x0⟩]⟩,
   /- QENG_STATUS -/ ⟨0x024, 0x0, 1, [⟨1, 0, .rov, 0x0⟩, ⟨2, 2, .w1c, 0x0⟩, ⟨15, 8, .ro, 0x0⟩]⟩,
   /- QENG_Q_CMD -/ ⟨0x028, 0x0, 1, [⟨19, 0, .wo, 0x0⟩, ⟨25, 24, .wo, 0x0⟩, ⟨31, 31, .wo, 0x0⟩]⟩,
   /- QENG_Q_RESULT -/ ⟨0x02C, 0x0, 1, [⟨0, 0, .ro, 0x0⟩, ⟨1, 1, .ro, 0x0⟩, ⟨5, 2, .ro, 0x0⟩]⟩,
   /- QENG_QSEL -/ ⟨0x030, 0x0, 1, [⟨19, 0, .rw, 0x0⟩]⟩,
   /- QENG_QPROD -/ ⟨0x034, 0x0, 1, [⟨31, 0, .ro, 0x0⟩]⟩,
   /- QENG_QCONS -/ ⟨0x038, 0x0, 1, [⟨31, 0, .ro, 0x0⟩]⟩,
   /- QENG_QINFO -/ ⟨0x03C, 0x0, 1, [⟨15, 0, .ro, 0x0⟩, ⟨18, 16, .ro, 0x0⟩, ⟨20, 20, .ro, 0x0⟩, ⟨21, 21, .ro, 0x0⟩, ⟨22, 22, .ro, 0x0⟩]⟩,
   /- QENG_ABORT -/ ⟨0x040, 0x0, 1, [⟨19, 0, .wo, 0x0⟩, ⟨31, 31, .wo, 0x0⟩]⟩,
   /- QENG_ABORT_INDEX -/ ⟨0x044, 0x0, 1, [⟨31, 0, .rw, 0x0⟩]⟩,
   /- QENG_DB_ERR -/ ⟨0x048, 0x0, 1, [⟨15, 0, .rc, 0x0⟩, ⟨31, 16, .rc, 0x0⟩]⟩,
   /- QENG_CQ_DROP -/ ⟨0x04C, 0x0, 1, [⟨31, 0, .rc, 0x0⟩]⟩,
   /- QENG_JOBS -/ ⟨0x050, 0x0, 1, [⟨31, 0, .rc, 0x0⟩]⟩,
   /- QENG_REFUSED -/ ⟨0x054, 0x0, 1, [⟨31, 0, .rc, 0x0⟩]⟩,
   /- QENG_STATE_BASE_LO -/ ⟨0x100, 0x0, 1, [⟨31, 26, .rw, 0x0⟩]⟩,
   /- QENG_STATE_BASE_HI -/ ⟨0x104, 0x0, 1, [⟨15, 0, .rw, 0x0⟩]⟩]

/-- The registers of block FENCE above the common header. -/
def fenceBRegs : List RegDef :=
  [/- FENCE_INC -/ ⟨0x020, 0x0, 1, [⟨11, 0, .wo, 0x0⟩, ⟨31, 16, .wo, 0x0⟩]⟩,
   /- FENCE_SEL -/ ⟨0x024, 0x0, 1, [⟨11, 0, .rw, 0x0⟩]⟩,
   /- FENCE_VALUE_LO -/ ⟨0x028, 0x0, 1, [⟨31, 0, .ro, 0x0⟩]⟩,
   /- FENCE_VALUE_HI -/ ⟨0x02C, 0x0, 1, [⟨31, 0, .ro, 0x0⟩]⟩,
   /- FENCE_ERR -/ ⟨0x030, 0x0, 1, [⟨11, 0, .ro, 0x0⟩, ⟨31, 31, .w1c, 0x0⟩]⟩,
   /- FENCE_SET_LO -/ ⟨0x100, 0x0, 1, [⟨31, 0, .rw, 0x0⟩]⟩,
   /- FENCE_SET_HI -/ ⟨0x104, 0x0, 1, [⟨31, 0, .rw, 0x0⟩]⟩,
   /- FENCE_SET_CMD -/ ⟨0x108, 0x0, 1, [⟨11, 0, .wo, 0x0⟩, ⟨31, 31, .wo, 0x0⟩]⟩]

/-- The registers of block JRN above the common header. -/
def jrnRegs : List RegDef :=
  [/- JRN_CTRL -/ ⟨0x020, 0x0, 1, [⟨1, 0, .rwv, 0x0⟩, ⟨2, 2, .rw, 0x1⟩, ⟨3, 3, .rw, 0x0⟩, ⟨4, 4, .wo, 0x0⟩, ⟨5, 5, .rw, 0x0⟩, ⟨6, 6, .wo, 0x0⟩, ⟨7, 7, .rw, 0x0⟩]⟩,
   /- JRN_STATUS -/ ⟨0x024, 0x0, 1, [⟨2, 0, .rov, 0x0⟩, ⟨7, 4, .ro, 0x0⟩, ⟨8, 8, .w1c, 0x0⟩, ⟨9, 9, .w1c, 0x0⟩]⟩,
   /- JRN_POS_LO -/ ⟨0x028, 0x0, 1, [⟨31, 0, .ro, 0x0⟩]⟩,
   /- JRN_POS_HI -/ ⟨0x02C, 0x0, 1, [⟨31, 0, .ro, 0x0⟩]⟩,
   /- JRN_WRITE -/ ⟨0x030, 0x0, 1, [⟨31, 0, .ro, 0x0⟩]⟩,
   /- JRN_EXPORT -/ ⟨0x034, 0x0, 1, [⟨31, 0, .rw, 0x0⟩]⟩,
   /- JRN_REPLAY_POS_LO -/ ⟨0x038, 0x0, 1, [⟨31, 0, .ro, 0x0⟩]⟩,
   /- JRN_REPLAY_POS_HI -/ ⟨0x03C, 0x0, 1, [⟨31, 0, .ro, 0x0⟩]⟩,
   /- JRN_DROPPED -/ ⟨0x040, 0x0, 1, [⟨31, 0, .rc, 0x0⟩]⟩,
   /- JRN_IGNORED -/ ⟨0x044, 0x0, 1, [⟨31, 0, .rc, 0x0⟩]⟩,
   /- JRN_BASE_LO -/ ⟨0x100, 0x0, 1, [⟨31, 20, .rw, 0x0⟩]⟩,
   /- JRN_BASE_HI -/ ⟨0x104, 0x0, 1, [⟨15, 0, .rw, 0x0⟩]⟩,
   /- JRN_SIZE -/ ⟨0x108, 0x0, 1, [⟨5, 0, .rw, 0x14⟩]⟩,
   /- JRN_STREAM_FULL -/ ⟨0x110, 0x4, 4, [⟨31, 0, .rw, 0x0⟩]⟩,
   /- JRN_CAPWIN_BASE_LO -/ ⟨0x140, 0x10, 8, [⟨31, 12, .rw, 0x0⟩]⟩,
   /- JRN_CAPWIN_BASE_HI -/ ⟨0x144, 0x10, 8, [⟨15, 0, .rw, 0x0⟩]⟩,
   /- JRN_CAPWIN_SIZE -/ ⟨0x148, 0x10, 8, [⟨5, 0, .rw, 0xC⟩, ⟨31, 31, .rwv, 0x0⟩]⟩,
   /- JRN_BASELINE -/ ⟨0x1C0, 0x4, 16, [⟨31, 0, .rw, 0x0⟩]⟩,
   /- JRN_PACE -/ ⟨0x200, 0x0, 1, [⟨15, 0, .rw, 0x100⟩]⟩,
   /- JRN_STALL_US -/ ⟨0x204, 0x0, 1, [⟨23, 0, .rw, 0x186A0⟩]⟩]

/-- The registers of block DET above the common header. -/
def detRegs : List RegDef :=
  [/- DET_CTRL -/ ⟨0x020, 0x0, 1, [⟨0, 0, .rwv, 0x0⟩, ⟨1, 1, .rw, 0x1⟩, ⟨2, 2, .rwv, 0x0⟩]⟩,
   /- DET_STATUS -/ ⟨0x024, 0x0, 1, [⟨1, 0, .rov, 0x0⟩, ⟨12, 8, .ro, 0x0⟩]⟩,
   /- DET_COMPARED -/ ⟨0x028, 0x0, 1, [⟨31, 0, .rc, 0x0⟩]⟩,
   /- DET_SKIPPED -/ ⟨0x02C, 0x0, 1, [⟨31, 0, .rc, 0x0⟩]⟩,
   /- DET_NONREPRO -/ ⟨0x030, 0x0, 1, [⟨31, 0, .rc, 0x0⟩]⟩,
   /- DET_PENDING -/ ⟨0x034, 0x0, 1, [⟨12, 0, .ro, 0x0⟩, ⟨28, 16, .ro, 0x0⟩]⟩,
   /- DET_LOG_SEL -/ ⟨0x040, 0x0, 1, [⟨3, 0, .rw, 0x0⟩]⟩,
   /- DET_LOG_JOB -/ ⟨0x044, 0x0, 1, [⟨19, 0, .ro, 0x0⟩, ⟨31, 31, .ro, 0x0⟩]⟩,
   /- DET_LOG_INDEX -/ ⟨0x048, 0x0, 1, [⟨31, 0, .ro, 0x0⟩]⟩,
   /- DET_LOG_WHERE -/ ⟨0x04C, 0x0, 1, [⟨6, 0, .ro, 0x0⟩, ⟨19, 8, .ro, 0x0⟩, ⟨20, 20, .ro, 0x0⟩]⟩,
   /- DET_LOG_ARRAY -/ ⟨0x050, 0x0, 1, [⟨4, 0, .ro, 0x0⟩, ⟨9, 8, .ro, 0x0⟩, ⟨14, 10, .ro, 0x0⟩, ⟨20, 16, .ro, 0x0⟩, ⟨25, 24, .ro, 0x0⟩, ⟨30, 26, .ro, 0x0⟩]⟩,
   /- DET_LOG_DIG_REC_LO -/ ⟨0x054, 0x0, 1, [⟨31, 0, .ro, 0x0⟩]⟩,
   /- DET_LOG_DIG_REC_HI -/ ⟨0x058, 0x0, 1, [⟨31, 0, .ro, 0x0⟩]⟩,
   /- DET_LOG_DIG_RUN_LO -/ ⟨0x05C, 0x0, 1, [⟨31, 0, .ro, 0x0⟩]⟩,
   /- DET_LOG_DIG_RUN_HI -/ ⟨0x060, 0x0, 1, [⟨31, 0, .ro, 0x0⟩]⟩]

/-- The registers of block ING above the common header. -/
def ingRegs : List RegDef :=
  [/- ING_CTRL -/ ⟨0x020, 0x0, 1, [⟨0, 0, .rwv, 0x0⟩]⟩,
   /- ING_STATUS -/ ⟨0x024, 0x0, 1, [⟨0, 0, .w1c, 0x0⟩, ⟨14, 8, .ro, 0x0⟩, ⟨16, 16, .ro, 0x0⟩]⟩,
   /- ING_STREAM_EN -/ ⟨0x030, 0x4, 4, [⟨31, 0, .rwv, 0x0⟩]⟩,
   /- ING_SEL -/ ⟨0x040, 0x0, 1, [⟨6, 0, .rw, 0x0⟩]⟩,
   /- ING_SEL_SEQ -/ ⟨0x044, 0x0, 1, [⟨31, 0, .ro, 0x0⟩]⟩,
   /- ING_SEL_HEALTH -/ ⟨0x048, 0x0, 1, [⟨7, 0, .rov, 0x0⟩, ⟨15, 8, .ro, 0x0⟩]⟩,
   /- ING_SEL_DROPS -/ ⟨0x04C, 0x0, 1, [⟨31, 0, .rc, 0x0⟩]⟩,
   /- ING_TS_INVALID -/ ⟨0x050, 0x0, 1, [⟨31, 0, .rc, 0x0⟩]⟩,
   /- ING_TABLE_BASE_LO -/ ⟨0x100, 0x0, 1, [⟨31, 13, .rw, 0x0⟩]⟩,
   /- ING_TABLE_BASE_HI -/ ⟨0x104, 0x0, 1, [⟨15, 0, .rw, 0x0⟩]⟩]

/-- The registers of block CSI above the common header. -/
def csiRegs : List RegDef :=
  [/- CSI_CTRL -/ ⟨0x020, 0x0, 1, [⟨0, 0, .rwv, 0x0⟩, ⟨1, 1, .rw, 0x0⟩, ⟨4, 2, .rw, 0x4⟩, ⟨8, 8, .rw, 0x1⟩]⟩,
   /- CSI_RATE -/ ⟨0x024, 0x0, 1, [⟨12, 0, .rw, 0x5DC⟩]⟩,
   /- CSI_VCMAP -/ ⟨0x028, 0x0, 1, [⟨3, 0, .rw, 0x0⟩, ⟨11, 8, .rw, 0x0⟩, ⟨19, 16, .rw, 0x0⟩, ⟨27, 24, .rw, 0x0⟩, ⟨31, 28, .rwv, 0x0⟩]⟩,
   /- CSI_STATUS -/ ⟨0x02C, 0x0, 1, [⟨0, 0, .ro, 0x0⟩, ⟨1, 1, .ro, 0x0⟩]⟩,
   /- CSI_ERR -/ ⟨0x030, 0x0, 1, [⟨7, 0, .rc, 0x0⟩, ⟨15, 8, .rc, 0x0⟩, ⟨23, 16, .rc, 0x0⟩, ⟨31, 24, .rc, 0x0⟩]⟩,
   /- CSI_FRAMES -/ ⟨0x034, 0x0, 1, [⟨31, 0, .rc, 0x0⟩]⟩,
   /- CSI_EMB_CRC -/ ⟨0x040, 0x4, 4, [⟨31, 0, .rw, 0x0⟩]⟩,
   /- CSI_EMB_LINE -/ ⟨0x050, 0x0, 1, [⟨3, 0, .rw, 0x0⟩, ⟨7, 4, .rw, 0x0⟩, ⟨11, 8, .rw, 0x0⟩, ⟨15, 12, .rw, 0x0⟩, ⟨19, 16, .rw, 0x0⟩]⟩,
   /- CSI_EMB_FAIL -/ ⟨0x054, 0x0, 1, [⟨7, 0, .rc, 0x0⟩, ⟨15, 8, .rc, 0x0⟩, ⟨23, 16, .rc, 0x0⟩, ⟨31, 24, .rc, 0x0⟩]⟩,
   /- CSI_PHY_TUNE -/ ⟨0x100, 0x0, 1, [⟨3, 0, .rw, 0x4⟩, ⟨8, 8, .rw, 0x1⟩]⟩]

/-- The registers of block ETH above the common header. -/
def ethRegs : List RegDef :=
  [/- ETH_CTRL -/ ⟨0x020, 0x0, 1, [⟨0, 0, .rwv, 0x0⟩, ⟨2, 1, .rw, 0x1⟩]⟩,
   /- ETH_STATUS -/ ⟨0x024, 0x0, 1, [⟨0, 0, .ro, 0x0⟩, ⟨1, 1, .ro, 0x0⟩, ⟨2, 2, .ro, 0x0⟩]⟩,
   /- ETH_MAC_LO -/ ⟨0x028, 0x0, 1, [⟨31, 0, .rw, 0x0⟩]⟩,
   /- ETH_MAC_HI -/ ⟨0x02C, 0x0, 1, [⟨15, 0, .rw, 0x0⟩, ⟨16, 16, .rw, 0x0⟩]⟩,
   /- ETH_RX_FRAMES -/ ⟨0x030, 0x0, 1, [⟨31, 0, .rc, 0x0⟩]⟩,
   /- ETH_RX_ERR -/ ⟨0x034, 0x0, 1, [⟨15, 0, .rc, 0x0⟩, ⟨31, 16, .rc, 0x0⟩]⟩,
   /- ETH_FLOW -/ ⟨0x040, 0x8, 4, [⟨11, 0, .rw, 0x0⟩, ⟨12, 12, .rw, 0x0⟩, ⟨31, 31, .rwv, 0x0⟩]⟩,
   /- ETH_FLOW_PORT -/ ⟨0x044, 0x8, 4, [⟨15, 0, .rw, 0x0⟩]⟩]

/-- The registers of block WARD above the common header. -/
def wardRegs : List RegDef :=
  [/- WARD_CTRL -/ ⟨0x020, 0x0, 1, [⟨0, 0, .rwv, 0x0⟩]⟩,
   /- WARD_STATUS -/ ⟨0x024, 0x0, 1, [⟨6, 0, .ro, 0x0⟩, ⟨9, 8, .ro, 0x0⟩]⟩,
   /- WARD_FAIL_COUNT -/ ⟨0x028, 0x0, 1, [⟨31, 0, .rc, 0x0⟩]⟩,
   /- WARD_PREEMPT_COUNT -/ ⟨0x02C, 0x0, 1, [⟨31, 0, .rc, 0x0⟩]⟩,
   /- WARD_TABLE_BASE_LO -/ ⟨0x030, 0x0, 1, [⟨31, 13, .rw, 0x0⟩]⟩,
   /- WARD_TABLE_BASE_HI -/ ⟨0x034, 0x0, 1, [⟨15, 0, .rw, 0x0⟩]⟩,
   /- WARD_BUDGET -/ ⟨0x040, 0x4, 4, [⟨15, 0, .ro, 0xB4⟩]⟩,
   /- WARD_SEL -/ ⟨0x050, 0x0, 1, [⟨6, 0, .rw, 0x0⟩]⟩,
   /- WARD_SEL_STATE -/ ⟨0x054, 0x0, 1, [⟨1, 0, .ro, 0x0⟩, ⟨2, 2, .ro, 0x0⟩]⟩,
   /- WARD_PERIOD -/ ⟨0x100, 0x0, 1, [⟨6, 0, .rw, 0x8⟩]⟩,
   /- WARD_HEALTH_DELTA -/ ⟨0x104, 0x0, 1, [⟨7, 0, .rwv, 0x40⟩, ⟨15, 8, .rwv, 0x20⟩, ⟨23, 16, .rwv, 0x10⟩, ⟨31, 24, .rwv, 0x8⟩]⟩,
   /- WARD_HEALTH_DELTA2 -/ ⟨0x108, 0x0, 1, [⟨7, 0, .rwv, 0x4⟩, ⟨15, 8, .rwv, 0x1⟩]⟩,
   /- WARD_PREEMPT_MAX -/ ⟨0x10C, 0x0, 1, [⟨7, 0, .rwv, 0xB4⟩]⟩]

/-- The registers of block FUS above the common header. -/
def fusRegs : List RegDef :=
  [/- FUS_CTRL -/ ⟨0x020, 0x0, 1, [⟨0, 0, .rwv, 0x0⟩, ⟨1, 1, .wo, 0x0⟩]⟩,
   /- FUS_STATUS -/ ⟨0x024, 0x0, 1, [⟨1, 0, .rov, 0x0⟩, ⟨4, 2, .ro, 0x0⟩]⟩,
   /- FUS_INSTANT -/ ⟨0x028, 0x0, 1, [⟨31, 0, .ro, 0x0⟩]⟩,
   /- FUS_LATE -/ ⟨0x02C, 0x0, 1, [⟨15, 0, .rc, 0x0⟩, ⟨31, 16, .rc, 0x0⟩]⟩,
   /- FUS_TRACKS -/ ⟨0x030, 0x0, 1, [⟨18, 0, .ro, 0x0⟩]⟩,
   /- FUS_INPUT_ERR -/ ⟨0x034, 0x0, 1, [⟨31, 0, .rc, 0x0⟩]⟩,
   /- FUS_FAULT -/ ⟨0x038, 0x0, 1, [⟨3, 0, .ro, 0x0⟩, ⟨21, 4, .ro, 0x0⟩]⟩,
   /- FUS_SENSOR_SEL -/ ⟨0x040, 0x0, 1, [⟨5, 0, .rw, 0x0⟩]⟩,
   /- FUS_SENSOR_STATE -/ ⟨0x044, 0x0, 1, [⟨7, 0, .ro, 0x0⟩, ⟨8, 8, .ro, 0x0⟩, ⟨9, 9, .rov, 0x0⟩, ⟨10, 10, .ro, 0x0⟩, ⟨15, 12, .ro, 0x0⟩]⟩,
   /- FUS_MASKED_LO -/ ⟨0x048, 0x0, 1, [⟨31, 0, .ro, 0x0⟩]⟩,
   /- FUS_MASKED_HI -/ ⟨0x04C, 0x0, 1, [⟨31, 0, .ro, 0x0⟩]⟩,
   /- FUS_SCFG_SEL -/ ⟨0x100, 0x0, 1, [⟨5, 0, .rw, 0x0⟩]⟩,
   /- FUS_SCFG_VALID -/ ⟨0x104, 0x0, 1, [⟨0, 0, .rwv, 0x0⟩]⟩,
   /- FUS_SCFG_WINDOW -/ ⟨0x108, 0x0, 1, [⟨23, 0, .rw, 0x0⟩]⟩,
   /- FUS_SCFG_REACH -/ ⟨0x10C, 0x0, 1, [⟨23, 0, .rw, 0x0⟩]⟩,
   /- FUS_GRID_CFG -/ ⟨0x120, 0x0, 1, [⟨10, 0, .rw, 0x200⟩, ⟨26, 16, .rw, 0x200⟩]⟩,
   /- FUS_GRID_CELL -/ ⟨0x124, 0x0, 1, [⟨6, 0, .rw, 0x14⟩, ⟨18, 8, .rw, 0x100⟩, ⟨30, 20, .rw, 0x100⟩]⟩,
   /- FUS_HEALTH_CFG -/ ⟨0x128, 0x0, 1, [⟨7, 0, .rwv, 0x40⟩, ⟨15, 8, .rwv, 0xC0⟩]⟩,
   /- FUS_CONTRA -/ ⟨0x12C, 0x0, 1, [⟨6, 0, .rwv, 0x20⟩, ⟨14, 8, .rwv, 0x60⟩, ⟨17, 16, .rwv, 0x1⟩, ⟨21, 20, .rwv, 0x3⟩]⟩,
   /- FUS_DISPUTE_MASK -/ ⟨0x130, 0x0, 1, [⟨7, 0, .rwv, 0x1A⟩, ⟨15, 8, .rwv, 0x2⟩]⟩,
   /- FUS_TRACK_CFG -/ ⟨0x134, 0x0, 1, [⟨15, 0, .rw, 0xC8⟩, ⟨23, 16, .rw, 0xA⟩, ⟨31, 24, .rw, 0x80⟩]⟩,
   /- FUS_DEFAULT_WAIT -/ ⟨0x138, 0x0, 1, [⟨23, 0, .rw, 0x186A0⟩]⟩,
   /- FUS_QUEUE -/ ⟨0x13C, 0x0, 1, [⟨19, 0, .rw, 0x400⟩]⟩,
   /- FUS_INPUT_FENCE -/ ⟨0x140, 0x0, 1, [⟨11, 0, .rw, 0x0⟩]⟩,
   /- FUS_INPUT_BASE_LO -/ ⟨0x150, 0x0, 1, [⟨31, 12, .rw, 0x0⟩]⟩,
   /- FUS_INPUT_BASE_HI -/ ⟨0x154, 0x0, 1, [⟨15, 0, .rw, 0x0⟩]⟩,
   /- FUS_TRACK_BASE_LO -/ ⟨0x158, 0x0, 1, [⟨31, 12, .rw, 0x0⟩]⟩,
   /- FUS_TRACK_BASE_HI -/ ⟨0x15C, 0x0, 1, [⟨15, 0, .rw, 0x0⟩]⟩,
   /- FUS_STATE_BASE_LO -/ ⟨0x160, 0x0, 1, [⟨31, 12, .rw, 0x0⟩]⟩,
   /- FUS_STATE_BASE_HI -/ ⟨0x164, 0x0, 1, [⟨15, 0, .rw, 0x0⟩]⟩]

/-- The registers of block PROJ above the common header. -/
def projRegs : List RegDef :=
  [/- PROJ_CTRL -/ ⟨0x020, 0x0, 1, [⟨0, 0, .rwv, 0x0⟩]⟩,
   /- PROJ_STATUS -/ ⟨0x024, 0x0, 1, [⟨1, 0, .rov, 0x0⟩, ⟨2, 2, .w1c, 0x0⟩, ⟨13, 8, .ro, 0x0⟩]⟩,
   /- PROJ_POINTS -/ ⟨0x028, 0x0, 1, [⟨31, 0, .rc, 0x0⟩]⟩,
   /- PROJ_UNPOSED -/ ⟨0x02C, 0x0, 1, [⟨31, 0, .rc, 0x0⟩]⟩,
   /- PROJ_DELTA_SEL -/ ⟨0x030, 0x0, 1, [⟨5, 0, .rw, 0x0⟩]⟩,
   /- PROJ_DELTA_DATA -/ ⟨0x040, 0x4, 7, [⟨31, 0, .ro, 0x0⟩]⟩,
   /- PROJ_CAL_SEL -/ ⟨0x100, 0x0, 1, [⟨5, 0, .rw, 0x0⟩]⟩,
   /- PROJ_CAL_VALID_LO -/ ⟨0x110, 0x0, 1, [⟨31, 0, .ro, 0x0⟩]⟩,
   /- PROJ_CAL_VALID_HI -/ ⟨0x114, 0x0, 1, [⟨31, 0, .ro, 0x0⟩]⟩,
   /- PROJ_CAL_DATA -/ ⟨0x180, 0x4, 32, [⟨31, 0, .rw, 0x0⟩]⟩]

/-- The registers of block EGO above the common header. -/
def egoRegs : List RegDef :=
  [/- EGO_CTRL -/ ⟨0x020, 0x0, 1, [⟨0, 0, .rwv, 0x0⟩]⟩,
   /- EGO_STATUS -/ ⟨0x024, 0x0, 1, [⟨1, 0, .rov, 0x0⟩, ⟨2, 2, .ro, 0x0⟩]⟩,
   /- EGO_POSE_COUNT -/ ⟨0x028, 0x0, 1, [⟨31, 0, .ro, 0x0⟩]⟩,
   /- EGO_SKIPPED -/ ⟨0x02C, 0x0, 1, [⟨15, 0, .rc, 0x0⟩, ⟨31, 16, .rc, 0x0⟩]⟩,
   /- EGO_RING_BASE_LO -/ ⟨0x100, 0x0, 1, [⟨31, 21, .rw, 0x0⟩]⟩,
   /- EGO_RING_BASE_HI -/ ⟨0x104, 0x0, 1, [⟨15, 0, .rw, 0x0⟩]⟩,
   /- EGO_IMU_LAYOUT -/ ⟨0x108, 0x0, 1, [⟨7, 0, .rw, 0x0⟩, ⟨15, 8, .rw, 0x0⟩, ⟨16, 16, .rw, 0x0⟩, ⟨17, 17, .rw, 0x0⟩]⟩,
   /- EGO_GYRO_SCALE -/ ⟨0x10C, 0x0, 1, [⟨31, 0, .rw, 0x0⟩]⟩,
   /- EGO_ACC_SCALE -/ ⟨0x110, 0x0, 1, [⟨31, 0, .rw, 0x0⟩]⟩,
   /- EGO_WHEEL_SCALE -/ ⟨0x114, 0x0, 1, [⟨31, 0, .rw, 0x0⟩]⟩,
   /- EGO_WHEEL_GAIN -/ ⟨0x118, 0x0, 1, [⟨31, 0, .rw, 0x3D4CCCCD⟩]⟩,
   /- EGO_BIAS -/ ⟨0x120, 0x4, 6, [⟨31, 0, .rw, 0x0⟩]⟩,
   /- EGO_WHEEL_SRC -/ ⟨0x140, 0x0, 1, [⟨1, 0, .rw, 0x0⟩, ⟨15, 8, .rw, 0x0⟩, ⟨31, 31, .rwv, 0x0⟩]⟩,
   /- EGO_WHEEL_ID -/ ⟨0x144, 0x0, 1, [⟨29, 0, .rw, 0x0⟩]⟩,
   /- EGO_LIMITS -/ ⟨0x148, 0x0, 1, [⟨15, 0, .rw, 0x7D0⟩, ⟨31, 16, .rw, 0x7D0⟩]⟩]

/-- The registers of block COLL above the common header. -/
def collRegs : List RegDef :=
  [/- COLL_CTRL -/ ⟨0x020, 0x0, 1, [⟨0, 0, .rwv, 0x0⟩]⟩,
   /- COLL_STATUS -/ ⟨0x024, 0x0, 1, [⟨1, 0, .rov, 0x0⟩, ⟨2, 2, .ro, 0x0⟩, ⟨4, 3, .ro, 0x0⟩, ⟨5, 5, .w1c, 0x0⟩]⟩,
   /- COLL_EPOCH -/ ⟨0x028, 0x0, 1, [⟨15, 0, .rov, 0x0⟩]⟩,
   /- COLL_ERR -/ ⟨0x02C, 0x0, 1, [⟨3, 0, .ro, 0x0⟩, ⟨4, 4, .ro, 0x0⟩]⟩,
   /- COLL_RFX_COUNT -/ ⟨0x030, 0x0, 1, [⟨31, 0, .rc, 0x0⟩]⟩,
   /- COLL_RFX_HITS -/ ⟨0x034, 0x0, 1, [⟨31, 0, .rc, 0x0⟩]⟩,
   /- COLL_RFX_REFUSED -/ ⟨0x038, 0x0, 1, [⟨31, 0, .rc, 0x0⟩]⟩,
   /- COLL_RFX_MAX_NS -/ ⟨0x03C, 0x0, 1, [⟨15, 0, .rc, 0x0⟩]⟩,
   /- COLL_SAT_CELLS -/ ⟨0x040, 0x0, 1, [⟨14, 0, .ro, 0x0⟩]⟩,
   /- COLL_WS_BASE_LO -/ ⟨0x100, 0x0, 1, [⟨31, 15, .rw, 0x0⟩]⟩,
   /- COLL_WS_BASE_HI -/ ⟨0x104, 0x0, 1, [⟨15, 0, .rw, 0x0⟩]⟩,
   /- COLL_TRI_BASE_LO -/ ⟨0x108, 0x0, 1, [⟨31, 15, .rw, 0x0⟩]⟩,
   /- COLL_TRI_BASE_HI -/ ⟨0x10C, 0x0, 1, [⟨15, 0, .rw, 0x0⟩]⟩,
   /- COLL_RFX_BASE_LO -/ ⟨0x110, 0x0, 1, [⟨31, 15, .rw, 0x0⟩]⟩,
   /- COLL_RFX_BASE_HI -/ ⟨0x114, 0x0, 1, [⟨15, 0, .rw, 0x0⟩]⟩,
   /- COLL_MARGIN -/ ⟨0x118, 0x0, 1, [⟨9, 0, .rwv, 0x64⟩]⟩,
   /- COLL_PUB_FENCE -/ ⟨0x11C, 0x0, 1, [⟨11, 0, .rw, 0x0⟩, ⟨31, 31, .rwv, 0x0⟩]⟩,
   /- COLL_RETIRE_FENCE -/ ⟨0x120, 0x0, 1, [⟨11, 0, .rw, 0x0⟩, ⟨31, 31, .rwv, 0x0⟩]⟩]

/-- The registers of block PLAN above the common header. -/
def planBRegs : List RegDef :=
  [/- PLAN_CTRL -/ ⟨0x020, 0x0, 1, [⟨0, 0, .rwv, 0x0⟩, ⟨1, 1, .wo, 0x0⟩]⟩,
   /- PLAN_STATUS -/ ⟨0x024, 0x0, 1, [⟨1, 0, .rov, 0x0⟩, ⟨3, 2, .ro, 0x0⟩, ⟨13, 8, .ro, 0x0⟩]⟩,
   /- PLAN_ERR -/ ⟨0x028, 0x0, 1, [⟨3, 0, .ro, 0x0⟩, ⟨21, 8, .ro, 0x0⟩]⟩,
   /- PLAN_RESULTS -/ ⟨0x02C, 0x0, 1, [⟨31, 0, .rc, 0x0⟩]⟩,
   /- PLAN_KEPT -/ ⟨0x030, 0x0, 1, [⟨31, 0, .rc, 0x0⟩]⟩,
   /- PLAN_FALLTHROUGH -/ ⟨0x034, 0x0, 1, [⟨31, 0, .rc, 0x0⟩]⟩,
   /- PLAN_SWEEP_MAX_NS -/ ⟨0x038, 0x0, 1, [⟨15, 0, .rc, 0x0⟩]⟩,
   /- PLAN_RM_SEL -/ ⟨0x040, 0x0, 1, [⟨0, 0, .rw, 0x0⟩]⟩,
   /- PLAN_RM_STATE -/ ⟨0x044, 0x0, 1, [⟨14, 0, .ro, 0x0⟩, ⟨22, 16, .ro, 0x0⟩, ⟨31, 31, .ro, 0x0⟩]⟩,
   /- PLAN_SLOT_SEL -/ ⟨0x048, 0x0, 1, [⟨5, 0, .rw, 0x0⟩]⟩,
   /- PLAN_SLOT_QUERY -/ ⟨0x04C, 0x0, 1, [⟨31, 0, .ro, 0x0⟩]⟩,
   /- PLAN_SLOT_FLAGS -/ ⟨0x050, 0x0, 1, [⟨6, 0, .ro, 0x0⟩]⟩,
   /- PLAN_SLOT_BASE_LO -/ ⟨0x100, 0x0, 1, [⟨31, 19, .rw, 0x0⟩]⟩,
   /- PLAN_SLOT_BASE_HI -/ ⟨0x104, 0x0, 1, [⟨15, 0, .rw, 0x0⟩]⟩,
   /- PLAN_ISLAND_LO -/ ⟨0x108, 0x0, 1, [⟨31, 0, .rwv, 0x0⟩]⟩,
   /- PLAN_ISLAND_HI -/ ⟨0x10C, 0x0, 1, [⟨31, 0, .rwv, 0x0⟩]⟩,
   /- PLAN_LEAF_BUDGET -/ ⟨0x110, 0x0, 1, [⟨10, 0, .rw, 0x200⟩]⟩]

/-- The registers of block KV above the common header. -/
def kvRegs : List RegDef :=
  [/- KV_CTRL -/ ⟨0x020, 0x0, 1, [⟨0, 0, .rwv, 0x0⟩, ⟨1, 1, .rw, 0x0⟩, ⟨2, 2, .wo, 0x0⟩]⟩,
   /- KV_STATUS -/ ⟨0x024, 0x0, 1, [⟨1, 0, .rov, 0x0⟩, ⟨2, 2, .ro, 0x0⟩, ⟨10, 8, .ro, 0x0⟩]⟩,
   /- KV_FAULT -/ ⟨0x028, 0x0, 1, [⟨3, 0, .ro, 0x0⟩, ⟨31, 31, .ro, 0x0⟩]⟩,
   /- KV_FAULT_PAGE -/ ⟨0x02C, 0x0, 1, [⟨21, 0, .ro, 0x0⟩]⟩,
   /- KV_FAULT_SEQ -/ ⟨0x030, 0x0, 1, [⟨15, 0, .ro, 0x0⟩, ⟨23, 16, .ro, 0x0⟩]⟩,
   /- KV_FAULT_QUEUE -/ ⟨0x034, 0x0, 1, [⟨19, 0, .ro, 0x0⟩]⟩,
   /- KV_FREE -/ ⟨0x040, 0x4, 8, [⟨22, 0, .ro, 0x0⟩]⟩,
   /- KV_DRAINING -/ ⟨0x060, 0x0, 1, [⟨22, 0, .ro, 0x0⟩]⟩,
   /- KV_ALLOC_COUNT -/ ⟨0x064, 0x0, 1, [⟨31, 0, .rc, 0x0⟩]⟩,
   /- KV_COW_COUNT -/ ⟨0x068, 0x0, 1, [⟨31, 0, .rc, 0x0⟩]⟩,
   /- KV_RETURN_COUNT -/ ⟨0x06C, 0x0, 1, [⟨31, 0, .rc, 0x0⟩]⟩,
   /- KV_STATE_ERR -/ ⟨0x070, 0x0, 1, [⟨15, 0, .rc, 0x0⟩, ⟨31, 16, .rc, 0x0⟩]⟩,
   /- KV_LOW_WATER -/ ⟨0x074, 0x0, 1, [⟨22, 0, .rw, 0x0⟩]⟩,
   /- KV_POOL_BASE_LO -/ ⟨0x100, 0x20, 8, [⟨31, 12, .rw, 0x0⟩]⟩,
   /- KV_POOL_BASE_HI -/ ⟨0x104, 0x20, 8, [⟨15, 0, .rw, 0x0⟩]⟩,
   /- KV_POOL_CFG -/ ⟨0x108, 0x20, 8, [⟨10, 0, .rw, 0x40⟩, ⟨13, 12, .rw, 0x0⟩, ⟨31, 31, .rwv, 0x0⟩]⟩,
   /- KV_POOL_FIRST -/ ⟨0x10C, 0x20, 8, [⟨21, 0, .rw, 0x0⟩]⟩,
   /- KV_POOL_COUNT -/ ⟨0x110, 0x20, 8, [⟨22, 0, .rw, 0x0⟩]⟩,
   /- KV_STATE_BASE_LO -/ ⟨0x200, 0x0, 1, [⟨31, 12, .rw, 0x0⟩]⟩,
   /- KV_STATE_BASE_HI -/ ⟨0x204, 0x0, 1, [⟨15, 0, .rw, 0x0⟩]⟩,
   /- KV_SEQ_BASE_LO -/ ⟨0x208, 0x0, 1, [⟨31, 12, .rw, 0x0⟩]⟩,
   /- KV_SEQ_BASE_HI -/ ⟨0x20C, 0x0, 1, [⟨15, 0, .rw, 0x0⟩]⟩]

/-- The registers of block XGS above the common header. -/
def xgsRegs : List RegDef :=
  [/- XGS_CTRL -/ ⟨0x020, 0x0, 1, [⟨0, 0, .rwv, 0x0⟩, ⟨1, 1, .wo, 0x0⟩, ⟨2, 2, .wo, 0x0⟩]⟩,
   /- XGS_STATUS -/ ⟨0x024, 0x0, 1, [⟨2, 0, .rov, 0x0⟩, ⟨12, 8, .ro, 0x0⟩, ⟨21, 16, .ro, 0x0⟩]⟩,
   /- XGS_MEMBERS -/ ⟨0x028, 0x0, 1, [⟨31, 0, .ro, 0x0⟩]⟩,
   /- XGS_ROUTE_SEL -/ ⟨0x02C, 0x0, 1, [⟨4, 0, .rw, 0x0⟩]⟩,
   /- XGS_ROUTE -/ ⟨0x030, 0x0, 1, [⟨2, 0, .ro, 0x0⟩, ⟨7, 4, .ro, 0x0⟩, ⟨31, 31, .ro, 0x0⟩]⟩,
   /- XGS_TWIN_STATE -/ ⟨0x034, 0x0, 1, [⟨2, 0, .rov, 0x0⟩, ⟨3, 3, .ro, 0x0⟩, ⟨15, 8, .rc, 0x0⟩]⟩,
   /- XGS_TWIN_AGREE -/ ⟨0x038, 0x0, 1, [⟨31, 0, .rc, 0x0⟩]⟩,
   /- XGS_TWIN_LAST_SLOT -/ ⟨0x03C, 0x0, 1, [⟨5, 0, .ro, 0x0⟩]⟩,
   /- XGS_TWIN_LAST_INDEX -/ ⟨0x040, 0x0, 1, [⟨31, 0, .ro, 0x0⟩]⟩,
   /- XGS_REMOTE_ERR -/ ⟨0x044, 0x0, 1, [⟨15, 0, .rc, 0x0⟩, ⟨31, 16, .rc, 0x0⟩]⟩,
   /- XGS_COLL_COUNT -/ ⟨0x048, 0x0, 1, [⟨31, 0, .rc, 0x0⟩]⟩,
   /- XGS_TWIN_ARRAYS -/ ⟨0x050, 0x4, 4, [⟨23, 0, .ro, 0x0⟩]⟩,
   /- XGS_DOMAIN -/ ⟨0x100, 0x0, 1, [⟨4, 0, .rwv, 0x0⟩, ⟨8, 8, .rwv, 0x1⟩, ⟨16, 16, .rwv, 0x0⟩]⟩,
   /- XGS_TWIN_SLOTS_LO -/ ⟨0x104, 0x0, 1, [⟨31, 0, .rwv, 0x0⟩]⟩,
   /- XGS_TWIN_SLOTS_HI -/ ⟨0x108, 0x0, 1, [⟨31, 0, .rwv, 0x0⟩]⟩,
   /- XGS_TWIN_WAIT -/ ⟨0x10C, 0x0, 1, [⟨15, 0, .rw, 0x7D0⟩]⟩,
   /- XGS_COLL_BASE_LO -/ ⟨0x110, 0x0, 1, [⟨31, 13, .rw, 0x0⟩]⟩,
   /- XGS_COLL_BASE_HI -/ ⟨0x114, 0x0, 1, [⟨15, 0, .rw, 0x0⟩]⟩,
   /- XGS_GROUP_SEL -/ ⟨0x118, 0x0, 1, [⟨3, 0, .rw, 0x0⟩]⟩,
   /- XGS_GROUP_SIZE -/ ⟨0x11C, 0x0, 1, [⟨5, 0, .rw, 0x0⟩, ⟨31, 31, .rwv, 0x0⟩]⟩,
   /- XGS_GROUP_RANKS -/ ⟨0x120, 0x4, 8, [⟨4, 0, .rw, 0x0⟩, ⟨12, 8, .rw, 0x0⟩, ⟨20, 16, .rw, 0x0⟩, ⟨28, 24, .rw, 0x0⟩]⟩,
   /- XGS_AP -/ ⟨0x180, 0x4, 16, [⟨15, 0, .rw, 0x0⟩, ⟨25, 24, .rwv, 0x0⟩, ⟨31, 31, .rwv, 0x0⟩]⟩]

/-- The registers of block XL above the common header. -/
def xlRegs : List RegDef :=
  [/- XL_CTRL -/ ⟨0x020, 0x0, 1, [⟨0, 0, .rwv, 0x0⟩, ⟨1, 1, .wo, 0x0⟩]⟩,
   /- XL_STATUS -/ ⟨0x024, 0x0, 1, [⟨1, 0, .ro, 0x0⟩, ⟨6, 4, .ro, 0x0⟩, ⟨12, 8, .ro, 0x0⟩, ⟨15, 13, .ro, 0x0⟩, ⟨16, 16, .ro, 0x0⟩]⟩,
   /- XL_PEER_SERIAL_LO -/ ⟨0x028, 0x0, 1, [⟨31, 0, .ro, 0x0⟩]⟩,
   /- XL_PEER_SERIAL_HI -/ ⟨0x02C, 0x0, 1, [⟨31, 0, .ro, 0x0⟩]⟩,
   /- XL_FEC -/ ⟨0x030, 0x0, 1, [⟨15, 0, .rc, 0x0⟩, ⟨31, 16, .rc, 0x0⟩]⟩,
   /- XL_ERR -/ ⟨0x034, 0x0, 1, [⟨11, 0, .rc, 0x0⟩, ⟨19, 12, .rc, 0x0⟩, ⟨27, 20, .rc, 0x0⟩, ⟨31, 28, .rc, 0x0⟩]⟩,
   /- XL_TX_WORDS -/ ⟨0x038, 0x0, 1, [⟨31, 0, .rc, 0x0⟩]⟩,
   /- XL_RX_WORDS -/ ⟨0x03C, 0x0, 1, [⟨31, 0, .rc, 0x0⟩]⟩,
   /- XL_LANE_RETIRE -/ ⟨0x100, 0x0, 1, [⟨3, 0, .rwv, 0x0⟩]⟩,
   /- XL_EQ -/ ⟨0x104, 0x0, 1, [⟨3, 0, .rw, 0x2⟩, ⟨11, 8, .rw, 0x4⟩, ⟨16, 16, .rw, 0x1⟩]⟩]

/-- The registers of block PCIE above the common header. -/
def pcieRegs : List RegDef :=
  [/- PCIE_STATUS -/ ⟨0x020, 0x0, 1, [⟨0, 0, .ro, 0x0⟩, ⟨3, 1, .ro, 0x0⟩, ⟨8, 4, .ro, 0x0⟩, ⟨9, 9, .ro, 0x0⟩, ⟨10, 10, .ro, 0x0⟩, ⟨11, 11, .ro, 0x0⟩]⟩,
   /- PCIE_ERR -/ ⟨0x024, 0x0, 1, [⟨7, 0, .rc, 0x0⟩, ⟨15, 8, .rc, 0x0⟩, ⟨23, 16, .rc, 0x0⟩, ⟨31, 24, .rc, 0x0⟩]⟩,
   /- PCIE_BAR2_ERR -/ ⟨0x028, 0x0, 1, [⟨15, 0, .rc, 0x0⟩]⟩,
   /- PCIE_CQ_VEC -/ ⟨0x040, 0x4, 32, [⟨4, 0, .rw, 0x0⟩, ⟨12, 8, .rw, 0x0⟩, ⟨20, 16, .rw, 0x0⟩, ⟨28, 24, .rw, 0x0⟩]⟩,
   /- PCIE_BLK_VEC -/ ⟨0x0C0, 0x0, 1, [⟨4, 0, .rw, 0x1F⟩]⟩,
   /- PCIE_BLK_PEND -/ ⟨0x0C4, 0x4, 8, [⟨31, 0, .ro, 0x0⟩]⟩,
   /- PCIE_MSI_PEND -/ ⟨0x0E4, 0x0, 1, [⟨31, 0, .ro, 0x0⟩]⟩,
   /- PCIE_AP -/ ⟨0x100, 0x4, 16, [⟨15, 0, .rw, 0x0⟩, ⟨25, 24, .rwv, 0x0⟩, ⟨31, 31, .rwv, 0x0⟩]⟩,
   /- PCIE_BLK_HOST -/ ⟨0x140, 0x4, 8, [⟨31, 0, .rw, 0x0⟩]⟩,
   /- PCIE_CTRL -/ ⟨0x160, 0x0, 1, [⟨0, 0, .wo, 0x0⟩, ⟨1, 1, .rw, 0x0⟩]⟩]

/-- The registers of block ISL above the common header. -/
def islRegs : List RegDef :=
  [/- ISL_STATE -/ ⟨0x020, 0x0, 1, [⟨2, 0, .rov, 0x0⟩, ⟨3, 3, .ro, 0x0⟩, ⟨4, 4, .ro, 0x0⟩, ⟨5, 5, .ro, 0x0⟩, ⟨6, 6, .rov, 0x0⟩]⟩,
   /- ISL_IMAGE -/ ⟨0x024, 0x0, 1, [⟨15, 0, .ro, 0x0⟩, ⟨16, 16, .ro, 0x0⟩]⟩,
   /- ISL_TIME_LO -/ ⟨0x028, 0x0, 1, [⟨31, 0, .ro, 0x0⟩]⟩,
   /- ISL_TIME_HI -/ ⟨0x02C, 0x0, 1, [⟨31, 0, .ro, 0x0⟩]⟩,
   /- ISL_CLOCK -/ ⟨0x030, 0x0, 1, [⟨15, 0, .ro, 0x0⟩, ⟨31, 16, .ro, 0x0⟩]⟩,
   /- ISL_TIMERS -/ ⟨0x034, 0x0, 1, [⟨12, 0, .ro, 0x0⟩, ⟨28, 16, .ro, 0x0⟩]⟩,
   /- ISL_MISSES -/ ⟨0x038, 0x0, 1, [⟨15, 0, .ro, 0x0⟩, ⟨31, 16, .ro, 0x0⟩]⟩,
   /- ISL_DIE_RESETS -/ ⟨0x03C, 0x0, 1, [⟨7, 0, .ro, 0x0⟩, ⟨15, 8, .ro, 0x0⟩, ⟨23, 16, .ro, 0x0⟩, ⟨31, 24, .ro, 0x0⟩]⟩,
   /- ISL_MODULE_RESETS -/ ⟨0x040, 0x0, 1, [⟨7, 0, .ro, 0x0⟩]⟩,
   /- ISL_TAP -/ ⟨0x044, 0x0, 1, [⟨3, 0, .ro, 0x0⟩, ⟨11, 8, .ro, 0x0⟩, ⟨15, 12, .ro, 0x0⟩]⟩,
   /- ISL_OUTPUTS -/ ⟨0x048, 0x0, 1, [⟨1, 0, .ro, 0x0⟩, ⟨3, 2, .ro, 0x0⟩, ⟨5, 4, .ro, 0x0⟩]⟩,
   /- ISL_EVENT_SEQ -/ ⟨0x04C, 0x0, 1, [⟨31, 0, .ro, 0x0⟩]⟩,
   /- ISL_LAST_EVENT -/ ⟨0x060, 0x4, 16, [⟨31, 0, .ro, 0x0⟩]⟩,
   /- ISL_SLOT -/ ⟨0x100, 0x4, 64, [⟨1, 0, .ro, 0x0⟩, ⟨3, 2, .ro, 0x0⟩, ⟨11, 4, .ro, 0x0⟩]⟩]

/-- The registers of block FLT above the common header. -/
def fltRegs : List RegDef :=
  [/- FLT_CTRL -/ ⟨0x020, 0x0, 1, [⟨0, 0, .wo, 0x0⟩]⟩,
   /- FLT_STATUS -/ ⟨0x024, 0x0, 1, [⟨10, 0, .ro, 0x0⟩, ⟨16, 16, .ro, 0x0⟩]⟩,
   /- FLT_SEQ -/ ⟨0x028, 0x0, 1, [⟨31, 0, .ro, 0x0⟩]⟩,
   /- FLT_LOG_SEL -/ ⟨0x02C, 0x0, 1, [⟨9, 0, .rw, 0x0⟩]⟩,
   /- FLT_LOG_WORD -/ ⟨0x040, 0x4, 16, [⟨31, 0, .ro, 0x0⟩]⟩,
   /- FLT_FORWARD_LOST -/ ⟨0x080, 0x0, 1, [⟨15, 0, .rc, 0x0⟩, ⟨31, 16, .rc, 0x0⟩]⟩,
   /- FLT_SR_OPEN -/ ⟨0x084, 0x0, 1, [⟨15, 0, .ro, 0x0⟩]⟩,
   /- FLT_RECOVERY -/ ⟨0x088, 0x0, 1, [⟨1, 0, .ro, 0x0⟩, ⟨7, 4, .ro, 0x0⟩, ⟨15, 8, .ro, 0x0⟩, ⟨31, 31, .ro, 0x0⟩]⟩,
   /- FLT_INJECT -/ ⟨0x100, 0x0, 1, [⟨7, 0, .rw, 0x0⟩, ⟨11, 8, .rw, 0x0⟩, ⟨13, 12, .rw, 0x0⟩, ⟨16, 16, .rw, 0x0⟩, ⟨29, 29, .ro, 0x0⟩, ⟨31, 31, .wo, 0x0⟩]⟩]

/-- The registers of block STEST above the common header. -/
def stestRegs : List RegDef :=
  [/- STEST_CTRL -/ ⟨0x020, 0x0, 1, [⟨0, 0, .rwv, 0x0⟩]⟩,
   /- STEST_STATUS -/ ⟨0x024, 0x0, 1, [⟨1, 0, .rov, 0x0⟩, ⟨7, 4, .ro, 0x0⟩]⟩,
   /- STEST_DIE_SEL -/ ⟨0x028, 0x0, 1, [⟨1, 0, .rw, 0x0⟩]⟩,
   /- STEST_DIE_STATE -/ ⟨0x02C, 0x0, 1, [⟨4, 0, .ro, 0x0⟩, ⟨5, 5, .ro, 0x0⟩, ⟨11, 8, .ro, 0x0⟩, ⟨23, 16, .ro, 0x0⟩]⟩,
   /- STEST_AGE -/ ⟨0x030, 0x0, 1, [⟨15, 0, .ro, 0x0⟩, ⟨20, 16, .ro, 0x0⟩]⟩,
   /- STEST_PASSES -/ ⟨0x034, 0x0, 1, [⟨31, 0, .rc, 0x0⟩]⟩,
   /- STEST_ABORTS -/ ⟨0x038, 0x0, 1, [⟨31, 0, .rc, 0x0⟩]⟩,
   /- STEST_SKIPS -/ ⟨0x03C, 0x0, 1, [⟨31, 0, .rc, 0x0⟩]⟩,
   /- STEST_LAST_FAIL -/ ⟨0x040, 0x0, 1, [⟨1, 0, .ro, 0x0⟩, ⟨8, 4, .ro, 0x0⟩, ⟨15, 12, .ro, 0x0⟩, ⟨17, 16, .ro, 0x0⟩, ⟨31, 31, .ro, 0x0⟩]⟩,
   /- STEST_TARGET -/ ⟨0x050, 0x4, 4, [⟨23, 0, .rw, 0x0⟩]⟩,
   /- STEST_TARGET_CMD -/ ⟨0x060, 0x0, 1, [⟨0, 0, .ro, 0x0⟩, ⟨1, 1, .ro, 0x0⟩, ⟨31, 31, .wo, 0x0⟩]⟩,
   /- STEST_TARGET_FAIL -/ ⟨0x070, 0x4, 4, [⟨23, 0, .ro, 0x0⟩]⟩,
   /- STEST_ARRAY_CMD -/ ⟨0x080, 0x0, 1, [⟨1, 0, .wo, 0x0⟩, ⟨12, 8, .wo, 0x0⟩, ⟨17, 16, .wo, 0x0⟩, ⟨30, 30, .ro, 0x0⟩, ⟨31, 31, .wo, 0x0⟩]⟩,
   /- STEST_ARRAY_OUT -/ ⟨0x090, 0x4, 4, [⟨23, 0, .ro, 0x0⟩]⟩,
   /- STEST_DIE_CMD -/ ⟨0x0A0, 0x0, 1, [⟨1, 0, .wo, 0x0⟩, ⟨17, 16, .wo, 0x0⟩, ⟨30, 30, .ro, 0x0⟩, ⟨31, 31, .wo, 0x0⟩]⟩,
   /- STEST_STACK_CMD -/ ⟨0x0A4, 0x0, 1, [⟨1, 0, .wo, 0x0⟩, ⟨17, 16, .wo, 0x0⟩, ⟨31, 31, .wo, 0x0⟩]⟩,
   /- STEST_STACK_STATE -/ ⟨0x0A8, 0x0, 1, [⟨3, 0, .rov, 0x0⟩, ⟨4, 4, .ro, 0x0⟩, ⟨5, 5, .ro, 0x0⟩, ⟨28, 8, .ro, 0x0⟩]⟩,
   /- STEST_ISLAND_CMD -/ ⟨0x0AC, 0x0, 1, [⟨0, 0, .wo, 0x0⟩, ⟨30, 30, .ro, 0x0⟩, ⟨31, 31, .wo, 0x0⟩]⟩,
   /- STEST_INTERVAL -/ ⟨0x100, 0x0, 1, [⟨11, 0, .rwv, 0x7D0⟩]⟩,
   /- STEST_DRAIN_MAX -/ ⟨0x104, 0x0, 1, [⟨7, 0, .rw, 0x14⟩]⟩,
   /- STEST_PROG_BASE_LO -/ ⟨0x108, 0x0, 1, [⟨31, 16, .rw, 0x0⟩]⟩,
   /- STEST_PROG_BASE_HI -/ ⟨0x10C, 0x0, 1, [⟨15, 0, .rw, 0x0⟩]⟩,
   /- STEST_REPAIR_CLEAR -/ ⟨0x110, 0x0, 1, [⟨2, 0, .rw, 0x0⟩, ⟨9, 8, .rw, 0x0⟩, ⟨16, 12, .rw, 0x0⟩, ⟨22, 18, .rw, 0x0⟩, ⟨29, 29, .ro, 0x0⟩, ⟨30, 30, .ro, 0x0⟩, ⟨31, 31, .wo, 0x0⟩]⟩,
   /- STEST_SPILL_BASE_LO -/ ⟨0x120, 0x8, 4, [⟨31, 28, .rw, 0x0⟩, ⟨0, 0, .rwv, 0x0⟩]⟩,
   /- STEST_SPILL_BASE_HI -/ ⟨0x124, 0x8, 4, [⟨15, 0, .rw, 0x0⟩]⟩]

/-- The registers of block FARM above the common header. -/
def farmRegs : List RegDef :=
  [/- FARM_CTRL -/ ⟨0x020, 0x0, 1, [⟨0, 0, .wo, 0x0⟩, ⟨1, 1, .wo, 0x0⟩, ⟨2, 2, .wo, 0x0⟩, ⟨3, 3, .rw, 0x0⟩, ⟨4, 4, .wo, 0x0⟩, ⟨5, 5, .wo, 0x0⟩]⟩,
   /- FARM_STATUS -/ ⟨0x024, 0x0, 1, [⟨2, 0, .rov, 0x1⟩, ⟨3, 3, .ro, 0x0⟩, ⟨7, 4, .ro, 0x0⟩, ⟨8, 8, .ro, 0x0⟩]⟩,
   /- FARM_SEGMENT -/ ⟨0x028, 0x0, 1, [⟨31, 0, .ro, 0x0⟩]⟩,
   /- FARM_BOUNDARY_LO -/ ⟨0x02C, 0x0, 1, [⟨31, 0, .rw, 0x0⟩]⟩,
   /- FARM_BOUNDARY_HI -/ ⟨0x030, 0x0, 1, [⟨31, 0, .rw, 0x0⟩]⟩,
   /- FARM_PROG_RECORDS -/ ⟨0x034, 0x0, 1, [⟨31, 0, .ro, 0x0⟩]⟩,
   /- FARM_PROG_JOBS -/ ⟨0x038, 0x0, 1, [⟨31, 0, .ro, 0x0⟩]⟩,
   /- FARM_PROG_MS -/ ⟨0x03C, 0x0, 1, [⟨31, 0, .ro, 0x0⟩]⟩,
   /- FARM_STRAGGLE_LO -/ ⟨0x040, 0x0, 1, [⟨31, 0, .rw, 0x0⟩]⟩,
   /- FARM_STRAGGLE_HI -/ ⟨0x044, 0x0, 1, [⟨31, 0, .rw, 0x0⟩]⟩,
   /- FARM_STRAGGLE_MS -/ ⟨0x048, 0x0, 1, [⟨23, 0, .rw, 0x0⟩]⟩,
   /- FARM_TAGS0 -/ ⟨0x050, 0x0, 1, [⟨15, 0, .rw, 0x0⟩, ⟨31, 16, .rw, 0x0⟩]⟩,
   /- FARM_TAGS1 -/ ⟨0x054, 0x0, 1, [⟨15, 0, .rw, 0x0⟩, ⟨31, 16, .rw, 0x0⟩]⟩,
   /- FARM_TELEM -/ ⟨0x058, 0x0, 1, [⟨7, 0, .rw, 0x0⟩, ⟨23, 8, .rw, 0x3E8⟩]⟩,
   /- FARM_TELEM_DROP -/ ⟨0x05C, 0x0, 1, [⟨31, 0, .rc, 0x0⟩]⟩,
   /- FARM_CKPT_ADDR_LO -/ ⟨0x060, 0x0, 1, [⟨31, 20, .rw, 0x0⟩]⟩,
   /- FARM_CKPT_ADDR_HI -/ ⟨0x064, 0x0, 1, [⟨15, 0, .rw, 0x0⟩]⟩,
   /- FARM_CKPT_SIZE -/ ⟨0x068, 0x0, 1, [⟨31, 0, .ro, 0x0⟩]⟩,
   /- FARM_CKPT_DIGEST -/ ⟨0x080, 0x4, 16, [⟨31, 0, .ro, 0x0⟩]⟩,
   /- FARM_TAKEOVER -/ ⟨0x0C0, 0x0, 1, [⟨4, 0, .rw, 0x0⟩, ⟨30, 30, .ro, 0x0⟩, ⟨31, 31, .wo, 0x0⟩]⟩,
   /- FARM_TAKEOVER_SERIAL_LO -/ ⟨0x0C4, 0x0, 1, [⟨31, 0, .rw, 0x0⟩]⟩,
   /- FARM_TAKEOVER_SERIAL_HI -/ ⟨0x0C8, 0x0, 1, [⟨31, 0, .rw, 0x0⟩]⟩,
   /- FARM_RELINK -/ ⟨0x0D0, 0x0, 1, [⟨2, 0, .rw, 0x0⟩, ⟨15, 8, .ro, 0x0⟩, ⟨30, 30, .ro, 0x0⟩, ⟨31, 31, .wo, 0x0⟩]⟩,
   /- FARM_BOUNDARY_WAIT -/ ⟨0x100, 0x0, 1, [⟨15, 0, .rw, 0x3E8⟩]⟩,
   /- FARM_RELINK_MAX -/ ⟨0x104, 0x0, 1, [⟨7, 0, .rw, 0x32⟩]⟩]

/-- The registers of block XSLOT above the common header. -/
def xslotRegs : List RegDef :=
  [/- XSLOT_DOORBELL -/ ⟨0x020, 0x0, 1, [⟨0, 0, .wo, 0x0⟩, ⟨8, 8, .wo, 0x0⟩]⟩,
   /- XSLOT_STATUS -/ ⟨0x024, 0x0, 1, [⟨0, 0, .ro, 0x0⟩, ⟨1, 1, .ro, 0x0⟩, ⟨2, 2, .ro, 0x0⟩]⟩,
   /- XSLOT_IDENT -/ ⟨0x028, 0x0, 1, [⟨31, 0, .ro, 0x0⟩]⟩,
   /- XSLOT_H2X_DATA -/ ⟨0x040, 0x4, 8, [⟨31, 0, .rw, 0x0⟩]⟩,
   /- XSLOT_X2H_DATA -/ ⟨0x060, 0x4, 8, [⟨31, 0, .ro, 0x0⟩]⟩]

/-- The registers of block MC above the common header. -/
def mcRegs : List RegDef :=
  [/- MC_CTRL -/ ⟨0x020, 0x0, 1, [⟨0, 0, .wo, 0x0⟩, ⟨1, 1, .rwv, 0x0⟩, ⟨2, 2, .rwv, 0x1⟩, ⟨3, 3, .wo, 0x0⟩]⟩,
   /- MC_STATUS -/ ⟨0x024, 0x0, 1, [⟨1, 0, .rov, 0x0⟩, ⟨5, 2, .ro, 0x0⟩, ⟨7, 6, .ro, 0x0⟩, ⟨9, 8, .rov, 0x0⟩, ⟨10, 10, .ro, 0x0⟩]⟩,
   /- MC_WQ -/ ⟨0x028, 0x0, 1, [⟨6, 0, .ro, 0x0⟩, ⟨14, 8, .rc, 0x0⟩, ⟨31, 16, .rc, 0x0⟩]⟩,
   /- MC_TEMP -/ ⟨0x02C, 0x0, 1, [⟨7, 0, .ro, 0x0⟩, ⟨15, 8, .ro, 0x0⟩, ⟨18, 16, .ro, 0x2⟩]⟩,
   /- MC_CORR -/ ⟨0x030, 0x0, 1, [⟨15, 0, .rc, 0x0⟩, ⟨31, 16, .rc, 0x0⟩]⟩,
   /- MC_UNCORR -/ ⟨0x034, 0x0, 1, [⟨15, 0, .rc, 0x0⟩, ⟨31, 16, .rc, 0x0⟩]⟩,
   /- MC_LAST_ERR_LOC -/ ⟨0x038, 0x0, 1, [⟨0, 0, .ro, 0x0⟩, ⟨4, 1, .ro, 0x0⟩, ⟨21, 5, .ro, 0x0⟩, ⟨26, 22, .ro, 0x0⟩, ⟨27, 27, .ro, 0x0⟩]⟩,
   /- MC_LAST_ERR_KIND -/ ⟨0x03C, 0x0, 1, [⟨5, 0, .ro, 0x0⟩, ⟨8, 8, .ro, 0x0⟩, ⟨9, 9, .ro, 0x0⟩]⟩,
   /- MC_ROWS_RETIRED -/ ⟨0x040, 0x0, 1, [⟨6, 0, .rov, 0x0⟩, ⟨14, 8, .rov, 0x0⟩]⟩,
   /- MC_RETRAIN -/ ⟨0x044, 0x0, 1, [⟨15, 0, .rc, 0x0⟩, ⟨31, 16, .rc, 0x0⟩]⟩,
   /- MC_FWD_COUNT -/ ⟨0x048, 0x0, 1, [⟨31, 0, .rc, 0x0⟩]⟩,
   /- MC_CC_MISS -/ ⟨0x04C, 0x0, 1, [⟨31, 0, .rc, 0x0⟩]⟩,
   /- MC_SCRUB_POS -/ ⟨0x050, 0x0, 1, [⟨22, 0, .ro, 0x0⟩, ⟨31, 24, .ro, 0x0⟩]⟩,
   /- MC_SPILL -/ ⟨0x100, 0x0, 1, [⟨6, 0, .rw, 0x30⟩, ⟨14, 8, .rw, 0x10⟩]⟩,
   /- MC_RETRAIN_CFG -/ ⟨0x104, 0x0, 1, [⟨4, 0, .rw, 0xA⟩]⟩,
   /- MC_SCRUB_CFG -/ ⟨0x108, 0x0, 1, [⟨7, 0, .rw, 0xC⟩]⟩,
   /- MC_ROW_THRESH -/ ⟨0x10C, 0x0, 1, [⟨7, 0, .rw, 0x10⟩]⟩,
   /- MC_REMAP_SEL -/ ⟨0x110, 0x0, 1, [⟨0, 0, .rw, 0x0⟩, ⟨13, 8, .rw, 0x0⟩]⟩,
   /- MC_REMAP_ENTRY -/ ⟨0x114, 0x0, 1, [⟨16, 0, .rwv, 0x0⟩, ⟨20, 17, .rwv, 0x0⟩, ⟨27, 21, .rwv, 0x0⟩, ⟨31, 31, .rwv, 0x0⟩]⟩,
   /- MC_INJECT_ADDR -/ ⟨0x118, 0x0, 1, [⟨25, 0, .rw, 0x0⟩, ⟨31, 31, .rw, 0x0⟩]⟩,
   /- MC_INJECT -/ ⟨0x11C, 0x0, 1, [⟨0, 0, .wo, 0x0⟩, ⟨1, 1, .wo, 0x0⟩]⟩]

/-- The registers of block MEMG above the common header. -/
def memgRegs : List RegDef :=
  [/- MEMG_CTRL -/ ⟨0x020, 0x0, 1, [⟨0, 0, .wo, 0x0⟩, ⟨1, 1, .rwv, 0x0⟩, ⟨2, 2, .wo, 0x0⟩, ⟨3, 3, .wo, 0x0⟩]⟩,
   /- MEMG_STATUS -/ ⟨0x024, 0x0, 1, [⟨2, 0, .rov, 0x0⟩, ⟨3, 3, .ro, 0x0⟩, ⟨15, 8, .ro, 0x0⟩]⟩,
   /- MEMG_TRAIN -/ ⟨0x028, 0x0, 1, [⟨15, 0, .ro, 0x0⟩, ⟨31, 16, .ro, 0x0⟩]⟩,
   /- MEMG_CAPACITY -/ ⟨0x02C, 0x0, 1, [⟨16, 0, .ro, 0x1B88A⟩]⟩,
   /- MEMG_RETIRE -/ ⟨0x030, 0x0, 1, [⟨4, 0, .wo, 0x0⟩, ⟨30, 30, .wo, 0x0⟩, ⟨31, 31, .wo, 0x0⟩]⟩,
   /- MEMG_RETIRE_STATE -/ ⟨0x034, 0x0, 1, [⟨4, 0, .ro, 0x0⟩, ⟨5, 5, .rov, 0x0⟩, ⟨6, 6, .ro, 0x0⟩, ⟨7, 7, .ro, 0x0⟩, ⟨30, 8, .ro, 0x0⟩]⟩,
   /- MEMG_UNMAPPED -/ ⟨0x038, 0x0, 1, [⟨15, 0, .rc, 0x0⟩, ⟨31, 16, .rc, 0x0⟩]⟩,
   /- MEMG_TEST_FAIL -/ ⟨0x03C, 0x0, 1, [⟨31, 0, .ro, 0x0⟩]⟩,
   /- MEMG_SPARE -/ ⟨0x100, 0x0, 1, [⟨0, 0, .rwv, 0x1⟩]⟩,
   /- MEMG_PARK_KEEP -/ ⟨0x104, 0x0, 1, [⟨6, 0, .rwv, 0x1⟩]⟩,
   /- MEMG_TEST -/ ⟨0x108, 0x0, 1, [⟨31, 0, .rw, 0x0⟩]⟩,
   /- MEMG_TEST_CMD -/ ⟨0x10C, 0x0, 1, [⟨1, 0, .rw, 0x0⟩, ⟨31, 31, .wo, 0x0⟩]⟩,
   /- MEMG_SAVE_BASE_LO -/ ⟨0x110, 0x0, 1, [⟨31, 16, .rw, 0x0⟩]⟩,
   /- MEMG_SAVE_BASE_HI -/ ⟨0x114, 0x0, 1, [⟨15, 0, .rw, 0x0⟩]⟩]

/-- The registers of block CD above the common header. -/
def cdRegs : List RegDef :=
  [/- CD_STATE -/ ⟨0x020, 0x0, 1, [⟨3, 0, .rov, 0x1⟩, ⟨8, 8, .ro, 0x0⟩, ⟨9, 9, .ro, 0x0⟩, ⟨10, 10, .ro, 0x0⟩, ⟨11, 11, .ro, 0x0⟩, ⟨15, 12, .ro, 0x0⟩]⟩,
   /- CD_CTRL -/ ⟨0x024, 0x0, 1, [⟨0, 0, .wo, 0x0⟩, ⟨5, 4, .rwv, 0x3⟩]⟩,
   /- CD_ARR_SERVICE -/ ⟨0x028, 0x0, 1, [⟨23, 0, .ro, 0x0⟩]⟩,
   /- CD_HOTSPOT_MAX -/ ⟨0x030, 0x0, 1, [⟨15, 0, .ro, 0x0⟩, ⟨19, 16, .ro, 0x0⟩, ⟨24, 20, .ro, 0x0⟩]⟩,
   /- CD_HOTSPOT -/ ⟨0x040, 0x4, 16, [⟨15, 0, .ro, 0x0⟩]⟩,
   /- CD_POOL_ERR -/ ⟨0x080, 0x0, 1, [⟨15, 0, .rc, 0x0⟩, ⟨31, 16, .rc, 0x0⟩]⟩,
   /- CD_HINGE_ERR -/ ⟨0x084, 0x0, 1, [⟨11, 0, .rc, 0x0⟩, ⟨19, 12, .rc, 0x0⟩, ⟨27, 20, .rc, 0x0⟩]⟩,
   /- CD_GRID_MASK -/ ⟨0x100, 0x0, 1, [⟨15, 0, .rwv, 0x0⟩]⟩,
   /- CD_PHYS_MAP -/ ⟨0x104, 0x0, 1, [⟨25, 0, .rov, 0x0⟩]⟩,
   /- CD_LOG2PHYS -/ ⟨0x110, 0x4, 4, [⟨4, 0, .rov, 0x0⟩, ⟨9, 5, .rov, 0x0⟩, ⟨14, 10, .rov, 0x0⟩, ⟨19, 15, .rov, 0x0⟩, ⟨24, 20, .rov, 0x0⟩, ⟨29, 25, .rov, 0x0⟩]⟩]

/-- The registers of block ARR above the common header. -/
def arrRegs : List RegDef :=
  [/- ARR_STATE -/ ⟨0x020, 0x0, 1, [⟨3, 0, .rov, 0x0⟩, ⟨12, 8, .ro, 0x0⟩, ⟨17, 16, .ro, 0x0⟩, ⟨20, 20, .ro, 0x0⟩, ⟨21, 21, .ro, 0x0⟩, ⟨22, 22, .ro, 0x0⟩]⟩,
   /- ARR_CTRL -/ ⟨0x024, 0x0, 1, [⟨0, 0, .wo, 0x0⟩, ⟨1, 1, .wo, 0x0⟩, ⟨2, 2, .wo, 0x0⟩]⟩,
   /- ARR_JOB_QUEUE -/ ⟨0x028, 0x0, 1, [⟨19, 0, .ro, 0x0⟩, ⟨31, 31, .ro, 0x0⟩]⟩,
   /- ARR_JOB_INDEX -/ ⟨0x02C, 0x0, 1, [⟨31, 0, .ro, 0x0⟩]⟩,
   /- ARR_PC -/ ⟨0x030, 0x0, 1, [⟨11, 0, .ro, 0x0⟩]⟩,
   /- ARR_CAPS -/ ⟨0x034, 0x0, 1, [⟨0, 0, .ro, 0x1⟩, ⟨1, 1, .ro, 0x1⟩, ⟨2, 2, .ro, 0x1⟩]⟩,
   /- ARR_NUM_FLAGS -/ ⟨0x038, 0x0, 1, [⟨0, 0, .w1c, 0x0⟩, ⟨1, 1, .w1c, 0x0⟩, ⟨2, 2, .w1c, 0x0⟩, ⟨3, 3, .w1c, 0x0⟩]⟩,
   /- ARR_FAULT -/ ⟨0x03C, 0x0, 1, [⟨3, 0, .ro, 0x0⟩, ⟨27, 16, .ro, 0x0⟩]⟩,
   /- ARR_RED -/ ⟨0x040, 0x0, 1, [⟨9, 0, .ro, 0x0⟩, ⟨25, 16, .ro, 0x0⟩]⟩,
   /- ARR_LB_ERR -/ ⟨0x048, 0x0, 1, [⟨15, 0, .rc, 0x0⟩, ⟨31, 16, .rc, 0x0⟩]⟩,
   /- ARR_LB_LAST_ERR -/ ⟨0x04C, 0x0, 1, [⟨14, 0, .ro, 0x0⟩, ⟨20, 15, .ro, 0x0⟩]⟩,
   /- ARR_BUSY_CYCLES -/ ⟨0x050, 0x0, 1, [⟨31, 0, .rc, 0x0⟩]⟩,
   /- ARR_STALL_CYCLES -/ ⟨0x054, 0x0, 1, [⟨31, 0, .rc, 0x0⟩]⟩,
   /- ARR_ISSUED -/ ⟨0x058, 0x0, 1, [⟨31, 0, .rc, 0x0⟩]⟩,
   /- ARR_CAP_DISABLE -/ ⟨0x100, 0x0, 1, [⟨0, 0, .rwv, 0x0⟩, ⟨1, 1, .rwv, 0x0⟩, ⟨2, 2, .rwv, 0x0⟩]⟩,
   /- ARR_INJECT -/ ⟨0x104, 0x0, 1, [⟨14, 0, .rw, 0x0⟩, ⟨16, 16, .wo, 0x0⟩, ⟨17, 17, .wo, 0x0⟩]⟩]

/-- The registers of block ST above the common header. -/
def stRegs : List RegDef :=
  [/- ST_STATUS -/ ⟨0x020, 0x0, 1, [⟨1, 0, .ro, 0x3⟩, ⟨2, 2, .ro, 0x0⟩]⟩,
   /- ST_CORR_COUNT -/ ⟨0x028, 0x0, 1, [⟨31, 0, .rc, 0x0⟩]⟩,
   /- ST_UNCORR_COUNT -/ ⟨0x02C, 0x0, 1, [⟨31, 0, .rc, 0x0⟩]⟩,
   /- ST_LAST_ERR_ADDR -/ ⟨0x030, 0x0, 1, [⟨27, 0, .ro, 0x0⟩, ⟨31, 28, .ro, 0x0⟩]⟩,
   /- ST_STEP_COUNT -/ ⟨0x034, 0x0, 1, [⟨15, 0, .rc, 0x0⟩]⟩,
   /- ST_THR1 -/ ⟨0x100, 0x0, 1, [⟨7, 0, .rwv, 0x64⟩]⟩,
   /- ST_THR2 -/ ⟨0x104, 0x0, 1, [⟨7, 0, .rwv, 0x6E⟩]⟩,
   /- ST_THR3 -/ ⟨0x108, 0x0, 1, [⟨7, 0, .rwv, 0x76⟩]⟩,
   /- ST_HYST -/ ⟨0x10C, 0x0, 1, [⟨3, 0, .rwv, 0x3⟩]⟩]

/-- The registers of block PSR above the common header. -/
def psrRegs : List RegDef :=
  [/- PSR_STATUS -/ ⟨0x020, 0x0, 1, [⟨1, 0, .ro, 0x0⟩, ⟨2, 2, .ro, 0x0⟩]⟩,
   /- PSR_ID -/ ⟨0x024, 0x0, 1, [⟨15, 0, .ro, 0x0⟩]⟩,
   /- PSR_RD_ADDR -/ ⟨0x028, 0x0, 1, [⟨25, 5, .rw, 0x0⟩]⟩,
   /- PSR_RD_CMD -/ ⟨0x02C, 0x0, 1, [⟨0, 0, .wo, 0x0⟩, ⟨1, 1, .ro, 0x0⟩, ⟨2, 2, .ro, 0x0⟩, ⟨3, 3, .ro, 0x0⟩]⟩,
   /- PSR_FR_HEAD -/ ⟨0x030, 0x0, 1, [⟨20, 0, .ro, 0x0⟩, ⟨31, 24, .ro, 0x0⟩]⟩,
   /- PSR_FAULT_COUNT -/ ⟨0x034, 0x0, 1, [⟨15, 0, .ro, 0x0⟩]⟩,
   /- PSR_ERR -/ ⟨0x038, 0x0, 1, [⟨15, 0, .rc, 0x0⟩, ⟨31, 16, .rc, 0x0⟩]⟩,
   /- PSR_RD_DATA -/ ⟨0x040, 0x4, 8, [⟨31, 0, .ro, 0x0⟩]⟩]

/-- The registers of block NOR above the common header. -/
def norRegs : List RegDef :=
  [/- NOR_STATUS -/ ⟨0x020, 0x0, 1, [⟨1, 0, .ro, 0x0⟩, ⟨2, 2, .ro, 0x0⟩]⟩,
   /- NOR_ID -/ ⟨0x024, 0x0, 1, [⟨23, 0, .ro, 0x0⟩]⟩,
   /- NOR_RD_ADDR -/ ⟨0x028, 0x0, 1, [⟨27, 5, .rw, 0x0⟩]⟩,
   /- NOR_RD_CMD -/ ⟨0x02C, 0x0, 1, [⟨0, 0, .wo, 0x0⟩, ⟨1, 1, .ro, 0x0⟩, ⟨2, 2, .ro, 0x0⟩, ⟨3, 3, .ro, 0x0⟩]⟩,
   /- NOR_ERASE -/ ⟨0x030, 0x0, 1, [⟨15, 0, .ro, 0x0⟩, ⟨31, 16, .ro, 0x0⟩]⟩,
   /- NOR_ERR -/ ⟨0x034, 0x0, 1, [⟨15, 0, .rc, 0x0⟩]⟩,
   /- NOR_RD_DATA -/ ⟨0x040, 0x4, 8, [⟨31, 0, .ro, 0x0⟩]⟩]

/-- The registers of a block. -/
def blkRegs : Blk → List RegDef
  | .gen => genRegs
  | .pwr => pwrRegs
  | .thm => thmRegs
  | .sup => supRegs
  | .sec => secRegs
  | .disc => discRegs
  | .dike => dikeRegs
  | .qeng => qengRegs
  | .fenceB => fenceBRegs
  | .jrn => jrnRegs
  | .det => detRegs
  | .ing => ingRegs
  | .csi => csiRegs
  | .eth => ethRegs
  | .ward => wardRegs
  | .fus => fusRegs
  | .proj => projRegs
  | .ego => egoRegs
  | .coll => collRegs
  | .planB => planBRegs
  | .kv => kvRegs
  | .xgs => xgsRegs
  | .xl => xlRegs
  | .pcie => pcieRegs
  | .isl => islRegs
  | .flt => fltRegs
  | .stest => stestRegs
  | .farm => farmRegs
  | .xslot => xslotRegs
  | .mc => mcRegs
  | .memg => memgRegs
  | .cd => cdRegs
  | .arr => arrRegs
  | .st => stRegs
  | .psr => psrRegs
  | .nor => norRegs

/-- Reset value of BLK_FAULT_ROUTE.forward: the events that the owning chapter forwards at reset
(R39, R108, R197, R227, R269, R308, R336, R365, R396, R430, R470, R496, R519, R543, R557). -/
def forwardReset : Blk → Nat
  | .gen => 0x0
  | .pwr => 0x0
  | .thm => 0xE
  | .sup => 0x7
  | .sec => 0x48
  | .disc => 0xE
  | .dike => 0xE
  | .qeng => 0x3C
  | .fenceB => 0x1
  | .jrn => 0x20
  | .det => 0x0
  | .ing => 0x4
  | .csi => 0x9
  | .eth => 0x1
  | .ward => 0x9
  | .fus => 0xCA
  | .proj => 0x0
  | .ego => 0xD
  | .coll => 0x12
  | .planB => 0x65
  | .kv => 0x21
  | .xgs => 0x7E
  | .xl => 0x6
  | .pcie => 0x2
  | .isl => 0x0
  | .flt => 0x0
  | .stest => 0x1A
  | .farm => 0x0
  | .xslot => 0x0
  | .mc => 0xEE
  | .memg => 0xE
  | .cd => 0x1A
  | .arr => 0xA4
  | .st => 0xC
  | .psr => 0x2
  | .nor => 0x2

/-- Reset value of BLK_FAULT_ROUTE: forward as the owning chapter states, forward_vote 1, island 0b11,
severity 0b10, for STEST 0b01 (R496), for FLT forward 0 (R470). -/
def faultRouteReset (b : Blk) : Nat :=
  forwardReset b + 0x10000 + 0x300000 + (if b = .stest then 0x1000000 else 0x2000000)

/-- The eight registers of the common header (02_register_pages, "The common header"). -/
def headerRegs (r : PageRun) (inst : Nat) : List RegDef :=
  [⟨0x000, 0, 1, [⟨31, 16, .ro, r.type⟩, ⟨15, 8, .ro, inst⟩, ⟨7, 0, .ro, 1⟩]⟩,
   ⟨0x004, 0, 1, [⟨8, 0, .rov, r.mask⟩]⟩,
   ⟨0x008, 0, 1, [⟨15, 0, .wo, 0⟩, ⟨16, 16, .ro, 0⟩, ⟨17, 17, .ro, 0⟩]⟩,
   ⟨0x00C, 0, 1, [⟨0, 0, .ro, 0⟩, ⟨1, 1, .ro, 1⟩, ⟨4, 4, .w1c, 0⟩, ⟨5, 5, .w1c, 0⟩]⟩,
   ⟨0x010, 0, 1, [⟨15, 0, .w1c, 0⟩, ⟨29, 29, .w1c, 0⟩, ⟨30, 30, .w1c, 0⟩, ⟨31, 31, .w1c, 0⟩]⟩,
   ⟨0x014, 0, 1, [⟨15, 0, .rw, 0⟩, ⟨31, 29, .rw, 0⟩]⟩,
   ⟨0x018, 0, 1, [⟨15, 0, .rc, 0⟩, ⟨24, 16, .ro, 0⟩, ⟨27, 26, .ro, 0⟩, ⟨28, 28, .ro, 0⟩]⟩,
   ⟨0x01C, 0, 1, [⟨15, 0, .rwv, forwardReset r.blk⟩, ⟨16, 16, .rwv, 1⟩, ⟨21, 20, .rwv, 3⟩,
     ⟨25, 24, .rwv, if r.blk = .stest then 1 else 2⟩]⟩]

/-- Does register row `d` hold offset `off`, and as which element? -/
def RegDef.at? (d : RegDef) (off : Nat) : Option Nat :=
  if d.count = 1 then (if off = d.off then some 0 else none)
  else if off < d.off then none
  else if (off - d.off) % d.stride = 0 ∧ (off - d.off) / d.stride < d.count then some ((off - d.off) / d.stride)
  else none

/-- The register row at an identity offset of page `p` (none: no register there, R57). -/
def regAt (p off : Nat) : Option RegDef :=
  match pageRun p with
  | none => none
  | some r =>
    if off < 0x20 then (headerRegs r (p - r.first)).find? fun d => (d.at? off).isSome
    else (blkRegs r.blk).find? fun d => (d.at? off).isSome

/-- The bits of a register whose access code satisfies `q`. -/
def RegDef.maskOf (d : RegDef) (q : FAcc → Bool) : Nat :=
  d.fields.foldl (fun m f => if q f.acc then m + (2 ^ (f.hi - f.lo + 1) - 1) * 2 ^ f.lo else m) 0

/-- The reset value of a register from its fields. -/
def RegDef.resetNat (d : RegDef) : Nat :=
  d.fields.foldl (fun m f => m + f.reset * 2 ^ f.lo) 0

end Sys2Proof.Machine
end

