-- ==== Sys2Proof/Machine/Fields.lean ====
section
/-! DEFINITION. The names of the register fields (F.REGISTER_field, with the instance, then the element of
a register row, then the element of a field row as arguments), of the events (Ev.PAGE_event: the bit of
BLK_IRQ_STATUS) and of the pages. -/

namespace Sys2Proof.Machine

/-- Where a register field lies: page, offset, bits [hi:lo]. -/
structure Fld where
  page : Nat
  off  : Nat
  hi   : Nat
  lo   : Nat
deriving DecidableEq, Repr

/-- Page of block GEN (R44). -/
abbrev pgGEN : Nat := 0
/-- Page of block PWR (R44). -/
abbrev pgPWR : Nat := 1
/-- Page of block THM (R44). -/
abbrev pgTHM : Nat := 2
/-- Page of block SUP (R44). -/
abbrev pgSUP : Nat := 3
/-- Page of block SEC (R44). -/
abbrev pgSEC : Nat := 4
/-- Page of block DISC (R44). -/
abbrev pgDISC : Nat := 5
/-- Page of block DIKE (R44). -/
abbrev pgDIKE : Nat := 6
/-- Page of block QENG (R44). -/
abbrev pgQENG : Nat := 7
/-- Page of block FENCE (R44). -/
abbrev pgFENCE : Nat := 8
/-- Page of block JRN (R44). -/
abbrev pgJRN : Nat := 9
/-- Page of block DET (R44). -/
abbrev pgDET : Nat := 10
/-- Page of block ING (R44). -/
abbrev pgING : Nat := 11
/-- Page of instance n of block CSI (R44). -/
abbrev pgCSI (n : Nat) : Nat := 12 + n
/-- Page of instance n of block ETH (R44). -/
abbrev pgETH (n : Nat) : Nat := 36 + n
/-- Page of block WARD (R44). -/
abbrev pgWARD : Nat := 40
/-- Page of block FUS (R44). -/
abbrev pgFUS : Nat := 41
/-- Page of block PROJ (R44). -/
abbrev pgPROJ : Nat := 42
/-- Page of block EGO (R44). -/
abbrev pgEGO : Nat := 43
/-- Page of block COLL (R44). -/
abbrev pgCOLL : Nat := 44
/-- Page of block PLAN (R44). -/
abbrev pgPLAN : Nat := 45
/-- Page of block KV (R44). -/
abbrev pgKV : Nat := 46
/-- Page of block XGS (R44). -/
abbrev pgXGS : Nat := 47
/-- Page of instance n of block XL (R44). -/
abbrev pgXL (n : Nat) : Nat := 48 + n
/-- Page of block PCIE (R44). -/
abbrev pgPCIE : Nat := 56
/-- Page of instance n of block ISL (R44). -/
abbrev pgISL (n : Nat) : Nat := 57 + n
/-- Page of block FLT (R44). -/
abbrev pgFLT : Nat := 59
/-- Page of block STEST (R44). -/
abbrev pgSTEST : Nat := 60
/-- Page of block FARM (R44). -/
abbrev pgFARM : Nat := 61
/-- Page of block XSLOT (R44). -/
abbrev pgXSLOT : Nat := 62
/-- Page of instance n of block MC (R44). -/
abbrev pgMC (n : Nat) : Nat := 64 + n
/-- Page of block MEMG (R44). -/
abbrev pgMEMG : Nat := 80
/-- Page of instance n of block CD (R44). -/
abbrev pgCD (n : Nat) : Nat := 96 + n
/-- Page of instance n of block ARR (R44). -/
abbrev pgARR (n : Nat) : Nat := 128 + n
/-- Page of instance n of block ST (R44). -/
abbrev pgST (n : Nat) : Nat := 224 + n
/-- Page of instance n of block PSR (R44). -/
abbrev pgPSR (n : Nat) : Nat := 228 + n
/-- Page of instance n of block NOR (R44). -/
abbrev pgNOR (n : Nat) : Nat := 230 + n

namespace F

abbrev BLK_LEVEL_key (p : Nat) : Fld := ⟨p, 0x08, 15, 0⟩
abbrev BLK_LEVEL_expert (p : Nat) : Fld := ⟨p, 0x08, 16, 16⟩
abbrev BLK_LEVEL_armed (p : Nat) : Fld := ⟨p, 0x08, 17, 17⟩
abbrev BLK_STATUS_ready (p : Nat) : Fld := ⟨p, 0x0C, 0, 0⟩
abbrev BLK_STATUS_in_reset (p : Nat) : Fld := ⟨p, 0x0C, 1, 1⟩
abbrev BLK_STATUS_level_reject (p : Nat) : Fld := ⟨p, 0x0C, 4, 4⟩
abbrev BLK_STATUS_width_err (p : Nat) : Fld := ⟨p, 0x0C, 5, 5⟩
abbrev BLK_IRQ_STATUS_event (p : Nat) : Fld := ⟨p, 0x10, 15, 0⟩
abbrev BLK_IRQ_STATUS_access_err (p : Nat) : Fld := ⟨p, 0x10, 29, 29⟩
abbrev BLK_IRQ_STATUS_shadow (p : Nat) : Fld := ⟨p, 0x10, 30, 30⟩
abbrev BLK_IRQ_STATUS_vote_repair (p : Nat) : Fld := ⟨p, 0x10, 31, 31⟩
abbrev BLK_IRQ_ENABLE_event (p : Nat) : Fld := ⟨p, 0x14, 15, 0⟩
abbrev BLK_IRQ_ENABLE_common (p : Nat) : Fld := ⟨p, 0x14, 31, 29⟩
abbrev BLK_VOTE_STATUS_repairs (p : Nat) : Fld := ⟨p, 0x18, 15, 0⟩
abbrev BLK_VOTE_STATUS_last_word (p : Nat) : Fld := ⟨p, 0x18, 24, 16⟩
abbrev BLK_VOTE_STATUS_last_copy (p : Nat) : Fld := ⟨p, 0x18, 27, 26⟩
abbrev BLK_VOTE_STATUS_by_scrub (p : Nat) : Fld := ⟨p, 0x18, 28, 28⟩
abbrev BLK_FAULT_ROUTE_forward (p : Nat) : Fld := ⟨p, 0x1C, 15, 0⟩
abbrev BLK_FAULT_ROUTE_forward_vote (p : Nat) : Fld := ⟨p, 0x1C, 16, 16⟩
abbrev BLK_FAULT_ROUTE_island (p : Nat) : Fld := ⟨p, 0x1C, 21, 20⟩
abbrev BLK_FAULT_ROUTE_severity (p : Nat) : Fld := ⟨p, 0x1C, 25, 24⟩
abbrev BLK_DECODE_mask (p : Nat) : Fld := ⟨p, 0x04, 8, 0⟩
abbrev DISC_CTRL_rescan : Fld := ⟨5, 0x020, 0, 0⟩
abbrev DISC_CTRL_rescan_port : Fld := ⟨5, 0x020, 10, 8⟩
abbrev DISC_STATUS_done : Fld := ⟨5, 0x024, 0, 0⟩
abbrev DISC_STATUS_mismatch : Fld := ⟨5, 0x024, 1, 1⟩
abbrev DISC_STATUS_mismatch_port : Fld := ⟨5, 0x024, 6, 4⟩
abbrev DISC_STATUS_present : Fld := ⟨5, 0x024, 22, 16⟩
abbrev DISC_TOPO_CLASS_class (k : Nat) : Fld := ⟨5, 0x040 + 0x10 * k, 31, 28⟩
abbrev DISC_TOPO_CLASS_stepping (k : Nat) : Fld := ⟨5, 0x040 + 0x10 * k, 27, 20⟩
abbrev DISC_TOPO_CLASS_port (k : Nat) : Fld := ⟨5, 0x040 + 0x10 * k, 18, 16⟩
abbrev DISC_TOPO_CLASS_stack (k : Nat) : Fld := ⟨5, 0x040 + 0x10 * k, 0, 0⟩
abbrev DISC_TOPO_UNITMAP_unit_map (k : Nat) : Fld := ⟨5, 0x04C + 0x10 * k, 25, 0⟩
abbrev DISC_ISLAND_CMP_sia_match : Fld := ⟨5, 0x0C0, 6, 0⟩
abbrev DISC_ISLAND_CMP_sib_match : Fld := ⟨5, 0x0C0, 14, 8⟩
abbrev DISC_TIMEOUT_answer_us : Fld := ⟨5, 0x100, 9, 0⟩
abbrev DISC_RETRY_count : Fld := ⟨5, 0x104, 2, 0⟩
abbrev DIKE_CTRL_enable : Fld := ⟨6, 0x020, 0, 0⟩
abbrev DIKE_CTRL_commit : Fld := ⟨6, 0x020, 1, 1⟩
abbrev DIKE_CTRL_readmit : Fld := ⟨6, 0x020, 2, 2⟩
abbrev DIKE_CTRL_fence : Fld := ⟨6, 0x020, 3, 3⟩
abbrev DIKE_STATUS_state : Fld := ⟨6, 0x024, 2, 0⟩
abbrev DIKE_STATUS_commit_err : Fld := ⟨6, 0x024, 3, 3⟩
abbrev DIKE_STATUS_key_slot : Fld := ⟨6, 0x024, 6, 4⟩
abbrev DIKE_STATUS_fault_count : Fld := ⟨6, 0x024, 9, 8⟩
abbrev DIKE_VIOL_cause : Fld := ⟨6, 0x028, 3, 0⟩
abbrev DIKE_VIOL_window : Fld := ⟨6, 0x028, 11, 8⟩
abbrev DIKE_WIN_SIZE_size_log2 (k : Nat) : Fld := ⟨6, 0x108 + 0x10 * k, 5, 0⟩
abbrev DIKE_WIN_SIZE_perm (k : Nat) : Fld := ⟨6, 0x108 + 0x10 * k, 9, 8⟩
abbrev DIKE_WIN_SIZE_valid (k : Nat) : Fld := ⟨6, 0x108 + 0x10 * k, 31, 31⟩
abbrev DIKE_WIN_RATE_rate (k : Nat) : Fld := ⟨6, 0x10C + 0x10 * k, 15, 0⟩
abbrev DIKE_WIN_RATE_burst (k : Nat) : Fld := ⟨6, 0x10C + 0x10 * k, 27, 16⟩
abbrev XSLOT_DOORBELL_h2x_ring : Fld := ⟨62, 0x020, 0, 0⟩
abbrev XSLOT_DOORBELL_x2h_ack : Fld := ⟨62, 0x020, 8, 8⟩
abbrev XSLOT_STATUS_h2x_pending : Fld := ⟨62, 0x024, 0, 0⟩
abbrev XSLOT_STATUS_x2h_valid : Fld := ⟨62, 0x024, 1, 1⟩
abbrev XSLOT_STATUS_open : Fld := ⟨62, 0x024, 2, 2⟩
abbrev CD_STATE_state (n : Nat) : Fld := ⟨96 + n, 0x020, 3, 0⟩
abbrev CD_STATE_stop_sia (n : Nat) : Fld := ⟨96 + n, 0x020, 8, 8⟩
abbrev CD_STATE_stop_sib (n : Nat) : Fld := ⟨96 + n, 0x020, 9, 9⟩
abbrev CD_STATE_fence_sia (n : Nat) : Fld := ⟨96 + n, 0x020, 10, 10⟩
abbrev CD_STATE_fence_sib (n : Nat) : Fld := ⟨96 + n, 0x020, 11, 11⟩
abbrev CD_STATE_held_cause (n : Nat) : Fld := ⟨96 + n, 0x020, 15, 12⟩
abbrev CD_CTRL_reset_req (n : Nat) : Fld := ⟨96 + n, 0x024, 0, 0⟩
abbrev CD_CTRL_clk_step (n : Nat) : Fld := ⟨96 + n, 0x024, 5, 4⟩
abbrev CD_ARR_SERVICE_in_service (n : Nat) : Fld := ⟨96 + n, 0x028, 23, 0⟩
abbrev CD_HOTSPOT_MAX_temp (n : Nat) : Fld := ⟨96 + n, 0x030, 15, 0⟩
abbrev CD_HOTSPOT_MAX_point (n : Nat) : Fld := ⟨96 + n, 0x030, 19, 16⟩
abbrev CD_HOTSPOT_MAX_valid_count (n : Nat) : Fld := ⟨96 + n, 0x030, 24, 20⟩
abbrev CD_POOL_ERR_corrected (n : Nat) : Fld := ⟨96 + n, 0x080, 15, 0⟩
abbrev CD_POOL_ERR_uncorrectable (n : Nat) : Fld := ⟨96 + n, 0x080, 31, 16⟩
abbrev CD_HINGE_ERR_corrected (n : Nat) : Fld := ⟨96 + n, 0x084, 11, 0⟩
abbrev CD_HINGE_ERR_replays (n : Nat) : Fld := ⟨96 + n, 0x084, 19, 12⟩
abbrev CD_HINGE_ERR_discarded (n : Nat) : Fld := ⟨96 + n, 0x084, 27, 20⟩
abbrev CD_GRID_MASK_exclude (n : Nat) : Fld := ⟨96 + n, 0x100, 15, 0⟩
abbrev CD_PHYS_MAP_enabled (n : Nat) : Fld := ⟨96 + n, 0x104, 25, 0⟩
abbrev CD_LOG2PHYS_phys (n : Nat) (k : Nat) (j : Nat) : Fld := ⟨96 + n, 0x110 + 0x4 * k, 4 + 5 * j, 0 + 5 * j⟩
abbrev ST_STATUS_step (n : Nat) : Fld := ⟨224 + n, 0x020, 1, 0⟩
abbrev ST_STATUS_in_service (n : Nat) : Fld := ⟨224 + n, 0x020, 2, 2⟩
abbrev ST_LAST_ERR_ADDR_word (n : Nat) : Fld := ⟨224 + n, 0x030, 27, 0⟩
abbrev ST_LAST_ERR_ADDR_byte_hi (n : Nat) : Fld := ⟨224 + n, 0x030, 31, 28⟩
abbrev GEN_DEVICE_family : Fld := ⟨0, 0x020, 31, 16⟩
abbrev GEN_DEVICE_member : Fld := ⟨0, 0x020, 15, 0⟩
abbrev GEN_GRADE_arrays : Fld := ⟨0, 0x024, 7, 0⟩
abbrev GEN_GRADE_per_die : Fld := ⟨0, 0x024, 12, 8⟩
abbrev GEN_STEPPING_hub : Fld := ⟨0, 0x028, 7, 0⟩
abbrev GEN_FW_REV_arith_rev : Fld := ⟨0, 0x034, 15, 0⟩
abbrev GEN_FW_REV_build : Fld := ⟨0, 0x034, 31, 16⟩
abbrev GEN_UNITMAP_physical (k : Nat) : Fld := ⟨0, 0x040 + 0x4 * k, 25, 0⟩
abbrev GEN_XS_populated : Fld := ⟨0, 0x050, 0, 0⟩
abbrev GEN_XS_admitted : Fld := ⟨0, 0x050, 1, 1⟩
abbrev GEN_RESET_CAUSE_cause : Fld := ⟨0, 0x054, 3, 0⟩
abbrev GEN_RESET_CAUSE_count : Fld := ⟨0, 0x054, 15, 8⟩
abbrev GEN_CTRL_module_reset_req : Fld := ⟨0, 0x060, 0, 0⟩
abbrev GEN_ACCESS_ERR_narrow : Fld := ⟨0, 0x080, 7, 0⟩
abbrev GEN_ACCESS_ERR_unmapped : Fld := ⟨0, 0x080, 15, 8⟩
abbrev GEN_ACCESS_ERR_last_page : Fld := ⟨0, 0x080, 23, 16⟩
abbrev GEN_HOST_EXPERT_allow : Fld := ⟨0, 0x100, 0, 0⟩
abbrev GEN_BLK_RESET_page : Fld := ⟨0, 0x104, 7, 0⟩
abbrev GEN_BLK_RESET_busy : Fld := ⟨0, 0x104, 29, 29⟩
abbrev GEN_BLK_RESET_refused : Fld := ⟨0, 0x104, 30, 30⟩
abbrev GEN_BLK_RESET_go : Fld := ⟨0, 0x104, 31, 31⟩
abbrev ARR_STATE_state (n : Nat) : Fld := ⟨128 + n, 0x020, 3, 0⟩
abbrev ARR_STATE_phys (n : Nat) : Fld := ⟨128 + n, 0x020, 12, 8⟩
abbrev ARR_STATE_die (n : Nat) : Fld := ⟨128 + n, 0x020, 17, 16⟩
abbrev ARR_STATE_exact (n : Nat) : Fld := ⟨128 + n, 0x020, 20, 20⟩
abbrev ARR_STATE_allow_n (n : Nat) : Fld := ⟨128 + n, 0x020, 21, 21⟩
abbrev ARR_STATE_nonrepro (n : Nat) : Fld := ⟨128 + n, 0x020, 22, 22⟩
abbrev ARR_CTRL_halt (n : Nat) : Fld := ⟨128 + n, 0x024, 0, 0⟩
abbrev ARR_CTRL_resume (n : Nat) : Fld := ⟨128 + n, 0x024, 1, 1⟩
abbrev ARR_CTRL_abort (n : Nat) : Fld := ⟨128 + n, 0x024, 2, 2⟩
abbrev ARR_JOB_QUEUE_queue (n : Nat) : Fld := ⟨128 + n, 0x028, 19, 0⟩
abbrev ARR_JOB_QUEUE_valid (n : Nat) : Fld := ⟨128 + n, 0x028, 31, 31⟩
abbrev ARR_PC_pc (n : Nat) : Fld := ⟨128 + n, 0x030, 11, 0⟩
abbrev ARR_CAPS_four_bit (n : Nat) : Fld := ⟨128 + n, 0x034, 0, 0⟩
abbrev ARR_CAPS_sixteen_bit (n : Nat) : Fld := ⟨128 + n, 0x034, 1, 1⟩
abbrev ARR_CAPS_fft (n : Nat) : Fld := ⟨128 + n, 0x034, 2, 2⟩
abbrev ARR_NUM_FLAGS_invalid (n : Nat) : Fld := ⟨128 + n, 0x038, 0, 0⟩
abbrev ARR_NUM_FLAGS_overflow (n : Nat) : Fld := ⟨128 + n, 0x038, 1, 1⟩
abbrev ARR_NUM_FLAGS_int_sat (n : Nat) : Fld := ⟨128 + n, 0x038, 2, 2⟩
abbrev ARR_NUM_FLAGS_nan_in (n : Nat) : Fld := ⟨128 + n, 0x038, 3, 3⟩
abbrev ARR_FAULT_cause (n : Nat) : Fld := ⟨128 + n, 0x03C, 3, 0⟩
abbrev ARR_FAULT_pc (n : Nat) : Fld := ⟨128 + n, 0x03C, 27, 16⟩
abbrev ARR_RED_granted (n : Nat) : Fld := ⟨128 + n, 0x040, 9, 0⟩
abbrev ARR_RED_reserved (n : Nat) : Fld := ⟨128 + n, 0x040, 25, 16⟩
abbrev ARR_LB_ERR_corrected (n : Nat) : Fld := ⟨128 + n, 0x048, 15, 0⟩
abbrev ARR_LB_ERR_uncorrectable (n : Nat) : Fld := ⟨128 + n, 0x048, 31, 16⟩
abbrev ARR_LB_LAST_ERR_word (n : Nat) : Fld := ⟨128 + n, 0x04C, 14, 0⟩
abbrev ARR_LB_LAST_ERR_byte (n : Nat) : Fld := ⟨128 + n, 0x04C, 20, 15⟩
abbrev ARR_CAP_DISABLE_no_four_bit (n : Nat) : Fld := ⟨128 + n, 0x100, 0, 0⟩
abbrev ARR_CAP_DISABLE_no_sixteen_bit (n : Nat) : Fld := ⟨128 + n, 0x100, 1, 1⟩
abbrev ARR_CAP_DISABLE_no_fft (n : Nat) : Fld := ⟨128 + n, 0x100, 2, 2⟩
abbrev ARR_INJECT_word (n : Nat) : Fld := ⟨128 + n, 0x104, 14, 0⟩
abbrev ARR_INJECT_one_byte (n : Nat) : Fld := ⟨128 + n, 0x104, 16, 16⟩
abbrev ARR_INJECT_two_bytes (n : Nat) : Fld := ⟨128 + n, 0x104, 17, 17⟩
abbrev KV_CTRL_enable : Fld := ⟨46, 0x020, 0, 0⟩
abbrev KV_CTRL_format : Fld := ⟨46, 0x020, 1, 1⟩
abbrev KV_CTRL_resume : Fld := ⟨46, 0x020, 2, 2⟩
abbrev KV_STATUS_state : Fld := ⟨46, 0x024, 1, 0⟩
abbrev KV_STATUS_cfg_err : Fld := ⟨46, 0x024, 2, 2⟩
abbrev KV_STATUS_cfg_pool : Fld := ⟨46, 0x024, 10, 8⟩
abbrev KV_FAULT_cause : Fld := ⟨46, 0x028, 3, 0⟩
abbrev KV_FAULT_block : Fld := ⟨46, 0x028, 31, 31⟩
abbrev KV_FAULT_PAGE_page : Fld := ⟨46, 0x02C, 21, 0⟩
abbrev KV_FAULT_SEQ_seq : Fld := ⟨46, 0x030, 15, 0⟩
abbrev KV_FAULT_SEQ_layer : Fld := ⟨46, 0x030, 23, 16⟩
abbrev KV_FAULT_QUEUE_queue : Fld := ⟨46, 0x034, 19, 0⟩
abbrev KV_FREE_pages (k : Nat) : Fld := ⟨46, 0x040 + 0x4 * k, 22, 0⟩
abbrev KV_DRAINING_pages : Fld := ⟨46, 0x060, 22, 0⟩
abbrev KV_STATE_ERR_corrected : Fld := ⟨46, 0x070, 15, 0⟩
abbrev KV_STATE_ERR_uncorrectable : Fld := ⟨46, 0x070, 31, 16⟩
abbrev KV_LOW_WATER_pages : Fld := ⟨46, 0x074, 22, 0⟩
abbrev KV_POOL_CFG_latent (k : Nat) : Fld := ⟨46, 0x108 + 0x20 * k, 10, 0⟩
abbrev KV_POOL_CFG_format (k : Nat) : Fld := ⟨46, 0x108 + 0x20 * k, 13, 12⟩
abbrev KV_POOL_CFG_valid (k : Nat) : Fld := ⟨46, 0x108 + 0x20 * k, 31, 31⟩
abbrev KV_POOL_FIRST_page (k : Nat) : Fld := ⟨46, 0x10C + 0x20 * k, 21, 0⟩
abbrev KV_POOL_COUNT_pages (k : Nat) : Fld := ⟨46, 0x110 + 0x20 * k, 22, 0⟩
abbrev ING_CTRL_enable : Fld := ⟨11, 0x020, 0, 0⟩
abbrev ING_STATUS_cfg_err : Fld := ⟨11, 0x024, 0, 0⟩
abbrev ING_STATUS_cfg_stream : Fld := ⟨11, 0x024, 14, 8⟩
abbrev ING_STATUS_replay : Fld := ⟨11, 0x024, 16, 16⟩
abbrev ING_STREAM_EN_enable (k : Nat) : Fld := ⟨11, 0x030 + 0x4 * k, 31, 0⟩
abbrev ING_SEL_stream : Fld := ⟨11, 0x040, 6, 0⟩
abbrev ING_SEL_HEALTH_score : Fld := ⟨11, 0x048, 7, 0⟩
abbrev ING_SEL_HEALTH_cause : Fld := ⟨11, 0x048, 15, 8⟩
abbrev CSI_CTRL_enable (n : Nat) : Fld := ⟨12 + n, 0x020, 0, 0⟩
abbrev CSI_CTRL_phy (n : Nat) : Fld := ⟨12 + n, 0x020, 1, 1⟩
abbrev CSI_CTRL_lanes (n : Nat) : Fld := ⟨12 + n, 0x020, 4, 2⟩
abbrev CSI_CTRL_deskew (n : Nat) : Fld := ⟨12 + n, 0x020, 8, 8⟩
abbrev CSI_RATE_rate (n : Nat) : Fld := ⟨12 + n, 0x024, 12, 0⟩
abbrev CSI_VCMAP_slot_en (n : Nat) : Fld := ⟨12 + n, 0x028, 31, 28⟩
abbrev CSI_VCMAP_vc (n : Nat) (j : Nat) : Fld := ⟨12 + n, 0x028, 3 + 8 * j, 0 + 8 * j⟩
abbrev CSI_STATUS_link (n : Nat) : Fld := ⟨12 + n, 0x02C, 0, 0⟩
abbrev CSI_STATUS_deskewed (n : Nat) : Fld := ⟨12 + n, 0x02C, 1, 1⟩
abbrev CSI_ERR_hdr_corrected (n : Nat) : Fld := ⟨12 + n, 0x030, 7, 0⟩
abbrev CSI_ERR_hdr_uncorr (n : Nat) : Fld := ⟨12 + n, 0x030, 15, 8⟩
abbrev CSI_ERR_crc (n : Nat) : Fld := ⟨12 + n, 0x030, 23, 16⟩
abbrev CSI_ERR_truncated (n : Nat) : Fld := ⟨12 + n, 0x030, 31, 24⟩
abbrev CSI_EMB_LINE_check (n : Nat) : Fld := ⟨12 + n, 0x050, 19, 16⟩
abbrev CSI_EMB_LINE_line (n : Nat) (j : Nat) : Fld := ⟨12 + n, 0x050, 3 + 4 * j, 0 + 4 * j⟩
abbrev CSI_EMB_FAIL_fail (n : Nat) (j : Nat) : Fld := ⟨12 + n, 0x054, 7 + 8 * j, 0 + 8 * j⟩
abbrev CSI_PHY_TUNE_eq (n : Nat) : Fld := ⟨12 + n, 0x100, 3, 0⟩
abbrev CSI_PHY_TUNE_hs_term (n : Nat) : Fld := ⟨12 + n, 0x100, 8, 8⟩
abbrev ETH_CTRL_enable (n : Nat) : Fld := ⟨36 + n, 0x020, 0, 0⟩
abbrev ETH_CTRL_fec (n : Nat) : Fld := ⟨36 + n, 0x020, 2, 1⟩
abbrev ETH_STATUS_block_lock (n : Nat) : Fld := ⟨36 + n, 0x024, 0, 0⟩
abbrev ETH_STATUS_fec_lock (n : Nat) : Fld := ⟨36 + n, 0x024, 1, 1⟩
abbrev ETH_STATUS_link (n : Nat) : Fld := ⟨36 + n, 0x024, 2, 2⟩
abbrev ETH_MAC_HI_mac (n : Nat) : Fld := ⟨36 + n, 0x02C, 15, 0⟩
abbrev ETH_MAC_HI_promisc (n : Nat) : Fld := ⟨36 + n, 0x02C, 16, 16⟩
abbrev ETH_RX_ERR_fcs (n : Nat) : Fld := ⟨36 + n, 0x034, 15, 0⟩
abbrev ETH_RX_ERR_unmatched (n : Nat) : Fld := ⟨36 + n, 0x034, 31, 16⟩
abbrev ETH_FLOW_vlan (n : Nat) (k : Nat) : Fld := ⟨36 + n, 0x040 + 0x8 * k, 11, 0⟩
abbrev ETH_FLOW_vlan_en (n : Nat) (k : Nat) : Fld := ⟨36 + n, 0x040 + 0x8 * k, 12, 12⟩
abbrev ETH_FLOW_valid (n : Nat) (k : Nat) : Fld := ⟨36 + n, 0x040 + 0x8 * k, 31, 31⟩
abbrev WARD_CTRL_enable : Fld := ⟨40, 0x020, 0, 0⟩
abbrev WARD_STATUS_last_stream : Fld := ⟨40, 0x024, 6, 0⟩
abbrev WARD_STATUS_last_stage : Fld := ⟨40, 0x024, 9, 8⟩
abbrev WARD_BUDGET_us (k : Nat) : Fld := ⟨40, 0x040 + 0x4 * k, 15, 0⟩
abbrev WARD_SEL_stream : Fld := ⟨40, 0x050, 6, 0⟩
abbrev WARD_SEL_STATE_deferrals : Fld := ⟨40, 0x054, 1, 0⟩
abbrev WARD_SEL_STATE_last_pass : Fld := ⟨40, 0x054, 2, 2⟩
abbrev WARD_PERIOD_frames : Fld := ⟨40, 0x100, 6, 0⟩
abbrev WARD_HEALTH_DELTA_ward_fail : Fld := ⟨40, 0x104, 7, 0⟩
abbrev WARD_HEALTH_DELTA_emb_fail : Fld := ⟨40, 0x104, 15, 8⟩
abbrev WARD_HEALTH_DELTA_stale : Fld := ⟨40, 0x104, 23, 16⟩
abbrev WARD_HEALTH_DELTA_ward_pass : Fld := ⟨40, 0x104, 31, 24⟩
abbrev WARD_HEALTH_DELTA2_bad_item : Fld := ⟨40, 0x108, 7, 0⟩
abbrev WARD_HEALTH_DELTA2_good_item : Fld := ⟨40, 0x108, 15, 8⟩
abbrev WARD_PREEMPT_MAX_us : Fld := ⟨40, 0x10C, 7, 0⟩
abbrev EGO_CTRL_enable : Fld := ⟨43, 0x020, 0, 0⟩
abbrev EGO_STATUS_state : Fld := ⟨43, 0x024, 1, 0⟩
abbrev EGO_STATUS_src : Fld := ⟨43, 0x024, 2, 2⟩
abbrev EGO_SKIPPED_ts_bad : Fld := ⟨43, 0x02C, 15, 0⟩
abbrev EGO_SKIPPED_gaps : Fld := ⟨43, 0x02C, 31, 16⟩
abbrev EGO_IMU_LAYOUT_gyro_off : Fld := ⟨43, 0x108, 7, 0⟩
abbrev EGO_IMU_LAYOUT_acc_off : Fld := ⟨43, 0x108, 15, 8⟩
abbrev EGO_IMU_LAYOUT_wide : Fld := ⟨43, 0x108, 16, 16⟩
abbrev EGO_IMU_LAYOUT_big : Fld := ⟨43, 0x108, 17, 17⟩
abbrev EGO_WHEEL_SRC_stream : Fld := ⟨43, 0x140, 1, 0⟩
abbrev EGO_WHEEL_SRC_offset : Fld := ⟨43, 0x140, 15, 8⟩
abbrev EGO_WHEEL_SRC_valid : Fld := ⟨43, 0x140, 31, 31⟩
abbrev EGO_LIMITS_max_dt_us : Fld := ⟨43, 0x148, 15, 0⟩
abbrev EGO_LIMITS_extrap_us : Fld := ⟨43, 0x148, 31, 16⟩
abbrev PROJ_CTRL_enable : Fld := ⟨42, 0x020, 0, 0⟩
abbrev PROJ_STATUS_state : Fld := ⟨42, 0x024, 1, 0⟩
abbrev PROJ_STATUS_cal_err : Fld := ⟨42, 0x024, 2, 2⟩
abbrev PROJ_STATUS_cal_entry : Fld := ⟨42, 0x024, 13, 8⟩
abbrev FUS_CTRL_enable : Fld := ⟨41, 0x020, 0, 0⟩
abbrev FUS_CTRL_resume : Fld := ⟨41, 0x020, 1, 1⟩
abbrev FUS_STATUS_state : Fld := ⟨41, 0x024, 1, 0⟩
abbrev FUS_STATUS_pending : Fld := ⟨41, 0x024, 4, 2⟩
abbrev FUS_LATE_folded : Fld := ⟨41, 0x02C, 15, 0⟩
abbrev FUS_LATE_dropped : Fld := ⟨41, 0x02C, 31, 16⟩
abbrev FUS_FAULT_cause : Fld := ⟨41, 0x038, 3, 0⟩
abbrev FUS_FAULT_context : Fld := ⟨41, 0x038, 21, 4⟩
abbrev FUS_SENSOR_STATE_weight : Fld := ⟨41, 0x044, 7, 0⟩
abbrev FUS_SENSOR_STATE_health_masked : Fld := ⟨41, 0x044, 8, 8⟩
abbrev FUS_SENSOR_STATE_dispute_masked : Fld := ⟨41, 0x044, 9, 9⟩
abbrev FUS_SENSOR_STATE_timed_out : Fld := ⟨41, 0x044, 10, 10⟩
abbrev FUS_SENSOR_STATE_lose_run : Fld := ⟨41, 0x044, 15, 12⟩
abbrev FUS_GRID_CFG_width : Fld := ⟨41, 0x120, 10, 0⟩
abbrev FUS_GRID_CFG_height : Fld := ⟨41, 0x120, 26, 16⟩
abbrev FUS_GRID_CELL_cell_cm : Fld := ⟨41, 0x124, 6, 0⟩
abbrev FUS_GRID_CELL_origin_col : Fld := ⟨41, 0x124, 18, 8⟩
abbrev FUS_GRID_CELL_origin_row : Fld := ⟨41, 0x124, 30, 20⟩
abbrev FUS_HEALTH_CFG_mask_threshold : Fld := ⟨41, 0x128, 7, 0⟩
abbrev FUS_HEALTH_CFG_full_health : Fld := ⟨41, 0x128, 15, 8⟩
abbrev FUS_CONTRA_contra_min : Fld := ⟨41, 0x12C, 6, 0⟩
abbrev FUS_CONTRA_contra_threshold : Fld := ⟨41, 0x12C, 14, 8⟩
abbrev FUS_CONTRA_dispute_shift : Fld := ⟨41, 0x12C, 17, 16⟩
abbrev FUS_CONTRA_dispute_clear : Fld := ⟨41, 0x12C, 21, 20⟩
abbrev FUS_DISPUTE_MASK_ratio : Fld := ⟨41, 0x130, 7, 0⟩
abbrev FUS_DISPUTE_MASK_lose_delta : Fld := ⟨41, 0x130, 15, 8⟩
abbrev FUS_TRACK_CFG_contra_cm : Fld := ⟨41, 0x134, 15, 0⟩
abbrev FUS_TRACK_CFG_drop_instants : Fld := ⟨41, 0x134, 23, 16⟩
abbrev FUS_TRACK_CFG_late_weight : Fld := ⟨41, 0x134, 31, 24⟩
abbrev COLL_CTRL_enable : Fld := ⟨44, 0x020, 0, 0⟩
abbrev COLL_STATUS_state : Fld := ⟨44, 0x024, 1, 0⟩
abbrev COLL_STATUS_current : Fld := ⟨44, 0x024, 2, 2⟩
abbrev COLL_STATUS_in_use : Fld := ⟨44, 0x024, 4, 3⟩
abbrev COLL_STATUS_cfg_err : Fld := ⟨44, 0x024, 5, 5⟩
abbrev COLL_EPOCH_epoch : Fld := ⟨44, 0x028, 15, 0⟩
abbrev COLL_ERR_cause : Fld := ⟨44, 0x02C, 3, 0⟩
abbrev COLL_ERR_buffer : Fld := ⟨44, 0x02C, 4, 4⟩
abbrev COLL_MARGIN_mm : Fld := ⟨44, 0x118, 9, 0⟩
abbrev PLAN_CTRL_enable : Fld := ⟨45, 0x020, 0, 0⟩
abbrev PLAN_CTRL_resume : Fld := ⟨45, 0x020, 1, 1⟩
abbrev PLAN_STATUS_state : Fld := ⟨45, 0x024, 1, 0⟩
abbrev PLAN_STATUS_halves : Fld := ⟨45, 0x024, 3, 2⟩
abbrev PLAN_STATUS_in_flight : Fld := ⟨45, 0x024, 13, 8⟩
abbrev PLAN_ERR_cause : Fld := ⟨45, 0x028, 3, 0⟩
abbrev PLAN_ERR_index : Fld := ⟨45, 0x028, 21, 8⟩
abbrev PLAN_RM_STATE_edges : Fld := ⟨45, 0x044, 14, 0⟩
abbrev PLAN_RM_STATE_layers : Fld := ⟨45, 0x044, 22, 16⟩
abbrev PLAN_RM_STATE_loaded : Fld := ⟨45, 0x044, 31, 31⟩
abbrev PLAN_LEAF_BUDGET_leaves : Fld := ⟨45, 0x110, 10, 0⟩
abbrev JRN_CTRL_mode : Fld := ⟨9, 0x020, 1, 0⟩
abbrev JRN_CTRL_wrap : Fld := ⟨9, 0x020, 2, 2⟩
abbrev JRN_CTRL_tile_level : Fld := ⟨9, 0x020, 3, 3⟩
abbrev JRN_CTRL_segment : Fld := ⟨9, 0x020, 4, 4⟩
abbrev JRN_CTRL_pace : Fld := ⟨9, 0x020, 5, 5⟩
abbrev JRN_CTRL_stop : Fld := ⟨9, 0x020, 6, 6⟩
abbrev JRN_CTRL_domain : Fld := ⟨9, 0x020, 7, 7⟩
abbrev JRN_STATUS_state : Fld := ⟨9, 0x024, 2, 0⟩
abbrev JRN_STATUS_stop_cause : Fld := ⟨9, 0x024, 7, 4⟩
abbrev JRN_STATUS_overrun : Fld := ⟨9, 0x024, 8, 8⟩
abbrev JRN_STATUS_gap : Fld := ⟨9, 0x024, 9, 9⟩
abbrev JRN_SIZE_log2 : Fld := ⟨9, 0x108, 5, 0⟩
abbrev JRN_CAPWIN_SIZE_size_log2 (k : Nat) : Fld := ⟨9, 0x148 + 0x10 * k, 5, 0⟩
abbrev JRN_CAPWIN_SIZE_valid (k : Nat) : Fld := ⟨9, 0x148 + 0x10 * k, 31, 31⟩
abbrev JRN_PACE_ratio : Fld := ⟨9, 0x200, 15, 0⟩
abbrev DET_CTRL_compare : Fld := ⟨10, 0x020, 0, 0⟩
abbrev DET_CTRL_halt : Fld := ⟨10, 0x020, 1, 1⟩
abbrev DET_CTRL_force_exact : Fld := ⟨10, 0x020, 2, 2⟩
abbrev DET_STATUS_state : Fld := ⟨10, 0x024, 1, 0⟩
abbrev DET_STATUS_log_count : Fld := ⟨10, 0x024, 12, 8⟩
abbrev DET_PENDING_recorded : Fld := ⟨10, 0x034, 12, 0⟩
abbrev DET_PENDING_replayed : Fld := ⟨10, 0x034, 28, 16⟩
abbrev DET_LOG_JOB_queue : Fld := ⟨10, 0x044, 19, 0⟩
abbrev DET_LOG_JOB_valid : Fld := ⟨10, 0x044, 31, 31⟩
abbrev DET_LOG_WHERE_slot : Fld := ⟨10, 0x04C, 6, 0⟩
abbrev DET_LOG_WHERE_tile : Fld := ⟨10, 0x04C, 19, 8⟩
abbrev DET_LOG_WHERE_tile_known : Fld := ⟨10, 0x04C, 20, 20⟩
abbrev DET_LOG_ARRAY_run_logical : Fld := ⟨10, 0x050, 4, 0⟩
abbrev DET_LOG_ARRAY_run_die : Fld := ⟨10, 0x050, 9, 8⟩
abbrev DET_LOG_ARRAY_run_phys : Fld := ⟨10, 0x050, 14, 10⟩
abbrev DET_LOG_ARRAY_rec_logical : Fld := ⟨10, 0x050, 20, 16⟩
abbrev DET_LOG_ARRAY_rec_die : Fld := ⟨10, 0x050, 25, 24⟩
abbrev DET_LOG_ARRAY_rec_phys : Fld := ⟨10, 0x050, 30, 26⟩
abbrev QENG_CTRL_enable : Fld := ⟨7, 0x020, 0, 0⟩
abbrev QENG_STATUS_state : Fld := ⟨7, 0x024, 1, 0⟩
abbrev QENG_STATUS_cfg_err : Fld := ⟨7, 0x024, 2, 2⟩
abbrev QENG_STATUS_released : Fld := ⟨7, 0x024, 15, 8⟩
abbrev QENG_Q_CMD_queue : Fld := ⟨7, 0x028, 19, 0⟩
abbrev QENG_Q_CMD_op : Fld := ⟨7, 0x028, 25, 24⟩
abbrev QENG_Q_CMD_go : Fld := ⟨7, 0x028, 31, 31⟩
abbrev QENG_Q_RESULT_busy : Fld := ⟨7, 0x02C, 0, 0⟩
abbrev QENG_Q_RESULT_refused : Fld := ⟨7, 0x02C, 1, 1⟩
abbrev QENG_Q_RESULT_cause : Fld := ⟨7, 0x02C, 5, 2⟩
abbrev QENG_QINFO_in_flight : Fld := ⟨7, 0x03C, 15, 0⟩
abbrev QENG_QINFO_kind : Fld := ⟨7, 0x03C, 18, 16⟩
abbrev QENG_QINFO_enabled : Fld := ⟨7, 0x03C, 20, 20⟩
abbrev QENG_QINFO_faulted : Fld := ⟨7, 0x03C, 21, 21⟩
abbrev QENG_QINFO_waiting : Fld := ⟨7, 0x03C, 22, 22⟩
abbrev QENG_ABORT_queue : Fld := ⟨7, 0x040, 19, 0⟩
abbrev QENG_ABORT_go : Fld := ⟨7, 0x040, 31, 31⟩
abbrev QENG_DB_ERR_ignored : Fld := ⟨7, 0x048, 15, 0⟩
abbrev QENG_DB_ERR_bad_index : Fld := ⟨7, 0x048, 31, 16⟩
abbrev FENCE_INC_object : Fld := ⟨8, 0x020, 11, 0⟩
abbrev FENCE_INC_inc : Fld := ⟨8, 0x020, 31, 16⟩
abbrev FENCE_ERR_object : Fld := ⟨8, 0x030, 11, 0⟩
abbrev FENCE_ERR_any : Fld := ⟨8, 0x030, 31, 31⟩
abbrev FENCE_SET_CMD_object : Fld := ⟨8, 0x108, 11, 0⟩
abbrev FENCE_SET_CMD_go : Fld := ⟨8, 0x108, 31, 31⟩
abbrev MC_CTRL_flush (n : Nat) : Fld := ⟨64 + n, 0x020, 0, 0⟩
abbrev MC_CTRL_hold_spill (n : Nat) : Fld := ⟨64 + n, 0x020, 1, 1⟩
abbrev MC_CTRL_scrub_en (n : Nat) : Fld := ⟨64 + n, 0x020, 2, 2⟩
abbrev MC_CTRL_retrain (n : Nat) : Fld := ⟨64 + n, 0x020, 3, 3⟩
abbrev MC_STATUS_mode (n : Nat) : Fld := ⟨64 + n, 0x024, 1, 0⟩
abbrev MC_STATUS_spill_cause (n : Nat) : Fld := ⟨64 + n, 0x024, 5, 2⟩
abbrev MC_STATUS_ch_fail (n : Nat) : Fld := ⟨64 + n, 0x024, 7, 6⟩
abbrev MC_STATUS_retired (n : Nat) : Fld := ⟨64 + n, 0x024, 9, 8⟩
abbrev MC_STATUS_flushing (n : Nat) : Fld := ⟨64 + n, 0x024, 10, 10⟩
abbrev MC_WQ_entries (n : Nat) : Fld := ⟨64 + n, 0x028, 6, 0⟩
abbrev MC_WQ_peak (n : Nat) : Fld := ⟨64 + n, 0x028, 14, 8⟩
abbrev MC_WQ_drains (n : Nat) : Fld := ⟨64 + n, 0x028, 31, 16⟩
abbrev MC_TEMP_temp (n : Nat) : Fld := ⟨64 + n, 0x02C, 7, 0⟩
abbrev MC_TEMP_trained_at (n : Nat) : Fld := ⟨64 + n, 0x02C, 15, 8⟩
abbrev MC_TEMP_rate (n : Nat) : Fld := ⟨64 + n, 0x02C, 18, 16⟩
abbrev MC_LAST_ERR_LOC_ch (n : Nat) : Fld := ⟨64 + n, 0x038, 0, 0⟩
abbrev MC_LAST_ERR_LOC_bank (n : Nat) : Fld := ⟨64 + n, 0x038, 4, 1⟩
abbrev MC_LAST_ERR_LOC_row (n : Nat) : Fld := ⟨64 + n, 0x038, 21, 5⟩
abbrev MC_LAST_ERR_LOC_unit (n : Nat) : Fld := ⟨64 + n, 0x038, 26, 22⟩
abbrev MC_LAST_ERR_LOC_word (n : Nat) : Fld := ⟨64 + n, 0x038, 27, 27⟩
abbrev MC_LAST_ERR_KIND_byte (n : Nat) : Fld := ⟨64 + n, 0x03C, 5, 0⟩
abbrev MC_LAST_ERR_KIND_by_scrub (n : Nat) : Fld := ⟨64 + n, 0x03C, 8, 8⟩
abbrev MC_LAST_ERR_KIND_check_cache (n : Nat) : Fld := ⟨64 + n, 0x03C, 9, 9⟩
abbrev MC_RETRAIN_count (n : Nat) : Fld := ⟨64 + n, 0x044, 15, 0⟩
abbrev MC_RETRAIN_max_us (n : Nat) : Fld := ⟨64 + n, 0x044, 31, 16⟩
abbrev MC_SCRUB_POS_granule (n : Nat) : Fld := ⟨64 + n, 0x050, 22, 0⟩
abbrev MC_SCRUB_POS_passes (n : Nat) : Fld := ⟨64 + n, 0x050, 31, 24⟩
abbrev MC_SPILL_high (n : Nat) : Fld := ⟨64 + n, 0x100, 6, 0⟩
abbrev MC_SPILL_low (n : Nat) : Fld := ⟨64 + n, 0x100, 14, 8⟩
abbrev MC_REMAP_SEL_ch (n : Nat) : Fld := ⟨64 + n, 0x110, 0, 0⟩
abbrev MC_REMAP_SEL_entry (n : Nat) : Fld := ⟨64 + n, 0x110, 13, 8⟩
abbrev MC_REMAP_ENTRY_row (n : Nat) : Fld := ⟨64 + n, 0x114, 16, 0⟩
abbrev MC_REMAP_ENTRY_bank (n : Nat) : Fld := ⟨64 + n, 0x114, 20, 17⟩
abbrev MC_REMAP_ENTRY_spare (n : Nat) : Fld := ⟨64 + n, 0x114, 27, 21⟩
abbrev MC_REMAP_ENTRY_valid (n : Nat) : Fld := ⟨64 + n, 0x114, 31, 31⟩
abbrev MC_INJECT_ADDR_unit (n : Nat) : Fld := ⟨64 + n, 0x118, 25, 0⟩
abbrev MC_INJECT_ADDR_ch (n : Nat) : Fld := ⟨64 + n, 0x118, 31, 31⟩
abbrev MC_INJECT_one_byte (n : Nat) : Fld := ⟨64 + n, 0x11C, 0, 0⟩
abbrev MC_INJECT_two_bytes (n : Nat) : Fld := ⟨64 + n, 0x11C, 1, 1⟩
abbrev MEMG_CTRL_train : Fld := ⟨80, 0x020, 0, 0⟩
abbrev MEMG_CTRL_normal : Fld := ⟨80, 0x020, 1, 1⟩
abbrev MEMG_CTRL_park_prep : Fld := ⟨80, 0x020, 2, 2⟩
abbrev MEMG_CTRL_park_restore : Fld := ⟨80, 0x020, 3, 3⟩
abbrev MEMG_STATUS_state : Fld := ⟨80, 0x024, 2, 0⟩
abbrev MEMG_STATUS_park_exit : Fld := ⟨80, 0x024, 3, 3⟩
abbrev MEMG_STATUS_ready_segments : Fld := ⟨80, 0x024, 15, 8⟩
abbrev MEMG_TRAIN_done : Fld := ⟨80, 0x028, 15, 0⟩
abbrev MEMG_TRAIN_failed : Fld := ⟨80, 0x028, 31, 16⟩
abbrev MEMG_RETIRE_channel : Fld := ⟨80, 0x030, 4, 0⟩
abbrev MEMG_RETIRE_restore : Fld := ⟨80, 0x030, 30, 30⟩
abbrev MEMG_RETIRE_go : Fld := ⟨80, 0x030, 31, 31⟩
abbrev MEMG_RETIRE_STATE_channel : Fld := ⟨80, 0x034, 4, 0⟩
abbrev MEMG_RETIRE_STATE_retired : Fld := ⟨80, 0x034, 5, 5⟩
abbrev MEMG_RETIRE_STATE_copying : Fld := ⟨80, 0x034, 6, 6⟩
abbrev MEMG_RETIRE_STATE_refused : Fld := ⟨80, 0x034, 7, 7⟩
abbrev MEMG_RETIRE_STATE_progress : Fld := ⟨80, 0x034, 30, 8⟩
abbrev MEMG_UNMAPPED_count : Fld := ⟨80, 0x038, 15, 0⟩
abbrev MEMG_UNMAPPED_spare_hits : Fld := ⟨80, 0x038, 31, 16⟩
abbrev MEMG_TEST_CMD_pattern : Fld := ⟨80, 0x10C, 1, 0⟩
abbrev MEMG_TEST_CMD_go : Fld := ⟨80, 0x10C, 31, 31⟩
abbrev PSR_STATUS_state (n : Nat) : Fld := ⟨228 + n, 0x020, 1, 0⟩
abbrev PSR_STATUS_half_sleep (n : Nat) : Fld := ⟨228 + n, 0x020, 2, 2⟩
abbrev PSR_RD_CMD_go (n : Nat) : Fld := ⟨228 + n, 0x02C, 0, 0⟩
abbrev PSR_RD_CMD_busy (n : Nat) : Fld := ⟨228 + n, 0x02C, 1, 1⟩
abbrev PSR_RD_CMD_poisoned (n : Nat) : Fld := ⟨228 + n, 0x02C, 2, 2⟩
abbrev PSR_RD_CMD_refused (n : Nat) : Fld := ⟨228 + n, 0x02C, 3, 3⟩
abbrev PSR_FR_HEAD_unit (n : Nat) : Fld := ⟨228 + n, 0x030, 20, 0⟩
abbrev PSR_FR_HEAD_wraps (n : Nat) : Fld := ⟨228 + n, 0x030, 31, 24⟩
abbrev NOR_STATUS_state (n : Nat) : Fld := ⟨230 + n, 0x020, 1, 0⟩
abbrev NOR_STATUS_prog_bank (n : Nat) : Fld := ⟨230 + n, 0x020, 2, 2⟩
abbrev PCIE_STATUS_link_up : Fld := ⟨56, 0x020, 0, 0⟩
abbrev PCIE_STATUS_speed : Fld := ⟨56, 0x020, 3, 1⟩
abbrev PCIE_STATUS_width : Fld := ⟨56, 0x020, 8, 4⟩
abbrev PCIE_STATUS_flit : Fld := ⟨56, 0x020, 9, 9⟩
abbrev PCIE_STATUS_bus_master : Fld := ⟨56, 0x020, 10, 10⟩
abbrev PCIE_STATUS_d3 : Fld := ⟨56, 0x020, 11, 11⟩
abbrev PCIE_ERR_poisoned_in : Fld := ⟨56, 0x024, 7, 0⟩
abbrev PCIE_ERR_poisoned_out : Fld := ⟨56, 0x024, 15, 8⟩
abbrev PCIE_ERR_ur_ca : Fld := ⟨56, 0x024, 23, 16⟩
abbrev PCIE_ERR_link_down : Fld := ⟨56, 0x024, 31, 24⟩
abbrev PCIE_CQ_VEC_vec (k : Nat) (j : Nat) : Fld := ⟨56, 0x040 + 0x4 * k, 4 + 8 * j, 0 + 8 * j⟩
abbrev PCIE_AP_base (k : Nat) : Fld := ⟨56, 0x100 + 0x4 * k, 15, 0⟩
abbrev PCIE_AP_perm (k : Nat) : Fld := ⟨56, 0x100 + 0x4 * k, 25, 24⟩
abbrev PCIE_AP_valid (k : Nat) : Fld := ⟨56, 0x100 + 0x4 * k, 31, 31⟩
abbrev PCIE_CTRL_retrain : Fld := ⟨56, 0x160, 0, 0⟩
abbrev PCIE_CTRL_l1_allow : Fld := ⟨56, 0x160, 1, 1⟩
abbrev XGS_CTRL_enable : Fld := ⟨47, 0x020, 0, 0⟩
abbrev XGS_CTRL_rediscover : Fld := ⟨47, 0x020, 1, 1⟩
abbrev XGS_CTRL_twin_restart : Fld := ⟨47, 0x020, 2, 2⟩
abbrev XGS_STATUS_state : Fld := ⟨47, 0x024, 2, 0⟩
abbrev XGS_STATUS_id : Fld := ⟨47, 0x024, 12, 8⟩
abbrev XGS_STATUS_members : Fld := ⟨47, 0x024, 21, 16⟩
abbrev XGS_ROUTE_link : Fld := ⟨47, 0x030, 2, 0⟩
abbrev XGS_ROUTE_hops : Fld := ⟨47, 0x030, 7, 4⟩
abbrev XGS_ROUTE_reachable : Fld := ⟨47, 0x030, 31, 31⟩
abbrev XGS_TWIN_STATE_state : Fld := ⟨47, 0x034, 2, 0⟩
abbrev XGS_TWIN_STATE_role : Fld := ⟨47, 0x034, 3, 3⟩
abbrev XGS_TWIN_STATE_mismatches : Fld := ⟨47, 0x034, 15, 8⟩
abbrev XGS_REMOTE_ERR_refused_in : Fld := ⟨47, 0x044, 15, 0⟩
abbrev XGS_REMOTE_ERR_refused_out : Fld := ⟨47, 0x044, 31, 16⟩
abbrev XGS_DOMAIN_id : Fld := ⟨47, 0x100, 4, 0⟩
abbrev XGS_DOMAIN_auto : Fld := ⟨47, 0x100, 8, 8⟩
abbrev XGS_DOMAIN_twin : Fld := ⟨47, 0x100, 16, 16⟩
abbrev XGS_GROUP_RANKS_id (k : Nat) (j : Nat) : Fld := ⟨47, 0x120 + 0x4 * k, 4 + 8 * j, 0 + 8 * j⟩
abbrev XL_CTRL_enable (n : Nat) : Fld := ⟨48 + n, 0x020, 0, 0⟩
abbrev XL_CTRL_retrain (n : Nat) : Fld := ⟨48 + n, 0x020, 1, 1⟩
abbrev XL_STATUS_state (n : Nat) : Fld := ⟨48 + n, 0x024, 1, 0⟩
abbrev XL_STATUS_lanes (n : Nat) : Fld := ⟨48 + n, 0x024, 6, 4⟩
abbrev XL_STATUS_peer_id (n : Nat) : Fld := ⟨48 + n, 0x024, 12, 8⟩
abbrev XL_STATUS_peer_link (n : Nat) : Fld := ⟨48 + n, 0x024, 15, 13⟩
abbrev XL_STATUS_peer_valid (n : Nat) : Fld := ⟨48 + n, 0x024, 16, 16⟩
abbrev XL_FEC_corrected (n : Nat) : Fld := ⟨48 + n, 0x030, 15, 0⟩
abbrev XL_FEC_uncorrectable (n : Nat) : Fld := ⟨48 + n, 0x030, 31, 16⟩
abbrev XL_ERR_replays (n : Nat) : Fld := ⟨48 + n, 0x034, 11, 0⟩
abbrev XL_ERR_discarded (n : Nat) : Fld := ⟨48 + n, 0x034, 19, 12⟩
abbrev XL_ERR_corrected (n : Nat) : Fld := ⟨48 + n, 0x034, 27, 20⟩
abbrev XL_ERR_poisoned (n : Nat) : Fld := ⟨48 + n, 0x034, 31, 28⟩
abbrev XL_EQ_tx_pre (n : Nat) : Fld := ⟨48 + n, 0x104, 3, 0⟩
abbrev XL_EQ_tx_post (n : Nat) : Fld := ⟨48 + n, 0x104, 11, 8⟩
abbrev XL_EQ_adaptive (n : Nat) : Fld := ⟨48 + n, 0x104, 16, 16⟩
abbrev FLT_CTRL_clear_log : Fld := ⟨59, 0x020, 0, 0⟩
abbrev FLT_STATUS_entries : Fld := ⟨59, 0x024, 10, 0⟩
abbrev FLT_STATUS_wrapped : Fld := ⟨59, 0x024, 16, 16⟩
abbrev FLT_FORWARD_LOST_sia : Fld := ⟨59, 0x080, 15, 0⟩
abbrev FLT_FORWARD_LOST_sib : Fld := ⟨59, 0x080, 31, 16⟩
abbrev FLT_RECOVERY_answer : Fld := ⟨59, 0x088, 1, 0⟩
abbrev FLT_RECOVERY_dies : Fld := ⟨59, 0x088, 7, 4⟩
abbrev FLT_RECOVERY_page : Fld := ⟨59, 0x088, 15, 8⟩
abbrev FLT_RECOVERY_valid : Fld := ⟨59, 0x088, 31, 31⟩
abbrev FLT_INJECT_page : Fld := ⟨59, 0x100, 7, 0⟩
abbrev FLT_INJECT_bit : Fld := ⟨59, 0x100, 11, 8⟩
abbrev FLT_INJECT_severity : Fld := ⟨59, 0x100, 13, 12⟩
abbrev FLT_INJECT_act : Fld := ⟨59, 0x100, 16, 16⟩
abbrev FLT_INJECT_refused : Fld := ⟨59, 0x100, 29, 29⟩
abbrev FLT_INJECT_go : Fld := ⟨59, 0x100, 31, 31⟩
abbrev ISL_STATE_state (n : Nat) : Fld := ⟨57 + n, 0x020, 2, 0⟩
abbrev ISL_STATE_hub_link (n : Nat) : Fld := ⟨57 + n, 0x020, 3, 3⟩
abbrev ISL_STATE_peer_ok (n : Nat) : Fld := ⟨57 + n, 0x020, 4, 4⟩
abbrev ISL_STATE_fallback (n : Nat) : Fld := ⟨57 + n, 0x020, 5, 5⟩
abbrev ISL_STATE_reduced_independence (n : Nat) : Fld := ⟨57 + n, 0x020, 6, 6⟩
abbrev ISL_IMAGE_version (n : Nat) : Fld := ⟨57 + n, 0x024, 15, 0⟩
abbrev ISL_IMAGE_bank (n : Nat) : Fld := ⟨57 + n, 0x024, 16, 16⟩
abbrev ISL_CLOCK_peer_ppm (n : Nat) : Fld := ⟨57 + n, 0x030, 15, 0⟩
abbrev ISL_CLOCK_ref_ppm (n : Nat) : Fld := ⟨57 + n, 0x030, 31, 16⟩
abbrev ISL_TIMERS_open (n : Nat) : Fld := ⟨57 + n, 0x034, 12, 0⟩
abbrev ISL_TIMERS_peak (n : Nat) : Fld := ⟨57 + n, 0x034, 28, 16⟩
abbrev ISL_MISSES_jobs (n : Nat) : Fld := ⟨57 + n, 0x038, 15, 0⟩
abbrev ISL_MISSES_slots (n : Nat) : Fld := ⟨57 + n, 0x038, 31, 16⟩
abbrev ISL_TAP_tap_ok (n : Nat) : Fld := ⟨57 + n, 0x044, 3, 0⟩
abbrev ISL_TAP_stop (n : Nat) : Fld := ⟨57 + n, 0x044, 11, 8⟩
abbrev ISL_TAP_fence (n : Nat) : Fld := ⟨57 + n, 0x044, 15, 12⟩
abbrev ISL_OUTPUTS_can0 (n : Nat) : Fld := ⟨57 + n, 0x048, 1, 0⟩
abbrev ISL_OUTPUTS_can1 (n : Nat) : Fld := ⟨57 + n, 0x048, 3, 2⟩
abbrev ISL_OUTPUTS_eth (n : Nat) : Fld := ⟨57 + n, 0x048, 5, 4⟩
abbrev ISL_SLOT_mode (n : Nat) (k : Nat) : Fld := ⟨57 + n, 0x100 + 0x4 * k, 1, 0⟩
abbrev ISL_SLOT_kept_run (n : Nat) (k : Nat) : Fld := ⟨57 + n, 0x100 + 0x4 * k, 3, 2⟩
abbrev ISL_SLOT_sample (n : Nat) (k : Nat) : Fld := ⟨57 + n, 0x100 + 0x4 * k, 11, 4⟩
abbrev STEST_CTRL_enable : Fld := ⟨60, 0x020, 0, 0⟩
abbrev STEST_STATUS_state : Fld := ⟨60, 0x024, 1, 0⟩
abbrev STEST_STATUS_coverage : Fld := ⟨60, 0x024, 7, 4⟩
abbrev STEST_DIE_STATE_array : Fld := ⟨60, 0x02C, 4, 0⟩
abbrev STEST_DIE_STATE_open : Fld := ⟨60, 0x02C, 5, 5⟩
abbrev STEST_DIE_STATE_next_part : Fld := ⟨60, 0x02C, 11, 8⟩
abbrev STEST_DIE_STATE_cadence_ms : Fld := ⟨60, 0x02C, 23, 16⟩
abbrev STEST_AGE_ms : Fld := ⟨60, 0x030, 15, 0⟩
abbrev STEST_AGE_array : Fld := ⟨60, 0x030, 20, 16⟩
abbrev STEST_LAST_FAIL_die : Fld := ⟨60, 0x040, 1, 0⟩
abbrev STEST_LAST_FAIL_array : Fld := ⟨60, 0x040, 8, 4⟩
abbrev STEST_LAST_FAIL_part : Fld := ⟨60, 0x040, 15, 12⟩
abbrev STEST_LAST_FAIL_action : Fld := ⟨60, 0x040, 17, 16⟩
abbrev STEST_LAST_FAIL_valid : Fld := ⟨60, 0x040, 31, 31⟩
abbrev STEST_TARGET_CMD_busy : Fld := ⟨60, 0x060, 0, 0⟩
abbrev STEST_TARGET_CMD_refused : Fld := ⟨60, 0x060, 1, 1⟩
abbrev STEST_TARGET_CMD_go : Fld := ⟨60, 0x060, 31, 31⟩
abbrev STEST_ARRAY_CMD_die : Fld := ⟨60, 0x080, 1, 0⟩
abbrev STEST_ARRAY_CMD_array : Fld := ⟨60, 0x080, 12, 8⟩
abbrev STEST_ARRAY_CMD_op : Fld := ⟨60, 0x080, 17, 16⟩
abbrev STEST_ARRAY_CMD_refused : Fld := ⟨60, 0x080, 30, 30⟩
abbrev STEST_ARRAY_CMD_go : Fld := ⟨60, 0x080, 31, 31⟩
abbrev STEST_DIE_CMD_die : Fld := ⟨60, 0x0A0, 1, 0⟩
abbrev STEST_DIE_CMD_op : Fld := ⟨60, 0x0A0, 17, 16⟩
abbrev STEST_DIE_CMD_refused : Fld := ⟨60, 0x0A0, 30, 30⟩
abbrev STEST_DIE_CMD_go : Fld := ⟨60, 0x0A0, 31, 31⟩
abbrev STEST_STACK_CMD_stack : Fld := ⟨60, 0x0A4, 1, 0⟩
abbrev STEST_STACK_CMD_op : Fld := ⟨60, 0x0A4, 17, 16⟩
abbrev STEST_STACK_CMD_go : Fld := ⟨60, 0x0A4, 31, 31⟩
abbrev STEST_STACK_STATE_spilled : Fld := ⟨60, 0x0A8, 3, 0⟩
abbrev STEST_STACK_STATE_copying : Fld := ⟨60, 0x0A8, 4, 4⟩
abbrev STEST_STACK_STATE_refused : Fld := ⟨60, 0x0A8, 5, 5⟩
abbrev STEST_STACK_STATE_progress : Fld := ⟨60, 0x0A8, 28, 8⟩
abbrev STEST_ISLAND_CMD_island : Fld := ⟨60, 0x0AC, 0, 0⟩
abbrev STEST_ISLAND_CMD_refused : Fld := ⟨60, 0x0AC, 30, 30⟩
abbrev STEST_ISLAND_CMD_go : Fld := ⟨60, 0x0AC, 31, 31⟩
abbrev STEST_INTERVAL_ms : Fld := ⟨60, 0x100, 11, 0⟩
abbrev STEST_DRAIN_MAX_ms : Fld := ⟨60, 0x104, 7, 0⟩
abbrev STEST_REPAIR_CLEAR_kind : Fld := ⟨60, 0x110, 2, 0⟩
abbrev STEST_REPAIR_CLEAR_die : Fld := ⟨60, 0x110, 9, 8⟩
abbrev STEST_REPAIR_CLEAR_phys : Fld := ⟨60, 0x110, 16, 12⟩
abbrev STEST_REPAIR_CLEAR_unit : Fld := ⟨60, 0x110, 22, 18⟩
abbrev STEST_REPAIR_CLEAR_busy : Fld := ⟨60, 0x110, 29, 29⟩
abbrev STEST_REPAIR_CLEAR_refused : Fld := ⟨60, 0x110, 30, 30⟩
abbrev STEST_REPAIR_CLEAR_go : Fld := ⟨60, 0x110, 31, 31⟩
abbrev PWR_STATE_state : Fld := ⟨1, 0x020, 2, 0⟩
abbrev PWR_STATE_request : Fld := ⟨1, 0x020, 6, 4⟩
abbrev PWR_STATE_refused : Fld := ⟨1, 0x020, 8, 8⟩
abbrev PWR_SERVICE_level : Fld := ⟨1, 0x024, 1, 0⟩
abbrev PWR_SERVICE_die : Fld := ⟨1, 0x024, 5, 4⟩
abbrev PWR_CLK_fabric : Fld := ⟨1, 0x028, 9, 8⟩
abbrev PWR_CLK_mgmt : Fld := ⟨1, 0x028, 11, 10⟩
abbrev PWR_CLK_array (j : Nat) : Fld := ⟨1, 0x028, 1 + 2 * j, 0 + 2 * j⟩
abbrev PWR_INPUT_power : Fld := ⟨1, 0x040, 15, 0⟩
abbrev PWR_INPUT_peak : Fld := ⟨1, 0x040, 31, 16⟩
abbrev PWR_GATE_IDLE_us : Fld := ⟨1, 0x100, 15, 0⟩
abbrev THM_HUB_MAX_temp : Fld := ⟨2, 0x020, 15, 0⟩
abbrev THM_HUB_MAX_point : Fld := ⟨2, 0x020, 19, 16⟩
abbrev THM_DIE_MAX_die (j : Nat) : Fld := ⟨2, 0x024, 7 + 8 * j, 0 + 8 * j⟩
abbrev THM_COOLANT_inlet : Fld := ⟨2, 0x028, 15, 0⟩
abbrev THM_COOLANT_outlet : Fld := ⟨2, 0x028, 31, 16⟩
abbrev THM_BOARD_stages : Fld := ⟨2, 0x02C, 7, 0⟩
abbrev THM_BOARD_board : Fld := ⟨2, 0x02C, 15, 8⟩
abbrev THM_STATUS_warn : Fld := ⟨2, 0x030, 4, 0⟩
abbrev THM_STATUS_hot : Fld := ⟨2, 0x030, 12, 8⟩
abbrev THM_STATUS_coolant : Fld := ⟨2, 0x030, 16, 16⟩
abbrev THM_STATUS_sensor_fail : Fld := ⟨2, 0x030, 24, 24⟩
abbrev THM_WARN_warn : Fld := ⟨2, 0x100, 7, 0⟩
abbrev THM_WARN_hot : Fld := ⟨2, 0x100, 15, 8⟩
abbrev THM_COOL_LIMIT_inlet_max : Fld := ⟨2, 0x104, 7, 0⟩
abbrev THM_COOL_LIMIT_rise_max : Fld := ⟨2, 0x104, 15, 8⟩
abbrev SUP_DIP_in_dip : Fld := ⟨3, 0x020, 4, 0⟩
abbrev SUP_DIP_long : Fld := ⟨3, 0x020, 12, 8⟩
abbrev SUP_LAST_DIP_rail : Fld := ⟨3, 0x028, 2, 0⟩
abbrev SUP_LAST_DIP_min_mv : Fld := ⟨3, 0x028, 15, 4⟩
abbrev SUP_LAST_DIP_us : Fld := ⟨3, 0x028, 31, 16⟩
abbrev SUP_INPUT_main : Fld := ⟨3, 0x02C, 9, 0⟩
abbrev SUP_INPUT_island : Fld := ⟨3, 0x02C, 25, 16⟩
abbrev SUP_RAIL_mv (k : Nat) : Fld := ⟨3, 0x040 + 0x4 * k, 11, 0⟩
abbrev SUP_RAIL_min_mv (k : Nat) : Fld := ⟨3, 0x040 + 0x4 * k, 27, 16⟩
abbrev SUP_DIP_MAX_ms : Fld := ⟨3, 0x100, 7, 0⟩
abbrev SUP_LEVELS_warn_mv : Fld := ⟨3, 0x104, 11, 0⟩
abbrev SUP_LEVELS_reset_mv : Fld := ⟨3, 0x104, 27, 16⟩
abbrev SEC_STATUS_boot_src : Fld := ⟨4, 0x020, 1, 0⟩
abbrev SEC_STATUS_trial : Fld := ⟨4, 0x020, 2, 2⟩
abbrev SEC_STATUS_bank : Fld := ⟨4, 0x020, 3, 3⟩
abbrev SEC_STATUS_owner : Fld := ⟨4, 0x020, 4, 4⟩
abbrev SEC_BOOT_CMD_host_go : Fld := ⟨4, 0x024, 0, 0⟩
abbrev SEC_BOOT_CMD_confirm : Fld := ⟨4, 0x024, 1, 1⟩
abbrev SEC_BOOT_CMD_activate : Fld := ⟨4, 0x024, 2, 2⟩
abbrev SEC_BOOT_CMD_test_go : Fld := ⟨4, 0x024, 3, 3⟩
abbrev SEC_BOOT_CMD_refused : Fld := ⟨4, 0x024, 31, 31⟩
abbrev SEC_ATTEST_CMD_go : Fld := ⟨4, 0x038, 0, 0⟩
abbrev SEC_ATTEST_CMD_cert : Fld := ⟨4, 0x038, 1, 1⟩
abbrev SEC_ATTEST_CMD_busy : Fld := ⟨4, 0x038, 8, 8⟩
abbrev SEC_ATTEST_CMD_refused : Fld := ⟨4, 0x038, 9, 9⟩
abbrev SEC_UPDATE_CMD_go : Fld := ⟨4, 0x094, 0, 0⟩
abbrev SEC_UPDATE_CMD_state : Fld := ⟨4, 0x094, 3, 1⟩
abbrev SEC_UPDATE_CMD_cause : Fld := ⟨4, 0x094, 7, 4⟩
abbrev SEC_DEBUG_STATE_scope : Fld := ⟨4, 0x098, 5, 0⟩
abbrev SEC_DEBUG_STATE_challenge_valid : Fld := ⟨4, 0x098, 8, 8⟩
abbrev SEC_DEBUG_STATE_refused : Fld := ⟨4, 0x098, 9, 9⟩
abbrev SEC_DEBUG_CMD_challenge : Fld := ⟨4, 0x09C, 0, 0⟩
abbrev SEC_DEBUG_CMD_submit : Fld := ⟨4, 0x09C, 1, 1⟩
abbrev SEC_DEBUG_CMD_lock : Fld := ⟨4, 0x09C, 2, 2⟩
abbrev SEC_ROLLBACK_CMD_counter : Fld := ⟨4, 0x10C, 6, 0⟩
abbrev SEC_ROLLBACK_CMD_value : Fld := ⟨4, 0x10C, 13, 8⟩
abbrev SEC_ROLLBACK_CMD_refused : Fld := ⟨4, 0x10C, 30, 30⟩
abbrev SEC_ROLLBACK_CMD_go : Fld := ⟨4, 0x10C, 31, 31⟩
abbrev FARM_CTRL_continue : Fld := ⟨61, 0x020, 0, 0⟩
abbrev FARM_CTRL_save : Fld := ⟨61, 0x020, 1, 1⟩
abbrev FARM_CTRL_restore : Fld := ⟨61, 0x020, 2, 2⟩
abbrev FARM_CTRL_telem_en : Fld := ⟨61, 0x020, 3, 3⟩
abbrev FARM_CTRL_arm : Fld := ⟨61, 0x020, 4, 4⟩
abbrev FARM_CTRL_disarm : Fld := ⟨61, 0x020, 5, 5⟩
abbrev FARM_STATUS_state : Fld := ⟨61, 0x024, 2, 0⟩
abbrev FARM_STATUS_refused : Fld := ⟨61, 0x024, 3, 3⟩
abbrev FARM_STATUS_cause : Fld := ⟨61, 0x024, 7, 4⟩
abbrev FARM_STATUS_armed : Fld := ⟨61, 0x024, 8, 8⟩
abbrev FARM_TELEM_queue : Fld := ⟨61, 0x058, 7, 0⟩
abbrev FARM_TELEM_period_ms : Fld := ⟨61, 0x058, 23, 8⟩
abbrev FARM_TAKEOVER_id : Fld := ⟨61, 0x0C0, 4, 0⟩
abbrev FARM_TAKEOVER_refused : Fld := ⟨61, 0x0C0, 30, 30⟩
abbrev FARM_TAKEOVER_go : Fld := ⟨61, 0x0C0, 31, 31⟩
abbrev FARM_RELINK_link : Fld := ⟨61, 0x0D0, 2, 0⟩
abbrev FARM_RELINK_relinking : Fld := ⟨61, 0x0D0, 15, 8⟩
abbrev FARM_RELINK_refused : Fld := ⟨61, 0x0D0, 30, 30⟩
abbrev FARM_RELINK_go : Fld := ⟨61, 0x0D0, 31, 31⟩
abbrev DISC_TOPO_SERIAL_LO_serial (k : Nat) : Fld := ⟨5, 0x044 + 0x10 * k, 31, 0⟩
abbrev DISC_TOPO_SERIAL_HI_serial (k : Nat) : Fld := ⟨5, 0x048 + 0x10 * k, 31, 0⟩
abbrev DIKE_VIOL_ADDR_LO_addr : Fld := ⟨6, 0x02C, 31, 0⟩
abbrev DIKE_VIOL_ADDR_HI_addr : Fld := ⟨6, 0x030, 15, 0⟩
abbrev DIKE_STALL_COUNT_stalls : Fld := ⟨6, 0x034, 31, 0⟩
abbrev DIKE_WIN_BASE_LO_base (k : Nat) : Fld := ⟨6, 0x100 + 0x10 * k, 31, 12⟩
abbrev DIKE_WIN_BASE_HI_base (k : Nat) : Fld := ⟨6, 0x104 + 0x10 * k, 15, 0⟩
abbrev XSLOT_IDENT_maker : Fld := ⟨62, 0x028, 31, 0⟩
abbrev XSLOT_H2X_DATA_data (k : Nat) : Fld := ⟨62, 0x040 + 0x4 * k, 31, 0⟩
abbrev XSLOT_X2H_DATA_data (k : Nat) : Fld := ⟨62, 0x060 + 0x4 * k, 31, 0⟩
abbrev CD_HOTSPOT_temp (n : Nat) (k : Nat) : Fld := ⟨96 + n, 0x040 + 0x4 * k, 15, 0⟩
abbrev ST_CORR_COUNT_count (n : Nat) : Fld := ⟨224 + n, 0x028, 31, 0⟩
abbrev ST_UNCORR_COUNT_count (n : Nat) : Fld := ⟨224 + n, 0x02C, 31, 0⟩
abbrev ST_STEP_COUNT_changes (n : Nat) : Fld := ⟨224 + n, 0x034, 15, 0⟩
abbrev ST_THR1_celsius (n : Nat) : Fld := ⟨224 + n, 0x100, 7, 0⟩
abbrev ST_THR2_celsius (n : Nat) : Fld := ⟨224 + n, 0x104, 7, 0⟩
abbrev ST_THR3_celsius (n : Nat) : Fld := ⟨224 + n, 0x108, 7, 0⟩
abbrev ST_HYST_degrees (n : Nat) : Fld := ⟨224 + n, 0x10C, 3, 0⟩
abbrev GEN_SERIAL_LO_serial : Fld := ⟨0, 0x02C, 31, 0⟩
abbrev GEN_SERIAL_HI_serial : Fld := ⟨0, 0x030, 31, 0⟩
abbrev GEN_SCRATCH_data (k : Nat) : Fld := ⟨0, 0x070 + 0x4 * k, 31, 0⟩
abbrev ARR_JOB_INDEX_index (n : Nat) : Fld := ⟨128 + n, 0x02C, 31, 0⟩
abbrev ARR_BUSY_CYCLES_count (n : Nat) : Fld := ⟨128 + n, 0x050, 31, 0⟩
abbrev ARR_STALL_CYCLES_count (n : Nat) : Fld := ⟨128 + n, 0x054, 31, 0⟩
abbrev ARR_ISSUED_count (n : Nat) : Fld := ⟨128 + n, 0x058, 31, 0⟩
abbrev KV_ALLOC_COUNT_count : Fld := ⟨46, 0x064, 31, 0⟩
abbrev KV_COW_COUNT_count : Fld := ⟨46, 0x068, 31, 0⟩
abbrev KV_RETURN_COUNT_count : Fld := ⟨46, 0x06C, 31, 0⟩
abbrev KV_POOL_BASE_LO_base (k : Nat) : Fld := ⟨46, 0x100 + 0x20 * k, 31, 12⟩
abbrev KV_POOL_BASE_HI_base (k : Nat) : Fld := ⟨46, 0x104 + 0x20 * k, 15, 0⟩
abbrev KV_STATE_BASE_LO_base : Fld := ⟨46, 0x200, 31, 12⟩
abbrev KV_STATE_BASE_HI_base : Fld := ⟨46, 0x204, 15, 0⟩
abbrev KV_SEQ_BASE_LO_base : Fld := ⟨46, 0x208, 31, 12⟩
abbrev KV_SEQ_BASE_HI_base : Fld := ⟨46, 0x20C, 15, 0⟩
abbrev ING_SEL_SEQ_seq : Fld := ⟨11, 0x044, 31, 0⟩
abbrev ING_SEL_DROPS_count : Fld := ⟨11, 0x04C, 31, 0⟩
abbrev ING_TS_INVALID_count : Fld := ⟨11, 0x050, 31, 0⟩
abbrev ING_TABLE_BASE_LO_base : Fld := ⟨11, 0x100, 31, 13⟩
abbrev ING_TABLE_BASE_HI_base : Fld := ⟨11, 0x104, 15, 0⟩
abbrev CSI_FRAMES_count (n : Nat) : Fld := ⟨12 + n, 0x034, 31, 0⟩
abbrev CSI_EMB_CRC_crc (n : Nat) (k : Nat) : Fld := ⟨12 + n, 0x040 + 0x4 * k, 31, 0⟩
abbrev ETH_MAC_LO_mac (n : Nat) : Fld := ⟨36 + n, 0x028, 31, 0⟩
abbrev ETH_RX_FRAMES_count (n : Nat) : Fld := ⟨36 + n, 0x030, 31, 0⟩
abbrev ETH_FLOW_PORT_port (n : Nat) (k : Nat) : Fld := ⟨36 + n, 0x044 + 0x8 * k, 15, 0⟩
abbrev WARD_FAIL_COUNT_count : Fld := ⟨40, 0x028, 31, 0⟩
abbrev WARD_PREEMPT_COUNT_count : Fld := ⟨40, 0x02C, 31, 0⟩
abbrev WARD_TABLE_BASE_LO_base : Fld := ⟨40, 0x030, 31, 13⟩
abbrev WARD_TABLE_BASE_HI_base : Fld := ⟨40, 0x034, 15, 0⟩
abbrev EGO_POSE_COUNT_count : Fld := ⟨43, 0x028, 31, 0⟩
abbrev EGO_RING_BASE_LO_base : Fld := ⟨43, 0x100, 31, 21⟩
abbrev EGO_RING_BASE_HI_base : Fld := ⟨43, 0x104, 15, 0⟩
abbrev EGO_GYRO_SCALE_value : Fld := ⟨43, 0x10C, 31, 0⟩
abbrev EGO_ACC_SCALE_value : Fld := ⟨43, 0x110, 31, 0⟩
abbrev EGO_WHEEL_SCALE_value : Fld := ⟨43, 0x114, 31, 0⟩
abbrev EGO_WHEEL_GAIN_value : Fld := ⟨43, 0x118, 31, 0⟩
abbrev EGO_BIAS_value (k : Nat) : Fld := ⟨43, 0x120 + 0x4 * k, 31, 0⟩
abbrev EGO_WHEEL_ID_id : Fld := ⟨43, 0x144, 29, 0⟩
abbrev PROJ_POINTS_count : Fld := ⟨42, 0x028, 31, 0⟩
abbrev PROJ_UNPOSED_count : Fld := ⟨42, 0x02C, 31, 0⟩
abbrev PROJ_DELTA_SEL_entry : Fld := ⟨42, 0x030, 5, 0⟩
abbrev PROJ_DELTA_DATA_value (k : Nat) : Fld := ⟨42, 0x040 + 0x4 * k, 31, 0⟩
abbrev PROJ_CAL_SEL_entry : Fld := ⟨42, 0x100, 5, 0⟩
abbrev PROJ_CAL_VALID_LO_valid : Fld := ⟨42, 0x110, 31, 0⟩
abbrev PROJ_CAL_VALID_HI_valid : Fld := ⟨42, 0x114, 31, 0⟩
abbrev PROJ_CAL_DATA_word (k : Nat) : Fld := ⟨42, 0x180 + 0x4 * k, 31, 0⟩
abbrev FUS_INSTANT_number : Fld := ⟨41, 0x028, 31, 0⟩
abbrev FUS_TRACKS_live : Fld := ⟨41, 0x030, 18, 0⟩
abbrev FUS_INPUT_ERR_count : Fld := ⟨41, 0x034, 31, 0⟩
abbrev FUS_SENSOR_SEL_sensor : Fld := ⟨41, 0x040, 5, 0⟩
abbrev FUS_MASKED_LO_masked : Fld := ⟨41, 0x048, 31, 0⟩
abbrev FUS_MASKED_HI_masked : Fld := ⟨41, 0x04C, 31, 0⟩
abbrev FUS_SCFG_SEL_sensor : Fld := ⟨41, 0x100, 5, 0⟩
abbrev FUS_SCFG_VALID_valid : Fld := ⟨41, 0x104, 0, 0⟩
abbrev FUS_SCFG_WINDOW_us : Fld := ⟨41, 0x108, 23, 0⟩
abbrev FUS_SCFG_REACH_us : Fld := ⟨41, 0x10C, 23, 0⟩
abbrev FUS_DEFAULT_WAIT_us : Fld := ⟨41, 0x138, 23, 0⟩
abbrev FUS_QUEUE_queue : Fld := ⟨41, 0x13C, 19, 0⟩
abbrev FUS_INPUT_FENCE_object : Fld := ⟨41, 0x140, 11, 0⟩
abbrev FUS_INPUT_BASE_LO_base : Fld := ⟨41, 0x150, 31, 12⟩
abbrev FUS_INPUT_BASE_HI_base : Fld := ⟨41, 0x154, 15, 0⟩
abbrev FUS_TRACK_BASE_LO_base : Fld := ⟨41, 0x158, 31, 12⟩
abbrev FUS_TRACK_BASE_HI_base : Fld := ⟨41, 0x15C, 15, 0⟩
abbrev FUS_STATE_BASE_LO_base : Fld := ⟨41, 0x160, 31, 12⟩
abbrev FUS_STATE_BASE_HI_base : Fld := ⟨41, 0x164, 15, 0⟩
abbrev COLL_RFX_COUNT_count : Fld := ⟨44, 0x030, 31, 0⟩
abbrev COLL_RFX_HITS_count : Fld := ⟨44, 0x034, 31, 0⟩
abbrev COLL_RFX_REFUSED_count : Fld := ⟨44, 0x038, 31, 0⟩
abbrev COLL_RFX_MAX_NS_ns : Fld := ⟨44, 0x03C, 15, 0⟩
abbrev COLL_SAT_CELLS_cells : Fld := ⟨44, 0x040, 14, 0⟩
abbrev COLL_WS_BASE_LO_base : Fld := ⟨44, 0x100, 31, 15⟩
abbrev COLL_WS_BASE_HI_base : Fld := ⟨44, 0x104, 15, 0⟩
abbrev COLL_TRI_BASE_LO_base : Fld := ⟨44, 0x108, 31, 15⟩
abbrev COLL_TRI_BASE_HI_base : Fld := ⟨44, 0x10C, 15, 0⟩
abbrev COLL_RFX_BASE_LO_base : Fld := ⟨44, 0x110, 31, 15⟩
abbrev COLL_RFX_BASE_HI_base : Fld := ⟨44, 0x114, 15, 0⟩
abbrev COLL_PUB_FENCE_object : Fld := ⟨44, 0x11C, 11, 0⟩
abbrev COLL_PUB_FENCE_valid : Fld := ⟨44, 0x11C, 31, 31⟩
abbrev COLL_RETIRE_FENCE_object : Fld := ⟨44, 0x120, 11, 0⟩
abbrev COLL_RETIRE_FENCE_valid : Fld := ⟨44, 0x120, 31, 31⟩
abbrev PLAN_RESULTS_count : Fld := ⟨45, 0x02C, 31, 0⟩
abbrev PLAN_KEPT_count : Fld := ⟨45, 0x030, 31, 0⟩
abbrev PLAN_FALLTHROUGH_count : Fld := ⟨45, 0x034, 31, 0⟩
abbrev PLAN_SWEEP_MAX_NS_ns : Fld := ⟨45, 0x038, 15, 0⟩
abbrev PLAN_RM_SEL_slot : Fld := ⟨45, 0x040, 0, 0⟩
abbrev PLAN_SLOT_SEL_slot : Fld := ⟨45, 0x048, 5, 0⟩
abbrev PLAN_SLOT_QUERY_number : Fld := ⟨45, 0x04C, 31, 0⟩
abbrev PLAN_SLOT_FLAGS_flags : Fld := ⟨45, 0x050, 6, 0⟩
abbrev PLAN_SLOT_BASE_LO_base : Fld := ⟨45, 0x100, 31, 19⟩
abbrev PLAN_SLOT_BASE_HI_base : Fld := ⟨45, 0x104, 15, 0⟩
abbrev PLAN_ISLAND_LO_slots : Fld := ⟨45, 0x108, 31, 0⟩
abbrev PLAN_ISLAND_HI_slots : Fld := ⟨45, 0x10C, 31, 0⟩
abbrev JRN_POS_LO_position : Fld := ⟨9, 0x028, 31, 0⟩
abbrev JRN_POS_HI_position : Fld := ⟨9, 0x02C, 31, 0⟩
abbrev JRN_WRITE_offset : Fld := ⟨9, 0x030, 31, 0⟩
abbrev JRN_EXPORT_offset : Fld := ⟨9, 0x034, 31, 0⟩
abbrev JRN_REPLAY_POS_LO_position : Fld := ⟨9, 0x038, 31, 0⟩
abbrev JRN_REPLAY_POS_HI_position : Fld := ⟨9, 0x03C, 31, 0⟩
abbrev JRN_DROPPED_count : Fld := ⟨9, 0x040, 31, 0⟩
abbrev JRN_IGNORED_count : Fld := ⟨9, 0x044, 31, 0⟩
abbrev JRN_BASE_LO_base : Fld := ⟨9, 0x100, 31, 20⟩
abbrev JRN_BASE_HI_base : Fld := ⟨9, 0x104, 15, 0⟩
abbrev JRN_STREAM_FULL_full (k : Nat) : Fld := ⟨9, 0x110 + 0x4 * k, 31, 0⟩
abbrev JRN_CAPWIN_BASE_LO_base (k : Nat) : Fld := ⟨9, 0x140 + 0x10 * k, 31, 12⟩
abbrev JRN_CAPWIN_BASE_HI_base (k : Nat) : Fld := ⟨9, 0x144 + 0x10 * k, 15, 0⟩
abbrev JRN_BASELINE_digest (k : Nat) : Fld := ⟨9, 0x1C0 + 0x4 * k, 31, 0⟩
abbrev JRN_STALL_US_us : Fld := ⟨9, 0x204, 23, 0⟩
abbrev DET_COMPARED_count : Fld := ⟨10, 0x028, 31, 0⟩
abbrev DET_SKIPPED_count : Fld := ⟨10, 0x02C, 31, 0⟩
abbrev DET_NONREPRO_count : Fld := ⟨10, 0x030, 31, 0⟩
abbrev DET_LOG_SEL_entry : Fld := ⟨10, 0x040, 3, 0⟩
abbrev DET_LOG_INDEX_index : Fld := ⟨10, 0x048, 31, 0⟩
abbrev DET_LOG_DIG_REC_LO_digest : Fld := ⟨10, 0x054, 31, 0⟩
abbrev DET_LOG_DIG_REC_HI_digest : Fld := ⟨10, 0x058, 31, 0⟩
abbrev DET_LOG_DIG_RUN_LO_digest : Fld := ⟨10, 0x05C, 31, 0⟩
abbrev DET_LOG_DIG_RUN_HI_digest : Fld := ⟨10, 0x060, 31, 0⟩
abbrev QENG_QSEL_queue : Fld := ⟨7, 0x030, 19, 0⟩
abbrev QENG_QPROD_index : Fld := ⟨7, 0x034, 31, 0⟩
abbrev QENG_QCONS_index : Fld := ⟨7, 0x038, 31, 0⟩
abbrev QENG_ABORT_INDEX_index : Fld := ⟨7, 0x044, 31, 0⟩
abbrev QENG_CQ_DROP_count : Fld := ⟨7, 0x04C, 31, 0⟩
abbrev QENG_JOBS_count : Fld := ⟨7, 0x050, 31, 0⟩
abbrev QENG_REFUSED_count : Fld := ⟨7, 0x054, 31, 0⟩
abbrev QENG_STATE_BASE_LO_base : Fld := ⟨7, 0x100, 31, 26⟩
abbrev QENG_STATE_BASE_HI_base : Fld := ⟨7, 0x104, 15, 0⟩
abbrev FENCE_SEL_object : Fld := ⟨8, 0x024, 11, 0⟩
abbrev FENCE_VALUE_LO_value : Fld := ⟨8, 0x028, 31, 0⟩
abbrev FENCE_VALUE_HI_value : Fld := ⟨8, 0x02C, 31, 0⟩
abbrev FENCE_SET_LO_value : Fld := ⟨8, 0x100, 31, 0⟩
abbrev FENCE_SET_HI_value : Fld := ⟨8, 0x104, 31, 0⟩
abbrev MC_CORR_ch0 (n : Nat) : Fld := ⟨64 + n, 0x030, 15, 0⟩
abbrev MC_CORR_ch1 (n : Nat) : Fld := ⟨64 + n, 0x030, 31, 16⟩
abbrev MC_UNCORR_ch0 (n : Nat) : Fld := ⟨64 + n, 0x034, 15, 0⟩
abbrev MC_UNCORR_ch1 (n : Nat) : Fld := ⟨64 + n, 0x034, 31, 16⟩
abbrev MC_ROWS_RETIRED_ch0 (n : Nat) : Fld := ⟨64 + n, 0x040, 6, 0⟩
abbrev MC_ROWS_RETIRED_ch1 (n : Nat) : Fld := ⟨64 + n, 0x040, 14, 8⟩
abbrev MC_FWD_COUNT_count (n : Nat) : Fld := ⟨64 + n, 0x048, 31, 0⟩
abbrev MC_CC_MISS_count (n : Nat) : Fld := ⟨64 + n, 0x04C, 31, 0⟩
abbrev MC_RETRAIN_CFG_drift (n : Nat) : Fld := ⟨64 + n, 0x104, 4, 0⟩
abbrev MC_SCRUB_CFG_hours (n : Nat) : Fld := ⟨64 + n, 0x108, 7, 0⟩
abbrev MC_ROW_THRESH_corrections (n : Nat) : Fld := ⟨64 + n, 0x10C, 7, 0⟩
abbrev MEMG_CAPACITY_mib : Fld := ⟨80, 0x02C, 16, 0⟩
abbrev MEMG_TEST_FAIL_channels : Fld := ⟨80, 0x03C, 31, 0⟩
abbrev MEMG_SPARE_reserve : Fld := ⟨80, 0x100, 0, 0⟩
abbrev MEMG_PARK_KEEP_segments : Fld := ⟨80, 0x104, 6, 0⟩
abbrev MEMG_TEST_channels : Fld := ⟨80, 0x108, 31, 0⟩
abbrev MEMG_SAVE_BASE_LO_base : Fld := ⟨80, 0x110, 31, 16⟩
abbrev MEMG_SAVE_BASE_HI_base : Fld := ⟨80, 0x114, 15, 0⟩
abbrev PSR_ID_id (n : Nat) : Fld := ⟨228 + n, 0x024, 15, 0⟩
abbrev PSR_RD_ADDR_unit (n : Nat) : Fld := ⟨228 + n, 0x028, 25, 5⟩
abbrev PSR_FAULT_COUNT_records (n : Nat) : Fld := ⟨228 + n, 0x034, 15, 0⟩
abbrev PSR_ERR_corrected (n : Nat) : Fld := ⟨228 + n, 0x038, 15, 0⟩
abbrev PSR_ERR_uncorrectable (n : Nat) : Fld := ⟨228 + n, 0x038, 31, 16⟩
abbrev PSR_RD_DATA_data (n : Nat) (k : Nat) : Fld := ⟨228 + n, 0x040 + 0x4 * k, 31, 0⟩
abbrev NOR_ID_jedec (n : Nat) : Fld := ⟨230 + n, 0x024, 23, 0⟩
abbrev NOR_RD_ADDR_unit (n : Nat) : Fld := ⟨230 + n, 0x028, 27, 5⟩
abbrev NOR_RD_CMD_go (n : Nat) : Fld := ⟨230 + n, 0x02C, 0, 0⟩
abbrev NOR_RD_CMD_busy (n : Nat) : Fld := ⟨230 + n, 0x02C, 1, 1⟩
abbrev NOR_RD_CMD_poisoned (n : Nat) : Fld := ⟨230 + n, 0x02C, 2, 2⟩
abbrev NOR_RD_CMD_refused (n : Nat) : Fld := ⟨230 + n, 0x02C, 3, 3⟩
abbrev NOR_ERASE_bank_a (n : Nat) : Fld := ⟨230 + n, 0x030, 15, 0⟩
abbrev NOR_ERASE_bank_b (n : Nat) : Fld := ⟨230 + n, 0x030, 31, 16⟩
abbrev NOR_ERR_timeouts (n : Nat) : Fld := ⟨230 + n, 0x034, 15, 0⟩
abbrev NOR_RD_DATA_data (n : Nat) (k : Nat) : Fld := ⟨230 + n, 0x040 + 0x4 * k, 31, 0⟩
abbrev PCIE_BAR2_ERR_refused : Fld := ⟨56, 0x028, 15, 0⟩
abbrev PCIE_BLK_VEC_vec : Fld := ⟨56, 0x0C0, 4, 0⟩
abbrev PCIE_BLK_PEND_pend (k : Nat) : Fld := ⟨56, 0x0C4 + 0x4 * k, 31, 0⟩
abbrev PCIE_MSI_PEND_pending : Fld := ⟨56, 0x0E4, 31, 0⟩
abbrev PCIE_BLK_HOST_route (k : Nat) : Fld := ⟨56, 0x140 + 0x4 * k, 31, 0⟩
abbrev XGS_MEMBERS_present : Fld := ⟨47, 0x028, 31, 0⟩
abbrev XGS_ROUTE_SEL_id : Fld := ⟨47, 0x02C, 4, 0⟩
abbrev XGS_TWIN_AGREE_count : Fld := ⟨47, 0x038, 31, 0⟩
abbrev XGS_TWIN_LAST_SLOT_slot : Fld := ⟨47, 0x03C, 5, 0⟩
abbrev XGS_TWIN_LAST_INDEX_index : Fld := ⟨47, 0x040, 31, 0⟩
abbrev XGS_COLL_COUNT_count : Fld := ⟨47, 0x048, 31, 0⟩
abbrev XGS_TWIN_ARRAYS_used (k : Nat) : Fld := ⟨47, 0x050 + 0x4 * k, 23, 0⟩
abbrev XGS_TWIN_SLOTS_LO_slots : Fld := ⟨47, 0x104, 31, 0⟩
abbrev XGS_TWIN_SLOTS_HI_slots : Fld := ⟨47, 0x108, 31, 0⟩
abbrev XGS_TWIN_WAIT_us : Fld := ⟨47, 0x10C, 15, 0⟩
abbrev XGS_COLL_BASE_LO_base : Fld := ⟨47, 0x110, 31, 13⟩
abbrev XGS_COLL_BASE_HI_base : Fld := ⟨47, 0x114, 15, 0⟩
abbrev XGS_GROUP_SEL_group : Fld := ⟨47, 0x118, 3, 0⟩
abbrev XGS_GROUP_SIZE_size : Fld := ⟨47, 0x11C, 5, 0⟩
abbrev XGS_GROUP_SIZE_valid : Fld := ⟨47, 0x11C, 31, 31⟩
abbrev XGS_AP_base (k : Nat) : Fld := ⟨47, 0x180 + 0x4 * k, 15, 0⟩
abbrev XGS_AP_perm (k : Nat) : Fld := ⟨47, 0x180 + 0x4 * k, 25, 24⟩
abbrev XGS_AP_valid (k : Nat) : Fld := ⟨47, 0x180 + 0x4 * k, 31, 31⟩
abbrev XL_PEER_SERIAL_LO_serial (n : Nat) : Fld := ⟨48 + n, 0x028, 31, 0⟩
abbrev XL_PEER_SERIAL_HI_serial (n : Nat) : Fld := ⟨48 + n, 0x02C, 31, 0⟩
abbrev XL_TX_WORDS_count (n : Nat) : Fld := ⟨48 + n, 0x038, 31, 0⟩
abbrev XL_RX_WORDS_count (n : Nat) : Fld := ⟨48 + n, 0x03C, 31, 0⟩
abbrev XL_LANE_RETIRE_retire (n : Nat) : Fld := ⟨48 + n, 0x100, 3, 0⟩
abbrev FLT_SEQ_seq : Fld := ⟨59, 0x028, 31, 0⟩
abbrev FLT_LOG_SEL_entry : Fld := ⟨59, 0x02C, 9, 0⟩
abbrev FLT_LOG_WORD_data (k : Nat) : Fld := ⟨59, 0x040 + 0x4 * k, 31, 0⟩
abbrev FLT_SR_OPEN_open : Fld := ⟨59, 0x084, 15, 0⟩
abbrev ISL_TIME_LO_time (n : Nat) : Fld := ⟨57 + n, 0x028, 31, 0⟩
abbrev ISL_TIME_HI_time (n : Nat) : Fld := ⟨57 + n, 0x02C, 31, 0⟩
abbrev ISL_DIE_RESETS_c0 (n : Nat) : Fld := ⟨57 + n, 0x03C, 7, 0⟩
abbrev ISL_DIE_RESETS_c1 (n : Nat) : Fld := ⟨57 + n, 0x03C, 15, 8⟩
abbrev ISL_DIE_RESETS_c2 (n : Nat) : Fld := ⟨57 + n, 0x03C, 23, 16⟩
abbrev ISL_DIE_RESETS_c3 (n : Nat) : Fld := ⟨57 + n, 0x03C, 31, 24⟩
abbrev ISL_MODULE_RESETS_count (n : Nat) : Fld := ⟨57 + n, 0x040, 7, 0⟩
abbrev ISL_EVENT_SEQ_seq (n : Nat) : Fld := ⟨57 + n, 0x04C, 31, 0⟩
abbrev ISL_LAST_EVENT_data (n : Nat) (k : Nat) : Fld := ⟨57 + n, 0x060 + 0x4 * k, 31, 0⟩
abbrev STEST_DIE_SEL_die : Fld := ⟨60, 0x028, 1, 0⟩
abbrev STEST_PASSES_count : Fld := ⟨60, 0x034, 31, 0⟩
abbrev STEST_ABORTS_count : Fld := ⟨60, 0x038, 31, 0⟩
abbrev STEST_SKIPS_count : Fld := ⟨60, 0x03C, 31, 0⟩
abbrev STEST_TARGET_arrays (k : Nat) : Fld := ⟨60, 0x050 + 0x4 * k, 23, 0⟩
abbrev STEST_TARGET_FAIL_failed (k : Nat) : Fld := ⟨60, 0x070 + 0x4 * k, 23, 0⟩
abbrev STEST_ARRAY_OUT_out (k : Nat) : Fld := ⟨60, 0x090 + 0x4 * k, 23, 0⟩
abbrev STEST_PROG_BASE_LO_base : Fld := ⟨60, 0x108, 31, 16⟩
abbrev STEST_PROG_BASE_HI_base : Fld := ⟨60, 0x10C, 15, 0⟩
abbrev STEST_SPILL_BASE_LO_base (k : Nat) : Fld := ⟨60, 0x120 + 0x8 * k, 31, 28⟩
abbrev STEST_SPILL_BASE_LO_valid (k : Nat) : Fld := ⟨60, 0x120 + 0x8 * k, 0, 0⟩
abbrev STEST_SPILL_BASE_HI_base (k : Nat) : Fld := ⟨60, 0x124 + 0x8 * k, 15, 0⟩
abbrev PWR_UNGATED_ungated (k : Nat) : Fld := ⟨1, 0x030 + 0x4 * k, 23, 0⟩
abbrev SUP_DIPS_count : Fld := ⟨3, 0x024, 31, 0⟩
abbrev SEC_ATTEST_ADDR_LO_addr : Fld := ⟨4, 0x030, 31, 5⟩
abbrev SEC_ATTEST_ADDR_HI_addr : Fld := ⟨4, 0x034, 15, 0⟩
abbrev SEC_NONCE_data (k : Nat) : Fld := ⟨4, 0x040 + 0x4 * k, 31, 0⟩
abbrev SEC_MEAS_SEL_slot : Fld := ⟨4, 0x080, 3, 0⟩
abbrev SEC_MEAS_DATA_data (k : Nat) : Fld := ⟨4, 0x0C0 + 0x4 * k, 31, 0⟩
abbrev SEC_ROLLBACK_SEL_counter : Fld := ⟨4, 0x084, 6, 0⟩
abbrev SEC_ROLLBACK_VALUE_value : Fld := ⟨4, 0x088, 6, 0⟩
abbrev SEC_UPDATE_ADDR_LO_addr : Fld := ⟨4, 0x08C, 31, 5⟩
abbrev SEC_UPDATE_ADDR_HI_addr : Fld := ⟨4, 0x090, 15, 0⟩
abbrev SEC_DEBUG_TOKEN_ADDR_LO_addr : Fld := ⟨4, 0x0A0, 31, 5⟩
abbrev SEC_DEBUG_TOKEN_ADDR_HI_addr : Fld := ⟨4, 0x0A4, 15, 0⟩
abbrev SEC_ENROL_ADDR_LO_addr : Fld := ⟨4, 0x100, 31, 5⟩
abbrev SEC_ENROL_ADDR_HI_addr : Fld := ⟨4, 0x104, 15, 0⟩
abbrev SEC_ENROL_CMD_go : Fld := ⟨4, 0x108, 31, 31⟩
abbrev SEC_ENROL_CMD_refused : Fld := ⟨4, 0x108, 0, 0⟩
abbrev SEC_EXTEND_ADDR_LO_addr : Fld := ⟨4, 0x110, 31, 5⟩
abbrev SEC_EXTEND_ADDR_HI_addr : Fld := ⟨4, 0x114, 15, 0⟩
abbrev SEC_EXTEND_CMD_slot : Fld := ⟨4, 0x118, 3, 0⟩
abbrev SEC_EXTEND_CMD_go : Fld := ⟨4, 0x118, 31, 31⟩
abbrev SEC_DEBUG_NONCE_data (k : Nat) : Fld := ⟨4, 0x140 + 0x4 * k, 31, 0⟩
abbrev FARM_SEGMENT_number : Fld := ⟨61, 0x028, 31, 0⟩
abbrev FARM_BOUNDARY_LO_position : Fld := ⟨61, 0x02C, 31, 0⟩
abbrev FARM_BOUNDARY_HI_position : Fld := ⟨61, 0x030, 31, 0⟩
abbrev FARM_STRAGGLE_LO_position : Fld := ⟨61, 0x040, 31, 0⟩
abbrev FARM_STRAGGLE_HI_position : Fld := ⟨61, 0x044, 31, 0⟩
abbrev FARM_PROG_RECORDS_count : Fld := ⟨61, 0x034, 31, 0⟩
abbrev FARM_PROG_JOBS_count : Fld := ⟨61, 0x038, 31, 0⟩
abbrev FARM_PROG_MS_count : Fld := ⟨61, 0x03C, 31, 0⟩
abbrev FARM_STRAGGLE_MS_ms : Fld := ⟨61, 0x048, 23, 0⟩
abbrev FARM_TAGS0_tray : Fld := ⟨61, 0x050, 15, 0⟩
abbrev FARM_TAGS0_shelf : Fld := ⟨61, 0x050, 31, 16⟩
abbrev FARM_TAGS1_loop : Fld := ⟨61, 0x054, 15, 0⟩
abbrev FARM_TAGS1_switch : Fld := ⟨61, 0x054, 31, 16⟩
abbrev FARM_TELEM_DROP_count : Fld := ⟨61, 0x05C, 31, 0⟩
abbrev FARM_CKPT_ADDR_LO_addr : Fld := ⟨61, 0x060, 31, 20⟩
abbrev FARM_CKPT_ADDR_HI_addr : Fld := ⟨61, 0x064, 15, 0⟩
abbrev FARM_CKPT_SIZE_mib : Fld := ⟨61, 0x068, 31, 0⟩
abbrev FARM_CKPT_DIGEST_digest (k : Nat) : Fld := ⟨61, 0x080 + 0x4 * k, 31, 0⟩
abbrev FARM_TAKEOVER_SERIAL_LO_serial : Fld := ⟨61, 0x0C4, 31, 0⟩
abbrev FARM_TAKEOVER_SERIAL_HI_serial : Fld := ⟨61, 0x0C8, 31, 0⟩
abbrev FARM_BOUNDARY_WAIT_ms : Fld := ⟨61, 0x100, 15, 0⟩
abbrev FARM_RELINK_MAX_ms : Fld := ⟨61, 0x104, 7, 0⟩

end F

namespace Ev

abbrev PWR_state_change : Nat := 0
abbrev PWR_refused : Nat := 1
abbrev PWR_service_change : Nat := 2
abbrev THM_warn : Nat := 0
abbrev THM_hot : Nat := 1
abbrev THM_coolant_warn : Nat := 2
abbrev THM_sensor_fail : Nat := 3
abbrev SUP_dip : Nat := 0
abbrev SUP_dip_long : Nat := 1
abbrev SUP_input_warn : Nat := 2
abbrev SEC_attest_done : Nat := 0
abbrev SEC_update_done : Nat := 1
abbrev SEC_update_fail : Nat := 2
abbrev SEC_debug_unlocked : Nat := 3
abbrev SEC_token_refused : Nat := 4
abbrev SEC_rollback_advanced : Nat := 5
abbrev SEC_bank_fallback : Nat := 6
abbrev DISC_done : Nat := 0
abbrev DISC_mismatch : Nat := 1
abbrev DISC_port_absent : Nat := 2
abbrev DISC_rediscovery_fail : Nat := 3
abbrev DIKE_admitted : Nat := 0
abbrev DIKE_violation : Nat := 1
abbrev DIKE_cert_fail : Nat := 2
abbrev DIKE_locked_out : Nat := 3
abbrev DIKE_stall : Nat := 4
abbrev QENG_cfg_err : Nat := 0
abbrev QENG_doorbell_err : Nat := 1
abbrev QENG_cq_overflow : Nat := 2
abbrev QENG_queue_fault : Nat := 3
abbrev QENG_not_placeable : Nat := 4
abbrev QENG_uncorrectable : Nat := 5
abbrev FENCE_overflow : Nat := 0
abbrev FENCE_set_refused : Nat := 1
abbrev JRN_overrun : Nat := 0
abbrev JRN_gap : Nat := 1
abbrev JRN_replay_end : Nat := 2
abbrev JRN_replay_stop : Nat := 3
abbrev JRN_stall : Nat := 4
abbrev JRN_uncorrectable : Nat := 5
abbrev DET_mismatch : Nat := 0
abbrev DET_overflow : Nat := 1
abbrev DET_nonrepro : Nat := 2
abbrev ING_cfg_err : Nat := 0
abbrev ING_drop : Nat := 1
abbrev ING_stale : Nat := 2
abbrev CSI_link_change : Nat := 0
abbrev CSI_header_uncorrectable : Nat := 1
abbrev CSI_crc_error : Nat := 2
abbrev CSI_emb_fail : Nat := 3
abbrev CSI_truncated : Nat := 4
abbrev ETH_link_change : Nat := 0
abbrev ETH_fcs_error : Nat := 1
abbrev ETH_unmatched : Nat := 2
abbrev WARD_ward_fail : Nat := 0
abbrev WARD_deferral : Nat := 1
abbrev WARD_preempt : Nat := 2
abbrev WARD_overrun : Nat := 3
abbrev FUS_released : Nat := 0
abbrev FUS_timeout : Nat := 1
abbrev FUS_disputed_new : Nat := 2
abbrev FUS_sensor_masked : Nat := 3
abbrev FUS_late : Nat := 4
abbrev FUS_late_drop : Nat := 5
abbrev FUS_incomplete : Nat := 6
abbrev FUS_block_fault : Nat := 7
abbrev PROJ_cal_err : Nat := 0
abbrev PROJ_unposed : Nat := 1
abbrev PROJ_cmd_fail : Nat := 2
abbrev EGO_gap : Nat := 0
abbrev EGO_ts_bad : Nat := 1
abbrev EGO_src_switch : Nat := 2
abbrev EGO_ring_uncorrectable : Nat := 3
abbrev COLL_published : Nat := 0
abbrev COLL_publish_refused : Nat := 1
abbrev COLL_saturated : Nat := 2
abbrev COLL_rfx_refused : Nat := 3
abbrev COLL_uncorrectable : Nat := 4
abbrev PLAN_kept : Nat := 0
abbrev PLAN_fallthrough : Nat := 1
abbrev PLAN_no_path : Nat := 2
abbrev PLAN_load_refused : Nat := 3
abbrev PLAN_epoch_advanced : Nat := 4
abbrev PLAN_uncorrectable : Nat := 5
abbrev PLAN_block_fault : Nat := 6
abbrev KV_block_fault : Nat := 0
abbrev KV_resolve_fail : Nat := 1
abbrev KV_pool_low : Nat := 2
abbrev KV_pool_empty : Nat := 3
abbrev KV_state_corrected : Nat := 4
abbrev KV_state_uncorrectable : Nat := 5
abbrev KV_enabled : Nat := 6
abbrev XGS_ready : Nat := 0
abbrev XGS_conflict : Nat := 1
abbrev XGS_member_lost : Nat := 2
abbrev XGS_twin_mismatch : Nat := 3
abbrev XGS_twin_absent : Nat := 4
abbrev XGS_twin_path : Nat := 5
abbrev XGS_lost_agreement : Nat := 6
abbrev XGS_coll_fail : Nat := 7
abbrev XGS_remote_refused : Nat := 8
abbrev XL_up : Nat := 0
abbrev XL_down : Nat := 1
abbrev XL_narrowed : Nat := 2
abbrev XL_fec_uncorrectable : Nat := 3
abbrev PCIE_link_up : Nat := 0
abbrev PCIE_link_down : Nat := 1
abbrev PCIE_poisoned_in : Nat := 2
abbrev PCIE_ur_ca : Nat := 3
abbrev PCIE_bar2_refused : Nat := 4
abbrev ISL_fallback : Nat := 0
abbrev ISL_peer_down : Nat := 1
abbrev ISL_reduced_independence : Nat := 2
abbrev ISL_module_failed : Nat := 3
abbrev ISL_hub_link_down : Nat := 4
abbrev FLT_logged : Nat := 0
abbrev FLT_forward_lost : Nat := 1
abbrev FLT_recovery_query : Nat := 2
abbrev STEST_pass_done : Nat := 0
abbrev STEST_test_fail : Nat := 1
abbrev STEST_reclaim : Nat := 2
abbrev STEST_coverage : Nat := 3
abbrev STEST_stack_spilled : Nat := 4
abbrev STEST_target_done : Nat := 5
abbrev STEST_drain_timeout : Nat := 6
abbrev FARM_boundary : Nat := 0
abbrev FARM_boundary_fail : Nat := 1
abbrev FARM_saved : Nat := 2
abbrev FARM_restored : Nat := 3
abbrev FARM_straggler : Nat := 4
abbrev FARM_takeover_done : Nat := 5
abbrev FARM_relink_done : Nat := 6
abbrev FARM_relink_expired : Nat := 7
abbrev FARM_telem_drop : Nat := 8
abbrev XSLOT_x2h_valid : Nat := 0
abbrev XSLOT_h2x_ack : Nat := 1
abbrev MC_corrected : Nat := 0
abbrev MC_uncorrectable : Nat := 1
abbrev MC_row_retired : Nat := 2
abbrev MC_spares_low : Nat := 3
abbrev MC_retrain : Nat := 4
abbrev MC_temp_high : Nat := 5
abbrev MC_channel_fail : Nat := 6
abbrev MC_cc_uncorrectable : Nat := 7
abbrev MEMG_trained : Nat := 0
abbrev MEMG_train_fail : Nat := 1
abbrev MEMG_retired : Nat := 2
abbrev MEMG_retire_refused : Nat := 3
abbrev MEMG_test_done : Nat := 4
abbrev MEMG_park_ready : Nat := 5
abbrev MEMG_unmapped : Nat := 6
abbrev CD_state_change : Nat := 0
abbrev CD_link_down : Nat := 1
abbrev CD_corrected : Nat := 2
abbrev CD_uncorrectable : Nat := 3
abbrev CD_hotspot : Nat := 4
abbrev ARR_job_done : Nat := 0
abbrev ARR_halted : Nat := 1
abbrev ARR_fault : Nat := 2
abbrev ARR_numeric : Nat := 3
abbrev ARR_lb_corrected : Nat := 4
abbrev ARR_lb_uncorrectable : Nat := 5
abbrev ARR_n_refused : Nat := 6
abbrev ARR_capability_withdrawn : Nat := 7
abbrev ST_step_change : Nat := 0
abbrev ST_corrected : Nat := 1
abbrev ST_uncorrectable : Nat := 2
abbrev ST_grid_degraded : Nat := 3
abbrev PSR_read_done : Nat := 0
abbrev PSR_uncorrectable : Nat := 1
abbrev NOR_read_done : Nat := 0
abbrev NOR_error : Nat := 1

end Ev

end Sys2Proof.Machine
end

