-- ==== Sys2Proof/Machine/Tab.lean ====
section
/-! DEFINITION. Sparse tables: lists of key and value in rising key order. -/

namespace Sys2Proof.Machine

/-- A sparse table: entries in rising key order. -/
abbrev Tab (α : Type) := List (Nat × α)

/-- The entry of key `k`, if listed. -/
def tabFind {α : Type} : Tab α → Nat → Option α
  | [], _ => none
  | (a, v) :: t, k => if a = k then some v else tabFind t k

/-- The entry of key `k`, or `d` when none is listed. -/
def tabGet {α : Type} (t : Tab α) (k : Nat) (d : α) : α :=
  match tabFind t k with
  | some v => v
  | none => d

/-- The table with key `k` set to `v`. -/
def tabSet {α : Type} : Tab α → Nat → α → Tab α
  | [], k, v => [(k, v)]
  | (a, w) :: t, k, v =>
    if k < a then (k, v) :: (a, w) :: t
    else if a = k then (k, v) :: t
    else (a, w) :: tabSet t k v

/-- The table without key `k`. -/
def tabDel {α : Type} (t : Tab α) (k : Nat) : Tab α := t.filter fun e => decide (e.1 ≠ k)

/-- Element `i` of a list changed by `f` (the list unchanged when it has no such element). -/
def listSet {α : Type} : List α → Nat → α → List α
  | [], _, _ => []
  | _ :: t, 0, v => v :: t
  | a :: t, n + 1, v => a :: listSet t n v

/-- A list of naturals read as a set: `k` added, in rising order. -/
def setAdd : List Nat → Nat → List Nat
  | [], k => [k]
  | a :: t, k => if k < a then k :: a :: t else if a = k then a :: t else a :: setAdd t k

/-- A list of naturals read as a set: `k` removed. -/
def setDel (l : List Nat) (k : Nat) : List Nat := l.filter fun a => decide (a ≠ k)

end Sys2Proof.Machine
end

