-- ==== Sys2Proof/Machine/State.lean ====
section
/-! DEFINITION. The state of the Salyel as plain data: the registers of every page, device memory, the state
behind the registers of each block, and the queue of waiting commands. -/

namespace Sys2Proof.Machine

/-- What the fuses and straps of one module hold (R2, R4, R17, R569). They never change. -/
structure Fuses where
  perDie      : Nat
  serial      : DWord
  hubStepping : BitVec 8
  xsPopulated : Bool
  roleSib     : Bool
  bootSrc     : Bool
deriving DecidableEq, Repr

/-- A register as stored: bit by bit three copies (R58). A bit outside a tumbler field never differs between them. -/
structure RegCell where
  c0 : Word
  c1 : Word
  c2 : Word
deriving DecidableEq, Repr

/-- The bitwise majority of the three copies (R58). -/
def RegCell.vote (c : RegCell) : Word := (c.c0 &&& c.c1) ||| (c.c1 &&& c.c2) ||| (c.c0 &&& c.c2)

/-- Three equal copies of a number. -/
def RegCell.of (n : Nat) : RegCell := ⟨BitVec.ofNat 32 n, BitVec.ofNat 32 n, BitVec.ofNat 32 n⟩

/-- The voted number of three copies. -/
def RegCell.num (c : RegCell) : Nat := c.vote.toNat

/-- Condition of a stored 256-bit word other than clean: one bad byte, more bad bytes than the code corrects,
or stored poison (R373, R578). -/
inductive WordCond where
  | one (byte : Fin 36)
  | many
  | poison
deriving DecidableEq, Repr

/-- Where an output of the module goes. -/
inductive OutCh where
  | flit | hinge | bar4Completion | replayRequest | tapReply | sideband | xsReturn
  | memReturn | regReturn | xagusFrame | msi | hostWrite | hostRead | bar2Completion | canFrame | islandFrame
  | islandMessage | releaseEvent | resultMessage | recoveryQuery | statusFrame | fallbackFrame | pairLine | tapCommand
  | rstOut | powerCtl | twinLine | planReturn | reflexReturn | attestReport | telemetry | slowPath
deriving DecidableEq, Repr

/-- One output: where it goes, its numbers, its bytes. -/
structure Out where
  ch   : OutCh
  args : List Nat
  data : List Byte
deriving DecidableEq, Repr

/-- One direction of a Hinge link: at its receiving end the number expected, a replay asked for, replays of one flit failed, the byte
positions corrected at the port, the flits discarded at a port without a CD page; at its sending end the next number, the retry
buffer and that of virtual channel 3 (R13, R14: at most 64 flits each, oldest first), the flits that wait for room. -/
structure Link where
  expect   : Nat := 0
  asked    : Bool := false
  fails    : Nat := 0
  down     : Bool := false
  fixes    : List Nat := []
  discards : Nat := 0
  nextTx   : Nat := 0
  retry    : List Flit := []
  retry3   : List Flit := []
  waits    : List Flit := []
deriving DecidableEq, Repr

/-- An applied Dike window with its token bucket, in 256-bit words (R31, R32). -/
structure Window where
  base   : Nat
  size   : Nat
  perm   : Nat
  rate   : Nat
  burst  : Nat
  tokens : Nat
deriving DecidableEq, Repr

/-- Discovery (R19): running; attempts made per port; ports still awaited; ports of the topology table that answered; which islands have
taken the copy; it has ended, by completion or by a mismatch (R20), and only a module reset starts it again. -/
structure DiscSt where
  running  : Bool := false
  awaiting : List Nat := []
  tries    : Tab Nat := []
  answered : List Nat := []
  sawSia   : Bool := false
  sawSib   : Bool := false
  ended    : Bool := false
  mismatch : Bool := false
deriving DecidableEq, Repr, Inhabited

/-- The Dike behind its registers (R25 to R35): the admission step (0 none, 1 training, 2 chain transfer,
3 verifying), the certificate buffer, the applied windows by number, stalled requests, requests past the Dike and
not complete, a commit that waits for them. -/
structure DikeSt where
  step     : Nat := 0
  cert     : List Byte := []
  inter    : Option (List Byte) := none
  windows  : List (Nat × Window) := []
  stalled  : List XsReq := []
  past     : Nat := 0
  commitQ  : Bool := false
deriving DecidableEq, Repr

/-- A block event at the fault collector on its way to the islands (R441, R471). -/
structure FltEvent where
  page     : Nat
  bit      : Nat
  severity : Nat
  toSia    : Bool
  toSib    : Bool
  position : Nat
  detail   : List Word
  injected : Bool
  act      : Bool
deriving DecidableEq, Repr

/-- A valid entry of a channel's row remap table as MC_REMAP_ENTRY lays it out (R385). -/
structure Remap where
  row   : Nat
  bank  : Nat
  spare : Nat
deriving DecidableEq, Repr

/-- The correction count of one row recently found in error (R385). -/
structure RowErr where
  bank  : Nat
  row   : Nat
  count : Nat
deriving DecidableEq, Repr

/-- A line of the check-bit cache: its check line number, dirty (R374). -/
structure CcLine where
  line  : Nat
  dirty : Bool
deriving DecidableEq, Repr

/-- A memory controller behind its registers (R374 to R390). Per channel: pending words of the write queue
(256-bit word numbers of the channel, oldest first), remap table, rows in error, temperature at training,
training failures. Then the row being retired, the channel in retraining and whether the other follows,
pending injections by channel × 2^26 + unit (1: one byte, 2: two), the check-bit cache by set, the bank last
activated per channel, refreshes issued per bank. -/
structure McSt where
  wq0       : List Nat := []
  wq1       : List Nat := []
  draining  : Bool := false
  remap     : Tab RegCell := []
  rows0     : List RowErr := []
  rows1     : List RowErr := []
  retiring  : Option (Nat × Nat × Nat) := none
  retrain   : Option Nat := none
  retrainQ  : List Nat := []
  trained0  : Int := 0
  trained1  : Int := 0
  fails0    : Nat := 0
  fails1    : Nat := 0
  inject    : Tab Nat := []
  cache     : Tab (List CcLine) := []
  lastBank0 : Nat := 0
  lastBank1 : Nat := 0
  refreshed : Tab Nat := []
deriving DecidableEq, Repr

/-- What the save image of Park preserves (R390): controllers' training values, remap tables, retirement. -/
structure SaveImage where
  mcs     : Tab McSt
  retired : Option Nat
deriving DecidableEq, Repr

/-- A request to DRAM at a channel's controller (R375, R377): a write of one 256-bit word under a byte mask, or a read of one with the
conditions in which its word and its check bytes' word are found. -/
inductive DramReq where
  | write (addr : Nat) (data : Line) (mask : Word) (poison : Bool)
  | read (addr : Nat) (code cc : CodeState)
deriving DecidableEq, Repr

/-- Main memory as a whole behind MEMG (R380 to R391): step of the running training (0: none), the retired
channel, the channel being copied, the channels under test, Park preparation running, channels in self-refresh,
segments kept through the last Park, the save image last written, requests that wait for their channel, oldest first. -/
structure MemgSt where
  step        : Nat := 0
  retired     : Option Nat := none
  copying     : Option Nat := none
  testing     : List Nat := []
  parkPrep    : Bool := false
  selfRefresh : Bool := false
  kept        : List Nat := []
  image       : Option SaveImage := none
  waits       : List DramReq := []
deriving DecidableEq, Repr

/-- An island's own memories (R392, R394): PSRAM data space and its word conditions, NOR. -/
structure IslMem where
  psram     : Tab Byte := []
  psramCond : Tab WordCond := []
  nor       : Tab Byte := []
deriving DecidableEq, Repr

/-- Bytes on their way to the line buffers or to device memory, each run inside one 256-bit word. -/
structure Seg where
  addr   : Nat
  data   : List Byte
  poison : Bool
deriving DecidableEq, Repr, Inhabited

/-- Elements packed in bits on their way to the line buffers: bit address, how many bits, their little-endian number. -/
structure BitSeg where
  bit    : Nat
  n      : Nat
  val    : Nat
  poison : Bool
deriving DecidableEq, Repr, Inhabited

/-- An element of a partial: an FP32 pattern, or an exact sum on the integer path; poisoned or not. -/
structure PElt where
  val : Int
  bad : Bool
deriving DecidableEq, Repr, Inhabited

/-- A K-tile partial on its way to its owner (R88 to R93, R125), with the Hinge identities that it passes: none on its own die, the
dies of its way round the ring, or HB (R10). -/
structure Partial where
  queue : Nat
  index : Nat
  owner : Nat
  key   : Nat
  kLen  : Nat
  t     : Nat
  int   : Bool
  src   : Nat
  els   : List PElt
  via   : List Nat := []
deriving DecidableEq, Repr

/-- An entry of a reduction buffer (R91): the node of the canonical tree over K-tiles lo to lo + n − 1, and its 1,024 values. -/
structure RedNode where
  lo  : Nat
  n   : Nat
  els : List PElt
deriving DecidableEq, Repr

/-- An output tile in flight in a job: its key and owner, K, path, the K-tiles issued, the entries that it
holds in the reduction buffer (Exact mode) or its accumulator (Fast mode, integer path), partials arrived, entries reserved and the array that shows them; size-empty (R145). -/
structure TileSt where
  owner    : Nat
  key      : Nat
  kLen     : Nat
  int      : Bool
  issued   : List Nat
  arrived  : List RedNode := []
  acc      : List PElt := []
  count    : Nat := 0
  flags    : Nat := 0
  reserved : Nat := 0
  die      : Nat := 0
  shown    : Nat := 0
  empty    : Bool := false
deriving DecidableEq, Repr

/-- Elements that a scatter writes when it lands: 0 store, 1 FP32 add, 2 INT32 add; address, pattern, poison. -/
structure Scat where
  mode  : Nat
  items : List (Nat × Nat × Bool)
deriving DecidableEq, Repr

/-- A KV fetch in progress (R177, R178): pages resolved (page and pool) and how many are released. -/
structure KvFetch where
  seq    : Nat
  layer  : Nat
  fmt    : Nat
  block  : Nat
  blocks : Nat
  dst    : Nat
  pages  : List (Nat × Nat) := []
  done   : Nat := 0
  asked  : Nat := 0
deriving DecidableEq, Repr

/-- A KV store in progress (R180, R181): 0 to be requested, 1 waits behind a request for the same entry, 2 copying, 3 copied, 4 done; the
number of its request in the order of arrival (R183). -/
structure KvStore where
  seq    : Nat
  layer  : Nat
  fmt    : Nat
  token  : Nat
  count  : Nat
  segs   : List Seg
  phase  : Nat := 0
  pool   : Nat := 0
  oldPg  : Nat := 0
  newPg  : Nat := 0
  order  : Nat := 0
deriving DecidableEq, Repr

/-- An instruction in flight (R111, R113): its unit, line-buffer word ranges read and written (first, count), what lands
when it completes, answers from outside the module still awaited, the fault it then reports (0: none). -/
structure Fly where
  id    : Nat
  unit  : IssueUnit
  pc    : Nat
  rd    : List (Nat × Nat) := []
  wr    : List (Nat × Nat) := []
  lbW   : List Seg := []
  bitW  : List BitSeg := []
  memW  : List Seg := []
  scat  : Option Scat := none
  parts : List Partial := []
  red   : Option (Nat × Nat × Nat) := none
  bell  : Option (Nat × Nat) := none
  kvF   : Option KvFetch := none
  kvS   : Option KvStore := none
  await : Nat := 0
  flags : Nat := 0
  cause : Nat := 0
deriving DecidableEq, Repr

/-- A row that an LDT placed in the line buffers: first word, words, the tensor descriptor, whether a parameter block shaped it
(R150, R152), its map row (dim2) and dim3, and the map columns (dim1) it holds in order. -/
structure Held where
  word  : Nat
  pitch : Nat
  td    : List Byte
  conv  : Bool
  row   : Int
  i3    : Nat := 0
  cols  : List Nat
deriving DecidableEq, Repr

/-- A read whose answer comes from outside the module (R407, R417): to host memory or to a Xagus member; the array and flight
it feeds, or a DMA job; the job and the ordinal of its host read; the address asked, where the bytes go, how many, and whether they go to host memory; bits that go to a bit address instead (0: bytes). -/
structure ExtRead where
  host    : Bool
  arr     : Option Nat
  fly     : Nat
  queue   : Nat
  index   : Nat
  ordinal : Nat
  addr    : Nat
  dst     : Nat
  len     : Nat
  toHost  : Bool
  bits    : Nat
deriving DecidableEq, Repr

/-- What holds a slot's sequencer (R127 to R131, R92). -/
inductive ArrWait where
  | none
  | fence (kind : Nat)
  | barD (counter target : Nat)
  | barP (object target : Nat)
  | obj (object target : Nat)
  | row (addr row : Nat)
  | rowT (addr row limit target : Nat)
  | held
deriving DecidableEq, Repr

/-- An array behind its registers (R111 to R118): line buffers and their word conditions, injections armed by word,
scalars, tensor descriptors, return stack, the conditions of the words that hold scalars (register div 4) and the stack (word 8),
cycle counter, program held (address, digest, words with their conditions), slot
run, loading, instructions in flight, wait, stop asked by the queue engine (0: another slot faulted, 7: abort), slot
ending, suspect, tiles digested, rows held by conv-stripe loads. -/
structure ArrSt where
  lb       : List Host.Cell := []
  lbCond   : Tab WordCond := []
  inject   : Tab Nat := []
  sr       : List DWord := []
  tds      : List (List Byte) := []
  stack    : List Nat := []
  srCond   : Tab WordCond := []
  cycles   : Nat := 0
  progAddr : Nat := 0
  progDig  : List Byte := []
  words    : List (BitVec 128 × Option WordCond) := []
  slot     : Nat := 0
  loading  : Bool := false
  flights  : List Fly := []
  nextId   : Nat := 0
  wait     : ArrWait := .none
  stop     : Option Nat := none
  ending   : Bool := false
  suspect  : Bool := false
  tiles    : Nat := 0
  held     : List Held := []
deriving DecidableEq, Repr


/-- The page manager behind its registers (R173, R183, R199): the head of each pool's free list, by pool; whether the sweep formats; the
number of the next write request. -/
structure KvSt where
  heads  : Tab Nat := []
  format : Bool := false
  next   : Nat := 0
deriving DecidableEq, Repr


/-- A record that ingress has numbered and not committed (R206): kind, first sequence number, flags, timestamp, ring
offset, length field, data, whether it still waits for the XS die, whether it is the last of a frame. -/
structure IngRec where
  kind  : Nat
  seq   : Nat
  flags : Nat := 0
  ts    : Nat := 0
  off   : Nat := 0
  len   : Nat := 0
  data  : List Byte := []
  xs    : Bool := false
  last  : Bool := false
deriving DecidableEq, Repr

/-- A camera frame in progress (R211, R212): image lines of the present item, image lines and embedded-data lines so
far, damaged, the numbers its slabs took. -/
structure FrameSt where
  lines   : List (List Byte) := []
  count   : Nat := 0
  emb     : List (List Byte) := []
  damaged : Bool := false
  items   : List Nat := []
deriving DecidableEq, Repr

/-- An array as a preemption saves it (R222): its number, its sequencer state without line buffers, its registers that name the job, the pc
and the state. -/
structure SavedArr where
  arr   : Nat
  st    : ArrSt
  words : List (Nat × Word)
deriving DecidableEq, Repr

/-- A ward under way (R220 to R222): its entry, whether the bypass pair is in force, the ward buffer, running, the array preempted for it. -/
structure WardRun where
  entry   : List Byte
  bypass  : Bool
  tile    : List Byte := []
  running : Bool := false
  saved   : Option SavedArr := none
deriving DecidableEq, Repr

/-- A stream (R203 to R226): descriptor read at its enable, next sequence number, score and cause of its last change,
drops, ring offset of the next item, ring ranges held (index of the record once committed, offset, bytes), records not
yet committed, frame in progress, items completed since the last frame start, health records (position, score), items committed (position, sequence
number, timestamp), ward. -/
structure StreamSt where
  desc      : List Byte := []
  seq       : Nat := 0
  scoreC    : RegCell := .of 0
  cause     : Nat := 0
  drops     : Nat := 0
  wr        : Nat := 0
  held      : List (Option Nat × Nat × Nat) := []
  ready     : List IngRec := []
  frame     : Option FrameSt := none
  done      : List Nat := []
  hist      : List (Nat × Nat) := []
  items     : List (Nat × Nat × Nat) := []
  deferrals : Nat := 0
  lastPass  : Bool := false
  ward      : Option WardRun := none
deriving DecidableEq, Repr

/-- The score of a stream (R224), a tumbler field. -/
def StreamSt.score (v : StreamSt) : Nat := v.scoreC.num

/-- An item that the ego-motion engine has yet to take (R232, R233): stream, sequence number, flags, timestamp, data, kind of source. -/
structure EgoItem where
  stream : Nat
  seq    : Nat
  flags  : Nat
  ts     : Nat
  pos    : Nat
  data   : List Byte
deriving DecidableEq, Repr


/-- Three FP32 values along x, y, z. -/
structure V3 where
  x : Nat := 0
  y : Nat := 0
  z : Nat := 0
deriving DecidableEq, Repr

/-- A quaternion of FP32 values w, x, y, z. -/
structure Q4 where
  w : Nat := 0x3F800000
  x : Nat := 0
  y : Nat := 0
  z : Nat := 0
deriving DecidableEq, Repr

/-- A pose (R236): position in units of 2^-20 m, attitude, velocity. -/
structure Pose where
  p : List Int := [0, 0, 0]
  q : Q4 := {}
  v : V3 := {}
deriving DecidableEq, Repr

/-- The ego-motion engine (R230 to R236): its pose, whether an item was accepted, the timestamp of the last accepted one,
a wheel item applied since the last pose record, the biases in force. -/
structure EgoSt where
  pose   : Pose := {}
  some1  : Bool := false
  tPrev  : Nat := 0
  wheel  : Bool := false
  biases : List Nat := [0, 0, 0, 0, 0, 0]
deriving DecidableEq, Repr

/-- The projection engine (R238, R246): calibration words by entry × 32 + word, the delta of each entry that has one. -/
structure ProjSt where
  cal    : Tab Word := []
  deltas : Tab (List Nat) := []
deriving DecidableEq, Repr

/-- A fusion input as its descriptor gives it (R249), used already, with any word of it poisoned, told of as late (R267). -/
structure FusIn where
  seq    : Nat
  sensor : Nat
  kind   : Nat
  ts     : Nat
  pos    : Nat
  grid   : Nat
  dets   : Nat
  count  : Nat
  used   : Bool := false
  bad    : Bool := false
  told   : Bool := false
deriving DecidableEq, Repr

/-- A late input (R267): the released instant it was late for, whether it takes a place of the late lane. -/
structure FusLate where
  inst : Nat
  inp  : FusIn
  lane : Bool
deriving DecidableEq, Repr

/-- An instant requested (R251, R252): its job, number, request, time of taking, sensors timed out with the positions of
their records, and R once it is fixed. -/
structure Instant where
  queue  : Nat
  index  : Nat
  number : Nat
  flags  : Nat
  t      : Nat
  header : Nat
  grid   : Nat
  list   : Nat
  maxTr  : Nat
  outs   : List (Nat × Nat) := []
  r      : Option Nat := none
deriving DecidableEq, Repr

/-- A fusion sensor (R248, R260): its settings, consecutive lost and not-lost instants, dispute mask, what the last instant
showed of it. -/
structure FusSensor where
  validC   : RegCell := .of 0
  window   : Nat := 0
  reach    : Nat := 0
  lost     : Nat := 0
  kept     : Nat := 0
  disputedC : RegCell := .of 0
  weight   : Nat := 0
  health   : Bool := false
  timedOut : Bool := false
deriving DecidableEq, Repr

/-- Is a sensor's entry valid, is the sensor disputed: tumbler fields. -/
def FusSensor.valid (v : FusSensor) : Bool := v.validC.num != 0
def FusSensor.disputed (v : FusSensor) : Bool := v.disputedC.num != 0

/-- The fusion engine (R248 to R268): sensors, instants pending (oldest first), inputs, late inputs, instants released
(number, target time, R), the next number, the last requested target, live track contexts, the time of the last instant,
records that wait for room in the fusion completion queue. -/
structure FusSt where
  sensors  : Tab FusSensor := []
  pending  : List Instant := []
  inputs   : List FusIn := []
  late     : List FusLate := []
  released : List (Nat × Nat × Nat) := []
  next     : Nat := 0
  lastReq  : Option Nat := none
  live     : List Nat := []
  tLast    : Option Nat := none
  records  : List (List Byte) := []
deriving DecidableEq, Repr


/-- A reflex query on a unit (R283, R286): port, epoch, buffer. -/
structure RfxRun where
  port  : Nat
  epoch : Nat
  buf   : Option Nat
deriving DecidableEq, Repr

/-- The collision engine (R280 to R289): current buffer, buffers in use, margin in mm and saturated cells of each
publication, the build under way (buffer, job), ports whose queries wait (in order of arrival), queries running by unit; the bases
of world sets, triangle pool and reflex ports as read at the enable (R310). -/
structure CollSt where
  current  : Option Nat := none
  inUse    : List Nat := []
  margins  : Tab Nat := []
  sat      : Tab Nat := []
  building : Option (Nat × Nat × Nat) := none
  waiting  : List Nat := []
  running  : Tab RfxRun := []
  ws       : Nat := 0
  tri      : Nat := 0
  rfx      : Nat := 0
deriving DecidableEq, Repr

/-- How far a plan query has come (R298): waits for the bank, sweeps, selects, is in its final checks. -/
inductive PlanPhase where
  | waiting | sweeping | selecting | checking
deriving DecidableEq, Repr

/-- A plan query (R292 to R300): its job and command, its number among the PLAN commands of its list (R332), plan slot, roadmap
slot, number, cost and stop tables, the epoch and
buffer and leaf budget of its sweep, bank halves held, per edge 0 survived, 1 blocked, 2 blocked on budget, the selected paths (cost, edges),
the attempt under way (epoch, buffer), the epochs of the attempts made. -/
structure PlanQ where
  queue   : Nat
  index   : Nat
  cmd     : Nat
  tile    : Nat := 0
  slot    : Nat
  rm      : Nat
  number  : Nat
  cost    : Nat
  stops   : Nat
  phase   : PlanPhase := .waiting
  epoch   : Nat := 0
  buf     : Option Nat := none
  budget  : Nat := 512
  halves  : List Nat := []
  edges   : List Nat := []
  paths   : List (Nat × List Nat) := []
  attempt : Option (Nat × Option Nat) := none
  epochs  : List Nat := []
deriving DecidableEq, Repr

/-- The plan engine (R290 to R304): roadmap images bound by slot, queries in order of taking, the last query number taken,
number and flags of the last result written, and bytes 0x00C to 0x8FF of the last valid result, each by plan slot; sweeps whose query
has ended (slot, halves, buffer; R300); the slot base as read at the enable (R310). -/
structure PlanSt where
  maps    : Tab Nat := []
  loading : Option (Nat × Nat) := none
  queries : List PlanQ := []
  numbers : Tab Nat := []
  shown   : Tab (Nat × Nat) := []
  last    : Tab (List Byte) := []
  tails   : List (Nat × List Nat × Option Nat) := []
  base    : Nat := 0
deriving DecidableEq, Repr

/-- A result message of the plan engine to an island (R304), with the pairing index of a twin slot. -/
structure PlanMsg where
  slot   : Nat
  number : Nat
  flags  : Nat
  digest : Nat
  stop   : List Byte
  index  : Nat := 0
deriving DecidableEq, Repr

/-- A queue as the engine caches it (R340, R342). -/
structure QSt where
  enabled   : Bool := false
  disabling : Bool := false
  faulted   : Bool := false
  ring      : Nat := 0
  sizeLog2  : Nat := 0
  kind      : Nat := 0
  flags     : Nat := 0
  producer  : Nat := 0
  consumer  : Nat := 0
  inFlight  : Nat := 0
  cause     : Nat := 0
  lost      : Bool := false
deriving DecidableEq, Repr

/-- How far a job has come (R354). -/
inductive Stage where
  | waiting | released | placed | ended
deriving DecidableEq, Repr

/-- A tile digest and where it was formed (R331, R333). -/
structure TileEnt where
  slot    : Nat
  tile    : Nat
  logical : Nat
  die     : Nat
  phys    : Nat
  digest  : DWord
deriving DecidableEq, Repr

/-- A job slot: 0 not placed, 1 assigned to an array, 2 started on it, 3 ended; its array, its fault, the pc at its end. -/
structure SlotSt where
  phase   : Nat := 0
  die     : Nat := 0
  logical : Nat := 0
  cause   : Nat := 0
  pc      : Nat := 0
deriving DecidableEq, Repr

/-- A job from its taking to its completion (R347 to R361): identity, descriptor bytes, tensor descriptors, the program
chosen and its header, outcome reports (status, detail, where), slots, command position of a hub-engine list, tiles,
marks, release time and order, host reads made, barrier counters by die × 64 + number (R129), output tiles in flight, whether the current list command is under way, the
page changes that the current KV command has made (R185), the plan queries taken from its list. -/
structure Job where
  queue    : Nat
  index    : Nat
  desc     : List Byte
  tds      : List (List Byte) := []
  stage    : Stage := .waiting
  prio     : Bool := false
  program  : Nat := 0
  header   : List Byte := []
  alt      : Bool := false
  exact    : Bool := false
  reports  : List (Nat × Nat × Nat) := []
  slots    : List SlotSt := []
  granted  : List Nat := []
  cmd      : Nat := 0
  stopping : Bool := false
  tiles    : List TileEnt := []
  nonrepro : Bool := false
  dip      : Bool := false
  released : Option Nat := none
  order    : Nat := 0
  reads    : Nat := 0
  bars     : Tab Nat := []
  accs     : List TileSt := []
  busy     : Bool := false
  kvAt     : Nat := 0
  plans    : Nat := 0
deriving DecidableEq, Repr

/-- A journal record as read back in replay (R319). -/
structure JRec where
  kind     : Nat
  flags    : Nat
  src      : Nat
  position : Nat
  aux0     : Nat
  aux1     : Nat
  aux2     : Nat
  payload  : List Byte
deriving DecidableEq, Repr

/-- The journal behind its registers: records staged (oldest first), records that the ring lost and the first lost position, those that
found no room in the staging buffer, a host data record still open (window, address, bytes); in replay the ring offset of the next record, the position expected next, remote signals that arrived live and those
taken from the journal (source × 4096 + object), the first item's timestamp, the hub time at which the segment started. -/
structure JrnSt where
  staged    : List (List Byte) := []
  lost      : Nat := 0
  lostFirst : Nat := 0
  missed    : Nat := 0
  missFirst : Nat := 0
  openData  : Option (Nat × Nat × List Byte) := none
  rptr      : Nat := 0
  expected  : Option Nat := none
  live      : Tab Nat := []
  taken     : Tab Nat := []
  firstTs   : Option Nat := none
  startUs   : Nat := 0
deriving DecidableEq, Repr

/-- One side of a digest comparison (R334); its tile entries were truncated at 4,096 (R333). -/
structure DetEnt where
  queue    : Nat
  index    : Nat
  digest   : DWord
  nonrepro : Bool
  tiles    : List TileEnt
  cut      : Bool := false
deriving DecidableEq, Repr

/-- A logged mismatch (R335): the entries of the first tile that differs; whether both sides carried tile entries. -/
structure DetLog where
  queue : Nat
  index : Nat
  recDigest : DWord
  runDigest : DWord
  replayed : Option TileEnt
  recorded : Option TileEnt
  known    : Bool := false
deriving DecidableEq, Repr

/-- DET: entries unpaired on each side, the log (R334, R335). -/
structure DetSt where
  recorded : List DetEnt := []
  replayed : List DetEnt := []
  log      : List DetLog := []
deriving DecidableEq, Repr

/-- A message of the hub to an island about a safety-relevant job (R452). -/
structure IslMsg where
  release  : Bool
  queue    : Nat
  index    : Nat
  tag      : Nat
  deadline : Nat
  status   : Nat
  flags    : Nat
deriving DecidableEq, Repr


/-- A Xagus neighbour as its HELLO names it (R414). -/
structure XPeer where
  serial : Nat
  link   : Nat
  id     : Nat
  auto   : Bool
  twin   : Bool
  grade  : Nat
  arith  : Nat
deriving DecidableEq, Repr

/-- A Xagus link (R411 to R413): number of the next frame sent, last number received in order, frames not acknowledged
(oldest first), frames that wait for room among them, whether a replay is asked for, the neighbour; relinked to another device, its
frames go out on new routes (R556). Then, by virtual channel, frames of credit that the neighbour returned and frames taken for which
credit is still to be returned. -/
structure XLinkSt where
  nextTx : Nat := 0
  lastRx : Nat := 4095
  retry  : List XFrame := []
  asked  : Bool := false
  peer   : Option XPeer := none
  moved  : Bool := false
  held   : List XFrame := []
  credit : Tab Nat := []
  owed   : Tab Nat := []
deriving DecidableEq, Repr

/-- What a device's link-state record says of it (R414): requested ID, its number, the serials of its neighbours by link,
the serial of the device whose ID it takes over (R555). -/
structure XRec where
  id     : Nat
  auto   : Bool
  twin   : Bool
  arith  : Nat
  number : Nat
  nbrs   : List Nat
  take   : Option Nat := none
deriving DecidableEq, Repr

/-- A member of the domain (R415, R416): serial, arithmetic revision, twin, first link and hops of the route to it. -/
structure XMember where
  serial : Nat
  arith  : Nat
  twin   : Bool
  link   : Nat := 0
  hops   : Nat := 0
deriving DecidableEq, Repr

/-- A remote write or signal not yet acknowledged (R418, R419): the job and slot that issued it, its destination, whether it
is a signal, its device address or object. -/
structure RemOut where
  queue  : Nat
  index  : Nat
  slot   : Nat
  dst    : Nat
  signal : Bool
  key    : Nat
deriving DecidableEq, Repr

/-- A word of a collective's contribution, or of a merge result, as it arrived (R422): member, word number, bytes, poison. -/
structure CollWord where
  result : Bool
  member : Nat
  idx    : Nat
  bytes  : List Byte
  bad    : Bool
deriving DecidableEq, Repr

/-- Xagus (R411 to R423): links, link-state records by serial, the number of its own record, members by ID, remote writes
and signals under way, jobs and slots whose delivery failed, the group table (size word, then rank words), collective slots
with go, those announced to the group, the announcements heard by slot × 32 + member, slots started, words arrived by slot,
failures heard by slot. -/
structure XgsSt where
  links   : Tab XLinkSt := []
  recs    : Tab XRec := []
  number  : Nat := 0
  members : Tab XMember := []
  outs    : List RemOut := []
  lost    : List (Nat × Nat × Nat) := []
  groups  : Tab (List RegCell) := []
  go      : List Nat := []
  said    : List Nat := []
  heard   : Tab (List Byte) := []
  active  : List Nat := []
  data    : Tab (List CollWord) := []
  failed  : Tab Nat := []
deriving DecidableEq, Repr

/-- A result of a twin slot on one side (R425, R427): slot, pairing index, query number, flags, digest, local fault flag. -/
structure TwinRes where
  slot   : Nat
  index  : Nat
  number : Nat
  flags  : Nat
  digest : Nat
  fault  : Bool
deriving DecidableEq, Repr

/-- The twin pairing (R424 to R429): last pairing index by slot, results of each side that wait for the other's, the last
copy taken from Xagus by slot (index, digest), digests that the islands' cross lines brought by island × 64 + slot,
consecutive absences, local fault flags told by the twin (slot, index), faults since the last agreed result, plan stream withdrawn, last agreed index by slot. -/
structure TwinSt where
  index     : Tab Nat := []
  own       : List TwinRes := []
  theirs    : List TwinRes := []
  taken     : Tab (Nat × Nat) := []
  lines     : Tab (Nat × Nat) := []
  absent    : Nat := 0
  told      : List (Nat × Nat) := []
  jobFault  : Bool := false
  islFault  : Bool := false
  withdrawn : Bool := false
  agreed    : Tab Nat := []
deriving DecidableEq, Repr


/-- A deadline timer of an island (R453): its key, descriptor index, deadline, release time and expiry on the island's counter,
open after a dip-marked completion, after any unclean one. -/
structure IslTimer where
  queue    : Nat
  tag      : Nat
  index    : Nat
  deadline : Nat
  release  : Nat
  expiry   : Nat
  dip      : Bool := false
  dirty    : Bool := false
deriving DecidableEq, Repr

/-- A plan as an island keeps it (R457): query number, digest, stop record, the island time at which it became current. -/
structure KeptPlan where
  number : Nat
  digest : Nat
  stop   : List Byte
  since  : Nat
deriving DecidableEq, Repr

/-- A result of a twin slot that waits for the pair's agreement (R426, R459): slot, pairing index, the message. -/
structure PairWait where
  index : Nat
  msg   : PlanMsg
deriving DecidableEq, Repr

/-- A recovery query to FLT (R456): job by queue ID, tag and descriptor index, or the plan slot found stale. -/
structure RecQuery where
  slot  : Option Nat
  queue : Nat
  tag   : Nat
  index : Nat
deriving DecidableEq, Repr

/-- An island behind its view page (R433 to R467, R487, R510, R537). Its firmware runs; it drives its outputs; its counter;
timers, oldest first; kept plans and results that wait for agreement; time of the last result by slot; number of its next
record; records put into the fault ring and into the flight recorder since power-on; power-ons; warning; times of die resets by die and of module resets;
time of the last uncorrectable word by die; time of the last peer failure, peer given up for good, a test of the peer is
under way; dies stopped as too hot; die and module resets decided and not begun; recovery
queries open, hub-engine page whose block reset it asked for; events forwarded and not seen yet; corrections by page (times);
times of the last completed pass by array; repair table sequence number; its power-on boot is still to come; it stays in its ROM;
records of severity critical that it wrote since power-on (R571). -/
structure IslSt where
  running   : Bool := false
  driving   : Bool := false
  time      : Nat := 0
  timers    : List IslTimer := []
  kept      : Tab KeptPlan := []
  waits     : List PairWait := []
  lastRes   : Tab Nat := []
  seq       : Nat := 0
  recs      : Nat := 0
  frs       : Nat := 0
  powerOns  : Nat := 0
  warn      : Bool := false
  dieTimes  : Tab (List Nat) := []
  modTimes  : List Nat := []
  lastBad   : Tab Nat := []
  peerFail  : Option Nat := none
  peerGone  : Bool := false
  testing   : Bool := false
  hot       : List Nat := []
  dieDue    : List Nat := []
  modDue    : List Nat := []
  queries   : List RecQuery := []
  engine    : Option Nat := none
  inbox     : List FltEvent := []
  corr      : Tab (List Nat) := []
  ages      : Tab Nat := []
  repairSeq : Nat := 0
  cold      : Bool := true
  stuck     : Bool := false
  critical  : Nat := 0
deriving DecidableEq, Repr


/-- The rotation on one compute die (R478 to R491): the array of the open window; the array chosen and not yet idle; parts
completed of each array's pass (by array; unlisted 0); capability parts failed in the pass; arrays whose slice was aborted;
arrays still to be tested by a targeted test; the array last taken by the rotation; parts run in the slice, no further part
in it; times of the last completed pass on the hub clock; time the die entered run; arrays to be taken out once their slot
ends; die to be fenced once no slot runs on it; arrays whose age has passed the coverage limit. -/
structure StestDie where
  win     : Option Nat := none
  chosen  : Option Nat := none
  parts   : Tab Nat := []
  aborted : List Nat := []
  targets : List Nat := []
  last    : Option Nat := none
  ran     : Nat := 0
  noMore  : Bool := false
  passed  : Tab Nat := []
  since   : Nat := 0
  outReq  : List Nat := []
  dieOut  : Bool := false
  late    : List Nat := []
deriving DecidableEq, Repr

/-- In-service test behind STEST (R473 to R497): the dies; the stack being copied, whether it returns, its spill area. -/
structure StestSt where
  dies : Tab StestDie := []
  copy : Option (Nat × Bool × Nat) := none
deriving DecidableEq, Repr


/-- A dip interval of a core rail (R508): the rail is below its warning level, lowest voltage, hub time of its opening, the step it
allows, below the level for SUP_DIP_MAX. -/
structure DipSt where
  low   : Bool := true
  minMv : Nat := 0
  since : Nat := 0
  ceil  : Nat := 3
  long  : Bool := false
deriving DecidableEq, Repr

/-- Power behind PWR, SUP and the islands (R498 to R518): open dip intervals by rail; the
state asked for beyond a transition under way; why the module is held in reset (R505, R513, R446, R529: 1 main input,
2 island input, 3 temperature, 4 module failed, 5 no image accepted, 6 straps read differently, R569); a transition waits for arrays
to gate; arrays gated for being idle (R502); rails that left regulation and whose reset is to come (R571). -/
structure PwrSt where
  dips    : Tab DipSt := []
  wanted  : Option Nat := none
  held    : List Nat := []
  warming : Bool := false
  idle    : List Nat := []
  badRails : List Nat := []
deriving DecidableEq, Repr


/-- What the module trusts (R521, R538): digests of the Idelaosh image keys 0 and 1 with their revocation fuses, of the debug
key, of the owner key once enrolled; the serial fused for the XS slot (R539). -/
structure TrustSt where
  image0   : List Byte := []
  image1   : List Byte := []
  revoked0 : Bool := false
  revoked1 : Bool := false
  debug    : List Byte := []
  owner    : Option (List Byte) := none
  siaRom   : List Byte := []
  sibRom   : List Byte := []
  hubRom   : List Byte := []
  xsSerial : DWord := 0#64
  idCert   : List Byte := []
  caCert   : List Byte := []
deriving DecidableEq, Repr

/-- An attestation or certificate request under way (R534): what it writes and where. -/
structure AttestRun where
  addr : Nat
  data : List Byte
deriving DecidableEq, Repr

/-- The hub's choice of firmware image so far in this boot (R528 to R530): sources refused (island × 2 + bank), host boot,
firmware running, commands of the host boot given, hub time of the firmware's start, an activating restart is due, XS keys in
force, the image kept through Park is to be verified again (R531), a bank was given up in this boot, GEN_FW_REV of the kept image. -/
structure BootSt where
  refused  : List Nat := []
  host     : Bool := false
  running  : Bool := false
  src      : Nat := 0
  trial    : Bool := false
  goHub    : Bool := false
  goTest   : Bool := false
  startUs  : Nat := 0
  restart  : Bool := false
  xsKeys   : List Byte := []
  kept     : Bool := false
  fell     : Bool := false
  keptFw   : Word := 0#32
deriving DecidableEq, Repr

/-- The security engine behind SEC (R524, R532 to R542): counters by number, measurement slots and those written this boot,
attestation under way and reports made, update images under way (address list read), unlocked since module reset, boot. -/
structure SecSt where
  trust    : TrustSt := {}
  counters : Tab RegCell := []
  meas     : Tab (List Byte) := []
  attest   : Option AttestRun := none
  reports  : Nat := 0
  update   : Option (List (List Byte)) := none
  unlocked : Bool := false
  boot     : BootSt := {}
deriving DecidableEq, Repr


/-- The farm block (R545 to R556): hub time at which the segment's counters began and at which the record below the boundary
was applied, straggler told, save or restore under way (its image), relinks by link (hub time of go), the identity under
takeover, a segment has begun. -/
structure FarmSt where
  startUs  : Nat := 0
  toldSlow : Bool := false
  save     : Option (List Byte) := none
  restore  : Option (List Byte) := none
  relink   : Tab Nat := []
  taking   : Bool := false
  fresh    : Bool := true
  began    : Bool := false
deriving DecidableEq, Repr


/-- The capabilities of the configuration space (R401). -/
inductive PciCap where
  | powerManagement | pciExpress | msi | aer | deviceSerialNumber | dataLinkFeature
  | phy16 | phy32 | phy64 | laneMargining | flitLogging
deriving DecidableEq, Repr

/-- The configuration space of the host link's function (R401): identifiers, class code and capabilities; the subsystem IDs are 0 until
the hub firmware writes them. Revision and serial number are those of GEN. -/
structure CfgSpace where
  vendor    : BitVec 16 := 0x1FD7#16
  device    : BitVec 16 := 0x7105#16
  classCode : BitVec 24 := 0x120000#24
  subVendor : BitVec 16 := 0#16
  subId     : BitVec 16 := 0#16
  caps      : List PciCap := [.powerManagement, .pciExpress, .msi, .aer, .deviceSerialNumber, .dataLinkFeature, .phy16, .phy32, .phy64,
    .laneMargining, .flitLogging]
deriving DecidableEq, Repr

/-- The state of the Salyel. -/
structure State where
  /-- Registers of every page by page × 512 + offset div 4, those that differ from reset. -/
  regs : Tab RegCell
  /-- Fuses and straps. -/
  fuse : Fuses
  /-- Device memory by device address (R138, R370), canonical. -/
  mem : List Host.Cell
  /-- Conditions of stored 256-bit words of device memory, by address div 32. -/
  cond : Tab WordCond
  /-- Value the last register read returned. -/
  readData : Word
  /-- Outputs of the module since reset, oldest first. -/
  out : List Out
  /-- MODEL: counter of uses of values that the spec leaves open. -/
  freeCtr : Nat
  /-- Requester that armed a page's unlock sequence (R61), by page. -/
  armedBy : Tab Requester
  /-- Hub time in µs. -/
  hubUs : Nat
  /-- Fused unit map of the die in each position, by die (R17). -/
  unitMaps : Tab Nat
  /-- Identity that each die answers over its tap or pair line, by port; unlisted: no die there. -/
  ident : Tab DiscAnswer
  /-- Steppings that the hub firmware accepts (R22). -/
  accepted : List Nat
  /-- Hinge links by receiving identity × 8 + sending identity. -/
  links : Tab Link
  /-- Discovery. -/
  disc : DiscSt
  /-- The Dike. -/
  dike : DikeSt
  /-- Events at the collector, oldest first. -/
  flt : List FltEvent
  /-- Memory controllers, by number. -/
  mcs : Tab McSt
  /-- Main memory as a whole. -/
  memg : MemgSt
  /-- Island memories, by island. -/
  islMem : Tab IslMem
  /-- Arrays, by 24 × die + logical number.. -/
  arrs : Tab ArrSt
  /-- K-tile partials on their way to their owners, oldest first.. -/
  transit : List Partial
  /-- Reads under way to host memory and to Xagus members, by tag.. -/
  ext : Tab ExtRead
  /-- Tag of the next such read.. -/
  extTag : Nat
  /-- The KV page manager (R173). -/
  kv : KvSt
  /-- Streams of ingress, by number (R202). -/
  streams : Tab StreamSt
  /-- Committed items that the ego-motion engine has yet to take, oldest first. -/
  egoIn : List EgoItem
  /-- Ward jobs started since module reset. -/
  wardRuns : Nat
  /-- The ego-motion engine. -/
  ego : EgoSt
  /-- The projection engine. -/
  proj : ProjSt
  /-- The fusion engine. -/
  fus : FusSt
  /-- The collision engine. -/
  coll : CollSt
  /-- The plan engine. -/
  plan : PlanSt
  /-- Result messages under way to each island (R304), oldest first. -/
  planMsgs : Tab (List PlanMsg)
  /-- Queues as the engine caches them, by queue ID. -/
  queues : Tab QSt
  /-- Rotating pointer of the queue scan (R347). -/
  qPtr : Nat
  /-- The pending bitmap (R346): the queue IDs whose bit is set, rising. -/
  qPend : List Nat
  /-- Its summary: the 32-queue words in which a bit is set, rising. -/
  qSumm : List Nat
  /-- Jobs taken and not completed, in order of taking. -/
  jobs : List Job
  /-- Jobs released since module reset (order of release). -/
  relCount : Nat
  /-- Completion records that wait for room, with their completion queue (R360). -/
  cqStaged : List (Nat × List Byte)
  /-- Package fence objects (R362), by number. -/
  fences : Tab Nat
  /-- The input journal. -/
  jrn : JrnSt
  /-- The divergence detector. -/
  det : DetSt
  /-- Job messages under way to each island (R452), oldest first. -/
  islMsgs : Tab (List IslMsg)
  /-- Xagus. -/
  xgs : XgsSt
  /-- The twin pairing. -/
  twin : TwinSt
  /-- The islands, by number. -/
  isl : Tab IslSt
  /-- Records in the FLT log, newest first (R441). -/
  fltLog : List (List Byte)
  /-- Number of the collector's next record. -/
  fltNext : Nat
  /-- In-service test. -/
  stest : StestSt
  /-- The spill area that serves the window of each spilled stack (R492). -/
  spilled : Tab Nat
  /-- Power, supplies, holding of the reset. -/
  pwr : PwrSt
  /-- Boot, identity and attestation. -/
  sec : SecSt
  /-- The replay farm service. -/
  farm : FarmSt
  /-- The configuration space of the host link (R401). -/
  cfg : CfgSpace
  /-- MODEL: commands waiting to be run, first in, first out. -/
  pending : List Instr
deriving DecidableEq, Repr

/-- Why the machine stops. No command of this block stops it: every effect the spec gives is a next state. -/
inductive Fault where
  /-- Raised by no command: the spec gives no command an effect that halts the module as a whole. Safe. -/
  | halted
deriving DecidableEq, Repr

/-- Why a command has no meaning in the model. -/
inductive Refusal where
  /-- Raised by a dispatch arm whose command has no meaning yet; names its row of the table. Safe. -/
  | notModelled (mnemonic : String)
deriving DecidableEq, Repr

/-- The state right after reset: every register at its reset value (no entry in the register table), memories with
nothing listed, no work in progress. -/
def State.reset : State where
  regs := []
  fuse := ⟨24, 0, 0x10#8, false, false, false⟩
  mem := []
  cond := []
  readData := 0#32
  out := []
  freeCtr := 0
  armedBy := []
  hubUs := 0
  unitMaps := []
  ident := []
  accepted := [0x10]
  links := []
  disc := {}
  dike := {}
  flt := []
  mcs := []
  memg := {}
  islMem := []
  arrs := []
  transit := []
  ext := []
  extTag := 0
  kv := {}
  streams := []
  egoIn := []
  wardRuns := 0
  ego := {}
  proj := {}
  fus := {}
  coll := {}
  plan := {}
  planMsgs := []
  queues := []
  qPtr := 0
  qPend := []
  qSumm := []
  jobs := []
  relCount := 0
  cqStaged := []
  fences := []
  jrn := {}
  det := {}
  islMsgs := []
  xgs := {}
  twin := {}
  isl := []
  fltLog := []
  fltNext := 0
  stest := {}
  spilled := []
  pwr := {}
  sec := {}
  farm := {}
  cfg := {}
  pending := []

end Sys2Proof.Machine
end

