-- ==== Sys2Proof/Machine/Regs.lean ====
section
/-! DEFINITION. Named operations on the registers: reading and writing fields, voting, the block events and
interrupts, the common checks of a register access (R45 to R67). -/

namespace Sys2Proof.Machine

/-! ### Register words -/

/-- Reset value of a register word (the chapters' register tables; fuses under R66). -/
def resetWord (fz : Fuses) (page off : Nat) : Word :=
  match pageRun page with
  | none => 0#32
  | some r =>
    match r.blk, off with
    | .gen, 0x24 => BitVec.ofNat 32 (4 * fz.perDie + 256 * fz.perDie)
    | .gen, 0x28 => BitVec.ofNat 32 fz.hubStepping.toNat
    | .gen, 0x2C => BitVec.ofNat 32 fz.serial.toNat
    | .gen, 0x30 => BitVec.ofNat 32 (fz.serial.toNat / 2 ^ 32)
    | .gen, 0x50 => if fz.xsPopulated then 1#32 else 0#32
    | .xgs, 0x34 => if fz.roleSib then 8#32 else 0#32
    | _, _ =>
      if r.blk = .pcie ∧ 0x40 ≤ off ∧ off < 0xC0 then
        let k := (off - 0x40) / 4
        BitVec.ofNat 32 ((4 * k) % 32 + 256 * ((4 * k + 1) % 32) + 65536 * ((4 * k + 2) % 32)
          + 16777216 * ((4 * k + 3) % 32))
      else
        match regAt page off with
        | some d => BitVec.ofNat 32 d.resetNat
        | none => 0#32

/-- Key of a register in the register table. -/
def regKey (page off : Nat) : Nat := page * 512 + off / 4

/-- The stored copies of a register. -/
def State.cell (s : State) (page off : Nat) : RegCell :=
  match tabFind s.regs (regKey page off) with
  | some c => c
  | none => ⟨resetWord s.fuse page off, resetWord s.fuse page off, resetWord s.fuse page off⟩

/-- The voted value of a register (R58). -/
def State.regWord (s : State) (page off : Nat) : Word := (s.cell page off).vote

/-- Bits [hi:lo] of a register word. -/
def Fld.mask (f : Fld) : Word := ((1#32 <<< (f.hi - f.lo + 1)) - 1#32) <<< f.lo

/-- A word with field `f` replaced by `v`. -/
def Fld.ins (f : Fld) (v : Nat) (w : Word) : Word :=
  (w &&& ~~~f.mask) ||| ((BitVec.ofNat 32 v <<< f.lo) &&& f.mask)

/-- The value of field `f` of a word. -/
def Fld.ext (f : Fld) (w : Word) : Nat := ((w &&& f.mask) >>> f.lo).toNat

/-- Number of values of a field. -/
def Fld.size (f : Fld) : Nat := 2 ^ (f.hi - f.lo + 1)

/-- The value of a register field. -/
def State.get (s : State) (f : Fld) : Nat := f.ext (s.regWord f.page f.off)

/-- A register field written by the hardware: all three copies (R58). -/
def State.put (s : State) (f : Fld) (v : Nat) : State :=
  let c := s.cell f.page f.off
  { s with regs := tabSet s.regs (regKey f.page f.off) ⟨f.ins v c.c0, f.ins v c.c1, f.ins v c.c2⟩ }

/-- A one-bit field read as a truth value. -/
def State.flag (s : State) (f : Fld) : Bool := s.get f != 0

/-- A one-bit field written from a truth value. -/
def State.putB (s : State) (f : Fld) (b : Bool) : State := s.put f (if b then 1 else 0)

/-- A whole register word written: all three copies. -/
def State.putWord (s : State) (page off : Nat) (w : Word) : State :=
  { s with regs := tabSet s.regs (regKey page off) ⟨w, w, w⟩ }

/-- A counting field raised by `n`, staying at its largest value (saturating counters). -/
def State.satAdd (s : State) (f : Fld) (n : Nat) : State := s.put f (min (s.get f + n) (f.size - 1))

/-- A saturating counter raised by one. -/
def State.satInc (s : State) (f : Fld) : State := s.satAdd f 1

/-- A counting field raised by `n`, wrapping. -/
def State.count (s : State) (f : Fld) (n : Nat) : State := s.put f ((s.get f + n) % f.size)

/-- A field raised to `v` if it is lower (peak and longest-latency fields). -/
def State.putMax (s : State) (f : Fld) (v : Nat) : State := if s.get f < v then s.put f (min v (f.size - 1)) else s

/-- A 48-bit device address or 64-bit value held in a LO and a HI field that follow each other. -/
def State.addr (s : State) (lo : Fld) : Nat :=
  (s.regWord lo.page lo.off).toNat + 2 ^ 32 * (s.regWord lo.page (lo.off + 4)).toNat

/-- A 64-bit value written to a LO and a HI register that follow each other. -/
def State.putAddr (s : State) (lo : Fld) (v : Nat) : State :=
  (s.putWord lo.page lo.off (BitVec.ofNat 32 v)).putWord lo.page (lo.off + 4) (BitVec.ofNat 32 (v / 2 ^ 32))

/-- The registers of a page back at their reset values, but for the offsets that `keep` names (R66). -/
def State.clearPage (s : State) (page : Nat) (keep : Nat → Bool) : State :=
  { s with
    regs := s.regs.filter fun e => decide (e.1 / 512 ≠ page) || keep (e.1 % 512 * 4)
    armedBy := tabDel s.armedBy page }

/-! ### Outputs and open values -/

/-- An output appended. -/
def State.emit (s : State) (ch : OutCh) (args : List Nat) (data : List Byte := []) : State :=
  { s with out := s.out ++ [⟨ch, args, data⟩] }

/-- A value the spec leaves open, and the counter of such values advanced. -/
def State.fresh (s : State) : Nat × State := (Config.free s.freeCtr, { s with freeCtr := s.freeCtr + 1 })

/-! ### Block events and interrupts (R64, R409, R441) -/

/-- The block interrupt of a page: a status bit set while its enable is set (R64). -/
def State.irqLevel (s : State) (page : Nat) : Bool := (s.regWord page 0x10 &&& s.regWord page 0x14) != 0#32

/-- Is the page routed to the host (PCIE_BLK_HOST)? -/
def State.irqRouted (s : State) (page : Nat) : Bool :=
  (s.get (F.PCIE_BLK_HOST_route (page / 32))).testBit (page % 32)

/-- The MSI pending bit of a vector set (R409). -/
def State.msiPend (s : State) (v : Nat) : State :=
  s.put F.PCIE_MSI_PEND_pending (s.get F.PCIE_MSI_PEND_pending ||| 2 ^ (v % 32))

/-- After a change of a page's status or enables: a rising edge of the interrupt of a routed page raises the
vector PCIE_BLK_VEC (R409). `before` is the level before the change. -/
def State.irqEdge (s : State) (before : Bool) (page : Nat) : State :=
  if !before && s.irqLevel page && s.irqRouted page then s.msiPend (s.get F.PCIE_BLK_VEC_vec) else s

/-- Page offsets 0x020 to 0x03C at an event (R442). -/
def State.pageDetail (s : State) (page : Nat) : List Word :=
  (List.range 8).map fun k => s.regWord page (0x20 + 4 * k)

/-- The next fence position (R317). -/
def State.jrnPos (s : State) : Nat := s.get F.JRN_POS_LO_position + 2 ^ 32 * s.get F.JRN_POS_HI_position

/-- Is event bit `bit` of the page forwarded to the islands? FLT forwards none of its own (R470), and the
island views have no route. -/
def State.forwarded (s : State) (page bit : Nat) : Bool :=
  if page = 59 ∨ page = 57 ∨ page = 58 then false
  else if bit = 31 then s.flag (F.BLK_FAULT_ROUTE_forward_vote page)
  else if bit < 16 then (s.get (F.BLK_FAULT_ROUTE_forward page)).testBit bit
  else false

/-- A block event: its status bit sets whatever its enable (R64), and the event goes to the fault collector
when BLK_FAULT_ROUTE forwards it (R441). -/
def State.raise (s : State) (page bit : Nat) : State :=
  let lvl := s.irqLevel page
  let s1 := (s.putWord page 0x10 (s.regWord page 0x10 ||| (1#32 <<< bit))).irqEdge lvl page
  if s.forwarded page bit then
    let isl := s.get (F.BLK_FAULT_ROUTE_island page)
    { s1 with flt := s1.flt ++ [⟨page, bit, s.get (F.BLK_FAULT_ROUTE_severity page), isl.testBit 0, isl.testBit 1,
        s.jrnPos, s1.pageDetail page, false, true⟩] }
  else s1

/-- The event raised only when `c` holds. -/
def State.raiseIf (s : State) (c : Bool) (page bit : Nat) : State := if c then s.raise page bit else s

/-! ### Register accesses (R45 to R67) -/

/-- State of compute die `d` (CD_STATE.state). -/
def State.cdState (s : State) (d : Nat) : Nat := s.get (F.CD_STATE_state d)

/-- The compute die that carries a page's block, if one does (CD, ST, ARR pages). -/
def pageDie (page : Nat) : Option Nat :=
  if 96 ≤ page ∧ page < 100 then some (page - 96)
  else if 128 ≤ page ∧ page < 224 then some ((page - 128) / 24)
  else if 224 ≤ page ∧ page < 228 then some (page - 224)
  else none

/-- Pages that read 0 and ignore writes (R45). -/
def State.pageUnmapped (s : State) (page : Nat) : Bool :=
  (pageRun page).isNone
    || (decide (128 ≤ page ∧ page < 224) &&
        (decide (s.fuse.perDie ≤ (page - 128) % 24) || s.cdState ((page - 128) / 24) == 0))

/-- Pages of a die that is not in run are answered from the hub's shadow (R46). -/
def State.pageShadow (s : State) (page : Nat) : Bool :=
  match pageDie page with
  | some d => s.cdState d != 3
  | none => false

/-- Pages hidden from the host while the hub boots from it (R530): all but GEN and SEC. -/
def State.bootHides (s : State) (page : Nat) (req : Requester) : Bool :=
  s.sec.boot.host && !s.sec.boot.running && decide (req = .host ∧ page ≠ 0 ∧ page ≠ 4)

/-- Is the hub powered off, in Deep Sleep or Park (R498), or held in reset (R446, R505, R513, R529)? Then no access reaches it. -/
def State.hubOff (s : State) : Bool :=
  s.get F.PWR_STATE_state == 1 || s.get F.PWR_STATE_state == 2 || !s.pwr.held.isEmpty

/-- The identity of an offset within a view (R55). -/
def pageIdent (page off : Nat) : Nat :=
  match pageRun page with
  | some r => off &&& 0x7FC &&& (r.mask * 4)
  | none => 0

/-- access_err with a bit of BLK_STATUS: the event is that the bit became set (02_register_pages, BLK_IRQ_STATUS). -/
def State.accessErr (s : State) (f : Fld) : State :=
  if s.flag f then s else (s.put f 1).raise f.page 29

/-- A narrow write: ignored, width_err set, counted (R47). The mirror pages of the islands ignore every write. -/
def State.narrowWrite (s : State) (page : Nat) : State :=
  let s1 := (s.satInc F.GEN_ACCESS_ERR_narrow).put F.GEN_ACCESS_ERR_last_page page
  if page = 57 ∨ page = 58 ∨ (pageRun page).isNone then s1 else s1.accessErr (F.BLK_STATUS_width_err page)

/-- An access to a page of R45: counted. -/
def State.unmappedAccess (s : State) (page : Nat) : State :=
  (s.satInc F.GEN_ACCESS_ERR_unmapped).put F.GEN_ACCESS_ERR_last_page page

/-- An armed unlock sequence abandoned (R61). -/
def State.disarm (s : State) (page : Nat) : State :=
  if (tabFind s.armedBy page).isSome then
    { s.put (F.BLK_LEVEL_armed page) 0 with armedBy := tabDel s.armedBy page }
  else s

/-- Is an identity expert (R60)? -/
def isExpert (ident : Nat) : Bool := decide (0x100 ≤ ident ∨ ident = 0x01C)

/-- What becomes of a write that reaches a page before the register itself is considered. -/
inductive Gate where
  /-- the write ends here -/
  | stop (s : State)
  /-- the write goes on to the register at this identity -/
  | pass (s : State) (ident : Nat)
deriving DecidableEq, Repr

/-- BLK_LEVEL written (R61 to R63): `word` is the whole value when the write is of the base view and full
width. `wasArmed` is the requester that had armed the page before this write. -/
def State.levelWrite (s : State) (page : Nat) (req : Requester) (word : Option Word)
    (wasArmed : Option Requester) : State :=
  let s1 := s.put (F.BLK_LEVEL_expert page) 0
  match word with
  | none => s1
  | some w =>
    if w = 0x5A5A#32 ∨ w = 0xA5A5#32 then
      if req = .host ∧ s.get F.GEN_HOST_EXPERT_allow = 0 then s1.accessErr (F.BLK_STATUS_level_reject page)
      else if w = 0x5A5A#32 then
        { s1.put (F.BLK_LEVEL_armed page) 1 with armedBy := tabSet s1.armedBy page req }
      else if wasArmed = some req then s1.put (F.BLK_LEVEL_expert page) 1
      else s1
    else s1

/-- A poisoned TLP received (R408). -/
def State.poisonedIn (s : State) : State := (s.satInc F.PCIE_ERR_poisoned_in).raise pgPCIE Ev.PCIE_poisoned_in

/-- The checks that every write passes through, in their order: the hub powered, a requester with a path to the page (R48), a host's TLP
not poisoned (R408), pages of R45, island mirrors, offsets without a register (R57: a narrow write there is counted and sets no width_err), width (R47), shadow (R46), block reset (R67), the unlock sequence (R61, R62), level (R60). -/
def State.gate (s : State) (page off : Nat) (acc : Acc) : Gate :=
  let ident := pageIdent page off
  let wasArmed := tabFind s.armedBy page
  if s.hubOff ∨ (acc.req = .xs ∧ page ≠ 62) then .stop s
  else if acc.req = .host ∧ acc.poisoned then .stop s.poisonedIn
  else if s.pageUnmapped page ∨ s.bootHides page acc.req then
    .stop ((if acc.be = 0xF#4 then s else s.narrowWrite page).unmappedAccess page)
  else if page = 57 ∨ page = 58 then .stop (if acc.be = 0xF#4 then s else s.narrowWrite page)
  else if (regAt page ident).isNone then
    let s1 := if acc.be = 0xF#4 then s else (s.satInc F.GEN_ACCESS_ERR_narrow).put F.GEN_ACCESS_ERR_last_page page
    .stop (if s.pageShadow page ∨ s.flag (F.BLK_STATUS_in_reset page) then s1 else s1.disarm page)
  else if acc.be ≠ 0xF#4 then
    let s1 := (s.narrowWrite page).disarm page
    .stop (if ident = 8 then s1.levelWrite page acc.req none wasArmed else s1)
  else if s.pageShadow page then .stop s
  else if s.flag (F.BLK_STATUS_in_reset page) ∧ ident ≠ 0x00C then .stop s
  else
    let s1 := s.disarm page
    if ident = 8 then
      .stop (s1.levelWrite page acc.req (if acc.view = .base then some acc.val else none) wasArmed)
    else if isExpert ident && !s.flag (F.BLK_LEVEL_expert page) then
      .stop (s1.accessErr (F.BLK_STATUS_level_reject page))
    else .pass s1 ident

/-- Software-writable bits of a register: RW and RWV. -/
def FAcc.writable (a : FAcc) : Bool := a == .rw || a == .rwv

/-- The value that a write of a view offers to the RW and RWV bits (R51 to R53). -/
def viewValue (v : View) (old val : Word) : Word :=
  match v with
  | .base => val
  | .set => old ||| val
  | .clr => old &&& ~~~val
  | .tog => old ^^^ val

/-- The register's next value: writable bits as offered, W1C bits cleared where a base-view write holds 1, all
other bits unchanged (R52). DESIGN CHOICE: a reserved bit is not stored and reads as its reset value 0 whatever was written, which R7
leaves open (assumption 70). -/
def writtenWord (d : RegDef) (v : View) (old val : Word) : Word :=
  let wm := BitVec.ofNat 32 (d.maskOf FAcc.writable)
  let cm := if v = .base then BitVec.ofNat 32 (d.maskOf (· == .w1c)) else 0#32
  (((old &&& ~~~wm) ||| (viewValue v old val &&& wm)) &&& ~~~(val &&& cm))

end Sys2Proof.Machine
end

