-- ==== Sys2Proof/Machine/Mem.lean ====
section
/-! DEFINITION. Device memory: one sparse list of bytes by device address in canonical form, the conditions of its
256-bit words, the address map (R138, R370, R386), what a read of bytes gives and what a write leaves (R373, R578). -/

namespace Sys2Proof.Machine

/-! ### Bytes and numbers -/

/-- The `n` bytes of a number, least significant first. -/
def leBytes : Nat → Nat → List Byte
  | 0, _ => []
  | n + 1, v => BitVec.ofNat 8 v :: leBytes n (v / 256)

/-- The number that bytes spell, least significant first. -/
def leNat : List Byte → Nat
  | [] => 0
  | b :: t => b.toNat + 256 * leNat t

/-- A number of `w` bits read as two's complement. -/
def toSigned (w v : Nat) : Int := if v % 2 ^ w < 2 ^ (w - 1) then (v % 2 ^ w : Int) else (v % 2 ^ w : Int) - 2 ^ w

/-- The low `w` bits of an integer. -/
def ofInt (w : Nat) (i : Int) : Nat := (i % 2 ^ w).toNat

/-- The bytes of a list from `i` on, `n` of them (0 beyond its end). -/
def bytesAt (l : List Byte) (i n : Nat) : List Byte :=
  let t := (l.drop i).take n
  t ++ List.replicate (n - t.length) 0#8

/-- The little-endian number of `n` bytes at offset `i` of a record. -/
def fieldAt (l : List Byte) (i n : Nat) : Nat := leNat (bytesAt l i n)

/-! ### The byte list -/

/-- What an address with no cell reads as (assumption 4: zero). -/
def unlistedByte : Byte := 0#8

/-- The byte at an address. -/
def cellGet : List Host.Cell → Nat → Byte
  | [], _ => unlistedByte
  | (a, b) :: t, k => if a = k then b else cellGet t k

/-- The cell list with the byte at `k` removed. -/
def cellDel : List Host.Cell → Nat → List Host.Cell
  | [], _ => []
  | (a, b) :: t, k => if a = k then t else if k < a then (a, b) :: t else (a, b) :: cellDel t k

/-- The cell list with a listed byte at `k`. -/
def cellPut : List Host.Cell → Nat → Byte → List Host.Cell
  | [], k, v => [(k, v)]
  | (a, b) :: t, k, v =>
    if k < a then (k, v) :: (a, b) :: t
    else if a = k then (k, v) :: t
    else (a, b) :: cellPut t k v

/-- The byte at `k` written, keeping the canonical form: a byte equal to what an unlisted address reads as is
not listed. -/
def cellSet (m : List Host.Cell) (k : Nat) (v : Byte) : List Host.Cell :=
  if v = unlistedByte then cellDel m k else cellPut m k v

/-- The canonical form: addresses strictly rising, no cell equal to what an unlisted address reads as. -/
def memWf : List Host.Cell → Bool
  | [] => true
  | [(_, b)] => b != unlistedByte
  | (a, b) :: (c, d) :: t => (b != unlistedByte) && decide (a < c) && memWf ((c, d) :: t)

/-- Bytes written from address `a` on. -/
def cellWrite : List Host.Cell → Nat → List Byte → List Host.Cell
  | m, _, [] => m
  | m, a, b :: t => cellWrite (cellSet m a b) (a + 1) t

/-- `n` bytes from address `a` on. -/
def cellRead (m : List Host.Cell) (a : Nat) : Nat → List Byte
  | 0 => []
  | n + 1 => cellGet m a :: cellRead m (a + 1) n

/-! ### The address map -/

/-- The regions of device memory (R138, R370, R386, R343, R417); `gap` is a stretch of unmapped addresses. -/
inductive Region where
  | dram | spare
  | stack (n : Nat)
  | pool (n : Nat)
  | hub
  | doorbell
  | member (i : Nat)
  | gap (start : Nat)
deriving DecidableEq, Repr

def dramBase : Nat := 0x004000000000
def hubBase : Nat := 0xFF2000000000
def poolBase (n : Nat) : Nat := 0xFF1000000000 + n * 0x4000000
def stackBase (n : Nat) : Nat := 0xFF0000000000 + n * 0x10000000
def doorbellBase : Nat := 0xFF3000000000
def memberBase (i : Nat) : Nat := 0xFC0000000000 + i * 0x1000000000
/-- Bytes of the DRAM region, and of its usable part while the channel spare is reserved (R370, R386). -/
def dramBytes : Nat := 116416 * 1048576
def dramUsable : Nat := 112778 * 1048576

/-- The region of a device address. A gap is named by the end of the region below it. -/
def State.region (s : State) (a : Nat) : Region :=
  if a < dramBase then .gap 0
  else if a < dramBase + dramUsable then .dram
  else if a < dramBase + dramBytes then (if s.flag F.MEMG_SPARE_reserve then .spare else .dram)
  else if a < memberBase 0 then .gap (dramBase + dramBytes)
  else if a < memberBase 32 then .member ((a - memberBase 0) / 0x1000000000)
  else if a < stackBase 0 then .gap (memberBase 32)
  else if a < stackBase 4 then .stack ((a - stackBase 0) / 0x10000000)
  else if a < poolBase 0 then .gap (stackBase 4)
  else if a < poolBase 4 then .pool ((a - poolBase 0) / 0x4000000)
  else if a < hubBase then .gap (poolBase 4)
  else if a < hubBase + 96 * 1048576 then .hub
  else if a < doorbellBase then .gap (hubBase + 96 * 1048576)
  else if a < doorbellBase + 4 * 1048576 then .doorbell
  else .gap (doorbellBase + 4 * 1048576)

/-- Does a range lie in one region (R139)? -/
def State.oneRegion (s : State) (a n : Nat) : Bool :=
  n == 0 || (s.region a == s.region (a + n - 1)
    && (match s.region a with
        | .stack k => decide (a + n ≤ stackBase (k + 1))
        | .pool k => decide (a + n ≤ poolBase (k + 1))
        | _ => true))

/-- Does a range touch the reduction buffer of a die pool (R139)? -/
def touchesRedBuf (a n : Nat) : Bool :=
  (List.range 4).any fun k => decide (poolBase k + 0x3E00000 < a + n ∧ a < poolBase (k + 1))

/-- Where the bytes of a device address lie: those of a spilled stack in its spill area in DRAM (R141, R492), all others where
they are. -/
def State.place (s : State) (a : Nat) : Nat :=
  if s.spilled.isEmpty then a
  else
    match s.region a with
    | .stack n =>
      match tabFind s.spilled n with
      | some base => base + (a - stackBase n)
      | none => a
    | _ => a

/-- Does an address hold bytes of the store behind this map? -/
def State.storeAt (s : State) (a : Nat) : Bool :=
  match s.region a with
  | .dram | .hub => true
  | .stack n => s.cdState n == 3 || (tabFind s.spilled n).isSome
  | .pool n => s.cdState n == 3
  | _ => false

/-- Is an address unmapped for R370: outside every region, or a doorbell or member window to an agent that has
no way there? -/
def State.unmappedAt (s : State) (a : Nat) : Bool :=
  match s.region a with
  | .gap _ => true
  | _ => false

/-! ### Words and their conditions -/

/-- Numbers of the 256-bit words that a range touches. -/
def wordsOf (a n : Nat) : List Nat :=
  if n = 0 then [] else (List.range ((a + n - 1) / 32 - a / 32 + 1)).map (· + a / 32)

/-- A word condition that a consumer finds poisoned (R373, R384). -/
def WordCond.bad : WordCond → Bool
  | .one _ => false
  | .many => true
  | .poison => true

/-- Does any word of a range read poisoned? A word of a die not in run answers with poison (R141). -/
def State.poisonedAt (s : State) (a n : Nat) : Bool :=
  (wordsOf (s.place a) n).any fun w =>
    !s.storeAt (w * 32) || (match tabFind s.cond w with | some c => c.bad | none => false)

/-- The bytes of a range. -/
def State.bytes (s : State) (a n : Nat) : List Byte := cellRead s.mem (s.place a) n

/-- The bytes of a range and whether any word of it reads poisoned, as a consumer sees them. -/
def State.peek (s : State) (a n : Nat) : List Byte × Bool := (s.bytes a n, s.poisonedAt a n)

/-- The little-endian number at an address. -/
def State.peekNat (s : State) (a n : Nat) : Nat := leNat (s.bytes a n)

/-- The condition of word `w` after a write of `n` bytes at `a` (R373, R578): all 32 bytes written give a word
as it was sent; fewer are merged, and a merged word stays poisoned when its stored word was. -/
def mergeCond (old : Option WordCond) (w a n : Nat) (poison : Bool) : Option WordCond :=
  if poison then some .poison
  else if a ≤ w * 32 ∧ w * 32 + 32 ≤ a + n then none
  else
    match old with
    | some .poison => some .poison
    | some .many => some .poison
    | _ => none

/-- The condition table after a write. -/
def condWrite (c : Tab WordCond) (a n : Nat) (poison : Bool) : Tab WordCond :=
  (wordsOf a n).foldl
    (fun t w =>
      match mergeCond (tabFind t w) w a n poison with
      | some k => tabSet t w k
      | none => tabDel t w) c

/-- A condition table after the injection `k` met a write of word `w` (R107, R397): one bad byte leaves poison in the word as it is,
two make it uncorrectable. -/
def injectCond (c : Tab WordCond) (w k : Nat) : Tab WordCond :=
  if k = 1 then (match tabFind c w with | some .poison => c | _ => tabSet c w (.one 0)) else tabSet c w .many

/-- Bytes stored into mapped memory, no questions asked. -/
def State.poke (s : State) (a : Nat) (bs : List Byte) (poison : Bool := false) : State :=
  { s with mem := cellWrite s.mem (s.place a) bs, cond := condWrite s.cond (s.place a) bs.length poison }

/-- A number stored little-endian. -/
def State.pokeNat (s : State) (a n v : Nat) : State := s.poke a (leBytes n v)

/-- An access to an unmapped range or to the channel spare, counted (R370, R386). -/
def State.countUnmapped (s : State) (a : Nat) : State :=
  match s.region a with
  | .spare => (s.satInc F.MEMG_UNMAPPED_spare_hits).raise pgMEMG Ev.MEMG_unmapped
  | .gap _ => (s.satInc F.MEMG_UNMAPPED_count).raise pgMEMG Ev.MEMG_unmapped
  | _ => s

/-- Channel and channel offset of a DRAM offset (R371). -/
def dramMap (o : Nat) : Nat × Nat :=
  (((o / 512) % 32) ^^^ ((o / 262144) % 32), (o / 16384) * 512 + o % 512)

/-- 113.6875 MiB, the share of each channel in the channel spare (R387). -/
def spareShare : Nat := 119209984

/-- Channel and channel offset that serve a DRAM offset while channel `c` is retired (R387). -/
def dramRedirect (retired : Option Nat) (cx : Nat × Nat) : Nat × Nat :=
  match retired with
  | some c =>
    if cx.1 = c then
      let j := cx.2 / spareShare
      (if j < c then j else j + 1, 31 * spareShare + cx.2 % spareShare)
    else cx
  | none => cx

/-- The controller of a device address in DRAM. -/
def State.mcOf (s : State) (a : Nat) : Nat := (dramRedirect s.memg.retired (dramMap (a - dramBase))).1 / 2

/-- The 256-bit words that a range touches and does not cover: a write of it merges them with what is stored (R578). -/
def partialWords (a n : Nat) : List Nat := (wordsOf a n).filter fun w => !decide (a ≤ w * 32 ∧ w * 32 + 32 ≤ a + n)

/-- Bytes that lie at an address cleared to coded zeros. -/
def State.zeroAt (s : State) (a n : Nat) : State :=
  { s with
    mem := s.mem.filter fun c => decide (c.1 < a ∨ a + n ≤ c.1)
    cond := s.cond.filter fun c => decide (c.1 * 32 < a ∨ a + n ≤ c.1 * 32) }

/-- Bytes of a range cleared to coded zeros. -/
def State.zero (s : State) (a n : Nat) : State := s.zeroAt (s.place a) n

end Sys2Proof.Machine
end

