-- ==== Sys2Proof/Machine/McOps.lean ====
section
/-! DEFINITION. Main memory behind its registers (12_memory_system): spillway causes and modes, write queue,
check-bit cache, error logging and row retirement, channel retirement, segments, and the loads and stores that every
agent uses. -/

namespace Sys2Proof.Machine

/-- Controller `k`. -/
def State.mc (s : State) (k : Nat) : McSt := tabGet s.mcs k {}

/-- Controller `k` replaced. -/
def State.setMc (s : State) (k : Nat) (m : McSt) : State := { s with mcs := tabSet s.mcs k m }

/-- The write queue of channel `ch` of a controller. -/
def McSt.wq (m : McSt) (ch : Nat) : List Nat := if ch = 0 then m.wq0 else m.wq1

/-- The write queue of channel `ch` replaced. -/
def McSt.setWq (m : McSt) (ch : Nat) (q : List Nat) : McSt := if ch = 0 then { m with wq0 := q } else { m with wq1 := q }

/-- The spillway causes of R378 that hold for controller `k`, lowest first. -/
def State.spillCauses (s : State) (k : Nat) : List Nat :=
  (if s.get F.MEMG_STATUS_state = 2 ∨ s.get F.MEMG_STATUS_state = 3 then [1] else [])
  ++ (if s.memg.testing.any fun c => decide (c / 2 = k) then [2] else [])
  ++ (if (s.mc k).retiring.isSome then [3] else [])
  ++ (if (s.mc k).retrain.isSome then [4] else [])
  ++ (match s.memg.copying with | some c => if c / 2 = k then [5] else [] | none => [])
  ++ (if s.flag (F.MC_CTRL_hold_spill k) then [6] else [])
  ++ (if s.memg.parkPrep then [7] else [])

/-- MC_WQ.entries and peak after a change of a write queue. -/
def State.wqShow (s : State) (k : Nat) : State :=
  let n := max (s.mc k).wq0.length (s.mc k).wq1.length
  (s.put (F.MC_WQ_entries k) n).putMax (F.MC_WQ_peak k) n

/-- The write queues of a controller drained to empty. -/
def State.wqEmpty (s : State) (k : Nat) : State :=
  (s.setMc k { s.mc k with wq0 := [], wq1 := [], draining := false }).wqShow k

/-- The mode of controller `k` decided anew (R378): normal only when no cause holds and MEMG_CTRL.normal is 1; on
leaving spillway mode the write queue drains to empty first. Off and training (modes 0 and 1) stay. -/
def State.mcMode (s : State) (k : Nat) : State :=
  let m := s.get (F.MC_STATUS_mode k)
  if m < 2 then s
  else
    match s.spillCauses k with
    | c :: _ => (s.put (F.MC_STATUS_mode k) 2).put (F.MC_STATUS_spill_cause k) c
    | [] =>
      if s.flag F.MEMG_CTRL_normal then
        ((if m = 2 then s.wqEmpty k else s).put (F.MC_STATUS_mode k) 3).put (F.MC_STATUS_spill_cause k) 0
      else (s.put (F.MC_STATUS_mode k) 2).put (F.MC_STATUS_spill_cause k) 0

/-- Every controller's mode decided anew. -/
def State.mcModes (s : State) : State := (List.range 16).foldl State.mcMode s

/-- MEMG_STATUS.state moves from start-up to normal once MEMG_CTRL.normal is set and every segment is swept. -/
def State.memgNormal (s : State) : State :=
  (if s.get F.MEMG_STATUS_state = 3 ∧ s.flag F.MEMG_CTRL_normal ∧ s.get F.MEMG_STATUS_ready_segments = 0xFF then
    s.put F.MEMG_STATUS_state 4
  else s).mcModes

/-! ### Addresses -/

/-- Channel and channel offset that serve DRAM offset `o`, after a retirement (R371, R387). -/
def State.dramAt (s : State) (o : Nat) : Nat × Nat := dramRedirect s.memg.retired (dramMap o)

/-- Row, bank and 64-byte unit of a channel offset (R369). -/
def rowOf (x : Nat) : Nat := x / 32768
def bankOf (x : Nat) : Nat := x / 2048 % 16
def unitOf (x : Nat) : Nat := x / 64 % 32

/-- The DRAM offset that channel `c` holds at channel offset `x` by R371. -/
def dramInverse (c x : Nat) : Nat :=
  let g := x / 512
  g * 16384 + 512 * (c ^^^ (g / 16 % 32)) + x % 512

/-- The DRAM offset served at offset `x` of channel `c`, with a retirement undone (R387). -/
def State.dramFrom (s : State) (c x : Nat) : Nat :=
  match s.memg.retired with
  | some r =>
    if c ≠ r ∧ 31 * spareShare ≤ x then
      let j := if c < r then c else c - 1
      dramInverse r (j * spareShare + (x - 31 * spareShare))
    else dramInverse c x
  | none => dramInverse c x

/-- Is the segment that serves DRAM offset `o` swept (R380)? -/
def State.segReady (s : State) (o : Nat) : Bool :=
  (s.get F.MEMG_STATUS_ready_segments).testBit ((s.dramAt o).2 / 536870912)

/-! ### Check-bit cache (R374) -/

/-- An access to the check line of channel offset `x`: a hit moves it to the front, a miss is counted and evicts
the least recently used of eight lines. The set is the line number modulo 128 (assumption 8). -/
def State.ccAccess (s : State) (k ch x : Nat) (write : Bool) : State :=
  let line := x / 512 * 2 + ch
  let m := s.mc k
  let set := tabGet m.cache (line % 128) []
  match set.find? fun l => decide (l.line = line) with
  | some l =>
    s.setMc k { m with
      cache := tabSet m.cache (line % 128)
        (⟨line, l.dirty || write⟩ :: set.filter fun l => decide (l.line ≠ line)) }
  | none =>
    (s.setMc k { m with cache := tabSet m.cache (line % 128) (⟨line, write⟩ :: set.take 7) }).count
      (F.MC_CC_MISS_count k) 1

/-- Every dirty check line written back. -/
def McSt.ccClean (m : McSt) : McSt :=
  { m with cache := m.cache.map fun e => (e.1, e.2.map fun l => { l with dirty := false }) }

/-! ### Write queue (R375 to R379) -/

/-- The next pending word to issue: rotating over the banks from the one after the last activated, oldest first
within a bank (R376). -/
def pickBank (q : List Nat) (last : Nat) : Option Nat :=
  (List.range 16).findSome? fun i => q.find? fun w => decide (bankOf (w * 32) = (last + 1 + i) % 16)

/-- One pending write issued to DRAM. -/
def McSt.issueOne (m : McSt) (ch : Nat) : McSt :=
  match pickBank (m.wq ch) (if ch = 0 then m.lastBank0 else m.lastBank1) with
  | none => m
  | some w =>
    let m1 := m.setWq ch ((m.wq ch).filter (· ≠ w))
    if ch = 0 then { m1 with lastBank0 := bankOf (w * 32) } else { m1 with lastBank1 := bankOf (w * 32) }

/-- Writes issued until `n` are left. -/
def McSt.issueTo (m : McSt) (ch n : Nat) : Nat → McSt
  | 0 => m
  | fuel + 1 => if n < (m.wq ch).length then (m.issueOne ch).issueTo ch n fuel else m

/-- A write of word `w` of channel `ch` enters the write queue of controller `k`: it coalesces with a pending
write of the word, and in spillway mode a queue that reaches MC_SPILL.high drains to MC_SPILL.low (R375, R379). In
normal mode a full queue first issues one write. -/
def State.wqAccept (s : State) (k ch w : Nat) : State :=
  let m := s.mc k
  if (m.wq ch).contains w then s
  else
    let m1 := if (m.wq ch).length < 64 then m else m.issueTo ch 63 64
    let m2 := m1.setWq ch (m1.wq ch ++ [w])
    if s.get (F.MC_STATUS_mode k) = 2 ∧ s.get (F.MC_SPILL_high k) ≤ (m2.wq ch).length then
      (((s.setMc k m2).wqShow k).setMc k (m2.issueTo ch (s.get (F.MC_SPILL_low k)) 64)).satInc (F.MC_WQ_drains k)
        |>.wqShow k
    else (s.setMc k m2).wqShow k

/-- A flush begun: it serves whatever waits for it (R379). -/
def State.flushStart (s : State) (k : Nat) : State := s.put (F.MC_STATUS_flushing k) 1

/-- A flush ended: the queues are empty and no check line is dirty. -/
def State.flushEnd (s : State) (k : Nat) : State :=
  ((s.wqEmpty k).setMc k ((s.wqEmpty k).mc k).ccClean).put (F.MC_STATUS_flushing k) 0

/-- First channel offset of the check rows and of the spare rows (R372). -/
def checkBase : Nat := 3638 * 1048576
def spareBase : Nat := 130968 * 32768

/-- The channel offset of the four check bytes of the word at channel offset `x` (R372). -/
def checkOff (x : Nat) : Nat := checkBase + x / 512 * 64 + x % 512 / 32 * 4

/-- The channel offsets of the eight words whose check bytes lie in the 32-byte word at offset `y` of the check rows (R372). -/
def checkedBy (y : Nat) : List Nat := (List.range 8).map fun i => (y - checkBase) / 64 * 512 + (y - checkBase) % 64 / 32 * 256 + i * 32

/-! ### Errors and row retirement (R384, R385) -/

/-- Location registers of the last error. -/
def State.errLoc (s : State) (k ch x byte : Nat) (scrub : Bool) (cache : Bool := false) : State :=
  let s1 := ((((s.put (F.MC_LAST_ERR_LOC_ch k) ch).put (F.MC_LAST_ERR_LOC_bank k) (bankOf x)).put
    (F.MC_LAST_ERR_LOC_row k) (rowOf x)).put (F.MC_LAST_ERR_LOC_unit k) (unitOf x)).put
    (F.MC_LAST_ERR_LOC_word k) (x / 32 % 2)
  ((s1.put (F.MC_LAST_ERR_KIND_byte k) byte).putB (F.MC_LAST_ERR_KIND_by_scrub k) scrub).putB
    (F.MC_LAST_ERR_KIND_check_cache k) cache

/-- A remap entry as its register's voted value lays it out: row, bank, spare, valid (R385). -/
def remapOf (w : Word) : Option Remap :=
  if w.getLsbD 31 then some ⟨w.toNat % 131072, w.toNat / 131072 % 16, w.toNat / 2097152 % 128⟩ else none

/-- The register value of a valid remap entry. -/
def remapNat (r : Remap) : Nat := r.row + 131072 * r.bank + 2097152 * r.spare + 2147483648

/-- The valid remap entries of a controller, by channel × 64 + entry; their registers are tumbler fields (R58). -/
def McSt.entries (m : McSt) : List (Nat × Remap) := m.remap.filterMap fun e => (remapOf e.2.vote).map fun r => (e.1, r)

/-- Spare rows of a bank of a channel that valid remap entries hold. -/
def McSt.sparesUsed (m : McSt) (ch bank : Nat) : List Nat :=
  m.entries.filterMap fun e => if e.1 / 64 = ch ∧ e.2.bank = bank then some e.2.spare else none

/-- Number of valid remap entries of a channel. -/
def McSt.remapCount (m : McSt) (ch : Nat) : Nat := (m.entries.filter fun e => decide (e.1 / 64 = ch)).length

/-- Is a row already served from a spare? -/
def McSt.remapped (m : McSt) (ch bank row : Nat) : Bool :=
  m.entries.any fun e => decide (e.1 / 64 = ch ∧ e.2.bank = bank ∧ e.2.row = row)

/-- A row that reached its threshold or lost a word: its retirement starts with a flush, or the row stays in use
with spares_low raised when the remap table or the bank's spares are used up (R385). -/
def State.rowRetireStart (s : State) (k ch bank row : Nat) : State :=
  let m := s.mc k
  if m.remapped ch bank row ∨ m.retiring.isSome then s
  else if 64 ≤ m.remapCount ch ∨ 104 ≤ (m.sparesUsed ch bank).length then s.raise (pgMC k) Ev.MC_spares_low
  else ((s.setMc k { m with retiring := some (ch, bank, row) }).flushStart k).mcMode k

/-- The correction counts of a channel after one more correction in a row: the 32 rows most recently found in error. -/
def bumpRow (rows : List RowErr) (bank row : Nat) : List RowErr × Nat :=
  let n := match rows.find? fun r => decide (r.bank = bank ∧ r.row = row) with
    | some r => r.count + 1
    | none => 1
  ((⟨bank, row, n⟩ :: rows.filter fun r => decide (¬(r.bank = bank ∧ r.row = row))).take 32, n)

/-- A corrected word of DRAM logged, and its row counted (R384, R385). -/
def State.mcCorrected (s : State) (k ch x : Nat) (byte : Nat) (scrub : Bool) : State :=
  let m := s.mc k
  let r := bumpRow (if ch = 0 then m.rows0 else m.rows1) (bankOf x) (rowOf x)
  let s1 := s.setMc k (if ch = 0 then { m with rows0 := r.1 } else { m with rows1 := r.1 })
  let s2 := ((s1.satInc (if ch = 0 then F.MC_CORR_ch0 k else F.MC_CORR_ch1 k)).errLoc k ch x byte scrub).raise
    (pgMC k) Ev.MC_corrected
  let thr := s.get (F.MC_ROW_THRESH_corrections k)
  if thr ≠ 0 ∧ thr ≤ r.2 then s2.rowRetireStart k ch (bankOf x) (rowOf x) else s2

/-- An uncorrectable word of DRAM counted and logged; its row is retired (R384, R385). -/
def State.mcUncorrectable (s : State) (k ch x : Nat) (scrub : Bool) : State :=
  (((s.satInc (if ch = 0 then F.MC_UNCORR_ch0 k else F.MC_UNCORR_ch1 k)).errLoc k ch x 63 scrub).raise
    (pgMC k) Ev.MC_uncorrectable).rowRetireStart k ch (bankOf x) (rowOf x)

/-- A word of the check-bit cache found corrected or uncorrectable at an access to channel offset `x` (R374, R384): logged with
check_cache set; an uncorrectable one poisons the eight words whose check bytes it holds, its line goes, cc_uncorrectable. `w` is the
first of the eight words in device memory. -/
def State.cacheWord (s : State) (k ch x w : Nat) (code : CodeState) : State :=
  match code with
  | .clean => s
  | .one b => ((s.satInc (if ch = 0 then F.MC_CORR_ch0 k else F.MC_CORR_ch1 k)).errLoc k ch (checkOff x) b.val false true).raise
      (pgMC k) Ev.MC_corrected
  | .many =>
    let line := x / 512 * 2 + ch
    let m := s.mc k
    let s1 := { s.setMc k { m with
        cache := tabSet m.cache (line % 128) ((tabGet m.cache (line % 128) []).filter fun l => decide (l.line ≠ line)) } with
      cond := (List.range 8).foldl (fun c i => tabSet c (w + i) .poison) s.cond }
    (((s1.satInc (if ch = 0 then F.MC_UNCORR_ch0 k else F.MC_UNCORR_ch1 k)).errLoc k ch (checkOff x) 63 false true).raise
      (pgMC k) Ev.MC_uncorrectable).raise (pgMC k) Ev.MC_cc_uncorrectable

/-- The stored words among `ws` that read uncorrectable become stored poison (copies of R385 and R388). -/
def condPoison (c : Tab WordCond) (p : Nat → Bool) : Tab WordCond :=
  c.map fun e => (e.1, if p e.1 && e.2 == .many then .poison else e.2)

/-- MC_ROWS_RETIRED after a change of the remap table. -/
def State.rowsShow (s : State) (k : Nat) : State :=
  (s.put (F.MC_ROWS_RETIRED_ch0 k) ((s.mc k).remapCount 0)).put (F.MC_ROWS_RETIRED_ch1 k) ((s.mc k).remapCount 1)

/-- The first natural below `n` that is not in the list. -/
def firstFree (used : List Nat) (n : Nat) : Option Nat := (List.range n).find? fun i => !used.contains i

/-- A row served from the lowest free spare of its bank: remap entry written, spillway left (R385). -/
def State.rowRetire (s : State) (k ch bank row : Nat) : State :=
  let m := s.mc k
  let used := (m.entries.filter fun e => decide (e.1 / 64 = ch)).map fun e => e.1 % 64
  match firstFree used 64, firstFree (m.sparesUsed ch bank) 104 with
  | some i, some sp =>
    let c := 2 * k + ch
    let s1 := s.setMc k { m with retiring := none, remap := tabSet m.remap (ch * 64 + i) (.of (remapNat ⟨row, bank, sp⟩)) }
    let inRow := fun w =>
      let cx := s.dramAt (w * 32 - dramBase)
      decide (dramBase ≤ w * 32 ∧ w * 32 < dramBase + dramBytes ∧ cx.1 = c ∧ rowOf cx.2 = row ∧ bankOf cx.2 = bank)
    let s2 := { s1 with cond := condPoison s1.cond inRow }
    let s3 := ((s2.rowsShow k).raise (pgMC k) Ev.MC_row_retired).mcMode k
    s3.raiseIf (decide (104 - ((s3.mc k).sparesUsed ch bank).length < 8)) (pgMC k) Ev.MC_spares_low
  | _, _ => (s.setMc k { m with retiring := none }).mcMode k

/-! ### Channel retirement (R386 to R388) -/

/-- Channel `c` retired: the remapping of R387 takes effect, its retired bit and MEMG_RETIRE_STATE show it. -/
def State.channelGone (s : State) (c : Nat) : State :=
  let k := c / 2
  let s1 := { s with memg := { s.memg with retired := some c, copying := none } }
  let s2 := s1.put (F.MC_STATUS_retired k) (s.get (F.MC_STATUS_retired k) ||| 2 ^ (c % 2))
  ((((s2.put F.MEMG_RETIRE_STATE_channel c).put F.MEMG_RETIRE_STATE_retired 1).put
    F.MEMG_RETIRE_STATE_copying 0).raise pgMEMG Ev.MEMG_retired).mcModes

/-- A retirement request refused (R388). -/
def State.retireRefused (s : State) : State := (s.put F.MEMG_RETIRE_STATE_refused 1).raise pgMEMG Ev.MEMG_retire_refused

/-- A channel that failed for good (R382): retired at once when the spare is reserved and no channel is retired
yet; otherwise main memory is in error and closed. -/
def State.channelFailed (s : State) (c : Nat) : State :=
  let k := c / 2
  let s1 := ((s.put (F.MC_STATUS_ch_fail k) (s.get (F.MC_STATUS_ch_fail k) ||| 2 ^ (c % 2))).put
    F.MEMG_TRAIN_failed (s.get F.MEMG_TRAIN_failed ||| 2 ^ k)).raise (pgMC k) Ev.MC_channel_fail
  if s.flag F.MEMG_SPARE_reserve ∧ s.memg.retired = none then s1.channelGone c
  else (s1.put F.MEMG_STATUS_state 6).raise pgMEMG Ev.MEMG_train_fail

/-! ### Access conditions -/

/-- May the channel serve an access to DRAM offset `o` now? Not while its segment is unswept, main memory is in error or
in self-refresh, the channel is in retraining or under test, or its row is being retired (R380, R382, R383, R385, R398). -/
def State.dramOpen (s : State) (o : Nat) : Bool :=
  let cx := s.dramAt o
  let m := s.mc (cx.1 / 2)
  s.segReady o && s.get F.MEMG_STATUS_state != 6 && !s.memg.selfRefresh && !s.memg.testing.contains cx.1
    && m.retrain != some (cx.1 % 2) && m.retiring != some (cx.1 % 2, bankOf cx.2, rowOf cx.2)

/-- What an access to DRAM word `w` does at its controller (R374, R375, R377): a read of a unit with a pending write is counted, the
check line is looked up, a write enters the write queue. Words that no channel serves now touch nothing (assumption 15). -/
def State.mcTouch (s : State) (write : Bool) (w : Nat) : State :=
  if s.region (w * 32) = .dram ∧ s.dramOpen (w * 32 - dramBase) then
    let cx := s.dramAt (w * 32 - dramBase)
    let k := cx.1 / 2
    let ch := cx.1 % 2
    if write then (s.ccAccess k ch cx.2 true).wqAccept k ch (cx.2 / 32)
    else
      (if ((s.mc k).wq ch).any fun v => decide (v / 2 = cx.2 / 64) then s.count (F.MC_FWD_COUNT_count k) 1 else s).ccAccess
        k ch cx.2 false
  else s

/-- An access to `n` bytes from `a` on at the controllers that serve them. -/
def State.mcTouches (s : State) (write : Bool) (a n : Nat) : State :=
  (wordsOf (s.place a) n).foldl (fun s w => s.mcTouch write w) s

/-! ### Loads and stores of the module's agents -/

/-- The error of a word that is read, counted and logged (R384, R385 for DRAM; CD_POOL_ERR and ST counters for die pools and
stacks); stored poison is no new error (R373). -/
def State.logRead (s : State) (w : Nat) : State :=
  match tabFind s.cond w with
  | none | some .poison => s
  | some c =>
    let bad := c.bad
    let byte := match c with | .one b => b.val | _ => 63
    match s.region (w * 32) with
    | .dram =>
      let cx := s.dramAt (w * 32 - dramBase)
      if bad then s.mcUncorrectable (cx.1 / 2) (cx.1 % 2) cx.2 false else s.mcCorrected (cx.1 / 2) (cx.1 % 2) cx.2 byte false
    | .pool n =>
      (if bad then s.satInc (F.CD_POOL_ERR_uncorrectable n) else s.satInc (F.CD_POOL_ERR_corrected n)).raise
        (pgCD n) (if bad then Ev.CD_uncorrectable else Ev.CD_corrected)
    | .stack n =>
      let byteHi := if bad then 15 else byte / 2
      let s1 := if bad then s.count (F.ST_UNCORR_COUNT_count n) 1 else s.count (F.ST_CORR_COUNT_count n) 1
      ((s1.put (F.ST_LAST_ERR_ADDR_word n) (w - stackBase n / 32)).put (F.ST_LAST_ERR_ADDR_byte_hi n) byteHi).raise
        (pgST n) (if bad then Ev.ST_uncorrectable else Ev.ST_corrected)
    | _ => s

/-- A device read by an agent of the module: the bytes, whether they are poisoned, errors logged, unmapped accesses
counted (R370, R374, R377). -/
def State.load (s : State) (a n : Nat) : State × List Byte × Bool :=
  if s.storeAt a then
    let r := s.peek a n
    ((wordsOf (s.place a) n).foldl State.logRead (s.mcTouches false a n), r.1, r.2)
  else (s.countUnmapped a, List.replicate n 0#8, true)

/-- A device write by an agent of the module (R370, R375, R578): stored where memory lies, a word not covered read first as any
read; ignored and counted where the address is unmapped, lost where the die is not in run. -/
def State.storeRaw (s : State) (a : Nat) (bs : List Byte) (poison : Bool := false) : State :=
  if s.storeAt a then
    ((partialWords (s.place a) bs.length).foldl State.logRead (s.mcTouches true a bs.length)).poke a bs poison
  else s.countUnmapped a

/-- The corruption that an injection waiting for word 0 of the unit makes at this write (R397, R107): one_byte
inverts byte 0, two_bytes bytes 0 and 1. -/
def State.applyInject (s : State) (w : Nat) : State :=
  if s.region (w * 32) = .dram ∧ w % 2 = 0 then
    let cx := s.dramAt (w * 32 - dramBase)
    let k := cx.1 / 2
    let key := cx.1 % 2 * 67108864 + cx.2 / 64
    match tabFind (s.mc k).inject key with
    | some n =>
      { s.setMc k { s.mc k with inject := tabDel (s.mc k).inject key } with
        cond := injectCond s.cond w n }
    | none => s
  else s

/-- The reflex port whose slot holds an address, while COLL runs (R286). -/
def State.rfxPortAt (s : State) (a : Nat) : Option Nat :=
  let b := s.coll.rfx
  if s.flag F.COLL_CTRL_enable ∧ b ≤ a ∧ a < b + 32768 then some ((a - b) / 512) else none

/-- The island that alone may write a port (R287): SIA ports 0 to 3, SIB ports 4 to 7. -/
def portIsland (p : Nat) : Option Nat := if p < 4 then some 0 else if p < 8 then some 1 else none

/-- A write inside one 256-bit word of a reflex port's slot (R287): ignored from an agent that may not write the port, and where
it sets go while the port's query waits or runs; otherwise a control word with go set makes the query wait. -/
def State.rfxWrite (s : State) (isl : Option Nat) (p a : Nat) (bs : List Byte) (poison : Bool) : State :=
  let busy := s.coll.waiting.contains p || s.coll.running.any fun r => decide (r.2.port = p)
  let control := (a - s.coll.rfx) % 512 == 0
  let go := control && (bs.getD 0 0#8).getLsbD 0
  if p < 8 ∧ portIsland p ≠ isl then s
  else if go ∧ busy then s
  else
    let s1 := s.storeRaw a bs poison
    if go then { s1 with coll := { s1.coll with waiting := s1.coll.waiting ++ [p] } } else s1

/-- Bytes cut where 256-bit words begin. -/
def cutWords : Nat → Nat → List Byte → List (Nat × List Byte)
  | 0, _, _ => []
  | n + 1, a, bs =>
    if bs.isEmpty then []
    else
      let k := 32 - a % 32
      (a, bs.take k) :: cutWords n (a + k) (bs.drop k)

/-- A write by a named agent (an island, or none of them), reflex ports heeded. -/
def State.storeBy (s : State) (isl : Option Nat) (a : Nat) (bs : List Byte) (poison : Bool) : State :=
  let b := s.coll.rfx
  if s.flag F.COLL_CTRL_enable ∧ a < b + 32768 ∧ b < a + bs.length then
    (cutWords (bs.length + 1) a bs).foldl
      (fun s p =>
        match s.rfxPortAt p.1 with
        | some k => s.rfxWrite isl k p.1 p.2 poison
        | none => s.storeRaw p.1 p.2 poison) s
  else s.storeRaw a bs poison

/-- Collective slots whose control word a write set go in (R420): they wait to start. -/
def State.collGo (s : State) (a n : Nat) : State :=
  let b := s.addr F.XGS_COLL_BASE_LO_base
  if s.flag F.XGS_CTRL_enable ∧ a < b + 8192 ∧ b < a + n then
    (List.range 64).foldl
      (fun s k =>
        let c := b + 128 * k
        if a ≤ c ∧ c < a + n ∧ (s.peekNat c 1).testBit 0 ∧ !s.xgs.go.contains k ∧ !s.xgs.active.contains k then
          { s with xgs := { s.xgs with go := s.xgs.go ++ [k] } }
        else s) s
  else s

/-- A device write with the injections that wait for its words. -/
def State.store (s : State) (a : Nat) (bs : List Byte) (poison : Bool := false) : State :=
  ((wordsOf a bs.length).foldl State.applyInject (s.storeBy none a bs poison)).collGo a bs.length

/-- A device write by an island. -/
def State.islStore (s : State) (i a : Nat) (bs : List Byte) (poison : Bool := false) : State :=
  ((wordsOf a bs.length).foldl State.applyInject (s.storeBy (some i) a bs poison)).collGo a bs.length

/-! ### Registers of the MC, MEMG, PSR and NOR pages -/

/-- The remap entry selected by MC_REMAP_SEL. -/
def State.remapSel (s : State) (k : Nat) : Nat := s.get (F.MC_REMAP_SEL_ch k) * 64 + s.get (F.MC_REMAP_SEL_entry k)

/-- MC_REMAP_ENTRY shows the selected entry. -/
def State.mcView (s : State) (k ident : Nat) : Option Word :=
  if ident = 0x114 then
    some (tabGet (s.mc k).remap (s.remapSel k) (.of 0)).vote
  else none

/-- A write of MC_REMAP_ENTRY (R397). -/
def State.mcSetView (s : State) (k ident : Nat) (w : Word) : Option State :=
  if ident = 0x114 then
    let m := s.mc k
    some ((s.setMc k { m with remap := tabSet m.remap (s.remapSel k) ⟨w, w, w⟩ }).rowsShow k)
  else none

/-- MEMG_CAPACITY follows MEMG_SPARE.reserve (R386). -/
def State.memgView (s : State) (ident : Nat) : Option Word :=
  if ident = 0x02C then some (if s.flag F.MEMG_SPARE_reserve then 112778#32 else 116416#32) else none

end Sys2Proof.Machine
end

