-- ==== Sys2Proof/Machine/QOps.lean ====
section
/-! DEFINITION. Fence objects, publications and the journal (R317 to R323, R362, R363), queues, rings, doorbells
(R339 to R346) and jobs (R349 to R360) as operations that every family shares. -/

namespace Sys2Proof.Machine

/-! ### Fence objects -/

/-- The value of a package fence object. -/
def State.fence (s : State) (o : Nat) : Nat := tabGet s.fences o 0

/-- An increment of a fence object; a counter that would pass 2^64 − 1 stays there, with FENCE_ERR set and the overflow
event raised (R362). -/
def State.fenceAdd (s : State) (o n : Nat) : State :=
  let v := s.fence o + n
  if v < 2 ^ 64 then { s with fences := tabSet s.fences o v }
  else
    (({ s with fences := tabSet s.fences o (2 ^ 64 - 1) }.put F.FENCE_ERR_object o).put F.FENCE_ERR_any 1).raise
      pgFENCE Ev.FENCE_overflow

/-! ### The journal (R317 to R323) -/

/-- Is a recording running? -/
def State.recording (s : State) : Bool := s.get F.JRN_STATUS_state == 1

/-- Is a replay waiting or running (R328)? -/
def State.replaying (s : State) : Bool := s.get F.JRN_STATUS_state == 2 || s.get F.JRN_STATUS_state == 3

/-- Bytes padded with zeros to a multiple of `n`. -/
def padTo (n : Nat) (bs : List Byte) : List Byte := bs ++ List.replicate ((n - bs.length % n) % n) 0#8

/-- A journal record: the header of R319 and the padded payload. -/
def jrnRecord (kind flags src position aux0 aux1 aux2 : Nat) (payload : List Byte) : List Byte :=
  leBytes 1 kind ++ leBytes 1 flags ++ leBytes 2 src ++ leBytes 4 payload.length ++ leBytes 8 position
    ++ leBytes 4 aux0 ++ leBytes 4 aux1 ++ leBytes 8 aux2 ++ padTo 32 payload

/-- Units of 32 bytes in the journal ring. -/
def State.ringUnits (s : State) : Nat := 2 ^ s.get F.JRN_SIZE_log2 / 32

/-- Units in use between the consumer offset and the next record. -/
def State.ringUsed (s : State) : Nat :=
  (s.get F.JRN_WRITE_offset + s.ringUnits - s.get F.JRN_EXPORT_offset % s.ringUnits) % s.ringUnits

/-- Bytes written to a ring from a unit on, wrapping at its end. -/
def State.ringPoke (s : State) (base units unit : Nat) : List (List Byte) → State
  | [] => s
  | u :: t => ((s.poke (base + unit % units * 32) u)).ringPoke base units (unit + 1) t

/-- A byte list cut into pieces of 32. -/
def chunks32 : Nat → List Byte → List (List Byte)
  | 0, _ => []
  | n + 1, bs => bs.take 32 :: chunks32 n (bs.drop 32)

/-- The oldest whole record passed over: its length stands in its header (R323). -/
def State.exportNext (s : State) : State :=
  let e := s.get F.JRN_EXPORT_offset % s.ringUnits
  let len := s.peekNat (s.addr F.JRN_BASE_LO_base + e * 32 + 4) 4
  s.put F.JRN_EXPORT_offset ((e + 1 + (len + 31) / 32) % s.ringUnits)

/-- Whole records passed over until `need` units are free; `fuel` bounds their number. -/
def State.exportUntil (s : State) (need : Nat) : Nat → State
  | 0 => s
  | n + 1 => if s.ringUnits - 1 - s.ringUsed < need ∧ 0 < s.ringUsed then s.exportNext.exportUntil need n else s

/-- A record put into the ring at JRN_WRITE, whatever stands there. -/
def State.ringPut (s : State) (r : List Byte) : State :=
  let n := r.length / 32
  let s1 := s.ringPoke (s.addr F.JRN_BASE_LO_base) s.ringUnits (s.get F.JRN_WRITE_offset) (chunks32 n r)
  s1.put F.JRN_WRITE_offset ((s.get F.JRN_WRITE_offset + n) % s.ringUnits)

/-- Records lost (R323): counted in JRN_DROPPED and shown. -/
def State.droppedShow (s : State) : State :=
  ((s.count F.JRN_DROPPED_count 1).put F.JRN_STATUS_gap 1).raise pgJRN Ev.JRN_gap

/-- Records that a lost record stands for: a gap record names those that it would have told of. -/
def lostOf (r : List Byte) : Nat × Nat :=
  if fieldAt r 0 1 = 0x16 then (fieldAt r 0x10 4, fieldAt r 0x14 4 + 2 ^ 32 * fieldAt r 0x18 8) else (1, fieldAt r 8 8)

/-- A record that the ring lost with wrap = 0: named by the gap record before the next one that it takes (R323). -/
def State.recordLost (s : State) (r : List Byte) : State :=
  let n := lostOf r
  let s1 := { s with jrn := { s.jrn with
    lost := s.jrn.lost + n.1
    lostFirst := if s.jrn.lost = 0 then n.2 else s.jrn.lostFirst } }
  if fieldAt r 0 1 = 0x16 then s1 else s1.droppedShow

/-- A record that the staging buffer had no room for with wrap = 0: named by the gap record before the next one staged (R323). -/
def State.recordMissed (s : State) (r : List Byte) : State :=
  { s with jrn := { s.jrn with
    missed := s.jrn.missed + 1
    missFirst := if s.jrn.missed = 0 then fieldAt r 8 8 else s.jrn.missFirst } }.droppedShow

/-- The position of the gap record that stands before a record: that of the last publication before it (R319).
Before the first publication it is free (assumption 77). -/
def gapPos (r : List Byte) : Nat :=
  if fieldAt r 1 1 % 2 = 0 then fieldAt r 8 8
  else if fieldAt r 8 8 = 0 then Config.freeOf [319] % 2 ^ 64
  else fieldAt r 8 8 - 1

/-- The gap record before record `r` that tells of `n` lost records from position `first` on (kind 0x16). -/
def gapRecord (n first : Nat) (r : List Byte) : List Byte :=
  jrnRecord 0x16 0 0 (gapPos r) n (first % 2 ^ 32) (first / 2 ^ 32) []

/-- A record written into the ring under the overflow policy of R323. -/
def State.ringRecord (s : State) (r : List Byte) : State :=
  let gap := s.jrn.lost != 0
  let need := r.length / 32 + (if gap then 1 else 0)
  let room := decide (need ≤ s.ringUnits - 1 - s.ringUsed)
  if s.flag F.JRN_CTRL_wrap ∨ room then
    let s1 := if room then s
      else ((s.exportUntil need s.ringUnits).put F.JRN_STATUS_overrun 1).raise pgJRN Ev.JRN_overrun
    let s2 := if gap then { s1.ringPut (gapRecord s1.jrn.lost s1.jrn.lostFirst r) with jrn := { s1.jrn with lost := 0 } } else s1
    s2.ringPut r
  else s.recordLost r

/-- The oldest staged record leaves the staging buffer for the ring. -/
def State.journalWrite (s : State) : State :=
  match s.jrn.staged with
  | [] => s
  | r :: t => { s with jrn := { s.jrn with staged := t } }.ringRecord r

/-- Bytes in the staging buffer. -/
def JrnSt.stagedBytes (j : JrnSt) : Nat := (j.staged.map List.length).sum

/-- A record put at the end of the staging buffer, after a gap record where records were missed before it. -/
def State.stagePut (s : State) (r : List Byte) : State :=
  let gap := if s.jrn.missed = 0 then [] else [gapRecord s.jrn.missed s.jrn.missFirst r]
  { s with jrn := { s.jrn with
      staged := s.jrn.staged ++ gap ++ [r]
      missed := 0 } }

/-- A record into the 1 MiB staging buffer. Where it has no room, wrap = 1 sets overrun and makes room by writing staged records into
the ring, JRN_EXPORT going past the oldest whole records as far as they need; wrap = 0 loses the record (R323). Nothing happens unless
a recording runs. -/
def State.stage (s : State) (r : List Byte) : State :=
  let need := r.length + if s.jrn.missed = 0 then 0 else 32
  if !s.recording then s
  else if s.jrn.stagedBytes + need ≤ 1048576 then s.stagePut r
  else if s.flag F.JRN_CTRL_wrap then
    let s1 := (s.put F.JRN_STATUS_overrun 1).raise pgJRN Ev.JRN_overrun
    (s1.jrn.staged.foldl (fun s _ => s.journalWrite) s1).stagePut r
  else s.recordMissed r

/-- The position that an unpositioned record carries: that of the last publication before it (R319).
Before the first publication it is free (assumption 77). -/
def State.lastPos (s : State) : Nat := if s.jrnPos = 0 then Config.freeOf [319] % 2 ^ 64 else s.jrnPos - 1

/-- An unpositioned record written while recording (R320). -/
def State.record (s : State) (kind flags src aux0 aux1 aux2 : Nat) (payload : List Byte := []) : State :=
  s.stage (jrnRecord kind flags src s.lastPos aux0 aux1 aux2 payload)

/-- A publication: it takes the next fence position (R317) and is recorded with it. -/
def State.publish (s : State) (kind flags src aux0 aux1 aux2 : Nat) (payload : List Byte := []) : State :=
  let p := s.jrnPos
  ((s.put F.JRN_POS_LO_position (p + 1)).put F.JRN_POS_HI_position ((p + 1) / 2 ^ 32)).stage
    (jrnRecord kind (flags ||| 1) src p aux0 aux1 aux2 payload)

/-- FARM_STATUS.state once no replay runs: fresh or idle. -/
def State.farmIdle (s : State) : State :=
  if s.get F.FARM_STATUS_state ≤ 4 then s.put F.FARM_STATUS_state (if s.farm.fresh then 1 else 0) else s

/-- A replay stopped with a cause (R330). -/
def State.replayStop (s : State) (cause : Nat) : State :=
  if s.replaying then
    (((s.farmIdle.put F.JRN_STATUS_state 4).put F.JRN_STATUS_stop_cause cause).put F.ING_STATUS_replay 0).raise
      pgJRN Ev.JRN_replay_stop
  else s

/-- The open host-data record closed: a publication of code 0x06 (R322). -/
def State.closeHostData (s : State) : State :=
  match s.jrn.openData with
  | none => s
  | some (w, a, bs) =>
    { s with jrn := { s.jrn with openData := none } }.publish 0x06 2 w bs.length 0 a bs

/-! ### The journal as read back (R319, R325) -/

/-- Bytes of the ring from a unit on. -/
def State.ringBytes (s : State) (unit n : Nat) : List Byte :=
  (List.range ((n + 31) / 32)).flatMap fun k =>
    s.bytes (s.addr F.JRN_BASE_LO_base + (unit + k) % s.ringUnits * 32) 32

/-- Units of 32 bytes that a record takes. -/
def JRec.units (r : JRec) : Nat := 1 + (r.payload.length + 31) / 32

/-- The record whose header lies at a unit of the ring. -/
def State.jrnAt (s : State) (unit : Nat) : JRec :=
  let h := s.ringBytes unit 32
  let n := fieldAt h 4 4
  ⟨fieldAt h 0 1, fieldAt h 1 1, fieldAt h 2 2, fieldAt h 8 8, fieldAt h 0x10 4, fieldAt h 0x14 4, fieldAt h 0x18 8,
   bytesAt (s.ringBytes (unit + 1) (min n (32 * s.ringUnits))) 0 n⟩

/-- The first record of the replay journal that `p` accepts, from a unit on up to JRN_EXPORT. -/
def State.jrnFindFrom (s : State) (p : JRec → Bool) : Nat → Nat → Option JRec
  | 0, _ => none
  | fuel + 1, unit =>
    if s.get F.JRN_EXPORT_offset ≤ unit then none
    else
      let r := s.jrnAt unit
      if p r then some r else s.jrnFindFrom p fuel (unit + r.units)

/-- The first record of the replay journal that `p` accepts. -/
def State.jrnFind (s : State) (p : JRec → Bool) : Option JRec :=
  s.jrnFindFrom p (s.get F.JRN_EXPORT_offset + 1) 0

/-- Data of a record (R320): after its digest when it carries one; none where it was recorded with its digest only. -/
def JRec.data (r : JRec) : Option (List Byte) :=
  if r.flags.testBit 2 then (if r.flags.testBit 1 then some (r.payload.drop 64) else none) else some r.payload

/-- Does the digest that a record carries fit its data? -/
def JRec.digestOk (r : JRec) : Bool :=
  !(r.flags.testBit 2 && r.flags.testBit 1) || r.payload.take 64 == sha3_512 (r.payload.drop 64)

/-! ### Queues and rings (R339 to R346) -/

/-- Queue `q` as the engine caches it. -/
def State.queue (s : State) (q : Nat) : QSt := tabGet s.queues q {}

/-- The kind that R339 gives a queue ID (0: reserved). -/
def queueKind (q : Nat) : Nat :=
  if q < 0x80 then 3 else if q < 0x100 then 2 else if q < 0x102 then 4 else if q < 0x200 then 0
  else if q < 0x400 then 4 else 1

/-- Is a queue's pending bit set: an enabled submission queue with producer ≠ consumer (R346)? -/
def QSt.pends (v : QSt) : Bool := v.enabled && v.producer != v.consumer

/-- The pending bit of a submission queue and the summary bit of its 32-queue word brought up to date (R346). -/
def State.pendShow (s : State) (q : Nat) (on : Bool) : State :=
  let p := if on then setAdd s.qPend q else setDel s.qPend q
  { s with
    qPend := p
    qSumm := if p.any fun x => decide (x / 32 = q / 32) then setAdd s.qSumm (q / 32) else setDel s.qSumm (q / 32) }

/-- Queue `q` replaced; the pending bitmap follows the indices of a submission queue. -/
def State.setQueue (s : State) (q : Nat) (v : QSt) : State :=
  let s1 := if queueKind q = 1 then s.pendShow q v.pends else s
  { s1 with queues := tabSet s.queues q v }

/-- Bytes of a queue entry (R340). -/
def entryBytes (q : Nat) : Nat := if queueKind q = 1 then 64 else 32

/-- Entries of a queue, and how many are in it. -/
def QSt.size (q : QSt) : Nat := 2 ^ q.sizeLog2
def QSt.used (q : QSt) : Nat := (q.producer + 2 ^ 32 - q.consumer % 2 ^ 32) % 2 ^ 32

/-- Does the queue take entries that the device writes? -/
def QSt.hasRoom (q : QSt) : Bool := q.enabled && !q.faulted && decide (q.used < q.size)

/-- A 32-byte record written to the ring of an ingress, completion or record queue (R341). -/
def State.ringEntry (s : State) (q : Nat) (r : List Byte) : State :=
  let v := s.queue q
  (s.store (v.ring + v.producer % v.size * 32) r).setQueue q { v with producer := (v.producer + 1) % 2 ^ 32 }

/-- A queue faulted with cause 0x1 (R366). -/
def State.queueFault (s : State) (q : Nat) : State :=
  (s.setQueue q { s.queue q with faulted := true, cause := 1 }).raise pgQENG Ev.QENG_queue_fault

/-- The index a doorbell of the queue moves (R343). -/
def State.doorbellIndex (s : State) (q : Nat) : Nat :=
  if queueKind q = 1 then (s.queue q).producer else (s.queue q).consumer

/-- The descriptors made available by a doorbell, in ring order (R320, kind 0x04). -/
def State.newDescriptors (s : State) (q old n : Nat) : List Byte :=
  (List.range n).flatMap fun i =>
    s.bytes ((s.queue q).ring + (old + i) % (s.queue q).size * 64) 64

/-- A doorbell (R343 to R345): `host` for BAR4, otherwise through the device window. -/
def State.doorbell (s : State) (q index : Nat) (host : Bool) : State :=
  let v := s.queue q
  let kind := queueKind q
  let cur := s.doorbellIndex q
  let dist := (index + 2 ^ 32 - cur) % 2 ^ 32
  let ignored := fun (s : State) => (s.satInc F.QENG_DB_ERR_ignored).raise pgQENG Ev.QENG_doorbell_err
  let badIndex := fun (s : State) => (s.satInc F.QENG_DB_ERR_bad_index).raise pgQENG Ev.QENG_doorbell_err
  if kind = 0 ∨ !v.enabled ∨ v.faulted ∨ (host ∧ v.kind = 1 ∧ q < 0x400) then ignored s
  else if 2 ^ 31 < dist then badIndex s
  else if dist = 0 then s
  else if kind = 1 then
    if v.size < v.used + dist then badIndex s
    else
      let s1 := if host then
          s.publish 0x04 2 (q % 65536) index (q / 65536) 0 (s.newDescriptors q v.producer dist)
        else s
      s1.setQueue q { v with producer := index }
  else if v.used < dist then badIndex s
  else s.setQueue q { v with consumer := index }

/-! ### Jobs (R349 to R360) -/

/-- Descriptor fields (R349). -/
def Job.cls (j : Job) : Nat := fieldAt j.desc 0 1
def Job.flags (j : Job) : Nat := fieldAt j.desc 1 1
def Job.tdCount (j : Job) : Nat := fieldAt j.desc 2 1
def Job.cq (j : Job) : Nat := fieldAt j.desc 3 1
def Job.deadline (j : Job) : Nat := fieldAt j.desc 4 4
def Job.primary (j : Job) : Nat := fieldAt j.desc 8 8
def Job.alternate (j : Job) : Nat := fieldAt j.desc 0x10 8
def Job.tdTable (j : Job) : Nat := fieldAt j.desc 0x18 8
def Job.waitValue (j : Job) (k : Nat) : Nat := fieldAt j.desc (0x20 + 8 * k) 8
def Job.wait (j : Job) (k : Nat) : Nat := fieldAt j.desc (0x30 + 2 * k) 2
def Job.signal (j : Job) (k : Nat) : Nat := fieldAt j.desc (0x34 + 2 * k) 2
def Job.signalInc (j : Job) (k : Nat) : Nat := fieldAt j.desc (0x38 + 2 * k) 2
def Job.tag (j : Job) : Nat := fieldAt j.desc 0x3C 4
def Job.safety (j : Job) : Bool := j.flags.testBit 2
def Job.wantsDigest (j : Job) : Bool := j.flags.testBit 3
def Job.altValid (j : Job) : Bool := j.flags.testBit 4
def Job.sigOnFail (j : Job) : Bool := j.flags.testBit 5
/-- Program header fields (R115). -/
def Job.slotCount (j : Job) : Nat := fieldAt j.header 0x10 2
def Job.caps (j : Job) : Nat := fieldAt j.header 0x0C 4
def Job.gang (j : Job) : Bool := j.caps.testBit 5
def Job.redEntries (j : Job) : Nat := fieldAt j.header 0x0A 2
def Job.isArray (j : Job) : Bool := j.cls == 1 || j.cls == 2

/-- Is this the job of a queue ID and descriptor index? -/
def Job.is (j : Job) (q i : Nat) : Bool := decide (j.queue = q ∧ j.index = i)

/-- The job of a queue ID and descriptor index, if it has been taken and not completed. -/
def State.job (s : State) (q i : Nat) : Option Job := s.jobs.find? fun j => j.is q i

/-- The job that a command names. -/
def State.jobOf (s : State) (j : JobId) : Option Job := s.job j.queue.toNat j.index.toNat

/-- A job replaced. -/
def State.setJob (s : State) (j : Job) : State :=
  { s with jobs := s.jobs.map fun k => if k.is j.queue j.index then j else k }

/-- A job changed in place. -/
def State.modJob (s : State) (q i : Nat) (f : Job → Job) : State :=
  { s with jobs := s.jobs.map fun k => if k.is q i then f k else k }

/-- A job's outcome reported: status, detail, where (R358). -/
def Job.report (j : Job) (status detail where' : Nat) : Job := { j with reports := j.reports ++ [(status, detail, where')] }

/-- A job ended with an outcome, awaiting its completion. -/
def Job.ended (j : Job) (status detail : Nat) : Job := { j.report status detail 0 with stage := .ended }

/-- Statuses of R359 in the order in which the first that applies is reported. -/
def statusOrder : List Nat := [0x0B, 0x02, 0x03, 0x0A, 0x04, 0x05, 0x06, 0x07, 0x08, 0x09, 0x01]

/-- The outcome that a job reports (R359). -/
def Job.outcome (j : Job) : Nat × Nat × Nat :=
  (statusOrder.findSome? fun c => j.reports.find? fun r => decide (r.1 = c)).getD (0, 0, 0)

/-- Are both wait fences of a job satisfied (R349)? -/
def State.waitsMet (s : State) (j : Job) : Bool :=
  [0, 1].all fun k => !(j.wait k).testBit 15 || decide (j.waitValue k ≤ s.fence (j.wait k % 4096))

/-- Is the device-memory range inside one region that holds memory? -/
def State.inMemory (s : State) (a n : Nat) : Bool :=
  s.oneRegion a n && (match s.region a with | .dram | .hub | .stack _ | .pool _ => true | _ => false)

/-- Is the range inside DRAM or hub SRAM? -/
def State.inDramHub (s : State) (a n : Nat) : Bool :=
  s.oneRegion a n && (match s.region a with | .dram | .hub => true | _ => false)

/-- Is the range inside DRAM? -/
def State.inDram (s : State) (a n : Nat) : Bool := s.oneRegion a n && (s.region a == .dram)

/-- Is the range inside hub SRAM? -/
def State.inHub (s : State) (a n : Nat) : Bool := s.oneRegion a n && (s.region a == .hub)

/-- Does a program header pass R116, and for an FFT-only job R350? -/
def State.imageOk (s : State) (h : List Byte) (fftOnly : Bool) : Bool :=
  let caps := fieldAt h 0x0C 4
  let count := fieldAt h 6 2
  (h.take 4 == [0x56#8, 0x41#8, 0x50#8, 0x31#8]) && fieldAt h 4 2 == 1
    && decide (1 ≤ count ∧ count ≤ 4096 ∧ fieldAt h 8 2 < count)
    && decide (1 ≤ fieldAt h 0x10 2 ∧ fieldAt h 0x10 2 ≤ 96) && decide (fieldAt h 0x0A 2 ≤ 512)
    && decide (caps < 64) && (bytesAt h 0x14 12).all (· == 0#8) && (bytesAt h 0x60 32).all (· == 0#8)
    && decide (fieldAt h 0x12 2 ≤ s.get F.GEN_FW_REV_arith_rev)
    && (!fftOnly || (caps.testBit 2 && !caps.testBit 0 && !caps.testBit 1))

/-! ### Arrays as placement sees them -/

/-- Is logical array `a` of die `d` in service? -/
def State.arrInService (s : State) (d a : Nat) : Bool :=
  s.cdState d == 3 && (s.get (F.CD_ARR_SERVICE_in_service d)).testBit a

/-- ARR_CAPS of an array: [0] four_bit, [1] sixteen_bit, [2] fft, less what ARR_CAP_DISABLE withdraws (R106). -/
def State.arrCaps (s : State) (n : Nat) : Nat := (s.regWord (pgARR n) 0x34).toNat % 8

/-- Every array of the grade: die and logical number. -/
def State.allArrays (s : State) : List (Nat × Nat) :=
  (List.range 4).flatMap fun d => (List.range s.fuse.perDie).map fun a => (d, a)

/-- The arrays in service. -/
def State.servingArrays (s : State) : List (Nat × Nat) := s.allArrays.filter fun p => s.arrInService p.1 p.2

/-- Do an array's capabilities cover those a program asks for? -/
def State.capsCover (s : State) (p : Nat × Nat) (caps : Nat) : Bool :=
  caps % 8 &&& s.arrCaps (24 * p.1 + p.2) == caps % 8

/-- Can a program with this header be placed on the module as it stands (R355)? -/
def State.placeable (s : State) (h : List Byte) : Bool :=
  let caps := fieldAt h 0x0C 4
  let arrs := s.servingArrays
  (arrs.any fun p => s.capsCover p caps) && !(caps.testBit 5 && decide (arrs.length < fieldAt h 0x10 2))

/-! ### Completion (R357 to R360) -/

/-- The job digest: slot digests in slot-index order over the tile digests in tile order (R331). -/
def jobDigest (slots : Nat) (tiles : List TileEnt) : DWord :=
  digest64 ((List.range slots).flatMap fun k =>
    laneBytes (digest64 ((tiles.filter fun t => decide (t.slot = k)).flatMap fun t => laneBytes t.digest)))

/-- Did the job form a digest? It asked for one and reached its engine. -/
def Job.hasDigest (j : Job) : Bool := j.wantsDigest && j.reports.all fun r => decide (r.1 ≠ 0x0B ∧ r.1 ≠ 2 ∧ r.1 ≠ 3)

/-- The digest of a job of any class: hub engines have one slot (R332). -/
def Job.digest (j : Job) : DWord := jobDigest (if j.isArray then j.slotCount else 1) j.tiles

/-- The 32 bytes of a completion record (R358), cq_overflow still clear. -/
def completionRecord (j : Job) (signalled : Bool) (us : Nat) : List Byte :=
  let o := j.outcome
  let b := fun (c : Bool) (k : Nat) => if c then 2 ^ k else 0
  let flags := b j.nonrepro 0 + b j.dip 1 + b j.alt 2 + b j.hasDigest 3 + b signalled 4
  leBytes 4 j.queue ++ leBytes 4 j.index ++ leBytes 1 o.1 ++ leBytes 1 flags ++ leBytes 2 o.2.1 ++ leBytes 4 o.2.2
    ++ (if j.hasDigest then laneBytes j.digest else leBytes 8 0) ++ leBytes 4 j.tag ++ leBytes 4 (min us (2 ^ 32 - 1))

/-- A completion record with cq_overflow set where it follows a dropped one (R360). -/
def overflowRecord (r : List Byte) (lost : Bool) : List Byte :=
  if lost then r.take 9 ++ [r.getD 9 0#8 ||| 32#8] ++ r.drop 10 else r

/-- A completion record written into completion queue `n`: the first one after a drop carries cq_overflow (R360); the queue's interrupt is
raised if it has one. -/
def State.cqWrite (s : State) (n : Nat) (r : List Byte) : State :=
  let q := 0x80 + n
  let v := s.queue q
  let s1 := s.ringEntry q (overflowRecord r v.lost)
  let s2 := s1.setQueue q { s1.queue q with lost := false }
  if v.flags.testBit 1 then s2.msiPend (s2.get (F.PCIE_CQ_VEC_vec (n / 4) (n % 4))) else s2

/-- A completion record for completion queue `n`: written when there is room and none waits before it; otherwise staged, or dropped when
the store of 4,096 is full (R360). -/
def State.complete (s : State) (n : Nat) (r : List Byte) : State :=
  let v := s.queue (0x80 + n)
  if v.hasRoom ∧ !(s.cqStaged.any fun e => decide (e.1 = n)) then s.cqWrite n r
  else if s.cqStaged.length < 4096 then { s with cqStaged := s.cqStaged ++ [(n, r)] }
  else
    ((s.setQueue (0x80 + n) { v with lost := true }).count F.QENG_CQ_DROP_count 1).raise pgQENG Ev.QENG_cq_overflow

end Sys2Proof.Machine
end

