-- ==== Sys2Proof/Machine/ArrayOps.lean ====
section
/-! DEFINITION. The shared operations of an array: its line buffers, its scalars, issue and hazards, flights, numeric
flags, faults and the end of a slot (R73, R102, R105, R107, R111 to R118, R122, R135). Arrays are named by
24 × die + logical number. -/

namespace Sys2Proof.Machine

/-- The number of an array. -/
def arrNum (n : Arr) : Nat := 24 * n.die.val + n.num.val

/-- Array `n` behind its registers. -/
def State.arr (s : State) (n : Nat) : ArrSt := tabGet s.arrs n {}

/-- Array `n` replaced. -/
def State.setArr (s : State) (n : Nat) (a : ArrSt) : State := { s with arrs := tabSet s.arrs n a }

/-- Array `n` changed in place. -/
def State.modArr (s : State) (n : Nat) (f : ArrSt → ArrSt) : State := s.setArr n (f (s.arr n))

/-- The job on array `n`. -/
def State.arrJob (s : State) (n : Nat) : Option Job :=
  if s.flag (F.ARR_JOB_QUEUE_valid n) then s.job (s.get (F.ARR_JOB_QUEUE_queue n)) (s.get (F.ARR_JOB_INDEX_index n))
  else none

/-! ### The ring (R9, R10) -/

/-- The dies between die `a` and die `b` on the ring, going up (R9). -/
def ringBetween (a b : Nat) : List Nat := (List.range ((b + 4 - a) % 4)).tail.map fun i => (a + i) % 4

/-- The way of ring traffic from die `a` to die `b` (R10): the dies passed, going up or down, whichever is shorter through dies in
service, up on a tie; none when HB carries it. -/
def State.ringWay (s : State) (a b : Nat) : Option (List Nat) :=
  let open' := fun (l : List Nat) => l.all fun d => s.cdState d == 3
  let up := ringBetween a b
  let dn := (ringBetween b a).reverse
  if open' up ∧ (up.length ≤ dn.length ∨ !open' dn) then some up
  else if open' dn then some dn
  else none

/-- The Hinge identities that a partial passes from die `a` to die `b`: none on one die, through HB where no way round is open. -/
def State.partVia (s : State) (a b : Nat) : List Nat :=
  if a = b then [] else match s.ringWay a b with | some l => l.map (· + 1) | none => [0]

/-! ### Scalars (R112) -/

/-- The scalar file after a write of one register: its word is read and merged where the write covers part of it (R578). -/
def srMerge (c : Tab WordCond) (r : Nat) : Tab WordCond := condWrite c (8 * r) 8 false

/-- A scalar register; s0 reads 0. -/
def ArrSt.scalar (a : ArrSt) (r : Nat) : Nat := if r = 0 then 0 else (a.sr.getD r 0#64).toNat

/-- A scalar register written; writes to s0 are ignored. -/
def ArrSt.setScalar (a : ArrSt) (r v : Nat) : ArrSt :=
  if r = 0 then a
  else
    { a with
      sr := listSet (a.sr ++ List.replicate (32 - a.sr.length) 0#64) r (BitVec.ofNat 64 v)
      srCond := srMerge a.srCond r }

/-- The value of a scalar operand (0 for none). -/
def ArrSt.operand (a : ArrSt) (r : Nat) : Nat :=
  match decodeRef r with
  | .sreg k => a.scalar k
  | _ => 0

/-- The register that an operand names. -/
def refReg (r : Nat) : Nat :=
  match decodeRef r with
  | .sreg k => k
  | _ => 0

/-- The tensor descriptor that an operand names (64 zero bytes where none was loaded). -/
def ArrSt.td (a : ArrSt) (r : Nat) : List Byte :=
  match decodeRef r with
  | .td k => bytesAt (a.tds.getD k []) 0 64
  | _ => bytesAt [] 0 64

/-- The fence object that an operand names. -/
def refObj (r : Nat) : Nat :=
  match decodeRef r with
  | .obj k => k
  | _ => 0

/-- The line-buffer word that an operand names: directly, or by bits [14:0] of a scalar (R120). -/
def ArrSt.lbWord (a : ArrSt) (r : Nat) : Nat :=
  match decodeRef r with
  | .lb w => w
  | .sreg k => a.scalar k % 32768
  | _ => 0

/-! ### Line buffers (R73) -/

/-- Words that `n` elements of `w` bits take. -/
def elemWords (n w : Nat) : Nat := (n * w + 255) / 256

/-- Does a range of `n` words from `w` end within the line buffers (R122)? -/
def lbFits (w n : Nat) : Bool := n == 0 || decide (w + n ≤ 32768)

/-- `n` elements of `w` bits from a byte list read as one little-endian bit stream. -/
def unpackGo (w : Nat) : Nat → Nat → List Nat
  | 0, _ => []
  | n + 1, x => x % 2 ^ w :: unpackGo w n (x / 2 ^ w)

/-- Elements as one little-endian number. -/
def packNat (w : Nat) : List Nat → Nat
  | [] => 0
  | v :: t => v % 2 ^ w + 2 ^ w * packNat w t

/-- Is a word of the line buffers read poisoned? -/
def ArrSt.wordBad (a : ArrSt) (w : Nat) : Bool :=
  match tabFind a.lbCond w with
  | some c => c.bad
  | none => false

/-- Elements first to first + n − 1, of `w` bits, of a vector at line-buffer word `base`, each with its poison. -/
def ArrSt.elems (a : ArrSt) (base w first n : Nat) : List (Nat × Bool) :=
  let bit := first * w
  let b0 := base * 32 + bit / 8
  let bytes := cellRead a.lb b0 ((bit % 8 + n * w + 7) / 8)
  let vs := unpackGo w n (leNat bytes / 2 ^ (bit % 8))
  let badAt := fun i => a.wordBad (base + (bit + i * w) / 256) || a.wordBad (base + (bit + i * w + w - 1) / 256)
  vs.zip ((List.range n).map badAt)

/-- Whole words of the line buffers, with their poison. -/
def ArrSt.wordsAt (a : ArrSt) (w n : Nat) : List (List Byte × Bool) :=
  (List.range n).map fun k => (cellRead a.lb ((w + k) * 32) 32, a.wordBad (w + k))

/-- A byte list cut at word boundaries from byte address `addr` on. -/
def segsGo (bad : Nat → Bool) : Nat → Nat → List Byte → List Seg
  | 0, _, _ => []
  | n + 1, addr, bs =>
    if bs.isEmpty then []
    else
      let k := 32 - addr % 32
      ⟨addr, bs.take k, bad (addr / 32)⟩ :: segsGo bad n (addr + k) (bs.drop k)

/-- Bytes as segments of words; `bad` tells which words are written poisoned. -/
def segsOf (bad : Nat → Bool) (addr : Nat) (bs : List Byte) : List Seg := segsGo bad (bs.length / 32 + 2) addr bs

/-- The words in which a list of elements holds a poisoned one. -/
def badWords (base w : Nat) (es : List (Nat × Bool)) : List Nat :=
  ((List.range es.length).zip es).flatMap fun e =>
    if e.2.2 then [base + e.1 * w / 256, base + (e.1 * w + w - 1) / 256] else []

/-- Elements on their way to the line buffers at word `base`; a last byte that they fill only in part keeps its other
bits (R73). -/
def ArrSt.putElems (a : ArrSt) (base w : Nat) (es : List (Nat × Bool)) : List Seg :=
  let bits := es.length * w
  let old := (cellGet a.lb (base * 32 + bits / 8)).toNat / 2 ^ (bits % 8)
  let x := packNat w (es.map (·.1)) + (if bits % 8 = 0 then 0 else old * 2 ^ bits)
  let bw := badWords base w es
  segsOf (fun k => bw.contains k) (base * 32) (leBytes ((bits + 7) / 8) x)

/-- An array taken out of service or back (CD_ARR_SERVICE). -/
def State.setService (s : State) (n : Nat) (on : Bool) : State :=
  let f := F.CD_ARR_SERVICE_in_service (n / 24)
  let v := s.get f
  s.put f (if v.testBit (n % 24) = on then v else if on then v + 2 ^ (n % 24) else v - 2 ^ (n % 24))

/-- An array ungated or gated (PWR_UNGATED). -/
def State.setGate (s : State) (n : Nat) (ungated : Bool) : State :=
  let f := F.PWR_UNGATED_ungated (n / 24)
  let v := s.get f
  let s1 := s.put f (if v.testBit (n % 24) = ungated then v else if ungated then v + 2 ^ (n % 24) else v - 2 ^ (n % 24))
  if ungated then { s1 with pwr := { s1.pwr with idle := setDel s1.pwr.idle n } } else s1

/-- Do arrays take work: the module is in Run, and not on its way out of it (R498, R499)? -/
def State.powered (s : State) : Bool := s.get F.PWR_STATE_state == 4 && !s.pwr.warming

/-- Is a dip interval open on core rail `r` (R508)? -/
def State.dipOpen (s : State) (r : Nat) : Bool := (tabFind s.pwr.dips r).isSome

/-- Does a slot run on die `d`, or has one been given to an array of it? -/
def State.dieBusy (s : State) (d : Nat) : Bool :=
  s.jobs.any fun j => j.slots.any fun k => decide (k.die = d ∧ (k.phase = 1 ∨ k.phase = 2))

/-- What firmware asked for once a slot ends on an array: the array taken out (R490), or its die fenced by the islands, which
are asked to once no slot runs there (R491). -/
def State.slotLeft (s : State) (n : Nat) : State :=
  let d := n / 24
  let v := tabGet s.stest.dies d {}
  let s1 := if v.outReq.contains (n % 24) then
      ({ s with stest := { s.stest with dies := tabSet s.stest.dies d { v with outReq := setDel v.outReq (n % 24) } } }.put
        (F.STEST_ARRAY_OUT_out d) (s.get (F.STEST_ARRAY_OUT_out d) ||| 2 ^ (n % 24))).setService n false
    else s
  if v.dieOut ∧ !s1.dieBusy d then s1.emit .islandMessage [2, d] [] else s1

/-- An array made suspect (R475): it is out of service until it has been tested. -/
def State.suspectArr (s : State) (n : Nat) : State := (s.modArr n fun a => { a with suspect := true }).setService n false

/-- A read of a line-buffer word logged (R73): a correction, or a word read poisoned, which makes the array suspect
(R475). ARR_LB_ERR.uncorrectable counts words read poisoned, new or stored; that a word of stored poison also shows in ARR_LB_LAST_ERR
and raises the event is a DESIGN CHOICE (assumption 71). -/
def State.lbLog (s : State) (n w : Nat) : State :=
  match tabFind (s.arr n).lbCond w with
  | none => s
  | some (.one b) =>
    ((((s.satInc (F.ARR_LB_ERR_corrected n)).put (F.ARR_LB_LAST_ERR_word n) w).put
      (F.ARR_LB_LAST_ERR_byte n) b.val).raise (pgARR n) Ev.ARR_lb_corrected)
  | some _ =>
    ((((s.satInc (F.ARR_LB_ERR_uncorrectable n)).put (F.ARR_LB_LAST_ERR_word n) w).put
      (F.ARR_LB_LAST_ERR_byte n) 63).raise (pgARR n) Ev.ARR_lb_uncorrectable).suspectArr n

/-- The words of some ranges read, and logged. -/
def State.lbRead (s : State) (n : Nat) (rs : List (Nat × Nat)) : State :=
  rs.foldl
    (fun s r =>
      ((s.arr n).lbCond.filter fun e => decide (r.1 ≤ e.1 ∧ e.1 < r.1 + r.2)).foldl (fun s e => s.lbLog n e.1) s) s

/-- A segment written to the line buffers: merged with the stored word where it covers only part of it (R578); an
armed injection corrupts the word once (R107). -/
def State.lbWrite (s : State) (n : Nat) (g : Seg) : State :=
  let w := g.addr / 32
  let s1 := if g.data.length < 32 then s.lbLog n w else s
  s1.modArr n fun a =>
    let c := condWrite a.lbCond g.addr g.data.length g.poison
    match tabFind a.inject w with
    | some k => { a with lb := cellWrite a.lb g.addr g.data, lbCond := injectCond c w k, inject := tabDel a.inject w }
    | none => { a with lb := cellWrite a.lb g.addr g.data, lbCond := c }

/-- Packed bits written to the line buffers: the other bits of their first and last byte stay (R73, R75). -/
def State.bitWrite (s : State) (n : Nat) (g : BitSeg) : State :=
  let lo := g.bit % 8
  let len := (lo + g.n + 7) / 8
  let old := leNat (cellRead (s.arr n).lb (g.bit / 8) len)
  let new := old % 2 ^ lo + g.val % 2 ^ g.n * 2 ^ lo + old / 2 ^ (lo + g.n) * 2 ^ (lo + g.n)
  (segsOf (fun _ => g.poison) (g.bit / 8) (leBytes len new)).foldl (fun s x => s.lbWrite n x) s

/-! ### Numeric flags (R105) -/

/-- Flags of ARR_NUM_FLAGS set; a flag that was 0 raises the numeric event. -/
def State.numFlags (s : State) (n flags : Nat) : State :=
  let old := s.regWord (pgARR n) 0x38
  let new := old ||| BitVec.ofNat 32 (flags % 16)
  if new = old then s else (s.putWord (pgARR n) 0x38 new).raise (pgARR n) Ev.ARR_numeric

/-! ### Reduction entries (R92) -/

/-- Entries of a die's reduction buffer that no job holds by grant. -/
def State.redFree (s : State) (d : Nat) : Nat :=
  512 - (s.jobs.foldl (fun n j => if j.granted.contains d then n + j.redEntries else n) 0)

/-- Entries of a job's grant on a die that its tiles in flight reserve. -/
def Job.reservedOn (j : Job) (d : Nat) : Nat :=
  j.accs.foldl (fun n t => if t.die = d then n + t.reserved else n) 0

/-- ARR_RED.reserved of the arrays of a job follows its tiles in flight. -/
def State.redShow (s : State) (j : Job) : State :=
  j.slots.foldl
    (fun s k =>
      if k.phase = 2 then
        let n := 24 * k.die + k.logical
        s.put (F.ARR_RED_reserved n) (j.accs.foldl (fun m t => if t.shown = n then m + t.reserved else m) 0)
      else s) s

/-- The grants and reservations of a job released (R92, R135). -/
def State.redRelease (s : State) (j : Job) : State :=
  let j1 := { j with granted := [], accs := j.accs.map fun t => { t with reserved := 0 } }
  let s1 := (s.setJob j1).redShow j1
  j1.slots.foldl (fun s k => if k.phase = 2 then s.put (F.ARR_RED_granted (24 * k.die + k.logical)) 0 else s) s1

/-! ### Faults and ends (R135) -/

/-- Completion `where` of a slot (R358). -/
def slotWhere (slot n pc : Nat) : Nat := slot % 128 + 256 * (n % 24) + 65536 * (n / 24) + 1048576 * (pc % 4096)

/-- The other slots of a job told to stop at their next instruction boundary, with a cause for the fault that they then
take (0: none). -/
def State.stopSlots (s : State) (j : Job) (self cause : Nat) : State :=
  j.slots.foldl
    (fun s k =>
      let n := 24 * k.die + k.logical
      if k.phase = 2 ∧ n ≠ self ∧ !(s.arr n).ending then s.modArr n fun a => { a with stop := some cause } else s) s

/-- The slot's sequencer leaves issue and its waits for good; a RED.GET in flight leaves its wait (R135). -/
def ArrSt.leave (a : ArrSt) : ArrSt :=
  { a with ending := true, wait := .none, stop := none, loading := false, flights := a.flights.filter fun f => f.red.isNone }

/-- A slot faults (R135): nothing further issues, the fault is recorded, the array is faulted, entries are released, slots
not yet started never start, the others are told to stop. Causes 0x1 and 0x4 make the array suspect (R475). -/
def State.slotFaultAt (s : State) (n cause pc : Nat) : State :=
  let a := s.arr n
  if a.ending then s
  else
    let s0 := s.setArr n a.leave
    let s1 := if cause = 1 ∨ cause = 4 then s0.suspectArr n else s0
    let s2 := (((s1.put (F.ARR_FAULT_cause n) cause).put (F.ARR_FAULT_pc n) pc).put (F.ARR_STATE_state n) 4).raise
      (pgARR n) Ev.ARR_fault
    let s3 := s2.raiseIf (cause = 3) (pgARR n) Ev.ARR_n_refused
    match s3.arrJob n with
    | none => s3
    | some j =>
      let j1 := { j.report (if cause = 7 then 0x0A else 0x04) cause (slotWhere a.slot n pc) with
        slots := j.slots.map fun k => if k.phase < 2 then { k with phase := 3 } else k }
      let s4 := (s3.setJob j1).redRelease j1
      s4.stopSlots j1 n 0

/-- A slot faults at the instruction it stands at. -/
def State.slotFault (s : State) (n cause : Nat) : State := s.slotFaultAt n cause (s.get (F.ARR_PC_pc n))

/-- A slot ended on its array: its place in the job is marked, the array's job registers clear. -/
def State.slotGone (s : State) (n : Nat) : State :=
  let slot := (s.arr n).slot
  let s1 := match s.arrJob n with
    | none => s
    | some j => s.setJob { j with
        slots := listSet j.slots slot { j.slots.getD slot {} with phase := 3, pc := s.get (F.ARR_PC_pc n) } }
  (((s1.put (F.ARR_JOB_QUEUE_valid n) 0).put (F.ARR_RED_granted n) 0).put (F.ARR_RED_reserved n) 0).modArr n fun a =>
    { a with ending := false, wait := .none, stop := none, loading := false }

/-! ### Issue (R111 to R113, R122, R132, R133) -/

/-- The instruction word at the slot's pc. -/
def State.current (s : State) (n : Nat) : Option (BitVec 128 × Option WordCond) := (s.arr n).words[s.get (F.ARR_PC_pc n)]?

/-- The fields of the instruction at the slot's pc. -/
def State.insn (s : State) (n : Nat) : Insn :=
  match s.current n with
  | some w => decodeInsn w.1
  | none => decodeInsn 0

/-- Can the sequencer issue? Not while its die is stopped, fenced or in reset (R15). -/
def State.canIssue (s : State) (n : Nat) : Bool :=
  let a := s.arr n
  s.get (F.ARR_STATE_state n) == 1 && s.flag (F.ARR_JOB_QUEUE_valid n) && decide (a.wait = .none) && !a.ending && !a.loading
    && s.cdState (n / 24) == 3

/-- Is instruction `op` the next that the sequencer of array `n` issues? -/
def State.due (s : State) (n op : Nat) : Bool := s.canIssue n && decide ((s.insn n).op = op)

/-- Has every earlier instruction completed, and every partial that the array sent arrived (R127)? -/
def State.drained (s : State) (n : Nat) : Bool :=
  (s.arr n).flights.isEmpty && !s.transit.any fun p => decide (p.src = n)

/-- What fetching the instruction at a pc finds (R118, R122): a single bad byte is corrected and counted; it faults beyond the program, in an
uncorrectable word, and at an opcode not in R123. -/
def State.fetchCheck (s : State) (n : Nat) : State :=
  match s.current n with
  | none => s.slotFault n 2
  | some (w, c) =>
    if c.any WordCond.bad then
      ((s.satInc (F.ARR_LB_ERR_uncorrectable n)).raise (pgARR n) Ev.ARR_lb_uncorrectable).slotFault n 4
    else
      let s1 := if c.isSome then (s.satInc (F.ARR_LB_ERR_corrected n)).raise (pgARR n) Ev.ARR_lb_corrected else s
      if (opInfo (decodeInsn w).op).isNone then s1.slotFault n 2 else s1

/-- The sequencer moves to the instruction at index `pc`. -/
def State.goto (s : State) (n pc : Nat) : State := (s.put (F.ARR_PC_pc n) pc).fetchCheck n

/-- The non-reproducible mark on the job of an array (R314). -/
def State.markJob (s : State) (n : Nat) : State :=
  match s.arrJob n with
  | some j => s.setJob { j with nonrepro := true }
  | none => s

/-- An instruction issued: counted, an N operation noted (R133, R314). -/
def State.issued (s : State) (n : Nat) (i : Insn) : State :=
  let s1 := s.count (F.ARR_ISSUED_count n) 1
  if i.markN then (s1.put (F.ARR_STATE_nonrepro n) 1).markJob n else s1

/-- An instruction issued that completes in the cycle of its issue (R112); the next is at index `pc`. -/
def State.stepTo (s : State) (n : Nat) (i : Insn) (pc : Nat) : State := (s.issued n i).goto n pc

/-- The index of the next instruction. -/
def State.nextPc (s : State) (n : Nat) : Nat := s.get (F.ARR_PC_pc n) + 1

/-- The class of capability that an operation needs and that the array may have lost (R106): 1 four-bit products, 2
16-bit and split-BF16, 4 FFT. -/
def Insn.needsCap (i : Insn) : Nat :=
  if i.op = 0x33 ∨ i.op = 0x34 ∨ i.op = 0x35 then 4
  else if i.op = 0x30 ∨ i.op = 0x31 ∨ i.op = 0x36 then
    (if pairFourBit i.fa i.fb then 1 else if pairSixteen i.fa i.fb then 2 else 0)
  else 0

/-- The registers that an instruction reads at issue (R112, R123): every scalar operand but a destination; s0 is not read. -/
def Insn.scalars (i : Insn) : List Nat :=
  let dest : Bool := decide (i.op = 0x08 ∨ (0x0A ≤ i.op ∧ i.op ≤ 0x0D) ∨ i.op = 0x1B ∨ i.op = 0xF0 ∨ i.op = 0xF1 ∨ i.op = 0xF3)
  ([i.a, i.b, i.c] ++ if dest then [] else [i.d]).filterMap fun r =>
    match decodeRef r with
    | .sreg k => if k = 0 then none else some k
    | _ => none

/-- Does the instruction read an uncorrectable word of the scalar file, or of the return stack (R112)? -/
def ArrSt.scalarBad (a : ArrSt) (i : Insn) : Bool :=
  (i.scalars.map (· / 4) ++ if i.op = 0x07 then [8] else []).any fun w => (tabFind a.srCond w).any WordCond.bad

/-- Is the job on an array FFT-only (R350)? -/
def State.fftOnly (s : State) (n : Nat) : Bool := match s.arrJob n with | some j => j.cls == 2 | none => false

/-- The fault with which the instruction is refused at issue before its own checks (0: none): a contraction of an FFT-only job (R350),
R122, R106, R104, R112. Which cause is reported where several apply is a DESIGN CHOICE: 2, then 6, then 3, then 1, then those of the
operation, of a contraction 8, 9 and its further 2s (assumption 71). -/
def State.issueCause (s : State) (n : Nat) (i : Insn) : Nat :=
  if s.fftOnly n ∧ (i.op = 0x30 ∨ i.op = 0x31 ∨ i.op = 0x32 ∨ i.op = 0x36) then 2
  else if !i.legal (s.arr n).words.length then 2
  else if i.needsCap &&& s.arrCaps n ≠ i.needsCap then 6
  else if i.markN ∧ s.flag (F.ARR_STATE_exact n) ∧ !s.flag (F.ARR_STATE_allow_n n) then 3
  else if (s.arr n).scalarBad i then 1
  else 0

/-- The issue of an instruction with opcode `op` on array `n`: nothing happens unless the sequencer stands at one and can
issue; a word that the rules refuse faults the slot; otherwise the operation acts. -/
def State.issue (s : State) (n op : Nat) (act : State → Insn → State) : State :=
  if s.due n op then
    match s.issueCause n (s.insn n) with
    | 0 => act s (s.insn n)
    | c => s.slotFault n c
  else s

/-- Do two word ranges overlap? -/
def rangesMeet (x y : Nat × Nat) : Bool := decide (0 < x.2 ∧ 0 < y.2 ∧ x.1 < y.1 + y.2 ∧ y.1 < x.1 + x.2)

/-- Does an instruction that reads `rd` and writes `wr` have to wait for one in flight (R113)? -/
def ArrSt.hazard (a : ArrSt) (rd wr : List (Nat × Nat)) : Bool :=
  a.flights.any fun f =>
    rd.any (fun r => f.wr.any (rangesMeet r)) || wr.any (fun w => f.wr.any (rangesMeet w) || f.rd.any (rangesMeet w))

/-- May an instruction with these ranges join those in flight (R111, R113)? -/
def ArrSt.accepts (a : ArrSt) (rd wr : List (Nat × Nat)) : Bool :=
  decide (a.flights.length < 32) && !a.hazard rd wr

/-- An instruction put in flight: the words that it reads, `seen`, logged; rows that an LDT placed where it writes are theirs no longer;
the next instruction fetched. -/
def State.launch (s : State) (n : Nat) (i : Insn) (f : Fly) (seen : List (Nat × Nat)) : State :=
  let pc := s.get (F.ARR_PC_pc n)
  let s1 := (s.lbRead n seen).modArr n fun a =>
    { a with
      flights := a.flights ++ [{ f with id := a.nextId, pc := pc }]
      nextId := a.nextId + 1
      held := a.held.filter fun h => !f.wr.any (rangesMeet (h.word, h.pitch)) }
  s1.stepTo n i (pc + 1)

/-- An instruction whose ranges and operands are sound: in flight when R111 and R113 allow, otherwise not yet. -/
def State.tryLaunch (s : State) (n : Nat) (i : Insn) (f : Fly) : State :=
  if (s.arr n).accepts f.rd f.wr then s.launch n i f f.rd else s

/-- The oldest instruction in flight of a unit (each unit completes in issue order, R111). -/
def ArrSt.oldest (a : ArrSt) (u : IssueUnit) : Option Fly := a.flights.find? fun f => decide (f.unit = u)

/-- A flight changed in place. -/
def ArrSt.modFly (a : ArrSt) (id : Nat) (g : Fly → Fly) : ArrSt :=
  { a with flights := a.flights.map fun f => if f.id = id then g f else f }

/-! ### Landing -/

/-- The elements of a scatter applied to memory, one after another (R123): a target that reads poisoned stays so. -/
def State.scatItem (mode : Nat) (r : State × Nat) (it : Nat × Nat × Bool) : State × Nat :=
  let s := r.1
  if mode = 0 then (s.store it.1 (leBytes 4 it.2.1) it.2.2, r.2)
  else
    let old := s.load it.1 4
    let v := leNat old.2.1
    let x : Num := if mode = 1 then f32add v it.2.1 else ⟨(v + it.2.1) % 2 ^ 32, 0⟩
    let bad := it.2.2 || old.2.2
    (old.1.store it.1 (leBytes 4 x.val) bad, if bad then r.2 ||| 16 else r.2 ||| x.flags)

/-- Does an address lie in the die pool or the stack of die `d`? -/
def onDie (d a : Nat) : Bool :=
  decide (poolBase d ≤ a ∧ a < poolBase d + 0x4000000 ∨ stackBase d ≤ a ∧ a < stackBase d + 0x10000000)

/-- What of a flight lands while HB fences its die (R15): HB discards every flit from the die and its ring ports are closed, so nothing
leaves it. -/
def Fly.fenced (f : Fly) (d : Nat) : Fly :=
  { f with
    memW := f.memW.filter fun g => onDie d g.addr
    scat := f.scat.map fun c => { c with items := c.items.filter fun i => onDie d i.1 }
    bell := none
    parts := [] }

/-- The writes of a flight land: line buffers, device memory, doorbell, scatter, partials sent, flags. The answer says
whether a poisoned table element was met. -/
def State.land (s : State) (n : Nat) (f : Fly) : State × Bool :=
  let f := if s.cdState (n / 24) = 4 then f.fenced (n / 24) else f
  let s1 := f.bitW.foldl (fun s g => s.bitWrite n g) (f.lbW.foldl (fun s g => s.lbWrite n g) s)
  let s2 := f.memW.foldl (fun s g => s.store g.addr g.data g.poison) s1
  let s3 := match f.bell with
    | some b => s2.doorbell b.1 b.2 false
    | none => s2
  let r := match f.scat with
    | some c => c.items.foldl (State.scatItem c.mode) (s3, 0)
    | none => (s3, 0)
  let s5 := { r.1 with transit := r.1.transit ++ f.parts }
  (s5.numFlags n (f.flags ||| r.2 % 16), r.2.testBit 4)

/-- An instruction in flight completes (R111): its writes land; a poisoned operand or a failure met on the way then faults
the slot at that instruction (R102). -/
def State.complete1 (s : State) (n : Nat) (f : Fly) : State :=
  let s1 := s.modArr n fun a => { a with flights := a.flights.filter fun g => decide (g.id ≠ f.id) }
  let r := s1.land n f
  let cause := if f.cause ≠ 0 then f.cause else if r.2 then 1 else 0
  if cause = 0 then r.1 else r.1.slotFaultAt n cause f.pc

end Sys2Proof.Machine
end

