-- ==== Sys2Proof/Machine/HubOps.lean ====
section
/-! DEFINITION. What the hub engines share: command lists (R184, R241, R306, R356), requests to host memory (R322, R325,
R407, R408), and the data of outside reads. -/

namespace Sys2Proof.Machine

/-! ### Command lists -/

/-- The magic word and the bytes of a command of an engine class's list, and its error status (R359). -/
def listMagic (cls : Nat) : List Byte :=
  match cls with
  | 4 => [0x56#8, 0x50#8, 0x43#8, 0x31#8]
  | 5 => [0x56#8, 0x43#8, 0x50#8, 0x31#8]
  | 6 => [0x56#8, 0x4B#8, 0x43#8, 0x31#8]
  | _ => [0x56#8, 0x44#8, 0x43#8, 0x31#8]

def listBytes (cls : Nat) : Nat := if cls = 4 ∨ cls = 5 then 64 else 32

def listStatus (cls : Nat) : Nat :=
  match cls with
  | 3 => 0x07
  | 4 => 0x06
  | 5 => 0x08
  | 6 => 0x05
  | _ => 0x09

/-- Is a list header sound: magic, a count of 1 to 4,096, zeros elsewhere? -/
def listHeaderOk (cls : Nat) (h : List Byte) : Bool :=
  h.take 4 == listMagic cls && decide (1 ≤ fieldAt h 4 4 ∧ fieldAt h 4 4 ≤ 4096) && (bytesAt h 8 24).all (· == 0#8)

/-- Commands of a job's list. -/
def Job.listCount (j : Job) : Nat := fieldAt j.header 4 4

/-- A tile of a hub-engine job's digest: one for each command (R332). -/
def Job.hubTile (j : Job) (d : DWord) : Job :=
  if j.wantsDigest then { j with tiles := j.tiles ++ [⟨0, j.tiles.length, 0, 0, 0, d⟩] } else j

/-- PROJ_STATUS.state: busy while a projection job is on the engine (R269). -/
def State.projShow (s : State) : State :=
  if s.get F.PROJ_STATUS_state = 1 ∨ s.get F.PROJ_STATUS_state = 2 then
    s.put F.PROJ_STATUS_state (if s.jobs.any fun j => j.cls == 4 && j.stage == .placed then 2 else 1)
  else s

/-- What a page shows of a hub-engine job that has moved on. -/
def State.hubShow (s : State) (cls : Nat) : State := if cls = 4 then s.projShow else s

/-- The class of a job. -/
def State.clsOf (s : State) (q i : Nat) : Nat := ((s.job q i).map Job.cls).getD 0

/-- A command of a hub-engine list done, with the digest of its outputs if it has any: the next is current; after the last,
or when an abort asked for it (R361), the job ends. -/
def State.commandDone (s : State) (q i : Nat) (digest : Option DWord) : State :=
  (s.modJob q i fun j =>
    let j1 := match digest with
      | some d => j.hubTile d
      | none => j
    let j2 := { j1 with
      cmd := j.cmd + 1
      busy := false }
    if j2.listCount ≤ j2.cmd then { j2 with stage := .ended }
    else if j2.stopping then j2.ended 0x0A 0
    else j2) |>.hubShow (s.clsOf q i)

/-- A command of a hub-engine list failed: the list stops with the class's error status and the command's index; a projection command's
failure is told (R269). -/
def State.commandFailed (s : State) (q i : Nat) : State :=
  ((s.modJob q i fun j => { j.ended (listStatus j.cls) j.cmd with busy := false }).raiseIf (s.clsOf q i == 4) pgPROJ
    Ev.PROJ_cmd_fail).hubShow (s.clsOf q i)

/-- The bytes of a job's current command, and whether any of them reads poisoned. -/
def State.commandBytes (s : State) (j : Job) : State × List Byte × Bool :=
  s.load (j.program + 32 + listBytes j.cls * j.cmd) (listBytes j.cls)

/-- The current command of a hub-engine job run: nothing happens unless the job is on its engine with the command due and
`mine` accepts its operation code; a poisoned command fails. -/
def State.listCommand (s : State) (id : JobId) (cls : Nat) (mine : Nat → Bool)
    (run : State → Job → List Byte → State) : State :=
  match s.jobOf id with
  | none => s
  | some j =>
    if j.cls ≠ cls ∨ j.stage ≠ .placed ∨ j.busy ∨ j.listCount ≤ j.cmd then s
    else
      let r := s.commandBytes j
      if r.2.2 then r.1.commandFailed j.queue j.index
      else if mine (fieldAt r.2.1 0 1) then run r.1 j r.2.1
      else s

/-! ### Requests to host memory -/

/-- A write to host memory (R407, R408): posted while Bus Master Enable is set, dropped and counted otherwise. -/
def State.hostWrite (s : State) (addr : Nat) (bs : List Byte) (bad : Bool) : State :=
  if s.flag F.PCIE_STATUS_bus_master then s.emit .hostWrite [addr, if bad then 1 else 0] bs
  else s.satInc F.PCIE_ERR_ur_ca

/-- Data of an outside read reach the flight that asked for them. -/
def State.flyData (s : State) (n id dst : Nat) (bs : List Byte) (bad : Bool) : State :=
  s.modArr n fun a => a.modFly id fun f =>
    { f with
      lbW := f.lbW ++ segsOf (fun _ => bad) dst bs
      await := f.await - 1
      cause := if bad then 1 else f.cause }

/-- Data of an outside read reach the flight that asked for them as packed bits. -/
def State.flyBits (s : State) (n id bit len : Nat) (bs : List Byte) (bad : Bool) : State :=
  s.modArr n fun a => a.modFly id fun f =>
    { f with
      bitW := f.bitW ++ [⟨bit, len, leNat bs, bad⟩]
      await := f.await - 1
      cause := if bad then 1 else f.cause }

/-- The outcome of a DMA command whose data stand at their destination: poison stops its list (R356). -/
def State.dmaEnd (s : State) (q i : Nat) (bs : List Byte) (bad : Bool) : State :=
  if bad then s.commandFailed q i else s.commandDone q i (some (digest64 bs))

/-- The data of an outside read delivered: to its flight, or as the source of a DMA command. -/
def State.extDeliver (s : State) (r : ExtRead) (bs : List Byte) (bad : Bool) : State :=
  match r.arr with
  | some n => if r.bits = 0 then s.flyData n r.fly r.dst bs bad else s.flyBits n r.fly r.dst r.bits bs bad
  | none => (if r.toHost then s.hostWrite r.dst bs bad else s.store r.dst bs bad).dmaEnd r.queue r.index bs bad

/-- The journal record of a host read (R320, R322). -/
def State.recordHostRead (s : State) (r : ExtRead) (bs : List Byte) : State :=
  s.record 0x07 2 (r.queue % 65536) r.index (r.queue / 65536 + 65536 * (r.ordinal % 65536)) r.addr bs

/-- A host read that delivers no data: its words are poisoned over zeros, and captured like every read (R322; assumption 77). -/
def State.readFailed (s : State) (r : ExtRead) : State :=
  (s.recordHostRead r (List.replicate r.len 0#8)).extDeliver r (List.replicate r.len 0#8) true

/-- A host read of a job begun (R407): one more read counted; the request goes out while Bus Master Enable is set,
otherwise the words are delivered poisoned. In replay it is served from the record of its job and ordinal; a record
that is missing or holds no data stops the replay with cause 0x4, one whose digest differs with cause 0x3 (R325, R330). -/
def State.hostRequest (s : State) (r : ExtRead) : State :=
  let s1 := s.modJob r.queue r.index fun j => { j with reads := j.reads + 1 }
  if s.replaying then
    match s.jrnFind fun k => decide (k.kind = 0x07 ∧ k.src = r.queue % 65536 ∧ k.aux0 = r.index
        ∧ k.aux1 = r.queue / 65536 + 65536 * (r.ordinal % 65536)) with
    | some k =>
      match k.data with
      | some bs =>
        if k.digestOk then s1.extDeliver r (bytesAt bs 0 r.len) false
        else (s1.replayStop 3).extDeliver r (List.replicate r.len 0#8) true
      | none => (s1.replayStop 4).extDeliver r (List.replicate r.len 0#8) true
    | none => (s1.replayStop 4).extDeliver r (List.replicate r.len 0#8) true
  else if s.flag F.PCIE_STATUS_bus_master then
    { s1 with
      ext := tabSet s1.ext s1.extTag r
      extTag := s1.extTag + 1 }.emit .hostRead [s1.extTag, r.addr, r.len]
  else s1.readFailed r

end Sys2Proof.Machine
end

