-- ==== Sys2Proof/Machine/KvPages.lean ====
section
/-! DEFINITION. The KV page store: pools, pages and their state words, free lists, sequences and page tables (R167 to R176, R182,
R200). -/

namespace Sys2Proof.Machine

/-! ### Pools and state words (R168, R173) -/

/-- Is a pool in use? -/
def State.kvValid (s : State) (p : Nat) : Bool := decide (p < 8) && s.flag (F.KV_POOL_CFG_valid p)

/-- Bits of an element of a pool. -/
def State.kvWidth (s : State) (p : Nat) : Nat := if s.get (F.KV_POOL_CFG_format p) = 0 then 16 else 8

/-- Bytes of a row and of a page of a pool (R167). -/
def State.kvRow (s : State) (p : Nat) : Nat := s.get (F.KV_POOL_CFG_latent p) * s.kvWidth p / 8
def State.kvPage (s : State) (p : Nat) : Nat := 16 * s.kvRow p

/-- The format code of R353 that fits a pool. -/
def State.kvFormat (s : State) (p : Nat) : Nat :=
  match s.get (F.KV_POOL_CFG_format p) with
  | 0 => 10
  | 1 => 4
  | _ => 5

/-- Address of a page of a pool. -/
def State.kvAddr (s : State) (p page : Nat) : Nat :=
  s.addr (F.KV_POOL_BASE_LO_base p) + (page - s.get (F.KV_POOL_FIRST_page p)) * s.kvPage p

/-- The pool that holds a page number. -/
def State.kvPoolOf (s : State) (page : Nat) : Option Nat :=
  (List.range 8).find? fun p => s.kvValid p && decide (s.get (F.KV_POOL_FIRST_page p) ≤ page
    ∧ page < s.get (F.KV_POOL_FIRST_page p) + s.get (F.KV_POOL_COUNT_pages p))

/-- Address of a page's state word. -/
def State.kvWordAddr (s : State) (page : Nat) : Nat := s.addr F.KV_STATE_BASE_LO_base + 4 * page

/-- End of a free list. -/
def kvEnd : Nat := 0x3FFFFF

/-- A page named by no entry and still read. -/
def kvDraining (w : Nat) : Bool := decide (w < 2 ^ 30 ∧ w % 65536 = 0 ∧ w / 65536 % 256 ≠ 0)

/-- A page's state word written; KV_DRAINING follows it. -/
def State.kvSet (s : State) (page old new : Nat) : State :=
  let s1 := s.store (s.kvWordAddr page) (leBytes 4 new)
  match kvDraining old, kvDraining new with
  | false, true => s1.count F.KV_DRAINING_pages 1
  | true, false => s1.put F.KV_DRAINING_pages (s.get F.KV_DRAINING_pages - 1)
  | _, _ => s1

/-- The block faults (R187). -/
def State.kvBlockFault (s : State) : State := (s.put F.KV_STATUS_state 3).raise pgKV Ev.KV_block_fault

/-- A page's state word read: a correction is counted; an uncorrectable word retires the page (R200) and gives none. -/
def State.kvWord (s : State) (page : Nat) : State × Option Nat :=
  let a := s.kvWordAddr page
  let r := s.load a 4
  if r.2.2 then
    (((r.1.store a (leBytes 4 (2 ^ 30))).satInc F.KV_STATE_ERR_uncorrectable).raise pgKV Ev.KV_state_uncorrectable, none)
  else
    match tabFind s.cond (s.place a / 32) with
    | some (.one _) => ((r.1.satInc F.KV_STATE_ERR_corrected).raise pgKV Ev.KV_state_corrected, some (leNat r.2.1))
    | _ => (r.1, some (leNat r.2.1))

/-- Why a request to the manager fails: KV_FAULT.cause, whether it faults the block, the page it had resolved. -/
structure KvFail where
  cause : Nat
  block : Bool
  page  : Nat
deriving DecidableEq, Repr

/-- Does the failure count as a failed resolve (R179, R197)? Not an overflow, an uncorrectable word or a faulted block. -/
def KvFail.resolve (e : KvFail) : Bool := decide (e.cause = 5 ∨ e.cause = 8 ∨ e.cause = 0xA ∨ e.cause = 0xB)

/-- The outcome of a request. -/
abbrev KvRes := State × Option KvFail

/-- A page pushed on the head of its pool's free list (R175). -/
def State.kvReturn (s : State) (page old : Nat) : State :=
  match s.kvPoolOf page with
  | none => s.kvSet page old (2 ^ 31 + kvEnd)
  | some p =>
    let s1 := s.kvSet page old (2 ^ 31 + tabGet s.kv.heads p kvEnd)
    (({ s1 with kv := { s1.kv with heads := tabSet s1.kv.heads p page } }).count (F.KV_FREE_pages p) 1).count
      F.KV_RETURN_COUNT_count 1

/-- The free count of a pool lowered to `n`; below the low-water mark for the first time it raises pool_low (R197). -/
def State.kvFree (s : State) (p n : Nat) : State :=
  let low := s.get F.KV_LOW_WATER_pages
  (s.put (F.KV_FREE_pages p) n).raiseIf (decide (n < low ∧ low ≤ s.get (F.KV_FREE_pages p))) pgKV Ev.KV_pool_low

/-- References and pins of a page lowered in one step (R174 to R176). -/
def State.kvDec (s : State) (page dref dpin : Nat) : KvRes :=
  let r := s.kvWord page
  match r.2 with
  | none => (r.1, some ⟨7, true, page⟩)
  | some w =>
    let ref := w % 65536
    let pins := w / 65536 % 256
    if 2 ^ 31 ≤ w then (r.1, some ⟨if dref = 0 then 4 else 2, true, page⟩)
    else if 2 ^ 30 ≤ w then (r.1, none)
    else if ref < dref then (r.1, some ⟨2, true, page⟩)
    else if pins < dpin then (r.1, some ⟨4, true, page⟩)
    else if ref = dref ∧ pins = dpin then (r.1.kvReturn page w, none)
    else (r.1.kvSet page w (ref - dref + 65536 * (pins - dpin)), none)

/-- References and pins of a live page raised in one step (R174, R176). -/
def State.kvInc (s : State) (page dref dpin : Nat) : KvRes :=
  let r := s.kvWord page
  match r.2 with
  | none => (r.1, some ⟨7, true, page⟩)
  | some w =>
    if 2 ^ 30 ≤ w then (r.1, some ⟨7, true, page⟩)
    else if 65535 < w % 65536 + dref then (r.1, some ⟨1, true, page⟩)
    else if 255 < w / 65536 % 256 + dpin then (r.1, some ⟨3, true, page⟩)
    else (r.1.kvSet page w (w + dref + 65536 * dpin), none)

/-- A page taken from the head of a pool's free list with state word `new`; none where the list is empty (R182). A head whose
state word is uncorrectable is retired and the list behind it is lost with its link (assumption 22). -/
def State.kvAlloc (s : State) (p new : Nat) : KvRes × Nat :=
  match tabFind s.kv.heads p with
  | none => ((s.raise pgKV Ev.KV_pool_empty, some ⟨6, false, 0⟩), 0)
  | some page =>
    let r := s.kvWord page
    match r.2 with
    | none =>
      (({ r.1 with kv := { r.1.kv with heads := tabDel r.1.kv.heads p } }.kvFree p 0, some ⟨7, true, page⟩), 0)
    | some w =>
      let next := w % 4194304
      let heads := if next = kvEnd then tabDel r.1.kv.heads p else tabSet r.1.kv.heads p next
      let s1 := ({ r.1 with kv := { r.1.kv with heads := heads } }.kvFree p (s.get (F.KV_FREE_pages p) - 1)).count
        F.KV_ALLOC_COUNT_count 1
      ((s1.kvSet page w new, none), page)

/-! ### Sequences (R170 to R172) -/

/-- A sequence descriptor. -/
structure KvSeq where
  table  : Nat
  layers : Nat
  pool   : Nat
  isOpen : Bool
  blocks : Nat
  sound  : Bool
deriving DecidableEq, Repr

/-- Address of a sequence's descriptor. -/
def State.kvSeqAddr (s : State) (q : Nat) : Nat := s.addr F.KV_SEQ_BASE_LO_base + 32 * q

/-- The descriptor of a sequence; one that reads poisoned counts as closed. -/
def State.kvSeq (s : State) (q : Nat) : State × KvSeq :=
  let r := s.load (s.kvSeqAddr q) 32
  let b := r.2.1
  let t := fieldAt b 0 8
  let l := fieldAt b 8 2
  let m := fieldAt b 0xC 4
  let ok : Bool := decide (t % 256 = 0 ∧ 1 ≤ l ∧ l ≤ 256 ∧ fieldAt b 0xA 1 < 8 ∧ 1 ≤ m ∧ m ≤ 1048576)
    && (bytesAt b 0x10 16).all (· == 0#8)
  (r.1, ⟨t, l, fieldAt b 0xA 1, !r.2.2 && decide (fieldAt b 0xB 1 ≠ 0), m, !r.2.2 && ok⟩)

/-- Address of the page-table entry of a layer and block (R171). -/
def KvSeq.entry (q : KvSeq) (layer block : Nat) : Nat := q.table + 4 * (layer * q.blocks + block)

/-- The page that an entry names, if it is valid. -/
def State.kvEntry (s : State) (a : Nat) : State × Option Nat :=
  let r := s.load a 4
  let w := leNat r.2.1
  (r.1, if r.2.2 ∨ w < 2 ^ 31 then none else some (w % 4194304))

/-- An entry written. -/
def State.kvPutEntry (s : State) (a : Nat) (page : Option Nat) : State :=
  s.store a (leBytes 4 (match page with | some p => 2 ^ 31 + p | none => 0))

/-- A failure recorded (R176, R179, R182, R187). -/
def State.kvNote (s : State) (f : KvFail) (seq layer queue : Nat) : State :=
  let s1 := (((((s.put F.KV_FAULT_cause f.cause).putB F.KV_FAULT_block f.block).put F.KV_FAULT_PAGE_page f.page).put
    F.KV_FAULT_SEQ_seq seq).put F.KV_FAULT_SEQ_layer layer).put F.KV_FAULT_QUEUE_queue queue
  if f.block then s1.kvBlockFault else s1

/-- The check that a fetch or store of a descriptor passes (R172, R179): the descriptor, or why it fails. -/
def State.kvCheck (s : State) (seq layer block fmt : Nat) : State × (Except KvFail KvSeq) :=
  if s.get F.KV_STATUS_state ≠ 2 then (s, .error ⟨0xC, false, 0⟩)
  else if 65535 < seq then (s, .error ⟨0xB, false, 0⟩)
  else
    let r := s.kvSeq seq
    if !r.2.isOpen then (r.1, .error ⟨8, false, 0⟩)
    else if r.2.layers ≤ layer ∨ r.2.blocks ≤ block then (r.1, .error ⟨0xB, false, 0⟩)
    else if !s.kvValid r.2.pool ∨ s.kvFormat r.2.pool ≠ fmt then (r.1, .error ⟨0xA, false, 0⟩)
    else (r.1, .ok r.2)

/-- The queue of the job on an array. -/
def State.arrQueue (s : State) (n : Nat) : Nat := s.get (F.ARR_JOB_QUEUE_queue n)

end Sys2Proof.Machine
end

