-- ==== Sys2Proof/Machine/Views.lean ====
section
/-! DEFINITION. What a register access does beyond storing its bits: registers that show a selected or counted
thing, limits and locks of written values, effects of a changed control field; then the shared write and read
of a register (R47 to R60). -/

namespace Sys2Proof.Machine

/-- What becomes of a value about to be written. -/
inductive WriteRes where
  | ok (w : Word)
  | ignore
  /-- ignored with BLK_STATUS.level_reject (R397) -/
  | reject
deriving DecidableEq, Repr

/-- A field of the word clamped to [lo, hi]. -/
def clampFld (f : Fld) (lo hi : Nat) (w : Word) : Word := f.ins (min (max (f.ext w) lo) hi) w

/-- BLK_FAULT_ROUTE may only be widened (R65). -/
def widenRoute (b : Blk) (w : Word) : Word :=
  let r := BitVec.ofNat 32 (faultRouteReset b)
  let sevMin := if b = .stest then 1 else 2
  clampFld (F.BLK_FAULT_ROUTE_severity 0) sevMin 3 (w ||| (r &&& 0x0031FFFF#32))

/-- Limits and locks of a write of `new` to the register at `ident` of instance `inst` of a block. -/
def State.writeRule (s : State) (b : Blk) (inst ident : Nat) (req : Requester) (new : Word) : WriteRes :=
  if b = .psr ∨ b = .nor then (if ident = 0x28 ∨ ident = 0x2C then .ok new else .ignore)
  else if ident = 0x1C then .ok (widenRoute b new)
  else
    match b with
    | .gen => if ident = 0x100 ∧ req ≠ .mgmt then .ignore else .ok new
    | .disc => if ident = 0x100 then .ok (clampFld F.DISC_TIMEOUT_answer_us 10 1000 new) else .ok new
    | .st =>
      if ident = 0x100 then .ok (clampFld (F.ST_THR1_celsius 0) 0 100 new)
      else if ident = 0x104 then .ok (clampFld (F.ST_THR2_celsius 0) 0 110 new)
      else if ident = 0x108 then .ok (clampFld (F.ST_THR3_celsius 0) 0 118 new)
      else if ident = 0x10C then .ok (clampFld (F.ST_HYST_degrees 0) 3 8 new)
      else .ok new
    | .xslot => if 0x40 ≤ ident ∧ ident < 0x60 ∧ s.flag F.XSLOT_STATUS_h2x_pending then .ignore else .ok new
    | .mc =>
      if ident = 0x100 then
        let h := (F.MC_SPILL_high 0).ext new
        if 2 ≤ h ∧ h ≤ 64 ∧ (F.MC_SPILL_low 0).ext new < h then .ok new else .reject
      else if ident = 0x104 then .ok (clampFld (F.MC_RETRAIN_CFG_drift 0) 4 20 new)
      else if ident = 0x108 then .ok (clampFld (F.MC_SCRUB_CFG_hours 0) 1 168 new)
      else if ident = 0x114 then (if s.get (F.MC_STATUS_mode inst) < 2 then .ok new else .ignore)
      else .ok new
    | .memg => if ident = 0x100 ∧ s.get F.MEMG_STATUS_state ≠ 0 then .ignore else .ok new
    | .arr => if ident = 0x100 ∧ s.regWord (128 + inst) 0x100 &&& ~~~new ≠ 0#32 then .ignore else .ok new
    | .qeng => if 0x100 ≤ ident ∧ s.flag F.QENG_CTRL_enable then .ignore else .ok new
    | .kv => if 0x100 ≤ ident ∧ s.get F.KV_STATUS_state ≠ 0 then .ignore else .ok new
    | .ing => if (ident = 0x100 ∨ ident = 0x104) ∧ (List.range 4).any (fun k => s.get (F.ING_STREAM_EN_enable k) != 0)
        then .ignore else .ok new
    | .csi =>
      if ident = 0x24 then
        .ok (clampFld (F.CSI_RATE_rate 0) 80 (if s.flag (F.CSI_CTRL_phy inst) then 6000 else 4500) new)
      else .ok new
    | .ego =>
      if ident = 0x148 then .ok (clampFld F.EGO_LIMITS_extrap_us 0 20000 (clampFld F.EGO_LIMITS_max_dt_us 200 50000 new))
      else if 0x100 ≤ ident ∧ s.flag F.EGO_CTRL_enable then .ignore
      else .ok new
    | .proj => if 0x180 ≤ ident ∧ s.flag F.PROJ_CTRL_enable then .ignore else .ok new
    | .fus => if 0x100 ≤ ident ∧ s.flag F.FUS_CTRL_enable then .ignore else .ok new
    | .ward =>
      if ident = 0x30 ∨ ident = 0x34 then (if s.flag F.WARD_CTRL_enable then .ignore else .ok new)
      else if ident = 0x100 then .ok (clampFld F.WARD_PERIOD_frames 1 64 new)
      else if ident = 0x10C then .ok (clampFld F.WARD_PREEMPT_MAX_us 0 180 new)
      else .ok new
    | .coll =>
      if 0x100 ≤ ident ∧ ident < 0x118 ∧ s.flag F.COLL_CTRL_enable then .ignore
      else if ident = 0x118 then .ok (clampFld F.COLL_MARGIN_mm 20 1000 new)
      else .ok new
    | .planB => if ident = 0x110 then .ok (clampFld F.PLAN_LEAF_BUDGET_leaves 64 1024 new) else .ok new
    | .xgs =>
      let busy := s.xgs.active.any fun n =>
        decide ((fieldAt (s.bytes (s.addr F.XGS_COLL_BASE_LO_base + 128 * n) 4) 0 4 / 256) % 16 = s.get F.XGS_GROUP_SEL_group)
      if (ident = 0x100 ∨ ident = 0x110 ∨ ident = 0x114) ∧ s.flag F.XGS_CTRL_enable then .ignore
      else if 0x11C ≤ ident ∧ ident < 0x140 ∧ busy ∧ s.flag F.XGS_CTRL_enable then .ignore
      else if ident = 0x10C then .ok (clampFld F.XGS_TWIN_WAIT_us 100 50000 new)
      else if ident = 0x11C then .ok (clampFld F.XGS_GROUP_SIZE_size 1 32 new)
      else .ok new
    | .xl => if ident = 0x100 then .ok (new ||| s.regWord (48 + inst) 0x100) else .ok new
    | .thm =>
      if ident = 0x100 then
        let w := clampFld F.THM_WARN_warn 80 120 new
        .ok (clampFld F.THM_WARN_hot (F.THM_WARN_warn.ext w) 120 w)
      else if ident = 0x104 then
        let v := toSigned 8 (F.THM_COOL_LIMIT_inlet_max.ext new)
        .ok (clampFld F.THM_COOL_LIMIT_rise_max 2 20 (F.THM_COOL_LIMIT_inlet_max.ins (ofInt 8 (min (max v (-40)) 65)) new))
      else .ok new
    | .sup => if ident = 0x100 then .ok (clampFld F.SUP_DIP_MAX_ms 1 100 new) else .ok new
    | .farm => if ident = 0x104 then .ok (clampFld F.FARM_RELINK_MAX_ms 10 200 new) else .ok new
    | .stest =>
      let n := (ident - 0x120) / 8
      if ident = 0x100 then .ok (clampFld F.STEST_INTERVAL_ms 500 2000 new)
      else if ident = 0x104 then .ok (clampFld F.STEST_DRAIN_MAX_ms 1 200 new)
      else if (ident = 0x108 ∨ ident = 0x10C) ∧ s.flag F.STEST_CTRL_enable then .ignore
      else if 0x120 ≤ ident ∧ ident < 0x140
          ∧ ((s.get F.STEST_STACK_STATE_spilled).testBit n ∨ (s.stest.copy.any fun c => decide (c.1 = n))) then .ignore
      else .ok new
    | .jrn =>
      if 0x100 ≤ ident ∧ s.get F.JRN_CTRL_mode ≠ 0 then .ignore
      else if ident = 0x108 then .ok (clampFld F.JRN_SIZE_log2 20 36 new)
      else if ident = 0x200 then .ok (clampFld F.JRN_PACE_ratio 16 65535 new)
      else .ok new
    | _ => .ok new

/-- A bit as a number at place `k`. -/
def bitAt (b : Bool) (k : Nat) : Nat := if b then 2 ^ k else 0

/-- QENG registers that show the selected queue, and the jobs that await placement (R365). -/
def State.qengView (s : State) (ident : Nat) : Option Word :=
  let q := s.get F.QENG_QSEL_queue
  let v := s.queue q
  match ident with
  | 0x024 =>
    let n := (s.jobs.filter fun j => j.stage == .released).length
    some ((s.regWord pgQENG 0x024 &&& ~~~0xFF00#32) ||| BitVec.ofNat 32 (256 * min n 255))
  | 0x034 => some (BitVec.ofNat 32 v.producer)
  | 0x038 => some (BitVec.ofNat 32 v.consumer)
  | 0x03C =>
    some (BitVec.ofNat 32 (min v.inFlight 65535 + 65536 * v.kind + bitAt v.enabled 20 + bitAt v.faulted 21
      + bitAt (s.jobs.any fun j => j.queue == q && j.stage == .waiting) 22))
  | _ => none

/-- FENCE_VALUE of the selected object. -/
def State.fenceView (s : State) (ident : Nat) : Option Word :=
  let v := s.fence (s.get F.FENCE_SEL_object)
  match ident with
  | 0x028 => some (BitVec.ofNat 32 v)
  | 0x02C => some (BitVec.ofNat 32 (v / 2 ^ 32))
  | _ => none

/-- The array of a tile entry as DET_LOG_ARRAY shows it: logical, die, physical. -/
def tileArray (e : Option TileEnt) (sh : Nat) : Nat :=
  match e with
  | some t => (t.logical + 256 * t.die + 1024 * t.phys) * 2 ^ sh
  | none => 0

/-- DET registers that show the pending entries and the selected log entry (R335). -/
def State.detView (s : State) (ident : Nat) : Option Word :=
  let e := s.det.log[s.get F.DET_LOG_SEL_entry]?
  let of := fun (f : DetLog → Nat) => some (BitVec.ofNat 32 (match e with | some l => f l | none => 0))
  match ident with
  | 0x034 => some (BitVec.ofNat 32 (s.det.recorded.length + 65536 * s.det.replayed.length))
  | 0x044 => of fun l => l.queue + 2 ^ 31
  | 0x048 => of fun l => l.index
  | 0x04C => of fun l =>
      bitAt l.known 20 + (match l.replayed.or l.recorded with
        | some t => t.slot % 128 + 256 * (t.tile % 4096)
        | none => 0)
  | 0x050 => of fun l => tileArray l.replayed 0 + tileArray l.recorded 16
  | 0x054 => of fun l => l.recDigest.toNat
  | 0x058 => of fun l => l.recDigest.toNat / 2 ^ 32
  | 0x05C => of fun l => l.runDigest.toNat
  | 0x060 => of fun l => l.runDigest.toNat / 2 ^ 32
  | _ => none

/-- ING registers that show the selected stream (R205, R224). -/
def State.ingView (s : State) (ident : Nat) : Option Word :=
  let v := tabGet s.streams (s.get F.ING_SEL_stream) {}
  match ident with
  | 0x044 => some (BitVec.ofNat 32 v.seq)
  | 0x048 => some (BitVec.ofNat 32 (v.score + 256 * v.cause))
  | 0x04C => some (BitVec.ofNat 32 v.drops)
  | _ => none

/-- WARD_SEL_STATE of the selected stream (R221). -/
def State.wardView (s : State) (ident : Nat) : Option Word :=
  let v := tabGet s.streams (s.get F.WARD_SEL_stream) {}
  if ident = 0x054 then some (BitVec.ofNat 32 (v.deferrals + bitAt v.lastPass 2)) else none

/-- PROJ registers that show the selected calibration entry and delta (R238, R246). -/
def State.projView (s : State) (ident : Nat) : Option Word :=
  let valid := fun (lo : Nat) => BitVec.ofNat 32 ((List.range 32).foldl
    (fun m j => m + bitAt (decide ((tabGet s.proj.cal (32 * (lo + j)) 0#32).toNat % 16 ≠ 0)) j) 0)
  if 0x40 ≤ ident ∧ ident < 0x5C then
    some (BitVec.ofNat 32 (((tabGet s.proj.deltas (s.get F.PROJ_DELTA_SEL_entry) []).getD ((ident - 0x40) / 4) 0)))
  else if ident = 0x110 then some (valid 0)
  else if ident = 0x114 then some (valid 32)
  else if 0x180 ≤ ident ∧ ident < 0x200 then
    some (tabGet s.proj.cal (32 * s.get F.PROJ_CAL_SEL_entry + (ident - 0x180) / 4) 0#32)
  else none

/-- FUS registers that show the selected sensor (R248, R260). -/
def State.fusView (s : State) (ident : Nat) : Option Word :=
  let v := tabGet s.fus.sensors (s.get F.FUS_SENSOR_SEL_sensor) {}
  let c := tabGet s.fus.sensors (s.get F.FUS_SCFG_SEL_sensor) {}
  match ident with
  | 0x044 => some (BitVec.ofNat 32 (v.weight + bitAt v.health 8 + bitAt v.disputed 9 + bitAt v.timedOut 10
      + 4096 * (if v.disputed then v.kept else v.lost)))
  | 0x104 => some (BitVec.ofNat 32 (bitAt c.valid 0))
  | 0x108 => some (BitVec.ofNat 32 c.window)
  | 0x10C => some (BitVec.ofNat 32 c.reach)
  | _ => none

/-- The selected sensor's settings written. -/
def State.fusSetView (s : State) (ident : Nat) (w : Word) : Option State :=
  let k := s.get F.FUS_SCFG_SEL_sensor
  let c := tabGet s.fus.sensors k {}
  let put := fun (c : FusSensor) => some { s with fus := { s.fus with sensors := tabSet s.fus.sensors k c } }
  match ident with
  | 0x104 => put { c with validC := .of (w.toNat % 2) }
  | 0x108 => put { c with window := w.toNat % 2 ^ 24 }
  | 0x10C => put { c with reach := w.toNat % 2 ^ 24 }
  | _ => none

/-- The selected calibration entry written (R238). -/
def State.projSetView (s : State) (ident : Nat) (w : Word) : Option State :=
  if 0x180 ≤ ident ∧ ident < 0x200 then
    let k := 32 * s.get F.PROJ_CAL_SEL_entry + (ident - 0x180) / 4
    some { s with proj := { s.proj with cal := tabSet s.proj.cal k w } }
  else none

/-- PLAN registers that show the selected roadmap or plan slot (R308). -/
def State.planView (s : State) (ident : Nat) : Option Word :=
  let q := tabGet s.plan.shown (s.get F.PLAN_SLOT_SEL_slot) (0, 0)
  match ident with
  | 0x044 =>
    match tabFind s.plan.maps (s.get F.PLAN_RM_SEL_slot) with
    | some m => some (BitVec.ofNat 32 (s.peekNat (m + 4) 2 + 2 ^ 16 * s.peekNat (m + 8) 1 + 2 ^ 31))
    | none => some 0#32
  | 0x04C => some (BitVec.ofNat 32 q.1)
  | 0x050 => some (BitVec.ofNat 32 q.2)
  | _ => none

/-- XGS registers that show the route to the selected member (R416) and the selected group (R421). -/
def State.xgsView (s : State) (ident : Nat) : Option Word :=
  let g := tabGet s.xgs.groups (s.get F.XGS_GROUP_SEL_group) []
  if ident = 0x030 then
    match tabFind s.xgs.members (s.get F.XGS_ROUTE_SEL_id) with
    | some m => some (BitVec.ofNat 32 (m.link + 16 * m.hops + 2 ^ 31))
    | none => some 0#32
  else if 0x11C ≤ ident ∧ ident < 0x140 then some (g.getD ((ident - 0x11C) / 4) (.of 0)).vote
  else none

/-- The selected group written: its size word, then its rank words. -/
def State.xgsSetView (s : State) (ident : Nat) (w : Word) : Option State :=
  if 0x11C ≤ ident ∧ ident < 0x140 then
    let k := s.get F.XGS_GROUP_SEL_group
    let g := tabGet s.xgs.groups k []
    let g1 := listSet (g ++ List.replicate (9 - g.length) (.of 0)) ((ident - 0x11C) / 4) ⟨w, w, w⟩
    some { s with xgs := { s.xgs with groups := tabSet s.xgs.groups k g1 } }
  else none

/-- PCIE_BLK_PEND: pages routed to the host whose interrupt is asserted (R409). -/
def State.pcieView (s : State) (ident : Nat) : Option Word :=
  if 0x0C4 ≤ ident ∧ ident < 0x0E4 then
    let k := (ident - 0x0C4) / 4
    some (BitVec.ofNat 32 (((List.range 32).map fun j => bitAt (s.irqRouted (32 * k + j) && s.irqLevel (32 * k + j)) j).sum))
  else none

/-- Is an array in service? -/
def State.inService (s : State) (n : Nat) : Bool := (s.get (F.CD_ARR_SERVICE_in_service (n / 24))).testBit (n % 24)

/-- The rotation on die `d`. -/
def State.stDie (s : State) (d : Nat) : StestDie := tabGet s.stest.dies d {}
def State.setStDie (s : State) (d : Nat) (v : StestDie) : State :=
  { s with stest := { s.stest with dies := tabSet s.stest.dies d v } }

/-- Arrays of die `d` in service. -/
def State.servingOn (s : State) (d : Nat) : List Nat := (List.range 24).filter fun a => s.inService (24 * d + a)

/-- Test parts that one slice runs at a clock step: 4 at 600 MHz, 3, 2, 1 at 150 MHz. -/
def sliceParts (step : Nat) : Nat := min 3 step + 1

/-- The cadence of slices on a die, in ms (R478). -/
def State.cadence (s : State) (d : Nat) : Nat :=
  max 5 (s.get F.STEST_INTERVAL_ms * 3 / (4 * max 1 (s.servingOn d).length * (12 / sliceParts (s.get (F.PWR_CLK_array d)))))

/-- STEST registers that show the selected die (R478, R487): array of the open or last window, next part of its pass, cadence; the
oldest age. -/
def State.stestView (s : State) (ident : Nat) : Option Word :=
  let d := s.get F.STEST_DIE_SEL_die
  let v := s.stDie d
  match ident with
  | 0x02C =>
    let a := v.win.getD (v.last.getD 0)
    some (BitVec.ofNat 32 (a + bitAt v.win.isSome 5 + 256 * (tabGet v.parts a 0 % 16) + 65536 * min 255 (s.cadence d)))
  | 0x030 =>
    let age := fun (a : Nat) => (s.hubUs - tabGet v.passed a v.since) / 1000
    match s.servingOn d with
    | [] => some 0#32
    | a :: t =>
      let o := t.foldl (fun m b => if age m < age b then b else m) a
      some (BitVec.ofNat 32 (min 65535 (age o) + 65536 * o))
  | _ => none

/-- FLT_LOG_WORD of the selected record, 0 the newest (R441). -/
def State.fltView (s : State) (ident : Nat) : Option Word :=
  if 0x40 ≤ ident ∧ ident < 0x80 then
    some (BitVec.ofNat 32 (fieldAt (s.fltLog.getD (s.get F.FLT_LOG_SEL_entry) []) (ident - 0x40) 4))
  else none

/-- Rollback counter `c` (R525), a tumbler field. -/
def State.rollback (s : State) (c : Nat) : Nat := (tabGet s.sec.counters c (.of 0)).num

/-- SEC registers that show the selected measurement and counter (R525, R532). -/
def State.secView (s : State) (ident : Nat) : Option Word :=
  if ident = 0x088 then some (BitVec.ofNat 32 (s.rollback (s.get F.SEC_ROLLBACK_SEL_counter)))
  else if 0x0C0 ≤ ident ∧ ident < 0x100 then
    some (BitVec.ofNat 32 (fieldAt (tabGet s.sec.meas (s.get F.SEC_MEAS_SEL_slot) []) (ident - 0x0C0) 4))
  else none

/-- FARM_PROG_MS: milliseconds since the segment began (R553). -/
def State.farmView (s : State) (ident : Nat) : Option Word :=
  if ident = 0x03C then some (if s.farm.began then BitVec.ofNat 32 ((s.hubUs - s.farm.startUs) / 1000) else 0#32) else none

/-- ISL_TIME: the island's counter. -/
def State.islView (s : State) (i ident : Nat) : Option Word :=
  let t := (tabGet s.isl i {}).time
  match ident with
  | 0x028 => some (BitVec.ofNat 32 t)
  | 0x02C => some (BitVec.ofNat 32 (t / 2 ^ 32))
  | _ => none

/-- Registers that show what the module measures, or count cycles: what they read is open (assumption 2). -/
def measured (b : Blk) (ident : Nat) : Bool :=
  match b with
  | .pwr => ident == 0x40
  | .sup => ident == 0x2C || (decide (0x40 ≤ ident ∧ ident < 0x68))
  | .arr => ident == 0x50 || ident == 0x54
  | _ => false

/-- A read of a counter held elsewhere clears it (R47). -/
def State.rcView (s : State) (b : Blk) (ident : Nat) : State :=
  match b, ident with
  | .ing, 0x04C =>
    let k := s.get F.ING_SEL_stream
    { s with streams := tabSet s.streams k { tabGet s.streams k {} with drops := 0 } }
  | _, _ => s

/-- Registers that show something held elsewhere. -/
def State.readView (s : State) (b : Blk) (inst ident : Nat) : Option Word :=
  match b with
  | .mc => s.mcView inst ident
  | .memg => s.memgView ident
  | .qeng => s.qengView ident
  | .fenceB => s.fenceView ident
  | .det => s.detView ident
  | .ing => s.ingView ident
  | .ward => s.wardView ident
  | .proj => s.projView ident
  | .fus => s.fusView ident
  | .planB => s.planView ident
  | .xgs => s.xgsView ident
  | .pcie => s.pcieView ident
  | .stest => s.stestView ident
  | .flt => s.fltView ident
  | .sec => s.secView ident
  | .farm => s.farmView ident
  | .isl => s.islView inst ident
  | _ => none

/-- Writable registers that hold something elsewhere. -/
def State.setView (s : State) (b : Blk) (inst ident : Nat) (w : Word) : Option State :=
  match b with
  | .mc => s.mcSetView inst ident w
  | .proj => s.projSetView ident w
  | .fus => s.fusSetView ident w
  | .xgs => s.xgsSetView ident w
  | _ => none

/-- ARR_CAPS less the capabilities that ARR_CAP_DISABLE withdraws; a capability lost raises the event (R106). -/
def State.capsShow (s : State) (n : Nat) : State :=
  let old := s.regWord (128 + n) 0x34
  let new := old &&& ~~~(s.regWord (128 + n) 0x100 &&& 7#32)
  if new = old then s else (s.putWord (128 + n) 0x34 new).raise (128 + n) Ev.ARR_capability_withdrawn

/-- Effects of a changed control field that has no command of its own. -/
def State.afterWrite (s : State) (b : Blk) (inst ident : Nat) : State :=
  match b with
  | .mc => if ident = 0x20 then s.mcMode inst else s
  | .memg => if ident = 0x20 then s.memgNormal else s
  | .arr => if ident = 0x100 then s.capsShow inst else s
  | .csi => if ident = 0x20 ∧ !s.flag (F.CSI_CTRL_enable inst) then s.put (F.CSI_STATUS_deskewed inst) 0 else s
  | .det =>
    if ident = 0x20 then
      (if s.flag F.DET_CTRL_compare then (if s.get F.DET_STATUS_state = 0 then s.put F.DET_STATUS_state 1 else s)
       else s.put F.DET_STATUS_state 0)
    else s
  | _ => s

/-! ### Votes and repairs (R58, R59) -/

/-- Which copies of a cell differ from the majority: one of them by number, or 3 for more than one. -/
def RegCell.wrong (c : RegCell) : Option Nat :=
  match decide (c.c0 = c.vote), decide (c.c1 = c.vote), decide (c.c2 = c.vote) with
  | true, true, true => none
  | false, true, true => some 0
  | true, false, true => some 1
  | true, true, false => some 2
  | _, _, _ => some 3

/-- A repair recorded: the register, which copy, by the scrub or by an access (R58, R59). -/
def State.repairNote (s : State) (page ident copy : Nat) (scrub : Bool) : State :=
  ((((s.satInc (F.BLK_VOTE_STATUS_repairs page)).put (F.BLK_VOTE_STATUS_last_word page) (ident / 4)).put
    (F.BLK_VOTE_STATUS_last_copy page) copy).putB (F.BLK_VOTE_STATUS_by_scrub page) scrub).raise page 31

/-- Three copies rewritten from their majority. -/
def RegCell.mended (c : RegCell) : RegCell := ⟨c.vote, c.vote, c.vote⟩

/-- The tumbler registers of a block that a select register addresses: identity, selection, copies. -/
def State.selCells (s : State) (b : Blk) (inst : Nat) : List (Nat × Nat × RegCell) :=
  match b with
  | .ing => s.streams.map fun e => (0x048, e.1, e.2.scoreC)
  | .fus => s.fus.sensors.flatMap fun e => [(0x044, e.1, e.2.disputedC), (0x104, e.1, e.2.validC)]
  | .xgs => s.xgs.groups.map fun e => (0x11C, e.1, e.2.headD (.of 0))
  | .mc => (s.mc inst).remap.map fun e => (0x114, e.1, e.2)
  | .sec => s.sec.counters.map fun e => (0x088, e.1, e.2)
  | _ => []

/-- Which entry the select register of such a register names. -/
def State.selected (s : State) (b : Blk) (inst ident : Nat) : Nat :=
  match b with
  | .ing => s.get F.ING_SEL_stream
  | .fus => if ident = 0x044 then s.get F.FUS_SENSOR_SEL_sensor else s.get F.FUS_SCFG_SEL_sensor
  | .xgs => s.get F.XGS_GROUP_SEL_group
  | .mc => s.remapSel inst
  | _ => s.get F.SEC_ROLLBACK_SEL_counter

/-- One such register mended. -/
def State.selMend (s : State) (b : Blk) (inst ident k : Nat) : State :=
  match b with
  | .ing => { s with streams := s.streams.map fun e => if e.1 = k then (e.1, { e.2 with scoreC := e.2.scoreC.mended }) else e }
  | .fus => { s with fus := { s.fus with sensors := s.fus.sensors.map fun e =>
      if e.1 = k then (e.1, if ident = 0x044 then { e.2 with disputedC := e.2.disputedC.mended }
        else { e.2 with validC := e.2.validC.mended }) else e } }
  | .xgs => { s with xgs := { s.xgs with groups := s.xgs.groups.map fun e =>
      if e.1 = k then (e.1, match e.2 with | [] => [] | c :: t => c.mended :: t) else e } }
  | .mc => s.setMc inst { s.mc inst with remap := (s.mc inst).remap.map fun e => if e.1 = k then (e.1, e.2.mended) else e }
  | .sec => { s with sec := { s.sec with counters := s.sec.counters.map fun e => if e.1 = k then (e.1, e.2.mended) else e } }
  | _ => s

/-- The selected tumbler registers at an identity voted and repaired: by an access the one selected, by the scrub all of them. -/
def State.selRepair (s : State) (page ident : Nat) (scrub : Bool) : State :=
  match pageRun page with
  | none => s
  | some r =>
    let inst := page - r.first
    ((s.selCells r.blk inst).filter fun e => decide (e.1 = ident ∧ (scrub = true ∨ e.2.1 = s.selected r.blk inst ident))).foldl
      (fun s e => match e.2.2.wrong with
        | none => s
        | some k => (s.selMend r.blk inst ident e.2.1).repairNote page ident k scrub) s

/-- A register voted: disagreeing copies rewritten from the majority and the repair recorded (R58). -/
def State.repair (s : State) (page ident : Nat) (scrub : Bool) : State :=
  let s1 := match (s.cell page ident).wrong with
    | none => s
    | some k => (s.putWord page ident (s.regWord page ident)).repairNote page ident k scrub
  s1.selRepair page ident scrub

/-! ### The shared write and read -/

/-- The value a register shows. -/
def State.shown (s : State) (page ident : Nat) : Word :=
  match pageRun page with
  | none => 0#32
  | some r => (s.readView r.blk (page - r.first) ident).getD (s.regWord page ident)

/-- Bits of a register whose change is a command of its own (enables, modes): a plain write leaves them. -/
def cmdMask (b : Blk) (ident : Nat) : Word :=
  match b with
  | .dike | .qeng | .kv | .ing | .ego | .proj | .fus | .coll | .planB | .xgs | .xl | .stest =>
    if ident = 0x20 then 1#32 else if b = .ing ∧ 0x30 ≤ ident ∧ ident < 0x40 then 0xFFFFFFFF#32 else 0#32
  | .jrn => if ident = 0x20 then 3#32 else 0#32
  | .pwr => if ident = 0x24 then 3#32 else 0#32
  | _ => 0#32

/-- A write that has passed the gate, stored in the register at `ident` (R51 to R58, R65). -/
def State.storeReg (s : State) (page ident : Nat) (acc : Acc) : State :=
  match pageRun page, regAt page ident with
  | some r, some d =>
    let inst := page - r.first
    let s1 := if acc.view = .base then s else s.repair page ident false
    let old := s1.shown page ident
    let cm := cmdMask r.blk ident
    let new := (writtenWord d acc.view old acc.val &&& ~~~cm) ||| (old &&& cm)
    match s1.writeRule r.blk inst ident acc.req new with
    | .ignore => s1
    | .reject => s1.accessErr (F.BLK_STATUS_level_reject page)
    | .ok w =>
      let s2 := (s1.setView r.blk inst ident w).getD (s1.putWord page ident w)
      (s2.irqEdge (s.irqLevel page) page).afterWrite r.blk inst ident
  | _, _ => s

/-- A register write (R45 to R60). -/
def State.writeReg (s : State) (page off : Nat) (acc : Acc) : State :=
  match s.gate page off acc with
  | .stop s1 => s1
  | .pass s1 ident => s1.storeReg page ident acc

/-- What a write asks of the fields of a register: the RW and RWV bits that its view makes, and the WO bits of a
base-view write (R51, R52). -/
def offeredWord (d : RegDef) (v : View) (old val : Word) : Word :=
  let wm := BitVec.ofNat 32 (d.maskOf FAcc.writable)
  let om := if v = .base then BitVec.ofNat 32 (d.maskOf (· == .wo)) else 0#32
  (viewValue v old val &&& wm) ||| (val &&& om)

/-- A write to a register that carries a command: the plain bits are stored as for any write, then the command
acts on the bits that the write offers. -/
def State.command (s : State) (page off : Nat) (acc : Acc) (act : State → Word → State) : State :=
  match s.gate page off acc with
  | .stop s1 => s1
  | .pass s1 ident =>
    match regAt page ident with
    | some d => act (s1.storeReg page ident acc) (offeredWord d acc.view (s1.shown page ident) acc.val)
    | none => s1

/-- The bits of a word that byte enables select. -/
def beMask (be : BitVec 4) : Word :=
  (if be.getLsbD 0 then 0xFF#32 else 0#32) ||| (if be.getLsbD 1 then 0xFF00#32 else 0#32)
    ||| (if be.getLsbD 2 then 0xFF0000#32 else 0#32) ||| (if be.getLsbD 3 then 0xFF000000#32 else 0#32)

/-- The bits of RC fields whose every byte a read covers (R47). -/
def rcMask (d : RegDef) (be : BitVec 4) : Word :=
  BitVec.ofNat 32 (d.fields.foldl
    (fun m f =>
      let fm := (2 ^ (f.hi - f.lo + 1) - 1) * 2 ^ f.lo
      if f.acc == .rc ∧ (List.range 4).all (fun i => be.getLsbD i || decide (f.hi < 8 * i ∨ 8 * i + 7 < f.lo))
      then m + fm else m) 0)

/-- A register read (R45 to R58): the value goes to `readData`; a base-view read clears the RC fields it covers. -/
def State.readReg (s : State) (page off : Nat) (v : View) (be : BitVec 4) (req : Requester := .host) : State :=
  let ident := pageIdent page off
  if s.hubOff ∨ (req = .xs ∧ page ≠ 62) then s
  else if s.pageUnmapped page ∨ s.bootHides page req then { s.unmappedAccess page with readData := 0#32 }
  else if s.pageShadow page ∧ ¬(ident < 0x20 ∨ (ident = 0x20 ∧ 96 ≤ page ∧ page < 100)) then { s with readData := 0#32 }
  else if s.flag (F.BLK_STATUS_in_reset page) ∧ !s.pageShadow page ∧ ident ≠ 0 ∧ ident ≠ 4 ∧ ident ≠ 0xC then { s with readData := 0#32 }
  else
    match regAt page ident with
    | none => { s with readData := 0#32 }
    | some d =>
      let s0 := if s.pageShadow page then s else s.repair page ident false
      let open' := !s.pageShadow page && (match pageRun page with
        | some r => measured r.blk ident
        | none => false)
      let s1 := if open' then s0.fresh.2 else s0
      let w := if open' then BitVec.ofNat 32 s0.fresh.1 &&& BitVec.ofNat 32 (d.maskOf fun _ => true) else s1.shown page ident
      let w1 := if s.pageShadow page ∧ ident = 0xC then w &&& ~~~(1#32) else w
      let s2 := if v = .base ∧ ¬s.pageShadow page ∧ rcMask d be ≠ 0#32 then
          let rst := resetWord s.fuse page ident
          let s3 := s1.putWord page ident ((s1.regWord page ident &&& ~~~rcMask d be) ||| (rst &&& rcMask d be))
          match pageRun page with
          | some r => if be = 0xF#4 then s3.rcView r.blk ident else s3
          | none => s3
        else s1
      { s2 with readData := w1 &&& beMask be }

end Sys2Proof.Machine
end

