-- ==== Sys2Proof/Machine/Pages.lean ====
section
/-! DEFINITION. The commands of 02_register_pages: register writes and reads, the unlock sequence, the tumbler scrub. -/

namespace Sys2Proof.Machine

abbrev Result := Host.Outcome State Fault Refusal

/-- REGISTER_WRITE (R51): a write to a register, through its view, after the checks of R45 to R60. The WO bits of
a register have their effect in the commands that stand for them. -/
def execRegisterWrite (page : BitVec 8) (off : BitVec 12) (acc : Acc) (s : State) : Result :=
  .next (s.writeReg page.toNat off.toNat acc)

/-- RC_READ (R47): a read; through the base view it clears the RC fields that its byte enables cover. -/
def execRcRead (page : BitVec 8) (off : BitVec 12) (v : View) (be : BitVec 4) (req : Requester) (s : State) : Result :=
  .next (s.readReg page.toNat off.toNat v be req)

/-- BLK_LEVEL_WRITE (R61, R62, R63). -/
def execBlkLevelWrite (page : BitVec 8) (acc : Acc) (s : State) : Result :=
  .next (s.writeReg page.toNat 0x008 acc)

/-- UNLOCK_TIMEOUT (R61): 64 register-clock cycles after the first word, armed clears. -/
def execUnlockTimeout (page : BitVec 8) (s : State) : Result := .next (s.disarm page.toNat)

/-- GEN_HOST_EXPERT_WRITE (R63): only the management complex may write GEN_HOST_EXPERT. -/
def execGenHostExpertWrite (acc : Acc) (s : State) : Result := .next (s.writeReg 0 0x100 acc)

/-- Does a register hold a tumbler field? -/
def RegDef.tumbler (d : RegDef) : Bool := d.fields.any fun f => f.acc == .rwv || f.acc == .rov

/-- Identities of a page's registers that hold tumbler fields. -/
def tumblerIdents (page : Nat) : List Nat :=
  match pageRun page with
  | none => []
  | some r =>
    [4, 0x1C] ++ ((blkRegs r.blk).filter RegDef.tumbler).flatMap fun d => (List.range d.count).map fun i => d.off + d.stride * i

/-- TUMBLER_SCRUB (R59): every tumbler field of the page is voted and repaired. -/
def execTumblerScrub (page : BitVec 8) (s : State) : Result :=
  .next ((tumblerIdents page.toNat).foldl (fun s i => s.repair page.toNat i true) s)

/-- ST_THR_WRITE (R38): ST_THR1 to ST_THR3 (k = 0 to 2), clamped to the reset value. -/
def execStThrWrite (n : Fin 4) (k : Fin 3) (acc : Acc) (s : State) : Result :=
  .next (s.writeReg (pgST n) (0x100 + 4 * k) acc)

/-- ST_HYST_WRITE (R38): clamped to 3 to 8 °C. -/
def execStHystWrite (n : Fin 4) (acc : Acc) (s : State) : Result := .next (s.writeReg (pgST n) 0x10C acc)

/-- H2X_DATA_WRITE (R41): ignored while h2x_pending is 1. -/
def execH2xDataWrite (k : Fin 8) (acc : Acc) (s : State) : Result := .next (s.writeReg pgXSLOT (0x40 + 4 * k) acc)

end Sys2Proof.Machine
end

