-- ==== Sys2Proof/Machine/SeqInsns.lean ====
section
/-! DEFINITION. The commands of class 0x0, 0x1 and 0xF of R123: control, scalars, waits and diagnostics of the sequencer
(R112, R123, R127 to R131, R137, R154, R155). FENCE_DONE and FSIG stand with the Xagus traffic they may wait for. -/

namespace Sys2Proof.Machine

/-- A branch of the sequencer. -/
def State.branch (s : State) (n : Nat) (i : Insn) (taken : Bool) : State :=
  s.stepTo n i (if taken then i.target else s.nextPc n)

/-- NOP: none. -/
def execNop (n : Arr) (s : State) : Result :=
  .next (s.issue (arrNum n) 0x00 fun s i => s.stepTo (arrNum n) i (s.nextPc (arrNum n)))

/-- END (R135): once the fence of FENCE.P is met, the slot completes and the array is idle. -/
def execEndSlot (n : Arr) (s : State) : Result :=
  let k := arrNum n
  .next (s.issue k 0x01 fun s i =>
    if s.drained k then (((s.issued k i).slotGone k).put (F.ARR_STATE_state k) 0).raise (pgARR k) Ev.ARR_job_done else s)

/-- JMP: branch. -/
def execJmp (n : Arr) (s : State) : Result :=
  .next (s.issue (arrNum n) 0x02 fun s i => s.branch (arrNum n) i true)

/-- BRZ: branch if a = 0. -/
def execBrz (n : Arr) (s : State) : Result :=
  .next (s.issue (arrNum n) 0x03 fun s i => s.branch (arrNum n) i (decide ((s.arr (arrNum n)).operand i.a = 0)))

/-- BRNZ: branch if a ≠ 0. -/
def execBrnz (n : Arr) (s : State) : Result :=
  .next (s.issue (arrNum n) 0x04 fun s i => s.branch (arrNum n) i (decide ((s.arr (arrNum n)).operand i.a ≠ 0)))

/-- A scalar written, then the next instruction. -/
def State.setReg (s : State) (n : Nat) (i : Insn) (r v : Nat) : State :=
  (s.modArr n fun a => a.setScalar (refReg r) v).stepTo n i (s.nextPc n)

/-- LOOP: a := a − 1; branch if a ≠ 0. -/
def execLoop (n : Arr) (s : State) : Result :=
  let k := arrNum n
  .next (s.issue k 0x05 fun s i =>
    let s1 := s.modArr k fun a => a.setScalar (refReg i.a) (a.operand i.a + 2 ^ 64 - 1)
    s1.branch k i (decide ((s1.arr k).operand i.a ≠ 0)))

/-- CALL: push the next index; branch. A full return stack faults (R122). -/
def execCall (n : Arr) (s : State) : Result :=
  let k := arrNum n
  .next (s.issue k 0x06 fun s i =>
    if 8 ≤ (s.arr k).stack.length then s.slotFault k 2
    else (s.modArr k fun a => { a with stack := s.nextPc k :: a.stack, srCond := srMerge a.srCond 32 }).branch k i true)

/-- RET: pop and branch. An empty return stack faults (R122). -/
def execRet (n : Arr) (s : State) : Result :=
  let k := arrNum n
  .next (s.issue k 0x07 fun s i =>
    match (s.arr k).stack with
    | [] => s.slotFault k 2
    | pc :: t => (s.modArr k fun a => { a with stack := t }).stepTo k i pc)

/-- SLI: d := imm, zero-extended. -/
def execSli (n : Arr) (s : State) : Result :=
  .next (s.issue (arrNum n) 0x08 fun s i => s.setReg (arrNum n) i i.d i.imm)

/-- SLIH: d[63:32] := imm. -/
def execSlih (n : Arr) (s : State) : Result :=
  let k := arrNum n
  .next (s.issue k 0x09 fun s i => s.setReg k i i.d ((s.arr k).operand i.d % 2 ^ 32 + 2 ^ 32 * i.imm))

/-- imm sign-extended to 64 bits. -/
def Insn.simm (i : Insn) : Nat := ofInt 64 (toSigned 32 i.imm)

/-- SADD: d := a + b, or a + imm sign-extended if b is none, modulo 2^64. -/
def execSadd (n : Arr) (s : State) : Result :=
  let k := arrNum n
  .next (s.issue k 0x0A fun s i =>
    let a := s.arr k
    s.setReg k i i.d (a.operand i.a + (if decodeRef i.b = .none then i.simm else a.operand i.b)))

/-- SSUB: d := a − b modulo 2^64. -/
def execSsub (n : Arr) (s : State) : Result :=
  let k := arrNum n
  .next (s.issue k 0x0B fun s i => s.setReg k i i.d ((s.arr k).operand i.a + 2 ^ 64 - (s.arr k).operand i.b))

/-- SMUL: d := low 64 bits of a × imm, imm sign-extended. -/
def execSmul (n : Arr) (s : State) : Result :=
  let k := arrNum n
  .next (s.issue k 0x0C fun s i => s.setReg k i i.d ((s.arr k).operand i.a * i.simm))

/-- Offset and size of a numbered field of a tensor descriptor (R352, R353). -/
def tdField (kind k : Nat) : Option (Nat × Nat) :=
  let dense : List (Nat × Nat) := [(0, 1), (1, 1), (2, 2), (4, 4), (8, 4), (0xC, 4), (0x10, 4), (0x14, 4), (0x18, 8),
    (0x20, 8), (0x28, 8), (0x30, 8), (0x38, 8)]
  if kind = 1 then dense[k]? else if kind = 2 then (dense.take 5)[k]? else none

/-- SGET (R352, R353): d := a numbered field of a descriptor; 0 from a slot of zeros (R117); a field outside the range
of its kind faults. -/
def execSget (n : Arr) (s : State) : Result :=
  let k := arrNum n
  .next (s.issue k 0x0D fun s i =>
    let t := (s.arr k).td i.a
    if fieldAt t 0 1 = 0 then s.setReg k i i.d 0
    else
      match tdField (fieldAt t 0 1) i.imm with
      | some f => s.setReg k i i.d (fieldAt t f.1 f.2)
      | none => s.slotFault k 2)

/-- RDSLOT: d := slot index, or slot count if mod[0] = 1. -/
def execRdslot (n : Arr) (s : State) : Result :=
  let k := arrNum n
  .next (s.issue k 0x1B fun s i =>
    s.setReg k i i.d (if i.mod = 1 then ((s.arrJob k).map Job.slotCount).getD 1 else (s.arr k).slot))

/-- RDCYC: d := cycle counter. The cycles passed since it was last read are a free value (assumption 21). -/
def execRdcyc (n : Arr) (s : State) : Result :=
  let k := arrNum n
  .next (s.issue k 0xF0 fun s i =>
    let r := s.fresh
    let c := ((s.arr k).cycles + r.1) % 2 ^ 64
    (r.2.modArr k fun a => { a with cycles := c }).setReg k i i.d c)

/-- RDID: d := physical array [4:0], die [9:8], stepping [23:16]. -/
def execRdid (n : Arr) (s : State) : Result :=
  let k := arrNum n
  .next (s.issue k 0xF1 fun s i =>
    s.setReg k i i.d (s.get (F.ARR_STATE_phys k) + 256 * (k / 24) + 65536 * s.get (F.DISC_TOPO_CLASS_stepping (k / 24))))

/-- Line-buffer words named by operand a and imm: inside the line buffers, no write to them in flight. -/
def State.diagRead (s : State) (n : Nat) (i : Insn) (act : List (List Byte × Bool) → State → State) : State :=
  let a := s.arr n
  let w := a.lbWord i.a
  if !lbFits w i.imm then s.slotFault n 2
  else if !a.accepts [(w, i.imm)] [] then s
  else
    let ws := a.wordsAt w i.imm
    let s1 := act ws (s.lbRead n [(w, i.imm)])
    if ws.any (·.2) then s1.slotFault n 1 else s1.stepTo n i (s.nextPc n)

/-- CKDIG (R331): the words form the slot's next tile digest. -/
def execCkdig (n : Arr) (s : State) : Result :=
  let k := arrNum n
  .next (s.issue k 0xF2 fun s i =>
    s.diagRead k i fun ws s =>
      let a := s.arr k
      let e : TileEnt := ⟨a.slot, a.tiles, k % 24, k / 24, s.get (F.ARR_STATE_phys k), digest64 (ws.flatMap (·.1))⟩
      let s1 := s.setArr k { a with tiles := a.tiles + 1 }
      match s1.arrJob k with
      | some j => s1.setJob { j with tiles := j.tiles ++ [e] }
      | none => s1)

/-- LBSIG (R476): d := CRC-64 of the words. -/
def execLbsig (n : Arr) (s : State) : Result :=
  let k := arrNum n
  .next (s.issue k 0xF3 fun s i =>
    s.diagRead k i fun ws s => s.modArr k fun a => a.setScalar (refReg i.d) (crc64 (ws.flatMap (·.1))).toNat)

/-- An array halted at an instruction boundary (R136). -/
def State.haltArr (s : State) (n : Nat) : State := (s.put (F.ARR_STATE_state n) 2).raise (pgARR n) Ev.ARR_halted

/-- BRK (R137): halts the array while the debug port is unlocked for it, never in a safety-relevant job; else a NOP. -/
def execBrk (n : Arr) (s : State) : Result :=
  let k := arrNum n
  .next (s.issue k 0xF4 fun s i =>
    let s1 := s.stepTo k i (s.nextPc k)
    let safety : Bool := match s.arrJob k with | some j => j.safety | none => false
    if (s.get F.SEC_DEBUG_STATE_scope).testBit 4 && !safety && !(s1.arr k).ending then s1.haltArr k else s1)

/-! ### Fences, barriers and waits -/

/-- The sequencer waits; the waiting instruction stays current until it is satisfied. -/
def State.holdFor (s : State) (n : Nat) (i : Insn) (w : ArrWait) : State :=
  (s.issued n i).modArr n fun a => { a with wait := w }

/-- A wait ends: the instruction at index `pc` is next. -/
def State.release (s : State) (n pc : Nat) : State := (s.modArr n fun a => { a with wait := .none }).goto n pc

/-- FENCE.A (R127). -/
def execFenceA (n : Arr) (s : State) : Result :=
  .next (s.issue (arrNum n) 0x10 fun s i => s.holdFor (arrNum n) i (.fence 0))

/-- FENCE.D (R127). -/
def execFenceD (n : Arr) (s : State) : Result :=
  .next (s.issue (arrNum n) 0x11 fun s i => s.holdFor (arrNum n) i (.fence 1))

/-- FENCE.P (R127). -/
def execFenceP (n : Arr) (s : State) : Result :=
  .next (s.issue (arrNum n) 0x12 fun s i => s.holdFor (arrNum n) i (.fence 2))

/-- FENCE.X (R127, R419). -/
def execFenceX (n : Arr) (s : State) : Result :=
  .next (s.issue (arrNum n) 0x13 fun s i => s.holdFor (arrNum n) i (.fence 3))

/-- Slots of a job on a die. -/
def Job.slotsOn (j : Job) (d : Nat) : Nat := (j.slots.filter fun k => decide (k.phase ≠ 0 ∧ k.die = d)).length

/-- BAR.D (R129): the slot fences, adds 1 to the die's counter of its job and waits for the next multiple. -/
def execBarD (n : Arr) (s : State) : Result :=
  let k := arrNum n
  .next (s.issue k 0x14 fun s i =>
    match s.arrJob k with
    | none => s
    | some j =>
      let total := j.slotsOn (k / 24)
      let c := if i.imm / 65536 = 0 then total else i.imm / 65536
      if total < c ∨ c = 0 then s.slotFault k 2
      else if !s.drained k then s
      else
        let ctr := k / 24 * 64 + i.imm % 64
        let v := tabGet j.bars ctr 0
        (s.setJob { j with bars := tabSet j.bars ctr (v + 1) }).holdFor k i (.barD ctr ((v / c + 1) * c)))

/-- BAR.P (R129): as BAR.D on a package fence object. -/
def execBarP (n : Arr) (s : State) : Result :=
  let k := arrNum n
  .next (s.issue k 0x15 fun s i =>
    let total := ((s.arrJob k).map Job.slotCount).getD 1
    let c := if i.imm % 65536 = 0 then total else i.imm % 65536
    if total < c then s.slotFault k 2
    else if !s.drained k then s
    else
      let o := refObj i.c
      let v := s.fence o
      (s.fenceAdd o 1).holdFor k i (.barP o ((v / c + 1) * c)))

/-- BARRIER_RELEASE (R129): the counter has reached the multiple awaited. -/
def execBarrierRelease (n : Arr) (s : State) : Result :=
  let k := arrNum n
  .next (if s.get (F.ARR_STATE_state k) ≠ 1 then s
    else
      match (s.arr k).wait with
      | .barD ctr t =>
        if t ≤ ((s.arrJob k).map fun j => tabGet j.bars ctr 0).getD 0 then s.release k (s.nextPc k) else s
      | .barP o t => if t ≤ s.fence o then s.release k (s.nextPc k) else s
      | _ => s)

/-- FWAIT (R128). -/
def execFwait (n : Arr) (s : State) : Result :=
  let k := arrNum n
  .next (s.issue k 0x16 fun s i => s.holdFor k i (.obj (refObj i.c) ((s.arr k).operand i.a)))

/-- FWAIT_SATISFIED (R128): the object is at least the value. -/
def execFwaitSatisfied (n : Arr) (s : State) : Result :=
  let k := arrNum n
  .next (if s.get (F.ARR_STATE_state k) ≠ 1 then s
    else
      match (s.arr k).wait with
      | .obj o t => if t ≤ s.fence o then s.release k (s.nextPc k) else s
      | _ => s)

/-- Is an address one of a row ready counter: 8-byte aligned, in a die pool, outside its reduction buffer (R154)? -/
def State.rowCounter (s : State) (a : Nat) : Bool :=
  decide (a % 8 = 0) && (match s.region a with | .pool _ => true | _ => false) && !touchesRedBuf a 8

/-- ROWWAIT (R154, R155). -/
def execRowwait (n : Arr) (s : State) : Result :=
  let k := arrNum n
  .next (s.issue k 0x18 fun s i =>
    let addr := (s.arr k).operand i.a
    if s.rowCounter addr then s.holdFor k i (.row addr ((s.arr k).operand i.b)) else s.slotFault k 2)

/-- ROWWAIT.T (R131, R154): in Fast mode it marks the job (R314). -/
def execRowwaitT (n : Arr) (s : State) : Result :=
  let k := arrNum n
  .next (s.issue k 0x19 fun s i =>
    let a := s.arr k
    let addr := a.operand i.a
    if s.rowCounter addr then
      let s1 := if s.flag (F.ARR_STATE_exact k) then s else s.markJob k
      s1.holdFor k i (.rowT addr (a.operand i.b) (a.operand i.c) i.imm)
    else s.slotFault k 2)

/-- A waiting slot reads its row counter: poisoned it faults, at the row or beyond the wait ends (R154, R155). -/
def State.rowCheck (s : State) (n addr row : Nat) : State :=
  let r := s.load addr 8
  if r.2.2 then r.1.slotFault n 1
  else if row ≤ leNat r.2.1 then r.1.release n (s.nextPc n)
  else s

/-- ROWWAIT_SATISFIED (R131, R154). -/
def execRowwaitSatisfied (n : Arr) (s : State) : Result :=
  let k := arrNum n
  .next (if s.get (F.ARR_STATE_state k) ≠ 1 then s
    else
      match (s.arr k).wait with
      | .row addr row => s.rowCheck k addr row
      | .rowT addr row _ _ => s.rowCheck k addr row
      | _ => s)

/-- ROWWAIT_T_EXPIRY (R131): the limit passes first and execution branches. -/
def execRowwaitTExpiry (n : Arr) (s : State) : Result :=
  let k := arrNum n
  .next (if s.get (F.ARR_STATE_state k) ≠ 1 then s
    else
      match (s.arr k).wait with
      | .rowT addr row _ target =>
        if !(s.poisonedAt addr 8) && decide (s.peekNat addr 8 < row) then s.release k target else s.rowCheck k addr row
      | _ => s)

/-- ROWPUB (R154): after its fence the counter is set to b; b may not be below it. -/
def execRowpub (n : Arr) (s : State) : Result :=
  let k := arrNum n
  .next (s.issue k 0x1A fun s i =>
    let addr := (s.arr k).operand i.a
    let row := (s.arr k).operand i.b
    if !s.rowCounter addr ∨ (i.mod = 0 ∧ s.region addr ≠ .pool (k / 24)) then s.slotFault k 2
    else if !s.drained k then s
    else
      let r := s.load addr 8
      if r.2.2 then r.1.slotFault k 1
      else if row < leNat r.2.1 then r.1.slotFault k 2
      else (if row = leNat r.2.1 then r.1 else r.1.store addr (leBytes 8 row)).stepTo k i (s.nextPc k))

end Sys2Proof.Machine
end

