-- ==== Sys2Proof/Machine/Trans.lean ====
section
/-! DEFINITION. Exponential, logarithm, sine and cosine in fixed point of 192 fraction bits, far finer than the formats
they are rounded to: twiddle factors (R159) and the centres of the fast approximations (R100). -/

namespace Sys2Proof.Machine

/-- One in fixed point. -/
def fxOne : Int := 2 ^ 192

def fxMul (a b : Int) : Int := (a * b).fdiv fxOne
def fxDiv (a b : Int) : Int := if b = 0 then 0 else (a * fxOne).fdiv b

/-- A finite value in fixed point. -/
def Val.toFx : Val → Int
  | .fin n m e =>
    let x : Int := (roundInt m (e + 192) : Nat)
    if n then -x else x
  | _ => 0

/-- arctan(1/k) by its series. -/
def fxAtanInv (k : Nat) : Int :=
  (List.range 140).foldl
    (fun s j =>
      let t : Int := fxOne.fdiv ((2 * j + 1) * k ^ (2 * j + 1) : Nat)
      if j % 2 = 0 then s + t else s - t) 0

/-- π by Machin's formula. -/
def fxPi : Int := 4 * (4 * fxAtanInv 5 - fxAtanInv 239)

/-- Sum of the series 1 + x/1 (1 + x/2 (1 + …)) with `n` terms: e^x for small x. -/
def fxExpSmall (x : Int) : Int := (List.range 60).reverse.foldl (fun s k => fxOne + (fxMul x s).fdiv (k + 1 : Nat)) fxOne

/-- 2 atanh(y) for |y| ≤ 1/3. -/
def fxAtanh2 (y : Int) : Int :=
  let y2 := fxMul y y
  2 * fxMul y ((List.range 70).reverse.foldl (fun s k => fxOne.fdiv (2 * k + 1 : Nat) + fxMul y2 s) 0)

/-- The natural logarithm of a fixed-point number from 1 to 2. -/
def fxLogUnit (x : Int) : Int := fxAtanh2 (fxDiv (x - fxOne) (x + fxOne))

/-- The arc tangent of a fixed-point number from 0 to 1: the angle halved twice, then its series. -/
def fxAtan (x : Int) : Int :=
  let half := fun (x : Int) => fxDiv x (fxOne + (isqrt ((fxOne * fxOne + x * x).toNat) : Int))
  let y := half (half x)
  let y2 := fxMul y y
  4 * fxMul y ((List.range 48).reverse.foldl (fun s k => fxOne.fdiv (2 * k + 1 : Nat) - fxMul y2 s) 0)

/-- The angle of the point (x, y), y not negative, not both 0. -/
def fxAtan2 (y x : Int) : Int :=
  let a := (x.natAbs : Int)
  let t := if y ≤ a then fxAtan (fxDiv y a) else fxPi.fdiv 2 - fxAtan (fxDiv a y)
  if x < 0 then fxPi - t else t

/-- ln 2. -/
def fxLn2 : Int := fxLogUnit (2 * fxOne)

/-- sin and cos of a small fixed-point angle by their series. -/
def fxSinSmall (x : Int) : Int :=
  let x2 := fxMul x x
  fxMul x ((List.range 35).reverse.foldl (fun s k => fxOne - (fxMul x2 s).fdiv ((2 * k + 2) * (2 * k + 3) : Nat)) fxOne)

def fxCosSmall (x : Int) : Int :=
  let x2 := fxMul x x
  (List.range 35).reverse.foldl (fun s k => fxOne - (fxMul x2 s).fdiv ((2 * k + 1) * (2 * k + 2) : Nat)) fxOne

/-- cos and sin of 2π e / n in fixed point, exact on the axes; e below n, n a multiple of 8. -/
def fxUnit (e n : Nat) : Int × Int :=
  let q := 8 * e / n
  let r := 8 * e % n
  let ang := fun (k : Nat) => (2 * fxPi * k).fdiv (8 * n : Nat)
  -- within octant q the angle is either r above its start or n − r below its end
  let lo := (if r = 0 then (fxOne, 0) else (fxCosSmall (ang r), fxSinSmall (ang r)))
  let hi := (fxCosSmall (ang (n - r)), fxSinSmall (ang (n - r)))
  match q with
  | 0 => (lo.1, lo.2)
  | 1 => (hi.2, hi.1)
  | 2 => (-lo.2, lo.1)
  | 3 => (-hi.1, hi.2)
  | 4 => (-lo.1, -lo.2)
  | 5 => (-hi.2, -hi.1)
  | 6 => (lo.2, -lo.1)
  | _ => (hi.1, -hi.2)

/-- A fixed-point number rounded to FP32. -/
def fxToF32 (x : Int) : Nat := (fp32.roundScaled x (-192) false).1

/-- e^v of a finite value, to 192 fraction bits. -/
def valExp (v : Val) : Val :=
  let x := v.toFx
  let k := (x + fxLn2.fdiv 2).fdiv fxLn2
  .fin false (fxExpSmall (x - k * fxLn2)).toNat (k - 192)

/-- ln of a positive finite value, to 192 fraction bits. -/
def valLog (v : Val) : Val :=
  match v with
  | .fin _ m e =>
    let l : Int := (bitLen m : Int) - 1
    let u : Int := (roundInt m (192 - l) : Nat)
    let x := fxLogUnit u + (l + e) * fxLn2
    .fin (decide (x < 0)) x.natAbs (-192)
  | _ => .nan

end Sys2Proof.Machine
end

