-- ==== Sys2Proof/Machine/VectorInsns.lean ====
section
/-! DEFINITION. The commands of classes 0x4 to 0x7 of R123: the vector unit, the transpose and shuffle unit, the fast
approximations (R75, R95 to R101, R124). A result element that depends on a poisoned one is poisoned (R102). -/

namespace Sys2Proof.Machine

/-- An element with its poison. -/
abbrev Elt := Nat × Bool

/-- A result element with its flags and poison. -/
abbrev NumElt := Num × Bool

/-- The first `n` elements of an endless repetition of 32. -/
def repeat32 (es : List Elt) (n : Nat) : List Elt :=
  ((List.replicate ((n + 31) / 32) es).flatten).take n

/-- The elements of operand a, and the words they are read from. -/
def ArrSt.vecA (a : ArrSt) (i : Insn) (w : Nat) : List Elt × List (Nat × Nat) :=
  (a.elems (a.lbWord i.a) w 0 i.imm, [(a.lbWord i.a, elemWords i.imm w)])

/-- The 32-bit elements of a further line-buffer operand, reused in groups of 32 when mod[6] is set (R124). -/
def ArrSt.vecReuse (a : ArrSt) (i : Insn) (r : Nat) : List Elt × List (Nat × Nat) :=
  if i.mod.testBit 6 then (repeat32 (a.elems (a.lbWord r) 32 0 32) i.imm, [(a.lbWord r, 4)])
  else (a.elems (a.lbWord r) 32 0 i.imm, [(a.lbWord r, elemWords i.imm 32)])

/-- Operand b: broadcast from a scalar when mod[7] is set (R124). -/
def ArrSt.vecB (a : ArrSt) (i : Insn) : List Elt × List (Nat × Nat) :=
  if i.mod.testBit 7 then (List.replicate i.imm (a.operand i.b % 2 ^ 32, false), []) else a.vecReuse i i.b

/-- Result elements on their way to the line buffers at operand d, each `w` bits wide; a range beyond word 32,767
faults (R122). -/
def State.vecDone (s : State) (n : Nat) (i : Insn) (u : IssueUnit) (rd : List (Nat × Nat)) (w : Nat)
    (es : List NumElt) : State :=
  let a := s.arr n
  let wr := [(a.lbWord i.d, elemWords es.length w)]
  if (rd ++ wr).all fun r => lbFits r.1 r.2 then
    s.tryLaunch n i
      { id := 0, unit := u, pc := 0, rd := rd, wr := wr,
        lbW := a.putElems (a.lbWord i.d) w (es.map fun e => (e.1.val, e.2)),
        flags := es.foldl (fun f e => if e.2 then f else f ||| e.1.flags) 0,
        cause := if es.any (·.2) then 1 else 0 }
  else s.slotFault n 2

/-- An element-wise operation of one operand of `w` bits, results of `wo` bits. -/
def State.vec1 (s : State) (n op : Nat) (u : IssueUnit) (w wo : Insn → Nat) (f : Insn → Nat → Num) : State :=
  s.issue n op fun s i =>
    let x := (s.arr n).vecA i (w i)
    s.vecDone n i u x.2 (wo i) (x.1.map fun e => (f i e.1, e.2))

/-- An element-wise operation of two 32-bit operands. -/
def State.vec2 (s : State) (n op : Nat) (f : Insn → Nat → Nat → Num) : State :=
  s.issue n op fun s i =>
    let x := (s.arr n).vecA i 32
    let y := (s.arr n).vecB i
    s.vecDone n i .vector (x.2 ++ y.2) 32 ((x.1.zip y.1).map fun e => (f i e.1.1 e.2.1, e.1.2 || e.2.2))

/-- An element-wise operation of three 32-bit operands. A result depends on all three, that of VSEL on the operand it does not select too
(R102): DESIGN CHOICE (assumption 71). -/
def State.vec3 (s : State) (n op : Nat) (f : Nat → Nat → Nat → Num) : State :=
  s.issue n op fun s i =>
    let x := (s.arr n).vecA i 32
    let y := (s.arr n).vecB i
    let z := (s.arr n).vecReuse i i.c
    s.vecDone n i .vector (x.2 ++ y.2 ++ z.2) 32
      ((x.1.zip (y.1.zip z.1)).map fun e => (f e.1.1 e.2.1.1 e.2.2.1, e.1.2 || e.2.1.2 || e.2.2.2))

/-- A result without flags. -/
def plainNum (v : Nat) : Num := ⟨v, 0⟩

/-- VCMP: 1 if the predicate holds, else 0 (R123); a NaN operand is noted (R105), whatever the predicate: DESIGN CHOICE
(assumption 71). -/
def cmpNum (pred a b : Nat) : Num :=
  let x := f32v a
  let y := f32v b
  let t := match pred with
    | 0 => x.eq y
    | 1 => x.lt y
    | 2 => x.le y
    | 3 => !x.eq y
    | _ => x.isNan || y.isNan
  ⟨if t then 1 else 0, if x.isNan || y.isNan then flNanIn else 0⟩

/-- VSH: left by b if b ≥ 0, arithmetic right by −b; counts of 32 or more shift every bit out (R123). -/
def shiftNum (a b : Nat) : Num :=
  let c := toSigned 32 b
  plainNum (if 0 ≤ c then (if c < 32 then a * 2 ^ c.toNat % 2 ^ 32 else 0)
    else ofInt 32 ((toSigned 32 a).fdiv (2 ^ (min 31 (-c).toNat))))


/-- VADD: d := a + b (R99). -/
def execVadd (n : Arr) (s : State) : Result :=
  .next (s.vec2 (arrNum n) 0x40 fun _ a b => f32add a b)

/-- VSUB: d := a − b (R99). -/
def execVsub (n : Arr) (s : State) : Result :=
  .next (s.vec2 (arrNum n) 0x41 fun _ a b => f32sub a b)

/-- VMUL: d := a × b (R99). -/
def execVmul (n : Arr) (s : State) : Result :=
  .next (s.vec2 (arrNum n) 0x42 fun _ a b => f32mul a b)

/-- VFMA: d := a × b + c, one rounding (R99). -/
def execVfma (n : Arr) (s : State) : Result := .next (s.vec3 (arrNum n) 0x43 f32fma)

/-- VDIV: d := a / b (R99). -/
def execVdiv (n : Arr) (s : State) : Result :=
  .next (s.vec2 (arrNum n) 0x44 fun _ a b => f32div a b)

/-- VSQRT: d := square root of a (R99). -/
def execVsqrt (n : Arr) (s : State) : Result :=
  .next (s.vec1 (arrNum n) 0x45 .vector (fun _ => 32) (fun _ => 32) fun _ a => f32sqrt a)

/-- VMIN: minimum under R99. -/
def execVmin (n : Arr) (s : State) : Result :=
  .next (s.vec2 (arrNum n) 0x46 fun _ a b => f32min a b)

/-- VMAX: maximum under R99. -/
def execVmax (n : Arr) (s : State) : Result :=
  .next (s.vec2 (arrNum n) 0x47 fun _ a b => f32max a b)

/-- VCMP (R123). -/
def execVcmp (n : Arr) (s : State) : Result :=
  .next (s.vec2 (arrNum n) 0x48 fun i a b => cmpNum (i.mod % 8) a b)

/-- VSEL: d := a where the pattern of c has any bit set, else b (R123). -/
def execVsel (n : Arr) (s : State) : Result :=
  .next (s.vec3 (arrNum n) 0x49 fun a b c => plainNum (if c = 0 then b else a))

/-- VIADD: 32-bit add modulo 2^32. -/
def execViadd (n : Arr) (s : State) : Result :=
  .next (s.vec2 (arrNum n) 0x50 fun _ a b => plainNum ((a + b) % 2 ^ 32))

/-- VSH (R123). -/
def execVsh (n : Arr) (s : State) : Result :=
  .next (s.vec2 (arrNum n) 0x51 fun _ a b => shiftNum a b)

/-- VAND: bitwise and. -/
def execVand (n : Arr) (s : State) : Result :=
  .next (s.vec2 (arrNum n) 0x52 fun _ a b => plainNum (a &&& b))

/-- VOR: bitwise or. -/
def execVor (n : Arr) (s : State) : Result :=
  .next (s.vec2 (arrNum n) 0x53 fun _ a b => plainNum (a ||| b))

/-- VCVT (R96, R99): the sat bit chooses saturating or IEEE behaviour; an MX element by its element value alone. -/
def execVcvt (n : Arr) (s : State) : Result :=
  .next (s.vec1 (arrNum n) 0x54 .vector (fun i => fmtWidth i.fa) (fun i => fmtWidth i.fo) fun i a =>
    convert i.fo i.sat (fmtVal i.fa a))

/-- A list cut into groups of `k`. -/
def groupsOf {α : Type} (k : Nat) : Nat → List α → List (List α)
  | 0, _ => []
  | n + 1, l => if l.isEmpty then [] else l.take k :: groupsOf k n (l.drop k)

/-- VCVTMX (R97): blocks of 32 consecutive elements, one scale byte each at c. -/
def execVcvtmx (n : Arr) (s : State) : Result :=
  let k := arrNum n
  .next (s.issue k 0x55 fun s i =>
    let a := s.arr k
    let x := a.vecA i 32
    let w := fmtWidth i.fo
    let gs := (groupsOf 32 i.imm x.1).map fun g => (mxBlock i.fo (g.map fun e => f32v e.1), g.any (·.2))
    let es : List Elt := gs.flatMap fun g => g.1.2.1.map fun v => (v, g.2)
    let cw := (a.lbWord i.c, elemWords gs.length 8)
    let dw := (a.lbWord i.d, elemWords es.length w)
    if (cw :: dw :: x.2).all fun r => lbFits r.1 r.2 then
      s.tryLaunch k i
        { id := 0, unit := .vector, pc := 0, rd := x.2, wr := [dw, cw],
          lbW := a.putElems dw.1 w es ++ a.putElems cw.1 8 (gs.map fun g => (g.1.1, g.2)),
          flags := gs.foldl (fun f g => if g.2 then f else f ||| g.1.2.2) 0,
          cause := if gs.any (·.2) then 1 else 0 }
    else s.slotFault k 2)

/-- A reduction of each group of 256 elements to one. -/
def State.vecReduce (s : State) (n op : Nat) (f : List Nat → Num) : State :=
  s.issue n op fun s i =>
    let x := (s.arr n).vecA i 32
    s.vecDone n i .vector x.2 32 ((groupsOf 256 i.imm x.1).map fun g => (f (g.map (·.1)), g.any (·.2)))

/-- VREDSUM (R101): the canonical tree over 256 lanes, a short last group filled with +0. -/
def execVredsum (n : Arr) (s : State) : Result := .next (s.vecReduce (arrNum n) 0x56 laneSum)

/-- The maximum of the elements present (R99, R123). -/
def laneMax (l : List Nat) : Num :=
  match l with
  | [] => ⟨0, 0⟩
  | x :: t => t.foldl (fun m y => let r := f32max m.val y; ⟨r.val, m.flags ||| r.flags⟩) (f32max x x)

/-- VREDMAX (R123): the elements present only. -/
def execVredmax (n : Arr) (s : State) : Result := .next (s.vecReduce (arrNum n) 0x57 laneMax)

/-- TRANS (R123): a matrix of 32-bit elements transposed. -/
def execTrans (n : Arr) (s : State) : Result :=
  let k := arrNum n
  .next (s.issue k 0x60 fun s i =>
    let a := s.arr k
    let rows := i.imm % 65536
    let cols := i.imm / 65536
    let es := a.elems (a.lbWord i.a) 32 0 (rows * cols)
    s.vecDone k i .shuffle [(a.lbWord i.a, elemWords (rows * cols) 32)] 32
      ((List.range cols).flatMap fun c => (List.range rows).map fun r =>
        let e := es.getD (r * cols + c) (0, false)
        (plainNum e.1, e.2)))

/-- SHUF (R123): d[i] := a[b[i]]; an element beyond word 32,767 faults. For R113 it reads every line-buffer word; those of its indices
and those that they name are read. -/
def execShuf (n : Arr) (s : State) : Result :=
  let k := arrNum n
  .next (s.issue k 0x61 fun s i =>
    let a := s.arr k
    let words := elemWords i.imm 32
    let wr := [(a.lbWord i.d, words)]
    if !lbFits (a.lbWord i.b) words || !lbFits (a.lbWord i.d) words then s.slotFault k 2
    else if !a.accepts [(0, 32768)] wr then s
    else
      let ix := a.elems (a.lbWord i.b) 32 0 i.imm
      if ix.any fun e => !e.2 && decide (32768 ≤ a.lbWord i.a + e.1 / 8) then s.slotFault k 2
      else
        let es : List Elt := ix.map fun e => if e.2 then (0, true) else (a.elems (a.lbWord i.a) 32 e.1 1).headD (0, false)
        let named := ((ix.filter fun e => !e.2).map fun e => a.lbWord i.a + e.1 / 8).dedup
        s.launch k i
          { id := 0, unit := .shuffle, pc := 0, rd := [(0, 32768)], wr := wr,
            lbW := a.putElems (a.lbWord i.d) 32 es
            cause := if es.any (·.2) then 1 else 0 } ((a.lbWord i.b, words) :: named.map fun w => (w, 1)))

/-- PACK (R75, R123): 8-bit elements to 4 or 6 bits by low bits. -/
def execPack (n : Arr) (s : State) : Result :=
  .next (s.vec1 (arrNum n) 0x62 .shuffle (fun i => fmtWidth i.fa) (fun i => fmtWidth i.fo) fun _ a => plainNum a)

/-- UNPACK (R123): one byte per element; INT4 sign-extended, the others zero-extended. -/
def execUnpack (n : Arr) (s : State) : Result :=
  .next (s.vec1 (arrNum n) 0x63 .shuffle (fun i => fmtWidth i.fa) (fun _ => 8) fun i a =>
    plainNum (if i.fa = 2 then ofInt 8 (toSigned 4 a) else a))

/-! ### Fast approximations (R100)

Their bits are open within the stated bounds: a free value chooses among the results that the bound allows; outside the stated domain
the result is a free value. -/

/-- An FP32 pattern as a place in their order, and back; the ends are the infinities. -/
def f32place (x : Nat) : Int := if x < 2 ^ 31 then x else -((x : Int) - 2 ^ 31)
def f32atPlace (i : Int) : Nat := (if i < 0 then 2 ^ 31 else 0) + min i.natAbs fp32.top

/-- A finite result as the bound sees it: an infinity stands for 2^128. -/
def boundVal (x : Nat) : Val := match f32v x with | .inf n => .fin n 1 128 | v => v

/-- Does a pattern lie within `k` ulp of the exact value `v`? -/
def inUlp (v : Val) (k x : Nat) : Bool :=
  let u := max (v.log2 - 23) (-149)
  let y := boundVal x
  let q := min (min v.exp y.exp) u
  decide ((y.scaled q - v.scaled q).natAbs ≤ k * 2 ^ (u - q).toNat)

/-- The results within `k` ulp of the exact value `v`. -/
def nearUlp (v : Val) (k : Nat) : List Nat :=
  let r := (fp32.ofVal v).val
  (((List.range (4 * k + 1)).map fun i => f32atPlace (f32place r + (i : Int) - 2 * k)).dedup).filter (inUlp v k)

/-- The result that a free value `u` chooses among those that the bound allows. -/
def fastNear (v : Val) (k u : Nat) : Num :=
  let l := nearUlp v k
  let x := l.getD (u % l.length) (fp32.ofVal v).val
  ⟨x, ovFlag (f32v x).isInf⟩

/-- A result of which nothing is promised; a NaN operand is noted (R105). -/
def fastFree (v : Val) (u : Nat) : Num := ⟨u % 2 ^ 32, if v.isNan then flNanIn else 0⟩

/-- Reciprocal: finite, non-zero, 2 ulp. -/
def fastRcp (x u : Nat) : Num :=
  match f32v x with
  | .fin n m e =>
    if m = 0 then fastFree (f32v x) u
    else
      let q := quotient 1 m (-e)
      fastNear (.fin n q.1 q.2) 2 u
  | v => fastFree v u

/-- The reciprocal square root of a positive finite value, to more than 100 bits. -/
def valRsq (m : Nat) (e : Int) : Val :=
  let q := quotient 1 m (-e)
  let g := q.2 % 2
  let m2 := q.1 * 2 ^ g.toNat * 2 ^ 200
  .fin false (isqrt m2) ((q.2 - g) / 2 - 100)

/-- Reciprocal square root: finite, positive, 2 ulp. -/
def fastRsq (x u : Nat) : Num :=
  match f32v x with
  | .fin n m e => if m = 0 ∨ n then fastFree (f32v x) u else fastNear (valRsq m e) 2 u
  | v => fastFree v u

/-- exp: −87.3 to 88.7, 4 ulp. -/
def fastExp (x u : Nat) : Num :=
  let v := f32v x
  if f32le 0xC2AE999A x && f32le x 0x42B16666 then fastNear (valExp v) 4 u else fastFree v u

/-- log: normal, positive, 4 ulp. -/
def fastLog (x u : Nat) : Num :=
  let v := f32v x
  if f32le 0x00800000 x && f32le x 0x7F7FFFFF then fastNear (valLog v) 4 u else fastFree v u

/-- A fast approximation: one free value per element. -/
def State.vecFast (s : State) (n op : Nat) (f : Nat → Nat → Num) : State :=
  s.issue n op fun s i =>
    let x := (s.arr n).vecA i 32
    let es := (x.1.zip (List.range x.1.length)).map fun e => (f e.1.1 (Config.free (s.freeCtr + e.2)), e.1.2)
    if (s.arr n).accepts x.2 [((s.arr n).lbWord i.d, elemWords i.imm 32)] then
      { s with freeCtr := s.freeCtr + x.1.length }.vecDone n i .vector x.2 32 es
    else s

/-- VRCP.F. -/
def execVrcpF (n : Arr) (s : State) : Result := .next (s.vecFast (arrNum n) 0x70 fastRcp)

/-- VRSQ.F. -/
def execVrsqF (n : Arr) (s : State) : Result := .next (s.vecFast (arrNum n) 0x71 fastRsq)

/-- VEXP.F. -/
def execVexpF (n : Arr) (s : State) : Result := .next (s.vecFast (arrNum n) 0x72 fastExp)

/-- VLOG.F. -/
def execVlogF (n : Arr) (s : State) : Result := .next (s.vecFast (arrNum n) 0x73 fastLog)

end Sys2Proof.Machine
end

