-- ==== Sys2Proof/Machine/MoveInsns.lean ====
section
/-! DEFINITION. Moves of class 0x2 through tensor descriptors and within the line buffers (R123, R139, R142 to R153, R177,
R180, R352, R353, R579). LD and ST stand with the Xagus traffic. -/

namespace Sys2Proof.Machine

/-! ### Moving bytes -/

/-- Is any word of a line-buffer byte range read poisoned? -/
def ArrSt.rangeBad (a : ArrSt) (b n : Nat) : Bool := (wordsOf b n).any a.wordBad

/-- Line-buffer bytes on their way to memory, with their poison. -/
def ArrSt.toMem (a : ArrSt) (src dst n : Nat) : List Seg :=
  (segsOf (fun _ => false) dst (cellRead a.lb src n)).map fun g =>
    { g with poison := a.rangeBad (src + (g.addr - dst)) g.data.length }

/-- Memory bytes on their way to the line buffers; errors are logged, poison travels. -/
def State.fromMem (s : State) (src dst n : Nat) : State × List Seg :=
  let r := s.load src n
  let gone := !s.storeAt src
  (r.1, (segsOf (fun _ => false) dst r.2.1).map fun g =>
    { g with poison := gone || s.poisonedAt (src + (g.addr - dst)) g.data.length })

/-- Does a move's range break R139: it touches a reduction buffer or crosses regions? -/
def State.badRange (s : State) (a n : Nat) : Bool := n != 0 && (touchesRedBuf a n || !s.oneRegion a n)

/-! ### Dense descriptors (R352) -/

/-- A dense tensor descriptor's fields. -/
structure Dense where
  fmt    : Nat
  flags  : Nat
  d0     : Nat
  d1     : Nat
  d2     : Nat
  d3     : Nat
  p1     : Nat
  p2     : Nat
  p3     : Nat
  base   : Nat
  scale  : Nat
  block  : Nat
deriving DecidableEq, Repr

/-- The dense descriptor in 64 bytes, if it is one and its fields are in range (R352, R353). -/
def denseTd (t : List Byte) : Option Dense :=
  let d : Dense := ⟨fieldAt t 1 1, fieldAt t 2 2, fieldAt t 4 4, fieldAt t 8 4, fieldAt t 0xC 4, fieldAt t 0x10 4,
    fieldAt t 0x14 4, fieldAt t 0x20 8, fieldAt t 0x28 8, fieldAt t 0x18 8, fieldAt t 0x30 8, fieldAt t 0x38 8⟩
  if fieldAt t 0 1 = 1 ∧ fmtOk d.fmt ∧ d.flags < 4 then some d else none

def Dense.host (d : Dense) : Bool := d.flags.testBit 1

/-- The address of the block scale of element (i0, i1, i2, i3), if the descriptor names scales: one byte per block of 32 elements of
dim0, in the order of the elements, without gaps (R75, R352; assumption 56). -/
def Dense.scaleAt (d : Dense) (i0 i1 i2 i3 : Nat) : Option Nat :=
  if d.flags.testBit 0 then some (d.scale + i0 / 32 + (d.d0 + 31) / 32 * (i1 + d.d1 * (i2 + d.d2 * i3))) else none

/-- A contiguous run of a tile: its address in memory, its line-buffer byte, its bytes; or the bits that go to a line-buffer bit address. -/
structure Run where
  mem  : Nat
  lb   : Nat
  len  : Nat
  bits : Nat
deriving DecidableEq, Repr

/-- Does the range of a move made of runs break R139? It goes from the lowest address to the end of the highest run. -/
def State.badRuns (s : State) (rs : List Run) : Bool :=
  match rs.filter fun r => r.len != 0 with
  | [] => false
  | r :: t =>
    let lo := t.foldl (fun m x => min m x.mem) r.mem
    s.badRange lo (t.foldl (fun m x => max m (x.mem + x.len)) (r.mem + r.len) - lo)

/-- Bytes of `n` elements of a descriptor's format. -/
def Dense.bytes (d : Dense) (n : Nat) : Nat := (n * fmtWidth d.fmt + 7) / 8

/-- The tile that a descriptor without a parameter block shapes at origin row `b` (assumption 20): `rows` steps of dim2 from
row b, dim3 outermost, elements of dim0 and dim1 consecutive, each row on a word boundary of the line buffers. -/
def Dense.runs (d : Dense) (b rows lbWord : Nat) : List Run × Nat :=
  let pitch := (d.d1 * d.bytes d.d0 + 31) / 32
  ((List.range d.d3).flatMap fun i3 => (List.range rows).flatMap fun i2 => (List.range d.d1).map fun i1 =>
    ⟨(d.base + d.p1 * i1 + d.p2 * (b + i2) + d.p3 * i3) % 2 ^ 64,
     (lbWord + (i3 * rows + i2) * pitch) * 32 + i1 * d.bytes d.d0, d.bytes d.d0, 0⟩,
   d.d3 * rows * pitch)

/-- The rows that such a load places. -/
def Dense.rowsHeld (d : Dense) (td : List Byte) (b rows lbWord : Nat) : List Held :=
  let pitch := (d.d1 * d.bytes d.d0 + 31) / 32
  (List.range d.d3).flatMap fun i3 => (List.range rows).map fun i2 =>
    ⟨lbWord + (i3 * rows + i2) * pitch, pitch, td, false, ((b + i2 : Nat) : Int), i3, List.range d.d1⟩

/-! ### Convolution geometry (R142 to R153) -/

/-- One axis of a convolution: input size, taps, stride, dilation, low and high pad, modes of the low and high edges. -/
structure Axis where
  inN  : Nat
  k    : Nat
  st   : Nat
  dil  : Nat
  lo   : Nat
  hi   : Nat
  mLo  : Nat
  mHi  : Nat
deriving DecidableEq, Repr

/-- Output size of an axis (R144), 0 when empty. -/
def Axis.out (x : Axis) : Nat :=
  let n : Int := ((x.inN : Int) + x.lo + x.hi - x.dil * ((x.k : Int) - 1) - 1).fdiv (x.st : Int) + 1
  n.toNat

/-- The input coordinate of tap `i` of output `o` (R142). -/
def Axis.tap (x : Axis) (o i : Nat) : Int := (o : Int) * x.st - x.lo + (i : Int) * x.dil

/-- Is coordinate `u` touched by some tap of some output (R151), inside the map or in its padding? -/
def Axis.touched (x : Axis) (u : Int) : Bool :=
  (List.range x.k).any fun i =>
    let v := u + x.lo - (i : Int) * x.dil
    decide (0 ≤ v ∧ v % (x.st : Int) = 0 ∧ v / (x.st : Int) < x.out)

/-- The source coordinate of `u`, or none for the padding value (R146). -/
def Axis.src (x : Axis) (u : Int) : Option Nat :=
  if 0 ≤ u ∧ u < x.inN then some u.toNat
  else
    let m := if u < 0 then x.mLo else x.mHi
    if m < 2 then none
    else if m = 3 then some (if u < 0 then 0 else x.inN - 1)
    else if x.inN = 1 then some 0
    else
      let p : Int := 2 * ((x.inN : Int) - 1)
      let r := u % p
      some (if r < x.inN then r.toNat else (p - r).toNat)

/-- The mode of the edge beyond which `u` lies. -/
def Axis.mode (x : Axis) (u : Int) : Nat := if u < 0 then x.mLo else x.mHi

/-- Touched coordinates inside the map, in ascending order. -/
def Axis.heldIn (x : Axis) : List Nat := (List.range x.inN).filter fun u => x.touched u

/-- The conv-stripe parameter block (R148). -/
structure ConvBlock where
  rows   : Axis
  cols   : Axis
  cIn    : Nat
  cOut   : Nat
  policy : Nat
  stripe : Nat
  pad    : Nat
  outH   : Nat
  outW   : Nat
  zeros  : Bool
deriving DecidableEq, Repr

/-- The block in 64 bytes. -/
def convBlock (t : List Byte) : ConvBlock :=
  let f := fieldAt t
  let m := f 0x18 1
  ⟨⟨f 0 2, f 8 1, f 0xA 1, f 0xC 1, f 0x10 2, f 0x12 2, m % 4, m / 4 % 4⟩,
   ⟨f 2 2, f 9 1, f 0xB 1, f 0xD 1, f 0x14 2, f 0x16 2, m / 16 % 4, m / 64 % 4⟩,
   f 4 2, f 6 2, f 0x19 1, f 0x1A 2, f 0x1C 4, f 0x24 2, f 0x26 2,
   f 0xE 2 == 0 && (bytesAt t 0x30 16).all (· == 0#8)⟩

/-- Limits of one axis (R143). -/
def Axis.legal (x : Axis) : Bool :=
  decide (1 ≤ x.inN ∧ x.inN ≤ 16384 ∧ 1 ≤ x.k ∧ x.k ≤ 7 ∧ 1 ≤ x.st ∧ x.st ≤ 16 ∧ 1 ≤ x.dil ∧ x.dil ≤ 16
    ∧ x.lo ≤ 4095 ∧ x.hi ≤ 4095)

/-- Is the result empty (R145)? -/
def ConvBlock.empty (c : ConvBlock) : Bool := c.rows.out == 0 || c.cols.out == 0

/-- The check of R149. -/
def ConvBlock.legal (c : ConvBlock) : Bool :=
  c.rows.legal && c.cols.legal && decide (1 ≤ c.cIn ∧ c.cIn ≤ 4096 ∧ 1 ≤ c.cOut ∧ c.cOut ≤ 4096)
    && decide (c.policy < 2) && c.zeros
    && (if c.empty then decide ((c.outH = 0 ∨ c.outH = c.rows.out) ∧ (c.outW = 0 ∨ c.outW = c.cols.out))
        else decide (c.outH = c.rows.out ∧ c.outW = c.cols.out))

/-- The pad pattern of an edge in `w` bits (R147). -/
def ConvBlock.padValue (c : ConvBlock) (mode w : Nat) : Nat := if mode = 1 then c.pad % 2 ^ w else 0

/-- Words of a held row (R150). -/
def ConvBlock.pitch (c : ConvBlock) (w : Nat) : Nat := (c.cols.heldIn.length * c.cIn * w + 255) / 256

/-- The held row coordinates of the stripe whose first output row is `b` (R153). -/
def ConvBlock.stripeRows (c : ConvBlock) (b : Nat) : List Int :=
  let last := min (b + c.stripe) c.rows.out
  if last ≤ b ∨ c.empty then []
  else
    let lo := c.rows.tap b 0
    let hi := c.rows.tap (last - 1) (c.rows.k - 1)
    ((List.range (hi - lo + 1).toNat).map fun k => lo + (k : Int)).filter fun u => c.rows.touched u

/-- Elements of `w` bits of a pattern, `n` of them, as bytes. -/
def patternBytes (w n v : Nat) : List Byte := leBytes ((n * w + 7) / 8) (packNat w (List.replicate n v))

/-! ### LDT and STT (R123, R152, R177, R180) -/

/-- The KV descriptor's fields (R353): format, layer, sequence, tokens. -/
def kvTd (t : List Byte) : Option (Nat × Nat × Nat × Nat) :=
  let f := fieldAt t 1 1
  if fieldAt t 0 1 = 2 ∧ (f = 10 ∨ f = 4 ∨ f = 5) ∧ fieldAt t 6 2 = 0 ∧ (bytesAt t 0xC 52).all (· == 0#8) then
    some (f, fieldAt t 2 2, fieldAt t 4 2, fieldAt t 8 4)
  else none

/-- The line-buffer words of a number of rows of the pages of a sequence (R167, R177). -/
def State.kvWords (s : State) (seq tokens : Nat) : Nat := (tokens * s.kvRow (s.kvSeq seq).2.pool + 31) / 32

/-- A fetch or store outside R172: recorded, and its slot faults (R187). -/
def State.kvOutside (s : State) (n seq layer : Nat) : State := (s.kvNote ⟨0xB, false, 0⟩ seq layer (s.arrQueue n)).slotFault n 2

/-- A flight of the move unit, its reads and writes within the line buffers checked. -/
def State.moveFly (s : State) (n : Nat) (i : Insn) (f : Fly) : State :=
  if (f.rd ++ f.wr).all (fun r => lbFits r.1 r.2) then
    let bad := f.lbW.any (·.poison) || f.bitW.any (·.poison) || f.memW.any (·.poison)
    s.tryLaunch n i { f with
      unit := .move
      cause := if f.cause ≠ 0 then f.cause else if bad then 1 else 0 }
  else s.slotFault n 2

/-- A flight with no effect yet. -/
def emptyFly : Fly := { id := 0, unit := .move, pc := 0 }

/-- A host-memory tile: one host read for each run, feeding the flight about to be launched. -/
def State.hostRuns (s : State) (n : Nat) (rs : List Run) : State :=
  rs.foldl
    (fun s r =>
      match s.arrJob n with
      | some j => s.hostRequest ⟨true, some n, (s.arr n).nextId - 1, j.queue, j.index, j.reads, r.mem, r.lb, r.len, false, r.bits⟩
      | none => s) s

/-- One run of a tile read from memory, on its way to the line buffers. -/
def State.loadRun (s : State) (f : Fly) (r : Run) : State × Fly :=
  if r.bits = 0 then
    let q := s.fromMem r.mem r.lb r.len
    (q.1, { f with lbW := f.lbW ++ q.2 })
  else
    let q := s.load r.mem r.len
    (q.1, { f with bitW := f.bitW ++ [⟨r.lb, r.bits, leNat q.2.1, q.2.2⟩] })

/-- Runs of a tile loaded, with other line-buffer writes beside them. -/
def State.loadRuns (s : State) (n : Nat) (i : Insn) (host : Bool) (rs : List Run) (other : List Seg) (wr : Nat × Nat)
    (held : List Held) : State :=
  if !host && s.badRuns rs then s.slotFault n 2
  else if !lbFits wr.1 wr.2 then s.slotFault n 2
  else if !(s.arr n).accepts [] [wr] then s
  else
    let note := fun (s : State) => s.modArr n fun a => { a with held := held ++ a.held }
    let f := { emptyFly with wr := [wr], lbW := other }
    if host then (note (s.moveFly n i { f with await := rs.length })).hostRuns n rs
    else
      let r := rs.foldl (fun (p : State × Fly) r => p.1.loadRun p.2 r) (s, f)
      note (r.1.moveFly n i r.2)

/-- LDT of a conv stripe (R150 to R153): within a held row the elements of its columns are packed. -/
def State.ldtConv (s : State) (n : Nat) (i : Insn) (td : List Byte) (d : Dense) (c : ConvBlock) (b dst : Nat) : State :=
  let w := fmtWidth d.fmt
  let cols := c.cols.heldIn
  let pitch := c.pitch w
  let rows := c.stripeRows b
  let px := c.cIn * w
  let rowByte := fun (k : Nat) => (dst + k * pitch) * 32
  let runs := ((List.range rows.length).zip rows).flatMap fun r =>
    match c.rows.src r.2 with
    | some y => ((List.range cols.length).zip cols).map fun x =>
        let ad := (d.base + d.p1 * x.2 + d.p2 * y) % 2 ^ 64
        (if px % 8 = 0 then ⟨ad, rowByte r.1 + x.1 * (px / 8), px / 8, 0⟩
         else ⟨ad, rowByte r.1 * 8 + x.1 * px, (px + 7) / 8, px⟩ : Run)
    | none => []
  let pads := ((List.range rows.length).zip rows).flatMap fun r =>
    match c.rows.src r.2 with
    | some _ => []
    | none => segsOf (fun _ => false) (rowByte r.1)
        (patternBytes w (cols.length * c.cIn) (c.padValue (c.rows.mode r.2) w))
  s.loadRuns n i d.host runs pads (dst, rows.length * pitch)
    (((List.range rows.length).zip rows).map fun r => ⟨dst + r.1 * pitch, pitch, td, true, r.2, 0, cols⟩)

/-- LDT (R123): a dense tile, a conv stripe (R152), or a KV fetch (R177). -/
def execLdt (n : Arr) (s : State) : Result :=
  let k := arrNum n
  .next (s.issue k 0x22 fun s i =>
    let a := s.arr k
    let t := a.td i.a
    let b := a.operand i.b
    let dst := a.lbWord i.d
    match denseTd t, kvTd t with
    | some d, _ =>
      if d.block = 0 then
        let r := d.runs b d.d2 dst
        s.loadRuns k i d.host r.1 [] (dst, r.2) (d.rowsHeld t b d.d2 dst)
      else if s.badRange d.block 64 then s.slotFault k 2
      else
        let p := s.load d.block 64
        if p.2.2 then p.1.slotFault k 1
        else
          let c := convBlock p.2.1
          if c.legal then p.1.ldtConv k i t d c b dst else p.1.slotFault k 2
    | none, some (f, layer, seq, tokens) =>
      if tokens % 16 ≠ 0 ∨ tokens < 16 ∨ 1024 < tokens ∨ b % 16 ≠ 0 then s.kvOutside k seq layer
      else
        let fetch : KvFetch := { seq := seq, layer := layer, fmt := f, block := b / 16, blocks := tokens / 16, dst := dst }
        s.moveFly k i { emptyFly with
          wr := [(dst, s.kvWords seq tokens)]
          kvF := some fetch }
    | none, none => s.slotFault k 2)

/-- The rows that an STT stores from origin `b`: those of the stripe when the descriptor carries a block (R145). -/
def sttRows (d : Dense) (c : Option ConvBlock) (b : Nat) : Nat :=
  match c with
  | some c => if c.empty then 0 else min (b + c.stripe) c.rows.out - b
  | none => d.d2

/-- Runs of a tile stored. -/
def State.storeRuns (s : State) (n : Nat) (i : Insn) (d : Dense) (rs : List Run) (rd : Nat × Nat) : State :=
  let a := s.arr n
  if d.host then s.slotFault n 2
  else if s.badRuns rs then s.slotFault n 2
  else s.moveFly n i { emptyFly with
    rd := [rd]
    memW := rs.flatMap fun r => a.toMem r.lb r.mem r.len }

/-- STT (R123): a dense tile, or a KV store (R180). -/
def execStt (n : Arr) (s : State) : Result :=
  let k := arrNum n
  .next (s.issue k 0x23 fun s i =>
    let a := s.arr k
    let t := a.td i.d
    let b := a.operand i.b
    let src := a.lbWord i.a
    match denseTd t, kvTd t with
    | some d, _ =>
      if d.block = 0 then
        let r := d.runs b d.d2 src
        s.storeRuns k i d r.1 (src, r.2)
      else if s.badRange d.block 64 then s.slotFault k 2
      else
        let p := s.load d.block 64
        if p.2.2 then p.1.slotFault k 1
        else
          let c := convBlock p.2.1
          if c.legal then
            let r := d.runs b (sttRows d (some c) b) src
            p.1.storeRuns k i d r.1 (src, r.2)
          else p.1.slotFault k 2
    | none, some (f, layer, seq, tokens) =>
      if tokens = 0 ∨ 16 < b % 16 + tokens then s.kvOutside k seq layer
      else
        let words := s.kvWords seq tokens
        let store : KvStore := { seq := seq, layer := layer, fmt := f, token := b, count := tokens,
                                 segs := a.toMem (src * 32) 0 (words * 32) }
        s.moveFly k i { emptyFly with
          rd := [(src, words)]
          kvS := some store }
    | none, none => s.slotFault k 2)

/-! ### Indexed moves (R579) -/

/-- The table of an indexed move: dense, FP32 or INT32. -/
def tableTd (t : List Byte) : Option Dense :=
  match denseTd t with
  | some d => if d.fmt = 12 ∨ d.fmt = 13 then some d else none
  | none => none

/-- The address of element `x` of a table, if it is inside. -/
def Dense.element (d : Dense) (x : Nat) : Option Nat :=
  if x < d.d0 * d.d1 * d.d2 * d.d3 then
    some ((d.base + 4 * (x % d.d0) + d.p1 * (x / d.d0 % d.d1) + d.p2 * (x / (d.d0 * d.d1) % d.d2)
      + d.p3 * (x / (d.d0 * d.d1 * d.d2))) % 2 ^ 64)
  else none

/-- The element addresses that clean indices name; none where an index is outside or its address breaks R139. -/
def State.elements (s : State) (d : Dense) (ix : List Elt) : Option (List (Option Nat)) :=
  ix.foldr
    (fun e r =>
      match r with
      | none => none
      | some l =>
        if e.2 then some (none :: l)
        else
          match d.element e.1 with
          | some a => if !d.host && s.badRange a 4 then none else some (some a :: l)
          | none => none) (some [])

/-- GATHER (R123, R579): d[i] := table[b[i]]. -/
def execGather (n : Arr) (s : State) : Result :=
  let k := arrNum n
  .next (s.issue k 0x24 fun s i =>
    let a := s.arr k
    let ib := a.lbWord i.b
    let dst := a.lbWord i.d
    let words := elemWords i.imm 32
    match tableTd (a.td i.a) with
    | none => s.slotFault k 2
    | some d =>
      if !lbFits ib words || !lbFits dst words then s.slotFault k 2
      else if !a.accepts [(ib, words)] [(dst, words)] then s
      else
        match s.elements d (a.elems ib 32 0 i.imm) with
        | none => s.slotFault k 2
        | some ads =>
          let f := { emptyFly with rd := [(ib, words)], wr := [(dst, words)] }
          if d.host then
            let named := ((List.range ads.length).zip ads).filterMap fun e => e.2.map fun ad => (⟨ad, dst * 32 + 4 * e.1, 4, 0⟩ : Run)
            let lost := ((List.range ads.length).zip ads).filterMap fun e =>
              if e.2.isNone then some (⟨dst * 32 + 4 * e.1, leBytes 4 0, true⟩ : Seg) else none
            (s.moveFly k i { f with
              lbW := lost
              await := named.length }).hostRuns k named
          else
            let r := ads.foldl
              (fun (p : State × List Elt) ad =>
                match ad with
                | none => (p.1, p.2 ++ [(0, true)])
                | some ad => let q := p.1.load ad 4; (q.1, p.2 ++ [(leNat q.2.1, q.2.2)])) (s, [])
            r.1.moveFly k i { f with lbW := a.putElems dst 32 r.2 })

/-- A list taken in an order that free values choose (R123: SCATADD in order of arrival at memory). -/
def freeOrder {α : Type} (ctr : Nat) : Nat → List α → List α
  | 0, l => l
  | fuel + 1, l =>
    if l.length ≤ 1 then l
    else
      let j := Config.free (ctr + fuel) % l.length
      (l.drop j).take 1 ++ freeOrder ctr fuel (l.eraseIdx j)

/-- SCATTER and its adding forms: mode 0 stores, 1 adds in free order, 2 adds in ascending order. -/
def State.scatter (s : State) (n op mode : Nat) : State :=
  s.issue n op fun s i =>
    let a := s.arr n
    let ia := a.lbWord i.a
    let ib := a.lbWord i.b
    let words := elemWords i.imm 32
    match tableTd (a.td i.d) with
    | none => s.slotFault n 2
    | some d =>
      if d.host || !lbFits ia words || !lbFits ib words then s.slotFault n 2
      else if !a.accepts [(ia, words), (ib, words)] [] then s
      else
        let ix := a.elems ib 32 0 i.imm
        match s.elements d ix with
        | none => s.slotFault n 2
        | some ads =>
          let items := (ads.zip (a.elems ia 32 0 i.imm)).filterMap fun e => e.1.map fun ad => (ad, e.2.1, e.2.2)
          let items1 := if mode = 1 then freeOrder s.freeCtr items.length items else items
          let s1 := if mode = 1 then { s with freeCtr := s.freeCtr + items.length } else s
          let bad := ix.any (·.2) || items.any (·.2.2)
          s1.moveFly n i { emptyFly with
            rd := [(ia, words), (ib, words)]
            scat := some ⟨if mode = 0 then 0 else if d.fmt = 12 then 1 else 2, items1⟩
            cause := if bad then 1 else 0 }

/-- SCATTER (R123): table[b[i]] := a[i]; for repeated indices the highest i wins. -/
def execScatter (n : Arr) (s : State) : Result := .next (s.scatter (arrNum n) 0x25 0)

/-- SCATADD (R123): adds in order of arrival at memory, which the spec leaves open. -/
def execScatadd (n : Arr) (s : State) : Result := .next (s.scatter (arrNum n) 0x26 1)

/-- SCATADD.S (R123): adds to each target in ascending i. -/
def execScataddS (n : Arr) (s : State) : Result := .next (s.scatter (arrNum n) 0x27 2)

/-! ### Within the line buffers -/

/-- LBCOPY (R123). -/
def execLbcopy (n : Arr) (s : State) : Result :=
  let k := arrNum n
  .next (s.issue k 0x28 fun s i =>
    let a := s.arr k
    let src := a.lbWord i.a
    let dst := a.lbWord i.d
    if lbFits src i.imm && lbFits dst i.imm then
      s.moveFly k i { emptyFly with
        rd := [(src, i.imm)]
        wr := [(dst, i.imm)]
        lbW := ((List.range i.imm).zip (a.wordsAt src i.imm)).map fun e => ⟨(dst + e.1) * 32, e.2.1, e.2.2⟩ }
    else s.slotFault k 2)

/-- LBFILL (R123): fill with the low 32 bits of b. -/
def execLbfill (n : Arr) (s : State) : Result :=
  let k := arrNum n
  .next (s.issue k 0x29 fun s i =>
    let a := s.arr k
    let dst := a.lbWord i.d
    let pat := (List.replicate 8 (leBytes 4 (a.operand i.b))).flatten
    if lbFits dst i.imm then
      s.moveFly k i { emptyFly with
        wr := [(dst, i.imm)]
        lbW := (List.range i.imm).map fun e => (⟨(dst + e) * 32, pat, false⟩ : Seg) }
    else s.slotFault k 2)

end Sys2Proof.Machine
end

