-- ==== Sys2Proof/Machine/Pins.lean ====
section
/-! DEFINITION. The status contacts of J3 as levels: FAULT# and RST_OUT# of each island, PGOOD (R571). They are views of State, stored
nowhere else. -/

namespace Sys2Proof.Machine

/-- PGOOD: released at power good (R505), low while an input or a rail is out of its range and while the main rails are off. -/
def State.pgood (s : State) : Bool :=
  s.pwr.badRails.isEmpty && !s.pwr.held.contains 1 && !s.pwr.held.contains 2
    && !(s.get F.PWR_STATE_state == 1 || s.get F.PWR_STATE_state == 2)

/-- FAULT# of island `i` is released only while the island runs in state 2 or 3 of ISL_STATE and has no unacknowledged critical
record; when one counts as acknowledged is open (assumption 51). -/
def State.faultReleased (s : State) (i : Nat) : Bool :=
  let v := tabGet s.isl i {}
  v.running && (s.get (F.ISL_STATE_state i) == 2 || s.get (F.ISL_STATE_state i) == 3)
    && !(decide (0 < v.critical) && Config.unacknowledged i v.critical v.time)

/-- RST_OUT# of island `i` is low while the island, running, holds the module in reset. -/
def State.rstOutLow (s : State) (i : Nat) : Bool := (tabGet s.isl i {}).running && !s.pwr.held.isEmpty

end Sys2Proof.Machine
end

