-- ==== Sys2Proof/Machine/TensorInsns.lean ====
section
/-! DEFINITION. Contractions of the DPU grid, their reduction, and the FFT unit (R71, R72, R76 to R93, R125, R126,
R142 to R150, R159 to R163, R165, R188, R189). -/

namespace Sys2Proof.Machine

/-! ### Tile keys (R125) -/

/-- The fields of the scalar named as key. -/
structure TileKey where
  key   : Nat
  owner : Nat
  kLen  : Nat
deriving DecidableEq, Repr

def tileKey (v : Nat) : TileKey := ⟨v % 2 ^ 24, v / 2 ^ 24 % 256, v / 2 ^ 32 % 2 ^ 25⟩

/-- K-tiles of a contraction of length `k` (R85). -/
def kTiles (k : Nat) : Nat := (k + 255) / 256

/-- Does the pair take the integer path? -/
def Insn.isInt (i : Insn) : Bool := pairPath i.fa i.fb == .integer

/-- The cause with which a contraction of K-tiles `ts` is refused at issue (0: none): R77, R85, R125. -/
def contractCause (j : Job) (slot : Nat) (i : Insn) (kv : Nat) (ts : List Nat) : Nat :=
  let k := tileKey kv
  if pairPath i.fa i.fb = .refused then 8
  else if 2 ^ 24 < k.kLen then 9
  else if k.kLen = 0 ∨ 2 ^ 57 ≤ kv ∨ i.mod = 0 ∨ 0xFFFFFF < k.key + i.mod - 1 then 2
  else if i.fo ≠ (if i.isInt then 13 else 12) then 2
  else if ts.any (fun t => decide (kTiles k.kLen ≤ t)) ∨ j.slotCount ≤ k.owner ∨ (!j.gang ∧ k.owner ≠ slot) then 2
  else 0

/-- The array on which a slot of a job runs. -/
def Job.slotArr (j : Job) (slot : Nat) : Option Nat :=
  let k := j.slots.getD slot {}
  if k.phase = 2 then some (24 * k.die + k.logical) else none

/-- The array that a slot of a job was given, started on it or not. -/
def Job.slotPlace (j : Job) (slot : Nat) : Option Nat :=
  let k := j.slots.getD slot {}
  if k.phase = 0 then none else some (24 * k.die + k.logical)

/-- The output tile in flight with a key and owner. -/
def Job.tile (j : Job) (owner key : Nat) : Option TileSt := j.accs.find? fun t => decide (t.owner = owner ∧ t.key = key)

/-- An output tile replaced, or entered. -/
def Job.setTile (j : Job) (t : TileSt) : Job :=
  if (j.tile t.owner t.key).isSome then
    { j with accs := j.accs.map fun u => if u.owner = t.owner ∧ u.key = t.key then t else u }
  else { j with accs := j.accs ++ [t] }

/-- Does a tile key of the issue break R125 against an earlier issue of it: another K or path, or a K-tile again? -/
def Job.tileConflict (j : Job) (k : TileKey) (int : Bool) (m : Nat) (ts : List Nat) : Bool :=
  (List.range m).any fun x =>
    match j.tile k.owner (k.key + x) with
    | some t => t.kLen != k.kLen || t.int != int || ts.any fun u => t.issued.contains u
    | none => false

/-- Reduction entries that an issue must reserve: T − 1 for each tile that it brings into flight (R92). -/
def Job.newEntries (j : Job) (k : TileKey) (m : Nat) : Nat :=
  (kTiles k.kLen - 1) * ((List.range m).filter fun x => (j.tile k.owner (k.key + x)).isNone).length

/-- Entries of a job's grant on a die that nothing reserves. -/
def Job.unreserved (j : Job) (d : Nat) : Nat := (if j.granted.contains d then j.redEntries else 0) - j.reservedOn d

/-- K-tiles of `m` tiles entered as issued, with their entries reserved when `exact` (R92). -/
def Job.issueTiles (j : Job) (k : TileKey) (int exact empty : Bool) (m : Nat) (ts : List Nat) (die shown : Nat) : Job :=
  (List.range m).foldl
    (fun j x =>
      match j.tile k.owner (k.key + x) with
      | some t => j.setTile { t with issued := t.issued ++ ts, empty := t.empty || empty }
      | none =>
        j.setTile { owner := k.owner, key := k.key + x, kLen := k.kLen, int := int, issued := ts, empty := empty, die := die,
                    shown := shown, reserved := if exact && !int && !empty then kTiles k.kLen - 1 else 0 }) j

/-! ### Partials (R76 to R86) -/

/-- Elements of an operand with their poison, and the scale of each of its pieces. -/
structure OpVec where
  els    : List Elt
  scales : List Elt
deriving DecidableEq, Repr

/-- Elements 32j to 32j + 31. -/
def pieceOf (l : List Elt) (j : Nat) : List Nat := ((l.drop (32 * j)).take 32).map (·.1)

/-- The K-tile partial of one output element, with its flags (R80 to R86): `a` and `b` hold the elements below K. -/
def dotPartial (fa fb : Nat) (a b : OpVec) : PElt × Nat :=
  let used := (a.els.length + 31) / 32
  let bad := a.els.any (·.2) || b.els.any (·.2) || (a.scales.take used).any (·.2) || (b.scales.take used).any (·.2)
  if fmtInt fa && fmtInt fb then
    (⟨dpuInt (a.els.map fun e => fmtToInt fa e.1) (b.els.map fun e => fmtToInt fb e.1), bad⟩, 0)
  else
    let r := pieceTree ((List.range 8).map fun j =>
      dpuStep (pairPath fa fb == .split) ((pieceOf a.els j).map (fmtVal fa)) ((pieceOf b.els j).map (fmtVal fb))
        (a.scales.getD j (127, false)).1 (b.scales.getD j (127, false)).1)
    (⟨r.val, bad⟩, if bad then 0 else r.flags)

/-- The 1,024 partials of a 32 × 32 tile, row by row, with their flags (R72). -/
def gridPartial (fa fb : Nat) (rows cols : List OpVec) : List PElt × Nat :=
  let es := rows.flatMap fun r => cols.map fun c => dotPartial fa fb r c
  (es.map (·.1), es.foldl (fun f e => f ||| e.2) 0)

/-- Scale 127 for each piece: an operand that is not MX (R76). -/
def unitScales : List Elt := List.replicate 8 (127, false)

/-- Elements of K-tile `t` below K (R85). -/
def tileLen (k t : Nat) : Nat := min 256 (k - 256 * t)

/-! ### The issue of a contraction (R92, R125, R132) -/

/-- A contraction with the line-buffer ranges that it reads and writes: what the rules refuse faults; R113 is waited for; a conflict of keys
faults the job at the owner; entries that are not free hold it at issue. Then its partials, made by `make` for each tile and K-tile, go
into flight, to the array that the owner slot was given; one of a layer of empty size makes none and completes at once (R145). A Fast-mode
contraction on the floating path marks its job (R314). `red`: the operation returns its tiles itself (KVEXP). -/
def State.contract (s : State) (n : Nat) (i : Insn) (kv : Nat) (ts : List Nat) (rd wr : List (Nat × Nat)) (empty : Bool)
    (red : Option (Nat × Nat × Nat)) (make : Nat → Nat → List PElt × Nat) : State :=
  match s.arrJob n with
  | none => s
  | some j =>
    let a := s.arr n
    let k := tileKey kv
    match contractCause j a.slot i kv ts with
    | 0 =>
      if !(rd ++ wr).all (fun r => lbFits r.1 r.2) then s.slotFault n 2
      else if !a.accepts rd wr then s
      else if j.tileConflict k i.isInt i.mod ts then s.slotFault ((j.slotArr k.owner).getD n) 2
      else
        let exact := s.flag (F.ARR_STATE_exact n)
        let o := (j.slotPlace k.owner).getD n
        if exact ∧ !i.isInt ∧ !empty ∧ j.unreserved (o / 24) < j.newEntries k i.mod then
          s.modArr n fun a => { a with wait := .held }
        else
          let j1 := j.issueTiles k i.isInt exact empty i.mod ts (o / 24) o
          let s1 := ((s.setJob j1).redShow j1).modArr n fun a => { a with wait := .none }
          let s2 := if exact || i.isInt then s1 else s1.markJob n
          if empty then (s2.modJob j.queue j.index fun j => j.report 0x01 0 0).stepTo n i (s.nextPc n)
          else
            let made := (List.range i.mod).flatMap fun x => ts.map fun t => (x, t, make x t)
            let parts := made.map fun p =>
              (⟨j.queue, j.index, k.owner, k.key + p.1, k.kLen, p.2.1, i.isInt, n, p.2.2.1, s.partVia (n / 24) (o / 24)⟩ : Partial)
            let bad := parts.any fun p => p.els.any (·.bad)
            s2.launch n i
              { id := 0, unit := .tensor, pc := 0, rd := rd, wr := wr, parts := parts, red := red,
                flags := made.foldl (fun f p => f ||| p.2.2.2) 0, cause := if bad then 1 else 0 } rd
    | c => s.slotFault n c

/-- An operand row of `cnt` elements at line-buffer word `base`, first element `first`, scales from `sc`. -/
def ArrSt.opRow (a : ArrSt) (base w first cnt : Nat) (sc : List Elt) : OpVec := ⟨a.elems base w first cnt, sc⟩

/-- The words that `n` rows of `cnt` elements take, each row `w` words from `base` on (R85: pieces beyond K are not fetched). -/
def rowRanges (base w n cnt : Nat) : List (Nat × Nat) :=
  if cnt = 256 then [(base, n * w)] else (List.range n).map fun r => (base + r * w, elemWords cnt w)

/-- DOT at issue (R126): rows and columns of eight pieces each; scales at operand c when an operand is MX, the section of the other
not read. -/
def State.dotIssue (s : State) (n : Nat) (i : Insn) : State :=
  let a := s.arr n
  let kv := a.operand i.d
  let k := tileKey kv
  let t := i.imm % 65536
  let wa := fmtWidth i.fa
  let wb := fmtWidth i.fb
  let c := a.lbWord i.c
  let cnt := tileLen k.kLen t
  if (fmtMx i.fa || fmtMx i.fb) ∧ i.c = 0xFFFF then s.slotFault n 2
  else
    let rd := rowRanges (a.lbWord i.a) wa (32 * i.mod) cnt ++ rowRanges (a.lbWord i.b) wb 32 cnt
      ++ (if fmtMx i.fa then [(c, 8 * i.mod)] else []) ++ (if fmtMx i.fb then [(c + 8 * i.mod, 8)] else [])
    let scales := fun (isMx : Bool) (byte : Nat) => if isMx then a.elems c 8 byte 8 else unitScales
    s.contract n i kv [t] rd [] false none fun x _ =>
      gridPartial i.fa i.fb
        ((List.range 32).map fun r =>
          a.opRow (a.lbWord i.a) wa ((x * 32 + r) * 256) cnt (scales (fmtMx i.fa) (256 * x + 8 * r)))
        ((List.range 32).map fun q =>
          a.opRow (a.lbWord i.b) wb (q * 256) cnt (scales (fmtMx i.fb) (256 * i.mod + 8 * q)))

/-- DOT (R125, R126). -/
def execDot (n : Arr) (s : State) : Result :=
  .next (s.issue (arrNum n) 0x30 fun s i => s.dotIssue (arrNum n) i)

/-! ### Block scales of operands without a place for them (R75) -/

/-- The row that an LDT placed which holds a line-buffer word, if any. -/
def ArrSt.heldRow (a : ArrSt) (w : Nat) : Option Held := a.held.find? fun h => decide (h.word ≤ w ∧ w < h.word + h.pitch)

/-- The address of the block scale of the element at a line-buffer bit, where an LDT placed it from a descriptor that names scales. -/
def Held.scaleAt (h : Held) (w bit : Nat) : Option Nat :=
  match denseTd h.td with
  | none => none
  | some d =>
    let off := bit - h.word * 256
    if h.conv then
      let e := off / w
      if h.row < 0 then none else d.scaleAt (e % d.d0) (h.cols.getD (e / d.d0) 0) h.row.toNat h.i3
    else d.scaleAt (off % (8 * d.bytes d.d0) / w) (off / (8 * d.bytes d.d0)) h.row.toNat h.i3

/-- The scale of the block that begins at a line-buffer bit: the byte of the scale tensor that its descriptor names; where no descriptor
placed it, a free value of the block's bits (assumption 56). -/
def State.blockScale (s : State) (n w bit : Nat) : Elt :=
  let a := s.arr n
  match (a.heldRow (bit / 256)).bind fun h => h.scaleAt w bit with
  | some ad => let r := s.peek ad 1; (leNat r.1, r.2)
  | none => (Config.freeOf (1 :: w :: (cellRead a.lb (bit / 8) (4 * w)).map (·.toNat)) % 256, false)

/-- The scales of the pieces of `cnt` elements from element `first` on, of a vector at line-buffer word `base`. -/
def State.rowScales (s : State) (n : Nat) (isMx : Bool) (base w first cnt : Nat) : List Elt :=
  if isMx then (List.range ((cnt + 31) / 32)).map fun p => s.blockScale n w (base * 256 + (first + 32 * p) * w) else unitScales

/-- KVEXP at issue (R188): every K-tile of m tiles with K = L, the issuing slot the owner; in one operation with their return to
operand d under R126 (R123, R189; assumption 72). -/
def State.kvexpIssue (s : State) (n : Nat) (i : Insn) : State :=
  let a := s.arr n
  let kv := a.operand i.c
  let k := tileKey kv
  let wa := fmtWidth i.fa
  let wb := fmtWidth i.fb
  let rd := [(a.lbWord i.a, elemWords (32 * k.kLen) wa), (a.lbWord i.b, elemWords (32 * i.mod * k.kLen) wb)]
  if k.owner ≠ a.slot then s.slotFault n 2
  else
    s.contract n i kv (List.range (kTiles k.kLen)) rd [(a.lbWord i.d, 128 * i.mod)] false (some (k.key, i.mod, a.lbWord i.d)) fun x t =>
      let cnt := tileLen k.kLen t
      let row := fun (base w q : Nat) (isMx : Bool) =>
        a.opRow base w (q * k.kLen + 256 * t) cnt (s.rowScales n isMx base w (q * k.kLen + 256 * t) cnt)
      gridPartial i.fa i.fb
        ((List.range 32).map fun r => row (a.lbWord i.a) wa r (fmtMx i.fa))
        ((List.range 32).map fun q => row (a.lbWord i.b) wb (32 * x + q) (fmtMx i.fb))

/-- KVEXP (R188, R189). -/
def execKvexp (n : Arr) (s : State) : Result :=
  .next (s.issue (arrNum n) 0x36 fun s i => s.kvexpIssue (arrNum n) i)

/-! ### CONV (R142 to R150) -/

/-- The map coordinate of the held row at line-buffer word `w`: as the load of that row recorded it; beside recorded rows of the same pitch
the coordinate that their order gives it (R150, R152: held rows are consecutive); otherwise that of an interior row (assumption 56). -/
def ArrSt.convRow (a : ArrSt) (c : ConvBlock) (pitch w : Nat) : Int :=
  let on := a.held.filter fun h => decide (pitch ≠ 0 ∧ h.pitch = pitch ∧ (w % pitch = h.word % pitch))
  let after := fun (u : Int) (k : Nat) =>
    (((List.range (20000 + 20000)).map fun x => u + (x : Int)).filter fun v => c.rows.touched v)[k]?
  let before := fun (u : Int) (k : Nat) =>
    (((List.range (20000 + 20000)).map fun x => u - (x : Int)).filter fun v => c.rows.touched v)[k]?
  let free := c.rows.tap (c.rows.out / 2) 0
  match on.find? fun h => decide (h.word = w) with
  | some h => h.row
  | none =>
    let below := on.filter fun h => decide (h.word < w)
    match below with
    | h :: t =>
      let g := t.foldl (fun g x => if g.word < x.word then x else g) h
      (after g.row ((w - g.word) / pitch)).getD free
    | [] =>
      match on with
      | h :: t =>
        let g := t.foldl (fun g x => if x.word < g.word then x else g) h
        (before g.row ((g.word - w) / pitch)).getD free
      | [] => free

/-- The coordinates of the rows held from the first that an output row's taps touch to the last (R150 to R152). -/
def ArrSt.convRows (a : ArrSt) (c : ConvBlock) (pitch w : Nat) : List Int :=
  let u := a.convRow c pitch w
  ((List.range (c.rows.dil * (c.rows.k - 1) + 1)).map fun x => u + (x : Int)).filter fun v => c.rows.touched v

/-- What a tap reads (R147, R150): an element of a held row (row position, column position), a pad pattern, or nothing that
the line buffers hold. -/
inductive TapSrc where
  | held (row col : Nat)
  | pad (mode : Nat)
  | lost
deriving DecidableEq, Repr

/-- The source of tap (iy, ix) of output column `ox`, for the output row whose first tap reads the first of `rows`. -/
def ConvBlock.tapSrc (c : ConvBlock) (rows : List Int) (cols : List Nat) (ox iy ix : Nat) : TapSrc :=
  match rows with
  | [] => .lost
  | u0 :: _ =>
    let u := u0 + (iy : Int) * c.rows.dil
    let v := c.cols.tap ox ix
    match rows.findIdx? (fun r => decide (r = u)) with
    | none => .lost
    | some r =>
      if 0 ≤ v ∧ v < c.cols.inN then
        match cols.findIdx? (fun q => decide ((q : Int) = v)) with
        | some q => .held r q
        | none => .lost
      else if (c.rows.src u).isNone then .pad (c.rows.mode u)
      else
        match c.cols.src v with
        | none => .pad (c.cols.mode v)
        | some x =>
          match cols.findIdx? (fun q => decide (q = x)) with
          | some q => .held r q
          | none => .lost

/-- The source of element k of the reduced axis (R142) of output column `ox`. -/
def ConvBlock.eltSrc (c : ConvBlock) (rows : List Int) (cols : List Nat) (ox k : Nat) : TapSrc :=
  if c.cols.out ≤ ox then .lost else c.tapSrc rows cols ox (k / c.cIn / c.cols.k) (k / c.cIn % c.cols.k)

/-- Element k of the reduced axis of output column `ox`, of `w` bits. What the line buffers do not hold, and the products of columns that
are not stored, are free values of the block and of the words held (`ctx`; assumption 56). -/
def ArrSt.convElt (a : ArrSt) (c : ConvBlock) (rows : List Int) (cols : List Nat) (base w ox k : Nat) (ctx : List Nat) : Elt :=
  match c.eltSrc rows cols ox k with
  | .held r q => (a.elems (base + r * c.pitch w) w (q * c.cIn + k % c.cIn) 1).headD (0, false)
  | .pad m => (c.padValue m w, false)
  | .lost => (Config.freeOf (2 :: ox :: k :: ctx) % 2 ^ w, false)

/-- The block scale of the piece that begins at element k of the reduced axis of output column `ox` (R75, R147): 127 in padding. -/
def State.convScale (s : State) (n : Nat) (c : ConvBlock) (rows : List Int) (cols : List Nat) (base w ox k : Nat) (ctx : List Nat) : Elt :=
  match c.eltSrc rows cols ox k with
  | .held r q =>
    let u := rows.getD r 0
    match c.rows.src u with
    | none => (127, false)
    | some y =>
      let word := base + r * c.pitch w
      match (((s.arr n).heldRow word).bind fun h => denseTd h.td).bind fun d => d.scaleAt (k % c.cIn) (cols.getD q 0) y 0 with
      | some ad => let p := s.peek ad 1; (leNat p.1, p.2)
      | none => s.blockScale n w (word * 256 + (q * c.cIn + k % c.cIn) * w)
  | .pad _ => (127, false)
  | .lost => (Config.freeOf (3 :: ox :: k :: ctx) % 256, false)

/-- CONV at issue (R149, R150): the parameter block is read once no instruction in flight writes it (R113). -/
def State.convIssue (s : State) (n : Nat) (i : Insn) : State :=
  let a := s.arr n
  let kv := a.operand i.d
  let k := tileKey kv
  let wa := fmtWidth i.fa
  let wb := fmtWidth i.fb
  let pw := a.lbWord i.c
  match (s.arrJob n).map fun j => contractCause j a.slot i kv [i.imm] with
  | none => s
  | some 0 =>
    if !lbFits pw 2 then s.slotFault n 2
    else if !a.accepts [(pw, 2)] [] then s
    else if a.wordBad pw ∨ a.wordBad (pw + 1) then (s.lbRead n [(pw, 2)]).slotFault n 1
    else
      let c := convBlock (cellRead a.lb (pw * 32) 64)
      if !c.legal ∨ k.kLen ≠ c.rows.k * c.cols.k * c.cIn then s.slotFault n 2
      else if c.empty then s.contract n i kv [i.imm] [(pw, 2)] [] true none fun _ _ => ([], 0)
      else
        let w0 := a.lbWord i.a
        let rows := a.convRows c (c.pitch wa) w0
        let cols := c.cols.heldIn
        let rd := [(w0, rows.length * c.pitch wa), (a.lbWord i.b, elemWords (32 * k.kLen) wb), (pw, 2)]
        let ctx := (cellRead a.lb (pw * 32) 64 ++ cellRead a.lb (w0 * 32) (rows.length * c.pitch wa * 32)).map (·.toNat)
        let cnt := tileLen k.kLen i.imm
        let pieces := (List.range ((cnt + 31) / 32)).map (256 * i.imm + 32 * ·)
        s.contract n i kv [i.imm] rd [] false none fun x _ =>
          gridPartial i.fa i.fb
            ((List.range 32).map fun r =>
              let ox := 32 * x + r
              ⟨(List.range cnt).map fun q => a.convElt c rows cols w0 wa ox (256 * i.imm + q) ctx,
               if fmtMx i.fa then pieces.map fun p => s.convScale n c rows cols w0 wa ox p ctx else unitScales⟩)
            ((List.range 32).map fun q =>
              let e := q * k.kLen + 256 * i.imm
              a.opRow (a.lbWord i.b) wb e cnt (s.rowScales n (fmtMx i.fb) (a.lbWord i.b) wb e cnt))
  | some x => s.slotFault n x

/-- CONV (R149, R150). -/
def execConv (n : Arr) (s : State) : Result :=
  .next (s.issue (arrNum n) 0x31 fun s i => s.convIssue (arrNum n) i)

/-- CONTRACTION_RESUME (R92): the contraction held at issue issues once enough entries are unreserved. -/
def execContractionResume (n : Arr) (s : State) : Result :=
  let k := arrNum n
  .next (if (s.arr k).wait ≠ .held ∨ s.get (F.ARR_STATE_state k) ≠ 1 ∨ s.cdState (k / 24) ≠ 3 then s
    else
      let i := s.insn k
      if i.op = 0x30 then s.dotIssue k i else if i.op = 0x31 then s.convIssue k i
      else if i.op = 0x36 then s.kvexpIssue k i else s)

/-! ### Reduction (R86 to R93) -/

/-- Two partials combined element by element, with the flags of the additions. -/
def addEls (int : Bool) (x y : List PElt) : List PElt × Nat :=
  let es := (x.zip y).map fun p =>
    let bad := p.1.bad || p.2.bad
    if int then ((⟨p.1.val + p.2.val, bad⟩ : PElt), 0)
    else
      let r := f32add p.1.val.toNat p.2.val.toNat
      (⟨r.val, bad⟩, if bad then 0 else r.flags)
  (es.map (·.1), es.foldl (fun f e => f ||| e.2) 0)

/-- The entry of a node, if it is present. -/
def redFind (l : List RedNode) (lo n : Nat) : Option RedNode := l.find? fun e => decide (e.lo = lo ∧ e.n = n)

/-- The reduction adder after K-tile `t` arrived, within node (lo, n) of the canonical tree (R87, R91): once both children of a node are
present their entries are freed and the parent takes one. With the flags of its additions. -/
def redAdd : Nat → Nat → Nat → Nat → List RedNode → List RedNode × Nat
  | 0, _, _, _, l => (l, 0)
  | fuel + 1, lo, n, t, l =>
    if n ≤ 1 then (l, 0)
    else
      let h := treeSplit n
      let r := if t < lo + h then redAdd fuel lo h t l else redAdd fuel (lo + h) (n - h) t l
      match redFind r.1 lo h, redFind r.1 (lo + h) (n - h) with
      | some x, some y =>
        let q := addEls false x.els y.els
        (⟨lo, n, q.1⟩ :: r.1.filter fun e => decide (e ≠ x ∧ e ≠ y), r.2 ||| q.2)
      | _, _ => r

/-- A partial combined at its owner: by the reduction adder in Exact mode, otherwise with the accumulator (R88 to R91). -/
def TileSt.take (t : TileSt) (p : Partial) (exact : Bool) : TileSt :=
  if exact && !p.int then
    let r := redAdd (bitLen (kTiles t.kLen) + 1) 0 (kTiles t.kLen) p.t (⟨p.t, 1, p.els⟩ :: t.arrived)
    { t with arrived := r.1, count := t.count + 1, flags := t.flags ||| r.2 }
  else if t.count = 0 then { t with acc := p.els, count := 1 }
  else
    let q := addEls p.int t.acc p.els
    { t with acc := q.1, count := t.count + 1, flags := t.flags ||| q.2 }

/-- Entries of a reduction buffer that the tiles of a job hold. -/
def Job.redHeld (j : Job) (d : Nat) : Nat := j.accs.foldl (fun n t => if t.die = d then n + t.arrived.length else n) 0

/-- PARTIAL_ARRIVAL (R88, R89, R93): the k-th partial under way reaches its owner; one of a job or tile that is gone is
dropped, and one that would cross the closed ring ports of a fenced die (R15). -/
def execPartialArrival (k : Nat) (s : State) : Result :=
  .next (match s.transit[k]? with
    | none => s
    | some p =>
      let s1 := { s with transit := s.transit.eraseIdx k }
      match s1.job p.queue p.index with
      | none => s1
      | some j =>
        match j.tile p.owner p.key with
        | none => s1
        | some t =>
          if t.die ≠ p.src / 24 ∧ (s1.cdState t.die = 4 ∨ s1.cdState (p.src / 24) = 4) then s1
          else s1.setJob (j.setTile (t.take p j.exact)))

/-- RED.GET (R126). -/
def execRedGet (n : Arr) (s : State) : Result :=
  let k := arrNum n
  .next (s.issue k 0x32 fun s i =>
    let a := s.arr k
    let q := tileKey (a.operand i.a)
    let dst := a.lbWord i.d
    if i.mod = 0 ∨ q.owner ≠ a.slot ∨ 0xFFFFFF < q.key + i.mod - 1 ∨ !lbFits dst (128 * i.mod) then s.slotFault k 2
    else
      let mark : Bool := !s.flag (F.ARR_STATE_exact k) && (s.arrJob k).any fun j =>
        (List.range i.mod).any fun x => (j.tile q.owner (q.key + x)).any fun t => !t.int
      (if mark && a.accepts [] [(dst, 128 * i.mod)] then s.markJob k else s).tryLaunch k i
        { id := 0, unit := .tensor, pc := 0, wr := [(dst, 128 * i.mod)], red := some (q.key, i.mod, dst) })

/-- The results of a tile all of whose partials are combined, FP32 patterns or INT32 with their poison, and the flags that
its combination and saturation raised; an empty list for a tile of empty size. None while partials are missing (R90, R105,
R126, R145). -/
def TileSt.result (t : TileSt) (exact : Bool) : Option (List Elt × Nat) :=
  if t.empty then some ([], 0)
  else if t.count < kTiles t.kLen then none
  else if exact && !t.int then
    (redFind t.arrived 0 (kTiles t.kLen)).map fun r => (r.els.map fun e => (e.val.toNat, e.bad), t.flags)
  else if t.acc.isEmpty then none
  else if t.int then
    let es := t.acc.map fun e => (satInt 13 e.val, e.bad)
    some (es.map fun e => (e.1.val, e.2), es.foldl (fun f e => if e.2 then f else f ||| e.1.flags) 0)
  else some (t.acc.map fun e => (e.val.toNat, e.bad), t.flags)

/-- RED_GET_COMPLETE (R126), of RED.GET or of a KVEXP that has sent its partials: results written, entries and accumulators released; the tile's key stays known to the job. -/
def execRedGetComplete (n : Arr) (s : State) : Result :=
  let k := arrNum n
  .next (match (s.arr k).oldest .tensor, s.arrJob k with
    | some f, some j =>
      match f.red with
      | none => s
      | some (key, m, dst) =>
        if f.parts ≠ [] then s else
        let tiles := (List.range m).map fun x => j.tile (s.arr k).slot (key + x)
        let res := tiles.map fun t => t.bind fun t => t.result j.exact
        if res.any (·.isNone) then s
        else
          let outs := (List.range m).zip (res.map fun r => r.getD ([], 0))
          let a := s.arr k
          let j1 := tiles.foldl
            (fun j t => match t with
              | some t => j.setTile { t with reserved := 0, arrived := [], acc := [] }
              | none => j) j
          let bad := outs.any fun o => o.2.1.any (·.2)
          ((s.setJob j1).redShow j1).complete1 k { f with
            red := none
            lbW := outs.flatMap fun o => a.putElems (dst + 128 * o.1) 32 o.2.1
            flags := outs.foldl (fun g o => g ||| o.2.2) 0
            cause := if bad then 1 else f.cause }
    | _, _ => s)

/-! ### The FFT unit (R159 to R163, R165) -/

/-- A complex value of two FP32 patterns, with the flags of the operations that made it. -/
structure Cx where
  re    : Nat
  im    : Nat
  flags : Nat
deriving DecidableEq, Repr

def Cx.add (x y : Cx) : Cx :=
  let r := f32add x.re y.re
  let i := f32add x.im y.im
  ⟨r.val, i.val, x.flags ||| y.flags ||| r.flags ||| i.flags⟩

def Cx.sub (x y : Cx) : Cx :=
  let r := f32sub x.re y.re
  let i := f32sub x.im y.im
  ⟨r.val, i.val, x.flags ||| y.flags ||| r.flags ||| i.flags⟩

/-- An FP32 pattern negated. -/
def f32neg (x : Nat) : Nat := if x < 2 ^ 31 then x + 2 ^ 31 else x - 2 ^ 31

/-- cmul of R159: each component is one product rounded and one fused multiply-add. -/
def Cx.mul (x y : Cx) : Cx :=
  let bd := f32mul x.im y.im
  let bc := f32mul x.im y.re
  let r := f32fma x.re y.re (f32neg bd.val)
  let i := f32fma x.re y.im bc.val
  ⟨r.val, i.val, x.flags ||| y.flags ||| bd.flags ||| bc.flags ||| r.flags ||| i.flags⟩

/-- The twiddle factor exp(−2πi e / n), or its conjugate (R159, R160). -/
def twiddle (inv : Bool) (e n : Nat) : Cx :=
  let u := fxUnit e n
  ⟨fxToF32 u.1, fxToF32 (if inv then u.2 else -u.2), 0⟩

/-- Two lists merged in turn. -/
def interleave : List Cx → List Cx → List Cx
  | [], ys => ys
  | x :: xs, [] => x :: xs
  | x :: xs, y :: ys => x :: y :: interleave xs ys

/-- The stages of R159 on `2^fuel` values of a transform of length `n`, output in natural order. -/
def fftStages (inv : Bool) (n : Nat) : Nat → List Cx → List Cx
  | 0, x => x
  | fuel + 1, x =>
    let h := 2 ^ fuel
    let u := x.take h
    let v := x.drop h
    let top := (u.zip v).map fun p => p.1.add p.2
    let bot := ((List.range h).zip (u.zip v)).map fun p =>
      let d := p.2.1.sub p.2.2
      if p.1 = 0 then d else d.mul (twiddle inv (p.1 * (n / (2 * h))) n)
    interleave (fftStages inv n fuel top) (fftStages inv n fuel bot)

/-- A transform of length 2^m (R159, R160). -/
def fft1 (inv : Bool) (m : Nat) (x : List Cx) : List Cx :=
  let y := fftStages inv (2 ^ m) m x
  if inv then
    let k := f32ofScaled 1 (-(m : Int))
    y.map fun c =>
      let r := f32mul c.re k
      let i := f32mul c.im k
      ⟨r.val, i.val, c.flags ||| r.flags ||| i.flags⟩
  else y

/-- A matrix of rows transposed; `n` is the length of its rows. -/
def transposeCx (n : Nat) (rows : List (List Cx)) : List (List Cx) :=
  (List.range n).map fun k => rows.map fun r => r.getD k ⟨0, 0, 0⟩

/-- A transform of 2^m1 points, or of 2^m1 × 2^m2 points along i1 and then i2 (R161). -/
def fft2 (inv : Bool) (m1 m2 : Nat) (x : List Cx) : List Cx :=
  if m2 = 0 then fft1 inv m1 x
  else
    let rows := (groupsOf (2 ^ m1) (2 ^ m2) x).map (fft1 inv m1)
    let cols := (transposeCx (2 ^ m1) rows).map (fft1 inv m2)
    (transposeCx (2 ^ m2) cols).flatten

/-- Do two ranges overlap without coinciding? -/
def partOverlap (x y : Nat × Nat) : Bool := rangesMeet x y && x != y

/-- Elements of a transform as complex values. -/
def toCx (bf : Bool) : List Elt → List Cx
  | r :: i :: t => ⟨if bf then r.1 * 65536 else r.1, if bf then i.1 * 65536 else i.1, 0⟩ :: toCx bf t
  | _ => []

/-- Complex results as elements: FP32, or each component rounded to BF16 (R162). -/
def ofCx (bf bad : Bool) (l : List Cx) : List NumElt :=
  l.flatMap fun c =>
    let f := fun (x : Nat) =>
      if bf then
        let r := convert 10 false (f32v x)
        ((⟨r.val, c.flags ||| r.flags⟩ : Num), bad)
      else (⟨x, c.flags⟩, bad)
    [f c.re, f c.im]

/-- FFT and IFFT at issue. -/
def State.fftIssue (s : State) (n : Nat) (i : Insn) (inv : Bool) : State :=
  let a := s.arr n
  let m1 := i.imm % 16
  let m2 := i.imm / 16 % 16
  let batch := i.imm / 256 % 4096
  let points := 2 ^ m1 * (if m2 = 0 then 1 else 2 ^ m2)
  let bf := i.mod.testBit 0
  let w := if bf then 16 else 32
  let words := elemWords (batch * points * 2) w
  let src := (a.lbWord i.a, words)
  let dst := (a.lbWord i.d, words)
  if m1 < 4 ∨ 12 < m1 ∨ (m2 ≠ 0 ∧ (m2 < 4 ∨ 12 < m2)) ∨ 65536 < points ∨ batch = 0 ∨ !lbFits src.1 words
      ∨ !lbFits dst.1 words ∨ partOverlap dst src then s.slotFault n 2
  else if !a.accepts [src] [dst] then s
  else
    let res := (List.range batch).flatMap fun b =>
      let es := a.elems src.1 w (b * points * 2) (points * 2)
      ofCx bf (es.any (·.2)) (fft2 inv m1 m2 (toCx bf es))
    s.vecDone n i .fft [src] w res

/-- FFT (R159, R161, R162). -/
def execFft (n : Arr) (s : State) : Result :=
  .next (s.issue (arrNum n) 0x33 fun s i => s.fftIssue (arrNum n) i false)

/-- IFFT (R160 to R162). -/
def execIfft (n : Arr) (s : State) : Result :=
  .next (s.issue (arrNum n) 0x34 fun s i => s.fftIssue (arrNum n) i true)

/-- SPMUL (R165). -/
def execSpmul (n : Arr) (s : State) : Result :=
  let k := arrNum n
  .next (s.issue k 0x35 fun s i =>
    let a := s.arr k
    let words := elemWords (2 * i.imm) 32
    let x := (a.lbWord i.a, words)
    let y := (a.lbWord i.b, words)
    let d := (a.lbWord i.d, words)
    if i.imm = 0 ∨ !lbFits x.1 words ∨ !lbFits y.1 words ∨ partOverlap d x ∨ partOverlap d y ∨ partOverlap x y then
      s.slotFault k 2
    else
      let ex := a.elems x.1 32 0 (2 * i.imm)
      let ey := a.elems y.1 32 0 (2 * i.imm)
      let cs := ((toCx false ex).zip (toCx false ey)).map fun p => p.1.mul p.2
      let bads := (List.range i.imm).map fun q =>
        ((ex.drop (2 * q)).take 2).any (·.2) || ((ey.drop (2 * q)).take 2).any (·.2)
      s.vecDone k i .fft [x, y] 32 ((cs.zip bads).flatMap fun p => ofCx false p.2 [p.1]))

end Sys2Proof.Machine
end

