-- ==== Sys2Proof/Machine/ArrayCtl.lean ====
section
/-! DEFINITION. An array from outside its program: slots started, loaded, stopped and drained, flights completed, and the
commands of its page (R92, R106, R107, R111, R115 to R118, R135, R136). -/

namespace Sys2Proof.Machine

/-- Is slot `slot` of a job assigned to array `n` and not started? -/
def Job.assigned (j : Job) (slot n : Nat) : Bool :=
  let k := j.slots.getD slot {}
  decide (slot < j.slots.length ∧ k.phase = 1 ∧ 24 * k.die + k.logical = n)

/-- Reduction entries that an Exact-mode job takes on each die (R92, R350: an FFT-only job takes none). -/
def Job.grantSize (j : Job) : Nat := if j.exact ∧ j.cls = 1 then j.redEntries else 0

/-- Steps 3 and 4 of R117: scalars, stack and cycle counter cleared, descriptors loaded, the job's modes shown, issue at
entry. -/
def State.beginSlot (s : State) (n : Nat) (j : Job) : State :=
  let s1 := s.modArr n fun a => { a with
    sr := []
    tds := j.tds
    stack := []
    srCond := []
    cycles := 0
    loading := false }
  let s2 := ((s1.putB (F.ARR_STATE_exact n) j.exact).putB (F.ARR_STATE_allow_n n) (j.flags.testBit 1)).put
    (F.ARR_STATE_nonrepro n) 0
  (s2.put (F.ARR_STATE_state n) 1).goto n (fieldAt j.header 8 2)

/-- An array that ran a safety-relevant job since the last agreed twin result is listed in XGS_TWIN_ARRAYS (R428). -/
def State.twinArray (s : State) (k : Nat) (j : Job) : State :=
  let f := F.XGS_TWIN_ARRAYS_used (k / 24)
  if j.safety then s.put f (s.get f ||| 2 ^ (k % 24)) else s

/-- The instructions of a program read from device memory, each with its poison. -/
def State.loadProgram (s : State) (addr count : Nat) : State × List (BitVec 128 × Option WordCond) :=
  (List.range count).foldl
    (fun (p : State × List (BitVec 128 × Option WordCond)) i =>
      let q := p.1.load (addr + 16 * i) 16
      (q.1, p.2 ++ [(BitVec.ofNat 128 (leNat q.2.1), if q.2.2 then some .poison else none)])) (s, [])

/-- Does the store of array `n` hold the program of a job (R117 step 2)? -/
def State.holdsProgram (s : State) (n : Nat) (j : Job) : Bool :=
  (s.arr n).progAddr == j.program && (s.arr n).progDig == bytesAt j.header 0x20 64 && !(s.arr n).words.isEmpty

/-- The program of a job loaded into the store of array `n`. -/
def State.programIn (s : State) (n : Nat) (j : Job) : State :=
  let r := s.loadProgram (j.program + 0x80) (fieldAt j.header 6 2)
  r.1.modArr n fun a => { a with
    progAddr := j.program
    progDig := bytesAt j.header 0x20 64
    words := r.2 }

/-- SLOT_START (R117 steps 1 and 2): the slot that placement gave to an idle array takes it; the job's first slot on a die
takes its reduction entries, or waits for them; a gated array is ungated (R502); a program that the store holds is not loaded
again. A slot on a die in a dip marks its job (R509). -/
def execSlotStart (n : Arr) (j : JobId) (slot : Nat) (s : State) : Result :=
  let k := arrNum n
  let d := n.die.val
  .next (match s.jobOf j with
    | none => s
    | some j =>
      let first := !j.granted.contains d
      let need := if first then j.grantSize else 0
      if !j.assigned slot k ∨ s.get (F.ARR_STATE_state k) ≠ 0 ∨ s.flag (F.ARR_JOB_QUEUE_valid k) ∨ s.redFree d < need then s
      else
        let j1 := { j with
          slots := listSet j.slots slot { j.slots.getD slot {} with phase := 2 }
          granted := if need = 0 then j.granted else setAdd j.granted d
          dip := j.dip || s.dipOpen d }
        let s1 := (((s.setJob j1).twinArray k j).setGate k true).modArr k fun a => { a with
          slot := slot
          tiles := 0
          loading := true
          wait := .none
          stop := none
          ending := false }
        let s2 := ((((s1.put (F.ARR_JOB_QUEUE_queue k) j.queue).put (F.ARR_JOB_QUEUE_valid k) 1).put
          (F.ARR_JOB_INDEX_index k) j.index).put (F.ARR_RED_granted k) j.grantSize)
        let s3 := s2.redShow j1
        if s.holdsProgram k j then s3.beginSlot k j1 else s3)

/-- PROGRAM_LOAD_DONE (R117 steps 2 to 4). -/
def execProgramLoadDone (n : Arr) (s : State) : Result :=
  let k := arrNum n
  .next (match s.arrJob k with
    | none => s
    | some j =>
      if !(s.arr k).loading then s
      else
        (s.programIn k j).beginSlot k j)

/-- Has a flight nothing outstanding: no answer awaited, its KV pages done with, no partial waited for? -/
def Fly.ready (f : Fly) : Bool :=
  f.await == 0 && f.red.isNone
    && (match f.kvF with | some q => decide (q.done = q.blocks) | none => true)
    && (match f.kvS with | some q => decide (q.phase = 4) | none => true)

/-- The partials of a KVEXP sent: it then waits for its tiles, as RED.GET does (R126, R188). -/
def State.sendParts (s : State) (n : Nat) (f : Fly) : State :=
  let g := if s.cdState (n / 24) = 4 then f.fenced (n / 24) else f
  ({ s with transit := s.transit ++ g.parts }.modArr n fun a => a.modFly f.id fun f => { f with parts := [], flags := 0 }).numFlags n f.flags

/-- INSTRUCTION_COMPLETE (R111): the oldest instruction in flight of a unit completes and its writes land; a KVEXP first sends its
partials. -/
def execInstructionComplete (n : Arr) (u : IssueUnit) (s : State) : Result :=
  let k := arrNum n
  .next (match (s.arr k).oldest u with
    | some f => if f.ready then s.complete1 k f else if f.red.isSome ∧ f.parts ≠ [] then s.sendParts k f else s
    | none => s)

/-- Is the sequencer at an instruction boundary, waits of R135 included? -/
def ArrSt.atBoundary (a : ArrSt) : Bool :=
  match a.wait with
  | .fence _ => false
  | _ => true

/-- Does the array run a ward's job, in place of the slot that it was taken from (R222)? -/
def State.onWard (s : State) (n : Nat) : Bool :=
  match s.arrJob n with
  | some j => decide (j.queue < 128)
  | none => false

/-- SLOT_STOP (R135, R361): a slot that the queue engine stops leaves issue at its next instruction boundary; an aborted job's
slot faults there with cause 0x7. A slot that a ward has preempted stops once it is back. -/
def execSlotStop (n : Arr) (s : State) : Result :=
  let k := arrNum n
  let a := s.arr k
  .next (match a.stop with
    | none => s
    | some c =>
      if a.ending ∨ !a.atBoundary ∨ s.onWard k then s
      else if c ≠ 0 then s.slotFault k c
      else s.setArr k a.leave)

/-- ARRAY_DRAIN_DONE (R135, R475): the instructions in flight of an ended slot have completed; the array is idle again unless
suspect. -/
def execArrayDrainDone (n : Arr) (s : State) : Result :=
  let k := arrNum n
  .next (if (s.arr k).ending ∧ (s.arr k).flights = [] then
      let s1 := s.slotGone k
      (s1.put (F.ARR_STATE_state k) (if (s1.arr k).suspect then 4 else 0)).slotLeft k
    else s)

/-- HALT (R136): at an instruction boundary, a waiting instruction included; a set abort bit comes first. -/
def execHalt (n : Arr) (acc : Acc) (s : State) : Result :=
  let k := arrNum n
  .next (s.command (pgARR k) 0x024 acc fun s w =>
    if w.getLsbD 0 && !w.getLsbD 2 && s.get (F.ARR_STATE_state k) == 1 then s.haltArr k else s)

/-- RESUME (R136): a wait continues where it was; a set abort or halt bit comes first. -/
def execResume (n : Arr) (acc : Acc) (s : State) : Result :=
  let k := arrNum n
  .next (s.command (pgARR k) 0x024 acc fun s w =>
    if w.getLsbD 1 && !w.getLsbD 0 && !w.getLsbD 2 && s.get (F.ARR_STATE_state k) == 2 then s.put (F.ARR_STATE_state k) 1
    else s)

/-- ABORT (R136): the current job's slot faults with cause 0x7. -/
def execAbort (n : Arr) (acc : Acc) (s : State) : Result :=
  let k := arrNum n
  .next (s.command (pgARR k) 0x024 acc fun s w =>
    if w.getLsbD 2 && s.flag (F.ARR_JOB_QUEUE_valid k) then s.slotFault k 7 else s)

/-- ARR_CAP_DISABLE_WRITE (R106): only sets bits, and withdraws their capabilities. -/
def execArrCapDisableWrite (n : Arr) (acc : Acc) (s : State) : Result := .next (s.writeReg (pgARR (arrNum n)) 0x100 acc)

/-- A corruption armed for the next write of the word in ARR_INJECT by an instruction; ignored while the array runs (R107). Each word
holds one at most, the later in place of the earlier: DESIGN CHOICE (assumption 71). -/
def State.armInject (s : State) (n kind : Nat) : State :=
  if s.get (F.ARR_STATE_state n) = 1 then s
  else s.modArr n fun a => { a with inject := tabSet a.inject (s.get (F.ARR_INJECT_word n)) kind }

/-- ARR_INJECT_ONE_BYTE (R107). -/
def execArrInjectOneByte (n : Arr) (acc : Acc) (s : State) : Result :=
  let k := arrNum n
  .next (s.command (pgARR k) 0x104 acc fun s w => if w.getLsbD 16 then s.armInject k 1 else s)

/-- ARR_INJECT_TWO_BYTES (R107). -/
def execArrInjectTwoBytes (n : Arr) (acc : Acc) (s : State) : Result :=
  let k := arrNum n
  .next (s.command (pgARR k) 0x104 acc fun s w => if w.getLsbD 17 then s.armInject k 2 else s)

end Sys2Proof.Machine
end

