-- ==== Sys2Proof/Machine/Kv.lean ====
section
/-! DEFINITION. The KV page manager at work: fetches and stores, the commands of its lists and of its page (R177 to R187, R198 to R200). -/

namespace Sys2Proof.Machine

/-! ### Fetches and stores -/

/-- The oldest flight of an array that `p` accepts. -/
def ArrSt.flyWhere (a : ArrSt) (p : Fly → Bool) : Option Fly := a.flights.find? p

/-- A fetch's request fails: nothing more is resolved for it and its slot faults (R179). -/
def State.kvFetchFail (s : State) (n : Nat) (f : Fly) (q : KvFetch) (e : KvFail) (s0 : State) : State :=
  let s1 := (s.kvNote e q.seq q.layer (s0.arrQueue n)).modArr n fun a => a.modFly f.id fun f =>
    { f with kvF := some { q with
        blocks := q.pages.length
        asked := q.pages.length } }
  (s1.raiseIf e.resolve pgKV Ev.KV_resolve_fail).slotFaultAt n 2 f.pc

/-- KV_RESOLVE (R177, R179): the next page of the array's oldest unresolved fetch is pinned. -/
def execKvResolve (n : Arr) (s : State) : Result :=
  let k := arrNum n
  .next (match (s.arr k).flyWhere fun f => (match f.kvF with | some q => decide (q.asked < q.blocks) | none => false) with
    | none => s
    | some f =>
      match f.kvF with
      | none => s
      | some q =>
        if s.get F.KV_STATUS_state = 1 then s
        else
          let c := s.kvCheck q.seq q.layer (q.block + q.asked) q.fmt
          match c.2 with
          | .error e => c.1.kvFetchFail k f q e s
          | .ok d =>
            let e := c.1.kvEntry (d.entry q.layer (q.block + q.asked))
            match e.2 with
            | none => e.1.kvFetchFail k f q ⟨5, false, 0⟩ s
            | some page =>
              let r := e.1.kvInc page 0 1
              match r.2 with
              | some x => r.1.kvFetchFail k f q x s
              | none =>
                r.1.modArr k fun a => a.modFly f.id fun f =>
                  { f with kvF := some { q with
                      pages := q.pages ++ [(page, d.pool)]
                      asked := q.asked + 1 } })

/-- PIN_RELEASE (R178): the last word of the next page of the array's oldest fetch has reached the line buffers. -/
def execPinRelease (n : Arr) (s : State) : Result :=
  let k := arrNum n
  .next (match (s.arr k).flyWhere fun f => (match f.kvF with | some q => decide (q.done < q.pages.length) | none => false) with
    | none => s
    | some f =>
      match f.kvF with
      | none => s
      | some q =>
        match q.pages[q.done]? with
        | none => s
        | some (page, pool) =>
          let bytes := s.kvPage pool
          let r := s.fromMem (s.kvAddr pool page) (q.dst * 32 + q.done * bytes) bytes
          let bad := r.2.any (·.poison)
          let s1 := r.1.modArr k fun a => a.modFly f.id fun f =>
            { f with
              kvF := some { q with done := q.done + 1 }
              lbW := f.lbW ++ r.2
              cause := if bad then 1 else f.cause }
          let d := s1.kvDec page 0 1
          match d.2 with
          | none => d.1
          | some e => d.1.kvNote e q.seq q.layer (s.arrQueue k))

/-- The store of a flight set to a phase. -/
def State.kvPhase (s : State) (n : Nat) (f : Fly) (q : KvStore) : State :=
  s.modArr n fun a => a.modFly f.id fun f => { f with kvS := some q }

/-- The tokens of a store written into a page; the store is done. Poisoned words make its instruction fault (R102). -/
def State.kvTokens (s : State) (n : Nat) (f : Fly) (q : KvStore) (pool page : Nat) : State :=
  let base := s.kvAddr pool page + q.token % 16 * s.kvRow pool
  let bytes := q.count * s.kvRow pool
  let segs := q.segs.filter fun g => decide (g.addr < bytes)
  let s1 := segs.foldl (fun s g => s.store (base + g.addr) (g.data.take (bytes - g.addr)) g.poison) s
  let bad := segs.any (·.poison)
  s1.modArr n fun a => a.modFly f.id fun f =>
    { f with
      kvS := some { q with
        phase := 4
        segs := [] }
      cause := if bad then 1 else f.cause }

/-- A store's request fails: nothing is written and its slot faults (R182, R187). -/
def State.kvStoreFail (s : State) (n : Nat) (f : Fly) (q : KvStore) (e : KvFail) (queue : Nat) : State :=
  ((s.kvNote e q.seq q.layer queue).kvPhase n f { q with
    phase := 4
    segs := [] }).slotFaultAt n 2 f.pc

/-- Are two stores for the same page-table entry? -/
def KvStore.sameEntry (o q : KvStore) : Bool := o.seq == q.seq && o.layer == q.layer && o.token / 16 == q.token / 16

/-- Does a store wait (R181, R183): a copy for its entry is in progress, or an earlier request for it waits, on any array? -/
def State.kvCopying (s : State) (q : KvStore) : Bool :=
  s.arrs.any fun a => a.2.flights.any fun f =>
    match f.kvS with
    | some o => o.sameEntry q && (o.phase == 2 || o.phase == 3 || (o.phase == 1 && decide (o.order < q.order)))
    | none => false

/-- A write request decided (R180, R181): a page allocated, written in place, or copied first; it waits while a copy for its
entry is in progress. -/
def State.kvDecide (s : State) (n : Nat) (f : Fly) (q : KvStore) : State :=
  let queue := s.arrQueue n
  let block := q.token / 16
  let c := s.kvCheck q.seq q.layer block q.fmt
  match c.2 with
  | .error e => c.1.kvStoreFail n f q e queue
  | .ok d =>
    if s.kvCopying q then c.1.kvPhase n f { q with phase := 1 }
    else
      let ea := d.entry q.layer block
      let e := c.1.kvEntry ea
      match e.2 with
      | none =>
        let r := e.1.kvAlloc d.pool 1
        match r.1.2 with
        | some x => r.1.1.kvStoreFail n f q x queue
        | none =>
          let s1 := (r.1.1.zero (s.kvAddr d.pool r.2) (s.kvPage d.pool)).kvPutEntry ea (some r.2)
          s1.kvTokens n f q d.pool r.2
      | some page =>
        let w := e.1.kvWord page
        match w.2 with
        | none => w.1.kvStoreFail n f q ⟨7, true, page⟩ queue
        | some v =>
          if 2 ^ 30 ≤ v then w.1.kvStoreFail n f q ⟨7, true, page⟩ queue
          else if v = 1 then w.1.kvTokens n f q d.pool page
          else if v / 65536 % 256 = 255 then w.1.kvStoreFail n f q ⟨3, true, page⟩ queue
          else
            let r := w.1.kvAlloc d.pool 0
            match r.1.2 with
            | some x => r.1.1.kvStoreFail n f q x queue
            | none =>
              ((r.1.1.kvSet page v (v + 65536)).count F.KV_COW_COUNT_count 1).kvPhase n f { q with
                phase := 2
                pool := d.pool
                oldPg := page
                newPg := r.2 }

/-- The oldest store of an array in a phase. -/
def ArrSt.storeIn (a : ArrSt) (phase : Nat) : Option (Fly × KvStore) :=
  a.flights.findSome? fun f => match f.kvS with | some q => if q.phase = phase then some (f, q) else none | none => none

/-- KV_WRITE_REQUEST (R180, R183): the request takes its place in the order of arrival and is decided. -/
def execKvWriteRequest (n : Arr) (s : State) : Result :=
  let k := arrNum n
  .next (match (s.arr k).storeIn 0 with
    | none => s
    | some (f, q) =>
      if s.get F.KV_STATUS_state = 1 then s
      else { s with kv := { s.kv with next := s.kv.next + 1 } }.kvDecide k f { q with order := s.kv.next })

/-- COW_COPY_DONE (R181 steps 2 and 3): every word of the old page is in the new one. -/
def execCowCopyDone (n : Arr) (s : State) : Result :=
  let k := arrNum n
  .next (match (s.arr k).storeIn 2 with
    | none => s
    | some (f, q) =>
      let len := s.kvPage q.pool
      let src := s.kvAddr q.pool q.oldPg
      let dst := s.kvAddr q.pool q.newPg
      let s1 := (List.range (len / 32)).foldl
        (fun s i => let r := s.load (src + 32 * i) 32; r.1.store (dst + 32 * i) r.2.1 r.2.2) s
      s1.kvPhase k f { q with phase := 3 })

/-- COW_COMMIT (R181 steps 4 and 5): a count that would fall below zero is not changed and its request fails (R176). -/
def execCowCommit (n : Arr) (s : State) : Result :=
  let k := arrNum n
  .next (match (s.arr k).storeIn 3 with
    | none => s
    | some (f, q) =>
      let d := s.kvSeq q.seq
      let r := d.1.kvDec q.oldPg 1 1
      match r.2 with
      | some e => r.1.kvStoreFail k f q e (s.arrQueue k)
      | none =>
        ((r.1.kvSet q.newPg 0 1).kvPutEntry (d.2.entry q.layer (q.token / 16)) (some q.newPg)).kvTokens k f q q.pool q.newPg)

/-- KV_WRITE_RESUME (R181): a request that waited on a copy is decided against the rewritten entry. -/
def execKvWriteResume (n : Arr) (s : State) : Result :=
  let k := arrNum n
  .next (match (s.arr k).storeIn 1 with
    | none => s
    | some (f, q) => if s.kvCopying q ∨ s.get F.KV_STATUS_state = 1 then s else s.kvDecide k f q)

/-! ### Commands of a KV list (R184 to R187) -/

/-- Fields of a command. -/
structure KvCmd where
  layer0 : Nat
  layers : Nat
  seq    : Nat
  src    : Nat
  block0 : Nat
  blocks : Nat
  zeros  : Bool
deriving DecidableEq, Repr

def kvCmd (b : List Byte) : KvCmd :=
  ⟨fieldAt b 2 2, fieldAt b 4 2, fieldAt b 8 4, fieldAt b 0xC 4, fieldAt b 0x10 4, fieldAt b 0x14 4,
   fieldAt b 1 1 == 0 && fieldAt b 6 2 == 0 && (bytesAt b 0x18 8).all (· == 0#8)⟩

/-- A KV command as the page changes it makes (R185): why it fails before them (0: it does not); the layers and blocks that it goes
through, layer by layer; the change at one; what it does after the last; the bytes of its output ranges (R332). -/
structure KvPlan where
  cause  : Nat
  layer0 : Nat := 0
  layers : Nat := 0
  block0 : Nat := 0
  blocks : Nat := 0
  change : State → Nat → Nat → KvRes := fun s _ _ => (s, none)
  last   : State → State := id
  out    : List Byte := []

/-- The command of a KV job run: the block must be running. Each run makes the next page change, one step under R174, so that other
requests come between two of them (R185); with the last the command is done (assumption 73). A failure ends the list and is recorded, with
the layer it was met at (R186, R187). -/
def State.kvCommand (s : State) (id : JobId) (op : Nat) (plan : State → KvCmd → State × KvPlan) : State :=
  s.listCommand id 6 (fun o => decide (o = op ∨ (op = 1 ∧ ¬(1 ≤ o ∧ o ≤ 5)))) fun s j b =>
    let c := kvCmd b
    let at' := fun (s : State) (n : Nat) => s.modJob j.queue j.index fun j => { j with kvAt := n }
    let fail := fun (s : State) (e : KvFail) (layer : Nat) =>
      (at' (s.kvNote e (c.seq % 65536) layer j.queue) 0).commandFailed j.queue j.index
    if s.get F.KV_STATUS_state = 1 then s
    else if s.get F.KV_STATUS_state ≠ 2 then fail s ⟨0xC, false, 0⟩ 0
    else if fieldAt b 0 1 ≠ op ∨ !c.zeros ∨ 65535 < c.seq then fail s ⟨0xB, false, 0⟩ 0
    else
      let p := plan s c
      let done := fun (s : State) => (at' (p.2.last s) 0).commandDone j.queue j.index (some (digest64 p.2.out))
      if p.2.cause ≠ 0 then fail p.1 ⟨p.2.cause, false, 0⟩ 0
      else if p.2.layers * p.2.blocks ≤ j.kvAt then done p.1
      else
        let l := p.2.layer0 + j.kvAt / p.2.blocks
        let r := p.2.change p.1 l (p.2.block0 + j.kvAt % p.2.blocks)
        match r.2 with
        | some e => fail r.1 e l
        | none => if j.kvAt + 1 < p.2.layers * p.2.blocks then at' r.1 (j.kvAt + 1) else done r.1

/-- Are a command's layers and blocks inside R172 and the descriptor? -/
def KvCmd.inside (c : KvCmd) (q : KvSeq) : Bool :=
  decide (1 ≤ c.layers ∧ c.layers ≤ 256 ∧ 1 ≤ c.blocks ∧ c.blocks ≤ 1048576 ∧ c.layer0 + c.layers ≤ q.layers
    ∧ c.block0 + c.blocks ≤ q.blocks)

/-- A command that fails before any page change. -/
def kvNo (s : State) (cause : Nat) : State × KvPlan := (s, { cause := cause })

/-- SEQ_OPEN. -/
def execSeqOpen (j : JobId) (s : State) : Result :=
  .next (s.kvCommand j 1 fun s c =>
    let d := s.kvSeq c.seq
    if d.2.isOpen then kvNo d.1 9
    else if !d.2.sound then kvNo d.1 0xB
    else (d.1, { cause := 0, last := fun s => s.store (s.kvSeqAddr c.seq + 0xB) [1#8], out := [1#8] }))

/-- A valid entry invalidated and its page's reference dropped; where the reference may not be, neither is. -/
def kvDrop (q : KvSeq) (s : State) (layer block : Nat) : KvRes :=
  let a := q.entry layer block
  let e := s.kvEntry a
  match e.2 with
  | none => (e.1, none)
  | some page =>
    let r := e.1.kvDec page 1 0
    match r.2 with
    | some f => (r.1, some f)
    | none => (r.1.kvPutEntry a none, none)

/-- SEQ_CLOSE. -/
def execSeqClose (j : JobId) (s : State) : Result :=
  .next (s.kvCommand j 2 fun s c =>
    let d := s.kvSeq c.seq
    if !d.2.isOpen then kvNo d.1 8
    else (d.1, { cause := 0, layers := d.2.layers, blocks := d.2.blocks, change := kvDrop d.2,
                 last := fun s => s.store (s.kvSeqAddr c.seq + 0xB) [0#8], out := [0#8] }))

/-- A source entry shared into a destination entry. -/
def kvShare (src dst : KvSeq) (s : State) (layer block : Nat) : KvRes :=
  let e := s.kvEntry (src.entry layer block)
  match e.2 with
  | none => (e.1, none)
  | some page =>
    let a := dst.entry layer block
    let o := e.1.kvEntry a
    match o.2 with
    | some old => (o.1, some ⟨9, false, old⟩)
    | none =>
      let r := o.1.kvInc page 1 0
      match r.2 with
      | some f => (r.1, some f)
      | none => (r.1.kvPutEntry a (some page), none)

/-- A command's page changes over its layers and blocks. -/
def KvCmd.plan (c : KvCmd) (out : List Byte) (change : State → Nat → Nat → KvRes) : KvPlan :=
  { cause := 0, layer0 := c.layer0, layers := c.layers, block0 := c.block0, blocks := c.blocks, change := change, out := out }

/-- SHARE. -/
def execShare (j : JobId) (s : State) : Result :=
  .next (s.kvCommand j 3 fun s c =>
    let d := s.kvSeq c.seq
    let q := d.1.kvSeq (c.src % 65536)
    if 65535 < c.src then kvNo q.1 0xB
    else if !d.2.isOpen ∨ !q.2.isOpen then kvNo q.1 8
    else if d.2.pool ≠ q.2.pool then kvNo q.1 0xA
    else if !c.inside d.2 ∨ !c.inside q.2 then kvNo q.1 0xB
    else (q.1, c.plan [] (kvShare q.2 d.2)))

/-- FREE. -/
def execFree (j : JobId) (s : State) : Result :=
  .next (s.kvCommand j 4 fun s c =>
    let d := s.kvSeq c.seq
    if !d.2.isOpen then kvNo d.1 8
    else if !c.inside d.2 then kvNo d.1 0xB
    else (d.1, c.plan [] (kvDrop d.2)))

/-- A zeroed page allocated for an entry. -/
def kvGive (q : KvSeq) (s : State) (layer block : Nat) : KvRes :=
  let a := q.entry layer block
  let e := s.kvEntry a
  match e.2 with
  | some page => (e.1, some ⟨9, false, page⟩)
  | none =>
    let r := e.1.kvAlloc q.pool 1
    match r.1.2 with
    | some f => (r.1.1, some f)
    | none => ((r.1.1.zero (s.kvAddr q.pool r.2) (s.kvPage q.pool)).kvPutEntry a (some r.2), none)

/-- ALLOC. -/
def execAlloc (j : JobId) (s : State) : Result :=
  .next (s.kvCommand j 5 fun s c =>
    let d := s.kvSeq c.seq
    if !d.2.isOpen then kvNo d.1 8
    else if !s.kvValid d.2.pool then kvNo d.1 0xA
    else if !c.inside d.2 then kvNo d.1 0xB
    else (d.1, c.plan (List.replicate (c.layers * c.blocks * s.kvPage d.2.pool) 0#8) (kvGive d.2)))

/-! ### The page's own commands (R187, R198, R199) -/

/-- Does a valid pool break R167, R168, R198 by itself? -/
def State.kvPoolBad (s : State) (p : Nat) : Bool :=
  let l := s.get (F.KV_POOL_CFG_latent p)
  let n := s.get (F.KV_POOL_COUNT_pages p)
  let first := s.get (F.KV_POOL_FIRST_page p)
  let a := s.addr (F.KV_POOL_BASE_LO_base p)
  let bytes := n * s.kvPage p
  let place : Bool := match s.region a with
    | .dram => s.oneRegion a bytes
    | .pool _ => s.oneRegion a bytes && !touchesRedBuf a bytes
    | _ => false
  !(decide (l % 32 = 0 ∧ 64 ≤ l ∧ l ≤ 1024 ∧ s.get (F.KV_POOL_CFG_format p) ≠ 3 ∧ 1 ≤ n ∧ n ≤ 4194304 ∧ first + n ≤ 4194304)
    && place && s.inMemory (s.kvWordAddr first) (4 * n))

/-- The pool that makes the enable be refused, if any (R198). -/
def State.kvCfgErr (s : State) : Option Nat :=
  let ps := (List.range 8).filter fun p => s.kvValid p
  let range := fun (p : Nat) => (s.get (F.KV_POOL_FIRST_page p), s.get (F.KV_POOL_COUNT_pages p))
  match ps.find? fun p => s.kvPoolBad p || ps.any fun q => decide (q < p) && rangesMeet (range p) (range q) with
  | some p => some p
  | none =>
    if 4194304 < (ps.map fun p => (range p).2).sum then ps.getLast?
    else if s.inMemory (s.kvSeqAddr 0) (65536 * 32) then none
    else some 0

/-- The sweep of a page: in descending order free pages are linked; pins are cleared (R199). A page whose word is
uncorrectable is retired and faults the block once the sweep ends. -/
def kvSweepPage (fmt : Bool) (p : Nat) (r : State × Option Nat) (page : Nat) : State × Option Nat :=
  let s := r.1
  let link := fun (s : State) =>
    let s1 := s.store (s.kvWordAddr page) (leBytes 4 (2 ^ 31 + tabGet s.kv.heads p kvEnd))
    { s1 with kv := { s1.kv with heads := tabSet s1.kv.heads p page } }.count (F.KV_FREE_pages p) 1
  if fmt then (link s, r.2)
  else
    let q := s.kvWord page
    match q.2 with
    | none => (q.1, some page)
    | some w =>
      if 2 ^ 31 ≤ w then (link q.1, r.2)
      else if 2 ^ 30 ≤ w then (q.1, r.2)
      else (q.1.store (s.kvWordAddr page) (leBytes 4 (w % 65536)), r.2)

/-- The sweep of a pool. -/
def State.kvSweepPool (r : State × Option Nat) (p : Nat) : State × Option Nat :=
  let s := r.1
  let first := s.get (F.KV_POOL_FIRST_page p)
  let n := s.get (F.KV_POOL_COUNT_pages p)
  let pages := (List.range n).map (first + ·)
  let r1 := pages.reverse.foldl (kvSweepPage s.kv.format p) (s, r.2)
  -- live pages without a reference are pushed on the list
  let s2 := pages.foldl
    (fun s page => if s.peekNat (s.kvWordAddr page) 4 = 0 ∧ !s.poisonedAt (s.kvWordAddr page) 4 then s.kvReturn page 0 else s) r1.1
  (s2, r1.2)

/-- KV_SWEEP_DONE (R199): the lists of pools no longer in use are gone, those of valid pools are built. -/
def execKvSweepDone (s : State) : Result :=
  .next (if s.get F.KV_STATUS_state ≠ 1 then s
    else
      let s0 := (List.range 8).foldl (fun s p => s.put (F.KV_FREE_pages p) 0)
        ({ s with kv := { s.kv with heads := [] } }.put F.KV_DRAINING_pages 0)
      let r := ((List.range 8).filter fun p => s.kvValid p).foldl State.kvSweepPool (s0, none)
      let s1 := (r.1.put F.KV_STATUS_state 2).raise pgKV Ev.KV_enabled
      match r.2 with
      | some page => s1.kvNote ⟨7, true, page⟩ 0 0 0
      | none => s1)

/-- Is a KV job, fetch or store in flight? -/
def State.kvBusy (s : State) : Bool :=
  s.jobs.any (fun j => j.cls == 6 && j.stage == .placed)
    || s.arrs.any fun a => a.2.flights.any fun f => f.kvF.isSome || f.kvS.isSome

/-- The configuration checked and the sweep started, or the enable refused (R198, R199). -/
def State.kvStart (s : State) : State :=
  match s.kvCfgErr with
  | some p => (s.put F.KV_STATUS_cfg_err 1).put F.KV_STATUS_cfg_pool p
  | none =>
    let s1 := ((s.put F.KV_STATUS_cfg_err 0).put F.KV_CTRL_enable 1).put F.KV_STATUS_state 1
    { s1 with kv := { s1.kv with format := s.flag F.KV_CTRL_format } }

/-- A write of KV_CTRL: resume leaves the faulted state; enable set starts a disabled block, enable clear disables one in which no KV job,
fetch or store is in flight and which is not faulted (R187). -/
def State.kvCtrl (s : State) (w : Word) : State :=
  let s1 := if w.getLsbD 2 && s.get F.KV_STATUS_state == 3 then s.put F.KV_STATUS_state 2 else s
  let st := s1.get F.KV_STATUS_state
  if w.getLsbD 0 then (if st = 0 then s1.kvStart else s1)
  else if st != 0 && s.get F.KV_STATUS_state != 3 && !s1.kvBusy then (s1.put F.KV_CTRL_enable 0).put F.KV_STATUS_state 0
  else s1

/-- KV_ENABLE (R198, R199). -/
def execKvEnable (acc : Acc) (s : State) : Result := .next (s.command pgKV 0x020 acc State.kvCtrl)

/-- KV_DISABLE (R187). -/
def execKvDisable (acc : Acc) (s : State) : Result := .next (s.command pgKV 0x020 acc State.kvCtrl)

/-- KV_RESUME (R187). -/
def execKvResume (acc : Acc) (s : State) : Result := .next (s.command pgKV 0x020 acc State.kvCtrl)

end Sys2Proof.Machine
end

