-- ==== Sys2Proof/Machine/Queues.lean ====
section
/-! DEFINITION. The commands of 11_queues_jobs_fences but for placement: queues and doorbells, the taking, release and
completion of jobs, DMA lists, fence writes; with the divergence detector that completions feed (R331 to R335, R339 to
R366). -/

namespace Sys2Proof.Machine

/-! ### Queues (R339 to R346) -/

/-- QENG_ENABLE: the state base is checked; clearing the bit stops the engine. -/
def execQengEnable (acc : Acc) (s : State) : Result :=
  .next (s.command pgQENG 0x020 acc fun s w =>
    if w.getLsbD 0 then
      if s.flag F.QENG_CTRL_enable then s
      else if s.inDram (s.addr F.QENG_STATE_BASE_LO_base) 67108864 then
        (s.put F.QENG_CTRL_enable 1).put F.QENG_STATUS_state 1
      else (s.put F.QENG_STATUS_cfg_err 1).raise pgQENG Ev.QENG_cfg_err
    else (s.put F.QENG_CTRL_enable 0).put F.QENG_STATUS_state 0)

/-- Address of a queue's state (R340). -/
def State.queueAddr (s : State) (q : Nat) : Nat := s.addr F.QENG_STATE_BASE_LO_base + 64 * q

/-- The result of a queue command (QENG_Q_RESULT); cause 0: done. -/
def State.queueResult (s : State) (cause : Nat) : State :=
  ((s.put F.QENG_Q_RESULT_busy 0).putB F.QENG_Q_RESULT_refused (cause ≠ 0)).put F.QENG_Q_RESULT_cause cause

/-- The queue as its 64 bytes of state give it. -/
def queueOf (b : List Byte) : QSt where
  enabled := true
  ring := fieldAt b 0 8
  sizeLog2 := fieldAt b 8 1
  kind := fieldAt b 9 1
  flags := fieldAt b 0xA 1
  producer := fieldAt b 0x10 4
  consumer := fieldAt b 0x14 4
  inFlight := fieldAt b 0x18 4
  faulted := fieldAt b 0x1C 4 ≥ 2 ^ 31
  cause := fieldAt b 0x1C 4 % 16

/-- Why an enable of queue `q` with this state is refused (0: it is not), R342. -/
def State.enableCause (s : State) (q : Nat) (b : List Byte) : Nat :=
  let v := queueOf b
  let bytes := v.size * entryBytes q
  if v.kind ≠ queueKind q ∨ v.sizeLog2 < 4 ∨ 16 < v.sizeLog2 ∨ 8 ≤ v.flags ∨ !(bytesAt b 0xB 5).all (· == 0#8)
      ∨ !(bytesAt b 0x20 32).all (· == 0#8) ∨ v.ring % bytes ≠ 0 ∨ v.ring % 4096 ≠ 0 ∨ v.size < v.used then 1
  else if !s.inDramHub v.ring bytes then 2
  else 0

/-- A module that was fresh is idle once a queue has been enabled (R551). -/
def State.farmIdle1 (s : State) : State := if s.get F.FARM_STATUS_state = 1 then s.put F.FARM_STATUS_state 0 else s

/-- An enable of queue `q` (R342); a faulted queue needs a reset of its indices first (R366; assumption 79: the cause shown). -/
def State.queueEnable (s : State) (q : Nat) : State :=
  if queueKind q = 0 then s.queueResult 3
  else if (s.queue q).enabled ∨ (s.queue q).disabling then s.queueResult 4
  else if (s.queue q).faulted then s.queueResult 1
  else
    let r := s.load (s.queueAddr q) 64
    if r.2.2 then (r.1.queueFault q).queueResult 1
    else
      match r.1.enableCause q r.2.1 with
      | 0 => ({ r.1.setQueue q (queueOf r.2.1) with farm := { r.1.farm with fresh := false } }.farmIdle1).queueResult 0
      | c => r.1.queueResult c

/-- A command of QENG_Q_CMD: acts when go is set and the operation is `op`. -/
def State.queueCommand (s : State) (acc : Acc) (op : Nat) (act : State → Nat → State) : State :=
  s.command pgQENG 0x028 acc fun s w =>
    if w.getLsbD 31 && F.QENG_Q_CMD_op.ext w == op then act s (F.QENG_Q_CMD_queue.ext w) else s

/-- Q_ENABLE (R342). -/
def execQEnable (acc : Acc) (s : State) : Result := .next (s.queueCommand acc 1 State.queueEnable)

/-- Q_DISABLE (R342): no further descriptor is taken; the state is written back once nothing is in flight. -/
def execQDisable (acc : Acc) (s : State) : Result :=
  .next (s.queueCommand acc 2 fun s q =>
    if queueKind q = 0 then s.queueResult 3
    else if (s.queue q).enabled then
      ((s.setQueue q { s.queue q with
        enabled := false
        disabling := true }).queueResult 0).put F.QENG_Q_RESULT_busy 1
    else s.queueResult 0)

/-- Q_WRITEBACK (R340, R342): the engine's fields of a disabled queue go back to its state. -/
def execQWriteback (q : BitVec 20) (s : State) : Result :=
  let v := s.queue q.toNat
  .next (if v.disabling ∧ v.inFlight = 0 then
      let fault := v.cause + (if v.faulted then 2 ^ 31 else 0)
      let s1 := s.store (s.queueAddr q.toNat + 0x10) (leBytes 4 v.producer ++ leBytes 4 v.consumer ++ leBytes 4 0 ++ leBytes 4 fault)
      (s1.setQueue q.toNat { v with disabling := false }).put F.QENG_Q_RESULT_busy 0
    else s)

/-- RESET_INDICES (R342, R366). -/
def execResetIndices (acc : Acc) (s : State) : Result :=
  .next (s.queueCommand acc 3 fun s q =>
    if queueKind q = 0 then s.queueResult 3
    else if (s.queue q).enabled ∨ (s.queue q).disabling then s.queueResult 4
    else ((s.store (s.queueAddr q + 0x10) (leBytes 16 0)).setQueue q {}).queueResult 0)

/-- The index that a read of a queue's doorbell returns, with no `index` to write (R343). -/
def State.bar4Read (s : State) (q : Nat) : State := s.emit .bar4Completion [q] (leBytes 4 (s.doorbellIndex q))

/-- DOORBELL: a BAR4 access (R343 to R345), a read where it carries no index. A write: a poisoned one is dropped and counted (R408), one of fewer than four bytes is
ignored, and in replay those to host-allocated queues are ignored and counted (R328). It closes the open host-data
record first (R322). -/
def execDoorbell (q : BitVec 20) (be : BitVec 4) (index : Option Word) (poisoned : Bool) (s : State) : Result :=
  .next (if s.hubOff then s
    else
      match index with
      | none => s.bar4Read q.toNat
      | some w =>
        if poisoned then s.poisonedIn
        else if be ≠ 0xF#4 then s
        else if s.replaying ∧ 0x400 ≤ q.toNat then s.count F.JRN_IGNORED_count 1
        else s.closeHostData.doorbell q.toNat w.toNat true)

/-! ### Taking (R347, R351) -/

/-- Has the queue a descriptor that the engine may take now: its pending bit is set and nothing passes it over (R346, R347)? -/
def State.takeable (s : State) (q : Nat) (v : QSt) : Bool :=
  s.qPend.contains q && !v.faulted && !(v.flags.testBit 0 && v.inFlight != 0) && !(s.jobs.any fun j => j.queue == q && j.stage == .waiting)

/-- The next queue of the round: prio_high queues first, from the rotating pointer on. -/
def State.nextQueue (s : State) : Option Nat :=
  let l := s.queues.filter fun e => s.takeable e.1 e.2
  let turn := fun (l : Tab QSt) =>
    match l.find? fun e => decide (s.qPtr ≤ e.1) with
    | some e => some e.1
    | none => l.head?.map (·.1)
  match turn (l.filter fun e => e.2.flags.testBit 2) with
  | some q => some q
  | none => turn l

/-- The reason of R351 for which a descriptor is refused, the first that applies (0: none). `image`: its program passes R116 and
R350. -/
def State.refuseReason (s : State) (j : Job) (image : Bool) : Nat :=
  let w := fun (k : Nat) => fieldAt j.desc k 2 / 4096 % 8
  if j.cls = 0 ∨ 7 < j.cls then 1
  else if 64 ≤ j.flags ∨ w 0x30 ≠ 0 ∨ w 0x32 ≠ 0 ∨ w 0x34 ≠ 0 ∨ w 0x36 ≠ 0 then 2
  else if 16 < j.tdCount ∨ j.tdTable % 64 ≠ 0 ∨ !s.inMemory j.tdTable (max 1 (64 * j.tdCount)) then 3
  else if 10000000 < j.deadline ∨ (j.safety ∧ j.deadline = 0) then 4
  else if j.isArray ∧ !image then 5
  else if 128 ≤ j.cq ∨ !(s.queue (0x80 + j.cq)).enabled then 6
  else if j.cls = 3 ∧ j.queue ≠ s.get F.FUS_QUEUE_queue then 7
  else 0

/-- A program header read from an image, empty where it reads poisoned. -/
def State.readHeader (s : State) (a : Nat) : State × List Byte :=
  let r := s.load a 128
  (r.1, if r.2.2 then [] else r.2.1)

/-- The descriptor at a queue's consumer index leaves its ring: 64 bytes and their poison. -/
def State.popDescriptor (s : State) (q : Nat) : State × List Byte × Bool :=
  let v := s.queue q
  let r := s.load (v.ring + v.consumer % v.size * 64) 64
  let s1 := r.1.setQueue q { v with
    consumer := (v.consumer + 1) % 2 ^ 32
    inFlight := v.inFlight + 1 }
  ({ s1 with qPtr := (q + 1) % 2 ^ 20 }, r.2)

/-- A job as its descriptor gives it. -/
def jobFrom (q index : Nat) (prio : Bool) (desc : List Byte) : Job :=
  let j : Job := { queue := q, index := index, desc := desc, prio := prio }
  { j with
    program := j.primary
    exact := j.flags.testBit 0 }

/-- The tensor descriptors of a job read: those of its table, and whether one of its words reads poisoned. -/
def State.readTds (s : State) (j : Job) : State × List (List Byte) × Bool :=
  if j.tdCount = 0 then (s, [], false)
  else
    let t := s.load j.tdTable (64 * j.tdCount)
    (t.1, (List.range j.tdCount).map fun k => bytesAt t.2.1 (64 * k) 64, t.2.2)

/-- A job taken and checked: it waits for its fences, or ends poisoned or refused. -/
def State.checkTaken (s : State) (j : Job) (poisoned : Bool) : State × Job :=
  let h := if j.isArray then s.readHeader j.primary else (s, [])
  let reason := h.1.refuseReason j (h.1.imageOk h.2 (j.cls == 2))
  let t := if reason = 0 ∨ 3 < reason then h.1.readTds j else (h.1, [], false)
  let j1 := { j with
    header := h.2
    tds := t.2.1 }
  (t.1, if poisoned || t.2.2 then j1.ended 0x0B 0 else if reason ≠ 0 then j1.ended 0x02 reason else j1)

/-- JOB_TAKE (R347, R348, R349, R351): the descriptor at the consumer index of the next queue of the round is taken, checked
and, where it passes, waits for its fences. -/
def execJobTake (s : State) : Result :=
  .next (if s.get F.QENG_STATUS_state ≠ 1 then s
    else
      match s.nextQueue with
      | none => s
      | some q =>
        let r := s.popDescriptor q
        let c := r.1.checkTaken (jobFrom q (s.queue q).consumer ((s.queue q).flags.testBit 2) r.2.1) r.2.2
        let s2 := { c.1 with jobs := c.1.jobs ++ [c.2] }
        if c.2.outcome.1 = 0x02 then s2.count F.QENG_REFUSED_count 1
        else s2.raiseIf (decide (c.2.outcome.1 = 0x0B)) pgQENG Ev.QENG_uncorrectable)

/-! ### Release (R349, R354, R355, R326) -/

/-- A message about a safety-relevant job sent to both islands (R452). -/
def State.tellIslands (s : State) (j : Job) (release : Bool) (status flags : Nat) : State :=
  let m : IslMsg := ⟨release, j.queue, j.index, j.tag, j.deadline, status, flags⟩
  { s with islMsgs := tabSet (tabSet s.islMsgs 0 (tabGet s.islMsgs 0 [] ++ [m])) 1 (tabGet s.islMsgs 1 [] ++ [m]) }

/-- The program choice recorded (R320, kind 0x15). -/
def State.recordChoice (s : State) (j : Job) (alt : Bool) (h : List Byte) : State :=
  s.record 0x15 0 (j.queue % 65536) j.index (j.queue / 65536 + (if alt then 256 else 0)) 0 (bytesAt h 0x20 64)

/-- A job released to its engine with the program chosen. -/
def State.releaseWith (s : State) (j : Job) (alt : Bool) (h : List Byte) : State :=
  let j1 := { j with
    stage := .released
    alt := alt
    program := if alt then j.alternate else j.primary
    header := h
    slots := if j.isArray then List.replicate (fieldAt h 0x10 2) {} else []
    released := some s.hubUs
    order := s.relCount }
  let s1 := { s.setJob j1 with relCount := s.relCount + 1 }
  if j.isArray then s1.recordChoice j1 alt h else s1

/-- A job that cannot be placed (R355). -/
def State.notPlaceable (s : State) (j : Job) : State :=
  ((s.setJob { j.ended 0x03 0 with
      released := some s.hubUs
      order := s.relCount }).count F.QENG_REFUSED_count 1).raiseIf j.safety pgQENG Ev.QENG_not_placeable

/-- The kind 0x15 record of a job in the replay journal: does it name the alternate? -/
def State.recordedChoice (s : State) (j : Job) : Option Bool :=
  (s.jrnFind fun k => decide (k.kind = 0x15 ∧ k.src = j.queue % 65536 ∧ k.aux0 = j.index
    ∧ k.aux1 % 16 = j.queue / 65536)).map fun k => k.aux1.testBit 8

/-- JOB_RELEASE (R349, R352, R354, R355): both waits met, the job is released and its program chosen; in replay the program
that its record names, and the replay stops where that one cannot be placed (R326, R330). -/
def execJobRelease (id : JobId) (s : State) : Result :=
  .next (match s.jobOf id with
    | none => s
    | some j =>
      if j.stage ≠ .waiting ∨ !s.waitsMet j then s
      else
        let tell := fun (s : State) =>
          if j.safety then (s.tellIslands j true 0 0).put F.FLT_SR_OPEN_open (s.get F.FLT_SR_OPEN_open + 1) else s
        if !j.isArray then (tell s).releaseWith j false []
        else
          let a := if j.altValid then s.readHeader j.alternate else (s, [])
          let s1 := a.1
          let altOk := j.altValid && s1.imageOk a.2 (j.cls == 2) && s1.placeable a.2
          let choice := if s.replaying then s.recordedChoice j else none
          match choice with
          | some true => if altOk then (tell s1).releaseWith j true a.2 else s1.replayStop 8
          | some false => if s1.placeable j.header then (tell s1).releaseWith j false j.header else s1.replayStop 8
          | none =>
            if s1.placeable j.header then (tell s1).releaseWith j false j.header
            else if altOk then (tell s1).releaseWith j true a.2
            else (tell s1).notPlaceable j)

/-! ### The divergence detector (R334, R335) -/

/-- The entry of a slot and tile. -/
def tileFind (l : List TileEnt) (slot tile : Nat) : Option TileEnt := l.find? fun t => decide (t.slot = slot ∧ t.tile = tile)

/-- Does slot and tile of one entry come before those of another? -/
def TileEnt.before (a b : TileEnt) : Bool := decide (a.slot < b.slot ∨ (a.slot = b.slot ∧ a.tile < b.tile))

/-- The first slot and tile, in their order, at which two sides differ, with its entry on either side (R335). -/
def firstDiff (run rec : List TileEnt) : Option TileEnt × Option TileEnt :=
  let odd := (run.filter fun t => (tileFind rec t.slot t.tile).map (·.digest) != some t.digest)
    ++ rec.filter fun t => (tileFind run t.slot t.tile).isNone
  match odd with
  | [] => (none, none)
  | a :: l =>
    let t := l.foldl (fun x y => if y.before x then y else x) a
    (tileFind run t.slot t.tile, tileFind rec t.slot t.tile)

/-- A pair compared. -/
def State.detPair (s : State) (run rec : DetEnt) : State :=
  if run.nonrepro || rec.nonrepro then s.count F.DET_SKIPPED_count 1
  else if run.digest = rec.digest then s.count F.DET_COMPARED_count 1
  else
    -- a record that was cut at 4,096 entries is held against as many of the run (R333)
    let ran := if rec.cut then run.tiles.take 4096 else run.tiles
    let known := !ran.isEmpty && !rec.tiles.isEmpty
    let d := if known then firstDiff ran rec.tiles else (none, none)
    let e : DetLog := ⟨run.queue, run.index, rec.digest, run.digest, d.1, d.2, known⟩
    let first := s.get F.DET_STATUS_state != 2
    let s1 := (s.put F.DET_STATUS_state 2).raise pgDET Ev.DET_mismatch
    let s2 := if first && s.flag F.DET_CTRL_halt then s1.replayStop 0xA else s1
    if s2.det.log.length < 16 then
      { s2 with det := { s2.det with log := s2.det.log ++ [e] } }.put F.DET_STATUS_log_count (s2.det.log.length + 1)
    else s2

/-- Is this entry of the job of another? -/
def DetEnt.same (a b : DetEnt) : Bool := decide (a.queue = b.queue ∧ a.index = b.index)

/-- Too many unpaired entries: the comparison ends. -/
def State.detOverflow (s : State) : State := (s.put F.DET_STATUS_state 3).raise pgDET Ev.DET_overflow

/-- An entry of one side: paired with the other side's, or kept (R334). `run`: of a job that completed. -/
def State.detAdd (s : State) (e : DetEnt) (run : Bool) : State :=
  if !s.flag F.DET_CTRL_compare ∨ s.get F.JRN_CTRL_mode ≠ 2 ∨ s.get F.DET_STATUS_state = 3 then s
  else if run then
    match s.det.recorded.find? e.same with
    | some r => { s with det := { s.det with recorded := s.det.recorded.filter fun x => !e.same x } }.detPair e r
    | none =>
      if s.det.replayed.length < 4096 then { s with det := { s.det with replayed := s.det.replayed ++ [e] } }
      else s.detOverflow
  else
    match s.det.replayed.find? e.same with
    | some r => { s with det := { s.det with replayed := s.det.replayed.filter fun x => !e.same x } }.detPair r e
    | none =>
      if s.det.recorded.length < 4096 then { s with det := { s.det with recorded := s.det.recorded ++ [e] } }
      else s.detOverflow

/-! ### Completion (R357 to R360) -/

/-- Slots of a job's digest. -/
def Job.digestSlots (j : Job) : Nat := if j.isArray then j.slotCount else 1

/-- Tile entries in slot order and then tile order. -/
def Job.tilesInOrder (j : Job) : List TileEnt :=
  (List.range j.digestSlots).flatMap fun k => j.tiles.filter fun t => decide (t.slot = k)

/-- A tile entry of a checkpoint (R333). -/
def tileEntry (t : TileEnt) : List Byte :=
  leBytes 2 t.slot ++ leBytes 2 t.tile ++ leBytes 1 t.logical ++ leBytes 1 (t.die + 4 * t.phys) ++ leBytes 2 0 ++ laneBytes t.digest

/-- The checkpoint record of a job that formed a digest (R333). -/
def State.checkpoint (s : State) (j : Job) : State :=
  let level := s.flag F.JRN_CTRL_tile_level
  let tiles := j.tilesInOrder
  let cut := level && decide (4096 < tiles.length)
  let flags := (if j.nonrepro then 8 else 0) + (if level then 16 else 0) + (if cut then 32 else 0)
  s.record 0x14 flags (j.queue % 65536) j.index (j.queue / 65536 + 65536 * j.digestSlots) j.digest.toNat
    (if level then (tiles.take 4096).flatMap tileEntry else [])

/-- Has every slot or command of a job ended, and every read from outside that it began? -/
def State.jobOver (s : State) (j : Job) : Bool :=
  !(s.ext.any fun e => decide (e.2.queue = j.queue ∧ e.2.index = j.index))
    && (match j.stage with
        | .ended => true
        | .placed => j.isArray && !j.slots.isEmpty && j.slots.all fun k => decide (k.phase = 3)
        | _ => false)

/-- Do a job's signals go out? -/
def Job.signalsNow (j : Job) : Bool := decide (j.outcome.1 = 0 ∨ j.outcome.1 = 1) || j.sigOnFail

/-- A job's signals added to their objects, signal0 first. -/
def State.jobSignals (s : State) (j : Job) : State :=
  if j.signalsNow then
    [0, 1].foldl (fun s k => if (j.signal k).testBit 15 then s.fenceAdd (j.signal k % 4096) (j.signalInc k) else s) s
  else s

/-- A job completed (R357): entries released, checkpoint and comparison, signals, completion record, messages. -/
def State.jobDone (s : State) (j : Job) : State :=
  let s1 := { s.redRelease j with transit := s.transit.filter fun p => decide (¬(p.queue = j.queue ∧ p.index = j.index)) }
  let s2 := if j.hasDigest then
      (s1.checkpoint j).detAdd ⟨j.queue, j.index, j.digest, j.nonrepro, j.tilesInOrder, false⟩ true
    else s1
  let s3 := (s2.jobSignals j)
  let s4 := if j.nonrepro then (s3.count F.DET_NONREPRO_count 1).raise pgDET Ev.DET_nonrepro else s3
  -- the time of a job that was never released is not stated
  let us : Nat × State := match j.released with
    | some t => (s4.hubUs - t, s4)
    | none => s4.fresh
  let r := completionRecord j j.signalsNow us.1
  let s5a := (us.2.complete j.cq r).count F.QENG_JOBS_count 1
  let s5 := if s.replaying then s5a.put F.FARM_PROG_JOBS_count (s5a.get F.FARM_PROG_JOBS_count + 1) else s5a
  let v := s5.queue j.queue
  let s6 := { s5.setQueue j.queue { v with inFlight := v.inFlight - 1 } with
    jobs := s5.jobs.filter fun k => !k.is j.queue j.index }
  let gone := j.outcome.1 = 0x02 ∨ j.outcome.1 = 0x0B
  if j.safety ∧ ¬gone then
    let bad := j.dip || decide (j.outcome.1 = 0x03 ∨ j.outcome.1 = 0x04)
    ({ s6 with twin := { s6.twin with jobFault := s6.twin.jobFault || bad } }.tellIslands j false j.outcome.1 (fieldAt r 9 1)).put F.FLT_SR_OPEN_open (s.get F.FLT_SR_OPEN_open - 1)
  else s6

/-- JOB_COMPLETE (R357). -/
def execJobComplete (id : JobId) (s : State) : Result :=
  .next (match s.jobOf id with
    | none => s
    | some j => if queueKind j.queue = 1 ∧ s.jobOver j then s.jobDone j else s)

/-- COMPLETION_RECORD (R360): the oldest staged record of a completion queue is written once there is room. -/
def execCompletionRecord (cq : Fin 128) (s : State) : Result :=
  .next (match s.cqStaged.find? fun e => decide (e.1 = cq.val) with
    | none => s
    | some e =>
      if (s.queue (0x80 + cq.val)).hasRoom then { s with cqStaged := s.cqStaged.erase e }.cqWrite cq.val e.2
      else s)

/-- A job ended by an abort (R361). -/
def State.abortJob (s : State) (j : Job) : State :=
  match j.stage with
  | .placed =>
    if j.isArray then
      let j1 := { (if j.slots.any fun k => decide (k.phase = 2) then j else j.report 0x0A 7 0) with
        slots := j.slots.map fun k => if k.phase < 2 then { k with phase := 3 } else k }
      (s.setJob j1).stopSlots j1 1000 7
    else s.setJob { j with stopping := true }
  | .ended => s
  | _ => s.setJob (j.ended 0x0A 0)

/-- QENG_ABORT (R361). -/
def execQengAbort (acc : Acc) (s : State) : Result :=
  .next (s.command pgQENG 0x040 acc fun s w =>
    if w.getLsbD 31 then
      match s.job (F.QENG_ABORT_queue.ext w) (s.get F.QENG_ABORT_INDEX_index) with
      | none => s.queueResult 5
      | some j => if queueKind j.queue = 1 then (s.abortJob j).queueResult 0 else s.queueResult 5
    else s)

/-! ### DMA (R356) -/

/-- Is a DMA command inside its rules: operation, every address aligned, its length, no reduction buffer reached? What else an address
may be is the memory's concern (R370). -/
def dmaOk (b : List Byte) : Bool :=
  let op := fieldAt b 0 1
  let side := fieldAt b 1 1
  let src := fieldAt b 8 8
  let dst := fieldAt b 0x10 8
  let n := fieldAt b 0x18 8
  decide ((op = 1 ∨ op = 2) ∧ side < 4 ∧ fieldAt b 2 2 = 0 ∧ 32 ≤ n ∧ n ≤ 2 ^ 36 ∧ n % 32 = 0 ∧ src % 32 = 0 ∧ dst % 32 = 0)
    && (op == 2 || side.testBit 0 || !touchesRedBuf src n)
    && (side.testBit 1 || !touchesRedBuf dst n)

/-- Bytes of device memory written by a DMA command to its destination, word by word with their poison. -/
def State.dmaStore (s : State) (dst : Nat) (ws : List (List Byte × Bool)) : State :=
  ((List.range ws.length).zip ws).foldl (fun s e => s.store (dst + 32 * e.1) e.2.1 e.2.2) s

/-- The words of a range read, with their poison. -/
def State.dmaLoad (s : State) (a n : Nat) : State × List (List Byte × Bool) :=
  (List.range (n / 32)).foldl
    (fun (p : State × List (List Byte × Bool)) i =>
      let r := p.1.load (a + 32 * i) 32
      (r.1, p.2 ++ [r.2])) (s, [])

/-- Words delivered to a DMA command's destination, and the command's end. -/
def State.dmaPut (s : State) (j : Job) (toHost : Bool) (dst : Nat) (ws : List (List Byte × Bool)) : State :=
  let bs := ws.flatMap (·.1)
  let bad := ws.any (·.2)
  (if toHost then s.hostWrite dst bs bad else s.dmaStore dst ws).dmaEnd j.queue j.index bs bad

/-- COPY (R356): the source is read in full before any write; a source in host memory is read through the host interface. -/
def execCopy (id : JobId) (s : State) : Result :=
  .next (s.listCommand id 7 (fun o => decide (o ≠ 2)) fun s j b =>
    if !dmaOk b then s.commandFailed j.queue j.index
    else
      let side := fieldAt b 1 1
      let src := fieldAt b 8 8
      let dst := fieldAt b 0x10 8
      let n := fieldAt b 0x18 8
      if side.testBit 0 then
        (s.modJob j.queue j.index fun j => { j with busy := true }).hostRequest
          ⟨true, none, 0, j.queue, j.index, j.reads, src, dst, n, side.testBit 1, 0⟩
      else
        let r := s.dmaLoad src n
        r.1.dmaPut j (side.testBit 1) dst r.2)

/-- FILL (R356). -/
def execFill (id : JobId) (s : State) : Result :=
  .next (s.listCommand id 7 (fun o => decide (o = 2)) fun s j b =>
    if !dmaOk b then s.commandFailed j.queue j.index
    else
      let word := (List.replicate 8 (bytesAt b 4 4)).flatten
      s.dmaPut j ((fieldAt b 1 1).testBit 1) (fieldAt b 0x10 8) (List.replicate (fieldAt b 0x18 8 / 32) (word, false)))

/-! ### Fence objects (R362 to R364) -/

/-- FENCE_INC (R364): a non-zero increment from the host or the management complex is a publication and raises the object; in
replay it is ignored and counted (R328). -/
def execFenceInc (acc : Acc) (s : State) : Result :=
  .next (s.command pgFENCE 0x020 acc fun s w =>
    let n := F.FENCE_INC_inc.ext w
    let o := F.FENCE_INC_object.ext w
    if n = 0 ∨ acc.req = .xs then s
    else if s.replaying then s.count F.JRN_IGNORED_count 1
    else (s.publish 0x05 0 o n (if acc.req = .mgmt then 1 else 0) 0).fenceAdd o n)

/-- Does anything wait on an object: a job's wait fence, an array in FWAIT or BAR.P? -/
def State.fenceWaited (s : State) (o : Nat) : Bool :=
  s.jobs.any (fun j => j.stage == .waiting && [0, 1].any fun k =>
      (j.wait k).testBit 15 && decide (j.wait k % 4096 = o ∧ s.fence o < j.waitValue k))
    || s.arrs.any fun a =>
      match a.2.wait with
      | .obj x _ => x == o
      | .barP x _ => x == o
      | _ => false

/-- FENCE_SET (R364). -/
def execFenceSet (acc : Acc) (s : State) : Result :=
  .next (s.command pgFENCE 0x108 acc fun s w =>
    let o := F.FENCE_SET_CMD_object.ext w
    let v := s.addr F.FENCE_SET_LO_value
    if !w.getLsbD 31 then s
    else if s.get F.JRN_CTRL_mode ≠ 0 ∨ (v < s.fence o ∧ s.fenceWaited o) then s.raise pgFENCE Ev.FENCE_set_refused
    else { s with fences := tabSet s.fences o v })

end Sys2Proof.Machine
end

