-- ==== Sys2Proof/Machine/Journal.lean ====
section
/-! DEFINITION. The commands of 10_exact_mode_and_replay that start and end recordings and replays (R321 to R324, R330,
R337). The application of records stands with what they are applied to. -/

namespace Sys2Proof.Machine

/-- Bytes of a register of a page. -/
def State.regBytes (s : State) (page off : Nat) : List Byte := leBytes 4 (s.regWord page off).toNat

/-- The payload of a segment header (R321). -/
def State.segmentPayload (s : State) : List Byte :=
  s.regBytes 0 0x24 ++ s.regBytes 0 0x28 ++ s.regBytes 0 0x34
    ++ ((List.range 4).flatMap fun k => s.regBytes 0 (0x40 + 4 * k))
    ++ ((List.range 4).flatMap fun k => s.regBytes pgJRN (0x110 + 4 * k))
    ++ ((List.range 8).flatMap fun n =>
          s.regBytes pgJRN (0x140 + 16 * n) ++ s.regBytes pgJRN (0x144 + 16 * n) ++ s.regBytes pgJRN (0x148 + 16 * n) ++ leBytes 4 0)
    ++ ((List.range 16).flatMap fun k => s.regBytes pgJRN (0x1C0 + 4 * k))
    ++ leBytes 20 0

/-- A segment header written (kind 0x10). -/
def State.segmentStart (s : State) : State :=
  s.record 0x10 2 0 (s.jrnPos % 2 ^ 32) (s.jrnPos / 2 ^ 32) s.fuse.serial.toNat s.segmentPayload

/-- A segment end written (kind 0x11), after the host-data record that is open. -/
def State.segmentEnd (s : State) : State :=
  let s1 := s.closeHostData
  s1.record 0x11 0 0 (s1.jrnPos % 2 ^ 32) (s1.jrnPos / 2 ^ 32) 0

/-- Is capture window `n` in use? -/
def State.capValid (s : State) (n : Nat) : Bool := s.flag (F.JRN_CAPWIN_SIZE_valid n)
def State.capBase (s : State) (n : Nat) : Nat := s.addr (F.JRN_CAPWIN_BASE_LO_base n)
def State.capSize (s : State) (n : Nat) : Nat := 2 ^ s.get (F.JRN_CAPWIN_SIZE_size_log2 n)

/-- The configuration checks of R337. -/
def State.jrnCfgOk (s : State) : Bool :=
  s.inDram (s.addr F.JRN_BASE_LO_base) (2 ^ s.get F.JRN_SIZE_log2)
    && (List.range 8).all fun n => !s.capValid n
      || (decide (s.capBase n % s.capSize n = 0 ∧ 12 ≤ s.get (F.JRN_CAPWIN_SIZE_size_log2 n)
            ∧ s.get (F.JRN_CAPWIN_SIZE_size_log2 n) ≤ 36)
          && s.inMemory (s.capBase n) (s.capSize n))

/-- Recording begins with a segment header (R321). -/
def State.recordStart (s : State) : State := ((s.put F.JRN_STATUS_state 1).put F.JRN_STATUS_stop_cause 0).segmentStart

/-- A replay waits for its journal (R324 step 3). -/
def State.replayStart (s : State) : State :=
  let s1 := ((s.put F.JRN_STATUS_state 2).put F.JRN_STATUS_stop_cause 0).put F.ING_STATUS_replay 1
  { s1 with jrn := { s1.jrn with
      rptr := 0
      expected := none
      live := []
      taken := []
      firstTs := none } }

/-- JRN_CTRL.mode written (R337): from 0 to record or replay, refused with stop cause 0x6 where the configuration is bad; to 0, which ends
what runs; another mode is not taken while one runs. -/
def State.jrnMode (s : State) (mode : Nat) : State :=
  let old := s.get F.JRN_CTRL_mode
  if mode = 0 then
    if old = 0 then s
    else if s.recording then (s.segmentEnd.put F.JRN_STATUS_state 0).put F.JRN_CTRL_mode 0
    else (s.replayStop 9).put F.JRN_CTRL_mode 0
  else if old ≠ 0 ∨ 2 < mode then s
  else if !s.jrnCfgOk then s.put F.JRN_STATUS_stop_cause 6
  else
    let s1 := s.closeHostData.put F.JRN_CTRL_mode mode
    if mode = 1 then s1.recordStart else s1.replayStart

/-- A write of JRN_CTRL: its mode; a new segment of a recording that goes on (R321); stop of a replay (R330). -/
def State.jrnCtrl (s : State) (w : Word) : State :=
  let s1 := s.jrnMode (F.JRN_CTRL_mode.ext w)
  let s2 := if w.getLsbD 4 && s.recording && s1.recording then s1.segmentEnd.segmentStart else s1
  if w.getLsbD 6 then s2.replayStop 9 else s2

/-- RECORD (R321, R337). -/
def execRecord (acc : Acc) (s : State) : Result := .next (s.command pgJRN 0x020 acc State.jrnCtrl)

/-- REPLAY (R324 step 3). -/
def execReplay (acc : Acc) (s : State) : Result := .next (s.command pgJRN 0x020 acc State.jrnCtrl)

/-- JRN_OFF (R337): mode 0 written. -/
def execJrnOff (acc : Acc) (s : State) : Result := .next (s.command pgJRN 0x020 acc State.jrnCtrl)

/-- SEGMENT (R321). -/
def execSegment (acc : Acc) (s : State) : Result := .next (s.command pgJRN 0x020 acc State.jrnCtrl)

/-- JRN_STOP (R330). -/
def execJrnStop (acc : Acc) (s : State) : Result := .next (s.command pgJRN 0x020 acc State.jrnCtrl)

/-- JOURNAL_WRITE (R323): the oldest staged record goes into the ring. -/
def execJournalWrite (s : State) : Result := .next s.journalWrite

/-- JRN_BASELINE. -/
def State.baseline (s : State) : List Byte := (List.range 16).flatMap fun k => s.regBytes pgJRN (0x1C0 + 4 * k)

/-- Does a ring record read poisoned? -/
def State.ringPoisoned (s : State) (unit units : Nat) : Bool :=
  (List.range units).any fun k => s.poisonedAt (s.addr F.JRN_BASE_LO_base + (unit + k) % s.ringUnits * 32) 32

/-- The progress of a segment counted from here (R547, R553). -/
def State.farmBegin (s : State) : State :=
  { (s.put F.FARM_PROG_RECORDS_count 0).put F.FARM_PROG_JOBS_count 0 with farm := { s.farm with
      startUs := s.hubUs
      began := true
      toldSlow := false } }

/-- HEADER_CHECK_DONE (R324 steps 4 and 5, R330, R553). -/
def execHeaderCheckDone (s : State) : Result :=
  .next (if s.get F.JRN_STATUS_state ≠ 2 then s
    else
      let r := s.jrnAt 0
      if s.ringPoisoned 0 (min r.units s.ringUnits) then (s.replayStop 7).raise pgJRN Ev.JRN_uncorrectable
      else if r.kind ≠ 0x10 ∨ r.payload.length ≠ 256 then s.replayStop 6
      else if F.GEN_FW_REV_arith_rev.ext (BitVec.ofNat 32 (fieldAt r.payload 8 4)) ≠ s.get F.GEN_FW_REV_arith_rev then s.replayStop 1
      else if bytesAt r.payload 0xAC 64 ≠ s.baseline then s.replayStop 2
      else
        { ((s.put F.JRN_STATUS_state 3).put F.FARM_STATUS_state 2).farmBegin with jrn := { s.jrn with
            rptr := r.units
            expected := some (r.aux0 + 2 ^ 32 * r.aux1)
            startUs := s.hubUs } })

/-! ### Records taken in replay (R325, R545) -/

/-- The boundary position (R545). -/
def State.boundary (s : State) : Nat := s.addr F.FARM_BOUNDARY_LO_position

/-- Does the armed boundary keep a positioned record back? -/
def State.beyond (s : State) (position : Nat) : Bool := s.flag F.FARM_STATUS_armed && decide (s.boundary ≤ position)

/-- The replay record that must be the next for a publication of the replay itself (R325, codes 0x0B and 0x0C). -/
def State.replayTurn (s : State) (p : JRec → Bool) : Bool :=
  let r := s.jrnAt s.jrn.rptr
  decide (s.jrn.rptr < s.get F.JRN_EXPORT_offset) && s.get F.JRN_STATUS_state == 3 && s.jrn.expected == some r.position
    && !s.beyond r.position && p r

/-- The next publication takes a recorded position: in replay positions are those of the recording (assumption 28). -/
def State.putPos (s : State) (p : Nat) : State :=
  (s.put F.JRN_POS_LO_position p).put F.JRN_POS_HI_position (p / 2 ^ 32)

/-- Has every positioned record below the armed boundary been applied? Their positions follow each other (R325). -/
def State.boundaryNext (s : State) : Bool := s.jrn.expected.any fun p => s.beyond p

/-- FARM_STATUS.state is holding once every record below the armed boundary has been applied (R545, R546). -/
def State.farmHold (s : State) : State :=
  if s.get F.FARM_STATUS_state = 2 ∧ s.boundaryNext then s.put F.FARM_STATUS_state 3 else s

/-- A positioned record applied, or taken by a publication of the replay itself: the journal goes on after it. -/
def State.replayTake (s : State) : State :=
  let r := s.jrnAt s.jrn.rptr
  let s1 := ((s.putPos r.position).put F.JRN_REPLAY_POS_LO_position r.position).put F.JRN_REPLAY_POS_HI_position
    (r.position / 2 ^ 32)
  { s1.put F.FARM_PROG_RECORDS_count (s1.get F.FARM_PROG_RECORDS_count + 1) with jrn := { s.jrn with
      rptr := s.jrn.rptr + r.units
      expected := some (r.position + 1) } }.farmHold

/-- REPLAY_STALL (R330): no record was applied for JRN_STALL_US. -/
def execReplayStall (s : State) : Result := .next (if s.replaying then s.raise pgJRN Ev.JRN_stall else s)

/-- HOST_DATA_RECORD_CLOSE (R322): 1 µs without a write. -/
def execHostDataRecordClose (s : State) : Result := .next s.closeHostData

end Sys2Proof.Machine
end

