-- ==== Sys2Proof/Machine/Ingress.lean ====
section
/-! DEFINITION. The commands of 07_sensor_ingress_and_wards but for wards: streams, the camera, Ethernet, inertial and CAN
FD ports, items, drops and health (R202 to R218, R224 to R228). -/

namespace Sys2Proof.Machine

/-! ### Streams (R203 to R205) -/

/-- Stream `n`. -/
def State.stream (s : State) (n : Nat) : StreamSt := tabGet s.streams n {}

/-- Stream `n` replaced. -/
def State.setStream (s : State) (n : Nat) (v : StreamSt) : State := { s with streams := tabSet s.streams n v }

/-- Stream `n` changed in place. -/
def State.modStream (s : State) (n : Nat) (f : StreamSt → StreamSt) : State := s.setStream n (f (s.stream n))

/-- Is the bit of stream `n` set in ING_STREAM_EN? -/
def State.streamOn (s : State) (n : Nat) : Bool := (s.get (F.ING_STREAM_EN_enable (n / 32))).testBit (n % 32)

/-- The bit of stream `n` in ING_STREAM_EN written. -/
def State.putStreamOn (s : State) (n : Nat) (b : Bool) : State :=
  let v := s.get (F.ING_STREAM_EN_enable (n / 32))
  let m := 2 ^ (n % 32)
  s.put (F.ING_STREAM_EN_enable (n / 32)) (if b then v ||| m else (v ||| m) - m)

/-- Fields of a stream descriptor (R203). -/
def StreamSt.xsRoute (v : StreamSt) : Bool := (fieldAt v.desc 1 1).testBit 0
def StreamSt.xsBypass (v : StreamSt) : Bool := (fieldAt v.desc 1 1).testBit 1
def StreamSt.warded (v : StreamSt) : Bool := (fieldAt v.desc 1 1).testBit 2
def StreamSt.slabLines (v : StreamSt) : Nat := fieldAt v.desc 2 2
def StreamSt.fenceObj (v : StreamSt) : Nat := fieldAt v.desc 4 2
def StreamSt.tsFormat (v : StreamSt) : Nat := fieldAt v.desc 6 1
def StreamSt.tsLine (v : StreamSt) : Nat := fieldAt v.desc 7 1
def StreamSt.tsOffset (v : StreamSt) : Nat := fieldAt v.desc 8 2
def StreamSt.deadlineUs (v : StreamSt) : Nat := fieldAt v.desc 0xC 4
def StreamSt.ring (v : StreamSt) : Nat := fieldAt v.desc 0x10 8
def StreamSt.ringBytes (v : StreamSt) : Nat := 2 ^ fieldAt v.desc 0x18 1
def StreamSt.dataType (v : StreamSt) : Nat := fieldAt v.desc 0x20 1

/-- Image data types of R210: RAW8, RAW10, RAW12, RAW14, RAW16, RAW20, YUV422 8-bit and user-defined, with the codes of
CSI-2 (assumption 24). -/
def imageTypes : List Nat :=
  [0x2A, 0x2B, 0x2C, 0x2D, 0x2E, 0x2F, 0x1E, 0x30, 0x31, 0x32, 0x33, 0x34, 0x35, 0x36, 0x37]

/-- Does a stream descriptor pass R204? -/
def State.streamOk (s : State) (n : Nat) (b : List Byte) : Bool :=
  let v : StreamSt := { desc := b }
  let cam := decide (n < 96)
  decide (n < 118 ∧ fieldAt b 0 1 = 1 ∧ fieldAt b 1 1 < 8 ∧ v.fenceObj < 4096 ∧ v.tsFormat ≤ 2 ∧ v.deadlineUs ≤ 10000000
      ∧ v.ring % 4096 = 0 ∧ 12 ≤ fieldAt b 0x18 1 ∧ fieldAt b 0x18 1 ≤ 30)
    && (if cam then decide (v.slabLines ≤ 8192 ∧ v.tsLine < 16) && imageTypes.contains v.dataType
        else decide (v.slabLines = 0 ∧ v.dataType = 0))
    && (bytesAt b 0xA 2).all (· == 0#8) && (bytesAt b 0x19 7).all (· == 0#8) && (bytesAt b 0x21 31).all (· == 0#8)
    && s.inDramHub v.ring v.ringBytes && (!v.xsRoute || s.flag F.GEN_XS_populated)

/-! ### Numbers, drops and records (R205 to R207) -/

/-- The next sequence number taken. -/
def StreamSt.next (v : StreamSt) : StreamSt := { v with seq := (v.seq + 1) % 2 ^ 32 }

/-- Is a record that of a health change of cause 4 (R225)? -/
def IngRec.health4 (r : IngRec) : Bool := r.kind == 1 && r.len / 256 == 4

/-- A drop with the number `n` at the end of the records. Consecutive drops form one drop record: the health records of the drops before
it stand after that record, and move up by one number (assumption 74). -/
def addDrop (l : List IngRec) (n : Nat) : List IngRec :=
  let hs := (l.reverse.takeWhile IngRec.health4).reverse
  let pre := l.take (l.length - hs.length)
  match pre.getLast? with
  | some r =>
    if r.kind = 2 ∧ (r.seq + r.len + hs.length) % 2 ^ 32 = n then
      pre.dropLast ++ [{ r with len := r.len + 1 }] ++ hs.map fun h => { h with seq := (h.seq + 1) % 2 ^ 32 }
    else l ++ [{ kind := 2, seq := n, len := 1 }]
  | none => l ++ [{ kind := 2, seq := n, len := 1 }]

/-- Drop records that follow each other joined into one (R207). -/
def joinDrops (l : List IngRec) : List IngRec :=
  l.foldl
    (fun acc r =>
      match acc.getLast? with
      | some p =>
        if p.kind = 2 ∧ r.kind = 2 ∧ (p.seq + p.len) % 2 ^ 32 = r.seq then acc.dropLast ++ [{ p with len := p.len + r.len }]
        else acc ++ [r]
      | none => [r]) []

/-- Ring ranges still held: those of records that the consumer index of the stream's queue has not passed (R207). -/
def State.heldNow (s : State) (n : Nat) : List (Option Nat × Nat × Nat) :=
  let c := (s.queue n).consumer
  (s.stream n).held.filter fun h =>
    match h.1 with
    | some i => decide ((c + 2 ^ 32 - (i + 1) % 2 ^ 32) % 2 ^ 32 ≥ 2 ^ 31)
    | none => true

/-- A place for `len` bytes in the stream's ring, contiguous, from the offset after the last item (R207). -/
def State.ringPlace (s : State) (n len : Nat) : Option Nat :=
  let v := s.stream n
  let o := if v.wr + len ≤ v.ringBytes then v.wr else 0
  if len ≤ v.ringBytes ∧ (s.heldNow n).all fun h => decide (h.2.1 + h.2.2 ≤ o ∨ o + len ≤ h.2.1) then some o else none

/-- An item's data given its place in the ring; none when there is too little room. -/
def State.placeData (s : State) (n len : Nat) : Option (Nat × State) :=
  (s.ringPlace n len).map fun o =>
    (o, s.setStream n { s.stream n with
      wr := o + len
      held := s.heldNow n ++ [(none, o, len)] })

/-! ### Health (R224, R225) -/

/-- A score changed by `d` with saturation at both ends, and its health record made ready (R225). -/
def StreamSt.health (v : StreamSt) (cause : Nat) (d : Int) : StreamSt :=
  let new := (max 0 (min 255 ((v.score : Int) + d))).toNat
  if cause = 7 ∧ new = v.score then v
  else
    { v with
      scoreC := .of new
      cause := cause
      ready := v.ready ++ [{ kind := 1, seq := v.seq, len := new + 256 * cause }]
      seq := (v.seq + 1) % 2 ^ 32 }

/-- A health change of stream `n`; in replay changes come from the journal alone (R226). -/
def State.health (s : State) (n cause : Nat) (d : Int) : State :=
  if s.replaying then s else s.modStream n fun v => v.health cause d

/-- A health change to 0 (cause 6). -/
def State.healthZero (s : State) (n : Nat) : State := s.health n 6 (-255)

/-- A bad item told to the score (cause 4). -/
def State.healthBad (s : State) (n : Nat) : State := s.health n 4 (-(s.get F.WARD_HEALTH_DELTA2_bad_item : Int))

/-- An item dropped: it takes its number, is counted, is told in a drop record, and lowers the score (R205, R207, R225). -/
def State.dropItem (s : State) (n : Nat) : State :=
  ((s.modStream n fun v => { v with
    drops := (v.drops + 1) % 2 ^ 32
    ready := addDrop v.ready v.seq
    seq := (v.seq + 1) % 2 ^ 32 }).raise pgING Ev.ING_drop).healthBad n

/-- A numbered item that waits for its commit dropped in its place (R207). -/
def State.dropNumbered (s : State) (n : Nat) (r : IngRec) : State :=
  ((s.modStream n fun v => { v with
    drops := (v.drops + 1) % 2 ^ 32
    ready := joinDrops (v.ready.map fun x => if x = r then { kind := 2, seq := r.seq, len := 1 } else x) }).raise
      pgING Ev.ING_drop).healthBad n

/-- A stream enabled, or refused (R204, R224). Ring ranges behind records not yet consumed stay held (R207). -/
def State.streamEnable (s : State) (n : Nat) : State :=
  let r := s.load (s.addr F.ING_TABLE_BASE_LO_base + 64 * n) 64
  if !r.2.2 && r.1.streamOk n r.2.1 then
    let keep := if (s.stream n).ring = fieldAt r.2.1 0x10 8 then s.heldNow n else []
    (r.1.putStreamOn n true).modStream n fun v => { v with
      desc := r.2.1
      scoreC := .of 192
      wr := 0
      held := keep }
  else ((r.1.put F.ING_STATUS_cfg_err 1).put F.ING_STATUS_cfg_stream n).raise pgING Ev.ING_cfg_err

/-! ### Items arriving -/

/-- The window that holds an address (R30). -/
def State.windowAt (s : State) (a : Nat) : Option (Nat × Window) :=
  s.dike.windows.find? fun w => decide (w.2.base ≤ a ∧ a < w.2.base + w.2.size)

/-- Does a window let the XS die reach a range (R30, R31)? Permission bit 0 reads, 1 writes. -/
def State.xsReach (s : State) (a n bit : Nat) : Bool :=
  match s.windowAt a with
  | some (_, w) => decide (a + n ≤ w.base + w.size ∧ w.rate ≠ 0) && w.perm.testBit bit
  | none => false

/-- The faulted XS slot as ingress sees it, until it is admitted again (R217, R35). -/
def State.xsFaulted (s : State) : Bool := s.get F.DIKE_STATUS_state != 3 && s.get F.DIKE_STATUS_fault_count != 0

/-- An item with a place in the ring takes its number and is ready to commit, or is dropped for want of space (R205, R207). -/
def State.storeItem (s : State) (n flags ts : Nat) (data : List Byte) (last : Bool) : State :=
  match s.placeData n data.length with
  | none => s.dropItem n
  | some (o, s1) =>
    s1.modStream n fun v => { v.next with
      ready := v.ready ++ [{ kind := 0, seq := v.seq, flags := flags, ts := ts, off := o, len := data.length, data := data, last := last }]
      done := v.done ++ [v.seq] }

/-- An item passed to the XS die (R217). The die reads it, where it is to lie, through a window; a stream is unavailable where the
slot is not admitted or no window lets the die read: the item is dropped (R28, R30; assumption 74). -/
def State.passItem (s : State) (n flags ts : Nat) (data : List Byte) (last : Bool) : State :=
  match s.ringPlace n data.length with
  | none => s.dropItem n
  | some o =>
    if s.get F.DIKE_STATUS_state = 3 ∧ s.xsReach ((s.stream n).ring + o) data.length 0 then
      (s.modStream n fun v => { v.next with
        ready := v.ready ++ [{ kind := 0, seq := v.seq, flags := flags, ts := ts, data := data, xs := true, last := last }]
        done := v.done ++ [v.seq] }).emit .xsReturn [n, (s.stream n).seq] data
    else s.dropItem n

/-- An item takes its number and is ready to commit, goes to the XS die first, or is dropped (R205, R207, R217). -/
def State.newItem (s : State) (n : Nat) (flags ts : Nat) (data : List Byte) (last : Bool) : State :=
  let v := s.stream n
  if s.replaying then s.count F.JRN_IGNORED_count 1
  else if !v.xsRoute then s.storeItem n flags ts data last
  else if s.xsFaulted && v.xsBypass then s.storeItem n (flags ||| 16) ts data last
  else s.passItem n flags ts data last

/-- The number that bytes spell, most significant first. -/
def beNat (l : List Byte) : Nat := leNat l.reverse

/-- A timestamp read from bytes (R206, R216); none: it makes the item ts_invalid. The nanoseconds of a PTP time beyond 64
bits are not stated. -/
def readTs (fmt off : Nat) (l : List Byte) (open' : Nat) : Option Nat :=
  let n := if fmt = 2 then 10 else 8
  let b := (l.drop off).take n
  if b.length < n then none
  else if fmt = 2 then
    let sec := beNat (b.take 6)
    let ns := beNat (b.drop 6)
    if 999999999 < ns then none
    else
      let t := sec * 1000000000 + ns
      some (if t < 2 ^ 64 then t else open' % 2 ^ 64)
  else
    let t := if fmt = 0 then beNat b else leNat b
    if t = 2 ^ 64 - 1 then none else some t

/-- Flags and timestamp of an item from where its timestamp stands. -/
def State.stamp (s : State) (v : StreamSt) (place : Option (List Byte)) : Nat × Nat :=
  match place.bind fun l => readTs v.tsFormat v.tsOffset l (Config.free s.freeCtr) with
  | some t => (0, t)
  | none => (1, 2 ^ 64 - 1)

/-- An item of an Ethernet, SPI or CAN FD stream: its timestamp lies in `place`. -/
def State.portItem (s : State) (n : Nat) (place data : List Byte) : State :=
  let v := s.stream n
  let t := s.stamp v (some place)
  { (s.modStream n fun v => { v with done := [] }) with freeCtr := s.freeCtr + 1 }.newItem n t.1 t.2 data true

/-! ### Commit (R206 to R209) -/

/-- What an unstated timestamp of a health or drop record is: a free value that tells the record's length field, since the journal keeps
no other field that could (R226, R320; assumption 75). -/
def openStamp (n : Nat) (r : IngRec) : Nat := (Config.freeOf [226, n, r.seq] % 2 ^ 64) ^^^ r.len

/-- The length field of a health or drop record told by its timestamp. -/
def stampedLen (n seq ts : Nat) : Nat := (Config.freeOf [226, n, seq] % 2 ^ 64) ^^^ ts

/-- The 32 bytes of a record (R206). -/
def ingRecord (n : Nat) (r : IngRec) (pos : Nat) : List Byte :=
  leBytes 4 r.seq ++ leBytes 1 n ++ leBytes 1 r.kind ++ leBytes 2 r.flags ++ leBytes 8 r.ts ++ leBytes 8 pos
    ++ leBytes 4 r.off ++ leBytes 4 r.len

/-- The payload that the journal keeps of an item (R320, R322): digest and, for a stream recorded in full or a poisoned item, its data
as stored. -/
def State.itemPayload (s : State) (n : Nat) (data : List Byte) (poisoned : Bool) : Nat × List Byte :=
  if poisoned || (s.get (F.JRN_STREAM_FULL_full (n / 32))).testBit (n % 32) then (6, sha3_512 data ++ data) else (4, sha3_512 data)

/-- An item that the ego-motion engine takes (R230). -/
def State.egoWants (s : State) (n : Nat) (data : List Byte) : Bool :=
  s.get F.EGO_STATUS_state != 0 && (n == 112 || n == 113
    || (s.flag F.EGO_WHEEL_SRC_valid && 114 + s.get F.EGO_WHEEL_SRC_stream == n
        && fieldAt data 0 4 % 2 ^ 30 == s.get F.EGO_WHEEL_ID_id))

/-- A record written, published, and its stream's fence object raised (R208); `rec'` is what the journal keeps. -/
def State.commitRecord (s : State) (n : Nat) (r : IngRec) : State :=
  let v := s.stream n
  let pos := s.jrnPos
  let idx := (s.queue n).producer
  let s1 := if r.kind = 0 then s.store (v.ring + r.off) r.data (r.flags.testBit 3) else s
  let pay := if r.kind = 0 then s.itemPayload n r.data (r.flags.testBit 3) else (0, [])
  let s2 := s1.ringEntry n (ingRecord n r pos)
  let s3 := (s2.publish (r.kind + 1) pay.1 n r.seq (n + 256 * r.kind + 65536 * r.flags) r.ts pay.2).fenceAdd v.fenceObj 1
  let s4 := s3.modStream n fun v => { v with
    held := v.held.map fun h => if r.kind = 0 ∧ h = (none, r.off, r.len) then (some idx, r.off, r.len) else h
    hist := if r.kind = 1 then v.hist ++ [(pos, r.len % 256)] else v.hist
    items := if r.kind = 0 then v.items ++ [(pos, r.seq, r.ts)] else v.items }
  if r.kind = 0 ∧ s.egoWants n r.data then
    { s4 with egoIn := s4.egoIn ++ [(⟨n, r.seq, r.flags, r.ts, pos, r.data⟩ : EgoItem)] }
  else s4

/-- The first record of a stream ready to commit, when its queue has room (R207, R209). -/
def State.front (s : State) (n : Nat) : Option IngRec :=
  match (s.stream n).ready with
  | r :: _ => if (s.queue n).hasRoom ∧ !r.xs then some r else none
  | [] => none

/-- The first ready record taken from its list. -/
def State.popReady (s : State) (n : Nat) : State := s.modStream n fun v => { v with ready := v.ready.drop 1 }

/-- Counters of an item committed. -/
def State.itemCounts (s : State) (n : Nat) (r : IngRec) : State :=
  let s1 := if r.flags.testBit 0 then s.count F.ING_TS_INVALID_count 1 else s
  if n < 96 then (if r.last then s1.count (F.CSI_FRAMES_count (n / 4)) 1 else s1)
  else if n < 112 then s1.count (F.ETH_RX_FRAMES_count ((n - 96) / 4)) 1
  else s1

/-- The first ready record of a stream given up: in replay the ports' items are ignored and counted (R328). -/
def State.ignoreFront (s : State) (n : Nat) : State :=
  match (s.stream n).ready with
  | [] => s
  | r :: _ =>
    let s1 := (s.popReady n).modStream n fun v => { v with held := v.held.filter fun h => decide (h ≠ (none, r.off, r.len)) }
    if r.kind = 0 then s1.count F.JRN_IGNORED_count 1 else s1

/-- ITEM_COMMIT (R206, R208, R225, R328): an item or a health record is written, published, and the stream's fence object raised;
a good item adds cause 7, a bad one cause 4. -/
def execItemCommit (n : Fin 128) (s : State) : Result :=
  .next (if s.replaying then s.ignoreFront n.val
    else
      match s.front n.val with
      | none => s
      | some r =>
        if r.kind = 2 then s
        else if r.kind = 1 then (s.popReady n.val).commitRecord n.val { r with ts := openStamp n.val r }
        else
          let s1 := ((s.popReady n.val).commitRecord n.val r).itemCounts n.val r
          if r.flags % 16 ≠ 0 then s1.healthBad n.val
          else s1.health n.val 7 (s.get F.WARD_HEALTH_DELTA2_good_item))

/-- DROP_RECORD (R207, R328): one record for consecutive drops, once the queue and the ring have room (the ring: for a byte;
assumption 74). -/
def execDropRecord (n : Fin 128) (s : State) : Result :=
  .next (if s.replaying then s.ignoreFront n.val
    else
      match s.front n.val with
      | none => s
      | some r =>
        if r.kind ≠ 2 ∨ (s.ringPlace n.val 1).isNone then s
        else (s.popReady n.val).commitRecord n.val { r with ts := openStamp n.val r })

/-- STALE (R225 cause 3, R226): no record committed for deadline_us. -/
def execStale (n : Fin 128) (s : State) : Result :=
  .next (if s.streamOn n.val ∧ (s.stream n.val).deadlineUs ≠ 0 ∧ !s.replaying then
      (s.health n.val 3 (-(s.get F.WARD_HEALTH_DELTA_stale : Int))).raise pgING Ev.ING_stale
    else s)

/-! ### Streams stopped -/

/-- A frame in progress given up: the drop takes a sequence number (R205, R228). -/
def State.frameDrop (s : State) (n : Nat) : State :=
  if (s.stream n).frame.isSome then (s.modStream n fun v => { v with frame := none, done := [] }).dropItem n else s

/-- A stream stopped: its items in flight are dropped in their places, its frame in progress too. -/
def State.streamStop (s : State) (n : Nat) : State :=
  if s.streamOn n then
    let s1 := ((s.stream n).ready.filter fun r => decide (r.kind = 0)).foldl (fun s r => s.dropNumbered n r) (s.putStreamOn n false)
    ((s1.modStream n fun v => { v with
      held := v.held.filter fun h => h.1.isSome
      ward := match v.ward with
        | some w => if w.running then some w else none
        | none => none }).frameDrop n).modStream n fun v => { v with done := [] }
  else s

/-- ING_STREAM_EN written for streams 32k to 32k + 31, lowest first (R204): a bit that becomes set reads and checks the descriptor, one
that becomes clear stops the stream. -/
def State.streamEnWrite (k : Nat) (s : State) (w : Word) : State :=
  (List.range 32).foldl (fun s b =>
    if w.getLsbD b then (if s.streamOn (32 * k + b) then s else s.streamEnable (32 * k + b)) else s.streamStop (32 * k + b)) s

/-- STREAM_ENABLE (R204): the word of ING_STREAM_EN that holds the stream's bit is written. -/
def execStreamEnable (n : Fin 128) (acc : Acc) (s : State) : Result :=
  .next (s.command pgING (0x030 + 4 * (n.val / 32)) acc (State.streamEnWrite (n.val / 32)))

/-- STREAM_DISABLE (R204). -/
def execStreamDisable (n : Fin 128) (acc : Acc) (s : State) : Result :=
  .next (s.command pgING (0x030 + 4 * (n.val / 32)) acc (State.streamEnWrite (n.val / 32)))

/-- ING_ENABLE: clearing the bit stops every stream. -/
def execIngEnable (acc : Acc) (s : State) : Result :=
  .next (s.command pgING 0x020 acc fun s w =>
    if w.getLsbD 0 then s.put F.ING_CTRL_enable 1
    else (List.range 118).foldl State.streamStop (s.put F.ING_CTRL_enable 0))

/-! ### Cameras (R210 to R212, R218) -/

/-- Little-endian 16-bit or 32-bit pixels. -/
def pixels (bytes : Nat) (l : List Nat) : List Byte := l.flatMap (leBytes bytes)

/-- Pixels of a packed RAW payload (CSI-2 packing, assumption 24): `k` pixels of 8 high bits each, then their low bits. -/
def unpackGroups (k low : Nat) : Nat → List Byte → List Nat
  | 0, _ => []
  | fuel + 1, l =>
    let g := k + k * low / 8
    if l.length < g then []
    else
      let tail := leNat ((l.drop k).take (g - k))
      ((List.range k).map fun i => (l.getD i 0#8).toNat * 2 ^ low + tail / 2 ^ (low * i) % 2 ^ low)
        ++ unpackGroups k low fuel (l.drop g)

/-- A line's pixels as R211 stores them: 16 bits each for RAW10 to RAW16, 32 bits for RAW20, as received otherwise. -/
def unpackLine (dt : Nat) (l : List Byte) : List Byte :=
  let n := l.length
  match dt with
  | 0x2B => pixels 2 (unpackGroups 4 2 n l)
  | 0x2C => pixels 2 (unpackGroups 2 4 n l)
  | 0x2D => pixels 2 (unpackGroups 4 6 n l)
  | 0x2E => pixels 2 (unpackGroups 1 8 n l)
  | 0x2F =>
    -- two RAW10 halves for each pixel
    let h := unpackGroups 4 2 n l
    pixels 4 ((List.range (h.length / 2)).map fun i => h.getD (2 * i) 0 * 1024 + h.getD (2 * i + 1) 0)
  | _ => l

/-- The slots of receiver `r` whose virtual channel is `vc` and whose streams run. -/
def State.csiSlots (s : State) (r vc : Nat) : List Nat :=
  (List.range 4).filter fun v =>
    (s.get (F.CSI_VCMAP_slot_en r)).testBit v && s.get (F.CSI_VCMAP_vc r v) == vc && s.streamOn (4 * r + v)

/-- Items of a frame from its lines so far; `last`: the frame ends. -/
def State.frameItem (s : State) (n : Nat) (f : FrameSt) (flags : Nat) (last : Bool) : State :=
  let v := s.stream n
  let t := s.stamp v f.emb[v.tsLine]?
  let fl := t.1 + (if f.damaged then 2 else 0) + flags
  { s with freeCtr := s.freeCtr + 1 }.newItem n fl t.2 (f.lines.flatMap (padTo 32)) last

/-- The frame's timestamp line has been received: its items that are not committed carry the timestamp (R212). -/
def State.stampWaiting (s : State) (n : Nat) (line : List Byte) : State :=
  let v := s.stream n
  match readTs v.tsFormat v.tsOffset line (Config.free s.freeCtr) with
  | none => s
  | some t => { s with freeCtr := s.freeCtr + 1 }.modStream n fun v => { v with
      ready := v.ready.map fun (r : IngRec) =>
        if r.kind = 0 ∧ v.done.contains r.seq ∧ r.flags.testBit 0 then { r with flags := r.flags - 1, ts := t } else r }

/-- The frame's last slab took its last line: the frame counts as committed with that slab (R227). -/
def State.lastSlab (s : State) (n : Nat) (f : FrameSt) : State :=
  match f.items.getLast? with
  | none => s
  | some q =>
    if !(s.stream n).done.contains q then s
    else if (s.stream n).ready.any fun r => decide (r.kind = 0 ∧ r.seq = q) then
      s.modStream n fun v => { v with ready := v.ready.map fun (r : IngRec) => if r.kind = 0 ∧ r.seq = q then { r with last := true } else r }
    else s.count (F.CSI_FRAMES_count (n / 4)) 1

/-- The embedded test of a frame (R218): the line's CRC-32 differs, or the line is missing; not in replay (R328). -/
def State.embTest (s : State) (r v : Nat) (f : FrameSt) : State :=
  if !(s.get (F.CSI_EMB_LINE_check r)).testBit v || s.replaying then s
  else
    let ok : Bool := match f.emb[s.get (F.CSI_EMB_LINE_line r v)]? with
      | some l => (crc32 l).toNat == s.get (F.CSI_EMB_CRC_crc r v)
      | none => false
    if ok then s
    else
      ((s.satInc (F.CSI_EMB_FAIL_fail r v)).raise (pgCSI r) Ev.CSI_emb_fail).health (4 * r + v) 2
        (-(s.get F.WARD_HEALTH_DELTA_emb_fail : Int))

/-- A frame ended, by its frame end or by the next frame start (truncated). A frame in slabs whose lines are all in items has no further
item; it ends with the last of them. -/
def State.frameEnd (s : State) (r v flags : Nat) : State :=
  let n := 4 * r + v
  match (s.stream n).frame with
  | none => s
  | some f =>
    let empty := (s.stream n).slabLines ≠ 0 ∧ f.lines = [] ∧ f.count ≠ 0
    let s1 := s.modStream n fun v => { v with frame := none }
    let s2 := if empty then s1.lastSlab n f else s1.frameItem n f flags true
    s2.embTest r v f

/-- Frame start on a slot: a frame without its end is committed truncated. -/
def State.csiStart (s : State) (r v : Nat) : State :=
  let n := 4 * r + v
  let s1 := if (s.stream n).frame.isSome then
      ((s.frameEnd r v 4).satInc (F.CSI_ERR_truncated r)).raise (pgCSI r) Ev.CSI_truncated
    else s
  s1.modStream n fun v => { v with frame := some {}, done := [] }

/-- Pixels of a line as R211 stores it (R210). User-defined data are bytes without pixels. -/
def linePixels (dt len : Nat) : Nat :=
  match dt with
  | 0x2B | 0x2C | 0x2D | 0x2E | 0x1E => len / 2
  | 0x2F => len / 4
  | 0x2A => len
  | _ => 0

/-- A long packet on a slot: an embedded-data line, or an image line of the slot's data type. Lines beyond the limits of R210 are
discarded (assumption 24). -/
def State.csiLine (s : State) (r v dt : Nat) (crcOk : Bool) (payload : List Byte) : State :=
  let n := 4 * r + v
  let st := s.stream n
  match st.frame with
  | none => s
  | some f =>
    if dt = 0x12 then
      let s1 := s.setStream n { st with frame := some { f with
        emb := if f.emb.length < 16 then f.emb ++ [payload] else f.emb
        damaged := f.damaged || !crcOk } }
      if f.emb.length = st.tsLine then s1.stampWaiting n payload else s1
    else
      let px := unpackLine dt payload
      if dt ≠ st.dataType ∨ 8192 ≤ f.count ∨ 8192 < linePixels dt px.length then s
      else
        let f1 := { f with
          lines := f.lines ++ [if crcOk then px else List.replicate px.length 0#8]
          count := f.count + 1
          damaged := f.damaged || !crcOk }
        if st.slabLines ≠ 0 ∧ st.slabLines ≤ f1.lines.length then
          (s.setStream n { st with frame := some { f1 with
            lines := []
            items := f1.items ++ [st.seq] } }).frameItem n f1 0 false
        else s.setStream n { st with frame := some f1 }

/-- The frames of slots marked damaged. -/
def State.csiDamage (s : State) (r : Nat) (slots : List Nat) : State :=
  slots.foldl (fun s v => s.modStream (4 * r + v) fun st => { st with
    frame := st.frame.map fun f => { f with damaged := true } }) s

/-- CSI_PACKET (R210 to R212, R218). -/
def execCsiPacket (r : Fin 24) (p : CsiPacket) (s : State) : Result :=
  let k := r.val
  .next (if !s.flag F.ING_CTRL_enable || !s.flag (F.CSI_CTRL_enable k) then s
    else
      let slots := s.csiSlots k p.vc.toNat
      if p.ecc = .two then
        ((s.satInc (F.CSI_ERR_hdr_uncorr k)).raise (pgCSI k) Ev.CSI_header_uncorrectable).csiDamage k slots
      else
        let s1 := if p.ecc = .one then s.satInc (F.CSI_ERR_hdr_corrected k) else s
        match p.kind with
        | .lineSync => s1
        | .frameStart => slots.foldl (fun s v => s.csiStart k v) s1
        | .frameEnd => slots.foldl (fun s v => s.frameEnd k v 0) s1
        | .long dt ok data =>
          let mine := slots.filter fun v => dt.toNat == 0x12 || dt.toNat == (s1.stream (4 * k + v)).dataType
          let s2 := if ok ∨ mine = [] then s1 else (s1.satInc (F.CSI_ERR_crc k)).raise (pgCSI k) Ev.CSI_crc_error
          mine.foldl (fun s v => s.csiLine k v dt.toNat ok data) s2)

/-- CSI_LINK_CHANGE (R210, R227): the receiver's PHY state changes. Deskew is a part of D-PHY and is accepted where CSI_CTRL.deskew is set;
it stays completed until the receiver is disabled. -/
def execCsiLinkChange (r : Fin 24) (link deskewed : Bool) (s : State) : Result :=
  let k := r.val
  .next (if s.flag (F.CSI_CTRL_enable k) then
      let d := deskewed && !s.flag (F.CSI_CTRL_phy k) && s.flag (F.CSI_CTRL_deskew k)
      let s1 := (s.putB (F.CSI_STATUS_link k) link).putB (F.CSI_STATUS_deskewed k) (d || s.flag (F.CSI_STATUS_deskewed k))
      s1.raiseIf (s.flag (F.CSI_STATUS_link k) != link) (pgCSI k) Ev.CSI_link_change
    else s)

/-! ### Ethernet (R213, R214) -/

/-- The first valid flow that a frame matches. -/
def State.ethFlow (s : State) (m : Nat) (f : EthFrame) : Option Nat :=
  (List.range 4).find? fun k =>
    s.flag (F.ETH_FLOW_valid m k)
      && (!s.flag (F.ETH_FLOW_vlan_en m k) || f.vlan == some (BitVec.ofNat 12 (s.get (F.ETH_FLOW_vlan m k))))
      && f.udpPort == some (BitVec.ofNat 16 (s.get (F.ETH_FLOW_PORT_port m k)))

/-- Bytes of a frame that carries a UDP payload over IPv4, with its FCS: 14 of MAC header, 4 of an 802.1Q tag, 20 and 8 of IP and UDP
headers (assumption 24). -/
def ethBytes (f : EthFrame) : Nat := 14 + (if f.vlan.isSome then 4 else 0) + 28 + f.payload.length + 4

/-- ETH_FRAME (R213, R214): PAUSE and PFC frames, other destinations and frames of more than 9,216 bytes are discarded; a frame with a bad
FCS or without a flow is discarded and counted; the rest is an item of its flow's stream. -/
def execEthFrame (m : Fin 4) (f : EthFrame) (s : State) : Result :=
  let k := m.val
  .next (if !s.flag F.ING_CTRL_enable || !s.flag (F.ETH_CTRL_enable k) then s
    else if !f.fcsOk then (s.satInc (F.ETH_RX_ERR_fcs k)).raise (pgETH k) Ev.ETH_fcs_error
    else if f.pause ∨ 9216 < ethBytes f ∨ (!s.flag (F.ETH_MAC_HI_promisc k) ∧
        f.dst.toNat ≠ s.get (F.ETH_MAC_LO_mac k) + 2 ^ 32 * s.get (F.ETH_MAC_HI_mac k)) then s
    else
      match s.ethFlow k f with
      | none => (s.satInc (F.ETH_RX_ERR_unmatched k)).raise (pgETH k) Ev.ETH_unmatched
      | some j =>
        let n := 96 + 4 * k + j
        if s.streamOn n then s.portItem n f.payload f.payload else s)

/-- ETH_LINK_CHANGE (R213, R227). -/
def execEthLinkChange (m : Fin 4) (blockLock fecLock link : Bool) (s : State) : Result :=
  .next (if s.flag (F.ETH_CTRL_enable m.val) then
      let s1 := ((s.putB (F.ETH_STATUS_block_lock m.val) blockLock).putB (F.ETH_STATUS_fec_lock m.val) fecLock).putB
        (F.ETH_STATUS_link m.val) link
      s1.raiseIf (s.flag (F.ETH_STATUS_link m.val) != link) (pgETH m.val) Ev.ETH_link_change
    else s)

/-! ### Island ports (R215, R232) -/

/-- Number of an island: 0 SIA, 1 SIB. -/
def islNum : Island → Nat
  | .sia => 0
  | .sib => 1

/-- Is an island's Hinge link to the hub down (either direction; die identities 0x5 and 0x6)? -/
def State.islLinkDown (s : State) (i : Nat) : Bool :=
  (tabGet s.links (5 + i) {}).down || (tabGet s.links ((5 + i) * 8) {}).down

/-- An item from an island port: dropped while the island's link is down. -/
def State.islandItem (s : State) (i n : Nat) (place data : List Byte) : State :=
  if !s.flag F.ING_CTRL_enable || !s.streamOn n then s
  else if s.replaying then s.count F.JRN_IGNORED_count 1
  else if s.islLinkDown i then s.dropItem n
  else s.portItem n place data

/-- SPI_FRAME (R215): a frame of 8 to 64 bytes is one item. -/
def execSpiFrame (i : Island) (data : List Byte) (s : State) : Result :=
  .next (if 8 ≤ data.length ∧ data.length ≤ 64 then s.islandItem (islNum i) (112 + islNum i) data data else s)

/-- CAN_FD_FRAME (R215, R232): stored as its identifier word and its data field. -/
def execCanFdFrame (i : Island) (ctl : Fin 2) (f : CanFrame) (s : State) : Result :=
  .next (s.islandItem (islNum i) (114 + 2 * islNum i + ctl.val) f.data
    (leBytes 4 (f.ident.toNat + (if f.extended then 2 ^ 29 else 0)) ++ f.data))

/-! ### The XS path (R217) -/

/-- The items of a stream that the XS die was working on: committed with poison (R34, R217). -/
def State.xsPoison (s : State) (n : Nat) : State :=
  (s.stream n).ready.foldl
    (fun s r =>
      if r.xs then
        match s.placeData n r.data.length with
        | none => s.dropNumbered n r
        | some (o, s1) => s1.modStream n fun v => { v with
            ready := v.ready.map fun x =>
              if x = r then { r with xs := false, off := o, len := r.data.length, flags := r.flags ||| 8 } else x }
      else s) s

/-- What ingress does when the XS slot faults (R217, R225 cause 6). -/
def State.xsLost (s : State) : State :=
  (List.range 118).foldl
    (fun s n =>
      let v := s.stream n
      if s.streamOn n && v.xsRoute then
        let s1 := s.xsPoison n
        if v.xsBypass then s1
        else (((s1.putStreamOn n false).frameDrop n).modStream n fun v => { v with done := [] }).healthZero n
      else s) s

end Sys2Proof.Machine
end

