-- ==== Sys2Proof/Machine/Wards.lean ====
section
/-! DEFINITION. Ward patterns (R219 to R223): ward points, ward jobs on idle and on preempted arrays, their outcomes, budgets. -/

namespace Sys2Proof.Machine

/-- Period of a ward entry in items (R219). -/
def State.wardPeriod (s : State) (e : List Byte) : Nat :=
  if fieldAt e 1 1 = 0 then s.get F.WARD_PERIOD_frames else fieldAt e 1 1

/-- Does a ward entry keep to R219? -/
def wardEntryOk (e : List Byte) : Bool :=
  decide (fieldAt e 0 1 = 1 ∧ fieldAt e 1 1 ≤ 64 ∧ fieldAt e 2 1 < 4 ∧ 1 ≤ fieldAt e 3 1 ∧ 32 ≤ fieldAt e 4 4
    ∧ fieldAt e 4 4 ≤ 65536 ∧ fieldAt e 4 4 % 32 = 0)

/-- Budget of a die in µs (R221). -/
def State.wardBudget (s : State) (d : Nat) : Int := toSigned 16 (s.get (F.WARD_BUDGET_us d))

/-- A ward's outcome: a pass, or a failure or incomplete ward of a stage (R220, R222, R225). -/
def State.wardOutcome (s : State) (n : Nat) (stage : Option Nat) : State :=
  let s1 := s.modStream n fun v => { v with
    deferrals := 0
    lastPass := stage.isNone
    ward := none }
  match stage with
  | none => s1.health n 5 (s.get F.WARD_HEALTH_DELTA_ward_pass)
  | some k =>
    ((((s1.put F.WARD_STATUS_last_stream n).put F.WARD_STATUS_last_stage k).count F.WARD_FAIL_COUNT_count 1).raise
      pgWARD Ev.WARD_ward_fail).health n 1 (-(s.get F.WARD_HEALTH_DELTA_ward_fail : Int))

/-- WARD_POINT (R220 steps 1 to 3; not in replay, R328): after an item whose number is a multiple of the period the tile takes
the stream's path, a camera tile as one image line, and lies in the ward buffer; a poisoned tile, or one whose digest is not the golden
one, fails the ward. The digest of a tile that the XS die returns is not stated (assumption 25). -/
def execWardPoint (n : Fin 128) (s : State) : Result :=
  let k := n.val
  let v := s.stream k
  .next (if !s.flag F.WARD_CTRL_enable ∨ !s.streamOn k ∨ !v.warded ∨ s.replaying ∨ v.ward.isSome ∨ v.frame.isSome then s
    else
      let r := s.load (s.addr F.WARD_TABLE_BASE_LO_base + 64 * k) 64
      let e := r.2.1
      if !wardEntryOk e ∨ !v.done.any (fun q => decide (q % s.wardPeriod e = 0)) then r.1
      else
        let bypass := v.xsRoute && s.xsFaulted
        let t := r.1.load (fieldAt e 0x10 8) (fieldAt e 4 4)
        let tile := if k < 96 then padTo 32 (unpackLine v.dataType t.2.1) else t.2.1
        let s1 := t.1.setStream k { v with
          done := []
          ward := some { entry := e, bypass := bypass, tile := tile } }
        let own := (digest64 tile).toNat
        let got := if v.xsRoute && !bypass then s1.fresh else (own, s1)
        if r.2.2 ∨ t.2.2 then got.2.wardOutcome k (some 3)
        else if got.1 % 2 ^ 64 = fieldAt e (if bypass then 0x28 else 0x18) 8 then got.2
        else got.2.wardOutcome k (some 1))

/-- Is a slot given to an array that has not started there? -/
def State.arrGiven (s : State) (n : Nat) : Bool :=
  s.jobs.any fun j => j.slots.any fun k => decide (k.phase = 1 ∧ 24 * k.die + k.logical = n)

/-- Is an array idle: no slot runs on it, none is given to it, what it ran has drained? -/
def State.arrIdle (s : State) (n : Nat) : Bool :=
  (s.get (F.ARR_STATE_state n) == 0 || (s.get (F.ARR_STATE_state n) == 4 && (s.arr n).suspect))
    && !s.flag (F.ARR_JOB_QUEUE_valid n) && !(s.arr n).ending && !s.arrGiven n

/-- Is array `n` (24 × die + logical) idle and in service (R221)? An array in a sluice window is not idle. -/
def State.wardIdle (s : State) (n : Nat) : Bool :=
  s.powered && s.arrInService (n / 24) (n % 24) && s.get (F.ARR_STATE_state n) == 0 && s.arrIdle n

/-- The arrays of a die. -/
def State.dieArrays (s : State) (d : Nat) : List Nat := (List.range s.fuse.perDie).map fun a => 24 * d + a

/-- The job of a ward: one Exact-mode slot on array `n`, named by its stream and the count of ward jobs (R220). Its queue ID
is an ingress queue, so it is no job of the queue engine. -/
def wardJob (k index n : Nat) (e header : List Byte) : Job where
  queue := k
  index := index
  desc := leBytes 1 1 ++ leBytes 1 9
  stage := .placed
  program := fieldAt e 8 8
  header := header
  exact := true
  slots := [{ phase := 1, die := n / 24, logical := n % 24 }]

/-- Line-buffer bytes and words 0x7000 to 0x7FFF (R222 step 2). -/
def wardLb (c : Host.Cell) : Bool := decide (0x7000 * 32 ≤ c.1 ∧ c.1 < 0x8000 * 32)
def wardWord (w : Nat) : Bool := decide (0x7000 ≤ w ∧ w < 0x8000)

/-- The ward buffer as the ward program finds it: from line-buffer word 0x7000 of its array on, the words that a preemption leaves it
(assumption 25). -/
def ArrSt.putTile (a : ArrSt) (tile : List Byte) : ArrSt :=
  { a with
    lb := cellWrite a.lb (0x7000 * 32) tile
    lbCond := a.lbCond.filter fun c => decide (¬(0x7000 ≤ c.1 ∧ c.1 < 0x7000 + (tile.length + 31) / 32)) }

/-- A ward put on array `n`, which is free for it; an image that cannot run faults the ward job. -/
def State.wardStart (s : State) (k n : Nat) (w : WardRun) : State :=
  let h := s.load (fieldAt w.entry 8 8) 128
  let ok := h.1.imageOk h.2.1 false && fieldAt h.2.1 0x10 2 == 1 && !h.2.2
  let j := wardJob k s.wardRuns n w.entry h.2.1
  let j1 := if ok then j else { j.report 4 0 0 with slots := [{ phase := 3 }] }
  ({ h.1 with
    jobs := h.1.jobs ++ [j1]
    wardRuns := s.wardRuns + 1 }.modArr n fun a => a.putTile w.tile).modStream k fun v => { v with ward := some { w with running := true } }

/-- A ward deferred to the next ward point (R221). -/
def State.wardDefer (s : State) (k : Nat) : State :=
  (s.modStream k fun v => { v with
    deferrals := v.deferrals + 1
    ward := none }).raise pgWARD Ev.WARD_deferral

/-- WARD_RUN (R221, R222): the ward goes to array `a` of its die when that one is idle and the budget holds its cost; with no
idle array or a short budget it is deferred, but not at a deferral count of 3. -/
def execWardRun (n : Fin 128) (a : Fin 24) (s : State) : Result :=
  let k := n.val
  let v := s.stream k
  .next (match v.ward with
    | none => s
    | some w =>
      if w.running then s
      else
        let d := fieldAt w.entry 2 1
        let idle := (s.dieArrays d).filter s.wardIdle
        let paid := decide ((fieldAt w.entry 3 1 : Int) ≤ s.wardBudget d)
        if v.deferrals < 3 then
          if idle = [] ∨ !paid then s.wardDefer k
          else if idle.contains (24 * d + a.val) then s.wardStart k (24 * d + a.val) w
          else s
        else if idle.contains (24 * d + a.val) then s.wardStart k (24 * d + a.val) w
        else s)

/-- Arrays of a die that a preemption may take: in service and running a job (R222). -/
def State.preemptable (s : State) (n : Nat) : Bool :=
  s.arrInService (n / 24) (n % 24) && s.get (F.ARR_STATE_state n) == 1 && (s.arrJob n).isSome

/-- Is the job on an array safety-relevant? -/
def State.arrSafety (s : State) (n : Nat) : Bool :=
  match s.arrJob n with
  | some j => j.safety
  | none => false

/-- The array that a preemption takes: the lowest-numbered whose job is not safety-relevant, else the lowest-numbered. -/
def State.victim (s : State) (d : Nat) : Option Nat :=
  let c := (s.dieArrays d).filter s.preemptable
  match c.find? fun n => !s.arrSafety n with
  | some n => some n
  | none => c.head?

/-- The save area of a die, 128 KiB of its pool below the reduction buffer; where it lies is not stated (R222; assumption 26). -/
def wardArea (d : Nat) : Nat := poolBase d + 32 * (Config.wardSave d % 0x1EF000)

/-- Line-buffer words 0x7000 to 0x7FFF of an array written to its die's save area (R222 step 2). -/
def State.wardSaveLb (s : State) (n : Nat) : State :=
  let a := s.arr n
  let b := wardArea (n / 24)
  let s1 := s.zero b 131072
  { s1 with
    mem := (a.lb.filter wardLb).foldl (fun m c => cellSet m (b + (c.1 - 0x7000 * 32)) c.2) s1.mem
    cond := (a.lbCond.filter fun c => wardWord c.1).foldl (fun t c => tabSet t (b / 32 + (c.1 - 0x7000)) c.2) s1.cond }

/-- Those words read back from the save area, errors corrected or poisoned (R222 step 4). -/
def State.wardLoadLb (s : State) (n : Nat) : State :=
  let b := wardArea (n / 24)
  let here := s.mem.filter fun c => decide (b ≤ c.1 ∧ c.1 < b + 131072)
  let conds := s.cond.filter fun c => decide (b / 32 ≤ c.1 ∧ c.1 < b / 32 + 4096)
  (conds.foldl (fun s c => s.logRead c.1) s).modArr n fun a => { a with
    lb := ((a.lb.filter fun c => decide (c.1 < 0x7000 * 32)) ++ here.map fun c => (c.1 - b + 0x7000 * 32, c.2))
      ++ a.lb.filter fun c => decide (0x8000 * 32 ≤ c.1)
    lbCond := (a.lbCond.filter fun c => !wardWord c.1)
      ++ (conds.filter fun c => c.2.bad).map fun c => (c.1 - b / 32 + 0x7000, .poison) }

/-- Offsets of an array's page that name its job, its pc and its state. -/
def savedOffsets : List Nat := [0x020, 0x028, 0x02C, 0x030, 0x040]

/-- PREEMPT (R222): at the victim's next instruction boundary it halts, is saved and takes the ward program. The boundary is
one with no instruction in flight (assumption 26). -/
def execPreempt (n : Fin 128) (s : State) : Result :=
  let k := n.val
  let v := s.stream k
  .next (match v.ward with
    | none => s
    | some w =>
      let d := fieldAt w.entry 2 1
      if w.running ∨ v.deferrals < 3 ∨ (s.dieArrays d).any s.wardIdle then s
      else
        match s.victim d with
        | none => s
        | some m =>
          let a := s.arr m
          if a.flights ≠ [] ∨ !a.atBoundary ∨ a.loading ∨ a.ending then s
          else
            let saved : SavedArr := ⟨m, { a with lb := [], lbCond := [] }, savedOffsets.map fun o => (o, s.regWord (pgARR m) o)⟩
            let s1 := (((s.haltArr m).wardSaveLb m).count F.WARD_PREEMPT_COUNT_count 1).raise pgWARD Ev.WARD_preempt
            let s2 := (s1.put (F.ARR_STATE_state m) 0).put (F.ARR_JOB_QUEUE_valid m) 0
            s2.wardStart k m { w with saved := some saved })

/-- The preempted array back as it was: its sequencer state, its line-buffer words 0x7000 to 0x7FFF from the save area, its program loaded
under R117; its job resumes. A stop asked of it meanwhile stands. -/
def State.wardRestore (s : State) (v : SavedArr) : State :=
  let now := s.arr v.arr
  let s1 := s.setArr v.arr { v.st with
    lb := now.lb
    lbCond := now.lbCond
    progAddr := now.progAddr
    progDig := now.progDig
    words := now.words
    inject := now.inject
    nextId := max now.nextId v.st.nextId
    stop := match now.stop with
      | some c => some c
      | none => v.st.stop }
  let s2 := v.words.foldl (fun s p => s.putWord (pgARR v.arr) p.1 p.2) (s1.wardLoadLb v.arr)
  match s2.arrJob v.arr with
  | some j => if s2.holdsProgram v.arr j then s2 else s2.programIn v.arr j
  | none => s2

/-- The preempted array restored, if the ward took one. -/
def State.wardGiveBack (s : State) (w : WardRun) : State :=
  match w.saved with
  | some v => s.wardRestore v
  | none => s

/-- The ward job of stream `k`. -/
def State.wardJobOf (s : State) (k : Nat) : Option Job := s.jobs.find? fun j => decide (j.queue = k)

/-- A ward job gone: its record leaves the table. -/
def State.wardGone (s : State) (j : Job) : State :=
  { s.redRelease j with
    jobs := (s.redRelease j).jobs.filter fun x => !x.is j.queue j.index
    transit := s.transit.filter fun p => decide (¬(p.queue = j.queue ∧ p.index = j.index)) }

/-- A ward's duration charged to its die's budget (R221, R222). -/
def State.wardCharge (s : State) (d us : Nat) : State :=
  s.put (F.WARD_BUDGET_us d) (ofInt 16 (max (-180) (s.wardBudget d - us)))

/-- WARD_JOB_DONE (R220 to R222): the ward's job has ended after `us` microseconds; its digest is judged, a preempted array
restored. -/
def execWardJobDone (n : Fin 128) (us : Nat) (s : State) : Result :=
  let k := n.val
  .next (match (s.stream k).ward, s.wardJobOf k with
    | some w, some j =>
      if !w.running ∨ !j.slots.all (fun t => decide (t.phase = 3)) then s
      else
        let s1 := ((s.wardGone j).wardGiveBack w).wardCharge (fieldAt w.entry 2 1) us
        if j.outcome.1 ≠ 0 then s1.wardOutcome k (some 3)
        else if j.digest.toNat = fieldAt w.entry (if w.bypass then 0x30 else 0x20) 8 then s1.wardOutcome k none
        else s1.wardOutcome k (some 2)
    | _, _ => s)

/-- OVERRUN (R222): a preemption has lasted WARD_PREEMPT_MAX; the ward program is abandoned and the ward is incomplete. -/
def execOverrun (n : Fin 128) (s : State) : Result :=
  let k := n.val
  .next (match (s.stream k).ward, s.wardJobOf k with
    | some w, some j =>
      if !w.running ∨ w.saved.isNone then s
      else
        let s1 := ((s.wardGone j).wardGiveBack w).wardCharge (fieldAt w.entry 2 1) (s.get F.WARD_PREEMPT_MAX_us)
        (s1.raise pgWARD Ev.WARD_overrun).wardOutcome k (some 3)
    | _, _ => s)

/-- WARD_BUDGET_REFILL (R221): 20 µs each ms, at most 180 µs. -/
def execWardBudgetRefill (d : Fin 4) (s : State) : Result :=
  .next (if s.hubOff then s else s.put (F.WARD_BUDGET_us d.val) (ofInt 16 (min 180 (s.wardBudget d.val + 20))))

end Sys2Proof.Machine
end

