-- ==== Sys2Proof/Machine/Ego.lean ====
section
/-! DEFINITION. FP32 vectors and quaternions, the ego-motion engine and its pose stream (R229 to R237). -/

namespace Sys2Proof.Machine

/-! ### FP32 in the order written (R99, R233) -/

/-- FP32 operations on bit patterns, results without their flags. -/
def fAdd (a b : Nat) : Nat := (f32add a b).val
def fSub (a b : Nat) : Nat := (f32sub a b).val
def fMul (a b : Nat) : Nat := (f32mul a b).val
def fDiv (a b : Nat) : Nat := (f32div a b).val
def fSqrt (a : Nat) : Nat := (f32sqrt a).val
/-- A value with its sign bit inverted. -/
def fNeg (a : Nat) : Nat := a ^^^ 0x80000000

/-- Constants as FP32 patterns. -/
def fOne : Nat := 0x3F800000
def fTwo : Nat := 0x40000000
def fHalf : Nat := 0x3F000000
def fNano : Nat := 0x3089705F
def fGravity : Nat := 0x411CE80A
/-- 2^20 and 2^-20. -/
def fUnits : Nat := 0x49800000
def fUnit : Nat := 0x35800000

def V3.add (a b : V3) : V3 := ⟨fAdd a.x b.x, fAdd a.y b.y, fAdd a.z b.z⟩
def V3.sub (a b : V3) : V3 := ⟨fSub a.x b.x, fSub a.y b.y, fSub a.z b.z⟩
def V3.scale (a : V3) (k : Nat) : V3 := ⟨fMul a.x k, fMul a.y k, fMul a.z k⟩

/-- A cross product: two rounded products and one subtraction a component (R233). -/
def V3.cross (a b : V3) : V3 :=
  ⟨fSub (fMul a.y b.z) (fMul a.z b.y), fSub (fMul a.z b.x) (fMul a.x b.z), fSub (fMul a.x b.y) (fMul a.y b.x)⟩

/-- qmul (R233): each component a left-to-right sum of four rounded products in the order w, x, y, z of the first operand. -/
def qmul (a b : Q4) : Q4 where
  w := fSub (fSub (fSub (fMul a.w b.w) (fMul a.x b.x)) (fMul a.y b.y)) (fMul a.z b.z)
  x := fSub (fAdd (fAdd (fMul a.w b.x) (fMul a.x b.w)) (fMul a.y b.z)) (fMul a.z b.y)
  y := fAdd (fAdd (fSub (fMul a.w b.y) (fMul a.x b.z)) (fMul a.y b.w)) (fMul a.z b.x)
  z := fAdd (fSub (fAdd (fMul a.w b.z) (fMul a.x b.y)) (fMul a.y b.x)) (fMul a.z b.w)

/-- dot, summed w, x, y, z in order. -/
def qdot (a b : Q4) : Nat := fAdd (fAdd (fAdd (fMul a.w b.w) (fMul a.x b.x)) (fMul a.y b.y)) (fMul a.z b.z)

/-- q / sqrt(dot(q, q)). -/
def qnorm (q : Q4) : Q4 :=
  let n := fSqrt (qdot q q)
  ⟨fDiv q.w n, fDiv q.x n, fDiv q.y n, fDiv q.z n⟩

/-- The conjugate. -/
def qconj (q : Q4) : Q4 := ⟨q.w, fNeg q.x, fNeg q.y, fNeg q.z⟩

/-- rotate(q, a) (R233). -/
def rotate (q : Q4) (a : V3) : V3 :=
  let u : V3 := ⟨q.x, q.y, q.z⟩
  let s := (u.cross a).scale fTwo
  (a.add (s.scale q.w)).add (u.cross s)

/-- round_ne to a signed 64-bit integer; a value that has none is not stated. -/
def roundNe (open' : Nat) (x : Nat) : Int :=
  match (f32v x).toInt with
  | some i => if -(2 ^ 63) ≤ i ∧ i < 2 ^ 63 then i else toSigned 64 open'
  | none => toSigned 64 open'

/-- A position in units of 2^-20 m moved by FP32 metres times 2^20, per axis; a sum beyond 64 bits is not stated. -/
def movePos (open' : Nat) (p : List Int) (v : V3) : List Int :=
  (p.zip [v.x, v.y, v.z]).map fun e =>
    let r := e.1 + roundNe open' e.2
    if -(2 ^ 63) ≤ r ∧ r < 2 ^ 63 then r else toSigned 64 open'

/-- A time difference in ns as FP32 seconds. -/
def fSeconds (dt : Int) : Nat := fMul (f32ofInt dt) fNano

/-! ### Pose records (R236) -/

/-- The bytes of a pose's position, attitude and velocity. -/
def poseBytes (p : Pose) : List Byte :=
  p.p.flatMap (fun i => leBytes 8 (ofInt 64 i)) ++ leBytes 4 p.q.w ++ leBytes 4 p.q.x ++ leBytes 4 p.q.y ++ leBytes 4 p.q.z
    ++ leBytes 4 p.v.x ++ leBytes 4 p.v.y ++ leBytes 4 p.v.z

/-- The pose that a record holds. -/
def poseOf (b : List Byte) : Pose where
  p := [0, 1, 2].map fun k => toSigned 64 (fieldAt b (0x10 + 8 * k) 8)
  q := ⟨fieldAt b 0x28 4, fieldAt b 0x2C 4, fieldAt b 0x30 4, fieldAt b 0x34 4⟩
  v := ⟨fieldAt b 0x38 4, fieldAt b 0x3C 4, fieldAt b 0x40 4⟩

/-- Address of pose `n` in the ring. -/
def State.poseAddr (s : State) (n : Nat) : Nat := s.addr F.EGO_RING_BASE_LO_base + 128 * (n % 16384)

/-- A pose record written, and the pose counted. -/
def State.writePose (s : State) (gap : Bool) (t pos : Nat) (w : V3) : State :=
  let n := s.get F.EGO_POSE_COUNT_count
  let flags := (if gap then 1 else 0) + (if s.ego.wheel then 2 else 0) + 4 * s.get F.EGO_STATUS_src
  let b := leBytes 4 n ++ leBytes 4 flags ++ leBytes 8 t ++ poseBytes s.ego.pose
    ++ leBytes 4 w.x ++ leBytes 4 w.y ++ leBytes 4 w.z ++ leBytes 8 pos ++ leBytes 40 0
  let s1 := (s.store (s.poseAddr n) b).count F.EGO_POSE_COUNT_count 1
  { s1 with ego := { s1.ego with wheel := false } }

/-! ### Events (R230 to R235) -/

/-- The items that the engine takes next, with the BIAS commands before them applied (R230). -/
def State.egoBiases (s : State) : State :=
  match s.egoIn with
  | i :: t =>
    if i.stream = 255 then
      { s with
        egoIn := t
        ego := { s.ego with biases := (List.range 6).map fun k => fieldAt i.data (4 * k) 4 } }
    else s
  | [] => s

/-- Every leading BIAS command applied. -/
def State.egoReady (s : State) : State := s.egoIn.foldl (fun s _ => s.egoBiases) s

/-- Score of a stream as of the last health record at or before a position, 192 if there is none (R231, R255). -/
def StreamSt.scoreAt (v : StreamSt) (pos : Nat) : Nat :=
  match (v.hist.filter fun h => decide (h.1 ≤ pos)).getLast? with
  | some h => h.2
  | none => 192

/-- The source stream at an item: the enabled one with the higher score, ties to 112 (R231). -/
def State.egoSource (s : State) (pos own : Nat) : Nat :=
  match s.streamOn 112, s.streamOn 113 with
  | true, true => if (s.stream 112).scoreAt pos < (s.stream 113).scoreAt pos then 113 else 112
  | true, false => 112
  | false, true => 113
  | false, false => own

/-- A raw axis of an inertial item (EGO_IMU_LAYOUT). -/
def State.imuRaw (s : State) (data : List Byte) (off k : Nat) : Int :=
  let n := if s.flag F.EGO_IMU_LAYOUT_wide then 4 else 2
  let b := bytesAt data (off + n * k) n
  toSigned (8 * n) (if s.flag F.EGO_IMU_LAYOUT_big then beNat b else leNat b)

/-- raw × scale − bias along three axes. -/
def State.imuAxes (s : State) (data : List Byte) (off scale bias : Nat) : V3 :=
  let f := fun k => fSub (fMul (f32ofInt (s.imuRaw data off k)) scale) (s.ego.biases.getD (bias + k) 0)
  ⟨f 0, f 1, f 2⟩

/-- Is an inertial item long enough for its layout? -/
def State.imuFits (s : State) (data : List Byte) : Bool :=
  let n := if s.flag F.EGO_IMU_LAYOUT_wide then 12 else 6
  decide (s.get F.EGO_IMU_LAYOUT_gyro_off + n ≤ data.length ∧ s.get F.EGO_IMU_LAYOUT_acc_off + n ≤ data.length)

/-- The pose after an inertial item (R233). -/
def integrate (open' : Nat) (e : Pose) (dtNs : Int) (w a : V3) : Pose :=
  let dt := fSeconds dtNs
  let h := w.scale (fMul dt fHalf)
  let q := qnorm (qmul e.q ⟨fOne, h.x, h.y, h.z⟩)
  let r := rotate q a
  let g : V3 := ⟨r.x, r.y, fSub r.z fGravity⟩
  let v := e.v.add (g.scale dt)
  ⟨movePos open' e.p ((v.scale dt).scale fUnits), q, v⟩

/-- An accepted inertial item (R233, R235). -/
def State.egoAccept (s : State) (i : EgoItem) : State :=
  let w := s.imuAxes i.data (s.get F.EGO_IMU_LAYOUT_gyro_off) (s.get F.EGO_GYRO_SCALE_value) 0
  let a := s.imuAxes i.data (s.get F.EGO_IMU_LAYOUT_acc_off) (s.get F.EGO_ACC_SCALE_value) 3
  if !s.ego.some1 then
    { s with ego := { s.ego with
        pose := {}
        some1 := true
        tPrev := i.ts } }.put F.EGO_STATUS_state 2 |>.writePose false i.ts i.pos w
  else
    let dt : Int := (i.ts : Int) - s.ego.tPrev
    if (1000 * s.get F.EGO_LIMITS_max_dt_us : Int) < dt then
      (({ s with ego := { s.ego with tPrev := i.ts } }.satInc F.EGO_SKIPPED_gaps).raise pgEGO Ev.EGO_gap).writePose
        true i.ts i.pos w
    else
      { s with ego := { s.ego with
          pose := integrate (Config.freeOf (233 :: i.stream :: i.seq :: i.ts :: s.ego.tPrev :: i.data.map fun (b : Byte) => b.toNat)) s.ego.pose dt w a
          tPrev := i.ts } }.writePose false i.ts i.pos w

/-- INERTIAL_ITEM (R231, R233, R235): the next event is an inertial item; it is ignored, rejected, or integrated. -/
def execInertialItem (s : State) : Result :=
  let s0 := s.egoReady
  .next (match s0.egoIn with
    | [] => s0
    | i :: t =>
      if i.stream ≠ 112 ∧ i.stream ≠ 113 then s0
      else
        let s1 := { s0 with egoIn := t }
        let src := s1.egoSource i.pos i.stream
        let changed := src - 112 ≠ s1.get F.EGO_STATUS_src
        let s2 := s1.put F.EGO_STATUS_src (src - 112)
        let s3 := s2.raiseIf (changed && s.ego.some1) pgEGO Ev.EGO_src_switch
        if i.stream ≠ src then s3
        else if i.flags % 16 ≠ 0 ∨ !s3.imuFits i.data ∨ (s3.ego.some1 ∧ i.ts ≤ s3.ego.tPrev) then
          (s3.satInc F.EGO_SKIPPED_ts_bad).raise pgEGO Ev.EGO_ts_bad
        else s3.egoAccept i)

/-- Speed `k` of a wheel item (R232). -/
def State.wheelSpeed (s : State) (data : List Byte) (k : Nat) : Nat :=
  fMul (f32ofInt (toSigned 16 (fieldAt data (s.get F.EGO_WHEEL_SRC_offset + 2 * k) 2))) (s.get F.EGO_WHEEL_SCALE_value)

/-- The velocity after a wheel item (R234). -/
def State.wheelUpdate (s : State) (data : List Byte) : V3 :=
  let k := s.wheelSpeed data
  let vw := fMul (fAdd (fAdd (fAdd (k 0) (k 1)) (k 2)) (k 3)) 0x3E800000
  let q := s.ego.pose.q
  let b := rotate (qconj q) s.ego.pose.v
  rotate q ⟨fAdd b.x (fMul (s.get F.EGO_WHEEL_GAIN_value) (fSub vw b.x)), b.y, b.z⟩

/-- WHEEL_ITEM (R234): the velocity is updated; no pose record is written. A wheel item before the first inertial item finds
no velocity to update. -/
def execWheelItem (s : State) : Result :=
  let s0 := s.egoReady
  .next (match s0.egoIn with
    | [] => s0
    | i :: t =>
      if i.stream = 112 ∨ i.stream = 113 ∨ i.stream = 255 then s0
      else if !s0.ego.some1 then { s0 with egoIn := t }
      else
        { s0 with
          egoIn := t
          ego := { s0.ego with
            pose := { s0.ego.pose with v := s0.wheelUpdate i.data }
            wheel := true } })

/-- EGO_ENABLE (R229, R236): setting the bit restarts pose numbering and awaits the first item with the biases of EGO_BIAS;
clearing it stops the engine. -/
def execEgoEnable (acc : Acc) (s : State) : Result :=
  .next (s.command pgEGO 0x020 acc fun s w =>
    if w.getLsbD 0 then
      if s.flag F.EGO_CTRL_enable then s
      else
        { (((s.put F.EGO_CTRL_enable 1).put F.EGO_STATUS_state 1).put F.EGO_POSE_COUNT_count 0) with
          ego := { biases := (List.range 6).map fun k => s.get (F.EGO_BIAS_value k) }
          egoIn := [] }
    else
      { ((s.put F.EGO_CTRL_enable 0).put F.EGO_STATUS_state 0) with
        ego := {}
        egoIn := [] })

/-! ### The pose at a time (R237) -/

/-- The record of pose `n`, and whether any word of it reads poisoned. -/
def State.poseRec (s : State) (n : Nat) : List Byte × Bool := s.peek (s.poseAddr n) 128

/-- Interpolation between two poses. -/
def interpolate (open' : Nat) (t ta tb : Nat) (a b : Pose) : Pose :=
  let f := fDiv (f32ofInt ((t : Int) - ta)) (f32ofInt ((tb : Int) - ta))
  let d := (a.p.zip b.p).map fun e => fMul f (f32ofInt (e.2 - e.1))
  let s := if f32le 0 (qdot a.q b.q) then fOne else fNeg fOne
  let mix := fun (x y : Nat) => fAdd x (fMul f (fSub (fMul s y) x))
  { p := movePos open' a.p ⟨d.getD 0 0, d.getD 1 0, d.getD 2 0⟩
    q := qnorm ⟨mix a.q.w b.q.w, mix a.q.x b.q.x, mix a.q.y b.q.y, mix a.q.z b.q.z⟩
    v := a.v }

/-- Search of two consecutive poses around `t`, from pose `a` downward; `lo` is the oldest pose in the ring. -/
def State.poseBetween (s : State) (open' t lo : Nat) : Nat → Nat → Option Pose
  | 0, _ => none
  | fuel + 1, a =>
    if a < lo then none
    else
      let ra := s.poseRec a
      let rb := s.poseRec (a + 1)
      let ta := fieldAt ra.1 8 8
      let tb := fieldAt rb.1 8 8
      if ta ≤ t ∧ t ≤ tb ∧ !(rb.1.getD 4 0#8).getLsbD 0 ∧ !ra.2 ∧ !rb.2 then
        some (interpolate open' t ta tb (poseOf ra.1) (poseOf rb.1))
      else if a = 0 ∨ ta < t then none
      else s.poseBetween open' t lo fuel (a - 1)

/-- The pose at time `t` with poses up to `limit` (R237); none: unposed. -/
def State.poseAt (s : State) (open' t limit : Nat) : Option Pose :=
  let count := s.get F.EGO_POSE_COUNT_count
  if s.get F.EGO_STATUS_state ≠ 2 ∨ count = 0 then none
  else
    let n := min limit (count - 1)
    let lo := count - 16384
    if n < lo then none
    else
      let r := s.poseRec n
      let tn := fieldAt r.1 8 8
      let p := poseOf r.1
      match (if n = 0 then none else s.poseBetween open' t lo 16384 (n - 1)) with
      | some q => some q
      | none =>
        if tn ≤ t ∧ t - tn ≤ 1000 * s.get F.EGO_LIMITS_extrap_us ∧ !r.2 then
          some { p with p := movePos open' p.p ((p.v.scale (fSeconds (t - tn : Nat))).scale fUnits) }
        else none

/-- The highest pose whose item lies at or below a fence position, none when there is none. -/
def State.poseUpTo (s : State) (pos : Nat) : Option Nat :=
  let count := s.get F.EGO_POSE_COUNT_count
  ((List.range (min count 16384)).map fun k => count - 1 - k).find? fun n => decide (fieldAt (s.poseRec n).1 0x50 8 ≤ pos)

/-- A point moved from the ego frame at pose `a` to the ego frame at pose `b` (R243). -/
def movePoint (a b : Pose) (x : V3) : V3 :=
  let d := (a.p.zip b.p).map fun e => fMul (f32ofInt (e.1 - e.2)) fUnit
  rotate (qconj b.q) ((rotate a.q x).add ⟨d.getD 0 0, d.getD 1 0, d.getD 2 0⟩)

end Sys2Proof.Machine
end

