-- ==== Sys2Proof/Machine/Proj.lean ====
section
/-! DEFINITION. The projection engine: calibration, deltas, the commands of its lists (R238 to R247). -/

namespace Sys2Proof.Machine

/-! ### Calibration (R238, R239, R246) -/

/-- Word `k` of calibration entry `e`. -/
def State.calWord (s : State) (e k : Nat) : Nat := (tabGet s.proj.cal (32 * e + k) 0#32).toNat

/-- Model of an entry. -/
def State.calModel (s : State) (e : Nat) : Nat := s.calWord e 0 % 16

/-- Is an FP32 value in [lo, hi]? -/
def fWithin (lo hi x : Nat) : Bool := f32le lo x && f32le x hi

/-- Rotation and translation words of an entry. -/
def State.calRot (s : State) (e : Nat) : Q4 := ⟨s.calWord e 1, s.calWord e 2, s.calWord e 3, s.calWord e 4⟩
def State.calTrans (s : State) (e : Nat) : V3 := ⟨s.calWord e 5, s.calWord e 6, s.calWord e 7⟩

/-- Does an entry keep to R238 and R239 (or is it not in use)? -/
def State.calOk (s : State) (e : Nat) : Bool :=
  let m := s.calModel e
  let w0 := s.calWord e 0
  let cam := m == 1 || m == 2
  m == 0 || (decide (m ≤ 3) && w0 / 16 % 16 == 0 && w0 / 32768 == 0
    && fWithin 0x3F7FBE77 0x3F8020C5 (fSqrt (qdot (s.calRot e) (s.calRot e)))
    && (!cam || (f32lt 0 (s.calWord e 8) && f32lt 0 (s.calWord e 9) && s.calWord e 18 % 65536 != 0 && s.calWord e 18 / 65536 != 0))
    && (m != 2 || fWithin 0 0x3FD9999A (s.calWord e 19))
    && (List.range 12).all fun k => s.calWord e (20 + k) == 0)

/-- PROJ_ENABLE (R239): setting the bit checks every entry; the first that breaks R239 is reported and refuses the enable. -/
def execProjEnable (acc : Acc) (s : State) : Result :=
  .next (s.command pgPROJ 0x020 acc fun s w =>
    if w.getLsbD 0 then
      if s.flag F.PROJ_CTRL_enable then s
      else
        match (List.range 64).find? fun e => !s.calOk e with
        | some e => ((s.put F.PROJ_STATUS_cal_err 1).put F.PROJ_STATUS_cal_entry e).raise pgPROJ Ev.PROJ_cal_err
        | none => (s.put F.PROJ_CTRL_enable 1).put F.PROJ_STATUS_state 1
    else (s.put F.PROJ_CTRL_enable 0).put F.PROJ_STATUS_state 0)

/-- An entry as a command uses it: rotation, translation, and fx and fy, with its delta (R246). -/
structure CalEff where
  rot   : Q4
  trans : V3
  fx    : Nat
  fy    : Nat

/-- The entry with its delta, or as it is when it has none. -/
def State.calEff (s : State) (e : Nat) : CalEff :=
  let q := s.calRot e
  let t := s.calTrans e
  match tabFind s.proj.deltas e with
  | none => ⟨q, t, s.calWord e 8, s.calWord e 9⟩
  | some d =>
    let g := fun k => d.getD k 0
    let k := fAdd fOne (g 6)
    ⟨qnorm (qmul q ⟨fOne, fMul (g 0) fHalf, fMul (g 1) fHalf, fMul (g 2) fHalf⟩), t.add ⟨g 3, g 4, g 5⟩,
      fMul (s.calWord e 8) k, fMul (s.calWord e 9) k⟩

/-! ### Camera models (R240) -/

/-- 1 + x (c0 + x (c1 + … )) with six coefficients. -/
def poly6 (c : List Nat) (x : Nat) : Nat := fAdd fOne (fMul x ((c.dropLast.reverse).foldl (fun s k => fAdd k (fMul x s)) (c.getLastD 0)))

/-- atan2 (R240): a result within 1 ulp of the exact angle, which of them a function of the operands; no bound is stated where an operand
is not finite or both are 0 (assumption 27). -/
def fAtan2 (y x : Nat) : Nat :=
  let a := f32v y
  let b := f32v x
  if f32isFin y && f32isFin x && !(a.isZero && b.isZero) then
    let l := nearUlp (.fin false (fxAtan2 a.toFx b.toFx).toNat (-192)) 1
    l.getD (Config.atan2 y x % l.length) 0
  else Config.atan2 y x % 2 ^ 32

/-- Pixel coordinates of a camera point; none where the model calls it invalid. -/
def State.cameraMap (s : State) (e : Nat) (c : CalEff) (p : V3) : Option (Nat × Nat) :=
  let k := (List.range 6).map fun i => s.calWord e (12 + i)
  let cx := s.calWord e 10
  let cy := s.calWord e 11
  if s.calModel e = 1 then
    if f32le 0x3C23D70A p.z then
      let xn := fDiv p.x p.z
      let yn := fDiv p.y p.z
      let d := poly6 k (fAdd (fMul xn xn) (fMul yn yn))
      some (fAdd (fMul c.fx (fMul xn d)) cx, fAdd (fMul c.fy (fMul yn d)) cy)
    else none
  else
    let r := fSqrt (fAdd (fMul p.x p.x) (fMul p.y p.y))
    let th := fAtan2 r p.z
    if f32le th (s.calWord e 19) then
      if (f32v r).isZero then some (cx, cy)
      else
        let rd := fMul th (poly6 k (fMul th th))
        some (fAdd (fMul c.fx (fMul rd (fDiv p.x r))) cx, fAdd (fMul c.fy (fMul rd (fDiv p.y r))) cy)
    else none

/-- Is a pixel outside the image? -/
def State.pixelOut (s : State) (e u v : Nat) : Bool :=
  let w := f32ofInt (s.calWord e 18 % 65536 : Nat)
  let h := f32ofInt (s.calWord e 18 / 65536 : Nat)
  !(f32le 0 u && f32le 0 v && f32lt u w && f32lt v h)

/-- Depth of a camera point (R245). -/
def State.depth (s : State) (e : Nat) (p : V3) : Nat :=
  if s.calModel e = 1 then p.z else fSqrt (fAdd (fAdd (fMul p.x p.x) (fMul p.y p.y)) (fMul p.z p.z))

/-! ### Commands (R241 to R247) -/

/-- Fields of a command. -/
def pcSrcS (b : List Byte) : Nat := fieldAt b 1 1
def pcDstS (b : List Byte) : Nat := fieldAt b 2 1
def pcPointBytes (b : List Byte) : Nat := if fieldAt b 3 1 = 0 then 16 else 32
def pcCount (b : List Byte) : Nat := fieldAt b 4 4
def pcTItem (b : List Byte) : Nat := fieldAt b 8 8
def pcTRef (b : List Byte) : Nat := fieldAt b 0x10 8
def pcSrc (b : List Byte) : Nat := fieldAt b 0x18 8
def pcDst (b : List Byte) : Nat := fieldAt b 0x20 8
def pcLimit (b : List Byte) : Nat := fieldAt b 0x28 4
def pcGridW (b : List Byte) : Nat := fieldAt b 0x2C 2
def pcGridH (b : List Byte) : Nat := fieldAt b 0x2E 2
def pcCellCm (b : List Byte) : Nat := fieldAt b 0x30 2
def pcHeights (b : List Byte) : Nat := fieldAt b 0x32 1
def pcCol (b : List Byte) : Nat := fieldAt b 0x34 2
def pcRow (b : List Byte) : Nat := fieldAt b 0x36 2

/-- Are the sensors that a command names entries of the kind it needs? -/
def State.projSensors (s : State) (b : List Byte) : Bool :=
  let cam := decide (pcDstS b < 64) && (s.calModel (pcDstS b) == 1 || s.calModel (pcDstS b) == 2)
  let src := decide (pcSrcS b < 64) && s.calModel (pcSrcS b) != 0
  match fieldAt b 0 1 with
  | 1 => src && cam
  | 2 => src
  | 3 => cam
  | 4 => src
  | _ => true

/-- Does a command keep to R241? -/
def State.projOk (s : State) (b : List Byte) : Bool :=
  let op := fieldAt b 0 1
  let grid := decide (16 ≤ pcGridW b ∧ pcGridW b ≤ 1024 ∧ 16 ≤ pcGridH b ∧ pcGridH b ≤ 1024 ∧ 5 ≤ pcCellCm b ∧ pcCellCm b ≤ 100)
  decide (1 ≤ op ∧ op ≤ 5) && (bytesAt b 0x33 1 ++ bytesAt b 0x38 8).all (· == 0#8) && s.projSensors b
    && (decide (4 ≤ op) || decide (fieldAt b 3 1 ≤ 1 ∧ 1 ≤ pcCount b ∧ pcCount b ≤ 16777216))
    && (decide (op ≠ 2 ∧ op ≠ 3) || grid)
    && (decide (op ≠ 3) || decide (1 ≤ pcHeights b ∧ pcHeights b ≤ 8 ∧ pcCount b ≤ pcGridW b * pcGridH b))

/-- Bytes of a command's source and output. -/
def pcSrcBytes (b : List Byte) : Nat :=
  match fieldAt b 0 1 with
  | 3 => 4 * pcHeights b
  | 4 => 28
  | 5 => 24
  | _ => pcPointBytes b * pcCount b

def pcDstBytes (b : List Byte) : Nat :=
  match fieldAt b 0 1 with
  | 1 => 16 * pcCount b
  | 2 => 8 * pcCount b
  | 3 => 16 * pcCount b * pcHeights b
  | _ => 0

/-- Poses that a command waits for or cannot have any more (R244): true: it fails; none: it waits. -/
def State.poseGate (s : State) (b : List Byte) : Option Bool :=
  let count := s.get F.EGO_POSE_COUNT_count
  let l := pcLimit b
  if s.get F.EGO_STATUS_state = 0 ∨ s.get F.EGO_STATUS_state = 3 then some true
  else if l = 0xFFFFFFFF then some false
  else if count ≤ l then none
  else some (decide (l + 16384 < count))

/-- An uncorrectable word of the pose ring met (EGO ring_uncorrectable). -/
def State.ringCheck (s : State) : State :=
  let n := min (s.get F.EGO_POSE_COUNT_count) 16384
  s.raiseIf (decide (0 < n) && s.poisonedAt (s.addr F.EGO_RING_BASE_LO_base) (128 * n)) pgEGO Ev.EGO_ring_uncorrectable

/-- A point of the source (R242). -/
structure SrcPoint where
  p    : V3
  dt   : Int
  bad  : Bool

def srcPoint (b : List Byte) : SrcPoint :=
  ⟨⟨fieldAt b 0 4, fieldAt b 4 4, fieldAt b 8 4⟩, toSigned 16 (fieldAt b 12 2), (b.getD 15 0#8).getLsbD 0⟩

/-- A source point in the ego frame at t_ref (R243); none: a time is unposed. -/
def State.toEgo (s : State) (open' : Nat) (b : List Byte) (c : CalEff) (x : SrcPoint) : Option V3 :=
  let t : Int := (pcTItem b : Int) + 2000 * x.dt
  match (if t < 0 then none else s.poseAt open' t.toNat (pcLimit b)), s.poseAt open' (pcTRef b) (pcLimit b) with
  | some a, some r => some (movePoint a r ((rotate c.rot x.p).add c.trans))
  | _, _ => none

/-- Flags of a projected camera point, and its output u, v, depth. -/
def State.cameraOut (s : State) (open' dst : Nat) (e : V3) : List Byte × Nat :=
  let c := s.calEff dst
  let p := rotate (qconj c.rot) (e.sub c.trans)
  let d := leBytes 4 (s.depth dst p)
  match s.cameraMap dst c p with
  | none => (leBytes 8 open' ++ d, 4)
  | some (u, v) => (leBytes 4 u ++ leBytes 4 v ++ d, if s.pixelOut dst u v then 8 else 1)

/-- Output of P2I for one point, and what became of it: 0 projected, 1 unposed, 2 invalid. What u, v and depth hold for a point that is not projected is
not stated. -/
def State.p2iOut (s : State) (open' : Nat) (b pt : List Byte) : List Byte × Nat :=
  let x := srcPoint pt
  if x.bad then (leBytes 12 open' ++ leBytes 4 16, 2)
  else
    match s.toEgo open' b (s.calEff (pcSrcS b)) x with
    | none => (leBytes 12 open' ++ leBytes 4 2, 1)
    | some e => let r := s.cameraOut open' (pcDstS b) e; (r.1 ++ leBytes 4 r.2, 0)

/-- floor(x × 100 / cell) + origin, none where there is no such integer. -/
def gridIndex (cell origin x : Nat) : Option Int :=
  let v := fDiv (fMul x 0x42C80000) (f32ofInt (cell : Int))
  if f32isFin v then some ((f32v v).floor + origin) else none

/-- Cell of a point in a grid of `w` × `h` cells (R245). -/
def gridCell (w h cell col row : Nat) (e : V3) : Option Nat :=
  match gridIndex cell col e.x, gridIndex cell row e.y with
  | some c, some r => if 0 ≤ c ∧ c < w ∧ 0 ≤ r ∧ r < h then some (r.toNat * w + c.toNat) else none
  | _, _ => none

/-- Output of P2G for one point. -/
def State.p2gOut (s : State) (open' : Nat) (b pt : List Byte) : List Byte × Nat :=
  let x := srcPoint pt
  if x.bad then (leBytes 4 0xFFFFFFFF ++ leBytes 4 open', 2)
  else
    match s.toEgo open' b (s.calEff (pcSrcS b)) x with
    | none => (leBytes 4 0xFFFFFFFF ++ leBytes 4 open', 1)
    | some e =>
      (leBytes 4 ((gridCell (pcGridW b) (pcGridH b) (pcCellCm b) (pcCol b) (pcRow b) e).getD 0xFFFFFFFF) ++ leBytes 4 e.z, 0)

/-- The centre of a grid column or row in metres. -/
def cellCentre (i origin cell : Nat) : Nat :=
  fDiv (f32ofInt ((2 * ((i : Int) - origin) + 1) * cell)) (f32ofInt 200)

/-- Output of F2G for one cell and height. -/
def State.f2gOut (s : State) (open' : Nat) (b : List Byte) (cell h : Nat) : List Byte × Nat :=
  let x : V3 := ⟨cellCentre (cell % pcGridW b) (pcCol b) (pcCellCm b), cellCentre (cell / pcGridW b) (pcRow b) (pcCellCm b), h⟩
  match s.poseAt open' (pcTRef b) (pcLimit b), s.poseAt open' (pcTItem b) (pcLimit b) with
  | some r, some a =>
    let o := s.cameraOut open' (pcDstS b) (movePoint r a x)
    (o.1.take 8 ++ leBytes 4 h ++ leBytes 4 o.2, 0)
  | _, _ => (leBytes 8 open' ++ leBytes 4 h ++ leBytes 4 2, 1)

/-- Failure of a projection command. -/
def State.projFail (s : State) (j : Job) : State := s.commandFailed j.queue j.index

/-- A command that uses the poses present when it starts marks its job (R244). -/
def State.poseMark (s : State) (j : Job) (b : List Byte) : State :=
  if pcLimit b = 0xFFFFFFFF then s.modJob j.queue j.index fun j => { j with nonrepro := true } else s

/-- Items of a command's output written (each with 0: projected, 1: unposed, 2: its source point invalid); the command ends. -/
def State.projPut (s : State) (j : Job) (b : List Byte) (items : List (List Byte × Nat)) : State :=
  let out := items.flatMap (·.1)
  let un := (items.filter fun i => i.2 == 1).length
  let ok := (items.filter fun i => i.2 == 0).length
  let s1 := ((s.store (pcDst b) out).count F.PROJ_POINTS_count ok).count F.PROJ_UNPOSED_count un
  let s2 := (s1.raiseIf (decide (0 < un)) pgPROJ Ev.PROJ_unposed).ringCheck
  s2.commandDone j.queue j.index (some (digest64 out))

/-- A projection command: its checks, its poses (R244), its source, then `run`. -/
def State.projStart (s : State) (j : Job) (b : List Byte) (run : State → List Byte → State) : State :=
  if s.get F.PROJ_STATUS_state = 0 ∨ s.get F.PROJ_STATUS_state = 3 ∨ !s.projOk b ∨ !s.inMemory (pcSrc b) (pcSrcBytes b)
      ∨ (pcDstBytes b ≠ 0 ∧ !s.inMemory (pcDst b) (pcDstBytes b)) then s.projFail j
  else
    match s.poseGate b with
    | none => s
    | some true => s.projFail j
    | some false =>
      let r := (s.poseMark j b).load (pcSrc b) (pcSrcBytes b)
      if r.2.2 then r.1.projFail j else run r.1 r.2.1

/-- A projection command that reads points or cells. What the outputs leave open is a function of the command and its source (R312). -/
def State.projRun (s : State) (j : Job) (b : List Byte) (run : State → Nat → List Byte → List (List Byte × Nat)) : State :=
  s.projStart j b fun s src => s.projPut j b (run s (Config.freeOf [245, leNat b, leNat src]) src)

/-- The points of a source. -/
def pcPoints (b src : List Byte) : List (List Byte) :=
  (List.range (pcCount b)).map fun i => bytesAt src (pcPointBytes b * i) (pcPointBytes b)

/-- P2I (R243, R245). Operations that the engine does not have fail here. -/
def execP2i (id : JobId) (s : State) : Result :=
  .next (s.listCommand id 4 (fun o => decide (o = 1 ∨ o = 0 ∨ 5 < o)) fun s j b =>
    s.projRun j b fun s op src => (pcPoints b src).map (s.p2iOut op b))

/-- P2G (R243, R245). -/
def execP2g (id : JobId) (s : State) : Result :=
  .next (s.listCommand id 4 (fun o => decide (o = 2)) fun s j b =>
    s.projRun j b fun s op src => (pcPoints b src).map (s.p2gOut op b))

/-- F2G (R243, R245): cells in row order, heights in list order within a cell. -/
def execF2g (id : JobId) (s : State) : Result :=
  .next (s.listCommand id 4 (fun o => decide (o = 3)) fun s j b =>
    s.projRun j b fun s op src => (List.range (pcCount b)).flatMap fun c =>
      (List.range (pcHeights b)).map fun h => s.f2gOut op b c (fieldAt src (4 * h) 4))

/-- Magnitude of an FP32 value at most `lim`? -/
def fSmall (lim x : Nat) : Bool := f32le (x % 2 ^ 31) lim

/-- The values of a DELTA or BIAS command read, and whether the command may run. -/
def State.projValues (s : State) (j : Job) (b : List Byte) (run : State → List Nat → State) : State :=
  s.projStart j b fun s src => run s ((List.range (pcSrcBytes b / 4)).map fun k => fieldAt src (4 * k) 4)

/-- DELTA (R246, R247): the entry's delta is replaced, or the command fails. -/
def execDelta (id : JobId) (s : State) : Result :=
  .next (s.listCommand id 4 (fun o => decide (o = 4)) fun s j b =>
    s.projValues j b fun s d =>
      if ((d.take 3).all (fSmall 0x3D4CCCCD)) && (((d.drop 3).take 3).all (fSmall 0x3DCCCCCD)) && fSmall 0x3CA3D70A (d.getD 6 0) then
        { s with proj := { s.proj with deltas := tabSet s.proj.deltas (pcSrcS b) d } }.commandDone j.queue j.index (some (digest64 []))
      else s.projFail j)

/-- BIAS (R230, R246): published as code 0x0C, then applied to inertial items of higher positions. In replay it waits for its
own record (R325). -/
def execBias (id : JobId) (s : State) : Result :=
  .next (s.listCommand id 4 (fun o => decide (o = 5)) fun s j b =>
    let mine := fun (r : JRec) => decide (r.kind = 0x0C ∧ r.aux0 = j.cmd ∧ r.aux1 = j.queue ∧ r.aux2 = j.index)
    if s.replaying ∧ !s.replayTurn mine then s
    else
      s.projValues j b fun s d =>
        let bytes := d.flatMap (leBytes 4)
        let s0 := if s.replaying then s.replayTake else s
        let pos := s0.jrnPos
        let s1 := s0.publish 0x0C 0 0 j.cmd j.queue j.index bytes
        let e : EgoItem := ⟨255, 0, 0, 0, pos, bytes⟩
        (if s.get F.EGO_STATUS_state = 0 then s1 else { s1 with egoIn := s1.egoIn ++ [e] }).commandDone
          j.queue j.index (some (digest64 [])))

end Sys2Proof.Machine
end

