-- ==== Sys2Proof/Machine/Fusion.lean ====
section
/-! DEFINITION. The fusion engine: inputs, instants, the fused grid, tracks, the late lane (R248 to R270). -/

namespace Sys2Proof.Machine

/-! ### Sensors, inputs, records -/

/-- Fusion sensor `j`, and the stream of its calibration entry (R248). -/
def State.fusSensor (s : State) (j : Nat) : FusSensor := tabGet s.fus.sensors j {}
def State.fusStream (s : State) (j : Nat) : Nat := s.calWord j 0 / 256 % 128

/-- A sensor changed in place. -/
def State.modSensor (s : State) (j : Nat) (f : FusSensor → FusSensor) : State :=
  { s with fus := { s.fus with sensors := tabSet s.fus.sensors j (f (s.fusSensor j)) } }

/-- The valid sensors, ascending. -/
def State.fusValid (s : State) : List Nat := (List.range 64).filter fun j => (s.fusSensor j).valid

/-- Does a timestamp lie in a sensor's window of an instant (R254)? -/
def FusSensor.inWindow (v : FusSensor) (t ts : Nat) : Bool := decide (t < ts + 1000 * v.window ∧ ts ≤ t)

/-- Records of the fusion completion queue written while it has room (queue 0x0_0101). -/
def State.fusFlush (s : State) : State :=
  s.fus.records.foldl
    (fun s r =>
      if (s.queue 0x101).hasRoom then
        let s1 := s.ringEntry 0x101 r
        { s1 with fus := { s1.fus with records := s1.fus.records.drop 1 } }
      else s) s

/-- A record for the fusion completion queue. -/
def State.fusRecord (s : State) (r : List Byte) : State :=
  { s with fus := { s.fus with records := s.fus.records ++ [r] } }.fusFlush

/-- A correction record (R268). -/
def State.correction (s : State) (l : FusLate) (action j : Nat) : State :=
  s.fusRecord (leBytes 4 l.inst ++ leBytes 1 l.inp.sensor ++ leBytes 1 action ++ leBytes 2 0 ++ leBytes 4 l.inp.seq
    ++ leBytes 4 j ++ leBytes 8 l.inp.pos ++ leBytes 8 l.inp.ts)

/-- State and pending count shown, unless the block is disabled or faulted. -/
def State.fusIdle (s : State) : State :=
  let n := s.fus.pending.length
  let s1 := s.put F.FUS_STATUS_pending n
  if s.get F.FUS_STATUS_state = 2 ∧ n = 0 then s1.put F.FUS_STATUS_state 1 else s1

/-- State and pending count shown. -/
def State.fusShow (s : State) : State :=
  let n := s.fus.pending.length
  (s.put F.FUS_STATUS_pending n).put F.FUS_STATUS_state (if n = 0 then 1 else 2)

/-- A fusion job ended with the fusion error status. -/
def State.fusFail (s : State) (q i : Nat) : State := s.modJob q i fun j => j.ended 0x07 0

/-- Every pending instant completes with the fusion error status. -/
def State.fusFailAll (s : State) : State :=
  let s1 := s.fus.pending.foldl (fun s p => s.fusFail p.queue p.index) s
  { s1 with fus := { s1.fus with pending := [] } }.put F.FUS_STATUS_pending 0

/-! ### Enable, resume (R269, R270) -/

def State.fusW (s : State) : Nat := s.get F.FUS_GRID_CFG_width
def State.fusH (s : State) : Nat := s.get F.FUS_GRID_CFG_height
def State.fusStateBase (s : State) : Nat := s.addr F.FUS_STATE_BASE_LO_base
def State.fusTrackBase (s : State) : Nat := s.addr F.FUS_TRACK_BASE_LO_base
def State.fusInputBase (s : State) : Nat := s.addr F.FUS_INPUT_BASE_LO_base

/-- Does the configuration pass R270? -/
def State.fusCfgOk (s : State) : Bool :=
  let dim := fun n => decide (16 ≤ n ∧ n ≤ 1024 ∧ n % 16 = 0)
  dim s.fusW && dim s.fusH
    && decide (5 ≤ s.get F.FUS_GRID_CELL_cell_cm ∧ s.get F.FUS_GRID_CELL_cell_cm ≤ 100
      ∧ s.get F.FUS_HEALTH_CFG_mask_threshold ≤ s.get F.FUS_HEALTH_CFG_full_health
      ∧ 1 ≤ s.get F.FUS_CONTRA_dispute_clear ∧ 1 ≤ s.get F.FUS_TRACK_CFG_drop_instants
      ∧ s.fusInputBase % 262144 = 0 ∧ s.fusTrackBase % 67108864 = 0 ∧ s.fusStateBase % 4096 = 0)
    && s.inHub s.fusInputBase 262144 && s.inDram s.fusTrackBase 67108864 && s.inHub s.fusStateBase (4 * s.fusW * s.fusH)

/-- The state grid cleared. -/
def State.fusClearGrid (s : State) : State :=
  let s1 := s.zero s.fusStateBase (4 * s.fusW * s.fusH)
  { s1 with fus := { s1.fus with tLast := none } }

/-- FUS_CTRL written (R251, R269, R270). resume returns a faulted block to idle with the state grid cleared; setting enable checks the
configuration and clears every context and the state grid, or is refused; clearing it ends every pending instant with the fusion error
status. -/
def State.fusCtrl (s : State) (w : Word) : State :=
  let s := if w.getLsbD 1 && s.get F.FUS_STATUS_state == 3 then
      (s.zero s.fusStateBase (4 * s.fusW * s.fusH)).put F.FUS_STATUS_state 1
    else s
  if w.getLsbD 0 then
    if s.flag F.FUS_CTRL_enable then s
    else if !s.fusCfgOk then s.put F.FUS_FAULT_cause 3
    else
      let s1 := ((s.zero s.fusTrackBase 67108864).fusClearGrid.put F.FUS_CTRL_enable 1).put F.FUS_STATUS_state 1
      { s1 with fus := { s1.fus with
          inputs := []
          late := []
          released := []
          next := 0
          lastReq := none
          live := [] } }.put F.FUS_TRACKS_live 0
  else if s.flag F.FUS_CTRL_enable then (s.fusFailAll.put F.FUS_CTRL_enable 0).put F.FUS_STATUS_state 0
  else s

/-- FUS_ENABLE (R251, R270). -/
def execFusEnable (acc : Acc) (s : State) : Result := .next (s.command pgFUS 0x020 acc State.fusCtrl)

/-- FUS_RESUME (R269). -/
def execFusResume (acc : Acc) (s : State) : Result := .next (s.command pgFUS 0x020 acc State.fusCtrl)

/-! ### Requests (R251) -/

/-- Does a request keep to R251? -/
def State.requestOk (s : State) (b : List Byte) : Bool :=
  let fl := fieldAt b 4 4
  let tr := fieldAt b 0x28 4
  b.take 4 == [0x56#8, 0x46#8, 0x49#8, 0x31#8] && decide (fl < 4 ∧ tr ≤ 262144) && (bytesAt b 0x2C 20).all (· == 0#8)
    && (match s.fus.lastReq with | some t => decide (t < fieldAt b 8 8) | none => true)
    && s.inMemory (fieldAt b 0x10 8) 128
    && (!fl.testBit 0 || s.inMemory (fieldAt b 0x18 8) (4 * s.fusW * s.fusH))
    && (!fl.testBit 1 || s.inMemory (fieldAt b 0x20 8) (256 * tr))

/-- The fusion jobs on the engine whose instants have not been requested, in order of taking. -/
def State.fusNextJob (s : State) : Option Job :=
  s.jobs.find? fun j => j.cls == 3 && j.stage == .placed && !j.busy

/-- INSTANT_REQUEST (R251): the next fusion job's request is taken and numbered, or fails; a fifth one waits, in reduced service a
second one (R517). -/
def execInstantRequest (id : JobId) (s : State) : Result :=
  .next (match s.fusNextJob with
    | none => s
    | some j =>
      if !j.is id.queue.toNat id.index.toNat ∨ (if s.get F.PWR_SERVICE_level = 1 then 1 else 4) ≤ s.fus.pending.length then s
      else if s.get F.FUS_STATUS_state = 0 ∨ s.get F.FUS_STATUS_state = 3 then s.fusFail j.queue j.index
      else
        let r := s.load j.program 64
        let b := r.2.1
        if r.2.2 ∨ !s.requestOk b then (r.1.put F.FUS_FAULT_cause 3).fusFail j.queue j.index
        else if s.get F.EGO_STATUS_state = 0 ∨ s.get F.EGO_STATUS_state = 3 then (r.1.put F.FUS_FAULT_cause 4).fusFail j.queue j.index
        else
          let inst : Instant :=
            ⟨j.queue, j.index, s.fus.next, fieldAt b 4 4, fieldAt b 8 8, fieldAt b 0x10 8, fieldAt b 0x18 8, fieldAt b 0x20 8,
              fieldAt b 0x28 4, [], none⟩
          { (r.1.modJob j.queue j.index fun j => { j with busy := true }) with
            fus := { s.fus with
              pending := s.fus.pending ++ [inst]
              next := (s.fus.next + 1) % 2 ^ 32
              lastReq := some inst.t } }.fusShow)

/-! ### Release (R252, R253) -/

/-- The position at which a sensor's stream delivered for target `t` (R252). An item without a timestamp delivers nothing. -/
def State.delivered (s : State) (j t : Nat) : Option Nat :=
  ((s.stream (s.fusStream j)).items.find? fun i =>
    decide (i.2.2 ≠ 2 ^ 64 - 1 ∧ t ≤ i.2.2 + 1000 * (s.fusSensor j).reach)).map (·.1)

/-- A bit mask of sensors. -/
def sensorMask (l : List Nat) : Nat := l.foldl (fun m j => m ||| 2 ^ j) 0

/-- The first pending instant whose R is not fixed. -/
def State.unreleased (s : State) : Option Instant := s.fus.pending.find? fun p => p.r.isNone

/-- A pending instant replaced by number. -/
def State.setInstant (s : State) (p : Instant) : State :=
  { s with fus := { s.fus with pending := s.fus.pending.map fun x => if x.number = p.number then p else x } }

/-- The 32 bytes of a timeout record, whose layout the spec does not state: a free value of sensor and instant. -/
def timeoutRecord (sensor number : Nat) : List Byte := leBytes 32 (Config.freeOf [252, sensor, number])

/-- FUSION_TIMEOUT (R252): a sensor's wait has passed on the hub's clock; its timeout record takes a fence position (R317).
What a timeout record holds is not stated. None occurs in replay (R253). Each pending instant waits for itself: the wait that passes is
that of the oldest instant that still waits for the sensor. -/
def execFusionTimeout (sensor : Fin 64) (s : State) : Result :=
  let j := sensor.val
  .next (match s.fus.pending.find? fun p => p.r.isNone && (s.delivered j p.t).isNone && !p.outs.any fun o => decide (o.1 = j) with
    | none => s
    | some p =>
      if s.replaying ∨ !(s.fusSensor j).valid then s
      else
        let pos := s.jrnPos
        let s1 := (s.fusRecord (timeoutRecord j p.number)).publish 0x0A 0 j p.number 0 0
        (s1.setInstant { p with outs := p.outs ++ [(j, pos)] }).raise pgFUS Ev.FUS_timeout)

/-- The highest of a list and `lo`. -/
def maxFrom (lo : Nat) (l : List Nat) : Nat := l.foldl max lo

/-- R of the previous instant (0 before the first). -/
def State.lastR (s : State) : Nat :=
  maxFrom ((s.fus.released.getLast?.map (·.2.2)).getD 0) (s.fus.pending.filterMap (·.r))

/-- Decision record of an instant in the replay journal (R253): R and the timed-out sensors. -/
def State.recordedInstant (s : State) (number : Nat) : Option (Nat × Nat) :=
  (s.jrnFind fun k => decide (k.kind = 0x12 ∧ k.aux0 = number)).map fun k => (k.aux2, leNat (k.payload.take 8))

/-- INSTANT_RELEASE (R252, R253): every valid sensor is delivered or timed out; R and the timed-out set are fixed and recorded.
In replay both come from the journal once it has reached R. -/
def execInstantRelease (s : State) : Result :=
  .next (match s.unreleased with
    | none => s
    | some p =>
      if s.replaying then
        match s.recordedInstant p.number, s.jrn.expected with
        | some (r, outs), some e =>
          if r < e then
            s.setInstant { p with
              r := some r
              outs := ((List.range 64).filter fun j => outs.testBit j).map fun j => (j, r) }
          else s
        | _, _ => s
      else
        let met := s.fusValid.map fun j =>
          match p.outs.find? fun o => decide (o.1 = j) with
          | some o => some o.2
          | none => s.delivered j p.t
        if met.any (·.isNone) then s
        else
          let r := maxFrom s.lastR (met.filterMap id)
          (s.record 0x12 0 0 p.number 0 r (leBytes 8 (sensorMask (p.outs.map (·.1))))).setInstant { p with r := some r })

/-! ### Inputs and the late lane (R249, R254, R267) -/

/-- The latest released instant for which an input is late. -/
def State.lateFor (s : State) (i : FusIn) : Option Nat :=
  ((s.fus.released.filter fun r => (s.fusSensor i.sensor).inWindow r.2.1 i.ts && decide (r.2.2 < i.pos)).getLast?).map (·.1)

/-- Can an input still be on time for a pending instant? -/
def State.onTimeLater (s : State) (i : FusIn) : Bool :=
  s.fus.pending.any fun p => (s.fusSensor i.sensor).inWindow p.t i.ts
    && (match p.r with | some r => decide (i.pos ≤ r) | none => true)

/-- A late input enters the late lane, or is dropped when its 64 places are taken; one that is on time for a pending instant
needs no place. -/
def State.lateEnter (s : State) (l : FusLate) : State :=
  if s.onTimeLater l.inp then { s with fus := { s.fus with late := s.fus.late ++ [{ l with lane := false }] } }
  else if (s.fus.late.filter (·.lane)).length < 64 then
    { s with fus := { s.fus with late := s.fus.late ++ [{ l with lane := true }] } }
  else ((s.satInc F.FUS_LATE_dropped).raise pgFUS Ev.FUS_late_drop).correction l 4 0xFFFFFFFF

/-- An input that is late for a released instant, if it is and is not known as late yet: each is told of once (R268). -/
def State.lateCheck (s : State) (i : FusIn) : State :=
  if i.told then s
  else
    match s.lateFor i with
    | none => s
    | some n =>
      let s1 := { s with fus := { s.fus with inputs := s.fus.inputs.map fun (x : FusIn) =>
        if x.sensor = i.sensor ∧ x.seq = i.seq then { x with told := true } else x } }
      (s1.raise pgFUS Ev.FUS_late).lateEnter ⟨n, i, false⟩

/-- The input descriptor in the slot of (sensor, seq). -/
def inputOf (b : List Byte) (bad : Bool) : FusIn :=
  { seq := fieldAt b 0 4, sensor := fieldAt b 4 1, kind := fieldAt b 5 1, ts := fieldAt b 8 8, pos := fieldAt b 0x10 8,
    grid := fieldAt b 0x18 8, dets := fieldAt b 0x20 8, count := fieldAt b 0x28 4, bad := bad }

/-- An input counted as wrong (FUS_INPUT_ERR). -/
def State.inputErr (s : State) : State := s.count F.FUS_INPUT_ERR_count 1

/-- FUSION_INPUT (R249, R267): the input of item `seq` of a sensor is read from its slot; one that does not answer its item is
counted, and so is one whose slot is overwritten before use. -/
def execFusionInput (sensor : Fin 64) (seq : Word) (s : State) : Result :=
  let j := sensor.val
  .next (if s.get F.FUS_STATUS_state = 0 ∨ !(s.fusSensor j).valid then s
    else
      let r := s.load (s.fusInputBase + 4096 * j + 64 * (seq.toNat % 64)) 64
      let i := inputOf r.2.1 r.2.2
      let known := (s.stream (s.fusStream j)).items.any fun k => decide (k = (i.pos, i.seq, i.ts))
      if !i.bad ∧ (i.seq ≠ seq.toNat ∨ i.sensor ≠ j ∨ !known ∨ 4096 < i.count) then r.1.inputErr
      else
        let i := if i.bad then { i with seq := seq.toNat, sensor := j } else i
        let old := s.fus.inputs.filter fun x => decide (x.sensor = j ∧ x.seq % 64 = seq.toNat % 64)
        let s1 := if (old.any fun x => !x.used && decide (x.seq ≠ i.seq)) then r.1.inputErr else r.1
        { s1 with fus := { s1.fus with inputs := s1.fus.inputs.filter (fun x => !old.contains x) ++ [i] } }.lateCheck i)

/-- Are the inputs of every item of a sensor that R254 asks for present? -/
def State.inputsHere (s : State) (p : Instant) (r j : Nat) : Bool :=
  (s.stream (s.fusStream j)).items.all fun k =>
    !(decide (k.1 ≤ r) && (s.fusSensor j).inWindow p.t k.2.2)
      || s.fus.inputs.any fun i => decide (i.sensor = j ∧ i.seq = k.2.1)

/-! ### What an instant uses (R254, R255, R266, R267) -/

/-- A sensor's part in an instant: its input, weight, whether it is masked, the pose at its input's timestamp, folded late. -/
structure FusUse where
  sensor : Nat
  inp    : Option FusIn
  w      : Nat
  masked : Bool
  pose   : Option Pose
  folded : Bool
  health : Bool
  poison : Bool

/-- The on-time input of a sensor: the one with the highest seq. -/
def State.onTime (s : State) (p : Instant) (r j : Nat) : Option FusIn :=
  (s.fus.inputs.filter fun i => decide (i.sensor = j ∧ i.pos ≤ r) && (s.fusSensor j).inWindow p.t i.ts).foldl
    (fun b i => match b with | some x => if x.seq < i.seq then some i else b | none => some i) none

/-- The late input that folds into an instant for a sensor without an on-time one. -/
def State.foldedInput (s : State) (p : Instant) (r j : Nat) : Option FusLate :=
  (s.fus.late.filter fun l => decide (l.inp.sensor = j ∧ l.inp.pos ≤ r) && !(s.fusSensor j).inWindow p.t l.inp.ts).foldl
    (fun b i => match b with | some x => if x.inp.seq < i.inp.seq then some i else b | none => some i) none

/-- Does any word of an input read poisoned? -/
def State.inputPoisoned (s : State) (i : FusIn) : Bool :=
  i.bad || (i.kind.testBit 0 && s.poisonedAt i.grid (s.fusW * s.fusH)) || (i.kind.testBit 1 && s.poisonedAt i.dets (64 * i.count))

/-- Each valid sensor's part; `missing` are masked. -/
def State.fusUses (s : State) (open' lim : Nat) (p : Instant) (r : Nat) (missing : List Nat) : List FusUse :=
  s.fusValid.map fun j =>
    let v := s.fusSensor j
    let score := (s.stream (s.fusStream j)).scoreAt r
    let low := decide (score < s.get F.FUS_HEALTH_CFG_mask_threshold)
    let on := s.onTime p r j
    let late := if on.isSome then none else s.foldedInput p r j
    let inp := match on with
      | some i => some i
      | none => late.map (·.inp)
    let bad : Bool := match inp with
      | some i => s.inputPoisoned i
      | none => false
    let masked := low || v.disputed || p.outs.any (fun o => decide (o.1 = j)) || inp.isNone || bad || missing.contains j
    let w0 := min score (s.get F.FUS_HEALTH_CFG_full_health)
    let w := if late.isSome then w0 * s.get F.FUS_TRACK_CFG_late_weight / 256 else w0
    { sensor := j, inp := inp, w := if masked then 0 else w, masked := masked
      pose := inp.bind fun i => s.poseAt open' i.ts lim
      folded := late.isSome, health := low, poison := bad }

/-! ### The fused grid (R256 to R260) -/

/-- Cell of the fused grid that a point of the ego frame falls in. -/
def State.fusCell (s : State) (e : V3) : Option Nat :=
  gridCell s.fusW s.fusH (s.get F.FUS_GRID_CELL_cell_cm) (s.get F.FUS_GRID_CELL_origin_col) (s.get F.FUS_GRID_CELL_origin_row) e

/-- Centre of a cell at height 0. -/
def State.fusCentre (s : State) (c : Nat) : V3 :=
  let cm := s.get F.FUS_GRID_CELL_cell_cm
  ⟨cellCentre (c % s.fusW) (s.get F.FUS_GRID_CELL_origin_col) cm, cellCentre (c / s.fusW) (s.get F.FUS_GRID_CELL_origin_row) cm, 0⟩

/-- A sensor's evidence for a cell (R256), by nearest-cell resampling. -/
def State.evidence (s : State) (pt : Option Pose) (u : FusUse) (c : Nat) : Option Int :=
  match pt, u.pose, u.inp with
  | some a, some b, some i =>
    if i.kind.testBit 0 then
      (s.fusCell (movePoint a b (s.fusCentre c))).bind fun k =>
        let e := toSigned 8 (s.peekNat (i.grid + k) 1)
        if e = -128 then none else some e
    else none
  | _, _, _ => none

/-- conf or masked of R256: 255 × part / (full_health × n), 0 where `n` is 0. With full_health 0 the quotient is open (assumption 50). -/
def share (part full n : Nat) : Nat := if n = 0 then 0 else if full = 0 then Config.zeroHealth part n else 255 * part / (full * n)

/-- A fused cell: its word (R259), its word of the state grid (with the clear run in [29:28] and [31] set when it was
observed: assumption 29), whether it became disputed, the observing sensors, the losing ones (R258). -/
structure FusedCell where
  word   : Nat
  keep   : Nat
  fresh  : Bool
  seen   : List Nat
  losers : List Nat

/-- Evidence of a cell combined (R256 to R259). `prev` is its resampled word of the previous state grid. -/
def State.fuseCell (s : State) (obs : List (FusUse × Int)) (prev : Option Nat) : FusedCell :=
  let full := s.get F.FUS_HEALTH_CFG_full_health
  let cmin : Int := s.get F.FUS_CONTRA_contra_min
  let open1 := obs.filter fun o => !o.1.masked
  let n := obs.length
  let wSum := (open1.map fun o => o.1.w).sum
  let eSum := (open1.map fun o => (o.1.w : Int) * o.2).sum
  let e0 : Int := if wSum = 0 then -128 else max (-127) (min 127 ((2 * eSum + wSum).fdiv (2 * wSum)))
  let es := open1.map (·.2)
  let hi := es.foldl max (-128)
  let lo := es.foldl min 127
  let contra := !es.isEmpty && decide (cmin ≤ hi ∧ lo ≤ -cmin ∧ (s.get F.FUS_CONTRA_contra_threshold : Int) ≤ hi - lo)
  let old := prev.getD 0
  let run : Nat := if contra then min 3 (old / 2 ^ 25 % 4 + 1) else 0
  let clear : Nat := if contra then 0 else min 3 (old / 2 ^ 28 % 4 + 1)
  let was := old.testBit 24
  let disputed := if was then decide (clear < s.get F.FUS_CONTRA_dispute_clear) else decide (run = 3)
  let conf0 := share wSum full n
  let conf := if disputed then conf0 / 2 ^ s.get F.FUS_CONTRA_dispute_shift else conf0
  let masked := share (full * (n - open1.length)) full n
  let e := if disputed ∧ !es.isEmpty then hi else e0
  let novel := match prev with
    | some w => !w.testBit 31
    | none => true
  let word := ofInt 8 e + 256 * (conf % 256) + 65536 * (masked % 256) + bitAt disputed 24 + run * 2 ^ 25 + bitAt novel 27
  { word := word
    keep := word + clear * 2 ^ 28 + bitAt (decide (0 < n)) 31
    fresh := disputed && !was
    seen := obs.map fun o => o.1.sensor
    losers := if disputed then (obs.filter fun o => decide (o.2 ≤ -cmin)).map fun o => o.1.sensor else [] }

/-- The whole grid of an instant. -/
def State.fuseGrid (s : State) (uses : List FusUse) (pt pLast : Option Pose) : List FusedCell :=
  (List.range (s.fusW * s.fusH)).map fun c =>
    let obs := uses.filterMap fun u => (s.evidence pt u c).map fun e => (u, e)
    let prev := match pt, pLast with
      | some a, some b => (s.fusCell (movePoint a b (s.fusCentre c))).map fun k => s.peekNat (s.fusStateBase + 4 * k) 4
      | _, _ => none
    s.fuseCell obs prev

/-- A sensor's account of an instant (R260): lost or not lost, its dispute mask, its consistency input; what FUS_SENSOR_STATE
shows of it. -/
def State.fusAccount (s : State) (cells : List FusedCell) (p : Instant) (u : FusUse) : State :=
  let seen := (cells.filter fun c => c.seen.contains u.sensor).length
  let lost := (cells.filter fun c => c.losers.contains u.sensor).length
  let loses := decide (s.get F.FUS_DISPUTE_MASK_ratio * seen < 256 * lost)
  let v := s.fusSensor u.sensor
  let l := if loses then v.lost + 1 else 0
  let k := if loses then 0 else v.kept + 1
  let s1 := s.modSensor u.sensor fun v => { v with
    lost := if l = 16 then 0 else l
    kept := if k = 16 then 0 else k
    disputedC := if l = 16 then .of 1 else if k = 16 then .of 0 else v.disputedC
    weight := u.w
    health := u.health
    timedOut := p.outs.any fun o => decide (o.1 = u.sensor) }
  if loses then s1.health (s.fusStream u.sensor) 8 (-(s.get F.FUS_DISPUTE_MASK_lose_delta : Int)) else s1

/-! ### Tracks (R261 to R263) -/

/-- A hypothesis of a track, as its 64 bytes. -/
structure Hyp where
  pos     : V3
  vx      : Nat
  vy      : Nat
  heading : Nat
  ext     : V3
  cls     : Nat
  conf    : Nat
  masked  : Nat
  mask    : Nat

def hypOf (b : List Byte) : Hyp :=
  { pos := ⟨fieldAt b 0 4, fieldAt b 4 4, fieldAt b 8 4⟩, vx := fieldAt b 0xC 4, vy := fieldAt b 0x10 4, heading := fieldAt b 0x14 4,
    ext := ⟨fieldAt b 0x18 4, fieldAt b 0x1C 4, fieldAt b 0x20 4⟩, cls := fieldAt b 0x24 1, conf := fieldAt b 0x25 1,
    masked := fieldAt b 0x26 1, mask := fieldAt b 0x28 8 }

def Hyp.bytes (h : Hyp) : List Byte :=
  [h.pos.x, h.pos.y, h.pos.z, h.vx, h.vy, h.heading, h.ext.x, h.ext.y, h.ext.z].flatMap (leBytes 4)
    ++ leBytes 1 h.cls ++ leBytes 1 h.conf ++ leBytes 1 h.masked ++ leBytes 1 0 ++ leBytes 8 h.mask ++ leBytes 16 0

/-- A detection with its position at t in the ego frame at t (R250, R262). -/
structure Det where
  sensor : Nat
  index  : Nat
  ctx    : Nat
  new    : Bool
  h      : Hyp
  w      : Nat
  masked : Bool

/-- A position that gains velocity × dt and moves between ego frames; where a pose is missing it stays in its frame. -/
def predict (dt : Int) (a b : Option Pose) (p : V3) (vx vy : Nat) : V3 :=
  let k := fSeconds dt
  let q : V3 := ⟨fAdd p.x (fMul vx k), fAdd p.y (fMul vy k), p.z⟩
  match a, b with
  | some a, some b => movePoint a b q
  | _, _ => q

/-- A detection record read (R250). -/
def detOf (u : FusUse) (pt : Option Pose) (t ts k : Nat) (b : List Byte) : Det :=
  let vx := fieldAt b 0x14 4
  let vy := fieldAt b 0x18 4
  { sensor := u.sensor, index := k, ctx := fieldAt b 0 4 % 2 ^ 18, new := (b.getD 3 0#8).getLsbD 7
    h := { pos := predict ((t : Int) - ts) u.pose pt ⟨fieldAt b 8 4, fieldAt b 0xC 4, fieldAt b 0x10 4⟩ vx vy, vx := vx, vy := vy,
           heading := fieldAt b 0x1C 4, ext := ⟨fieldAt b 0x20 4, fieldAt b 0x24 4, fieldAt b 0x28 4⟩, cls := fieldAt b 4 1,
           conf := 0, masked := 0, mask := 0 }
    w := u.w, masked := u.masked }

/-- Every detection of an instant in ascending sensor and detection order. -/
def State.fusDets (s : State) (uses : List FusUse) (pt : Option Pose) (t : Nat) : List Det :=
  uses.flatMap fun u =>
    match u.inp with
    | some i =>
      if i.kind.testBit 1 then (List.range i.count).map fun k => detOf u pt t i.ts k (s.bytes (i.dets + 64 * k) 64) else []
    | none => []

/-- A weighted mean over detections, summed in their order. -/
def wMean (ds : List Det) (f : Hyp → Nat) : Nat :=
  match ds.map fun d => (f32ofInt d.w, f d.h) with
  | [] => 0
  | p :: t => fDiv (t.foldl (fun a q => fAdd a (fMul q.1 q.2)) (fMul p.1 p.2)) (t.foldl (fun a q => fAdd a q.1) p.1)

/-- The detection of the highest weight; ties to the lower sensor, then to the lower index. -/
def anchor : List Det → Option Det
  | [] => none
  | d :: t => some (t.foldl (fun a x => if a.w < x.w then x else a) d)

/-- Distinct sensors of a list of detections. -/
def detSensors (ds : List Det) : List Nat := (ds.map (·.sensor)).eraseDups

/-- The hypothesis of a cluster: weighted means, class and heading of its anchor, conf and masked over the sensors that have a
detection for the track (`all`). -/
def State.clusterHyp (s : State) (cl all : List Det) (disputed : Bool) : Hyp :=
  let full := s.get F.FUS_HEALTH_CFG_full_health
  let n := (detSensors all).length
  let nm := (detSensors (all.filter (·.masked))).length
  let wSum := ((detSensors cl).map fun j => ((cl.find? fun d => decide (d.sensor = j)).map (·.w)).getD 0).sum
  let conf := share wSum full n
  let m := wMean cl
  { pos := ⟨m fun h => h.pos.x, m fun h => h.pos.y, m fun h => h.pos.z⟩
    vx := m fun h => h.vx
    vy := m fun h => h.vy
    heading := ((anchor cl).map fun d => d.h.heading).getD 0
    ext := ⟨m fun h => h.ext.x, m fun h => h.ext.y, m fun h => h.ext.z⟩
    cls := ((anchor cl).map fun d => d.h.cls).getD 0
    conf := (if disputed then conf / 2 ^ s.get F.FUS_CONTRA_dispute_shift else conf) % 256
    masked := share (full * nm) full n
    mask := sensorMask (detSensors cl) }

/-- Is a detection in cluster A of an anchor? -/
def State.inClusterA (s : State) (a d : Det) : Bool :=
  let x := d.h.pos.sub a.h.pos
  let r := fSqrt (fAdd (fAdd (fMul x.x x.x) (fMul x.y x.y)) (fMul x.z x.z))
  d.h.cls == a.h.cls && f32le r (fDiv (f32ofInt (s.get F.FUS_TRACK_CFG_contra_cm : Int)) (f32ofInt 100))

/-- Bytes replaced in a record. -/
def putAt (l : List Byte) (off : Nat) (bs : List Byte) : List Byte := l.take off ++ bs ++ l.drop (off + bs.length)

/-- The first 160 bytes of a context (R261); the software area after them is carried. -/
def ctxHead (number live disputed run clear age miss mask last : Nat) (a b : List Byte) : List Byte :=
  leBytes 4 (number + live * 2 ^ 24 + disputed * 2 ^ 25 + run * 2 ^ 26 + clear * 2 ^ 28) ++ leBytes 4 age ++ leBytes 2 miss
    ++ leBytes 6 0 ++ leBytes 8 mask ++ leBytes 4 last ++ leBytes 4 0 ++ a ++ b

/-- A hypothesis predicted to t. -/
def Hyp.predicted (h : Hyp) (dt : Int) (a b : Option Pose) : Hyp := { h with pos := predict dt a b h.pos h.vx h.vy }

/-- A live context at an instant (R262): its new bytes, whether it is still live, whether it became disputed. -/
def State.trackStep (s : State) (c : List Byte) (k number : Nat) (dt : Int) (pl pt : Option Pose) (ds : List Det) :
    List Byte × Bool × Bool :=
  let w0 := fieldAt c 0 4
  let a0 := (hypOf (bytesAt c 0x20 64)).predicted dt pl pt
  let b0 := (hypOf (bytesAt c 0x60 64)).predicted dt pl pt
  let open1 := ds.filter fun d => !d.masked
  let age := (fieldAt c 4 4 + 1) % 2 ^ 32
  let was := w0.testBit 25
  match anchor open1 with
  | none =>
    let miss := fieldAt c 8 2 + 1
    let live := decide (miss < s.get F.FUS_TRACK_CFG_drop_instants)
    let clear := min 3 (w0 / 2 ^ 28 % 4 + 1)
    let disputed := was && decide (clear < s.get F.FUS_CONTRA_dispute_clear)
    (ctxHead k (bitAt live 0) (bitAt disputed 0) 0 clear age miss 0 number a0.bytes b0.bytes ++ bytesAt c 0xA0 96, live, false)
  | some x =>
    let clA := open1.filter (s.inClusterA x)
    let clB := open1.filter fun d => !s.inClusterA x d
    let contra := !clB.isEmpty
    let run : Nat := if contra then min 3 (w0 / 2 ^ 26 % 4 + 1) else 0
    let clear : Nat := if contra then 0 else min 3 (w0 / 2 ^ 28 % 4 + 1)
    let disputed := if was then decide (clear < s.get F.FUS_CONTRA_dispute_clear) else decide (run = 3)
    let a := s.clusterHyp clA ds disputed
    let b := if disputed ∧ contra then s.clusterHyp clB ds disputed else b0
    (ctxHead k 1 (bitAt disputed 0) run clear age (fieldAt c 8 2) (sensorMask (detSensors open1)) number a.bytes b.bytes
      ++ bytesAt c 0xA0 96, true, disputed && !was)

/-- The live contexts updated in ascending number (R262, R263). -/
def State.fusTracks (s : State) (number : Nat) (dt : Int) (pl pt : Option Pose) (ds : List Det) : State × Bool :=
  s.fus.live.foldl
    (fun (p : State × Bool) k =>
      let a := s.fusTrackBase + 256 * k
      let r := p.1.load a 256
      let drop := fun (s : State) =>
        { s with fus := { s.fus with live := setDel s.fus.live k } }
      if r.2.2 then (((drop r.1).put F.FUS_FAULT_cause 1).put F.FUS_FAULT_context k, p.2)
      else
        let t := s.trackStep r.2.1 k number dt pl pt (ds.filter fun d => !d.new && decide (d.ctx = k))
        let s1 := r.1.store a t.1
        (if t.2.1 then s1 else drop s1, p.2 || t.2.2)) (s, false)

/-- The lowest context number that is free. -/
def freeContext (live : List Nat) : Nat := live.foldl (fun k n => if n = k then k + 1 else k) 0

/-- Detections marked new given contexts; others that name no live context ignored and counted (R263). -/
def State.newTracks (s : State) (number : Nat) (live0 : List Nat) (ds : List Det) : State :=
  ds.foldl
    (fun s d =>
      if d.new then
        let k := freeContext s.fus.live
        if d.masked ∨ 262144 ≤ k then s
        else
          let a := s.fusTrackBase + 256 * k
          let b := ctxHead k 1 0 0 0 0 0 (2 ^ d.sensor) number (s.clusterHyp [d] [d] false).bytes (List.replicate 64 0#8)
          { s.store a b with fus := { s.fus with live := setAdd s.fus.live k } }
      else if live0.contains d.ctx then s
      else s.inputErr) s

/-! ### An instant processed (R264 to R268) -/

/-- The late inputs that an instant settles, with their actions (R267). -/
def State.lateSettled (s : State) (p : Instant) (r : Nat) (uses : List FusUse) : List (FusLate × Nat) :=
  (s.fus.late.filter fun l => decide (l.inp.pos ≤ r)).map fun l =>
    if (s.fusSensor l.inp.sensor).inWindow p.t l.inp.ts then (l, 2)
    else if (uses.any fun u => u.folded && decide (u.inp = some l.inp)) then (l, 1)
    else (l, 3)

/-- The result header (R265). The pose of an unposed time is not stated. -/
def fusHeader (p : Instant) (r flags open' masked tracks folded : Nat) (pose : Option Pose) : List Byte :=
  leBytes 4 p.number ++ leBytes 4 flags ++ leBytes 8 p.t ++ leBytes 8 r ++ leBytes 8 (sensorMask (p.outs.map (·.1)))
    ++ leBytes 8 masked
    ++ (match pose with | some q => leBytes 8 p.t ++ poseBytes q | none => leBytes 60 open')
    ++ leBytes 4 tracks ++ leBytes 4 folded ++ leBytes 20 0

/-- The block faulted by an uncorrectable word of the state grid. -/
def State.fusFault (s : State) : State :=
  ((s.fusFailAll.put F.FUS_FAULT_cause 2).put F.FUS_STATUS_state 3).raise pgFUS Ev.FUS_block_fault

/-- Late inputs settled: records committed, inputs that the release has made late, entries that now need a place. -/
def State.fusLateEnd (s : State) (p : Instant) (r : Nat) (settled : List (FusLate × Nat)) : State :=
  let s1 := settled.foldl (fun s e => s.correction e.1 e.2 p.number) s
  let folded := (settled.filter fun e => decide (e.2 = 1)).length
  let rest := s1.fus.late.filter fun l => decide (r < l.inp.pos)
  let s2 := { s1 with fus := { s1.fus with late := rest.filter (·.lane) } }.satAdd F.FUS_LATE_folded folded
  let s3 := (rest.filter fun l => !l.lane).foldl State.lateEnter s2
  s3.fus.inputs.foldl State.lateCheck s3

/-- Results written and the job ended (R264 steps 6 and 7, R266). -/
def State.fusResult (s : State) (p : Instant) (r : Nat) (parts : List (List Byte × Nat)) (failed : Bool)
    (settled : List (FusLate × Nat)) : State :=
  let s1 := parts.foldl (fun s e => if e.1.isEmpty then s else s.store e.2 e.1) s
  let digest := digest64 (parts.flatMap (·.1))
  let s2 := s1.modJob p.queue p.index fun j =>
    let j1 := j.hubTile digest
    if failed then j1.ended 0x07 0 else { j1 with stage := .ended }
  let s3 := { s2 with fus := { s2.fus with
    pending := s2.fus.pending.drop 1
    released := s2.fus.released ++ [(p.number, p.t, r)]
    tLast := some p.t } }
  let s4 := ((s3.put F.FUS_INSTANT_number p.number).put F.FUS_TRACKS_live s3.fus.live.length).fusShow
  ((s4.fusLateEnd p r settled).raise pgFUS Ev.FUS_released)

/-- Steps 3 to 7 of R264; `missing` are the sensors whose inputs did not come in time. -/
def State.fusProcess (s : State) (p : Instant) (r : Nat) (missing : List Nat) : State :=
  let f := (Config.freeOf [264, p.number, p.t, r], s)
  let s0 := f.2
  if s0.poisonedAt s0.fusStateBase (4 * s0.fusW * s0.fusH) then s0.fusFault
  else
    let lim := s0.poseUpTo r
    let at1 := fun t => lim.bind fun n => s0.poseAt f.1 t n
    let uses := (s0.fusUses f.1 (lim.getD 0) p r missing).map fun u => if lim.isNone then { u with pose := none } else u
    let pt := at1 p.t
    let pl := s0.fus.tLast.bind at1
    let cells := s0.fuseGrid uses pt pl
    let ds := s0.fusDets uses pt p.t
    let settled := s0.lateSettled p r uses
    let s1 := s0.storeRaw s0.fusStateBase (cells.flatMap fun c => leBytes 4 c.keep)
    let tr := s1.fusTracks p.number ((p.t : Int) - s0.fus.tLast.getD p.t) pl pt ds
    let s2 := tr.1.newTracks p.number s0.fus.live ds
    let maskedNow := (uses.filter (·.masked)).map (·.sensor)
    let before := s.get F.FUS_MASKED_LO_masked + 2 ^ 32 * s.get F.FUS_MASKED_HI_masked
    let s3 := uses.foldl (fun s u => s.fusAccount cells p u) s2
    let s4 := (s3.put F.FUS_MASKED_LO_masked (sensorMask maskedNow)).put F.FUS_MASKED_HI_masked (sensorMask maskedNow / 2 ^ 32)
    let s5 := (s4.raiseIf (cells.any (·.fresh) || tr.2) pgFUS Ev.FUS_disputed_new).raiseIf
      (maskedNow.any fun j => !before.testBit j) pgFUS Ev.FUS_sensor_masked
    let poison := uses.any (·.poison)
    let failed := poison || !missing.isEmpty
    let s6 := s5.raiseIf failed pgFUS Ev.FUS_incomplete
    let list := s6.fus.live.take p.maxTr
    let tracks := if p.flags.testBit 1 then list.flatMap fun k => cellRead s6.mem (s6.fusTrackBase + 256 * k) 256 else []
    let flags := bitAt (!missing.isEmpty) 0 + bitAt poison 1 + bitAt (p.flags.testBit 1 && decide (p.maxTr < s6.fus.live.length)) 2
    let head := fusHeader p r flags f.1 (sensorMask maskedNow) (if p.flags.testBit 1 then list.length else 0)
      (settled.filter fun e => decide (e.2 = 1)).length pt
    let grid := if p.flags.testBit 0 then cells.flatMap fun c => leBytes 4 c.word else []
    let marked := { s6 with fus := { s6.fus with inputs := s6.fus.inputs.map fun (i : FusIn) =>
      if (uses.any fun u => u.inp.any fun (x : FusIn) => decide (x.sensor = i.sensor ∧ x.seq = i.seq)) then { i with used := true } else i } }
    marked.ringCheck.fusResult p r [(head, p.header), (grid, p.grid), (tracks, p.list)] failed settled

/-- The oldest pending instant, when its R is fixed. -/
def State.fusHead (s : State) : Option (Instant × Nat) :=
  match s.fus.pending with
  | p :: _ => p.r.map fun r => (p, r)
  | [] => none

/-- INSTANT_INPUTS_READY (R254, R264): every input that R254 asks for is present. -/
def execInstantInputsReady (s : State) : Result :=
  .next (match s.fusHead with
    | none => s
    | some (p, r) => if s.fusValid.all (s.inputsHere p r) then s.fusProcess p r [] else s)

/-- INSTANT_DEADLINE (R266): the job's deadline passes while inputs are missing; their sensors are masked. -/
def execInstantDeadline (s : State) : Result :=
  .next (match s.fusHead with
    | none => s
    | some (p, r) =>
      let missing := s.fusValid.filter fun j => !s.inputsHere p r j
      let limited : Bool := match s.job p.queue p.index with
        | some j => j.deadline != 0
        | none => false
      if missing = [] ∨ !limited then s else s.fusProcess p r missing)

end Sys2Proof.Machine
end

