-- ==== Sys2Proof/Machine/Geometry.lean ====
section
/-! DEFINITION. The geometry of the collision engine in exact rational arithmetic, in millimetres: capsules, primitives,
triangles, boxes, their distances and bounds, the hit test of R279 (R275 to R279, R285). -/

namespace Sys2Proof.Machine

/-- A point or vector in mm. -/
structure RV where
  x : Rat
  y : Rat
  z : Rat

def RV.add (a b : RV) : RV := ⟨a.x + b.x, a.y + b.y, a.z + b.z⟩
def RV.sub (a b : RV) : RV := ⟨a.x - b.x, a.y - b.y, a.z - b.z⟩
def RV.smul (k : Rat) (a : RV) : RV := ⟨k * a.x, k * a.y, k * a.z⟩
def RV.dot (a b : RV) : Rat := a.x * b.x + a.y * b.y + a.z * b.z
def RV.cross (a b : RV) : RV := ⟨a.y * b.z - a.z * b.y, a.z * b.x - a.x * b.z, a.x * b.y - a.y * b.x⟩
def RV.sq (a : RV) : Rat := a.dot a

/-- A finite value as a rational. -/
def Val.toRat : Val → Rat
  | .fin n m e => let x : Rat := if 0 ≤ e then ((m * 2 ^ e.toNat : Nat) : Rat) else (m : Rat) / ((2 ^ (-e).toNat : Nat) : Rat); if n then -x else x
  | _ => 0

/-- An FP32 number as a rational, and a length in metres as mm. -/
def ratOf (x : Nat) : Rat := (f32v x).toRat
def mmOf (x : Nat) : Rat := 1000 * ratOf x

/-! ### Squared distances -/

/-- A rational put into [0, 1]. -/
def unit01 (t : Rat) : Rat := max 0 (min 1 t)

/-- From a point to a segment. -/
def pointSeg (p a b : RV) : Rat :=
  let d := b.sub a
  let t := if d.sq = 0 then 0 else unit01 ((p.sub a).dot d / d.sq)
  (p.sub (a.add (RV.smul t d))).sq

/-- The smallest of a list, `d` for an empty one. -/
def ratMin (d : Rat) (l : List Rat) : Rat := l.foldl min d

/-- Between two segments. -/
def segSeg (a b c d : RV) : Rat :=
  let u := b.sub a
  let v := d.sub c
  let r := a.sub c
  let den := u.sq * v.sq - u.dot v * u.dot v
  let ends := ratMin (pointSeg a c d) [pointSeg b c d, pointSeg c a b, pointSeg d a b]
  if den = 0 then ends
  else
    let s := (u.dot v * v.dot r - u.dot r * v.sq) / den
    let t := (u.sq * v.dot r - u.dot v * u.dot r) / den
    if 0 ≤ s ∧ s ≤ 1 ∧ 0 ≤ t ∧ t ≤ 1 then min ends ((r.add (RV.smul s u)).sub (RV.smul t v)).sq else ends

/-- Does the foot of `p` on the plane of a triangle with normal `n` lie in it? -/
def inTriangle (p a b c n : RV) : Bool :=
  decide (0 ≤ ((b.sub a).cross (p.sub a)).dot n ∧ 0 ≤ ((c.sub b).cross (p.sub b)).dot n ∧ 0 ≤ ((a.sub c).cross (p.sub c)).dot n)

/-- From a segment to a triangle as a surface. -/
def segTri (p q a b c : RV) : Rat :=
  let n := (b.sub a).cross (c.sub a)
  let edges := ratMin (segSeg p q a b) [segSeg p q b c, segSeg p q c a]
  if n.sq = 0 then edges
  else
    let dp := (p.sub a).dot n
    let dq := (q.sub a).dot n
    let foot := fun (x : RV) (d : Rat) => if inTriangle x a b c n then [d * d / n.sq] else []
    let cut := dp - dq
    let cross := if cut ≠ 0 ∧ dp * dq ≤ 0 ∧ inTriangle (p.add (RV.smul (dp / cut) (q.sub p))) a b c n then [0] else []
    ratMin edges (foot p dp ++ foot q dq ++ cross)

/-- A solid box: centre and three half-axis vectors. -/
structure RBox where
  c : RV
  a : RV
  b : RV
  d : RV

/-- Is a point inside a box? A box without volume has no inside of its own. -/
def RBox.inside (k : RBox) (p : RV) : Bool :=
  let r := p.sub k.c
  let det := k.a.dot (k.b.cross k.d)
  let u := r.dot (k.b.cross k.d) / det
  let v := k.a.dot (r.cross k.d) / det
  let w := k.a.dot (k.b.cross r) / det
  decide (det ≠ 0 ∧ -1 ≤ u ∧ u ≤ 1 ∧ -1 ≤ v ∧ v ≤ 1 ∧ -1 ≤ w ∧ w ≤ 1)

/-- The two triangles of each face of a box. -/
def RBox.triangles (k : RBox) : List (RV × RV × RV) :=
  [(k.a, k.b, k.d), (k.b, k.d, k.a), (k.d, k.a, k.b)].flatMap fun f =>
    [(1 : Rat), -1].flatMap fun s =>
      let m := k.c.add (RV.smul s f.1)
      let p := fun (x y : Rat) => (m.add (RV.smul x f.2.1)).add (RV.smul y f.2.2)
      [(p 1 1, p 1 (-1), p (-1) (-1)), (p 1 1, p (-1) (-1), p (-1) 1)]

/-- From a segment to a solid box. -/
def segBox (p q : RV) (k : RBox) : Rat :=
  if k.inside p ∨ k.inside q then 0
  else ratMin (pointSeg k.c p q) (k.triangles.map fun t => segTri p q t.1 t.2.1 t.2.2)

/-! ### Capsules, items (R275, R276, R285) -/

/-- A capsule: ends, radius, time slot, and its 16 bytes. -/
structure Capsule where
  p     : RV
  q     : RV
  r     : Rat
  slot  : Nat
  bytes : List Byte

/-- A capsule of 16 bytes, in centimetres. -/
def capsuleOf (b : List Byte) : Capsule :=
  let c := fun k => (10 : Rat) * (toSigned 16 (fieldAt b (2 * k) 2) : Int)
  { p := ⟨c 0, c 1, c 2⟩, q := ⟨c 3, c 4, c 5⟩, r := 10 * (fieldAt b 12 2 : Nat), slot := fieldAt b 14 1, bytes := bytesAt b 0 16 }

/-- Does a capsule keep to R285? -/
def capsuleOk (b : List Byte) : Bool :=
  decide (1 ≤ fieldAt b 12 2 ∧ fieldAt b 12 2 ≤ 1000 ∧ fieldAt b 14 1 < 16 ∧ fieldAt b 15 1 = 0)

/-- The `n` capsules of a chain. -/
def chainOf (b : List Byte) (n : Nat) : List Capsule := (List.range n).map fun k => capsuleOf (bytesAt b (16 * k) 16)

/-- Does a chain of `n` capsules keep to R285? -/
def chainOk (b : List Byte) (n : Nat) : Bool :=
  decide (1 ≤ n ∧ n ≤ 16) && (List.range n).all fun k => capsuleOk (bytesAt b (16 * k) 16)

/-- The three FP32 values at an offset. -/
def v3At (b : List Byte) (o : Nat) : V3 := ⟨fieldAt b o 4, fieldAt b (o + 4) 4, fieldAt b (o + 8) 4⟩
def q4At (b : List Byte) (o : Nat) : Q4 := ⟨fieldAt b o 4, fieldAt b (o + 4) 4, fieldAt b (o + 8) 4, fieldAt b (o + 12) 4⟩

def V3.toMm (v : V3) : RV := ⟨mmOf v.x, mmOf v.y, mmOf v.z⟩

/-- rotate of R233 in exact arithmetic. -/
def ratRotate (q : Q4) (v : RV) : RV :=
  let u : RV := ⟨ratOf q.x, ratOf q.y, ratOf q.z⟩
  let s := RV.smul 2 (u.cross v)
  (v.add (RV.smul (ratOf q.w) s)).add (u.cross s)

/-- What an item of the world occupies: a solid around a point or a segment, a box, a triangle; none: geometry that R279
says nothing of (a reserved type, a value that is no number, a coordinate beyond ±327.67 m). -/
inductive Solid where
  | round (p q : RV) (r : Rat)
  | box (k : RBox)
  | tri (a b c : RV)
  | unstated

/-- Is an FP32 coordinate a number within ±327.67 m? -/
def inRange (x : Nat) : Bool := f32isFin x && decide (-327670 ≤ mmOf x ∧ mmOf x ≤ 327670)

/-- The solid of a primitive (R275). -/
def primSolid (b : List Byte) : Solid :=
  let p := v3At b 8
  let q := v3At b 0x14
  let r := q4At b 0x20
  let xyz := fun (v : V3) => [v.x, v.y, v.z].all inRange
  match fieldAt b 0 1 with
  | 1 =>
    if xyz p && xyz q && [r.w, r.x, r.y, r.z].all f32isFin then
      .box ⟨p.toMm, ratRotate r ⟨mmOf q.x, 0, 0⟩, ratRotate r ⟨0, mmOf q.y, 0⟩, ratRotate r ⟨0, 0, mmOf q.z⟩⟩
    else .unstated
  | 2 => if xyz p && inRange r.w then .round p.toMm p.toMm (mmOf r.w) else .unstated
  | 3 => if xyz p && xyz q && inRange r.w then .round p.toMm q.toMm (mmOf r.w) else .unstated
  | _ => .unstated

/-- A vertex of a triangle in the planning frame (R276): FP32 operations under R99. -/
def vertex (inst b : List Byte) (k : Nat) : V3 :=
  let c := fun i => fMul 0x3C23D70A (f32ofInt (toSigned 16 (fieldAt b (6 * k + 2 * i) 2)))
  (rotate (q4At inst 0) ⟨c 0, c 1, c 2⟩).add (v3At inst 0x10)

/-- The solid of a triangle of an instance. -/
def triSolid (inst b : List Byte) : Solid :=
  let v := fun k => vertex inst b k
  if ((List.range 3).all fun k => inRange (v k).x && inRange (v k).y && inRange (v k).z) then
    .tri (v 0).toMm (v 1).toMm (v 2).toMm
  else .unstated

/-- Squared distance from a capsule's segment to a solid's core, and the solid's own radius. -/
def Solid.away (c : Capsule) : Solid → Option (Rat × Rat)
  | .round p q r => some (segSeg c.p c.q p q, r)
  | .box k => some (segBox c.p c.q k, 0)
  | .tri a b d => some (segTri c.p c.q a b d, 0)
  | .unstated => none

/-- The inputs of a test, for the verdicts that R279 leaves open. -/
def testKey (c : Capsule) (item : List Byte) (margin : Nat) : List Nat := margin :: (c.bytes ++ item).map (·.toNat)

/-- The hit test of R279: certain up to r + margin, never beyond 2 mm more, open between. -/
def hits (c : Capsule) (k : Solid) (item : List Byte) (margin : Nat) : Bool :=
  match k.away c with
  | none => Config.hitBand (testKey c item margin)
  | some (d, r) =>
    let t := c.r + margin + r
    let u := t + 2
    decide (0 ≤ t ∧ d ≤ t * t) || (decide (0 ≤ u ∧ d ≤ u * u) && Config.hitBand (testKey c item margin))

/-- The x, y bound of a solid: lowest x, lowest y, highest x, highest y. -/
def Solid.bound : Solid → Option (Rat × Rat × Rat × Rat)
  | .round p q r => some (min p.x q.x - r, min p.y q.y - r, max p.x q.x + r, max p.y q.y + r)
  | .box k =>
    let ex := |k.a.x| + |k.b.x| + |k.d.x|
    let ey := |k.a.y| + |k.b.y| + |k.d.y|
    some (k.c.x - ex, k.c.y - ey, k.c.x + ex, k.c.y + ey)
  | .tri a b c => some (min a.x (min b.x c.x), min a.y (min b.y c.y), max a.x (max b.x c.x), max a.y (max b.y c.y))
  | .unstated => none

/-- Cells of a row whose closed intervals [o + i c, o + (i + 1) c] meet [lo, hi]: first and last, unclipped. -/
def cellSpan (lo hi o c : Rat) : Int × Int := (((lo - o) / c).ceil - 1, ((hi - o) / c).floor)

/-- The cells of a 128 × 128 grid between two spans, in ascending j and then i. -/
def cellsIn (sx sy : Int × Int) : List Nat :=
  let r := fun (p : Int × Int) => (List.range 128).filter fun (i : Nat) => decide (p.1 ≤ (i : Int) ∧ (i : Int) ≤ p.2)
  (r sy).flatMap fun j => (r sx).map fun i => 128 * j + i

end Sys2Proof.Machine
end

