-- ==== Sys2Proof/Machine/Collision.lean ====
section
/-! DEFINITION. The collision engine: its enable, publications of world sets, the reflex grid, reflex queries (R272 to R289,
R306 to R310). -/

namespace Sys2Proof.Machine

/-! ### Places (R273, R286) -/

def State.wsAt (s : State) (b : Nat) : Nat := s.coll.ws + b * 0x1000000
def State.triAt (s : State) : Nat := s.coll.tri
def State.rfxAt (s : State) (port : Nat) : Nat := s.coll.rfx + 512 * port

/-- The bases of COLL read from their registers, as at an enable (R310). -/
def State.collBases (s : State) : State :=
  { s with coll := { s.coll with
      ws := s.addr F.COLL_WS_BASE_LO_base
      tri := s.addr F.COLL_TRI_BASE_LO_base
      rfx := s.addr F.COLL_RFX_BASE_LO_base } }

/-- The parts of one world-set buffer: offset and bytes. -/
def wsParts : List (Nat × Nat) :=
  [(0, 256), (0x1000, 65536 * 48), (0x400000, 4096 * 64), (0x500000, 65536 * 32), (0x700000, 262144 * 4), (0x800000, 16384 * 128)]

/-- The regions that the base registers of COLL place. -/
def State.collRegions (s : State) : List (Nat × Nat) :=
  ([0, 1].flatMap fun b => wsParts.map fun p => (s.wsAt b + p.1, p.2))
    ++ [(s.triAt, 1048576 * 24), (s.triAt + 0x1800000, 262144 * 32), (s.rfxAt 0, 64 * 512)]

/-- The plan slots (R303): where they stand while PLAN runs, otherwise where its base registers put them. -/
def State.planRegion (s : State) : Nat × Nat :=
  (if s.flag F.PLAN_CTRL_enable then s.plan.base else s.addr F.PLAN_SLOT_BASE_LO_base, 64 * 0x2000)

/-- Do two regions share an address? -/
def meet (p q : Nat × Nat) : Bool := decide (p.1 < q.1 + q.2 ∧ q.1 < p.1 + p.2)

/-- Do no two regions of a list meet? -/
def apart : List (Nat × Nat) → Bool
  | [] => true
  | p :: l => l.all (fun q => !meet p q) && apart l

/-- Do the bases of COLL keep to R310, the slot region among the others? -/
def State.collBasesOk (s : State) : Bool :=
  let l := s.collRegions ++ [s.planRegion]
  l.all (fun p => s.inHub p.1 p.2) && apart l && s.wsAt 0 % 0x2000000 == 0 && s.triAt % 0x4000000 == 0

/-- COLL_ENABLE (R310): setting the bit reads the bases and checks them, or is refused. -/
def execCollEnable (acc : Acc) (s : State) : Result :=
  .next (s.command pgCOLL 0x020 acc fun s w =>
    if w.getLsbD 0 then
      if s.flag F.COLL_CTRL_enable then s
      else if s.collBases.collBasesOk then (s.collBases.put F.COLL_CTRL_enable 1).put F.COLL_STATUS_state 1
      else s.put F.COLL_STATUS_cfg_err 1
    else (s.put F.COLL_CTRL_enable 0).put F.COLL_STATUS_state 0)

/-! ### World sets (R274 to R277) -/

/-- The header of a buffer as the engine uses it: counts, root, t_ref, grid origin and cell side in mm. -/
structure WsHead where
  prims : Nat
  insts : Nat
  nodes : Nat
  refs  : Nat
  root  : Nat
  tRef  : Nat
  ox    : Rat
  oy    : Rat
  cell  : Rat

def wsHeadOf (h : List Byte) : WsHead :=
  ⟨fieldAt h 4 4, fieldAt h 8 4, fieldAt h 0xC 4, fieldAt h 0x10 4, fieldAt h 0x14 4, fieldAt h 0x18 8,
    mmOf (fieldAt h 0x20 4), mmOf (fieldAt h 0x24 4), mmOf (fieldAt h 0x28 4)⟩

/-- Does a buffer header keep to R274? The root is an index of the top tree (R282, cause 4). -/
def wsHeadOk (h : List Byte) : Bool :=
  h.take 4 == [0x56#8, 0x57#8, 0x53#8, 0x31#8]
    && decide (fieldAt h 4 4 ≤ 65536 ∧ fieldAt h 8 4 ≤ 4096 ∧ 1 ≤ fieldAt h 0xC 4 ∧ fieldAt h 0xC 4 ≤ 65536 ∧ fieldAt h 0x10 4 ≤ 262144)
    && f32isFin (fieldAt h 0x20 4) && f32isFin (fieldAt h 0x24 4)
    && fWithin 0x3E800000 0x40000000 (fieldAt h 0x28 4)
    && (bytesAt h 0x2E 210).all (· == 0#8)

def State.wsHead (s : State) (b : Nat) : WsHead := wsHeadOf (s.bytes (s.wsAt b) 256)

def State.primAt (s : State) (b i : Nat) : Nat := s.wsAt b + 0x1000 + 48 * i
def State.instAt (s : State) (b i : Nat) : Nat := s.wsAt b + 0x400000 + 64 * i
def State.nodeAt (s : State) (b i : Nat) : Nat := s.wsAt b + 0x500000 + 32 * i
def State.leafAt (s : State) (b i : Nat) : Nat := s.wsAt b + 0x700000 + 4 * i
def State.cellAt (s : State) (b i : Nat) : Nat := s.wsAt b + 0x800000 + 128 * i
def State.triangleAt (s : State) (i : Nat) : Nat := s.triAt + 24 * i
def State.meshAt (s : State) (i : Nat) : Nat := s.triAt + 0x1800000 + 32 * i

/-- The instance records of a buffer. -/
def State.instances (s : State) (b : Nat) : List (List Byte) :=
  (List.range (s.wsHead b).insts).map fun i => s.bytes (s.instAt b i) 64

/-- Does an instance name triangle `t`? -/
def instNames (i : List Byte) (t : Nat) : Bool := decide (fieldAt i 0x24 4 ≤ t ∧ t < fieldAt i 0x24 4 + fieldAt i 0x28 4)

/-- A node as a traversal reads it: leaf, first child or item, item count (R277). -/
def nodeLeaf (n : List Byte) : Bool := (fieldAt n 0x18 4).testBit 31
def nodeFirst (n : List Byte) : Nat := fieldAt n 0x18 4 % 2 ^ 31
def nodeCount (n : List Byte) : Nat := fieldAt n 0x1C 4 % 16

/-- The nodes of the top tree that a walk from the root meets, those beyond the count as well. -/
def State.topWalk (s : State) (b n : Nat) : Nat → List Nat → List Nat → List Nat
  | 0, _, seen => seen
  | _ + 1, [], seen => seen
  | f + 1, k :: rest, seen =>
    if seen.contains k then s.topWalk b n f rest seen
    else
      let d := s.bytes (s.nodeAt b k) 32
      if n ≤ k ∨ nodeLeaf d then s.topWalk b n f rest (k :: seen)
      else s.topWalk b n f (nodeFirst d :: (nodeFirst d + 1) :: rest) (k :: seen)

/-- Why the build of a buffer's grid fails (R282), if it does: cause 5 where a word it reads is uncorrectable, otherwise cause 4
where an index exceeds its count or an instance leaves the pool. -/
def State.buildCause (s : State) (b : Nat) : Option Nat :=
  let h := s.wsHead b
  let seen := s.topWalk b h.nodes (2 * h.nodes + 3) [h.root] []
  let nodes := (seen.filter fun k => decide (k < h.nodes)).map fun k => s.bytes (s.nodeAt b k) 32
  let leaves := nodes.filter nodeLeaf
  let spans := leaves.map fun d => (nodeFirst d, nodeCount d)
  let refs := (spans.filter fun p => decide (p.1 + p.2 ≤ h.refs)).flatMap fun p =>
    (List.range p.2).map fun i => s.peekNat (s.leafAt b (p.1 + i)) 4
  let insts := s.instances b
  let bad := s.poisonedAt (s.wsAt b) 256 || s.poisonedAt (s.primAt b 0) (48 * h.prims) || s.poisonedAt (s.instAt b 0) (64 * h.insts)
    || seen.any (fun k => s.poisonedAt (s.nodeAt b k) 32) || spans.any (fun p => s.poisonedAt (s.leafAt b p.1) (4 * p.2))
    || insts.any (fun i => s.poisonedAt (s.triangleAt (fieldAt i 0x24 4)) (24 * min (fieldAt i 0x28 4) 1048576))
  let out := seen.any (fun k => decide (h.nodes ≤ k))
    || spans.any (fun p => decide (p.2 = 0 ∨ 8 < p.2 ∨ h.refs < p.1 + p.2))
    || refs.any (fun r => if r.testBit 31 then decide (h.insts ≤ r % 65536) else decide (h.prims ≤ r % 65536))
    || insts.any (fun i => decide (1048576 < fieldAt i 0x24 4 + fieldAt i 0x28 4 ∨ 262144 ≤ fieldAt i 0x20 4))
  if bad then some 5 else if out then some 4 else none

/-! ### The reflex grid (R284) -/

/-- The cells that an item belongs to. -/
def itemCells (h : WsHead) (margin : Nat) (k : Solid) (bytes : List Byte) : List Nat :=
  match k.bound with
  | some (lx, ly, hx, hy) =>
    cellsIn (cellSpan (lx - margin) (hx + margin) h.ox h.cell) (cellSpan (ly - margin) (hy + margin) h.oy h.cell)
  | none => (List.range 16384).filter fun c => Config.hitBand (c :: margin :: bytes.map (·.toNat))

/-- The items of a buffer in reference order, each with its cells: primitives, then the triangles that instances name. -/
def State.gridItems (s : State) (b margin : Nat) : List (Nat × List Nat) :=
  let h := s.wsHead b
  let insts := s.instances b
  ((List.range h.prims).map fun i =>
      let p := s.bytes (s.primAt b i) 48
      (i, itemCells h margin (primSolid p) p))
    ++ ((List.range 1048576).filter fun t => insts.any fun i => instNames i t).map fun t =>
      let d := s.bytes (s.triangleAt t) 24
      (2 ^ 23 + t, (insts.filter fun i => instNames i t).flatMap fun i => itemCells h margin (triSolid i d) (i ++ d))

/-- The 128 bytes of a cell that these references meet. -/
def cellBytes (refs : List Nat) : List Byte :=
  let held := refs.take 32
  BitVec.ofNat 8 held.length :: (if 32 < refs.length then 1#8 else 0#8) :: 0#8 :: 0#8
    :: (held.flatMap (leBytes 3) ++ List.replicate (96 - 3 * held.length) 0#8 ++ List.replicate 28 0#8)

/-- The reflex grid of a buffer built: every cell written; the saturated cells counted. -/
def State.buildGrid (s : State) (b margin : Nat) : State × Nat :=
  let items := s.gridItems b margin
  let cells := (List.range 16384).map fun c => (c, (items.filter fun i => i.2.contains c).map (·.1))
  let full := cells.filter fun c => !c.2.isEmpty
  (full.foldl (fun s c => s.poke (s.cellAt b c.1) (cellBytes c.2)) (s.zero (s.cellAt b 0) (16384 * 128)),
    (full.filter fun c => decide (32 < c.2.length)).length)

/-! ### Publication (R280 to R283) -/

/-- COLL_STATUS shows the current buffer and the buffers in use. -/
def State.collShow (s : State) : State :=
  (s.put F.COLL_STATUS_current (s.coll.current.getD 0)).put F.COLL_STATUS_in_use
    ((if s.coll.inUse.contains 0 then 1 else 0) + if s.coll.inUse.contains 1 then 2 else 0)

/-- A fence object named by COLL_PUB_FENCE or COLL_RETIRE_FENCE raised by 1 while its signal is enabled. -/
def State.collSignal (s : State) (valid object : Fld) : State := if s.flag valid then s.fenceAdd (s.get object) 1 else s

/-- A failed PUBLISH (R282): recorded, and its list stops with the collision error status (R306). -/
def State.publishFail (s : State) (j : Job) (b cause : Nat) : State :=
  let s1 := ((s.put F.COLL_ERR_cause cause).put F.COLL_ERR_buffer b).raise pgCOLL Ev.COLL_publish_refused
  let s2 := s1.raiseIf (cause == 5) pgCOLL Ev.COLL_uncorrectable
  s2.commandFailed j.queue j.index

/-- Has a job plan queries that have not ended? -/
def State.planOpen (s : State) (j : Job) : Bool := s.plan.queries.any fun q => decide (q.queue = j.queue ∧ q.index = j.index)

/-- PUBLISH (R280, step 1; R306): taken while COLL runs, no other grid is being built and the plan queries before it in its
list have ended. The header is checked, the margin read and the build begun. -/
def execPublish (id : JobId) (s : State) : Result :=
  .next (s.listCommand id 5 (fun o => decide (o = 1)) fun s j c =>
    if !s.flag F.COLL_CTRL_enable ∨ s.coll.building.isSome ∨ s.planOpen j then s
    else
      let b := fieldAt c 1 1
      let h := s.load (s.wsAt (b % 2)) 256
      if 1 < b ∨ (c.drop 2).any (· != 0#8) then s.publishFail j (b % 2) 1
      else if s.coll.current = some b ∨ s.coll.inUse.contains b then s.publishFail j b 2
      else if h.2.2 then h.1.publishFail j b 5
      else if !wsHeadOk h.2.1 then h.1.publishFail j b 1
      else
        { (h.1.modJob j.queue j.index fun j => { j with busy := true }).put F.COLL_STATUS_state 2 with coll := { s.coll with
            building := some (b, j.queue, j.index)
            margins := tabSet s.coll.margins b (s.get F.COLL_MARGIN_mm) } })

/-- The build under way ended; the engine runs on. -/
def State.buildOver (s : State) : State :=
  { s.put F.COLL_STATUS_state (if s.flag F.COLL_CTRL_enable then 1 else 0) with coll := { s.coll with building := none } }

/-- A buffer made current (R280, step 3): the epoch advances, past 65,535 to 1, and is written into the header. -/
def State.makeCurrent (s : State) (b sat : Nat) : State :=
  let e := if s.get F.COLL_EPOCH_epoch = 65535 then 1 else s.get F.COLL_EPOCH_epoch + 1
  let s1 := { s with coll := { s.coll with
      current := some b
      inUse := setAdd s.coll.inUse b
      sat := tabSet s.coll.sat b sat } }
  (((s1.put F.COLL_EPOCH_epoch e).pokeNat (s.wsAt b + 0x2C) 2 e).put F.COLL_SAT_CELLS_cells sat).collShow

/-- GRID_BUILD_DONE (R280, steps 2 to 4): the build fails under R282, or the grid stands, the buffer becomes current and the
publication is recorded and signalled. In replay it waits for its recorded fence position (R307). -/
def execGridBuildDone (s : State) : Result :=
  .next (match s.coll.building with
    | none => s
    | some (b, q, i) =>
      match s.buildCause b with
      | some c =>
        match s.job q i with
        | some j => s.buildOver.publishFail j b c
        | none => s.buildOver
      | none =>
        if s.replaying ∧ !s.replayTurn (fun r => decide (r.kind = 0x0B ∧ r.src = b)) then s
        else
          let g := s.buildGrid b (tabGet s.coll.margins b 100)
          let s1 := if s.replaying then g.1.replayTake else g.1
          let s2 := s1.buildOver.makeCurrent b g.2
          let s3 := s2.publish 0x0B 0 b (s2.get F.COLL_EPOCH_epoch) 0 0
          let s4 := s3.collSignal F.COLL_PUB_FENCE_valid F.COLL_PUB_FENCE_object
          let s5 := (s4.raise pgCOLL Ev.COLL_published).raiseIf (0 < g.2) pgCOLL Ev.COLL_saturated
          s5.commandDone q i none)

/-- Does any sweep, reflex query or final-check attempt use a buffer (R283)? -/
def State.bufUsed (s : State) (b : Nat) : Bool :=
  s.coll.running.any (fun r => decide (r.2.buf = some b))
    || s.plan.queries.any (fun q => decide ((q.phase = .sweeping ∧ q.buf = some b) ∨ q.attempt.any fun a => decide (a.2 = some b)))
    || s.plan.tails.any fun t => decide (t.2.2 = some b)

/-- RETIRE (R280, step 5): a previous buffer that nothing uses any more is retired and the retirement signalled. -/
def execRetire (s : State) : Result :=
  .next (match s.coll.inUse.find? fun b => decide (s.coll.current ≠ some b) && !s.bufUsed b with
    | none => s
    | some b =>
      { s with coll := { s.coll with inUse := setDel s.coll.inUse b } }.collShow.collSignal
        F.COLL_RETIRE_FENCE_valid F.COLL_RETIRE_FENCE_object)

/-! ### Reflex checks (R285 to R289) -/

/-- The outcome of a reflex check. -/
structure Rfx where
  hit       : Bool := false
  refused   : Bool := false
  saturated : Bool := false
  out       : Bool := false
  poisoned  : Bool := false
  capsule   : Nat := 0
  item      : Nat := 0
  object    : Nat := 0
deriving DecidableEq, Repr

/-- Is every flag clear that fails a final check (R297)? -/
def Rfx.clear (r : Rfx) : Bool := !(r.hit || r.refused || r.saturated || r.out || r.poisoned)

/-- The spans of a capsule's x, y bound widened by its radius, in mm. -/
def Capsule.span (c : Capsule) : (Rat × Rat) × (Rat × Rat) :=
  ((min c.p.x c.q.x - c.r, max c.p.x c.q.x + c.r), (min c.p.y c.q.y - c.r, max c.p.y c.q.y + c.r))

/-- The cells that a capsule's bound meets, in the order of R288. -/
def Capsule.cells (h : WsHead) (c : Capsule) : List Nat :=
  cellsIn (cellSpan c.span.1.1 c.span.1.2 h.ox h.cell) (cellSpan c.span.2.1 c.span.2.2 h.oy h.cell)

/-- Does a capsule's bound leave the grid? -/
def Capsule.leaves (h : WsHead) (c : Capsule) : Bool :=
  decide (c.span.1.1 < h.ox ∨ h.ox + 128 * h.cell < c.span.1.2 ∨ c.span.2.1 < h.oy ∨ h.oy + 128 * h.cell < c.span.2.2)

/-- A capsule tested against the item of a reference: nothing where a word reads poisoned, else whether it hits, and the object. -/
def State.testRef (s : State) (b : Nat) (c : Capsule) (ref : Nat) : Option (Bool × Nat) :=
  let m := tabGet s.coll.margins b 100
  if ref.testBit 23 then
    let d := s.peek (s.triangleAt (ref % 2 ^ 20)) 24
    let named := (List.range (s.wsHead b).insts).filter fun i => instNames (s.bytes (s.instAt b i) 64) (ref % 2 ^ 20)
    if d.2 ∨ named.any fun i => s.poisonedAt (s.instAt b i) 64 then none
    else some (named.any fun i =>
      let x := s.bytes (s.instAt b i) 64
      hits c (triSolid x d.1) (x ++ d.1) m, 0)
  else
    let p := s.peek (s.primAt b (ref % 2 ^ 20)) 48
    if p.2 then none
    else some ((fieldAt p.1 2 2).testBit c.slot && hits c (primSolid p.1) p.1 m, fieldAt p.1 4 4)

/-- The items of a cell tested in stored order. -/
def State.testRefs (s : State) (b : Nat) (c : Capsule) : List Nat → Option Rfx
  | [] => none
  | r :: rest =>
    match s.testRef b c r with
    | none => some { poisoned := true }
    | some (true, object) => some { hit := true, item := r, object := object }
    | some (false, _) => s.testRefs b c rest

/-- A cell visited: what ends the query there, if anything does. -/
def State.visitCell (s : State) (b : Nat) (c : Capsule) (cell : Nat) : Option Rfx :=
  let d := s.peek (s.cellAt b cell) 128
  if d.2 then some { poisoned := true }
  else if (d.1.getD 1 0#8).getLsbD 0 then some { hit := true, saturated := true }
  else s.testRefs b c ((List.range (min 32 (fieldAt d.1 0 1))).map fun k => fieldAt d.1 (4 + 3 * k) 3)

/-- A capsule checked: bytes and whether they read poisoned. -/
def State.checkCapsule (s : State) (b : Nat) (x : List Byte × Bool) : Option Rfx :=
  let c := capsuleOf x.1
  let h := s.wsHead b
  if x.2 ∨ s.poisonedAt (s.wsAt b) 64 then some { poisoned := true }
  else if c.leaves h then some { hit := true, out := true }
  else (c.cells h).findSome? (s.visitCell b c)

/-- The capsules of a chain checked in order, from number `k` on. -/
def State.checkChain (s : State) (b : Nat) : Nat → List (List Byte × Bool) → Rfx
  | _, [] => {}
  | k, x :: rest =>
    match s.checkCapsule b x with
    | some r => { r with capsule := k }
    | none => s.checkChain b (k + 1) rest

/-- Is a chain refused (R288), or does a capsule of it break R285 (assumption 33)? -/
def State.chainRefused (s : State) (b : Nat) (chain : List (List Byte × Bool)) : Bool :=
  let sound := chain.filter fun x => !x.2
  let counts := sound.map fun x => ((capsuleOf x.1).cells (s.wsHead b)).length
  sound.any (fun x => !capsuleOk x.1) || counts.any (16 < ·) || decide (128 < counts.sum)

/-- A reflex check of a chain on an epoch and its buffer (R288). -/
def State.reflexCheck (s : State) (epoch : Nat) (buf : Option Nat) (chain : List (List Byte × Bool)) : Rfx :=
  match buf with
  | none => { refused := true }
  | some b =>
    if epoch = 0 ∨ s.chainRefused b chain then { refused := true }
    else s.checkChain b 0 chain

/-- The capsules of a chain at an address, each with its poison. -/
def State.chainAt (s : State) (a n : Nat) : List (List Byte × Bool) :=
  (List.range n).map fun k => s.peek (a + 16 * k) 16

/-- The ports that a unit serves (R289). -/
def unitPort (u p : Nat) : Bool :=
  if u = 0 then decide (p < 4) else if u = 1 then decide (4 ≤ p ∧ p < 8) else decide (8 ≤ p)

/-- REFLEX_QUERY (R287, R289): a free unit takes the query of its group whose control word arrived first; go and done clear, the
epoch and its buffer are taken (R283). -/
def execReflexQuery (u : Fin 6) (s : State) : Result :=
  .next (match s.coll.waiting.find? (unitPort u.val) with
    | none => s
    | some p =>
      if !s.flag F.COLL_CTRL_enable ∨ (tabFind s.coll.running u.val).isSome then s
      else
        let a := s.rfxAt p
        let clear := fun (s : State) (a : Nat) => s.pokeNat a 4 (let v := s.peekNat a 4; v / 2 * 2)
        { clear (clear s a) (a + 0x180) with coll := { s.coll with
            waiting := s.coll.waiting.erase p
            running := tabSet s.coll.running u.val ⟨p, s.get F.COLL_EPOCH_epoch, s.coll.current⟩ } })

/-- The verdict word of R286, done set. -/
def Rfx.word (r : Rfx) : Nat :=
  1 + (if r.hit then 2 else 0) + (if r.refused then 4 else 0) + (if r.saturated then 8 else 0) + (if r.out then 16 else 0)
    + (if r.poisoned then 32 else 0) + 256 * r.capsule

/-- The verdict fields of a port's slot (bytes 0x180 to 0x193). -/
def Rfx.bytes (r : Rfx) (epoch : Nat) (tag : List Byte) : List Byte :=
  leBytes 4 r.word ++ leBytes 2 epoch ++ [0#8, 0#8] ++ leBytes 4 r.item ++ leBytes 4 r.object ++ tag

/-- What a port's query finds: the control word read again for its capsule count. Other bits of it that are set refuse the query
(assumption 33). -/
def State.portCheck (s : State) (r : RfxRun) : Rfx :=
  let a := s.rfxAt r.port
  let c := s.peek a 4
  let w := leNat c.1
  if c.2 then { poisoned := true }
  else if w / 256 ≠ 0 ∨ w / 2 % 8 ≠ 0 then { refused := true }
  else s.reflexCheck r.epoch r.buf (s.chainAt (a + 0x20) (w / 16 % 16 + 1))

/-- REFLEX_VERDICT (R288): the query on a unit ends, its verdict is written and done is set; `ns` is its latency. -/
def execReflexVerdict (u : Fin 6) (ns : Nat) (s : State) : Result :=
  .next (match tabFind s.coll.running u.val with
    | none => s
    | some q =>
      let a := s.rfxAt q.port
      let r := s.portCheck q
      let s1 := { s with coll := { s.coll with running := tabDel s.coll.running u.val } }
      let s2 := (s1.poke (a + 0x180) (r.bytes q.epoch (s.bytes (a + 4) 4))).count F.COLL_RFX_COUNT_count 1
      let s3 := if r.hit then s2.count F.COLL_RFX_HITS_count 1 else s2
      let s4 := if r.refused then (s3.count F.COLL_RFX_REFUSED_count 1).raise pgCOLL Ev.COLL_rfx_refused else s3
      (s4.raiseIf r.poisoned pgCOLL Ev.COLL_uncorrectable).putMax F.COLL_RFX_MAX_NS_ns ns)

end Sys2Proof.Machine
end

