-- ==== Sys2Proof/Machine/XOps.lean ====
section
/-! DEFINITION. Sending over Xagus: frames, links, routes (R411, R412, R416), and the twin's digest frames (R425 to R427). -/

namespace Sys2Proof.Machine

/-- Link `l`. -/
def State.xl (s : State) (l : Nat) : XLinkSt := tabGet s.xgs.links l {}

/-- Link `l` replaced. -/
def State.setXl (s : State) (l : Nat) (v : XLinkSt) : State :=
  { s with xgs := { s.xgs with links := tabSet s.xgs.links l v } }

/-- The virtual channel of a frame type (R411): requests 0, responses 1, collectives 2, twin and safety 3. -/
def xVc (typ : Nat) : Nat :=
  if typ = 3 ∨ typ = 4 ∨ typ = 6 then 1 else if typ = 9 ∨ typ = 10 then 2 else if typ = 11 ∨ typ = 12 then 3 else 0

/-- Does a frame of this type carry payload words? Requests, acknowledgements and signals do not. -/
def xPayload (typ : Nat) : Bool := typ == 1 || typ == 3 || (decide (7 ≤ typ ∧ typ ≤ 12))

/-- Header bits [1279:1216] of a frame. -/
def xHdr (f : XFrame) : BitVec 64 := f.typ ++ f.src ++ f.dst ++ f.vc ++ f.words ++ f.operand

/-- Does the header CRC of a frame hold (R411)? -/
def xCrcOk (f : XFrame) : Bool := f.hcrc == crc16w 64 (xHdr f)

/-- Payload words of a frame as bytes, least significant first. -/
def xBytes (f : XFrame) : List Byte := f.payload.flatMap fun l => leBytes 32 l.toNat

/-- Bytes as payload words. -/
def lineWords (bs : List Byte) : List Line :=
  (List.range ((bs.length + 31) / 32)).map fun k => BitVec.ofNat 256 (leNat (bytesAt bs (32 * k) 32))

/-- A frame of up to four words for destination `dst`; `poison` bit by bit. -/
def mkFrame (typ src dst operand poison : Nat) (payload : List Byte) : XFrame :=
  let ws := lineWords payload
  { typ := BitVec.ofNat 6 typ
    src := BitVec.ofNat 5 src
    dst := BitVec.ofNat 5 dst
    vc := BitVec.ofNat 2 (xVc typ)
    words := BitVec.ofNat 2 (ws.length - 1)
    operand := BitVec.ofNat 44 operand
    hcrc := 0#16
    seq := 0#12
    ack := 0#12
    fecOk := true
    poison := BitVec.ofNat 4 poison
    payload := ws
    code := [] }

/-- Is a link in relinking (R556)? -/
def State.relinking (s : State) (l : Nat) : Bool := (tabFind s.farm.relink l).isSome

/-- Does a frame of this type wait in the retry buffer of a link? Until the link is up every frame does, to be replayed then (R413); in
relinking all but HELLO and link-state frames do (R556). -/
def State.xWaits (s : State) (l typ : Nat) : Bool :=
  s.get (F.XL_STATUS_state l) != 2 || (s.relinking l && !(typ == 7 || typ == 8))

/-- A frame put on the lanes of a link. -/
def State.xEmit (s : State) (l : Nat) (f : XFrame) : State :=
  s.emit .xagusFrame [l, f.typ.toNat, f.src.toNat, f.dst.toNat, f.vc.toNat, f.words.toNat, f.operand.toNat, f.seq.toNat, f.ack.toNat,
    f.poison.toNat, f.creditVc.toNat, f.credits.toNat] (xBytes f)

/-- The credit that the next frame of a link returns (R411): for the lowest virtual channel that it owes some. -/
def XLinkSt.returns (k : XLinkSt) : Nat × Nat :=
  match k.owed with
  | [] => (0, 0)
  | (v, n) :: _ => (v, min n 1023)

/-- A frame leaves on a link: numbered, its CRC formed, credit returned, kept until it is acknowledged (R411, R412). -/
def State.xPut (s : State) (l : Nat) (f : XFrame) : State :=
  let k := s.xl l
  let c := k.returns
  let g := { f with
    hcrc := crc16w 64 (xHdr f)
    seq := BitVec.ofNat 12 k.nextTx
    ack := BitVec.ofNat 12 k.lastRx
    creditVc := BitVec.ofNat 2 c.1
    credits := BitVec.ofNat 10 c.2 }
  let left := tabGet k.owed c.1 0 - c.2
  let s1 := s.setXl l { k with
    nextTx := (k.nextTx + 1) % 4096
    retry := k.retry ++ [g]
    owed := if left = 0 then tabDel k.owed c.1 else tabSet k.owed c.1 left }
  let s2 := if xPayload f.typ.toNat then s1.count (F.XL_TX_WORDS_count l) (f.words.toNat + 1) else s1
  if s.xWaits l f.typ.toNat then s2 else s2.xEmit l g

/-- A frame sent on a link; it waits while the retry buffer holds 256 frames (R412). -/
def State.xTransmit (s : State) (l : Nat) (f : XFrame) : State :=
  let k := s.xl l
  if 256 ≤ k.retry.length ∨ k.held ≠ [] then s.setXl l { k with held := k.held ++ [f] } else s.xPut l f

/-- Frames that waited for room in the retry buffer sent in their order. -/
def State.xDrain (s : State) (l : Nat) : State :=
  (s.xl l).held.foldl (fun s f => s.xTransmit l f) (s.setXl l { s.xl l with held := [] })

/-- This device's domain ID. -/
def State.xId (s : State) : Nat := s.get F.XGS_STATUS_id

/-- Is the domain formed and this device in it? -/
def State.xReady (s : State) : Bool := s.get F.XGS_STATUS_state == 3

/-- Can member `i` be reached? -/
def State.xReach (s : State) (i : Nat) : Bool := s.xReady && decide (i ≠ s.xId) && (tabFind s.xgs.members i).isSome

/-- A frame sent towards a member on the first link of its route (R416); nothing where no route leads there. -/
def State.xSend (s : State) (f : XFrame) : State :=
  match tabFind s.xgs.members f.dst.toNat with
  | some m => s.xTransmit m.link f
  | none => s

/-! ### The twin's digests (R425, R426) -/

/-- Is this module one of a formed twin pair? -/
def State.twinPair (s : State) : Bool :=
  s.xReady && s.flag F.XGS_DOMAIN_twin && s.xgs.members.any fun m => decide (m.1 ≠ s.xId) && m.2.twin

/-- Is a plan slot a twin slot? -/
def State.twinSlot (s : State) (slot : Nat) : Bool :=
  (s.get F.XGS_TWIN_SLOTS_LO_slots + 2 ^ 32 * s.get F.XGS_TWIN_SLOTS_HI_slots).testBit slot

/-- Do result flags make a paired result one with a local fault (R427, first case)? -/
def twinBadFlags (flags : Nat) : Bool := flags.testBit 1 && (flags.testBit 4 || flags.testBit 5)

/-- The payload word of a twin digest frame (layout of assumption 32): slot, flags, pairing index, query number, digest. -/
def twinBytes (r : TwinRes) : List Byte :=
  padTo 32 (leBytes 4 r.slot ++ leBytes 4 r.flags ++ leBytes 4 r.index ++ leBytes 4 r.number ++ leBytes 8 r.digest)

/-- A frame sent on both links of the pair. -/
def State.twinFrame (s : State) (typ : Nat) (payload : List Byte) : State :=
  let f := mkFrame typ s.xId (1 - s.xId) 0 0 payload
  (s.xTransmit 6 f).xTransmit 7 f

/-- A result of a twin slot that became visible: it takes the next pairing index, its local fault flag is told ahead of it, and
its digest goes out on XL6 and XL7 (R425 to R427). -/
def State.twinSend (s : State) (slot number flags digest : Nat) : State :=
  if s.twinPair ∧ s.twinSlot slot then
    let i := (tabGet s.twin.index slot 0 + 1) % 2 ^ 32
    let bad := twinBadFlags flags || s.twin.jobFault || s.twin.islFault
    let r : TwinRes := ⟨slot, i, number, flags, digest, bad⟩
    let s1 := { s with twin := { s.twin with
      index := tabSet s.twin.index slot i
      own := s.twin.own ++ [r] } }
    let s2 := if bad then s1.twinFrame 12 (padTo 32 (leBytes 4 2 ++ leBytes 4 slot ++ leBytes 4 i)) else s1
    s2.twinFrame 11 (twinBytes r)
  else s

end Sys2Proof.Machine
end

