-- ==== Sys2Proof/Machine/Plan.lean ====
section
/-! DEFINITION. The plan engine: roadmaps, plan queries, sweeps, selection, final checks, results (R290 to R307, R309). -/

namespace Sys2Proof.Machine

/-! ### Roadmaps (R290, R291) -/

/-- Roadmap fields at an image address: edges, nodes, layers, the node words, the edge records. -/
def State.rmEdges (s : State) (m : Nat) : Nat := s.peekNat (m + 4) 2
def State.rmNodes (s : State) (m : Nat) : Nat := s.peekNat (m + 6) 2
def State.rmLayers (s : State) (m : Nat) : Nat := s.peekNat (m + 8) 1
def State.rmNode (s : State) (m i : Nat) : Nat := s.peekNat (m + 0x40 + 4 * i) 4
def State.rmEdgeAt (s : State) (m e : Nat) : Nat := m + (0x40 + 4 * s.rmNodes m + 31) / 32 * 32 + 288 * e
def State.rmEdge (s : State) (m e : Nat) : List Byte := s.bytes (s.rmEdgeAt m e) 288

/-- Fields of an edge record. -/
def edgeFrom (b : List Byte) : Nat := fieldAt b 0 2
def edgeTo (b : List Byte) : Nat := fieldAt b 2 2
def edgeLayer (b : List Byte) : Nat := fieldAt b 4 1
def edgeCaps (b : List Byte) : Nat := fieldAt b 5 1
def edgeStop (b : List Byte) : Nat := fieldAt b 6 2

/-- Does the header of an image keep to R290? -/
def rmHeaderOk (h : List Byte) : Bool :=
  h.take 4 == [0x56#8, 0x52#8, 0x4D#8, 0x31#8]
    && decide (1 ≤ fieldAt h 4 2 ∧ fieldAt h 4 2 ≤ 16384 ∧ 2 ≤ fieldAt h 6 2 ∧ fieldAt h 6 2 ≤ 16384 ∧ 1 ≤ fieldAt h 8 1 ∧ fieldAt h 8 1 ≤ 64)
    && (bytesAt h 9 55).all (· == 0#8)

/-- Layer and terminal bit of a node word. -/
def nodeLayer (w : Nat) : Nat := w % 128
def nodeTerminal (w : Nat) : Bool := w.testBit 8

/-- Does node `i` keep to R290 and R291? -/
def rmNodeOk (i w : Nat) : Bool :=
  decide (nodeLayer w ≤ 64 ∧ w / 512 = 0) && !w.testBit 7 && ((i == 0) == (nodeLayer w == 0))

/-- Does an edge keep to R290 and R291, `prev` being the layer of the edge before it? -/
def State.rmEdgeOk (s : State) (m prev : Nat) (b : List Byte) : Bool :=
  decide (edgeFrom b < s.rmNodes m ∧ edgeTo b < s.rmNodes m ∧ edgeLayer b < s.rmLayers m ∧ prev ≤ edgeLayer b)
    && nodeLayer (s.rmNode m (edgeFrom b)) == edgeLayer b && nodeLayer (s.rmNode m (edgeTo b)) == edgeLayer b + 1
    && chainOk (bytesAt b 0x20 256) (edgeCaps b) && (bytesAt b 8 24).all (· == 0#8)
    && !(edgeLayer b == 0 && edgeStop b == 0xFFFF)

/-- What a LOAD finds wrong with an image: the index of the first offending node or edge, 0 for the image as a whole. -/
def State.rmFault (s : State) (m : Nat) : Option Nat :=
  let h := s.peek m 64
  let size := s.rmEdgeAt m (s.rmEdges m) - m
  if m % 32 ≠ 0 ∨ !s.inHub m 64 ∨ h.2 ∨ !rmHeaderOk h.1 ∨ !s.inHub m size ∨ s.poisonedAt m size then some 0
  else
    match (List.range (s.rmNodes m)).find? fun i => !rmNodeOk i (s.rmNode m i) with
    | some i => some i
    | none =>
      if !(List.range (s.rmNodes m)).any fun i => nodeTerminal (s.rmNode m i) then some 0
      else
        (List.range (s.rmEdges m)).find? fun e =>
          !s.rmEdgeOk m (if e = 0 then 0 else edgeLayer (s.rmEdge m (e - 1))) (s.rmEdge m e)

/-- The bank halves that sweep, those of ended queries as well (R300). -/
def State.planHalves (s : State) : List Nat :=
  (s.plan.queries.filter fun q => decide (q.phase = .sweeping)).flatMap (·.halves) ++ s.plan.tails.flatMap (·.2.1)

/-- PLAN_STATUS shows state, sweeping halves and queries in flight; only PLAN_CTRL.resume and a reset end state faulted. -/
def State.planShow (s : State) : State :=
  let st := if s.get F.PLAN_STATUS_state = 3 then 3 else if !s.flag F.PLAN_CTRL_enable then 0
    else if s.plan.queries.isEmpty then 1 else 2
  let held := s.planHalves
  ((s.put F.PLAN_STATUS_state st).put F.PLAN_STATUS_halves ((if held.contains 0 then 1 else 0) + if held.contains 1 then 2 else 0)).put
    F.PLAN_STATUS_in_flight (min s.plan.queries.length 63)

/-- LOAD (R291, R306): taken while PLAN runs and the plan queries before it in its list have ended; it then waits for its
roadmap slot. -/
def execLoad (id : JobId) (s : State) : Result :=
  .next (s.listCommand id 5 (fun o => decide (o = 2)) fun s j _ =>
    if !s.flag F.PLAN_CTRL_enable ∨ s.planOpen j ∨ s.plan.loading.isSome then s
    else { s.modJob j.queue j.index fun j => { j with busy := true } with
      plan := { s.plan with loading := some (j.queue, j.index) } })

/-- A LOAD refused: recorded, and its list stops with the collision error status. -/
def State.loadFail (s : State) (j : Job) (cause index : Nat) (bad : Bool) : State :=
  let s1 := ((s.put F.PLAN_ERR_cause cause).put F.PLAN_ERR_index index).raise pgPLAN Ev.PLAN_load_refused
  (s1.raiseIf bad pgPLAN Ev.PLAN_uncorrectable).commandFailed j.queue j.index

/-- ROADMAP_CHECK (R291): with its slot free of plan queries, the image is checked and bound, or refused and the slot's previous
binding kept. -/
def execRoadmapCheck (id : JobId) (s : State) : Result :=
  .next (match s.jobOf id with
    | none => s
    | some j =>
      let c := (s.commandBytes j).2
      let slot := fieldAt c.1 1 1
      let m := fieldAt c.1 8 8
      if s.plan.loading ≠ some (j.queue, j.index) ∨ s.plan.queries.any (fun q => decide (q.rm = slot)) then s
      else
        let s1 := { s with plan := { s.plan with loading := none } }
        if 1 < slot ∨ c.2 ∨ (bytesAt c.1 2 6).any (· != 0#8) ∨ (c.1.drop 16).any (· != 0#8) then s1.loadFail j 4 0 c.2
        else
          match s.rmFault m with
          | some i => s1.loadFail j 1 i (s.poisonedAt m 64)
          | none => { s1 with plan := { s1.plan with maps := tabSet s1.plan.maps slot m } }.commandDone j.queue j.index none)

/-! ### Taking a query (R292 to R299, R306) -/

/-- A plan list stopped with a status at command `cmd`: no further command is taken; the job ends when its queries have ended. -/
def State.planStop (s : State) (q i status cmd : Nat) : State :=
  s.modJob q i fun j => { j.report status cmd 0 with cmd := max j.cmd j.listCount }

/-- A plan job ends once its list is at its end, or an abort stops it, and no query of it is open. -/
def State.planJobCheck (s : State) (q i : Nat) : State :=
  match s.job q i with
  | none => s
  | some j =>
    if s.planOpen j ∨ j.stage ≠ .placed ∨ j.busy then s
    else if j.listCount ≤ j.cmd then s.setJob { j with stage := .ended }
    else if j.stopping then s.setJob (j.ended 0x0A 0)
    else s

/-- Stop record `k` of a table (R296). -/
def stopAt (table k : Nat) : Nat := table + 2048 * k

/-- Does a stop record keep to R296? -/
def stopOk (b : List Byte) : Bool :=
  let n := fieldAt b 0 2
  decide (1 ≤ n ∧ n ≤ 160) && chainOk (bytesAt b 0x20 256) (fieldAt b 2 1) && (bytesAt b 3 29).all (· == 0#8)
    && (b.drop (0x120 + 8 * n)).all (· == 0#8)

/-- Do a PLAN command's fields lie in range (R306)? -/
def State.planFieldsOk (s : State) (c : List Byte) : Bool :=
  match tabFind s.plan.maps (fieldAt c 2 1) with
  | none => false
  | some m =>
    decide (fieldAt c 1 1 < 64 ∧ fieldAt c 2 1 < 2 ∧ 1 ≤ fieldAt c 4 4 ∧ fieldAt c 4 4 ≤ 1000000 ∧ 1 ≤ fieldAt c 0x18 2 ∧ fieldAt c 0x18 2 ≤ 512)
      && fieldAt c 3 1 == 0 && (c.drop 0x1A).all (· == 0#8)
      && s.inMemory (fieldAt c 8 8) (4 * s.rmEdges m) && s.inHub (fieldAt c 0x10 8) (2048 * fieldAt c 0x18 2)

/-- Are the stop records that first edges name sound? A record with a poisoned word is left to the query (R298). -/
def State.planStopsOk (s : State) (m table count : Nat) : Bool :=
  (List.range (s.rmEdges m)).all fun e =>
    let b := s.rmEdge m e
    if edgeLayer b ≠ 0 then true
    else
      let r := s.peek (stopAt table (edgeStop b)) 2048
      decide (edgeStop b < count) && (r.2 || stopOk r.1)

/-- A PLAN command refused: recorded, and its list stops with the collision error status. -/
def State.planFail (s : State) (j : Job) (cause : Nat) : State :=
  ((s.put F.PLAN_ERR_cause cause).planStop j.queue j.index 8 j.cmd).planJobCheck j.queue j.index

/-- PLAN (R298, R306): the query is taken, numbered, and waits for the bank. The list goes on to its next command. -/
def execPlan (id : JobId) (s : State) : Result :=
  .next (s.listCommand id 5 (fun o => decide (o ≠ 1 ∧ o ≠ 2)) fun s j c =>
    if !s.flag F.PLAN_CTRL_enable then s
    else if s.get F.PLAN_STATUS_state = 3 then s.planFail j 5
    else if fieldAt c 0 1 ≠ 3 ∨ !s.planFieldsOk c then s.planFail j 4
    else
      let rm := fieldAt c 2 1
      let m := tabGet s.plan.maps rm 0
      if !s.planStopsOk m (fieldAt c 0x10 8) (fieldAt c 0x18 2) then s.planFail j 3
      else
        let slot := fieldAt c 1 1
        let n := (tabGet s.plan.numbers slot 0 + 1) % 2 ^ 32
        let q : PlanQ :=
          { queue := j.queue
            index := j.index
            cmd := j.cmd
            tile := j.plans
            slot := slot
            rm := rm
            number := n
            cost := fieldAt c 8 8
            stops := fieldAt c 0x10 8 }
        let took := fun (j : Job) => { j with
          cmd := j.cmd + 1
          plans := j.plans + 1 }
        { s.modJob j.queue j.index took with plan := { s.plan with
            numbers := tabSet s.plan.numbers slot n
            queries := s.plan.queries ++ [q] } }.planShow)

/-- Is this the query of a plan slot and number? -/
def PlanQ.is (q : PlanQ) (slot number : Nat) : Bool := decide (q.slot = slot ∧ q.number = number)

/-- A query replaced. -/
def State.setPlanQ (s : State) (q : PlanQ) : State :=
  { s with plan := { s.plan with queries := s.plan.queries.map fun x => if x.is q.slot q.number then q else x } }

/-- The oldest query of a slot. -/
def State.planOldest (s : State) (slot : Nat) : Option PlanQ := s.plan.queries.find? fun q => decide (q.slot = slot)

/-- The image of a query's roadmap. -/
def State.planMap (s : State) (q : PlanQ) : Nat := tabGet s.plan.maps q.rm 0

/-- The decision record of a query in the replay journal (R307). -/
def State.planRecord (s : State) (q : PlanQ) : Option (List Byte) :=
  (s.jrnFind fun r => decide (r.kind = 0x13 ∧ r.src = q.slot ∧ r.aux0 = q.number)).bind JRec.data

/-- May a part of a query that takes an epoch start? In replay it waits for the epoch at offset `o` of its decision record. -/
def State.epochDue (s : State) (q : PlanQ) (o : Nat) : Bool :=
  !s.replaying || (match s.planRecord q with
    | some b => fieldAt b o 2 == s.get F.COLL_EPOCH_epoch
    | none => true)

/-- SWEEP_START (R293): the oldest waiting query sweeps once the halves it needs are free; the current epoch, its buffer and the
leaf budget are taken. -/
def execSweepStart (slot : Fin 64) (s : State) : Result :=
  .next (match s.plan.queries.find? fun q => decide (q.phase = .waiting) with
    | none => s
    | some q =>
      let held := s.planHalves
      let free := [0, 1].filter fun h => !held.contains h
      let need := if 8192 < s.rmEdges (s.planMap q) then 2 else 1
      if q.slot ≠ slot.val ∨ free.length < need ∨ !s.epochDue q 8 then s
      else
        (s.setPlanQ { q with
          phase := .sweeping
          epoch := s.get F.COLL_EPOCH_epoch
          buf := s.coll.current
          budget := s.get F.PLAN_LEAF_BUDGET_leaves
          halves := free.take need }).planShow)

/-! ### Roadmap sweeps (R277, R292) -/

/-- What a traversal has yet to visit: a node of the top tree, a node of an instance's mesh tree, a leaf reference, a
triangle of an instance. -/
inductive Todo where
  | top (k : Nat)
  | mesh (i : List Byte) (k : Nat)
  | ref (k : Nat)
  | tri (i : List Byte) (k : Nat)

/-- The box of a node: lowest and highest corner in the frame of its tree. -/
def nodeBox (n : List Byte) : RV × RV := ((v3At n 0).toMm, (v3At n 0xC).toMm)

/-- A node's box as a solid, placed by an instance in a mesh tree. -/
def placedBox (inst : Option (List Byte)) (n : List Byte) : RBox :=
  let p := nodeBox n
  let c := RV.smul (1 / 2) (p.1.add p.2)
  let h := RV.smul (1 / 2) (p.2.sub p.1)
  match inst with
  | none => ⟨c, ⟨h.x, 0, 0⟩, ⟨0, h.y, 0⟩, ⟨0, 0, h.z⟩⟩
  | some i =>
    let q := q4At i 0
    ⟨(ratRotate q c).add (v3At i 0x10).toMm, ratRotate q ⟨h.x, 0, 0⟩, ratRotate q ⟨0, h.y, 0⟩, ratRotate q ⟨0, 0, h.z⟩⟩

/-- Does the traversal for a capsule visit a node (assumption 31)? -/
def visits (c : Capsule) (margin : Nat) (inst : Option (List Byte)) (n : List Byte) : Bool :=
  let fine := ((List.range 6).all fun k => inRange (fieldAt n (4 * k) 4))
  let t := c.r + margin
  (fine && decide (segBox c.p c.q (placedBox inst n) ≤ t * t)) || Config.nodeVisit (testKey c (inst.getD [] ++ n) margin)

/-- What a leaf of `n` items from `first` on puts before the rest. -/
def leafItems (mk : Nat → Todo) (n : List Byte) : List Todo := (List.range (nodeCount n)).map fun k => mk (nodeFirst n + k)

/-- What reading one thing to visit does: the edge is blocked (none), or whether a leaf was visited and what comes before the
rest. -/
def State.visitOne (s : State) (b : Nat) (c : Capsule) : Todo → Option (Bool × List Todo)
  | .top k =>
    let n := s.peek (s.nodeAt b k) 32
    if 65536 ≤ k ∨ n.2 then none
    else if !visits c (tabGet s.coll.margins b 100) none n.1 then some (false, [])
    else if nodeLeaf n.1 then some (true, leafItems .ref n.1)
    else some (false, [.top (nodeFirst n.1), .top (nodeFirst n.1 + 1)])
  | .mesh i k =>
    let n := s.peek (s.meshAt k) 32
    if 262144 ≤ k ∨ n.2 then none
    else if !visits c (tabGet s.coll.margins b 100) (some i) n.1 then some (false, [])
    else if nodeLeaf n.1 then some (true, leafItems (.tri i) n.1)
    else some (false, [.mesh i (nodeFirst n.1), .mesh i (nodeFirst n.1 + 1)])
  | .ref k =>
    let r := s.peek (s.leafAt b k) 4
    let w := leNat r.1
    if 262144 ≤ k ∨ r.2 then none
    else if w.testBit 31 then
      let i := s.peek (s.instAt b (w % 65536)) 64
      if 4096 ≤ w % 65536 ∨ i.2 then none else some (false, [.mesh i.1 (fieldAt i.1 0x20 4)])
    else
      let p := s.peek (s.primAt b (w % 65536)) 48
      if p.2 ∨ ((fieldAt p.1 2 2).testBit c.slot ∧ hits c (primSolid p.1) p.1 (tabGet s.coll.margins b 100)) then none
      else some (false, [])
  | .tri i k =>
    let d := s.peek (s.triangleAt k) 24
    if 1048576 ≤ k ∨ d.2 ∨ hits c (triSolid i d.1) (i ++ d.1) (tabGet s.coll.margins b 100) then none else some (false, [])

/-- A traversal for one capsule with `leaves` left of the budget: 1 blocked, 2 blocked on budget, otherwise the leaves left. A
traversal that `fuel` cannot end walks a tree that returns to itself; its edge is blocked (assumption 33). -/
def State.traverse (s : State) (b : Nat) (c : Capsule) : Nat → Nat → List Todo → Nat ⊕ Nat
  | 0, _, _ => .inl 1
  | _ + 1, leaves, [] => .inr leaves
  | f + 1, leaves, t :: rest =>
    match s.visitOne b c t with
    | none => .inl 1
    | some (false, more) => s.traverse b c f leaves (more ++ rest)
    | some (true, more) => if leaves = 0 then .inl 2 else s.traverse b c f (leaves - 1) (more ++ rest)

/-- Visits after which a traversal of trees within R273 has ended. -/
def traverseFuel : Nat := 2 ^ 40

/-- The capsules of an edge in order: 0 survived, 1 blocked, 2 blocked on budget. -/
def State.sweepChain (s : State) (b root : Nat) : Nat → List Capsule → Nat
  | _, [] => 0
  | leaves, c :: rest =>
    match s.traverse b c traverseFuel leaves [.top root] with
    | .inl v => v
    | .inr l => s.sweepChain b root l rest

/-- The verdict of an edge's checker. With no world there is nothing to hit. -/
def State.sweepEdge (s : State) (q : PlanQ) (e : Nat) : Nat :=
  let a := s.rmEdgeAt (s.planMap q) e
  let d := s.bytes a 288
  match q.buf with
  | none => 0
  | some b =>
    if s.poisonedAt a 288 ∨ s.poisonedAt (s.wsAt b) 64 then 1
    else s.sweepChain b (s.wsHead b).root q.budget (chainOf (bytesAt d 0x20 256) (edgeCaps d))

/-- The first sweep of a slot whose query has ended taken off the list. -/
def dropTail (slot : Nat) : List (Nat × List Nat × Option Nat) → List (Nat × List Nat × Option Nat)
  | [] => []
  | t :: l => if t.1 = slot then l else t :: dropTail slot l

/-- SWEEP_DONE (R292, R300): the oldest sweep of a slot ends after `ns`; its bank halves and buffer are free and the selection of its
query begins, if the query has not ended. -/
def execSweepDone (slot : Fin 64) (ns : Nat) (s : State) : Result :=
  .next (if s.plan.tails.any fun t => decide (t.1 = slot.val) then
      ({ s with plan := { s.plan with tails := dropTail slot.val s.plan.tails } }.putMax F.PLAN_SWEEP_MAX_NS_ns ns).planShow
    else
      match s.plan.queries.find? fun q => decide (q.slot = slot.val ∧ q.phase = .sweeping) with
      | none => s
      | some q =>
        let v := (List.range (s.rmEdges (s.planMap q))).map (s.sweepEdge q)
        ((s.setPlanQ { q with
          phase := .selecting
          edges := v }).putMax F.PLAN_SWEEP_MAX_NS_ns ns).planShow)

/-! ### Selection (R294, R295) -/

/-- A path put into a list in order of cost, after those of equal cost. -/
def putPath (p : Nat × List Nat) : List (Nat × List Nat) → List (Nat × List Nat)
  | [] => [p]
  | q :: l => if p.1 < q.1 then p :: q :: l else q :: putPath p l

/-- Paths in order of cost, equal ones as they stood; the first eight. -/
def bestPaths (l : List (Nat × List Nat)) : List (Nat × List Nat) := (l.foldl (fun a p => putPath p a) []).take 8

/-- An edge of the selection: number, from node, to node, layer, cost. -/
structure SelEdge where
  e     : Nat
  from' : Nat
  to'   : Nat
  layer : Nat
  cost  : Nat

/-- The edges that take part. -/
def State.selEdges (s : State) (q : PlanQ) : List SelEdge :=
  (List.range q.edges.length).filterMap fun e =>
    let b := s.rmEdge (s.planMap q) e
    let c := s.peekNat (q.cost + 4 * e) 4
    if q.edges.getD e 1 = 0 ∧ c ≠ 0xFFFFFFFF then some ⟨e, edgeFrom b, edgeTo b, edgeLayer b, c⟩ else none

/-- Candidates of a node: its incoming edges in ascending order, each extended by the paths of its from node in rank order. -/
def candidates (edges : List SelEdge) (lists : Tab (List (Nat × List Nat))) (n : Nat) : List (Nat × List Nat) :=
  (edges.filter fun e => decide (e.to' = n)).flatMap fun e =>
    (tabGet lists e.from' []).map fun p => ((p.1 + e.cost) % 2 ^ 64, p.2 ++ [e.e])

/-- The lists of every node after the layers in ascending order. -/
def pathLists (edges : List SelEdge) (layers : Nat) : Tab (List (Nat × List Nat)) :=
  (List.range layers).foldl
    (fun lists l =>
      let es := edges.filter fun e => decide (e.layer = l)
      (es.map (·.to')).foldl (fun t n => tabSet t n (bestPaths (candidates es lists n))) lists)
    [(0, [(0, [])])]

/-- The selected paths: complete paths by cost, then terminal node, then rank; the first eight. -/
def State.selectPaths (s : State) (q : PlanQ) : List (Nat × List Nat) :=
  let m := s.planMap q
  let lists := pathLists (s.selEdges q) (s.rmLayers m)
  let ends := (List.range (s.rmNodes m)).filter fun n => decide (0 < n) && nodeTerminal (s.rmNode m n)
  bestPaths (ends.flatMap fun n => tabGet lists n [])

/-! ### Results (R298, R301 to R304, R307) -/

/-- How a query ends: an attempt passed; kept (exhausted, no complete path, deadline, poisoned). -/
inductive PlanEnd where
  | passed | exhausted | noPath | deadline | poisoned
deriving DecidableEq, Repr

/-- The path of a rank. -/
def PlanQ.path (q : PlanQ) (rank : Nat) : Nat × List Nat := q.paths.getD rank (0, [])

/-- The stop record of a path: that named by its first edge. -/
def State.stopOf (s : State) (q : PlanQ) (path : List Nat) : Nat :=
  stopAt q.stops (edgeStop (s.rmEdge (s.planMap q) (path.headD 0)))

/-- Bytes 0x018 to 0x8FF of a valid result for the attempt of a rank. -/
def State.planBody (s : State) (q : PlanQ) (rank : Nat) (buf : Option Nat) : List Byte :=
  let p := q.path rank
  let blocked := q.edges.filter fun v => decide (v ≠ 0)
  leBytes 8 p.1 ++ leBytes 8 (match buf with
      | some b => (s.wsHead b).tRef
      | none => 0)
    ++ leBytes 1 p.2.length ++ leBytes 1 rank ++ leBytes 1 q.rm ++ [0#8] ++ leBytes 2 blocked.length
    ++ leBytes 2 (blocked.filter fun v => decide (v = 2)).length ++ List.replicate 16 0#8
    ++ p.2.flatMap (leBytes 2) ++ List.replicate (128 - 2 * p.2.length) 0xFF#8
    ++ List.replicate 64 0#8 ++ s.bytes (s.stopOf q p.2) 2048

/-- Bytes 0x00C to 0x8FF of a valid result: epochs, plan digest (R302), body. -/
def State.planValid (s : State) (q : PlanQ) (rank epoch : Nat) (buf : Option Nat) : List Byte :=
  let body := s.planBody q rank buf
  leBytes 2 q.epoch ++ leBytes 2 epoch ++ leBytes 8 (digest64 body).toNat ++ body

/-- The flags of a result (R301). -/
def planFlags (how : PlanEnd) (advanced prev : Bool) : Nat :=
  match how with
  | .passed => 1 + if advanced then 4 else 0
  | _ => 2 + (if how = .noPath then 8 else 0) + (if how = .deadline then 16 else 0) + (if how = .poisoned then 32 else 0)
      + if prev then 0 else 64

/-- The 4 KiB of a result. -/
def planResult (flags number : Nat) (kept : List Byte) : List Byte :=
  [0x56#8, 0x50#8, 0x52#8, 0x31#8] ++ leBytes 4 flags ++ leBytes 4 number ++ kept ++ List.replicate 1792 0#8

/-- Where the result of query `n` of a slot goes (R303). -/
def State.planAt (s : State) (slot n : Nat) : Nat := s.plan.base + 0x2000 * slot + 0x1000 * (n % 2)

/-- The result message to both islands for a slot that PLAN_ISLAND routes (R304). -/
def State.planTell (s : State) (slot number flags digest : Nat) (stop : List Byte) : State :=
  if (s.get F.PLAN_ISLAND_LO_slots + 2 ^ 32 * s.get F.PLAN_ISLAND_HI_slots).testBit slot then
    let m : PlanMsg := ⟨slot, number, flags, digest, stop, if s.twinPair && s.twinSlot slot then tabGet s.twin.index slot 0 else 0⟩
    { s with planMsgs := [0, 1].foldl (fun t i => tabSet t i (tabGet t i [] ++ [m])) s.planMsgs }
  else s

/-- The counters and events of a result. -/
def State.planCount (s : State) (flags : Nat) : State :=
  let s1 := s.count F.PLAN_RESULTS_count 1
  let s2 := if flags.testBit 1 then (s1.count F.PLAN_KEPT_count 1).raise pgPLAN Ev.PLAN_kept else s1
  ((s2.raiseIf (flags.testBit 2) pgPLAN Ev.PLAN_epoch_advanced).raiseIf (flags.testBit 3) pgPLAN Ev.PLAN_no_path).raiseIf
    (flags.testBit 5) pgPLAN Ev.PLAN_uncorrectable

/-- The decision record of a query (R307). -/
def planDecision (q : PlanQ) (outcome : Nat) : List Byte :=
  leBytes 1 q.slot ++ leBytes 1 q.epochs.length ++ leBytes 1 outcome ++ [0#8] ++ leBytes 4 q.number ++ leBytes 2 q.epoch
    ++ List.replicate 6 0#8 ++ q.epochs.flatMap (leBytes 2) ++ List.replicate (16 - 2 * q.epochs.length) 0#8

/-- A tile of a plan job's digest at the place of its command (R332). -/
def putTile (t : TileEnt) : List TileEnt → List TileEnt
  | [] => [t]
  | x :: l => if t.tile < x.tile then t :: x :: l else x :: putTile t l

/-- What a query's end leaves of its job: its tile, and a fault status for a poisoned one (R306). -/
def State.planTile (s : State) (q : PlanQ) (how : PlanEnd) (digest : Nat) : State :=
  let s1 := s.modJob q.queue q.index fun j =>
    if j.wantsDigest then { j with tiles := putTile ⟨0, q.tile, 0, 0, 0, digest64 (leBytes 8 digest)⟩ j.tiles } else j
  (if how = .poisoned then s1.planStop q.queue q.index 4 q.cmd else s1).planJobCheck q.queue q.index

/-- Queries taken off the engine; a sweep under way goes on to its end (R300). -/
def State.planDrop (s : State) (gone : PlanQ → Bool) : State :=
  let swept := s.plan.queries.filter fun q => gone q && decide (q.phase = .sweeping)
  { s with plan := { s.plan with
      queries := s.plan.queries.filter fun q => !gone q
      tails := s.plan.tails ++ swept.map fun q => (q.slot, q.halves, q.buf) } }

/-- A query ended: its result is written to its half, told to the islands and the twin, recorded, and its job goes on. `kept`
is what the slot holds after a valid result. -/
def State.planFinish (s : State) (q : PlanQ) (how : PlanEnd) (outcome flags : Nat) (kept : List Byte) : State :=
  let r := planResult flags q.number kept
  let digest := fieldAt kept 4 8
  let valid := decide (how = .passed)
  let s1 := (s.storeRaw (s.planAt q.slot q.number) r).planCount flags
  let s2 := s1.record 0x13 0 q.slot q.number 0 0 (planDecision q outcome)
  let s3 := s2.planDrop fun x => x.is q.slot q.number
  let s3 := { s3 with plan := { s3.plan with
      shown := tabSet s3.plan.shown q.slot (q.number, flags)
      last := if valid then tabSet s3.plan.last q.slot kept else s3.plan.last } }
  let s4 := (s3.twinSend q.slot q.number flags digest).planTell q.slot q.number flags digest
    (if valid then bytesAt kept (0x100 - 0xC) 2048 else [])
  (s4.planTile q how digest).planShow

/-- A query ended kept (R298): the last valid result is copied, or zeros where there is none. -/
def State.planKept (s : State) (q : PlanQ) (how : PlanEnd) : State :=
  let prev := tabFind s.plan.last q.slot
  let outcome := if how = .deadline then 9 else if how = .poisoned then 10 else 8
  s.planFinish q how outcome (planFlags how false prev.isSome) (prev.getD (List.replicate (0x900 - 0xC) 0#8))

/-- An uncorrectable word of the selector's own state (R309): PLAN is faulted and every query in flight ends kept, poisoned. -/
def State.planFault (s : State) : State :=
  let s1 := ((s.put F.PLAN_ERR_cause 5).put F.PLAN_STATUS_state 3).raise pgPLAN Ev.PLAN_block_fault
  s1.plan.queries.foldl (fun s q => s.planKept q .poisoned) s1

/-- Is one of the two plan selectors' units free (R289)? -/
def State.selectorFree (s : State) : Bool := decide ((s.plan.queries.filter fun q => q.attempt.isSome).length < 2)

/-- An attempt begun on the epoch current now (R297, R300), once a selector's unit is free (R289); in replay only once its recorded
epoch is (R307). -/
def State.attemptStart (s : State) (q : PlanQ) : State :=
  if s.selectorFree && s.epochDue q (0x10 + 2 * q.epochs.length) then
    s.setPlanQ { q with
      phase := .checking
      attempt := some (s.get F.COLL_EPOCH_epoch, s.coll.current) }
  else
    s.setPlanQ { q with
      phase := .checking
      attempt := none }

/-- SELECTION_DONE (R295): up to eight paths are selected and the first final check begins. A poisoned cost word ends the query
kept, poisoned; with no complete path it ends kept, no_path; a bad word of the selector's own state faults the engine (R309). -/
def execSelectionDone (e : SelectorEnd) (s : State) : Result :=
  .next (match s.planOldest e.slot.val with
    | none => s
    | some q =>
      if q.phase ≠ .selecting then s
      else if e.bad then s.planFault
      else if s.poisonedAt q.cost (4 * q.edges.length) then (s.put F.PLAN_ERR_cause 2).planKept q .poisoned
      else
        let paths := s.selectPaths q
        if paths.isEmpty then s.planKept q .noPath
        else s.attemptStart { q with paths := paths })

/-- The reflex checks of an attempt (R297): one per path edge, then the stop chain. -/
def State.attemptChecks (s : State) (q : PlanQ) (epoch : Nat) (buf : Option Nat) (path : List Nat) : List Rfx :=
  let stop := s.stopOf q path
  (path.map fun e =>
      let a := s.rmEdgeAt (s.planMap q) e
      s.reflexCheck epoch buf (s.chainAt (a + 0x20) (edgeCaps (s.bytes a 288))))
    ++ [s.reflexCheck epoch buf (s.chainAt (stop + 0x20) (s.peekNat (stop + 2) 1))]

/-- ATTEMPT_DONE (R297, R298): the attempt of a slot's query ends. A pass writes the result; otherwise the next rank is tried, or
the query ends kept, exhausted. A poisoned stop record ends it kept, poisoned; a bad word of the selector's own state faults the engine
(R309). -/
def execAttemptDone (e : SelectorEnd) (s : State) : Result :=
  .next (match s.planOldest e.slot.val with
    | none => s
    | some q =>
      if q.phase ≠ .checking then s
      else
        match q.attempt with
        | none => s.attemptStart q
        | some (epoch, buf) =>
          if e.bad then s.planFault else
          let rank := q.epochs.length
          let path := (q.path rank).2
          let q1 := { q with
            epochs := q.epochs ++ [epoch]
            attempt := none }
          let s1 := if rank = 0 then s else (s.count F.PLAN_FALLTHROUGH_count 1).raise pgPLAN Ev.PLAN_fallthrough
          if s.poisonedAt (s.stopOf q path) 2048 then s1.planKept q1 .poisoned
          else if (s.attemptChecks q epoch buf path).all Rfx.clear then
            s1.planFinish q1 .passed rank (planFlags .passed (epoch != q.epoch) true) (s.planValid q rank epoch buf)
          else if q1.epochs.length < q.paths.length then (s1.setPlanQ q1).attemptStart q1
          else s1.planKept q1 .exhausted)

/-- PLAN_DEADLINE (R298, R299): the deadline of a slot's oldest query passes before an attempt passed. In replay only a query whose
record says so ends this way, after the recorded attempts (R307). -/
def execPlanDeadline (slot : Fin 64) (s : State) : Result :=
  .next (match s.planOldest slot.val with
    | none => s
    | some q =>
      let due := !s.replaying || (match s.planRecord q with
        | some b => fieldAt b 2 1 == 9 && fieldAt b 1 1 == q.epochs.length
        | none => false)
      if due then s.planKept q .deadline else s)

/-! ### Running and stopping -/

/-- The first 16 bytes of both halves of every plan slot written as 0 (R303). -/
def State.clearSlots (s : State) : State :=
  (List.range 128).foldl (fun s k => s.storeRaw (s.planAt 0 0 + 0x1000 * k) (List.replicate 16 0#8)) s

/-- May the slot region stand where PLAN_SLOT_BASE puts it (R310)? -/
def State.planBaseOk (s : State) : Bool :=
  s.inHub s.planRegion.1 s.planRegion.2 && !(s.flag F.COLL_CTRL_enable && s.collRegions.any (meet s.planRegion))

/-- A write of PLAN_CTRL: resume leaves state faulted (R309); setting enable reads the slot base and clears every slot header before
any command is taken (R303), or is refused with cfg_err of COLL_STATUS, PLAN having none (R310; assumption 76). -/
def State.planCtrl (s : State) (w : Word) : State :=
  let s := if w.getLsbD 1 && s.get F.PLAN_STATUS_state == 3 then (s.put F.PLAN_STATUS_state 0).planShow else s
  if w.getLsbD 0 then
    if s.flag F.PLAN_CTRL_enable then s
    else if !s.planBaseOk then s.put F.COLL_STATUS_cfg_err 1
    else ({ s with plan := { s.plan with base := s.addr F.PLAN_SLOT_BASE_LO_base } }.clearSlots.put F.PLAN_CTRL_enable 1).planShow
  else (s.put F.PLAN_CTRL_enable 0).planShow

/-- PLAN_ENABLE (R303, R310). -/
def execPlanEnable (acc : Acc) (s : State) : Result := .next (s.command pgPLAN 0x020 acc State.planCtrl)

/-- PLAN_RESUME (R309). -/
def execPlanResume (acc : Acc) (s : State) : Result := .next (s.command pgPLAN 0x020 acc State.planCtrl)

end Sys2Proof.Machine
end

