-- ==== Sys2Proof/Machine/Host.lean ====
section
/-! DEFINITION. The host link: BAR2, reads of host memory, MSI, resets and loss of the link (R400 to R410, R432). -/

namespace Sys2Proof.Machine

/-! ### Apertures (R404, R417) -/

/-- The device address that offset `b` reaches through the sixteen apertures of a page (PCIE or XGS), whose first register lies
at `first`; none where the access is refused. -/
def State.aperture (s : State) (page first b : Nat) (write : Bool) : Option Nat :=
  let n := b / 2 ^ 32
  let w := s.regWord page (first + 4 * n)
  let a := (w.toNat % 65536) * 2 ^ 32 + b % 2 ^ 32
  let reach : Bool := match s.region a with
    | .dram | .hub | .stack _ => true
    | .pool _ => !touchesRedBuf a 1
    | _ => false
  if page = pgPCIE ∧ s.sec.boot.host ∧ !s.sec.boot.running then
    -- host boot (R530): aperture 0 reaches the boot buffer of 66 MiB, for writes
    if b < 66 * 1048576 ∧ write then some (hubBase + b) else none
  else if n < 16 ∧ w.getLsbD 31 ∧ w.getLsbD (if write then 25 else 24) ∧ reach then some a else none

/-- A BAR2 access refused: counted and raised. -/
def State.bar2Refuse (s : State) : State := (s.satInc F.PCIE_BAR2_ERR_refused).raise pgPCIE Ev.PCIE_bar2_refused

/-- The capture window that holds a device address (R322). -/
def State.capWindow (s : State) (a : Nat) : Option Nat :=
  (List.range 8).find? fun n => s.capValid n && decide (s.capBase n ≤ a ∧ a < s.capBase n + s.capSize n)

/-- A write inside a capture window (R317, R322): joined to the open record where it continues it and 4 KiB is not
passed, otherwise the start of a new one. -/
def State.capture (s : State) (w a : Nat) (bs : List Byte) : State :=
  let fresh := fun (s : State) =>
    let s1 := s.closeHostData
    { s1 with jrn := { s1.jrn with openData := some (w, a, bs) } }
  let s2 := match s.jrn.openData with
    | some (v, b, old) =>
      if v = w ∧ b + old.length = a ∧ old.length + bs.length ≤ 4096 then
        { s with jrn := { s.jrn with openData := some (v, b, old ++ bs) } }
      else fresh s
    | none => fresh s
  match s2.jrn.openData with
  | some (_, _, d) => if d.length = 4096 then s2.closeHostData else s2
  | none => s2

/-- BAR2_WRITE (R404, R406, R408): a write TLP mapped through its aperture and written, with poison where it came poisoned; or
dropped. In replay a write inside a capture window is ignored and counted (R328). -/
def execBar2Write (t : Tlp) (s : State) : Result :=
  let s0 := if t.poisoned then s.poisonedIn else s
  .next (if s.hubOff then s else match s0.aperture pgPCIE 0x100 t.offset.toNat true with
    | none => s0.bar2Refuse
    | some a =>
      match s0.capWindow a with
      | some w =>
        if s0.replaying then s0.count F.JRN_IGNORED_count 1
        else (s0.capture w a t.data).store a t.data t.poisoned
      | none => (if s0.jrn.openData.isSome then s0.closeHostData else s0).store a t.data t.poisoned)

/-- BAR2_READ (R404, R408): a read TLP answered with the bytes stored, poisoned where a word of them is; a refused one with zeros
in a poisoned completion. -/
def execBar2Read (t : Tlp) (s : State) : Result :=
  .next (if s.hubOff then s else match s.aperture pgPCIE 0x100 t.offset.toNat false with
    | none => (s.bar2Refuse.satInc F.PCIE_ERR_poisoned_out).emit .bar2Completion [t.offset.toNat, 1] (List.replicate t.len 0#8)
    | some a =>
      let r := s.load a t.len
      (if r.2.2 then r.1.satInc F.PCIE_ERR_poisoned_out else r.1).emit .bar2Completion [t.offset.toNat, if r.2.2 then 1 else 0] r.2.1)

/-! ### Reads of host memory (R407) -/

/-- An outside read no longer awaited. -/
def State.extDone (s : State) (tag : Nat) : State := { s with ext := tabDel s.ext tag }

/-- A read of host memory that failed: its words poisoned, counted, captured (R322). -/
def State.hostReadFail (s : State) (tag : Nat) (r : ExtRead) : State :=
  (((s.extDone tag).satInc F.PCIE_ERR_ur_ca).raise pgPCIE Ev.PCIE_ur_ca).readFailed r

/-- HOST_READ_COMPLETION (R407, R408): the answer to a device read of host memory; it is journalled (R322) and delivered. -/
def execHostReadCompletion (tag : Nat) (status : CompletionStatus) (data : List Byte) (s : State) : Result :=
  .next (match tabFind s.ext tag with
    | none => s
    | some r =>
      if !r.host then s
      else
        let bs := bytesAt data 0 r.len
        match status with
        | .ok => ((s.extDone tag).recordHostRead r bs).extDeliver r bs false
        | .poisoned => ((s.extDone tag).poisonedIn.recordHostRead r bs).extDeliver r bs true
        | .unsupported => s.hostReadFail tag r
        | .aborted => s.hostReadFail tag r)

/-- COMPLETION_TIMEOUT (R407): no answer within 65 ms. -/
def execCompletionTimeout (tag : Nat) (s : State) : Result :=
  .next (match tabFind s.ext tag with
    | none => s
    | some r => if r.host then s.hostReadFail tag r else s)

/-! ### Interrupts (R409) -/

/-- MSI_SEND (R409): the message of a pending vector goes out when it can be sent. That the host has unmasked the vector is the
event's own condition. -/
def execMsiSend (v : Fin 32) (s : State) : Result :=
  let p := s.get F.PCIE_MSI_PEND_pending
  .next (if p.testBit v.val ∧ s.flag F.PCIE_STATUS_bus_master ∧ s.flag F.PCIE_STATUS_link_up then
      (s.put F.PCIE_MSI_PEND_pending (p - 2 ^ v.val)).emit .msi [v.val]
    else s)

/-! ### The configuration space (R401) -/

/-- Revision ID: the hub's stepping. -/
def State.cfgRevision (s : State) : Nat := s.get F.GEN_STEPPING_hub

/-- Device Serial Number: GEN_SERIAL_HI:LO. -/
def State.cfgSerial (s : State) : Nat := s.get F.GEN_SERIAL_LO_serial + 2 ^ 32 * s.get F.GEN_SERIAL_HI_serial

/-- The hub firmware that runs, if one does, writes the subsystem IDs of its image before the link trains. -/
def State.cfgWritten (s : State) : State :=
  let v := Config.subsystem (tabGet s.sec.meas 6 [])
  if s.sec.boot.running then { s with cfg := { s.cfg with
      subVendor := v.setWidth 16
      subId := (v >>> 16).setWidth 16 } }
  else s

/-! ### Resets and link loss (R410, R432) -/

/-- The PCIE block and the configuration space reset: every register of the page at its reset value, apertures with them;
device reads still outstanding deliver poisoned words. The link retrains, the subsystem IDs written before. -/
def State.pcieReset (s : State) : State :=
  let gone := s.ext.filter fun e => e.2.host
  (gone.foldl (fun (s : State) e => (s.extDone e.1).readFailed e.2) { s.clearPage pgPCIE fun _ => false with cfg := {} }).cfgWritten

/-- PERST (R410): ignored while PGOOD is low (R571). -/
def execPerst (s : State) : Result := .next (if s.pgood then s.pcieReset else s)

/-- HOT_RESET (R410). -/
def execHotReset (s : State) : Result := .next s.pcieReset

/-- PCIE_LINK_DOWN (R410): as a reset; the loss is counted and raised. -/
def execPcieLinkDown (s : State) : Result :=
  .next ((s.pcieReset.satInc F.PCIE_ERR_link_down).raise pgPCIE Ev.PCIE_link_down)

/-- D3HOT_EXIT (R410). -/
def execD3hotExit (s : State) : Result := .next s.pcieReset

/-- PCIE_LINK_UP: the link reaches L0 at a rate and width; the host sets Bus Master Enable or not as it enumerates (assumption 35). -/
def execPcieLinkUp (speed : BitVec 3) (width : BitVec 5) (flit master : Bool) (s : State) : Result :=
  .next (if s.hubOff then s else (((((s.put F.PCIE_STATUS_link_up 1).put F.PCIE_STATUS_speed speed.toNat).put F.PCIE_STATUS_width width.toNat).putB
    F.PCIE_STATUS_flit flit).putB F.PCIE_STATUS_bus_master master).raise pgPCIE Ev.PCIE_link_up)

/-- PCIE_RETRAIN (PCIE_CTRL.retrain): the link leaves L0 and trains again; requests wait. -/
def execPcieRetrain (acc : Acc) (s : State) : Result :=
  .next (s.command pgPCIE 0x160 acc fun s w => if w.getLsbD 0 then s.put F.PCIE_STATUS_link_up 0 else s)

end Sys2Proof.Machine
end

