-- ==== Sys2Proof/Machine/Xagus.lean ====
section
/-! DEFINITION. Xagus links and domains, remote access and remote signals (R411 to R419, R424, R426, R431, R432). -/

namespace Sys2Proof.Machine

/-! ### Links (R412, R413) -/

/-- A payload word as its port hands it on: bytes and poison. -/
abbrev XWord := List Byte × Bool

/-- The payload words in use, poison of the frame and of the port together. -/
def xWords (f : XFrame) : List XWord :=
  (List.range (f.words.toNat + 1)).map fun k =>
    (leBytes 32 (f.payload.getD k 0#256).toNat, f.poison.getLsbD k || decide (f.code.getD k .clean = .many))

/-- Payload words of a frame logged at a port (R14, R412). -/
def State.xLog (s : State) (l : Nat) (f : XFrame) : State :=
  if xPayload f.typ.toNat then
    let codes := f.code.take (f.words.toNat + 1)
    let one := (codes.filter fun c => match c with | .one _ => true | _ => false).length
    let many := (codes.filter fun c => decide (c = .many)).length
    ((s.count (F.XL_ERR_corrected l) one).satAdd (F.XL_ERR_poisoned l) many).count (F.XL_RX_WORDS_count l) (f.words.toNat + 1)
  else s

/-- Frames that an acknowledgement number covers leave the retry buffer. -/
def ackedDrop (retry : List XFrame) (ack : BitVec 12) : List XFrame :=
  if retry.any fun f => decide (f.seq = ack) then (retry.dropWhile fun f => decide (f.seq ≠ ack)).drop 1 else retry

/-- A replay asked for on a link, from the first number not received (R412). -/
def State.xReplay (s : State) (l : Nat) : State :=
  ((s.satInc (F.XL_ERR_replays l)).setXl l { s.xl l with asked := true }).emit .replayRequest [l, ((s.xl l).lastRx + 1) % 4096]

/-- A frame discarded and acknowledged (R412). -/
def State.xDiscard (s : State) (l : Nat) : State := s.count (F.XL_ERR_discarded l) 1

/-- A frame of a type that R411 reserves. -/
def xReserved (f : XFrame) : Bool := decide (12 < f.typ.toNat)

/-- What an accepted frame leaves at its link (R411, R412): its number, the frames it acknowledges gone from the retry buffer, the credit
it returns, the credit that it is owed. -/
def XLinkSt.took (k : XLinkSt) (f : XFrame) : XLinkSt :=
  { k with
    lastRx := f.seq.toNat
    asked := false
    retry := ackedDrop k.retry f.ack
    credit := if f.credits = 0#10 then k.credit
      else tabSet k.credit f.creditVc.toNat (tabGet k.credit f.creditVc.toNat 0 + f.credits.toNat)
    owed := tabSet k.owed f.vc.toNat (tabGet k.owed f.vc.toNat 0 + 1) }

/-- A frame of type `typ`, or of a reserved one, received on a link (R411, R412): not acted on where its codeword or header CRC is bad or
its number is not the next; otherwise accepted, its corrected symbols counted, of which the number is open (assumption 2). A frame of a
reserved type is discarded, one for another device is forwarded on its route (R416), one for no device of the domain is discarded. HELLO
and link-state frames are for the receiver. -/
def State.xReceive (s : State) (l : Nat) (f : XFrame) (typ : Nat) (act : State → List XWord → State) : State :=
  let k := s.xl l
  let d := (f.seq.toNat + 4096 - (k.lastRx + 1) % 4096) % 4096
  if (f.typ.toNat ≠ typ ∧ !xReserved f) ∨ s.get (F.XL_STATUS_state l) ≠ 2 then s
  else if !f.fecOk then ((s.satInc (F.XL_FEC_uncorrectable l)).raise (48 + l) Ev.XL_fec_uncorrectable).xReplay l
  else if !xCrcOk f then s.xReplay l
  else if d ≠ 0 then (if d < 2048 ∧ !k.asked then s.xReplay l else s)
  else
    let v := s.fresh
    let s1 := (((v.2.satAdd (F.XL_FEC_corrected l) (v.1 % 65536)).xLog l f).setXl l (k.took f)).xDrain l
    if xReserved f then s1.xDiscard l
    else if typ = 7 ∨ typ = 8 then (if s.flag F.XGS_CTRL_enable then act s1 (xWords f) else s1)
    else if s.xgs.members.isEmpty then s1.xDiscard l
    else if f.dst.toNat = s.xId then act s1 (xWords f)
    else if (tabFind s.xgs.members f.dst.toNat).isSome then
      let bad := (((List.range 4).zip (xWords f)).map fun w => if w.2.2 then 2 ^ w.1 else 0).sum
      s1.xSend { f with poison := BitVec.ofNat 4 bad }
    else s1.xDiscard l

/-! ### Telemetry of the farm service (R554) -/

/-- The hottest die temperature that THM_DIE_MAX shows of the dies in run; with none in run an open value. -/
def State.hottestDie (s : State) : State × Int :=
  match (List.range 4).filter fun d => s.cdState d == 3 with
  | [] => (s.fresh.2, s.fresh.1)
  | ds => (s, ds.foldl (fun m d => max m (toSigned 8 ((s.regWord pgTHM 0x24).toNat / 256 ^ d))) (-128))

/-- A telemetry record (R554): kind, link; written to its record queue, or dropped and counted. The power is a measured value
(assumption 2). -/
def State.telemetry (s : State) (kind link : Nat) : State :=
  if !s.flag F.FARM_CTRL_telem_en then s
  else
    let v := s.fresh
    let h := v.2.hottestDie
    let r := leBytes 1 kind ++ leBytes 1 (s.get F.FARM_STATUS_state) ++ leBytes 1 (if s.xReady then s.xId else 0xFF) ++ leBytes 1 link
      ++ leBytes 4 (s.regWord pgFARM 0x50).toNat ++ leBytes 4 (s.regWord pgFARM 0x54).toNat ++ leBytes 4 (s.get F.FARM_SEGMENT_number)
      ++ leBytes 8 (s.addr F.JRN_REPLAY_POS_LO_position) ++ leBytes 4 (s.get F.FARM_PROG_RECORDS_count) ++ leBytes 2 v.1
      ++ leBytes 1 (ofInt 8 h.2) ++ leBytes 1 0
    let q := 0x200 + s.get F.FARM_TELEM_queue
    if (s.queue q).hasRoom then h.1.ringEntry q r
    else (s.count F.FARM_TELEM_DROP_count 1).raise pgFARM Ev.FARM_telem_drop

/-! ### Domain formation (R414 to R416, R424) -/

/-- The serial of the device whose ID this device takes over, while it does (R555). -/
def State.taking (s : State) : Option Nat :=
  if s.farm.taking then some (s.addr F.FARM_TAKEOVER_SERIAL_LO_serial) else none

/-- The payload of this device's HELLO on a link (layout of assumption 32). -/
def State.helloBytes (s : State) (l : Nat) : List Byte :=
  padTo 32 (leBytes 8 s.fuse.serial.toNat ++ leBytes 1 l
    ++ leBytes 1 (if s.flag F.XGS_DOMAIN_twin then s.get F.XGS_TWIN_STATE_role else s.get F.XGS_DOMAIN_id)
    ++ leBytes 1 (s.get F.XGS_DOMAIN_auto + 2 * s.get F.XGS_DOMAIN_twin + bitAt s.farm.taking 2)
    ++ leBytes 1 (s.get F.GEN_GRADE_arrays) ++ leBytes 2 (s.get F.GEN_FW_REV_arith_rev) ++ leBytes 2 0
    ++ leBytes 8 (s.taking.getD 0))

/-- Links that are up. -/
def State.xUp (s : State) : List Nat := (List.range 8).filter fun l => s.get (F.XL_STATUS_state l) == 2

/-- This device's own link-state record. A neighbour over a link in relinking stays in it (R556). -/
def State.ownRec (s : State) : XRec :=
  { id := if s.flag F.XGS_DOMAIN_twin then s.get F.XGS_TWIN_STATE_role else s.get F.XGS_DOMAIN_id
    auto := s.flag F.XGS_DOMAIN_auto && !s.flag F.XGS_DOMAIN_twin
    twin := s.flag F.XGS_DOMAIN_twin
    arith := s.get F.GEN_FW_REV_arith_rev
    number := s.xgs.number
    nbrs := (List.range 8).map fun l =>
      if s.get (F.XL_STATUS_state l) = 2 ∨ s.relinking l then ((s.xl l).peer.map (·.serial)).getD 0 else 0
    take := s.taking }

/-- The payload of a link-state frame: the record of the device with a serial (layout of assumption 32). -/
def recBytes (serial : Nat) (r : XRec) : List Byte :=
  padTo 32 (leBytes 8 serial ++ leBytes 1 r.id ++ leBytes 1 (bitAt r.auto 0 + bitAt r.twin 1 + bitAt r.take.isSome 2) ++ leBytes 2 r.arith ++ leBytes 4 r.number
    ++ leBytes 8 (r.take.getD 0)) ++ r.nbrs.flatMap (leBytes 8)

/-- The record that a link-state frame carries. -/
def recOf (b : List Byte) : Nat × XRec :=
  (fieldAt b 0 8,
    { id := fieldAt b 8 1
      auto := (fieldAt b 9 1).testBit 0
      twin := (fieldAt b 9 1).testBit 1
      arith := fieldAt b 10 2
      number := fieldAt b 12 4
      nbrs := (List.range 8).map fun l => fieldAt b (32 + 8 * l) 8
      take := if (fieldAt b 9 1).testBit 2 then some (fieldAt b 16 8) else none })

/-- A record sent on every link that is up but one. -/
def State.flood (s : State) (but : Nat) (serial : Nat) (r : XRec) : State :=
  (s.xUp.filter fun l => decide (l ≠ but)).foldl
    (fun s l => s.xTransmit l (mkFrame 8 s.xId 0 0 0 (recBytes serial r))) s

/-- This device's own record renewed and flooded. -/
def State.floodOwn (s : State) : State :=
  let s1 := { s with xgs := { s.xgs with number := s.xgs.number + 1 } }
  s1.flood 8 s1.fuse.serial.toNat s1.ownRec

/-- Domain formation begun (R414): HELLO on every link that is up, the own record flooded. While an enabled link trains the state
is training. -/
def State.domainForm (s : State) : State :=
  if !s.flag F.XGS_CTRL_enable then s
  else
    let training := (List.range 8).any fun l => s.get (F.XL_STATUS_state l) == 1 && !s.relinking l
    let s1 := s.put F.XGS_STATUS_state (if training then 1 else 2)
    let s2 := s1.xUp.foldl (fun s l => s.xTransmit l (mkFrame 7 s.xId 0 0 0 (s.helloBytes l))) s1
    s2.floodOwn

/-- Frames not acknowledged sent again on their link (R412, R413). -/
def State.replayFrames (s : State) (l : Nat) : State :=
  (s.xl l).retry.foldl (fun s f => s.xEmit l f) s

/-- A relink ended (R556): the link no longer holds its routes. -/
def State.relinkEnd (s : State) (l : Nat) : State :=
  let b := s.get F.FARM_RELINK_relinking
  { s.put F.FARM_RELINK_relinking (if b.testBit l then b - 2 ^ l else b) with farm := { s.farm with
      relink := tabDel s.farm.relink l } }

/-- A neighbour met over a link in relinking (R556): the same device takes the retry buffer as after a retrain; frames for another
one's place go out on their new routes once the domain has formed. -/
def State.relinkMet (s : State) (l serial : Nat) (old : Option XPeer) : State :=
  let s1 := s.relinkEnd l
  let s2 := if old.any fun p => decide (p.serial = serial) then s1.replayFrames l
    else s1.setXl l { s1.xl l with moved := true }
  (s2.raise pgFARM Ev.FARM_relink_done).telemetry 5 l

/-- HELLO (R414, R556): the neighbour on a link is known; the own record changes with it. -/
def execHello (l : Fin 8) (f : XFrame) (s : State) : Result :=
  .next (s.xReceive l.val f 7 fun s ws =>
    let b := (ws.headD ([], false)).1
    let p : XPeer := ⟨fieldAt b 0 8, fieldAt b 8 1 % 8, fieldAt b 9 1 % 32, (fieldAt b 10 1).testBit 0, (fieldAt b 10 1).testBit 1,
      fieldAt b 11 1, fieldAt b 12 2⟩
    let old := (s.xl l.val).peer
    let s0 := if s.relinking l.val then s.relinkMet l.val p.serial old else s
    let s1 := (((s0.setXl l.val { s0.xl l.val with peer := some p }).put (F.XL_STATUS_peer_id l.val) p.id).put
      (F.XL_STATUS_peer_link l.val) p.link).put (F.XL_STATUS_peer_valid l.val) 1
    ((s1.put (F.XL_PEER_SERIAL_LO_serial l.val) p.serial).put (F.XL_PEER_SERIAL_HI_serial l.val) (p.serial / 2 ^ 32)).floodOwn)

/-- LINK_STATE (R414): a record newer than the one held is kept and flooded on. -/
def execLinkState (l : Fin 8) (f : XFrame) (s : State) : Result :=
  .next (s.xReceive l.val f 8 fun s ws =>
    let r := recOf (ws.flatMap (·.1))
    let known := (tabFind s.xgs.recs r.1).any fun o => decide (r.2.number ≤ o.number)
    if known ∨ r.1 = s.fuse.serial.toNat then s
    else { s with xgs := { s.xgs with recs := tabSet s.xgs.recs r.1 r.2 } }.flood l.val r.1 r.2)

/-- Every record in rising serial, the own one among them. -/
def State.allRecs (s : State) : Tab XRec := tabSet s.xgs.recs s.fuse.serial.toNat s.ownRec

/-- Hops of every device from those at distance `d`, breadth first. -/
def xDistances (recs : Tab XRec) : Nat → Nat → List Nat → Tab Nat → Tab Nat
  | 0, _, _, seen => seen
  | fuel + 1, d, ring, seen =>
    let next := (ring.flatMap fun k => ((tabFind recs k).map (·.nbrs)).getD []).filter fun k =>
      decide (k ≠ 0) && (tabFind seen k).isNone && (tabFind recs k).isSome
    if next.isEmpty then seen
    else xDistances recs fuel (d + 1) next (next.foldl (fun t k => tabSet t k (d + 1)) seen)

/-- Devices that a route reaches, with their hops. -/
def xReached (recs : Tab XRec) (own : Nat) : Tab Nat := xDistances recs (recs.length + 1) 0 [own] [(own, 0)]

/-- The first link towards a device at distance `h`: the lowest whose neighbour is one hop nearer (R416). -/
def firstLink (recs : Tab XRec) (own target : Nat) : Nat :=
  let back := xReached recs target
  let h := tabGet back own 0
  ((List.range 8).find? fun l =>
    let k := (((tabFind recs own).map (·.nbrs)).getD []).getD l 0
    decide (k ≠ 0 ∧ tabFind back k = some (h - 1))).getD 0

/-- Is a device one whose ID another takes over: that one asks for the ID that this one asks for, or holds by assignment (R555)? -/
def xTaken (devs : List (Nat × XRec)) (d : Nat × XRec) : Bool :=
  devs.any fun t => decide (t.2.take = some d.1 ∧ t.1 ≠ d.1 ∧ (t.2.id = d.2.id ∨ d.2.auto))

/-- Domain IDs by serial (R415): those asked for, the lower serial first; then the lowest free ones to devices with auto set, in
rising serial. A device without an ID is in conflict. A taker gives way to any device but the one it replaces, which is in
conflict (R555). -/
def xAssign (devs : List (Nat × XRec)) : Tab Nat :=
  let left := devs.filter fun d => !xTaken devs d
  let fix := fun (t : Tab Nat) (d : Nat × XRec) => if t.any (fun e => decide (e.2 = d.2.id)) then t else tabSet t d.1 d.2.id
  let held := (left.filter fun d => !d.2.auto && d.2.take.isNone).foldl fix []
  let fixed := (left.filter fun d => !d.2.auto && d.2.take.isSome).foldl fix held
  (left.filter fun d => d.2.auto).foldl
    (fun (t : Tab Nat) d =>
      match (List.range 32).find? fun i => !t.any fun e => decide (e.2 = i) with
      | some i => tabSet t d.1 i
      | none => t) fixed

/-- Is this module a twin with a member where R424 allows none: over another link than XL6 and XL7, or a third one? -/
def State.twinConflict (s : State) (devs : List (Nat × XRec)) : Bool :=
  s.flag F.XGS_DOMAIN_twin
    && (decide (2 < devs.length) || (s.xUp.any fun l => decide (l < 6) && (s.xl l).peer.isSome))

/-- Remote writes and signals to members that `gone` names can no longer be shown delivered (R419). -/
def State.xLose (s : State) (gone : Nat → Bool) : State :=
  let dead := s.xgs.outs.filter fun o => gone o.dst
  { s with xgs := { s.xgs with
      outs := s.xgs.outs.filter fun o => !gone o.dst
      lost := s.xgs.lost ++ dead.map fun o => (o.queue, o.index, o.slot) } }

/-- Remote reads of members that `gone` names deliver poisoned words. -/
def State.xLoseReads (s : State) (gone : Nat → Bool) : State :=
  let dead := s.ext.filter fun e => !e.2.host && gone ((e.2.addr - memberBase 0) / 0x1000000000)
  dead.foldl (fun s e => (s.extDone e.1).extDeliver e.2 (List.replicate e.2.len 0#8) true) s

/-- Collectives of a group with a member that `gone` names fail with cause 3 (R423). -/
def State.xLoseGroups (s : State) (gone : Nat → Bool) : State :=
  let slots := (s.xgs.said ++ s.xgs.active).filter fun n =>
    let g := tabGet s.xgs.groups (s.peekNat (s.addr F.XGS_COLL_BASE_LO_base + 128 * n) 4 / 256 % 16) [] |>.map (·.vote)
    (List.range ((g.getD 0 0#32).toNat % 64)).any fun r => gone (((g.getD (1 + r / 4) 0#32).toNat / 256 ^ (r % 4)) % 32)
  { s with xgs := { s.xgs with failed := slots.foldl (fun t n => if (tabFind t n).isNone then tabSet t n 3 else t) s.xgs.failed } }

/-- What members leaving the domain does to traffic under way. -/
def State.xGone (s : State) (gone : Nat → Bool) : State := ((s.xLose gone).xLoseReads gone).xLoseGroups gone

/-- The twin pairing starts over (R426): indices from 1, nothing waits for comparison. -/
def State.twinRestart (s : State) : State :=
  { s with twin := { s.twin with
      index := []
      own := []
      theirs := []
      taken := []
      lines := []
      told := []
      absent := 0 } }

/-- Frames kept on links that are down, or were relinked to another device, are sent again on their new routes, before any later
frame (R416, R556). -/
def State.resend (s : State) : State :=
  (List.range 8).foldl
    (fun s l =>
      let k := s.xl l
      if (s.get (F.XL_STATUS_state l) = 2 ∧ !k.moved) ∨ s.relinking l then s
      else
        let kept := (k.retry ++ k.held).filter fun f => decide (f.typ.toNat ≠ 7 ∧ f.typ.toNat ≠ 8)
        kept.foldl State.xSend (s.setXl l { k with
          retry := []
          held := []
          moved := false })) s

/-- The first link and hops of the route to a device (R416): without the links in relinking, or over one where nothing else leads
there (R556). -/
def State.routeTo (s : State) (recs : Tab XRec) (serial : Nat) : Nat × Nat :=
  let own := s.fuse.serial.toNat
  let mine := s.ownRec
  let rest := tabSet recs own { mine with
    nbrs := (List.range 8).map fun l => if s.relinking l then 0 else mine.nbrs.getD l 0 }
  match tabFind (xReached rest own) serial with
  | some h => (firstLink rest own serial, h)
  | none => (firstLink recs own serial, tabGet (xReached recs own) serial 0)

/-- A takeover ended (R555): done, or refused with cause 8. -/
def State.takeoverEnd (s : State) (ok : Bool) : State :=
  if !s.farm.taking then s
  else
    let s1 := { s with farm := { s.farm with taking := false } }
    if ok then (s1.raise pgFARM Ev.FARM_takeover_done).telemetry 4 0
    else ((s1.put F.FARM_TAKEOVER_refused 1).put F.FARM_STATUS_refused 1).put F.FARM_STATUS_cause 8

/-- DOMAIN_QUIESCENT (R414 to R416, R555): no record has changed for 1 ms. IDs are assigned, routes computed, and the domain is ready,
or this device is in conflict. -/
def execDomainQuiescent (s : State) : Result :=
  .next (if s.get F.XGS_STATUS_state ≠ 2 then s
    else
      let own := s.fuse.serial.toNat
      let recs := s.allRecs
      let reached := xReached recs own
      let devs := recs.filter fun d => (tabFind reached d.1).isSome
      let ids := xAssign devs
      let old := s.xgs.members
      let made : Tab XMember := devs.foldl
        (fun t d =>
          match tabFind ids d.1 with
          | some i =>
            let r := s.routeTo recs d.1
            tabSet t i ⟨d.1, d.2.arith, d.2.twin, r.1, r.2⟩
          | none => t) []
      let lostOne := old.any fun m => !made.any fun k => decide (k.2.serial = m.2.serial)
      match tabFind ids own, s.twinConflict devs with
      | some id, false =>
        let s1 := { s with xgs := { s.xgs with members := made } }
        let gone := fun i => (tabFind old i).map (·.serial) ≠ (tabFind made i).map (·.serial)
        let s2 := (s1.xGone fun i => decide (gone i)).resend
        let s3 := ((((s2.put F.XGS_STATUS_state 3).put F.XGS_STATUS_id id).put F.XGS_STATUS_members made.length).put
          F.XGS_MEMBERS_present ((made.map fun m => 2 ^ m.1).sum)).raise pgXGS Ev.XGS_ready
        let s4 : State := s3.raiseIf lostOne pgXGS Ev.XGS_member_lost
        (if s4.twinPair && !s.twinPair then s4.twinRestart else s4).takeoverEnd true
      | _, _ =>
        let s1 := { s with xgs := { s.xgs with members := [] } }
        ((((s1.xGone fun _ => true).put F.XGS_STATUS_state 4).put F.XGS_MEMBERS_present 0).raise pgXGS Ev.XGS_conflict).takeoverEnd
          false)

/-! ### Links going up and down (R412, R413, R429) -/

/-- A link taken down: its registers, and the domain forms anew. Loss of both links of a twin pair leaves it alone (R429). -/
def State.linkDown (s : State) (l state : Nat) : State :=
  let s1 := ((s.put (F.XL_STATUS_state l) state).put (F.XL_STATUS_lanes l) 0).put (F.XL_STATUS_peer_valid l) 0
  let s2 := s1.setXl l { s1.xl l with
    peer := none
    asked := false }
  let s3 := if s2.flag F.XGS_DOMAIN_twin ∧ s2.get (F.XL_STATUS_state 6) ≠ 2 ∧ s2.get (F.XL_STATUS_state 7) ≠ 2 then
      s2.put F.XGS_TWIN_STATE_state 0
    else s2
  s3.domainForm

/-- XL_LINK_DOWN (R412, R556): a link goes down. One in relinking waits for light on its new path. -/
def execXlLinkDown (l : Fin 8) (s : State) : Result :=
  .next (if s.get (F.XL_STATUS_state l.val) = 1 ∨ s.get (F.XL_STATUS_state l.val) = 2 then
      (if s.relinking l.val then
        ((s.put (F.XL_STATUS_state l.val) 1).put (F.XL_STATUS_lanes l.val) 0).setXl l.val { s.xl l.val with asked := false }
      else s.linkDown l.val 0).raise (48 + l.val) Ev.XL_down
    else s)

/-- A link begins to train. -/
def State.linkTrain (s : State) (l : Nat) : State := ((s.put (F.XL_STATUS_state l) 1).put (F.XL_STATUS_lanes l) 0).domainForm

/-- XL_ENABLE: XL_CTRL.enable turns a link on, which trains; cleared, the link is off. -/
def execXlEnable (l : Fin 8) (acc : Acc) (s : State) : Result :=
  .next (s.command (48 + l.val) 0x020 acc fun s w =>
    if w.getLsbD 0 then
      if s.flag (F.XL_CTRL_enable l.val) then s else (s.put (F.XL_CTRL_enable l.val) 1).linkTrain l.val
    else if s.flag (F.XL_CTRL_enable l.val) then (s.put (F.XL_CTRL_enable l.val) 0).linkDown l.val 0
    else s)

/-- XL_RETRAIN (R413): XL_CTRL.retrain. -/
def execXlRetrain (l : Fin 8) (acc : Acc) (s : State) : Result :=
  .next (s.command (48 + l.val) 0x020 acc fun s w =>
    if w.getLsbD 1 ∧ s.flag (F.XL_CTRL_enable l.val) then s.linkTrain l.val else s)

/-- The lanes that a link runs on: all four, or the pair that is whole, or the lowest working lane (R413). -/
def lanesUsed (good : BitVec 4) : Nat :=
  if good = 15#4 then 4 else if good &&& 3#4 = 3#4 ∨ good &&& 12#4 = 12#4 then 2 else if good = 0#4 then 0 else 1

/-- XL_TRAINING_DONE (R413, R556): training ends on the lanes that work and are not retired; with none the link fails, or waits on if it
is in relinking. Frames not acknowledged are replayed, in relinking once the neighbour is known, and the domain forms. -/
def execXlTrainingDone (l : Fin 8) (lanes : BitVec 4) (s : State) : Result :=
  .next (if s.get (F.XL_STATUS_state l.val) ≠ 1 then s
    else
      let n := lanesUsed (lanes &&& ~~~(BitVec.ofNat 4 (s.get (F.XL_LANE_RETIRE_retire l.val))))
      if n = 0 then (if s.relinking l.val then s else (s.linkDown l.val 3).raise (48 + l.val) Ev.XL_down)
      else
        let s1 := ((s.put (F.XL_STATUS_state l.val) 2).put (F.XL_STATUS_lanes l.val) n).raise (48 + l.val) Ev.XL_up
        let s2 := s1.raiseIf (n < 4) (48 + l.val) Ev.XL_narrowed
        (if s.relinking l.val then s2 else s2.replayFrames l.val).domainForm)

/-- The domain dissolved: nothing of it is left, traffic under way is lost, the twin is alone. -/
def State.domainEnd (s : State) : State :=
  let s1 := { s with xgs := { s.xgs with
      members := []
      recs := [] } }
  (((((s1.xGone fun _ => true).put F.XGS_STATUS_state 0).put F.XGS_MEMBERS_present 0).put F.XGS_STATUS_members 0).put
    F.XGS_TWIN_STATE_state 0).twinRestart

/-- A write of XGS_CTRL: enable set forms the domain, enable clear dissolves it (R414); rediscover forms it anew (R414); twin_restart restarts
the pairing indices on both modules (R426). -/
def State.xgsCtrl (s : State) (w : Word) : State :=
  let on := s.flag F.XGS_CTRL_enable
  let s1 :=
    if w.getLsbD 0 then (if on then s else (s.put F.XGS_CTRL_enable 1).domainForm)
    else if on then (s.put F.XGS_CTRL_enable 0).domainEnd else s
  let s2 := if w.getLsbD 1 then s1.domainForm else s1
  if w.getLsbD 2 then
    let s3 := s2.twinRestart
    if s3.twinPair then s3.twinFrame 12 (padTo 32 (leBytes 4 1)) else s3
  else s2

/-- XGS_ENABLE (R414). -/
def execXgsEnable (acc : Acc) (s : State) : Result := .next (s.command pgXGS 0x020 acc State.xgsCtrl)

/-- REDISCOVER (R414): XGS_CTRL.rediscover. -/
def execRediscover (acc : Acc) (s : State) : Result := .next (s.command pgXGS 0x020 acc State.xgsCtrl)

/-! ### Remote access (R417, R418) -/

/-- The device address of a member's own memory that a frame's operand names, if its apertures let the access in. -/
def State.remoteAt (s : State) (operand : BitVec 44) (n : Nat) (write : Bool) : Option Nat :=
  let o := (operand.toNat % 2 ^ 43 * 32) % 2 ^ 36
  match s.aperture pgXGS 0x180 o write, s.aperture pgXGS 0x180 (o + n - 1) write with
  | some a, some z => if z = a + n - 1 then some a else none
  | _, _ => none

/-- An access from a member refused here. -/
def State.refusedIn (s : State) : State := (s.satInc F.XGS_REMOTE_ERR_refused_in).raise pgXGS Ev.XGS_remote_refused

/-- Bit 43 of an operand of 44 bits. -/
def refusedBit (operand : BitVec 44) (bad : Bool) : Nat := operand.toNat % 2 ^ 43 + if bad then 2 ^ 43 else 0

/-- XAGUS_WRITE (R417, R418): applied through the inbound apertures and acknowledged, or refused. -/
def execXagusWrite (l : Fin 8) (f : XFrame) (s : State) : Result :=
  .next (s.xReceive l.val f 1 fun s ws =>
    let ack := fun (bad : Bool) => mkFrame 4 s.xId f.src.toNat (refusedBit f.operand bad) 0 []
    match s.remoteAt f.operand (32 * ws.length) true with
    | none => s.refusedIn.xSend (ack true)
    | some a =>
      let s1 := ((List.range ws.length).zip ws).foldl (fun s w => s.store (a + 32 * w.1) w.2.1 w.2.2) s
      s1.xSend (ack false))

/-- READ_REQUEST (R417): served through the inbound apertures; a refused one is answered with poisoned zeros. -/
def execReadRequest (l : Fin 8) (f : XFrame) (s : State) : Result :=
  .next (s.xReceive l.val f 2 fun s ws =>
    let n := ws.length
    match s.remoteAt f.operand (32 * n) false with
    | none => s.refusedIn.xSend (mkFrame 3 s.xId f.src.toNat (refusedBit f.operand true) (2 ^ n - 1) (List.replicate (32 * n) 0#8))
    | some a =>
      let r := s.load a (32 * n)
      let bad := ((List.range n).map fun k => if s.poisonedAt (a + 32 * k) 32 then 2 ^ k else 0).sum
      r.1.xSend (mkFrame 3 s.xId f.src.toNat (refusedBit f.operand false) bad r.2.1))

/-- An access of this device refused elsewhere. -/
def State.refusedOut (s : State) : State := (s.satInc F.XGS_REMOTE_ERR_refused_out).raise pgXGS Ev.XGS_remote_refused

/-- The words of a remote read reach their flight, each with its poison. -/
def State.flyWords (s : State) (r : ExtRead) (ws : List XWord) : State :=
  match r.arr with
  | none => s
  | some n =>
    let bad := ws.any (·.2)
    s.modArr n fun a => a.modFly r.fly fun f =>
      { f with
        lbW := f.lbW ++ ((List.range ws.length).zip ws).map fun w => ⟨r.dst + 32 * w.1, w.2.1, w.2.2⟩
        await := f.await - 1
        cause := if bad then 1 else f.cause }

/-- READ_RETURN (R417): the oldest read of that member and address gets its data. -/
def execReadReturn (l : Fin 8) (f : XFrame) (s : State) : Result :=
  .next (s.xReceive l.val f 3 fun s ws =>
    let a := memberBase f.src.toNat + (f.operand.toNat % 2 ^ 43 * 32) % 2 ^ 36
    match s.ext.find? fun e => !e.2.host && decide (e.2.addr = a) with
    | none => s
    | some e =>
      let s1 := (s.extDone e.1).flyWords e.2 (ws.take (e.2.len / 32))
      if f.operand.getLsbD 43 then s1.refusedOut else s1)

/-- An acknowledgement taken: the oldest write or signal of its kind, destination and key is done; a refused one can no longer be
shown delivered. -/
def State.ackTaken (s : State) (src : Nat) (signal bad : Bool) (key : Nat) : State :=
  match s.xgs.outs.find? fun o => decide (o.dst = src ∧ o.signal = signal ∧ o.key = key) with
  | none => s
  | some o =>
    let s1 := { s with xgs := { s.xgs with
        outs := s.xgs.outs.erase o
        lost := if bad then s.xgs.lost ++ [(o.queue, o.index, o.slot)] else s.xgs.lost } }
    if bad then s1.refusedOut else s1

/-- WRITE_ACKNOWLEDGE (R418). -/
def execWriteAcknowledge (l : Fin 8) (f : XFrame) (s : State) : Result :=
  .next (s.xReceive l.val f 4 fun s _ =>
    s.ackTaken f.src.toNat false (f.operand.getLsbD 43) ((f.operand.toNat % 2 ^ 43 * 32) % 2 ^ 36))

/-- SIGNAL_ACKNOWLEDGE (R418). -/
def execSignalAcknowledge (l : Fin 8) (f : XFrame) (s : State) : Result :=
  .next (s.xReceive l.val f 6 fun s _ => s.ackTaken f.src.toNat true (f.operand.getLsbD 43) (f.operand.toNat % 4096))

/-- REMOTE_SIGNAL (R418): a publication of code 0x08 that raises its object, acknowledged. In replay a live signal is counted
against recorded ones when the whole domain replays, and otherwise ignored (R329). -/
def execRemoteSignal (l : Fin 8) (f : XFrame) (s : State) : Result :=
  .next (s.xReceive l.val f 5 fun s _ =>
    let o := f.operand.toNat % 4096
    let n := f.operand.toNat / 4096
    let key := f.src.toNat * 4096 + o
    let s1 :=
      if s.replaying then
        if s.flag F.JRN_CTRL_domain then { s with jrn := { s.jrn with live := tabSet s.jrn.live key (tabGet s.jrn.live key 0 + 1) } }
        else s
      else (s.publish 0x08 0 f.src.toNat o n 0).fenceAdd o n
    s1.xSend (mkFrame 6 s.xId f.src.toNat o 0 []))

end Sys2Proof.Machine
end

