-- ==== Sys2Proof/Machine/Remote.lean ====
section
/-! DEFINITION. Array instructions that may reach another device: LD, ST, FSIG, and FENCE_DONE (R123, R127, R128, R139, R343,
R417 to R419). -/

namespace Sys2Proof.Machine

/-- The job and slot on an array, as remote traffic is accounted to it. -/
def State.xOwner (s : State) (n : Nat) : Nat × Nat × Nat :=
  match s.arrJob n with
  | some j => (j.queue, j.index, (s.arr n).slot)
  | none => (0, 0, 0)

/-- Has the slot on an array remote writes or signals not yet acknowledged? -/
def State.xOpen (s : State) (n : Nat) : Bool :=
  s.xgs.outs.any fun o => decide ((o.queue, o.index, o.slot) = s.xOwner n)

/-- Was delivery of something that the slot sent refused or made impossible (R419)? -/
def State.xLost (s : State) (n : Nat) : Bool := s.xgs.lost.contains (s.xOwner n)

/-- The slot told so: it faults with cause 0x1 at the instruction it stands at. -/
def State.xLostFault (s : State) (n : Nat) : State :=
  let o := s.xOwner n
  { s with xgs := { s.xgs with lost := s.xgs.lost.filter fun x => decide (x ≠ o) } }.slotFault n 1

/-- FENCE_DONE (R127, R419): earlier instructions have completed and their effects are visible; FENCE.X also has every remote
write and signal acknowledged, and faults the slot where one was refused or its destination lost. -/
def execFenceDone (n : Arr) (s : State) : Result :=
  let k := arrNum n
  .next (if s.get (F.ARR_STATE_state k) ≠ 1 then s
    else
      match (s.arr k).wait with
      | .fence kind =>
        if kind = 0 then (if (s.arr k).flights.isEmpty then s.release k (s.nextPc k) else s)
        else if !s.drained k then s
        else if kind ≠ 3 then s.release k (s.nextPc k)
        else if s.xOpen k then s
        else if s.xLost k then s.xLostFault k
        else s.release k (s.nextPc k)
      | _ => s)

/-- A remote signal or write noted as sent. -/
def State.xSent (s : State) (n dst : Nat) (signal : Bool) (key : Nat) : State :=
  let o := s.xOwner n
  { s with xgs := { s.xgs with outs := s.xgs.outs ++ [⟨o.1, o.2.1, o.2.2, dst, signal, key⟩] } }

/-- FSIG (R128, R419): after a FENCE.P, or a FENCE.X when remote, the increment is added to the object, here or on a device of the
domain. -/
def execFsig (n : Arr) (s : State) : Result :=
  let k := arrNum n
  .next (s.issue k 0x17 fun s i =>
    let o := refObj i.c
    if !s.drained k then s
    else if !i.mod.testBit 0 then (s.fenceAdd o i.imm).stepTo k i (s.nextPc k)
    else if s.xOpen k then s
    else if s.xLost k then s.xLostFault k
    else
      let d := (s.arr k).operand i.b % 32
      if s.xReach d then
        ((s.xSend (mkFrame 5 s.xId d (o + 4096 * i.imm) 0 [])).xSent k d true o).stepTo k i (s.nextPc k)
      else if !s.xgs.members.isEmpty ∧ d = s.xId then (s.fenceAdd o i.imm).stepTo k i (s.nextPc k)
      else s.slotFault k 1)

/-- The member whose window holds an address, if a range lies in one. -/
def State.memberOf (s : State) (a : Nat) : Option Nat :=
  match s.region a with
  | .member i => some i
  | _ => none

/-- Frames of at most four words that cover `n` words from a device address: address and words of each. -/
def xPieces (a n : Nat) : List (Nat × Nat) := (List.range ((n + 3) / 4)).map fun k => (a + 128 * k, min 4 (n - 4 * k))

/-- Words read from a member: one request for each piece, its answer feeding the flight last launched. -/
def State.xReadRuns (s : State) (n d dst : Nat) (ps : List (Nat × Nat)) (base : Nat) : State :=
  ps.foldl
    (fun s p =>
      let r : ExtRead := ⟨false, some n, (s.arr n).nextId - 1, 0, 0, 0, p.1, 32 * dst + (p.1 - base), 32 * p.2, false, 0⟩
      { s with
        ext := tabSet s.ext s.extTag r
        extTag := s.extTag + 1 }.xSend
          { mkFrame 2 s.xId d (p.1 / 32) 0 [] with words := BitVec.ofNat 2 (p.2 - 1) }) s

/-- An unmapped access counted (R370, R417). -/
def State.missCount (s : State) : State := (s.satInc F.MEMG_UNMAPPED_count).raise pgMEMG Ev.MEMG_unmapped

/-- The doorbells that a word of the doorbell window covers (R343). -/
def State.doorbellWord (s : State) (a : Nat) : List Byte :=
  (List.range 8).flatMap fun k => leBytes 4 (s.doorbellIndex ((a - doorbellBase) / 4 + k))

/-- Does a standalone replay run (R329)? Xagus data does not arrive in it: a job that reads some is marked (R314), and its words are
poisoned like those of a member that cannot be reached (assumption 78). -/
def State.xAlone (s : State) : Bool := s.replaying && !s.flag F.JRN_CTRL_domain

/-- LD (R123, R139, R343, R417): imm words from a 32-byte-aligned device address into the line buffers. -/
def execLd (n : Arr) (s : State) : Result :=
  let k := arrNum n
  .next (s.issue k 0x20 fun s i =>
    let a := (s.arr k).operand i.a
    let dst := (s.arr k).lbWord i.d
    let len := 32 * i.imm
    let fly := { emptyFly with wr := [(dst, i.imm)] }
    let put := fun (ws : List Byte) (bad : Bool) => segsOf (fun _ => bad) (32 * dst) ws
    if a % 32 ≠ 0 ∨ s.badRange a len then s.slotFault k 2
    else if !lbFits dst i.imm then s.slotFault k 2
    else if !(s.arr k).accepts [] [(dst, i.imm)] then s
    else
      match s.region a with
      | .member d =>
        if s.xAlone then (s.markJob k).moveFly k i { fly with lbW := put (List.replicate len 0#8) true }
        else if s.xReach d then
          ((s.moveFly k i { fly with await := (xPieces a i.imm).length }).xReadRuns k d dst (xPieces a i.imm) a)
        else s.missCount.moveFly k i { fly with lbW := put (List.replicate len 0#8) true }
      | .doorbell =>
        s.moveFly k i { fly with lbW := put ((List.range i.imm).flatMap fun w => s.doorbellWord (a + 32 * w)) false }
      | _ =>
        let r := s.fromMem a (32 * dst) len
        r.1.moveFly k i { fly with lbW := r.2 })

/-- Words written to a member: one frame for each piece, poison with them. -/
def State.xWriteRuns (s : State) (n d src : Nat) (ps : List (Nat × Nat)) (base : Nat) : State :=
  ps.foldl
    (fun s p =>
      let ws := (s.arr n).wordsAt (src + (p.1 - base) / 32) p.2
      let bad := ((List.range ws.length).zip ws).map fun w => if w.2.2 then 2 ^ w.1 else 0
      (s.xSend (mkFrame 1 s.xId d (p.1 / 32) bad.sum (ws.flatMap (·.1)))).xSent n d false (p.1 % 2 ^ 36)) s

/-- ST (R123, R139, R343, R417): imm words from the line buffers to a 32-byte-aligned device address; a doorbell write rings one
doorbell. -/
def execSt (n : Arr) (s : State) : Result :=
  let k := arrNum n
  .next (s.issue k 0x21 fun s i =>
    let a := (s.arr k).operand i.d
    let src := (s.arr k).lbWord i.a
    let len := 32 * i.imm
    let fly := { emptyFly with rd := [(src, i.imm)] }
    let bad := (s.arr k).rangeBad (32 * src) len
    if !lbFits src i.imm then s.slotFault k 2
    else if s.region a = .doorbell then
      if i.imm ≠ 1 ∨ a % 4 ≠ 0 then s.slotFault k 2
      else if bad then s.moveFly k i { fly with cause := 1 }
      else s.moveFly k i { fly with bell := some ((a - doorbellBase) / 4, leNat (cellRead (s.arr k).lb (32 * src) 4)) }
    else if a % 32 ≠ 0 ∨ s.badRange a len then s.slotFault k 2
    else if !(s.arr k).accepts [(src, i.imm)] [] then s
    else
      match s.region a with
      | .member d =>
        let f := { fly with cause := if bad then 1 else 0 }
        if s.xReach d then (s.xWriteRuns k d src (xPieces a i.imm) a).moveFly k i f else s.missCount.moveFly k i f
      | _ => s.moveFly k i { fly with memW := (s.arr k).toMem (32 * src) a len })

end Sys2Proof.Machine
end

