-- ==== Sys2Proof/Machine/Collective.lean ====
section
/-! DEFINITION. The XGS collective engine: slots, groups, all-gather, reduce-scatter, merge (R191 to R193, R420 to R423). -/

namespace Sys2Proof.Machine

/-- A collective slot's address and fields (R420). -/
def State.collAt (s : State) (n : Nat) : Nat := s.addr F.XGS_COLL_BASE_LO_base + 128 * n
def State.collSlot (s : State) (n : Nat) : List Byte := s.bytes (s.collAt n) 128
def csControl (b : List Byte) : Nat := fieldAt b 0 4
def csOp (b : List Byte) : Nat := csControl b / 2 % 8
def csExact (b : List Byte) : Bool := (csControl b).testBit 4
def csInt (b : List Byte) : Bool := (csControl b).testBit 5
def csAll (b : List Byte) : Bool := (csControl b).testBit 6
def csGroup (b : List Byte) : Nat := csControl b / 256 % 16
def csSrc (b : List Byte) : Nat := fieldAt b 8 8
def csDst (b : List Byte) : Nat := fieldAt b 0x10 8
def csSize (b : List Byte) : Nat := fieldAt b 0x18 4
def csQueries (b : List Byte) : Nat := fieldAt b 0x1C 4
def csFirst (b : List Byte) : Nat := fieldAt b 0x30 2
def csCount (b : List Byte) : Nat := fieldAt b 0x32 2
def csTotal (b : List Byte) : Nat := fieldAt b 0x34 4

/-- The members of group `g` in rank order, if it is valid (R421). -/
def State.group (s : State) (g : Nat) : Option (List Nat) :=
  let t := (tabGet s.xgs.groups g []).map (·.vote)
  let w := t.getD 0 0#32
  let n := w.toNat % 64
  if w.getLsbD 31 ∧ 1 ≤ n ∧ n ≤ 32 then
    some ((List.range n).map fun r => ((t.getD (1 + r / 4) 0#32).toNat / 256 ^ (r % 4)) % 32)
  else none

/-- 256-bit words of a stretch partial of head dimension `d` (R422). -/
def mergeWords (d : Nat) : Nat := (d + 2 + 7) / 8

/-- Words of a member's contribution to member of rank `r`: first word's address, words. -/
def contribution (b : List Byte) (r : Nat) : Nat × Nat :=
  match csOp b with
  | 1 => (csSrc b, csSize b / 32)
  | 2 => (csSrc b + r * csSize b * 4, csSize b / 8)
  | _ => (csSrc b, csQueries b * csCount b * mergeWords (csSize b))

/-- Are the sizes of a slot within R420? -/
def csSizeOk (b : List Byte) : Bool :=
  match csOp b with
  | 1 => csSize b % 32 == 0
  | 2 => csSize b % 8 == 0
  | 3 => decide (1 ≤ csSize b ∧ csSize b ≤ 1024 ∧ 1 ≤ csQueries b ∧ csQueries b ≤ 65536 ∧ 1 ≤ csTotal b ∧ csTotal b ≤ 65536 ∧ 1 ≤ csCount b)
  | _ => false

/-- Bytes of the result, and of the whole source. -/
def csResultBytes (b : List Byte) (n : Nat) : Nat :=
  match csOp b with
  | 1 => n * csSize b
  | 2 => 4 * csSize b
  | _ => 32 * csQueries b * mergeWords (csSize b)
def csSourceBytes (b : List Byte) (n : Nat) : Nat :=
  match csOp b with
  | 2 => 4 * n * csSize b
  | _ => 32 * (contribution b 0).2

/-- Does a rank of a slot hold a result? -/
def csHolds (b : List Byte) (r : Nat) : Bool := csOp b != 3 || r == 0 || csAll b

/-- What a member finds wrong with its own slot: cause 2 for its group, 1 for its fields (assumption 36), 6 for its addresses. -/
def State.collOwnCause (s : State) (b : List Byte) : Nat :=
  match s.group (csGroup b) with
  | none => 2
  | some m =>
    match m.idxOf? s.xId with
    | none => 2
    | some r =>
      if !csSizeOk b then 1
      else if !s.inMemory (csSrc b) (csSourceBytes b m.length)
          ∨ (csHolds b r ∧ !s.inMemory (csDst b) (csResultBytes b m.length)) then 6
      else 0

/-- The payload of a collective control frame (layout of assumption 32): bytes 0x00 to 0x37 of the slot, arith_rev, cause. -/
def State.collSay (s : State) (b : List Byte) (cause : Nat) : List Byte :=
  bytesAt b 0 0x38 ++ leBytes 4 (s.get F.GEN_FW_REV_arith_rev) ++ leBytes 4 cause

/-- A control frame of slot `n` to every other member of a group. -/
def State.collTell (s : State) (n : Nat) (members : List Nat) (payload : List Byte) : State :=
  (members.filter fun i => decide (i ≠ s.xId)).foldl (fun s i => s.xSend (mkFrame 10 s.xId i n 0 payload)) s

/-- What the members' announcements show wrong together (R423): 1, 4, 5, or 0. -/
def collGroupCause (mine : List Byte) (all : List (List Byte)) : Nat :=
  let same := all.all fun a => decide (bytesAt a 0 4 = bytesAt mine 0 4 ∧ bytesAt a 0x18 8 = bytesAt mine 0x18 8 ∧ bytesAt a 0x34 4 = bytesAt mine 0x34 4)
  let spans := all.map fun a => (csFirst a, csCount a)
  let covered := (List.range (csTotal mine)).all fun t => (spans.filter fun p => decide (p.1 ≤ t ∧ t < p.1 + p.2)).length == 1
  let sum := (spans.map (·.2)).sum
  if !same then 1
  else if csOp mine ≠ 3 then 0
  else if !(covered && decide (sum = csTotal mine)) then 4
  else if all.any fun a => bytesAt a 0x38 4 != bytesAt mine 0x38 4 then 5
  else 0

/-- Words read at an address for a collective, each with its poison. -/
def State.collRead (s : State) (a n : Nat) : State × List XWord :=
  (List.range n).foldl (fun (p : State × List XWord) k => let r := p.1.load (a + 32 * k) 32; (r.1, p.2 ++ [r.2])) (s, [])

/-- Data frames of a slot to a member: up to four words each, numbered; operand bit 6 marks a merge result (layout of assumption 32). -/
def State.collSend (s : State) (n dst : Nat) (result : Bool) (ws : List XWord) : State :=
  (List.range ((ws.length + 3) / 4)).foldl
    (fun s k =>
      let p := (ws.drop (4 * k)).take 4
      let bad := ((List.range p.length).zip p).map fun w => if w.2.2 then 2 ^ w.1 else 0
      s.xSend (mkFrame 9 s.xId dst (n + (if result then 64 else 0) + 128 * (4 * k)) bad.sum (p.flatMap (·.1)))) s

/-- Words noted as arrived for a slot. -/
def State.collNote (s : State) (n member first : Nat) (result : Bool) (ws : List XWord) : State :=
  let new := ((List.range ws.length).zip ws).map fun w => (⟨result, member, first + w.1, w.2.1, w.2.2⟩ : CollWord)
  { s with xgs := { s.xgs with data := tabSet s.xgs.data n (tabGet s.xgs.data n [] ++ new) } }

/-- A failure noted for a slot, the first one standing. -/
def State.collFail (s : State) (n cause : Nat) : State :=
  { s with xgs := { s.xgs with failed := if (tabFind s.xgs.failed n).isSome then s.xgs.failed else tabSet s.xgs.failed n cause } }

/-- Key of what a slot has heard from a member before it starts, and of what it keeps while it runs. -/
def heardKey (n i : Nat) : Nat := 32 * n + i
def heldKey (n i : Nat) : Nat := 2048 + 32 * n + i

/-- A slot taken up: go and done clear, its announcement goes to the group. -/
def State.collTake (s : State) (n : Nat) (members : List Nat) (b : List Byte) (cause : Nat) : State :=
  let a := s.collAt n
  let s1 := (s.pokeNat a 4 (csControl b / 2 * 2)).pokeNat (a + 4) 4 (fieldAt b 4 4 / 2 * 2)
  let s2 := { s1 with xgs := { s1.xgs with said := s1.xgs.said ++ [n] } }
  s2.collTell n members (s2.collSay b cause)

/-- A slot started: what each member announced is kept, the contributions go out, the own one is at hand. -/
def State.collBegin (s : State) (n : Nat) (members : List Nat) (b : List Byte) : State :=
  let kept := members.foldl (fun t i =>
      match tabFind t (heardKey n i) with
      | some a => tabSet (tabDel t (heardKey n i)) (heldKey n i) a
      | none => t) s.xgs.heard
  let s1 := { s with xgs := { s.xgs with
      heard := tabSet kept (heldKey n s.xId) b
      go := s.xgs.go.erase n
      said := s.xgs.said.erase n
      active := s.xgs.active ++ [n] } }
  ((List.range members.length).zip members).foldl
    (fun s m =>
      if csOp b = 3 ∧ m.1 ≠ 0 then s
      else
        let c := contribution b m.1
        let r := s.collRead c.1 c.2
        if m.2 = s.xId then r.1.collNote n m.2 0 false r.2 else r.1.collSend n m.2 false r.2) s1

/-- A slot that fails before it starts. -/
def State.collAbort (s : State) (n cause : Nat) : State :=
  let s1 := s.collFail n cause
  { s1 with xgs := { s1.xgs with
      go := s1.xgs.go.erase n
      said := s1.xgs.said.erase n
      active := s1.xgs.active ++ [n] } }

/-- COLLECTIVE_START (R421, R423): with go set and its wait satisfied, the member announces its slot to the group; once every
member has announced, the collective starts, or fails on what the announcements show. -/
def execCollectiveStart (n : Fin 64) (s : State) : Result :=
  .next (
    let b := s.collSlot n.val
    let w := fieldAt b 0x20 2
    let met := !w.testBit 15 || decide (fieldAt b 0x28 8 ≤ s.fence (w % 4096))
    if !s.xgs.go.contains n.val ∨ !met then s
    else
      let members := (s.group (csGroup b)).getD []
      let own := s.collOwnCause b
      if own ≠ 0 then (s.collTake n.val members b own).collAbort n.val own
      else
        let say := s.collSay b 0
        let s1 := if s.xgs.said.contains n.val then s else s.collTake n.val members b 0
        let others := members.filter fun i => decide (i ≠ s.xId)
        match tabFind s1.xgs.failed n.val with
        | some c => s1.collAbort n.val c
        | none =>
          if others.any fun i => !s1.xReach i then s1.collAbort n.val 3
          else if others.any fun i => (tabFind s1.xgs.heard (heardKey n.val i)).isNone then s1
          else
            let c := collGroupCause say (members.map fun i => if i = s.xId then say else tabGet s1.xgs.heard (heardKey n.val i) [])
            if c ≠ 0 then s1.collAbort n.val c else s1.collBegin n.val members say)

/-- COLLECTIVE_CONTROL (R421, R423): a member announces its slot, or tells a failure. -/
def execCollectiveControl (l : Fin 8) (f : XFrame) (s : State) : Result :=
  .next (s.xReceive l.val f 10 fun s ws =>
    let b := ws.flatMap (·.1)
    let n := f.operand.toNat % 64
    if fieldAt b 0x3C 4 ≠ 0 then s.collFail n (fieldAt b 0x3C 4 % 16)
    else { s with xgs := { s.xgs with heard := tabSet s.xgs.heard (heardKey n f.src.toNat) b } })

/-- COLLECTIVE_DATA (R422): words of a member's contribution, or of a merge result. -/
def execCollectiveData (l : Fin 8) (f : XFrame) (s : State) : Result :=
  .next (s.xReceive l.val f 9 fun s ws =>
    s.collNote (f.operand.toNat % 64) f.src.toNat (f.operand.toNat / 128) (f.operand.getLsbD 6) ws)

/-! ### Results (R422) -/

/-- The word that a member sent. -/
def collWord (ws : List CollWord) (result : Bool) (member idx : Nat) : Option CollWord :=
  ws.find? fun w => decide (w.result = result ∧ w.member = member ∧ w.idx = idx)

/-- Words sent by a member, all of them. -/
def collWords (ws : List CollWord) (result : Bool) (member n : Nat) : Option (List XWord) :=
  (List.range n).mapM fun k => (collWord ws result member k).map fun w => (w.bytes, w.bad)

/-- Position of a member's word in order of arrival. -/
def arrivalOf (ws : List CollWord) (member idx : Nat) : Nat :=
  ws.findIdx fun w => decide (w.result = false ∧ w.member = member ∧ w.idx = idx)

/-- Numbers put in order of a key, equal keys as they stood. -/
def sortByKey (key : Nat → Nat) : List Nat → List Nat
  | [] => []
  | x :: l => ins x (sortByKey key l)
where
  ins (x : Nat) : List Nat → List Nat
    | [] => [x]
    | y :: l => if key x ≤ key y then x :: y :: l else y :: ins x l

/-- One word of a reduction: the members' words in rank order, combined exactly and saturated (int32), by the tree of R87, or in
order of arrival. -/
def reduceWord (b : List Byte) (ws : List CollWord) (members : List Nat) (idx : Nat) : XWord :=
  let get := fun (i : Nat) => (collWord ws false i idx).map fun w => (w.bytes, w.bad)
  let order := if csExact b ∨ csInt b then members else sortByKey (fun i => arrivalOf ws i idx) members
  let vs := order.map fun i => (get i).getD ([], true)
  let lane := fun (k : Nat) =>
    let xs := vs.map fun v => fieldAt v.1 (4 * k) 4
    if csInt b then ofInt 32 (max (-2 ^ 31) (min (2 ^ 31 - 1) ((xs.map (toSigned 32)).sum)))
    else if csExact b then (tree addN ⟨0, 0⟩ (xs.map fun x => ⟨x, 0⟩)).val
    else (xs.drop 1).foldl fAdd (xs.headD 0)
  ((List.range 8).flatMap fun k => leBytes 4 (lane k), vs.any (·.2))

/-- A stretch partial: m, l, o, poison. -/
structure Stretch where
  m   : Nat
  l   : Nat
  o   : List Nat
  bad : Bool

/-- merge of R191 under a firmware arithmetic revision. -/
def mergeStretch (rev : Nat) (a b : Stretch) : Stretch :=
  let m := (f32max a.m b.m).val
  let w := fun (x : Nat) => if x = 0xFF800000 then 0 else Config.expD rev (fSub x m)
  let wa := w a.m
  let wb := w b.m
  ⟨m, fAdd (fMul a.l wa) (fMul b.l wb), (a.o.zip b.o).map fun p => fAdd (fMul p.1 wa) (fMul p.2 wb), a.bad || b.bad⟩

/-- A partial of `d` values as its words hold it. -/
def stretchOf (d : Nat) (ws : List XWord) : Stretch :=
  let bs := ws.flatMap (·.1)
  ⟨fieldAt bs 0 4, fieldAt bs 4 4, (List.range d).map fun k => fieldAt bs (8 + 4 * k) 4, ws.any (·.2)⟩

/-- The words of a partial. -/
def Stretch.words (d : Nat) (x : Stretch) : List XWord :=
  let bs := leBytes 4 x.m ++ leBytes 4 x.l ++ x.o.flatMap (leBytes 4)
  (List.range (mergeWords d)).map fun k => (bytesAt bs (32 * k) 32, x.bad)

/-- The merge of one query (R191 to R193): stretches by number in the tree, or in order of the arrival of their last word. -/
def State.mergeQuery (s : State) (n : Nat) (b : List Byte) (ws : List CollWord) (members : List Nat) (q : Nat) : List XWord :=
  let d := csSize b
  let w := mergeWords d
  let rev := s.get F.GEN_FW_REV_arith_rev
  let parts := members.flatMap fun i =>
    let a := tabGet s.xgs.heard (heldKey n i) []
    (List.range (csCount a)).map fun t => (csFirst a + t, i, (q * csCount a + t) * w)
  let at' := fun (p : Nat × Nat × Nat) => stretchOf d ((List.range w).map fun k =>
      ((collWord ws false p.2.1 (p.2.2 + k)).map fun x => (x.bytes, x.bad)).getD ([], true))
  let last := fun (t : Nat) =>
    match parts.find? fun p => decide (p.1 = t) with
    | some p => ((List.range w).map fun k => arrivalOf ws p.2.1 (p.2.2 + k)).foldl max 0
    | none => 0
  let order := if csExact b then List.range (csTotal b) else sortByKey last (List.range (csTotal b))
  let xs := order.filterMap fun t => (parts.find? fun p => decide (p.1 = t)).map at'
  let empty : Stretch := ⟨0xFF800000, 0, List.replicate d 0, false⟩
  let r := if csExact b then tree (mergeStretch rev) empty xs
    else (xs.drop 1).foldl (mergeStretch rev) (xs.headD empty)
  r.words d

/-- The result words of a slot on this member, once everything it needs has arrived. -/
def State.collResult (s : State) (n : Nat) (b : List Byte) (members : List Nat) : Option (List XWord) :=
  let ws := tabGet s.xgs.data n []
  let rank := (members.idxOf? s.xId).getD 0
  match csOp b with
  | 1 => (members.mapM fun i => collWords ws false i (csSize b / 32)).map List.flatten
  | 2 =>
    (members.mapM fun i => collWords ws false i (csSize b / 8)).map fun _ =>
      (List.range (csSize b / 8)).map fun k => reduceWord b ws members k
  | _ =>
    if rank = 0 then
      (members.mapM fun i =>
        collWords ws false i (csQueries b * csCount (tabGet s.xgs.heard (heldKey n i) []) * mergeWords (csSize b))).map fun _ =>
          (List.range (csQueries b)).flatMap fun q => s.mergeQuery n b ws members q
    else if csAll b then collWords ws true (members.headD 0) (csQueries b * mergeWords (csSize b))
    else some []

/-- A slot's end on this member (R423): status, then the signal; nothing of it is left. -/
def State.collEnd (s : State) (n status : Nat) : State :=
  let b := s.collSlot n
  let s1 := s.pokeNat (s.collAt n + 4) 4 status
  let sig := fieldAt b 0x22 2
  let s2 := if sig.testBit 15 then s1.fenceAdd (sig % 4096) (fieldAt b 0x24 4) else s1
  { s2.count F.XGS_COLL_COUNT_count 1 with xgs := { s2.xgs with
      active := s2.xgs.active.erase n
      data := tabDel s2.xgs.data n
      failed := tabDel s2.xgs.failed n
      heard := s2.xgs.heard.filter fun e => decide (¬ (2048 + 32 * n ≤ e.1 ∧ e.1 < 2048 + 32 * n + 32)) } }

/-- COLLECTIVE_DONE (R422, R423): the results of a started collective become visible, or it fails. -/
def execCollectiveDone (n : Fin 64) (s : State) : Result :=
  .next (if !s.xgs.active.contains n.val then s
    else
      match tabFind s.xgs.failed n.val with
      | some c => (s.collEnd n.val (3 + 4 * (c % 16))).raise pgXGS Ev.XGS_coll_fail
      | none =>
        let b := tabGet s.xgs.heard (heldKey n.val s.xId) []
        let members := (s.group (csGroup b)).getD []
        match s.collResult n.val b members with
        | none => s
        | some ws =>
          let s1 := ((List.range ws.length).zip ws).foldl (fun s w => s.store (csDst b + 32 * w.1) w.2.1 w.2.2) s
          let s2 := if csOp b = 3 ∧ csAll b ∧ members.headD 0 = s.xId then
              (members.drop 1).foldl (fun s i => s.collSend n.val i true ws) s1
            else s1
          s2.collEnd n.val (1 + if ws.any (·.2) then 64 else 0))

end Sys2Proof.Machine
end

