-- ==== Sys2Proof/Machine/MainMemory.lean ====
section
/-! DEFINITION. The commands of 12_memory_system. -/

namespace Sys2Proof.Machine

/-- The words of a line of 32 bytes, least significant byte first. -/
def lineBytes (l : Line) : List Byte := (List.range 32).map fun i => BitVec.ofNat 8 (l.toNat / 256 ^ i)

/-- The line that 32 bytes spell. -/
def bytesLine (bs : List Byte) : Line := BitVec.ofNat 256 (leNat (bs.take 32))

/-- The condition in which a stored word is read that takes an upset on the way. -/
def foundAs (code : CodeState) (stored : Option WordCond) : Option WordCond :=
  match stored, code with
  | some c, _ => some c
  | none, .clean => none
  | none, .one b => some (.one b)
  | none, .many => some .many

/-- The device address of a request. -/
def DramReq.at : DramReq → Nat
  | .write a _ _ _ => a
  | .read a _ _ => a

/-- A request served by its channel. A write enters the write queue, merged with the stored word where the mask leaves bytes out, and is
visible from then on (R375, R578). A read takes its word from the write queue if it is pending there, else from DRAM in the condition
in which it is found (R377); a correction is logged, an uncorrectable word is counted and delivered poisoned, and either may start the
retirement of its row (R384, R385). -/
def State.dramServe (s : State) (r : DramReq) : State :=
  let a := r.at
  let cx := s.dramAt (a - dramBase)
  let k := cx.1 / 2
  let ch := cx.1 % 2
  match r with
  | .write _ data mask poison =>
    let old := cellRead s.mem a 32
    let new := lineBytes data
    let merged := (List.range 32).map fun i => if mask.getLsbD i then new.getD i 0#8 else old.getD i 0#8
    let s0 := if mask = 0xFFFFFFFF#32 then s else s.logRead (a / 32)
    let cond := tabFind s.cond (a / 32)
    let bad := poison || (mask != 0xFFFFFFFF#32 && (match cond with | some c => c.bad | none => false))
    let s1 := (s0.poke a merged bad).applyInject (a / 32)
    ((s1.ccAccess k ch cx.2 true).wqAccept k ch (cx.2 / 32)).mcMode k
  | .read _ code cc =>
    let q := (s.mc k).wq ch
    let fwd := q.contains (cx.2 / 32)
    let s0 := if q.any fun v => decide (v / 2 = cx.2 / 64) then s.count (F.MC_FWD_COUNT_count k) 1 else s
    let s1 := (s0.ccAccess k ch cx.2 false).cacheWord k ch cx.2 (a / 256 * 8) cc
    let ret := fun (s : State) (p : Nat) => s.emit .memReturn [a, p] (cellRead s.mem a 32)
    match (tabFind s1.cond (a / 32)).or (if fwd then none else foundAs code none) with
    | some .poison => ret s1 1
    | some .many => ret (s1.mcUncorrectable k ch cx.2 false) 1
    | some (.one b) => ret (s1.mcCorrected k ch cx.2 b.val false) 0
    | none => ret s1 0

/-- Must a request wait: its channel cannot serve it now (R380, R382, R383, R385, R398), or an earlier one to its word waits (R377)? -/
def State.dramWaits (s : State) (r : DramReq) : Bool :=
  !s.dramOpen (r.at - dramBase) || s.memg.waits.any fun q => decide (q.at = r.at)

/-- A request to device memory: served, or held until its channel can serve it; one to an unmapped address or to the channel spare is
counted, a read of it returns poison (R370, R386). Other regions have no channel. -/
def State.dramRequest (s : State) (r : DramReq) : State :=
  let gone := fun (s : State) => match r with
    | .write _ _ _ _ => s.countUnmapped r.at
    | .read a _ _ => (s.countUnmapped a).emit .memReturn [a, 1] (List.replicate 32 0#8)
  match s.region r.at with
  | .dram => if s.dramWaits r then { s with memg := { s.memg with waits := s.memg.waits ++ [r] } } else s.dramServe r
  | .spare => gone s
  | .gap _ => gone s
  | _ => s

/-- Requests that wait given to their channels again, in their order. -/
def State.dramRetry (s : State) : State :=
  s.memg.waits.foldl State.dramRequest { s with memg := { s.memg with waits := [] } }

/-- DRAM_WRITE (R375, R578, R373): one 256-bit word under a byte mask. -/
def execDramWrite (addr : BitVec 48) (data : Line) (mask : Word) (poison : Bool) (s : State) : Result :=
  .next (s.dramRequest (.write (addr.toNat / 32 * 32) data mask poison))

/-- DRAM_READ (R374, R377, R384): one 256-bit word, found as `found` says. -/
def execDramRead (addr : BitVec 48) (found : DramFound) (s : State) : Result :=
  .next (s.dramRequest (.read (addr.toNat / 32 * 32) found.code found.check))

/-- MEMG_CTRL.train starts the training of every channel in state 0 (reset) (R381). -/
def State.trainStart (s : State) : State :=
  if s.get F.MEMG_STATUS_state = 0 then
    let s1 := { s.put F.MEMG_STATUS_state 1 with memg := { s.memg with step := 1 } }
    (List.range 16).foldl (fun s k => s.put (F.MC_STATUS_mode k) 1) s1
  else s

/-- One channel's failure of the running training step; the third is a failure for good (R382). -/
def State.trainFail (s : State) (c : Nat) : State :=
  let k := c / 2
  let m := s.mc k
  let n := (if c % 2 = 0 then m.fails0 else m.fails1) + 1
  let s1 := s.setMc k (if c % 2 = 0 then { m with fails0 := n } else { m with fails1 := n })
  if n = 3 then s1.channelFailed c else s1

/-- The failure counts of a step cleared for the next one. -/
def State.trainClear (s : State) : State :=
  (List.range 16).foldl (fun s k => s.setMc k { s.mc k with fails0 := 0, fails1 := 0 }) s

/-- Training ended: MEMG_TRAIN.done, temperatures stored, spillway mode with cause 1, the sweep begins (R378, R380, R381). -/
def State.trainDone (s : State) (temps : List Int) : State :=
  let s1 := (List.range 16).foldl
    (fun s k =>
      let t0 := temps.getD (2 * k) 0
      let t1 := temps.getD (2 * k + 1) 0
      ((s.setMc k { s.mc k with trained0 := t0, trained1 := t1 }).put (F.MC_TEMP_trained_at k) (ofInt 8 t1)).put
        (F.MC_STATUS_mode k) 2) s
  (((s1.put F.MEMG_TRAIN_done 0xFFFF).put F.MEMG_STATUS_state 2).raise pgMEMG Ev.MEMG_trained).mcModes

/-- TRAINING_STEP_DONE (R381, R382, R511): the running step of training ends with the channels that failed it and the
temperatures now; a step overlapped by a VHB dip is run again without a failure, and a step that a channel failed is
run again. After step 5 the sweep begins. -/
def execTrainingStepDone (failed : List (Fin 32)) (temps : List Int) (dip : Bool) (s : State) : Result :=
  let n := s.memg.step
  if n = 0 ∨ 5 < n ∨ dip then .next s
  else
    let bad := failed.filter fun c => decide (s.memg.retired ≠ some c.val)
    let s1 := bad.foldl (fun s c => s.trainFail c.val) s
    if s1.get F.MEMG_STATUS_state = 6 then .next s1
    else if bad.any fun c => decide (s1.memg.retired ≠ some c.val) then .next s1
    else
      let s2 := { s1.trainClear with memg := { s1.memg with step := n + 1 } }
      .next (if n = 5 then s2.trainDone temps else s2)

/-- The segments that a sweep clears at each step, in their order (R380): step 6 check and spare rows, 7 segment 0,
8 and on the segments 1 to 7. -/
def sweepSegment (step : Nat) : Option Nat := if step < 7 then none else some (step - 7)

/-- The data of a partial-array segment of every channel cleared to coded zeros (R380, R389). -/
def State.zeroSegment (s : State) (seg : Nat) : State :=
  let inSeg := fun a => decide (dramBase ≤ a ∧ a < dramBase + dramBytes ∧ (s.dramAt (a - dramBase)).2 / 536870912 = seg)
  { s with mem := s.mem.filter fun e => !inSeg e.1, cond := s.cond.filter fun e => !inSeg (e.1 * 32) }

/-- SEGMENT_SWEPT (R380): the next segment in order is clear and its ready bit sets; a segment kept through Park is not
swept. After the last, main memory is in start-up. -/
def execSegmentSwept (s : State) : Result :=
  let n := s.memg.step
  if s.get F.MEMG_STATUS_state ≠ 2 ∨ n < 6 then .next s
  else
    let s1 := { s with memg := { s.memg with step := if n = 14 then 0 else n + 1 } }
    match sweepSegment n with
    | none => .next s1
    | some seg =>
      let s2 := if s.memg.kept.contains seg then s1 else s1.zeroSegment seg
      let s3 := s2.put F.MEMG_STATUS_ready_segments (s2.get F.MEMG_STATUS_ready_segments ||| 2 ^ seg)
      .next (if seg = 7 then (s3.put F.MEMG_STATUS_state 3).memgNormal else s3).dramRetry

/-- A channel queued for retraining, and the next one begun with a flush and cause 4 (R383). -/
def State.retrainNext (s : State) (k : Nat) : State :=
  let m := s.mc k
  match m.retrain, m.retrainQ with
  | none, c :: t => ((s.setMc k { m with retrain := some c, retrainQ := t }).flushStart k).mcMode k
  | _, _ => s

/-- Channel `ch` of controller `k` to be retrained, once. -/
def State.retrainAsk (s : State) (k ch : Nat) : State :=
  let m := s.mc k
  if m.retrain = some ch ∨ m.retrainQ.contains ch ∨ s.memg.retired = some (2 * k + ch) then s
  else (s.setMc k { m with retrainQ := m.retrainQ ++ [ch] }).retrainNext k

/-- TEMPERATURE_READ (R383): the temperature of package p is shown by its two controllers, and a channel that has
drifted by more than MC_RETRAIN_CFG.drift from its trained temperature is retrained. -/
def execTemperatureRead (p : Fin 8) (celsius : Int) (s : State) : Result :=
  .next ([2 * p.val, 2 * p.val + 1].foldl
    (fun s k =>
      let s1 := s.put (F.MC_TEMP_temp k) (ofInt 8 celsius)
      if s1.get (F.MC_STATUS_mode k) < 2 then s1
      else
        let d := s1.get (F.MC_RETRAIN_CFG_drift k)
        let m := s1.mc k
        let s2 := if d < (celsius - m.trained0).natAbs then s1.retrainAsk k 0 else s1
        if d < (celsius - m.trained1).natAbs then s2.retrainAsk k 1 else s2) s)

/-- MR4_READ (R383): the refresh multiplier of a channel's die; a report above its rated temperature raises temp_high. -/
def execMr4Read (c : Fin 32) (rate : BitVec 3) (hot : Bool) (s : State) : Result :=
  .next ((s.put (F.MC_TEMP_rate (c / 2)) rate.toNat).raiseIf hot (pgMC (c / 2)) Ev.MC_temp_high)

/-- REFRESH (R383): a bank's refresh is issued; channels in self-refresh refresh themselves, a retired one is powered down (R388). -/
def execRefresh (c : Fin 32) (bank : Fin 16) (s : State) : Result :=
  if s.memg.selfRefresh ∨ s.memg.retired = some c.val then .next s
  else
    let k := c.val / 2
    let key := c.val % 2 * 16 + bank.val
    .next (s.setMc k { s.mc k with refreshed := tabSet (s.mc k).refreshed key (tabGet (s.mc k).refreshed key 0 + 1) })

/-- A write of MC_CTRL: a flush (R379); both channels retrained, one after the other (R383). -/
def State.mcCtrl (s : State) (k : Nat) (w : Word) : State :=
  let s1 := if w.getLsbD 0 then s.flushStart k else s
  if w.getLsbD 3 ∧ 2 ≤ s1.get (F.MC_STATUS_mode k) then (s1.retrainAsk k 0).retrainAsk k 1 else s1

/-- RETRAIN (R383): MC_CTRL.retrain. -/
def execRetrain (k : Fin 16) (acc : Acc) (s : State) : Result := .next (s.command (pgMC k) 0x020 acc fun s w => s.mcCtrl k w)

/-- RETRAIN_DONE (R383): the running retraining ends after its flush; the new trained temperature is stored, the
retraining counted, and spillway is left unless the other channel follows. -/
def execRetrainDone (k : Fin 16) (us : Nat) (s : State) : Result :=
  let m := s.mc k
  match m.retrain with
  | none => .next s
  | some ch =>
    if s.flag (F.MC_STATUS_flushing k) then .next s
    else
      let t := s.get (F.MC_TEMP_temp k)
      let ti := toSigned 8 t
      let s1 := s.setMc k (if ch = 0 then { m with retrain := none, trained0 := ti }
        else { m with retrain := none, trained1 := ti })
      let s2 := (((s1.put (F.MC_TEMP_trained_at k) t).satInc (F.MC_RETRAIN_count k)).putMax (F.MC_RETRAIN_max_us k) us).raise
        (pgMC k) Ev.MC_retrain
      .next ((s2.retrainNext k).mcMode k).dramRetry

/-- FLUSH (R379): MC_CTRL.flush. -/
def execFlush (k : Fin 16) (acc : Acc) (s : State) : Result := .next (s.command (pgMC k) 0x020 acc fun s w => s.mcCtrl k w)

/-- FLUSH_DONE (R379): the queues are empty and every dirty check line is written back. -/
def execFlushDone (k : Fin 16) (s : State) : Result :=
  if s.flag (F.MC_STATUS_flushing k) then .next (s.flushEnd k) else .next s

/-- The channel offset whose bytes lie at offset `x` of a channel (R385): a spare row holds the row that it replaces, a row served
from a spare holds nothing. -/
def McSt.heldAt (m : McSt) (ch x : Nat) : Option Nat :=
  if spareBase ≤ x then
    (m.entries.find? fun e => decide (e.1 / 64 = ch ∧ e.2.bank = bankOf x ∧ e.2.spare = rowOf x - 130968)).map fun e =>
      e.2.row * 32768 + x % 32768
  else if m.remapped ch (bankOf x) (rowOf x) then none
  else some x

/-- The words of device memory whose data lie in the 32 bytes at channel offset `x`, and those whose check bytes do (R372). -/
def State.scrubbed (s : State) (k ch x : Nat) : Option Nat × List Nat :=
  let word := fun y => (dramBase + s.dramFrom (2 * k + ch) y) / 32
  match (s.mc k).heldAt ch x with
  | none => (none, [])
  | some y => if y < checkBase then (some (word y), []) else if y < spareBase then (none, (checkedBy y).map word) else (none, [])

/-- One word of the scrubbed granule: a correction is logged and written back, an uncorrectable word counted; one of check bytes
poisons the words that it checks. A retired channel is powered down (R388). -/
def State.scrubWord (s : State) (k ch x : Nat) (code : CodeState) : State :=
  if s.memg.retired = some (2 * k + ch) then s
  else
    let r := s.scrubbed k ch x
    match r.1.bind fun w => (tabFind s.cond w).map fun c => (w, c), code with
    | some (_, .poison), _ => s
    | some (_, .many), _ => s.mcUncorrectable k ch x true
    | some (w, .one b), _ => { s with cond := tabDel s.cond w }.mcCorrected k ch x b.val true
    | none, .clean => s
    | none, .one b => s.mcCorrected k ch x b.val true
    | none, .many =>
      let own := match r.1 with
        | some w => tabSet s.cond w .many
        | none => s.cond
      { s with cond := r.2.foldl (fun c w => tabSet c w WordCond.poison) own }.mcUncorrectable k ch x true

/-- PATROL_SCRUB (R384): the granule at MC_SCRUB_POS of both channels is read, 16 words of channel 0 then 16 of
channel 1 in the given conditions, and the position moves on. -/
def execPatrolScrub (k : Fin 16) (codes : List CodeState) (s : State) : Result :=
  if !s.flag (F.MC_CTRL_scrub_en k) ∨ s.get (F.MC_STATUS_mode k) < 2 then .next s
  else
    let g := s.get (F.MC_SCRUB_POS_granule k)
    let s1 := (List.range 32).foldl
      (fun s i => s.scrubWord k (i / 16) (g * 512 + i % 16 * 32) (codes.getD i .clean)) s
    .next (if g = 8388607 then (s1.put (F.MC_SCRUB_POS_granule k) 0).satInc (F.MC_SCRUB_POS_passes k)
      else s1.put (F.MC_SCRUB_POS_granule k) (g + 1))

/-- ROW_RETIRE_DONE (R385): after the flush the row has been copied to its spare. -/
def execRowRetireDone (k : Fin 16) (s : State) : Result :=
  match (s.mc k).retiring with
  | none => .next s
  | some r => if s.flag (F.MC_STATUS_flushing k) then .next s else .next (s.rowRetire k r.1 r.2.1 r.2.2).dramRetry

/-- CHANNEL_RETIRE (R388): MEMG_RETIRE.go without restore starts the copy, or is refused. -/
def execChannelRetire (acc : Acc) (s : State) : Result :=
  .next (s.command pgMEMG 0x030 acc fun s w =>
    if w.getLsbD 31 ∧ ¬w.getLsbD 30 then
      if s.get F.MEMG_SPARE_reserve = 0 ∨ s.memg.retired.isSome ∨ s.memg.copying.isSome then s.retireRefused
      else
        let c := w.toNat % 32
        let s1 := { s with memg := { s.memg with copying := some c } }
        ((((s1.put F.MEMG_RETIRE_STATE_channel c).put F.MEMG_RETIRE_STATE_copying 1).put
          F.MEMG_RETIRE_STATE_refused 0).put F.MEMG_RETIRE_STATE_progress 0 |>.flushStart (c / 2)).mcMode (c / 2)
    else s)

/-- CHANNEL_RESTORE (R388): MEMG_RETIRE.go with restore remaps at once; only in state 0. -/
def execChannelRestore (acc : Acc) (s : State) : Result :=
  .next (s.command pgMEMG 0x030 acc fun s w =>
    if w.getLsbD 31 ∧ w.getLsbD 30 then
      if s.get F.MEMG_SPARE_reserve = 0 ∨ s.memg.retired.isSome ∨ s.memg.copying.isSome
          ∨ s.get F.MEMG_STATUS_state ≠ 0 then s.retireRefused
      else (s.channelGone (w.toNat % 32)).put F.MEMG_RETIRE_STATE_refused 0
    else s)

/-- CHANNEL_COPY_DONE (R388): the copy has reached its end after the flush; words that read uncorrectable were
written poisoned, and the channel is powered down. -/
def execChannelCopyDone (s : State) : Result :=
  match s.memg.copying with
  | none => .next s
  | some c =>
    if s.flag (F.MC_STATUS_flushing (c / 2)) then .next s
    else
      let onCh := fun w => decide (dramBase ≤ w * 32 ∧ w * 32 < dramBase + dramBytes ∧ (s.dramAt (w * 32 - dramBase)).1 = c)
      let s1 := { s with cond := condPoison s.cond onCh }
      .next ((s1.put F.MEMG_RETIRE_STATE_progress (31 * spareShare / 512)).channelGone c)

/-- MEMG_CTRL.park_prep: every controller enters spillway with cause 7 and drains (R390). -/
def State.parkBegin (s : State) : State :=
  if s.get F.MEMG_STATUS_state = 3 ∨ s.get F.MEMG_STATUS_state = 4 then
    let s1 := { s with memg := { s.memg with parkPrep := true } }
    (List.range 16).foldl (fun s k => s.flushEnd k) s1.mcModes
  else s

/-- 64 KiB of the save image: the spec gives its content and no layout, so its bytes are open (assumption 9). -/
def imageBytes (seed : Nat) : List Byte := (List.range 65536).map fun i => BitVec.ofNat 8 (Config.free (seed + i))

/-- PARK_READY (R390): training values, remap tables and retirement state are in the save image at MEMG_SAVE_BASE;
state 5, park_ready. -/
def State.parkReady (s : State) : State :=
  if !s.memg.parkPrep ∨ s.get F.MEMG_STATUS_state = 5 then s
  else
    let s1 := (s.store (s.addr F.MEMG_SAVE_BASE_LO_base) (imageBytes s.freeCtr))
    let s2 := { s1 with
      freeCtr := s1.freeCtr + 65536
      memg := { s1.memg with image := some ⟨s.mcs, s.memg.retired⟩ } }
    (s2.put F.MEMG_STATUS_state 5).raise pgMEMG Ev.MEMG_park_ready

/-- MEMG_CTRL.park_restore: the channels leave self-refresh and take their saved values; segments not kept are swept. With drifted
temperatures or a bad image, steps 2 to 5 of training run instead (R389, R390). -/
def State.parkBack (s : State) (drifted : Bool) : State :=
  if s.memg.selfRefresh then
    let m := s.memg
    let s1 := { s with memg := { m with selfRefresh := false, parkPrep := false, step := if drifted then 2 else 6 } }
    let s2 := match m.image with
      | some im => { s1 with mcs := im.mcs, memg := { s1.memg with retired := im.retired } }
      | none => s1
    let s3 := s2.put F.MEMG_STATUS_ready_segments (if drifted then 0 else m.kept.foldl (fun n k => n ||| 2 ^ k) 0)
    let s4 := (List.range 16).foldl
      (fun s k => (s.put (F.MC_STATUS_mode k) (if drifted then 1 else 2)).rowsShow k) s3
    (s4.put F.MEMG_STATUS_state (if drifted then 1 else 2)).mcModes.dramRetry
  else s

/-- A write of MEMG_CTRL: what its bits ask for, in the order of the bits (assumption 80); `drifted` tells how a restore ends. -/
def State.memgCtrl (drifted : Bool) (s : State) (w : Word) : State :=
  let on := fun (b : Nat) (f : State → State) (s : State) => if w.getLsbD b then f s else s
  on 3 (fun s => s.parkBack drifted) (on 2 State.parkBegin (on 0 State.trainStart s))

/-- TRAIN (R381). -/
def execTrain (acc : Acc) (s : State) : Result := .next (s.command pgMEMG 0x020 acc (State.memgCtrl false))

/-- PARK_PREP (R390). -/
def execParkPrep (acc : Acc) (s : State) : Result := .next (s.command pgMEMG 0x020 acc (State.memgCtrl false))

/-- PARK_RESTORE (R389, R390). -/
def execParkRestore (acc : Acc) (drifted : Bool) (s : State) : Result := .next (s.command pgMEMG 0x020 acc (State.memgCtrl drifted))

/-- MEMORY_TEST (R398): MEMG_TEST_CMD.go tests the channels of MEMG_TEST; accepted only in state 3. -/
def execMemoryTest (acc : Acc) (s : State) : Result :=
  .next (s.command pgMEMG 0x10C acc fun s w =>
    if w.getLsbD 31 ∧ s.get F.MEMG_STATUS_state = 3 ∧ s.memg.testing = [] then
      let cs := (List.range 32).filter fun c => (s.get F.MEMG_TEST_channels).testBit c
      { s with memg := { s.memg with testing := cs } }.mcModes
    else s)

/-- The data of a channel cleared to coded zeros. -/
def State.zeroChannel (s : State) (c : Nat) : State :=
  let inCh := fun a => decide (dramBase ≤ a ∧ a < dramBase + dramBytes ∧ (s.dramAt (a - dramBase)).1 = c)
  { s with mem := s.mem.filter fun e => !inCh e.1, cond := s.cond.filter fun e => !inCh (e.1 * 32) }

/-- TEST_DONE (R398): every tested channel is swept, MEMG_TEST_FAIL set, and a failed channel retired as for R382. -/
def execTestDone (failed : Word) (s : State) : Result :=
  let t := s.memg.testing
  if t = [] then .next s
  else
    let bad := t.filter fun c => failed.getLsbD c
    let old := s.get F.MEMG_TEST_FAIL_channels
    let fails := (List.range 32).foldl
      (fun n c => n + (if t.contains c then (if failed.getLsbD c then 2 ^ c else 0)
        else if old.testBit c then 2 ^ c else 0)) 0
    let s1 := t.foldl State.zeroChannel { s with memg := { s.memg with testing := [] } }
    let s2 := ((s1.put F.MEMG_TEST_FAIL_channels fails).raise pgMEMG Ev.MEMG_test_done)
    .next (bad.foldl State.channelFailed s2).mcModes.dramRetry

/-- MC_SPILL_WRITE (R397): ignored with level_reject when out of range. -/
def execMcSpillWrite (k : Fin 16) (acc : Acc) (s : State) : Result := .next (s.writeReg (pgMC k) 0x100 acc)

/-- MC_REMAP_ENTRY_WRITE (R397): only in modes 0 and 1. -/
def execMcRemapEntryWrite (k : Fin 16) (acc : Acc) (s : State) : Result := .next (s.writeReg (pgMC k) 0x114 acc)

/-- An injection armed for the unit of MC_INJECT_ADDR. -/
def State.mcArmInject (s : State) (k n : Nat) : State :=
  let key := s.get (F.MC_INJECT_ADDR_ch k) * 67108864 + s.get (F.MC_INJECT_ADDR_unit k)
  s.setMc k { s.mc k with inject := tabSet (s.mc k).inject key n }

/-- MC_INJECT_ONE_BYTE (R397). -/
def execMcInjectOneByte (k : Fin 16) (acc : Acc) (s : State) : Result :=
  .next (s.command (pgMC k) 0x11C acc fun s w => if w.getLsbD 0 then s.mcArmInject k 1 else s)

/-- MC_INJECT_TWO_BYTES (R397). -/
def execMcInjectTwoBytes (k : Fin 16) (acc : Acc) (s : State) : Result :=
  .next (s.command (pgMC k) 0x11C acc fun s w => if w.getLsbD 1 then s.mcArmInject k 2 else s)

/-- Number of an island. -/
def islIdx : Island → Nat
  | .sia => 0
  | .sib => 1

/-- The memories of island `i`. -/
def State.im (s : State) (i : Nat) : IslMem := tabGet s.islMem i {}

/-- PSR_READ (R395): PSR_RD_CMD.go. Refused while busy, outside the data space, or with the island down. -/
def execPsrRead (i : Island) (acc : Acc) (s : State) : Result :=
  let n := islIdx i
  .next (s.command (pgPSR n) 0x02C acc fun s w =>
    if w.getLsbD 0 then
      if s.flag (F.PSR_RD_CMD_busy n) ∨ 0x3800000 ≤ s.get (F.PSR_RD_ADDR_unit n) * 32 ∨ s.get (F.PSR_STATUS_state n) = 0 then
        s.put (F.PSR_RD_CMD_refused n) 1
      else (s.put (F.PSR_RD_CMD_busy n) 1).put (F.PSR_RD_CMD_refused n) 0
    else s)

/-- NOR_READ (R395): NOR_RD_CMD.go. Refused also for an address in the bank being programmed. -/
def execNorRead (i : Island) (acc : Acc) (s : State) : Result :=
  let n := islIdx i
  .next (s.command (pgNOR n) 0x02C acc fun s w =>
    if w.getLsbD 0 then
      let a := s.get (F.NOR_RD_ADDR_unit n) * 32
      if s.flag (F.NOR_RD_CMD_busy n) ∨ s.get (F.NOR_STATUS_state n) = 0
          ∨ (s.get (F.NOR_STATUS_state n) = 2 ∧ a / 0x8000000 = s.get (F.NOR_STATUS_prog_bank n)) then
        s.put (F.NOR_RD_CMD_refused n) 1
      else (s.put (F.NOR_RD_CMD_busy n) 1).put (F.NOR_RD_CMD_refused n) 0
    else s)

/-- Eight data registers written from 32 bytes. -/
def State.putData (s : State) (page off : Nat) (bs : List Byte) : State :=
  (List.range 8).foldl (fun s k => s.putWord page (off + 4 * k) (BitVec.ofNat 32 (fieldAt bs (4 * k) 4))) s

/-- The bytes of a sparse byte table. -/
def tabBytes (t : Tab Byte) (d : Byte) (a n : Nat) : List Byte := (List.range n).map fun i => tabGet t (a + i) d

/-- The error of a PSRAM word that is read, counted (R578, R392); stored poison is no new error (R373). -/
def State.psrLog (s : State) (n : Nat) (c : Option WordCond) : State :=
  match c with
  | some (.one _) => s.satInc (F.PSR_ERR_corrected n)
  | some .many => (s.satInc (F.PSR_ERR_uncorrectable n)).raise (pgPSR n) Ev.PSR_uncorrectable
  | some .poison | none => s

/-- READ_DONE (R395): the island has read the 32 bytes; a PSRAM word found uncorrectable or poisoned sets poisoned and reads 0. -/
def execReadDone (i : Island) (src : IslRead) (s : State) : Result :=
  let n := islIdx i
  if src.nor then
    if s.flag (F.NOR_RD_CMD_busy n) then
      let a := s.get (F.NOR_RD_ADDR_unit n) * 32
      .next (((s.putData (pgNOR n) 0x040 (tabBytes (s.im n).nor 0xFF#8 a 32)).put (F.NOR_RD_CMD_busy n) 0).raise
        (pgNOR n) Ev.NOR_read_done)
    else .next s
  else if s.flag (F.PSR_RD_CMD_busy n) then
    let u := s.get (F.PSR_RD_ADDR_unit n)
    let s1 := s.put (F.PSR_RD_CMD_busy n) 0
    let c := foundAs src.code (tabFind (s.im n).psramCond u)
    let bad := match c with | some c => c.bad | none => false
    let bytes := if bad then List.replicate 32 0#8 else tabBytes (s.im n).psram 0#8 (u * 32) 32
    .next ((((s1.psrLog n c).putData (pgPSR n) 0x040 bytes).putB (F.PSR_RD_CMD_poisoned n) bad).raise (pgPSR n) Ev.PSR_read_done)
  else .next s

end Sys2Proof.Machine
end

