-- ==== Sys2Proof/Machine/IslandOps.lean ====
section
/-! DEFINITION. The islands' shared operations (14_safety_islands): event records, rings and notices, frames, the held fallback,
what they decide (arrays out of service, die and module resets), and the repair table. -/

namespace Sys2Proof.Machine

/-- Island `i`. -/
def State.island (s : State) (i : Nat) : IslSt := tabGet s.isl i {}

/-- Island `i` replaced. -/
def State.setIsl (s : State) (i : Nat) (v : IslSt) : State := { s with isl := tabSet s.isl i v }

/-- Island `i` changed in place. -/
def State.modIsl (s : State) (i : Nat) (f : IslSt → IslSt) : State := s.setIsl i (f (s.island i))

/-- Does the firmware of island `i` run? -/
def State.islUp (s : State) (i : Nat) : Bool := (s.island i).running

/-- The other island. -/
def peerOf (i : Nat) : Nat := 1 - i

/-- Islands whose firmware runs. -/
def State.islandsUp (s : State) : List Nat := [0, 1].filter fun i => s.islUp i

/-- A status bit of a view page, a level that the island sets and clears (R470). -/
def State.islLevel (s : State) (i bit : Nat) (on : Bool) : State :=
  let w := s.regWord (pgISL i) 0x10
  (s.putWord (pgISL i) 0x10 (if on then w ||| (1#32 <<< bit) else w &&& ~~~(1#32 <<< bit))).irqEdge
    (s.irqLevel (pgISL i)) (pgISL i)

/-! ### Event records (R442, R448, R450, R451) -/

/-- The 64 bytes of an event record (R442). -/
def eventRecord (seq kind sev page bit time position : Nat) (detail : List Byte) (flags : Nat) : List Byte :=
  leBytes 4 seq ++ leBytes 1 kind ++ leBytes 1 sev ++ leBytes 1 page ++ leBytes 1 bit ++ leBytes 8 time ++ leBytes 8 position
    ++ bytesAt detail 0 32 ++ leBytes 4 flags ++ leBytes 4 0

/-- Bytes written to an island's PSRAM data space; words written whole are clean again, the others are read and merged (R578). -/
def State.psramPut (s0 : State) (i a : Nat) (bs : List Byte) : State :=
  let s := (partialWords a bs.length).foldl (fun s w => s.psrLog i (tabFind (s0.im i).psramCond w)) s0
  let m := s.im i
  let p := (List.range bs.length).foldl
    (fun t k => let b := bs.getD k 0#8
                if b = 0#8 then tabDel t (a + k) else tabSet t (a + k) b) m.psram
  { s with islMem := tabSet s.islMem i { m with
      psram := p
      psramCond := condWrite m.psramCond a bs.length false } }

/-- Bytes of an island's PSRAM data space. -/
def State.psramAt (s : State) (i a n : Nat) : List Byte := tabBytes (s.im i).psram 0#8 a n

/-- The fault record's header (R448); its fields follow each other in the order named there (assumption 37). -/
def State.faultHeader (s : State) (i : Nat) : State :=
  let v := s.island i
  s.psramPut i 0 ([0x56#8, 0x46#8, 0x52#8, 0x31#8] ++ leBytes 4 1 ++ leBytes 8 s.fuse.serial.toNat ++ leBytes 4 v.powerOns
    ++ leBytes 4 (v.recs % 15360) ++ leBytes 4 (v.recs / 15360))

/-- Does a record go into the fault ring (R448)? -/
def inFaultRing (kind sev : Nat) : Bool := decide (1 ≤ sev ∨ kind = 2 ∨ kind = 3 ∨ kind = 4 ∨ 6 ≤ kind)

/-- An island's record into its rings, its view and, from severity 1 on, its mailbox (R442, R448, R450, R451); one of severity fault
or above is a local fault of the twin pair (R427). -/
def State.islPut (s : State) (i kind sev : Nat) (r : List Byte) : State :=
  let v := s.island i
  let ring := inFaultRing kind sev
  let s1 := s.setIsl i { v with
    seq := v.seq + 1
    recs := if ring then v.recs + 1 else v.recs
    frs := v.frs + 1
    critical := if sev = 3 then v.critical + 1 else v.critical }
  let s2 := s1.psramPut i (0x200000 + 64 * (v.frs % 884736)) r
  let s3 := if ring then (s2.psramPut i (0x10000 + 64 * (v.recs % 15360)) r).faultHeader i else s2
  let s4 := ((s3.put (F.PSR_FR_HEAD_unit i) (2 * ((v.frs + 1) % 884736))).put (F.PSR_FR_HEAD_wraps i)
    (min ((v.frs + 1) / 884736) 255)).put (F.PSR_FAULT_COUNT_records i) (min (if ring then v.recs + 1 else v.recs) 15360)
  let s5 := (s4.put (F.ISL_EVENT_SEQ_seq i) v.seq).putData (pgISL i) 0x060 r
  let q := if i = 0 then 0x300 else 0x380
  let s6 := if 1 ≤ sev ∧ (s5.queue q).hasRoom then s5.ringEntry q (bytesAt r 0 24 ++ List.replicate 8 0#8) else s5
  if 2 ≤ sev then { s6 with twin := { s6.twin with islFault := true } } else s6

/-- The 32 detail bytes of a record. R442 gives them for block events, tap reports with a syndrome, missed job deadlines and plan
frames; of every other record they are open, a function of what the record is about (assumption 52). -/
def recordDetail (kind page bit : Nat) (detail : List Byte) : List Byte :=
  if kind = 4 ∨ 6 ≤ kind ∨ (kind = 3 ∧ page = pgPLAN) ∨ (kind = 2 ∧ detail = []) then Config.recordDetail kind page bit detail
  else detail

/-- A record that an island writes, if it runs. -/
def State.islWrite (s : State) (i kind sev page bit : Nat) (detail : List Byte) (flags : Nat := 0) : State :=
  let v := s.island i
  if v.running then
    s.islPut i kind sev (eventRecord v.seq kind sev page bit v.time s.jrnPos (recordDetail kind page bit detail) (flags + 2 ^ (i + 1)))
  else s

/-- A record that both islands write. -/
def State.bothWrite (s : State) (kind sev page bit : Nat) (detail : List Byte) : State :=
  (s.islWrite 0 kind sev page bit detail).islWrite 1 kind sev page bit detail

/-- A record of severity warn on the islands' own account: the warning stays in status frames until the next module reset. -/
def State.bothWarn (s : State) (kind page bit : Nat) (detail : List Byte) : State :=
  let s1 := s.bothWrite kind 1 page bit detail
  (s1.modIsl 0 fun v => { v with warn := v.warn || v.running }).modIsl 1 fun v => { v with warn := v.warn || v.running }

/-! ### Frames (R458 to R460) -/

/-- The 16 bytes before a frame's samples (R458). -/
def State.frameHead (s : State) (i kind slot first : Nat) (kept stop : Bool) (query digest : Nat) : List Byte :=
  leBytes 1 kind ++ leBytes 1 slot ++ leBytes 1 first
    ++ leBytes 1 (bitAt kept 0 + bitAt (s.flag (F.ISL_STATE_reduced_independence i)) 1
        + bitAt (decide (s.get F.XGS_TWIN_STATE_state = 4)) 2 + bitAt (s.island i).warn 3 + bitAt stop 4 + bitAt (decide (i = 1)) 5
        + bitAt (decide (s.get (F.ISL_STATE_state i) = 5)) 6)
    ++ leBytes 4 query ++ leBytes 8 digest

/-- A frame emitted on CAN FD (64 bytes) and on Ethernet, and kept in the flight recorder (R450, R458). -/
def State.frameOut (s : State) (i slot : Nat) (head samples : List Byte) : State :=
  if (s.island i).driving then
    ((s.emit .canFrame [i, slot] (head ++ bytesAt samples 0 48)).emit .islandFrame [i, slot] (head ++ samples)).islWrite i 5 0 0xFF 0
      (bytesAt (head ++ samples) 0 32)
  else s

/-- Samples of a stop record from one on, to the end of the record (R296). -/
def stopSamples (stop : List Byte) (first : Nat) : List Byte :=
  bytesAt stop (0x120 + 8 * first) (8 * (fieldAt stop 0 2 - first))

/-- A plan frame of the plan that the island keeps for a slot (R459). -/
def State.planFrame (s : State) (i slot : Nat) (kept : Bool) : State :=
  match tabFind (s.island i).kept slot with
  | none => s
  | some p => s.frameOut i slot (s.frameHead i 1 slot 0 kept false p.number p.digest) (stopSamples p.stop 0)

/-- A fallback frame (R460): the held plan from the sample that its age asks for; from 8 s on its last sample, with end set. -/
def State.fallbackFrame (s : State) (i slot : Nat) : State :=
  match tabFind (s.island i).kept slot with
  | none => s
  | some p =>
    let n := min 160 (((s.island i).time - p.since) / 50000)
    let first := if n = 160 then fieldAt p.stop 0 2 - 1 else n
    (s.put (F.ISL_SLOT_sample i slot) n).frameOut i slot
      (s.frameHead i 2 slot first false (decide (n = 160)) p.number p.digest) (stopSamples p.stop first)

/-- A status frame (R459). -/
def State.statusFrame (s : State) (i : Nat) : State := s.frameOut i 0 (s.frameHead i 3 0 0 false false 0 0) []

/-! ### The held fallback (R456, R460, R463) -/

/-- Is a plan slot routed to the islands (R304)? -/
def State.routed (s : State) (slot : Nat) : Bool :=
  (s.get F.PLAN_ISLAND_LO_slots + 2 ^ 32 * s.get F.PLAN_ISLAND_HI_slots).testBit slot

/-- Slots routed to the islands. -/
def State.routedSlots (s : State) : List Nat := (List.range 64).filter fun k => s.routed k

/-- ISL_STATE.fallback and its level follow the slots. -/
def State.fallbackShow (s : State) (i : Nat) : State :=
  let any := (List.range 64).any fun k => decide (s.get (F.ISL_SLOT_mode i k) = 2)
  (s.putB (F.ISL_STATE_fallback i) any).islLevel i 0 any

/-- Is any plan slot in fallback? -/
def State.anyFallback (s : State) : Bool := [0, 1].any fun i => s.flag (F.ISL_STATE_fallback i)

/-- A slot put in fallback: its first frame goes out at once. -/
def State.fallbackStart (s : State) (i slot : Nat) : State :=
  if s.get (F.ISL_SLOT_mode i slot) = 2 then s
  else
    (((s.put (F.ISL_SLOT_mode i slot) 2).fallbackShow i).islWrite i 4 0 0xFF 1 (leBytes 4 slot)).fallbackFrame i slot

/-- A slot's fallback ended by a plan frame. -/
def State.fallbackEnd (s : State) (i slot : Nat) : State :=
  ((s.put (F.ISL_SLOT_mode i slot) 1).fallbackShow i).islWrite i 4 0 0xFF 2 (leBytes 4 slot)

/-- Does the twin's stream carry the vehicle for a slot (R463)? -/
def State.twinCarries (s : State) (slot : Nat) : Bool :=
  s.twinPair && s.twinSlot slot && decide (s.get F.XGS_TWIN_STATE_state = 1 ∧ s.twin.absent = 0)

/-- A missed deadline acts on a slot (R456 step 1): the module's stream is withdrawn where the twin's carries the vehicle,
otherwise the held fallback starts. -/
def State.missSlot (s : State) (i slot : Nat) : State :=
  if s.twinCarries slot then
    { s.put (F.ISL_SLOT_mode i slot) 3 with twin := { s.twin with withdrawn := true } }
  else s.fallbackStart i slot

/-- A query to FLT about the agents that hold a job (R456 step 2). -/
def State.recoveryQuery (s : State) (i : Nat) (q : RecQuery) : State :=
  ((s.modIsl i fun v => { v with queries := v.queries ++ [q] }).emit .recoveryQuery [i, q.queue, q.tag, q.index]).raise
    pgFLT Ev.FLT_recovery_query

/-- What identifies a job in a record of kind 3 (R442). -/
def IslTimer.detail (t : IslTimer) : List Byte :=
  leBytes 4 t.queue ++ leBytes 4 t.tag ++ leBytes 4 t.index ++ leBytes 4 t.deadline ++ leBytes 8 t.release

/-- A missed job deadline (R456): counted, recorded with severity fault (assumption 38), every routed slot acts, FLT is asked. -/
def State.missJob (s : State) (i : Nat) (t : IslTimer) : State :=
  let s1 := (s.satInc (F.ISL_MISSES_jobs i)).islWrite i 3 2 0xFF 0 t.detail
  (s1.routedSlots.foldl (fun s k => s.missSlot i k) s1).recoveryQuery i ⟨none, t.queue, t.tag, t.index⟩

/-- ISL_TIMERS follows the timers. -/
def State.timersShow (s : State) (i : Nat) : State :=
  let n := (s.island i).timers.length
  (s.put (F.ISL_TIMERS_open i) n).putMax (F.ISL_TIMERS_peak i) n

/-! ### What the islands decide -/

/-- An island takes an array out of service, to be tested in its die's next window (R443, R475). -/
def State.islArrayOut (s : State) (i n : Nat) : State :=
  let s1 := s.suspectArr n
  let s2 := if s1.get (F.ARR_STATE_state n) = 0 then s1.put (F.ARR_STATE_state n) 4 else s1
  s2.islWrite i 4 0 (pgARR n) 3 []

/-- An island decides on a die reset; one in progress is not restarted (R447). -/
def State.wantDie (s : State) (i d : Nat) : State :=
  if s.cdState d = 0 ∨ s.cdState d = 1 ∨ s.cdState d = 2 then s
  else s.modIsl i fun v => { v with dieDue := setAdd v.dieDue d }

/-- An island decides on a module reset with a cause of GEN_RESET_CAUSE. -/
def State.wantModule (s : State) (i cause : Nat) : State :=
  s.modIsl i fun v => { v with modDue := setAdd v.modDue cause }

/-- Every running island decides on a die reset. -/
def State.allWantDie (s : State) (d : Nat) : State := s.islandsUp.foldl (fun s i => s.wantDie i d) s

/-- Every running island decides on a module reset. -/
def State.allWantModule (s : State) (cause : Nat) : State := s.islandsUp.foldl (fun s i => s.wantModule i cause) s

/-! ### The repair table (R449) -/

/-- Bytes of the repair table that an island keeps. -/
def State.repairAt (s : State) (i off n : Nat) : List Byte := s.psramAt i (0x1000 + off) n

/-- A number in the repair table. -/
def State.repairNat (s : State) (i off n : Nat) : Nat := leNat (s.repairAt i off n)

/-- Bytes written to an island's NOR. -/
def State.norPut (s : State) (i a : Nat) (bs : List Byte) : State :=
  let m := s.im i
  { s with islMem := tabSet s.islMem i { m with
      nor := (List.range bs.length).foldl (fun t k =>
        let b := bs.getD k 0#8
        if b = 0xFF#8 then tabDel t (a + k) else tabSet t (a + k) b) m.nor } }

/-- Bytes of an island's NOR. -/
def State.norAt (s : State) (i a n : Nat) : List Byte := tabBytes (s.im i).nor 0xFF#8 a n

/-- The repair table's digest made good and a copy written to the NOR bank that is not active, in the sixteenth of its area that
the sequence number names, behind that number (assumption 39). -/
def State.repairSeal (s : State) (i : Nat) : State :=
  let s1 := s.psramPut i (0x1000 + 0x3FC0) (sha3_512 (s.repairAt i 0 0x3FC0))
  let n := (s1.island i).repairSeq + 1
  let bank := 1 - s1.get (F.ISL_IMAGE_bank i)
  let a := bank * 0x8000000 + 0x7FC0000 + n % 15 * 0x4400
  ((s1.modIsl i fun v => { v with repairSeq := n }).norPut i a (leBytes 4 n)).norPut i (a + 0x20) (s1.repairAt i 0 0x4000)

/-- Bytes of the repair table changed on one island. -/
def State.repairPut1 (s : State) (i off : Nat) (bs : List Byte) : State :=
  if s.islUp i then (s.psramPut i (0x1000 + off) bs).repairSeal i else s

/-- Bytes of the repair table changed on both islands. -/
def State.repairPut (s : State) (off : Nat) (bs : List Byte) : State := (s.repairPut1 0 off bs).repairPut1 1 off bs

/-- Retired physical arrays of a die, as a bitmap: what either running island's table says. -/
def State.retiredMap (s : State) (d : Nat) : Nat :=
  s.islandsUp.foldl (fun m i => m ||| s.repairNat i (0x2110 + 4 * d) 4) 0

/-- ARR_CAP_DISABLE of a physical array in the repair table. -/
def State.capRepair (s : State) (d p : Nat) : Nat :=
  s.islandsUp.foldl (fun m i => m ||| s.repairNat i (0x2120 + 26 * d + p) 1) 0

/-- A physical array entered as retired. -/
def State.enterRetired (s : State) (d p : Nat) : State :=
  s.repairPut (0x2110 + 4 * d) (leBytes 4 (s.retiredMap d ||| 2 ^ p))

/-- Withdrawn capabilities of a physical array entered. -/
def State.enterCaps (s : State) (d p caps : Nat) : State :=
  s.repairPut (0x2120 + 26 * d + p) (leBytes 1 (s.capRepair d p ||| caps))

end Sys2Proof.Machine
end

