-- ==== Sys2Proof/Machine/Hinge.lean ====
section
/-! DEFINITION. Hinge flits, tap commands, discovery, the hotspot grid (R8 to R24, R36 to R38, R439), and what a reset of a die or
of an array does (R43, R66, R109, R465). -/

namespace Sys2Proof.Machine

/-! ### Flits (R11 to R14) -/

/-- Key of the link at receiving identity `rx` from sending identity `tx`. -/
def linkKey (e : HingeEnd) : Nat := e.rx.val * 8 + e.tx.val

/-- The links of R9 by identity (HB 0, C0 to C3 1 to 4, SIA 5, SIB 6). -/
def isLink (e : HingeEnd) : Bool :=
  let a := min e.rx.val e.tx.val
  let b := max e.rx.val e.tx.val
  (decide (a = 0 ∧ 1 ≤ b ∧ b ≤ 6)) || (decide (1 ≤ a ∧ b ≤ 4 ∧ (b = a + 1 ∨ (a = 1 ∧ b = 4))))

/-- The compute die on a link: at its receiving end, else at its sending end (R13). -/
def endDie (e : HingeEnd) : Option Nat :=
  if 1 ≤ e.rx.val ∧ e.rx.val ≤ 4 then some (e.rx.val - 1)
  else if 1 ≤ e.tx.val ∧ e.tx.val ≤ 4 then some (e.tx.val - 1)
  else none

/-- The compute die whose port receives, if it is one (R12, R14). -/
def portDie (e : HingeEnd) : Option Nat := if 1 ≤ e.rx.val ∧ e.rx.val ≤ 4 then some (e.rx.val - 1) else none

/-- Header fields (R11). -/
def flitType (f : Flit) : Nat := f.hdr.toNat / 2 ^ 44
def flitSrc (f : Flit) : Nat := f.hdr.toNat / 2 ^ 40 % 16
def flitDst (f : Flit) : Nat := f.hdr.toNat / 2 ^ 36 % 16
def flitSeq (f : Flit) : Nat := f.hdr.toNat / 2 ^ 24 % 4096
def flitPoison (f : Flit) : Bool := f.hdr.getLsbD 23
def flitVc (f : Flit) : Nat := f.hdr.toNat / 2 ^ 20 % 8
def flitTag (f : Flit) : Nat := f.hdr.toNat % 2 ^ 20

/-- A sound flit of these header fields (R11). -/
def mkFlit (typ src dst seq vc tag : Nat) (poison : Bool) (data : Line) : Flit :=
  let h := BitVec.ofNat 48 (typ % 16 * 2 ^ 44 + src % 16 * 2 ^ 40 + dst % 16 * 2 ^ 36 + seq % 4096 * 2 ^ 24 + bitAt poison 23
    + vc % 8 * 2 ^ 20 + tag % 2 ^ 20)
  ⟨h, crc16 h, data, .clean, 0⟩

/-- A flit with another sequence number. -/
def flitNumbered (f : Flit) (seq : Nat) : Flit :=
  { mkFlit (flitType f) (flitSrc f) (flitDst f) seq (flitVc f) (flitTag f) (flitPoison f) f.data with addr := f.addr }

/-- A flit as it goes out from identity `tx` to identity `rx`: header, header CRC, word and check bytes (R11). -/
def flitOut (rx tx : Nat) (f : Flit) : Out :=
  ⟨.hinge, [rx, tx, f.hdr.toNat, f.hcrc.toNat], leBytes 32 f.data.toNat ++ Config.checkBytes (leBytes 32 f.data.toNat)⟩

/-- Is there a die of this identity? -/
def State.dieExists (s : State) (k : Nat) : Bool :=
  decide (k = 0 ∨ k = 5 ∨ k = 6) || decide (k = 7 ∧ s.fuse.xsPopulated) || (decide (1 ≤ k ∧ k ≤ 4) && s.cdState (k - 1) != 0)

/-! #### Sending (R10, R11, R13) -/

/-- The retry buffer that holds a flit: virtual channel 3 has its own (R14). -/
def Link.buffer (l : Link) (f : Flit) : List Flit := if flitVc f = 3 then l.retry3 else l.retry

/-- A flit that takes the next number of the link into its retry buffer (R13). -/
def Link.push (l : Link) (f : Flit) : Link :=
  let g := flitNumbered f l.nextTx
  if flitVc f = 3 then { l with
    retry3 := l.retry3 ++ [g]
    nextTx := (l.nextTx + 1) % 4096 }
  else { l with
    retry := l.retry ++ [g]
    nextTx := (l.nextTx + 1) % 4096 }

/-- A flit sent from identity `tx` to its neighbour `rx`: out with the next number, or kept until its retry buffer has room; a flit of
virtual channel 3 waits for no other (R13, R14). -/
def State.flitSend (s : State) (rx tx : Nat) (f : Flit) : State :=
  let k := rx * 8 + tx
  let l := tabGet s.links k {}
  if l.down then s
  else if (l.buffer f).length < 64 ∧ (flitVc f = 3 ∨ l.waits = []) then
    { s with
      links := tabSet s.links k (l.push f)
      out := s.out ++ [flitOut rx tx (flitNumbered f l.nextTx)] }
  else { s with links := tabSet s.links k { l with waits := l.waits ++ [f] } }

/-- Flits that waited for room go out, oldest first, as far as there is room. -/
def State.flitDrain (s : State) (rx tx : Nat) : State :=
  let k := rx * 8 + tx
  let l := tabGet s.links k {}
  l.waits.foldl (fun s f => s.flitSend rx tx f) { s with links := tabSet s.links k { l with waits := [] } }

/-- An acknowledgement of flit `f` taken at the receiving end (R11 type 7). It stands outside the sequence of its direction and shows the
number that it acknowledges (assumption 16). -/
def State.flitAck (s : State) (e : HingeEnd) (f : Flit) : State :=
  { s with out := s.out ++ [flitOut e.tx.val e.rx.val (mkFlit 7 e.rx.val e.tx.val (flitSeq f) (flitVc f) 0 false 0#256)] }

/-- The identity to which a flit for identity `dst` goes on from identity `at` (R9, R10). -/
def State.nextHop (s : State) (cur dst : Nat) : Nat :=
  if cur = 0 then dst
  else if 1 ≤ cur ∧ cur ≤ 4 ∧ 1 ≤ dst ∧ dst ≤ 4 then
    match s.ringWay (cur - 1) (dst - 1) with
    | some l => (l.headD (dst - 1)) + 1
    | none => 0
  else 0

/-- Are the ring ports of a link closed: one of its dies is fenced (R15)? -/
def State.ringClosed (s : State) (e : HingeEnd) : Bool :=
  decide (1 ≤ e.rx.val ∧ e.rx.val ≤ 4 ∧ 1 ≤ e.tx.val ∧ e.tx.val ≤ 4)
    && (s.cdState (e.rx.val - 1) == 4 || s.cdState (e.tx.val - 1) == 4)

/-- A count on the CD page of a compute die, if there is one. That the counters of CD_HINGE_ERR saturate is a DESIGN CHOICE: the spec says it
of CD_POOL_ERR only (assumption 18). -/
def State.hingeCount (s : State) (d : Option Nat) (f : Nat → Fld) : State :=
  match d with
  | some d => s.satInc (f d)
  | none => s

/-- A flit discarded under R12, counted at its port: on the die's page, or by the port of HB or of an island itself. -/
def State.flitDiscard (s : State) (e : HingeEnd) : State :=
  match portDie e with
  | some d => s.satInc (F.CD_HINGE_ERR_discarded d)
  | none =>
    let l := tabGet s.links (linkKey e) {}
    { s with links := tabSet s.links (linkKey e) { l with discards := l.discards + 1 } }

/-- The condition of a payload at its port (R14): a corrected byte is logged there with its position, and counted on a die's page; a word
beyond correction raises the die's event and goes on poisoned. -/
def State.flitCode (s : State) (e : HingeEnd) (f : Flit) : State :=
  match f.code with
  | .clean => s
  | .one b =>
    let l := tabGet s.links (linkKey e) {}
    let s1 := { s with links := tabSet s.links (linkKey e) { l with fixes := l.fixes ++ [b.val] } }
    match portDie e with
    | some d => (s1.satInc (F.CD_HINGE_ERR_corrected d)).raise (pgCD d) Ev.CD_corrected
    | none => s1
  | .many =>
    match portDie e with
    | some d => s.raise (pgCD d) Ev.CD_uncorrectable
    | none => s

/-- Does a flit ask something of its destination (types 0 write, 1 read request, 4 fence or barrier, 8 register access)? -/
def flitAsks (f : Flit) : Bool := flitType f == 0 || flitType f == 1 || flitType f == 4 || flitType f == 8

/-- What becomes of a flit past its port: handed to its destination, an island's write into hub SRAM stored there (R287); at HB a request to a fenced die is answered with poison (R15), its
word open; anything else goes on to the next die (R10). -/
def State.flitOn (s : State) (e : HingeEnd) (f : Flit) (poison : Bool) : State :=
  let cur := e.rx.val
  let dst := flitDst f
  if dst = cur ∨ (cur = 0 ∧ dst = 7) then
    let s1 := s.emit .flit [e.rx.val, e.tx.val, f.hdr.toNat, bitAt poison 0] (leBytes 32 f.data.toNat)
    if dst = 0 ∧ flitType f = 0 ∧ 5 ≤ e.tx.val ∧ flitSrc f = e.tx.val ∧ s.inHub f.addr 32 then
      s1.islStore (e.tx.val - 5) f.addr (leBytes 32 f.data.toNat) poison
    else s1
  else if cur = 0 ∧ 1 ≤ dst ∧ dst ≤ 4 ∧ s.cdState (dst - 1) = 4 ∧ flitAsks f then
    let r := s.fresh
    r.2.flitSend (s.nextHop 0 (flitSrc f)) 0
      (mkFlit (if flitType f = 1 then 2 else 3) dst (flitSrc f) 0 1 (flitTag f) true (BitVec.ofNat 256 r.1))
  else
    let g := mkFlit (flitType f) (flitSrc f) dst 0 (flitVc f) (flitTag f) poison f.data
    s.flitSend (s.nextHop cur dst) cur { g with addr := f.addr }

/-- A flit in sequence past its header check (R11, R12, R14, R15): acknowledged; discarded where its type is reserved or its destination
does not exist, and where HB has its die fenced; any other goes on, corrected or poisoned. -/
def State.flitTake (s : State) (e : HingeEnd) (f : Flit) : State :=
  let s1 := s.flitAck e f
  if 9 < flitType f ∨ !s.dieExists (flitDst f) then s1.flitDiscard e
  else if e.rx.val = 0 ∧ (endDie e).any (fun d => s.cdState d == 4) then s1
  else (s1.flitCode e f).flitOn e f (flitPoison f || f.code == .many)

/-- Acknowledged flits leave the retry buffers of the direction from `e.rx` to `e.tx`, and what waited goes out (R13). -/
def State.flitAcked (s : State) (e : HingeEnd) (f : Flit) : State :=
  let back := e.tx.val * 8 + e.rx.val
  let l := tabGet s.links back {}
  let keep := fun (g : Flit) => decide (2048 ≤ (flitSeq f + 4096 - flitSeq g) % 4096)
  { s with links := tabSet s.links back { l with
      retry := l.retry.filter keep
      retry3 := l.retry3.filter keep } }.flitDrain e.tx.val e.rx.val

/-- What the sender has not had acknowledged, sent again from each retry buffer, oldest first (R13). -/
def State.flitReplay (s : State) (e : HingeEnd) : State :=
  let l := tabGet s.links (linkKey e) {}
  { s with out := s.out ++ (l.retry ++ l.retry3).map (flitOut e.rx.val e.tx.val) }

/-- HINGE_FLIT (R11 to R14): a flit whose header CRC fails is not acted on and the sender replays; a bad one after that is a failed
replay; one out of sequence waits for its replay; ring ports of a fenced die take nothing (R15). -/
def execHingeFlit (e : HingeEnd) (f : Flit) (s : State) : Result :=
  let k := linkKey e
  let l := tabGet s.links k {}
  .next (if !isLink e ∨ l.down ∨ s.hubOff ∨ s.ringClosed e then s
    else if crc16 f.hdr ≠ f.hcrc then
      (({ s with links := tabSet s.links k { l with
          asked := true
          fails := if l.asked then l.fails + 1 else l.fails } }.hingeCount (endDie e) F.CD_HINGE_ERR_replays).emit .replayRequest
        [e.rx.val, e.tx.val, l.expect]).flitReplay e
    else if flitType f = 7 then s.flitAcked e f
    else if flitSeq f ≠ l.expect then s
    else
      { s with links := tabSet s.links k { l with
          expect := (l.expect + 1) % 4096
          asked := false
          fails := 0 } }.flitTake e f)

/-- HINGE_LINK_DOWN (R13): eight failed replays of one flit take the link down, a fault of its compute die. -/
def execHingeLinkDown (e : HingeEnd) (s : State) : Result :=
  let k := linkKey e
  let l := tabGet s.links k {}
  .next (if !isLink e ∨ l.down ∨ l.fails < 8 then s
    else
      let s1 := { s with links := tabSet s.links k { l with down := true } }
      match endDie e with
      | some d => s1.raise (pgCD d) Ev.CD_link_down
      | none =>
        let i := max e.rx.val e.tx.val - 5
        (s1.put (F.ISL_STATE_hub_link i) 0).islLevel i Ev.ISL_hub_link_down true)

/-! ### Resets of arrays and dies -/

/-- The pins that the flights of an array hold are released (R178). -/
def State.dropPins (s : State) (n : Nat) : State :=
  (s.arr n).flights.foldl
    (fun s f =>
      match f.kvF with
      | none => s
      | some q => (q.pages.drop q.done).foldl
          (fun s p =>
            let r := s.kvDec p.1 0 1
            match r.2 with
            | some e => r.1.kvNote e q.seq q.layer (s.arrQueue n)
            | none => r.1) s) s

/-- ARR_CAPS of an array: its reset value less what ARR_CAP_DISABLE withdraws (R106), none of [2:0] in reduced service (R517). -/
def State.capsSet (s : State) (n : Nat) : State :=
  let w := resetWord s.fuse (pgARR n) 0x34 &&& ~~~(s.regWord (pgARR n) 0x100 &&& 7#32)
  s.putWord (pgARR n) 0x34 (if s.get F.PWR_SERVICE_level = 1 then w &&& ~~~(7#32) else w)

/-- An array reset (R109): its job faults with cause 0x7, line buffers and program store are cleared, every field takes its reset
value; ARR_CAP_DISABLE stays across a block reset (R106), a retired array stays retired (R485), a suspect one suspect (R475). -/
def State.arrReset (s : State) (n : Nat) (byDie : Bool) : State :=
  let s1 := if s.flag (F.ARR_JOB_QUEUE_valid n) then ((s.slotFault n 7).dropPins n).slotGone n else s
  let caps := if byDie then 0#32 else s.regWord (pgARR n) 0x100
  let st := if s.get (F.ARR_STATE_state n) = 5 then 5 else 0
  let ph := s.get (F.ARR_STATE_phys n)
  let a := s1.arr n
  let s2 := (s1.clearPage (pgARR n) fun _ => false).setArr n { nextId := a.nextId, suspect := a.suspect }
  (((((s2.putWord (pgARR n) 0x100 caps).put (F.ARR_STATE_state n) st).put (F.ARR_STATE_phys n) ph).put
    (F.ARR_STATE_die n) (n / 24)).capsSet n)

/-- Slots given to arrays of a die and not started never start: the die reset ended their jobs (R359). -/
def State.dropPlaced (s : State) (d : Nat) : State :=
  { s with jobs := s.jobs.map fun j =>
      if j.stage = .placed ∧ j.isArray ∧ (j.slots.any fun k => decide (k.phase = 1 ∧ k.die = d)) then
        { j.report 0x0A 7 0 with slots := j.slots.map fun k => if k.phase < 2 then { k with phase := 3 } else k }
      else j }

/-- A slice ended as incomplete by a reset or a STOP: nothing is judged (R483). -/
def State.sliceLost (s : State) (d : Nat) : State :=
  let v := s.stDie d
  match v.win with
  | none => s
  | some a =>
    let s1 := (s.setStDie d { v with
        win := none
        chosen := none
        aborted := setAdd v.aborted a }).modArr (24 * d + a) fun x => { nextId := x.nextId, suspect := x.suspect }
    if s1.get (F.ARR_STATE_state (24 * d + a)) = 3 then
      s1.put (F.ARR_STATE_state (24 * d + a)) (if (s1.arr (24 * d + a)).suspect then 4 else 0)
    else s1

/-- The pages of a compute die, its stack and its arrays switched to the shadow answer (R46): bit 30 of their status. -/
def State.shadowed (s : State) (d : Nat) : State :=
  ([pgCD d, pgST d] ++ (List.range s.fuse.perDie).map fun a => pgARR (24 * d + a)).foldl (fun s p => s.raise p 30) s

/-- A CD event on a change of state; a die that leaves run is answered from the shadow. -/
def State.setCdState (s : State) (d v : Nat) : State :=
  if s.cdState d = v then s
  else
    let s1 := (s.put (F.CD_STATE_state d) v).raise (pgCD d) Ev.CD_state_change
    if s.cdState d = 3 then s1.shadowed d else s1

/-- CD_PHYS_MAP as fused (R66). -/
def State.physMap (s : State) (d : Nat) : State := s.put (F.CD_PHYS_MAP_enabled d) (tabGet s.unitMaps d 0)

/-- A compute die and its stack reset (R15, R16, R66, R109, R465 steps 1 and 2): every STOP and FENCE on it is overridden, jobs on
its arrays end, its pages take their reset values, its memories hold coded zeros. -/
def State.dieReset (s : State) (d : Nat) : State :=
  let arrs := (List.range 24).map fun a => 24 * d + a
  let s1 := arrs.foldl (fun s n => s.arrReset n true) ((s.dropPlaced d).sliceLost d)
  let s2 := { s1 with
    transit := s1.transit.filter fun p => decide (p.src / 24 ≠ d)
    links := s1.links.filter fun l => decide (l.1 / 8 ≠ d + 1 ∧ l.1 % 8 ≠ d + 1) }
  let was : Nat := s2.cdState d
  let s3 := (((s2.clearPage (pgCD d) fun _ => false).clearPage (pgST d) fun _ => false).physMap d).put (F.CD_STATE_state d) 1
  let s4 := s3.raiseIf (was != 1) (pgCD d) Ev.CD_state_change
  let s4 := if was = 3 then s4.shadowed d else s4
  let s5 := [0, 1].foldl (fun s i =>
    (s.put (F.ISL_TAP_stop i) (s.get (F.ISL_TAP_stop i) &&& (15 - 2 ^ d))).put (F.ISL_TAP_fence i)
      (s.get (F.ISL_TAP_fence i) &&& (15 - 2 ^ d))) s4
  (s5.zeroAt (poolBase d) 0x4000000).zeroAt (stackBase d) 0x10000000

/-! ### Tap commands (R15, R16, R439) -/

/-- The field that shows an island's STOP or FENCE on a die. -/
def stopField (i d : Nat) : Fld := if i = 0 then F.CD_STATE_stop_sia d else F.CD_STATE_stop_sib d
def fenceField (i d : Nat) : Fld := if i = 0 then F.CD_STATE_fence_sia d else F.CD_STATE_fence_sib d

/-- The state of a die that is neither absent, in reset, discovering nor held follows the holds on it: fenced, stopped or run. -/
def State.dieSettle (s : State) (d : Nat) : State :=
  let held := fun (f : Nat → Nat → Fld) => s.flag (f 0 d) || s.flag (f 1 d)
  if s.cdState d = 3 ∨ s.cdState d = 4 ∨ s.cdState d = 5 then
    s.setCdState d (if held fenceField then 4 else if held stopField then 5 else 3)
  else s

/-- A bit of an island's own view of its holds. -/
def State.tapShow (s : State) (f : Fld) (d : Nat) (on : Bool) : State :=
  let v := s.get f
  s.put f (if v.testBit d = on then v else if on then v + 2 ^ d else v - 2 ^ d)

/-- The outstanding Hinge requests of a die's arrays at a STOP (R15): answers awaited from outside the module come as poison, then the
moves in flight that await nothing complete, in issue order. -/
def State.dieQuiesce (s : State) (d : Nat) : State :=
  let gone := s.ext.filter fun e => e.2.arr.any fun n => n / 24 == d
  let s1 := gone.foldl (fun s e => { s with ext := tabDel s.ext e.1 }.extDeliver e.2 (List.replicate e.2.len 0#8) true) s
  (List.range 24).foldl (fun s a =>
    let n := 24 * d + a
    ((s.arr n).flights.filter fun f => decide (f.unit = .move) && f.ready).foldl (fun s f => s.complete1 n f) s) s1

/-- STOP by an island (R15): the die's arrays stop, its outstanding requests end; a slice under way ends as incomplete (R483). -/
def State.tapStop (s : State) (i d : Nat) : State :=
  if s.cdState d = 0 then s
  else ((((s.put (stopField i d) 1).tapShow (F.ISL_TAP_stop i) d true).sliceLost d).dieSettle d).dieQuiesce d

/-- FENCE by an island (R15). -/
def State.tapFence (s : State) (i d : Nat) : State :=
  if s.cdState d = 0 then s
  else ((s.put (fenceField i d) 1).tapShow (F.ISL_TAP_fence i) d true).dieSettle d

/-- An island's own STOP and FENCE withdrawn (R16). -/
def State.tapRelease (s : State) (i d : Nat) : State :=
  ((((s.put (stopField i d) 0).put (fenceField i d) 0).tapShow (F.ISL_TAP_stop i) d false).tapShow (F.ISL_TAP_fence i) d
    false).dieSettle d

/-- STOP (R15). -/
def execStop (i : Island) (d : Fin 4) (s : State) : Result := .next (s.tapStop (islIdx i) d)

/-- FENCE (R15). -/
def execFence (i : Island) (d : Fin 4) (s : State) : Result := .next (s.tapFence (islIdx i) d)

/-- RESET (R15, R16): overrides every STOP and FENCE on the die. One in progress is not restarted (R447). -/
def execReset (_i : Island) (d : Fin 4) (s : State) : Result :=
  .next (if s.cdState d = 0 ∨ s.cdState d = 1 then s else s.dieReset d)

/-- RELEASE (R16). -/
def execRelease (i : Island) (d : Fin 4) (s : State) : Result := .next (s.tapRelease (islIdx i) d)

/-- The payload of a discovery answer (R17). -/
def answerBytes (a : DiscAnswer) : List Byte :=
  [a.cls, a.stepping, a.port, a.stack] ++ leBytes 8 a.serial.toNat ++ leBytes 4 a.unitMap.toNat

/-- READ_ID (R15): the die answers its class, stepping, serial and unit map. -/
def execReadId (i : Island) (d : Fin 4) (s : State) : Result :=
  .next (match tabFind s.ident d.val with
    | some a => s.emit .tapReply [islIdx i, d.val, 0] (answerBytes a)
    | none => s)

/-- READ_FAULT (R15): the die answers its fault syndrome, whose content the spec does not give. -/
def execReadFault (i : Island) (d : Fin 4) (s : State) : Result :=
  .next (if (tabFind s.ident d.val).isSome then
      let r := s.fresh
      r.2.emit .tapReply [islIdx i, d.val, 1] (leBytes 32 r.1)
    else s)

/-- TAP_COMMAND_DROP (R439): no keep-alive for 5 ms; the tap drops the island's STOP and FENCE. -/
def execTapCommandDrop (i : Island) (d : Fin 4) (s : State) : Result := .next (s.tapRelease (islIdx i) d)

/-! ### Arrays in service -/

/-- Should an array be in service? Its die runs; it is not retired, suspect or held out by firmware; full service, or A0 to A11 of
the die of reduced service (R473, R517). -/
def State.shouldServe (s : State) (d a : Nat) : Bool :=
  let n := 24 * d + a
  decide (a < s.fuse.perDie) && s.cdState d == 3 && s.get (F.ARR_STATE_state n) != 5 && !(s.arr n).suspect
    && !(s.get (F.STEST_ARRAY_OUT_out d)).testBit a && !(s.stDie d).dieOut
    && (match s.get F.PWR_SERVICE_level with
        | 0 => false
        | 1 => decide (a < 12) && s.get F.PWR_SERVICE_die == d
        | _ => true)

/-- CD_ARR_SERVICE of a die decided anew. -/
def State.serviceShow (s : State) (d : Nat) : State :=
  s.put (F.CD_ARR_SERVICE_in_service d) (((List.range 24).map fun a => bitAt (s.shouldServe d a) a).sum)

/-- The physical arrays fused enabled in a unit map, in ascending order. -/
def enabledPhys (u : Nat) : List Nat := (List.range 26).filter fun p => u.testBit p

/-- The logical map of a die written (R23), and the repair table applied to its arrays (R485). -/
def State.mapDie (s : State) (d u : Nat) : State :=
  let ps := enabledPhys u
  let retired := s.retiredMap d
  let s1 := (List.range 24).foldl
    (fun s k => s.put (F.CD_LOG2PHYS_phys d (k / 6) (k % 6)) (ps.getD k 0)) (s.put (F.CD_PHYS_MAP_enabled d) u)
  (List.range s.fuse.perDie).foldl
    (fun s k =>
      match ps[k]? with
      | none => s
      | some p =>
        let n := 24 * d + k
        let s2 := ((s.put (F.ARR_STATE_phys n) p).put (F.ARR_STATE_die n) d).putWord (pgARR n) 0x100
          (s.regWord (pgARR n) 0x100 ||| (BitVec.ofNat 32 (s.capRepair d p) &&& 7#32))
        (if retired.testBit p then s2.put (F.ARR_STATE_state n) 5 else s2).capsSet n) s1

/-- A die enters run: its map stands, its stack is in use, its arrays' ages begin (R487). -/
def State.dieRun (s : State) (d u : Nat) : State :=
  let s1 := (s.mapDie d u).setCdState d 3
  let s2 := ((s1.put (F.ST_STATUS_in_service d) 1).dieSettle d).setStDie d { s1.stDie d with
      since := s1.hubUs
      passed := []
      dieOut := false }
  (s.islandsUp.foldl (fun s i => s.modIsl i fun v => { v with
      ages := (List.range 24).foldl (fun t a => tabSet t (24 * d + a) v.time) v.ages
      hot := setDel v.hot d }) s2).serviceShow d

/-! ### Discovery (R17 to R24, R68) -/

/-- The entry of a port in the topology table, if it answered. -/
def State.topoAt (s : State) (p : Nat) : Option DiscAnswer :=
  if s.disc.answered.contains p then
    some ⟨BitVec.ofNat 8 (s.get (F.DISC_TOPO_CLASS_class p)), BitVec.ofNat 8 (s.get (F.DISC_TOPO_CLASS_stepping p)),
      BitVec.ofNat 8 (s.get (F.DISC_TOPO_CLASS_port p)), BitVec.ofNat 8 (s.get (F.DISC_TOPO_CLASS_stack p)),
      BitVec.ofNat 64 (s.get (F.DISC_TOPO_SERIAL_LO_serial p) + 2 ^ 32 * s.get (F.DISC_TOPO_SERIAL_HI_serial p)),
      BitVec.ofNat 32 (s.get (F.DISC_TOPO_UNITMAP_unit_map p))⟩
  else none

/-- A discovery answer entered in the topology table. -/
def State.putTopo (s : State) (p : Nat) (a : DiscAnswer) : State :=
  let s1 := (((s.put (F.DISC_TOPO_CLASS_class p) a.cls.toNat).put (F.DISC_TOPO_CLASS_stepping p) a.stepping.toNat).put
    (F.DISC_TOPO_CLASS_port p) a.port.toNat).put (F.DISC_TOPO_CLASS_stack p) a.stack.toNat
  let s2 := ((s1.put (F.DISC_TOPO_SERIAL_LO_serial p) a.serial.toNat).put (F.DISC_TOPO_SERIAL_HI_serial p)
    (a.serial.toNat / 2 ^ 32)).put (F.DISC_TOPO_UNITMAP_unit_map p) a.unitMap.toNat
  { s2.put F.DISC_STATUS_present (s2.get F.DISC_STATUS_present ||| 2 ^ p) with disc := { s2.disc with answered := setAdd s2.disc.answered p } }

/-- A discovery flit on a hub port (R19): on the register channel; its tag and its payload are open (assumption 16). -/
def State.discFlit (s : State) (p : Nat) : State :=
  let r := s.fresh
  r.2.flitSend (p + 1) 0 (mkFlit 5 0 (p + 1) 0 2 r.1 false (BitVec.ofNat 256 (r.1 / 2 ^ 20)))

/-- DISCOVERY (R19 step 1): a discovery flit on ports 0 to 6, once after a module reset (R20). -/
def execDiscovery (s : State) : Result :=
  .next (if s.disc.running ∨ s.disc.ended ∨ s.hubOff then s
    else (List.range 7).foldl State.discFlit { s with disc := { running := true, awaiting := List.range 7 } })

/-- The copy of the topology table that goes to the islands (R19 step 4). -/
def State.topoBytes (s : State) : List Byte :=
  (List.range 7).flatMap fun p => match s.topoAt p with
    | some a => answerBytes a
    | none => List.replicate 16 0#8

/-- The copy sent to an island over its Hinge link: four writes on the safety channel, two entries to a word (assumption 16). -/
def State.topoSend (s : State) (i : Nat) : State :=
  (List.range 4).foldl (fun s k =>
    let r := s.fresh
    r.2.flitSend (5 + i) 0 (mkFlit 0 0 (5 + i) 0 3 r.1 false (BitVec.ofNat 256 (leNat (bytesAt s.topoBytes (32 * k) 32))))) s

/-- A port settled: after the last one the table goes to both islands (R19 step 4). -/
def State.portDone (s : State) (p : Nat) : State :=
  let rest := setDel s.disc.awaiting p
  let s1 := { s with disc := { s.disc with awaiting := rest } }
  if rest = [] then (s1.topoSend 0).topoSend 1 else s1

/-- What the Dike answers on port 6 (R18). -/
def State.dikeAnswer (s : State) : DiscAnswer := ⟨if s.fuse.xsPopulated then 4#8 else 0#8, 0#8, 0#8, 0#8, 0#64, 0#32⟩

/-- DISCOVERY_ANSWER (R17, R18, R19 step 2). -/
def execDiscoveryAnswer (p : Fin 7) (ans : DiscAnswer) (s : State) : Result :=
  .next (if s.disc.running ∧ s.disc.awaiting.contains p.val then
      (s.putTopo p (if p.val = 6 then s.dikeAnswer else ans)).portDone p
    else s)

/-- A rediscovery that fails (R24): the die stays held. -/
def State.rediscFail (s : State) (d : Nat) : State :=
  ((s.put (F.CD_STATE_held_cause d) 4).setCdState d 6).raise pgDISC Ev.DISC_rediscovery_fail

/-- DISC_ANSWER_TIMEOUT (R19 step 3): the flit is sent again, three times at most; then the port is absent. In a rediscovery it is sent
again DISC_RETRY.count times (DISC_RETRY applies there); then the die gave no answer (R24). -/
def execDiscAnswerTimeout (p : Fin 7) (s : State) : Result :=
  let n := tabGet s.disc.tries p.val 0
  let again := { s with disc := { s.disc with tries := tabSet s.disc.tries p.val (n + 1) } }.discFlit p.val
  .next (if s.disc.running then
      if !s.disc.awaiting.contains p.val then s
      else if n < 3 then again
      else (s.raise pgDISC Ev.DISC_port_absent).portDone p
    else if p.val < 4 ∧ s.cdState p.val = 2 ∧ !s.disc.mismatch then
      (if n < s.get F.DISC_RETRY_count then again else s.rediscFail p)
    else s)

/-- The cases of R22 that hold for a compute die that answered, in order: 1 unit count, 2 stepping, 3 stack. -/
def State.heldCauses (s : State) (a : DiscAnswer) : List Nat :=
  (if (enabledPhys a.unitMap.toNat).length ≠ s.fuse.perDie then [1] else [])
    ++ (if !s.accepted.contains a.stepping.toNat then [2] else [])
    ++ (if a.stack = 0#8 then [3] else [])

/-- A compute die settled by discovery (R21, R22, R23, R68): the islands record every case in which it is held. -/
def State.dieFound (s : State) (d : Nat) : State :=
  match s.topoAt d with
  | none => s.setCdState d 0
  | some a =>
    let s1 := s.put (F.GEN_UNITMAP_physical d) a.unitMap.toNat
    match s.heldCauses a with
    | [] => s1.dieRun d a.unitMap.toNat
    | c :: cs =>
      (c :: cs).foldl (fun s c => s.bothWrite 7 0 (pgCD d) c [])
        (((s1.put (F.CD_PHYS_MAP_enabled d) a.unitMap.toNat).put (F.CD_STATE_held_cause d) c).setCdState d 6)

/-- Both islands' verdicts are in (R19 step 6): discovery is complete; without a mismatch the dies are settled. -/
def State.discDone (s : State) : State :=
  let s1 := { s with disc := { s.disc with
      running := false
      ended := true } }
  let s2 := if s1.disc.mismatch then s1 else (List.range 4).foldl State.dieFound s1
  (s2.put F.DISC_STATUS_done 1).raise pgDISC Ev.DISC_done

/-- Bring-up stops on the first mismatch (R20): the islands hold every compute die in reset. -/
def State.discStop (s : State) (p : Nat) : State :=
  if s.disc.mismatch then s
  else
    let s1 := { s with disc := { s.disc with
        mismatch := true
        ended := true } }
    let s2 := (List.range 4).foldl (fun s d => if s.cdState d = 0 then s else s.setCdState d 1) s1
    ((s2.put F.DISC_STATUS_mismatch 1).put F.DISC_STATUS_mismatch_port p).raise pgDISC Ev.DISC_mismatch

/-- TOPOLOGY_COPY (R19 steps 5 and 6): the island compares ports 0 to 5 with what it reads itself and writes its verdict; with
every running island's verdict in, discovery is complete. -/
def execTopologyCopy (i : Island) (s : State) : Result :=
  let k := islIdx i
  let seen := if k = 0 then s.disc.sawSia else s.disc.sawSib
  .next (if !s.disc.running ∨ s.disc.awaiting ≠ [] ∨ seen ∨ !s.islUp k then s
    else
      let same := fun p => s.topoAt p == tabFind s.ident p
      let s1 := s.put (if k = 0 then F.DISC_ISLAND_CMP_sia_match else F.DISC_ISLAND_CMP_sib_match)
        (((List.range 6).map fun p => bitAt (same p) p).sum)
      let s2 := match (List.range 6).find? fun p => !same p with
        | some p => s1.discStop p
        | none => s1
      let s3 := { s2 with disc := { s2.disc with
          sawSia := s2.disc.sawSia || k == 0
          sawSib := s2.disc.sawSib || k == 1 } }
      if (s3.disc.sawSia || !s3.islUp 0) && (s3.disc.sawSib || !s3.islUp 1) then s3.discDone else s3)

/-- Does an answer of a compute die equal the stored entry, and the islands' READ_ID too (R24)? -/
def State.sameDie (s : State) (d : Nat) (ans : Option DiscAnswer) : Bool :=
  ans.isSome && ans == s.topoAt d && tabFind s.ident d == s.topoAt d

/-- REDISCOVERY (R24): a die leaving reset returns to service only if every answer field matches, and then whatever it was held for
(assumption 40); not after a mismatch (R20). -/
def execRediscovery (d : Fin 4) (ans : Option DiscAnswer) (s : State) : Result :=
  .next (if s.cdState d ≠ 2 ∨ s.disc.mismatch then s
    else
      match ans with
      | none => s.rediscFail d
      | some a => if s.sameDie d ans then (s.put (F.CD_STATE_held_cause d) 0).dieRun d a.unitMap.toNat else s.rediscFail d)

/-- RESCAN (R24): a die in run whose answer differs is reset by the islands; a held die is compared and reported only. DESIGN CHOICE: the
rule does not say what a rescan of a fenced or stopped die does; it is ignored (assumption 70). -/
def execRescan (acc : Acc) (ans : Option DiscAnswer) (s : State) : Result :=
  .next (s.command pgDISC 0x020 acc fun s w =>
    let p := s.get F.DISC_CTRL_rescan_port
    if !w.getLsbD 0 ∨ 4 ≤ p ∨ s.sameDie p ans then s
    else if s.cdState p = 3 then (s.raise pgDISC Ev.DISC_rediscovery_fail).allWantDie p
    else if s.cdState p = 6 then s.raise pgDISC Ev.DISC_rediscovery_fail
    else s)

/-- RESET_REQ (R69): the islands are asked to reset the die. Through the shadow it reaches a held die alone (R24, R46). -/
def execResetReq (d : Fin 4) (acc : Acc) (s : State) : Result :=
  .next (if s.cdState d = 6 ∧ acc.be = 0xF#4 ∧ acc.view = .base ∧ acc.val.getLsbD 0 ∧ !s.hubOff ∧ ¬(acc.req = .host ∧ acc.poisoned) then s.allWantDie d
    else s.command (pgCD d) 0x024 acc fun s w => if w.getLsbD 0 then s.allWantDie d else s)

/-! ### The hotspot grid (R36 to R38) -/

/-- Effective thresholds in °C, of steps 1 to 3 (R38). -/
def State.thr (s : State) (d k : Nat) : Int :=
  let e3 := s.get (F.ST_THR3_celsius d)
  let e2 := min (s.get (F.ST_THR2_celsius d)) e3
  let e1 := min (s.get (F.ST_THR1_celsius d)) e2
  if k = 1 then e1 else if k = 2 then e2 else e3

/-- The step after a sample whose hottest valid point is `t` in 1/16 °C (R36): up while a threshold is reached, then down while
the point is below it by more than the hysteresis. -/
def State.throttle (s : State) (d : Nat) (t : Int) (step : Nat) : Nat :=
  let up := (List.range 3).foldl (fun k _ => if k < 3 ∧ 16 * s.thr d (k + 1) ≤ t then k + 1 else k) step
  (List.range 3).foldl
    (fun k _ => if 0 < k ∧ t < 16 * (s.thr d k - (s.get (F.ST_HYST_degrees d) : Int)) then k - 1 else k) up

/-- A new throttle step of a stack. -/
def State.setStep (s : State) (d step : Nat) : State :=
  if s.get (F.ST_STATUS_step d) = step then s
  else (((s.put (F.ST_STATUS_step d) step).count (F.ST_STEP_COUNT_changes d) 1).raise (pgST d) Ev.ST_step_change)

/-- The hottest of some grid points: temperature and point. DESIGN CHOICE: of points equally hot the lowest-numbered, which the spec leaves
open (assumption 70). -/
def hottest : List (Nat × Int) → Option (Nat × Int)
  | [] => none
  | x :: t => match hottest t with
    | none => some x
    | some y => some (if y.2 ≤ x.2 then x else y)

/-- Valid points of a grid sample (R37). -/
def validPoints (temps : List (Option Int)) (mask : Nat) : List (Nat × Int) :=
  (List.range 16).filterMap fun k => match temps.getD k none with
    | some t => if mask.testBit k then none else some (k, t)
    | none => none

/-- GRID_SAMPLE (R36, R37): the grid read, its hottest valid point shown, the stack's throttle step set. -/
def execGridSample (d : Fin 4) (temps : List (Option Int)) (s : State) : Result :=
  .next (if s.cdState d = 0 ∨ s.cdState d = 1 then s
    else
      let ps := validPoints temps (s.get (F.CD_GRID_MASK_exclude d))
      let s1 := (List.range 16).foldl (fun s k => match temps.getD k none with
        | some t => s.put (F.CD_HOTSPOT_temp d k) (ofInt 16 t)
        | none => s) s
      let s2 := s1.put (F.CD_HOTSPOT_MAX_valid_count d) ps.length
      match hottest ps with
      | none => (s2.setStep d 3).raise (pgST d) Ev.ST_grid_degraded
      | some (k, t) =>
        let s3 := ((s2.put (F.CD_HOTSPOT_MAX_temp d) (ofInt 16 t)).put (F.CD_HOTSPOT_MAX_point d) k).raiseIf
          (decide (16 * 118 ≤ t)) (pgCD d) Ev.CD_hotspot
        if ps.length < 12 then (s3.setStep d 3).raise (pgST d) Ev.ST_grid_degraded
        else if (tabFind s.spilled d.val).isSome then s3
        else s3.setStep d (s3.throttle d t (s3.get (F.ST_STATUS_step d))))

end Sys2Proof.Machine
end

