-- ==== Sys2Proof/Machine/Dike.lean ====
section
/-! DEFINITION. The XS slot and the Dike (R25 to R35, R41, R42): admission, windows, requests, the mailbox. -/

namespace Sys2Proof.Machine

/-- DIKE_STATUS.state: 0 empty or not started, 1 training, 2 verifying, 3 admitted, 4 faulted, 5 locked out. -/
def State.dikeState (s : State) : Nat := s.get F.DIKE_STATUS_state

/-- The mailbox as at reset (R41). -/
def State.mailboxClear (s : State) : State :=
  (List.range 24).foldl (fun s k => s.putWord pgXSLOT (0x20 + 4 * k) 0#32) s

/-- A violation or a failed admission faults the slot (R33, R34, R35): the request is dropped with every queued one, windows and
mailbox close, the third fault locks the slot out, streams through XS are treated under R217. -/
def State.dikeFault (s : State) (cause window addr : Nat) : State :=
  let n := s.get F.DIKE_STATUS_fault_count + 1
  let s1 := { s with dike := { s.dike with
      step := 0
      cert := []
      inter := none
      windows := []
      stalled := []
      commitQ := false } }
  let s2 := (((s1.put F.DIKE_VIOL_cause cause).put F.DIKE_VIOL_window window).put F.DIKE_VIOL_ADDR_LO_addr addr).put
    F.DIKE_VIOL_ADDR_HI_addr (addr / 2 ^ 32)
  let s2 := (List.range 16).foldl (fun s n => s.put (F.DIKE_WIN_SIZE_valid n) 0) s2
  let s3 := (((s2.put F.DIKE_STATUS_fault_count (min n 3)).put F.DIKE_STATUS_state (if 3 ≤ n then 5 else 4)).put
    F.DIKE_CTRL_enable 0).put F.GEN_XS_admitted 0
  (((s3.mailboxClear.raise pgDIKE Ev.DIKE_violation).raiseIf (cause = 8) pgDIKE Ev.DIKE_cert_fail).raiseIf (decide (3 ≤ n)) pgDIKE
    Ev.DIKE_locked_out).xsLost

/-! ### Admission (R26 to R29, R35) -/

/-- ADMISSION_START (R28): hub firmware that runs starts admission of a populated slot. -/
def execAdmissionStart (s : State) : Result :=
  .next (if s.dikeState = 0 ∧ s.fuse.xsPopulated ∧ s.sec.boot.running then
      { s.put F.DIKE_STATUS_state 1 with dike := { s.dike with step := 1 } }
    else s)

/-- UCIE_TRAINING_DONE (R28 step 2). -/
def execUcieTrainingDone (s : State) : Result :=
  .next (if s.dike.step = 1 then { s with dike := { s.dike with step := 2 } } else s)

/-- CHAIN_RECEIVED (R28 step 3). -/
def execChainReceived (cert : List Byte) (inter : Option (List Byte)) (s : State) : Result :=
  .next (if s.dike.step = 2 then
      { s.put F.DIKE_STATUS_state 2 with dike := { s.dike with
          step := 3
          cert := cert
          inter := inter } }
    else s)

/-- Form of a certificate (R26): magic, version, length, die class. -/
def certForm (c : List Byte) (cls : Nat) : Bool :=
  decide (c.length = 7307) && c.take 4 == [0x44#8, 0x4B#8, 0x43#8, 0x31#8] && fieldAt c 4 2 == 1 && fieldAt c 6 2 == cls

/-- Does a key, named by its digest, verify a certificate that names it as issuer? -/
def certSigned (c key : List Byte) : Bool :=
  bytesAt c 0x18 64 == key && Config.mldsaVerify key (sha3_512 (c.take 0xA78)) (bytesAt c 0xA78 4627)

/-- Entry `k` of the key-store record in force (R539): the digest of an enabled XS key. -/
def State.xsKey (s : State) (k : Nat) : Option (List Byte) :=
  let e := bytesAt s.sec.boot.xsKeys (72 * k) 72
  if fieldAt e 64 1 = 1 then some (e.take 64) else none

/-- The enrolled key slot that closes a chain, if the chain is accepted (R27). -/
def State.chainSlot (s : State) : Option Nat :=
  let c := s.dike.cert
  let top := match s.dike.inter with
    | some t => t
    | none => c
  let links : Bool := match s.dike.inter with
    | some t => certForm t 0 && fieldAt t 8 8 == 0 && certSigned c (sha3_512 (bytesAt t 0x58 2592))
    | none => true
  if certForm c 4 && links && fieldAt c 8 8 == s.sec.trust.xsSerial.toNat
      && decide (s.rollback 5 ≤ fieldAt c 0x14 4) then
    (List.range 8).find? fun k => match s.xsKey k with
      | some key => certSigned top key
      | none => false
  else none

/-- CHAIN_VERIFIED (R27, R28 step 4, R532): the slot is admitted, with the committed windows in effect and the mailbox open, or
faulted. -/
def execChainVerified (s : State) : Result :=
  .next (if s.dike.step ≠ 3 then s
    else
      match s.chainSlot with
      | none => s.dikeFault 8 0 0
      | some k =>
        let s1 := { s with
          dike := { s.dike with step := 0 }
          sec := { s.sec with meas := tabSet s.sec.meas 9 (sha3_512 s.dike.cert) } }
        let s2 := ((s1.put F.DIKE_STATUS_state 3).put F.DIKE_STATUS_key_slot k).put F.DIKE_CTRL_enable 1
        ((s2.put F.XSLOT_STATUS_open 1).put F.XSLOT_IDENT_maker (fieldAt s.dike.cert 0x10 4)).put F.GEN_XS_admitted 1 |>.raise
          pgDIKE Ev.DIKE_admitted)

/-- ADMISSION_OVERRUN (R29). -/
def execAdmissionOverrun (s : State) : Result := .next (if s.dike.step = 0 then s else s.dikeFault 9 0 0)

/-- Is the slot being admitted, or admitted? -/
def State.dikeLive (s : State) : Bool := decide (1 ≤ s.dikeState ∧ s.dikeState ≤ 3)

/-- DIKE_CTRL written: fence, or 0 to an enable that is set, is a violation in any state of the slot (R33, R34); readmit starts admission
of a faulted slot again, not of a locked-out one (R35); commit waits for the requests past the Dike (R32). -/
def State.dikeCtrl (s : State) (w : Word) : State :=
  if w.getLsbD 3 || (!w.getLsbD 0 && s.flag F.DIKE_CTRL_enable) then s.dikeFault 7 0 0
  else
    let s1 := if w.getLsbD 1 then { s with dike := { s.dike with commitQ := true } } else s
    if w.getLsbD 2 ∧ s.dikeState = 4 then { s1.put F.DIKE_STATUS_state 1 with dike := { s1.dike with step := 1 } } else s1

/-- READMIT (R35). -/
def execReadmit (acc : Acc) (s : State) : Result := .next (s.command pgDIKE 0x020 acc State.dikeCtrl)

/-- DIKE_FENCE (R33, R34). -/
def execDikeFence (acc : Acc) (s : State) : Result := .next (s.command pgDIKE 0x020 acc State.dikeCtrl)

/-- DIKE_ENABLE_CLEAR (R34). -/
def execDikeEnableClear (acc : Acc) (s : State) : Result := .next (s.command pgDIKE 0x020 acc State.dikeCtrl)

/-- COMMIT (R32). -/
def execCommit (acc : Acc) (s : State) : Result := .next (s.command pgDIKE 0x020 acc State.dikeCtrl)

/-- UCIE_LINK_LOSS (R33). -/
def execUcieLinkLoss (s : State) : Result := .next (if s.dikeLive then s.dikeFault 6 0 0 else s)

/-! ### Windows (R31, R32) -/

/-- The windows that the registers describe, by number; tokens are counted in 16 bytes. -/
def State.windowSet (s : State) : List (Nat × Window) :=
  (List.range 16).filterMap fun n =>
    if s.flag (F.DIKE_WIN_SIZE_valid n) then
      some (n, ⟨s.addr (F.DIKE_WIN_BASE_LO_base n), 2 ^ s.get (F.DIKE_WIN_SIZE_size_log2 n), s.get (F.DIKE_WIN_SIZE_perm n),
        s.get (F.DIKE_WIN_RATE_rate n), s.get (F.DIKE_WIN_RATE_burst n), 2 * s.get (F.DIKE_WIN_RATE_burst n)⟩)
    else none

/-- Is a set of windows one that commit accepts (R31, R32)? -/
def State.windowsOk (s : State) (ws : List (Nat × Window)) : Bool :=
  ws.all fun w =>
    decide (2 ^ 12 ≤ w.2.size ∧ w.2.size ≤ 2 ^ 36 ∧ w.2.base % w.2.size = 0) && s.inMemory w.2.base w.2.size
      && ws.all fun v => decide (v.1 = w.1 ∨ v.2.base + v.2.size ≤ w.2.base ∨ w.2.base + w.2.size ≤ v.2.base)

/-- COMMIT_APPLY (R32): with earlier requests complete, the new set is applied as a whole or refused. -/
def execCommitApply (s : State) : Result :=
  .next (if !s.dike.commitQ ∨ s.dike.past ≠ 0 then s
    else
      let ws := s.windowSet
      let s1 := { s with dike := { s.dike with commitQ := false } }
      if s.windowsOk ws then { s1.put F.DIKE_STATUS_commit_err 0 with dike := { s1.dike with windows := ws } }
      else s1.put F.DIKE_STATUS_commit_err 1)

/-! ### Requests (R30, R31, R33, R41, R42) -/

/-- Bytes that a request moves. -/
def xsBytes (r : XsReq) : Nat := 32 * r.words

/-- Tokens that a request needs of its window. -/
def xsCost (r : XsReq) (w : Window) : Nat := 2 * min r.words w.burst

/-- Is a request held back by its window's rate limit? A window with rate 0 passes nothing. DESIGN CHOICE: R31 names the empty bucket; a
bucket with fewer tokens than the request needs holds the whole request too (assumption 17). -/
def xsHeld (r : XsReq) (w : Window) : Bool := decide (w.rate = 0 ∨ w.tokens < max 1 (xsCost r w))

/-- A request that its window lets through: the words are written, or read and returned. -/
def State.xsServe (s : State) (r : XsReq) (n : Nat) (w : Window) : State :=
  let s1 := { s with dike := { s.dike with
      windows := s.dike.windows.map fun (v : Nat × Window) => if v.1 = n then (n, { w with tokens := w.tokens - xsCost r w }) else v } }
  let a := r.addr.toNat
  match r.kind with
  | .write => s1.store a (bytesAt (r.data.flatMap fun (l : Line) => leBytes 32 l.toNat) 0 (xsBytes r))
  | _ =>
    let l := s1.load a (xsBytes r)
    l.1.emit .xsReturn [a, r.words, bitAt l.2.2 0] l.2.1

/-- A memory request at the Dike: `fresh` when it arrives, otherwise a stalled one that tries again. DESIGN CHOICE: R31 gives no order
across windows; stalled requests form one queue, and while one waits a fresh request joins its end (assumption 17). -/
def State.xsMemory (s : State) (r : XsReq) (fresh : Bool) : State :=
  let a := r.addr.toNat
  match s.windowAt a with
  | none => s.dikeFault 1 0 a
  | some (n, w) =>
    if w.base + w.size < a + (xsBytes r) then s.dikeFault 3 n a
    else if !w.perm.testBit (if r.kind = .write then 1 else 0) then s.dikeFault 2 n a
    else if (fresh && !s.dike.stalled.isEmpty) || xsHeld r w then
      if fresh then
        let c := s.get F.DIKE_STALL_COUNT_stalls
        let s1 := ({ s with dike := { s.dike with stalled := s.dike.stalled ++ [r] } }.count F.DIKE_STALL_COUNT_stalls r.words)
        s1.raiseIf (decide (c ≤ 65536 ∧ 65536 < c + r.words)) pgDIKE Ev.DIKE_stall
      else s
    else (if fresh then s else { s with dike := { s.dike with stalled := s.dike.stalled.tail } }).xsServe r n w

/-- The violation in a write of `n` bytes at `a` by the XS die, if there is one: its cause and window (R33). -/
def State.xsViolation (s : State) (a n : Nat) : Option (Nat × Nat) :=
  match s.windowAt a with
  | none => some (1, 0)
  | some (k, w) =>
    if w.base + w.size < a + n then some (3, k)
    else if !w.perm.testBit 1 then some (2, k)
    else none

/-- Tokens that a write of `n` bytes takes of its window; none: it must wait (R31). -/
def State.xsTake (s : State) (a n : Nat) : Option State :=
  let q : XsReq := ⟨.write, BitVec.ofNat 48 a, (n + 31) / 32, [], .clean⟩
  match s.windowAt a with
  | some (k, w) =>
    if xsHeld q w then none
    else some { s with dike := { s.dike with
        windows := s.dike.windows.map fun (v : Nat × Window) => if v.1 = k then (k, { w with tokens := w.tokens - xsCost q w }) else v } }
  | none => none

/-- XS_ITEM_RETURN (R217, R25, R30, R31, R33): the oldest item with the XS die returns and is ready to commit. The die writes it to its place
in the stream's ring through a window; an uncorrectable word or a write that no window lets through is a violation; short of tokens it
waits, counted. In replay it is ignored (R328). -/
def execXsItemReturn (n : Fin 128) (item : XsItem) (s : State) : Result :=
  let code := item.code
  let data := item.data
  let v := s.stream n.val
  .next (match v.ready.find? (·.xs) with
    | none => s
    | some r =>
      if s.dikeState ≠ 3 then s
      else if s.replaying then
        (s.modStream n.val fun v => { v with ready := v.ready.erase r }).count F.JRN_IGNORED_count 1
      else
        match s.placeData n.val data.length with
        | none => s.dropNumbered n.val r
        | some (o, s1) =>
          let a := v.ring + o
          if code = .many then s.dikeFault 5 0 a
          else
            match s.xsViolation a data.length with
            | some c => s.dikeFault c.1 c.2 a
            | none =>
              match s1.xsTake a data.length with
              | none => s.count F.DIKE_STALL_COUNT_stalls ((data.length + 31) / 32)
              | some s2 => s2.modStream n.val fun v => { v with
                  ready := v.ready.map fun x =>
                    if x = r then { r with xs := false, off := o, len := data.length, data := data } else x })

/-- The XS die's acknowledgement of the host's words (R42). -/
def State.h2xAck (s : State) : State :=
  if s.flag F.XSLOT_STATUS_h2x_pending then (s.put F.XSLOT_STATUS_h2x_pending 0).raise pgXSLOT Ev.XSLOT_h2x_ack else s

/-- The XS die's post of its words (R42). -/
def State.x2hPost (s : State) : State :=
  if s.flag F.XSLOT_STATUS_open ∧ !s.flag F.XSLOT_STATUS_x2h_valid then
    (s.put F.XSLOT_STATUS_x2h_valid 1).raise pgXSLOT Ev.XSLOT_x2h_valid
  else s

/-- Offsets of the mailbox in the XS die's view (R42). -/
def mailboxOffset (off : Nat) : Bool := decide (off = 0x20 ∨ off = 0x24 ∨ (0x40 ≤ off ∧ off < 0x80)) && off % 4 == 0

/-- A mailbox access of the XS die (R41, R42): H2X registers are read-only, X2H_DATA takes no write while x2h_valid is 1. -/
def State.xsMailbox (s : State) (off : Nat) (val : Option Word) : State :=
  if !mailboxOffset off then s.dikeFault 1 0 off
  else
    match val with
    | none => s.emit .xsReturn [off] (leBytes 4 (if off = 0x20 then 0 else (s.regWord pgXSLOT off).toNat))
    | some v =>
      if off = 0x20 then
        let s1 := if v.getLsbD 0 then s.h2xAck else s
        if v.getLsbD 8 then s1.x2hPost else s1
      else if 0x60 ≤ off ∧ !s.flag F.XSLOT_STATUS_x2h_valid then s.putWord pgXSLOT off v
      else s

/-- XS_REQUEST (R30, R31, R33): a request of an admitted XS die, checked and served, stalled, or a violation. -/
def execXsRequest (r : XsReq) (s : State) : Result :=
  .next (if s.dikeState ≠ 3 then s
    else if r.code = .many then s.dikeFault 5 0 r.addr.toNat
    else
      match r.kind with
      | .reserved => s.dikeFault 4 0 r.addr.toNat
      | .mailboxRead off => s.xsMailbox off.toNat none
      | .mailboxWrite off v => s.xsMailbox off.toNat (some v)
      | _ => s.xsMemory r true)

/-- XS_REQUEST_UNSTALL (R31): the oldest stalled request proceeds once its tokens are there. -/
def execXsRequestUnstall (s : State) : Result :=
  .next (match s.dike.stalled with
    | [] => s
    | r :: _ => s.xsMemory r false)

/-- h2x_ring (R42): the eight words go to the die by sideband message. DESIGN CHOICE: R42 does not say what a ring does while the mailbox
is closed, or while h2x_pending is 1 already; the first is ignored, the second sends the eight words again (assumption 70). -/
def State.h2xRing (s : State) : State :=
  if s.flag F.XSLOT_STATUS_open then
    (s.put F.XSLOT_STATUS_h2x_pending 1).emit .sideband [0]
      ((List.range 8).flatMap fun k => leBytes 4 (s.get (F.XSLOT_H2X_DATA_data k)))
  else s

/-- x2h_ack (R42). -/
def State.x2hAck (s : State) : State :=
  if s.flag F.XSLOT_STATUS_x2h_valid then (s.put F.XSLOT_STATUS_x2h_valid 0).emit .sideband [1] else s

/-- A write of XSLOT_CTRL: the ring before the acknowledgement (assumption 80). -/
def State.xslotCtrl (s : State) (w : Word) : State :=
  let s1 := if w.getLsbD 0 then s.h2xRing else s
  if w.getLsbD 8 then s1.x2hAck else s1

/-- H2X_RING (R42). -/
def execH2xRing (acc : Acc) (s : State) : Result := .next (s.command pgXSLOT 0x020 acc State.xslotCtrl)

/-- X2H_ACK (R42). -/
def execX2hAck (acc : Acc) (s : State) : Result := .next (s.command pgXSLOT 0x020 acc State.xslotCtrl)

/-- H2X_ACK (R42). -/
def execH2xAck (s : State) : Result := .next s.h2xAck

/-- X2H_POST (R42). -/
def execX2hPost (s : State) : Result := .next s.x2hPost

/-- Buckets of the windows refilled for one microsecond: 16 bytes for each unit of rate (R31). -/
def State.dikeRefill (s : State) : State :=
  { s with dike := { s.dike with
      windows := s.dike.windows.map fun w => (w.1, { w.2 with tokens := min (w.2.tokens + w.2.rate) (2 * w.2.burst) }) } }

/-! ### Array clocks (R504) -/

/-- The effective clock step of a die: the commanded step, no more than a dip allows, 300 MHz in reduced service (R504, R508, R517). -/
def State.clkEff (s : State) (d : Nat) : Nat :=
  let c := s.get (F.CD_CTRL_clk_step d)
  let c1 := match tabFind s.pwr.dips d with
    | some p => min c p.ceil
    | none => c
  if s.get F.PWR_SERVICE_level = 1 then min c1 1 else c1

/-- PWR_CLK of a die decided anew; a change lets the part under test end its slice (R483). -/
def State.clkShow (s : State) (d : Nat) : State :=
  if s.get (F.PWR_CLK_array d) = s.clkEff d then s
  else
    let v := s.stDie d
    (s.put (F.PWR_CLK_array d) (s.clkEff d)).setStDie d { v with noMore := v.noMore || v.win.isSome }

/-- CLK_STEP_WRITE (R103, R504). -/
def execClkStepWrite (d : Fin 4) (acc : Acc) (s : State) : Result :=
  .next ((s.writeReg (pgCD d) 0x024 acc).clkShow d)

end Sys2Proof.Machine
end

