-- ==== Sys2Proof/Machine/Islands.lean ====
section
/-! DEFINITION. The commands of 14_safety_islands but for the module reset: heartbeats and peers, fault collection, deadlines, the
held fallback, frames, die resets. -/

namespace Sys2Proof.Machine

/-! ### One island alone (R434 to R440) -/

/-- An island restarted: its view page returns to its values before the first update, what its SRAM held is gone; its counter and
what lies in PSRAM go on (R434, R435, R472). -/
def State.islRestart (s : State) (i : Nat) : State :=
  let v := s.island i
  let s1 := s.clearPage (pgISL i) fun _ => false
  ((s1.put (F.PSR_STATUS_state i) 0).put (F.NOR_STATUS_state i) 0).setIsl i
    { time := v.time
      seq := v.seq
      recs := v.recs
      frs := v.frs
      powerOns := v.powerOns
      modTimes := v.modTimes
      repairSeq := v.repairSeq
      cold := v.cold
      critical := v.critical }

/-- Reduced independence shown or cleared (R437). -/
def State.reduced (s : State) (i : Nat) (on : Bool) : State :=
  (s.putB (F.ISL_STATE_reduced_independence i) on).islLevel i Ev.ISL_reduced_independence on

/-- The peer reset once by an island, which waits for its return (R437 step 2). -/
def State.peerReset (s : State) (i : Nat) : State :=
  ((s.put (F.ISL_STATE_state i) 4).islWrite i 4 0 0xFF 8 []).islRestart (peerOf i)

/-- An island that drives its outputs and stands paired or booting declares its peer down (R437 steps 1, 2 and 4). A second failure
within 10 s leaves it single until the next power-on. -/
def State.peerDown (s : State) (k : Nat) : State :=
  let v := s.island k
  if !v.running ∨ !v.driving ∨ ¬(s.get (F.ISL_STATE_state k) = 1 ∨ s.get (F.ISL_STATE_state k) = 2) then s
  else
    let s1 := (((s.put (F.ISL_STATE_peer_ok k) 0).islLevel k Ev.ISL_peer_down true).reduced k true).modIsl k fun v => { v with
      peerFail := some v.time }
    let again : Bool := match v.peerFail with
      | some t => decide (v.time - t < 10000000)
      | none => false
    let s2 := if again then (s1.put (F.ISL_STATE_state k) 3).modIsl k fun v => { v with peerGone := true } else s1.peerReset k
    s2.statusFrame k

/-- HEARTBEAT (R437): island `i` sends its heartbeat and receives its peer's; a peer that reports a lockstep mismatch in it is declared
down. -/
def execHeartbeat (i : Island) (lockstepBad : Bool) (s : State) : Result :=
  let k := islIdx i
  .next (if !s.islUp k ∨ !s.islUp (peerOf k) ∨ !(s.island (peerOf k)).driving then s
    else
      let s1 := (s.emit .pairLine [k]).put (F.ISL_STATE_peer_ok k) 1
      let s2 := if s1.get (F.ISL_STATE_state k) = 1 then s1.put (F.ISL_STATE_state k) 2 else s1
      if lockstepBad then s2.peerDown k else s2)

/-- PEER_DOWN (R437): the peer's heartbeat absent for 1 ms. -/
def execPeerDown (i : Island) (s : State) : Result := .next (s.peerDown (islIdx i))

/-- PEER_RETURN (R437 step 3): the returning island copies deadline timers, held plans and record sequence from the survivor. -/
def execPeerReturn (i : Island) (s : State) : Result :=
  let k := islIdx i
  let p := peerOf k
  .next (if s.get (F.ISL_STATE_state k) ≠ 4 ∨ !s.islUp k ∨ !s.islUp p then s
    else
      let v := s.island k
      let s1 := s.modIsl p fun w => { w with
        timers := v.timers.map fun t => { t with
          release := w.time - (v.time - t.release)
          expiry := w.time + t.expiry - v.time }
        kept := v.kept.map fun e => (e.1, { e.2 with since := w.time - (v.time - e.2.since) })
        waits := v.waits
        seq := v.seq }
      let s2 := [k, p].foldl
        (fun s j => (((s.put (F.ISL_STATE_state j) 2).put (F.ISL_STATE_peer_ok j) 1).reduced j false).islLevel j Ev.ISL_peer_down
          false) s1
      (s2.timersShow p).modIsl k fun v => { v with testing := false })

/-- PEER_RETURN_TIMEOUT (R437 step 4): the peer is not back within 50 ms. -/
def execPeerReturnTimeout (i : Island) (s : State) : Result :=
  let k := islIdx i
  .next (if s.get (F.ISL_STATE_state k) = 4 then
      (s.put (F.ISL_STATE_state k) 3).modIsl k fun v => { v with
        peerGone := true
        testing := false }
    else s)

/-- An island's link to HB is down. -/
def State.hubLinkGone (s : State) (i : Nat) : State := (s.put (F.ISL_STATE_hub_link i) 0).islLevel i Ev.ISL_hub_link_down true

/-- HUB_LINK_LOSS (R438): alone it makes the island faulty: it stops driving its outputs; when the peer lost its link as well, or
there is no peer, the module is reset. -/
def execHubLinkLoss (i : Island) (peerToo : Bool) (s : State) : Result :=
  let k := islIdx i
  .next (if !s.islUp k then s
    else if peerToo ∨ !s.islUp (peerOf k) then
      (if s.islUp (peerOf k) then (s.hubLinkGone k).hubLinkGone (peerOf k) else s.hubLinkGone k).allWantModule 1
    else
      (((((s.hubLinkGone k).put (F.ISL_OUTPUTS_can0 k) 0).put (F.ISL_OUTPUTS_can1 k) 0).put (F.ISL_OUTPUTS_eth k) 0).modIsl k
        fun v => { v with driving := false }))

/-- LOCKSTEP_MISMATCH (R434): the island's own monitor resets it. -/
def execLockstepMismatch (i : Island) (s : State) : Result :=
  .next (if s.islUp (islIdx i) then s.islRestart (islIdx i) else s)

/-- A deviation as ISL_CLOCK shows it: 16 bits, signed. -/
def ppm16 (x : Int) : Nat := ofInt 16 (max (-32768) (min 32767 x))

/-- CLOCK_CHECK (R436): a deviation of more than 1 % is recorded with severity fault. -/
def execClockCheck (i : Island) (peerPpm refPpm : Int) (s : State) : Result :=
  let k := islIdx i
  .next (if !s.islUp k then s
    else
      let s1 := (s.put (F.ISL_CLOCK_peer_ppm k) (ppm16 peerPpm)).put (F.ISL_CLOCK_ref_ppm k) (ppm16 refPpm)
      if 10000 < peerPpm.natAbs ∨ 10000 < refPpm.natAbs then
        s1.islWrite k 8 2 0xFF 0 (leBytes 2 (ppm16 peerPpm) ++ leBytes 2 (ppm16 refPpm))
      else s1)

/-! ### Fault collection (R441 to R445, R467, R471) -/

/-- Is the Hinge link between HB and an island up, and the island there? -/
def State.islLink (s : State) (i : Nat) : Bool :=
  s.islUp i && !(tabGet s.links ((5 + i) * 8) {}).down && !(tabGet s.links (5 + i) {}).down

/-- An event delivered to an island, or counted as lost. -/
def State.deliver (s : State) (i : Nat) (sent : Bool) (e : FltEvent) : State :=
  if !sent then s
  else if s.islLink i then s.modIsl i fun v => { v with inbox := v.inbox ++ [e] }
  else (s.satInc (if i = 0 then F.FLT_FORWARD_LOST_sia else F.FLT_FORWARD_LOST_sib)).raise pgFLT Ev.FLT_forward_lost

/-- Words of a page as bytes. -/
def detailBytes (ws : List Word) : List Byte := ws.flatMap fun w => leBytes 4 w.toNat

/-- The oldest event at the collector goes into its log and to the islands that its route names (R441, R442). -/
def State.faultForward (s : State) : State :=
  match s.flt with
  | [] => s
  | e :: rest =>
    let r := eventRecord s.fltNext 1 e.severity e.page e.bit 0 e.position (detailBytes e.detail)
      (bitAt e.injected 0 + bitAt (e.toSia && e.toSib) 3)
    let log := r :: s.fltLog
    let s1 := { s with
      flt := rest
      fltLog := log.take 1024
      fltNext := s.fltNext + 1 }
    let s2 := (((s1.put F.FLT_SEQ_seq s.fltNext).put F.FLT_STATUS_entries (min log.length 1024)).put F.FLT_STATUS_wrapped
      (if 1024 < log.length then 1 else s.get F.FLT_STATUS_wrapped)).raise pgFLT Ev.FLT_logged
    (s2.deliver 0 e.toSia e).deliver 1 e.toSib e

/-- FAULT_FORWARD (R441, R442). -/
def execFaultForward (s : State) : Result := .next s.faultForward

/-- Does an event report a correction (R467)? -/
def isCorrection (page bit : Nat) : Bool :=
  match pageRun page with
  | some r =>
    match r.blk with
    | .arr => bit == Ev.ARR_lb_corrected
    | .cd => bit == Ev.CD_corrected
    | .st => bit == Ev.ST_corrected
    | .mc => bit == Ev.MC_corrected
    | _ => false
  | none => false

/-- A correction summed for its page: the 65th within an hour is recorded with severity warn, and an array is taken out for test
(R467). -/
def State.sumCorrection (s : State) (i page bit : Nat) : State :=
  if !isCorrection page bit then s
  else
    let v := s.island i
    let ts := ((tabGet v.corr page []).filter fun t => decide (v.time < t + 3600000000)) ++ [v.time]
    let s1 := s.modIsl i fun v => { v with corr := tabSet v.corr page ts }
    if ts.length = 65 then
      let s2 := (s1.islWrite i 7 1 page bit []).modIsl i fun v => { v with warn := true }
      if 128 ≤ page ∧ page < 224 then s2.islArrayOut i (page - 128) else s2
    else s1

/-- Does an event of an array page take the array out (R443)? -/
def arrayFaultEvent (e : FltEvent) : Bool :=
  e.bit == Ev.ARR_lb_uncorrectable
    || (e.bit == Ev.ARR_fault && (let c := F.ARR_FAULT_cause 0 |>.ext (e.detail.getD 7 0#32); c == 1 || c == 4))

/-- An uncorrectable word of a die: the second within 1 s resets it (R443). -/
def State.dieUncorrectable (s : State) (i d : Nat) : State :=
  let v := s.island i
  let again : Bool := match tabFind v.lastBad d with
    | some t => decide (v.time - t < 1000000)
    | none => false
  let s1 := s.modIsl i fun v => { v with lastBad := tabSet v.lastBad d v.time }
  if again then s1.wantDie i d else s1

/-- What an island does on an event, by its source and severity (R443). -/
def State.islAct (s : State) (i : Nat) (e : FltEvent) : State :=
  match e.severity with
  | 0 => s
  | 1 => s.modIsl i fun v => { v with warn := true }
  | 2 =>
    if 128 ≤ e.page ∧ e.page < 224 then (if arrayFaultEvent e then s.islArrayOut i (e.page - 128) else s)
    else if 96 ≤ e.page ∧ e.page < 100 then
      (if e.bit = Ev.CD_link_down then s.wantDie i (e.page - 96)
       else if e.bit = Ev.CD_uncorrectable then s.dieUncorrectable i (e.page - 96) else s)
    else if 224 ≤ e.page ∧ e.page < 228 ∧ e.bit = Ev.ST_uncorrectable then s.dieUncorrectable i (e.page - 224)
    else s
  | _ =>
    match pageDie e.page with
    | some d => s.wantDie i d
    | none => s.wantModule i 1

/-- A retirement that an event tells of is entered in the island's repair table (R449). -/
def State.repairSync (s : State) (i page bit : Nat) : State :=
  if 64 ≤ page ∧ page < 80 ∧ bit = Ev.MC_row_retired then
    let k := page - 64
    s.repairPut1 i (0x100 + 512 * k) ((List.range 128).flatMap fun j =>
      match remapOf (tabGet (s.mc k).remap j (.of 0)).vote with
      | some r => leBytes 4 (remapNat r)
      | none => leBytes 4 0)
  else if page = pgMEMG ∧ bit = Ev.MEMG_retired then
    s.repairPut1 i 0 (leBytes 4 (match s.memg.retired with | some c => c + 2 ^ 31 | none => 0))
  else if 48 ≤ page ∧ page < 56 then
    let r := s.get (F.XL_LANE_RETIRE_retire (page - 48))
    if r = s.repairNat i (0x2100 + (page - 48)) 1 then s else s.repairPut1 i (0x2100 + (page - 48)) (leBytes 1 r)
  else s

/-- ISLAND_FAULT_EVENT (R443, R444, R449, R467): the oldest event forwarded to the island is recorded and acted on; one injected
without act is recorded only (R471). -/
def execIslandFaultEvent (i : Island) (s : State) : Result :=
  let k := islIdx i
  .next (match (s.island k).inbox with
    | [] => s
    | e :: rest =>
      let s1 := s.modIsl k fun v => { v with inbox := rest }
      if !s1.islUp k then s1
      else
        let s2 := s1.islWrite k 1 e.severity e.page e.bit (detailBytes e.detail) (bitAt e.injected 0 + bitAt (e.toSia && e.toSib) 3)
        if e.injected ∧ !e.act then s2
        else ((s2.islAct k e).sumCorrection k e.page e.bit).repairSync k e.page e.bit)

/-- TAP_REPORT (R445): a die's report is recorded; at 125 °C or more the island stops and fences the die, and resets it once it
reports less than 115 °C. -/
def execTapReport (i : Island) (d : Fin 4) (hottest : Option Int) (syndrome : Line) (s : State) : Result :=
  let k := islIdx i
  .next (if !s.islUp k ∨ s.cdState d = 0 then s
    else
      let hot : Bool := match hottest with
        | some t => decide (16 * 125 ≤ t)
        | none => false
      let cool : Bool := match hottest with
        | some t => decide (t < 16 * 115)
        | none => false
      let s1 := (s.tapShow (F.ISL_TAP_tap_ok k) d true).islWrite k 2 (if hot then 2 else 0) (pgCD d) 0 (leBytes 32 syndrome.toNat)
      if hot then ((s1.tapStop k d).tapFence k d).modIsl k fun v => { v with hot := setAdd v.hot d }
      else if cool ∧ (s1.island k).hot.contains d.val then
        (s1.modIsl k fun v => { v with hot := setDel v.hot d }).wantDie k d
      else s1)

/-- TAP_KEEPALIVE_LOSS (R445). -/
def execTapKeepaliveLoss (i : Island) (d : Fin 4) (s : State) : Result :=
  let k := islIdx i
  .next (if !s.islUp k ∨ s.cdState d = 0 then s
    else ((s.tapShow (F.ISL_TAP_tap_ok k) d false).islWrite k 2 2 (pgCD d) 1 []).wantDie k d)

/-- CLEAR_LOG (R441): the log is empty; sequence numbers go on. -/
def execClearLog (acc : Acc) (s : State) : Result :=
  .next (s.command pgFLT 0x020 acc fun s w =>
    if w.getLsbD 0 then ({ s with fltLog := [] }.put F.FLT_STATUS_entries 0).put F.FLT_STATUS_wrapped 0 else s)

/-- FLT_INJECT (R471): an injection with act is refused while the debug port is locked for it or a safety-relevant job is open. -/
def execFltInject (acc : Acc) (s : State) : Result :=
  .next (s.command pgFLT 0x100 acc fun s w =>
    if !w.getLsbD 31 then s
    else
      let act := s.flag F.FLT_INJECT_act
      if act ∧ (!(s.get F.SEC_DEBUG_STATE_scope).testBit 3 ∨ s.get F.FLT_SR_OPEN_open ≠ 0) then s.put F.FLT_INJECT_refused 1
      else
        let page := s.get F.FLT_INJECT_page
        let isl := s.get (F.BLK_FAULT_ROUTE_island page)
        let e : FltEvent := ⟨page, s.get F.FLT_INJECT_bit, s.get F.FLT_INJECT_severity, isl.testBit 0, isl.testBit 1, s.jrnPos,
          s.pageDetail page, true, act⟩
        { s.put F.FLT_INJECT_refused 0 with flt := s.flt ++ [e] })

/-! ### End deadlines (R452 to R456) -/

/-- The oldest job message to an island taken off its way. -/
def State.popIslMsg (s : State) (i : Nat) : State := { s with islMsgs := tabSet s.islMsgs i (tabGet s.islMsgs i []).tail }

/-- The key of a timer (R453). -/
def IslTimer.is (t : IslTimer) (q tag : Nat) : Bool := decide (t.queue = q ∧ t.tag = tag)

/-- A release message's effect on an island's timers (R453, R454). -/
def State.timerOpen (s : State) (i : Nat) (m : IslMsg) : State :=
  let v := s.island i
  if (v.timers.any fun t => t.is m.queue m.tag) then
    s.modIsl i fun v => { v with timers := v.timers.map fun t => if t.is m.queue m.tag then { t with index := m.index } else t }
  else
    let t : IslTimer := { queue := m.queue, tag := m.tag, index := m.index, deadline := m.deadline, release := v.time,
                          expiry := v.time + m.deadline }
    if 4096 ≤ v.timers.length then s.missJob i t
    else (s.modIsl i fun v => { v with timers := v.timers ++ [t] }).timersShow i

/-- RELEASE_MESSAGE (R453, R454). -/
def execReleaseMessage (i : Island) (s : State) : Result :=
  let k := islIdx i
  .next (match tabGet s.islMsgs k [] with
    | m :: _ => if !m.release then s else if s.islUp k then (s.popIslMsg k).timerOpen k m else s.popIslMsg k
    | [] => s)

/-- A completion's effect (R453): a clean one closes its timer; any other is recorded, and the timer stays open. -/
def State.timerClose (s : State) (i : Nat) (m : IslMsg) : State :=
  let dip := m.flags.testBit 1
  if (m.status = 0 ∨ m.status = 1) ∧ !dip ∧ ((s.island i).timers.any fun t => t.is m.queue m.tag) then
    (s.modIsl i fun v => { v with timers := v.timers.filter fun t => !t.is m.queue m.tag }).timersShow i
  else
    let mark (t : IslTimer) : IslTimer := if t.is m.queue m.tag then { t with dip := t.dip || dip, dirty := true } else t
    (s.modIsl i fun v => { v with timers := v.timers.map mark }).islWrite i 7 0 0xFF 0
      (leBytes 4 m.queue ++ leBytes 4 m.tag ++ leBytes 4 m.index ++ leBytes 4 m.status)

/-- COMPLETION_MESSAGE (R453, R454, R510). -/
def execCompletionMessage (i : Island) (s : State) : Result :=
  let k := islIdx i
  .next (match tabGet s.islMsgs k [] with
    | m :: _ => if m.release then s else if s.islUp k then (s.popIslMsg k).timerClose k m else s.popIslMsg k
    | [] => s)

/-- DEADLINE_MISS (R453, R456): an open timer reaches its expiry; it leaves the table. -/
def execDeadlineMiss (i : Island) (q : BitVec 20) (tag : Word) (s : State) : Result :=
  let k := islIdx i
  .next (match (s.island k).timers.find? fun t => t.is q.toNat tag.toNat with
    | none => s
    | some t =>
      ((s.modIsl k fun v => { v with
          time := max v.time t.expiry
          timers := v.timers.filter fun u => !u.is q.toNat tag.toNat }).timersShow k).missJob k t)

/-- SLOT_STALE (R455, R456): no result for the slot's deadline, or three kept ones; only that slot acts, and FLT is asked for the
query under way on it. A slot that the island's view shows as routed stays so across a module reset, which clears PLAN_ISLAND
(assumption 44). -/
def execSlotStale (i : Island) (slot : Fin 64) (s : State) : Result :=
  let k := islIdx i
  .next (if !s.islUp k ∨ (!s.routed slot ∧ s.get (F.ISL_SLOT_mode k slot) = 0) then s
    else
      let s1 := ((s.satInc (F.ISL_MISSES_slots k)).islWrite k 3 2 pgPLAN 0 (leBytes 4 slot.val)).missSlot k slot
      s1.recoveryQuery k ⟨some slot.val, 0, 0, 0⟩)

/-- The page of the hub engine that runs a job (R456). -/
def State.enginePage (s : State) (j : Job) : Nat :=
  match j.cls with
  | 3 => pgFUS
  | 4 => pgPROJ
  | 5 => if s.plan.queries.any fun q => decide (q.queue = j.queue ∧ q.index = j.index) then pgPLAN else pgCOLL
  | 6 => pgKV
  | _ => pgQENG

/-- FLT's answer to a recovery query (R456 step 2): 0 not found, 1 dies, 2 hub engine; the dies; the page. -/
def State.recoveryFind (s : State) (q : RecQuery) : Nat × Nat × Nat :=
  match q.slot with
  | some k => if s.plan.queries.any fun p => decide (p.slot = k) then (2, 0, pgPLAN) else (0, 0, 0)
  | none =>
    let js := s.jobs.filter fun j => decide (j.queue = q.queue ∧ j.tag = q.tag ∧ j.stage = .placed)
    let dies := (List.range 4).filter fun d => js.any fun j => j.slots.any fun k => decide (k.die = d ∧ (k.phase = 1 ∨ k.phase = 2))
    if dies ≠ [] then (1, (dies.map fun d => 2 ^ d).sum, 0)
    else
      match js.find? fun j => !j.isArray with
      | some j => (2, 0, s.enginePage j)
      | none => (0, 0, 0)

/-- RECOVERY_ANSWER (R456 steps 2 and 3): FLT shows its answer; the island resets the dies named, or asks the management complex
for a block reset of the engine's page, or records that nothing was found. -/
def execRecoveryAnswer (i : Island) (s : State) : Result :=
  let k := islIdx i
  .next (match (s.island k).queries with
    | [] => s
    | q :: rest =>
      let a := s.recoveryFind q
      let s1 := (((s.put F.FLT_RECOVERY_answer a.1).put F.FLT_RECOVERY_dies a.2.1).put F.FLT_RECOVERY_page a.2.2).put
        F.FLT_RECOVERY_valid 1
      let s2 := s1.modIsl k fun v => { v with queries := rest }
      match a.1 with
      | 1 => (List.range 4).foldl (fun s d => if a.2.1.testBit d then s.wantDie k d else s) s2
      | 2 => ((s2.modIsl k fun v => { v with engine := some a.2.2 }).emit .islandMessage [k, a.2.2]).islWrite k 4 0 a.2.2 9 []
      | _ => s2.islWrite k 7 0 pgFLT 0 (leBytes 4 q.queue ++ leBytes 4 q.tag ++ leBytes 4 q.index))

/-- RECOVERY_TIMEOUT (R456): no answer within 2 ms; the module is reset. -/
def execRecoveryTimeout (i : Island) (s : State) : Result :=
  let k := islIdx i
  .next (match (s.island k).queries with
    | [] => s
    | _ :: rest => (s.modIsl k fun v => { v with queries := rest }).wantModule k 1)

/-- ENGINE_RESET_TIMEOUT (R456): the page whose block reset the island asked for is not ready within 10 ms; the module is reset. -/
def execEngineResetTimeout (i : Island) (s : State) : Result :=
  let k := islIdx i
  .next (if (s.island k).engine.isSome then (s.modIsl k fun v => { v with engine := none }).wantModule k 1 else s)

/-! ### Plans and frames (R455, R457 to R462) -/

/-- A result becomes what the island acts on (R457, R459, R460, R462): a valid one is kept; a plan frame goes out unless the slot
is withdrawn, a timer is open after a dip-marked completion, or the slot is in fallback and stays there. -/
def State.planTake (s : State) (i : Nat) (m : PlanMsg) : State :=
  let valid := m.flags.testBit 0
  let s1 := if valid then
      s.modIsl i fun v => { v with kept := tabSet v.kept m.slot ⟨m.number, m.digest, m.stop, v.time⟩ }
    else s
  let v := s1.island i
  let mode := s1.get (F.ISL_SLOT_mode i m.slot)
  let dip := v.timers.any fun t => t.dip
  if mode = 3 ∨ !s1.routed m.slot then s1
  else if mode = 2 then
    (if valid ∧ !dip ∧ !(v.timers.any fun t => t.dirty) then (s1.fallbackEnd i m.slot).planFrame i m.slot false else s1)
  else
    let s2 := s1.put (F.ISL_SLOT_mode i m.slot) 1
    if dip ∨ !(valid || m.flags.testBit 1) then s2 else s2.planFrame i m.slot (m.flags.testBit 1)

/-- Does a slot's result wait for the twin (R457, R459)? -/
def State.planWaits (s : State) (m : PlanMsg) : Bool :=
  decide (m.index ≠ 0) && s.twinPair && decide (1 ≤ s.get F.XGS_TWIN_STATE_state ∧ s.get F.XGS_TWIN_STATE_state ≤ 3)

/-- RESULT_MESSAGE (R455, R457, R459): the oldest result message to the island; a twin slot's digest goes out on the cross line
(R425), and its plan waits for the agreement. -/
def execResultMessage (i : Island) (s : State) : Result :=
  let k := islIdx i
  .next (match tabGet s.planMsgs k [] with
    | [] => s
    | m :: rest =>
      let s1 := { s with planMsgs := tabSet s.planMsgs k rest }
      if !s1.islUp k then s1
      else
        let s2 := s1.modIsl k fun v => { v with lastRes := tabSet v.lastRes m.slot v.time }
        let s3 := s2.put (F.ISL_SLOT_kept_run k m.slot)
          (if m.flags.testBit 1 then min 3 (s2.get (F.ISL_SLOT_kept_run k m.slot) + 1) else 0)
        let s4 := if m.index ≠ 0 then s3.emit .twinLine [k, m.slot, m.index] (leBytes 8 m.digest) else s3
        if s4.planWaits m ∧ tabGet s4.twin.agreed m.slot 0 ≠ m.index then
          s4.modIsl k fun v => { v with waits := v.waits ++ [⟨m.index, m⟩] }
        else s4.planTake k m)

/-- FALLBACK_FRAME (R460). -/
def execFallbackFrame (i : Island) (slot : Fin 64) (s : State) : Result :=
  let k := islIdx i
  .next (if s.islUp k ∧ s.get (F.ISL_SLOT_mode k slot) = 2 then s.fallbackFrame k slot else s)

/-- STATUS_FRAME (R459). -/
def execStatusFrame (i : Island) (s : State) : Result := .next (if s.islUp (islIdx i) then s.statusFrame (islIdx i) else s)

/-! ### Die resets (R446, R465) -/

/-- Times of the resets of a die within the last 60 s. -/
def IslSt.recent (v : IslSt) (d : Nat) : List Nat := (tabGet v.dieTimes d []).filter fun t => decide (v.time < t + 60000000)

/-- The field that counts the resets of a die. -/
def dieResetField (i d : Nat) : Fld :=
  match d with
  | 0 => F.ISL_DIE_RESETS_c0 i
  | 1 => F.ISL_DIE_RESETS_c1 i
  | 2 => F.ISL_DIE_RESETS_c2 i
  | _ => F.ISL_DIE_RESETS_c3 i

/-- A die fenced for good by both islands (R446). -/
def State.fenceForGood (s : State) (d : Nat) : State :=
  s.islandsUp.foldl (fun s i => (s.tapFence i d).islWrite i 4 0 (pgCD d) 5 []) s

/-- DIE_RESET (R446, R447, R465): a die reset that the island decided on, for both islands; the third within 60 s fences the die
for good. A module reset decided on overrides it. A rail of the die that had left regulation counts as back (assumption 51). -/
def execDieReset (i : Island) (d : Fin 4) (s : State) : Result :=
  let k := islIdx i
  .next (if !(s.island k).dieDue.contains d.val then s
    else
      let s1 := (s.modIsl 0 fun v => { v with dieDue := setDel v.dieDue d }).modIsl 1 fun v => { v with dieDue := setDel v.dieDue d }
      if s1.cdState d = 0 ∨ s1.cdState d = 1 ∨ s1.cdState d = 2 ∨ (s1.island 0).modDue ≠ [] ∨ (s1.island 1).modDue ≠ [] then s1
      else if 2 ≤ ((s1.island k).recent d).length then s1.fenceForGood d
      else
        let s2 := s1.islandsUp.foldl
          (fun s j => ((s.modIsl j fun v => { v with dieTimes := tabSet v.dieTimes d (v.recent d ++ [v.time]) }).satInc
            (dieResetField j d)).islWrite j 4 0 (pgCD d) 4 []) s1
        let s3 := ((s2.tapStop k d).tapFence k d).dieReset d
        { s3 with pwr := { s3.pwr with badRails := setDel s3.pwr.badRails d } })

/-- Logical number of an enabled physical array. -/
def State.logicalOf (s : State) (d p : Nat) : Option Nat := (enabledPhys (tabGet s.unitMaps d 0)).findIdx? fun x => decide (x = p)

/-- The capability that a failing part withdraws (R477): a bit of ARR_CAP_DISABLE, or none for retirement. -/
def partCap (part : Nat) : Option Nat := if part = 6 then some 1 else if part = 7 then some 2 else if part = 8 then some 4 else none

/-- STEST_LAST_FAIL and the event of a failed part (R484). -/
def State.testFailed (s : State) (d a part action : Nat) : State :=
  (((((s.put F.STEST_LAST_FAIL_die d).put F.STEST_LAST_FAIL_array a).put F.STEST_LAST_FAIL_part part).put
    F.STEST_LAST_FAIL_action action).put F.STEST_LAST_FAIL_valid 1).raise pgSTEST Ev.STEST_test_fail

/-- A failed part judged on physical array `p`, logical `a`, of a die: a capability withdrawn, or the array retired; the islands
enter it in the repair table (R449, R484). -/
def State.partFailed (s : State) (d a p part : Nat) : State :=
  let n := 24 * d + a
  match partCap part with
  | some c =>
    let s1 := (s.putWord (pgARR n) 0x100 (s.regWord (pgARR n) 0x100 ||| BitVec.ofNat 32 c)).capsShow n
    (s1.enterCaps d p c).testFailed d a part 2
  | none =>
    (((s.put (F.ARR_STATE_state n) 5).setService n false).enterRetired d p).testFailed d a part 1

/-- DIE_SELF_TEST_DONE (R465 step 3, R475, R484, R485): every array that the repair table does not retire has run a test pass;
failures are entered, a suspect array that passed is so no longer, and HB rediscovers the die's port (R24); not after a mismatch, which
holds the die in reset (R20). -/
def execDieSelfTestDone (d : Fin 4) (failures : List (Fin 26 × Fin 12)) (s : State) : Result :=
  .next (if s.cdState d ≠ 1 ∨ s.disc.mismatch then s
    else
      let s1 := (List.range 24).foldl (fun s a => s.modArr (24 * d.val + a) fun x => { x with suspect := false }) s
      let s2 := failures.foldl
        (fun s f =>
          match s.logicalOf d f.1 with
          | some a => if a < s.fuse.perDie ∧ !(s.retiredMap d).testBit f.1 then s.partFailed d a f.1 f.2 else s
          | none => s) s1
      let s3 := (s2.setCdState d 2)
      { s3 with disc := { s3.disc with tries := tabDel s3.disc.tries d.val } }.discFlit d)

end Sys2Proof.Machine
end

