-- ==== Sys2Proof/Machine/Twin.lean ====
section
/-! DEFINITION. The twin pair's commands (R425 to R429, R457, R459, R463). -/

namespace Sys2Proof.Machine

/-- Twin slots that PLAN_ISLAND routes to the islands. -/
def State.twinSlots (s : State) : List Nat := s.routedSlots.filter fun k => s.twinSlot k

/-- The key of an island's cross-line digest: island and slot. -/
def lineKey (i slot : Nat) : Nat := 64 * i + slot

/-- A digest that one path brought differs from the copy of the other path (R425). -/
def State.pathsDiffer (s : State) (a b : Option (Nat × Nat)) : State :=
  match a, b with
  | some x, some y => s.raiseIf (decide (x.1 = y.1 ∧ x.2 ≠ y.2)) pgXGS Ev.XGS_twin_path
  | _, _ => s

/-- The first copy of the twin's digest taken: it waits for this module's own result, and is checked against what the islands'
lines brought. -/
def State.twinTake (s : State) (r : TwinRes) : State :=
  let c := some (r.index, r.digest)
  let s1 := { s with twin := { s.twin with
      theirs := s.twin.theirs ++ [r]
      taken := tabSet s.twin.taken r.slot (r.index, r.digest) } }
  (s1.pathsDiffer c (tabFind s1.twin.lines (lineKey 0 r.slot))).pathsDiffer c (tabFind s1.twin.lines (lineKey 1 r.slot))

/-- TWIN_DIGEST (R425, R328): the first copy is a publication of code 0x09, the second is discarded; in replay digests from the
link are ignored and counted. -/
def execTwinDigest (l : Fin 8) (f : XFrame) (s : State) : Result :=
  .next (s.xReceive l.val f 11 fun s ws =>
    let b := (ws.getD 0 ([], false)).1
    let slot := fieldAt b 0 4 % 64
    let flags := fieldAt b 4 4
    let index := fieldAt b 8 4
    let number := fieldAt b 0xC 4
    let digest := fieldAt b 0x10 8
    if s.replaying then s.count F.JRN_IGNORED_count 1
    else if !s.twinPair ∨ ws.any (·.2) then s
    else if (match tabFind s.twin.taken slot with
        | some t => decide (index ≤ t.1)
        | none => false) then s
    else (s.publish 0x09 0 slot number 0 digest).twinTake ⟨slot, index, number, flags, digest, twinBadFlags flags⟩)

/-- TWIN_CONTROL (R426, R427): the twin restarts the pairing indices, or tells of its local fault. -/
def execTwinControl (l : Fin 8) (f : XFrame) (s : State) : Result :=
  .next (s.xReceive l.val f 12 fun s ws =>
    let b := (ws.getD 0 ([], false)).1
    match fieldAt b 0 4 with
    | 1 => s.twinRestart
    | 2 => { s with twin := { s.twin with told := s.twin.told ++ [(fieldAt b 4 4 % 64, fieldAt b 8 4)] } }
    | _ => s)

/-- TWIN_RESTART (R426): XGS_CTRL.twin_restart restarts the indices on both modules. -/
def execTwinRestart (acc : Acc) (s : State) : Result := .next (s.command pgXGS 0x020 acc State.xgsCtrl)

/-- The result of a slot and pairing index taken from an island's list of those that wait. -/
def State.popWait (s : State) (i slot index : Nat) : State × Option PlanMsg :=
  let v := s.island i
  match v.waits.find? fun w => decide (w.msg.slot = slot ∧ w.index = index) with
  | none => (s, none)
  | some w => (s.modIsl i fun v => { v with waits := v.waits.filter fun x => !decide (x.msg.slot = slot ∧ x.index ≤ index) }, some w.msg)

/-- Plan streams that a withdrawal stopped are emitted again (R428). -/
def State.streamsBack (s : State) : State :=
  let s1 := [0, 1].foldl
    (fun s i => (List.range 64).foldl
      (fun s k => if s.get (F.ISL_SLOT_mode i k) = 3 then s.put (F.ISL_SLOT_mode i k) 1 else s) s) s
  { s1 with twin := { s1.twin with withdrawn := false } }

/-- The module's plan streams of the twin slots withdrawn (R428). -/
def State.streamsOut (s : State) : State :=
  let s1 := s.islandsUp.foldl
    (fun s i => (s.twinSlots.foldl (fun s k => s.put (F.ISL_SLOT_mode i k) 3) s).fallbackShow i) s
  { s1 with twin := { s1.twin with withdrawn := true } }

/-- What the islands emit of a result of the pair: it becomes what they hold and goes out. -/
def State.pairEmit (s : State) (slot index : Nat) : State :=
  s.islandsUp.foldl
    (fun s i =>
      let p := s.popWait i slot index
      match p.2 with
      | some m => p.1.planTake i m
      | none => p.1) s

/-- The result dropped where it waits. -/
def State.pairDrop (s : State) (slot index : Nat) : State := s.islandsUp.foldl (fun s i => (s.popWait i slot index).1) s

/-- The outcome of a comparison in the islands' records (R442, kind 6): slot, index, outcome. -/
def twinDetail (slot index outcome : Nat) : List Byte := leBytes 4 slot ++ leBytes 4 index ++ leBytes 4 outcome

/-- An agreement (R426, R428). -/
def State.twinAgree (s : State) (slot index : Nat) : State :=
  let s1 := ((((s.count F.XGS_TWIN_AGREE_count 1).put F.XGS_TWIN_LAST_SLOT_slot slot).put F.XGS_TWIN_LAST_INDEX_index index).put
    F.XGS_TWIN_STATE_state 1)
  let s2 := (List.range 4).foldl (fun s d => s.put (F.XGS_TWIN_ARRAYS_used d) 0) s1
  let s3 := { s2 with twin := { s2.twin with
      jobFault := false
      islFault := false
      absent := 0
      agreed := tabSet s2.twin.agreed slot index } }
  ((if s3.twin.withdrawn then s3.streamsBack else s3).bothWrite 6 0 0xFF 0 (twinDetail slot index 0)).pairEmit slot index

/-- Neither module is to blame, or both are: hold, and at the next mismatch testing, which firmware starts by a targeted test; the
fallback of the last agreed plan is held (R428). -/
def State.twinHold (s : State) (slot index : Nat) : State :=
  let s1 := s.pairDrop slot index
  let s2 := if s1.get F.XGS_TWIN_STATE_state = 2 ∨ s1.get F.XGS_TWIN_STATE_state = 3 then
      s1.put F.XGS_TWIN_STATE_state 3
    else s1.put F.XGS_TWIN_STATE_state 2
  s2.islandsUp.foldl (fun s i => s.twinSlots.foldl (fun s k => s.fallbackStart i k) s) s2

/-- A mismatch (R427, R428): the flagged module withdraws its stream, the other continues; otherwise the pair holds. -/
def State.twinMismatch (s : State) (slot index : Nat) (mine yours : Bool) : State :=
  let s1 := ((s.satInc F.XGS_TWIN_STATE_mismatches).raise pgXGS Ev.XGS_twin_mismatch).bothWrite 6 0 0xFF 0
    (twinDetail slot index (1 + bitAt mine 0 + bitAt yours 1))
  if mine ∧ !yours then (s1.pairDrop slot index).streamsOut
  else if yours ∧ !mine then s1.pairEmit slot index
  else s1.twinHold slot index

/-- TWIN_COMPARE (R426, R428): both digests of a slot and index are present. -/
def execTwinCompare (slot : Fin 64) (index : Word) (s : State) : Result :=
  let k := slot.val
  let n := index.toNat
  let here := fun (r : TwinRes) => decide (r.slot = k ∧ r.index = n)
  .next (match s.twin.own.find? here, s.twin.theirs.find? here with
    | some a, some b =>
      let told := s.twin.told.contains (k, n)
      let s1 := { s with twin := { s.twin with
          own := s.twin.own.filter fun r => !decide (r.slot = k ∧ r.index ≤ n)
          theirs := s.twin.theirs.filter fun r => !decide (r.slot = k ∧ r.index ≤ n)
          told := s.twin.told.filter fun p => decide (p ≠ (k, n))
          absent := 0 } }
      if a.digest = b.digest then s1.twinAgree k n else s1.twinMismatch k n a.fault (b.fault || told)
    | _, _ => s)

/-- TWIN_ABSENT (R429, R463): the twin's digest of the slot's oldest waiting result has not come within XGS_TWIN_WAIT; the third in
a row leaves this module alone. What was withdrawn falls back. -/
def execTwinAbsent (slot : Fin 64) (s : State) : Result :=
  let k := slot.val
  .next (match s.twin.own.find? fun r => decide (r.slot = k) with
    | none => s
    | some r =>
      if s.twin.theirs.any fun t => decide (t.slot = k ∧ t.index = r.index) then s
      else
        let s1 : State := { s.raise pgXGS Ev.XGS_twin_absent with twin := { s.twin with
            own := s.twin.own.erase r
            absent := s.twin.absent + 1 } }
        let alone := decide (3 ≤ s1.twin.absent)
        let s2 := if alone then s1.put F.XGS_TWIN_STATE_state 0 else s1
        let s3 := s2.bothWrite 6 0 0xFF 0 (twinDetail k r.index 4)
        let s4 := if alone then s3.pairEmit k r.index else s3.pairDrop k r.index
        s4.islandsUp.foldl (fun s i => if s.get (F.ISL_SLOT_mode i k) = 3 then s.fallbackStart i k else s) s4)

/-- ISLAND_TWIN_DIGEST (R425): the twin's digest over the cross lines, against the copy that Xagus brought. -/
def execIslandTwinDigest (i : Island) (slot : Fin 64) (index : Word) (digest : DWord) (s : State) : Result :=
  .next (if !s.islUp (islIdx i) then s
    else
      let c := (index.toNat, digest.toNat)
      let s1 := { s with twin := { s.twin with lines := tabSet s.twin.lines (lineKey (islIdx i) slot) c } }
      s1.pathsDiffer (some c) (tabFind s1.twin.taken slot))

end Sys2Proof.Machine
end

