-- ==== Sys2Proof/Machine/SelfTest.lean ====
section
/-! DEFINITION. The commands of 15_self_test_and_degradation, with the placement of jobs, which reclaims arrays under test
(R110, R348, R354, R481). -/

namespace Sys2Proof.Machine

/-! ### Windows (R478 to R480) -/

/-- The arrays that may take the next slice, in the order of R478; retired ones never. -/
def State.sliceOrder (s : State) (d : Nat) : List Nat :=
  let v := s.stDie d
  let live := fun (a : Nat) => decide (a < s.fuse.perDie ∧ s.get (F.ARR_STATE_state (24 * d + a)) ≠ 5)
  let serving := if s.flag F.STEST_CTRL_enable then s.servingOn d else []
  let after := match v.last with
    | some l => (serving.filter fun a => decide (l < a)) ++ serving.filter fun a => decide (a ≤ l)
    | none => serving
  (((List.range 24).filter fun a => (s.arr (24 * d + a)).suspect) ++ (v.aborted.filter fun a => s.inService (24 * d + a))
    ++ v.targets ++ after).filter live

/-- A window opened on an idle array; the rotation moves on where its turn it was. -/
def State.windowOpen (s : State) (d a : Nat) : State :=
  let v := s.stDie d
  let turn := !(s.arr (24 * d + a)).suspect && !v.aborted.contains a && !v.targets.contains a
  (s.setStDie d { v with
    win := some a
    chosen := none
    last := if turn then some a else v.last
    ran := 0
    noMore := false }).put (F.ARR_STATE_state (24 * d + a)) 3

/-- A window closed (R480): line buffers hold coded zeros, sequencer state is cleared, the program store is empty; the array is
idle again unless retired or still suspect. -/
def State.windowClose (s : State) (d a : Nat) : State :=
  let n := 24 * d + a
  let v := s.stDie d
  let s1 := (s.setStDie d { v with win := none }).modArr n fun x => { nextId := x.nextId, suspect := x.suspect }
  if s1.get (F.ARR_STATE_state n) = 3 then s1.put (F.ARR_STATE_state n) (if (s1.arr n).suspect then 4 else 0) else s1

/-- STEST_ENABLE's check (R497): does STEST_PROG_BASE hold the test content that was accepted, with the digest that the
measurement holds? -/
def State.testImageOk (s : State) : Bool :=
  let a := s.addr F.STEST_PROG_BASE_LO_base
  let h := s.bytes a 128
  let m := tabGet s.sec.meas 7 []
  (m != []) && h.take 4 == [0x56#8, 0x49#8, 0x4D#8, 0x31#8] && fieldAt h 4 2 == 4
    && bytesAt h 0x40 64 == m && sha3_512 (s.bytes (a + 0x2000) (fieldAt h 0x18 4)) == m

/-- STEST_STATUS.state follows what runs. -/
def State.testShow (s : State) : State :=
  s.put F.STEST_STATUS_state (if s.flag F.STEST_TARGET_CMD_busy then 2 else if s.flag F.STEST_CTRL_enable then 1 else 0)

/-- STEST_ENABLE (R497): the rotation of every die turned on or off. -/
def execStestEnable (acc : Acc) (s : State) : Result :=
  .next (s.command pgSTEST 0x020 acc fun s w =>
    if w.getLsbD 0 then (if s.testImageOk then (s.put F.STEST_CTRL_enable 1).testShow else s)
    else (s.put F.STEST_CTRL_enable 0).testShow)

/-- SLICE_START (R478, R479): a slice is due on a die in run with no window open; the array first in order is chosen, and its
window opens where it is idle. -/
def execSliceStart (d : Fin 4) (s : State) : Result :=
  .next (match (s.stDie d).win, (s.stDie d).chosen, s.sliceOrder d with
    | none, none, a :: _ =>
      if s.cdState d ≠ 3 ∨ !s.powered then s
      else if s.arrIdle (24 * d.val + a) then s.windowOpen d a
      else s.setStDie d { s.stDie d with chosen := some a }
    | _, _, _ => s)

/-- WINDOW_OPEN (R479): the chosen array has become idle. -/
def execWindowOpen (d : Fin 4) (s : State) : Result :=
  .next (match (s.stDie d).chosen with
    | some a => if s.cdState d = 3 ∧ s.arrIdle (24 * d.val + a) then s.windowOpen d a else s
    | none => s)

/-- DRAIN_TIMEOUT (R479): the chosen array still runs; the slice is skipped, the array keeps its turn. -/
def execDrainTimeout (d : Fin 4) (s : State) : Result :=
  .next (match (s.stDie d).chosen with
    | some a =>
      if s.arrIdle (24 * d.val + a) then s
      else ((s.setStDie d { s.stDie d with chosen := none }).count F.STEST_SKIPS_count 1).raise pgSTEST Ev.STEST_drain_timeout
    | none => s)

/-! ### Parts and passes (R477, R483, R484, R487, R428) -/

/-- STEST_STATUS.coverage: dies with an array whose age has passed the limit. -/
def State.coverageShow (s : State) : State :=
  s.put F.STEST_STATUS_coverage (((List.range 4).map fun d => bitAt (decide ((s.stDie d).late ≠ [])) d).sum)

/-- A targeted test with nothing left to test ends. In a twin pair that tests, no failure here leaves the agreement lost (R428). -/
def State.targetsDone (s : State) : State :=
  if !s.flag F.STEST_TARGET_CMD_busy ∨ (List.range 4).any (fun d => decide ((s.stDie d).targets ≠ [])) then s
  else
    let s1 := ((s.put F.STEST_TARGET_CMD_busy 0).testShow).raise pgSTEST Ev.STEST_target_done
    if s1.get F.XGS_TWIN_STATE_state = 3 ∧ (List.range 4).all (fun d => s1.get (F.STEST_TARGET_FAIL_failed d) == 0) then
      ((s1.put F.XGS_TWIN_STATE_state 4).raise pgXGS Ev.XGS_lost_agreement).bothWrite 6 0 0xFF 0 (twinDetail 0 0 5)
    else s1

/-- A targeted array that failed: shown; in a twin pair that tests, its die is to be reset and the module's stream is withdrawn
(R428). -/
def State.targetFailed (s : State) (d a : Nat) : State :=
  if !(s.stDie d).targets.contains a then s
  else
    let s1 := s.put (F.STEST_TARGET_FAIL_failed d) (s.get (F.STEST_TARGET_FAIL_failed d) ||| 2 ^ a)
    if s1.get F.XGS_TWIN_STATE_state = 3 then (s1.allWantDie d).streamsOut else s1

/-- An array's pass complete (R475, R487): counted, reported to the islands; a suspect array returns to service. -/
def State.passDone (s : State) (d a : Nat) : State :=
  let n := 24 * d + a
  let v := s.stDie d
  let s1 := (((s.setStDie d { v with
      parts := tabDel v.parts a
      aborted := setDel v.aborted a
      targets := setDel v.targets a
      passed := tabSet v.passed a s.hubUs
      late := setDel v.late a }).modArr n fun x => { x with suspect := false }).count F.STEST_PASSES_count 1).raise pgSTEST
    Ev.STEST_pass_done
  let s2 := s1.islandsUp.foldl (fun s i => s.modIsl i fun v => { v with ages := tabSet v.ages n v.time }) s1
  (s2.windowClose d a).setService n (s2.shouldServe d a) |>.coverageShow

/-- The physical array behind a logical one. -/
def State.physOf (s : State) (n : Nat) : Nat := s.get (F.ARR_STATE_phys n)

/-- PART_DONE (R477, R480, R483, R484, R487): the part under way on a die's window ends. One that a dip overlapped is not judged
and runs again; a failed one withdraws a capability or retires the array. The window closes after the last part of the pass, or
when no further part fits or may start. -/
def execPartDone (d : Fin 4) (pass : Bool) (overlapsDip : Bool) (s : State) : Result :=
  .next (match (s.stDie d).win with
    | none => s
    | some a =>
      let v := s.stDie d
      let part := tabGet v.parts a 0
      let s1 := s.setStDie d { v with
        ran := v.ran + 1
        parts := if overlapsDip then v.parts else tabSet v.parts a (part + 1) }
      let s2 := if pass ∨ overlapsDip then s1 else (s1.targetFailed d a).partFailed d a (s1.physOf (24 * d.val + a)) part
      if s2.get (F.ARR_STATE_state (24 * d.val + a)) = 5 then
        let w := s2.stDie d
        ((s2.setStDie d { w with
            parts := tabDel w.parts a
            aborted := setDel w.aborted a
            targets := setDel w.targets a
            late := setDel w.late a }).windowClose d a).coverageShow.targetsDone
      else if !overlapsDip ∧ part = 11 then (s2.passDone d a).targetsDone
      else if v.noMore ∨ sliceParts (s2.get (F.PWR_CLK_array d)) ≤ v.ran + 1 then s2.windowClose d a
      else s2)

/-- COVERAGE (R487): an array in service whose last completed pass lies further back than twice the interval. -/
def execCoverage (d : Fin 4) (a : Fin 24) (ageMs : Nat) (s : State) : Result :=
  let n := 24 * d.val + a.val
  .next (if !s.inService n ∨ ageMs ≤ 2 * s.get F.STEST_INTERVAL_ms then s
    else
      let v := s.stDie d
      (((s.setStDie d { v with late := setAdd v.late a }).coverageShow).raise pgSTEST Ev.STEST_coverage).bothWarn 7 (pgARR n) 0
        (leBytes 4 ageMs))

/-! ### Targeted tests (R488) -/

/-- May every array that a bit map of die `d` names be tested: enabled and not retired? -/
def State.targetsOk (s : State) (d m : Nat) : Bool :=
  (List.range 24).all fun a => !m.testBit a
    || (decide (a < s.fuse.perDie) && s.cdState d != 0 && s.get (F.ARR_STATE_state (24 * d + a)) != 5)

/-- TARGETED_TEST (R488): the arrays of STEST_TARGET0 to STEST_TARGET3 are to run one full pass each. -/
def execTargetedTest (acc : Acc) (s : State) : Result :=
  .next (s.command pgSTEST 0x060 acc fun s w =>
    if !w.getLsbD 31 then s
    else
      let m := fun (d : Nat) => s.get (F.STEST_TARGET_arrays d)
      if s.flag F.STEST_TARGET_CMD_busy ∨ !(List.range 4).all (fun d => s.targetsOk d (m d)) then s.put F.STEST_TARGET_CMD_refused 1
      else
        let s1 := (List.range 4).foldl
          (fun s d =>
            let v := s.stDie d
            let l := (List.range 24).filter fun a => (m d).testBit a
            (s.put (F.STEST_TARGET_FAIL_failed d) 0).setStDie d { v with
              targets := l
              parts := v.parts.filter fun p => !l.contains p.1 || decide (v.win = some p.1) }) s
        (((s1.put F.STEST_TARGET_CMD_refused 0).put F.STEST_TARGET_CMD_busy 1).testShow).targetsDone)

/-! ### Units taken out (R490 to R493) -/

/-- ARRAY_OUT (R490): an array in service leaves it once its current slot ends; the last one of a die does not. -/
def execArrayOut (acc : Acc) (s : State) : Result :=
  .next (s.command pgSTEST 0x080 acc fun s w =>
    if !w.getLsbD 31 ∨ F.STEST_ARRAY_CMD_op.ext w ≠ 1 then s
    else
      let d := F.STEST_ARRAY_CMD_die.ext w
      let a := F.STEST_ARRAY_CMD_array.ext w
      let n := 24 * d + a
      let v := s.stDie d
      let rest := (s.servingOn d).filter fun b => decide (b ≠ a) && !v.outReq.contains b
      if 24 ≤ a ∨ !s.inService n ∨ rest = [] then s.put F.STEST_ARRAY_CMD_refused 1
      else
        let s1 := (s.put F.STEST_ARRAY_CMD_refused 0).setStDie d { v with outReq := setAdd v.outReq a }
        if s1.flag (F.ARR_JOB_QUEUE_valid n) ∨ s1.arrGiven n then s1 else s1.slotLeft n)

/-- ARRAY_RETURN (R490): an array that firmware took out returns, unless retired or suspect. -/
def execArrayReturn (acc : Acc) (s : State) : Result :=
  .next (s.command pgSTEST 0x080 acc fun s w =>
    if !w.getLsbD 31 ∨ F.STEST_ARRAY_CMD_op.ext w ≠ 2 then s
    else
      let d := F.STEST_ARRAY_CMD_die.ext w
      let a := F.STEST_ARRAY_CMD_array.ext w
      let n := 24 * d + a
      let out := s.get (F.STEST_ARRAY_OUT_out d)
      if 24 ≤ a ∨ !out.testBit a ∨ (s.arr n).suspect ∨ s.get (F.ARR_STATE_state n) = 5 then s.put F.STEST_ARRAY_CMD_refused 1
      else
        let s1 := (s.put F.STEST_ARRAY_CMD_refused 0).put (F.STEST_ARRAY_OUT_out d) (out - 2 ^ a)
        s1.setService n (s1.shouldServe d a))

/-- DIE_OUT (R491): placement on the die stops; once no slot runs there the islands are asked to fence it. -/
def execDieOut (acc : Acc) (s : State) : Result :=
  .next (s.command pgSTEST 0x0A0 acc fun s w =>
    if !w.getLsbD 31 ∨ F.STEST_DIE_CMD_op.ext w ≠ 1 then s
    else
      let d := F.STEST_DIE_CMD_die.ext w
      if s.cdState d ≠ 3 ∨ (List.range 4).all (fun e => e == d || s.cdState e != 3) then s.put F.STEST_DIE_CMD_refused 1
      else
        let s1 := ((s.put F.STEST_DIE_CMD_refused 0).setStDie d { s.stDie d with dieOut := true }).serviceShow d
        if s1.dieBusy d then s1 else s1.emit .islandMessage [2, d] [])

/-- The spill area that STEST_SPILL_BASE names for a stack, if it is valid: 256 MiB in usable DRAM (R492). -/
def State.spillBase (s : State) (n : Nat) : Option Nat :=
  let a := s.addr (F.STEST_SPILL_BASE_LO_base n) / 0x10000000 * 0x10000000
  if s.flag (F.STEST_SPILL_BASE_LO_valid n) && decide (dramBase ≤ a ∧ a + 0x10000000 ≤ dramBase + dramUsable) then some a else none

/-- A spill or return requested (R492): refused while one is under way, or the die is not in run, or the area is not valid, or the
stack is already where it is asked to go. -/
def State.stackMove (s : State) (acc : Acc) (op : Nat) : State :=
  s.command pgSTEST 0x0A4 acc fun s w =>
    if !w.getLsbD 31 ∨ F.STEST_STACK_CMD_op.ext w ≠ op then s
    else
      let n := F.STEST_STACK_CMD_stack.ext w
      let now := tabFind s.spilled n
      let base := if op = 1 then s.spillBase n else now
      match base with
      | some b =>
        if s.stest.copy.isSome ∨ s.cdState n ≠ 3 ∨ (op = 1 ∧ now.isSome) then s.put F.STEST_STACK_STATE_refused 1
        else
          { ((s.put F.STEST_STACK_STATE_refused 0).put F.STEST_STACK_STATE_copying 1).put F.STEST_STACK_STATE_progress 0 with
            stest := { s.stest with copy := some (n, decide (op = 2), b) } }
      | none => s.put F.STEST_STACK_STATE_refused 1

/-- SPILL (R492). -/
def execSpill (acc : Acc) (s : State) : Result := .next (s.stackMove acc 1)

/-- STACK_RETURN (R492). -/
def execStackReturn (acc : Acc) (s : State) : Result := .next (s.stackMove acc 2)

/-- 256 MiB of device memory copied, each word with its condition; an uncorrectable word is written poisoned. -/
def State.stackCopy (s : State) (src dst : Nat) : State :=
  let z := s.zeroAt dst 0x10000000
  let inSrc := fun (a : Nat) => decide (src ≤ a ∧ a < src + 0x10000000)
  { z with
    mem := s.mem.foldl (fun m c => if inSrc c.1 then cellSet m (c.1 - src + dst) c.2 else m) z.mem
    cond := s.cond.foldl
      (fun t c => if inSrc (c.1 * 32) ∧ c.2.bad then tabSet t (c.1 - src / 32 + dst / 32) .poison else t) z.cond }

/-- STACK_COPY_DONE (R141, R492): the copy has ended; the stack's window is served from its spill area, or by the stack again. -/
def execStackCopyDone (s : State) : Result :=
  .next (match s.stest.copy with
    | none => s
    | some (n, back, b) =>
      let s1 := if back then s.stackCopy b (stackBase n) else s.stackCopy (stackBase n) b
      let s2 := { s1 with
        spilled := if back then tabDel s1.spilled n else tabSet s1.spilled n b
        stest := { s1.stest with copy := none } }
      let s3 := ((s2.put F.STEST_STACK_STATE_copying 0).put F.STEST_STACK_STATE_progress (if back then 0 else 0x100000)).put
        F.STEST_STACK_STATE_spilled ((s2.spilled.map fun e => 2 ^ e.1).sum)
      (s3.put (F.ST_STATUS_in_service n) (if back then 1 else 0)).raiseIf (!back) pgSTEST Ev.STEST_stack_spilled)

/-- ISLAND_TEST (R493): the named island is reset by the other and runs its boot self-test. -/
def execIslandTest (acc : Acc) (s : State) : Result :=
  .next (s.command pgSTEST 0x0AC acc fun s w =>
    if !w.getLsbD 31 then s
    else
      let k := peerOf (F.STEST_ISLAND_CMD_island.ext w)
      if s.get (F.ISL_STATE_state 0) ≠ 2 ∨ s.get (F.ISL_STATE_state 1) ≠ 2 ∨ s.anyFallback ∨ (s.island 0).testing
          ∨ (s.island 1).testing then s.put F.STEST_ISLAND_CMD_refused 1
      else
        ((((s.put F.STEST_ISLAND_CMD_refused 0).modIsl k fun v => { v with testing := true }).put (F.ISL_STATE_peer_ok k) 0).reduced k
          true).peerReset k)

/-! ### The repair clear (R486) -/

/-- The entry that STEST_REPAIR_CLEAR names: whether it exists, where it lies, what stands there once it is removed. -/
def State.repairEntry (s : State) : Option (Nat × List Byte) :=
  let d := s.get F.STEST_REPAIR_CLEAR_die
  let p := s.get F.STEST_REPAIR_CLEAR_phys
  let u := s.get F.STEST_REPAIR_CLEAR_unit
  let old := fun (off n : Nat) => s.repairAt (if s.islUp 0 then 0 else 1) off n
  match s.get F.STEST_REPAIR_CLEAR_kind with
  | 1 => if (s.retiredMap d).testBit p then some (0x2110 + 4 * d, leBytes 4 (s.retiredMap d - 2 ^ p)) else none
  | 2 => if p < 26 ∧ s.capRepair d p ≠ 0 then some (0x2120 + 26 * d + p, [0#8]) else none
  | 3 => if (leNat (old 0 4)).testBit 31 then some (0, leBytes 4 0) else none
  | 4 => if u < 8 ∧ leNat (old (0x2100 + u) 1) ≠ 0 then some (0x2100 + u, [0#8]) else none
  | 5 => if (old (0x100 + 256 * u) 256).any (· != 0#8) then some (0x100 + 256 * u, leBytes 256 0) else none
  | _ => none

/-- REPAIR_CLEAR (R486): a named entry leaves the repair table of both islands; the unit stays as it is until its next reset. -/
def execRepairClear (acc : Acc) (s : State) : Result :=
  .next (s.command pgSTEST 0x110 acc fun s w =>
    if !w.getLsbD 31 then s
    else
      match s.repairEntry with
      | some (off, bs) =>
        if !(s.get F.SEC_DEBUG_STATE_scope).testBit 5 ∨ !s.islUp 0 ∨ !s.islUp 1 then s.put F.STEST_REPAIR_CLEAR_refused 1
        else ((s.put F.STEST_REPAIR_CLEAR_refused 0).repairPut off bs).bothWarn 4 pgSTEST 10 (leBytes 4 off)
      | none => s.put F.STEST_REPAIR_CLEAR_refused 1)

/-! ### Placement (R92, R106, R110, R348, R350, R354, R473, R481) -/

/-- Does a released job wait for its engine: an array job for any of its slots? -/
def Job.waitsPlace (j : Job) : Bool :=
  j.stage == .released || (j.stage == .placed && j.isArray && j.slots.any fun k => decide (k.phase = 0))

/-- Rank among the jobs that wait for one kind of engine: safety_relevant, prio_high, the others, each in release order. -/
def Job.rank (j : Job) : Nat := (if j.safety then 0 else if j.prio then 1 else 2) * 2 ^ 64 + j.order

/-- Has an earlier job of the queue not started (R348)? The jobs stand in order of taking. -/
def State.queueHeld (s : State) (j : Job) : Bool :=
  (s.jobs.takeWhile fun k => !k.is j.queue j.index).any fun k =>
    decide (k.queue = j.queue) && (k.stage == .waiting || k.stage == .released)

/-- Do two jobs wait for the same kind of engine? -/
def Job.sameKind (a b : Job) : Bool := (a.isArray && b.isArray) || a.cls == b.cls

/-- Is it a job's turn to be placed (R348, R354)? KV jobs wait in reduced service (R517). -/
def State.placeTurn (s : State) (j : Job) : Bool :=
  j.waitsPlace && !s.queueHeld j && !(j.cls == 6 && s.get F.PWR_SERVICE_level == 1)
    && s.jobs.all fun k => !(k.waitsPlace && k.sameKind j && !s.queueHeld k && decide (k.rank < j.rank))

/-- The array's capabilities cover a program's caps. -/
def State.fits (s : State) (j : Job) (n : Nat) : Bool := s.capsCover (n / 24, n % 24) j.caps

/-- May an array take a slot: idle and in service on a die in run, no window waiting for it, not about to be taken out? -/
def State.arrOpen (s : State) (n : Nat) : Bool :=
  s.inService n && s.powered && s.cdState (n / 24) == 3 && s.get (F.ARR_STATE_state n) == 0 && s.arrIdle n
    && !s.flag (F.BLK_STATUS_in_reset (pgARR n))
    && (s.stDie (n / 24)).chosen != some (n % 24) && !(s.stDie (n / 24)).outReq.contains (n % 24)

/-- May a safety-relevant job reclaim the array of an open window (R481): no idle array of the die fits that it does not take? -/
def State.reclaimable (s : State) (j : Job) (ns : List Nat) (n : Nat) : Bool :=
  j.safety && s.inService n && (s.stDie (n / 24)).win == some (n % 24) && s.cdState (n / 24) == 3
    && (List.range 24).all fun a =>
      let m := 24 * (n / 24) + a
      !(s.arrOpen m && s.fits j m) || ns.contains m

/-- A window's slice aborted by a reclaim (R481): the part in progress is discarded, the pass goes on at it later. -/
def State.reclaim (s : State) (n : Nat) : State :=
  let d := n / 24
  let v := s.stDie d
  if v.win = some (n % 24) then
    (((s.setStDie d { v with aborted := setAdd v.aborted (n % 24) }).windowClose d (n % 24)).count F.STEST_ABORTS_count 1).raise
      pgSTEST Ev.STEST_reclaim
  else s

/-- Slots given to arrays, in the order of both. -/
def giveSlots : List SlotSt → List Nat → List SlotSt
  | k :: t, n :: ns =>
    if k.phase = 0 then { k with phase := 1, die := n / 24, logical := n % 24 } :: giveSlots t ns else k :: giveSlots t (n :: ns)
  | l, _ => l

/-- Slots of an array job given to arrays (R110, R117 step 1): all of a gang at once, with its reduction entries free. -/
def State.placeArrays (s : State) (j : Job) (ns : List Nat) : State :=
  let left := (j.slots.filter fun k => decide (k.phase = 0)).length
  let exact := j.exact || (j.stage == .released && s.flag F.DET_CTRL_force_exact)
  let j1 := { j with
    exact := exact
    dip := j.dip || s.dipOpen 4
    stage := .placed
    slots := giveSlots j.slots ns }
  let room := ns.all fun n => j.granted.contains (n / 24) || decide (j1.grantSize ≤ s.redFree (n / 24))
  if ns = [] ∨ left < ns.length ∨ !decide ns.Nodup ∨ s.get F.PWR_STATE_state ≠ 4 ∨ s.pwr.warming
      ∨ (j.gang ∧ (ns.length ≠ left ∨ !room))
      ∨ !ns.all (fun n => decide (n < 96) && s.fits j n && (s.arrOpen n || s.reclaimable j ns n)) then s
  else (ns.foldl State.reclaim s).setJob j1

/-- A job placed on its hub engine (R184, R241, R306, R356): the header of its command list is read; a list that is not sound
fails at command 0. A fusion job's request is read when its instant is taken. -/
def State.placeHub (s : State) (j : Job) : State :=
  let j1 := { j with
    stage := .placed
    dip := j.dip || s.dipOpen 4 }
  if j.cls = 3 then s.setJob j1
  else
    let r := s.load j.program 32
    if r.2.2 ∨ !listHeaderOk j.cls r.2.1 then (r.1.setJob j1).commandFailed j.queue j.index
    else (r.1.setJob { j1 with header := r.2.1 }).hubShow j.cls

/-- JOB_PLACE (R354 step 4): a released job is placed on its engine, an array job's next slots on the arrays named. -/
def execJobPlace (id : JobId) (arrays : List Arr) (s : State) : Result :=
  .next (match s.jobOf id with
    | none => s
    | some j =>
      if !s.placeTurn j then s
      else if j.isArray then s.placeArrays j (arrays.map arrNum)
      else s.placeHub j)

end Sys2Proof.Machine
end

