-- ==== Sys2Proof/Machine/Replay.lean ====
section
/-! DEFINITION. The records that JRN applies in replay (R325 to R330, R334, R545). -/

namespace Sys2Proof.Machine

/-- The replay has come to its end (R330). -/
def State.replayEnd (s : State) : State :=
  (((s.farmIdle.put F.JRN_STATUS_state 5).put F.JRN_STATUS_stop_cause 0).put F.ING_STATUS_replay 0).raise pgJRN Ev.JRN_replay_end

/-- Is a record well-formed: a kind of R317 or R320, positioned as its kind asks, its reserved flags 0? -/
def JRec.formed (r : JRec) : Bool :=
  let pos := r.flags.testBit 0
  decide (r.flags < 64)
    && (if pos then decide (1 ≤ r.kind ∧ r.kind ≤ 0x0C ∧ r.kind ≠ 7) else r.kind == 7 || decide (0x10 ≤ r.kind ∧ r.kind ≤ 0x16))

/-- The item or ingress record that a journal record commits again (R206, R325): the recorded number, timestamp and flags, with
replayed. The length field of a health or drop record is told by its timestamp (assumption 75). -/
def JRec.ingress (r : JRec) (off : Nat) (data : List Byte) : IngRec where
  kind := r.kind - 1
  seq := r.aux0
  flags := r.aux1 / 65536 ||| 32
  ts := r.aux2
  off := off
  len := if r.kind = 1 then data.length else stampedLen r.src r.aux0 r.aux2 % 2 ^ 32
  data := data

/-- A recorded ingress record committed again in its stream, at its position: a health record brings its score and cause (R226), a drop
record its numbers (R205). -/
def State.replayIngress (s : State) (r : JRec) (off : Nat) (data : List Byte) : State :=
  let i := r.ingress off data
  let s1 := (s.replayTake.putPos r.position).commitRecord r.src i
  s1.modStream r.src fun v => { v with
    seq := (r.aux0 + (if r.kind = 3 then i.len else 1)) % 2 ^ 32
    scoreC := if r.kind = 2 then .of (i.len % 256) else v.scoreC
    cause := if r.kind = 2 then i.len / 256 % 256 else v.cause }

/-- Has an item's time come under pacing (R327)? -/
def State.paceOk (s : State) (ts : Nat) : Bool :=
  !s.flag F.JRN_CTRL_pace || ts == 2 ^ 64 - 1
    || decide ((ts - s.jrn.firstTs.getD ts) * 256 / s.get F.JRN_PACE_ratio ≤ 1000 * (s.hubUs - s.jrn.startUs))

/-- An item applied: its data present (cause 4), due under pacing, and room for it in ring and queue. -/
def State.replayItem (s : State) (r : JRec) : State :=
  let s0 := if s.jrn.firstTs.isSome ∨ r.aux2 = 2 ^ 64 - 1 then s else { s with jrn := { s.jrn with firstTs := some r.aux2 } }
  match r.data with
  | none => s.replayStop 4
  | some data =>
    if !s0.paceOk r.aux2 ∨ !(s0.queue r.src).hasRoom then s0
    else
      match s0.placeData r.src data.length with
      | none => s0
      | some (o, s1) => s1.replayIngress r o data

/-- A doorbell applied (R325): its descriptors go to their places in the queue's ring, the producer index moves. -/
def State.replayDoorbell (s : State) (r : JRec) : State :=
  let q := r.src + 65536 * (r.aux1 % 16)
  let v := s.queue q
  let n := r.payload.length / 64
  let s1 := (List.range n).foldl
    (fun s k => s.store (v.ring + (r.aux0 + 2 ^ 32 - n + k) % v.size * 64) (bytesAt r.payload (64 * k) 64)) s
  if v.enabled then ((s1.replayTake.putPos (r.position + 1)).setQueue q { v with producer := r.aux0 }) else s.replayTake.putPos (r.position + 1)

/-- A positioned record of JRN's own codes applied (R325). Codes 0x0B and 0x0C wait for the replay's own command, 0x08 for
REPLAY_REMOTE_SIGNAL. -/
def State.replayPositioned (s : State) (r : JRec) : State :=
  let taken := s.replayTake.putPos (r.position + 1)
  match r.kind with
  | 1 => s.replayItem r
  | 2 | 3 => if (s.queue r.src).hasRoom then s.replayIngress r 0 [] else s
  | 4 => s.replayDoorbell r
  | 5 => taken.fenceAdd (r.src % 4096) r.aux0
  | 6 => taken.store r.aux2 r.payload
  | 9 =>
    let index := (match tabFind s.twin.taken (r.src % 64) with
      | some t => t.1
      | none => 0) + 1
    taken.twinTake ⟨r.src % 64, index, r.aux0, 0, r.aux2, false⟩
  | 10 =>
    taken.fusRecord (timeoutRecord r.src r.aux0)
  | _ => s

/-- An unpositioned record passed: segment end, gap and misplaced header end the replay; a checkpoint goes to DET (R334); what
its consumers look up stays in the journal. -/
def State.replayUnpositioned (s : State) (r : JRec) : State :=
  let s1 := { s with jrn := { s.jrn with rptr := s.jrn.rptr + r.units } }
  match r.kind with
  | 0x10 => s.replayStop 6
  | 0x11 => s1.replayEnd
  | 0x14 =>
    let tiles := (List.range (r.payload.length / 16)).map fun k =>
      let b := bytesAt r.payload (16 * k) 16
      (⟨fieldAt b 0 2, fieldAt b 2 2, fieldAt b 4 1, fieldAt b 5 1 % 4, fieldAt b 5 1 / 4, BitVec.ofNat 64 (fieldAt b 8 8)⟩ : TileEnt)
    s1.detAdd ⟨r.src + 65536 * (r.aux1 % 16), r.aux0, BitVec.ofNat 64 r.aux2, r.flags.testBit 3, tiles, r.flags.testBit 5⟩ false
  | 0x16 => s.replayStop 5
  | _ => s1.farmHold

/-- REPLAY_APPLY (R325, R330, R545): the next record of the replay journal, the digest of any data in it verified (cause 3). A positioned one is applied at its turn, and not at or
beyond an armed boundary. -/
def execReplayApply (s : State) : Result :=
  .next (if s.get F.JRN_STATUS_state ≠ 3 then s
    else if s.get F.JRN_EXPORT_offset ≤ s.jrn.rptr then s.replayEnd
    else
      let r := s.jrnAt s.jrn.rptr
      if s.ringPoisoned s.jrn.rptr (min r.units s.ringUnits) then (s.replayStop 7).raise pgJRN Ev.JRN_uncorrectable
      else if !r.formed ∨ s.get F.JRN_EXPORT_offset < s.jrn.rptr + r.units then s.replayStop 6
      else if !r.digestOk then s.replayStop 3
      else if !r.flags.testBit 0 then s.replayUnpositioned r
      else if s.jrn.expected ≠ some r.position then s.replayStop 6
      else if s.beyond r.position then s.farmHold
      else s.replayPositioned r)

/-- REPLAY_REMOTE_SIGNAL (R329): a recorded remote signal at its turn: from the journal alone, or, when the whole domain replays,
once a live signal of the same device to the same object has arrived. -/
def execReplayRemoteSignal (s : State) : Result :=
  let r := s.jrnAt s.jrn.rptr
  let key := r.src * 4096 + r.aux0
  .next (if !s.replayTurn (fun r => decide (r.kind = 8)) then s
    else if s.flag F.JRN_CTRL_domain ∧ tabGet s.jrn.live key 0 ≤ tabGet s.jrn.taken key 0 then s
    else
      let s1 := (s.replayTake.putPos (r.position + 1)).fenceAdd (r.aux0 % 4096) r.aux1
      { s1 with jrn := { s1.jrn with taken := tabSet s1.jrn.taken key (tabGet s1.jrn.taken key 0 + 1) } })

end Sys2Proof.Machine
end

