-- ==== Sys2Proof/Machine/Resets.lean ====
section
/-! DEFINITION. Block reset and module reset (R66 to R70, R466) and what each owning chapter says of the reset of its pages. -/

namespace Sys2Proof.Machine

/-! ### Supply dips as SUP shows them (R508, R520) -/

/-- A core rail's dip interval reported: its bit, the count, SUP_LAST_DIP, the event; the bit and event of a long one. -/
def State.dipReport (s : State) (r : Nat) (p : DipSt) : State :=
  let s1 := ((s.put F.SUP_DIP_in_dip (s.get F.SUP_DIP_in_dip ||| 2 ^ r)).count F.SUP_DIPS_count 1).put F.SUP_LAST_DIP_rail r
  let s2 := (s1.put F.SUP_LAST_DIP_min_mv p.minMv).raise pgSUP Ev.SUP_dip
  if p.long then (s2.put F.SUP_DIP_long (s2.get F.SUP_DIP_long ||| 2 ^ r)).raise pgSUP Ev.SUP_dip_long else s2

/-- Every open dip interval reported. -/
def State.dipsReport (s : State) : State := s.pwr.dips.foldl (fun s e => s.dipReport e.1 e.2) s

/-- PWR_CLK of the fabric and the management complex: the top step but during a hub dip (R504). -/
def State.hubClkShow (s : State) : State :=
  let top := match tabFind s.pwr.dips 4 with
    | some p => min 2 p.ceil
    | none => 2
  (s.put F.PWR_CLK_fabric top).put F.PWR_CLK_mgmt top

/-- Every clock step that PWR_CLK shows decided anew. -/
def State.clksShow (s : State) : State := (List.range 4).foldl (fun s d => s.clkShow d) s.hubClkShow

/-! ### What a block reset ends before the registers are cleared -/

/-- ING reset (R228): every stream is disabled and keeps its sequence numbers. -/
def State.ingReset (s : State) : State :=
  (List.range 128).foldl (fun s n =>
    if s.streamOn n ∨ (tabFind s.streams n).isSome then
      (s.streamStop n).modStream n fun v => { v with scoreC := .of 0, cause := 0, drops := 0 }
    else s) s

/-- WARD reset (R228): deferral counts at 0; a ward whose job does not run is forgotten. -/
def State.wardReset (s : State) : State :=
  { s with streams := s.streams.map fun e => (e.1, { e.2 with
      deferrals := 0
      lastPass := false
      ward := match e.2.ward with
        | some w => if w.running then some w else none
        | none => none }) }

/-- Every job of a class that its engine has ends with that class's error status. -/
def State.classFail (s : State) (cls : Nat) : State :=
  (s.jobs.filter fun j => j.cls == cls && j.stage == .placed).foldl (fun s j => s.commandFailed j.queue j.index) s

/-- FUS reset (R271): pending instants complete with the fusion error status, the late lane is empty. -/
def State.fusReset (s : State) : State :=
  let s1 := s.fusFailAll
  { s1 with fus := { records := s1.fus.records } }

/-- PROJ reset (R271): commands in flight fail, deltas and calibration are cleared. -/
def State.projReset (s : State) : State := { s.classFail 4 with proj := {} }

/-- A reflex port's query ended with refused (R311). -/
def State.reflexRefused (s : State) (port epoch : Nat) : State :=
  let a := s.rfxAt port
  s.poke (a + 0x180) (Rfx.bytes { refused := true } epoch (s.bytes (a + 4) 4))

/-- COLL reset (R311): every reflex query ends refused, the epoch returns to 0 with no buffer current; the build under way fails. -/
def State.collReset (s : State) : State :=
  let s1 := s.coll.running.foldl (fun s e => s.reflexRefused e.2.port e.2.epoch) s
  let s2 := s1.coll.waiting.foldl (fun s p => s.reflexRefused p (s.get F.COLL_EPOCH_epoch)) s1
  let s3 := match s2.coll.building with
    | some b => s2.commandFailed b.2.1 b.2.2
    | none => s2
  { s3 with coll := {} }

/-- PLAN reset (R311): every query ends kept, its job with the collision error status; a LOAD under way fails; roadmaps, query
numbers and last results are forgotten. -/
def State.planReset (s : State) : State :=
  let s1 := s.plan.queries.foldl (fun s q => (s.planStop q.queue q.index 8 q.cmd).planKept q .exhausted) s
  let s2 := match s1.plan.loading with
    | some j => s1.commandFailed j.1 j.2
    | none => s1
  { s2 with plan := {} }

/-- KV reset (R201): slots with a fetch or store in flight fault with cause 2, jobs end with the KV error status. -/
def State.kvReset (s : State) : State :=
  let ns := (s.arrs.filter fun a => a.2.flights.any fun f => f.kvF.isSome || f.kvS.isSome).map (·.1)
  let s1 := ns.foldl (fun s n =>
    (s.slotFault n 2).modArr n fun a => { a with flights := a.flights.map fun f => { f with
      kvF := none
      kvS := none } }) s
  { s1.classFail 6 with kv := {} }

/-- JRN reset (R338): a recording ends without a segment end record, a replay stops with cause 9. -/
def State.jrnReset (s : State) : State :=
  let s1 := s.closeHostData
  { s1.replayStop 9 with jrn := {} }

/-- What an aborted job's slot leaves on its array (R109, R361). -/
def State.slotAborted (s : State) (n : Nat) : State :=
  let s1 := ((s.slotFault n 7).dropPins n).slotGone n
  (s1.put (F.ARR_STATE_state n) (if s1.get (F.ARR_STATE_state n) = 5 then 5 else if (s1.arr n).suspect then 4 else 0)).modArr n
    fun a => { a with flights := [] }

/-- A job aborted by a QENG reset: its slots end at once and its completion record carries status 0x0A; its signals go out only
where sig_on_fail is set (R367). -/
def State.qengAbort1 (s : State) (j : Job) : State :=
  let ns := (j.slots.filter fun k => decide (k.phase = 2)).map fun k => 24 * k.die + k.logical
  let s1 := ns.foldl (fun s n => s.slotAborted n) s
  let j1 := ((s1.job j.queue j.index).getD j).ended 0x0A 7
  (s1.setJob { j1 with reports := [(0x0A, 7, 0)] }).jobDone { j1 with reports := [(0x0A, 7, 0)] }

/-- Jobs in ascending queue and descriptor index. -/
def insertJob (j : Job) : List Job → List Job
  | [] => [j]
  | k :: t => if j.queue * 2 ^ 32 + j.index ≤ k.queue * 2 ^ 32 + k.index then j :: k :: t else k :: insertJob j t

/-- A queue's state written back to its DRAM entry (R342), and the queue disabled. -/
def State.queueOff (s : State) (q : Nat) : State :=
  let v := s.queue q
  if !v.enabled ∧ !v.disabling then s
  else
    let fault := v.cause + (if v.faulted then 2 ^ 31 else 0)
    (s.store (s.queueAddr q + 0x10) (leBytes 4 v.producer ++ leBytes 4 v.consumer ++ leBytes 4 0 ++ leBytes 4 fault)).setQueue q { v with
      enabled := false
      disabling := false
      inFlight := 0 }

/-- QENG reset (R367): every job taken is aborted in order, its work in the engines forgotten, and every queue is written back and
disabled. -/
def State.qengReset (s : State) : State :=
  let js := (s.jobs.filter fun j => queueKind j.queue == 1).foldl (fun l j => insertJob j l) []
  let mine := fun (q i : Nat) => js.any fun j => j.is q i
  let s1 := { s with
    fus := { s.fus with pending := s.fus.pending.filter fun p => !mine p.queue p.index }
    plan := { (s.planDrop fun q => mine q.queue q.index).plan with loading := none }
    coll := { s.coll with building := none }
    ext := s.ext.filter fun e => !mine e.2.queue e.2.index }
  let s2 := (js.foldl (fun s j => s.qengAbort1 j) s1).fusIdle.projShow.planShow.buildOver
  { s2.queues.foldl (fun s e => s.queueOff e.1) s2 with
    qPend := []
    qSumm := [] }

/-- XGS reset (R432): the domain is dissolved, collectives fail with cause 3, the twin state is alone. -/
def State.xgsReset (s : State) : State :=
  let s1 := s.xgs.active.foldl (fun s n => (s.collEnd n (3 + 4 * 3)).raise pgXGS Ev.XGS_coll_fail) s
  let s2 := s1.domainEnd
  { s2 with xgs := { s2.xgs with
      groups := []
      go := []
      said := []
      heard := [] } }

/-- MEMG reset (R399): a test or a Park preparation in progress is aborted. -/
def State.memgReset (s : State) : State :=
  { s with memg := { s.memg with
      testing := []
      parkPrep := false } }

/-- STEST reset (R497): windows end as incomplete, a targeted test ends with its failures cleared. -/
def State.stestReset (s : State) : State :=
  (List.range 4).foldl (fun s d =>
    let s1 := s.sliceLost d
    s1.setStDie d { s1.stDie d with
      chosen := none
      targets := [] }) s

/-- FARM reset (R558): a save in progress leaves its image without its magic; the boundary is disarmed. -/
def State.farmReset (s : State) : State :=
  let a := s.addr F.FARM_CKPT_ADDR_LO_addr
  let s1 := if s.farm.save.isSome then s.storeRaw a (leBytes 4 0) else s
  { s1 with farm := { s1.farm with
      save := none
      toldSlow := false } }

/-- What the reset of a page's block ends and forgets before its registers are cleared. -/
def State.blockEnds (s : State) (b : Blk) (inst : Nat) : State :=
  match b with
  | .sec => { s with sec := { s.sec with attest := none } }
  | .dike => { s with dike := {} }.put F.GEN_XS_admitted 0
  | .qeng => s.qengReset
  | .jrn => s.jrnReset
  | .det => { s with det := {} }
  | .ing => s.ingReset
  | .csi => (List.range 4).foldl (fun s v => s.frameDrop (4 * inst + v)) s
  | .ward => s.wardReset
  | .fus => s.fusReset
  | .proj => s.projReset
  | .ego => { s with
      ego := {}
      egoIn := [] }
  | .coll => s.collReset
  | .planB => s.planReset
  | .kv => s.kvReset
  | .xgs => s.xgsReset
  | .xl => s.linkDown inst 0
  | .pcie => s.pcieReset
  | .flt => { s.flt.foldl (fun s _ => s.faultForward) s with fltLog := [] }
  | .stest => s.stestReset
  | .farm => s.farmReset
  | .mc => s.flushEnd inst
  | .memg => s.memgReset
  | .arr => s.arrReset inst false
  | _ => s

/-- The offsets that a block reset keeps (R43, R338, R399, R432, R497, R544, R558, R520); an array's own reset has done its page. -/
def blockKeeps (b : Blk) (off : Nat) : Bool :=
  match b with
  | .pwr => decide (off = 0x24 ∨ off = 0x28 ∨ (0x30 ≤ off ∧ off < 0x40))
  | .disc => decide (0x40 ≤ off ∧ off < 0xB0)
  | .jrn => decide (off = 0x28 ∨ off = 0x2C)
  | .xl => decide (off = 0x100)
  | .stest => decide ((0x90 ≤ off ∧ off < 0xA0) ∨ off = 0xA8 ∨ (0x120 ≤ off ∧ off < 0x140))
  | .farm => decide (off = 0x50 ∨ off = 0x54)
  | .mc => decide (off = 0x40)
  | .memg => decide (off = 0x100)
  | .psr => decide (off = 0x20 ∨ off = 0x24 ∨ off = 0x30 ∨ off = 0x34)
  | .nor => decide (off = 0x20 ∨ off = 0x24 ∨ off = 0x30)
  | .arr => true
  | _ => false

/-- What a page shows again after its block's reset. `old` is the state before it. -/
def State.blockShows (s old : State) (b : Blk) (inst : Nat) : State :=
  match b with
  | .pwr => s.put F.PWR_STATE_state (old.get F.PWR_STATE_state)
  | .sup => s.dipsReport
  | .sec =>
    let s1 := if old.sec.update.isSome then s.put F.SEC_UPDATE_CMD_state (old.get F.SEC_UPDATE_CMD_state) else s
    ((s1.put F.SEC_DEBUG_STATE_scope (old.get F.SEC_DEBUG_STATE_scope)).putB F.SEC_ATTEST_CMD_refused old.sec.attest.isSome).putB
      F.SEC_STATUS_owner s.sec.trust.owner.isSome
  | .dike => s.put F.DIKE_STATUS_fault_count (old.get F.DIKE_STATUS_fault_count)
  | .jrn => if old.replaying then (s.put F.JRN_STATUS_state 4).put F.JRN_STATUS_stop_cause 9 else s
  | .st => s.put (F.ST_STATUS_step inst) 3
  | .xl => if old.flag (F.XL_CTRL_enable inst) then s.linkTrain inst else s
  | .farm =>
    let s1 := s.put F.FARM_STATUS_state (if old.get F.JRN_STATUS_state = 3 then 2 else if old.farm.restore.isSome then
      old.get F.FARM_STATUS_state else if old.farm.fresh then 1 else 0)
    s1.put F.FARM_RELINK_relinking (old.get F.FARM_RELINK_relinking)
  | .mc =>
    ((((s.put (F.MC_STATUS_mode inst) (old.get (F.MC_STATUS_mode inst))).put (F.MC_STATUS_retired inst)
      (old.get (F.MC_STATUS_retired inst))).put (F.MC_TEMP_trained_at inst) (old.get (F.MC_TEMP_trained_at inst))).mcMode inst)
  | .memg =>
    (((((((s.put F.MEMG_STATUS_state (if old.get F.MEMG_STATUS_state = 5 then 3 else old.get F.MEMG_STATUS_state)).put F.MEMG_STATUS_ready_segments
      (old.get F.MEMG_STATUS_ready_segments)).put F.MEMG_RETIRE_STATE_channel (old.get F.MEMG_RETIRE_STATE_channel)).put
      F.MEMG_RETIRE_STATE_retired (old.get F.MEMG_RETIRE_STATE_retired)).put F.MEMG_RETIRE_STATE_copying
      (old.get F.MEMG_RETIRE_STATE_copying)).put F.MEMG_RETIRE_STATE_progress (old.get F.MEMG_RETIRE_STATE_progress)).mcModes)
  | .psr => s.put (F.PSR_RD_CMD_refused inst) (old.get (F.PSR_RD_CMD_busy inst))
  | .nor => s.put (F.NOR_RD_CMD_refused inst) (old.get (F.NOR_RD_CMD_busy inst))
  | _ => s

/-- The block of a page reset (R66, R67): in reset until BLOCK_RESET_DONE. -/
def State.blockReset (s : State) (page : Nat) : State :=
  match pageRun page with
  | none => s
  | some r =>
    let k := page - r.first
    let s1 := (s.blockEnds r.blk k).clearPage page (if r.blk = .arr then fun off => !(off == 8) && !(off == 0x10) && !(off == 0x18)
      else blockKeeps r.blk)
    ((s1.blockShows s r.blk k).put (F.BLK_STATUS_ready page) 0).put (F.BLK_STATUS_in_reset page) 1

/-- Is a block reset of the page refused (R69)? -/
def State.blockResetNo (s : State) (page : Nat) : Bool :=
  s.flag F.GEN_BLK_RESET_busy || decide (page = 0 ∨ page = 57 ∨ page = 58 ∨ (96 ≤ page ∧ page < 100)) || s.pageUnmapped page
    || (match pageDie page with
        | some d => s.cdState d != 3
        | none => false)

/-- BLOCK_RESET (R66 to R69). -/
def execBlockReset (acc : Acc) (s : State) : Result :=
  .next (s.command pgGEN 0x104 acc fun s w =>
    if !w.getLsbD 31 then s
    else
      let page := F.GEN_BLK_RESET_page.ext w
      if s.blockResetNo page then s.put F.GEN_BLK_RESET_refused 1
      else ((s.put F.GEN_BLK_RESET_refused 0).put F.GEN_BLK_RESET_busy 1).blockReset page)

/-- The pages whose blocks are in reset. -/
def State.pagesInReset (s : State) : List Nat := (List.range 232).filter fun p => s.flag (F.BLK_STATUS_in_reset p)

/-- A block out of its reset; an island that asked for the reset of the page waits no longer (R456). -/
def State.blockReady (s : State) (p : Nat) : State :=
  let s1 := (s.put (F.BLK_STATUS_in_reset p) 0).put (F.BLK_STATUS_ready p) 1
  [0, 1].foldl (fun s i => if (s.island i).engine = some p then s.modIsl i fun v => { v with engine := none } else s) s1

/-- BLOCK_RESET_DONE (R67): the resets under way complete, ready sets. After a reset of the module all blocks are in reset and
leave it together (assumption 49). -/
def execBlockResetDone (s : State) : Result :=
  .next (if s.pagesInReset = [] then s else (s.pagesInReset.foldl State.blockReady s).put F.GEN_BLK_RESET_busy 0)

/-! ### Module reset (R70, R446, R466, R537) -/

/-- Registers that a reset of the hub leaves: the islands' view pages (R472) and what the islands show of their memories. -/
def islandReg (k : Nat) : Bool :=
  let page := k / 512
  let off := k % 512 * 4
  decide (page = 57 ∨ page = 58)
    || (decide (page = 228 ∨ page = 229) && blockKeeps .psr off) || (decide (page = 230 ∨ page = 231) && blockKeeps .nor off)

/-- An update that was under way leaves the inactive banks empty or failed, which is open (R536; assumption 41). -/
def State.updateLost (s : State) : State :=
  match s.sec.update with
  | none => s
  | some _ =>
    let v := s.fresh
    [0, 1].foldl (fun s i =>
      let bank := 1 - s.get (F.ISL_IMAGE_bank i)
      s.norPut i (bank * 0x8000000 + 8) [if v.1 % 2 = 0 then 0#8 else 3#8]) v.2

/-- The hub and the compute dies at reset (R66, R70, R466): every register at its reset value, no work in progress, device memory
as at reset but for the addresses that `keep` names. The islands, their memories, fuses, keys and counters stay. -/
def State.hubReset (s : State) (keep : Nat → Bool) : State :=
  let s0 := (s.flt.foldl (fun s _ => s.faultForward) s).updateLost
  let s1 : State := { State.reset with
    regs := s0.regs.filter fun e => islandReg e.1
    fuse := s0.fuse
    mem := s0.mem.filter fun e => keep e.1
    cond := s0.cond.filter fun e => keep (32 * e.1)
    readData := s0.readData
    out := s0.out
    freeCtr := s0.freeCtr
    hubUs := s0.hubUs
    unitMaps := s0.unitMaps
    ident := s0.ident
    accepted := s0.accepted
    islMem := s0.islMem
    isl := s0.isl.map fun e => (e.1, { e.2 with
      timers := []
      waits := []
      warn := false
      dieTimes := []
      hot := []
      dieDue := []
      modDue := []
      queries := []
      engine := none
      inbox := e.2.inbox })
    pwr := {
      dips := s0.pwr.dips
      held := s0.pwr.held }
    sec := { s0.sec with
      meas := []
      attest := none
      reports := 0
      update := none
      unlocked := false
      boot := { host := s0.fuse.bootSrc } }
    pending := s0.pending }
  let s2 := (s1.putB F.SEC_STATUS_owner s1.sec.trust.owner.isSome).clksShow.dipsReport
  [0, 1].foldl (fun s i =>
    ((((s.putWord (pgISL i) 0x3C 0#32).put (F.ISL_TAP_stop i) 0).put (F.ISL_TAP_fence i) 0)).timersShow i) s2

/-- The work of the hub engines ended as the resets of their blocks end it, and the completion records of the jobs written (R271, R311, R201,
R367). -/
def State.workEnds (s : State) : State :=
  let s1 := s.fusReset.projReset.kvReset.collReset.planReset
  ((s1.jobs.filter fun j => queueKind j.queue == 1 && s1.jobOver j).foldl (fun s j => s.jobDone j) s1).qengReset

/-- A module reset with a cause (R70, R466): what fallback runs goes on; DRAM is lost (R399), hub SRAM, which stays powered, is left in
place (R271; assumption 49); GEN_RESET_CAUSE tells of it. -/
def State.moduleReset (s : State) (cause : Nat) : State :=
  let n := min (s.get F.GEN_RESET_CAUSE_count + 1) 255
  (({ s.workEnds with flt := s.flt }.hubReset fun a => decide (hubBase ≤ a ∧ a < hubBase + 96 * 1048576)).put F.GEN_RESET_CAUSE_cause cause).put F.GEN_RESET_CAUSE_count n

/-- Times of the module resets of an island within the last 10 s (R446). -/
def IslSt.recentMod (v : IslSt) : List Nat := v.modTimes.filter fun t => decide (v.time < t + 10000000)

/-- A module reset noted by a running island (R442, R446): its time, ISL_MODULE_RESETS, its record. -/
def State.modNote (s : State) (i : Nat) : State :=
  ((s.modIsl i fun v => { v with modTimes := v.recentMod ++ [v.time] }).satInc (F.ISL_MODULE_RESETS_count i)).islWrite i 4 0 0xFF 6 []

/-- The module given up (R446): held in reset, module_failed set, every slot that an island emits in fallback. -/
def State.moduleFailed (s : State) : State :=
  let s1 := s.islandsUp.foldl (fun s i =>
    let s1 := ((List.range 64).foldl (fun s k => if s.get (F.ISL_SLOT_mode i k) = 0 then s else s.fallbackStart i k) s)
    ((s1.put (F.ISL_STATE_state i) 5).islLevel i Ev.ISL_module_failed true).islWrite i 4 0 0xFF 7 []) s
  { s1 with pwr := { s1.pwr with held := setAdd s1.pwr.held 4 } }

/-- MODULE_RESET (R446, R466, R513, R537): a module reset that the island decided on. While the running bank is in trial it becomes an
activating restart; the third within 10 s is followed by no restart; one for heat holds the module in reset. -/
def execModuleReset (i : Island) (cause : BitVec 4) (s : State) : Result :=
  let k := islIdx i
  .next (if !s.islUp k ∨ !(s.island k).modDue.contains cause.toNat then s
    else if s.sec.boot.trial then
      let s1 := (s.modIsl 0 fun v => { v with modDue := [] }).modIsl 1 fun v => { v with modDue := [] }
      { s1 with sec := { s1.sec with boot := { s1.sec.boot with restart := true } } }
    else
      let third := decide (2 ≤ (s.island k).recentMod.length)
      let s1 := (s.islandsUp.foldl (fun s j => s.modNote j) s).moduleReset cause.toNat
      let s2 := if cause = 4#4 then { s1 with pwr := { s1.pwr with held := setAdd s1.pwr.held 3 } } else s1
      if third then s2.moduleFailed else s2)

/-- MODULE_RESET_REQ (GEN_CTRL.module_reset_req): the islands are asked for a module reset with cause 2. -/
def execModuleResetReq (acc : Acc) (s : State) : Result :=
  .next (s.command pgGEN 0x060 acc fun s w => if w.getLsbD 0 then s.allWantModule 2 else s)

end Sys2Proof.Machine
end

