-- ==== Sys2Proof/Machine/Power.lean ====
section
/-! DEFINITION. The commands of 16_power_clocks_bringup: power states, inputs and rails, supply dips, temperatures, service levels. -/

namespace Sys2Proof.Machine

/-! ### Run and Warm (R498, R499, R502) -/

/-- PWR_STATE.state changed, with its event. -/
def State.powerState (s : State) (v : Nat) : State :=
  if s.get F.PWR_STATE_state = v then s else (s.put F.PWR_STATE_state v).raise pgPWR Ev.PWR_state_change

/-- Is an array ungated? -/
def State.ungated (s : State) (n : Nat) : Bool := (s.get (F.PWR_UNGATED_ungated (n / 24))).testBit (n % 24)

/-- The array of a die that ungates next: the lowest in service that is gated, but for one gated because it was idle. -/
def State.nextUngate (s : State) (d : Nat) : Option Nat :=
  (List.range 24).find? fun a => s.inService (24 * d + a) && !s.ungated (24 * d + a) && !s.pwr.idle.contains (24 * d + a)

/-- The move to Run is complete when no array waits to be ungated. It begins once the hub firmware runs. -/
def State.runCheck (s : State) : State :=
  if s.pwr.wanted = some 4 ∧ s.get F.PWR_STATE_state = 3 ∧ (List.range 4).all (fun d => (s.nextUngate d).isNone) then
    { s with pwr := { s.pwr with wanted := none } }.powerState 4
  else s

/-- Segments of DRAM that Park keeps (R389). -/
def State.parkSegments (s : State) : List Nat :=
  let ks := (List.range 7).filter fun k =>
    (s.get F.MEMG_PARK_KEEP_segments).testBit k || (k == 6 && s.memg.retired.isSome)
  if ks = [] then [] else ks ++ [7]

/-- Is a device address in one of the kept segments (R389)? -/
def inSegments (ks : List Nat) (a : Nat) : Bool :=
  decide (dramBase ≤ a ∧ a < dramBase + dramBytes) && ks.contains (min 7 ((a - dramBase) / 0x400000000))

/-- The save image at MEMG_SAVE_BASE, its digest and the module serial written to the Park save area of both islands (R390, R393). -/
def State.parkSave (s : State) : State :=
  let b := s.bytes (s.addr F.MEMG_SAVE_BASE_LO_base) 65536
  s.islandsUp.foldl (fun s i => s.psramPut i 0x100000 (b ++ sha3_512 b ++ leBytes 8 s.fuse.serial.toNat)) s

/-- The hub off with what Park keeps (R390, R391): kept segments, the save image, measurements and the report count. -/
def State.parkHub (s : State) (m : MemgSt) : State :=
  let cause := s.regWord pgGEN 0x54
  let s1 := (s.hubReset (inSegments m.kept)).putWord pgGEN 0x54 cause
  { s1 with
    memg := m
    sec := { s1.sec with
      meas := s.sec.meas
      reports := s.sec.reports
      unlocked := s.sec.unlocked
      boot := { kept := true, host := s.sec.boot.host, xsKeys := s.sec.boot.xsKeys, keptFw := s.regWord pgGEN 0x34 } } }

/-- Entry into Park (R390 steps 3 and 4): the save area is written, kept channels go into self-refresh, hub and dies are off. -/
def State.parkEnter (s : State) : State :=
  let s1 := s.parkSave
  (s1.parkHub { kept := s.parkSegments, selfRefresh := true, image := s.memg.image }).put F.PWR_STATE_state 2

/-- Entry into Deep Sleep (R498, R499): main rails off, the islands stop, their PSRAM in half-sleep. -/
def State.sleepEnter (s : State) : State :=
  let s0 := s.hubReset fun _ => false
  let s1 := (s0.put (F.PSR_STATUS_half_sleep 0) 1).put (F.PSR_STATUS_half_sleep 1) 1
  ((s1.modIsl 0 fun v => { v with running := false, driving := false }).modIsl 1 fun v => { v with
    running := false
    driving := false }).put F.PWR_STATE_state 1

/-- From Warm on to what was asked for (R499): Park once it is prepared, Deep Sleep at once, Run when the arrays are ungated. -/
def State.warmGo (s : State) : State :=
  match s.pwr.wanted with
  | some 1 => s.sleepEnter
  | some 2 => if s.get F.MEMG_STATUS_state = 5 then s.parkEnter else s
  | some 4 => s.runCheck
  | _ => s

/-- Is every array gated? -/
def State.allGated (s : State) : Bool := (List.range 4).all fun d => s.get (F.PWR_UNGATED_ungated d) == 0

/-- A move from Run to Warm ends when every array is gated. -/
def State.warmCheck (s : State) : State :=
  if s.pwr.warming ∧ s.allGated then
    let s1 := { s with pwr := { s.pwr with
        warming := false
        idle := [] } }
    (s1.powerState 3).warmGo
  else s

/-- PARK_READY (R390 steps 2 and 3): the save image is written; Park asked for before is entered. -/
def execParkReady (s : State) : Result :=
  .next (if s.get F.PWR_STATE_state = 3 then s.parkReady.warmGo else s.parkReady)

/-- Why Park and Deep Sleep are refused (R500). -/
def State.sleepRefused (s : State) : Bool :=
  s.anyFallback || s.recording || s.replaying || !s.jobs.isEmpty || s.memg.copying.isSome || s.stest.copy.isSome
    || !s.memg.testing.isEmpty

/-- A state asked for from Run or Warm (R499, R500). -/
def State.powerAsk (s : State) (v : Nat) : State :=
  if v ≤ 2 ∧ s.sleepRefused then (s.put F.PWR_STATE_refused 1).raise pgPWR Ev.PWR_refused
  else
    let s1 := s.put F.PWR_STATE_refused 0
    let run := s1.get F.PWR_STATE_state = 4
    if v = 4 then
      if run then { s1 with pwr := { s1.pwr with
        warming := false
        wanted := none } }
      else { s1 with pwr := { s1.pwr with wanted := some 4 } }.runCheck
    else
      let s2 := { s1 with pwr := { s1.pwr with
          warming := decide run
          wanted := if v = 3 then none else some v } }
      if run then s2.warmCheck else s2.warmGo

/-- A command that PWR_STATE.request carries (R499). -/
def State.powerRequest (s : State) (acc : Acc) (v : Nat) : State :=
  s.command pgPWR 0x020 acc fun s w => if F.PWR_STATE_request.ext w = v then s.powerAsk v else s

/-- REQUEST_DEEP_SLEEP (R499, R500). -/
def execRequestDeepSleep (acc : Acc) (s : State) : Result := .next (s.powerRequest acc 1)

/-- REQUEST_PARK (R499, R500). -/
def execRequestPark (acc : Acc) (s : State) : Result := .next (s.powerRequest acc 2)

/-- UNGATE (R499): the next array of the die is ungated. -/
def execUngate (d : Fin 4) (s : State) : Result :=
  .next (if s.get F.PWR_STATE_state = 4 ∨ (s.get F.PWR_STATE_state = 3 ∧ s.pwr.wanted = some 4) then
      match s.nextUngate d with
      | some a => (s.setGate (24 * d + a) true).runCheck
      | none => s
    else s)

/-- Line buffers after their supply was off: their bytes are open (R498). -/
def State.lbLost (s : State) (n : Nat) : State :=
  let a := s.arr n
  let cells := (List.range 0x100000).map fun i => ((i, BitVec.ofNat 8 (Config.free (s.freeCtr + i))) : Host.Cell)
  { s.setArr n { a with
      lb := cells.filter fun c => decide (c.2 ≠ 0#8)
      lbCond := []
      held := [] } with freeCtr := s.freeCtr + 0x100000 }

/-- GATE (R499, R502): an idle array is gated: on the way to Warm, which loses its line buffers; out of service; or idle for
PWR_GATE_IDLE.us, which changes time only. -/
def execGate (n : Arr) (s : State) : Result :=
  let k := arrNum n
  .next (if !s.ungated k ∨ !s.arrIdle k ∨ s.get F.PWR_STATE_state ≠ 4 then s
    else if s.pwr.warming then ((s.lbLost k).setGate k false).warmCheck
    else if !s.inService k then s.setGate k false
    else if s.get F.PWR_GATE_IDLE_us = 0 then s
    else
      let s1 := s.setGate k false
      { s1 with pwr := { s1.pwr with idle := setAdd s1.pwr.idle k } })

/-! ### Power-on, wake, inputs (R501, R505, R516) -/

/-- Islands as at power-on: their power-on count and the sequence number of their repair tables lie in flash (assumption 46);
counter and rings go on where `rings` says so. -/
def islPowerOn (v : IslSt) (rings : Bool) : IslSt :=
  { powerOns := v.powerOns
    repairSeq := v.repairSeq
    time := if rings then v.time else 0
    seq := if rings then v.seq else 0
    recs := if rings then v.recs else 0
    frs := if rings then v.frs else 0
    critical := if rings then v.critical else 0 }

/-- Power-on (R516): hub, dies and islands at reset; flash, fuses, keys and rollback counters stay, PSRAM where it was kept. -/
def State.powerOn (s : State) (rings : Bool) : State :=
  let s1 := s.hubReset fun _ => false
  let s2 := [0, 1].foldl (fun s i => ((s.islRestart i).setIsl i (islPowerOn (s.island i) rings))) s1
  let s3 : State := { s2 with
    islMem := s2.islMem.map fun (e : Nat × IslMem) => (e.1, if rings then e.2 else { e.2 with
      psram := []
      psramCond := [] })
    pwr := {} }
  ((s3.put (F.PSR_STATUS_half_sleep 0) 0).put (F.PSR_STATUS_half_sleep 1) 0).clksShow

/-- POWER_GOOD (R505, R516): both inputs and every rail are in regulation: bring-up starts. -/
def execPowerGood (s : State) : Result := .next (s.powerOn false)

/-- A wake (R499, R501): from Park to Warm with what Park kept; from Deep Sleep as from power-on, the islands' rings kept. -/
def State.wake (s : State) (wanted : Option Nat) : State :=
  if s.pwr.held ≠ [] then s
  else if s.get F.PWR_STATE_state = 2 then
    let s1 := (s.put F.PWR_STATE_state 3).raise pgPWR Ev.PWR_state_change
    { s1.put F.MEMG_STATUS_park_exit 1 with pwr := { s1.pwr with wanted := wanted } }
  else if s.get F.PWR_STATE_state = 1 then
    let s1 := s.powerOn true
    { s1 with pwr := { s1.pwr with wanted := wanted } }
  else s

/-- WAKE (R501). -/
def execWake (s : State) : Result := .next (s.wake none)

/-- A request that finds the hub off is a wake (R500). -/
def State.hubAsleep (s : State) : Bool := s.get F.PWR_STATE_state == 1 || s.get F.PWR_STATE_state == 2

/-- REQUEST_WARM (R499). -/
def execRequestWarm (acc : Acc) (s : State) : Result := .next (if s.hubAsleep then s.wake none else s.powerRequest acc 3)

/-- REQUEST_RUN (R499, R500): from Park or Deep Sleep a request for Warm followed by Run. -/
def execRequestRun (acc : Acc) (s : State) : Result := .next (if s.hubAsleep then s.wake (some 4) else s.powerRequest acc 4)

/-- The module held in reset for a reason. -/
def State.hold (s : State) (why : Nat) : State := { s with pwr := { s.pwr with held := setAdd s.pwr.held why } }

/-- A reason for holding the module in reset gone. -/
def State.unhold (s : State) (why : Nat) : State := { s with pwr := { s.pwr with held := setDel s.pwr.held why } }

/-- MAIN_INPUT_FAULT (R505): every main rail is off; the islands record cause 3 and hold the fallback. -/
def execMainInputFault (s : State) : Result :=
  let s1 := if s.hubOff then s else s.raise pgSUP Ev.SUP_input_warn
  let s2 := s1.islandsUp.foldl (fun s i =>
    ((List.range 64).foldl (fun s k => if s.routed k ∨ s.get (F.ISL_SLOT_mode i k) ≠ 0 then s.fallbackStart i k else s) s).islWrite
      i 4 0 0xFF 6 (leBytes 4 3)) s1
  .next ((s2.hubReset fun _ => false).hold 1)

/-- MAIN_INPUT_RESTORED (R505): the module restarts as a module reset with cause 3. -/
def execMainInputRestored (s : State) : Result :=
  .next (if s.pwr.held.contains 1 then (s.moduleReset 3).unhold 1 else s)

/-- ISLAND_INPUT_FAULT (R505): both islands reset; the module is held in reset. -/
def execIslandInputFault (s : State) : Result :=
  .next ((((s.islRestart 0).islRestart 1).hubReset fun _ => false).hold 2)

/-- ISLAND_INPUT_RESTORED (R505): the module leaves reset; its cause is the supply. -/
def execIslandInputRestored (s : State) : Result :=
  .next (if s.pwr.held.contains 2 then (s.moduleReset 3).unhold 2 else s)

/-- THERMAL_DIODE_RELEASE (R513): the diodes read below 115 °C. -/
def execThermalDiodeRelease (s : State) : Result := .next (s.unhold 3)

/-! ### Rails and dips (R506 to R511) -/

/-- A dip interval closed. -/
def State.dipClose (s : State) (r : Nat) : State :=
  let s1 := { s with pwr := { s.pwr with dips := tabDel s.pwr.dips r } }
  let s2 := (s1.put F.SUP_DIP_in_dip (s1.get F.SUP_DIP_in_dip &&& (31 - 2 ^ r))).put F.SUP_DIP_long
    (s1.get F.SUP_DIP_long &&& (31 - 2 ^ r))
  if r < 4 then s2.clkShow r else s2.hubClkShow

/-- RAIL_FAULT (R507, R511, R571): VC0 to VC3: the islands reset the die; VHB and the rest: the module, with cause 3. PGOOD goes low. -/
def execRailFault (rail : Fin 10) (s : State) : Result :=
  let r := rail.val
  .next (if s.hubOff then s
    else
      let s0 := if r < 5 ∧ s.dipOpen r then s.dipClose r else s
      let s1 := { s0 with pwr := { s0.pwr with badRails := setAdd s0.pwr.badRails r } }
      if r < 4 then s1.allWantDie r else s1.allWantModule 3)

/-- Jobs that a dip on rail `r` marks (R509). -/
def State.dipMark (s : State) (r : Nat) : State :=
  { s with jobs := s.jobs.map fun j =>
      if (r < 4 ∧ (j.granted.contains r ∨ j.slots.any fun k => decide (k.die = r ∧ k.phase = 2)))
          ∨ (r = 4 ∧ j.stage = .placed) then { j with dip := true }
      else j }

/-- DIP (R508 steps 1 to 3, R509): a core rail falls below its warning level: the interval opens, or one that is open goes back to
step 2; the domain runs at 300 MHz or its lower step. -/
def execDip (rail : Fin 5) (mv : Nat) (s : State) : Result :=
  let r := rail.val
  .next (if s.hubOff ∨ s.get F.SUP_LEVELS_warn_mv ≤ mv then s
    else
      let open' := tabFind s.pwr.dips r
      let p : DipSt := match open' with
        | some p => { p with
          low := true
          minMv := min p.minMv mv
          ceil := if r < 4 then 1 else 0 }
        | none => { minMv := mv, since := s.hubUs, ceil := if r < 4 then 1 else 0 }
      let s1 := { s with pwr := { s.pwr with dips := tabSet s.pwr.dips r p } }
      let s2 := if open'.isNone then s1.dipReport r p
        else if s1.get F.SUP_LAST_DIP_rail = r then s1.put F.SUP_LAST_DIP_min_mv p.minMv
        else s1
      (if r < 4 then s2.clkShow r else s2.hubClkShow).dipMark r)

/-- The step that a domain is commanded to run at: CD_CTRL.clk_step of a die, the top step of the hub (R504). -/
def State.commanded (s : State) (r : Nat) : Nat := if r < 4 then s.get (F.CD_CTRL_clk_step r) else 2

/-- DIP_STEP_UP (R508 steps 4 and 5): 100 µs above the warning level: the domain goes up one step; at its commanded step, or at once
where that is 300 MHz or less, the interval closes; `us` is how long it was open. -/
def execDipStepUp (rail : Fin 5) (us : Nat) (s : State) : Result :=
  let r := rail.val
  .next (match tabFind s.pwr.dips r with
    | none => s
    | some p =>
      let up := min (p.ceil + 1) (s.commanded r)
      let s1 := { s with pwr := { s.pwr with dips := tabSet s.pwr.dips r { p with
          low := false
          long := false
          ceil := max p.ceil up } } }
      let s2 := s1.put F.SUP_DIP_long (s1.get F.SUP_DIP_long &&& (31 - 2 ^ r))
      if s.commanded r ≤ max p.ceil up then
        let s3 := s2.dipClose r
        if s3.get F.SUP_LAST_DIP_rail = r then s3.put F.SUP_LAST_DIP_us (min us 65535) else s3
      else if r < 4 then s2.clkShow r else s2.hubClkShow)

/-- DIP_LONG (R508): the rail has been below its warning level for SUP_DIP_MAX.ms. -/
def execDipLong (rail : Fin 5) (s : State) : Result :=
  let r := rail.val
  .next (match tabFind s.pwr.dips r with
    | none => s
    | some p =>
      if !p.low then s
      else
        ({ s with pwr := { s.pwr with dips := tabSet s.pwr.dips r { p with long := true } } }.put F.SUP_DIP_long
          (s.get F.SUP_DIP_long ||| 2 ^ r)).raise pgSUP Ev.SUP_dip_long)

/-! ### Temperatures (R512 to R514) -/

/-- A temperature of units of 1/16 °C shown in whole degrees; which way it is rounded is open (assumption 47). -/
def State.putC (s : State) (f : Fld) (t : Int) : State :=
  if t % 16 = 0 then s.put f (ofInt 8 (t / 16))
  else
    let v := s.fresh
    v.2.put f (ofInt 8 (t / 16 + v.1 % 2))

/-- A bit of THM_STATUS and its event when it turns on. -/
def State.thmBit (s : State) (f : Fld) (on : Bool) (ev : Nat) : State :=
  (s.putB f on).raiseIf (on && !s.flag f) pgTHM ev

/-- The hottest valid point of each compute die in run, and of the hub as bit 4, in units of 1/16 °C. -/
def State.dieTemps (s : State) (hub : Option Int) : List (Nat × Int) :=
  ((List.range 4).filterMap fun d =>
      if 2 ≤ s.cdState d ∧ s.get (F.CD_HOTSPOT_MAX_valid_count d) ≠ 0 then
        some (d, toSigned 16 (s.get (F.CD_HOTSPOT_MAX_temp d)))
      else none)
    ++ (match hub with
        | some t => [(4, t)]
        | none => [])

/-- A mask of THM_STATUS (one bit per die, bit 4 for the hub) with the event of a bit that turns on. -/
def State.thmMask (s : State) (f : Fld) (m ev : Nat) : State :=
  (s.put f m).raiseIf (m &&& (31 - s.get f) != 0) pgTHM ev

/-- THERMAL_SAMPLE (R512 to R514): the registers follow the sensors; warn, hot, coolant and sensor events; at 125 °C on the hub's
grid or an island's diode the islands reset the module. -/
def execThermalSample (t : Temps) (s : State) : Result :=
  .next (if s.hubOff then s
    else
      let hub := hottest (validPoints t.hub 0)
      let s1 := match hub with
        | some (k, x) => (s.put F.THM_HUB_MAX_temp (ofInt 16 x)).put F.THM_HUB_MAX_point k
        | none => s
      let ts := s1.dieTemps (hub.map (·.2))
      let s2 := ts.foldl (fun s x => if x.1 < 4 then s.putC (F.THM_DIE_MAX_die x.1) x.2 else s) s1
      let show1 := fun (s : State) (f : Fld) (x : Option Int) (w : Nat) =>
        match x with
        | some v => if w = 16 then s.put f (ofInt 16 v) else s.putC f v
        | none => s
      let s3 := show1 (show1 (show1 (show1 s2 F.THM_COOLANT_inlet t.inlet 16) F.THM_COOLANT_outlet t.outlet 16)
        F.THM_BOARD_stages t.stages 8) F.THM_BOARD_board t.board 8
      let mask := fun (c : Nat) => ((ts.filter fun x => decide ((16 * c : Int) ≤ x.2)).map fun x => 2 ^ x.1).sum
      let s4 := (s3.thmMask F.THM_STATUS_warn (mask (s.get F.THM_WARN_warn)) Ev.THM_warn).thmMask F.THM_STATUS_hot
        (mask (s.get F.THM_WARN_hot)) Ev.THM_hot
      let lim := 16 * toSigned 8 (s.get F.THM_COOL_LIMIT_inlet_max)
      let rise := (16 * s.get F.THM_COOL_LIMIT_rise_max : Int)
      let inHot : Bool := match t.inlet with
        | some i => decide (lim < i)
        | none => false
      let riseHot : Bool := match t.inlet, t.outlet with
        | some i, some o => decide (i + rise < o)
        | _, _ => false
      let bad := t.inlet.isNone || t.outlet.isNone || t.stages.isNone || t.board.isNone || (List.range 16).any fun k => (t.hub.getD k none).isNone
      let s5 := (s4.thmBit F.THM_STATUS_coolant (inHot || riseHot) Ev.THM_coolant_warn).thmBit F.THM_STATUS_sensor_fail bad
        Ev.THM_sensor_fail
      let tooHot := fun (x : Int) => decide (2000 ≤ x)
      if tooHot t.diodeA || tooHot t.diodeB || (hub.any fun x => tooHot x.2) then s5.allWantModule 4 else s5)

/-! ### Service levels (R517, R518) -/

/-- The die of reduced service (R21): the lowest that is neither absent nor held; 0 shown if there is none. -/
def State.serviceDie (s : State) : Nat := ((List.range 4).find? fun d => s.cdState d != 0 && s.cdState d != 6).getD 0

/-- What a change of the service level shows: arrays in service, their capabilities, clocks. -/
def State.serviceChanged (s : State) : State :=
  let s1 := (List.range 4).foldl (fun s d => s.serviceShow d) s
  let s2 := (List.range 96).foldl (fun s n => if n % 24 < s.fuse.perDie then s.capsSet n else s) s1
  (s2.clksShow).raise pgPWR Ev.PWR_service_change

/-- PWR_SERVICE.level written with `v` (R518). -/
def State.serviceWrite (s : State) (v : Nat) : State :=
  let now := s.get F.PWR_SERVICE_level
  if v = now then s.put F.PWR_STATE_refused 0
  else if now = 0 ∧ v = 1 then
    let s1 := (((s.put F.PWR_STATE_refused 0).put F.PWR_SERVICE_level 1).put F.PWR_SERVICE_die s.serviceDie).serviceChanged
    { s1 with pwr := { s1.pwr with
        wanted := none
        warming := false } }.powerState 4
  else if now = 1 ∧ v = 2 ∧ s.get F.MEMG_STATUS_ready_segments = 0xFF then
    ((s.put F.PWR_STATE_refused 0).put F.PWR_SERVICE_level 2).serviceChanged
  else (s.put F.PWR_STATE_refused 1).raise pgPWR Ev.PWR_refused

/-- REDUCED_SERVICE and FULL_SERVICE: the write to PWR_SERVICE (R518). -/
def State.serviceCommand (s : State) (acc : Acc) : State :=
  s.command pgPWR 0x024 acc fun s w => s.serviceWrite (F.PWR_SERVICE_level.ext w)

/-- REDUCED_SERVICE (R517, R518). -/
def execReducedService (acc : Acc) (s : State) : Result := .next (s.serviceCommand acc)

/-- FULL_SERVICE (R518). -/
def execFullService (acc : Acc) (s : State) : Result := .next (s.serviceCommand acc)

end Sys2Proof.Machine
end

