-- ==== Sys2Proof/Machine/Boot.lean ====
section
/-! DEFINITION. The commands of 17_boot_and_attestation: island and hub boot, attestation, updates, enrolment, rollback counters,
debug tokens. -/

namespace Sys2Proof.Machine

/-! ### Images (R521 to R523) -/

/-- An image: its 8 KiB header and its body. -/
structure Image where
  head : List Byte
  body : List Byte
deriving DecidableEq, Repr

/-- The largest body of an image type (R522). -/
def imageMax (typ : Nat) : Nat :=
  match typ with
  | 3 => 0x4000000
  | 4 => 0x2000000
  | 5 => 0x10000
  | _ => 0xC0000

/-- Where a bank holds the image of a type (R526). -/
def imageAt (typ : Nat) : Nat :=
  match typ with
  | 1 => 0x1000
  | 2 => 0x200000
  | 3 => 0x400000
  | 4 => 0x4800000
  | _ => 0x300000

/-- Bytes of an image that a signature covers (R522). -/
def signedDigest (h : List Byte) : List Byte := sha3_512 (bytesAt h 0 0xAA0)

/-- Does the signature of a header verify with the key that it carries? -/
def headSigned (h : List Byte) : Bool := Config.mldsaVerify (bytesAt h 0x80 2592) (signedDigest h) (bytesAt h 0xAA0 4627)

/-- The digest of the key that a header carries (R521). -/
def headKey (h : List Byte) : List Byte := sha3_512 (bytesAt h 0x80 2592)

/-- May the key of a header sign images of its type, and does the signer field name it (R521)? -/
def State.signerOk (s : State) (typ : Nat) (h : List Byte) : Bool :=
  let t := s.sec.trust
  if typ = 2 ∨ typ = 5 then fieldAt h 0x1C 1 == 1 && t.owner == some (headKey h)
  else
    fieldAt h 0x1C 1 == 0
      && ((headKey h == t.image0 && !t.revoked0) || (headKey h == t.image1 && !t.revoked1))

/-- Magic, type, length and zero fields of a header (R522, R523). -/
def headForm (typ : Nat) (h : List Byte) : Bool :=
  h.take 4 == [0x56#8, 0x49#8, 0x4D#8, 0x31#8] && fieldAt h 4 2 == typ && decide (fieldAt h 0x18 4 ≤ imageMax typ)
    && (typ == 3 || fieldAt h 0xC 2 == 0) && (bytesAt h 0x1D 35).all (· == 0#8) && (bytesAt h 0x1CB3 845).all (· == 0#8)

/-- Is an image accepted (R523)? Before enrolment `assembly` admits what Idelaosh built into a bank for the types that the owner
signs (R538; assumption 42). -/
def State.accepts (s : State) (typ : Nat) (im : Image) (assembly : Bool) : Bool :=
  let h := im.head
  let built := assembly && s.sec.trust.owner.isNone && (typ == 2 || typ == 5)
  headForm typ h && (built || (s.signerOk typ h && headSigned h)) && bytesAt h 0x40 64 == sha3_512 im.body
    && (fieldAt h 0x10 8 == 0 || fieldAt h 0x10 8 == s.fuse.serial.toNat) && fieldAt h 0xE 1 == typ - 1
    && decide (fieldAt h 0xF 1 ≤ 64) && (built || decide (s.rollback (typ - 1) ≤ fieldAt h 0xF 1))

/-! ### Banks (R526, R527) -/

/-- First NOR address of a bank. -/
def bankBase (b : Nat) : Nat := b * 0x8000000

/-- An image in a bank of an island. -/
def State.bankImage (s : State) (i b typ : Nat) : Image :=
  let a := bankBase b + imageAt typ
  let h := s.norAt i a 0x2000
  ⟨h, s.norAt i (a + 0x2000) (min (fieldAt h 0x18 4) (imageMax typ))⟩

/-- State of a bank's record: 0 empty, 1 trial, 2 confirmed, 3 failed; a record without its magic is empty. The widths of the
fields behind the sequence are the model's (assumption 41). -/
def State.bankState (s : State) (i b : Nat) : Nat :=
  if s.norAt i (bankBase b) 4 = [0x56#8, 0x42#8, 0x4B#8, 0x31#8] then fieldAt (s.norAt i (bankBase b) 16) 8 1 else 0

/-- Sequence and trial count of a bank's record. -/
def State.bankSeq (s : State) (i b : Nat) : Nat := fieldAt (s.norAt i (bankBase b) 16) 4 4
def State.bankTries (s : State) (i b : Nat) : Nat := fieldAt (s.norAt i (bankBase b) 16) 9 1

/-- A bank's record given a state. -/
def State.bankMark (s : State) (i b v : Nat) : State := s.norPut i (bankBase b + 8) (leBytes 1 v)

/-- A bank in trial with no try left marked failed (R527 step 2). -/
def State.trialOver (s : State) (i b : Nat) : State :=
  if s.bankState i b = 1 ∧ 3 ≤ s.bankTries i b then
    let s1 := s.bankMark i b 3
    { s1 with sec := { s1.sec with boot := { s1.sec.boot with fell := true } } }
  else s

/-- The bank that the ROM chooses (R527): one in trial, whose trial count rises; otherwise the confirmed one with the higher
sequence. -/
def State.bankChoose (s : State) (i : Nat) : State × Option Nat :=
  let s1 := (s.trialOver i 0).trialOver i 1
  match [0, 1].find? fun b => decide (s1.bankState i b = 1) with
  | some b => (s1.norPut i (bankBase b + 9) (leBytes 1 (s1.bankTries i b + 1)), some b)
  | none =>
    match s1.bankState i 0 == 2, s1.bankState i 1 == 2 with
    | true, true => (s1, some (if s1.bankSeq i 0 < s1.bankSeq i 1 then 1 else 0))
    | true, false => (s1, some 0)
    | false, true => (s1, some 1)
    | false, false => (s1, none)

/-- Are the images of a bank that the island ROM checks accepted: island firmware, configuration, key-store record (R528 step 1)? -/
def State.bankOk (s : State) (i b : Nat) : Bool := [1, 2, 5].all fun t => s.accepts t (s.bankImage i b t) true

/-- The ROM's search for a bank that boots: one with a refused image is marked failed and the other is tried (R527). -/
def State.bankBoot (s : State) (i : Nat) : Nat → State × Option Nat
  | 0 => (s, none)
  | n + 1 =>
    match s.bankChoose i with
    | (s1, none) => (s1, none)
    | (s1, some b) =>
      if s1.bankOk i b then (s1, some b)
      else
        let s2 := s1.bankMark i b 3
        bankBoot { s2 with sec := { s2.sec with boot := { s2.sec.boot with fell := true } } } i n

/-- Repair table copies in NOR: bank and place; those whose digest is valid (R449; assumption 39). -/
def State.repairCopies (s : State) (i : Nat) : List Nat :=
  ((List.range 30).map fun k => bankBase (k / 15) + 0x7FC0000 + k % 15 * 0x4400).filter fun a =>
    s.norAt i (a + 0x20 + 0x3FC0) 64 == sha3_512 (s.norAt i (a + 0x20) 0x3FC0)

/-- At power-on an island takes the repair table copy with the highest sequence number (R449). -/
def State.repairLoad (s : State) (i : Nat) : State :=
  let num := fun (a : Nat) => leNat (s.norAt i a 4)
  match (s.repairCopies i).foldl (fun (m : Option Nat) a => match m with
      | some x => if num x < num a then some a else m
      | none => some a) none with
  | none => s
  | some a => (s.psramPut i 0x1000 (s.norAt i (a + 0x20) 0x4000)).modIsl i fun v => { v with repairSeq := num a }

/-- What an island shows once its firmware runs. The identifiers that its memories report, the erase counts of its flash and the state
of its buses are open (assumption 2). -/
def State.islShow (s : State) (i b : Nat) : State :=
  let f := fun (k : Nat) => Config.free (s.freeCtr + k)
  let h := s.norAt i (bankBase b + imageAt 1) 16
  let s1 : State := { s with freeCtr := s.freeCtr + 7 }
  let s2 := (((s1.put (F.ISL_STATE_state i) 1).put (F.ISL_IMAGE_version i) (fieldAt h 6 2)).put (F.ISL_IMAGE_bank i) b).put
    (F.ISL_STATE_hub_link i) 1
  let s3 := (((s2.put (F.PSR_STATUS_state i) 1).put (F.NOR_STATUS_state i) 1).put (F.PSR_ID_id i) (f 0)).put (F.NOR_ID_jedec i) (f 1)
  let s4 := (s3.put (F.NOR_ERASE_bank_a i) (f 2)).put (F.NOR_ERASE_bank_b i) (f 3)
  ((s4.put (F.ISL_OUTPUTS_can0 i) (f 4 % 4)).put (F.ISL_OUTPUTS_can1 i) (f 5 % 4)).put (F.ISL_OUTPUTS_eth i) (f 6 % 3)

/-- Does a booting island read the straps otherwise than its peer read them at this power-on (R569)? -/
def State.strapsDiffer (s : State) (k : Nat) (role bootSrc : Bool) : Bool :=
  (s.island k).cold && !(s.island (peerOf k)).cold && (s.fuse.roleSib != role || s.fuse.bootSrc != bootSrc)

/-- Straps read differently (R569): each island records it with severity critical; the module is held in reset until power is removed. -/
def State.strapFault (s : State) : State := ((s.bothWrite 7 3 0xFF 0 []).hubReset fun _ => false).hold 6

/-- ISLAND_BOOT (R449, R527, R528 step 1, R569): the ROM of an island that does not run chooses a bank, verifies it and starts the
firmware. A boot at power-on reads the straps and takes the repair table from flash. With no bank that boots the island stays in its
ROM; with both islands so the module stays in reset. -/
def execIslandBoot (i : Island) (role : Bool) (bootSrc : Bool) (s : State) : Result :=
  let k := islIdx i
  .next (if s.islUp k ∨ s.pwr.held.contains 2 ∨ s.get F.PWR_STATE_state = 1 then s
    else
      let cold := (s.island k).cold
      let r := s.bankBoot k 3
      match r.2 with
      | none =>
        let s1 := r.1.modIsl k fun v => { v with stuck := true }
        if (s1.island (peerOf k)).stuck then s1.hold 5 else s1
      | some b =>
        let s1 := r.1.modIsl k fun v => { v with
          running := true
          driving := true
          stuck := false
          cold := false
          powerOns := v.powerOns + if cold then 1 else 0 }
        let s2 := if cold then
            { s1.repairLoad k with
              fuse := { s1.fuse with
                roleSib := role
                bootSrc := bootSrc }
              sec := { s1.sec with boot := { s1.sec.boot with host := bootSrc } } }
          else s1
        let s3 := (s2.islShow k b).faultHeader k
        if s.strapsDiffer k role bootSrc then s3.strapFault else s3)

/-! ### The hub firmware (R528 to R531) -/

/-- Sources of hub firmware that are left, in order: SIA's active bank, its other bank if confirmed, then SIB's (R529); an island that
is down supplies none. Each is island × 2 + bank. -/
def State.hubSources (s : State) : List Nat :=
  let all := s.islandsUp.flatMap fun i =>
    let b := s.get (F.ISL_IMAGE_bank i)
    [2 * i + b] ++ if s.bankState i (1 - b) = 2 then [2 * i + 1 - b] else []
  all.filter fun x => !s.sec.boot.refused.contains x

/-- The image in the boot buffer at the start of hub SRAM, or wherever the host placed one (R530). -/
def State.memImage (s : State) (a typ : Nat) : Image :=
  let h := s.bytes a 0x2000
  ⟨h, s.bytes (a + 0x2000) (min (fieldAt h 0x18 4) (imageMax typ))⟩

/-- The image offered to the checkers, and its source: 4 for the host. -/
def State.hubOffer (s : State) : Option (Nat × Image) :=
  if s.sec.boot.host then (if s.sec.boot.goHub then some (4, s.memImage hubBase 3) else none)
  else s.hubSources.head?.map fun x => (x, s.bankImage (x / 2) (x % 2) 3)

/-- May the hub's image be judged: an island runs, the hub is released from reset and does not run yet? -/
def State.hubWaits (s : State) : Bool := !s.hubOff && !s.sec.boot.running && !s.islandsUp.isEmpty

/-- A measurement slot written (R532). -/
def State.measure (s : State) (k : Nat) (d : List Byte) : State :=
  { s with sec := { s.sec with meas := tabSet s.sec.meas k d } }

/-- Measurements 0 to 5 and 8: ROMs, the running islands' firmware and configuration, the key-store record (R532). -/
def State.measureIslands (s : State) : State :=
  let dig := fun (i t : Nat) => bytesAt (s.norAt i (bankBase (s.get (F.ISL_IMAGE_bank i)) + imageAt t) 0x80) 0x40 64
  let s1 := ((s.measure 0 s.sec.trust.siaRom).measure 5 s.sec.trust.hubRom)
  let s2 := s.islandsUp.foldl (fun s i => (s.measure (1 + 2 * i) (dig i 1)).measure (2 + 2 * i) (dig i 2)) s1
  s2.measure 8 (dig (s.islandsUp.headD 0) 5)

/-- The hub firmware starts (R528 step 4): SEC_STATUS tells its source, the key-store record takes effect. -/
def State.hubStart (s : State) (src fw : Nat) : State :=
  let i := if src = 4 then s.islandsUp.headD 0 else src / 2
  let b := if src = 4 then s.get (F.ISL_IMAGE_bank i) else src % 2
  let s1 := ((s.putWord pgGEN 0x34 (BitVec.ofNat 32 fw)).put F.SEC_STATUS_boot_src (if src = 4 then 2 else i)).put F.SEC_STATUS_bank b
  let s2 := (s1.putB F.SEC_STATUS_trial (s.bankState i b == 1)).raiseIf s.sec.boot.fell pgSEC Ev.SEC_bank_fallback
  { s2 with sec := { s2.sec with boot := { s2.sec.boot with
      running := true
      src := if src = 4 then 2 else i
      trial := s.bankState i b == 1
      kept := false
      fell := false
      startUs := s.hubUs
      xsKeys := (s.bankImage (s.islandsUp.headD 0) (s.get (F.ISL_IMAGE_bank (s.islandsUp.headD 0))) 5).body } } }.cfgWritten.runCheck

/-- HUB_IMAGE_ACCEPT (R528, R529, R531): every running checker has accepted the image, or the hub ROM the one kept through Park; the
firmware starts, GEN_FW_REV and the measurements are written. -/
def execHubImageAccept (s : State) : Result :=
  .next (if !s.hubWaits then s
    else if s.sec.boot.kept then s.hubStart (s.hubSources.headD 4) s.sec.boot.keptFw.toNat
    else
      match s.hubOffer with
      | none => s
      | some (src, im) =>
        if !s.accepts 3 im false then s
        else
          let fw := fieldAt im.head 0xC 2 + 65536 * (fieldAt im.head 8 4 % 65536)
          (s.measureIslands.measure 6 (bytesAt im.head 0x40 64)).hubStart src fw)

/-- No image accepted (R529): the islands hold the module in reset, record it and report module failure. -/
def State.bootFailed (s : State) : State :=
  s.islandsUp.foldl (fun s i =>
    ((s.islWrite i 7 3 pgSEC 0 []).put (F.ISL_STATE_state i) 5).islLevel i Ev.ISL_module_failed true) (s.hold 5)

/-- HUB_IMAGE_REFUSED (R529, R531): a checker refuses the image offered; the next source is offered, or none is left. -/
def execHubImageRefused (s : State) : Result :=
  .next (if !s.hubWaits then s
    else if s.sec.boot.kept then { s with sec := { s.sec with
        meas := []
        boot := { s.sec.boot with kept := false } } }
    else
      match s.hubOffer with
      | none => s
      | some (src, _) =>
        let s1 := { s with sec := { s.sec with boot := { s.sec.boot with
            refused := setAdd s.sec.boot.refused src
            goHub := false } } }
        if s.sec.boot.host ∨ s1.hubSources = [] then s1.bootFailed else s1)

/-- Is DRAM segment 0 open? -/
def State.seg0 (s : State) : Bool := (s.get F.MEMG_STATUS_ready_segments).testBit 0

/-- TEST_CONTENT_ACCEPT (R528 step 5, R530): the test content of SIA's active bank (of SIB's if SIA is down) goes to STEST_PROG_BASE, or
the host has placed it there; it is verified and measurement 7 is written. -/
def execTestContentAccept (s : State) : Result :=
  .next (if s.hubOff ∨ !s.sec.boot.running ∨ !s.seg0 ∨ (tabFind s.sec.meas 7).isSome ∨ s.islandsUp = []
        ∨ (s.sec.boot.host ∧ !s.sec.boot.goTest) then s
    else
      let a := s.addr F.STEST_PROG_BASE_LO_base
      let i := s.islandsUp.headD 0
      let im := if s.sec.boot.host then s.memImage a 4 else s.bankImage i (s.get (F.ISL_IMAGE_bank i)) 4
      let s1 := if s.sec.boot.host then s else s.store a (im.head ++ im.body)
      if s.accepts 4 im false then s1.measure 7 (bytesAt im.head 0x40 64) else s1)

/-- A command of SEC_BOOT_CMD taken, or refused: `refused` shows whether the last was. -/
def State.bootTake (s : State) (no : Bool) (act : State → State) : State :=
  if no then s.put F.SEC_BOOT_CMD_refused 1 else act (s.put F.SEC_BOOT_CMD_refused 0)

/-- host_go (R530). -/
def State.hostGo (s : State) : State :=
  s.bootTake (!s.sec.boot.host || s.sec.boot.running) fun s => { s with sec := { s.sec with boot := { s.sec.boot with goHub := true } } }

/-- test_go (R530). -/
def State.testGo (s : State) : State :=
  s.bootTake (!s.sec.boot.host || !s.sec.boot.running || !s.seg0 || (tabFind s.sec.meas 7).isSome) fun s =>
    { s with sec := { s.sec with boot := { s.sec.boot with goTest := true } } }

/-! ### Trial, confirm, activate (R525, R535 to R537) -/

/-- A rollback counter raised, if that is higher (R525). -/
def State.counterUp (s : State) (c v : Nat) : State :=
  if s.rollback c < v then { s with sec := { s.sec with counters := tabSet s.sec.counters c (.of v) } } else s

/-- An island's trial bank confirmed; counters 0 to 4 rise to the min_rollback of its images. -/
def State.bankConfirm (s : State) (i : Nat) : State :=
  let b := s.get (F.ISL_IMAGE_bank i)
  if s.bankState i b = 1 then
    [1, 2, 3, 4, 5].foldl (fun s t => s.counterUp (t - 1) (min 64 (fieldAt (s.norAt i (bankBase b + imageAt t) 16) 0xF 1)))
      (s.bankMark i b 2)
  else s

/-- The trial banks confirmed; a counter that rises is told (R525, R535). -/
def State.confirmBanks (s : State) : State :=
  let s1 := s.islandsUp.foldl (fun s i => s.bankConfirm i) s
  let s2 := { s1 with sec := { s1.sec with boot := { s1.sec.boot with trial := false } } }.put F.SEC_STATUS_trial 0
  s2.raiseIf ((List.range 5).any fun c => s.rollback c != s2.rollback c) pgSEC Ev.SEC_rollback_advanced

/-- confirm (R535, R536). -/
def State.bootConfirm (s : State) : State :=
  s.bootTake (!s.sec.boot.trial || s.get F.SEC_UPDATE_CMD_state == 1 || s.get F.SEC_UPDATE_CMD_state == 2) State.confirmBanks

/-- Does a trial bank await its first boot? -/
def State.trialAwaits (s : State) : Bool := s.islandsUp.any fun i => s.bankState i (1 - s.get (F.ISL_IMAGE_bank i)) == 1

/-- An activating restart is due. -/
def State.restartDue (s : State) : State := { s with sec := { s.sec with boot := { s.sec.boot with restart := true } } }

/-- activate (R537). -/
def State.bootActivate (s : State) : State :=
  s.bootTake (s.anyFallback || (s.jobs.any fun j => j.safety) || !s.trialAwaits) State.restartDue

/-- A write of SEC_BOOT_CMD: what its bits ask for, in the order of the bits (assumption 80). -/
def State.bootCtrl (s : State) (w : Word) : State :=
  let on := fun (b : Nat) (f : State → State) (s : State) => if w.getLsbD b then f s else s
  on 3 State.testGo (on 2 State.bootActivate (on 1 State.bootConfirm (on 0 State.hostGo s)))

/-- HOST_GO (R530). -/
def execHostGo (acc : Acc) (s : State) : Result := .next (s.command pgSEC 0x024 acc State.bootCtrl)

/-- TEST_GO (R530). -/
def execTestGo (acc : Acc) (s : State) : Result := .next (s.command pgSEC 0x024 acc State.bootCtrl)

/-- CONFIRM (R535, R536). -/
def execConfirm (acc : Acc) (s : State) : Result := .next (s.command pgSEC 0x024 acc State.bootCtrl)

/-- ACTIVATE (R537). -/
def execActivate (acc : Acc) (s : State) : Result := .next (s.command pgSEC 0x024 acc State.bootCtrl)

/-- TRIAL_WINDOW_EXPIRY (R537): the running trial bank was not confirmed within its window. -/
def execTrialWindowExpiry (s : State) : Result :=
  .next (if s.sec.boot.running ∧ s.sec.boot.trial then s.restartDue else s)

/-- Has every slot in fallback reached the end of its stop record (R460, R537)? -/
def State.fallbackOver (s : State) : Bool :=
  s.islandsUp.all fun i => (List.range 64).all fun k =>
    s.get (F.ISL_SLOT_mode i k) != 2
      || (match tabFind (s.island i).kept k with
          | some p => decide (p.since + 8000000 ≤ (s.island i).time)
          | none => true)

/-- ACTIVATING_RESTART (R537): both islands restart through their ROMs together with a module reset of cause 6, which counts toward no
bound of R446. -/
def execActivatingRestart (s : State) : Result :=
  .next (if !s.sec.boot.restart ∨ !s.fallbackOver then s else ((s.moduleReset 6).islRestart 0).islRestart 1)

/-! ### Attestation (R533, R534) -/

/-- The attestation report (R534), numbered `n`. -/
def State.report (s : State) (n : Nat) : List Byte :=
  let flags := bitAt (s.get F.SEC_DEBUG_STATE_scope != 0) 0 + bitAt s.sec.unlocked 1 + bitAt (s.sec.boot.src == 2) 2
    + bitAt s.sec.boot.trial 3 + bitAt (s.flag F.GEN_XS_admitted) 4
    + bitAt (s.flag (F.ISL_STATE_reduced_independence 0) || s.flag (F.ISL_STATE_reduced_independence 1)) 5
  let b := [0x56#8, 0x41#8, 0x52#8, 0x31#8] ++ leBytes 4 n ++ leBytes 8 s.fuse.serial.toNat
    ++ ((List.range 16).flatMap fun k => s.regBytes pgSEC (0x40 + 4 * k))
    ++ s.regBytes pgGEN 0x24 ++ s.regBytes pgGEN 0x28 ++ s.regBytes pgGEN 0x34
    ++ ((List.range 4).flatMap fun k => s.regBytes pgGEN (0x40 + 4 * k)) ++ leBytes 4 flags
    ++ ((List.range 128).flatMap fun c => leBytes 1 (s.rollback c)) ++ leBytes 16 0
    ++ ((List.range 16).flatMap fun k => bytesAt (tabGet s.sec.meas k []) 0 64)
  b ++ bytesAt (Config.mldsaSign s.sec.trust.idCert (sha3_512 b)) 0 4627

/-- A request of SEC_ATTEST_CMD: one at a time. -/
def State.attestAsk (s : State) (act : State → State) : State :=
  if s.flag F.SEC_ATTEST_CMD_busy then s.put F.SEC_ATTEST_CMD_refused 1
  else (act s).put F.SEC_ATTEST_CMD_busy 1 |>.put F.SEC_ATTEST_CMD_refused 0

/-- What a request will write, taken at one instant (R534). -/
def State.attestTake (s : State) (bs : List Byte) : State :=
  { s with sec := { s.sec with attest := some ⟨s.addr F.SEC_ATTEST_ADDR_LO_addr, bs⟩ } }

/-- A report asked for. -/
def State.askReport (s : State) : State :=
  s.attestAsk fun s =>
    let s1 := s.attestTake (s.report (s.sec.reports + 1))
    { s1 with sec := { s1.sec with reports := s1.sec.reports + 1 } }

/-- The identity certificate and the device-CA certificate asked for, 7,307 bytes each (R533). -/
def State.askCerts (s : State) : State :=
  s.attestAsk fun s => s.attestTake (bytesAt s.sec.trust.idCert 0 7307 ++ bytesAt s.sec.trust.caCert 0 7307)

/-- A write of SEC_ATTEST_CMD: what its bits ask for, go before cert (assumption 80). -/
def State.attestCtrl (s : State) (w : Word) : State :=
  let s1 := if w.getLsbD 0 then s.askReport else s
  if w.getLsbD 1 then s1.askCerts else s1

/-- ATTEST (R534). -/
def execAttest (acc : Acc) (s : State) : Result := .next (s.command pgSEC 0x038 acc State.attestCtrl)

/-- CERT (R534). -/
def execCert (acc : Acc) (s : State) : Result := .next (s.command pgSEC 0x038 acc State.attestCtrl)

/-- ATTEST_DONE (R534): the bytes are written and visible. -/
def execAttestDone (s : State) : Result :=
  .next (match s.sec.attest with
    | none => s
    | some r =>
      let s1 := (s.store r.addr r.data).put F.SEC_ATTEST_CMD_busy 0
      { s1 with sec := { s1.sec with attest := none } }.raise pgSEC Ev.SEC_attest_done)

/-! ### Update (R535, R536) -/

/-- The image set that SEC_UPDATE_ADDR lists: the entry of type k + 1 at 8 × k, empty where the address is 0 (assumption 41). -/
def State.updateSet (s : State) : List (List Byte) :=
  let list := s.bytes (s.addr F.SEC_UPDATE_ADDR_LO_addr) 64
  (List.range 5).map fun k =>
    let a := fieldAt list (8 * k) 8
    if a = 0 then [] else
      let im := s.memImage a (k + 1)
      im.head ++ im.body

/-- Why an update is refused before its images are looked at (R535): 4 in trial or busy, 3 an island is not paired, 5 in fallback. -/
def State.updateNo (s : State) : Option Nat :=
  if s.sec.boot.trial ∨ s.get F.SEC_UPDATE_CMD_state = 1 ∨ s.get F.SEC_UPDATE_CMD_state = 2 then some 4
  else if [0, 1].any fun i => !s.islUp i || s.get (F.ISL_STATE_state i) != 2 then some 3
  else if s.anyFallback then some 5
  else none

/-- An update refused or failed. -/
def State.updateFail (s : State) (cause : Nat) : State :=
  let s1 := (s.put F.SEC_UPDATE_CMD_cause cause).raise pgSEC Ev.SEC_update_fail
  if s.get F.SEC_UPDATE_CMD_state = 1 ∨ s.get F.SEC_UPDATE_CMD_state = 2 then s1 else s1.put F.SEC_UPDATE_CMD_state 4

/-- UPDATE (R535 steps 1 and 2): each island verifies the set; then it programs its bank that is not active. -/
def execUpdate (acc : Acc) (s : State) : Result :=
  .next (s.command pgSEC 0x094 acc fun s w =>
    if !w.getLsbD 0 then s
    else
      match s.updateNo with
      | some c => s.updateFail c
      | none =>
        let set := s.updateSet
        let ok := (List.range 5).all fun k =>
          let b := set.getD k []
          b == [] || s.accepts (k + 1) ⟨b.take 0x2000, b.drop 0x2000⟩ false
        if !ok then s.updateFail 1
        else
          let s1 := { s with sec := { s.sec with update := some set } }
          let s2 := [0, 1].foldl (fun s i =>
            (s.put (F.NOR_STATUS_state i) 2).put (F.NOR_STATUS_prog_bank i) (1 - s.get (F.ISL_IMAGE_bank i))) s1
          (s2.put F.SEC_UPDATE_CMD_state 2).put F.SEC_UPDATE_CMD_cause 0)

/-- An island's inactive bank programmed: the images of the set, copies of the active bank's for those absent, the record as trial with
a sequence one above the active bank's. -/
def State.bankWrite (s : State) (i : Nat) (set : List (List Byte)) : State :=
  let a := s.get (F.ISL_IMAGE_bank i)
  let n := 1 - a
  let s1 := (List.range 5).foldl (fun s k =>
    let b := set.getD k []
    let im := s.bankImage i a (k + 1)
    s.norPut i (bankBase n + imageAt (k + 1)) (if b = [] then im.head ++ im.body else b)) s
  let s2 := s1.norPut i (bankBase n) ([0x56#8, 0x42#8, 0x4B#8, 0x31#8] ++ leBytes 4 (s.bankSeq i a + 1) ++ leBytes 1 1 ++ leBytes 1 0)
  (if n = 0 then s2.satInc (F.NOR_ERASE_bank_a i) else s2.satInc (F.NOR_ERASE_bank_b i)).put (F.NOR_STATUS_state i) 1

/-- UPDATE_DONE (R535 step 3): both islands have programmed their banks; with one down by now the update fails with cause 3. -/
def execUpdateDone (s : State) : Result :=
  .next (match s.sec.update with
    | none => s
    | some set =>
      let s1 := { s with sec := { s.sec with update := none } }
      if [0, 1].any (fun i => !s.islUp i) then
        (s1.islandsUp.foldl (fun s i => s.put (F.NOR_STATUS_state i) 1) (s1.put F.SEC_UPDATE_CMD_state 0)).updateFail 3
      else (((s1.bankWrite 0 set).bankWrite 1 set).put F.SEC_UPDATE_CMD_state 3).raise pgSEC Ev.SEC_update_done)

/-! ### Enrolment, counters, measurements (R525, R532, R538, R544) -/

/-- ENROL (R538): the owner key's digest, once. -/
def execEnrol (acc : Acc) (s : State) : Result :=
  .next (s.command pgSEC 0x108 acc fun s w =>
    if !w.getLsbD 31 ∨ acc.req ≠ .mgmt then s
    else if s.sec.trust.owner.isSome then s.put F.SEC_ENROL_CMD_refused 1
    else
      let d := sha3_512 (s.bytes (s.addr F.SEC_ENROL_ADDR_LO_addr) 2592)
      let s1 := (s.put F.SEC_ENROL_CMD_refused 0).put F.SEC_STATUS_owner 1
      { s1 with sec := { s1.sec with trust := { s1.sec.trust with owner := some d } } })

/-- ROLLBACK_ADVANCE (R525): counters 5 and 16 to 127 only rise. -/
def execRollbackAdvance (acc : Acc) (s : State) : Result :=
  .next (s.command pgSEC 0x10C acc fun s w =>
    if !w.getLsbD 31 ∨ acc.req ≠ .mgmt then s
    else
      let c := F.SEC_ROLLBACK_CMD_counter.ext w
      let v := F.SEC_ROLLBACK_CMD_value.ext w
      if ¬(c = 5 ∨ 16 ≤ c) ∨ v < s.rollback c then s.put F.SEC_ROLLBACK_CMD_refused 1
      else
        let s1 := s.put F.SEC_ROLLBACK_CMD_refused 0
        { s1 with sec := { s1.sec with counters := tabSet s1.sec.counters c (.of v) } }.raise pgSEC Ev.SEC_rollback_advanced)

/-- A measurement slot extended (R532). -/
def State.extend (s : State) (k : Nat) (bs : List Byte) : State := s.measure k (sha3_512 (bytesAt (tabGet s.sec.meas k []) 0 64 ++ bs))

/-- EXTEND (R532): slots 11 to 15. -/
def execExtend (acc : Acc) (s : State) : Result :=
  .next (s.command pgSEC 0x118 acc fun s w =>
    let k := F.SEC_EXTEND_CMD_slot.ext w
    if !w.getLsbD 31 ∨ acc.req ≠ .mgmt ∨ k < 11 then s
    else s.extend k (s.bytes (s.addr F.SEC_EXTEND_ADDR_LO_addr) 64))

/-! ### Debug (R540 to R542) -/

/-- A fresh nonce drawn (R540). -/
def State.challenge (s : State) : State :=
  ((List.range 16).foldl (fun s k =>
    let v := s.fresh
    v.2.put (F.SEC_DEBUG_NONCE_data k) (v.1 % 2 ^ 32)) s).put F.SEC_DEBUG_STATE_challenge_valid 1

/-- The key of a token may sign its scope: the debug key any, the owner key all but the island scope (R521). -/
def State.tokenSigner (s : State) (t : List Byte) (scope : Nat) : Bool :=
  if fieldAt t 0x1C 1 = 0 then s.sec.trust.debug == headKey t
  else fieldAt t 0x1C 1 == 1 && s.sec.trust.owner == some (headKey t) && !scope.testBit 2

/-- Is a debug token accepted (R523, R540, R541)? -/
def State.tokenOk (s : State) (t : List Byte) : Bool :=
  let scope := fieldAt t 0xC 2
  s.flag F.SEC_DEBUG_STATE_challenge_valid && s.get F.FLT_SR_OPEN_open == 0
    && t.take 4 == [0x56#8, 0x44#8, 0x54#8, 0x31#8] && fieldAt t 4 2 == 0x10 && fieldAt t 0x18 4 == 0
    && fieldAt t 0x10 8 == s.fuse.serial.toNat && decide (scope < 64) && s.tokenSigner t scope
    && bytesAt t 0x40 64 == ((List.range 16).flatMap fun k => s.regBytes pgSEC (0x140 + 4 * k)) && headSigned t
    && (bytesAt t 0x1D 35).all (· == 0#8) && (bytesAt t 0x1CB3 845).all (· == 0#8)

/-- A token checked once; the nonce lapses whatever the outcome (R540 to R542). -/
def State.tokenTake (s : State) : State :=
  let t := s.bytes (s.addr F.SEC_DEBUG_TOKEN_ADDR_LO_addr) 0x2000
  let s1 := s.put F.SEC_DEBUG_STATE_challenge_valid 0
  if !s.tokenOk t then (s1.put F.SEC_DEBUG_STATE_refused 1).raise pgSEC Ev.SEC_token_refused
  else
    let s2 := ((s1.put F.SEC_DEBUG_STATE_refused 0).put F.SEC_DEBUG_STATE_scope
      (s.get F.SEC_DEBUG_STATE_scope ||| fieldAt t 0xC 2)).extend 10 (signedDigest t)
    ({ s2 with sec := { s2.sec with unlocked := true } }.bothWarn 7 pgSEC Ev.SEC_debug_unlocked (signedDigest t)).raise pgSEC
      Ev.SEC_debug_unlocked

/-- A write of SEC_DEBUG_CMD: a token is checked, a nonce drawn, every scope locked again, in this order for the bits set. -/
def State.debugCtrl (s : State) (w : Word) : State :=
  let s1 := if w.getLsbD 1 then s.tokenTake else s
  let s2 := if w.getLsbD 0 then s1.challenge else s1
  if w.getLsbD 2 then s2.put F.SEC_DEBUG_STATE_scope 0 else s2

/-- CHALLENGE (R540). -/
def execChallenge (acc : Acc) (s : State) : Result := .next (s.command pgSEC 0x09C acc State.debugCtrl)

/-- SUBMIT (R540 to R542). -/
def execSubmit (acc : Acc) (s : State) : Result := .next (s.command pgSEC 0x09C acc State.debugCtrl)

/-- LOCK (R541). -/
def execLock (acc : Acc) (s : State) : Result := .next (s.command pgSEC 0x09C acc State.debugCtrl)

end Sys2Proof.Machine
end

