-- ==== Sys2Proof/Machine/Farm.lean ====
section
/-! DEFINITION. The commands of 18_replay_farm_service: boundaries, checkpoint images, progress, takeover, relinking. -/

namespace Sys2Proof.Machine

/-! ### Segment boundaries (R545 to R547) -/

/-- A farm command refused with a cause, or taken. -/
def State.farmRefuse (s : State) (cause : Nat) : State := (s.put F.FARM_STATUS_refused 1).put F.FARM_STATUS_cause cause
def State.farmTaken (s : State) : State := (s.put F.FARM_STATUS_refused 0).put F.FARM_STATUS_cause 0

/-- Records are applied again: a replay that was held goes on. -/
def State.farmGo (s : State) : State :=
  let v := s.get F.FARM_STATUS_state
  if v = 3 ∨ v = 4 then s.put F.FARM_STATUS_state 2 else s

/-- The boundary armed, or refused with cause 7 where it is not ahead (R545). A later boundary lets the records below it be applied
(R546). -/
def State.farmArm (s : State) : State :=
  if s.boundary ≤ s.addr F.JRN_REPLAY_POS_LO_position then s.farmRefuse 7
  else ((s.farmTaken.put F.FARM_STATUS_armed 1).farmGo).farmHold

/-- The boundary disarmed: records are applied again. -/
def State.farmDisarm (s : State) : State := (s.farmTaken.put F.FARM_STATUS_armed 0).farmGo

/-- The next segment (R547). -/
def State.farmContinue (s : State) : State :=
  ((s.farmTaken.put F.FARM_STATUS_armed 0).farmGo.count F.FARM_SEGMENT_number 1).farmBegin

/-- Is nothing in progress that a boundary waits for (R545)? -/
def State.boundaryQuiet (s : State) : Bool :=
  (s.jobs.all fun j => j.released.isNone) && s.fus.pending.isEmpty && s.plan.queries.isEmpty && s.plan.loading.isNone
    && s.coll.building.isNone && s.xgs.go.isEmpty && s.xgs.said.isEmpty && s.xgs.active.isEmpty
    && (!s.flag F.JRN_CTRL_domain || s.jrn.live.all fun e => decide (e.2 ≤ tabGet s.jrn.taken e.1 0))

/-- BOUNDARY (R545): every condition holds. -/
def execBoundary (s : State) : Result :=
  .next (if s.get F.JRN_STATUS_state ≠ 3 ∨ !s.boundaryNext ∨ !s.boundaryQuiet
        ∨ ¬(s.get F.FARM_STATUS_state = 2 ∨ s.get F.FARM_STATUS_state = 3) then s
    else ((s.put F.FARM_STATUS_state 4).raise pgFARM Ev.FARM_boundary).telemetry 2 0)

/-- BOUNDARY_FAIL (R546): FARM_BOUNDARY_WAIT has passed since the record below the boundary was applied. -/
def execBoundaryFail (s : State) : Result :=
  .next (if s.get F.JRN_STATUS_state ≠ 3 ∨ !s.boundaryNext ∨ s.get F.FARM_STATUS_state = 4 then s
    else s.farmHold.raise pgFARM Ev.FARM_boundary_fail)

/-! ### Checkpoint images (R548 to R551) -/

/-- Where the checkpoint image lies. -/
def State.ckptAt (s : State) : Nat := s.addr F.FARM_CKPT_ADDR_LO_addr

/-- The regions that a header and its table list. -/
def ckptRegions (count : Nat) (table : List Byte) : List (Nat × Nat) :=
  (List.range count).map fun k => (fieldAt table (16 * k) 8, fieldAt table (16 * k + 8) 8)

/-- Bytes of an image with these regions (R548): 36 stored bytes for each word of 32. -/
def ckptLen (rs : List (Nat × Nat)) : Nat := 0x82000 + (rs.map fun r => r.2 / 32 * 36).sum

/-- Do regions keep to R548 and R550: 4 KiB aligned, in device memory, outside the channel spare, the reduction buffers and the image? -/
def State.ckptRegionsOk (s : State) (rs : List (Nat × Nat)) : Bool :=
  let a := s.ckptAt
  let n := ckptLen rs
  s.inDram a n && rs.all fun r =>
    decide (r.1 % 4096 = 0 ∧ r.2 % 4096 = 0) && s.inMemory r.1 r.2 && !touchesRedBuf r.1 r.2
      && decide (r.1 + r.2 ≤ a ∨ a + n ≤ r.1)

/-- A 256-bit word in 288/256 form: 32 bytes and their check bytes, xor 0xA5 where the word is poisoned (R373; assumption 43). -/
def codedWord (w : List Byte × Bool) : List Byte :=
  let c := bytesAt (Config.checkBytes w.1) 0 4
  w.1 ++ (if w.2 then c.map (· ^^^ 0xA5#8) else c)

/-- A region's words as an image holds them. -/
def State.codedRegion (s : State) (r : Nat × Nat) : List Byte :=
  (List.range (r.2 / 32)).flatMap fun k => codedWord (s.peek (r.1 + 32 * k) 32)

/-- Registers of the register image (R549): those with RW and RWV fields of pages 7 to 11 and 40 to 46, in page and offset order, with the
mask of those fields. The selected calibration entry is not among them: every entry follows them. -/
def imageRegs : List (Nat × Nat × Word) :=
  ([7, 8, 9, 10, 11, 40, 41, 42, 43, 44, 45, 46] : List Nat).flatMap fun p => (List.range 512).filterMap fun k =>
    match regAt p (4 * k) with
    | none => none
    | some d =>
      let m := BitVec.ofNat 32 (d.maskOf FAcc.writable)
      if m = 0#32 ∨ (p = 42 ∧ 0x180 ≤ 4 * k) then none else some (p, 4 * k, m)

/-- Is a register one that shows the sensor that FUS_SCFG_SEL selects? It stands in the image once for each sensor (assumption 48). -/
def perSensor (p off : Nat) : Bool := p == 41 && decide (0x104 ≤ off ∧ off ≤ 0x10C)

/-- The register image. -/
def State.regImage (s : State) : List Byte :=
  (imageRegs.flatMap fun r =>
    if perSensor r.1 r.2.1 then
      (List.range 64).flatMap fun k => leBytes 4 ((s.put F.FUS_SCFG_SEL_sensor k).shown r.1 r.2.1 &&& r.2.2).toNat
    else leBytes 4 (s.shown r.1 r.2.1 &&& r.2.2).toNat)
    ++ ((List.range 2048).flatMap fun k => leBytes 4 (tabGet s.proj.cal k 0#32).toNat)
    ++ ((List.range 64).flatMap fun e => (List.range 7).flatMap fun k => leBytes 4 ((tabGet s.proj.deltas e []).getD k 0))

/-- EGO's section of the state block: widths and places within it are the model's (assumption 48). -/
def State.egoBlock (s : State) : List Byte :=
  bytesAt (leBytes 4 (s.get F.EGO_POSE_COUNT_count) ++ leBytes 1 (s.get F.EGO_STATUS_src) ++ leBytes 1 (bitAt s.ego.some1 0) ++ leBytes 2 0
    ++ ((List.range 3).flatMap fun k => leBytes 8 (ofInt 64 (s.ego.pose.p.getD k 0)))
    ++ leBytes 4 s.ego.pose.q.w ++ leBytes 4 s.ego.pose.q.x ++ leBytes 4 s.ego.pose.q.y ++ leBytes 4 s.ego.pose.q.z
    ++ leBytes 4 s.ego.pose.v.x ++ leBytes 4 s.ego.pose.v.y ++ leBytes 4 s.ego.pose.v.z ++ leBytes 4 0
    ++ leBytes 8 s.ego.tPrev ++ ((List.range 6).flatMap fun k => leBytes 4 (s.ego.biases.getD k 0))) 0 128

/-- An entry of the late lane in 64 bytes (assumption 48). -/
def FusLate.bytes (l : FusLate) : List Byte :=
  bytesAt (leBytes 4 l.inst ++ leBytes 4 l.inp.seq ++ leBytes 8 l.inp.ts ++ leBytes 8 l.inp.pos ++ leBytes 8 l.inp.grid ++ leBytes 8 l.inp.dets
    ++ leBytes 4 l.inp.count ++ leBytes 1 l.inp.sensor ++ leBytes 1 l.inp.kind
    ++ leBytes 1 (1 + bitAt l.inp.used 1 + bitAt l.inp.bad 2 + bitAt l.lane 3)) 0 64

/-- The entry that 64 bytes spell. -/
def lateOf (b : List Byte) : Option FusLate :=
  let f := fieldAt b 46 1
  if f.testBit 0 then
    some ⟨fieldAt b 0 4, ⟨fieldAt b 4 4, fieldAt b 44 1, fieldAt b 45 1, fieldAt b 8 8, fieldAt b 16 8, fieldAt b 24 8, fieldAt b 32 8,
      fieldAt b 40 4, f.testBit 1, f.testBit 2, true⟩, f.testBit 3⟩
  else none

/-- FUS's section of the state block (assumption 48). -/
def State.fusBlock (s : State) : List Byte :=
  bytesAt (leBytes 4 s.fus.next ++ leBytes 4 (bitAt s.fus.lastReq.isSome 0) ++ leBytes 8 (s.fus.lastReq.getD 0)) 0 128
    ++ ((List.range 64).flatMap fun j =>
      let v := s.fusSensor j
      leBytes 1 v.lost ++ leBytes 1 v.kept ++ leBytes 1 (bitAt v.disputed 0) ++ leBytes 1 0)
    ++ bytesAt ((s.fus.late.take 64).flatMap FusLate.bytes) 0 4096

/-- The state block (R549). -/
def State.stateBlock (s : State) : List Byte :=
  let cur := match s.coll.current with
    | some b => b
    | none => 0
  bytesAt ((List.range 4096).flatMap fun o => leBytes 8 (s.fence o)) 0 0x8000
    ++ bytesAt (leBytes 8 s.jrnPos) 0 0x40
    ++ ((List.range 128).flatMap fun n => leBytes 4 (s.stream n).seq)
    ++ bytesAt ((List.range 128).flatMap fun n => leBytes 1 (s.stream n).score) 0 0xC0
    ++ bytesAt (leBytes 8 (s.get F.COLL_EPOCH_epoch + 65536 * cur)) 0 0x40
    ++ bytesAt (((List.range 64).flatMap fun k => leBytes 4 (tabGet s.plan.numbers k 0))
        ++ ((List.range 2).flatMap fun k => leBytes 8 (tabGet s.plan.maps k 0))) 0 0x140
    ++ s.egoBlock ++ bytesAt s.fusBlock 0 0x7B00
    ++ ((List.range 131072).map fun k => BitVec.ofNat 8 (((List.range 8).map fun j => bitAt (s.queue (8 * k + j)).enabled j).sum))
    ++ bytesAt s.regImage 0 131072 ++ List.replicate 196608 0#8

/-- The head job of each queue that is taken and not released goes back to its queue (R550). -/
def State.headsBack (s : State) : State :=
  let back := s.jobs.filter fun j => j.released.isNone
  back.foldl
    (fun s j =>
      let v := s.queue j.queue
      s.setQueue j.queue { v with
        consumer := (v.consumer + 2 ^ 32 - 1) % 2 ^ 32
        inFlight := v.inFlight - 1 })
    { s with jobs := s.jobs.filter fun j => j.released.isSome }

/-- The state of every enabled queue written back under R342; it stays enabled. -/
def State.queuesBack (s : State) : State :=
  s.queues.foldl
    (fun s e =>
      let v := e.2
      if v.enabled then
        s.store (s.queueAddr e.1 + 0x10) (leBytes 4 v.producer ++ leBytes 4 v.consumer ++ leBytes 4 v.inFlight
          ++ leBytes 4 (v.cause + (if v.faulted then 2 ^ 31 else 0)))
      else s) s

/-- The checkpoint image (R548). The header's count and the region table are what stands at FARM_CKPT_ADDR when the save begins
(assumption 48). -/
def State.ckptImage (s : State) (rs : List (Nat × Nat)) : List Byte :=
  let body := bytesAt (rs.flatMap fun r => leBytes 8 r.1 ++ leBytes 8 r.2) 0 4096 ++ s.stateBlock ++ rs.flatMap s.codedRegion
  [0x56#8, 0x43#8, 0x4B#8, 0x31#8] ++ leBytes 2 1 ++ leBytes 2 (s.get F.GEN_FW_REV_arith_rev) ++ leBytes 4 (s.get F.FARM_SEGMENT_number)
    ++ leBytes 4 rs.length ++ leBytes 8 s.boundary ++ leBytes 8 s.fuse.serial.toNat ++ leBytes 8 (ckptLen rs) ++ leBytes 24 0
    ++ sha3_512 body ++ leBytes 3968 0 ++ body

/-- A save begun: accepted at the boundary, with regions that keep to their rules (R550). -/
def State.farmSave (s : State) : State :=
  if s.get F.FARM_STATUS_state ≠ 4 then s.farmRefuse 9
  else
    let n := s.peekNat (s.ckptAt + 0xC) 4
    let rs := ckptRegions (min n 256) (s.bytes (s.ckptAt + 0x1000) 4096)
    if 256 < n ∨ !s.ckptRegionsOk rs then s.farmRefuse 6
    else
      let s1 := s.headsBack.queuesBack
      { s1.farmTaken.put F.FARM_STATUS_state 5 with farm := { s1.farm with save := some (s1.ckptImage rs) } }

/-- FARM_CKPT_DIGEST and FARM_CKPT_SIZE show an image. -/
def State.ckptShow (s : State) (b : List Byte) : State :=
  ((List.range 16).foldl (fun s k => s.put (F.FARM_CKPT_DIGEST_digest k) (fieldAt b (0x40 + 4 * k) 4)) s).put F.FARM_CKPT_SIZE_mib
    ((b.length + 1048575) / 1048576)

/-- SAVED (R550): the image is written and hashed. -/
def execSaved (s : State) : Result :=
  .next (match s.farm.save with
    | none => s
    | some b =>
      let s1 := ((s.store s.ckptAt b).ckptShow b).put F.FARM_STATUS_state 4
      { s1 with farm := { s1.farm with save := none } }.raise pgFARM Ev.FARM_saved)

/-- Is the header of an image well formed (R548)? -/
def ckptHeadOk (h : List Byte) : Bool :=
  let n := fieldAt h 0xC 4
  h.take 4 == [0x56#8, 0x43#8, 0x4B#8, 0x31#8] && fieldAt h 4 2 == 1 && decide (n ≤ 256) && (bytesAt h 0x28 24).all (· == 0#8)
    && (bytesAt h 0x80 3968).all (· == 0#8) && fieldAt h 0x20 8 == ckptLen (ckptRegions n (bytesAt h 0x1000 4096))
    && (bytesAt h (0x1000 + 16 * n) (4096 - 16 * n)).all (· == 0#8)

/-- A restore begun: the whole image is read and checked on a fresh module (R551). -/
def State.farmRestore (s : State) : State :=
  let a := s.ckptAt
  let h := s.bytes a 0x2000
  let n := fieldAt h 0x20 8
  if s.get F.FARM_STATUS_state ≠ 1 then s.farmRefuse 2
  else if s.poisonedAt a 0x2000 ∨ !ckptHeadOk h ∨ !s.inDram a n then s.farmRefuse 3
  else
    let b := s.bytes a n
    if s.poisonedAt a n ∨ bytesAt h 0x40 64 ≠ sha3_512 (b.drop 0x1000) then s.farmRefuse 4
    else if fieldAt h 6 2 ≠ s.get F.GEN_FW_REV_arith_rev then s.farmRefuse 5
    else if !s.ckptRegionsOk (ckptRegions (fieldAt h 0xC 4) (bytesAt h 0x1000 4096)) then s.farmRefuse 6
    else { s.farmTaken.put F.FARM_STATUS_state 6 with farm := { s.farm with restore := some b } }

/-- A write of FARM_CTRL: what its bits ask for, in the order of the bits (assumption 80). -/
def State.farmCtrl (s : State) (w : Word) : State :=
  let on := fun (b : Nat) (f : State → State) (s : State) => if w.getLsbD b then f s else s
  on 5 State.farmDisarm (on 4 State.farmArm (on 2 State.farmRestore (on 1 State.farmSave (on 0 State.farmContinue s))))

/-- CONTINUE (R547). -/
def execFarmContinue (acc : Acc) (s : State) : Result := .next (s.command pgFARM 0x020 acc State.farmCtrl)

/-- ARM (R545). -/
def execArm (acc : Acc) (s : State) : Result := .next (s.command pgFARM 0x020 acc State.farmCtrl)

/-- DISARM. -/
def execDisarm (acc : Acc) (s : State) : Result := .next (s.command pgFARM 0x020 acc State.farmCtrl)

/-- SAVE (R550). -/
def execSave (acc : Acc) (s : State) : Result := .next (s.command pgFARM 0x020 acc State.farmCtrl)

/-- RESTORE (R551). -/
def execRestore (acc : Acc) (s : State) : Result := .next (s.command pgFARM 0x020 acc State.farmCtrl)

/-- On-package SRAM but for the reduction buffers: base and length of each piece. -/
def sramPieces : List (Nat × Nat) :=
  ((List.range 4).map fun n => (stackBase n, 0x10000000)) ++ ((List.range 4).map fun n => (poolBase n, 0x3E00000)) ++ [(hubBase, 0x6000000)]

/-- On-package SRAM outside the listed regions cleared to coded zeros (R551). -/
def State.sramClear (s : State) (rs : List (Nat × Nat)) : State :=
  let clear := fun (a : Nat) => (sramPieces.any fun p => decide (p.1 ≤ a ∧ a < p.1 + p.2)) && !rs.any fun r => decide (r.1 ≤ a ∧ a < r.1 + r.2)
  { s with
    mem := s.mem.filter fun c => !clear c.1
    cond := s.cond.filter fun c => !clear (32 * c.1) }

/-- The words of a region written from 288/256 form; one whose check bytes are not those of its data is stored as poison. -/
def State.regionBack (s : State) (r : Nat × Nat) (b : List Byte) : State :=
  (List.range (r.2 / 32)).foldl
    (fun s k =>
      let d := bytesAt b (36 * k) 32
      s.store (r.1 + 32 * k) d (bytesAt b (36 * k + 32) 4 ≠ bytesAt (Config.checkBytes d) 0 4)) s

/-- Every region written, in table order. -/
def State.regionsBack (s : State) : List (Nat × Nat) → List Byte → State
  | [], _ => s
  | r :: t, b => (s.regionBack r b).regionsBack t (b.drop (r.2 / 32 * 36))

/-- A register of the register image written. JRN_CTRL.mode stays: a replay begins by its own command (R552; assumption 48). -/
def State.imageReg (s : State) (p off : Nat) (mask v : Word) : State :=
  let m := if p = pgJRN ∧ off = 0x20 then mask &&& ~~~3#32 else mask
  let w := (s.regWord p off &&& ~~~m) ||| (v &&& m)
  match pageRun p with
  | some r => (s.setView r.blk (p - r.first) off w).getD (s.putWord p off w)
  | none => s

/-- A per-sensor register written for every sensor. -/
def State.imageSensors (s : State) (p off : Nat) (mask : Word) (b : List Byte) : State :=
  let sel := s.get F.FUS_SCFG_SEL_sensor
  ((List.range 64).foldl (fun s k =>
    (s.put F.FUS_SCFG_SEL_sensor k).imageReg p off mask (BitVec.ofNat 32 (fieldAt b (4 * k) 4))) s).put F.FUS_SCFG_SEL_sensor sel

/-- The registers of the image written from its bytes; what is left of them. -/
def State.imageRegsBack (s : State) : List (Nat × Nat × Word) → List Byte → State × List Byte
  | [], b => (s, b)
  | (p, off, m) :: t, b =>
    if perSensor p off then (s.imageSensors p off m b).imageRegsBack t (b.drop 256)
    else (s.imageReg p off m (BitVec.ofNat 32 (fieldAt b 0 4))).imageRegsBack t (b.drop 4)

/-- The register image written (R551), with the calibration entries and deltas. A delta all of whose words are 0 is none. -/
def State.registersBack (s : State) (b : List Byte) : State :=
  let r := s.imageRegsBack imageRegs b
  let cal := (List.range 2048).foldl (fun (t : Tab Word) k =>
    let v := BitVec.ofNat 32 (fieldAt r.2 (4 * k) 4)
    if v = 0#32 then t else tabSet t k v) []
  let d := r.2.drop 8192
  let deltas := (List.range 64).foldl (fun (t : Tab (List Nat)) e =>
    let v := (List.range 7).map fun k => fieldAt d (28 * e + 4 * k) 4
    if v.all (· == 0) then t else tabSet t e v) []
  { r.1 with proj := { r.1.proj with
      cal := cal
      deltas := deltas } }

/-- Fence objects, the next fence position, ingress numbers and scores, COLL and PLAN of the state block. -/
def State.blockBack (s : State) (b : List Byte) : State :=
  let fences := (List.range 4096).foldl (fun (t : Tab Nat) o =>
    let v := fieldAt b (8 * o) 8
    if v = 0 then t else tabSet t o v) []
  let s1 := { s with fences := fences }.putAddr F.JRN_POS_LO_position (fieldAt b 0x8000 8)
  let s2 := (List.range 128).foldl (fun s n => s.modStream n fun v => { v with
    seq := fieldAt b (0x8040 + 4 * n) 4
    scoreC := .of (fieldAt b (0x8240 + n) 1) }) s1
  let c := fieldAt b 0x8300 8
  let e := c % 65536
  let cur := if e = 0 then none else some (c / 65536 % 2)
  let numbers := (List.range 64).foldl (fun (t : Tab Nat) k => tabSet t k (fieldAt b (0x8340 + 4 * k) 4)) []
  let maps := (List.range 2).foldl (fun (t : Tab Nat) k =>
    let a := fieldAt b (0x8440 + 8 * k) 8
    if a = 0 then t else tabSet t k a) []
  { s2.put F.COLL_EPOCH_epoch e with
    coll := {
      current := cur
      inUse := cur.toList }
    plan := {
      numbers := numbers
      maps := maps } }

/-- EGO of the state block. -/
def State.egoBack (s : State) (b : List Byte) : State :=
  let w := fun (o : Nat) => fieldAt b o 4
  let pose : Pose := ⟨(List.range 3).map fun k => toSigned 64 (fieldAt b (8 + 8 * k) 8), ⟨w 32, w 36, w 40, w 44⟩, ⟨w 48, w 52, w 56⟩⟩
  { (s.put F.EGO_POSE_COUNT_count (w 0)).put F.EGO_STATUS_src (fieldAt b 4 1) with
    ego := {
      pose := pose
      some1 := (fieldAt b 5 1).testBit 0
      tPrev := fieldAt b 64 8
      biases := (List.range 6).map fun k => w (72 + 4 * k) }
    egoIn := [] }

/-- FUS of the state block. The live contexts are those that the track memory marks live. -/
def State.fusBack (s : State) (b : List Byte) : State :=
  let req := if (fieldAt b 4 1).testBit 0 then some (fieldAt b 8 8) else none
  let s1 := (List.range 64).foldl (fun s j => s.modSensor j fun v => { v with
    lost := fieldAt b (128 + 4 * j) 1
    kept := fieldAt b (129 + 4 * j) 1
    disputedC := .of (fieldAt b (130 + 4 * j) 1 % 2) }) s
  let live := if s.flag F.FUS_CTRL_enable then
      (List.range 262144).filter fun k => (s.peekNat (s.fusTrackBase + 256 * k) 4).testBit 24
    else []
  { s1 with fus := { s1.fus with
      next := fieldAt b 0 4
      lastReq := req
      tLast := req
      live := live
      late := (List.range 64).filterMap fun k => lateOf (bytesAt b (384 + 64 * k) 64) } }

/-- A page's status as it stands while its block is enabled. -/
def State.statusUp (s : State) (en st : Fld) (v : Nat) : State := s.put st (if s.flag en then v else 0)

/-- The streams that the register image enables read their descriptors again and keep their numbers and scores. -/
def State.streamsAgain (s : State) : State :=
  (List.range 128).foldl
    (fun s n =>
      if s.streamOn n then
        let v := s.stream n
        ((s.putStreamOn n false).streamEnable n).modStream n fun u => { u with
          seq := v.seq
          scoreC := v.scoreC }
      else s) s

/-- Blocks that the register image enables run again, COLL and PLAN with the bases that it gives them (R310); KV sweeps with format clear
(R199, R551). The margin of a current buffer is COLL_MARGIN. -/
def State.blocksBack (s : State) : State :=
  let s1 := ((((s.statusUp F.COLL_CTRL_enable F.COLL_STATUS_state 1).statusUp F.PROJ_CTRL_enable F.PROJ_STATUS_state 1).statusUp
    F.FUS_CTRL_enable F.FUS_STATUS_state 1).statusUp F.EGO_CTRL_enable F.EGO_STATUS_state (if s.ego.some1 then 2 else 1)).statusUp
    F.KV_CTRL_enable F.KV_STATUS_state 1
  let s2 := { s1.collBases with
    kv := {}
    coll := { s1.collBases.coll with margins := s1.coll.inUse.map fun b => (b, s1.get F.COLL_MARGIN_mm) }
    plan := { s1.plan with base := s1.addr F.PLAN_SLOT_BASE_LO_base } }
  ((((s2.put F.FUS_INSTANT_number (s2.fus.next - 1)).put F.FUS_TRACKS_live s2.fus.live.length).collShow.planShow).afterWrite .det 0
    0x20).streamsAgain

/-- The queues that the state block marks enabled. -/
def State.queuesOn (s : State) (b : List Byte) : State :=
  b.zipIdx.foldl
    (fun s e =>
      let m := e.1.toNat
      if m = 0 then s
      else (List.range 8).foldl (fun s j => if m.testBit j then s.queueEnable (8 * e.2 + j) else s) s) s

/-- RESTORED (R551, R553): SRAM, regions, state block and registers are written, QENG and the queues enabled. -/
def execRestored (s : State) : Result :=
  .next (match s.farm.restore with
    | none => s
    | some b =>
      let rs := ckptRegions (fieldAt b 0xC 4) (bytesAt b 0x1000 4096)
      let blk := bytesAt b 0x2000 0x80000
      let s1 := ((s.sramClear rs).regionsBack rs (b.drop 0x82000)).registersBack (blk.drop 0x30000)
      let s2 := (((s1.blockBack blk).egoBack (bytesAt blk 0x8480 128)).fusBack (bytesAt blk 0x8500 4480)).blocksBack
      let s3 := ((s2.put F.QENG_CTRL_enable 1).put F.QENG_STATUS_state 1).queuesOn (bytesAt blk 0x10000 131072)
      let s4 := { s3 with farm := { s3.farm with
          restore := none
          fresh := false } }.farmBegin
      (((s4.put F.FARM_STATUS_state 0).put F.FARM_SEGMENT_number ((fieldAt b 8 4 + 1) % 2 ^ 32)).ckptShow b).raise pgFARM
        Ev.FARM_restored)

/-! ### Progress and telemetry (R553, R554) -/

/-- STRAGGLER (R553): FARM_STRAGGLE_MS after the segment began the position has not been reached; once in a segment. -/
def execStraggler (s : State) : Result :=
  .next (if s.get F.FARM_STRAGGLE_MS_ms = 0 ∨ !s.farm.began ∨ s.farm.toldSlow
        ∨ s.addr F.FARM_STRAGGLE_LO_position ≤ s.addr F.JRN_REPLAY_POS_LO_position then s
    else ({ s with farm := { s.farm with toldSlow := true } }.raise pgFARM Ev.FARM_straggler).telemetry 3 0)

/-- PERIODIC (R554). -/
def execPeriodic (s : State) : Result := .next (if s.get F.FARM_TELEM_period_ms = 0 then s else s.telemetry 1 0)

/-! ### Takeover and relinking (R555, R556) -/

/-- TAKEOVER (R555): the domain forms anew with the ID of a lost member. -/
def execTakeover (acc : Acc) (s : State) : Result :=
  .next (s.command pgFARM 0x0C0 acc fun s w =>
    if !w.getLsbD 31 then s
    else if !s.flag F.XGS_CTRL_enable ∨ s.flag F.XGS_DOMAIN_twin then (s.put F.FARM_TAKEOVER_refused 1).farmRefuse 8
    else
      let s1 := ((s.put F.FARM_TAKEOVER_refused 0).farmTaken.put F.XGS_DOMAIN_id (s.get F.FARM_TAKEOVER_id)).put F.XGS_DOMAIN_auto 0
      { s1 with farm := { s1.farm with taking := true } }.domainForm)

/-- Routes to every member computed anew (R416, R556). -/
def State.reroute (s : State) : State :=
  let recs := s.allRecs
  { s with xgs := { s.xgs with members := s.xgs.members.map fun m =>
      let r := s.routeTo recs m.2.serial
      (m.1, { m.2 with
        link := r.1
        hops := r.2 }) } }

/-- RELINK (R556). -/
def execRelink (acc : Acc) (s : State) : Result :=
  .next (s.command pgFARM 0x0D0 acc fun s w =>
    if !w.getLsbD 31 then s
    else
      let l := s.get F.FARM_RELINK_link
      if !s.flag (F.XL_CTRL_enable l) ∨ s.relinking l then s.put F.FARM_RELINK_refused 1
      else
        let s1 := (s.put F.FARM_RELINK_refused 0).put F.FARM_RELINK_relinking (s.get F.FARM_RELINK_relinking ||| 2 ^ l)
        { s1 with farm := { s1.farm with relink := tabSet s1.farm.relink l s1.hubUs } }.reroute)

/-- RELINK_EXPIRED (R556): the link is not up in time; it counts as gone down at this moment. -/
def execRelinkExpired (l : Fin 8) (s : State) : Result :=
  .next (if !s.relinking l.val then s
    else (((s.relinkEnd l.val).linkDown l.val 0).raise pgFARM Ev.FARM_relink_expired).telemetry 6 l.val)

end Sys2Proof.Machine
end

