-- ==== Sys2Proof/Machine/Dispatch.lean ====
section
/-! DEFINITION. The effect of each command: one arm per row of the opcode table. -/

namespace Sys2Proof.Machine

def exec (i : Instr) (s : State) : Host.Outcome State Fault Refusal :=
  match i with
  | .hingeFlit e f => Sys2Proof.Machine.execHingeFlit e f s
  | .hingeLinkDown e => Sys2Proof.Machine.execHingeLinkDown e s
  | .stop isl d => Sys2Proof.Machine.execStop isl d s
  | .fence isl d => Sys2Proof.Machine.execFence isl d s
  | .reset isl d => Sys2Proof.Machine.execReset isl d s
  | .release isl d => Sys2Proof.Machine.execRelease isl d s
  | .readId isl d => Sys2Proof.Machine.execReadId isl d s
  | .readFault isl d => Sys2Proof.Machine.execReadFault isl d s
  | .tapCommandDrop isl d => Sys2Proof.Machine.execTapCommandDrop isl d s
  | .discovery => Sys2Proof.Machine.execDiscovery s
  | .discoveryAnswer p ans => Sys2Proof.Machine.execDiscoveryAnswer p ans s
  | .discAnswerTimeout p => Sys2Proof.Machine.execDiscAnswerTimeout p s
  | .topologyCopy isl => Sys2Proof.Machine.execTopologyCopy isl s
  | .rediscovery d ans => Sys2Proof.Machine.execRediscovery d ans s
  | .rescan acc ans => Sys2Proof.Machine.execRescan acc ans s
  | .admissionStart => Sys2Proof.Machine.execAdmissionStart s
  | .ucieTrainingDone => Sys2Proof.Machine.execUcieTrainingDone s
  | .chainReceived cert inter => Sys2Proof.Machine.execChainReceived cert inter s
  | .chainVerified => Sys2Proof.Machine.execChainVerified s
  | .admissionOverrun => Sys2Proof.Machine.execAdmissionOverrun s
  | .commit acc => Sys2Proof.Machine.execCommit acc s
  | .commitApply => Sys2Proof.Machine.execCommitApply s
  | .readmit acc => Sys2Proof.Machine.execReadmit acc s
  | .dikeFence acc => Sys2Proof.Machine.execDikeFence acc s
  | .dikeEnableClear acc => Sys2Proof.Machine.execDikeEnableClear acc s
  | .xsRequest r => Sys2Proof.Machine.execXsRequest r s
  | .xsRequestUnstall => Sys2Proof.Machine.execXsRequestUnstall s
  | .ucieLinkLoss => Sys2Proof.Machine.execUcieLinkLoss s
  | .h2xRing acc => Sys2Proof.Machine.execH2xRing acc s
  | .x2hAck acc => Sys2Proof.Machine.execX2hAck acc s
  | .h2xAck => Sys2Proof.Machine.execH2xAck s
  | .x2hPost => Sys2Proof.Machine.execX2hPost s
  | .h2xDataWrite k acc => Sys2Proof.Machine.execH2xDataWrite k acc s
  | .gridSample d temps => Sys2Proof.Machine.execGridSample d temps s
  | .stThrWrite n k acc => Sys2Proof.Machine.execStThrWrite n k acc s
  | .stHystWrite n acc => Sys2Proof.Machine.execStHystWrite n acc s
  | .resetReq d acc => Sys2Proof.Machine.execResetReq d acc s
  | .clkStepWrite d acc => Sys2Proof.Machine.execClkStepWrite d acc s
  | .registerWrite page off acc => Sys2Proof.Machine.execRegisterWrite page off acc s
  | .rcRead page off view be req => Sys2Proof.Machine.execRcRead page off view be req s
  | .blkLevelWrite page acc => Sys2Proof.Machine.execBlkLevelWrite page acc s
  | .unlockTimeout page => Sys2Proof.Machine.execUnlockTimeout page s
  | .genHostExpertWrite acc => Sys2Proof.Machine.execGenHostExpertWrite acc s
  | .tumblerScrub page => Sys2Proof.Machine.execTumblerScrub page s
  | .blockReset acc => Sys2Proof.Machine.execBlockReset acc s
  | .blockResetDone => Sys2Proof.Machine.execBlockResetDone s
  | .moduleResetReq acc => Sys2Proof.Machine.execModuleResetReq acc s
  | .slotStart n j slot => Sys2Proof.Machine.execSlotStart n j slot s
  | .programLoadDone n => Sys2Proof.Machine.execProgramLoadDone n s
  | .instructionComplete n u => Sys2Proof.Machine.execInstructionComplete n u s
  | .nop n => Sys2Proof.Machine.execNop n s
  | .endSlot n => Sys2Proof.Machine.execEndSlot n s
  | .jmp n => Sys2Proof.Machine.execJmp n s
  | .brz n => Sys2Proof.Machine.execBrz n s
  | .brnz n => Sys2Proof.Machine.execBrnz n s
  | .loop n => Sys2Proof.Machine.execLoop n s
  | .call n => Sys2Proof.Machine.execCall n s
  | .ret n => Sys2Proof.Machine.execRet n s
  | .sli n => Sys2Proof.Machine.execSli n s
  | .slih n => Sys2Proof.Machine.execSlih n s
  | .sadd n => Sys2Proof.Machine.execSadd n s
  | .ssub n => Sys2Proof.Machine.execSsub n s
  | .smul n => Sys2Proof.Machine.execSmul n s
  | .sget n => Sys2Proof.Machine.execSget n s
  | .fenceA n => Sys2Proof.Machine.execFenceA n s
  | .fenceD n => Sys2Proof.Machine.execFenceD n s
  | .fenceP n => Sys2Proof.Machine.execFenceP n s
  | .fenceX n => Sys2Proof.Machine.execFenceX n s
  | .fenceDone n => Sys2Proof.Machine.execFenceDone n s
  | .barD n => Sys2Proof.Machine.execBarD n s
  | .barP n => Sys2Proof.Machine.execBarP n s
  | .barrierRelease n => Sys2Proof.Machine.execBarrierRelease n s
  | .fwait n => Sys2Proof.Machine.execFwait n s
  | .fwaitSatisfied n => Sys2Proof.Machine.execFwaitSatisfied n s
  | .fsig n => Sys2Proof.Machine.execFsig n s
  | .rowwait n => Sys2Proof.Machine.execRowwait n s
  | .rowwaitT n => Sys2Proof.Machine.execRowwaitT n s
  | .rowwaitSatisfied n => Sys2Proof.Machine.execRowwaitSatisfied n s
  | .rowwaitTExpiry n => Sys2Proof.Machine.execRowwaitTExpiry n s
  | .rowpub n => Sys2Proof.Machine.execRowpub n s
  | .rdslot n => Sys2Proof.Machine.execRdslot n s
  | .ld n => Sys2Proof.Machine.execLd n s
  | .st n => Sys2Proof.Machine.execSt n s
  | .ldt n => Sys2Proof.Machine.execLdt n s
  | .stt n => Sys2Proof.Machine.execStt n s
  | .gather n => Sys2Proof.Machine.execGather n s
  | .scatter n => Sys2Proof.Machine.execScatter n s
  | .scatadd n => Sys2Proof.Machine.execScatadd n s
  | .scataddS n => Sys2Proof.Machine.execScataddS n s
  | .lbcopy n => Sys2Proof.Machine.execLbcopy n s
  | .lbfill n => Sys2Proof.Machine.execLbfill n s
  | .dot n => Sys2Proof.Machine.execDot n s
  | .conv n => Sys2Proof.Machine.execConv n s
  | .contractionResume n => Sys2Proof.Machine.execContractionResume n s
  | .partialArrival k => Sys2Proof.Machine.execPartialArrival k s
  | .redGet n => Sys2Proof.Machine.execRedGet n s
  | .redGetComplete n => Sys2Proof.Machine.execRedGetComplete n s
  | .fft n => Sys2Proof.Machine.execFft n s
  | .ifft n => Sys2Proof.Machine.execIfft n s
  | .spmul n => Sys2Proof.Machine.execSpmul n s
  | .kvexp n => Sys2Proof.Machine.execKvexp n s
  | .vadd n => Sys2Proof.Machine.execVadd n s
  | .vsub n => Sys2Proof.Machine.execVsub n s
  | .vmul n => Sys2Proof.Machine.execVmul n s
  | .vfma n => Sys2Proof.Machine.execVfma n s
  | .vdiv n => Sys2Proof.Machine.execVdiv n s
  | .vsqrt n => Sys2Proof.Machine.execVsqrt n s
  | .vmin n => Sys2Proof.Machine.execVmin n s
  | .vmax n => Sys2Proof.Machine.execVmax n s
  | .vcmp n => Sys2Proof.Machine.execVcmp n s
  | .vsel n => Sys2Proof.Machine.execVsel n s
  | .viadd n => Sys2Proof.Machine.execViadd n s
  | .vsh n => Sys2Proof.Machine.execVsh n s
  | .vand n => Sys2Proof.Machine.execVand n s
  | .vor n => Sys2Proof.Machine.execVor n s
  | .vcvt n => Sys2Proof.Machine.execVcvt n s
  | .vcvtmx n => Sys2Proof.Machine.execVcvtmx n s
  | .vredsum n => Sys2Proof.Machine.execVredsum n s
  | .vredmax n => Sys2Proof.Machine.execVredmax n s
  | .trans n => Sys2Proof.Machine.execTrans n s
  | .shuf n => Sys2Proof.Machine.execShuf n s
  | .pack n => Sys2Proof.Machine.execPack n s
  | .unpack n => Sys2Proof.Machine.execUnpack n s
  | .vrcpF n => Sys2Proof.Machine.execVrcpF n s
  | .vrsqF n => Sys2Proof.Machine.execVrsqF n s
  | .vexpF n => Sys2Proof.Machine.execVexpF n s
  | .vlogF n => Sys2Proof.Machine.execVlogF n s
  | .rdcyc n => Sys2Proof.Machine.execRdcyc n s
  | .rdid n => Sys2Proof.Machine.execRdid n s
  | .ckdig n => Sys2Proof.Machine.execCkdig n s
  | .lbsig n => Sys2Proof.Machine.execLbsig n s
  | .brk n => Sys2Proof.Machine.execBrk n s
  | .slotStop n => Sys2Proof.Machine.execSlotStop n s
  | .arrayDrainDone n => Sys2Proof.Machine.execArrayDrainDone n s
  | .halt n acc => Sys2Proof.Machine.execHalt n acc s
  | .resume n acc => Sys2Proof.Machine.execResume n acc s
  | .abort n acc => Sys2Proof.Machine.execAbort n acc s
  | .arrCapDisableWrite n acc => Sys2Proof.Machine.execArrCapDisableWrite n acc s
  | .arrInjectOneByte n acc => Sys2Proof.Machine.execArrInjectOneByte n acc s
  | .arrInjectTwoBytes n acc => Sys2Proof.Machine.execArrInjectTwoBytes n acc s
  | .kvResolve n => Sys2Proof.Machine.execKvResolve n s
  | .pinRelease n => Sys2Proof.Machine.execPinRelease n s
  | .kvWriteRequest n => Sys2Proof.Machine.execKvWriteRequest n s
  | .cowCopyDone n => Sys2Proof.Machine.execCowCopyDone n s
  | .cowCommit n => Sys2Proof.Machine.execCowCommit n s
  | .kvWriteResume n => Sys2Proof.Machine.execKvWriteResume n s
  | .seqOpen j => Sys2Proof.Machine.execSeqOpen j s
  | .seqClose j => Sys2Proof.Machine.execSeqClose j s
  | .share j => Sys2Proof.Machine.execShare j s
  | .free j => Sys2Proof.Machine.execFree j s
  | .alloc j => Sys2Proof.Machine.execAlloc j s
  | .kvEnable acc => Sys2Proof.Machine.execKvEnable acc s
  | .kvSweepDone => Sys2Proof.Machine.execKvSweepDone s
  | .kvDisable acc => Sys2Proof.Machine.execKvDisable acc s
  | .kvResume acc => Sys2Proof.Machine.execKvResume acc s
  | .streamEnable k acc => Sys2Proof.Machine.execStreamEnable k acc s
  | .streamDisable k acc => Sys2Proof.Machine.execStreamDisable k acc s
  | .csiPacket r p => Sys2Proof.Machine.execCsiPacket r p s
  | .ethFrame m f => Sys2Proof.Machine.execEthFrame m f s
  | .spiFrame isl data => Sys2Proof.Machine.execSpiFrame isl data s
  | .canFdFrame isl ctl f => Sys2Proof.Machine.execCanFdFrame isl ctl f s
  | .xsItemReturn k item => Sys2Proof.Machine.execXsItemReturn k item s
  | .itemCommit k => Sys2Proof.Machine.execItemCommit k s
  | .dropRecord k => Sys2Proof.Machine.execDropRecord k s
  | .stale k => Sys2Proof.Machine.execStale k s
  | .wardPoint k => Sys2Proof.Machine.execWardPoint k s
  | .wardRun k a => Sys2Proof.Machine.execWardRun k a s
  | .preempt k => Sys2Proof.Machine.execPreempt k s
  | .wardJobDone k us => Sys2Proof.Machine.execWardJobDone k us s
  | .overrun k => Sys2Proof.Machine.execOverrun k s
  | .wardBudgetRefill d => Sys2Proof.Machine.execWardBudgetRefill d s
  | .egoEnable acc => Sys2Proof.Machine.execEgoEnable acc s
  | .inertialItem => Sys2Proof.Machine.execInertialItem s
  | .wheelItem => Sys2Proof.Machine.execWheelItem s
  | .projEnable acc => Sys2Proof.Machine.execProjEnable acc s
  | .p2i j => Sys2Proof.Machine.execP2i j s
  | .p2g j => Sys2Proof.Machine.execP2g j s
  | .f2g j => Sys2Proof.Machine.execF2g j s
  | .delta j => Sys2Proof.Machine.execDelta j s
  | .bias j => Sys2Proof.Machine.execBias j s
  | .fusEnable acc => Sys2Proof.Machine.execFusEnable acc s
  | .fusResume acc => Sys2Proof.Machine.execFusResume acc s
  | .instantRequest j => Sys2Proof.Machine.execInstantRequest j s
  | .fusionInput sensor seq => Sys2Proof.Machine.execFusionInput sensor seq s
  | .fusionTimeout sensor => Sys2Proof.Machine.execFusionTimeout sensor s
  | .instantRelease => Sys2Proof.Machine.execInstantRelease s
  | .instantInputsReady => Sys2Proof.Machine.execInstantInputsReady s
  | .instantDeadline => Sys2Proof.Machine.execInstantDeadline s
  | .collEnable acc => Sys2Proof.Machine.execCollEnable acc s
  | .publish j => Sys2Proof.Machine.execPublish j s
  | .gridBuildDone => Sys2Proof.Machine.execGridBuildDone s
  | .retire => Sys2Proof.Machine.execRetire s
  | .load j => Sys2Proof.Machine.execLoad j s
  | .roadmapCheck j => Sys2Proof.Machine.execRoadmapCheck j s
  | .reflexQuery u => Sys2Proof.Machine.execReflexQuery u s
  | .reflexVerdict u ns => Sys2Proof.Machine.execReflexVerdict u ns s
  | .plan j => Sys2Proof.Machine.execPlan j s
  | .sweepStart slot => Sys2Proof.Machine.execSweepStart slot s
  | .sweepDone slot ns => Sys2Proof.Machine.execSweepDone slot ns s
  | .selectionDone e => Sys2Proof.Machine.execSelectionDone e s
  | .attemptDone e => Sys2Proof.Machine.execAttemptDone e s
  | .planDeadline slot => Sys2Proof.Machine.execPlanDeadline slot s
  | .planEnable acc => Sys2Proof.Machine.execPlanEnable acc s
  | .planResume acc => Sys2Proof.Machine.execPlanResume acc s
  | .record acc => Sys2Proof.Machine.execRecord acc s
  | .replay acc => Sys2Proof.Machine.execReplay acc s
  | .jrnOff acc => Sys2Proof.Machine.execJrnOff acc s
  | .segment acc => Sys2Proof.Machine.execSegment acc s
  | .jrnStop acc => Sys2Proof.Machine.execJrnStop acc s
  | .journalWrite => Sys2Proof.Machine.execJournalWrite s
  | .headerCheckDone => Sys2Proof.Machine.execHeaderCheckDone s
  | .replayApply => Sys2Proof.Machine.execReplayApply s
  | .replayRemoteSignal => Sys2Proof.Machine.execReplayRemoteSignal s
  | .replayStall => Sys2Proof.Machine.execReplayStall s
  | .qEnable acc => Sys2Proof.Machine.execQEnable acc s
  | .qDisable acc => Sys2Proof.Machine.execQDisable acc s
  | .qWriteback q => Sys2Proof.Machine.execQWriteback q s
  | .resetIndices acc => Sys2Proof.Machine.execResetIndices acc s
  | .doorbell q be index poisoned => Sys2Proof.Machine.execDoorbell q be index poisoned s
  | .jobTake => Sys2Proof.Machine.execJobTake s
  | .jobRelease j => Sys2Proof.Machine.execJobRelease j s
  | .jobPlace j arrays => Sys2Proof.Machine.execJobPlace j arrays s
  | .jobComplete j => Sys2Proof.Machine.execJobComplete j s
  | .completionRecord cq => Sys2Proof.Machine.execCompletionRecord cq s
  | .qengAbort acc => Sys2Proof.Machine.execQengAbort acc s
  | .copy j => Sys2Proof.Machine.execCopy j s
  | .fill j => Sys2Proof.Machine.execFill j s
  | .fenceInc acc => Sys2Proof.Machine.execFenceInc acc s
  | .fenceSet acc => Sys2Proof.Machine.execFenceSet acc s
  | .dramWrite addr data mask poison => Sys2Proof.Machine.execDramWrite addr data mask poison s
  | .dramRead addr found => Sys2Proof.Machine.execDramRead addr found s
  | .train acc => Sys2Proof.Machine.execTrain acc s
  | .trainingStepDone failed temps dip => Sys2Proof.Machine.execTrainingStepDone failed temps dip s
  | .segmentSwept => Sys2Proof.Machine.execSegmentSwept s
  | .temperatureRead p celsius => Sys2Proof.Machine.execTemperatureRead p celsius s
  | .mr4Read c rate hot => Sys2Proof.Machine.execMr4Read c rate hot s
  | .refresh c bank => Sys2Proof.Machine.execRefresh c bank s
  | .retrain k acc => Sys2Proof.Machine.execRetrain k acc s
  | .retrainDone k us => Sys2Proof.Machine.execRetrainDone k us s
  | .flush k acc => Sys2Proof.Machine.execFlush k acc s
  | .flushDone k => Sys2Proof.Machine.execFlushDone k s
  | .patrolScrub k codes => Sys2Proof.Machine.execPatrolScrub k codes s
  | .rowRetireDone k => Sys2Proof.Machine.execRowRetireDone k s
  | .channelRetire acc => Sys2Proof.Machine.execChannelRetire acc s
  | .channelRestore acc => Sys2Proof.Machine.execChannelRestore acc s
  | .channelCopyDone => Sys2Proof.Machine.execChannelCopyDone s
  | .parkPrep acc => Sys2Proof.Machine.execParkPrep acc s
  | .parkReady => Sys2Proof.Machine.execParkReady s
  | .parkRestore acc drifted => Sys2Proof.Machine.execParkRestore acc drifted s
  | .memoryTest acc => Sys2Proof.Machine.execMemoryTest acc s
  | .testDone failed => Sys2Proof.Machine.execTestDone failed s
  | .mcSpillWrite k acc => Sys2Proof.Machine.execMcSpillWrite k acc s
  | .mcRemapEntryWrite k acc => Sys2Proof.Machine.execMcRemapEntryWrite k acc s
  | .mcInjectOneByte k acc => Sys2Proof.Machine.execMcInjectOneByte k acc s
  | .mcInjectTwoBytes k acc => Sys2Proof.Machine.execMcInjectTwoBytes k acc s
  | .psrRead isl acc => Sys2Proof.Machine.execPsrRead isl acc s
  | .norRead isl acc => Sys2Proof.Machine.execNorRead isl acc s
  | .readDone isl src => Sys2Proof.Machine.execReadDone isl src s
  | .bar2Write t => Sys2Proof.Machine.execBar2Write t s
  | .bar2Read t => Sys2Proof.Machine.execBar2Read t s
  | .hostReadCompletion tag status data => Sys2Proof.Machine.execHostReadCompletion tag status data s
  | .completionTimeout tag => Sys2Proof.Machine.execCompletionTimeout tag s
  | .msiSend v => Sys2Proof.Machine.execMsiSend v s
  | .perst => Sys2Proof.Machine.execPerst s
  | .hotReset => Sys2Proof.Machine.execHotReset s
  | .pcieLinkDown => Sys2Proof.Machine.execPcieLinkDown s
  | .d3hotExit => Sys2Proof.Machine.execD3hotExit s
  | .pcieRetrain acc => Sys2Proof.Machine.execPcieRetrain acc s
  | .xagusWrite l f => Sys2Proof.Machine.execXagusWrite l f s
  | .readRequest l f => Sys2Proof.Machine.execReadRequest l f s
  | .readReturn l f => Sys2Proof.Machine.execReadReturn l f s
  | .writeAcknowledge l f => Sys2Proof.Machine.execWriteAcknowledge l f s
  | .remoteSignal l f => Sys2Proof.Machine.execRemoteSignal l f s
  | .signalAcknowledge l f => Sys2Proof.Machine.execSignalAcknowledge l f s
  | .hello l f => Sys2Proof.Machine.execHello l f s
  | .linkState l f => Sys2Proof.Machine.execLinkState l f s
  | .collectiveData l f => Sys2Proof.Machine.execCollectiveData l f s
  | .collectiveControl l f => Sys2Proof.Machine.execCollectiveControl l f s
  | .twinDigest l f => Sys2Proof.Machine.execTwinDigest l f s
  | .twinControl l f => Sys2Proof.Machine.execTwinControl l f s
  | .xlLinkDown l => Sys2Proof.Machine.execXlLinkDown l s
  | .xlRetrain l acc => Sys2Proof.Machine.execXlRetrain l acc s
  | .xlTrainingDone l lanes => Sys2Proof.Machine.execXlTrainingDone l lanes s
  | .xgsEnable acc => Sys2Proof.Machine.execXgsEnable acc s
  | .rediscover acc => Sys2Proof.Machine.execRediscover acc s
  | .twinRestart acc => Sys2Proof.Machine.execTwinRestart acc s
  | .domainQuiescent => Sys2Proof.Machine.execDomainQuiescent s
  | .collectiveStart n => Sys2Proof.Machine.execCollectiveStart n s
  | .collectiveDone n => Sys2Proof.Machine.execCollectiveDone n s
  | .twinCompare slot index => Sys2Proof.Machine.execTwinCompare slot index s
  | .twinAbsent slot => Sys2Proof.Machine.execTwinAbsent slot s
  | .islandTwinDigest isl slot index digest => Sys2Proof.Machine.execIslandTwinDigest isl slot index digest s
  | .heartbeat isl lockstepBad => Sys2Proof.Machine.execHeartbeat isl lockstepBad s
  | .peerDown isl => Sys2Proof.Machine.execPeerDown isl s
  | .peerReturn isl => Sys2Proof.Machine.execPeerReturn isl s
  | .peerReturnTimeout isl => Sys2Proof.Machine.execPeerReturnTimeout isl s
  | .hubLinkLoss isl peerToo => Sys2Proof.Machine.execHubLinkLoss isl peerToo s
  | .lockstepMismatch isl => Sys2Proof.Machine.execLockstepMismatch isl s
  | .clockCheck isl peerPpm refPpm => Sys2Proof.Machine.execClockCheck isl peerPpm refPpm s
  | .faultForward => Sys2Proof.Machine.execFaultForward s
  | .islandFaultEvent isl => Sys2Proof.Machine.execIslandFaultEvent isl s
  | .tapReport isl d hottest syndrome => Sys2Proof.Machine.execTapReport isl d hottest syndrome s
  | .tapKeepaliveLoss isl d => Sys2Proof.Machine.execTapKeepaliveLoss isl d s
  | .releaseMessage isl => Sys2Proof.Machine.execReleaseMessage isl s
  | .completionMessage isl => Sys2Proof.Machine.execCompletionMessage isl s
  | .deadlineMiss isl q tag => Sys2Proof.Machine.execDeadlineMiss isl q tag s
  | .slotStale isl slot => Sys2Proof.Machine.execSlotStale isl slot s
  | .recoveryAnswer isl => Sys2Proof.Machine.execRecoveryAnswer isl s
  | .recoveryTimeout isl => Sys2Proof.Machine.execRecoveryTimeout isl s
  | .engineResetTimeout isl => Sys2Proof.Machine.execEngineResetTimeout isl s
  | .resultMessage isl => Sys2Proof.Machine.execResultMessage isl s
  | .fallbackFrame isl slot => Sys2Proof.Machine.execFallbackFrame isl slot s
  | .statusFrame isl => Sys2Proof.Machine.execStatusFrame isl s
  | .dieReset isl d => Sys2Proof.Machine.execDieReset isl d s
  | .dieSelfTestDone d failures => Sys2Proof.Machine.execDieSelfTestDone d failures s
  | .moduleReset isl cause => Sys2Proof.Machine.execModuleReset isl cause s
  | .clearLog acc => Sys2Proof.Machine.execClearLog acc s
  | .fltInject acc => Sys2Proof.Machine.execFltInject acc s
  | .stestEnable acc => Sys2Proof.Machine.execStestEnable acc s
  | .sliceStart d => Sys2Proof.Machine.execSliceStart d s
  | .windowOpen d => Sys2Proof.Machine.execWindowOpen d s
  | .drainTimeout d => Sys2Proof.Machine.execDrainTimeout d s
  | .partDone d pass overlapsDip => Sys2Proof.Machine.execPartDone d pass overlapsDip s
  | .coverage d a ageMs => Sys2Proof.Machine.execCoverage d a ageMs s
  | .targetedTest acc => Sys2Proof.Machine.execTargetedTest acc s
  | .arrayOut acc => Sys2Proof.Machine.execArrayOut acc s
  | .arrayReturn acc => Sys2Proof.Machine.execArrayReturn acc s
  | .dieOut acc => Sys2Proof.Machine.execDieOut acc s
  | .spill acc => Sys2Proof.Machine.execSpill acc s
  | .stackReturn acc => Sys2Proof.Machine.execStackReturn acc s
  | .stackCopyDone => Sys2Proof.Machine.execStackCopyDone s
  | .islandTest acc => Sys2Proof.Machine.execIslandTest acc s
  | .repairClear acc => Sys2Proof.Machine.execRepairClear acc s
  | .powerGood => Sys2Proof.Machine.execPowerGood s
  | .requestDeepSleep acc => Sys2Proof.Machine.execRequestDeepSleep acc s
  | .requestPark acc => Sys2Proof.Machine.execRequestPark acc s
  | .requestWarm acc => Sys2Proof.Machine.execRequestWarm acc s
  | .requestRun acc => Sys2Proof.Machine.execRequestRun acc s
  | .ungate d => Sys2Proof.Machine.execUngate d s
  | .gate n => Sys2Proof.Machine.execGate n s
  | .wake => Sys2Proof.Machine.execWake s
  | .mainInputFault => Sys2Proof.Machine.execMainInputFault s
  | .mainInputRestored => Sys2Proof.Machine.execMainInputRestored s
  | .islandInputFault => Sys2Proof.Machine.execIslandInputFault s
  | .islandInputRestored => Sys2Proof.Machine.execIslandInputRestored s
  | .railFault rail => Sys2Proof.Machine.execRailFault rail s
  | .dip rail mv => Sys2Proof.Machine.execDip rail mv s
  | .dipStepUp rail us => Sys2Proof.Machine.execDipStepUp rail us s
  | .dipLong rail => Sys2Proof.Machine.execDipLong rail s
  | .thermalSample t => Sys2Proof.Machine.execThermalSample t s
  | .reducedService acc => Sys2Proof.Machine.execReducedService acc s
  | .fullService acc => Sys2Proof.Machine.execFullService acc s
  | .islandBoot isl role bootSrc => Sys2Proof.Machine.execIslandBoot isl role bootSrc s
  | .hubImageAccept => Sys2Proof.Machine.execHubImageAccept s
  | .hubImageRefused => Sys2Proof.Machine.execHubImageRefused s
  | .testContentAccept => Sys2Proof.Machine.execTestContentAccept s
  | .hostGo acc => Sys2Proof.Machine.execHostGo acc s
  | .testGo acc => Sys2Proof.Machine.execTestGo acc s
  | .confirm acc => Sys2Proof.Machine.execConfirm acc s
  | .activate acc => Sys2Proof.Machine.execActivate acc s
  | .activatingRestart => Sys2Proof.Machine.execActivatingRestart s
  | .trialWindowExpiry => Sys2Proof.Machine.execTrialWindowExpiry s
  | .attest acc => Sys2Proof.Machine.execAttest acc s
  | .cert acc => Sys2Proof.Machine.execCert acc s
  | .attestDone => Sys2Proof.Machine.execAttestDone s
  | .update acc => Sys2Proof.Machine.execUpdate acc s
  | .updateDone => Sys2Proof.Machine.execUpdateDone s
  | .enrol acc => Sys2Proof.Machine.execEnrol acc s
  | .rollbackAdvance acc => Sys2Proof.Machine.execRollbackAdvance acc s
  | .extend acc => Sys2Proof.Machine.execExtend acc s
  | .challenge acc => Sys2Proof.Machine.execChallenge acc s
  | .submit acc => Sys2Proof.Machine.execSubmit acc s
  | .lock acc => Sys2Proof.Machine.execLock acc s
  | .arm acc => Sys2Proof.Machine.execArm acc s
  | .disarm acc => Sys2Proof.Machine.execDisarm acc s
  | .boundary => Sys2Proof.Machine.execBoundary s
  | .boundaryFail => Sys2Proof.Machine.execBoundaryFail s
  | .farmContinue acc => Sys2Proof.Machine.execFarmContinue acc s
  | .save acc => Sys2Proof.Machine.execSave acc s
  | .saved => Sys2Proof.Machine.execSaved s
  | .restore acc => Sys2Proof.Machine.execRestore acc s
  | .restored => Sys2Proof.Machine.execRestored s
  | .straggler => Sys2Proof.Machine.execStraggler s
  | .periodic => Sys2Proof.Machine.execPeriodic s
  | .takeover acc => Sys2Proof.Machine.execTakeover acc s
  | .relink acc => Sys2Proof.Machine.execRelink acc s
  | .relinkExpired l => Sys2Proof.Machine.execRelinkExpired l s
  | .csiLinkChange r link deskewed => Sys2Proof.Machine.execCsiLinkChange r link deskewed s
  | .ethLinkChange m blockLock fecLock link => Sys2Proof.Machine.execEthLinkChange m blockLock fecLock link s
  | .pcieLinkUp speed width flit master => Sys2Proof.Machine.execPcieLinkUp speed width flit master s
  | .hostDataRecordClose => Sys2Proof.Machine.execHostDataRecordClose s
  | .qengEnable acc => Sys2Proof.Machine.execQengEnable acc s
  | .ingEnable acc => Sys2Proof.Machine.execIngEnable acc s
  | .xlEnable l acc => Sys2Proof.Machine.execXlEnable l acc s
  | .thermalDiodeRelease => Sys2Proof.Machine.execThermalDiodeRelease s

end Sys2Proof.Machine
end

