-- ==== Sys2Proof/Machine/Step.lean ====
section
/-! DEFINITION. One step of the block: the command at the front of its queue, or a microsecond in which nothing is commanded. -/

namespace Sys2Proof.Machine

/-- A microsecond without a command (assumption 1): hub time and the counters of the islands that run advance, the Dike's token buckets
refill (R31, R32, R435). -/
def State.tick (s : State) : State :=
  let s1 := s.dikeRefill
  { s1 with
    hubUs := s1.hubUs + 1
    isl := s1.isl.map fun e => (e.1, if e.2.running then { e.2 with time := e.2.time + 1 } else e.2) }

/-- A step: the first waiting command runs on the state with the rest of the queue; on an empty queue time passes. -/
def step (s : State) : Host.Outcome State Fault Refusal :=
  match s.pending with
  | [] => .next s.tick
  | c :: rest => exec c { s with pending := rest }

/-- The state with the command that a word spells put at the front of its queue; no word spells one. -/
def State.withFetchWord (s : State) (nbits w : Nat) : State :=
  match decodeTableWord nbits w with
  | some c => { s with pending := c :: s.pending }
  | none => s

end Sys2Proof.Machine
end

