-- ==== Sys2Proof/Safety.lean ====
section
/-! DEFINITION. The terms in which statements about the block speak: what a command leaves unchanged, when a register write reaches
its register, what is safe of a state. -/

namespace Sys2Proof.Machine

/-- Two register fields that share no stored bit: of two registers, or of one with no bit in common. -/
def Fld.apart (f g : Fld) : Prop :=
  regKey f.page f.off ≠ regKey g.page g.off ∨ (f.page = g.page ∧ f.off = g.off ∧ f.mask &&& g.mask = 0#32)

/-- A field within a 32-bit register. -/
def Fld.fits (f : Fld) : Prop := f.lo ≤ f.hi ∧ f.hi < 32

/-- Every register field apart from those listed reads in `t` as in `s`. -/
def FieldsBut (fs : List Fld) (s t : State) : Prop := ∀ g : Fld, (∀ f ∈ fs, f.apart g) → t.get g = s.get g

/-- Every register field outside these pages and apart from those listed reads in `t` as in `s`. -/
def PagesBut (ps : List Nat) (fs : List Fld) (s t : State) : Prop :=
  ∀ g : Fld, regKey g.page g.off / 512 ∉ ps → (∀ f ∈ fs, f.apart g) → t.get g = s.get g

/-- The whole register at an offset of a page. -/
def wholeReg (page off : Nat) : Fld := ⟨page, off, 31, 0⟩

/-- The fields that the event `bit` of a page may change: its status bit, and the pending bits of PCIE (R64, R409). -/
def eventFields (page bit : Nat) : List Fld := [⟨page, 0x10, bit, bit⟩, F.PCIE_MSI_PEND_pending]

/-- The status bit of an event. -/
def State.eventSet (s : State) (page bit : Nat) : Bool := s.flag ⟨page, 0x10, bit, bit⟩

/-- The pages of a compute die, its stack and its arrays. -/
def State.diePages (s : State) (d : Nat) : List Nat := [pgCD d, pgST d] ++ (List.range s.fuse.perDie).map fun a => pgARR (24 * d + a)

/-- The fields that a die's change of state may change: the state, its event, and the shadow bits of the die's pages (R46, R64). -/
def State.dieStateFields (s : State) (d : Nat) : List Fld :=
  F.CD_STATE_state d :: eventFields (pgCD d) Ev.CD_state_change ++ (s.diePages d).map fun p => ⟨p, 0x10, 30, 30⟩

/-- Nothing is under way for the arrays of a die: no read outside the module, no instruction in flight. -/
def State.dieQuiet (s : State) (d : Nat) : Bool :=
  (s.ext.all fun x => x.2.arr.all fun n => n / 24 != d) && (List.range 24).all fun a => (s.arr (24 * d + a)).flights.isEmpty

/-- No array of a die has a slot, and no job has one given there. -/
def State.dieIdle (s : State) (d : Nat) : Bool :=
  (s.stDie d).win.isNone && ((List.range 24).all fun a => s.get (F.ARR_JOB_QUEUE_valid (24 * d + a)) == 0)
    && s.jobs.all fun j => j.slots.all fun k => k.die != d

/-- The bits that a write through a view offers to the WO, RW and RWV fields of a register (R51, R52). -/
def State.offered (s : State) (page off : Nat) (acc : Acc) : Word :=
  match regAt page off with
  | some d => offeredWord d acc.view (s.shown page off) acc.val
  | none => 0#32

/-- The page answers a requester: the hub is powered, the requester has a path to the page (R48), the page exists (R45) and is not hidden
while the hub boots from the host. -/
def State.answersPage (s : State) (page : Nat) (req : Requester) : Bool :=
  !s.hubOff && (req != .xs || page == 62) && !s.pageUnmapped page && !s.bootHides page req

/-- The write did not arrive in a poisoned TLP (R408). -/
def cleanWrite (acc : Acc) : Bool := !(acc.req == .host && acc.poisoned)

/-- The page takes writes: it is no island mirror (R470), its die runs (R46), its block is out of reset (R67). -/
def State.takesWrites (s : State) (page : Nat) (acc : Acc) : Bool :=
  s.answersPage page acc.req && cleanWrite acc && decide (page ≠ 57 ∧ page ≠ 58) && !s.pageShadow page && !s.flag (F.BLK_STATUS_in_reset page)

/-- What becomes of a register write that passes the access checks (R45 to R62) to the register itself: the state with its plain
bits stored, and the bits that it offers to the fields; none when the checks end it. -/
def State.written (s : State) (page off : Nat) (acc : Acc) : Option (State × Word) :=
  match s.gate page off acc with
  | .pass s1 ident => if ident = off then some (s1.storeReg page off acc, s1.offered page off acc) else none
  | .stop _ => none

/-- The link on which a receiving port stands (R9). -/
def State.linkAt (s : State) (e : HingeEnd) : Link := tabGet s.links (linkKey e) {}

/-- Is the compute die of the link fenced? -/
def State.linkFenced (s : State) (e : HingeEnd) : Bool := (endDie e).any fun d => s.cdState d == 4

/-- A link changed. -/
def State.setLink (s : State) (e : HingeEnd) (l : Link) : State := { s with links := tabSet s.links (linkKey e) l }

/-- A flit in sequence taken at its port: the next number is expected, and the acknowledgement is out (R11, R13). -/
def State.arrived (s : State) (e : HingeEnd) (f : Flit) : State :=
  let s1 := s.setLink e { s.linkAt e with
    expect := ((s.linkAt e).expect + 1) % 4096
    asked := false
    fails := 0 }
  { s1 with out := s1.out ++ [flitOut e.tx.val e.rx.val (mkFlit 7 e.rx.val e.tx.val (flitSeq f) (flitVc f) 0 false 0#256)] }

/-- The flit handed to its destination at a port, with this poison mark. -/
def handOver (e : HingeEnd) (f : Flit) (poison : Bool) : Out :=
  ⟨.flit, [e.rx.val, e.tx.val, f.hdr.toNat, if poison then 1 else 0], leBytes 32 f.data.toNat⟩

/-- A flit from identity `tx` can go out to identity `rx` at once: the link is up, its retry buffer has room, none waits before it (R13). -/
def State.canSend (s : State) (rx tx : Nat) (f : Flit) : Bool :=
  let l := tabGet s.links (rx * 8 + tx) {}
  !l.down && decide ((l.buffer f).length < 64 ∧ (flitVc f = 3 ∨ l.waits = []))

/-- A flit gone out from identity `tx` to identity `rx`: with the link's next number, and kept in its retry buffer (R11, R13). -/
def State.sentFlit (s : State) (rx tx : Nat) (f : Flit) : State :=
  let l := tabGet s.links (rx * 8 + tx) {}
  { s with
    links := tabSet s.links (rx * 8 + tx) (l.push f)
    out := s.out ++ [flitOut rx tx (flitNumbered f l.nextTx)] }

/-- Hub port to identity `rx`: its link is up, has room for four more flits, and none waits there (R13, R14). -/
def State.portRoom (s : State) (rx : Nat) : Bool :=
  let l := tabGet s.links (rx * 8) {}
  !l.down && decide (l.retry.length + 4 ≤ 64 ∧ l.retry3.length + 4 ≤ 64) && l.waits.isEmpty

/-- The identities to which HB sent a flit between `s` and `t`, in order, and the types of those flits (R11). -/
def hubSent (s t : State) : List (Nat × Nat) :=
  (t.out.drop s.out.length).map fun o => (o.args.getD 0 0, o.args.getD 2 0 / 2 ^ 44)

/-- The fields of a port's entry in the topology table (R68). -/
def topoFields (p : Nat) : List Fld :=
  [F.DISC_TOPO_CLASS_class p, F.DISC_TOPO_CLASS_stepping p, F.DISC_TOPO_CLASS_port p, F.DISC_TOPO_CLASS_stack p,
   F.DISC_TOPO_SERIAL_LO_serial p, F.DISC_TOPO_SERIAL_HI_serial p, F.DISC_TOPO_UNITMAP_unit_map p, F.DISC_STATUS_present]

/-- The Dike after window `n`, which stood at `w`, spent `k` tokens (R31). -/
def State.spent (s : State) (n : Nat) (w : Window) (k : Nat) : DikeSt :=
  { s.dike with windows := s.dike.windows.map fun (v : Nat × Window) => if v.1 = n then (n, { w with tokens := w.tokens - k }) else v }

/-- The fields that a fault of the XS slot may change (R33 to R35). -/
def dikeFaultFields : List Fld :=
  [F.DIKE_VIOL_cause, F.DIKE_VIOL_window, F.DIKE_VIOL_ADDR_LO_addr, F.DIKE_VIOL_ADDR_HI_addr, F.DIKE_STATUS_fault_count,
   F.DIKE_STATUS_state, F.DIKE_CTRL_enable, F.GEN_XS_admitted]
    ++ (List.range 16).map (fun n => F.DIKE_WIN_SIZE_valid n) ++ (List.range 24).map (fun k => wholeReg pgXSLOT (0x20 + 4 * k))
    ++ eventFields pgDIKE Ev.DIKE_violation ++ eventFields pgDIKE Ev.DIKE_cert_fail ++ eventFields pgDIKE Ev.DIKE_locked_out

/-- From `s` to `t` the XS slot was faulted (R33 to R35): the cause, window and address shown, the enable and the admission cleared, no
window in effect or valid, no request waiting, the mailbox as at reset, the fault counted; nothing else changed when no stream goes
through the XS die. -/
def XsFaulted (cause window addr : Nat) (s t : State) : Prop :=
  t.get F.DIKE_VIOL_cause = cause ∧ t.get F.DIKE_VIOL_window = window
    ∧ t.get F.DIKE_VIOL_ADDR_LO_addr = addr % 2 ^ 32 ∧ t.get F.DIKE_VIOL_ADDR_HI_addr = addr / 2 ^ 32 % 2 ^ 32
    ∧ t.get F.DIKE_CTRL_enable = 0 ∧ t.get F.GEN_XS_admitted = 0
    ∧ (∀ n, n < 16 → t.get (F.DIKE_WIN_SIZE_valid n) = 0)
    ∧ (∀ k, k < 24 → t.regWord pgXSLOT (0x20 + 4 * k) = 0#32)
    ∧ t.dike = { s.dike with step := 0, cert := [], inter := none, windows := [], stalled := [], commitQ := false }
    ∧ t.get F.DIKE_STATUS_fault_count = min (s.get F.DIKE_STATUS_fault_count + 1) 3
    ∧ t.get F.DIKE_STATUS_state = (if 3 ≤ s.get F.DIKE_STATUS_fault_count + 1 then 5 else 4)
    ∧ t.eventSet pgDIKE Ev.DIKE_violation = true ∧ (cause = 8 → t.eventSet pgDIKE Ev.DIKE_cert_fail = true)
    ∧ (3 ≤ s.get F.DIKE_STATUS_fault_count + 1 → t.eventSet pgDIKE Ev.DIKE_locked_out = true)
    ∧ ((∀ n, n < 118 → (s.stream n).xsRoute = false) →
        FieldsBut dikeFaultFields s t ∧ { t with regs := s.regs, dike := s.dike, flt := s.flt } = s)

/-- The sequencer of array `k` issues an instruction with opcode `op` that the rules accept (R111, R122, R106, R104). -/
def State.issues (s : State) (k op : Nat) : Bool := s.due k op && s.issueCause k (s.insn k) == 0

/-- The program of array `k` holds a sound instruction of R123 at index `pc`. -/
def State.sound (s : State) (k pc : Nat) : Bool :=
  decide (pc < 4096) && (match (s.arr k).words[pc]? with
    | some (w, cond) => cond.isNone && (opInfo (decodeInsn w).op).isSome
    | none => false)

/-- From `s` to `t` the sequencer of array `k` issued one instruction and stands at index `pc`; no other register field changed. -/
def Moved (k pc : Nat) (s t : State) : Prop :=
  t.get (F.ARR_PC_pc k) = pc ∧ t.get (F.ARR_ISSUED_count k) = (s.get (F.ARR_ISSUED_count k) + 1) % 2 ^ 32
    ∧ FieldsBut [F.ARR_PC_pc k, F.ARR_ISSUED_count k] s t

/-- From `s` to `t` the sequencer of array `k` issued one instruction and waits at it; no other register field changed. -/
def Waits (k : Nat) (s t : State) : Prop :=
  t.get (F.ARR_ISSUED_count k) = (s.get (F.ARR_ISSUED_count k) + 1) % 2 ^ 32 ∧ FieldsBut [F.ARR_ISSUED_count k] s t

/-- From `s` to `t` array `k` put the instruction at its pc in flight as `f` and stands at the next; an N operation marks the slot
and its job. Rows that stood where it writes are held no longer; `rows` are held now. -/
def LaunchedHolding (k : Nat) (f : Fly) (rows : List Held) (s t : State) : Prop :=
  let a := s.arr k
  let n := (s.insn k).markN
  t.arrs = tabSet s.arrs k { a with
      flights := a.flights ++ [{ f with id := a.nextId, pc := s.get (F.ARR_PC_pc k) }]
      nextId := a.nextId + 1
      held := rows ++ a.held.filter fun h => !f.wr.any (rangesMeet (h.word, h.pitch)) }
    ∧ t.get (F.ARR_PC_pc k) = s.nextPc k ∧ t.get (F.ARR_ISSUED_count k) = (s.get (F.ARR_ISSUED_count k) + 1) % 2 ^ 32
    ∧ t.get (F.ARR_STATE_nonrepro k) = (if n then 1 else s.get (F.ARR_STATE_nonrepro k))
    ∧ FieldsBut [F.ARR_PC_pc k, F.ARR_ISSUED_count k, F.ARR_STATE_nonrepro k] s t
    ∧ t.jobs = (if n then (s.markJob k).jobs else s.jobs) ∧ { t with regs := s.regs, arrs := s.arrs, jobs := s.jobs } = s

/-- The same where no row of a map is placed. -/
def Launched (k : Nat) (f : Fly) (s t : State) : Prop := LaunchedHolding k f [] s t

/-- Array `k` can take an instruction that reads and writes these line-buffer ranges: they lie inside, nothing in flight is in the
way, and no word of the line buffers is in error. -/
def State.admits (s : State) (k : Nat) (rd wr : List (Nat × Nat)) : Bool :=
  (rd ++ wr).all (fun r => lbFits r.1 r.2) && (s.arr k).accepts rd wr && (s.arr k).lbCond.isEmpty

/-- An instruction of unit `u` in flight with result elements: the flags of those that are sound, and the fault of a poisoned one. -/
def resultFly (u : IssueUnit) (rd wr : List (Nat × Nat)) (lbW : List Seg) (es : List NumElt) : Fly where
  id := 0
  unit := u
  pc := 0
  rd := rd
  wr := wr
  lbW := lbW
  flags := es.foldl (fun f e => if e.2 then f else f ||| e.1.flags) 0
  cause := if es.any (·.2) then 1 else 0

/-- The address lies in memory of the module, and no stack stands in a spill area. -/
def State.plainAt (s : State) (a : Nat) : Bool := s.storeAt a && s.spilled.isEmpty

/-- [a, a + n) lies in memory of the module, in one region of it; no word of memory is in error, no injection is armed. -/
def State.plainMem (s : State) (a n : Nat) : Bool :=
  s.plainAt a && s.oneRegion a n && s.cond.isEmpty && s.mcs.all (fun m => m.2.inject.isEmpty)

/-- Plain bytes written at `a`: they stand there, and the memory controller that serves them, if any, has seen the write. -/
def State.wrote (s : State) (a : Nat) (bs : List Byte) : State := { s.mcTouches true a bs.length with mem := cellWrite s.mem a bs }

/-- A device write of [a, a + n) does nothing but write its bytes: no engine watches the addresses. -/
def State.plainStore (s : State) (a n : Nat) : Bool :=
  s.plainMem a n && !s.flag F.COLL_CTRL_enable
    && (!s.flag F.XGS_CTRL_enable || decide (a + n ≤ s.addr F.XGS_COLL_BASE_LO_base ∨ s.addr F.XGS_COLL_BASE_LO_base + 8192 ≤ a))

/-- The job of a hub engine and its command that is due, when it has the operation code and can be read: the job is on its
engine, the bytes lie in memory of the module and are sound. -/
def State.commandAt (s : State) (id : JobId) (cls op : Nat) : Option (Job × List Byte) :=
  match s.jobOf id with
  | none => none
  | some j =>
    let a := j.program + 32 + listBytes cls * j.cmd
    if j.cls = cls ∧ j.stage = .placed ∧ j.busy = false ∧ j.cmd < j.listCount ∧ s.plainAt a ∧ s.oneRegion a (listBytes cls) ∧ s.cond = []
        ∧ fieldAt (s.bytes a (listBytes cls)) 0 1 = op then some (j, s.bytes a (listBytes cls))
    else none

/-- A list job's current command read: the memory controller that serves it, if any, has seen the read. -/
def State.fetched (s : State) (j : Job) : State :=
  s.mcTouches false (j.program + 32 + listBytes j.cls * j.cmd) (listBytes j.cls)

/-- Stream `n` after an item with these flags, timestamp and bytes took the ring place `o` and the next number (R205, R207). -/
def State.itemIn (s : State) (n flags ts : Nat) (data : List Byte) (last : Bool) (o : Nat) : StreamSt :=
  let v := s.stream n
  { v with
    wr := o + data.length
    held := s.heldNow n ++ [(none, o, data.length)]
    seq := (v.seq + 1) % 2 ^ 32
    ready := v.ready ++ [{ kind := 0, seq := v.seq, flags := flags, ts := ts, off := o, len := data.length, data := data, last := last }]
    done := v.done ++ [v.seq] }

/-- A frame as it leaves on link `l`: header fields, operand, numbers, poison and payload (R411). -/
def xFrameOut (l : Nat) (f : XFrame) : Out :=
  ⟨.xagusFrame, [l, f.typ.toNat, f.src.toNat, f.dst.toNat, f.vc.toNat, f.words.toNat, f.operand.toNat, f.seq.toNat, f.ack.toNat, f.poison.toNat,
    f.creditVc.toNat, f.credits.toNat],
    xBytes f⟩

/-- A frame that leaves on link `l` with the link's next number, acknowledging the last frame accepted there and returning the credit
that the link owes (R411, R412). -/
def State.sent (s : State) (l : Nat) (f : XFrame) : Out :=
  xFrameOut l { f with
    seq := BitVec.ofNat 12 (s.xl l).nextTx
    ack := BitVec.ofNat 12 (s.xl l).lastRx
    creditVc := BitVec.ofNat 2 (s.xl l).returns.1
    credits := BitVec.ofNat 10 (s.xl l).returns.2 }

/-- Link `l` is up and the frame is the one of type `typ` that it awaits: codeword and header CRC good, the next number (R411, R412). -/
def State.awaits (s : State) (l typ : Nat) (f : XFrame) : Bool :=
  decide (f.typ.toNat = typ ∧ s.get (F.XL_STATUS_state l) = 2 ∧ f.fecOk = true ∧ f.hcrc = crc16w 64 (xHdr f)
    ∧ f.seq.toNat = ((s.xl l).lastRx + 1) % 4096)

/-- The frame is for this device, which is in a domain. -/
def State.forMe (s : State) (f : XFrame) : Bool := decide (f.dst.toNat = s.xId) && !s.xgs.members.isEmpty

/-- The state once link `l` has accepted a frame: corrected symbols counted, of which the number is open, payload words logged, the
number and credit noted, what it acknowledges gone from the retry buffer, held frames sent (R411, R412). -/
def State.acceptedFrame (s : State) (l : Nat) (f : XFrame) : State :=
  let s1 := { s with freeCtr := s.freeCtr + 1 }.satAdd (F.XL_FEC_corrected l) (Config.free s.freeCtr % 65536)
  ((s1.xLog l f).setXl l ((s1.xl l).took f)).xDrain l

/-- The payload words in use, as bytes. -/
def frameBytes (f : XFrame) : List Byte := (xWords f).flatMap (·.1)

/-- Is the region a gap of the address map? -/
def Region.isGap : Region → Bool
  | .gap _ => true
  | _ => false

/-- The command at the front of the queue, `s` the rest of the machine. -/
def State.withFront (s : State) (c : Instr) : State := { s with pending := c :: s.pending }

/-- The form that device memory keeps: cells by rising address, none equal to what an unlisted address reads as. -/
def State.memOk (s : State) : Prop := memWf s.mem = true

/-- Every byte of device memory outside [a, a + n) reads in `t` as in `s`. -/
def BytesBut (a n : Nat) (s t : State) : Prop := ∀ k, k < a ∨ a + n ≤ k → cellGet t.mem k = cellGet s.mem k

/-- Every byte of device memory outside [a, a + n) and [b, b + m) reads in `t` as in `s`. -/
def BytesButTwo (a n b m : Nat) (s t : State) : Prop :=
  ∀ k, k < a ∨ a + n ≤ k → k < b ∨ b + m ≤ k → cellGet t.mem k = cellGet s.mem k

/-- The `n` bytes of device memory at `src` before stand at `dst` after. -/
def Copied (src dst n : Nat) (s t : State) : Prop := ∀ k < n, cellGet t.mem (dst + k) = cellGet s.mem (src + k)

end Sys2Proof.Machine
end

