-- ==== Sys2Proof/Certificates/Slice0/Obligations.lean ====
section
/-! DEFINITION. The statements for the provers. -/

open Sys2Proof Sys2Proof.Machine

/-- R11 to R15: a flit at a receiving port of a link that is up: handed over, carried on, answered, discarded, asked for again; R13: the
fall of a link at the eighth failed replay of one flit; R9, R10: the way round the ring. -/
def Obligations.HingeFlit : Prop :=
  (∀ (e : HingeEnd) (f : Flit) (s : State), isLink e = true → (s.linkAt e).down = false → s.hubOff = false → s.ringClosed e = false →
    (crc16 f.hdr = f.hcrc → flitSeq f = (s.linkAt e).expect → flitType f ≤ 9 → flitType f ≠ 7 → s.dieExists (flitDst f) = true →
      s.linkFenced e = false →
      (f.code = .clean → flitDst f = e.rx.val ∨ (e.rx.val = 0 ∧ flitDst f = 7) → (flitType f ≠ 0 ∨ flitDst f ≠ 0 ∨ e.tx.val < 5) →
        exec (.hingeFlit e f) s = .next { s.arrived e f with out := (s.arrived e f).out ++ [handOver e f (flitPoison f)] })
      ∧ (f.code = .clean → flitDst f = 0 → e.rx.val = 0 → flitType f = 0 → 5 ≤ e.tx.val → flitSrc f = e.tx.val → flitPoison f = false →
          s.inHub f.addr 32 = true → s.plainStore f.addr 32 = true → s.memOk →
        ∃ t, exec (.hingeFlit e f) s = .next t ∧ (∀ k, k < 32 → cellGet t.mem (f.addr + k) = (leBytes 32 f.data.toNat).getD k 0#8)
          ∧ BytesBut f.addr 32 s t
          ∧ { t with mem := s.mem } = { s.arrived e f with out := (s.arrived e f).out ++ [handOver e f false] })
      ∧ (∀ g : Flit, g = { mkFlit (flitType f) (flitSrc f) (flitDst f) 0 (flitVc f) (flitTag f) (flitPoison f) f.data with addr := f.addr } →
          f.code = .clean → flitDst f ≠ e.rx.val → ¬(e.rx.val = 0 ∧ flitDst f = 7) →
          (e.rx.val = 0 → 1 ≤ flitDst f → flitDst f ≤ 4 → s.cdState (flitDst f - 1) ≠ 4) →
          (s.arrived e f).canSend (s.nextHop e.rx.val (flitDst f)) e.rx.val g = true →
        exec (.hingeFlit e f) s = .next ((s.arrived e f).sentFlit (s.nextHop e.rx.val (flitDst f)) e.rx.val g))
      ∧ (∀ g : Flit, g = mkFlit (if flitType f = 1 then 2 else 3) (flitDst f) (flitSrc f) 0 1 (flitTag f) true
            (BitVec.ofNat 256 (Config.free s.freeCtr)) →
          f.code = .clean → e.rx.val = 0 → 1 ≤ flitDst f → flitDst f ≤ 4 → s.cdState (flitDst f - 1) = 4 → flitAsks f = true →
          (s.arrived e f).canSend (flitSrc f) 0 g = true →
        exec (.hingeFlit e f) s = .next { (s.arrived e f).sentFlit (flitSrc f) 0 g with freeCtr := s.freeCtr + 1 })
      ∧ (∀ (b : Fin 36) (d : Nat), f.code = .one b → portDie e = some d → flitDst f = e.rx.val →
        ∃ t, exec (.hingeFlit e f) s = .next t ∧ t.eventSet (pgCD d) Ev.CD_corrected = true
          ∧ t.get (F.CD_HINGE_ERR_corrected d) = min (s.get (F.CD_HINGE_ERR_corrected d) + 1) 255
          ∧ FieldsBut (F.CD_HINGE_ERR_corrected d :: eventFields (pgCD d) Ev.CD_corrected) s t
          ∧ t.out = (s.arrived e f).out ++ [handOver e f (flitPoison f)]
          ∧ t.links = ((s.arrived e f).setLink e { (s.arrived e f).linkAt e with fixes := (s.linkAt e).fixes ++ [b.val] }).links
          ∧ { t with regs := s.regs, flt := s.flt, links := s.links, out := s.out } = s)
      ∧ (∀ d : Nat, f.code = .many → portDie e = some d → flitDst f = e.rx.val →
        ∃ t, exec (.hingeFlit e f) s = .next t ∧ t.eventSet (pgCD d) Ev.CD_uncorrectable = true
          ∧ FieldsBut (eventFields (pgCD d) Ev.CD_uncorrectable) s t
          ∧ t.out = (s.arrived e f).out ++ [handOver e f true] ∧ t.links = (s.arrived e f).links
          ∧ { t with regs := s.regs, flt := s.flt, links := s.links, out := s.out } = s))
    ∧ (crc16 f.hdr = f.hcrc → flitSeq f = (s.linkAt e).expect → flitType f ≠ 7 → 9 < flitType f ∨ s.dieExists (flitDst f) = false →
        (portDie e = none →
          exec (.hingeFlit e f) s = .next ((s.arrived e f).setLink e { (s.arrived e f).linkAt e with discards := (s.linkAt e).discards + 1 }))
        ∧ (∀ d, portDie e = some d → ∃ t, exec (.hingeFlit e f) s = .next t
            ∧ t.get (F.CD_HINGE_ERR_discarded d) = min (s.get (F.CD_HINGE_ERR_discarded d) + 1) 255
            ∧ FieldsBut [F.CD_HINGE_ERR_discarded d] s t ∧ { t with regs := s.regs } = s.arrived e f))
    ∧ (crc16 f.hdr ≠ f.hcrc → ∃ t, exec (.hingeFlit e f) s = .next t
        ∧ t.links = (s.setLink e { s.linkAt e with
            asked := true
            fails := if (s.linkAt e).asked then (s.linkAt e).fails + 1 else (s.linkAt e).fails }).links
        ∧ t.out = s.out ++ [⟨.replayRequest, [e.rx.val, e.tx.val, (s.linkAt e).expect], []⟩]
            ++ ((s.linkAt e).retry ++ (s.linkAt e).retry3).map (flitOut e.rx.val e.tx.val)
        ∧ (∀ d, endDie e = some d → t.get (F.CD_HINGE_ERR_replays d) = min (s.get (F.CD_HINGE_ERR_replays d) + 1) 255
            ∧ FieldsBut [F.CD_HINGE_ERR_replays d] s t)
        ∧ (endDie e = none → t.regs = s.regs)
        ∧ { t with regs := s.regs, links := s.links, out := s.out } = s)
    ∧ (crc16 f.hdr = f.hcrc → flitType f ≠ 7 → flitSeq f ≠ (s.linkAt e).expect → exec (.hingeFlit e f) s = .next s)
    ∧ (∀ b : HingeEnd, b.rx = e.tx → b.tx = e.rx → crc16 f.hdr = f.hcrc → flitType f = 7 → (s.linkAt b).waits = [] →
        exec (.hingeFlit e f) s = .next (s.setLink b { s.linkAt b with
          retry := (s.linkAt b).retry.filter fun g => 2048 ≤ (flitSeq f + 4096 - flitSeq g) % 4096
          retry3 := (s.linkAt b).retry3.filter fun g => 2048 ≤ (flitSeq f + 4096 - flitSeq g) % 4096 })))
  ∧ (∀ (e : HingeEnd) (s : State), isLink e = true → (s.linkAt e).down = false → 8 ≤ (s.linkAt e).fails →
    (∀ d, endDie e = some d → ∃ t, exec (.hingeLinkDown e) s = .next t ∧ t.eventSet (pgCD d) Ev.CD_link_down = true
      ∧ FieldsBut (eventFields (pgCD d) Ev.CD_link_down) s t
      ∧ { t with regs := s.regs, flt := s.flt } = s.setLink e { s.linkAt e with down := true })
    ∧ (endDie e = none → ∃ t, exec (.hingeLinkDown e) s = .next t
      ∧ t.get (F.ISL_STATE_hub_link (max e.rx.val e.tx.val - 5)) = 0
      ∧ t.eventSet (pgISL (max e.rx.val e.tx.val - 5)) Ev.ISL_hub_link_down = true
      ∧ FieldsBut (F.ISL_STATE_hub_link (max e.rx.val e.tx.val - 5) :: eventFields (pgISL (max e.rx.val e.tx.val - 5)) Ev.ISL_hub_link_down) s t
      ∧ { t with regs := s.regs, isl := s.isl } = s.setLink e { s.linkAt e with down := true }))
  ∧ (∀ (s : State) (a b : Fin 4), a ≠ b →
    s.nextHop 0 (b.val + 1) = b.val + 1
    ∧ ((b.val = (a.val + 1) % 4 ∨ a.val = (b.val + 1) % 4) → s.nextHop (a.val + 1) (b.val + 1) = b.val + 1)
    ∧ (b.val = (a.val + 2) % 4 → s.nextHop (a.val + 1) (b.val + 1) =
        (if s.cdState ((a.val + 1) % 4) = 3 then (a.val + 1) % 4 + 1
         else if s.cdState ((a.val + 3) % 4) = 3 then (a.val + 3) % 4 + 1 else 0)))

/-- R15, R16, R439: the holds of an island on a die, and their withdrawal. R15, R16, R66: a die reset by an island. R15, R17: what a die
answers over its tap. -/
def Obligations.TapCommands : Prop :=
  (∀ (i : Island) (d : Fin 4) (s : State), s.cdState d = 3 ∨ s.cdState d = 4 ∨ s.cdState d = 5 →
    ((s.stDie d).win = none → s.dieQuiet d = true →
      ∃ t, exec (.stop i d) s = .next t ∧ t.get (stopField (islIdx i) d) = 1
        ∧ t.get (F.ISL_TAP_stop (islIdx i)) = s.get (F.ISL_TAP_stop (islIdx i)) ||| 2 ^ d.val
        ∧ t.cdState d = (if s.get (fenceField 0 d) = 0 ∧ s.get (fenceField 1 d) = 0 then 5 else 4)
        ∧ FieldsBut ([stopField (islIdx i) d, F.ISL_TAP_stop (islIdx i)] ++ s.dieStateFields d) s t
        ∧ { t with regs := s.regs, flt := s.flt } = s)
    ∧ (∃ t, exec (.fence i d) s = .next t ∧ t.get (fenceField (islIdx i) d) = 1
        ∧ t.get (F.ISL_TAP_fence (islIdx i)) = s.get (F.ISL_TAP_fence (islIdx i)) ||| 2 ^ d.val ∧ t.cdState d = 4
        ∧ FieldsBut ([fenceField (islIdx i) d, F.ISL_TAP_fence (islIdx i)] ++ s.dieStateFields d) s t
        ∧ { t with regs := s.regs, flt := s.flt } = s)
    ∧ (∀ c ∈ [Instr.release i d, Instr.tapCommandDrop i d], ∃ t, exec c s = .next t
        ∧ t.get (stopField (islIdx i) d) = 0 ∧ t.get (fenceField (islIdx i) d) = 0
        ∧ t.get (F.ISL_TAP_stop (islIdx i)) = s.get (F.ISL_TAP_stop (islIdx i)) &&& (15 - 2 ^ d.val)
        ∧ t.get (F.ISL_TAP_fence (islIdx i)) = s.get (F.ISL_TAP_fence (islIdx i)) &&& (15 - 2 ^ d.val)
        ∧ t.cdState d = (if s.get (fenceField (1 - islIdx i) d) = 1 then 4 else if s.get (stopField (1 - islIdx i) d) = 1 then 5 else 3)
        ∧ FieldsBut ([stopField (islIdx i) d, fenceField (islIdx i) d, F.ISL_TAP_stop (islIdx i), F.ISL_TAP_fence (islIdx i)]
            ++ s.dieStateFields d) s t
        ∧ { t with regs := s.regs, flt := s.flt } = s))
  ∧ (∀ (i : Island) (d : Fin 4) (s : State), s.cdState d = 3 →
    (∃ t, exec (.fence i d) s = .next t ∧ t.eventSet (pgCD d) Ev.CD_state_change = true ∧ (∀ p ∈ s.diePages d, t.eventSet p 30 = true))
    ∧ (∃ t, exec (.stop i d) s = .next t ∧ ∀ x ∈ t.ext, ∀ n, x.2.arr = some n → n / 24 ≠ d.val))
  ∧ (∀ (i : Island) (d : Fin 4) (s : State), s.cdState d = 0 →
    ∀ c ∈ [Instr.stop i d, Instr.fence i d, Instr.reset i d], exec c s = .next s)
  ∧ (∀ (i : Island) (d : Fin 4) (s : State), s.cdState d ≠ 0 → s.cdState d ≠ 1 → s.dieIdle d = true →
    ∃ t, exec (.reset i d) s = .next t ∧ t.cdState d = 1 ∧ t.eventSet (pgCD d) Ev.CD_state_change = true
      ∧ (∀ k, k < 2 → t.get (stopField k d) = 0 ∧ t.get (fenceField k d) = 0
          ∧ t.get (F.ISL_TAP_stop k) = s.get (F.ISL_TAP_stop k) &&& (15 - 2 ^ d.val)
          ∧ t.get (F.ISL_TAP_fence k) = s.get (F.ISL_TAP_fence k) &&& (15 - 2 ^ d.val))
      ∧ (∀ a, (poolBase d ≤ a ∧ a < poolBase d + 0x4000000) ∨ (stackBase d ≤ a ∧ a < stackBase d + 0x10000000) → cellGet t.mem a = 0#8)
      ∧ BytesButTwo (poolBase d) 0x4000000 (stackBase d) 0x10000000 s t
      ∧ PagesBut ([pgCD d, pgST d] ++ (List.range 24).map fun a => pgARR (24 * d + a))
          [F.ISL_TAP_stop 0, F.ISL_TAP_stop 1, F.ISL_TAP_fence 0, F.ISL_TAP_fence 1, F.PCIE_MSI_PEND_pending] s t
      ∧ (∀ n, n / 24 ≠ d.val → t.arr n = s.arr n)
      ∧ { t with regs := s.regs, mem := s.mem, cond := s.cond, armedBy := s.armedBy, arrs := s.arrs, transit := s.transit, links := s.links,
                 flt := s.flt } = s)
  ∧ (∀ (i : Island) (d : Fin 4) (s : State),
    (∀ a : DiscAnswer, tabFind s.ident d.val = some a →
      exec (.readId i d) s = .next { s with out := s.out ++ [⟨.tapReply, [islIdx i, d.val, 0],
        [a.cls, a.stepping, a.port, a.stack] ++ leBytes 8 a.serial.toNat ++ leBytes 4 a.unitMap.toNat⟩] }
      ∧ exec (.readFault i d) s = .next { s with
          out := s.out ++ [⟨.tapReply, [islIdx i, d.val, 1], leBytes 32 (Config.free s.freeCtr)⟩]
          freeCtr := s.freeCtr + 1 })
    ∧ (tabFind s.ident d.val = none → exec (.readId i d) s = .next s ∧ exec (.readFault i d) s = .next s))

/-- R17 to R19: the steps of discovery at the ports. R19 steps 4 to 6, R20, R24: the verdicts and rediscovery. R24, R69: a repeated
comparison that fails, and the reset request of a CD page. -/
def Obligations.DiscoveryAndAnswers : Prop :=
  (∀ s : State,
    (s.disc.running = false → s.disc.ended = false → s.hubOff = false → ((List.range 7).all fun p => s.portRoom (p + 1)) = true →
      ∃ t, exec .discovery s = .next t ∧ t.disc = { running := true, awaiting := [0, 1, 2, 3, 4, 5, 6] }
        ∧ hubSent s t = (List.range 7).map (fun p => (p + 1, 5)) ∧ t.freeCtr = s.freeCtr + 7
        ∧ { t with disc := s.disc, links := s.links, out := s.out, freeCtr := s.freeCtr } = s)
    ∧ (s.disc.running = true ∨ s.disc.ended = true → exec .discovery s = .next s)
    ∧ (∀ (p : Fin 7) (ans : DiscAnswer), s.disc.running = true → p.val ∈ s.disc.awaiting →
        let a := if p.val = 6 then s.dikeAnswer else ans
        ∃ t, exec (.discoveryAnswer p ans) s = .next t
          ∧ t.get (F.DISC_TOPO_CLASS_class p) = a.cls.toNat % 16
          ∧ t.get (F.DISC_TOPO_CLASS_stepping p) = a.stepping.toNat
          ∧ t.get (F.DISC_TOPO_CLASS_port p) = a.port.toNat % 16
          ∧ t.get (F.DISC_TOPO_CLASS_stack p) = a.stack.toNat % 2
          ∧ t.get (F.DISC_TOPO_SERIAL_LO_serial p) + 2 ^ 32 * t.get (F.DISC_TOPO_SERIAL_HI_serial p) = a.serial.toNat
          ∧ t.get (F.DISC_TOPO_UNITMAP_unit_map p) = a.unitMap.toNat % 2 ^ 26
          ∧ t.get F.DISC_STATUS_present = s.get F.DISC_STATUS_present ||| 2 ^ p.val
          ∧ FieldsBut (topoFields p) s t
          ∧ t.disc = { s.disc with awaiting := setDel s.disc.awaiting p, answered := setAdd s.disc.answered p }
          ∧ (setDel s.disc.awaiting p ≠ [] → { t with regs := s.regs, disc := s.disc } = s)
          ∧ (setDel s.disc.awaiting p = [] → s.portRoom 5 = true → s.portRoom 6 = true →
              hubSent s t = [(5, 0), (5, 0), (5, 0), (5, 0), (6, 0), (6, 0), (6, 0), (6, 0)] ∧ t.freeCtr = s.freeCtr + 8
              ∧ { t with regs := s.regs, disc := s.disc, links := s.links, out := s.out, freeCtr := s.freeCtr } = s))
    ∧ (∀ p : Fin 7, s.portRoom (p + 1) = true →
        (s.disc.running = true ∧ p.val ∈ s.disc.awaiting ∧ tabGet s.disc.tries p.val 0 < 3)
          ∨ (s.disc.running = false ∧ s.disc.mismatch = false ∧ p.val < 4 ∧ s.cdState p = 2
              ∧ tabGet s.disc.tries p.val 0 < s.get F.DISC_RETRY_count) →
        ∃ t, exec (.discAnswerTimeout p) s = .next t
          ∧ t.disc = { s.disc with tries := tabSet s.disc.tries p.val (tabGet s.disc.tries p.val 0 + 1) }
          ∧ hubSent s t = [(p.val + 1, 5)] ∧ t.freeCtr = s.freeCtr + 1
          ∧ { t with disc := s.disc, links := s.links, out := s.out, freeCtr := s.freeCtr } = s)
    ∧ (∀ p : Fin 7, s.disc.running = true → p.val ∈ s.disc.awaiting → 3 ≤ tabGet s.disc.tries p.val 0 → setDel s.disc.awaiting p ≠ [] →
        ∃ t, exec (.discAnswerTimeout p) s = .next t ∧ t.eventSet pgDISC Ev.DISC_port_absent = true
          ∧ t.disc = { s.disc with awaiting := setDel s.disc.awaiting p }
          ∧ FieldsBut (eventFields pgDISC Ev.DISC_port_absent) s t
          ∧ { t with regs := s.regs, flt := s.flt, disc := s.disc } = s))
  ∧ (∀ (s : State) (i : Island), s.disc.running = true → s.disc.awaiting = [] → (if i = .sia then s.disc.sawSia else s.disc.sawSib) = false →
      s.islUp (islIdx i) = true →
    (∀ cmp : Fld, cmp = (if i = .sia then F.DISC_ISLAND_CMP_sia_match else F.DISC_ISLAND_CMP_sib_match) →
      s.islUp (peerOf (islIdx i)) = true → (if i = .sia then s.disc.sawSib else s.disc.sawSia) = false →
      (((List.range 6).all fun p => s.topoAt p == tabFind s.ident p) = true →
        ∃ t, exec (.topologyCopy i) s = .next t ∧ t.get cmp = 63 ∧ FieldsBut [cmp] s t
          ∧ t.disc = (if i = .sia then { s.disc with sawSia := true } else { s.disc with sawSib := true })
          ∧ { t with regs := s.regs, disc := s.disc } = s)
      ∧ (∀ p : Fin 6, s.disc.mismatch = false → s.topoAt p ≠ tabFind s.ident p → (∀ q : Fin 6, q < p → s.topoAt q = tabFind s.ident q) →
        ∃ t, exec (.topologyCopy i) s = .next t ∧ (t.get cmp).testBit p.val = false
          ∧ t.get F.DISC_STATUS_mismatch = 1 ∧ t.get F.DISC_STATUS_mismatch_port = p.val
          ∧ t.eventSet pgDISC Ev.DISC_mismatch = true ∧ (∀ d, d < 4 → t.cdState d = if s.cdState d = 0 then 0 else 1)
          ∧ FieldsBut ([cmp, F.DISC_STATUS_mismatch, F.DISC_STATUS_mismatch_port] ++ eventFields pgDISC Ev.DISC_mismatch
              ++ (List.range 4).flatMap s.dieStateFields) s t
          ∧ t.disc = (if i = .sia then { s.disc with sawSia := true, mismatch := true, ended := true }
                      else { s.disc with sawSib := true, mismatch := true, ended := true })
          ∧ { t with regs := s.regs, flt := s.flt, disc := s.disc } = s))
    ∧ ((if i = .sia then s.disc.sawSib else s.disc.sawSia) = true →
      (s.disc.mismatch = true → ∃ t, exec (.topologyCopy i) s = .next t ∧ t.disc.running = false ∧ t.disc.ended = true
        ∧ t.get F.DISC_STATUS_done = 1 ∧ t.eventSet pgDISC Ev.DISC_done = true
        ∧ FieldsBut ([if i = .sia then F.DISC_ISLAND_CMP_sia_match else F.DISC_ISLAND_CMP_sib_match, F.DISC_STATUS_done]
            ++ eventFields pgDISC Ev.DISC_done) s t
        ∧ { t with regs := s.regs, flt := s.flt, disc := s.disc } = s)
      ∧ (s.disc.mismatch = false → ((List.range 6).all fun p => s.topoAt p == tabFind s.ident p) = true →
        ∃ t, exec (.topologyCopy i) s = .next t ∧ t.disc.running = false ∧ t.disc.ended = true ∧ t.disc.mismatch = false
        ∧ t.get F.DISC_STATUS_done = 1 ∧ t.eventSet pgDISC Ev.DISC_done = true
        ∧ (∀ d, d < 4 → s.topoAt d = none → t.cdState d = 0)
        ∧ (∀ (d : Fin 4) (a : DiscAnswer), s.topoAt d = some a → s.heldCauses a ≠ [] →
            t.cdState d = 6 ∧ t.get (F.CD_STATE_held_cause d) = (s.heldCauses a).headD 0))))
  ∧ (∀ (d : Fin 4) (s : State), s.cdState d = 2 → s.disc.mismatch = false →
    (∀ ans : Option DiscAnswer, s.sameDie d ans = false →
      ∃ t, exec (.rediscovery d ans) s = .next t ∧ t.cdState d = 6 ∧ t.get (F.CD_STATE_held_cause d) = 4
        ∧ t.eventSet pgDISC Ev.DISC_rediscovery_fail = true
        ∧ FieldsBut (F.CD_STATE_held_cause d :: eventFields pgDISC Ev.DISC_rediscovery_fail ++ s.dieStateFields d) s t
        ∧ { t with regs := s.regs, flt := s.flt } = s)
    ∧ (∀ a : DiscAnswer, s.sameDie d (some a) = true → (∀ k, k < 2 → s.get (stopField k d) = 0 ∧ s.get (fenceField k d) = 0) →
      ∃ t, exec (.rediscovery d (some a)) s = .next t ∧ t.cdState d = 3 ∧ t.get (F.CD_STATE_held_cause d) = 0
        ∧ t.get (F.CD_PHYS_MAP_enabled d) = a.unitMap.toNat % 2 ^ 26 ∧ t.get (F.ST_STATUS_in_service d) = 1
        ∧ t.eventSet (pgCD d) Ev.CD_state_change = true
        ∧ PagesBut (s.diePages d) [F.PCIE_MSI_PEND_pending] s t
        ∧ { t with regs := s.regs, flt := s.flt, stest := s.stest, isl := s.isl } = s)
    ∧ (s.disc.running = false → s.get F.DISC_RETRY_count ≤ tabGet s.disc.tries d.val 0 →
      ∃ t, exec (.discAnswerTimeout ⟨d.val, by omega⟩) s = .next t ∧ t.cdState d = 6 ∧ t.get (F.CD_STATE_held_cause d) = 4
        ∧ t.eventSet pgDISC Ev.DISC_rediscovery_fail = true ∧ { t with regs := s.regs, flt := s.flt } = s))
  ∧ (∀ (s s2 : State) (acc : Acc) (w : Word),
    (∀ ans : Option DiscAnswer, s.written pgDISC 0x020 acc = some (s2, w) →
      (w.getLsbD 0 = false ∨ s2.sameDie (s2.get F.DISC_CTRL_rescan_port) ans = true → exec (.rescan acc ans) s = .next s2)
      ∧ (w.getLsbD 0 = true → s2.get F.DISC_CTRL_rescan_port < 4 → s2.sameDie (s2.get F.DISC_CTRL_rescan_port) ans = false →
        (s2.cdState (s2.get F.DISC_CTRL_rescan_port) = 6 → exec (.rescan acc ans) s = .next (s2.raise pgDISC Ev.DISC_rediscovery_fail))
        ∧ (s2.cdState (s2.get F.DISC_CTRL_rescan_port) = 3 → ∃ t, exec (.rescan acc ans) s = .next t
            ∧ t.eventSet pgDISC Ev.DISC_rediscovery_fail = true
            ∧ (∀ i, i < 2 → t.island i = if s2.islUp i then { s2.island i with
                dieDue := setAdd (s2.island i).dieDue (s2.get F.DISC_CTRL_rescan_port) } else s2.island i)
            ∧ FieldsBut (eventFields pgDISC Ev.DISC_rediscovery_fail) s2 t
            ∧ { t with regs := s2.regs, flt := s2.flt, isl := s2.isl } = s2)))
    ∧ (∀ d : Fin 4, s.cdState d = 3 → s.written (pgCD d) 0x024 acc = some (s2, w) → w.getLsbD 0 = true → s2.cdState d = 3 →
        ∃ t, exec (.resetReq d acc) s = .next t
          ∧ (∀ i, i < 2 → t.island i = if s2.islUp i then { s2.island i with dieDue := setAdd (s2.island i).dieDue d } else s2.island i)
          ∧ { t with isl := s2.isl } = s2)
    ∧ (∀ d : Fin 4, s.cdState d = 6 → acc.be = 0xF#4 → acc.view = .base → acc.val.getLsbD 0 = true → s.hubOff = false → acc.poisoned = false →
        ∃ t, exec (.resetReq d acc) s = .next t
          ∧ (∀ i, i < 2 → t.island i = if s.islUp i then { s.island i with dieDue := setAdd (s.island i).dieDue d } else s.island i)
          ∧ { t with isl := s.isl } = s))

/-- R27, R28, R35, R532: the steps of an admission that succeeds. R33 to R35: a violation of whatever cause. -/
def Obligations.XsSlotLife : Prop :=
  (∀ s : State,
    (s.dikeState = 0 → s.fuse.xsPopulated = true → s.sec.boot.running = true →
      ∃ t, exec .admissionStart s = .next t ∧ t.dikeState = 1 ∧ t.dike = { s.dike with step := 1 }
        ∧ FieldsBut [F.DIKE_STATUS_state] s t ∧ { t with regs := s.regs, dike := s.dike } = s)
    ∧ (s.dike.step = 1 → exec .ucieTrainingDone s = .next { s with dike := { s.dike with step := 2 } })
    ∧ (∀ (cert : List Byte) (inter : Option (List Byte)), s.dike.step = 2 →
        ∃ t, exec (.chainReceived cert inter) s = .next t ∧ t.dikeState = 2
          ∧ t.dike = { s.dike with step := 3, cert := cert, inter := inter }
          ∧ FieldsBut [F.DIKE_STATUS_state] s t ∧ { t with regs := s.regs, dike := s.dike } = s)
    ∧ (s.dike.step = 3 → ∃ t, exec .chainVerified s = .next t
        ∧ (∀ k, s.chainSlot = some k →
            t.dikeState = 3 ∧ t.get F.DIKE_STATUS_key_slot = k % 8 ∧ t.get F.XSLOT_IDENT_maker = fieldAt s.dike.cert 0x10 4
            ∧ t.get F.DIKE_CTRL_enable = 1 ∧ t.get F.XSLOT_STATUS_open = 1 ∧ t.get F.GEN_XS_admitted = 1
            ∧ t.eventSet pgDIKE Ev.DIKE_admitted = true
            ∧ FieldsBut ([F.DIKE_STATUS_state, F.DIKE_STATUS_key_slot, F.DIKE_CTRL_enable, F.XSLOT_STATUS_open, F.XSLOT_IDENT_maker,
                F.GEN_XS_admitted] ++ eventFields pgDIKE Ev.DIKE_admitted) s t
            ∧ t.dike = { s.dike with step := 0 } ∧ t.sec = { s.sec with meas := tabSet s.sec.meas 9 (sha3_512 s.dike.cert) }
            ∧ { t with regs := s.regs, dike := s.dike, sec := s.sec, flt := s.flt } = s)
        ∧ (s.chainSlot = none → XsFaulted 8 0 0 s t))
    ∧ (s.dike.step ≠ 0 → ∃ t, exec .admissionOverrun s = .next t ∧ XsFaulted 9 0 0 s t)
    ∧ (1 ≤ s.dikeState → s.dikeState ≤ 3 → ∃ t, exec .ucieLinkLoss s = .next t ∧ XsFaulted 6 0 0 s t)
    ∧ (s.dikeState = 0 ∨ 4 ≤ s.dikeState → exec .ucieLinkLoss s = .next s))
  ∧ (∀ (acc : Acc) (s s2 : State) (w : Word), s.written pgDIKE 0x020 acc = some (s2, w) →
    (w.getLsbD 2 = true → w.getLsbD 1 = false → w.getLsbD 3 = false → s2.dikeState = 4 → (w.getLsbD 0 = true ∨ s2.get F.DIKE_CTRL_enable = 0) →
      ∃ t, exec (.readmit acc) s = .next t ∧ t.dikeState = 1 ∧ t.dike = { s2.dike with step := 1 }
        ∧ FieldsBut [F.DIKE_STATUS_state] s2 t ∧ { t with regs := s2.regs, dike := s2.dike } = s2)
    ∧ (w.getLsbD 3 = true → ∃ t, exec (.dikeFence acc) s = .next t ∧ XsFaulted 7 0 0 s2 t)
    ∧ (w.getLsbD 0 = false → s2.get F.DIKE_CTRL_enable = 1 → ∃ t, exec (.dikeEnableClear acc) s = .next t ∧ XsFaulted 7 0 0 s2 t)
    ∧ (w.getLsbD 1 = true → w.getLsbD 2 = false → w.getLsbD 3 = false → (w.getLsbD 0 = true ∨ s2.get F.DIKE_CTRL_enable = 0) →
      exec (.commit acc) s = .next { s2 with dike := { s2.dike with commitQ := true } }))

/-- R32: the commit of a window set applied. R25, R30, R31, R33: requests of the XS die. R41, R42: the mailbox from both sides. -/
def Obligations.XsTraffic : Prop :=
  (∀ s : State, s.dike.commitQ = true → s.dike.past = 0 →
    (s.windowsOk s.windowSet = true →
        ∃ t, exec .commitApply s = .next t ∧ t.dike = { s.dike with commitQ := false, windows := s.windowSet }
          ∧ t.get F.DIKE_STATUS_commit_err = 0 ∧ FieldsBut [F.DIKE_STATUS_commit_err] s t ∧ { t with regs := s.regs, dike := s.dike } = s)
    ∧ (s.windowsOk s.windowSet = false →
        ∃ t, exec .commitApply s = .next t ∧ t.dike = { s.dike with commitQ := false }
          ∧ t.get F.DIKE_STATUS_commit_err = 1 ∧ FieldsBut [F.DIKE_STATUS_commit_err] s t ∧ { t with regs := s.regs, dike := s.dike } = s))
  ∧ (∀ (r : XsReq) (s : State), s.dikeState = 3 →
    (r.code = .many → ∃ t, exec (.xsRequest r) s = .next t ∧ XsFaulted 5 0 r.addr.toNat s t)
    ∧ (r.code ≠ .many → r.kind = .reserved → ∃ t, exec (.xsRequest r) s = .next t ∧ XsFaulted 4 0 r.addr.toNat s t)
    ∧ (r.code ≠ .many → r.kind = .read ∨ r.kind = .write →
      (s.windowAt r.addr.toNat = none → ∃ t, exec (.xsRequest r) s = .next t ∧ XsFaulted 1 0 r.addr.toNat s t)
      ∧ (∀ (n : Nat) (w : Window) (a : Nat), s.windowAt r.addr.toNat = some (n, w) → a = r.addr.toNat →
        (w.base + w.size < a + 32 * r.words → ∃ t, exec (.xsRequest r) s = .next t ∧ XsFaulted 3 n a s t)
        ∧ (a + 32 * r.words ≤ w.base + w.size → w.perm.testBit (if r.kind = .write then 1 else 0) = false →
            ∃ t, exec (.xsRequest r) s = .next t ∧ XsFaulted 2 n a s t)
        ∧ (a + 32 * r.words ≤ w.base + w.size → w.perm.testBit (if r.kind = .write then 1 else 0) = true →
            s.dike.stalled = [] → w.rate ≠ 0 → max 1 (2 * min r.words w.burst) ≤ w.tokens →
            exec (.xsRequest r) s = .next (s.xsServe r n w))
        ∧ (a + 32 * r.words ≤ w.base + w.size → w.perm.testBit (if r.kind = .write then 1 else 0) = true →
            (s.dike.stalled ≠ [] ∨ w.tokens < max 1 (2 * min r.words w.burst)) →
            ∃ t, exec (.xsRequest r) s = .next t ∧ t.dike = { s.dike with stalled := s.dike.stalled ++ [r] }
              ∧ t.get F.DIKE_STALL_COUNT_stalls = (s.get F.DIKE_STALL_COUNT_stalls + r.words) % 2 ^ 32
              ∧ FieldsBut (F.DIKE_STALL_COUNT_stalls :: eventFields pgDIKE Ev.DIKE_stall) s t
              ∧ { t with regs := s.regs, dike := s.dike, flt := s.flt } = s)
        ∧ (∀ rest, s.dike.stalled = r :: rest → a + 32 * r.words ≤ w.base + w.size →
            w.perm.testBit (if r.kind = .write then 1 else 0) = true → w.rate ≠ 0 → max 1 (2 * min r.words w.burst) ≤ w.tokens →
            exec .xsRequestUnstall s = .next ({ s with dike := { s.dike with stalled := rest } }.xsServe r n w))
        ∧ (a + 32 * r.words ≤ w.base + w.size → w.perm.testBit (if r.kind = .write then 1 else 0) = true →
            s.dike.stalled = [] → w.rate ≠ 0 → max 1 (2 * min r.words w.burst) ≤ w.tokens → s.inHub a (32 * r.words) = true →
            (r.kind = .read → s.cond = [] → exec (.xsRequest r) s = .next { s with
                dike := s.spent n w (2 * min r.words w.burst)
                out := s.out ++ [⟨.xsReturn, [a, r.words, 0], (List.range (32 * r.words)).map fun k => cellGet s.mem (a + k)⟩] })
            ∧ (r.kind = .write → s.plainStore a (32 * r.words) = true → s.memOk → ∃ t, exec (.xsRequest r) s = .next t
                ∧ (∀ k, k < 32 * r.words → cellGet t.mem (a + k) = (r.data.flatMap fun (l : Line) => leBytes 32 l.toNat).getD k 0#8)
                ∧ BytesBut a (32 * r.words) s t
                ∧ { t with mem := s.mem } = { s with dike := s.spent n w (2 * min r.words w.burst) })))))
  ∧ (∀ (r : XsReq) (off : Nat) (s : State), s.dikeState = 3 → r.code ≠ .many → off % 4 = 0 → (off = 0x20 ∨ off = 0x24 ∨ (0x40 ≤ off ∧ off < 0x80)) →
    (∀ o : BitVec 12, r.kind = .mailboxRead o → o.toNat = off → exec (.xsRequest r) s = .next { s with
        out := s.out ++ [⟨.xsReturn, [off], leBytes 4 (if off = 0x20 then 0 else (s.regWord pgXSLOT off).toNat)⟩] })
    ∧ (∀ (o : BitVec 12) (v : Word), r.kind = .mailboxWrite o v → o.toNat = off → 0x24 ≤ off →
        ∃ t, exec (.xsRequest r) s = .next t
          ∧ (0x60 ≤ off → s.get F.XSLOT_STATUS_x2h_valid = 0 →
              t.regWord pgXSLOT off = v ∧ FieldsBut [wholeReg pgXSLOT off] s t ∧ { t with regs := s.regs } = s)
          ∧ (off < 0x60 ∨ s.get F.XSLOT_STATUS_x2h_valid = 1 → t = s)))
  ∧ (∀ s : State,
    (∀ (acc : Acc) (s2 : State) (w : Word), s.written pgXSLOT 0x020 acc = some (s2, w) →
      (w.getLsbD 0 = true → s2.get F.XSLOT_STATUS_open = 1 → (w.getLsbD 8 = false ∨ s2.get F.XSLOT_STATUS_x2h_valid = 0) →
        ∃ t, exec (.h2xRing acc) s = .next t ∧ t.get F.XSLOT_STATUS_h2x_pending = 1 ∧ FieldsBut [F.XSLOT_STATUS_h2x_pending] s2 t
          ∧ t.out = s2.out ++ [⟨.sideband, [0], (List.range 8).flatMap fun k => leBytes 4 (s2.get (F.XSLOT_H2X_DATA_data k))⟩]
          ∧ { t with regs := s2.regs, out := s2.out } = s2)
      ∧ (w.getLsbD 0 = false → w.getLsbD 8 = true → s2.get F.XSLOT_STATUS_x2h_valid = 1 →
        ∃ t, exec (.x2hAck acc) s = .next t ∧ t.get F.XSLOT_STATUS_x2h_valid = 0 ∧ FieldsBut [F.XSLOT_STATUS_x2h_valid] s2 t
          ∧ t.out = s2.out ++ [⟨.sideband, [1], []⟩] ∧ { t with regs := s2.regs, out := s2.out } = s2))
    ∧ (s.get F.XSLOT_STATUS_h2x_pending = 1 → ∃ t, exec .h2xAck s = .next t ∧ t.get F.XSLOT_STATUS_h2x_pending = 0
          ∧ t.eventSet pgXSLOT Ev.XSLOT_h2x_ack = true
          ∧ FieldsBut (F.XSLOT_STATUS_h2x_pending :: eventFields pgXSLOT Ev.XSLOT_h2x_ack) s t ∧ { t with regs := s.regs, flt := s.flt } = s)
    ∧ (s.get F.XSLOT_STATUS_open = 1 → s.get F.XSLOT_STATUS_x2h_valid = 0 → ∃ t, exec .x2hPost s = .next t
          ∧ t.get F.XSLOT_STATUS_x2h_valid = 1 ∧ t.eventSet pgXSLOT Ev.XSLOT_x2h_valid = true
          ∧ FieldsBut (F.XSLOT_STATUS_x2h_valid :: eventFields pgXSLOT Ev.XSLOT_x2h_valid) s t ∧ { t with regs := s.regs, flt := s.flt } = s)
    ∧ (∀ (k : Fin 8) (acc : Acc) (s2 : State) (w : Word), s.written pgXSLOT (0x040 + 4 * k) acc = some (s2, w) → acc.view = .base →
        ∃ t, exec (.h2xDataWrite k acc) s = .next t
          ∧ t.get (F.XSLOT_H2X_DATA_data k) = (if s.get F.XSLOT_STATUS_h2x_pending = 1 then s.get (F.XSLOT_H2X_DATA_data k) else acc.val.toNat)
          ∧ FieldsBut [F.XSLOT_H2X_DATA_data k] s t ∧ { t with regs := s.regs } = s))

/-- R51: the four views, on the scratch registers of GEN, which the device does not act on. R47, R51: reads and the RC fields, on GEN_ACCESS_ERR. -/
def Obligations.RegisterAccess : Prop :=
  (∀ (k : Fin 4) (acc : Acc) (s : State), s.takesWrites 0 acc = true → acc.be = 0xF#4 → tabFind s.armedBy 0 = none →
    (s.cell 0 (0x070 + 4 * k)).wrong = none →
    ∃ t, exec (.registerWrite 0#8 (BitVec.ofNat 12 (0x070 + 4 * k)) acc) s = .next t
      ∧ t.regWord 0 (0x070 + 4 * k) = (match acc.view with
          | .base => acc.val
          | .set => s.regWord 0 (0x070 + 4 * k) ||| acc.val
          | .clr => s.regWord 0 (0x070 + 4 * k) &&& ~~~acc.val
          | .tog => s.regWord 0 (0x070 + 4 * k) ^^^ acc.val)
      ∧ FieldsBut [wholeReg 0 (0x070 + 4 * k)] s t
      ∧ { t with regs := s.regs } = s)
  ∧ (∀ (req : Requester) (s : State), s.answersPage 0 req = true → s.get (F.BLK_STATUS_in_reset 0) = 0 → (s.cell 0 0x080).wrong = none →
    (∃ t, exec (.rcRead 0#8 0x080#12 .base 0xF#4 req) s = .next t ∧ t.readData = s.regWord 0 0x080 &&& 0x00FFFFFF#32
      ∧ t.get F.GEN_ACCESS_ERR_narrow = 0 ∧ t.get F.GEN_ACCESS_ERR_unmapped = 0
      ∧ FieldsBut [F.GEN_ACCESS_ERR_narrow, F.GEN_ACCESS_ERR_unmapped] s t
      ∧ { t with regs := s.regs, readData := s.readData } = s)
    ∧ (∃ t, exec (.rcRead 0#8 0x080#12 .base 0x1#4 req) s = .next t ∧ t.readData = s.regWord 0 0x080 &&& 0xFF#32
      ∧ t.get F.GEN_ACCESS_ERR_narrow = 0 ∧ FieldsBut [F.GEN_ACCESS_ERR_narrow] s t
      ∧ { t with regs := s.regs, readData := s.readData } = s)
    ∧ (∀ v : View, v ≠ .base → exec (.rcRead 0#8 0x080#12 v 0xF#4 req) s = .next { s with readData := s.regWord 0 0x080 }))

/-- R56: aliases. -/
def Obligations.AliasesBehaveAlike : Prop :=
  (∀ r ∈ pageDir, ∃ k, 5 ≤ k ∧ k ≤ 9 ∧ r.mask = 2 ^ k - 1)
    ∧ (∀ page off : Nat, (pageRun page).isSome = true → off ∈ [0, 4, 8, 0xC, 0x10, 0x14, 0x18, 0x1C] → pageIdent page off = off)
    ∧ ∀ (page : BitVec 8) (off off' : BitVec 12) (s : State), pageIdent page.toNat off.toNat = pageIdent page.toNat off'.toNat →
      (∀ acc : Acc, exec (.registerWrite page off acc) s = exec (.registerWrite page off' acc) s)
      ∧ ∀ (v : View) (be : BitVec 4) (req : Requester), exec (.rcRead page off v be req) s = exec (.rcRead page off' v be req) s

/-- R57: offsets at which no register is listed. -/
def Obligations.OffsetsWithoutRegister : Prop :=
  ∀ (page : BitVec 8) (off : BitVec 12) (s : State), regAt page.toNat (pageIdent page.toNat off.toNat) = none →
    (∀ (v : View) (be : BitVec 4) (req : Requester), s.answersPage page.toNat req = true →
      exec (.rcRead page off v be req) s = .next { s with readData := 0#32 })
    ∧ (∀ acc : Acc, s.answersPage page.toNat acc.req = true → cleanWrite acc = true → page ≠ 57#8 → page ≠ 58#8 →
      ∃ t, exec (.registerWrite page off acc) s = .next t
        ∧ FieldsBut (F.BLK_LEVEL_armed page.toNat :: if acc.be = 0xF#4 then [] else [F.GEN_ACCESS_ERR_narrow, F.GEN_ACCESS_ERR_last_page]) s t
        ∧ { t with regs := s.regs, armedBy := s.armedBy } = s)

/-- R44, R45: unmapped pages. R47: a narrow write. R408: a host's write in a poisoned TLP. -/
def Obligations.AccessesIgnored : Prop :=
  (∀ p, p < 256 → (pageRun p = none ↔ p = 63 ∨ (81 ≤ p ∧ p ≤ 95) ∨ (100 ≤ p ∧ p ≤ 127) ∨ 232 ≤ p))
  ∧ (∀ (s : State) (p : Nat), 128 ≤ p → p < 224 →
        (s.pageUnmapped p = true ↔ s.fuse.perDie ≤ (p - 128) % 24 ∨ s.get (F.CD_STATE_state ((p - 128) / 24)) = 0))
  ∧ (∀ (page : BitVec 8) (off : BitVec 12) (s : State), s.hubOff = false → s.pageUnmapped page.toNat = true →
      (∀ (v : View) (be : BitVec 4) (req : Requester), req ≠ .xs → ∃ t, exec (.rcRead page off v be req) s = .next t ∧ t.readData = 0#32
        ∧ t.get F.GEN_ACCESS_ERR_unmapped = min (s.get F.GEN_ACCESS_ERR_unmapped + 1) 255 ∧ t.get F.GEN_ACCESS_ERR_last_page = page.toNat
        ∧ FieldsBut [F.GEN_ACCESS_ERR_unmapped, F.GEN_ACCESS_ERR_last_page] s t ∧ { t with regs := s.regs, readData := s.readData } = s)
      ∧ (∀ acc : Acc, acc.req ≠ .xs → cleanWrite acc = true → acc.be = 0xF#4 → ∃ t, exec (.registerWrite page off acc) s = .next t
        ∧ t.get F.GEN_ACCESS_ERR_unmapped = min (s.get F.GEN_ACCESS_ERR_unmapped + 1) 255 ∧ t.get F.GEN_ACCESS_ERR_last_page = page.toNat
        ∧ FieldsBut [F.GEN_ACCESS_ERR_unmapped, F.GEN_ACCESS_ERR_last_page] s t ∧ { t with regs := s.regs } = s))
  ∧ (∀ (page : BitVec 8) (off : BitVec 12) (acc : Acc) (s : State), s.answersPage page.toNat acc.req = true → cleanWrite acc = true →
    acc.be ≠ 0xF#4 → page ≠ 57#8 → page ≠ 58#8 → (regAt page.toNat (pageIdent page.toNat off.toNat)).isSome = true →
    ∃ t, exec (.registerWrite page off acc) s = .next t ∧ t.get (F.BLK_STATUS_width_err page.toNat) = 1
      ∧ t.get F.GEN_ACCESS_ERR_narrow = min (s.get F.GEN_ACCESS_ERR_narrow + 1) 255 ∧ t.get F.GEN_ACCESS_ERR_last_page = page.toNat
      ∧ t.get (F.BLK_LEVEL_expert page.toNat) = (if pageIdent page.toNat off.toNat = 8 then 0 else s.get (F.BLK_LEVEL_expert page.toNat))
      ∧ FieldsBut ([F.BLK_STATUS_width_err page.toNat, F.GEN_ACCESS_ERR_narrow, F.GEN_ACCESS_ERR_last_page, F.BLK_LEVEL_armed page.toNat,
          F.BLK_LEVEL_expert page.toNat] ++ eventFields page.toNat 29) s t
      ∧ { t with regs := s.regs, armedBy := s.armedBy, flt := s.flt } = s)
  ∧ (∀ (page : BitVec 8) (off : BitVec 12) (acc : Acc) (s : State), s.hubOff = false → acc.req = .host → acc.poisoned = true →
    ∃ t, exec (.registerWrite page off acc) s = .next t ∧ t.eventSet pgPCIE Ev.PCIE_poisoned_in = true
      ∧ t.get F.PCIE_ERR_poisoned_in = min (s.get F.PCIE_ERR_poisoned_in + 1) 255
      ∧ FieldsBut (F.PCIE_ERR_poisoned_in :: eventFields pgPCIE Ev.PCIE_poisoned_in) s t ∧ { t with regs := s.regs, flt := s.flt } = s)

/-- R60: expert registers. -/
def Obligations.ExpertLevel : Prop :=
  (∀ ident ∈ [0, 4, 8, 0xC, 0x10, 0x14, 0x18, 0x1C], (isExpert ident = true ↔ ident = 0x1C))
    ∧ ∀ (page : BitVec 8) (off : BitVec 12) (acc : Acc) (s : State), s.takesWrites page.toNat acc = true → acc.be = 0xF#4 →
      (regAt page.toNat (pageIdent page.toNat off.toNat)).isSome = true → isExpert (pageIdent page.toNat off.toNat) = true →
      pageIdent page.toNat off.toNat ≠ 8 →
      (s.get (F.BLK_LEVEL_expert page.toNat) = 0 → ∃ t, exec (.registerWrite page off acc) s = .next t
        ∧ t.get (F.BLK_STATUS_level_reject page.toNat) = 1
        ∧ FieldsBut ([F.BLK_STATUS_level_reject page.toNat, F.BLK_LEVEL_armed page.toNat] ++ eventFields page.toNat 29) s t
        ∧ { t with regs := s.regs, armedBy := s.armedBy, flt := s.flt } = s)
      ∧ (s.get (F.BLK_LEVEL_expert page.toNat) = 1 →
        s.gate page.toNat off.toNat acc = .pass (s.disarm page.toNat) (pageIdent page.toNat off.toNat))
      ∧ (∀ (v : View) (be : BitVec 4) (req : Requester) (t u : State),
        exec (.rcRead page off v be req) s = .next t →
        exec (.rcRead page off v be req) (s.put (F.BLK_LEVEL_expert page.toNat) (1 - s.get (F.BLK_LEVEL_expert page.toNat))) = .next u →
        u.readData = t.readData)

/-- R61 to R63: the unlock sequence. -/
def Obligations.UnlockSequence : Prop :=
  ∀ (page : BitVec 8) (acc : Acc) (s : State),
    (s.takesWrites page.toNat acc = true → acc.be = 0xF#4 →
      (acc.view = .base → acc.val = 0x5A5A#32 → (acc.req = .host → s.get F.GEN_HOST_EXPERT_allow = 1) →
        ∃ t, exec (.blkLevelWrite page acc) s = .next t
        ∧ t.get (F.BLK_LEVEL_armed page.toNat) = 1 ∧ t.get (F.BLK_LEVEL_expert page.toNat) = 0 ∧ tabFind t.armedBy page.toNat = some acc.req
        ∧ FieldsBut [F.BLK_LEVEL_armed page.toNat, F.BLK_LEVEL_expert page.toNat] s t ∧ { t with regs := s.regs, armedBy := s.armedBy } = s)
      ∧ (acc.view = .base → acc.val = 0xA5A5#32 → tabFind s.armedBy page.toNat = some acc.req →
        (acc.req = .host → s.get F.GEN_HOST_EXPERT_allow = 1) →
        ∃ t, exec (.blkLevelWrite page acc) s = .next t
        ∧ t.get (F.BLK_LEVEL_armed page.toNat) = 0 ∧ t.get (F.BLK_LEVEL_expert page.toNat) = 1 ∧ tabFind t.armedBy page.toNat = none
        ∧ FieldsBut [F.BLK_LEVEL_armed page.toNat, F.BLK_LEVEL_expert page.toNat] s t ∧ { t with regs := s.regs, armedBy := s.armedBy } = s)
      ∧ (acc.view = .base → acc.val = 0x5A5A#32 ∨ acc.val = 0xA5A5#32 → acc.req = .host → s.get F.GEN_HOST_EXPERT_allow = 0 →
        ∃ t, exec (.blkLevelWrite page acc) s = .next t ∧ t.get (F.BLK_LEVEL_expert page.toNat) = 0
        ∧ t.get (F.BLK_STATUS_level_reject page.toNat) = 1 ∧ tabFind t.armedBy page.toNat = none
        ∧ FieldsBut ([F.BLK_LEVEL_armed page.toNat, F.BLK_LEVEL_expert page.toNat, F.BLK_STATUS_level_reject page.toNat]
            ++ eventFields page.toNat 29) s t
        ∧ { t with regs := s.regs, armedBy := s.armedBy, flt := s.flt } = s)
      ∧ (acc.view ≠ .base ∨ (acc.val ≠ 0x5A5A#32 ∧ acc.val ≠ 0xA5A5#32) →
        ∃ t, exec (.blkLevelWrite page acc) s = .next t ∧ t.get (F.BLK_LEVEL_expert page.toNat) = 0 ∧ tabFind t.armedBy page.toNat = none
        ∧ FieldsBut [F.BLK_LEVEL_armed page.toNat, F.BLK_LEVEL_expert page.toNat] s t ∧ { t with regs := s.regs, armedBy := s.armedBy } = s))
    ∧ (tabFind s.armedBy page.toNat = some acc.req → ∃ t, exec (.unlockTimeout page) s = .next t
        ∧ t.get (F.BLK_LEVEL_armed page.toNat) = 0 ∧ tabFind t.armedBy page.toNat = none
        ∧ FieldsBut [F.BLK_LEVEL_armed page.toNat] s t ∧ { t with regs := s.regs, armedBy := s.armedBy } = s)
    ∧ (∀ off : BitVec 12, s.takesWrites page.toNat acc = true → pageIdent page.toNat off.toNat ≠ 8 →
        ∃ t, exec (.registerWrite page off acc) s = .next t ∧ tabFind t.armedBy page.toNat = none)
    ∧ (s.takesWrites 0 acc = true → acc.be = 0xF#4 → acc.view = .base → s.get (F.BLK_LEVEL_expert 0) = 1 →
        ∃ t, exec (.genHostExpertWrite acc) s = .next t
        ∧ t.get F.GEN_HOST_EXPERT_allow = (if acc.req = .mgmt then acc.val.toNat % 2 else s.get F.GEN_HOST_EXPERT_allow)
        ∧ FieldsBut [F.GEN_HOST_EXPERT_allow, F.BLK_LEVEL_armed 0] s t ∧ { t with regs := s.regs, armedBy := s.armedBy } = s)

/-- R58, R59: the scrub. R66, R67, R69, R70: block resets. -/
def Obligations.ScrubAndResets : Prop :=
  (∀ (page : BitVec 8) (r : PageRun) (s : State), pageRun page.toNat = some r →
    ∃ t, exec (.tumblerScrub page) s = .next t
      ∧ (∀ i ∈ tumblerIdents page.toNat, (t.cell page.toNat i).wrong = none)
      ∧ (∀ e ∈ t.selCells r.blk (page.toNat - r.first), e.2.2.wrong = none)
      ∧ (t.selCells r.blk (page.toNat - r.first)).map (fun e => (e.1, e.2.1, e.2.2.vote))
          = (s.selCells r.blk (page.toNat - r.first)).map (fun e => (e.1, e.2.1, e.2.2.vote))
      ∧ FieldsBut ([wholeReg page.toNat 0x018] ++ eventFields page.toNat 31) s t
      ∧ (r.blk ∉ [.ing, .fus, .xgs, .mc, .sec] → { t with regs := s.regs, flt := s.flt } = s)
      ∧ { t with regs := s.regs, flt := s.flt, streams := s.streams, fus := s.fus, xgs := s.xgs, mcs := s.mcs, sec := s.sec } = s)
  ∧ (∀ s : State,
    (∀ (acc : Acc) (s2 : State) (w : Word), s.written pgGEN 0x104 acc = some (s2, w) → w.getLsbD 31 = true →
      (s2.blockResetNo (F.GEN_BLK_RESET_page.ext w) = true → ∃ t, exec (.blockReset acc) s = .next t ∧ t.get F.GEN_BLK_RESET_refused = 1
        ∧ FieldsBut [F.GEN_BLK_RESET_refused] s2 t ∧ { t with regs := s2.regs } = s2)
      ∧ (∀ (p : Nat) (r : PageRun), s2.blockResetNo (F.GEN_BLK_RESET_page.ext w) = false → F.GEN_BLK_RESET_page.ext w = p → pageRun p = some r →
        ∃ t, exec (.blockReset acc) s = .next t
        ∧ t.get (F.BLK_STATUS_in_reset p) = 1 ∧ t.get (F.BLK_STATUS_ready p) = 0
        ∧ t.get F.GEN_BLK_RESET_busy = 1 ∧ t.get F.GEN_BLK_RESET_refused = 0
        ∧ t.get (F.BLK_LEVEL_expert p) = 0 ∧ tabFind t.armedBy p = none
        ∧ (r.blk ∈ [.disc, .xslot, .pwr, .thm, .fenceB, .st, .eth, .psr, .nor, .det, .ego, .sec] →
            PagesBut [p] [F.GEN_BLK_RESET_busy, F.GEN_BLK_RESET_refused] s2 t ∧ t.regWord p 0x014 = 0#32
            ∧ t.det = (if r.blk = .det then {} else s2.det) ∧ t.ego = (if r.blk = .ego then {} else s2.ego)
            ∧ t.egoIn = (if r.blk = .ego then [] else s2.egoIn) ∧ t.sec = (if r.blk = .sec then { s2.sec with attest := none } else s2.sec)
            ∧ { t with regs := s2.regs, armedBy := s2.armedBy, det := s2.det, ego := s2.ego, egoIn := s2.egoIn, sec := s2.sec } = s2)))
    ∧ (s.pagesInReset ≠ [] → ∃ t, exec .blockResetDone s = .next t ∧ t.pagesInReset = []
        ∧ (∀ p ∈ s.pagesInReset, t.get (F.BLK_STATUS_ready p) = 1) ∧ t.get F.GEN_BLK_RESET_busy = 0
        ∧ FieldsBut (F.GEN_BLK_RESET_busy :: s.pagesInReset.flatMap fun p => [F.BLK_STATUS_in_reset p, F.BLK_STATUS_ready p]) s t
        ∧ (∀ i, i < 2 → t.island i = { s.island i with
            engine := if (s.island i).engine.any fun p => s.pagesInReset.contains p then none else (s.island i).engine })
        ∧ { t with regs := s.regs, isl := s.isl } = s)
    ∧ (∀ (acc : Acc) (s2 : State) (w : Word), s.written pgGEN 0x060 acc = some (s2, w) → w.getLsbD 0 = true →
        ∃ t, exec (.moduleResetReq acc) s = .next t
          ∧ (∀ i, i < 2 → t.island i = if s2.islUp i then { s2.island i with modDue := setAdd (s2.island i).modDue 2 } else s2.island i)
          ∧ { t with isl := s2.isl } = s2))

/-- R65: the fault route. -/
def Obligations.RouteOnlyWidens : Prop :=
  ∀ (page : BitVec 8) (r : PageRun) (acc : Acc) (s t : State), pageRun page.toNat = some r →
    let bits := BitVec.ofNat 32 (faultRouteReset r.blk) &&& 0x0031FFFF#32
    let low := (F.BLK_FAULT_ROUTE_severity 0).ext (BitVec.ofNat 32 (faultRouteReset r.blk))
    s.regWord page.toNat 0x01C &&& bits = bits → low ≤ s.get (F.BLK_FAULT_ROUTE_severity page.toNat) →
    exec (.registerWrite page 0x01C#12 acc) s = .next t →
    t.regWord page.toNat 0x01C &&& bits = bits ∧ low ≤ t.get (F.BLK_FAULT_ROUTE_severity page.toNat)

/-- R36 to R38: the hotspot grid and the stack's throttle step. R38, R103, R504: thermal thresholds of a stack, clock step of a die. -/
def Obligations.StackLimits : Prop :=
  (∀ (d : Fin 4) (temps : List (Option Int)) (s : State),
    (s.cdState d ≠ 0 → s.cdState d ≠ 1 →
      let ps := validPoints temps (s.get (F.CD_GRID_MASK_exclude d))
      ∃ t, exec (.gridSample d temps) s = .next t
        ∧ t.get (F.CD_HOTSPOT_MAX_valid_count d) = ps.length
        ∧ (∀ k, k < 16 → ∀ v, temps.getD k none = some v → t.get (F.CD_HOTSPOT_temp d k) = ofInt 16 v)
        ∧ (∀ k T, hottest ps = some (k, T) → t.get (F.CD_HOTSPOT_MAX_point d) = k ∧ t.get (F.CD_HOTSPOT_MAX_temp d) = ofInt 16 T
            ∧ (1888 ≤ T → t.eventSet (pgCD d) Ev.CD_hotspot = true)
            ∧ (12 ≤ ps.length → t.get (F.ST_STATUS_step d) = (if tabFind s.spilled d.val = none then
                s.throttle d T (s.get (F.ST_STATUS_step d)) else s.get (F.ST_STATUS_step d))))
        ∧ (ps.length < 12 → t.get (F.ST_STATUS_step d) = 3 ∧ t.eventSet (pgST d) Ev.ST_grid_degraded = true)
        ∧ (t.get (F.ST_STATUS_step d) ≠ s.get (F.ST_STATUS_step d) →
            t.get (F.ST_STEP_COUNT_changes d) = (s.get (F.ST_STEP_COUNT_changes d) + 1) % 2 ^ 32
            ∧ t.eventSet (pgST d) Ev.ST_step_change = true)
        ∧ FieldsBut ([F.CD_HOTSPOT_MAX_valid_count d, F.CD_HOTSPOT_MAX_point d, F.CD_HOTSPOT_MAX_temp d, F.ST_STATUS_step d,
            F.ST_STEP_COUNT_changes d] ++ (List.range 16).map (fun k => F.CD_HOTSPOT_temp d k) ++ eventFields (pgCD d) Ev.CD_hotspot
            ++ eventFields (pgST d) Ev.ST_step_change ++ eventFields (pgST d) Ev.ST_grid_degraded) s t
        ∧ { t with regs := s.regs, flt := s.flt } = s)
    ∧ (s.cdState d = 0 ∨ s.cdState d = 1 → exec (.gridSample d temps) s = .next s))
  ∧ (∀ (n : Fin 4) (acc : Acc) (s : State), acc.view = .base → acc.be = 0xF#4 →
    (∀ k : Fin 3, s.takesWrites (pgST n) acc = true → s.get (F.BLK_LEVEL_expert (pgST n)) = 1 →
      ∃ t, exec (.stThrWrite n k acc) s = .next t
        ∧ t.get ⟨pgST n, 0x100 + 4 * k, 7, 0⟩ = min (acc.val.toNat % 256) ([100, 110, 118].getD k 0)
        ∧ FieldsBut [wholeReg (pgST n) (0x100 + 4 * k), F.BLK_LEVEL_armed (pgST n)] s t ∧ { t with regs := s.regs, armedBy := s.armedBy } = s)
    ∧ (s.takesWrites (pgST n) acc = true → s.get (F.BLK_LEVEL_expert (pgST n)) = 1 →
      ∃ t, exec (.stHystWrite n acc) s = .next t
        ∧ t.get (F.ST_HYST_degrees n) = min (max (acc.val.toNat % 16) 3) 8
        ∧ FieldsBut [wholeReg (pgST n) 0x10C, F.BLK_LEVEL_armed (pgST n)] s t ∧ { t with regs := s.regs, armedBy := s.armedBy } = s)
    ∧ (s.takesWrites (pgCD n) acc = true → s.get F.PWR_SERVICE_level ≠ 1 → tabFind s.pwr.dips n = none →
      ∃ t, exec (.clkStepWrite n acc) s = .next t
        ∧ t.get (F.CD_CTRL_clk_step n) = (F.CD_CTRL_clk_step n).ext acc.val
        ∧ t.get (F.PWR_CLK_array n) = (F.CD_CTRL_clk_step n).ext acc.val
        ∧ FieldsBut [wholeReg (pgCD n) 0x024, F.PWR_CLK_array n, F.BLK_LEVEL_armed (pgCD n)] s t
        ∧ (∀ d, d < 4 → { t.stDie d with noMore := (s.stDie d).noMore } = s.stDie d)
        ∧ { t with regs := s.regs, armedBy := s.armedBy, stest := s.stest } = s))

/-- R112, R123: class 0x0 of the instruction table, where the instruction that follows is sound. -/
def Obligations.SeqControl : Prop :=
  ∀ (n : Arr) (s : State),
    let k := arrNum n
    let a := s.arr k
    let i := s.insn k
    (s.issues k 0x00 = true → s.sound k (s.nextPc k) = true →
      ∃ t, exec (.nop n) s = .next t ∧ Moved k (s.nextPc k) s t ∧ { t with regs := s.regs } = s)
    ∧ (s.issues k 0x02 = true → s.sound k i.target = true →
      ∃ t, exec (.jmp n) s = .next t ∧ Moved k i.target s t ∧ { t with regs := s.regs } = s)
    ∧ (s.issues k 0x03 = true → s.sound k (if a.operand i.a = 0 then i.target else s.nextPc k) = true →
      ∃ t, exec (.brz n) s = .next t ∧ Moved k (if a.operand i.a = 0 then i.target else s.nextPc k) s t ∧ { t with regs := s.regs } = s)
    ∧ (s.issues k 0x04 = true → s.sound k (if a.operand i.a = 0 then s.nextPc k else i.target) = true →
      ∃ t, exec (.brnz n) s = .next t ∧ Moved k (if a.operand i.a = 0 then s.nextPc k else i.target) s t ∧ { t with regs := s.regs } = s)
    ∧ (s.issues k 0x05 = true → refReg i.a ≠ 0 → s.sound k (if a.operand i.a = 1 then s.nextPc k else i.target) = true →
      ∃ t, exec (.loop n) s = .next t ∧ Moved k (if a.operand i.a = 1 then s.nextPc k else i.target) s t
        ∧ t.arrs = tabSet s.arrs k (a.setScalar (refReg i.a) (a.operand i.a + 2 ^ 64 - 1)) ∧ { t with regs := s.regs, arrs := s.arrs } = s)
    ∧ (s.issues k 0x06 = true → a.stack.length < 8 → s.sound k i.target = true →
      ∃ t, exec (.call n) s = .next t ∧ Moved k i.target s t
        ∧ t.arrs = tabSet s.arrs k { a with stack := s.nextPc k :: a.stack, srCond := srMerge a.srCond 32 } ∧ { t with regs := s.regs, arrs := s.arrs } = s)
    ∧ (∀ pc rest, s.issues k 0x07 = true → a.stack = pc :: rest → s.sound k pc = true →
      ∃ t, exec (.ret n) s = .next t ∧ Moved k pc s t
        ∧ t.arrs = tabSet s.arrs k { a with stack := rest } ∧ { t with regs := s.regs, arrs := s.arrs } = s)
    ∧ (s.issues k 0x01 = true → s.drained k = true →
      ∃ t, exec (.endSlot n) s = .next t ∧ t.get (F.ARR_STATE_state k) = 0 ∧ t.get (F.ARR_JOB_QUEUE_valid k) = 0
        ∧ t.get (F.ARR_ISSUED_count k) = (s.get (F.ARR_ISSUED_count k) + 1) % 2 ^ 32 ∧ t.eventSet (pgARR k) Ev.ARR_job_done = true
        ∧ FieldsBut ([F.ARR_STATE_state k, F.ARR_JOB_QUEUE_valid k, F.ARR_ISSUED_count k, F.ARR_RED_granted k, F.ARR_RED_reserved k]
            ++ eventFields (pgARR k) Ev.ARR_job_done) s t
        ∧ t.arrs = tabSet s.arrs k { a with ending := false, wait := .none, stop := none, loading := false }
        ∧ (∀ j, s.arrJob k = some j → t.jobs = (s.setJob { j with
            slots := listSet j.slots a.slot { j.slots.getD a.slot {} with phase := 3, pc := s.get (F.ARR_PC_pc k) } }).jobs)
        ∧ (s.arrJob k = none → t.jobs = s.jobs)
        ∧ { t with regs := s.regs, arrs := s.arrs, jobs := s.jobs, flt := s.flt } = s)

/-- R123: the scalar operations, where the instruction that follows is sound. -/
def Obligations.SeqScalars : Prop :=
  ∀ (n : Arr) (s : State),
    let k := arrNum n
    let a := s.arr k
    let i := s.insn k
    let simm := ofInt 64 (toSigned 32 i.imm)
    let writes := fun (c : Instr) (v : Nat) =>
      ∃ t, exec c s = .next t ∧ Moved k (s.nextPc k) s t ∧ t.arrs = tabSet s.arrs k (a.setScalar (refReg i.d) v)
        ∧ { t with regs := s.regs, arrs := s.arrs } = s
    s.sound k (s.nextPc k) = true →
      (s.issues k 0x08 = true → writes (.sli n) i.imm)
      ∧ (s.issues k 0x09 = true → writes (.slih n) (a.operand i.d % 2 ^ 32 + 2 ^ 32 * i.imm))
      ∧ (s.issues k 0x0A = true → writes (.sadd n) (a.operand i.a + (if i.b = 0xFFFF then simm else a.operand i.b)))
      ∧ (s.issues k 0x0B = true → writes (.ssub n) (a.operand i.a + 2 ^ 64 - a.operand i.b))
      ∧ (s.issues k 0x0C = true → writes (.smul n) (a.operand i.a * simm))
      ∧ (s.issues k 0x0D = true → fieldAt (a.td i.a) 0 1 = 0 → writes (.sget n) 0)
      ∧ (∀ f, s.issues k 0x0D = true → fieldAt (a.td i.a) 0 1 ≠ 0 → tdField (fieldAt (a.td i.a) 0 1) i.imm = some f →
          writes (.sget n) (fieldAt (a.td i.a) f.1 f.2))
      ∧ (s.issues k 0x1B = true → writes (.rdslot n) (if i.mod = 1 then ((s.arrJob k).map Job.slotCount).getD 1 else a.slot))
      ∧ (s.issues k 0xF1 = true → ∃ t, exec (.rdid n) s = .next t ∧ t.get (F.ARR_PC_pc k) = s.nextPc k ∧ t.get (F.ARR_STATE_nonrepro k) = 1
          ∧ FieldsBut [F.ARR_PC_pc k, F.ARR_ISSUED_count k, F.ARR_STATE_nonrepro k] s t
          ∧ t.arrs = tabSet s.arrs k (a.setScalar (refReg i.d)
              (s.get (F.ARR_STATE_phys k) + 256 * n.die.val + 65536 * s.get (F.DISC_TOPO_CLASS_stepping n.die.val)))
          ∧ (∀ j, s.arrJob k = some j → t.jobs = (s.setJob { j with nonrepro := true }).jobs)
          ∧ { t with regs := s.regs, arrs := s.arrs, jobs := s.jobs } = s)
      ∧ (s.issues k 0xF0 = true → ∃ t, exec (.rdcyc n) s = .next t ∧ t.get (F.ARR_PC_pc k) = s.nextPc k ∧ t.get (F.ARR_STATE_nonrepro k) = 1
          ∧ FieldsBut [F.ARR_PC_pc k, F.ARR_ISSUED_count k, F.ARR_STATE_nonrepro k] s t
          ∧ t.arrs = tabSet s.arrs k ({ a with cycles := (t.arr k).cycles }.setScalar (refReg i.d) (t.arr k).cycles)
          ∧ (∀ j, s.arrJob k = some j → t.jobs = (s.setJob { j with nonrepro := true }).jobs)
          ∧ { t with regs := s.regs, arrs := s.arrs, jobs := s.jobs, freeCtr := s.freeCtr } = s)

/-- R127 to R131, R154, R155: waits, barriers and row counters, where the instruction that follows is sound. R137, R331, R476: diagnostics, where the instruction that follows is sound. -/
def Obligations.SeqWaitsAndDiagnostics : Prop :=
  (∀ (n : Arr) (s : State),
    let k := arrNum n
    let a := s.arr k
    let i := s.insn k
    let holds := fun (c : Instr) (w : ArrWait) =>
      ∃ t, exec c s = .next t ∧ Waits k s t ∧ t.arrs = tabSet s.arrs k { a with wait := w } ∧ { t with regs := s.regs, arrs := s.arrs } = s
    let ends := fun (c : Instr) (pc : Nat) =>
      ∃ t, exec c s = .next t ∧ t.get (F.ARR_PC_pc k) = pc ∧ FieldsBut [F.ARR_PC_pc k] s t
        ∧ t.arrs = tabSet s.arrs k { a with wait := .none } ∧ { t with regs := s.regs, arrs := s.arrs } = s
    (s.issues k 0x10 = true → holds (.fenceA n) (.fence 0))
    ∧ (s.issues k 0x11 = true → holds (.fenceD n) (.fence 1))
    ∧ (s.issues k 0x12 = true → holds (.fenceP n) (.fence 2))
    ∧ (s.issues k 0x13 = true → holds (.fenceX n) (.fence 3))
    ∧ (s.issues k 0x16 = true → holds (.fwait n) (.obj (refObj i.c) (a.operand i.a)))
    ∧ (s.issues k 0x18 = true → s.rowCounter (a.operand i.a) = true → holds (.rowwait n) (.row (a.operand i.a) (a.operand i.b)))
    ∧ (s.issues k 0x19 = true → s.rowCounter (a.operand i.a) = true → s.get (F.ARR_STATE_exact k) = 1 →
        holds (.rowwaitT n) (.rowT (a.operand i.a) (a.operand i.b) (a.operand i.c) i.imm))
    ∧ (s.issues k 0x15 = true → s.drained k = true → s.fence (refObj i.c) + 1 < 2 ^ 64 →
        0 < i.imm % 65536 → i.imm % 65536 ≤ ((s.arrJob k).map Job.slotCount).getD 1 →
        ∃ t, exec (.barP n) s = .next t ∧ Waits k s t ∧ t.fence (refObj i.c) = s.fence (refObj i.c) + 1
          ∧ (t.arr k).wait = .barP (refObj i.c) ((s.fence (refObj i.c) / (i.imm % 65536) + 1) * (i.imm % 65536))
          ∧ { t with regs := s.regs, arrs := s.arrs, fences := s.fences } = s)
    ∧ (∀ j, s.issues k 0x14 = true → s.drained k = true → s.arrJob k = some j → 0 < i.imm / 65536 → i.imm / 65536 ≤ j.slotsOn n.die.val →
        ∃ t, exec (.barD n) s = .next t ∧ Waits k s t
          ∧ (t.arr k).wait = .barD (n.die.val * 64 + i.imm % 64)
              ((tabGet j.bars (n.die.val * 64 + i.imm % 64) 0 / (i.imm / 65536) + 1) * (i.imm / 65536))
          ∧ t.jobs = (s.setJob { j with
              bars := tabSet j.bars (n.die.val * 64 + i.imm % 64) (tabGet j.bars (n.die.val * 64 + i.imm % 64) 0 + 1) }).jobs
          ∧ { t with regs := s.regs, arrs := s.arrs, jobs := s.jobs } = s)
    ∧ (s.get (F.ARR_STATE_state k) = 1 → s.sound k (s.nextPc k) = true →
        (∀ o v, a.wait = .obj o v → v ≤ s.fence o → ends (.fwaitSatisfied n) (s.nextPc k))
        ∧ (∀ o v, a.wait = .barP o v → v ≤ s.fence o → ends (.barrierRelease n) (s.nextPc k))
        ∧ (∀ c v j, a.wait = .barD c v → s.arrJob k = some j → v ≤ tabGet j.bars c 0 → ends (.barrierRelease n) (s.nextPc k))
        ∧ (∀ addr row, a.wait = .row addr row → s.storeAt addr = true → tabFind s.cond (s.place addr / 32) = none → s.spilled = [] →
            addr % 8 = 0 → row ≤ s.peekNat addr 8 → ends (.rowwaitSatisfied n) (s.nextPc k)))
    ∧ (∀ addr row limit target, s.get (F.ARR_STATE_state k) = 1 → a.wait = .rowT addr row limit target → s.sound k target = true →
        s.poisonedAt addr 8 = false → s.peekNat addr 8 < row → ends (.rowwaitTExpiry n) target)
    ∧ (s.issues k 0x1A = true → s.drained k = true → s.rowCounter (a.operand i.a) = true → s.region (a.operand i.a) = .pool n.die.val →
        s.sound k (s.nextPc k) = true → s.cond = [] → s.spilled = [] →
        (s.peekNat (a.operand i.a) 8 ≤ a.operand i.b → ∃ t, exec (.rowpub n) s = .next t ∧ Moved k (s.nextPc k) s t
          ∧ t.peekNat (a.operand i.a) 8 = a.operand i.b % 2 ^ 64 ∧ BytesBut (a.operand i.a) 8 s t ∧ { t with regs := s.regs, mem := s.mem } = s)
        ∧ (a.operand i.b < s.peekNat (a.operand i.a) 8 → exec (.rowpub n) s = .next (s.slotFault k 2))))
  ∧ (∀ (n : Arr) (s : State),
    let k := arrNum n
    let a := s.arr k
    let i := s.insn k
    let w := a.lbWord i.a
    let bytes := (a.wordsAt w i.imm).flatMap (·.1)
    s.sound k (s.nextPc k) = true →
      (s.issues k 0xF3 = true → lbFits w i.imm = true → a.flights = [] → a.lbCond = [] →
        ∃ t, exec (.lbsig n) s = .next t ∧ Moved k (s.nextPc k) s t
          ∧ t.arrs = tabSet s.arrs k (a.setScalar (refReg i.d) (crc64 bytes).toNat) ∧ { t with regs := s.regs, arrs := s.arrs } = s)
      ∧ (∀ j, s.issues k 0xF2 = true → lbFits w i.imm = true → a.flights = [] → a.lbCond = [] → s.arrJob k = some j →
        ∃ t, exec (.ckdig n) s = .next t ∧ Moved k (s.nextPc k) s t
          ∧ t.jobs = (s.setJob { j with
              tiles := j.tiles ++ [⟨a.slot, a.tiles, n.num.val, n.die.val, s.get (F.ARR_STATE_phys k), digest64 bytes⟩] }).jobs
          ∧ (t.arr k).tiles = a.tiles + 1 ∧ { t with regs := s.regs, arrs := s.arrs, jobs := s.jobs } = s)
      ∧ (s.issues k 0xF4 = true → (s.get F.SEC_DEBUG_STATE_scope).testBit 4 = false →
        ∃ t, exec (.brk n) s = .next t ∧ Moved k (s.nextPc k) s t ∧ { t with regs := s.regs } = s)
      ∧ (s.issues k 0xF4 = true → (s.get F.SEC_DEBUG_STATE_scope).testBit 4 = true → (∀ j, s.arrJob k = some j → j.safety = false) →
        ∃ t, exec (.brk n) s = .next t ∧ t.get (F.ARR_STATE_state k) = 2 ∧ t.get (F.ARR_PC_pc k) = s.nextPc k
          ∧ t.eventSet (pgARR k) Ev.ARR_halted = true
          ∧ FieldsBut ([F.ARR_STATE_state k, F.ARR_PC_pc k, F.ARR_ISSUED_count k] ++ eventFields (pgARR k) Ev.ARR_halted) s t
          ∧ { t with regs := s.regs, flt := s.flt } = s))

/-- R122, R135: refusal at issue, on the commands of class 0x0 and 0x1. -/
def Obligations.SeqRefused : Prop :=
  ∀ (n : Arr) (s : State) (op : Nat) (c : Instr),
    let k := arrNum n
    (op, c) ∈ [(0x00, .nop n), (0x01, .endSlot n), (0x02, .jmp n), (0x03, .brz n), (0x04, .brnz n), (0x05, .loop n), (0x06, .call n),
      (0x07, .ret n), (0x08, .sli n), (0x09, .slih n), (0x0A, .sadd n), (0x0B, .ssub n), (0x0C, .smul n), (0x0D, .sget n),
      (0x10, .fenceA n), (0x11, .fenceD n), (0x12, .fenceP n), (0x13, .fenceX n), (0x14, .barD n), (0x15, .barP n), (0x16, .fwait n),
      (0x18, .rowwait n), (0x19, .rowwaitT n), (0x1A, .rowpub n), (0x1B, .rdslot n), (0xF0, .rdcyc n), (0xF1, .rdid n),
      (0xF2, .ckdig n), (0xF3, .lbsig n), (0xF4, .brk n)] →
    s.due k op = true → s.issueCause k (s.insn k) ≠ 0 →
    ∃ t, exec c s = .next t ∧ t = s.slotFault k (s.issueCause k (s.insn k)) ∧ t.get (F.ARR_STATE_state k) = 4
      ∧ t.get (F.ARR_FAULT_cause k) = s.issueCause k (s.insn k) ∧ t.eventSet (pgARR k) Ev.ARR_fault = true
      ∧ t.mem = s.mem ∧ t.cond = s.cond ∧ t.fences = s.fences

/-- R99, R123, R124: classes 0x4 to 0x6. -/
def Obligations.VectorOps : Prop :=
  ∀ (n : Arr) (s : State),
    let k := arrNum n
    let a := s.arr k
    let i := s.insn k
    let d := a.lbWord i.d
    let x := a.vecA i 32
    let y := a.vecB i
    let z := a.vecReuse i i.c
    let writes := fun (c : Instr) (u : IssueUnit) (rd : List (Nat × Nat)) (w : Nat) (es : List NumElt) =>
      s.admits k rd [(d, elemWords es.length w)] = true →
        ∃ t, exec c s = .next t
          ∧ Launched k (resultFly u rd [(d, elemWords es.length w)] (a.putElems d w (es.map fun e => (e.1.val, e.2))) es) s t
    s.sound k (s.nextPc k) = true →
      (∀ op c f, (op, c, f) ∈ [(0x40, .vadd n, f32add), (0x41, .vsub n, f32sub), (0x42, .vmul n, f32mul), (0x44, .vdiv n, f32div),
          (0x46, .vmin n, f32min), (0x47, .vmax n, f32max), (0x48, .vcmp n, cmpNum (i.mod % 8)),
          (0x50, .viadd n, fun p q => ⟨(p + q) % 2 ^ 32, 0⟩), (0x51, .vsh n, shiftNum), (0x52, .vand n, fun p q => ⟨p &&& q, 0⟩),
          (0x53, .vor n, fun p q => ⟨p ||| q, 0⟩)] →
        s.issues k op = true → writes c .vector (x.2 ++ y.2) 32 ((x.1.zip y.1).map fun e => (f e.1.1 e.2.1, e.1.2 || e.2.2)))
      ∧ (∀ op c f, (op, c, f) ∈ [(0x43, .vfma n, f32fma), (0x49, .vsel n, fun p q r => ⟨if r = 0 then q else p, 0⟩)] →
        s.issues k op = true → writes c .vector (x.2 ++ y.2 ++ z.2) 32
          ((x.1.zip (y.1.zip z.1)).map fun e => (f e.1.1 e.2.1.1 e.2.2.1, e.1.2 || e.2.1.2 || e.2.2.2)))
      ∧ (s.issues k 0x45 = true → writes (.vsqrt n) .vector x.2 32 (x.1.map fun e => (f32sqrt e.1, e.2)))
      ∧ (s.issues k 0x54 = true → writes (.vcvt n) .vector (a.vecA i (fmtWidth i.fa)).2 (fmtWidth i.fo)
          ((a.vecA i (fmtWidth i.fa)).1.map fun e => (convert i.fo i.sat (fmtVal i.fa e.1), e.2)))
      ∧ (∀ op c f, (op, c, f) ∈ [(0x56, .vredsum n, laneSum), (0x57, .vredmax n, laneMax)] → s.issues k op = true →
          writes c .vector x.2 32 ((groupsOf 256 i.imm x.1).map fun g => (f (g.map (·.1)), g.any (·.2))))
      ∧ (s.issues k 0x62 = true → writes (.pack n) .shuffle (a.vecA i (fmtWidth i.fa)).2 (fmtWidth i.fo)
          ((a.vecA i (fmtWidth i.fa)).1.map fun e => (⟨e.1, 0⟩, e.2)))
      ∧ (s.issues k 0x63 = true → writes (.unpack n) .shuffle (a.vecA i (fmtWidth i.fa)).2 8
          ((a.vecA i (fmtWidth i.fa)).1.map fun e => (⟨if i.fa = 2 ∧ 8 ≤ e.1 then e.1 + 240 else e.1, 0⟩, e.2)))
      ∧ (s.issues k 0x60 = true → writes (.trans n) .shuffle [(a.lbWord i.a, elemWords (i.imm % 65536 * (i.imm / 65536)) 32)] 32
          ((List.range (i.imm / 65536)).flatMap fun c => (List.range (i.imm % 65536)).map fun r =>
            let e := (a.elems (a.lbWord i.a) 32 0 (i.imm % 65536 * (i.imm / 65536))).getD (r * (i.imm / 65536) + c) (0, false)
            (⟨e.1, 0⟩, e.2)))
      ∧ (∀ ix : List Nat, s.issues k 0x61 = true → a.elems (a.lbWord i.b) 32 0 i.imm = ix.map (·, false) →
          lbFits (a.lbWord i.b) (elemWords i.imm 32) = true → (∀ j ∈ ix, a.lbWord i.a + j / 8 < 32768) →
          writes (.shuf n) .shuffle [(0, 32768)] 32
            (ix.map fun j => let e := (a.elems (a.lbWord i.a) 32 j 1).getD 0 (0, false); (⟨e.1, 0⟩, e.2)))
      ∧ (s.issues k 0x55 = true →
          let gs := (groupsOf 32 i.imm x.1).map fun g => (mxBlock i.fo (g.map fun e => f32v e.1), g.any (·.2))
          let es := gs.flatMap fun g => g.1.2.1.map fun v => ((⟨v, if g.2 then 0 else g.1.2.2⟩ : Machine.Num), g.2)
          let wr := [(d, elemWords es.length (fmtWidth i.fo)), (a.lbWord i.c, elemWords gs.length 8)]
          s.admits k x.2 wr = true → ∃ t, exec (.vcvtmx n) s = .next t
            ∧ Launched k { resultFly .vector x.2 wr (a.putElems d (fmtWidth i.fo) (es.map fun e => (e.1.val, e.2))
                ++ a.putElems (a.lbWord i.c) 8 (gs.map fun g => (g.1.1, g.2))) es with
              flags := gs.foldl (fun f g => if g.2 then f else f ||| g.1.2.2) 0
              cause := if gs.any (·.2) then 1 else 0 } s t)

/-- R100: class 0x7. -/
def Obligations.FastApproximations : Prop :=
  (∀ (n : Arr) (s : State) (op : Nat) (c : Instr) (f : Nat → Nat → Machine.Num),
    let k := arrNum n
    let a := s.arr k
    let i := s.insn k
    let d := a.lbWord i.d
    let x := a.vecA i 32
    (op, c, f) ∈ [(0x70, .vrcpF n, fastRcp), (0x71, .vrsqF n, fastRsq), (0x72, .vexpF n, fastExp), (0x73, .vlogF n, fastLog)] →
    s.issues k op = true → s.sound k (s.nextPc k) = true → s.admits k x.2 [(d, elemWords i.imm 32)] = true →
      ∃ t, exec c s = .next t
        ∧ let es := (x.1.zip (List.range x.1.length)).map fun e => (f e.1.1 (Config.free (s.freeCtr + e.2)), e.1.2)
          Launched k (resultFly .vector x.2 [(d, elemWords i.imm 32)] (a.putElems d 32 (es.map fun e => (e.1.val, e.2))) es)
            { s with freeCtr := s.freeCtr + x.1.length } t)
    ∧ (∀ (x u : Nat) (n : Bool) (m : Nat) (e : Int), f32v x = .fin n m e → m ≠ 0 →
        let v := Val.fin n (quotient 1 m (-e)).1 (quotient 1 m (-e)).2
        (inUlp v 2 (fastRcp x u).val = true ∨ (fastRcp x u).val = (fp32.ofVal v).val)
        ∧ (n = false → inUlp (valRsq m e) 2 (fastRsq x u).val = true ∨ (fastRsq x u).val = (fp32.ofVal (valRsq m e)).val))
    ∧ (∀ x u : Nat, f32le 0x00800000 x = true → f32le x 0x7F7FFFFF = true →
        inUlp (valLog (f32v x)) 4 (fastLog x u).val = true ∨ (fastLog x u).val = (fp32.ofVal (valLog (f32v x))).val)
    ∧ (∀ x u : Nat, f32le 0xC2AE999A x = true → f32le x 0x42B16666 = true →
        inUlp (valExp (f32v x)) 4 (fastExp x u).val = true ∨ (fastExp x u).val = (fp32.ofVal (valExp (f32v x))).val)
    ∧ (∀ x u : Nat, (f32v x).isNan = true →
        [fastRcp, fastRsq, fastExp, fastLog].all (fun f => f x u == ⟨u % 2 ^ 32, flNanIn⟩) = true)

/-- R123, R159 to R165: LBCOPY, LBFILL, FFT, IFFT, SPMUL. -/
def Obligations.LineBufferOps : Prop :=
  ∀ (n : Arr) (s : State),
    let k := arrNum n
    let a := s.arr k
    let i := s.insn k
    let d := a.lbWord i.d
    let src := a.lbWord i.a
    s.sound k (s.nextPc k) = true →
      (s.issues k 0x28 = true → s.admits k [(src, i.imm)] [(d, i.imm)] = true →
        ∃ t, exec (.lbcopy n) s = .next t ∧ Launched k { emptyFly with
          rd := [(src, i.imm)]
          wr := [(d, i.imm)]
          lbW := (List.range i.imm).map fun w => ⟨(d + w) * 32, cellRead a.lb ((src + w) * 32) 32, false⟩ } s t)
      ∧ (s.issues k 0x29 = true → s.admits k [] [(d, i.imm)] = true →
        ∃ t, exec (.lbfill n) s = .next t ∧ Launched k { emptyFly with
          wr := [(d, i.imm)]
          lbW := (List.range i.imm).map fun w =>
            ⟨(d + w) * 32, (List.replicate 8 (leBytes 4 (a.operand i.b))).flatten, false⟩ } s t)
      ∧ (∀ op c inv, (op, c, inv) ∈ [(0x33, .fft n, false), (0x34, .ifft n, true)] → s.issues k op = true →
          let m1 := i.imm % 16
          let m2 := i.imm / 16 % 16
          let batch := i.imm / 256 % 4096
          let points := 2 ^ (m1 + m2)
          let bf := i.mod.testBit 0
          let w := if bf then 16 else 32
          let words := elemWords (batch * points * 2) w
          4 ≤ m1 → m1 ≤ 12 → (m2 = 0 ∨ 4 ≤ m2 ∧ m2 ≤ 12) → points ≤ 65536 → 0 < batch → (d = src ∨ d + words ≤ src ∨ src + words ≤ d) →
          s.admits k [(src, words)] [(d, words)] = true →
          let es := (List.range batch).flatMap fun b =>
            ofCx bf false (fft2 inv m1 m2 (toCx bf (a.elems src w (b * points * 2) (points * 2))))
          ∃ t, exec c s = .next t ∧ Launched k (resultFly .fft [(src, words)] [(d, elemWords es.length w)]
            (a.putElems d w (es.map fun e => (e.1.val, e.2))) es) s t)
      ∧ (s.issues k 0x35 = true → 0 < i.imm →
          let words := elemWords (2 * i.imm) 32
          let b := a.lbWord i.b
          let disjoint := fun (p q : Nat) => p = q ∨ p + words ≤ q ∨ q + words ≤ p
          disjoint d src → disjoint d b → disjoint src b → s.admits k [(src, words), (b, words)] [(d, words)] = true →
          let es := ((toCx false (a.elems src 32 0 (2 * i.imm))).zip (toCx false (a.elems b 32 0 (2 * i.imm)))).flatMap fun p =>
            ofCx false false [p.1.mul p.2]
          ∃ t, exec (.spmul n) s = .next t ∧ Launched k (resultFly .fft [(src, words), (b, words)] [(d, elemWords es.length 32)]
            (a.putElems d 32 (es.map fun e => (e.1.val, e.2))) es) s t)

/-- R123, R139, R150 to R153, R177, R180, R343, R407, R579: class 0x2, over memory of the module, a doorbell, host memory. -/
def Obligations.LoadsAndStores : Prop :=
  ∀ (n : Arr) (s : State),
    let k := arrNum n
    let a := s.arr k
    let i := s.insn k
    let dst := a.lbWord i.d
    let src := a.lbWord i.a
    let words := elemWords i.imm 32
    let touched := fun (l : List (Nat × Nat)) => l.foldl (fun s e => s.mcTouches false e.1 e.2) s
    let plain := fun (rs : List Run) => (rs.all fun q => s.plainAt q.mem) = true ∧ s.badRuns rs = false
    s.sound k (s.nextPc k) = true → s.cond = [] →
      (s.issues k 0x20 = true → a.operand i.a % 32 = 0 → s.plainAt (a.operand i.a) = true → s.badRange (a.operand i.a) (32 * i.imm) = false →
        s.admits k [] [(dst, i.imm)] = true →
        ∃ t, exec (.ld n) s = .next t ∧ Launched k { emptyFly with
          wr := [(dst, i.imm)]
          lbW := segsOf (fun _ => false) (32 * dst) (s.bytes (a.operand i.a) (32 * i.imm)) } (touched [(a.operand i.a, 32 * i.imm)]) t)
      ∧ (s.issues k 0x21 = true → a.operand i.d % 32 = 0 → s.plainAt (a.operand i.d) = true → s.badRange (a.operand i.d) (32 * i.imm) = false →
        s.admits k [(src, i.imm)] [] = true →
        ∃ t, exec (.st n) s = .next t ∧ Launched k { emptyFly with
          rd := [(src, i.imm)]
          memW := segsOf (fun _ => false) (a.operand i.d) (cellRead a.lb (32 * src) (32 * i.imm)) } s t)
      ∧ (s.issues k 0x21 = true → s.region (a.operand i.d) = .doorbell → a.operand i.d % 4 = 0 → i.imm = 1 → s.admits k [(src, 1)] [] = true →
        ∃ t, exec (.st n) s = .next t ∧ Launched k { emptyFly with
          rd := [(src, 1)]
          bell := some ((a.operand i.d - doorbellBase) / 4, leNat (cellRead a.lb (32 * src) 4)) } s t)
      ∧ (∀ d : Dense, s.issues k 0x22 = true → denseTd (a.td i.a) = some d → d.block = 0 → d.host = false →
          plain (d.runs (a.operand i.b) d.d2 dst).1 → s.admits k [] [(dst, (d.runs (a.operand i.b) d.d2 dst).2)] = true →
          ∃ t, exec (.ldt n) s = .next t ∧ LaunchedHolding k { emptyFly with
            wr := [(dst, (d.runs (a.operand i.b) d.d2 dst).2)]
            lbW := (d.runs (a.operand i.b) d.d2 dst).1.flatMap fun q => segsOf (fun _ => false) q.lb (s.bytes q.mem q.len) }
            (d.rowsHeld (a.td i.a) (a.operand i.b) d.d2 dst) (touched ((d.runs (a.operand i.b) d.d2 dst).1.map fun q => (q.mem, q.len))) t)
      ∧ (∀ (d : Dense) (j : Job) (rs : List Run), s.issues k 0x22 = true → denseTd (a.td i.a) = some d → d.block = 0 → d.host = true →
          s.arrJob k = some j → s.replaying = false → s.flag F.PCIE_STATUS_bus_master = true → rs = (d.runs (a.operand i.b) d.d2 dst).1 →
          s.admits k [] [(dst, (d.runs (a.operand i.b) d.d2 dst).2)] = true →
          ∃ t, exec (.ldt n) s = .next t ∧ (t.arr k).flights = a.flights ++ [{ emptyFly with
              id := a.nextId
              pc := s.get (F.ARR_PC_pc k)
              wr := [(dst, (d.runs (a.operand i.b) d.d2 dst).2)]
              await := rs.length }]
            ∧ t.out = s.out ++ ((List.range rs.length).zip rs).map (fun q => ⟨.hostRead, [s.extTag + q.1, q.2.mem, q.2.len], []⟩)
            ∧ t.extTag = s.extTag + rs.length ∧ Moved k (s.nextPc k) s t
            ∧ { t with regs := s.regs, arrs := s.arrs, jobs := s.jobs, ext := s.ext, extTag := s.extTag, out := s.out } = s)
      ∧ (∀ d : Dense, s.issues k 0x23 = true → denseTd (a.td i.d) = some d → d.block = 0 → d.host = false →
          plain (d.runs (a.operand i.b) d.d2 src).1 → s.admits k [(src, (d.runs (a.operand i.b) d.d2 src).2)] [] = true →
          ∃ t, exec (.stt n) s = .next t ∧ Launched k { emptyFly with
            rd := [(src, (d.runs (a.operand i.b) d.d2 src).2)]
            memW := (d.runs (a.operand i.b) d.d2 src).1.flatMap fun q => segsOf (fun _ => false) q.mem (cellRead a.lb q.lb q.len) } s t)
      ∧ (∀ (d : Dense) (c : ConvBlock) (r : List Run × Nat), s.issues k 0x23 = true → denseTd (a.td i.d) = some d → d.block ≠ 0 →
          d.host = false → s.plainAt d.block = true → s.badRange d.block 64 = false → c = convBlock (s.bytes d.block 64) → c.legal = true →
          r = d.runs (a.operand i.b) (sttRows d (some c) (a.operand i.b)) src → plain r.1 → s.admits k [(src, r.2)] [] = true →
          ∃ t, exec (.stt n) s = .next t ∧ Launched k { emptyFly with
            rd := [(src, r.2)]
            memW := r.1.flatMap fun q => segsOf (fun _ => false) q.mem (cellRead a.lb q.lb q.len) } (touched [(d.block, 64)]) t)
      ∧ (∀ (d : Dense) (ads : List Nat), s.issues k 0x24 = true → tableTd (a.td i.a) = some d → d.host = false →
          s.elements d (a.elems (a.lbWord i.b) 32 0 i.imm) = some (ads.map some) → (ads.all fun p => s.plainAt p) = true →
          s.admits k [(a.lbWord i.b, words)] [(dst, words)] = true →
          ∃ t, exec (.gather n) s = .next t ∧ Launched k { emptyFly with
            rd := [(a.lbWord i.b, words)]
            wr := [(dst, words)]
            lbW := a.putElems dst 32 (ads.map fun p => (s.peekNat p 4, false)) } (touched (ads.map fun p => (p, 4))) t)
      ∧ (∀ (d : Dense) (ads : List Nat), tableTd (a.td i.d) = some d → d.host = false →
          s.elements d (a.elems (a.lbWord i.b) 32 0 i.imm) = some (ads.map some) →
          s.admits k [(src, words), (a.lbWord i.b, words)] [] = true →
          let items := (ads.zip (a.elems src 32 0 i.imm)).map fun e => (e.1, e.2.1, e.2.2)
          let fly := fun (mode : Nat) (l : List (Nat × Nat × Bool)) => { emptyFly with
            rd := [(src, words), (a.lbWord i.b, words)]
            scat := some ⟨mode, l⟩ }
          let add := if d.fmt = 12 then 1 else 2
          (s.issues k 0x25 = true → ∃ t, exec (.scatter n) s = .next t ∧ Launched k (fly 0 items) s t)
          ∧ (s.issues k 0x27 = true → ∃ t, exec (.scataddS n) s = .next t ∧ Launched k (fly add items) s t)
          ∧ (s.issues k 0x26 = true → (freeOrder s.freeCtr items.length items).Perm items
              ∧ ∃ t, exec (.scatadd n) s = .next t
                ∧ Launched k (fly add (freeOrder s.freeCtr items.length items)) { s with freeCtr := s.freeCtr + items.length } t))
      ∧ (∀ f layer seq tokens, s.issues k 0x22 = true → kvTd (a.td i.a) = some (f, layer, seq, tokens) →
          tokens % 16 = 0 → 16 ≤ tokens → tokens ≤ 1024 → a.operand i.b % 16 = 0 → s.admits k [] [(dst, s.kvWords seq tokens)] = true →
          ∃ t, exec (.ldt n) s = .next t ∧ Launched k { emptyFly with
            wr := [(dst, s.kvWords seq tokens)]
            kvF := some { seq := seq, layer := layer, fmt := f, block := a.operand i.b / 16, blocks := tokens / 16, dst := dst } } s t)
      ∧ (∀ f layer seq tokens, s.issues k 0x23 = true → kvTd (a.td i.d) = some (f, layer, seq, tokens) →
          tokens ≠ 0 → a.operand i.b % 16 + tokens ≤ 16 → s.admits k [(src, s.kvWords seq tokens)] [] = true →
          ∃ t, exec (.stt n) s = .next t ∧ Launched k { emptyFly with
            rd := [(src, s.kvWords seq tokens)]
            kvS := some { seq := seq, layer := layer, fmt := f, token := a.operand i.b, count := tokens,
                          segs := segsOf (fun _ => false) 0 (cellRead a.lb (src * 32) (s.kvWords seq tokens * 32)) } } s t)
      ∧ (∀ (d : Dense) (c : ConvBlock) (w : Nat) (rows : List (Nat × Int)) (runs : List Run), s.issues k 0x22 = true →
          denseTd (a.td i.a) = some d → d.host = false → d.block ≠ 0 → s.plainAt d.block = true → s.badRange d.block 64 = false →
          c = convBlock (s.bytes d.block 64) → c.legal = true → w = fmtWidth d.fmt → c.cIn * w % 8 = 0 →
          rows = (List.range (c.stripeRows (a.operand i.b)).length).zip (c.stripeRows (a.operand i.b)) →
          runs = rows.flatMap (fun r => match c.rows.src r.2 with
            | some y => ((List.range c.cols.heldIn.length).zip c.cols.heldIn).map fun x =>
                ⟨(d.base + d.p1 * x.2 + d.p2 * y) % 2 ^ 64, (dst + r.1 * c.pitch w) * 32 + x.1 * (c.cIn * w / 8), c.cIn * w / 8, 0⟩
            | none => []) →
          plain runs → s.admits k [] [(dst, rows.length * c.pitch w)] = true →
          ∃ t, exec (.ldt n) s = .next t ∧ LaunchedHolding k { emptyFly with
            wr := [(dst, rows.length * c.pitch w)]
            lbW := rows.flatMap (fun r => match c.rows.src r.2 with
                | some _ => []
                | none => segsOf (fun _ => false) ((dst + r.1 * c.pitch w) * 32)
                    (patternBytes w (c.cols.heldIn.length * c.cIn) (c.padValue (c.rows.mode r.2) w)))
              ++ runs.flatMap fun q => segsOf (fun _ => false) q.lb (s.bytes q.mem q.len) }
            (rows.map fun r => ⟨dst + r.1 * c.pitch w, c.pitch w, a.td i.a, true, r.2, 0, c.cols.heldIn⟩)
            (touched ((d.block, 64) :: runs.map fun q => (q.mem, q.len))) t)

/-- R85 to R93, R125, R126, R145, R150, R188: the DPU grid and reduction. -/
def Obligations.Contractions : Prop :=
  (∀ (n : Arr) (s : State) (j : Job),
    let k := arrNum n
    let a := s.arr k
    let i := s.insn k
    let exact := s.flag (F.ARR_STATE_exact k)
    let shown := fun (j : Job) => (j.slots.filter fun q => q.phase == 2).map fun q => 24 * q.die + q.logical
    let goes := fun (c : Instr) (kv : Nat) (ts : List Nat) (rd wr : List (Nat × Nat)) (red : Option (Nat × Nat × Nat))
        (make : Nat → Nat → List PElt × Nat) =>
      let key := tileKey kv
      let o := (j.slotPlace key.owner).getD k
      let made := (List.range i.mod).flatMap fun x => ts.map fun t => (x, t, make x t)
      let parts := made.map fun p =>
        (⟨j.queue, j.index, key.owner, key.key + p.1, key.kLen, p.2.1, i.isInt, k, p.2.2.1, s.partVia (k / 24) (o / 24)⟩ : Partial)
      let j1 := j.issueTiles key i.isInt exact false i.mod ts (o / 24) o
      contractCause j a.slot i kv ts = 0 → j.tileConflict key i.isInt i.mod ts = false → s.admits k rd wr = true →
      (exact = false ∨ i.isInt = true ∨ j.newEntries key i.mod ≤ j.unreserved (o / 24) →
        ∃ t, exec c s = .next t ∧ t.get (F.ARR_PC_pc k) = s.nextPc k
          ∧ t.get (F.ARR_ISSUED_count k) = (s.get (F.ARR_ISSUED_count k) + 1) % 2 ^ 32
          ∧ (∀ q ∈ shown j1, t.get (F.ARR_RED_reserved q) = (j1.accs.foldl (fun m t => if t.shown = q then m + t.reserved else m) 0) % 1024)
          ∧ FieldsBut ([F.ARR_PC_pc k, F.ARR_ISSUED_count k] ++ (shown j1).map F.ARR_RED_reserved) s t
          ∧ t.arrs = tabSet s.arrs k { a with
              wait := .none
              nextId := a.nextId + 1
              held := a.held.filter fun h => !wr.any (rangesMeet (h.word, h.pitch))
              flights := a.flights ++ [{ emptyFly with
                id := a.nextId
                unit := .tensor
                pc := s.get (F.ARR_PC_pc k)
                rd := rd
                wr := wr
                red := red
                parts := parts
                flags := made.foldl (fun f p => f ||| p.2.2.2) 0
                cause := if (parts.any fun p => p.els.any (·.bad)) then 1 else 0 }] }
          ∧ t.jobs = (s.setJob { j1 with nonrepro := j1.nonrepro || !(exact || i.isInt) }).jobs
          ∧ { t with regs := s.regs, arrs := s.arrs, jobs := s.jobs } = s)
      ∧ (exact = true → i.isInt = false → j.unreserved (o / 24) < j.newEntries key i.mod →
        exec c s = .next { s with arrs := tabSet s.arrs k { a with wait := .held } })
    let key := tileKey (a.operand i.d)
    let wa := fmtWidth i.fa
    let wb := fmtWidth i.fb
    let scales := fun (isMx : Bool) (byte : Nat) => if isMx then a.elems (a.lbWord i.c) 8 byte 8 else unitScales
    let mx := fmtMx i.fa || fmtMx i.fb
    let cnt := tileLen key.kLen (i.imm % 65536)
    let dot := fun (c : Instr) => (mx = true → i.c ≠ 0xFFFF) → goes c (a.operand i.d) [i.imm % 65536]
      (rowRanges (a.lbWord i.a) wa (32 * i.mod) cnt ++ rowRanges (a.lbWord i.b) wb 32 cnt
        ++ (if fmtMx i.fa then [(a.lbWord i.c, 8 * i.mod)] else []) ++ (if fmtMx i.fb then [(a.lbWord i.c + 8 * i.mod, 8)] else []))
      [] none (fun x _ => gridPartial i.fa i.fb
        ((List.range 32).map fun r => ⟨a.elems (a.lbWord i.a) wa ((x * 32 + r) * 256) cnt, scales (fmtMx i.fa) (256 * x + 8 * r)⟩)
        ((List.range 32).map fun q => ⟨a.elems (a.lbWord i.b) wb (q * 256) cnt, scales (fmtMx i.fb) (256 * i.mod + 8 * q)⟩))
    let kx := tileKey (a.operand i.c)
    let row := fun (base w q t : Nat) (isMx : Bool) =>
      (⟨a.elems base w (q * kx.kLen + 256 * t) (tileLen kx.kLen t), s.rowScales k isMx base w (q * kx.kLen + 256 * t) (tileLen kx.kLen t)⟩ : OpVec)
    let kvexp := fun (c : Instr) => kx.owner = a.slot → goes c (a.operand i.c) (List.range (kTiles kx.kLen))
      [(a.lbWord i.a, elemWords (32 * kx.kLen) wa), (a.lbWord i.b, elemWords (32 * i.mod * kx.kLen) wb)]
      [(a.lbWord i.d, 128 * i.mod)] (some (kx.key, i.mod, a.lbWord i.d))
      (fun x t => gridPartial i.fa i.fb ((List.range 32).map fun r => row (a.lbWord i.a) wa r t (fmtMx i.fa))
        ((List.range 32).map fun q => row (a.lbWord i.b) wb (32 * x + q) t (fmtMx i.fb)))
    let pw := a.lbWord i.c
    let block := convBlock (cellRead a.lb (pw * 32) 64)
    let sound := block.legal = true ∧ key.kLen = block.rows.k * block.cols.k * block.cIn ∧ lbFits pw 2 = true
    let rows := a.convRows block (block.pitch wa) (a.lbWord i.a)
    let cols := block.cols.heldIn
    let ctx := (cellRead a.lb (pw * 32) 64 ++ cellRead a.lb (a.lbWord i.a * 32) (rows.length * block.pitch wa * 32)).map (·.toNat)
    let convCnt := tileLen key.kLen i.imm
    let conv := fun (c : Instr) => sound → block.empty = false → goes c (a.operand i.d) [i.imm]
      [(a.lbWord i.a, rows.length * block.pitch wa), (a.lbWord i.b, elemWords (32 * key.kLen) wb), (pw, 2)] [] none
      (fun x _ => gridPartial i.fa i.fb
        ((List.range 32).map fun r =>
          ⟨(List.range convCnt).map fun q => a.convElt block rows cols (a.lbWord i.a) wa (32 * x + r) (256 * i.imm + q) ctx,
           if fmtMx i.fa then ((List.range ((convCnt + 31) / 32)).map (256 * i.imm + 32 * ·)).map fun p =>
              s.convScale k block rows cols (a.lbWord i.a) wa (32 * x + r) p ctx
            else unitScales⟩)
        ((List.range 32).map fun q =>
          ⟨a.elems (a.lbWord i.b) wb (q * key.kLen + 256 * i.imm) convCnt,
           s.rowScales k (fmtMx i.fb) (a.lbWord i.b) wb (q * key.kLen + 256 * i.imm) convCnt⟩))
    s.arrJob k = some j → s.sound k (s.nextPc k) = true →
      (s.issues k 0x30 = true → dot (.dot n))
      ∧ (a.wait = .held → s.get (F.ARR_STATE_state k) = 1 → s.cdState (k / 24) = 3 →
          (i.op = 0x30 → dot (.contractionResume n)) ∧ (i.op = 0x31 → conv (.contractionResume n)) ∧ (i.op = 0x36 → kvexp (.contractionResume n)))
      ∧ (s.issues k 0x36 = true → kvexp (.kvexp n))
      ∧ (s.issues k 0x31 = true → conv (.conv n))
      ∧ (let j1 := { j.issueTiles key i.isInt exact true i.mod [i.imm] ((j.slotPlace key.owner).getD k / 24) ((j.slotPlace key.owner).getD k) with
          nonrepro := j.nonrepro || !(exact || i.isInt) }
        s.issues k 0x31 = true → sound → block.empty = true → contractCause j a.slot i (a.operand i.d) [i.imm] = 0 →
          j.tileConflict key i.isInt i.mod [i.imm] = false → s.admits k [(pw, 2)] [] = true →
          ∃ t, exec (.conv n) s = .next t ∧ t.get (F.ARR_PC_pc k) = s.nextPc k
            ∧ t.get (F.ARR_ISSUED_count k) = (s.get (F.ARR_ISSUED_count k) + 1) % 2 ^ 32
            ∧ (∀ q ∈ shown j1, t.get (F.ARR_RED_reserved q) = (j1.accs.foldl (fun m t => if t.shown = q then m + t.reserved else m) 0) % 1024)
            ∧ FieldsBut ([F.ARR_PC_pc k, F.ARR_ISSUED_count k] ++ (shown j1).map F.ARR_RED_reserved) s t
            ∧ t.arrs = tabSet s.arrs k { a with wait := .none }
            ∧ t.jobs = (s.setJob (j1.report 1 0 0)).jobs ∧ { t with regs := s.regs, arrs := s.arrs, jobs := s.jobs } = s)
      ∧ (s.issues k 0x32 = true → i.mod ≠ 0 → (tileKey (a.operand i.a)).owner = a.slot → (tileKey (a.operand i.a)).key + i.mod ≤ 0x1000000 →
          s.admits k [] [(a.lbWord i.d, 128 * i.mod)] = true →
          let open1 := !exact && (List.range i.mod).any fun x =>
            (j.tile a.slot ((tileKey (a.operand i.a)).key + x)).any fun t => !t.int
          ∃ t, exec (.redGet n) s = .next t ∧ Launched k { emptyFly with
            unit := .tensor
            wr := [(a.lbWord i.d, 128 * i.mod)]
            red := some ((tileKey (a.operand i.a)).key, i.mod, a.lbWord i.d) }
            (if open1 then s.setJob { j with nonrepro := true } else s) t))
    ∧ (∀ (n : Arr) (s : State) (f : Fly) (j : Job) (key dst : Nat) (t : TileSt) (es : List Elt) (flags : Nat),
        let k := arrNum n
        let a := s.arr k
        let j1 := j.setTile { t with reserved := 0, arrived := [], acc := [] }
        let arrs := (j1.slots.filter fun q => q.phase == 2).map fun q => 24 * q.die + q.logical
        a.oldest .tensor = some f → s.arrJob k = some j → f.red = some (key, 1, dst) → j.tile a.slot key = some t →
        t.result j.exact = some (es, flags) → es.all (fun e => !e.2) = true → a.lbCond = [] → a.inject = [] →
        f.memW = [] → f.scat = none → f.bell = none → f.parts = [] → f.cause = 0 →
        ∃ u, exec (.redGetComplete n) s = .next u
          ∧ u.arrs = tabSet s.arrs k { a with
              flights := a.flights.filter fun g => decide (g.id ≠ f.id)
              lb := (a.putElems dst 32 es).foldl (fun m g => cellWrite m g.addr g.data) a.lb }
          ∧ (∀ q ∈ arrs, u.get (F.ARR_RED_reserved q) = (j1.accs.foldl (fun m t => if t.shown = q then m + t.reserved else m) 0) % 1024)
          ∧ u.regWord (pgARR k) 0x38 = s.regWord (pgARR k) 0x38 ||| BitVec.ofNat 32 (flags % 16)
          ∧ FieldsBut ((wholeReg (pgARR k) 0x38 :: arrs.map F.ARR_RED_reserved) ++ eventFields (pgARR k) Ev.ARR_numeric) s u
          ∧ u.jobs = (s.setJob j1).jobs ∧ { u with regs := s.regs, arrs := s.arrs, jobs := s.jobs, flt := s.flt } = s)
    ∧ (∀ (s : State) (x : Nat) (p : Partial) (j : Job) (t : TileSt), s.transit[x]? = some p → s.job p.queue p.index = some j →
        j.tile p.owner p.key = some t →
        (t.die = p.src / 24 ∨ (s.cdState t.die ≠ 4 ∧ s.cdState (p.src / 24) ≠ 4) →
          exec (.partialArrival x) s = .next { s with
            transit := s.transit.eraseIdx x
            jobs := (s.setJob (j.setTile (t.take p j.exact))).jobs })
        ∧ (t.die ≠ p.src / 24 → s.cdState t.die = 4 ∨ s.cdState (p.src / 24) = 4 →
          exec (.partialArrival x) s = .next { s with transit := s.transit.eraseIdx x }))
    ∧ (∀ (fa fb : Nat) (x y : OpVec), fmtInt fa = true → fmtInt fb = true →
        (dotPartial fa fb x y).1.val = ((x.els.zip y.els).map fun p => fmtToInt fa p.1.1 * fmtToInt fb p.2.1).sum)

/-- R87, R88, R90: independence of arrival order. -/
def Obligations.SumOrder : Prop :=
  ∀ (t : TileSt) (exact : Bool) (ps qs : List Partial), t.arrived = [] → t.count = 0 → t.acc = [] → t.flags = 0 →
    ps.Perm qs → (ps.map (·.t)).Nodup → (∀ p ∈ ps, p.int = t.int ∧ p.els.length = 1024) → exact = true ∨ t.int = true →
    (ps.foldl (fun t p => t.take p exact) t).result exact = (qs.foldl (fun t p => t.take p exact) t).result exact

/-- R111, R117, R127, R128, R135: the life of a slot. R106, R107, R136: the ARR page. -/
def Obligations.ArraySlots : Prop :=
  (∀ (n : Arr) (s : State),
    let k := arrNum n
    let a := s.arr k
    (∀ (id : JobId) (slot : Nat) (j : Job), s.jobOf id = some j → j.assigned slot k = true → s.get (F.ARR_STATE_state k) = 0 →
        s.get (F.ARR_JOB_QUEUE_valid k) = 0 → n.die.val ∈ j.granted ∨ j.grantSize ≤ s.redFree n.die.val →
        let d := n.die.val
        let j1 := { j with
          slots := listSet j.slots slot { j.slots.getD slot {} with phase := 2 }
          granted := if d ∉ j.granted ∧ j.grantSize ≠ 0 then setAdd j.granted d else j.granted
          dip := j.dip || s.dipOpen d }
        let arrs := (j1.slots.filter fun q => q.phase == 2).map fun q => 24 * q.die + q.logical
        let put := [F.ARR_JOB_QUEUE_valid k, F.ARR_JOB_QUEUE_queue k, F.ARR_JOB_INDEX_index k, F.PWR_UNGATED_ungated d,
          F.XGS_TWIN_ARRAYS_used d, F.ARR_RED_granted k] ++ arrs.map F.ARR_RED_reserved
        let taken := { a with slot := slot, tiles := 0, loading := true, wait := .none, stop := none, ending := false }
        let common := fun (t : State) =>
          t.get (F.ARR_JOB_QUEUE_valid k) = 1 ∧ t.get (F.ARR_JOB_QUEUE_queue k) = j.queue % 2 ^ 17
          ∧ t.get (F.ARR_JOB_INDEX_index k) = j.index % 2 ^ 32 ∧ t.get (F.ARR_RED_granted k) = j.grantSize % 1024
          ∧ (∀ q ∈ arrs, t.get (F.ARR_RED_reserved q) = (j.accs.foldl (fun m t => if t.shown = q then m + t.reserved else m) 0) % 1024)
          ∧ t.get (F.PWR_UNGATED_ungated d)
            = s.get (F.PWR_UNGATED_ungated d) + (if (s.get (F.PWR_UNGATED_ungated d)).testBit n.num.val then 0 else 2 ^ n.num.val)
          ∧ t.get (F.XGS_TWIN_ARRAYS_used d) = s.get (F.XGS_TWIN_ARRAYS_used d) ||| (if j.safety then 2 ^ n.num.val else 0)
          ∧ t.jobs = (s.setJob j1).jobs ∧ t.pwr = { s.pwr with idle := setDel s.pwr.idle k }
          ∧ { t with regs := s.regs, arrs := s.arrs, jobs := s.jobs, pwr := s.pwr } = s
        (s.holdsProgram k j = false →
          ∃ t, exec (.slotStart n id slot) s = .next t ∧ common t ∧ t.get (F.ARR_STATE_state k) = 0 ∧ t.arrs = tabSet s.arrs k taken
            ∧ FieldsBut put s t)
        ∧ (s.holdsProgram k j = true → fieldAt j.header 8 2 < 4096 → s.sound k (fieldAt j.header 8 2) = true →
          ∃ t, exec (.slotStart n id slot) s = .next t ∧ common t
            ∧ t.get (F.ARR_STATE_state k) = 1 ∧ t.get (F.ARR_PC_pc k) = fieldAt j.header 8 2
            ∧ t.get (F.ARR_STATE_exact k) = (if j.exact then 1 else 0) ∧ t.get (F.ARR_STATE_allow_n k) = (if j.flags.testBit 1 then 1 else 0)
            ∧ t.get (F.ARR_STATE_nonrepro k) = 0
            ∧ t.arrs = tabSet s.arrs k { taken with sr := [], tds := j.tds, stack := [], srCond := [], cycles := 0, loading := false }
            ∧ FieldsBut (put ++ [F.ARR_STATE_state k, F.ARR_PC_pc k, F.ARR_STATE_exact k, F.ARR_STATE_allow_n k, F.ARR_STATE_nonrepro k]) s t))
    ∧ (∀ j : Job, s.arrJob k = some j → a.loading = true → s.plainAt (j.program + 0x80) = true →
        s.badRange (j.program + 0x80) (16 * fieldAt j.header 6 2) = false → s.cond = [] →
        fieldAt j.header 8 2 < fieldAt j.header 6 2 → fieldAt j.header 6 2 ≤ 4096 →
        (opInfo (decodeInsn (BitVec.ofNat 128 (s.peekNat (j.program + 0x80 + 16 * fieldAt j.header 8 2) 16))).op).isSome = true →
        let s1 := (List.range (fieldAt j.header 6 2)).foldl (fun u x => u.mcTouches false (j.program + 0x80 + 16 * x) 16) s
        ∃ t, exec (.programLoadDone n) s = .next t ∧ t.get (F.ARR_STATE_state k) = 1 ∧ t.get (F.ARR_PC_pc k) = fieldAt j.header 8 2
          ∧ t.get (F.ARR_STATE_exact k) = (if j.exact then 1 else 0) ∧ t.get (F.ARR_STATE_allow_n k) = (if j.flags.testBit 1 then 1 else 0)
          ∧ t.get (F.ARR_STATE_nonrepro k) = 0
          ∧ FieldsBut [F.ARR_STATE_state k, F.ARR_PC_pc k, F.ARR_STATE_exact k, F.ARR_STATE_allow_n k, F.ARR_STATE_nonrepro k] s1 t
          ∧ t.arrs = tabSet s.arrs k { a with
              progAddr := j.program
              progDig := bytesAt j.header 0x20 64
              words := (List.range (fieldAt j.header 6 2)).map fun x => (BitVec.ofNat 128 (s.peekNat (j.program + 0x80 + 16 * x) 16), none)
              sr := []
              tds := j.tds
              stack := []
              srCond := []
              cycles := 0
              loading := false }
          ∧ { t with regs := s1.regs, arrs := s1.arrs } = s1)
    ∧ (∀ (u : IssueUnit) (f : Fly), a.oldest u = some f →
        let g := if s.cdState (k / 24) = 4 then f.fenced (k / 24) else f
        let s1 := g.memW.foldl (fun u x => { u.mcTouches true x.addr x.data.length with mem := cellWrite u.mem x.addr x.data }) s
        (f.ready = true → f.scat = none → f.bell = none → f.cause = 0 → a.lbCond = [] → a.inject = [] → f.bitW = [] →
          f.lbW.all (fun x => !x.poison) = true → f.memW.all (fun x => !x.poison && s.plainStore x.addr x.data.length) = true →
          ∃ t, exec (.instructionComplete n u) s = .next t
            ∧ t.arrs = tabSet s.arrs k { a with
                flights := a.flights.filter fun g => decide (g.id ≠ f.id)
                lb := f.lbW.foldl (fun m g => cellWrite m g.addr g.data) a.lb }
            ∧ t.transit = s.transit ++ g.parts
            ∧ t.regWord (pgARR k) 0x38 = s.regWord (pgARR k) 0x38 ||| BitVec.ofNat 32 (f.flags % 16)
            ∧ FieldsBut (wholeReg (pgARR k) 0x38 :: eventFields (pgARR k) Ev.ARR_numeric) s1 t
            ∧ { t with regs := s1.regs, arrs := s1.arrs, transit := s.transit, flt := s.flt } = { s1 with flt := s.flt })
        ∧ (f.ready = false → f.red.isSome = true → f.parts ≠ [] →
          ∃ t, exec (.instructionComplete n u) s = .next t
            ∧ t.arrs = tabSet s.arrs k (a.modFly f.id fun f => { f with parts := [], flags := 0 }) ∧ t.transit = s.transit ++ g.parts
            ∧ t.regWord (pgARR k) 0x38 = s.regWord (pgARR k) 0x38 ||| BitVec.ofNat 32 (f.flags % 16)
            ∧ FieldsBut (wholeReg (pgARR k) 0x38 :: eventFields (pgARR k) Ev.ARR_numeric) s t
            ∧ { t with regs := s.regs, arrs := s.arrs, transit := s.transit, flt := s.flt } = s))
    ∧ (a.stop = some 0 → a.ending = false → a.atBoundary = true → s.onWard k = false →
        exec (.slotStop n) s = .next { s with arrs := tabSet s.arrs k { a with
            ending := true
            wait := .none
            stop := none
            loading := false
            flights := a.flights.filter fun f => f.red.isNone } })
    ∧ (∀ j, a.ending = true → a.flights = [] → s.arrJob k = some j → (∀ d ∈ s.stest.dies, d.2.outReq = [] ∧ d.2.dieOut = false) →
        ∃ t, exec (.arrayDrainDone n) s = .next t ∧ t.get (F.ARR_STATE_state k) = (if a.suspect then 4 else 0)
          ∧ t.get (F.ARR_JOB_QUEUE_valid k) = 0
          ∧ FieldsBut [F.ARR_STATE_state k, F.ARR_JOB_QUEUE_valid k, F.ARR_RED_granted k, F.ARR_RED_reserved k] s t
          ∧ t.arrs = tabSet s.arrs k { a with ending := false, wait := .none, stop := none, loading := false }
          ∧ t.jobs = (s.setJob { j with
              slots := listSet j.slots a.slot { j.slots.getD a.slot {} with phase := 3, pc := s.get (F.ARR_PC_pc k) } }).jobs
          ∧ { t with regs := s.regs, arrs := s.arrs, jobs := s.jobs } = s)
    ∧ (∀ kind, a.wait = .fence kind → s.get (F.ARR_STATE_state k) = 1 → s.drained k = true → s.xgs.outs = [] → s.xgs.lost = [] →
        s.sound k (s.nextPc k) = true →
        ∃ t, exec (.fenceDone n) s = .next t ∧ t.get (F.ARR_PC_pc k) = s.nextPc k ∧ FieldsBut [F.ARR_PC_pc k] s t
          ∧ t.arrs = tabSet s.arrs k { a with wait := .none } ∧ { t with regs := s.regs, arrs := s.arrs } = s)
    ∧ (s.issues k 0x17 = true → (s.insn k).mod.testBit 0 = false → s.drained k = true → s.sound k (s.nextPc k) = true →
        s.fence (refObj (s.insn k).c) + (s.insn k).imm < 2 ^ 64 →
        ∃ t, exec (.fsig n) s = .next t ∧ Moved k (s.nextPc k) s t
          ∧ t.fence (refObj (s.insn k).c) = s.fence (refObj (s.insn k).c) + (s.insn k).imm
          ∧ { t with regs := s.regs, fences := s.fences } = s))
  ∧ (∀ (n : Arr) (acc : Acc) (s s2 : State) (w : Word),
    let k := arrNum n
    (s.written (pgARR k) 0x024 acc = some (s2, w) →
      (w.getLsbD 0 = true → w.getLsbD 2 = false → s2.get (F.ARR_STATE_state k) = 1 →
        ∃ t, exec (.halt n acc) s = .next t ∧ t.get (F.ARR_STATE_state k) = 2 ∧ t.eventSet (pgARR k) Ev.ARR_halted = true
          ∧ FieldsBut (F.ARR_STATE_state k :: eventFields (pgARR k) Ev.ARR_halted) s2 t ∧ { t with regs := s2.regs, flt := s2.flt } = s2)
      ∧ (w.getLsbD 1 = true → w.getLsbD 0 = false → w.getLsbD 2 = false → s2.get (F.ARR_STATE_state k) = 2 →
        ∃ t, exec (.resume n acc) s = .next t ∧ t.get (F.ARR_STATE_state k) = 1 ∧ FieldsBut [F.ARR_STATE_state k] s2 t
          ∧ { t with regs := s2.regs } = s2)
      ∧ (w.getLsbD 2 = true → s2.get (F.ARR_JOB_QUEUE_valid k) = 1 → (s2.arr k).ending = false →
        let fields := [F.ARR_STATE_state k, F.ARR_FAULT_cause k, F.ARR_FAULT_pc k] ++ eventFields (pgARR k) Ev.ARR_fault
        let left := tabSet s2.arrs k (s2.arr k).leave
        let common := fun (t : State) =>
          t.get (F.ARR_STATE_state k) = 4 ∧ t.get (F.ARR_FAULT_cause k) = 7
          ∧ t.get (F.ARR_FAULT_pc k) = s2.get (F.ARR_PC_pc k) ∧ t.eventSet (pgARR k) Ev.ARR_fault = true
          ∧ { t with regs := s2.regs, arrs := s2.arrs, jobs := s2.jobs, flt := s2.flt } = s2
        (s2.arrJob k = none → ∃ t, exec (.abort n acc) s = .next t ∧ common t ∧ t.arrs = left ∧ t.jobs = s2.jobs ∧ FieldsBut fields s2 t)
        ∧ (∀ j, s2.arrJob k = some j →
          let arrs := (j.slots.filter fun q => q.phase == 2).map fun q => 24 * q.die + q.logical
          ∃ t, exec (.abort n acc) s = .next t ∧ common t
            ∧ t.arrs = arrs.foldl (fun u m =>
                if m ≠ k ∧ (tabGet u m {}).ending = false then tabSet u m { tabGet u m {} with stop := some 0 } else u) left
            ∧ t.jobs = (s2.setJob { j.report 0x0A 7 (slotWhere (s2.arr k).slot k (s2.get (F.ARR_PC_pc k))) with
                granted := []
                accs := j.accs.map fun u => { u with reserved := 0 }
                slots := j.slots.map fun q => if q.phase < 2 then { q with phase := 3 } else q }).jobs
            ∧ (∀ q ∈ arrs, t.get (F.ARR_RED_granted q) = 0 ∧ t.get (F.ARR_RED_reserved q) = 0)
            ∧ FieldsBut (fields ++ arrs.map F.ARR_RED_granted ++ arrs.map F.ARR_RED_reserved) s2 t)))
    ∧ (s.takesWrites (pgARR k) acc = true → acc.be = 0xF#4 → s.get (F.BLK_LEVEL_expert (pgARR k)) = 1 → n.num.val < s.fuse.perDie →
        (s.cell (pgARR k) 0x100).wrong = none →
        ∃ t, exec (.arrCapDisableWrite n acc) s = .next t
          ∧ (∀ b < 3, (s.regWord (pgARR k) 0x100).getLsbD b = true → (t.regWord (pgARR k) 0x100).getLsbD b = true)
          ∧ (acc.view = .base → ∀ b < 3, acc.val.getLsbD b = true →
              (t.regWord (pgARR k) 0x100).getLsbD b = true ∧ (t.arrCaps k).testBit b = false)
          ∧ FieldsBut ([wholeReg (pgARR k) 0x100, wholeReg (pgARR k) 0x034, F.BLK_LEVEL_armed (pgARR k)]
              ++ eventFields (pgARR k) Ev.ARR_capability_withdrawn) s t
          ∧ { t with regs := s.regs, armedBy := s.armedBy, flt := s.flt } = s)
    ∧ (s.written (pgARR k) 0x104 acc = some (s2, w) → s2.get (F.ARR_STATE_state k) ≠ 1 →
      let armed := fun (kind : Nat) => { s2 with arrs := tabSet s2.arrs k { s2.arr k with
          inject := tabSet (s2.arr k).inject (s2.get (F.ARR_INJECT_word k)) kind } }
      (w.getLsbD 16 = true → exec (.arrInjectOneByte n acc) s = .next (armed 1))
      ∧ (w.getLsbD 17 = true → exec (.arrInjectTwoBytes n acc) s = .next (armed 2))))

/-- R173 to R176, R182, R197: the state word of a page and the free lists. R177 to R183: pages under fetches and stores. -/
def Obligations.KvPagesAndReferences : Prop :=
  (∀ (s : State) (page w dref dpin : Nat), s.plainStore (s.kvWordAddr page) 4 = true → s.peekNat (s.kvWordAddr page) 4 = w →
    w < 2 ^ 24 →
    let a := s.kvWordAddr page
    let r := s.mcTouches false a 4
    let set := fun (v : Nat) => r.wrote a (leBytes 4 v)
    let draining := fun (v : Nat) => decide (v % 65536 = 0 ∧ 0 < v / 65536)
    let shows := fun (v : Nat) (t : State) => t.get F.KV_DRAINING_pages
      = if draining w then (if draining v then s.get F.KV_DRAINING_pages else s.get F.KV_DRAINING_pages - 1)
        else if draining v then (s.get F.KV_DRAINING_pages + 1) % 2 ^ 23 else s.get F.KV_DRAINING_pages
    let becomes := fun (v : Nat) (c : KvRes) =>
      c.2 = none ∧ shows v c.1 ∧ FieldsBut [F.KV_DRAINING_pages] (set v) c.1 ∧ { c.1 with regs := (set v).regs } = set v
    (w % 65536 + dref ≤ 65535 → w / 65536 + dpin ≤ 255 → becomes (w + dref + 65536 * dpin) (s.kvInc page dref dpin))
    ∧ (65535 < w % 65536 + dref → s.kvInc page dref dpin = (r, some ⟨1, true, page⟩))
    ∧ (w % 65536 + dref ≤ 65535 → 255 < w / 65536 + dpin → s.kvInc page dref dpin = (r, some ⟨3, true, page⟩))
    ∧ (w % 65536 < dref → s.kvDec page dref dpin = (r, some ⟨2, true, page⟩))
    ∧ (dref ≤ w % 65536 → w / 65536 < dpin → s.kvDec page dref dpin = (r, some ⟨4, true, page⟩))
    ∧ (dref ≤ w % 65536 → dpin ≤ w / 65536 → w ≠ dref + 65536 * dpin → becomes (w - dref - 65536 * dpin) (s.kvDec page dref dpin))
    ∧ (∀ p, w = dref + 65536 * dpin → s.kvPoolOf page = some p →
      let v := 2 ^ 31 + tabGet s.kv.heads p kvEnd
      let c := s.kvDec page dref dpin
      c.2 = none ∧ c.1.get F.KV_DRAINING_pages = s.get F.KV_DRAINING_pages - (if draining w then 1 else 0)
        ∧ c.1.kv = { s.kv with heads := tabSet s.kv.heads p page } ∧ c.1.get (F.KV_FREE_pages p) = (s.get (F.KV_FREE_pages p) + 1) % 2 ^ 23
        ∧ c.1.get F.KV_RETURN_COUNT_count = (s.get F.KV_RETURN_COUNT_count + 1) % 2 ^ 32
        ∧ FieldsBut [F.KV_DRAINING_pages, F.KV_FREE_pages p, F.KV_RETURN_COUNT_count] (set v) c.1
        ∧ { c.1 with regs := (set v).regs, kv := s.kv } = set v)
    ∧ (∀ p, tabFind s.kv.heads p = none →
      let c := s.kvAlloc p w
      c.1.2 = some ⟨6, false, 0⟩ ∧ c.1.1.eventSet pgKV Ev.KV_pool_empty = true ∧ FieldsBut (eventFields pgKV Ev.KV_pool_empty) s c.1.1
        ∧ { c.1.1 with regs := s.regs, flt := s.flt } = s))
  ∧ (∀ (s : State) (p page next new : Nat), tabFind s.kv.heads p = some page → s.plainStore (s.kvWordAddr page) 4 = true →
    s.peekNat (s.kvWordAddr page) 4 = 2 ^ 31 + next → next ≤ kvEnd → new < 2 ^ 16 → s.get (F.KV_FREE_pages p) ≠ 0 →
    let set := (s.mcTouches false (s.kvWordAddr page) 4).wrote (s.kvWordAddr page) (leBytes 4 new)
    let free := s.get (F.KV_FREE_pages p) - 1
    let c := s.kvAlloc p new
    c.2 = page ∧ c.1.2 = none ∧ c.1.1.get (F.KV_FREE_pages p) = free
      ∧ c.1.1.get F.KV_ALLOC_COUNT_count = (s.get F.KV_ALLOC_COUNT_count + 1) % 2 ^ 32
      ∧ (free + 1 = s.get F.KV_LOW_WATER_pages → c.1.1.eventSet pgKV Ev.KV_pool_low = true)
      ∧ FieldsBut ([F.KV_FREE_pages p, F.KV_ALLOC_COUNT_count]
          ++ if free + 1 = s.get F.KV_LOW_WATER_pages then eventFields pgKV Ev.KV_pool_low else []) set c.1.1
      ∧ c.1.1.kv = { s.kv with heads := if next = kvEnd then tabDel s.kv.heads p else tabSet s.kv.heads p next }
      ∧ { c.1.1 with regs := set.regs, kv := s.kv, flt := s.flt } = { set with flt := s.flt })
  ∧ (∀ (n : Arr) (s s1 s2 s3 s4 : State) (f : Fly) (d : KvSeq) (page pool new v : Nat),
    let k := arrNum n
    let a := s.arr k
    let fly := fun (u : State) (g : Fly → Fly) => { u with arrs := tabSet u.arrs k ((u.arr k).modFly f.id g) }
    let phase := fun (u : State) (q : KvStore) => fly u fun f => { f with kvS := some q }
    let tokens := fun (u : State) (q : KvStore) (pool page : Nat) => u.kvTokens k f q pool page
    (∀ q : KvFetch, a.flyWhere (fun f => f.kvF.any fun q => decide (q.asked < q.blocks)) = some f → f.kvF = some q →
      s.get F.KV_STATUS_state ≠ 1 → s.kvCheck q.seq q.layer (q.block + q.asked) q.fmt = (s1, .ok d) →
      s1.kvEntry (d.entry q.layer (q.block + q.asked)) = (s2, some page) → s2.kvInc page 0 1 = (s3, none) →
      exec (.kvResolve n) s = .next (fly s3 fun f => { f with kvF := some { q with
        pages := q.pages ++ [(page, d.pool)]
        asked := q.asked + 1 } }))
    ∧ (∀ q : KvFetch, a.flyWhere (fun f => f.kvF.any fun q => decide (q.done < q.pages.length)) = some f → f.kvF = some q →
      q.pages[q.done]? = some (page, pool) → s.plainMem (s.kvAddr pool page) (s.kvPage pool) = true →
      s1 = fly (s.mcTouches false (s.kvAddr pool page) (s.kvPage pool)) (fun f => { f with
        kvF := some { q with done := q.done + 1 }
        lbW := f.lbW ++ segsOf (fun _ => false) (q.dst * 32 + q.done * s.kvPage pool) (s.bytes (s.kvAddr pool page) (s.kvPage pool)) }) →
      s1.kvDec page 0 1 = (s2, none) → exec (.pinRelease n) s = .next s2)
    ∧ (∀ (c : Instr) (ph : Nat) (q r : KvStore) (s0 : State), a.storeIn ph = some (f, r) → s.get F.KV_STATUS_state ≠ 1 →
      (c = .kvWriteRequest n ∧ ph = 0 ∧ q = { r with order := s.kv.next } ∧ s0 = { s with kv := { s.kv with next := s.kv.next + 1 } })
        ∨ (c = .kvWriteResume n ∧ ph = 1 ∧ q = r ∧ s0 = s ∧ s.kvCopying r = false) →
      s0.kvCheck q.seq q.layer (q.token / 16) q.fmt = (s1, .ok d) →
      (s0.kvCopying q = true → exec c s = .next (phase s1 { q with phase := 1 }))
      ∧ (s0.kvCopying q = false → s1.kvEntry (d.entry q.layer (q.token / 16)) = (s2, none) → s2.kvAlloc d.pool 1 = ((s3, none), new) →
        exec c s = .next (tokens ((s3.zero (s2.kvAddr d.pool new) (s2.kvPage d.pool)).kvPutEntry (d.entry q.layer (q.token / 16)) (some new))
          q d.pool new))
      ∧ (s0.kvCopying q = false → s1.kvEntry (d.entry q.layer (q.token / 16)) = (s2, some page) → s2.kvWord page = (s3, some v) → v < 2 ^ 24 →
        (v = 1 → exec c s = .next (tokens s3 q d.pool page))
        ∧ (v ≠ 1 → v < 255 * 65536 → s3.kvAlloc d.pool 0 = ((s4, none), new) →
          exec c s = .next (phase ((s4.kvSet page v (v + 65536)).count F.KV_COW_COUNT_count 1) { q with
            phase := 2
            pool := d.pool
            oldPg := page
            newPg := new }))))
    ∧ (∀ q : KvStore, a.storeIn 2 = some (f, q) →
      let len := s.kvPage q.pool / 32 * 32
      let src := s.kvAddr q.pool q.oldPg
      let dst := s.kvAddr q.pool q.newPg
      s.plainStore src len = true → s.plainStore dst len = true → src + len ≤ dst ∨ dst + len ≤ src →
      exec (.cowCopyDone n) s = .next (phase ((List.range (len / 32)).foldl
        (fun u i => (u.mcTouches false (src + 32 * i) 32).wrote (dst + 32 * i) (s.bytes (src + 32 * i) 32)) s) { q with phase := 3 }))
    ∧ (∀ q : KvStore, a.storeIn 3 = some (f, q) → s.kvSeq q.seq = (s1, d) → s1.kvDec q.oldPg 1 1 = (s2, none) →
      exec (.cowCommit n) s
        = .next (tokens ((s2.kvSet q.newPg 0 1).kvPutEntry (d.entry q.layer (q.token / 16)) (some q.newPg)) q q.pool q.newPg))
    ∧ (∀ q : KvStore, a.flights = [f] → f.kvS = some q →
      let base := s.kvAddr pool page + q.token % 16 * s.kvRow pool
      q.segs.all (fun g => !g.poison && decide (g.addr + g.data.length ≤ q.count * s.kvRow pool ∧ g.data ≠ [])
        && s.plainStore (base + g.addr) g.data.length) = true →
      tokens s q pool page = phase (q.segs.foldl (fun u g => u.wrote (base + g.addr) g.data) s) { q with
        phase := 4
        segs := [] }))

/-- R184 to R187: SEQ_OPEN, SEQ_CLOSE, SHARE, FREE, ALLOC. R187, R198, R199: KV_CTRL and the sweep. -/
def Obligations.KvCommands : Prop :=
  (∀ (id : JobId) (s : State) (j : Job) (b : List Byte),
    let c := kvCmd b
    let s0 := s.fetched j
    let s1 := (s0.kvSeq c.seq).1
    let q := (s0.kvSeq c.seq).2
    let s2 := (s1.kvSeq (c.src % 65536)).1
    let src := (s1.kvSeq (c.src % 65536)).2
    let at' := fun (u : State) (n : Nat) => u.modJob j.queue j.index fun j => { j with kvAt := n }
    let done := fun (u : State) (out : List Byte) => (at' u 0).commandDone j.queue j.index (some (digest64 out))
    let fail := fun (u : State) (e : KvFail) (layer : Nat) =>
      (at' (u.kvNote e (c.seq % 65536) layer j.queue) 0).commandFailed j.queue j.index
    let running := s.get F.KV_STATUS_state = 2 ∧ c.zeros = true ∧ c.seq ≤ 65535
    let byte := s.kvSeqAddr c.seq + 0xB
    let steps := fun (cmd : Instr) (u : State) (l0 ls b0 bs : Nat) (change : State → Nat → Nat → KvRes) (last : State → State) (out : List Byte) =>
      (ls * bs ≤ j.kvAt → exec cmd s = .next (done (last u) out))
      ∧ (∀ v r, j.kvAt < ls * bs → change u (l0 + j.kvAt / bs) (b0 + j.kvAt % bs) = (v, r) →
        exec cmd s = .next (match r with
          | some e => fail v e (l0 + j.kvAt / bs)
          | none => if j.kvAt + 1 < ls * bs then at' v (j.kvAt + 1) else done (last v) out))
    (s.commandAt id 6 1 = some (j, b) → running → q.isOpen = false → q.sound = true → s.plainStore byte 1 = true →
      exec (.seqOpen id) s = .next (done (s1.wrote byte [1#8]) [1#8]))
    ∧ (s.commandAt id 6 2 = some (j, b) → running → q.isOpen = true →
      steps (.seqClose id) s1 0 q.layers 0 q.blocks (kvDrop q) (fun u => u.store byte [0#8]) [0#8])
    ∧ (s.commandAt id 6 3 = some (j, b) → running → q.isOpen = true → c.src ≤ 65535 → src.isOpen = true → q.pool = src.pool →
      c.inside q = true → c.inside src = true →
      steps (.share id) s2 c.layer0 c.layers c.block0 c.blocks (kvShare src q) (fun u => u) [])
    ∧ (s.commandAt id 6 4 = some (j, b) → running → q.isOpen = true → c.inside q = true →
      steps (.free id) s1 c.layer0 c.layers c.block0 c.blocks (kvDrop q) (fun u => u) [])
    ∧ (s.commandAt id 6 5 = some (j, b) → running → q.isOpen = true → s.kvValid q.pool = true → c.inside q = true →
      steps (.alloc id) s1 c.layer0 c.layers c.block0 c.blocks (kvGive q) (fun u => u)
        (List.replicate (c.layers * c.blocks * s.kvPage q.pool) 0#8))
    ∧ (∀ op cmd cause u, (op, cmd, cause, u) ∈
        [(1, .seqOpen id, if q.isOpen then 9 else if q.sound then 0 else 0xB, s1), (2, .seqClose id, if q.isOpen then 0 else 8, s1),
          (3, .share id, if 65535 < c.src then 0xB else if !q.isOpen || !src.isOpen then 8 else if q.pool ≠ src.pool then 0xA
            else if c.inside q && c.inside src then 0 else 0xB, s2),
          (4, .free id, if !q.isOpen then 8 else if c.inside q then 0 else 0xB, s1),
          (5, .alloc id, if !q.isOpen then 8 else if !s.kvValid q.pool then 0xA else if c.inside q then 0 else 0xB, s1)] →
      s.commandAt id 6 op = some (j, b) →
      (s.get F.KV_STATUS_state = 1 → exec cmd s = .next s0)
      ∧ (running → cause ≠ 0 → exec cmd s = .next (fail u ⟨cause, false, 0⟩ 0))
      ∧ (s.get F.KV_STATUS_state ≠ 1 → s.get F.KV_STATUS_state ≠ 2 ∨ c.zeros = false ∨ 65535 < c.seq →
        ∃ t, exec cmd s = .next t ∧ t.get F.KV_FAULT_cause = (if s.get F.KV_STATUS_state ≠ 2 then 0xC else 0xB)
          ∧ t.get F.KV_FAULT_block = 0 ∧ t.get F.KV_FAULT_PAGE_page = 0 ∧ t.get F.KV_FAULT_SEQ_seq = c.seq % 65536
          ∧ t.get F.KV_FAULT_SEQ_layer = 0 ∧ t.get F.KV_FAULT_QUEUE_queue = j.queue % 2 ^ 17
          ∧ FieldsBut [F.KV_FAULT_cause, F.KV_FAULT_block, F.KV_FAULT_PAGE_page, F.KV_FAULT_SEQ_seq, F.KV_FAULT_SEQ_layer,
              F.KV_FAULT_QUEUE_queue] s0 t
          ∧ t.jobs = ((at' s0 0).commandFailed j.queue j.index).jobs ∧ { t with regs := s0.regs, jobs := s0.jobs } = s0))
    ∧ (∀ op, op = 0 ∨ 5 < op → s.commandAt id 6 op = some (j, b) → s.get F.KV_STATUS_state = 2 →
      exec (.seqOpen id) s = .next (fail s0 ⟨0xB, false, 0⟩ 0)))
  ∧ (∀ (s s1 s2 s3 : State) (q src : KvSeq) (l e new : Nat) (o o2 : Option Nat) (r : Option KvFail),
    (s.kvEntry (q.entry l e) = (s1, o) → s1.kvDec (o.getD 0) 1 0 = (s2, r) →
      kvDrop q s l e = if o.isNone then (s1, none) else if r.isNone then (s2.kvPutEntry (q.entry l e) none, none) else (s2, r))
    ∧ (s.kvEntry (src.entry l e) = (s1, o) → s1.kvEntry (q.entry l e) = (s2, o2) → s2.kvInc (o.getD 0) 1 0 = (s3, r) →
      kvShare src q s l e = if o.isNone then (s1, none) else if o2.isSome then (s2, some ⟨9, false, o2.getD 0⟩)
        else if r.isNone then (s3.kvPutEntry (q.entry l e) o, none) else (s3, r))
    ∧ (s.kvEntry (q.entry l e) = (s1, o) → s1.kvAlloc q.pool 1 = ((s2, r), new) →
      kvGive q s l e = if o.isSome then (s1, some ⟨9, false, o.getD 0⟩)
        else if r.isSome then (s2, r) else ((s2.zero (s1.kvAddr q.pool new) (s1.kvPage q.pool)).kvPutEntry (q.entry l e) (some new), none))
    ∧ (∀ a, s.plainStore a 4 = true → s.kvPutEntry a (some new) = s.wrote a (leBytes 4 (2 ^ 31 + new))
      ∧ s.kvPutEntry a none = s.wrote a (leBytes 4 0)))
  ∧ (∀ (acc : Acc) (s s2 : State) (w : Word), s.written pgKV 0x020 acc = some (s2, w) →
    let st := s2.get F.KV_STATUS_state
    ∀ c, c = .kvEnable acc ∨ c = .kvDisable acc ∨ c = .kvResume acc →
    (w.getLsbD 0 = true → st = 0 →
      (s2.kvCfgErr = none → ∃ t, exec c s = .next t ∧ t.get F.KV_STATUS_state = 1 ∧ t.get F.KV_STATUS_cfg_err = 0
        ∧ t.get F.KV_CTRL_enable = 1 ∧ FieldsBut [F.KV_STATUS_state, F.KV_STATUS_cfg_err, F.KV_CTRL_enable] s2 t
        ∧ t.kv = { s2.kv with format := s2.flag F.KV_CTRL_format } ∧ { t with regs := s2.regs, kv := s2.kv } = s2)
      ∧ (∀ p, s2.kvCfgErr = some p → ∃ t, exec c s = .next t ∧ t.get F.KV_STATUS_cfg_err = 1
        ∧ t.get F.KV_STATUS_cfg_pool = p % 8 ∧ FieldsBut [F.KV_STATUS_cfg_err, F.KV_STATUS_cfg_pool] s2 t ∧ { t with regs := s2.regs } = s2))
    ∧ (w.getLsbD 0 = false → st ≠ 0 → st ≠ 3 → s2.kvBusy = false →
      ∃ t, exec c s = .next t ∧ t.get F.KV_STATUS_state = 0 ∧ t.get F.KV_CTRL_enable = 0
        ∧ FieldsBut [F.KV_STATUS_state, F.KV_CTRL_enable] s2 t ∧ { t with regs := s2.regs } = s2)
    ∧ (w.getLsbD 2 = true → st = 3 → ∃ t, exec c s = .next t ∧ t.get F.KV_STATUS_state = 2
        ∧ FieldsBut [F.KV_STATUS_state] s2 t ∧ { t with regs := s2.regs } = s2)
    ∧ ((w.getLsbD 0 = true ∧ st ≠ 0 ∧ st ≠ 3) ∨ (w.getLsbD 2 = false ∧ st = 3) ∨ (w.getLsbD 0 = false ∧ st ≠ 3 ∧ (s2.kvBusy = true ∨ st = 0)) →
      exec c s = .next s2))
  ∧ (∀ s : State, s.get F.KV_STATUS_state = 1 →
    let s0 := (List.range 8).foldl (fun u p => u.put (F.KV_FREE_pages p) 0) ({ s with kv := { s.kv with heads := [] } }.put F.KV_DRAINING_pages 0)
    let r := ((List.range 8).filter fun p => s.kvValid p).foldl State.kvSweepPool (s0, none)
    (r.2 = none → ∃ t, exec .kvSweepDone s = .next t ∧ t.get F.KV_STATUS_state = 2 ∧ t.eventSet pgKV Ev.KV_enabled = true
      ∧ FieldsBut (F.KV_STATUS_state :: eventFields pgKV Ev.KV_enabled) r.1 t ∧ { t with regs := r.1.regs, flt := r.1.flt } = r.1)
    ∧ (∀ page, r.2 = some page → ∃ t, exec .kvSweepDone s = .next t ∧ t.get F.KV_STATUS_state = 3 ∧ t.eventSet pgKV Ev.KV_enabled = true
      ∧ t.eventSet pgKV Ev.KV_block_fault = true ∧ t.get F.KV_FAULT_cause = 7 ∧ t.get F.KV_FAULT_block = 1
      ∧ t.get F.KV_FAULT_PAGE_page = page % 2 ^ 22 ∧ t.get F.KV_FAULT_SEQ_seq = 0 ∧ t.get F.KV_FAULT_SEQ_layer = 0 ∧ t.get F.KV_FAULT_QUEUE_queue = 0
      ∧ FieldsBut ([F.KV_STATUS_state, F.KV_FAULT_cause, F.KV_FAULT_block, F.KV_FAULT_PAGE_page, F.KV_FAULT_SEQ_seq, F.KV_FAULT_SEQ_layer,
          F.KV_FAULT_QUEUE_queue] ++ eventFields pgKV Ev.KV_enabled ++ eventFields pgKV Ev.KV_block_fault) r.1 t
      ∧ { t with regs := r.1.regs, flt := r.1.flt } = r.1))
  ∧ (∀ (s : State) (p : Nat) (e : Option Nat), s.kv.format = true →
    let m := s.get (F.KV_POOL_COUNT_pages p)
    let first := s.get (F.KV_POOL_FIRST_page p)
    0 < m → first + m ≤ 4194303 → s.plainStore (s.kvWordAddr first) (4 * m) = true → tabFind s.kv.heads p = none →
    let s1 := (List.range m).foldl
      (fun u i => u.wrote (s.kvWordAddr (first + m - 1 - i)) (leBytes 4 (2 ^ 31 + if i = 0 then kvEnd else first + m - i))) s
    let t := (State.kvSweepPool (s, e) p).1
    (State.kvSweepPool (s, e) p).2 = e ∧ t.get (F.KV_FREE_pages p) = (s.get (F.KV_FREE_pages p) + m) % 2 ^ 23
      ∧ FieldsBut [F.KV_FREE_pages p] s1 t ∧ t.kv = { s.kv with heads := tabSet s.kv.heads p first }
      ∧ { t with regs := s1.regs, kv := s.kv } = s1)
  ∧ (∀ (s : State) (p page w : Nat) (e : Option Nat), s.plainStore (s.kvWordAddr page) 4 = true → s.peekNat (s.kvWordAddr page) 4 = w →
    let a := s.kvWordAddr page
    let r := s.mcTouches false a 4
    (w < 2 ^ 30 → kvSweepPage false p (s, e) page = (r.wrote a (leBytes 4 (w % 65536)), e))
    ∧ (2 ^ 30 ≤ w → w < 2 ^ 31 → kvSweepPage false p (s, e) page = (r, e))
    ∧ (2 ^ 31 ≤ w →
      let t := (kvSweepPage false p (s, e) page).1
      let s1 := r.wrote a (leBytes 4 (2 ^ 31 + tabGet s.kv.heads p kvEnd))
      (kvSweepPage false p (s, e) page).2 = e ∧ t.get (F.KV_FREE_pages p) = (s.get (F.KV_FREE_pages p) + 1) % 2 ^ 23
        ∧ t.kv = { s.kv with heads := tabSet s.kv.heads p page } ∧ FieldsBut [F.KV_FREE_pages p] s1 t
        ∧ { t with regs := s1.regs, kv := s.kv } = s1))

/-- R203 to R209, R217, R224, R225, R328: streams and their records. -/
def Obligations.IngressStreams : Prop :=
  (∀ (n : Fin 128) (acc : Acc) (s s2 : State) (w : Word),
    let word := n.val / 32
    let step := fun (u : State) (b : Nat) =>
      if w.getLsbD b then (if u.streamOn (32 * word + b) then u else u.streamEnable (32 * word + b)) else u.streamStop (32 * word + b)
    (s.written pgING (0x030 + 4 * word) acc = some (s2, w) →
      exec (.streamEnable n acc) s = .next ((List.range 32).foldl step s2)
      ∧ exec (.streamDisable n acc) s = .next ((List.range 32).foldl step s2))
    ∧ (s.written pgING 0x020 acc = some (s2, w) →
      (w.getLsbD 0 = true → exec (.ingEnable acc) s = .next (s2.put F.ING_CTRL_enable 1))
      ∧ (w.getLsbD 0 = false → exec (.ingEnable acc) s = .next ((List.range 118).foldl State.streamStop (s2.put F.ING_CTRL_enable 0)))))
  ∧ (∀ (n : Fin 128) (s : State),
    let k := n.val
    let v := s.stream k
    let en := F.ING_STREAM_EN_enable (k / 32)
    let table := s.addr F.ING_TABLE_BASE_LO_base + 64 * k
    let desc := s.bytes table 64
    let r := s.mcTouches false table 64
    let bad := fun (v : StreamSt) => if s.replaying then v else
      { v with
        scoreC := .of (v.score - s.get F.WARD_HEALTH_DELTA2_bad_item)
        cause := 4
        ready := v.ready ++ [{ kind := 1, seq := v.seq, len := v.score - s.get F.WARD_HEALTH_DELTA2_bad_item + 256 * 4 }]
        seq := (v.seq + 1) % 2 ^ 32 }
    (s.plainMem table 64 = true → r.streamOk k desc = true →
      let t := s.streamEnable k
      t.get en = s.get en ||| 2 ^ (k % 32) ∧ FieldsBut [en] r t
        ∧ t.streams = tabSet s.streams k { v with
            desc := desc
            scoreC := .of 192
            wr := 0
            held := if v.ring = fieldAt desc 0x10 8 then s.heldNow k else [] }
        ∧ { t with regs := r.regs, streams := s.streams } = r)
    ∧ (s.plainMem table 64 = true → r.streamOk k desc = false →
      let t := s.streamEnable k
      t.get F.ING_STATUS_cfg_err = 1 ∧ t.get F.ING_STATUS_cfg_stream = k ∧ t.eventSet pgING Ev.ING_cfg_err = true
        ∧ FieldsBut ([F.ING_STATUS_cfg_err, F.ING_STATUS_cfg_stream] ++ eventFields pgING Ev.ING_cfg_err) r t
        ∧ { t with regs := r.regs, flt := r.flt } = r)
    ∧ (s.streamOn k = true → v.ready.all (fun r => r.kind != 0) = true → v.frame = none →
      let t := s.streamStop k
      t.get en = s.get en - 2 ^ (k % 32) ∧ FieldsBut [en] s t
        ∧ t.streams = tabSet s.streams k { v with
            held := v.held.filter fun h => h.1.isSome
            ward := if v.ward.any (·.running) then v.ward else none
            done := [] }
        ∧ { t with regs := s.regs, streams := s.streams } = s)
    ∧ (s.streamOn k = false → s.streamStop k = s)
    ∧ (v.score ≤ 255 →
      let t := s.dropItem k
      t.streams = tabSet s.streams k (bad { v with
          drops := (v.drops + 1) % 2 ^ 32
          ready := addDrop v.ready v.seq
          seq := (v.seq + 1) % 2 ^ 32 })
        ∧ t.eventSet pgING Ev.ING_drop = true ∧ FieldsBut (eventFields pgING Ev.ING_drop) s t
        ∧ { t with regs := s.regs, streams := s.streams, flt := s.flt } = s)
    ∧ (∀ x, x ∈ v.ready → v.score ≤ 255 →
      let t := s.dropNumbered k x
      t.streams = tabSet s.streams k (bad { v with
          drops := (v.drops + 1) % 2 ^ 32
          ready := joinDrops (v.ready.map fun y => if y = x then { kind := 2, seq := x.seq, len := 1 } else y) })
        ∧ t.eventSet pgING Ev.ING_drop = true ∧ FieldsBut (eventFields pgING Ev.ING_drop) s t
        ∧ { t with regs := s.regs, streams := s.streams, flt := s.flt } = s)
    ∧ (∀ x : IngRec, s.fence v.fenceObj + 1 < 2 ^ 64 →
      let u := (if x.kind = 0 then s.store (v.ring + x.off) x.data (x.flags.testBit 3) else s)
      let q := s.queue k
      let u1 := u.store (q.ring + q.producer % q.size * 32) (ingRecord k x s.jrnPos)
      let pay := if x.kind = 0 then s.itemPayload k x.data (x.flags.testBit 3) else (0, [])
      let p := { u1 with queues := tabSet s.queues k { q with producer := (q.producer + 1) % 2 ^ 32 } }.publish (x.kind + 1) pay.1 k x.seq
        (k + 256 * x.kind + 65536 * x.flags) x.ts pay.2
      s.commitRecord k x = { p with
        fences := tabSet s.fences v.fenceObj (s.fence v.fenceObj + 1)
        streams := tabSet s.streams k { v with
          held := v.held.map fun h => if x.kind = 0 ∧ h = (none, x.off, x.len) then (some q.producer, x.off, x.len) else h
          hist := if x.kind = 1 then v.hist ++ [(s.jrnPos, x.len % 256)] else v.hist
          items := if x.kind = 0 then v.items ++ [(s.jrnPos, x.seq, x.ts)] else v.items }
        egoIn := p.egoIn ++ if x.kind = 0 ∧ s.egoWants k x.data = true then [⟨k, x.seq, x.flags, x.ts, s.jrnPos, x.data⟩] else [] })
    ∧ (∀ (x : IngRec) (rest : List IngRec), v.ready = x :: rest →
      let pop := { s with streams := tabSet s.streams k { v with ready := rest } }
      (s.replaying = true → ∀ c, c = .itemCommit n ∨ c = .dropRecord n →
        ∃ t, exec c s = .next t ∧ t.streams = tabSet s.streams k { v with
            ready := rest
            held := v.held.filter fun h => h ≠ (none, x.off, x.len) }
          ∧ t.get F.JRN_IGNORED_count = (s.get F.JRN_IGNORED_count + if x.kind = 0 then 1 else 0) % 2 ^ 32
          ∧ FieldsBut [F.JRN_IGNORED_count] s t ∧ { t with regs := s.regs, streams := s.streams } = s)
      ∧ (s.replaying = false → (s.queue k).hasRoom = true → x.xs = false →
        (x.kind = 1 → exec (.itemCommit n) s = .next (pop.commitRecord k { x with ts := openStamp k x }))
        ∧ (x.kind = 0 →
          let c := (pop.commitRecord k x).itemCounts k x
          exec (.itemCommit n) s
            = .next (if x.flags % 16 = 0 then c.health k 7 (s.get F.WARD_HEALTH_DELTA2_good_item)
                else c.health k 4 (-(c.get F.WARD_HEALTH_DELTA2_bad_item : Int))))
        ∧ (x.kind = 2 → (s.ringPlace k 1).isSome = true →
          exec (.dropRecord n) s = .next (pop.commitRecord k { x with ts := openStamp k x }))))
    ∧ (∀ x : IngRec,
      let t := s.itemCounts k x
      let inv := if x.flags.testBit 0 then 1 else 0
      let count := if k < 96 then [F.CSI_FRAMES_count (k / 4)] else if k < 112 then [F.ETH_RX_FRAMES_count ((k - 96) / 4)] else []
      t.get F.ING_TS_INVALID_count = (s.get F.ING_TS_INVALID_count + inv) % 2 ^ 32
        ∧ (∀ f ∈ count, t.get f = (s.get f + if k < 96 ∧ x.last = false then 0 else 1) % 2 ^ 32)
        ∧ FieldsBut (F.ING_TS_INVALID_count :: count) s t ∧ { t with regs := s.regs } = s)
    ∧ (∀ (cause : Nat) (d : Int), s.replaying = false →
      let new := (max 0 (min 255 ((v.score : Int) + d))).toNat
      s.health k cause d = { s with streams := tabSet s.streams k (if cause = 7 ∧ new = v.score then v else { v with
        scoreC := .of new
        cause := cause
        ready := v.ready ++ [{ kind := 1, seq := v.seq, len := new + 256 * cause }]
        seq := (v.seq + 1) % 2 ^ 32 }) })
    ∧ (s.streamOn k = true → v.deadlineUs ≠ 0 → s.replaying = false → v.score ≤ 255 →
      let new := v.score - s.get F.WARD_HEALTH_DELTA_stale
      ∃ t, exec (.stale n) s = .next t ∧ t.streams = tabSet s.streams k { v with
          scoreC := .of new
          cause := 3
          ready := v.ready ++ [{ kind := 1, seq := v.seq, len := new + 256 * 3 }]
          seq := (v.seq + 1) % 2 ^ 32 }
        ∧ t.eventSet pgING Ev.ING_stale = true
        ∧ FieldsBut (eventFields pgING Ev.ING_stale) s t ∧ { t with regs := s.regs, streams := s.streams, flt := s.flt } = s)
    ∧ (∀ (x : IngRec) (item : XsItem), v.ready.find? (·.xs) = some x → s.dikeState = 3 →
      let len := item.data.length
      (s.replaying = true →
        ∃ t, exec (.xsItemReturn n item) s = .next t ∧ t.streams = tabSet s.streams k { v with ready := v.ready.erase x }
          ∧ t.get F.JRN_IGNORED_count = (s.get F.JRN_IGNORED_count + 1) % 2 ^ 32
          ∧ FieldsBut [F.JRN_IGNORED_count] s t ∧ { t with regs := s.regs, streams := s.streams } = s)
      ∧ (s.replaying = false → s.ringPlace k len = none → exec (.xsItemReturn n item) s = .next (s.dropNumbered k x))
      ∧ (∀ o, s.replaying = false → s.ringPlace k len = some o →
        let a := v.ring + o
        let placed := { s with streams := tabSet s.streams k { v with
          wr := o + len
          held := s.heldNow k ++ [(none, o, len)] } }
        (item.code = .many → exec (.xsItemReturn n item) s = .next (s.dikeFault 5 0 a))
        ∧ (∀ c, item.code ≠ .many → s.xsViolation a len = some c → exec (.xsItemReturn n item) s = .next (s.dikeFault c.1 c.2 a))
        ∧ (item.code ≠ .many → s.xsViolation a len = none → placed.xsTake a len = none →
          ∃ t, exec (.xsItemReturn n item) s = .next t
            ∧ t.get F.DIKE_STALL_COUNT_stalls = (s.get F.DIKE_STALL_COUNT_stalls + (len + 31) / 32) % 2 ^ 32
            ∧ FieldsBut [F.DIKE_STALL_COUNT_stalls] s t ∧ { t with regs := s.regs } = s)
        ∧ (∀ u, item.code ≠ .many → s.xsViolation a len = none → placed.xsTake a len = some u →
          exec (.xsItemReturn n item) s = .next { u with streams := tabSet u.streams k { u.stream k with
            ready := (u.stream k).ready.map fun y =>
              if y = x then { x with xs := false, off := o, len := len, data := item.data } else y } }))))

/-- R205, R210 to R218, R227, R328: the ports, and items on their way to the queues. -/
def Obligations.SensorPorts : Prop :=
  (∀ (r : Fin 24) (p : CsiPacket) (s : State),
    let k := r.val
    let slots := s.csiSlots k p.vc.toNat
    let s1 := if p.ecc = .one then s.satInc (F.CSI_ERR_hdr_corrected k) else s
    (s.get F.ING_CTRL_enable = 0 ∨ s.get (F.CSI_CTRL_enable k) = 0 → exec (.csiPacket r p) s = .next s)
    ∧ (s.get F.ING_CTRL_enable = 1 → s.get (F.CSI_CTRL_enable k) = 1 →
      (p.ecc = .two → ∃ t, exec (.csiPacket r p) s = .next t ∧ t.eventSet (pgCSI k) Ev.CSI_header_uncorrectable = true
        ∧ t.get (F.CSI_ERR_hdr_uncorr k) = min (s.get (F.CSI_ERR_hdr_uncorr k) + 1) 255
        ∧ t.streams = slots.foldl (fun u v => tabSet u (4 * k + v) { tabGet u (4 * k + v) {} with
            frame := (tabGet u (4 * k + v) {}).frame.map fun f => { f with damaged := true } }) s.streams
        ∧ FieldsBut (F.CSI_ERR_hdr_uncorr k :: eventFields (pgCSI k) Ev.CSI_header_uncorrectable) s t
        ∧ { t with regs := s.regs, streams := s.streams, flt := s.flt } = s)
      ∧ (p.kind = .lineSync → p.ecc = .one → ∃ t, exec (.csiPacket r p) s = .next t
        ∧ t.get (F.CSI_ERR_hdr_corrected k) = min (s.get (F.CSI_ERR_hdr_corrected k) + 1) 255
        ∧ FieldsBut [F.CSI_ERR_hdr_corrected k] s t ∧ { t with regs := s.regs } = s)
      ∧ (p.kind = .lineSync → p.ecc = .ok → exec (.csiPacket r p) s = .next s)
      ∧ (p.kind = .frameStart → p.ecc ≠ .two → exec (.csiPacket r p) s = .next (slots.foldl (fun u v => u.csiStart k v) s1))
      ∧ (p.kind = .frameEnd → p.ecc ≠ .two → exec (.csiPacket r p) s = .next (slots.foldl (fun u v => u.frameEnd k v 0) s1))
      ∧ (∀ (dt : BitVec 8) (ok : Bool) (data : List Byte), p.kind = .long dt ok data → p.ecc ≠ .two →
        let mine := slots.filter fun v => dt.toNat == 0x12 || dt.toNat == (s.stream (4 * k + v)).dataType
        let line := fun (u : State) => mine.foldl (fun u v => u.csiLine k v dt.toNat ok data) u
        (ok = true ∨ mine = [] → exec (.csiPacket r p) s = .next (line s1))
        ∧ (∀ u, ok = false → mine ≠ [] → u = (s1.satInc (F.CSI_ERR_crc k)).raise (pgCSI k) Ev.CSI_crc_error →
          exec (.csiPacket r p) s = .next (line u) ∧ u.get (F.CSI_ERR_crc k) = min (s.get (F.CSI_ERR_crc k) + 1) 255
            ∧ u.eventSet (pgCSI k) Ev.CSI_crc_error = true
            ∧ FieldsBut (F.CSI_ERR_crc k :: eventFields (pgCSI k) Ev.CSI_crc_error) s1 u ∧ { u with regs := s1.regs, flt := s1.flt } = s1))))
  ∧ (∀ (r : Fin 24) (slot : Fin 4) (s : State),
    let k := r.val
    let v := slot.val
    let n := 4 * k + v
    let st := s.stream n
    let put := fun (x : StreamSt) => { s with streams := tabSet s.streams n x }
    (st.frame = none → s.csiStart k v = put { st with frame := some {}, done := [] } ∧ (∀ fl, s.frameEnd k v fl = s)
      ∧ (∀ dt ok data, s.csiLine k v dt ok data = s))
    ∧ (st.frame.isSome = true →
      let u := s.frameEnd k v 4
      let t := s.csiStart k v
      t.get (F.CSI_ERR_truncated k) = min (u.get (F.CSI_ERR_truncated k) + 1) 255 ∧ t.eventSet (pgCSI k) Ev.CSI_truncated = true
        ∧ t.streams = tabSet u.streams n { u.stream n with frame := some {}, done := [] }
        ∧ FieldsBut (F.CSI_ERR_truncated k :: eventFields (pgCSI k) Ev.CSI_truncated) u t
        ∧ { t with regs := u.regs, streams := u.streams, flt := u.flt } = u)
    ∧ (∀ (f : FrameSt) (dt : Nat) (ok : Bool) (data : List Byte), st.frame = some f →
      let px := unpackLine dt data
      let f1 := { f with
        lines := f.lines ++ [if ok then px else List.replicate px.length 0#8]
        count := f.count + 1
        damaged := f.damaged || !ok }
      let emb := put { st with frame := some { f with
        emb := if f.emb.length < 16 then f.emb ++ [data] else f.emb
        damaged := f.damaged || !ok } }
      (dt = 0x12 → f.emb.length ≠ st.tsLine → s.csiLine k v dt ok data = emb)
      ∧ (dt = 0x12 → f.emb.length = st.tsLine → s.csiLine k v dt ok data = emb.stampWaiting n data)
      ∧ (dt ≠ 0x12 → dt ≠ st.dataType ∨ 8192 ≤ f.count ∨ 8192 < linePixels dt px.length → s.csiLine k v dt ok data = s)
      ∧ (dt ≠ 0x12 → dt = st.dataType → f.count < 8192 → linePixels dt px.length ≤ 8192 →
        (st.slabLines = 0 ∨ f.lines.length + 1 < st.slabLines → s.csiLine k v dt ok data = put { st with frame := some f1 })
        ∧ (st.slabLines ≠ 0 → st.slabLines ≤ f.lines.length + 1 →
          s.csiLine k v dt ok data = (put { st with frame := some { f1 with
            lines := []
            items := f.items ++ [st.seq] } }).frameItem n f1 0 false)))
    ∧ (∀ (f : FrameSt) (fl : Nat), st.frame = some f →
      let s1 := put { st with frame := none }
      (st.slabLines = 0 ∨ f.lines ≠ [] ∨ f.count = 0 → s.frameEnd k v fl = (s1.frameItem n f fl true).embTest k v f)
      ∧ (st.slabLines ≠ 0 → f.lines = [] → f.count ≠ 0 → s.frameEnd k v fl = (s1.lastSlab n f).embTest k v f))
    ∧ (∀ (f : FrameSt) (fl : Nat) (last : Bool),
      let ts := s.stamp st f.emb[st.tsLine]?
      s.frameItem n f fl last
        = { s with freeCtr := s.freeCtr + 1 }.newItem n (ts.1 + (if f.damaged then 2 else 0) + fl) ts.2 (f.lines.flatMap (padTo 32)) last)
    ∧ (∀ f : FrameSt,
      let good := (f.emb[s.get (F.CSI_EMB_LINE_line k v)]?).any fun l => (crc32 l).toNat == s.get (F.CSI_EMB_CRC_crc k v)
      ((s.get (F.CSI_EMB_LINE_check k)).testBit v = false ∨ s.replaying = true ∨ good = true → s.embTest k v f = s)
      ∧ ((s.get (F.CSI_EMB_LINE_check k)).testBit v = true → s.replaying = false → good = false →
        let t := s.embTest k v f
        t.get (F.CSI_EMB_FAIL_fail k v) = min (s.get (F.CSI_EMB_FAIL_fail k v) + 1) 255 ∧ t.eventSet (pgCSI k) Ev.CSI_emb_fail = true
          ∧ t.streams = (s.health n 2 (-(s.get F.WARD_HEALTH_DELTA_emb_fail : Int))).streams
          ∧ FieldsBut (F.CSI_EMB_FAIL_fail k v :: eventFields (pgCSI k) Ev.CSI_emb_fail) s t
          ∧ { t with regs := s.regs, streams := s.streams, flt := s.flt } = s))
    ∧ (∀ (f : FrameSt) (q : Nat), f.items.getLast? = some q → q ∈ st.done →
      (st.ready.any (fun r => r.kind == 0 && r.seq == q) = true → s.lastSlab n f = put { st with
        ready := st.ready.map fun (r : IngRec) => if r.kind = 0 ∧ r.seq = q then { r with last := true } else r })
      ∧ (st.ready.any (fun r => r.kind == 0 && r.seq == q) = false →
        let t := s.lastSlab n f
        t.get (F.CSI_FRAMES_count (n / 4)) = (s.get (F.CSI_FRAMES_count (n / 4)) + 1) % 2 ^ 32
          ∧ FieldsBut [F.CSI_FRAMES_count (n / 4)] s t ∧ { t with regs := s.regs } = s)))
  ∧ (∀ (n fl ts : Nat) (data : List Byte) (last : Bool) (s : State),
    let v := s.stream n
    let put := fun (x : StreamSt) => { s with streams := tabSet s.streams n x }
    let new := s.newItem n fl ts data last
    (s.replaying = true → new.get F.JRN_IGNORED_count = (s.get F.JRN_IGNORED_count + 1) % 2 ^ 32
      ∧ FieldsBut [F.JRN_IGNORED_count] s new ∧ { new with regs := s.regs } = s)
    ∧ (s.replaying = false →
      (s.ringPlace n data.length = none → new = s.dropItem n)
      ∧ (∀ o, s.ringPlace n data.length = some o →
        (v.xsRoute = false → new = put (s.itemIn n fl ts data last o))
        ∧ (v.xsRoute = true → s.xsFaulted = true → v.xsBypass = true → new = put (s.itemIn n (fl ||| 16) ts data last o))
        ∧ (v.xsRoute = true → s.xsFaulted = false ∨ v.xsBypass = false →
          (s.get F.DIKE_STATUS_state = 3 → s.xsReach (v.ring + o) data.length 0 = true → new = { put { v with
              seq := (v.seq + 1) % 2 ^ 32
              ready := v.ready ++ [{ kind := 0, seq := v.seq, flags := fl, ts := ts, data := data, xs := true, last := last }]
              done := v.done ++ [v.seq] } with out := s.out ++ [⟨.xsReturn, [n, v.seq], data⟩] })
          ∧ (s.get F.DIKE_STATUS_state ≠ 3 ∨ s.xsReach (v.ring + o) data.length 0 = false → new = s.dropItem n))))
    ∧ (∀ place : List Byte,
      let t := s.stamp v (some place)
      s.portItem n place data
        = { put { v with done := [] } with freeCtr := s.freeCtr + 1 }.newItem n t.1 t.2 data true)
    ∧ (∀ t, readTs v.tsFormat v.tsOffset data (Config.free s.freeCtr) = some t →
      s.stampWaiting n data = { put { v with
        ready := v.ready.map fun (r : IngRec) =>
          if r.kind = 0 ∧ v.done.contains r.seq ∧ r.flags.testBit 0 then { r with flags := r.flags - 1, ts := t } else r } with
        freeCtr := s.freeCtr + 1 }))
  ∧ (∀ (m : Fin 4) (f : EthFrame) (s : State),
    let k := m.val
    (s.get F.ING_CTRL_enable = 0 ∨ s.get (F.ETH_CTRL_enable k) = 0 → exec (.ethFrame m f) s = .next s)
    ∧ (s.get F.ING_CTRL_enable = 1 → s.get (F.ETH_CTRL_enable k) = 1 →
      let other := s.get (F.ETH_MAC_HI_promisc k) = 0 ∧ f.dst.toNat ≠ s.get (F.ETH_MAC_LO_mac k) + 2 ^ 32 * s.get (F.ETH_MAC_HI_mac k)
      (f.fcsOk = false → ∃ t, exec (.ethFrame m f) s = .next t ∧ t.get (F.ETH_RX_ERR_fcs k) = min (s.get (F.ETH_RX_ERR_fcs k) + 1) 65535
        ∧ t.eventSet (pgETH k) Ev.ETH_fcs_error = true ∧ FieldsBut (F.ETH_RX_ERR_fcs k :: eventFields (pgETH k) Ev.ETH_fcs_error) s t
        ∧ { t with regs := s.regs, flt := s.flt } = s)
      ∧ (f.fcsOk = true → f.pause = true ∨ 9216 < ethBytes f ∨ other → exec (.ethFrame m f) s = .next s)
      ∧ (f.fcsOk = true → f.pause = false → ethBytes f ≤ 9216 → ¬ other →
        (s.ethFlow k f = none → ∃ t, exec (.ethFrame m f) s = .next t ∧ t.eventSet (pgETH k) Ev.ETH_unmatched = true
          ∧ t.get (F.ETH_RX_ERR_unmatched k) = min (s.get (F.ETH_RX_ERR_unmatched k) + 1) 65535
          ∧ FieldsBut (F.ETH_RX_ERR_unmatched k :: eventFields (pgETH k) Ev.ETH_unmatched) s t
          ∧ { t with regs := s.regs, flt := s.flt } = s)
        ∧ (∀ j, s.ethFlow k f = some j →
          (s.streamOn (96 + 4 * k + j) = true → exec (.ethFrame m f) s = .next (s.portItem (96 + 4 * k + j) f.payload f.payload))
          ∧ (s.streamOn (96 + 4 * k + j) = false → exec (.ethFrame m f) s = .next s)))))
  ∧ (∀ (i : Island) (ctl : Fin 2) (d : List Byte) (f : CanFrame) (c : Instr) (n : Nat) (place data : List Byte) (s : State),
    8 ≤ d.length → d.length ≤ 64 →
    (c, n, place, data) ∈ [(.spiFrame i d, 112 + islNum i, d, d), (.canFdFrame i ctl f, 114 + 2 * islNum i + ctl.val, f.data,
      leBytes 4 (f.ident.toNat + (if f.extended then 2 ^ 29 else 0)) ++ f.data)] →
    (s.get F.ING_CTRL_enable = 0 ∨ s.streamOn n = false → exec c s = .next s)
    ∧ (s.get F.ING_CTRL_enable = 1 → s.streamOn n = true →
      (s.replaying = true → ∃ t, exec c s = .next t ∧ t.get F.JRN_IGNORED_count = (s.get F.JRN_IGNORED_count + 1) % 2 ^ 32
        ∧ FieldsBut [F.JRN_IGNORED_count] s t ∧ { t with regs := s.regs } = s)
      ∧ (s.replaying = false → s.islLinkDown (islNum i) = true → exec c s = .next (s.dropItem n))
      ∧ (s.replaying = false → s.islLinkDown (islNum i) = false → exec c s = .next (s.portItem n place data))))
  ∧ (∀ (r : Fin 24) (link deskewed : Bool) (s : State),
    let k := r.val
    (s.get (F.CSI_CTRL_enable k) = 0 → exec (.csiLinkChange r link deskewed) s = .next s)
    ∧ (s.get (F.CSI_CTRL_enable k) = 1 →
      ∃ t, exec (.csiLinkChange r link deskewed) s = .next t ∧ t.flag (F.CSI_STATUS_link k) = link
        ∧ t.flag (F.CSI_STATUS_deskewed k)
          = (s.flag (F.CSI_STATUS_deskewed k) || (deskewed && !s.flag (F.CSI_CTRL_phy k) && s.flag (F.CSI_CTRL_deskew k)))
        ∧ (s.flag (F.CSI_STATUS_link k) ≠ link → t.eventSet (pgCSI k) Ev.CSI_link_change = true)
        ∧ FieldsBut ([F.CSI_STATUS_link k, F.CSI_STATUS_deskewed k]
            ++ if s.flag (F.CSI_STATUS_link k) = link then [] else eventFields (pgCSI k) Ev.CSI_link_change) s t
        ∧ { t with regs := s.regs, flt := s.flt } = s))
  ∧ (∀ (m : Fin 4) (blockLock fecLock link : Bool) (s : State),
    let k := m.val
    (s.get (F.ETH_CTRL_enable k) = 0 → exec (.ethLinkChange m blockLock fecLock link) s = .next s)
    ∧ (s.get (F.ETH_CTRL_enable k) = 1 →
      ∃ t, exec (.ethLinkChange m blockLock fecLock link) s = .next t ∧ t.flag (F.ETH_STATUS_link k) = link
        ∧ t.flag (F.ETH_STATUS_block_lock k) = blockLock ∧ t.flag (F.ETH_STATUS_fec_lock k) = fecLock
        ∧ (s.flag (F.ETH_STATUS_link k) ≠ link → t.eventSet (pgETH k) Ev.ETH_link_change = true)
        ∧ FieldsBut ([F.ETH_STATUS_link k, F.ETH_STATUS_block_lock k, F.ETH_STATUS_fec_lock k]
            ++ if s.flag (F.ETH_STATUS_link k) = link then [] else eventFields (pgETH k) Ev.ETH_link_change) s t
        ∧ { t with regs := s.regs, flt := s.flt } = s))

/-- R219 to R222, R225, R228, R328: wards. -/
def Obligations.Wards : Prop :=
  ∀ (n : Fin 128) (s : State),
    let k := n.val
    let v := s.stream k
    let table := s.addr F.WARD_TABLE_BASE_LO_base + 64 * k
    let e := s.bytes table 64
    let r := s.mcTouches false table 64
    let raw := s.bytes (fieldAt e 0x10 8) (fieldAt e 4 4)
    let tile := if k < 96 then padTo 32 (unpackLine v.dataType raw) else raw
    let digest := (digest64 tile).toNat
    let failed := fun (stage : Nat) (t : State) => t.get F.WARD_STATUS_last_stream = k ∧ t.get F.WARD_STATUS_last_stage = stage
      ∧ t.get F.WARD_FAIL_COUNT_count = (s.get F.WARD_FAIL_COUNT_count + 1) % 2 ^ 32 ∧ t.eventSet pgWARD Ev.WARD_ward_fail = true
      ∧ FieldsBut ([F.WARD_STATUS_last_stream, F.WARD_STATUS_last_stage, F.WARD_FAIL_COUNT_count] ++ eventFields pgWARD Ev.WARD_ward_fail) s t
      ∧ { t with regs := s.regs, streams := s.streams, flt := s.flt } = s
    ((s.get F.WARD_CTRL_enable = 0 ∨ s.streamOn k = false ∨ v.warded = false ∨ s.replaying = true ∨ v.ward ≠ none ∨ v.frame ≠ none →
        exec (.wardPoint n) s = .next s)
      ∧ (s.get F.WARD_CTRL_enable = 1 → s.streamOn k = true → v.warded = true → s.replaying = false → v.ward = none → v.frame = none →
        s.plainMem table 64 = true →
        (wardEntryOk e = false ∨ v.done.all (fun q => decide (q % s.wardPeriod e ≠ 0)) = true → exec (.wardPoint n) s = .next r)
        ∧ (wardEntryOk e = true → v.done.any (fun q => decide (q % s.wardPeriod e = 0)) = true →
          r.plainMem (fieldAt e 0x10 8) (fieldAt e 4 4) = true →
          let bypass := v.xsRoute && s.xsFaulted
          let u := (r.mcTouches false (fieldAt e 0x10 8) (fieldAt e 4 4)).setStream k { v with
            done := []
            ward := some { entry := e, bypass := bypass, tile := tile } }
          (v.xsRoute = false ∨ s.xsFaulted = true →
            (digest = fieldAt e (if bypass then 0x28 else 0x18) 8 → exec (.wardPoint n) s = .next u)
            ∧ (digest ≠ fieldAt e (if bypass then 0x28 else 0x18) 8 → exec (.wardPoint n) s = .next (u.wardOutcome k (some 1))))
          ∧ (v.xsRoute = true → s.xsFaulted = false →
            exec (.wardPoint n) s = .next (if u.fresh.1 % 2 ^ 64 = fieldAt e 0x18 8 then u.fresh.2 else u.fresh.2.wardOutcome k (some 1))))))
    ∧ (v.score ≤ 255 →
      let w := { v with deferrals := 0, lastPass := true, ward := none }
      let x := { v with deferrals := 0, lastPass := false, ward := none }
      let up := min 255 (v.score + s.get F.WARD_HEALTH_DELTA_ward_pass)
      let low := v.score - s.get F.WARD_HEALTH_DELTA_ward_fail
      (s.replaying = false →
        s.wardOutcome k none = { s with
          streams := tabSet s.streams k { w with
            scoreC := .of up
            cause := 5
            ready := v.ready ++ [{ kind := 1, seq := v.seq, len := up + 256 * 5 }]
            seq := (v.seq + 1) % 2 ^ 32 } }
        ∧ ∀ stage : Nat, stage < 4 → (s.wardOutcome k (some stage)).streams = tabSet s.streams k { x with
            scoreC := .of low
            cause := 1
            ready := v.ready ++ [{ kind := 1, seq := v.seq, len := low + 256 * 1 }]
            seq := (v.seq + 1) % 2 ^ 32 })
      ∧ (∀ stage : Nat, stage < 4 → failed stage (s.wardOutcome k (some stage))))
    ∧ (∀ (a : Fin 24) (w : WardRun), v.ward = some w → w.running = false →
      let d := fieldAt w.entry 2 1
      let idle := (s.dieArrays d).filter s.wardIdle
      let paid := decide ((fieldAt w.entry 3 1 : Int) ≤ s.wardBudget d)
      (v.deferrals < 3 → idle = [] ∨ paid = false → exec (.wardRun n a) s = .next (s.wardDefer k))
      ∧ (idle.contains (24 * d + a.val) = true → paid = true ∨ 3 ≤ v.deferrals →
        exec (.wardRun n a) s = .next (s.wardStart k (24 * d + a.val) w))
      ∧ (idle.contains (24 * d + a.val) = false → (idle ≠ [] ∧ paid = true) ∨ 3 ≤ v.deferrals → exec (.wardRun n a) s = .next s)
      ∧ (let t := s.wardDefer k
        t.streams = tabSet s.streams k { v with deferrals := v.deferrals + 1, ward := none } ∧ t.eventSet pgWARD Ev.WARD_deferral = true
          ∧ FieldsBut (eventFields pgWARD Ev.WARD_deferral) s t ∧ { t with regs := s.regs, streams := s.streams, flt := s.flt } = s)
      ∧ (s.plainMem (fieldAt w.entry 8 8) 128 = true →
        let h := s.bytes (fieldAt w.entry 8 8) 128
        let p := s.mcTouches false (fieldAt w.entry 8 8) 128
        let m := 24 * d + a.val
        let j := wardJob k s.wardRuns m w.entry h
        s.wardStart k m w = { p with
          jobs := s.jobs ++ [if s.imageOk h false = true ∧ fieldAt h 0x10 2 = 1 then j else { j.report 4 0 0 with slots := [{ phase := 3 }] }]
          wardRuns := s.wardRuns + 1
          arrs := tabSet s.arrs m ((s.arr m).putTile w.tile)
          streams := tabSet s.streams k { v with ward := some { w with running := true } } }))
    ∧ (∀ a : Fin 24, v.ward.all (·.running) = true → exec (.wardRun n a) s = .next s)
    ∧ (∀ w : WardRun, v.ward = some w → w.running = false → 3 ≤ v.deferrals →
      let d := fieldAt w.entry 2 1
      ((s.dieArrays d).any s.wardIdle = true ∨ s.victim d = none → exec (.preempt n) s = .next s)
      ∧ ∀ m : Nat, (s.dieArrays d).any s.wardIdle = false → s.victim d = some m →
        ((s.arr m).flights ≠ [] ∨ (s.arr m).atBoundary = false ∨ (s.arr m).loading = true ∨ (s.arr m).ending = true →
          exec (.preempt n) s = .next s)
        ∧ ((s.arr m).flights = [] → (s.arr m).atBoundary = true → (s.arr m).loading = false → (s.arr m).ending = false →
          let h := s.wardSaveLb m
          let saved := some ⟨m, { s.arr m with lb := [], lbCond := [] }, savedOffsets.map fun o => (o, s.regWord (pgARR m) o)⟩
          let t := (((((s.haltArr m).wardSaveLb m).count F.WARD_PREEMPT_COUNT_count 1).raise pgWARD Ev.WARD_preempt).put
            (F.ARR_STATE_state m) 0).put (F.ARR_JOB_QUEUE_valid m) 0
          exec (.preempt n) s = .next (t.wardStart k m { w with saved := saved })
            ∧ t.get (F.ARR_STATE_state m) = 0 ∧ t.get (F.ARR_JOB_QUEUE_valid m) = 0
            ∧ t.get F.WARD_PREEMPT_COUNT_count = (s.get F.WARD_PREEMPT_COUNT_count + 1) % 2 ^ 32
            ∧ t.eventSet pgWARD Ev.WARD_preempt = true ∧ t.eventSet (pgARR m) Ev.ARR_halted = true
            ∧ FieldsBut ([F.ARR_STATE_state m, F.ARR_JOB_QUEUE_valid m, F.WARD_PREEMPT_COUNT_count]
                ++ eventFields pgWARD Ev.WARD_preempt ++ eventFields (pgARR m) Ev.ARR_halted) s t
            ∧ { t with regs := h.regs, flt := h.flt } = h))
    ∧ (v.ward = none ∨ v.deferrals < 3 ∨ v.ward.all (·.running) = true → exec (.preempt n) s = .next s)
    ∧ (∀ m : Fin 96, memWf s.mem = true → memWf (s.arr m.val).lb = true → s.cond = [] → (s.arr m.val).lbCond = [] → s.spilled = [] →
      let area := wardArea (m.val / 24)
      let t := s.wardSaveLb m.val
      (∀ i < 131072, cellGet t.mem (area + i) = cellGet (s.arr m.val).lb (0x7000 * 32 + i)) ∧ BytesBut area 131072 s t
        ∧ { t with mem := s.mem } = s)
    ∧ (∀ m : Fin 96, memWf s.mem = true → memWf (s.arr m.val).lb = true → s.cond = [] →
      let area := wardArea (m.val / 24)
      let t := s.wardLoadLb m.val
      (∀ i, i < 131072 → cellGet (t.arr m.val).lb (0x7000 * 32 + i) = cellGet s.mem (area + i))
        ∧ (∀ i, i < 0x7000 * 32 ∨ 0x8000 * 32 ≤ i → cellGet (t.arr m.val).lb i = cellGet (s.arr m.val).lb i)
        ∧ t.arrs = tabSet s.arrs m.val { s.arr m.val with
            lb := (t.arr m.val).lb
            lbCond := (s.arr m.val).lbCond.filter fun c => !wardWord c.1 }
        ∧ { t with arrs := s.arrs } = s)
    ∧ (∀ (us : Nat) (w : WardRun) (j : Job), v.ward = some w → s.wardJobOf k = some j →
      let u := ((s.wardGone j).wardGiveBack w).wardCharge (fieldAt w.entry 2 1)
      (w.running = true → j.slots.all (fun t => decide (t.phase = 3)) = true →
        (j.outcome.1 ≠ 0 → exec (.wardJobDone n us) s = .next ((u us).wardOutcome k (some 3)))
        ∧ (j.outcome.1 = 0 → exec (.wardJobDone n us) s
          = .next ((u us).wardOutcome k (if j.digest.toNat = fieldAt w.entry (if w.bypass then 0x30 else 0x20) 8 then none else some 2))))
      ∧ (w.running = false ∨ j.slots.any (fun t => decide (t.phase ≠ 3)) = true → exec (.wardJobDone n us) s = .next s)
      ∧ (w.running = true → w.saved ≠ none →
        exec (.overrun n) s = .next (((u (s.get F.WARD_PREEMPT_MAX_us)).raise pgWARD Ev.WARD_overrun).wardOutcome k (some 3)))
      ∧ (w.running = false ∨ w.saved = none → exec (.overrun n) s = .next s))
    ∧ (v.ward = none ∨ s.wardJobOf k = none → exec (.overrun n) s = .next s ∧ ∀ us, exec (.wardJobDone n us) s = .next s)
    ∧ (∀ j : Job, s.wardJobOf k = some j →
      let t := s.wardGone j
      t.jobs = s.jobs.filter (fun x => !x.is j.queue j.index)
        ∧ t.transit = s.transit.filter (fun p => !(p.queue == j.queue && p.index == j.index))
        ∧ (∀ c ∈ j.slots, c.phase = 2 → t.get (F.ARR_RED_granted (24 * c.die + c.logical)) = 0
            ∧ t.get (F.ARR_RED_reserved (24 * c.die + c.logical)) = 0)
        ∧ FieldsBut (j.slots.flatMap fun c => [F.ARR_RED_granted (24 * c.die + c.logical), F.ARR_RED_reserved (24 * c.die + c.logical)]) s t
        ∧ { t with regs := s.regs, jobs := s.jobs, transit := s.transit } = s)
    ∧ (∀ w : WardRun, w.saved = none → s.wardGiveBack w = s)
    ∧ (∀ (m : Fin 96) (sv : SavedArr) (w : WardRun), w.saved = some sv → sv.arr = m.val →
      let now := s.arr m.val
      let back := { sv.st with
        lb := now.lb
        lbCond := now.lbCond
        progAddr := now.progAddr
        progDig := now.progDig
        words := now.words
        inject := now.inject
        nextId := max now.nextId sv.st.nextId
        stop := now.stop.or sv.st.stop }
      let u := (s.setArr m.val back).wardLoadLb m.val
      let t := sv.words.foldl (fun (u : State) p => u.putWord (pgARR m.val) p.1 p.2) u
      ((t.arrJob m.val).all (fun j => t.holdsProgram m.val j) = true → s.wardGiveBack w = t)
        ∧ (∀ j : Job, t.arrJob m.val = some j → t.holdsProgram m.val j = false → s.wardGiveBack w = t.programIn m.val j)
        ∧ ((∀ p ∈ sv.words, (sv.words.map (·.1)).Nodup → p.1 = 0x02C → (s.cell (pgARR m.val) 0x02C).wrong = none →
            t.regWord (pgARR m.val) 0x02C = p.2)
          ∧ PagesBut [pgARR m.val] [] u t ∧ { t with regs := u.regs } = u))
    ∧ (∀ (m : Fin 96) (j : Job), s.plainMem (j.program + 0x80) (16 * fieldAt j.header 6 2) = true →
      let r := (List.range (fieldAt j.header 6 2)).foldl (fun u x => u.mcTouches false (j.program + 0x80 + 16 * x) 16) s
      s.programIn m.val j = { r with arrs := tabSet s.arrs m.val { s.arr m.val with
        progAddr := j.program
        progDig := bytesAt j.header 0x20 64
        words := (List.range (fieldAt j.header 6 2)).map fun x => (BitVec.ofNat 128 (s.peekNat (j.program + 0x80 + 16 * x) 16), none) } })
    ∧ (∀ (d : Fin 4) (us : Nat),
      let t := s.wardCharge d.val us
      (s.wardBudget d.val ≤ 180 → t.wardBudget d.val = max (-180) (s.wardBudget d.val - us))
        ∧ FieldsBut [F.WARD_BUDGET_us d.val] s t ∧ { t with regs := s.regs } = s)
    ∧ (∀ d : Fin 4,
      (s.hubOff = true → exec (.wardBudgetRefill d) s = .next s)
      ∧ (s.hubOff = false → ∃ t, exec (.wardBudgetRefill d) s = .next t
        ∧ t.wardBudget d.val = min 180 (s.wardBudget d.val + 20) ∧ FieldsBut [F.WARD_BUDGET_us d.val] s t ∧ { t with regs := s.regs } = s))

/-- R229 to R236: EGO. -/
def Obligations.EgoPoses : Prop :=
  (∀ (acc : Acc) (s s2 : State) (w : Word), s.written pgEGO 0x020 acc = some (s2, w) →
    (w.getLsbD 0 = true → s2.get F.EGO_CTRL_enable = 1 → exec (.egoEnable acc) s = .next s2)
    ∧ (w.getLsbD 0 = true → s2.get F.EGO_CTRL_enable = 0 →
      ∃ t, exec (.egoEnable acc) s = .next t ∧ t.get F.EGO_CTRL_enable = 1 ∧ t.get F.EGO_STATUS_state = 1 ∧ t.get F.EGO_POSE_COUNT_count = 0
        ∧ t.egoIn = [] ∧ t.ego = { biases := (List.range 6).map fun k => s2.get (F.EGO_BIAS_value k) }
        ∧ FieldsBut [F.EGO_CTRL_enable, F.EGO_STATUS_state, F.EGO_POSE_COUNT_count] s2 t
        ∧ { t with regs := s2.regs, ego := s2.ego, egoIn := s2.egoIn } = s2)
    ∧ (w.getLsbD 0 = false → ∃ t, exec (.egoEnable acc) s = .next t ∧ t.get F.EGO_CTRL_enable = 0 ∧ t.get F.EGO_STATUS_state = 0
        ∧ t.egoIn = [] ∧ t.ego = {} ∧ FieldsBut [F.EGO_CTRL_enable, F.EGO_STATUS_state] s2 t
        ∧ { t with regs := s2.regs, ego := s2.ego, egoIn := s2.egoIn } = s2))
  ∧ (∀ (s : State) (i : EgoItem) (rest : List EgoItem), s.egoIn = i :: rest →
    let pop := { s with egoIn := rest }
    (i.stream = 255 →
      let u := { pop with ego := { s.ego with biases := (List.range 6).map fun k => fieldAt i.data (4 * k) 4 } }
      exec .inertialItem s = exec .inertialItem u ∧ exec .wheelItem s = exec .wheelItem u)
    ∧ (i.stream = 112 ∨ i.stream = 113 → exec .wheelItem s = .next s
      ∧ (let src := s.egoSource i.pos i.stream
        let moved := decide (src - 112 ≠ s.get F.EGO_STATUS_src) && s.ego.some1
        let u := (pop.put F.EGO_STATUS_src (src - 112)).raiseIf moved pgEGO Ev.EGO_src_switch
        let w := s.imuAxes i.data (s.get F.EGO_IMU_LAYOUT_gyro_off) (s.get F.EGO_GYRO_SCALE_value) 0
        let acc := s.imuAxes i.data (s.get F.EGO_IMU_LAYOUT_acc_off) (s.get F.EGO_ACC_SCALE_value) 3
        let dt : Int := (i.ts : Int) - s.ego.tPrev
        (u.get F.EGO_STATUS_src = src - 112 ∧ (moved = true → u.eventSet pgEGO Ev.EGO_src_switch = true)
          ∧ FieldsBut (F.EGO_STATUS_src :: if moved then eventFields pgEGO Ev.EGO_src_switch else []) s u
          ∧ { u with regs := s.regs, flt := s.flt } = pop)
        ∧ (i.stream ≠ src → exec .inertialItem s = .next u)
        ∧ (i.stream = src → i.flags % 16 ≠ 0 ∨ s.imuFits i.data = false ∨ (s.ego.some1 = true ∧ i.ts ≤ s.ego.tPrev) →
          ∃ t, exec .inertialItem s = .next t ∧ t.get F.EGO_SKIPPED_ts_bad = min (s.get F.EGO_SKIPPED_ts_bad + 1) 65535
            ∧ t.eventSet pgEGO Ev.EGO_ts_bad = true ∧ FieldsBut (F.EGO_SKIPPED_ts_bad :: eventFields pgEGO Ev.EGO_ts_bad) u t
            ∧ { t with regs := u.regs, flt := u.flt } = u)
        ∧ (i.stream = src → i.flags % 16 = 0 → s.imuFits i.data = true →
          (s.ego.some1 = false → exec .inertialItem s
            = .next (({ u with ego := { s.ego with pose := {}, some1 := true, tPrev := i.ts } }.put F.EGO_STATUS_state 2).writePose
                false i.ts i.pos w))
          ∧ (s.ego.some1 = true → s.ego.tPrev < i.ts → (1000 * s.get F.EGO_LIMITS_max_dt_us : Int) < dt → exec .inertialItem s
            = .next ((({ u with ego := { s.ego with tPrev := i.ts } }.satInc F.EGO_SKIPPED_gaps).raise pgEGO Ev.EGO_gap).writePose
                true i.ts i.pos w))
          ∧ (s.ego.some1 = true → s.ego.tPrev < i.ts → dt ≤ 1000 * s.get F.EGO_LIMITS_max_dt_us → exec .inertialItem s
            = .next ({ u with ego := { s.ego with
                pose := integrate (Config.freeOf (233 :: i.stream :: i.seq :: i.ts :: s.ego.tPrev :: i.data.map fun (b : Byte) => b.toNat))
                  s.ego.pose dt w acc
                tPrev := i.ts } }.writePose false i.ts i.pos w)))))
    ∧ (i.stream ≠ 112 → i.stream ≠ 113 → i.stream ≠ 255 →
      exec .inertialItem s = .next s
      ∧ (s.ego.some1 = false → exec .wheelItem s = .next pop)
      ∧ (s.ego.some1 = true → exec .wheelItem s = .next { pop with ego := { s.ego with
            pose := { s.ego.pose with v := s.wheelUpdate i.data }
            wheel := true } })))
  ∧ (∀ (gap : Bool) (ts pos : Nat) (w : V3) (s : State),
    let n := s.get F.EGO_POSE_COUNT_count
    let a := s.poseAddr n
    let r := s.wrote a (leBytes 4 n ++ leBytes 4 ((if gap then 1 else 0) + (if s.ego.wheel then 2 else 0) + 4 * s.get F.EGO_STATUS_src)
      ++ leBytes 8 ts ++ poseBytes s.ego.pose ++ leBytes 4 w.x ++ leBytes 4 w.y ++ leBytes 4 w.z ++ leBytes 8 pos ++ leBytes 40 0)
    s.plainStore a 128 = true →
      let t := s.writePose gap ts pos w
      t.get F.EGO_POSE_COUNT_count = (n + 1) % 2 ^ 32 ∧ t.ego = { s.ego with wheel := false } ∧ FieldsBut [F.EGO_POSE_COUNT_count] r t
        ∧ { t with regs := r.regs, ego := s.ego } = r)
  ∧ (∀ s : State,
    let gaps := (s.satInc F.EGO_SKIPPED_gaps).raise pgEGO Ev.EGO_gap
    let first := s.put F.EGO_STATUS_state 2
    gaps.get F.EGO_SKIPPED_gaps = min (s.get F.EGO_SKIPPED_gaps + 1) 65535 ∧ gaps.eventSet pgEGO Ev.EGO_gap = true
      ∧ FieldsBut (F.EGO_SKIPPED_gaps :: eventFields pgEGO Ev.EGO_gap) s gaps ∧ { gaps with regs := s.regs, flt := s.flt } = s
      ∧ first.get F.EGO_STATUS_state = 2 ∧ FieldsBut [F.EGO_STATUS_state] s first ∧ { first with regs := s.regs } = s)
  ∧ (∀ s : State, s.egoIn = [] → exec .inertialItem s = .next s ∧ exec .wheelItem s = .next s)

/-- R230, R238 to R247, R269: PROJ. -/
def Obligations.Projection : Prop :=
  (∀ (acc : Acc) (s s2 : State) (w : Word), s.written pgPROJ 0x020 acc = some (s2, w) →
    (w.getLsbD 0 = true → s2.get F.PROJ_CTRL_enable = 1 → exec (.projEnable acc) s = .next s2)
    ∧ (w.getLsbD 0 = true → s2.get F.PROJ_CTRL_enable = 0 →
      ((List.range 64).find? (fun e => !s2.calOk e) = none → ∃ t, exec (.projEnable acc) s = .next t
        ∧ t.get F.PROJ_CTRL_enable = 1 ∧ t.get F.PROJ_STATUS_state = 1
        ∧ FieldsBut [F.PROJ_CTRL_enable, F.PROJ_STATUS_state] s2 t ∧ { t with regs := s2.regs } = s2)
      ∧ (∀ e, (List.range 64).find? (fun e => !s2.calOk e) = some e → ∃ t, exec (.projEnable acc) s = .next t
        ∧ t.get F.PROJ_STATUS_cal_err = 1 ∧ t.get F.PROJ_STATUS_cal_entry = e ∧ t.eventSet pgPROJ Ev.PROJ_cal_err = true
        ∧ FieldsBut ([F.PROJ_STATUS_cal_err, F.PROJ_STATUS_cal_entry] ++ eventFields pgPROJ Ev.PROJ_cal_err) s2 t
        ∧ { t with regs := s2.regs, flt := s2.flt } = s2))
    ∧ (w.getLsbD 0 = false → ∃ t, exec (.projEnable acc) s = .next t ∧ t.get F.PROJ_CTRL_enable = 0 ∧ t.get F.PROJ_STATUS_state = 0
        ∧ FieldsBut [F.PROJ_CTRL_enable, F.PROJ_STATUS_state] s2 t ∧ { t with regs := s2.regs } = s2))
  ∧ (∀ (id : JobId) (s : State) (j : Job) (b : List Byte),
    let s0 := s.fetched j
    let u := (if pcLimit b = 0xFFFFFFFF then s0.modJob j.queue j.index fun j => { j with nonrepro := true } else s0).mcTouches
      false (pcSrc b) (pcSrcBytes b)
    let src := s.bytes (pcSrc b) (pcSrcBytes b)
    let op' := Config.freeOf [245, leNat b, leNat src]
    let done := fun (u : State) (out : List Byte) => u.commandDone j.queue j.index (some (digest64 out))
    let sound := s.get F.PROJ_STATUS_state ≠ 0 ∧ s.get F.PROJ_STATUS_state ≠ 3 ∧ s.projOk b = true ∧ s.inMemory (pcSrc b) (pcSrcBytes b) = true
      ∧ (pcDstBytes b = 0 ∨ s.inMemory (pcDst b) (pcDstBytes b) = true)
    let runs := sound ∧ s.poseGate b = some false ∧ s.plainMem (pcSrc b) (pcSrcBytes b) = true
    let mine := fun (r : JRec) => decide (r.kind = 0x0C ∧ r.aux0 = j.cmd ∧ r.aux1 = j.queue ∧ r.aux2 = j.index)
    let writes := fun (c : Instr) (items : List (List Byte × Nat)) =>
      let out := items.flatMap (·.1)
      let un := (items.filter fun i => i.2 == 1).length
      let ok := (items.filter fun i => i.2 == 0).length
      let w := u.wrote (pcDst b) out
      let v := ((w.count F.PROJ_POINTS_count ok).count F.PROJ_UNPOSED_count un).raiseIf (decide (0 < un)) pgPROJ Ev.PROJ_unposed
      runs → s.plainStore (pcDst b) out.length = true →
        s.plainMem (s.addr F.EGO_RING_BASE_LO_base) (128 * min (s.get F.EGO_POSE_COUNT_count) 16384) = true →
        exec c s = .next (done v out)
          ∧ v.get F.PROJ_POINTS_count = (w.get F.PROJ_POINTS_count + ok) % 2 ^ 32
          ∧ v.get F.PROJ_UNPOSED_count = (w.get F.PROJ_UNPOSED_count + un) % 2 ^ 32 ∧ v.eventSet pgPROJ Ev.PROJ_unposed = (s.eventSet pgPROJ Ev.PROJ_unposed || decide (0 < un))
          ∧ FieldsBut ([F.PROJ_POINTS_count, F.PROJ_UNPOSED_count] ++ if un = 0 then [] else eventFields pgPROJ Ev.PROJ_unposed) w v
          ∧ { v with regs := w.regs, flt := w.flt } = w
    (s.commandAt id 4 1 = some (j, b) → writes (.p2i id) ((pcPoints b src).map (u.p2iOut op' b)))
    ∧ (s.commandAt id 4 2 = some (j, b) → writes (.p2g id) ((pcPoints b src).map (u.p2gOut op' b)))
    ∧ (s.commandAt id 4 3 = some (j, b) → writes (.f2g id) ((List.range (pcCount b)).flatMap fun c =>
        (List.range (pcHeights b)).map fun h => u.f2gOut op' b c (fieldAt src (4 * h) 4)))
    ∧ (s.commandAt id 4 4 = some (j, b) → runs →
      let d := (List.range 7).map fun k => fieldAt src (4 * k) 4
      let small := ((d.take 3).all (fSmall 0x3D4CCCCD)) && (((d.drop 3).take 3).all (fSmall 0x3DCCCCCD)) && fSmall 0x3CA3D70A (d.getD 6 0)
      (small = true → exec (.delta id) s = .next (done { u with proj := { s.proj with deltas := tabSet s.proj.deltas (pcSrcS b) d } } []))
      ∧ (small = false → exec (.delta id) s = .next (u.commandFailed j.queue j.index)))
    ∧ (s.commandAt id 4 5 = some (j, b) →
      let bytes := ((List.range 6).map fun k => fieldAt src (4 * k) 4).flatMap (leBytes 4)
      let told := fun (u : State) => done { u.publish 0x0C 0 0 j.cmd j.queue j.index bytes with
        egoIn := u.egoIn ++ [⟨255, 0, 0, 0, u.jrnPos, bytes⟩] } []
      (s.replaying = true → s0.replayTurn mine = false → exec (.bias id) s = .next s0)
      ∧ (s.replaying = false → runs → exec (.bias id) s = .next (told u))
      ∧ (s.replaying = true → s0.replayTurn mine = true → runs → exec (.bias id) s = .next (told u.replayTake)))
    ∧ (∀ op c, (op, c) ∈ [(1, .p2i id), (2, .p2g id), (3, .f2g id), (4, .delta id), (5, .bias id)] → s.commandAt id 4 op = some (j, b) →
      op ≠ 5 ∨ s.replaying = false ∨ s0.replayTurn mine = true →
      (¬sound ∨ s.poseGate b = some true → exec c s = .next (s0.commandFailed j.queue j.index))
      ∧ (sound → s.poseGate b = none → exec c s = .next s0))
    ∧ (∀ op, op = 0 ∨ 5 < op → s.commandAt id 4 op = some (j, b) → exec (.p2i id) s = .next (s0.commandFailed j.queue j.index))
    ∧ (s.jobOf id = some j → j.cls = 4 →
      let last := fun (j : Job) =>
        let next := { j with cmd := j.cmd + 1, busy := false }
        if next.listCount ≤ next.cmd then { next with stage := .ended } else if j.stopping then next.ended 0x0A 0 else next
      let shown := fun (t : State) =>
        let busy := t.jobs.any fun k => k.cls == 4 && k.stage == .placed
        let was := s.get F.PROJ_STATUS_state
        t.get F.PROJ_STATUS_state = (if was = 1 ∨ was = 2 then (if busy then 2 else 1) else was);
      (let t := s.commandDone j.queue j.index none;
        t.jobs = (s.modJob j.queue j.index last).jobs ∧ shown t ∧ FieldsBut [F.PROJ_STATUS_state] s t
          ∧ { t with regs := s.regs, jobs := s.jobs } = s)
      ∧ (let t := s.commandFailed j.queue j.index;
        t.jobs = (s.modJob j.queue j.index fun k => { k.ended (listStatus k.cls) k.cmd with busy := false }).jobs ∧ shown t
          ∧ t.eventSet pgPROJ Ev.PROJ_cmd_fail = true
          ∧ FieldsBut (F.PROJ_STATUS_state :: eventFields pgPROJ Ev.PROJ_cmd_fail) s t
          ∧ { t with regs := s.regs, jobs := s.jobs, flt := s.flt } = s)
      ∧ ∀ out : List Byte, s.commandDone j.queue j.index (some (digest64 out))
        = (s.modJob j.queue j.index fun k => if k.wantsDigest then { k with tiles := k.tiles ++ [⟨0, k.tiles.length, 0, 0, 0, digest64 out⟩] }
            else k).commandDone j.queue j.index none))

/-- R249, R251 to R254, R264 to R270, R517: FUS. -/
def Obligations.Fusion : Prop :=
  (∀ (acc : Acc) (s s2 : State) (w : Word), s.written pgFUS 0x020 acc = some (s2, w) → ∀ c, c = .fusEnable acc ∨ c = .fusResume acc →
    let resumes := w.getLsbD 1 && s2.get F.FUS_STATUS_state == 3
    let r := if resumes then (s2.zero s2.fusStateBase (4 * s2.fusW * s2.fusH)).put F.FUS_STATUS_state 1 else s2
    (resumes = true → r.get F.FUS_STATUS_state = 1 ∧ FieldsBut [F.FUS_STATUS_state] s2 r
      ∧ { r with regs := s2.regs } = s2.zero s2.fusStateBase (4 * s2.fusW * s2.fusH))
    ∧ (w.getLsbD 0 = true → s2.get F.FUS_CTRL_enable = 1 → exec c s = .next r)
    ∧ (w.getLsbD 0 = false → s2.get F.FUS_CTRL_enable = 0 → exec c s = .next r)
    ∧ (w.getLsbD 0 = true → s2.get F.FUS_CTRL_enable = 0 →
      (s2.fusCfgOk = true → ∃ t, exec c s = .next t ∧ t.get F.FUS_CTRL_enable = 1 ∧ t.get F.FUS_STATUS_state = 1
        ∧ t.get F.FUS_TRACKS_live = 0
        ∧ t.fus = { s2.fus with tLast := none, inputs := [], late := [], released := [], next := 0, lastReq := none, live := [] }
        ∧ FieldsBut [F.FUS_CTRL_enable, F.FUS_STATUS_state, F.FUS_TRACKS_live] s2 t
        ∧ { t with regs := r.regs, fus := s2.fus } = (r.zero s2.fusTrackBase 67108864).zero s2.fusStateBase (4 * s2.fusW * s2.fusH))
      ∧ (s2.fusCfgOk = false → ∃ t, exec c s = .next t ∧ t.get F.FUS_FAULT_cause = 3 ∧ FieldsBut [F.FUS_FAULT_cause] r t
        ∧ { t with regs := r.regs } = r))
    ∧ (w.getLsbD 0 = false → s2.get F.FUS_CTRL_enable = 1 → ∃ t, exec c s = .next t ∧ t.get F.FUS_CTRL_enable = 0
        ∧ t.get F.FUS_STATUS_state = 0 ∧ t.get F.FUS_STATUS_pending = 0 ∧ t.fus = { s2.fus with pending := [] }
        ∧ t.jobs = (s2.fus.pending.foldl (fun (u : State) p => u.modJob p.queue p.index fun j => j.ended 0x07 0) s2).jobs
        ∧ FieldsBut [F.FUS_CTRL_enable, F.FUS_STATUS_state, F.FUS_STATUS_pending] s2 t
        ∧ { t with regs := r.regs, fus := r.fus, jobs := r.jobs } = r))
  ∧ (∀ (id : JobId) (s : State),
    (s.fusNextJob.all (fun j => !j.is id.queue.toNat id.index.toNat) = true
      ∨ (if s.get F.PWR_SERVICE_level = 1 then 1 else 4) ≤ s.fus.pending.length → exec (.instantRequest id) s = .next s)
    ∧ (∀ j : Job, s.fusNextJob = some j → j.is id.queue.toNat id.index.toNat = true →
      s.fus.pending.length < (if s.get F.PWR_SERVICE_level = 1 then 1 else 4) →
      let r := s.mcTouches false j.program 64
      let b := s.bytes j.program 64
      let ego := s.get F.EGO_STATUS_state
      let failed := fun (u : State) => u.modJob j.queue j.index fun j => j.ended 0x07 0
      (s.get F.FUS_STATUS_state = 0 ∨ s.get F.FUS_STATUS_state = 3 → exec (.instantRequest id) s = .next (failed s))
      ∧ (s.get F.FUS_STATUS_state ≠ 0 → s.get F.FUS_STATUS_state ≠ 3 → s.plainMem j.program 64 = true →
        (r.requestOk b = false ∨ ego = 0 ∨ ego = 3 → ∃ t, exec (.instantRequest id) s = .next t
          ∧ t.get F.FUS_FAULT_cause = (if r.requestOk b then 4 else 3) ∧ FieldsBut [F.FUS_FAULT_cause] r t
          ∧ { t with regs := r.regs } = failed r)
        ∧ (r.requestOk b = true → ego ≠ 0 → ego ≠ 3 → ∃ t, exec (.instantRequest id) s = .next t
          ∧ t.get F.FUS_STATUS_pending = s.fus.pending.length + 1 ∧ t.get F.FUS_STATUS_state = 2
          ∧ t.fus = { s.fus with
              pending := s.fus.pending ++ [⟨j.queue, j.index, s.fus.next, fieldAt b 4 4, fieldAt b 8 8, fieldAt b 0x10 8, fieldAt b 0x18 8,
                fieldAt b 0x20 8, fieldAt b 0x28 4, [], none⟩]
              next := (s.fus.next + 1) % 2 ^ 32
              lastReq := some (fieldAt b 8 8) }
          ∧ t.jobs = (s.modJob j.queue j.index fun j => { j with busy := true }).jobs
          ∧ FieldsBut [F.FUS_STATUS_pending, F.FUS_STATUS_state] r t
          ∧ { t with regs := r.regs, fus := s.fus, jobs := s.jobs } = r))))
  ∧ (∀ (sensor : Fin 64) (seq : Word) (s : State),
    let a := s.fusInputBase + 4096 * sensor.val + 64 * (seq.toNat % 64)
    let r := s.mcTouches false a 64
    let i := inputOf (s.bytes a 64) false
    let known := (s.stream (s.fusStream sensor.val)).items.any fun k => decide (k = (i.pos, i.seq, i.ts))
    let good := decide (i.seq = seq.toNat ∧ i.sensor = sensor.val ∧ i.count ≤ 4096) && known
    let old := s.fus.inputs.filter fun x => decide (x.sensor = sensor.val ∧ x.seq % 64 = seq.toNat % 64)
    let err := r.count F.FUS_INPUT_ERR_count 1
    let put := fun (u : State) => { u with fus := { s.fus with inputs := s.fus.inputs.filter (fun x => !old.contains x) ++ [i] } }.lateCheck i
    (s.get F.FUS_STATUS_state = 0 ∨ (s.fusSensor sensor.val).valid = false → exec (.fusionInput sensor seq) s = .next s)
    ∧ (err.get F.FUS_INPUT_ERR_count = (r.get F.FUS_INPUT_ERR_count + 1) % 2 ^ 32 ∧ FieldsBut [F.FUS_INPUT_ERR_count] r err
      ∧ { err with regs := r.regs } = r)
    ∧ (s.get F.FUS_STATUS_state ≠ 0 → (s.fusSensor sensor.val).valid = true → s.plainMem a 64 = true →
      (good = false → exec (.fusionInput sensor seq) s = .next err)
      ∧ (good = true → old.all (fun x => x.used || x.seq == i.seq) = true → exec (.fusionInput sensor seq) s = .next (put r))
      ∧ (good = true → old.any (fun x => !x.used && x.seq != i.seq) = true → exec (.fusionInput sensor seq) s = .next (put err))))
  ∧ (∀ (i : FusIn) (l : FusLate) (s : State),
    (i.told = true ∨ s.lateFor i = none → s.lateCheck i = s)
    ∧ (∀ n, i.told = false → s.lateFor i = some n →
      let u := { s with fus := { s.fus with inputs := s.fus.inputs.map fun (x : FusIn) =>
        if x.sensor = i.sensor ∧ x.seq = i.seq then { x with told := true } else x } }
      let t := u.raise pgFUS Ev.FUS_late
      s.lateCheck i = t.lateEnter ⟨n, i, false⟩ ∧ t.eventSet pgFUS Ev.FUS_late = true ∧ FieldsBut (eventFields pgFUS Ev.FUS_late) u t
        ∧ { t with regs := u.regs, flt := u.flt } = u)
    ∧ (s.onTimeLater l.inp = true → s.lateEnter l = { s with fus := { s.fus with late := s.fus.late ++ [{ l with lane := false }] } })
    ∧ (s.onTimeLater l.inp = false → (s.fus.late.filter (·.lane)).length < 64 →
      s.lateEnter l = { s with fus := { s.fus with late := s.fus.late ++ [{ l with lane := true }] } })
    ∧ (s.onTimeLater l.inp = false → 64 ≤ (s.fus.late.filter (·.lane)).length →
      let t := (s.satInc F.FUS_LATE_dropped).raise pgFUS Ev.FUS_late_drop
      s.lateEnter l = t.fusRecord (leBytes 4 l.inst ++ leBytes 1 l.inp.sensor ++ leBytes 1 4 ++ leBytes 2 0 ++ leBytes 4 l.inp.seq
          ++ leBytes 4 0xFFFFFFFF ++ leBytes 8 l.inp.pos ++ leBytes 8 l.inp.ts)
        ∧ t.get F.FUS_LATE_dropped = min (s.get F.FUS_LATE_dropped + 1) 65535 ∧ t.eventSet pgFUS Ev.FUS_late_drop = true
        ∧ FieldsBut (F.FUS_LATE_dropped :: eventFields pgFUS Ev.FUS_late_drop) s t ∧ { t with regs := s.regs, flt := s.flt } = s))
  ∧ (∀ (b : List Byte) (s : State),
    let q := s.queue 0x101
    (q.hasRoom = false → s.fusRecord b = { s with fus := { s.fus with records := s.fus.records ++ [b] } })
    ∧ (q.hasRoom = true → s.fus.records = [] →
      let u := s.store (q.ring + q.producer % q.size * 32) b
      s.fusRecord b = { u with queues := tabSet s.queues 0x101 { q with producer := (q.producer + 1) % 2 ^ 32 } }))
  ∧ (∀ (sensor : Fin 64) (s : State),
    let waits := fun (p : Instant) => p.r.isNone && (s.delivered sensor.val p.t).isNone && !p.outs.any fun o => decide (o.1 = sensor.val)
    (s.replaying = true ∨ (s.fusSensor sensor.val).valid = false ∨ s.fus.pending.all (fun p => !waits p) = true →
      exec (.fusionTimeout sensor) s = .next s)
    ∧ (∀ p : Instant, s.fus.pending.find? waits = some p → s.replaying = false → (s.fusSensor sensor.val).valid = true →
      let u := (s.fusRecord (timeoutRecord sensor.val p.number)).publish 0x0A 0 sensor.val p.number 0 0
      ∃ t, exec (.fusionTimeout sensor) s = .next t ∧ t.eventSet pgFUS Ev.FUS_timeout = true
        ∧ t.fus.pending = u.fus.pending.map (fun x => if x.number = p.number then { p with outs := p.outs ++ [(sensor.val, s.jrnPos)] } else x)
        ∧ FieldsBut (eventFields pgFUS Ev.FUS_timeout) u t
        ∧ { t with regs := u.regs, flt := u.flt, fus := { t.fus with pending := u.fus.pending } } = u))
  ∧ (∀ s : State,
    let met := fun (p : Instant) => s.fusValid.map fun j => match p.outs.find? fun o => decide (o.1 = j) with
      | some o => some o.2
      | none => s.delivered j p.t
    (s.unreleased = none → exec .instantRelease s = .next s)
    ∧ (∀ p : Instant, s.unreleased = some p → s.replaying = false →
      ((met p).any (·.isNone) = true → exec .instantRelease s = .next s)
      ∧ (∀ poss : List Nat, met p = poss.map some →
        let r := maxFrom s.lastR poss
        exec .instantRelease s
          = .next ((s.record 0x12 0 0 p.number 0 r (leBytes 8 (sensorMask (p.outs.map (·.1))))).setInstant { p with r := some r })))
    ∧ (∀ (p : Instant) (r outs : Nat), s.unreleased = some p → s.replaying = true → s.recordedInstant p.number = some (r, outs) →
      (s.jrn.expected.all (fun e => decide (e ≤ r)) = true → exec .instantRelease s = .next s)
      ∧ (s.jrn.expected.any (fun e => decide (r < e)) = true → exec .instantRelease s = .next (s.setInstant { p with
          r := some r
          outs := ((List.range 64).filter fun j => outs.testBit j).map fun j => (j, r) })))
    ∧ (∀ p : Instant, s.unreleased = some p → s.replaying = true → s.recordedInstant p.number = none → exec .instantRelease s = .next s)
    ∧ (s.fusHead = none → exec .instantInputsReady s = .next s ∧ exec .instantDeadline s = .next s))
  ∧ (∀ (s : State) (p : Instant) (r : Nat) (rest : List Instant), s.fus.pending = p :: rest → p.r = some r →
    let missing := s.fusValid.filter fun j => !s.inputsHere p r j
    let limited := ((s.job p.queue p.index).map fun j => decide (j.deadline ≠ 0)) = some true
    (missing = [] → exec .instantInputsReady s = .next (s.fusProcess p r []) ∧ exec .instantDeadline s = .next s)
    ∧ (missing ≠ [] → exec .instantInputsReady s = .next s)
    ∧ (missing ≠ [] → limited → exec .instantDeadline s = .next (s.fusProcess p r missing))
    ∧ (¬limited → exec .instantDeadline s = .next s)
    ∧ (∀ gone : List Nat, gone = [] ∨ gone = missing → rest.length < 4 → p.number < 2 ^ 32 →
      s.plainStore s.fusStateBase (4 * s.fusW * s.fusH) = true → p.flags % 4 = 0 → s.plainStore p.header 128 = true → s.fus.late = [] →
      (s.queue 0x101).hasRoom = false → s.get F.XGS_CTRL_enable = 0 → p.header + 128 ≤ s.fusStateBase ∨ s.fusStateBase + 4 * s.fusW * s.fusH ≤ p.header →
      let t := s.fusProcess p r gone
      let mc := pgMEMG :: (List.range 16).map pgMC
      t.fus.pending = rest ∧ t.fus.tLast = some p.t
        ∧ t.fus.released = s.fus.released ++ [(p.number, p.t, r)] ∧ t.get F.FUS_INSTANT_number = p.number
        ∧ t.get F.FUS_STATUS_pending = rest.length ∧ t.get F.FUS_STATUS_state = (if rest = [] then 1 else 2)
        ∧ t.eventSet pgFUS Ev.FUS_released = true
        ∧ t.peekNat p.header 4 = p.number ∧ (t.peekNat (p.header + 4) 4).testBit 0 = !gone.isEmpty ∧ t.peekNat (p.header + 8) 8 = p.t % 2 ^ 64
        ∧ t.peekNat (p.header + 0x10) 8 = r % 2 ^ 64 ∧ t.peekNat (p.header + 0x18) 8 = sensorMask (p.outs.map (·.1)) % 2 ^ 64
        ∧ (t.job p.queue p.index).map (·.stage) = (s.job p.queue p.index).map (fun _ => .ended)
        ∧ (gone ≠ [] → t.eventSet pgFUS Ev.FUS_incomplete = true
          ∧ ((t.job p.queue p.index).map fun j => (j.reports.getLast?).map (·.1)) = (s.job p.queue p.index).map fun _ => some 7)
        ∧ PagesBut (pgFUS :: mc) (eventFields pgEGO Ev.EGO_ring_uncorrectable) s t
        ∧ { t with regs := s.regs, mem := s.mem, cond := s.cond, mcs := s.mcs, fus := s.fus, jobs := s.jobs, streams := s.streams, flt := s.flt } = s))

/-- R274, R280, R282, R283, R287 to R289, R306, R307, R310: COLL. -/
def Obligations.Collision : Prop :=
  (∀ (acc : Acc) (s s2 : State) (w : Word), s.written pgCOLL 0x020 acc = some (s2, w) →
    let k := s2.collBases
    (w.getLsbD 0 = true → s2.get F.COLL_CTRL_enable = 1 → exec (.collEnable acc) s = .next s2)
    ∧ (w.getLsbD 0 = true → s2.get F.COLL_CTRL_enable = 0 →
      (k.collBasesOk = true → ∃ t, exec (.collEnable acc) s = .next t ∧ t.get F.COLL_CTRL_enable = 1 ∧ t.get F.COLL_STATUS_state = 1
        ∧ t.coll = { s2.coll with
            ws := s2.addr F.COLL_WS_BASE_LO_base
            tri := s2.addr F.COLL_TRI_BASE_LO_base
            rfx := s2.addr F.COLL_RFX_BASE_LO_base }
        ∧ FieldsBut [F.COLL_CTRL_enable, F.COLL_STATUS_state] s2 t ∧ { t with regs := s2.regs, coll := s2.coll } = s2)
      ∧ (k.collBasesOk = false → ∃ t, exec (.collEnable acc) s = .next t ∧ t.get F.COLL_STATUS_cfg_err = 1
        ∧ FieldsBut [F.COLL_STATUS_cfg_err] s2 t ∧ { t with regs := s2.regs } = s2))
    ∧ (w.getLsbD 0 = false → ∃ t, exec (.collEnable acc) s = .next t ∧ t.get F.COLL_CTRL_enable = 0 ∧ t.get F.COLL_STATUS_state = 0
        ∧ FieldsBut [F.COLL_CTRL_enable, F.COLL_STATUS_state] s2 t ∧ { t with regs := s2.regs } = s2))
  ∧ (∀ (id : JobId) (s : State) (j : Job) (c : List Byte), s.commandAt id 5 1 = some (j, c) →
    let s0 := s.fetched j
    let n := fieldAt c 1 1
    let sound := n < 2 ∧ (c.drop 2).all (· == 0#8) = true
    (s.get F.COLL_CTRL_enable = 0 ∨ s.coll.building ≠ none ∨ s.planOpen j = true → exec (.publish id) s = .next s0)
    ∧ (s.get F.COLL_CTRL_enable = 1 → s.coll.building = none → s.planOpen j = false →
      (¬sound → exec (.publish id) s = .next (s0.publishFail j (n % 2) 1))
      ∧ (sound → s.coll.current = some n ∨ n ∈ s.coll.inUse → exec (.publish id) s = .next (s0.publishFail j n 2))
      ∧ (sound → s.coll.current ≠ some n → n ∉ s.coll.inUse → s.plainMem (s.wsAt n) 256 = true →
        let p := s0.mcTouches false (s.wsAt n) 256
        (wsHeadOk (s.bytes (s.wsAt n) 256) = true → ∃ t, exec (.publish id) s = .next t ∧ t.get F.COLL_STATUS_state = 2
          ∧ t.coll = { s.coll with
              building := some (n, j.queue, j.index)
              margins := tabSet s.coll.margins n (s.get F.COLL_MARGIN_mm) }
          ∧ t.jobs = (s.modJob j.queue j.index fun j => { j with busy := true }).jobs
          ∧ FieldsBut [F.COLL_STATUS_state] p t ∧ { t with regs := p.regs, jobs := s.jobs, coll := s.coll } = p)
        ∧ (wsHeadOk (s.bytes (s.wsAt n) 256) = false → exec (.publish id) s = .next (p.publishFail j n 1)))))
  ∧ (∀ (j : Job) (b cause : Nat) (s : State), b < 2 → cause < 8 →
    let t := (((s.put F.COLL_ERR_cause cause).put F.COLL_ERR_buffer b).raise pgCOLL Ev.COLL_publish_refused).raiseIf (cause == 5)
      pgCOLL Ev.COLL_uncorrectable
    s.publishFail j b cause = t.commandFailed j.queue j.index
      ∧ t.get F.COLL_ERR_cause = cause ∧ t.get F.COLL_ERR_buffer = b ∧ t.eventSet pgCOLL Ev.COLL_publish_refused = true
      ∧ t.eventSet pgCOLL Ev.COLL_uncorrectable = (s.eventSet pgCOLL Ev.COLL_uncorrectable || cause == 5)
      ∧ FieldsBut ([F.COLL_ERR_cause, F.COLL_ERR_buffer] ++ eventFields pgCOLL Ev.COLL_publish_refused
          ++ eventFields pgCOLL Ev.COLL_uncorrectable) s t
      ∧ { t with regs := s.regs, flt := s.flt } = s)
  ∧ (∀ s : State, s.coll.building = none → exec .gridBuildDone s = .next s)
  ∧ (∀ (s : State) (b q i : Nat), s.coll.building = some (b, q, i) → b < 2 →
    let turn := s.replayTurn fun r => decide (r.kind = 0x0B ∧ r.src = b)
    let next := fun (u : State) => u.get F.COLL_STATUS_state = (if s.get F.COLL_CTRL_enable = 1 then 1 else 0)
    (let u := s.buildOver;
      next u ∧ FieldsBut [F.COLL_STATUS_state] s u ∧ { u with regs := s.regs } = { s with coll := { s.coll with building := none } })
    ∧ (∀ c : Nat, s.buildCause b = some c →
      (∀ j : Job, s.job q i = some j → exec .gridBuildDone s = .next (s.buildOver.publishFail j b c))
      ∧ (s.job q i = none → exec .gridBuildDone s = .next s.buildOver))
    ∧ (s.buildCause b = none → s.replaying = true → turn = false → exec .gridBuildDone s = .next s)
    ∧ (s.buildCause b = none → s.replaying = false ∨ turn = true →
      let g := s.buildGrid b (tabGet s.coll.margins b 100)
      let g1 := if s.replaying then g.1.replayTake else g.1
      let e := if s.get F.COLL_EPOCH_epoch = 65535 then 1 else s.get F.COLL_EPOCH_epoch + 1
      let m := g1.buildOver.makeCurrent b g.2
      let p := m.publish 0x0B 0 b e 0 0
      let f := if s.get F.COLL_PUB_FENCE_valid = 1 then p.fenceAdd (s.get F.COLL_PUB_FENCE_object) 1 else p
      let t := (f.raise pgCOLL Ev.COLL_published).raiseIf (decide (0 < g.2)) pgCOLL Ev.COLL_saturated
      exec .gridBuildDone s = .next (t.commandDone q i none)
        ∧ m.get F.COLL_EPOCH_epoch = e ∧ m.get F.COLL_STATUS_current = b ∧ next m ∧ m.get F.COLL_SAT_CELLS_cells = g.2 % 32768
        ∧ (m.get F.COLL_STATUS_in_use).testBit b = true
        ∧ FieldsBut [F.COLL_STATUS_state, F.COLL_EPOCH_epoch, F.COLL_SAT_CELLS_cells, F.COLL_STATUS_current, F.COLL_STATUS_in_use] g1 m
        ∧ { m with regs := s.regs } = { g1.pokeNat (s.wsAt b + 0x2C) 2 e with
            regs := s.regs
            coll := { s.coll with building := none, current := some b, inUse := setAdd s.coll.inUse b, sat := tabSet s.coll.sat b g.2 } }
        ∧ t.eventSet pgCOLL Ev.COLL_published = true
        ∧ FieldsBut (eventFields pgCOLL Ev.COLL_published ++ if g.2 = 0 then [] else eventFields pgCOLL Ev.COLL_saturated) f t
        ∧ t.eventSet pgCOLL Ev.COLL_saturated = (f.eventSet pgCOLL Ev.COLL_saturated || decide (0 < g.2))
        ∧ { t with regs := f.regs, flt := f.flt } = f))
  ∧ (∀ s : State,
    let idle := fun (b : Nat) => decide (s.coll.current ≠ some b) && !s.bufUsed b
    (s.coll.inUse.all (fun b => !idle b) = true → exec .retire s = .next s)
    ∧ (∀ b : Nat, s.coll.inUse.find? idle = some b →
      let u := ({ s with coll := { s.coll with inUse := setDel s.coll.inUse b } }).collShow
      exec .retire s = .next (if s.get F.COLL_RETIRE_FENCE_valid = 1 then u.fenceAdd (s.get F.COLL_RETIRE_FENCE_object) 1 else u)
        ∧ (b < 2 → (u.get F.COLL_STATUS_in_use).testBit b = false)
        ∧ FieldsBut [F.COLL_STATUS_current, F.COLL_STATUS_in_use] s u
        ∧ { u with regs := s.regs } = { s with coll := { s.coll with inUse := setDel s.coll.inUse b } }))
  ∧ (∀ (u : Fin 6) (s : State),
    (s.coll.waiting.find? (unitPort u.val) = none ∨ s.get F.COLL_CTRL_enable = 0 ∨ tabFind s.coll.running u.val ≠ none →
      exec (.reflexQuery u) s = .next s)
    ∧ (∀ p : Nat, s.coll.waiting.find? (unitPort u.val) = some p → s.get F.COLL_CTRL_enable = 1 → tabFind s.coll.running u.val = none →
      let a := s.rfxAt p
      let v := s.pokeNat a 4 (s.peekNat a 4 / 2 * 2)
      ∃ t, exec (.reflexQuery u) s = .next t ∧ t = { v.pokeNat (a + 0x180) 4 (v.peekNat (a + 0x180) 4 / 2 * 2) with
          coll := { s.coll with
            waiting := s.coll.waiting.erase p
            running := tabSet s.coll.running u.val ⟨p, s.get F.COLL_EPOCH_epoch, s.coll.current⟩ } }
        ∧ FieldsBut [] s t ∧ (s.spilled = [] → t.peekNat a 4 % 2 = 0 ∧ t.peekNat (a + 0x180) 4 % 2 = 0))
    ∧ (∀ ns : Nat,
      (tabFind s.coll.running u.val = none → exec (.reflexVerdict u ns) s = .next s)
      ∧ (∀ q : RfxRun, tabFind s.coll.running u.val = some q →
        let r := s.portCheck q
        let w := { s.poke (s.rfxAt q.port + 0x180) (r.bytes q.epoch (s.bytes (s.rfxAt q.port + 4) 4)) with
          coll := { s.coll with running := tabDel s.coll.running u.val } }
        ∃ t, exec (.reflexVerdict u ns) s = .next t
          ∧ t.get F.COLL_RFX_COUNT_count = (s.get F.COLL_RFX_COUNT_count + 1) % 2 ^ 32
          ∧ t.get F.COLL_RFX_HITS_count = (s.get F.COLL_RFX_HITS_count + if r.hit then 1 else 0) % 2 ^ 32
          ∧ t.get F.COLL_RFX_REFUSED_count = (s.get F.COLL_RFX_REFUSED_count + if r.refused then 1 else 0) % 2 ^ 32
          ∧ t.eventSet pgCOLL Ev.COLL_rfx_refused = (s.eventSet pgCOLL Ev.COLL_rfx_refused || r.refused)
          ∧ t.eventSet pgCOLL Ev.COLL_uncorrectable = (s.eventSet pgCOLL Ev.COLL_uncorrectable || r.poisoned)
          ∧ t.get F.COLL_RFX_MAX_NS_ns = max (s.get F.COLL_RFX_MAX_NS_ns) (min ns 65535)
          ∧ FieldsBut ([F.COLL_RFX_COUNT_count, F.COLL_RFX_HITS_count, F.COLL_RFX_REFUSED_count, F.COLL_RFX_MAX_NS_ns]
              ++ eventFields pgCOLL Ev.COLL_rfx_refused ++ eventFields pgCOLL Ev.COLL_uncorrectable) w t
          ∧ { t with regs := w.regs, flt := w.flt } = w)))

/-- R289, R291 to R304, R306, R307, R309, R310: PLAN. -/
def Obligations.Planning : Prop :=
  (∀ (acc : Acc) (s s2 : State) (w : Word), s.written pgPLAN 0x020 acc = some (s2, w) → ∀ c, c = .planEnable acc ∨ c = .planResume acc →
    let r := if w.getLsbD 1 && s2.get F.PLAN_STATUS_state == 3 then (s2.put F.PLAN_STATUS_state 0).planShow else s2
    let based := { r with plan := { s2.plan with base := s2.addr F.PLAN_SLOT_BASE_LO_base } }
    (w.getLsbD 0 = true → s2.get F.PLAN_CTRL_enable = 1 → exec c s = .next r)
    ∧ (w.getLsbD 0 = true → s2.get F.PLAN_CTRL_enable = 0 → s2.planBaseOk = true →
      exec c s = .next ((based.clearSlots.put F.PLAN_CTRL_enable 1).planShow)
      ∧ (s2.cond = [] → s2.spilled = [] → based.clearSlots = { based with
          mem := (List.range 128).foldl (fun m k => cellWrite m (based.planAt 0 0 + 0x1000 * k) (List.replicate 16 0#8)) s2.mem }))
    ∧ (w.getLsbD 0 = true → s2.get F.PLAN_CTRL_enable = 0 → s2.planBaseOk = false → ∃ t, exec c s = .next t
      ∧ t.get F.COLL_STATUS_cfg_err = 1 ∧ FieldsBut [F.COLL_STATUS_cfg_err] r t ∧ { t with regs := r.regs } = r)
    ∧ (w.getLsbD 0 = false → exec c s = .next ((r.put F.PLAN_CTRL_enable 0).planShow)))
  ∧ (∀ s : State,
    let t := s.planShow
    let n := s.plan.queries.length
    t.get F.PLAN_STATUS_state = (if s.get F.PLAN_STATUS_state = 3 then 3 else if s.get F.PLAN_CTRL_enable = 0 then 0 else if n = 0 then 1 else 2)
      ∧ t.get F.PLAN_STATUS_in_flight = min n 63
      ∧ t.get F.PLAN_STATUS_halves = (if s.planHalves.contains 0 then 1 else 0) + (if s.planHalves.contains 1 then 2 else 0)
      ∧ FieldsBut [F.PLAN_STATUS_state, F.PLAN_STATUS_halves, F.PLAN_STATUS_in_flight] s t ∧ { t with regs := s.regs } = s)
  ∧ (∀ (id : JobId) (s : State) (j : Job) (c : List Byte),
    let s0 := s.fetched j
    (s.commandAt id 5 2 = some (j, c) →
      (s.get F.PLAN_CTRL_enable = 0 ∨ s.planOpen j = true ∨ s.plan.loading ≠ none → exec (.load id) s = .next s0)
      ∧ (s.get F.PLAN_CTRL_enable = 1 → s.planOpen j = false → s.plan.loading = none →
        exec (.load id) s = .next { s0.modJob j.queue j.index (fun j => { j with busy := true }) with
          plan := { s.plan with loading := some (j.queue, j.index) } }))
    ∧ (∀ op, op ≠ 1 → op ≠ 2 → s.commandAt id 5 op = some (j, c) →
      (s.get F.PLAN_CTRL_enable = 0 → exec (.plan id) s = .next s0)
      ∧ (s.get F.PLAN_CTRL_enable = 1 → s.get F.PLAN_STATUS_state = 3 → exec (.plan id) s = .next (s0.planFail j 5))
      ∧ (s.get F.PLAN_CTRL_enable = 1 → s.get F.PLAN_STATUS_state ≠ 3 → op ≠ 3 ∨ s.planFieldsOk c = false →
        exec (.plan id) s = .next (s0.planFail j 4))
      ∧ (s.get F.PLAN_CTRL_enable = 1 → s.get F.PLAN_STATUS_state ≠ 3 → op = 3 → s.planFieldsOk c = true →
        let stops := s.planStopsOk (tabGet s.plan.maps (fieldAt c 2 1) 0) (fieldAt c 0x10 8) (fieldAt c 0x18 2)
        let n := (tabGet s.plan.numbers (fieldAt c 1 1) 0 + 1) % 2 ^ 32
        let q : PlanQ :=
          { queue := j.queue
            index := j.index
            cmd := j.cmd
            tile := j.plans
            slot := fieldAt c 1 1
            rm := fieldAt c 2 1
            number := n
            cost := fieldAt c 8 8
            stops := fieldAt c 0x10 8 }
        (stops = false → exec (.plan id) s = .next (s0.planFail j 3))
        ∧ (stops = true → exec (.plan id) s = .next ({ s0.modJob j.queue j.index (fun j => { j with cmd := j.cmd + 1, plans := j.plans + 1 }) with
            plan := { s.plan with
              numbers := tabSet s.plan.numbers (fieldAt c 1 1) n
              queries := s.plan.queries ++ [q] } }).planShow)))
    ∧ (∀ cause, cause < 16 →
      let t := s.planFail j cause
      t.get F.PLAN_ERR_cause = cause ∧ FieldsBut [F.PLAN_ERR_cause] s t
        ∧ t.jobs = ((s.modJob j.queue j.index fun k => { k.report 8 j.cmd 0 with cmd := max k.cmd k.listCount }).planJobCheck j.queue j.index).jobs
        ∧ { t with regs := s.regs, jobs := s.jobs } = s)
    ∧ (∀ k : Job, s.job j.queue j.index = some k →
      let ends := fun (k : Job) => s.planJobCheck j.queue j.index = s.setJob k
      (s.planOpen k = true ∨ k.stage ≠ .placed ∨ k.busy = true ∨ (k.cmd < k.listCount ∧ k.stopping = false) →
        s.planJobCheck j.queue j.index = s)
      ∧ (s.planOpen k = false → k.stage = .placed → k.busy = false →
        (k.listCount ≤ k.cmd → ends { k with stage := .ended })
        ∧ (k.cmd < k.listCount → k.stopping = true → ends (k.ended 0x0A 0)))))
  ∧ (∀ (id : JobId) (s : State),
    (∀ j : Job, s.jobOf id = some j → s.plan.loading ≠ some (j.queue, j.index) → exec (.roadmapCheck id) s = .next s)
    ∧ (s.jobOf id = none → exec (.roadmapCheck id) s = .next s)
    ∧ (∀ j : Job, s.jobOf id = some j → s.plan.loading = some (j.queue, j.index) →
      s.plainMem (j.program + 32 + listBytes j.cls * j.cmd) (listBytes j.cls) = true →
      let c := s.bytes (j.program + 32 + listBytes j.cls * j.cmd) (listBytes j.cls)
      let u := { s with plan := { s.plan with loading := none } }
      let sound := fieldAt c 1 1 < 2 ∧ (bytesAt c 2 6).all (· == 0#8) = true ∧ (c.drop 16).all (· == 0#8) = true
      (s.plan.queries.any (fun q => decide (q.rm = fieldAt c 1 1)) = true → exec (.roadmapCheck id) s = .next s)
      ∧ (s.plan.queries.any (fun q => decide (q.rm = fieldAt c 1 1)) = false →
        (¬sound → exec (.roadmapCheck id) s = .next (u.loadFail j 4 0 false))
        ∧ (∀ i, sound → s.rmFault (fieldAt c 8 8) = some i →
          exec (.roadmapCheck id) s = .next (u.loadFail j 1 i (s.poisonedAt (fieldAt c 8 8) 64)))
        ∧ (sound → s.rmFault (fieldAt c 8 8) = none → exec (.roadmapCheck id) s = .next ({ s with plan := { s.plan with
            loading := none
            maps := tabSet s.plan.maps (fieldAt c 1 1) (fieldAt c 8 8) } }.commandDone j.queue j.index none))))
    ∧ (∀ (j : Job) (cause index : Nat) (bad : Bool), cause < 16 →
      let t := (((s.put F.PLAN_ERR_cause cause).put F.PLAN_ERR_index index).raise pgPLAN Ev.PLAN_load_refused).raiseIf bad
        pgPLAN Ev.PLAN_uncorrectable
      s.loadFail j cause index bad = t.commandFailed j.queue j.index
        ∧ t.get F.PLAN_ERR_cause = cause ∧ t.get F.PLAN_ERR_index = index % 16384 ∧ t.eventSet pgPLAN Ev.PLAN_load_refused = true
        ∧ t.eventSet pgPLAN Ev.PLAN_uncorrectable = (s.eventSet pgPLAN Ev.PLAN_uncorrectable || bad)
        ∧ FieldsBut ([F.PLAN_ERR_cause, F.PLAN_ERR_index] ++ eventFields pgPLAN Ev.PLAN_load_refused
            ++ eventFields pgPLAN Ev.PLAN_uncorrectable) s t
        ∧ { t with regs := s.regs, flt := s.flt } = s))
  ∧ (∀ (slot : Fin 64) (ns : Nat) (s : State),
    let waiting := s.plan.queries.find? fun q => decide (q.phase = .waiting)
    let sweeping := s.plan.queries.find? fun q => decide (q.slot = slot.val ∧ q.phase = .sweeping)
    let free := [0, 1].filter fun h => !s.planHalves.contains h
    let timed := fun (u : State) => u.putMax F.PLAN_SWEEP_MAX_NS_ns ns
    (waiting.all (fun q => decide (q.slot ≠ slot.val)) = true → exec (.sweepStart slot) s = .next s)
    ∧ (∀ q : PlanQ, waiting = some q → q.slot = slot.val →
      let need := if 8192 < s.rmEdges (s.planMap q) then 2 else 1
      (free.length < need ∨ s.epochDue q 8 = false → exec (.sweepStart slot) s = .next s)
      ∧ (need ≤ free.length → s.epochDue q 8 = true → exec (.sweepStart slot) s = .next (s.setPlanQ { q with
          phase := .sweeping
          epoch := s.get F.COLL_EPOCH_epoch
          buf := s.coll.current
          budget := s.get F.PLAN_LEAF_BUDGET_leaves
          halves := free.take need }).planShow))
    ∧ (s.plan.tails.any (fun t => decide (t.1 = slot.val)) = true →
      exec (.sweepDone slot ns) s = .next (timed { s with plan := { s.plan with tails := dropTail slot.val s.plan.tails } }).planShow)
    ∧ (s.plan.tails.any (fun t => decide (t.1 = slot.val)) = false →
      (sweeping = none → exec (.sweepDone slot ns) s = .next s)
      ∧ (∀ q : PlanQ, sweeping = some q → exec (.sweepDone slot ns) s = .next (timed (s.setPlanQ { q with
          phase := .selecting
          edges := (List.range (s.rmEdges (s.planMap q))).map (s.sweepEdge q) })).planShow))
    ∧ (let t := timed s
      t.get F.PLAN_SWEEP_MAX_NS_ns = max (s.get F.PLAN_SWEEP_MAX_NS_ns) (min ns 65535) ∧ FieldsBut [F.PLAN_SWEEP_MAX_NS_ns] s t
        ∧ { t with regs := s.regs } = s))
  ∧ (∀ (slot : Fin 64) (bad : Bool) (s : State),
    let told : SelectorEnd := ⟨slot, bad⟩
    (s.planOldest slot.val = none →
      exec (.selectionDone told) s = .next s ∧ exec (.attemptDone told) s = .next s ∧ exec (.planDeadline slot) s = .next s)
    ∧ (∀ q : PlanQ, s.planOldest slot.val = some q →
      let due := s.replaying = false ∨ (s.planRecord q).any (fun b => fieldAt b 2 1 == 9 && fieldAt b 1 1 == q.epochs.length) = true
      (due → exec (.planDeadline slot) s = .next (s.planKept q .deadline))
      ∧ (¬due → exec (.planDeadline slot) s = .next s)
      ∧ (q.phase ≠ .selecting → exec (.selectionDone told) s = .next s)
      ∧ (q.phase ≠ .checking → exec (.attemptDone told) s = .next s)
      ∧ (q.phase = .selecting → bad = true → exec (.selectionDone told) s = .next s.planFault)
      ∧ (q.phase = .selecting → bad = false →
        let poisoned := s.poisonedAt q.cost (4 * q.edges.length)
        (poisoned = true → exec (.selectionDone told) s = .next ((s.put F.PLAN_ERR_cause 2).planKept q .poisoned))
        ∧ (poisoned = false → s.selectPaths q = [] → exec (.selectionDone told) s = .next (s.planKept q .noPath))
        ∧ (poisoned = false → s.selectPaths q ≠ [] →
          exec (.selectionDone told) s = .next (s.attemptStart { q with paths := s.selectPaths q })))
      ∧ (q.phase = .checking → q.attempt = none → exec (.attemptDone told) s = .next (s.attemptStart q))
      ∧ (∀ (e : Nat) (b : Option Nat), q.phase = .checking → q.attempt = some (e, b) →
        let rank := q.epochs.length
        let path := (q.path rank).2
        let q1 := { q with epochs := q.epochs ++ [e], attempt := none }
        let s1 := if rank = 0 then s else (s.count F.PLAN_FALLTHROUGH_count 1).raise pgPLAN Ev.PLAN_fallthrough
        let poisoned := s.poisonedAt (s.stopOf q path) 2048
        let pass := (s.attemptChecks q e b path).all Rfx.clear
        (bad = true → exec (.attemptDone told) s = .next s.planFault)
        ∧ (bad = false → poisoned = true → exec (.attemptDone told) s = .next (s1.planKept q1 .poisoned))
        ∧ (bad = false → poisoned = false → pass = true → exec (.attemptDone told) s
            = .next (s1.planFinish q1 .passed rank (planFlags .passed (e != q.epoch) true) (s.planValid q rank e b)))
        ∧ (bad = false → poisoned = false → pass = false → rank + 1 < q.paths.length →
            exec (.attemptDone told) s = .next ((s1.setPlanQ q1).attemptStart q1))
        ∧ (bad = false → poisoned = false → pass = false → q.paths.length ≤ rank + 1 →
            exec (.attemptDone told) s = .next (s1.planKept q1 .exhausted)))
      ∧ (s.attemptStart q = s.setPlanQ { q with
          phase := .checking
          attempt := if s.selectorFree && s.epochDue q (0x10 + 2 * q.epochs.length) then some (s.get F.COLL_EPOCH_epoch, s.coll.current)
            else none })
      ∧ (let t := (s.count F.PLAN_FALLTHROUGH_count 1).raise pgPLAN Ev.PLAN_fallthrough
        t.get F.PLAN_FALLTHROUGH_count = (s.get F.PLAN_FALLTHROUGH_count + 1) % 2 ^ 32 ∧ t.eventSet pgPLAN Ev.PLAN_fallthrough = true
          ∧ FieldsBut (F.PLAN_FALLTHROUGH_count :: eventFields pgPLAN Ev.PLAN_fallthrough) s t ∧ { t with regs := s.regs, flt := s.flt } = s)))
  ∧ (∀ s : State,
    let t := ((s.put F.PLAN_ERR_cause 5).put F.PLAN_STATUS_state 3).raise pgPLAN Ev.PLAN_block_fault
    s.planFault = s.plan.queries.foldl (fun u q => u.planKept q .poisoned) t
      ∧ t.get F.PLAN_ERR_cause = 5 ∧ t.get F.PLAN_STATUS_state = 3 ∧ t.eventSet pgPLAN Ev.PLAN_block_fault = true
      ∧ FieldsBut ([F.PLAN_ERR_cause, F.PLAN_STATUS_state] ++ eventFields pgPLAN Ev.PLAN_block_fault) s t
      ∧ { t with regs := s.regs, flt := s.flt } = s)
  ∧ (∀ (q : PlanQ) (how : PlanEnd) (outcome flags : Nat) (kept : List Byte) (s : State),
    let prev := tabFind s.plan.last q.slot
    (s.planKept q how = s.planFinish q how (if how = .deadline then 9 else if how = .poisoned then 10 else 8)
        (planFlags how false prev.isSome) (prev.getD (List.replicate (0x900 - 0xC) 0#8)))
    ∧ (s.plainStore (s.planAt q.slot q.number) 4096 = true →
      let w := (s.wrote (s.planAt q.slot q.number) (planResult flags q.number kept)).planCount flags
      let r := w.record 0x13 0 q.slot q.number 0 0 (planDecision q outcome)
      let d := r.planDrop fun x => x.is q.slot q.number
      let v := { d with plan := { d.plan with
        shown := tabSet s.plan.shown q.slot (q.number, flags)
        last := if how = PlanEnd.passed then tabSet s.plan.last q.slot kept else s.plan.last } }
      let told := (v.twinSend q.slot q.number flags (fieldAt kept 4 8)).planTell q.slot q.number flags (fieldAt kept 4 8)
        (if how = PlanEnd.passed then bytesAt kept (0x100 - 0xC) 2048 else [])
      (kept.length = 0x900 - 0xC → s.planFinish q how outcome flags kept = (told.planTile q how (fieldAt kept 4 8)).planShow)
      ∧ d.plan.queries = s.plan.queries.filter (fun x => !x.is q.slot q.number)
      ∧ d.plan.tails = s.plan.tails ++ (s.plan.queries.filter fun x => x.is q.slot q.number && decide (x.phase = .sweeping)).map (fun x =>
          (x.slot, x.halves, x.buf))
      ∧ { d with plan := r.plan } = r)
    ∧ (let t := s.planCount flags
      t.get F.PLAN_RESULTS_count = (s.get F.PLAN_RESULTS_count + 1) % 2 ^ 32
        ∧ t.get F.PLAN_KEPT_count = (s.get F.PLAN_KEPT_count + if flags.testBit 1 then 1 else 0) % 2 ^ 32
        ∧ (∀ p ∈ [(Ev.PLAN_kept, 1), (Ev.PLAN_epoch_advanced, 2), (Ev.PLAN_no_path, 3), (Ev.PLAN_uncorrectable, 5)],
            t.eventSet pgPLAN p.1 = (s.eventSet pgPLAN p.1 || flags.testBit p.2))
        ∧ FieldsBut ([F.PLAN_RESULTS_count, F.PLAN_KEPT_count] ++ eventFields pgPLAN Ev.PLAN_kept ++ eventFields pgPLAN Ev.PLAN_epoch_advanced
            ++ eventFields pgPLAN Ev.PLAN_no_path ++ eventFields pgPLAN Ev.PLAN_uncorrectable) s t
        ∧ { t with regs := s.regs, flt := s.flt } = s)
    ∧ (∀ (digest : Nat) (stop : List Byte),
      let routed := (s.get F.PLAN_ISLAND_LO_slots + 2 ^ 32 * s.get F.PLAN_ISLAND_HI_slots).testBit q.slot
      let m : PlanMsg := ⟨q.slot, q.number, flags, digest, stop, if s.twinPair && s.twinSlot q.slot then tabGet s.twin.index q.slot 0 else 0⟩
      (routed = false → s.planTell q.slot q.number flags digest stop = s)
      ∧ (routed = true → s.planTell q.slot q.number flags digest stop = { s with
          planMsgs := [0, 1].foldl (fun t i => tabSet t i (tabGet t i [] ++ [m])) s.planMsgs })
      ∧ (let tile := s.modJob q.queue q.index fun j =>
          if j.wantsDigest then { j with tiles := putTile ⟨0, q.tile, 0, 0, 0, digest64 (leBytes 8 digest)⟩ j.tiles } else j
        s.planTile q how digest = (if how = .poisoned then tile.modJob q.queue q.index fun k =>
            { k.report 4 q.cmd 0 with cmd := max k.cmd k.listCount } else tile).planJobCheck q.queue q.index)))

/-- R317, R319, R321 to R330, R337, R545, R553: JRN. -/
def Obligations.Journal : Prop :=
  (∀ (acc : Acc) (s s2 : State) (w : Word), s.written pgJRN 0x020 acc = some (s2, w) →
    ∀ c ∈ [Instr.record acc, .replay acc, .jrnOff acc, .segment acc, .jrnStop acc],
    let mode := F.JRN_CTRL_mode.ext w
    let old := s2.get F.JRN_CTRL_mode
    let ends := fun (m : State) =>
      let g := if w.getLsbD 4 && s2.recording && m.recording then m.segmentEnd.segmentStart else m
      exec c s = .next (if w.getLsbD 6 then g.replayStop 9 else g)
    (mode = 0 → old = 0 → ends s2)
    ∧ (mode = 0 → old ≠ 0 → s2.recording = true → ends ((s2.segmentEnd.put F.JRN_STATUS_state 0).put F.JRN_CTRL_mode 0))
    ∧ (mode = 0 → old ≠ 0 → s2.recording = false → ends ((s2.replayStop 9).put F.JRN_CTRL_mode 0))
    ∧ (mode ≠ 0 → old ≠ 0 ∨ 2 < mode → ends s2)
    ∧ (mode = 1 ∨ mode = 2 → old = 0 → s2.jrnCfgOk = false → ends (s2.put F.JRN_STATUS_stop_cause 6))
    ∧ (mode = 1 → old = 0 → s2.jrnCfgOk = true → ends (s2.closeHostData.put F.JRN_CTRL_mode 1).recordStart)
    ∧ (mode = 2 → old = 0 → s2.jrnCfgOk = true → ends (s2.closeHostData.put F.JRN_CTRL_mode 2).replayStart))
  ∧ (∀ s : State,
    (let t := (s.put F.JRN_STATUS_state 1).put F.JRN_STATUS_stop_cause 0;
      s.recordStart = t.segmentStart ∧ t.get F.JRN_STATUS_state = 1 ∧ t.get F.JRN_STATUS_stop_cause = 0
        ∧ FieldsBut [F.JRN_STATUS_state, F.JRN_STATUS_stop_cause] s t ∧ { t with regs := s.regs } = s)
    ∧ s.segmentStart = s.record 0x10 2 0 (s.jrnPos % 2 ^ 32) (s.jrnPos / 2 ^ 32) s.fuse.serial.toNat s.segmentPayload
    ∧ s.segmentPayload.length = 256 ∧ bytesAt s.segmentPayload 0xAC 64 = s.baseline
    ∧ s.segmentEnd = s.closeHostData.record 0x11 0 0 (s.closeHostData.jrnPos % 2 ^ 32) (s.closeHostData.jrnPos / 2 ^ 32) 0
    ∧ (let t := s.replayStart
      t.get F.JRN_STATUS_state = 2 ∧ t.get F.JRN_STATUS_stop_cause = 0 ∧ t.get F.ING_STATUS_replay = 1
        ∧ FieldsBut [F.JRN_STATUS_state, F.JRN_STATUS_stop_cause, F.ING_STATUS_replay] s t
        ∧ { t with regs := s.regs } = { s with jrn := { s.jrn with rptr := 0, expected := none, live := [], taken := [], firstTs := none } })
    ∧ (s.replaying = false → ∀ cause, s.replayStop cause = s)
    ∧ (∀ cause, cause < 16 →
      let idle := fun (t : State) => t.get F.FARM_STATUS_state = if s.get F.FARM_STATUS_state ≤ 4 then (if s.farm.fresh then 1 else 0)
        else s.get F.FARM_STATUS_state
      let over' := fun (t : State) (state cause event : Nat) => t.get F.JRN_STATUS_state = state ∧ t.get F.JRN_STATUS_stop_cause = cause
        ∧ t.get F.ING_STATUS_replay = 0 ∧ idle t ∧ t.eventSet pgJRN event = true
        ∧ FieldsBut ([F.JRN_STATUS_state, F.JRN_STATUS_stop_cause, F.ING_STATUS_replay, F.FARM_STATUS_state] ++ eventFields pgJRN event) s t
        ∧ { t with regs := s.regs, flt := s.flt } = s
      (s.replaying = true → over' (s.replayStop cause) 4 cause Ev.JRN_replay_stop) ∧ over' s.replayEnd 5 0 Ev.JRN_replay_end)
    ∧ (s.jrn.openData = none → s.closeHostData = s)
    ∧ exec .hostDataRecordClose s = .next s.closeHostData
    ∧ (∀ (n a : Nat) (bs : List Byte), s.jrn.openData = some (n, a, bs) →
      s.closeHostData = { s with jrn := { s.jrn with openData := none } }.publish 6 2 n bs.length 0 a bs)
    ∧ (s.replaying = false → exec .replayStall s = .next s)
    ∧ (s.replaying = true → ∃ t, exec .replayStall s = .next t ∧ t.eventSet pgJRN Ev.JRN_stall = true
        ∧ FieldsBut (eventFields pgJRN Ev.JRN_stall) s t ∧ { t with regs := s.regs, flt := s.flt } = s))
  ∧ (∀ (kind flags src aux0 aux1 aux2 : Nat) (payload : List Byte) (s : State),
    (s.jrnPos ≠ 0 → s.record kind flags src aux0 aux1 aux2 payload = s.stage (jrnRecord kind flags src (s.jrnPos - 1) aux0 aux1 aux2 payload))
    ∧ (s.jrnPos + 1 < 2 ^ 64 →
      let t := (s.put F.JRN_POS_LO_position (s.jrnPos + 1)).put F.JRN_POS_HI_position ((s.jrnPos + 1) / 2 ^ 32)
      s.publish kind flags src aux0 aux1 aux2 payload = t.stage (jrnRecord kind (flags ||| 1) src s.jrnPos aux0 aux1 aux2 payload)
        ∧ t.jrnPos = s.jrnPos + 1 ∧ FieldsBut [F.JRN_POS_LO_position, F.JRN_POS_HI_position] s t ∧ { t with regs := s.regs } = s))
  ∧ (∀ (r : List Byte) (rest : List (List Byte)) (s : State),
    let need := r.length + if s.jrn.missed = 0 then 0 else 32
    let fits := s.jrn.stagedBytes + need ≤ 1048576
    let dropped := fun (j : JrnSt) (t : State) => t.get F.JRN_DROPPED_count = (s.get F.JRN_DROPPED_count + 1) % 2 ^ 32
      ∧ t.get F.JRN_STATUS_gap = 1 ∧ t.eventSet pgJRN Ev.JRN_gap = true
      ∧ FieldsBut ([F.JRN_DROPPED_count, F.JRN_STATUS_gap] ++ eventFields pgJRN Ev.JRN_gap) s t
      ∧ { t with regs := s.regs, flt := s.flt } = { s with jrn := j }
    let overrun := fun (u t : State) => t.get F.JRN_STATUS_overrun = 1 ∧ t.eventSet pgJRN Ev.JRN_overrun = true
      ∧ FieldsBut (F.JRN_STATUS_overrun :: eventFields pgJRN Ev.JRN_overrun) u t ∧ { t with regs := u.regs, flt := u.flt } = u
    (s.recording = false → s.stage r = s)
    ∧ (s.recording = true → fits → s.stage r = s.stagePut r)
    ∧ (s.recording = true → ¬fits → s.get F.JRN_CTRL_wrap = 0 → dropped { s.jrn with
        missed := s.jrn.missed + 1
        missFirst := if s.jrn.missed = 0 then fieldAt r 8 8 else s.jrn.missFirst } (s.stage r))
    ∧ (s.recording = true → ¬fits → s.get F.JRN_CTRL_wrap = 1 →
      let t := (s.put F.JRN_STATUS_overrun 1).raise pgJRN Ev.JRN_overrun
      overrun s t ∧ s.stage r = (s.jrn.staged.foldl (fun u _ => u.journalWrite) t).stagePut r)
    ∧ s.stagePut r = { s with jrn := { s.jrn with
        staged := s.jrn.staged ++ (if s.jrn.missed = 0 then [] else [gapRecord s.jrn.missed s.jrn.missFirst r]) ++ [r]
        missed := 0 } }
    ∧ exec .journalWrite s = .next s.journalWrite
    ∧ (s.jrn.staged = [] → s.journalWrite = s)
    ∧ (s.jrn.staged = r :: rest → s.journalWrite = { s with jrn := { s.jrn with staged := rest } }.ringRecord r)
    ∧ (let units := r.length / 32 + if s.jrn.lost = 0 then 0 else 1
      let room := units ≤ s.ringUnits - 1 - s.ringUsed
      let put := fun (u : State) => (if u.jrn.lost = 0 then u else { u.ringPut (gapRecord u.jrn.lost u.jrn.lostFirst r) with
        jrn := { u.jrn with lost := 0 } }).ringPut r
      let made := s.exportUntil units s.ringUnits
      let t := (made.put F.JRN_STATUS_overrun 1).raise pgJRN Ev.JRN_overrun
      (room → s.ringRecord r = put s)
      ∧ (¬room → s.get F.JRN_CTRL_wrap = 1 → s.ringRecord r = put t ∧ overrun made t ∧ FieldsBut [F.JRN_EXPORT_offset] s made
        ∧ { made with regs := s.regs } = s)
      ∧ (¬room → s.get F.JRN_CTRL_wrap = 0 → fieldAt r 0 1 ≠ 0x16 → dropped { s.jrn with
          lost := s.jrn.lost + 1
          lostFirst := if s.jrn.lost = 0 then fieldAt r 8 8 else s.jrn.lostFirst } (s.ringRecord r)))
    ∧ (r.length % 32 = 0 → s.get F.JRN_WRITE_offset + r.length / 32 < min s.ringUnits (2 ^ 32) → s.spilled = [] → s.cond = [] →
      let t := s.ringPut r
      t.mem = cellWrite s.mem (s.addr F.JRN_BASE_LO_base + 32 * s.get F.JRN_WRITE_offset) r
        ∧ t.get F.JRN_WRITE_offset = s.get F.JRN_WRITE_offset + r.length / 32
        ∧ FieldsBut [F.JRN_WRITE_offset] s t ∧ { t with regs := s.regs, mem := s.mem } = s))
  ∧ (∀ s : State,
    let r := s.jrnAt 0
    let poisoned := s.ringPoisoned 0 (min r.units s.ringUnits)
    let formed := r.kind = 0x10 ∧ r.payload.length = 256
    let arith := F.GEN_FW_REV_arith_rev.ext (BitVec.ofNat 32 (fieldAt r.payload 8 4)) = s.get F.GEN_FW_REV_arith_rev
    let base := bytesAt r.payload 0xAC 64 = s.baseline
    let answers := fun (t : State) => exec .headerCheckDone s = .next t
    (s.get F.JRN_STATUS_state ≠ 2 → answers s)
    ∧ (s.get F.JRN_STATUS_state = 2 → poisoned = true → answers ((s.replayStop 7).raise pgJRN Ev.JRN_uncorrectable))
    ∧ (s.get F.JRN_STATUS_state = 2 → poisoned = false →
      (¬formed → answers (s.replayStop 6)) ∧ (formed → ¬arith → answers (s.replayStop 1)) ∧ (formed → arith → ¬base → answers (s.replayStop 2))
      ∧ (formed → arith → base →
        let u := (((s.put F.JRN_STATUS_state 3).put F.FARM_STATUS_state 2).put F.FARM_PROG_RECORDS_count 0).put F.FARM_PROG_JOBS_count 0
        let t := { u with
          jrn := { s.jrn with rptr := 9, expected := some (r.aux0 + 2 ^ 32 * r.aux1), startUs := s.hubUs }
          farm := { s.farm with startUs := s.hubUs, began := true, toldSlow := false } }
        answers t ∧ t.get F.JRN_STATUS_state = 3 ∧ t.get F.FARM_STATUS_state = 2 ∧ t.get F.FARM_PROG_RECORDS_count = 0
          ∧ t.get F.FARM_PROG_JOBS_count = 0 ∧ { t with regs := s.regs, jrn := s.jrn, farm := s.farm } = s
          ∧ FieldsBut [F.JRN_STATUS_state, F.FARM_STATUS_state, F.FARM_PROG_RECORDS_count, F.FARM_PROG_JOBS_count] s t)))
  ∧ (∀ s : State,
    let r := s.jrnAt s.jrn.rptr
    let running := s.get F.JRN_STATUS_state = 3 ∧ s.jrn.rptr < s.get F.JRN_EXPORT_offset
    let read := running ∧ s.ringPoisoned s.jrn.rptr (min r.units s.ringUnits) = false
    let whole := r.formed = true ∧ s.jrn.rptr + r.units ≤ s.get F.JRN_EXPORT_offset
    let sound := read ∧ whole ∧ r.digestOk = true
    let due := sound ∧ r.flags.testBit 0 = true ∧ s.jrn.expected = some r.position ∧ s.beyond r.position = false
    let taken := s.replayTake.putPos (r.position + 1)
    let skipped := { s with jrn := { s.jrn with rptr := s.jrn.rptr + r.units } }
    let answers := fun (t : State) => exec .replayApply s = .next t
    (s.get F.JRN_STATUS_state ≠ 3 → answers s)
    ∧ (s.get F.JRN_STATUS_state = 3 → s.get F.JRN_EXPORT_offset ≤ s.jrn.rptr → answers s.replayEnd)
    ∧ (running → s.ringPoisoned s.jrn.rptr (min r.units s.ringUnits) = true → answers ((s.replayStop 7).raise pgJRN Ev.JRN_uncorrectable))
    ∧ (read → ¬whole → answers (s.replayStop 6))
    ∧ (read → whole → r.digestOk = false → answers (s.replayStop 3))
    ∧ (sound → r.flags.testBit 0 = true → s.jrn.expected ≠ some r.position → answers (s.replayStop 6))
    ∧ (sound → r.flags.testBit 0 = true → s.jrn.expected = some r.position → s.beyond r.position = true → answers s.farmHold)
    ∧ (due →
      (r.kind = 1 → answers (s.replayItem r))
      ∧ (r.kind = 2 ∨ r.kind = 3 → answers (if (s.queue r.src).hasRoom then s.replayIngress r 0 [] else s))
      ∧ (r.kind = 4 → answers (s.replayDoorbell r))
      ∧ (r.kind = 5 → answers (taken.fenceAdd (r.src % 4096) r.aux0))
      ∧ (r.kind = 6 → answers (taken.store r.aux2 r.payload))
      ∧ (r.kind = 9 → answers (taken.twinTake ⟨r.src % 64, (tabFind s.twin.taken (r.src % 64)).elim 1 (·.1 + 1), r.aux0, 0, r.aux2, false⟩))
      ∧ (r.kind = 10 → answers (taken.fusRecord (timeoutRecord r.src r.aux0)))
      ∧ (r.kind = 8 ∨ r.kind = 11 ∨ r.kind = 12 → answers s))
    ∧ (sound → r.flags.testBit 0 = false →
      (r.kind = 0x10 → answers (s.replayStop 6)) ∧ (r.kind = 0x16 → answers (s.replayStop 5)) ∧ (r.kind = 0x11 → answers skipped.replayEnd)
      ∧ (r.kind ∈ [7, 0x12, 0x13, 0x15] → answers skipped.farmHold)
      ∧ (r.kind = 0x14 → answers (skipped.detAdd ⟨r.src + 65536 * (r.aux1 % 16), r.aux0, BitVec.ofNat 64 r.aux2, r.flags.testBit 3,
          (List.range (r.payload.length / 16)).map fun k =>
            let b := bytesAt r.payload (16 * k) 16
            ⟨fieldAt b 0 2, fieldAt b 2 2, fieldAt b 4 1, fieldAt b 5 1 % 4, fieldAt b 5 1 / 4, BitVec.ofNat 64 (fieldAt b 8 8)⟩,
          r.flags.testBit 5⟩ false)))
    ∧ (let t := s.replayTake
      t.get F.JRN_POS_LO_position = r.position % 2 ^ 32 ∧ t.get F.JRN_POS_HI_position = r.position / 2 ^ 32 % 2 ^ 32
        ∧ t.get F.JRN_REPLAY_POS_LO_position = r.position % 2 ^ 32 ∧ t.get F.JRN_REPLAY_POS_HI_position = r.position / 2 ^ 32 % 2 ^ 32
        ∧ t.get F.FARM_PROG_RECORDS_count = (s.get F.FARM_PROG_RECORDS_count + 1) % 2 ^ 32
        ∧ t.get F.FARM_STATUS_state = (if s.get F.FARM_STATUS_state = 2 ∧ s.beyond (r.position + 1) = true then 3 else s.get F.FARM_STATUS_state)
        ∧ FieldsBut [F.JRN_POS_LO_position, F.JRN_POS_HI_position, F.JRN_REPLAY_POS_LO_position, F.JRN_REPLAY_POS_HI_position,
            F.FARM_PROG_RECORDS_count, F.FARM_STATUS_state] s t
        ∧ { t with regs := s.regs } = { s with jrn := { s.jrn with rptr := s.jrn.rptr + r.units, expected := some (r.position + 1) } })
    ∧ (let t := s.farmHold
      t.get F.FARM_STATUS_state = (if s.get F.FARM_STATUS_state = 2 ∧ s.jrn.expected.any s.beyond = true then 3 else s.get F.FARM_STATUS_state)
        ∧ FieldsBut [F.FARM_STATUS_state] s t ∧ { t with regs := s.regs } = s)
    ∧ (let turn := s.replayTurn fun r => decide (r.kind = 8)
      let key := r.src * 4096 + r.aux0
      let waits := s.get F.JRN_CTRL_domain = 1 ∧ tabGet s.jrn.live key 0 ≤ tabGet s.jrn.taken key 0
      (turn = false ∨ waits → exec .replayRemoteSignal s = .next s)
      ∧ (turn = true → ¬waits → ∃ t, exec .replayRemoteSignal s = .next t
        ∧ t.jrn = { taken.jrn with taken := tabSet s.jrn.taken key (tabGet s.jrn.taken key 0 + 1) }
        ∧ { t with jrn := taken.jrn } = taken.fenceAdd (r.aux0 % 4096) r.aux1)))
  ∧ (∀ (r : JRec) (off : Nat) (data : List Byte) (s : State),
    let s0 := if s.jrn.firstTs.isSome ∨ r.aux2 = 2 ^ 64 - 1 then s else { s with jrn := { s.jrn with firstTs := some r.aux2 } }
    let waits := s0.paceOk r.aux2 = false ∨ (s0.queue r.src).hasRoom = false
    (r.data = none → s.replayItem r = s.replayStop 4)
    ∧ (r.data = some data → waits ∨ s0.placeData r.src data.length = none → s.replayItem r = s0)
    ∧ (∀ s1, r.data = some data → ¬waits → s0.placeData r.src data.length = some (off, s1) → s.replayItem r = s1.replayIngress r off data)
    ∧ (let i := r.ingress off data
      let c := (s.replayTake.putPos r.position).commitRecord r.src i
      s.replayIngress r off data = c.setStream r.src { c.stream r.src with
        seq := (r.aux0 + (if r.kind = 3 then i.len else 1)) % 2 ^ 32
        scoreC := if r.kind = 2 then .of (i.len % 256) else (c.stream r.src).scoreC
        cause := if r.kind = 2 then i.len / 256 % 256 else (c.stream r.src).cause }))
  ∧ (∀ (e r : DetEnt) (run : Bool) (s : State),
    let on := s.get F.DET_CTRL_compare = 1 ∧ s.get F.JRN_CTRL_mode = 2 ∧ s.get F.DET_STATUS_state ≠ 3
    let others := if run then s.det.recorded else s.det.replayed
    let mine := if run then s.det.replayed else s.det.recorded
    let rest := others.filter (fun x => !e.same x)
    let kept := if run then { s.det with replayed := mine ++ [e] } else { s.det with recorded := mine ++ [e] }
    let paired := if run then { s with det := { s.det with recorded := rest } }.detPair e r
      else { s with det := { s.det with replayed := rest } }.detPair r e
    (¬on → s.detAdd e run = s)
    ∧ (on → others.find? e.same = some r → s.detAdd e run = paired)
    ∧ (on → others.find? e.same = none → mine.length < 4096 → s.detAdd e run = { s with det := kept })
    ∧ (on → others.find? e.same = none → 4096 ≤ mine.length → s.detAdd e run = (s.put F.DET_STATUS_state 3).raise pgDET Ev.DET_overflow)
    ∧ (e.same r = true ↔ e.queue = r.queue ∧ e.index = r.index))
  ∧ (∀ (run rec : DetEnt) (s : State),
    let marked := run.nonrepro = true ∨ rec.nonrepro = true
    let ran := if rec.cut then run.tiles.take 4096 else run.tiles
    let known := ran ≠ [] ∧ rec.tiles ≠ []
    let d := if known then firstDiff ran rec.tiles else (none, none)
    let told := (s.put F.DET_STATUS_state 2).raise pgDET Ev.DET_mismatch
    let held := if s.get F.DET_STATUS_state ≠ 2 ∧ s.get F.DET_CTRL_halt = 1 then told.replayStop 0xA else told
    let logged := held.det.log ++ [⟨run.queue, run.index, rec.digest, run.digest, d.1, d.2, decide known⟩]
    let kept := { held with det := { held.det with log := logged } }
    (marked → s.detPair run rec = s.count F.DET_SKIPPED_count 1)
    ∧ (¬marked → run.digest = rec.digest → s.detPair run rec = s.count F.DET_COMPARED_count 1)
    ∧ (¬marked → run.digest ≠ rec.digest → held.det.log.length < 16 → s.detPair run rec = kept.put F.DET_STATUS_log_count logged.length)
    ∧ (¬marked → run.digest ≠ rec.digest → 16 ≤ held.det.log.length → s.detPair run rec = held))
  ∧ (∀ run rec : List TileEnt,
    let dig := fun (l : List TileEnt) (u : TileEnt) => (tileFind l u.slot u.tile).map (·.digest)
    let d := firstDiff run rec
    (d = (none, none) ↔ (∀ u ∈ run, dig rec u = some u.digest) ∧ ∀ u ∈ rec, (dig run u).isSome = true)
    ∧ (∀ t, d.1.or d.2 = some t → d = (tileFind run t.slot t.tile, tileFind rec t.slot t.tile)
      ∧ ∀ u ∈ run ++ rec, u.slot < t.slot ∨ (u.slot = t.slot ∧ u.tile < t.tile) → dig run u = dig rec u))
  ∧ (∀ (l : DetLog) (s : State), s.det.log[s.get F.DET_LOG_SEL_entry]? = some l →
    let arr := fun (e : Option TileEnt) => e.elim 0 fun t => t.logical + 256 * t.die + 1024 * t.phys
    let there := (l.replayed.or l.recorded).elim 0 fun t => t.slot % 128 + 256 * (t.tile % 4096)
    s.detView 0x044 = some (BitVec.ofNat 32 (l.queue + 2 ^ 31)) ∧ s.detView 0x048 = some (BitVec.ofNat 32 l.index)
    ∧ s.detView 0x04C = some (BitVec.ofNat 32 ((if l.known then 2 ^ 20 else 0) + there))
    ∧ s.detView 0x050 = some (BitVec.ofNat 32 (arr l.replayed + 65536 * arr l.recorded))
    ∧ s.detView 0x054 = some (l.recDigest.setWidth 32) ∧ s.detView 0x058 = some ((l.recDigest >>> 32).setWidth 32)
    ∧ s.detView 0x05C = some (l.runDigest.setWidth 32) ∧ s.detView 0x060 = some ((l.runDigest >>> 32).setWidth 32))

/-- R339 to R346, R356, R362 to R364, R366: QENG, FENCE and DMA. -/
def Obligations.Queues : Prop :=
  (∀ (acc : Acc) (s s2 : State) (w : Word), s.written pgQENG 0x020 acc = some (s2, w) →
    let ok := s2.inDram (s2.addr F.QENG_STATE_BASE_LO_base) 67108864
    let answers := fun (t : State) => exec (.qengEnable acc) s = .next t
    (w.getLsbD 0 = true → s2.get F.QENG_CTRL_enable = 1 → answers s2)
    ∧ (w.getLsbD 0 = true → s2.get F.QENG_CTRL_enable = 0 → ok = true →
      let t := (s2.put F.QENG_CTRL_enable 1).put F.QENG_STATUS_state 1
      answers t ∧ t.get F.QENG_CTRL_enable = 1 ∧ t.get F.QENG_STATUS_state = 1
        ∧ FieldsBut [F.QENG_CTRL_enable, F.QENG_STATUS_state] s2 t ∧ { t with regs := s2.regs } = s2)
    ∧ (w.getLsbD 0 = true → s2.get F.QENG_CTRL_enable = 0 → ok = false →
      let t := (s2.put F.QENG_STATUS_cfg_err 1).raise pgQENG Ev.QENG_cfg_err
      answers t ∧ t.get F.QENG_STATUS_cfg_err = 1 ∧ t.eventSet pgQENG Ev.QENG_cfg_err = true
        ∧ FieldsBut (F.QENG_STATUS_cfg_err :: eventFields pgQENG Ev.QENG_cfg_err) s2 t ∧ { t with regs := s2.regs, flt := s2.flt } = s2)
    ∧ (w.getLsbD 0 = false →
      let t := (s2.put F.QENG_CTRL_enable 0).put F.QENG_STATUS_state 0
      answers t ∧ t.get F.QENG_CTRL_enable = 0 ∧ t.get F.QENG_STATUS_state = 0
        ∧ FieldsBut [F.QENG_CTRL_enable, F.QENG_STATUS_state] s2 t ∧ { t with regs := s2.regs } = s2))
  ∧ (∀ (acc : Acc) (s s2 : State) (w : Word), s.written pgQENG 0x028 acc = some (s2, w) →
    let q := F.QENG_Q_CMD_queue.ext w
    let op := F.QENG_Q_CMD_op.ext w
    let v := s2.queue q
    let r := s2.load (s2.queueAddr q) 64
    let b := r.2.1
    let fresh' := { r.1.setQueue q (queueOf b) with farm := { r.1.farm with fresh := false } }
    (∀ k c, (k, c) ∈ [(1, Instr.qEnable acc), (2, .qDisable acc), (3, .resetIndices acc)] →
      (w.getLsbD 31 = false ∨ op ≠ k → exec c s = .next s2)
      ∧ (w.getLsbD 31 = true → op = k → queueKind q = 0 → exec c s = .next (s2.queueResult 3))
      ∧ (w.getLsbD 31 = true → op = k → queueKind q ≠ 0 → k ≠ 2 → v.enabled = true ∨ v.disabling = true → exec c s = .next (s2.queueResult 4)))
    ∧ (w.getLsbD 31 = true → op = 1 → queueKind q ≠ 0 → v.enabled = false → v.disabling = false →
      (v.faulted = true → exec (.qEnable acc) s = .next (s2.queueResult 1))
      ∧ (v.faulted = false → r.2.2 = true → exec (.qEnable acc) s = .next ((r.1.queueFault q).queueResult 1))
      ∧ (v.faulted = false → r.2.2 = false → r.1.enableCause q b ≠ 0 → exec (.qEnable acc) s = .next (r.1.queueResult (r.1.enableCause q b)))
      ∧ (v.faulted = false → r.2.2 = false → r.1.enableCause q b = 0 → exec (.qEnable acc) s = .next
          ((if s2.get F.FARM_STATUS_state = 1 then fresh'.put F.FARM_STATUS_state 0 else fresh').queueResult 0)))
    ∧ (w.getLsbD 31 = true → op = 2 → queueKind q ≠ 0 →
      (v.enabled = true → exec (.qDisable acc) s
        = .next (((s2.setQueue q { v with enabled := false, disabling := true }).queueResult 0).put F.QENG_Q_RESULT_busy 1))
      ∧ (v.enabled = false → exec (.qDisable acc) s = .next (s2.queueResult 0)))
    ∧ (w.getLsbD 31 = true → op = 3 → queueKind q ≠ 0 → v.enabled = false → v.disabling = false →
      exec (.resetIndices acc) s = .next (((s2.store (s2.queueAddr q + 0x10) (leBytes 16 0)).setQueue q {}).queueResult 0)))
  ∧ (∀ (q : Nat) (v : QSt) (b : List Byte) (s : State),
    let t := s.setQueue q v
    let f := s.queueFault q
    let fits := v.kind = queueKind q ∧ 4 ≤ v.sizeLog2 ∧ v.sizeLog2 ≤ 16 ∧ v.flags < 8 ∧ (∀ k < 5, fieldAt b (0xB + k) 1 = 0)
      ∧ (∀ k < 32, fieldAt b (0x20 + k) 1 = 0) ∧ v.ring % (2 ^ v.sizeLog2 * if queueKind q = 1 then 64 else 32) = 0 ∧ v.ring % 4096 = 0
      ∧ v.used ≤ 2 ^ v.sizeLog2
    let held := s.inDramHub v.ring (2 ^ v.sizeLog2 * if queueKind q = 1 then 64 else 32)
    (t.queues = tabSet s.queues q v ∧ { t with queues := s.queues, qPend := s.qPend, qSumm := s.qSumm } = s
      ∧ (queueKind q ≠ 1 → t.qPend = s.qPend ∧ t.qSumm = s.qSumm)
      ∧ (queueKind q = 1 → (q ∈ t.qPend ↔ v.enabled = true ∧ v.producer ≠ v.consumer) ∧ (∀ p, p ≠ q → (p ∈ t.qPend ↔ p ∈ s.qPend))
        ∧ (q / 32 ∈ t.qSumm ↔ ∃ p ∈ t.qPend, p / 32 = q / 32) ∧ ∀ k, k ≠ q / 32 → (k ∈ t.qSumm ↔ k ∈ s.qSumm)))
    ∧ (let m := s.setQueue q { s.queue q with faulted := true, cause := 1 }
      f.queues = m.queues ∧ f.eventSet pgQENG Ev.QENG_queue_fault = true ∧ FieldsBut (eventFields pgQENG Ev.QENG_queue_fault) s f
        ∧ { f with regs := s.regs, flt := s.flt } = m)
    ∧ (v = queueOf b → s.enableCause q b = if ¬fits then 1 else if held = false then 2 else 0)
    ∧ (let v := queueOf b
      v.enabled = true ∧ v.ring = fieldAt b 0 8 ∧ v.sizeLog2 = fieldAt b 8 1 ∧ v.kind = fieldAt b 9 1 ∧ v.flags = fieldAt b 0xA 1
        ∧ v.producer = fieldAt b 0x10 4 ∧ v.consumer = fieldAt b 0x14 4 ∧ v.inFlight = fieldAt b 0x18 4
        ∧ v.faulted = decide (2 ^ 31 ≤ fieldAt b 0x1C 4) ∧ v.cause = fieldAt b 0x1C 4 % 16 ∧ v.disabling = false ∧ v.lost = false)
    ∧ (∀ c < 16, let t := s.queueResult c
      t.get F.QENG_Q_RESULT_busy = 0 ∧ t.get F.QENG_Q_RESULT_refused = (if c = 0 then 0 else 1) ∧ t.get F.QENG_Q_RESULT_cause = c
        ∧ FieldsBut [F.QENG_Q_RESULT_busy, F.QENG_Q_RESULT_refused, F.QENG_Q_RESULT_cause] s t ∧ { t with regs := s.regs } = s)
    ∧ s.queueAddr q = s.addr F.QENG_STATE_BASE_LO_base + 64 * q)
  ∧ (∀ (q : BitVec 20) (s : State),
    let v := s.queue q.toNat
    let due := v.disabling = true ∧ v.inFlight = 0
    (¬due → exec (.qWriteback q) s = .next s)
    ∧ (due → exec (.qWriteback q) s = .next (((s.store (s.queueAddr q.toNat + 0x10)
        (leBytes 4 v.producer ++ leBytes 4 v.consumer ++ leBytes 4 0 ++ leBytes 4 (v.cause + if v.faulted then 2 ^ 31 else 0))).setQueue q.toNat
          { v with disabling := false }).put F.QENG_Q_RESULT_busy 0)))
  ∧ (∀ (q : BitVec 20) (be : BitVec 4) (index : Word) (poisoned : Bool) (s : State),
    let answers := fun (t : State) => exec (.doorbell q be (some index) poisoned) s = .next t
    (s.hubOff = true → answers s ∧ exec (.doorbell q be none poisoned) s = .next s)
    ∧ (s.hubOff = false →
      exec (.doorbell q be none poisoned) s = .next { s with out := s.out ++ [⟨.bar4Completion, [q.toNat], leBytes 4 (s.doorbellIndex q.toNat)⟩] }
      ∧ (poisoned = true → answers s.poisonedIn)
      ∧ (poisoned = false → be ≠ 0xF#4 → answers s)
      ∧ (poisoned = false → be = 0xF#4 → s.replaying = true → 0x400 ≤ q.toNat →
        let t := s.put F.JRN_IGNORED_count ((s.get F.JRN_IGNORED_count + 1) % 2 ^ 32)
        answers t ∧ t.get F.JRN_IGNORED_count = (s.get F.JRN_IGNORED_count + 1) % 2 ^ 32
          ∧ FieldsBut [F.JRN_IGNORED_count] s t ∧ { t with regs := s.regs } = s)
      ∧ (poisoned = false → be = 0xF#4 → s.replaying = false ∨ q.toNat < 0x400 → answers (s.closeHostData.doorbell q.toNat index.toNat true))))
  ∧ (∀ (n index : Nat) (host : Bool) (s : State),
    let v := s.queue n
    let cur := if queueKind n = 1 then v.producer else v.consumer
    let dist := (index + 2 ^ 32 - cur) % 2 ^ 32
    let dead := queueKind n = 0 ∨ v.enabled = false ∨ v.faulted = true ∨ (host = true ∧ v.kind = 1 ∧ n < 0x400)
    let far := 2 ^ 31 < dist ∨ (dist ≠ 0 ∧ if queueKind n = 1 then v.size < v.used + dist else v.used < dist)
    let told := s.publish 4 2 (n % 65536) index (n / 65536) 0 (s.newDescriptors n v.producer dist)
    let counted := fun (f : Fld) =>
      let t := s.doorbell n index host
      t.get f = min (s.get f + 1) 65535 ∧ t.eventSet pgQENG Ev.QENG_doorbell_err = true
        ∧ FieldsBut (f :: eventFields pgQENG Ev.QENG_doorbell_err) s t ∧ { t with regs := s.regs, flt := s.flt } = s
    s.doorbellIndex n = cur
    ∧ (dead → counted F.QENG_DB_ERR_ignored)
    ∧ (¬dead → far → counted F.QENG_DB_ERR_bad_index)
    ∧ (¬dead → ¬far → dist = 0 → s.doorbell n index host = s)
    ∧ (¬dead → ¬far → dist ≠ 0 → queueKind n = 1 →
      s.doorbell n index host = (if host then told else s).setQueue n { v with producer := index })
    ∧ (¬dead → ¬far → dist ≠ 0 → queueKind n ≠ 1 → s.doorbell n index host = { s with queues := tabSet s.queues n { v with consumer := index } }))
  ∧ (∀ (acc : Acc) (s s2 : State) (w : Word), s.written pgFENCE 0x020 acc = some (s2, w) →
    let n := F.FENCE_INC_inc.ext w
    let o := F.FENCE_INC_object.ext w
    (n = 0 ∨ acc.req = .xs → exec (.fenceInc acc) s = .next s2)
    ∧ (n ≠ 0 → acc.req ≠ .xs → s2.replaying = false →
      exec (.fenceInc acc) s = .next ((s2.publish 5 0 o n (if acc.req = .mgmt then 1 else 0) 0).fenceAdd o n))
    ∧ (n ≠ 0 → acc.req ≠ .xs → s2.replaying = true →
      let t := s2.put F.JRN_IGNORED_count ((s2.get F.JRN_IGNORED_count + 1) % 2 ^ 32)
      exec (.fenceInc acc) s = .next t ∧ t.get F.JRN_IGNORED_count = (s2.get F.JRN_IGNORED_count + 1) % 2 ^ 32
        ∧ FieldsBut [F.JRN_IGNORED_count] s2 t ∧ { t with regs := s2.regs } = s2))
  ∧ (∀ (o n : Nat) (s : State),
    let t := s.fenceAdd o n
    (s.fence o + n < 2 ^ 64 → t = { s with fences := tabSet s.fences o (s.fence o + n) })
    ∧ (2 ^ 64 ≤ s.fence o + n → o < 4096 →
      t.fences = tabSet s.fences o (2 ^ 64 - 1) ∧ t.get F.FENCE_ERR_object = o ∧ t.get F.FENCE_ERR_any = 1
        ∧ t.eventSet pgFENCE Ev.FENCE_overflow = true
        ∧ FieldsBut ([F.FENCE_ERR_object, F.FENCE_ERR_any] ++ eventFields pgFENCE Ev.FENCE_overflow) s t
        ∧ { t with regs := s.regs, fences := s.fences, flt := s.flt } = s))
  ∧ (∀ (acc : Acc) (s s2 : State) (w : Word), s.written pgFENCE 0x108 acc = some (s2, w) →
    let o := F.FENCE_SET_CMD_object.ext w
    let v := s2.addr F.FENCE_SET_LO_value
    let ok := s2.get F.JRN_CTRL_mode = 0 ∧ (s2.fence o ≤ v ∨ s2.fenceWaited o = false)
    (w.getLsbD 31 = false → exec (.fenceSet acc) s = .next s2)
    ∧ (w.getLsbD 31 = true → ok → exec (.fenceSet acc) s = .next { s2 with fences := tabSet s2.fences o v })
    ∧ (w.getLsbD 31 = true → ¬ok → ∃ t, exec (.fenceSet acc) s = .next t ∧ t.eventSet pgFENCE Ev.FENCE_set_refused = true
        ∧ FieldsBut (eventFields pgFENCE Ev.FENCE_set_refused) s2 t ∧ { t with regs := s2.regs, flt := s2.flt } = s2)
    ∧ (s2.fenceWaited o = true ↔
      (∃ j ∈ s2.jobs, j.stage = .waiting ∧ ∃ k < 2, (j.wait k).testBit 15 = true ∧ j.wait k % 4096 = o ∧ s2.fence o < j.waitValue k)
      ∨ ∃ a ∈ s2.arrs, (match a.2.wait with | .obj x _ => x == o | .barP x _ => x == o | _ => false) = true))
  ∧ (∀ (id : JobId) (s : State) (j : Job) (b : List Byte),
    let s0 := s.fetched j
    let op := fieldAt b 0 1
    let side := fieldAt b 1 1
    let src := fieldAt b 8 8
    let dst := fieldAt b 0x10 8
    let n := fieldAt b 0x18 8
    let c := if op = 2 then Instr.fill id else .copy id
    let ok := (op = 1 ∨ op = 2) ∧ side < 4 ∧ fieldAt b 2 2 = 0 ∧ 32 ≤ n ∧ n ≤ 2 ^ 36 ∧ n % 32 = 0 ∧ src % 32 = 0 ∧ dst % 32 = 0
      ∧ (op = 1 → side % 2 = 0 → touchesRedBuf src n = false) ∧ (side / 2 % 2 = 0 → touchesRedBuf dst n = false)
    let r := s0.dmaLoad src n
    s.commandAt id 7 op = some (j, b) →
    (¬ok → exec c s = .next (s0.commandFailed j.queue j.index))
    ∧ (ok → op = 2 → exec c s = .next (s0.dmaPut j (side.testBit 1) dst
        (List.replicate (n / 32) ((List.replicate 8 (bytesAt b 4 4)).flatten, false))))
    ∧ (ok → op = 1 → side % 2 = 0 → exec c s = .next (r.1.dmaPut j (side.testBit 1) dst r.2))
    ∧ (ok → op = 1 → side % 2 = 1 → exec c s = .next ((s0.modJob j.queue j.index fun j => { j with busy := true }).hostRequest
        ⟨true, none, 0, j.queue, j.index, j.reads, src, dst, n, side.testBit 1, 0⟩)))
  ∧ (∀ (j : Job) (host : Bool) (a n : Nat) (ws : List (List Byte × Bool)) (s : State),
    let bs := ws.flatMap (·.1)
    let bad := ws.any (·.2)
    let put := if host then s.hostWrite a bs bad else s.dmaStore a ws
    (bad = true → s.dmaPut j host a ws = put.commandFailed j.queue j.index)
    ∧ (bad = false → s.dmaPut j host a ws = put.commandDone j.queue j.index (some (digest64 bs)))
    ∧ (a % 32 = 0 → s.spilled = [] → s.cond = [] → (∀ i < n / 32, s.storeAt (a + 32 * i) = true) →
      s.dmaLoad a n = ((List.range (n / 32)).foldl (fun u i => u.mcTouches false (a + 32 * i) 32) s,
        (List.range (n / 32)).map fun i => (s.bytes (a + 32 * i) 32, false)))
    ∧ (a % 32 = 0 → s.plainStore a (32 * ws.length) = true → (ws.all fun w => w.1.length == 32 && !w.2) = true → s.dmaStore a ws
        = { (List.range ws.length).foldl (fun u i => u.mcTouches true (a + 32 * i) 32) s with mem := cellWrite s.mem a bs }))

/-- R326, R330, R346 to R361, R452, R481: jobs. -/
def Obligations.Jobs : Prop :=
  (∀ s : State,
    let mayTake := fun (e : Nat × QSt) => s.qPend.contains e.1 && !e.2.faulted && !(e.2.flags.testBit 0 && e.2.inFlight != 0)
      && !(s.jobs.any fun j => j.queue == e.1 && j.stage == .waiting)
    let can := s.queues.filter mayTake
    let high := can.filter fun e => e.2.flags.testBit 2
    let turn := if high.isEmpty then can else high
    (s.nextQueue = match turn.find? fun e => decide (s.qPtr ≤ e.1) with | some e => some e.1 | none => turn.head?.map (·.1))
    ∧ (s.get F.QENG_STATUS_state ≠ 1 ∨ s.nextQueue = none → exec .jobTake s = .next s))
  ∧ (∀ (s : State) (q : Nat), s.get F.QENG_STATUS_state = 1 → s.nextQueue = some q →
    let v := s.queue q
    let d := s.load (v.ring + v.consumer % v.size * 64) 64
    let m := d.1.setQueue q { v with consumer := (v.consumer + 1) % 2 ^ 32, inFlight := v.inFlight + 1 }
    let j : Job := { queue := q, index := v.consumer, desc := d.2.1, prio := v.flags.testBit 2, program := fieldAt d.2.1 8 8,
                     exact := (fieldAt d.2.1 1 1).testBit 0 }
    let h := if j.isArray then { m with qPtr := (q + 1) % 2 ^ 20 }.readHeader j.primary else ({ m with qPtr := (q + 1) % 2 ^ 20 }, [])
    let w := fun (k : Nat) => fieldAt j.desc k 2 / 4096 % 8
    let reason := if j.cls = 0 ∨ 7 < j.cls then 1
      else if 64 ≤ j.flags ∨ w 0x30 ≠ 0 ∨ w 0x32 ≠ 0 ∨ w 0x34 ≠ 0 ∨ w 0x36 ≠ 0 then 2
      else if 16 < j.tdCount ∨ j.tdTable % 64 ≠ 0 ∨ h.1.inMemory j.tdTable (max 1 (64 * j.tdCount)) = false then 3
      else if 10000000 < j.deadline ∨ (j.safety = true ∧ j.deadline = 0) then 4
      else if j.isArray = true ∧ h.1.imageOk h.2 (j.cls == 2) = false then 5
      else if 128 ≤ j.cq ∨ (h.1.queue (0x80 + j.cq)).enabled = false then 6
      else if j.cls = 3 ∧ j.queue ≠ h.1.get F.FUS_QUEUE_queue then 7
      else 0
    let t := if reason = 0 ∨ 3 < reason then h.1.readTds j else (h.1, [], false)
    let j1 := { j with header := h.2, tds := t.2.1 }
    let answers := fun (u : State) => exec .jobTake s = .next u
    (d.2.2 = false → t.2.2 = false → reason = 0 → answers { t.1 with jobs := t.1.jobs ++ [j1] })
    ∧ (d.2.2 = false → t.2.2 = false → reason ≠ 0 →
      let u := { t.1 with jobs := t.1.jobs ++ [j1.ended 2 reason] }
      answers (u.put F.QENG_REFUSED_count ((u.get F.QENG_REFUSED_count + 1) % 2 ^ 32)))
    ∧ (d.2.2 = true ∨ t.2.2 = true → answers ({ t.1 with jobs := t.1.jobs ++ [j1.ended 0x0B 0] }.raise pgQENG Ev.QENG_uncorrectable)))
  ∧ (∀ (a n : Nat) (j : Job) (s : State),
    let r := s.load a 128
    let t := s.load j.tdTable (64 * j.tdCount)
    (r.2.2 = true → s.readHeader a = (r.1, []))
    ∧ (r.2.2 = false → s.readHeader a = (r.1, r.2.1))
    ∧ (j.tdCount = 0 → s.readTds j = (s, [], false))
    ∧ (j.tdCount ≠ 0 → s.readTds j = (t.1, (List.range j.tdCount).map (fun k => bytesAt t.2.1 (64 * k) 64), t.2.2))
    ∧ (s.plainAt a = true → s.oneRegion a n = true → s.cond = [] → s.load a n = (s.mcTouches false a n, s.bytes a n, false))
    ∧ (s.storeAt a = false → s.load a n = (s.countUnmapped a, List.replicate n 0#8, true)))
  ∧ (∀ (fft : Bool) (h : List Byte) (s : State),
    let caps := fieldAt h 0x0C 4
    let serving := s.servingArrays.filter fun p => s.capsCover p caps
    (s.imageOk h fft = true ↔ h.take 4 = [0x56#8, 0x41#8, 0x50#8, 0x31#8] ∧ fieldAt h 4 2 = 1 ∧ 1 ≤ fieldAt h 6 2 ∧ fieldAt h 6 2 ≤ 4096
      ∧ fieldAt h 8 2 < fieldAt h 6 2 ∧ fieldAt h 0x0A 2 ≤ 512 ∧ caps < 64 ∧ 1 ≤ fieldAt h 0x10 2 ∧ fieldAt h 0x10 2 ≤ 96
      ∧ fieldAt h 0x12 2 ≤ s.get F.GEN_FW_REV_arith_rev ∧ (∀ b ∈ bytesAt h 0x14 12 ++ bytesAt h 0x60 32, b = 0#8) ∧ (fft = true → caps % 8 = 4))
    ∧ (s.placeable h = true ↔ serving ≠ [] ∧ (caps.testBit 5 = true → fieldAt h 0x10 2 ≤ s.servingArrays.length)))
  ∧ (∀ (id : JobId) (s : State) (j : Job), s.jobOf id = some j →
    let due := j.stage = .waiting ∧ s.waitsMet j = true
    let a := if j.altValid then s.readHeader j.alternate else (s, [])
    let altOk := j.altValid = true ∧ a.1.imageOk a.2 (j.cls == 2) = true ∧ a.1.placeable a.2 = true
    let choice := if s.replaying then s.recordedChoice j else none
    let tell := fun (u : State) => if j.safety then (u.tellIslands j true 0 0).put F.FLT_SR_OPEN_open (u.get F.FLT_SR_OPEN_open + 1) else u
    let answers := fun (u : State) => exec (.jobRelease id) s = .next u
    let prim := (tell a.1).releaseWith j false j.header
    let alt := (tell a.1).releaseWith j true a.2
    (s.waitsMet j = true ↔ ∀ k < 2, (j.wait k).testBit 15 = true → j.waitValue k ≤ s.fence (j.wait k % 4096))
    ∧ (¬due → answers s)
    ∧ (due → j.isArray = false → answers ((tell s).releaseWith j false []))
    ∧ (due → j.isArray = true → choice = some true → (altOk → answers alt) ∧ (¬altOk → answers (a.1.replayStop 8)))
    ∧ (due → j.isArray = true → choice = some false →
      (a.1.placeable j.header = true → answers prim) ∧ (a.1.placeable j.header = false → answers (a.1.replayStop 8)))
    ∧ (due → j.isArray = true → choice = none →
      (a.1.placeable j.header = true → answers prim) ∧ (a.1.placeable j.header = false → altOk → answers alt)
        ∧ (a.1.placeable j.header = false → ¬altOk → answers ((tell a.1).notPlaceable j))))
  ∧ (∀ (j : Job) (alt rel : Bool) (h : List Byte) (st fl : Nat) (s : State),
    let r := s.releaseWith j alt h
    let k := { j with
      stage := .released
      alt := alt
      program := if alt then j.alternate else j.primary
      header := h
      slots := if j.isArray then List.replicate (fieldAt h 0x10 2) {} else []
      released := some s.hubUs
      order := s.relCount }
    let m := { s.setJob k with relCount := s.relCount + 1 }
    let e := s.setJob { j.ended 3 0 with released := some s.hubUs, order := s.relCount }
    let n := s.notPlaceable j
    let i := s.tellIslands j rel st fl
    let msg : IslMsg := ⟨rel, j.queue, j.index, j.tag, j.deadline, st, fl⟩
    (j.isArray = false → r = m)
    ∧ (j.isArray = true → r = m.record 0x15 0 (j.queue % 65536) j.index (j.queue / 65536 + if alt then 256 else 0) 0 (bytesAt h 0x20 64))
    ∧ (n.jobs = e.jobs ∧ n.get F.QENG_REFUSED_count = (s.get F.QENG_REFUSED_count + 1) % 2 ^ 32
      ∧ n.eventSet pgQENG Ev.QENG_not_placeable = (s.eventSet pgQENG Ev.QENG_not_placeable || j.safety)
      ∧ FieldsBut (F.QENG_REFUSED_count :: if j.safety then eventFields pgQENG Ev.QENG_not_placeable else []) s n
      ∧ { n with regs := s.regs, flt := s.flt, jobs := s.jobs } = s)
    ∧ ((∀ d < 2, tabGet i.islMsgs d [] = tabGet s.islMsgs d [] ++ [msg]) ∧ { i with islMsgs := s.islMsgs } = s))
  ∧ (∀ (id : JobId) (arrays : List Arr) (s : State) (j : Job), s.jobOf id = some j →
    let ns := arrays.map arrNum
    let left := (j.slots.filter fun k => decide (k.phase = 0)).length
    let j1 := { j with
      exact := j.exact || (j.stage == .released && s.flag F.DET_CTRL_force_exact)
      dip := j.dip || s.dipOpen 4
      stage := .placed
      slots := giveSlots j.slots ns }
    let gang := j.gang = true → ns.length = left ∧ ∀ n ∈ ns, j.granted.contains (n / 24) = true ∨ j1.grantSize ≤ s.redFree (n / 24)
    let may := arrays ≠ [] ∧ ns.length ≤ left ∧ ns.Nodup ∧ s.get F.PWR_STATE_state = 4 ∧ s.pwr.warming = false ∧ gang
      ∧ ∀ n ∈ ns, n < 96 ∧ s.fits j n = true ∧ (s.arrOpen n = true ∨ s.reclaimable j ns n = true)
    let k := { j with stage := .placed, dip := j.dip || s.dipOpen 4 }
    let r := s.load j.program 32
    let ok := r.2.2 = false ∧ r.2.1.take 4 = listMagic j.cls ∧ 1 ≤ fieldAt r.2.1 4 4 ∧ fieldAt r.2.1 4 4 ≤ 4096 ∧ ∀ b ∈ bytesAt r.2.1 8 24, b = 0#8
    let answers := fun (u : State) => exec (.jobPlace id arrays) s = .next u
    (s.placeTurn j = false → answers s)
    ∧ (s.placeTurn j = true → j.isArray = true → ¬may → answers s)
    ∧ (s.placeTurn j = true → j.isArray = true → may → answers ((ns.foldl State.reclaim s).setJob j1))
    ∧ (s.placeTurn j = true → j.isArray = false → j.cls = 3 → answers (s.setJob k))
    ∧ (s.placeTurn j = true → j.isArray = false → j.cls ≠ 3 → ¬ok → answers ((r.1.setJob k).commandFailed j.queue j.index))
    ∧ (s.placeTurn j = true → j.isArray = false → j.cls ≠ 3 → ok → answers ((r.1.setJob { k with header := r.2.1 }).hubShow j.cls)))
  ∧ (∀ (k : SlotSt) (l : List SlotSt) (n : Nat) (ns : List Nat), giveSlots l [] = l ∧ giveSlots [] ns = []
    ∧ (k.phase = 0 → giveSlots (k :: l) (n :: ns) = { k with phase := 1, die := n / 24, logical := n % 24 } :: giveSlots l ns)
    ∧ (k.phase ≠ 0 → giveSlots (k :: l) (n :: ns) = k :: giveSlots l (n :: ns)))
  ∧ (∀ (n : Nat) (s : State),
    let d := s.stDie (n / 24)
    let u := s.setStDie (n / 24) { d with aborted := setAdd d.aborted (n % 24), win := none }
    let st := s.get (F.ARR_STATE_state n)
    let t := s.reclaim n
    (d.win ≠ some (n % 24) → t = s)
    ∧ (d.win = some (n % 24) → n < 96 → t.get F.STEST_ABORTS_count = (s.get F.STEST_ABORTS_count + 1) % 2 ^ 32
      ∧ t.eventSet pgSTEST Ev.STEST_reclaim = true
      ∧ t.get (F.ARR_STATE_state n) = (if st = 3 then (if (s.arr n).suspect then 4 else 0) else st)
      ∧ FieldsBut ([F.STEST_ABORTS_count, F.ARR_STATE_state n] ++ eventFields pgSTEST Ev.STEST_reclaim) s t
      ∧ t.arrs = tabSet s.arrs n { nextId := (s.arr n).nextId, suspect := (s.arr n).suspect } ∧ t.stest = u.stest
      ∧ { t with regs := s.regs, flt := s.flt, arrs := s.arrs, stest := s.stest } = s))
  ∧ (∀ (id : JobId) (s : State) (j : Job), s.jobOf id = some j →
    let ended := (match j.stage with
      | .ended => true
      | .placed => j.isArray && !j.slots.isEmpty && j.slots.all fun k => decide (k.phase = 3)
      | _ => false) = true
    let over' := queueKind j.queue = 1 ∧ ended ∧ ∀ e ∈ s.ext, e.2.queue ≠ j.queue ∨ e.2.index ≠ j.index
    (¬over' → exec (.jobComplete id) s = .next s) ∧ (over' → exec (.jobComplete id) s = .next (s.jobDone j)))
  ∧ (∀ (j : Job) (s : State),
    let digested := j.wantsDigest = true ∧ ∀ r ∈ j.reports, r.1 ≠ 0x0B ∧ r.1 ≠ 2 ∧ r.1 ≠ 3
    let goes := j.outcome.1 = 0 ∨ j.outcome.1 = 1 ∨ j.sigOnFail = true
    let u1 := { s.redRelease j with transit := s.transit.filter fun p => decide (¬(p.queue = j.queue ∧ p.index = j.index)) }
    let u2 := if j.hasDigest then (u1.checkpoint j).detAdd ⟨j.queue, j.index, j.digest, j.nonrepro, j.tilesInOrder, false⟩ true else u1
    let u3 := u2.jobSignals j
    let u4 := if j.nonrepro then (u3.put F.DET_NONREPRO_count ((u3.get F.DET_NONREPRO_count + 1) % 2 ^ 32)).raise pgDET Ev.DET_nonrepro else u3
    let us := j.released.elim (Config.free u4.freeCtr) (u4.hubUs - ·)
    let u5 := (if j.released.isSome then u4 else { u4 with freeCtr := u4.freeCtr + 1 }).complete j.cq (completionRecord j j.signalsNow us)
    let u6 := u5.put F.QENG_JOBS_count ((u5.get F.QENG_JOBS_count + 1) % 2 ^ 32)
    let u7 := if s.replaying then u6.put F.FARM_PROG_JOBS_count (u6.get F.FARM_PROG_JOBS_count + 1) else u6
    let u8 := { u7.setQueue j.queue { u7.queue j.queue with inFlight := (u7.queue j.queue).inFlight - 1 } with
      jobs := u7.jobs.filter fun k => !k.is j.queue j.index }
    let told := j.safety = true ∧ j.outcome.1 ≠ 2 ∧ j.outcome.1 ≠ 0x0B
    let bad := j.dip || decide (j.outcome.1 = 3 ∨ j.outcome.1 = 4)
    let d := s.jobSignals j
    (j.hasDigest = true ↔ digested) ∧ (j.signalsNow = true ↔ goes)
    ∧ (¬told → s.jobDone j = u8)
    ∧ (told → s.jobDone j = ({ u8 with twin := { u8.twin with jobFault := u8.twin.jobFault || bad } }.tellIslands j false j.outcome.1
        (fieldAt (completionRecord j j.signalsNow us) 9 1)).put F.FLT_SR_OPEN_open (s.get F.FLT_SR_OPEN_open - 1))
    ∧ (¬goes → d = s)
    ∧ (goes → let u := if (j.signal 0).testBit 15 then s.fenceAdd (j.signal 0 % 4096) (j.signalInc 0) else s
      d = if (j.signal 1).testBit 15 then u.fenceAdd (j.signal 1 % 4096) (j.signalInc 1) else u)
    ∧ (let level := s.flag F.JRN_CTRL_tile_level
      let cut := level && decide (4096 < j.tilesInOrder.length)
      s.checkpoint j = s.record 0x14 ((if j.nonrepro then 8 else 0) + (if level then 16 else 0) + if cut then 32 else 0) (j.queue % 65536) j.index
        (j.queue / 65536 + 65536 * if j.isArray then j.slotCount else 1) j.digest.toNat
        (if level then (j.tilesInOrder.take 4096).flatMap fun t => leBytes 2 t.slot ++ leBytes 2 t.tile ++ leBytes 1 t.logical
          ++ leBytes 1 (t.die + 4 * t.phys) ++ leBytes 2 0 ++ laneBytes t.digest else []))
    ∧ (let t := s.redRelease j
      t.jobs = (s.setJob { j with granted := [], accs := j.accs.map fun t => { t with reserved := 0 } }).jobs
      ∧ (∀ k ∈ j.slots, k.phase = 2 → t.get (F.ARR_RED_granted (24 * k.die + k.logical)) = 0 ∧ t.get (F.ARR_RED_reserved (24 * k.die + k.logical)) = 0)
      ∧ FieldsBut (j.slots.flatMap fun k => if k.phase = 2 then [F.ARR_RED_granted (24 * k.die + k.logical), F.ARR_RED_reserved (24 * k.die + k.logical)] else []) s t
      ∧ { t with regs := s.regs, jobs := s.jobs } = s))
  ∧ (∀ (j : Job) (signalled : Bool) (us n : Nat) (s : State),
    let r := completionRecord j signalled us
    let o := j.outcome
    let q := 0x80 + n
    let v := s.queue q
    let entry := s.store (v.ring + v.producer % v.size * 32) (if v.lost then r.take 9 ++ [r.getD 9 0#8 ||| 32#8] ++ r.drop 10 else r)
    let e := entry.setQueue q { v with producer := (v.producer + 1) % 2 ^ 32 }
    let w := e.setQueue q { e.queue q with lost := false }
    let vec := w.get (F.PCIE_CQ_VEC_vec (n / 4) (n % 4))
    let free := v.hasRoom = true ∧ ∀ x ∈ s.cqStaged, x.1 ≠ n
    (j.queue < 2 ^ 32 → j.index < 2 ^ 32 → o.1 < 256 → o.2.1 < 65536 → o.2.2 < 2 ^ 32 → r.length = 32 ∧ fieldAt r 0 4 = j.queue ∧ fieldAt r 4 4 = j.index
      ∧ fieldAt r 8 1 = o.1 ∧ fieldAt r 0xA 2 = o.2.1 ∧ fieldAt r 0xC 4 = o.2.2
      ∧ fieldAt r 9 1 = (if j.nonrepro then 1 else 0) + (if j.dip then 2 else 0) + (if j.alt then 4 else 0) + (if j.hasDigest then 8 else 0)
        + (if signalled then 16 else 0)
      ∧ fieldAt r 0x10 8 = (if j.hasDigest then leNat (laneBytes j.digest) else 0) ∧ fieldAt r 0x18 4 = j.tag ∧ fieldAt r 0x1C 4 = min us (2 ^ 32 - 1))
    ∧ (v.hasRoom = true ↔ v.enabled = true ∧ v.faulted = false ∧ v.used < v.size)
    ∧ (v.flags.testBit 1 = false → s.cqWrite n r = w)
    ∧ (v.flags.testBit 1 = true → s.cqWrite n r = w.put F.PCIE_MSI_PEND_pending (w.get F.PCIE_MSI_PEND_pending ||| 2 ^ (vec % 32)))
    ∧ (free → s.complete n r = s.cqWrite n r)
    ∧ (¬free → s.cqStaged.length < 4096 → s.complete n r = { s with cqStaged := s.cqStaged ++ [(n, r)] })
    ∧ (¬free → 4096 ≤ s.cqStaged.length → let l := s.setQueue q { v with lost := true }
      s.complete n r = (l.put F.QENG_CQ_DROP_count ((l.get F.QENG_CQ_DROP_count + 1) % 2 ^ 32)).raise pgQENG Ev.QENG_cq_overflow))
  ∧ (∀ (cq : Fin 128) (s : State) (e : Nat × List Byte),
    let room := (s.queue (0x80 + cq.val)).hasRoom = true
    ((∀ x ∈ s.cqStaged, x.1 ≠ cq.val) ∨ ¬room → exec (.completionRecord cq) s = .next s)
    ∧ ((s.cqStaged.find? fun x => decide (x.1 = cq.val)) = some e → room →
      exec (.completionRecord cq) s = .next ({ s with cqStaged := s.cqStaged.erase e }.cqWrite cq.val e.2)))
  ∧ (∀ (acc : Acc) (s s2 : State) (w : Word), s.written pgQENG 0x040 acc = some (s2, w) →
    let q := F.QENG_ABORT_queue.ext w
    let i := s2.get F.QENG_ABORT_INDEX_index
    let answers := fun (t : State) => exec (.qengAbort acc) s = .next t
    (w.getLsbD 31 = false → answers s2)
    ∧ (w.getLsbD 31 = true → s2.job q i = none → answers (s2.queueResult 5))
    ∧ (∀ j, w.getLsbD 31 = true → s2.job q i = some j →
      let stopped := { (if j.slots.any fun k => decide (k.phase = 2) then j else j.report 0x0A 7 0) with
        slots := j.slots.map fun k => if k.phase < 2 then { k with phase := 3 } else k }
      (queueKind j.queue ≠ 1 → answers (s2.queueResult 5))
      ∧ (queueKind j.queue = 1 → j.stage = .waiting ∨ j.stage = .released → answers ((s2.setJob (j.ended 0x0A 0)).queueResult 0))
      ∧ (queueKind j.queue = 1 → j.stage = .ended → answers (s2.queueResult 0))
      ∧ (queueKind j.queue = 1 → j.stage = .placed → j.isArray = false → answers ((s2.setJob { j with stopping := true }).queueResult 0))
      ∧ (queueKind j.queue = 1 → j.stage = .placed → j.isArray = true → answers (((s2.setJob stopped).stopSlots stopped 1000 7).queueResult 0))))
  ∧ (∀ (j : Job) (self cause : Nat) (s : State),
    let t := s.stopSlots j self cause
    (∀ k ∈ j.slots, k.phase = 2 → 24 * k.die + k.logical ≠ self → (s.arr (24 * k.die + k.logical)).ending = false →
      t.arr (24 * k.die + k.logical) = { s.arr (24 * k.die + k.logical) with stop := some cause })
    ∧ (∀ n, (∀ k ∈ j.slots, k.phase = 2 → n ≠ 24 * k.die + k.logical) ∨ n = self ∨ (s.arr n).ending = true → t.arr n = s.arr n)
    ∧ { t with arrs := s.arrs } = s)
  ∧ (∀ (id : JobId) (s : State) (cls : Nat) (c : Instr), (cls, c) ∈ [(4, .p2i id), (4, .p2g id), (4, .f2g id), (4, .delta id), (4, .bias id),
      (5, .publish id), (5, .load id), (5, .plan id), (6, .seqOpen id), (6, .seqClose id), (6, .share id), (6, .free id), (6, .alloc id),
      (7, .copy id), (7, .fill id)] →
    (s.jobOf id = none → exec c s = .next s)
    ∧ (∀ j, s.jobOf id = some j →
      let r := s.load (j.program + 32 + (if cls ≤ 5 then 64 else 32) * j.cmd) (if cls ≤ 5 then 64 else 32)
      let idle := j.cls ≠ cls ∨ j.stage ≠ .placed ∨ j.busy = true ∨ j.listCount ≤ j.cmd
      (idle → exec c s = .next s)
      ∧ (¬idle → r.2.2 = true → exec c s = .next (r.1.commandFailed j.queue j.index))))
  ∧ (∀ (q i : Nat) (s : State), s.clsOf q i ≠ 4 →
    s.commandDone q i none = (s.modJob q i fun j =>
      let k := { j with cmd := j.cmd + 1, busy := false }
      if k.listCount ≤ k.cmd then { k with stage := .ended } else if k.stopping then k.ended 0x0A 0 else k)
    ∧ s.commandFailed q i = (s.modJob q i fun j => { j.ended (listStatus j.cls) j.cmd with busy := false })
    ∧ ∀ d : DWord, s.commandDone q i (some d) = (s.modJob q i fun k =>
        if k.wantsDigest then { k with tiles := k.tiles ++ [⟨0, k.tiles.length, 0, 0, 0, d⟩] } else k).commandDone q i none)

/-- R370 to R385, R578: device memory and the memory controllers. -/
def Obligations.MainMemory : Prop :=
  (∀ (addr : BitVec 48) (data : Line) (mask : Word) (poison : Bool) (found : DramFound) (s : State),
    let a := addr.toNat / 32 * 32
    exec (.dramWrite addr data mask poison) s = .next (s.dramRequest (.write a data mask poison))
    ∧ exec (.dramRead addr found) s = .next (s.dramRequest (.read a found.code found.check)))
  ∧ (∀ (a : Nat) (data : Line) (mask : Word) (poison : Bool) (code cc : CodeState) (s : State),
    let r := DramReq.read a code cc
    let w := DramReq.write a data mask poison
    let cx := s.dramAt (a - dramBase)
    let k := cx.1 / 2
    let ch := cx.1 % 2
    let m := s.mc k
    let waits := s.dramOpen (a - dramBase) = false ∨ ∃ q ∈ s.memg.waits, q.at = a
    let held := fun (x : DramReq) => { s with memg := { s.memg with waits := s.memg.waits ++ [x] } }
    let old := cellRead s.mem a 32
    let part := mask ≠ 0xFFFFFFFF#32
    let bad := poison || (mask != 0xFFFFFFFF#32 && (match tabFind s.cond (a / 32) with | some c => c.bad | none => false))
    let fwd := (m.wq ch).contains (cx.2 / 32)
    let s0 := if (m.wq ch).any fun v => decide (v / 2 = cx.2 / 64) then s.put (F.MC_FWD_COUNT_count k) ((s.get (F.MC_FWD_COUNT_count k) + 1) % 2 ^ 32) else s
    let s1 := (s0.ccAccess k ch cx.2 false).cacheWord k ch cx.2 (a / 256 * 8) cc
    let found := match tabFind s1.cond (a / 32), code with
      | some c, _ => some c
      | none, .one b => if fwd then none else some (.one b)
      | none, .many => if fwd then none else some .many
      | none, .clean => none
    let back := fun (u : State) (p : Nat) => { u with out := u.out ++ [⟨.memReturn, [a, p], cellRead u.mem a 32⟩] }
    (s.dramOpen (a - dramBase) = true ↔ (s.get F.MEMG_STATUS_ready_segments).testBit (cx.2 / 536870912) = true ∧ s.get F.MEMG_STATUS_state ≠ 6
      ∧ s.memg.selfRefresh = false ∧ cx.1 ∉ s.memg.testing ∧ m.retrain ≠ some ch ∧ m.retiring ≠ some (ch, cx.2 / 2048 % 16, cx.2 / 32768))
    ∧ (s.region a = .dram → waits → s.dramRequest r = held r ∧ s.dramRequest w = held w)
    ∧ (s.region a = .dram → ¬waits → s.dramRequest r = s.dramServe r ∧ s.dramRequest w = s.dramServe w)
    ∧ (s.region a = .spare ∨ (s.region a).isGap = true → s.dramRequest w = s.countUnmapped a
      ∧ s.dramRequest r = { s.countUnmapped a with out := (s.countUnmapped a).out ++ [⟨.memReturn, [a, 1], List.replicate 32 0#8⟩] })
    ∧ (s.region a ≠ .dram → s.region a ≠ .spare → (s.region a).isGap = false → s.dramRequest r = s ∧ s.dramRequest w = s)
    ∧ (s.dramServe w = ((((((if part then s.logRead (a / 32) else s).poke a ((List.range 32).map fun i => if mask.getLsbD i then (lineBytes data).getD i 0#8
        else old.getD i 0#8) bad).applyInject (a / 32)).ccAccess k ch cx.2 true).wqAccept k ch (cx.2 / 32)).mcMode k))
    ∧ (found = none → s.dramServe r = back s1 0)
    ∧ (found = some .poison → s.dramServe r = back s1 1)
    ∧ (found = some .many → s.dramServe r = back (s1.mcUncorrectable k ch cx.2 false) 1)
    ∧ (∀ b, found = some (.one b) → s.dramServe r = back (s1.mcCorrected k ch cx.2 b.val false) 0))
  ∧ (∀ (a n : Nat) (bs : List Byte) (poison : Bool) (s : State),
    let t := s.poke a bs poison
    let u := s.zero a n
    let ws := wordsOf (s.place a) n
    let counted := fun (f : Fld) =>
      let t := s.countUnmapped a
      t.get f = min (s.get f + 1) 65535 ∧ t.eventSet pgMEMG Ev.MEMG_unmapped = true
        ∧ FieldsBut (f :: eventFields pgMEMG Ev.MEMG_unmapped) s t ∧ { t with regs := s.regs, flt := s.flt } = s
    (t.mem = cellWrite s.mem (s.place a) bs ∧ { t with mem := s.mem, cond := s.cond } = s)
    ∧ (∀ w, tabFind t.cond w = if w ∈ wordsOf (s.place a) bs.length then (if poison then some .poison
        else if s.place a ≤ w * 32 ∧ w * 32 + 32 ≤ s.place a + bs.length then none
        else if (tabFind s.cond w).any WordCond.bad then some .poison else none) else tabFind s.cond w)
    ∧ ({ u with mem := s.mem, cond := s.cond } = s)
    ∧ (∀ k, cellGet u.mem k = if s.place a ≤ k ∧ k < s.place a + n then cellGet [] k else cellGet s.mem k)
    ∧ (∀ w, tabFind u.cond w = if s.place a ≤ w * 32 ∧ w * 32 < s.place a + n then none else tabFind s.cond w)
    ∧ (s.region a = .spare → counted F.MEMG_UNMAPPED_spare_hits)
    ∧ ((s.region a).isGap = true → counted F.MEMG_UNMAPPED_count)
    ∧ (s.region a ≠ .spare → (s.region a).isGap = false → s.countUnmapped a = s)
    ∧ (s.storeAt a = true → s.load a n = (ws.foldl State.logRead (s.mcTouches false a n), cellRead s.mem (s.place a) n, s.poisonedAt a n))
    ∧ (s.storeAt a = true → s.storeRaw a bs poison
        = ((partialWords (s.place a) bs.length).foldl State.logRead (s.mcTouches true a bs.length)).poke a bs poison)
    ∧ (s.storeAt a = false → s.storeRaw a bs poison = s.countUnmapped a)
    ∧ (s.poisonedAt a n = true ↔ ∃ w ∈ ws, s.storeAt (w * 32) = false ∨ (tabFind s.cond w).any WordCond.bad = true)
    ∧ (s.get F.COLL_CTRL_enable = 0 → s.get F.XGS_CTRL_enable = 0 →
      s.store a bs poison = (wordsOf a bs.length).foldl State.applyInject (s.storeRaw a bs poison))
    ∧ (s.plainStore a bs.length = true → s.store a bs = s.wrote a bs))
  ∧ (∀ (w : Nat) (write : Bool) (s : State),
    let cx := s.dramAt (w * 32 - dramBase)
    let k := cx.1 / 2
    let ch := cx.1 % 2
    let served := s.region (w * 32) = .dram ∧ s.dramOpen (w * 32 - dramBase) = true
    let c := tabFind s.cond w
    let key := ch * 67108864 + cx.2 / 64
    let fwd := if ((s.mc k).wq ch).any fun v => decide (v / 2 = cx.2 / 64) then
      s.put (F.MC_FWD_COUNT_count k) ((s.get (F.MC_FWD_COUNT_count k) + 1) % 2 ^ 32) else s
    (∀ a n, s.mcTouches write a n = (wordsOf (s.place a) n).foldl (fun s w => s.mcTouch write w) s)
    ∧ (¬served → s.mcTouch write w = s)
    ∧ (served → s.mcTouch true w = (s.ccAccess k ch cx.2 true).wqAccept k ch (cx.2 / 32) ∧ s.mcTouch false w = fwd.ccAccess k ch cx.2 false)
    ∧ (c = none ∨ c = some .poison ∨ (match s.region (w * 32) with | .dram | .pool _ | .stack _ => false | _ => true) = true → s.logRead w = s)
    ∧ (c = some .many → s.region (w * 32) = .dram → s.logRead w = s.mcUncorrectable k ch cx.2 false)
    ∧ (∀ b, c = some (.one b) → s.region (w * 32) = .dram → s.logRead w = s.mcCorrected k ch cx.2 b.val false)
    ∧ (∀ n c', c = some c' → c' ≠ .poison → s.region (w * 32) = .pool n →
      let f := if c'.bad then F.CD_POOL_ERR_uncorrectable n else F.CD_POOL_ERR_corrected n
      let e := if c'.bad then Ev.CD_uncorrectable else Ev.CD_corrected
      let t := s.logRead w
      t.get f = min (s.get f + 1) 65535 ∧ t.eventSet (pgCD n) e = true ∧ FieldsBut (f :: eventFields (pgCD n) e) s t
        ∧ { t with regs := s.regs, flt := s.flt } = s)
    ∧ (∀ n c', c = some c' → c' ≠ .poison → s.region (w * 32) = .stack n →
      let f := if c'.bad then F.ST_UNCORR_COUNT_count n else F.ST_CORR_COUNT_count n
      let e := if c'.bad then Ev.ST_uncorrectable else Ev.ST_corrected
      let hi := match c' with | .one b => b.val / 2 | _ => 15
      let t := s.logRead w
      t.get f = (s.get f + 1) % 2 ^ 32 ∧ t.get (F.ST_LAST_ERR_ADDR_word n) = w - stackBase n / 32 ∧ t.get (F.ST_LAST_ERR_ADDR_byte_hi n) = hi % 16
        ∧ t.eventSet (pgST n) e = true
        ∧ FieldsBut ([f, F.ST_LAST_ERR_ADDR_word n, F.ST_LAST_ERR_ADDR_byte_hi n] ++ eventFields (pgST n) e) s t
        ∧ { t with regs := s.regs, flt := s.flt } = s)
    ∧ (s.region (w * 32) ≠ .dram ∨ w % 2 = 1 ∨ tabFind (s.mc k).inject key = none → s.applyInject w = s)
    ∧ (∀ n, s.region (w * 32) = .dram → w % 2 = 0 → tabFind (s.mc k).inject key = some n →
      s.applyInject w = { s.setMc k { s.mc k with inject := tabDel (s.mc k).inject key } with
        cond := if n = 1 then (if c = some .poison then s.cond else tabSet s.cond w (.one 0)) else tabSet s.cond w .many }))
  ∧ (∀ (k ch x last w' : Nat) (write : Bool) (q : List Nat) (s : State), k < 16 →
    let line := x / 512 * 2 + ch
    let m := s.mc k
    let set := tabGet m.cache (line % 128) []
    let missed := s.setMc k { m with cache := tabSet m.cache (line % 128) (⟨line, write⟩ :: set.take 7) }
    let poisoned := { s.setMc k { m with cache := tabSet m.cache (line % 128) (set.filter fun l => decide (l.line ≠ line)) } with
      cond := (List.range 8).foldl (fun c i => tabSet c (w' + i) .poison) s.cond }
    let corr := if ch = 0 then F.MC_CORR_ch0 k else F.MC_CORR_ch1 k
    let uncorr := if ch = 0 then F.MC_UNCORR_ch0 k else F.MC_UNCORR_ch1 k
    let y := 3638 * 1048576 + x / 512 * 64 + x % 512 / 32 * 4
    (∀ l, set.find? (fun l => decide (l.line = line)) = some l → s.ccAccess k ch x write
      = s.setMc k { m with cache := tabSet m.cache (line % 128) (⟨line, l.dirty || write⟩ :: set.filter fun l => decide (l.line ≠ line)) })
    ∧ (set.find? (fun l => decide (l.line = line)) = none →
      s.ccAccess k ch x write = missed.put (F.MC_CC_MISS_count k) ((s.get (F.MC_CC_MISS_count k) + 1) % 2 ^ 32))
    ∧ (s.cacheWord k ch x w' .clean = s)
    ∧ (∀ b : Fin 36, s.cacheWord k ch x w' (.one b) = ((s.put corr (min (s.get corr + 1) 65535)).errLoc k ch y b.val false true).raise (pgMC k) Ev.MC_corrected)
    ∧ (s.cacheWord k ch x w' .many = ((((poisoned.put uncorr (min (s.get uncorr + 1) 65535)).errLoc k ch y 63 false true).raise
        (pgMC k) Ev.MC_uncorrectable).raise (pgMC k) Ev.MC_cc_uncorrectable))
    ∧ (∀ byte < 64, ∀ scrub cache : Bool, ch < 2 →
      let t := s.errLoc k ch x byte scrub cache
      t.get (F.MC_LAST_ERR_LOC_ch k) = ch ∧ t.get (F.MC_LAST_ERR_LOC_bank k) = x / 2048 % 16 ∧ t.get (F.MC_LAST_ERR_LOC_row k) = x / 32768 % 2 ^ 17
        ∧ t.get (F.MC_LAST_ERR_LOC_unit k) = x / 64 % 32 ∧ t.get (F.MC_LAST_ERR_LOC_word k) = x / 32 % 2 ∧ t.get (F.MC_LAST_ERR_KIND_byte k) = byte
        ∧ t.get (F.MC_LAST_ERR_KIND_by_scrub k) = (if scrub then 1 else 0) ∧ t.get (F.MC_LAST_ERR_KIND_check_cache k) = (if cache then 1 else 0)
        ∧ FieldsBut [F.MC_LAST_ERR_LOC_ch k, F.MC_LAST_ERR_LOC_bank k, F.MC_LAST_ERR_LOC_row k, F.MC_LAST_ERR_LOC_unit k, F.MC_LAST_ERR_LOC_word k,
            F.MC_LAST_ERR_KIND_byte k, F.MC_LAST_ERR_KIND_by_scrub k, F.MC_LAST_ERR_KIND_check_cache k] s t ∧ { t with regs := s.regs } = s)
    ∧ (let row := x / 32768
      let bank := x / 2048 % 16
      let rows := if ch = 0 then m.rows0 else m.rows1
      let n := ((rows.find? fun r => decide (r.bank = bank ∧ r.row = row)).elim 0 (·.count)) + 1
      let new := (⟨bank, row, n⟩ :: rows.filter fun r => decide (¬(r.bank = bank ∧ r.row = row))).take 32
      let s1 := s.setMc k (if ch = 0 then { m with rows0 := new } else { m with rows1 := new })
      let thr := s.get (F.MC_ROW_THRESH_corrections k)
      ∀ byte : Nat, ∀ scrub : Bool,
      let c := ((s1.put corr (min (s.get corr + 1) 65535)).errLoc k ch x byte scrub).raise (pgMC k) Ev.MC_corrected
      (thr = 0 ∨ n < thr → s.mcCorrected k ch x byte scrub = c)
      ∧ (thr ≠ 0 → thr ≤ n → s.mcCorrected k ch x byte scrub = c.rowRetireStart k ch bank row)
      ∧ (s.mcUncorrectable k ch x scrub = (((s.put uncorr (min (s.get uncorr + 1) 65535)).errLoc k ch x 63 scrub).raise (pgMC k) Ev.MC_uncorrectable).rowRetireStart
          k ch bank row))
    ∧ (∀ v, pickBank q last = some v → q.find? (fun u => decide (u * 32 / 2048 % 16 = v * 32 / 2048 % 16)) = some v
      ∧ ∀ u ∈ q, (v * 32 / 2048 % 16 + 16 - (last + 1) % 16) % 16 ≤ (u * 32 / 2048 % 16 + 16 - (last + 1) % 16) % 16)
    ∧ (pickBank q last = none → q = []))
  ∧ (∀ (k ch w bank row : Nat) (s : State), k < 16 → ch < 2 →
    let m := s.mc k
    let q := m.wq ch
    let n := max m.wq0.length m.wq1.length
    let m1 := if q.length < 64 then m else m.issueTo ch 63 64
    let m2 := m1.setWq ch (m1.wq ch ++ [w])
    let full := s.get (F.MC_STATUS_mode k) = 2 ∧ s.get (F.MC_SPILL_high k) ≤ (m2.wq ch).length
    let i := m.issueOne ch
    let last := if ch = 0 then m.lastBank0 else m.lastBank1
    let done := m.remapped ch bank row = true ∨ m.retiring ≠ none
    let dry := 64 ≤ m.remapCount ch ∨ 104 ≤ (m.sparesUsed ch bank).length
    (n < 128 → let t := s.wqShow k
      t.get (F.MC_WQ_entries k) = n ∧ t.get (F.MC_WQ_peak k) = max (s.get (F.MC_WQ_peak k)) n ∧ FieldsBut [F.MC_WQ_entries k, F.MC_WQ_peak k] s t
        ∧ { t with regs := s.regs } = s)
    ∧ (w ∈ q → s.wqAccept k ch w = s)
    ∧ (w ∉ q → ¬full → s.wqAccept k ch w = (s.setMc k m2).wqShow k)
    ∧ (w ∉ q → full → let u := ((s.setMc k m2).wqShow k).setMc k (m2.issueTo ch (s.get (F.MC_SPILL_low k)) 64)
      s.wqAccept k ch w = (u.put (F.MC_WQ_drains k) (min (u.get (F.MC_WQ_drains k) + 1) 65535)).wqShow k)
    ∧ (pickBank q last = none → i = m)
    ∧ (∀ v, pickBank q last = some v → i.wq ch = q.filter (· ≠ v) ∧ i.wq (1 - ch) = m.wq (1 - ch)
      ∧ (if ch = 0 then i.lastBank0 else i.lastBank1) = v * 32 / 2048 % 16
      ∧ { i with wq0 := m.wq0, wq1 := m.wq1, lastBank0 := if ch = 0 then m.lastBank0 else i.lastBank0,
                 lastBank1 := if ch = 0 then i.lastBank1 else m.lastBank1 } = m)
    ∧ (∀ f : Nat, m.issueTo ch w 0 = m ∧ m.issueTo ch w (f + 1) = if w < q.length then i.issueTo ch w f else m)
    ∧ (done → s.rowRetireStart k ch bank row = s)
    ∧ (¬done → dry → s.rowRetireStart k ch bank row = s.raise (pgMC k) Ev.MC_spares_low)
    ∧ (¬done → ¬dry → s.rowRetireStart k ch bank row
        = ((s.setMc k { m with retiring := some (ch, bank, row) }).put (F.MC_STATUS_flushing k) 1).mcMode k))
  ∧ (∀ (k : Nat) (s : State), k < 16 →
    let m := s.get (F.MC_STATUS_mode k)
    let shows := fun (u : State) (mode cause : Nat) =>
      let t := s.mcMode k
      t.get (F.MC_STATUS_mode k) = mode ∧ t.get (F.MC_STATUS_spill_cause k) = cause
        ∧ FieldsBut [F.MC_STATUS_mode k, F.MC_STATUS_spill_cause k] u t ∧ { t with regs := u.regs } = u
    (∀ c, c ∈ s.spillCauses k ↔ (c = 1 ∧ (s.get F.MEMG_STATUS_state = 2 ∨ s.get F.MEMG_STATUS_state = 3)) ∨ (c = 2 ∧ ∃ x ∈ s.memg.testing, x / 2 = k)
      ∨ (c = 3 ∧ (s.mc k).retiring.isSome = true) ∨ (c = 4 ∧ (s.mc k).retrain.isSome = true) ∨ (c = 5 ∧ s.memg.copying.any (fun x => x / 2 == k) = true)
      ∨ (c = 6 ∧ s.get (F.MC_CTRL_hold_spill k) = 1) ∨ (c = 7 ∧ s.memg.parkPrep = true))
    ∧ (s.spillCauses k).Pairwise (· < ·)
    ∧ (m < 2 → s.mcMode k = s)
    ∧ (∀ c l, 2 ≤ m → s.spillCauses k = c :: l → shows s 2 c)
    ∧ (2 ≤ m → s.spillCauses k = [] → s.get F.MEMG_CTRL_normal = 0 → shows s 2 0)
    ∧ (2 ≤ m → s.spillCauses k = [] → s.get F.MEMG_CTRL_normal = 1 → shows (if m = 2 then s.wqEmpty k else s) 3 0)
    ∧ (s.wqEmpty k = (s.setMc k { s.mc k with wq0 := [], wq1 := [], draining := false }).wqShow k)
    ∧ (s.mcModes = (List.range 16).foldl State.mcMode s)
    ∧ (s.dramRetry = s.memg.waits.foldl State.dramRequest { s with memg := { s.memg with waits := [] } })
    ∧ (let up := s.get F.MEMG_STATUS_state = 3 ∧ s.get F.MEMG_CTRL_normal = 1 ∧ s.get F.MEMG_STATUS_ready_segments = 0xFF
      s.memgNormal = (if up then s.put F.MEMG_STATUS_state 4 else s).mcModes))
  ∧ (∀ (acc : Acc) (s s2 : State) (w : Word), s.written pgMEMG 0x020 acc = some (s2, w) → ∀ c ∈ [Instr.train acc, .parkPrep acc, .parkRestore acc false],
    let u := if w.getLsbD 0 then s2.trainStart else s2
    let v := if w.getLsbD 2 then u.parkBegin else u
    exec c s = .next (if w.getLsbD 3 then v.parkBack false else v))
  ∧ (∀ s : State,
    let t := s.trainStart
    (s.get F.MEMG_STATUS_state ≠ 0 → t = s)
    ∧ (s.get F.MEMG_STATUS_state = 0 → t.get F.MEMG_STATUS_state = 1 ∧ (∀ k < 16, t.get (F.MC_STATUS_mode k) = 1)
      ∧ FieldsBut (F.MEMG_STATUS_state :: (List.range 16).map fun k => F.MC_STATUS_mode k) s t
      ∧ { t with regs := s.regs } = { s with memg := { s.memg with step := 1 } }))
  ∧ (∀ (failed : List (Fin 32)) (temps : List Int) (dip : Bool) (s : State),
    let n := s.memg.step
    let bad := failed.filter fun c => decide (s.memg.retired ≠ some c.val)
    let s1 := bad.foldl (fun s c => s.trainFail c.val) s
    let again := s1.get F.MEMG_STATUS_state = 6 ∨ ∃ c ∈ bad, s1.memg.retired ≠ some c.val
    let s2 := { s1.trainClear with memg := { s1.memg with step := n + 1 } }
    let answers := fun (t : State) => exec (.trainingStepDone failed temps dip) s = .next t
    (n = 0 ∨ 5 < n ∨ dip = true → answers s)
    ∧ (1 ≤ n → n ≤ 5 → dip = false → again → answers s1)
    ∧ (1 ≤ n → n < 5 → dip = false → ¬again → answers s2)
    ∧ (n = 5 → dip = false → ¬again → answers (s2.trainDone temps)))
  ∧ (∀ (c : Nat) (temps : List Int) (s : State), c < 32 →
    let k := c / 2
    let m := s.mc k
    let n := (if c % 2 = 0 then m.fails0 else m.fails1) + 1
    let s1 := s.setMc k (if c % 2 = 0 then { m with fails0 := n } else { m with fails1 := n })
    let f := ((s.put (F.MC_STATUS_ch_fail k) (s.get (F.MC_STATUS_ch_fail k) ||| 2 ^ (c % 2))).put F.MEMG_TRAIN_failed
      (s.get F.MEMG_TRAIN_failed ||| 2 ^ k)).raise (pgMC k) Ev.MC_channel_fail
    let spare := s.get F.MEMG_SPARE_reserve = 1 ∧ s.memg.retired = none
    let gone := (({ s with memg := { s.memg with retired := some c, copying := none } }.put (F.MC_STATUS_retired k) (s.get (F.MC_STATUS_retired k) ||| 2 ^ (c % 2))).put
      F.MEMG_RETIRE_STATE_channel c).put F.MEMG_RETIRE_STATE_retired 1
    let trained := { s with mcs := (List.range 16).foldl (fun t j => tabSet t j { tabGet t j {} with
      trained0 := temps.getD (2 * j) 0, trained1 := temps.getD (2 * j + 1) 0 }) s.mcs }
    let shown := (List.range 16).foldl (fun u j => (u.put (F.MC_TEMP_trained_at j) (ofInt 8 (temps.getD (2 * j + 1) 0))).put (F.MC_STATUS_mode j) 2) trained
    (n ≠ 3 → s.trainFail c = s1)
    ∧ (n = 3 → s.trainFail c = s1.channelFailed c)
    ∧ (spare → s.channelFailed c = f.channelGone c)
    ∧ (¬spare → s.channelFailed c = (f.put F.MEMG_STATUS_state 6).raise pgMEMG Ev.MEMG_train_fail)
    ∧ (s.channelGone c = ((gone.put F.MEMG_RETIRE_STATE_copying 0).raise pgMEMG Ev.MEMG_retired).mcModes)
    ∧ (s.trainClear = { s with mcs := (List.range 16).foldl (fun t j => tabSet t j { tabGet t j {} with fails0 := 0, fails1 := 0 }) s.mcs })
    ∧ (s.trainDone temps = (((shown.put F.MEMG_TRAIN_done 0xFFFF).put F.MEMG_STATUS_state 2).raise pgMEMG Ev.MEMG_trained).mcModes))
  ∧ (∀ s : State,
    let n := s.memg.step
    let s1 := { s with memg := { s.memg with step := if n = 14 then 0 else n + 1 } }
    let s2 := if n - 7 ∈ s.memg.kept then s1 else s1.zeroSegment (n - 7)
    let s3 := s2.put F.MEMG_STATUS_ready_segments (s.get F.MEMG_STATUS_ready_segments ||| 2 ^ (n - 7))
    let answers := fun (t : State) => exec .segmentSwept s = .next t
    (s.get F.MEMG_STATUS_state ≠ 2 ∨ n < 6 → answers s)
    ∧ (s.get F.MEMG_STATUS_state = 2 → n = 6 → answers s1)
    ∧ (s.get F.MEMG_STATUS_state = 2 → 6 < n → n < 14 → answers s3.dramRetry)
    ∧ (s.get F.MEMG_STATUS_state = 2 → n = 14 → answers (s3.put F.MEMG_STATUS_state 3).memgNormal.dramRetry)
    ∧ (∀ seg a, let t := s.zeroSegment seg
      let inSeg := fun (x : Nat) => dramBase ≤ x ∧ x < dramBase + dramBytes ∧ (s.dramAt (x - dramBase)).2 / 536870912 = seg
      cellGet t.mem a = (if inSeg a then cellGet [] a else cellGet s.mem a) ∧ tabFind t.cond a = (if inSeg (a * 32) then none else tabFind s.cond a)
        ∧ { t with mem := s.mem, cond := s.cond } = s))
  ∧ (∀ (p : Fin 8) (c : Fin 32) (rate : BitVec 3) (hot : Bool) (bank : Fin 16) (celsius : Int) (s : State),
    let k := c.val / 2
    let far := fun (u : State) (j : Nat) (t : Int) => decide (u.get (F.MC_RETRAIN_CFG_drift j) < (celsius - t).natAbs)
    let read := fun (u : State) (j : Nat) =>
      let s1 := u.put (F.MC_TEMP_temp j) (ofInt 8 celsius)
      if u.get (F.MC_STATUS_mode j) < 2 then s1
      else
        let s2 := if far u j (u.mc j).trained0 then s1.retrainAsk j 0 else s1
        if far u j (u.mc j).trained1 then s2.retrainAsk j 1 else s2
    let idle := s.memg.selfRefresh = true ∨ s.memg.retired = some c.val
    let key := c.val % 2 * 16 + bank.val
    exec (.temperatureRead p celsius) s = .next (read (read s (2 * p.val)) (2 * p.val + 1))
    ∧ (∃ t, exec (.mr4Read c rate hot) s = .next t ∧ t.get (F.MC_TEMP_rate k) = rate.toNat
      ∧ t.eventSet (pgMC k) Ev.MC_temp_high = (s.eventSet (pgMC k) Ev.MC_temp_high || hot)
      ∧ FieldsBut (F.MC_TEMP_rate k :: (if hot then eventFields (pgMC k) Ev.MC_temp_high else [])) s t
      ∧ { t with regs := s.regs, flt := s.flt } = s)
    ∧ (idle → exec (.refresh c bank) s = .next s)
    ∧ (¬idle → exec (.refresh c bank) s = .next (s.setMc k { s.mc k with
      refreshed := tabSet (s.mc k).refreshed key (tabGet (s.mc k).refreshed key 0 + 1) })))
  ∧ (∀ (k ch : Nat) (s : State), k < 16 →
    let m := s.mc k
    let asked := m.retrain = some ch ∨ ch ∈ m.retrainQ ∨ s.memg.retired = some (2 * k + ch)
    (asked → s.retrainAsk k ch = s)
    ∧ (¬asked → s.retrainAsk k ch = (s.setMc k { m with retrainQ := m.retrainQ ++ [ch] }).retrainNext k)
    ∧ (m.retrain ≠ none ∨ m.retrainQ = [] → s.retrainNext k = s)
    ∧ (∀ c l, m.retrain = none → m.retrainQ = c :: l →
      s.retrainNext k = ((s.setMc k { m with retrain := some c, retrainQ := l }).put (F.MC_STATUS_flushing k) 1).mcMode k))
  ∧ (∀ (k : Fin 16) (acc : Acc) (s s2 : State) (w : Word), s.written (pgMC k) 0x020 acc = some (s2, w) → ∀ c ∈ [Instr.retrain k acc, .flush k acc],
    let u := if w.getLsbD 0 then s2.put (F.MC_STATUS_flushing k) 1 else s2
    exec c s = .next (if w.getLsbD 3 ∧ 2 ≤ s2.get (F.MC_STATUS_mode k) then (u.retrainAsk k 0).retrainAsk k 1 else u))
  ∧ (∀ (k : Fin 16) (us : Nat) (s : State),
    let m := s.mc k
    let flushing := s.get (F.MC_STATUS_flushing k) = 1
    (m.retrain = none ∨ flushing → exec (.retrainDone k us) s = .next s)
    ∧ (∀ ch, m.retrain = some ch → ¬flushing →
      let t := s.get (F.MC_TEMP_temp k)
      let s1 := s.setMc k (if ch = 0 then { m with retrain := none, trained0 := toSigned 8 t } else { m with retrain := none, trained1 := toSigned 8 t })
      let s2 := (s1.put (F.MC_TEMP_trained_at k) t).put (F.MC_RETRAIN_count k) (min (s.get (F.MC_RETRAIN_count k) + 1) 65535)
      let s3 := (if s.get (F.MC_RETRAIN_max_us k) < us then s2.put (F.MC_RETRAIN_max_us k) (min us 65535) else s2).raise (pgMC k) Ev.MC_retrain
      exec (.retrainDone k us) s = .next ((s3.retrainNext k).mcMode k).dramRetry)
    ∧ (¬flushing → exec (.flushDone k) s = .next s)
    ∧ (flushing → exec (.flushDone k) s = .next (s.flushEnd k))
    ∧ (let t := s.flushEnd k
      t.get (F.MC_STATUS_flushing k) = 0 ∧ t.get (F.MC_WQ_entries k) = 0 ∧ FieldsBut [F.MC_STATUS_flushing k, F.MC_WQ_entries k] s t
        ∧ { t with regs := s.regs } = s.setMc k { m with
          wq0 := [], wq1 := [], draining := false, cache := m.cache.map fun e => (e.1, e.2.map fun l => { l with dirty := false }) })
    ∧ (m.retiring = none ∨ flushing → exec (.rowRetireDone k) s = .next s)
    ∧ (∀ ch bank row, m.retiring = some (ch, bank, row) → ¬flushing → exec (.rowRetireDone k) s = .next (s.rowRetire k ch bank row).dramRetry))
  ∧ (∀ (k : Fin 16) (ch bank row : Nat) (s : State),
    let m := s.mc k
    let inRow := fun (w : Nat) => decide (dramBase ≤ w * 32 ∧ w * 32 < dramBase + dramBytes) && decide ((s.dramAt (w * 32 - dramBase)).1 = 2 * k.val + ch)
      && decide ((s.dramAt (w * 32 - dramBase)).2 / 32768 = row ∧ (s.dramAt (w * 32 - dramBase)).2 / 2048 % 16 = bank)
    let slots := (List.range 64).find? fun i => !m.entries.any fun e => decide (e.1 = ch * 64 + i)
    let spares := (List.range 104).find? fun i => !(m.sparesUsed ch bank).contains i
    (slots = none ∨ spares = none → s.rowRetire k ch bank row = (s.setMc k { m with retiring := none }).mcMode k)
    ∧ (∀ i sp, slots = some i → spares = some sp →
      let s1 := { s.setMc k { m with
          retiring := none
          remap := tabSet m.remap (ch * 64 + i) (.of (row + 131072 * bank + 2097152 * sp + 2147483648)) } with
        cond := s.cond.map fun (e : Nat × WordCond) => (e.1, if inRow e.1 && e.2 == WordCond.many then WordCond.poison else e.2) }
      let s2 := ((s1.put (F.MC_ROWS_RETIRED_ch0 k) ((s1.mc k).remapCount 0)).put (F.MC_ROWS_RETIRED_ch1 k) ((s1.mc k).remapCount 1)).raise
        (pgMC k) Ev.MC_row_retired
      s.rowRetire k ch bank row = (s2.mcMode k).raiseIf (decide (104 < ((s1.mc k).sparesUsed ch bank).length + 8)) (pgMC k) Ev.MC_spares_low)
    ∧ (m.entries = m.remap.filterMap fun e => if e.2.vote.getLsbD 31 then
        some (e.1, ⟨e.2.vote.toNat % 131072, e.2.vote.toNat / 131072 % 16, e.2.vote.toNat / 2097152 % 128⟩) else none)
    ∧ (m.sparesUsed ch bank = (m.entries.filter fun e => decide (e.1 / 64 = ch ∧ e.2.bank = bank)).map fun e => e.2.spare)
    ∧ (m.remapCount ch = (m.entries.filter fun e => decide (e.1 / 64 = ch)).length)
    ∧ (m.remapped ch bank row = true ↔ ∃ e ∈ m.entries, e.1 / 64 = ch ∧ e.2.bank = bank ∧ e.2.row = row))
  ∧ (∀ (k : Fin 16) (ch x : Nat) (codes : List CodeState) (code : CodeState) (s : State),
    let off := s.get (F.MC_CTRL_scrub_en k) = 0 ∨ s.get (F.MC_STATUS_mode k) < 2
    let g := s.get (F.MC_SCRUB_POS_granule k)
    let s1 := (List.range 32).foldl (fun u i => u.scrubWord k (i / 16) (g * 512 + i % 16 * 32) (codes.getD i .clean)) s
    let gone := s.memg.retired = some (2 * k.val + ch)
    let r := s.scrubbed k ch x
    let c := r.1.bind fun w => tabFind s.cond w
    let m := s.mc k
    let word := fun (y : Nat) => (dramBase + s.dramFrom (2 * k.val + ch) y) / 32
    (off → exec (.patrolScrub k codes) s = .next s)
    ∧ (¬off → g ≠ 8388607 → exec (.patrolScrub k codes) s = .next (s1.put (F.MC_SCRUB_POS_granule k) (g + 1)))
    ∧ (¬off → g = 8388607 → let u := s1.put (F.MC_SCRUB_POS_granule k) 0
      exec (.patrolScrub k codes) s = .next (u.put (F.MC_SCRUB_POS_passes k) (min (u.get (F.MC_SCRUB_POS_passes k) + 1) 255)))
    ∧ (gone ∨ c = some .poison ∨ (c = none ∧ code = .clean) → s.scrubWord k ch x code = s)
    ∧ (¬gone → c = some .many → s.scrubWord k ch x code = s.mcUncorrectable k ch x true)
    ∧ (∀ w b, ¬gone → r.1 = some w → c = some (.one b) → s.scrubWord k ch x code = { s with cond := tabDel s.cond w }.mcCorrected k ch x b.val true)
    ∧ (∀ b : Fin 36, ¬gone → c = none → s.scrubWord k ch x (.one b) = s.mcCorrected k ch x b.val true)
    ∧ (¬gone → c = none → let own := match r.1 with | some w => tabSet s.cond w .many | none => s.cond
      s.scrubWord k ch x .many = { s with cond := r.2.foldl (fun c w => tabSet c w .poison) own }.mcUncorrectable k ch x true)
    ∧ (x < 130968 * 32768 → m.remapped ch (x / 2048 % 16) (x / 32768) = true → r = (none, []))
    ∧ (x < 3638 * 1048576 → m.remapped ch (x / 2048 % 16) (x / 32768) = false → r = (some (word x), []))
    ∧ (3638 * 1048576 ≤ x → x < 130968 * 32768 → m.remapped ch (x / 2048 % 16) (x / 32768) = false →
      r = (none, (List.range 8).map fun i => word ((x - 3638 * 1048576) / 64 * 512 + (x - 3638 * 1048576) % 64 / 32 * 256 + i * 32)))
    ∧ (∀ e, 130968 * 32768 ≤ x → m.entries.find? (fun e => decide (e.1 / 64 = ch ∧ e.2.bank = x / 2048 % 16 ∧ e.2.spare = x / 32768 - 130968)) = some e →
      e.2.row < 116416 → r = (some (word (e.2.row * 32768 + x % 32768)), []))
    ∧ (130968 * 32768 ≤ x → (∀ e ∈ m.entries, e.1 / 64 = ch → e.2.bank = x / 2048 % 16 → e.2.spare ≠ x / 32768 - 130968) → r = (none, [])))

/-- R373, R386 to R398, R578: the memory group and the islands' memories. -/
def Obligations.MemoryService : Prop :=
  (∀ (acc : Acc) (s s2 : State) (w : Word), s.written pgMEMG 0x030 acc = some (s2, w) →
    let c := w.toNat % 32
    let go := w.getLsbD 31 = true
    let back := w.getLsbD 30 = true
    let free := s2.get F.MEMG_SPARE_reserve = 1 ∧ s2.memg.retired = none ∧ s2.memg.copying = none
    let taken := ((({ s2 with memg := { s2.memg with copying := some c } }.put F.MEMG_RETIRE_STATE_channel c).put F.MEMG_RETIRE_STATE_copying 1).put
      F.MEMG_RETIRE_STATE_refused 0).put F.MEMG_RETIRE_STATE_progress 0
    (¬go ∨ back → exec (.channelRetire acc) s = .next s2)
    ∧ (go → ¬back → ¬free → exec (.channelRetire acc) s = .next s2.retireRefused)
    ∧ (go → ¬back → free → exec (.channelRetire acc) s = .next ((taken.put (F.MC_STATUS_flushing (c / 2)) 1).mcMode (c / 2)))
    ∧ (¬go ∨ ¬back → exec (.channelRestore acc) s = .next s2)
    ∧ (go → back → ¬free ∨ s2.get F.MEMG_STATUS_state ≠ 0 → exec (.channelRestore acc) s = .next s2.retireRefused)
    ∧ (go → back → free → s2.get F.MEMG_STATUS_state = 0 →
      exec (.channelRestore acc) s = .next ((s2.channelGone c).put F.MEMG_RETIRE_STATE_refused 0))
    ∧ (let t := s2.retireRefused
      t.get F.MEMG_RETIRE_STATE_refused = 1 ∧ t.eventSet pgMEMG Ev.MEMG_retire_refused = true
        ∧ FieldsBut (F.MEMG_RETIRE_STATE_refused :: eventFields pgMEMG Ev.MEMG_retire_refused) s2 t ∧ { t with regs := s2.regs, flt := s2.flt } = s2))
  ∧ (∀ s : State,
    (s.memg.copying = none → exec .channelCopyDone s = .next s)
    ∧ (∀ c, s.memg.copying = some c →
      let onCh := fun (w : Nat) => decide (dramBase ≤ w * 32 ∧ w * 32 < dramBase + dramBytes) && (s.dramAt (w * 32 - dramBase)).1 == c
      let s1 := { s with cond := s.cond.map fun (e : Nat × WordCond) => (e.1, if onCh e.1 && e.2 == WordCond.many then WordCond.poison else e.2) }
      (s.get (F.MC_STATUS_flushing (c / 2)) = 1 → exec .channelCopyDone s = .next s)
      ∧ (s.get (F.MC_STATUS_flushing (c / 2)) = 0 → exec .channelCopyDone s
        = .next ((s1.put F.MEMG_RETIRE_STATE_progress (31 * 119209984 / 512)).channelGone c))))
  ∧ (∀ (acc : Acc) (drifted : Bool) (s s2 : State) (w : Word), s.written pgMEMG 0x020 acc = some (s2, w) →
    let u := if w.getLsbD 0 then s2.trainStart else s2
    let v := if w.getLsbD 2 then u.parkBegin else u
    exec (.parkRestore acc drifted) s = .next (if w.getLsbD 3 then v.parkBack drifted else v)
    ∧ exec (.parkPrep acc) s = .next (if w.getLsbD 3 then v.parkBack false else v))
  ∧ (∀ (drifted : Bool) (s : State),
    let serves := s.get F.MEMG_STATUS_state = 3 ∨ s.get F.MEMG_STATUS_state = 4
    let m := { s.memg with selfRefresh := false, parkPrep := false, step := if drifted then 2 else 6 }
    let s1 := match s.memg.image with
      | some im => { s with mcs := im.mcs, memg := { m with retired := im.retired } }
      | none => { s with memg := m }
    let s2 := s1.put F.MEMG_STATUS_ready_segments (if drifted then 0 else s.memg.kept.foldl (fun n k => n ||| 2 ^ k) 0)
    let s3 := (List.range 16).foldl (fun u k => ((u.put (F.MC_STATUS_mode k) (if drifted then 1 else 2)).put (F.MC_ROWS_RETIRED_ch0 k)
      ((u.mc k).remapCount 0)).put (F.MC_ROWS_RETIRED_ch1 k) ((u.mc k).remapCount 1)) s2
    (¬serves → s.parkBegin = s)
    ∧ (serves → s.parkBegin = (List.range 16).foldl (fun u k => u.flushEnd k) { s with memg := { s.memg with parkPrep := true } }.mcModes)
    ∧ (s.memg.selfRefresh = false → s.parkBack drifted = s)
    ∧ (s.memg.selfRefresh = true → s.parkBack drifted = (s3.put F.MEMG_STATUS_state (if drifted then 1 else 2)).mcModes.dramRetry))
  ∧ (∀ s : State,
    let ready := s.memg.parkPrep = true ∧ s.get F.MEMG_STATUS_state ≠ 5
    let s1 := s.store (s.addr F.MEMG_SAVE_BASE_LO_base) (imageBytes s.freeCtr)
    let s2 := { s1 with freeCtr := s1.freeCtr + 65536, memg := { s1.memg with image := some ⟨s.mcs, s.memg.retired⟩ } }
    let go := fun (u : State) => if s.get F.PWR_STATE_state = 3 then u.warmGo else u
    (¬ready → exec .parkReady s = .next (go s))
    ∧ (ready → exec .parkReady s = .next (go ((s2.put F.MEMG_STATUS_state 5).raise pgMEMG Ev.MEMG_park_ready))))
  ∧ (∀ (acc : Acc) (s s2 : State) (w : Word), s.written pgMEMG 0x10C acc = some (s2, w) →
    let go := w.getLsbD 31 = true ∧ s2.get F.MEMG_STATUS_state = 3 ∧ s2.memg.testing = []
    (¬go → exec (.memoryTest acc) s = .next s2)
    ∧ (go → exec (.memoryTest acc) s
      = .next { s2 with memg := { s2.memg with testing := (List.range 32).filter fun c => (s2.get F.MEMG_TEST_channels).testBit c } }.mcModes))
  ∧ (∀ (failed : Word) (s : State),
    let l := s.memg.testing
    let fails := ((List.range 32).map fun c => if (if c ∈ l then failed.getLsbD c else (s.get F.MEMG_TEST_FAIL_channels).testBit c) then 2 ^ c else 0).sum
    let s1 := l.foldl State.zeroChannel { s with memg := { s.memg with testing := [] } }
    let s2 := (s1.put F.MEMG_TEST_FAIL_channels fails).raise pgMEMG Ev.MEMG_test_done
    (l = [] → exec (.testDone failed) s = .next s)
    ∧ (l ≠ [] → exec (.testDone failed) s = .next ((l.filter fun c => failed.getLsbD c).foldl State.channelFailed s2).mcModes.dramRetry)
    ∧ (∀ c a, let t := s.zeroChannel c
      let inCh := fun (x : Nat) => dramBase ≤ x ∧ x < dramBase + dramBytes ∧ (s.dramAt (x - dramBase)).1 = c
      cellGet t.mem a = (if inCh a then cellGet [] a else cellGet s.mem a) ∧ tabFind t.cond a = (if inCh (a * 32) then none else tabFind s.cond a)
        ∧ { t with mem := s.mem, cond := s.cond } = s))
  ∧ (∀ (k : Fin 16) (acc : Acc) (s s2 : State) (w : Word), s.written (pgMC k) 0x100 acc = some (s2, w) →
    tabFind s.armedBy (pgMC k) = none → (s.cell (pgMC k) 0x100).wrong = none →
    let h := w.toNat % 128
    let l := w.toNat / 256 % 128
    let ok := 2 ≤ h ∧ h ≤ 64 ∧ l < h
    let reject := F.BLK_STATUS_level_reject (pgMC k)
    exec (.mcSpillWrite k acc) s = .next s2
    ∧ (ok → s2.get (F.MC_SPILL_high k) = h ∧ s2.get (F.MC_SPILL_low k) = l ∧ FieldsBut [F.MC_SPILL_high k, F.MC_SPILL_low k] s s2
      ∧ { s2 with regs := s.regs } = s)
    ∧ (¬ok → s2.get reject = 1 ∧ FieldsBut (reject :: eventFields (pgMC k) 29) s s2 ∧ { s2 with regs := s.regs, flt := s.flt } = s))
  ∧ (∀ (k : Fin 16) (acc : Acc) (s s2 : State) (w : Word), s.written (pgMC k) 0x114 acc = some (s2, w) →
    tabFind s.armedBy (pgMC k) = none → acc.view = .base →
    let m := { s.mc k with remap := tabSet (s.mc k).remap (s.get (F.MC_REMAP_SEL_ch k) * 64 + s.get (F.MC_REMAP_SEL_entry k)) ⟨w, w, w⟩ }
    exec (.mcRemapEntryWrite k acc) s = .next s2
    ∧ (2 ≤ s.get (F.MC_STATUS_mode k) → s2 = s)
    ∧ (s.get (F.MC_STATUS_mode k) < 2 → s2.mcs = tabSet s.mcs k m ∧ s2.get (F.MC_ROWS_RETIRED_ch0 k) = m.remapCount 0 % 128
      ∧ s2.get (F.MC_ROWS_RETIRED_ch1 k) = m.remapCount 1 % 128 ∧ FieldsBut [F.MC_ROWS_RETIRED_ch0 k, F.MC_ROWS_RETIRED_ch1 k] s s2
      ∧ { s2 with regs := s.regs, mcs := s.mcs } = s))
  ∧ (∀ (k : Fin 16) (acc : Acc) (s s2 : State) (w : Word), s.written (pgMC k) 0x11C acc = some (s2, w) →
    let key := s2.get (F.MC_INJECT_ADDR_ch k) * 67108864 + s2.get (F.MC_INJECT_ADDR_unit k)
    let armed := fun (n : Nat) => s2.setMc k { s2.mc k with inject := tabSet (s2.mc k).inject key n }
    (w.getLsbD 0 = false → exec (.mcInjectOneByte k acc) s = .next s2) ∧ (w.getLsbD 0 = true → exec (.mcInjectOneByte k acc) s = .next (armed 1))
    ∧ (w.getLsbD 1 = false → exec (.mcInjectTwoBytes k acc) s = .next s2) ∧ (w.getLsbD 1 = true → exec (.mcInjectTwoBytes k acc) s = .next (armed 2)))
  ∧ (∀ (i : Island) (psr : Bool) (acc : Acc) (s s2 : State) (w : Word),
    let n := islIdx i
    let c := if psr then Instr.psrRead i acc else .norRead i acc
    let busy := if psr then F.PSR_RD_CMD_busy n else F.NOR_RD_CMD_busy n
    let ref := if psr then F.PSR_RD_CMD_refused n else F.NOR_RD_CMD_refused n
    let no := if psr then decide (s2.get busy = 1 ∨ 0x3800000 ≤ s2.get (F.PSR_RD_ADDR_unit n) * 32 ∨ s2.get (F.PSR_STATUS_state n) = 0)
      else decide (s2.get busy = 1 ∨ s2.get (F.NOR_STATUS_state n) = 0
        ∨ (s2.get (F.NOR_STATUS_state n) = 2 ∧ s2.get (F.NOR_RD_ADDR_unit n) * 32 / 0x8000000 = s2.get (F.NOR_STATUS_prog_bank n)))
    s.written (if psr then pgPSR n else pgNOR n) 0x02C acc = some (s2, w) →
    (w.getLsbD 0 = false → exec c s = .next s2)
    ∧ (w.getLsbD 0 = true → ∃ t, exec c s = .next t ∧ t.get ref = (if no then 1 else 0) ∧ t.get busy = (if no then s2.get busy else 1)
      ∧ FieldsBut [busy, ref] s2 t ∧ { t with regs := s2.regs } = s2))
  ∧ (∀ (i : Island) (src : IslRead) (s : State),
    let n := islIdx i
    let word := fun (bs : List Byte) (k : Nat) => fieldAt bs (4 * k) 4
    (src.nor = true → s.get (F.NOR_RD_CMD_busy n) = 0 → exec (.readDone i src) s = .next s)
    ∧ (src.nor = true → s.get (F.NOR_RD_CMD_busy n) = 1 → ∃ t, exec (.readDone i src) s = .next t ∧ t.get (F.NOR_RD_CMD_busy n) = 0
      ∧ (∀ k < 8, t.get (F.NOR_RD_DATA_data n k) = word (tabBytes (s.im n).nor 0xFF#8 (s.get (F.NOR_RD_ADDR_unit n) * 32) 32) k)
      ∧ t.eventSet (pgNOR n) Ev.NOR_read_done = true
      ∧ FieldsBut (F.NOR_RD_CMD_busy n :: (List.range 8).map (F.NOR_RD_DATA_data n) ++ eventFields (pgNOR n) Ev.NOR_read_done) s t
      ∧ { t with regs := s.regs, flt := s.flt } = s)
    ∧ (src.nor = false → s.get (F.PSR_RD_CMD_busy n) = 0 → exec (.readDone i src) s = .next s)
    ∧ (src.nor = false → s.get (F.PSR_RD_CMD_busy n) = 1 →
      let u := s.get (F.PSR_RD_ADDR_unit n)
      let c := match tabFind (s.im n).psramCond u, src.code with
        | some c, _ => some c
        | none, .clean => none
        | none, .one b => some (.one b)
        | none, .many => some .many
      let bad := c = some .many ∨ c = some .poison
      let one := c.any fun x => !x.bad
      ∃ t, exec (.readDone i src) s = .next t ∧ t.get (F.PSR_RD_CMD_busy n) = 0 ∧ t.get (F.PSR_RD_CMD_poisoned n) = (if bad then 1 else 0)
        ∧ (∀ k < 8, t.get (F.PSR_RD_DATA_data n k) = if bad then 0 else word (tabBytes (s.im n).psram 0#8 (u * 32) 32) k)
        ∧ t.get (F.PSR_ERR_corrected n) = min (s.get (F.PSR_ERR_corrected n) + if one then 1 else 0) 65535
        ∧ t.get (F.PSR_ERR_uncorrectable n) = min (s.get (F.PSR_ERR_uncorrectable n) + if c = some .many then 1 else 0) 65535
        ∧ t.eventSet (pgPSR n) Ev.PSR_read_done = true
        ∧ t.eventSet (pgPSR n) Ev.PSR_uncorrectable = (s.eventSet (pgPSR n) Ev.PSR_uncorrectable || c == some .many)
        ∧ FieldsBut ([F.PSR_RD_CMD_busy n, F.PSR_RD_CMD_poisoned n, F.PSR_ERR_corrected n, F.PSR_ERR_uncorrectable n]
            ++ (List.range 8).map (F.PSR_RD_DATA_data n) ++ eventFields (pgPSR n) Ev.PSR_read_done ++ eventFields (pgPSR n) Ev.PSR_uncorrectable) s t
        ∧ { t with regs := s.regs, flt := s.flt } = s))

/-- R401, R404, R406 to R410, R432: PCIE. -/
def Obligations.HostLink : Prop :=
  (∀ (s : State) (page first b : Nat) (write : Bool),
    let w := s.regWord page (first + 4 * (b / 2 ^ 32))
    let a := (w.toNat % 65536) * 2 ^ 32 + b % 2 ^ 32
    let reach := match s.region a with
      | .dram | .hub | .stack _ => true
      | .pool _ => !touchesRedBuf a 1
      | _ => false
    let booting := page = pgPCIE ∧ s.sec.boot.host = true ∧ s.sec.boot.running = false
    let ok := b / 2 ^ 32 < 16 ∧ w.getLsbD 31 = true ∧ w.getLsbD (if write then 25 else 24) = true ∧ reach = true
    (booting → s.aperture page first b write = if write = true ∧ b < 66 * 2 ^ 20 then some (hubBase + b) else none)
    ∧ (¬booting → ok → s.aperture page first b write = some a) ∧ (¬booting → ¬ok → s.aperture page first b write = none))
  ∧ (∀ (t : Tlp) (s : State),
    let s0 := if t.poisoned then s.poisonedIn else s
    let c := Instr.bar2Write t
    (s.hubOff = true → exec c s = .next s)
    ∧ (s.hubOff = false → s0.aperture pgPCIE 0x100 t.offset.toNat true = none → exec c s = .next s0.bar2Refuse)
    ∧ (∀ a, s.hubOff = false → s0.aperture pgPCIE 0x100 t.offset.toNat true = some a →
      (s0.capWindow a = none → exec c s = .next (s0.closeHostData.store a t.data t.poisoned))
      ∧ (∀ w, s0.capWindow a = some w → s0.replaying = true →
        exec c s = .next (s0.put F.JRN_IGNORED_count ((s0.get F.JRN_IGNORED_count + 1) % 2 ^ 32)))
      ∧ (∀ w, s0.capWindow a = some w → s0.replaying = false → exec c s = .next ((s0.capture w a t.data).store a t.data t.poisoned))))
  ∧ (∀ (s : State) (w a : Nat) (bs : List Byte),
    let full := fun (u : State) (n : Nat) => if n = 4096 then u.closeHostData else u
    let joins := fun (e : Nat × Nat × List Byte) => decide (e.1 = w ∧ e.2.1 + e.2.2.length = a ∧ e.2.2.length + bs.length ≤ 4096)
    let start := { s.closeHostData with jrn := { s.closeHostData.jrn with openData := some (w, a, bs) } }
    (∀ e, s.jrn.openData = some e → joins e = true →
      s.capture w a bs = full { s with jrn := { s.jrn with openData := some (w, e.2.1, e.2.2 ++ bs) } } (e.2.2.length + bs.length))
    ∧ (s.jrn.openData.any joins = false → s.capture w a bs = full start bs.length)
    ∧ (let valid := (List.range 8).filter fun n => s.capValid n && decide (s.capBase n ≤ a ∧ a < s.capBase n + s.capSize n)
      s.capWindow a = valid.head?))
  ∧ (∀ (t : Tlp) (s : State),
    let r := fun (a : Nat) => s.load a t.len
    let c := Instr.bar2Read t
    let answer := fun (u : State) (bad : Bool) (bs : List Byte) => { u with out := u.out ++ [⟨.bar2Completion, [t.offset.toNat, if bad then 1 else 0], bs⟩] }
    (s.hubOff = true → exec c s = .next s)
    ∧ (s.hubOff = false → s.aperture pgPCIE 0x100 t.offset.toNat false = none →
      exec c s = .next (answer (s.bar2Refuse.satInc F.PCIE_ERR_poisoned_out) true (List.replicate t.len 0#8)))
    ∧ (∀ a, s.hubOff = false → s.aperture pgPCIE 0x100 t.offset.toNat false = some a →
      exec c s = .next (answer (if (r a).2.2 then (r a).1.satInc F.PCIE_ERR_poisoned_out else (r a).1) (r a).2.2 (r a).2.1)))
  ∧ (∀ s : State,
    (let t := s.poisonedIn;
      t.get F.PCIE_ERR_poisoned_in = min (s.get F.PCIE_ERR_poisoned_in + 1) 255 ∧ t.eventSet pgPCIE Ev.PCIE_poisoned_in = true
        ∧ FieldsBut (F.PCIE_ERR_poisoned_in :: eventFields pgPCIE Ev.PCIE_poisoned_in) s t ∧ { t with regs := s.regs, flt := s.flt } = s)
    ∧ (let t := s.bar2Refuse
      t.get F.PCIE_BAR2_ERR_refused = min (s.get F.PCIE_BAR2_ERR_refused + 1) 65535 ∧ t.eventSet pgPCIE Ev.PCIE_bar2_refused = true
        ∧ FieldsBut (F.PCIE_BAR2_ERR_refused :: eventFields pgPCIE Ev.PCIE_bar2_refused) s t ∧ { t with regs := s.regs, flt := s.flt } = s))
  ∧ (∀ (tag : Nat) (data : List Byte) (s : State),
    let mine := (tabFind s.ext tag).filter fun r => r.host
    let s0 := { s with ext := tabDel s.ext tag }
    let bad := (s0.satInc F.PCIE_ERR_ur_ca).raise pgPCIE Ev.PCIE_ur_ca
    let ok := Instr.hostReadCompletion tag .ok data
    let poisoned := Instr.hostReadCompletion tag .poisoned data
    let fails := [Instr.hostReadCompletion tag .unsupported data, .hostReadCompletion tag .aborted data, .completionTimeout tag]
    (mine = none → exec ok s = .next s ∧ exec poisoned s = .next s ∧ ∀ c ∈ fails, exec c s = .next s)
    ∧ (∀ r, mine = some r →
      let bs := (List.range r.len).map fun k => data.getD k 0#8
      exec ok s = .next ((s0.recordHostRead r bs).extDeliver r bs false)
      ∧ exec poisoned s = .next ((s0.poisonedIn.recordHostRead r bs).extDeliver r bs true)
      ∧ (∀ c ∈ fails, exec c s = .next (bad.readFailed r))))
  ∧ (∀ (r : ExtRead) (bs : List Byte) (bad : Bool) (s : State),
    let zeros := List.replicate r.len 0#8
    let end1 := fun (u : State) => if bad then u.commandFailed r.queue r.index else u.commandDone r.queue r.index (some (digest64 bs))
    (∀ n, r.arr = some n →
      let add := fun (f : Fly) => if r.bits = 0 then { f with lbW := f.lbW ++ segsOf (fun _ => bad) r.dst bs }
        else { f with bitW := f.bitW ++ [⟨r.dst, r.bits, leNat bs, bad⟩] }
      s.extDeliver r bs bad = s.modArr n fun a => a.modFly r.fly fun f => { add f with
        await := f.await - 1
        cause := if bad then 1 else f.cause })
    ∧ (r.arr = none → r.toHost = false → s.extDeliver r bs bad = end1 (s.store r.dst bs bad))
    ∧ (r.arr = none → r.toHost = true → s.extDeliver r bs bad = end1 (s.hostWrite r.dst bs bad))
    ∧ (s.get F.PCIE_STATUS_bus_master = 1 → s.hostWrite r.dst bs bad = { s with out := s.out ++ [⟨.hostWrite, [r.dst, if bad then 1 else 0], bs⟩] })
    ∧ (s.get F.PCIE_STATUS_bus_master = 0 →
      s.hostWrite r.dst bs bad = s.put F.PCIE_ERR_ur_ca (min (s.get F.PCIE_ERR_ur_ca + 1) 255))
    ∧ s.readFailed r = (s.recordHostRead r zeros).extDeliver r zeros true
    ∧ s.recordHostRead r bs = s.record 0x07 2 (r.queue % 65536) r.index (r.queue / 65536 + 65536 * (r.ordinal % 65536)) r.addr bs)
  ∧ (∀ (r : ExtRead) (s : State),
    let s1 := s.modJob r.queue r.index fun j => { j with reads := j.reads + 1 }
    let zeros := List.replicate r.len 0#8
    let found := s.jrnFind fun k => decide (k.kind = 0x07 ∧ k.src = r.queue % 65536 ∧ k.aux0 = r.index
      ∧ k.aux1 = r.queue / 65536 + 65536 * (r.ordinal % 65536))
    (s.replaying = false → s.get F.PCIE_STATUS_bus_master = 1 → s.hostRequest r = { s1 with
        ext := tabSet s1.ext s1.extTag r
        extTag := s1.extTag + 1
        out := s1.out ++ [⟨.hostRead, [s1.extTag, r.addr, r.len], []⟩] })
    ∧ (s.replaying = false → s.get F.PCIE_STATUS_bus_master = 0 → s.hostRequest r = s1.readFailed r)
    ∧ (s.replaying = true → found = none → s.hostRequest r = (s1.replayStop 4).extDeliver r zeros true)
    ∧ (∀ k, s.replaying = true → found = some k →
      (k.data = none → s.hostRequest r = (s1.replayStop 4).extDeliver r zeros true)
      ∧ (∀ bs, k.data = some bs → k.digestOk = false → s.hostRequest r = (s1.replayStop 3).extDeliver r zeros true)
      ∧ (∀ bs, k.data = some bs → k.digestOk = true →
        s.hostRequest r = s1.extDeliver r ((List.range r.len).map fun n => bs.getD n 0#8) false)))
  ∧ (∀ (v : Fin 32) (s : State),
    let p := s.get F.PCIE_MSI_PEND_pending
    let goes := p.testBit v.val = true ∧ s.get F.PCIE_STATUS_bus_master = 1 ∧ s.get F.PCIE_STATUS_link_up = 1
    (¬goes → exec (.msiSend v) s = .next s)
    ∧ (goes → exec (.msiSend v) s = .next { s.put F.PCIE_MSI_PEND_pending (p - 2 ^ v.val) with out := s.out ++ [⟨.msi, [v.val], []⟩] }))
  ∧ (∀ s : State,
    let lost := s.ext.filter fun e => e.2.host
    let kept := { s with
      regs := s.regs.filter fun e => decide (e.1 / 512 ≠ pgPCIE)
      armedBy := tabDel s.armedBy pgPCIE
      cfg := {} }
    let u := lost.foldl (fun (v : State) e => State.readFailed { v with ext := tabDel v.ext e.1 } e.2) kept
    let ids := Config.subsystem (tabGet u.sec.meas 6 [])
    (u.sec.boot.running = false → s.pcieReset = u)
    ∧ (u.sec.boot.running = true → s.pcieReset = { u with cfg := { u.cfg with
      subVendor := ids.extractLsb' 0 16
      subId := ids.extractLsb' 16 16 } })
    ∧ exec .hotReset s = .next s.pcieReset ∧ exec .d3hotExit s = .next s.pcieReset
    ∧ (s.pgood = true → exec .perst s = .next s.pcieReset) ∧ (s.pgood = false → exec .perst s = .next s)
    ∧ exec .pcieLinkDown s = .next ((s.pcieReset.satInc F.PCIE_ERR_link_down).raise pgPCIE Ev.PCIE_link_down)
    ∧ (lost = [] → let t := s.pcieReset;
      (∀ k < 16, t.get (F.PCIE_AP_valid k) = 0) ∧ t.get F.PCIE_STATUS_link_up = 0 ∧ t.get F.PCIE_STATUS_bus_master = 0
      ∧ t.get F.PCIE_MSI_PEND_pending = 0 ∧ PagesBut [pgPCIE] [] s t
      ∧ t.cfg.vendor = 0x1FD7#16 ∧ t.cfg.device = 0x7105#16 ∧ t.cfg.classCode = 0x120000#24 ∧ t.cfg.caps = [.powerManagement, .pciExpress, .msi, .aer, .deviceSerialNumber,
        .dataLinkFeature, .phy16, .phy32, .phy64, .laneMargining, .flitLogging]
      ∧ { t with regs := s.regs, armedBy := s.armedBy, cfg := s.cfg } = s)
    ∧ s.cfgRevision = s.get F.GEN_STEPPING_hub
    ∧ s.cfgSerial = s.get F.GEN_SERIAL_LO_serial + 2 ^ 32 * s.get F.GEN_SERIAL_HI_serial)
  ∧ (∀ (speed : BitVec 3) (width : BitVec 5) (flit master : Bool) (s : State),
    let c := Instr.pcieLinkUp speed width flit master
    (s.hubOff = true → exec c s = .next s)
    ∧ (s.hubOff = false → exec c s = .next ((((((s.put F.PCIE_STATUS_link_up 1).put F.PCIE_STATUS_speed speed.toNat).put F.PCIE_STATUS_width width.toNat).put
      F.PCIE_STATUS_flit (if flit then 1 else 0)).put F.PCIE_STATUS_bus_master (if master then 1 else 0)).raise pgPCIE Ev.PCIE_link_up)))
  ∧ (∀ (acc : Acc) (s s2 : State) (w : Word), s.written pgPCIE 0x160 acc = some (s2, w) →
    (w.getLsbD 0 = false → exec (.pcieRetrain acc) s = .next s2)
    ∧ (w.getLsbD 0 = true → exec (.pcieRetrain acc) s = .next (s2.put F.PCIE_STATUS_link_up 0)))

/-- R411 to R416, R431, R432: links and domain. -/
def Obligations.XagusLinksAndDomain : Prop :=
  (∀ (l : Fin 8) (f : XFrame) (s : State),
    let k := s.xl l.val
    let ahead := (f.seq.toNat + 4096 - (k.lastRx + 1) % 4096) % 4096
    let s1 := s.acceptedFrame l.val f
    let up := s.get (F.XL_STATUS_state l.val) = 2
    let crc := crc16w 64 (xHdr f)
    ∀ p ∈ [(Instr.xagusWrite l f, 1), (.readRequest l f, 2), (.readReturn l f, 3), (.writeAcknowledge l f, 4), (.remoteSignal l f, 5),
      (.signalAcknowledge l f, 6), (.hello l f, 7), (.linkState l f, 8), (.collectiveData l f, 9), (.collectiveControl l f, 10),
      (.twinDigest l f, 11), (.twinControl l f, 12)],
    let mine := f.typ.toNat = p.2 ∨ 12 < f.typ.toNat
    let good := mine ∧ up ∧ f.fecOk = true ∧ f.hcrc = crc ∧ ahead = 0
    let between := good ∧ f.typ.toNat ≤ 12 ∧ p.2 ≠ 7 ∧ p.2 ≠ 8
    (¬mine ∨ ¬up → exec p.1 s = .next s)
    ∧ (mine → up → f.fecOk = false →
      exec p.1 s = .next (((s.satInc (F.XL_FEC_uncorrectable l.val)).raise (48 + l.val) Ev.XL_fec_uncorrectable).xReplay l.val))
    ∧ (mine → up → f.fecOk = true → f.hcrc ≠ crc → exec p.1 s = .next (s.xReplay l.val))
    ∧ (mine → up → f.fecOk = true → f.hcrc = crc → ahead ≠ 0 →
      exec p.1 s = .next (if ahead < 2048 ∧ k.asked = false then s.xReplay l.val else s))
    ∧ (good → 12 < f.typ.toNat → exec p.1 s = .next (s1.xDiscard l.val))
    ∧ (good → f.typ.toNat ≤ 12 → p.2 = 7 ∨ p.2 = 8 → s.get F.XGS_CTRL_enable = 0 → exec p.1 s = .next s1)
    ∧ (between → s.xgs.members = [] → exec p.1 s = .next (s1.xDiscard l.val))
    ∧ (between → s.xgs.members ≠ [] → f.dst.toNat ≠ s.xId →
      (tabFind s.xgs.members f.dst.toNat = none → exec p.1 s = .next (s1.xDiscard l.val))
      ∧ (tabFind s.xgs.members f.dst.toNat ≠ none → exec p.1 s = .next (s1.xSend { f with
        poison := BitVec.ofNat 4 (((List.range 4).zip (xWords f)).map fun (w : Nat × XWord) => if w.2.2 then 2 ^ w.1 else 0).sum }))))
  ∧ (∀ (l : Fin 8) (f : XFrame) (s : State),
    let codes := f.code.take (f.words.toNat + 1)
    let corrected := (codes.filter fun c => c != .clean && c != .many).length
    let bad := (codes.filter fun c => c == .many).length
    let e := F.XL_ERR_corrected l.val
    let n := F.XL_RX_WORDS_count l.val
    (xPayload f.typ.toNat = false → s.xLog l.val f = s)
    ∧ (xPayload f.typ.toNat = true → let t := s.xLog l.val f;
      t.get e = (s.get e + corrected) % e.size ∧ t.get (F.XL_ERR_poisoned l.val) = min (s.get (F.XL_ERR_poisoned l.val) + bad) ((F.XL_ERR_poisoned l.val).size - 1)
      ∧ t.get n = (s.get n + (f.words.toNat + 1)) % 2 ^ 32 ∧ FieldsBut [e, F.XL_ERR_poisoned l.val, n] s t ∧ { t with regs := s.regs } = s)
    ∧ (let d := F.XL_ERR_discarded l.val
      s.xDiscard l.val = s.put d ((s.get d + 1) % 256))
    ∧ (let r := F.XL_ERR_replays l.val
      s.xReplay l.val = { (s.put r (min (s.get r + 1) 4095)).setXl l.val { s.xl l.val with asked := true } with
        out := s.out ++ [⟨.replayRequest, [l.val, ((s.xl l.val).lastRx + 1) % 4096], []⟩] })
    ∧ (∀ k : XLinkSt, let c := f.creditVc.toNat;
      (k.took f).lastRx = f.seq.toNat ∧ (k.took f).asked = false
      ∧ (k.took f).retry = (if k.retry.any fun (g : XFrame) => g.seq == f.ack then (k.retry.dropWhile fun (g : XFrame) => g.seq != f.ack).drop 1 else k.retry)
      ∧ (k.took f).credit = (if f.credits = 0#10 then k.credit else tabSet k.credit c (tabGet k.credit c 0 + f.credits.toNat))
      ∧ (k.took f).owed = tabSet k.owed f.vc.toNat (tabGet k.owed f.vc.toNat 0 + 1)
      ∧ (k.took f).nextTx = k.nextTx ∧ (k.took f).peer = k.peer ∧ (k.took f).moved = k.moved ∧ (k.took f).held = k.held))
  ∧ (∀ (l : Fin 8) (f : XFrame) (s : State),
    let k := s.xl l.val
    let c := k.returns
    let g := { f with
      hcrc := crc16w 64 (xHdr f)
      seq := BitVec.ofNat 12 k.nextTx
      ack := BitVec.ofNat 12 k.lastRx
      creditVc := BitVec.ofNat 2 c.1
      credits := BitVec.ofNat 10 c.2 }
    let left := tabGet k.owed c.1 0 - c.2
    let s1 := s.setXl l.val { k with
      nextTx := (k.nextTx + 1) % 4096
      retry := k.retry ++ [g]
      owed := if left = 0 then tabDel k.owed c.1 else tabSet k.owed c.1 left }
    let n := F.XL_TX_WORDS_count l.val
    let s2 := if xPayload f.typ.toNat then s1.put n ((s1.get n + (f.words.toNat + 1)) % 2 ^ 32) else s1
    let waits := s.get (F.XL_STATUS_state l.val) ≠ 2 ∨ (s.relinking l.val = true ∧ f.typ.toNat ≠ 7 ∧ f.typ.toNat ≠ 8)
    let full := 256 ≤ k.retry.length ∨ k.held ≠ []
    (waits → s.xPut l.val f = s2) ∧ (¬waits → s.xPut l.val f = { s2 with out := s2.out ++ [xFrameOut l.val g] })
    ∧ (full → s.xTransmit l.val f = s.setXl l.val { k with held := k.held ++ [f] }) ∧ (¬full → s.xTransmit l.val f = s.xPut l.val f)
    ∧ s.xDrain l.val = k.held.foldl (fun (u : State) h => u.xTransmit l.val h) (s.setXl l.val { k with held := [] })
    ∧ (tabFind s.xgs.members f.dst.toNat = none → s.xSend f = s)
    ∧ (∀ m, tabFind s.xgs.members f.dst.toNat = some m → s.xSend f = s.xTransmit m.link f))
  ∧ (∀ (l : Fin 8) (f : XFrame) (s : State),
    let s1 := s.acceptedFrame l.val f
    let b := (((xWords f).head?).map (·.1)).getD []
    let p : XPeer := ⟨fieldAt b 0 8, fieldAt b 8 1 % 8, fieldAt b 9 1 % 32, (fieldAt b 10 1).testBit 0, (fieldAt b 10 1).testBit 1,
      fieldAt b 11 1, fieldAt b 12 2⟩
    let old := (s1.xl l.val).peer
    let s2 := if s1.relinking l.val then s1.relinkMet l.val p.serial old else s1
    let r := recOf (frameBytes f)
    let stale := r.1 = s.fuse.serial.toNat ∨ (tabFind s.xgs.recs r.1).any (fun o => decide (r.2.number ≤ o.number)) = true
    (s.awaits l.val 7 f = true → s.get F.XGS_CTRL_enable = 1 → exec (.hello l f) s
      = .next ((((((s2.setXl l.val { s2.xl l.val with peer := some p }).put (F.XL_STATUS_peer_id l.val) p.id).put (F.XL_STATUS_peer_link l.val) p.link).put
          (F.XL_STATUS_peer_valid l.val) 1).put (F.XL_PEER_SERIAL_LO_serial l.val) p.serial).put (F.XL_PEER_SERIAL_HI_serial l.val)
          (p.serial / 2 ^ 32)).floodOwn)
    ∧ (s.awaits l.val 8 f = true → s.get F.XGS_CTRL_enable = 1 → stale → exec (.linkState l f) s = .next s1)
    ∧ (s.awaits l.val 8 f = true → s.get F.XGS_CTRL_enable = 1 → ¬stale → exec (.linkState l f) s
      = .next (State.flood { s1 with xgs := { s1.xgs with recs := tabSet s1.xgs.recs r.1 r.2 } } l.val r.1 r.2)))
  ∧ (∀ s : State,
    let ups := (List.range 8).filter fun l => s.get (F.XL_STATUS_state l) == 2
    let training := (List.range 8).any fun l => s.get (F.XL_STATUS_state l) == 1 && !s.relinking l
    let newer := { s with xgs := { s.xgs with number := s.xgs.number + 1 } }
    let s1 := s.put F.XGS_STATUS_state (if training then 1 else 2)
    (∀ but serial r, s.flood but serial r
      = (ups.filter fun l => l != but).foldl (fun (u : State) l => u.xTransmit l (mkFrame 8 u.xId 0 0 0 (recBytes serial r))) s)
    ∧ s.floodOwn = newer.flood 8 s.fuse.serial.toNat newer.ownRec
    ∧ (s.get F.XGS_CTRL_enable = 0 → s.domainForm = s)
    ∧ (s.get F.XGS_CTRL_enable = 1 →
      s.domainForm = (s1.xUp.foldl (fun (u : State) l => u.xTransmit l (mkFrame 7 u.xId 0 0 0 (u.helloBytes l))) s1).floodOwn))
  ∧ (∀ s : State,
    let own := s.fuse.serial.toNat
    let devs := s.allRecs.filter fun d => (tabFind (xReached s.allRecs own) d.1).isSome
    let ids := xAssign devs
    let made := devs.foldl (fun (t : Tab XMember) d => match tabFind ids d.1 with
      | some i => tabSet t i ⟨d.1, d.2.arith, d.2.twin, (s.routeTo s.allRecs d.1).1, (s.routeTo s.allRecs d.1).2⟩
      | none => t) []
    let lost := s.xgs.members.any fun m => !made.any fun k => k.2.serial == m.2.serial
    let gone := fun i => decide ((tabFind s.xgs.members i).map (·.serial) ≠ (tabFind made i).map (·.serial))
    let s2 := (State.xGone { s with xgs := { s.xgs with members := made } } gone).resend
    let out := State.xGone { s with xgs := { s.xgs with members := [] } } fun _ => true
    (s.get F.XGS_STATUS_state ≠ 2 → exec .domainQuiescent s = .next s)
    ∧ (∀ id, s.get F.XGS_STATUS_state = 2 → tabFind ids own = some id → s.twinConflict devs = false →
      let s3 := ((((s2.put F.XGS_STATUS_state 3).put F.XGS_STATUS_id id).put F.XGS_STATUS_members made.length).put F.XGS_MEMBERS_present
        ((made.map fun m => 2 ^ m.1).sum)).raise pgXGS Ev.XGS_ready
      let s4 := s3.raiseIf lost pgXGS Ev.XGS_member_lost
      exec .domainQuiescent s = .next ((if s4.twinPair && !s.twinPair then s4.twinRestart else s4).takeoverEnd true))
    ∧ (s.get F.XGS_STATUS_state = 2 → tabFind ids own = none ∨ s.twinConflict devs = true → exec .domainQuiescent s
      = .next ((((out.put F.XGS_STATUS_state 4).put F.XGS_MEMBERS_present 0).raise pgXGS Ev.XGS_conflict).takeoverEnd false))
    ∧ (∀ d ∈ devs, ∀ i, tabFind ids d.1 = some i → (tabFind made i).map (fun m => (m.serial, (m.link, m.hops)))
      = some (d.1, s.routeTo s.allRecs d.1))
    ∧ (s.get F.XGS_DOMAIN_twin = 0 → s.twinConflict devs = false)
    ∧ (s.get F.XGS_DOMAIN_twin = 1 → s.twinConflict devs
      = (decide (2 < devs.length) || (List.range 6).any fun l => s.get (F.XL_STATUS_state l) == 2 && (s.xl l).peer.isSome)))
  ∧ (∀ (s : State) (gone : Nat → Bool),
    let reads := s.ext.filter fun e => !e.2.host && gone ((e.2.addr - memberBase 0) / 2 ^ 36)
    let rank := fun (g : List Word) (r : Nat) => ((g.getD (1 + r / 4) 0#32).toNat / 256 ^ (r % 4)) % 32
    let hit := fun (n : Nat) =>
      let g := (tabGet s.xgs.groups (s.peekNat (s.addr F.XGS_COLL_BASE_LO_base + 128 * n) 4 / 256 % 16) []).map (·.vote)
      (List.range ((g.getD 0 0#32).toNat % 64)).any fun r => gone (rank g r)
    s.xGone gone = ((s.xLose gone).xLoseReads gone).xLoseGroups gone
    ∧ s.xLose gone = { s with xgs := { s.xgs with
        outs := s.xgs.outs.filter fun o => !gone o.dst
        lost := s.xgs.lost ++ (s.xgs.outs.filter fun o => gone o.dst).map fun o => (o.queue, o.index, o.slot) } }
    ∧ s.xLoseReads gone = reads.foldl (fun (u : State) e => State.extDeliver { u with ext := tabDel u.ext e.1 } e.2 (List.replicate e.2.len 0#8) true) s
    ∧ s.xLoseGroups gone = { s with xgs := { s.xgs with
        failed := ((s.xgs.said ++ s.xgs.active).filter hit).foldl (fun t n => if (tabFind t n).isNone then tabSet t n 3 else t) s.xgs.failed } })
  ∧ (∀ s : State,
    let step := fun (u : State) (l : Nat) =>
      let k := u.xl l
      if (u.get (F.XL_STATUS_state l) = 2 ∧ k.moved = false) ∨ u.relinking l = true then u
      else ((k.retry ++ k.held).filter fun f => f.typ != 7#6 && f.typ != 8#6).foldl State.xSend (u.setXl l { k with
        retry := []
        held := []
        moved := false })
    s.resend = (List.range 8).foldl step s
    ∧ (∀ l, s.replayFrames l = { s with out := s.out ++ (s.xl l).retry.map (xFrameOut l) })
    ∧ s.twinRestart = { s with twin := { s.twin with
        index := []
        own := []
        theirs := []
        taken := []
        lines := []
        told := []
        absent := 0 } })
  ∧ (∀ (l : Fin 8) (s : State),
    let down := fun (u : State) (v : Nat) =>
      let u1 := ((u.put (F.XL_STATUS_state l.val) v).put (F.XL_STATUS_lanes l.val) 0).put (F.XL_STATUS_peer_valid l.val) 0
      u1.setXl l.val { u1.xl l.val with
        peer := none
        asked := false }
    let alone := fun (u : State) => u.get F.XGS_DOMAIN_twin = 1 ∧ u.get (F.XL_STATUS_state 6) ≠ 2 ∧ u.get (F.XL_STATUS_state 7) ≠ 2
    let on := s.get (F.XL_STATUS_state l.val) = 1 ∨ s.get (F.XL_STATUS_state l.val) = 2
    let n := fun (lanes : BitVec 4) => lanesUsed (lanes &&& ~~~(BitVec.ofNat 4 (s.get (F.XL_LANE_RETIRE_retire l.val))))
    (∀ v, alone (down s v) → s.linkDown l.val v = ((down s v).put F.XGS_TWIN_STATE_state 0).domainForm)
    ∧ (∀ v, ¬alone (down s v) → s.linkDown l.val v = (down s v).domainForm)
    ∧ s.linkTrain l.val = ((s.put (F.XL_STATUS_state l.val) 1).put (F.XL_STATUS_lanes l.val) 0).domainForm
    ∧ (¬on → exec (.xlLinkDown l) s = .next s)
    ∧ (on → s.relinking l.val = false → exec (.xlLinkDown l) s = .next ((s.linkDown l.val 0).raise (48 + l.val) Ev.XL_down))
    ∧ (on → s.relinking l.val = true → exec (.xlLinkDown l) s = .next ((((s.put (F.XL_STATUS_state l.val) 1).put (F.XL_STATUS_lanes l.val) 0).setXl
      l.val { s.xl l.val with asked := false }).raise (48 + l.val) Ev.XL_down))
    ∧ (∀ lanes, s.get (F.XL_STATUS_state l.val) ≠ 1 → exec (.xlTrainingDone l lanes) s = .next s)
    ∧ (∀ lanes, s.get (F.XL_STATUS_state l.val) = 1 → n lanes = 0 → s.relinking l.val = true → exec (.xlTrainingDone l lanes) s = .next s)
    ∧ (∀ lanes, s.get (F.XL_STATUS_state l.val) = 1 → n lanes = 0 → s.relinking l.val = false →
      exec (.xlTrainingDone l lanes) s = .next ((s.linkDown l.val 3).raise (48 + l.val) Ev.XL_down))
    ∧ (∀ lanes, s.get (F.XL_STATUS_state l.val) = 1 → n lanes ≠ 0 →
      let u := (((s.put (F.XL_STATUS_state l.val) 2).put (F.XL_STATUS_lanes l.val) (n lanes)).raise (48 + l.val) Ev.XL_up).raiseIf (decide (n lanes < 4))
        (48 + l.val) Ev.XL_narrowed
      exec (.xlTrainingDone l lanes) s = .next (if s.relinking l.val then u else u.replayFrames l.val).domainForm)
    ∧ lanesUsed 15#4 = 4 ∧ (∀ g : BitVec 4, g ≠ 15#4 → (g.getLsbD 0 ∧ g.getLsbD 1) ∨ (g.getLsbD 2 ∧ g.getLsbD 3) → lanesUsed g = 2)
    ∧ (∀ g : BitVec 4, ¬(g.getLsbD 0 ∧ g.getLsbD 1) → ¬(g.getLsbD 2 ∧ g.getLsbD 3) → lanesUsed g = if g = 0#4 then 0 else 1))
  ∧ (∀ (l : Fin 8) (acc : Acc) (s s2 : State) (w : Word), s.written (48 + l.val) 0x020 acc = some (s2, w) →
    let on := s2.get (F.XL_CTRL_enable l.val)
    (w.getLsbD 0 = true → on = 0 → exec (.xlEnable l acc) s = .next ((s2.put (F.XL_CTRL_enable l.val) 1).linkTrain l.val))
    ∧ (w.getLsbD 0 = false → on = 1 → exec (.xlEnable l acc) s = .next ((s2.put (F.XL_CTRL_enable l.val) 0).linkDown l.val 0))
    ∧ (on = (if w.getLsbD 0 then 1 else 0) → exec (.xlEnable l acc) s = .next s2)
    ∧ (w.getLsbD 1 = true → on = 1 → exec (.xlRetrain l acc) s = .next (s2.linkTrain l.val))
    ∧ (w.getLsbD 1 = false ∨ on = 0 → exec (.xlRetrain l acc) s = .next s2))
  ∧ (∀ (acc : Acc) (s s2 : State) (w : Word), s.written pgXGS 0x020 acc = some (s2, w) →
    let on := s2.get F.XGS_CTRL_enable
    let s3 := if w.getLsbD 0 then (if on = 0 then (s2.put F.XGS_CTRL_enable 1).domainForm else s2)
      else if on = 1 then (s2.put F.XGS_CTRL_enable 0).domainEnd else s2
    let s4 := if w.getLsbD 1 then s3.domainForm else s3
    let s5 := if w.getLsbD 2 then s4.twinRestart else s4
    let tell := w.getLsbD 2 = true ∧ s5.twinPair = true
    ∀ c ∈ [Instr.xgsEnable acc, .rediscover acc, .twinRestart acc], (tell → exec c s = .next (s5.twinFrame 12 (padTo 32 [1#8])))
      ∧ (¬tell → exec c s = .next s5))
  ∧ (∀ s : State,
    let s1 := State.xGone { s with xgs := { s.xgs with
      members := []
      recs := [] } } fun _ => true
    s.domainEnd = ((((s1.put F.XGS_STATUS_state 0).put F.XGS_MEMBERS_present 0).put F.XGS_STATUS_members 0).put F.XGS_TWIN_STATE_state 0).twinRestart)
  ∧ (∀ devs : List (Nat × XRec), (devs.all fun d => decide (d.2.id < 32)) = true →
    ((xAssign devs).map (·.2)).Nodup ∧ (∀ e ∈ xAssign devs, e.2 < 32))

/-- R123, R127, R128, R139, R329, R343, R417 to R419: remote access. -/
def Obligations.RemoteAccess : Prop :=
  (∀ (l : Fin 8) (f : XFrame) (s : State),
    let s1 := s.acceptedFrame l.val f
    let ws := xWords f
    let n := 32 * ws.length
    let src := f.src.toNat
    let unit := f.operand.toNat % 2 ^ 43
    let ack := fun (bad : Bool) => mkFrame 4 s.xId src (unit + if bad then 2 ^ 43 else 0) 0 []
    let bad := fun (a : Nat) => ((List.range ws.length).map fun k => if s1.poisonedAt (a + 32 * k) 32 then 2 ^ k else 0).sum
    (s.awaits l.val 1 f = true → s.forMe f = true →
      (s.remoteAt f.operand n true = none → exec (.xagusWrite l f) s = .next (s1.refusedIn.xSend (ack true)))
      ∧ (∀ a, s.remoteAt f.operand n true = some a → exec (.xagusWrite l f) s
        = .next ((((List.range ws.length).zip ws).foldl (fun (u : State) (w : Nat × XWord) => u.store (a + 32 * w.1) w.2.1 w.2.2) s1).xSend (ack false))))
    ∧ (s.awaits l.val 2 f = true → s.forMe f = true →
      (s.remoteAt f.operand n false = none → exec (.readRequest l f) s
        = .next (s1.refusedIn.xSend (mkFrame 3 s.xId src (unit + 2 ^ 43) (2 ^ ws.length - 1) (List.replicate n 0#8))))
      ∧ (∀ a, s.remoteAt f.operand n false = some a → exec (.readRequest l f) s
        = .next ((s1.load a n).1.xSend (mkFrame 3 (s1.load a n).1.xId src unit (bad a) (s1.load a n).2.1))))
    ∧ (let o := unit * 32 % 2 ^ 36
      let ap := fun (x : Nat) (write : Bool) => s.aperture pgXGS 0x180 x write
      ∀ write, s.remoteAt f.operand n write = ((ap o write).filter fun a => ap (o + n - 1) write == some (a + n - 1)))
    ∧ (let t := s.refusedIn;
      t.get F.XGS_REMOTE_ERR_refused_in = min (s.get F.XGS_REMOTE_ERR_refused_in + 1) 65535
      ∧ t.eventSet pgXGS Ev.XGS_remote_refused = true
      ∧ FieldsBut (F.XGS_REMOTE_ERR_refused_in :: eventFields pgXGS Ev.XGS_remote_refused) s t ∧ { t with regs := s.regs, flt := s.flt } = s)
    ∧ (let t := s.refusedOut;
      t.get F.XGS_REMOTE_ERR_refused_out = min (s.get F.XGS_REMOTE_ERR_refused_out + 1) 65535
      ∧ t.eventSet pgXGS Ev.XGS_remote_refused = true
      ∧ FieldsBut (F.XGS_REMOTE_ERR_refused_out :: eventFields pgXGS Ev.XGS_remote_refused) s t ∧ { t with regs := s.regs, flt := s.flt } = s))
  ∧ (∀ (l : Fin 8) (f : XFrame) (s : State),
    let s1 := s.acceptedFrame l.val f
    let refused := f.operand.getLsbD 43 = true
    let a := memberBase f.src.toNat + (f.operand.toNat % 2 ^ 43 * 32) % 2 ^ 36
    let oldest := s.ext.find? fun e => !e.2.host && e.2.addr == a
    let got := fun (e : Nat × ExtRead) => State.flyWords { s1 with ext := tabDel s1.ext e.1 } e.2 ((xWords f).take (e.2.len / 32))
    s.awaits l.val 3 f = true → s.forMe f = true →
      (oldest = none → exec (.readReturn l f) s = .next s1)
      ∧ (∀ e, oldest = some e → ¬refused → exec (.readReturn l f) s = .next (got e))
      ∧ (∀ e, oldest = some e → refused → exec (.readReturn l f) s = .next (got e).refusedOut))
  ∧ (∀ (r : ExtRead) (ws : List XWord) (s : State),
    (r.arr = none → s.flyWords r ws = s)
    ∧ (∀ n, r.arr = some n → s.flyWords r ws = s.modArr n fun a => a.modFly r.fly fun g => { g with
      lbW := g.lbW ++ ((List.range ws.length).zip ws).map fun (w : Nat × XWord) => ⟨r.dst + 32 * w.1, w.2.1, w.2.2⟩
      await := g.await - 1
      cause := if ws.any (·.2) then 1 else g.cause }))
  ∧ (∀ (l : Fin 8) (f : XFrame) (s : State),
    let s1 := s.acceptedFrame l.val f
    let refused := f.operand.getLsbD 43 = true
    ∀ p ∈ [(Instr.writeAcknowledge l f, 4, false, (f.operand.toNat % 2 ^ 43 * 32) % 2 ^ 36), (.signalAcknowledge l f, 6, true, f.operand.toNat % 4096)],
    let oldest := s.xgs.outs.find? fun o => o.dst == f.src.toNat && (o.signal == p.2.2.1 && o.key == p.2.2.2)
    s.awaits l.val p.2.1 f = true → s.forMe f = true →
      (oldest = none → exec p.1 s = .next s1)
      ∧ (∀ o, oldest = some o → ¬refused → exec p.1 s = .next { s1 with xgs := { s1.xgs with outs := s1.xgs.outs.erase o } })
      ∧ (∀ o, oldest = some o → refused → exec p.1 s = .next (State.refusedOut { s1 with xgs := { s1.xgs with
        outs := s1.xgs.outs.erase o
        lost := s1.xgs.lost ++ [(o.queue, o.index, o.slot)] } })))
  ∧ (∀ (l : Fin 8) (f : XFrame) (s : State),
    let s1 := s.acceptedFrame l.val f
    let o := f.operand.toNat % 4096
    let n := f.operand.toNat / 4096
    let key := f.src.toNat * 4096 + o
    let ack := mkFrame 6 s.xId f.src.toNat o 0 []
    s.awaits l.val 5 f = true → s.forMe f = true →
      (s.replaying = false → exec (.remoteSignal l f) s = .next (((s1.publish 0x08 0 f.src.toNat o n 0).fenceAdd o n).xSend ack))
      ∧ (s.replaying = true → s.get F.JRN_CTRL_domain = 1 → exec (.remoteSignal l f) s
        = .next (State.xSend { s1 with jrn := { s1.jrn with live := tabSet s1.jrn.live key (tabGet s1.jrn.live key 0 + 1) } } ack))
      ∧ (s.replaying = true → s.get F.JRN_CTRL_domain = 0 → exec (.remoteSignal l f) s = .next (s1.xSend ack)))
  ∧ (∀ (n : Arr) (s : State),
    let k := arrNum n
    let i := s.insn k
    let o := refObj i.c
    let d := (s.arr k).operand i.b % 32
    let remote := i.mod.testBit 0 = true
    let sends := s.xOpen k = false ∧ s.xLost k = false
    let mine := s.xgs.members ≠ [] ∧ d = s.xId
    (s.issues k 0x17 = true → s.drained k = false → exec (.fsig n) s = .next s)
    ∧ (s.issues k 0x17 = true → s.drained k = true → ¬remote → exec (.fsig n) s = .next ((s.fenceAdd o i.imm).stepTo k i (s.nextPc k)))
    ∧ (s.issues k 0x17 = true → s.drained k = true → remote →
      (s.xOpen k = true → exec (.fsig n) s = .next s)
      ∧ (s.xOpen k = false → s.xLost k = true → exec (.fsig n) s = .next (s.xLostFault k))
      ∧ (sends → s.xReach d = true → exec (.fsig n) s
        = .next (((s.xSend (mkFrame 5 s.xId d (o + 4096 * i.imm) 0 [])).xSent k d true o).stepTo k i (s.nextPc k)))
      ∧ (sends → s.xReach d = false → mine → exec (.fsig n) s = .next ((s.fenceAdd o i.imm).stepTo k i (s.nextPc k)))
      ∧ (sends → s.xReach d = false → ¬mine → exec (.fsig n) s = .next (s.slotFault k 1)))
    ∧ (s.get (F.ARR_STATE_state k) ≠ 1 ∨ (s.arr k).wait = .none → exec (.fenceDone n) s = .next s)
    ∧ (∀ kind, s.get (F.ARR_STATE_state k) = 1 → (s.arr k).wait = .fence kind →
      let done := if kind = 0 then (s.arr k).flights = [] else s.drained k = true ∧ (kind = 3 → s.xOpen k = false)
      (¬done → exec (.fenceDone n) s = .next s)
      ∧ (done → kind = 3 → s.xLost k = true → exec (.fenceDone n) s = .next (s.xLostFault k))
      ∧ (done → kind ≠ 3 ∨ s.xLost k = false → exec (.fenceDone n) s = .next (s.release k (s.nextPc k)))))
  ∧ (∀ (n : Nat) (s : State),
    let own := s.xOwner n
    (s.arrJob n = none → own = (0, 0, 0)) ∧ (∀ j, s.arrJob n = some j → own = (j.queue, j.index, (s.arr n).slot))
    ∧ s.xOpen n = s.xgs.outs.any (fun o => (o.queue, o.index, o.slot) == own) ∧ s.xLost n = s.xgs.lost.contains own
    ∧ s.xLostFault n = State.slotFault { s with xgs := { s.xgs with lost := s.xgs.lost.filter fun x => x != own } } n 1
    ∧ (∀ dst signal key, s.xSent n dst signal key
      = { s with xgs := { s.xgs with outs := s.xgs.outs ++ [⟨own.1, own.2.1, own.2.2, dst, signal, key⟩] } })
    ∧ (let t := s.missCount;
      t.get F.MEMG_UNMAPPED_count = min (s.get F.MEMG_UNMAPPED_count + 1) (F.MEMG_UNMAPPED_count.size - 1) ∧ t.eventSet pgMEMG Ev.MEMG_unmapped = true
      ∧ FieldsBut (F.MEMG_UNMAPPED_count :: eventFields pgMEMG Ev.MEMG_unmapped) s t ∧ { t with regs := s.regs, flt := s.flt } = s)
    ∧ (∀ d dst ps base, s.xReadRuns n d dst ps base = ps.foldl (fun (u : State) (p : Nat × Nat) => State.xSend { u with
        ext := tabSet u.ext u.extTag ⟨false, some n, (u.arr n).nextId - 1, 0, 0, 0, p.1, 32 * dst + (p.1 - base), 32 * p.2, false, 0⟩
        extTag := u.extTag + 1 } { mkFrame 2 u.xId d (p.1 / 32) 0 [] with words := BitVec.ofNat 2 (p.2 - 1) }) s)
    ∧ (∀ d src ps base, s.xWriteRuns n d src ps base = ps.foldl (fun (u : State) (p : Nat × Nat) =>
        let ws := (u.arr n).wordsAt (src + (p.1 - base) / 32) p.2
        let bad := ((List.range ws.length).zip ws).map fun (w : Nat × XWord) => if w.2.2 then 2 ^ w.1 else 0
        (u.xSend (mkFrame 1 u.xId d (p.1 / 32) bad.sum (ws.flatMap (·.1)))).xSent n d false (p.1 % 2 ^ 36)) s))
  ∧ (∀ (n : Arr) (s : State),
    let k := arrNum n
    let a := s.arr k
    let i := s.insn k
    let src := a.operand i.a
    let dst := a.lbWord i.d
    let len := 32 * i.imm
    let pieces := fun (x : Nat) => (List.range ((i.imm + 3) / 4)).map fun p => (x + 128 * p, min 4 (i.imm - 4 * p))
    let zeros := { emptyFly with
      wr := [(dst, i.imm)]
      lbW := segsOf (fun _ => true) (32 * dst) (List.replicate len 0#8) }
    let ldOk := src % 32 = 0 ∧ s.badRange src len = false ∧ lbFits dst i.imm = true ∧ a.accepts [] [(dst, i.imm)] = true
    let into := a.operand i.d
    let frm := a.lbWord i.a
    let stOk := into % 32 = 0 ∧ s.badRange into len = false ∧ lbFits frm i.imm = true ∧ a.accepts [(frm, i.imm)] [] = true
    let out := { emptyFly with
      rd := [(frm, i.imm)]
      cause := if a.rangeBad (32 * frm) len then 1 else 0 }
    (∀ d, s.issues k 0x20 = true → ldOk → s.region src = .member d →
      (s.xAlone = true → exec (.ld n) s = .next ((s.markJob k).moveFly k i zeros))
      ∧ (s.xAlone = false → s.xReach d = false → exec (.ld n) s = .next (s.missCount.moveFly k i zeros))
      ∧ (s.xAlone = false → s.xReach d = true → exec (.ld n) s = .next ((s.moveFly k i { emptyFly with
        wr := [(dst, i.imm)]
        await := (i.imm + 3) / 4 }).xReadRuns k d dst (pieces src) src)))
    ∧ (s.issues k 0x20 = true → ldOk → s.region src = .doorbell → exec (.ld n) s = .next (s.moveFly k i { emptyFly with
      wr := [(dst, i.imm)]
      lbW := segsOf (fun _ => false) (32 * dst) ((List.range i.imm).flatMap fun w => (List.range 8).flatMap fun q =>
        leBytes 4 (s.doorbellIndex ((src + 32 * w - doorbellBase) / 4 + q))) }))
    ∧ (∀ d, s.issues k 0x21 = true → stOk → s.region into = .member d →
      (s.xReach d = true → exec (.st n) s = .next ((s.xWriteRuns k d frm (pieces into) into).moveFly k i out))
      ∧ (s.xReach d = false → exec (.st n) s = .next (s.missCount.moveFly k i out)))
    ∧ (s.xAlone = (s.replaying && s.get F.JRN_CTRL_domain != 1)))

/-- R420 to R429: collectives and the twin pair. -/
def Obligations.CollectivesAndTwin : Prop :=
  (∀ (n : Fin 64) (s : State),
    let b := s.collSlot n.val
    let w := fieldAt b 0x20 2
    let met := w.testBit 15 = false ∨ fieldAt b 0x28 8 ≤ s.fence (w % 4096)
    let due := n.val ∈ s.xgs.go ∧ met
    let members := (s.group (csGroup b)).getD []
    let others := members.filter fun i => i != s.xId
    let say := s.collSay b 0
    let s1 := if n.val ∈ s.xgs.said then s else s.collTake n.val members b 0
    let open1 := due ∧ s.collOwnCause b = 0 ∧ tabFind s1.xgs.failed n.val = none
    let all := members.map fun i => if i = s.xId then say else tabGet s1.xgs.heard (32 * n.val + i) []
    let there := open1 ∧ others.all s1.xReach = true
    let heard := there ∧ (others.all fun i => (tabFind s1.xgs.heard (32 * n.val + i)).isSome) = true
    let ends := fun (t : State) => exec (.collectiveStart n) s = .next t
    (¬due → ends s)
    ∧ (due → s.collOwnCause b ≠ 0 → ends ((s.collTake n.val members b (s.collOwnCause b)).collAbort n.val (s.collOwnCause b)))
    ∧ (∀ c, due → s.collOwnCause b = 0 → tabFind s1.xgs.failed n.val = some c → ends (s1.collAbort n.val c))
    ∧ (open1 → others.all s1.xReach = false → ends (s1.collAbort n.val 3))
    ∧ (there → (others.all fun i => (tabFind s1.xgs.heard (32 * n.val + i)).isSome) = false → ends s1)
    ∧ (heard → collGroupCause say all ≠ 0 → ends (s1.collAbort n.val (collGroupCause say all)))
    ∧ (heard → collGroupCause say all = 0 → ends (s1.collBegin n.val members say)))
  ∧ (∀ (n : Nat) (members : List Nat) (b : List Byte) (cause : Nat) (s : State),
    let a := s.collAt n
    let s1 := (s.pokeNat a 4 (csControl b / 2 * 2)).pokeNat (a + 4) 4 (fieldAt b 4 4 / 2 * 2)
    let s2 := { s1 with xgs := { s1.xgs with said := s1.xgs.said ++ [n] } }
    let kept := members.foldl (fun (t : Tab (List Byte)) i => match tabFind t (32 * n + i) with
      | some x => tabSet (tabDel t (32 * n + i)) (2048 + 32 * n + i) x
      | none => t) s.xgs.heard
    let s3 := { s with xgs := { s.xgs with
      heard := tabSet kept (2048 + 32 * n + s.xId) b
      go := s.xgs.go.erase n
      said := s.xgs.said.erase n
      active := s.xgs.active ++ [n] } }
    let part := fun (u : State) (m : Nat × Nat) =>
      let c := contribution b m.1
      let r := u.collRead c.1 c.2
      if csOp b = 3 ∧ m.1 ≠ 0 then u else if m.2 = u.xId then r.1.collNote n m.2 0 false r.2 else r.1.collSend n m.2 false r.2
    s.collTake n members b cause = s2.collTell n members (s2.collSay b cause)
    ∧ (∀ p, s.collTell n members p = (members.filter fun i => i != s.xId).foldl (fun (u : State) i => u.xSend (mkFrame 10 u.xId i n 0 p)) s)
    ∧ s.collSay b cause = bytesAt b 0 0x38 ++ leBytes 4 (s.get F.GEN_FW_REV_arith_rev) ++ leBytes 4 cause
    ∧ s.collBegin n members b = ((List.range members.length).zip members).foldl part s3
    ∧ s.collAbort n cause = { s.collFail n cause with xgs := { (s.collFail n cause).xgs with
      go := s.xgs.go.erase n
      said := s.xgs.said.erase n
      active := s.xgs.active ++ [n] } }
    ∧ (tabFind s.xgs.failed n = none → s.collFail n cause = { s with xgs := { s.xgs with failed := tabSet s.xgs.failed n cause } })
    ∧ (tabFind s.xgs.failed n ≠ none → s.collFail n cause = s)
    ∧ (∀ member first result (ws : List XWord), s.collNote n member first result ws = { s with xgs := { s.xgs with
      data := tabSet s.xgs.data n (tabGet s.xgs.data n [] ++ ((List.range ws.length).zip ws).map fun (w : Nat × XWord) =>
        ⟨result, member, first + w.1, w.2.1, w.2.2⟩) } })
    ∧ (∀ x, s.collRead x 0 = (s, []))
    ∧ (∀ x k, s.collRead x (k + 1)
      = (((s.collRead x k).1.load (x + 32 * k) 32).1, (s.collRead x k).2 ++ [((s.collRead x k).1.load (x + 32 * k) 32).2]))
    ∧ (∀ dst result (ws : List XWord), s.collSend n dst result ws = (List.range ((ws.length + 3) / 4)).foldl (fun (u : State) k =>
        let p := (ws.drop (4 * k)).take 4
        let bad := ((List.range p.length).zip p).map fun (w : Nat × XWord) => if w.2.2 then 2 ^ w.1 else 0
        u.xSend (mkFrame 9 u.xId dst (n + (if result then 64 else 0) + 128 * (4 * k)) bad.sum (p.flatMap (·.1)))) s))
  ∧ (∀ (b : List Byte) (s : State),
    let m := s.group (csGroup b)
    let rank := m.bind fun l => l.idxOf? s.xId
    let merge := 1 ≤ csSize b ∧ csSize b ≤ 1024 ∧ 1 ≤ csQueries b ∧ csQueries b ≤ 65536 ∧ 1 ≤ csTotal b ∧ csTotal b ≤ 65536 ∧ 1 ≤ csCount b
    (rank = none → s.collOwnCause b = 2)
    ∧ (∀ l r, m = some l → rank = some r →
      let inside := s.inMemory (csSrc b) (csSourceBytes b l.length) = true ∧ (csHolds b r = true → s.inMemory (csDst b) (csResultBytes b l.length) = true)
      (csSizeOk b = false → s.collOwnCause b = 1) ∧ (csSizeOk b = true → ¬inside → s.collOwnCause b = 6)
      ∧ (csSizeOk b = true → inside → s.collOwnCause b = 0))
    ∧ (csSizeOk b = decide ((csOp b = 1 ∧ csSize b % 32 = 0) ∨ (csOp b = 2 ∧ csSize b % 8 = 0) ∨ (csOp b = 3 ∧ merge)))
    ∧ (∀ all : List (List Byte),
      let same := ∀ x ∈ all, bytesAt x 0 4 = bytesAt b 0 4 ∧ bytesAt x 0x18 8 = bytesAt b 0x18 8 ∧ bytesAt x 0x34 4 = bytesAt b 0x34 4
      let tiles := (∀ t < csTotal b, (all.filter fun x => decide (csFirst x ≤ t ∧ t < csFirst x + csCount x)).length = 1)
        ∧ (all.map csCount).sum = csTotal b
      let rev := ∀ x ∈ all, bytesAt x 0x38 4 = bytesAt b 0x38 4
      (¬same → collGroupCause b all = 1) ∧ (same → csOp b ≠ 3 → collGroupCause b all = 0) ∧ (same → csOp b = 3 → ¬tiles → collGroupCause b all = 4)
      ∧ (same → csOp b = 3 → tiles → ¬rev → collGroupCause b all = 5) ∧ (same → csOp b = 3 → tiles → rev → collGroupCause b all = 0)))
  ∧ (∀ (l : Fin 8) (f : XFrame) (s : State),
    let s1 := s.acceptedFrame l.val f
    let b := frameBytes f
    let n := f.operand.toNat % 64
    let told := fieldAt b 0x3C 4
    (s.awaits l.val 10 f = true → s.forMe f = true → told = 0 → exec (.collectiveControl l f) s
      = .next { s1 with xgs := { s1.xgs with heard := tabSet s1.xgs.heard (32 * n + f.src.toNat) b } })
    ∧ (s.awaits l.val 10 f = true → s.forMe f = true → told ≠ 0 → exec (.collectiveControl l f) s = .next (s1.collFail n (told % 16)))
    ∧ (s.awaits l.val 9 f = true → s.forMe f = true → exec (.collectiveData l f) s
      = .next (s1.collNote n f.src.toNat (f.operand.toNat / 128) (f.operand.getLsbD 6) (xWords f))))
  ∧ (∀ (n : Fin 64) (s : State),
    let b := tabGet s.xgs.heard (2048 + 32 * n.val + s.xId) []
    let members := (s.group (csGroup b)).getD []
    let result := s.collResult n.val b members
    let on := n.val ∈ s.xgs.active
    let failed := tabFind s.xgs.failed n.val
    (¬on → exec (.collectiveDone n) s = .next s)
    ∧ (∀ c, on → failed = some c → exec (.collectiveDone n) s = .next ((s.collEnd n.val (3 + 4 * (c % 16))).raise pgXGS Ev.XGS_coll_fail))
    ∧ (on → failed = none → result = none → exec (.collectiveDone n) s = .next s)
    ∧ (∀ ws, on → failed = none → result = some ws →
      let s1 := ((List.range ws.length).zip ws).foldl (fun (u : State) (w : Nat × XWord) => u.store (csDst b + 32 * w.1) w.2.1 w.2.2) s
      let all := csOp b = 3 ∧ csAll b = true ∧ members.head?.getD 0 = s.xId
      let s2 := if all then (members.drop 1).foldl (fun (u : State) i => u.collSend n.val i true ws) s1 else s1
      exec (.collectiveDone n) s = .next (s2.collEnd n.val (1 + if ws.any (·.2) then 64 else 0))))
  ∧ (∀ (n status : Nat) (s : State),
    let b := s.collSlot n
    let sig := fieldAt b 0x22 2
    let s1 := s.pokeNat (s.collAt n + 4) 4 status
    let s2 := if sig.testBit 15 then s1.fenceAdd (sig % 4096) (fieldAt b 0x24 4) else s1
    let c := F.XGS_COLL_COUNT_count
    s.collEnd n status = { s2.put c ((s2.get c + 1) % 2 ^ 32) with xgs := { s2.xgs with
      active := s2.xgs.active.erase n
      data := tabDel s2.xgs.data n
      failed := tabDel s2.xgs.failed n
      heard := s2.xgs.heard.filter fun e => e.1 < 2048 + 32 * n || 2048 + 32 * n + 32 ≤ e.1 } })
  ∧ (∀ (n : Nat) (b : List Byte) (members : List Nat) (s : State),
    let ws := tabGet s.xgs.data n []
    let rank := (members.idxOf? s.xId).getD 0
    let held := fun (i : Nat) => tabGet s.xgs.heard (2048 + 32 * n + i) []
    (csOp b = 1 → s.collResult n b members = (members.mapM fun i => collWords ws false i (csSize b / 32)).map List.flatten)
    ∧ (csOp b = 2 → s.collResult n b members
      = (members.mapM fun i => collWords ws false i (csSize b / 8)).map fun _ => (List.range (csSize b / 8)).map (reduceWord b ws members))
    ∧ (csOp b = 3 → rank = 0 → s.collResult n b members
      = (members.mapM fun i => collWords ws false i (csQueries b * csCount (held i) * ((csSize b + 9) / 8))).map fun _ =>
          (List.range (csQueries b)).flatMap (s.mergeQuery n b ws members))
    ∧ (csOp b = 3 → rank ≠ 0 → csAll b = true → s.collResult n b members
      = collWords ws true (members.head?.getD 0) (csQueries b * ((csSize b + 9) / 8)))
    ∧ (csOp b = 3 → rank ≠ 0 → csAll b = false → s.collResult n b members = some [])
    ∧ (∀ (data : List CollWord) (idx k : Nat), k < 8 →
      let got := fun (i : Nat) => ((collWord data false i idx).map fun w => (w.bytes, w.bad)).getD ([], true)
      let order := if csExact b ∨ csInt b then members else sortByKey (fun i => arrivalOf data i idx) members
      let lanes := order.map fun i => fieldAt (got i).1 (4 * k) 4
      let lane := fieldAt (reduceWord b data members idx).1 (4 * k) 4
      (csInt b = true → lane = ofInt 32 (max (-2 ^ 31) (min (2 ^ 31 - 1) ((lanes.map (toSigned 32)).sum))))
      ∧ (csInt b = false → csExact b = true → lane = (tree addN ⟨0, 0⟩ (lanes.map fun x => ⟨x, 0⟩)).val % 2 ^ 32)
      ∧ (csInt b = false → csExact b = false → lane = (lanes.drop 1).foldl fAdd (lanes.headD 0) % 2 ^ 32)
      ∧ (reduceWord b data members idx).2 = order.any fun i => (got i).2)
    ∧ (∀ (rev : Nat) (x y : Stretch),
      let m := (f32max x.m y.m).val
      let weight := fun (v : Nat) => if v = 0xFF800000 then 0 else Config.expD rev (fSub v m)
      mergeStretch rev x y = ⟨m, fAdd (fMul x.l (weight x.m)) (fMul y.l (weight y.m)),
        (x.o.zip y.o).map fun p => fAdd (fMul p.1 (weight x.m)) (fMul p.2 (weight y.m)), x.bad || y.bad⟩))
  ∧ (∀ (n : Nat) (b : List Byte) (ws : List CollWord) (members : List Nat) (q : Nat) (s : State),
    let d := csSize b
    let w := (d + 9) / 8
    let rev := s.get F.GEN_FW_REV_arith_rev
    let parts := members.flatMap fun i =>
      let a := tabGet s.xgs.heard (2048 + 32 * n + i) []
      (List.range (csCount a)).map fun t => (csFirst a + t, i, (q * csCount a + t) * w)
    let word := fun (p : Nat × Nat × Nat) (k : Nat) => ((collWord ws false p.2.1 (p.2.2 + k)).map fun x => (x.bytes, x.bad)).getD ([], true)
    let stretch := fun (t : Nat) => (parts.find? fun p => p.1 == t).map fun p => stretchOf d ((List.range w).map (word p))
    let last := fun (t : Nat) => ((parts.find? fun p => p.1 == t).map fun p =>
      ((List.range w).map fun k => arrivalOf ws p.2.1 (p.2.2 + k)).foldl max 0).getD 0
    let empty : Stretch := ⟨0xFF800000, 0, List.replicate d 0, false⟩
    let arrived := (sortByKey last (List.range (csTotal b))).filterMap stretch
    (csExact b = true → s.mergeQuery n b ws members q = (tree (mergeStretch rev) empty ((List.range (csTotal b)).filterMap stretch)).words d)
    ∧ (csExact b = false → s.mergeQuery n b ws members q = ((arrived.drop 1).foldl (mergeStretch rev) (arrived.headD empty)).words d))
  ∧ (∀ (a n : Nat) (s : State),
    let b := s.addr F.XGS_COLL_BASE_LO_base
    let meets := s.get F.XGS_CTRL_enable = 1 ∧ a < b + 8192 ∧ b < a + n
    let new := (List.range 64).filter fun k =>
      decide (a ≤ b + 128 * k ∧ b + 128 * k < a + n) && (s.peekNat (b + 128 * k) 1).testBit 0 && !s.xgs.go.contains k && !s.xgs.active.contains k
    (¬meets → s.collGo a n = s) ∧ (meets → s.collGo a n = { s with xgs := { s.xgs with go := s.xgs.go ++ new } }))
  ∧ (∀ (slot number flags digest : Nat) (s : State),
    let i := (tabGet s.twin.index slot 0 + 1) % 2 ^ 32
    let bad := (flags.testBit 1 && (flags.testBit 4 || flags.testBit 5)) || s.twin.jobFault || s.twin.islFault
    let r : TwinRes := ⟨slot, i, number, flags, digest, bad⟩
    let s1 := { s with twin := { s.twin with
      index := tabSet s.twin.index slot i
      own := s.twin.own ++ [r] } }
    let s2 := if bad then s1.twinFrame 12 (padTo 32 (leBytes 4 2 ++ leBytes 4 slot ++ leBytes 4 i)) else s1
    let frame := fun (typ : Nat) (p : List Byte) => mkFrame typ s.xId (1 - s.xId) 0 0 p
    (s.twinPair = true → s.twinSlot slot = true → s.twinSend slot number flags digest = s2.twinFrame 11 (twinBytes r))
    ∧ (s.twinPair = false ∨ s.twinSlot slot = false → s.twinSend slot number flags digest = s)
    ∧ (∀ typ p, s.twinFrame typ p = (s.xTransmit 6 (frame typ p)).xTransmit 7 (frame typ p)))
  ∧ (∀ (l : Fin 8) (f : XFrame) (s : State),
    let s1 := s.acceptedFrame l.val f
    let b := (((xWords f).head?).map (·.1)).getD []
    let k := fieldAt b 0 4 % 64
    let i := fieldAt b 8 4
    let fresh := s.twinPair = true ∧ (xWords f).all (fun w => !w.2) = true ∧ (tabFind s.twin.taken k).all (fun t => decide (t.1 < i)) = true
    let r : TwinRes := ⟨k, i, fieldAt b 0xC 4, fieldAt b 4 4, fieldAt b 0x10 8, twinBadFlags (fieldAt b 4 4)⟩
    let kind := fieldAt b 0 4
    (s.awaits l.val 11 f = true → s.forMe f = true →
      (s.replaying = true → exec (.twinDigest l f) s = .next (s1.put F.JRN_IGNORED_count ((s.get F.JRN_IGNORED_count + 1) % 2 ^ 32)))
      ∧ (s.replaying = false → ¬fresh → exec (.twinDigest l f) s = .next s1)
      ∧ (s.replaying = false → fresh → exec (.twinDigest l f) s = .next ((s1.publish 0x09 0 k r.number 0 r.digest).twinTake r)))
    ∧ (s.awaits l.val 12 f = true → s.forMe f = true →
      (kind = 1 → exec (.twinControl l f) s = .next s1.twinRestart)
      ∧ (kind = 2 → exec (.twinControl l f) s
        = .next { s1 with twin := { s1.twin with told := s1.twin.told ++ [(fieldAt b 4 4 % 64, fieldAt b 8 4)] } })
      ∧ (kind ≠ 1 → kind ≠ 2 → exec (.twinControl l f) s = .next s1)))
  ∧ (∀ (r : TwinRes) (s : State),
    let c := some (r.index, r.digest)
    let s1 := { s with twin := { s.twin with
      theirs := s.twin.theirs ++ [r]
      taken := tabSet s.twin.taken r.slot (r.index, r.digest) } }
    s.twinTake r = (s1.pathsDiffer c (tabFind s.twin.lines r.slot)).pathsDiffer c (tabFind s.twin.lines (64 + r.slot))
    ∧ (∀ a b : Option (Nat × Nat), let differ := a.any fun x => b.any fun y => x.1 == y.1 && x.2 != y.2;
      (differ = false → s.pathsDiffer a b = s) ∧ (differ = true → s.pathsDiffer a b = s.raise pgXGS Ev.XGS_twin_path)))
  ∧ (∀ (slot : Fin 64) (index : Word) (s : State),
    let k := slot.val
    let n := index.toNat
    let mine := s.twin.own.find? fun r => r.slot == k && r.index == n
    let theirs := s.twin.theirs.find? fun r => r.slot == k && r.index == n
    let told := s.twin.told.contains (k, n)
    let s1 := { s with twin := { s.twin with
      own := s.twin.own.filter fun r => r.slot != k || n < r.index
      theirs := s.twin.theirs.filter fun r => r.slot != k || n < r.index
      told := s.twin.told.filter fun p => p != (k, n)
      absent := 0 } }
    (mine = none ∨ theirs = none → exec (.twinCompare slot index) s = .next s)
    ∧ (∀ a b, mine = some a → theirs = some b → a.digest = b.digest → exec (.twinCompare slot index) s = .next (s1.twinAgree k n))
    ∧ (∀ a b, mine = some a → theirs = some b → a.digest ≠ b.digest →
      exec (.twinCompare slot index) s = .next (s1.twinMismatch k n a.fault (b.fault || told))))
  ∧ (∀ (slot index : Nat) (s : State),
    let c := F.XGS_TWIN_AGREE_count
    let s1 := (((s.put c ((s.get c + 1) % 2 ^ 32)).put F.XGS_TWIN_LAST_SLOT_slot slot).put F.XGS_TWIN_LAST_INDEX_index index).put F.XGS_TWIN_STATE_state 1
    let s2 := (((s1.put (F.XGS_TWIN_ARRAYS_used 0) 0).put (F.XGS_TWIN_ARRAYS_used 1) 0).put (F.XGS_TWIN_ARRAYS_used 2) 0).put (F.XGS_TWIN_ARRAYS_used 3) 0
    let s3 := { s2 with twin := { s2.twin with
      jobFault := false
      islFault := false
      absent := 0
      agreed := tabSet s2.twin.agreed slot index } }
    let s4 := if s.twin.withdrawn then s3.streamsBack else s3
    let detail := fun (o : Nat) => leBytes 4 slot ++ leBytes 4 index ++ leBytes 4 o
    let dropped := s.pairDrop slot index
    s.twinAgree slot index = (s4.bothWrite 6 0 0xFF 0 (detail 0)).pairEmit slot index
    ∧ (∀ mine yours : Bool,
      let told := ((s.put F.XGS_TWIN_STATE_mismatches (min (s.get F.XGS_TWIN_STATE_mismatches + 1) 255)).raise pgXGS Ev.XGS_twin_mismatch).bothWrite 6 0 0xFF 0
        (detail (1 + (if mine then 1 else 0) + if yours then 2 else 0))
      (mine = true → yours = false → s.twinMismatch slot index mine yours = (told.pairDrop slot index).streamsOut)
      ∧ (mine = false → yours = true → s.twinMismatch slot index mine yours = told.pairEmit slot index)
      ∧ (mine = yours → s.twinMismatch slot index mine yours = told.twinHold slot index))
    ∧ (let held := dropped.put F.XGS_TWIN_STATE_state (if dropped.get F.XGS_TWIN_STATE_state = 2 ∨ dropped.get F.XGS_TWIN_STATE_state = 3 then 3 else 2);
      s.twinHold slot index = held.islandsUp.foldl (fun (a : State) i => a.twinSlots.foldl (fun (b : State) k => b.fallbackStart i k) a) held)
    ∧ s.pairEmit slot index = s.islandsUp.foldl (fun (u : State) i =>
      match (u.popWait i slot index).2 with
      | some m => (u.popWait i slot index).1.planTake i m
      | none => (u.popWait i slot index).1) s
    ∧ dropped = s.islandsUp.foldl (fun (u : State) i => (u.popWait i slot index).1) s)
  ∧ (∀ (i slot index : Nat) (s : State),
    let v := s.island i
    let here := v.waits.find? fun w => w.msg.slot == slot && w.index == index
    (here = none → s.popWait i slot index = (s, none))
    ∧ (∀ w, here = some w → s.popWait i slot index
      = (s.modIsl i fun v => { v with waits := v.waits.filter fun x => x.msg.slot != slot || index < x.index }, some w.msg)))
  ∧ (∀ s : State,
    let u := [0, 1].foldl (fun (a : State) i => (List.range 64).foldl (fun (b : State) k =>
      if b.get (F.ISL_SLOT_mode i k) = 3 then b.put (F.ISL_SLOT_mode i k) 1 else b) a) s
    let v := s.islandsUp.foldl (fun (a : State) i => (a.twinSlots.foldl (fun (b : State) k => b.put (F.ISL_SLOT_mode i k) 3) a).fallbackShow i) s
    s.streamsBack = { u with twin := { u.twin with withdrawn := false } } ∧ s.streamsOut = { v with twin := { v.twin with withdrawn := true } }
    ∧ s.twinSlots = s.routedSlots.filter s.twinSlot
    ∧ (∀ k, s.twinSlot k = (s.get F.XGS_TWIN_SLOTS_LO_slots + 2 ^ 32 * s.get F.XGS_TWIN_SLOTS_HI_slots).testBit k))
  ∧ (∀ (slot : Fin 64) (s : State),
    let k := slot.val
    let oldest := s.twin.own.find? fun r => r.slot == k
    let here := fun (r : TwinRes) => s.twin.theirs.any fun t => t.slot == k && t.index == r.index
    let n := s.twin.absent + 1
    (oldest = none → exec (.twinAbsent slot) s = .next s)
    ∧ (∀ r, oldest = some r → here r = true → exec (.twinAbsent slot) s = .next s)
    ∧ (∀ r, oldest = some r → here r = false →
      let s1 := { s.raise pgXGS Ev.XGS_twin_absent with twin := { s.twin with
        own := s.twin.own.erase r
        absent := n } }
      let detail := leBytes 4 k ++ leBytes 4 r.index ++ leBytes 4 4
      let fall := fun (u : State) => u.islandsUp.foldl (fun (a : State) i => if a.get (F.ISL_SLOT_mode i k) = 3 then a.fallbackStart i k else a) u
      (n < 3 → exec (.twinAbsent slot) s = .next (fall ((s1.bothWrite 6 0 0xFF 0 detail).pairDrop k r.index)))
      ∧ (3 ≤ n → exec (.twinAbsent slot) s
        = .next (fall (((s1.put F.XGS_TWIN_STATE_state 0).bothWrite 6 0 0xFF 0 detail).pairEmit k r.index)))))
  ∧ (∀ (i : Island) (slot : Fin 64) (index : Word) (digest : DWord) (s : State),
    let c := (index.toNat, digest.toNat)
    (s.islUp (islIdx i) = false → exec (.islandTwinDigest i slot index digest) s = .next s)
    ∧ (s.islUp (islIdx i) = true → exec (.islandTwinDigest i slot index digest) s
      = .next (State.pathsDiffer { s with twin := { s.twin with lines := tabSet s.twin.lines (64 * islIdx i + slot.val) c } } (some c)
          (tabFind s.twin.taken slot.val))))

/-- R434 to R438, R442, R448, R450, R451: the island pair, event records. -/
def Obligations.IslandPair : Prop :=
  (∀ (i : Island) (bad : Bool) (s : State),
    let k := islIdx i
    let p := 1 - k
    let there := s.islUp k = true ∧ s.islUp p = true ∧ (s.island p).driving = true
    let s1 := { s.put (F.ISL_STATE_peer_ok k) 1 with out := s.out ++ [⟨.pairLine, [k], []⟩] }
    let s2 := if s.get (F.ISL_STATE_state k) = 1 then s1.put (F.ISL_STATE_state k) 2 else s1
    (¬there → exec (.heartbeat i bad) s = .next s) ∧ (there → bad = false → exec (.heartbeat i bad) s = .next s2)
    ∧ (there → bad = true → exec (.heartbeat i bad) s = .next (s2.peerDown k)) ∧ exec (.peerDown i) s = .next (s.peerDown k))
  ∧ (∀ (k : Nat) (s : State),
    let v := s.island k
    let stands := v.running = true ∧ v.driving = true ∧ (s.get (F.ISL_STATE_state k) = 1 ∨ s.get (F.ISL_STATE_state k) = 2)
    let s1 := (((s.put (F.ISL_STATE_peer_ok k) 0).islLevel k Ev.ISL_peer_down true).reduced k true).modIsl k fun v => { v with peerFail := some v.time }
    let again := v.peerFail.any fun t => decide (v.time - t < 10000000)
    (¬stands → s.peerDown k = s)
    ∧ (stands → again = true → s.peerDown k = ((s1.put (F.ISL_STATE_state k) 3).modIsl k fun v => { v with peerGone := true }).statusFrame k)
    ∧ (stands → again = false → s.peerDown k = (((s1.put (F.ISL_STATE_state k) 4).islWrite k 4 0 0xFF 8 []).islRestart (1 - k)).statusFrame k)
    ∧ (∀ on : Bool, s.reduced k on = (s.put (F.ISL_STATE_reduced_independence k) (if on then 1 else 0)).islLevel k Ev.ISL_reduced_independence on)
    ∧ (let gone := { s with
        regs := s.regs.filter fun e => decide (e.1 / 512 ≠ pgISL k)
        armedBy := tabDel s.armedBy (pgISL k) };
      s.islRestart k = ((gone.put (F.PSR_STATUS_state k) 0).put (F.NOR_STATUS_state k) 0).setIsl k { ({} : IslSt) with
        time := v.time
        seq := v.seq
        recs := v.recs
        frs := v.frs
        powerOns := v.powerOns
        modTimes := v.modTimes
        repairSeq := v.repairSeq
        cold := v.cold
        critical := v.critical }))
  ∧ (∀ (i : Island) (s : State),
    let k := islIdx i
    let p := 1 - k
    let v := s.island k
    let w := s.island p
    let waits := s.get (F.ISL_STATE_state k) = 4 ∧ s.islUp k = true ∧ s.islUp p = true
    let back := fun (u : State) (j : Nat) =>
      (((u.put (F.ISL_STATE_state j) 2).put (F.ISL_STATE_peer_ok j) 1).reduced j false).islLevel j Ev.ISL_peer_down false
    let s1 := s.setIsl p { w with
      timers := v.timers.map fun t => { t with
        release := w.time - (v.time - t.release)
        expiry := w.time + t.expiry - v.time }
      kept := v.kept.map fun e => (e.1, { e.2 with since := w.time - (v.time - e.2.since) })
      waits := v.waits
      seq := v.seq }
    (¬waits → exec (.peerReturn i) s = .next s)
    ∧ (waits → exec (.peerReturn i) s = .next (((back (back s1 k) p).timersShow p).modIsl k fun v => { v with testing := false }))
    ∧ (s.get (F.ISL_STATE_state k) ≠ 4 → exec (.peerReturnTimeout i) s = .next s)
    ∧ (s.get (F.ISL_STATE_state k) = 4 → exec (.peerReturnTimeout i) s = .next ((s.put (F.ISL_STATE_state k) 3).modIsl k fun v => { v with
      peerGone := true
      testing := false })))
  ∧ (∀ (i : Island) (peerToo : Bool) (s : State),
    let k := islIdx i
    let p := 1 - k
    let gone := fun (u : State) (j : Nat) => (u.put (F.ISL_STATE_hub_link j) 0).islLevel j Ev.ISL_hub_link_down true
    let up := s.islUp k = true
    let alone := peerToo = true ∨ s.islUp p = false
    (¬up → exec (.hubLinkLoss i peerToo) s = .next s)
    ∧ (up → alone → exec (.hubLinkLoss i peerToo) s = .next ((if s.islUp p then gone (gone s k) p else gone s k).allWantModule 1))
    ∧ (up → ¬alone → exec (.hubLinkLoss i peerToo) s = .next (((((gone s k).put (F.ISL_OUTPUTS_can0 k) 0).put (F.ISL_OUTPUTS_can1 k) 0).put
        (F.ISL_OUTPUTS_eth k) 0).modIsl k fun v => { v with driving := false }))
    ∧ (¬up → exec (.lockstepMismatch i) s = .next s) ∧ (up → exec (.lockstepMismatch i) s = .next (s.islRestart k)))
  ∧ (∀ (i : Island) (peer ref : Int) (s : State),
    let k := islIdx i
    let show16 := fun (x : Int) => ((max (-32768) (min 32767 x)) % 65536).toNat
    let s1 := (s.put (F.ISL_CLOCK_peer_ppm k) (show16 peer)).put (F.ISL_CLOCK_ref_ppm k) (show16 ref)
    let far := 10000 < peer.natAbs ∨ 10000 < ref.natAbs
    (s.islUp k = false → exec (.clockCheck i peer ref) s = .next s)
    ∧ (s.islUp k = true → ¬far → exec (.clockCheck i peer ref) s = .next s1)
    ∧ (s.islUp k = true → far → exec (.clockCheck i peer ref) s
      = .next (s1.islWrite k 8 2 0xFF 0 (leBytes 2 (show16 peer) ++ leBytes 2 (show16 ref)))))
  ∧ (∀ (i kind sev page bit : Nat) (detail : List Byte) (flags : Nat) (s : State),
    let v := s.island i
    let open1 := kind = 4 ∨ 6 ≤ kind ∨ (kind = 3 ∧ page = pgPLAN) ∨ (kind = 2 ∧ detail = [])
    let d := if open1 then Config.recordDetail kind page bit detail else detail
    (v.running = false → s.islWrite i kind sev page bit detail flags = s)
    ∧ (v.running = true → s.islWrite i kind sev page bit detail flags
      = s.islPut i kind sev (eventRecord v.seq kind sev page bit v.time s.jrnPos d (flags + 2 ^ (i + 1))))
    ∧ s.bothWrite kind sev page bit detail = (s.islWrite 0 kind sev page bit detail).islWrite 1 kind sev page bit detail
    ∧ (let warned := fun (v : IslSt) => { v with warn := v.warn || v.running };
      s.bothWarn kind page bit detail = ((s.bothWrite kind 1 page bit detail).modIsl 0 warned).modIsl 1 warned)
    ∧ (∀ seq time pos, let r := eventRecord seq kind sev page bit time pos detail flags;
      r.length = 64 ∧ fieldAt r 0 4 = seq % 2 ^ 32 ∧ fieldAt r 4 1 = kind % 256 ∧ fieldAt r 5 1 = sev % 256 ∧ fieldAt r 6 1 = page % 256
      ∧ fieldAt r 7 1 = bit % 256 ∧ fieldAt r 8 8 = time % 2 ^ 64 ∧ fieldAt r 16 8 = pos % 2 ^ 64 ∧ bytesAt r 24 32 = bytesAt detail 0 32
      ∧ fieldAt r 56 4 = flags % 2 ^ 32 ∧ fieldAt r 60 4 = 0))
  ∧ (∀ (i kind sev : Nat) (r : List Byte) (s : State),
    let v := s.island i
    let ring := 1 ≤ sev ∨ kind = 2 ∨ kind = 3 ∨ kind = 4 ∨ 6 ≤ kind
    let recs := if ring then v.recs + 1 else v.recs
    let s1 := s.setIsl i { v with
      seq := v.seq + 1
      recs := recs
      frs := v.frs + 1
      critical := if sev = 3 then v.critical + 1 else v.critical }
    let s2 := s1.psramPut i (0x200000 + 64 * (v.frs % 884736)) r
    let s3 := if ring then (s2.psramPut i (0x10000 + 64 * (v.recs % 15360)) r).faultHeader i else s2
    let s4 := ((s3.put (F.PSR_FR_HEAD_unit i) (2 * ((v.frs + 1) % 884736))).put (F.PSR_FR_HEAD_wraps i) (min ((v.frs + 1) / 884736) 255)).put
      (F.PSR_FAULT_COUNT_records i) (min recs 15360)
    let s5 := (s4.put (F.ISL_EVENT_SEQ_seq i) v.seq).putData (pgISL i) 0x060 r
    let q := if i = 0 then 0x300 else 0x380
    let s6 := if 1 ≤ sev ∧ (s5.queue q).hasRoom = true then s5.ringEntry q (bytesAt r 0 24 ++ List.replicate 8 0#8) else s5
    (sev < 2 → s.islPut i kind sev r = s6) ∧ (2 ≤ sev → s.islPut i kind sev r = { s6 with twin := { s6.twin with islFault := true } })
    ∧ s.faultHeader i = s.psramPut i 0 ([0x56#8, 0x46#8, 0x52#8, 0x31#8] ++ leBytes 4 1 ++ leBytes 8 s.fuse.serial.toNat ++ leBytes 4 v.powerOns
      ++ leBytes 4 (v.recs % 15360) ++ leBytes 4 (v.recs / 15360))
    ∧ (∀ page off, s.putData page off r
      = (List.range 8).foldl (fun (u : State) k => u.putWord page (off + 4 * k) (BitVec.ofNat 32 (fieldAt r (4 * k) 4))) s))
  ∧ (∀ (i a : Nat) (bs : List Byte) (s : State),
    let s1 := (partialWords a bs.length).foldl (fun (u : State) w => u.psrLog i (tabFind (s.im i).psramCond w)) s
    let bytes := (List.range bs.length).foldl (fun (t : Tab Byte) k =>
      if bs.getD k 0#8 = 0#8 then tabDel t (a + k) else tabSet t (a + k) (bs.getD k 0#8)) (s.im i).psram
    s.psramPut i a bs = { s1 with islMem := tabSet s.islMem i { s.im i with
      psram := bytes
      psramCond := condWrite (s.im i).psramCond a bs.length false } }
    ∧ (∀ n, s.psramAt i a n = tabBytes (s.im i).psram 0#8 a n)
    ∧ (∀ b, s.psrLog i (some (.one b)) = s.put (F.PSR_ERR_corrected i) (min (s.get (F.PSR_ERR_corrected i) + 1) 65535))
    ∧ s.psrLog i (some .many) = (s.put (F.PSR_ERR_uncorrectable i) (min (s.get (F.PSR_ERR_uncorrectable i) + 1) 65535)).raise (pgPSR i) Ev.PSR_uncorrectable
    ∧ s.psrLog i (some .poison) = s ∧ s.psrLog i none = s)
  ∧ (∀ (i : Island) (bit : Fin 32) (on : Bool) (s : State),
    let t := s.islLevel (islIdx i) bit on
    t.eventSet (57 + islIdx i) bit = on ∧ FieldsBut (eventFields (57 + islIdx i) bit) s t ∧ { t with regs := s.regs } = s)
  ∧ (∀ (cause : Nat) (s : State),
    s.allWantModule cause = (s.islandsUp.foldl (fun (u : State) i => u.modIsl i fun v => { v with modDue := setAdd v.modDue cause }) s)
    ∧ s.islandsUp = [0, 1].filter fun i => (s.island i).running)

/-- R20, R66 to R70, R201, R228, R271, R311, R338, R367, R399, R432, R441 to R447, R465 to R467, R471, R497, R544, R558: faults and resets. -/
def Obligations.FaultsAndResets : Prop :=
  (∀ s : State,
    (s.flt = [] → exec .faultForward s = .next s)
    ∧ (∀ e es, s.flt = e :: es →
      let r := eventRecord s.fltNext 1 e.severity e.page e.bit 0 e.position (e.detail.flatMap fun w => leBytes 4 w.toNat)
        ((if e.injected then 1 else 0) + if e.toSia && e.toSib then 8 else 0)
      let n := s.fltLog.length + 1
      let s1 := { s with
        flt := es
        fltLog := (r :: s.fltLog).take 1024
        fltNext := s.fltNext + 1 }
      let s2 := (((s1.put F.FLT_SEQ_seq s.fltNext).put F.FLT_STATUS_entries (min n 1024)).put F.FLT_STATUS_wrapped
        (if 1024 < n then 1 else s.get F.FLT_STATUS_wrapped)).raise pgFLT Ev.FLT_logged
      exec .faultForward s = .next ((s2.deliver 0 e.toSia e).deliver 1 e.toSib e))
    ∧ (∀ i e, let lost := if i = 0 then F.FLT_FORWARD_LOST_sia else F.FLT_FORWARD_LOST_sib;
      s.deliver i false e = s
      ∧ (s.islLink i = true → s.deliver i true e = s.modIsl i fun v => { v with inbox := v.inbox ++ [e] })
      ∧ (s.islLink i = false → s.deliver i true e = (s.put lost (min (s.get lost + 1) 65535)).raise pgFLT Ev.FLT_forward_lost))
    ∧ (∀ i, s.islLink i = (s.islUp i && !(tabGet s.links ((5 + i) * 8) {}).down && !(tabGet s.links (5 + i) {}).down)))
  ∧ (∀ (i : Island) (s : State),
    let k := islIdx i
    ((s.island k).inbox = [] → exec (.islandFaultEvent i) s = .next s)
    ∧ (∀ e es, (s.island k).inbox = e :: es →
      let s1 := s.modIsl k fun v => { v with inbox := es }
      let s2 := s1.islWrite k 1 e.severity e.page e.bit (e.detail.flatMap fun w => leBytes 4 w.toNat)
        ((if e.injected then 1 else 0) + if e.toSia && e.toSib then 8 else 0)
      let silent := e.injected = true ∧ e.act = false
      (s.islUp k = false → exec (.islandFaultEvent i) s = .next s1) ∧ (s.islUp k = true → silent → exec (.islandFaultEvent i) s = .next s2)
      ∧ (s.islUp k = true → ¬silent → exec (.islandFaultEvent i) s = .next (((s2.islAct k e).sumCorrection k e.page e.bit).repairSync k e.page e.bit))))
  ∧ (∀ (i : Nat) (e : FltEvent) (s : State),
    let array := 128 ≤ e.page ∧ e.page < 224
    let die := 96 ≤ e.page ∧ e.page < 100
    let stack := 224 ≤ e.page ∧ e.page < 228 ∧ e.bit = Ev.ST_uncorrectable
    let cause := (e.detail.getD 7 0#32).toNat % 16
    let outs := e.bit = Ev.ARR_lb_uncorrectable ∨ (e.bit = Ev.ARR_fault ∧ (cause = 1 ∨ cause = 4))
    (e.severity = 0 → s.islAct i e = s) ∧ (e.severity = 1 → s.islAct i e = s.modIsl i fun v => { v with warn := true })
    ∧ (e.severity = 2 → array → s.islAct i e = if outs then s.islArrayOut i (e.page - 128) else s)
    ∧ (e.severity = 2 → die → s.islAct i e = if e.bit = Ev.CD_link_down then s.wantDie i (e.page - 96)
        else if e.bit = Ev.CD_uncorrectable then s.dieUncorrectable i (e.page - 96) else s)
    ∧ (e.severity = 2 → stack → s.islAct i e = s.dieUncorrectable i (e.page - 224))
    ∧ (e.severity = 2 → ¬array → ¬die → ¬stack → s.islAct i e = s)
    ∧ (2 < e.severity → pageDie e.page = none → s.islAct i e = s.modIsl i fun v => { v with modDue := setAdd v.modDue 1 })
    ∧ (∀ d, 2 < e.severity → pageDie e.page = some d → s.islAct i e = s.wantDie i d))
  ∧ (∀ (i d : Nat) (s : State),
    let v := s.island i
    let again := (tabFind v.lastBad d).any fun t => decide (v.time - t < 1000000)
    let s1 := s.modIsl i fun v => { v with lastBad := tabSet v.lastBad d v.time }
    (s.cdState d ≤ 2 → s.wantDie i d = s) ∧ (2 < s.cdState d → s.wantDie i d = s.modIsl i fun v => { v with dieDue := setAdd v.dieDue d })
    ∧ s.dieUncorrectable i d = (if again then s1.wantDie i d else s1)
    ∧ (∀ n, let u := (s.modArr n fun a => { a with suspect := true }).setService n false;
      s.suspectArr n = u
      ∧ s.islArrayOut i n = (if u.get (F.ARR_STATE_state n) = 0 then u.put (F.ARR_STATE_state n) 4 else u).islWrite i 4 0 (pgARR n) 3 [])
    ∧ (∀ n (on : Bool), let f := F.CD_ARR_SERVICE_in_service (n / 24);
      let b := s.get f;
      s.setService n on = s.put f (if b.testBit (n % 24) = on then b else if on then b + 2 ^ (n % 24) else b - 2 ^ (n % 24))))
  ∧ (∀ (i page bit : Nat) (s : State),
    let v := s.island i
    let ts := ((tabGet v.corr page []).filter fun t => decide (v.time < t + 3600000000)) ++ [v.time]
    let s1 := s.modIsl i fun v => { v with corr := tabSet v.corr page ts }
    let s2 := (s1.islWrite i 7 1 page bit []).modIsl i fun v => { v with warn := true }
    (isCorrection page bit = false → s.sumCorrection i page bit = s)
    ∧ (isCorrection page bit = true → ts.length ≠ 65 → s.sumCorrection i page bit = s1)
    ∧ (isCorrection page bit = true → ts.length = 65 → s.sumCorrection i page bit = if 128 ≤ page ∧ page < 224 then s2.islArrayOut i (page - 128) else s2)
    ∧ (64 ≤ page → page < 80 → bit = Ev.MC_row_retired → s.repairSync i page bit = s.repairPut1 i (0x100 + 512 * (page - 64))
      ((List.range 128).flatMap fun j => leBytes 4 (((remapOf (tabGet (s.mc (page - 64)).remap j (.of 0)).vote).map remapNat).getD 0)))
    ∧ (page = pgMEMG → bit = Ev.MEMG_retired → s.repairSync i page bit
      = s.repairPut1 i 0 (leBytes 4 ((s.memg.retired.map fun c => c + 2 ^ 31).getD 0)))
    ∧ (48 ≤ page → page < 56 → let r := s.get (F.XL_LANE_RETIRE_retire (page - 48));
      s.repairSync i page bit = if r = s.repairNat i (0x2100 + (page - 48)) 1 then s else s.repairPut1 i (0x2100 + (page - 48)) (leBytes 1 r))
    ∧ (¬(64 ≤ page ∧ page < 80 ∧ bit = Ev.MC_row_retired) → ¬(page = pgMEMG ∧ bit = Ev.MEMG_retired) → ¬(48 ≤ page ∧ page < 56) →
      s.repairSync i page bit = s))
  ∧ (∀ (i off : Nat) (bs : List Byte) (s : State),
    let t := s.psramPut i (0x1000 + off) bs
    let u := t.psramPut i (0x1000 + 0x3FC0) (sha3_512 (t.psramAt i 0x1000 0x3FC0))
    let n := (u.island i).repairSeq + 1
    let a := (1 - u.get (F.ISL_IMAGE_bank i)) * 0x8000000 + 0x7FC0000 + n % 15 * 0x4400
    (s.islUp i = false → s.repairPut1 i off bs = s)
    ∧ (s.islUp i = true → s.repairPut1 i off bs
      = ((u.modIsl i fun v => { v with repairSeq := n }).norPut i a (leBytes 4 n)).norPut i (a + 0x20) (u.psramAt i 0x1000 0x4000))
    ∧ (∀ x, s.norPut i x bs = { s with islMem := tabSet s.islMem i { s.im i with nor := (List.range bs.length).foldl (fun (m : Tab Byte) k =>
        if bs.getD k 0#8 = 0xFF#8 then tabDel m (x + k) else tabSet m (x + k) (bs.getD k 0#8)) (s.im i).nor } })
    ∧ s.repairPut off bs = (s.repairPut1 0 off bs).repairPut1 1 off bs
    ∧ (∀ d p, s.enterRetired d p = s.repairPut (0x2110 + 4 * d) (leBytes 4 (s.retiredMap d ||| 2 ^ p)))
    ∧ (∀ d p c, s.enterCaps d p c = s.repairPut (0x2120 + 26 * d + p) (leBytes 1 (s.capRepair d p ||| c))))
  ∧ (∀ (i : Island) (d : Fin 4) (hottest : Option Int) (syndrome : Line) (s : State),
    let k := islIdx i
    let c := Instr.tapReport i d hottest syndrome
    let there := s.islUp k = true ∧ s.cdState d ≠ 0
    let hot := hottest.any fun t => decide (2000 ≤ t)
    let cool := (hottest.any fun t => decide (t < 1840)) && (s.island k).hot.contains d.val
    let s1 := (s.tapShow (F.ISL_TAP_tap_ok k) d true).islWrite k 2 (if hot then 2 else 0) (pgCD d) 0 (leBytes 32 syndrome.toNat)
    (¬there → exec c s = .next s ∧ exec (.tapKeepaliveLoss i d) s = .next s)
    ∧ (there → hot = true → exec c s = .next (((s1.tapStop k d).tapFence k d).modIsl k fun v => { v with hot := setAdd v.hot d }))
    ∧ (there → hot = false → cool = true → exec c s = .next ((s1.modIsl k fun v => { v with hot := setDel v.hot d }).wantDie k d))
    ∧ (there → hot = false → cool = false → exec c s = .next s1)
    ∧ (there → exec (.tapKeepaliveLoss i d) s = .next (((s.tapShow (F.ISL_TAP_tap_ok k) d false).islWrite k 2 2 (pgCD d) 1 []).wantDie k d)))
  ∧ (∀ (acc : Acc) (s s2 : State) (w : Word),
    let act := s2.get F.FLT_INJECT_act = 1
    let no := act ∧ ((s2.get F.SEC_DEBUG_STATE_scope).testBit 3 = false ∨ s2.get F.FLT_SR_OPEN_open ≠ 0)
    let page := s2.get F.FLT_INJECT_page
    let route := s2.get (F.BLK_FAULT_ROUTE_island page)
    let e : FltEvent := ⟨page, s2.get F.FLT_INJECT_bit, s2.get F.FLT_INJECT_severity, route.testBit 0, route.testBit 1, s2.jrnPos,
      (List.range 8).map fun k => s2.regWord page (0x20 + 4 * k), true, decide act⟩
    (s.written pgFLT 0x020 acc = some (s2, w) →
      exec (.clearLog acc) s = .next (if w.getLsbD 0 then ({ s2 with fltLog := [] }.put F.FLT_STATUS_entries 0).put F.FLT_STATUS_wrapped 0 else s2))
    ∧ (s.written pgFLT 0x100 acc = some (s2, w) →
      (w.getLsbD 31 = false → exec (.fltInject acc) s = .next s2)
      ∧ (w.getLsbD 31 = true → no → exec (.fltInject acc) s = .next (s2.put F.FLT_INJECT_refused 1))
      ∧ (w.getLsbD 31 = true → ¬no → exec (.fltInject acc) s = .next { s2.put F.FLT_INJECT_refused 0 with flt := s2.flt ++ [e] })))
  ∧ (∀ (i : Island) (d : Fin 4) (s : State),
    let k := islIdx i
    let forget := fun (v : IslSt) => { v with dieDue := setDel v.dieDue d.val }
    let s1 := (s.modIsl 0 forget).modIsl 1 forget
    let recent := fun (v : IslSt) => (tabGet v.dieTimes d []).filter fun t => decide (v.time < t + 60000000)
    let due := d.val ∈ (s.island k).dieDue
    let free := 2 < s.cdState d ∧ (s.island 0).modDue = [] ∧ (s.island 1).modDue = []
    let note := fun (u : State) (j : Nat) => ((u.modIsl j fun v => { v with dieTimes := tabSet v.dieTimes d (recent v ++ [v.time]) }).satInc
      (dieResetField j d)).islWrite j 4 0 (pgCD d) 4 []
    let s3 := (((s1.islandsUp.foldl note s1).tapStop k d).tapFence k d).dieReset d
    (¬due → exec (.dieReset i d) s = .next s) ∧ (due → ¬free → exec (.dieReset i d) s = .next s1)
    ∧ (due → free → 2 ≤ (recent (s.island k)).length → exec (.dieReset i d) s
      = .next (s1.islandsUp.foldl (fun (u : State) j => (u.tapFence j d).islWrite j 4 0 (pgCD d) 5 []) s1))
    ∧ (due → free → (recent (s.island k)).length < 2 → exec (.dieReset i d) s
      = .next { s3 with pwr := { s3.pwr with badRails := setDel s3.pwr.badRails d.val } }))
  ∧ (∀ (d : Fin 4) (failures : List (Fin 26 × Fin 12)) (s : State),
    let can := s.cdState d = 1 ∧ s.disc.mismatch = false
    let s1 := (List.range 24).foldl (fun (u : State) a => u.modArr (24 * d.val + a) fun x => { x with suspect := false }) s
    let judge := fun (u : State) (f : Fin 26 × Fin 12) => match u.logicalOf d f.1 with
      | some a => if a < u.fuse.perDie ∧ (u.retiredMap d).testBit f.1 = false then u.partFailed d a f.1 f.2 else u
      | none => u
    let s2 := (failures.foldl judge s1).setCdState d 2
    (¬can → exec (.dieSelfTestDone d failures) s = .next s)
    ∧ (can → exec (.dieSelfTestDone d failures) s
      = .next (State.discFlit { s2 with disc := { s2.disc with tries := tabDel s2.disc.tries d.val } } d)))
  ∧ (∀ (d a p part : Nat) (s : State),
    let n := 24 * d + a
    let cap := if part = 6 then some 1 else if part = 7 then some 2 else if part = 8 then some 4 else none
    let told := fun (u : State) (action : Nat) => (((((u.put F.STEST_LAST_FAIL_die d).put F.STEST_LAST_FAIL_array a).put F.STEST_LAST_FAIL_part part).put
      F.STEST_LAST_FAIL_action action).put F.STEST_LAST_FAIL_valid 1).raise pgSTEST Ev.STEST_test_fail
    (∀ c, cap = some c → s.partFailed d a p part
      = told (((s.putWord (pgARR n) 0x100 (s.regWord (pgARR n) 0x100 ||| BitVec.ofNat 32 c)).capsShow n).enterCaps d p c) 2)
    ∧ (cap = none → s.partFailed d a p part = told (((s.put (F.ARR_STATE_state n) 5).setService n false).enterRetired d p) 1)
    ∧ s.logicalOf d p = (enabledPhys (tabGet s.unitMaps d 0)).findIdx? fun x => x == p)
  ∧ (∀ (i : Island) (cause : BitVec 4) (s : State),
    let k := islIdx i
    let v := s.island k
    let due := s.islUp k = true ∧ cause.toNat ∈ v.modDue
    let none1 := fun (v : IslSt) => { v with modDue := [] }
    let s1 := (s.modIsl 0 none1).modIsl 1 none1
    let recent := fun (v : IslSt) => v.modTimes.filter fun t => decide (v.time < t + 10000000)
    let note := fun (u : State) (j : Nat) => ((u.modIsl j fun v => { v with modTimes := recent v ++ [v.time] }).satInc
      (F.ISL_MODULE_RESETS_count j)).islWrite j 4 0 0xFF 6 []
    let r := (s.islandsUp.foldl note s).moduleReset cause.toNat
    let r2 := if cause = 4#4 then { r with pwr := { r.pwr with held := setAdd r.pwr.held 3 } } else r
    (¬due → exec (.moduleReset i cause) s = .next s)
    ∧ (due → s.sec.boot.trial = true → exec (.moduleReset i cause) s
      = .next { s1 with sec := { s1.sec with boot := { s1.sec.boot with restart := true } } })
    ∧ (due → s.sec.boot.trial = false → (recent v).length < 2 → exec (.moduleReset i cause) s = .next r2)
    ∧ (due → s.sec.boot.trial = false → 2 ≤ (recent v).length → exec (.moduleReset i cause) s = .next r2.moduleFailed))
  ∧ (∀ (cause : Nat) (s : State),
    let w := { s.workEnds with flt := s.flt }
    let kept := fun (a : Nat) => decide (hubBase ≤ a ∧ a < hubBase + 0x6000000)
    let u := s.fusReset.projReset.kvReset.collReset.planReset
    let done := u.jobs.filter fun j => queueKind j.queue == 1 && u.jobOver j
    let fail := fun (a : State) (i : Nat) =>
      let b := (List.range 64).foldl (fun (x : State) n => if x.get (F.ISL_SLOT_mode i n) = 0 then x else x.fallbackStart i n) a
      ((b.put (F.ISL_STATE_state i) 5).islLevel i Ev.ISL_module_failed true).islWrite i 4 0 0xFF 7 []
    let f := s.islandsUp.foldl fail s
    s.moduleReset cause = ((w.hubReset kept).put F.GEN_RESET_CAUSE_cause cause).put F.GEN_RESET_CAUSE_count (min (s.get F.GEN_RESET_CAUSE_count + 1) 255)
    ∧ s.workEnds = (done.foldl (fun (x : State) j => x.jobDone j) u).qengReset
    ∧ s.moduleFailed = { f with pwr := { f.pwr with held := setAdd f.pwr.held 4 } })
  ∧ (∀ (keep : Nat → Bool) (s : State),
    let t := s.hubReset keep
    let z := (s.flt.foldl (fun (u : State) _ => u.faultForward) s).updateLost
    t.mem = (z.mem.filter fun e => keep e.1) ∧ t.cond = (z.cond.filter fun e => keep (32 * e.1)) ∧ t.jobs = [] ∧ t.queues = [] ∧ t.flt = [] ∧ t.fltLog = []
    ∧ t.islMsgs = [] ∧ t.planMsgs = [] ∧ t.xgs = State.reset.xgs ∧ t.twin = State.reset.twin ∧ t.mcs = [] ∧ t.memg = State.reset.memg
    ∧ t.arrs = [] ∧ t.streams = [] ∧ t.fus = State.reset.fus ∧ t.ego = State.reset.ego ∧ t.plan = State.reset.plan ∧ t.coll = State.reset.coll
    ∧ t.links = State.reset.links ∧ t.disc = State.reset.disc ∧ t.dike = State.reset.dike ∧ t.farm = State.reset.farm ∧ t.stest = State.reset.stest
    ∧ t.fuse = s.fuse ∧ t.hubUs = s.hubUs ∧ t.unitMaps = s.unitMaps ∧ t.ident = s.ident ∧ t.accepted = s.accepted ∧ t.pending = s.pending
    ∧ t.islMem = z.islMem ∧ t.pwr.held = s.pwr.held ∧ t.pwr.dips = s.pwr.dips ∧ t.sec.boot = { host := s.fuse.bootSrc } ∧ t.sec.update = none
    ∧ (∀ i, i < 2 → tabFind s.isl i ≠ none → (t.island i).running = (s.island i).running ∧ (t.island i).time = (s.island i).time
      ∧ (t.island i).timers = [] ∧ (t.island i).modDue = [] ∧ (t.island i).dieDue = [] ∧ (t.island i).kept = (z.island i).kept)
    ∧ (∀ p, p < 64 → p ≠ pgSUP → p ≠ pgPWR → p ≠ 57 → p ≠ 58 → p ≠ pgSEC → p ≠ pgPCIE → ∀ o < 512, t.regWord p (4 * o) = State.reset.regWord p (4 * o)))
  ∧ (∀ (acc : Acc) (s s2 : State) (w : Word), s.written pgGEN 0x104 acc = some (s2, w) →
    let p := F.GEN_BLK_RESET_page.ext w
    (w.getLsbD 31 = false → exec (.blockReset acc) s = .next s2)
    ∧ (w.getLsbD 31 = true → s2.blockResetNo p = true → exec (.blockReset acc) s = .next (s2.put F.GEN_BLK_RESET_refused 1))
    ∧ (w.getLsbD 31 = true → s2.blockResetNo p = false →
      exec (.blockReset acc) s = .next (((s2.put F.GEN_BLK_RESET_refused 0).put F.GEN_BLK_RESET_busy 1).blockReset p)))
  ∧ (∀ (page : Nat) (r : PageRun) (s : State), pageRun page = some r →
    let k := page - r.first
    let keep := if r.blk = .arr then fun off => off != 8 && off != 0x10 && off != 0x18 else blockKeeps r.blk
    let s1 := (s.blockEnds r.blk k).clearPage page keep
    s.blockReset page = ((s1.blockShows s r.blk k).put (F.BLK_STATUS_ready page) 0).put (F.BLK_STATUS_in_reset page) 1
    ∧ s1 = { s.blockEnds r.blk k with
      regs := (s.blockEnds r.blk k).regs.filter fun e => decide (e.1 / 512 ≠ page) || keep (e.1 % 512 * 4)
      armedBy := tabDel (s.blockEnds r.blk k).armedBy page })
  ∧ (∀ (k : Nat) (s : State),
    let farm := if s.farm.save.isSome then s.storeRaw (s.addr F.FARM_CKPT_ADDR_LO_addr) (leBytes 4 0) else s
    let flt := s.flt.foldl (fun (u : State) _ => u.faultForward) s
    s.blockEnds .sec k = { s with sec := { s.sec with attest := none } }
    ∧ s.blockEnds .dike k = { s with dike := {} }.put F.GEN_XS_admitted 0
    ∧ s.blockEnds .qeng k = s.qengReset ∧ s.blockEnds .jrn k = s.jrnReset ∧ s.blockEnds .det k = { s with det := {} }
    ∧ s.blockEnds .ing k = s.ingReset ∧ s.blockEnds .csi k = ((((s.frameDrop (4 * k)).frameDrop (4 * k + 1)).frameDrop (4 * k + 2)).frameDrop (4 * k + 3))
    ∧ s.blockEnds .ward k = s.wardReset ∧ s.blockEnds .fus k = s.fusReset ∧ s.blockEnds .proj k = s.projReset
    ∧ s.blockEnds .ego k = { s with
      ego := {}
      egoIn := [] }
    ∧ s.blockEnds .coll k = s.collReset ∧ s.blockEnds .planB k = s.planReset ∧ s.blockEnds .kv k = s.kvReset ∧ s.blockEnds .xgs k = s.xgsReset
    ∧ s.blockEnds .xl k = s.linkDown k 0 ∧ s.blockEnds .pcie k = s.pcieReset ∧ s.blockEnds .flt k = { flt with fltLog := [] }
    ∧ s.blockEnds .stest k = s.stestReset ∧ s.blockEnds .farm k = { farm with farm := { farm.farm with
      save := none
      toldSlow := false } }
    ∧ s.blockEnds .mc k = s.flushEnd k ∧ s.blockEnds .memg k = { s with memg := { s.memg with
      testing := []
      parkPrep := false } }
    ∧ s.blockEnds .arr k = s.arrReset k false
    ∧ (∀ b ∈ [Blk.gen, .disc, .xslot, .pwr, .thm, .sup, .fenceB, .st, .eth, .psr, .nor, .cd, .isl], s.blockEnds b k = s))
  ∧ (∀ s : State,
    let class1 := fun (u : State) (c : Nat) =>
      (u.jobs.filter fun j => j.cls == c && j.stage == .placed).foldl (fun (x : State) j => x.commandFailed j.queue j.index) u
    let refuse := fun (u : State) (port epoch : Nat) => u.poke (u.rfxAt port + 0x180) (Rfx.bytes { refused := true } epoch (u.bytes (u.rfxAt port + 4) 4))
    let c1 := s.coll.running.foldl (fun (u : State) e => refuse u e.2.port e.2.epoch) s
    let c2 := c1.coll.waiting.foldl (fun (u : State) p => refuse u p (s.get F.COLL_EPOCH_epoch)) c1
    let c3 := match c2.coll.building with
      | some b => c2.commandFailed b.2.1 b.2.2
      | none => c2
    let p1 := s.plan.queries.foldl (fun (u : State) q => (u.planStop q.queue q.index 8 q.cmd).planKept q .exhausted) s
    let p2 := match p1.plan.loading with
      | some j => p1.commandFailed j.1 j.2
      | none => p1
    let inKv := (s.arrs.filter fun a => a.2.flights.any fun f => f.kvF.isSome || f.kvS.isSome).map (·.1)
    let k1 := inKv.foldl (fun (u : State) n => (u.slotFault n 2).modArr n fun a => { a with flights := a.flights.map fun f => { f with
      kvF := none
      kvS := none } }) s
    let x1 := (s.xgs.active.foldl (fun (u : State) n => (u.collEnd n 15).raise pgXGS Ev.XGS_coll_fail) s).domainEnd
    let k2 := class1 k1 6
    let p := class1 s 4
    s.fusReset = { s.fusFailAll with fus := { records := s.fusFailAll.fus.records } } ∧ s.projReset = { p with proj := {} }
    ∧ s.collReset = { c3 with coll := {} } ∧ s.planReset = { p2 with plan := {} } ∧ s.kvReset = { k2 with kv := {} }
    ∧ s.jrnReset = { s.closeHostData.replayStop 9 with jrn := {} }
    ∧ s.xgsReset = { x1 with xgs := { x1.xgs with
      groups := []
      go := []
      said := []
      heard := [] } }
    ∧ s.wardReset = { s with streams := s.streams.map fun e => (e.1, { e.2 with
      deferrals := 0
      lastPass := false
      ward := e.2.ward.filter fun w => w.running }) }
    ∧ s.ingReset = ((List.range 128).foldl (fun (u : State) n => if u.streamOn n ∨ (tabFind u.streams n).isSome then
      (u.streamStop n).modStream n fun v => { v with scoreC := .of 0, cause := 0, drops := 0 } else u) s)
    ∧ s.stestReset = ((List.range 4).foldl (fun (u : State) d => (u.sliceLost d).setStDie d { (u.sliceLost d).stDie d with
      chosen := none
      targets := [] }) s))
  ∧ (∀ s : State,
    let js := (s.jobs.filter fun j => queueKind j.queue == 1).foldl (fun l j => insertJob j l) []
    let mine := fun (q i : Nat) => js.any fun j => j.is q i
    let s1 := { s with
      fus := { s.fus with pending := s.fus.pending.filter fun p => !mine p.queue p.index }
      plan := { (s.planDrop fun q => mine q.queue q.index).plan with loading := none }
      coll := { s.coll with building := none }
      ext := s.ext.filter fun e => !mine e.2.queue e.2.index }
    let s2 := (js.foldl (fun (u : State) j => u.qengAbort1 j) s1).fusIdle.projShow.planShow.buildOver
    let off := fun (u : State) (q : Nat) =>
      let v := u.queue q
      if v.enabled = false ∧ v.disabling = false then u
      else (u.store (u.queueAddr q + 0x10) (leBytes 4 v.producer ++ leBytes 4 v.consumer ++ leBytes 4 0
        ++ leBytes 4 (v.cause + if v.faulted then 2 ^ 31 else 0))).setQueue q { v with
          enabled := false
          disabling := false
          inFlight := 0 }
    s.qengReset = { s2.queues.foldl (fun (u : State) e => off u e.1) s2 with
      qPend := []
      qSumm := [] }
    ∧ (∀ j : Job,
      let ns := (j.slots.filter fun k => k.phase == 2).map fun k => 24 * k.die + k.logical
      let gone := fun (u : State) (n : Nat) =>
        let v := ((u.slotFault n 7).dropPins n).slotGone n
        (v.put (F.ARR_STATE_state n) (if v.get (F.ARR_STATE_state n) = 5 then 5 else if (v.arr n).suspect then 4 else 0)).modArr n
          fun a => { a with flights := [] }
      let u := ns.foldl gone s
      let e := { ((u.job j.queue j.index).getD j).ended 0x0A 7 with reports := [(0x0A, 7, 0)] }
      s.qengAbort1 j = (u.setJob { ((u.job j.queue j.index).getD j).ended 0x0A 7 with reports := [(0x0A, 7, 0)] }).jobDone e))

/-- R452 to R462: deadlines, recovery, plan frames, the held fallback and status frames. -/
def Obligations.DeadlinesAndFrames : Prop :=
  (∀ (i : Island) (s : State),
    let k := islIdx i
    (tabGet s.islMsgs k [] = [] → exec (.releaseMessage i) s = .next s ∧ exec (.completionMessage i) s = .next s)
    ∧ (∀ m ms, tabGet s.islMsgs k [] = m :: ms →
      let u := { s with islMsgs := tabSet s.islMsgs k ms }
      (m.release = false → exec (.releaseMessage i) s = .next s) ∧ (m.release = true → exec (.completionMessage i) s = .next s)
      ∧ (m.release = true → exec (.releaseMessage i) s = .next (if s.islUp k then u.timerOpen k m else u))
      ∧ (m.release = false → exec (.completionMessage i) s = .next (if s.islUp k then u.timerClose k m else u))))
  ∧ (∀ (i : Nat) (m : IslMsg) (s : State),
    let ts := (s.island i).timers
    let now := (s.island i).time
    let same := fun (u : IslTimer) => decide (u.queue = m.queue ∧ u.tag = m.tag)
    let fresh : IslTimer := ⟨m.queue, m.tag, m.index, m.deadline, now, now + m.deadline, false, false⟩
    let withTimers := fun (l : List IslTimer) => s.modIsl i fun v => { v with timers := l }
    let shown := fun (l : List IslTimer) => ((withTimers l).put (F.ISL_TIMERS_open i) l.length).putMax (F.ISL_TIMERS_peak i) l.length
    let dip := m.flags.testBit 1
    let clean := (m.status = 0 ∨ m.status = 1) ∧ dip = false ∧ ts.any same = true
    (ts.any same = true → s.timerOpen i m = withTimers (ts.map fun u => if same u then { u with index := m.index } else u))
    ∧ (ts.any same = false → 4096 ≤ ts.length → s.timerOpen i m = s.missJob i fresh)
    ∧ (ts.any same = false → ts.length < 4096 → s.timerOpen i m = shown (ts ++ [fresh]))
    ∧ (clean → s.timerClose i m = shown (ts.filter fun u => !same u))
    ∧ (¬clean → s.timerClose i m = (withTimers (ts.map fun u => if same u then { u with
        dip := u.dip || dip
        dirty := true } else u)).islWrite i 7 0 0xFF 0 (leBytes 4 m.queue ++ leBytes 4 m.tag ++ leBytes 4 m.index ++ leBytes 4 m.status)))
  ∧ (∀ (i : Island) (q : BitVec 20) (tag : Word) (s : State),
    let k := islIdx i
    let same := fun (u : IslTimer) => decide (u.queue = q.toNat ∧ u.tag = tag.toNat)
    ((s.island k).timers.find? same = none → exec (.deadlineMiss i q tag) s = .next s)
    ∧ (∀ u, (s.island k).timers.find? same = some u →
      let l := (s.island k).timers.filter fun t => !same t
      let s1 := s.modIsl k fun v => { v with
        time := max v.time u.expiry
        timers := l }
      exec (.deadlineMiss i q tag) s = .next (((s1.put (F.ISL_TIMERS_open k) l.length).putMax (F.ISL_TIMERS_peak k) l.length).missJob k u)))
  ∧ (∀ (i : Nat) (u : IslTimer) (q : RecQuery) (s : State),
    let job := leBytes 4 u.queue ++ leBytes 4 u.tag ++ leBytes 4 u.index ++ leBytes 4 u.deadline ++ leBytes 8 u.release
    let s1 := (s.satInc (F.ISL_MISSES_jobs i)).islWrite i 3 2 0xFF 0 job
    let s2 := ((List.range 64).filter fun n => s1.routed n).foldl (fun (a : State) n => a.missSlot i n) s1
    s.missJob i u = s2.recoveryQuery i ⟨none, u.queue, u.tag, u.index⟩
    ∧ s.recoveryQuery i q = { s.modIsl i (fun v => { v with queries := v.queries ++ [q] }) with
        out := s.out ++ [(⟨.recoveryQuery, [i, q.queue, q.tag, q.index], []⟩ : Out)] }.raise pgFLT Ev.FLT_recovery_query)
  ∧ (∀ (i : Island) (slot : Fin 64) (s : State),
    let k := islIdx i
    let s1 := ((s.satInc (F.ISL_MISSES_slots k)).islWrite k 3 2 pgPLAN 0 (leBytes 4 slot.val)).missSlot k slot
    let acts := s.islUp k = true ∧ (s.routed slot = true ∨ s.get (F.ISL_SLOT_mode k slot) ≠ 0)
    (¬acts → exec (.slotStale i slot) s = .next s) ∧ (acts → exec (.slotStale i slot) s = .next (s1.recoveryQuery k ⟨some slot.val, 0, 0, 0⟩)))
  ∧ (∀ (i slot : Nat) (s : State),
    let mode := F.ISL_SLOT_mode i slot
    let carries := s.twinPair = true ∧ s.twinSlot slot = true ∧ s.get F.XGS_TWIN_STATE_state = 1 ∧ s.twin.absent = 0
    let fell := fun (u : State) => (List.range 64).any fun n => decide (u.get (F.ISL_SLOT_mode i n) = 2)
    let show1 := fun (u : State) => (u.putB (F.ISL_STATE_fallback i) (fell u)).islLevel i 0 (fell u)
    (s.twinCarries slot = true ↔ carries) ∧ (s.routed slot = (s.get F.PLAN_ISLAND_LO_slots + 2 ^ 32 * s.get F.PLAN_ISLAND_HI_slots).testBit slot)
    ∧ (carries → s.missSlot i slot = { s.put mode 3 with twin := { s.twin with withdrawn := true } })
    ∧ (¬carries → s.missSlot i slot = s.fallbackStart i slot) ∧ (s.get mode = 2 → s.fallbackStart i slot = s)
    ∧ (s.get mode ≠ 2 → s.fallbackStart i slot
      = ((show1 (s.put mode 2)).islWrite i 4 0 0xFF 1 (leBytes 4 slot)).fallbackFrame i slot)
    ∧ s.fallbackEnd i slot = (show1 (s.put mode 1)).islWrite i 4 0 0xFF 2 (leBytes 4 slot))
  ∧ (∀ (i : Island) (s : State),
    let k := islIdx i
    ((s.island k).queries = [] → exec (.recoveryAnswer i) s = .next s ∧ exec (.recoveryTimeout i) s = .next s)
    ∧ (∀ q qs, (s.island k).queries = q :: qs →
      let a := s.recoveryFind q
      let s1 := (((s.put F.FLT_RECOVERY_answer a.1).put F.FLT_RECOVERY_dies a.2.1).put F.FLT_RECOVERY_page a.2.2).put F.FLT_RECOVERY_valid 1
      let s2 := s1.modIsl k fun v => { v with queries := qs }
      let s3 := s1.modIsl k fun v => { v with
        queries := qs
        engine := some a.2.2 }
      (a.1 = 1 → exec (.recoveryAnswer i) s
        = .next ((List.range 4).foldl (fun (u : State) d => if a.2.1.testBit d then u.wantDie k d else u) s2))
      ∧ (a.1 = 2 → exec (.recoveryAnswer i) s
        = .next ({ s3 with out := s.out ++ [(⟨.islandMessage, [k, a.2.2], []⟩ : Out)] }.islWrite k 4 0 a.2.2 9 []))
      ∧ (a.1 = 0 → exec (.recoveryAnswer i) s
        = .next (s2.islWrite k 7 0 pgFLT 0 (leBytes 4 q.queue ++ leBytes 4 q.tag ++ leBytes 4 q.index)))
      ∧ exec (.recoveryTimeout i) s = .next (s.modIsl k fun v => { v with
        queries := qs
        modDue := setAdd v.modDue 1 }))
    ∧ ((s.island k).engine = none → exec (.engineResetTimeout i) s = .next s)
    ∧ (∀ p, (s.island k).engine = some p → exec (.engineResetTimeout i) s = .next (s.modIsl k fun v => { v with
        engine := none
        modDue := setAdd v.modDue 1 })))
  ∧ (∀ (q : RecQuery) (s : State),
    let mine := s.jobs.filter fun j => decide (j.queue = q.queue ∧ j.tag = q.tag ∧ j.stage = .placed)
    let holds := fun (d : Nat) => mine.any fun j => j.slots.any fun k => decide (k.die = d ∧ (k.phase = 1 ∨ k.phase = 2))
    let dies := (List.range 4).filter holds
    let asked := fun (j : Job) => s.plan.queries.any fun p => decide (p.queue = j.queue ∧ p.index = j.index)
    (s.recoveryFind q).1 ≤ 2
    ∧ (∀ n, q.slot = some n → s.recoveryFind q = if s.plan.queries.any fun p => decide (p.slot = n) then (2, 0, pgPLAN) else (0, 0, 0))
    ∧ (q.slot = none → dies ≠ [] → s.recoveryFind q = (1, (dies.map fun d => 2 ^ d).sum, 0))
    ∧ (q.slot = none → dies = [] → (mine.find? fun j => !j.isArray) = none → s.recoveryFind q = (0, 0, 0))
    ∧ (∀ j, q.slot = none → dies = [] → (mine.find? fun j => !j.isArray) = some j → s.recoveryFind q
      = (2, 0, if j.cls = 3 then pgFUS else if j.cls = 4 then pgPROJ else if j.cls = 5 then if asked j then pgPLAN else pgCOLL
        else if j.cls = 6 then pgKV else pgQENG)))
  ∧ (∀ (i : Island) (s : State),
    let k := islIdx i
    (tabGet s.planMsgs k [] = [] → exec (.resultMessage i) s = .next s)
    ∧ (∀ m ms, tabGet s.planMsgs k [] = m :: ms →
      let s1 := { s with planMsgs := tabSet s.planMsgs k ms }
      let run := F.ISL_SLOT_kept_run k m.slot
      let s3 := (s1.modIsl k fun v => { v with lastRes := tabSet v.lastRes m.slot v.time }).put run
        (if m.flags.testBit 1 then min 3 (s.get run + 1) else 0)
      let s4 := if m.index = 0 then s3 else { s3 with out := s3.out ++ [⟨.twinLine, [k, m.slot, m.index], leBytes 8 m.digest⟩] }
      let waits := m.index ≠ 0 ∧ s.twinPair = true ∧ 1 ≤ s.get F.XGS_TWIN_STATE_state ∧ s.get F.XGS_TWIN_STATE_state ≤ 3
        ∧ tabGet s.twin.agreed m.slot 0 ≠ m.index
      (s.islUp k = false → exec (.resultMessage i) s = .next s1)
      ∧ (s.islUp k = true → waits → exec (.resultMessage i) s = .next (s4.modIsl k fun v => { v with waits := v.waits ++ [⟨m.index, m⟩] }))
      ∧ (s.islUp k = true → ¬waits → exec (.resultMessage i) s = .next (s4.planTake k m))))
  ∧ (∀ (i : Nat) (m : PlanMsg) (s : State),
    let valid := m.flags.testBit 0
    let again := m.flags.testBit 1
    let mode := s.get (F.ISL_SLOT_mode i m.slot)
    let s1 := if valid then s.modIsl i fun v => { v with kept := tabSet v.kept m.slot ⟨m.number, m.digest, m.stop, v.time⟩ } else s
    let dip := (s.island i).timers.any fun t => t.dip
    let dirty := (s.island i).timers.any fun t => t.dirty
    let back := valid = true ∧ dip = false ∧ dirty = false
    (mode = 3 ∨ s.routed m.slot = false → s.planTake i m = s1)
    ∧ (mode = 2 → s.routed m.slot = true → s.planTake i m = if back then (s1.fallbackEnd i m.slot).planFrame i m.slot false else s1)
    ∧ (mode < 2 → s.routed m.slot = true → (dip = true ∨ (valid = false ∧ again = false)) → s.planTake i m = s1.put (F.ISL_SLOT_mode i m.slot) 1)
    ∧ (mode < 2 → s.routed m.slot = true → ¬(dip = true ∨ (valid = false ∧ again = false)) →
      s.planTake i m = (s1.put (F.ISL_SLOT_mode i m.slot) 1).planFrame i m.slot again))
  ∧ (∀ (i : Island) (slot : Fin 64) (s : State),
    let k := islIdx i
    let on := s.islUp k = true ∧ s.get (F.ISL_SLOT_mode k slot) = 2
    exec (.fallbackFrame i slot) s = .next (if on then s.fallbackFrame k slot else s)
    ∧ exec (.statusFrame i) s = .next (if s.islUp k then s.frameOut k 0 (s.frameHead k 3 0 0 false false 0 0) [] else s))
  ∧ (∀ (i slot : Nat) (again : Bool) (s : State),
    (tabFind (s.island i).kept slot = none → s.planFrame i slot again = s ∧ s.fallbackFrame i slot = s)
    ∧ (∀ p, tabFind (s.island i).kept slot = some p →
      let len := fieldAt p.stop 0 2
      let n := min 160 (((s.island i).time - p.since) / 50000)
      let first := if n = 160 then len - 1 else n
      let old := s.put (F.ISL_SLOT_sample i slot) n
      s.planFrame i slot again = s.frameOut i slot (s.frameHead i 1 slot 0 again false p.number p.digest) (bytesAt p.stop 0x120 (8 * len))
      ∧ s.fallbackFrame i slot = old.frameOut i slot (s.frameHead i 2 slot first false (decide (n = 160)) p.number p.digest)
        (bytesAt p.stop (0x120 + 8 * first) (8 * (len - first)))))
  ∧ (∀ (i slot kind first query digest : Nat) (again stop : Bool) (head samples : List Byte) (s : State),
    let flags := (if again then 1 else 0) + (if s.get (F.ISL_STATE_reduced_independence i) = 0 then 0 else 2)
      + (if s.get F.XGS_TWIN_STATE_state = 4 then 4 else 0) + (if (s.island i).warn then 8 else 0) + (if stop then 16 else 0)
      + (if i = 1 then 32 else 0) + (if s.get (F.ISL_STATE_state i) = 5 then 64 else 0)
    let sent := { s with out := s.out ++ [(⟨.canFrame, [i, slot], head ++ bytesAt samples 0 48⟩ : Out), ⟨.islandFrame, [i, slot], head ++ samples⟩] }
    s.frameHead i kind slot first again stop query digest
      = leBytes 1 kind ++ leBytes 1 slot ++ leBytes 1 first ++ leBytes 1 flags ++ leBytes 4 query ++ leBytes 8 digest
    ∧ ((s.island i).driving = false → s.frameOut i slot head samples = s)
    ∧ ((s.island i).driving = true → s.frameOut i slot head samples = sent.islWrite i 5 0 0xFF 0 (bytesAt (head ++ samples) 0 32)))

/-- R106, R428, R475 to R488, R497: in-service test. -/
def Obligations.InServiceTest : Prop :=
  (∀ (acc : Acc) (s s2 : State) (w : Word), s.written pgSTEST 0x020 acc = some (s2, w) →
    let state := fun (u : State) (on : Bool) => u.put F.STEST_STATUS_state (if u.get F.STEST_TARGET_CMD_busy = 1 then 2 else if on then 1 else 0)
    let on := s2.put F.STEST_CTRL_enable 1
    (w.getLsbD 0 = true → s2.testImageOk = true → exec (.stestEnable acc) s = .next (state on true))
    ∧ (w.getLsbD 0 = true → s2.testImageOk = false → exec (.stestEnable acc) s = .next s2)
    ∧ (w.getLsbD 0 = false → exec (.stestEnable acc) s = .next (state (s2.put F.STEST_CTRL_enable 0) false)))
  ∧ (∀ s : State,
    let a := s.addr F.STEST_PROG_BASE_LO_base
    let h := s.bytes a 128
    let m := tabGet s.sec.meas 7 []
    s.testImageOk = true ↔ m ≠ [] ∧ h.take 4 = [0x56#8, 0x49#8, 0x4D#8, 0x31#8] ∧ fieldAt h 4 2 = 4 ∧ bytesAt h 0x40 64 = m
      ∧ sha3_512 (s.bytes (a + 0x2000) (fieldAt h 0x18 4)) = m)
  ∧ (∀ (d : Nat) (s : State),
    let v := s.stDie d
    let live := fun (a : Nat) => decide (a < s.fuse.perDie ∧ s.get (F.ARR_STATE_state (24 * d + a)) ≠ 5)
    let serving := if s.get F.STEST_CTRL_enable = 1 then s.servingOn d else []
    let first := (List.range 24).filter fun a => (s.arr (24 * d + a)).suspect
    let second := v.aborted.filter fun a => s.inService (24 * d + a)
    let turn := match v.last with
      | some l => (serving.filter fun a => decide (l < a)) ++ serving.filter fun a => decide (a ≤ l)
      | none => serving
    s.sliceOrder d = ((first ++ second ++ v.targets ++ turn).filter live)
    ∧ s.servingOn d = (List.range 24).filter fun a => s.inService (24 * d + a))
  ∧ (∀ (d a : Nat) (s : State),
    let v := s.stDie d
    let n := 24 * d + a
    let odd := (s.arr n).suspect = true ∨ a ∈ v.aborted ∨ a ∈ v.targets
    let open1 := fun (last : Option Nat) => (s.setStDie d { v with
      win := some a
      chosen := none
      last := last
      ran := 0
      noMore := false }).put (F.ARR_STATE_state n) 3
    let shut := (s.setStDie d { v with win := none }).modArr n fun x => { nextId := x.nextId, suspect := x.suspect }
    (odd → s.windowOpen d a = open1 v.last) ∧ (¬odd → s.windowOpen d a = open1 (some a))
    ∧ (s.get (F.ARR_STATE_state n) ≠ 3 → s.windowClose d a = shut)
    ∧ (s.get (F.ARR_STATE_state n) = 3 → s.windowClose d a = shut.put (F.ARR_STATE_state n) (if (s.arr n).suspect then 4 else 0))
    ∧ (a < 24 → v.win ≠ some a → s.reclaim n = s)
    ∧ (a < 24 → v.win = some a → s.reclaim n = (((s.setStDie d { v with aborted := setAdd v.aborted a }).windowClose d a).count
      F.STEST_ABORTS_count 1).raise pgSTEST Ev.STEST_reclaim))
  ∧ (∀ (d : Fin 4) (s : State),
    let v := s.stDie d
    let may := v.win = none ∧ v.chosen = none ∧ s.cdState d = 3 ∧ s.powered = true
    (¬may → exec (.sliceStart d) s = .next s) ∧ (s.sliceOrder d = [] → exec (.sliceStart d) s = .next s)
    ∧ (∀ a l, s.sliceOrder d = a :: l → may →
      exec (.sliceStart d) s = .next (if s.arrIdle (24 * d.val + a) then s.windowOpen d a else s.setStDie d { v with chosen := some a }))
    ∧ (v.chosen = none → exec (.windowOpen d) s = .next s ∧ exec (.drainTimeout d) s = .next s)
    ∧ (∀ a, v.chosen = some a →
      let idle := s.arrIdle (24 * d.val + a)
      let skipped := ((s.setStDie d { v with chosen := none }).count F.STEST_SKIPS_count 1).raise pgSTEST Ev.STEST_drain_timeout
      exec (.windowOpen d) s = .next (if s.cdState d = 3 ∧ idle = true then s.windowOpen d a else s)
      ∧ exec (.drainTimeout d) s = .next (if idle then s else skipped)))
  ∧ (∀ (d : Fin 4) (pass dip : Bool) (s : State), ((s.stDie d).win = none → exec (.partDone d pass dip) s = .next s)
    ∧ (∀ a, (s.stDie d).win = some a →
      let v := s.stDie d
      let n := 24 * d.val + a
      let part := tabGet v.parts a 0
      let again := s.setStDie d { v with ran := v.ran + 1 }
      let on := s.setStDie d { v with
        ran := v.ran + 1
        parts := tabSet v.parts a (part + 1) }
      let bad := (on.targetFailed d a).partFailed d a (s.get (F.ARR_STATE_phys n)) part
      let gone := fun (u : State) => ((u.setStDie d { u.stDie d with
        parts := tabDel (u.stDie d).parts a
        aborted := setDel (u.stDie d).aborted a
        targets := setDel (u.stDie d).targets a
        late := setDel (u.stDie d).late a }).windowClose d a).coverageShow.targetsDone
      let full := v.noMore = true ∨ sliceParts (s.get (F.PWR_CLK_array d)) ≤ v.ran + 1
      let next := fun (u : State) => if full then u.windowClose d a else u
      (dip = true → exec (.partDone d pass dip) s = .next (if s.get (F.ARR_STATE_state n) = 5 then gone again else next again))
      ∧ (dip = false → pass = true → exec (.partDone d pass dip) s = .next (if s.get (F.ARR_STATE_state n) = 5 then gone on
        else if part = 11 then (on.passDone d a).targetsDone else next on))
      ∧ (dip = false → pass = false → exec (.partDone d pass dip) s = .next (if bad.get (F.ARR_STATE_state n) = 5 then gone bad
        else if part = 11 then (bad.passDone d a).targetsDone
        else if v.noMore = true ∨ sliceParts (bad.get (F.PWR_CLK_array d)) ≤ v.ran + 1 then bad.windowClose d a else bad))))
  ∧ (∀ (d a : Nat) (s : State),
    let n := 24 * d + a
    let v := s.stDie d
    let s1 := ((s.setStDie d { v with
      parts := tabDel v.parts a
      aborted := setDel v.aborted a
      targets := setDel v.targets a
      passed := tabSet v.passed a s.hubUs
      late := setDel v.late a }).modArr n fun x => { x with suspect := false })
    let s2 := (s1.count F.STEST_PASSES_count 1).raise pgSTEST Ev.STEST_pass_done
    let s3 := (s.islandsUp.foldl (fun (u : State) i => u.modIsl i fun v => { v with ages := tabSet v.ages n v.time }) s2).windowClose d a
    let s4 := s3.setService n (s3.shouldServe d a)
    let tell := s.put (F.STEST_TARGET_FAIL_failed d) (s.get (F.STEST_TARGET_FAIL_failed d) ||| 2 ^ a)
    let left := (List.range 4).any fun d => decide ((s.stDie d).targets ≠ [])
    let s5 := s.put F.STEST_TARGET_CMD_busy 0
    let s6 := (s5.put F.STEST_STATUS_state (if s.get F.STEST_CTRL_enable = 1 then 1 else 0)).raise pgSTEST Ev.STEST_target_done
    let lost := s6.get F.XGS_TWIN_STATE_state = 3 ∧ ∀ d < 4, s6.get (F.STEST_TARGET_FAIL_failed d) = 0
    s.passDone d a = s4.coverageShow
    ∧ s.coverageShow = s.put F.STEST_STATUS_coverage (((List.range 4).map fun d => if (s.stDie d).late = [] then 0 else 2 ^ d).sum)
    ∧ (a ∉ v.targets → s.targetFailed d a = s)
    ∧ (a ∈ v.targets → s.targetFailed d a = if tell.get F.XGS_TWIN_STATE_state = 3 then (tell.allWantDie d).streamsOut else tell)
    ∧ (s.get F.STEST_TARGET_CMD_busy ≠ 1 ∨ left = true → s.targetsDone = s)
    ∧ (s.get F.STEST_TARGET_CMD_busy = 1 → left = false → ¬lost → s.targetsDone = s6)
    ∧ (s.get F.STEST_TARGET_CMD_busy = 1 → left = false → lost → s.targetsDone
      = ((s6.put F.XGS_TWIN_STATE_state 4).raise pgXGS Ev.XGS_lost_agreement).bothWrite 6 0 0xFF 0 (twinDetail 0 0 5)))
  ∧ (∀ (d : Fin 4) (a : Fin 24) (age : Nat) (s : State),
    let n := 24 * d.val + a.val
    let late := s.inService n = true ∧ 2 * s.get F.STEST_INTERVAL_ms < age
    let s1 := (s.setStDie d { s.stDie d with late := setAdd (s.stDie d).late a.val }).coverageShow
    (¬late → exec (.coverage d a age) s = .next s)
    ∧ (late → exec (.coverage d a age) s = .next ((s1.raise pgSTEST Ev.STEST_coverage).bothWarn 7 (pgARR n) 0 (leBytes 4 age))))
  ∧ (∀ (acc : Acc) (s s2 : State) (w : Word), s.written pgSTEST 0x060 acc = some (s2, w) →
    let ok := s2.get F.STEST_TARGET_CMD_busy = 0 ∧ ∀ d < 4, s2.targetsOk d (s2.get (F.STEST_TARGET_arrays d)) = true
    let take := fun (u : State) (d : Nat) =>
      let l := (List.range 24).filter fun a => (s2.get (F.STEST_TARGET_arrays d)).testBit a
      (u.put (F.STEST_TARGET_FAIL_failed d) 0).setStDie d { u.stDie d with
        targets := l
        parts := (u.stDie d).parts.filter fun p => !l.contains p.1 || decide ((u.stDie d).win = some p.1) }
    let s3 := (((List.range 4).foldl take s2).put F.STEST_TARGET_CMD_refused 0).put F.STEST_TARGET_CMD_busy 1
    (w.getLsbD 31 = false → exec (.targetedTest acc) s = .next s2)
    ∧ (w.getLsbD 31 = true → ¬ok → exec (.targetedTest acc) s = .next (s2.put F.STEST_TARGET_CMD_refused 1))
    ∧ (w.getLsbD 31 = true → ok → exec (.targetedTest acc) s = .next (s3.put F.STEST_STATUS_state 2).targetsDone)
    ∧ (∀ (d m : Nat), s2.targetsOk d m = true ↔ ∀ a < 24, m.testBit a = true →
      a < s2.fuse.perDie ∧ s2.cdState d ≠ 0 ∧ s2.get (F.ARR_STATE_state (24 * d + a)) ≠ 5))

/-- R486, R490 to R493: units taken out. -/
def Obligations.UnitsTakenOut : Prop :=
  (∀ (acc : Acc) (s s2 : State) (w : Word), s.written pgSTEST 0x080 acc = some (s2, w) →
    let d := F.STEST_ARRAY_CMD_die.ext w
    let a := F.STEST_ARRAY_CMD_array.ext w
    let n := 24 * d + a
    let rest := (s2.servingOn d).filter fun b => decide (b ≠ a) && !(s2.stDie d).outReq.contains b
    let outs := w.getLsbD 31 = true ∧ F.STEST_ARRAY_CMD_op.ext w = 1
    let backs := w.getLsbD 31 = true ∧ F.STEST_ARRAY_CMD_op.ext w = 2
    let mayOut := a < 24 ∧ s2.inService n = true ∧ rest ≠ []
    let asked := (s2.put F.STEST_ARRAY_CMD_refused 0).setStDie d { s2.stDie d with outReq := setAdd (s2.stDie d).outReq a }
    let runs := s2.get (F.ARR_JOB_QUEUE_valid n) = 1 ∨ s2.arrGiven n = true
    let map := s2.get (F.STEST_ARRAY_OUT_out d)
    let mayBack := a < 24 ∧ map.testBit a = true ∧ (s2.arr n).suspect = false ∧ s2.get (F.ARR_STATE_state n) ≠ 5
    let in1 := (s2.put F.STEST_ARRAY_CMD_refused 0).put (F.STEST_ARRAY_OUT_out d) (map - 2 ^ a)
    let no := s2.put F.STEST_ARRAY_CMD_refused 1
    (¬outs → exec (.arrayOut acc) s = .next s2) ∧ (¬backs → exec (.arrayReturn acc) s = .next s2)
    ∧ (outs → ¬mayOut → exec (.arrayOut acc) s = .next no) ∧ (backs → ¬mayBack → exec (.arrayReturn acc) s = .next no)
    ∧ (outs → mayOut → exec (.arrayOut acc) s = .next (if runs then asked else asked.slotLeft n))
    ∧ (backs → mayBack → exec (.arrayReturn acc) s = .next (in1.setService n (in1.shouldServe d a))))
  ∧ (∀ (n : Nat) (s : State),
    let d := n / 24
    let v := s.stDie d
    let s1 := if n % 24 ∈ v.outReq then ((s.setStDie d { v with outReq := setDel v.outReq (n % 24) }).put (F.STEST_ARRAY_OUT_out d)
      (s.get (F.STEST_ARRAY_OUT_out d) ||| 2 ^ (n % 24))).setService n false else s
    let busy := s.jobs.any fun j => j.slots.any fun k => decide (k.die = d ∧ (k.phase = 1 ∨ k.phase = 2))
    s.dieBusy d = busy
    ∧ (v.dieOut = false ∨ busy = true → s.slotLeft n = s1)
    ∧ (v.dieOut = true → busy = false → s.slotLeft n = { s1 with out := s.out ++ [⟨.islandMessage, [2, d], []⟩] }))
  ∧ (∀ (d a : Nat) (s : State),
    let n := 24 * d + a
    let serves := a < s.fuse.perDie ∧ s.cdState d = 3 ∧ s.get (F.ARR_STATE_state n) ≠ 5 ∧ (s.arr n).suspect = false
      ∧ (s.get (F.STEST_ARRAY_OUT_out d)).testBit a = false ∧ (s.stDie d).dieOut = false
      ∧ (s.get F.PWR_SERVICE_level = 1 → a < 12 ∧ s.get F.PWR_SERVICE_die = d) ∧ s.get F.PWR_SERVICE_level ≠ 0
    (s.shouldServe d a = true ↔ serves)
    ∧ s.serviceShow d = s.put (F.CD_ARR_SERVICE_in_service d) (((List.range 24).map fun b => if s.shouldServe d b then 2 ^ b else 0).sum))
  ∧ (∀ (acc : Acc) (s s2 : State) (w : Word), s.written pgSTEST 0x0A0 acc = some (s2, w) →
    let d := F.STEST_DIE_CMD_die.ext w
    let outs := w.getLsbD 31 = true ∧ F.STEST_DIE_CMD_op.ext w = 1
    let may := s2.cdState d = 3 ∧ ∃ e < 4, e ≠ d ∧ s2.cdState e = 3
    let t := ((s2.put F.STEST_DIE_CMD_refused 0).setStDie d { s2.stDie d with dieOut := true }).serviceShow d
    (¬outs → exec (.dieOut acc) s = .next s2) ∧ (outs → ¬may → exec (.dieOut acc) s = .next (s2.put F.STEST_DIE_CMD_refused 1))
    ∧ (outs → may → s2.dieBusy d = true → exec (.dieOut acc) s = .next t)
    ∧ (outs → may → s2.dieBusy d = false → exec (.dieOut acc) s = .next { t with out := s2.out ++ [⟨.islandMessage, [2, d], []⟩] }))
  ∧ (∀ (acc : Acc) (s s2 : State) (w : Word), s.written pgSTEST 0x0A4 acc = some (s2, w) →
    let n := F.STEST_STACK_CMD_stack.ext w
    let spills := w.getLsbD 31 = true ∧ F.STEST_STACK_CMD_op.ext w = 1
    let returns := w.getLsbD 31 = true ∧ F.STEST_STACK_CMD_op.ext w = 2
    let free := s2.stest.copy = none ∧ s2.cdState n = 3
    let no := s2.put F.STEST_STACK_STATE_refused 1
    let go := fun (back : Bool) (b : Nat) => { ((s2.put F.STEST_STACK_STATE_refused 0).put F.STEST_STACK_STATE_copying 1).put
      F.STEST_STACK_STATE_progress 0 with stest := { s2.stest with copy := some (n, back, b) } }
    (¬spills → exec (.spill acc) s = .next s2) ∧ (¬returns → exec (.stackReturn acc) s = .next s2)
    ∧ (spills → (s2.spillBase n = none ∨ ¬free ∨ tabFind s2.spilled n ≠ none) → exec (.spill acc) s = .next no)
    ∧ (returns → (tabFind s2.spilled n = none ∨ ¬free) → exec (.stackReturn acc) s = .next no)
    ∧ (∀ b, spills → s2.spillBase n = some b → free → tabFind s2.spilled n = none → exec (.spill acc) s = .next (go false b))
    ∧ (∀ b, returns → tabFind s2.spilled n = some b → free → exec (.stackReturn acc) s = .next (go true b)))
  ∧ (∀ (n : Nat) (s : State),
    let a := s.addr (F.STEST_SPILL_BASE_LO_base n) / 0x10000000 * 0x10000000
    s.spillBase n = if s.get (F.STEST_SPILL_BASE_LO_valid n) = 1 ∧ dramBase ≤ a ∧ a + 0x10000000 ≤ dramBase + dramUsable then some a else none)
  ∧ (∀ s : State, (s.stest.copy = none → exec .stackCopyDone s = .next s)
    ∧ (∀ n back b, s.stest.copy = some (n, back, b) →
      let t := s.stackCopy (if back then b else stackBase n) (if back then stackBase n else b)
      let now := if back then tabDel s.spilled n else tabSet s.spilled n b
      let u := (((({ t with
        spilled := now
        stest := { s.stest with copy := none } }.put F.STEST_STACK_STATE_copying 0).put F.STEST_STACK_STATE_progress
          (if back then 0 else 0x100000)).put F.STEST_STACK_STATE_spilled ((now.map fun (e : Nat × Nat) => 2 ^ e.1).sum)).put (F.ST_STATUS_in_service n)
          (if back then 1 else 0))
      exec .stackCopyDone s = .next (if back then u else u.raise pgSTEST Ev.STEST_stack_spilled)))
  ∧ (∀ (src dst : Nat) (s : State), memWf s.mem = true → src + 0x10000000 ≤ dst ∨ dst + 0x10000000 ≤ src → src % 32 = 0 → dst % 32 = 0 →
    (s.cond.map fun c => c.1).Nodup →
    let t := s.stackCopy src dst
    let moved := fun (w : Nat) => tabFind t.cond (dst / 32 + w) = if (tabFind s.cond (src / 32 + w)).any WordCond.bad then some .poison else none
    Copied src dst 0x10000000 s t ∧ BytesBut dst 0x10000000 s t
    ∧ (∀ w < 0x800000, moved w) ∧ (∀ w, w < dst / 32 ∨ dst / 32 + 0x800000 ≤ w → tabFind t.cond w = tabFind s.cond w)
    ∧ { t with
      mem := s.mem
      cond := s.cond } = s)
  ∧ (∀ (acc : Acc) (s s2 : State) (w : Word), s.written pgSTEST 0x0AC acc = some (s2, w) →
    let k := 1 - F.STEST_ISLAND_CMD_island.ext w
    let ok := s2.get (F.ISL_STATE_state 0) = 2 ∧ s2.get (F.ISL_STATE_state 1) = 2 ∧ s2.anyFallback = false ∧ (s2.island 0).testing = false
      ∧ (s2.island 1).testing = false
    let t := ((((s2.put F.STEST_ISLAND_CMD_refused 0).modIsl k fun v => { v with testing := true }).put (F.ISL_STATE_peer_ok k) 0).put
      (F.ISL_STATE_reduced_independence k) 1).islLevel k Ev.ISL_reduced_independence true
    (w.getLsbD 31 = false → exec (.islandTest acc) s = .next s2)
    ∧ (w.getLsbD 31 = true → ¬ok → exec (.islandTest acc) s = .next (s2.put F.STEST_ISLAND_CMD_refused 1))
    ∧ (w.getLsbD 31 = true → ok → exec (.islandTest acc) s = .next (((t.put (F.ISL_STATE_state k) 4).islWrite k 4 0 0xFF 8 []).islRestart (1 - k))))
  ∧ (∀ (i : Nat) (s : State),
    let v := s.island i
    let kept : IslSt := {
      time := v.time
      seq := v.seq
      recs := v.recs
      frs := v.frs
      powerOns := v.powerOns
      modTimes := v.modTimes
      repairSeq := v.repairSeq
      cold := v.cold
      critical := v.critical }
    let page := { s with
      regs := s.regs.filter fun e => decide (e.1 / 512 ≠ pgISL i)
      armedBy := tabDel s.armedBy (pgISL i) }
    s.islRestart i = ((page.put (F.PSR_STATUS_state i) 0).put (F.NOR_STATUS_state i) 0).setIsl i kept)
  ∧ (∀ (acc : Acc) (s s2 : State) (w : Word), s.written pgSTEST 0x110 acc = some (s2, w) →
    let may := s2.repairEntry ≠ none ∧ (s2.get F.SEC_DEBUG_STATE_scope).testBit 5 = true ∧ s2.islUp 0 = true ∧ s2.islUp 1 = true
    (w.getLsbD 31 = false → exec (.repairClear acc) s = .next s2)
    ∧ (w.getLsbD 31 = true → ¬may → exec (.repairClear acc) s = .next (s2.put F.STEST_REPAIR_CLEAR_refused 1))
    ∧ (∀ e, w.getLsbD 31 = true → may → s2.repairEntry = some e → exec (.repairClear acc) s
      = .next (((s2.put F.STEST_REPAIR_CLEAR_refused 0).repairPut e.1 e.2).bothWarn 4 pgSTEST 10 (leBytes 4 e.1))))
  ∧ (∀ s : State,
    let d := s.get F.STEST_REPAIR_CLEAR_die
    let p := s.get F.STEST_REPAIR_CLEAR_phys
    let u := s.get F.STEST_REPAIR_CLEAR_unit
    let kind := s.get F.STEST_REPAIR_CLEAR_kind
    let old := fun (off n : Nat) => s.psramAt (if s.islUp 0 then 0 else 1) (0x1000 + off) n
    (kind = 1 → s.repairEntry = if (s.retiredMap d).testBit p then some (0x2110 + 4 * d, leBytes 4 (s.retiredMap d - 2 ^ p)) else none)
    ∧ (kind = 2 → s.repairEntry = if p < 26 ∧ s.capRepair d p ≠ 0 then some (0x2120 + 26 * d + p, [0#8]) else none)
    ∧ (kind = 3 → s.repairEntry = if (leNat (old 0 4)).testBit 31 then some (0, leBytes 4 0) else none)
    ∧ (kind = 4 → s.repairEntry = if u < 8 ∧ leNat (old (0x2100 + u) 1) ≠ 0 then some (0x2100 + u, [0#8]) else none)
    ∧ (kind = 5 → s.repairEntry = if (old (0x100 + 256 * u) 256).any fun b => decide (b ≠ 0#8) then some (0x100 + 256 * u, leBytes 256 0) else none)
    ∧ (kind = 0 ∨ 5 < kind → s.repairEntry = none))

/-- R389 to R391, R498 to R502, R504, R516 to R518: power states and service levels. -/
def Obligations.PowerStates : Prop :=
  (∀ (acc : Acc) (s : State),
    (∀ s2 w, s.written pgPWR 0x020 acc = some (s2, w) →
      let n := F.PWR_STATE_request.ext w
      let may := fun (v : Nat) => if n = v then s2.powerAsk v else s2
      exec (.requestDeepSleep acc) s = .next (may 1) ∧ exec (.requestPark acc) s = .next (may 2)
      ∧ (s.hubAsleep = false → exec (.requestWarm acc) s = .next (may 3) ∧ exec (.requestRun acc) s = .next (may 4)))
    ∧ (s.hubAsleep = true → exec (.requestWarm acc) s = .next (s.wake none) ∧ exec (.requestRun acc) s = .next (s.wake (some 4)))
    ∧ exec .wake s = .next (s.wake none) ∧ (s.hubAsleep = true ↔ s.get F.PWR_STATE_state = 1 ∨ s.get F.PWR_STATE_state = 2))
  ∧ (∀ (v : Nat) (s : State),
    let ok := s.put F.PWR_STATE_refused 0
    let pwr := fun (warming : Bool) (wanted : Option Nat) => { ok with pwr := { s.pwr with
      warming := warming
      wanted := wanted } }
    let run := s.get F.PWR_STATE_state = 4
    let aim := if v = 3 then none else some v
    (v ≤ 2 → s.sleepRefused = true → s.powerAsk v = (s.put F.PWR_STATE_refused 1).raise pgPWR Ev.PWR_refused)
    ∧ (v = 1 ∨ v = 2 → s.sleepRefused = false → s.powerAsk v = if run then (pwr true aim).warmCheck else (pwr false aim).warmGo)
    ∧ (s.powerAsk 3 = if run then (pwr true none).warmCheck else (pwr false none).warmGo)
    ∧ (s.powerAsk 4 = if run then pwr false none else (pwr s.pwr.warming (some 4)).runCheck)
    ∧ (s.sleepRefused = true ↔ s.anyFallback = true ∨ s.recording = true ∨ s.replaying = true ∨ s.jobs ≠ [] ∨ s.memg.copying ≠ none
      ∨ s.stest.copy ≠ none ∨ s.memg.testing ≠ []))
  ∧ (∀ (v : Nat) (s : State),
    let gated := ∀ d < 4, s.get (F.PWR_UNGATED_ungated d) = 0
    let ready := s.pwr.wanted = some 4 ∧ s.get F.PWR_STATE_state = 3 ∧ ∀ d < 4, s.nextUngate d = none
    let warm := { s with pwr := { s.pwr with
      warming := false
      idle := [] } }
    (s.allGated = true ↔ gated)
    ∧ s.powerState v = (if s.get F.PWR_STATE_state = v then s else (s.put F.PWR_STATE_state v).raise pgPWR Ev.PWR_state_change)
    ∧ (¬ready → s.runCheck = s) ∧ (ready → s.runCheck = { s with pwr := { s.pwr with wanted := none } }.powerState 4)
    ∧ (s.pwr.warming = true → gated → s.warmCheck = (warm.powerState 3).warmGo) ∧ (¬(s.pwr.warming = true ∧ gated) → s.warmCheck = s)
    ∧ (s.pwr.wanted = some 1 → s.warmGo = s.sleepEnter) ∧ (s.pwr.wanted = some 4 → s.warmGo = s.runCheck)
    ∧ (s.pwr.wanted = some 2 → s.warmGo = if s.get F.MEMG_STATUS_state = 5 then s.parkEnter else s)
    ∧ (s.pwr.wanted = none ∨ s.pwr.wanted = some 3 → s.warmGo = s))
  ∧ (∀ s : State,
    let image := s.bytes (s.addr F.MEMG_SAVE_BASE_LO_base) 65536
    let save := fun (u : State) (i : Nat) => u.psramPut i 0x100000 (image ++ sha3_512 image ++ leBytes 8 s.fuse.serial.toNat)
    let kept := (List.range 7).filter fun k => (s.get F.MEMG_PARK_KEEP_segments).testBit k || (k == 6 && s.memg.retired.isSome)
    let m : MemgSt := { kept := s.parkSegments, selfRefresh := true, image := s.memg.image }
    let off := (s.islandsUp.foldl save s)
    let hub := (off.hubReset (inSegments s.parkSegments)).putWord pgGEN 0x54 (off.regWord pgGEN 0x54)
    let boot : BootSt := { kept := true, host := s.sec.boot.host, xsKeys := s.sec.boot.xsKeys, keptFw := off.regWord pgGEN 0x34 }
    let stop := fun (v : IslSt) => { v with
      running := false
      driving := false }
    let still := ((s.hubReset fun _ => false).put (F.PSR_STATUS_half_sleep 0) 1).put (F.PSR_STATUS_half_sleep 1) 1
    s.parkSegments = (if kept = [] then [] else kept ++ [7])
    ∧ s.parkEnter = { hub with
      memg := m
      sec := { hub.sec with
        meas := s.sec.meas
        reports := s.sec.reports
        unlocked := s.sec.unlocked
        boot := boot } }.put F.PWR_STATE_state 2
    ∧ s.sleepEnter = ((still.modIsl 0 stop).modIsl 1 stop).put F.PWR_STATE_state 1)
  ∧ (∀ (ks : List Nat) (a : Nat),
    inSegments ks a = true ↔ dramBase ≤ a ∧ a < dramBase + dramBytes ∧ min 7 ((a - dramBase) / 0x400000000) ∈ ks)
  ∧ (∀ s : State,
    exec .powerGood s = .next (s.powerOn false)
    ∧ (∀ rings : Bool,
      let fresh := fun (u : State) (i : Nat) => (u.islRestart i).setIsl i (if rings then {
        powerOns := (u.island i).powerOns
        repairSeq := (u.island i).repairSeq
        time := (u.island i).time
        seq := (u.island i).seq
        recs := (u.island i).recs
        frs := (u.island i).frs
        critical := (u.island i).critical } else {
        powerOns := (u.island i).powerOns
        repairSeq := (u.island i).repairSeq })
      let h := (fresh (fresh (s.hubReset fun _ => false) 0) 1)
      let mems := h.islMem.map fun (e : Nat × IslMem) => (e.1, if rings then e.2 else { e.2 with
        psram := []
        psramCond := [] })
      s.powerOn rings = (({ h with
        islMem := mems
        pwr := {} }.put (F.PSR_STATUS_half_sleep 0) 0).put (F.PSR_STATUS_half_sleep 1) 0).clksShow)
    ∧ (∀ wanted : Option Nat,
      let up := ((s.put F.PWR_STATE_state 3).raise pgPWR Ev.PWR_state_change).put F.MEMG_STATUS_park_exit 1
      (s.pwr.held ≠ [] → s.wake wanted = s) ∧ (s.hubAsleep = false → s.wake wanted = s)
      ∧ (s.pwr.held = [] → s.get F.PWR_STATE_state = 2 → s.wake wanted = { up with pwr := { s.pwr with wanted := wanted } })
      ∧ (s.pwr.held = [] → s.get F.PWR_STATE_state = 1 → s.wake wanted = { s.powerOn true with pwr := { wanted := wanted } })))
  ∧ (∀ (d : Fin 4) (s : State),
    let may := s.get F.PWR_STATE_state = 4 ∨ (s.get F.PWR_STATE_state = 3 ∧ s.pwr.wanted = some 4)
    let waits := fun (a : Nat) => decide (s.inService (24 * d.val + a) = true ∧ s.ungated (24 * d.val + a) = false ∧ 24 * d.val + a ∉ s.pwr.idle)
    s.nextUngate d = (List.range 24).find? waits ∧ (¬may → exec (.ungate d) s = .next s) ∧ (s.nextUngate d = none → exec (.ungate d) s = .next s)
    ∧ (∀ a, may → s.nextUngate d = some a → exec (.ungate d) s = .next (s.setGate (24 * d.val + a) true).runCheck))
  ∧ (∀ (n : Nat) (on : Bool) (s : State),
    let f := F.PWR_UNGATED_ungated (n / 24)
    let v := s.get f
    let t := s.put f (if v.testBit (n % 24) = on then v else if on then v + 2 ^ (n % 24) else v - 2 ^ (n % 24))
    s.ungated n = v.testBit (n % 24)
    ∧ s.setGate n on = if on then { t with pwr := { s.pwr with idle := setDel s.pwr.idle n } } else t)
  ∧ (∀ (n : Arr) (s : State),
    let k := arrNum n
    let may := s.ungated k = true ∧ s.arrIdle k = true ∧ s.get F.PWR_STATE_state = 4
    let off := s.setGate k false
    (¬may → exec (.gate n) s = .next s) ∧ (may → s.pwr.warming = true → exec (.gate n) s = .next ((s.lbLost k).setGate k false).warmCheck)
    ∧ (may → s.pwr.warming = false → s.inService k = false → exec (.gate n) s = .next off)
    ∧ (may → s.pwr.warming = false → s.inService k = true → s.get F.PWR_GATE_IDLE_us = 0 → exec (.gate n) s = .next s)
    ∧ (may → s.pwr.warming = false → s.inService k = true → s.get F.PWR_GATE_IDLE_us ≠ 0 → exec (.gate n) s
      = .next { off with pwr := { s.pwr with idle := setAdd s.pwr.idle k } })
    ∧ (s.lbLost k).freeCtr = s.freeCtr + 0x100000 ∧ ((s.lbLost k).arr k).lbCond = [] ∧ ((s.lbLost k).arr k).held = []
    ∧ { s.lbLost k with
      arrs := s.arrs
      freeCtr := s.freeCtr } = s
    ∧ (∀ j, j ≠ k → (s.lbLost k).arr j = s.arr j)
    ∧ { (s.lbLost k).arr k with
      lb := (s.arr k).lb
      lbCond := (s.arr k).lbCond
      held := (s.arr k).held } = s.arr k)
  ∧ (∀ (acc : Acc) (s s2 : State) (w : Word), s.written pgPWR 0x024 acc = some (s2, w) →
    let v := F.PWR_SERVICE_level.ext w
    exec (.reducedService acc) s = .next (s2.serviceWrite v) ∧ exec (.fullService acc) s = .next (s2.serviceWrite v))
  ∧ (∀ (v : Nat) (s : State),
    let now := s.get F.PWR_SERVICE_level
    let ok := s.put F.PWR_STATE_refused 0
    let one := ((ok.put F.PWR_SERVICE_level 1).put F.PWR_SERVICE_die s.serviceDie).serviceChanged
    let toOne := now = 0 ∧ v = 1
    let toTwo := now = 1 ∧ v = 2 ∧ s.get F.MEMG_STATUS_ready_segments = 0xFF
    let serve := (List.range 4).foldl (fun (u : State) d => u.serviceShow d) s
    let caps := (List.range 96).foldl (fun (u : State) n => if n % 24 < s.fuse.perDie then u.capsSet n else u) serve
    (v = now → s.serviceWrite v = ok)
    ∧ (toOne → s.serviceWrite v = { one with pwr := { one.pwr with
      wanted := none
      warming := false } }.powerState 4)
    ∧ (toTwo → s.serviceWrite v = (ok.put F.PWR_SERVICE_level 2).serviceChanged)
    ∧ (v ≠ now → ¬toOne → ¬toTwo → s.serviceWrite v = (s.put F.PWR_STATE_refused 1).raise pgPWR Ev.PWR_refused)
    ∧ s.serviceDie = ((List.range 4).find? fun d => decide (s.cdState d ≠ 0 ∧ s.cdState d ≠ 6)).getD 0
    ∧ s.serviceChanged = caps.clksShow.raise pgPWR Ev.PWR_service_change)
  ∧ (∀ (n d : Nat) (s : State),
    let own := resetWord s.fuse (pgARR n) 0x34 &&& ~~~(s.regWord (pgARR n) 0x100 &&& 7#32)
    let top := match tabFind s.pwr.dips 4 with
      | some p => min 2 p.ceil
      | none => 2
    let v := s.stDie d
    s.capsSet n = s.putWord (pgARR n) 0x34 (if s.get F.PWR_SERVICE_level = 1 then own &&& ~~~(7#32) else own)
    ∧ s.hubClkShow = (s.put F.PWR_CLK_fabric top).put F.PWR_CLK_mgmt top
    ∧ s.clksShow = (List.range 4).foldl (fun (u : State) e => u.clkShow e) s.hubClkShow
    ∧ (s.get (F.PWR_CLK_array d) = s.clkEff d → s.clkShow d = s)
    ∧ (s.get (F.PWR_CLK_array d) ≠ s.clkEff d → s.clkShow d
      = (s.put (F.PWR_CLK_array d) (s.clkEff d)).setStDie d { v with noMore := v.noMore || v.win.isSome }))

/-- R505 to R514, R571: inputs, rails, dips and temperatures. -/
def Obligations.SupplyAndThermal : Prop :=
  (∀ s : State,
    let off := fun (u : State) (why : Nat) => { u.hubReset (fun _ => false) with pwr := { (u.hubReset fun _ => false).pwr with
      held := setAdd (u.hubReset fun _ => false).pwr.held why } }
    let back := fun (why : Nat) => { s.moduleReset 3 with pwr := { (s.moduleReset 3).pwr with held := setDel (s.moduleReset 3).pwr.held why } }
    let warned := if s.hubOff then s else s.raise pgSUP Ev.SUP_input_warn
    let hold := fun (u : State) (i : Nat) => ((List.range 64).foldl (fun (x : State) n =>
      if x.routed n = true ∨ x.get (F.ISL_SLOT_mode i n) ≠ 0 then x.fallbackStart i n else x) u).islWrite i 4 0 0xFF 6 (leBytes 4 3)
    exec .mainInputFault s = .next (off (s.islandsUp.foldl hold warned) 1)
    ∧ exec .islandInputFault s = .next (off ((s.islRestart 0).islRestart 1) 2)
    ∧ exec .mainInputRestored s = .next (if 1 ∈ s.pwr.held then back 1 else s)
    ∧ exec .islandInputRestored s = .next (if 2 ∈ s.pwr.held then back 2 else s)
    ∧ exec .thermalDiodeRelease s = .next { s with pwr := { s.pwr with held := setDel s.pwr.held 3 } }
    ∧ (s.hubOff = true ↔ s.get F.PWR_STATE_state = 1 ∨ s.get F.PWR_STATE_state = 2 ∨ s.pwr.held ≠ [])
    ∧ (s.pgood = true ↔ s.pwr.badRails = [] ∧ 1 ∉ s.pwr.held ∧ 2 ∉ s.pwr.held ∧ s.get F.PWR_STATE_state ≠ 1 ∧ s.get F.PWR_STATE_state ≠ 2))
  ∧ (∀ (d cause : Nat) (s : State),
    s.allWantDie d = s.islandsUp.foldl (fun (u : State) i => u.wantDie i d) s
    ∧ s.allWantModule cause
      = s.islandsUp.foldl (fun (u : State) i => u.modIsl i fun v => { v with modDue := setAdd v.modDue cause }) s)
  ∧ (∀ (rail : Fin 10) (s : State),
    let r := rail.val
    let s0 := if r < 5 ∧ tabFind s.pwr.dips r ≠ none then s.dipClose r else s
    let s1 := { s0 with pwr := { s0.pwr with badRails := setAdd s0.pwr.badRails r } }
    (s.hubOff = true → exec (.railFault rail) s = .next s)
    ∧ (s.hubOff = false → exec (.railFault rail) s = .next (if r < 4 then s1.allWantDie r else s1.allWantModule 3)))
  ∧ (∀ (rail : Fin 5) (mv : Nat) (s : State),
    let r := rail.val
    let acts := s.hubOff = false ∧ mv < s.get F.SUP_LEVELS_warn_mv
    let low := if r < 4 then 1 else 0
    let clock := fun (u : State) => if r < 4 then u.clkShow r else u.hubClkShow
    let with1 := fun (p : DipSt) => { s with pwr := { s.pwr with dips := tabSet s.pwr.dips r p } }
    let fresh : DipSt := { minMv := mv, since := s.hubUs, ceil := low }
    (¬acts → exec (.dip rail mv) s = .next s)
    ∧ (acts → tabFind s.pwr.dips r = none → exec (.dip rail mv) s = .next ((clock ((with1 fresh).dipReport r fresh)).dipMark r))
    ∧ (∀ p, acts → tabFind s.pwr.dips r = some p →
      let q := { p with
        low := true
        minMv := min p.minMv mv
        ceil := low }
      exec (.dip rail mv) s = .next ((clock (if s.get F.SUP_LAST_DIP_rail = r then (with1 q).put F.SUP_LAST_DIP_min_mv q.minMv else with1 q)).dipMark r)))
  ∧ (∀ (r : Nat) (p : DipSt) (s : State),
    let struck := fun (j : Job) => decide ((r < 4 ∧ (r ∈ j.granted ∨ (j.slots.any fun k => decide (k.die = r ∧ k.phase = 2)) = true))
      ∨ (r = 4 ∧ j.stage = .placed))
    let shown := (((((s.put F.SUP_DIP_in_dip (s.get F.SUP_DIP_in_dip ||| 2 ^ r)).count F.SUP_DIPS_count 1).put F.SUP_LAST_DIP_rail r).put
      F.SUP_LAST_DIP_min_mv p.minMv).raise pgSUP Ev.SUP_dip)
    let gone := { s with pwr := { s.pwr with dips := tabDel s.pwr.dips r } }
    let cleared := (gone.put F.SUP_DIP_in_dip (s.get F.SUP_DIP_in_dip &&& (31 - 2 ^ r)))
    let shut := cleared.put F.SUP_DIP_long (s.get F.SUP_DIP_long &&& (31 - 2 ^ r))
    s.dipMark r = { s with jobs := s.jobs.map fun j => { j with dip := j.dip || struck j } }
    ∧ s.dipReport r p = (if p.long then (shown.put F.SUP_DIP_long (shown.get F.SUP_DIP_long ||| 2 ^ r)).raise pgSUP Ev.SUP_dip_long else shown)
    ∧ s.dipClose r = if r < 4 then shut.clkShow r else shut.hubClkShow)
  ∧ (∀ (rail : Fin 5) (us : Nat) (s : State),
    let r := rail.val
    let bit := 31 - 2 ^ r
    (tabFind s.pwr.dips r = none → exec (.dipStepUp rail us) s = .next s ∧ exec (.dipLong rail) s = .next s)
    ∧ (∀ p, tabFind s.pwr.dips r = some p →
      let up := max p.ceil (min (p.ceil + 1) (s.commanded r))
      let q := { p with
        low := false
        long := false
        ceil := up }
      let s2 := { s with pwr := { s.pwr with dips := tabSet s.pwr.dips r q } }.put F.SUP_DIP_long (s.get F.SUP_DIP_long &&& bit)
      let s3 := s2.dipClose r
      let late := { p with long := true }
      let s4 := { s with pwr := { s.pwr with dips := tabSet s.pwr.dips r late } }
      s.commanded r = (if r < 4 then s.get (F.CD_CTRL_clk_step r) else 2)
      ∧ (s.commanded r ≤ up → exec (.dipStepUp rail us) s
        = .next (if s.get F.SUP_LAST_DIP_rail = r then s3.put F.SUP_LAST_DIP_us (min us 65535) else s3))
      ∧ (up < s.commanded r → exec (.dipStepUp rail us) s = .next (if r < 4 then s2.clkShow r else s2.hubClkShow))
      ∧ (p.low = false → exec (.dipLong rail) s = .next s)
      ∧ (p.low = true → exec (.dipLong rail) s
        = .next ((s4.put F.SUP_DIP_long (s.get F.SUP_DIP_long ||| 2 ^ r)).raise pgSUP Ev.SUP_dip_long))))
  ∧ (∀ (x : Temps) (s : State),
    let hub := hottest (validPoints x.hub 0)
    let s1 := match hub with
      | some (k, t) => (s.put F.THM_HUB_MAX_temp (ofInt 16 t)).put F.THM_HUB_MAX_point k
      | none => s
    let dies := (List.range 4).filter fun d => decide (2 ≤ s.cdState d ∧ s.get (F.CD_HOTSPOT_MAX_valid_count d) ≠ 0)
    let heat := fun (d : Nat) => toSigned 16 (s.get (F.CD_HOTSPOT_MAX_temp d))
    let s2 := dies.foldl (fun (u : State) d => u.putC (F.THM_DIE_MAX_die d) (heat d)) s1
    let inlet := match x.inlet with
      | some v => s2.put F.THM_COOLANT_inlet (ofInt 16 v)
      | none => s2
    let outlet := match x.outlet with
      | some v => inlet.put F.THM_COOLANT_outlet (ofInt 16 v)
      | none => inlet
    let stages := match x.stages with
      | some v => outlet.putC F.THM_BOARD_stages v
      | none => outlet
    let s3 := match x.board with
      | some v => stages.putC F.THM_BOARD_board v
      | none => stages
    let mask := fun (c : Nat) => ((dies.filter fun d => decide ((16 * c : Int) ≤ heat d)).map fun d => 2 ^ d).sum
      + if hub.any fun t => decide ((16 * c : Int) ≤ t.2) then 16 else 0
    let warm := mask (s.get F.THM_WARN_warn)
    let hot := mask (s.get F.THM_WARN_hot)
    let s4 := (s3.put F.THM_STATUS_warn warm).raiseIf (decide (warm &&& (31 - s3.get F.THM_STATUS_warn) ≠ 0)) pgTHM Ev.THM_warn
    let s5 := (s4.put F.THM_STATUS_hot hot).raiseIf (decide (hot &&& (31 - s4.get F.THM_STATUS_hot) ≠ 0)) pgTHM Ev.THM_hot
    let cool := (x.inlet.any fun i => decide (16 * toSigned 8 (s.get F.THM_COOL_LIMIT_inlet_max) < i))
      || x.inlet.any fun i => x.outlet.any fun o => decide (i + (16 * s.get F.THM_COOL_LIMIT_rise_max : Int) < o)
    let bad := x.inlet.isNone || x.outlet.isNone || x.stages.isNone || x.board.isNone || (List.range 16).any fun k => (x.hub.getD k none).isNone
    let s6 := (s5.putB F.THM_STATUS_coolant cool).raiseIf (cool && decide (s5.get F.THM_STATUS_coolant ≠ 1)) pgTHM Ev.THM_coolant_warn
    let s7 := (s6.putB F.THM_STATUS_sensor_fail bad).raiseIf (bad && decide (s6.get F.THM_STATUS_sensor_fail ≠ 1)) pgTHM Ev.THM_sensor_fail
    let hotter := 2000 ≤ x.diodeA ∨ 2000 ≤ x.diodeB ∨ (hub.any fun t => decide (2000 ≤ t.2)) = true
    (s.hubOff = true → exec (.thermalSample x) s = .next s)
    ∧ (s.hubOff = false → exec (.thermalSample x) s = .next (if hotter then s7.allWantModule 4 else s7)))
  ∧ (∀ (temps : List (Option Int)) (mask : Nat),
    let ps := validPoints temps mask
    (∀ k t, (k, t) ∈ ps ↔ k < 16 ∧ temps.getD k none = some t ∧ mask.testBit k = false)
    ∧ (hottest ps = none ↔ ps = [])
    ∧ (∀ p, hottest ps = some p → p ∈ ps ∧ (∀ q ∈ ps, q.2 ≤ p.2) ∧ ∀ q ∈ ps, q.2 = p.2 → p.1 ≤ q.1))
  ∧ (∀ (f : Fld) (t : Int) (s : State),
    (t % 16 = 0 → s.putC f t = s.put f (ofInt 8 (t / 16)))
    ∧ (t % 16 ≠ 0 → (s.putC f t = { s with freeCtr := s.freeCtr + 1 }.put f (ofInt 8 (t / 16))
      ∨ s.putC f t = { s with freeCtr := s.freeCtr + 1 }.put f (ofInt 8 (t / 16 + 1)))))

/-- R449, R521 to R532, R569: boot of the islands and of the hub. -/
def Obligations.Boot : Prop :=
  (∀ (i : Island) (role src : Bool) (s : State),
    let k := islIdx i
    let may := s.islUp k = false ∧ 2 ∉ s.pwr.held ∧ s.get F.PWR_STATE_state ≠ 1
    let t := (s.bankBoot k 3).1
    let stuck := t.modIsl k fun v => { v with stuck := true }
    let cold := (s.island k).cold
    let started := t.modIsl k fun v => { v with
      running := true
      driving := true
      stuck := false
      cold := false
      powerOns := v.powerOns + if cold then 1 else 0 }
    let loaded := started.repairLoad k
    let set := if cold then { loaded with
      fuse := { loaded.fuse with
        roleSib := role
        bootSrc := src }
      sec := { loaded.sec with boot := { loaded.sec.boot with host := src } } } else started
    (¬may → exec (.islandBoot i role src) s = .next s)
    ∧ (may → exec (.islandBoot i role src) s = .next (match (s.bankBoot k 3).2 with
      | none => if (stuck.island (1 - k)).stuck then { stuck with pwr := { stuck.pwr with held := setAdd stuck.pwr.held 5 } } else stuck
      | some b =>
        let u := (set.islShow k b).faultHeader k
        if s.strapsDiffer k role src then u.strapFault else u))
    ∧ ((s.bankBoot k 3).2.all fun b => t.bankOk k b) = true
    ∧ (s.strapsDiffer k role src = true ↔ cold = true ∧ (s.island (1 - k)).cold = false ∧ (s.fuse.roleSib ≠ role ∨ s.fuse.bootSrc ≠ src)))
  ∧ (∀ (i n b : Nat) (s : State),
    let fell := fun (u : State) => { u with sec := { u.sec with boot := { u.sec.boot with fell := true } } }
    let spent := fun (u : State) (c : Nat) => if u.bankState i c = 1 ∧ 3 ≤ u.bankTries i c then fell (u.bankMark i c 3) else u
    let s1 := spent (spent s 0) 1
    let chosen := if s1.bankState i 0 = 2 then (if s1.bankState i 1 = 2 then some (if s1.bankSeq i 0 < s1.bankSeq i 1 then 1 else 0) else some 0)
      else if s1.bankState i 1 = 2 then some 1 else none
    let tried := fun (c : Nat) => s1.norPut i (c * 0x8000000 + 9) (leBytes 1 (s1.bankTries i c + 1))
    let rec1 := s.norAt i (b * 0x8000000) 16
    (s.bankState i b = if s.norAt i (b * 0x8000000) 4 = [0x56#8, 0x42#8, 0x4B#8, 0x31#8] then fieldAt rec1 8 1 else 0)
    ∧ s.bankSeq i b = fieldAt rec1 4 4 ∧ s.bankTries i b = fieldAt rec1 9 1 ∧ s.bankMark i b n = s.norPut i (b * 0x8000000 + 8) (leBytes 1 n)
    ∧ (s1.bankState i 0 = 1 → s.bankChoose i = (tried 0, some 0))
    ∧ (s1.bankState i 0 ≠ 1 → s1.bankState i 1 = 1 → s.bankChoose i = (tried 1, some 1))
    ∧ (s1.bankState i 0 ≠ 1 → s1.bankState i 1 ≠ 1 → s.bankChoose i = (s1, chosen))
    ∧ s.bankBoot i 0 = (s, none) ∧ ((s.bankChoose i).2 = none → s.bankBoot i (n + 1) = s.bankChoose i)
    ∧ (∀ c, (s.bankChoose i).2 = some c →
      let t := (s.bankChoose i).1
      s.bankBoot i (n + 1) = if t.bankOk i c then s.bankChoose i else (fell (t.bankMark i c 3)).bankBoot i n)
    ∧ (s.bankOk i b = true ↔ ∀ typ ∈ [1, 2, 5], s.accepts typ (s.bankImage i b typ) true = true))
  ∧ (∀ (typ : Nat) (im : Image) (assembly : Bool) (s : State),
    let h := im.head
    let t := s.sec.trust
    let key := sha3_512 (bytesAt h 0x80 2592)
    let most := if typ = 3 then 0x4000000 else if typ = 4 then 0x2000000 else if typ = 5 then 0x10000 else 0xC0000
    let owners := typ = 2 ∨ typ = 5
    let built := assembly = true ∧ t.owner = none ∧ owners
    let form := h.take 4 = [0x56#8, 0x49#8, 0x4D#8, 0x31#8] ∧ fieldAt h 4 2 = typ ∧ fieldAt h 0x18 4 ≤ most
      ∧ (typ = 3 ∨ fieldAt h 0xC 2 = 0) ∧ ((bytesAt h 0x1D 35).all fun b => b == 0#8) = true ∧ ((bytesAt h 0x1CB3 845).all fun b => b == 0#8) = true
    let signer := if owners then fieldAt h 0x1C 1 = 1 ∧ t.owner = some key
      else fieldAt h 0x1C 1 = 0 ∧ ((key = t.image0 ∧ t.revoked0 = false) ∨ (key = t.image1 ∧ t.revoked1 = false))
    let signed := Config.mldsaVerify (bytesAt h 0x80 2592) (sha3_512 (bytesAt h 0 0xAA0)) (bytesAt h 0xAA0 4627) = true
    s.accepts typ im assembly = true ↔ form ∧ (built ∨ (signer ∧ signed)) ∧ bytesAt h 0x40 64 = sha3_512 im.body
      ∧ (fieldAt h 0x10 8 = 0 ∨ fieldAt h 0x10 8 = s.fuse.serial.toNat) ∧ fieldAt h 0xE 1 = typ - 1 ∧ fieldAt h 0xF 1 ≤ 64
      ∧ (built ∨ s.rollback (typ - 1) ≤ fieldAt h 0xF 1))
  ∧ (∀ (i b typ a : Nat) (s : State),
    let where1 := if typ = 1 then 0x1000 else if typ = 2 then 0x200000 else if typ = 3 then 0x400000 else if typ = 4 then 0x4800000 else 0x300000
    let most := if typ = 3 then 0x4000000 else if typ = 4 then 0x2000000 else if typ = 5 then 0x10000 else 0xC0000
    let at1 := b * 0x8000000 + where1
    let h := s.norAt i at1 0x2000
    let g := s.bytes a 0x2000
    s.bankImage i b typ = ⟨h, s.norAt i (at1 + 0x2000) (min (fieldAt h 0x18 4) most)⟩
    ∧ s.memImage a typ = ⟨g, s.bytes (a + 0x2000) (min (fieldAt g 0x18 4) most)⟩)
  ∧ (∀ (i b : Nat) (s : State),
    let good := s.repairCopies i
    let num := fun (a : Nat) => leNat (s.norAt i a 4)
    let open1 := fun (k : Nat) => Config.free (s.freeCtr + k)
    let h := s.norAt i (b * 0x8000000 + 0x1000) 16
    let s1 := ((((({ s with freeCtr := s.freeCtr + 7 }.put (F.ISL_STATE_state i) 1).put (F.ISL_IMAGE_version i) (fieldAt h 6 2)).put
      (F.ISL_IMAGE_bank i) b).put (F.ISL_STATE_hub_link i) 1).put (F.PSR_STATUS_state i) 1).put (F.NOR_STATUS_state i) 1
    let s2 := (((s1.put (F.PSR_ID_id i) (open1 0)).put (F.NOR_ID_jedec i) (open1 1)).put (F.NOR_ERASE_bank_a i) (open1 2)).put
      (F.NOR_ERASE_bank_b i) (open1 3)
    (∀ a, a ∈ good ↔ ∃ k < 30, a = k / 15 * 0x8000000 + 0x7FC0000 + k % 15 * 0x4400
      ∧ s.norAt i (a + 0x20 + 0x3FC0) 64 = sha3_512 (s.norAt i (a + 0x20) 0x3FC0))
    ∧ ((good = [] ∧ s.repairLoad i = s) ∨ ∃ a ∈ good, (∀ c ∈ good, num c ≤ num a) ∧ s.repairLoad i
      = (s.psramPut i 0x1000 (s.norAt i (a + 0x20) 0x4000)).modIsl i fun v => { v with repairSeq := num a })
    ∧ s.islShow i b = ((s2.put (F.ISL_OUTPUTS_can0 i) (open1 4 % 4)).put (F.ISL_OUTPUTS_can1 i) (open1 5 % 4)).put (F.ISL_OUTPUTS_eth i) (open1 6 % 3)
    ∧ s.strapFault = { (s.bothWrite 7 3 0xFF 0 []).hubReset (fun _ => false) with pwr := { ((s.bothWrite 7 3 0xFF 0 []).hubReset fun _ => false).pwr with
      held := setAdd ((s.bothWrite 7 3 0xFF 0 []).hubReset fun _ => false).pwr.held 6 } })
  ∧ (∀ (acc : Acc) (s s2 : State) (w : Word), s.written pgSEC 0x024 acc = some (s2, w) →
    ∀ c ∈ [Instr.hostGo acc, .testGo acc, .confirm acc, .activate acc],
    let one := fun (u : State) (b : Nat) (f : State → State) => if w.getLsbD b then f u else u
    exec c s = .next (one (one (one (one s2 0 State.hostGo) 1 State.bootConfirm) 2 State.bootActivate) 3 State.testGo))
  ∧ (∀ s : State,
    let no := s.put F.SEC_BOOT_CMD_refused 1
    let ok := s.put F.SEC_BOOT_CMD_refused 0
    let hub := s.sec.boot.host = true ∧ s.sec.boot.running = false
    let test := s.sec.boot.host = true ∧ s.sec.boot.running = true ∧ (s.get F.MEMG_STATUS_ready_segments).testBit 0 = true
      ∧ tabFind s.sec.meas 7 = none
    (¬hub → s.hostGo = no) ∧ (¬test → s.testGo = no)
    ∧ (hub → s.hostGo = { ok with sec := { s.sec with boot := { s.sec.boot with goHub := true } } })
    ∧ (test → s.testGo = { ok with sec := { s.sec with boot := { s.sec.boot with goTest := true } } }))
  ∧ (∀ s : State,
    let up := s.hubOff = false ∧ s.sec.boot.running = false ∧ s.islandsUp ≠ []
    let active := fun (i : Nat) => s.get (F.ISL_IMAGE_bank i)
    let other := fun (i : Nat) => if s.bankState i (1 - active i) = 2 then [2 * i + 1 - active i] else []
    let sources := (s.islandsUp.flatMap fun i => (2 * i + active i) :: other i).filter fun x => decide (x ∉ s.sec.boot.refused)
    let no := fun (src : Nat) => ({ s with sec := { s.sec with boot := { s.sec.boot with
      refused := setAdd s.sec.boot.refused src
      goHub := false } } } : State)
    (s.hubWaits = true ↔ up) ∧ s.hubSources = sources
    ∧ (s.hubWaits = false ∨ (s.sec.boot.kept = false ∧ s.hubOffer = none) → exec .hubImageAccept s = .next s ∧ exec .hubImageRefused s = .next s)
    ∧ (s.sec.boot.host = true → s.hubOffer = if s.sec.boot.goHub then some (4, s.memImage hubBase 3) else none)
    ∧ (s.sec.boot.host = false → s.hubOffer = s.hubSources.head?.map fun x => (x, s.bankImage (x / 2) (x % 2) 3))
    ∧ (s.hubWaits = true → s.sec.boot.kept = true → exec .hubImageAccept s = .next (s.hubStart (s.hubSources.headD 4) s.sec.boot.keptFw.toNat)
      ∧ exec .hubImageRefused s = .next { s with sec := { s.sec with
        meas := []
        boot := { s.sec.boot with kept := false } } })
    ∧ (∀ src im, s.hubWaits = true → s.sec.boot.kept = false → s.hubOffer = some (src, im) →
      let fw := fieldAt im.head 0xC 2 + 65536 * (fieldAt im.head 8 4 % 65536)
      let good := (s.measureIslands.measure 6 (bytesAt im.head 0x40 64)).hubStart src fw
      let last := s.sec.boot.host = true ∨ (no src).hubSources = []
      exec .hubImageAccept s = .next (if s.accepts 3 im false then good else s)
      ∧ exec .hubImageRefused s = .next (if last then (no src).bootFailed else no src)))
  ∧ (∀ (src fw : Nat) (s : State),
    let i := if src = 4 then s.islandsUp.headD 0 else src / 2
    let b := if src = 4 then s.get (F.ISL_IMAGE_bank i) else src % 2
    let trial := s.bankState i b == 1
    let s1 := ((s.putWord pgGEN 0x34 (BitVec.ofNat 32 fw)).put F.SEC_STATUS_boot_src (if src = 4 then 2 else i)).put F.SEC_STATUS_bank b
    let s2 := (s1.putB F.SEC_STATUS_trial trial).raiseIf s.sec.boot.fell pgSEC Ev.SEC_bank_fallback
    let first := s.islandsUp.headD 0
    let boot := { s.sec.boot with
      running := true
      src := if src = 4 then 2 else i
      trial := trial
      kept := false
      fell := false
      startUs := s.hubUs
      xsKeys := (s.bankImage first (s.get (F.ISL_IMAGE_bank first)) 5).body }
    let held := { s with pwr := { s.pwr with held := setAdd s.pwr.held 5 } }
    let digest := fun (j typ : Nat) => bytesAt (s.bankImage j (s.get (F.ISL_IMAGE_bank j)) typ).head 0x40 64
    let set := fun (m : Tab (List Byte)) (j : Nat) => tabSet (tabSet m (1 + 2 * j) (digest j 1)) (2 + 2 * j) (digest j 2)
    let meas := tabSet (s.islandsUp.foldl set (tabSet (tabSet s.sec.meas 0 s.sec.trust.siaRom) 5 s.sec.trust.hubRom)) 8 (digest first 5)
    s.hubStart src fw = { s2 with sec := { s2.sec with boot := boot } }.cfgWritten.runCheck
    ∧ s.bootFailed = s.islandsUp.foldl (fun (u : State) j =>
      ((u.islWrite j 7 3 pgSEC 0 []).put (F.ISL_STATE_state j) 5).islLevel j Ev.ISL_module_failed true) held
    ∧ s.measureIslands = { s with sec := { s.sec with meas := meas } })
  ∧ (∀ s : State,
    let may := s.hubOff = false ∧ s.sec.boot.running = true ∧ (s.get F.MEMG_STATUS_ready_segments).testBit 0 = true ∧ tabFind s.sec.meas 7 = none
      ∧ s.islandsUp ≠ [] ∧ (s.sec.boot.host = true → s.sec.boot.goTest = true)
    let a := s.addr F.STEST_PROG_BASE_LO_base
    let k := s.islandsUp.headD 0
    let own := s.bankImage k (s.get (F.ISL_IMAGE_bank k)) 4
    let judged := fun (u : State) (im : Image) => if s.accepts 4 im false then
      { u with sec := { u.sec with meas := tabSet u.sec.meas 7 (bytesAt im.head 0x40 64) } } else u
    (¬may → exec .testContentAccept s = .next s)
    ∧ (may → s.sec.boot.host = true → exec .testContentAccept s = .next (judged s (s.memImage a 4)))
    ∧ (may → s.sec.boot.host = false → exec .testContentAccept s = .next (judged (s.store a (own.head ++ own.body)) own)))

/-- R525, R532, R535 to R538: trial, update, enrolment, counters, measurements. -/
def Obligations.TrialAndUpdate : Prop :=
  (∀ s : State,
    let no := s.put F.SEC_BOOT_CMD_refused 1
    let ok := s.put F.SEC_BOOT_CMD_refused 0
    let able := s.sec.boot.trial = true ∧ s.get F.SEC_UPDATE_CMD_state ≠ 1 ∧ s.get F.SEC_UPDATE_CMD_state ≠ 2
    let may := s.anyFallback = false ∧ (∀ j ∈ s.jobs, j.safety = false) ∧ ∃ i ∈ s.islandsUp, s.bankState i (1 - s.get (F.ISL_IMAGE_bank i)) = 1
    let due := fun (u : State) => ({ u with sec := { u.sec with boot := { u.sec.boot with restart := true } } } : State)
    (¬able → s.bootConfirm = no) ∧ (able → s.bootConfirm = ok.confirmBanks) ∧ (¬may → s.bootActivate = no) ∧ (may → s.bootActivate = due ok)
    ∧ (s.sec.boot.running = true → s.sec.boot.trial = true → exec .trialWindowExpiry s = .next (due s))
    ∧ (s.sec.boot.running = false ∨ s.sec.boot.trial = false → exec .trialWindowExpiry s = .next s)
    ∧ (s.sec.boot.restart = true → s.fallbackOver = true → exec .activatingRestart s = .next (((s.moduleReset 6).islRestart 0).islRestart 1))
    ∧ (s.sec.boot.restart = false ∨ s.fallbackOver = false → exec .activatingRestart s = .next s)
    ∧ (s.fallbackOver = true ↔ ∀ i ∈ s.islandsUp, ∀ k < 64, s.get (F.ISL_SLOT_mode i k) = 2 →
      (tabFind (s.island i).kept k).all (fun p => decide (p.since + 8000000 ≤ (s.island i).time)) = true))
  ∧ (∀ (i c v : Nat) (s : State),
    let b := s.get (F.ISL_IMAGE_bank i)
    let least := fun (typ : Nat) => min 64 (fieldAt (s.bankImage i b typ).head 0xF 1)
    let up := fun (u : State) (typ : Nat) => u.counterUp (typ - 1) (least typ)
    let all := s.islandsUp.foldl (fun (u : State) j => u.bankConfirm j) s
    let done := { all with sec := { all.sec with boot := { all.sec.boot with trial := false } } }.put F.SEC_STATUS_trial 0
    let rose := (List.range 5).any fun n => decide (s.rollback n ≠ all.rollback n)
    (s.rollback c < v → s.counterUp c v = { s with sec := { s.sec with counters := tabSet s.sec.counters c (.of v) } })
    ∧ (v ≤ s.rollback c → s.counterUp c v = s) ∧ (s.bankState i b ≠ 1 → s.bankConfirm i = s)
    ∧ (s.bankState i b = 1 → s.bankConfirm i = [1, 2, 3, 4, 5].foldl up (s.bankMark i b 2))
    ∧ s.confirmBanks = if rose then done.raise pgSEC Ev.SEC_rollback_advanced else done)
  ∧ (∀ (acc : Acc) (s s2 : State) (w : Word), s.written pgSEC 0x094 acc = some (s2, w) →
    let set := s2.updateSet
    let ok := ∀ k < 5, set.getD k [] = [] ∨ s2.accepts (k + 1) ⟨(set.getD k []).take 0x2000, (set.getD k []).drop 0x2000⟩ false = true
    let other := fun (i : Nat) => 1 - s2.get (F.ISL_IMAGE_bank i)
    let s3 := { s2 with sec := { s2.sec with update := some set } }
    let s4 := (((s3.put (F.NOR_STATUS_state 0) 2).put (F.NOR_STATUS_prog_bank 0) (other 0)).put (F.NOR_STATUS_state 1) 2).put
      (F.NOR_STATUS_prog_bank 1) (other 1)
    (w.getLsbD 0 = false → exec (.update acc) s = .next s2)
    ∧ (∀ c, w.getLsbD 0 = true → s2.updateNo = some c → exec (.update acc) s = .next (s2.updateFail c))
    ∧ (w.getLsbD 0 = true → s2.updateNo = none → ∃ t, exec (.update acc) s = .next t ∧ (¬ok → t = s2.updateFail 1)
      ∧ (ok → t = (s4.put F.SEC_UPDATE_CMD_state 2).put F.SEC_UPDATE_CMD_cause 0)))
  ∧ (∀ (cause : Nat) (s : State),
    let busy := s.get F.SEC_UPDATE_CMD_state = 1 ∨ s.get F.SEC_UPDATE_CMD_state = 2
    let unpaired := ∃ i < 2, s.islUp i = false ∨ s.get (F.ISL_STATE_state i) ≠ 2
    let told := (s.put F.SEC_UPDATE_CMD_cause cause).raise pgSEC Ev.SEC_update_fail
    let list := s.bytes (s.addr F.SEC_UPDATE_ADDR_LO_addr) 64
    let one := fun (k : Nat) => let a := fieldAt list (8 * k) 8; if a = 0 then [] else (s.memImage a (k + 1)).head ++ (s.memImage a (k + 1)).body
    (s.sec.boot.trial = true ∨ busy → s.updateNo = some 4) ∧ (s.sec.boot.trial = false → ¬busy → unpaired → s.updateNo = some 3)
    ∧ (s.sec.boot.trial = false → ¬busy → ¬unpaired → s.updateNo = if s.anyFallback then some 5 else none)
    ∧ s.updateFail cause = (if busy then told else told.put F.SEC_UPDATE_CMD_state 4)
    ∧ s.updateSet = [one 0, one 1, one 2, one 3, one 4])
  ∧ (∀ s : State, (s.sec.update = none → exec .updateDone s = .next s)
    ∧ (∀ set, s.sec.update = some set →
      let s1 := { s with sec := { s.sec with update := none } }
      let both := s.islUp 0 = true ∧ s.islUp 1 = true
      let idle := s.islandsUp.foldl (fun (u : State) i => u.put (F.NOR_STATUS_state i) 1) (s1.put F.SEC_UPDATE_CMD_state 0)
      (¬both → exec .updateDone s = .next (idle.updateFail 3))
      ∧ (both → exec .updateDone s
        = .next ((((s1.bankWrite 0 set).bankWrite 1 set).put F.SEC_UPDATE_CMD_state 3).raise pgSEC Ev.SEC_update_done))))
  ∧ (∀ (i : Nat) (set : List (List Byte)) (s : State),
    let a := s.get (F.ISL_IMAGE_bank i)
    let n := 1 - a
    let copy := fun (typ : Nat) => (s.bankImage i a typ).head ++ (s.bankImage i a typ).body
    let place := fun (u : State) (k : Nat) => u.norPut i (n * 0x8000000 + imageAt (k + 1)) (if set.getD k [] = [] then
      (u.bankImage i a (k + 1)).head ++ (u.bankImage i a (k + 1)).body else set.getD k [])
    let record := [0x56#8, 0x42#8, 0x4B#8, 0x31#8] ++ leBytes 4 (s.bankSeq i a + 1) ++ [1#8, 0#8]
    let t := ((List.range 5).foldl place s).norPut i (n * 0x8000000) record
    let fits := ∀ k < 5, (set.getD k []).length ≤ 0x2000 + imageMax (k + 1)
    let u := s.bankWrite i set
    u = (if n = 0 then t.satInc (F.NOR_ERASE_bank_a i) else t.satInc (F.NOR_ERASE_bank_b i)).put (F.NOR_STATUS_state i) 1
    ∧ (fits → u.bankState i n = 1 ∧ u.bankTries i n = 0 ∧ u.bankSeq i n = (s.bankSeq i a + 1) % 2 ^ 32 ∧ u.bankState i a = s.bankState i a
      ∧ (∀ k < 5, set.getD k [] ≠ [] → u.norAt i (n * 0x8000000 + imageAt (k + 1)) (set.getD k []).length = set.getD k [])
      ∧ ∀ k < 5, set.getD k [] = [] → u.norAt i (n * 0x8000000 + imageAt (k + 1)) (copy (k + 1)).length = copy (k + 1)))
  ∧ (∀ (acc : Acc) (s s2 : State) (w : Word), s.written pgSEC 0x108 acc = some (s2, w) →
    let go := acc.req = .mgmt ∧ w.getLsbD 31 = true
    let s3 := (s2.put F.SEC_ENROL_CMD_refused 0).put F.SEC_STATUS_owner 1
    let key := sha3_512 (s2.bytes (s2.addr F.SEC_ENROL_ADDR_LO_addr) 2592)
    (¬go → exec (.enrol acc) s = .next s2)
    ∧ (go → s2.sec.trust.owner ≠ none → exec (.enrol acc) s = .next (s2.put F.SEC_ENROL_CMD_refused 1))
    ∧ (go → s2.sec.trust.owner = none → exec (.enrol acc) s
      = .next { s3 with sec := { s2.sec with trust := { s2.sec.trust with owner := some key } } }))
  ∧ (∀ (acc : Acc) (s s2 : State) (w : Word), s.written pgSEC 0x10C acc = some (s2, w) →
    let go := acc.req = .mgmt ∧ w.getLsbD 31 = true
    let c := F.SEC_ROLLBACK_CMD_counter.ext w
    let v := F.SEC_ROLLBACK_CMD_value.ext w
    let ok := (c = 5 ∨ 16 ≤ c) ∧ s2.rollback c ≤ v
    let t := { s2.put F.SEC_ROLLBACK_CMD_refused 0 with sec := { s2.sec with counters := tabSet s2.sec.counters c (.of v) } }
    (¬go → exec (.rollbackAdvance acc) s = .next s2) ∧ (go → ¬ok → exec (.rollbackAdvance acc) s = .next (s2.put F.SEC_ROLLBACK_CMD_refused 1))
    ∧ (go → ok → exec (.rollbackAdvance acc) s = .next (t.raise pgSEC Ev.SEC_rollback_advanced)
      ∧ (t.raise pgSEC Ev.SEC_rollback_advanced).rollback c = v
      ∧ ∀ x, x ≠ c → (t.raise pgSEC Ev.SEC_rollback_advanced).rollback x = s2.rollback x))
  ∧ (∀ (acc : Acc) (s s2 : State) (w : Word), s.written pgSEC 0x118 acc = some (s2, w) →
    let k := F.SEC_EXTEND_CMD_slot.ext w
    let go := acc.req = .mgmt ∧ w.getLsbD 31 = true ∧ 11 ≤ k
    let grown := sha3_512 (bytesAt (tabGet s2.sec.meas k []) 0 64 ++ s2.bytes (s2.addr F.SEC_EXTEND_ADDR_LO_addr) 64)
    (¬go → exec (.extend acc) s = .next s2)
    ∧ (go → exec (.extend acc) s = .next { s2 with sec := { s2.sec with meas := tabSet s2.sec.meas k grown } }))

/-- R533, R534, R540 to R542: attestation and debug. -/
def Obligations.AttestAndDebug : Prop :=
  (∀ (acc : Acc) (s s2 : State) (w : Word), s.written pgSEC 0x038 acc = some (s2, w) → ∀ c ∈ [Instr.attest acc, .cert acc],
    let first := if w.getLsbD 0 then s2.askReport else s2
    exec c s = .next (if w.getLsbD 1 then first.askCerts else first))
  ∧ (∀ s : State,
    let no := s.put F.SEC_ATTEST_CMD_refused 1
    let a := s.addr F.SEC_ATTEST_ADDR_LO_addr
    let taken := (s.put F.SEC_ATTEST_CMD_busy 1).put F.SEC_ATTEST_CMD_refused 0
    let n := s.sec.reports + 1
    let certs := bytesAt s.sec.trust.idCert 0 7307 ++ bytesAt s.sec.trust.caCert 0 7307
    (s.get F.SEC_ATTEST_CMD_busy = 1 → s.askReport = no ∧ s.askCerts = no)
    ∧ (s.get F.SEC_ATTEST_CMD_busy = 0 → s.askReport = { taken with sec := { s.sec with
        reports := n
        attest := some ⟨a, s.report n⟩ } }
      ∧ s.askCerts = { taken with sec := { s.sec with attest := some ⟨a, certs⟩ } }))
  ∧ (∀ (n : Nat) (s : State),
    let flags := (if s.get F.SEC_DEBUG_STATE_scope = 0 then 0 else 1) + (if s.sec.unlocked then 2 else 0) + (if s.sec.boot.src = 2 then 4 else 0)
      + (if s.sec.boot.trial then 8 else 0) + (if s.get F.GEN_XS_admitted = 1 then 16 else 0)
      + (if s.get (F.ISL_STATE_reduced_independence 0) = 1 ∨ s.get (F.ISL_STATE_reduced_independence 1) = 1 then 32 else 0)
    let word := fun (page off : Nat) => leBytes 4 (s.regWord page off).toNat
    let body := [0x56#8, 0x41#8, 0x52#8, 0x31#8] ++ leBytes 4 n ++ leBytes 8 s.fuse.serial.toNat
      ++ ((List.range 16).flatMap fun k => word pgSEC (0x40 + 4 * k)) ++ word pgGEN 0x24 ++ word pgGEN 0x28 ++ word pgGEN 0x34
      ++ ((List.range 4).flatMap fun k => word pgGEN (0x40 + 4 * k)) ++ leBytes 4 flags
      ++ ((List.range 128).flatMap fun c => leBytes 1 (s.rollback c)) ++ leBytes 16 0
      ++ ((List.range 16).flatMap fun k => bytesAt (tabGet s.sec.meas k []) 0 64)
    s.report n = body ++ bytesAt (Config.mldsaSign s.sec.trust.idCert (sha3_512 body)) 0 4627
    ∧ body.length = 1280 ∧ (s.report n).length = 5907)
  ∧ (∀ s : State,
    (s.sec.attest = none → exec .attestDone s = .next s)
    ∧ (∀ r, s.sec.attest = some r →
      let t := (s.store r.addr r.data).put F.SEC_ATTEST_CMD_busy 0
      exec .attestDone s = .next (({ t with sec := { t.sec with attest := none } } : State).raise pgSEC Ev.SEC_attest_done)
      ∧ (s.plainStore r.addr r.data.length = true → s.store r.addr r.data = s.wrote r.addr r.data
        ∧ (s.store r.addr r.data).bytes r.addr r.data.length = r.data ∧ BytesBut r.addr r.data.length s (s.store r.addr r.data))))
  ∧ (∀ (acc : Acc) (s s2 : State) (w : Word), s.written pgSEC 0x09C acc = some (s2, w) → ∀ c ∈ [Instr.challenge acc, .submit acc, .lock acc],
    let s3 := if w.getLsbD 1 then s2.tokenTake else s2
    let s4 := if w.getLsbD 0 then s3.challenge else s3
    exec c s = .next (if w.getLsbD 2 then s4.put F.SEC_DEBUG_STATE_scope 0 else s4))
  ∧ (∀ s : State,
    let drawn := (List.range 16).foldl (fun (u : State) k => u.put (F.SEC_DEBUG_NONCE_data k) (Config.free (s.freeCtr + k) % 2 ^ 32))
      { s with freeCtr := s.freeCtr + 16 }
    let tok := s.bytes (s.addr F.SEC_DEBUG_TOKEN_ADDR_LO_addr) 0x2000
    let digest := sha3_512 (bytesAt tok 0 0xAA0)
    let s1 := s.put F.SEC_DEBUG_STATE_challenge_valid 0
    let s2 := (s1.put F.SEC_DEBUG_STATE_refused 0).put F.SEC_DEBUG_STATE_scope (s.get F.SEC_DEBUG_STATE_scope ||| fieldAt tok 0xC 2)
    let s3 := { s2 with sec := { s.sec with
      unlocked := true
      meas := tabSet s.sec.meas 10 (sha3_512 (bytesAt (tabGet s.sec.meas 10 []) 0 64 ++ digest)) } }
    s.challenge = drawn.put F.SEC_DEBUG_STATE_challenge_valid 1
    ∧ s.tokenTake = if s.tokenOk tok then (s3.bothWarn 7 pgSEC Ev.SEC_debug_unlocked digest).raise pgSEC Ev.SEC_debug_unlocked
      else (s1.put F.SEC_DEBUG_STATE_refused 1).raise pgSEC Ev.SEC_token_refused)
  ∧ (∀ (tok : List Byte) (s : State),
    let scope := fieldAt tok 0xC 2
    let key := sha3_512 (bytesAt tok 0x80 2592)
    let nonce := (List.range 16).flatMap fun k => leBytes 4 (s.regWord pgSEC (0x140 + 4 * k)).toNat
    let signer := if fieldAt tok 0x1C 1 = 0 then s.sec.trust.debug = key
      else fieldAt tok 0x1C 1 = 1 ∧ s.sec.trust.owner = some key ∧ scope.testBit 2 = false
    s.tokenOk tok = true ↔ s.get F.SEC_DEBUG_STATE_challenge_valid = 1 ∧ s.get F.FLT_SR_OPEN_open = 0
      ∧ tok.take 4 = [0x56#8, 0x44#8, 0x54#8, 0x31#8] ∧ fieldAt tok 4 2 = 0x10 ∧ fieldAt tok 0x18 4 = 0
      ∧ fieldAt tok 0x10 8 = s.fuse.serial.toNat ∧ scope < 64 ∧ signer ∧ bytesAt tok 0x40 64 = nonce
      ∧ Config.mldsaVerify (bytesAt tok 0x80 2592) (sha3_512 (bytesAt tok 0 0xAA0)) (bytesAt tok 0xAA0 4627) = true
      ∧ ((bytesAt tok 0x1D 35).all fun b => b == 0#8) = true ∧ ((bytesAt tok 0x1CB3 845).all fun b => b == 0#8) = true)

/-- R545 to R547, R553 to R556: boundaries, progress, telemetry, takeover, relinking. -/
def Obligations.FarmBoundariesAndService : Prop :=
  (∀ (acc : Acc) (s s2 : State) (w : Word), s.written pgFARM 0x020 acc = some (s2, w) →
    ∀ c ∈ [Instr.farmContinue acc, .save acc, .restore acc, .arm acc, .disarm acc],
    let one := fun (u : State) (b : Nat) (f : State → State) => if w.getLsbD b then f u else u
    exec c s = .next (one (one (one (one (one s2 0 State.farmContinue) 1 State.farmSave) 2 State.farmRestore) 4 State.farmArm) 5 State.farmDisarm))
  ∧ (∀ (cause : Nat) (s : State),
    let here := s.get F.FARM_STATUS_state
    let taken := (s.put F.FARM_STATUS_refused 0).put F.FARM_STATUS_cause 0
    let go := fun (u : State) => if here = 3 ∨ here = 4 then u.put F.FARM_STATUS_state 2 else u
    let ahead := s.addr F.JRN_REPLAY_POS_LO_position < s.addr F.FARM_BOUNDARY_LO_position
    let armed := go (taken.put F.FARM_STATUS_armed 1)
    let off := go (taken.put F.FARM_STATUS_armed 0)
    s.farmRefuse cause = (s.put F.FARM_STATUS_refused 1).put F.FARM_STATUS_cause cause
    ∧ (ahead → s.farmArm = armed.farmHold) ∧ (¬ahead → s.farmArm = s.farmRefuse 7) ∧ s.farmDisarm = off
    ∧ s.farmContinue = (off.count F.FARM_SEGMENT_number 1).farmBegin
    ∧ s.farmBegin = { (s.put F.FARM_PROG_RECORDS_count 0).put F.FARM_PROG_JOBS_count 0 with farm := { s.farm with
      startUs := s.hubUs
      began := true
      toldSlow := false } }
    ∧ s.farmHold = (if here = 2 ∧ s.boundaryNext = true then s.put F.FARM_STATUS_state 3 else s)
    ∧ (s.boundaryNext = true ↔ s.get F.FARM_STATUS_armed = 1 ∧ ∃ p, s.jrn.expected = some p ∧ s.addr F.FARM_BOUNDARY_LO_position ≤ p))
  ∧ (∀ s : State,
    let here := s.get F.FARM_STATUS_state
    let quiet := (∀ j ∈ s.jobs, j.released = none) ∧ s.fus.pending = [] ∧ s.plan.queries = [] ∧ s.plan.loading = none ∧ s.coll.building = none
      ∧ s.xgs.go = [] ∧ s.xgs.said = [] ∧ s.xgs.active = []
      ∧ (s.get F.JRN_CTRL_domain = 1 → ∀ e ∈ s.jrn.live, e.2 ≤ tabGet s.jrn.taken e.1 0)
    let reached := s.get F.JRN_STATUS_state = 3 ∧ s.boundaryNext = true ∧ quiet ∧ (here = 2 ∨ here = 3)
    let late := s.get F.JRN_STATUS_state = 3 ∧ s.boundaryNext = true ∧ here ≠ 4
    let slow := s.get F.FARM_STRAGGLE_MS_ms ≠ 0 ∧ s.farm.began = true ∧ s.farm.toldSlow = false
      ∧ s.addr F.JRN_REPLAY_POS_LO_position < s.addr F.FARM_STRAGGLE_LO_position
    let told := { s with farm := { s.farm with toldSlow := true } }
    (¬reached → exec .boundary s = .next s)
    ∧ (reached → exec .boundary s = .next (((s.put F.FARM_STATUS_state 4).raise pgFARM Ev.FARM_boundary).telemetry 2 0))
    ∧ (¬late → exec .boundaryFail s = .next s) ∧ (late → exec .boundaryFail s = .next (s.farmHold.raise pgFARM Ev.FARM_boundary_fail))
    ∧ (¬slow → exec .straggler s = .next s) ∧ (slow → exec .straggler s = .next ((told.raise pgFARM Ev.FARM_straggler).telemetry 3 0))
    ∧ exec .periodic s = .next (if s.get F.FARM_TELEM_period_ms = 0 then s else s.telemetry 1 0))
  ∧ (∀ (kind link : Nat) (s : State),
    let dies := (List.range 4).filter fun d => decide (s.cdState d = 3)
    let drawn := if dies = [] then 2 else 1
    let degrees : Int := if dies = [] then Config.free (s.freeCtr + 1)
      else dies.foldl (fun (m : Int) d => max m (toSigned 8 (s.get (F.THM_DIE_MAX_die d)))) (-128)
    let body := leBytes 1 kind ++ leBytes 1 (s.get F.FARM_STATUS_state) ++ leBytes 1 (if s.xReady then s.xId else 0xFF) ++ leBytes 1 link
      ++ leBytes 4 (s.regWord pgFARM 0x50).toNat ++ leBytes 4 (s.regWord pgFARM 0x54).toNat ++ leBytes 4 (s.get F.FARM_SEGMENT_number)
      ++ leBytes 8 (s.addr F.JRN_REPLAY_POS_LO_position) ++ leBytes 4 (s.get F.FARM_PROG_RECORDS_count) ++ leBytes 2 (Config.free s.freeCtr)
      ++ leBytes 1 (degrees % 256).toNat ++ leBytes 1 0
    let q := 0x200 + s.get F.FARM_TELEM_queue
    let on := s.get F.FARM_CTRL_telem_en = 1
    (¬on → s.telemetry kind link = s)
    ∧ (on → (s.queue q).hasRoom = true → s.telemetry kind link = { s with freeCtr := s.freeCtr + drawn }.ringEntry q body)
    ∧ (on → (s.queue q).hasRoom = false → s.telemetry kind link = (s.count F.FARM_TELEM_DROP_count 1).raise pgFARM Ev.FARM_telem_drop))
  ∧ (∀ (acc : Acc) (s s2 : State) (w : Word), s.written pgFARM 0x0C0 acc = some (s2, w) →
    let may := s2.get F.XGS_CTRL_enable = 1 ∧ s2.get F.XGS_DOMAIN_twin ≠ 1
    let id := (((s2.put F.FARM_TAKEOVER_refused 0).put F.FARM_STATUS_refused 0).put F.FARM_STATUS_cause 0).put F.XGS_DOMAIN_id
      (s2.get F.FARM_TAKEOVER_id)
    let t := { id.put F.XGS_DOMAIN_auto 0 with farm := { s2.farm with taking := true } }
    (w.getLsbD 31 = false → exec (.takeover acc) s = .next s2)
    ∧ (w.getLsbD 31 = true → ¬may → exec (.takeover acc) s = .next ((s2.put F.FARM_TAKEOVER_refused 1).farmRefuse 8))
    ∧ (w.getLsbD 31 = true → may → exec (.takeover acc) s = .next t.domainForm))
  ∧ (∀ (ok : Bool) (s : State),
    let s1 := { s with farm := { s.farm with taking := false } }
    (s.farm.taking = false → s.takeoverEnd ok = s)
    ∧ (s.farm.taking = true → s.takeoverEnd ok = if ok then (s1.raise pgFARM Ev.FARM_takeover_done).telemetry 4 0
      else (s1.put F.FARM_TAKEOVER_refused 1).farmRefuse 8))
  ∧ (∀ (acc : Acc) (s s2 : State) (w : Word), s.written pgFARM 0x0D0 acc = some (s2, w) →
    let l := s2.get F.FARM_RELINK_link
    let may := s2.get (F.XL_CTRL_enable l) = 1 ∧ s2.relinking l = false
    let s3 := (s2.put F.FARM_RELINK_refused 0).put F.FARM_RELINK_relinking (s2.get F.FARM_RELINK_relinking ||| 2 ^ l)
    (w.getLsbD 31 = false → exec (.relink acc) s = .next s2)
    ∧ (w.getLsbD 31 = true → ¬may → exec (.relink acc) s = .next (s2.put F.FARM_RELINK_refused 1))
    ∧ (w.getLsbD 31 = true → may → exec (.relink acc) s
      = .next { s3 with farm := { s2.farm with relink := tabSet s2.farm.relink l s2.hubUs } }.reroute))
  ∧ (∀ (l : Fin 8) (serial : Nat) (old : Option XPeer) (s : State),
    let map := s.get F.FARM_RELINK_relinking
    let ended := { s.put F.FARM_RELINK_relinking (if map.testBit l then map - 2 ^ l.val else map) with farm := { s.farm with
      relink := tabDel s.farm.relink l } }
    let recs := s.allRecs
    let again := if old.any fun p => decide (p.serial = serial) then ended.replayFrames l else ended.setXl l { ended.xl l with moved := true }
    (s.relinking l = true ↔ tabFind s.farm.relink l ≠ none)
    ∧ (s.relinking l = false → exec (.relinkExpired l) s = .next s)
    ∧ (s.relinking l = true → exec (.relinkExpired l) s = .next (((ended.linkDown l 0).raise pgFARM Ev.FARM_relink_expired).telemetry 6 l))
    ∧ s.relinkMet l serial old = (again.raise pgFARM Ev.FARM_relink_done).telemetry 5 l
    ∧ s.reroute = { s with xgs := { s.xgs with members := s.xgs.members.map fun m => (m.1, { m.2 with
      link := (s.routeTo recs m.2.serial).1
      hops := (s.routeTo recs m.2.serial).2 }) } })

/-- R548 to R552: checkpoint images. -/
def Obligations.FarmImages : Prop :=
  (∀ s : State,
    let n := s.peekNat (s.ckptAt + 0xC) 4
    let rs := ckptRegions (min n 256) (s.bytes (s.ckptAt + 0x1000) 4096)
    let s1 := s.headsBack.queuesBack
    let t := (s1.put F.FARM_STATUS_refused 0).put F.FARM_STATUS_cause 0
    let good := n ≤ 256 ∧ s.ckptRegionsOk rs = true
    (s.get F.FARM_STATUS_state ≠ 4 → s.farmSave = s.farmRefuse 9)
    ∧ (s.get F.FARM_STATUS_state = 4 → ¬good → s.farmSave = s.farmRefuse 6)
    ∧ (s.get F.FARM_STATUS_state = 4 → good →
      s.farmSave = { t.put F.FARM_STATUS_state 5 with farm := { s1.farm with save := some (s1.ckptImage rs) } }))
  ∧ (∀ (rs : List (Nat × Nat)) (s : State),
    let a := s.ckptAt
    let n := ckptLen rs
    a = 2 ^ 20 * (s.get F.FARM_CKPT_ADDR_LO_addr + 2 ^ 12 * s.get F.FARM_CKPT_ADDR_HI_addr)
    ∧ n = 0x82000 + ((rs.map fun r => 36 * (r.2 / 32)).sum)
    ∧ (s.ckptRegionsOk rs = true ↔ s.inDram a n = true ∧ ∀ r ∈ rs, r.1 % 4096 = 0 ∧ r.2 % 4096 = 0 ∧ s.inMemory r.1 r.2 = true
      ∧ touchesRedBuf r.1 r.2 = false ∧ (r.1 + r.2 ≤ a ∨ a + n ≤ r.1)))
  ∧ (∀ s : State,
    let back := s.jobs.filter fun j => j.released.isNone
    let t := s.headsBack
    t.jobs = s.jobs.filter (fun j => j.released.isSome)
    ∧ { t with jobs := s.jobs, queues := s.queues, qPend := s.qPend, qSumm := s.qSumm } = s
    ∧ (∀ q, (t.queue q).consumer % 2 ^ 32 = ((s.queue q).consumer + (back.filter (fun j => j.queue == q)).length * (2 ^ 32 - 1)) % 2 ^ 32
      ∧ (t.queue q).inFlight = (s.queue q).inFlight - (back.filter (fun j => j.queue == q)).length
      ∧ { t.queue q with consumer := (s.queue q).consumer, inFlight := (s.queue q).inFlight } = s.queue q))
  ∧ (∀ (rs : List (Nat × Nat)) (s : State), rs.length ≤ 256 →
    let b := s.ckptImage rs
    let k := s.stateBlock
    b.length = ckptLen rs ∧ k.length = 0x80000
    ∧ b.take 4 = [0x56#8, 0x43#8, 0x4B#8, 0x31#8] ∧ fieldAt b 4 2 = 1 ∧ fieldAt b 6 2 = s.get F.GEN_FW_REV_arith_rev % 2 ^ 16
    ∧ fieldAt b 8 4 = s.get F.FARM_SEGMENT_number ∧ fieldAt b 0xC 4 = rs.length ∧ fieldAt b 0x10 8 = s.boundary
    ∧ fieldAt b 0x18 8 = s.fuse.serial.toNat ∧ fieldAt b 0x20 8 = ckptLen rs % 2 ^ 64 ∧ bytesAt b 0x28 24 = List.replicate 24 0#8
    ∧ bytesAt b 0x40 64 = sha3_512 (b.drop 0x1000) ∧ bytesAt b 0x80 3968 = List.replicate 3968 0#8
    ∧ (∀ j < 256, fieldAt b (0x1000 + 16 * j) 8 = (rs.getD j (0, 0)).1 % 2 ^ 64 ∧ fieldAt b (0x1008 + 16 * j) 8 = (rs.getD j (0, 0)).2 % 2 ^ 64)
    ∧ bytesAt b 0x2000 0x80000 = k ∧ b.drop 0x82000 = rs.flatMap s.codedRegion
    ∧ (∀ o < 4096, fieldAt k (8 * o) 8 = s.fence o % 2 ^ 64) ∧ fieldAt k 0x8000 8 = s.jrnPos % 2 ^ 64
    ∧ (∀ j < 128, fieldAt k (0x8040 + 4 * j) 4 = (s.stream j).seq % 2 ^ 32 ∧ fieldAt k (0x8240 + j) 1 = (s.stream j).score % 256)
    ∧ fieldAt k 0x8300 2 = s.get F.COLL_EPOCH_epoch % 2 ^ 16
    ∧ (∀ j < 64, fieldAt k (0x8340 + 4 * j) 4 = tabGet s.plan.numbers j 0 % 2 ^ 32)
    ∧ (∀ j < 2, fieldAt k (0x8440 + 8 * j) 8 = tabGet s.plan.maps j 0 % 2 ^ 64)
    ∧ bytesAt k 0x8480 128 = s.egoBlock
    ∧ (∀ q < 1048576, (fieldAt k (0x10000 + q / 8) 1).testBit (q % 8) = (s.queue q).enabled))
  ∧ (∀ (r : Nat × Nat) (s : State),
    let coded := fun (w : List Byte × Bool) => w.1 ++ (if w.2 then (bytesAt (Config.checkBytes w.1) 0 4).map (· ^^^ 0xA5#8)
      else bytesAt (Config.checkBytes w.1) 0 4)
    s.codedRegion r = (List.range (r.2 / 32)).flatMap (fun k => coded (s.peek (r.1 + 32 * k) 32)))
  ∧ (∀ (b : List Byte) (s : State),
    let show1 := fun (u : State) (k : Nat) => u.put (F.FARM_CKPT_DIGEST_digest k) (fieldAt b (0x40 + 4 * k) 4)
    s.ckptShow b = ((List.range 16).foldl show1 s).put F.FARM_CKPT_SIZE_mib ((b.length + 1048575) / 1048576))
  ∧ (∀ s : State,
    (∀ b, s.farm.save = some b →
      let s1 := ((s.store s.ckptAt b).ckptShow b).put F.FARM_STATUS_state 4
      exec .saved s = .next ({ s1 with farm := { s.farm with save := none } }.raise pgFARM Ev.FARM_saved))
    ∧ (s.farm.save = none → exec .saved s = .next s)
    ∧ (∀ b, s.farm.save = some b → s.plainStore s.ckptAt b.length = true → ∃ t, exec .saved s = .next t
      ∧ t.bytes s.ckptAt b.length = b ∧ BytesBut s.ckptAt b.length s t ∧ t.get F.FARM_STATUS_state = 4
      ∧ (∀ k < 16, t.get (F.FARM_CKPT_DIGEST_digest k) = fieldAt b (0x40 + 4 * k) 4)
      ∧ t.get F.FARM_CKPT_SIZE_mib = (b.length + 1048575) / 1048576 % 2 ^ 32 ∧ t.eventSet pgFARM Ev.FARM_saved = true ∧ t.jobs = s.jobs))
  ∧ (∀ s : State,
    let a := s.ckptAt
    let h := s.bytes a 0x2000
    let n := fieldAt h 0x20 8
    let rs := ckptRegions (fieldAt h 0xC 4) (bytesAt h 0x1000 4096)
    let bad := if s.get F.FARM_STATUS_state ≠ 1 then 2
      else if s.poisonedAt a 0x2000 ∨ ckptHeadOk h = false ∨ s.inDram a n = false then 3
      else if s.poisonedAt a n ∨ bytesAt h 0x40 64 ≠ sha3_512 ((s.bytes a n).drop 0x1000) then 4
      else if fieldAt h 6 2 ≠ s.get F.GEN_FW_REV_arith_rev then 5
      else if s.ckptRegionsOk rs then 0 else 6
    let t := ((s.put F.FARM_STATUS_refused 0).put F.FARM_STATUS_cause 0).put F.FARM_STATUS_state 6
    s.farmRestore = (if bad = 0 then { t with farm := { s.farm with restore := some (s.bytes a n) } } else s.farmRefuse bad)
    ∧ (ckptHeadOk h = true ↔ h.take 4 = [0x56#8, 0x43#8, 0x4B#8, 0x31#8] ∧ fieldAt h 4 2 = 1 ∧ fieldAt h 0xC 4 ≤ 256
      ∧ bytesAt h 0x28 24 = List.replicate 24 0#8 ∧ bytesAt h 0x80 3968 = List.replicate 3968 0#8 ∧ n = ckptLen rs
      ∧ ∀ k < 4096, 16 * fieldAt h 0xC 4 ≤ k → fieldAt h (0x1000 + k) 1 = 0))
  ∧ (∀ s : State,
    (∀ b, s.farm.restore = some b →
      let rs := ckptRegions (fieldAt b 0xC 4) (bytesAt b 0x1000 4096)
      let blk := bytesAt b 0x2000 0x80000
      let s1 := ((s.sramClear rs).regionsBack rs (b.drop 0x82000)).registersBack (blk.drop 0x30000)
      let s2 := (((s1.blockBack blk).egoBack (bytesAt blk 0x8480 128)).fusBack (bytesAt blk 0x8500 4480)).blocksBack
      let s3 := ((s2.put F.QENG_CTRL_enable 1).put F.QENG_STATUS_state 1).queuesOn (bytesAt blk 0x10000 131072)
      let s4 := ({ s3 with farm := { s3.farm with restore := none, fresh := false } } : State).farmBegin
      let s5 := (s4.put F.FARM_STATUS_state 0).put F.FARM_SEGMENT_number ((fieldAt b 8 4 + 1) % 2 ^ 32)
      exec .restored s = .next ((s5.ckptShow b).raise pgFARM Ev.FARM_restored))
    ∧ (s.farm.restore = none → exec .restored s = .next s)
    ∧ (∀ b, s.farm.restore = some b → ∃ t, exec .restored s = .next t ∧ t.get F.FARM_STATUS_state = 0
      ∧ t.get F.FARM_SEGMENT_number = (fieldAt b 8 4 + 1) % 2 ^ 32 ∧ t.eventSet pgFARM Ev.FARM_restored = true ∧ t.farm.fresh = false
      ∧ t.farm.restore = none ∧ t.farm.began = true ∧ t.get F.QENG_CTRL_enable = 1 ∧ t.get F.FARM_PROG_RECORDS_count = 0
      ∧ (∀ o < 4096, t.fence o = fieldAt b (0x2000 + 8 * o) 8)
      ∧ (∀ k < 64, tabGet t.plan.numbers k 0 = fieldAt b (0xA340 + 4 * k) 4)
      ∧ (∀ k < 16, t.get (F.FARM_CKPT_DIGEST_digest k) = fieldAt b (0x40 + 4 * k) 4)))
  ∧ (∀ (rs : List (Nat × Nat)) (s : State),
    let t := s.sramClear rs
    let sram := fun (a : Nat) => (List.range 4).any (fun n => (decide (stackBase n ≤ a ∧ a < stackBase n + 0x10000000)
      || decide (poolBase n ≤ a ∧ a < poolBase n + 0x3E00000))) || decide (hubBase ≤ a ∧ a < hubBase + 0x6000000)
    let gone := fun (a : Nat) => sram a && rs.all fun r => !decide (r.1 ≤ a ∧ a < r.1 + r.2)
    t = { s with mem := s.mem.filter (fun c => !gone c.1), cond := s.cond.filter (fun c => !gone (32 * c.1)) })
  ∧ (∀ (r : Nat × Nat) (rs : List (Nat × Nat)) (b : List Byte) (s : State),
    let word := fun (t : State) (k : Nat) => t.store (r.1 + 32 * k) (bytesAt b (36 * k) 32)
      (bytesAt b (36 * k + 32) 4 ≠ bytesAt (Config.checkBytes (bytesAt b (36 * k) 32)) 0 4)
    s.regionBack r b = (List.range (r.2 / 32)).foldl word s
    ∧ s.regionsBack [] b = s ∧ s.regionsBack (r :: rs) b = (s.regionBack r b).regionsBack rs (b.drop (36 * (r.2 / 32))))
  ∧ (∀ (b : List Byte) (s : State),
    let t := s.blockBack b
    (∀ o < 4096, t.fence o = fieldAt b (8 * o) 8) ∧ t.jrnPos = fieldAt b 0x8000 8
    ∧ (∀ n < 128, (t.stream n).seq = fieldAt b (0x8040 + 4 * n) 4 ∧ (t.stream n).score = fieldAt b (0x8240 + n) 1)
    ∧ t.get F.COLL_EPOCH_epoch = fieldAt b 0x8300 2
    ∧ t.coll.current = (if fieldAt b 0x8300 2 = 0 then none else some (fieldAt b 0x8302 1 % 2))
    ∧ (∀ k < 64, tabGet t.plan.numbers k 0 = fieldAt b (0x8340 + 4 * k) 4)
    ∧ (∀ k < 2, tabGet t.plan.maps k 0 = fieldAt b (0x8440 + 8 * k) 8) ∧ t.plan.queries = [] ∧ t.coll.building = none
    ∧ t.mem = s.mem ∧ t.jobs = s.jobs ∧ t.queues = s.queues
    ∧ FieldsBut [F.JRN_POS_LO_position, F.JRN_POS_HI_position, F.COLL_EPOCH_epoch] s t)
  ∧ (∀ s : State,
    let t := s.egoBack s.egoBlock
    t.get F.EGO_POSE_COUNT_count = s.get F.EGO_POSE_COUNT_count ∧ t.get F.EGO_STATUS_src = s.get F.EGO_STATUS_src
    ∧ t.ego.some1 = s.ego.some1 ∧ t.ego.tPrev = s.ego.tPrev % 2 ^ 64 ∧ t.egoIn = [] ∧ t.mem = s.mem
    ∧ (∀ k < 6, t.ego.biases.getD k 0 = s.ego.biases.getD k 0 % 2 ^ 32))

/-- The steps of the block; what happens on an empty queue is the model's choice (assumption 1). -/
def Obligations.StepRunsFrontCommand : Prop :=
  (∀ (c : Instr) (s : State), step (s.withFront c) = exec c s)
  ∧ (∀ s : State, s.pending = [] → ∃ t, step s = .next t ∧ t.hubUs = s.hubUs + 1
    ∧ t.isl = s.isl.map (fun e => (e.1, if e.2.running then { e.2 with time := e.2.time + 1 } else e.2))
    ∧ t.dike.windows.map (·.1) = s.dike.windows.map (·.1)
    ∧ { t.dike with windows := s.dike.windows } = s.dike
    ∧ { t with hubUs := s.hubUs, isl := s.isl, dike := s.dike } = s)
  ∧ (∀ (n : Nat) (w : Window) (s : State), s.pending = [] → tabFind s.dike.windows n = some w →
    ∃ t, step s = .next t ∧ tabFind t.dike.windows n = some { w with tokens := min (w.tokens + w.rate) (2 * w.burst) })

/-- Every command completes; none puts a command into the queue or takes one out. -/
def Obligations.EveryCommandAnswers : Prop :=
  ∀ (c : Instr) (s : State), ∃ t, exec c s = .next t ∧ t.pending = s.pending

/-- The canonical form of device memory is kept by every step. -/
def Obligations.StepsKeepMemoryForm : Prop :=
  ∀ s t : State, s.memOk → step s = .next t → t.memOk

/-- R43, R44, R66, R67: what reset leaves. -/
def Obligations.ResetState : Prop :=
  State.reset.memOk ∧ State.reset.mem = [] ∧ State.reset.pending = [] ∧ State.reset.jobs = [] ∧ State.reset.queues = []
  ∧ (State.reset.regWord 0 0 = 0x00000001#32 ∧ State.reset.regWord 5 0 = 0x00050001#32 ∧ State.reset.regWord 47 0 = 0x002F0001#32
    ∧ State.reset.regWord 62 0 = 0x003E0001#32 ∧ State.reset.regWord 80 0 = 0x00500001#32)
  ∧ (∀ k < 16, State.reset.regWord (64 + k) 0 = BitVec.ofNat 32 (0x00400001 + 256 * k))
  ∧ (∀ k < 96, State.reset.regWord (128 + k) 0 = BitVec.ofNat 32 (0x00800001 + 256 * k))
  ∧ (∀ p < 232, (regAt p 0).isSome = true → State.reset.get (F.BLK_LEVEL_expert p) = 0 ∧ State.reset.regWord p 0x10 = 0#32
    ∧ (p ≠ 57 → p ≠ 58 → State.reset.get (F.BLK_STATUS_in_reset p) = 1))
  ∧ (∀ d < 4, State.reset.get (F.ST_STATUS_step d) = 3 ∧ State.reset.cdState d = 1)
end

