-- ==== Sys2Proof/Laws/State.lean ====
section
/-! SUPPORT. Which field of State each shared update leaves as it was, one lemma per field and update. -/

set_option Elab.async false

namespace Sys2Proof.Machine

variable (s : State)

@[simp] theorem State.put_fuse (f : Fld) (v : Nat) : (s.put f v).fuse = s.fuse := rfl
@[simp] theorem State.put_mem (f : Fld) (v : Nat) : (s.put f v).mem = s.mem := rfl
@[simp] theorem State.put_cond (f : Fld) (v : Nat) : (s.put f v).cond = s.cond := rfl
@[simp] theorem State.put_readData (f : Fld) (v : Nat) : (s.put f v).readData = s.readData := rfl
@[simp] theorem State.put_out (f : Fld) (v : Nat) : (s.put f v).out = s.out := rfl
@[simp] theorem State.put_freeCtr (f : Fld) (v : Nat) : (s.put f v).freeCtr = s.freeCtr := rfl
@[simp] theorem State.put_armedBy (f : Fld) (v : Nat) : (s.put f v).armedBy = s.armedBy := rfl
@[simp] theorem State.put_hubUs (f : Fld) (v : Nat) : (s.put f v).hubUs = s.hubUs := rfl
@[simp] theorem State.put_unitMaps (f : Fld) (v : Nat) : (s.put f v).unitMaps = s.unitMaps := rfl
@[simp] theorem State.put_ident (f : Fld) (v : Nat) : (s.put f v).ident = s.ident := rfl
@[simp] theorem State.put_accepted (f : Fld) (v : Nat) : (s.put f v).accepted = s.accepted := rfl
@[simp] theorem State.put_links (f : Fld) (v : Nat) : (s.put f v).links = s.links := rfl
@[simp] theorem State.put_disc (f : Fld) (v : Nat) : (s.put f v).disc = s.disc := rfl
@[simp] theorem State.put_dike (f : Fld) (v : Nat) : (s.put f v).dike = s.dike := rfl
@[simp] theorem State.put_flt (f : Fld) (v : Nat) : (s.put f v).flt = s.flt := rfl
@[simp] theorem State.put_mcs (f : Fld) (v : Nat) : (s.put f v).mcs = s.mcs := rfl
@[simp] theorem State.put_memg (f : Fld) (v : Nat) : (s.put f v).memg = s.memg := rfl
@[simp] theorem State.put_islMem (f : Fld) (v : Nat) : (s.put f v).islMem = s.islMem := rfl
@[simp] theorem State.put_arrs (f : Fld) (v : Nat) : (s.put f v).arrs = s.arrs := rfl
@[simp] theorem State.put_transit (f : Fld) (v : Nat) : (s.put f v).transit = s.transit := rfl
@[simp] theorem State.put_ext (f : Fld) (v : Nat) : (s.put f v).ext = s.ext := rfl
@[simp] theorem State.put_extTag (f : Fld) (v : Nat) : (s.put f v).extTag = s.extTag := rfl
@[simp] theorem State.put_kv (f : Fld) (v : Nat) : (s.put f v).kv = s.kv := rfl
@[simp] theorem State.put_streams (f : Fld) (v : Nat) : (s.put f v).streams = s.streams := rfl
@[simp] theorem State.put_egoIn (f : Fld) (v : Nat) : (s.put f v).egoIn = s.egoIn := rfl
@[simp] theorem State.put_wardRuns (f : Fld) (v : Nat) : (s.put f v).wardRuns = s.wardRuns := rfl
@[simp] theorem State.put_ego (f : Fld) (v : Nat) : (s.put f v).ego = s.ego := rfl
@[simp] theorem State.put_proj (f : Fld) (v : Nat) : (s.put f v).proj = s.proj := rfl
@[simp] theorem State.put_fus (f : Fld) (v : Nat) : (s.put f v).fus = s.fus := rfl
@[simp] theorem State.put_coll (f : Fld) (v : Nat) : (s.put f v).coll = s.coll := rfl
@[simp] theorem State.put_plan (f : Fld) (v : Nat) : (s.put f v).plan = s.plan := rfl
@[simp] theorem State.put_planMsgs (f : Fld) (v : Nat) : (s.put f v).planMsgs = s.planMsgs := rfl
@[simp] theorem State.put_queues (f : Fld) (v : Nat) : (s.put f v).queues = s.queues := rfl
@[simp] theorem State.put_qPtr (f : Fld) (v : Nat) : (s.put f v).qPtr = s.qPtr := rfl
@[simp] theorem State.put_qPend (f : Fld) (v : Nat) : (s.put f v).qPend = s.qPend := rfl
@[simp] theorem State.put_qSumm (f : Fld) (v : Nat) : (s.put f v).qSumm = s.qSumm := rfl
@[simp] theorem State.put_jobs (f : Fld) (v : Nat) : (s.put f v).jobs = s.jobs := rfl
@[simp] theorem State.put_relCount (f : Fld) (v : Nat) : (s.put f v).relCount = s.relCount := rfl
@[simp] theorem State.put_cqStaged (f : Fld) (v : Nat) : (s.put f v).cqStaged = s.cqStaged := rfl
@[simp] theorem State.put_fences (f : Fld) (v : Nat) : (s.put f v).fences = s.fences := rfl
@[simp] theorem State.put_jrn (f : Fld) (v : Nat) : (s.put f v).jrn = s.jrn := rfl
@[simp] theorem State.put_det (f : Fld) (v : Nat) : (s.put f v).det = s.det := rfl
@[simp] theorem State.put_islMsgs (f : Fld) (v : Nat) : (s.put f v).islMsgs = s.islMsgs := rfl
@[simp] theorem State.put_xgs (f : Fld) (v : Nat) : (s.put f v).xgs = s.xgs := rfl
@[simp] theorem State.put_twin (f : Fld) (v : Nat) : (s.put f v).twin = s.twin := rfl
@[simp] theorem State.put_isl (f : Fld) (v : Nat) : (s.put f v).isl = s.isl := rfl
@[simp] theorem State.put_fltLog (f : Fld) (v : Nat) : (s.put f v).fltLog = s.fltLog := rfl
@[simp] theorem State.put_fltNext (f : Fld) (v : Nat) : (s.put f v).fltNext = s.fltNext := rfl
@[simp] theorem State.put_stest (f : Fld) (v : Nat) : (s.put f v).stest = s.stest := rfl
@[simp] theorem State.put_spilled (f : Fld) (v : Nat) : (s.put f v).spilled = s.spilled := rfl
@[simp] theorem State.put_pwr (f : Fld) (v : Nat) : (s.put f v).pwr = s.pwr := rfl
@[simp] theorem State.put_sec (f : Fld) (v : Nat) : (s.put f v).sec = s.sec := rfl
@[simp] theorem State.put_farm (f : Fld) (v : Nat) : (s.put f v).farm = s.farm := rfl
@[simp] theorem State.put_cfg (f : Fld) (v : Nat) : (s.put f v).cfg = s.cfg := rfl
@[simp] theorem State.put_pending (f : Fld) (v : Nat) : (s.put f v).pending = s.pending := rfl

@[simp] theorem State.putWord_fuse (p o : Nat) (w : Word) : (s.putWord p o w).fuse = s.fuse := rfl
@[simp] theorem State.putWord_mem (p o : Nat) (w : Word) : (s.putWord p o w).mem = s.mem := rfl
@[simp] theorem State.putWord_cond (p o : Nat) (w : Word) : (s.putWord p o w).cond = s.cond := rfl
@[simp] theorem State.putWord_readData (p o : Nat) (w : Word) : (s.putWord p o w).readData = s.readData := rfl
@[simp] theorem State.putWord_out (p o : Nat) (w : Word) : (s.putWord p o w).out = s.out := rfl
@[simp] theorem State.putWord_freeCtr (p o : Nat) (w : Word) : (s.putWord p o w).freeCtr = s.freeCtr := rfl
@[simp] theorem State.putWord_armedBy (p o : Nat) (w : Word) : (s.putWord p o w).armedBy = s.armedBy := rfl
@[simp] theorem State.putWord_hubUs (p o : Nat) (w : Word) : (s.putWord p o w).hubUs = s.hubUs := rfl
@[simp] theorem State.putWord_unitMaps (p o : Nat) (w : Word) : (s.putWord p o w).unitMaps = s.unitMaps := rfl
@[simp] theorem State.putWord_ident (p o : Nat) (w : Word) : (s.putWord p o w).ident = s.ident := rfl
@[simp] theorem State.putWord_accepted (p o : Nat) (w : Word) : (s.putWord p o w).accepted = s.accepted := rfl
@[simp] theorem State.putWord_links (p o : Nat) (w : Word) : (s.putWord p o w).links = s.links := rfl
@[simp] theorem State.putWord_disc (p o : Nat) (w : Word) : (s.putWord p o w).disc = s.disc := rfl
@[simp] theorem State.putWord_dike (p o : Nat) (w : Word) : (s.putWord p o w).dike = s.dike := rfl
@[simp] theorem State.putWord_flt (p o : Nat) (w : Word) : (s.putWord p o w).flt = s.flt := rfl
@[simp] theorem State.putWord_mcs (p o : Nat) (w : Word) : (s.putWord p o w).mcs = s.mcs := rfl
@[simp] theorem State.putWord_memg (p o : Nat) (w : Word) : (s.putWord p o w).memg = s.memg := rfl
@[simp] theorem State.putWord_islMem (p o : Nat) (w : Word) : (s.putWord p o w).islMem = s.islMem := rfl
@[simp] theorem State.putWord_arrs (p o : Nat) (w : Word) : (s.putWord p o w).arrs = s.arrs := rfl
@[simp] theorem State.putWord_transit (p o : Nat) (w : Word) : (s.putWord p o w).transit = s.transit := rfl
@[simp] theorem State.putWord_ext (p o : Nat) (w : Word) : (s.putWord p o w).ext = s.ext := rfl
@[simp] theorem State.putWord_extTag (p o : Nat) (w : Word) : (s.putWord p o w).extTag = s.extTag := rfl
@[simp] theorem State.putWord_kv (p o : Nat) (w : Word) : (s.putWord p o w).kv = s.kv := rfl
@[simp] theorem State.putWord_streams (p o : Nat) (w : Word) : (s.putWord p o w).streams = s.streams := rfl
@[simp] theorem State.putWord_egoIn (p o : Nat) (w : Word) : (s.putWord p o w).egoIn = s.egoIn := rfl
@[simp] theorem State.putWord_wardRuns (p o : Nat) (w : Word) : (s.putWord p o w).wardRuns = s.wardRuns := rfl
@[simp] theorem State.putWord_ego (p o : Nat) (w : Word) : (s.putWord p o w).ego = s.ego := rfl
@[simp] theorem State.putWord_proj (p o : Nat) (w : Word) : (s.putWord p o w).proj = s.proj := rfl
@[simp] theorem State.putWord_fus (p o : Nat) (w : Word) : (s.putWord p o w).fus = s.fus := rfl
@[simp] theorem State.putWord_coll (p o : Nat) (w : Word) : (s.putWord p o w).coll = s.coll := rfl
@[simp] theorem State.putWord_plan (p o : Nat) (w : Word) : (s.putWord p o w).plan = s.plan := rfl
@[simp] theorem State.putWord_planMsgs (p o : Nat) (w : Word) : (s.putWord p o w).planMsgs = s.planMsgs := rfl
@[simp] theorem State.putWord_queues (p o : Nat) (w : Word) : (s.putWord p o w).queues = s.queues := rfl
@[simp] theorem State.putWord_qPtr (p o : Nat) (w : Word) : (s.putWord p o w).qPtr = s.qPtr := rfl
@[simp] theorem State.putWord_qPend (p o : Nat) (w : Word) : (s.putWord p o w).qPend = s.qPend := rfl
@[simp] theorem State.putWord_qSumm (p o : Nat) (w : Word) : (s.putWord p o w).qSumm = s.qSumm := rfl
@[simp] theorem State.putWord_jobs (p o : Nat) (w : Word) : (s.putWord p o w).jobs = s.jobs := rfl
@[simp] theorem State.putWord_relCount (p o : Nat) (w : Word) : (s.putWord p o w).relCount = s.relCount := rfl
@[simp] theorem State.putWord_cqStaged (p o : Nat) (w : Word) : (s.putWord p o w).cqStaged = s.cqStaged := rfl
@[simp] theorem State.putWord_fences (p o : Nat) (w : Word) : (s.putWord p o w).fences = s.fences := rfl
@[simp] theorem State.putWord_jrn (p o : Nat) (w : Word) : (s.putWord p o w).jrn = s.jrn := rfl
@[simp] theorem State.putWord_det (p o : Nat) (w : Word) : (s.putWord p o w).det = s.det := rfl
@[simp] theorem State.putWord_islMsgs (p o : Nat) (w : Word) : (s.putWord p o w).islMsgs = s.islMsgs := rfl
@[simp] theorem State.putWord_xgs (p o : Nat) (w : Word) : (s.putWord p o w).xgs = s.xgs := rfl
@[simp] theorem State.putWord_twin (p o : Nat) (w : Word) : (s.putWord p o w).twin = s.twin := rfl
@[simp] theorem State.putWord_isl (p o : Nat) (w : Word) : (s.putWord p o w).isl = s.isl := rfl
@[simp] theorem State.putWord_fltLog (p o : Nat) (w : Word) : (s.putWord p o w).fltLog = s.fltLog := rfl
@[simp] theorem State.putWord_fltNext (p o : Nat) (w : Word) : (s.putWord p o w).fltNext = s.fltNext := rfl
@[simp] theorem State.putWord_stest (p o : Nat) (w : Word) : (s.putWord p o w).stest = s.stest := rfl
@[simp] theorem State.putWord_spilled (p o : Nat) (w : Word) : (s.putWord p o w).spilled = s.spilled := rfl
@[simp] theorem State.putWord_pwr (p o : Nat) (w : Word) : (s.putWord p o w).pwr = s.pwr := rfl
@[simp] theorem State.putWord_sec (p o : Nat) (w : Word) : (s.putWord p o w).sec = s.sec := rfl
@[simp] theorem State.putWord_farm (p o : Nat) (w : Word) : (s.putWord p o w).farm = s.farm := rfl
@[simp] theorem State.putWord_cfg (p o : Nat) (w : Word) : (s.putWord p o w).cfg = s.cfg := rfl
@[simp] theorem State.putWord_pending (p o : Nat) (w : Word) : (s.putWord p o w).pending = s.pending := rfl

@[simp] theorem State.emit_regs (c : OutCh) (a : List Nat) (d : List Byte) : (s.emit c a d).regs = s.regs := rfl
@[simp] theorem State.emit_fuse (c : OutCh) (a : List Nat) (d : List Byte) : (s.emit c a d).fuse = s.fuse := rfl
@[simp] theorem State.emit_mem (c : OutCh) (a : List Nat) (d : List Byte) : (s.emit c a d).mem = s.mem := rfl
@[simp] theorem State.emit_cond (c : OutCh) (a : List Nat) (d : List Byte) : (s.emit c a d).cond = s.cond := rfl
@[simp] theorem State.emit_readData (c : OutCh) (a : List Nat) (d : List Byte) : (s.emit c a d).readData = s.readData := rfl
@[simp] theorem State.emit_freeCtr (c : OutCh) (a : List Nat) (d : List Byte) : (s.emit c a d).freeCtr = s.freeCtr := rfl
@[simp] theorem State.emit_armedBy (c : OutCh) (a : List Nat) (d : List Byte) : (s.emit c a d).armedBy = s.armedBy := rfl
@[simp] theorem State.emit_hubUs (c : OutCh) (a : List Nat) (d : List Byte) : (s.emit c a d).hubUs = s.hubUs := rfl
@[simp] theorem State.emit_unitMaps (c : OutCh) (a : List Nat) (d : List Byte) : (s.emit c a d).unitMaps = s.unitMaps := rfl
@[simp] theorem State.emit_ident (c : OutCh) (a : List Nat) (d : List Byte) : (s.emit c a d).ident = s.ident := rfl
@[simp] theorem State.emit_accepted (c : OutCh) (a : List Nat) (d : List Byte) : (s.emit c a d).accepted = s.accepted := rfl
@[simp] theorem State.emit_links (c : OutCh) (a : List Nat) (d : List Byte) : (s.emit c a d).links = s.links := rfl
@[simp] theorem State.emit_disc (c : OutCh) (a : List Nat) (d : List Byte) : (s.emit c a d).disc = s.disc := rfl
@[simp] theorem State.emit_dike (c : OutCh) (a : List Nat) (d : List Byte) : (s.emit c a d).dike = s.dike := rfl
@[simp] theorem State.emit_flt (c : OutCh) (a : List Nat) (d : List Byte) : (s.emit c a d).flt = s.flt := rfl
@[simp] theorem State.emit_mcs (c : OutCh) (a : List Nat) (d : List Byte) : (s.emit c a d).mcs = s.mcs := rfl
@[simp] theorem State.emit_memg (c : OutCh) (a : List Nat) (d : List Byte) : (s.emit c a d).memg = s.memg := rfl
@[simp] theorem State.emit_islMem (c : OutCh) (a : List Nat) (d : List Byte) : (s.emit c a d).islMem = s.islMem := rfl
@[simp] theorem State.emit_arrs (c : OutCh) (a : List Nat) (d : List Byte) : (s.emit c a d).arrs = s.arrs := rfl
@[simp] theorem State.emit_transit (c : OutCh) (a : List Nat) (d : List Byte) : (s.emit c a d).transit = s.transit := rfl
@[simp] theorem State.emit_ext (c : OutCh) (a : List Nat) (d : List Byte) : (s.emit c a d).ext = s.ext := rfl
@[simp] theorem State.emit_extTag (c : OutCh) (a : List Nat) (d : List Byte) : (s.emit c a d).extTag = s.extTag := rfl
@[simp] theorem State.emit_kv (c : OutCh) (a : List Nat) (d : List Byte) : (s.emit c a d).kv = s.kv := rfl
@[simp] theorem State.emit_streams (c : OutCh) (a : List Nat) (d : List Byte) : (s.emit c a d).streams = s.streams := rfl
@[simp] theorem State.emit_egoIn (c : OutCh) (a : List Nat) (d : List Byte) : (s.emit c a d).egoIn = s.egoIn := rfl
@[simp] theorem State.emit_wardRuns (c : OutCh) (a : List Nat) (d : List Byte) : (s.emit c a d).wardRuns = s.wardRuns := rfl
@[simp] theorem State.emit_ego (c : OutCh) (a : List Nat) (d : List Byte) : (s.emit c a d).ego = s.ego := rfl
@[simp] theorem State.emit_proj (c : OutCh) (a : List Nat) (d : List Byte) : (s.emit c a d).proj = s.proj := rfl
@[simp] theorem State.emit_fus (c : OutCh) (a : List Nat) (d : List Byte) : (s.emit c a d).fus = s.fus := rfl
@[simp] theorem State.emit_coll (c : OutCh) (a : List Nat) (d : List Byte) : (s.emit c a d).coll = s.coll := rfl
@[simp] theorem State.emit_plan (c : OutCh) (a : List Nat) (d : List Byte) : (s.emit c a d).plan = s.plan := rfl
@[simp] theorem State.emit_planMsgs (c : OutCh) (a : List Nat) (d : List Byte) : (s.emit c a d).planMsgs = s.planMsgs := rfl
@[simp] theorem State.emit_queues (c : OutCh) (a : List Nat) (d : List Byte) : (s.emit c a d).queues = s.queues := rfl
@[simp] theorem State.emit_qPtr (c : OutCh) (a : List Nat) (d : List Byte) : (s.emit c a d).qPtr = s.qPtr := rfl
@[simp] theorem State.emit_qPend (c : OutCh) (a : List Nat) (d : List Byte) : (s.emit c a d).qPend = s.qPend := rfl
@[simp] theorem State.emit_qSumm (c : OutCh) (a : List Nat) (d : List Byte) : (s.emit c a d).qSumm = s.qSumm := rfl
@[simp] theorem State.emit_jobs (c : OutCh) (a : List Nat) (d : List Byte) : (s.emit c a d).jobs = s.jobs := rfl
@[simp] theorem State.emit_relCount (c : OutCh) (a : List Nat) (d : List Byte) : (s.emit c a d).relCount = s.relCount := rfl
@[simp] theorem State.emit_cqStaged (c : OutCh) (a : List Nat) (d : List Byte) : (s.emit c a d).cqStaged = s.cqStaged := rfl
@[simp] theorem State.emit_fences (c : OutCh) (a : List Nat) (d : List Byte) : (s.emit c a d).fences = s.fences := rfl
@[simp] theorem State.emit_jrn (c : OutCh) (a : List Nat) (d : List Byte) : (s.emit c a d).jrn = s.jrn := rfl
@[simp] theorem State.emit_det (c : OutCh) (a : List Nat) (d : List Byte) : (s.emit c a d).det = s.det := rfl
@[simp] theorem State.emit_islMsgs (c : OutCh) (a : List Nat) (d : List Byte) : (s.emit c a d).islMsgs = s.islMsgs := rfl
@[simp] theorem State.emit_xgs (c : OutCh) (a : List Nat) (d : List Byte) : (s.emit c a d).xgs = s.xgs := rfl
@[simp] theorem State.emit_twin (c : OutCh) (a : List Nat) (d : List Byte) : (s.emit c a d).twin = s.twin := rfl
@[simp] theorem State.emit_isl (c : OutCh) (a : List Nat) (d : List Byte) : (s.emit c a d).isl = s.isl := rfl
@[simp] theorem State.emit_fltLog (c : OutCh) (a : List Nat) (d : List Byte) : (s.emit c a d).fltLog = s.fltLog := rfl
@[simp] theorem State.emit_fltNext (c : OutCh) (a : List Nat) (d : List Byte) : (s.emit c a d).fltNext = s.fltNext := rfl
@[simp] theorem State.emit_stest (c : OutCh) (a : List Nat) (d : List Byte) : (s.emit c a d).stest = s.stest := rfl
@[simp] theorem State.emit_spilled (c : OutCh) (a : List Nat) (d : List Byte) : (s.emit c a d).spilled = s.spilled := rfl
@[simp] theorem State.emit_pwr (c : OutCh) (a : List Nat) (d : List Byte) : (s.emit c a d).pwr = s.pwr := rfl
@[simp] theorem State.emit_sec (c : OutCh) (a : List Nat) (d : List Byte) : (s.emit c a d).sec = s.sec := rfl
@[simp] theorem State.emit_farm (c : OutCh) (a : List Nat) (d : List Byte) : (s.emit c a d).farm = s.farm := rfl
@[simp] theorem State.emit_cfg (c : OutCh) (a : List Nat) (d : List Byte) : (s.emit c a d).cfg = s.cfg := rfl
@[simp] theorem State.emit_pending (c : OutCh) (a : List Nat) (d : List Byte) : (s.emit c a d).pending = s.pending := rfl

@[simp] theorem State.poke_regs (a : Nat) (b : List Byte) (p : Bool) : (s.poke a b p).regs = s.regs := rfl
@[simp] theorem State.poke_fuse (a : Nat) (b : List Byte) (p : Bool) : (s.poke a b p).fuse = s.fuse := rfl
@[simp] theorem State.poke_readData (a : Nat) (b : List Byte) (p : Bool) : (s.poke a b p).readData = s.readData := rfl
@[simp] theorem State.poke_out (a : Nat) (b : List Byte) (p : Bool) : (s.poke a b p).out = s.out := rfl
@[simp] theorem State.poke_freeCtr (a : Nat) (b : List Byte) (p : Bool) : (s.poke a b p).freeCtr = s.freeCtr := rfl
@[simp] theorem State.poke_armedBy (a : Nat) (b : List Byte) (p : Bool) : (s.poke a b p).armedBy = s.armedBy := rfl
@[simp] theorem State.poke_hubUs (a : Nat) (b : List Byte) (p : Bool) : (s.poke a b p).hubUs = s.hubUs := rfl
@[simp] theorem State.poke_unitMaps (a : Nat) (b : List Byte) (p : Bool) : (s.poke a b p).unitMaps = s.unitMaps := rfl
@[simp] theorem State.poke_ident (a : Nat) (b : List Byte) (p : Bool) : (s.poke a b p).ident = s.ident := rfl
@[simp] theorem State.poke_accepted (a : Nat) (b : List Byte) (p : Bool) : (s.poke a b p).accepted = s.accepted := rfl
@[simp] theorem State.poke_links (a : Nat) (b : List Byte) (p : Bool) : (s.poke a b p).links = s.links := rfl
@[simp] theorem State.poke_disc (a : Nat) (b : List Byte) (p : Bool) : (s.poke a b p).disc = s.disc := rfl
@[simp] theorem State.poke_dike (a : Nat) (b : List Byte) (p : Bool) : (s.poke a b p).dike = s.dike := rfl
@[simp] theorem State.poke_flt (a : Nat) (b : List Byte) (p : Bool) : (s.poke a b p).flt = s.flt := rfl
@[simp] theorem State.poke_mcs (a : Nat) (b : List Byte) (p : Bool) : (s.poke a b p).mcs = s.mcs := rfl
@[simp] theorem State.poke_memg (a : Nat) (b : List Byte) (p : Bool) : (s.poke a b p).memg = s.memg := rfl
@[simp] theorem State.poke_islMem (a : Nat) (b : List Byte) (p : Bool) : (s.poke a b p).islMem = s.islMem := rfl
@[simp] theorem State.poke_arrs (a : Nat) (b : List Byte) (p : Bool) : (s.poke a b p).arrs = s.arrs := rfl
@[simp] theorem State.poke_transit (a : Nat) (b : List Byte) (p : Bool) : (s.poke a b p).transit = s.transit := rfl
@[simp] theorem State.poke_ext (a : Nat) (b : List Byte) (p : Bool) : (s.poke a b p).ext = s.ext := rfl
@[simp] theorem State.poke_extTag (a : Nat) (b : List Byte) (p : Bool) : (s.poke a b p).extTag = s.extTag := rfl
@[simp] theorem State.poke_kv (a : Nat) (b : List Byte) (p : Bool) : (s.poke a b p).kv = s.kv := rfl
@[simp] theorem State.poke_streams (a : Nat) (b : List Byte) (p : Bool) : (s.poke a b p).streams = s.streams := rfl
@[simp] theorem State.poke_egoIn (a : Nat) (b : List Byte) (p : Bool) : (s.poke a b p).egoIn = s.egoIn := rfl
@[simp] theorem State.poke_wardRuns (a : Nat) (b : List Byte) (p : Bool) : (s.poke a b p).wardRuns = s.wardRuns := rfl
@[simp] theorem State.poke_ego (a : Nat) (b : List Byte) (p : Bool) : (s.poke a b p).ego = s.ego := rfl
@[simp] theorem State.poke_proj (a : Nat) (b : List Byte) (p : Bool) : (s.poke a b p).proj = s.proj := rfl
@[simp] theorem State.poke_fus (a : Nat) (b : List Byte) (p : Bool) : (s.poke a b p).fus = s.fus := rfl
@[simp] theorem State.poke_coll (a : Nat) (b : List Byte) (p : Bool) : (s.poke a b p).coll = s.coll := rfl
@[simp] theorem State.poke_plan (a : Nat) (b : List Byte) (p : Bool) : (s.poke a b p).plan = s.plan := rfl
@[simp] theorem State.poke_planMsgs (a : Nat) (b : List Byte) (p : Bool) : (s.poke a b p).planMsgs = s.planMsgs := rfl
@[simp] theorem State.poke_queues (a : Nat) (b : List Byte) (p : Bool) : (s.poke a b p).queues = s.queues := rfl
@[simp] theorem State.poke_qPtr (a : Nat) (b : List Byte) (p : Bool) : (s.poke a b p).qPtr = s.qPtr := rfl
@[simp] theorem State.poke_qPend (a : Nat) (b : List Byte) (p : Bool) : (s.poke a b p).qPend = s.qPend := rfl
@[simp] theorem State.poke_qSumm (a : Nat) (b : List Byte) (p : Bool) : (s.poke a b p).qSumm = s.qSumm := rfl
@[simp] theorem State.poke_jobs (a : Nat) (b : List Byte) (p : Bool) : (s.poke a b p).jobs = s.jobs := rfl
@[simp] theorem State.poke_relCount (a : Nat) (b : List Byte) (p : Bool) : (s.poke a b p).relCount = s.relCount := rfl
@[simp] theorem State.poke_cqStaged (a : Nat) (b : List Byte) (p : Bool) : (s.poke a b p).cqStaged = s.cqStaged := rfl
@[simp] theorem State.poke_fences (a : Nat) (b : List Byte) (p : Bool) : (s.poke a b p).fences = s.fences := rfl
@[simp] theorem State.poke_jrn (a : Nat) (b : List Byte) (p : Bool) : (s.poke a b p).jrn = s.jrn := rfl
@[simp] theorem State.poke_det (a : Nat) (b : List Byte) (p : Bool) : (s.poke a b p).det = s.det := rfl
@[simp] theorem State.poke_islMsgs (a : Nat) (b : List Byte) (p : Bool) : (s.poke a b p).islMsgs = s.islMsgs := rfl
@[simp] theorem State.poke_xgs (a : Nat) (b : List Byte) (p : Bool) : (s.poke a b p).xgs = s.xgs := rfl
@[simp] theorem State.poke_twin (a : Nat) (b : List Byte) (p : Bool) : (s.poke a b p).twin = s.twin := rfl
@[simp] theorem State.poke_isl (a : Nat) (b : List Byte) (p : Bool) : (s.poke a b p).isl = s.isl := rfl
@[simp] theorem State.poke_fltLog (a : Nat) (b : List Byte) (p : Bool) : (s.poke a b p).fltLog = s.fltLog := rfl
@[simp] theorem State.poke_fltNext (a : Nat) (b : List Byte) (p : Bool) : (s.poke a b p).fltNext = s.fltNext := rfl
@[simp] theorem State.poke_stest (a : Nat) (b : List Byte) (p : Bool) : (s.poke a b p).stest = s.stest := rfl
@[simp] theorem State.poke_spilled (a : Nat) (b : List Byte) (p : Bool) : (s.poke a b p).spilled = s.spilled := rfl
@[simp] theorem State.poke_pwr (a : Nat) (b : List Byte) (p : Bool) : (s.poke a b p).pwr = s.pwr := rfl
@[simp] theorem State.poke_sec (a : Nat) (b : List Byte) (p : Bool) : (s.poke a b p).sec = s.sec := rfl
@[simp] theorem State.poke_farm (a : Nat) (b : List Byte) (p : Bool) : (s.poke a b p).farm = s.farm := rfl
@[simp] theorem State.poke_cfg (a : Nat) (b : List Byte) (p : Bool) : (s.poke a b p).cfg = s.cfg := rfl
@[simp] theorem State.poke_pending (a : Nat) (b : List Byte) (p : Bool) : (s.poke a b p).pending = s.pending := rfl

@[simp] theorem State.zeroAt_regs (a n : Nat) : (s.zeroAt a n).regs = s.regs := rfl
@[simp] theorem State.zeroAt_fuse (a n : Nat) : (s.zeroAt a n).fuse = s.fuse := rfl
@[simp] theorem State.zeroAt_readData (a n : Nat) : (s.zeroAt a n).readData = s.readData := rfl
@[simp] theorem State.zeroAt_out (a n : Nat) : (s.zeroAt a n).out = s.out := rfl
@[simp] theorem State.zeroAt_freeCtr (a n : Nat) : (s.zeroAt a n).freeCtr = s.freeCtr := rfl
@[simp] theorem State.zeroAt_armedBy (a n : Nat) : (s.zeroAt a n).armedBy = s.armedBy := rfl
@[simp] theorem State.zeroAt_hubUs (a n : Nat) : (s.zeroAt a n).hubUs = s.hubUs := rfl
@[simp] theorem State.zeroAt_unitMaps (a n : Nat) : (s.zeroAt a n).unitMaps = s.unitMaps := rfl
@[simp] theorem State.zeroAt_ident (a n : Nat) : (s.zeroAt a n).ident = s.ident := rfl
@[simp] theorem State.zeroAt_accepted (a n : Nat) : (s.zeroAt a n).accepted = s.accepted := rfl
@[simp] theorem State.zeroAt_links (a n : Nat) : (s.zeroAt a n).links = s.links := rfl
@[simp] theorem State.zeroAt_disc (a n : Nat) : (s.zeroAt a n).disc = s.disc := rfl
@[simp] theorem State.zeroAt_dike (a n : Nat) : (s.zeroAt a n).dike = s.dike := rfl
@[simp] theorem State.zeroAt_flt (a n : Nat) : (s.zeroAt a n).flt = s.flt := rfl
@[simp] theorem State.zeroAt_mcs (a n : Nat) : (s.zeroAt a n).mcs = s.mcs := rfl
@[simp] theorem State.zeroAt_memg (a n : Nat) : (s.zeroAt a n).memg = s.memg := rfl
@[simp] theorem State.zeroAt_islMem (a n : Nat) : (s.zeroAt a n).islMem = s.islMem := rfl
@[simp] theorem State.zeroAt_arrs (a n : Nat) : (s.zeroAt a n).arrs = s.arrs := rfl
@[simp] theorem State.zeroAt_transit (a n : Nat) : (s.zeroAt a n).transit = s.transit := rfl
@[simp] theorem State.zeroAt_ext (a n : Nat) : (s.zeroAt a n).ext = s.ext := rfl
@[simp] theorem State.zeroAt_extTag (a n : Nat) : (s.zeroAt a n).extTag = s.extTag := rfl
@[simp] theorem State.zeroAt_kv (a n : Nat) : (s.zeroAt a n).kv = s.kv := rfl
@[simp] theorem State.zeroAt_streams (a n : Nat) : (s.zeroAt a n).streams = s.streams := rfl
@[simp] theorem State.zeroAt_egoIn (a n : Nat) : (s.zeroAt a n).egoIn = s.egoIn := rfl
@[simp] theorem State.zeroAt_wardRuns (a n : Nat) : (s.zeroAt a n).wardRuns = s.wardRuns := rfl
@[simp] theorem State.zeroAt_ego (a n : Nat) : (s.zeroAt a n).ego = s.ego := rfl
@[simp] theorem State.zeroAt_proj (a n : Nat) : (s.zeroAt a n).proj = s.proj := rfl
@[simp] theorem State.zeroAt_fus (a n : Nat) : (s.zeroAt a n).fus = s.fus := rfl
@[simp] theorem State.zeroAt_coll (a n : Nat) : (s.zeroAt a n).coll = s.coll := rfl
@[simp] theorem State.zeroAt_plan (a n : Nat) : (s.zeroAt a n).plan = s.plan := rfl
@[simp] theorem State.zeroAt_planMsgs (a n : Nat) : (s.zeroAt a n).planMsgs = s.planMsgs := rfl
@[simp] theorem State.zeroAt_queues (a n : Nat) : (s.zeroAt a n).queues = s.queues := rfl
@[simp] theorem State.zeroAt_qPtr (a n : Nat) : (s.zeroAt a n).qPtr = s.qPtr := rfl
@[simp] theorem State.zeroAt_qPend (a n : Nat) : (s.zeroAt a n).qPend = s.qPend := rfl
@[simp] theorem State.zeroAt_qSumm (a n : Nat) : (s.zeroAt a n).qSumm = s.qSumm := rfl
@[simp] theorem State.zeroAt_jobs (a n : Nat) : (s.zeroAt a n).jobs = s.jobs := rfl
@[simp] theorem State.zeroAt_relCount (a n : Nat) : (s.zeroAt a n).relCount = s.relCount := rfl
@[simp] theorem State.zeroAt_cqStaged (a n : Nat) : (s.zeroAt a n).cqStaged = s.cqStaged := rfl
@[simp] theorem State.zeroAt_fences (a n : Nat) : (s.zeroAt a n).fences = s.fences := rfl
@[simp] theorem State.zeroAt_jrn (a n : Nat) : (s.zeroAt a n).jrn = s.jrn := rfl
@[simp] theorem State.zeroAt_det (a n : Nat) : (s.zeroAt a n).det = s.det := rfl
@[simp] theorem State.zeroAt_islMsgs (a n : Nat) : (s.zeroAt a n).islMsgs = s.islMsgs := rfl
@[simp] theorem State.zeroAt_xgs (a n : Nat) : (s.zeroAt a n).xgs = s.xgs := rfl
@[simp] theorem State.zeroAt_twin (a n : Nat) : (s.zeroAt a n).twin = s.twin := rfl
@[simp] theorem State.zeroAt_isl (a n : Nat) : (s.zeroAt a n).isl = s.isl := rfl
@[simp] theorem State.zeroAt_fltLog (a n : Nat) : (s.zeroAt a n).fltLog = s.fltLog := rfl
@[simp] theorem State.zeroAt_fltNext (a n : Nat) : (s.zeroAt a n).fltNext = s.fltNext := rfl
@[simp] theorem State.zeroAt_stest (a n : Nat) : (s.zeroAt a n).stest = s.stest := rfl
@[simp] theorem State.zeroAt_spilled (a n : Nat) : (s.zeroAt a n).spilled = s.spilled := rfl
@[simp] theorem State.zeroAt_pwr (a n : Nat) : (s.zeroAt a n).pwr = s.pwr := rfl
@[simp] theorem State.zeroAt_sec (a n : Nat) : (s.zeroAt a n).sec = s.sec := rfl
@[simp] theorem State.zeroAt_farm (a n : Nat) : (s.zeroAt a n).farm = s.farm := rfl
@[simp] theorem State.zeroAt_cfg (a n : Nat) : (s.zeroAt a n).cfg = s.cfg := rfl
@[simp] theorem State.zeroAt_pending (a n : Nat) : (s.zeroAt a n).pending = s.pending := rfl

/-- An event changes registers and the events at the collector alone. -/
theorem State.raise_frame (p b : Nat) : { s.raise p b with regs := s.regs, flt := s.flt } = s := by
  simp only [State.raise, State.irqEdge, State.msiPend]; split <;> split <;> rfl

@[simp] theorem State.raise_fuse (p b : Nat) : (s.raise p b).fuse = s.fuse := (congrArg State.fuse (s.raise_frame p b) :)
@[simp] theorem State.raise_mem (p b : Nat) : (s.raise p b).mem = s.mem := (congrArg State.mem (s.raise_frame p b) :)
@[simp] theorem State.raise_cond (p b : Nat) : (s.raise p b).cond = s.cond := (congrArg State.cond (s.raise_frame p b) :)
@[simp] theorem State.raise_readData (p b : Nat) : (s.raise p b).readData = s.readData := (congrArg State.readData (s.raise_frame p b) :)
@[simp] theorem State.raise_out (p b : Nat) : (s.raise p b).out = s.out := (congrArg State.out (s.raise_frame p b) :)
@[simp] theorem State.raise_freeCtr (p b : Nat) : (s.raise p b).freeCtr = s.freeCtr := (congrArg State.freeCtr (s.raise_frame p b) :)
@[simp] theorem State.raise_armedBy (p b : Nat) : (s.raise p b).armedBy = s.armedBy := (congrArg State.armedBy (s.raise_frame p b) :)
@[simp] theorem State.raise_hubUs (p b : Nat) : (s.raise p b).hubUs = s.hubUs := (congrArg State.hubUs (s.raise_frame p b) :)
@[simp] theorem State.raise_unitMaps (p b : Nat) : (s.raise p b).unitMaps = s.unitMaps := (congrArg State.unitMaps (s.raise_frame p b) :)
@[simp] theorem State.raise_ident (p b : Nat) : (s.raise p b).ident = s.ident := (congrArg State.ident (s.raise_frame p b) :)
@[simp] theorem State.raise_accepted (p b : Nat) : (s.raise p b).accepted = s.accepted := (congrArg State.accepted (s.raise_frame p b) :)
@[simp] theorem State.raise_links (p b : Nat) : (s.raise p b).links = s.links := (congrArg State.links (s.raise_frame p b) :)
@[simp] theorem State.raise_disc (p b : Nat) : (s.raise p b).disc = s.disc := (congrArg State.disc (s.raise_frame p b) :)
@[simp] theorem State.raise_dike (p b : Nat) : (s.raise p b).dike = s.dike := (congrArg State.dike (s.raise_frame p b) :)
@[simp] theorem State.raise_mcs (p b : Nat) : (s.raise p b).mcs = s.mcs := (congrArg State.mcs (s.raise_frame p b) :)
@[simp] theorem State.raise_memg (p b : Nat) : (s.raise p b).memg = s.memg := (congrArg State.memg (s.raise_frame p b) :)
@[simp] theorem State.raise_islMem (p b : Nat) : (s.raise p b).islMem = s.islMem := (congrArg State.islMem (s.raise_frame p b) :)
@[simp] theorem State.raise_arrs (p b : Nat) : (s.raise p b).arrs = s.arrs := (congrArg State.arrs (s.raise_frame p b) :)
@[simp] theorem State.raise_transit (p b : Nat) : (s.raise p b).transit = s.transit := (congrArg State.transit (s.raise_frame p b) :)
@[simp] theorem State.raise_ext (p b : Nat) : (s.raise p b).ext = s.ext := (congrArg State.ext (s.raise_frame p b) :)
@[simp] theorem State.raise_extTag (p b : Nat) : (s.raise p b).extTag = s.extTag := (congrArg State.extTag (s.raise_frame p b) :)
@[simp] theorem State.raise_kv (p b : Nat) : (s.raise p b).kv = s.kv := (congrArg State.kv (s.raise_frame p b) :)
@[simp] theorem State.raise_streams (p b : Nat) : (s.raise p b).streams = s.streams := (congrArg State.streams (s.raise_frame p b) :)
@[simp] theorem State.raise_egoIn (p b : Nat) : (s.raise p b).egoIn = s.egoIn := (congrArg State.egoIn (s.raise_frame p b) :)
@[simp] theorem State.raise_wardRuns (p b : Nat) : (s.raise p b).wardRuns = s.wardRuns := (congrArg State.wardRuns (s.raise_frame p b) :)
@[simp] theorem State.raise_ego (p b : Nat) : (s.raise p b).ego = s.ego := (congrArg State.ego (s.raise_frame p b) :)
@[simp] theorem State.raise_proj (p b : Nat) : (s.raise p b).proj = s.proj := (congrArg State.proj (s.raise_frame p b) :)
@[simp] theorem State.raise_fus (p b : Nat) : (s.raise p b).fus = s.fus := (congrArg State.fus (s.raise_frame p b) :)
@[simp] theorem State.raise_coll (p b : Nat) : (s.raise p b).coll = s.coll := (congrArg State.coll (s.raise_frame p b) :)
@[simp] theorem State.raise_plan (p b : Nat) : (s.raise p b).plan = s.plan := (congrArg State.plan (s.raise_frame p b) :)
@[simp] theorem State.raise_planMsgs (p b : Nat) : (s.raise p b).planMsgs = s.planMsgs := (congrArg State.planMsgs (s.raise_frame p b) :)
@[simp] theorem State.raise_queues (p b : Nat) : (s.raise p b).queues = s.queues := (congrArg State.queues (s.raise_frame p b) :)
@[simp] theorem State.raise_qPtr (p b : Nat) : (s.raise p b).qPtr = s.qPtr := (congrArg State.qPtr (s.raise_frame p b) :)
@[simp] theorem State.raise_qPend (p b : Nat) : (s.raise p b).qPend = s.qPend := (congrArg State.qPend (s.raise_frame p b) :)
@[simp] theorem State.raise_qSumm (p b : Nat) : (s.raise p b).qSumm = s.qSumm := (congrArg State.qSumm (s.raise_frame p b) :)
@[simp] theorem State.raise_jobs (p b : Nat) : (s.raise p b).jobs = s.jobs := (congrArg State.jobs (s.raise_frame p b) :)
@[simp] theorem State.raise_relCount (p b : Nat) : (s.raise p b).relCount = s.relCount := (congrArg State.relCount (s.raise_frame p b) :)
@[simp] theorem State.raise_cqStaged (p b : Nat) : (s.raise p b).cqStaged = s.cqStaged := (congrArg State.cqStaged (s.raise_frame p b) :)
@[simp] theorem State.raise_fences (p b : Nat) : (s.raise p b).fences = s.fences := (congrArg State.fences (s.raise_frame p b) :)
@[simp] theorem State.raise_jrn (p b : Nat) : (s.raise p b).jrn = s.jrn := (congrArg State.jrn (s.raise_frame p b) :)
@[simp] theorem State.raise_det (p b : Nat) : (s.raise p b).det = s.det := (congrArg State.det (s.raise_frame p b) :)
@[simp] theorem State.raise_islMsgs (p b : Nat) : (s.raise p b).islMsgs = s.islMsgs := (congrArg State.islMsgs (s.raise_frame p b) :)
@[simp] theorem State.raise_xgs (p b : Nat) : (s.raise p b).xgs = s.xgs := (congrArg State.xgs (s.raise_frame p b) :)
@[simp] theorem State.raise_twin (p b : Nat) : (s.raise p b).twin = s.twin := (congrArg State.twin (s.raise_frame p b) :)
@[simp] theorem State.raise_isl (p b : Nat) : (s.raise p b).isl = s.isl := (congrArg State.isl (s.raise_frame p b) :)
@[simp] theorem State.raise_fltLog (p b : Nat) : (s.raise p b).fltLog = s.fltLog := (congrArg State.fltLog (s.raise_frame p b) :)
@[simp] theorem State.raise_fltNext (p b : Nat) : (s.raise p b).fltNext = s.fltNext := (congrArg State.fltNext (s.raise_frame p b) :)
@[simp] theorem State.raise_stest (p b : Nat) : (s.raise p b).stest = s.stest := (congrArg State.stest (s.raise_frame p b) :)
@[simp] theorem State.raise_spilled (p b : Nat) : (s.raise p b).spilled = s.spilled := (congrArg State.spilled (s.raise_frame p b) :)
@[simp] theorem State.raise_pwr (p b : Nat) : (s.raise p b).pwr = s.pwr := (congrArg State.pwr (s.raise_frame p b) :)
@[simp] theorem State.raise_sec (p b : Nat) : (s.raise p b).sec = s.sec := (congrArg State.sec (s.raise_frame p b) :)
@[simp] theorem State.raise_farm (p b : Nat) : (s.raise p b).farm = s.farm := (congrArg State.farm (s.raise_frame p b) :)
@[simp] theorem State.raise_cfg (p b : Nat) : (s.raise p b).cfg = s.cfg := (congrArg State.cfg (s.raise_frame p b) :)
@[simp] theorem State.raise_pending (p b : Nat) : (s.raise p b).pending = s.pending := (congrArg State.pending (s.raise_frame p b) :)

end Sys2Proof.Machine
end

