-- ==== Sys2Proof/Laws/Memory.lean ====
section
/-! SUPPORT. Laws of device memory: the canonical form is kept by every operation that writes bytes, and what a write does to
each byte. -/

namespace Sys2Proof.Machine

/-! ### The canonical form, said with a lower bound -/

/-- Cells in canonical form from address `n` on. -/
def cellsFrom : Nat → List Host.Cell → Bool
  | _, [] => true
  | n, (a, b) :: t => decide (n ≤ a) && (b != unlistedByte) && cellsFrom (a + 1) t

theorem cellsFrom_cons_iff (n : Nat) (c : Host.Cell) (t : List Host.Cell) :
    cellsFrom n (c :: t) = true ↔ n ≤ c.1 ∧ c.2 ≠ unlistedByte ∧ cellsFrom (c.1 + 1) t = true := by
  obtain ⟨a, b⟩ := c
  simp [cellsFrom, and_assoc]

theorem cellsFrom_le {m n : Nat} {l : List Host.Cell} (h : cellsFrom n l = true) (hm : m ≤ n) : cellsFrom m l = true := by
  cases l with
  | nil => rfl
  | cons c t => rw [cellsFrom_cons_iff] at h ⊢; exact ⟨le_trans hm h.1, h.2⟩

theorem memWf_iff (l : List Host.Cell) : memWf l = true ↔ cellsFrom 0 l = true := by
  induction l with
  | nil => simp [memWf, cellsFrom]
  | cons c t ih =>
    obtain ⟨a, b⟩ := c
    cases t with
    | nil => simp [memWf, cellsFrom]
    | cons d u =>
      obtain ⟨c, d⟩ := d
      simp only [memWf, Bool.and_eq_true, ih, cellsFrom_cons_iff]
      simp
      constructor
      · rintro ⟨⟨h1, h2⟩, h3, h4⟩; exact ⟨h1, h2, h3, h4⟩
      · rintro ⟨h1, h2, h3, h4⟩; exact ⟨⟨h1, h2⟩, h3, h4⟩

/-! ### One byte -/

theorem cellGet_of_from {n k : Nat} {l : List Host.Cell} (h : cellsFrom n l = true) (hk : k < n) :
    cellGet l k = unlistedByte := by
  induction l generalizing n with
  | nil => rfl
  | cons c t ih =>
    obtain ⟨a, b⟩ := c
    rw [cellsFrom_cons_iff] at h
    simp only [cellGet]
    rw [if_neg (by have := h.1; simp at this; omega)]
    exact ih h.2.2 (by have := h.1; simp at this; simp; omega)

theorem cellDel_from {n : Nat} {l : List Host.Cell} (k : Nat) (h : cellsFrom n l = true) : cellsFrom n (cellDel l k) = true := by
  induction l generalizing n with
  | nil => rfl
  | cons c t ih =>
    obtain ⟨a, b⟩ := c
    have h' := h
    rw [cellsFrom_cons_iff] at h
    simp only [cellDel]
    split
    · exact cellsFrom_le h.2.2 (by have := h.1; simp at this; simp; omega)
    · split
      · exact h'
      · rw [cellsFrom_cons_iff]; exact ⟨h.1, h.2.1, ih h.2.2⟩

theorem cellPut_from {n : Nat} {l : List Host.Cell} {k : Nat} {v : Byte} (hv : v ≠ unlistedByte) (hn : n ≤ k)
    (h : cellsFrom n l = true) : cellsFrom n (cellPut l k v) = true := by
  induction l generalizing n with
  | nil => rw [cellPut, cellsFrom_cons_iff]; exact ⟨hn, hv, rfl⟩
  | cons c t ih =>
    obtain ⟨a, b⟩ := c
    rw [cellsFrom_cons_iff] at h
    simp only [cellPut]
    split
    · rw [cellsFrom_cons_iff]; refine ⟨hn, hv, ?_⟩
      rw [cellsFrom_cons_iff]; exact ⟨by simp; omega, h.2⟩
    · split
      · subst_vars; rw [cellsFrom_cons_iff]; exact ⟨h.1, hv, h.2.2⟩
      · rw [cellsFrom_cons_iff]; exact ⟨h.1, h.2.1, ih (by simp; omega) h.2.2⟩

theorem cellSet_from {n : Nat} {l : List Host.Cell} {k : Nat} (v : Byte) (hn : n ≤ k)
    (h : cellsFrom n l = true) : cellsFrom n (cellSet l k v) = true := by
  unfold cellSet; split
  · exact cellDel_from k h
  · exact cellPut_from ‹_› hn h

/-- A byte written keeps the canonical form. -/
theorem memWf_cellSet {l : List Host.Cell} (k : Nat) (v : Byte) (h : memWf l = true) : memWf (cellSet l k v) = true := by
  rw [memWf_iff] at h ⊢; exact cellSet_from v (Nat.zero_le k) h

theorem cellGet_cellDel {n : Nat} {l : List Host.Cell} (k j : Nat) (h : cellsFrom n l = true) :
    cellGet (cellDel l k) j = if j = k then unlistedByte else cellGet l j := by
  induction l generalizing n with
  | nil => simp [cellDel, cellGet]
  | cons c t ih =>
    obtain ⟨a, b⟩ := c
    rw [cellsFrom_cons_iff] at h
    simp only [cellDel]
    split
    · subst_vars
      split
      · subst_vars; exact cellGet_of_from h.2.2 (by simp)
      · simp [cellGet, Ne.symm ‹¬ j = a›]
    · split
      · split
        · subst_vars
          simp only [cellGet]
          rw [if_neg (by omega)]
          exact cellGet_of_from h.2.2 (by simp; omega)
        · rfl
      · simp only [cellGet, ih h.2.2]
        split
        · subst_vars; rw [if_neg ‹_›]
        · rfl

theorem cellGet_cellPut (l : List Host.Cell) (k j : Nat) (v : Byte) :
    cellGet (cellPut l k v) j = if j = k then v else cellGet l j := by
  induction l with
  | nil => simp only [cellPut, cellGet]; split <;> split <;> simp_all
  | cons c t ih =>
    obtain ⟨a, b⟩ := c
    simp only [cellPut]
    split
    · by_cases hj : k = j
      · subst hj; simp [cellGet]
      · simp [cellGet, hj, Ne.symm hj]
    · split
      · rename_i ha
        by_cases hj : a = j
        · subst hj; subst ha; simp [cellGet]
        · subst ha; simp [cellGet, hj, Ne.symm hj]
      · simp only [cellGet, ih]; split
        · subst_vars; rw [if_neg ‹_›]
        · rfl

/-- A byte written reads back, every other byte reads as before. -/
theorem cellGet_cellSet {l : List Host.Cell} (h : memWf l = true) (k j : Nat) (v : Byte) :
    cellGet (cellSet l k v) j = if j = k then v else cellGet l j := by
  unfold cellSet; split
  · subst_vars; exact cellGet_cellDel k j ((memWf_iff l).mp h)
  · exact cellGet_cellPut l k j v

/-! ### Runs of bytes -/

/-- Bytes written keep the canonical form. -/
theorem memWf_cellWrite {l : List Host.Cell} (a : Nat) (bs : List Byte) (h : memWf l = true) : memWf (cellWrite l a bs) = true := by
  induction bs generalizing l a with
  | nil => exact h
  | cons b t ih => exact ih (a + 1) (memWf_cellSet a b h)

/-- Bytes written stand from the address on; every byte outside them reads as before. -/
theorem cellGet_cellWrite {l : List Host.Cell} (h : memWf l = true) (a : Nat) (bs : List Byte) (k : Nat) :
    cellGet (cellWrite l a bs) k = if a ≤ k ∧ k < a + bs.length then bs.getD (k - a) 0#8 else cellGet l k := by
  induction bs generalizing l a with
  | nil => simp [cellWrite]
  | cons b t ih =>
    rw [cellWrite, ih (memWf_cellSet a b h), cellGet_cellSet h]
    rcases Nat.lt_trichotomy k a with hk | hk | hk
    · rw [if_neg (by omega), if_neg (by omega), if_neg (by omega)]
    · subst hk
      rw [if_neg (by omega), if_pos rfl, if_pos ⟨le_rfl, by simp⟩]; rw [Nat.sub_self]; rfl
    · obtain ⟨d, rfl⟩ : ∃ d, k = a + 1 + d := ⟨k - (a + 1), by omega⟩
      by_cases hd : d < t.length
      · rw [if_pos (by omega), if_pos (by simp; omega)]
        simp [show a + 1 + d - a = d + 1 by omega]
      · rw [if_neg (by omega), if_neg (by omega), if_neg (by simp; omega)]

theorem cellsFrom_filter {n : Nat} {l : List Host.Cell} (p : Host.Cell → Bool) (h : cellsFrom n l = true) :
    cellsFrom n (l.filter p) = true := by
  induction l generalizing n with
  | nil => rfl
  | cons c t ih =>
    rw [cellsFrom_cons_iff] at h
    rw [List.filter_cons]
    split
    · rw [cellsFrom_cons_iff]; exact ⟨h.1, h.2.1, ih h.2.2⟩
    · exact cellsFrom_le (ih h.2.2) (by omega)

/-- Cells taken out keep the canonical form. -/
theorem memWf_filter {l : List Host.Cell} (p : Host.Cell → Bool) (h : memWf l = true) : memWf (l.filter p) = true := by
  rw [memWf_iff] at h ⊢; exact cellsFrom_filter p h

/-! ### Operations on the state -/

theorem State.poke_memOk {s : State} (h : s.memOk) (a : Nat) (bs : List Byte) (p : Bool) : (s.poke a bs p).memOk :=
  memWf_cellWrite _ _ h

theorem State.zeroAt_memOk {s : State} (h : s.memOk) (a n : Nat) : (s.zeroAt a n).memOk := memWf_filter _ h

theorem State.zero_memOk {s : State} (h : s.memOk) (a n : Nat) : (s.zero a n).memOk := memWf_filter _ h

/-- Memory is in canonical form when its cells are those of a state that has it. -/
theorem State.memOk_of_mem {s t : State} (h : s.memOk) (hm : t.mem = s.mem) : t.memOk := by
  unfold State.memOk at *; rw [hm]; exact h

end Sys2Proof.Machine
end

