-- ==== Sys2Proof/Laws/PerInstr.lean ====
section
/-! SUPPORT. Statements made of every command as syntax, one lemma per constructor. -/

namespace Sys2Proof.Laws.Form

/-- The form of a command: no word of any length spells it, as no row of the table gives bits. -/
def Statement (i : Instr) : Prop := ∀ nbits w : Nat, decodeTableWord nbits w ≠ some i

/-- What holds of every command alike. -/
theorem holds (i : Instr) : Statement i := by simp [Statement, decodeTableWord]

theorem hingeFlit : ∀ e f, Statement (.hingeFlit e f) := fun _ _ => holds _
theorem hingeLinkDown : ∀ e, Statement (.hingeLinkDown e) := fun _ => holds _
theorem stop : ∀ i d, Statement (.stop i d) := fun _ _ => holds _
theorem fence : ∀ i d, Statement (.fence i d) := fun _ _ => holds _
theorem reset : ∀ i d, Statement (.reset i d) := fun _ _ => holds _
theorem release : ∀ i d, Statement (.release i d) := fun _ _ => holds _
theorem readId : ∀ i d, Statement (.readId i d) := fun _ _ => holds _
theorem readFault : ∀ i d, Statement (.readFault i d) := fun _ _ => holds _
theorem tapCommandDrop : ∀ i d, Statement (.tapCommandDrop i d) := fun _ _ => holds _
theorem discovery : Statement .discovery := holds _
theorem discoveryAnswer : ∀ p ans, Statement (.discoveryAnswer p ans) := fun _ _ => holds _
theorem discAnswerTimeout : ∀ p, Statement (.discAnswerTimeout p) := fun _ => holds _
theorem topologyCopy : ∀ i, Statement (.topologyCopy i) := fun _ => holds _
theorem rediscovery : ∀ d ans, Statement (.rediscovery d ans) := fun _ _ => holds _
theorem rescan : ∀ acc ans, Statement (.rescan acc ans) := fun _ _ => holds _
theorem admissionStart : Statement .admissionStart := holds _
theorem ucieTrainingDone : Statement .ucieTrainingDone := holds _
theorem chainReceived : ∀ cert inter, Statement (.chainReceived cert inter) := fun _ _ => holds _
theorem chainVerified : Statement .chainVerified := holds _
theorem admissionOverrun : Statement .admissionOverrun := holds _
theorem commit : ∀ acc, Statement (.commit acc) := fun _ => holds _
theorem commitApply : Statement .commitApply := holds _
theorem readmit : ∀ acc, Statement (.readmit acc) := fun _ => holds _
theorem dikeFence : ∀ acc, Statement (.dikeFence acc) := fun _ => holds _
theorem dikeEnableClear : ∀ acc, Statement (.dikeEnableClear acc) := fun _ => holds _
theorem xsRequest : ∀ r, Statement (.xsRequest r) := fun _ => holds _
theorem xsRequestUnstall : Statement .xsRequestUnstall := holds _
theorem ucieLinkLoss : Statement .ucieLinkLoss := holds _
theorem h2xRing : ∀ acc, Statement (.h2xRing acc) := fun _ => holds _
theorem x2hAck : ∀ acc, Statement (.x2hAck acc) := fun _ => holds _
theorem h2xAck : Statement .h2xAck := holds _
theorem x2hPost : Statement .x2hPost := holds _
theorem h2xDataWrite : ∀ k acc, Statement (.h2xDataWrite k acc) := fun _ _ => holds _
theorem gridSample : ∀ d temps, Statement (.gridSample d temps) := fun _ _ => holds _
theorem stThrWrite : ∀ n k acc, Statement (.stThrWrite n k acc) := fun _ _ _ => holds _
theorem stHystWrite : ∀ n acc, Statement (.stHystWrite n acc) := fun _ _ => holds _
theorem resetReq : ∀ d acc, Statement (.resetReq d acc) := fun _ _ => holds _
theorem clkStepWrite : ∀ d acc, Statement (.clkStepWrite d acc) := fun _ _ => holds _
theorem registerWrite : ∀ page off acc, Statement (.registerWrite page off acc) := fun _ _ _ => holds _
theorem rcRead : ∀ page off view be req, Statement (.rcRead page off view be req) := fun _ _ _ _ _ => holds _
theorem blkLevelWrite : ∀ page acc, Statement (.blkLevelWrite page acc) := fun _ _ => holds _
theorem unlockTimeout : ∀ page, Statement (.unlockTimeout page) := fun _ => holds _
theorem genHostExpertWrite : ∀ acc, Statement (.genHostExpertWrite acc) := fun _ => holds _
theorem tumblerScrub : ∀ page, Statement (.tumblerScrub page) := fun _ => holds _
theorem blockReset : ∀ acc, Statement (.blockReset acc) := fun _ => holds _
theorem blockResetDone : Statement .blockResetDone := holds _
theorem moduleResetReq : ∀ acc, Statement (.moduleResetReq acc) := fun _ => holds _
theorem slotStart : ∀ n j slot, Statement (.slotStart n j slot) := fun _ _ _ => holds _
theorem programLoadDone : ∀ n, Statement (.programLoadDone n) := fun _ => holds _
theorem instructionComplete : ∀ n u, Statement (.instructionComplete n u) := fun _ _ => holds _
theorem nop : ∀ n, Statement (.nop n) := fun _ => holds _
theorem endSlot : ∀ n, Statement (.endSlot n) := fun _ => holds _
theorem jmp : ∀ n, Statement (.jmp n) := fun _ => holds _
theorem brz : ∀ n, Statement (.brz n) := fun _ => holds _
theorem brnz : ∀ n, Statement (.brnz n) := fun _ => holds _
theorem loop : ∀ n, Statement (.loop n) := fun _ => holds _
theorem call : ∀ n, Statement (.call n) := fun _ => holds _
theorem ret : ∀ n, Statement (.ret n) := fun _ => holds _
theorem sli : ∀ n, Statement (.sli n) := fun _ => holds _
theorem slih : ∀ n, Statement (.slih n) := fun _ => holds _
theorem sadd : ∀ n, Statement (.sadd n) := fun _ => holds _
theorem ssub : ∀ n, Statement (.ssub n) := fun _ => holds _
theorem smul : ∀ n, Statement (.smul n) := fun _ => holds _
theorem sget : ∀ n, Statement (.sget n) := fun _ => holds _
theorem fenceA : ∀ n, Statement (.fenceA n) := fun _ => holds _
theorem fenceD : ∀ n, Statement (.fenceD n) := fun _ => holds _
theorem fenceP : ∀ n, Statement (.fenceP n) := fun _ => holds _
theorem fenceX : ∀ n, Statement (.fenceX n) := fun _ => holds _
theorem fenceDone : ∀ n, Statement (.fenceDone n) := fun _ => holds _
theorem barD : ∀ n, Statement (.barD n) := fun _ => holds _
theorem barP : ∀ n, Statement (.barP n) := fun _ => holds _
theorem barrierRelease : ∀ n, Statement (.barrierRelease n) := fun _ => holds _
theorem fwait : ∀ n, Statement (.fwait n) := fun _ => holds _
theorem fwaitSatisfied : ∀ n, Statement (.fwaitSatisfied n) := fun _ => holds _
theorem fsig : ∀ n, Statement (.fsig n) := fun _ => holds _
theorem rowwait : ∀ n, Statement (.rowwait n) := fun _ => holds _
theorem rowwaitT : ∀ n, Statement (.rowwaitT n) := fun _ => holds _
theorem rowwaitSatisfied : ∀ n, Statement (.rowwaitSatisfied n) := fun _ => holds _
theorem rowwaitTExpiry : ∀ n, Statement (.rowwaitTExpiry n) := fun _ => holds _
theorem rowpub : ∀ n, Statement (.rowpub n) := fun _ => holds _
theorem rdslot : ∀ n, Statement (.rdslot n) := fun _ => holds _
theorem ld : ∀ n, Statement (.ld n) := fun _ => holds _
theorem st : ∀ n, Statement (.st n) := fun _ => holds _
theorem ldt : ∀ n, Statement (.ldt n) := fun _ => holds _
theorem stt : ∀ n, Statement (.stt n) := fun _ => holds _
theorem gather : ∀ n, Statement (.gather n) := fun _ => holds _
theorem scatter : ∀ n, Statement (.scatter n) := fun _ => holds _
theorem scatadd : ∀ n, Statement (.scatadd n) := fun _ => holds _
theorem scataddS : ∀ n, Statement (.scataddS n) := fun _ => holds _
theorem lbcopy : ∀ n, Statement (.lbcopy n) := fun _ => holds _
theorem lbfill : ∀ n, Statement (.lbfill n) := fun _ => holds _
theorem dot : ∀ n, Statement (.dot n) := fun _ => holds _
theorem conv : ∀ n, Statement (.conv n) := fun _ => holds _
theorem contractionResume : ∀ n, Statement (.contractionResume n) := fun _ => holds _
theorem partialArrival : ∀ k, Statement (.partialArrival k) := fun _ => holds _
theorem redGet : ∀ n, Statement (.redGet n) := fun _ => holds _
theorem redGetComplete : ∀ n, Statement (.redGetComplete n) := fun _ => holds _
theorem fft : ∀ n, Statement (.fft n) := fun _ => holds _
theorem ifft : ∀ n, Statement (.ifft n) := fun _ => holds _
theorem spmul : ∀ n, Statement (.spmul n) := fun _ => holds _
theorem kvexp : ∀ n, Statement (.kvexp n) := fun _ => holds _
theorem vadd : ∀ n, Statement (.vadd n) := fun _ => holds _
theorem vsub : ∀ n, Statement (.vsub n) := fun _ => holds _
theorem vmul : ∀ n, Statement (.vmul n) := fun _ => holds _
theorem vfma : ∀ n, Statement (.vfma n) := fun _ => holds _
theorem vdiv : ∀ n, Statement (.vdiv n) := fun _ => holds _
theorem vsqrt : ∀ n, Statement (.vsqrt n) := fun _ => holds _
theorem vmin : ∀ n, Statement (.vmin n) := fun _ => holds _
theorem vmax : ∀ n, Statement (.vmax n) := fun _ => holds _
theorem vcmp : ∀ n, Statement (.vcmp n) := fun _ => holds _
theorem vsel : ∀ n, Statement (.vsel n) := fun _ => holds _
theorem viadd : ∀ n, Statement (.viadd n) := fun _ => holds _
theorem vsh : ∀ n, Statement (.vsh n) := fun _ => holds _
theorem vand : ∀ n, Statement (.vand n) := fun _ => holds _
theorem vor : ∀ n, Statement (.vor n) := fun _ => holds _
theorem vcvt : ∀ n, Statement (.vcvt n) := fun _ => holds _
theorem vcvtmx : ∀ n, Statement (.vcvtmx n) := fun _ => holds _
theorem vredsum : ∀ n, Statement (.vredsum n) := fun _ => holds _
theorem vredmax : ∀ n, Statement (.vredmax n) := fun _ => holds _
theorem trans : ∀ n, Statement (.trans n) := fun _ => holds _
theorem shuf : ∀ n, Statement (.shuf n) := fun _ => holds _
theorem pack : ∀ n, Statement (.pack n) := fun _ => holds _
theorem unpack : ∀ n, Statement (.unpack n) := fun _ => holds _
theorem vrcpF : ∀ n, Statement (.vrcpF n) := fun _ => holds _
theorem vrsqF : ∀ n, Statement (.vrsqF n) := fun _ => holds _
theorem vexpF : ∀ n, Statement (.vexpF n) := fun _ => holds _
theorem vlogF : ∀ n, Statement (.vlogF n) := fun _ => holds _
theorem rdcyc : ∀ n, Statement (.rdcyc n) := fun _ => holds _
theorem rdid : ∀ n, Statement (.rdid n) := fun _ => holds _
theorem ckdig : ∀ n, Statement (.ckdig n) := fun _ => holds _
theorem lbsig : ∀ n, Statement (.lbsig n) := fun _ => holds _
theorem brk : ∀ n, Statement (.brk n) := fun _ => holds _
theorem slotStop : ∀ n, Statement (.slotStop n) := fun _ => holds _
theorem arrayDrainDone : ∀ n, Statement (.arrayDrainDone n) := fun _ => holds _
theorem halt : ∀ n acc, Statement (.halt n acc) := fun _ _ => holds _
theorem resume : ∀ n acc, Statement (.resume n acc) := fun _ _ => holds _
theorem abort : ∀ n acc, Statement (.abort n acc) := fun _ _ => holds _
theorem arrCapDisableWrite : ∀ n acc, Statement (.arrCapDisableWrite n acc) := fun _ _ => holds _
theorem arrInjectOneByte : ∀ n acc, Statement (.arrInjectOneByte n acc) := fun _ _ => holds _
theorem arrInjectTwoBytes : ∀ n acc, Statement (.arrInjectTwoBytes n acc) := fun _ _ => holds _
theorem kvResolve : ∀ n, Statement (.kvResolve n) := fun _ => holds _
theorem pinRelease : ∀ n, Statement (.pinRelease n) := fun _ => holds _
theorem kvWriteRequest : ∀ n, Statement (.kvWriteRequest n) := fun _ => holds _
theorem cowCopyDone : ∀ n, Statement (.cowCopyDone n) := fun _ => holds _
theorem cowCommit : ∀ n, Statement (.cowCommit n) := fun _ => holds _
theorem kvWriteResume : ∀ n, Statement (.kvWriteResume n) := fun _ => holds _
theorem seqOpen : ∀ j, Statement (.seqOpen j) := fun _ => holds _
theorem seqClose : ∀ j, Statement (.seqClose j) := fun _ => holds _
theorem share : ∀ j, Statement (.share j) := fun _ => holds _
theorem free : ∀ j, Statement (.free j) := fun _ => holds _
theorem alloc : ∀ j, Statement (.alloc j) := fun _ => holds _
theorem kvEnable : ∀ acc, Statement (.kvEnable acc) := fun _ => holds _
theorem kvSweepDone : Statement .kvSweepDone := holds _
theorem kvDisable : ∀ acc, Statement (.kvDisable acc) := fun _ => holds _
theorem kvResume : ∀ acc, Statement (.kvResume acc) := fun _ => holds _
theorem streamEnable : ∀ s acc, Statement (.streamEnable s acc) := fun _ _ => holds _
theorem streamDisable : ∀ s acc, Statement (.streamDisable s acc) := fun _ _ => holds _
theorem csiPacket : ∀ r p, Statement (.csiPacket r p) := fun _ _ => holds _
theorem ethFrame : ∀ m f, Statement (.ethFrame m f) := fun _ _ => holds _
theorem spiFrame : ∀ i data, Statement (.spiFrame i data) := fun _ _ => holds _
theorem canFdFrame : ∀ i ctl f, Statement (.canFdFrame i ctl f) := fun _ _ _ => holds _
theorem xsItemReturn : ∀ s item, Statement (.xsItemReturn s item) := fun _ _ => holds _
theorem itemCommit : ∀ s, Statement (.itemCommit s) := fun _ => holds _
theorem dropRecord : ∀ s, Statement (.dropRecord s) := fun _ => holds _
theorem stale : ∀ s, Statement (.stale s) := fun _ => holds _
theorem wardPoint : ∀ s, Statement (.wardPoint s) := fun _ => holds _
theorem wardRun : ∀ s a, Statement (.wardRun s a) := fun _ _ => holds _
theorem preempt : ∀ s, Statement (.preempt s) := fun _ => holds _
theorem wardJobDone : ∀ s us, Statement (.wardJobDone s us) := fun _ _ => holds _
theorem overrun : ∀ s, Statement (.overrun s) := fun _ => holds _
theorem wardBudgetRefill : ∀ d, Statement (.wardBudgetRefill d) := fun _ => holds _
theorem egoEnable : ∀ acc, Statement (.egoEnable acc) := fun _ => holds _
theorem inertialItem : Statement .inertialItem := holds _
theorem wheelItem : Statement .wheelItem := holds _
theorem projEnable : ∀ acc, Statement (.projEnable acc) := fun _ => holds _
theorem p2i : ∀ j, Statement (.p2i j) := fun _ => holds _
theorem p2g : ∀ j, Statement (.p2g j) := fun _ => holds _
theorem f2g : ∀ j, Statement (.f2g j) := fun _ => holds _
theorem delta : ∀ j, Statement (.delta j) := fun _ => holds _
theorem bias : ∀ j, Statement (.bias j) := fun _ => holds _
theorem fusEnable : ∀ acc, Statement (.fusEnable acc) := fun _ => holds _
theorem fusResume : ∀ acc, Statement (.fusResume acc) := fun _ => holds _
theorem instantRequest : ∀ j, Statement (.instantRequest j) := fun _ => holds _
theorem fusionInput : ∀ sensor seq, Statement (.fusionInput sensor seq) := fun _ _ => holds _
theorem fusionTimeout : ∀ sensor, Statement (.fusionTimeout sensor) := fun _ => holds _
theorem instantRelease : Statement .instantRelease := holds _
theorem instantInputsReady : Statement .instantInputsReady := holds _
theorem instantDeadline : Statement .instantDeadline := holds _
theorem collEnable : ∀ acc, Statement (.collEnable acc) := fun _ => holds _
theorem publish : ∀ j, Statement (.publish j) := fun _ => holds _
theorem gridBuildDone : Statement .gridBuildDone := holds _
theorem retire : Statement .retire := holds _
theorem load : ∀ j, Statement (.load j) := fun _ => holds _
theorem roadmapCheck : ∀ j, Statement (.roadmapCheck j) := fun _ => holds _
theorem reflexQuery : ∀ u, Statement (.reflexQuery u) := fun _ => holds _
theorem reflexVerdict : ∀ u ns, Statement (.reflexVerdict u ns) := fun _ _ => holds _
theorem plan : ∀ j, Statement (.plan j) := fun _ => holds _
theorem sweepStart : ∀ slot, Statement (.sweepStart slot) := fun _ => holds _
theorem sweepDone : ∀ slot ns, Statement (.sweepDone slot ns) := fun _ _ => holds _
theorem selectionDone : ∀ e, Statement (.selectionDone e) := fun _ => holds _
theorem attemptDone : ∀ e, Statement (.attemptDone e) := fun _ => holds _
theorem planDeadline : ∀ slot, Statement (.planDeadline slot) := fun _ => holds _
theorem planEnable : ∀ acc, Statement (.planEnable acc) := fun _ => holds _
theorem planResume : ∀ acc, Statement (.planResume acc) := fun _ => holds _
theorem record : ∀ acc, Statement (.record acc) := fun _ => holds _
theorem replay : ∀ acc, Statement (.replay acc) := fun _ => holds _
theorem jrnOff : ∀ acc, Statement (.jrnOff acc) := fun _ => holds _
theorem segment : ∀ acc, Statement (.segment acc) := fun _ => holds _
theorem jrnStop : ∀ acc, Statement (.jrnStop acc) := fun _ => holds _
theorem journalWrite : Statement .journalWrite := holds _
theorem headerCheckDone : Statement .headerCheckDone := holds _
theorem replayApply : Statement .replayApply := holds _
theorem replayRemoteSignal : Statement .replayRemoteSignal := holds _
theorem replayStall : Statement .replayStall := holds _
theorem qEnable : ∀ acc, Statement (.qEnable acc) := fun _ => holds _
theorem qDisable : ∀ acc, Statement (.qDisable acc) := fun _ => holds _
theorem qWriteback : ∀ q, Statement (.qWriteback q) := fun _ => holds _
theorem resetIndices : ∀ acc, Statement (.resetIndices acc) := fun _ => holds _
theorem doorbell : ∀ q be index poisoned, Statement (.doorbell q be index poisoned) := fun _ _ _ _ => holds _
theorem jobTake : Statement .jobTake := holds _
theorem jobRelease : ∀ j, Statement (.jobRelease j) := fun _ => holds _
theorem jobPlace : ∀ j arrays, Statement (.jobPlace j arrays) := fun _ _ => holds _
theorem jobComplete : ∀ j, Statement (.jobComplete j) := fun _ => holds _
theorem completionRecord : ∀ cq, Statement (.completionRecord cq) := fun _ => holds _
theorem qengAbort : ∀ acc, Statement (.qengAbort acc) := fun _ => holds _
theorem copy : ∀ j, Statement (.copy j) := fun _ => holds _
theorem fill : ∀ j, Statement (.fill j) := fun _ => holds _
theorem fenceInc : ∀ acc, Statement (.fenceInc acc) := fun _ => holds _
theorem fenceSet : ∀ acc, Statement (.fenceSet acc) := fun _ => holds _
theorem dramWrite : ∀ addr data mask poison, Statement (.dramWrite addr data mask poison) := fun _ _ _ _ => holds _
theorem dramRead : ∀ addr found, Statement (.dramRead addr found) := fun _ _ => holds _
theorem train : ∀ acc, Statement (.train acc) := fun _ => holds _
theorem trainingStepDone : ∀ failed temps dip, Statement (.trainingStepDone failed temps dip) := fun _ _ _ => holds _
theorem segmentSwept : Statement .segmentSwept := holds _
theorem temperatureRead : ∀ p celsius, Statement (.temperatureRead p celsius) := fun _ _ => holds _
theorem mr4Read : ∀ c rate hot, Statement (.mr4Read c rate hot) := fun _ _ _ => holds _
theorem refresh : ∀ c bank, Statement (.refresh c bank) := fun _ _ => holds _
theorem retrain : ∀ k acc, Statement (.retrain k acc) := fun _ _ => holds _
theorem retrainDone : ∀ k us, Statement (.retrainDone k us) := fun _ _ => holds _
theorem flush : ∀ k acc, Statement (.flush k acc) := fun _ _ => holds _
theorem flushDone : ∀ k, Statement (.flushDone k) := fun _ => holds _
theorem patrolScrub : ∀ k codes, Statement (.patrolScrub k codes) := fun _ _ => holds _
theorem rowRetireDone : ∀ k, Statement (.rowRetireDone k) := fun _ => holds _
theorem channelRetire : ∀ acc, Statement (.channelRetire acc) := fun _ => holds _
theorem channelRestore : ∀ acc, Statement (.channelRestore acc) := fun _ => holds _
theorem channelCopyDone : Statement .channelCopyDone := holds _
theorem parkPrep : ∀ acc, Statement (.parkPrep acc) := fun _ => holds _
theorem parkReady : Statement .parkReady := holds _
theorem parkRestore : ∀ acc drifted, Statement (.parkRestore acc drifted) := fun _ _ => holds _
theorem memoryTest : ∀ acc, Statement (.memoryTest acc) := fun _ => holds _
theorem testDone : ∀ failed, Statement (.testDone failed) := fun _ => holds _
theorem mcSpillWrite : ∀ k acc, Statement (.mcSpillWrite k acc) := fun _ _ => holds _
theorem mcRemapEntryWrite : ∀ k acc, Statement (.mcRemapEntryWrite k acc) := fun _ _ => holds _
theorem mcInjectOneByte : ∀ k acc, Statement (.mcInjectOneByte k acc) := fun _ _ => holds _
theorem mcInjectTwoBytes : ∀ k acc, Statement (.mcInjectTwoBytes k acc) := fun _ _ => holds _
theorem psrRead : ∀ i acc, Statement (.psrRead i acc) := fun _ _ => holds _
theorem norRead : ∀ i acc, Statement (.norRead i acc) := fun _ _ => holds _
theorem readDone : ∀ i src, Statement (.readDone i src) := fun _ _ => holds _
theorem bar2Write : ∀ t, Statement (.bar2Write t) := fun _ => holds _
theorem bar2Read : ∀ t, Statement (.bar2Read t) := fun _ => holds _
theorem hostReadCompletion : ∀ tag status data, Statement (.hostReadCompletion tag status data) := fun _ _ _ => holds _
theorem completionTimeout : ∀ tag, Statement (.completionTimeout tag) := fun _ => holds _
theorem msiSend : ∀ v, Statement (.msiSend v) := fun _ => holds _
theorem perst : Statement .perst := holds _
theorem hotReset : Statement .hotReset := holds _
theorem pcieLinkDown : Statement .pcieLinkDown := holds _
theorem d3hotExit : Statement .d3hotExit := holds _
theorem pcieRetrain : ∀ acc, Statement (.pcieRetrain acc) := fun _ => holds _
theorem xagusWrite : ∀ l f, Statement (.xagusWrite l f) := fun _ _ => holds _
theorem readRequest : ∀ l f, Statement (.readRequest l f) := fun _ _ => holds _
theorem readReturn : ∀ l f, Statement (.readReturn l f) := fun _ _ => holds _
theorem writeAcknowledge : ∀ l f, Statement (.writeAcknowledge l f) := fun _ _ => holds _
theorem remoteSignal : ∀ l f, Statement (.remoteSignal l f) := fun _ _ => holds _
theorem signalAcknowledge : ∀ l f, Statement (.signalAcknowledge l f) := fun _ _ => holds _
theorem hello : ∀ l f, Statement (.hello l f) := fun _ _ => holds _
theorem linkState : ∀ l f, Statement (.linkState l f) := fun _ _ => holds _
theorem collectiveData : ∀ l f, Statement (.collectiveData l f) := fun _ _ => holds _
theorem collectiveControl : ∀ l f, Statement (.collectiveControl l f) := fun _ _ => holds _
theorem twinDigest : ∀ l f, Statement (.twinDigest l f) := fun _ _ => holds _
theorem twinControl : ∀ l f, Statement (.twinControl l f) := fun _ _ => holds _
theorem xlLinkDown : ∀ l, Statement (.xlLinkDown l) := fun _ => holds _
theorem xlRetrain : ∀ l acc, Statement (.xlRetrain l acc) := fun _ _ => holds _
theorem xlTrainingDone : ∀ l lanes, Statement (.xlTrainingDone l lanes) := fun _ _ => holds _
theorem xgsEnable : ∀ acc, Statement (.xgsEnable acc) := fun _ => holds _
theorem rediscover : ∀ acc, Statement (.rediscover acc) := fun _ => holds _
theorem twinRestart : ∀ acc, Statement (.twinRestart acc) := fun _ => holds _
theorem domainQuiescent : Statement .domainQuiescent := holds _
theorem collectiveStart : ∀ n, Statement (.collectiveStart n) := fun _ => holds _
theorem collectiveDone : ∀ n, Statement (.collectiveDone n) := fun _ => holds _
theorem twinCompare : ∀ slot index, Statement (.twinCompare slot index) := fun _ _ => holds _
theorem twinAbsent : ∀ slot, Statement (.twinAbsent slot) := fun _ => holds _
theorem islandTwinDigest : ∀ i slot index digest, Statement (.islandTwinDigest i slot index digest) := fun _ _ _ _ => holds _
theorem heartbeat : ∀ i lockstepBad, Statement (.heartbeat i lockstepBad) := fun _ _ => holds _
theorem peerDown : ∀ i, Statement (.peerDown i) := fun _ => holds _
theorem peerReturn : ∀ i, Statement (.peerReturn i) := fun _ => holds _
theorem peerReturnTimeout : ∀ i, Statement (.peerReturnTimeout i) := fun _ => holds _
theorem hubLinkLoss : ∀ i peerToo, Statement (.hubLinkLoss i peerToo) := fun _ _ => holds _
theorem lockstepMismatch : ∀ i, Statement (.lockstepMismatch i) := fun _ => holds _
theorem clockCheck : ∀ i peerPpm refPpm, Statement (.clockCheck i peerPpm refPpm) := fun _ _ _ => holds _
theorem faultForward : Statement .faultForward := holds _
theorem islandFaultEvent : ∀ i, Statement (.islandFaultEvent i) := fun _ => holds _
theorem tapReport : ∀ i d hottest syndrome, Statement (.tapReport i d hottest syndrome) := fun _ _ _ _ => holds _
theorem tapKeepaliveLoss : ∀ i d, Statement (.tapKeepaliveLoss i d) := fun _ _ => holds _
theorem releaseMessage : ∀ i, Statement (.releaseMessage i) := fun _ => holds _
theorem completionMessage : ∀ i, Statement (.completionMessage i) := fun _ => holds _
theorem deadlineMiss : ∀ i q tag, Statement (.deadlineMiss i q tag) := fun _ _ _ => holds _
theorem slotStale : ∀ i slot, Statement (.slotStale i slot) := fun _ _ => holds _
theorem recoveryAnswer : ∀ i, Statement (.recoveryAnswer i) := fun _ => holds _
theorem recoveryTimeout : ∀ i, Statement (.recoveryTimeout i) := fun _ => holds _
theorem engineResetTimeout : ∀ i, Statement (.engineResetTimeout i) := fun _ => holds _
theorem resultMessage : ∀ i, Statement (.resultMessage i) := fun _ => holds _
theorem fallbackFrame : ∀ i slot, Statement (.fallbackFrame i slot) := fun _ _ => holds _
theorem statusFrame : ∀ i, Statement (.statusFrame i) := fun _ => holds _
theorem dieReset : ∀ i d, Statement (.dieReset i d) := fun _ _ => holds _
theorem dieSelfTestDone : ∀ d failures, Statement (.dieSelfTestDone d failures) := fun _ _ => holds _
theorem moduleReset : ∀ i cause, Statement (.moduleReset i cause) := fun _ _ => holds _
theorem clearLog : ∀ acc, Statement (.clearLog acc) := fun _ => holds _
theorem fltInject : ∀ acc, Statement (.fltInject acc) := fun _ => holds _
theorem stestEnable : ∀ acc, Statement (.stestEnable acc) := fun _ => holds _
theorem sliceStart : ∀ d, Statement (.sliceStart d) := fun _ => holds _
theorem windowOpen : ∀ d, Statement (.windowOpen d) := fun _ => holds _
theorem drainTimeout : ∀ d, Statement (.drainTimeout d) := fun _ => holds _
theorem partDone : ∀ d pass overlapsDip, Statement (.partDone d pass overlapsDip) := fun _ _ _ => holds _
theorem coverage : ∀ d a ageMs, Statement (.coverage d a ageMs) := fun _ _ _ => holds _
theorem targetedTest : ∀ acc, Statement (.targetedTest acc) := fun _ => holds _
theorem arrayOut : ∀ acc, Statement (.arrayOut acc) := fun _ => holds _
theorem arrayReturn : ∀ acc, Statement (.arrayReturn acc) := fun _ => holds _
theorem dieOut : ∀ acc, Statement (.dieOut acc) := fun _ => holds _
theorem spill : ∀ acc, Statement (.spill acc) := fun _ => holds _
theorem stackReturn : ∀ acc, Statement (.stackReturn acc) := fun _ => holds _
theorem stackCopyDone : Statement .stackCopyDone := holds _
theorem islandTest : ∀ acc, Statement (.islandTest acc) := fun _ => holds _
theorem repairClear : ∀ acc, Statement (.repairClear acc) := fun _ => holds _
theorem powerGood : Statement .powerGood := holds _
theorem requestDeepSleep : ∀ acc, Statement (.requestDeepSleep acc) := fun _ => holds _
theorem requestPark : ∀ acc, Statement (.requestPark acc) := fun _ => holds _
theorem requestWarm : ∀ acc, Statement (.requestWarm acc) := fun _ => holds _
theorem requestRun : ∀ acc, Statement (.requestRun acc) := fun _ => holds _
theorem ungate : ∀ d, Statement (.ungate d) := fun _ => holds _
theorem gate : ∀ n, Statement (.gate n) := fun _ => holds _
theorem wake : Statement .wake := holds _
theorem mainInputFault : Statement .mainInputFault := holds _
theorem mainInputRestored : Statement .mainInputRestored := holds _
theorem islandInputFault : Statement .islandInputFault := holds _
theorem islandInputRestored : Statement .islandInputRestored := holds _
theorem railFault : ∀ rail, Statement (.railFault rail) := fun _ => holds _
theorem dip : ∀ rail mv, Statement (.dip rail mv) := fun _ _ => holds _
theorem dipStepUp : ∀ rail us, Statement (.dipStepUp rail us) := fun _ _ => holds _
theorem dipLong : ∀ rail, Statement (.dipLong rail) := fun _ => holds _
theorem thermalSample : ∀ t, Statement (.thermalSample t) := fun _ => holds _
theorem reducedService : ∀ acc, Statement (.reducedService acc) := fun _ => holds _
theorem fullService : ∀ acc, Statement (.fullService acc) := fun _ => holds _
theorem islandBoot : ∀ i role bootSrc, Statement (.islandBoot i role bootSrc) := fun _ _ _ => holds _
theorem hubImageAccept : Statement .hubImageAccept := holds _
theorem hubImageRefused : Statement .hubImageRefused := holds _
theorem testContentAccept : Statement .testContentAccept := holds _
theorem hostGo : ∀ acc, Statement (.hostGo acc) := fun _ => holds _
theorem testGo : ∀ acc, Statement (.testGo acc) := fun _ => holds _
theorem confirm : ∀ acc, Statement (.confirm acc) := fun _ => holds _
theorem activate : ∀ acc, Statement (.activate acc) := fun _ => holds _
theorem activatingRestart : Statement .activatingRestart := holds _
theorem trialWindowExpiry : Statement .trialWindowExpiry := holds _
theorem attest : ∀ acc, Statement (.attest acc) := fun _ => holds _
theorem cert : ∀ acc, Statement (.cert acc) := fun _ => holds _
theorem attestDone : Statement .attestDone := holds _
theorem update : ∀ acc, Statement (.update acc) := fun _ => holds _
theorem updateDone : Statement .updateDone := holds _
theorem enrol : ∀ acc, Statement (.enrol acc) := fun _ => holds _
theorem rollbackAdvance : ∀ acc, Statement (.rollbackAdvance acc) := fun _ => holds _
theorem extend : ∀ acc, Statement (.extend acc) := fun _ => holds _
theorem challenge : ∀ acc, Statement (.challenge acc) := fun _ => holds _
theorem submit : ∀ acc, Statement (.submit acc) := fun _ => holds _
theorem lock : ∀ acc, Statement (.lock acc) := fun _ => holds _
theorem arm : ∀ acc, Statement (.arm acc) := fun _ => holds _
theorem disarm : ∀ acc, Statement (.disarm acc) := fun _ => holds _
theorem boundary : Statement .boundary := holds _
theorem boundaryFail : Statement .boundaryFail := holds _
theorem farmContinue : ∀ acc, Statement (.farmContinue acc) := fun _ => holds _
theorem save : ∀ acc, Statement (.save acc) := fun _ => holds _
theorem saved : Statement .saved := holds _
theorem restore : ∀ acc, Statement (.restore acc) := fun _ => holds _
theorem restored : Statement .restored := holds _
theorem straggler : Statement .straggler := holds _
theorem periodic : Statement .periodic := holds _
theorem takeover : ∀ acc, Statement (.takeover acc) := fun _ => holds _
theorem relink : ∀ acc, Statement (.relink acc) := fun _ => holds _
theorem relinkExpired : ∀ l, Statement (.relinkExpired l) := fun _ => holds _
theorem csiLinkChange : ∀ r link deskewed, Statement (.csiLinkChange r link deskewed) := fun _ _ _ => holds _
theorem ethLinkChange : ∀ m blockLock fecLock link, Statement (.ethLinkChange m blockLock fecLock link) := fun _ _ _ _ => holds _
theorem pcieLinkUp : ∀ speed width flit master, Statement (.pcieLinkUp speed width flit master) := fun _ _ _ _ => holds _
theorem hostDataRecordClose : Statement .hostDataRecordClose := holds _
theorem qengEnable : ∀ acc, Statement (.qengEnable acc) := fun _ => holds _
theorem ingEnable : ∀ acc, Statement (.ingEnable acc) := fun _ => holds _
theorem xlEnable : ∀ l acc, Statement (.xlEnable l acc) := fun _ _ => holds _
theorem thermalDiodeRelease : Statement .thermalDiodeRelease := holds _

end Sys2Proof.Laws.Form
end

