-- ==== Sys2Proof/Laws/Tab.lean ====
section
/-! SUPPORT. Laws of sparse tables. -/

namespace Sys2Proof.Machine

variable {α : Type}

@[simp] theorem tabFind_nil (k : Nat) : tabFind ([] : Tab α) k = none := rfl

/-- A key set is found with its new value. -/
@[simp] theorem tabFind_tabSet_same (t : Tab α) (k : Nat) (v : α) : tabFind (tabSet t k v) k = some v := by
  induction t with
  | nil => simp [tabSet, tabFind]
  | cons e t ih =>
    obtain ⟨a, w⟩ := e
    simp only [tabSet]
    split
    · simp [tabFind]
    · split
      · simp [tabFind]
      · simp [tabFind, *]

/-- Setting a key leaves every other key as it was. -/
theorem tabFind_tabSet_ne (t : Tab α) {j k : Nat} (v : α) (h : j ≠ k) : tabFind (tabSet t k v) j = tabFind t j := by
  induction t with
  | nil => simp [tabSet, tabFind, h.symm]
  | cons e t ih =>
    obtain ⟨a, w⟩ := e
    simp only [tabSet]
    split
    · simp [tabFind, h.symm]
    · split
      · subst_vars; simp [tabFind, h.symm]
      · simp only [tabFind, ih]

theorem tabFind_tabSet (t : Tab α) (j k : Nat) (v : α) :
    tabFind (tabSet t k v) j = if j = k then some v else tabFind t j := by
  split
  · subst_vars; simp
  · exact tabFind_tabSet_ne t v ‹_›

@[simp] theorem tabGet_tabSet_same (t : Tab α) (k : Nat) (v d : α) : tabGet (tabSet t k v) k d = v := by
  simp [tabGet]

theorem tabGet_tabSet_ne (t : Tab α) {j k : Nat} (v d : α) (h : j ≠ k) : tabGet (tabSet t k v) j d = tabGet t j d := by
  simp [tabGet, tabFind_tabSet_ne t v h]

/-- A table filtered on its keys. -/
theorem tabFind_filter (t : Tab α) (p : Nat → Bool) (j : Nat) :
    tabFind (t.filter fun e => p e.1) j = if p j then tabFind t j else none := by
  induction t with
  | nil => simp [tabFind]
  | cons e t ih =>
    obtain ⟨a, w⟩ := e
    by_cases hp : p a <;> by_cases ha : a = j <;> simp_all [List.filter, tabFind]

@[simp] theorem tabFind_tabDel_same (t : Tab α) (k : Nat) : tabFind (tabDel t k) k = none := by
  simpa [tabDel] using tabFind_filter t (fun a => decide (a ≠ k)) k

theorem tabFind_tabDel_ne (t : Tab α) {j k : Nat} (h : j ≠ k) : tabFind (tabDel t k) j = tabFind t j := by
  simpa [tabDel, h] using tabFind_filter t (fun a => decide (a ≠ k)) j

end Sys2Proof.Machine
end

