-- ==== Sys2Proof/Laws/Regs.lean ====
section
/-! SUPPORT. Laws of register fields: what a write of one field does to every field, and the frames of the shared
operations on registers. -/

namespace Sys2Proof.Machine

/-! ### Cells and words -/

theorem State.cell_put_same (s : State) (f : Fld) (v : Nat) :
    (s.put f v).cell f.page f.off =
      ⟨f.ins v (s.cell f.page f.off).c0, f.ins v (s.cell f.page f.off).c1, f.ins v (s.cell f.page f.off).c2⟩ := by
  simp [State.put, State.cell]

theorem State.cell_of_regs {s t : State} (hr : t.regs = s.regs) (hf : t.fuse = s.fuse) (p o : Nat) :
    t.cell p o = s.cell p o := by simp [State.cell, hr, hf]

/-- A field reads by the registers and the fuses alone. -/
theorem State.get_of_regs {s t : State} (hr : t.regs = s.regs) (hf : t.fuse = s.fuse) (g : Fld) : t.get g = s.get g := by
  simp [State.get, State.regWord, State.cell_of_regs hr hf]

/-- Equal keys name one stored register, but at an offset that is no word's the reset value may differ. -/
theorem State.cell_put_ne (s : State) (f : Fld) (v p o : Nat) (h : regKey f.page f.off ≠ regKey p o) :
    (s.put f v).cell p o = s.cell p o := by
  simp only [State.put, State.cell]
  rw [tabFind_tabSet_ne _ _ (Ne.symm h)]

theorem RegCell.vote_ins (f : Fld) (v : Nat) (c : RegCell) :
    (RegCell.mk (f.ins v c.c0) (f.ins v c.c1) (f.ins v c.c2)).vote = f.ins v c.vote := by
  simp only [RegCell.vote, Fld.ins]
  ext i hi
  simp only [BitVec.getElem_or, BitVec.getElem_and, BitVec.getElem_not]
  cases f.mask[i] <;> cases (BitVec.ofNat 32 v <<< f.lo)[i] <;> simp

theorem State.regWord_put_same (s : State) (f : Fld) (v : Nat) :
    (s.put f v).regWord f.page f.off = f.ins v (s.regWord f.page f.off) := by
  simp only [State.regWord, State.cell_put_same, RegCell.vote_ins]

theorem State.regWord_put_ne (s : State) (f : Fld) (v p o : Nat) (h : regKey f.page f.off ≠ regKey p o) :
    (s.put f v).regWord p o = s.regWord p o := by
  simp only [State.regWord, State.cell_put_ne s f v p o h]

@[simp] theorem State.regWord_putWord_same (s : State) (p o : Nat) (w : Word) : (s.putWord p o w).regWord p o = w := by
  simp [State.regWord, State.putWord, State.cell, RegCell.vote]

theorem State.regWord_putWord_ne (s : State) (p o : Nat) (w : Word) (p' o' : Nat) (h : regKey p o ≠ regKey p' o') :
    (s.putWord p o w).regWord p' o' = s.regWord p' o' := by
  simp only [State.regWord, State.putWord, State.cell]
  rw [tabFind_tabSet_ne _ _ (Ne.symm h)]

/-! ### Fields -/

/-- The bits of a field's mask. -/
theorem Fld.mask_getLsbD (f : Fld) (hf : f.fits) (i : Nat) : f.mask.getLsbD i = (decide (f.lo ≤ i) && decide (i ≤ f.hi)) := by
  obtain ⟨h1, h2⟩ := hf
  have hm : (1#32 <<< (f.hi - f.lo + 1) - 1#32) = BitVec.ofNat 32 (2 ^ (f.hi - f.lo + 1) - 1) := by
    apply BitVec.eq_of_toNat_eq
    rcases Nat.lt_or_ge (f.hi - f.lo + 1) 32 with hlt | hge
    · have hp : 2 ^ (f.hi - f.lo + 1) < 2 ^ 32 := Nat.pow_lt_pow_right (by norm_num) hlt
      have h1' : 1 ≤ 2 ^ (f.hi - f.lo + 1) := Nat.one_le_two_pow
      simp [BitVec.toNat_sub, BitVec.toNat_shiftLeft, Nat.shiftLeft_eq]
      omega
    · have : f.hi - f.lo + 1 = 32 := by omega
      rw [this]; decide
  simp only [Fld.mask, hm, BitVec.getLsbD_shiftLeft, BitVec.getLsbD_ofNat, Nat.testBit_two_pow_sub_one]
  rw [Bool.eq_iff_iff]
  simp
  omega

theorem Fld.ext_ins_self (f : Fld) (hf : f.fits) (v : Nat) (w : Word) : f.ext (f.ins v w) = v % f.size := by
  have e : (f.ins v w &&& f.mask) = (BitVec.ofNat 32 v <<< f.lo) &&& f.mask := by
    simp only [Fld.ins]; ext i hi
    simp only [BitVec.getElem_or, BitVec.getElem_and, BitVec.getElem_not]
    cases f.mask[i] <;> simp
  have : ((BitVec.ofNat 32 v <<< f.lo &&& f.mask) >>> f.lo) = BitVec.ofNat 32 (v % f.size) := by
    apply BitVec.eq_of_getLsbD_eq
    intro i hi
    obtain ⟨h1, h2⟩ := hf
    rw [BitVec.getLsbD_ushiftRight, BitVec.getLsbD_and, Fld.mask_getLsbD f ⟨h1, h2⟩]
    simp only [BitVec.getLsbD_shiftLeft, BitVec.getLsbD_ofNat, Fld.size, Nat.testBit_mod_two_pow]
    rcases Nat.lt_or_ge i (f.hi - f.lo + 1) with hl | hl
    · have h3 : f.lo + i < 32 := by omega
      have h4 : f.lo + i ≤ f.hi := by omega
      simp [hl, h3, h4, hi]
    · have h4 : ¬ (f.lo + i ≤ f.hi) := by omega
      simp [h4, Nat.not_lt.mpr hl]
  rw [Fld.ext, e, this, BitVec.toNat_ofNat, Nat.mod_eq_of_lt]
  obtain ⟨h1, h2⟩ := hf
  refine lt_of_lt_of_le (Nat.mod_lt _ (by simp [Fld.size])) ?_
  exact Nat.pow_le_pow_right (by norm_num) (by omega)

/-- A field written reads back, in as many bits as it has. -/
theorem State.get_put_same (s : State) (f : Fld) (hf : f.fits) (v : Nat) : (s.put f v).get f = v % f.size := by
  simp only [State.get, State.regWord_put_same, Fld.ext_ins_self f hf]

theorem Fld.ext_ins_apart (f g : Fld) (h : f.mask &&& g.mask = 0#32) (v : Nat) (w : Word) :
    g.ext (f.ins v w) = g.ext w := by
  have : f.ins v w &&& g.mask = w &&& g.mask := by
    simp only [Fld.ins]; ext i hi
    have hz := congrArg (fun x => x.getLsbD i) h
    simp only [BitVec.getLsbD_and, BitVec.getLsbD_zero] at hz
    simp only [BitVec.getElem_or, BitVec.getElem_and, BitVec.getElem_not]
    simp only [BitVec.getLsbD_eq_getElem hi] at hz
    cases hf : f.mask[i] <;> cases hg : g.mask[i] <;> simp_all
  simp only [Fld.ext, this]

/-- A field of one register and a field of another, or of the same register with no bit in common. -/
theorem State.get_put_apart (s : State) {f g : Fld} (h : f.apart g) (v : Nat) : (s.put f v).get g = s.get g := by
  rcases h with h | ⟨hp, ho, hm⟩
  · simp only [State.get, State.regWord_put_ne s f v _ _ h]
  · simp only [State.get, ← hp, ← ho, State.regWord_put_same, Fld.ext_ins_apart f g hm]

theorem Fld.apart_key {f g : Fld} (h : regKey f.page f.off ≠ regKey g.page g.off) : f.apart g := Or.inl h

theorem Fld.apart_symm {f g : Fld} (h : f.apart g) : g.apart f := by
  rcases h with h | ⟨hp, ho, hm⟩
  · exact Or.inl (Ne.symm h)
  · exact Or.inr ⟨hp.symm, ho.symm, by rw [BitVec.and_comm]; exact hm⟩

/-- Bit ranges that do not meet. -/
theorem Fld.apart_bits {f g : Fld} (hf : f.fits) (hg : g.fits) (hp : f.page = g.page) (ho : f.off = g.off)
    (h : f.hi < g.lo ∨ g.hi < f.lo) : f.apart g := by
  refine Or.inr ⟨hp, ho, ?_⟩
  apply BitVec.eq_of_getLsbD_eq
  intro i hi
  rw [BitVec.getLsbD_and, Fld.mask_getLsbD f hf, Fld.mask_getLsbD g hg]
  simp
  omega

theorem wholeReg_apart {p o : Nat} {g : Fld} (h : (wholeReg p o).apart g) : regKey p o ≠ regKey g.page g.off ∨ g.mask = 0#32 := by
  rcases h with h | ⟨-, -, hm⟩
  · exact Or.inl h
  · refine Or.inr ?_
    have : (wholeReg p o).mask = BitVec.allOnes 32 := by simp only [wholeReg, Fld.mask]; decide
    rw [this, BitVec.allOnes_and] at hm
    exact hm

theorem State.get_putWord_apart (s : State) {p o : Nat} {g : Fld} (h : (wholeReg p o).apart g) (w : Word) :
    (s.putWord p o w).get g = s.get g := by
  rcases wholeReg_apart h with h | h
  · simp only [State.get, State.regWord_putWord_ne s p o w _ _ h]
  · simp only [State.get, Fld.ext, h, BitVec.and_zero]

/-- A field of a register written whole. -/
theorem State.get_putWord_same (s : State) (p o : Nat) (w : Word) (f : Fld) (hp : f.page = p) (ho : f.off = o) :
    (s.putWord p o w).get f = f.ext w := by
  subst hp ho; simp only [State.get, State.regWord_putWord_same]

/-! ### Writes that come down to State.put -/

theorem State.putB_eq (s : State) (f : Fld) (b : Bool) : s.putB f b = s.put f (if b then 1 else 0) := rfl
theorem State.satAdd_eq (s : State) (f : Fld) (n : Nat) : s.satAdd f n = s.put f (min (s.get f + n) (f.size - 1)) := rfl
theorem State.satInc_eq (s : State) (f : Fld) : s.satInc f = s.put f (min (s.get f + 1) (f.size - 1)) := rfl
theorem State.count_eq (s : State) (f : Fld) (n : Nat) : s.count f n = s.put f ((s.get f + n) % f.size) := rfl

/-! ### Frames -/

theorem FieldsBut.refl (fs : List Fld) (s : State) : FieldsBut fs s s := fun _ _ => rfl

theorem FieldsBut.trans {fs : List Fld} {s t u : State} (h : FieldsBut fs s t) (k : FieldsBut fs t u) : FieldsBut fs s u :=
  fun g hg => (k g hg).trans (h g hg)

theorem FieldsBut.mono {fs gs : List Fld} {s t : State} (h : FieldsBut fs s t) (hs : ∀ f ∈ fs, f ∈ gs) : FieldsBut gs s t :=
  fun g hg => h g fun f hf => hg f (hs f hf)

theorem FieldsBut.of_regs {fs : List Fld} {s t u : State} (h : FieldsBut fs s t) (hr : u.regs = t.regs) (hf : u.fuse = t.fuse) :
    FieldsBut fs s u := fun g hg => (State.get_of_regs hr hf g).trans (h g hg)

theorem FieldsBut.put {fs : List Fld} {s t : State} (h : FieldsBut fs s t) {f : Fld} (hf : f ∈ fs) (v : Nat) :
    FieldsBut fs s (t.put f v) := fun g hg => (State.get_put_apart t (hg f hf) v).trans (h g hg)

theorem FieldsBut.putB {fs : List Fld} {s t : State} (h : FieldsBut fs s t) {f : Fld} (hf : f ∈ fs) (b : Bool) :
    FieldsBut fs s (t.putB f b) := h.put hf _

theorem FieldsBut.satAdd {fs : List Fld} {s t : State} (h : FieldsBut fs s t) {f : Fld} (hf : f ∈ fs) (n : Nat) :
    FieldsBut fs s (t.satAdd f n) := h.put hf _

theorem FieldsBut.satInc {fs : List Fld} {s t : State} (h : FieldsBut fs s t) {f : Fld} (hf : f ∈ fs) :
    FieldsBut fs s (t.satInc f) := h.put hf _

theorem FieldsBut.count {fs : List Fld} {s t : State} (h : FieldsBut fs s t) {f : Fld} (hf : f ∈ fs) (n : Nat) :
    FieldsBut fs s (t.count f n) := h.put hf _

theorem FieldsBut.putMax {fs : List Fld} {s t : State} (h : FieldsBut fs s t) {f : Fld} (hf : f ∈ fs) (v : Nat) :
    FieldsBut fs s (t.putMax f v) := by
  unfold State.putMax; split
  · exact h.put hf _
  · exact h

theorem FieldsBut.putWord {fs : List Fld} {s t : State} (h : FieldsBut fs s t) {p o : Nat} (hf : wholeReg p o ∈ fs) (w : Word) :
    FieldsBut fs s (t.putWord p o w) := fun g hg => (State.get_putWord_apart t (hg _ hf) w).trans (h g hg)

/-! ### Events -/

theorem statusBit_mask (p b : Nat) : (Fld.mk p 0x10 b b).mask = 1#32 <<< b := by
  simp [Fld.mask]

/-- A status bit set leaves every field apart from it. -/
theorem State.get_statusSet (s : State) (p b : Nat) {g : Fld} (h : (Fld.mk p 0x10 b b).apart g) :
    (s.putWord p 0x10 (s.regWord p 0x10 ||| (1#32 <<< b))).get g = s.get g := by
  rcases h with h | ⟨hp, ho, hm⟩
  · simp only [State.get, State.regWord_putWord_ne s _ _ _ _ _ h]
  · simp only at hp ho
    rw [statusBit_mask] at hm
    simp only [State.get, ← hp, ← ho, State.regWord_putWord_same, Fld.ext]
    congr 2
    generalize (1#32 <<< b) = m at hm ⊢
    ext i hi
    have hz : (m &&& g.mask).getLsbD i = false := by rw [hm]; simp
    rw [BitVec.getLsbD_and, BitVec.getLsbD_eq_getElem hi, BitVec.getLsbD_eq_getElem hi] at hz
    simp only [BitVec.getElem_and, BitVec.getElem_or]
    cases hx : m[i] <;> cases hy : g.mask[i] <;> simp_all

theorem FieldsBut.irqEdge {fs : List Fld} {s t : State} (h : FieldsBut fs s t) (hm : F.PCIE_MSI_PEND_pending ∈ fs) (l : Bool) (p : Nat) :
    FieldsBut fs s (t.irqEdge l p) := by
  unfold State.irqEdge; split
  · exact h.put hm _
  · exact h

/-- An event changes its status bit, the pending bits of PCIE and the events at the collector, and nothing else. -/
theorem FieldsBut.raise {fs : List Fld} {s t : State} (h : FieldsBut fs s t) {p b : Nat} (hs : Fld.mk p 0x10 b b ∈ fs)
    (hm : F.PCIE_MSI_PEND_pending ∈ fs) : FieldsBut fs s (t.raise p b) := by
  have h1 : FieldsBut fs s (t.putWord p 0x10 (t.regWord p 0x10 ||| (1#32 <<< b))) :=
    fun g hg => (State.get_statusSet t p b (hg _ hs)).trans (h g hg)
  have h2 := h1.irqEdge hm (t.irqLevel p) p
  unfold State.raise; simp only []; split
  · exact h2.of_regs rfl rfl
  · exact h2

theorem State.get_raise (s : State) {p b : Nat} {g : Fld} (h1 : (Fld.mk p 0x10 b b).apart g)
    (h2 : F.PCIE_MSI_PEND_pending.apart g) : (s.raise p b).get g = s.get g :=
  (FieldsBut.refl (eventFields p b) s).raise (by simp [eventFields]) (by simp [eventFields]) g
    (by
      intro f hf
      simp only [eventFields, List.mem_cons, List.not_mem_nil, or_false] at hf
      rcases hf with hf | hf
      · rw [hf]; exact h1
      · rw [hf]; exact h2)

theorem FieldsBut.raiseIf {fs : List Fld} {s t : State} (h : FieldsBut fs s t) {p b : Nat} (hs : Fld.mk p 0x10 b b ∈ fs)
    (hm : F.PCIE_MSI_PEND_pending ∈ fs) (c : Bool) : FieldsBut fs s (t.raiseIf c p b) := by
  unfold State.raiseIf; split
  · exact h.raise hs hm
  · exact h

/-- After an event its status bit is set. -/
theorem State.eventSet_raise (s : State) (p b : Nat) (hb : b < 32) : (s.raise p b).eventSet p b = true := by
  have hk : F.PCIE_MSI_PEND_pending.apart ⟨p, 0x10, b, b⟩ := Or.inl (by simp only [regKey]; omega)
  have key : ∀ u : State, u.regs = ((s.putWord p 0x10 (s.regWord p 0x10 ||| (1#32 <<< b))).irqEdge (s.irqLevel p) p).regs →
      u.fuse = s.fuse → u.eventSet p b = true := by
    intro u hu hf
    have hf2 : ((s.putWord p 0x10 (s.regWord p 0x10 ||| (1#32 <<< b))).irqEdge (s.irqLevel p) p).fuse = s.fuse := by
      unfold State.irqEdge; split <;> rfl
    simp only [State.eventSet, State.flag]
    rw [State.get_of_regs hu (hf.trans hf2.symm)]
    have : ((s.putWord p 0x10 (s.regWord p 0x10 ||| (1#32 <<< b))).irqEdge (s.irqLevel p) p).get ⟨p, 0x10, b, b⟩
        = (s.putWord p 0x10 (s.regWord p 0x10 ||| (1#32 <<< b))).get ⟨p, 0x10, b, b⟩ := by
      unfold State.irqEdge; split
      · exact State.get_put_apart _ hk _
      · rfl
    rw [this, State.get_putWord_same s p 0x10 _ ⟨p, 0x10, b, b⟩ rfl rfl]
    simp only [Fld.ext, statusBit_mask, bne_iff_ne, ne_eq]
    intro hz
    have hb2 : (((s.regWord p 0x10 ||| 1#32 <<< b) &&& 1#32 <<< b) >>> b).getLsbD 0 = true := by
      rw [BitVec.getLsbD_ushiftRight, BitVec.getLsbD_and, BitVec.getLsbD_or, BitVec.getLsbD_shiftLeft]
      simp [hb]
    have : ((s.regWord p 0x10 ||| 1#32 <<< b) &&& 1#32 <<< b) >>> b = 0#32 := BitVec.eq_of_toNat_eq (by simpa using hz)
    rw [this] at hb2
    simp at hb2
  unfold State.raise; simp only []; split
  · exact key _ rfl (by unfold State.irqEdge; split <;> rfl)
  · exact key _ rfl (by unfold State.irqEdge; split <;> rfl)

end Sys2Proof.Machine
end

