-- ==== Sys2Proof/WellFormed.lean ====
section
/-! DEFINITION. Which commands are well formed: those whose operands can occur on the wires that carry them. A command that is not
well formed is not sent; the machine still answers it with a next state. -/

namespace Sys2Proof

/-- The frame types of R411 that carry payload words; requests, acknowledgements and signals carry none. -/
def XFrame.hasPayload (f : XFrame) : Bool := f.typ == 1 || f.typ == 3 || decide (7 ≤ f.typ.toNat ∧ f.typ.toNat ≤ 12)

/-- A Xagus frame (R411): payload words and their codewords as many as its words field says. -/
def XFrame.wf (f : XFrame) : Bool :=
  if f.hasPayload then f.payload.length == f.words.toNat + 1 && f.code.length == f.words.toNat + 1
  else f.payload.isEmpty && f.code.isEmpty

/-- A TLP of the host (R404): as many bytes as its length, within a 4 KiB page; a read carries none. -/
def Tlp.wf (t : Tlp) (write : Bool) : Bool :=
  decide (1 ≤ t.len) && decide (t.offset.toNat % 4096 + t.len ≤ 4096) && t.data.length == if write then t.len else 0

/-- A request of the XS die (R30): the words of a write are as many as it names; registers are words (R47). -/
def XsReq.wf (r : XsReq) : Bool :=
  match r.kind with
  | .read => decide (1 ≤ r.words) && r.data.isEmpty
  | .write => decide (1 ≤ r.words) && r.data.length == r.words
  | .mailboxRead off => off.toNat % 4 == 0
  | .mailboxWrite off _ => off.toNat % 4 == 0
  | .reserved => true

/-- A CAN FD frame (R215): at most 64 bytes, an 11-bit identifier unless it is extended. -/
def CanFrame.wf (f : CanFrame) : Bool := decide (f.data.length ≤ 64) && (f.extended || decide (f.ident.toNat < 2048))

/-- Is a command well formed? -/
def Instr.wf : Instr → Bool
  | .registerWrite _ off acc => off.toNat % 4 == 0 && (!acc.poisoned || acc.req == .host)
  | .rcRead _ off _ _ _ => off.toNat % 4 == 0
  | .xsRequest r => r.wf
  | .gridSample _ temps => temps.length == 16
  | .slotStart _ _ slot => decide (slot < 96)
  | .spiFrame _ data => decide (8 ≤ data.length ∧ data.length ≤ 64)
  | .canFdFrame _ _ f => f.wf
  | .bar2Write t => t.wf true
  | .bar2Read t => t.wf false
  | .patrolScrub _ codes => codes.length == 32
  | .thermalSample t => t.hub.length == 16
  | .xagusWrite _ f | .readRequest _ f | .readReturn _ f | .writeAcknowledge _ f | .remoteSignal _ f | .signalAcknowledge _ f
  | .hello _ f | .linkState _ f | .collectiveData _ f | .collectiveControl _ f | .twinDigest _ f | .twinControl _ f => f.wf
  | _ => true

end Sys2Proof
end

