-- ==== Sys2Proof/Tests/Slice0.lean ====
section
/-! SUPPORT. Tests: worked examples of the spec, commands that are not well formed, and for every statement states and operands that
meet its hypotheses together, clause by clause. -/

set_option maxRecDepth 100000
set_option Elab.async false
set_option linter.unusedVariables false

open Sys2Proof Sys2Proof.Machine

namespace Sys2Proof.Tests

/-! ### States and operands -/

/-- A machine whose block of page `p` is out of reset. -/
def wOp (p : Nat) (s : State) : State := s.put (F.BLK_STATUS_in_reset p) 0
/-- The machine after reset, with die 0 in run. -/
def wRun : State := State.reset.put (F.CD_STATE_state 0) 3
/-- With die 0 in another state. -/
def wDie (v : Nat) : State := State.reset.put (F.CD_STATE_state 0) v
/-- The link from die C0 to HB. -/
def wEnd : HingeEnd := ⟨0, 1⟩
def wHdr : BitVec 48 := 0#48
def wFlit : Flit := { hdr := wHdr, hcrc := crc16 wHdr, data := 0, code := .clean }
def wFails : State := { State.reset with links := [(1, { fails := 8 })] }
def wAns : DiscAnswer := ⟨3#8, 0x10#8, 1#8, 1#8, 7#64, 0xFFFFFF#32⟩
def wIdent : State := { State.reset with ident := [(0, wAns)] }
def wDisc : State := { State.reset with disc := { running := true, awaiting := [0, 1], tries := [(1, 3)] } }
def wUp : State := { State.reset with
  disc := { running := true }
  isl := [(0, { running := true }), (1, { running := true })] }
def wAcc (v : Word) : Acc := { req := .host, view := .base, be := 0xF#4, val := v }
def wWr (s : State) (p o : Nat) (a : Acc) : State × Word := (s.written p o a).getD (s, 0#32)
def wTemps (t : Int) : List (Option Int) := List.replicate 16 (some t)
def wUpMis : State := { wUp with ident := [(1, wAns)] }
def wRedis : State := wOp 5 ((wIdent.putTopo 0 wAns).put (F.CD_STATE_state 0) 2)
def wUpRun : State := wOp 5 (wOp 96 (wUp.put (F.CD_STATE_state 0) 3))
def wHeld : State := wOp 5 (wDie 6)
def wStopped : State := wRun.put (stopField 1 0) 1
def wBadCrc : Flit := { wFlit with hcrc := 5 }

def wXs : State := { State.reset with
  fuse := { State.reset.fuse with xsPopulated := true }
  sec := { State.reset.sec with boot := { State.reset.sec.boot with running := true } } }
def wXsStep (k : Nat) : State := { wXs with dike := { wXs.dike with step := k } }
def wXsFault : State := wOp 6 (wXs.put F.DIKE_STATUS_state 4)
def wXsLive : State := wOp 6 ((wXs.put F.DIKE_STATUS_state 3).put F.DIKE_CTRL_enable 1)
def wCommit : State := { wXsLive with dike := { wXsLive.dike with commitQ := true } }
def wBadWin : State := ((wCommit.put (F.DIKE_WIN_SIZE_valid 0) 1).put (F.DIKE_WIN_SIZE_size_log2 0) 5)
def wWindow : Window := ⟨hubBase, 4096, 3, 10, 8, 16⟩
def wWindows : State := { wXsLive with dike := { wXsLive.dike with windows := [(2, wWindow)] } }
def wNoTok : State := { wXsLive with dike := { wXsLive.dike with windows := [(2, { wWindow with tokens := 0 })] } }
def wNoPerm : State := { wXsLive with dike := { wXsLive.dike with windows := [(2, { wWindow with perm := 0 })] } }
def wXsReq : XsReq := ⟨.read, BitVec.ofNat 48 hubBase, 4, [], .clean⟩
def wXsFar : XsReq := ⟨.read, BitVec.ofNat 48 (hubBase + 4064), 4, [], .clean⟩
def wStall : State := { wWindows with dike := { wWindows.dike with stalled := [wXsReq] } }
def wMail : State := wOp 62 (((wXs.put F.XSLOT_STATUS_open 1).put F.XSLOT_STATUS_h2x_pending 1).put F.XSLOT_STATUS_x2h_valid 1)
def wMail0 : State := wOp 62 (wXs.put F.XSLOT_STATUS_open 1)

def wMgmt (v : Word) : Acc := { wAcc v with req := .mgmt }
def wGen : State := wOp 0 State.reset
def wGenUp : State := wOp 0 wUp
def wGenX : State := wGen.put (F.BLK_LEVEL_expert 0) 1
def wDiscX : State := wOp 5 wGenX
def wArmed : State := { wOp 5 wGen with armedBy := [(5, .host)] }
def wNoHost : State := wArmed.put F.GEN_HOST_EXPERT_allow 0
def wScrub : State := { State.reset with regs := [(5 * 512 + 1, ⟨0x7F#32, 0x7E#32, 0x7F#32⟩)] }
def wStX : State := wOp 224 (wRun.put (F.BLK_LEVEL_expert 224) 1)
def wCdOn : State := wOp 96 wRun

/-- An instruction word (R119) without formats. -/
def wIns (op mod imm c b a d : Nat) : BitVec 128 :=
  BitVec.ofNat 128 (op * 2 ^ 120 + mod * 2 ^ 96 + imm * 2 ^ 64 + c * 2 ^ 48 + b * 2 ^ 32 + a * 2 ^ 16 + d)
/-- No operand. -/
def wNo : Nat := 0xFFFF
/-- Scalar register r. -/
def wS (r : Nat) : Nat := 0x8000 + r
/-- An array as it is while slot 0 of the job of queue 0x400, index 0 runs on it. -/
def wArrSt (w : BitVec 128) : ArrSt := { words := [(w, none), (wIns 0 0 0 wNo wNo wNo wNo, none), (wIns 0 0 0 wNo wNo wNo wNo, none)] }
def wJob : Job where
  queue := 0x400
  index := 0
  desc := [1#8]
  stage := .placed
  header := List.replicate 16 0#8 ++ [4#8, 0#8]
  slots := [{ phase := 2, die := 0, logical := 0 }]
/-- Array A0 of die 0 runs a slot whose program is `w` and two NOPs. -/
def wSeq (w : BitVec 128) : State :=
  { (((wRun.put (F.ARR_STATE_state 0) 1).put (F.ARR_JOB_QUEUE_valid 0) 1).put (F.ARR_JOB_QUEUE_queue 0) 0x400) with
    arrs := [(0, wArrSt w)]
    jobs := [wJob] }
/-- The same with scalar registers, return stack or wait. -/
def wSeqA (w : BitVec 128) (f : ArrSt → ArrSt) : State := { wSeq w with arrs := [(0, f (wArrSt w))] }
def wA0 : Arr := ⟨0, 0⟩
/-- s1 = v. -/
def wReg1 (v : Nat) (a : ArrSt) : ArrSt := a.setScalar 1 v
def wWaitFor (w : ArrWait) : State := wSeqA (wIns 0 0 0 wNo wNo wNo wNo) fun a => { a with wait := w }
def wTd1 (a : ArrSt) : ArrSt := { a with tds := [[1#8, 0x0C#8]] }
def wExact (s : State) : State := s.put (F.ARR_STATE_exact 0) 1
def wAllowN (s : State) : State := s.put (F.ARR_STATE_allow_n 0) 1
def wDebug (s : State) : State := s.put F.SEC_DEBUG_STATE_scope 0x10

/-- An instruction word with formats. -/
def wInsF (op fa fb fo mod imm c b a d : Nat) : BitVec 128 :=
  wIns op mod imm c b a d ||| BitVec.ofNat 128 ((fa * 256 + fb * 16 + fo) * 2 ^ 108)
/-- Line-buffer bytes from word 0 on. -/
def wLb (bs : List Byte) (a : ArrSt) : ArrSt := { a with lb := cellWrite [] 0 bs }
def wDenseTd (fmt : Nat) : List Byte :=
  leBytes 1 1 ++ leBytes 1 fmt ++ leBytes 2 0 ++ leBytes 4 8 ++ leBytes 4 1 ++ leBytes 4 1 ++ leBytes 4 1 ++ leBytes 4 0
    ++ leBytes 8 (poolBase 0)
def wTd0 (t : List Byte) (a : ArrSt) : ArrSt := { a with tds := [t] }
def wKvTd : List Byte := leBytes 1 2 ++ leBytes 1 4 ++ leBytes 2 0 ++ leBytes 2 3 ++ leBytes 2 0 ++ leBytes 4 16
def wHubMem (bs : List Byte) (s : State) : State := { s with mem := cellWrite [] (poolBase 0) bs }
def wConvBlk : List Byte :=
  leBytes 2 2 ++ leBytes 2 2 ++ leBytes 2 1 ++ leBytes 2 1 ++ [1#8, 1#8, 1#8, 1#8, 1#8, 1#8] ++ leBytes 2 0 ++ leBytes 8 0
    ++ leBytes 2 0 ++ leBytes 2 2 ++ leBytes 4 0 ++ leBytes 4 0 ++ leBytes 2 2 ++ leBytes 2 2
def wConvBlk0 : List Byte :=
  leBytes 2 1 ++ leBytes 2 1 ++ leBytes 2 1 ++ leBytes 2 1 ++ [3#8, 3#8, 1#8, 1#8, 1#8, 1#8]
def wConvTd : List Byte := bytesAt (wDenseTd 12) 0 0x38 ++ leBytes 8 (poolBase 0 + 64)
def wKey (k : Nat) : Nat := k * 2 ^ 32
def wJobC : Job := { wJob with
  desc := [1#8]
  accs := [] }
def wTile : TileSt := { owner := 0, key := 0, kLen := 4, int := true, issued := [], count := 1, acc := [⟨5, false⟩, ⟨7, false⟩] }
def wRedJob : Job := { wJob with accs := [wTile] }
def wRedFly : Fly := { id := 3, unit := .tensor, pc := 0, wr := [(0, 128)], red := some (0, 1, 0) }
def wRedSt : State := { wSeqA 0 (fun a => { a with flights := [wRedFly] }) with jobs := [wRedJob] }
def wPart : Partial := ⟨0x400, 0, 0, 0, 4, 0, true, 0, [⟨5, false⟩, ⟨7, false⟩], []⟩
def wPartSt : State := { wSeq 0 with
  jobs := [{ wJob with accs := [{ wTile with count := 0, acc := [] }] }]
  transit := [wPart] }
def wHeldSt (w : BitVec 128) : State := wSeqA w fun a => { wReg1 (wKey 4) a with wait := .held }
def wAllows (s : State) : State := wAllowN s
def wStartSt : State := { wRun with jobs := [{ wJob with slots := [{ phase := 1, die := 0, logical := 0 }] }] }
def wId : JobId := ⟨0x400, 0⟩
def wLoadJob : Job := { wJob with
  program := hubBase
  header := leBytes 4 0 ++ leBytes 2 1 ++ leBytes 2 2 ++ leBytes 2 1 ++ leBytes 6 0 ++ [4#8, 0#8] }
def wLoadSt : State := { wSeqA 0 (fun a => { a with loading := true }) with jobs := [wLoadJob] }
def wLandFly : Fly := { id := 2, unit := .move, pc := 0, lbW := [⟨0, [1#8, 2#8], false⟩], memW := [⟨poolBase 0, [3#8], false⟩], flags := 1 }
def wLandSt : State := wSeqA 0 fun a => { a with flights := [wLandFly] }
def wStopSt : State := wSeqA 0 fun a => { a with stop := some 0 }
def wEndSt : State := wSeqA 0 fun a => { a with ending := true }
def wPage (s : State) : State := wOp 128 s
def wPageX (s : State) : State := (wOp 128 s).put (F.BLK_LEVEL_expert 128) 1
def wHalted : State := (wSeq 0).put (F.ARR_STATE_state 0) 2
def wNotRun : State := (wSeq 0).put (F.ARR_STATE_state 0) 0
def wHaltWr : State × Word := wWr (wPage (wSeq 0)) 128 0x24 (wAcc 1)
def wResumeWr : State × Word := wWr (wPage wHalted) 128 0x24 (wAcc 2)
def wAbortWr : State × Word := wWr (wPage (wSeq 0)) 128 0x24 (wAcc 4)
def wInj1Wr : State × Word := wWr (wPageX wNotRun) 128 0x104 (wAcc 0x10005)
def wInj2Wr : State × Word := wWr (wPageX wNotRun) 128 0x104 (wAcc 0x20005)

/-- A running KV manager: pool 0 of 64 latents (2 bytes) in the pool of die 0, 4 pages from page 0, tables in hub SRAM. -/
def wKv0 : State :=
  ((((((((wRun.put F.KV_STATUS_state 2).put (F.KV_POOL_CFG_latent 0) 64).put (F.KV_POOL_CFG_valid 0) 1).put
    (F.KV_POOL_COUNT_pages 0) 4).put (F.KV_POOL_BASE_HI_base 0) 0xFF10).put F.KV_STATE_BASE_HI_base 0xFF20).put
    F.KV_SEQ_BASE_HI_base 0xFF20).put F.KV_SEQ_BASE_LO_base 0x100).put (F.KV_FREE_pages 0) 2
/-- Sequence 3: one layer, two blocks, open; block 0 is page 1, its state word `w`; pages 2 and 3 free. -/
def wKv (w : Nat) : State :=
  { wKv0 with
    mem := cellWrite (cellWrite (cellWrite [] (hubBase + 4) (leBytes 4 w ++ leBytes 4 (2 ^ 31 + 3) ++ leBytes 4 (2 ^ 31 + kvEnd)))
        (hubBase + 0x100060) (leBytes 8 (hubBase + 0x800) ++ leBytes 2 1 ++ [0#8, 1#8] ++ leBytes 4 2))
        (hubBase + 0x800) (leBytes 4 (2 ^ 31 + 1))
    kv := { wKv0.kv with heads := [(0, 2)] } }
def wSeqD : KvSeq := ⟨hubBase + 0x800, 1, 0, true, 2, true⟩
def wFetch : KvFetch := { seq := 3, layer := 0, fmt := 10, block := 0, blocks := 1, dst := 0 }
def wFetched : KvFetch := { seq := 3, layer := 0, fmt := 10, block := 0, blocks := 1, dst := 0, pages := [(1, 0)], asked := 1 }
def wStore (ph : Nat) : KvStore := { seq := 3, layer := 0, fmt := 10, token := 1, count := 1, segs := [⟨0, [9#8], false⟩], phase := ph,
                                     pool := 0, oldPg := 1, newPg := 2 }
def wFlyF (q : KvFetch) : Fly := { id := 4, unit := .move, pc := 0, kvF := some q }
def wFlyS (ph : Nat) : Fly := { id := 4, unit := .move, pc := 0, kvS := some (wStore ph) }
def wKvFly (w : Nat) (f : Fly) : State := { wKv w with arrs := [(0, { flights := [f] })] }
def wKvBusy : State := { wKv 1 with arrs := [(0, { flights := [wFlyS 0] }), (1, { flights := [wFlyS 2] })] }
def wCow : State := { wKvFly 0x20003 (wFlyS 2) with regs := (wKv 0).regs }
def wKvCmd (op seq src l0 ls b0 bs : Nat) : List Byte :=
  leBytes 2 op ++ leBytes 2 l0 ++ leBytes 4 ls ++ leBytes 4 seq ++ leBytes 4 src ++ leBytes 4 b0 ++ leBytes 4 bs ++ leBytes 8 0
def wKvJob : Job := { queue := 0x400, index := 0, desc := [6#8], stage := .placed, program := hubBase + 0x2000, header := leBytes 4 0 ++ leBytes 4 1 }
/-- The same with a KV job whose command is `b`. -/
def wKvList (w : Nat) (b : List Byte) : State :=
  { wKv w with
    mem := cellWrite (wKv w).mem (hubBase + 0x2020) b
    jobs := [wKvJob] }
def wKvClosed (b : List Byte) : State := { wKvList 1 b with mem := cellWrite (wKvList 1 b).mem (hubBase + 0x10006B) [0#8] }
def wKvSh : State :=
  { wKvList 1 (wKvCmd 3 3 4 0 1 1 1) with
    mem := cellWrite (wKvList 1 (wKvCmd 3 3 4 0 1 1 1)).mem (hubBase + 0x100080)
        (leBytes 8 (hubBase + 0x900) ++ leBytes 2 1 ++ [0#8, 1#8] ++ leBytes 4 2) }
def wOutS (r : KvRes × Nat) : State := r.1.1
def wKvPg : State := wOp pgKV (wKv 1)
def wKvOff : State := wKvPg.put F.KV_STATUS_state 0
def wKvOffBad : State := wKvOff.put (F.KV_POOL_COUNT_pages 0) 0
def wKvFaulted : State := wKvPg.put F.KV_STATUS_state 3
def wKvSweep : State := { wKv0.put F.KV_STATUS_state 1 with kv := { wKv0.kv with format := true } }
def wKvInUse : State := { wKvPg with arrs := [(0, { flights := [wFlyS 0] })] }
def wKvWr (s : State) (v : Word) : State × Word := wWr s pgKV 0x20 (wAcc v)

def wStrDesc (flags : Nat) (dt : Nat) : List Byte :=
  leBytes 1 1 ++ leBytes 1 flags ++ leBytes 2 0 ++ leBytes 2 7 ++ leBytes 2 0 ++ leBytes 2 0 ++ leBytes 2 0 ++ leBytes 4 100
    ++ leBytes 8 (hubBase + 0x10000) ++ [12#8] ++ List.replicate 7 0#8 ++ leBytes 1 dt
def wStr (flags dt : Nat) : StreamSt := { desc := wStrDesc flags dt, scoreC := .of 192 }
/-- ING runs; stream 0 (camera 0, slot 0) and streams 96, 112, 114 are on. -/
def wIng0 : State :=
  (((((((((wOp pgING wRun).put F.ING_CTRL_enable 1).put (F.CSI_CTRL_enable 0) 1).put (F.CSI_VCMAP_slot_en 0) 1).put (F.ETH_CTRL_enable 0) 1).put
    (F.ETH_MAC_HI_promisc 0) 1).put (F.ETH_FLOW_valid 0 0) 1).put (F.ETH_FLOW_PORT_port 0 0) 9).put (F.ING_STREAM_EN_enable 0) 1).put
    (F.ING_STREAM_EN_enable 3) 0x50001
def wQ : QSt := { enabled := true, ring := hubBase + 0x40000, sizeLog2 := 4 }
def wIng : State := { wIng0 with
  streams := [(0, wStr 4 0x2A), (96, wStr 0 0), (112, wStr 0 0), (114, wStr 0 0)]
  queues := [(0, wQ)] }
def wIngS (v : StreamSt) : State := { wIng with streams := [(0, v), (96, wStr 0 0), (112, wStr 0 0), (114, wStr 0 0)] }
def wRec : IngRec := { kind := 0, seq := 0, off := 0, len := 2, data := [5#8, 6#8] }
def wReady : State := wIngS { wStr 4 0x2A with ready := [wRec] }
def wDropR : IngRec := { kind := 2, seq := 0, len := 3 }
def wDropSt : State := wIngS { wStr 4 0x2A with ready := [wDropR] }
def wXsR : IngRec := { kind := 0, seq := 0, data := [5#8], xs := true }
def wXsSt : State := wIngS { wStr 1 0x2A with ready := [wXsR] }
def wNoStr : State := { wIng.put (F.ING_STREAM_EN_enable 0) 0 with
  mem := cellWrite [] hubBase (wStrDesc 4 0x2A)
  streams := [] }
def wIngT : State := (wNoStr.put F.ING_TABLE_BASE_HI_base 0xFF20)
def wIngT0 : State := { wIngT with mem := [] }
def wEnWr (s : State) (v : Word) : State × Word := wWr s pgING 0x30 (wAcc v)
def wIngWr (s : State) (v : Word) : State × Word := wWr s pgING 0x20 (wAcc v)
def wFrm : FrameSt := { lines := [[1#8, 2#8]], count := 1 }
def wFrameSt : State := wIngS { wStr 4 0x2A with frame := some wFrm }
def wPkt (e : EccState) (k : CsiKind) : CsiPacket := ⟨0#4, e, k⟩
def wEth (ok pause : Bool) (port : BitVec 16) : EthFrame := ⟨ok, 0#48, pause, none, some port, [1#8, 2#8, 3#8, 4#8, 5#8, 6#8, 7#8, 8#8, 9#8]⟩
def wSpi : List Byte := [1#8, 2#8, 3#8, 4#8, 5#8, 6#8, 7#8, 8#8]
def wCan : CanFrame := ⟨0x123#29, false, wSpi⟩
def wWardEnt (golden : Nat) : List Byte :=
  leBytes 1 1 ++ leBytes 1 1 ++ leBytes 1 0 ++ leBytes 1 5 ++ leBytes 4 32 ++ leBytes 8 (hubBase + 0x3000) ++ leBytes 8 (hubBase + 0x4000)
    ++ leBytes 8 golden ++ leBytes 8 0 ++ leBytes 16 0
def wWardSt (golden : Nat) : State :=
  { (wIngS { wStr 4 0x2A with done := [0] }).put F.WARD_CTRL_enable 1 |>.put F.WARD_TABLE_BASE_HI_base 0xFF20 with
    mem := cellWrite [] hubBase (wWardEnt golden) }
def wWr1 : WardRun := { entry := wWardEnt 0, bypass := false }
def wHdrOk : List Byte :=
  [0x56#8, 0x41#8, 0x50#8, 0x31#8] ++ leBytes 2 1 ++ leBytes 2 1 ++ leBytes 2 0 ++ leBytes 2 0 ++ leBytes 4 0 ++ leBytes 2 1 ++ leBytes 110 0
/-- A ward is due on stream 0; array 0 of die 0 serves; the ward program lies in hub SRAM. -/
def wWardDue (defer budget : Nat) : State :=
  { (((wIngS { wStr 4 0x2A with ward := some wWr1, deferrals := defer }).put (F.CD_ARR_SERVICE_in_service 0) 1).put F.PWR_STATE_state 4).put
      (F.WARD_BUDGET_us 0) budget with
    mem := cellWrite [] (hubBase + 0x3000) wHdrOk }
def wWardVictim : State :=
  { (((wWardDue 3 0).put (F.ARR_STATE_state 0) 1).put (F.ARR_JOB_QUEUE_valid 0) 1).put (F.ARR_JOB_QUEUE_queue 0) 0x400 with
    arrs := [(0, wArrSt 0)]
    jobs := [wJob] }
def wRunWard : WardRun := { entry := wWardEnt 0, bypass := false, running := true }
def wWJob : Job := { wardJob 0 0 0 (wWardEnt 0) wHdrOk with slots := [{ phase := 3 }] }
def wWardRun : State := { wIngS { wStr 4 0x2A with ward := some wRunWard } with jobs := [wWJob] }
def wSaved : SavedArr := ⟨0, wArrSt 0, [(0x02C, 5#32)]⟩
def wOverRun : WardRun := { wRunWard with saved := some wSaved }
def wOverSt : State := { wIngS { wStr 4 0x2A with ward := some wOverRun } with jobs := [wWJob] }
def wEgoOff : State := wOp pgEGO wIng
def wEgoOn : State := wEgoOff.put F.EGO_CTRL_enable 1
def wEgoWr (s : State) (v : Word) : State × Word := wWr s pgEGO 0x20 (wAcc v)
def wImu (n ts flags : Nat) : EgoItem := { stream := n, seq := 0, flags := flags, ts := ts, pos := 0, data := leBytes 64 0x3F00000100020003 }
def wEgo (some1 : Bool) (i : EgoItem) : State :=
  { ((((wEgoOn.put F.EGO_RING_BASE_HI_base 0xFF20).put F.EGO_LIMITS_max_dt_us 1000).put F.EGO_IMU_LAYOUT_acc_off 8).put F.EGO_STATUS_state 1) with
    egoIn := [i]
    ego := { some1 := some1, tPrev := 100 } }

def wCal : Tab Word := [(0, 1#32), (1, 0x3F800000#32), (8, 0x3F800000#32), (9, 0x3F800000#32), (18, 0x00100010#32)]
def wProjOff : State := { wOp pgPROJ wRun with proj := { wRun.proj with cal := wCal } }
def wProjBad : State := { wProjOff with proj := { wRun.proj with cal := [(32, 7#32)] } }
def wProjOn : State := wProjOff.put F.PROJ_CTRL_enable 1
def wProjWr (s : State) (v : Word) : State × Word := wWr s pgPROJ 0x20 (wAcc v)
def wPJob : Job := { queue := 0x400, index := 0, desc := [4#8], stage := .placed, program := hubBase + 0x2000, header := leBytes 4 0 ++ leBytes 4 1 }
/-- A projection command (R241): operation, source and destination sensor, points, limit, grid of 16 × 16 cells of 50 cm, heights. -/
def wPc (op count hs : Nat) : List Byte :=
  leBytes 1 op ++ [0#8, 0#8, 0#8] ++ leBytes 4 count ++ leBytes 8 0 ++ leBytes 8 0 ++ leBytes 8 (hubBase + 0x5000) ++ leBytes 8 (hubBase + 0x6000)
    ++ leBytes 4 0 ++ leBytes 2 16 ++ leBytes 2 16 ++ leBytes 2 50 ++ leBytes 1 hs ++ leBytes 1 0 ++ leBytes 2 8 ++ leBytes 2 8 ++ leBytes 8 0
def wProj (b src : List Byte) : State :=
  { (((wProjOn.put F.PROJ_STATUS_state 1).put F.EGO_STATUS_state 2).put F.EGO_POSE_COUNT_count 1).put F.EGO_RING_BASE_HI_base 0xFF20 with
    mem := cellWrite (cellWrite [] (hubBase + 0x2020) b) (hubBase + 0x5000) src
    jobs := [wPJob] }
def wPts : List Byte := leBytes 12 0x3F8000003F8000003F800000 ++ [0#8, 0#8, 0#8, 0#8] ++ leBytes 15 7 ++ [1#8]
/-- FUS with a sound configuration, not yet enabled, its pages at expert level. -/
def wFusOff : State :=
  ((((((((((((wOp pgFUS wRun).put F.FUS_GRID_CFG_width 16).put F.FUS_GRID_CFG_height 16).put F.FUS_GRID_CELL_cell_cm 50).put
    F.FUS_HEALTH_CFG_full_health 200).put F.FUS_HEALTH_CFG_mask_threshold 10).put F.FUS_CONTRA_dispute_clear 2).put
    F.FUS_TRACK_CFG_drop_instants 3).put F.FUS_INPUT_BASE_HI_base 0xFF20).put F.FUS_INPUT_BASE_LO_base 0).put
    F.FUS_TRACK_BASE_HI_base 0x41).put F.FUS_STATE_BASE_HI_base 0xFF20).put F.FUS_STATE_BASE_LO_base 0x100
def wFusOffD : State := { wFusOff with mem := [(hubBase + 0x100000, 5#8)] }
def wFusBad : State := wFusOff.put F.FUS_GRID_CELL_cell_cm 1
def wInst (r : Option Nat) : Instant := ⟨0x400, 0, 7, 0, 5000, hubBase + 0x7000, 0, 0, 0, [], r⟩
def wFJob : Job := { queue := 0x400, index := 0, desc := [3#8, 0#8, 0#8, 0#8, 9#8], stage := .placed, program := hubBase + 0x2000 }
def wSens : Tab FusSensor := [(3, { validC := .of 1, window := 5, reach := 1 })]
def wFusOn : State :=
  { (((wFusOff.put F.FUS_CTRL_enable 1).put F.FUS_STATUS_state 1).put F.EGO_STATUS_state 2) with
    jobs := [wFJob]
    fus := { wRun.fus with sensors := wSens } }
def wReqB : List Byte := [0x56#8, 0x46#8, 0x49#8, 0x31#8] ++ leBytes 4 0 ++ leBytes 8 5000 ++ leBytes 8 (hubBase + 0x7000)
def wFusReq : State := { wFusOn with mem := cellWrite [] (hubBase + 0x2000) wReqB }
def wFusReqOff : State := wFusOn.put F.FUS_STATUS_state 0
def wFusPend (r : Option Nat) : State := { wFusOn with fus := { wFusOn.fus with pending := [wInst r] } }
def wFusFaulted : State := wFusOn.put F.FUS_STATUS_state 3
def wFusWr (s : State) (v : Word) : State × Word := wWr s pgFUS 0x20 (wAcc v)
def wFIn : List Byte := leBytes 4 2 ++ [3#8, 0#8] ++ leBytes 2 0 ++ leBytes 8 4000 ++ leBytes 8 1
def wFusIn (b : List Byte) : State :=
  { wFusOn with
    mem := cellWrite [] (hubBase + 4096 * 3 + 128) b
    streams := [(0, { desc := [], items := [(1, 2, 4000)] })] }
def wFusDel : State := { wFusPend none with streams := [(0, { desc := [], items := [(1, 2, 4999)] })] }
def wFusMiss : State := { wFusPend (some 9) with streams := [(0, { desc := [], items := [(1, 2, 4999)] })] }

/-- COLL with its bases in hub SRAM, not yet enabled. -/
def wCollOff : State :=
  (((((((wOp pgCOLL wRun).put F.PLAN_SLOT_BASE_HI_base 0xFF20).put F.PLAN_SLOT_BASE_LO_base 0x70).put F.COLL_WS_BASE_HI_base 0xFF20).put F.COLL_TRI_BASE_HI_base 0xFF20).put F.COLL_TRI_BASE_LO_base 0x800).put
    F.COLL_RFX_BASE_HI_base 0xFF20).put F.COLL_RFX_BASE_LO_base 0x600
def wCollBad : State := wCollOff.put F.COLL_RFX_BASE_LO_base 0
def wCollOn : State := (wCollOff.collBases.put F.COLL_CTRL_enable 1).put F.COLL_STATUS_state 1
def wCollWr (s : State) (v : Word) : State × Word := wWr s pgCOLL 0x20 (wAcc v)
/-- A job of class 5 whose one command is `b`. -/
def wCJob : Job := { queue := 0x400, index := 0, desc := [5#8], stage := .placed, program := hubBase + 0x3100000, header := leBytes 4 0 ++ leBytes 4 2 }
def wCmd5 (b : List Byte) : List Byte := b ++ List.replicate (64 - b.length) 0#8
def wColl (b more : List Byte) : State :=
  { wCollOn with
    mem := cellWrite (cellWrite [] (hubBase + 0x1000000) more) (hubBase + 0x3100020) (wCmd5 b)
    jobs := [wCJob] }
/-- A world-set header: `prims` primitives, one node, cells of 1 m from (0, 0). -/
def wWs (prims : Nat) : List Byte :=
  [0x56#8, 0x57#8, 0x53#8, 0x31#8] ++ leBytes 4 prims ++ leBytes 4 0 ++ leBytes 4 1 ++ leBytes 4 0 ++ leBytes 4 0 ++ leBytes 8 77
    ++ leBytes 4 0 ++ leBytes 4 0 ++ leBytes 4 0x3F800000
def wBuild (node : List Byte) : State :=
  { wCollOn with
    mem := cellWrite (cellWrite [] (hubBase + 0x1000000) (wWs 0)) (hubBase + 0x1500000) node
    coll := { wCollOn.coll with building := some (1, 0x400, 0) }
    jobs := [wCJob] }
def wInner : List Byte := leBytes 24 0 ++ leBytes 4 0 ++ leBytes 4 0
/-- A root node that is a leaf of one reference. -/
def wLeafN (n : Nat) : List Byte := leBytes 24 0 ++ leBytes 4 (2 ^ 31) ++ leBytes 4 n
def wBuild1 : State :=
  { wBuild (wLeafN 1) with
    mem := cellWrite (cellWrite [] (hubBase + 0x1000000) ((wWs 1).take 16 ++ leBytes 4 1 ++ (wWs 1).drop 20)) (hubBase + 0x1500000) (wLeafN 1) }
def wRetire : State :=
  { (wCollOn.put F.COLL_RETIRE_FENCE_valid 1).put F.COLL_RETIRE_FENCE_object 9 with
    coll := { wCollOn.coll with
      current := some 1
      inUse := [0, 1] } }
def wRfx (waiting : List Nat) (run : Tab RfxRun) : State :=
  { wCollOn.put F.COLL_EPOCH_epoch 4 with
    mem := cellWrite (cellWrite [] (hubBase + 0x1000000) (wWs 0)) (hubBase + 0x3000000) [1#8]
    coll := { wCollOn.coll with
      current := some 1
      waiting := waiting
      running := run } }
def wPlanOff : State := (wOp pgPLAN wCollOn).put F.PLAN_SLOT_BASE_HI_base 0xFF20 |>.put F.PLAN_SLOT_BASE_LO_base 0x70
def wPlanBad : State := wPlanOff.put F.PLAN_SLOT_BASE_LO_base 0
def wPlanOn : State :=
  { (wPlanOff.put F.PLAN_CTRL_enable 1).put F.PLAN_STATUS_state 1 with
    plan := { wRun.plan with base := wPlanOff.addr F.PLAN_SLOT_BASE_LO_base } }
def wPlanWr (s : State) (v : Word) : State × Word := wWr s pgPLAN 0x20 (wAcc v)
/-- A roadmap at hub SRAM + 0x3200000: two nodes, one edge from node 0 to the terminal node 1 with no capsule bytes set beyond `caps`. -/
def wRm : List Byte :=
  [0x56#8, 0x52#8, 0x4D#8, 0x31#8] ++ leBytes 2 1 ++ leBytes 2 2 ++ leBytes 1 1 ++ leBytes 55 0 ++ leBytes 4 0 ++ leBytes 4 0x101 ++ leBytes 24 0
    ++ leBytes 2 0 ++ leBytes 2 1 ++ leBytes 1 0 ++ leBytes 1 1 ++ leBytes 2 0 ++ leBytes 24 0
    ++ leBytes 2 1000 ++ leBytes 2 1000 ++ leBytes 2 100 ++ leBytes 2 1200 ++ leBytes 2 1000 ++ leBytes 2 100 ++ leBytes 2 50 ++ leBytes 2 0 ++ leBytes 240 0
def wRmA : Nat := hubBase + 0x3200000
def wPlanS (b : List Byte) : State :=
  { wPlanOn with
    mem := cellWrite (cellWrite (wColl b (wWs 0)).mem wRmA wRm) (hubBase + 0x3300000)
      (leBytes 2 1 ++ leBytes 1 1 ++ leBytes 29 0 ++ leBytes 2 1000 ++ leBytes 2 1000 ++ leBytes 2 100 ++ leBytes 2 1200 ++ leBytes 2 1000
        ++ leBytes 2 100 ++ leBytes 2 50)
    jobs := [wCJob]
    coll := { wCollOn.coll with current := some 1 }
    plan := { wPlanOn.plan with maps := [(0, wRmA)] } }
def wLoadB : List Byte := leBytes 1 2 ++ leBytes 1 1 ++ leBytes 6 0 ++ leBytes 8 wRmA
def wPlanB (dl : Nat) : List Byte :=
  leBytes 1 3 ++ leBytes 1 5 ++ leBytes 2 0 ++ leBytes 4 dl ++ leBytes 8 (hubBase + 0x3400000) ++ leBytes 8 (hubBase + 0x3300000) ++ leBytes 2 1
def wLoading (b : List Byte) : State := { wPlanS b with plan := { (wPlanS b).plan with loading := some (0x400, 0) } }
def wPq : PlanQ := { queue := 0x400, index := 0, cmd := 0, slot := 5, rm := 0, number := 1, cost := hubBase + 0x3400000, stops := hubBase + 0x3300000 }
def wPlanQs (q : PlanQ) : State := { (wPlanS []).put F.COLL_CTRL_enable 0 with plan := { (wPlanS []).plan with queries := [q] } }
def wPqSweep : PlanQ := { wPq with phase := .sweeping, buf := some 1, halves := [0], epoch := 1 }
def wPqSel (v : Nat) : PlanQ := { wPq with phase := .selecting, edges := [v] }
def wPqChk (e : Nat) : PlanQ := { wPq with phase := .checking, edges := [0], paths := [(0, [0]), (1, [0])], attempt := some (e, some 1) }

/-- JRN configured: a ring of 1 MiB in DRAM. -/
def wJrnCfg : State := ((wOp pgJRN wRun).put F.JRN_BASE_HI_base 0x40).put F.JRN_SIZE_log2 20
def wJrnBad : State := wOp pgJRN wRun
def wJrn (mode st : Nat) : State := (wJrnCfg.put F.JRN_CTRL_mode mode).put F.JRN_STATUS_state st |>.put F.JRN_EXPORT_offset 0
def wJrnWr (s : State) (v : Word) : State × Word := wWr s pgJRN 0x20 (wAcc v)
def wJRec : List Byte := jrnRecord 5 1 9 7 3 0 0 []
def wJrnSt : State := { wJrn 1 1 with jrn := { wRun.jrn with staged := [wJRec] } }
def wJrnFull : State :=
  { ((wJrn 1 1).put F.JRN_CTRL_wrap 0).put F.JRN_EXPORT_offset 1 with jrn := { wRun.jrn with staged := [wJRec] } }
/-- A replay journal that begins with the bytes `b`, `n` units long. -/
def wJrnR (st n : Nat) (b : List Byte) : State := { (wJrn 2 st).put F.JRN_EXPORT_offset n with mem := cellWrite [] 0x4000000000 b }
/-- A state that replays a journal of one record, the next one due. -/
def wInRep (s : State) (pos : Nat) (b : List Byte) : State :=
  { ((((s.put F.JRN_BASE_HI_base 0x40).put F.JRN_BASE_LO_base 0x800).put F.JRN_SIZE_log2 20).put F.JRN_STATUS_state 3).put
      F.JRN_EXPORT_offset 1 with
    mem := cellWrite s.mem 0x4080000000 b
    jrn := { s.jrn with rptr := 0, expected := some pos } }
def wHead (kind arith : Nat) (base : List Byte) : List Byte :=
  jrnRecord kind 2 0 0 4 0 0 (leBytes 8 0 ++ leBytes 4 arith ++ leBytes 160 0 ++ base ++ leBytes 20 0)
def wJrnH (kind arith : Nat) (base : List Byte) : State := wJrnR 2 9 (wHead kind arith base)
def wArith : Nat := ((wRun.regWord 0 0x34)).toNat
def wJrnA (rec' : List Byte) (pos : Option Nat) : State :=
  { wJrnR 3 1 rec' with jrn := { wRun.jrn with expected := pos } }
def wHost : State := { wJrn 1 1 with jrn := { wRun.jrn with openData := some (2, 0x4000000000, [1#8, 2#8]) } }

def wQOff : State := (wOp pgQENG wRun).put F.QENG_STATE_BASE_HI_base 0x40
def wQOffBad : State := wOp pgQENG wRun
def wQOn : State := (wQOff.put F.QENG_CTRL_enable 1).put F.QENG_STATUS_state 1
def wQWr (s : State) (v : Word) : State × Word := wWr s pgQENG 0x20 (wAcc v)
def wQCmd (s : State) (v : Word) : State × Word := wWr s pgQENG 0x28 (wAcc v)
/-- The 64 bytes of a queue's state: a ring of 16 entries in hub SRAM. -/
def wQBytes (kind : Nat) : List Byte := leBytes 8 (hubBase + 0x40000) ++ [4#8, BitVec.ofNat 8 kind] ++ leBytes 54 0
/-- DRAM serves; the state of queue 0x400 is in memory. -/
def wQMem (q kind : Nat) : State := { wQOn with mem := cellWrite [] (0x4000000000 + 64 * q) (wQBytes kind) }
def wV (kind : Nat) : QSt := { enabled := true, ring := hubBase + 0x40000, sizeLog2 := 4, kind := kind }
def wQs (q kind : Nat) : State := { wQOn with queues := [(q, wV kind)] }
def wQDis : State := { wQOn with queues := [(0x400, { wV 1 with enabled := false, disabling := true, producer := 5, consumer := 5, cause := 1 })] }
def wQUsed : State := { wQOn with queues := [(0x80, { wV 2 with producer := 5 })] }
def wFence : State := wOp pgFENCE wRun
def wFIncWr (s : State) (v : Word) : State × Word := wWr s pgFENCE 0x20 (wAcc v)
def wFSetWr (s : State) (v : Word) : State × Word := wWr s pgFENCE 0x108 (wAcc v)
def wFenceX : State := (wFence.put (F.BLK_LEVEL_expert pgFENCE) 1).put F.FENCE_SET_LO_value 12
def wDma (op side pat src dst n : Nat) : List Byte :=
  [BitVec.ofNat 8 op, BitVec.ofNat 8 side] ++ leBytes 2 0 ++ leBytes 4 pat ++ leBytes 8 src ++ leBytes 8 dst ++ leBytes 8 n
def wDJob : Job := { wPJob with desc := [7#8] }
def wDmaS (b : List Byte) : State :=
  { wRun.put F.PCIE_STATUS_bus_master 1 with
    mem := cellWrite (cellWrite [] (hubBase + 0x2020) b) (hubBase + 0x8000) (leBytes 64 0x1234567890ABCDEF)
    jobs := [wDJob] }

/-- A descriptor: class, flags, descriptors, completion queue, deadline, primary, signal 0, tag. -/
def wDesc (cls flags tds : Nat) : List Byte :=
  [BitVec.ofNat 8 cls, BitVec.ofNat 8 flags, BitVec.ofNat 8 tds, 0#8] ++ leBytes 4 100 ++ leBytes 8 (hubBase + 0x9000) ++ leBytes 8 (hubBase + 0x9100)
    ++ leBytes 8 (hubBase + 0x9200) ++ leBytes 16 0 ++ leBytes 4 0 ++ leBytes 2 0x8009 ++ leBytes 2 0 ++ leBytes 2 3 ++ leBytes 2 0 ++ leBytes 4 77
/-- The header of a one-slot program that asks for the capabilities `caps`. -/
def wImg (caps : Nat) : List Byte := leBytes 4 0x31504156 ++ leBytes 2 1 ++ leBytes 2 1 ++ leBytes 2 0 ++ leBytes 2 0 ++ leBytes 4 caps ++ leBytes 2 1 ++ leBytes 110 0
def wImgG : List Byte := leBytes 4 0x31504156 ++ leBytes 2 1 ++ leBytes 2 1 ++ leBytes 2 0 ++ leBytes 2 0 ++ leBytes 4 32 ++ leBytes 2 2 ++ leBytes 110 0
/-- A submission queue with one descriptor and an enabled completion queue 0. -/
def wTake (d h : List Byte) : State :=
  { wQOn with
    mem := cellWrite (cellWrite (cellWrite [] (hubBase + 0x40000) d) (hubBase + 0x9000) h) (hubBase + 0x9100) (wImg 0)
    qPend := [0x400]
    qSumm := [32]
    queues := [(0x80, { enabled := true, ring := hubBase + 0x50000, sizeLog2 := 4 }), (0x400, { wV 1 with producer := 1 })] }
def wWait (d h : List Byte) : Job := { jobFrom 0x400 0 false d with header := h }
def wRel (d h : List Byte) : State :=
  { (wTake d h).put (F.CD_ARR_SERVICE_in_service 0) 1 with
    jobs := [wWait d h] }
def wPlA : Job := { wWait (wDesc 1 0 0) (wImg 0) with stage := .released, slots := [{}], released := some 0 }
def wPlG : Job := { wPlA with header := wImg 32 }
def wPlK : Job := { wWait (wDesc 6 0 0) [] with stage := .released, released := some 0 }
def wPl (j : Job) (m : List Byte) : State :=
  { ((wRel [] []).put F.PWR_STATE_state 4).put (F.BLK_STATUS_in_reset 128) 0 with
    mem := cellWrite [] (hubBase + 0x9000) m
    jobs := [j] }
def wListH : List Byte := [0x56#8, 0x4B#8, 0x43#8, 0x31#8] ++ leBytes 4 1
def wDoneJ : Job := { (wWait (wDesc 6 0 0) wListH).ended 0 0 with released := some 0 }
def wDone : State := wPl wDoneJ []
def wStaged : State := { wPl wDoneJ [] with cqStaged := [(0, leBytes 32 5)] }
def wAbort (j : Job) : State := { wQOn with jobs := [j] }
def wQAb (s : State) (v : Word) : State × Word := wWr s pgQENG 0x40 (wAcc v)

/-- DRAM in service: every segment swept, every controller in normal mode. -/
def wDram : State :=
  (List.range 16).foldl (fun s k => s.put (F.MC_STATUS_mode k) 3)
    (((wRun.put F.MEMG_STATUS_ready_segments 0xFF).put F.MEMG_STATUS_state 4).put F.MEMG_CTRL_normal 1)
def wLine : Line := 0x1122334455#256
def wDramC (c : WordCond) : State := { wDram with cond := [(0x200000000, c)] }
def wDramQ : State := { wDram with mcs := [(0, { wq0 := [0] })] }
def wMemgOff : State := wOp pgMEMG wRun
def wMemgWr (s : State) (o : Nat) (v : Word) : State × Word := wWr s pgMEMG o (wAcc v)
def wTrain (n : Nat) : State := { (wRun.put F.MEMG_STATUS_state 1).put F.MEMG_SPARE_reserve 1 with memg := { wRun.memg with step := n } }
def wTrainF (f : Nat) : State := { wTrain 3 with mcs := [(0, { fails1 := f })] }
def wSweep (n : Nat) (kept : List Nat) : State :=
  { wRun.put F.MEMG_STATUS_state 2 with
    mem := [(0x4000000005, 7#8)]
    memg := { wRun.memg with
      step := n
      kept := kept } }
def wMcOp (s : State) : State := wOp (pgMC 0) s
def wMcWr (s : State) (o : Nat) (v : Word) : State × Word := wWr s (pgMC 0) o (wAcc v)
def wMcX : State := wMcOp (wDram.put (F.BLK_LEVEL_expert (pgMC 0)) 1)
def wMc (m : McSt) : State := { wDram with mcs := [(0, m)] }
def wScrubS (g : Nat) : State := (wDram.put (F.MC_CTRL_scrub_en 0) 1).put (F.MC_SCRUB_POS_granule 0) g
def wFlushing : State := { wDram.put (F.MC_STATUS_flushing 0) 1 with mcs := [(0, { wq0 := [3], cache := [(0, [⟨5, true⟩])] })] }
def wMemg : State := (wOp pgMEMG wDram).put F.MEMG_SPARE_reserve 1
def wMemgR : State := { wMemg with memg := { wRun.memg with retired := some 3 } }
def wMemg0 : State := wMemg.put F.MEMG_STATUS_state 0
def wCopy : State := { wDramC .many with memg := { wRun.memg with copying := some 0 } }
def wParkP : State := { (wDram.put F.MEMG_SAVE_BASE_HI_base 0xFF20).put F.PWR_STATE_state 4 with memg := { wRun.memg with parkPrep := true } }
def wParked : State :=
  { wMemg with memg := { wRun.memg with
      selfRefresh := true
      kept := [0, 7]
      image := some ⟨[(0, { remap := [(0, ⟨9, 1, 0⟩)] })], none⟩ } }
def wMtest : State := ((wMemg.put F.MEMG_STATUS_state 3).put (F.BLK_LEVEL_expert pgMEMG) 1).put F.MEMG_TEST_channels 1
def wMtest4 : State := wMtest.put F.MEMG_STATUS_state 4
def wTesting : State := { (wMemg.put F.MEMG_STATUS_state 3) with mem := [(0x4000000005, 7#8)], memg := { wRun.memg with testing := [0] } }
def wPsr (st : Nat) : State := (wOp (pgPSR 0) (wOp (pgNOR 0) wRun)).put (F.PSR_STATUS_state 0) st |>.put (F.NOR_STATUS_state 0) st
def wPsrWr (p : Nat) (s : State) : State × Word := wWr s p 0x2C (wAcc 1)
def wIslMem (c : Tab WordCond) : State :=
  { ((wPsr 1).put (F.PSR_RD_CMD_busy 0) 1).put (F.NOR_RD_CMD_busy 0) 1 with
    islMem := [(0, { psram := [(0, 9#8)], psramCond := c, nor := [(4, 8#8)] })] }

/-- PCIE out of reset, its link up, aperture 0 onto the hub buffers for reads and writes. -/
def wHst : State := (((wOp pgPCIE wRun).put F.PCIE_STATUS_link_up 1).put F.PCIE_STATUS_bus_master 1).put (F.PCIE_AP_valid 0) 1 |>.put (F.PCIE_AP_base 0) (hubBase / 2 ^ 32)
  |>.put (F.PCIE_AP_perm 0) 3
def wTlp : Tlp := ⟨BitVec.ofNat 36 (hubBase % 2 ^ 32 + 64), [1#8, 2#8, 3#8, 4#8], 4, false⟩
def wTlpB : Tlp := { wTlp with poisoned := true }
def wTlpX : Tlp := { wTlp with offset := BitVec.ofNat 36 (2 ^ 32) }
/-- The same with capture window 0 over the bytes, the journal in a mode. -/
def wCap (mode : Nat) : State := ((wHst.put (F.JRN_CAPWIN_BASE_LO_base 0) (hubBase % 2 ^ 32 / 4096)).put (F.JRN_CAPWIN_BASE_HI_base 0) (hubBase / 2 ^ 32)
  |>.put (F.JRN_CAPWIN_SIZE_size_log2 0) 12 |>.put (F.JRN_CAPWIN_SIZE_valid 0) 1).put F.JRN_STATUS_state mode
def wRead (arr : Option Nat) : ExtRead := ⟨true, arr, 3, 0x400, 0, 0, 0x1000, hubBase + 128, 4, false, 0⟩
def wAsk : State := { wHst with ext := [(9, wRead none)] }
def wFlyH : Fly := { id := 3, unit := .move, pc := 5, await := 1 }
def wAskA : State := { wHst with ext := [(9, wRead (some 4))], arrs := [(4, { flights := [wFlyH] })] }

/-- A frame that member 1 sends to member 0, the first on its link. -/
def wGFrm (typ operand : Nat) (pl : List Byte) : XFrame :=
  let g := mkFrame typ 1 0 operand 0 pl
  { g with hcrc := crc16w 64 (xHdr g) }
def wGFrmTo (typ dst : Nat) : XFrame :=
  let g := mkFrame typ 1 dst 8 0 (leBytes 32 0x0102030405)
  { g with hcrc := crc16w 64 (xHdr g) }
/-- A device of a domain of three, member 0, link 2 to member 1, link 3 to member 2. -/
def wXg : State :=
  let s := (((wOp pgXGS wRun).put F.XGS_CTRL_enable 1).put F.XGS_STATUS_state 3).put (F.XL_STATUS_state 2) 2 |>.put (F.XL_STATUS_state 3) 2
  let s1 := ((s.put (F.XGS_AP_valid 0) 1).put (F.XGS_AP_base 0) (hubBase / 2 ^ 32)).put (F.XGS_AP_perm 0) 3
  let s2 := (s1.put F.XGS_COLL_BASE_LO_base ((hubBase + 0x20000) % 2 ^ 32 / 8192)).put F.XGS_COLL_BASE_HI_base ((hubBase + 0x20000) / 2 ^ 32)
  { s2 with xgs := { s2.xgs with
      members := [(0, ⟨5, 1, false, 0, 0⟩), (1, ⟨7, 1, false, 2, 1⟩), (2, ⟨9, 1, false, 3, 1⟩)]
      groups := [(0, [.of 0x80000002, .of 0x100])] } }
def wOpd : Nat := (hubBase % 2 ^ 32 + 64) / 32
def wHello : XFrame := wGFrm 7 0 (leBytes 8 77 ++ leBytes 1 3 ++ leBytes 1 1 ++ leBytes 1 1 ++ leBytes 1 24 ++ leBytes 2 1 ++ leBytes 18 0)
def wGRec : XRec := { id := 1, auto := false, twin := false, arith := 1, number := 4, nbrs := [0, 0, 0, 0, 0, 0, 0, 0] }
def wLs : XFrame := wGFrm 8 0 (recBytes 77 wGRec)
def wXgForm : State := { (wXg.put F.XGS_STATUS_state 2).put F.XGS_DOMAIN_id 4 with xgs := { wXg.xgs with recs := [(77, { wGRec with nbrs := [0, 0, 5, 0, 0, 0, 0, 0] })] } }
def wPeer2 : XPeer := ⟨77, 3, 1, false, false, 24, 1⟩
def wXgForm2 : State := { wXgForm with
  fuse := { wXgForm.fuse with serial := 5 }
  xgs := { wXgForm.xgs with links := [(2, { peer := some wPeer2 })] } }
def wXgLoser : State := (wXgForm2.put F.XGS_DOMAIN_id 1).put F.XGS_DOMAIN_auto 0
def wXgLose2 : State := { wXgLoser with fuse := { wXgLoser.fuse with serial := 99 }, xgs := { wXgLoser.xgs with recs := [(77, { wGRec with nbrs := [0, 0, 99, 0, 0, 0, 0, 0] })] } }
def wXlP (s : State) : State := wOp 50 s
def wXlWr (s : State) (v : Word) : State × Word := wWr s 50 0x20 (wAcc v)
def wXgWr (s : State) (v : Word) : State × Word := wWr s pgXGS 0x20 (wAcc v)
def wXlOn : State := wXlP (wXg.put (F.XL_CTRL_enable 2) 1)
def wXlTr : State := { wXlOn.put (F.XL_STATUS_state 2) 1 with xgs := { wXg.xgs with links := [(2, { retry := [wGFrm 1 8 (leBytes 32 3)] })] } }
def wXlTr0 : State := { wXlTr.put F.XGS_CTRL_enable 0 with xgs := wXlTr.xgs }
def wXgOff : State := { (wXg.put F.XGS_CTRL_enable 0).put F.XGS_STATUS_state 0 with xgs := {} }
def wRet : ExtRead := ⟨false, some 4, 3, 0, 0, 0, memberBase 1 + 64, 96, 32, false, 0⟩
def wXgRd : State := { wXg with ext := [(9, wRet)], arrs := [(4, { flights := [{ wFlyH with await := 2 }] })] }
def wOut1 (signal : Bool) (key : Nat) : RemOut := ⟨0x400, 0, 0, 1, signal, key⟩
def wXgO (o : RemOut) : State := { wXg with xgs := { wXg.xgs with outs := [o] } }
/-- A collective slot: operation, source, destination, size. -/
def wSlot (op group src dst size : Nat) : List Byte :=
  leBytes 4 (1 + 2 * op + 16 + 256 * group) ++ leBytes 4 1 ++ leBytes 8 src ++ leBytes 8 dst ++ leBytes 4 size ++ leBytes 4 0 ++ leBytes 96 0
def wColl0 : Nat := hubBase + 0x20000
def wXgC (op group : Nat) (said : Bool) (heard : Tab (List Byte)) : State :=
  { wXg with
    mem := cellWrite [] wColl0 (wSlot op group (hubBase + 0x40000) (hubBase + 0x50000) 32)
    xgs := { wXg.xgs with
      go := [0]
      said := if said then [0] else []
      heard := heard } }
def wXgSay : List Byte := (wXgC 1 0 true []).collSay ((wXgC 1 0 true []).collSlot 0) 0
def wWordC (m v : Nat) : CollWord := ⟨false, m, 0, leBytes 32 v, false⟩
def wXgA (failed : Tab Nat) (ws : List CollWord) : State :=
  { wXgC 1 0 false [] with xgs := { wXg.xgs with
      active := [0]
      failed := failed
      groups := [(0, [.of 0x80000001, .of 0])]
      heard := [(2048, (wXgC 1 0 true []).collSlot 0)]
      data := [(0, ws)] } }
def wTwin : State := { wXg.put F.XGS_DOMAIN_twin 1 with xgs := { wXg.xgs with
  members := [(0, ⟨5, 1, true, 0, 0⟩), (1, ⟨7, 1, true, 6, 1⟩)] } }
def wTwinF : XFrame := wGFrm 11 0 (twinBytes ⟨5, 1, 9, 0, 0x77, false⟩)
def wTwinR (d : Nat) (b : Bool) : TwinRes := ⟨5, 1, 9, 0, d, b⟩
def wTwinC (a b : TwinRes) : State := { wTwin with twin := { wTwin.twin with own := [a], theirs := [b] } }
def wTwinA (n : Nat) : State := { wTwin.put F.XGS_TWIN_STATE_state 1 with twin := { wTwin.twin with own := [wTwinR 1 false], absent := n } }
def wTwinI : State := { wUp with twin := { wTwin.twin with taken := [(5, (1, 0x77))] } }

/-- Both islands run and drive their outputs; SIA as changed. -/
def wI (f : IslSt → IslSt) : State :=
  { (wRun.put (F.ISL_STATE_state 0) 2).put (F.ISL_STATE_state 1) 2 with
    isl := [(0, f { running := true, driving := true, time := 50000000 }), (1, { running := true, driving := true, time := 70000000 })] }
def wI0 : State := wI id
def wTimer : IslTimer := { queue := 5, tag := 77, index := 3, deadline := 900, release := 49999900, expiry := 50000800 }
def wTimer2 : IslTimer := { wTimer with tag := 78 }
def wPeerGone (v : Nat) : State := wI fun x => { x with peerFail := some v }
def wWaitPeer : State := (wI fun x => { x with timers := [wTimer], kept := [(3, ⟨1, 2, [], 40000000⟩)], seq := 9 }).put (F.ISL_STATE_state 0) 4
def wIAlone : State := { wI0 with isl := [(0, { running := true, driving := true })] }
def wEv (page bit sev : Nat) (inj act : Bool) : FltEvent := ⟨page, bit, sev, true, true, 4, [], inj, act⟩
def wFlt : State := { wI0 with flt := [wEv 4 0 2 false true, wEv 5 0 1 false true] }
def wFltDown : State := { wFlt with links := [(40, { down := true })] }
def wInbox (e : FltEvent) : State := wI fun x => { x with inbox := [e] }
def wHotDie : State := wI fun x => { x with hot := [0] }
def wFltP (s : State) : State := wOp pgFLT s
def wFltWr (s : State) (o : Nat) (v : Word) : State × Word := wWr s pgFLT o (wAcc v)
def wFltX : State := wFltP (wI0.put (F.BLK_LEVEL_expert pgFLT) 1)
def wFltA : State := (wFltX.put F.SEC_DEBUG_STATE_scope 8).put F.FLT_SR_OPEN_open 1
def wDue (ts : List Nat) : State := wI fun x => { x with dieDue := [0], dieTimes := [(0, ts)] }
def wSelfTest : State := wI0.put (F.CD_STATE_state 0) 1
def wSelfTestU : State := { wSelfTest with unitMaps := [(0, 0x3FFFFFC)], isl := [] }
def wMod (cause : Nat) (ts : List Nat) : State := wI fun x => { x with modDue := [cause], modTimes := ts, timers := [wTimer] }
def wMsg (rel : Bool) (status flags tag : Nat) : IslMsg := ⟨rel, 5, 8, tag, 900, status, flags⟩
def wMsgS (m : IslMsg) (ts : List IslTimer) : State := { wI fun x => { x with timers := ts } with islMsgs := [(0, [m])] }
def wRouted (s : State) : State := s.put F.PLAN_ISLAND_LO_slots 0x28
def wMiss : State := wRouted (wI fun x => { x with timers := [wTimer], kept := [(3, ⟨1, 2, [], 40000000⟩)] })
def wMissT : State :=
  { wRouted ((wTwin.put F.XGS_TWIN_STATE_state 1).put F.XGS_TWIN_SLOTS_LO_slots 0x28) with isl := wMiss.isl }
def wRecQ (q : RecQuery) : State := { wI fun x => { x with queries := [q], engine := some 41 } with
  jobs := [{ queue := 5, index := 3, desc := wDesc 1 0 0, stage := .placed, header := wImg 0, slots := [{ die := 0, logical := 4, phase := 2 }] }] }
def wRecJ : State := { wRecQ ⟨none, 5, 77, 3⟩ with jobs := [{ queue := 5, index := 3, desc := wDesc 3 0 0, stage := .placed }] }
def wRes : PlanMsg := { slot := 3, number := 6, flags := 1, digest := 0x1234, stop := leBytes 2 1 ++ List.replicate 400 0#8 }
def wResS (mode : Nat) : State := { (wRouted wI0).put (F.ISL_SLOT_mode 0 3) mode with planMsgs := [(0, [wRes])] }
def wFall : State := wMiss.put (F.ISL_SLOT_mode 0 3) 2

/-- STEST out of reset, die 0 in run and powered with four arrays in service. -/
def wSt : State :=
  let s := (((wOp pgSTEST wRun).put F.PWR_STATE_state 4).put (F.CD_ARR_SERVICE_in_service 0) 0xF).put F.PWR_SERVICE_level 2
  (s.put (F.BLK_LEVEL_expert pgSTEST) 1).put (F.PWR_CLK_array 0) 3
def wStD (v : StestDie) : State := { wSt with stest := { wSt.stest with dies := [(0, v)] } }
def wStBusy (v : StestDie) (a : Nat) : State := (wStD v).put (F.ARR_JOB_QUEUE_valid a) 1
def wStWr (s : State) (o : Nat) (v : Word) : State × Word := wWr s pgSTEST o (wAcc v)
def wStOn : State := (wSt.put F.STEST_CTRL_enable 1)
def wRot : State := { (wStD {}).put F.STEST_CTRL_enable 1 with arrs := [(2, { suspect := true })] }
def wRotB : State := wRot.put (F.ARR_JOB_QUEUE_valid 2) 1
def wPartW (p ran : Nat) : State :=
  { (wStD { win := some 2, parts := [(2, p)], ran := ran }).put (F.ARR_STATE_state 2) 3 with arrs := [(2, { suspect := true })] }
def wTarget (b : Nat) : State := (wSt.put (F.STEST_TARGET_arrays 0) 6).put F.STEST_TARGET_CMD_busy b
def wOut2 : State := (wSt.put (F.STEST_ARRAY_OUT_out 0) 0x10)
def wOutL : State := wSt.put (F.CD_ARR_SERVICE_in_service 0) 4
def wTwoDies : State := wSt.put (F.CD_STATE_state 1) 3
def wSpillA : State := ((wSt.put (F.STEST_SPILL_BASE_LO_valid 0) 1).put (F.STEST_SPILL_BASE_LO_base 0) ((dramBase + 0x10000000) / 0x10000000 % 16)).put (F.STEST_SPILL_BASE_HI_base 0) ((dramBase + 0x10000000) / 2 ^ 32)
def wSpilled : State := { wSt with spilled := [(0, dramBase + 0x10000000)] }
def wCopyS (back : Bool) : State :=
  { wSpilled with
    spilled := if back then [(0, dramBase + 0x10000000)] else []
    mem := cellWrite (cellWrite [] (stackBase 0 + 100) [7#8, 8#8]) (dramBase + 0x10000000 + 50) [9#8]
    stest := { copy := some (0, back, dramBase + 0x10000000) } }
def wPair : State := { (wSt.put (F.ISL_STATE_state 0) 2).put (F.ISL_STATE_state 1) 2 with isl := wI0.isl }
def wRepE : State :=
  let s := ((wPair.put F.STEST_REPAIR_CLEAR_kind 4).put F.STEST_REPAIR_CLEAR_unit 3).put F.SEC_DEBUG_STATE_scope 0x20
  { s with islMem := [(0, { psram := [(0x1000 + 0x2103, 5#8)] }), (1, { psram := [(0x1000 + 0x2103, 5#8)] })] }
def wRepW : Word := 0x800C0004#32

def wJobX : Job := { queue := 0x400, index := 0, desc := wDesc 1 0 0, header := wImg 0, granted := [0] }
def wPwr (s : State) : State := (wOp pgPWR s)
def wPwrWr (s : State) (o : Nat) (v : Word) : State × Word := wWr s pgPWR o (wAcc v)
def wRunS : State := wPwr ((wI0.put F.PWR_STATE_state 4).put F.PWR_SERVICE_level 2)
def wRunU : State := wRunS.put (F.PWR_UNGATED_ungated 0) 5
def wRunJ : State := { wRunU with jobs := [wJobX] }
def wWarmS : State := { wRunS.put F.PWR_STATE_state 3 with mem := [(dramBase + 5, 7#8), (hubBase + 5, 6#8)] }
def wWarmI : State := { wWarmS with isl := [] }
def wWarmP : State := (wWarmI.put F.MEMG_STATUS_state 5).put F.MEMG_PARK_KEEP_segments 1
def wAsleep (v : Nat) : State := { wRunS.put F.PWR_STATE_state v with islMem := [(0, { psram := [(9, 1#8)] })] }
def wGateS (warm : Bool) (serve idle : Nat) : State :=
  { ((wRunS.put (F.PWR_UNGATED_ungated 0) 1).put (F.CD_ARR_SERVICE_in_service 0) serve).put F.PWR_GATE_IDLE_us idle with pwr := { warming := warm } }
def wSvc (v : Nat) : State := (((wPwr (wRun.put F.PWR_STATE_state 3)).put F.PWR_SERVICE_level v).put F.MEMG_STATUS_ready_segments 0xFF).put (F.CD_STATE_state 1) 3
def wDipP (ceil : Nat) (low : Bool) : State :=
  { (((wI0.put F.SUP_DIP_in_dip 1).put (F.CD_CTRL_clk_step 0) 3).put F.SUP_LEVELS_warn_mv 700) with pwr := { dips := [(0, { low := low, minMv := 600, ceil := ceil })] } }
def wNoDip : State := { wI0.put F.SUP_LEVELS_warn_mv 700 with jobs := [wJobX] }
def wTempsOf (v a : Int) (inl : Option Int) : Temps := ⟨none :: List.replicate 15 (some v), a, 300, inl, some 400, some 401, some 402⟩

def wSecS (f : SecSt → SecSt) (s : State) : State := let u := wOp pgSEC s; { u with sec := f u.sec }
def wSecX (s : State) : State := s.put (F.BLK_LEVEL_expert pgSEC) 1
def wSecWr (s : State) (o : Nat) (v : Word) : State × Word := wWr s pgSEC o (wAcc v)
def wSecMg (s : State) (o : Nat) (v : Word) : State × Word := wWr s pgSEC o (wMgmt v)
def wIslOff (f : IslSt → IslSt) : State := { wI0 with isl := [(1, f {})] }
def wBoot (f : BootSt → BootSt) (s : State) : State := wSecS (fun x => { x with boot := f x.boot }) s
def wHostB (go run : Bool) : State := wBoot (fun b => { b with host := true, goHub := go, running := run }) (wI0.put F.MEMG_STATUS_ready_segments 1)
def wKept : State := wSecS (fun x => { x with meas := [(6, [3#8])], boot := { x.boot with kept := true, keptFw := 0x30005#32 } }) wI0
/-- The two islands with bank records of these states, bank 0 running. -/
def wBanks (a b : Nat) (f : IslMem → IslMem) : State :=
  let m := f { nor := [(0, 0x56#8), (1, 0x42#8), (2, 0x4B#8), (3, 0x31#8), (4, 7#8), (5, 0#8), (6, 0#8), (7, 0#8), (8, BitVec.ofNat 8 a), (9, 2#8), (0x400018, 0#8), (0x400019, 0#8), (0x40001A, 0#8), (0x40001B, 0#8),
    (0x8000000, 0x56#8), (0x8000001, 0x42#8), (0x8000002, 0x4B#8), (0x8000003, 0x31#8), (0x8000004, 8#8), (0x8000005, 0#8), (0x8000006, 0#8),
    (0x8000007, 0#8), (0x8000008, BitVec.ofNat 8 b), (0x8000009, 0#8), (0x8400018, 0#8), (0x8400019, 0#8), (0x840001A, 0#8), (0x840001B, 0#8)] }
  { wSecS id wI0 with islMem := [(0, m), (1, m)] }
def wTwoSrc : State := wBanks 2 2 id
/-- The hub image in bank 0 (its header but for the length unprogrammed). -/
def wHubIm : Image := ⟨wTwoSrc.norAt 0 0x400000 0x2000, []⟩
def wOneSrc : State := let s := wTwoSrc; { s with sec := { s.sec with boot := { s.sec.boot with refused := [1, 2, 3] } } }
def wHostHdr : State := { wHostB true false with mem := [(hubBase, 1#8)] }
def wHostIm : Image := wHostHdr.memImage hubBase 3
def wTestNor : State :=
  let s := { wI0.put F.MEMG_STATUS_ready_segments 1 with islMem := [(0, { nor := [(0x4800018, 0#8), (0x4800019, 0#8), (0x480001A, 0#8), (0x480001B, 0#8)] })] }
  wBoot (fun b => { b with running := true }) ((s.put F.STEST_PROG_BASE_LO_base (hubBase % 2 ^ 32 / 2 ^ F.STEST_PROG_BASE_LO_base.lo)).put F.STEST_PROG_BASE_HI_base (hubBase / 2 ^ 32))
def wTestHost : State := let s := wTestNor; { s with sec := { s.sec with boot := { s.sec.boot with host := true, goTest := true } } }
def wTrial : State := (wBanks 1 2 id).put F.SEC_STATUS_trial 1
def wAwait : State := wBanks 2 1 id
def wRunTrial (v : Nat) : State := wBoot (fun b => { b with running := true }) (wI0.put F.SEC_STATUS_trial v)
def wRestart (b : Bool) : State := wBoot (fun x => { x with restart := b }) wI0
def wUpdOk : State := wSecS id ((wI0.put (F.ISL_STATE_state 0) 2).put (F.ISL_STATE_state 1) 2)
def wUpdAddr : State := { (wUpdOk.put F.SEC_UPDATE_ADDR_LO_addr (hubBase % 2 ^ 32 / 32)).put F.SEC_UPDATE_ADDR_HI_addr (hubBase / 2 ^ 32) with
  mem := [(hubBase + 2, 1#8)] }
def wImgSet : List (List Byte) := [[1#8], [2#8, 3#8], [4#8], [5#8], [6#8, 7#8]]
def wUpdRun (isl : Tab IslSt) : State := let s := wBanks 2 0 id; { (s.put F.SEC_UPDATE_CMD_state 2) with isl := isl, sec := { s.sec with update := some wImgSet } }
def wOwned : State := wSecS (fun x => { x with trust := { x.trust with owner := some [1#8] } }) wI0
def wSecB (b : Nat) : State := (wSecS id wI0).put F.SEC_ATTEST_CMD_busy b
def wAttRun : State := wSecS (fun x => { x with attest := some ⟨hubBase + 64, [1#8, 2#8, 3#8]⟩ }) (wRun.put F.SEC_ATTEST_CMD_busy 1)

def wFmX (s : State) : State := (wOp pgFARM s).put (F.BLK_LEVEL_expert pgFARM) 1
def wFmWr (s : State) (o : Nat) (v : Word) : State × Word := wWr s pgFARM o (wAcc v)
def wFarm (st : Nat) (armed : Nat) (b : Nat) : State :=
  let s := (((wFmX wRun).put F.FARM_STATUS_state st).put F.FARM_STATUS_armed armed).put F.FARM_BOUNDARY_LO_position b
  { (s.put F.JRN_STATUS_state 3).put F.JRN_REPLAY_POS_LO_position 9 with jrn := { s.jrn with expected := some 10 } }
def wSlow (b : Bool) : State := { ((wFarm 2 0 20).put F.FARM_STRAGGLE_MS_ms 5).put F.FARM_STRAGGLE_LO_position 10 with farm := { began := b } }
def wTelem (e size : Nat) : State :=
  { ((wFarm 2 0 20).put F.FARM_TELEM_period_ms 5).put F.FARM_CTRL_telem_en e with
    queues := [(0x200, { (wRun.queue 0x200) with enabled := true, ring := hubBase, sizeLog2 := size, producer := 3 })] }
def wCkpt (st n : Nat) : State :=
  let s := ((wFarm st 1 10).put F.FARM_CKPT_ADDR_LO_addr (dramBase % 2 ^ 32 / 2 ^ 20)).put F.FARM_CKPT_ADDR_HI_addr (dramBase / 2 ^ 32)
  let s1 := (s.put F.MEMG_STATUS_state 3).put F.MEMG_STATUS_ready_segments 0xFF
  { s1 with mem := if n = 0 then [] else [(dramBase + 0xC, BitVec.ofNat 8 n), (dramBase + 0xD, 1#8)] }
def wFmSaved : State := { wCkpt 5 0 with farm := { save := some [1#8, 2#8] } }
def wRestored : State := { wFmX wRun with farm := { restore := some [1#8] } }
def wFmTake (e t : Nat) : State := ((wFmX wXg).put F.XGS_CTRL_enable e).put F.XGS_DOMAIN_twin t |>.put F.FARM_TAKEOVER_id 6
def wRelk (e : Nat) (r : Tab Nat) : State := { ((wFmX wXg).put F.FARM_RELINK_link 2).put (F.XL_CTRL_enable 2) e with farm := { relink := r } }

/-! ### The spec's worked examples -/

/-- 04_array_instruction_list, worked example: one CONV word. -/
theorem test_decode_conv_word :
    decodeInsn 0x3144C004000000010C400A0080088006#128
      = { op := 0x31, fa := 4, fb := 4, fo := 0xC, sat := false, zero := 0, mod := 4, imm := 1, c := 0x0C40, b := 0x0A00, a := 0x8008, d := 0x8006 } := by
  decide

/-- The scalar registers s8 and s6 that its operands name. -/
theorem test_decode_conv_operands : decodeRef 0x8008 = .sreg 8 ∧ decodeRef 0x8006 = .sreg 6 ∧ decodeRef 0x0A00 = .lb 0x0A00 := by decide

/-- 12_memory_system, worked example: one address. -/
theorem test_dram_channel : dramMap 0x123456780 = (2, 152710016) := by decide +kernel

/-- 12_memory_system, worked example: the same address with channel 2 retired. -/
theorem test_dram_retired : dramRedirect (some 2) (2, 152710016) = (1, 3729009536) := by decide +kernel

/-- 05_feature_maps, worked example: sizes at the border, all five rows. -/
theorem test_border_sizes :
    [Axis.out ⟨3, 7, 1, 1, 1, 1, 0, 0⟩, Axis.out ⟨3, 7, 4, 1, 3, 0, 0, 0⟩, Axis.out ⟨5, 7, 1, 1, 3, 3, 0, 0⟩, Axis.out ⟨3, 13, 1, 1, 6, 6, 0, 0⟩,
      Axis.out ⟨16, 3, 4, 1, 0, 0, 0, 0⟩] = [0, 0, 5, 3, 4] := by decide

/-- 05_feature_maps, worked example: periodic mirror with three samples. -/
theorem test_periodic_mirror :
    ((List.range 13).map fun i => Axis.src ⟨3, 13, 1, 1, 6, 6, 2, 2⟩ ((i : Int) - 6))
      = [2, 1, 0, 1, 2, 1, 0, 1, 2, 1, 0, 1, 2].map some := by decide

/-- 03_tensor_arrays, worked example: four K-tile partials in Exact mode give 1. -/
theorem test_exact_tree : (tree addN ⟨0, 0⟩ [⟨0x4B800000, 0⟩, ⟨0x3F800000, 0⟩, ⟨0x3F800000, 0⟩, ⟨0xCB800000, 0⟩]).val = 0x3F800000 := by decide +kernel

/-- 03_tensor_arrays, worked example: in Fast mode the arrival p0, p3, p1, p2 gives 2. -/
theorem test_fast_arrival : fAdd (fAdd (fAdd 0x4B800000 0xCB800000) 0x3F800000) 0x3F800000 = 0x40000000 := by decide +kernel

/-- 02_register_pages, worked example: a write of 3 to offset 0xA20 of CSI3 through the CLR view clears bits [1:0] of the register at 0x020. -/
theorem test_alias_clr_view :
    (match exec (.registerWrite 15#8 0xA20#12 { wAcc 3 with view := .clr }) ((wOp 15 State.reset).putWord 15 0x20 0x7#32) with
      | .next t => t.regWord 15 0x20
      | _ => 0#32) = 0x4#32 := by decide +kernel

/-- The step of stack 2 after a grid sample at a temperature in sixteenths of a degree. -/
def gridStep (before : Nat) (temp : Int) : Nat :=
  match exec (.gridSample 2 (wTemps temp)) ((State.reset.put (F.CD_STATE_state 2) 3).put (F.ST_STATUS_step 2) before) with
  | .next t => t.get (F.ST_STATUS_step 2)
  | _ => 9

/-- 01_dies_and_hinges, worked example: a climb and a fall, samples 1 to 6. -/
theorem test_climb_and_fall :
    [gridStep 0 1592, gridStep 0 1604, gridStep 1 1792, gridStep 2 1728, gridStep 2 1710, gridStep 1 1536] = [0, 1, 2, 2, 1, 0] := by
  decide +kernel

/-- The same example: from 99 °C to 119 °C in one sample. -/
theorem test_climb_at_once : gridStep 0 1904 = 3 := by decide +kernel

/-- The sensors of 08_fusion_and_projection's worked example at one instant: the lidar, the camera and the masked radar. -/
def cellObs : List (FusUse × Int) :=
  [(⟨2, none, 192, false, none, false, false, false⟩, 80), (⟨5, none, 150, false, none, false, false, false⟩, -48),
    (⟨9, none, 0, true, none, false, false, false⟩, 20)]

/-- 08_fusion_and_projection, worked example: the cell at instant 1 has e = 24, conf = 151, masked = 85, run 1. -/
theorem test_cell_first :
    let w := (State.reset.fuseCell cellObs none).word
    (w % 256, w / 256 % 256, w / 65536 % 256, w / 2 ^ 24 % 2, w / 2 ^ 25 % 4) = (24, 151, 85, 0, 1) := by decide +kernel

/-- The same example at instant 3, two runs behind: e = 80, conf = 75, masked = 85, disputed, the camera on the losing side. -/
theorem test_cell_disputed :
    let c := State.reset.fuseCell cellObs (some (2 ^ 31 + 2 * 2 ^ 25))
    (c.word % 256, c.word / 256 % 256, c.word / 65536 % 256, c.word / 2 ^ 24 % 2, c.losers) = (80, 75, 85, 1, [5]) := by decide +kernel

/-! ### What the block's own commands do from reset -/

/-- The front command runs on the rest of the queue. -/
theorem test_step_front : step (State.reset.withFront (.gate ⟨0, 0⟩)) = exec (.gate ⟨0, 0⟩) State.reset := rfl

/-- On an empty queue a microsecond passes. -/
theorem test_step_empty :
    (match step State.reset with
      | .next t => t.hubUs
      | _ => 9) = 1 := rfl

/-- No word spells a command. -/
theorem test_no_word : State.reset.withFetchWord 32 7 = State.reset ∧ decodeTableWord 32 7 = none := ⟨rfl, rfl⟩

/-! ### Commands that are not well formed, one for each check -/

def badPayload : XFrame := { mkFrame 1 0 1 0 0 [] with payload := [0#256, 0#256], code := [.clean, .clean] }

theorem test_wf_register_offset : (Instr.registerWrite 0#8 2#12 (wAcc 0)).wf = false := by decide
theorem test_wf_read_offset : (Instr.rcRead 0#8 3#12 .base 15 .host).wf = false := by decide
theorem test_wf_xs_read : (Instr.xsRequest ⟨.read, 0, 0, [], .clean⟩).wf = false := by decide
theorem test_wf_xs_write : (Instr.xsRequest ⟨.write, 0, 2, [0#256], .clean⟩).wf = false := by decide
theorem test_wf_xs_mailbox : (Instr.xsRequest ⟨.mailboxRead 6#12, 0, 0, [], .clean⟩).wf = false := by decide
theorem test_wf_grid : (Instr.gridSample 0 [some 7]).wf = false := by decide
theorem test_wf_slot : (Instr.slotStart ⟨0, 0⟩ ⟨0x400#20, 0#32⟩ 96).wf = false := by decide
theorem test_wf_spi_short : (Instr.spiFrame .sia []).wf = false := by decide
theorem test_wf_can_ident : (Instr.canFdFrame .sia 0 { (default : CanFrame) with ident := 2048, extended := false }).wf = false := by decide
theorem test_wf_tlp_page : (Instr.bar2Read { (default : Tlp) with offset := 4095, len := 2 }).wf = false := by decide
theorem test_wf_tlp_data : (Instr.bar2Write { (default : Tlp) with offset := 0, len := 2, data := [] }).wf = false := by decide
theorem test_wf_scrub : (Instr.patrolScrub 0 [.clean]).wf = false := by decide
theorem test_wf_thermal : (Instr.thermalSample ⟨[], 0, 0, none, none, none, none⟩).wf = false := by decide
theorem test_wf_frame_payload : (Instr.xagusWrite 0 badPayload).wf = false := by decide
theorem test_wf_good_frame : (Instr.xagusWrite 0 { wGFrmTo 1 2 with code := [.clean] }).wf = true := by decide +kernel

/-! ### The hypotheses of the statements are met -/

/-- Window 2 of the admitted XS die lets it write stream 0's ring. -/
def wXsWin : Window := { wWindow with base := hubBase + 0x10000, size := 0x1000 }
def wXsBack : State := { wXsSt.put F.DIKE_STATUS_state 3 with dike := { wXsSt.dike with windows := [(2, wXsWin)] } }
def wXsNoWin : State := { wXsBack with dike := { wXsBack.dike with windows := [] } }
def wXsDry : State := { wXsBack with dike := { wXsBack.dike with windows := [(2, { wXsWin with tokens := 0 })] } }
def wXsFull : State := { wXsBack with streams := [(0, { wStr 1 0x2A with ready := [wXsR], held := [(none, 0, 4096)] })] }
def wXsPut : State := wXsBack.modStream 0 fun v => { v with wr := 2, held := [(none, 0, 2)] }
/-- Power is good in the states of the host tests. -/
theorem wHst_pgood : wHst.pgood = true := by decide +kernel

/-! HingeFlit -/

/-- A flit of these header fields. -/
def wFl (typ src dst seq vc : Nat) : Flit := mkFlit typ src dst seq vc 5 false 7#256
/-- SIA's link to HB; the ring link from C1 to C0. -/
def wEndI : HingeEnd := ⟨0, 5⟩
def wEndD : HingeEnd := ⟨1, 0⟩
def wIslFlit : Flit := { mkFlit 0 5 0 0 0 5 false 7#256 with addr := hubBase }
def wFwdFlit : Flit := { mkFlit 0 1 2 0 0 5 false 7#256 with addr := 0 }
def wFence1 : State := wRun.put (F.CD_STATE_state 1) 4
def wPoisonAns : Flit := mkFlit 2 2 1 0 1 5 true (BitVec.ofNat 256 (Config.free wFence1.freeCtr))
def wRetry : State := { wRun with links := [(8, { retry := [wFl 0 0 1 3 0, wFl 0 0 1 4 0], asked := true, fails := 2 })] }
def wFailsI : State := { State.reset with links := [(5, { fails := 8 })] }

/-! TapCommands -/

/-- Die 0 stopped by SIA and fenced by SIB. -/
def wTapH : State := ((((wRun.put (F.CD_STATE_state 0) 4).put (stopField 0 0) 1).put (fenceField 1 0) 1).put (F.ISL_TAP_stop 0) 1).put (F.ISL_TAP_fence 1) 1
/-- A read of an array of die 0 under way. -/
def wTapExt : State := { wSeqA 0 (fun a => { a with flights := [{ id := 3, unit := .move, pc := 0, await := 1 }] }) with
  ext := [(0, ⟨true, some 0, 3, 0x400, 0, 0, 0, 0, 32, false, 0⟩)] }

/-! DiscoveryAndAnswers -/

/-- Die 1 alone answered, on every path alike. -/
def wSeen : State := { ({ wUp with ident := [(1, wAns)] }.putTopo 1 wAns) with
  disc := { running := true, answered := [1], sawSib := true } }
def wSeenBad : State := { wSeen with disc := { wSeen.disc with mismatch := true, ended := true } }

/-! XsTraffic -/

def wXsWr : XsReq := ⟨.write, BitVec.ofNat 48 hubBase, 2, [1#256, 2#256], .clean⟩
/-- An access of the XS die to the mailbox. -/
def wXsMb (k : XsKind) : XsReq := ⟨k, 0, 0, [], .clean⟩
def wXsMail : State := wXsLive.put F.XSLOT_STATUS_open 1

/-! ExpertLevel -/

def wExpT : State := (wOp 5 State.reset).readReg 5 0x100 .base 0xF#4 .host
def wExpU : State := ((wOp 5 State.reset).put (F.BLK_LEVEL_expert 5) (1 - (wOp 5 State.reset).get (F.BLK_LEVEL_expert 5))).readReg 5 0x100 .base 0xF#4 .host

/-! LoadsAndStores -/

def wDen (t : List Byte) : Dense := (denseTd (bytesAt t 0 64)).getD ⟨0, 0, 0, 0, 0, 0, 0, 0, 0, 0, 0, 0⟩
def wHostTd : List Byte := leBytes 1 1 ++ leBytes 1 12 ++ leBytes 2 2 ++ leBytes 4 8 ++ leBytes 4 1 ++ leBytes 4 1 ++ leBytes 4 1 ++ leBytes 4 0 ++ leBytes 8 0x40000
def wHostLdt : State := (wSeqA (wIns 0x22 0 0 wNo (wS 1) 0xA000 8) (wTd0 wHostTd)).put F.PCIE_STATUS_bus_master 1
def wSttConv : State := wHubMem (List.replicate 64 0#8 ++ wConvBlk) (wSeqA (wIns 0x23 0 0 wNo (wS 1) 8 0xA000) (wTd0 wConvTd))
def wLdtConv : State := wHubMem (List.replicate 64 0#8 ++ wConvBlk) (wSeqA (wIns 0x22 0 0 wNo (wS 1) 0xA000 8) (wTd0 wConvTd))
def wCb : ConvBlock := convBlock (wLdtConv.bytes (wDen wConvTd).block 64)
def wConvRows : List (Nat × Int) := (List.range (wCb.stripeRows 0).length).zip (wCb.stripeRows 0)
def wConvRuns : List Run :=
  wConvRows.flatMap fun r => match wCb.rows.src r.2 with
    | some y => ((List.range wCb.cols.heldIn.length).zip wCb.cols.heldIn).map fun x =>
        ⟨((wDen wConvTd).base + (wDen wConvTd).p1 * x.2 + (wDen wConvTd).p2 * y) % 2 ^ 64,
         (8 + r.1 * wCb.pitch 32) * 32 + x.1 * (wCb.cIn * 32 / 8), wCb.cIn * 32 / 8, 0⟩
    | none => []

/-! Contractions -/

/-- A 1 × 1 layer of 300 channels. -/
def wConvBlkC : List Byte :=
  leBytes 2 1 ++ leBytes 2 1 ++ leBytes 2 300 ++ leBytes 2 1 ++ [1#8, 1#8, 1#8, 1#8, 1#8, 1#8] ++ leBytes 2 0 ++ leBytes 8 0
    ++ leBytes 2 0 ++ leBytes 2 1 ++ leBytes 4 0 ++ leBytes 4 0 ++ leBytes 2 1 ++ leBytes 2 1
def wHeldA (a : ArrSt) : ArrSt := { a with wait := .held }
def wFenced4 : State := (wPartSt.put (F.CD_STATE_state 0) 4)
def wPart1 : State := { wFenced4 with transit := [{ wPart with src := 30 }] }

/-! ArraySlots -/

/-- A KVEXP that has its partials. -/
def wKvxFly : Fly := { id := 3, unit := .tensor, pc := 0, wr := [(0, 128)], red := some (0, 1, 0), parts := [wPart], flags := 2 }
def wKvxSt : State := wSeqA 0 fun a => { a with flights := [wKvxFly] }
/-- The array's store holds the job's program. -/
def wStartHeld : State := { wStartSt with
  arrs := [(0, { wArrSt 0 with progDig := bytesAt wJob.header 0x20 64, words := List.replicate 5 (wIns 0 0 0 wNo wNo wNo wNo, none) })] }
def wNoJobSt : State := { wSeq 0 with jobs := [] }

/-! KvPagesAndReferences -/

def wKvF2 : State := wKvFly 2 (wFlyF wFetch)
def wKvFd : State := wKvFly 0x10002 (wFlyF wFetched)
def wKvFd1 : State := { wKvFd with arrs := [(0, { flights := [{ wFlyF wFetched with
  kvF := some { wFetched with done := 1 }
  lbW := segsOf (fun _ => false) 0 (wKvFd.bytes (wKvFd.kvAddr 0 1) (wKvFd.kvPage 0)) }] })] }
def wKvOk (s : State) : State := (s.kvCheck 3 0 0 10).1
def wKvEnt (s : State) (e : Nat) : State := ((wKvOk s).kvEntry (wSeqD.entry 0 e)).1
def wKvWd (s : State) : State := ((wKvEnt s 0).kvWord 1).1
def wKvN (s : State) : State := { s with kv := { s.kv with next := s.kv.next + 1 } }
def wStore1 : KvStore := { wStore 0 with token := 17 }
def wFlyS1 : Fly := { id := 4, unit := .move, pc := 0, kvS := some wStore1 }
def wKvNew : State := wKvFly 1 wFlyS1
def wKvS1 : State := wKvFly 1 (wFlyS 0)
def wKvS2 : State := wKvFly 2 (wFlyS 0)
def wKvR1 : State := wKvFly 1 (wFlyS 1)
def wKvR2 : State := wKvFly 2 (wFlyS 1)
def wKvC3 : State := wKvFly 0x10002 (wFlyS 3)
def wKvLow : State := (wKv 1).put F.KV_LOW_WATER_pages 2

/-! KvCommands -/

def wKvJobAt (n : Nat) : Job := { wKvJob with kvAt := n }
def wKvAtS (n : Nat) (s : State) : State := { s with jobs := [wKvJobAt n] }
/-- The machine once the command and its sequence have been read. -/
def wKvRd (s : State) : State := ((s.fetched wKvJob).kvSeq 3).1
def wKvRd2 (s : State) : State := ((wKvRd s).kvSeq 4).1
def wKvBad : State := { wKvSweep with kv := { wKvSweep.kv with format := false }, mem := cellWrite [] (hubBase + 8) [1#8], cond := [((hubBase + 8) / 32, .many)] }
def wKvSweepOk : State := { wKvSweep with mem := cellWrite [] (hubBase + 4) (leBytes 4 0x20003 ++ leBytes 4 0) }

/-! IngressStreams -/

/-- Stream 0 has a health record alone. -/
def wHealthR : IngRec := { kind := 1, seq := 0, len := 200 }
def wHealthSt : State := wIngS { wStr 4 0x2A with ready := [wHealthR] }
def wStopS : State := wIngS { wStr 4 0x2A with ready := [wHealthR], held := [(none, 0, 4)], done := [3], ward := some wRunWard }

/-! SensorPorts -/

def wDesc2 (i : Nat) (b : Byte) : List Byte := listSet (wStrDesc 4 0x2A) i b
def wFrameTs : State := wIngS { desc := wDesc2 7 1#8, scoreC := .of 192, frame := some wFrm }
def wSlabSt : State := wIngS { desc := wDesc2 2 2#8, scoreC := .of 192, frame := some wFrm }
def wFrmEnd : FrameSt := { lines := [], count := 2, items := [5] }
def wSlabEnd : State := wIngS { desc := wDesc2 2 2#8, scoreC := .of 192, frame := some wFrmEnd }
def wEmbSt : State := wFrameSt.put (F.CSI_EMB_LINE_check 0) 1
def wXsByp : State := wIngS (wStr 3 0x2A) |>.put F.DIKE_STATUS_state 4 |>.put F.DIKE_STATUS_fault_count 1

/-! Wards -/

/-- Ward states: none due, an XS route, a faulted slot, jobs in their stages. -/
def wDig : Nat := (digest64 (padTo 32 (unpackLine 0x2A (List.replicate 32 0#8)))).toNat
def wWardNotDue : State := { wWardSt 1 with mem := cellWrite [] hubBase (leBytes 64 0) }
def wWardXs : State := { wWardSt 1 with streams := [(0, { wStr 5 0x2A with done := [0] }), (96, wStr 0 0), (112, wStr 0 0), (114, wStr 0 0)] }
def wWardBusy : State := wWardRun.setJob { wWJob with slots := [{ phase := 2 }] }
def wWardBad : State := wWardRun.setJob { wWJob with reports := [(4, 0, 0)] }
def wWJobBad : Job := { wWJob with reports := [(4, 0, 0)] }
def wWJobBusy : Job := { wWJob with slots := [{ phase := 2 }] }
def wGiveJob : State := { ((wOverSt.put (F.ARR_JOB_QUEUE_valid 0) 1).put (F.ARR_JOB_QUEUE_queue 0) 0x400) with jobs := [wWJob, { wJob with index := 5 }] }
def wVicBusy : State := { wWardVictim with arrs := [(0, { wArrSt 0 with loading := true })] }

/-! EgoPoses -/

/-- The engine takes stream 113 and is at an item of stream 112. -/
def wEgoFrom1 (i : EgoItem) : State := (wEgo true i).put F.EGO_STATUS_src 1

/-! Projection -/

def wBiasRec : List Byte := jrnRecord 0x0C 1 0 7 0 0x400 0 (leBytes 24 0)
def wPGate (n : Nat) (b : List Byte) : State := (wProj b wPts).put F.EGO_POSE_COUNT_count n

/-! Fusion -/

/-- Inputs of sensor 3: late for an instant released at 5,000, on time for one that waits, in a full lane. -/
def wFI : FusIn := inputOf wFIn false
def wFusRel : State := { wFusOn with fus := { wFusOn.fus with released := [(7, 5000, 0)], inputs := [wFI] } }
def wFusLaneFull : State := { wFusRel with fus := { wFusRel.fus with late := List.replicate 64 ⟨7, wFI, true⟩ } }
def wFusQ : State := { wFusOn with queues := [(0x101, { enabled := true, ring := hubBase + 0x40000, sizeLog2 := 4 })] }
def wFusOldIn : State := { wFusIn wFIn with fus := { wFusOn.fus with inputs := [{ wFI with seq := 66 }] } }
def wInstRec (r : Nat) : List Byte := jrnRecord 0x12 0 0 0 7 0 r (leBytes 8 8)
def wFusMissND : State := { wFusMiss with jobs := [{ wFJob with desc := [3#8] }] }

/-! Collision -/

def wPubRec : List Byte := jrnRecord 0x0B 1 1 7 1 0 0 []

/-! Planning -/

/-- Plan states: queries in their phases, jobs at their ends, a poisoned cost and stop word. -/
def wPlanJ (j : Job) : State := { wPlanS (wPlanB 50) with jobs := [j] }
def wPlanDec (o n : Nat) : List Byte := jrnRecord 0x13 0 5 7 1 0 0 (leBytes 1 5 ++ leBytes 1 n ++ leBytes 1 o ++ leBytes 29 0)
def wPlanTail : State := { wPlanQs wPq with plan := { (wPlanQs wPq).plan with tails := [(5, [0], some 1), (6, [1], none)] } }
def wPlanTold : State := (wPlanQs wPq).put F.PLAN_ISLAND_LO_slots 32
def wPlanCost (q : PlanQ) (a : Nat) : State := { wPlanQs q with cond := [(a / 32, .poison)] }

/-! Journal -/

/-- The replay of one positioned record, or of one unpositioned record. -/
def wJrnP (kind src a0 a1 : Nat) : State := wJrnA (jrnRecord kind 1 src 7 a0 a1 0 []) (some 7)
def wJrnU (kind : Nat) : State := wJrnA (jrnRecord kind 0 0 0 0 0 0 []) (some 7)
/-- A recording whose staging buffer holds `n` bytes, its ring of 64 KiB empty or full. -/
def wJrnS (wrap n : Nat) : State :=
  { (wJrn 1 1).put F.JRN_CTRL_wrap wrap with jrn := { wRun.jrn with staged := if n = 0 then [] else [List.replicate n 0#8] } }
/-- What the staging buffer of `wJrnS` holds. -/
theorem wJrnS_bytes (w n : Nat) (h : n ≠ 0) : (wJrnS w n).jrn.stagedBytes = n := by simp [wJrnS, JrnSt.stagedBytes, h]
def wJrnRing (wrap : Nat) : State := (((wJrn 1 1).put F.JRN_SIZE_log2 7).put F.JRN_CTRL_wrap wrap).put F.JRN_WRITE_offset 3
def wBadDig : State := { wJrnA (jrnRecord 1 7 9 7 3 0 0 (List.replicate 64 0#8)) (some 7) with regs := (wJrnR 3 4 []).regs }
def wJItem : JRec := ⟨1, 1, 0, 7, 3, 0, 5, [1#8, 2#8]⟩
def wJrnDom (live : Nat) : State :=
  { (wJrnP 8 5 6 1).put F.JRN_CTRL_domain 1 with jrn := { (wJrnP 8 5 6 1).jrn with live := [(5 * 4096 + 6, live)] } }
def wInStr (s : State) : State := { s with
  streams := [(0, wStr 4 0x2A)]
  queues := [(0, wQ)] }
def wJIn : State := { wInStr (wJrnR 3 1 []) with jrn := { (wJrnR 3 1 []).jrn with firstTs := some 5 } }

def wTe (s t v : Nat) : TileEnt := ⟨s, t, 1, 2, 3, BitVec.ofNat 64 v⟩
def wDetA : DetEnt := ⟨0x400, 3, 5#64, false, [wTe 0 1 5, wTe 0 2 6], false⟩
def wDet (c : Nat) : State := (State.reset.put F.DET_CTRL_compare c).put F.JRN_CTRL_mode 2
def wDetHas : State := { wDet 1 with det := { recorded := [wDetA] } }
def wDetFull : State := { wDet 1 with det := { replayed := List.replicate 4096 { wDetA with index := 9 } } }
def wDetL : DetLog := ⟨0x400, 3, 5#64, 6#64, some (wTe 0 1 5), some (wTe 0 1 6), true⟩
def wDetLog16 : State := { wDet 1 with det := { log := List.replicate 16 wDetL } }

/-! Queues -/

/-- Queue 0x400 faulted; its state word in error. -/
def wQFlt : State := { wQMem 0x400 1 with queues := [(0x400, { faulted := true, cause := 1 })] }
def wQPois : State := { wQMem 0x400 1 with cond := [(0x200000800, .many)] }

/-! Jobs -/

/-- The descriptor ring of the queue to take from in error. -/
def wTakeP : State := { wTake (wDesc 1 0 0) (wImg 0) with cond := [((hubBase + 0x40000) / 32, .many)] }
/-- A replay whose journal names the program choice of job 0 of queue 0x400. -/
def wChoice (alt serve : Nat) (d h : List Byte) : State :=
  let s := wRel d h
  let t := (((s.put F.JRN_BASE_HI_base 0x40).put F.JRN_SIZE_log2 20).put F.JRN_STATUS_state 3).put F.JRN_EXPORT_offset 1
  { (t.put (F.CD_ARR_SERVICE_in_service 0) serve) with
    mem := cellWrite s.mem 0x4000000000 (jrnRecord 0x15 0 0x400 0 0 (256 * alt) 0 []) }
def wPlQ : Job := { wPlK with desc := wDesc 3 0 0 }
def wWinSt : State := { wRun.setStDie 0 { win := some 0 } with arrs := [(0, { suspect := true })] }
def wDoneS : Job := { (wWait (wDesc 6 4 0) wListH).ended 0 0 with released := some 0 }
def wSlots2 : Job := { wJob with slots := [{ phase := 2, die := 0, logical := 0 }, { phase := 2, die := 0, logical := 1 }] }
/-- A completion queue without room; with an interrupt. -/
def wCqFull : State := { wRun with queues := [(0x80, { wV 2 with producer := 16 })] }
def wCqMsi : State := { wRun with queues := [(0x80, { wV 2 with flags := 2 })] }
def wCqStore : State := { wCqFull with cqStaged := List.replicate 4096 (0, []) }
def wHubList : State := wDmaS (wDma 1 0 0 (hubBase + 0x8000) (hubBase + 0x8020) 64)

/-! MainMemory -/

def wMcRemap : State := wMc { remap := [(0, .of (77 + 131072 * 2 + 2 ^ 31))] }
/-- A channel whose remap table is full. -/
def wMcFull : State := wMc { remap := (List.range 64).map fun i => (i, .of (i + 2 ^ 31)) }
def wSpillMode : State := (wDram.put (F.MC_STATUS_mode 0) 2).put (F.MC_SPILL_high 0) 1
def wPoolC : State := { wRun with cond := [(poolBase 0 / 32, .one 2)] }
def wStackC : State := { wRun with cond := [(stackBase 0 / 32 + 5, .many)] }

/-! HostLink -/

/-- A read of host memory in a replay whose journal holds one record for it. -/
def wRdRep (flags n : Nat) : State := wJrnA (jrnRecord 7 flags 0x400 7 0 0 0 (List.replicate n 0#8)) (some 7)
def wBootH : State := { wHst with sec := { wHst.sec with boot := { wHst.sec.boot with
  host := true
  running := false } } }
def wFw (s : State) (b : Bool) : State := { s with sec := { s.sec with boot := { s.sec.boot with running := b } } }
def wDark : State := { wHst with pwr := { wHst.pwr with held := [1] } }
def wOpen : State := { wHst with jrn := { wHst.jrn with openData := some (0, 0x4000000000, [1#8, 2#8]) } }

/-! XagusLinksAndDomain -/

def wXgF0 : XFrame := wGFrmTo 1 0
/-- A twin module whose links 6 and 7 are down. -/
def wXgTwn : State := wXg.put F.XGS_DOMAIN_twin 1
/-- Link 2 in relinking, in a state of its own. -/
def wXgRel (st : Nat) : State := { wXg.put (F.XL_STATUS_state 2) st with farm := { wXg.farm with relink := [(2, 77)] } }
def wXgNone : State := { wXg with xgs := { wXg.xgs with members := [] } }
def wXgEn0 : State := wXg.put F.XGS_CTRL_enable 0
def wXgForm2s : State := { wXg with xgs := { wXg.xgs with recs := [(77, wGRec)] } }

/-! RemoteAccess -/

/-- A state in a domain of three: member 0 here, link 2 to member 1, link 3 to member 2. -/
def wDom (s : State) : State :=
  { ((s.put F.XGS_CTRL_enable 1).put F.XGS_STATUS_state 3).put (F.XL_STATUS_state 2) 2 |>.put (F.XL_STATUS_state 3) 2 with xgs := wXg.xgs }
def wDomO (o : List RemOut) (lost : List (Nat × Nat × Nat)) (s : State) : State := { wDom s with xgs := { wXg.xgs with
  outs := o
  lost := lost } }
def wFsigR (d : Nat) : State := wSeqA (wIns 0x17 1 5 0xC005 (wS 1) wNo wNo) (wReg1 d)
def wLdX (a : Nat) : State := wSeqA (wIns 0x20 0 5 wNo wNo (wS 1) 8) (wReg1 a)
def wStX' (a : Nat) : State := wSeqA (wIns 0x21 0 5 wNo wNo 4 (wS 1)) (wReg1 a)
def wXgRd43 : XFrame := wGFrm 3 (2 ^ 43 + 2) (leBytes 32 0x9876)
def wXgJ (dom : Nat) : State := (wXg.put F.JRN_STATUS_state 3).put F.JRN_CTRL_domain dom
def wAloneS (s : State) : State := (wDom s).put F.JRN_STATUS_state 3
def wFlying (s : State) : State := s.modArr 0 fun a => { a with flights := [{ id := 3, unit := .move, pc := 0 }] }

/-! CollectivesAndTwin -/

/-- Slot 0's group holds a member that no route reaches. -/
def wXgFar : State := { wXgC 1 0 false [] with xgs := { (wXgC 1 0 false []).xgs with groups := [(0, [.of 0x80000002, .of 0x700])] } }
def wXgFailed : State := { wXgC 1 0 true [] with xgs := { (wXgC 1 0 true []).xgs with failed := [(0, 3)] } }
def wSay5 : List Byte := 5#8 :: wXgSay.drop 1
def wB (op flags size queries first count total : Nat) : List Byte :=
  leBytes 4 (1 + 2 * op + flags) ++ leBytes 4 0 ++ leBytes 8 (hubBase + 0x40000) ++ leBytes 8 (hubBase + 0x50000) ++ leBytes 4 size ++ leBytes 4 queries
    ++ leBytes 16 0 ++ leBytes 2 first ++ leBytes 2 count ++ leBytes 4 total ++ leBytes 4 1 ++ leBytes 4 0
def wMg (first count rev : Nat) : List Byte := bytesAt (wB 3 16 1 1 first count 2) 0 0x38 ++ leBytes 4 rev ++ leBytes 4 0
def wTwS : State := wTwin.put F.XGS_TWIN_SLOTS_LO_slots 0x20
def wTwOld : State := { wTwin with twin := { wTwin.twin with taken := [(5, (3, 0x77))] } }
def wPopW : PairWait := ⟨1, ⟨5, 9, 0, 7, [], 0⟩⟩
def wPopS : State := { wUp with isl := [(0, { running := true, waits := [wPopW] }), (1, { running := true })] }
/-- A twin pair whose islands run; PLAN_ISLAND routes the twin slot 5. -/
def wTwUp : State := { (wTwS.put F.PLAN_ISLAND_LO_slots 0x20) with isl := wPopS.isl }

/-! IslandPair -/

/-- No island runs. -/
def wNoIsl : State := { wRun with isl := [] }

/-! FaultsAndResets -/

def wFrJob : Job := { queue := 5, index := 3, desc := wDesc 1 0 0, stage := .placed, header := wImg 0, slots := [{ die := 0, logical := 4, phase := 2 }] }
def wFrColl : Job := { queue := 6, index := 4, desc := wDesc 6 0 0, stage := .placed }
/-- Work of every engine in progress. -/
def wFrMix : State := { wI fun x => { x with inbox := [wEv 96 0 3 false true], timers := [wTimer], kept := [(3, ⟨1, 2, [], 40000000⟩)] } with
  jobs := [wFrJob, wFrColl]
  queues := [(5, { enabled := true, inFlight := 1 })]
  arrs := [(4, { flights := [wFlyH], suspect := true }), (5, { flights := [wFlyS 2] })]
  fus := wFusOn.fus
  coll := wCollOn.coll
  plan := wPlanOn.plan
  kv := (wKv 1).kv
  streams := [(0, wStr 4 0x2A)]
  ext := [(9, wRead none)]
  flt := [wEv 4 0 2 false true]
  fltLog := [[1#8]]
  xgs := (wXgA [] []).xgs
  twin := wTwinI.twin
  jrn := wHost.jrn
  islMsgs := [(0, [wMsg true 0 0 77])]
  planMsgs := [(0, [wRes])]
  sec := { wI0.sec with attest := some ⟨hubBase + 64, [1#8, 2#8, 3#8]⟩ } }
def wFrGen : State := (wOp 0 wFrMix).put (F.BLK_LEVEL_expert 0) 1
def wFrGenWr (v : Word) : State × Word := wWr wFrGen pgGEN 0x104 (wAcc v)

/-! DeadlinesAndFrames -/

def wDfBig : State := wI fun x => { x with timers := List.replicate 4096 wTimer2 }
def wDfTwo : State := { wI fun x => { x with timers := [wTimer, wTimer2], kept := [(3, ⟨1, 2, wRes.stop, 40000000⟩)] } with
  twin := { wI0.twin with withdrawn := false } }
def wDfRes (m : PlanMsg) (s : State) : State := { s with planMsgs := [(0, [m])] }
def wDfTwin : State := { wMissT with planMsgs := [(0, [{ wRes with index := 9 }])] }
def wDfRun (mode : Nat) (ts : List IslTimer) : State := (wRouted (wI fun x => { x with timers := ts, kept := [(3, ⟨1, 2, wRes.stop, 40000000⟩)] })).put (F.ISL_SLOT_mode 0 3) mode

/-! InServiceTest -/

/-- The accepted test image lies where STEST_PROG_BASE says, empty behind its header. -/
def wIstImg : State :=
  let m := sha3_512 []
  let h := [0x56#8, 0x49#8, 0x4D#8, 0x31#8] ++ leBytes 2 4 ++ leBytes 58 0 ++ m
  { (wSt.put F.STEST_PROG_BASE_LO_base (hubBase % 2 ^ 32 / 2 ^ F.STEST_PROG_BASE_LO_base.lo)).put F.STEST_PROG_BASE_HI_base (hubBase / 2 ^ 32) with
    mem := cellWrite [] hubBase h
    sec := { wSt.sec with meas := [(7, m)] } }
def wIstBusy (b f t : Nat) (l : List Nat) : State :=
  (((wStD { targets := l }).put F.STEST_TARGET_CMD_busy b).put (F.STEST_TARGET_FAIL_failed 1) f).put F.XGS_TWIN_STATE_state t

/-! UnitsTakenOut -/

def wUtJob (k : State) : State := { k with jobs := [{ wJobX with stage := .placed, slots := [{ phase := 2, die := 0, logical := 2 }] }] }
def wUtAsked : State := wStD { outReq := [2], dieOut := true }
def wUtTwoBusy : State := wUtJob wTwoDies
def wUtCond : State := { wCopyS false with cond := [(stackBase 0 / 32 + 3, .many), (stackBase 0 / 32 + 4, .one 0)] }
def wUtRep (k u : Nat) : State := ((wRepE.put F.STEST_REPAIR_CLEAR_kind k).put F.STEST_REPAIR_CLEAR_unit u)

/-! PowerStates -/

def wPsW (warming : Bool) (wanted : Option Nat) (s : State) : State := { s with pwr := { s.pwr with warming := warming, wanted := wanted } }
def wPsSvc (v : Nat) : State := (wSvc v).put (F.CD_STATE_state 0) 6

/-! SupplyAndThermal -/

def wStTemps : Temps := ⟨none :: [some 1700, some 2000, some 2000], 300, 300, some 900, some 1700, some 401, some 407⟩
def wStHeat : State := ((wI0.put (F.CD_HOTSPOT_MAX_valid_count 0) 3).put (F.CD_HOTSPOT_MAX_temp 0) 1801).put F.THM_WARN_warn 105
def wStDip : State := { wDipP 1 true with jobs := [wJobX, { wJobX with queue := 3, granted := [] }] }

/-! Boot -/

/-- The banks, with every image of length 0. -/
def wBtBanks (a b : Nat) : State := wBanks a b fun m => { m with
  nor := [0x1000, 0x200000, 0x300000, 0x4800000, 0x8001000, 0x8200000, 0x8300000, 0xC800000].foldl
    (fun (t : Tab Byte) x => [0x18, 0x19, 0x1A, 0x1B].foldl (fun (u : Tab Byte) k => tabSet u (x + k) 0#8) t) m.nor }
def wBtNor (a b : Nat) : State := { wBtBanks a b with isl := [(1, {})] }

/-! TrialAndUpdate -/

def wBtBk (a b : Nat) : State := wBanks a b fun m => { m with
  nor := [0x1000, 0x200000, 0x300000, 0x4800000, 0x8001000, 0x8200000, 0x8300000, 0xC800000].foldl
    (fun (t : Tab Byte) x => [0x18, 0x19, 0x1A, 0x1B].foldl (fun (u : Tab Byte) k => tabSet u (x + k) 0#8) t) m.nor }
def wTuTrial : State := let s := wBtBk 1 2; { s.put F.SEC_STATUS_trial 1 with sec := { s.sec with boot := { s.sec.boot with trial := true, running := true } } }
def wTuUpd : State := { wBtBk 2 0 with sec := { (wBtBk 2 0).sec with update := some wImgSet } }

/-! FarmImages -/

def wFmHeads : State := { wRestored with jobs := [wJob, { wJob with released := some 1 }] }

/-! ### Every hypothesis of every statement is met -/

theorem test_meets_HingeFlit_1 :
    (∃ (e : HingeEnd) (f : Flit) (s : State), (isLink e = true) ∧ ((s.linkAt e).down = false) ∧ (s.hubOff = false) ∧ (s.ringClosed e = false) ∧ (crc16 f.hdr = f.hcrc) ∧ (flitSeq f = (s.linkAt e).expect) ∧ (flitType f ≤ 9) ∧ (flitType f ≠ 7) ∧ (s.dieExists (flitDst f) = true) ∧ (s.linkFenced e = false) ∧ (f.code = CodeState.clean) ∧ (flitDst f = ↑e.rx ∨ ↑e.rx = 0 ∧ flitDst f = 7) ∧ (flitType f ≠ 0 ∨ flitDst f ≠ 0 ∨ ↑e.tx < 5))
    ∧ (∃ (e : HingeEnd) (f : Flit) (s : State), (isLink e = true) ∧ ((s.linkAt e).down = false) ∧ (s.hubOff = false) ∧ (s.ringClosed e = false) ∧ (crc16 f.hdr = f.hcrc) ∧ (flitSeq f = (s.linkAt e).expect) ∧ (flitType f ≤ 9) ∧ (flitType f ≠ 7) ∧ (s.dieExists (flitDst f) = true) ∧ (s.linkFenced e = false) ∧ (f.code = CodeState.clean) ∧ (flitDst f = 0) ∧ (↑e.rx = 0) ∧ (flitType f = 0) ∧ (5 ≤ ↑e.tx) ∧ (flitSrc f = ↑e.tx) ∧ (flitPoison f = false) ∧ (s.inHub f.addr 32 = true) ∧ (s.plainStore f.addr 32 = true) ∧ (s.memOk))
    ∧ (∃ (e : HingeEnd) (f : Flit) (s : State) (g : Flit), (isLink e = true) ∧ ((s.linkAt e).down = false) ∧ (s.hubOff = false) ∧ (s.ringClosed e = false) ∧ (crc16 f.hdr = f.hcrc) ∧ (flitSeq f = (s.linkAt e).expect) ∧ (flitType f ≤ 9) ∧ (flitType f ≠ 7) ∧ (s.dieExists (flitDst f) = true) ∧ (s.linkFenced e = false) ∧ (g = have __src := mkFlit (flitType f) (flitSrc f) (flitDst f) 0 (flitVc f) (flitTag f) (flitPoison f) f.data; { __src with addr := f.addr }) ∧ (f.code = CodeState.clean) ∧ (flitDst f ≠ ↑e.rx) ∧ (¬(↑e.rx = 0 ∧ flitDst f = 7)) ∧ (↑e.rx = 0 → 1 ≤ flitDst f → flitDst f ≤ 4 → s.cdState (flitDst f - 1) ≠ 4) ∧ ((s.arrived e f).canSend (s.nextHop (↑e.rx) (flitDst f)) (↑e.rx) g = true))
    ∧ (∃ (e : HingeEnd) (f : Flit) (s : State) (g : Flit), (isLink e = true) ∧ ((s.linkAt e).down = false) ∧ (s.hubOff = false) ∧ (s.ringClosed e = false) ∧ (crc16 f.hdr = f.hcrc) ∧ (flitSeq f = (s.linkAt e).expect) ∧ (flitType f ≤ 9) ∧ (flitType f ≠ 7) ∧ (s.dieExists (flitDst f) = true) ∧ (s.linkFenced e = false) ∧ (g = mkFlit (if flitType f = 1 then 2 else 3) (flitDst f) (flitSrc f) 0 1 (flitTag f) true (BitVec.ofNat 256 (Config.free s.freeCtr))) ∧ (f.code = CodeState.clean) ∧ (↑e.rx = 0) ∧ (1 ≤ flitDst f) ∧ (flitDst f ≤ 4) ∧ (s.cdState (flitDst f - 1) = 4) ∧ (flitAsks f = true) ∧ ((s.arrived e f).canSend (flitSrc f) 0 g = true))
    ∧ (∃ (e : HingeEnd) (f : Flit) (s : State) (b : Fin 36) (d : ℕ), (isLink e = true) ∧ ((s.linkAt e).down = false) ∧ (s.hubOff = false) ∧ (s.ringClosed e = false) ∧ (crc16 f.hdr = f.hcrc) ∧ (flitSeq f = (s.linkAt e).expect) ∧ (flitType f ≤ 9) ∧ (flitType f ≠ 7) ∧ (s.dieExists (flitDst f) = true) ∧ (s.linkFenced e = false) ∧ (f.code = CodeState.one b) ∧ (portDie e = some d) ∧ (flitDst f = ↑e.rx))
    ∧ (∃ (e : HingeEnd) (f : Flit) (s : State) (d : ℕ), (isLink e = true) ∧ ((s.linkAt e).down = false) ∧ (s.hubOff = false) ∧ (s.ringClosed e = false) ∧ (crc16 f.hdr = f.hcrc) ∧ (flitSeq f = (s.linkAt e).expect) ∧ (flitType f ≤ 9) ∧ (flitType f ≠ 7) ∧ (s.dieExists (flitDst f) = true) ∧ (s.linkFenced e = false) ∧ (f.code = CodeState.many) ∧ (portDie e = some d) ∧ (flitDst f = ↑e.rx))
    ∧ (∃ (e : HingeEnd) (f : Flit) (s : State), (isLink e = true) ∧ ((s.linkAt e).down = false) ∧ (s.hubOff = false) ∧ (s.ringClosed e = false) ∧ (crc16 f.hdr = f.hcrc) ∧ (flitSeq f = (s.linkAt e).expect) ∧ (flitType f ≠ 7) ∧ (9 < flitType f ∨ s.dieExists (flitDst f) = false) ∧ (portDie e = none))
    ∧ (∃ (e : HingeEnd) (f : Flit) (s : State) (d : ℕ), (isLink e = true) ∧ ((s.linkAt e).down = false) ∧ (s.hubOff = false) ∧ (s.ringClosed e = false) ∧ (crc16 f.hdr = f.hcrc) ∧ (flitSeq f = (s.linkAt e).expect) ∧ (flitType f ≠ 7) ∧ (9 < flitType f ∨ s.dieExists (flitDst f) = false) ∧ (portDie e = some d))
    ∧ (∃ (e : HingeEnd) (f : Flit) (s : State), (isLink e = true) ∧ ((s.linkAt e).down = false) ∧ (s.hubOff = false) ∧ (s.ringClosed e = false) ∧ (crc16 f.hdr ≠ f.hcrc))
    ∧ (∃ (e : HingeEnd) (f : Flit) (s : State), (isLink e = true) ∧ ((s.linkAt e).down = false) ∧ (s.hubOff = false) ∧ (s.ringClosed e = false) ∧ (crc16 f.hdr = f.hcrc) ∧ (flitType f ≠ 7) ∧ (flitSeq f ≠ (s.linkAt e).expect))
    ∧ (∃ (e : HingeEnd) (f : Flit) (s : State) (b : HingeEnd), (isLink e = true) ∧ ((s.linkAt e).down = false) ∧ (s.hubOff = false) ∧ (s.ringClosed e = false) ∧ (b.rx = e.tx) ∧ (b.tx = e.rx) ∧ (crc16 f.hdr = f.hcrc) ∧ (flitType f = 7) ∧ ((s.linkAt b).waits = []))
    ∧ (∃ (e : HingeEnd) (s : State) (d : ℕ), (isLink e = true) ∧ ((s.linkAt e).down = false) ∧ (8 ≤ (s.linkAt e).fails) ∧ (endDie e = some d)) :=
  ⟨⟨wEnd, wFlit, wRun, by decide +kernel⟩,
    ⟨wEndI, wIslFlit, wRun, by unfold State.memOk; decide +kernel⟩,
    ⟨wEnd, wFl 0 1 2 0 0, (wRun.put (F.CD_STATE_state 1) 3), wFwdFlit, by decide +kernel⟩,
    ⟨wEnd, wFl 1 1 2 0 0, wFence1, wPoisonAns, by refine ⟨?_, ?_, ?_, ?_, ?_, ?_, ?_, ?_, ?_, ?_, rfl, ?_⟩ <;> decide +kernel⟩,
    ⟨wEndD, { wFl 2 0 1 0 1 with code := .one 3 }, wRun, 3, 0, by decide +kernel⟩,
    ⟨wEndD, { wFl 2 0 1 0 1 with code := .many }, wRun, 0, by decide +kernel⟩,
    ⟨wEnd, wFl 12 1 0 0 0, wRun, by decide +kernel⟩,
    ⟨wEndD, wFl 2 0 7 0 0, wRun, 0, by decide +kernel⟩,
    ⟨wEndD, wBadCrc, wRetry, by decide +kernel⟩,
    ⟨wEnd, wFl 0 1 0 1 0, wRun, by decide +kernel⟩,
    ⟨wEnd, wFl 7 1 0 3 0, wRetry, ⟨1, 0⟩, by decide +kernel⟩,
    ⟨wEnd, wFails, 0, by decide +kernel⟩⟩

theorem test_meets_HingeFlit_2 :
    (∃ (e : HingeEnd) (s : State), (isLink e = true) ∧ ((s.linkAt e).down = false) ∧ (8 ≤ (s.linkAt e).fails) ∧ (endDie e = none))
    ∧ (∃ (s : State) (a : Fin 4) (b : Fin 4), (a ≠ b))
    ∧ (∃ (s : State) (a : Fin 4) (b : Fin 4), (a ≠ b) ∧ (↑b = (↑a + 1) % 4 ∨ ↑a = (↑b + 1) % 4))
    ∧ (∃ (s : State) (a : Fin 4) (b : Fin 4), (a ≠ b) ∧ (↑b = (↑a + 2) % 4)) :=
  ⟨⟨wEndI, wFailsI, by decide +kernel⟩,
    ⟨wRun, 0, 3, by decide +kernel⟩,
    ⟨wRun, 0, 3, by decide +kernel⟩,
    ⟨(wRun.put (F.CD_STATE_state 3) 3), 0, 2, by decide +kernel⟩⟩

theorem test_meets_TapCommands :
    (∃ (i : Island) (d : Fin 4) (s : State), (s.cdState ↑d = 3 ∨ s.cdState ↑d = 4 ∨ s.cdState ↑d = 5) ∧ ((s.stDie ↑d).win = none) ∧ (s.dieQuiet ↑d = true))
    ∧ (∃ (i : Island) (d : Fin 4) (s : State), (s.cdState ↑d = 3 ∨ s.cdState ↑d = 4 ∨ s.cdState ↑d = 5))
    ∧ (∃ (i : Island) (d : Fin 4) (s : State) (c : Instr), (s.cdState ↑d = 3 ∨ s.cdState ↑d = 4 ∨ s.cdState ↑d = 5) ∧ (c ∈ [Instr.release i d, Instr.tapCommandDrop i d]))
    ∧ (∃ (i : Island) (d : Fin 4) (s : State), (s.cdState ↑d = 3))
    ∧ (∃ (i : Island) (d : Fin 4) (s : State) (c : Instr), (s.cdState ↑d = 0) ∧ (c ∈ [Instr.stop i d, Instr.fence i d, Instr.reset i d]))
    ∧ (∃ (i : Island) (d : Fin 4) (s : State), (s.cdState ↑d ≠ 0) ∧ (s.cdState ↑d ≠ 1) ∧ (s.dieIdle ↑d = true))
    ∧ (∃ (i : Island) (d : Fin 4) (s : State) (a : DiscAnswer), (tabFind s.ident ↑d = some a))
    ∧ (∃ (i : Island) (d : Fin 4) (s : State), (tabFind s.ident ↑d = none)) :=
  ⟨⟨Island.sib, 1, (wRun.put (F.CD_STATE_state 1) 3), by decide +kernel⟩,
    ⟨Island.sib, 1, (wRun.put (F.CD_STATE_state 1) 3), by decide +kernel⟩,
    ⟨Island.sib, 0, wTapH, Instr.release Island.sib 0, by decide +kernel⟩,
    ⟨Island.sia, 0, wTapExt, by decide +kernel⟩,
    ⟨Island.sia, 0, (wDie 0), Instr.stop Island.sia 0, by decide +kernel⟩,
    ⟨Island.sib, 0, wTapH, by decide +kernel⟩,
    ⟨Island.sia, 0, wIdent, wAns, by decide +kernel⟩,
    ⟨Island.sia, 1, wIdent, by decide +kernel⟩⟩

theorem test_meets_DiscoveryAndAnswers_1 :
    (∃ (s : State), (s.disc.running = false) ∧ (s.disc.ended = false) ∧ (s.hubOff = false) ∧ (((List.range 7).all fun (p : ℕ) => s.portRoom (p + 1)) = true))
    ∧ (∃ (s : State), (s.disc.running = true ∨ s.disc.ended = true))
    ∧ (∃ (s : State) (p : Fin 7) (ans : DiscAnswer), (s.disc.running = true) ∧ (↑p ∈ s.disc.awaiting))
    ∧ (∃ (s : State) (p : Fin 7), (s.portRoom (↑p + 1) = true) ∧ (s.disc.running = true ∧ ↑p ∈ s.disc.awaiting ∧ tabGet s.disc.tries (↑p) 0 < 3 ∨ s.disc.running = false ∧ s.disc.mismatch = false ∧ ↑p < 4 ∧ s.cdState ↑p = 2 ∧ tabGet s.disc.tries (↑p) 0 < s.get F.DISC_RETRY_count))
    ∧ (∃ (s : State) (p : Fin 7), (s.disc.running = true) ∧ (↑p ∈ s.disc.awaiting) ∧ (3 ≤ tabGet s.disc.tries (↑p) 0) ∧ (setDel s.disc.awaiting ↑p ≠ []))
    ∧ (∃ (s : State) (i : Island) (cmp : Fld), (s.disc.running = true) ∧ (s.disc.awaiting = []) ∧ ((if i = Island.sia then s.disc.sawSia else s.disc.sawSib) = false) ∧ (s.islUp (islIdx i) = true) ∧ (cmp = if i = Island.sia then F.DISC_ISLAND_CMP_sia_match else F.DISC_ISLAND_CMP_sib_match) ∧ (s.islUp (peerOf (islIdx i)) = true) ∧ ((if i = Island.sia then s.disc.sawSib else s.disc.sawSia) = false) ∧ (((List.range 6).all fun (p : ℕ) => s.topoAt p == tabFind s.ident p) = true))
    ∧ (∃ (s : State) (i : Island) (cmp : Fld) (p : Fin 6), (s.disc.running = true) ∧ (s.disc.awaiting = []) ∧ ((if i = Island.sia then s.disc.sawSia else s.disc.sawSib) = false) ∧ (s.islUp (islIdx i) = true) ∧ (cmp = if i = Island.sia then F.DISC_ISLAND_CMP_sia_match else F.DISC_ISLAND_CMP_sib_match) ∧ (s.islUp (peerOf (islIdx i)) = true) ∧ ((if i = Island.sia then s.disc.sawSib else s.disc.sawSia) = false) ∧ (s.disc.mismatch = false) ∧ (s.topoAt ↑p ≠ tabFind s.ident ↑p) ∧ (∀ q < p, s.topoAt ↑q = tabFind s.ident ↑q))
    ∧ (∃ (s : State) (i : Island), (s.disc.running = true) ∧ (s.disc.awaiting = []) ∧ ((if i = Island.sia then s.disc.sawSia else s.disc.sawSib) = false) ∧ (s.islUp (islIdx i) = true) ∧ ((if i = Island.sia then s.disc.sawSib else s.disc.sawSia) = true) ∧ (s.disc.mismatch = true))
    ∧ (∃ (s : State) (i : Island), (s.disc.running = true) ∧ (s.disc.awaiting = []) ∧ ((if i = Island.sia then s.disc.sawSia else s.disc.sawSib) = false) ∧ (s.islUp (islIdx i) = true) ∧ ((if i = Island.sia then s.disc.sawSib else s.disc.sawSia) = true) ∧ (s.disc.mismatch = false) ∧ (((List.range 6).all fun (p : ℕ) => s.topoAt p == tabFind s.ident p) = true))
    ∧ (∃ (d : Fin 4) (s : State) (ans : Option DiscAnswer), (s.cdState ↑d = 2) ∧ (s.disc.mismatch = false) ∧ (s.sameDie (↑d) ans = false))
    ∧ (∃ (d : Fin 4) (s : State) (a : DiscAnswer), (s.cdState ↑d = 2) ∧ (s.disc.mismatch = false) ∧ (s.sameDie (↑d) (some a) = true) ∧ (∀ k < 2, s.get (stopField k ↑d) = 0 ∧ s.get (fenceField k ↑d) = 0))
    ∧ (∃ (d : Fin 4) (s : State), (s.cdState ↑d = 2) ∧ (s.disc.mismatch = false) ∧ (s.disc.running = false) ∧ (s.get F.DISC_RETRY_count ≤ tabGet s.disc.tries (↑d) 0)) :=
  ⟨⟨State.reset, by decide +kernel⟩,
    ⟨wUp, by decide +kernel⟩,
    ⟨wDisc, 0, wAns, by decide +kernel⟩,
    ⟨wDisc, 0, by decide +kernel⟩,
    ⟨wDisc, 1, by decide +kernel⟩,
    ⟨wUp, Island.sia, F.DISC_ISLAND_CMP_sia_match, by decide +kernel⟩,
    ⟨wUpMis, Island.sib, F.DISC_ISLAND_CMP_sib_match, 1, by decide +kernel⟩,
    ⟨wSeenBad, Island.sia, by decide +kernel⟩,
    ⟨wSeen, Island.sia, by decide +kernel⟩,
    ⟨0, (wDie 2), none, by decide +kernel⟩,
    ⟨0, wRedis, wAns, by decide +kernel⟩,
    ⟨0, (wDie 2).put F.DISC_RETRY_count 0, by decide +kernel⟩⟩

theorem test_meets_DiscoveryAndAnswers_2 :
    (∃ (s : State) (s2 : State) (acc : Sys2Proof.Acc) (w : Word) (ans : Option DiscAnswer), (s.written pgDISC 32 acc = some (s2, w)) ∧ (BitVec.getLsbD w 0 = false ∨ s2.sameDie (s2.get F.DISC_CTRL_rescan_port) ans = true))
    ∧ (∃ (s : State) (s2 : State) (acc : Sys2Proof.Acc) (w : Word) (ans : Option DiscAnswer), (s.written pgDISC 32 acc = some (s2, w)) ∧ (BitVec.getLsbD w 0 = true) ∧ (s2.get F.DISC_CTRL_rescan_port < 4) ∧ (s2.sameDie (s2.get F.DISC_CTRL_rescan_port) ans = false) ∧ (s2.cdState (s2.get F.DISC_CTRL_rescan_port) = 6))
    ∧ (∃ (s : State) (s2 : State) (acc : Sys2Proof.Acc) (w : Word) (ans : Option DiscAnswer), (s.written pgDISC 32 acc = some (s2, w)) ∧ (BitVec.getLsbD w 0 = true) ∧ (s2.get F.DISC_CTRL_rescan_port < 4) ∧ (s2.sameDie (s2.get F.DISC_CTRL_rescan_port) ans = false) ∧ (s2.cdState (s2.get F.DISC_CTRL_rescan_port) = 3))
    ∧ (∃ (s : State) (s2 : State) (acc : Sys2Proof.Acc) (w : Word) (d : Fin 4), (s.cdState ↑d = 3) ∧ (s.written (pgCD ↑d) 36 acc = some (s2, w)) ∧ (BitVec.getLsbD w 0 = true) ∧ (s2.cdState ↑d = 3))
    ∧ (∃ (s : State) (s2 : State) (acc : Sys2Proof.Acc) (w : Word) (d : Fin 4), (s.cdState ↑d = 6) ∧ (acc.be = 15#4) ∧ (acc.view = View.base) ∧ (BitVec.getLsbD acc.val 0 = true) ∧ (s.hubOff = false) ∧ (acc.poisoned = false)) :=
  ⟨⟨wRedis, (wWr wRedis 5 0x20 (wAcc 1)).1, (wAcc 1), (wWr wRedis 5 0x20 (wAcc 1)).2, (some wAns), by decide +kernel⟩,
    ⟨wHeld, (wWr wHeld 5 0x20 (wAcc 1)).1, (wAcc 1), (wWr wHeld 5 0x20 (wAcc 1)).2, none, by decide +kernel⟩,
    ⟨wUpRun, (wWr wUpRun 5 0x20 (wAcc 1)).1, (wAcc 1), (wWr wUpRun 5 0x20 (wAcc 1)).2, none, by decide +kernel⟩,
    ⟨wUpRun, (wWr wUpRun 96 0x24 (wAcc 1)).1, (wAcc 1), (wWr wUpRun 96 0x24 (wAcc 1)).2, 0, by decide +kernel⟩,
    ⟨wHeld, wHeld, wAcc 1, 0, 0, by decide +kernel⟩⟩

theorem test_meets_XsSlotLife :
    (∃ (s : State), (s.dikeState = 0) ∧ (s.fuse.xsPopulated = true) ∧ (s.sec.boot.running = true))
    ∧ (∃ (s : State), (s.dike.step = 1))
    ∧ (∃ (s : State) (cert : List Byte) (inter : Option (List Byte)), (s.dike.step = 2))
    ∧ (∃ (s : State), (s.dike.step = 3))
    ∧ (∃ (s : State), (s.dike.step ≠ 0))
    ∧ (∃ (s : State), (1 ≤ s.dikeState) ∧ (s.dikeState ≤ 3))
    ∧ (∃ (s : State), (s.dikeState = 0 ∨ 4 ≤ s.dikeState))
    ∧ (∃ (acc : Sys2Proof.Acc) (s : State) (s2 : State) (w : Word), (s.written pgDIKE 32 acc = some (s2, w)) ∧ (BitVec.getLsbD w 2 = true) ∧ (BitVec.getLsbD w 1 = false) ∧ (BitVec.getLsbD w 3 = false) ∧ (s2.dikeState = 4) ∧ (BitVec.getLsbD w 0 = true ∨ s2.get F.DIKE_CTRL_enable = 0))
    ∧ (∃ (acc : Sys2Proof.Acc) (s : State) (s2 : State) (w : Word), (s.written pgDIKE 32 acc = some (s2, w)) ∧ (BitVec.getLsbD w 3 = true))
    ∧ (∃ (acc : Sys2Proof.Acc) (s : State) (s2 : State) (w : Word), (s.written pgDIKE 32 acc = some (s2, w)) ∧ (BitVec.getLsbD w 0 = false) ∧ (s2.get F.DIKE_CTRL_enable = 1))
    ∧ (∃ (acc : Sys2Proof.Acc) (s : State) (s2 : State) (w : Word), (s.written pgDIKE 32 acc = some (s2, w)) ∧ (BitVec.getLsbD w 1 = true) ∧ (BitVec.getLsbD w 2 = false) ∧ (BitVec.getLsbD w 3 = false) ∧ (BitVec.getLsbD w 0 = true ∨ s2.get F.DIKE_CTRL_enable = 0)) :=
  ⟨⟨wXs, by decide +kernel⟩,
    ⟨(wXsStep 1), by decide +kernel⟩,
    ⟨(wXsStep 2), [], none, by decide +kernel⟩,
    ⟨(wXsStep 3), by decide +kernel⟩,
    ⟨(wXsStep 1), by decide +kernel⟩,
    ⟨wXsLive, by decide +kernel⟩,
    ⟨wXsFault, by decide +kernel⟩,
    ⟨(wAcc 4), wXsFault, (wWr wXsFault 6 0x20 (wAcc 4)).1, (wWr wXsFault 6 0x20 (wAcc 4)).2, by decide +kernel⟩,
    ⟨(wAcc 9), wXsLive, (wWr wXsLive 6 0x20 (wAcc 9)).1, (wWr wXsLive 6 0x20 (wAcc 9)).2, by decide +kernel⟩,
    ⟨(wAcc 0), wXsLive, (wWr wXsLive 6 0x20 (wAcc 0)).1, (wWr wXsLive 6 0x20 (wAcc 0)).2, by decide +kernel⟩,
    ⟨(wAcc 3), wXsLive, (wWr wXsLive 6 0x20 (wAcc 3)).1, (wWr wXsLive 6 0x20 (wAcc 3)).2, by decide +kernel⟩⟩

theorem test_meets_XsTraffic_1 :
    (∃ (s : State), (s.dike.commitQ = true) ∧ (s.dike.past = 0) ∧ (s.windowsOk s.windowSet = true))
    ∧ (∃ (s : State), (s.dike.commitQ = true) ∧ (s.dike.past = 0) ∧ (s.windowsOk s.windowSet = false))
    ∧ (∃ (r : XsReq) (s : State), (s.dikeState = 3) ∧ (r.code = CodeState.many))
    ∧ (∃ (r : XsReq) (s : State), (s.dikeState = 3) ∧ (r.code ≠ CodeState.many) ∧ (r.kind = XsKind.reserved))
    ∧ (∃ (r : XsReq) (s : State), (s.dikeState = 3) ∧ (r.code ≠ CodeState.many) ∧ (r.kind = XsKind.read ∨ r.kind = XsKind.write) ∧ (s.windowAt r.addr.toNat = none))
    ∧ (∃ (r : XsReq) (s : State) (n : ℕ) (w : Window) (a : ℕ), (s.dikeState = 3) ∧ (r.code ≠ CodeState.many) ∧ (r.kind = XsKind.read ∨ r.kind = XsKind.write) ∧ (s.windowAt r.addr.toNat = some (n, w)) ∧ (a = r.addr.toNat) ∧ (w.base + w.size < a + 32 * r.words))
    ∧ (∃ (r : XsReq) (s : State) (n : ℕ) (w : Window) (a : ℕ), (s.dikeState = 3) ∧ (r.code ≠ CodeState.many) ∧ (r.kind = XsKind.read ∨ r.kind = XsKind.write) ∧ (s.windowAt r.addr.toNat = some (n, w)) ∧ (a = r.addr.toNat) ∧ (a + 32 * r.words ≤ w.base + w.size) ∧ (w.perm.testBit (if r.kind = XsKind.write then 1 else 0) = false))
    ∧ (∃ (r : XsReq) (s : State) (n : ℕ) (w : Window) (a : ℕ), (s.dikeState = 3) ∧ (r.code ≠ CodeState.many) ∧ (r.kind = XsKind.read ∨ r.kind = XsKind.write) ∧ (s.windowAt r.addr.toNat = some (n, w)) ∧ (a = r.addr.toNat) ∧ (a + 32 * r.words ≤ w.base + w.size) ∧ (w.perm.testBit (if r.kind = XsKind.write then 1 else 0) = true) ∧ (s.dike.stalled = []) ∧ (w.rate ≠ 0) ∧ (max 1 (2 * min r.words w.burst) ≤ w.tokens))
    ∧ (∃ (r : XsReq) (s : State) (n : ℕ) (w : Window) (a : ℕ), (s.dikeState = 3) ∧ (r.code ≠ CodeState.many) ∧ (r.kind = XsKind.read ∨ r.kind = XsKind.write) ∧ (s.windowAt r.addr.toNat = some (n, w)) ∧ (a = r.addr.toNat) ∧ (a + 32 * r.words ≤ w.base + w.size) ∧ (w.perm.testBit (if r.kind = XsKind.write then 1 else 0) = true) ∧ (s.dike.stalled ≠ [] ∨ w.tokens < max 1 (2 * min r.words w.burst)))
    ∧ (∃ (r : XsReq) (s : State) (n : ℕ) (w : Window) (a : ℕ) (rest : List XsReq), (s.dikeState = 3) ∧ (r.code ≠ CodeState.many) ∧ (r.kind = XsKind.read ∨ r.kind = XsKind.write) ∧ (s.windowAt r.addr.toNat = some (n, w)) ∧ (a = r.addr.toNat) ∧ (s.dike.stalled = r :: rest) ∧ (a + 32 * r.words ≤ w.base + w.size) ∧ (w.perm.testBit (if r.kind = XsKind.write then 1 else 0) = true) ∧ (w.rate ≠ 0) ∧ (max 1 (2 * min r.words w.burst) ≤ w.tokens))
    ∧ (∃ (r : XsReq) (s : State) (n : ℕ) (w : Window) (a : ℕ), (s.dikeState = 3) ∧ (r.code ≠ CodeState.many) ∧ (r.kind = XsKind.read ∨ r.kind = XsKind.write) ∧ (s.windowAt r.addr.toNat = some (n, w)) ∧ (a = r.addr.toNat) ∧ (a + 32 * r.words ≤ w.base + w.size) ∧ (w.perm.testBit (if r.kind = XsKind.write then 1 else 0) = true) ∧ (s.dike.stalled = []) ∧ (w.rate ≠ 0) ∧ (max 1 (2 * min r.words w.burst) ≤ w.tokens) ∧ (s.inHub a (32 * r.words) = true) ∧ (r.kind = XsKind.read) ∧ (s.cond = []))
    ∧ (∃ (r : XsReq) (s : State) (n : ℕ) (w : Window) (a : ℕ), (s.dikeState = 3) ∧ (r.code ≠ CodeState.many) ∧ (r.kind = XsKind.read ∨ r.kind = XsKind.write) ∧ (s.windowAt r.addr.toNat = some (n, w)) ∧ (a = r.addr.toNat) ∧ (a + 32 * r.words ≤ w.base + w.size) ∧ (w.perm.testBit (if r.kind = XsKind.write then 1 else 0) = true) ∧ (s.dike.stalled = []) ∧ (w.rate ≠ 0) ∧ (max 1 (2 * min r.words w.burst) ≤ w.tokens) ∧ (s.inHub a (32 * r.words) = true) ∧ (r.kind = XsKind.write) ∧ (s.plainStore a (32 * r.words) = true) ∧ (s.memOk)) :=
  ⟨⟨wCommit, by decide +kernel⟩,
    ⟨wBadWin, by decide +kernel⟩,
    ⟨{ wXsReq with code := .many }, wXsLive, by decide +kernel⟩,
    ⟨{ wXsReq with kind := .reserved }, wXsLive, by decide +kernel⟩,
    ⟨wXsReq, wXsLive, by decide +kernel⟩,
    ⟨wXsFar, wWindows, 2, wWindow, hubBase + 4064, by decide +kernel⟩,
    ⟨wXsReq, wNoPerm, 2, { wWindow with perm := 0 }, hubBase, by decide +kernel⟩,
    ⟨wXsReq, wWindows, 2, wWindow, hubBase, by decide +kernel⟩,
    ⟨wXsReq, wNoTok, 2, { wWindow with tokens := 0 }, hubBase, by decide +kernel⟩,
    ⟨wXsReq, wStall, 2, wWindow, hubBase, [], by decide +kernel⟩,
    ⟨wXsReq, wWindows, 2, wWindow, hubBase, by decide +kernel⟩,
    ⟨wXsWr, wWindows, 2, wWindow, hubBase, by unfold State.memOk; decide +kernel⟩⟩

theorem test_meets_XsTraffic_2 :
    (∃ (r : XsReq) (off : ℕ) (s : State) (o : BitVec 12), (s.dikeState = 3) ∧ (r.code ≠ CodeState.many) ∧ (off % 4 = 0) ∧ (off = 32 ∨ off = 36 ∨ 64 ≤ off ∧ off < 128) ∧ (r.kind = XsKind.mailboxRead o) ∧ (o.toNat = off))
    ∧ (∃ (r : XsReq) (off : ℕ) (s : State) (o : BitVec 12) (v : Word), (s.dikeState = 3) ∧ (r.code ≠ CodeState.many) ∧ (off % 4 = 0) ∧ (off = 32 ∨ off = 36 ∨ 64 ≤ off ∧ off < 128) ∧ (r.kind = XsKind.mailboxWrite o v) ∧ (o.toNat = off) ∧ (36 ≤ off))
    ∧ (∃ (s : State) (acc : Sys2Proof.Acc) (s2 : State) (w : Word), (s.written pgXSLOT 32 acc = some (s2, w)) ∧ (BitVec.getLsbD w 0 = true) ∧ (s2.get F.XSLOT_STATUS_open = 1) ∧ (BitVec.getLsbD w 8 = false ∨ s2.get F.XSLOT_STATUS_x2h_valid = 0))
    ∧ (∃ (s : State) (acc : Sys2Proof.Acc) (s2 : State) (w : Word), (s.written pgXSLOT 32 acc = some (s2, w)) ∧ (BitVec.getLsbD w 0 = false) ∧ (BitVec.getLsbD w 8 = true) ∧ (s2.get F.XSLOT_STATUS_x2h_valid = 1))
    ∧ (∃ (s : State), (s.get F.XSLOT_STATUS_h2x_pending = 1))
    ∧ (∃ (s : State), (s.get F.XSLOT_STATUS_open = 1) ∧ (s.get F.XSLOT_STATUS_x2h_valid = 0))
    ∧ (∃ (s : State) (k : Fin 8) (acc : Sys2Proof.Acc) (s2 : State) (w : Word), (s.written pgXSLOT (64 + 4 * ↑k) acc = some (s2, w)) ∧ (acc.view = View.base)) :=
  ⟨⟨wXsMb (.mailboxRead 0x24#12), 0x24, wXsMail, 0x24#12, by decide +kernel⟩,
    ⟨wXsMb (.mailboxWrite 0x64#12 7#32), 0x64, wXsMail, 0x64#12, 7#32, by decide +kernel⟩,
    ⟨wMail0, (wAcc 1), (wWr wMail0 62 0x20 (wAcc 1)).1, (wWr wMail0 62 0x20 (wAcc 1)).2, by decide +kernel⟩,
    ⟨wMail, (wAcc 0x100), (wWr wMail 62 0x20 (wAcc 0x100)).1, (wWr wMail 62 0x20 (wAcc 0x100)).2, by decide +kernel⟩,
    ⟨wMail, by decide +kernel⟩,
    ⟨wMail0, by decide +kernel⟩,
    ⟨wMail, 3, (wAcc 0x123), (wWr wMail 62 0x4C (wAcc 0x123)).1, (wWr wMail 62 0x4C (wAcc 0x123)).2, by decide +kernel⟩⟩

theorem test_meets_RegisterAccess :
    (∃ (k : Fin 4) (acc : Sys2Proof.Acc) (s : State), (s.takesWrites 0 acc = true) ∧ (acc.be = 15#4) ∧ (tabFind s.armedBy 0 = none) ∧ ((s.cell 0 (112 + 4 * ↑k)).wrong = none))
    ∧ (∃ (req : Requester) (s : State), (s.answersPage 0 req = true) ∧ (s.get (F.BLK_STATUS_in_reset 0) = 0) ∧ ((s.cell 0 128).wrong = none))
    ∧ (∃ (req : Requester) (s : State) (v : View), (s.answersPage 0 req = true) ∧ (s.get (F.BLK_STATUS_in_reset 0) = 0) ∧ ((s.cell 0 128).wrong = none) ∧ (v ≠ View.base)) :=
  ⟨⟨2, (wAcc 0x55), wGen, by decide +kernel⟩,
    ⟨.host, ((wGen.put F.GEN_ACCESS_ERR_narrow 3).put F.GEN_ACCESS_ERR_unmapped 7), by decide +kernel⟩,
    ⟨.host, ((wGen.put F.GEN_ACCESS_ERR_narrow 3).put F.GEN_ACCESS_ERR_unmapped 7), View.clr, by decide +kernel⟩⟩

theorem test_meets_AliasesBehaveAlike :
    (∃ (r : PageRun), (r ∈ pageDir))
    ∧ (∃ (page : ℕ) (off : ℕ), ((pageRun page).isSome = true) ∧ (off ∈ [0, 4, 8, 12, 16, 20, 24, 28]))
    ∧ (∃ (page : BitVec 8) (off : BitVec 12) (off' : BitVec 12) (s : State) (acc : Sys2Proof.Acc), (pageIdent page.toNat off.toNat = pageIdent page.toNat off'.toNat))
    ∧ (∃ (page : BitVec 8) (off : BitVec 12) (off' : BitVec 12) (s : State) (v : View) (be : BitVec 4) (req : Requester), (pageIdent page.toNat off.toNat = pageIdent page.toNat off'.toNat)) :=
  ⟨⟨⟨.gen, 0, 1, 0x0, 0xFF⟩, by decide +kernel⟩,
    ⟨5, 8, by decide +kernel⟩,
    ⟨5, 0x100, 0x300, wGen, (wAcc 3), by decide +kernel⟩,
    ⟨5, 0x100, 0x300, wGen, .base, 0xF#4, .host, by decide +kernel⟩⟩

theorem test_meets_OffsetsWithoutRegister :
    (∃ (page : BitVec 8) (off : BitVec 12) (s : State) (v : View) (be : BitVec 4) (req : Requester), (regAt page.toNat (pageIdent page.toNat off.toNat) = none) ∧ (s.answersPage page.toNat req = true))
    ∧ (∃ (page : BitVec 8) (off : BitVec 12) (s : State) (acc : Sys2Proof.Acc), (regAt page.toNat (pageIdent page.toNat off.toNat) = none) ∧ (s.answersPage page.toNat acc.req = true) ∧ (cleanWrite acc = true) ∧ (page ≠ 57#8) ∧ (page ≠ 58#8)) :=
  ⟨⟨5, 0x0F0, (wOp 5 State.reset), View.base, 0xF#4, .host, by decide +kernel⟩,
    ⟨5, 0x1F0, (wOp 5 State.reset), ⟨.host, .set, 1, 3, false⟩, by decide +kernel⟩⟩

theorem test_meets_AccessesIgnored :
    (∃ (p : ℕ), (p < 256))
    ∧ (∃ (s : State) (p : ℕ), (128 ≤ p) ∧ (p < 224))
    ∧ (∃ (page : BitVec 8) (off : BitVec 12) (s : State) (v : View) (be : BitVec 4) (req : Requester), (s.hubOff = false) ∧ (s.pageUnmapped page.toNat = true) ∧ (req ≠ Requester.xs))
    ∧ (∃ (page : BitVec 8) (off : BitVec 12) (s : State) (acc : Sys2Proof.Acc), (s.hubOff = false) ∧ (s.pageUnmapped page.toNat = true) ∧ (acc.req ≠ Requester.xs) ∧ (cleanWrite acc = true) ∧ (acc.be = 15#4))
    ∧ (∃ (page : BitVec 8) (off : BitVec 12) (acc : Sys2Proof.Acc) (s : State), (s.answersPage page.toNat acc.req = true) ∧ (cleanWrite acc = true) ∧ (acc.be ≠ 15#4) ∧ (page ≠ 57#8) ∧ (page ≠ 58#8) ∧ ((regAt page.toNat (pageIdent page.toNat off.toNat)).isSome = true))
    ∧ (∃ (page : BitVec 8) (off : BitVec 12) (acc : Sys2Proof.Acc) (s : State), (s.hubOff = false) ∧ (acc.req = Requester.host) ∧ (acc.poisoned = true)) :=
  ⟨⟨5, by decide +kernel⟩,
    ⟨State.reset, 130, by decide +kernel⟩,
    ⟨130, 0, (wDie 0), View.base, 0xF#4, .host, by decide +kernel⟩,
    ⟨63, 0, wGen, (wAcc 0), by decide +kernel⟩,
    ⟨5, 0x20, ⟨.host, .base, 3#4, 1, false⟩, (wOp 5 State.reset), by decide +kernel⟩,
    ⟨5, 0x20, { wAcc 1 with poisoned := true }, wGen, by decide +kernel⟩⟩

theorem test_meets_ExpertLevel :
    (∃ (ident : ℕ), (ident ∈ [0, 4, 8, 12, 16, 20, 24, 28]))
    ∧ (∃ (page : BitVec 8) (off : BitVec 12) (acc : Sys2Proof.Acc) (s : State), (s.takesWrites page.toNat acc = true) ∧ (acc.be = 15#4) ∧ ((regAt page.toNat (pageIdent page.toNat off.toNat)).isSome = true) ∧ (isExpert (pageIdent page.toNat off.toNat) = true) ∧ (pageIdent page.toNat off.toNat ≠ 8) ∧ (s.get (F.BLK_LEVEL_expert page.toNat) = 0))
    ∧ (∃ (page : BitVec 8) (off : BitVec 12) (acc : Sys2Proof.Acc) (s : State), (s.takesWrites page.toNat acc = true) ∧ (acc.be = 15#4) ∧ ((regAt page.toNat (pageIdent page.toNat off.toNat)).isSome = true) ∧ (isExpert (pageIdent page.toNat off.toNat) = true) ∧ (pageIdent page.toNat off.toNat ≠ 8) ∧ (s.get (F.BLK_LEVEL_expert page.toNat) = 1))
    ∧ (∃ (page : BitVec 8) (off : BitVec 12) (acc : Sys2Proof.Acc) (s : State) (v : View) (be : BitVec 4) (req : Requester) (t : State) (u : State), (s.takesWrites page.toNat acc = true) ∧ (acc.be = 15#4) ∧ ((regAt page.toNat (pageIdent page.toNat off.toNat)).isSome = true) ∧ (isExpert (pageIdent page.toNat off.toNat) = true) ∧ (pageIdent page.toNat off.toNat ≠ 8) ∧ (exec (Instr.rcRead page off v be req) s = Host.Outcome.next t) ∧ (exec (Instr.rcRead page off v be req) (s.put (F.BLK_LEVEL_expert page.toNat) (1 - s.get (F.BLK_LEVEL_expert page.toNat))) = Host.Outcome.next u)) :=
  ⟨⟨0x1C, by decide +kernel⟩,
    ⟨5, 0x100, (wAcc 3), (wOp 5 State.reset), by decide +kernel⟩,
    ⟨5, 0x100, (wAcc 3), ((wOp 5 State.reset).put (F.BLK_LEVEL_expert 5) 1), by decide +kernel⟩,
    ⟨5, 0x100, (wAcc 3), (wOp 5 State.reset), .base, 0xF#4, .host, wExpT, wExpU, by refine ⟨?_, ?_, ?_, ?_, ?_, rfl, rfl⟩ <;> decide +kernel⟩⟩

theorem test_meets_UnlockSequence :
    (∃ (page : BitVec 8) (acc : Sys2Proof.Acc) (s : State), (s.takesWrites page.toNat acc = true) ∧ (acc.be = 15#4) ∧ (acc.view = View.base) ∧ (acc.val = 23130#32) ∧ (acc.req = Requester.host → s.get F.GEN_HOST_EXPERT_allow = 1))
    ∧ (∃ (page : BitVec 8) (acc : Sys2Proof.Acc) (s : State), (s.takesWrites page.toNat acc = true) ∧ (acc.be = 15#4) ∧ (acc.view = View.base) ∧ (acc.val = 42405#32) ∧ (tabFind s.armedBy page.toNat = some acc.req) ∧ (acc.req = Requester.host → s.get F.GEN_HOST_EXPERT_allow = 1))
    ∧ (∃ (page : BitVec 8) (acc : Sys2Proof.Acc) (s : State), (s.takesWrites page.toNat acc = true) ∧ (acc.be = 15#4) ∧ (acc.view = View.base) ∧ (acc.val = 23130#32 ∨ acc.val = 42405#32) ∧ (acc.req = Requester.host) ∧ (s.get F.GEN_HOST_EXPERT_allow = 0))
    ∧ (∃ (page : BitVec 8) (acc : Sys2Proof.Acc) (s : State), (s.takesWrites page.toNat acc = true) ∧ (acc.be = 15#4) ∧ (acc.view ≠ View.base ∨ acc.val ≠ 23130#32 ∧ acc.val ≠ 42405#32))
    ∧ (∃ (page : BitVec 8) (acc : Sys2Proof.Acc) (s : State), (tabFind s.armedBy page.toNat = some acc.req))
    ∧ (∃ (page : BitVec 8) (acc : Sys2Proof.Acc) (s : State) (off : BitVec 12), (s.takesWrites page.toNat acc = true) ∧ (pageIdent page.toNat off.toNat ≠ 8))
    ∧ (∃ (page : BitVec 8) (acc : Sys2Proof.Acc) (s : State), (s.takesWrites 0 acc = true) ∧ (acc.be = 15#4) ∧ (acc.view = View.base) ∧ (s.get (F.BLK_LEVEL_expert 0) = 1)) :=
  ⟨⟨5, (wAcc 0x5A5A), (wOp 5 wGen), by decide +kernel⟩,
    ⟨5, (wAcc 0xA5A5), wArmed, by decide +kernel⟩,
    ⟨5, (wAcc 0xA5A5), wNoHost, by decide +kernel⟩,
    ⟨5, (wAcc 3), wArmed, by decide +kernel⟩,
    ⟨5, (wAcc 0), wArmed, by decide +kernel⟩,
    ⟨5, (wAcc 0), wArmed, 0x100, by decide +kernel⟩,
    ⟨0, (wMgmt 0), wGenX, by decide +kernel⟩⟩

theorem test_meets_ScrubAndResets :
    (∃ (page : BitVec 8) (r : PageRun) (s : State), (pageRun page.toNat = some r))
    ∧ (∃ (s : State) (acc : Sys2Proof.Acc) (s2 : State) (w : Word), (s.written pgGEN 260 acc = some (s2, w)) ∧ (BitVec.getLsbD w 31 = true) ∧ (s2.blockResetNo (F.GEN_BLK_RESET_page.ext w) = true))
    ∧ (∃ (s : State) (acc : Sys2Proof.Acc) (s2 : State) (w : Word) (p : ℕ) (r : PageRun), (s.written pgGEN 260 acc = some (s2, w)) ∧ (BitVec.getLsbD w 31 = true) ∧ (s2.blockResetNo (F.GEN_BLK_RESET_page.ext w) = false) ∧ (F.GEN_BLK_RESET_page.ext w = p) ∧ (pageRun p = some r))
    ∧ (∃ (s : State), (s.pagesInReset ≠ []))
    ∧ (∃ (s : State) (acc : Sys2Proof.Acc) (s2 : State) (w : Word), (s.written pgGEN 96 acc = some (s2, w)) ∧ (BitVec.getLsbD w 0 = true)) :=
  ⟨⟨5, ⟨.disc, 5, 1, 0x5, 0x7F⟩, wScrub, by decide +kernel⟩,
    ⟨wGenX, (wAcc 0x80000000), (wWr wGenX 0 0x104 (wAcc 0x80000000)).1, (wWr wGenX 0 0x104 (wAcc 0x80000000)).2, by decide +kernel⟩,
    ⟨wDiscX, (wAcc 0x80000005), (wWr wDiscX 0 0x104 (wAcc 0x80000005)).1, (wWr wDiscX 0 0x104 (wAcc 0x80000005)).2, 5, ⟨.disc, 5, 1, 0x5, 0x7F⟩, by decide +kernel⟩,
    ⟨State.reset, by decide +kernel⟩,
    ⟨wGenUp, (wAcc 1), (wWr wGenUp 0 0x60 (wAcc 1)).1, (wWr wGenUp 0 0x60 (wAcc 1)).2, by decide +kernel⟩⟩

theorem test_meets_RouteOnlyWidens : ∃ (page : BitVec 8) (r : PageRun) (acc : Sys2Proof.Acc) (s : State) (t : State), (pageRun page.toNat = some r) ∧ (s.regWord page.toNat 28 &&& (BitVec.ofNat 32 (faultRouteReset r.blk) &&& 3276799#32) = BitVec.ofNat 32 (faultRouteReset r.blk) &&& 3276799#32) ∧ ((F.BLK_FAULT_ROUTE_severity 0).ext (BitVec.ofNat 32 (faultRouteReset r.blk)) ≤ s.get (F.BLK_FAULT_ROUTE_severity page.toNat)) ∧ (exec (Instr.registerWrite page (28#12) acc) s = Host.Outcome.next t) :=
  ⟨5#8, ⟨.disc, 5, 1, 0x5, 0x7F⟩, wAcc 0, wOp 5 State.reset, (wOp 5 State.reset).writeReg 5 0x1C (wAcc 0), by refine ⟨?_, ?_, ?_, rfl⟩ <;> decide +kernel⟩

theorem test_meets_StackLimits :
    (∃ (d : Fin 4) (temps : List (Option ℤ)) (s : State), (s.cdState ↑d ≠ 0) ∧ (s.cdState ↑d ≠ 1))
    ∧ (∃ (d : Fin 4) (temps : List (Option ℤ)) (s : State), (s.cdState ↑d = 0 ∨ s.cdState ↑d = 1))
    ∧ (∃ (n : Fin 4) (acc : Sys2Proof.Acc) (s : State) (k : Fin 3), (acc.view = View.base) ∧ (acc.be = 15#4) ∧ (s.takesWrites (pgST ↑n) acc = true) ∧ (s.get (F.BLK_LEVEL_expert (pgST ↑n)) = 1))
    ∧ (∃ (n : Fin 4) (acc : Sys2Proof.Acc) (s : State), (acc.view = View.base) ∧ (acc.be = 15#4) ∧ (s.takesWrites (pgST ↑n) acc = true) ∧ (s.get (F.BLK_LEVEL_expert (pgST ↑n)) = 1))
    ∧ (∃ (n : Fin 4) (acc : Sys2Proof.Acc) (s : State), (acc.view = View.base) ∧ (acc.be = 15#4) ∧ (s.takesWrites (pgCD ↑n) acc = true) ∧ (s.get F.PWR_SERVICE_level ≠ 1) ∧ (tabFind s.pwr.dips ↑n = none)) :=
  ⟨⟨0, (wTemps 1900), wRun, by decide +kernel⟩,
    ⟨1, [], wRun, by decide +kernel⟩,
    ⟨0, (wAcc 115), wStX, 1, by decide +kernel⟩,
    ⟨0, (wAcc 12), wStX, by decide +kernel⟩,
    ⟨0, (wAcc 0x20), wCdOn, by decide +kernel⟩⟩

theorem test_meets_SeqControl :
    (∃ (n : Arr) (s : State), (s.issues (arrNum n) 0 = true) ∧ (s.sound (arrNum n) (s.nextPc (arrNum n)) = true))
    ∧ (∃ (n : Arr) (s : State), (s.issues (arrNum n) 2 = true) ∧ (s.sound (arrNum n) (s.insn (arrNum n)).target = true))
    ∧ (∃ (n : Arr) (s : State), (s.issues (arrNum n) 3 = true) ∧ (s.sound (arrNum n) (if (s.arr (arrNum n)).operand (s.insn (arrNum n)).a = 0 then (s.insn (arrNum n)).target else s.nextPc (arrNum n)) = true))
    ∧ (∃ (n : Arr) (s : State), (s.issues (arrNum n) 4 = true) ∧ (s.sound (arrNum n) (if (s.arr (arrNum n)).operand (s.insn (arrNum n)).a = 0 then s.nextPc (arrNum n) else (s.insn (arrNum n)).target) = true))
    ∧ (∃ (n : Arr) (s : State), (s.issues (arrNum n) 5 = true) ∧ (refReg (s.insn (arrNum n)).a ≠ 0) ∧ (s.sound (arrNum n) (if (s.arr (arrNum n)).operand (s.insn (arrNum n)).a = 1 then s.nextPc (arrNum n) else (s.insn (arrNum n)).target) = true))
    ∧ (∃ (n : Arr) (s : State), (s.issues (arrNum n) 6 = true) ∧ ((s.arr (arrNum n)).stack.length < 8) ∧ (s.sound (arrNum n) (s.insn (arrNum n)).target = true))
    ∧ (∃ (n : Arr) (s : State) (pc : ℕ) (rest : List ℕ), (s.issues (arrNum n) 7 = true) ∧ ((s.arr (arrNum n)).stack = pc :: rest) ∧ (s.sound (arrNum n) pc = true))
    ∧ (∃ (n : Arr) (s : State), (s.issues (arrNum n) 1 = true) ∧ (s.drained (arrNum n) = true)) :=
  ⟨⟨wA0, (wSeq (wIns 0x00 0 0 wNo wNo wNo wNo)), by decide +kernel⟩,
    ⟨wA0, (wSeq (wIns 0x02 0 2 wNo wNo wNo wNo)), by decide +kernel⟩,
    ⟨wA0, (wSeq (wIns 0x03 0 2 wNo wNo (wS 1) wNo)), by decide +kernel⟩,
    ⟨wA0, (wSeq (wIns 0x04 0 2 wNo wNo (wS 1) wNo)), by decide +kernel⟩,
    ⟨wA0, (wSeqA (wIns 0x05 0 2 wNo wNo (wS 1) wNo) (wReg1 3)), by decide +kernel⟩,
    ⟨wA0, (wSeq (wIns 0x06 0 2 wNo wNo wNo wNo)), by decide +kernel⟩,
    ⟨wA0, (wSeqA (wIns 0x07 0 0 wNo wNo wNo wNo) fun a => { a with stack := [2] }), 2, [], by decide +kernel⟩,
    ⟨wA0, (wSeq (wIns 0x01 0 0 wNo wNo wNo wNo)), by decide +kernel⟩⟩

theorem test_meets_SeqScalars :
    (∃ (n : Arr) (s : State), (s.sound (arrNum n) (s.nextPc (arrNum n)) = true) ∧ (s.issues (arrNum n) 8 = true))
    ∧ (∃ (n : Arr) (s : State), (s.sound (arrNum n) (s.nextPc (arrNum n)) = true) ∧ (s.issues (arrNum n) 9 = true))
    ∧ (∃ (n : Arr) (s : State), (s.sound (arrNum n) (s.nextPc (arrNum n)) = true) ∧ (s.issues (arrNum n) 10 = true))
    ∧ (∃ (n : Arr) (s : State), (s.sound (arrNum n) (s.nextPc (arrNum n)) = true) ∧ (s.issues (arrNum n) 11 = true))
    ∧ (∃ (n : Arr) (s : State), (s.sound (arrNum n) (s.nextPc (arrNum n)) = true) ∧ (s.issues (arrNum n) 12 = true))
    ∧ (∃ (n : Arr) (s : State), (s.sound (arrNum n) (s.nextPc (arrNum n)) = true) ∧ (s.issues (arrNum n) 13 = true) ∧ (fieldAt ((s.arr (arrNum n)).td (s.insn (arrNum n)).a) 0 1 = 0))
    ∧ (∃ (n : Arr) (s : State) (f : ℕ × ℕ), (s.sound (arrNum n) (s.nextPc (arrNum n)) = true) ∧ (s.issues (arrNum n) 13 = true) ∧ (fieldAt ((s.arr (arrNum n)).td (s.insn (arrNum n)).a) 0 1 ≠ 0) ∧ (tdField (fieldAt ((s.arr (arrNum n)).td (s.insn (arrNum n)).a) 0 1) (s.insn (arrNum n)).imm = some f))
    ∧ (∃ (n : Arr) (s : State), (s.sound (arrNum n) (s.nextPc (arrNum n)) = true) ∧ (s.issues (arrNum n) 27 = true))
    ∧ (∃ (n : Arr) (s : State), (s.sound (arrNum n) (s.nextPc (arrNum n)) = true) ∧ (s.issues (arrNum n) 241 = true))
    ∧ (∃ (n : Arr) (s : State), (s.sound (arrNum n) (s.nextPc (arrNum n)) = true) ∧ (s.issues (arrNum n) 240 = true)) :=
  ⟨⟨wA0, (wSeq (wIns 0x08 0 77 wNo wNo wNo (wS 1))), by decide +kernel⟩,
    ⟨wA0, (wSeqA (wIns 0x09 0 77 wNo wNo wNo (wS 1)) (wReg1 3)), by decide +kernel⟩,
    ⟨wA0, (wSeqA (wIns 0x0A 0 0xFFFFFFFF wNo wNo (wS 1) (wS 2)) (wReg1 3)), by decide +kernel⟩,
    ⟨wA0, (wSeqA (wIns 0x0B 0 0 wNo (wS 1) (wS 2) (wS 2)) (wReg1 3)), by decide +kernel⟩,
    ⟨wA0, (wSeqA (wIns 0x0C 0 0xFFFFFFFF wNo wNo (wS 1) (wS 2)) (wReg1 3)), by decide +kernel⟩,
    ⟨wA0, (wSeq (wIns 0x0D 0 1 wNo wNo 0xA000 (wS 2))), by decide +kernel⟩,
    ⟨wA0, (wSeqA (wIns 0x0D 0 1 wNo wNo 0xA000 (wS 2)) wTd1), (1, 1), by decide +kernel⟩,
    ⟨wA0, (wSeq (wIns 0x1B 1 0 wNo wNo wNo (wS 2))), by decide +kernel⟩,
    ⟨wA0, (wAllowN (wSeq (wIns 0xF1 0 0 wNo wNo wNo (wS 2)))), by decide +kernel⟩,
    ⟨wA0, (wAllowN (wSeq (wIns 0xF0 0 0 wNo wNo wNo (wS 2)))), by decide +kernel⟩⟩

theorem test_meets_SeqWaitsAndDiagnostics_1 :
    (∃ (n : Arr) (s : State), (s.issues (arrNum n) 16 = true))
    ∧ (∃ (n : Arr) (s : State), (s.issues (arrNum n) 17 = true))
    ∧ (∃ (n : Arr) (s : State), (s.issues (arrNum n) 18 = true))
    ∧ (∃ (n : Arr) (s : State), (s.issues (arrNum n) 19 = true))
    ∧ (∃ (n : Arr) (s : State), (s.issues (arrNum n) 22 = true))
    ∧ (∃ (n : Arr) (s : State), (s.issues (arrNum n) 24 = true) ∧ (s.rowCounter ((s.arr (arrNum n)).operand (s.insn (arrNum n)).a) = true))
    ∧ (∃ (n : Arr) (s : State), (s.issues (arrNum n) 25 = true) ∧ (s.rowCounter ((s.arr (arrNum n)).operand (s.insn (arrNum n)).a) = true) ∧ (s.get (F.ARR_STATE_exact (arrNum n)) = 1))
    ∧ (∃ (n : Arr) (s : State), (s.issues (arrNum n) 21 = true) ∧ (s.drained (arrNum n) = true) ∧ (s.fence (refObj (s.insn (arrNum n)).c) + 1 < 2 ^ 64) ∧ (0 < (s.insn (arrNum n)).imm % 65536) ∧ ((s.insn (arrNum n)).imm % 65536 ≤ (Option.map Job.slotCount (s.arrJob (arrNum n))).getD 1))
    ∧ (∃ (n : Arr) (s : State) (j : Job), (s.issues (arrNum n) 20 = true) ∧ (s.drained (arrNum n) = true) ∧ (s.arrJob (arrNum n) = some j) ∧ (0 < (s.insn (arrNum n)).imm / 65536) ∧ ((s.insn (arrNum n)).imm / 65536 ≤ j.slotsOn ↑n.die))
    ∧ (∃ (n : Arr) (s : State) (o : ℕ) (v : ℕ), (s.get (F.ARR_STATE_state (arrNum n)) = 1) ∧ (s.sound (arrNum n) (s.nextPc (arrNum n)) = true) ∧ ((s.arr (arrNum n)).wait = ArrWait.obj o v) ∧ (v ≤ s.fence o))
    ∧ (∃ (n : Arr) (s : State) (o : ℕ) (v : ℕ), (s.get (F.ARR_STATE_state (arrNum n)) = 1) ∧ (s.sound (arrNum n) (s.nextPc (arrNum n)) = true) ∧ ((s.arr (arrNum n)).wait = ArrWait.barP o v) ∧ (v ≤ s.fence o))
    ∧ (∃ (n : Arr) (s : State) (c : ℕ) (v : ℕ) (j : Job), (s.get (F.ARR_STATE_state (arrNum n)) = 1) ∧ (s.sound (arrNum n) (s.nextPc (arrNum n)) = true) ∧ ((s.arr (arrNum n)).wait = ArrWait.barD c v) ∧ (s.arrJob (arrNum n) = some j) ∧ (v ≤ tabGet j.bars c 0)) :=
  ⟨⟨wA0, (wSeq (wIns 0x10 0 0 wNo wNo wNo wNo)), by decide +kernel⟩,
    ⟨wA0, (wSeq (wIns 0x11 0 0 wNo wNo wNo wNo)), by decide +kernel⟩,
    ⟨wA0, (wSeq (wIns 0x12 0 0 wNo wNo wNo wNo)), by decide +kernel⟩,
    ⟨wA0, (wSeq (wIns 0x13 0 0 wNo wNo wNo wNo)), by decide +kernel⟩,
    ⟨wA0, (wSeqA (wIns 0x16 0 0 0xC005 wNo (wS 1) wNo) (wReg1 9)), by decide +kernel⟩,
    ⟨wA0, (wSeqA (wIns 0x18 0 0 wNo (wS 2) (wS 1) wNo) (wReg1 (poolBase 0))), by decide +kernel⟩,
    ⟨wA0, (wExact (wSeqA (wIns 0x19 0 2 (wS 3) (wS 2) (wS 1) wNo) (wReg1 (poolBase 0)))), by decide +kernel⟩,
    ⟨wA0, (wSeq (wIns 0x15 0 2 0xC005 wNo wNo wNo)), by decide +kernel⟩,
    ⟨wA0, (wSeq (wIns 0x14 0 0x10003 wNo wNo wNo wNo)), wJob, by decide +kernel⟩,
    ⟨wA0, (wWaitFor (.obj 5 0)), 5, 0, by decide +kernel⟩,
    ⟨wA0, (wWaitFor (.barP 5 0)), 5, 0, by decide +kernel⟩,
    ⟨wA0, (wWaitFor (.barD 5 0)), 5, 0, wJob, by decide +kernel⟩⟩

theorem test_meets_SeqWaitsAndDiagnostics_2 :
    (∃ (n : Arr) (s : State) (addr : ℕ) (row : ℕ), (s.get (F.ARR_STATE_state (arrNum n)) = 1) ∧ (s.sound (arrNum n) (s.nextPc (arrNum n)) = true) ∧ ((s.arr (arrNum n)).wait = ArrWait.row addr row) ∧ (s.storeAt addr = true) ∧ (tabFind s.cond (s.place addr / 32) = none) ∧ (s.spilled = []) ∧ (addr % 8 = 0) ∧ (row ≤ s.peekNat addr 8))
    ∧ (∃ (n : Arr) (s : State) (addr : ℕ) (row : ℕ) (limit : ℕ) (target : ℕ), (s.get (F.ARR_STATE_state (arrNum n)) = 1) ∧ ((s.arr (arrNum n)).wait = ArrWait.rowT addr row limit target) ∧ (s.sound (arrNum n) target = true) ∧ (s.poisonedAt addr 8 = false) ∧ (s.peekNat addr 8 < row))
    ∧ (∃ (n : Arr) (s : State), (s.issues (arrNum n) 26 = true) ∧ (s.drained (arrNum n) = true) ∧ (s.rowCounter ((s.arr (arrNum n)).operand (s.insn (arrNum n)).a) = true) ∧ (s.region ((s.arr (arrNum n)).operand (s.insn (arrNum n)).a) = Region.pool ↑n.die) ∧ (s.sound (arrNum n) (s.nextPc (arrNum n)) = true) ∧ (s.cond = []) ∧ (s.spilled = []) ∧ (s.peekNat ((s.arr (arrNum n)).operand (s.insn (arrNum n)).a) 8 ≤ (s.arr (arrNum n)).operand (s.insn (arrNum n)).b))
    ∧ (∃ (n : Arr) (s : State), (s.issues (arrNum n) 26 = true) ∧ (s.drained (arrNum n) = true) ∧ (s.rowCounter ((s.arr (arrNum n)).operand (s.insn (arrNum n)).a) = true) ∧ (s.region ((s.arr (arrNum n)).operand (s.insn (arrNum n)).a) = Region.pool ↑n.die) ∧ (s.sound (arrNum n) (s.nextPc (arrNum n)) = true) ∧ (s.cond = []) ∧ (s.spilled = []) ∧ ((s.arr (arrNum n)).operand (s.insn (arrNum n)).b < s.peekNat ((s.arr (arrNum n)).operand (s.insn (arrNum n)).a) 8))
    ∧ (∃ (n : Arr) (s : State), (s.sound (arrNum n) (s.nextPc (arrNum n)) = true) ∧ (s.issues (arrNum n) 243 = true) ∧ (lbFits ((s.arr (arrNum n)).lbWord (s.insn (arrNum n)).a) (s.insn (arrNum n)).imm = true) ∧ ((s.arr (arrNum n)).flights = []) ∧ ((s.arr (arrNum n)).lbCond = []))
    ∧ (∃ (n : Arr) (s : State) (j : Job), (s.sound (arrNum n) (s.nextPc (arrNum n)) = true) ∧ (s.issues (arrNum n) 242 = true) ∧ (lbFits ((s.arr (arrNum n)).lbWord (s.insn (arrNum n)).a) (s.insn (arrNum n)).imm = true) ∧ ((s.arr (arrNum n)).flights = []) ∧ ((s.arr (arrNum n)).lbCond = []) ∧ (s.arrJob (arrNum n) = some j))
    ∧ (∃ (n : Arr) (s : State), (s.sound (arrNum n) (s.nextPc (arrNum n)) = true) ∧ (s.issues (arrNum n) 244 = true) ∧ ((s.get F.SEC_DEBUG_STATE_scope).testBit 4 = false))
    ∧ (∃ (n : Arr) (s : State), (s.sound (arrNum n) (s.nextPc (arrNum n)) = true) ∧ (s.issues (arrNum n) 244 = true) ∧ ((s.get F.SEC_DEBUG_STATE_scope).testBit 4 = true) ∧ (∀ (j : Job), s.arrJob (arrNum n) = some j → j.safety = false)) :=
  ⟨⟨wA0, (wWaitFor (.row (poolBase 0) 0)), (poolBase 0), 0, by decide +kernel⟩,
    ⟨wA0, (wWaitFor (.rowT (poolBase 0) 3 100 2)), (poolBase 0), 3, 100, 2, by decide +kernel⟩,
    ⟨wA0, (wSeqA (wIns 0x1A 0 0 wNo (wS 2) (wS 1) wNo) (wReg1 (poolBase 0))), by decide +kernel⟩,
    ⟨wA0, { (wSeqA (wIns 0x1A 0 0 wNo (wS 2) (wS 1) wNo) (wReg1 (poolBase 0))) with mem := [(poolBase 0, 9#8)] }, by decide +kernel⟩,
    ⟨wA0, (wSeq (wIns 0xF3 0 2 wNo wNo 0 (wS 2))), by decide +kernel⟩,
    ⟨wA0, (wSeq (wIns 0xF2 0 2 wNo wNo 0 wNo)), wJob, by decide +kernel⟩,
    ⟨wA0, (wSeq (wIns 0xF4 0 0 wNo wNo wNo wNo)), by decide +kernel⟩,
    ⟨wA0, (wDebug (wSeq (wIns 0xF4 0 0 wNo wNo wNo wNo))), by decide +kernel⟩⟩

theorem test_meets_SeqRefused : ∃ (n : Arr) (s : State) (op : ℕ) (c : Instr), ((op, c) ∈ [(0, Instr.nop n), (1, Instr.endSlot n), (2, Instr.jmp n), (3, Instr.brz n), (4, Instr.brnz n), (5, Instr.loop n), (6, Instr.call n), (7, Instr.ret n), (8, Instr.sli n), (9, Instr.slih n), (10, Instr.sadd n), (11, Instr.ssub n), (12, Instr.smul n), (13, Instr.sget n), (16, Instr.fenceA n), (17, Instr.fenceD n), (18, Instr.fenceP n), (19, Instr.fenceX n), (20, Instr.barD n), (21, Instr.barP n), (22, Instr.fwait n), (24, Instr.rowwait n), (25, Instr.rowwaitT n), (26, Instr.rowpub n), (27, Instr.rdslot n), (240, Instr.rdcyc n), (241, Instr.rdid n), (242, Instr.ckdig n), (243, Instr.lbsig n), (244, Instr.brk n)]) ∧ (s.due (arrNum n) op = true) ∧ (s.issueCause (arrNum n) (s.insn (arrNum n)) ≠ 0) :=
  ⟨wA0, (wSeq (wIns 0x0A 1 0 wNo wNo wNo wNo)), 0x0A, (.sadd wA0), by decide +kernel⟩

theorem test_meets_VectorOps_1 :
    (∃ (n : Arr) (s : State) (op : ℕ) (c : Instr) (f : ℕ → ℕ → Machine.Num), (s.sound (arrNum n) (s.nextPc (arrNum n)) = true) ∧ ((op, c, f) ∈ [(64, Instr.vadd n, f32add), (65, Instr.vsub n, f32sub), (66, Instr.vmul n, f32mul), (68, Instr.vdiv n, f32div), (70, Instr.vmin n, f32min), (71, Instr.vmax n, f32max), (72, Instr.vcmp n, cmpNum ((s.insn (arrNum n)).mod % 8)), (80, Instr.viadd n, fun (p q : ℕ) => (⟨(p + q) % 2 ^ 32, 0⟩ : Machine.Num)), (81, Instr.vsh n, shiftNum), (82, Instr.vand n, fun (p q : ℕ) => (⟨p &&& q, 0⟩ : Machine.Num)), (83, Instr.vor n, fun (p q : ℕ) => (⟨p ||| q, 0⟩ : Machine.Num))]) ∧ (s.issues (arrNum n) op = true) ∧ (s.admits (arrNum n) (((s.arr (arrNum n)).vecA (s.insn (arrNum n)) 32).2 ++ ((s.arr (arrNum n)).vecB (s.insn (arrNum n))).2) [((s.arr (arrNum n)).lbWord (s.insn (arrNum n)).d, elemWords (List.map (fun (e : Elt × Elt) => (f e.1.1 e.2.1, e.1.2 || e.2.2)) (((s.arr (arrNum n)).vecA (s.insn (arrNum n)) 32).1.zip ((s.arr (arrNum n)).vecB (s.insn (arrNum n))).1)).length 32)] = true))
    ∧ (∃ (n : Arr) (s : State) (op : ℕ) (c : Instr) (f : ℕ → ℕ → ℕ → Machine.Num), (s.sound (arrNum n) (s.nextPc (arrNum n)) = true) ∧ ((op, c, f) ∈ [(67, Instr.vfma n, f32fma), (73, Instr.vsel n, fun (p q r : ℕ) => (⟨if r = 0 then q else p, 0⟩ : Machine.Num))]) ∧ (s.issues (arrNum n) op = true) ∧ (s.admits (arrNum n) (((s.arr (arrNum n)).vecA (s.insn (arrNum n)) 32).2 ++ ((s.arr (arrNum n)).vecB (s.insn (arrNum n))).2 ++ ((s.arr (arrNum n)).vecReuse (s.insn (arrNum n)) (s.insn (arrNum n)).c).2) [((s.arr (arrNum n)).lbWord (s.insn (arrNum n)).d, elemWords (List.map (fun (e : Elt × Elt × Elt) => (f e.1.1 e.2.1.1 e.2.2.1, e.1.2 || e.2.1.2 || e.2.2.2)) (((s.arr (arrNum n)).vecA (s.insn (arrNum n)) 32).1.zip (((s.arr (arrNum n)).vecB (s.insn (arrNum n))).1.zip ((s.arr (arrNum n)).vecReuse (s.insn (arrNum n)) (s.insn (arrNum n)).c).1))).length 32)] = true))
    ∧ (∃ (n : Arr) (s : State), (s.sound (arrNum n) (s.nextPc (arrNum n)) = true) ∧ (s.issues (arrNum n) 69 = true) ∧ (s.admits (arrNum n) ((s.arr (arrNum n)).vecA (s.insn (arrNum n)) 32).2 [((s.arr (arrNum n)).lbWord (s.insn (arrNum n)).d, elemWords (List.map (fun (e : Elt) => (f32sqrt e.1, e.2)) ((s.arr (arrNum n)).vecA (s.insn (arrNum n)) 32).1).length 32)] = true))
    ∧ (∃ (n : Arr) (s : State), (s.sound (arrNum n) (s.nextPc (arrNum n)) = true) ∧ (s.issues (arrNum n) 84 = true) ∧ (s.admits (arrNum n) ((s.arr (arrNum n)).vecA (s.insn (arrNum n)) (fmtWidth (s.insn (arrNum n)).fa)).2 [((s.arr (arrNum n)).lbWord (s.insn (arrNum n)).d, elemWords (List.map (fun (e : Elt) => (convert (s.insn (arrNum n)).fo (s.insn (arrNum n)).sat (fmtVal (s.insn (arrNum n)).fa e.1), e.2)) ((s.arr (arrNum n)).vecA (s.insn (arrNum n)) (fmtWidth (s.insn (arrNum n)).fa)).1).length (fmtWidth (s.insn (arrNum n)).fo))] = true))
    ∧ (∃ (n : Arr) (s : State) (op : ℕ) (c : Instr) (f : List ℕ → Machine.Num), (s.sound (arrNum n) (s.nextPc (arrNum n)) = true) ∧ ((op, c, f) ∈ [(86, Instr.vredsum n, laneSum), (87, Instr.vredmax n, laneMax)]) ∧ (s.issues (arrNum n) op = true) ∧ (s.admits (arrNum n) ((s.arr (arrNum n)).vecA (s.insn (arrNum n)) 32).2 [((s.arr (arrNum n)).lbWord (s.insn (arrNum n)).d, elemWords (List.map (fun (g : List Elt) => (f (List.map (fun (x : Elt) => x.1) g), g.any fun (x : Elt) => x.2)) (groupsOf 256 (s.insn (arrNum n)).imm ((s.arr (arrNum n)).vecA (s.insn (arrNum n)) 32).1)).length 32)] = true))
    ∧ (∃ (n : Arr) (s : State), (s.sound (arrNum n) (s.nextPc (arrNum n)) = true) ∧ (s.issues (arrNum n) 98 = true) ∧ (s.admits (arrNum n) ((s.arr (arrNum n)).vecA (s.insn (arrNum n)) (fmtWidth (s.insn (arrNum n)).fa)).2 [((s.arr (arrNum n)).lbWord (s.insn (arrNum n)).d, elemWords (List.map (fun (e : Elt) => ((⟨e.1, 0⟩ : Machine.Num), e.2)) ((s.arr (arrNum n)).vecA (s.insn (arrNum n)) (fmtWidth (s.insn (arrNum n)).fa)).1).length (fmtWidth (s.insn (arrNum n)).fo))] = true))
    ∧ (∃ (n : Arr) (s : State), (s.sound (arrNum n) (s.nextPc (arrNum n)) = true) ∧ (s.issues (arrNum n) 99 = true) ∧ (s.admits (arrNum n) ((s.arr (arrNum n)).vecA (s.insn (arrNum n)) (fmtWidth (s.insn (arrNum n)).fa)).2 [((s.arr (arrNum n)).lbWord (s.insn (arrNum n)).d, elemWords (List.map (fun (e : Elt) => ((⟨if (s.insn (arrNum n)).fa = 2 ∧ 8 ≤ e.1 then e.1 + 240 else e.1, 0⟩ : Machine.Num), e.2)) ((s.arr (arrNum n)).vecA (s.insn (arrNum n)) (fmtWidth (s.insn (arrNum n)).fa)).1).length 8)] = true))
    ∧ (∃ (n : Arr) (s : State), (s.sound (arrNum n) (s.nextPc (arrNum n)) = true) ∧ (s.issues (arrNum n) 96 = true) ∧ (s.admits (arrNum n) [((s.arr (arrNum n)).lbWord (s.insn (arrNum n)).a, elemWords ((s.insn (arrNum n)).imm % 65536 * ((s.insn (arrNum n)).imm / 65536)) 32)] [((s.arr (arrNum n)).lbWord (s.insn (arrNum n)).d, elemWords (List.flatMap (fun (c : ℕ) => List.map (fun (r : ℕ) => have e := ((s.arr (arrNum n)).elems ((s.arr (arrNum n)).lbWord (s.insn (arrNum n)).a) 32 0 ((s.insn (arrNum n)).imm % 65536 * ((s.insn (arrNum n)).imm / 65536))).getD (r * ((s.insn (arrNum n)).imm / 65536) + c) (0, false); ((⟨e.1, 0⟩ : Machine.Num), e.2)) (List.range ((s.insn (arrNum n)).imm % 65536))) (List.range ((s.insn (arrNum n)).imm / 65536))).length 32)] = true))
    ∧ (∃ (n : Arr) (s : State) (ix : List ℕ), (s.sound (arrNum n) (s.nextPc (arrNum n)) = true) ∧ (s.issues (arrNum n) 97 = true) ∧ ((s.arr (arrNum n)).elems ((s.arr (arrNum n)).lbWord (s.insn (arrNum n)).b) 32 0 (s.insn (arrNum n)).imm = List.map (fun (x : ℕ) => (x, false)) ix) ∧ (lbFits ((s.arr (arrNum n)).lbWord (s.insn (arrNum n)).b) (elemWords (s.insn (arrNum n)).imm 32) = true) ∧ (∀ j ∈ ix, (s.arr (arrNum n)).lbWord (s.insn (arrNum n)).a + j / 8 < 32768) ∧ (s.admits (arrNum n) [(0, 32768)] [((s.arr (arrNum n)).lbWord (s.insn (arrNum n)).d, elemWords (List.map (fun (j : ℕ) => have e := ((s.arr (arrNum n)).elems ((s.arr (arrNum n)).lbWord (s.insn (arrNum n)).a) 32 j 1).getD 0 (0, false); ((⟨e.1, 0⟩ : Machine.Num), e.2)) ix).length 32)] = true)) :=
  ⟨⟨wA0, (wSeqA (wIns 0x40 0 3 wNo 0 0 8) (wLb [0#8,0#8,128#8,63#8])), 0x40, (.vadd wA0), f32add, ⟨by decide +kernel, .head _, by decide +kernel⟩⟩,
    ⟨wA0, (wSeqA (wIns 0x43 0 3 2 0 0 8) (wReg1 5)), 0x43, (.vfma wA0), f32fma, ⟨by decide +kernel, .head _, by decide +kernel⟩⟩,
    ⟨wA0, (wSeqA (wIns 0x45 0 3 wNo wNo 0 8) (wLb [0#8,0#8,128#8,63#8])), by decide +kernel⟩,
    ⟨wA0, (wSeqA (wInsF 0x54 12 0 10 0 3 wNo wNo 0 8) (wLb [0#8,0#8,128#8,63#8])), by decide +kernel⟩,
    ⟨wA0, (wSeqA (wIns 0x56 0 300 wNo wNo 0 200) (wLb [0#8,0#8,128#8,63#8])), 0x56, (.vredsum wA0), laneSum, ⟨by decide +kernel, .head _, by decide +kernel⟩⟩,
    ⟨wA0, (wSeqA (wInsF 0x62 0 0 2 0 3 wNo wNo 0 8) (wLb [7#8,5#8,3#8,63#8])), by decide +kernel⟩,
    ⟨wA0, (wSeqA (wInsF 0x63 2 0 0 0 5 wNo wNo 0 8) (wLb [0xF7#8,0x59#8,3#8,63#8])), by decide +kernel⟩,
    ⟨wA0, (wSeqA (wIns 0x60 0 0x30002 wNo wNo 0 8) (wLb [7#8,5#8,3#8,63#8])), by decide +kernel⟩,
    ⟨wA0, (wSeqA (wIns 0x61 0 2 wNo 4 0 8) (wLb [7#8,5#8,3#8,63#8])), [0, 0], by decide +kernel⟩⟩

theorem test_meets_VectorOps_2 : ∃ (n : Arr) (s : State), (s.sound (arrNum n) (s.nextPc (arrNum n)) = true) ∧ (s.issues (arrNum n) 85 = true) ∧ (s.admits (arrNum n) ((s.arr (arrNum n)).vecA (s.insn (arrNum n)) 32).2 [((s.arr (arrNum n)).lbWord (s.insn (arrNum n)).d, elemWords (List.flatMap (fun (g : (ℕ × List ℕ × ℕ) × Bool) => List.map (fun (v : ℕ) => ((⟨v, if g.2 = true then 0 else g.1.2.2⟩ : Machine.Num), g.2)) g.1.2.1) (List.map (fun (g : List Elt) => (mxBlock (s.insn (arrNum n)).fo (List.map (fun (e : Elt) => f32v e.1) g), g.any fun (x : Elt) => x.2)) (groupsOf 32 (s.insn (arrNum n)).imm ((s.arr (arrNum n)).vecA (s.insn (arrNum n)) 32).1))).length (fmtWidth (s.insn (arrNum n)).fo)), ((s.arr (arrNum n)).lbWord (s.insn (arrNum n)).c, elemWords (List.map (fun (g : List Elt) => (mxBlock (s.insn (arrNum n)).fo (List.map (fun (e : Elt) => f32v e.1) g), g.any fun (x : Elt) => x.2)) (groupsOf 32 (s.insn (arrNum n)).imm ((s.arr (arrNum n)).vecA (s.insn (arrNum n)) 32).1)).length 8)] = true) :=
  ⟨wA0, (wSeqA (wInsF 0x55 12 0 7 0 32 40 wNo 0 8) (wLb [0#8,0#8,128#8,63#8])), by decide +kernel⟩

theorem test_meets_FastApproximations :
    (∃ (n : Arr) (s : State) (op : ℕ) (c : Instr) (f : ℕ → ℕ → Machine.Num), ((op, c, f) ∈ [(112, Instr.vrcpF n, fastRcp), (113, Instr.vrsqF n, fastRsq), (114, Instr.vexpF n, fastExp), (115, Instr.vlogF n, fastLog)]) ∧ (s.issues (arrNum n) op = true) ∧ (s.sound (arrNum n) (s.nextPc (arrNum n)) = true) ∧ (s.admits (arrNum n) ((s.arr (arrNum n)).vecA (s.insn (arrNum n)) 32).2 [((s.arr (arrNum n)).lbWord (s.insn (arrNum n)).d, elemWords (s.insn (arrNum n)).imm 32)] = true))
    ∧ (∃ (x : ℕ) (u : ℕ) (n : Bool) (m : ℕ) (e : ℤ), (f32v x = Val.fin n m e) ∧ (m ≠ 0))
    ∧ (∃ (x : ℕ) (u : ℕ) (n : Bool) (m : ℕ) (e : ℤ), (f32v x = Val.fin n m e) ∧ (m ≠ 0) ∧ (n = false))
    ∧ (∃ (x : ℕ) (u : ℕ), (f32le 8388608 x = true) ∧ (f32le x 2139095039 = true))
    ∧ (∃ (x : ℕ) (u : ℕ), (f32le 3266222490 x = true) ∧ (f32le x 1118922342 = true))
    ∧ (∃ (x : ℕ) (u : ℕ), ((f32v x).isNan = true)) :=
  ⟨⟨wA0, (wAllows (wSeqA (wIns 0x70 0 3 wNo wNo 0 8) (wLb [0#8,0#8,128#8,63#8]))), 0x70, (.vrcpF wA0), fastRcp, ⟨by simp, by decide +kernel⟩⟩,
    ⟨0x80000001, 9, true, 1, -149, by decide +kernel⟩,
    ⟨0x40000001, 9, false, 8388609, -22, by decide +kernel⟩,
    ⟨0x3F800000, 0, by decide +kernel⟩,
    ⟨0xC2AE999A, 8, by decide +kernel⟩,
    ⟨0x7FC00001, 7, by decide +kernel⟩⟩

theorem test_meets_LineBufferOps :
    (∃ (n : Arr) (s : State), (s.sound (arrNum n) (s.nextPc (arrNum n)) = true) ∧ (s.issues (arrNum n) 40 = true) ∧ (s.admits (arrNum n) [((s.arr (arrNum n)).lbWord (s.insn (arrNum n)).a, (s.insn (arrNum n)).imm)] [((s.arr (arrNum n)).lbWord (s.insn (arrNum n)).d, (s.insn (arrNum n)).imm)] = true))
    ∧ (∃ (n : Arr) (s : State), (s.sound (arrNum n) (s.nextPc (arrNum n)) = true) ∧ (s.issues (arrNum n) 41 = true) ∧ (s.admits (arrNum n) [] [((s.arr (arrNum n)).lbWord (s.insn (arrNum n)).d, (s.insn (arrNum n)).imm)] = true))
    ∧ (∃ (n : Arr) (s : State) (op : ℕ) (c : Instr) (inv : Bool), (s.sound (arrNum n) (s.nextPc (arrNum n)) = true) ∧ ((op, c, inv) ∈ [(51, Instr.fft n, false), (52, Instr.ifft n, true)]) ∧ (s.issues (arrNum n) op = true) ∧ (4 ≤ (s.insn (arrNum n)).imm % 16) ∧ ((s.insn (arrNum n)).imm % 16 ≤ 12) ∧ ((s.insn (arrNum n)).imm / 16 % 16 = 0 ∨ 4 ≤ (s.insn (arrNum n)).imm / 16 % 16 ∧ (s.insn (arrNum n)).imm / 16 % 16 ≤ 12) ∧ (2 ^ ((s.insn (arrNum n)).imm % 16 + (s.insn (arrNum n)).imm / 16 % 16) ≤ 65536) ∧ (0 < (s.insn (arrNum n)).imm / 256 % 4096) ∧ ((s.arr (arrNum n)).lbWord (s.insn (arrNum n)).d = (s.arr (arrNum n)).lbWord (s.insn (arrNum n)).a ∨ (s.arr (arrNum n)).lbWord (s.insn (arrNum n)).d + elemWords ((s.insn (arrNum n)).imm / 256 % 4096 * 2 ^ ((s.insn (arrNum n)).imm % 16 + (s.insn (arrNum n)).imm / 16 % 16) * 2) (if (s.insn (arrNum n)).mod.testBit 0 = true then 16 else 32) ≤ (s.arr (arrNum n)).lbWord (s.insn (arrNum n)).a ∨ (s.arr (arrNum n)).lbWord (s.insn (arrNum n)).a + elemWords ((s.insn (arrNum n)).imm / 256 % 4096 * 2 ^ ((s.insn (arrNum n)).imm % 16 + (s.insn (arrNum n)).imm / 16 % 16) * 2) (if (s.insn (arrNum n)).mod.testBit 0 = true then 16 else 32) ≤ (s.arr (arrNum n)).lbWord (s.insn (arrNum n)).d) ∧ (s.admits (arrNum n) [((s.arr (arrNum n)).lbWord (s.insn (arrNum n)).a, elemWords ((s.insn (arrNum n)).imm / 256 % 4096 * 2 ^ ((s.insn (arrNum n)).imm % 16 + (s.insn (arrNum n)).imm / 16 % 16) * 2) (if (s.insn (arrNum n)).mod.testBit 0 = true then 16 else 32))] [((s.arr (arrNum n)).lbWord (s.insn (arrNum n)).d, elemWords ((s.insn (arrNum n)).imm / 256 % 4096 * 2 ^ ((s.insn (arrNum n)).imm % 16 + (s.insn (arrNum n)).imm / 16 % 16) * 2) (if (s.insn (arrNum n)).mod.testBit 0 = true then 16 else 32))] = true))
    ∧ (∃ (n : Arr) (s : State), (s.sound (arrNum n) (s.nextPc (arrNum n)) = true) ∧ (s.issues (arrNum n) 53 = true) ∧ (0 < (s.insn (arrNum n)).imm) ∧ ((fun (p q : ℕ) => p = q ∨ p + elemWords (2 * (s.insn (arrNum n)).imm) 32 ≤ q ∨ q + elemWords (2 * (s.insn (arrNum n)).imm) 32 ≤ p) ((s.arr (arrNum n)).lbWord (s.insn (arrNum n)).d) ((s.arr (arrNum n)).lbWord (s.insn (arrNum n)).a)) ∧ ((fun (p q : ℕ) => p = q ∨ p + elemWords (2 * (s.insn (arrNum n)).imm) 32 ≤ q ∨ q + elemWords (2 * (s.insn (arrNum n)).imm) 32 ≤ p) ((s.arr (arrNum n)).lbWord (s.insn (arrNum n)).d) ((s.arr (arrNum n)).lbWord (s.insn (arrNum n)).b)) ∧ ((fun (p q : ℕ) => p = q ∨ p + elemWords (2 * (s.insn (arrNum n)).imm) 32 ≤ q ∨ q + elemWords (2 * (s.insn (arrNum n)).imm) 32 ≤ p) ((s.arr (arrNum n)).lbWord (s.insn (arrNum n)).a) ((s.arr (arrNum n)).lbWord (s.insn (arrNum n)).b)) ∧ (s.admits (arrNum n) [((s.arr (arrNum n)).lbWord (s.insn (arrNum n)).a, elemWords (2 * (s.insn (arrNum n)).imm) 32), ((s.arr (arrNum n)).lbWord (s.insn (arrNum n)).b, elemWords (2 * (s.insn (arrNum n)).imm) 32)] [((s.arr (arrNum n)).lbWord (s.insn (arrNum n)).d, elemWords (2 * (s.insn (arrNum n)).imm) 32)] = true)) :=
  ⟨⟨wA0, (wSeqA (wIns 0x28 0 2 wNo wNo 0 8) (wLb [7#8,5#8,3#8,63#8])), by decide +kernel⟩,
    ⟨wA0, (wSeqA (wIns 0x29 0 2 wNo (wS 1) wNo 8) (wReg1 9)), by decide +kernel⟩,
    ⟨wA0, (wSeqA (wIns 0x33 0 0x104 wNo wNo 0 8) (wLb [0#8,0#8,128#8,63#8])), 0x33, (.fft wA0), false, by decide +kernel⟩,
    ⟨wA0, (wSeqA (wIns 0x35 0 2 wNo 2 0 8) (wLb [0#8,0#8,128#8,63#8])), by decide +kernel⟩⟩

theorem test_meets_LoadsAndStores_1 :
    (∃ (n : Arr) (s : State), (s.sound (arrNum n) (s.nextPc (arrNum n)) = true) ∧ (s.cond = []) ∧ (s.issues (arrNum n) 32 = true) ∧ ((s.arr (arrNum n)).operand (s.insn (arrNum n)).a % 32 = 0) ∧ (s.plainAt ((s.arr (arrNum n)).operand (s.insn (arrNum n)).a) = true) ∧ (s.badRange ((s.arr (arrNum n)).operand (s.insn (arrNum n)).a) (32 * (s.insn (arrNum n)).imm) = false) ∧ (s.admits (arrNum n) [] [((s.arr (arrNum n)).lbWord (s.insn (arrNum n)).d, (s.insn (arrNum n)).imm)] = true))
    ∧ (∃ (n : Arr) (s : State), (s.sound (arrNum n) (s.nextPc (arrNum n)) = true) ∧ (s.cond = []) ∧ (s.issues (arrNum n) 33 = true) ∧ ((s.arr (arrNum n)).operand (s.insn (arrNum n)).d % 32 = 0) ∧ (s.plainAt ((s.arr (arrNum n)).operand (s.insn (arrNum n)).d) = true) ∧ (s.badRange ((s.arr (arrNum n)).operand (s.insn (arrNum n)).d) (32 * (s.insn (arrNum n)).imm) = false) ∧ (s.admits (arrNum n) [((s.arr (arrNum n)).lbWord (s.insn (arrNum n)).a, (s.insn (arrNum n)).imm)] [] = true))
    ∧ (∃ (n : Arr) (s : State), (s.sound (arrNum n) (s.nextPc (arrNum n)) = true) ∧ (s.cond = []) ∧ (s.issues (arrNum n) 33 = true) ∧ (s.region ((s.arr (arrNum n)).operand (s.insn (arrNum n)).d) = Region.doorbell) ∧ ((s.arr (arrNum n)).operand (s.insn (arrNum n)).d % 4 = 0) ∧ ((s.insn (arrNum n)).imm = 1) ∧ (s.admits (arrNum n) [((s.arr (arrNum n)).lbWord (s.insn (arrNum n)).a, 1)] [] = true))
    ∧ (∃ (n : Arr) (s : State) (d : Machine.Dense), (s.sound (arrNum n) (s.nextPc (arrNum n)) = true) ∧ (s.cond = []) ∧ (s.issues (arrNum n) 34 = true) ∧ (denseTd ((s.arr (arrNum n)).td (s.insn (arrNum n)).a) = some d) ∧ (d.block = 0) ∧ (d.host = false) ∧ ((fun (rs : List Run) => (rs.all fun (q : Run) => s.plainAt q.mem) = true ∧ s.badRuns rs = false) (d.runs ((s.arr (arrNum n)).operand (s.insn (arrNum n)).b) d.d2 ((s.arr (arrNum n)).lbWord (s.insn (arrNum n)).d)).1) ∧ (s.admits (arrNum n) [] [((s.arr (arrNum n)).lbWord (s.insn (arrNum n)).d, (d.runs ((s.arr (arrNum n)).operand (s.insn (arrNum n)).b) d.d2 ((s.arr (arrNum n)).lbWord (s.insn (arrNum n)).d)).2)] = true))
    ∧ (∃ (n : Arr) (s : State) (d : Machine.Dense) (j : Job) (rs : List Run), (s.sound (arrNum n) (s.nextPc (arrNum n)) = true) ∧ (s.cond = []) ∧ (s.issues (arrNum n) 34 = true) ∧ (denseTd ((s.arr (arrNum n)).td (s.insn (arrNum n)).a) = some d) ∧ (d.block = 0) ∧ (d.host = true) ∧ (s.arrJob (arrNum n) = some j) ∧ (s.replaying = false) ∧ (s.flag F.PCIE_STATUS_bus_master = true) ∧ (rs = (d.runs ((s.arr (arrNum n)).operand (s.insn (arrNum n)).b) d.d2 ((s.arr (arrNum n)).lbWord (s.insn (arrNum n)).d)).1) ∧ (s.admits (arrNum n) [] [((s.arr (arrNum n)).lbWord (s.insn (arrNum n)).d, (d.runs ((s.arr (arrNum n)).operand (s.insn (arrNum n)).b) d.d2 ((s.arr (arrNum n)).lbWord (s.insn (arrNum n)).d)).2)] = true))
    ∧ (∃ (n : Arr) (s : State) (d : Machine.Dense), (s.sound (arrNum n) (s.nextPc (arrNum n)) = true) ∧ (s.cond = []) ∧ (s.issues (arrNum n) 35 = true) ∧ (denseTd ((s.arr (arrNum n)).td (s.insn (arrNum n)).d) = some d) ∧ (d.block = 0) ∧ (d.host = false) ∧ ((fun (rs : List Run) => (rs.all fun (q : Run) => s.plainAt q.mem) = true ∧ s.badRuns rs = false) (d.runs ((s.arr (arrNum n)).operand (s.insn (arrNum n)).b) d.d2 ((s.arr (arrNum n)).lbWord (s.insn (arrNum n)).a)).1) ∧ (s.admits (arrNum n) [((s.arr (arrNum n)).lbWord (s.insn (arrNum n)).a, (d.runs ((s.arr (arrNum n)).operand (s.insn (arrNum n)).b) d.d2 ((s.arr (arrNum n)).lbWord (s.insn (arrNum n)).a)).2)] [] = true))
    ∧ (∃ (n : Arr) (s : State) (d : Machine.Dense) (c : ConvBlock) (r : List Run × ℕ), (s.sound (arrNum n) (s.nextPc (arrNum n)) = true) ∧ (s.cond = []) ∧ (s.issues (arrNum n) 35 = true) ∧ (denseTd ((s.arr (arrNum n)).td (s.insn (arrNum n)).d) = some d) ∧ (d.block ≠ 0) ∧ (d.host = false) ∧ (s.plainAt d.block = true) ∧ (s.badRange d.block 64 = false) ∧ (c = convBlock (s.bytes d.block 64)) ∧ (c.legal = true) ∧ (r = d.runs ((s.arr (arrNum n)).operand (s.insn (arrNum n)).b) (sttRows d (some c) ((s.arr (arrNum n)).operand (s.insn (arrNum n)).b)) ((s.arr (arrNum n)).lbWord (s.insn (arrNum n)).a)) ∧ ((fun (rs : List Run) => (rs.all fun (q : Run) => s.plainAt q.mem) = true ∧ s.badRuns rs = false) r.1) ∧ (s.admits (arrNum n) [((s.arr (arrNum n)).lbWord (s.insn (arrNum n)).a, r.2)] [] = true))
    ∧ (∃ (n : Arr) (s : State) (d : Machine.Dense) (ads : List ℕ), (s.sound (arrNum n) (s.nextPc (arrNum n)) = true) ∧ (s.cond = []) ∧ (s.issues (arrNum n) 36 = true) ∧ (tableTd ((s.arr (arrNum n)).td (s.insn (arrNum n)).a) = some d) ∧ (d.host = false) ∧ (s.elements d ((s.arr (arrNum n)).elems ((s.arr (arrNum n)).lbWord (s.insn (arrNum n)).b) 32 0 (s.insn (arrNum n)).imm) = some (List.map some ads)) ∧ ((ads.all fun (p : ℕ) => s.plainAt p) = true) ∧ (s.admits (arrNum n) [((s.arr (arrNum n)).lbWord (s.insn (arrNum n)).b, elemWords (s.insn (arrNum n)).imm 32)] [((s.arr (arrNum n)).lbWord (s.insn (arrNum n)).d, elemWords (s.insn (arrNum n)).imm 32)] = true))
    ∧ (∃ (n : Arr) (s : State) (d : Machine.Dense) (ads : List ℕ), (s.sound (arrNum n) (s.nextPc (arrNum n)) = true) ∧ (s.cond = []) ∧ (tableTd ((s.arr (arrNum n)).td (s.insn (arrNum n)).d) = some d) ∧ (d.host = false) ∧ (s.elements d ((s.arr (arrNum n)).elems ((s.arr (arrNum n)).lbWord (s.insn (arrNum n)).b) 32 0 (s.insn (arrNum n)).imm) = some (List.map some ads)) ∧ (s.admits (arrNum n) [((s.arr (arrNum n)).lbWord (s.insn (arrNum n)).a, elemWords (s.insn (arrNum n)).imm 32), ((s.arr (arrNum n)).lbWord (s.insn (arrNum n)).b, elemWords (s.insn (arrNum n)).imm 32)] [] = true) ∧ (s.issues (arrNum n) 37 = true)) :=
  ⟨⟨wA0, (wSeqA (wIns 0x20 0 2 wNo wNo (wS 1) 8) (wReg1 (poolBase 0))), by decide +kernel⟩,
    ⟨wA0, (wSeqA (wIns 0x21 0 2 wNo wNo 4 (wS 1)) (wReg1 (poolBase 0))), by decide +kernel⟩,
    ⟨wA0, (wSeqA (wIns 0x21 0 1 wNo wNo 4 (wS 1)) (wReg1 (doorbellBase + 8))), by decide +kernel⟩,
    ⟨wA0, (wSeqA (wIns 0x22 0 0 wNo (wS 1) 0xA000 8) (wTd0 (wDenseTd 12))), (wDen (wDenseTd 12)), by decide +kernel⟩,
    ⟨wA0, wHostLdt, (wDen wHostTd), wJob, ((wDen wHostTd).runs 0 1 8).1, by decide +kernel⟩,
    ⟨wA0, (wSeqA (wIns 0x23 0 0 wNo (wS 1) 8 0xA000) (wTd0 (wDenseTd 12))), (wDen (wDenseTd 12)), by decide +kernel⟩,
    ⟨wA0, wSttConv, (wDen wConvTd), wCb, ((wDen wConvTd).runs 0 (sttRows (wDen wConvTd) (some wCb) 0) 8), by decide +kernel⟩,
    ⟨wA0, (wSeqA (wIns 0x24 0 2 wNo 4 0xA000 8) (wTd0 (wDenseTd 12))), (wDen (wDenseTd 12)), [poolBase 0, poolBase 0], by decide +kernel⟩,
    ⟨wA0, (wSeqA (wIns 0x25 0 2 wNo 4 8 0xA000) (wTd0 (wDenseTd 12))), (wDen (wDenseTd 12)), [poolBase 0, poolBase 0], by decide +kernel⟩⟩

theorem test_meets_LoadsAndStores_2 :
    (∃ (n : Arr) (s : State) (d : Machine.Dense) (ads : List ℕ), (s.sound (arrNum n) (s.nextPc (arrNum n)) = true) ∧ (s.cond = []) ∧ (tableTd ((s.arr (arrNum n)).td (s.insn (arrNum n)).d) = some d) ∧ (d.host = false) ∧ (s.elements d ((s.arr (arrNum n)).elems ((s.arr (arrNum n)).lbWord (s.insn (arrNum n)).b) 32 0 (s.insn (arrNum n)).imm) = some (List.map some ads)) ∧ (s.admits (arrNum n) [((s.arr (arrNum n)).lbWord (s.insn (arrNum n)).a, elemWords (s.insn (arrNum n)).imm 32), ((s.arr (arrNum n)).lbWord (s.insn (arrNum n)).b, elemWords (s.insn (arrNum n)).imm 32)] [] = true) ∧ (s.issues (arrNum n) 39 = true))
    ∧ (∃ (n : Arr) (s : State) (d : Machine.Dense) (ads : List ℕ), (s.sound (arrNum n) (s.nextPc (arrNum n)) = true) ∧ (s.cond = []) ∧ (tableTd ((s.arr (arrNum n)).td (s.insn (arrNum n)).d) = some d) ∧ (d.host = false) ∧ (s.elements d ((s.arr (arrNum n)).elems ((s.arr (arrNum n)).lbWord (s.insn (arrNum n)).b) 32 0 (s.insn (arrNum n)).imm) = some (List.map some ads)) ∧ (s.admits (arrNum n) [((s.arr (arrNum n)).lbWord (s.insn (arrNum n)).a, elemWords (s.insn (arrNum n)).imm 32), ((s.arr (arrNum n)).lbWord (s.insn (arrNum n)).b, elemWords (s.insn (arrNum n)).imm 32)] [] = true) ∧ (s.issues (arrNum n) 38 = true))
    ∧ (∃ (n : Arr) (s : State) (f : ℕ) (layer : ℕ) (seq : ℕ) (tokens : ℕ), (s.sound (arrNum n) (s.nextPc (arrNum n)) = true) ∧ (s.cond = []) ∧ (s.issues (arrNum n) 34 = true) ∧ (kvTd ((s.arr (arrNum n)).td (s.insn (arrNum n)).a) = some (f, layer, seq, tokens)) ∧ (tokens % 16 = 0) ∧ (16 ≤ tokens) ∧ (tokens ≤ 1024) ∧ ((s.arr (arrNum n)).operand (s.insn (arrNum n)).b % 16 = 0) ∧ (s.admits (arrNum n) [] [((s.arr (arrNum n)).lbWord (s.insn (arrNum n)).d, s.kvWords seq tokens)] = true))
    ∧ (∃ (n : Arr) (s : State) (f : ℕ) (layer : ℕ) (seq : ℕ) (tokens : ℕ), (s.sound (arrNum n) (s.nextPc (arrNum n)) = true) ∧ (s.cond = []) ∧ (s.issues (arrNum n) 35 = true) ∧ (kvTd ((s.arr (arrNum n)).td (s.insn (arrNum n)).d) = some (f, layer, seq, tokens)) ∧ (tokens ≠ 0) ∧ ((s.arr (arrNum n)).operand (s.insn (arrNum n)).b % 16 + tokens ≤ 16) ∧ (s.admits (arrNum n) [((s.arr (arrNum n)).lbWord (s.insn (arrNum n)).a, s.kvWords seq tokens)] [] = true))
    ∧ (∃ (n : Arr) (s : State) (d : Machine.Dense) (c : ConvBlock) (w : ℕ) (rows : List (ℕ × ℤ)) (runs : List Run), (s.sound (arrNum n) (s.nextPc (arrNum n)) = true) ∧ (s.cond = []) ∧ (s.issues (arrNum n) 34 = true) ∧ (denseTd ((s.arr (arrNum n)).td (s.insn (arrNum n)).a) = some d) ∧ (d.host = false) ∧ (d.block ≠ 0) ∧ (s.plainAt d.block = true) ∧ (s.badRange d.block 64 = false) ∧ (c = convBlock (s.bytes d.block 64)) ∧ (c.legal = true) ∧ (w = fmtWidth d.fmt) ∧ (c.cIn * w % 8 = 0) ∧ (rows = (List.range (c.stripeRows ((s.arr (arrNum n)).operand (s.insn (arrNum n)).b)).length).zip (c.stripeRows ((s.arr (arrNum n)).operand (s.insn (arrNum n)).b))) ∧ (runs = List.flatMap (fun (r : ℕ × ℤ) => match c.rows.src r.2 with | some y => List.map (fun (x : ℕ × ℕ) => { mem := (d.base + d.p1 * x.2 + d.p2 * y) % 2 ^ 64, lb := ((s.arr (arrNum n)).lbWord (s.insn (arrNum n)).d + r.1 * c.pitch w) * 32 + x.1 * (c.cIn * w / 8), len := c.cIn * w / 8, bits := 0 }) ((List.range c.cols.heldIn.length).zip c.cols.heldIn) | none => []) rows) ∧ ((fun (rs : List Run) => (rs.all fun (q : Run) => s.plainAt q.mem) = true ∧ s.badRuns rs = false) runs) ∧ (s.admits (arrNum n) [] [((s.arr (arrNum n)).lbWord (s.insn (arrNum n)).d, rows.length * c.pitch w)] = true)) :=
  ⟨⟨wA0, (wSeqA (wIns 0x27 0 2 wNo 4 8 0xA000) (wTd0 (wDenseTd 12))), (wDen (wDenseTd 12)), [poolBase 0, poolBase 0], by decide +kernel⟩,
    ⟨wA0, (wAllows (wSeqA (wIns 0x26 0 2 wNo 4 8 0xA000) (wTd0 (wDenseTd 12)))), (wDen (wDenseTd 12)), [poolBase 0, poolBase 0], by decide +kernel⟩,
    ⟨wA0, (wSeqA (wIns 0x22 0 0 wNo (wS 1) 0xA000 8) (wTd0 wKvTd)), 4, 0, 3, 16, by decide +kernel⟩,
    ⟨wA0, (wSeqA (wIns 0x23 0 0 wNo (wS 1) 8 0xA000) (wTd0 wKvTd)), 4, 0, 3, 16, by decide +kernel⟩,
    ⟨wA0, wLdtConv, (wDen wConvTd), wCb, 32, wConvRows, wConvRuns, by decide +kernel⟩⟩

theorem test_meets_Contractions_1 :
    (∃ (n : Arr) (s : State) (j : Job), (s.arrJob (arrNum n) = some j) ∧ (s.sound (arrNum n) (s.nextPc (arrNum n)) = true) ∧ (s.issues (arrNum n) 48 = true) ∧ ((fmtMx (s.insn (arrNum n)).fa || fmtMx (s.insn (arrNum n)).fb) = true → (s.insn (arrNum n)).c ≠ 65535) ∧ (contractCause j (s.arr (arrNum n)).slot (s.insn (arrNum n)) ((s.arr (arrNum n)).operand (s.insn (arrNum n)).d) [(s.insn (arrNum n)).imm % 65536] = 0) ∧ (j.tileConflict (tileKey ((s.arr (arrNum n)).operand (s.insn (arrNum n)).d)) (s.insn (arrNum n)).isInt (s.insn (arrNum n)).mod [(s.insn (arrNum n)).imm % 65536] = false) ∧ (s.admits (arrNum n) ((rowRanges ((s.arr (arrNum n)).lbWord (s.insn (arrNum n)).a) (fmtWidth (s.insn (arrNum n)).fa) (32 * (s.insn (arrNum n)).mod) (tileLen (tileKey ((s.arr (arrNum n)).operand (s.insn (arrNum n)).d)).kLen ((s.insn (arrNum n)).imm % 65536)) ++ rowRanges ((s.arr (arrNum n)).lbWord (s.insn (arrNum n)).b) (fmtWidth (s.insn (arrNum n)).fb) 32 (tileLen (tileKey ((s.arr (arrNum n)).operand (s.insn (arrNum n)).d)).kLen ((s.insn (arrNum n)).imm % 65536)) ++ if fmtMx (s.insn (arrNum n)).fa = true then [((s.arr (arrNum n)).lbWord (s.insn (arrNum n)).c, 8 * (s.insn (arrNum n)).mod)] else []) ++ if fmtMx (s.insn (arrNum n)).fb = true then [((s.arr (arrNum n)).lbWord (s.insn (arrNum n)).c + 8 * (s.insn (arrNum n)).mod, 8)] else []) [] = true) ∧ (s.flag (F.ARR_STATE_exact (arrNum n)) = false ∨ (s.insn (arrNum n)).isInt = true ∨ j.newEntries (tileKey ((s.arr (arrNum n)).operand (s.insn (arrNum n)).d)) (s.insn (arrNum n)).mod ≤ j.unreserved ((j.slotPlace (tileKey ((s.arr (arrNum n)).operand (s.insn (arrNum n)).d)).owner).getD (arrNum n) / 24)))
    ∧ (∃ (n : Arr) (s : State) (j : Job), (s.arrJob (arrNum n) = some j) ∧ (s.sound (arrNum n) (s.nextPc (arrNum n)) = true) ∧ (s.issues (arrNum n) 48 = true) ∧ ((fmtMx (s.insn (arrNum n)).fa || fmtMx (s.insn (arrNum n)).fb) = true → (s.insn (arrNum n)).c ≠ 65535) ∧ (contractCause j (s.arr (arrNum n)).slot (s.insn (arrNum n)) ((s.arr (arrNum n)).operand (s.insn (arrNum n)).d) [(s.insn (arrNum n)).imm % 65536] = 0) ∧ (j.tileConflict (tileKey ((s.arr (arrNum n)).operand (s.insn (arrNum n)).d)) (s.insn (arrNum n)).isInt (s.insn (arrNum n)).mod [(s.insn (arrNum n)).imm % 65536] = false) ∧ (s.admits (arrNum n) ((rowRanges ((s.arr (arrNum n)).lbWord (s.insn (arrNum n)).a) (fmtWidth (s.insn (arrNum n)).fa) (32 * (s.insn (arrNum n)).mod) (tileLen (tileKey ((s.arr (arrNum n)).operand (s.insn (arrNum n)).d)).kLen ((s.insn (arrNum n)).imm % 65536)) ++ rowRanges ((s.arr (arrNum n)).lbWord (s.insn (arrNum n)).b) (fmtWidth (s.insn (arrNum n)).fb) 32 (tileLen (tileKey ((s.arr (arrNum n)).operand (s.insn (arrNum n)).d)).kLen ((s.insn (arrNum n)).imm % 65536)) ++ if fmtMx (s.insn (arrNum n)).fa = true then [((s.arr (arrNum n)).lbWord (s.insn (arrNum n)).c, 8 * (s.insn (arrNum n)).mod)] else []) ++ if fmtMx (s.insn (arrNum n)).fb = true then [((s.arr (arrNum n)).lbWord (s.insn (arrNum n)).c + 8 * (s.insn (arrNum n)).mod, 8)] else []) [] = true) ∧ (s.flag (F.ARR_STATE_exact (arrNum n)) = true) ∧ ((s.insn (arrNum n)).isInt = false) ∧ (j.unreserved ((j.slotPlace (tileKey ((s.arr (arrNum n)).operand (s.insn (arrNum n)).d)).owner).getD (arrNum n) / 24) < j.newEntries (tileKey ((s.arr (arrNum n)).operand (s.insn (arrNum n)).d)) (s.insn (arrNum n)).mod))
    ∧ (∃ (n : Arr) (s : State) (j : Job), (s.arrJob (arrNum n) = some j) ∧ (s.sound (arrNum n) (s.nextPc (arrNum n)) = true) ∧ ((s.arr (arrNum n)).wait = ArrWait.held) ∧ (s.get (F.ARR_STATE_state (arrNum n)) = 1) ∧ (s.cdState (arrNum n / 24) = 3) ∧ ((s.insn (arrNum n)).op = 48) ∧ ((fmtMx (s.insn (arrNum n)).fa || fmtMx (s.insn (arrNum n)).fb) = true → (s.insn (arrNum n)).c ≠ 65535) ∧ (contractCause j (s.arr (arrNum n)).slot (s.insn (arrNum n)) ((s.arr (arrNum n)).operand (s.insn (arrNum n)).d) [(s.insn (arrNum n)).imm % 65536] = 0) ∧ (j.tileConflict (tileKey ((s.arr (arrNum n)).operand (s.insn (arrNum n)).d)) (s.insn (arrNum n)).isInt (s.insn (arrNum n)).mod [(s.insn (arrNum n)).imm % 65536] = false) ∧ (s.admits (arrNum n) ((rowRanges ((s.arr (arrNum n)).lbWord (s.insn (arrNum n)).a) (fmtWidth (s.insn (arrNum n)).fa) (32 * (s.insn (arrNum n)).mod) (tileLen (tileKey ((s.arr (arrNum n)).operand (s.insn (arrNum n)).d)).kLen ((s.insn (arrNum n)).imm % 65536)) ++ rowRanges ((s.arr (arrNum n)).lbWord (s.insn (arrNum n)).b) (fmtWidth (s.insn (arrNum n)).fb) 32 (tileLen (tileKey ((s.arr (arrNum n)).operand (s.insn (arrNum n)).d)).kLen ((s.insn (arrNum n)).imm % 65536)) ++ if fmtMx (s.insn (arrNum n)).fa = true then [((s.arr (arrNum n)).lbWord (s.insn (arrNum n)).c, 8 * (s.insn (arrNum n)).mod)] else []) ++ if fmtMx (s.insn (arrNum n)).fb = true then [((s.arr (arrNum n)).lbWord (s.insn (arrNum n)).c + 8 * (s.insn (arrNum n)).mod, 8)] else []) [] = true) ∧ (s.flag (F.ARR_STATE_exact (arrNum n)) = false ∨ (s.insn (arrNum n)).isInt = true ∨ j.newEntries (tileKey ((s.arr (arrNum n)).operand (s.insn (arrNum n)).d)) (s.insn (arrNum n)).mod ≤ j.unreserved ((j.slotPlace (tileKey ((s.arr (arrNum n)).operand (s.insn (arrNum n)).d)).owner).getD (arrNum n) / 24))) :=
  ⟨⟨wA0, (wSeqA (wInsF 0x30 0 0 13 1 0 wNo 40 0 (wS 1)) (wReg1 (wKey 4))), wJobC, by decide +kernel⟩,
    ⟨wA0, (wExact (wSeqA (wInsF 0x30 10 10 12 1 0 wNo 40 0 (wS 1)) (wReg1 (wKey 400)))), wJobC, by decide +kernel⟩,
    ⟨wA0, (wHeldSt (wInsF 0x30 0 0 13 1 0 wNo 40 0 (wS 1))), wJobC, by decide +kernel⟩⟩

theorem test_meets_Contractions_2 :
    (∃ (n : Arr) (s : State) (j : Job), (s.arrJob (arrNum n) = some j) ∧ (s.sound (arrNum n) (s.nextPc (arrNum n)) = true) ∧ ((s.arr (arrNum n)).wait = ArrWait.held) ∧ (s.get (F.ARR_STATE_state (arrNum n)) = 1) ∧ (s.cdState (arrNum n / 24) = 3) ∧ ((s.insn (arrNum n)).op = 48) ∧ ((fmtMx (s.insn (arrNum n)).fa || fmtMx (s.insn (arrNum n)).fb) = true → (s.insn (arrNum n)).c ≠ 65535) ∧ (contractCause j (s.arr (arrNum n)).slot (s.insn (arrNum n)) ((s.arr (arrNum n)).operand (s.insn (arrNum n)).d) [(s.insn (arrNum n)).imm % 65536] = 0) ∧ (j.tileConflict (tileKey ((s.arr (arrNum n)).operand (s.insn (arrNum n)).d)) (s.insn (arrNum n)).isInt (s.insn (arrNum n)).mod [(s.insn (arrNum n)).imm % 65536] = false) ∧ (s.admits (arrNum n) ((rowRanges ((s.arr (arrNum n)).lbWord (s.insn (arrNum n)).a) (fmtWidth (s.insn (arrNum n)).fa) (32 * (s.insn (arrNum n)).mod) (tileLen (tileKey ((s.arr (arrNum n)).operand (s.insn (arrNum n)).d)).kLen ((s.insn (arrNum n)).imm % 65536)) ++ rowRanges ((s.arr (arrNum n)).lbWord (s.insn (arrNum n)).b) (fmtWidth (s.insn (arrNum n)).fb) 32 (tileLen (tileKey ((s.arr (arrNum n)).operand (s.insn (arrNum n)).d)).kLen ((s.insn (arrNum n)).imm % 65536)) ++ if fmtMx (s.insn (arrNum n)).fa = true then [((s.arr (arrNum n)).lbWord (s.insn (arrNum n)).c, 8 * (s.insn (arrNum n)).mod)] else []) ++ if fmtMx (s.insn (arrNum n)).fb = true then [((s.arr (arrNum n)).lbWord (s.insn (arrNum n)).c + 8 * (s.insn (arrNum n)).mod, 8)] else []) [] = true) ∧ (s.flag (F.ARR_STATE_exact (arrNum n)) = true) ∧ ((s.insn (arrNum n)).isInt = false) ∧ (j.unreserved ((j.slotPlace (tileKey ((s.arr (arrNum n)).operand (s.insn (arrNum n)).d)).owner).getD (arrNum n) / 24) < j.newEntries (tileKey ((s.arr (arrNum n)).operand (s.insn (arrNum n)).d)) (s.insn (arrNum n)).mod))
    ∧ (∃ (n : Arr) (s : State) (j : Job), (s.arrJob (arrNum n) = some j) ∧ (s.sound (arrNum n) (s.nextPc (arrNum n)) = true) ∧ ((s.arr (arrNum n)).wait = ArrWait.held) ∧ (s.get (F.ARR_STATE_state (arrNum n)) = 1) ∧ (s.cdState (arrNum n / 24) = 3) ∧ ((s.insn (arrNum n)).op = 49) ∧ ((convBlock (cellRead (s.arr (arrNum n)).lb ((s.arr (arrNum n)).lbWord (s.insn (arrNum n)).c * 32) 64)).legal = true ∧ (tileKey ((s.arr (arrNum n)).operand (s.insn (arrNum n)).d)).kLen = (convBlock (cellRead (s.arr (arrNum n)).lb ((s.arr (arrNum n)).lbWord (s.insn (arrNum n)).c * 32) 64)).rows.k * (convBlock (cellRead (s.arr (arrNum n)).lb ((s.arr (arrNum n)).lbWord (s.insn (arrNum n)).c * 32) 64)).cols.k * (convBlock (cellRead (s.arr (arrNum n)).lb ((s.arr (arrNum n)).lbWord (s.insn (arrNum n)).c * 32) 64)).cIn ∧ lbFits ((s.arr (arrNum n)).lbWord (s.insn (arrNum n)).c) 2 = true) ∧ ((convBlock (cellRead (s.arr (arrNum n)).lb ((s.arr (arrNum n)).lbWord (s.insn (arrNum n)).c * 32) 64)).empty = false) ∧ (contractCause j (s.arr (arrNum n)).slot (s.insn (arrNum n)) ((s.arr (arrNum n)).operand (s.insn (arrNum n)).d) [(s.insn (arrNum n)).imm] = 0) ∧ (j.tileConflict (tileKey ((s.arr (arrNum n)).operand (s.insn (arrNum n)).d)) (s.insn (arrNum n)).isInt (s.insn (arrNum n)).mod [(s.insn (arrNum n)).imm] = false) ∧ (s.admits (arrNum n) [((s.arr (arrNum n)).lbWord (s.insn (arrNum n)).a, ((s.arr (arrNum n)).convRows (convBlock (cellRead (s.arr (arrNum n)).lb ((s.arr (arrNum n)).lbWord (s.insn (arrNum n)).c * 32) 64)) ((convBlock (cellRead (s.arr (arrNum n)).lb ((s.arr (arrNum n)).lbWord (s.insn (arrNum n)).c * 32) 64)).pitch (fmtWidth (s.insn (arrNum n)).fa)) ((s.arr (arrNum n)).lbWord (s.insn (arrNum n)).a)).length * (convBlock (cellRead (s.arr (arrNum n)).lb ((s.arr (arrNum n)).lbWord (s.insn (arrNum n)).c * 32) 64)).pitch (fmtWidth (s.insn (arrNum n)).fa)), ((s.arr (arrNum n)).lbWord (s.insn (arrNum n)).b, elemWords (32 * (tileKey ((s.arr (arrNum n)).operand (s.insn (arrNum n)).d)).kLen) (fmtWidth (s.insn (arrNum n)).fb)), ((s.arr (arrNum n)).lbWord (s.insn (arrNum n)).c, 2)] [] = true) ∧ (s.flag (F.ARR_STATE_exact (arrNum n)) = false ∨ (s.insn (arrNum n)).isInt = true ∨ j.newEntries (tileKey ((s.arr (arrNum n)).operand (s.insn (arrNum n)).d)) (s.insn (arrNum n)).mod ≤ j.unreserved ((j.slotPlace (tileKey ((s.arr (arrNum n)).operand (s.insn (arrNum n)).d)).owner).getD (arrNum n) / 24))) :=
  ⟨⟨wA0, (wExact (wSeqA (wInsF 0x30 10 10 12 1 0 wNo 40 0 (wS 1)) (fun a => wHeldA (wReg1 (wKey 400) a)))), wJobC, by decide +kernel⟩,
    ⟨wA0, (wSeqA (wInsF 0x31 0 0 13 1 0 0 40 20 (wS 1)) (fun a => wHeldA (wLb wConvBlk (wReg1 (wKey 1) a)))), wJobC, by decide +kernel⟩⟩

theorem test_meets_Contractions_3 :
    (∃ (n : Arr) (s : State) (j : Job), (s.arrJob (arrNum n) = some j) ∧ (s.sound (arrNum n) (s.nextPc (arrNum n)) = true) ∧ ((s.arr (arrNum n)).wait = ArrWait.held) ∧ (s.get (F.ARR_STATE_state (arrNum n)) = 1) ∧ (s.cdState (arrNum n / 24) = 3) ∧ ((s.insn (arrNum n)).op = 49) ∧ ((convBlock (cellRead (s.arr (arrNum n)).lb ((s.arr (arrNum n)).lbWord (s.insn (arrNum n)).c * 32) 64)).legal = true ∧ (tileKey ((s.arr (arrNum n)).operand (s.insn (arrNum n)).d)).kLen = (convBlock (cellRead (s.arr (arrNum n)).lb ((s.arr (arrNum n)).lbWord (s.insn (arrNum n)).c * 32) 64)).rows.k * (convBlock (cellRead (s.arr (arrNum n)).lb ((s.arr (arrNum n)).lbWord (s.insn (arrNum n)).c * 32) 64)).cols.k * (convBlock (cellRead (s.arr (arrNum n)).lb ((s.arr (arrNum n)).lbWord (s.insn (arrNum n)).c * 32) 64)).cIn ∧ lbFits ((s.arr (arrNum n)).lbWord (s.insn (arrNum n)).c) 2 = true) ∧ ((convBlock (cellRead (s.arr (arrNum n)).lb ((s.arr (arrNum n)).lbWord (s.insn (arrNum n)).c * 32) 64)).empty = false) ∧ (contractCause j (s.arr (arrNum n)).slot (s.insn (arrNum n)) ((s.arr (arrNum n)).operand (s.insn (arrNum n)).d) [(s.insn (arrNum n)).imm] = 0) ∧ (j.tileConflict (tileKey ((s.arr (arrNum n)).operand (s.insn (arrNum n)).d)) (s.insn (arrNum n)).isInt (s.insn (arrNum n)).mod [(s.insn (arrNum n)).imm] = false) ∧ (s.admits (arrNum n) [((s.arr (arrNum n)).lbWord (s.insn (arrNum n)).a, ((s.arr (arrNum n)).convRows (convBlock (cellRead (s.arr (arrNum n)).lb ((s.arr (arrNum n)).lbWord (s.insn (arrNum n)).c * 32) 64)) ((convBlock (cellRead (s.arr (arrNum n)).lb ((s.arr (arrNum n)).lbWord (s.insn (arrNum n)).c * 32) 64)).pitch (fmtWidth (s.insn (arrNum n)).fa)) ((s.arr (arrNum n)).lbWord (s.insn (arrNum n)).a)).length * (convBlock (cellRead (s.arr (arrNum n)).lb ((s.arr (arrNum n)).lbWord (s.insn (arrNum n)).c * 32) 64)).pitch (fmtWidth (s.insn (arrNum n)).fa)), ((s.arr (arrNum n)).lbWord (s.insn (arrNum n)).b, elemWords (32 * (tileKey ((s.arr (arrNum n)).operand (s.insn (arrNum n)).d)).kLen) (fmtWidth (s.insn (arrNum n)).fb)), ((s.arr (arrNum n)).lbWord (s.insn (arrNum n)).c, 2)] [] = true) ∧ (s.flag (F.ARR_STATE_exact (arrNum n)) = true) ∧ ((s.insn (arrNum n)).isInt = false) ∧ (j.unreserved ((j.slotPlace (tileKey ((s.arr (arrNum n)).operand (s.insn (arrNum n)).d)).owner).getD (arrNum n) / 24) < j.newEntries (tileKey ((s.arr (arrNum n)).operand (s.insn (arrNum n)).d)) (s.insn (arrNum n)).mod))
    ∧ (∃ (n : Arr) (s : State) (j : Job), (s.arrJob (arrNum n) = some j) ∧ (s.sound (arrNum n) (s.nextPc (arrNum n)) = true) ∧ ((s.arr (arrNum n)).wait = ArrWait.held) ∧ (s.get (F.ARR_STATE_state (arrNum n)) = 1) ∧ (s.cdState (arrNum n / 24) = 3) ∧ ((s.insn (arrNum n)).op = 54) ∧ ((tileKey ((s.arr (arrNum n)).operand (s.insn (arrNum n)).c)).owner = (s.arr (arrNum n)).slot) ∧ (contractCause j (s.arr (arrNum n)).slot (s.insn (arrNum n)) ((s.arr (arrNum n)).operand (s.insn (arrNum n)).c) (List.range (kTiles (tileKey ((s.arr (arrNum n)).operand (s.insn (arrNum n)).c)).kLen)) = 0) ∧ (j.tileConflict (tileKey ((s.arr (arrNum n)).operand (s.insn (arrNum n)).c)) (s.insn (arrNum n)).isInt (s.insn (arrNum n)).mod (List.range (kTiles (tileKey ((s.arr (arrNum n)).operand (s.insn (arrNum n)).c)).kLen)) = false) ∧ (s.admits (arrNum n) [((s.arr (arrNum n)).lbWord (s.insn (arrNum n)).a, elemWords (32 * (tileKey ((s.arr (arrNum n)).operand (s.insn (arrNum n)).c)).kLen) (fmtWidth (s.insn (arrNum n)).fa)), ((s.arr (arrNum n)).lbWord (s.insn (arrNum n)).b, elemWords (32 * (s.insn (arrNum n)).mod * (tileKey ((s.arr (arrNum n)).operand (s.insn (arrNum n)).c)).kLen) (fmtWidth (s.insn (arrNum n)).fb))] [((s.arr (arrNum n)).lbWord (s.insn (arrNum n)).d, 128 * (s.insn (arrNum n)).mod)] = true) ∧ (s.flag (F.ARR_STATE_exact (arrNum n)) = false ∨ (s.insn (arrNum n)).isInt = true ∨ j.newEntries (tileKey ((s.arr (arrNum n)).operand (s.insn (arrNum n)).c)) (s.insn (arrNum n)).mod ≤ j.unreserved ((j.slotPlace (tileKey ((s.arr (arrNum n)).operand (s.insn (arrNum n)).c)).owner).getD (arrNum n) / 24)))
    ∧ (∃ (n : Arr) (s : State) (j : Job), (s.arrJob (arrNum n) = some j) ∧ (s.sound (arrNum n) (s.nextPc (arrNum n)) = true) ∧ ((s.arr (arrNum n)).wait = ArrWait.held) ∧ (s.get (F.ARR_STATE_state (arrNum n)) = 1) ∧ (s.cdState (arrNum n / 24) = 3) ∧ ((s.insn (arrNum n)).op = 54) ∧ ((tileKey ((s.arr (arrNum n)).operand (s.insn (arrNum n)).c)).owner = (s.arr (arrNum n)).slot) ∧ (contractCause j (s.arr (arrNum n)).slot (s.insn (arrNum n)) ((s.arr (arrNum n)).operand (s.insn (arrNum n)).c) (List.range (kTiles (tileKey ((s.arr (arrNum n)).operand (s.insn (arrNum n)).c)).kLen)) = 0) ∧ (j.tileConflict (tileKey ((s.arr (arrNum n)).operand (s.insn (arrNum n)).c)) (s.insn (arrNum n)).isInt (s.insn (arrNum n)).mod (List.range (kTiles (tileKey ((s.arr (arrNum n)).operand (s.insn (arrNum n)).c)).kLen)) = false) ∧ (s.admits (arrNum n) [((s.arr (arrNum n)).lbWord (s.insn (arrNum n)).a, elemWords (32 * (tileKey ((s.arr (arrNum n)).operand (s.insn (arrNum n)).c)).kLen) (fmtWidth (s.insn (arrNum n)).fa)), ((s.arr (arrNum n)).lbWord (s.insn (arrNum n)).b, elemWords (32 * (s.insn (arrNum n)).mod * (tileKey ((s.arr (arrNum n)).operand (s.insn (arrNum n)).c)).kLen) (fmtWidth (s.insn (arrNum n)).fb))] [((s.arr (arrNum n)).lbWord (s.insn (arrNum n)).d, 128 * (s.insn (arrNum n)).mod)] = true) ∧ (s.flag (F.ARR_STATE_exact (arrNum n)) = true) ∧ ((s.insn (arrNum n)).isInt = false) ∧ (j.unreserved ((j.slotPlace (tileKey ((s.arr (arrNum n)).operand (s.insn (arrNum n)).c)).owner).getD (arrNum n) / 24) < j.newEntries (tileKey ((s.arr (arrNum n)).operand (s.insn (arrNum n)).c)) (s.insn (arrNum n)).mod)) :=
  ⟨⟨wA0, (wExact (wSeqA (wInsF 0x31 10 10 12 1 0 0 40 20 (wS 1)) (fun a => wHeldA (wLb wConvBlkC (wReg1 (wKey 300) a))))), wJobC, by decide +kernel⟩,
    ⟨wA0, (wSeqA (wInsF 0x36 0 0 13 1 0 (wS 1) 40 0 80) (fun a => wHeldA (wReg1 (wKey 4) a))), wJobC, by decide +kernel⟩,
    ⟨wA0, (wExact (wSeqA (wInsF 0x36 10 10 12 1 0 (wS 1) 1000 0 3000) (fun a => wHeldA (wReg1 (wKey 257) a)))), wJobC, by decide +kernel⟩⟩

theorem test_meets_Contractions_4 :
    (∃ (n : Arr) (s : State) (j : Job), (s.arrJob (arrNum n) = some j) ∧ (s.sound (arrNum n) (s.nextPc (arrNum n)) = true) ∧ (s.issues (arrNum n) 54 = true) ∧ ((tileKey ((s.arr (arrNum n)).operand (s.insn (arrNum n)).c)).owner = (s.arr (arrNum n)).slot) ∧ (contractCause j (s.arr (arrNum n)).slot (s.insn (arrNum n)) ((s.arr (arrNum n)).operand (s.insn (arrNum n)).c) (List.range (kTiles (tileKey ((s.arr (arrNum n)).operand (s.insn (arrNum n)).c)).kLen)) = 0) ∧ (j.tileConflict (tileKey ((s.arr (arrNum n)).operand (s.insn (arrNum n)).c)) (s.insn (arrNum n)).isInt (s.insn (arrNum n)).mod (List.range (kTiles (tileKey ((s.arr (arrNum n)).operand (s.insn (arrNum n)).c)).kLen)) = false) ∧ (s.admits (arrNum n) [((s.arr (arrNum n)).lbWord (s.insn (arrNum n)).a, elemWords (32 * (tileKey ((s.arr (arrNum n)).operand (s.insn (arrNum n)).c)).kLen) (fmtWidth (s.insn (arrNum n)).fa)), ((s.arr (arrNum n)).lbWord (s.insn (arrNum n)).b, elemWords (32 * (s.insn (arrNum n)).mod * (tileKey ((s.arr (arrNum n)).operand (s.insn (arrNum n)).c)).kLen) (fmtWidth (s.insn (arrNum n)).fb))] [((s.arr (arrNum n)).lbWord (s.insn (arrNum n)).d, 128 * (s.insn (arrNum n)).mod)] = true) ∧ (s.flag (F.ARR_STATE_exact (arrNum n)) = false ∨ (s.insn (arrNum n)).isInt = true ∨ j.newEntries (tileKey ((s.arr (arrNum n)).operand (s.insn (arrNum n)).c)) (s.insn (arrNum n)).mod ≤ j.unreserved ((j.slotPlace (tileKey ((s.arr (arrNum n)).operand (s.insn (arrNum n)).c)).owner).getD (arrNum n) / 24)))
    ∧ (∃ (n : Arr) (s : State) (j : Job), (s.arrJob (arrNum n) = some j) ∧ (s.sound (arrNum n) (s.nextPc (arrNum n)) = true) ∧ (s.issues (arrNum n) 54 = true) ∧ ((tileKey ((s.arr (arrNum n)).operand (s.insn (arrNum n)).c)).owner = (s.arr (arrNum n)).slot) ∧ (contractCause j (s.arr (arrNum n)).slot (s.insn (arrNum n)) ((s.arr (arrNum n)).operand (s.insn (arrNum n)).c) (List.range (kTiles (tileKey ((s.arr (arrNum n)).operand (s.insn (arrNum n)).c)).kLen)) = 0) ∧ (j.tileConflict (tileKey ((s.arr (arrNum n)).operand (s.insn (arrNum n)).c)) (s.insn (arrNum n)).isInt (s.insn (arrNum n)).mod (List.range (kTiles (tileKey ((s.arr (arrNum n)).operand (s.insn (arrNum n)).c)).kLen)) = false) ∧ (s.admits (arrNum n) [((s.arr (arrNum n)).lbWord (s.insn (arrNum n)).a, elemWords (32 * (tileKey ((s.arr (arrNum n)).operand (s.insn (arrNum n)).c)).kLen) (fmtWidth (s.insn (arrNum n)).fa)), ((s.arr (arrNum n)).lbWord (s.insn (arrNum n)).b, elemWords (32 * (s.insn (arrNum n)).mod * (tileKey ((s.arr (arrNum n)).operand (s.insn (arrNum n)).c)).kLen) (fmtWidth (s.insn (arrNum n)).fb))] [((s.arr (arrNum n)).lbWord (s.insn (arrNum n)).d, 128 * (s.insn (arrNum n)).mod)] = true) ∧ (s.flag (F.ARR_STATE_exact (arrNum n)) = true) ∧ ((s.insn (arrNum n)).isInt = false) ∧ (j.unreserved ((j.slotPlace (tileKey ((s.arr (arrNum n)).operand (s.insn (arrNum n)).c)).owner).getD (arrNum n) / 24) < j.newEntries (tileKey ((s.arr (arrNum n)).operand (s.insn (arrNum n)).c)) (s.insn (arrNum n)).mod))
    ∧ (∃ (n : Arr) (s : State) (j : Job), (s.arrJob (arrNum n) = some j) ∧ (s.sound (arrNum n) (s.nextPc (arrNum n)) = true) ∧ (s.issues (arrNum n) 49 = true) ∧ ((convBlock (cellRead (s.arr (arrNum n)).lb ((s.arr (arrNum n)).lbWord (s.insn (arrNum n)).c * 32) 64)).legal = true ∧ (tileKey ((s.arr (arrNum n)).operand (s.insn (arrNum n)).d)).kLen = (convBlock (cellRead (s.arr (arrNum n)).lb ((s.arr (arrNum n)).lbWord (s.insn (arrNum n)).c * 32) 64)).rows.k * (convBlock (cellRead (s.arr (arrNum n)).lb ((s.arr (arrNum n)).lbWord (s.insn (arrNum n)).c * 32) 64)).cols.k * (convBlock (cellRead (s.arr (arrNum n)).lb ((s.arr (arrNum n)).lbWord (s.insn (arrNum n)).c * 32) 64)).cIn ∧ lbFits ((s.arr (arrNum n)).lbWord (s.insn (arrNum n)).c) 2 = true) ∧ ((convBlock (cellRead (s.arr (arrNum n)).lb ((s.arr (arrNum n)).lbWord (s.insn (arrNum n)).c * 32) 64)).empty = false) ∧ (contractCause j (s.arr (arrNum n)).slot (s.insn (arrNum n)) ((s.arr (arrNum n)).operand (s.insn (arrNum n)).d) [(s.insn (arrNum n)).imm] = 0) ∧ (j.tileConflict (tileKey ((s.arr (arrNum n)).operand (s.insn (arrNum n)).d)) (s.insn (arrNum n)).isInt (s.insn (arrNum n)).mod [(s.insn (arrNum n)).imm] = false) ∧ (s.admits (arrNum n) [((s.arr (arrNum n)).lbWord (s.insn (arrNum n)).a, ((s.arr (arrNum n)).convRows (convBlock (cellRead (s.arr (arrNum n)).lb ((s.arr (arrNum n)).lbWord (s.insn (arrNum n)).c * 32) 64)) ((convBlock (cellRead (s.arr (arrNum n)).lb ((s.arr (arrNum n)).lbWord (s.insn (arrNum n)).c * 32) 64)).pitch (fmtWidth (s.insn (arrNum n)).fa)) ((s.arr (arrNum n)).lbWord (s.insn (arrNum n)).a)).length * (convBlock (cellRead (s.arr (arrNum n)).lb ((s.arr (arrNum n)).lbWord (s.insn (arrNum n)).c * 32) 64)).pitch (fmtWidth (s.insn (arrNum n)).fa)), ((s.arr (arrNum n)).lbWord (s.insn (arrNum n)).b, elemWords (32 * (tileKey ((s.arr (arrNum n)).operand (s.insn (arrNum n)).d)).kLen) (fmtWidth (s.insn (arrNum n)).fb)), ((s.arr (arrNum n)).lbWord (s.insn (arrNum n)).c, 2)] [] = true) ∧ (s.flag (F.ARR_STATE_exact (arrNum n)) = false ∨ (s.insn (arrNum n)).isInt = true ∨ j.newEntries (tileKey ((s.arr (arrNum n)).operand (s.insn (arrNum n)).d)) (s.insn (arrNum n)).mod ≤ j.unreserved ((j.slotPlace (tileKey ((s.arr (arrNum n)).operand (s.insn (arrNum n)).d)).owner).getD (arrNum n) / 24))) :=
  ⟨⟨wA0, (wSeqA (wInsF 0x36 0 0 13 1 0 (wS 1) 40 0 80) (wReg1 (wKey 4))), wJobC, by decide +kernel⟩,
    ⟨wA0, (wExact (wSeqA (wInsF 0x36 10 10 12 1 0 (wS 1) 1000 0 3000) (wReg1 (wKey 257)))), wJobC, by decide +kernel⟩,
    ⟨wA0, (wSeqA (wInsF 0x31 0 0 13 1 0 0 40 20 (wS 1)) (fun a => wLb wConvBlk (wReg1 (wKey 1) a))), wJobC, by decide +kernel⟩⟩

theorem test_meets_Contractions_5 :
    (∃ (n : Arr) (s : State) (j : Job), (s.arrJob (arrNum n) = some j) ∧ (s.sound (arrNum n) (s.nextPc (arrNum n)) = true) ∧ (s.issues (arrNum n) 49 = true) ∧ ((convBlock (cellRead (s.arr (arrNum n)).lb ((s.arr (arrNum n)).lbWord (s.insn (arrNum n)).c * 32) 64)).legal = true ∧ (tileKey ((s.arr (arrNum n)).operand (s.insn (arrNum n)).d)).kLen = (convBlock (cellRead (s.arr (arrNum n)).lb ((s.arr (arrNum n)).lbWord (s.insn (arrNum n)).c * 32) 64)).rows.k * (convBlock (cellRead (s.arr (arrNum n)).lb ((s.arr (arrNum n)).lbWord (s.insn (arrNum n)).c * 32) 64)).cols.k * (convBlock (cellRead (s.arr (arrNum n)).lb ((s.arr (arrNum n)).lbWord (s.insn (arrNum n)).c * 32) 64)).cIn ∧ lbFits ((s.arr (arrNum n)).lbWord (s.insn (arrNum n)).c) 2 = true) ∧ ((convBlock (cellRead (s.arr (arrNum n)).lb ((s.arr (arrNum n)).lbWord (s.insn (arrNum n)).c * 32) 64)).empty = false) ∧ (contractCause j (s.arr (arrNum n)).slot (s.insn (arrNum n)) ((s.arr (arrNum n)).operand (s.insn (arrNum n)).d) [(s.insn (arrNum n)).imm] = 0) ∧ (j.tileConflict (tileKey ((s.arr (arrNum n)).operand (s.insn (arrNum n)).d)) (s.insn (arrNum n)).isInt (s.insn (arrNum n)).mod [(s.insn (arrNum n)).imm] = false) ∧ (s.admits (arrNum n) [((s.arr (arrNum n)).lbWord (s.insn (arrNum n)).a, ((s.arr (arrNum n)).convRows (convBlock (cellRead (s.arr (arrNum n)).lb ((s.arr (arrNum n)).lbWord (s.insn (arrNum n)).c * 32) 64)) ((convBlock (cellRead (s.arr (arrNum n)).lb ((s.arr (arrNum n)).lbWord (s.insn (arrNum n)).c * 32) 64)).pitch (fmtWidth (s.insn (arrNum n)).fa)) ((s.arr (arrNum n)).lbWord (s.insn (arrNum n)).a)).length * (convBlock (cellRead (s.arr (arrNum n)).lb ((s.arr (arrNum n)).lbWord (s.insn (arrNum n)).c * 32) 64)).pitch (fmtWidth (s.insn (arrNum n)).fa)), ((s.arr (arrNum n)).lbWord (s.insn (arrNum n)).b, elemWords (32 * (tileKey ((s.arr (arrNum n)).operand (s.insn (arrNum n)).d)).kLen) (fmtWidth (s.insn (arrNum n)).fb)), ((s.arr (arrNum n)).lbWord (s.insn (arrNum n)).c, 2)] [] = true) ∧ (s.flag (F.ARR_STATE_exact (arrNum n)) = true) ∧ ((s.insn (arrNum n)).isInt = false) ∧ (j.unreserved ((j.slotPlace (tileKey ((s.arr (arrNum n)).operand (s.insn (arrNum n)).d)).owner).getD (arrNum n) / 24) < j.newEntries (tileKey ((s.arr (arrNum n)).operand (s.insn (arrNum n)).d)) (s.insn (arrNum n)).mod))
    ∧ (∃ (n : Arr) (s : State) (j : Job), (s.arrJob (arrNum n) = some j) ∧ (s.sound (arrNum n) (s.nextPc (arrNum n)) = true) ∧ (s.issues (arrNum n) 49 = true) ∧ ((convBlock (cellRead (s.arr (arrNum n)).lb ((s.arr (arrNum n)).lbWord (s.insn (arrNum n)).c * 32) 64)).legal = true ∧ (tileKey ((s.arr (arrNum n)).operand (s.insn (arrNum n)).d)).kLen = (convBlock (cellRead (s.arr (arrNum n)).lb ((s.arr (arrNum n)).lbWord (s.insn (arrNum n)).c * 32) 64)).rows.k * (convBlock (cellRead (s.arr (arrNum n)).lb ((s.arr (arrNum n)).lbWord (s.insn (arrNum n)).c * 32) 64)).cols.k * (convBlock (cellRead (s.arr (arrNum n)).lb ((s.arr (arrNum n)).lbWord (s.insn (arrNum n)).c * 32) 64)).cIn ∧ lbFits ((s.arr (arrNum n)).lbWord (s.insn (arrNum n)).c) 2 = true) ∧ ((convBlock (cellRead (s.arr (arrNum n)).lb ((s.arr (arrNum n)).lbWord (s.insn (arrNum n)).c * 32) 64)).empty = true) ∧ (contractCause j (s.arr (arrNum n)).slot (s.insn (arrNum n)) ((s.arr (arrNum n)).operand (s.insn (arrNum n)).d) [(s.insn (arrNum n)).imm] = 0) ∧ (j.tileConflict (tileKey ((s.arr (arrNum n)).operand (s.insn (arrNum n)).d)) (s.insn (arrNum n)).isInt (s.insn (arrNum n)).mod [(s.insn (arrNum n)).imm] = false) ∧ (s.admits (arrNum n) [((s.arr (arrNum n)).lbWord (s.insn (arrNum n)).c, 2)] [] = true))
    ∧ (∃ (n : Arr) (s : State) (j : Job), (s.arrJob (arrNum n) = some j) ∧ (s.sound (arrNum n) (s.nextPc (arrNum n)) = true) ∧ (s.issues (arrNum n) 50 = true) ∧ ((s.insn (arrNum n)).mod ≠ 0) ∧ ((tileKey ((s.arr (arrNum n)).operand (s.insn (arrNum n)).a)).owner = (s.arr (arrNum n)).slot) ∧ ((tileKey ((s.arr (arrNum n)).operand (s.insn (arrNum n)).a)).key + (s.insn (arrNum n)).mod ≤ 16777216) ∧ (s.admits (arrNum n) [] [((s.arr (arrNum n)).lbWord (s.insn (arrNum n)).d, 128 * (s.insn (arrNum n)).mod)] = true))
    ∧ (∃ (n : Arr) (s : State) (f : Fly) (j : Job) (key : ℕ) (dst : ℕ) (t : TileSt) (es : List Elt) (flags : ℕ), ((s.arr (arrNum n)).oldest IssueUnit.tensor = some f) ∧ (s.arrJob (arrNum n) = some j) ∧ (f.red = some (key, 1, dst)) ∧ (j.tile (s.arr (arrNum n)).slot key = some t) ∧ (t.result j.exact = some (es, flags)) ∧ ((es.all fun (e : Elt) => !e.2) = true) ∧ ((s.arr (arrNum n)).lbCond = []) ∧ ((s.arr (arrNum n)).inject = []) ∧ (f.memW = []) ∧ (f.scat = none) ∧ (f.bell = none) ∧ (f.parts = []) ∧ (f.cause = 0))
    ∧ (∃ (s : State) (x : ℕ) (p : Partial) (j : Job) (t : TileSt), (s.transit[x]? = some p) ∧ (s.job p.queue p.index = some j) ∧ (j.tile p.owner p.key = some t) ∧ (t.die = p.src / 24 ∨ s.cdState t.die ≠ 4 ∧ s.cdState (p.src / 24) ≠ 4))
    ∧ (∃ (s : State) (x : ℕ) (p : Partial) (j : Job) (t : TileSt), (s.transit[x]? = some p) ∧ (s.job p.queue p.index = some j) ∧ (j.tile p.owner p.key = some t) ∧ (t.die ≠ p.src / 24) ∧ (s.cdState t.die = 4 ∨ s.cdState (p.src / 24) = 4))
    ∧ (∃ (fa : ℕ) (fb : ℕ) (x : OpVec) (y : OpVec), (fmtInt fa = true) ∧ (fmtInt fb = true)) :=
  ⟨⟨wA0, (wExact (wSeqA (wInsF 0x31 10 10 12 1 0 0 40 20 (wS 1)) (fun a => wLb wConvBlkC (wReg1 (wKey 300) a)))), wJobC, by decide +kernel⟩,
    ⟨wA0, (wSeqA (wInsF 0x31 0 0 13 1 0 0 40 20 (wS 1)) (fun a => wLb wConvBlk0 (wReg1 (wKey 9) a))), wJobC, by decide +kernel⟩,
    ⟨wA0, (wSeqA (wIns 0x32 1 0 wNo wNo (wS 1) 0) (wReg1 (wKey 4))), wJobC, by decide +kernel⟩,
    ⟨wA0, wRedSt, wRedFly, wRedJob, 0, 0, wTile, [(5, false), (7, false)], 0, by decide +kernel⟩,
    ⟨wPartSt, 0, wPart, { wJob with accs := [{ wTile with count := 0, acc := [] }] }, { wTile with count := 0, acc := [] }, by decide +kernel⟩,
    ⟨wPart1, 0, { wPart with src := 30 }, { wJob with accs := [{ wTile with count := 0, acc := [] }] }, { wTile with count := 0, acc := [] }, by decide +kernel⟩,
    ⟨0, 1, ⟨[(255, false)], []⟩, ⟨[(255, false)], []⟩, by decide +kernel⟩⟩

theorem test_meets_SumOrder : ∃ (t : TileSt) (exact : Bool) (ps : List Partial) (qs : List Partial), (t.arrived = []) ∧ (t.count = 0) ∧ (t.acc = []) ∧ (t.flags = 0) ∧ (ps.Perm qs) ∧ ((List.map (fun (x : Partial) => x.t) ps).Nodup) ∧ (∀ p ∈ ps, p.int = t.int ∧ p.els.length = 1024) ∧ (exact = true ∨ t.int = true) :=
  ⟨{ owner := 0, key := 0, kLen := 512, int := false, issued := [] }, true, [⟨0, 0, 0, 0, 512, 0, false, 0, List.replicate 1024 default, []⟩, ⟨0, 0, 0, 0, 512, 1, false, 0, List.replicate 1024 default, []⟩], [⟨0, 0, 0, 0, 512, 1, false, 0, List.replicate 1024 default, []⟩, ⟨0, 0, 0, 0, 512, 0, false, 0, List.replicate 1024 default, []⟩], by decide +kernel⟩

theorem test_meets_ArraySlots_1 :
    (∃ (n : Arr) (s : State) (id : JobId) (slot : ℕ) (j : Job), (s.jobOf id = some j) ∧ (j.assigned slot (arrNum n) = true) ∧ (s.get (F.ARR_STATE_state (arrNum n)) = 0) ∧ (s.get (F.ARR_JOB_QUEUE_valid (arrNum n)) = 0) ∧ (↑n.die ∈ j.granted ∨ j.grantSize ≤ s.redFree ↑n.die) ∧ (s.holdsProgram (arrNum n) j = false))
    ∧ (∃ (n : Arr) (s : State) (id : JobId) (slot : ℕ) (j : Job), (s.jobOf id = some j) ∧ (j.assigned slot (arrNum n) = true) ∧ (s.get (F.ARR_STATE_state (arrNum n)) = 0) ∧ (s.get (F.ARR_JOB_QUEUE_valid (arrNum n)) = 0) ∧ (↑n.die ∈ j.granted ∨ j.grantSize ≤ s.redFree ↑n.die) ∧ (s.holdsProgram (arrNum n) j = true) ∧ (fieldAt j.header 8 2 < 4096) ∧ (s.sound (arrNum n) (fieldAt j.header 8 2) = true))
    ∧ (∃ (n : Arr) (s : State) (j : Job), (s.arrJob (arrNum n) = some j) ∧ ((s.arr (arrNum n)).loading = true) ∧ (s.plainAt (j.program + 128) = true) ∧ (s.badRange (j.program + 128) (16 * fieldAt j.header 6 2) = false) ∧ (s.cond = []) ∧ (fieldAt j.header 8 2 < fieldAt j.header 6 2) ∧ (fieldAt j.header 6 2 ≤ 4096) ∧ ((opInfo (decodeInsn (BitVec.ofNat 128 (s.peekNat (j.program + 128 + 16 * fieldAt j.header 8 2) 16))).op).isSome = true))
    ∧ (∃ (n : Arr) (s : State) (u : IssueUnit) (f : Fly), ((s.arr (arrNum n)).oldest u = some f) ∧ (f.ready = true) ∧ (f.scat = none) ∧ (f.bell = none) ∧ (f.cause = 0) ∧ ((s.arr (arrNum n)).lbCond = []) ∧ ((s.arr (arrNum n)).inject = []) ∧ (f.bitW = []) ∧ ((f.lbW.all fun (x : Seg) => !x.poison) = true) ∧ ((f.memW.all fun (x : Seg) => !x.poison && s.plainStore x.addr x.data.length) = true))
    ∧ (∃ (n : Arr) (s : State) (u : IssueUnit) (f : Fly), ((s.arr (arrNum n)).oldest u = some f) ∧ (f.ready = false) ∧ (f.red.isSome = true) ∧ (f.parts ≠ []))
    ∧ (∃ (n : Arr) (s : State), ((s.arr (arrNum n)).stop = some 0) ∧ ((s.arr (arrNum n)).ending = false) ∧ ((s.arr (arrNum n)).atBoundary = true) ∧ (s.onWard (arrNum n) = false))
    ∧ (∃ (n : Arr) (s : State) (j : Job), ((s.arr (arrNum n)).ending = true) ∧ ((s.arr (arrNum n)).flights = []) ∧ (s.arrJob (arrNum n) = some j) ∧ (∀ d ∈ s.stest.dies, d.2.outReq = [] ∧ d.2.dieOut = false))
    ∧ (∃ (n : Arr) (s : State) (kind : ℕ), ((s.arr (arrNum n)).wait = ArrWait.fence kind) ∧ (s.get (F.ARR_STATE_state (arrNum n)) = 1) ∧ (s.drained (arrNum n) = true) ∧ (s.xgs.outs = []) ∧ (s.xgs.lost = []) ∧ (s.sound (arrNum n) (s.nextPc (arrNum n)) = true))
    ∧ (∃ (n : Arr) (s : State), (s.issues (arrNum n) 23 = true) ∧ ((s.insn (arrNum n)).mod.testBit 0 = false) ∧ (s.drained (arrNum n) = true) ∧ (s.sound (arrNum n) (s.nextPc (arrNum n)) = true) ∧ (s.fence (refObj (s.insn (arrNum n)).c) + (s.insn (arrNum n)).imm < 2 ^ 64))
    ∧ (∃ (n : Arr) (acc : Sys2Proof.Acc) (s : State) (s2 : State) (w : Word), (s.written (pgARR (arrNum n)) 36 acc = some (s2, w)) ∧ (BitVec.getLsbD w 0 = true) ∧ (BitVec.getLsbD w 2 = false) ∧ (s2.get (F.ARR_STATE_state (arrNum n)) = 1))
    ∧ (∃ (n : Arr) (acc : Sys2Proof.Acc) (s : State) (s2 : State) (w : Word), (s.written (pgARR (arrNum n)) 36 acc = some (s2, w)) ∧ (BitVec.getLsbD w 1 = true) ∧ (BitVec.getLsbD w 0 = false) ∧ (BitVec.getLsbD w 2 = false) ∧ (s2.get (F.ARR_STATE_state (arrNum n)) = 2))
    ∧ (∃ (n : Arr) (acc : Sys2Proof.Acc) (s : State) (s2 : State) (w : Word), (s.written (pgARR (arrNum n)) 36 acc = some (s2, w)) ∧ (BitVec.getLsbD w 2 = true) ∧ (s2.get (F.ARR_JOB_QUEUE_valid (arrNum n)) = 1) ∧ ((s2.arr (arrNum n)).ending = false) ∧ (s2.arrJob (arrNum n) = none)) :=
  ⟨⟨wA0, wStartSt, wId, 0, { wJob with slots := [{ phase := 1, die := 0, logical := 0 }] }, by decide +kernel⟩,
    ⟨wA0, wStartHeld, wId, 0, { wJob with slots := [{ phase := 1, die := 0, logical := 0 }] }, by decide +kernel⟩,
    ⟨wA0, wLoadSt, wLoadJob, by decide +kernel⟩,
    ⟨wA0, wLandSt, .move, wLandFly, by decide +kernel⟩,
    ⟨wA0, wKvxSt, .tensor, wKvxFly, by decide +kernel⟩,
    ⟨wA0, wStopSt, by decide +kernel⟩,
    ⟨wA0, wEndSt, wJob, by decide +kernel⟩,
    ⟨wA0, (wWaitFor (.fence 3)), 3, by decide +kernel⟩,
    ⟨wA0, (wSeq (wIns 0x17 0 5 0xC005 wNo wNo wNo)), by decide +kernel⟩,
    ⟨wA0, (wAcc 1), (wPage (wSeq 0)), wHaltWr.1, wHaltWr.2, by decide +kernel⟩,
    ⟨wA0, (wAcc 2), (wPage wHalted), wResumeWr.1, wResumeWr.2, by decide +kernel⟩,
    ⟨wA0, (wAcc 4), (wPage wNoJobSt), (wWr (wPage wNoJobSt) 128 0x24 (wAcc 4)).1, (wWr (wPage wNoJobSt) 128 0x24 (wAcc 4)).2, by decide +kernel⟩⟩

theorem test_meets_ArraySlots_2 :
    (∃ (n : Arr) (acc : Sys2Proof.Acc) (s : State) (s2 : State) (w : Word) (j : Job), (s.written (pgARR (arrNum n)) 36 acc = some (s2, w)) ∧ (BitVec.getLsbD w 2 = true) ∧ (s2.get (F.ARR_JOB_QUEUE_valid (arrNum n)) = 1) ∧ ((s2.arr (arrNum n)).ending = false) ∧ (s2.arrJob (arrNum n) = some j))
    ∧ (∃ (n : Arr) (acc : Sys2Proof.Acc) (s : State) (s2 : State) (w : Word), (s.takesWrites (pgARR (arrNum n)) acc = true) ∧ (acc.be = 15#4) ∧ (s.get (F.BLK_LEVEL_expert (pgARR (arrNum n))) = 1) ∧ (↑n.num < s.fuse.perDie) ∧ ((s.cell (pgARR (arrNum n)) 256).wrong = none))
    ∧ (∃ (n : Arr) (acc : Sys2Proof.Acc) (s : State) (s2 : State) (w : Word), (s.written (pgARR (arrNum n)) 260 acc = some (s2, w)) ∧ (s2.get (F.ARR_STATE_state (arrNum n)) ≠ 1) ∧ (BitVec.getLsbD w 16 = true))
    ∧ (∃ (n : Arr) (acc : Sys2Proof.Acc) (s : State) (s2 : State) (w : Word), (s.written (pgARR (arrNum n)) 260 acc = some (s2, w)) ∧ (s2.get (F.ARR_STATE_state (arrNum n)) ≠ 1) ∧ (BitVec.getLsbD w 17 = true)) :=
  ⟨⟨wA0, (wAcc 4), (wPage (wSeq 0)), wAbortWr.1, wAbortWr.2, wJob, by decide +kernel⟩,
    ⟨wA0, (wAcc 3), (wPageX (wSeq 0)), wHaltWr.1, wHaltWr.2, by decide +kernel⟩,
    ⟨wA0, (wAcc 0x10005), (wPageX wNotRun), wInj1Wr.1, wInj1Wr.2, by decide +kernel⟩,
    ⟨wA0, (wAcc 0x20005), (wPageX wNotRun), wInj2Wr.1, wInj2Wr.2, by decide +kernel⟩⟩

theorem test_meets_KvPagesAndReferences_1 :
    (∃ (s : State) (page : ℕ) (w : ℕ) (dref : ℕ) (dpin : ℕ), (s.plainStore (s.kvWordAddr page) 4 = true) ∧ (s.peekNat (s.kvWordAddr page) 4 = w) ∧ (w < 2 ^ 24) ∧ (w % 65536 + dref ≤ 65535) ∧ (w / 65536 + dpin ≤ 255))
    ∧ (∃ (s : State) (page : ℕ) (w : ℕ) (dref : ℕ) (dpin : ℕ), (s.plainStore (s.kvWordAddr page) 4 = true) ∧ (s.peekNat (s.kvWordAddr page) 4 = w) ∧ (w < 2 ^ 24) ∧ (65535 < w % 65536 + dref))
    ∧ (∃ (s : State) (page : ℕ) (w : ℕ) (dref : ℕ) (dpin : ℕ), (s.plainStore (s.kvWordAddr page) 4 = true) ∧ (s.peekNat (s.kvWordAddr page) 4 = w) ∧ (w < 2 ^ 24) ∧ (w % 65536 + dref ≤ 65535) ∧ (255 < w / 65536 + dpin))
    ∧ (∃ (s : State) (page : ℕ) (w : ℕ) (dref : ℕ) (dpin : ℕ), (s.plainStore (s.kvWordAddr page) 4 = true) ∧ (s.peekNat (s.kvWordAddr page) 4 = w) ∧ (w < 2 ^ 24) ∧ (w % 65536 < dref))
    ∧ (∃ (s : State) (page : ℕ) (w : ℕ) (dref : ℕ) (dpin : ℕ), (s.plainStore (s.kvWordAddr page) 4 = true) ∧ (s.peekNat (s.kvWordAddr page) 4 = w) ∧ (w < 2 ^ 24) ∧ (dref ≤ w % 65536) ∧ (w / 65536 < dpin))
    ∧ (∃ (s : State) (page : ℕ) (w : ℕ) (dref : ℕ) (dpin : ℕ), (s.plainStore (s.kvWordAddr page) 4 = true) ∧ (s.peekNat (s.kvWordAddr page) 4 = w) ∧ (w < 2 ^ 24) ∧ (dref ≤ w % 65536) ∧ (dpin ≤ w / 65536) ∧ (w ≠ dref + 65536 * dpin))
    ∧ (∃ (s : State) (page : ℕ) (w : ℕ) (dref : ℕ) (dpin : ℕ) (p : ℕ), (s.plainStore (s.kvWordAddr page) 4 = true) ∧ (s.peekNat (s.kvWordAddr page) 4 = w) ∧ (w < 2 ^ 24) ∧ (w = dref + 65536 * dpin) ∧ (s.kvPoolOf page = some p))
    ∧ (∃ (s : State) (page : ℕ) (w : ℕ) (dref : ℕ) (dpin : ℕ) (p : ℕ), (s.plainStore (s.kvWordAddr page) 4 = true) ∧ (s.peekNat (s.kvWordAddr page) 4 = w) ∧ (w < 2 ^ 24) ∧ (tabFind s.kv.heads p = none))
    ∧ (∃ (s : State) (p : ℕ) (page : ℕ) (next : ℕ) (new : ℕ), (tabFind s.kv.heads p = some page) ∧ (s.plainStore (s.kvWordAddr page) 4 = true) ∧ (s.peekNat (s.kvWordAddr page) 4 = 2 ^ 31 + next) ∧ (next ≤ kvEnd) ∧ (new < 2 ^ 16) ∧ (s.get (F.KV_FREE_pages p) ≠ 0))
    ∧ (∃ (s : State) (p : ℕ) (page : ℕ) (next : ℕ) (new : ℕ), (tabFind s.kv.heads p = some page) ∧ (s.plainStore (s.kvWordAddr page) 4 = true) ∧ (s.peekNat (s.kvWordAddr page) 4 = 2 ^ 31 + next) ∧ (next ≤ kvEnd) ∧ (new < 2 ^ 16) ∧ (s.get (F.KV_FREE_pages p) ≠ 0) ∧ (s.get (F.KV_FREE_pages p) - 1 + 1 = s.get F.KV_LOW_WATER_pages))
    ∧ (∃ (n : Arr) (s : State) (s1 : State) (s2 : State) (s3 : State) (s4 : State) (f : Fly) (d : KvSeq) (page : ℕ) (pool : ℕ) (new : ℕ) (v : ℕ) (q : KvFetch), (((s.arr (arrNum n)).flyWhere fun (f : Fly) => Option.any (fun (q : KvFetch) => decide (q.asked < q.blocks)) f.kvF) = some f) ∧ (f.kvF = some q) ∧ (s.get F.KV_STATUS_state ≠ 1) ∧ (s.kvCheck q.seq q.layer (q.block + q.asked) q.fmt = (s1, Except.ok d)) ∧ (s1.kvEntry (d.entry q.layer (q.block + q.asked)) = (s2, some page)) ∧ (s2.kvInc page 0 1 = (s3, none)))
    ∧ (∃ (n : Arr) (s : State) (s1 : State) (s2 : State) (s3 : State) (s4 : State) (f : Fly) (d : KvSeq) (page : ℕ) (pool : ℕ) (new : ℕ) (v : ℕ) (q : KvFetch), (((s.arr (arrNum n)).flyWhere fun (f : Fly) => Option.any (fun (q : KvFetch) => decide (q.done < q.pages.length)) f.kvF) = some f) ∧ (f.kvF = some q) ∧ (q.pages[q.done]? = some (page, pool)) ∧ (s.plainMem (s.kvAddr pool page) (s.kvPage pool) = true) ∧ (s1 = (fun (u : State) (g : Fly → Fly) => { u with arrs := tabSet u.arrs (arrNum n) ((u.arr (arrNum n)).modFly f.id g) }) (s.mcTouches false (s.kvAddr pool page) (s.kvPage pool)) fun (f : Fly) => { f with lbW := f.lbW ++ segsOf (fun (x : ℕ) => false) (q.dst * 32 + q.done * s.kvPage pool) (s.bytes (s.kvAddr pool page) (s.kvPage pool)), kvF := some { q with done := q.done + 1 } }) ∧ (s1.kvDec page 0 1 = (s2, none))) :=
  ⟨⟨(wKv 0x10002), 1, 0x10002, 1, 1, by decide +kernel⟩,
    ⟨(wKv 0x1FFFF), 1, 0x1FFFF, 1, 1, by decide +kernel⟩,
    ⟨(wKv 0xFF0001), 1, 0xFF0001, 1, 1, by decide +kernel⟩,
    ⟨(wKv 0x10001), 1, 0x10001, 2, 1, by decide +kernel⟩,
    ⟨(wKv 0x00001), 1, 0x00001, 1, 1, by decide +kernel⟩,
    ⟨(wKv 0x10001), 1, 0x10001, 1, 0, by decide +kernel⟩,
    ⟨(wKv 0x10001), 1, 0x10001, 1, 1, 0, by decide +kernel⟩,
    ⟨(wKv 0x10001), 1, 0x10001, 1, 1, 5, by decide +kernel⟩,
    ⟨(wKv 1), 0, 2, 3, 1, by decide +kernel⟩,
    ⟨wKvLow, 0, 2, 3, 1, by decide +kernel⟩,
    ⟨wA0, wKvF2, (wKvOk wKvF2), (wKvEnt wKvF2 0), ((wKvEnt wKvF2 0).kvInc 1 0 1).1, wKvF2, (wFlyF wFetch), wSeqD, 1, 0, 0, 0, wFetch, by decide +kernel⟩,
    ⟨wA0, wKvFd, wKvFd1, (wKvFd1.kvDec 1 0 1).1, wKvFd, wKvFd, (wFlyF wFetched), wSeqD, 1, 0, 0, 0, wFetched, by decide +kernel⟩⟩

theorem test_meets_KvPagesAndReferences_2 :
    (∃ (n : Arr) (s : State) (s1 : State) (s2 : State) (s3 : State) (s4 : State) (f : Fly) (d : KvSeq) (page : ℕ) (pool : ℕ) (new : ℕ) (v : ℕ) (c : Instr) (ph : ℕ) (q : KvStore) (r : KvStore) (s0 : State), ((s.arr (arrNum n)).storeIn ph = some (f, r)) ∧ (s.get F.KV_STATUS_state ≠ 1) ∧ (c = Instr.kvWriteRequest n ∧ ph = 0 ∧ q = { r with order := s.kv.next } ∧ s0 = { s with kv := have __src := s.kv; { __src with next := s.kv.next + 1 } } ∨ c = Instr.kvWriteResume n ∧ ph = 1 ∧ q = r ∧ s0 = s ∧ s.kvCopying r = false) ∧ (s0.kvCheck q.seq q.layer (q.token / 16) q.fmt = (s1, Except.ok d)) ∧ (s0.kvCopying q = true))
    ∧ (∃ (n : Arr) (s : State) (s1 : State) (s2 : State) (s3 : State) (s4 : State) (f : Fly) (d : KvSeq) (page : ℕ) (pool : ℕ) (new : ℕ) (v : ℕ) (c : Instr) (ph : ℕ) (q : KvStore) (r : KvStore) (s0 : State), ((s.arr (arrNum n)).storeIn ph = some (f, r)) ∧ (s.get F.KV_STATUS_state ≠ 1) ∧ (c = Instr.kvWriteRequest n ∧ ph = 0 ∧ q = { r with order := s.kv.next } ∧ s0 = { s with kv := have __src := s.kv; { __src with next := s.kv.next + 1 } } ∨ c = Instr.kvWriteResume n ∧ ph = 1 ∧ q = r ∧ s0 = s ∧ s.kvCopying r = false) ∧ (s0.kvCheck q.seq q.layer (q.token / 16) q.fmt = (s1, Except.ok d)) ∧ (s0.kvCopying q = false) ∧ (s1.kvEntry (d.entry q.layer (q.token / 16)) = (s2, none)) ∧ (s2.kvAlloc d.pool 1 = ((s3, none), new)))
    ∧ (∃ (n : Arr) (s : State) (s1 : State) (s2 : State) (s3 : State) (s4 : State) (f : Fly) (d : KvSeq) (page : ℕ) (pool : ℕ) (new : ℕ) (v : ℕ) (c : Instr) (ph : ℕ) (q : KvStore) (r : KvStore) (s0 : State), ((s.arr (arrNum n)).storeIn ph = some (f, r)) ∧ (s.get F.KV_STATUS_state ≠ 1) ∧ (c = Instr.kvWriteRequest n ∧ ph = 0 ∧ q = { r with order := s.kv.next } ∧ s0 = { s with kv := have __src := s.kv; { __src with next := s.kv.next + 1 } } ∨ c = Instr.kvWriteResume n ∧ ph = 1 ∧ q = r ∧ s0 = s ∧ s.kvCopying r = false) ∧ (s0.kvCheck q.seq q.layer (q.token / 16) q.fmt = (s1, Except.ok d)) ∧ (s0.kvCopying q = false) ∧ (s1.kvEntry (d.entry q.layer (q.token / 16)) = (s2, some page)) ∧ (s2.kvWord page = (s3, some v)) ∧ (v < 2 ^ 24) ∧ (v = 1))
    ∧ (∃ (n : Arr) (s : State) (s1 : State) (s2 : State) (s3 : State) (s4 : State) (f : Fly) (d : KvSeq) (page : ℕ) (pool : ℕ) (new : ℕ) (v : ℕ) (c : Instr) (ph : ℕ) (q : KvStore) (r : KvStore) (s0 : State), ((s.arr (arrNum n)).storeIn ph = some (f, r)) ∧ (s.get F.KV_STATUS_state ≠ 1) ∧ (c = Instr.kvWriteRequest n ∧ ph = 0 ∧ q = { r with order := s.kv.next } ∧ s0 = { s with kv := have __src := s.kv; { __src with next := s.kv.next + 1 } } ∨ c = Instr.kvWriteResume n ∧ ph = 1 ∧ q = r ∧ s0 = s ∧ s.kvCopying r = false) ∧ (s0.kvCheck q.seq q.layer (q.token / 16) q.fmt = (s1, Except.ok d)) ∧ (s0.kvCopying q = false) ∧ (s1.kvEntry (d.entry q.layer (q.token / 16)) = (s2, some page)) ∧ (s2.kvWord page = (s3, some v)) ∧ (v < 2 ^ 24) ∧ (v ≠ 1) ∧ (v < 255 * 65536) ∧ (s3.kvAlloc d.pool 0 = ((s4, none), new)))
    ∧ (∃ (n : Arr) (s : State) (s1 : State) (s2 : State) (s3 : State) (s4 : State) (f : Fly) (d : KvSeq) (page : ℕ) (pool : ℕ) (new : ℕ) (v : ℕ) (q : KvStore), ((s.arr (arrNum n)).storeIn 2 = some (f, q)) ∧ (s.plainStore (s.kvAddr q.pool q.oldPg) (s.kvPage q.pool / 32 * 32) = true) ∧ (s.plainStore (s.kvAddr q.pool q.newPg) (s.kvPage q.pool / 32 * 32) = true) ∧ (s.kvAddr q.pool q.oldPg + s.kvPage q.pool / 32 * 32 ≤ s.kvAddr q.pool q.newPg ∨ s.kvAddr q.pool q.newPg + s.kvPage q.pool / 32 * 32 ≤ s.kvAddr q.pool q.oldPg))
    ∧ (∃ (n : Arr) (s : State) (s1 : State) (s2 : State) (s3 : State) (s4 : State) (f : Fly) (d : KvSeq) (page : ℕ) (pool : ℕ) (new : ℕ) (v : ℕ) (q : KvStore), ((s.arr (arrNum n)).storeIn 3 = some (f, q)) ∧ (s.kvSeq q.seq = (s1, d)) ∧ (s1.kvDec q.oldPg 1 1 = (s2, none)))
    ∧ (∃ (n : Arr) (s : State) (s1 : State) (s2 : State) (s3 : State) (s4 : State) (f : Fly) (d : KvSeq) (page : ℕ) (pool : ℕ) (new : ℕ) (v : ℕ) (q : KvStore), ((s.arr (arrNum n)).flights = [f]) ∧ (f.kvS = some q) ∧ ((q.segs.all fun (g : Seg) => !g.poison && decide (g.addr + g.data.length ≤ q.count * s.kvRow pool ∧ g.data ≠ []) && s.plainStore (s.kvAddr pool page + q.token % 16 * s.kvRow pool + g.addr) g.data.length) = true)) :=
  ⟨⟨wA0, wKvBusy, (wKvOk (wKvN wKvBusy)), wKvBusy, wKvBusy, wKvBusy, (wFlyS 0), wSeqD, 1, 0, 0, 0, (.kvWriteRequest wA0), 0, (wStore 0), (wStore 0), (wKvN wKvBusy), by decide +kernel⟩,
    ⟨wA0, wKvNew, (wKvOk (wKvN wKvNew)), (wKvEnt (wKvN wKvNew) 1), ((wKvEnt (wKvN wKvNew) 1).kvAlloc 0 1).1.1, wKvNew, wFlyS1, wSeqD, 1, 0, 2, 0, (.kvWriteRequest wA0), 0, wStore1, wStore1, (wKvN wKvNew), by decide +kernel⟩,
    ⟨wA0, wKvS1, (wKvOk (wKvN wKvS1)), (wKvEnt (wKvN wKvS1) 0), (wKvWd (wKvN wKvS1)), wKvS1, (wFlyS 0), wSeqD, 1, 0, 2, 1, (.kvWriteRequest wA0), 0, (wStore 0), (wStore 0), (wKvN wKvS1), by decide +kernel⟩,
    ⟨wA0, wKvR2, (wKvOk wKvR2), (wKvEnt wKvR2 0), (wKvWd wKvR2), ((wKvWd wKvR2).kvAlloc 0 0).1.1, (wFlyS 1), wSeqD, 1, 0, 2, 2, (.kvWriteResume wA0), 1, (wStore 1), (wStore 1), wKvR2, by decide +kernel⟩,
    ⟨wA0, wCow, wCow, wCow, wCow, wCow, (wFlyS 2), wSeqD, 1, 0, 2, 2, (wStore 2), by decide +kernel⟩,
    ⟨wA0, wKvC3, (wKvC3.kvSeq 3).1, ((wKvC3.kvSeq 3).1.kvDec 1 1 1).1, wKvC3, wKvC3, (wFlyS 3), wSeqD, 1, 0, 2, 2, (wStore 3), by decide +kernel⟩,
    ⟨wA0, wKvS1, wKvS1, wKvS1, wKvS1, wKvS1, (wFlyS 0), wSeqD, 1, 0, 2, 2, (wStore 0), by decide +kernel⟩⟩

theorem test_meets_KvCommands_1 :
    (∃ (id : JobId) (s : State) (j : Job) (b : List Byte), (s.commandAt id 6 1 = some (j, b)) ∧ (s.get F.KV_STATUS_state = 2 ∧ (kvCmd b).zeros = true ∧ (kvCmd b).seq ≤ 65535) ∧ (((s.fetched j).kvSeq (kvCmd b).seq).2.isOpen = false) ∧ (((s.fetched j).kvSeq (kvCmd b).seq).2.sound = true) ∧ (s.plainStore (s.kvSeqAddr (kvCmd b).seq + 11) 1 = true))
    ∧ (∃ (id : JobId) (s : State) (j : Job) (b : List Byte), (s.commandAt id 6 2 = some (j, b)) ∧ (s.get F.KV_STATUS_state = 2 ∧ (kvCmd b).zeros = true ∧ (kvCmd b).seq ≤ 65535) ∧ (((s.fetched j).kvSeq (kvCmd b).seq).2.isOpen = true) ∧ (((s.fetched j).kvSeq (kvCmd b).seq).2.layers * ((s.fetched j).kvSeq (kvCmd b).seq).2.blocks ≤ j.kvAt))
    ∧ (∃ (id : JobId) (s : State) (j : Job) (b : List Byte) (v : State) (r : Option KvFail), (s.commandAt id 6 2 = some (j, b)) ∧ (s.get F.KV_STATUS_state = 2 ∧ (kvCmd b).zeros = true ∧ (kvCmd b).seq ≤ 65535) ∧ (((s.fetched j).kvSeq (kvCmd b).seq).2.isOpen = true) ∧ (j.kvAt < ((s.fetched j).kvSeq (kvCmd b).seq).2.layers * ((s.fetched j).kvSeq (kvCmd b).seq).2.blocks) ∧ (kvDrop ((s.fetched j).kvSeq (kvCmd b).seq).2 ((s.fetched j).kvSeq (kvCmd b).seq).1 (0 + j.kvAt / ((s.fetched j).kvSeq (kvCmd b).seq).2.blocks) (0 + j.kvAt % ((s.fetched j).kvSeq (kvCmd b).seq).2.blocks) = (v, r)))
    ∧ (∃ (id : JobId) (s : State) (j : Job) (b : List Byte), (s.commandAt id 6 3 = some (j, b)) ∧ (s.get F.KV_STATUS_state = 2 ∧ (kvCmd b).zeros = true ∧ (kvCmd b).seq ≤ 65535) ∧ (((s.fetched j).kvSeq (kvCmd b).seq).2.isOpen = true) ∧ ((kvCmd b).src ≤ 65535) ∧ ((((s.fetched j).kvSeq (kvCmd b).seq).1.kvSeq ((kvCmd b).src % 65536)).2.isOpen = true) ∧ (((s.fetched j).kvSeq (kvCmd b).seq).2.pool = (((s.fetched j).kvSeq (kvCmd b).seq).1.kvSeq ((kvCmd b).src % 65536)).2.pool) ∧ ((kvCmd b).inside ((s.fetched j).kvSeq (kvCmd b).seq).2 = true) ∧ ((kvCmd b).inside (((s.fetched j).kvSeq (kvCmd b).seq).1.kvSeq ((kvCmd b).src % 65536)).2 = true) ∧ ((kvCmd b).layers * (kvCmd b).blocks ≤ j.kvAt))
    ∧ (∃ (id : JobId) (s : State) (j : Job) (b : List Byte) (v : State) (r : Option KvFail), (s.commandAt id 6 3 = some (j, b)) ∧ (s.get F.KV_STATUS_state = 2 ∧ (kvCmd b).zeros = true ∧ (kvCmd b).seq ≤ 65535) ∧ (((s.fetched j).kvSeq (kvCmd b).seq).2.isOpen = true) ∧ ((kvCmd b).src ≤ 65535) ∧ ((((s.fetched j).kvSeq (kvCmd b).seq).1.kvSeq ((kvCmd b).src % 65536)).2.isOpen = true) ∧ (((s.fetched j).kvSeq (kvCmd b).seq).2.pool = (((s.fetched j).kvSeq (kvCmd b).seq).1.kvSeq ((kvCmd b).src % 65536)).2.pool) ∧ ((kvCmd b).inside ((s.fetched j).kvSeq (kvCmd b).seq).2 = true) ∧ ((kvCmd b).inside (((s.fetched j).kvSeq (kvCmd b).seq).1.kvSeq ((kvCmd b).src % 65536)).2 = true) ∧ (j.kvAt < (kvCmd b).layers * (kvCmd b).blocks) ∧ (kvShare (((s.fetched j).kvSeq (kvCmd b).seq).1.kvSeq ((kvCmd b).src % 65536)).2 ((s.fetched j).kvSeq (kvCmd b).seq).2 (((s.fetched j).kvSeq (kvCmd b).seq).1.kvSeq ((kvCmd b).src % 65536)).1 ((kvCmd b).layer0 + j.kvAt / (kvCmd b).blocks) ((kvCmd b).block0 + j.kvAt % (kvCmd b).blocks) = (v, r)))
    ∧ (∃ (id : JobId) (s : State) (j : Job) (b : List Byte), (s.commandAt id 6 4 = some (j, b)) ∧ (s.get F.KV_STATUS_state = 2 ∧ (kvCmd b).zeros = true ∧ (kvCmd b).seq ≤ 65535) ∧ (((s.fetched j).kvSeq (kvCmd b).seq).2.isOpen = true) ∧ ((kvCmd b).inside ((s.fetched j).kvSeq (kvCmd b).seq).2 = true) ∧ ((kvCmd b).layers * (kvCmd b).blocks ≤ j.kvAt))
    ∧ (∃ (id : JobId) (s : State) (j : Job) (b : List Byte) (v : State) (r : Option KvFail), (s.commandAt id 6 4 = some (j, b)) ∧ (s.get F.KV_STATUS_state = 2 ∧ (kvCmd b).zeros = true ∧ (kvCmd b).seq ≤ 65535) ∧ (((s.fetched j).kvSeq (kvCmd b).seq).2.isOpen = true) ∧ ((kvCmd b).inside ((s.fetched j).kvSeq (kvCmd b).seq).2 = true) ∧ (j.kvAt < (kvCmd b).layers * (kvCmd b).blocks) ∧ (kvDrop ((s.fetched j).kvSeq (kvCmd b).seq).2 ((s.fetched j).kvSeq (kvCmd b).seq).1 ((kvCmd b).layer0 + j.kvAt / (kvCmd b).blocks) ((kvCmd b).block0 + j.kvAt % (kvCmd b).blocks) = (v, r)))
    ∧ (∃ (id : JobId) (s : State) (j : Job) (b : List Byte), (s.commandAt id 6 5 = some (j, b)) ∧ (s.get F.KV_STATUS_state = 2 ∧ (kvCmd b).zeros = true ∧ (kvCmd b).seq ≤ 65535) ∧ (((s.fetched j).kvSeq (kvCmd b).seq).2.isOpen = true) ∧ (s.kvValid ((s.fetched j).kvSeq (kvCmd b).seq).2.pool = true) ∧ ((kvCmd b).inside ((s.fetched j).kvSeq (kvCmd b).seq).2 = true) ∧ ((kvCmd b).layers * (kvCmd b).blocks ≤ j.kvAt))
    ∧ (∃ (id : JobId) (s : State) (j : Job) (b : List Byte) (v : State) (r : Option KvFail), (s.commandAt id 6 5 = some (j, b)) ∧ (s.get F.KV_STATUS_state = 2 ∧ (kvCmd b).zeros = true ∧ (kvCmd b).seq ≤ 65535) ∧ (((s.fetched j).kvSeq (kvCmd b).seq).2.isOpen = true) ∧ (s.kvValid ((s.fetched j).kvSeq (kvCmd b).seq).2.pool = true) ∧ ((kvCmd b).inside ((s.fetched j).kvSeq (kvCmd b).seq).2 = true) ∧ (j.kvAt < (kvCmd b).layers * (kvCmd b).blocks) ∧ (kvGive ((s.fetched j).kvSeq (kvCmd b).seq).2 ((s.fetched j).kvSeq (kvCmd b).seq).1 ((kvCmd b).layer0 + j.kvAt / (kvCmd b).blocks) ((kvCmd b).block0 + j.kvAt % (kvCmd b).blocks) = (v, r))) :=
  ⟨⟨wId, (wKvClosed (wKvCmd 1 3 0 0 0 0 0)), wKvJob, (wKvCmd 1 3 0 0 0 0 0), by decide +kernel⟩,
    ⟨wId, (wKvAtS 9 (wKvList 1 (wKvCmd 2 3 0 0 0 0 0))), (wKvJobAt 9), (wKvCmd 2 3 0 0 0 0 0), by decide +kernel⟩,
    ⟨wId, (wKvList 1 (wKvCmd 2 3 0 0 0 0 0)), wKvJob, (wKvCmd 2 3 0 0 0 0 0), (kvDrop wSeqD (wKvRd (wKvList 1 (wKvCmd 2 3 0 0 0 0 0))) 0 0).1, none, by decide +kernel⟩,
    ⟨wId, (wKvAtS 9 wKvSh), (wKvJobAt 9), (wKvCmd 3 3 4 0 1 1 1), by decide +kernel⟩,
    ⟨wId, wKvSh, wKvJob, (wKvCmd 3 3 4 0 1 1 1), (kvShare ⟨hubBase + 0x900, 1, 0, true, 2, true⟩ wSeqD (wKvRd2 wKvSh) 0 1).1, none, by decide +kernel⟩,
    ⟨wId, (wKvAtS 9 (wKvList 1 (wKvCmd 4 3 0 0 1 0 1))), (wKvJobAt 9), (wKvCmd 4 3 0 0 1 0 1), by decide +kernel⟩,
    ⟨wId, (wKvList 1 (wKvCmd 4 3 0 0 1 0 1)), wKvJob, (wKvCmd 4 3 0 0 1 0 1), (kvDrop wSeqD (wKvRd (wKvList 1 (wKvCmd 4 3 0 0 1 0 1))) 0 0).1, none, by decide +kernel⟩,
    ⟨wId, (wKvAtS 9 (wKvList 1 (wKvCmd 5 3 0 0 1 1 1))), (wKvJobAt 9), (wKvCmd 5 3 0 0 1 1 1), by decide +kernel⟩,
    ⟨wId, (wKvList 1 (wKvCmd 5 3 0 0 1 1 1)), wKvJob, (wKvCmd 5 3 0 0 1 1 1), (kvGive wSeqD (wKvRd (wKvList 1 (wKvCmd 5 3 0 0 1 1 1))) 0 1).1, none, by decide +kernel⟩⟩

theorem test_meets_KvCommands_2 :
    (∃ (id : JobId) (s : State) (j : Job) (b : List Byte) (op : ℕ) (cmd : Instr) (cause : ℕ) (u : State), ((op, cmd, cause, u) ∈ [(1, Instr.seqOpen id, if ((s.fetched j).kvSeq (kvCmd b).seq).2.isOpen = true then 9 else if ((s.fetched j).kvSeq (kvCmd b).seq).2.sound = true then 0 else 11, ((s.fetched j).kvSeq (kvCmd b).seq).1), (2, Instr.seqClose id, if ((s.fetched j).kvSeq (kvCmd b).seq).2.isOpen = true then 0 else 8, ((s.fetched j).kvSeq (kvCmd b).seq).1), (3, Instr.share id, if 65535 < (kvCmd b).src then 11 else if (!((s.fetched j).kvSeq (kvCmd b).seq).2.isOpen || !(((s.fetched j).kvSeq (kvCmd b).seq).1.kvSeq ((kvCmd b).src % 65536)).2.isOpen) = true then 8 else if ((s.fetched j).kvSeq (kvCmd b).seq).2.pool ≠ (((s.fetched j).kvSeq (kvCmd b).seq).1.kvSeq ((kvCmd b).src % 65536)).2.pool then 10 else if ((kvCmd b).inside ((s.fetched j).kvSeq (kvCmd b).seq).2 && (kvCmd b).inside (((s.fetched j).kvSeq (kvCmd b).seq).1.kvSeq ((kvCmd b).src % 65536)).2) = true then 0 else 11, (((s.fetched j).kvSeq (kvCmd b).seq).1.kvSeq ((kvCmd b).src % 65536)).1), (4, Instr.free id, if (!((s.fetched j).kvSeq (kvCmd b).seq).2.isOpen) = true then 8 else if (kvCmd b).inside ((s.fetched j).kvSeq (kvCmd b).seq).2 = true then 0 else 11, ((s.fetched j).kvSeq (kvCmd b).seq).1), (5, Instr.alloc id, if (!((s.fetched j).kvSeq (kvCmd b).seq).2.isOpen) = true then 8 else if (!s.kvValid ((s.fetched j).kvSeq (kvCmd b).seq).2.pool) = true then 10 else if (kvCmd b).inside ((s.fetched j).kvSeq (kvCmd b).seq).2 = true then 0 else 11, ((s.fetched j).kvSeq (kvCmd b).seq).1)]) ∧ (s.commandAt id 6 op = some (j, b)) ∧ (s.get F.KV_STATUS_state = 1))
    ∧ (∃ (id : JobId) (s : State) (j : Job) (b : List Byte) (op : ℕ) (cmd : Instr) (cause : ℕ) (u : State), ((op, cmd, cause, u) ∈ [(1, Instr.seqOpen id, if ((s.fetched j).kvSeq (kvCmd b).seq).2.isOpen = true then 9 else if ((s.fetched j).kvSeq (kvCmd b).seq).2.sound = true then 0 else 11, ((s.fetched j).kvSeq (kvCmd b).seq).1), (2, Instr.seqClose id, if ((s.fetched j).kvSeq (kvCmd b).seq).2.isOpen = true then 0 else 8, ((s.fetched j).kvSeq (kvCmd b).seq).1), (3, Instr.share id, if 65535 < (kvCmd b).src then 11 else if (!((s.fetched j).kvSeq (kvCmd b).seq).2.isOpen || !(((s.fetched j).kvSeq (kvCmd b).seq).1.kvSeq ((kvCmd b).src % 65536)).2.isOpen) = true then 8 else if ((s.fetched j).kvSeq (kvCmd b).seq).2.pool ≠ (((s.fetched j).kvSeq (kvCmd b).seq).1.kvSeq ((kvCmd b).src % 65536)).2.pool then 10 else if ((kvCmd b).inside ((s.fetched j).kvSeq (kvCmd b).seq).2 && (kvCmd b).inside (((s.fetched j).kvSeq (kvCmd b).seq).1.kvSeq ((kvCmd b).src % 65536)).2) = true then 0 else 11, (((s.fetched j).kvSeq (kvCmd b).seq).1.kvSeq ((kvCmd b).src % 65536)).1), (4, Instr.free id, if (!((s.fetched j).kvSeq (kvCmd b).seq).2.isOpen) = true then 8 else if (kvCmd b).inside ((s.fetched j).kvSeq (kvCmd b).seq).2 = true then 0 else 11, ((s.fetched j).kvSeq (kvCmd b).seq).1), (5, Instr.alloc id, if (!((s.fetched j).kvSeq (kvCmd b).seq).2.isOpen) = true then 8 else if (!s.kvValid ((s.fetched j).kvSeq (kvCmd b).seq).2.pool) = true then 10 else if (kvCmd b).inside ((s.fetched j).kvSeq (kvCmd b).seq).2 = true then 0 else 11, ((s.fetched j).kvSeq (kvCmd b).seq).1)]) ∧ (s.commandAt id 6 op = some (j, b)) ∧ (s.get F.KV_STATUS_state = 2 ∧ (kvCmd b).zeros = true ∧ (kvCmd b).seq ≤ 65535) ∧ (cause ≠ 0))
    ∧ (∃ (id : JobId) (s : State) (j : Job) (b : List Byte) (op : ℕ) (cmd : Instr) (cause : ℕ) (u : State), ((op, cmd, cause, u) ∈ [(1, Instr.seqOpen id, if ((s.fetched j).kvSeq (kvCmd b).seq).2.isOpen = true then 9 else if ((s.fetched j).kvSeq (kvCmd b).seq).2.sound = true then 0 else 11, ((s.fetched j).kvSeq (kvCmd b).seq).1), (2, Instr.seqClose id, if ((s.fetched j).kvSeq (kvCmd b).seq).2.isOpen = true then 0 else 8, ((s.fetched j).kvSeq (kvCmd b).seq).1), (3, Instr.share id, if 65535 < (kvCmd b).src then 11 else if (!((s.fetched j).kvSeq (kvCmd b).seq).2.isOpen || !(((s.fetched j).kvSeq (kvCmd b).seq).1.kvSeq ((kvCmd b).src % 65536)).2.isOpen) = true then 8 else if ((s.fetched j).kvSeq (kvCmd b).seq).2.pool ≠ (((s.fetched j).kvSeq (kvCmd b).seq).1.kvSeq ((kvCmd b).src % 65536)).2.pool then 10 else if ((kvCmd b).inside ((s.fetched j).kvSeq (kvCmd b).seq).2 && (kvCmd b).inside (((s.fetched j).kvSeq (kvCmd b).seq).1.kvSeq ((kvCmd b).src % 65536)).2) = true then 0 else 11, (((s.fetched j).kvSeq (kvCmd b).seq).1.kvSeq ((kvCmd b).src % 65536)).1), (4, Instr.free id, if (!((s.fetched j).kvSeq (kvCmd b).seq).2.isOpen) = true then 8 else if (kvCmd b).inside ((s.fetched j).kvSeq (kvCmd b).seq).2 = true then 0 else 11, ((s.fetched j).kvSeq (kvCmd b).seq).1), (5, Instr.alloc id, if (!((s.fetched j).kvSeq (kvCmd b).seq).2.isOpen) = true then 8 else if (!s.kvValid ((s.fetched j).kvSeq (kvCmd b).seq).2.pool) = true then 10 else if (kvCmd b).inside ((s.fetched j).kvSeq (kvCmd b).seq).2 = true then 0 else 11, ((s.fetched j).kvSeq (kvCmd b).seq).1)]) ∧ (s.commandAt id 6 op = some (j, b)) ∧ (s.get F.KV_STATUS_state ≠ 1) ∧ (s.get F.KV_STATUS_state ≠ 2 ∨ (kvCmd b).zeros = false ∨ 65535 < (kvCmd b).seq))
    ∧ (∃ (id : JobId) (s : State) (j : Job) (b : List Byte) (op : ℕ), (op = 0 ∨ 5 < op) ∧ (s.commandAt id 6 op = some (j, b)) ∧ (s.get F.KV_STATUS_state = 2))
    ∧ (∃ (s : State) (s1 : State) (s2 : State) (s3 : State) (q : KvSeq) (src : KvSeq) (l : ℕ) (e : ℕ) (new : ℕ) (o : Option ℕ) (o2 : Option ℕ) (r : Option KvFail), (s.kvEntry (q.entry l e) = (s1, o)) ∧ (s1.kvDec (o.getD 0) 1 0 = (s2, r)))
    ∧ (∃ (s : State) (s1 : State) (s2 : State) (s3 : State) (q : KvSeq) (src : KvSeq) (l : ℕ) (e : ℕ) (new : ℕ) (o : Option ℕ) (o2 : Option ℕ) (r : Option KvFail), (s.kvEntry (src.entry l e) = (s1, o)) ∧ (s1.kvEntry (q.entry l e) = (s2, o2)) ∧ (s2.kvInc (o.getD 0) 1 0 = (s3, r)))
    ∧ (∃ (s : State) (s1 : State) (s2 : State) (s3 : State) (q : KvSeq) (src : KvSeq) (l : ℕ) (e : ℕ) (new : ℕ) (o : Option ℕ) (o2 : Option ℕ) (r : Option KvFail), (s.kvEntry (q.entry l e) = (s1, o)) ∧ (s1.kvAlloc q.pool 1 = ((s2, r), new))) :=
  ⟨⟨wId, ((wKvList 1 (wKvCmd 5 3 0 0 1 1 1)).put F.KV_STATUS_state 1), wKvJob, (wKvCmd 5 3 0 0 1 1 1), 5, (.alloc wId), 0, (wKvRd ((wKvList 1 (wKvCmd 5 3 0 0 1 1 1)).put F.KV_STATUS_state 1)), by decide +kernel⟩,
    ⟨wId, (wKvList 1 (wKvCmd 5 3 0 0 1 1 9)), wKvJob, (wKvCmd 5 3 0 0 1 1 9), 5, (.alloc wId), 0xB, (wKvRd (wKvList 1 (wKvCmd 5 3 0 0 1 1 9))), by decide +kernel⟩,
    ⟨wId, ((wKvList 1 (wKvCmd 5 3 0 0 1 1 1)).put F.KV_STATUS_state 3), wKvJob, (wKvCmd 5 3 0 0 1 1 1), 5, (.alloc wId), 0, (wKvRd ((wKvList 1 (wKvCmd 5 3 0 0 1 1 1)).put F.KV_STATUS_state 3)), by decide +kernel⟩,
    ⟨wId, (wKvList 1 (wKvCmd 7 3 0 0 1 1 9)), wKvJob, (wKvCmd 7 3 0 0 1 1 9), 7, by decide +kernel⟩,
    ⟨(wKv 1), ((wKv 1).kvEntry (wSeqD.entry 0 0)).1, ((((wKv 1).kvEntry (wSeqD.entry 0 0)).1).kvDec 1 1 0).1, (wKv 1), wSeqD, wSeqD, 0, 0, 0, (some 1), none, none, by decide +kernel⟩,
    ⟨wKvSh, (wKvSh.kvEntry (wSeqD.entry 0 0)).1, ((wKvSh.kvEntry (wSeqD.entry 0 0)).1.kvEntry ((⟨hubBase + 0x900, 1, 0, true, 2, true⟩ : KvSeq).entry 0 0)).1, (((wKvSh.kvEntry (wSeqD.entry 0 0)).1.kvEntry ((⟨hubBase + 0x900, 1, 0, true, 2, true⟩ : KvSeq).entry 0 0)).1.kvInc 1 1 0).1, ⟨hubBase + 0x900, 1, 0, true, 2, true⟩, wSeqD, 0, 0, 0, (some 1), none, none, by decide +kernel⟩,
    ⟨(wKv 1), ((wKv 1).kvEntry (wSeqD.entry 0 1)).1, (((wKv 1).kvEntry (wSeqD.entry 0 1)).1.kvAlloc 0 1).1.1, (wKv 1), wSeqD, wSeqD, 0, 1, 2, none, none, none, by decide +kernel⟩⟩

theorem test_meets_KvCommands_3 :
    (∃ (s : State) (s1 : State) (s2 : State) (s3 : State) (q : KvSeq) (src : KvSeq) (l : ℕ) (e : ℕ) (new : ℕ) (o : Option ℕ) (o2 : Option ℕ) (r : Option KvFail) (a : ℕ), (s.plainStore a 4 = true))
    ∧ (∃ (acc : Sys2Proof.Acc) (s : State) (s2 : State) (w : Word) (c : Instr), (s.written pgKV 32 acc = some (s2, w)) ∧ (c = Instr.kvEnable acc ∨ c = Instr.kvDisable acc ∨ c = Instr.kvResume acc) ∧ (BitVec.getLsbD w 0 = true) ∧ (s2.get F.KV_STATUS_state = 0) ∧ (s2.kvCfgErr = none))
    ∧ (∃ (acc : Sys2Proof.Acc) (s : State) (s2 : State) (w : Word) (c : Instr) (p : ℕ), (s.written pgKV 32 acc = some (s2, w)) ∧ (c = Instr.kvEnable acc ∨ c = Instr.kvDisable acc ∨ c = Instr.kvResume acc) ∧ (BitVec.getLsbD w 0 = true) ∧ (s2.get F.KV_STATUS_state = 0) ∧ (s2.kvCfgErr = some p))
    ∧ (∃ (acc : Sys2Proof.Acc) (s : State) (s2 : State) (w : Word) (c : Instr), (s.written pgKV 32 acc = some (s2, w)) ∧ (c = Instr.kvEnable acc ∨ c = Instr.kvDisable acc ∨ c = Instr.kvResume acc) ∧ (BitVec.getLsbD w 0 = false) ∧ (s2.get F.KV_STATUS_state ≠ 0) ∧ (s2.get F.KV_STATUS_state ≠ 3) ∧ (s2.kvBusy = false))
    ∧ (∃ (acc : Sys2Proof.Acc) (s : State) (s2 : State) (w : Word) (c : Instr), (s.written pgKV 32 acc = some (s2, w)) ∧ (c = Instr.kvEnable acc ∨ c = Instr.kvDisable acc ∨ c = Instr.kvResume acc) ∧ (BitVec.getLsbD w 2 = true) ∧ (s2.get F.KV_STATUS_state = 3))
    ∧ (∃ (acc : Sys2Proof.Acc) (s : State) (s2 : State) (w : Word) (c : Instr), (s.written pgKV 32 acc = some (s2, w)) ∧ (c = Instr.kvEnable acc ∨ c = Instr.kvDisable acc ∨ c = Instr.kvResume acc) ∧ (BitVec.getLsbD w 0 = true ∧ s2.get F.KV_STATUS_state ≠ 0 ∧ s2.get F.KV_STATUS_state ≠ 3 ∨ BitVec.getLsbD w 2 = false ∧ s2.get F.KV_STATUS_state = 3 ∨ BitVec.getLsbD w 0 = false ∧ s2.get F.KV_STATUS_state ≠ 3 ∧ (s2.kvBusy = true ∨ s2.get F.KV_STATUS_state = 0)))
    ∧ (∃ (s : State), (s.get F.KV_STATUS_state = 1) ∧ ((List.foldl State.kvSweepPool (List.foldl (fun (u : State) (p : ℕ) => u.put (F.KV_FREE_pages p) 0) ({ s with kv := have __src := s.kv; __src }.put F.KV_DRAINING_pages 0) (List.range 8), none) (List.filter (fun (p : ℕ) => s.kvValid p) (List.range 8))).2 = none))
    ∧ (∃ (s : State) (page : ℕ), (s.get F.KV_STATUS_state = 1) ∧ ((List.foldl State.kvSweepPool (List.foldl (fun (u : State) (p : ℕ) => u.put (F.KV_FREE_pages p) 0) ({ s with kv := have __src := s.kv; __src }.put F.KV_DRAINING_pages 0) (List.range 8), none) (List.filter (fun (p : ℕ) => s.kvValid p) (List.range 8))).2 = some page))
    ∧ (∃ (s : State) (p : ℕ) (e : Option ℕ), (s.kv.format = true) ∧ (0 < s.get (F.KV_POOL_COUNT_pages p)) ∧ (s.get (F.KV_POOL_FIRST_page p) + s.get (F.KV_POOL_COUNT_pages p) ≤ 4194303) ∧ (s.plainStore (s.kvWordAddr (s.get (F.KV_POOL_FIRST_page p))) (4 * s.get (F.KV_POOL_COUNT_pages p)) = true) ∧ (tabFind s.kv.heads p = none))
    ∧ (∃ (s : State) (p : ℕ) (page : ℕ) (w : ℕ) (e : Option ℕ), (s.plainStore (s.kvWordAddr page) 4 = true) ∧ (s.peekNat (s.kvWordAddr page) 4 = w) ∧ (w < 2 ^ 30))
    ∧ (∃ (s : State) (p : ℕ) (page : ℕ) (w : ℕ) (e : Option ℕ), (s.plainStore (s.kvWordAddr page) 4 = true) ∧ (s.peekNat (s.kvWordAddr page) 4 = w) ∧ (2 ^ 30 ≤ w) ∧ (w < 2 ^ 31))
    ∧ (∃ (s : State) (p : ℕ) (page : ℕ) (w : ℕ) (e : Option ℕ), (s.plainStore (s.kvWordAddr page) 4 = true) ∧ (s.peekNat (s.kvWordAddr page) 4 = w) ∧ (2 ^ 31 ≤ w)) :=
  ⟨⟨(wKv 1), (wKv 1), (wKv 1), (wKv 1), wSeqD, wSeqD, 0, 1, 2, none, none, none, (hubBase + 0x800), by decide +kernel⟩,
    ⟨(wAcc 1), wKvOff, (wKvWr wKvOff 1).1, (wKvWr wKvOff 1).2, (.kvEnable (wAcc 1)), by decide +kernel⟩,
    ⟨(wAcc 1), wKvOffBad, (wKvWr wKvOffBad 1).1, (wKvWr wKvOffBad 1).2, (.kvEnable (wAcc 1)), 0, by decide +kernel⟩,
    ⟨(wAcc 0), wKvPg, (wKvWr wKvPg 0).1, (wKvWr wKvPg 0).2, (.kvDisable (wAcc 0)), by decide +kernel⟩,
    ⟨(wAcc 4), wKvFaulted, (wKvWr wKvFaulted 4).1, (wKvWr wKvFaulted 4).2, (.kvResume (wAcc 4)), by decide +kernel⟩,
    ⟨(wAcc 0), wKvInUse, (wKvWr wKvInUse 0).1, (wKvWr wKvInUse 0).2, (.kvDisable (wAcc 0)), by decide +kernel⟩,
    ⟨wKvSweepOk, by decide +kernel⟩,
    ⟨wKvBad, 0, by decide +kernel⟩,
    ⟨wKvSweep, 0, none, by decide +kernel⟩,
    ⟨(wKv 0x20003), 0, 1, 0x20003, none, by decide +kernel⟩,
    ⟨(wKv 0x40000003), 0, 1, 0x40000003, none, by decide +kernel⟩,
    ⟨(wKv 1), 0, 2, (2 ^ 31 + 3), none, by decide +kernel⟩⟩

theorem test_meets_IngressStreams_1 :
    (∃ (n : Fin 128) (acc : Sys2Proof.Acc) (s : State) (s2 : State) (w : Word), (s.written pgING (48 + 4 * (↑n / 32)) acc = some (s2, w)))
    ∧ (∃ (n : Fin 128) (acc : Sys2Proof.Acc) (s : State) (s2 : State) (w : Word), (s.written pgING 32 acc = some (s2, w)) ∧ (BitVec.getLsbD w 0 = true))
    ∧ (∃ (n : Fin 128) (acc : Sys2Proof.Acc) (s : State) (s2 : State) (w : Word), (s.written pgING 32 acc = some (s2, w)) ∧ (BitVec.getLsbD w 0 = false))
    ∧ (∃ (n : Fin 128) (s : State), (s.plainMem (s.addr F.ING_TABLE_BASE_LO_base + 64 * ↑n) 64 = true) ∧ ((s.mcTouches false (s.addr F.ING_TABLE_BASE_LO_base + 64 * ↑n) 64).streamOk (↑n) (s.bytes (s.addr F.ING_TABLE_BASE_LO_base + 64 * ↑n) 64) = true))
    ∧ (∃ (n : Fin 128) (s : State), (s.plainMem (s.addr F.ING_TABLE_BASE_LO_base + 64 * ↑n) 64 = true) ∧ ((s.mcTouches false (s.addr F.ING_TABLE_BASE_LO_base + 64 * ↑n) 64).streamOk (↑n) (s.bytes (s.addr F.ING_TABLE_BASE_LO_base + 64 * ↑n) 64) = false))
    ∧ (∃ (n : Fin 128) (s : State), (s.streamOn ↑n = true) ∧ (((s.stream ↑n).ready.all fun (r : IngRec) => r.kind != 0) = true) ∧ ((s.stream ↑n).frame = none))
    ∧ (∃ (n : Fin 128) (s : State), (s.streamOn ↑n = false))
    ∧ (∃ (n : Fin 128) (s : State), ((s.stream ↑n).score ≤ 255))
    ∧ (∃ (n : Fin 128) (s : State) (x : IngRec), (x ∈ (s.stream ↑n).ready) ∧ ((s.stream ↑n).score ≤ 255))
    ∧ (∃ (n : Fin 128) (s : State) (x : IngRec), (s.fence (s.stream ↑n).fenceObj + 1 < 2 ^ 64))
    ∧ (∃ (n : Fin 128) (s : State) (x : IngRec) (rest : List IngRec) (c : Instr), ((s.stream ↑n).ready = x :: rest) ∧ (s.replaying = true) ∧ (c = Instr.itemCommit n ∨ c = Instr.dropRecord n))
    ∧ (∃ (n : Fin 128) (s : State) (x : IngRec) (rest : List IngRec), ((s.stream ↑n).ready = x :: rest) ∧ (s.replaying = false) ∧ ((s.queue ↑n).hasRoom = true) ∧ (x.xs = false) ∧ (x.kind = 1)) :=
  ⟨⟨(0 : Fin 128), (wAcc 1), wIngT, (wEnWr wIngT 1).1, (wEnWr wIngT 1).2, by decide +kernel⟩,
    ⟨(0 : Fin 128), (wAcc 1), wIng, (wIngWr wIng 1).1, (wIngWr wIng 1).2, by decide +kernel⟩,
    ⟨(0 : Fin 128), (wAcc 0), wIng, (wIngWr wIng 0).1, (wIngWr wIng 0).2, by decide +kernel⟩,
    ⟨(0 : Fin 128), wIngT, by decide +kernel⟩,
    ⟨(0 : Fin 128), wIngT0, by decide +kernel⟩,
    ⟨(0 : Fin 128), wStopS, by decide +kernel⟩,
    ⟨(0 : Fin 128), wIngT, by decide +kernel⟩,
    ⟨(0 : Fin 128), wReady, by decide +kernel⟩,
    ⟨(0 : Fin 128), wReady, wRec, by decide +kernel⟩,
    ⟨(0 : Fin 128), wReady, wRec, by decide +kernel⟩,
    ⟨(0 : Fin 128), (wReady.put F.JRN_STATUS_state 3), wRec, [], (.itemCommit 0), by decide +kernel⟩,
    ⟨(0 : Fin 128), wHealthSt, wHealthR, [], by decide +kernel⟩⟩

theorem test_meets_IngressStreams_2 :
    (∃ (n : Fin 128) (s : State) (x : IngRec) (rest : List IngRec), ((s.stream ↑n).ready = x :: rest) ∧ (s.replaying = false) ∧ ((s.queue ↑n).hasRoom = true) ∧ (x.xs = false) ∧ (x.kind = 0))
    ∧ (∃ (n : Fin 128) (s : State) (x : IngRec) (rest : List IngRec), ((s.stream ↑n).ready = x :: rest) ∧ (s.replaying = false) ∧ ((s.queue ↑n).hasRoom = true) ∧ (x.xs = false) ∧ (x.kind = 2) ∧ ((s.ringPlace (↑n) 1).isSome = true))
    ∧ (∃ (n : Fin 128) (s : State) (x : IngRec) (f : Fld), (f ∈ if ↑n < 96 then [F.CSI_FRAMES_count (↑n / 4)] else if ↑n < 112 then [F.ETH_RX_FRAMES_count ((↑n - 96) / 4)] else []))
    ∧ (∃ (n : Fin 128) (s : State) (cause : ℕ) (d : ℤ), (s.replaying = false))
    ∧ (∃ (n : Fin 128) (s : State), (s.streamOn ↑n = true) ∧ ((s.stream ↑n).deadlineUs ≠ 0) ∧ (s.replaying = false) ∧ ((s.stream ↑n).score ≤ 255))
    ∧ (∃ (n : Fin 128) (s : State) (x : IngRec) (item : XsItem), (List.find? (fun (x : IngRec) => x.xs) (s.stream ↑n).ready = some x) ∧ (s.dikeState = 3) ∧ (s.replaying = true))
    ∧ (∃ (n : Fin 128) (s : State) (x : IngRec) (item : XsItem), (List.find? (fun (x : IngRec) => x.xs) (s.stream ↑n).ready = some x) ∧ (s.dikeState = 3) ∧ (s.replaying = false) ∧ (s.ringPlace (↑n) item.data.length = none))
    ∧ (∃ (n : Fin 128) (s : State) (x : IngRec) (item : XsItem) (o : ℕ), (List.find? (fun (x : IngRec) => x.xs) (s.stream ↑n).ready = some x) ∧ (s.dikeState = 3) ∧ (s.replaying = false) ∧ (s.ringPlace (↑n) item.data.length = some o) ∧ (item.code = CodeState.many))
    ∧ (∃ (n : Fin 128) (s : State) (x : IngRec) (item : XsItem) (o : ℕ) (c : ℕ × ℕ), (List.find? (fun (x : IngRec) => x.xs) (s.stream ↑n).ready = some x) ∧ (s.dikeState = 3) ∧ (s.replaying = false) ∧ (s.ringPlace (↑n) item.data.length = some o) ∧ (item.code ≠ CodeState.many) ∧ (s.xsViolation ((s.stream ↑n).ring + o) item.data.length = some c))
    ∧ (∃ (n : Fin 128) (s : State) (x : IngRec) (item : XsItem) (o : ℕ), (List.find? (fun (x : IngRec) => x.xs) (s.stream ↑n).ready = some x) ∧ (s.dikeState = 3) ∧ (s.replaying = false) ∧ (s.ringPlace (↑n) item.data.length = some o) ∧ (item.code ≠ CodeState.many) ∧ (s.xsViolation ((s.stream ↑n).ring + o) item.data.length = none) ∧ ({ s with streams := tabSet s.streams ↑n { (s.stream ↑n) with wr := o + item.data.length, held := s.heldNow ↑n ++ [(none, o, item.data.length)] } }.xsTake ((s.stream ↑n).ring + o) item.data.length = none))
    ∧ (∃ (n : Fin 128) (s : State) (x : IngRec) (item : XsItem) (o : ℕ) (u : State), (List.find? (fun (x : IngRec) => x.xs) (s.stream ↑n).ready = some x) ∧ (s.dikeState = 3) ∧ (s.replaying = false) ∧ (s.ringPlace (↑n) item.data.length = some o) ∧ (item.code ≠ CodeState.many) ∧ (s.xsViolation ((s.stream ↑n).ring + o) item.data.length = none) ∧ ({ s with streams := tabSet s.streams ↑n { (s.stream ↑n) with wr := o + item.data.length, held := s.heldNow ↑n ++ [(none, o, item.data.length)] } }.xsTake ((s.stream ↑n).ring + o) item.data.length = some u)) :=
  ⟨⟨(0 : Fin 128), wReady, wRec, [], by decide +kernel⟩,
    ⟨(0 : Fin 128), wDropSt, wDropR, [], by decide +kernel⟩,
    ⟨(0 : Fin 128), wReady, wRec, (F.CSI_FRAMES_count 0), by decide +kernel⟩,
    ⟨(0 : Fin 128), wReady, 4, (-5), by decide +kernel⟩,
    ⟨(0 : Fin 128), wIng, by decide +kernel⟩,
    ⟨(0 : Fin 128), (wXsBack.put F.JRN_STATUS_state 3), wXsR, ⟨.clean, [7#8, 8#8]⟩, by decide +kernel⟩,
    ⟨(0 : Fin 128), wXsFull, wXsR, ⟨.clean, [7#8, 8#8]⟩, by decide +kernel⟩,
    ⟨(0 : Fin 128), wXsBack, wXsR, ⟨.many, [7#8, 8#8]⟩, 0, by decide +kernel⟩,
    ⟨(0 : Fin 128), wXsNoWin, wXsR, ⟨.clean, [7#8, 8#8]⟩, 0, (1, 0), by decide +kernel⟩,
    ⟨(0 : Fin 128), wXsDry, wXsR, ⟨.clean, [7#8, 8#8]⟩, 0, by decide +kernel⟩,
    ⟨(0 : Fin 128), wXsBack, wXsR, ⟨.clean, [7#8, 8#8]⟩, 0, (wXsPut.xsTake (hubBase + 0x10000) 2).getD wXsBack, by decide +kernel⟩⟩

theorem test_meets_SensorPorts_1 :
    (∃ (r : Fin 24) (p : CsiPacket) (s : State), (s.get F.ING_CTRL_enable = 0 ∨ s.get (F.CSI_CTRL_enable ↑r) = 0))
    ∧ (∃ (r : Fin 24) (p : CsiPacket) (s : State), (s.get F.ING_CTRL_enable = 1) ∧ (s.get (F.CSI_CTRL_enable ↑r) = 1) ∧ (p.ecc = EccState.two))
    ∧ (∃ (r : Fin 24) (p : CsiPacket) (s : State), (s.get F.ING_CTRL_enable = 1) ∧ (s.get (F.CSI_CTRL_enable ↑r) = 1) ∧ (p.kind = CsiKind.lineSync) ∧ (p.ecc = EccState.one))
    ∧ (∃ (r : Fin 24) (p : CsiPacket) (s : State), (s.get F.ING_CTRL_enable = 1) ∧ (s.get (F.CSI_CTRL_enable ↑r) = 1) ∧ (p.kind = CsiKind.lineSync) ∧ (p.ecc = EccState.ok))
    ∧ (∃ (r : Fin 24) (p : CsiPacket) (s : State), (s.get F.ING_CTRL_enable = 1) ∧ (s.get (F.CSI_CTRL_enable ↑r) = 1) ∧ (p.kind = CsiKind.frameStart) ∧ (p.ecc ≠ EccState.two))
    ∧ (∃ (r : Fin 24) (p : CsiPacket) (s : State), (s.get F.ING_CTRL_enable = 1) ∧ (s.get (F.CSI_CTRL_enable ↑r) = 1) ∧ (p.kind = CsiKind.frameEnd) ∧ (p.ecc ≠ EccState.two))
    ∧ (∃ (r : Fin 24) (p : CsiPacket) (s : State) (dt : BitVec 8) (ok : Bool) (data : List Byte), (s.get F.ING_CTRL_enable = 1) ∧ (s.get (F.CSI_CTRL_enable ↑r) = 1) ∧ (p.kind = CsiKind.long dt ok data) ∧ (p.ecc ≠ EccState.two) ∧ (ok = true ∨ List.filter (fun (v : ℕ) => dt.toNat == 18 || dt.toNat == (s.stream (4 * ↑r + v)).dataType) (s.csiSlots (↑r) p.vc.toNat) = []))
    ∧ (∃ (r : Fin 24) (p : CsiPacket) (s : State) (dt : BitVec 8) (ok : Bool) (data : List Byte) (u : State), (s.get F.ING_CTRL_enable = 1) ∧ (s.get (F.CSI_CTRL_enable ↑r) = 1) ∧ (p.kind = CsiKind.long dt ok data) ∧ (p.ecc ≠ EccState.two) ∧ (ok = false) ∧ (List.filter (fun (v : ℕ) => dt.toNat == 18 || dt.toNat == (s.stream (4 * ↑r + v)).dataType) (s.csiSlots (↑r) p.vc.toNat) ≠ []) ∧ (u = ((if p.ecc = EccState.one then s.satInc (F.CSI_ERR_hdr_corrected ↑r) else s).satInc (F.CSI_ERR_crc ↑r)).raise (pgCSI ↑r) Ev.CSI_crc_error))
    ∧ (∃ (r : Fin 24) (slot : Fin 4) (s : State), ((s.stream (4 * ↑r + ↑slot)).frame = none))
    ∧ (∃ (r : Fin 24) (slot : Fin 4) (s : State) (fl : ℕ), ((s.stream (4 * ↑r + ↑slot)).frame = none))
    ∧ (∃ (r : Fin 24) (slot : Fin 4) (s : State) (dt : ℕ) (ok : Bool) (data : List Byte), ((s.stream (4 * ↑r + ↑slot)).frame = none))
    ∧ (∃ (r : Fin 24) (slot : Fin 4) (s : State), ((s.stream (4 * ↑r + ↑slot)).frame.isSome = true)) :=
  ⟨⟨(0 : Fin 24), (wPkt .ok .frameEnd), wRun, by decide +kernel⟩,
    ⟨(0 : Fin 24), (wPkt .two .frameEnd), wFrameSt, by decide +kernel⟩,
    ⟨(0 : Fin 24), (wPkt .one .lineSync), wIng, by decide +kernel⟩,
    ⟨(0 : Fin 24), (wPkt .ok .lineSync), wIng, by decide +kernel⟩,
    ⟨(0 : Fin 24), (wPkt .one .frameStart), wIng, by decide +kernel⟩,
    ⟨(0 : Fin 24), (wPkt .ok .frameEnd), wFrameSt, by decide +kernel⟩,
    ⟨(0 : Fin 24), (wPkt .ok (.long 0x2A#8 true [3#8])), wFrameSt, (0x2A#8), true, [3#8], by decide +kernel⟩,
    ⟨(0 : Fin 24), (wPkt .ok (.long 0x2A#8 false [3#8])), wFrameSt, (0x2A#8), false, [3#8], ((wFrameSt.satInc (F.CSI_ERR_crc 0)).raise (pgCSI 0) Ev.CSI_crc_error), by decide +kernel⟩,
    ⟨(0 : Fin 24), (0 : Fin 4), wIng, by decide +kernel⟩,
    ⟨(0 : Fin 24), (0 : Fin 4), wIng, 0, by decide +kernel⟩,
    ⟨(0 : Fin 24), (0 : Fin 4), wIng, 0x2A, true, [3#8], by decide +kernel⟩,
    ⟨(0 : Fin 24), (0 : Fin 4), wFrameSt, by decide +kernel⟩⟩

theorem test_meets_SensorPorts_2 :
    (∃ (r : Fin 24) (slot : Fin 4) (s : State) (f : FrameSt) (dt : ℕ) (ok : Bool) (data : List Byte), ((s.stream (4 * ↑r + ↑slot)).frame = some f) ∧ (dt = 18) ∧ (f.emb.length ≠ (s.stream (4 * ↑r + ↑slot)).tsLine))
    ∧ (∃ (r : Fin 24) (slot : Fin 4) (s : State) (f : FrameSt) (dt : ℕ) (ok : Bool) (data : List Byte), ((s.stream (4 * ↑r + ↑slot)).frame = some f) ∧ (dt = 18) ∧ (f.emb.length = (s.stream (4 * ↑r + ↑slot)).tsLine))
    ∧ (∃ (r : Fin 24) (slot : Fin 4) (s : State) (f : FrameSt) (dt : ℕ) (ok : Bool) (data : List Byte), ((s.stream (4 * ↑r + ↑slot)).frame = some f) ∧ (dt ≠ 18) ∧ (dt ≠ (s.stream (4 * ↑r + ↑slot)).dataType ∨ 8192 ≤ f.count ∨ 8192 < linePixels dt (unpackLine dt data).length))
    ∧ (∃ (r : Fin 24) (slot : Fin 4) (s : State) (f : FrameSt) (dt : ℕ) (ok : Bool) (data : List Byte), ((s.stream (4 * ↑r + ↑slot)).frame = some f) ∧ (dt ≠ 18) ∧ (dt = (s.stream (4 * ↑r + ↑slot)).dataType) ∧ (f.count < 8192) ∧ (linePixels dt (unpackLine dt data).length ≤ 8192) ∧ ((s.stream (4 * ↑r + ↑slot)).slabLines = 0 ∨ f.lines.length + 1 < (s.stream (4 * ↑r + ↑slot)).slabLines))
    ∧ (∃ (r : Fin 24) (slot : Fin 4) (s : State) (f : FrameSt) (dt : ℕ) (ok : Bool) (data : List Byte), ((s.stream (4 * ↑r + ↑slot)).frame = some f) ∧ (dt ≠ 18) ∧ (dt = (s.stream (4 * ↑r + ↑slot)).dataType) ∧ (f.count < 8192) ∧ (linePixels dt (unpackLine dt data).length ≤ 8192) ∧ ((s.stream (4 * ↑r + ↑slot)).slabLines ≠ 0) ∧ ((s.stream (4 * ↑r + ↑slot)).slabLines ≤ f.lines.length + 1))
    ∧ (∃ (r : Fin 24) (slot : Fin 4) (s : State) (f : FrameSt) (fl : ℕ), ((s.stream (4 * ↑r + ↑slot)).frame = some f) ∧ ((s.stream (4 * ↑r + ↑slot)).slabLines = 0 ∨ f.lines ≠ [] ∨ f.count = 0))
    ∧ (∃ (r : Fin 24) (slot : Fin 4) (s : State) (f : FrameSt) (fl : ℕ), ((s.stream (4 * ↑r + ↑slot)).frame = some f) ∧ ((s.stream (4 * ↑r + ↑slot)).slabLines ≠ 0) ∧ (f.lines = []) ∧ (f.count ≠ 0))
    ∧ (∃ (r : Fin 24) (slot : Fin 4) (s : State) (f : FrameSt), ((s.get (F.CSI_EMB_LINE_check ↑r)).testBit ↑slot = false ∨ s.replaying = true ∨ Option.any (fun (l : List Byte) => (crc32 l).toNat == s.get (F.CSI_EMB_CRC_crc ↑r ↑slot)) f.emb[s.get (F.CSI_EMB_LINE_line ↑r ↑slot)]? = true))
    ∧ (∃ (r : Fin 24) (slot : Fin 4) (s : State) (f : FrameSt), ((s.get (F.CSI_EMB_LINE_check ↑r)).testBit ↑slot = true) ∧ (s.replaying = false) ∧ (Option.any (fun (l : List Byte) => (crc32 l).toNat == s.get (F.CSI_EMB_CRC_crc ↑r ↑slot)) f.emb[s.get (F.CSI_EMB_LINE_line ↑r ↑slot)]? = false))
    ∧ (∃ (r : Fin 24) (slot : Fin 4) (s : State) (f : FrameSt) (q : ℕ), (f.items.getLast? = some q) ∧ (q ∈ (s.stream (4 * ↑r + ↑slot)).done) ∧ (((s.stream (4 * ↑r + ↑slot)).ready.any fun (r : IngRec) => r.kind == 0 && r.seq == q) = true))
    ∧ (∃ (r : Fin 24) (slot : Fin 4) (s : State) (f : FrameSt) (q : ℕ), (f.items.getLast? = some q) ∧ (q ∈ (s.stream (4 * ↑r + ↑slot)).done) ∧ (((s.stream (4 * ↑r + ↑slot)).ready.any fun (r : IngRec) => r.kind == 0 && r.seq == q) = false))
    ∧ (∃ (n : ℕ) (fl : ℕ) (ts : ℕ) (data : List Byte) (last : Bool) (s : State), (s.replaying = true)) :=
  ⟨⟨(0 : Fin 24), (0 : Fin 4), wFrameTs, wFrm, 0x12, true, [3#8], by decide +kernel⟩,
    ⟨(0 : Fin 24), (0 : Fin 4), wFrameSt, wFrm, 0x12, true, [3#8], by decide +kernel⟩,
    ⟨(0 : Fin 24), (0 : Fin 4), wFrameSt, wFrm, 0x2B, true, [3#8], by decide +kernel⟩,
    ⟨(0 : Fin 24), (0 : Fin 4), wFrameSt, wFrm, 0x2A, false, [3#8], by decide +kernel⟩,
    ⟨(0 : Fin 24), (0 : Fin 4), wSlabSt, wFrm, 0x2A, true, [3#8], by decide +kernel⟩,
    ⟨(0 : Fin 24), (0 : Fin 4), wFrameSt, wFrm, 0, by decide +kernel⟩,
    ⟨(0 : Fin 24), (0 : Fin 4), wSlabEnd, wFrmEnd, 0, by decide +kernel⟩,
    ⟨(0 : Fin 24), (0 : Fin 4), wFrameSt, wFrm, by decide +kernel⟩,
    ⟨(0 : Fin 24), (0 : Fin 4), wEmbSt, wFrm, by decide +kernel⟩,
    ⟨(0 : Fin 24), (0 : Fin 4), (wIngS { wStr 4 0x2A with done := [5], ready := [{ wRec with seq := 5 }] }), wFrmEnd, 5, by decide +kernel⟩,
    ⟨(0 : Fin 24), (0 : Fin 4), (wIngS { wStr 4 0x2A with done := [5] }), wFrmEnd, 5, by decide +kernel⟩,
    ⟨0, 0, 9, [1#8], true, (wIng.put F.JRN_STATUS_state 3), by decide +kernel⟩⟩

theorem test_meets_SensorPorts_3 :
    (∃ (n : ℕ) (fl : ℕ) (ts : ℕ) (data : List Byte) (last : Bool) (s : State), (s.replaying = false) ∧ (s.ringPlace n data.length = none))
    ∧ (∃ (n : ℕ) (fl : ℕ) (ts : ℕ) (data : List Byte) (last : Bool) (s : State) (o : ℕ), (s.replaying = false) ∧ (s.ringPlace n data.length = some o) ∧ ((s.stream n).xsRoute = false))
    ∧ (∃ (n : ℕ) (fl : ℕ) (ts : ℕ) (data : List Byte) (last : Bool) (s : State) (o : ℕ), (s.replaying = false) ∧ (s.ringPlace n data.length = some o) ∧ ((s.stream n).xsRoute = true) ∧ (s.xsFaulted = true) ∧ ((s.stream n).xsBypass = true))
    ∧ (∃ (n : ℕ) (fl : ℕ) (ts : ℕ) (data : List Byte) (last : Bool) (s : State) (o : ℕ), (s.replaying = false) ∧ (s.ringPlace n data.length = some o) ∧ ((s.stream n).xsRoute = true) ∧ (s.xsFaulted = false ∨ (s.stream n).xsBypass = false) ∧ (s.get F.DIKE_STATUS_state = 3) ∧ (s.xsReach ((s.stream n).ring + o) data.length 0 = true))
    ∧ (∃ (n : ℕ) (fl : ℕ) (ts : ℕ) (data : List Byte) (last : Bool) (s : State) (o : ℕ), (s.replaying = false) ∧ (s.ringPlace n data.length = some o) ∧ ((s.stream n).xsRoute = true) ∧ (s.xsFaulted = false ∨ (s.stream n).xsBypass = false) ∧ (s.get F.DIKE_STATUS_state ≠ 3 ∨ s.xsReach ((s.stream n).ring + o) data.length 0 = false))
    ∧ (∃ (n : ℕ) (fl : ℕ) (ts : ℕ) (data : List Byte) (last : Bool) (s : State) (t : ℕ), (readTs (s.stream n).tsFormat (s.stream n).tsOffset data (Config.free s.freeCtr) = some t))
    ∧ (∃ (m : Fin 4) (f : EthFrame) (s : State), (s.get F.ING_CTRL_enable = 0 ∨ s.get (F.ETH_CTRL_enable ↑m) = 0))
    ∧ (∃ (m : Fin 4) (f : EthFrame) (s : State), (s.get F.ING_CTRL_enable = 1) ∧ (s.get (F.ETH_CTRL_enable ↑m) = 1) ∧ (f.fcsOk = false))
    ∧ (∃ (m : Fin 4) (f : EthFrame) (s : State), (s.get F.ING_CTRL_enable = 1) ∧ (s.get (F.ETH_CTRL_enable ↑m) = 1) ∧ (f.fcsOk = true) ∧ (f.pause = true ∨ 9216 < ethBytes f ∨ s.get (F.ETH_MAC_HI_promisc ↑m) = 0 ∧ f.dst.toNat ≠ s.get (F.ETH_MAC_LO_mac ↑m) + 2 ^ 32 * s.get (F.ETH_MAC_HI_mac ↑m)))
    ∧ (∃ (m : Fin 4) (f : EthFrame) (s : State), (s.get F.ING_CTRL_enable = 1) ∧ (s.get (F.ETH_CTRL_enable ↑m) = 1) ∧ (f.fcsOk = true) ∧ (f.pause = false) ∧ (ethBytes f ≤ 9216) ∧ (¬(s.get (F.ETH_MAC_HI_promisc ↑m) = 0 ∧ f.dst.toNat ≠ s.get (F.ETH_MAC_LO_mac ↑m) + 2 ^ 32 * s.get (F.ETH_MAC_HI_mac ↑m))) ∧ (s.ethFlow (↑m) f = none))
    ∧ (∃ (m : Fin 4) (f : EthFrame) (s : State) (j : ℕ), (s.get F.ING_CTRL_enable = 1) ∧ (s.get (F.ETH_CTRL_enable ↑m) = 1) ∧ (f.fcsOk = true) ∧ (f.pause = false) ∧ (ethBytes f ≤ 9216) ∧ (¬(s.get (F.ETH_MAC_HI_promisc ↑m) = 0 ∧ f.dst.toNat ≠ s.get (F.ETH_MAC_LO_mac ↑m) + 2 ^ 32 * s.get (F.ETH_MAC_HI_mac ↑m))) ∧ (s.ethFlow (↑m) f = some j) ∧ (s.streamOn (96 + 4 * ↑m + j) = true))
    ∧ (∃ (m : Fin 4) (f : EthFrame) (s : State) (j : ℕ), (s.get F.ING_CTRL_enable = 1) ∧ (s.get (F.ETH_CTRL_enable ↑m) = 1) ∧ (f.fcsOk = true) ∧ (f.pause = false) ∧ (ethBytes f ≤ 9216) ∧ (¬(s.get (F.ETH_MAC_HI_promisc ↑m) = 0 ∧ f.dst.toNat ≠ s.get (F.ETH_MAC_LO_mac ↑m) + 2 ^ 32 * s.get (F.ETH_MAC_HI_mac ↑m))) ∧ (s.ethFlow (↑m) f = some j) ∧ (s.streamOn (96 + 4 * ↑m + j) = false)) :=
  ⟨⟨0, 0, 9, [1#8], true, wXsFull, by decide +kernel⟩,
    ⟨0, 0, 9, [1#8], true, wIng, 0, by decide +kernel⟩,
    ⟨0, 0, 9, [1#8], true, wXsByp, 0, by decide +kernel⟩,
    ⟨0, 0, 9, [1#8], true, wXsBack, 0, by decide +kernel⟩,
    ⟨0, 0, 9, [1#8], true, wXsNoWin, 0, by decide +kernel⟩,
    ⟨0, 0, 9, wSpi, true, (wIngS { wStr 4 0x2A with done := [0], ready := [{ wRec with flags := 1 }] }), 0x0102030405060708, by decide +kernel⟩,
    ⟨(0 : Fin 4), (wEth true false 9), wRun, by decide +kernel⟩,
    ⟨(0 : Fin 4), (wEth false false 9), wIng, by decide +kernel⟩,
    ⟨(0 : Fin 4), (wEth true true 9), wIng, by decide +kernel⟩,
    ⟨(0 : Fin 4), (wEth true false 8), wIng, by decide +kernel⟩,
    ⟨(0 : Fin 4), (wEth true false 9), wIng, 0, by decide +kernel⟩,
    ⟨(0 : Fin 4), (wEth true false 9), (wIng.put (F.ING_STREAM_EN_enable 3) 0), 0, by decide +kernel⟩⟩

theorem test_meets_SensorPorts_4 :
    (∃ (i : Island) (ctl : Fin 2) (d : List Byte) (f : CanFrame) (c : Instr) (n : ℕ) (place : List Byte) (data : List Byte) (s : State), (8 ≤ d.length) ∧ (d.length ≤ 64) ∧ ((c, n, place, data) ∈ [(Instr.spiFrame i d, 112 + islNum i, d, d), (Instr.canFdFrame i ctl f, 114 + 2 * islNum i + ↑ctl, f.data, leBytes 4 (f.ident.toNat + if f.extended = true then 2 ^ 29 else 0) ++ f.data)]) ∧ (s.get F.ING_CTRL_enable = 0 ∨ s.streamOn n = false))
    ∧ (∃ (i : Island) (ctl : Fin 2) (d : List Byte) (f : CanFrame) (c : Instr) (n : ℕ) (place : List Byte) (data : List Byte) (s : State), (8 ≤ d.length) ∧ (d.length ≤ 64) ∧ ((c, n, place, data) ∈ [(Instr.spiFrame i d, 112 + islNum i, d, d), (Instr.canFdFrame i ctl f, 114 + 2 * islNum i + ↑ctl, f.data, leBytes 4 (f.ident.toNat + if f.extended = true then 2 ^ 29 else 0) ++ f.data)]) ∧ (s.get F.ING_CTRL_enable = 1) ∧ (s.streamOn n = true) ∧ (s.replaying = true))
    ∧ (∃ (i : Island) (ctl : Fin 2) (d : List Byte) (f : CanFrame) (c : Instr) (n : ℕ) (place : List Byte) (data : List Byte) (s : State), (8 ≤ d.length) ∧ (d.length ≤ 64) ∧ ((c, n, place, data) ∈ [(Instr.spiFrame i d, 112 + islNum i, d, d), (Instr.canFdFrame i ctl f, 114 + 2 * islNum i + ↑ctl, f.data, leBytes 4 (f.ident.toNat + if f.extended = true then 2 ^ 29 else 0) ++ f.data)]) ∧ (s.get F.ING_CTRL_enable = 1) ∧ (s.streamOn n = true) ∧ (s.replaying = false) ∧ (s.islLinkDown (islNum i) = true))
    ∧ (∃ (i : Island) (ctl : Fin 2) (d : List Byte) (f : CanFrame) (c : Instr) (n : ℕ) (place : List Byte) (data : List Byte) (s : State), (8 ≤ d.length) ∧ (d.length ≤ 64) ∧ ((c, n, place, data) ∈ [(Instr.spiFrame i d, 112 + islNum i, d, d), (Instr.canFdFrame i ctl f, 114 + 2 * islNum i + ↑ctl, f.data, leBytes 4 (f.ident.toNat + if f.extended = true then 2 ^ 29 else 0) ++ f.data)]) ∧ (s.get F.ING_CTRL_enable = 1) ∧ (s.streamOn n = true) ∧ (s.replaying = false) ∧ (s.islLinkDown (islNum i) = false))
    ∧ (∃ (r : Fin 24) (link : Bool) (deskewed : Bool) (s : State), (s.get (F.CSI_CTRL_enable ↑r) = 0))
    ∧ (∃ (r : Fin 24) (link : Bool) (deskewed : Bool) (s : State), (s.get (F.CSI_CTRL_enable ↑r) = 1))
    ∧ (∃ (m : Fin 4) (blockLock : Bool) (fecLock : Bool) (link : Bool) (s : State), (s.get (F.ETH_CTRL_enable ↑m) = 0))
    ∧ (∃ (m : Fin 4) (blockLock : Bool) (fecLock : Bool) (link : Bool) (s : State), (s.get (F.ETH_CTRL_enable ↑m) = 1)) :=
  ⟨⟨Island.sia, (0 : Fin 2), wSpi, wCan, (.spiFrame .sia wSpi), 112, wSpi, wSpi, wRun, by decide +kernel⟩,
    ⟨Island.sia, (0 : Fin 2), wSpi, wCan, (.spiFrame .sia wSpi), 112, wSpi, wSpi, (wIng.put F.JRN_STATUS_state 3), by decide +kernel⟩,
    ⟨Island.sia, (0 : Fin 2), wSpi, wCan, (.spiFrame .sia wSpi), 112, wSpi, wSpi, { wIng with links := [(5, { down := true })] }, by decide +kernel⟩,
    ⟨Island.sia, (0 : Fin 2), wSpi, wCan, (.spiFrame .sia wSpi), 112, wSpi, wSpi, wIng, by decide +kernel⟩,
    ⟨(0 : Fin 24), true, true, wRun, by decide +kernel⟩,
    ⟨(0 : Fin 24), true, true, wIng, by decide +kernel⟩,
    ⟨(0 : Fin 4), true, false, true, wRun, by decide +kernel⟩,
    ⟨(0 : Fin 4), true, false, true, wIng, by decide +kernel⟩⟩

theorem test_meets_Wards_1 :
    (∃ (n : Fin 128) (s : State), (s.get F.WARD_CTRL_enable = 0 ∨ s.streamOn ↑n = false ∨ (s.stream ↑n).warded = false ∨ s.replaying = true ∨ (s.stream ↑n).ward ≠ none ∨ (s.stream ↑n).frame ≠ none))
    ∧ (∃ (n : Fin 128) (s : State), (s.get F.WARD_CTRL_enable = 1) ∧ (s.streamOn ↑n = true) ∧ ((s.stream ↑n).warded = true) ∧ (s.replaying = false) ∧ ((s.stream ↑n).ward = none) ∧ ((s.stream ↑n).frame = none) ∧ (s.plainMem (s.addr F.WARD_TABLE_BASE_LO_base + 64 * ↑n) 64 = true) ∧ (wardEntryOk (s.bytes (s.addr F.WARD_TABLE_BASE_LO_base + 64 * ↑n) 64) = false ∨ ((s.stream ↑n).done.all fun (q : ℕ) => decide (q % s.wardPeriod (s.bytes (s.addr F.WARD_TABLE_BASE_LO_base + 64 * ↑n) 64) ≠ 0)) = true))
    ∧ (∃ (n : Fin 128) (s : State), (s.get F.WARD_CTRL_enable = 1) ∧ (s.streamOn ↑n = true) ∧ ((s.stream ↑n).warded = true) ∧ (s.replaying = false) ∧ ((s.stream ↑n).ward = none) ∧ ((s.stream ↑n).frame = none) ∧ (s.plainMem (s.addr F.WARD_TABLE_BASE_LO_base + 64 * ↑n) 64 = true) ∧ (wardEntryOk (s.bytes (s.addr F.WARD_TABLE_BASE_LO_base + 64 * ↑n) 64) = true) ∧ (((s.stream ↑n).done.any fun (q : ℕ) => decide (q % s.wardPeriod (s.bytes (s.addr F.WARD_TABLE_BASE_LO_base + 64 * ↑n) 64) = 0)) = true) ∧ ((s.mcTouches false (s.addr F.WARD_TABLE_BASE_LO_base + 64 * ↑n) 64).plainMem (fieldAt (s.bytes (s.addr F.WARD_TABLE_BASE_LO_base + 64 * ↑n) 64) 16 8) (fieldAt (s.bytes (s.addr F.WARD_TABLE_BASE_LO_base + 64 * ↑n) 64) 4 4) = true) ∧ ((s.stream ↑n).xsRoute = false ∨ s.xsFaulted = true) ∧ (BitVec.toNat (digest64 (if ↑n < 96 then padTo 32 (unpackLine (s.stream ↑n).dataType (s.bytes (fieldAt (s.bytes (s.addr F.WARD_TABLE_BASE_LO_base + 64 * ↑n) 64) 16 8) (fieldAt (s.bytes (s.addr F.WARD_TABLE_BASE_LO_base + 64 * ↑n) 64) 4 4))) else s.bytes (fieldAt (s.bytes (s.addr F.WARD_TABLE_BASE_LO_base + 64 * ↑n) 64) 16 8) (fieldAt (s.bytes (s.addr F.WARD_TABLE_BASE_LO_base + 64 * ↑n) 64) 4 4))) = fieldAt (s.bytes (s.addr F.WARD_TABLE_BASE_LO_base + 64 * ↑n) 64) (if ((s.stream ↑n).xsRoute && s.xsFaulted) = true then 40 else 24) 8))
    ∧ (∃ (n : Fin 128) (s : State), (s.get F.WARD_CTRL_enable = 1) ∧ (s.streamOn ↑n = true) ∧ ((s.stream ↑n).warded = true) ∧ (s.replaying = false) ∧ ((s.stream ↑n).ward = none) ∧ ((s.stream ↑n).frame = none) ∧ (s.plainMem (s.addr F.WARD_TABLE_BASE_LO_base + 64 * ↑n) 64 = true) ∧ (wardEntryOk (s.bytes (s.addr F.WARD_TABLE_BASE_LO_base + 64 * ↑n) 64) = true) ∧ (((s.stream ↑n).done.any fun (q : ℕ) => decide (q % s.wardPeriod (s.bytes (s.addr F.WARD_TABLE_BASE_LO_base + 64 * ↑n) 64) = 0)) = true) ∧ ((s.mcTouches false (s.addr F.WARD_TABLE_BASE_LO_base + 64 * ↑n) 64).plainMem (fieldAt (s.bytes (s.addr F.WARD_TABLE_BASE_LO_base + 64 * ↑n) 64) 16 8) (fieldAt (s.bytes (s.addr F.WARD_TABLE_BASE_LO_base + 64 * ↑n) 64) 4 4) = true) ∧ ((s.stream ↑n).xsRoute = false ∨ s.xsFaulted = true) ∧ (BitVec.toNat (digest64 (if ↑n < 96 then padTo 32 (unpackLine (s.stream ↑n).dataType (s.bytes (fieldAt (s.bytes (s.addr F.WARD_TABLE_BASE_LO_base + 64 * ↑n) 64) 16 8) (fieldAt (s.bytes (s.addr F.WARD_TABLE_BASE_LO_base + 64 * ↑n) 64) 4 4))) else s.bytes (fieldAt (s.bytes (s.addr F.WARD_TABLE_BASE_LO_base + 64 * ↑n) 64) 16 8) (fieldAt (s.bytes (s.addr F.WARD_TABLE_BASE_LO_base + 64 * ↑n) 64) 4 4))) ≠ fieldAt (s.bytes (s.addr F.WARD_TABLE_BASE_LO_base + 64 * ↑n) 64) (if ((s.stream ↑n).xsRoute && s.xsFaulted) = true then 40 else 24) 8))
    ∧ (∃ (n : Fin 128) (s : State), (s.get F.WARD_CTRL_enable = 1) ∧ (s.streamOn ↑n = true) ∧ ((s.stream ↑n).warded = true) ∧ (s.replaying = false) ∧ ((s.stream ↑n).ward = none) ∧ ((s.stream ↑n).frame = none) ∧ (s.plainMem (s.addr F.WARD_TABLE_BASE_LO_base + 64 * ↑n) 64 = true) ∧ (wardEntryOk (s.bytes (s.addr F.WARD_TABLE_BASE_LO_base + 64 * ↑n) 64) = true) ∧ (((s.stream ↑n).done.any fun (q : ℕ) => decide (q % s.wardPeriod (s.bytes (s.addr F.WARD_TABLE_BASE_LO_base + 64 * ↑n) 64) = 0)) = true) ∧ ((s.mcTouches false (s.addr F.WARD_TABLE_BASE_LO_base + 64 * ↑n) 64).plainMem (fieldAt (s.bytes (s.addr F.WARD_TABLE_BASE_LO_base + 64 * ↑n) 64) 16 8) (fieldAt (s.bytes (s.addr F.WARD_TABLE_BASE_LO_base + 64 * ↑n) 64) 4 4) = true) ∧ ((s.stream ↑n).xsRoute = true) ∧ (s.xsFaulted = false))
    ∧ (∃ (n : Fin 128) (s : State), ((s.stream ↑n).score ≤ 255) ∧ (s.replaying = false))
    ∧ (∃ (n : Fin 128) (s : State) (stage : ℕ), ((s.stream ↑n).score ≤ 255) ∧ (s.replaying = false) ∧ (stage < 4))
    ∧ (∃ (n : Fin 128) (s : State) (stage : ℕ), ((s.stream ↑n).score ≤ 255) ∧ (stage < 4))
    ∧ (∃ (n : Fin 128) (s : State) (a : Fin 24) (w : WardRun), ((s.stream ↑n).ward = some w) ∧ (w.running = false) ∧ ((s.stream ↑n).deferrals < 3) ∧ (List.filter s.wardIdle (s.dieArrays (fieldAt w.entry 2 1)) = [] ∨ decide (↑(fieldAt w.entry 3 1) ≤ s.wardBudget (fieldAt w.entry 2 1)) = false))
    ∧ (∃ (n : Fin 128) (s : State) (a : Fin 24) (w : WardRun), ((s.stream ↑n).ward = some w) ∧ (w.running = false) ∧ ((List.filter s.wardIdle (s.dieArrays (fieldAt w.entry 2 1))).contains (24 * fieldAt w.entry 2 1 + ↑a) = true) ∧ (decide (↑(fieldAt w.entry 3 1) ≤ s.wardBudget (fieldAt w.entry 2 1)) = true ∨ 3 ≤ (s.stream ↑n).deferrals))
    ∧ (∃ (n : Fin 128) (s : State) (a : Fin 24) (w : WardRun), ((s.stream ↑n).ward = some w) ∧ (w.running = false) ∧ ((List.filter s.wardIdle (s.dieArrays (fieldAt w.entry 2 1))).contains (24 * fieldAt w.entry 2 1 + ↑a) = false) ∧ (List.filter s.wardIdle (s.dieArrays (fieldAt w.entry 2 1)) ≠ [] ∧ decide (↑(fieldAt w.entry 3 1) ≤ s.wardBudget (fieldAt w.entry 2 1)) = true ∨ 3 ≤ (s.stream ↑n).deferrals))
    ∧ (∃ (n : Fin 128) (s : State) (a : Fin 24) (w : WardRun), ((s.stream ↑n).ward = some w) ∧ (w.running = false)) :=
  ⟨⟨(0 : Fin 128), wIng, by decide +kernel⟩,
    ⟨(0 : Fin 128), wWardNotDue, by decide +kernel⟩,
    ⟨(0 : Fin 128), (wWardSt wDig), by decide +kernel⟩,
    ⟨(0 : Fin 128), (wWardSt 1), by decide +kernel⟩,
    ⟨(0 : Fin 128), wWardXs, by decide +kernel⟩,
    ⟨(0 : Fin 128), (wWardDue 0 0), by decide +kernel⟩,
    ⟨(0 : Fin 128), (wWardDue 0 0), 1, by decide +kernel⟩,
    ⟨(0 : Fin 128), (wWardDue 0 0), 1, by decide +kernel⟩,
    ⟨(0 : Fin 128), (wWardDue 0 0), (0 : Fin 24), wWr1, by decide +kernel⟩,
    ⟨(0 : Fin 128), (wWardDue 0 20), (0 : Fin 24), wWr1, by decide +kernel⟩,
    ⟨(0 : Fin 128), (wWardDue 0 20), (5 : Fin 24), wWr1, by decide +kernel⟩,
    ⟨(0 : Fin 128), (wWardDue 0 0), (0 : Fin 24), wWr1, by decide +kernel⟩⟩

theorem test_meets_Wards_2 :
    (∃ (n : Fin 128) (s : State) (a : Fin 24) (w : WardRun), ((s.stream ↑n).ward = some w) ∧ (w.running = false) ∧ (s.plainMem (fieldAt w.entry 8 8) 128 = true))
    ∧ (∃ (n : Fin 128) (s : State) (a : Fin 24), (Option.all (fun (x : WardRun) => x.running) (s.stream ↑n).ward = true))
    ∧ (∃ (n : Fin 128) (s : State) (w : WardRun), ((s.stream ↑n).ward = some w) ∧ (w.running = false) ∧ (3 ≤ (s.stream ↑n).deferrals) ∧ ((s.dieArrays (fieldAt w.entry 2 1)).any s.wardIdle = true ∨ s.victim (fieldAt w.entry 2 1) = none))
    ∧ (∃ (n : Fin 128) (s : State) (w : WardRun) (m : ℕ), ((s.stream ↑n).ward = some w) ∧ (w.running = false) ∧ (3 ≤ (s.stream ↑n).deferrals) ∧ ((s.dieArrays (fieldAt w.entry 2 1)).any s.wardIdle = false) ∧ (s.victim (fieldAt w.entry 2 1) = some m) ∧ ((s.arr m).flights ≠ [] ∨ (s.arr m).atBoundary = false ∨ (s.arr m).loading = true ∨ (s.arr m).ending = true))
    ∧ (∃ (n : Fin 128) (s : State) (w : WardRun) (m : ℕ), ((s.stream ↑n).ward = some w) ∧ (w.running = false) ∧ (3 ≤ (s.stream ↑n).deferrals) ∧ ((s.dieArrays (fieldAt w.entry 2 1)).any s.wardIdle = false) ∧ (s.victim (fieldAt w.entry 2 1) = some m) ∧ ((s.arr m).flights = []) ∧ ((s.arr m).atBoundary = true) ∧ ((s.arr m).loading = false) ∧ ((s.arr m).ending = false))
    ∧ (∃ (n : Fin 128) (s : State), ((s.stream ↑n).ward = none ∨ (s.stream ↑n).deferrals < 3 ∨ Option.all (fun (x : WardRun) => x.running) (s.stream ↑n).ward = true))
    ∧ (∃ (n : Fin 128) (s : State) (m : Fin 96) (i : ℕ), (memWf s.mem = true) ∧ (memWf (s.arr ↑m).lb = true) ∧ (s.cond = []) ∧ ((s.arr ↑m).lbCond = []) ∧ (s.spilled = []) ∧ (i < 131072))
    ∧ (∃ (n : Fin 128) (s : State) (m : Fin 96), (memWf s.mem = true) ∧ (memWf (s.arr ↑m).lb = true) ∧ (s.cond = []) ∧ ((s.arr ↑m).lbCond = []) ∧ (s.spilled = []))
    ∧ (∃ (n : Fin 128) (s : State) (m : Fin 96) (i : ℕ), (memWf s.mem = true) ∧ (memWf (s.arr ↑m).lb = true) ∧ (s.cond = []) ∧ (i < 131072))
    ∧ (∃ (n : Fin 128) (s : State) (m : Fin 96) (i : ℕ), (memWf s.mem = true) ∧ (memWf (s.arr ↑m).lb = true) ∧ (s.cond = []) ∧ (i < 28672 * 32 ∨ 32768 * 32 ≤ i))
    ∧ (∃ (n : Fin 128) (s : State) (m : Fin 96), (memWf s.mem = true) ∧ (memWf (s.arr ↑m).lb = true) ∧ (s.cond = []))
    ∧ (∃ (n : Fin 128) (s : State) (us : ℕ) (w : WardRun) (j : Job), ((s.stream ↑n).ward = some w) ∧ (s.wardJobOf ↑n = some j) ∧ (w.running = true) ∧ ((j.slots.all fun (t : SlotSt) => decide (t.phase = 3)) = true) ∧ (j.outcome.1 ≠ 0)) :=
  ⟨⟨(0 : Fin 128), (wWardDue 0 20), (0 : Fin 24), wWr1, by decide +kernel⟩,
    ⟨(0 : Fin 128), wWardRun, (0 : Fin 24), by decide +kernel⟩,
    ⟨(0 : Fin 128), (wWardDue 3 0), wWr1, by decide +kernel⟩,
    ⟨(0 : Fin 128), wVicBusy, wWr1, 0, by decide +kernel⟩,
    ⟨(0 : Fin 128), wWardVictim, wWr1, 0, by decide +kernel⟩,
    ⟨(0 : Fin 128), wIng, by decide +kernel⟩,
    ⟨(0 : Fin 128), wIng, (0 : Fin 96), 131071, by decide +kernel⟩,
    ⟨(0 : Fin 128), wIng, (0 : Fin 96), by decide +kernel⟩,
    ⟨(0 : Fin 128), wIng, (0 : Fin 96), 131071, by decide +kernel⟩,
    ⟨(0 : Fin 128), wIng, (0 : Fin 96), 0, by decide +kernel⟩,
    ⟨(0 : Fin 128), wIng, (0 : Fin 96), by decide +kernel⟩,
    ⟨(0 : Fin 128), wWardBad, 7, wRunWard, wWJobBad, by decide +kernel⟩⟩

theorem test_meets_Wards_3 :
    (∃ (n : Fin 128) (s : State) (us : ℕ) (w : WardRun) (j : Job), ((s.stream ↑n).ward = some w) ∧ (s.wardJobOf ↑n = some j) ∧ (w.running = true) ∧ ((j.slots.all fun (t : SlotSt) => decide (t.phase = 3)) = true) ∧ (j.outcome.1 = 0))
    ∧ (∃ (n : Fin 128) (s : State) (us : ℕ) (w : WardRun) (j : Job), ((s.stream ↑n).ward = some w) ∧ (s.wardJobOf ↑n = some j) ∧ (w.running = false ∨ (j.slots.any fun (t : SlotSt) => decide (t.phase ≠ 3)) = true))
    ∧ (∃ (n : Fin 128) (s : State) (us : ℕ) (w : WardRun) (j : Job), ((s.stream ↑n).ward = some w) ∧ (s.wardJobOf ↑n = some j) ∧ (w.running = true) ∧ (w.saved ≠ none))
    ∧ (∃ (n : Fin 128) (s : State) (us : ℕ) (w : WardRun) (j : Job), ((s.stream ↑n).ward = some w) ∧ (s.wardJobOf ↑n = some j) ∧ (w.running = false ∨ w.saved = none))
    ∧ (∃ (n : Fin 128) (s : State), ((s.stream ↑n).ward = none ∨ s.wardJobOf ↑n = none))
    ∧ (∃ (n : Fin 128) (s : State) (us : ℕ), ((s.stream ↑n).ward = none ∨ s.wardJobOf ↑n = none))
    ∧ (∃ (n : Fin 128) (s : State) (j : Job), (s.wardJobOf ↑n = some j))
    ∧ (∃ (n : Fin 128) (s : State) (j : Job) (c : SlotSt), (s.wardJobOf ↑n = some j) ∧ (c ∈ j.slots) ∧ (c.phase = 2))
    ∧ (∃ (n : Fin 128) (s : State) (w : WardRun), (w.saved = none))
    ∧ (∃ (n : Fin 128) (s : State) (m : Fin 96) (sv : SavedArr) (w : WardRun), (w.saved = some sv) ∧ (sv.arr = ↑m) ∧ (Option.all (fun (j : Job) => (List.foldl (fun (u : State) (p : ℕ × Word) => u.putWord (pgARR ↑m) p.1 p.2) ((s.setArr (↑m) (have __src := sv.st; { __src with lb := (s.arr ↑m).lb, lbCond := (s.arr ↑m).lbCond, inject := (s.arr ↑m).inject, progAddr := (s.arr ↑m).progAddr, progDig := (s.arr ↑m).progDig, words := (s.arr ↑m).words, nextId := max (s.arr ↑m).nextId sv.st.nextId, stop := (s.arr ↑m).stop.or sv.st.stop })).wardLoadLb ↑m) sv.words).holdsProgram (↑m) j) ((List.foldl (fun (u : State) (p : ℕ × Word) => u.putWord (pgARR ↑m) p.1 p.2) ((s.setArr (↑m) (have __src := sv.st; { __src with lb := (s.arr ↑m).lb, lbCond := (s.arr ↑m).lbCond, inject := (s.arr ↑m).inject, progAddr := (s.arr ↑m).progAddr, progDig := (s.arr ↑m).progDig, words := (s.arr ↑m).words, nextId := max (s.arr ↑m).nextId sv.st.nextId, stop := (s.arr ↑m).stop.or sv.st.stop })).wardLoadLb ↑m) sv.words).arrJob ↑m) = true))
    ∧ (∃ (n : Fin 128) (s : State) (m : Fin 96) (sv : SavedArr) (w : WardRun) (j : Job), (w.saved = some sv) ∧ (sv.arr = ↑m) ∧ ((List.foldl (fun (u : State) (p : ℕ × Word) => u.putWord (pgARR ↑m) p.1 p.2) ((s.setArr (↑m) (have __src := sv.st; { __src with lb := (s.arr ↑m).lb, lbCond := (s.arr ↑m).lbCond, inject := (s.arr ↑m).inject, progAddr := (s.arr ↑m).progAddr, progDig := (s.arr ↑m).progDig, words := (s.arr ↑m).words, nextId := max (s.arr ↑m).nextId sv.st.nextId, stop := (s.arr ↑m).stop.or sv.st.stop })).wardLoadLb ↑m) sv.words).arrJob ↑m = some j) ∧ ((List.foldl (fun (u : State) (p : ℕ × Word) => u.putWord (pgARR ↑m) p.1 p.2) ((s.setArr (↑m) (have __src := sv.st; { __src with lb := (s.arr ↑m).lb, lbCond := (s.arr ↑m).lbCond, inject := (s.arr ↑m).inject, progAddr := (s.arr ↑m).progAddr, progDig := (s.arr ↑m).progDig, words := (s.arr ↑m).words, nextId := max (s.arr ↑m).nextId sv.st.nextId, stop := (s.arr ↑m).stop.or sv.st.stop })).wardLoadLb ↑m) sv.words).holdsProgram (↑m) j = false))
    ∧ (∃ (n : Fin 128) (s : State) (m : Fin 96) (sv : SavedArr) (w : WardRun) (p : ℕ × Word), (w.saved = some sv) ∧ (sv.arr = ↑m) ∧ (p ∈ sv.words) ∧ ((List.map (fun (x : ℕ × Word) => x.1) sv.words).Nodup) ∧ (p.1 = 44) ∧ ((s.cell (pgARR ↑m) 44).wrong = none)) :=
  ⟨⟨(0 : Fin 128), wWardRun, 7, wRunWard, wWJob, by decide +kernel⟩,
    ⟨(0 : Fin 128), wWardBusy, 7, wRunWard, wWJobBusy, by decide +kernel⟩,
    ⟨(0 : Fin 128), wOverSt, 7, wOverRun, wWJob, by decide +kernel⟩,
    ⟨(0 : Fin 128), wWardRun, 7, wRunWard, wWJob, by decide +kernel⟩,
    ⟨(0 : Fin 128), wIng, by decide +kernel⟩,
    ⟨(0 : Fin 128), wIng, 7, by decide +kernel⟩,
    ⟨(0 : Fin 128), wWardBusy, wWJobBusy, by decide +kernel⟩,
    ⟨(0 : Fin 128), wWardBusy, wWJobBusy, { phase := 2 }, by decide +kernel⟩,
    ⟨(0 : Fin 128), wWardRun, wRunWard, by decide +kernel⟩,
    ⟨(0 : Fin 128), wOverSt, (0 : Fin 96), wSaved, wOverRun, by decide +kernel⟩,
    ⟨(0 : Fin 128), wGiveJob, (0 : Fin 96), wSaved, wOverRun, { wJob with index := 5 }, by decide +kernel⟩,
    ⟨(0 : Fin 128), wOverSt, (0 : Fin 96), wSaved, wOverRun, (0x02C, 5#32), by decide +kernel⟩⟩

theorem test_meets_Wards_4 :
    (∃ (n : Fin 128) (s : State) (m : Fin 96) (sv : SavedArr) (w : WardRun), (w.saved = some sv) ∧ (sv.arr = ↑m))
    ∧ (∃ (n : Fin 128) (s : State) (m : Fin 96) (j : Job), (s.plainMem (j.program + 128) (16 * fieldAt j.header 6 2) = true))
    ∧ (∃ (n : Fin 128) (s : State) (d : Fin 4) (us : ℕ), (s.wardBudget ↑d ≤ 180))
    ∧ (∃ (n : Fin 128) (s : State) (d : Fin 4), (s.hubOff = true))
    ∧ (∃ (n : Fin 128) (s : State) (d : Fin 4), (s.hubOff = false)) :=
  ⟨⟨(0 : Fin 128), wOverSt, (0 : Fin 96), wSaved, wOverRun, by decide +kernel⟩,
    ⟨(0 : Fin 128), wWardRun, (0 : Fin 96), wWJob, by decide +kernel⟩,
    ⟨(0 : Fin 128), wIng, (0 : Fin 4), 7, by decide +kernel⟩,
    ⟨(0 : Fin 128), wIng.put F.PWR_STATE_state 1, (0 : Fin 4), by decide +kernel⟩,
    ⟨(0 : Fin 128), wIng, (0 : Fin 4), by decide +kernel⟩⟩

theorem test_meets_EgoPoses_1 :
    (∃ (acc : Sys2Proof.Acc) (s : State) (s2 : State) (w : Word), (s.written pgEGO 32 acc = some (s2, w)) ∧ (BitVec.getLsbD w 0 = true) ∧ (s2.get F.EGO_CTRL_enable = 1))
    ∧ (∃ (acc : Sys2Proof.Acc) (s : State) (s2 : State) (w : Word), (s.written pgEGO 32 acc = some (s2, w)) ∧ (BitVec.getLsbD w 0 = true) ∧ (s2.get F.EGO_CTRL_enable = 0))
    ∧ (∃ (acc : Sys2Proof.Acc) (s : State) (s2 : State) (w : Word), (s.written pgEGO 32 acc = some (s2, w)) ∧ (BitVec.getLsbD w 0 = false))
    ∧ (∃ (s : State) (i : EgoItem) (rest : List EgoItem), (s.egoIn = i :: rest) ∧ (i.stream = 255))
    ∧ (∃ (s : State) (i : EgoItem) (rest : List EgoItem), (s.egoIn = i :: rest) ∧ (i.stream = 112 ∨ i.stream = 113))
    ∧ (∃ (s : State) (i : EgoItem) (rest : List EgoItem), (s.egoIn = i :: rest) ∧ (i.stream = 112 ∨ i.stream = 113))
    ∧ (∃ (s : State) (i : EgoItem) (rest : List EgoItem), (s.egoIn = i :: rest) ∧ (i.stream = 112 ∨ i.stream = 113) ∧ ((decide (s.egoSource i.pos i.stream - 112 ≠ s.get F.EGO_STATUS_src) && s.ego.some1) = true))
    ∧ (∃ (s : State) (i : EgoItem) (rest : List EgoItem), (s.egoIn = i :: rest) ∧ (i.stream = 112 ∨ i.stream = 113) ∧ (i.stream ≠ s.egoSource i.pos i.stream))
    ∧ (∃ (s : State) (i : EgoItem) (rest : List EgoItem), (s.egoIn = i :: rest) ∧ (i.stream = 112 ∨ i.stream = 113) ∧ (i.stream = s.egoSource i.pos i.stream) ∧ (i.flags % 16 ≠ 0 ∨ s.imuFits i.data = false ∨ s.ego.some1 = true ∧ i.ts ≤ s.ego.tPrev))
    ∧ (∃ (s : State) (i : EgoItem) (rest : List EgoItem), (s.egoIn = i :: rest) ∧ (i.stream = 112 ∨ i.stream = 113) ∧ (i.stream = s.egoSource i.pos i.stream) ∧ (i.flags % 16 = 0) ∧ (s.imuFits i.data = true) ∧ (s.ego.some1 = false))
    ∧ (∃ (s : State) (i : EgoItem) (rest : List EgoItem), (s.egoIn = i :: rest) ∧ (i.stream = 112 ∨ i.stream = 113) ∧ (i.stream = s.egoSource i.pos i.stream) ∧ (i.flags % 16 = 0) ∧ (s.imuFits i.data = true) ∧ (s.ego.some1 = true) ∧ (s.ego.tPrev < i.ts) ∧ (1000 * ↑(s.get F.EGO_LIMITS_max_dt_us) < ↑i.ts - ↑s.ego.tPrev))
    ∧ (∃ (s : State) (i : EgoItem) (rest : List EgoItem), (s.egoIn = i :: rest) ∧ (i.stream = 112 ∨ i.stream = 113) ∧ (i.stream = s.egoSource i.pos i.stream) ∧ (i.flags % 16 = 0) ∧ (s.imuFits i.data = true) ∧ (s.ego.some1 = true) ∧ (s.ego.tPrev < i.ts) ∧ (↑i.ts - ↑s.ego.tPrev ≤ 1000 * ↑(s.get F.EGO_LIMITS_max_dt_us))) :=
  ⟨⟨(wAcc 1), wEgoOn, (wEgoWr wEgoOn 1).1, (wEgoWr wEgoOn 1).2, by decide +kernel⟩,
    ⟨(wAcc 1), wEgoOff, (wEgoWr wEgoOff 1).1, (wEgoWr wEgoOff 1).2, by decide +kernel⟩,
    ⟨(wAcc 0), wEgoOn, (wEgoWr wEgoOn 0).1, (wEgoWr wEgoOn 0).2, by decide +kernel⟩,
    ⟨(wEgo true (wImu 255 200 0)), (wImu 255 200 0), [], by decide +kernel⟩,
    ⟨(wEgo true (wImu 112 200 0)), (wImu 112 200 0), [], by decide +kernel⟩,
    ⟨(wEgo true (wImu 112 200 0)), (wImu 112 200 0), [], by decide +kernel⟩,
    ⟨(wEgoFrom1 (wImu 112 200 0)), (wImu 112 200 0), [], by decide +kernel⟩,
    ⟨(wEgo true (wImu 113 200 0)), (wImu 113 200 0), [], by decide +kernel⟩,
    ⟨(wEgo true (wImu 112 100 0)), (wImu 112 100 0), [], by decide +kernel⟩,
    ⟨(wEgo false (wImu 112 200 0)), (wImu 112 200 0), [], by decide +kernel⟩,
    ⟨(wEgo true (wImu 112 2000000 0)), (wImu 112 2000000 0), [], by decide +kernel⟩,
    ⟨(wEgo true (wImu 112 200 0)), (wImu 112 200 0), [], by decide +kernel⟩⟩

theorem test_meets_EgoPoses_2 :
    (∃ (s : State) (i : EgoItem) (rest : List EgoItem), (s.egoIn = i :: rest) ∧ (i.stream ≠ 112) ∧ (i.stream ≠ 113) ∧ (i.stream ≠ 255))
    ∧ (∃ (s : State) (i : EgoItem) (rest : List EgoItem), (s.egoIn = i :: rest) ∧ (i.stream ≠ 112) ∧ (i.stream ≠ 113) ∧ (i.stream ≠ 255) ∧ (s.ego.some1 = false))
    ∧ (∃ (s : State) (i : EgoItem) (rest : List EgoItem), (s.egoIn = i :: rest) ∧ (i.stream ≠ 112) ∧ (i.stream ≠ 113) ∧ (i.stream ≠ 255) ∧ (s.ego.some1 = true))
    ∧ (∃ (gap : Bool) (ts : ℕ) (pos : ℕ) (w : V3) (s : State), (s.plainStore (s.poseAddr (s.get F.EGO_POSE_COUNT_count)) 128 = true))
    ∧ (∃ (s : State), (s.egoIn = [])) :=
  ⟨⟨(wEgo true (wImu 115 200 0)), (wImu 115 200 0), [], by decide +kernel⟩,
    ⟨(wEgo false (wImu 115 200 0)), (wImu 115 200 0), [], by decide +kernel⟩,
    ⟨(wEgo true (wImu 115 200 0)), (wImu 115 200 0), [], by decide +kernel⟩,
    ⟨true, 5, 6, (⟨1, 2, 3⟩ : V3), (wEgo true (wImu 112 200 0)), by decide +kernel⟩,
    ⟨wEgoOn, by decide +kernel⟩⟩

theorem test_meets_Projection_1 :
    (∃ (acc : Sys2Proof.Acc) (s : State) (s2 : State) (w : Word), (s.written pgPROJ 32 acc = some (s2, w)) ∧ (BitVec.getLsbD w 0 = true) ∧ (s2.get F.PROJ_CTRL_enable = 1))
    ∧ (∃ (acc : Sys2Proof.Acc) (s : State) (s2 : State) (w : Word), (s.written pgPROJ 32 acc = some (s2, w)) ∧ (BitVec.getLsbD w 0 = true) ∧ (s2.get F.PROJ_CTRL_enable = 0) ∧ (List.find? (fun (e : ℕ) => !s2.calOk e) (List.range 64) = none))
    ∧ (∃ (acc : Sys2Proof.Acc) (s : State) (s2 : State) (w : Word) (e : ℕ), (s.written pgPROJ 32 acc = some (s2, w)) ∧ (BitVec.getLsbD w 0 = true) ∧ (s2.get F.PROJ_CTRL_enable = 0) ∧ (List.find? (fun (e : ℕ) => !s2.calOk e) (List.range 64) = some e))
    ∧ (∃ (acc : Sys2Proof.Acc) (s : State) (s2 : State) (w : Word), (s.written pgPROJ 32 acc = some (s2, w)) ∧ (BitVec.getLsbD w 0 = false))
    ∧ (∃ (id : JobId) (s : State) (j : Job) (b : List Byte), (s.commandAt id 4 1 = some (j, b)) ∧ ((s.get F.PROJ_STATUS_state ≠ 0 ∧ s.get F.PROJ_STATUS_state ≠ 3 ∧ s.projOk b = true ∧ s.inMemory (pcSrc b) (pcSrcBytes b) = true ∧ (pcDstBytes b = 0 ∨ s.inMemory (pcDst b) (pcDstBytes b) = true)) ∧ s.poseGate b = some false ∧ s.plainMem (pcSrc b) (pcSrcBytes b) = true) ∧ (s.plainStore (pcDst b) (List.flatMap (fun (x : List Byte × ℕ) => x.1) (List.map (((if pcLimit b = 4294967295 then (s.fetched j).modJob j.queue j.index fun (j : Job) => { j with nonrepro := true } else s.fetched j).mcTouches false (pcSrc b) (pcSrcBytes b)).p2iOut (Config.freeOf [245, leNat b, leNat (s.bytes (pcSrc b) (pcSrcBytes b))]) b) (pcPoints b (s.bytes (pcSrc b) (pcSrcBytes b))))).length = true) ∧ (s.plainMem (s.addr F.EGO_RING_BASE_LO_base) (128 * min (s.get F.EGO_POSE_COUNT_count) 16384) = true))
    ∧ (∃ (id : JobId) (s : State) (j : Job) (b : List Byte), (s.commandAt id 4 2 = some (j, b)) ∧ ((s.get F.PROJ_STATUS_state ≠ 0 ∧ s.get F.PROJ_STATUS_state ≠ 3 ∧ s.projOk b = true ∧ s.inMemory (pcSrc b) (pcSrcBytes b) = true ∧ (pcDstBytes b = 0 ∨ s.inMemory (pcDst b) (pcDstBytes b) = true)) ∧ s.poseGate b = some false ∧ s.plainMem (pcSrc b) (pcSrcBytes b) = true) ∧ (s.plainStore (pcDst b) (List.flatMap (fun (x : List Byte × ℕ) => x.1) (List.map (((if pcLimit b = 4294967295 then (s.fetched j).modJob j.queue j.index fun (j : Job) => { j with nonrepro := true } else s.fetched j).mcTouches false (pcSrc b) (pcSrcBytes b)).p2gOut (Config.freeOf [245, leNat b, leNat (s.bytes (pcSrc b) (pcSrcBytes b))]) b) (pcPoints b (s.bytes (pcSrc b) (pcSrcBytes b))))).length = true) ∧ (s.plainMem (s.addr F.EGO_RING_BASE_LO_base) (128 * min (s.get F.EGO_POSE_COUNT_count) 16384) = true))
    ∧ (∃ (id : JobId) (s : State) (j : Job) (b : List Byte), (s.commandAt id 4 3 = some (j, b)) ∧ ((s.get F.PROJ_STATUS_state ≠ 0 ∧ s.get F.PROJ_STATUS_state ≠ 3 ∧ s.projOk b = true ∧ s.inMemory (pcSrc b) (pcSrcBytes b) = true ∧ (pcDstBytes b = 0 ∨ s.inMemory (pcDst b) (pcDstBytes b) = true)) ∧ s.poseGate b = some false ∧ s.plainMem (pcSrc b) (pcSrcBytes b) = true) ∧ (s.plainStore (pcDst b) (List.flatMap (fun (x : List Byte × ℕ) => x.1) (List.flatMap (fun (c : ℕ) => List.map (fun (h : ℕ) => ((if pcLimit b = 4294967295 then (s.fetched j).modJob j.queue j.index fun (j : Job) => { j with nonrepro := true } else s.fetched j).mcTouches false (pcSrc b) (pcSrcBytes b)).f2gOut (Config.freeOf [245, leNat b, leNat (s.bytes (pcSrc b) (pcSrcBytes b))]) b c (fieldAt (s.bytes (pcSrc b) (pcSrcBytes b)) (4 * h) 4)) (List.range (pcHeights b))) (List.range (pcCount b)))).length = true) ∧ (s.plainMem (s.addr F.EGO_RING_BASE_LO_base) (128 * min (s.get F.EGO_POSE_COUNT_count) 16384) = true))
    ∧ (∃ (id : JobId) (s : State) (j : Job) (b : List Byte), (s.commandAt id 4 4 = some (j, b)) ∧ ((s.get F.PROJ_STATUS_state ≠ 0 ∧ s.get F.PROJ_STATUS_state ≠ 3 ∧ s.projOk b = true ∧ s.inMemory (pcSrc b) (pcSrcBytes b) = true ∧ (pcDstBytes b = 0 ∨ s.inMemory (pcDst b) (pcDstBytes b) = true)) ∧ s.poseGate b = some false ∧ s.plainMem (pcSrc b) (pcSrcBytes b) = true) ∧ (((List.take 3 (List.map (fun (k : ℕ) => fieldAt (s.bytes (pcSrc b) (pcSrcBytes b)) (4 * k) 4) (List.range 7))).all (fSmall 1028443341) && (List.take 3 (List.drop 3 (List.map (fun (k : ℕ) => fieldAt (s.bytes (pcSrc b) (pcSrcBytes b)) (4 * k) 4) (List.range 7)))).all (fSmall 1036831949) && fSmall 1017370378 ((List.map (fun (k : ℕ) => fieldAt (s.bytes (pcSrc b) (pcSrcBytes b)) (4 * k) 4) (List.range 7)).getD 6 0)) = true))
    ∧ (∃ (id : JobId) (s : State) (j : Job) (b : List Byte), (s.commandAt id 4 4 = some (j, b)) ∧ ((s.get F.PROJ_STATUS_state ≠ 0 ∧ s.get F.PROJ_STATUS_state ≠ 3 ∧ s.projOk b = true ∧ s.inMemory (pcSrc b) (pcSrcBytes b) = true ∧ (pcDstBytes b = 0 ∨ s.inMemory (pcDst b) (pcDstBytes b) = true)) ∧ s.poseGate b = some false ∧ s.plainMem (pcSrc b) (pcSrcBytes b) = true) ∧ (((List.take 3 (List.map (fun (k : ℕ) => fieldAt (s.bytes (pcSrc b) (pcSrcBytes b)) (4 * k) 4) (List.range 7))).all (fSmall 1028443341) && (List.take 3 (List.drop 3 (List.map (fun (k : ℕ) => fieldAt (s.bytes (pcSrc b) (pcSrcBytes b)) (4 * k) 4) (List.range 7)))).all (fSmall 1036831949) && fSmall 1017370378 ((List.map (fun (k : ℕ) => fieldAt (s.bytes (pcSrc b) (pcSrcBytes b)) (4 * k) 4) (List.range 7)).getD 6 0)) = false))
    ∧ (∃ (id : JobId) (s : State) (j : Job) (b : List Byte), (s.commandAt id 4 5 = some (j, b)) ∧ (s.replaying = true) ∧ (((s.fetched j).replayTurn fun (r : JRec) => decide (r.kind = 12 ∧ r.aux0 = j.cmd ∧ r.aux1 = j.queue ∧ r.aux2 = j.index)) = false))
    ∧ (∃ (id : JobId) (s : State) (j : Job) (b : List Byte), (s.commandAt id 4 5 = some (j, b)) ∧ (s.replaying = false) ∧ ((s.get F.PROJ_STATUS_state ≠ 0 ∧ s.get F.PROJ_STATUS_state ≠ 3 ∧ s.projOk b = true ∧ s.inMemory (pcSrc b) (pcSrcBytes b) = true ∧ (pcDstBytes b = 0 ∨ s.inMemory (pcDst b) (pcDstBytes b) = true)) ∧ s.poseGate b = some false ∧ s.plainMem (pcSrc b) (pcSrcBytes b) = true)) :=
  ⟨⟨(wAcc 1), wProjOn, (wProjWr wProjOn 1).1, (wProjWr wProjOn 1).2, by decide +kernel⟩,
    ⟨(wAcc 1), wProjOff, (wProjWr wProjOff 1).1, (wProjWr wProjOff 1).2, by decide +kernel⟩,
    ⟨(wAcc 1), wProjBad, (wProjWr wProjBad 1).1, (wProjWr wProjBad 1).2, 1, by decide +kernel⟩,
    ⟨(wAcc 0), wProjOn, (wProjWr wProjOn 0).1, (wProjWr wProjOn 0).2, by decide +kernel⟩,
    ⟨wId, (wProj (wPc 1 2 0) wPts), wPJob, (wPc 1 2 0), by decide +kernel⟩,
    ⟨wId, (wProj (wPc 2 2 0) wPts), wPJob, (wPc 2 2 0), by decide +kernel⟩,
    ⟨wId, (wProj (wPc 3 2 1) wPts), wPJob, (wPc 3 2 1), by decide +kernel⟩,
    ⟨wId, (wProj (wPc 4 0 0) []), wPJob, (wPc 4 0 0), by decide +kernel⟩,
    ⟨wId, (wProj (wPc 4 0 0) wPts), wPJob, (wPc 4 0 0), by decide +kernel⟩,
    ⟨wId, (wInRep (wProj (wPc 5 0 0) wPts) 8 wBiasRec), wPJob, (wPc 5 0 0), by decide +kernel⟩,
    ⟨wId, (wProj (wPc 5 0 0) wPts), wPJob, (wPc 5 0 0), by decide +kernel⟩⟩

theorem test_meets_Projection_2 :
    (∃ (id : JobId) (s : State) (j : Job) (b : List Byte), (s.commandAt id 4 5 = some (j, b)) ∧ (s.replaying = true) ∧ (((s.fetched j).replayTurn fun (r : JRec) => decide (r.kind = 12 ∧ r.aux0 = j.cmd ∧ r.aux1 = j.queue ∧ r.aux2 = j.index)) = true) ∧ ((s.get F.PROJ_STATUS_state ≠ 0 ∧ s.get F.PROJ_STATUS_state ≠ 3 ∧ s.projOk b = true ∧ s.inMemory (pcSrc b) (pcSrcBytes b) = true ∧ (pcDstBytes b = 0 ∨ s.inMemory (pcDst b) (pcDstBytes b) = true)) ∧ s.poseGate b = some false ∧ s.plainMem (pcSrc b) (pcSrcBytes b) = true))
    ∧ (∃ (id : JobId) (s : State) (j : Job) (b : List Byte) (op : ℕ) (c : Instr), ((op, c) ∈ [(1, Instr.p2i id), (2, Instr.p2g id), (3, Instr.f2g id), (4, Instr.delta id), (5, Instr.bias id)]) ∧ (s.commandAt id 4 op = some (j, b)) ∧ (op ≠ 5 ∨ s.replaying = false ∨ ((s.fetched j).replayTurn fun (r : JRec) => decide (r.kind = 12 ∧ r.aux0 = j.cmd ∧ r.aux1 = j.queue ∧ r.aux2 = j.index)) = true) ∧ (¬(s.get F.PROJ_STATUS_state ≠ 0 ∧ s.get F.PROJ_STATUS_state ≠ 3 ∧ s.projOk b = true ∧ s.inMemory (pcSrc b) (pcSrcBytes b) = true ∧ (pcDstBytes b = 0 ∨ s.inMemory (pcDst b) (pcDstBytes b) = true)) ∨ s.poseGate b = some true))
    ∧ (∃ (id : JobId) (s : State) (j : Job) (b : List Byte) (op : ℕ) (c : Instr), ((op, c) ∈ [(1, Instr.p2i id), (2, Instr.p2g id), (3, Instr.f2g id), (4, Instr.delta id), (5, Instr.bias id)]) ∧ (s.commandAt id 4 op = some (j, b)) ∧ (op ≠ 5 ∨ s.replaying = false ∨ ((s.fetched j).replayTurn fun (r : JRec) => decide (r.kind = 12 ∧ r.aux0 = j.cmd ∧ r.aux1 = j.queue ∧ r.aux2 = j.index)) = true) ∧ (s.get F.PROJ_STATUS_state ≠ 0 ∧ s.get F.PROJ_STATUS_state ≠ 3 ∧ s.projOk b = true ∧ s.inMemory (pcSrc b) (pcSrcBytes b) = true ∧ (pcDstBytes b = 0 ∨ s.inMemory (pcDst b) (pcDstBytes b) = true)) ∧ (s.poseGate b = none))
    ∧ (∃ (id : JobId) (s : State) (j : Job) (b : List Byte) (op : ℕ), (op = 0 ∨ 5 < op) ∧ (s.commandAt id 4 op = some (j, b)))
    ∧ (∃ (id : JobId) (s : State) (j : Job) (b : List Byte), (s.jobOf id = some j) ∧ (j.cls = 4))
    ∧ (∃ (id : JobId) (s : State) (j : Job) (b : List Byte), (s.jobOf id = some j) ∧ (j.cls = 4))
    ∧ (∃ (id : JobId) (s : State) (j : Job) (b : List Byte) (out : List Byte), (s.jobOf id = some j) ∧ (j.cls = 4)) :=
  ⟨⟨wId, (wInRep (wProj (wPc 5 0 0) wPts) 7 wBiasRec), wPJob, (wPc 5 0 0), by decide +kernel⟩,
    ⟨wId, (wProj (wPc 1 0 0) wPts), wPJob, (wPc 1 0 0), 1, (.p2i wId), by decide +kernel⟩,
    ⟨wId, (wPGate 0 (wPc 1 2 0)), wPJob, (wPc 1 2 0), 1, (.p2i wId), by decide +kernel⟩,
    ⟨wId, (wProj (wPc 9 2 0) wPts), wPJob, (wPc 9 2 0), 9, by decide +kernel⟩,
    ⟨wId, (wProj (wPc 1 2 0) wPts), wPJob, (wPc 1 2 0), by decide +kernel⟩,
    ⟨wId, (wProj (wPc 1 2 0) wPts), wPJob, (wPc 1 2 0), by decide +kernel⟩,
    ⟨wId, (wProj (wPc 1 2 0) wPts), wPJob, (wPc 1 2 0), [5#8], by decide +kernel⟩⟩

theorem test_meets_Fusion_1 :
    (∃ (acc : Sys2Proof.Acc) (s : State) (s2 : State) (w : Word) (c : Instr), (s.written pgFUS 32 acc = some (s2, w)) ∧ (c = Instr.fusEnable acc ∨ c = Instr.fusResume acc) ∧ ((BitVec.getLsbD w 1 && s2.get F.FUS_STATUS_state == 3) = true))
    ∧ (∃ (acc : Sys2Proof.Acc) (s : State) (s2 : State) (w : Word) (c : Instr), (s.written pgFUS 32 acc = some (s2, w)) ∧ (c = Instr.fusEnable acc ∨ c = Instr.fusResume acc) ∧ (BitVec.getLsbD w 0 = true) ∧ (s2.get F.FUS_CTRL_enable = 1))
    ∧ (∃ (acc : Sys2Proof.Acc) (s : State) (s2 : State) (w : Word) (c : Instr), (s.written pgFUS 32 acc = some (s2, w)) ∧ (c = Instr.fusEnable acc ∨ c = Instr.fusResume acc) ∧ (BitVec.getLsbD w 0 = false) ∧ (s2.get F.FUS_CTRL_enable = 0))
    ∧ (∃ (acc : Sys2Proof.Acc) (s : State) (s2 : State) (w : Word) (c : Instr), (s.written pgFUS 32 acc = some (s2, w)) ∧ (c = Instr.fusEnable acc ∨ c = Instr.fusResume acc) ∧ (BitVec.getLsbD w 0 = true) ∧ (s2.get F.FUS_CTRL_enable = 0) ∧ (s2.fusCfgOk = true))
    ∧ (∃ (acc : Sys2Proof.Acc) (s : State) (s2 : State) (w : Word) (c : Instr), (s.written pgFUS 32 acc = some (s2, w)) ∧ (c = Instr.fusEnable acc ∨ c = Instr.fusResume acc) ∧ (BitVec.getLsbD w 0 = true) ∧ (s2.get F.FUS_CTRL_enable = 0) ∧ (s2.fusCfgOk = false))
    ∧ (∃ (acc : Sys2Proof.Acc) (s : State) (s2 : State) (w : Word) (c : Instr), (s.written pgFUS 32 acc = some (s2, w)) ∧ (c = Instr.fusEnable acc ∨ c = Instr.fusResume acc) ∧ (BitVec.getLsbD w 0 = false) ∧ (s2.get F.FUS_CTRL_enable = 1))
    ∧ (∃ (id : JobId) (s : State), (Option.all (fun (j : Job) => !j.is id.queue.toNat (BitVec.toNat id.index)) s.fusNextJob = true ∨ (if s.get F.PWR_SERVICE_level = 1 then 1 else 4) ≤ s.fus.pending.length))
    ∧ (∃ (id : JobId) (s : State) (j : Job), (s.fusNextJob = some j) ∧ (j.is id.queue.toNat (BitVec.toNat id.index) = true) ∧ (s.fus.pending.length < if s.get F.PWR_SERVICE_level = 1 then 1 else 4) ∧ (s.get F.FUS_STATUS_state = 0 ∨ s.get F.FUS_STATUS_state = 3))
    ∧ (∃ (id : JobId) (s : State) (j : Job), (s.fusNextJob = some j) ∧ (j.is id.queue.toNat (BitVec.toNat id.index) = true) ∧ (s.fus.pending.length < if s.get F.PWR_SERVICE_level = 1 then 1 else 4) ∧ (s.get F.FUS_STATUS_state ≠ 0) ∧ (s.get F.FUS_STATUS_state ≠ 3) ∧ (s.plainMem j.program 64 = true) ∧ ((s.mcTouches false j.program 64).requestOk (s.bytes j.program 64) = false ∨ s.get F.EGO_STATUS_state = 0 ∨ s.get F.EGO_STATUS_state = 3))
    ∧ (∃ (id : JobId) (s : State) (j : Job), (s.fusNextJob = some j) ∧ (j.is id.queue.toNat (BitVec.toNat id.index) = true) ∧ (s.fus.pending.length < if s.get F.PWR_SERVICE_level = 1 then 1 else 4) ∧ (s.get F.FUS_STATUS_state ≠ 0) ∧ (s.get F.FUS_STATUS_state ≠ 3) ∧ (s.plainMem j.program 64 = true) ∧ ((s.mcTouches false j.program 64).requestOk (s.bytes j.program 64) = true) ∧ (s.get F.EGO_STATUS_state ≠ 0) ∧ (s.get F.EGO_STATUS_state ≠ 3))
    ∧ (∃ (sensor : Fin 64) (seq : Word) (s : State), (s.get F.FUS_STATUS_state = 0 ∨ (s.fusSensor ↑sensor).valid = false))
    ∧ (∃ (sensor : Fin 64) (seq : Word) (s : State), (s.get F.FUS_STATUS_state ≠ 0) ∧ ((s.fusSensor ↑sensor).valid = true) ∧ (s.plainMem (s.fusInputBase + 4096 * ↑sensor + 64 * (BitVec.toNat seq % 64)) 64 = true) ∧ ((decide ((inputOf (s.bytes (s.fusInputBase + 4096 * ↑sensor + 64 * (BitVec.toNat seq % 64)) 64) false).seq = BitVec.toNat seq ∧ (inputOf (s.bytes (s.fusInputBase + 4096 * ↑sensor + 64 * (BitVec.toNat seq % 64)) 64) false).sensor = ↑sensor ∧ (inputOf (s.bytes (s.fusInputBase + 4096 * ↑sensor + 64 * (BitVec.toNat seq % 64)) 64) false).count ≤ 4096) && (s.stream (s.fusStream ↑sensor)).items.any fun (k : ℕ × ℕ × ℕ) => decide (k = ((inputOf (s.bytes (s.fusInputBase + 4096 * ↑sensor + 64 * (BitVec.toNat seq % 64)) 64) false).pos, (inputOf (s.bytes (s.fusInputBase + 4096 * ↑sensor + 64 * (BitVec.toNat seq % 64)) 64) false).seq, (inputOf (s.bytes (s.fusInputBase + 4096 * ↑sensor + 64 * (BitVec.toNat seq % 64)) 64) false).ts))) = false)) :=
  ⟨⟨(wAcc 3), wFusFaulted, (wFusWr wFusFaulted 3).1, (wFusWr wFusFaulted 3).2, (.fusResume (wAcc 3)), by decide +kernel⟩,
    ⟨(wAcc 1), wFusOn, (wFusWr wFusOn 1).1, (wFusWr wFusOn 1).2, (.fusEnable (wAcc 1)), by decide +kernel⟩,
    ⟨(wAcc 0), wFusOffD, (wFusWr wFusOffD 0).1, (wFusWr wFusOffD 0).2, (.fusEnable (wAcc 0)), by decide +kernel⟩,
    ⟨(wAcc 1), wFusOffD, (wFusWr wFusOffD 1).1, (wFusWr wFusOffD 1).2, (.fusEnable (wAcc 1)), by decide +kernel⟩,
    ⟨(wAcc 1), wFusBad, (wFusWr wFusBad 1).1, (wFusWr wFusBad 1).2, (.fusEnable (wAcc 1)), by decide +kernel⟩,
    ⟨(wAcc 0), (wFusPend none), (wFusWr (wFusPend none) 0).1, (wFusWr (wFusPend none) 0).2, (.fusEnable (wAcc 0)), by decide +kernel⟩,
    ⟨wId, wFusOffD, by decide +kernel⟩,
    ⟨wId, wFusReqOff, wFJob, by decide +kernel⟩,
    ⟨wId, wFusOn, wFJob, by decide +kernel⟩,
    ⟨wId, wFusReq, wFJob, by decide +kernel⟩,
    ⟨(3 : Fin 64), 2#32, wFusReqOff, by decide +kernel⟩,
    ⟨(3 : Fin 64), 2#32, (wFusIn [1#8]), by decide +kernel⟩⟩

theorem test_meets_Fusion_2 :
    (∃ (sensor : Fin 64) (seq : Word) (s : State), (s.get F.FUS_STATUS_state ≠ 0) ∧ ((s.fusSensor ↑sensor).valid = true) ∧ (s.plainMem (s.fusInputBase + 4096 * ↑sensor + 64 * (BitVec.toNat seq % 64)) 64 = true) ∧ ((decide ((inputOf (s.bytes (s.fusInputBase + 4096 * ↑sensor + 64 * (BitVec.toNat seq % 64)) 64) false).seq = BitVec.toNat seq ∧ (inputOf (s.bytes (s.fusInputBase + 4096 * ↑sensor + 64 * (BitVec.toNat seq % 64)) 64) false).sensor = ↑sensor ∧ (inputOf (s.bytes (s.fusInputBase + 4096 * ↑sensor + 64 * (BitVec.toNat seq % 64)) 64) false).count ≤ 4096) && (s.stream (s.fusStream ↑sensor)).items.any fun (k : ℕ × ℕ × ℕ) => decide (k = ((inputOf (s.bytes (s.fusInputBase + 4096 * ↑sensor + 64 * (BitVec.toNat seq % 64)) 64) false).pos, (inputOf (s.bytes (s.fusInputBase + 4096 * ↑sensor + 64 * (BitVec.toNat seq % 64)) 64) false).seq, (inputOf (s.bytes (s.fusInputBase + 4096 * ↑sensor + 64 * (BitVec.toNat seq % 64)) 64) false).ts))) = true) ∧ (((List.filter (fun (x : FusIn) => decide (x.sensor = ↑sensor ∧ x.seq % 64 = BitVec.toNat seq % 64)) s.fus.inputs).all fun (x : FusIn) => x.used || x.seq == (inputOf (s.bytes (s.fusInputBase + 4096 * ↑sensor + 64 * (BitVec.toNat seq % 64)) 64) false).seq) = true))
    ∧ (∃ (sensor : Fin 64) (seq : Word) (s : State), (s.get F.FUS_STATUS_state ≠ 0) ∧ ((s.fusSensor ↑sensor).valid = true) ∧ (s.plainMem (s.fusInputBase + 4096 * ↑sensor + 64 * (BitVec.toNat seq % 64)) 64 = true) ∧ ((decide ((inputOf (s.bytes (s.fusInputBase + 4096 * ↑sensor + 64 * (BitVec.toNat seq % 64)) 64) false).seq = BitVec.toNat seq ∧ (inputOf (s.bytes (s.fusInputBase + 4096 * ↑sensor + 64 * (BitVec.toNat seq % 64)) 64) false).sensor = ↑sensor ∧ (inputOf (s.bytes (s.fusInputBase + 4096 * ↑sensor + 64 * (BitVec.toNat seq % 64)) 64) false).count ≤ 4096) && (s.stream (s.fusStream ↑sensor)).items.any fun (k : ℕ × ℕ × ℕ) => decide (k = ((inputOf (s.bytes (s.fusInputBase + 4096 * ↑sensor + 64 * (BitVec.toNat seq % 64)) 64) false).pos, (inputOf (s.bytes (s.fusInputBase + 4096 * ↑sensor + 64 * (BitVec.toNat seq % 64)) 64) false).seq, (inputOf (s.bytes (s.fusInputBase + 4096 * ↑sensor + 64 * (BitVec.toNat seq % 64)) 64) false).ts))) = true) ∧ (((List.filter (fun (x : FusIn) => decide (x.sensor = ↑sensor ∧ x.seq % 64 = BitVec.toNat seq % 64)) s.fus.inputs).any fun (x : FusIn) => !x.used && x.seq != (inputOf (s.bytes (s.fusInputBase + 4096 * ↑sensor + 64 * (BitVec.toNat seq % 64)) 64) false).seq) = true))
    ∧ (∃ (i : FusIn) (l : FusLate) (s : State), (i.told = true ∨ s.lateFor i = none))
    ∧ (∃ (i : FusIn) (l : FusLate) (s : State) (n : ℕ), (i.told = false) ∧ (s.lateFor i = some n))
    ∧ (∃ (i : FusIn) (l : FusLate) (s : State), (s.onTimeLater l.inp = true))
    ∧ (∃ (i : FusIn) (l : FusLate) (s : State), (s.onTimeLater l.inp = false) ∧ ((List.filter (fun (x : FusLate) => x.lane) s.fus.late).length < 64))
    ∧ (∃ (i : FusIn) (l : FusLate) (s : State), (s.onTimeLater l.inp = false) ∧ (64 ≤ (List.filter (fun (x : FusLate) => x.lane) s.fus.late).length))
    ∧ (∃ (b : List Byte) (s : State), ((s.queue 257).hasRoom = false))
    ∧ (∃ (b : List Byte) (s : State), ((s.queue 257).hasRoom = true) ∧ (s.fus.records = []))
    ∧ (∃ (sensor : Fin 64) (s : State), (s.replaying = true ∨ (s.fusSensor ↑sensor).valid = false ∨ (s.fus.pending.all fun (p : Instant) => !(fun (p : Instant) => p.r.isNone && (s.delivered (↑sensor) p.t).isNone && !p.outs.any fun (o : ℕ × ℕ) => decide (o.1 = ↑sensor)) p) = true))
    ∧ (∃ (sensor : Fin 64) (s : State) (p : Instant), (List.find? (fun (p : Instant) => p.r.isNone && (s.delivered (↑sensor) p.t).isNone && !p.outs.any fun (o : ℕ × ℕ) => decide (o.1 = ↑sensor)) s.fus.pending = some p) ∧ (s.replaying = false) ∧ ((s.fusSensor ↑sensor).valid = true))
    ∧ (∃ (s : State), (s.unreleased = none)) :=
  ⟨⟨(3 : Fin 64), 2#32, (wFusIn wFIn), by decide +kernel⟩,
    ⟨(3 : Fin 64), 2#32, wFusOldIn, by decide +kernel⟩,
    ⟨wFI, (⟨7, wFI, false⟩ : FusLate), wFusOn, by decide +kernel⟩,
    ⟨wFI, (⟨7, wFI, false⟩ : FusLate), wFusRel, 7, by decide +kernel⟩,
    ⟨wFI, (⟨7, wFI, false⟩ : FusLate), (wFusPend none), by decide +kernel⟩,
    ⟨wFI, (⟨7, wFI, false⟩ : FusLate), wFusRel, by decide +kernel⟩,
    ⟨wFI, (⟨7, wFI, false⟩ : FusLate), wFusLaneFull, by decide +kernel⟩,
    ⟨(leBytes 32 5), wFusOn, by decide +kernel⟩,
    ⟨(leBytes 32 5), wFusQ, by decide +kernel⟩,
    ⟨(3 : Fin 64), wFusOn, by decide +kernel⟩,
    ⟨(3 : Fin 64), (wFusPend none), (wInst none), by decide +kernel⟩,
    ⟨wFusOn, by decide +kernel⟩⟩

theorem test_meets_Fusion_3 :
    (∃ (s : State) (p : Instant), (s.unreleased = some p) ∧ (s.replaying = false) ∧ ((((fun (p : Instant) => List.map (fun (j : ℕ) => match List.find? (fun (o : ℕ × ℕ) => decide (o.1 = j)) p.outs with | some o => some o.2 | none => s.delivered j p.t) s.fusValid) p).any fun (x : Option ℕ) => x.isNone) = true))
    ∧ (∃ (s : State) (p : Instant) (poss : List ℕ), (s.unreleased = some p) ∧ (s.replaying = false) ∧ ((fun (p : Instant) => List.map (fun (j : ℕ) => match List.find? (fun (o : ℕ × ℕ) => decide (o.1 = j)) p.outs with | some o => some o.2 | none => s.delivered j p.t) s.fusValid) p = List.map some poss))
    ∧ (∃ (s : State) (p : Instant) (r : ℕ) (outs : ℕ), (s.unreleased = some p) ∧ (s.replaying = true) ∧ (s.recordedInstant p.number = some (r, outs)) ∧ (Option.all (fun (e : ℕ) => decide (e ≤ r)) s.jrn.expected = true))
    ∧ (∃ (s : State) (p : Instant) (r : ℕ) (outs : ℕ), (s.unreleased = some p) ∧ (s.replaying = true) ∧ (s.recordedInstant p.number = some (r, outs)) ∧ (Option.any (fun (e : ℕ) => decide (r < e)) s.jrn.expected = true))
    ∧ (∃ (s : State) (p : Instant), (s.unreleased = some p) ∧ (s.replaying = true) ∧ (s.recordedInstant p.number = none))
    ∧ (∃ (s : State), (s.fusHead = none))
    ∧ (∃ (s : State) (p : Instant) (r : ℕ) (rest : List Instant), (s.fus.pending = p :: rest) ∧ (p.r = some r) ∧ (List.filter (fun (j : ℕ) => !s.inputsHere p r j) s.fusValid = []))
    ∧ (∃ (s : State) (p : Instant) (r : ℕ) (rest : List Instant), (s.fus.pending = p :: rest) ∧ (p.r = some r) ∧ (List.filter (fun (j : ℕ) => !s.inputsHere p r j) s.fusValid ≠ []))
    ∧ (∃ (s : State) (p : Instant) (r : ℕ) (rest : List Instant), (s.fus.pending = p :: rest) ∧ (p.r = some r) ∧ (List.filter (fun (j : ℕ) => !s.inputsHere p r j) s.fusValid ≠ []) ∧ (Option.map (fun (j : Job) => decide (j.deadline ≠ 0)) (s.job p.queue p.index) = some true))
    ∧ (∃ (s : State) (p : Instant) (r : ℕ) (rest : List Instant), (s.fus.pending = p :: rest) ∧ (p.r = some r) ∧ (¬Option.map (fun (j : Job) => decide (j.deadline ≠ 0)) (s.job p.queue p.index) = some true))
    ∧ (∃ (s : State) (p : Instant) (r : ℕ) (rest : List Instant) (gone : List ℕ), (s.fus.pending = p :: rest) ∧ (p.r = some r) ∧ (gone = [] ∨ gone = List.filter (fun (j : ℕ) => !s.inputsHere p r j) s.fusValid) ∧ (rest.length < 4) ∧ (p.number < 2 ^ 32) ∧ (s.plainStore s.fusStateBase (4 * s.fusW * s.fusH) = true) ∧ (p.flags % 4 = 0) ∧ (s.plainStore p.header 128 = true) ∧ (s.fus.late = []) ∧ ((s.queue 257).hasRoom = false) ∧ (s.get F.XGS_CTRL_enable = 0) ∧ (p.header + 128 ≤ s.fusStateBase ∨ s.fusStateBase + 4 * s.fusW * s.fusH ≤ p.header))
    ∧ (∃ (s : State) (p : Instant) (r : ℕ) (rest : List Instant) (gone : List ℕ), (s.fus.pending = p :: rest) ∧ (p.r = some r) ∧ (gone = [] ∨ gone = List.filter (fun (j : ℕ) => !s.inputsHere p r j) s.fusValid) ∧ (rest.length < 4) ∧ (p.number < 2 ^ 32) ∧ (s.plainStore s.fusStateBase (4 * s.fusW * s.fusH) = true) ∧ (p.flags % 4 = 0) ∧ (s.plainStore p.header 128 = true) ∧ (s.fus.late = []) ∧ ((s.queue 257).hasRoom = false) ∧ (s.get F.XGS_CTRL_enable = 0) ∧ (p.header + 128 ≤ s.fusStateBase ∨ s.fusStateBase + 4 * s.fusW * s.fusH ≤ p.header) ∧ (gone ≠ [])) :=
  ⟨⟨(wFusPend none), (wInst none), by decide +kernel⟩,
    ⟨wFusDel, (wInst none), [1], by decide +kernel⟩,
    ⟨(wInRep (wFusPend none) 5 (wInstRec 9)), (wInst none), 9, 8, by decide +kernel⟩,
    ⟨(wInRep (wFusPend none) 50 (wInstRec 9)), (wInst none), 9, 8, by decide +kernel⟩,
    ⟨(wInRep (wFusPend none) 50 (leBytes 32 0)), (wInst none), by decide +kernel⟩,
    ⟨wFusOn, by decide +kernel⟩,
    ⟨(wFusPend (some 9)), (wInst (some 9)), 9, [], by decide +kernel⟩,
    ⟨wFusMiss, (wInst (some 9)), 9, [], by decide +kernel⟩,
    ⟨wFusMiss, (wInst (some 9)), 9, [], by decide +kernel⟩,
    ⟨wFusMissND, (wInst (some 9)), 9, [], by decide +kernel⟩,
    ⟨(wFusPend (some 9)), (wInst (some 9)), 9, [], [], by decide +kernel⟩,
    ⟨wFusMiss, (wInst (some 9)), 9, [], [3], by decide +kernel⟩⟩

theorem test_meets_Collision_1 :
    (∃ (acc : Sys2Proof.Acc) (s : State) (s2 : State) (w : Word), (s.written pgCOLL 32 acc = some (s2, w)) ∧ (BitVec.getLsbD w 0 = true) ∧ (s2.get F.COLL_CTRL_enable = 1))
    ∧ (∃ (acc : Sys2Proof.Acc) (s : State) (s2 : State) (w : Word), (s.written pgCOLL 32 acc = some (s2, w)) ∧ (BitVec.getLsbD w 0 = true) ∧ (s2.get F.COLL_CTRL_enable = 0) ∧ (s2.collBases.collBasesOk = true))
    ∧ (∃ (acc : Sys2Proof.Acc) (s : State) (s2 : State) (w : Word), (s.written pgCOLL 32 acc = some (s2, w)) ∧ (BitVec.getLsbD w 0 = true) ∧ (s2.get F.COLL_CTRL_enable = 0) ∧ (s2.collBases.collBasesOk = false))
    ∧ (∃ (acc : Sys2Proof.Acc) (s : State) (s2 : State) (w : Word), (s.written pgCOLL 32 acc = some (s2, w)) ∧ (BitVec.getLsbD w 0 = false))
    ∧ (∃ (id : JobId) (s : State) (j : Job) (c : List Byte), (s.commandAt id 5 1 = some (j, c)) ∧ (s.get F.COLL_CTRL_enable = 0 ∨ s.coll.building ≠ none ∨ s.planOpen j = true))
    ∧ (∃ (id : JobId) (s : State) (j : Job) (c : List Byte), (s.commandAt id 5 1 = some (j, c)) ∧ (s.get F.COLL_CTRL_enable = 1) ∧ (s.coll.building = none) ∧ (s.planOpen j = false) ∧ (¬(fieldAt c 1 1 < 2 ∧ ((List.drop 2 c).all fun (x : Byte) => x == 0#8) = true)))
    ∧ (∃ (id : JobId) (s : State) (j : Job) (c : List Byte), (s.commandAt id 5 1 = some (j, c)) ∧ (s.get F.COLL_CTRL_enable = 1) ∧ (s.coll.building = none) ∧ (s.planOpen j = false) ∧ (fieldAt c 1 1 < 2 ∧ ((List.drop 2 c).all fun (x : Byte) => x == 0#8) = true) ∧ (s.coll.current = some (fieldAt c 1 1) ∨ fieldAt c 1 1 ∈ s.coll.inUse))
    ∧ (∃ (id : JobId) (s : State) (j : Job) (c : List Byte), (s.commandAt id 5 1 = some (j, c)) ∧ (s.get F.COLL_CTRL_enable = 1) ∧ (s.coll.building = none) ∧ (s.planOpen j = false) ∧ (fieldAt c 1 1 < 2 ∧ ((List.drop 2 c).all fun (x : Byte) => x == 0#8) = true) ∧ (s.coll.current ≠ some (fieldAt c 1 1)) ∧ (fieldAt c 1 1 ∉ s.coll.inUse) ∧ (s.plainMem (s.wsAt (fieldAt c 1 1)) 256 = true) ∧ (wsHeadOk (s.bytes (s.wsAt (fieldAt c 1 1)) 256) = true))
    ∧ (∃ (id : JobId) (s : State) (j : Job) (c : List Byte), (s.commandAt id 5 1 = some (j, c)) ∧ (s.get F.COLL_CTRL_enable = 1) ∧ (s.coll.building = none) ∧ (s.planOpen j = false) ∧ (fieldAt c 1 1 < 2 ∧ ((List.drop 2 c).all fun (x : Byte) => x == 0#8) = true) ∧ (s.coll.current ≠ some (fieldAt c 1 1)) ∧ (fieldAt c 1 1 ∉ s.coll.inUse) ∧ (s.plainMem (s.wsAt (fieldAt c 1 1)) 256 = true) ∧ (wsHeadOk (s.bytes (s.wsAt (fieldAt c 1 1)) 256) = false))
    ∧ (∃ (j : Job) (b : ℕ) (cause : ℕ) (s : State), (b < 2) ∧ (cause < 8))
    ∧ (∃ (s : State), (s.coll.building = none))
    ∧ (∃ (s : State) (b : ℕ) (q : ℕ) (i : ℕ), (s.coll.building = some (b, q, i)) ∧ (b < 2)) :=
  ⟨⟨(wAcc 1), wCollOn, (wCollWr wCollOn 1).1, (wCollWr wCollOn 1).2, by decide +kernel⟩,
    ⟨(wAcc 1), wCollOff, (wCollWr wCollOff 1).1, (wCollWr wCollOff 1).2, by decide +kernel⟩,
    ⟨(wAcc 1), wCollBad, (wCollWr wCollBad 1).1, (wCollWr wCollBad 1).2, by decide +kernel⟩,
    ⟨(wAcc 0), wCollOn, (wCollWr wCollOn 0).1, (wCollWr wCollOn 0).2, by decide +kernel⟩,
    ⟨wId, (wColl [1#8, 1#8] (wWs 0)).put F.COLL_CTRL_enable 0, wCJob, (wCmd5 [1#8, 1#8]), by decide +kernel⟩,
    ⟨wId, (wColl [1#8, 2#8] []), wCJob, (wCmd5 [1#8, 2#8]), by decide +kernel⟩,
    ⟨wId, { wColl [1#8, 1#8] [] with coll := { (wColl [1#8, 1#8] []).coll with inUse := [1] } }, wCJob, (wCmd5 [1#8, 1#8]), by decide +kernel⟩,
    ⟨wId, (wColl [1#8, 1#8] (wWs 0)), wCJob, (wCmd5 [1#8, 1#8]), by decide +kernel⟩,
    ⟨wId, (wColl [1#8, 1#8] []), wCJob, (wCmd5 [1#8, 1#8]), by decide +kernel⟩,
    ⟨wCJob, 1, 5, (wColl [1#8, 1#8] []), by decide +kernel⟩,
    ⟨wCollOn, by decide +kernel⟩,
    ⟨wBuild1, 1, 0x400, 0, by decide +kernel⟩⟩

theorem test_meets_Collision_2 :
    (∃ (s : State) (b : ℕ) (q : ℕ) (i : ℕ) (c : ℕ) (j : Job), (s.coll.building = some (b, q, i)) ∧ (b < 2) ∧ (s.buildCause b = some c) ∧ (s.job q i = some j))
    ∧ (∃ (s : State) (b : ℕ) (q : ℕ) (i : ℕ) (c : ℕ), (s.coll.building = some (b, q, i)) ∧ (b < 2) ∧ (s.buildCause b = some c) ∧ (s.job q i = none))
    ∧ (∃ (s : State) (b : ℕ) (q : ℕ) (i : ℕ), (s.coll.building = some (b, q, i)) ∧ (b < 2) ∧ (s.buildCause b = none) ∧ (s.replaying = true) ∧ ((s.replayTurn fun (r : JRec) => decide (r.kind = 11 ∧ r.src = b)) = false))
    ∧ (∃ (s : State) (b : ℕ) (q : ℕ) (i : ℕ), (s.coll.building = some (b, q, i)) ∧ (b < 2) ∧ (s.buildCause b = none) ∧ (s.replaying = false ∨ (s.replayTurn fun (r : JRec) => decide (r.kind = 11 ∧ r.src = b)) = true))
    ∧ (∃ (s : State), ((s.coll.inUse.all fun (b : ℕ) => !(fun (b : ℕ) => decide (s.coll.current ≠ some b) && !s.bufUsed b) b) = true))
    ∧ (∃ (s : State) (b : ℕ), (List.find? (fun (b : ℕ) => decide (s.coll.current ≠ some b) && !s.bufUsed b) s.coll.inUse = some b))
    ∧ (∃ (s : State) (b : ℕ), (List.find? (fun (b : ℕ) => decide (s.coll.current ≠ some b) && !s.bufUsed b) s.coll.inUse = some b) ∧ (b < 2))
    ∧ (∃ (u : Fin 6) (s : State), (List.find? (unitPort ↑u) s.coll.waiting = none ∨ s.get F.COLL_CTRL_enable = 0 ∨ tabFind s.coll.running ↑u ≠ none))
    ∧ (∃ (u : Fin 6) (s : State) (p : ℕ), (List.find? (unitPort ↑u) s.coll.waiting = some p) ∧ (s.get F.COLL_CTRL_enable = 1) ∧ (tabFind s.coll.running ↑u = none))
    ∧ (∃ (u : Fin 6) (s : State) (ns : ℕ), (tabFind s.coll.running ↑u = none))
    ∧ (∃ (u : Fin 6) (s : State) (ns : ℕ) (q : RfxRun), (tabFind s.coll.running ↑u = some q)) :=
  ⟨⟨(wBuild (wLeafN 0)), 1, 0x400, 0, 4, wCJob, by decide +kernel⟩,
    ⟨{ wBuild (wLeafN 0) with jobs := [] }, 1, 0x400, 0, 4, by decide +kernel⟩,
    ⟨(wInRep wBuild1 8 wPubRec), 1, 0x400, 0, by decide +kernel⟩,
    ⟨wBuild1, 1, 0x400, 0, by decide +kernel⟩,
    ⟨wCollOn, by decide +kernel⟩,
    ⟨wRetire, 0, by decide +kernel⟩,
    ⟨wRetire, 0, by decide +kernel⟩,
    ⟨(0 : Fin 6), wCollOn, by decide +kernel⟩,
    ⟨(0 : Fin 6), (wRfx [9, 0] []), 0, by decide +kernel⟩,
    ⟨(0 : Fin 6), wCollOn, 170, by decide +kernel⟩,
    ⟨(0 : Fin 6), (wRfx [] [(0, ⟨0, 4, some 1⟩)]), 170, ⟨0, 4, some 1⟩, by decide +kernel⟩⟩

theorem test_meets_Planning_1 :
    (∃ (acc : Sys2Proof.Acc) (s : State) (s2 : State) (w : Word) (c : Instr), (s.written pgPLAN 32 acc = some (s2, w)) ∧ (c = Instr.planEnable acc ∨ c = Instr.planResume acc) ∧ (BitVec.getLsbD w 0 = true) ∧ (s2.get F.PLAN_CTRL_enable = 1))
    ∧ (∃ (acc : Sys2Proof.Acc) (s : State) (s2 : State) (w : Word) (c : Instr), (s.written pgPLAN 32 acc = some (s2, w)) ∧ (c = Instr.planEnable acc ∨ c = Instr.planResume acc) ∧ (BitVec.getLsbD w 0 = true) ∧ (s2.get F.PLAN_CTRL_enable = 0) ∧ (s2.planBaseOk = true))
    ∧ (∃ (acc : Sys2Proof.Acc) (s : State) (s2 : State) (w : Word) (c : Instr), (s.written pgPLAN 32 acc = some (s2, w)) ∧ (c = Instr.planEnable acc ∨ c = Instr.planResume acc) ∧ (BitVec.getLsbD w 0 = true) ∧ (s2.get F.PLAN_CTRL_enable = 0) ∧ (s2.planBaseOk = true) ∧ (s2.cond = []) ∧ (s2.spilled = []))
    ∧ (∃ (acc : Sys2Proof.Acc) (s : State) (s2 : State) (w : Word) (c : Instr), (s.written pgPLAN 32 acc = some (s2, w)) ∧ (c = Instr.planEnable acc ∨ c = Instr.planResume acc) ∧ (BitVec.getLsbD w 0 = true) ∧ (s2.get F.PLAN_CTRL_enable = 0) ∧ (s2.planBaseOk = false))
    ∧ (∃ (acc : Sys2Proof.Acc) (s : State) (s2 : State) (w : Word) (c : Instr), (s.written pgPLAN 32 acc = some (s2, w)) ∧ (c = Instr.planEnable acc ∨ c = Instr.planResume acc) ∧ (BitVec.getLsbD w 0 = false))
    ∧ (∃ (id : JobId) (s : State) (j : Job) (c : List Byte), (s.commandAt id 5 2 = some (j, c)) ∧ (s.get F.PLAN_CTRL_enable = 0 ∨ s.planOpen j = true ∨ s.plan.loading ≠ none))
    ∧ (∃ (id : JobId) (s : State) (j : Job) (c : List Byte), (s.commandAt id 5 2 = some (j, c)) ∧ (s.get F.PLAN_CTRL_enable = 1) ∧ (s.planOpen j = false) ∧ (s.plan.loading = none))
    ∧ (∃ (id : JobId) (s : State) (j : Job) (c : List Byte) (op : ℕ), (op ≠ 1) ∧ (op ≠ 2) ∧ (s.commandAt id 5 op = some (j, c)) ∧ (s.get F.PLAN_CTRL_enable = 0))
    ∧ (∃ (id : JobId) (s : State) (j : Job) (c : List Byte) (op : ℕ), (op ≠ 1) ∧ (op ≠ 2) ∧ (s.commandAt id 5 op = some (j, c)) ∧ (s.get F.PLAN_CTRL_enable = 1) ∧ (s.get F.PLAN_STATUS_state = 3))
    ∧ (∃ (id : JobId) (s : State) (j : Job) (c : List Byte) (op : ℕ), (op ≠ 1) ∧ (op ≠ 2) ∧ (s.commandAt id 5 op = some (j, c)) ∧ (s.get F.PLAN_CTRL_enable = 1) ∧ (s.get F.PLAN_STATUS_state ≠ 3) ∧ (op ≠ 3 ∨ s.planFieldsOk c = false))
    ∧ (∃ (id : JobId) (s : State) (j : Job) (c : List Byte) (op : ℕ), (op ≠ 1) ∧ (op ≠ 2) ∧ (s.commandAt id 5 op = some (j, c)) ∧ (s.get F.PLAN_CTRL_enable = 1) ∧ (s.get F.PLAN_STATUS_state ≠ 3) ∧ (op = 3) ∧ (s.planFieldsOk c = true) ∧ (s.planStopsOk (tabGet s.plan.maps (fieldAt c 2 1) 0) (fieldAt c 16 8) (fieldAt c 24 2) = false))
    ∧ (∃ (id : JobId) (s : State) (j : Job) (c : List Byte) (op : ℕ), (op ≠ 1) ∧ (op ≠ 2) ∧ (s.commandAt id 5 op = some (j, c)) ∧ (s.get F.PLAN_CTRL_enable = 1) ∧ (s.get F.PLAN_STATUS_state ≠ 3) ∧ (op = 3) ∧ (s.planFieldsOk c = true) ∧ (s.planStopsOk (tabGet s.plan.maps (fieldAt c 2 1) 0) (fieldAt c 16 8) (fieldAt c 24 2) = true)) :=
  ⟨⟨(wAcc 1), wPlanOn, (wPlanWr wPlanOn 1).1, (wPlanWr wPlanOn 1).2, (.planEnable (wAcc 1)), by decide +kernel⟩,
    ⟨(wAcc 3), (wPlanOff.put F.PLAN_STATUS_state 3), (wPlanWr (wPlanOff.put F.PLAN_STATUS_state 3) 3).1, (wPlanWr (wPlanOff.put F.PLAN_STATUS_state 3) 3).2, (.planResume (wAcc 3)), by decide +kernel⟩,
    ⟨(wAcc 1), wPlanOff, (wPlanWr wPlanOff 1).1, (wPlanWr wPlanOff 1).2, (.planEnable (wAcc 1)), by decide +kernel⟩,
    ⟨(wAcc 1), wPlanBad, (wPlanWr wPlanBad 1).1, (wPlanWr wPlanBad 1).2, (.planEnable (wAcc 1)), by decide +kernel⟩,
    ⟨(wAcc 0), wPlanOn, (wPlanWr wPlanOn 0).1, (wPlanWr wPlanOn 0).2, (.planEnable (wAcc 0)), by decide +kernel⟩,
    ⟨wId, (wLoading wLoadB), wCJob, (wCmd5 wLoadB), by decide +kernel⟩,
    ⟨wId, (wPlanS wLoadB), wCJob, (wCmd5 wLoadB), by decide +kernel⟩,
    ⟨wId, (wPlanS (wPlanB 50)).put F.PLAN_CTRL_enable 0, wCJob, (wCmd5 (wPlanB 50)), 3, by decide +kernel⟩,
    ⟨wId, (wPlanS (wPlanB 50)).put F.PLAN_STATUS_state 3, wCJob, (wCmd5 (wPlanB 50)), 3, by decide +kernel⟩,
    ⟨wId, (wPlanS (wPlanB 0)), wCJob, (wCmd5 (wPlanB 0)), 3, by decide +kernel⟩,
    ⟨wId, { wPlanS (wPlanB 50) with mem := cellWrite (wPlanS (wPlanB 50)).mem (hubBase + 0x3300000) (leBytes 2 0) }, wCJob, (wCmd5 (wPlanB 50)), 3, by decide +kernel⟩,
    ⟨wId, (wPlanS (wPlanB 50)), wCJob, (wCmd5 (wPlanB 50)), 3, by decide +kernel⟩⟩

theorem test_meets_Planning_2 :
    (∃ (id : JobId) (s : State) (j : Job) (c : List Byte) (cause : ℕ), (cause < 16))
    ∧ (∃ (id : JobId) (s : State) (j : Job) (c : List Byte) (k : Job), (s.job j.queue j.index = some k) ∧ (s.planOpen k = true ∨ k.stage ≠ Stage.placed ∨ k.busy = true ∨ k.cmd < k.listCount ∧ k.stopping = false))
    ∧ (∃ (id : JobId) (s : State) (j : Job) (c : List Byte) (k : Job), (s.job j.queue j.index = some k) ∧ (s.planOpen k = false) ∧ (k.stage = Stage.placed) ∧ (k.busy = false) ∧ (k.listCount ≤ k.cmd))
    ∧ (∃ (id : JobId) (s : State) (j : Job) (c : List Byte) (k : Job), (s.job j.queue j.index = some k) ∧ (s.planOpen k = false) ∧ (k.stage = Stage.placed) ∧ (k.busy = false) ∧ (k.cmd < k.listCount) ∧ (k.stopping = true))
    ∧ (∃ (id : JobId) (s : State) (j : Job), (s.jobOf id = some j) ∧ (s.plan.loading ≠ some (j.queue, j.index)))
    ∧ (∃ (id : JobId) (s : State), (s.jobOf id = none))
    ∧ (∃ (id : JobId) (s : State) (j : Job), (s.jobOf id = some j) ∧ (s.plan.loading = some (j.queue, j.index)) ∧ (s.plainMem (j.program + 32 + listBytes j.cls * j.cmd) (listBytes j.cls) = true) ∧ ((s.plan.queries.any fun (q : PlanQ) => decide (q.rm = fieldAt (s.bytes (j.program + 32 + listBytes j.cls * j.cmd) (listBytes j.cls)) 1 1)) = true))
    ∧ (∃ (id : JobId) (s : State) (j : Job), (s.jobOf id = some j) ∧ (s.plan.loading = some (j.queue, j.index)) ∧ (s.plainMem (j.program + 32 + listBytes j.cls * j.cmd) (listBytes j.cls) = true) ∧ ((s.plan.queries.any fun (q : PlanQ) => decide (q.rm = fieldAt (s.bytes (j.program + 32 + listBytes j.cls * j.cmd) (listBytes j.cls)) 1 1)) = false) ∧ (¬(fieldAt (s.bytes (j.program + 32 + listBytes j.cls * j.cmd) (listBytes j.cls)) 1 1 < 2 ∧ ((bytesAt (s.bytes (j.program + 32 + listBytes j.cls * j.cmd) (listBytes j.cls)) 2 6).all fun (x : Byte) => x == 0#8) = true ∧ ((List.drop 16 (s.bytes (j.program + 32 + listBytes j.cls * j.cmd) (listBytes j.cls))).all fun (x : Byte) => x == 0#8) = true)))
    ∧ (∃ (id : JobId) (s : State) (j : Job) (i : ℕ), (s.jobOf id = some j) ∧ (s.plan.loading = some (j.queue, j.index)) ∧ (s.plainMem (j.program + 32 + listBytes j.cls * j.cmd) (listBytes j.cls) = true) ∧ ((s.plan.queries.any fun (q : PlanQ) => decide (q.rm = fieldAt (s.bytes (j.program + 32 + listBytes j.cls * j.cmd) (listBytes j.cls)) 1 1)) = false) ∧ (fieldAt (s.bytes (j.program + 32 + listBytes j.cls * j.cmd) (listBytes j.cls)) 1 1 < 2 ∧ ((bytesAt (s.bytes (j.program + 32 + listBytes j.cls * j.cmd) (listBytes j.cls)) 2 6).all fun (x : Byte) => x == 0#8) = true ∧ ((List.drop 16 (s.bytes (j.program + 32 + listBytes j.cls * j.cmd) (listBytes j.cls))).all fun (x : Byte) => x == 0#8) = true) ∧ (s.rmFault (fieldAt (s.bytes (j.program + 32 + listBytes j.cls * j.cmd) (listBytes j.cls)) 8 8) = some i))
    ∧ (∃ (id : JobId) (s : State) (j : Job), (s.jobOf id = some j) ∧ (s.plan.loading = some (j.queue, j.index)) ∧ (s.plainMem (j.program + 32 + listBytes j.cls * j.cmd) (listBytes j.cls) = true) ∧ ((s.plan.queries.any fun (q : PlanQ) => decide (q.rm = fieldAt (s.bytes (j.program + 32 + listBytes j.cls * j.cmd) (listBytes j.cls)) 1 1)) = false) ∧ (fieldAt (s.bytes (j.program + 32 + listBytes j.cls * j.cmd) (listBytes j.cls)) 1 1 < 2 ∧ ((bytesAt (s.bytes (j.program + 32 + listBytes j.cls * j.cmd) (listBytes j.cls)) 2 6).all fun (x : Byte) => x == 0#8) = true ∧ ((List.drop 16 (s.bytes (j.program + 32 + listBytes j.cls * j.cmd) (listBytes j.cls))).all fun (x : Byte) => x == 0#8) = true) ∧ (s.rmFault (fieldAt (s.bytes (j.program + 32 + listBytes j.cls * j.cmd) (listBytes j.cls)) 8 8) = none))
    ∧ (∃ (id : JobId) (s : State) (j : Job) (cause : ℕ) (index : ℕ) (bad : Bool), (cause < 16))
    ∧ (∃ (slot : Fin 64) (ns : ℕ) (s : State), (Option.all (fun (q : PlanQ) => decide (q.slot ≠ ↑slot)) (List.find? (fun (q : PlanQ) => decide (q.phase = PlanPhase.waiting)) s.plan.queries) = true)) :=
  ⟨⟨wId, (wPlanS (wPlanB 50)), wCJob, (wCmd5 (wPlanB 50)), 4, by decide +kernel⟩,
    ⟨wId, (wPlanS (wPlanB 50)), wCJob, (wCmd5 (wPlanB 50)), wCJob, by decide +kernel⟩,
    ⟨wId, (wPlanJ { wCJob with cmd := 2 }), wCJob, (wCmd5 (wPlanB 50)), { wCJob with cmd := 2 }, by decide +kernel⟩,
    ⟨wId, (wPlanJ { wCJob with stopping := true }), wCJob, (wCmd5 (wPlanB 50)), { wCJob with stopping := true }, by decide +kernel⟩,
    ⟨wId, (wPlanS wLoadB), wCJob, by decide +kernel⟩,
    ⟨wId, wPlanOn, by decide +kernel⟩,
    ⟨wId, { wLoading wLoadB with plan := { (wLoading wLoadB).plan with queries := [{ wPq with rm := 1 }] } }, wCJob, by decide +kernel⟩,
    ⟨wId, (wLoading (wLoadB ++ [1#8])), wCJob, by decide +kernel⟩,
    ⟨wId, { wLoading wLoadB with mem := cellSet (wLoading wLoadB).mem wRmA 1#8 }, wCJob, 0, by decide +kernel⟩,
    ⟨wId, (wLoading wLoadB), wCJob, by decide +kernel⟩,
    ⟨wId, (wLoading wLoadB), wCJob, 1, 5, true, by decide +kernel⟩,
    ⟨(5 : Fin 64), 7, wPlanOn, by decide +kernel⟩⟩

theorem test_meets_Planning_3 :
    (∃ (slot : Fin 64) (ns : ℕ) (s : State) (q : PlanQ), (List.find? (fun (q : PlanQ) => decide (q.phase = PlanPhase.waiting)) s.plan.queries = some q) ∧ (q.slot = ↑slot) ∧ (((List.filter (fun (h : ℕ) => !s.planHalves.contains h) [0, 1]).length < if 8192 < s.rmEdges (s.planMap q) then 2 else 1) ∨ s.epochDue q 8 = false))
    ∧ (∃ (slot : Fin 64) (ns : ℕ) (s : State) (q : PlanQ), (List.find? (fun (q : PlanQ) => decide (q.phase = PlanPhase.waiting)) s.plan.queries = some q) ∧ (q.slot = ↑slot) ∧ ((if 8192 < s.rmEdges (s.planMap q) then 2 else 1) ≤ (List.filter (fun (h : ℕ) => !s.planHalves.contains h) [0, 1]).length) ∧ (s.epochDue q 8 = true))
    ∧ (∃ (slot : Fin 64) (ns : ℕ) (s : State), ((s.plan.tails.any fun (t : ℕ × List ℕ × Option ℕ) => decide (t.1 = ↑slot)) = true))
    ∧ (∃ (slot : Fin 64) (ns : ℕ) (s : State), ((s.plan.tails.any fun (t : ℕ × List ℕ × Option ℕ) => decide (t.1 = ↑slot)) = false) ∧ (List.find? (fun (q : PlanQ) => decide (q.slot = ↑slot ∧ q.phase = PlanPhase.sweeping)) s.plan.queries = none))
    ∧ (∃ (slot : Fin 64) (ns : ℕ) (s : State) (q : PlanQ), ((s.plan.tails.any fun (t : ℕ × List ℕ × Option ℕ) => decide (t.1 = ↑slot)) = false) ∧ (List.find? (fun (q : PlanQ) => decide (q.slot = ↑slot ∧ q.phase = PlanPhase.sweeping)) s.plan.queries = some q))
    ∧ (∃ (slot : Fin 64) (bad : Bool) (s : State), (s.planOldest ↑slot = none))
    ∧ (∃ (slot : Fin 64) (bad : Bool) (s : State) (q : PlanQ), (s.planOldest ↑slot = some q) ∧ (s.replaying = false ∨ Option.any (fun (b : List Byte) => fieldAt b 2 1 == 9 && fieldAt b 1 1 == q.epochs.length) (s.planRecord q) = true))
    ∧ (∃ (slot : Fin 64) (bad : Bool) (s : State) (q : PlanQ), (s.planOldest ↑slot = some q) ∧ (¬(s.replaying = false ∨ Option.any (fun (b : List Byte) => fieldAt b 2 1 == 9 && fieldAt b 1 1 == q.epochs.length) (s.planRecord q) = true)))
    ∧ (∃ (slot : Fin 64) (bad : Bool) (s : State) (q : PlanQ), (s.planOldest ↑slot = some q) ∧ (q.phase ≠ PlanPhase.selecting))
    ∧ (∃ (slot : Fin 64) (bad : Bool) (s : State) (q : PlanQ), (s.planOldest ↑slot = some q) ∧ (q.phase ≠ PlanPhase.checking))
    ∧ (∃ (slot : Fin 64) (bad : Bool) (s : State) (q : PlanQ), (s.planOldest ↑slot = some q) ∧ (q.phase = PlanPhase.selecting) ∧ (bad = true))
    ∧ (∃ (slot : Fin 64) (bad : Bool) (s : State) (q : PlanQ), (s.planOldest ↑slot = some q) ∧ (q.phase = PlanPhase.selecting) ∧ (bad = false) ∧ (s.poisonedAt q.cost (4 * q.edges.length) = true)) :=
  ⟨⟨(5 : Fin 64), 7, { wPlanQs wPq with plan := { (wPlanQs wPq).plan with tails := [(5, [0, 1], none)] } }, wPq, by decide +kernel⟩,
    ⟨(5 : Fin 64), 7, (wPlanQs wPq), wPq, by decide +kernel⟩,
    ⟨(5 : Fin 64), 7, wPlanTail, by decide +kernel⟩,
    ⟨(5 : Fin 64), 7, wPlanOn, by decide +kernel⟩,
    ⟨(5 : Fin 64), 7, (wPlanQs wPqSweep), wPqSweep, by decide +kernel⟩,
    ⟨(5 : Fin 64), false, wPlanOn, by decide +kernel⟩,
    ⟨(5 : Fin 64), false, (wPlanQs wPq), wPq, by decide +kernel⟩,
    ⟨(5 : Fin 64), false, (wInRep (wPlanQs wPq) 7 (wPlanDec 9 3)), wPq, by decide +kernel⟩,
    ⟨(5 : Fin 64), false, (wPlanQs wPq), wPq, by decide +kernel⟩,
    ⟨(5 : Fin 64), false, (wPlanQs wPq), wPq, by decide +kernel⟩,
    ⟨(5 : Fin 64), true, (wPlanQs (wPqSel 0)), (wPqSel 0), by decide +kernel⟩,
    ⟨(5 : Fin 64), false, (wPlanCost (wPqSel 0) (hubBase + 0x3400000)), (wPqSel 0), by decide +kernel⟩⟩

theorem test_meets_Planning_4 :
    (∃ (slot : Fin 64) (bad : Bool) (s : State) (q : PlanQ), (s.planOldest ↑slot = some q) ∧ (q.phase = PlanPhase.selecting) ∧ (bad = false) ∧ (s.poisonedAt q.cost (4 * q.edges.length) = false) ∧ (s.selectPaths q = []))
    ∧ (∃ (slot : Fin 64) (bad : Bool) (s : State) (q : PlanQ), (s.planOldest ↑slot = some q) ∧ (q.phase = PlanPhase.selecting) ∧ (bad = false) ∧ (s.poisonedAt q.cost (4 * q.edges.length) = false) ∧ (s.selectPaths q ≠ []))
    ∧ (∃ (slot : Fin 64) (bad : Bool) (s : State) (q : PlanQ), (s.planOldest ↑slot = some q) ∧ (q.phase = PlanPhase.checking) ∧ (q.attempt = none))
    ∧ (∃ (slot : Fin 64) (bad : Bool) (s : State) (q : PlanQ) (e : ℕ) (b : Option ℕ), (s.planOldest ↑slot = some q) ∧ (q.phase = PlanPhase.checking) ∧ (q.attempt = some (e, b)) ∧ (bad = true))
    ∧ (∃ (slot : Fin 64) (bad : Bool) (s : State) (q : PlanQ) (e : ℕ) (b : Option ℕ), (s.planOldest ↑slot = some q) ∧ (q.phase = PlanPhase.checking) ∧ (q.attempt = some (e, b)) ∧ (bad = false) ∧ (s.poisonedAt (s.stopOf q (q.path q.epochs.length).2) 2048 = true))
    ∧ (∃ (slot : Fin 64) (bad : Bool) (s : State) (q : PlanQ) (e : ℕ) (b : Option ℕ), (s.planOldest ↑slot = some q) ∧ (q.phase = PlanPhase.checking) ∧ (q.attempt = some (e, b)) ∧ (bad = false) ∧ (s.poisonedAt (s.stopOf q (q.path q.epochs.length).2) 2048 = false) ∧ ((s.attemptChecks q e b (q.path q.epochs.length).2).all Rfx.clear = true))
    ∧ (∃ (slot : Fin 64) (bad : Bool) (s : State) (q : PlanQ) (e : ℕ) (b : Option ℕ), (s.planOldest ↑slot = some q) ∧ (q.phase = PlanPhase.checking) ∧ (q.attempt = some (e, b)) ∧ (bad = false) ∧ (s.poisonedAt (s.stopOf q (q.path q.epochs.length).2) 2048 = false) ∧ ((s.attemptChecks q e b (q.path q.epochs.length).2).all Rfx.clear = false) ∧ (q.epochs.length + 1 < q.paths.length))
    ∧ (∃ (slot : Fin 64) (bad : Bool) (s : State) (q : PlanQ) (e : ℕ) (b : Option ℕ), (s.planOldest ↑slot = some q) ∧ (q.phase = PlanPhase.checking) ∧ (q.attempt = some (e, b)) ∧ (bad = false) ∧ (s.poisonedAt (s.stopOf q (q.path q.epochs.length).2) 2048 = false) ∧ ((s.attemptChecks q e b (q.path q.epochs.length).2).all Rfx.clear = false) ∧ (q.paths.length ≤ q.epochs.length + 1))
    ∧ (∃ (slot : Fin 64) (bad : Bool) (s : State) (q : PlanQ), (s.planOldest ↑slot = some q))
    ∧ (∃ (slot : Fin 64) (bad : Bool) (s : State) (q : PlanQ), (s.planOldest ↑slot = some q))
    ∧ (∃ (q : PlanQ) (how : PlanEnd) (outcome : ℕ) (flags : ℕ) (kept : List Byte) (s : State), (s.plainStore (s.planAt q.slot q.number) 4096 = true) ∧ (kept.length = 2304 - 12))
    ∧ (∃ (q : PlanQ) (how : PlanEnd) (outcome : ℕ) (flags : ℕ) (kept : List Byte) (s : State), (s.plainStore (s.planAt q.slot q.number) 4096 = true)) :=
  ⟨⟨(5 : Fin 64), false, (wPlanQs (wPqSel 1)), (wPqSel 1), by decide +kernel⟩,
    ⟨(5 : Fin 64), false, (wPlanQs (wPqSel 0)), (wPqSel 0), by decide +kernel⟩,
    ⟨(5 : Fin 64), false, (wPlanQs { wPqChk 1 with attempt := none }), { wPqChk 1 with attempt := none }, by decide +kernel⟩,
    ⟨(5 : Fin 64), true, (wPlanQs (wPqChk 1)), (wPqChk 1), 1, some 1, by decide +kernel⟩,
    ⟨(5 : Fin 64), false, (wPlanCost (wPqChk 1) (hubBase + 0x3300000)), (wPqChk 1), 1, some 1, by decide +kernel⟩,
    ⟨(5 : Fin 64), false, (wPlanQs (wPqChk 1)), (wPqChk 1), 1, some 1, by decide +kernel⟩,
    ⟨(5 : Fin 64), false, (wPlanQs (wPqChk 0)), (wPqChk 0), 0, some 1, by decide +kernel⟩,
    ⟨(5 : Fin 64), false, (wPlanQs { wPqChk 0 with epochs := [1] }), { wPqChk 0 with epochs := [1] }, 0, some 1, by decide +kernel⟩,
    ⟨(5 : Fin 64), false, (wPlanQs (wPqChk 0)), (wPqChk 0), by decide +kernel⟩,
    ⟨(5 : Fin 64), false, (wPlanQs (wPqChk 0)), (wPqChk 0), by decide +kernel⟩,
    ⟨wPq, .passed, 0, 1, (List.replicate 2292 1#8), (wPlanQs wPq), by decide +kernel⟩,
    ⟨wPqSweep, .noPath, 8, 10, [], (wPlanQs wPqSweep), by decide +kernel⟩⟩

theorem test_meets_Planning_5 :
    (∃ (q : PlanQ) (how : PlanEnd) (outcome : ℕ) (flags : ℕ) (kept : List Byte) (s : State) (p : ℕ × ℕ), (p ∈ [(Ev.PLAN_kept, 1), (Ev.PLAN_epoch_advanced, 2), (Ev.PLAN_no_path, 3), (Ev.PLAN_uncorrectable, 5)]))
    ∧ (∃ (q : PlanQ) (how : PlanEnd) (outcome : ℕ) (flags : ℕ) (kept : List Byte) (s : State) (digest : ℕ) (stop : List Byte), ((s.get F.PLAN_ISLAND_LO_slots + 2 ^ 32 * s.get F.PLAN_ISLAND_HI_slots).testBit q.slot = false))
    ∧ (∃ (q : PlanQ) (how : PlanEnd) (outcome : ℕ) (flags : ℕ) (kept : List Byte) (s : State) (digest : ℕ) (stop : List Byte), ((s.get F.PLAN_ISLAND_LO_slots + 2 ^ 32 * s.get F.PLAN_ISLAND_HI_slots).testBit q.slot = true)) :=
  ⟨⟨wPq, .noPath, 8, 38, [], (wPlanQs wPq), (Ev.PLAN_kept, 1), by decide +kernel⟩,
    ⟨wPq, .noPath, 8, 38, [], (wPlanQs wPq), 5, [], by decide +kernel⟩,
    ⟨wPq, .noPath, 8, 38, [], wPlanTold, 5, [], by decide +kernel⟩⟩

theorem test_meets_Journal_1 :
    (∃ (acc : Sys2Proof.Acc) (s : State) (s2 : State) (w : Word) (c : Instr), (s.written pgJRN 32 acc = some (s2, w)) ∧ (c ∈ [Instr.record acc, Instr.replay acc, Instr.jrnOff acc, Instr.segment acc, Instr.jrnStop acc]) ∧ (F.JRN_CTRL_mode.ext w = 0) ∧ (s2.get F.JRN_CTRL_mode = 0))
    ∧ (∃ (acc : Sys2Proof.Acc) (s : State) (s2 : State) (w : Word) (c : Instr), (s.written pgJRN 32 acc = some (s2, w)) ∧ (c ∈ [Instr.record acc, Instr.replay acc, Instr.jrnOff acc, Instr.segment acc, Instr.jrnStop acc]) ∧ (F.JRN_CTRL_mode.ext w = 0) ∧ (s2.get F.JRN_CTRL_mode ≠ 0) ∧ (s2.recording = true))
    ∧ (∃ (acc : Sys2Proof.Acc) (s : State) (s2 : State) (w : Word) (c : Instr), (s.written pgJRN 32 acc = some (s2, w)) ∧ (c ∈ [Instr.record acc, Instr.replay acc, Instr.jrnOff acc, Instr.segment acc, Instr.jrnStop acc]) ∧ (F.JRN_CTRL_mode.ext w = 0) ∧ (s2.get F.JRN_CTRL_mode ≠ 0) ∧ (s2.recording = false))
    ∧ (∃ (acc : Sys2Proof.Acc) (s : State) (s2 : State) (w : Word) (c : Instr), (s.written pgJRN 32 acc = some (s2, w)) ∧ (c ∈ [Instr.record acc, Instr.replay acc, Instr.jrnOff acc, Instr.segment acc, Instr.jrnStop acc]) ∧ (F.JRN_CTRL_mode.ext w ≠ 0) ∧ (s2.get F.JRN_CTRL_mode ≠ 0 ∨ 2 < F.JRN_CTRL_mode.ext w))
    ∧ (∃ (acc : Sys2Proof.Acc) (s : State) (s2 : State) (w : Word) (c : Instr), (s.written pgJRN 32 acc = some (s2, w)) ∧ (c ∈ [Instr.record acc, Instr.replay acc, Instr.jrnOff acc, Instr.segment acc, Instr.jrnStop acc]) ∧ (F.JRN_CTRL_mode.ext w = 1 ∨ F.JRN_CTRL_mode.ext w = 2) ∧ (s2.get F.JRN_CTRL_mode = 0) ∧ (s2.jrnCfgOk = false))
    ∧ (∃ (acc : Sys2Proof.Acc) (s : State) (s2 : State) (w : Word) (c : Instr), (s.written pgJRN 32 acc = some (s2, w)) ∧ (c ∈ [Instr.record acc, Instr.replay acc, Instr.jrnOff acc, Instr.segment acc, Instr.jrnStop acc]) ∧ (F.JRN_CTRL_mode.ext w = 1) ∧ (s2.get F.JRN_CTRL_mode = 0) ∧ (s2.jrnCfgOk = true))
    ∧ (∃ (acc : Sys2Proof.Acc) (s : State) (s2 : State) (w : Word) (c : Instr), (s.written pgJRN 32 acc = some (s2, w)) ∧ (c ∈ [Instr.record acc, Instr.replay acc, Instr.jrnOff acc, Instr.segment acc, Instr.jrnStop acc]) ∧ (F.JRN_CTRL_mode.ext w = 2) ∧ (s2.get F.JRN_CTRL_mode = 0) ∧ (s2.jrnCfgOk = true))
    ∧ (∃ (s : State) (cause : ℕ), (s.replaying = false))
    ∧ (∃ (s : State) (cause : ℕ), (cause < 16) ∧ (s.replaying = true))
    ∧ (∃ (s : State) (cause : ℕ), (cause < 16))
    ∧ (∃ (s : State), (s.jrn.openData = none))
    ∧ (∃ (s : State) (n : ℕ) (a : ℕ) (bs : List Byte), (s.jrn.openData = some (n, a, bs))) :=
  ⟨⟨(wAcc 16), wJrnCfg, (wJrnWr wJrnCfg 16).1, (wJrnWr wJrnCfg 16).2, (.segment (wAcc 16)), by decide +kernel⟩,
    ⟨(wAcc 0), (wJrn 1 1), (wJrnWr (wJrn 1 1) 0).1, (wJrnWr (wJrn 1 1) 0).2, (.jrnOff (wAcc 0)), by decide +kernel⟩,
    ⟨(wAcc 0), (wJrn 2 3), (wJrnWr (wJrn 2 3) 0).1, (wJrnWr (wJrn 2 3) 0).2, (.jrnOff (wAcc 0)), by decide +kernel⟩,
    ⟨(wAcc 17), (wJrn 1 1), (wJrnWr (wJrn 1 1) 17).1, (wJrnWr (wJrn 1 1) 17).2, (.segment (wAcc 17)), by decide +kernel⟩,
    ⟨(wAcc 1), wJrnBad, (wJrnWr wJrnBad 1).1, (wJrnWr wJrnBad 1).2, (.record (wAcc 1)), by decide +kernel⟩,
    ⟨(wAcc 1), wJrnCfg, (wJrnWr wJrnCfg 1).1, (wJrnWr wJrnCfg 1).2, (.record (wAcc 1)), by decide +kernel⟩,
    ⟨(wAcc 2), wJrnCfg, (wJrnWr wJrnCfg 2).1, (wJrnWr wJrnCfg 2).2, (.replay (wAcc 2)), by decide +kernel⟩,
    ⟨wRun, 9, by decide +kernel⟩,
    ⟨(wJrn 2 3), 9, by decide +kernel⟩,
    ⟨wRun, 9, by decide +kernel⟩,
    ⟨wRun, by decide +kernel⟩,
    ⟨wHost, 2, 0x4000000000, [1#8, 2#8], by decide +kernel⟩⟩

theorem test_meets_Journal_2 :
    (∃ (s : State), (s.replaying = false))
    ∧ (∃ (s : State), (s.replaying = true))
    ∧ (∃ (kind : ℕ) (flags : ℕ) (src : ℕ) (aux0 : ℕ) (aux1 : ℕ) (aux2 : ℕ) (payload : List Byte) (s : State), (s.jrnPos ≠ 0))
    ∧ (∃ (kind : ℕ) (flags : ℕ) (src : ℕ) (aux0 : ℕ) (aux1 : ℕ) (aux2 : ℕ) (payload : List Byte) (s : State), (s.jrnPos + 1 < 2 ^ 64))
    ∧ (∃ (r : List Byte) (rest : List (List Byte)) (s : State), (s.recording = false))
    ∧ (∃ (r : List Byte) (rest : List (List Byte)) (s : State), (s.recording = true) ∧ (s.jrn.stagedBytes + (r.length + if s.jrn.missed = 0 then 0 else 32) ≤ 1048576))
    ∧ (∃ (r : List Byte) (rest : List (List Byte)) (s : State), (s.recording = true) ∧ (¬s.jrn.stagedBytes + (r.length + if s.jrn.missed = 0 then 0 else 32) ≤ 1048576) ∧ (s.get F.JRN_CTRL_wrap = 0))
    ∧ (∃ (r : List Byte) (rest : List (List Byte)) (s : State), (s.recording = true) ∧ (¬s.jrn.stagedBytes + (r.length + if s.jrn.missed = 0 then 0 else 32) ≤ 1048576) ∧ (s.get F.JRN_CTRL_wrap = 1))
    ∧ (∃ (r : List Byte) (rest : List (List Byte)) (s : State), (s.recording = true) ∧ (¬s.jrn.stagedBytes + (r.length + if s.jrn.missed = 0 then 0 else 32) ≤ 1048576) ∧ (s.get F.JRN_CTRL_wrap = 1))
    ∧ (∃ (r : List Byte) (rest : List (List Byte)) (s : State), (s.jrn.staged = []))
    ∧ (∃ (r : List Byte) (rest : List (List Byte)) (s : State), (s.jrn.staged = r :: rest))
    ∧ (∃ (r : List Byte) (rest : List (List Byte)) (s : State), ((r.length / 32 + if s.jrn.lost = 0 then 0 else 1) ≤ s.ringUnits - 1 - s.ringUsed)) :=
  ⟨⟨wRun, by decide +kernel⟩,
    ⟨(wJrn 2 3), by decide +kernel⟩,
    ⟨0x12, 0, 1, 2, 3, 4, [], ((wJrn 1 1).put F.JRN_POS_LO_position 8), by decide +kernel⟩,
    ⟨0x12, 0, 1, 2, 3, 4, [], (wJrn 1 1), by decide +kernel⟩,
    ⟨wJRec, [], wRun, by decide +kernel⟩,
    ⟨wJRec, [], wJrnSt, by decide +kernel⟩,
    ⟨wJRec, [], (wJrnS 0 1048570), ⟨by decide +kernel, by rw [wJrnS_bytes _ _ (by decide)]; decide +kernel, by decide +kernel⟩⟩,
    ⟨wJRec, [], (wJrnS 1 1048570), ⟨by decide +kernel, by rw [wJrnS_bytes _ _ (by decide)]; decide +kernel, by decide +kernel⟩⟩,
    ⟨wJRec, [], (wJrnS 1 1048570), ⟨by decide +kernel, by rw [wJrnS_bytes _ _ (by decide)]; decide +kernel, by decide +kernel⟩⟩,
    ⟨wJRec, [], (wJrnS 0 0), by decide +kernel⟩,
    ⟨wJRec, [], wJrnSt, by decide +kernel⟩,
    ⟨wJRec, [], wJrnSt, by decide +kernel⟩⟩

theorem test_meets_Journal_3 :
    (∃ (r : List Byte) (rest : List (List Byte)) (s : State), (¬(r.length / 32 + if s.jrn.lost = 0 then 0 else 1) ≤ s.ringUnits - 1 - s.ringUsed) ∧ (s.get F.JRN_CTRL_wrap = 1))
    ∧ (∃ (r : List Byte) (rest : List (List Byte)) (s : State), (¬(r.length / 32 + if s.jrn.lost = 0 then 0 else 1) ≤ s.ringUnits - 1 - s.ringUsed) ∧ (s.get F.JRN_CTRL_wrap = 1))
    ∧ (∃ (r : List Byte) (rest : List (List Byte)) (s : State), (¬(r.length / 32 + if s.jrn.lost = 0 then 0 else 1) ≤ s.ringUnits - 1 - s.ringUsed) ∧ (s.get F.JRN_CTRL_wrap = 0) ∧ (fieldAt r 0 1 ≠ 22))
    ∧ (∃ (r : List Byte) (rest : List (List Byte)) (s : State), (r.length % 32 = 0) ∧ (s.get F.JRN_WRITE_offset + r.length / 32 < min s.ringUnits (2 ^ 32)) ∧ (s.spilled = []) ∧ (s.cond = []))
    ∧ (∃ (s : State), (s.get F.JRN_STATUS_state ≠ 2))
    ∧ (∃ (s : State), (s.get F.JRN_STATUS_state = 2) ∧ (s.ringPoisoned 0 (min (s.jrnAt 0).units s.ringUnits) = true))
    ∧ (∃ (s : State), (s.get F.JRN_STATUS_state = 2) ∧ (s.ringPoisoned 0 (min (s.jrnAt 0).units s.ringUnits) = false) ∧ (¬((s.jrnAt 0).kind = 16 ∧ (s.jrnAt 0).payload.length = 256)))
    ∧ (∃ (s : State), (s.get F.JRN_STATUS_state = 2) ∧ (s.ringPoisoned 0 (min (s.jrnAt 0).units s.ringUnits) = false) ∧ ((s.jrnAt 0).kind = 16 ∧ (s.jrnAt 0).payload.length = 256) ∧ (¬F.GEN_FW_REV_arith_rev.ext (BitVec.ofNat 32 (fieldAt (s.jrnAt 0).payload 8 4)) = s.get F.GEN_FW_REV_arith_rev))
    ∧ (∃ (s : State), (s.get F.JRN_STATUS_state = 2) ∧ (s.ringPoisoned 0 (min (s.jrnAt 0).units s.ringUnits) = false) ∧ ((s.jrnAt 0).kind = 16 ∧ (s.jrnAt 0).payload.length = 256) ∧ (F.GEN_FW_REV_arith_rev.ext (BitVec.ofNat 32 (fieldAt (s.jrnAt 0).payload 8 4)) = s.get F.GEN_FW_REV_arith_rev) ∧ (¬bytesAt (s.jrnAt 0).payload 172 64 = s.baseline))
    ∧ (∃ (s : State), (s.get F.JRN_STATUS_state = 2) ∧ (s.ringPoisoned 0 (min (s.jrnAt 0).units s.ringUnits) = false) ∧ ((s.jrnAt 0).kind = 16 ∧ (s.jrnAt 0).payload.length = 256) ∧ (F.GEN_FW_REV_arith_rev.ext (BitVec.ofNat 32 (fieldAt (s.jrnAt 0).payload 8 4)) = s.get F.GEN_FW_REV_arith_rev) ∧ (bytesAt (s.jrnAt 0).payload 172 64 = s.baseline))
    ∧ (∃ (s : State), (s.get F.JRN_STATUS_state ≠ 3))
    ∧ (∃ (s : State), (s.get F.JRN_STATUS_state = 3) ∧ (s.get F.JRN_EXPORT_offset ≤ s.jrn.rptr)) :=
  ⟨⟨wJRec, [], (wJrnRing 1), by decide +kernel⟩,
    ⟨wJRec, [], (wJrnRing 1), by decide +kernel⟩,
    ⟨wJRec, [], (wJrnRing 0), by decide +kernel⟩,
    ⟨wJRec, [], (wJrn 1 1), by decide +kernel⟩,
    ⟨(wJrnR 3 0 []), by decide +kernel⟩,
    ⟨{ wJrnH 0x10 wArith wRun.baseline with cond := [(0x200000000, .many)] }, by decide +kernel⟩,
    ⟨(wJrnH 0x11 wArith wRun.baseline), by decide +kernel⟩,
    ⟨(wJrnH 0x10 (wArith + 1) wRun.baseline), by decide +kernel⟩,
    ⟨(wJrnH 0x10 wArith (List.replicate 64 7#8)), by decide +kernel⟩,
    ⟨(wJrnH 0x10 wArith wRun.baseline), by decide +kernel⟩,
    ⟨(wJrnR 2 0 []), by decide +kernel⟩,
    ⟨(wJrnR 3 0 []), by decide +kernel⟩⟩

theorem test_meets_Journal_4 :
    (∃ (s : State), (s.get F.JRN_STATUS_state = 3 ∧ s.jrn.rptr < s.get F.JRN_EXPORT_offset) ∧ (s.ringPoisoned s.jrn.rptr (min (s.jrnAt s.jrn.rptr).units s.ringUnits) = true))
    ∧ (∃ (s : State), ((s.get F.JRN_STATUS_state = 3 ∧ s.jrn.rptr < s.get F.JRN_EXPORT_offset) ∧ s.ringPoisoned s.jrn.rptr (min (s.jrnAt s.jrn.rptr).units s.ringUnits) = false) ∧ (¬((s.jrnAt s.jrn.rptr).formed = true ∧ s.jrn.rptr + (s.jrnAt s.jrn.rptr).units ≤ s.get F.JRN_EXPORT_offset)))
    ∧ (∃ (s : State), ((s.get F.JRN_STATUS_state = 3 ∧ s.jrn.rptr < s.get F.JRN_EXPORT_offset) ∧ s.ringPoisoned s.jrn.rptr (min (s.jrnAt s.jrn.rptr).units s.ringUnits) = false) ∧ ((s.jrnAt s.jrn.rptr).formed = true ∧ s.jrn.rptr + (s.jrnAt s.jrn.rptr).units ≤ s.get F.JRN_EXPORT_offset) ∧ ((s.jrnAt s.jrn.rptr).digestOk = false))
    ∧ (∃ (s : State), (((s.get F.JRN_STATUS_state = 3 ∧ s.jrn.rptr < s.get F.JRN_EXPORT_offset) ∧ s.ringPoisoned s.jrn.rptr (min (s.jrnAt s.jrn.rptr).units s.ringUnits) = false) ∧ ((s.jrnAt s.jrn.rptr).formed = true ∧ s.jrn.rptr + (s.jrnAt s.jrn.rptr).units ≤ s.get F.JRN_EXPORT_offset) ∧ (s.jrnAt s.jrn.rptr).digestOk = true) ∧ ((s.jrnAt s.jrn.rptr).flags.testBit 0 = true) ∧ (s.jrn.expected ≠ some (s.jrnAt s.jrn.rptr).position))
    ∧ (∃ (s : State), (((s.get F.JRN_STATUS_state = 3 ∧ s.jrn.rptr < s.get F.JRN_EXPORT_offset) ∧ s.ringPoisoned s.jrn.rptr (min (s.jrnAt s.jrn.rptr).units s.ringUnits) = false) ∧ ((s.jrnAt s.jrn.rptr).formed = true ∧ s.jrn.rptr + (s.jrnAt s.jrn.rptr).units ≤ s.get F.JRN_EXPORT_offset) ∧ (s.jrnAt s.jrn.rptr).digestOk = true) ∧ ((s.jrnAt s.jrn.rptr).flags.testBit 0 = true) ∧ (s.jrn.expected = some (s.jrnAt s.jrn.rptr).position) ∧ (s.beyond (s.jrnAt s.jrn.rptr).position = true))
    ∧ (∃ (s : State), ((((s.get F.JRN_STATUS_state = 3 ∧ s.jrn.rptr < s.get F.JRN_EXPORT_offset) ∧ s.ringPoisoned s.jrn.rptr (min (s.jrnAt s.jrn.rptr).units s.ringUnits) = false) ∧ ((s.jrnAt s.jrn.rptr).formed = true ∧ s.jrn.rptr + (s.jrnAt s.jrn.rptr).units ≤ s.get F.JRN_EXPORT_offset) ∧ (s.jrnAt s.jrn.rptr).digestOk = true) ∧ (s.jrnAt s.jrn.rptr).flags.testBit 0 = true ∧ s.jrn.expected = some (s.jrnAt s.jrn.rptr).position ∧ s.beyond (s.jrnAt s.jrn.rptr).position = false) ∧ ((s.jrnAt s.jrn.rptr).kind = 1))
    ∧ (∃ (s : State), ((((s.get F.JRN_STATUS_state = 3 ∧ s.jrn.rptr < s.get F.JRN_EXPORT_offset) ∧ s.ringPoisoned s.jrn.rptr (min (s.jrnAt s.jrn.rptr).units s.ringUnits) = false) ∧ ((s.jrnAt s.jrn.rptr).formed = true ∧ s.jrn.rptr + (s.jrnAt s.jrn.rptr).units ≤ s.get F.JRN_EXPORT_offset) ∧ (s.jrnAt s.jrn.rptr).digestOk = true) ∧ (s.jrnAt s.jrn.rptr).flags.testBit 0 = true ∧ s.jrn.expected = some (s.jrnAt s.jrn.rptr).position ∧ s.beyond (s.jrnAt s.jrn.rptr).position = false) ∧ ((s.jrnAt s.jrn.rptr).kind = 2 ∨ (s.jrnAt s.jrn.rptr).kind = 3))
    ∧ (∃ (s : State), ((((s.get F.JRN_STATUS_state = 3 ∧ s.jrn.rptr < s.get F.JRN_EXPORT_offset) ∧ s.ringPoisoned s.jrn.rptr (min (s.jrnAt s.jrn.rptr).units s.ringUnits) = false) ∧ ((s.jrnAt s.jrn.rptr).formed = true ∧ s.jrn.rptr + (s.jrnAt s.jrn.rptr).units ≤ s.get F.JRN_EXPORT_offset) ∧ (s.jrnAt s.jrn.rptr).digestOk = true) ∧ (s.jrnAt s.jrn.rptr).flags.testBit 0 = true ∧ s.jrn.expected = some (s.jrnAt s.jrn.rptr).position ∧ s.beyond (s.jrnAt s.jrn.rptr).position = false) ∧ ((s.jrnAt s.jrn.rptr).kind = 4))
    ∧ (∃ (s : State), ((((s.get F.JRN_STATUS_state = 3 ∧ s.jrn.rptr < s.get F.JRN_EXPORT_offset) ∧ s.ringPoisoned s.jrn.rptr (min (s.jrnAt s.jrn.rptr).units s.ringUnits) = false) ∧ ((s.jrnAt s.jrn.rptr).formed = true ∧ s.jrn.rptr + (s.jrnAt s.jrn.rptr).units ≤ s.get F.JRN_EXPORT_offset) ∧ (s.jrnAt s.jrn.rptr).digestOk = true) ∧ (s.jrnAt s.jrn.rptr).flags.testBit 0 = true ∧ s.jrn.expected = some (s.jrnAt s.jrn.rptr).position ∧ s.beyond (s.jrnAt s.jrn.rptr).position = false) ∧ ((s.jrnAt s.jrn.rptr).kind = 5))
    ∧ (∃ (s : State), ((((s.get F.JRN_STATUS_state = 3 ∧ s.jrn.rptr < s.get F.JRN_EXPORT_offset) ∧ s.ringPoisoned s.jrn.rptr (min (s.jrnAt s.jrn.rptr).units s.ringUnits) = false) ∧ ((s.jrnAt s.jrn.rptr).formed = true ∧ s.jrn.rptr + (s.jrnAt s.jrn.rptr).units ≤ s.get F.JRN_EXPORT_offset) ∧ (s.jrnAt s.jrn.rptr).digestOk = true) ∧ (s.jrnAt s.jrn.rptr).flags.testBit 0 = true ∧ s.jrn.expected = some (s.jrnAt s.jrn.rptr).position ∧ s.beyond (s.jrnAt s.jrn.rptr).position = false) ∧ ((s.jrnAt s.jrn.rptr).kind = 6))
    ∧ (∃ (s : State), ((((s.get F.JRN_STATUS_state = 3 ∧ s.jrn.rptr < s.get F.JRN_EXPORT_offset) ∧ s.ringPoisoned s.jrn.rptr (min (s.jrnAt s.jrn.rptr).units s.ringUnits) = false) ∧ ((s.jrnAt s.jrn.rptr).formed = true ∧ s.jrn.rptr + (s.jrnAt s.jrn.rptr).units ≤ s.get F.JRN_EXPORT_offset) ∧ (s.jrnAt s.jrn.rptr).digestOk = true) ∧ (s.jrnAt s.jrn.rptr).flags.testBit 0 = true ∧ s.jrn.expected = some (s.jrnAt s.jrn.rptr).position ∧ s.beyond (s.jrnAt s.jrn.rptr).position = false) ∧ ((s.jrnAt s.jrn.rptr).kind = 9))
    ∧ (∃ (s : State), ((((s.get F.JRN_STATUS_state = 3 ∧ s.jrn.rptr < s.get F.JRN_EXPORT_offset) ∧ s.ringPoisoned s.jrn.rptr (min (s.jrnAt s.jrn.rptr).units s.ringUnits) = false) ∧ ((s.jrnAt s.jrn.rptr).formed = true ∧ s.jrn.rptr + (s.jrnAt s.jrn.rptr).units ≤ s.get F.JRN_EXPORT_offset) ∧ (s.jrnAt s.jrn.rptr).digestOk = true) ∧ (s.jrnAt s.jrn.rptr).flags.testBit 0 = true ∧ s.jrn.expected = some (s.jrnAt s.jrn.rptr).position ∧ s.beyond (s.jrnAt s.jrn.rptr).position = false) ∧ ((s.jrnAt s.jrn.rptr).kind = 10)) :=
  ⟨⟨{ wJrnA wJRec (some 7) with cond := [(0x200000000, .many)] }, by decide +kernel⟩,
    ⟨(wJrnP 7 9 3 0), by decide +kernel⟩,
    ⟨wBadDig, by decide +kernel⟩,
    ⟨(wJrnA wJRec (some 8)), by decide +kernel⟩,
    ⟨(((wJrnA wJRec (some 7)).put F.FARM_STATUS_armed 1).put F.FARM_BOUNDARY_LO_position 5), by decide +kernel⟩,
    ⟨(wJrnP 1 0 3 0), by decide +kernel⟩,
    ⟨(wJrnP 2 0 3 0), by decide +kernel⟩,
    ⟨(wJrnP 4 1024 1 0), by decide +kernel⟩,
    ⟨(wJrnP 5 9 3 0), by decide +kernel⟩,
    ⟨(wJrnP 6 1 0 0), by decide +kernel⟩,
    ⟨(wJrnP 9 5 119 0), by decide +kernel⟩,
    ⟨(wJrnP 10 1 3 0), by decide +kernel⟩⟩

theorem test_meets_Journal_5 :
    (∃ (s : State), ((((s.get F.JRN_STATUS_state = 3 ∧ s.jrn.rptr < s.get F.JRN_EXPORT_offset) ∧ s.ringPoisoned s.jrn.rptr (min (s.jrnAt s.jrn.rptr).units s.ringUnits) = false) ∧ ((s.jrnAt s.jrn.rptr).formed = true ∧ s.jrn.rptr + (s.jrnAt s.jrn.rptr).units ≤ s.get F.JRN_EXPORT_offset) ∧ (s.jrnAt s.jrn.rptr).digestOk = true) ∧ (s.jrnAt s.jrn.rptr).flags.testBit 0 = true ∧ s.jrn.expected = some (s.jrnAt s.jrn.rptr).position ∧ s.beyond (s.jrnAt s.jrn.rptr).position = false) ∧ ((s.jrnAt s.jrn.rptr).kind = 8 ∨ (s.jrnAt s.jrn.rptr).kind = 11 ∨ (s.jrnAt s.jrn.rptr).kind = 12))
    ∧ (∃ (s : State), (((s.get F.JRN_STATUS_state = 3 ∧ s.jrn.rptr < s.get F.JRN_EXPORT_offset) ∧ s.ringPoisoned s.jrn.rptr (min (s.jrnAt s.jrn.rptr).units s.ringUnits) = false) ∧ ((s.jrnAt s.jrn.rptr).formed = true ∧ s.jrn.rptr + (s.jrnAt s.jrn.rptr).units ≤ s.get F.JRN_EXPORT_offset) ∧ (s.jrnAt s.jrn.rptr).digestOk = true) ∧ ((s.jrnAt s.jrn.rptr).flags.testBit 0 = false) ∧ ((s.jrnAt s.jrn.rptr).kind = 16))
    ∧ (∃ (s : State), (((s.get F.JRN_STATUS_state = 3 ∧ s.jrn.rptr < s.get F.JRN_EXPORT_offset) ∧ s.ringPoisoned s.jrn.rptr (min (s.jrnAt s.jrn.rptr).units s.ringUnits) = false) ∧ ((s.jrnAt s.jrn.rptr).formed = true ∧ s.jrn.rptr + (s.jrnAt s.jrn.rptr).units ≤ s.get F.JRN_EXPORT_offset) ∧ (s.jrnAt s.jrn.rptr).digestOk = true) ∧ ((s.jrnAt s.jrn.rptr).flags.testBit 0 = false) ∧ ((s.jrnAt s.jrn.rptr).kind = 22))
    ∧ (∃ (s : State), (((s.get F.JRN_STATUS_state = 3 ∧ s.jrn.rptr < s.get F.JRN_EXPORT_offset) ∧ s.ringPoisoned s.jrn.rptr (min (s.jrnAt s.jrn.rptr).units s.ringUnits) = false) ∧ ((s.jrnAt s.jrn.rptr).formed = true ∧ s.jrn.rptr + (s.jrnAt s.jrn.rptr).units ≤ s.get F.JRN_EXPORT_offset) ∧ (s.jrnAt s.jrn.rptr).digestOk = true) ∧ ((s.jrnAt s.jrn.rptr).flags.testBit 0 = false) ∧ ((s.jrnAt s.jrn.rptr).kind = 17))
    ∧ (∃ (s : State), (((s.get F.JRN_STATUS_state = 3 ∧ s.jrn.rptr < s.get F.JRN_EXPORT_offset) ∧ s.ringPoisoned s.jrn.rptr (min (s.jrnAt s.jrn.rptr).units s.ringUnits) = false) ∧ ((s.jrnAt s.jrn.rptr).formed = true ∧ s.jrn.rptr + (s.jrnAt s.jrn.rptr).units ≤ s.get F.JRN_EXPORT_offset) ∧ (s.jrnAt s.jrn.rptr).digestOk = true) ∧ ((s.jrnAt s.jrn.rptr).flags.testBit 0 = false) ∧ ((s.jrnAt s.jrn.rptr).kind ∈ [7, 18, 19, 21]))
    ∧ (∃ (s : State), (((s.get F.JRN_STATUS_state = 3 ∧ s.jrn.rptr < s.get F.JRN_EXPORT_offset) ∧ s.ringPoisoned s.jrn.rptr (min (s.jrnAt s.jrn.rptr).units s.ringUnits) = false) ∧ ((s.jrnAt s.jrn.rptr).formed = true ∧ s.jrn.rptr + (s.jrnAt s.jrn.rptr).units ≤ s.get F.JRN_EXPORT_offset) ∧ (s.jrnAt s.jrn.rptr).digestOk = true) ∧ ((s.jrnAt s.jrn.rptr).flags.testBit 0 = false) ∧ ((s.jrnAt s.jrn.rptr).kind = 20))
    ∧ (∃ (s : State), ((s.replayTurn fun (r : JRec) => decide (r.kind = 8)) = false ∨ s.get F.JRN_CTRL_domain = 1 ∧ tabGet s.jrn.live ((s.jrnAt s.jrn.rptr).src * 4096 + (s.jrnAt s.jrn.rptr).aux0) 0 ≤ tabGet s.jrn.taken ((s.jrnAt s.jrn.rptr).src * 4096 + (s.jrnAt s.jrn.rptr).aux0) 0))
    ∧ (∃ (s : State), ((s.replayTurn fun (r : JRec) => decide (r.kind = 8)) = true) ∧ (¬(s.get F.JRN_CTRL_domain = 1 ∧ tabGet s.jrn.live ((s.jrnAt s.jrn.rptr).src * 4096 + (s.jrnAt s.jrn.rptr).aux0) 0 ≤ tabGet s.jrn.taken ((s.jrnAt s.jrn.rptr).src * 4096 + (s.jrnAt s.jrn.rptr).aux0) 0)))
    ∧ (∃ (r : JRec) (off : ℕ) (data : List Byte) (s : State), (r.data = none))
    ∧ (∃ (r : JRec) (off : ℕ) (data : List Byte) (s : State), (r.data = some data) ∧ (((if s.jrn.firstTs.isSome = true ∨ r.aux2 = 2 ^ 64 - 1 then s else { s with jrn := have __src := s.jrn; { __src with firstTs := some r.aux2 } }).paceOk r.aux2 = false ∨ ((if s.jrn.firstTs.isSome = true ∨ r.aux2 = 2 ^ 64 - 1 then s else { s with jrn := have __src := s.jrn; { __src with firstTs := some r.aux2 } }).queue r.src).hasRoom = false) ∨ (if s.jrn.firstTs.isSome = true ∨ r.aux2 = 2 ^ 64 - 1 then s else { s with jrn := have __src := s.jrn; { __src with firstTs := some r.aux2 } }).placeData r.src data.length = none))
    ∧ (∃ (r : JRec) (off : ℕ) (data : List Byte) (s : State) (s1 : State), (r.data = some data) ∧ (¬((if s.jrn.firstTs.isSome = true ∨ r.aux2 = 2 ^ 64 - 1 then s else { s with jrn := have __src := s.jrn; { __src with firstTs := some r.aux2 } }).paceOk r.aux2 = false ∨ ((if s.jrn.firstTs.isSome = true ∨ r.aux2 = 2 ^ 64 - 1 then s else { s with jrn := have __src := s.jrn; { __src with firstTs := some r.aux2 } }).queue r.src).hasRoom = false)) ∧ ((if s.jrn.firstTs.isSome = true ∨ r.aux2 = 2 ^ 64 - 1 then s else { s with jrn := have __src := s.jrn; { __src with firstTs := some r.aux2 } }).placeData r.src data.length = some (off, s1)))
    ∧ (∃ (e : DetEnt) (r : DetEnt) (run : Bool) (s : State), (¬(s.get F.DET_CTRL_compare = 1 ∧ s.get F.JRN_CTRL_mode = 2 ∧ s.get F.DET_STATUS_state ≠ 3))) :=
  ⟨⟨(wJrnP 8 5 6 1), by decide +kernel⟩,
    ⟨(wJrnU 0x10), by decide +kernel⟩,
    ⟨(wJrnU 0x16), by decide +kernel⟩,
    ⟨(wJrnU 0x11), by decide +kernel⟩,
    ⟨(wJrnU 7), by decide +kernel⟩,
    ⟨(wJrnU 0x14), by decide +kernel⟩,
    ⟨(wJrnP 9 5 6 1), by decide +kernel⟩,
    ⟨(wJrnDom 1), by decide +kernel⟩,
    ⟨⟨1, 5, 0, 7, 3, 0, 5, []⟩, 0, [], wRun, by decide +kernel⟩,
    ⟨wJItem, 0, [1#8, 2#8], (wInStr (wJrnR 3 1 [])).setQueue 0 {}, by decide +kernel⟩,
    ⟨wJItem, 0, [1#8, 2#8], wJIn, ((wJIn.placeData 0 2).elim wRun (·.2)), by decide +kernel⟩,
    ⟨wDetA, wDetA, true, wDet 0, by decide +kernel⟩⟩

theorem test_meets_Journal_6 :
    (∃ (e : DetEnt) (r : DetEnt) (run : Bool) (s : State), (s.get F.DET_CTRL_compare = 1 ∧ s.get F.JRN_CTRL_mode = 2 ∧ s.get F.DET_STATUS_state ≠ 3) ∧ (List.find? e.same (if run = true then s.det.recorded else s.det.replayed) = some r))
    ∧ (∃ (e : DetEnt) (r : DetEnt) (run : Bool) (s : State), (s.get F.DET_CTRL_compare = 1 ∧ s.get F.JRN_CTRL_mode = 2 ∧ s.get F.DET_STATUS_state ≠ 3) ∧ (List.find? e.same (if run = true then s.det.recorded else s.det.replayed) = none) ∧ ((if run = true then s.det.replayed else s.det.recorded).length < 4096))
    ∧ (∃ (e : DetEnt) (r : DetEnt) (run : Bool) (s : State), (s.get F.DET_CTRL_compare = 1 ∧ s.get F.JRN_CTRL_mode = 2 ∧ s.get F.DET_STATUS_state ≠ 3) ∧ (List.find? e.same (if run = true then s.det.recorded else s.det.replayed) = none) ∧ (4096 ≤ (if run = true then s.det.replayed else s.det.recorded).length))
    ∧ (∃ (run : DetEnt) (rec : DetEnt) (s : State), (run.nonrepro = true ∨ rec.nonrepro = true))
    ∧ (∃ (run : DetEnt) (rec : DetEnt) (s : State), (¬(run.nonrepro = true ∨ rec.nonrepro = true)) ∧ (run.digest = rec.digest))
    ∧ (∃ (run : DetEnt) (rec : DetEnt) (s : State), (¬(run.nonrepro = true ∨ rec.nonrepro = true)) ∧ (run.digest ≠ rec.digest) ∧ ((if s.get F.DET_STATUS_state ≠ 2 ∧ s.get F.DET_CTRL_halt = 1 then ((s.put F.DET_STATUS_state 2).raise pgDET Ev.DET_mismatch).replayStop 10 else (s.put F.DET_STATUS_state 2).raise pgDET Ev.DET_mismatch).det.log.length < 16))
    ∧ (∃ (run : DetEnt) (rec : DetEnt) (s : State), (¬(run.nonrepro = true ∨ rec.nonrepro = true)) ∧ (run.digest ≠ rec.digest) ∧ (16 ≤ (if s.get F.DET_STATUS_state ≠ 2 ∧ s.get F.DET_CTRL_halt = 1 then ((s.put F.DET_STATUS_state 2).raise pgDET Ev.DET_mismatch).replayStop 10 else (s.put F.DET_STATUS_state 2).raise pgDET Ev.DET_mismatch).det.log.length))
    ∧ (∃ (run : List TileEnt) (rec : List TileEnt) (t : TileEnt), ((firstDiff run rec).1.or (firstDiff run rec).2 = some t))
    ∧ (∃ (run : List TileEnt) (rec : List TileEnt) (t : TileEnt) (u : TileEnt), ((firstDiff run rec).1.or (firstDiff run rec).2 = some t) ∧ (u ∈ run ++ rec) ∧ (u.slot < t.slot ∨ u.slot = t.slot ∧ u.tile < t.tile))
    ∧ (∃ (l : DetLog) (s : State), (s.det.log[s.get F.DET_LOG_SEL_entry]? = some l)) :=
  ⟨⟨wDetA, wDetA, true, wDetHas, by decide +kernel⟩,
    ⟨wDetA, wDetA, true, wDet 1, by decide +kernel⟩,
    ⟨wDetA, wDetA, true, wDetFull, ⟨by decide +kernel, by decide +kernel, by simp [wDetFull]⟩⟩,
    ⟨{ wDetA with nonrepro := true }, wDetA, wDet 1, by decide +kernel⟩,
    ⟨wDetA, wDetA, wDet 1, by decide +kernel⟩,
    ⟨wDetA, { wDetA with digest := 8#64 }, wDet 1, by decide +kernel⟩,
    ⟨wDetA, { wDetA with digest := 8#64 }, wDetLog16, by decide +kernel⟩,
    ⟨[wTe 0 1 5, wTe 0 2 6], [wTe 0 1 5, wTe 0 2 7], wTe 0 2 6, by decide +kernel⟩,
    ⟨[wTe 0 1 5, wTe 0 2 6], [wTe 0 1 5, wTe 0 2 7], wTe 0 2 6, wTe 0 1 5, by decide +kernel⟩,
    ⟨wDetL, wDetLog16, by decide +kernel⟩⟩

theorem test_meets_Queues_1 :
    (∃ (acc : Sys2Proof.Acc) (s : State) (s2 : State) (w : Word), (s.written pgQENG 32 acc = some (s2, w)) ∧ (BitVec.getLsbD w 0 = true) ∧ (s2.get F.QENG_CTRL_enable = 1))
    ∧ (∃ (acc : Sys2Proof.Acc) (s : State) (s2 : State) (w : Word), (s.written pgQENG 32 acc = some (s2, w)) ∧ (BitVec.getLsbD w 0 = true) ∧ (s2.get F.QENG_CTRL_enable = 0) ∧ (s2.inDram (s2.addr F.QENG_STATE_BASE_LO_base) 67108864 = true))
    ∧ (∃ (acc : Sys2Proof.Acc) (s : State) (s2 : State) (w : Word), (s.written pgQENG 32 acc = some (s2, w)) ∧ (BitVec.getLsbD w 0 = true) ∧ (s2.get F.QENG_CTRL_enable = 0) ∧ (s2.inDram (s2.addr F.QENG_STATE_BASE_LO_base) 67108864 = false))
    ∧ (∃ (acc : Sys2Proof.Acc) (s : State) (s2 : State) (w : Word), (s.written pgQENG 32 acc = some (s2, w)) ∧ (BitVec.getLsbD w 0 = false))
    ∧ (∃ (acc : Sys2Proof.Acc) (s : State) (s2 : State) (w : Word) (k : ℕ) (c : Instr), (s.written pgQENG 40 acc = some (s2, w)) ∧ ((k, c) ∈ [(1, Instr.qEnable acc), (2, Instr.qDisable acc), (3, Instr.resetIndices acc)]) ∧ (BitVec.getLsbD w 31 = false ∨ F.QENG_Q_CMD_op.ext w ≠ k))
    ∧ (∃ (acc : Sys2Proof.Acc) (s : State) (s2 : State) (w : Word) (k : ℕ) (c : Instr), (s.written pgQENG 40 acc = some (s2, w)) ∧ ((k, c) ∈ [(1, Instr.qEnable acc), (2, Instr.qDisable acc), (3, Instr.resetIndices acc)]) ∧ (BitVec.getLsbD w 31 = true) ∧ (F.QENG_Q_CMD_op.ext w = k) ∧ (queueKind (F.QENG_Q_CMD_queue.ext w) = 0))
    ∧ (∃ (acc : Sys2Proof.Acc) (s : State) (s2 : State) (w : Word) (k : ℕ) (c : Instr), (s.written pgQENG 40 acc = some (s2, w)) ∧ ((k, c) ∈ [(1, Instr.qEnable acc), (2, Instr.qDisable acc), (3, Instr.resetIndices acc)]) ∧ (BitVec.getLsbD w 31 = true) ∧ (F.QENG_Q_CMD_op.ext w = k) ∧ (queueKind (F.QENG_Q_CMD_queue.ext w) ≠ 0) ∧ (k ≠ 2) ∧ ((s2.queue (F.QENG_Q_CMD_queue.ext w)).enabled = true ∨ (s2.queue (F.QENG_Q_CMD_queue.ext w)).disabling = true))
    ∧ (∃ (acc : Sys2Proof.Acc) (s : State) (s2 : State) (w : Word), (s.written pgQENG 40 acc = some (s2, w)) ∧ (BitVec.getLsbD w 31 = true) ∧ (F.QENG_Q_CMD_op.ext w = 1) ∧ (queueKind (F.QENG_Q_CMD_queue.ext w) ≠ 0) ∧ ((s2.queue (F.QENG_Q_CMD_queue.ext w)).enabled = false) ∧ ((s2.queue (F.QENG_Q_CMD_queue.ext w)).disabling = false) ∧ ((s2.queue (F.QENG_Q_CMD_queue.ext w)).faulted = true))
    ∧ (∃ (acc : Sys2Proof.Acc) (s : State) (s2 : State) (w : Word), (s.written pgQENG 40 acc = some (s2, w)) ∧ (BitVec.getLsbD w 31 = true) ∧ (F.QENG_Q_CMD_op.ext w = 1) ∧ (queueKind (F.QENG_Q_CMD_queue.ext w) ≠ 0) ∧ ((s2.queue (F.QENG_Q_CMD_queue.ext w)).enabled = false) ∧ ((s2.queue (F.QENG_Q_CMD_queue.ext w)).disabling = false) ∧ ((s2.queue (F.QENG_Q_CMD_queue.ext w)).faulted = false) ∧ ((s2.load (s2.queueAddr (F.QENG_Q_CMD_queue.ext w)) 64).2.2 = true))
    ∧ (∃ (acc : Sys2Proof.Acc) (s : State) (s2 : State) (w : Word), (s.written pgQENG 40 acc = some (s2, w)) ∧ (BitVec.getLsbD w 31 = true) ∧ (F.QENG_Q_CMD_op.ext w = 1) ∧ (queueKind (F.QENG_Q_CMD_queue.ext w) ≠ 0) ∧ ((s2.queue (F.QENG_Q_CMD_queue.ext w)).enabled = false) ∧ ((s2.queue (F.QENG_Q_CMD_queue.ext w)).disabling = false) ∧ ((s2.queue (F.QENG_Q_CMD_queue.ext w)).faulted = false) ∧ ((s2.load (s2.queueAddr (F.QENG_Q_CMD_queue.ext w)) 64).2.2 = false) ∧ ((s2.load (s2.queueAddr (F.QENG_Q_CMD_queue.ext w)) 64).1.enableCause (F.QENG_Q_CMD_queue.ext w) (s2.load (s2.queueAddr (F.QENG_Q_CMD_queue.ext w)) 64).2.1 ≠ 0))
    ∧ (∃ (acc : Sys2Proof.Acc) (s : State) (s2 : State) (w : Word), (s.written pgQENG 40 acc = some (s2, w)) ∧ (BitVec.getLsbD w 31 = true) ∧ (F.QENG_Q_CMD_op.ext w = 1) ∧ (queueKind (F.QENG_Q_CMD_queue.ext w) ≠ 0) ∧ ((s2.queue (F.QENG_Q_CMD_queue.ext w)).enabled = false) ∧ ((s2.queue (F.QENG_Q_CMD_queue.ext w)).disabling = false) ∧ ((s2.queue (F.QENG_Q_CMD_queue.ext w)).faulted = false) ∧ ((s2.load (s2.queueAddr (F.QENG_Q_CMD_queue.ext w)) 64).2.2 = false) ∧ ((s2.load (s2.queueAddr (F.QENG_Q_CMD_queue.ext w)) 64).1.enableCause (F.QENG_Q_CMD_queue.ext w) (s2.load (s2.queueAddr (F.QENG_Q_CMD_queue.ext w)) 64).2.1 = 0))
    ∧ (∃ (acc : Sys2Proof.Acc) (s : State) (s2 : State) (w : Word), (s.written pgQENG 40 acc = some (s2, w)) ∧ (BitVec.getLsbD w 31 = true) ∧ (F.QENG_Q_CMD_op.ext w = 2) ∧ (queueKind (F.QENG_Q_CMD_queue.ext w) ≠ 0) ∧ ((s2.queue (F.QENG_Q_CMD_queue.ext w)).enabled = true)) :=
  ⟨⟨(wAcc 1), wQOn, (wQWr wQOn 1).1, (wQWr wQOn 1).2, by decide +kernel⟩,
    ⟨(wAcc 1), wQOff, (wQWr wQOff 1).1, (wQWr wQOff 1).2, by decide +kernel⟩,
    ⟨(wAcc 1), wQOffBad, (wQWr wQOffBad 1).1, (wQWr wQOffBad 1).2, by decide +kernel⟩,
    ⟨(wAcc 0), wQOn, (wQWr wQOn 0).1, (wQWr wQOn 0).2, by decide +kernel⟩,
    ⟨(wAcc 0x01000400), wQOn, (wQCmd wQOn 0x01000400).1, (wQCmd wQOn 0x01000400).2, 1, (.qEnable (wAcc 0x01000400)), by decide +kernel⟩,
    ⟨(wAcc 0x82000102), wQOn, (wQCmd wQOn 0x82000102).1, (wQCmd wQOn 0x82000102).2, 2, (.qDisable (wAcc 0x82000102)), by decide +kernel⟩,
    ⟨(wAcc 0x81000400), (wQs 0x400 1), (wQCmd (wQs 0x400 1) 0x81000400).1, (wQCmd (wQs 0x400 1) 0x81000400).2, 1, (.qEnable (wAcc 0x81000400)), by decide +kernel⟩,
    ⟨(wAcc 0x81000400), wQFlt, (wQCmd wQFlt 0x81000400).1, (wQCmd wQFlt 0x81000400).2, by decide +kernel⟩,
    ⟨(wAcc 0x81000400), wQPois, (wQCmd wQPois 0x81000400).1, (wQCmd wQPois 0x81000400).2, by decide +kernel⟩,
    ⟨(wAcc 0x81000400), (wQMem 0x400 2), (wQCmd (wQMem 0x400 2) 0x81000400).1, (wQCmd (wQMem 0x400 2) 0x81000400).2, by decide +kernel⟩,
    ⟨(wAcc 0x81000400), (wQMem 0x400 1), (wQCmd (wQMem 0x400 1) 0x81000400).1, (wQCmd (wQMem 0x400 1) 0x81000400).2, by decide +kernel⟩,
    ⟨(wAcc 0x82000400), (wQs 0x400 1), (wQCmd (wQs 0x400 1) 0x82000400).1, (wQCmd (wQs 0x400 1) 0x82000400).2, by decide +kernel⟩⟩

theorem test_meets_Queues_2 :
    (∃ (acc : Sys2Proof.Acc) (s : State) (s2 : State) (w : Word), (s.written pgQENG 40 acc = some (s2, w)) ∧ (BitVec.getLsbD w 31 = true) ∧ (F.QENG_Q_CMD_op.ext w = 2) ∧ (queueKind (F.QENG_Q_CMD_queue.ext w) ≠ 0) ∧ ((s2.queue (F.QENG_Q_CMD_queue.ext w)).enabled = false))
    ∧ (∃ (acc : Sys2Proof.Acc) (s : State) (s2 : State) (w : Word), (s.written pgQENG 40 acc = some (s2, w)) ∧ (BitVec.getLsbD w 31 = true) ∧ (F.QENG_Q_CMD_op.ext w = 3) ∧ (queueKind (F.QENG_Q_CMD_queue.ext w) ≠ 0) ∧ ((s2.queue (F.QENG_Q_CMD_queue.ext w)).enabled = false) ∧ ((s2.queue (F.QENG_Q_CMD_queue.ext w)).disabling = false))
    ∧ (∃ (q : ℕ) (v : QSt) (b : List Byte) (s : State), (queueKind q ≠ 1))
    ∧ (∃ (q : ℕ) (v : QSt) (b : List Byte) (s : State), (queueKind q = 1))
    ∧ (∃ (q : ℕ) (v : QSt) (b : List Byte) (s : State) (p : ℕ), (queueKind q = 1) ∧ (p ≠ q))
    ∧ (∃ (q : ℕ) (v : QSt) (b : List Byte) (s : State) (k : ℕ), (queueKind q = 1) ∧ (k ≠ q / 32))
    ∧ (∃ (q : ℕ) (v : QSt) (b : List Byte) (s : State), (v = queueOf b))
    ∧ (∃ (q : ℕ) (v : QSt) (b : List Byte) (s : State) (c : ℕ), (c < 16))
    ∧ (∃ (q : BitVec 20) (s : State), (¬((s.queue q.toNat).disabling = true ∧ (s.queue q.toNat).inFlight = 0)))
    ∧ (∃ (q : BitVec 20) (s : State), ((s.queue q.toNat).disabling = true ∧ (s.queue q.toNat).inFlight = 0))
    ∧ (∃ (q : BitVec 20) (be : BitVec 4) (index : Word) (poisoned : Bool) (s : State), (s.hubOff = true))
    ∧ (∃ (q : BitVec 20) (be : BitVec 4) (index : Word) (poisoned : Bool) (s : State), (s.hubOff = false)) :=
  ⟨⟨(wAcc 0x82000400), wQOn, (wQCmd wQOn 0x82000400).1, (wQCmd wQOn 0x82000400).2, by decide +kernel⟩,
    ⟨(wAcc 0x83000400), wQFlt, (wQCmd wQFlt 0x83000400).1, (wQCmd wQFlt 0x83000400).2, by decide +kernel⟩,
    ⟨0x80, ({ wV 1 with producer := 5 }), [], wQOn, by decide +kernel⟩,
    ⟨0x400, ({ wV 1 with producer := 5 }), (wQBytes 1), (wQs 0x401 1), by decide +kernel⟩,
    ⟨0x400, ({ wV 1 with producer := 5 }), (wQBytes 1), (wQs 0x401 1), 0x401, by decide +kernel⟩,
    ⟨0x400, ({ wV 1 with producer := 5 }), (wQBytes 1), (wQs 0x401 1), 7, by decide +kernel⟩,
    ⟨0x400, (queueOf (wQBytes 1)), (wQBytes 1), wQOn, by decide +kernel⟩,
    ⟨0x400, ({ wV 1 with producer := 5 }), (wQBytes 1), (wQs 0x401 1), 5, by decide +kernel⟩,
    ⟨(0x400#20), wQOn, by decide +kernel⟩,
    ⟨(0x400#20), wQDis, by decide +kernel⟩,
    ⟨(0x400#20), 15#4, 9#32, false, (wQOn.put F.PWR_STATE_state 1), by decide +kernel⟩,
    ⟨(0x400#20), 15#4, 9#32, false, wQUsed, by decide +kernel⟩⟩

theorem test_meets_Queues_3 :
    (∃ (q : BitVec 20) (be : BitVec 4) (index : Word) (poisoned : Bool) (s : State), (s.hubOff = false) ∧ (poisoned = true))
    ∧ (∃ (q : BitVec 20) (be : BitVec 4) (index : Word) (poisoned : Bool) (s : State), (s.hubOff = false) ∧ (poisoned = false) ∧ (be ≠ 15#4))
    ∧ (∃ (q : BitVec 20) (be : BitVec 4) (index : Word) (poisoned : Bool) (s : State), (s.hubOff = false) ∧ (poisoned = false) ∧ (be = 15#4) ∧ (s.replaying = true) ∧ (1024 ≤ q.toNat))
    ∧ (∃ (q : BitVec 20) (be : BitVec 4) (index : Word) (poisoned : Bool) (s : State), (s.hubOff = false) ∧ (poisoned = false) ∧ (be = 15#4) ∧ (s.replaying = false ∨ q.toNat < 1024))
    ∧ (∃ (n : ℕ) (index : ℕ) (host : Bool) (s : State), (queueKind n = 0 ∨ (s.queue n).enabled = false ∨ (s.queue n).faulted = true ∨ host = true ∧ (s.queue n).kind = 1 ∧ n < 1024))
    ∧ (∃ (n : ℕ) (index : ℕ) (host : Bool) (s : State), (¬(queueKind n = 0 ∨ (s.queue n).enabled = false ∨ (s.queue n).faulted = true ∨ host = true ∧ (s.queue n).kind = 1 ∧ n < 1024)) ∧ (2 ^ 31 < (index + 2 ^ 32 - if queueKind n = 1 then (s.queue n).producer else (s.queue n).consumer) % 2 ^ 32 ∨ (index + 2 ^ 32 - if queueKind n = 1 then (s.queue n).producer else (s.queue n).consumer) % 2 ^ 32 ≠ 0 ∧ if queueKind n = 1 then (s.queue n).size < (s.queue n).used + (index + 2 ^ 32 - if queueKind n = 1 then (s.queue n).producer else (s.queue n).consumer) % 2 ^ 32 else (s.queue n).used < (index + 2 ^ 32 - if queueKind n = 1 then (s.queue n).producer else (s.queue n).consumer) % 2 ^ 32))
    ∧ (∃ (n : ℕ) (index : ℕ) (host : Bool) (s : State), (¬(queueKind n = 0 ∨ (s.queue n).enabled = false ∨ (s.queue n).faulted = true ∨ host = true ∧ (s.queue n).kind = 1 ∧ n < 1024)) ∧ (¬(2 ^ 31 < (index + 2 ^ 32 - if queueKind n = 1 then (s.queue n).producer else (s.queue n).consumer) % 2 ^ 32 ∨ (index + 2 ^ 32 - if queueKind n = 1 then (s.queue n).producer else (s.queue n).consumer) % 2 ^ 32 ≠ 0 ∧ if queueKind n = 1 then (s.queue n).size < (s.queue n).used + (index + 2 ^ 32 - if queueKind n = 1 then (s.queue n).producer else (s.queue n).consumer) % 2 ^ 32 else (s.queue n).used < (index + 2 ^ 32 - if queueKind n = 1 then (s.queue n).producer else (s.queue n).consumer) % 2 ^ 32)) ∧ ((index + 2 ^ 32 - if queueKind n = 1 then (s.queue n).producer else (s.queue n).consumer) % 2 ^ 32 = 0))
    ∧ (∃ (n : ℕ) (index : ℕ) (host : Bool) (s : State), (¬(queueKind n = 0 ∨ (s.queue n).enabled = false ∨ (s.queue n).faulted = true ∨ host = true ∧ (s.queue n).kind = 1 ∧ n < 1024)) ∧ (¬(2 ^ 31 < (index + 2 ^ 32 - if queueKind n = 1 then (s.queue n).producer else (s.queue n).consumer) % 2 ^ 32 ∨ (index + 2 ^ 32 - if queueKind n = 1 then (s.queue n).producer else (s.queue n).consumer) % 2 ^ 32 ≠ 0 ∧ if queueKind n = 1 then (s.queue n).size < (s.queue n).used + (index + 2 ^ 32 - if queueKind n = 1 then (s.queue n).producer else (s.queue n).consumer) % 2 ^ 32 else (s.queue n).used < (index + 2 ^ 32 - if queueKind n = 1 then (s.queue n).producer else (s.queue n).consumer) % 2 ^ 32)) ∧ ((index + 2 ^ 32 - if queueKind n = 1 then (s.queue n).producer else (s.queue n).consumer) % 2 ^ 32 ≠ 0) ∧ (queueKind n = 1))
    ∧ (∃ (n : ℕ) (index : ℕ) (host : Bool) (s : State), (¬(queueKind n = 0 ∨ (s.queue n).enabled = false ∨ (s.queue n).faulted = true ∨ host = true ∧ (s.queue n).kind = 1 ∧ n < 1024)) ∧ (¬(2 ^ 31 < (index + 2 ^ 32 - if queueKind n = 1 then (s.queue n).producer else (s.queue n).consumer) % 2 ^ 32 ∨ (index + 2 ^ 32 - if queueKind n = 1 then (s.queue n).producer else (s.queue n).consumer) % 2 ^ 32 ≠ 0 ∧ if queueKind n = 1 then (s.queue n).size < (s.queue n).used + (index + 2 ^ 32 - if queueKind n = 1 then (s.queue n).producer else (s.queue n).consumer) % 2 ^ 32 else (s.queue n).used < (index + 2 ^ 32 - if queueKind n = 1 then (s.queue n).producer else (s.queue n).consumer) % 2 ^ 32)) ∧ ((index + 2 ^ 32 - if queueKind n = 1 then (s.queue n).producer else (s.queue n).consumer) % 2 ^ 32 ≠ 0) ∧ (queueKind n ≠ 1))
    ∧ (∃ (acc : Sys2Proof.Acc) (s : State) (s2 : State) (w : Word), (s.written pgFENCE 32 acc = some (s2, w)) ∧ (F.FENCE_INC_inc.ext w = 0 ∨ acc.req = Requester.xs))
    ∧ (∃ (acc : Sys2Proof.Acc) (s : State) (s2 : State) (w : Word), (s.written pgFENCE 32 acc = some (s2, w)) ∧ (F.FENCE_INC_inc.ext w ≠ 0) ∧ (acc.req ≠ Requester.xs) ∧ (s2.replaying = false))
    ∧ (∃ (acc : Sys2Proof.Acc) (s : State) (s2 : State) (w : Word), (s.written pgFENCE 32 acc = some (s2, w)) ∧ (F.FENCE_INC_inc.ext w ≠ 0) ∧ (acc.req ≠ Requester.xs) ∧ (s2.replaying = true)) :=
  ⟨⟨(0x400#20), 15#4, 9#32, true, wQUsed, by decide +kernel⟩,
    ⟨(0x400#20), 3#4, 9#32, false, wQUsed, by decide +kernel⟩,
    ⟨(0x400#20), 15#4, 9#32, false, (wQs 0x400 1).put F.JRN_STATUS_state 3, by decide +kernel⟩,
    ⟨(0x400#20), 15#4, 9#32, false, (wQs 0x400 1), by decide +kernel⟩,
    ⟨0x102, 5, true, wQUsed, by decide +kernel⟩,
    ⟨0x80, 6, true, wQUsed, by decide +kernel⟩,
    ⟨0x80, 0, true, wQUsed, by decide +kernel⟩,
    ⟨0x400, 16, true, (wQs 0x400 1), by decide +kernel⟩,
    ⟨0x80, 5, false, wQUsed, by decide +kernel⟩,
    ⟨(wAcc 0x00000005), wFence, (wFIncWr wFence 0x00000005).1, (wFIncWr wFence 0x00000005).2, by decide +kernel⟩,
    ⟨(wAcc 0x00070005), wFence, (wFIncWr wFence 0x00070005).1, (wFIncWr wFence 0x00070005).2, by decide +kernel⟩,
    ⟨(wAcc 0x00070005), (wFence.put F.JRN_STATUS_state 3), (wFIncWr (wFence.put F.JRN_STATUS_state 3) 0x00070005).1, (wFIncWr (wFence.put F.JRN_STATUS_state 3) 0x00070005).2, by decide +kernel⟩⟩

theorem test_meets_Queues_4 :
    (∃ (o : ℕ) (n : ℕ) (s : State), (s.fence o + n < 2 ^ 64))
    ∧ (∃ (o : ℕ) (n : ℕ) (s : State), (2 ^ 64 ≤ s.fence o + n) ∧ (o < 4096))
    ∧ (∃ (acc : Sys2Proof.Acc) (s : State) (s2 : State) (w : Word), (s.written pgFENCE 264 acc = some (s2, w)) ∧ (BitVec.getLsbD w 31 = false))
    ∧ (∃ (acc : Sys2Proof.Acc) (s : State) (s2 : State) (w : Word), (s.written pgFENCE 264 acc = some (s2, w)) ∧ (BitVec.getLsbD w 31 = true) ∧ (s2.get F.JRN_CTRL_mode = 0 ∧ (s2.fence (F.FENCE_SET_CMD_object.ext w) ≤ s2.addr F.FENCE_SET_LO_value ∨ s2.fenceWaited (F.FENCE_SET_CMD_object.ext w) = false)))
    ∧ (∃ (acc : Sys2Proof.Acc) (s : State) (s2 : State) (w : Word), (s.written pgFENCE 264 acc = some (s2, w)) ∧ (BitVec.getLsbD w 31 = true) ∧ (¬(s2.get F.JRN_CTRL_mode = 0 ∧ (s2.fence (F.FENCE_SET_CMD_object.ext w) ≤ s2.addr F.FENCE_SET_LO_value ∨ s2.fenceWaited (F.FENCE_SET_CMD_object.ext w) = false))))
    ∧ (∃ (acc : Sys2Proof.Acc) (s : State) (s2 : State) (w : Word), (s.written pgFENCE 264 acc = some (s2, w)))
    ∧ (∃ (id : JobId) (s : State) (j : Job) (b : List Byte), (s.commandAt id 7 (fieldAt b 0 1) = some (j, b)) ∧ (¬((fieldAt b 0 1 = 1 ∨ fieldAt b 0 1 = 2) ∧ fieldAt b 1 1 < 4 ∧ fieldAt b 2 2 = 0 ∧ 32 ≤ fieldAt b 24 8 ∧ fieldAt b 24 8 ≤ 2 ^ 36 ∧ fieldAt b 24 8 % 32 = 0 ∧ fieldAt b 8 8 % 32 = 0 ∧ fieldAt b 16 8 % 32 = 0 ∧ (fieldAt b 0 1 = 1 → fieldAt b 1 1 % 2 = 0 → touchesRedBuf (fieldAt b 8 8) (fieldAt b 24 8) = false) ∧ (fieldAt b 1 1 / 2 % 2 = 0 → touchesRedBuf (fieldAt b 16 8) (fieldAt b 24 8) = false))))
    ∧ (∃ (id : JobId) (s : State) (j : Job) (b : List Byte), (s.commandAt id 7 (fieldAt b 0 1) = some (j, b)) ∧ ((fieldAt b 0 1 = 1 ∨ fieldAt b 0 1 = 2) ∧ fieldAt b 1 1 < 4 ∧ fieldAt b 2 2 = 0 ∧ 32 ≤ fieldAt b 24 8 ∧ fieldAt b 24 8 ≤ 2 ^ 36 ∧ fieldAt b 24 8 % 32 = 0 ∧ fieldAt b 8 8 % 32 = 0 ∧ fieldAt b 16 8 % 32 = 0 ∧ (fieldAt b 0 1 = 1 → fieldAt b 1 1 % 2 = 0 → touchesRedBuf (fieldAt b 8 8) (fieldAt b 24 8) = false) ∧ (fieldAt b 1 1 / 2 % 2 = 0 → touchesRedBuf (fieldAt b 16 8) (fieldAt b 24 8) = false)) ∧ (fieldAt b 0 1 = 2))
    ∧ (∃ (id : JobId) (s : State) (j : Job) (b : List Byte), (s.commandAt id 7 (fieldAt b 0 1) = some (j, b)) ∧ ((fieldAt b 0 1 = 1 ∨ fieldAt b 0 1 = 2) ∧ fieldAt b 1 1 < 4 ∧ fieldAt b 2 2 = 0 ∧ 32 ≤ fieldAt b 24 8 ∧ fieldAt b 24 8 ≤ 2 ^ 36 ∧ fieldAt b 24 8 % 32 = 0 ∧ fieldAt b 8 8 % 32 = 0 ∧ fieldAt b 16 8 % 32 = 0 ∧ (fieldAt b 0 1 = 1 → fieldAt b 1 1 % 2 = 0 → touchesRedBuf (fieldAt b 8 8) (fieldAt b 24 8) = false) ∧ (fieldAt b 1 1 / 2 % 2 = 0 → touchesRedBuf (fieldAt b 16 8) (fieldAt b 24 8) = false)) ∧ (fieldAt b 0 1 = 1) ∧ (fieldAt b 1 1 % 2 = 0))
    ∧ (∃ (id : JobId) (s : State) (j : Job) (b : List Byte), (s.commandAt id 7 (fieldAt b 0 1) = some (j, b)) ∧ ((fieldAt b 0 1 = 1 ∨ fieldAt b 0 1 = 2) ∧ fieldAt b 1 1 < 4 ∧ fieldAt b 2 2 = 0 ∧ 32 ≤ fieldAt b 24 8 ∧ fieldAt b 24 8 ≤ 2 ^ 36 ∧ fieldAt b 24 8 % 32 = 0 ∧ fieldAt b 8 8 % 32 = 0 ∧ fieldAt b 16 8 % 32 = 0 ∧ (fieldAt b 0 1 = 1 → fieldAt b 1 1 % 2 = 0 → touchesRedBuf (fieldAt b 8 8) (fieldAt b 24 8) = false) ∧ (fieldAt b 1 1 / 2 % 2 = 0 → touchesRedBuf (fieldAt b 16 8) (fieldAt b 24 8) = false)) ∧ (fieldAt b 0 1 = 1) ∧ (fieldAt b 1 1 % 2 = 1))
    ∧ (∃ (j : Job) (host : Bool) (a : ℕ) (n : ℕ) (ws : List (List Byte × Bool)) (s : State), ((ws.any fun (x : List Byte × Bool) => x.2) = true))
    ∧ (∃ (j : Job) (host : Bool) (a : ℕ) (n : ℕ) (ws : List (List Byte × Bool)) (s : State), ((ws.any fun (x : List Byte × Bool) => x.2) = false)) :=
  ⟨⟨9, 3, wRun, by decide +kernel⟩,
    ⟨9, 3, { wRun with fences := [(9, 2 ^ 64 - 2)] }, by decide +kernel⟩,
    ⟨(wAcc 5), wFenceX, (wFSetWr wFenceX 5).1, (wFSetWr wFenceX 5).2, by decide +kernel⟩,
    ⟨(wAcc 0x80000005), wFenceX, (wFSetWr wFenceX 0x80000005).1, (wFSetWr wFenceX 0x80000005).2, by decide +kernel⟩,
    ⟨(wAcc 0x80000005), (wFenceX.put F.JRN_CTRL_mode 1), (wFSetWr (wFenceX.put F.JRN_CTRL_mode 1) 0x80000005).1, (wFSetWr (wFenceX.put F.JRN_CTRL_mode 1) 0x80000005).2, by decide +kernel⟩,
    ⟨(wAcc 0x80000005), wFenceX, (wFSetWr wFenceX 0x80000005).1, (wFSetWr wFenceX 0x80000005).2, by decide +kernel⟩,
    ⟨wId, (wDmaS (wDma 2 0 0x11223344 0 (hubBase + 0x8021) 64)), wDJob, (wDma 2 0 0x11223344 0 (hubBase + 0x8021) 64), by decide +kernel⟩,
    ⟨wId, (wDmaS (wDma 2 0 0x11223344 0 (hubBase + 0x8020) 64)), wDJob, (wDma 2 0 0x11223344 0 (hubBase + 0x8020) 64), by decide +kernel⟩,
    ⟨wId, (wDmaS (wDma 1 0 0 (hubBase + 0x8000) (hubBase + 0x8020) 64)), wDJob, (wDma 1 0 0 (hubBase + 0x8000) (hubBase + 0x8020) 64), by decide +kernel⟩,
    ⟨wId, (wDmaS (wDma 1 3 0 0x2000 0x1000 64)), wDJob, (wDma 1 3 0 0x2000 0x1000 64), by decide +kernel⟩,
    ⟨wDJob, true, 0x1000, 64, [((List.replicate 32 3#8, false)), (List.replicate 32 3#8, true)], (wDmaS (wDma 1 0 0 (hubBase + 0x8000) (hubBase + 0x8020) 64)), by decide +kernel⟩,
    ⟨wDJob, false, (hubBase + 0x8000), 64, [((List.replicate 32 3#8, false))], (wDmaS (wDma 1 0 0 (hubBase + 0x8000) (hubBase + 0x8020) 64)), by decide +kernel⟩⟩

theorem test_meets_Queues_5 :
    (∃ (j : Job) (host : Bool) (a : ℕ) (n : ℕ) (ws : List (List Byte × Bool)) (s : State), (a % 32 = 0) ∧ (s.spilled = []) ∧ (s.cond = []) ∧ (∀ i < n / 32, s.storeAt (a + 32 * i) = true))
    ∧ (∃ (j : Job) (host : Bool) (a : ℕ) (n : ℕ) (ws : List (List Byte × Bool)) (s : State), (a % 32 = 0) ∧ (s.plainStore a (32 * ws.length) = true) ∧ ((ws.all fun (w : List Byte × Bool) => w.1.length == 32 && !w.2) = true)) :=
  ⟨⟨wDJob, false, (hubBase + 0x8000), 64, [((List.replicate 32 3#8, false))], (wDmaS (wDma 1 0 0 (hubBase + 0x8000) (hubBase + 0x8020) 64)), by decide +kernel⟩,
    ⟨wDJob, false, (hubBase + 0x8000), 64, [((List.replicate 32 3#8, false)), ((List.replicate 32 3#8, false))], (wDmaS (wDma 1 0 0 (hubBase + 0x8000) (hubBase + 0x8020) 64)), by decide +kernel⟩⟩

theorem test_meets_Jobs_1 :
    (∃ (s : State), (s.get F.QENG_STATUS_state ≠ 1 ∨ s.nextQueue = none))
    ∧ (∃ (s : State) (q : Nat), s.get F.QENG_STATUS_state = 1 ∧ s.nextQueue = some q ∧ (let v := s.queue q; let d := s.load (v.ring + v.consumer % v.size * 64) 64; let m := d.1.setQueue q { v with consumer := (v.consumer + 1) % 2 ^ 32, inFlight := v.inFlight + 1 }; let j : Job := { queue := q, index := v.consumer, desc := d.2.1, prio := v.flags.testBit 2, program := fieldAt d.2.1 8 8, exact := (fieldAt d.2.1 1 1).testBit 0 }; let h := if j.isArray then { m with qPtr := (q + 1) % 2 ^ 20 }.readHeader j.primary else ({ m with qPtr := (q + 1) % 2 ^ 20 }, []); let w := fun (k : Nat) => fieldAt j.desc k 2 / 4096 % 8; let reason := if j.cls = 0 ∨ 7 < j.cls then 1 else if 64 ≤ j.flags ∨ w 0x30 ≠ 0 ∨ w 0x32 ≠ 0 ∨ w 0x34 ≠ 0 ∨ w 0x36 ≠ 0 then 2 else if 16 < j.tdCount ∨ j.tdTable % 64 ≠ 0 ∨ h.1.inMemory j.tdTable (max 1 (64 * j.tdCount)) = false then 3 else if 10000000 < j.deadline ∨ (j.safety = true ∧ j.deadline = 0) then 4 else if j.isArray = true ∧ h.1.imageOk h.2 (j.cls == 2) = false then 5 else if 128 ≤ j.cq ∨ (h.1.queue (0x80 + j.cq)).enabled = false then 6 else if j.cls = 3 ∧ j.queue ≠ h.1.get F.FUS_QUEUE_queue then 7 else 0; let t := if reason = 0 ∨ 3 < reason then h.1.readTds j else (h.1, [], false); (d.2.2 = false ∧ t.2.2 = false ∧ reason = 0)))
    ∧ (∃ (s : State) (q : Nat), s.get F.QENG_STATUS_state = 1 ∧ s.nextQueue = some q ∧ (let v := s.queue q; let d := s.load (v.ring + v.consumer % v.size * 64) 64; let m := d.1.setQueue q { v with consumer := (v.consumer + 1) % 2 ^ 32, inFlight := v.inFlight + 1 }; let j : Job := { queue := q, index := v.consumer, desc := d.2.1, prio := v.flags.testBit 2, program := fieldAt d.2.1 8 8, exact := (fieldAt d.2.1 1 1).testBit 0 }; let h := if j.isArray then { m with qPtr := (q + 1) % 2 ^ 20 }.readHeader j.primary else ({ m with qPtr := (q + 1) % 2 ^ 20 }, []); let w := fun (k : Nat) => fieldAt j.desc k 2 / 4096 % 8; let reason := if j.cls = 0 ∨ 7 < j.cls then 1 else if 64 ≤ j.flags ∨ w 0x30 ≠ 0 ∨ w 0x32 ≠ 0 ∨ w 0x34 ≠ 0 ∨ w 0x36 ≠ 0 then 2 else if 16 < j.tdCount ∨ j.tdTable % 64 ≠ 0 ∨ h.1.inMemory j.tdTable (max 1 (64 * j.tdCount)) = false then 3 else if 10000000 < j.deadline ∨ (j.safety = true ∧ j.deadline = 0) then 4 else if j.isArray = true ∧ h.1.imageOk h.2 (j.cls == 2) = false then 5 else if 128 ≤ j.cq ∨ (h.1.queue (0x80 + j.cq)).enabled = false then 6 else if j.cls = 3 ∧ j.queue ≠ h.1.get F.FUS_QUEUE_queue then 7 else 0; let t := if reason = 0 ∨ 3 < reason then h.1.readTds j else (h.1, [], false); (d.2.2 = false ∧ t.2.2 = false ∧ reason ≠ 0)))
    ∧ (∃ (s : State) (q : Nat), s.get F.QENG_STATUS_state = 1 ∧ s.nextQueue = some q ∧ (let v := s.queue q; let d := s.load (v.ring + v.consumer % v.size * 64) 64; let m := d.1.setQueue q { v with consumer := (v.consumer + 1) % 2 ^ 32, inFlight := v.inFlight + 1 }; let j : Job := { queue := q, index := v.consumer, desc := d.2.1, prio := v.flags.testBit 2, program := fieldAt d.2.1 8 8, exact := (fieldAt d.2.1 1 1).testBit 0 }; let h := if j.isArray then { m with qPtr := (q + 1) % 2 ^ 20 }.readHeader j.primary else ({ m with qPtr := (q + 1) % 2 ^ 20 }, []); let w := fun (k : Nat) => fieldAt j.desc k 2 / 4096 % 8; let reason := if j.cls = 0 ∨ 7 < j.cls then 1 else if 64 ≤ j.flags ∨ w 0x30 ≠ 0 ∨ w 0x32 ≠ 0 ∨ w 0x34 ≠ 0 ∨ w 0x36 ≠ 0 then 2 else if 16 < j.tdCount ∨ j.tdTable % 64 ≠ 0 ∨ h.1.inMemory j.tdTable (max 1 (64 * j.tdCount)) = false then 3 else if 10000000 < j.deadline ∨ (j.safety = true ∧ j.deadline = 0) then 4 else if j.isArray = true ∧ h.1.imageOk h.2 (j.cls == 2) = false then 5 else if 128 ≤ j.cq ∨ (h.1.queue (0x80 + j.cq)).enabled = false then 6 else if j.cls = 3 ∧ j.queue ≠ h.1.get F.FUS_QUEUE_queue then 7 else 0; let t := if reason = 0 ∨ 3 < reason then h.1.readTds j else (h.1, [], false); (d.2.2 = true ∨ t.2.2 = true)))
    ∧ (∃ (a : ℕ) (n : ℕ) (j : Job) (s : State), ((s.load a 128).2.2 = true))
    ∧ (∃ (a : ℕ) (n : ℕ) (j : Job) (s : State), ((s.load a 128).2.2 = false))
    ∧ (∃ (a : ℕ) (n : ℕ) (j : Job) (s : State), (j.tdCount = 0))
    ∧ (∃ (a : ℕ) (n : ℕ) (j : Job) (s : State), (j.tdCount ≠ 0))
    ∧ (∃ (a : ℕ) (n : ℕ) (j : Job) (s : State), (s.plainAt a = true) ∧ (s.oneRegion a n = true) ∧ (s.cond = []))
    ∧ (∃ (a : ℕ) (n : ℕ) (j : Job) (s : State), (s.storeAt a = false))
    ∧ (∃ (id : JobId) (s : State) (j : Job), (s.jobOf id = some j))
    ∧ (∃ (id : JobId) (s : State) (j : Job), (s.jobOf id = some j) ∧ (¬(j.stage = Stage.waiting ∧ s.waitsMet j = true))) :=
  ⟨⟨wQOff, by decide +kernel⟩,
    ⟨(wTake (wDesc 1 0 1) (wImg 0)), 0x400, by decide +kernel⟩,
    ⟨(wTake (wDesc 1 0 0) []), 0x400, by decide +kernel⟩,
    ⟨wTakeP, 0x400, by decide +kernel⟩,
    ⟨0, 64, (wWait (wDesc 1 0 1) (wImg 0)), (wTake (wDesc 1 0 1) (wImg 0)), by decide +kernel⟩,
    ⟨(hubBase + 0x9000), 64, (wWait (wDesc 1 0 1) (wImg 0)), (wTake (wDesc 1 0 1) (wImg 0)), by decide +kernel⟩,
    ⟨(hubBase + 0x9000), 64, (wWait (wDesc 1 0 0) (wImg 0)), (wTake (wDesc 1 0 1) (wImg 0)), by decide +kernel⟩,
    ⟨(hubBase + 0x9000), 64, (wWait (wDesc 1 0 1) (wImg 0)), (wTake (wDesc 1 0 1) (wImg 0)), by decide +kernel⟩,
    ⟨(hubBase + 0x9000), 64, (wWait (wDesc 1 0 1) (wImg 0)), (wTake (wDesc 1 0 1) (wImg 0)), by decide +kernel⟩,
    ⟨0, 64, (wWait (wDesc 1 0 1) (wImg 0)), (wTake (wDesc 1 0 1) (wImg 0)), by decide +kernel⟩,
    ⟨wId, (wRel (wDesc 1 0 0) (wImg 0)), (wWait (wDesc 1 0 0) (wImg 0)), by decide +kernel⟩,
    ⟨wId, (wAbort wPlA), wPlA, by decide +kernel⟩⟩

theorem test_meets_Jobs_2 :
    (∃ (id : JobId) (s : State) (j : Job), (s.jobOf id = some j) ∧ (j.stage = Stage.waiting ∧ s.waitsMet j = true) ∧ (j.isArray = false))
    ∧ (∃ (id : JobId) (s : State) (j : Job), (s.jobOf id = some j) ∧ (j.stage = Stage.waiting ∧ s.waitsMet j = true) ∧ (j.isArray = true) ∧ ((if s.replaying = true then s.recordedChoice j else none) = some true) ∧ (j.altValid = true ∧ (if j.altValid = true then s.readHeader j.alternate else (s, [])).1.imageOk (if j.altValid = true then s.readHeader j.alternate else (s, [])).2 (j.cls == 2) = true ∧ (if j.altValid = true then s.readHeader j.alternate else (s, [])).1.placeable (if j.altValid = true then s.readHeader j.alternate else (s, [])).2 = true))
    ∧ (∃ (id : JobId) (s : State) (j : Job), (s.jobOf id = some j) ∧ (j.stage = Stage.waiting ∧ s.waitsMet j = true) ∧ (j.isArray = true) ∧ ((if s.replaying = true then s.recordedChoice j else none) = some true) ∧ (¬(j.altValid = true ∧ (if j.altValid = true then s.readHeader j.alternate else (s, [])).1.imageOk (if j.altValid = true then s.readHeader j.alternate else (s, [])).2 (j.cls == 2) = true ∧ (if j.altValid = true then s.readHeader j.alternate else (s, [])).1.placeable (if j.altValid = true then s.readHeader j.alternate else (s, [])).2 = true)))
    ∧ (∃ (id : JobId) (s : State) (j : Job), (s.jobOf id = some j) ∧ (j.stage = Stage.waiting ∧ s.waitsMet j = true) ∧ (j.isArray = true) ∧ ((if s.replaying = true then s.recordedChoice j else none) = some false) ∧ ((if j.altValid = true then s.readHeader j.alternate else (s, [])).1.placeable j.header = true))
    ∧ (∃ (id : JobId) (s : State) (j : Job), (s.jobOf id = some j) ∧ (j.stage = Stage.waiting ∧ s.waitsMet j = true) ∧ (j.isArray = true) ∧ ((if s.replaying = true then s.recordedChoice j else none) = some false) ∧ ((if j.altValid = true then s.readHeader j.alternate else (s, [])).1.placeable j.header = false))
    ∧ (∃ (id : JobId) (s : State) (j : Job), (s.jobOf id = some j) ∧ (j.stage = Stage.waiting ∧ s.waitsMet j = true) ∧ (j.isArray = true) ∧ ((if s.replaying = true then s.recordedChoice j else none) = none) ∧ ((if j.altValid = true then s.readHeader j.alternate else (s, [])).1.placeable j.header = true))
    ∧ (∃ (id : JobId) (s : State) (j : Job), (s.jobOf id = some j) ∧ (j.stage = Stage.waiting ∧ s.waitsMet j = true) ∧ (j.isArray = true) ∧ ((if s.replaying = true then s.recordedChoice j else none) = none) ∧ ((if j.altValid = true then s.readHeader j.alternate else (s, [])).1.placeable j.header = false) ∧ (j.altValid = true ∧ (if j.altValid = true then s.readHeader j.alternate else (s, [])).1.imageOk (if j.altValid = true then s.readHeader j.alternate else (s, [])).2 (j.cls == 2) = true ∧ (if j.altValid = true then s.readHeader j.alternate else (s, [])).1.placeable (if j.altValid = true then s.readHeader j.alternate else (s, [])).2 = true))
    ∧ (∃ (id : JobId) (s : State) (j : Job), (s.jobOf id = some j) ∧ (j.stage = Stage.waiting ∧ s.waitsMet j = true) ∧ (j.isArray = true) ∧ ((if s.replaying = true then s.recordedChoice j else none) = none) ∧ ((if j.altValid = true then s.readHeader j.alternate else (s, [])).1.placeable j.header = false) ∧ (¬(j.altValid = true ∧ (if j.altValid = true then s.readHeader j.alternate else (s, [])).1.imageOk (if j.altValid = true then s.readHeader j.alternate else (s, [])).2 (j.cls == 2) = true ∧ (if j.altValid = true then s.readHeader j.alternate else (s, [])).1.placeable (if j.altValid = true then s.readHeader j.alternate else (s, [])).2 = true)))
    ∧ (∃ (j : Job) (alt : Bool) (rel : Bool) (h : List Byte) (st : ℕ) (fl : ℕ) (s : State), (j.isArray = false))
    ∧ (∃ (j : Job) (alt : Bool) (rel : Bool) (h : List Byte) (st : ℕ) (fl : ℕ) (s : State), (j.isArray = true))
    ∧ (∃ (j : Job) (alt : Bool) (rel : Bool) (h : List Byte) (st : ℕ) (fl : ℕ) (s : State) (d : ℕ), (d < 2))
    ∧ (∃ (id : JobId) (arrays : List Arr) (s : State) (j : Job), (s.jobOf id = some j) ∧ (s.placeTurn j = false)) :=
  ⟨⟨wId, (wRel (wDesc 7 4 0) []), (wWait (wDesc 7 4 0) []), by decide +kernel⟩,
    ⟨wId, (wChoice 1 1 (wDesc 1 16 0) wImgG), (wWait (wDesc 1 16 0) wImgG), by decide +kernel⟩,
    ⟨wId, (wChoice 1 1 (wDesc 1 0 0) (wImg 0)), (wWait (wDesc 1 0 0) (wImg 0)), by decide +kernel⟩,
    ⟨wId, (wChoice 0 1 (wDesc 1 0 0) (wImg 0)), (wWait (wDesc 1 0 0) (wImg 0)), by decide +kernel⟩,
    ⟨wId, (wChoice 0 1 (wDesc 1 0 0) wImgG), (wWait (wDesc 1 0 0) wImgG), by decide +kernel⟩,
    ⟨wId, (wRel (wDesc 1 0 0) (wImg 0)), (wWait (wDesc 1 0 0) (wImg 0)), by decide +kernel⟩,
    ⟨wId, (wRel (wDesc 1 16 0) wImgG), (wWait (wDesc 1 16 0) wImgG), by decide +kernel⟩,
    ⟨wId, (wRel (wDesc 1 4 0) wImgG), (wWait (wDesc 1 4 0) wImgG), by decide +kernel⟩,
    ⟨(wWait (wDesc 7 4 0) []), false, true, [], 4, 1, (wRel (wDesc 7 4 0) []), by decide +kernel⟩,
    ⟨(wWait (wDesc 1 4 0) (wImg 0)), false, true, (wImg 0), 4, 1, (wRel (wDesc 1 4 0) (wImg 0)), by decide +kernel⟩,
    ⟨(wWait (wDesc 1 4 0) (wImg 0)), false, true, (wImg 0), 4, 1, (wRel (wDesc 1 4 0) (wImg 0)), 1, by decide +kernel⟩,
    ⟨wId, [], (wAbort wDoneJ), wDoneJ, by decide +kernel⟩⟩

theorem test_meets_Jobs_3 :
    (∃ (id : JobId) (arrays : List Arr) (s : State) (j : Job), (s.jobOf id = some j) ∧ (s.placeTurn j = true) ∧ (j.isArray = true) ∧ (¬(arrays ≠ [] ∧ (List.map arrNum arrays).length ≤ (List.filter (fun (k : SlotSt) => decide (k.phase = 0)) j.slots).length ∧ (List.map arrNum arrays).Nodup ∧ s.get F.PWR_STATE_state = 4 ∧ s.pwr.warming = false ∧ (j.gang = true → (List.map arrNum arrays).length = (List.filter (fun (k : SlotSt) => decide (k.phase = 0)) j.slots).length ∧ ∀ n ∈ List.map arrNum arrays, j.granted.contains (n / 24) = true ∨ { j with stage := Stage.placed, exact := j.exact || j.stage == Stage.released && s.flag F.DET_CTRL_force_exact, slots := giveSlots j.slots (List.map arrNum arrays), dip := j.dip || s.dipOpen 4 }.grantSize ≤ s.redFree (n / 24)) ∧ ∀ n ∈ List.map arrNum arrays, n < 96 ∧ s.fits j n = true ∧ (s.arrOpen n = true ∨ s.reclaimable j (List.map arrNum arrays) n = true))))
    ∧ (∃ (id : JobId) (arrays : List Arr) (s : State) (j : Job), (s.jobOf id = some j) ∧ (s.placeTurn j = true) ∧ (j.isArray = true) ∧ (arrays ≠ [] ∧ (List.map arrNum arrays).length ≤ (List.filter (fun (k : SlotSt) => decide (k.phase = 0)) j.slots).length ∧ (List.map arrNum arrays).Nodup ∧ s.get F.PWR_STATE_state = 4 ∧ s.pwr.warming = false ∧ (j.gang = true → (List.map arrNum arrays).length = (List.filter (fun (k : SlotSt) => decide (k.phase = 0)) j.slots).length ∧ ∀ n ∈ List.map arrNum arrays, j.granted.contains (n / 24) = true ∨ { j with stage := Stage.placed, exact := j.exact || j.stage == Stage.released && s.flag F.DET_CTRL_force_exact, slots := giveSlots j.slots (List.map arrNum arrays), dip := j.dip || s.dipOpen 4 }.grantSize ≤ s.redFree (n / 24)) ∧ ∀ n ∈ List.map arrNum arrays, n < 96 ∧ s.fits j n = true ∧ (s.arrOpen n = true ∨ s.reclaimable j (List.map arrNum arrays) n = true)))
    ∧ (∃ (id : JobId) (arrays : List Arr) (s : State) (j : Job), (s.jobOf id = some j) ∧ (s.placeTurn j = true) ∧ (j.isArray = false) ∧ (j.cls = 3))
    ∧ (∃ (id : JobId) (arrays : List Arr) (s : State) (j : Job), (s.jobOf id = some j) ∧ (s.placeTurn j = true) ∧ (j.isArray = false) ∧ (j.cls ≠ 3) ∧ (¬((s.load j.program 32).2.2 = false ∧ List.take 4 (s.load j.program 32).2.1 = listMagic j.cls ∧ 1 ≤ fieldAt (s.load j.program 32).2.1 4 4 ∧ fieldAt (s.load j.program 32).2.1 4 4 ≤ 4096 ∧ ∀ b ∈ bytesAt (s.load j.program 32).2.1 8 24, b = 0#8)))
    ∧ (∃ (id : JobId) (arrays : List Arr) (s : State) (j : Job), (s.jobOf id = some j) ∧ (s.placeTurn j = true) ∧ (j.isArray = false) ∧ (j.cls ≠ 3) ∧ ((s.load j.program 32).2.2 = false ∧ List.take 4 (s.load j.program 32).2.1 = listMagic j.cls ∧ 1 ≤ fieldAt (s.load j.program 32).2.1 4 4 ∧ fieldAt (s.load j.program 32).2.1 4 4 ≤ 4096 ∧ ∀ b ∈ bytesAt (s.load j.program 32).2.1 8 24, b = 0#8))
    ∧ (∃ (k : SlotSt) (l : List SlotSt) (n : ℕ) (ns : List ℕ), (k.phase = 0))
    ∧ (∃ (k : SlotSt) (l : List SlotSt) (n : ℕ) (ns : List ℕ), (k.phase ≠ 0))
    ∧ (∃ (n : ℕ) (s : State), ((s.stDie (n / 24)).win ≠ some (n % 24)))
    ∧ (∃ (n : ℕ) (s : State), ((s.stDie (n / 24)).win = some (n % 24)) ∧ (n < 96))
    ∧ (∃ (id : JobId) (s : State) (j : Job), (s.jobOf id = some j) ∧ (¬(queueKind j.queue = 1 ∧ (match j.stage with | Stage.ended => true | Stage.placed => j.isArray && !j.slots.isEmpty && j.slots.all fun (k : SlotSt) => decide (k.phase = 3) | x => false) = true ∧ ∀ e ∈ s.ext, e.2.queue ≠ j.queue ∨ e.2.index ≠ j.index)))
    ∧ (∃ (id : JobId) (s : State) (j : Job), (s.jobOf id = some j) ∧ (queueKind j.queue = 1 ∧ (match j.stage with | Stage.ended => true | Stage.placed => j.isArray && !j.slots.isEmpty && j.slots.all fun (k : SlotSt) => decide (k.phase = 3) | x => false) = true ∧ ∀ e ∈ s.ext, e.2.queue ≠ j.queue ∨ e.2.index ≠ j.index))
    ∧ (∃ (j : Job) (s : State), (¬(j.safety = true ∧ j.outcome.1 ≠ 2 ∧ j.outcome.1 ≠ 11))) :=
  ⟨⟨wId, [], (wPl wPlA []), wPlA, by decide +kernel⟩,
    ⟨wId, [⟨0, 0⟩], (wPl wPlA []), wPlA, by decide +kernel⟩,
    ⟨wId, [], (wPl wPlQ []), wPlQ, by decide +kernel⟩,
    ⟨wId, [], (wPl wPlK []), wPlK, by decide +kernel⟩,
    ⟨wId, [], (wPl wPlK wListH), wPlK, by decide +kernel⟩,
    ⟨{}, [{}], 25, [3], by decide +kernel⟩,
    ⟨{ phase := 2 }, [{}], 25, [3], by decide +kernel⟩,
    ⟨0, wRun, by decide +kernel⟩,
    ⟨0, wWinSt, by decide +kernel⟩,
    ⟨wId, (wAbort wPlA), wPlA, by decide +kernel⟩,
    ⟨wId, wDone, wDoneJ, by decide +kernel⟩,
    ⟨wDoneJ, wDone, by decide +kernel⟩⟩

theorem test_meets_Jobs_4 :
    (∃ (j : Job) (s : State), (j.safety = true ∧ j.outcome.1 ≠ 2 ∧ j.outcome.1 ≠ 11))
    ∧ (∃ (j : Job) (s : State), (¬(j.outcome.1 = 0 ∨ j.outcome.1 = 1 ∨ j.sigOnFail = true)))
    ∧ (∃ (j : Job) (s : State), (j.outcome.1 = 0 ∨ j.outcome.1 = 1 ∨ j.sigOnFail = true))
    ∧ (∃ (j : Job) (s : State) (k : SlotSt), (k ∈ j.slots) ∧ (k.phase = 2))
    ∧ (∃ (j : Job) (signalled : Bool) (us : ℕ) (n : ℕ) (s : State), (j.queue < 2 ^ 32) ∧ (j.index < 2 ^ 32) ∧ (j.outcome.1 < 256) ∧ (j.outcome.2.1 < 65536) ∧ (j.outcome.2.2 < 2 ^ 32))
    ∧ (∃ (j : Job) (signalled : Bool) (us : ℕ) (n : ℕ) (s : State), ((s.queue (128 + n)).flags.testBit 1 = false))
    ∧ (∃ (j : Job) (signalled : Bool) (us : ℕ) (n : ℕ) (s : State), ((s.queue (128 + n)).flags.testBit 1 = true))
    ∧ (∃ (j : Job) (signalled : Bool) (us : ℕ) (n : ℕ) (s : State), ((s.queue (128 + n)).hasRoom = true ∧ ∀ x ∈ s.cqStaged, x.1 ≠ n))
    ∧ (∃ (j : Job) (signalled : Bool) (us : ℕ) (n : ℕ) (s : State), (¬((s.queue (128 + n)).hasRoom = true ∧ ∀ x ∈ s.cqStaged, x.1 ≠ n)) ∧ (s.cqStaged.length < 4096))
    ∧ (∃ (j : Job) (signalled : Bool) (us : ℕ) (n : ℕ) (s : State), (¬((s.queue (128 + n)).hasRoom = true ∧ ∀ x ∈ s.cqStaged, x.1 ≠ n)) ∧ (4096 ≤ s.cqStaged.length))
    ∧ (∃ (cq : Fin 128) (s : State) (e : ℕ × List Byte), ((∀ x ∈ s.cqStaged, x.1 ≠ ↑cq) ∨ ¬(s.queue (128 + ↑cq)).hasRoom = true))
    ∧ (∃ (cq : Fin 128) (s : State) (e : ℕ × List Byte), (List.find? (fun (x : ℕ × List Byte) => decide (x.1 = ↑cq)) s.cqStaged = some e) ∧ ((s.queue (128 + ↑cq)).hasRoom = true)) :=
  ⟨⟨wDoneS, (wPl wDoneS []), by decide +kernel⟩,
    ⟨(wDoneJ.report 3 0 0), wDone, by decide +kernel⟩,
    ⟨wDoneJ, wDone, by decide +kernel⟩,
    ⟨wSlots2, { wRedSt with jobs := [wSlots2] }, { phase := 2, die := 0, logical := 0 }, by decide +kernel⟩,
    ⟨wDoneJ, true, 5, 0, wDone, by decide +kernel⟩,
    ⟨wDoneJ, true, 5, 0, wDone, by decide +kernel⟩,
    ⟨wDoneJ, true, 5, 0, wCqMsi, by decide +kernel⟩,
    ⟨wDoneJ, true, 5, 0, wDone, by decide +kernel⟩,
    ⟨wDoneJ, true, 5, 0, wCqFull, by decide +kernel⟩,
    ⟨wDoneJ, true, 5, 0, wCqStore, by decide +kernel⟩,
    ⟨(0 : Fin 128), { wCqFull with cqStaged := [(0, leBytes 32 5)] }, (0, []), by decide +kernel⟩,
    ⟨(0 : Fin 128), wStaged, (0, leBytes 32 5), by decide +kernel⟩⟩

theorem test_meets_Jobs_5 :
    (∃ (acc : Sys2Proof.Acc) (s : State) (s2 : State) (w : Word), (s.written pgQENG 64 acc = some (s2, w)) ∧ (BitVec.getLsbD w 31 = false))
    ∧ (∃ (acc : Sys2Proof.Acc) (s : State) (s2 : State) (w : Word), (s.written pgQENG 64 acc = some (s2, w)) ∧ (BitVec.getLsbD w 31 = true) ∧ (s2.job (F.QENG_ABORT_queue.ext w) (s2.get F.QENG_ABORT_INDEX_index) = none))
    ∧ (∃ (acc : Sys2Proof.Acc) (s : State) (s2 : State) (w : Word) (j : Job), (s.written pgQENG 64 acc = some (s2, w)) ∧ (BitVec.getLsbD w 31 = true) ∧ (s2.job (F.QENG_ABORT_queue.ext w) (s2.get F.QENG_ABORT_INDEX_index) = some j) ∧ (queueKind j.queue ≠ 1))
    ∧ (∃ (acc : Sys2Proof.Acc) (s : State) (s2 : State) (w : Word) (j : Job), (s.written pgQENG 64 acc = some (s2, w)) ∧ (BitVec.getLsbD w 31 = true) ∧ (s2.job (F.QENG_ABORT_queue.ext w) (s2.get F.QENG_ABORT_INDEX_index) = some j) ∧ (queueKind j.queue = 1) ∧ (j.stage = Stage.waiting ∨ j.stage = Stage.released))
    ∧ (∃ (acc : Sys2Proof.Acc) (s : State) (s2 : State) (w : Word) (j : Job), (s.written pgQENG 64 acc = some (s2, w)) ∧ (BitVec.getLsbD w 31 = true) ∧ (s2.job (F.QENG_ABORT_queue.ext w) (s2.get F.QENG_ABORT_INDEX_index) = some j) ∧ (queueKind j.queue = 1) ∧ (j.stage = Stage.ended))
    ∧ (∃ (acc : Sys2Proof.Acc) (s : State) (s2 : State) (w : Word) (j : Job), (s.written pgQENG 64 acc = some (s2, w)) ∧ (BitVec.getLsbD w 31 = true) ∧ (s2.job (F.QENG_ABORT_queue.ext w) (s2.get F.QENG_ABORT_INDEX_index) = some j) ∧ (queueKind j.queue = 1) ∧ (j.stage = Stage.placed) ∧ (j.isArray = false))
    ∧ (∃ (acc : Sys2Proof.Acc) (s : State) (s2 : State) (w : Word) (j : Job), (s.written pgQENG 64 acc = some (s2, w)) ∧ (BitVec.getLsbD w 31 = true) ∧ (s2.job (F.QENG_ABORT_queue.ext w) (s2.get F.QENG_ABORT_INDEX_index) = some j) ∧ (queueKind j.queue = 1) ∧ (j.stage = Stage.placed) ∧ (j.isArray = true))
    ∧ (∃ (j : Job) (self : ℕ) (cause : ℕ) (s : State) (k : SlotSt), (k ∈ j.slots) ∧ (k.phase = 2) ∧ (24 * k.die + k.logical ≠ self) ∧ ((s.arr (24 * k.die + k.logical)).ending = false))
    ∧ (∃ (j : Job) (self : ℕ) (cause : ℕ) (s : State) (n : ℕ), ((∀ k ∈ j.slots, k.phase = 2 → n ≠ 24 * k.die + k.logical) ∨ n = self ∨ (s.arr n).ending = true))
    ∧ (∃ (id : JobId) (s : State) (cls : ℕ) (c : Instr), ((cls, c) ∈ [(4, Instr.p2i id), (4, Instr.p2g id), (4, Instr.f2g id), (4, Instr.delta id), (4, Instr.bias id), (5, Instr.publish id), (5, Instr.load id), (5, Instr.plan id), (6, Instr.seqOpen id), (6, Instr.seqClose id), (6, Instr.share id), (6, Instr.free id), (6, Instr.alloc id), (7, Instr.copy id), (7, Instr.fill id)]) ∧ (s.jobOf id = none))
    ∧ (∃ (id : JobId) (s : State) (cls : ℕ) (c : Instr) (j : Job), ((cls, c) ∈ [(4, Instr.p2i id), (4, Instr.p2g id), (4, Instr.f2g id), (4, Instr.delta id), (4, Instr.bias id), (5, Instr.publish id), (5, Instr.load id), (5, Instr.plan id), (6, Instr.seqOpen id), (6, Instr.seqClose id), (6, Instr.share id), (6, Instr.free id), (6, Instr.alloc id), (7, Instr.copy id), (7, Instr.fill id)]) ∧ (s.jobOf id = some j) ∧ (j.cls ≠ cls ∨ j.stage ≠ Stage.placed ∨ j.busy = true ∨ j.listCount ≤ j.cmd))
    ∧ (∃ (id : JobId) (s : State) (cls : ℕ) (c : Instr) (j : Job), ((cls, c) ∈ [(4, Instr.p2i id), (4, Instr.p2g id), (4, Instr.f2g id), (4, Instr.delta id), (4, Instr.bias id), (5, Instr.publish id), (5, Instr.load id), (5, Instr.plan id), (6, Instr.seqOpen id), (6, Instr.seqClose id), (6, Instr.share id), (6, Instr.free id), (6, Instr.alloc id), (7, Instr.copy id), (7, Instr.fill id)]) ∧ (s.jobOf id = some j) ∧ (¬(j.cls ≠ cls ∨ j.stage ≠ Stage.placed ∨ j.busy = true ∨ j.listCount ≤ j.cmd)) ∧ ((s.load (j.program + 32 + (if cls ≤ 5 then 64 else 32) * j.cmd) (if cls ≤ 5 then 64 else 32)).2.2 = true)) :=
  ⟨⟨(wAcc 0x400), wQOn, (wQAb wQOn 0x400).1, (wQAb wQOn 0x400).2, by decide +kernel⟩,
    ⟨(wAcc 0x80000400), wQOn, (wQAb wQOn 0x80000400).1, (wQAb wQOn 0x80000400).2, by decide +kernel⟩,
    ⟨(wAcc 0x80000003), (wAbort { wPlA with queue := 3 }), (wQAb (wAbort { wPlA with queue := 3 }) 0x80000003).1, (wQAb (wAbort { wPlA with queue := 3 }) 0x80000003).2, { wPlA with queue := 3 }, by decide +kernel⟩,
    ⟨(wAcc 0x80000400), (wAbort wPlA), (wQAb (wAbort wPlA) 0x80000400).1, (wQAb (wAbort wPlA) 0x80000400).2, wPlA, by decide +kernel⟩,
    ⟨(wAcc 0x80000400), (wAbort wDoneJ), (wQAb (wAbort wDoneJ) 0x80000400).1, (wQAb (wAbort wDoneJ) 0x80000400).2, wDoneJ, by decide +kernel⟩,
    ⟨(wAcc 0x80000400), (wAbort wDJob), (wQAb (wAbort wDJob) 0x80000400).1, (wQAb (wAbort wDJob) 0x80000400).2, wDJob, by decide +kernel⟩,
    ⟨(wAcc 0x80000400), (wAbort wSlots2), (wQAb (wAbort wSlots2) 0x80000400).1, (wQAb (wAbort wSlots2) 0x80000400).2, wSlots2, by decide +kernel⟩,
    ⟨wSlots2, 1, 7, (wAbort wSlots2), { phase := 2, die := 0, logical := 0 }, by decide +kernel⟩,
    ⟨wSlots2, 1, 7, (wAbort wSlots2), 1, by decide +kernel⟩,
    ⟨wId, wQOn, 6, (.share wId), by decide +kernel⟩,
    ⟨wId, wHubList, 4, (.p2g wId), wDJob, by decide +kernel⟩,
    ⟨wId, { wHubList with cond := [((hubBase + 0x2020) / 32, .many)] }, 7, (.fill wId), wDJob, by decide +kernel⟩⟩

theorem test_meets_Jobs_6 :
    (∃ (q : ℕ) (i : ℕ) (s : State), (s.clsOf q i ≠ 4))
    ∧ (∃ (q : ℕ) (i : ℕ) (s : State) (d : DWord), (s.clsOf q i ≠ 4)) :=
  ⟨⟨0x400, 0, wHubList, by decide +kernel⟩,
    ⟨0x400, 0, wHubList, 5#64, by decide +kernel⟩⟩

theorem test_meets_MainMemory_1 :
    (∃ (a : ℕ) (data : Line) (mask : Word) (poison : Bool) (code : CodeState) (cc : CodeState) (s : State), (s.region a = Region.dram) ∧ (s.dramOpen (a - dramBase) = false ∨ ∃ q ∈ s.memg.waits, q.at = a))
    ∧ (∃ (a : ℕ) (data : Line) (mask : Word) (poison : Bool) (code : CodeState) (cc : CodeState) (s : State), (s.region a = Region.dram) ∧ (¬(s.dramOpen (a - dramBase) = false ∨ ∃ q ∈ s.memg.waits, q.at = a)))
    ∧ (∃ (a : ℕ) (data : Line) (mask : Word) (poison : Bool) (code : CodeState) (cc : CodeState) (s : State), (s.region a = Region.spare ∨ (s.region a).isGap = true))
    ∧ (∃ (a : ℕ) (data : Line) (mask : Word) (poison : Bool) (code : CodeState) (cc : CodeState) (s : State), (s.region a ≠ Region.dram) ∧ (s.region a ≠ Region.spare) ∧ ((s.region a).isGap = false))
    ∧ (∃ (a : ℕ) (data : Line) (mask : Word) (poison : Bool) (code : CodeState) (cc : CodeState) (s : State), ((match tabFind (((if (((s.mc ((s.dramAt (a - dramBase)).1 / 2)).wq ((s.dramAt (a - dramBase)).1 % 2)).any fun (v : ℕ) => decide (v / 2 = (s.dramAt (a - dramBase)).2 / 64)) = true then s.put (F.MC_FWD_COUNT_count ((s.dramAt (a - dramBase)).1 / 2)) ((s.get (F.MC_FWD_COUNT_count ((s.dramAt (a - dramBase)).1 / 2)) + 1) % 2 ^ 32) else s).ccAccess ((s.dramAt (a - dramBase)).1 / 2) ((s.dramAt (a - dramBase)).1 % 2) (s.dramAt (a - dramBase)).2 false).cacheWord ((s.dramAt (a - dramBase)).1 / 2) ((s.dramAt (a - dramBase)).1 % 2) (s.dramAt (a - dramBase)).2 (a / 256 * 8) cc).cond (a / 32), code with | some c, x => some c | none, CodeState.one b => if ((s.mc ((s.dramAt (a - dramBase)).1 / 2)).wq ((s.dramAt (a - dramBase)).1 % 2)).contains ((s.dramAt (a - dramBase)).2 / 32) = true then none else some (WordCond.one b) | none, CodeState.many => if ((s.mc ((s.dramAt (a - dramBase)).1 / 2)).wq ((s.dramAt (a - dramBase)).1 % 2)).contains ((s.dramAt (a - dramBase)).2 / 32) = true then none else some WordCond.many | none, CodeState.clean => none) = none))
    ∧ (∃ (a : ℕ) (data : Line) (mask : Word) (poison : Bool) (code : CodeState) (cc : CodeState) (s : State), ((match tabFind (((if (((s.mc ((s.dramAt (a - dramBase)).1 / 2)).wq ((s.dramAt (a - dramBase)).1 % 2)).any fun (v : ℕ) => decide (v / 2 = (s.dramAt (a - dramBase)).2 / 64)) = true then s.put (F.MC_FWD_COUNT_count ((s.dramAt (a - dramBase)).1 / 2)) ((s.get (F.MC_FWD_COUNT_count ((s.dramAt (a - dramBase)).1 / 2)) + 1) % 2 ^ 32) else s).ccAccess ((s.dramAt (a - dramBase)).1 / 2) ((s.dramAt (a - dramBase)).1 % 2) (s.dramAt (a - dramBase)).2 false).cacheWord ((s.dramAt (a - dramBase)).1 / 2) ((s.dramAt (a - dramBase)).1 % 2) (s.dramAt (a - dramBase)).2 (a / 256 * 8) cc).cond (a / 32), code with | some c, x => some c | none, CodeState.one b => if ((s.mc ((s.dramAt (a - dramBase)).1 / 2)).wq ((s.dramAt (a - dramBase)).1 % 2)).contains ((s.dramAt (a - dramBase)).2 / 32) = true then none else some (WordCond.one b) | none, CodeState.many => if ((s.mc ((s.dramAt (a - dramBase)).1 / 2)).wq ((s.dramAt (a - dramBase)).1 % 2)).contains ((s.dramAt (a - dramBase)).2 / 32) = true then none else some WordCond.many | none, CodeState.clean => none) = some WordCond.poison))
    ∧ (∃ (a : ℕ) (data : Line) (mask : Word) (poison : Bool) (code : CodeState) (cc : CodeState) (s : State), ((match tabFind (((if (((s.mc ((s.dramAt (a - dramBase)).1 / 2)).wq ((s.dramAt (a - dramBase)).1 % 2)).any fun (v : ℕ) => decide (v / 2 = (s.dramAt (a - dramBase)).2 / 64)) = true then s.put (F.MC_FWD_COUNT_count ((s.dramAt (a - dramBase)).1 / 2)) ((s.get (F.MC_FWD_COUNT_count ((s.dramAt (a - dramBase)).1 / 2)) + 1) % 2 ^ 32) else s).ccAccess ((s.dramAt (a - dramBase)).1 / 2) ((s.dramAt (a - dramBase)).1 % 2) (s.dramAt (a - dramBase)).2 false).cacheWord ((s.dramAt (a - dramBase)).1 / 2) ((s.dramAt (a - dramBase)).1 % 2) (s.dramAt (a - dramBase)).2 (a / 256 * 8) cc).cond (a / 32), code with | some c, x => some c | none, CodeState.one b => if ((s.mc ((s.dramAt (a - dramBase)).1 / 2)).wq ((s.dramAt (a - dramBase)).1 % 2)).contains ((s.dramAt (a - dramBase)).2 / 32) = true then none else some (WordCond.one b) | none, CodeState.many => if ((s.mc ((s.dramAt (a - dramBase)).1 / 2)).wq ((s.dramAt (a - dramBase)).1 % 2)).contains ((s.dramAt (a - dramBase)).2 / 32) = true then none else some WordCond.many | none, CodeState.clean => none) = some WordCond.many))
    ∧ (∃ (a : ℕ) (data : Line) (mask : Word) (poison : Bool) (code : CodeState) (cc : CodeState) (s : State) (b : Fin 36), ((match tabFind (((if (((s.mc ((s.dramAt (a - dramBase)).1 / 2)).wq ((s.dramAt (a - dramBase)).1 % 2)).any fun (v : ℕ) => decide (v / 2 = (s.dramAt (a - dramBase)).2 / 64)) = true then s.put (F.MC_FWD_COUNT_count ((s.dramAt (a - dramBase)).1 / 2)) ((s.get (F.MC_FWD_COUNT_count ((s.dramAt (a - dramBase)).1 / 2)) + 1) % 2 ^ 32) else s).ccAccess ((s.dramAt (a - dramBase)).1 / 2) ((s.dramAt (a - dramBase)).1 % 2) (s.dramAt (a - dramBase)).2 false).cacheWord ((s.dramAt (a - dramBase)).1 / 2) ((s.dramAt (a - dramBase)).1 % 2) (s.dramAt (a - dramBase)).2 (a / 256 * 8) cc).cond (a / 32), code with | some c, x => some c | none, CodeState.one b => if ((s.mc ((s.dramAt (a - dramBase)).1 / 2)).wq ((s.dramAt (a - dramBase)).1 % 2)).contains ((s.dramAt (a - dramBase)).2 / 32) = true then none else some (WordCond.one b) | none, CodeState.many => if ((s.mc ((s.dramAt (a - dramBase)).1 / 2)).wq ((s.dramAt (a - dramBase)).1 % 2)).contains ((s.dramAt (a - dramBase)).2 / 32) = true then none else some WordCond.many | none, CodeState.clean => none) = some (WordCond.one b)))
    ∧ (∃ (a : ℕ) (n : ℕ) (bs : List Byte) (poison : Bool) (s : State), (s.region a = Region.spare))
    ∧ (∃ (a : ℕ) (n : ℕ) (bs : List Byte) (poison : Bool) (s : State), ((s.region a).isGap = true))
    ∧ (∃ (a : ℕ) (n : ℕ) (bs : List Byte) (poison : Bool) (s : State), (s.region a ≠ Region.spare) ∧ ((s.region a).isGap = false))
    ∧ (∃ (a : ℕ) (n : ℕ) (bs : List Byte) (poison : Bool) (s : State), (s.storeAt a = true)) :=
  ⟨⟨0x4000000000, wLine, 0xFF#32, true, .clean, .clean, wRun, by decide +kernel⟩,
    ⟨0x4000000000, wLine, 0xFF#32, true, .clean, .clean, wDram, by decide +kernel⟩,
    ⟨0, wLine, 0xFF#32, true, .clean, .clean, wDram, by decide +kernel⟩,
    ⟨hubBase, wLine, 0xFF#32, true, .clean, .clean, wDram, by decide +kernel⟩,
    ⟨0x4000000000, wLine, 0xFF#32, true, .clean, .clean, wDramQ, by decide +kernel⟩,
    ⟨0x4000000000, wLine, 0xFF#32, true, .clean, .clean, (wDramC .poison), by decide +kernel⟩,
    ⟨0x4000000000, wLine, 0xFF#32, true, .many, .clean, wDram, by decide +kernel⟩,
    ⟨0x4000000000, wLine, 0xFF#32, true, (.one 2), .clean, wDram, 2, by decide +kernel⟩,
    ⟨(dramBase + dramUsable), 7, [1#8, 2#8], false, ((wDramC .many).put F.MEMG_SPARE_reserve 1), by decide +kernel⟩,
    ⟨0, 7, [1#8, 2#8], false, (wDramC .many), by decide +kernel⟩,
    ⟨hubBase, 7, [1#8, 2#8], false, (wDramC .many), by decide +kernel⟩,
    ⟨0x4000000005, 7, [1#8, 2#8], false, (wDramC .many), by decide +kernel⟩⟩

theorem test_meets_MainMemory_2 :
    (∃ (a : ℕ) (n : ℕ) (bs : List Byte) (poison : Bool) (s : State), (s.storeAt a = true))
    ∧ (∃ (a : ℕ) (n : ℕ) (bs : List Byte) (poison : Bool) (s : State), (s.storeAt a = false))
    ∧ (∃ (a : ℕ) (n : ℕ) (bs : List Byte) (poison : Bool) (s : State), (s.get F.COLL_CTRL_enable = 0) ∧ (s.get F.XGS_CTRL_enable = 0))
    ∧ (∃ (a : ℕ) (n : ℕ) (bs : List Byte) (poison : Bool) (s : State), (s.plainStore a bs.length = true))
    ∧ (∃ (w : ℕ) (write : Bool) (s : State), (¬(s.region (w * 32) = Region.dram ∧ s.dramOpen (w * 32 - dramBase) = true)))
    ∧ (∃ (w : ℕ) (write : Bool) (s : State), (s.region (w * 32) = Region.dram ∧ s.dramOpen (w * 32 - dramBase) = true))
    ∧ (∃ (w : ℕ) (write : Bool) (s : State), (tabFind s.cond w = none ∨ tabFind s.cond w = some WordCond.poison ∨ (match s.region (w * 32) with | Region.dram => false | Region.pool n => false | Region.stack n => false | x => true) = true))
    ∧ (∃ (w : ℕ) (write : Bool) (s : State), (tabFind s.cond w = some WordCond.many) ∧ (s.region (w * 32) = Region.dram))
    ∧ (∃ (w : ℕ) (write : Bool) (s : State) (b : Fin 36), (tabFind s.cond w = some (WordCond.one b)) ∧ (s.region (w * 32) = Region.dram))
    ∧ (∃ (w : ℕ) (write : Bool) (s : State) (n : ℕ) (c' : WordCond), (tabFind s.cond w = some c') ∧ (c' ≠ WordCond.poison) ∧ (s.region (w * 32) = Region.pool n))
    ∧ (∃ (w : ℕ) (write : Bool) (s : State) (n : ℕ) (c' : WordCond), (tabFind s.cond w = some c') ∧ (c' ≠ WordCond.poison) ∧ (s.region (w * 32) = Region.stack n))
    ∧ (∃ (w : ℕ) (write : Bool) (s : State), (s.region (w * 32) ≠ Region.dram ∨ w % 2 = 1 ∨ tabFind (s.mc ((s.dramAt (w * 32 - dramBase)).1 / 2)).inject ((s.dramAt (w * 32 - dramBase)).1 % 2 * 67108864 + (s.dramAt (w * 32 - dramBase)).2 / 64) = none)) :=
  ⟨⟨0x4000000005, 7, [1#8, 2#8], false, (wDramC .many), by decide +kernel⟩,
    ⟨0, 7, [1#8, 2#8], false, (wDramC .many), by decide +kernel⟩,
    ⟨0x4000000005, 7, [1#8, 2#8], false, (wDramC .many), by decide +kernel⟩,
    ⟨hubBase, 7, [1#8, 2#8], false, wDram, by decide +kernel⟩,
    ⟨0, true, wDram, by decide +kernel⟩,
    ⟨0x200000000, true, wDramQ, by decide +kernel⟩,
    ⟨0x200000000, true, wDram, by decide +kernel⟩,
    ⟨0x200000000, true, (wDramC .many), by decide +kernel⟩,
    ⟨0x200000000, true, (wDramC (.one 2)), 2, by decide +kernel⟩,
    ⟨(poolBase 0 / 32), true, wPoolC, 0, (.one 2), by decide +kernel⟩,
    ⟨(stackBase 0 / 32 + 5), true, wStackC, 0, .many, by decide +kernel⟩,
    ⟨0, true, wDram, by decide +kernel⟩⟩

theorem test_meets_MainMemory_3 :
    (∃ (w : ℕ) (write : Bool) (s : State) (n : ℕ), (s.region (w * 32) = Region.dram) ∧ (w % 2 = 0) ∧ (tabFind (s.mc ((s.dramAt (w * 32 - dramBase)).1 / 2)).inject ((s.dramAt (w * 32 - dramBase)).1 % 2 * 67108864 + (s.dramAt (w * 32 - dramBase)).2 / 64) = some n))
    ∧ (∃ (k : ℕ) (ch : ℕ) (x : ℕ) (last : ℕ) (w' : ℕ) (write : Bool) (q : List ℕ) (s : State) (l : CcLine), (k < 16) ∧ (List.find? (fun (l : CcLine) => decide (l.line = x / 512 * 2 + ch)) (tabGet (s.mc k).cache ((x / 512 * 2 + ch) % 128) []) = some l))
    ∧ (∃ (k : ℕ) (ch : ℕ) (x : ℕ) (last : ℕ) (w' : ℕ) (write : Bool) (q : List ℕ) (s : State), (k < 16) ∧ (List.find? (fun (l : CcLine) => decide (l.line = x / 512 * 2 + ch)) (tabGet (s.mc k).cache ((x / 512 * 2 + ch) % 128) []) = none))
    ∧ (∃ (k : ℕ) (ch : ℕ) (x : ℕ) (last : ℕ) (w' : ℕ) (write : Bool) (q : List ℕ) (s : State), (k < 16))
    ∧ (∃ (k : ℕ) (ch : ℕ) (x : ℕ) (last : ℕ) (w' : ℕ) (write : Bool) (q : List ℕ) (s : State) (b : Fin 36), (k < 16))
    ∧ (∃ (k : ℕ) (ch : ℕ) (x : ℕ) (last : ℕ) (w' : ℕ) (write : Bool) (q : List ℕ) (s : State) (byte : ℕ) (scrub : Bool) (cache : Bool), (k < 16) ∧ (byte < 64) ∧ (ch < 2))
    ∧ (∃ (k : ℕ) (ch : ℕ) (x : ℕ) (last : ℕ) (w' : ℕ) (write : Bool) (q : List ℕ) (s : State) (byte : ℕ) (scrub : Bool), (k < 16) ∧ (s.get (F.MC_ROW_THRESH_corrections k) = 0 ∨ ((List.find? (fun (r : RowErr) => decide (r.bank = x / 2048 % 16 ∧ r.row = x / 32768)) (if ch = 0 then (s.mc k).rows0 else (s.mc k).rows1)).elim 0 fun (x : RowErr) => x.count) + 1 < s.get (F.MC_ROW_THRESH_corrections k)))
    ∧ (∃ (k : ℕ) (ch : ℕ) (x : ℕ) (last : ℕ) (w' : ℕ) (write : Bool) (q : List ℕ) (s : State) (byte : ℕ) (scrub : Bool), (k < 16) ∧ (s.get (F.MC_ROW_THRESH_corrections k) ≠ 0) ∧ (s.get (F.MC_ROW_THRESH_corrections k) ≤ ((List.find? (fun (r : RowErr) => decide (r.bank = x / 2048 % 16 ∧ r.row = x / 32768)) (if ch = 0 then (s.mc k).rows0 else (s.mc k).rows1)).elim 0 fun (x : RowErr) => x.count) + 1))
    ∧ (∃ (k : ℕ) (ch : ℕ) (x : ℕ) (last : ℕ) (w' : ℕ) (write : Bool) (q : List ℕ) (s : State) (byte : ℕ) (scrub : Bool), (k < 16))
    ∧ (∃ (k : ℕ) (ch : ℕ) (x : ℕ) (last : ℕ) (w' : ℕ) (write : Bool) (q : List ℕ) (s : State) (v : ℕ), (k < 16) ∧ (pickBank q last = some v))
    ∧ (∃ (k : ℕ) (ch : ℕ) (x : ℕ) (last : ℕ) (w' : ℕ) (write : Bool) (q : List ℕ) (s : State) (v : ℕ) (u : ℕ), (k < 16) ∧ (pickBank q last = some v) ∧ (u ∈ q))
    ∧ (∃ (k : ℕ) (ch : ℕ) (x : ℕ) (last : ℕ) (w' : ℕ) (write : Bool) (q : List ℕ) (s : State), (k < 16) ∧ (pickBank q last = none)) :=
  ⟨⟨0x200000000, true, (wMc { inject := [(0, 1)] }), 1, by decide +kernel⟩,
    ⟨0, 0, 0, 3, 0x200000000, true, [5, 70, 9], (wMc { cache := [(0, [⟨0, false⟩])] }), ⟨0, false⟩, by decide +kernel⟩,
    ⟨0, 0, 0, 3, 0x200000000, true, [5, 70, 9], wDram, by decide +kernel⟩,
    ⟨0, 0, 0, 3, 0x200000000, true, [5, 70, 9], wDram, by decide +kernel⟩,
    ⟨0, 0, 0, 3, 0x200000000, true, [5, 70, 9], wDram, 2, by decide +kernel⟩,
    ⟨0, 0, 0, 3, 0x200000000, true, [5, 70, 9], wDram, 9, true, false, by decide +kernel⟩,
    ⟨0, 0, 0, 3, 0x200000000, true, [5, 70, 9], wDram.put (F.MC_ROW_THRESH_corrections 0) 0, 9, true, by decide +kernel⟩,
    ⟨0, 0, 0, 3, 0x200000000, true, [5, 70, 9], ((wDram.put (F.MC_ROW_THRESH_corrections 0) 1)), 9, true, by decide +kernel⟩,
    ⟨0, 0, 0, 3, 0x200000000, true, [5, 70, 9], wDram, 9, true, by decide +kernel⟩,
    ⟨0, 0, 0, 3, 0x200000000, true, [5, 70, 9], wDram, 5, by decide +kernel⟩,
    ⟨0, 0, 0, 3, 0x200000000, true, [5, 70, 9], wDram, 5, 70, by decide +kernel⟩,
    ⟨0, 0, 0, 3, 0x200000000, true, [], wDram, by decide +kernel⟩⟩

theorem test_meets_MainMemory_4 :
    (∃ (k : ℕ) (ch : ℕ) (w : ℕ) (bank : ℕ) (row : ℕ) (s : State), (k < 16) ∧ (ch < 2) ∧ (max (s.mc k).wq0.length (s.mc k).wq1.length < 128))
    ∧ (∃ (k : ℕ) (ch : ℕ) (w : ℕ) (bank : ℕ) (row : ℕ) (s : State), (k < 16) ∧ (ch < 2) ∧ (w ∈ (s.mc k).wq ch))
    ∧ (∃ (k : ℕ) (ch : ℕ) (w : ℕ) (bank : ℕ) (row : ℕ) (s : State), (k < 16) ∧ (ch < 2) ∧ (w ∉ (s.mc k).wq ch) ∧ (¬(s.get (F.MC_STATUS_mode k) = 2 ∧ s.get (F.MC_SPILL_high k) ≤ (((if ((s.mc k).wq ch).length < 64 then s.mc k else (s.mc k).issueTo ch 63 64).setWq ch ((if ((s.mc k).wq ch).length < 64 then s.mc k else (s.mc k).issueTo ch 63 64).wq ch ++ [w])).wq ch).length)))
    ∧ (∃ (k : ℕ) (ch : ℕ) (w : ℕ) (bank : ℕ) (row : ℕ) (s : State), (k < 16) ∧ (ch < 2) ∧ (w ∉ (s.mc k).wq ch) ∧ (s.get (F.MC_STATUS_mode k) = 2 ∧ s.get (F.MC_SPILL_high k) ≤ (((if ((s.mc k).wq ch).length < 64 then s.mc k else (s.mc k).issueTo ch 63 64).setWq ch ((if ((s.mc k).wq ch).length < 64 then s.mc k else (s.mc k).issueTo ch 63 64).wq ch ++ [w])).wq ch).length))
    ∧ (∃ (k : ℕ) (ch : ℕ) (w : ℕ) (bank : ℕ) (row : ℕ) (s : State), (k < 16) ∧ (ch < 2) ∧ (pickBank ((s.mc k).wq ch) (if ch = 0 then (s.mc k).lastBank0 else (s.mc k).lastBank1) = none))
    ∧ (∃ (k : ℕ) (ch : ℕ) (w : ℕ) (bank : ℕ) (row : ℕ) (s : State) (v : ℕ), (k < 16) ∧ (ch < 2) ∧ (pickBank ((s.mc k).wq ch) (if ch = 0 then (s.mc k).lastBank0 else (s.mc k).lastBank1) = some v))
    ∧ (∃ (k : ℕ) (ch : ℕ) (w : ℕ) (bank : ℕ) (row : ℕ) (s : State) (f : ℕ), (k < 16) ∧ (ch < 2))
    ∧ (∃ (k : ℕ) (ch : ℕ) (w : ℕ) (bank : ℕ) (row : ℕ) (s : State), (k < 16) ∧ (ch < 2) ∧ ((s.mc k).remapped ch bank row = true ∨ (s.mc k).retiring ≠ none))
    ∧ (∃ (k : ℕ) (ch : ℕ) (w : ℕ) (bank : ℕ) (row : ℕ) (s : State), (k < 16) ∧ (ch < 2) ∧ (¬((s.mc k).remapped ch bank row = true ∨ (s.mc k).retiring ≠ none)) ∧ (64 ≤ (s.mc k).remapCount ch ∨ 104 ≤ ((s.mc k).sparesUsed ch bank).length))
    ∧ (∃ (k : ℕ) (ch : ℕ) (w : ℕ) (bank : ℕ) (row : ℕ) (s : State), (k < 16) ∧ (ch < 2) ∧ (¬((s.mc k).remapped ch bank row = true ∨ (s.mc k).retiring ≠ none)) ∧ (¬(64 ≤ (s.mc k).remapCount ch ∨ 104 ≤ ((s.mc k).sparesUsed ch bank).length)))
    ∧ (∃ (k : ℕ) (s : State) (c : ℕ), (k < 16))
    ∧ (∃ (k : ℕ) (s : State), (k < 16)) :=
  ⟨⟨0, 0, 3, 2, 77, wDramQ, by decide +kernel⟩,
    ⟨0, 0, 0, 2, 77, wDramQ, by decide +kernel⟩,
    ⟨0, 0, 3, 2, 77, wDramQ, by decide +kernel⟩,
    ⟨0, 0, 3, 2, 77, wSpillMode, by decide +kernel⟩,
    ⟨0, 0, 3, 2, 77, wDram, by decide +kernel⟩,
    ⟨0, 0, 3, 2, 77, wDramQ, 0, by decide +kernel⟩,
    ⟨0, 0, 3, 2, 77, wDramQ, 5, by decide +kernel⟩,
    ⟨0, 0, 3, 2, 77, wMcRemap, by decide +kernel⟩,
    ⟨0, 0, 3, 2, 99, wMcFull, by decide +kernel⟩,
    ⟨0, 0, 3, 2, 77, wDram, by decide +kernel⟩,
    ⟨0, wDram, 1, by decide +kernel⟩,
    ⟨0, wDram, by decide +kernel⟩⟩

theorem test_meets_MainMemory_5 :
    (∃ (k : ℕ) (s : State), (k < 16) ∧ (s.get (F.MC_STATUS_mode k) < 2))
    ∧ (∃ (k : ℕ) (s : State) (c : ℕ) (l : List ℕ), (k < 16) ∧ (2 ≤ s.get (F.MC_STATUS_mode k)) ∧ (s.spillCauses k = c :: l))
    ∧ (∃ (k : ℕ) (s : State), (k < 16) ∧ (2 ≤ s.get (F.MC_STATUS_mode k)) ∧ (s.spillCauses k = []) ∧ (s.get F.MEMG_CTRL_normal = 0))
    ∧ (∃ (k : ℕ) (s : State), (k < 16) ∧ (2 ≤ s.get (F.MC_STATUS_mode k)) ∧ (s.spillCauses k = []) ∧ (s.get F.MEMG_CTRL_normal = 1))
    ∧ (∃ (acc : Sys2Proof.Acc) (s : State) (s2 : State) (w : Word) (c : Instr), (s.written pgMEMG 32 acc = some (s2, w)) ∧ (c ∈ [Instr.train acc, Instr.parkPrep acc, Instr.parkRestore acc false]))
    ∧ (∃ (s : State), (s.get F.MEMG_STATUS_state ≠ 0))
    ∧ (∃ (s : State), (s.get F.MEMG_STATUS_state = 0))
    ∧ (∃ (s : State) (k : ℕ), (s.get F.MEMG_STATUS_state = 0) ∧ (k < 16))
    ∧ (∃ (failed : List (Fin 32)) (temps : List ℤ) (dip : Bool) (s : State), (s.memg.step = 0 ∨ 5 < s.memg.step ∨ dip = true))
    ∧ (∃ (failed : List (Fin 32)) (temps : List ℤ) (dip : Bool) (s : State), (1 ≤ s.memg.step) ∧ (s.memg.step ≤ 5) ∧ (dip = false) ∧ ((List.foldl (fun (s : State) (c : Fin 32) => s.trainFail ↑c) s (List.filter (fun (c : Fin 32) => decide (s.memg.retired ≠ some ↑c)) failed)).get F.MEMG_STATUS_state = 6 ∨ ∃ c ∈ List.filter (fun (c : Fin 32) => decide (s.memg.retired ≠ some ↑c)) failed, (List.foldl (fun (s : State) (c : Fin 32) => s.trainFail ↑c) s (List.filter (fun (c : Fin 32) => decide (s.memg.retired ≠ some ↑c)) failed)).memg.retired ≠ some ↑c))
    ∧ (∃ (failed : List (Fin 32)) (temps : List ℤ) (dip : Bool) (s : State), (1 ≤ s.memg.step) ∧ (s.memg.step < 5) ∧ (dip = false) ∧ (¬((List.foldl (fun (s : State) (c : Fin 32) => s.trainFail ↑c) s (List.filter (fun (c : Fin 32) => decide (s.memg.retired ≠ some ↑c)) failed)).get F.MEMG_STATUS_state = 6 ∨ ∃ c ∈ List.filter (fun (c : Fin 32) => decide (s.memg.retired ≠ some ↑c)) failed, (List.foldl (fun (s : State) (c : Fin 32) => s.trainFail ↑c) s (List.filter (fun (c : Fin 32) => decide (s.memg.retired ≠ some ↑c)) failed)).memg.retired ≠ some ↑c)))
    ∧ (∃ (failed : List (Fin 32)) (temps : List ℤ) (dip : Bool) (s : State), (s.memg.step = 5) ∧ (dip = false) ∧ (¬((List.foldl (fun (s : State) (c : Fin 32) => s.trainFail ↑c) s (List.filter (fun (c : Fin 32) => decide (s.memg.retired ≠ some ↑c)) failed)).get F.MEMG_STATUS_state = 6 ∨ ∃ c ∈ List.filter (fun (c : Fin 32) => decide (s.memg.retired ≠ some ↑c)) failed, (List.foldl (fun (s : State) (c : Fin 32) => s.trainFail ↑c) s (List.filter (fun (c : Fin 32) => decide (s.memg.retired ≠ some ↑c)) failed)).memg.retired ≠ some ↑c))) :=
  ⟨⟨0, wRun, by decide +kernel⟩,
    ⟨0, (wMc { retrain := some 0 }), 4, [], by decide +kernel⟩,
    ⟨0, (wDram.put F.MEMG_CTRL_normal 0), by decide +kernel⟩,
    ⟨0, wDram, by decide +kernel⟩,
    ⟨(wAcc 5), wMemgOff, (wMemgWr wMemgOff 0x20 5).1, (wMemgWr wMemgOff 0x20 5).2, (.train (wAcc 5)), by decide +kernel⟩,
    ⟨wDram, by decide +kernel⟩,
    ⟨wRun, by decide +kernel⟩,
    ⟨wRun, 5, by decide +kernel⟩,
    ⟨[], [], true, (wTrain 2), by decide +kernel⟩,
    ⟨[1], [], false, (wTrain 2), by decide +kernel⟩,
    ⟨[], [], false, (wTrain 2), by decide +kernel⟩,
    ⟨[], [40, 41, -3], false, (wTrain 5), by decide +kernel⟩⟩

theorem test_meets_MainMemory_6 :
    (∃ (c : ℕ) (temps : List ℤ) (s : State), (c < 32) ∧ ((if c % 2 = 0 then (s.mc (c / 2)).fails0 else (s.mc (c / 2)).fails1) + 1 ≠ 3))
    ∧ (∃ (c : ℕ) (temps : List ℤ) (s : State), (c < 32) ∧ ((if c % 2 = 0 then (s.mc (c / 2)).fails0 else (s.mc (c / 2)).fails1) + 1 = 3))
    ∧ (∃ (c : ℕ) (temps : List ℤ) (s : State), (c < 32) ∧ (s.get F.MEMG_SPARE_reserve = 1 ∧ s.memg.retired = none))
    ∧ (∃ (c : ℕ) (temps : List ℤ) (s : State), (c < 32) ∧ (¬(s.get F.MEMG_SPARE_reserve = 1 ∧ s.memg.retired = none)))
    ∧ (∃ (c : ℕ) (temps : List ℤ) (s : State), (c < 32))
    ∧ (∃ (s : State), (s.get F.MEMG_STATUS_state ≠ 2 ∨ s.memg.step < 6))
    ∧ (∃ (s : State), (s.get F.MEMG_STATUS_state = 2) ∧ (s.memg.step = 6))
    ∧ (∃ (s : State), (s.get F.MEMG_STATUS_state = 2) ∧ (6 < s.memg.step) ∧ (s.memg.step < 14))
    ∧ (∃ (s : State), (s.get F.MEMG_STATUS_state = 2) ∧ (s.memg.step = 14))
    ∧ (∃ (p : Fin 8) (c : Fin 32) (rate : BitVec 3) (hot : Bool) (bank : Fin 16) (celsius : ℤ) (s : State), (s.memg.selfRefresh = true ∨ s.memg.retired = some ↑c))
    ∧ (∃ (p : Fin 8) (c : Fin 32) (rate : BitVec 3) (hot : Bool) (bank : Fin 16) (celsius : ℤ) (s : State), (¬(s.memg.selfRefresh = true ∨ s.memg.retired = some ↑c)))
    ∧ (∃ (k : ℕ) (ch : ℕ) (s : State), (k < 16) ∧ ((s.mc k).retrain = some ch ∨ ch ∈ (s.mc k).retrainQ ∨ s.memg.retired = some (2 * k + ch))) :=
  ⟨⟨1, [3], (wTrain 3), by decide +kernel⟩,
    ⟨1, [3], (wTrainF 2), by decide +kernel⟩,
    ⟨1, [3], (wTrain 3), by decide +kernel⟩,
    ⟨1, [3], ((wTrain 3).put F.MEMG_SPARE_reserve 0), by decide +kernel⟩,
    ⟨1, [3], (wTrain 3), by decide +kernel⟩,
    ⟨wDram, by decide +kernel⟩,
    ⟨(wSweep 6 []), by decide +kernel⟩,
    ⟨(wSweep 8 []), by decide +kernel⟩,
    ⟨(wSweep 14 [7]), by decide +kernel⟩,
    ⟨0, 3, 2#3, true, 5, 55, wParked, by decide +kernel⟩,
    ⟨0, 3, 2#3, true, 5, 55, wDram, by decide +kernel⟩,
    ⟨0, 1, (wMc { retrainQ := [1] }), by decide +kernel⟩⟩

theorem test_meets_MainMemory_7 :
    (∃ (k : ℕ) (ch : ℕ) (s : State), (k < 16) ∧ (¬((s.mc k).retrain = some ch ∨ ch ∈ (s.mc k).retrainQ ∨ s.memg.retired = some (2 * k + ch))))
    ∧ (∃ (k : ℕ) (ch : ℕ) (s : State), (k < 16) ∧ ((s.mc k).retrain ≠ none ∨ (s.mc k).retrainQ = []))
    ∧ (∃ (k : ℕ) (ch : ℕ) (s : State) (c : ℕ) (l : List ℕ), (k < 16) ∧ ((s.mc k).retrain = none) ∧ ((s.mc k).retrainQ = c :: l))
    ∧ (∃ (k : Fin 16) (acc : Sys2Proof.Acc) (s : State) (s2 : State) (w : Word) (c : Instr), (s.written (pgMC ↑k) 32 acc = some (s2, w)) ∧ (c ∈ [Instr.retrain k acc, Instr.flush k acc]))
    ∧ (∃ (k : Fin 16) (us : ℕ) (s : State), ((s.mc ↑k).retrain = none ∨ s.get (F.MC_STATUS_flushing ↑k) = 1))
    ∧ (∃ (k : Fin 16) (us : ℕ) (s : State) (ch : ℕ), ((s.mc ↑k).retrain = some ch) ∧ (¬s.get (F.MC_STATUS_flushing ↑k) = 1))
    ∧ (∃ (k : Fin 16) (us : ℕ) (s : State), (¬s.get (F.MC_STATUS_flushing ↑k) = 1))
    ∧ (∃ (k : Fin 16) (us : ℕ) (s : State), (s.get (F.MC_STATUS_flushing ↑k) = 1))
    ∧ (∃ (k : Fin 16) (us : ℕ) (s : State), ((s.mc ↑k).retiring = none ∨ s.get (F.MC_STATUS_flushing ↑k) = 1))
    ∧ (∃ (k : Fin 16) (us : ℕ) (s : State) (ch : ℕ) (bank : ℕ) (row : ℕ), ((s.mc ↑k).retiring = some (ch, bank, row)) ∧ (¬s.get (F.MC_STATUS_flushing ↑k) = 1))
    ∧ (∃ (k : Fin 16) (ch : ℕ) (bank : ℕ) (row : ℕ) (s : State), (List.find? (fun (i : ℕ) => !(s.mc ↑k).entries.any fun (e : ℕ × Remap) => decide (e.1 = ch * 64 + i)) (List.range 64) = none ∨ List.find? (fun (i : ℕ) => !((s.mc ↑k).sparesUsed ch bank).contains i) (List.range 104) = none))
    ∧ (∃ (k : Fin 16) (ch : ℕ) (bank : ℕ) (row : ℕ) (s : State) (i : ℕ) (sp : ℕ), (List.find? (fun (i : ℕ) => !(s.mc ↑k).entries.any fun (e : ℕ × Remap) => decide (e.1 = ch * 64 + i)) (List.range 64) = some i) ∧ (List.find? (fun (i : ℕ) => !((s.mc ↑k).sparesUsed ch bank).contains i) (List.range 104) = some sp)) :=
  ⟨⟨0, 1, wDram, by decide +kernel⟩,
    ⟨0, 1, wDram, by decide +kernel⟩,
    ⟨0, 1, (wMc { retrainQ := [1] }), 1, [], by decide +kernel⟩,
    ⟨0, (wAcc 9), (wMcOp wDram), (wMcWr (wMcOp wDram) 0x20 9).1, (wMcWr (wMcOp wDram) 0x20 9).2, (.retrain 0 (wAcc 9)), by decide +kernel⟩,
    ⟨0, 55, wDram, by decide +kernel⟩,
    ⟨0, 55, (wMc { retrain := some 1 }), 1, by decide +kernel⟩,
    ⟨0, 55, wDram, by decide +kernel⟩,
    ⟨0, 55, wFlushing, by decide +kernel⟩,
    ⟨0, 55, wDram, by decide +kernel⟩,
    ⟨0, 55, (wMc { retiring := some (1, 2, 77) }), 1, 2, 77, by decide +kernel⟩,
    ⟨0, 0, 2, 77, wMcFull, by decide +kernel⟩,
    ⟨0, 1, 2, 77, (wMc { retiring := some (1, 2, 77) }), 0, 0, by decide +kernel⟩⟩

theorem test_meets_MainMemory_8 :
    (∃ (k : Fin 16) (ch : ℕ) (x : ℕ) (codes : List CodeState) (code : CodeState) (s : State), (s.get (F.MC_CTRL_scrub_en ↑k) = 0 ∨ s.get (F.MC_STATUS_mode ↑k) < 2))
    ∧ (∃ (k : Fin 16) (ch : ℕ) (x : ℕ) (codes : List CodeState) (code : CodeState) (s : State), (¬(s.get (F.MC_CTRL_scrub_en ↑k) = 0 ∨ s.get (F.MC_STATUS_mode ↑k) < 2)) ∧ (s.get (F.MC_SCRUB_POS_granule ↑k) ≠ 8388607))
    ∧ (∃ (k : Fin 16) (ch : ℕ) (x : ℕ) (codes : List CodeState) (code : CodeState) (s : State), (¬(s.get (F.MC_CTRL_scrub_en ↑k) = 0 ∨ s.get (F.MC_STATUS_mode ↑k) < 2)) ∧ (s.get (F.MC_SCRUB_POS_granule ↑k) = 8388607))
    ∧ (∃ (k : Fin 16) (ch : ℕ) (x : ℕ) (codes : List CodeState) (code : CodeState) (s : State), (s.memg.retired = some (2 * ↑k + ch) ∨ ((s.scrubbed (↑k) ch x).1.bind fun (w : ℕ) => tabFind s.cond w) = some WordCond.poison ∨ ((s.scrubbed (↑k) ch x).1.bind fun (w : ℕ) => tabFind s.cond w) = none ∧ code = CodeState.clean))
    ∧ (∃ (k : Fin 16) (ch : ℕ) (x : ℕ) (codes : List CodeState) (code : CodeState) (s : State), (¬s.memg.retired = some (2 * ↑k + ch)) ∧ (((s.scrubbed (↑k) ch x).1.bind fun (w : ℕ) => tabFind s.cond w) = some WordCond.many))
    ∧ (∃ (k : Fin 16) (ch : ℕ) (x : ℕ) (codes : List CodeState) (code : CodeState) (s : State) (w : ℕ) (b : Fin 36), (¬s.memg.retired = some (2 * ↑k + ch)) ∧ ((s.scrubbed (↑k) ch x).1 = some w) ∧ (((s.scrubbed (↑k) ch x).1.bind fun (w : ℕ) => tabFind s.cond w) = some (WordCond.one b)))
    ∧ (∃ (k : Fin 16) (ch : ℕ) (x : ℕ) (codes : List CodeState) (code : CodeState) (s : State) (b : Fin 36), (¬s.memg.retired = some (2 * ↑k + ch)) ∧ (((s.scrubbed (↑k) ch x).1.bind fun (w : ℕ) => tabFind s.cond w) = none))
    ∧ (∃ (k : Fin 16) (ch : ℕ) (x : ℕ) (codes : List CodeState) (code : CodeState) (s : State), (¬s.memg.retired = some (2 * ↑k + ch)) ∧ (((s.scrubbed (↑k) ch x).1.bind fun (w : ℕ) => tabFind s.cond w) = none))
    ∧ (∃ (k : Fin 16) (ch : ℕ) (x : ℕ) (codes : List CodeState) (code : CodeState) (s : State), (x < 130968 * 32768) ∧ ((s.mc ↑k).remapped ch (x / 2048 % 16) (x / 32768) = true))
    ∧ (∃ (k : Fin 16) (ch : ℕ) (x : ℕ) (codes : List CodeState) (code : CodeState) (s : State), (x < 3638 * 1048576) ∧ ((s.mc ↑k).remapped ch (x / 2048 % 16) (x / 32768) = false))
    ∧ (∃ (k : Fin 16) (ch : ℕ) (x : ℕ) (codes : List CodeState) (code : CodeState) (s : State), (3638 * 1048576 ≤ x) ∧ (x < 130968 * 32768) ∧ ((s.mc ↑k).remapped ch (x / 2048 % 16) (x / 32768) = false))
    ∧ (∃ (k : Fin 16) (ch : ℕ) (x : ℕ) (codes : List CodeState) (code : CodeState) (s : State) (e : ℕ × Remap), (130968 * 32768 ≤ x) ∧ (List.find? (fun (e : ℕ × Remap) => decide (e.1 / 64 = ch ∧ e.2.bank = x / 2048 % 16 ∧ e.2.spare = x / 32768 - 130968)) (s.mc ↑k).entries = some e) ∧ (e.2.row < 116416)) :=
  ⟨⟨0, 0, 0, [], .many, wRun, by decide +kernel⟩,
    ⟨0, 0, 0, [.one 2], .many, (wScrubS 0), by decide +kernel⟩,
    ⟨0, 0, 0, [], .many, (wScrubS 8388607), by decide +kernel⟩,
    ⟨0, 0, 0, [], .many, (wDramC .poison), by decide +kernel⟩,
    ⟨0, 0, 0, [], .many, (wDramC .many), by decide +kernel⟩,
    ⟨0, 0, 0, [], .many, (wDramC (.one 2)), 0x200000000, 2, by decide +kernel⟩,
    ⟨0, 0, 0, [], .many, wDram, 2, by decide +kernel⟩,
    ⟨0, 0, 0, [], .many, wDram, by decide +kernel⟩,
    ⟨0, 0, (77 * 32768 + 2 * 2048), [], .many, wMcRemap, by decide +kernel⟩,
    ⟨0, 0, 0, [], .many, wDram, by decide +kernel⟩,
    ⟨0, 0, (3638 * 1048576 + 64), [], .many, wDram, by decide +kernel⟩,
    ⟨0, 0, (130968 * 32768 + 2 * 2048), [], .many, wMcRemap, (0, ⟨77, 2, 0⟩), by decide +kernel⟩⟩

theorem test_meets_MainMemory_9 : ∃ (k : Fin 16) (ch : ℕ) (x : ℕ) (codes : List CodeState) (code : CodeState) (s : State), (130968 * 32768 ≤ x) ∧ (∀ e ∈ (s.mc ↑k).entries, e.1 / 64 = ch → e.2.bank = x / 2048 % 16 → e.2.spare ≠ x / 32768 - 130968) :=
  ⟨0, 0, (130968 * 32768), [], .many, wDram, by decide +kernel⟩

theorem test_meets_MemoryService_1 :
    (∃ (acc : Sys2Proof.Acc) (s : State) (s2 : State) (w : Word), (s.written pgMEMG 48 acc = some (s2, w)) ∧ (¬BitVec.getLsbD w 31 = true ∨ BitVec.getLsbD w 30 = true))
    ∧ (∃ (acc : Sys2Proof.Acc) (s : State) (s2 : State) (w : Word), (s.written pgMEMG 48 acc = some (s2, w)) ∧ (BitVec.getLsbD w 31 = true) ∧ (¬BitVec.getLsbD w 30 = true) ∧ (¬(s2.get F.MEMG_SPARE_reserve = 1 ∧ s2.memg.retired = none ∧ s2.memg.copying = none)))
    ∧ (∃ (acc : Sys2Proof.Acc) (s : State) (s2 : State) (w : Word), (s.written pgMEMG 48 acc = some (s2, w)) ∧ (BitVec.getLsbD w 31 = true) ∧ (¬BitVec.getLsbD w 30 = true) ∧ (s2.get F.MEMG_SPARE_reserve = 1 ∧ s2.memg.retired = none ∧ s2.memg.copying = none))
    ∧ (∃ (acc : Sys2Proof.Acc) (s : State) (s2 : State) (w : Word), (s.written pgMEMG 48 acc = some (s2, w)) ∧ (¬BitVec.getLsbD w 31 = true ∨ ¬BitVec.getLsbD w 30 = true))
    ∧ (∃ (acc : Sys2Proof.Acc) (s : State) (s2 : State) (w : Word), (s.written pgMEMG 48 acc = some (s2, w)) ∧ (BitVec.getLsbD w 31 = true) ∧ (BitVec.getLsbD w 30 = true) ∧ (¬(s2.get F.MEMG_SPARE_reserve = 1 ∧ s2.memg.retired = none ∧ s2.memg.copying = none) ∨ s2.get F.MEMG_STATUS_state ≠ 0))
    ∧ (∃ (acc : Sys2Proof.Acc) (s : State) (s2 : State) (w : Word), (s.written pgMEMG 48 acc = some (s2, w)) ∧ (BitVec.getLsbD w 31 = true) ∧ (BitVec.getLsbD w 30 = true) ∧ (s2.get F.MEMG_SPARE_reserve = 1 ∧ s2.memg.retired = none ∧ s2.memg.copying = none) ∧ (s2.get F.MEMG_STATUS_state = 0))
    ∧ (∃ (acc : Sys2Proof.Acc) (s : State) (s2 : State) (w : Word), (s.written pgMEMG 48 acc = some (s2, w)))
    ∧ (∃ (s : State), (s.memg.copying = none))
    ∧ (∃ (s : State) (c : ℕ), (s.memg.copying = some c) ∧ (s.get (F.MC_STATUS_flushing (c / 2)) = 1))
    ∧ (∃ (s : State) (c : ℕ), (s.memg.copying = some c) ∧ (s.get (F.MC_STATUS_flushing (c / 2)) = 0))
    ∧ (∃ (acc : Sys2Proof.Acc) (drifted : Bool) (s : State) (s2 : State) (w : Word), (s.written pgMEMG 32 acc = some (s2, w)))
    ∧ (∃ (drifted : Bool) (s : State), (¬(s.get F.MEMG_STATUS_state = 3 ∨ s.get F.MEMG_STATUS_state = 4))) :=
  ⟨⟨(wAcc 5), wMemg, (wMemgWr wMemg 0x30 5).1, (wMemgWr wMemg 0x30 5).2, by decide +kernel⟩,
    ⟨(wAcc 0x80000005), wMemgR, (wMemgWr wMemgR 0x30 0x80000005).1, (wMemgWr wMemgR 0x30 0x80000005).2, by decide +kernel⟩,
    ⟨(wAcc 0x80000005), wMemg, (wMemgWr wMemg 0x30 0x80000005).1, (wMemgWr wMemg 0x30 0x80000005).2, by decide +kernel⟩,
    ⟨(wAcc 5), wMemg, (wMemgWr wMemg 0x30 5).1, (wMemgWr wMemg 0x30 5).2, by decide +kernel⟩,
    ⟨(wAcc 0xC0000005), wMemg, (wMemgWr wMemg 0x30 0xC0000005).1, (wMemgWr wMemg 0x30 0xC0000005).2, by decide +kernel⟩,
    ⟨(wAcc 0xC0000005), wMemg0, (wMemgWr wMemg0 0x30 0xC0000005).1, (wMemgWr wMemg0 0x30 0xC0000005).2, by decide +kernel⟩,
    ⟨(wAcc 0x80000005), wMemg, (wMemgWr wMemg 0x30 0x80000005).1, (wMemgWr wMemg 0x30 0x80000005).2, by decide +kernel⟩,
    ⟨wRun, by decide +kernel⟩,
    ⟨(wCopy.put (F.MC_STATUS_flushing 0) 1), 0, by decide +kernel⟩,
    ⟨wCopy, 0, by decide +kernel⟩,
    ⟨(wAcc 8), false, wParked, (wMemgWr wParked 0x20 8).1, (wMemgWr wParked 0x20 8).2, by decide +kernel⟩,
    ⟨true, wRun, by decide +kernel⟩⟩

theorem test_meets_MemoryService_2 :
    (∃ (drifted : Bool) (s : State), (s.get F.MEMG_STATUS_state = 3 ∨ s.get F.MEMG_STATUS_state = 4))
    ∧ (∃ (drifted : Bool) (s : State), (s.memg.selfRefresh = false))
    ∧ (∃ (drifted : Bool) (s : State), (s.memg.selfRefresh = true))
    ∧ (∃ (s : State), (¬(s.memg.parkPrep = true ∧ s.get F.MEMG_STATUS_state ≠ 5)))
    ∧ (∃ (s : State), (s.memg.parkPrep = true ∧ s.get F.MEMG_STATUS_state ≠ 5))
    ∧ (∃ (acc : Sys2Proof.Acc) (s : State) (s2 : State) (w : Word), (s.written pgMEMG 268 acc = some (s2, w)) ∧ (¬(BitVec.getLsbD w 31 = true ∧ s2.get F.MEMG_STATUS_state = 3 ∧ s2.memg.testing = [])))
    ∧ (∃ (acc : Sys2Proof.Acc) (s : State) (s2 : State) (w : Word), (s.written pgMEMG 268 acc = some (s2, w)) ∧ (BitVec.getLsbD w 31 = true ∧ s2.get F.MEMG_STATUS_state = 3 ∧ s2.memg.testing = []))
    ∧ (∃ (failed : Word) (s : State), (s.memg.testing = []))
    ∧ (∃ (failed : Word) (s : State), (s.memg.testing ≠ []))
    ∧ (∃ (k : Fin 16) (acc : Sys2Proof.Acc) (s : State) (s2 : State) (w : Word), (s.written (pgMC ↑k) 256 acc = some (s2, w)) ∧ (tabFind s.armedBy (pgMC ↑k) = none) ∧ ((s.cell (pgMC ↑k) 256).wrong = none))
    ∧ (∃ (k : Fin 16) (acc : Sys2Proof.Acc) (s : State) (s2 : State) (w : Word), (s.written (pgMC ↑k) 256 acc = some (s2, w)) ∧ (tabFind s.armedBy (pgMC ↑k) = none) ∧ ((s.cell (pgMC ↑k) 256).wrong = none) ∧ (2 ≤ BitVec.toNat w % 128 ∧ BitVec.toNat w % 128 ≤ 64 ∧ BitVec.toNat w / 256 % 128 < BitVec.toNat w % 128))
    ∧ (∃ (k : Fin 16) (acc : Sys2Proof.Acc) (s : State) (s2 : State) (w : Word), (s.written (pgMC ↑k) 256 acc = some (s2, w)) ∧ (tabFind s.armedBy (pgMC ↑k) = none) ∧ ((s.cell (pgMC ↑k) 256).wrong = none) ∧ (¬(2 ≤ BitVec.toNat w % 128 ∧ BitVec.toNat w % 128 ≤ 64 ∧ BitVec.toNat w / 256 % 128 < BitVec.toNat w % 128))) :=
  ⟨⟨true, wDram, by decide +kernel⟩,
    ⟨true, wRun, by decide +kernel⟩,
    ⟨true, wParked, by decide +kernel⟩,
    ⟨wRun, by decide +kernel⟩,
    ⟨wParkP, by decide +kernel⟩,
    ⟨(wAcc 0x80000000), wMtest4, (wMemgWr wMtest4 0x10C 0x80000000).1, (wMemgWr wMtest4 0x10C 0x80000000).2, by decide +kernel⟩,
    ⟨(wAcc 0x80000000), wMtest, (wMemgWr wMtest 0x10C 0x80000000).1, (wMemgWr wMtest 0x10C 0x80000000).2, by decide +kernel⟩,
    ⟨1#32, wRun, by decide +kernel⟩,
    ⟨1#32, wTesting, by decide +kernel⟩,
    ⟨0, (wAcc 0x0420), wMcX, (wMcWr wMcX 0x100 0x0420).1, (wMcWr wMcX 0x100 0x0420).2, by decide +kernel⟩,
    ⟨0, (wAcc 0x0420), wMcX, (wMcWr wMcX 0x100 0x0420).1, (wMcWr wMcX 0x100 0x0420).2, by decide +kernel⟩,
    ⟨0, (wAcc 0x2020), wMcX, (wMcWr wMcX 0x100 0x2020).1, (wMcWr wMcX 0x100 0x2020).2, by decide +kernel⟩⟩

theorem test_meets_MemoryService_3 :
    (∃ (k : Fin 16) (acc : Sys2Proof.Acc) (s : State) (s2 : State) (w : Word), (s.written (pgMC ↑k) 276 acc = some (s2, w)) ∧ (tabFind s.armedBy (pgMC ↑k) = none) ∧ (acc.view = View.base))
    ∧ (∃ (k : Fin 16) (acc : Sys2Proof.Acc) (s : State) (s2 : State) (w : Word), (s.written (pgMC ↑k) 276 acc = some (s2, w)) ∧ (tabFind s.armedBy (pgMC ↑k) = none) ∧ (acc.view = View.base) ∧ (2 ≤ s.get (F.MC_STATUS_mode ↑k)))
    ∧ (∃ (k : Fin 16) (acc : Sys2Proof.Acc) (s : State) (s2 : State) (w : Word), (s.written (pgMC ↑k) 276 acc = some (s2, w)) ∧ (tabFind s.armedBy (pgMC ↑k) = none) ∧ (acc.view = View.base) ∧ (s.get (F.MC_STATUS_mode ↑k) < 2))
    ∧ (∃ (k : Fin 16) (acc : Sys2Proof.Acc) (s : State) (s2 : State) (w : Word), (s.written (pgMC ↑k) 284 acc = some (s2, w)) ∧ (BitVec.getLsbD w 0 = false))
    ∧ (∃ (k : Fin 16) (acc : Sys2Proof.Acc) (s : State) (s2 : State) (w : Word), (s.written (pgMC ↑k) 284 acc = some (s2, w)) ∧ (BitVec.getLsbD w 0 = true))
    ∧ (∃ (k : Fin 16) (acc : Sys2Proof.Acc) (s : State) (s2 : State) (w : Word), (s.written (pgMC ↑k) 284 acc = some (s2, w)) ∧ (BitVec.getLsbD w 1 = false))
    ∧ (∃ (k : Fin 16) (acc : Sys2Proof.Acc) (s : State) (s2 : State) (w : Word), (s.written (pgMC ↑k) 284 acc = some (s2, w)) ∧ (BitVec.getLsbD w 1 = true))
    ∧ (∃ (i : Island) (psr : Bool) (acc : Sys2Proof.Acc) (s : State) (s2 : State) (w : Word), (s.written (if psr = true then pgPSR (islIdx i) else pgNOR (islIdx i)) 44 acc = some (s2, w)) ∧ (BitVec.getLsbD w 0 = false))
    ∧ (∃ (i : Island) (psr : Bool) (acc : Sys2Proof.Acc) (s : State) (s2 : State) (w : Word), (s.written (if psr = true then pgPSR (islIdx i) else pgNOR (islIdx i)) 44 acc = some (s2, w)) ∧ (BitVec.getLsbD w 0 = true))
    ∧ (∃ (i : Island) (src : IslRead) (s : State), (src.nor = true) ∧ (s.get (F.NOR_RD_CMD_busy (islIdx i)) = 0))
    ∧ (∃ (i : Island) (src : IslRead) (s : State), (src.nor = true) ∧ (s.get (F.NOR_RD_CMD_busy (islIdx i)) = 1))
    ∧ (∃ (i : Island) (src : IslRead) (s : State), (src.nor = false) ∧ (s.get (F.PSR_RD_CMD_busy (islIdx i)) = 0)) :=
  ⟨⟨0, (wAcc 0x80420007), wMcX, (wMcWr wMcX 0x114 0x80420007).1, (wMcWr wMcX 0x114 0x80420007).2, by decide +kernel⟩,
    ⟨0, (wAcc 0x80420007), (wMcX.put (F.MC_STATUS_mode 0) 2), (wMcWr (wMcX.put (F.MC_STATUS_mode 0) 2) 0x114 0x80420007).1, (wMcWr (wMcX.put (F.MC_STATUS_mode 0) 2) 0x114 0x80420007).2, by decide +kernel⟩,
    ⟨0, (wAcc 0x80420007), (wMcX.put (F.MC_STATUS_mode 0) 1), (wMcWr (wMcX.put (F.MC_STATUS_mode 0) 1) 0x114 0x80420007).1, (wMcWr (wMcX.put (F.MC_STATUS_mode 0) 1) 0x114 0x80420007).2, by decide +kernel⟩,
    ⟨0, (wAcc 2), wMcX, (wMcWr wMcX 0x11C 2).1, (wMcWr wMcX 0x11C 2).2, by decide +kernel⟩,
    ⟨0, (wAcc 1), wMcX, (wMcWr wMcX 0x11C 1).1, (wMcWr wMcX 0x11C 1).2, by decide +kernel⟩,
    ⟨0, (wAcc 1), wMcX, (wMcWr wMcX 0x11C 1).1, (wMcWr wMcX 0x11C 1).2, by decide +kernel⟩,
    ⟨0, (wAcc 2), wMcX, (wMcWr wMcX 0x11C 2).1, (wMcWr wMcX 0x11C 2).2, by decide +kernel⟩,
    ⟨.sia, true, (wAcc 0), (wPsr 1), (wWr (wPsr 1) (pgPSR 0) 0x2C (wAcc 0)).1, (wWr (wPsr 1) (pgPSR 0) 0x2C (wAcc 0)).2, by decide +kernel⟩,
    ⟨.sia, true, (wAcc 1), (wPsr 1), (wPsrWr (pgPSR 0) (wPsr 1)).1, (wPsrWr (pgPSR 0) (wPsr 1)).2, by decide +kernel⟩,
    ⟨.sia, ⟨true, .clean⟩, wRun, by decide +kernel⟩,
    ⟨.sia, ⟨true, .clean⟩, (wIslMem []), by decide +kernel⟩,
    ⟨.sia, ⟨false, .many⟩, wRun, by decide +kernel⟩⟩

theorem test_meets_MemoryService_4 : ∃ (i : Island) (src : IslRead) (s : State), (src.nor = false) ∧ (s.get (F.PSR_RD_CMD_busy (islIdx i)) = 1) :=
  ⟨.sia, ⟨false, .many⟩, (wIslMem []), by decide +kernel⟩

theorem test_meets_HostLink_1 :
    (∃ (s : State) (page : ℕ) (first : ℕ) (b : ℕ) (write : Bool), (page = pgPCIE ∧ s.sec.boot.host = true ∧ s.sec.boot.running = false))
    ∧ (∃ (s : State) (page : ℕ) (first : ℕ) (b : ℕ) (write : Bool), (¬(page = pgPCIE ∧ s.sec.boot.host = true ∧ s.sec.boot.running = false)) ∧ (b / 2 ^ 32 < 16 ∧ BitVec.getLsbD (s.regWord page (first + 4 * (b / 2 ^ 32))) 31 = true ∧ BitVec.getLsbD (s.regWord page (first + 4 * (b / 2 ^ 32))) (if write = true then 25 else 24) = true ∧ (match s.region (BitVec.toNat (s.regWord page (first + 4 * (b / 2 ^ 32))) % 65536 * 2 ^ 32 + b % 2 ^ 32) with | Region.dram => true | Region.hub => true | Region.stack n => true | Region.pool n => !touchesRedBuf (BitVec.toNat (s.regWord page (first + 4 * (b / 2 ^ 32))) % 65536 * 2 ^ 32 + b % 2 ^ 32) 1 | x => false) = true))
    ∧ (∃ (s : State) (page : ℕ) (first : ℕ) (b : ℕ) (write : Bool), (¬(page = pgPCIE ∧ s.sec.boot.host = true ∧ s.sec.boot.running = false)) ∧ (¬(b / 2 ^ 32 < 16 ∧ BitVec.getLsbD (s.regWord page (first + 4 * (b / 2 ^ 32))) 31 = true ∧ BitVec.getLsbD (s.regWord page (first + 4 * (b / 2 ^ 32))) (if write = true then 25 else 24) = true ∧ (match s.region (BitVec.toNat (s.regWord page (first + 4 * (b / 2 ^ 32))) % 65536 * 2 ^ 32 + b % 2 ^ 32) with | Region.dram => true | Region.hub => true | Region.stack n => true | Region.pool n => !touchesRedBuf (BitVec.toNat (s.regWord page (first + 4 * (b / 2 ^ 32))) % 65536 * 2 ^ 32 + b % 2 ^ 32) 1 | x => false) = true)))
    ∧ (∃ (t : Tlp) (s : State), (s.hubOff = true))
    ∧ (∃ (t : Tlp) (s : State), (s.hubOff = false) ∧ ((if t.poisoned = true then s.poisonedIn else s).aperture pgPCIE 256 t.offset.toNat true = none))
    ∧ (∃ (t : Tlp) (s : State) (a : ℕ), (s.hubOff = false) ∧ ((if t.poisoned = true then s.poisonedIn else s).aperture pgPCIE 256 t.offset.toNat true = some a) ∧ ((if t.poisoned = true then s.poisonedIn else s).capWindow a = none))
    ∧ (∃ (t : Tlp) (s : State) (a : ℕ) (w : ℕ), (s.hubOff = false) ∧ ((if t.poisoned = true then s.poisonedIn else s).aperture pgPCIE 256 t.offset.toNat true = some a) ∧ ((if t.poisoned = true then s.poisonedIn else s).capWindow a = some w) ∧ ((if t.poisoned = true then s.poisonedIn else s).replaying = true))
    ∧ (∃ (t : Tlp) (s : State) (a : ℕ) (w : ℕ), (s.hubOff = false) ∧ ((if t.poisoned = true then s.poisonedIn else s).aperture pgPCIE 256 t.offset.toNat true = some a) ∧ ((if t.poisoned = true then s.poisonedIn else s).capWindow a = some w) ∧ ((if t.poisoned = true then s.poisonedIn else s).replaying = false))
    ∧ (∃ (s : State) (w : ℕ) (a : ℕ) (bs : List Byte) (e : ℕ × ℕ × List Byte), (s.jrn.openData = some e) ∧ ((fun (e : ℕ × ℕ × List Byte) => decide (e.1 = w ∧ e.2.1 + e.2.2.length = a ∧ e.2.2.length + bs.length ≤ 4096)) e = true))
    ∧ (∃ (s : State) (w : ℕ) (a : ℕ) (bs : List Byte), (Option.any (fun (e : ℕ × ℕ × List Byte) => decide (e.1 = w ∧ e.2.1 + e.2.2.length = a ∧ e.2.2.length + bs.length ≤ 4096)) s.jrn.openData = false))
    ∧ (∃ (t : Tlp) (s : State), (s.hubOff = true))
    ∧ (∃ (t : Tlp) (s : State), (s.hubOff = false) ∧ (s.aperture pgPCIE 256 t.offset.toNat false = none)) :=
  ⟨⟨wBootH, pgPCIE, 0x100, 64, true, by decide +kernel⟩,
    ⟨wHst, pgPCIE, 0x100, (hubBase % 2 ^ 32 + 64), true, by decide +kernel⟩,
    ⟨wHst, pgPCIE, 0x100, (2 ^ 32), true, by decide +kernel⟩,
    ⟨wTlp, wDark, by decide +kernel⟩,
    ⟨wTlpX, wHst, by decide +kernel⟩,
    ⟨wTlpB, wHst, (hubBase + 64), by decide +kernel⟩,
    ⟨wTlp, (wCap 3), (hubBase + 64), 0, by decide +kernel⟩,
    ⟨wTlp, (wCap 1), (hubBase + 64), 0, by decide +kernel⟩,
    ⟨wOpen, 0, 0x4000000002, [3#8], (0, 0x4000000000, [1#8, 2#8]), by decide +kernel⟩,
    ⟨wOpen, 1, 0x4000000002, [3#8], by decide +kernel⟩,
    ⟨wTlp, wDark, by decide +kernel⟩,
    ⟨wTlpX, wHst, by decide +kernel⟩⟩

theorem test_meets_HostLink_2 :
    (∃ (t : Tlp) (s : State) (a : ℕ), (s.hubOff = false) ∧ (s.aperture pgPCIE 256 t.offset.toNat false = some a))
    ∧ (∃ (tag : ℕ) (data : List Byte) (s : State), (Option.filter (fun (r : ExtRead) => r.host) (tabFind s.ext tag) = none))
    ∧ (∃ (tag : ℕ) (data : List Byte) (s : State) (c : Instr), (Option.filter (fun (r : ExtRead) => r.host) (tabFind s.ext tag) = none) ∧ (c ∈ [Instr.hostReadCompletion tag CompletionStatus.unsupported data, Instr.hostReadCompletion tag CompletionStatus.aborted data, Instr.completionTimeout tag]))
    ∧ (∃ (tag : ℕ) (data : List Byte) (s : State) (r : ExtRead), (Option.filter (fun (r : ExtRead) => r.host) (tabFind s.ext tag) = some r))
    ∧ (∃ (tag : ℕ) (data : List Byte) (s : State) (r : ExtRead) (c : Instr), (Option.filter (fun (r : ExtRead) => r.host) (tabFind s.ext tag) = some r) ∧ (c ∈ [Instr.hostReadCompletion tag CompletionStatus.unsupported data, Instr.hostReadCompletion tag CompletionStatus.aborted data, Instr.completionTimeout tag]))
    ∧ (∃ (r : ExtRead) (bs : List Byte) (bad : Bool) (s : State) (n : ℕ), (r.arr = some n))
    ∧ (∃ (r : ExtRead) (bs : List Byte) (bad : Bool) (s : State), (r.arr = none) ∧ (r.toHost = false))
    ∧ (∃ (r : ExtRead) (bs : List Byte) (bad : Bool) (s : State), (r.arr = none) ∧ (r.toHost = true))
    ∧ (∃ (r : ExtRead) (bs : List Byte) (bad : Bool) (s : State), (s.get F.PCIE_STATUS_bus_master = 1))
    ∧ (∃ (r : ExtRead) (bs : List Byte) (bad : Bool) (s : State), (s.get F.PCIE_STATUS_bus_master = 0))
    ∧ (∃ (r : ExtRead) (s : State), (s.replaying = false) ∧ (s.get F.PCIE_STATUS_bus_master = 1))
    ∧ (∃ (r : ExtRead) (s : State), (s.replaying = false) ∧ (s.get F.PCIE_STATUS_bus_master = 0)) :=
  ⟨⟨wTlp, wHst, (hubBase + 64), by decide +kernel⟩,
    ⟨9, [1#8], wHst, by decide +kernel⟩,
    ⟨9, [1#8], wHst, (.completionTimeout 9), by decide +kernel⟩,
    ⟨9, [1#8, 2#8, 3#8, 4#8], wAsk, (wRead none), by decide +kernel⟩,
    ⟨9, [1#8, 2#8, 3#8, 4#8], wAsk, (wRead none), (.completionTimeout 9), by decide +kernel⟩,
    ⟨(wRead (some 4)), [1#8, 2#8, 3#8, 4#8], false, wAskA, 4, by decide +kernel⟩,
    ⟨(wRead none), [1#8, 2#8, 3#8, 4#8], false, wAskA, by decide +kernel⟩,
    ⟨{ wRead none with toHost := true }, [1#8, 2#8, 3#8, 4#8], false, wAskA, by decide +kernel⟩,
    ⟨(wRead none), [1#8, 2#8, 3#8, 4#8], false, wAskA, by decide +kernel⟩,
    ⟨(wRead none), [1#8, 2#8, 3#8, 4#8], false, (wAskA.put F.PCIE_STATUS_bus_master 0), by decide +kernel⟩,
    ⟨(wRead none), wHst, by decide +kernel⟩,
    ⟨(wRead none), (wHst.put F.PCIE_STATUS_bus_master 0), by decide +kernel⟩⟩

theorem test_meets_HostLink_3 :
    (∃ (r : ExtRead) (s : State), (s.replaying = true) ∧ ((s.jrnFind fun (k : JRec) => decide (k.kind = 7 ∧ k.src = r.queue % 65536 ∧ k.aux0 = r.index ∧ k.aux1 = r.queue / 65536 + 65536 * (r.ordinal % 65536))) = none))
    ∧ (∃ (r : ExtRead) (s : State) (k : JRec), (s.replaying = true) ∧ ((s.jrnFind fun (k : JRec) => decide (k.kind = 7 ∧ k.src = r.queue % 65536 ∧ k.aux0 = r.index ∧ k.aux1 = r.queue / 65536 + 65536 * (r.ordinal % 65536))) = some k) ∧ (k.data = none))
    ∧ (∃ (r : ExtRead) (s : State) (k : JRec) (bs : List Byte), (s.replaying = true) ∧ ((s.jrnFind fun (k : JRec) => decide (k.kind = 7 ∧ k.src = r.queue % 65536 ∧ k.aux0 = r.index ∧ k.aux1 = r.queue / 65536 + 65536 * (r.ordinal % 65536))) = some k) ∧ (k.data = some bs) ∧ (k.digestOk = false))
    ∧ (∃ (r : ExtRead) (s : State) (k : JRec) (bs : List Byte), (s.replaying = true) ∧ ((s.jrnFind fun (k : JRec) => decide (k.kind = 7 ∧ k.src = r.queue % 65536 ∧ k.aux0 = r.index ∧ k.aux1 = r.queue / 65536 + 65536 * (r.ordinal % 65536))) = some k) ∧ (k.data = some bs) ∧ (k.digestOk = true))
    ∧ (∃ (v : Fin 32) (s : State), (¬((s.get F.PCIE_MSI_PEND_pending).testBit ↑v = true ∧ s.get F.PCIE_STATUS_bus_master = 1 ∧ s.get F.PCIE_STATUS_link_up = 1)))
    ∧ (∃ (v : Fin 32) (s : State), ((s.get F.PCIE_MSI_PEND_pending).testBit ↑v = true ∧ s.get F.PCIE_STATUS_bus_master = 1 ∧ s.get F.PCIE_STATUS_link_up = 1))
    ∧ (∃ (s : State), ((List.foldl (fun (v : State) (e : ℕ × ExtRead) => { v with ext := tabDel v.ext e.1 }.readFailed e.2) { s with regs := List.filter (fun (e : ℕ × RegCell) => decide (e.1 / 512 ≠ pgPCIE)) s.regs, armedBy := tabDel s.armedBy pgPCIE, cfg := { } } (List.filter (fun (e : ℕ × ExtRead) => e.2.host) s.ext)).sec.boot.running = false))
    ∧ (∃ (s : State), ((List.foldl (fun (v : State) (e : ℕ × ExtRead) => { v with ext := tabDel v.ext e.1 }.readFailed e.2) { s with regs := List.filter (fun (e : ℕ × RegCell) => decide (e.1 / 512 ≠ pgPCIE)) s.regs, armedBy := tabDel s.armedBy pgPCIE, cfg := { } } (List.filter (fun (e : ℕ × ExtRead) => e.2.host) s.ext)).sec.boot.running = true))
    ∧ (∃ (s : State), (s.pgood = true))
    ∧ (∃ (s : State), (s.pgood = false))
    ∧ (∃ (s : State) (k : ℕ), (List.filter (fun (e : ℕ × ExtRead) => e.2.host) s.ext = []) ∧ (k < 16))
    ∧ (∃ (s : State), (List.filter (fun (e : ℕ × ExtRead) => e.2.host) s.ext = [])) :=
  ⟨⟨(wRead none), (wJrnR 3 0 []), by decide +kernel⟩,
    ⟨(wRead none), (wRdRep 4 0), ⟨7, 4, 0x400, 7, 0, 0, 0, []⟩, by decide +kernel⟩,
    ⟨(wRead none), (wRdRep 6 0), ⟨7, 6, 0x400, 7, 0, 0, 0, []⟩, [], by decide +kernel⟩,
    ⟨(wRead none), (wRdRep 0 0), ⟨7, 0, 0x400, 7, 0, 0, 0, []⟩, [], by decide +kernel⟩,
    ⟨(3 : Fin 32), wHst, by decide +kernel⟩,
    ⟨(3 : Fin 32), (wHst.put F.PCIE_MSI_PEND_pending 8), by decide +kernel⟩,
    ⟨(wFw wAsk false), by decide +kernel⟩,
    ⟨(wFw wAsk true), by decide +kernel⟩,
    ⟨wHst, wHst_pgood⟩,
    ⟨{ wHst with pwr := { wHst.pwr with badRails := [2] } }, by decide +kernel⟩,
    ⟨wHst, 3, by decide +kernel⟩,
    ⟨wHst, by decide +kernel⟩⟩

theorem test_meets_HostLink_4 :
    (∃ (speed : BitVec 3) (width : BitVec 5) (flit : Bool) (master : Bool) (s : State), (s.hubOff = true))
    ∧ (∃ (speed : BitVec 3) (width : BitVec 5) (flit : Bool) (master : Bool) (s : State), (s.hubOff = false))
    ∧ (∃ (acc : Sys2Proof.Acc) (s : State) (s2 : State) (w : Word), (s.written pgPCIE 352 acc = some (s2, w)) ∧ (BitVec.getLsbD w 0 = false))
    ∧ (∃ (acc : Sys2Proof.Acc) (s : State) (s2 : State) (w : Word), (s.written pgPCIE 352 acc = some (s2, w)) ∧ (BitVec.getLsbD w 0 = true)) :=
  ⟨⟨5#3, 4#5, true, true, wDark, by decide +kernel⟩,
    ⟨5#3, 4#5, true, true, wHst, by decide +kernel⟩,
    ⟨(wAcc 0), (wHst.put (F.BLK_LEVEL_expert pgPCIE) 1), (wWr (wHst.put (F.BLK_LEVEL_expert pgPCIE) 1) pgPCIE 0x160 (wAcc 0)).1, (wWr (wHst.put (F.BLK_LEVEL_expert pgPCIE) 1) pgPCIE 0x160 (wAcc 0)).2, by decide +kernel⟩,
    ⟨(wAcc 1), (wHst.put (F.BLK_LEVEL_expert pgPCIE) 1), (wWr (wHst.put (F.BLK_LEVEL_expert pgPCIE) 1) pgPCIE 0x160 (wAcc 1)).1, (wWr (wHst.put (F.BLK_LEVEL_expert pgPCIE) 1) pgPCIE 0x160 (wAcc 1)).2, by decide +kernel⟩⟩

theorem test_meets_XagusLinksAndDomain_1 :
    (∃ (l : Fin 8) (f : XFrame) (s : State) (p : Instr × ℕ), (p ∈ [(Instr.xagusWrite l f, 1), (Instr.readRequest l f, 2), (Instr.readReturn l f, 3), (Instr.writeAcknowledge l f, 4), (Instr.remoteSignal l f, 5), (Instr.signalAcknowledge l f, 6), (Instr.hello l f, 7), (Instr.linkState l f, 8), (Instr.collectiveData l f, 9), (Instr.collectiveControl l f, 10), (Instr.twinDigest l f, 11), (Instr.twinControl l f, 12)]) ∧ (¬(f.typ.toNat = p.2 ∨ 12 < f.typ.toNat) ∨ ¬s.get (F.XL_STATUS_state ↑l) = 2))
    ∧ (∃ (l : Fin 8) (f : XFrame) (s : State) (p : Instr × ℕ), (p ∈ [(Instr.xagusWrite l f, 1), (Instr.readRequest l f, 2), (Instr.readReturn l f, 3), (Instr.writeAcknowledge l f, 4), (Instr.remoteSignal l f, 5), (Instr.signalAcknowledge l f, 6), (Instr.hello l f, 7), (Instr.linkState l f, 8), (Instr.collectiveData l f, 9), (Instr.collectiveControl l f, 10), (Instr.twinDigest l f, 11), (Instr.twinControl l f, 12)]) ∧ (f.typ.toNat = p.2 ∨ 12 < f.typ.toNat) ∧ (s.get (F.XL_STATUS_state ↑l) = 2) ∧ (f.fecOk = false))
    ∧ (∃ (l : Fin 8) (f : XFrame) (s : State) (p : Instr × ℕ), (p ∈ [(Instr.xagusWrite l f, 1), (Instr.readRequest l f, 2), (Instr.readReturn l f, 3), (Instr.writeAcknowledge l f, 4), (Instr.remoteSignal l f, 5), (Instr.signalAcknowledge l f, 6), (Instr.hello l f, 7), (Instr.linkState l f, 8), (Instr.collectiveData l f, 9), (Instr.collectiveControl l f, 10), (Instr.twinDigest l f, 11), (Instr.twinControl l f, 12)]) ∧ (f.typ.toNat = p.2 ∨ 12 < f.typ.toNat) ∧ (s.get (F.XL_STATUS_state ↑l) = 2) ∧ (f.fecOk = true) ∧ (f.hcrc ≠ crc16w 64 (xHdr f)))
    ∧ (∃ (l : Fin 8) (f : XFrame) (s : State) (p : Instr × ℕ), (p ∈ [(Instr.xagusWrite l f, 1), (Instr.readRequest l f, 2), (Instr.readReturn l f, 3), (Instr.writeAcknowledge l f, 4), (Instr.remoteSignal l f, 5), (Instr.signalAcknowledge l f, 6), (Instr.hello l f, 7), (Instr.linkState l f, 8), (Instr.collectiveData l f, 9), (Instr.collectiveControl l f, 10), (Instr.twinDigest l f, 11), (Instr.twinControl l f, 12)]) ∧ (f.typ.toNat = p.2 ∨ 12 < f.typ.toNat) ∧ (s.get (F.XL_STATUS_state ↑l) = 2) ∧ (f.fecOk = true) ∧ (f.hcrc = crc16w 64 (xHdr f)) ∧ ((f.seq.toNat + 4096 - ((s.xl ↑l).lastRx + 1) % 4096) % 4096 ≠ 0))
    ∧ (∃ (l : Fin 8) (f : XFrame) (s : State) (p : Instr × ℕ), (p ∈ [(Instr.xagusWrite l f, 1), (Instr.readRequest l f, 2), (Instr.readReturn l f, 3), (Instr.writeAcknowledge l f, 4), (Instr.remoteSignal l f, 5), (Instr.signalAcknowledge l f, 6), (Instr.hello l f, 7), (Instr.linkState l f, 8), (Instr.collectiveData l f, 9), (Instr.collectiveControl l f, 10), (Instr.twinDigest l f, 11), (Instr.twinControl l f, 12)]) ∧ ((f.typ.toNat = p.2 ∨ 12 < f.typ.toNat) ∧ s.get (F.XL_STATUS_state ↑l) = 2 ∧ f.fecOk = true ∧ f.hcrc = crc16w 64 (xHdr f) ∧ (f.seq.toNat + 4096 - ((s.xl ↑l).lastRx + 1) % 4096) % 4096 = 0) ∧ (12 < f.typ.toNat))
    ∧ (∃ (l : Fin 8) (f : XFrame) (s : State) (p : Instr × ℕ), (p ∈ [(Instr.xagusWrite l f, 1), (Instr.readRequest l f, 2), (Instr.readReturn l f, 3), (Instr.writeAcknowledge l f, 4), (Instr.remoteSignal l f, 5), (Instr.signalAcknowledge l f, 6), (Instr.hello l f, 7), (Instr.linkState l f, 8), (Instr.collectiveData l f, 9), (Instr.collectiveControl l f, 10), (Instr.twinDigest l f, 11), (Instr.twinControl l f, 12)]) ∧ ((f.typ.toNat = p.2 ∨ 12 < f.typ.toNat) ∧ s.get (F.XL_STATUS_state ↑l) = 2 ∧ f.fecOk = true ∧ f.hcrc = crc16w 64 (xHdr f) ∧ (f.seq.toNat + 4096 - ((s.xl ↑l).lastRx + 1) % 4096) % 4096 = 0) ∧ (f.typ.toNat ≤ 12) ∧ (p.2 = 7 ∨ p.2 = 8) ∧ (s.get F.XGS_CTRL_enable = 0))
    ∧ (∃ (l : Fin 8) (f : XFrame) (s : State) (p : Instr × ℕ), (p ∈ [(Instr.xagusWrite l f, 1), (Instr.readRequest l f, 2), (Instr.readReturn l f, 3), (Instr.writeAcknowledge l f, 4), (Instr.remoteSignal l f, 5), (Instr.signalAcknowledge l f, 6), (Instr.hello l f, 7), (Instr.linkState l f, 8), (Instr.collectiveData l f, 9), (Instr.collectiveControl l f, 10), (Instr.twinDigest l f, 11), (Instr.twinControl l f, 12)]) ∧ (((f.typ.toNat = p.2 ∨ 12 < f.typ.toNat) ∧ s.get (F.XL_STATUS_state ↑l) = 2 ∧ f.fecOk = true ∧ f.hcrc = crc16w 64 (xHdr f) ∧ (f.seq.toNat + 4096 - ((s.xl ↑l).lastRx + 1) % 4096) % 4096 = 0) ∧ f.typ.toNat ≤ 12 ∧ p.2 ≠ 7 ∧ p.2 ≠ 8) ∧ (s.xgs.members = []))
    ∧ (∃ (l : Fin 8) (f : XFrame) (s : State) (p : Instr × ℕ), (p ∈ [(Instr.xagusWrite l f, 1), (Instr.readRequest l f, 2), (Instr.readReturn l f, 3), (Instr.writeAcknowledge l f, 4), (Instr.remoteSignal l f, 5), (Instr.signalAcknowledge l f, 6), (Instr.hello l f, 7), (Instr.linkState l f, 8), (Instr.collectiveData l f, 9), (Instr.collectiveControl l f, 10), (Instr.twinDigest l f, 11), (Instr.twinControl l f, 12)]) ∧ (((f.typ.toNat = p.2 ∨ 12 < f.typ.toNat) ∧ s.get (F.XL_STATUS_state ↑l) = 2 ∧ f.fecOk = true ∧ f.hcrc = crc16w 64 (xHdr f) ∧ (f.seq.toNat + 4096 - ((s.xl ↑l).lastRx + 1) % 4096) % 4096 = 0) ∧ f.typ.toNat ≤ 12 ∧ p.2 ≠ 7 ∧ p.2 ≠ 8) ∧ (s.xgs.members ≠ []) ∧ (f.dst.toNat ≠ s.xId) ∧ (tabFind s.xgs.members f.dst.toNat = none))
    ∧ (∃ (l : Fin 8) (f : XFrame) (s : State) (p : Instr × ℕ), (p ∈ [(Instr.xagusWrite l f, 1), (Instr.readRequest l f, 2), (Instr.readReturn l f, 3), (Instr.writeAcknowledge l f, 4), (Instr.remoteSignal l f, 5), (Instr.signalAcknowledge l f, 6), (Instr.hello l f, 7), (Instr.linkState l f, 8), (Instr.collectiveData l f, 9), (Instr.collectiveControl l f, 10), (Instr.twinDigest l f, 11), (Instr.twinControl l f, 12)]) ∧ (((f.typ.toNat = p.2 ∨ 12 < f.typ.toNat) ∧ s.get (F.XL_STATUS_state ↑l) = 2 ∧ f.fecOk = true ∧ f.hcrc = crc16w 64 (xHdr f) ∧ (f.seq.toNat + 4096 - ((s.xl ↑l).lastRx + 1) % 4096) % 4096 = 0) ∧ f.typ.toNat ≤ 12 ∧ p.2 ≠ 7 ∧ p.2 ≠ 8) ∧ (s.xgs.members ≠ []) ∧ (f.dst.toNat ≠ s.xId) ∧ (tabFind s.xgs.members f.dst.toNat ≠ none))
    ∧ (∃ (l : Fin 8) (f : XFrame) (s : State), (xPayload f.typ.toNat = false))
    ∧ (∃ (l : Fin 8) (f : XFrame) (s : State), (xPayload f.typ.toNat = true))
    ∧ (∃ (l : Fin 8) (f : XFrame) (s : State), (s.get (F.XL_STATUS_state ↑l) ≠ 2 ∨ s.relinking ↑l = true ∧ f.typ.toNat ≠ 7 ∧ f.typ.toNat ≠ 8)) :=
  ⟨⟨2, (wGFrmTo 2 0), wXg, (Instr.xagusWrite 2 (wGFrmTo 2 0), 1), by decide +kernel⟩,
    ⟨2, { wXgF0 with fecOk := false }, wXg, (Instr.xagusWrite 2 { wXgF0 with fecOk := false }, 1), by decide +kernel⟩,
    ⟨2, { wXgF0 with hcrc := 5 }, wXg, (Instr.xagusWrite 2 { wXgF0 with hcrc := 5 }, 1), by decide +kernel⟩,
    ⟨2, { wXgF0 with seq := 3 }, wXg, (Instr.xagusWrite 2 { wXgF0 with seq := 3 }, 1), by decide +kernel⟩,
    ⟨2, (wGFrmTo 13 0), wXg, (Instr.xagusWrite 2 (wGFrmTo 13 0), 1), by decide +kernel⟩,
    ⟨2, wHello, wXgEn0, (Instr.hello 2 wHello, 7), by decide +kernel⟩,
    ⟨2, wXgF0, wXgNone, (Instr.xagusWrite 2 wXgF0, 1), by decide +kernel⟩,
    ⟨2, (wGFrmTo 5 7), wXg, (Instr.remoteSignal 2 (wGFrmTo 5 7), 5), by decide +kernel⟩,
    ⟨2, (wGFrmTo 1 2), wXg, (Instr.xagusWrite 2 (wGFrmTo 1 2), 1), by decide +kernel⟩,
    ⟨2, (wGFrmTo 5 2), wXg, by decide +kernel⟩,
    ⟨2, (wGFrmTo 1 2), wXg, by decide +kernel⟩,
    ⟨2, (wGFrmTo 1 2), wXlTr, by decide +kernel⟩⟩

theorem test_meets_XagusLinksAndDomain_2 :
    (∃ (l : Fin 8) (f : XFrame) (s : State), (¬(s.get (F.XL_STATUS_state ↑l) ≠ 2 ∨ s.relinking ↑l = true ∧ f.typ.toNat ≠ 7 ∧ f.typ.toNat ≠ 8)))
    ∧ (∃ (l : Fin 8) (f : XFrame) (s : State), (256 ≤ (s.xl ↑l).retry.length ∨ (s.xl ↑l).held ≠ []))
    ∧ (∃ (l : Fin 8) (f : XFrame) (s : State), (¬(256 ≤ (s.xl ↑l).retry.length ∨ (s.xl ↑l).held ≠ [])))
    ∧ (∃ (l : Fin 8) (f : XFrame) (s : State), (tabFind s.xgs.members f.dst.toNat = none))
    ∧ (∃ (l : Fin 8) (f : XFrame) (s : State) (m : XMember), (tabFind s.xgs.members f.dst.toNat = some m))
    ∧ (∃ (l : Fin 8) (f : XFrame) (s : State), (s.awaits (↑l) 7 f = true) ∧ (s.get F.XGS_CTRL_enable = 1))
    ∧ (∃ (l : Fin 8) (f : XFrame) (s : State), (s.awaits (↑l) 8 f = true) ∧ (s.get F.XGS_CTRL_enable = 1) ∧ ((recOf (frameBytes f)).1 = BitVec.toNat s.fuse.serial ∨ Option.any (fun (o : XRec) => decide ((recOf (frameBytes f)).2.number ≤ o.number)) (tabFind s.xgs.recs (recOf (frameBytes f)).1) = true))
    ∧ (∃ (l : Fin 8) (f : XFrame) (s : State), (s.awaits (↑l) 8 f = true) ∧ (s.get F.XGS_CTRL_enable = 1) ∧ (¬((recOf (frameBytes f)).1 = BitVec.toNat s.fuse.serial ∨ Option.any (fun (o : XRec) => decide ((recOf (frameBytes f)).2.number ≤ o.number)) (tabFind s.xgs.recs (recOf (frameBytes f)).1) = true)))
    ∧ (∃ (s : State), (s.get F.XGS_CTRL_enable = 0))
    ∧ (∃ (s : State), (s.get F.XGS_CTRL_enable = 1))
    ∧ (∃ (s : State), (s.get F.XGS_STATUS_state ≠ 2))
    ∧ (∃ (s : State) (id : ℕ), (s.get F.XGS_STATUS_state = 2) ∧ (tabFind (xAssign (List.filter (fun (d : ℕ × XRec) => (tabFind (xReached s.allRecs (BitVec.toNat s.fuse.serial)) d.1).isSome) s.allRecs)) (BitVec.toNat s.fuse.serial) = some id) ∧ (s.twinConflict (List.filter (fun (d : ℕ × XRec) => (tabFind (xReached s.allRecs (BitVec.toNat s.fuse.serial)) d.1).isSome) s.allRecs) = false)) :=
  ⟨⟨2, (wGFrmTo 1 2), wXg, by decide +kernel⟩,
    ⟨2, (wGFrmTo 1 2), (wXg.setXl 2 { held := [wXgF0] }), by decide +kernel⟩,
    ⟨2, (wGFrmTo 1 2), wXg, by decide +kernel⟩,
    ⟨2, (wGFrmTo 1 7), wXg, by decide +kernel⟩,
    ⟨2, (wGFrmTo 1 2), wXg, ⟨9, 1, false, 3, 1⟩, by decide +kernel⟩,
    ⟨2, wHello, wXg, by decide +kernel⟩,
    ⟨2, wLs, wXgForm2s, by decide +kernel⟩,
    ⟨2, wLs, wXg, by decide +kernel⟩,
    ⟨wXgEn0, by decide +kernel⟩,
    ⟨wXg, by decide +kernel⟩,
    ⟨wXg, by decide +kernel⟩,
    ⟨(wXgForm2.put F.XGS_DOMAIN_auto 0), 4, by decide +kernel⟩⟩

theorem test_meets_XagusLinksAndDomain_3 :
    (∃ (s : State), (s.get F.XGS_STATUS_state = 2) ∧ (tabFind (xAssign (List.filter (fun (d : ℕ × XRec) => (tabFind (xReached s.allRecs (BitVec.toNat s.fuse.serial)) d.1).isSome) s.allRecs)) (BitVec.toNat s.fuse.serial) = none ∨ s.twinConflict (List.filter (fun (d : ℕ × XRec) => (tabFind (xReached s.allRecs (BitVec.toNat s.fuse.serial)) d.1).isSome) s.allRecs) = true))
    ∧ (∃ (s : State) (d : ℕ × XRec) (i : ℕ), (d ∈ List.filter (fun (d : ℕ × XRec) => (tabFind (xReached s.allRecs (BitVec.toNat s.fuse.serial)) d.1).isSome) s.allRecs) ∧ (tabFind (xAssign (List.filter (fun (d : ℕ × XRec) => (tabFind (xReached s.allRecs (BitVec.toNat s.fuse.serial)) d.1).isSome) s.allRecs)) d.1 = some i))
    ∧ (∃ (s : State), (s.get F.XGS_DOMAIN_twin = 0))
    ∧ (∃ (s : State), (s.get F.XGS_DOMAIN_twin = 1))
    ∧ (∃ (l : Fin 8) (s : State) (v : ℕ), ((fun (u : State) => u.get F.XGS_DOMAIN_twin = 1 ∧ u.get (F.XL_STATUS_state 6) ≠ 2 ∧ u.get (F.XL_STATUS_state 7) ≠ 2) ((fun (u : State) (v : ℕ) => have u1 := ((u.put (F.XL_STATUS_state ↑l) v).put (F.XL_STATUS_lanes ↑l) 0).put (F.XL_STATUS_peer_valid ↑l) 0; u1.setXl (↑l) (have __src := u1.xl ↑l; __src)) s v)))
    ∧ (∃ (l : Fin 8) (s : State) (v : ℕ), (¬(fun (u : State) => u.get F.XGS_DOMAIN_twin = 1 ∧ u.get (F.XL_STATUS_state 6) ≠ 2 ∧ u.get (F.XL_STATUS_state 7) ≠ 2) ((fun (u : State) (v : ℕ) => have u1 := ((u.put (F.XL_STATUS_state ↑l) v).put (F.XL_STATUS_lanes ↑l) 0).put (F.XL_STATUS_peer_valid ↑l) 0; u1.setXl (↑l) (have __src := u1.xl ↑l; __src)) s v)))
    ∧ (∃ (l : Fin 8) (s : State), (¬(s.get (F.XL_STATUS_state ↑l) = 1 ∨ s.get (F.XL_STATUS_state ↑l) = 2)))
    ∧ (∃ (l : Fin 8) (s : State), (s.get (F.XL_STATUS_state ↑l) = 1 ∨ s.get (F.XL_STATUS_state ↑l) = 2) ∧ (s.relinking ↑l = false))
    ∧ (∃ (l : Fin 8) (s : State), (s.get (F.XL_STATUS_state ↑l) = 1 ∨ s.get (F.XL_STATUS_state ↑l) = 2) ∧ (s.relinking ↑l = true))
    ∧ (∃ (l : Fin 8) (s : State) (lanes : BitVec 4), (s.get (F.XL_STATUS_state ↑l) ≠ 1))
    ∧ (∃ (l : Fin 8) (s : State) (lanes : BitVec 4), (s.get (F.XL_STATUS_state ↑l) = 1) ∧ ((fun (lanes : BitVec 4) => lanesUsed (lanes &&& ~~~BitVec.ofNat 4 (s.get (F.XL_LANE_RETIRE_retire ↑l)))) lanes = 0) ∧ (s.relinking ↑l = true))
    ∧ (∃ (l : Fin 8) (s : State) (lanes : BitVec 4), (s.get (F.XL_STATUS_state ↑l) = 1) ∧ ((fun (lanes : BitVec 4) => lanesUsed (lanes &&& ~~~BitVec.ofNat 4 (s.get (F.XL_LANE_RETIRE_retire ↑l)))) lanes = 0) ∧ (s.relinking ↑l = false)) :=
  ⟨⟨wXgLose2, by decide +kernel⟩,
    ⟨(wXgForm2.put F.XGS_DOMAIN_auto 0), (77, { wGRec with nbrs := [0, 0, 5, 0, 0, 0, 0, 0] }), 1, by decide +kernel⟩,
    ⟨wXg, by decide +kernel⟩,
    ⟨wXgTwn, by decide +kernel⟩,
    ⟨2, wXgTwn, 0, by decide +kernel⟩,
    ⟨2, wXg, 0, by decide +kernel⟩,
    ⟨4, wXg, by decide +kernel⟩,
    ⟨2, wXg, by decide +kernel⟩,
    ⟨2, (wXgRel 2), by decide +kernel⟩,
    ⟨2, wXg, 7#4, by decide +kernel⟩,
    ⟨2, (wXgRel 1), 0#4, by decide +kernel⟩,
    ⟨2, wXlTr, 0#4, by decide +kernel⟩⟩

theorem test_meets_XagusLinksAndDomain_4 :
    (∃ (l : Fin 8) (s : State) (lanes : BitVec 4), (s.get (F.XL_STATUS_state ↑l) = 1) ∧ ((fun (lanes : BitVec 4) => lanesUsed (lanes &&& ~~~BitVec.ofNat 4 (s.get (F.XL_LANE_RETIRE_retire ↑l)))) lanes ≠ 0))
    ∧ (∃ (l : Fin 8) (s : State) (g : BitVec 4), (g ≠ 15#4) ∧ (g.getLsbD 0 = true ∧ g.getLsbD 1 = true ∨ g.getLsbD 2 = true ∧ g.getLsbD 3 = true))
    ∧ (∃ (l : Fin 8) (s : State) (g : BitVec 4), (¬(g.getLsbD 0 = true ∧ g.getLsbD 1 = true)) ∧ (¬(g.getLsbD 2 = true ∧ g.getLsbD 3 = true)))
    ∧ (∃ (l : Fin 8) (acc : Sys2Proof.Acc) (s : State) (s2 : State) (w : Word), (s.written (48 + ↑l) 32 acc = some (s2, w)) ∧ (BitVec.getLsbD w 0 = true) ∧ (s2.get (F.XL_CTRL_enable ↑l) = 0))
    ∧ (∃ (l : Fin 8) (acc : Sys2Proof.Acc) (s : State) (s2 : State) (w : Word), (s.written (48 + ↑l) 32 acc = some (s2, w)) ∧ (BitVec.getLsbD w 0 = false) ∧ (s2.get (F.XL_CTRL_enable ↑l) = 1))
    ∧ (∃ (l : Fin 8) (acc : Sys2Proof.Acc) (s : State) (s2 : State) (w : Word), (s.written (48 + ↑l) 32 acc = some (s2, w)) ∧ (s2.get (F.XL_CTRL_enable ↑l) = if BitVec.getLsbD w 0 = true then 1 else 0))
    ∧ (∃ (l : Fin 8) (acc : Sys2Proof.Acc) (s : State) (s2 : State) (w : Word), (s.written (48 + ↑l) 32 acc = some (s2, w)) ∧ (BitVec.getLsbD w 1 = true) ∧ (s2.get (F.XL_CTRL_enable ↑l) = 1))
    ∧ (∃ (l : Fin 8) (acc : Sys2Proof.Acc) (s : State) (s2 : State) (w : Word), (s.written (48 + ↑l) 32 acc = some (s2, w)) ∧ (BitVec.getLsbD w 1 = false ∨ s2.get (F.XL_CTRL_enable ↑l) = 0))
    ∧ (∃ (acc : Sys2Proof.Acc) (s : State) (s2 : State) (w : Word) (c : Instr), (s.written pgXGS 32 acc = some (s2, w)) ∧ (c ∈ [Instr.xgsEnable acc, Instr.rediscover acc, Instr.twinRestart acc]) ∧ (BitVec.getLsbD w 2 = true ∧ (if BitVec.getLsbD w 2 = true then (if BitVec.getLsbD w 1 = true then (if BitVec.getLsbD w 0 = true then if s2.get F.XGS_CTRL_enable = 0 then (s2.put F.XGS_CTRL_enable 1).domainForm else s2 else if s2.get F.XGS_CTRL_enable = 1 then (s2.put F.XGS_CTRL_enable 0).domainEnd else s2).domainForm else if BitVec.getLsbD w 0 = true then if s2.get F.XGS_CTRL_enable = 0 then (s2.put F.XGS_CTRL_enable 1).domainForm else s2 else if s2.get F.XGS_CTRL_enable = 1 then (s2.put F.XGS_CTRL_enable 0).domainEnd else s2).twinRestart else if BitVec.getLsbD w 1 = true then (if BitVec.getLsbD w 0 = true then if s2.get F.XGS_CTRL_enable = 0 then (s2.put F.XGS_CTRL_enable 1).domainForm else s2 else if s2.get F.XGS_CTRL_enable = 1 then (s2.put F.XGS_CTRL_enable 0).domainEnd else s2).domainForm else if BitVec.getLsbD w 0 = true then if s2.get F.XGS_CTRL_enable = 0 then (s2.put F.XGS_CTRL_enable 1).domainForm else s2 else if s2.get F.XGS_CTRL_enable = 1 then (s2.put F.XGS_CTRL_enable 0).domainEnd else s2).twinPair = true))
    ∧ (∃ (acc : Sys2Proof.Acc) (s : State) (s2 : State) (w : Word) (c : Instr), (s.written pgXGS 32 acc = some (s2, w)) ∧ (c ∈ [Instr.xgsEnable acc, Instr.rediscover acc, Instr.twinRestart acc]) ∧ (¬(BitVec.getLsbD w 2 = true ∧ (if BitVec.getLsbD w 2 = true then (if BitVec.getLsbD w 1 = true then (if BitVec.getLsbD w 0 = true then if s2.get F.XGS_CTRL_enable = 0 then (s2.put F.XGS_CTRL_enable 1).domainForm else s2 else if s2.get F.XGS_CTRL_enable = 1 then (s2.put F.XGS_CTRL_enable 0).domainEnd else s2).domainForm else if BitVec.getLsbD w 0 = true then if s2.get F.XGS_CTRL_enable = 0 then (s2.put F.XGS_CTRL_enable 1).domainForm else s2 else if s2.get F.XGS_CTRL_enable = 1 then (s2.put F.XGS_CTRL_enable 0).domainEnd else s2).twinRestart else if BitVec.getLsbD w 1 = true then (if BitVec.getLsbD w 0 = true then if s2.get F.XGS_CTRL_enable = 0 then (s2.put F.XGS_CTRL_enable 1).domainForm else s2 else if s2.get F.XGS_CTRL_enable = 1 then (s2.put F.XGS_CTRL_enable 0).domainEnd else s2).domainForm else if BitVec.getLsbD w 0 = true then if s2.get F.XGS_CTRL_enable = 0 then (s2.put F.XGS_CTRL_enable 1).domainForm else s2 else if s2.get F.XGS_CTRL_enable = 1 then (s2.put F.XGS_CTRL_enable 0).domainEnd else s2).twinPair = true)))
    ∧ (∃ (devs : List (ℕ × XRec)), ((devs.all fun (d : ℕ × XRec) => decide (d.2.id < 32)) = true))
    ∧ (∃ (devs : List (ℕ × XRec)) (e : ℕ × ℕ), ((devs.all fun (d : ℕ × XRec) => decide (d.2.id < 32)) = true) ∧ (e ∈ xAssign devs)) :=
  ⟨⟨2, wXlTr, 7#4, by decide +kernel⟩,
    ⟨2, wXg, 7#4, by decide +kernel⟩,
    ⟨2, wXg, 5#4, by decide +kernel⟩,
    ⟨2, (wAcc 1), (wXlP wXg), (wXlWr (wXlP wXg) 1).1, (wXlWr (wXlP wXg) 1).2, by decide +kernel⟩,
    ⟨2, (wAcc 0), wXlOn, (wXlWr wXlOn 0).1, (wXlWr wXlOn 0).2, by decide +kernel⟩,
    ⟨2, (wAcc 1), wXlOn, (wXlWr wXlOn 1).1, (wXlWr wXlOn 1).2, by decide +kernel⟩,
    ⟨2, (wAcc 3), wXlOn, (wXlWr wXlOn 3).1, (wXlWr wXlOn 3).2, by decide +kernel⟩,
    ⟨2, (wAcc 1), wXlOn, (wXlWr wXlOn 1).1, (wXlWr wXlOn 1).2, by decide +kernel⟩,
    ⟨(wAcc 5), wTwin, (wXgWr wTwin 5).1, (wXgWr wTwin 5).2, (.twinRestart (wAcc 5)), by decide +kernel⟩,
    ⟨(wAcc 3), wXg, (wXgWr wXg 3).1, (wXgWr wXg 3).2, (.rediscover (wAcc 3)), by decide +kernel⟩,
    ⟨[(5, { wGRec with id := 3 }), (6, { wGRec with id := 3 }), (7, { wGRec with auto := true }), (8, { wGRec with id := 3, take := some 5 })], by decide +kernel⟩,
    ⟨[(5, { wGRec with id := 3 })], (5, 3), by decide +kernel⟩⟩

theorem test_meets_RemoteAccess_1 :
    (∃ (l : Fin 8) (f : XFrame) (s : State), (s.awaits (↑l) 1 f = true) ∧ (s.forMe f = true) ∧ (s.remoteAt f.operand (32 * (xWords f).length) true = none))
    ∧ (∃ (l : Fin 8) (f : XFrame) (s : State) (a : ℕ), (s.awaits (↑l) 1 f = true) ∧ (s.forMe f = true) ∧ (s.remoteAt f.operand (32 * (xWords f).length) true = some a))
    ∧ (∃ (l : Fin 8) (f : XFrame) (s : State), (s.awaits (↑l) 2 f = true) ∧ (s.forMe f = true) ∧ (s.remoteAt f.operand (32 * (xWords f).length) false = none))
    ∧ (∃ (l : Fin 8) (f : XFrame) (s : State) (a : ℕ), (s.awaits (↑l) 2 f = true) ∧ (s.forMe f = true) ∧ (s.remoteAt f.operand (32 * (xWords f).length) false = some a))
    ∧ (∃ (l : Fin 8) (f : XFrame) (s : State), (s.awaits (↑l) 3 f = true) ∧ (s.forMe f = true) ∧ (List.find? (fun (e : ℕ × ExtRead) => !e.2.host && e.2.addr == memberBase f.src.toNat + f.operand.toNat % 2 ^ 43 * 32 % 2 ^ 36) s.ext = none))
    ∧ (∃ (l : Fin 8) (f : XFrame) (s : State) (e : ℕ × ExtRead), (s.awaits (↑l) 3 f = true) ∧ (s.forMe f = true) ∧ (List.find? (fun (e : ℕ × ExtRead) => !e.2.host && e.2.addr == memberBase f.src.toNat + f.operand.toNat % 2 ^ 43 * 32 % 2 ^ 36) s.ext = some e) ∧ (¬f.operand.getLsbD 43 = true))
    ∧ (∃ (l : Fin 8) (f : XFrame) (s : State) (e : ℕ × ExtRead), (s.awaits (↑l) 3 f = true) ∧ (s.forMe f = true) ∧ (List.find? (fun (e : ℕ × ExtRead) => !e.2.host && e.2.addr == memberBase f.src.toNat + f.operand.toNat % 2 ^ 43 * 32 % 2 ^ 36) s.ext = some e) ∧ (f.operand.getLsbD 43 = true))
    ∧ (∃ (r : ExtRead) (ws : List XWord) (s : State), (r.arr = none))
    ∧ (∃ (r : ExtRead) (ws : List XWord) (s : State) (n : ℕ), (r.arr = some n))
    ∧ (∃ (l : Fin 8) (f : XFrame) (s : State) (p : Instr × ℕ × Bool × ℕ), (p ∈ [(Instr.writeAcknowledge l f, 4, false, f.operand.toNat % 2 ^ 43 * 32 % 2 ^ 36), (Instr.signalAcknowledge l f, 6, true, f.operand.toNat % 4096)]) ∧ (s.awaits (↑l) p.2.1 f = true) ∧ (s.forMe f = true) ∧ (List.find? (fun (o : RemOut) => o.dst == f.src.toNat && (o.signal == p.2.2.1 && o.key == p.2.2.2)) s.xgs.outs = none))
    ∧ (∃ (l : Fin 8) (f : XFrame) (s : State) (p : Instr × ℕ × Bool × ℕ) (o : RemOut), (p ∈ [(Instr.writeAcknowledge l f, 4, false, f.operand.toNat % 2 ^ 43 * 32 % 2 ^ 36), (Instr.signalAcknowledge l f, 6, true, f.operand.toNat % 4096)]) ∧ (s.awaits (↑l) p.2.1 f = true) ∧ (s.forMe f = true) ∧ (List.find? (fun (o : RemOut) => o.dst == f.src.toNat && (o.signal == p.2.2.1 && o.key == p.2.2.2)) s.xgs.outs = some o) ∧ (¬f.operand.getLsbD 43 = true))
    ∧ (∃ (l : Fin 8) (f : XFrame) (s : State) (p : Instr × ℕ × Bool × ℕ) (o : RemOut), (p ∈ [(Instr.writeAcknowledge l f, 4, false, f.operand.toNat % 2 ^ 43 * 32 % 2 ^ 36), (Instr.signalAcknowledge l f, 6, true, f.operand.toNat % 4096)]) ∧ (s.awaits (↑l) p.2.1 f = true) ∧ (s.forMe f = true) ∧ (List.find? (fun (o : RemOut) => o.dst == f.src.toNat && (o.signal == p.2.2.1 && o.key == p.2.2.2)) s.xgs.outs = some o) ∧ (f.operand.getLsbD 43 = true)) :=
  ⟨⟨2, (wGFrm 1 (2 ^ 28) (leBytes 64 0x123456)), wXg, by decide +kernel⟩,
    ⟨2, (wGFrm 1 wOpd (leBytes 64 0x123456)), wXg, (hubBase + 64), by decide +kernel⟩,
    ⟨2, (wGFrm 2 (2 ^ 28) []), wXg, by decide +kernel⟩,
    ⟨2, (wGFrm 2 wOpd []), wXg, (hubBase + 64), by decide +kernel⟩,
    ⟨2, (wGFrm 3 2 (leBytes 32 0x9876)), wXg, by decide +kernel⟩,
    ⟨2, (wGFrm 3 2 (leBytes 32 0x9876)), wXgRd, (9, wRet), by decide +kernel⟩,
    ⟨2, wXgRd43, wXgRd, (9, wRet), by decide +kernel⟩,
    ⟨{ wRet with arr := none }, (xWords wXgRd43), wXgRd, by decide +kernel⟩,
    ⟨wRet, (xWords wXgRd43), wXgRd, 4, by decide +kernel⟩,
    ⟨2, (wGFrm 4 2 []), wXg, (Instr.writeAcknowledge 2 (wGFrm 4 2 []), 4, false, 64), by decide +kernel⟩,
    ⟨2, (wGFrm 4 2 []), (wXgO (wOut1 false 64)), (Instr.writeAcknowledge 2 (wGFrm 4 2 []), 4, false, 64), (wOut1 false 64), by decide +kernel⟩,
    ⟨2, (wGFrm 6 (2 ^ 43 + 5) []), (wXgO (wOut1 true 5)), (Instr.signalAcknowledge 2 (wGFrm 6 (2 ^ 43 + 5) []), 6, true, 5), (wOut1 true 5), by decide +kernel⟩⟩

theorem test_meets_RemoteAccess_2 :
    (∃ (l : Fin 8) (f : XFrame) (s : State), (s.awaits (↑l) 5 f = true) ∧ (s.forMe f = true) ∧ (s.replaying = false))
    ∧ (∃ (l : Fin 8) (f : XFrame) (s : State), (s.awaits (↑l) 5 f = true) ∧ (s.forMe f = true) ∧ (s.replaying = true) ∧ (s.get F.JRN_CTRL_domain = 1))
    ∧ (∃ (l : Fin 8) (f : XFrame) (s : State), (s.awaits (↑l) 5 f = true) ∧ (s.forMe f = true) ∧ (s.replaying = true) ∧ (s.get F.JRN_CTRL_domain = 0))
    ∧ (∃ (n : Arr) (s : State), (s.issues (arrNum n) 23 = true) ∧ (s.drained (arrNum n) = false))
    ∧ (∃ (n : Arr) (s : State), (s.issues (arrNum n) 23 = true) ∧ (s.drained (arrNum n) = true) ∧ (¬(s.insn (arrNum n)).mod.testBit 0 = true))
    ∧ (∃ (n : Arr) (s : State), (s.issues (arrNum n) 23 = true) ∧ (s.drained (arrNum n) = true) ∧ ((s.insn (arrNum n)).mod.testBit 0 = true) ∧ (s.xOpen (arrNum n) = true))
    ∧ (∃ (n : Arr) (s : State), (s.issues (arrNum n) 23 = true) ∧ (s.drained (arrNum n) = true) ∧ ((s.insn (arrNum n)).mod.testBit 0 = true) ∧ (s.xOpen (arrNum n) = false) ∧ (s.xLost (arrNum n) = true))
    ∧ (∃ (n : Arr) (s : State), (s.issues (arrNum n) 23 = true) ∧ (s.drained (arrNum n) = true) ∧ ((s.insn (arrNum n)).mod.testBit 0 = true) ∧ (s.xOpen (arrNum n) = false ∧ s.xLost (arrNum n) = false) ∧ (s.xReach ((s.arr (arrNum n)).operand (s.insn (arrNum n)).b % 32) = true))
    ∧ (∃ (n : Arr) (s : State), (s.issues (arrNum n) 23 = true) ∧ (s.drained (arrNum n) = true) ∧ ((s.insn (arrNum n)).mod.testBit 0 = true) ∧ (s.xOpen (arrNum n) = false ∧ s.xLost (arrNum n) = false) ∧ (s.xReach ((s.arr (arrNum n)).operand (s.insn (arrNum n)).b % 32) = false) ∧ (s.xgs.members ≠ [] ∧ (s.arr (arrNum n)).operand (s.insn (arrNum n)).b % 32 = s.xId))
    ∧ (∃ (n : Arr) (s : State), (s.issues (arrNum n) 23 = true) ∧ (s.drained (arrNum n) = true) ∧ ((s.insn (arrNum n)).mod.testBit 0 = true) ∧ (s.xOpen (arrNum n) = false ∧ s.xLost (arrNum n) = false) ∧ (s.xReach ((s.arr (arrNum n)).operand (s.insn (arrNum n)).b % 32) = false) ∧ (¬(s.xgs.members ≠ [] ∧ (s.arr (arrNum n)).operand (s.insn (arrNum n)).b % 32 = s.xId)))
    ∧ (∃ (n : Arr) (s : State), (s.get (F.ARR_STATE_state (arrNum n)) ≠ 1 ∨ (s.arr (arrNum n)).wait = ArrWait.none))
    ∧ (∃ (n : Arr) (s : State) (kind : ℕ), (s.get (F.ARR_STATE_state (arrNum n)) = 1) ∧ ((s.arr (arrNum n)).wait = ArrWait.fence kind) ∧ (¬if kind = 0 then (s.arr (arrNum n)).flights = [] else s.drained (arrNum n) = true ∧ (kind = 3 → s.xOpen (arrNum n) = false))) :=
  ⟨⟨2, (wGFrm 5 (5 + 4096 * 3) []), wXg, by decide +kernel⟩,
    ⟨2, (wGFrm 5 (5 + 4096 * 3) []), (wXgJ 1), by decide +kernel⟩,
    ⟨2, (wGFrm 5 (5 + 4096 * 3) []), (wXgJ 0), by decide +kernel⟩,
    ⟨wA0, (wFlying (wFsigR 1)), by decide +kernel⟩,
    ⟨wA0, (wSeq (wIns 0x17 0 5 0xC005 wNo wNo wNo)), by decide +kernel⟩,
    ⟨wA0, (wDomO [⟨0x400, 0, 0, 1, true, 5⟩] [] (wFsigR 1)), by decide +kernel⟩,
    ⟨wA0, (wDomO [] [(0x400, 0, 0)] (wFsigR 1)), by decide +kernel⟩,
    ⟨wA0, (wDom (wFsigR 1)), by decide +kernel⟩,
    ⟨wA0, (wDom (wFsigR 0)), by decide +kernel⟩,
    ⟨wA0, (wDom (wFsigR 7)), by decide +kernel⟩,
    ⟨wA0, (wWaitFor .none), by decide +kernel⟩,
    ⟨wA0, (wDomO [⟨0x400, 0, 0, 1, true, 5⟩] [] (wWaitFor (.fence 3))), 3, by decide +kernel⟩⟩

theorem test_meets_RemoteAccess_3 :
    (∃ (n : Arr) (s : State) (kind : ℕ), (s.get (F.ARR_STATE_state (arrNum n)) = 1) ∧ ((s.arr (arrNum n)).wait = ArrWait.fence kind) ∧ (if kind = 0 then (s.arr (arrNum n)).flights = [] else s.drained (arrNum n) = true ∧ (kind = 3 → s.xOpen (arrNum n) = false)) ∧ (kind = 3) ∧ (s.xLost (arrNum n) = true))
    ∧ (∃ (n : Arr) (s : State) (kind : ℕ), (s.get (F.ARR_STATE_state (arrNum n)) = 1) ∧ ((s.arr (arrNum n)).wait = ArrWait.fence kind) ∧ (if kind = 0 then (s.arr (arrNum n)).flights = [] else s.drained (arrNum n) = true ∧ (kind = 3 → s.xOpen (arrNum n) = false)) ∧ (kind ≠ 3 ∨ s.xLost (arrNum n) = false))
    ∧ (∃ (n : ℕ) (s : State), (s.arrJob n = none))
    ∧ (∃ (n : ℕ) (s : State) (j : Job), (s.arrJob n = some j))
    ∧ (∃ (n : Arr) (s : State) (d : ℕ), (s.issues (arrNum n) 32 = true) ∧ ((s.arr (arrNum n)).operand (s.insn (arrNum n)).a % 32 = 0 ∧ s.badRange ((s.arr (arrNum n)).operand (s.insn (arrNum n)).a) (32 * (s.insn (arrNum n)).imm) = false ∧ lbFits ((s.arr (arrNum n)).lbWord (s.insn (arrNum n)).d) (s.insn (arrNum n)).imm = true ∧ (s.arr (arrNum n)).accepts [] [((s.arr (arrNum n)).lbWord (s.insn (arrNum n)).d, (s.insn (arrNum n)).imm)] = true) ∧ (s.region ((s.arr (arrNum n)).operand (s.insn (arrNum n)).a) = Region.member d) ∧ (s.xAlone = true))
    ∧ (∃ (n : Arr) (s : State) (d : ℕ), (s.issues (arrNum n) 32 = true) ∧ ((s.arr (arrNum n)).operand (s.insn (arrNum n)).a % 32 = 0 ∧ s.badRange ((s.arr (arrNum n)).operand (s.insn (arrNum n)).a) (32 * (s.insn (arrNum n)).imm) = false ∧ lbFits ((s.arr (arrNum n)).lbWord (s.insn (arrNum n)).d) (s.insn (arrNum n)).imm = true ∧ (s.arr (arrNum n)).accepts [] [((s.arr (arrNum n)).lbWord (s.insn (arrNum n)).d, (s.insn (arrNum n)).imm)] = true) ∧ (s.region ((s.arr (arrNum n)).operand (s.insn (arrNum n)).a) = Region.member d) ∧ (s.xAlone = false) ∧ (s.xReach d = false))
    ∧ (∃ (n : Arr) (s : State) (d : ℕ), (s.issues (arrNum n) 32 = true) ∧ ((s.arr (arrNum n)).operand (s.insn (arrNum n)).a % 32 = 0 ∧ s.badRange ((s.arr (arrNum n)).operand (s.insn (arrNum n)).a) (32 * (s.insn (arrNum n)).imm) = false ∧ lbFits ((s.arr (arrNum n)).lbWord (s.insn (arrNum n)).d) (s.insn (arrNum n)).imm = true ∧ (s.arr (arrNum n)).accepts [] [((s.arr (arrNum n)).lbWord (s.insn (arrNum n)).d, (s.insn (arrNum n)).imm)] = true) ∧ (s.region ((s.arr (arrNum n)).operand (s.insn (arrNum n)).a) = Region.member d) ∧ (s.xAlone = false) ∧ (s.xReach d = true))
    ∧ (∃ (n : Arr) (s : State), (s.issues (arrNum n) 32 = true) ∧ ((s.arr (arrNum n)).operand (s.insn (arrNum n)).a % 32 = 0 ∧ s.badRange ((s.arr (arrNum n)).operand (s.insn (arrNum n)).a) (32 * (s.insn (arrNum n)).imm) = false ∧ lbFits ((s.arr (arrNum n)).lbWord (s.insn (arrNum n)).d) (s.insn (arrNum n)).imm = true ∧ (s.arr (arrNum n)).accepts [] [((s.arr (arrNum n)).lbWord (s.insn (arrNum n)).d, (s.insn (arrNum n)).imm)] = true) ∧ (s.region ((s.arr (arrNum n)).operand (s.insn (arrNum n)).a) = Region.doorbell))
    ∧ (∃ (n : Arr) (s : State) (d : ℕ), (s.issues (arrNum n) 33 = true) ∧ ((s.arr (arrNum n)).operand (s.insn (arrNum n)).d % 32 = 0 ∧ s.badRange ((s.arr (arrNum n)).operand (s.insn (arrNum n)).d) (32 * (s.insn (arrNum n)).imm) = false ∧ lbFits ((s.arr (arrNum n)).lbWord (s.insn (arrNum n)).a) (s.insn (arrNum n)).imm = true ∧ (s.arr (arrNum n)).accepts [((s.arr (arrNum n)).lbWord (s.insn (arrNum n)).a, (s.insn (arrNum n)).imm)] [] = true) ∧ (s.region ((s.arr (arrNum n)).operand (s.insn (arrNum n)).d) = Region.member d) ∧ (s.xReach d = true))
    ∧ (∃ (n : Arr) (s : State) (d : ℕ), (s.issues (arrNum n) 33 = true) ∧ ((s.arr (arrNum n)).operand (s.insn (arrNum n)).d % 32 = 0 ∧ s.badRange ((s.arr (arrNum n)).operand (s.insn (arrNum n)).d) (32 * (s.insn (arrNum n)).imm) = false ∧ lbFits ((s.arr (arrNum n)).lbWord (s.insn (arrNum n)).a) (s.insn (arrNum n)).imm = true ∧ (s.arr (arrNum n)).accepts [((s.arr (arrNum n)).lbWord (s.insn (arrNum n)).a, (s.insn (arrNum n)).imm)] [] = true) ∧ (s.region ((s.arr (arrNum n)).operand (s.insn (arrNum n)).d) = Region.member d) ∧ (s.xReach d = false)) :=
  ⟨⟨wA0, (wDomO [] [(0x400, 0, 0)] (wWaitFor (.fence 3))), 3, by decide +kernel⟩,
    ⟨wA0, (wDom (wWaitFor (.fence 3))), 3, by decide +kernel⟩,
    ⟨5, (wWaitFor .none), by decide +kernel⟩,
    ⟨0, (wWaitFor .none), wJob, by decide +kernel⟩,
    ⟨wA0, (wAloneS (wLdX (memberBase 1))), 1, by decide +kernel⟩,
    ⟨wA0, (wDom (wLdX (memberBase 7))), 7, by decide +kernel⟩,
    ⟨wA0, (wDom (wLdX (memberBase 1))), 1, by decide +kernel⟩,
    ⟨wA0, (wLdX (doorbellBase + 64)), by decide +kernel⟩,
    ⟨wA0, (wDom (wStX' (memberBase 1))), 1, by decide +kernel⟩,
    ⟨wA0, (wDom (wStX' (memberBase 7))), 7, by decide +kernel⟩⟩

theorem test_meets_CollectivesAndTwin_1 :
    (∃ (n : Fin 64) (s : State), (¬(↑n ∈ s.xgs.go ∧ ((fieldAt (s.collSlot ↑n) 32 2).testBit 15 = false ∨ fieldAt (s.collSlot ↑n) 40 8 ≤ s.fence (fieldAt (s.collSlot ↑n) 32 2 % 4096)))))
    ∧ (∃ (n : Fin 64) (s : State), (↑n ∈ s.xgs.go ∧ ((fieldAt (s.collSlot ↑n) 32 2).testBit 15 = false ∨ fieldAt (s.collSlot ↑n) 40 8 ≤ s.fence (fieldAt (s.collSlot ↑n) 32 2 % 4096))) ∧ (s.collOwnCause (s.collSlot ↑n) ≠ 0))
    ∧ (∃ (n : Fin 64) (s : State) (c : ℕ), (↑n ∈ s.xgs.go ∧ ((fieldAt (s.collSlot ↑n) 32 2).testBit 15 = false ∨ fieldAt (s.collSlot ↑n) 40 8 ≤ s.fence (fieldAt (s.collSlot ↑n) 32 2 % 4096))) ∧ (s.collOwnCause (s.collSlot ↑n) = 0) ∧ (tabFind (if ↑n ∈ s.xgs.said then s else s.collTake (↑n) ((s.group (csGroup (s.collSlot ↑n))).getD []) (s.collSlot ↑n) 0).xgs.failed ↑n = some c))
    ∧ (∃ (n : Fin 64) (s : State), ((↑n ∈ s.xgs.go ∧ ((fieldAt (s.collSlot ↑n) 32 2).testBit 15 = false ∨ fieldAt (s.collSlot ↑n) 40 8 ≤ s.fence (fieldAt (s.collSlot ↑n) 32 2 % 4096))) ∧ s.collOwnCause (s.collSlot ↑n) = 0 ∧ tabFind (if ↑n ∈ s.xgs.said then s else s.collTake (↑n) ((s.group (csGroup (s.collSlot ↑n))).getD []) (s.collSlot ↑n) 0).xgs.failed ↑n = none) ∧ ((List.filter (fun (i : ℕ) => i != s.xId) ((s.group (csGroup (s.collSlot ↑n))).getD [])).all (if ↑n ∈ s.xgs.said then s else s.collTake (↑n) ((s.group (csGroup (s.collSlot ↑n))).getD []) (s.collSlot ↑n) 0).xReach = false))
    ∧ (∃ (n : Fin 64) (s : State), (((↑n ∈ s.xgs.go ∧ ((fieldAt (s.collSlot ↑n) 32 2).testBit 15 = false ∨ fieldAt (s.collSlot ↑n) 40 8 ≤ s.fence (fieldAt (s.collSlot ↑n) 32 2 % 4096))) ∧ s.collOwnCause (s.collSlot ↑n) = 0 ∧ tabFind (if ↑n ∈ s.xgs.said then s else s.collTake (↑n) ((s.group (csGroup (s.collSlot ↑n))).getD []) (s.collSlot ↑n) 0).xgs.failed ↑n = none) ∧ (List.filter (fun (i : ℕ) => i != s.xId) ((s.group (csGroup (s.collSlot ↑n))).getD [])).all (if ↑n ∈ s.xgs.said then s else s.collTake (↑n) ((s.group (csGroup (s.collSlot ↑n))).getD []) (s.collSlot ↑n) 0).xReach = true) ∧ (((List.filter (fun (i : ℕ) => i != s.xId) ((s.group (csGroup (s.collSlot ↑n))).getD [])).all fun (i : ℕ) => (tabFind (if ↑n ∈ s.xgs.said then s else s.collTake (↑n) ((s.group (csGroup (s.collSlot ↑n))).getD []) (s.collSlot ↑n) 0).xgs.heard (32 * ↑n + i)).isSome) = false))
    ∧ (∃ (n : Fin 64) (s : State), ((((↑n ∈ s.xgs.go ∧ ((fieldAt (s.collSlot ↑n) 32 2).testBit 15 = false ∨ fieldAt (s.collSlot ↑n) 40 8 ≤ s.fence (fieldAt (s.collSlot ↑n) 32 2 % 4096))) ∧ s.collOwnCause (s.collSlot ↑n) = 0 ∧ tabFind (if ↑n ∈ s.xgs.said then s else s.collTake (↑n) ((s.group (csGroup (s.collSlot ↑n))).getD []) (s.collSlot ↑n) 0).xgs.failed ↑n = none) ∧ (List.filter (fun (i : ℕ) => i != s.xId) ((s.group (csGroup (s.collSlot ↑n))).getD [])).all (if ↑n ∈ s.xgs.said then s else s.collTake (↑n) ((s.group (csGroup (s.collSlot ↑n))).getD []) (s.collSlot ↑n) 0).xReach = true) ∧ ((List.filter (fun (i : ℕ) => i != s.xId) ((s.group (csGroup (s.collSlot ↑n))).getD [])).all fun (i : ℕ) => (tabFind (if ↑n ∈ s.xgs.said then s else s.collTake (↑n) ((s.group (csGroup (s.collSlot ↑n))).getD []) (s.collSlot ↑n) 0).xgs.heard (32 * ↑n + i)).isSome) = true) ∧ (collGroupCause (s.collSay (s.collSlot ↑n) 0) (List.map (fun (i : ℕ) => if i = s.xId then s.collSay (s.collSlot ↑n) 0 else tabGet (if ↑n ∈ s.xgs.said then s else s.collTake (↑n) ((s.group (csGroup (s.collSlot ↑n))).getD []) (s.collSlot ↑n) 0).xgs.heard (32 * ↑n + i) []) ((s.group (csGroup (s.collSlot ↑n))).getD [])) ≠ 0))
    ∧ (∃ (n : Fin 64) (s : State), ((((↑n ∈ s.xgs.go ∧ ((fieldAt (s.collSlot ↑n) 32 2).testBit 15 = false ∨ fieldAt (s.collSlot ↑n) 40 8 ≤ s.fence (fieldAt (s.collSlot ↑n) 32 2 % 4096))) ∧ s.collOwnCause (s.collSlot ↑n) = 0 ∧ tabFind (if ↑n ∈ s.xgs.said then s else s.collTake (↑n) ((s.group (csGroup (s.collSlot ↑n))).getD []) (s.collSlot ↑n) 0).xgs.failed ↑n = none) ∧ (List.filter (fun (i : ℕ) => i != s.xId) ((s.group (csGroup (s.collSlot ↑n))).getD [])).all (if ↑n ∈ s.xgs.said then s else s.collTake (↑n) ((s.group (csGroup (s.collSlot ↑n))).getD []) (s.collSlot ↑n) 0).xReach = true) ∧ ((List.filter (fun (i : ℕ) => i != s.xId) ((s.group (csGroup (s.collSlot ↑n))).getD [])).all fun (i : ℕ) => (tabFind (if ↑n ∈ s.xgs.said then s else s.collTake (↑n) ((s.group (csGroup (s.collSlot ↑n))).getD []) (s.collSlot ↑n) 0).xgs.heard (32 * ↑n + i)).isSome) = true) ∧ (collGroupCause (s.collSay (s.collSlot ↑n) 0) (List.map (fun (i : ℕ) => if i = s.xId then s.collSay (s.collSlot ↑n) 0 else tabGet (if ↑n ∈ s.xgs.said then s else s.collTake (↑n) ((s.group (csGroup (s.collSlot ↑n))).getD []) (s.collSlot ↑n) 0).xgs.heard (32 * ↑n + i) []) ((s.group (csGroup (s.collSlot ↑n))).getD [])) = 0))
    ∧ (∃ (n : ℕ) (members : List ℕ) (b : List Byte) (cause : ℕ) (s : State), (tabFind s.xgs.failed n = none))
    ∧ (∃ (n : ℕ) (members : List ℕ) (b : List Byte) (cause : ℕ) (s : State), (tabFind s.xgs.failed n ≠ none))
    ∧ (∃ (b : List Byte) (s : State), (((s.group (csGroup b)).bind fun (l : List ℕ) => List.idxOf? s.xId l) = none))
    ∧ (∃ (b : List Byte) (s : State) (l : List ℕ) (r : ℕ), (s.group (csGroup b) = some l) ∧ (((s.group (csGroup b)).bind fun (l : List ℕ) => List.idxOf? s.xId l) = some r) ∧ (csSizeOk b = false))
    ∧ (∃ (b : List Byte) (s : State) (l : List ℕ) (r : ℕ), (s.group (csGroup b) = some l) ∧ (((s.group (csGroup b)).bind fun (l : List ℕ) => List.idxOf? s.xId l) = some r) ∧ (csSizeOk b = true) ∧ (¬(s.inMemory (csSrc b) (csSourceBytes b l.length) = true ∧ (csHolds b r = true → s.inMemory (csDst b) (csResultBytes b l.length) = true)))) :=
  ⟨⟨0, wXg, by decide +kernel⟩,
    ⟨0, (wXgC 1 3 false []), by decide +kernel⟩,
    ⟨0, wXgFailed, 3, by decide +kernel⟩,
    ⟨0, wXgFar, by decide +kernel⟩,
    ⟨0, (wXgC 1 0 false []), by decide +kernel⟩,
    ⟨0, (wXgC 1 0 true [(1, wSay5)]), by decide +kernel⟩,
    ⟨0, (wXgC 1 0 true [(1, wXgSay)]), by decide +kernel⟩,
    ⟨0, [0, 1], wXgSay, 3, (wXgC 1 0 true [(1, wXgSay)]), by decide +kernel⟩,
    ⟨0, [0, 1], wXgSay, 3, wXgFailed, by decide +kernel⟩,
    ⟨(wB 1 0x300 32 0 0 0 0), (wXgC 1 0 false []), by decide +kernel⟩,
    ⟨(wB 1 0 33 0 0 0 0), (wXgC 1 0 false []), [0, 1], 0, by decide +kernel⟩,
    ⟨(wSlot 1 0 0x100 0x200 32), (wXgC 1 0 false []), [0, 1], 0, by decide +kernel⟩⟩

theorem test_meets_CollectivesAndTwin_2 :
    (∃ (b : List Byte) (s : State) (l : List ℕ) (r : ℕ), (s.group (csGroup b) = some l) ∧ (((s.group (csGroup b)).bind fun (l : List ℕ) => List.idxOf? s.xId l) = some r) ∧ (csSizeOk b = true) ∧ (s.inMemory (csSrc b) (csSourceBytes b l.length) = true ∧ (csHolds b r = true → s.inMemory (csDst b) (csResultBytes b l.length) = true)))
    ∧ (∃ (b : List Byte) (s : State) (all : List (List Byte)), (¬∀ x ∈ all, bytesAt x 0 4 = bytesAt b 0 4 ∧ bytesAt x 24 8 = bytesAt b 24 8 ∧ bytesAt x 52 4 = bytesAt b 52 4))
    ∧ (∃ (b : List Byte) (s : State) (all : List (List Byte)), (∀ x ∈ all, bytesAt x 0 4 = bytesAt b 0 4 ∧ bytesAt x 24 8 = bytesAt b 24 8 ∧ bytesAt x 52 4 = bytesAt b 52 4) ∧ (csOp b ≠ 3))
    ∧ (∃ (b : List Byte) (s : State) (all : List (List Byte)), (∀ x ∈ all, bytesAt x 0 4 = bytesAt b 0 4 ∧ bytesAt x 24 8 = bytesAt b 24 8 ∧ bytesAt x 52 4 = bytesAt b 52 4) ∧ (csOp b = 3) ∧ (¬((∀ t < csTotal b, (List.filter (fun (x : List Byte) => decide (csFirst x ≤ t ∧ t < csFirst x + csCount x)) all).length = 1) ∧ (List.map csCount all).sum = csTotal b)))
    ∧ (∃ (b : List Byte) (s : State) (all : List (List Byte)), (∀ x ∈ all, bytesAt x 0 4 = bytesAt b 0 4 ∧ bytesAt x 24 8 = bytesAt b 24 8 ∧ bytesAt x 52 4 = bytesAt b 52 4) ∧ (csOp b = 3) ∧ ((∀ t < csTotal b, (List.filter (fun (x : List Byte) => decide (csFirst x ≤ t ∧ t < csFirst x + csCount x)) all).length = 1) ∧ (List.map csCount all).sum = csTotal b) ∧ (¬∀ x ∈ all, bytesAt x 56 4 = bytesAt b 56 4))
    ∧ (∃ (b : List Byte) (s : State) (all : List (List Byte)), (∀ x ∈ all, bytesAt x 0 4 = bytesAt b 0 4 ∧ bytesAt x 24 8 = bytesAt b 24 8 ∧ bytesAt x 52 4 = bytesAt b 52 4) ∧ (csOp b = 3) ∧ ((∀ t < csTotal b, (List.filter (fun (x : List Byte) => decide (csFirst x ≤ t ∧ t < csFirst x + csCount x)) all).length = 1) ∧ (List.map csCount all).sum = csTotal b) ∧ (∀ x ∈ all, bytesAt x 56 4 = bytesAt b 56 4))
    ∧ (∃ (l : Fin 8) (f : XFrame) (s : State), (s.awaits (↑l) 10 f = true) ∧ (s.forMe f = true) ∧ (fieldAt (frameBytes f) 60 4 = 0))
    ∧ (∃ (l : Fin 8) (f : XFrame) (s : State), (s.awaits (↑l) 10 f = true) ∧ (s.forMe f = true) ∧ (fieldAt (frameBytes f) 60 4 ≠ 0))
    ∧ (∃ (l : Fin 8) (f : XFrame) (s : State), (s.awaits (↑l) 9 f = true) ∧ (s.forMe f = true))
    ∧ (∃ (n : Fin 64) (s : State), (↑n ∉ s.xgs.active))
    ∧ (∃ (n : Fin 64) (s : State) (c : ℕ), (↑n ∈ s.xgs.active) ∧ (tabFind s.xgs.failed ↑n = some c))
    ∧ (∃ (n : Fin 64) (s : State), (↑n ∈ s.xgs.active) ∧ (tabFind s.xgs.failed ↑n = none) ∧ (s.collResult (↑n) (tabGet s.xgs.heard (2048 + 32 * ↑n + s.xId) []) ((s.group (csGroup (tabGet s.xgs.heard (2048 + 32 * ↑n + s.xId) []))).getD []) = none)) :=
  ⟨⟨(wB 1 0 32 0 0 0 0), (wXgC 1 0 false []), [0, 1], 0, by decide +kernel⟩,
    ⟨wXgSay, (wXgC 1 0 false []), [wSay5], by decide +kernel⟩,
    ⟨wXgSay, (wXgC 1 0 false []), [wXgSay], by decide +kernel⟩,
    ⟨(wMg 0 1 1), (wXgC 1 0 false []), [wMg 0 1 1, wMg 0 1 1], by decide +kernel⟩,
    ⟨(wMg 0 1 1), (wXgC 1 0 false []), [wMg 0 1 1, wMg 1 1 2], by decide +kernel⟩,
    ⟨(wMg 0 1 1), (wXgC 1 0 false []), [wMg 0 1 1, wMg 1 1 1], by decide +kernel⟩,
    ⟨2, (wGFrm 10 3 wXgSay), wXg, by decide +kernel⟩,
    ⟨2, (wGFrm 10 3 (bytesAt wXgSay 0 0x3C ++ leBytes 4 3)), wXg, by decide +kernel⟩,
    ⟨2, (wGFrm 9 (3 + 128 * 5) (leBytes 64 0x99)), wXg, by decide +kernel⟩,
    ⟨0, wXg, by decide +kernel⟩,
    ⟨0, (wXgA [(0, 2)] []), 2, by decide +kernel⟩,
    ⟨0, (wXgA [] []), by decide +kernel⟩⟩

theorem test_meets_CollectivesAndTwin_3 :
    (∃ (n : Fin 64) (s : State) (ws : List XWord), (↑n ∈ s.xgs.active) ∧ (tabFind s.xgs.failed ↑n = none) ∧ (s.collResult (↑n) (tabGet s.xgs.heard (2048 + 32 * ↑n + s.xId) []) ((s.group (csGroup (tabGet s.xgs.heard (2048 + 32 * ↑n + s.xId) []))).getD []) = some ws))
    ∧ (∃ (n : ℕ) (b : List Byte) (members : List ℕ) (s : State), (csOp b = 1))
    ∧ (∃ (n : ℕ) (b : List Byte) (members : List ℕ) (s : State), (csOp b = 2))
    ∧ (∃ (n : ℕ) (b : List Byte) (members : List ℕ) (s : State), (csOp b = 3) ∧ ((List.idxOf? s.xId members).getD 0 = 0))
    ∧ (∃ (n : ℕ) (b : List Byte) (members : List ℕ) (s : State), (csOp b = 3) ∧ ((List.idxOf? s.xId members).getD 0 ≠ 0) ∧ (csAll b = true))
    ∧ (∃ (n : ℕ) (b : List Byte) (members : List ℕ) (s : State), (csOp b = 3) ∧ ((List.idxOf? s.xId members).getD 0 ≠ 0) ∧ (csAll b = false))
    ∧ (∃ (n : ℕ) (b : List Byte) (members : List ℕ) (s : State) (data : List CollWord) (idx : ℕ) (k : ℕ), (k < 8) ∧ (csInt b = true))
    ∧ (∃ (n : ℕ) (b : List Byte) (members : List ℕ) (s : State) (data : List CollWord) (idx : ℕ) (k : ℕ), (k < 8) ∧ (csInt b = false) ∧ (csExact b = true))
    ∧ (∃ (n : ℕ) (b : List Byte) (members : List ℕ) (s : State) (data : List CollWord) (idx : ℕ) (k : ℕ), (k < 8) ∧ (csInt b = false) ∧ (csExact b = false))
    ∧ (∃ (n : ℕ) (b : List Byte) (members : List ℕ) (s : State) (data : List CollWord) (idx : ℕ) (k : ℕ), (k < 8))
    ∧ (∃ (n : ℕ) (b : List Byte) (ws : List CollWord) (members : List ℕ) (q : ℕ) (s : State), (csExact b = true))
    ∧ (∃ (n : ℕ) (b : List Byte) (ws : List CollWord) (members : List ℕ) (q : ℕ) (s : State), (csExact b = false)) :=
  ⟨⟨0, (wXgA [] [wWordC 0 0x55]), [(leBytes 32 0x55, false)], by decide +kernel⟩,
    ⟨0, (wB 1 0 32 0 0 0 0), [0, 1], (wXgA [] [wWordC 0 0x55]), by decide +kernel⟩,
    ⟨0, (wB 2 0 8 0 0 0 0), [0, 1], (wXgA [] [wWordC 0 0x55]), by decide +kernel⟩,
    ⟨0, (wB 3 16 1 1 0 1 2), [0, 1], (wXgA [] [wWordC 0 0x55]), by decide +kernel⟩,
    ⟨0, (wB 3 80 1 1 0 1 2), [1, 0], (wXgA [] [wWordC 0 0x55]), by decide +kernel⟩,
    ⟨0, (wB 3 16 1 1 0 1 2), [1, 0], (wXgA [] [wWordC 0 0x55]), by decide +kernel⟩,
    ⟨0, (wB 2 32 8 0 0 0 0), [0, 1], (wXgA [] [wWordC 0 0x55]), [wWordC 0 0x7FFFFFFF, wWordC 1 5], 0, 0, by decide +kernel⟩,
    ⟨0, (wB 2 16 8 0 0 0 0), [0, 1], (wXgA [] [wWordC 0 0x55]), [wWordC 0 0x7FFFFFFF, wWordC 1 5], 0, 0, by decide +kernel⟩,
    ⟨0, (wB 2 0 8 0 0 0 0), [0, 1], (wXgA [] [wWordC 0 0x55]), [wWordC 0 0x7FFFFFFF, wWordC 1 5], 0, 0, by decide +kernel⟩,
    ⟨0, (wB 2 0 8 0 0 0 0), [0, 1], (wXgA [] [wWordC 0 0x55]), [wWordC 0 0x7FFFFFFF, wWordC 1 5], 0, 0, by decide +kernel⟩,
    ⟨0, (wMg 0 1 1), [wWordC 0 1, wWordC 1 2], [0, 1], 0, (wXgC 1 0 false [(2048, wMg 0 1 1), (2049, wMg 1 1 1)]), by decide +kernel⟩,
    ⟨0, (wB 3 0 1 1 0 1 2), [wWordC 1 1, wWordC 0 2], [0, 1], 0, (wXgC 1 0 false [(2048, wMg 0 1 1), (2049, wMg 1 1 1)]), by decide +kernel⟩⟩

theorem test_meets_CollectivesAndTwin_4 :
    (∃ (a : ℕ) (n : ℕ) (s : State), (¬(s.get F.XGS_CTRL_enable = 1 ∧ a < s.addr F.XGS_COLL_BASE_LO_base + 8192 ∧ s.addr F.XGS_COLL_BASE_LO_base < a + n)))
    ∧ (∃ (a : ℕ) (n : ℕ) (s : State), (s.get F.XGS_CTRL_enable = 1 ∧ a < s.addr F.XGS_COLL_BASE_LO_base + 8192 ∧ s.addr F.XGS_COLL_BASE_LO_base < a + n))
    ∧ (∃ (slot : ℕ) (number : ℕ) (flags : ℕ) (digest : ℕ) (s : State), (s.twinPair = true) ∧ (s.twinSlot slot = true))
    ∧ (∃ (slot : ℕ) (number : ℕ) (flags : ℕ) (digest : ℕ) (s : State), (s.twinPair = false ∨ s.twinSlot slot = false))
    ∧ (∃ (l : Fin 8) (f : XFrame) (s : State), (s.awaits (↑l) 11 f = true) ∧ (s.forMe f = true) ∧ (s.replaying = true))
    ∧ (∃ (l : Fin 8) (f : XFrame) (s : State), (s.awaits (↑l) 11 f = true) ∧ (s.forMe f = true) ∧ (s.replaying = false) ∧ (¬(s.twinPair = true ∧ ((xWords f).all fun (w : XWord) => !w.2) = true ∧ Option.all (fun (t : ℕ × ℕ) => decide (t.1 < fieldAt ((Option.map (fun (x : XWord) => x.1) (xWords f).head?).getD []) 8 4)) (tabFind s.twin.taken (fieldAt ((Option.map (fun (x : XWord) => x.1) (xWords f).head?).getD []) 0 4 % 64)) = true)))
    ∧ (∃ (l : Fin 8) (f : XFrame) (s : State), (s.awaits (↑l) 11 f = true) ∧ (s.forMe f = true) ∧ (s.replaying = false) ∧ (s.twinPair = true ∧ ((xWords f).all fun (w : XWord) => !w.2) = true ∧ Option.all (fun (t : ℕ × ℕ) => decide (t.1 < fieldAt ((Option.map (fun (x : XWord) => x.1) (xWords f).head?).getD []) 8 4)) (tabFind s.twin.taken (fieldAt ((Option.map (fun (x : XWord) => x.1) (xWords f).head?).getD []) 0 4 % 64)) = true))
    ∧ (∃ (l : Fin 8) (f : XFrame) (s : State), (s.awaits (↑l) 12 f = true) ∧ (s.forMe f = true) ∧ (fieldAt ((Option.map (fun (x : XWord) => x.1) (xWords f).head?).getD []) 0 4 = 1))
    ∧ (∃ (l : Fin 8) (f : XFrame) (s : State), (s.awaits (↑l) 12 f = true) ∧ (s.forMe f = true) ∧ (fieldAt ((Option.map (fun (x : XWord) => x.1) (xWords f).head?).getD []) 0 4 = 2))
    ∧ (∃ (l : Fin 8) (f : XFrame) (s : State), (s.awaits (↑l) 12 f = true) ∧ (s.forMe f = true) ∧ (fieldAt ((Option.map (fun (x : XWord) => x.1) (xWords f).head?).getD []) 0 4 ≠ 1) ∧ (fieldAt ((Option.map (fun (x : XWord) => x.1) (xWords f).head?).getD []) 0 4 ≠ 2))
    ∧ (∃ (r : TwinRes) (s : State) (a : Option (ℕ × ℕ)) (b : Option (ℕ × ℕ)), (Option.any (fun (x : ℕ × ℕ) => Option.any (fun (y : ℕ × ℕ) => x.1 == y.1 && x.2 != y.2) b) a = false))
    ∧ (∃ (r : TwinRes) (s : State) (a : Option (ℕ × ℕ)) (b : Option (ℕ × ℕ)), (Option.any (fun (x : ℕ × ℕ) => Option.any (fun (y : ℕ × ℕ) => x.1 == y.1 && x.2 != y.2) b) a = true)) :=
  ⟨⟨0, 4, wXg, by decide +kernel⟩,
    ⟨wColl0, 32, { wXgC 1 0 false [] with xgs := { wXg.xgs with go := [] } }, by decide +kernel⟩,
    ⟨5, 9, 0, 7, wTwS, by decide +kernel⟩,
    ⟨6, 9, 0, 7, wTwS, by decide +kernel⟩,
    ⟨2, wTwinF, (wTwin.put F.JRN_STATUS_state 3), by decide +kernel⟩,
    ⟨2, wTwinF, wTwOld, by decide +kernel⟩,
    ⟨2, wTwinF, wTwin, by decide +kernel⟩,
    ⟨2, (wGFrm 12 0 (leBytes 32 1)), (wTwinA 0), by decide +kernel⟩,
    ⟨2, (wGFrm 12 0 (leBytes 32 2)), (wTwinA 0), by decide +kernel⟩,
    ⟨2, (wGFrm 12 0 (leBytes 32 3)), (wTwinA 0), by decide +kernel⟩,
    ⟨(wTwinR 7 false), wTwin, none, none, by decide +kernel⟩,
    ⟨(wTwinR 7 false), wTwin, (some (1, 2)), (some (1, 3)), by decide +kernel⟩⟩

theorem test_meets_CollectivesAndTwin_5 :
    (∃ (slot : Fin 64) (index : Word) (s : State), (List.find? (fun (r : TwinRes) => r.slot == ↑slot && r.index == BitVec.toNat index) s.twin.own = none ∨ List.find? (fun (r : TwinRes) => r.slot == ↑slot && r.index == BitVec.toNat index) s.twin.theirs = none))
    ∧ (∃ (slot : Fin 64) (index : Word) (s : State) (a : TwinRes) (b : TwinRes), (List.find? (fun (r : TwinRes) => r.slot == ↑slot && r.index == BitVec.toNat index) s.twin.own = some a) ∧ (List.find? (fun (r : TwinRes) => r.slot == ↑slot && r.index == BitVec.toNat index) s.twin.theirs = some b) ∧ (a.digest = b.digest))
    ∧ (∃ (slot : Fin 64) (index : Word) (s : State) (a : TwinRes) (b : TwinRes), (List.find? (fun (r : TwinRes) => r.slot == ↑slot && r.index == BitVec.toNat index) s.twin.own = some a) ∧ (List.find? (fun (r : TwinRes) => r.slot == ↑slot && r.index == BitVec.toNat index) s.twin.theirs = some b) ∧ (a.digest ≠ b.digest))
    ∧ (∃ (slot : ℕ) (index : ℕ) (s : State) (mine : Bool) (yours : Bool), (mine = true) ∧ (yours = false))
    ∧ (∃ (slot : ℕ) (index : ℕ) (s : State) (mine : Bool) (yours : Bool), (mine = false) ∧ (yours = true))
    ∧ (∃ (slot : ℕ) (index : ℕ) (s : State) (mine : Bool) (yours : Bool), (mine = yours))
    ∧ (∃ (i : ℕ) (slot : ℕ) (index : ℕ) (s : State), (List.find? (fun (w : PairWait) => w.msg.slot == slot && w.index == index) (s.island i).waits = none))
    ∧ (∃ (i : ℕ) (slot : ℕ) (index : ℕ) (s : State) (w : PairWait), (List.find? (fun (w : PairWait) => w.msg.slot == slot && w.index == index) (s.island i).waits = some w))
    ∧ (∃ (slot : Fin 64) (s : State), (List.find? (fun (r : TwinRes) => r.slot == ↑slot) s.twin.own = none))
    ∧ (∃ (slot : Fin 64) (s : State) (r : TwinRes), (List.find? (fun (r : TwinRes) => r.slot == ↑slot) s.twin.own = some r) ∧ ((fun (r : TwinRes) => s.twin.theirs.any fun (t : TwinRes) => t.slot == ↑slot && t.index == r.index) r = true))
    ∧ (∃ (slot : Fin 64) (s : State) (r : TwinRes), (List.find? (fun (r : TwinRes) => r.slot == ↑slot) s.twin.own = some r) ∧ ((fun (r : TwinRes) => s.twin.theirs.any fun (t : TwinRes) => t.slot == ↑slot && t.index == r.index) r = false) ∧ (s.twin.absent + 1 < 3))
    ∧ (∃ (slot : Fin 64) (s : State) (r : TwinRes), (List.find? (fun (r : TwinRes) => r.slot == ↑slot) s.twin.own = some r) ∧ ((fun (r : TwinRes) => s.twin.theirs.any fun (t : TwinRes) => t.slot == ↑slot && t.index == r.index) r = false) ∧ (3 ≤ s.twin.absent + 1)) :=
  ⟨⟨5, 1#32, wTwin, by decide +kernel⟩,
    ⟨5, 1#32, (wTwinC (wTwinR 7 false) (wTwinR 7 false)), (wTwinR 7 false), (wTwinR 7 false), by decide +kernel⟩,
    ⟨5, 1#32, (wTwinC (wTwinR 7 false) (wTwinR 8 false)), (wTwinR 7 false), (wTwinR 8 false), by decide +kernel⟩,
    ⟨5, 1, wTwUp, true, false, by decide +kernel⟩,
    ⟨5, 1, wTwUp, false, true, by decide +kernel⟩,
    ⟨5, 1, wTwUp, true, true, by decide +kernel⟩,
    ⟨0, 5, 2, wPopS, by decide +kernel⟩,
    ⟨0, 5, 1, wPopS, wPopW, by decide +kernel⟩,
    ⟨5, wTwin, by decide +kernel⟩,
    ⟨5, { wTwinA 0 with twin := { (wTwinA 0).twin with theirs := [wTwinR 1 false] } }, (wTwinR 1 false), by decide +kernel⟩,
    ⟨5, (wTwinA 0), (wTwinR 1 false), by decide +kernel⟩,
    ⟨5, (wTwinA 2), (wTwinR 1 false), by decide +kernel⟩⟩

theorem test_meets_CollectivesAndTwin_6 :
    (∃ (i : Island) (slot : Fin 64) (index : Word) (digest : DWord) (s : State), (s.islUp (islIdx i) = false))
    ∧ (∃ (i : Island) (slot : Fin 64) (index : Word) (digest : DWord) (s : State), (s.islUp (islIdx i) = true)) :=
  ⟨⟨Island.sia, 5, 1#32, 0x78#64, wTwin, by decide +kernel⟩,
    ⟨Island.sia, 5, 1#32, 0x78#64, wTwinI, by decide +kernel⟩⟩

theorem test_meets_IslandPair_1 :
    (∃ (i : Island) (bad : Bool) (s : State), (¬(s.islUp (islIdx i) = true ∧ s.islUp (1 - islIdx i) = true ∧ (s.island (1 - islIdx i)).driving = true)))
    ∧ (∃ (i : Island) (bad : Bool) (s : State), (s.islUp (islIdx i) = true ∧ s.islUp (1 - islIdx i) = true ∧ (s.island (1 - islIdx i)).driving = true) ∧ (bad = false))
    ∧ (∃ (i : Island) (bad : Bool) (s : State), (s.islUp (islIdx i) = true ∧ s.islUp (1 - islIdx i) = true ∧ (s.island (1 - islIdx i)).driving = true) ∧ (bad = true))
    ∧ (∃ (k : ℕ) (s : State), (¬((s.island k).running = true ∧ (s.island k).driving = true ∧ (s.get (F.ISL_STATE_state k) = 1 ∨ s.get (F.ISL_STATE_state k) = 2))))
    ∧ (∃ (k : ℕ) (s : State), ((s.island k).running = true ∧ (s.island k).driving = true ∧ (s.get (F.ISL_STATE_state k) = 1 ∨ s.get (F.ISL_STATE_state k) = 2)) ∧ (Option.any (fun (t : ℕ) => decide ((s.island k).time - t < 10000000)) (s.island k).peerFail = true))
    ∧ (∃ (k : ℕ) (s : State), ((s.island k).running = true ∧ (s.island k).driving = true ∧ (s.get (F.ISL_STATE_state k) = 1 ∨ s.get (F.ISL_STATE_state k) = 2)) ∧ (Option.any (fun (t : ℕ) => decide ((s.island k).time - t < 10000000)) (s.island k).peerFail = false))
    ∧ (∃ (i : Island) (s : State), (¬(s.get (F.ISL_STATE_state (islIdx i)) = 4 ∧ s.islUp (islIdx i) = true ∧ s.islUp (1 - islIdx i) = true)))
    ∧ (∃ (i : Island) (s : State), (s.get (F.ISL_STATE_state (islIdx i)) = 4 ∧ s.islUp (islIdx i) = true ∧ s.islUp (1 - islIdx i) = true))
    ∧ (∃ (i : Island) (s : State), (s.get (F.ISL_STATE_state (islIdx i)) ≠ 4))
    ∧ (∃ (i : Island) (s : State), (s.get (F.ISL_STATE_state (islIdx i)) = 4))
    ∧ (∃ (i : Island) (peerToo : Bool) (s : State), (¬s.islUp (islIdx i) = true))
    ∧ (∃ (i : Island) (peerToo : Bool) (s : State), (s.islUp (islIdx i) = true) ∧ (peerToo = true ∨ s.islUp (1 - islIdx i) = false)) :=
  ⟨⟨Island.sia, true, wNoIsl, by decide +kernel⟩,
    ⟨Island.sia, false, (wI0.put (F.ISL_STATE_state 0) 1), by decide +kernel⟩,
    ⟨Island.sia, true, (wI0.put (F.ISL_STATE_state 0) 1), by decide +kernel⟩,
    ⟨0, wNoIsl, by decide +kernel⟩,
    ⟨0, (wI fun x => { x with peerFail := some 45000000 }), by decide +kernel⟩,
    ⟨0, wI0, by decide +kernel⟩,
    ⟨Island.sia, wI0, by decide +kernel⟩,
    ⟨Island.sia, wWaitPeer, by decide +kernel⟩,
    ⟨Island.sia, wI0, by decide +kernel⟩,
    ⟨Island.sia, wWaitPeer, by decide +kernel⟩,
    ⟨Island.sia, false, wNoIsl, by decide +kernel⟩,
    ⟨Island.sia, true, wI0, by decide +kernel⟩⟩

theorem test_meets_IslandPair_2 :
    (∃ (i : Island) (peerToo : Bool) (s : State), (s.islUp (islIdx i) = true) ∧ (¬(peerToo = true ∨ s.islUp (1 - islIdx i) = false)))
    ∧ (∃ (i : Island) (peerToo : Bool) (s : State), (¬s.islUp (islIdx i) = true))
    ∧ (∃ (i : Island) (peerToo : Bool) (s : State), (s.islUp (islIdx i) = true))
    ∧ (∃ (i : Island) (peer : ℤ) (ref : ℤ) (s : State), (s.islUp (islIdx i) = false))
    ∧ (∃ (i : Island) (peer : ℤ) (ref : ℤ) (s : State), (s.islUp (islIdx i) = true) ∧ (¬(10000 < peer.natAbs ∨ 10000 < ref.natAbs)))
    ∧ (∃ (i : Island) (peer : ℤ) (ref : ℤ) (s : State), (s.islUp (islIdx i) = true) ∧ (10000 < peer.natAbs ∨ 10000 < ref.natAbs))
    ∧ (∃ (i : ℕ) (kind : ℕ) (sev : ℕ) (page : ℕ) (bit : ℕ) (detail : List Byte) (flags : ℕ) (s : State), ((s.island i).running = false))
    ∧ (∃ (i : ℕ) (kind : ℕ) (sev : ℕ) (page : ℕ) (bit : ℕ) (detail : List Byte) (flags : ℕ) (s : State), ((s.island i).running = true))
    ∧ (∃ (i : ℕ) (kind : ℕ) (sev : ℕ) (r : List Byte) (s : State), (sev < 2))
    ∧ (∃ (i : ℕ) (kind : ℕ) (sev : ℕ) (r : List Byte) (s : State), (2 ≤ sev)) :=
  ⟨⟨Island.sia, false, wI0, by decide +kernel⟩,
    ⟨Island.sia, false, wNoIsl, by decide +kernel⟩,
    ⟨Island.sia, false, wI0, by decide +kernel⟩,
    ⟨Island.sib, (-20000), 5, wNoIsl, by decide +kernel⟩,
    ⟨Island.sib, (-20), 5, wI0, by decide +kernel⟩,
    ⟨Island.sib, (-20000), 5, wI0, by decide +kernel⟩,
    ⟨0, 1, 2, 5, 3, [1#8, 2#8], 8, wNoIsl, by decide +kernel⟩,
    ⟨0, 1, 2, 5, 3, [1#8, 2#8], 8, wI0, by decide +kernel⟩,
    ⟨0, 1, 1, (eventRecord 3 1 2 5 3 9 8 [1#8, 2#8] 8), wI0, by decide +kernel⟩,
    ⟨0, 1, 2, (eventRecord 3 1 2 5 3 9 8 [1#8, 2#8] 8), wI0, by decide +kernel⟩⟩

theorem test_meets_FaultsAndResets_1 :
    (∃ (s : State), (s.flt = []))
    ∧ (∃ (s : State) (e : FltEvent) (es : List FltEvent), (s.flt = e :: es))
    ∧ (∃ (s : State) (i : ℕ) (e : FltEvent), (s.islLink i = true))
    ∧ (∃ (s : State) (i : ℕ) (e : FltEvent), (s.islLink i = false))
    ∧ (∃ (i : Island) (s : State), ((s.island (islIdx i)).inbox = []))
    ∧ (∃ (i : Island) (s : State) (e : FltEvent) (es : List FltEvent), ((s.island (islIdx i)).inbox = e :: es) ∧ (s.islUp (islIdx i) = false))
    ∧ (∃ (i : Island) (s : State) (e : FltEvent) (es : List FltEvent), ((s.island (islIdx i)).inbox = e :: es) ∧ (s.islUp (islIdx i) = true) ∧ (e.injected = true ∧ e.act = false))
    ∧ (∃ (i : Island) (s : State) (e : FltEvent) (es : List FltEvent), ((s.island (islIdx i)).inbox = e :: es) ∧ (s.islUp (islIdx i) = true) ∧ (¬(e.injected = true ∧ e.act = false)))
    ∧ (∃ (i : ℕ) (e : FltEvent) (s : State), (e.severity = 0))
    ∧ (∃ (i : ℕ) (e : FltEvent) (s : State), (e.severity = 1))
    ∧ (∃ (i : ℕ) (e : FltEvent) (s : State), (e.severity = 2) ∧ (128 ≤ e.page ∧ e.page < 224))
    ∧ (∃ (i : ℕ) (e : FltEvent) (s : State), (e.severity = 2) ∧ (96 ≤ e.page ∧ e.page < 100)) :=
  ⟨⟨wI0, by decide +kernel⟩,
    ⟨wFlt, (wEv 4 0 2 false true), [wEv 5 0 1 false true], by decide +kernel⟩,
    ⟨wFlt, 0, (wEv 4 0 2 false true), by decide +kernel⟩,
    ⟨wFltDown, 0, (wEv 4 0 2 false true), by decide +kernel⟩,
    ⟨Island.sia, wI0, by decide +kernel⟩,
    ⟨Island.sia, { wInbox (wEv 96 0 3 false true) with isl := [(0, { inbox := [wEv 96 0 3 false true] })] }, (wEv 96 0 3 false true), [], by decide +kernel⟩,
    ⟨Island.sia, (wInbox (wEv 96 0 3 true false)), (wEv 96 0 3 true false), [], by decide +kernel⟩,
    ⟨Island.sia, (wInbox (wEv 96 0 3 false true)), (wEv 96 0 3 false true), [], by decide +kernel⟩,
    ⟨0, (wEv 96 0 0 false true), wFrMix, by decide +kernel⟩,
    ⟨0, (wEv 96 0 1 false true), wFrMix, by decide +kernel⟩,
    ⟨0, (wEv 132 Ev.ARR_lb_uncorrectable 2 false true), wFrMix, by decide +kernel⟩,
    ⟨0, (wEv 96 Ev.CD_uncorrectable 2 false true), wFrMix, by decide +kernel⟩⟩

theorem test_meets_FaultsAndResets_2 :
    (∃ (i : ℕ) (e : FltEvent) (s : State), (e.severity = 2) ∧ (224 ≤ e.page ∧ e.page < 228 ∧ e.bit = Ev.ST_uncorrectable))
    ∧ (∃ (i : ℕ) (e : FltEvent) (s : State), (e.severity = 2) ∧ (¬(128 ≤ e.page ∧ e.page < 224)) ∧ (¬(96 ≤ e.page ∧ e.page < 100)) ∧ (¬(224 ≤ e.page ∧ e.page < 228 ∧ e.bit = Ev.ST_uncorrectable)))
    ∧ (∃ (i : ℕ) (e : FltEvent) (s : State), (2 < e.severity) ∧ (pageDie e.page = none))
    ∧ (∃ (i : ℕ) (e : FltEvent) (s : State) (d : ℕ), (2 < e.severity) ∧ (pageDie e.page = some d))
    ∧ (∃ (i : ℕ) (d : ℕ) (s : State), (s.cdState d ≤ 2))
    ∧ (∃ (i : ℕ) (d : ℕ) (s : State), (2 < s.cdState d))
    ∧ (∃ (i : ℕ) (page : ℕ) (bit : ℕ) (s : State), (isCorrection page bit = false))
    ∧ (∃ (i : ℕ) (page : ℕ) (bit : ℕ) (s : State), (isCorrection page bit = true) ∧ ((List.filter (fun (t : ℕ) => decide ((s.island i).time < t + 3600000000)) (tabGet (s.island i).corr page []) ++ [(s.island i).time]).length ≠ 65))
    ∧ (∃ (i : ℕ) (page : ℕ) (bit : ℕ) (s : State), (isCorrection page bit = true) ∧ ((List.filter (fun (t : ℕ) => decide ((s.island i).time < t + 3600000000)) (tabGet (s.island i).corr page []) ++ [(s.island i).time]).length = 65))
    ∧ (∃ (i : ℕ) (page : ℕ) (bit : ℕ) (s : State), (64 ≤ page) ∧ (page < 80) ∧ (bit = Ev.MC_row_retired))
    ∧ (∃ (i : ℕ) (page : ℕ) (bit : ℕ) (s : State), (page = pgMEMG) ∧ (bit = Ev.MEMG_retired))
    ∧ (∃ (i : ℕ) (page : ℕ) (bit : ℕ) (s : State), (48 ≤ page) ∧ (page < 56)) :=
  ⟨⟨0, (wEv 224 Ev.ST_uncorrectable 2 false true), wFrMix, by decide +kernel⟩,
    ⟨0, (wEv 4 0 2 false true), wFrMix, by decide +kernel⟩,
    ⟨0, (wEv 4 0 3 false true), wFrMix, by decide +kernel⟩,
    ⟨0, (wEv 96 0 3 false true), wFrMix, 0, by decide +kernel⟩,
    ⟨0, 1, wFrMix, by decide +kernel⟩,
    ⟨0, 0, wFrMix, by decide +kernel⟩,
    ⟨0, 4, 0, wFrMix, by decide +kernel⟩,
    ⟨0, 64, Ev.MC_corrected, wFrMix, by decide +kernel⟩,
    ⟨0, 132, Ev.ARR_lb_corrected, (wI fun x => { x with corr := [(132, List.replicate 64 49000000)] }), by decide +kernel⟩,
    ⟨0, 64, Ev.MC_row_retired, { wFrMix with mcs := [(0, { remap := [(3, .of 0x80000005)] })] }, by decide +kernel⟩,
    ⟨0, pgMEMG, Ev.MEMG_retired, { wFrMix with memg := { wFrMix.memg with retired := some 3 } }, by decide +kernel⟩,
    ⟨0, 50, 0, (wFrMix.put (F.XL_LANE_RETIRE_retire 2) 4), by decide +kernel⟩⟩

theorem test_meets_FaultsAndResets_3 :
    (∃ (i : ℕ) (page : ℕ) (bit : ℕ) (s : State), (¬(64 ≤ page ∧ page < 80 ∧ bit = Ev.MC_row_retired)) ∧ (¬(page = pgMEMG ∧ bit = Ev.MEMG_retired)) ∧ (¬(48 ≤ page ∧ page < 56)))
    ∧ (∃ (i : ℕ) (off : ℕ) (bs : List Byte) (s : State), (s.islUp i = false))
    ∧ (∃ (i : ℕ) (off : ℕ) (bs : List Byte) (s : State), (s.islUp i = true))
    ∧ (∃ (i : Island) (d : Fin 4) (hottest : Option ℤ) (syndrome : Line) (s : State), (¬(s.islUp (islIdx i) = true ∧ s.cdState ↑d ≠ 0)))
    ∧ (∃ (i : Island) (d : Fin 4) (hottest : Option ℤ) (syndrome : Line) (s : State), (s.islUp (islIdx i) = true ∧ s.cdState ↑d ≠ 0) ∧ (Option.any (fun (t : ℤ) => decide (2000 ≤ t)) hottest = true))
    ∧ (∃ (i : Island) (d : Fin 4) (hottest : Option ℤ) (syndrome : Line) (s : State), (s.islUp (islIdx i) = true ∧ s.cdState ↑d ≠ 0) ∧ (Option.any (fun (t : ℤ) => decide (2000 ≤ t)) hottest = false) ∧ ((Option.any (fun (t : ℤ) => decide (t < 1840)) hottest && (s.island (islIdx i)).hot.contains ↑d) = true))
    ∧ (∃ (i : Island) (d : Fin 4) (hottest : Option ℤ) (syndrome : Line) (s : State), (s.islUp (islIdx i) = true ∧ s.cdState ↑d ≠ 0) ∧ (Option.any (fun (t : ℤ) => decide (2000 ≤ t)) hottest = false) ∧ ((Option.any (fun (t : ℤ) => decide (t < 1840)) hottest && (s.island (islIdx i)).hot.contains ↑d) = false))
    ∧ (∃ (i : Island) (d : Fin 4) (hottest : Option ℤ) (syndrome : Line) (s : State), (s.islUp (islIdx i) = true ∧ s.cdState ↑d ≠ 0))
    ∧ (∃ (acc : Sys2Proof.Acc) (s : State) (s2 : State) (w : Word), (s.written pgFLT 32 acc = some (s2, w)))
    ∧ (∃ (acc : Sys2Proof.Acc) (s : State) (s2 : State) (w : Word), (s.written pgFLT 256 acc = some (s2, w)) ∧ (BitVec.getLsbD w 31 = false))
    ∧ (∃ (acc : Sys2Proof.Acc) (s : State) (s2 : State) (w : Word), (s.written pgFLT 256 acc = some (s2, w)) ∧ (BitVec.getLsbD w 31 = true) ∧ (s2.get F.FLT_INJECT_act = 1 ∧ ((s2.get F.SEC_DEBUG_STATE_scope).testBit 3 = false ∨ s2.get F.FLT_SR_OPEN_open ≠ 0)))
    ∧ (∃ (acc : Sys2Proof.Acc) (s : State) (s2 : State) (w : Word), (s.written pgFLT 256 acc = some (s2, w)) ∧ (BitVec.getLsbD w 31 = true) ∧ (¬(s2.get F.FLT_INJECT_act = 1 ∧ ((s2.get F.SEC_DEBUG_STATE_scope).testBit 3 = false ∨ s2.get F.FLT_SR_OPEN_open ≠ 0)))) :=
  ⟨⟨0, 4, 0, wFrMix, by decide +kernel⟩,
    ⟨0, 8, [1#8, 2#8], State.reset, by decide +kernel⟩,
    ⟨0, 8, [1#8, 2#8], wI0, by decide +kernel⟩,
    ⟨Island.sia, 1, none, 5#256, (wI0.put (F.CD_STATE_state 1) 0), by decide +kernel⟩,
    ⟨Island.sia, 0, (some 2000), 5#256, wI0, by decide +kernel⟩,
    ⟨Island.sia, 0, (some 1000), 5#256, wHotDie, by decide +kernel⟩,
    ⟨Island.sia, 0, none, 5#256, wHotDie, by decide +kernel⟩,
    ⟨Island.sia, 0, none, 5#256, wI0, by decide +kernel⟩,
    ⟨(wAcc 1), (wFltP { wI0 with fltLog := [[1#8]] }), (wFltWr (wFltP { wI0 with fltLog := [[1#8]] }) 0x20 1).1, (wFltWr (wFltP { wI0 with fltLog := [[1#8]] }) 0x20 1).2, by decide +kernel⟩,
    ⟨(wAcc 0x2304), wFltX, (wFltWr wFltX 0x100 0x2304).1, (wFltWr wFltX 0x100 0x2304).2, by decide +kernel⟩,
    ⟨(wAcc 0x80012304), wFltX, (wFltWr wFltX 0x100 0x80012304).1, (wFltWr wFltX 0x100 0x80012304).2, by decide +kernel⟩,
    ⟨(wAcc 0x80002304), wFltX, (wFltWr wFltX 0x100 0x80002304).1, (wFltWr wFltX 0x100 0x80002304).2, by decide +kernel⟩⟩

theorem test_meets_FaultsAndResets_4 :
    (∃ (i : Island) (d : Fin 4) (s : State), (↑d ∉ (s.island (islIdx i)).dieDue))
    ∧ (∃ (i : Island) (d : Fin 4) (s : State), (↑d ∈ (s.island (islIdx i)).dieDue) ∧ (¬(2 < s.cdState ↑d ∧ (s.island 0).modDue = [] ∧ (s.island 1).modDue = [])))
    ∧ (∃ (i : Island) (d : Fin 4) (s : State), (↑d ∈ (s.island (islIdx i)).dieDue) ∧ (2 < s.cdState ↑d ∧ (s.island 0).modDue = [] ∧ (s.island 1).modDue = []) ∧ (2 ≤ ((fun (v : IslSt) => List.filter (fun (t : ℕ) => decide (v.time < t + 60000000)) (tabGet v.dieTimes ↑d [])) (s.island (islIdx i))).length))
    ∧ (∃ (i : Island) (d : Fin 4) (s : State), (↑d ∈ (s.island (islIdx i)).dieDue) ∧ (2 < s.cdState ↑d ∧ (s.island 0).modDue = [] ∧ (s.island 1).modDue = []) ∧ (((fun (v : IslSt) => List.filter (fun (t : ℕ) => decide (v.time < t + 60000000)) (tabGet v.dieTimes ↑d [])) (s.island (islIdx i))).length < 2))
    ∧ (∃ (d : Fin 4) (failures : List (Fin 26 × Fin 12)) (s : State), (¬(s.cdState ↑d = 1 ∧ s.disc.mismatch = false)))
    ∧ (∃ (d : Fin 4) (failures : List (Fin 26 × Fin 12)) (s : State), (s.cdState ↑d = 1 ∧ s.disc.mismatch = false))
    ∧ (∃ (d : ℕ) (a : ℕ) (p : ℕ) (part : ℕ) (s : State) (c : ℕ), ((if part = 6 then some 1 else if part = 7 then some 2 else if part = 8 then some 4 else none) = some c))
    ∧ (∃ (d : ℕ) (a : ℕ) (p : ℕ) (part : ℕ) (s : State), ((if part = 6 then some 1 else if part = 7 then some 2 else if part = 8 then some 4 else none) = none))
    ∧ (∃ (i : Island) (cause : BitVec 4) (s : State), (¬(s.islUp (islIdx i) = true ∧ cause.toNat ∈ (s.island (islIdx i)).modDue)))
    ∧ (∃ (i : Island) (cause : BitVec 4) (s : State), (s.islUp (islIdx i) = true ∧ cause.toNat ∈ (s.island (islIdx i)).modDue) ∧ (s.sec.boot.trial = true))
    ∧ (∃ (i : Island) (cause : BitVec 4) (s : State), (s.islUp (islIdx i) = true ∧ cause.toNat ∈ (s.island (islIdx i)).modDue) ∧ (s.sec.boot.trial = false) ∧ (((fun (v : IslSt) => List.filter (fun (t : ℕ) => decide (v.time < t + 10000000)) v.modTimes) (s.island (islIdx i))).length < 2))
    ∧ (∃ (i : Island) (cause : BitVec 4) (s : State), (s.islUp (islIdx i) = true ∧ cause.toNat ∈ (s.island (islIdx i)).modDue) ∧ (s.sec.boot.trial = false) ∧ (2 ≤ ((fun (v : IslSt) => List.filter (fun (t : ℕ) => decide (v.time < t + 10000000)) v.modTimes) (s.island (islIdx i))).length)) :=
  ⟨⟨Island.sia, 0, wI0, by decide +kernel⟩,
    ⟨Island.sia, 0, (wI fun x => { x with dieDue := [0], modDue := [1] }), by decide +kernel⟩,
    ⟨Island.sia, 0, (wDue [45000000, 46000000]), by decide +kernel⟩,
    ⟨Island.sia, 0, (wDue [45000000]), by decide +kernel⟩,
    ⟨0, [(3, 2)], wI0, by decide +kernel⟩,
    ⟨0, [(3, 2), (4, 6)], wSelfTest, by decide +kernel⟩,
    ⟨0, 2, 3, 6, wSelfTestU, 1, by decide +kernel⟩,
    ⟨0, 2, 4, 2, wSelfTestU, by decide +kernel⟩,
    ⟨Island.sia, 1#4, wI0, by decide +kernel⟩,
    ⟨Island.sia, 1#4, { wMod 1 [] with sec := { wI0.sec with boot := { wI0.sec.boot with trial := true } } }, by decide +kernel⟩,
    ⟨Island.sia, 4#4, (wMod 4 []), by decide +kernel⟩,
    ⟨Island.sia, 1#4, (wMod 1 [49000000, 49500000]), by decide +kernel⟩⟩

theorem test_meets_FaultsAndResets_5 :
    (∃ (keep : ℕ → Bool) (s : State) (i : ℕ), (i < 2) ∧ (tabFind s.isl i ≠ none))
    ∧ (∃ (keep : ℕ → Bool) (s : State) (p : ℕ) (o : ℕ), (p < 64) ∧ (p ≠ pgSUP) ∧ (p ≠ pgPWR) ∧ (p ≠ 57) ∧ (p ≠ 58) ∧ (p ≠ pgSEC) ∧ (p ≠ pgPCIE) ∧ (o < 512))
    ∧ (∃ (acc : Sys2Proof.Acc) (s : State) (s2 : State) (w : Word), (s.written pgGEN 260 acc = some (s2, w)) ∧ (BitVec.getLsbD w 31 = false))
    ∧ (∃ (acc : Sys2Proof.Acc) (s : State) (s2 : State) (w : Word), (s.written pgGEN 260 acc = some (s2, w)) ∧ (BitVec.getLsbD w 31 = true) ∧ (s2.blockResetNo (F.GEN_BLK_RESET_page.ext w) = true))
    ∧ (∃ (acc : Sys2Proof.Acc) (s : State) (s2 : State) (w : Word), (s.written pgGEN 260 acc = some (s2, w)) ∧ (BitVec.getLsbD w 31 = true) ∧ (s2.blockResetNo (F.GEN_BLK_RESET_page.ext w) = false))
    ∧ (∃ (page : ℕ) (r : PageRun) (s : State), (pageRun page = some r))
    ∧ (∃ (k : ℕ) (s : State) (b : Blk), (b ∈ [Blk.gen, Blk.disc, Blk.xslot, Blk.pwr, Blk.thm, Blk.sup, Blk.fenceB, Blk.st, Blk.eth, Blk.psr, Blk.nor, Blk.cd, Blk.isl])) :=
  ⟨⟨(fun a => a % 2 == 0), wFrMix, 0, by decide +kernel⟩,
    ⟨(fun a => a % 2 == 0), wFrMix, pgFLT, 4, by decide +kernel⟩,
    ⟨(wAcc 0x00000005), wFrGen, (wFrGenWr 0x00000005).1, (wFrGenWr 0x00000005).2, by decide +kernel⟩,
    ⟨(wAcc 0x80000000), wFrGen, (wFrGenWr 0x80000000).1, (wFrGenWr 0x80000000).2, by decide +kernel⟩,
    ⟨(wAcc 0x80000029), wFrGen, (wFrGenWr 0x80000029).1, (wFrGenWr 0x80000029).2, by decide +kernel⟩,
    ⟨132, ⟨.arr, 128, 96, 0x80, 0xFF⟩, wFrMix, by decide +kernel⟩,
    ⟨0, wFrMix, Blk.gen, by decide +kernel⟩⟩

theorem test_meets_DeadlinesAndFrames_1 :
    (∃ (i : Island) (s : State), (tabGet s.islMsgs (islIdx i) [] = []))
    ∧ (∃ (i : Island) (s : State) (m : IslMsg) (ms : List IslMsg), (tabGet s.islMsgs (islIdx i) [] = m :: ms) ∧ (m.release = false))
    ∧ (∃ (i : Island) (s : State) (m : IslMsg) (ms : List IslMsg), (tabGet s.islMsgs (islIdx i) [] = m :: ms) ∧ (m.release = true))
    ∧ (∃ (i : Island) (s : State) (m : IslMsg) (ms : List IslMsg), (tabGet s.islMsgs (islIdx i) [] = m :: ms) ∧ (m.release = true))
    ∧ (∃ (i : Island) (s : State) (m : IslMsg) (ms : List IslMsg), (tabGet s.islMsgs (islIdx i) [] = m :: ms) ∧ (m.release = false))
    ∧ (∃ (i : ℕ) (m : IslMsg) (s : State), (((s.island i).timers.any fun (u : IslTimer) => decide (u.queue = m.queue ∧ u.tag = m.tag)) = true))
    ∧ (∃ (i : ℕ) (m : IslMsg) (s : State), (((s.island i).timers.any fun (u : IslTimer) => decide (u.queue = m.queue ∧ u.tag = m.tag)) = false) ∧ (4096 ≤ (s.island i).timers.length))
    ∧ (∃ (i : ℕ) (m : IslMsg) (s : State), (((s.island i).timers.any fun (u : IslTimer) => decide (u.queue = m.queue ∧ u.tag = m.tag)) = false) ∧ ((s.island i).timers.length < 4096))
    ∧ (∃ (i : ℕ) (m : IslMsg) (s : State), ((m.status = 0 ∨ m.status = 1) ∧ m.flags.testBit 1 = false ∧ ((s.island i).timers.any fun (u : IslTimer) => decide (u.queue = m.queue ∧ u.tag = m.tag)) = true))
    ∧ (∃ (i : ℕ) (m : IslMsg) (s : State), (¬((m.status = 0 ∨ m.status = 1) ∧ m.flags.testBit 1 = false ∧ ((s.island i).timers.any fun (u : IslTimer) => decide (u.queue = m.queue ∧ u.tag = m.tag)) = true)))
    ∧ (∃ (i : Island) (q : BitVec 20) (tag : Word) (s : State), (List.find? (fun (u : IslTimer) => decide (u.queue = q.toNat ∧ u.tag = BitVec.toNat tag)) (s.island (islIdx i)).timers = none))
    ∧ (∃ (i : Island) (q : BitVec 20) (tag : Word) (s : State) (u : IslTimer), (List.find? (fun (u : IslTimer) => decide (u.queue = q.toNat ∧ u.tag = BitVec.toNat tag)) (s.island (islIdx i)).timers = some u)) :=
  ⟨⟨Island.sia, wI0, by decide +kernel⟩,
    ⟨Island.sia, (wMsgS (wMsg false 1 0 77) [wTimer]), (wMsg false 1 0 77), [], by decide +kernel⟩,
    ⟨Island.sia, (wMsgS (wMsg true 0 0 77) [wTimer]), (wMsg true 0 0 77), [], by decide +kernel⟩,
    ⟨Island.sia, (wMsgS (wMsg true 0 0 77) [wTimer2]), (wMsg true 0 0 77), [], by decide +kernel⟩,
    ⟨Island.sia, (wMsgS (wMsg false 1 0 77) [wTimer]), (wMsg false 1 0 77), [], by decide +kernel⟩,
    ⟨0, (wMsg true 0 0 77), wDfTwo, by decide +kernel⟩,
    ⟨0, (wMsg true 0 0 77), wDfBig, by decide +kernel⟩,
    ⟨0, (wMsg true 0 0 79), wDfTwo, by decide +kernel⟩,
    ⟨0, (wMsg false 1 0 77), wDfTwo, by decide +kernel⟩,
    ⟨0, (wMsg false 1 2 77), wDfTwo, by decide +kernel⟩,
    ⟨Island.sia, 5#20, 70#32, wDfTwo, by decide +kernel⟩,
    ⟨Island.sia, 5#20, 77#32, wDfTwo, wTimer, by decide +kernel⟩⟩

theorem test_meets_DeadlinesAndFrames_2 :
    (∃ (i : Island) (slot : Fin 64) (s : State), (¬(s.islUp (islIdx i) = true ∧ (s.routed ↑slot = true ∨ s.get (F.ISL_SLOT_mode (islIdx i) ↑slot) ≠ 0))))
    ∧ (∃ (i : Island) (slot : Fin 64) (s : State), (s.islUp (islIdx i) = true ∧ (s.routed ↑slot = true ∨ s.get (F.ISL_SLOT_mode (islIdx i) ↑slot) ≠ 0)))
    ∧ (∃ (i : ℕ) (slot : ℕ) (s : State), (s.twinPair = true ∧ s.twinSlot slot = true ∧ s.get F.XGS_TWIN_STATE_state = 1 ∧ s.twin.absent = 0))
    ∧ (∃ (i : ℕ) (slot : ℕ) (s : State), (¬(s.twinPair = true ∧ s.twinSlot slot = true ∧ s.get F.XGS_TWIN_STATE_state = 1 ∧ s.twin.absent = 0)))
    ∧ (∃ (i : ℕ) (slot : ℕ) (s : State), (s.get (F.ISL_SLOT_mode i slot) = 2))
    ∧ (∃ (i : ℕ) (slot : ℕ) (s : State), (s.get (F.ISL_SLOT_mode i slot) ≠ 2))
    ∧ (∃ (i : Island) (s : State), ((s.island (islIdx i)).queries = []))
    ∧ (∃ (i : Island) (s : State) (q : RecQuery) (qs : List RecQuery), ((s.island (islIdx i)).queries = q :: qs) ∧ ((s.recoveryFind q).1 = 1))
    ∧ (∃ (i : Island) (s : State) (q : RecQuery) (qs : List RecQuery), ((s.island (islIdx i)).queries = q :: qs) ∧ ((s.recoveryFind q).1 = 2))
    ∧ (∃ (i : Island) (s : State) (q : RecQuery) (qs : List RecQuery), ((s.island (islIdx i)).queries = q :: qs) ∧ ((s.recoveryFind q).1 = 0))
    ∧ (∃ (i : Island) (s : State) (q : RecQuery) (qs : List RecQuery), ((s.island (islIdx i)).queries = q :: qs))
    ∧ (∃ (i : Island) (s : State), ((s.island (islIdx i)).engine = none)) :=
  ⟨⟨Island.sia, 4, wMiss, by decide +kernel⟩,
    ⟨Island.sia, 3, wMiss, by decide +kernel⟩,
    ⟨0, 3, wMissT, by decide +kernel⟩,
    ⟨0, 3, wMiss, by decide +kernel⟩,
    ⟨0, 3, wFall, by decide +kernel⟩,
    ⟨0, 3, wMiss, by decide +kernel⟩,
    ⟨Island.sia, wI0, by decide +kernel⟩,
    ⟨Island.sia, (wRecQ ⟨none, 5, 77, 3⟩), ⟨none, 5, 77, 3⟩, [], by decide +kernel⟩,
    ⟨Island.sia, wRecJ, ⟨none, 5, 77, 3⟩, [], by decide +kernel⟩,
    ⟨Island.sia, (wRecQ ⟨none, 6, 77, 3⟩), ⟨none, 6, 77, 3⟩, [], by decide +kernel⟩,
    ⟨Island.sia, wRecJ, ⟨none, 5, 77, 3⟩, [], by decide +kernel⟩,
    ⟨Island.sia, wI0, by decide +kernel⟩⟩

theorem test_meets_DeadlinesAndFrames_3 :
    (∃ (i : Island) (s : State) (p : ℕ), ((s.island (islIdx i)).engine = some p))
    ∧ (∃ (q : RecQuery) (s : State) (n : ℕ), (q.slot = some n))
    ∧ (∃ (q : RecQuery) (s : State), (q.slot = none) ∧ (List.filter (fun (d : ℕ) => (List.filter (fun (j : Job) => decide (j.queue = q.queue ∧ j.tag = q.tag ∧ j.stage = Stage.placed)) s.jobs).any fun (j : Job) => j.slots.any fun (k : SlotSt) => decide (k.die = d ∧ (k.phase = 1 ∨ k.phase = 2))) (List.range 4) ≠ []))
    ∧ (∃ (q : RecQuery) (s : State), (q.slot = none) ∧ (List.filter (fun (d : ℕ) => (List.filter (fun (j : Job) => decide (j.queue = q.queue ∧ j.tag = q.tag ∧ j.stage = Stage.placed)) s.jobs).any fun (j : Job) => j.slots.any fun (k : SlotSt) => decide (k.die = d ∧ (k.phase = 1 ∨ k.phase = 2))) (List.range 4) = []) ∧ (List.find? (fun (j : Job) => !j.isArray) (List.filter (fun (j : Job) => decide (j.queue = q.queue ∧ j.tag = q.tag ∧ j.stage = Stage.placed)) s.jobs) = none))
    ∧ (∃ (q : RecQuery) (s : State) (j : Job), (q.slot = none) ∧ (List.filter (fun (d : ℕ) => (List.filter (fun (j : Job) => decide (j.queue = q.queue ∧ j.tag = q.tag ∧ j.stage = Stage.placed)) s.jobs).any fun (j : Job) => j.slots.any fun (k : SlotSt) => decide (k.die = d ∧ (k.phase = 1 ∨ k.phase = 2))) (List.range 4) = []) ∧ (List.find? (fun (j : Job) => !j.isArray) (List.filter (fun (j : Job) => decide (j.queue = q.queue ∧ j.tag = q.tag ∧ j.stage = Stage.placed)) s.jobs) = some j))
    ∧ (∃ (i : Island) (s : State), (tabGet s.planMsgs (islIdx i) [] = []))
    ∧ (∃ (i : Island) (s : State) (m : PlanMsg) (ms : List PlanMsg), (tabGet s.planMsgs (islIdx i) [] = m :: ms) ∧ (s.islUp (islIdx i) = false))
    ∧ (∃ (i : Island) (s : State) (m : PlanMsg) (ms : List PlanMsg), (tabGet s.planMsgs (islIdx i) [] = m :: ms) ∧ (s.islUp (islIdx i) = true) ∧ (m.index ≠ 0 ∧ s.twinPair = true ∧ 1 ≤ s.get F.XGS_TWIN_STATE_state ∧ s.get F.XGS_TWIN_STATE_state ≤ 3 ∧ tabGet s.twin.agreed m.slot 0 ≠ m.index))
    ∧ (∃ (i : Island) (s : State) (m : PlanMsg) (ms : List PlanMsg), (tabGet s.planMsgs (islIdx i) [] = m :: ms) ∧ (s.islUp (islIdx i) = true) ∧ (¬(m.index ≠ 0 ∧ s.twinPair = true ∧ 1 ≤ s.get F.XGS_TWIN_STATE_state ∧ s.get F.XGS_TWIN_STATE_state ≤ 3 ∧ tabGet s.twin.agreed m.slot 0 ≠ m.index)))
    ∧ (∃ (i : ℕ) (m : PlanMsg) (s : State), (s.get (F.ISL_SLOT_mode i m.slot) = 3 ∨ s.routed m.slot = false))
    ∧ (∃ (i : ℕ) (m : PlanMsg) (s : State), (s.get (F.ISL_SLOT_mode i m.slot) = 2) ∧ (s.routed m.slot = true))
    ∧ (∃ (i : ℕ) (m : PlanMsg) (s : State), (s.get (F.ISL_SLOT_mode i m.slot) < 2) ∧ (s.routed m.slot = true) ∧ (((s.island i).timers.any fun (t : IslTimer) => t.dip) = true ∨ m.flags.testBit 0 = false ∧ m.flags.testBit 1 = false)) :=
  ⟨⟨Island.sia, wRecJ, 41, by decide +kernel⟩,
    ⟨⟨some 3, 0, 0, 0⟩, wRecJ, 3, by decide +kernel⟩,
    ⟨⟨none, 5, 77, 3⟩, (wRecQ ⟨none, 5, 77, 3⟩), by decide +kernel⟩,
    ⟨⟨none, 6, 77, 3⟩, wRecJ, by decide +kernel⟩,
    ⟨⟨none, 5, 77, 3⟩, wRecJ, { queue := 5, index := 3, desc := wDesc 3 0 0, stage := .placed }, by decide +kernel⟩,
    ⟨Island.sia, wI0, by decide +kernel⟩,
    ⟨Island.sia, { wDfRes wRes wI0 with isl := [] }, wRes, [], by decide +kernel⟩,
    ⟨Island.sia, wDfTwin, { wRes with index := 9 }, [], by decide +kernel⟩,
    ⟨Island.sia, (wResS 1), wRes, [], by decide +kernel⟩,
    ⟨0, wRes, (wDfRun 3 [wTimer]), by decide +kernel⟩,
    ⟨0, wRes, (wDfRun 2 [wTimer]), by decide +kernel⟩,
    ⟨0, { wRes with flags := 0 }, (wDfRun 1 [wTimer]), by decide +kernel⟩⟩

theorem test_meets_DeadlinesAndFrames_4 :
    (∃ (i : ℕ) (m : PlanMsg) (s : State), (s.get (F.ISL_SLOT_mode i m.slot) < 2) ∧ (s.routed m.slot = true) ∧ (¬(((s.island i).timers.any fun (t : IslTimer) => t.dip) = true ∨ m.flags.testBit 0 = false ∧ m.flags.testBit 1 = false)))
    ∧ (∃ (i : ℕ) (slot : ℕ) (again : Bool) (s : State), (tabFind (s.island i).kept slot = none))
    ∧ (∃ (i : ℕ) (slot : ℕ) (again : Bool) (s : State) (p : KeptPlan), (tabFind (s.island i).kept slot = some p))
    ∧ (∃ (i : ℕ) (slot : ℕ) (kind : ℕ) (first : ℕ) (query : ℕ) (digest : ℕ) (again : Bool) (stop : Bool) (head : List Byte) (samples : List Byte) (s : State), ((s.island i).driving = false))
    ∧ (∃ (i : ℕ) (slot : ℕ) (kind : ℕ) (first : ℕ) (query : ℕ) (digest : ℕ) (again : Bool) (stop : Bool) (head : List Byte) (samples : List Byte) (s : State), ((s.island i).driving = true)) :=
  ⟨⟨0, { wRes with flags := 3 }, (wDfRun 0 [wTimer]), by decide +kernel⟩,
    ⟨0, 4, true, wFall, by decide +kernel⟩,
    ⟨0, 3, true, wFall, ⟨1, 2, [], 40000000⟩, by decide +kernel⟩,
    ⟨0, 3, 1, 2, 7, 9, true, false, [1#8, 2#8], [3#8], State.reset, by decide +kernel⟩,
    ⟨0, 3, 1, 2, 7, 9, true, false, [1#8, 2#8], [3#8], wFall, by decide +kernel⟩⟩

theorem test_meets_InServiceTest_1 :
    (∃ (acc : Sys2Proof.Acc) (s : State) (s2 : State) (w : Word), (s.written pgSTEST 32 acc = some (s2, w)) ∧ (BitVec.getLsbD w 0 = true) ∧ (s2.testImageOk = true))
    ∧ (∃ (acc : Sys2Proof.Acc) (s : State) (s2 : State) (w : Word), (s.written pgSTEST 32 acc = some (s2, w)) ∧ (BitVec.getLsbD w 0 = true) ∧ (s2.testImageOk = false))
    ∧ (∃ (acc : Sys2Proof.Acc) (s : State) (s2 : State) (w : Word), (s.written pgSTEST 32 acc = some (s2, w)) ∧ (BitVec.getLsbD w 0 = false))
    ∧ (∃ (d : ℕ) (a : ℕ) (s : State), ((s.arr (24 * d + a)).suspect = true ∨ a ∈ (s.stDie d).aborted ∨ a ∈ (s.stDie d).targets))
    ∧ (∃ (d : ℕ) (a : ℕ) (s : State), (¬((s.arr (24 * d + a)).suspect = true ∨ a ∈ (s.stDie d).aborted ∨ a ∈ (s.stDie d).targets)))
    ∧ (∃ (d : ℕ) (a : ℕ) (s : State), (s.get (F.ARR_STATE_state (24 * d + a)) ≠ 3))
    ∧ (∃ (d : ℕ) (a : ℕ) (s : State), (s.get (F.ARR_STATE_state (24 * d + a)) = 3))
    ∧ (∃ (d : ℕ) (a : ℕ) (s : State), (a < 24) ∧ ((s.stDie d).win ≠ some a))
    ∧ (∃ (d : ℕ) (a : ℕ) (s : State), (a < 24) ∧ ((s.stDie d).win = some a))
    ∧ (∃ (d : Fin 4) (s : State), (¬((s.stDie ↑d).win = none ∧ (s.stDie ↑d).chosen = none ∧ s.cdState ↑d = 3 ∧ s.powered = true)))
    ∧ (∃ (d : Fin 4) (s : State), (s.sliceOrder ↑d = []))
    ∧ (∃ (d : Fin 4) (s : State) (a : ℕ) (l : List ℕ), (s.sliceOrder ↑d = a :: l) ∧ ((s.stDie ↑d).win = none ∧ (s.stDie ↑d).chosen = none ∧ s.cdState ↑d = 3 ∧ s.powered = true)) :=
  ⟨⟨(wAcc 1), wIstImg, (wStWr wIstImg 0x20 1).1, (wStWr wIstImg 0x20 1).2, by decide +kernel⟩,
    ⟨(wAcc 1), wSt, (wStWr wSt 0x20 1).1, (wStWr wSt 0x20 1).2, by decide +kernel⟩,
    ⟨(wAcc 0), wStOn, (wStWr wStOn 0x20 0).1, (wStWr wStOn 0x20 0).2, by decide +kernel⟩,
    ⟨0, 2, wRot, by decide +kernel⟩,
    ⟨0, 3, wRot, by decide +kernel⟩,
    ⟨0, 3, wRot, by decide +kernel⟩,
    ⟨0, 2, (wPartW 3 0), by decide +kernel⟩,
    ⟨0, 2, wRot, by decide +kernel⟩,
    ⟨0, 2, (wPartW 3 0), by decide +kernel⟩,
    ⟨0, (wPartW 3 0), by decide +kernel⟩,
    ⟨1, wSt, by decide +kernel⟩,
    ⟨0, wRot, 2, (wRot.sliceOrder 0).tail, by decide +kernel⟩⟩

theorem test_meets_InServiceTest_2 :
    (∃ (d : Fin 4) (s : State), ((s.stDie ↑d).chosen = none))
    ∧ (∃ (d : Fin 4) (s : State) (a : ℕ), ((s.stDie ↑d).chosen = some a))
    ∧ (∃ (d : Fin 4) (pass : Bool) (dip : Bool) (s : State), ((s.stDie ↑d).win = none))
    ∧ (∃ (d : Fin 4) (pass : Bool) (dip : Bool) (s : State) (a : ℕ), ((s.stDie ↑d).win = some a) ∧ (dip = true))
    ∧ (∃ (d : Fin 4) (pass : Bool) (dip : Bool) (s : State) (a : ℕ), ((s.stDie ↑d).win = some a) ∧ (dip = false) ∧ (pass = true))
    ∧ (∃ (d : Fin 4) (pass : Bool) (dip : Bool) (s : State) (a : ℕ), ((s.stDie ↑d).win = some a) ∧ (dip = false) ∧ (pass = false))
    ∧ (∃ (d : ℕ) (a : ℕ) (s : State), (a ∉ (s.stDie d).targets))
    ∧ (∃ (d : ℕ) (a : ℕ) (s : State), (a ∈ (s.stDie d).targets))
    ∧ (∃ (d : ℕ) (a : ℕ) (s : State), (s.get F.STEST_TARGET_CMD_busy ≠ 1 ∨ ((List.range 4).any fun (d : ℕ) => decide ((s.stDie d).targets ≠ [])) = true))
    ∧ (∃ (d : ℕ) (a : ℕ) (s : State), (s.get F.STEST_TARGET_CMD_busy = 1) ∧ (((List.range 4).any fun (d : ℕ) => decide ((s.stDie d).targets ≠ [])) = false) ∧ (¬((((s.put F.STEST_TARGET_CMD_busy 0).put F.STEST_STATUS_state (if s.get F.STEST_CTRL_enable = 1 then 1 else 0)).raise pgSTEST Ev.STEST_target_done).get F.XGS_TWIN_STATE_state = 3 ∧ ∀ d < 4, (((s.put F.STEST_TARGET_CMD_busy 0).put F.STEST_STATUS_state (if s.get F.STEST_CTRL_enable = 1 then 1 else 0)).raise pgSTEST Ev.STEST_target_done).get (F.STEST_TARGET_FAIL_failed d) = 0)))
    ∧ (∃ (d : ℕ) (a : ℕ) (s : State), (s.get F.STEST_TARGET_CMD_busy = 1) ∧ (((List.range 4).any fun (d : ℕ) => decide ((s.stDie d).targets ≠ [])) = false) ∧ ((((s.put F.STEST_TARGET_CMD_busy 0).put F.STEST_STATUS_state (if s.get F.STEST_CTRL_enable = 1 then 1 else 0)).raise pgSTEST Ev.STEST_target_done).get F.XGS_TWIN_STATE_state = 3 ∧ ∀ d < 4, (((s.put F.STEST_TARGET_CMD_busy 0).put F.STEST_STATUS_state (if s.get F.STEST_CTRL_enable = 1 then 1 else 0)).raise pgSTEST Ev.STEST_target_done).get (F.STEST_TARGET_FAIL_failed d) = 0))
    ∧ (∃ (d : Fin 4) (a : Fin 24) (age : ℕ) (s : State), (¬(s.inService (24 * ↑d + ↑a) = true ∧ 2 * s.get F.STEST_INTERVAL_ms < age))) :=
  ⟨⟨0, wSt, by decide +kernel⟩,
    ⟨0, (wStBusy { chosen := some 1 } 1), 1, by decide +kernel⟩,
    ⟨0, true, false, wSt, by decide +kernel⟩,
    ⟨0, false, true, (wPartW 3 3), 2, by decide +kernel⟩,
    ⟨0, true, false, (wPartW 11 3), 2, by decide +kernel⟩,
    ⟨0, false, false, (wPartW 7 3), 2, by decide +kernel⟩,
    ⟨0, 2, (wIstBusy 1 0 3 [1]), by decide +kernel⟩,
    ⟨0, 1, (wIstBusy 1 0 3 [1]), by decide +kernel⟩,
    ⟨0, 1, (wIstBusy 1 0 3 [1]), by decide +kernel⟩,
    ⟨0, 1, (wIstBusy 1 5 3 []), by decide +kernel⟩,
    ⟨0, 1, (wIstBusy 1 0 3 []), by decide +kernel⟩,
    ⟨0, 2, 1, wSt, by decide +kernel⟩⟩

theorem test_meets_InServiceTest_3 :
    (∃ (d : Fin 4) (a : Fin 24) (age : ℕ) (s : State), (s.inService (24 * ↑d + ↑a) = true ∧ 2 * s.get F.STEST_INTERVAL_ms < age))
    ∧ (∃ (acc : Sys2Proof.Acc) (s : State) (s2 : State) (w : Word), (s.written pgSTEST 96 acc = some (s2, w)) ∧ (BitVec.getLsbD w 31 = false))
    ∧ (∃ (acc : Sys2Proof.Acc) (s : State) (s2 : State) (w : Word), (s.written pgSTEST 96 acc = some (s2, w)) ∧ (BitVec.getLsbD w 31 = true) ∧ (¬(s2.get F.STEST_TARGET_CMD_busy = 0 ∧ ∀ d < 4, s2.targetsOk d (s2.get (F.STEST_TARGET_arrays d)) = true)))
    ∧ (∃ (acc : Sys2Proof.Acc) (s : State) (s2 : State) (w : Word), (s.written pgSTEST 96 acc = some (s2, w)) ∧ (BitVec.getLsbD w 31 = true) ∧ (s2.get F.STEST_TARGET_CMD_busy = 0 ∧ ∀ d < 4, s2.targetsOk d (s2.get (F.STEST_TARGET_arrays d)) = true))
    ∧ (∃ (acc : Sys2Proof.Acc) (s : State) (s2 : State) (w : Word) (d : ℕ) (m : ℕ), (s.written pgSTEST 96 acc = some (s2, w))) :=
  ⟨⟨0, 2, 5000, wSt, by decide +kernel⟩,
    ⟨(wAcc 0x00000005), (wTarget 0), (wStWr (wTarget 0) 0x60 0x00000005).1, (wStWr (wTarget 0) 0x60 0x00000005).2, by decide +kernel⟩,
    ⟨(wAcc 0x80000000), (wTarget 1), (wStWr (wTarget 1) 0x60 0x80000000).1, (wStWr (wTarget 1) 0x60 0x80000000).2, by decide +kernel⟩,
    ⟨(wAcc 0x80000000), (wTarget 0), (wStWr (wTarget 0) 0x60 0x80000000).1, (wStWr (wTarget 0) 0x60 0x80000000).2, by decide +kernel⟩,
    ⟨(wAcc 0x80000000), (wTarget 0), (wStWr (wTarget 0) 0x60 0x80000000).1, (wStWr (wTarget 0) 0x60 0x80000000).2, 0, 6, by decide +kernel⟩⟩

theorem test_meets_UnitsTakenOut_1 :
    (∃ (acc : Sys2Proof.Acc) (s : State) (s2 : State) (w : Word), (s.written pgSTEST 128 acc = some (s2, w)) ∧ (¬(BitVec.getLsbD w 31 = true ∧ F.STEST_ARRAY_CMD_op.ext w = 1)))
    ∧ (∃ (acc : Sys2Proof.Acc) (s : State) (s2 : State) (w : Word), (s.written pgSTEST 128 acc = some (s2, w)) ∧ (¬(BitVec.getLsbD w 31 = true ∧ F.STEST_ARRAY_CMD_op.ext w = 2)))
    ∧ (∃ (acc : Sys2Proof.Acc) (s : State) (s2 : State) (w : Word), (s.written pgSTEST 128 acc = some (s2, w)) ∧ (BitVec.getLsbD w 31 = true ∧ F.STEST_ARRAY_CMD_op.ext w = 1) ∧ (¬(F.STEST_ARRAY_CMD_array.ext w < 24 ∧ s2.inService (24 * F.STEST_ARRAY_CMD_die.ext w + F.STEST_ARRAY_CMD_array.ext w) = true ∧ List.filter (fun (b : ℕ) => decide (b ≠ F.STEST_ARRAY_CMD_array.ext w) && !(s2.stDie (F.STEST_ARRAY_CMD_die.ext w)).outReq.contains b) (s2.servingOn (F.STEST_ARRAY_CMD_die.ext w)) ≠ [])))
    ∧ (∃ (acc : Sys2Proof.Acc) (s : State) (s2 : State) (w : Word), (s.written pgSTEST 128 acc = some (s2, w)) ∧ (BitVec.getLsbD w 31 = true ∧ F.STEST_ARRAY_CMD_op.ext w = 2) ∧ (¬(F.STEST_ARRAY_CMD_array.ext w < 24 ∧ (s2.get (F.STEST_ARRAY_OUT_out (F.STEST_ARRAY_CMD_die.ext w))).testBit (F.STEST_ARRAY_CMD_array.ext w) = true ∧ (s2.arr (24 * F.STEST_ARRAY_CMD_die.ext w + F.STEST_ARRAY_CMD_array.ext w)).suspect = false ∧ s2.get (F.ARR_STATE_state (24 * F.STEST_ARRAY_CMD_die.ext w + F.STEST_ARRAY_CMD_array.ext w)) ≠ 5)))
    ∧ (∃ (acc : Sys2Proof.Acc) (s : State) (s2 : State) (w : Word), (s.written pgSTEST 128 acc = some (s2, w)) ∧ (BitVec.getLsbD w 31 = true ∧ F.STEST_ARRAY_CMD_op.ext w = 1) ∧ (F.STEST_ARRAY_CMD_array.ext w < 24 ∧ s2.inService (24 * F.STEST_ARRAY_CMD_die.ext w + F.STEST_ARRAY_CMD_array.ext w) = true ∧ List.filter (fun (b : ℕ) => decide (b ≠ F.STEST_ARRAY_CMD_array.ext w) && !(s2.stDie (F.STEST_ARRAY_CMD_die.ext w)).outReq.contains b) (s2.servingOn (F.STEST_ARRAY_CMD_die.ext w)) ≠ []))
    ∧ (∃ (acc : Sys2Proof.Acc) (s : State) (s2 : State) (w : Word), (s.written pgSTEST 128 acc = some (s2, w)) ∧ (BitVec.getLsbD w 31 = true ∧ F.STEST_ARRAY_CMD_op.ext w = 2) ∧ (F.STEST_ARRAY_CMD_array.ext w < 24 ∧ (s2.get (F.STEST_ARRAY_OUT_out (F.STEST_ARRAY_CMD_die.ext w))).testBit (F.STEST_ARRAY_CMD_array.ext w) = true ∧ (s2.arr (24 * F.STEST_ARRAY_CMD_die.ext w + F.STEST_ARRAY_CMD_array.ext w)).suspect = false ∧ s2.get (F.ARR_STATE_state (24 * F.STEST_ARRAY_CMD_die.ext w + F.STEST_ARRAY_CMD_array.ext w)) ≠ 5))
    ∧ (∃ (n : ℕ) (s : State), ((s.stDie (n / 24)).dieOut = false ∨ (s.jobs.any fun (j : Job) => j.slots.any fun (k : SlotSt) => decide (k.die = n / 24 ∧ (k.phase = 1 ∨ k.phase = 2))) = true))
    ∧ (∃ (n : ℕ) (s : State), ((s.stDie (n / 24)).dieOut = true) ∧ ((s.jobs.any fun (j : Job) => j.slots.any fun (k : SlotSt) => decide (k.die = n / 24 ∧ (k.phase = 1 ∨ k.phase = 2))) = false))
    ∧ (∃ (acc : Sys2Proof.Acc) (s : State) (s2 : State) (w : Word), (s.written pgSTEST 160 acc = some (s2, w)) ∧ (¬(BitVec.getLsbD w 31 = true ∧ F.STEST_DIE_CMD_op.ext w = 1)))
    ∧ (∃ (acc : Sys2Proof.Acc) (s : State) (s2 : State) (w : Word), (s.written pgSTEST 160 acc = some (s2, w)) ∧ (BitVec.getLsbD w 31 = true ∧ F.STEST_DIE_CMD_op.ext w = 1) ∧ (¬(s2.cdState (F.STEST_DIE_CMD_die.ext w) = 3 ∧ ∃ e < 4, e ≠ F.STEST_DIE_CMD_die.ext w ∧ s2.cdState e = 3)))
    ∧ (∃ (acc : Sys2Proof.Acc) (s : State) (s2 : State) (w : Word), (s.written pgSTEST 160 acc = some (s2, w)) ∧ (BitVec.getLsbD w 31 = true ∧ F.STEST_DIE_CMD_op.ext w = 1) ∧ (s2.cdState (F.STEST_DIE_CMD_die.ext w) = 3 ∧ ∃ e < 4, e ≠ F.STEST_DIE_CMD_die.ext w ∧ s2.cdState e = 3) ∧ (s2.dieBusy (F.STEST_DIE_CMD_die.ext w) = true))
    ∧ (∃ (acc : Sys2Proof.Acc) (s : State) (s2 : State) (w : Word), (s.written pgSTEST 160 acc = some (s2, w)) ∧ (BitVec.getLsbD w 31 = true ∧ F.STEST_DIE_CMD_op.ext w = 1) ∧ (s2.cdState (F.STEST_DIE_CMD_die.ext w) = 3 ∧ ∃ e < 4, e ≠ F.STEST_DIE_CMD_die.ext w ∧ s2.cdState e = 3) ∧ (s2.dieBusy (F.STEST_DIE_CMD_die.ext w) = false)) :=
  ⟨⟨(wAcc 0x80020200), wSt, (wStWr wSt 0x80 0x80020200).1, (wStWr wSt 0x80 0x80020200).2, by decide +kernel⟩,
    ⟨(wAcc 0x80010200), wSt, (wStWr wSt 0x80 0x80010200).1, (wStWr wSt 0x80 0x80010200).2, by decide +kernel⟩,
    ⟨(wAcc 0x80010200), wOutL, (wStWr wOutL 0x80 0x80010200).1, (wStWr wOutL 0x80 0x80010200).2, by decide +kernel⟩,
    ⟨(wAcc 0x80020500), wOut2, (wStWr wOut2 0x80 0x80020500).1, (wStWr wOut2 0x80 0x80020500).2, by decide +kernel⟩,
    ⟨(wAcc 0x80010200), wSt, (wStWr wSt 0x80 0x80010200).1, (wStWr wSt 0x80 0x80010200).2, by decide +kernel⟩,
    ⟨(wAcc 0x80020400), wOut2, (wStWr wOut2 0x80 0x80020400).1, (wStWr wOut2 0x80 0x80020400).2, by decide +kernel⟩,
    ⟨2, (wUtJob wUtAsked), by decide +kernel⟩,
    ⟨2, wUtAsked, by decide +kernel⟩,
    ⟨(wAcc 0x80020000), wTwoDies, (wStWr wTwoDies 0xA0 0x80020000).1, (wStWr wTwoDies 0xA0 0x80020000).2, by decide +kernel⟩,
    ⟨(wAcc 0x80010000), wSt, (wStWr wSt 0xA0 0x80010000).1, (wStWr wSt 0xA0 0x80010000).2, by decide +kernel⟩,
    ⟨(wAcc 0x80010000), wUtTwoBusy, (wStWr wUtTwoBusy 0xA0 0x80010000).1, (wStWr wUtTwoBusy 0xA0 0x80010000).2, by decide +kernel⟩,
    ⟨(wAcc 0x80010000), wTwoDies, (wStWr wTwoDies 0xA0 0x80010000).1, (wStWr wTwoDies 0xA0 0x80010000).2, by decide +kernel⟩⟩

theorem test_meets_UnitsTakenOut_2 :
    (∃ (acc : Sys2Proof.Acc) (s : State) (s2 : State) (w : Word), (s.written pgSTEST 164 acc = some (s2, w)) ∧ (¬(BitVec.getLsbD w 31 = true ∧ F.STEST_STACK_CMD_op.ext w = 1)))
    ∧ (∃ (acc : Sys2Proof.Acc) (s : State) (s2 : State) (w : Word), (s.written pgSTEST 164 acc = some (s2, w)) ∧ (¬(BitVec.getLsbD w 31 = true ∧ F.STEST_STACK_CMD_op.ext w = 2)))
    ∧ (∃ (acc : Sys2Proof.Acc) (s : State) (s2 : State) (w : Word), (s.written pgSTEST 164 acc = some (s2, w)) ∧ (BitVec.getLsbD w 31 = true ∧ F.STEST_STACK_CMD_op.ext w = 1) ∧ (s2.spillBase (F.STEST_STACK_CMD_stack.ext w) = none ∨ ¬(s2.stest.copy = none ∧ s2.cdState (F.STEST_STACK_CMD_stack.ext w) = 3) ∨ tabFind s2.spilled (F.STEST_STACK_CMD_stack.ext w) ≠ none))
    ∧ (∃ (acc : Sys2Proof.Acc) (s : State) (s2 : State) (w : Word), (s.written pgSTEST 164 acc = some (s2, w)) ∧ (BitVec.getLsbD w 31 = true ∧ F.STEST_STACK_CMD_op.ext w = 2) ∧ (tabFind s2.spilled (F.STEST_STACK_CMD_stack.ext w) = none ∨ ¬(s2.stest.copy = none ∧ s2.cdState (F.STEST_STACK_CMD_stack.ext w) = 3)))
    ∧ (∃ (acc : Sys2Proof.Acc) (s : State) (s2 : State) (w : Word) (b : ℕ), (s.written pgSTEST 164 acc = some (s2, w)) ∧ (BitVec.getLsbD w 31 = true ∧ F.STEST_STACK_CMD_op.ext w = 1) ∧ (s2.spillBase (F.STEST_STACK_CMD_stack.ext w) = some b) ∧ (s2.stest.copy = none ∧ s2.cdState (F.STEST_STACK_CMD_stack.ext w) = 3) ∧ (tabFind s2.spilled (F.STEST_STACK_CMD_stack.ext w) = none))
    ∧ (∃ (acc : Sys2Proof.Acc) (s : State) (s2 : State) (w : Word) (b : ℕ), (s.written pgSTEST 164 acc = some (s2, w)) ∧ (BitVec.getLsbD w 31 = true ∧ F.STEST_STACK_CMD_op.ext w = 2) ∧ (tabFind s2.spilled (F.STEST_STACK_CMD_stack.ext w) = some b) ∧ (s2.stest.copy = none ∧ s2.cdState (F.STEST_STACK_CMD_stack.ext w) = 3))
    ∧ (∃ (s : State), (s.stest.copy = none))
    ∧ (∃ (s : State) (n : ℕ) (back : Bool) (b : ℕ), (s.stest.copy = some (n, back, b)))
    ∧ (∃ (src : ℕ) (dst : ℕ) (s : State), (memWf s.mem = true) ∧ (src + 268435456 ≤ dst ∨ dst + 268435456 ≤ src) ∧ (src % 32 = 0) ∧ (dst % 32 = 0) ∧ ((List.map (fun (c : ℕ × WordCond) => c.1) s.cond).Nodup))
    ∧ (∃ (src : ℕ) (dst : ℕ) (s : State) (w : ℕ), (memWf s.mem = true) ∧ (src + 268435456 ≤ dst ∨ dst + 268435456 ≤ src) ∧ (src % 32 = 0) ∧ (dst % 32 = 0) ∧ ((List.map (fun (c : ℕ × WordCond) => c.1) s.cond).Nodup) ∧ (w < 8388608))
    ∧ (∃ (src : ℕ) (dst : ℕ) (s : State) (w : ℕ), (memWf s.mem = true) ∧ (src + 268435456 ≤ dst ∨ dst + 268435456 ≤ src) ∧ (src % 32 = 0) ∧ (dst % 32 = 0) ∧ ((List.map (fun (c : ℕ × WordCond) => c.1) s.cond).Nodup) ∧ (w < dst / 32 ∨ dst / 32 + 8388608 ≤ w))
    ∧ (∃ (acc : Sys2Proof.Acc) (s : State) (s2 : State) (w : Word), (s.written pgSTEST 172 acc = some (s2, w)) ∧ (BitVec.getLsbD w 31 = false)) :=
  ⟨⟨(wAcc 0x80020000), wSpillA, (wStWr wSpillA 0xA4 0x80020000).1, (wStWr wSpillA 0xA4 0x80020000).2, by decide +kernel⟩,
    ⟨(wAcc 0x80010000), wSpilled, (wStWr wSpilled 0xA4 0x80010000).1, (wStWr wSpilled 0xA4 0x80010000).2, by decide +kernel⟩,
    ⟨(wAcc 0x80010000), wSt, (wStWr wSt 0xA4 0x80010000).1, (wStWr wSt 0xA4 0x80010000).2, by decide +kernel⟩,
    ⟨(wAcc 0x80020000), wSpillA, (wStWr wSpillA 0xA4 0x80020000).1, (wStWr wSpillA 0xA4 0x80020000).2, by decide +kernel⟩,
    ⟨(wAcc 0x80010000), wSpillA, (wStWr wSpillA 0xA4 0x80010000).1, (wStWr wSpillA 0xA4 0x80010000).2, (dramBase + 0x10000000), by decide +kernel⟩,
    ⟨(wAcc 0x80020000), wSpilled, (wStWr wSpilled 0xA4 0x80020000).1, (wStWr wSpilled 0xA4 0x80020000).2, (dramBase + 0x10000000), by decide +kernel⟩,
    ⟨wSpilled, by decide +kernel⟩,
    ⟨(wCopyS false), 0, false, (dramBase + 0x10000000), by decide +kernel⟩,
    ⟨(stackBase 0), (dramBase + 0x10000000), wUtCond, by decide +kernel⟩,
    ⟨(stackBase 0), (dramBase + 0x10000000), wUtCond, 3, by decide +kernel⟩,
    ⟨(stackBase 0), (dramBase + 0x10000000), wUtCond, 3, by decide +kernel⟩,
    ⟨(wAcc 0x00000001), wPair, (wStWr wPair 0xAC 0x00000001).1, (wStWr wPair 0xAC 0x00000001).2, by decide +kernel⟩⟩

theorem test_meets_UnitsTakenOut_3 :
    (∃ (acc : Sys2Proof.Acc) (s : State) (s2 : State) (w : Word), (s.written pgSTEST 172 acc = some (s2, w)) ∧ (BitVec.getLsbD w 31 = true) ∧ (¬(s2.get (F.ISL_STATE_state 0) = 2 ∧ s2.get (F.ISL_STATE_state 1) = 2 ∧ s2.anyFallback = false ∧ (s2.island 0).testing = false ∧ (s2.island 1).testing = false)))
    ∧ (∃ (acc : Sys2Proof.Acc) (s : State) (s2 : State) (w : Word), (s.written pgSTEST 172 acc = some (s2, w)) ∧ (BitVec.getLsbD w 31 = true) ∧ (s2.get (F.ISL_STATE_state 0) = 2 ∧ s2.get (F.ISL_STATE_state 1) = 2 ∧ s2.anyFallback = false ∧ (s2.island 0).testing = false ∧ (s2.island 1).testing = false))
    ∧ (∃ (acc : Sys2Proof.Acc) (s : State) (s2 : State) (w : Word), (s.written pgSTEST 272 acc = some (s2, w)) ∧ (BitVec.getLsbD w 31 = false))
    ∧ (∃ (acc : Sys2Proof.Acc) (s : State) (s2 : State) (w : Word), (s.written pgSTEST 272 acc = some (s2, w)) ∧ (BitVec.getLsbD w 31 = true) ∧ (¬(s2.repairEntry ≠ none ∧ (s2.get F.SEC_DEBUG_STATE_scope).testBit 5 = true ∧ s2.islUp 0 = true ∧ s2.islUp 1 = true)))
    ∧ (∃ (acc : Sys2Proof.Acc) (s : State) (s2 : State) (w : Word) (e : ℕ × List Byte), (s.written pgSTEST 272 acc = some (s2, w)) ∧ (BitVec.getLsbD w 31 = true) ∧ (s2.repairEntry ≠ none ∧ (s2.get F.SEC_DEBUG_STATE_scope).testBit 5 = true ∧ s2.islUp 0 = true ∧ s2.islUp 1 = true) ∧ (s2.repairEntry = some e))
    ∧ (∃ (s : State), (s.get F.STEST_REPAIR_CLEAR_kind = 1))
    ∧ (∃ (s : State), (s.get F.STEST_REPAIR_CLEAR_kind = 2))
    ∧ (∃ (s : State), (s.get F.STEST_REPAIR_CLEAR_kind = 3))
    ∧ (∃ (s : State), (s.get F.STEST_REPAIR_CLEAR_kind = 4))
    ∧ (∃ (s : State), (s.get F.STEST_REPAIR_CLEAR_kind = 5))
    ∧ (∃ (s : State), (s.get F.STEST_REPAIR_CLEAR_kind = 0 ∨ 5 < s.get F.STEST_REPAIR_CLEAR_kind)) :=
  ⟨⟨(wAcc 0x80000001), wSt, (wStWr wSt 0xAC 0x80000001).1, (wStWr wSt 0xAC 0x80000001).2, by decide +kernel⟩,
    ⟨(wAcc 0x80000001), wPair, (wStWr wPair 0xAC 0x80000001).1, (wStWr wPair 0xAC 0x80000001).2, by decide +kernel⟩,
    ⟨(wAcc 0x00000003), wPair, (wStWr wPair 0x110 0x00000003).1, (wStWr wPair 0x110 0x00000003).2, by decide +kernel⟩,
    ⟨(wAcc 0x80000003), wPair, (wStWr wPair 0x110 0x80000003).1, (wStWr wPair 0x110 0x80000003).2, by decide +kernel⟩,
    ⟨(wAcc wRepW), wRepE, (wStWr wRepE 0x110 wRepW).1, (wStWr wRepE 0x110 wRepW).2, (0x2103, [0#8]), by decide +kernel⟩,
    ⟨(wUtRep 1 3), by decide +kernel⟩,
    ⟨(wUtRep 2 3), by decide +kernel⟩,
    ⟨(wUtRep 3 3), by decide +kernel⟩,
    ⟨(wUtRep 4 3), by decide +kernel⟩,
    ⟨(wUtRep 5 3), by decide +kernel⟩,
    ⟨(wUtRep 6 3), by decide +kernel⟩⟩

theorem test_meets_PowerStates_1 :
    (∃ (acc : Sys2Proof.Acc) (s : State) (s2 : State) (w : Word), (s.written pgPWR 32 acc = some (s2, w)))
    ∧ (∃ (acc : Sys2Proof.Acc) (s : State) (s2 : State) (w : Word), (s.written pgPWR 32 acc = some (s2, w)) ∧ (s.hubAsleep = false))
    ∧ (∃ (acc : Sys2Proof.Acc) (s : State), (s.hubAsleep = true))
    ∧ (∃ (v : ℕ) (s : State), (v ≤ 2) ∧ (s.sleepRefused = true))
    ∧ (∃ (v : ℕ) (s : State), (v = 1 ∨ v = 2) ∧ (s.sleepRefused = false))
    ∧ (∃ (v : ℕ) (s : State), (¬(s.pwr.wanted = some 4 ∧ s.get F.PWR_STATE_state = 3 ∧ ∀ d < 4, s.nextUngate d = none)))
    ∧ (∃ (v : ℕ) (s : State), (s.pwr.wanted = some 4 ∧ s.get F.PWR_STATE_state = 3 ∧ ∀ d < 4, s.nextUngate d = none))
    ∧ (∃ (v : ℕ) (s : State), (s.pwr.warming = true) ∧ (∀ d < 4, s.get (F.PWR_UNGATED_ungated d) = 0))
    ∧ (∃ (v : ℕ) (s : State), (¬(s.pwr.warming = true ∧ ∀ d < 4, s.get (F.PWR_UNGATED_ungated d) = 0)))
    ∧ (∃ (v : ℕ) (s : State), (s.pwr.wanted = some 1))
    ∧ (∃ (v : ℕ) (s : State), (s.pwr.wanted = some 4))
    ∧ (∃ (v : ℕ) (s : State), (s.pwr.wanted = some 2)) :=
  ⟨⟨(wAcc 0x10), wRunJ, (wPwrWr wRunJ 0x20 0x10).1, (wPwrWr wRunJ 0x20 0x10).2, by decide +kernel⟩,
    ⟨(wAcc 0x30), wRunS, (wPwrWr wRunS 0x20 0x30).1, (wPwrWr wRunS 0x20 0x30).2, by decide +kernel⟩,
    ⟨(wAcc 0x40), (wAsleep 2), by decide +kernel⟩,
    ⟨1, wRunJ, by decide +kernel⟩,
    ⟨1, wWarmS, by decide +kernel⟩,
    ⟨4, wRunU, by decide +kernel⟩,
    ⟨4, (wPsW false (some 4) wWarmS), by decide +kernel⟩,
    ⟨4, (wPsW true (some 1) wRunS), by decide +kernel⟩,
    ⟨4, (wPsW true (some 1) wRunU), by decide +kernel⟩,
    ⟨4, (wPsW true (some 1) wRunS), by decide +kernel⟩,
    ⟨4, (wPsW false (some 4) wWarmS), by decide +kernel⟩,
    ⟨4, (wPsW false (some 2) wWarmP), by decide +kernel⟩⟩

theorem test_meets_PowerStates_2 :
    (∃ (v : ℕ) (s : State), (s.pwr.wanted = none ∨ s.pwr.wanted = some 3))
    ∧ (∃ (s : State) (wanted : Option ℕ), (s.pwr.held ≠ []))
    ∧ (∃ (s : State) (wanted : Option ℕ), (s.hubAsleep = false))
    ∧ (∃ (s : State) (wanted : Option ℕ), (s.pwr.held = []) ∧ (s.get F.PWR_STATE_state = 2))
    ∧ (∃ (s : State) (wanted : Option ℕ), (s.pwr.held = []) ∧ (s.get F.PWR_STATE_state = 1))
    ∧ (∃ (d : Fin 4) (s : State), (¬(s.get F.PWR_STATE_state = 4 ∨ s.get F.PWR_STATE_state = 3 ∧ s.pwr.wanted = some 4)))
    ∧ (∃ (d : Fin 4) (s : State), (s.nextUngate ↑d = none))
    ∧ (∃ (d : Fin 4) (s : State) (a : ℕ), (s.get F.PWR_STATE_state = 4 ∨ s.get F.PWR_STATE_state = 3 ∧ s.pwr.wanted = some 4) ∧ (s.nextUngate ↑d = some a))
    ∧ (∃ (n : Arr) (s : State), (¬(s.ungated (arrNum n) = true ∧ s.arrIdle (arrNum n) = true ∧ s.get F.PWR_STATE_state = 4)))
    ∧ (∃ (n : Arr) (s : State), (s.ungated (arrNum n) = true ∧ s.arrIdle (arrNum n) = true ∧ s.get F.PWR_STATE_state = 4) ∧ (s.pwr.warming = true))
    ∧ (∃ (n : Arr) (s : State), (s.ungated (arrNum n) = true ∧ s.arrIdle (arrNum n) = true ∧ s.get F.PWR_STATE_state = 4) ∧ (s.pwr.warming = false) ∧ (s.inService (arrNum n) = false))
    ∧ (∃ (n : Arr) (s : State), (s.ungated (arrNum n) = true ∧ s.arrIdle (arrNum n) = true ∧ s.get F.PWR_STATE_state = 4) ∧ (s.pwr.warming = false) ∧ (s.inService (arrNum n) = true) ∧ (s.get F.PWR_GATE_IDLE_us = 0)) :=
  ⟨⟨4, wWarmP, by decide +kernel⟩,
    ⟨{ wAsleep 2 with pwr := { held := [1] } }, none, by decide +kernel⟩,
    ⟨wRunS, none, by decide +kernel⟩,
    ⟨(wAsleep 2), (some 4), by decide +kernel⟩,
    ⟨(wAsleep 1), (some 4), by decide +kernel⟩,
    ⟨0, wWarmS, by decide +kernel⟩,
    ⟨0, wRunS, by decide +kernel⟩,
    ⟨0, (wRunS.put (F.CD_ARR_SERVICE_in_service 0) 6), 1, by decide +kernel⟩,
    ⟨wA0, wRunS, by decide +kernel⟩,
    ⟨wA0, (wGateS true 1 5), by decide +kernel⟩,
    ⟨wA0, (wGateS false 0 0), by decide +kernel⟩,
    ⟨wA0, (wGateS false 1 0), by decide +kernel⟩⟩

theorem test_meets_PowerStates_3 :
    (∃ (n : Arr) (s : State), (s.ungated (arrNum n) = true ∧ s.arrIdle (arrNum n) = true ∧ s.get F.PWR_STATE_state = 4) ∧ (s.pwr.warming = false) ∧ (s.inService (arrNum n) = true) ∧ (s.get F.PWR_GATE_IDLE_us ≠ 0))
    ∧ (∃ (n : Arr) (s : State) (j : ℕ), (j ≠ arrNum n))
    ∧ (∃ (acc : Sys2Proof.Acc) (s : State) (s2 : State) (w : Word), (s.written pgPWR 36 acc = some (s2, w)))
    ∧ (∃ (v : ℕ) (s : State), (v = s.get F.PWR_SERVICE_level))
    ∧ (∃ (v : ℕ) (s : State), (s.get F.PWR_SERVICE_level = 0 ∧ v = 1))
    ∧ (∃ (v : ℕ) (s : State), (s.get F.PWR_SERVICE_level = 1 ∧ v = 2 ∧ s.get F.MEMG_STATUS_ready_segments = 255))
    ∧ (∃ (v : ℕ) (s : State), (v ≠ s.get F.PWR_SERVICE_level) ∧ (¬(s.get F.PWR_SERVICE_level = 0 ∧ v = 1)) ∧ (¬(s.get F.PWR_SERVICE_level = 1 ∧ v = 2 ∧ s.get F.MEMG_STATUS_ready_segments = 255)))
    ∧ (∃ (n : ℕ) (d : ℕ) (s : State), (s.get (F.PWR_CLK_array d) = s.clkEff d))
    ∧ (∃ (n : ℕ) (d : ℕ) (s : State), (s.get (F.PWR_CLK_array d) ≠ s.clkEff d)) :=
  ⟨⟨wA0, (wGateS false 1 5), by decide +kernel⟩,
    ⟨wA0, (wGateS false 1 5), 4, by decide +kernel⟩,
    ⟨(wAcc 1), (wSvc 0), (wPwrWr (wSvc 0) 0x24 1).1, (wPwrWr (wSvc 0) 0x24 1).2, by decide +kernel⟩,
    ⟨2, (wSvc 2), by decide +kernel⟩,
    ⟨1, (wPsSvc 0), by decide +kernel⟩,
    ⟨2, (wSvc 1), by decide +kernel⟩,
    ⟨1, (wSvc 2), by decide +kernel⟩,
    ⟨3, 0, ((wDipP 1 true).put (F.PWR_CLK_array 0) 1), by decide +kernel⟩,
    ⟨3, 0, (wDipP 1 true), by decide +kernel⟩⟩

theorem test_meets_SupplyAndThermal_1 :
    (∃ (rail : Fin 10) (s : State), (s.hubOff = true))
    ∧ (∃ (rail : Fin 10) (s : State), (s.hubOff = false))
    ∧ (∃ (rail : Fin 5) (mv : ℕ) (s : State), (¬(s.hubOff = false ∧ mv < s.get F.SUP_LEVELS_warn_mv)))
    ∧ (∃ (rail : Fin 5) (mv : ℕ) (s : State), (s.hubOff = false ∧ mv < s.get F.SUP_LEVELS_warn_mv) ∧ (tabFind s.pwr.dips ↑rail = none))
    ∧ (∃ (rail : Fin 5) (mv : ℕ) (s : State) (p : DipSt), (s.hubOff = false ∧ mv < s.get F.SUP_LEVELS_warn_mv) ∧ (tabFind s.pwr.dips ↑rail = some p))
    ∧ (∃ (rail : Fin 5) (us : ℕ) (s : State), (tabFind s.pwr.dips ↑rail = none))
    ∧ (∃ (rail : Fin 5) (us : ℕ) (s : State) (p : DipSt), (tabFind s.pwr.dips ↑rail = some p))
    ∧ (∃ (rail : Fin 5) (us : ℕ) (s : State) (p : DipSt), (tabFind s.pwr.dips ↑rail = some p) ∧ (s.commanded ↑rail ≤ max p.ceil (min (p.ceil + 1) (s.commanded ↑rail))))
    ∧ (∃ (rail : Fin 5) (us : ℕ) (s : State) (p : DipSt), (tabFind s.pwr.dips ↑rail = some p) ∧ (max p.ceil (min (p.ceil + 1) (s.commanded ↑rail)) < s.commanded ↑rail))
    ∧ (∃ (rail : Fin 5) (us : ℕ) (s : State) (p : DipSt), (tabFind s.pwr.dips ↑rail = some p) ∧ (p.low = false))
    ∧ (∃ (rail : Fin 5) (us : ℕ) (s : State) (p : DipSt), (tabFind s.pwr.dips ↑rail = some p) ∧ (p.low = true))
    ∧ (∃ (x : Temps) (s : State), (s.hubOff = true)) :=
  ⟨⟨(2 : Fin 10), { wI0 with pwr := { held := [1] } }, by decide +kernel⟩,
    ⟨(0 : Fin 10), (wDipP 1 true), by decide +kernel⟩,
    ⟨(0 : Fin 5), 700, wNoDip, by decide +kernel⟩,
    ⟨(0 : Fin 5), 699, wNoDip, by decide +kernel⟩,
    ⟨(0 : Fin 5), 250, (wDipP 2 false), { low := false, minMv := 600, ceil := 2 }, by decide +kernel⟩,
    ⟨(1 : Fin 5), 250, wStDip, by decide +kernel⟩,
    ⟨(0 : Fin 5), 250, wStDip, { low := true, minMv := 600, ceil := 1 }, by decide +kernel⟩,
    ⟨(0 : Fin 5), 250, (wDipP 2 false), { low := false, minMv := 600, ceil := 2 }, by decide +kernel⟩,
    ⟨(0 : Fin 5), 250, (wDipP 1 true), { low := true, minMv := 600, ceil := 1 }, by decide +kernel⟩,
    ⟨(0 : Fin 5), 250, (wDipP 2 false), { low := false, minMv := 600, ceil := 2 }, by decide +kernel⟩,
    ⟨(0 : Fin 5), 250, (wDipP 1 true), { low := true, minMv := 600, ceil := 1 }, by decide +kernel⟩,
    ⟨wStTemps, { wI0 with pwr := { held := [1] } }, by decide +kernel⟩⟩

theorem test_meets_SupplyAndThermal_2 :
    (∃ (x : Temps) (s : State), (s.hubOff = false))
    ∧ (∃ (temps : List (Option ℤ)) (mask : ℕ) (p : ℕ × ℤ), (hottest (validPoints temps mask) = some p))
    ∧ (∃ (temps : List (Option ℤ)) (mask : ℕ) (p : ℕ × ℤ) (q : ℕ × ℤ), (hottest (validPoints temps mask) = some p) ∧ (q ∈ validPoints temps mask))
    ∧ (∃ (temps : List (Option ℤ)) (mask : ℕ) (p : ℕ × ℤ) (q : ℕ × ℤ), (hottest (validPoints temps mask) = some p) ∧ (q ∈ validPoints temps mask) ∧ (q.2 = p.2))
    ∧ (∃ (f : Fld) (t : ℤ) (s : State), (t % 16 = 0))
    ∧ (∃ (f : Fld) (t : ℤ) (s : State), (t % 16 ≠ 0)) :=
  ⟨⟨wStTemps, wStHeat, by decide +kernel⟩,
    ⟨[none, some 5, some 7, some 7], 0, (2, 7), by decide +kernel⟩,
    ⟨[none, some 5, some 7, some 7], 0, (2, 7), (1, 5), by decide +kernel⟩,
    ⟨[none, some 5, some 7, some 7], 0, (2, 7), (3, 7), by decide +kernel⟩,
    ⟨(F.THM_DIE_MAX_die 0), 32, wI0, by decide +kernel⟩,
    ⟨(F.THM_DIE_MAX_die 0), 33, wI0, by decide +kernel⟩⟩

theorem test_meets_Boot_1 :
    (∃ (i : Island) (role : Bool) (src : Bool) (s : State), (¬(s.islUp (islIdx i) = false ∧ 2 ∉ s.pwr.held ∧ s.get F.PWR_STATE_state ≠ 1)))
    ∧ (∃ (i : Island) (role : Bool) (src : Bool) (s : State), (s.islUp (islIdx i) = false ∧ 2 ∉ s.pwr.held ∧ s.get F.PWR_STATE_state ≠ 1))
    ∧ (∃ (i : ℕ) (n : ℕ) (b : ℕ) (s : State), (((fun (u : State) (c : ℕ) => if u.bankState i c = 1 ∧ 3 ≤ u.bankTries i c then (fun (u : State) => { u with sec := have __src := u.sec; { __src with boot := have __src := u.sec.boot; { __src with fell := true } } }) (u.bankMark i c 3) else u) ((fun (u : State) (c : ℕ) => if u.bankState i c = 1 ∧ 3 ≤ u.bankTries i c then (fun (u : State) => { u with sec := have __src := u.sec; { __src with boot := have __src := u.sec.boot; { __src with fell := true } } }) (u.bankMark i c 3) else u) s 0) 1).bankState i 0 = 1))
    ∧ (∃ (i : ℕ) (n : ℕ) (b : ℕ) (s : State), (((fun (u : State) (c : ℕ) => if u.bankState i c = 1 ∧ 3 ≤ u.bankTries i c then (fun (u : State) => { u with sec := have __src := u.sec; { __src with boot := have __src := u.sec.boot; { __src with fell := true } } }) (u.bankMark i c 3) else u) ((fun (u : State) (c : ℕ) => if u.bankState i c = 1 ∧ 3 ≤ u.bankTries i c then (fun (u : State) => { u with sec := have __src := u.sec; { __src with boot := have __src := u.sec.boot; { __src with fell := true } } }) (u.bankMark i c 3) else u) s 0) 1).bankState i 0 ≠ 1) ∧ (((fun (u : State) (c : ℕ) => if u.bankState i c = 1 ∧ 3 ≤ u.bankTries i c then (fun (u : State) => { u with sec := have __src := u.sec; { __src with boot := have __src := u.sec.boot; { __src with fell := true } } }) (u.bankMark i c 3) else u) ((fun (u : State) (c : ℕ) => if u.bankState i c = 1 ∧ 3 ≤ u.bankTries i c then (fun (u : State) => { u with sec := have __src := u.sec; { __src with boot := have __src := u.sec.boot; { __src with fell := true } } }) (u.bankMark i c 3) else u) s 0) 1).bankState i 1 = 1))
    ∧ (∃ (i : ℕ) (n : ℕ) (b : ℕ) (s : State), (((fun (u : State) (c : ℕ) => if u.bankState i c = 1 ∧ 3 ≤ u.bankTries i c then (fun (u : State) => { u with sec := have __src := u.sec; { __src with boot := have __src := u.sec.boot; { __src with fell := true } } }) (u.bankMark i c 3) else u) ((fun (u : State) (c : ℕ) => if u.bankState i c = 1 ∧ 3 ≤ u.bankTries i c then (fun (u : State) => { u with sec := have __src := u.sec; { __src with boot := have __src := u.sec.boot; { __src with fell := true } } }) (u.bankMark i c 3) else u) s 0) 1).bankState i 0 ≠ 1) ∧ (((fun (u : State) (c : ℕ) => if u.bankState i c = 1 ∧ 3 ≤ u.bankTries i c then (fun (u : State) => { u with sec := have __src := u.sec; { __src with boot := have __src := u.sec.boot; { __src with fell := true } } }) (u.bankMark i c 3) else u) ((fun (u : State) (c : ℕ) => if u.bankState i c = 1 ∧ 3 ≤ u.bankTries i c then (fun (u : State) => { u with sec := have __src := u.sec; { __src with boot := have __src := u.sec.boot; { __src with fell := true } } }) (u.bankMark i c 3) else u) s 0) 1).bankState i 1 ≠ 1))
    ∧ (∃ (i : ℕ) (n : ℕ) (b : ℕ) (s : State), ((s.bankChoose i).2 = none))
    ∧ (∃ (i : ℕ) (n : ℕ) (b : ℕ) (s : State) (c : ℕ), ((s.bankChoose i).2 = some c))
    ∧ (∃ (acc : Sys2Proof.Acc) (s : State) (s2 : State) (w : Word) (c : Instr), (s.written pgSEC 36 acc = some (s2, w)) ∧ (c ∈ [Instr.hostGo acc, Instr.testGo acc, Instr.confirm acc, Instr.activate acc]))
    ∧ (∃ (s : State), (¬(s.sec.boot.host = true ∧ s.sec.boot.running = false)))
    ∧ (∃ (s : State), (¬(s.sec.boot.host = true ∧ s.sec.boot.running = true ∧ (s.get F.MEMG_STATUS_ready_segments).testBit 0 = true ∧ tabFind s.sec.meas 7 = none)))
    ∧ (∃ (s : State), (s.sec.boot.host = true ∧ s.sec.boot.running = false))
    ∧ (∃ (s : State), (s.sec.boot.host = true ∧ s.sec.boot.running = true ∧ (s.get F.MEMG_STATUS_ready_segments).testBit 0 = true ∧ tabFind s.sec.meas 7 = none)) :=
  ⟨⟨Island.sib, true, true, wI0, by decide +kernel⟩,
    ⟨Island.sia, true, true, (wBtNor 1 2), by decide +kernel⟩,
    ⟨0, 2, 1, (wBtBanks 1 2), by decide +kernel⟩,
    ⟨0, 2, 1, (wBtBanks 2 1), by decide +kernel⟩,
    ⟨0, 2, 1, (wBtBanks 2 2), by decide +kernel⟩,
    ⟨0, 2, 1, (wBtBanks 3 3), by decide +kernel⟩,
    ⟨0, 2, 1, (wBtBanks 2 2), 1, by decide +kernel⟩,
    ⟨(wAcc 9), (wHostB false false), (wSecWr (wHostB false false) 0x24 9).1, (wSecWr (wHostB false false) 0x24 9).2, (.hostGo (wAcc 9)), by decide +kernel⟩,
    ⟨(wHostB false true), by decide +kernel⟩,
    ⟨(wHostB false false), by decide +kernel⟩,
    ⟨(wHostB false false), by decide +kernel⟩,
    ⟨wTestHost, by decide +kernel⟩⟩

theorem test_meets_Boot_2 :
    (∃ (s : State), (s.hubWaits = false ∨ s.sec.boot.kept = false ∧ s.hubOffer = none))
    ∧ (∃ (s : State), (s.sec.boot.host = true))
    ∧ (∃ (s : State), (s.sec.boot.host = false))
    ∧ (∃ (s : State), (s.hubWaits = true) ∧ (s.sec.boot.kept = true))
    ∧ (∃ (s : State) (src : ℕ) (im : Image), (s.hubWaits = true) ∧ (s.sec.boot.kept = false) ∧ (s.hubOffer = some (src, im)))
    ∧ (∃ (s : State), (¬(s.hubOff = false ∧ s.sec.boot.running = true ∧ (s.get F.MEMG_STATUS_ready_segments).testBit 0 = true ∧ tabFind s.sec.meas 7 = none ∧ s.islandsUp ≠ [] ∧ (s.sec.boot.host = true → s.sec.boot.goTest = true))))
    ∧ (∃ (s : State), (s.hubOff = false ∧ s.sec.boot.running = true ∧ (s.get F.MEMG_STATUS_ready_segments).testBit 0 = true ∧ tabFind s.sec.meas 7 = none ∧ s.islandsUp ≠ [] ∧ (s.sec.boot.host = true → s.sec.boot.goTest = true)) ∧ (s.sec.boot.host = true))
    ∧ (∃ (s : State), (s.hubOff = false ∧ s.sec.boot.running = true ∧ (s.get F.MEMG_STATUS_ready_segments).testBit 0 = true ∧ tabFind s.sec.meas 7 = none ∧ s.islandsUp ≠ [] ∧ (s.sec.boot.host = true → s.sec.boot.goTest = true)) ∧ (s.sec.boot.host = false)) :=
  ⟨⟨(wHostB false true), by decide +kernel⟩,
    ⟨(wHostB true false), by decide +kernel⟩,
    ⟨wTwoSrc, by decide +kernel⟩,
    ⟨wKept, by decide +kernel⟩,
    ⟨wHostHdr, 4, wHostIm, ⟨by decide +kernel, by decide +kernel, by rfl⟩⟩,
    ⟨wI0, by decide +kernel⟩,
    ⟨wTestHost, by decide +kernel⟩,
    ⟨wTestNor, by decide +kernel⟩⟩

theorem test_meets_TrialAndUpdate_1 :
    (∃ (s : State), (¬(s.sec.boot.trial = true ∧ s.get F.SEC_UPDATE_CMD_state ≠ 1 ∧ s.get F.SEC_UPDATE_CMD_state ≠ 2)))
    ∧ (∃ (s : State), (s.sec.boot.trial = true ∧ s.get F.SEC_UPDATE_CMD_state ≠ 1 ∧ s.get F.SEC_UPDATE_CMD_state ≠ 2))
    ∧ (∃ (s : State), (¬(s.anyFallback = false ∧ (∀ j ∈ s.jobs, j.safety = false) ∧ ∃ i ∈ s.islandsUp, s.bankState i (1 - s.get (F.ISL_IMAGE_bank i)) = 1)))
    ∧ (∃ (s : State), (s.anyFallback = false ∧ (∀ j ∈ s.jobs, j.safety = false) ∧ ∃ i ∈ s.islandsUp, s.bankState i (1 - s.get (F.ISL_IMAGE_bank i)) = 1))
    ∧ (∃ (s : State), (s.sec.boot.running = true) ∧ (s.sec.boot.trial = true))
    ∧ (∃ (s : State), (s.sec.boot.running = false ∨ s.sec.boot.trial = false))
    ∧ (∃ (s : State), (s.sec.boot.restart = true) ∧ (s.fallbackOver = true))
    ∧ (∃ (s : State), (s.sec.boot.restart = false ∨ s.fallbackOver = false))
    ∧ (∃ (i : ℕ) (c : ℕ) (v : ℕ) (s : State), (s.rollback c < v))
    ∧ (∃ (i : ℕ) (c : ℕ) (v : ℕ) (s : State), (v ≤ s.rollback c))
    ∧ (∃ (i : ℕ) (c : ℕ) (v : ℕ) (s : State), (s.bankState i (s.get (F.ISL_IMAGE_bank i)) ≠ 1))
    ∧ (∃ (i : ℕ) (c : ℕ) (v : ℕ) (s : State), (s.bankState i (s.get (F.ISL_IMAGE_bank i)) = 1)) :=
  ⟨⟨wAwait, by decide +kernel⟩,
    ⟨wTuTrial, by decide +kernel⟩,
    ⟨wRun, by decide +kernel⟩,
    ⟨wAwait, by decide +kernel⟩,
    ⟨wTuTrial, by decide +kernel⟩,
    ⟨wAwait, by decide +kernel⟩,
    ⟨(wRestart true), by decide +kernel⟩,
    ⟨(wRestart false), by decide +kernel⟩,
    ⟨0, 3, 5, wTuTrial, by decide +kernel⟩,
    ⟨0, 3, 0, wTuTrial, by decide +kernel⟩,
    ⟨0, 3, 0, (wBtBk 2 1), by decide +kernel⟩,
    ⟨0, 3, 0, wTuTrial, by decide +kernel⟩⟩

theorem test_meets_TrialAndUpdate_2 :
    (∃ (acc : Sys2Proof.Acc) (s : State) (s2 : State) (w : Word), (s.written pgSEC 148 acc = some (s2, w)) ∧ (BitVec.getLsbD w 0 = false))
    ∧ (∃ (acc : Sys2Proof.Acc) (s : State) (s2 : State) (w : Word) (c : ℕ), (s.written pgSEC 148 acc = some (s2, w)) ∧ (BitVec.getLsbD w 0 = true) ∧ (s2.updateNo = some c))
    ∧ (∃ (acc : Sys2Proof.Acc) (s : State) (s2 : State) (w : Word), (s.written pgSEC 148 acc = some (s2, w)) ∧ (BitVec.getLsbD w 0 = true) ∧ (s2.updateNo = none))
    ∧ (∃ (cause : ℕ) (s : State), (s.sec.boot.trial = true ∨ s.get F.SEC_UPDATE_CMD_state = 1 ∨ s.get F.SEC_UPDATE_CMD_state = 2))
    ∧ (∃ (cause : ℕ) (s : State), (s.sec.boot.trial = false) ∧ (¬(s.get F.SEC_UPDATE_CMD_state = 1 ∨ s.get F.SEC_UPDATE_CMD_state = 2)) ∧ (∃ i < 2, s.islUp i = false ∨ s.get (F.ISL_STATE_state i) ≠ 2))
    ∧ (∃ (cause : ℕ) (s : State), (s.sec.boot.trial = false) ∧ (¬(s.get F.SEC_UPDATE_CMD_state = 1 ∨ s.get F.SEC_UPDATE_CMD_state = 2)) ∧ (¬∃ i < 2, s.islUp i = false ∨ s.get (F.ISL_STATE_state i) ≠ 2))
    ∧ (∃ (s : State), (s.sec.update = none))
    ∧ (∃ (s : State) (set : List (List Byte)), (s.sec.update = some set) ∧ (¬(s.islUp 0 = true ∧ s.islUp 1 = true)))
    ∧ (∃ (s : State) (set : List (List Byte)), (s.sec.update = some set) ∧ (s.islUp 0 = true ∧ s.islUp 1 = true))
    ∧ (∃ (i : ℕ) (set : List (List Byte)) (s : State), (∀ k < 5, (set.getD k []).length ≤ 8192 + imageMax (k + 1)))
    ∧ (∃ (i : ℕ) (set : List (List Byte)) (s : State) (k : ℕ), (∀ k < 5, (set.getD k []).length ≤ 8192 + imageMax (k + 1)) ∧ (k < 5) ∧ (set.getD k [] ≠ []))
    ∧ (∃ (i : ℕ) (set : List (List Byte)) (s : State) (k : ℕ), (∀ k < 5, (set.getD k []).length ≤ 8192 + imageMax (k + 1)) ∧ (k < 5) ∧ (set.getD k [] = [])) :=
  ⟨⟨(wAcc 2), wUpdOk, (wSecWr wUpdOk 0x94 2).1, (wSecWr wUpdOk 0x94 2).2, by decide +kernel⟩,
    ⟨(wAcc 1), wTuTrial, (wSecWr wTuTrial 0x94 1).1, (wSecWr wTuTrial 0x94 1).2, 4, by decide +kernel⟩,
    ⟨(wAcc 1), wUpdAddr, (wSecWr wUpdAddr 0x94 1).1, (wSecWr wUpdAddr 0x94 1).2, by decide +kernel⟩,
    ⟨1, wTuTrial, by decide +kernel⟩,
    ⟨1, wRun, by decide +kernel⟩,
    ⟨1, wUpdOk, by decide +kernel⟩,
    ⟨wRun, by decide +kernel⟩,
    ⟨{ wTuUpd with isl := [(0, { running := true })] }, wImgSet, by decide +kernel⟩,
    ⟨wTuUpd, wImgSet, by decide +kernel⟩,
    ⟨0, wImgSet, wTuUpd, by decide +kernel⟩,
    ⟨0, wImgSet, wTuUpd, 1, by decide +kernel⟩,
    ⟨0, [], wTuUpd, 1, by decide +kernel⟩⟩

theorem test_meets_TrialAndUpdate_3 :
    (∃ (acc : Sys2Proof.Acc) (s : State) (s2 : State) (w : Word), (s.written pgSEC 264 acc = some (s2, w)) ∧ (¬(acc.req = Requester.mgmt ∧ BitVec.getLsbD w 31 = true)))
    ∧ (∃ (acc : Sys2Proof.Acc) (s : State) (s2 : State) (w : Word), (s.written pgSEC 264 acc = some (s2, w)) ∧ (acc.req = Requester.mgmt ∧ BitVec.getLsbD w 31 = true) ∧ (s2.sec.trust.owner ≠ none))
    ∧ (∃ (acc : Sys2Proof.Acc) (s : State) (s2 : State) (w : Word), (s.written pgSEC 264 acc = some (s2, w)) ∧ (acc.req = Requester.mgmt ∧ BitVec.getLsbD w 31 = true) ∧ (s2.sec.trust.owner = none))
    ∧ (∃ (acc : Sys2Proof.Acc) (s : State) (s2 : State) (w : Word), (s.written pgSEC 268 acc = some (s2, w)) ∧ (¬(acc.req = Requester.mgmt ∧ BitVec.getLsbD w 31 = true)))
    ∧ (∃ (acc : Sys2Proof.Acc) (s : State) (s2 : State) (w : Word), (s.written pgSEC 268 acc = some (s2, w)) ∧ (acc.req = Requester.mgmt ∧ BitVec.getLsbD w 31 = true) ∧ (¬((F.SEC_ROLLBACK_CMD_counter.ext w = 5 ∨ 16 ≤ F.SEC_ROLLBACK_CMD_counter.ext w) ∧ s2.rollback (F.SEC_ROLLBACK_CMD_counter.ext w) ≤ F.SEC_ROLLBACK_CMD_value.ext w)))
    ∧ (∃ (acc : Sys2Proof.Acc) (s : State) (s2 : State) (w : Word), (s.written pgSEC 268 acc = some (s2, w)) ∧ (acc.req = Requester.mgmt ∧ BitVec.getLsbD w 31 = true) ∧ ((F.SEC_ROLLBACK_CMD_counter.ext w = 5 ∨ 16 ≤ F.SEC_ROLLBACK_CMD_counter.ext w) ∧ s2.rollback (F.SEC_ROLLBACK_CMD_counter.ext w) ≤ F.SEC_ROLLBACK_CMD_value.ext w))
    ∧ (∃ (acc : Sys2Proof.Acc) (s : State) (s2 : State) (w : Word) (x : ℕ), (s.written pgSEC 268 acc = some (s2, w)) ∧ (acc.req = Requester.mgmt ∧ BitVec.getLsbD w 31 = true) ∧ ((F.SEC_ROLLBACK_CMD_counter.ext w = 5 ∨ 16 ≤ F.SEC_ROLLBACK_CMD_counter.ext w) ∧ s2.rollback (F.SEC_ROLLBACK_CMD_counter.ext w) ≤ F.SEC_ROLLBACK_CMD_value.ext w) ∧ (x ≠ F.SEC_ROLLBACK_CMD_counter.ext w))
    ∧ (∃ (acc : Sys2Proof.Acc) (s : State) (s2 : State) (w : Word), (s.written pgSEC 280 acc = some (s2, w)) ∧ (¬(acc.req = Requester.mgmt ∧ BitVec.getLsbD w 31 = true ∧ 11 ≤ F.SEC_EXTEND_CMD_slot.ext w)))
    ∧ (∃ (acc : Sys2Proof.Acc) (s : State) (s2 : State) (w : Word), (s.written pgSEC 280 acc = some (s2, w)) ∧ (acc.req = Requester.mgmt ∧ BitVec.getLsbD w 31 = true ∧ 11 ≤ F.SEC_EXTEND_CMD_slot.ext w)) :=
  ⟨⟨(wMgmt 0), (wSecX wUpdOk), (wSecMg (wSecX wUpdOk) 0x108 0).1, (wSecMg (wSecX wUpdOk) 0x108 0).2, by decide +kernel⟩,
    ⟨(wMgmt 0x80000000), (wSecX wOwned), (wSecMg (wSecX wOwned) 0x108 0x80000000).1, (wSecMg (wSecX wOwned) 0x108 0x80000000).2, by decide +kernel⟩,
    ⟨(wMgmt 0x80000000), (wSecX wUpdOk), (wSecMg (wSecX wUpdOk) 0x108 0x80000000).1, (wSecMg (wSecX wUpdOk) 0x108 0x80000000).2, by decide +kernel⟩,
    ⟨(wMgmt 0x304), (wSecX wOwned), (wSecMg (wSecX wOwned) 0x10C 0x304).1, (wSecMg (wSecX wOwned) 0x10C 0x304).2, by decide +kernel⟩,
    ⟨(wMgmt 0x80000304), (wSecX wOwned), (wSecMg (wSecX wOwned) 0x10C 0x80000304).1, (wSecMg (wSecX wOwned) 0x10C 0x80000304).2, by decide +kernel⟩,
    ⟨(wMgmt 0x80000305), (wSecX wOwned), (wSecMg (wSecX wOwned) 0x10C 0x80000305).1, (wSecMg (wSecX wOwned) 0x10C 0x80000305).2, by decide +kernel⟩,
    ⟨(wMgmt 0x80000305), (wSecX wOwned), (wSecMg (wSecX wOwned) 0x10C 0x80000305).1, (wSecMg (wSecX wOwned) 0x10C 0x80000305).2, 6, by decide +kernel⟩,
    ⟨(wMgmt 0x80000003), (wSecX wOwned), (wSecMg (wSecX wOwned) 0x118 0x80000003).1, (wSecMg (wSecX wOwned) 0x118 0x80000003).2, by decide +kernel⟩,
    ⟨(wMgmt 0x8000000C), (wSecX wOwned), (wSecMg (wSecX wOwned) 0x118 0x8000000C).1, (wSecMg (wSecX wOwned) 0x118 0x8000000C).2, by decide +kernel⟩⟩

theorem test_meets_AttestAndDebug :
    (∃ (acc : Sys2Proof.Acc) (s : State) (s2 : State) (w : Word) (c : Instr), (s.written pgSEC 56 acc = some (s2, w)) ∧ (c ∈ [Instr.attest acc, Instr.cert acc]))
    ∧ (∃ (s : State), (s.get F.SEC_ATTEST_CMD_busy = 1))
    ∧ (∃ (s : State), (s.get F.SEC_ATTEST_CMD_busy = 0))
    ∧ (∃ (s : State), (s.sec.attest = none))
    ∧ (∃ (s : State) (r : AttestRun), (s.sec.attest = some r))
    ∧ (∃ (s : State) (r : AttestRun), (s.sec.attest = some r) ∧ (s.plainStore r.addr r.data.length = true))
    ∧ (∃ (acc : Sys2Proof.Acc) (s : State) (s2 : State) (w : Word) (c : Instr), (s.written pgSEC 156 acc = some (s2, w)) ∧ (c ∈ [Instr.challenge acc, Instr.submit acc, Instr.lock acc])) :=
  ⟨⟨(wAcc 3), (wSecB 0), (wSecWr (wSecB 0) 0x38 3).1, (wSecWr (wSecB 0) 0x38 3).2, (Instr.attest (wAcc 3)), by decide +kernel⟩,
    ⟨(wSecB 1), by decide +kernel⟩,
    ⟨(wSecB 0), by decide +kernel⟩,
    ⟨(wSecB 0), by decide +kernel⟩,
    ⟨wAttRun, ⟨hubBase + 64, [1#8, 2#8, 3#8]⟩, by decide +kernel⟩,
    ⟨wAttRun, ⟨hubBase + 64, [1#8, 2#8, 3#8]⟩, by decide +kernel⟩,
    ⟨(wAcc 7), (wSecB 0), (wSecWr (wSecB 0) 0x9C 7).1, (wSecWr (wSecB 0) 0x9C 7).2, (Instr.submit (wAcc 7)), by decide +kernel⟩⟩

theorem test_meets_FarmBoundariesAndService_1 :
    (∃ (acc : Sys2Proof.Acc) (s : State) (s2 : State) (w : Word) (c : Instr), (s.written pgFARM 32 acc = some (s2, w)) ∧ (c ∈ [Instr.farmContinue acc, Instr.save acc, Instr.restore acc, Instr.arm acc, Instr.disarm acc]))
    ∧ (∃ (cause : ℕ) (s : State), (s.addr F.JRN_REPLAY_POS_LO_position < s.addr F.FARM_BOUNDARY_LO_position))
    ∧ (∃ (cause : ℕ) (s : State), (¬s.addr F.JRN_REPLAY_POS_LO_position < s.addr F.FARM_BOUNDARY_LO_position))
    ∧ (∃ (s : State), (¬(s.get F.JRN_STATUS_state = 3 ∧ s.boundaryNext = true ∧ ((∀ j ∈ s.jobs, j.released = none) ∧ s.fus.pending = [] ∧ s.plan.queries = [] ∧ s.plan.loading = none ∧ s.coll.building = none ∧ s.xgs.go = [] ∧ s.xgs.said = [] ∧ s.xgs.active = [] ∧ (s.get F.JRN_CTRL_domain = 1 → ∀ e ∈ s.jrn.live, e.2 ≤ tabGet s.jrn.taken e.1 0)) ∧ (s.get F.FARM_STATUS_state = 2 ∨ s.get F.FARM_STATUS_state = 3))))
    ∧ (∃ (s : State), (s.get F.JRN_STATUS_state = 3 ∧ s.boundaryNext = true ∧ ((∀ j ∈ s.jobs, j.released = none) ∧ s.fus.pending = [] ∧ s.plan.queries = [] ∧ s.plan.loading = none ∧ s.coll.building = none ∧ s.xgs.go = [] ∧ s.xgs.said = [] ∧ s.xgs.active = [] ∧ (s.get F.JRN_CTRL_domain = 1 → ∀ e ∈ s.jrn.live, e.2 ≤ tabGet s.jrn.taken e.1 0)) ∧ (s.get F.FARM_STATUS_state = 2 ∨ s.get F.FARM_STATUS_state = 3)))
    ∧ (∃ (s : State), (¬(s.get F.JRN_STATUS_state = 3 ∧ s.boundaryNext = true ∧ s.get F.FARM_STATUS_state ≠ 4)))
    ∧ (∃ (s : State), (s.get F.JRN_STATUS_state = 3 ∧ s.boundaryNext = true ∧ s.get F.FARM_STATUS_state ≠ 4))
    ∧ (∃ (s : State), (¬(s.get F.FARM_STRAGGLE_MS_ms ≠ 0 ∧ s.farm.began = true ∧ s.farm.toldSlow = false ∧ s.addr F.JRN_REPLAY_POS_LO_position < s.addr F.FARM_STRAGGLE_LO_position)))
    ∧ (∃ (s : State), (s.get F.FARM_STRAGGLE_MS_ms ≠ 0 ∧ s.farm.began = true ∧ s.farm.toldSlow = false ∧ s.addr F.JRN_REPLAY_POS_LO_position < s.addr F.FARM_STRAGGLE_LO_position))
    ∧ (∃ (kind : ℕ) (link : ℕ) (s : State), (¬s.get F.FARM_CTRL_telem_en = 1))
    ∧ (∃ (kind : ℕ) (link : ℕ) (s : State), (s.get F.FARM_CTRL_telem_en = 1) ∧ ((s.queue (512 + s.get F.FARM_TELEM_queue)).hasRoom = true))
    ∧ (∃ (kind : ℕ) (link : ℕ) (s : State), (s.get F.FARM_CTRL_telem_en = 1) ∧ ((s.queue (512 + s.get F.FARM_TELEM_queue)).hasRoom = false)) :=
  ⟨⟨(wAcc 0x37), (wFarm 3 1 10), (wFmWr (wFarm 3 1 10) 0x20 0x37).1, (wFmWr (wFarm 3 1 10) 0x20 0x37).2, (.arm (wAcc 0x37)), by decide +kernel⟩,
    ⟨3, (wFarm 4 1 10), by decide +kernel⟩,
    ⟨3, (wFarm 2 0 9), by decide +kernel⟩,
    ⟨(wFarm 2 1 11), by decide +kernel⟩,
    ⟨(wFarm 3 1 10), by decide +kernel⟩,
    ⟨(wFarm 4 1 10), by decide +kernel⟩,
    ⟨(wFarm 2 1 10), by decide +kernel⟩,
    ⟨(wSlow false), by decide +kernel⟩,
    ⟨(wSlow true), by decide +kernel⟩,
    ⟨1, 5, (wTelem 0 4), by decide +kernel⟩,
    ⟨1, 5, { wTelem 1 3 with regs := (wTelem 1 3).regs.filter fun e => decide (e.1 / 512 ≠ 96) }, by decide +kernel⟩,
    ⟨1, 5, (wTelem 1 1), by decide +kernel⟩⟩

theorem test_meets_FarmBoundariesAndService_2 :
    (∃ (acc : Sys2Proof.Acc) (s : State) (s2 : State) (w : Word), (s.written pgFARM 192 acc = some (s2, w)) ∧ (BitVec.getLsbD w 31 = false))
    ∧ (∃ (acc : Sys2Proof.Acc) (s : State) (s2 : State) (w : Word), (s.written pgFARM 192 acc = some (s2, w)) ∧ (BitVec.getLsbD w 31 = true) ∧ (¬(s2.get F.XGS_CTRL_enable = 1 ∧ s2.get F.XGS_DOMAIN_twin ≠ 1)))
    ∧ (∃ (acc : Sys2Proof.Acc) (s : State) (s2 : State) (w : Word), (s.written pgFARM 192 acc = some (s2, w)) ∧ (BitVec.getLsbD w 31 = true) ∧ (s2.get F.XGS_CTRL_enable = 1 ∧ s2.get F.XGS_DOMAIN_twin ≠ 1))
    ∧ (∃ (ok : Bool) (s : State), (s.farm.taking = false))
    ∧ (∃ (ok : Bool) (s : State), (s.farm.taking = true))
    ∧ (∃ (acc : Sys2Proof.Acc) (s : State) (s2 : State) (w : Word), (s.written pgFARM 208 acc = some (s2, w)) ∧ (BitVec.getLsbD w 31 = false))
    ∧ (∃ (acc : Sys2Proof.Acc) (s : State) (s2 : State) (w : Word), (s.written pgFARM 208 acc = some (s2, w)) ∧ (BitVec.getLsbD w 31 = true) ∧ (¬(s2.get (F.XL_CTRL_enable (s2.get F.FARM_RELINK_link)) = 1 ∧ s2.relinking (s2.get F.FARM_RELINK_link) = false)))
    ∧ (∃ (acc : Sys2Proof.Acc) (s : State) (s2 : State) (w : Word), (s.written pgFARM 208 acc = some (s2, w)) ∧ (BitVec.getLsbD w 31 = true) ∧ (s2.get (F.XL_CTRL_enable (s2.get F.FARM_RELINK_link)) = 1 ∧ s2.relinking (s2.get F.FARM_RELINK_link) = false))
    ∧ (∃ (l : Fin 8) (serial : ℕ) (old : Option XPeer) (s : State), (s.relinking ↑l = false))
    ∧ (∃ (l : Fin 8) (serial : ℕ) (old : Option XPeer) (s : State), (s.relinking ↑l = true)) :=
  ⟨⟨(wAcc 6), (wFmTake 0 0), (wFmWr (wFmTake 0 0) 0xC0 6).1, (wFmWr (wFmTake 0 0) 0xC0 6).2, by decide +kernel⟩,
    ⟨(wAcc 0x80000006), (wFmTake 0 0), (wFmWr (wFmTake 0 0) 0xC0 0x80000006).1, (wFmWr (wFmTake 0 0) 0xC0 0x80000006).2, by decide +kernel⟩,
    ⟨(wAcc 0x80000006), (wFmTake 1 0), (wFmWr (wFmTake 1 0) 0xC0 0x80000006).1, (wFmWr (wFmTake 1 0) 0xC0 0x80000006).2, by decide +kernel⟩,
    ⟨true, (wFmTake 1 0), by decide +kernel⟩,
    ⟨false, { wFmTake 1 0 with farm := { taking := true } }, by decide +kernel⟩,
    ⟨(wAcc 2), (wRelk 0 []), (wFmWr (wRelk 0 []) 0xD0 2).1, (wFmWr (wRelk 0 []) 0xD0 2).2, by decide +kernel⟩,
    ⟨(wAcc 0x80000002), (wRelk 0 []), (wFmWr (wRelk 0 []) 0xD0 0x80000002).1, (wFmWr (wRelk 0 []) 0xD0 0x80000002).2, by decide +kernel⟩,
    ⟨(wAcc 0x80000002), (wRelk 1 []), (wFmWr (wRelk 1 []) 0xD0 0x80000002).1, (wFmWr (wRelk 1 []) 0xD0 0x80000002).2, by decide +kernel⟩,
    ⟨3, 77, none, (wRelk 1 [(2, 4)]), by decide +kernel⟩,
    ⟨2, 77, none, (wRelk 1 [(2, 4)]), by decide +kernel⟩⟩

theorem test_meets_FarmImages_1 :
    (∃ (s : State), (s.get F.FARM_STATUS_state ≠ 4))
    ∧ (∃ (s : State), (s.get F.FARM_STATUS_state = 4) ∧ (¬(s.peekNat (s.ckptAt + 12) 4 ≤ 256 ∧ s.ckptRegionsOk (ckptRegions (min (s.peekNat (s.ckptAt + 12) 4) 256) (s.bytes (s.ckptAt + 4096) 4096)) = true)))
    ∧ (∃ (s : State), (s.get F.FARM_STATUS_state = 4) ∧ (s.peekNat (s.ckptAt + 12) 4 ≤ 256 ∧ s.ckptRegionsOk (ckptRegions (min (s.peekNat (s.ckptAt + 12) 4) 256) (s.bytes (s.ckptAt + 4096) 4096)) = true))
    ∧ (∃ (rs : List (ℕ × ℕ)) (s : State), (rs.length ≤ 256))
    ∧ (∃ (rs : List (ℕ × ℕ)) (s : State) (j : ℕ), (rs.length ≤ 256) ∧ (j < 256))
    ∧ (∃ (rs : List (ℕ × ℕ)) (s : State) (o : ℕ), (rs.length ≤ 256) ∧ (o < 4096))
    ∧ (∃ (rs : List (ℕ × ℕ)) (s : State) (j : ℕ), (rs.length ≤ 256) ∧ (j < 128))
    ∧ (∃ (rs : List (ℕ × ℕ)) (s : State) (j : ℕ), (rs.length ≤ 256) ∧ (j < 64))
    ∧ (∃ (rs : List (ℕ × ℕ)) (s : State) (j : ℕ), (rs.length ≤ 256) ∧ (j < 2))
    ∧ (∃ (rs : List (ℕ × ℕ)) (s : State) (q : ℕ), (rs.length ≤ 256) ∧ (q < 1048576))
    ∧ (∃ (s : State) (b : List Byte), (s.farm.save = some b))
    ∧ (∃ (s : State), (s.farm.save = none)) :=
  ⟨⟨wCkpt 2 0, by decide +kernel⟩,
    ⟨wCkpt 4 3, by decide +kernel⟩,
    ⟨wCkpt 4 0, by decide +kernel⟩,
    ⟨[(dramBase, 64)], wRestored, by decide +kernel⟩,
    ⟨[(dramBase, 64)], wRestored, 3, by decide +kernel⟩,
    ⟨[(dramBase, 64)], wRestored, 3, by decide +kernel⟩,
    ⟨[(dramBase, 64)], wRestored, 3, by decide +kernel⟩,
    ⟨[(dramBase, 64)], wRestored, 3, by decide +kernel⟩,
    ⟨[(dramBase, 64)], wRestored, 1, by decide +kernel⟩,
    ⟨[(dramBase, 64)], wRestored, 0x400, by decide +kernel⟩,
    ⟨wFmSaved, [1#8, 2#8], by decide +kernel⟩,
    ⟨wRestored, by decide +kernel⟩⟩

theorem test_meets_FarmImages_2 :
    (∃ (s : State) (b : List Byte), (s.farm.save = some b) ∧ (s.plainStore s.ckptAt b.length = true))
    ∧ (∃ (s : State) (b : List Byte), (s.farm.restore = some b))
    ∧ (∃ (s : State), (s.farm.restore = none))
    ∧ (∃ (s : State) (b : List Byte), (s.farm.restore = some b))
    ∧ (∃ (b : List Byte) (s : State) (o : ℕ), (o < 4096))
    ∧ (∃ (b : List Byte) (s : State) (n : ℕ), (n < 128))
    ∧ (∃ (b : List Byte) (s : State) (k : ℕ), (k < 64))
    ∧ (∃ (b : List Byte) (s : State) (k : ℕ), (k < 2))
    ∧ (∃ (s : State) (k : ℕ), (k < 6)) :=
  ⟨⟨wFmSaved, [1#8, 2#8], by decide +kernel⟩,
    ⟨wRestored, [1#8], by decide +kernel⟩,
    ⟨wFmSaved, by decide +kernel⟩,
    ⟨wRestored, [1#8], by decide +kernel⟩,
    ⟨[1#8], wRestored, 7, by decide +kernel⟩,
    ⟨[1#8], wRestored, 7, by decide +kernel⟩,
    ⟨[1#8], wRestored, 7, by decide +kernel⟩,
    ⟨[1#8], wRestored, 1, by decide +kernel⟩,
    ⟨wRestored, 3, by decide +kernel⟩⟩

theorem test_meets_StepRunsFrontCommand :
    (∃ (s : State), (s.pending = []))
    ∧ (∃ (n : ℕ) (w : Window) (s : State), (s.pending = []) ∧ (tabFind s.dike.windows n = some w)) :=
  ⟨⟨State.reset, by decide +kernel⟩,
    ⟨2, wWindow, wWindows, by decide +kernel⟩⟩

theorem test_meets_StepsKeepMemoryForm : ∃ (s : State) (t : State), (s.memOk) ∧ (step s = Host.Outcome.next t) :=
  ⟨State.reset, State.reset.tick, ⟨by unfold State.memOk; decide +kernel, by rfl⟩⟩

theorem test_meets_ResetState :
    (∃ (k : ℕ), (k < 16))
    ∧ (∃ (k : ℕ), (k < 96))
    ∧ (∃ (p : ℕ), (p < 232) ∧ ((regAt p 0).isSome = true))
    ∧ (∃ (p : ℕ), (p < 232) ∧ ((regAt p 0).isSome = true) ∧ (p ≠ 57) ∧ (p ≠ 58))
    ∧ (∃ (d : ℕ), (d < 4)) :=
  ⟨⟨3, by decide +kernel⟩,
    ⟨5, by decide +kernel⟩,
    ⟨7, by decide +kernel⟩,
    ⟨7, by decide +kernel⟩,
    ⟨2, by decide +kernel⟩⟩

end Sys2Proof.Tests
end

section
/-! SUPPORT. Reads of register fields after writes, frames of the shared operations, writes that come to their register. -/

namespace Sys2Proof.Machine

/-! ### Fields by test -/

/-- `Fld.apart` as a test, so that it can be decided of two named fields. -/
def Fld.apartTest (f g : Fld) : Bool :=
  regKey f.page f.off != regKey g.page g.off || (f.page == g.page && f.off == g.off && f.mask &&& g.mask == 0#32)

theorem Fld.apart_of_test {f g : Fld} (h : f.apartTest g = true) : f.apart g := by
  simpa [Fld.apartTest, Fld.apart, and_assoc] using h

/-- A named field written reads back. -/
theorem State.get_put_self (s : State) (f : Fld) (v : Nat) (hf : f.lo ≤ f.hi ∧ f.hi < 32) : (s.put f v).get f = v % f.size :=
  s.get_put_same f hf v

/-- A named field written leaves every named field apart from it. -/
theorem State.get_put_other (s : State) {f g : Fld} (v : Nat) (h : f.apartTest g = true) : (s.put f v).get g = s.get g :=
  s.get_put_apart (Fld.apart_of_test h) v

/-- An event leaves every named field but its status bit and the pending bits of PCIE. -/
theorem State.get_raise_other (s : State) {p b : Nat} {g : Fld} (h : (Fld.mk p 0x10 b b).apartTest g = true)
    (hm : F.PCIE_MSI_PEND_pending.apartTest g = true) : (s.raise p b).get g = s.get g :=
  s.get_raise (Fld.apart_of_test h) (Fld.apart_of_test hm)

theorem State.get_raiseIf (s : State) {p b : Nat} {g : Fld} (c : Bool) (h : (Fld.mk p 0x10 b b).apart g)
    (hm : F.PCIE_MSI_PEND_pending.apart g) : (s.raiseIf c p b).get g = s.get g := by
  unfold State.raiseIf
  split
  · exact s.get_raise h hm
  · rfl

theorem State.get_raiseIf_other (s : State) {p b : Nat} {g : Fld} (c : Bool) (h : (Fld.mk p 0x10 b b).apartTest g = true)
    (hm : F.PCIE_MSI_PEND_pending.apartTest g = true) : (s.raiseIf c p b).get g = s.get g :=
  s.get_raiseIf c (Fld.apart_of_test h) (Fld.apart_of_test hm)

/-- An event leaves every status bit that was set. -/
theorem State.eventSet_raise_of_eventSet {s : State} {p b q c : Nat} (h : s.eventSet q c = true) (hb : b < 32) (hc : c < 32) :
    (s.raise p b).eventSet q c = true := by
  by_cases he : p = q ∧ b = c
  · rw [← he.1, ← he.2]
    exact s.eventSet_raise p b hb
  · have ha : (Fld.mk p 0x10 b b).apart ⟨q, 0x10, c, c⟩ := by
      by_cases hp : p = q
      · exact Fld.apart_bits ⟨le_rfl, hb⟩ ⟨le_rfl, hc⟩ hp rfl (by simp only; omega)
      · exact Fld.apart_key (by simp only [regKey]; omega)
    have hm : F.PCIE_MSI_PEND_pending.apart ⟨q, 0x10, c, c⟩ := Fld.apart_key (by simp only [regKey]; omega)
    simpa only [State.eventSet, State.flag, s.get_raise ha hm] using h

theorem State.eventSet_raiseIf_of_eventSet {s : State} {p b q c : Nat} (h : s.eventSet q c = true) (hb : b < 32) (hc : c < 32)
    (on : Bool) : (s.raiseIf on p b).eventSet q c = true := by
  unfold State.raiseIf
  split
  · exact State.eventSet_raise_of_eventSet h hb hc
  · exact h

/-- A whole register as a field. -/
theorem State.get_wholeReg (s : State) (p o : Nat) : s.get (wholeReg p o) = (s.regWord p o).toNat := by
  have hm : (wholeReg p o).mask = BitVec.allOnes 32 := by
    simp only [wholeReg, Fld.mask]
    decide
  rw [State.get, Fld.ext, hm, BitVec.and_allOnes]
  exact congrArg BitVec.toNat (BitVec.ushiftRight_zero _)

/-! ### Folds of writes -/

theorem FieldsBut.foldl {ι : Type} {fs : List Fld} {s t : State} (h : FieldsBut fs s t) (op : State → ι → State) (l : List ι)
    (hop : ∀ u, FieldsBut fs s u → ∀ i ∈ l, FieldsBut fs s (op u i)) : FieldsBut fs s (l.foldl op t) :=
  List.foldlRecOn l op h hop

/-- One value written to a row of fields apart from each other: each reads back. -/
theorem State.get_foldl_put (f : Nat → Fld) (v : Nat) (hf : ∀ i, (f i).fits) (ha : ∀ i j, i ≠ j → (f i).apart (f j)) (s : State)
    (n : Nat) : ∀ k < n, ((List.range n).foldl (fun s i => s.put (f i) v) s).get (f k) = v % (f k).size := by
  induction n with
  | zero => intro k hk; omega
  | succ n ih =>
    intro k hk
    rw [List.range_succ, List.foldl_append, List.foldl_cons, List.foldl_nil]
    by_cases h : k = n
    · rw [h, State.get_put_same _ _ (hf n)]
    · rw [State.get_put_apart _ (ha n k (Ne.symm h)), ih k (by omega)]

/-- One word written to a row of registers: each reads back. -/
theorem State.regWord_foldl_putWord (p o : Nat) (w : Word) (s : State) (n : Nat) :
    ∀ k < n, ((List.range n).foldl (fun s i => s.putWord p (o + 4 * i) w) s).regWord p (o + 4 * k) = w := by
  induction n with
  | zero => intro k hk; omega
  | succ n ih =>
    intro k hk
    rw [List.range_succ, List.foldl_append, List.foldl_cons, List.foldl_nil]
    by_cases h : k = n
    · rw [h, State.regWord_putWord_same]
    · rw [State.regWord_putWord_ne _ _ _ _ _ _ (by simp only [regKey]; omega), ih k (by omega)]

/-! ### What changes nothing but registers and the events at the collector -/

/-- From `s` to `t` nothing changed but registers and the events at the collector. -/
structure RegsOnly (s t : State) : Prop where
  frame : { t with regs := s.regs, flt := s.flt } = s

theorem RegsOnly.refl (s : State) : RegsOnly s s := ⟨rfl⟩

theorem RegsOnly.trans {s t u : State} (h : RegsOnly s t) (k : RegsOnly t u) : RegsOnly s u := by
  refine ⟨?_⟩
  calc { u with regs := s.regs, flt := s.flt }
      = { ({ u with regs := t.regs, flt := t.flt } : State) with regs := s.regs, flt := s.flt } := rfl
    _ = { t with regs := s.regs, flt := s.flt } := by rw [k.frame]
    _ = s := h.frame

theorem RegsOnly.put {s t : State} (h : RegsOnly s t) (f : Fld) (v : Nat) : RegsOnly s (t.put f v) := h.trans ⟨rfl⟩

theorem RegsOnly.putWord {s t : State} (h : RegsOnly s t) (p o : Nat) (w : Word) : RegsOnly s (t.putWord p o w) := h.trans ⟨rfl⟩

theorem RegsOnly.raise {s t : State} (h : RegsOnly s t) (p b : Nat) : RegsOnly s (t.raise p b) := h.trans ⟨t.raise_frame p b⟩

theorem RegsOnly.raiseIf {s t : State} (h : RegsOnly s t) (c : Bool) (p b : Nat) : RegsOnly s (t.raiseIf c p b) := by
  unfold State.raiseIf
  split
  · exact h.raise p b
  · exact h

theorem RegsOnly.foldl {ι : Type} (op : State → ι → State) (hop : ∀ u i, RegsOnly u (op u i)) (l : List ι) (s : State) :
    RegsOnly s (l.foldl op s) :=
  List.foldlRecOn l op (RegsOnly.refl s) fun u hu i _ => hu.trans (hop u i)

/-! ### Commands of a control register -/

/-- A check that ends the write was not met where the write goes on. -/
theorem Gate.pass_of_ite {c : Prop} [Decidable c] {a s1 : State} {g : Gate} {ident : Nat}
    (h : (if c then .stop a else g) = .pass s1 ident) : ¬c ∧ g = .pass s1 ident := by
  split at h
  · cases h
  · exact ⟨‹_›, h⟩

/-- A write that passes the checks ends at a register of the page. -/
theorem State.regAt_of_gate_pass {s s1 : State} {page off ident : Nat} {acc : Acc} (h : s.gate page off acc = .pass s1 ident) :
    (regAt page ident).isSome = true := by
  unfold State.gate at h
  iterate 4 obtain ⟨-, h⟩ := Gate.pass_of_ite h
  obtain ⟨hr, h⟩ := Gate.pass_of_ite h
  iterate 5 obtain ⟨-, h⟩ := Gate.pass_of_ite h
  obtain ⟨-, rfl⟩ := Gate.pass.inj h
  exact Option.isSome_iff_ne_none.2 (by simpa using hr)

/-- A write that comes to its register: what the bits that it offers command, on the state with its plain bits stored. -/
theorem State.command_of_written {s s2 : State} {page off : Nat} {acc : Acc} {w : Word} (h : s.written page off acc = some (s2, w))
    (act : State → Word → State) : s.command page off acc act = act s2 w := by
  unfold State.written at h
  unfold State.command
  cases hg : s.gate page off acc with
  | stop s1 => simp [hg] at h
  | pass s1 ident =>
    obtain ⟨d, hd⟩ := Option.isSome_iff_exists.1 (State.regAt_of_gate_pass hg)
    rw [hg] at h
    simp only [Option.ite_none_right_eq_some, Option.some.injEq, Prod.mk.injEq] at h
    obtain ⟨rfl, rfl, rfl⟩ := h
    simp [State.offered, hd]

end Sys2Proof.Machine
end

section
/-! SUPPORT. What a step does, and the state after reset (R43 to R45, R66, R67). -/

namespace Sys2Proof.Machine

/-! ### Steps -/

/-- A table whose values change by a function of the value alone. -/
theorem tabFind_mapValues {α : Type} (t : Tab α) (f : α → α) (k : Nat) :
    tabFind (t.map fun e => (e.1, f e.2)) k = (tabFind t k).map f := by
  induction t with
  | nil => rfl
  | cons e t ih =>
    obtain ⟨a, v⟩ := e
    simp only [List.map_cons, tabFind]
    split
    · rfl
    · exact ih

/-- With no command waiting a step is a microsecond (assumption 1). -/
theorem step_of_pending_nil {s : State} (h : s.pending = []) : step s = .next s.tick := by
  simp only [step, h]

/-- Settles O57: the front command runs on the rest of the queue; on an empty queue a step is `State.tick`. -/
theorem stepRunsFrontCommand : Obligations.StepRunsFrontCommand := by
  refine ⟨fun _ _ => rfl, fun s hs => ⟨s.tick, step_of_pending_nil hs, rfl, rfl, ?_, rfl, rfl⟩,
    fun n w s hs hw => ⟨s.tick, step_of_pending_nil hs, ?_⟩⟩
  · simp [State.tick, State.dikeRefill]
  · have hf := tabFind_mapValues s.dike.windows (fun v => { v with tokens := min (v.tokens + v.rate) (2 * v.burst) }) n
    rw [hw] at hf
    exact hf

/-! ### Reset values -/

/-- Nothing is listed in the register table after reset: every register reads its reset value. -/
theorem State.reset_regWord (p o : Nat) : State.reset.regWord p o = resetWord State.reset.fuse p o := by
  simp [State.regWord, State.cell, State.reset, RegCell.vote]

/-- The fuses reach no header register: its reset value is that of its row. -/
theorem resetWord_header (fz : Fuses) {p o : Nat} {d : RegDef} (ho : o < 0x20) (hd : regAt p o = some d) :
    resetWord fz p o = BitVec.ofNat 32 d.resetNat := by
  unfold resetWord
  split
  next hr => simp [regAt, hr] at hd
  next r hr =>
    split
    all_goals try omega
    rw [if_neg (by omega), hd]

/-- The header registers of a page of the directory (R43). -/
theorem regAt_header {p o : Nat} {r : PageRun} (hr : pageRun p = some r) (ho : o < 0x20) :
    regAt p o = (headerRegs r (p - r.first)).find? fun d => (d.at? o).isSome := by
  simp only [regAt, hr, if_pos ho]

/-- BLK_ID after reset: the type code, the number within the run and revision 1 (R43, R44). -/
theorem State.reset_blkId {p : Nat} {r : PageRun} (hr : pageRun p = some r) :
    State.reset.regWord p 0 = BitVec.ofNat 32 (65536 * r.type + 256 * (p - r.first) + 1) := by
  rw [State.reset_regWord, resetWord_header _ (by omega) (regAt_header hr (by omega))]
  simp [RegDef.resetNat, Nat.mul_comm]

/-- BLK_LEVEL after reset: basic level, nothing armed (R60, R61). -/
theorem State.reset_blkLevel {p : Nat} {r : PageRun} (hr : pageRun p = some r) : State.reset.regWord p 8 = 0#32 := by
  rw [State.reset_regWord, resetWord_header _ (by omega) (regAt_header hr (by omega))]
  rfl

/-- BLK_STATUS after reset: in reset (R67). -/
theorem State.reset_blkStatus {p : Nat} {r : PageRun} (hr : pageRun p = some r) : State.reset.regWord p 0xC = 2#32 := by
  rw [State.reset_regWord, resetWord_header _ (by omega) (regAt_header hr (by omega))]
  rfl

/-- BLK_IRQ_STATUS after reset: no event set (R64). -/
theorem State.reset_irqStatus {p : Nat} {r : PageRun} (hr : pageRun p = some r) : State.reset.regWord p 0x10 = 0#32 := by
  rw [State.reset_regWord, resetWord_header _ (by omega) (regAt_header hr (by omega))]
  rfl

/-- A page with a register is in the directory. -/
theorem pageRun_of_regAt {p o : Nat} (h : (regAt p o).isSome = true) : ∃ r, pageRun p = some r := by
  cases hr : pageRun p with
  | none => simp [regAt, hr] at h
  | some r => exact ⟨r, rfl⟩

/-- The run of the memory controllers (R44). -/
theorem pageRun_mc : ∀ k < 16, pageRun (64 + k) = some ⟨.mc, 64, 16, 0x40, 0xFF⟩ := by decide

/-- The run of the arrays (R44). -/
theorem pageRun_arr : ∀ k < 96, pageRun (128 + k) = some ⟨.arr, 128, 96, 0x80, 0xFF⟩ := by decide

/-- Settles O60: the tables of `State.reset` are empty, and the header registers read the values of the page directory. -/
theorem resetState : Obligations.ResetState := by
  refine ⟨rfl, rfl, rfl, rfl, rfl, ⟨?_, ?_, ?_, ?_, ?_⟩, ?_, ?_, ?_, ?_⟩
  · exact State.reset_blkId (p := 0) rfl
  · exact State.reset_blkId (p := 5) rfl
  · exact State.reset_blkId (p := 47) rfl
  · exact State.reset_blkId (p := 62) rfl
  · exact State.reset_blkId (p := 80) rfl
  · intro k hk
    rw [State.reset_blkId (pageRun_mc k hk)]
    exact congrArg _ (by simp only; omega)
  · intro k hk
    rw [State.reset_blkId (pageRun_arr k hk)]
    exact congrArg _ (by simp only; omega)
  · intro p _ hp
    obtain ⟨r, hr⟩ := pageRun_of_regAt hp
    refine ⟨?_, State.reset_irqStatus hr, fun _ _ => ?_⟩
    · simp [State.get, State.reset_blkLevel hr, Fld.ext]
    · simp [State.get, State.reset_blkStatus hr, Fld.ext, Fld.mask]
  · decide

end Sys2Proof.Machine
end

section
/-! SUPPORT. The XS slot: what a fault of it leaves (R33 to R35), and the steps of an admission (R27 to R29). -/

namespace Sys2Proof.Machine

/-! ### Frames by page -/

theorem PagesBut.refl (ps : List Nat) (fs : List Fld) (s : State) : PagesBut ps fs s s := fun _ _ _ => rfl

theorem PagesBut.trans {ps : List Nat} {fs : List Fld} {s t u : State} (h : PagesBut ps fs s t) (k : PagesBut ps fs t u) :
    PagesBut ps fs s u := fun g hp hg => (k g hp hg).trans (h g hp hg)

theorem PagesBut.of_regs {ps : List Nat} {fs : List Fld} {s t : State} (hr : t.regs = s.regs) (hf : t.fuse = s.fuse) :
    PagesBut ps fs s t := fun g _ _ => State.get_of_regs hr hf g

theorem PagesBut.put {ps : List Nat} {fs : List Fld} (s : State) {f : Fld} (hf : regKey f.page f.off / 512 ∈ ps) (v : Nat) :
    PagesBut ps fs s (s.put f v) :=
  fun _ hp _ => s.get_put_apart (Fld.apart_key fun he => hp (he ▸ hf)) v

theorem PagesBut.raise {ps : List Nat} {fs : List Fld} (s : State) {p : Nat} (hp : p ∈ ps) (hm : F.PCIE_MSI_PEND_pending ∈ fs)
    (b : Nat) : PagesBut ps fs s (s.raise p b) := by
  intro g hg hfs
  refine s.get_raise (Fld.apart_key fun he => hg ?_) (hfs _ hm)
  rw [← he]
  have hq : regKey p 0x10 / 512 = p := by simp only [regKey]; omega
  rwa [hq]

/-! ### Ingress when the slot faults (R217) -/

/-- From `s` to `t` nothing changed but the registers of ING, the pending bits of PCIE, the streams and the events at the collector. -/
def IngressOnly (s t : State) : Prop :=
  PagesBut [pgING] [F.PCIE_MSI_PEND_pending] s t ∧ { t with regs := s.regs, streams := s.streams, flt := s.flt } = s

theorem IngressOnly.refl (s : State) : IngressOnly s s := ⟨PagesBut.refl _ _ s, rfl⟩

theorem IngressOnly.trans {s t u : State} (h : IngressOnly s t) (k : IngressOnly t u) : IngressOnly s u := by
  refine ⟨h.1.trans k.1, ?_⟩
  calc { u with regs := s.regs, streams := s.streams, flt := s.flt }
      = { ({ u with regs := t.regs, streams := t.streams, flt := t.flt } : State) with
          regs := s.regs, streams := s.streams, flt := s.flt } := rfl
    _ = { t with regs := s.regs, streams := s.streams, flt := s.flt } := by rw [k.2]
    _ = s := h.2

theorem IngressOnly.foldl {ι : Type} (op : State → ι → State) (l : List ι) (hop : ∀ u, ∀ i ∈ l, IngressOnly u (op u i)) (s : State) :
    IngressOnly s (l.foldl op s) :=
  List.foldlRecOn l op (IngressOnly.refl s) fun u hu i hi => hu.trans (hop u i hi)

theorem IngressOnly.setStream (s : State) (n : Nat) (v : StreamSt) : IngressOnly s (s.setStream n v) :=
  ⟨PagesBut.of_regs rfl rfl, rfl⟩

theorem IngressOnly.modStream (s : State) (n : Nat) (f : StreamSt → StreamSt) : IngressOnly s (s.modStream n f) :=
  IngressOnly.setStream s n _

theorem IngressOnly.raise (s : State) (b : Nat) : IngressOnly s (s.raise pgING b) := by
  refine ⟨PagesBut.raise s (by simp) (by simp) b, ?_⟩
  exact congrArg (fun u : State => { u with streams := s.streams }) (s.raise_frame pgING b)

theorem IngressOnly.health (s : State) (n c : Nat) (d : Int) : IngressOnly s (s.health n c d) := by
  unfold State.health
  split
  · exact IngressOnly.refl s
  · exact IngressOnly.modStream s n _

theorem IngressOnly.dropItem (s : State) (n : Nat) : IngressOnly s (s.dropItem n) :=
  ((IngressOnly.modStream s n _).trans (IngressOnly.raise _ _)).trans (IngressOnly.health _ n _ _)

theorem IngressOnly.dropNumbered (s : State) (n : Nat) (r : IngRec) : IngressOnly s (s.dropNumbered n r) :=
  ((IngressOnly.modStream s n _).trans (IngressOnly.raise _ _)).trans (IngressOnly.health _ n _ _)

theorem IngressOnly.frameDrop (s : State) (n : Nat) : IngressOnly s (s.frameDrop n) := by
  unfold State.frameDrop
  split
  · exact (IngressOnly.modStream s n _).trans (IngressOnly.dropItem _ n)
  · exact IngressOnly.refl s

theorem IngressOnly.putStreamOn (s : State) {n : Nat} (hn : n < 118) (b : Bool) : IngressOnly s (s.putStreamOn n b) := by
  refine ⟨PagesBut.put s ?_ _, rfl⟩
  simp only [regKey, pgING, List.mem_singleton]
  omega

theorem IngressOnly.placeData {s s1 : State} {n len o : Nat} (h : s.placeData n len = some (o, s1)) : IngressOnly s s1 := by
  simp only [State.placeData, Option.map_eq_some_iff, Prod.mk.injEq] at h
  obtain ⟨-, -, -, rfl⟩ := h
  exact IngressOnly.setStream s n _

theorem IngressOnly.xsPoison (s : State) (n : Nat) : IngressOnly s (s.xsPoison n) := by
  refine IngressOnly.foldl _ _ (fun u r _ => ?_) s
  split
  · split
    · exact IngressOnly.dropNumbered u n r
    next o s1 hp => exact (IngressOnly.placeData hp).trans (IngressOnly.modStream s1 n _)
  · exact IngressOnly.refl u

/-- What ingress does at a fault of the slot stays within ingress. -/
theorem State.xsLost_ingressOnly (s : State) : IngressOnly s s.xsLost := by
  refine IngressOnly.foldl _ _ (fun u n hn => ?_) s
  have hn : n < 118 := List.mem_range.1 hn
  simp only []
  split
  · split
    · exact IngressOnly.xsPoison u n
    · exact ((((IngressOnly.xsPoison u n).trans (IngressOnly.putStreamOn _ hn false)).trans (IngressOnly.frameDrop _ n)).trans
        (IngressOnly.modStream _ n _)).trans (IngressOnly.health _ n _ _)
  · exact IngressOnly.refl u

/-- Where no stream goes through the XS die ingress does nothing. -/
theorem State.xsLost_of_no_route {s : State} (h : ∀ n, n < 118 → (s.stream n).xsRoute = false) : s.xsLost = s := by
  refine List.foldlRecOn (motive := fun t => t = s) _ _ rfl ?_
  rintro _ rfl n hn
  simp [h n (List.mem_range.1 hn)]

/-! ### A fault of the slot (R33 to R35) -/

/-- The fields that show the window set as invalid (R34). -/
def State.windowsInvalid (s : State) : State := (List.range 16).foldl (fun s n => s.put (F.DIKE_WIN_SIZE_valid n) 0) s

/-- The Dike with nothing in effect and nothing waiting (R34). -/
def DikeSt.emptied (d : DikeSt) : DikeSt :=
  { d with step := 0, cert := [], inter := none, windows := [], stalled := [], commitQ := false }

/-- The state of a faulted slot before ingress hears of it: what `State.dikeFault` does but for its last step. -/
def State.dikeShut (s : State) (cause window addr : Nat) : State :=
  let n := s.get F.DIKE_STATUS_fault_count + 1
  let s1 := { s with dike := s.dike.emptied }
  let s2 := ((((s1.put F.DIKE_VIOL_cause cause).put F.DIKE_VIOL_window window).put F.DIKE_VIOL_ADDR_LO_addr addr).put
    F.DIKE_VIOL_ADDR_HI_addr (addr / 2 ^ 32)).windowsInvalid
  let s3 := (((s2.put F.DIKE_STATUS_fault_count (min n 3)).put F.DIKE_STATUS_state (if 3 ≤ n then 5 else 4)).put
    F.DIKE_CTRL_enable 0).put F.GEN_XS_admitted 0
  ((s3.mailboxClear.raise pgDIKE Ev.DIKE_violation).raiseIf (cause = 8) pgDIKE Ev.DIKE_cert_fail).raiseIf (decide (3 ≤ n)) pgDIKE
    Ev.DIKE_locked_out

theorem State.dikeFault_eq (s : State) (cause window addr : Nat) :
    s.dikeFault cause window addr = (s.dikeShut cause window addr).xsLost := rfl

theorem State.get_windowsInvalid (s : State) : ∀ n < 16, s.windowsInvalid.get (F.DIKE_WIN_SIZE_valid n) = 0 := by
  intro n hn
  refine (State.get_foldl_put F.DIKE_WIN_SIZE_valid 0 (fun _ => ⟨le_rfl, by simp⟩) (fun i j h => ?_) s 16 n hn).trans (Nat.zero_mod _)
  exact Fld.apart_key (by simp only [regKey]; omega)

/-- The window registers stand from offset 0x100 on. -/
theorem State.get_windowsInvalid_other (s : State) {g : Fld} (h : g.off < 0x100) : s.windowsInvalid.get g = s.get g := by
  refine List.foldlRecOn (motive := fun t : State => t.get g = s.get g) _ _ rfl fun u hu n hn => ?_
  have hn : n < 16 := List.mem_range.1 hn
  exact (State.get_put_apart u (Fld.apart_key (by simp only [regKey]; omega)) 0).trans hu

theorem State.regWord_mailboxClear (s : State) : ∀ k < 24, s.mailboxClear.regWord pgXSLOT (0x20 + 4 * k) = 0#32 :=
  State.regWord_foldl_putWord pgXSLOT 0x20 0#32 s 24

theorem State.get_mailboxClear_other (s : State) {g : Fld} (h : regKey g.page g.off < 512 * pgXSLOT) :
    s.mailboxClear.get g = s.get g := by
  refine List.foldlRecOn (motive := fun t : State => t.get g = s.get g) _ _ rfl fun u hu k hk => ?_
  exact (State.get_putWord_apart u (Fld.apart_key (by simp only [regKey, wholeReg, pgXSLOT] at *; omega)) 0#32).trans hu

/-- What ingress does leaves every field outside its page, but for the pending bits of PCIE. -/
theorem State.get_xsLost (s : State) {g : Fld} (h : regKey g.page g.off / 512 ≠ pgING) (hm : F.PCIE_MSI_PEND_pending.apart g) :
    s.xsLost.get g = s.get g :=
  s.xsLost_ingressOnly.1 g (by simpa using h) (by simpa using hm)

theorem FieldsBut.windowsInvalid {fs : List Fld} {s t : State} (h : FieldsBut fs s t)
    (hf : ∀ n ∈ List.range 16, F.DIKE_WIN_SIZE_valid n ∈ fs) : FieldsBut fs s t.windowsInvalid :=
  h.foldl _ _ fun _ hu n hn => hu.put (hf n hn) 0

theorem FieldsBut.mailboxClear {fs : List Fld} {s t : State} (h : FieldsBut fs s t)
    (hf : ∀ k ∈ List.range 24, wholeReg pgXSLOT (0x20 + 4 * k) ∈ fs) : FieldsBut fs s t.mailboxClear :=
  h.foldl _ _ fun _ hu k hk => hu.putWord (hf k hk) 0#32

/-- A fault of the slot changes the fields of `dikeFaultFields` alone before ingress hears of it. -/
theorem State.dikeShut_fieldsBut (s : State) (cause window addr : Nat) : FieldsBut dikeFaultFields s (s.dikeShut cause window addr) := by
  have hval : ∀ n ∈ List.range 16, F.DIKE_WIN_SIZE_valid n ∈ dikeFaultFields := by decide
  have hbox : ∀ k ∈ List.range 24, wholeReg pgXSLOT (0x20 + 4 * k) ∈ dikeFaultFields := by decide
  have hmsi : F.PCIE_MSI_PEND_pending ∈ dikeFaultFields := by decide
  have hev : ∀ b ∈ [1, 2, 3], Fld.mk pgDIKE 0x10 b b ∈ dikeFaultFields := by decide
  unfold State.dikeShut
  extract_lets n s1 s2 s3
  have h1 : FieldsBut dikeFaultFields s s1 := (FieldsBut.refl _ s).of_regs rfl rfl
  have h2 : FieldsBut dikeFaultFields s s2 :=
    ((((h1.put (by decide) _).put (by decide) _).put (by decide) _).put (by decide) _).windowsInvalid hval
  have h3 : FieldsBut dikeFaultFields s s3 :=
    (((h2.put (by decide) _).put (by decide) _).put (by decide) _).put (by decide) _
  exact (((h3.mailboxClear hbox).raise (hev _ (by simp)) hmsi).raiseIf (hev _ (by simp)) hmsi _).raiseIf (hev _ (by simp)) hmsi _

/-- A fault of the slot changes registers, the Dike and the events at the collector alone before ingress hears of it. -/
theorem State.dikeShut_regsOnly (s : State) (cause window addr : Nat) :
    RegsOnly { s with dike := s.dike.emptied }
      (s.dikeShut cause window addr) := by
  unfold State.dikeShut
  extract_lets n s1 s2 s3
  have h2 : RegsOnly s1 s2 := ((((RegsOnly.refl s1).put _ _).put _ _).put _ _).put _ _ |>.trans
    (RegsOnly.foldl _ (fun u _ => (RegsOnly.refl u).put _ _) _ _)
  have h3 : RegsOnly s1 s3 := (((h2.put _ _).put _ _).put _ _).put _ _
  exact ((h3.trans (RegsOnly.foldl _ (fun u _ => (RegsOnly.refl u).putWord _ _ _) _ _)).raise _ _ |>.raiseIf _ _ _).raiseIf _ _ _

/-- The fields that a fault of the slot shows, before ingress hears of it (R33 to R35). -/
theorem State.dikeShut_get (s : State) {cause window addr : Nat} (hc : cause < 16) (hw : window < 16) (ha : addr < 2 ^ 48) :
    let t := s.dikeShut cause window addr
    t.get F.DIKE_VIOL_cause = cause ∧ t.get F.DIKE_VIOL_window = window
      ∧ t.get F.DIKE_VIOL_ADDR_LO_addr = addr % 2 ^ 32 ∧ t.get F.DIKE_VIOL_ADDR_HI_addr = addr / 2 ^ 32 % 2 ^ 32
      ∧ t.get F.DIKE_CTRL_enable = 0 ∧ t.get F.GEN_XS_admitted = 0
      ∧ t.get F.DIKE_STATUS_fault_count = min (s.get F.DIKE_STATUS_fault_count + 1) 3
      ∧ t.get F.DIKE_STATUS_state = (if 3 ≤ s.get F.DIKE_STATUS_fault_count + 1 then 5 else 4) := by
  unfold State.dikeShut
  simp (disch := decide) only [State.get_raiseIf_other, State.get_raise_other, State.get_mailboxClear_other,
    State.get_windowsInvalid_other, State.get_put_other, State.get_put_self, Fld.size]
  refine ⟨Nat.mod_eq_of_lt hc, Nat.mod_eq_of_lt hw, trivial, ?_, Nat.zero_mod _, Nat.zero_mod _, ?_, ?_⟩
  · rw [Nat.mod_eq_of_lt (by omega), Nat.mod_eq_of_lt (by omega)]
  · exact Nat.mod_eq_of_lt (by omega)
  · split <;> rfl

/-- Every window of a faulted slot is invalid (R34). -/
theorem State.dikeShut_window (s : State) (cause window addr : Nat) :
    ∀ n < 16, (s.dikeShut cause window addr).get (F.DIKE_WIN_SIZE_valid n) = 0 := by
  intro n hn
  have hk : ∀ f : Fld, f.off < 0x100 → f.apart (F.DIKE_WIN_SIZE_valid n) := fun f hf => Fld.apart_key (by simp only [regKey]; omega)
  unfold State.dikeShut
  extract_lets _ s1 s2 s3
  calc _ = s3.mailboxClear.get (F.DIKE_WIN_SIZE_valid n) := by
        rw [State.get_raiseIf _ _ (hk _ (by simp)) (hk _ (by simp)), State.get_raiseIf _ _ (hk _ (by simp)) (hk _ (by simp)),
          State.get_raise _ (hk _ (by simp)) (hk _ (by simp))]
    _ = s3.get (F.DIKE_WIN_SIZE_valid n) := State.get_mailboxClear_other _ (by simp only [regKey, pgXSLOT]; omega)
    _ = s2.get (F.DIKE_WIN_SIZE_valid n) := by
        rw [State.get_put_apart _ (hk _ (by simp)), State.get_put_apart _ (hk _ (by simp)), State.get_put_apart _ (hk _ (by simp)),
          State.get_put_apart _ (hk _ (by simp))]
    _ = 0 := State.get_windowsInvalid _ n hn

/-- The mailbox of a faulted slot is as at reset (R34, R41). -/
theorem State.dikeShut_mailbox (s : State) (cause window addr : Nat) :
    ∀ k < 24, (s.dikeShut cause window addr).get (wholeReg pgXSLOT (0x20 + 4 * k)) = 0 := by
  intro k hk
  have ha : ∀ b, (Fld.mk pgDIKE 0x10 b b).apart (wholeReg pgXSLOT (0x20 + 4 * k)) :=
    fun b => Fld.apart_key (by simp only [regKey, wholeReg, pgDIKE, pgXSLOT]; omega)
  have hm : F.PCIE_MSI_PEND_pending.apart (wholeReg pgXSLOT (0x20 + 4 * k)) :=
    Fld.apart_key (by simp only [regKey, wholeReg, pgXSLOT]; omega)
  unfold State.dikeShut
  extract_lets _ s1 s2 s3
  rw [State.get_raiseIf _ _ (ha _) hm, State.get_raiseIf _ _ (ha _) hm, State.get_raise _ (ha _) hm, State.get_wholeReg,
    State.regWord_mailboxClear _ k hk]
  rfl

/-- The events of a fault of the slot (R33 to R35). -/
theorem State.dikeShut_events (s : State) (cause window addr : Nat) :
    let t := s.dikeShut cause window addr
    t.eventSet pgDIKE Ev.DIKE_violation = true ∧ (cause = 8 → t.eventSet pgDIKE Ev.DIKE_cert_fail = true)
      ∧ (3 ≤ s.get F.DIKE_STATUS_fault_count + 1 → t.eventSet pgDIKE Ev.DIKE_locked_out = true) := by
  unfold State.dikeShut
  refine ⟨?_, fun hc => ?_, fun hn => ?_⟩
  · exact State.eventSet_raiseIf_of_eventSet (State.eventSet_raiseIf_of_eventSet (State.eventSet_raise _ _ _ (by decide))
      (by decide) (by decide) _) (by decide) (by decide) _
  · refine State.eventSet_raiseIf_of_eventSet ?_ (by decide) (by decide) _
    simpa only [State.raiseIf, hc, decide_true, if_true] using State.eventSet_raise _ _ _ (by decide)
  · simpa only [State.raiseIf, hn, decide_true, if_true] using State.eventSet_raise _ _ _ (by decide)

/-- A fault of the slot is what R33 to R35 say, with the cause, window and address that it is given. -/
theorem State.dikeFault_xsFaulted (s : State) {cause window addr : Nat} (hc : cause < 16) (hw : window < 16) (ha : addr < 2 ^ 48) :
    XsFaulted cause window addr s (s.dikeFault cause window addr) := by
  rw [State.dikeFault_eq]
  obtain ⟨hcause, hwindow, hlo, hhi, henable, hadm, hcount, hstate⟩ := s.dikeShut_get hc hw ha
  obtain ⟨hviol, hcert, hout⟩ := s.dikeShut_events cause window addr
  have hwin := s.dikeShut_window cause window addr
  have hbox := s.dikeShut_mailbox cause window addr
  have hframe := (s.dikeShut_regsOnly cause window addr).frame
  have hfields := s.dikeShut_fieldsBut cause window addr
  generalize s.dikeShut cause window addr = u at *
  have hget : ∀ g : Fld, (regKey g.page g.off / 512 ≠ pgING ∧ F.PCIE_MSI_PEND_pending.apartTest g = true) → u.xsLost.get g = u.get g :=
    fun g hg => u.get_xsLost hg.1 (Fld.apart_of_test hg.2)
  have hdike : u.xsLost.dike = u.dike := (congrArg State.dike u.xsLost_ingressOnly.2 :)
  refine ⟨(hget _ (by decide)).trans hcause, (hget _ (by decide)).trans hwindow, (hget _ (by decide)).trans hlo,
    (hget _ (by decide)).trans hhi, (hget _ (by decide)).trans henable, (hget _ (by decide)).trans hadm, fun n hn => ?_,
    fun k hk => ?_, hdike.trans (congrArg State.dike hframe :), (hget _ (by decide)).trans hcount, (hget _ (by decide)).trans hstate,
    ?_, fun h8 => ?_, fun h3 => ?_, fun hr => ?_⟩
  · exact (u.get_xsLost (by simp only [regKey, pgING]; omega) (Fld.apart_key (by simp only [regKey]; omega))).trans (hwin n hn)
  · refine BitVec.eq_of_toNat_eq (Eq.trans ?_ (hbox k hk))
    rw [← State.get_wholeReg]
    exact u.get_xsLost (by simp only [regKey, wholeReg, pgING, pgXSLOT]; omega)
      (Fld.apart_key (by simp only [regKey, wholeReg, pgXSLOT]; omega))
  · simpa only [State.eventSet, State.flag, hget ⟨pgDIKE, 0x10, Ev.DIKE_violation, Ev.DIKE_violation⟩ (by decide)] using hviol
  · simpa only [State.eventSet, State.flag, hget ⟨pgDIKE, 0x10, Ev.DIKE_cert_fail, Ev.DIKE_cert_fail⟩ (by decide)] using hcert h8
  · simpa only [State.eventSet, State.flag, hget ⟨pgDIKE, 0x10, Ev.DIKE_locked_out, Ev.DIKE_locked_out⟩ (by decide)] using hout h3
  · have hstreams : u.streams = s.streams := (congrArg State.streams hframe :)
    rw [State.xsLost_of_no_route fun n hn => by rw [State.stream, hstreams]; exact hr n hn]
    exact ⟨hfields, congrArg (fun t : State => { t with dike := s.dike }) hframe⟩

/-! ### Bytes -/

theorem leNat_lt (l : List Byte) : leNat l < 256 ^ l.length := by
  induction l with
  | nil => simp [leNat]
  | cons b t ih =>
    have hb := b.isLt
    simp only [leNat, List.length_cons, pow_succ]
    omega

theorem length_bytesAt (l : List Byte) (i n : Nat) : (bytesAt l i n).length = n := by
  simp only [bytesAt, List.length_append, List.length_take, List.length_replicate]
  omega

theorem fieldAt_lt (l : List Byte) (i n : Nat) : fieldAt l i n < 256 ^ n := by
  have h := leNat_lt (bytesAt l i n)
  rwa [length_bytesAt] at h

/-! ### The steps of an admission (R27, R28) -/

/-- Admission of the slot with key `k`: what CHAIN_VERIFIED does with an accepted chain. -/
def State.admitted (s : State) (k : Nat) : State :=
  let s1 := { s with
    dike := { s.dike with step := 0 }
    sec := { s.sec with meas := tabSet s.sec.meas 9 (sha3_512 s.dike.cert) } }
  let s2 := ((s1.put F.DIKE_STATUS_state 3).put F.DIKE_STATUS_key_slot k).put F.DIKE_CTRL_enable 1
  (((s2.put F.XSLOT_STATUS_open 1).put F.XSLOT_IDENT_maker (fieldAt s.dike.cert 0x10 4)).put F.GEN_XS_admitted 1).raise
    pgDIKE Ev.DIKE_admitted

theorem exec_admissionStart {s : State} (h0 : s.dikeState = 0) (hx : s.fuse.xsPopulated = true) (hb : s.sec.boot.running = true) :
    exec .admissionStart s = .next { s.put F.DIKE_STATUS_state 1 with dike := { s.dike with step := 1 } } :=
  congrArg Host.Outcome.next (if_pos ⟨h0, hx, hb⟩)

theorem exec_ucieTrainingDone {s : State} (h : s.dike.step = 1) :
    exec .ucieTrainingDone s = .next { s with dike := { s.dike with step := 2 } } :=
  congrArg Host.Outcome.next (if_pos h)

theorem exec_chainReceived {s : State} (cert : List Byte) (inter : Option (List Byte)) (h : s.dike.step = 2) :
    exec (.chainReceived cert inter) s
      = .next { s.put F.DIKE_STATUS_state 2 with dike := { s.dike with step := 3, cert := cert, inter := inter } } :=
  congrArg Host.Outcome.next (if_pos h)

theorem exec_chainVerified_accepted {s : State} {k : Nat} (h : s.dike.step = 3) (hk : s.chainSlot = some k) :
    exec .chainVerified s = .next (s.admitted k) := by
  change execChainVerified s = _
  simp [execChainVerified, h, hk, State.admitted]

theorem exec_chainVerified_refused {s : State} (h : s.dike.step = 3) (hk : s.chainSlot = none) :
    exec .chainVerified s = .next (s.dikeFault 8 0 0) := by
  change execChainVerified s = _
  simp [execChainVerified, h, hk]

theorem exec_admissionOverrun {s : State} (h : s.dike.step ≠ 0) : exec .admissionOverrun s = .next (s.dikeFault 9 0 0) :=
  congrArg Host.Outcome.next (if_neg h)

theorem exec_ucieLinkLoss {s : State} (hlo : 1 ≤ s.dikeState) (hhi : s.dikeState ≤ 3) :
    exec .ucieLinkLoss s = .next (s.dikeFault 6 0 0) :=
  congrArg Host.Outcome.next (if_pos (decide_eq_true ⟨hlo, hhi⟩))

/-- A link loss of a slot that is neither being admitted nor admitted changes nothing (R33). -/
theorem exec_ucieLinkLoss_idle {s : State} (h : s.dikeState = 0 ∨ 4 ≤ s.dikeState) : exec .ucieLinkLoss s = .next s := by
  refine congrArg Host.Outcome.next (if_neg ?_)
  simp only [State.dikeLive, decide_eq_true_eq]
  omega

/-- The commands of DIKE_CTRL act on the bits that a write which comes to the register offers. -/
theorem exec_dikeCtrl {s s2 : State} {acc : Acc} {w : Word} (hw : s.written pgDIKE 0x020 acc = some (s2, w)) :
    ∀ c ∈ [Instr.readmit acc, .dikeFence acc, .dikeEnableClear acc, .commit acc], exec c s = .next (s2.dikeCtrl w) := by
  have h := congrArg (Host.Outcome.next (φ := Fault) (ρ := Refusal)) (State.command_of_written hw State.dikeCtrl)
  simp only [List.forall_mem_cons, List.not_mem_nil, false_imp_iff, implies_true, and_true]
  exact ⟨h, h, h, h⟩

/-- What an admitted slot shows (R28). -/
theorem State.admitted_get (s : State) (k : Nat) :
    (s.admitted k).dikeState = 3 ∧ (s.admitted k).get F.DIKE_STATUS_key_slot = k % 8
      ∧ (s.admitted k).get F.XSLOT_IDENT_maker = fieldAt s.dike.cert 0x10 4 ∧ (s.admitted k).get F.DIKE_CTRL_enable = 1
      ∧ (s.admitted k).get F.XSLOT_STATUS_open = 1 ∧ (s.admitted k).get F.GEN_XS_admitted = 1 := by
  unfold State.admitted State.dikeState
  simp (disch := decide) only [State.get_raise_other, State.get_put_other, State.get_put_self, Fld.size]
  exact ⟨rfl, rfl, Nat.mod_eq_of_lt (fieldAt_lt _ _ _), rfl, rfl, rfl⟩

/-- The fields that an admission changes (R28). -/
def admittedFields : List Fld :=
  [F.DIKE_STATUS_state, F.DIKE_STATUS_key_slot, F.DIKE_CTRL_enable, F.XSLOT_STATUS_open, F.XSLOT_IDENT_maker, F.GEN_XS_admitted]
    ++ eventFields pgDIKE Ev.DIKE_admitted

theorem State.admitted_fieldsBut (s : State) (k : Nat) : FieldsBut admittedFields s (s.admitted k) := by
  unfold State.admitted
  extract_lets d sec s1 s2
  have h1 : FieldsBut admittedFields s s1 := (FieldsBut.refl _ s).of_regs rfl rfl
  exact ((((((h1.put (by decide) _).put (by decide) _).put (by decide) _).put (by decide) _).put (by decide) _).put (by decide)
    _).raise (by decide) (by decide)

theorem State.admitted_regsOnly (s : State) (k : Nat) :
    RegsOnly { s with
      dike := { s.dike with step := 0 }
      sec := { s.sec with meas := tabSet s.sec.meas 9 (sha3_512 s.dike.cert) } } (s.admitted k) :=
  ((((((RegsOnly.refl _).put _ _).put _ _).put _ _).put _ _).put _ _ |>.put _ _).raise _ _

/-- The state of the slot put at `v` and the Dike at step `n`: nothing else changes. -/
theorem State.dikeStep_frame (s : State) {v : Nat} (hv : v < 8) (d : DikeSt) :
    let t := { s.put F.DIKE_STATUS_state v with dike := d }
    t.dikeState = v ∧ FieldsBut [F.DIKE_STATUS_state] s t ∧ { t with regs := s.regs, dike := s.dike } = s := by
  refine ⟨?_, ((FieldsBut.refl _ s).put (by simp) v).of_regs rfl rfl, rfl⟩
  exact (State.get_put_self s F.DIKE_STATUS_state v (by decide)).trans (Nat.mod_eq_of_lt hv)

/-! ### DIKE_CTRL (R32 to R35) -/

/-- A fence in any state, or 0 to an enable that is set, faults the slot (R33, R34). -/
theorem State.dikeCtrl_fault (s : State) {w : Word} (h : w.getLsbD 3 = true ∨ w.getLsbD 0 = false ∧ s.get F.DIKE_CTRL_enable = 1) :
    s.dikeCtrl w = s.dikeFault 7 0 0 := by
  unfold State.dikeCtrl
  rw [if_pos]
  rcases h with h | ⟨h0, he⟩
  · simp only [h, Bool.true_or]
  · have hon : s.flag F.DIKE_CTRL_enable = true := by simp [State.flag, he]
    simp only [h0, hon, Bool.not_false, Bool.and_self, Bool.or_true]

/-- Neither a fence nor a cleared enable: commit, then readmission (R32, R35). -/
theorem State.dikeCtrl_quiet (s : State) {w : Word} (h3 : w.getLsbD 3 = false) (h0 : w.getLsbD 0 = true ∨ s.get F.DIKE_CTRL_enable = 0) :
    s.dikeCtrl w =
      let s1 := if w.getLsbD 1 then { s with dike := { s.dike with commitQ := true } } else s
      if w.getLsbD 2 ∧ s.dikeState = 4 then { s1.put F.DIKE_STATUS_state 1 with dike := { s1.dike with step := 1 } } else s1 := by
  unfold State.dikeCtrl
  rw [if_neg]
  rcases h0 with h0 | h0
  · simp only [h3, h0, Bool.not_true, Bool.false_and, Bool.or_self, Bool.false_eq_true, not_false_eq_true]
  · simp only [h3, State.flag, h0, bne_self_eq_false, Bool.and_false, Bool.or_self, Bool.false_eq_true, not_false_eq_true]

/-- Settles O4: each command of an admission by its own case of the model, each fault by `State.dikeFault_xsFaulted`. -/
theorem xsSlotLife : Obligations.XsSlotLife := by
  have hfault : ∀ (s : State) {c : Nat}, c < 16 → XsFaulted c 0 0 s (s.dikeFault c 0 0) := fun s _ hc =>
    s.dikeFault_xsFaulted hc (by decide) (by decide)
  refine ⟨fun s => ⟨fun h0 hx hb => ?_, fun h1 => ?_, fun cert inter h2 => ?_, fun h3 => ?_, fun hn => ?_, fun hlo hhi => ?_,
    fun hst => ?_⟩, fun acc s s2 w hw => ⟨fun w2 w1 w3 h4 h0 => ?_, fun w3 => ?_, fun w0 he => ?_, fun w1 w2 w3 h0 => ?_⟩⟩
  · exact ⟨_, exec_admissionStart h0 hx hb, (s.dikeStep_frame (v := 1) (by decide) _).1, rfl,
      (s.dikeStep_frame (v := 1) (by decide) _).2⟩
  · exact exec_ucieTrainingDone h1
  · exact ⟨_, exec_chainReceived cert inter h2, (s.dikeStep_frame (v := 2) (by decide) _).1, rfl,
      (s.dikeStep_frame (v := 2) (by decide) _).2⟩
  · cases hk : s.chainSlot with
    | none => exact ⟨_, exec_chainVerified_refused h3 hk, nofun, fun _ => hfault s (by decide)⟩
    | some k =>
      refine ⟨_, exec_chainVerified_accepted h3 hk, fun j hj => ?_, nofun⟩
      obtain rfl := Option.some.inj hj
      obtain ⟨hstate, hkey, hmaker, hen, hopen, hadm⟩ := s.admitted_get k
      have hframe := (s.admitted_regsOnly k).frame
      exact ⟨hstate, hkey, hmaker, hen, hopen, hadm, State.eventSet_raise _ _ _ (by decide), s.admitted_fieldsBut k,
        (congrArg State.dike hframe :), (congrArg State.sec hframe :),
        (congrArg (fun t : State => { t with dike := s.dike, sec := s.sec }) hframe :)⟩
  · exact ⟨_, exec_admissionOverrun hn, hfault s (by decide)⟩
  · exact ⟨_, exec_ucieLinkLoss hlo hhi, hfault s (by decide)⟩
  · exact exec_ucieLinkLoss_idle hst
  · have ht : s2.dikeCtrl w = { s2.put F.DIKE_STATUS_state 1 with dike := { s2.dike with step := 1 } } := by
      rw [s2.dikeCtrl_quiet w3 h0]
      simp only [w1, w2, h4, Bool.false_eq_true, if_false, and_self, if_true]
    exact ⟨_, ht ▸ exec_dikeCtrl hw _ (by simp), (s2.dikeStep_frame (v := 1) (by decide) _).1, rfl,
      (s2.dikeStep_frame (v := 1) (by decide) _).2⟩
  · exact ⟨_, s2.dikeCtrl_fault (.inl w3) ▸ exec_dikeCtrl hw _ (by simp), hfault s2 (by decide)⟩
  · exact ⟨_, s2.dikeCtrl_fault (.inr ⟨w0, he⟩) ▸ exec_dikeCtrl hw _ (by simp), hfault s2 (by decide)⟩
  · have ht : s2.dikeCtrl w = { s2 with dike := { s2.dike with commitQ := true } } := by
      rw [s2.dikeCtrl_quiet w3 h0]
      simp only [w1, w2, Bool.false_eq_true, false_and, if_false, if_true]
    exact ht ▸ exec_dikeCtrl hw _ (by simp)

end Sys2Proof.Machine
end

section
/-! SUPPORT. RESET over the tap of a die (R15, R16). -/

namespace Sys2Proof.Machine

/-! ### Tap commands (O2) -/

/-- A module fused with 25 arrays for each die, one more than `Obligations.TapCommands` lists pages for, with die 0 in run. -/
def overfusedModule : State := { State.reset with fuse := { State.reset.fuse with perDie := 25 } }.put (F.CD_STATE_state 0) 3

/-- RESET of its die 0 sets the shadow bit (R46) on the page of array 24, which `State.shadowed` counts among the die's pages. -/
theorem overfusedModule_reset_shadow :
    overfusedModule.get (F.BLK_IRQ_STATUS_shadow (pgARR 24)) = 0
      ∧ (overfusedModule.dieReset 0).get (F.BLK_IRQ_STATUS_shadow (pgARR 24)) = 1 := by decide +kernel

/-- Refutes O2: nothing in a state bounds the arrays per die that the fuses hold. With 25 of them the RESET of a die in run
sets the shadow bit of a page that is none of the 26 pages that the RESET clause excepts. -/
theorem not_tapCommands : ¬ Obligations.TapCommands := by
  rintro ⟨-, -, -, hreset, -⟩
  obtain ⟨t, ht, -, -, -, -, -, hpages, -⟩ :=
    hreset .sia 0 overfusedModule (by decide +kernel) (by decide +kernel) (by decide +kernel)
  have hrun : exec (.reset .sia 0) overfusedModule = .next (overfusedModule.dieReset 0) :=
    congrArg Host.Outcome.next (if_neg (by decide +kernel))
  obtain rfl : overfusedModule.dieReset 0 = t := Host.Outcome.next.inj (hrun.symm.trans ht)
  have hkept := hpages (F.BLK_IRQ_STATUS_shadow (pgARR 24)) (by decide) fun f hf => Fld.apart_of_test
    ((by decide : ∀ f ∈ [F.ISL_TAP_stop 0, F.ISL_TAP_stop 1, F.ISL_TAP_fence 0, F.ISL_TAP_fence 1, F.PCIE_MSI_PEND_pending],
      f.apartTest (F.BLK_IRQ_STATUS_shadow (pgARR 24)) = true) f hf)
  obtain ⟨hbefore, hafter⟩ := overfusedModule_reset_shadow
  omega

end Sys2Proof.Machine
end

section
/-! SUPPORT. Accesses to register pages: aliases, what the checks of a write make of it, the unlock sequence (R44 to R63). -/

namespace Sys2Proof.Machine

/-! ### Fields -/

/-- A field reads below its number of values. -/
theorem State.get_lt_size (s : State) {f : Fld} (hf : f.fits) : s.get f < f.size := by
  refine Nat.lt_pow_two_of_testBit _ fun i hi => ?_
  have hm : f.mask.getLsbD (f.lo + i) = false := by
    rw [Fld.mask_getLsbD f hf]
    simp only [Bool.and_eq_false_iff, decide_eq_false_iff_not]
    omega
  rw [State.get, Fld.ext, BitVec.testBit_toNat, BitVec.getLsbD_ushiftRight, BitVec.getLsbD_and, hm, Bool.and_false]

/-- A one-bit field that is set reads 1. -/
theorem State.get_of_flag {s : State} {f : Fld} (hf : f.fits) (h1 : f.hi = f.lo) (h : s.flag f = true) : s.get f = 1 := by
  have hlt := s.get_lt_size hf
  simp only [Fld.size, h1, Nat.sub_self, zero_add, pow_one] at hlt
  simp only [State.flag, bne_iff_ne, ne_eq] at h
  omega

/-- A register of which every field reads as before holds the same word. -/
theorem FieldsBut.regWord {fs : List Fld} {s t : State} (h : FieldsBut fs s t) {p o : Nat} (hk : ∀ f ∈ fs, f.apart (wholeReg p o)) :
    t.regWord p o = s.regWord p o := by
  refine BitVec.eq_of_toNat_eq ?_
  rw [← State.get_wholeReg, ← State.get_wholeReg]
  exact h _ hk

/-- A saturating byte counter raised by one. -/
theorem State.get_satInc_byte (s : State) {f : Fld} (hf : f.hi = f.lo + 7) (hb : f.hi < 32) :
    (s.satInc f).get f = min (s.get f + 1) 255 := by
  have hsize : f.size = 256 := by simp [Fld.size, hf]
  rw [State.satInc_eq, State.get_put_self _ _ _ (by omega), hsize, Nat.mod_eq_of_lt (by omega)]

/-! ### The page directory (R44) -/

theorem pageRun_mem {p : Nat} {r : PageRun} (h : pageRun p = some r) : r ∈ pageDir := List.mem_of_find?_eq_some h

theorem pageRun_range {p : Nat} {r : PageRun} (h : pageRun p = some r) : r.first ≤ p ∧ p < r.first + r.count := by
  simpa using List.find?_some h

/-- The offsets of the header registers. -/
def headerOffsets : List Nat := [0, 4, 8, 0xC, 0x10, 0x14, 0x18, 0x1C]

/-- The identity of a header offset is the offset (R56). -/
theorem pageIdent_header {p : Nat} {r : PageRun} (hr : pageRun p = some r) {o : Nat} (ho : o ∈ headerOffsets) : pageIdent p o = o := by
  have h : ∀ r ∈ pageDir, ∀ o ∈ headerOffsets, o &&& 0x7FC &&& (r.mask * 4) = o := by decide
  simpa only [pageIdent, hr] using h r (pageRun_mem hr) o ho

/-- A header register stands on every page of the directory. -/
theorem regAt_header_isSome {p : Nat} {r : PageRun} (hr : pageRun p = some r) {o : Nat} (ho : o ∈ headerOffsets) :
    (regAt p o).isSome = true := by
  have hlt : o < 0x20 := (by decide : ∀ o ∈ headerOffsets, o < 0x20) o ho
  rw [regAt_header hr hlt, List.find?_isSome]
  simp only [headerOffsets, List.mem_cons, List.not_mem_nil, or_false] at ho
  rcases ho with rfl | rfl | rfl | rfl | rfl | rfl | rfl | rfl <;> simp [headerRegs, RegDef.at?]

/-! ### Which accesses a page answers -/

theorem State.answersPage_iff {s : State} {page : Nat} {req : Requester} :
    s.answersPage page req = true ↔
      s.hubOff = false ∧ ¬(req = .xs ∧ page ≠ 62) ∧ s.pageUnmapped page = false ∧ s.bootHides page req = false := by
  simp only [State.answersPage, Bool.and_eq_true, Bool.not_eq_true', Bool.or_eq_true, bne_iff_ne, beq_iff_eq, and_assoc,
    not_and_or, not_not, ne_eq]

theorem cleanWrite_iff {acc : Acc} : cleanWrite acc = true ↔ ¬(acc.req = .host ∧ acc.poisoned = true) := by
  simp [cleanWrite, Decidable.imp_iff_not_or]

theorem State.takesWrites_iff {s : State} {page : Nat} {acc : Acc} :
    s.takesWrites page acc = true ↔ s.answersPage page acc.req = true ∧ cleanWrite acc = true ∧ (page ≠ 57 ∧ page ≠ 58)
      ∧ s.pageShadow page = false ∧ s.flag (F.BLK_STATUS_in_reset page) = false := by
  simp only [State.takesWrites, Bool.and_eq_true, decide_eq_true_eq, Bool.not_eq_true', and_assoc]

theorem State.pageRun_of_mapped {s : State} {page : Nat} (h : s.pageUnmapped page = false) : ∃ r, pageRun page = some r := by
  refine Option.isSome_iff_exists.1 ?_
  cases hr : pageRun page with
  | none => simp [State.pageUnmapped, hr] at h
  | some r => rfl

theorem State.pageRun_of_answers {s : State} {page : Nat} {req : Requester} (h : s.answersPage page req = true) :
    ∃ r, pageRun page = some r :=
  State.pageRun_of_mapped (State.answersPage_iff.1 h).2.2.1

/-! ### What the checks make of a write -/

/-- A narrow write counted in GEN (R47). -/
def State.countNarrow (s : State) (page : Nat) : State := (s.satInc F.GEN_ACCESS_ERR_narrow).put F.GEN_ACCESS_ERR_last_page page

/-- What a write to an offset without a register leaves: a narrow one is counted, and a page that runs is disarmed (R47, R57, R61). -/
def State.writeNowhere (s : State) (page : Nat) (be : BitVec 4) : State :=
  let s1 := if be = 0xF#4 then s else s.countNarrow page
  if s.pageShadow page ∨ s.flag (F.BLK_STATUS_in_reset page) then s1 else s1.disarm page

theorem State.gate_of_noRegister {s : State} {page off : Nat} {acc : Acc} (ha : s.answersPage page acc.req = true)
    (hc : cleanWrite acc = true) (hp : page ≠ 57 ∧ page ≠ 58) (hn : regAt page (pageIdent page off) = none) :
    s.gate page off acc = .stop (s.writeNowhere page acc.be) := by
  obtain ⟨hoff, hpath, hmap, hboot⟩ := State.answersPage_iff.1 ha
  simp [State.gate, hoff, hpath, hmap, hboot, cleanWrite_iff.1 hc, hp, hn, State.writeNowhere, State.countNarrow]

/-- A narrow write to a register ends at the width check (R47). -/
theorem State.gate_of_narrow {s : State} {page off : Nat} {acc : Acc} (ha : s.answersPage page acc.req = true)
    (hc : cleanWrite acc = true) (hp : page ≠ 57 ∧ page ≠ 58) (hn : (regAt page (pageIdent page off)).isSome = true)
    (hbe : acc.be ≠ 0xF#4) :
    s.gate page off acc = .stop (if pageIdent page off = 8 then ((s.narrowWrite page).disarm page).put (F.BLK_LEVEL_expert page) 0
      else (s.narrowWrite page).disarm page) := by
  obtain ⟨hoff, hpath, hmap, hboot⟩ := State.answersPage_iff.1 ha
  simp [State.gate, hoff, hpath, hmap, hboot, cleanWrite_iff.1 hc, hp, Option.isSome_iff_ne_none.1 hn, hbe, State.levelWrite]

/-- A full-width write to a register of a page that takes writes comes to the unlock sequence and the level check (R60 to R62). -/
theorem State.gate_of_register {s : State} {page off : Nat} {acc : Acc} (ht : s.takesWrites page acc = true) (hbe : acc.be = 0xF#4)
    (hn : (regAt page (pageIdent page off)).isSome = true) :
    s.gate page off acc =
      if pageIdent page off = 8 then
        .stop ((s.disarm page).levelWrite page acc.req (if acc.view = .base then some acc.val else none) (tabFind s.armedBy page))
      else if isExpert (pageIdent page off) && !s.flag (F.BLK_LEVEL_expert page) then
        .stop ((s.disarm page).accessErr (F.BLK_STATUS_level_reject page))
      else .pass (s.disarm page) (pageIdent page off) := by
  obtain ⟨ha, hc, hp, hsh, hrst⟩ := State.takesWrites_iff.1 ht
  obtain ⟨hoff, hpath, hmap, hboot⟩ := State.answersPage_iff.1 ha
  simp [State.gate, hoff, hpath, hmap, hboot, cleanWrite_iff.1 hc, hp, Option.isSome_iff_ne_none.1 hn, hbe, hsh, hrst]

/-- A write to an unmapped page is counted (R45). -/
theorem State.gate_of_unmapped {s : State} {page : Nat} {acc : Acc} (hoff : s.hubOff = false) (hreq : acc.req ≠ .xs)
    (hc : cleanWrite acc = true) (hu : s.pageUnmapped page = true) (hbe : acc.be = 0xF#4) (off : Nat) :
    s.gate page off acc = .stop (s.unmappedAccess page) := by
  simp [State.gate, hoff, hreq, hu, cleanWrite_iff.1 hc, hbe]

/-- A host's write in a poisoned TLP ends before the page is considered (R408). -/
theorem State.gate_of_poisoned {s : State} {acc : Acc} (hoff : s.hubOff = false) (hreq : acc.req = .host) (hp : acc.poisoned = true)
    (page off : Nat) : s.gate page off acc = .stop s.poisonedIn := by
  simp [State.gate, hoff, hreq, hp]

theorem State.writeReg_of_stop {s t : State} {page off : Nat} {acc : Acc} (h : s.gate page off acc = .stop t) :
    s.writeReg page off acc = t := by
  simp only [State.writeReg, h]

theorem State.writeReg_of_pass {s t : State} {page off ident : Nat} {acc : Acc} (h : s.gate page off acc = .pass t ident) :
    s.writeReg page off acc = t.storeReg page ident acc := by
  simp only [State.writeReg, h]

/-! ### What the checks change -/

/-- From `s` to `t` nothing changed but registers and who armed which page. -/
structure RegsAndArmed (s t : State) : Prop where
  frame : { t with regs := s.regs, armedBy := s.armedBy } = s

theorem RegsAndArmed.refl (s : State) : RegsAndArmed s s := ⟨rfl⟩

theorem RegsAndArmed.trans {s t u : State} (h : RegsAndArmed s t) (k : RegsAndArmed t u) : RegsAndArmed s u := by
  refine ⟨?_⟩
  calc { u with regs := s.regs, armedBy := s.armedBy }
      = { ({ u with regs := t.regs, armedBy := t.armedBy } : State) with regs := s.regs, armedBy := s.armedBy } := rfl
    _ = { t with regs := s.regs, armedBy := s.armedBy } := by rw [k.frame]
    _ = s := h.frame

/-- An unlock sequence, then an access error. -/
theorem RegsAndArmed.regsOnly {s t u : State} (h : RegsAndArmed s t) (k : RegsOnly t u) :
    { u with regs := s.regs, armedBy := s.armedBy, flt := s.flt } = s := by
  have hflt : t.flt = s.flt := (congrArg State.flt h.frame :)
  calc { u with regs := s.regs, armedBy := s.armedBy, flt := s.flt }
      = { ({ u with regs := t.regs, flt := t.flt } : State) with regs := s.regs, armedBy := s.armedBy, flt := s.flt } := rfl
    _ = { t with regs := s.regs, armedBy := s.armedBy, flt := s.flt } := by rw [k.frame]
    _ = { t with regs := s.regs, armedBy := s.armedBy } := by rw [← hflt]
    _ = s := h.frame

/-- An access error, then an unlock sequence. -/
theorem RegsOnly.regsAndArmed {s t u : State} (h : RegsOnly s t) (k : RegsAndArmed t u) :
    { u with regs := s.regs, armedBy := s.armedBy, flt := s.flt } = s := by
  have harmed : t.armedBy = s.armedBy := (congrArg State.armedBy h.frame :)
  calc { u with regs := s.regs, armedBy := s.armedBy, flt := s.flt }
      = { ({ u with regs := t.regs, armedBy := t.armedBy } : State) with
          regs := s.regs, armedBy := s.armedBy, flt := s.flt } := rfl
    _ = { t with regs := s.regs, armedBy := s.armedBy, flt := s.flt } := by rw [k.frame]
    _ = { t with regs := s.regs, flt := s.flt } := by rw [← harmed]
    _ = s := h.frame

theorem State.disarm_frame (s : State) (page : Nat) : RegsAndArmed s (s.disarm page) := by
  refine ⟨?_⟩
  unfold State.disarm
  split <;> rfl

/-- A page that is disarmed is armed by nobody (R61). -/
theorem State.disarm_armedBy (s : State) (page : Nat) : tabFind (s.disarm page).armedBy page = none := by
  unfold State.disarm
  split
  · exact tabFind_tabDel_same _ _
  next h => simpa using h

theorem State.disarm_fuse (s : State) (page : Nat) : (s.disarm page).fuse = s.fuse := by
  unfold State.disarm
  split <;> rfl

theorem FieldsBut.disarm {fs : List Fld} {s t : State} (h : FieldsBut fs s t) {page : Nat} (hf : F.BLK_LEVEL_armed page ∈ fs) :
    FieldsBut fs s (t.disarm page) := by
  unfold State.disarm
  split
  · exact (h.put hf 0).of_regs rfl rfl
  · exact h

/-- Disarming changes the page's armed bit alone. -/
theorem State.get_disarm (s : State) {page : Nat} {g : Fld} (h : (F.BLK_LEVEL_armed page).apart g) : (s.disarm page).get g = s.get g :=
  (FieldsBut.refl [F.BLK_LEVEL_armed page] s).disarm (by simp) g (by simpa using h)

theorem State.regsOnly_accessErr (s : State) (f : Fld) : RegsOnly s (s.accessErr f) := by
  unfold State.accessErr
  split
  · exact RegsOnly.refl s
  · exact ((RegsOnly.refl s).put f 1).raise _ _

theorem FieldsBut.accessErr {fs : List Fld} {s t : State} (h : FieldsBut fs s t) {f : Fld} (hf : f ∈ fs)
    (he : ∀ e ∈ eventFields f.page 29, e ∈ fs) : FieldsBut fs s (t.accessErr f) := by
  unfold State.accessErr
  split
  · exact h
  · exact (h.put hf 1).raise (he _ (by simp [eventFields])) (he _ (by simp [eventFields]))

/-- An access error changes its bit and its event alone. -/
theorem State.get_accessErr (s : State) {f g : Fld} (hf : f.apart g) (he : ∀ e ∈ eventFields f.page 29, e.apart g) :
    (s.accessErr f).get g = s.get g :=
  (FieldsBut.refl (f :: eventFields f.page 29) s).accessErr (by simp) (fun _ h => List.mem_cons_of_mem _ h) g
    (List.forall_mem_cons.2 ⟨hf, he⟩)

/-- After an access error its bit of BLK_STATUS is set. -/
theorem State.get_accessErr_self (s : State) {page b : Nat} (hb : b < 32) : (s.accessErr ⟨page, 0xC, b, b⟩).get ⟨page, 0xC, b, b⟩ = 1 := by
  have hfit : (Fld.mk page 0xC b b).fits := ⟨le_rfl, hb⟩
  unfold State.accessErr
  split
  · exact State.get_of_flag hfit rfl ‹_›
  · rw [State.get_raise _ (Fld.apart_key (by simp only [regKey]; omega)) (Fld.apart_key (by simp only [regKey]; omega)),
      State.get_put_same _ _ hfit]
    simp [Fld.size]

/-- The access event of a page reaches no register but BLK_IRQ_STATUS and the pending bits of PCIE. -/
theorem eventFields_apart {p q o b : Nat} {g : Fld} (hk : regKey g.page g.off = q * 512 + o / 4) (ho : o < 0x800) (h1 : o / 4 ≠ 4)
    (h2 : q = 56 → o / 4 ≠ 57) : ∀ e ∈ eventFields p b, e.apart g := by
  intro e he
  simp only [eventFields, List.mem_cons, List.not_mem_nil, or_false] at he
  rcases he with rfl | rfl
  · exact Fld.apart_key (by simp only [hk]; simp only [regKey]; omega)
  · exact Fld.apart_key (by simp only [hk]; simp only [regKey]; omega)

/-! ### Aliases (R56) -/

/-- Every decode mask is one less than a power of two, of the 5th to the 9th. -/
theorem decodeMask_form : ∀ r ∈ pageDir, ∃ k < 10, 5 ≤ k ∧ r.mask = 2 ^ k - 1 := by decide

/-- A write works on the identity of its offset (R55). -/
theorem State.writeReg_of_ident {page off off' : Nat} (h : pageIdent page off = pageIdent page off') (s : State) (acc : Acc) :
    s.writeReg page off acc = s.writeReg page off' acc := by
  simp only [State.writeReg, State.gate, h]

/-- A read works on the identity of its offset (R55). -/
theorem State.readReg_of_ident {page off off' : Nat} (h : pageIdent page off = pageIdent page off') (s : State) (v : View)
    (be : BitVec 4) (req : Requester) : s.readReg page off v be req = s.readReg page off' v be req := by
  simp only [State.readReg, h]

/-- Settles O7: every rule of an access that depends on the offset works on its identity. -/
theorem aliasesBehaveAlike : Obligations.AliasesBehaveAlike := by
  refine ⟨fun r hr => ?_, fun page off hp ho => ?_, fun page off off' s h => ⟨fun acc => ?_, fun v be req => ?_⟩⟩
  · obtain ⟨k, hlt, hle, hk⟩ := decodeMask_form r hr
    exact ⟨k, hle, by omega, hk⟩
  · obtain ⟨r, hr⟩ := Option.isSome_iff_exists.1 hp
    exact pageIdent_header hr ho
  · exact congrArg Host.Outcome.next (s.writeReg_of_ident h acc)
  · exact congrArg Host.Outcome.next (s.readReg_of_ident h v be req)

/-! ### Offsets without a register (R57) -/

theorem State.readReg_of_noRegister {s : State} {page off : Nat} (hn : regAt page (pageIdent page off) = none) (v : View)
    (be : BitVec 4) {req : Requester} (ha : s.answersPage page req = true) :
    s.readReg page off v be req = { s with readData := 0#32 } := by
  obtain ⟨hoff, hpath, hmap, hboot⟩ := State.answersPage_iff.1 ha
  simp [State.readReg, hoff, hpath, hmap, hboot, hn]

theorem State.writeNowhere_fieldsBut (s : State) (page : Nat) (be : BitVec 4) :
    FieldsBut (F.BLK_LEVEL_armed page :: if be = 0xF#4 then [] else [F.GEN_ACCESS_ERR_narrow, F.GEN_ACCESS_ERR_last_page]) s
      (s.writeNowhere page be) := by
  unfold State.writeNowhere
  extract_lets s1
  have h1 : FieldsBut (F.BLK_LEVEL_armed page ::
      if be = 0xF#4 then [] else [F.GEN_ACCESS_ERR_narrow, F.GEN_ACCESS_ERR_last_page]) s s1 := by
    by_cases hbe : be = 0xF#4
    · simpa only [s1, hbe, if_true] using FieldsBut.refl _ s
    · simp only [s1, hbe, if_false]
      exact ((FieldsBut.refl _ s).satInc (by simp)).put (by simp) _
  by_cases hidle : s.pageShadow page ∨ s.flag (F.BLK_STATUS_in_reset page)
  · rw [if_pos hidle]
    exact h1
  · rw [if_neg hidle]
    exact h1.disarm (by simp)

theorem State.writeNowhere_frame (s : State) (page : Nat) (be : BitVec 4) : RegsAndArmed s (s.writeNowhere page be) := by
  unfold State.writeNowhere
  extract_lets s1
  have h1 : RegsAndArmed s s1 := by
    refine ⟨?_⟩
    simp only [s1]
    split <;> rfl
  split
  · exact h1
  · exact h1.trans (State.disarm_frame _ _)

/-- Settles O8: the checks end the write before the register, and a read finds none. -/
theorem offsetsWithoutRegister : Obligations.OffsetsWithoutRegister := by
  intro page off s hn
  refine ⟨fun v be req ha => congrArg Host.Outcome.next (State.readReg_of_noRegister hn v be ha), fun acc ha hc h57 h58 => ?_⟩
  have hp : page.toNat ≠ 57 ∧ page.toNat ≠ 58 := by constructor <;> bv_omega
  exact ⟨s.writeNowhere page.toNat acc.be,
    congrArg Host.Outcome.next (State.writeReg_of_stop (State.gate_of_noRegister ha hc hp hn)),
    s.writeNowhere_fieldsBut _ _, (s.writeNowhere_frame _ _).frame⟩

end Sys2Proof.Machine
end

section
/-! SUPPORT. The width check, unmapped pages, poisoned writes, the unlock sequence (R45 to R48, R61 to R63, R408). -/

namespace Sys2Proof.Machine

/-! ### Bits -/

theorem Fld.fits_bit {p o b : Nat} (hb : b < 32) : (Fld.mk p o b b).fits := ⟨le_rfl, hb⟩

/-- Registers at different offsets within a page are apart, whatever their pages. -/
theorem Fld.apart_of_off {f g : Fld} (h : f.off < 0x800 ∧ g.off < 0x800 ∧ f.off / 4 ≠ g.off / 4) : f.apart g :=
  Fld.apart_key (by simp only [regKey]; omega)

/-- A bit written reads back. -/
theorem State.get_put_bit (s : State) (p o v : Nat) {b : Nat} (hb : b < 32) : (s.put ⟨p, o, b, b⟩ v).get ⟨p, o, b, b⟩ = v % 2 := by
  rw [State.get_put_same _ _ (Fld.fits_bit hb)]
  simp [Fld.size]

theorem blkLevel_armed_apart_expert (page : Nat) : (F.BLK_LEVEL_armed page).apart (F.BLK_LEVEL_expert page) :=
  Fld.apart_bits (Fld.fits_bit (by decide)) (Fld.fits_bit (by decide)) rfl rfl (by simp)

/-! ### Accesses that are counted (R45, R47, R408) -/

theorem State.unmappedAccess_fieldsBut (s : State) (page : Nat) :
    FieldsBut [F.GEN_ACCESS_ERR_unmapped, F.GEN_ACCESS_ERR_last_page] s (s.unmappedAccess page) :=
  ((FieldsBut.refl _ s).satInc (by simp)).put (by simp) page

/-- An access to an unmapped page is counted, with its page (R45). -/
theorem State.unmappedAccess_get (s : State) {page : Nat} (hp : page < 256) :
    (s.unmappedAccess page).get F.GEN_ACCESS_ERR_unmapped = min (s.get F.GEN_ACCESS_ERR_unmapped + 1) 255
      ∧ (s.unmappedAccess page).get F.GEN_ACCESS_ERR_last_page = page := by
  unfold State.unmappedAccess
  refine ⟨?_, ?_⟩
  · rw [State.get_put_other _ _ (by decide), State.get_satInc_byte _ rfl (by decide)]
  · rw [State.get_put_self _ _ _ (by decide)]
    exact Nat.mod_eq_of_lt hp

/-- A narrow write is counted, with its page (R47). -/
theorem State.countNarrow_get (s : State) {page : Nat} (hp : page < 256) :
    (s.countNarrow page).get F.GEN_ACCESS_ERR_narrow = min (s.get F.GEN_ACCESS_ERR_narrow + 1) 255
      ∧ (s.countNarrow page).get F.GEN_ACCESS_ERR_last_page = page := by
  unfold State.countNarrow
  refine ⟨?_, ?_⟩
  · rw [State.get_put_other _ _ (by decide), State.get_satInc_byte _ rfl (by decide)]
  · rw [State.get_put_self _ _ _ (by decide)]
    exact Nat.mod_eq_of_lt hp

/-- A narrow write to a page of the directory that is no island mirror: counted, and width_err set (R47). -/
theorem State.narrowWrite_eq (s : State) {page : Nat} {r : PageRun} (hr : pageRun page = some r) (hp : page ≠ 57 ∧ page ≠ 58) :
    s.narrowWrite page = (s.countNarrow page).accessErr (F.BLK_STATUS_width_err page) := by
  simp [State.narrowWrite, State.countNarrow, hr, hp]

/-- A page of the arrays is unmapped when the grade lacks its array or discovery recorded its die absent (R45). -/
theorem State.pageUnmapped_arr_iff (s : State) {p : Nat} (hlo : 128 ≤ p) (hhi : p < 224) :
    s.pageUnmapped p = true ↔ s.fuse.perDie ≤ (p - 128) % 24 ∨ s.get (F.CD_STATE_state ((p - 128) / 24)) = 0 := by
  obtain ⟨k, rfl⟩ := Nat.exists_eq_add_of_le hlo
  have hr := pageRun_arr k (by omega)
  simp [State.pageUnmapped, State.cdState, hr, hhi]

theorem State.readReg_of_unmapped {s : State} {page : Nat} {req : Requester} (hoff : s.hubOff = false) (hreq : req ≠ .xs)
    (hu : s.pageUnmapped page = true) (off : Nat) (v : View) (be : BitVec 4) :
    s.readReg page off v be req = { s.unmappedAccess page with readData := 0#32 } := by
  simp [State.readReg, hoff, hreq, hu]

/-- Expert level ended by a write to BLK_LEVEL, the register at identity 8 (R62). -/
def State.lapsed (s : State) (page ident : Nat) : State := if ident = 8 then s.put (F.BLK_LEVEL_expert page) 0 else s

theorem State.lapsed_frame (s : State) (page ident : Nat) : RegsAndArmed s (s.lapsed page ident) := by
  refine ⟨?_⟩
  unfold State.lapsed
  split <;> rfl

theorem FieldsBut.lapsed {fs : List Fld} {s t : State} (h : FieldsBut fs s t) {page : Nat} (hf : F.BLK_LEVEL_expert page ∈ fs)
    (ident : Nat) : FieldsBut fs s (t.lapsed page ident) := by
  unfold State.lapsed
  split
  · exact h.put hf 0
  · exact h

theorem State.get_lapsed (s : State) {page ident : Nat} {g : Fld} (h : (F.BLK_LEVEL_expert page).apart g) :
    (s.lapsed page ident).get g = s.get g :=
  (FieldsBut.refl [F.BLK_LEVEL_expert page] s).lapsed (by simp) ident g (by simpa using h)

theorem State.get_lapsed_expert (s : State) (page ident : Nat) :
    (s.lapsed page ident).get (F.BLK_LEVEL_expert page) = if ident = 8 then 0 else s.get (F.BLK_LEVEL_expert page) := by
  unfold State.lapsed
  split
  · exact State.get_put_bit s page 8 0 (by decide)
  · rfl

/-- What a narrow write to a register leaves (R47, R61, R62). -/
def State.narrowed (s : State) (page ident : Nat) : State :=
  (((s.countNarrow page).accessErr (F.BLK_STATUS_width_err page)).disarm page).lapsed page ident

/-- The fields that a narrow write may change (R47, R61, R62). -/
def narrowFields (page : Nat) : List Fld :=
  [F.BLK_STATUS_width_err page, F.GEN_ACCESS_ERR_narrow, F.GEN_ACCESS_ERR_last_page, F.BLK_LEVEL_armed page, F.BLK_LEVEL_expert page]
    ++ eventFields page 29

theorem State.narrowed_fieldsBut (s : State) (page ident : Nat) : FieldsBut (narrowFields page) s (s.narrowed page ident) := by
  have h1 : FieldsBut (narrowFields page) s (s.countNarrow page) :=
    ((FieldsBut.refl _ s).satInc (by simp [narrowFields])).put (by simp [narrowFields]) _
  exact ((h1.accessErr (by simp [narrowFields]) fun e he => List.mem_append_right _ he).disarm (by simp [narrowFields])).lapsed
    (by simp [narrowFields]) _

theorem State.narrowed_frame (s : State) (page ident : Nat) :
    { s.narrowed page ident with regs := s.regs, armedBy := s.armedBy, flt := s.flt } = s :=
  RegsOnly.regsAndArmed ((((RegsOnly.refl s).put _ _).put _ _).trans (State.regsOnly_accessErr _ _))
    ((State.disarm_frame _ page).trans (State.lapsed_frame _ page ident))

/-- A narrow write reaches BLK_STATUS and BLK_LEVEL of its page, the access event and GEN_ACCESS_ERR; the count stands as noted. -/
theorem State.get_narrowed_gen (s : State) (page ident : Nat) {g : Fld} (hg : regKey g.page g.off = 32) :
    (s.narrowed page ident).get g = (s.countNarrow page).get g := by
  have hlevel : regKey page 8 ≠ regKey g.page g.off := by
    rw [hg]
    simp only [regKey]
    omega
  rw [State.narrowed, State.get_lapsed _ (Fld.apart_key hlevel), State.get_disarm _ (Fld.apart_key hlevel),
    State.get_accessErr _ (Fld.apart_key ?_) (eventFields_apart (q := 0) (o := 0x80) hg (by decide) (by decide) nofun)]
  rw [hg]
  simp only [regKey]
  omega

theorem State.narrowed_get (s : State) {page : Nat} (hp : page < 256) (ident : Nat) :
    let t := s.narrowed page ident
    t.get (F.BLK_STATUS_width_err page) = 1 ∧ t.get F.GEN_ACCESS_ERR_narrow = min (s.get F.GEN_ACCESS_ERR_narrow + 1) 255
      ∧ t.get F.GEN_ACCESS_ERR_last_page = page
      ∧ t.get (F.BLK_LEVEL_expert page) = if ident = 8 then 0 else s.get (F.BLK_LEVEL_expert page) := by
  obtain ⟨hnarrow, hlast⟩ := s.countNarrow_get hp
  refine ⟨?_, ?_, ?_, ?_⟩
  · have hexpert : (F.BLK_LEVEL_expert page).apart (F.BLK_STATUS_width_err page) := Fld.apart_of_off (by simp)
    have harmed : (F.BLK_LEVEL_armed page).apart (F.BLK_STATUS_width_err page) := Fld.apart_of_off (by simp)
    rw [State.narrowed, State.get_lapsed _ hexpert, State.get_disarm _ harmed]
    exact State.get_accessErr_self _ (by decide)
  · rw [s.get_narrowed_gen page ident rfl, hnarrow]
  · rw [s.get_narrowed_gen page ident rfl, hlast]
  · have hnarrow : F.GEN_ACCESS_ERR_narrow.apart (F.BLK_LEVEL_expert page) := Fld.apart_of_off (by simp)
    have hpage : F.GEN_ACCESS_ERR_last_page.apart (F.BLK_LEVEL_expert page) := Fld.apart_of_off (by simp)
    have hwidth : (F.BLK_STATUS_width_err page).apart (F.BLK_LEVEL_expert page) := Fld.apart_of_off (by simp)
    rw [State.narrowed, State.get_lapsed_expert, State.get_disarm _ (blkLevel_armed_apart_expert page),
      State.get_accessErr _ hwidth
        (eventFields_apart (q := page) (o := 8) rfl (by decide) (by decide) fun _ => by decide),
      State.countNarrow, State.get_put_apart _ hpage, State.satInc_eq, State.get_put_apart _ hnarrow]

/-- Settles O9: each access ends at its own check of `State.gate` or `State.readReg`, with what that check counts. -/
theorem accessesIgnored : Obligations.AccessesIgnored := by
  refine ⟨by decide +kernel, fun s p => s.pageUnmapped_arr_iff, fun page off s hoff hu =>
      ⟨fun v be req hreq => ?_, fun acc hreq hc hbe => ?_⟩,
    fun page off acc s ha hc hbe h57 h58 hreg => ?_, fun page off acc s hoff hreq hp => ?_⟩
  · obtain ⟨hcount, hlast⟩ := s.unmappedAccess_get page.isLt
    exact ⟨_, congrArg Host.Outcome.next (State.readReg_of_unmapped hoff hreq hu _ v be), rfl, hcount, hlast,
      (s.unmappedAccess_fieldsBut _).of_regs rfl rfl, rfl⟩
  · obtain ⟨hcount, hlast⟩ := s.unmappedAccess_get page.isLt
    exact ⟨_, congrArg Host.Outcome.next (State.writeReg_of_stop (State.gate_of_unmapped hoff hreq hc hu hbe _)), hcount, hlast,
      s.unmappedAccess_fieldsBut _, rfl⟩
  · have hpage : page.toNat ≠ 57 ∧ page.toNat ≠ 58 := by constructor <;> bv_omega
    obtain ⟨r, hr⟩ := State.pageRun_of_answers ha
    have hgate := State.gate_of_narrow ha hc hpage hreg hbe
    rw [s.narrowWrite_eq hr hpage] at hgate
    obtain ⟨hwidth, hnarrow, hlast, hexpert⟩ := s.narrowed_get page.isLt (pageIdent page.toNat off.toNat)
    exact ⟨s.narrowed page.toNat (pageIdent page.toNat off.toNat), congrArg Host.Outcome.next (State.writeReg_of_stop hgate), hwidth,
      hnarrow, hlast, hexpert, s.narrowed_fieldsBut _ _, s.narrowed_frame _ _⟩
  · refine ⟨s.poisonedIn, congrArg Host.Outcome.next (State.writeReg_of_stop (State.gate_of_poisoned hoff hreq hp _ _)),
      State.eventSet_raise _ _ _ (by decide), ?_, ?_, (((RegsOnly.refl s).put _ _).raise _ _).frame⟩
    · rw [State.poisonedIn, State.get_raise_other _ (by decide) (by decide), State.get_satInc_byte _ rfl (by decide)]
    · exact ((FieldsBut.refl _ s).satInc (by simp)).raise (by simp [eventFields]) (by simp [eventFields])

/-! ### The unlock sequence (R61 to R63) -/

/-- The first word that R63 does not refuse arms the page for its requester and ends expert level (R61, R62). -/
theorem State.levelWrite_first {s : State} {page : Nat} {req : Requester}
    (hallow : req = .host → s.get F.GEN_HOST_EXPERT_allow = 1) (was : Option Requester) :
    s.levelWrite page req (some 0x5A5A#32) was = { (s.put (F.BLK_LEVEL_expert page) 0).put (F.BLK_LEVEL_armed page) 1 with
      armedBy := tabSet s.armedBy page req } := by
  have hno : ¬(req = .host ∧ s.get F.GEN_HOST_EXPERT_allow = 0) := fun ⟨h, h0⟩ => by
    have := hallow h
    omega
  simp only [State.levelWrite, hno, true_or, if_true, if_false]
  rfl

/-- The second word from the requester that armed the page brings expert level (R61). -/
theorem State.levelWrite_second {s : State} {page : Nat} {req : Requester}
    (hallow : req = .host → s.get F.GEN_HOST_EXPERT_allow = 1) :
    s.levelWrite page req (some 0xA5A5#32) (some req) = (s.put (F.BLK_LEVEL_expert page) 0).put (F.BLK_LEVEL_expert page) 1 := by
  have hno : ¬(req = .host ∧ s.get F.GEN_HOST_EXPERT_allow = 0) := fun ⟨h, h0⟩ => by
    have := hallow h
    omega
  have hne : ¬(0xA5A5#32 = 0x5A5A#32) := by decide
  simp only [State.levelWrite, hno, hne, or_true, if_true, if_false]

/-- A word of the host that R63 refuses. -/
theorem State.levelWrite_refused {s : State} {w : Word} (hw : w = 0x5A5A#32 ∨ w = 0xA5A5#32) (h0 : s.get F.GEN_HOST_EXPERT_allow = 0)
    (page : Nat) (was : Option Requester) :
    s.levelWrite page .host (some w) was = (s.put (F.BLK_LEVEL_expert page) 0).accessErr (F.BLK_STATUS_level_reject page) := by
  simp only [State.levelWrite, hw, h0, and_self, if_true]

/-- Any other write to BLK_LEVEL ends expert level (R62). -/
theorem State.levelWrite_other {word : Option Word} (hw : ∀ w, word = some w → w ≠ 0x5A5A#32 ∧ w ≠ 0xA5A5#32) (s : State) (page : Nat)
    (req : Requester) (was : Option Requester) : s.levelWrite page req word was = s.put (F.BLK_LEVEL_expert page) 0 := by
  cases word with
  | none => rfl
  | some w =>
    obtain ⟨h1, h2⟩ := hw w rfl
    simp only [State.levelWrite, h1, h2, or_self, if_false]

/-- A full-width write to BLK_LEVEL of a page that takes writes: the page is disarmed, then the word is considered (R61, R62). -/
theorem State.writeReg_level {s : State} {page : Nat} {acc : Acc} (ht : s.takesWrites page acc = true) (hbe : acc.be = 0xF#4) :
    s.writeReg page 8 acc = (s.disarm page).levelWrite page acc.req (if acc.view = .base then some acc.val else none)
      (tabFind s.armedBy page) := by
  obtain ⟨ha, -⟩ := State.takesWrites_iff.1 ht
  obtain ⟨r, hr⟩ := State.pageRun_of_answers ha
  have hident : pageIdent page 8 = 8 := pageIdent_header hr (by decide)
  have hgate := State.gate_of_register (off := 8) ht hbe (by rw [hident]; exact regAt_header_isSome hr (by decide))
  rw [if_pos hident] at hgate
  exact State.writeReg_of_stop hgate

/-- A page that is disarmed reads so, if it was armed at all. -/
theorem State.get_disarm_armed {s : State} {page : Nat} (h : (tabFind s.armedBy page).isSome = true) :
    (s.disarm page).get (F.BLK_LEVEL_armed page) = 0 := by
  rw [State.disarm, if_pos h]
  exact State.get_put_bit s page 8 0 (by decide)

/-- The two bits of BLK_LEVEL. -/
def levelFields (page : Nat) : List Fld := [F.BLK_LEVEL_armed page, F.BLK_LEVEL_expert page]

theorem State.disarm_levelFields (s : State) (page : Nat) : FieldsBut (levelFields page) s (s.disarm page) :=
  (FieldsBut.refl _ s).disarm (by simp [levelFields])

/-- No unlock sequence changes whether BAR0 may unlock pages. -/
theorem State.get_disarm_allow (s : State) (page : Nat) : (s.disarm page).get F.GEN_HOST_EXPERT_allow = s.get F.GEN_HOST_EXPERT_allow :=
  s.get_disarm (Fld.apart_key (by simp only [regKey]; omega))

end Sys2Proof.Machine
end

section
/-! SUPPORT. What storing a register leaves: who armed the page, the voted values (R51 to R58), the unlock sequence (R61 to R63). -/

namespace Sys2Proof.Machine

/-! ### Votes and repairs (R58) -/

/-- Three copies that agree, none of which differs from the majority. -/
theorem RegCell.wrong_eq_none_iff {c : RegCell} : c.wrong = none ↔ c.c0 = c.vote ∧ c.c1 = c.vote ∧ c.c2 = c.vote := by
  unfold RegCell.wrong
  by_cases h0 : c.c0 = c.vote <;> by_cases h1 : c.c1 = c.vote <;> by_cases h2 : c.c2 = c.vote <;> simp [h0, h1, h2]

/-- Three equal copies vote as they are. -/
@[simp] theorem RegCell.vote_same (w : Word) : (RegCell.mk w w w).vote = w := by simp [RegCell.vote]

@[simp] theorem RegCell.mended_vote (c : RegCell) : c.mended.vote = c.vote := RegCell.vote_same _

@[simp] theorem RegCell.mended_wrong (c : RegCell) : c.mended.wrong = none := by
  rw [RegCell.wrong_eq_none_iff, RegCell.mended_vote]
  exact ⟨rfl, rfl, rfl⟩

/-- A register that the register table does not list has equal copies. -/
theorem State.listed_of_wrong {s : State} {p o : Nat} (h : (s.cell p o).wrong ≠ none) : ∃ c, tabFind s.regs (regKey p o) = some c := by
  cases hc : tabFind s.regs (regKey p o) with
  | some c => exact ⟨c, rfl⟩
  | none =>
    refine absurd ?_ h
    simp [State.cell, hc, RegCell.wrong_eq_none_iff]

/-- A disagreeing register rewritten from its majority: every field reads as before. -/
theorem State.get_putWord_vote (s : State) {p o : Nat} (h : (s.cell p o).wrong ≠ none) (g : Fld) :
    (s.putWord p o (s.regWord p o)).get g = s.get g := by
  by_cases hk : regKey p o = regKey g.page g.off
  · obtain ⟨c, hc⟩ := State.listed_of_wrong h
    have hg : tabFind s.regs (regKey g.page g.off) = some c := hk ▸ hc
    have hold : s.regWord g.page g.off = c.vote := by simp [State.regWord, State.cell, hg]
    have hnew : (s.putWord p o (s.regWord p o)).regWord g.page g.off = c.vote := by
      simp [State.regWord, State.cell, State.putWord, hc, ← hk]
    rw [State.get, State.get, hold, hnew]
  · exact State.get_putWord_apart s (Fld.apart_key hk) _

/-- The fields that a repair of a register of the page may change: its record and its event (R58). -/
def repairFields (page : Nat) : List Fld := [wholeReg page 0x018] ++ eventFields page 31

/-- A field of BLK_VOTE_STATUS is part of the record of repairs. -/
theorem wholeReg_apart_field {p o : Nat} {f g : Fld} (hp : f.page = p) (ho : f.off = o) (h : (wholeReg p o).apart g) : f.apart g := by
  subst hp ho
  rcases h with h | ⟨hp, ho, hm⟩
  · exact .inl h
  · have hall : (wholeReg f.page f.off).mask = BitVec.allOnes 32 := by
      simp only [wholeReg, Fld.mask]
      decide
    rw [hall, BitVec.allOnes_and] at hm
    exact .inr ⟨hp, ho, by rw [hm, BitVec.and_zero]⟩

/-- A field of a register that may change as a whole. -/
theorem FieldsBut.put_within {fs : List Fld} {s t : State} (h : FieldsBut fs s t) {p o : Nat} (hw : wholeReg p o ∈ fs) {f : Fld}
    (hp : f.page = p) (ho : f.off = o) (v : Nat) : FieldsBut fs s (t.put f v) :=
  fun g hg => (State.get_put_apart t (wholeReg_apart_field hp ho (hg _ hw)) v).trans (h g hg)

theorem FieldsBut.repairNote {fs : List Fld} {s t : State} (h : FieldsBut fs s t) {page : Nat} (hf : ∀ f ∈ repairFields page, f ∈ fs)
    (ident copy : Nat) (scrub : Bool) : FieldsBut fs s (t.repairNote page ident copy scrub) := by
  have hw : wholeReg page 0x18 ∈ fs := hf _ (by simp [repairFields])
  exact ((((h.put_within hw rfl rfl _).put_within hw rfl rfl _).put_within hw rfl rfl _).put_within hw rfl rfl _).raise
    (hf _ (by simp [repairFields, eventFields])) (hf _ (by simp [repairFields, eventFields]))

/-- From `s` to `t` nothing changed but registers, the events at the collector and what stands behind the select registers of tumbler
fields. -/
structure VotesOnly (s t : State) : Prop where
  frame : { t with
    regs := s.regs
    flt := s.flt
    streams := s.streams
    fus := s.fus
    xgs := s.xgs
    mcs := s.mcs
    sec := s.sec } = s

theorem VotesOnly.refl (s : State) : VotesOnly s s := ⟨rfl⟩

theorem VotesOnly.trans {s t u : State} (h : VotesOnly s t) (k : VotesOnly t u) : VotesOnly s u := by
  refine ⟨?_⟩
  calc _ = { ({ u with
        regs := t.regs
        flt := t.flt
        streams := t.streams
        fus := t.fus
        xgs := t.xgs
        mcs := t.mcs
        sec := t.sec } : State) with
        regs := s.regs
        flt := s.flt
        streams := s.streams
        fus := s.fus
        xgs := s.xgs
        mcs := s.mcs
        sec := s.sec } := rfl
    _ = _ := by rw [k.frame]
    _ = s := h.frame

theorem VotesOnly.foldl {ι : Type} (op : State → ι → State) (hop : ∀ u i, VotesOnly u (op u i)) (l : List ι) (s : State) :
    VotesOnly s (l.foldl op s) :=
  List.foldlRecOn l op (VotesOnly.refl s) fun u hu i _ => hu.trans (hop u i)

theorem RegsOnly.votesOnly {s t : State} (h : RegsOnly s t) : VotesOnly s t := by
  refine ⟨?_⟩
  calc _ = { ({ t with regs := s.regs, flt := s.flt } : State) with
        streams := s.streams
        fus := s.fus
        xgs := s.xgs
        mcs := s.mcs
        sec := s.sec } := rfl
    _ = _ := by rw [h.frame]

theorem State.repairNote_regsOnly (s : State) (page ident copy : Nat) (scrub : Bool) : RegsOnly s (s.repairNote page ident copy scrub) :=
  (((((RegsOnly.refl s).put _ _).put _ _).put _ _).put _ _).raise _ _

/-- One selected register mended: registers and fuses stay. -/
theorem State.selMend_regs (s : State) (b : Blk) (inst ident k : Nat) :
    (s.selMend b inst ident k).regs = s.regs ∧ (s.selMend b inst ident k).fuse = s.fuse := by
  cases b <;> exact ⟨rfl, rfl⟩

theorem State.selMend_votesOnly (s : State) (b : Blk) (inst ident k : Nat) : VotesOnly s (s.selMend b inst ident k) := by
  cases b <;> exact ⟨rfl⟩

/-- One selected register voted: mended and noted if its copies differ. -/
def State.selVote (s : State) (page ident : Nat) (b : Blk) (inst : Nat) (scrub : Bool) (e : Nat × Nat × RegCell) : State :=
  match e.2.2.wrong with
  | none => s
  | some k => (s.selMend b inst ident e.2.1).repairNote page ident k scrub

/-- The selected registers that a repair at an identity votes. -/
def State.selVoted (s : State) (b : Blk) (inst ident : Nat) (scrub : Bool) : List (Nat × Nat × RegCell) :=
  (s.selCells b inst).filter fun e => decide (e.1 = ident ∧ (scrub = true ∨ e.2.1 = s.selected b inst ident))

theorem State.selRepair_eq (s : State) {page : Nat} {r : PageRun} (hr : pageRun page = some r) (ident : Nat) (scrub : Bool) :
    s.selRepair page ident scrub = (s.selVoted r.blk (page - r.first) ident scrub).foldl
      (fun u e => u.selVote page ident r.blk (page - r.first) scrub e) s := by
  simp only [State.selRepair, hr]
  rfl

theorem FieldsBut.selVote {fs : List Fld} {s t : State} (h : FieldsBut fs s t) {page : Nat} (hf : ∀ f ∈ repairFields page, f ∈ fs)
    (ident : Nat) (b : Blk) (inst : Nat) (scrub : Bool) (e : Nat × Nat × RegCell) :
    FieldsBut fs s (t.selVote page ident b inst scrub e) := by
  unfold State.selVote
  split
  · exact h
  · obtain ⟨hregs, hfuse⟩ := t.selMend_regs b inst ident e.2.1
    exact (h.of_regs hregs hfuse).repairNote hf _ _ _

theorem State.selVote_votesOnly (s : State) (page ident : Nat) (b : Blk) (inst : Nat) (scrub : Bool) (e : Nat × Nat × RegCell) :
    VotesOnly s (s.selVote page ident b inst scrub e) := by
  unfold State.selVote
  split
  · exact VotesOnly.refl s
  · exact (s.selMend_votesOnly _ _ _ _).trans (State.repairNote_regsOnly _ _ _ _ _).votesOnly

/-- The register itself voted: rewritten and noted if its copies differ. -/
def State.cellVote (s : State) (page ident : Nat) (scrub : Bool) : State :=
  match (s.cell page ident).wrong with
  | none => s
  | some k => (s.putWord page ident (s.regWord page ident)).repairNote page ident k scrub

theorem State.repair_eq (s : State) (page ident : Nat) (scrub : Bool) :
    s.repair page ident scrub = (s.cellVote page ident scrub).selRepair page ident scrub := rfl

theorem FieldsBut.cellVote {fs : List Fld} {s t : State} (h : FieldsBut fs s t) {page : Nat} (hf : ∀ f ∈ repairFields page, f ∈ fs)
    (ident : Nat) (scrub : Bool) : FieldsBut fs s (t.cellVote page ident scrub) := by
  unfold State.cellVote
  split
  · exact h
  next k hw =>
    have hvote : FieldsBut fs s (t.putWord page ident (t.regWord page ident)) :=
      fun g hg => (t.get_putWord_vote (by rw [hw]; exact nofun) g).trans (h g hg)
    exact hvote.repairNote hf _ _ _

theorem State.cellVote_regsOnly (s : State) (page ident : Nat) (scrub : Bool) : RegsOnly s (s.cellVote page ident scrub) := by
  unfold State.cellVote
  split
  · exact RegsOnly.refl s
  · exact ((RegsOnly.refl s).putWord _ _ _).trans (State.repairNote_regsOnly _ _ _ _ _)

/-- A repair changes the record of repairs and its event, and no value that a field shows (R58). -/
theorem FieldsBut.repair {fs : List Fld} {s t : State} (h : FieldsBut fs s t) {page : Nat} (hf : ∀ f ∈ repairFields page, f ∈ fs)
    (ident : Nat) (scrub : Bool) : FieldsBut fs s (t.repair page ident scrub) := by
  rw [State.repair_eq]
  cases hr : pageRun page with
  | none => simpa only [State.selRepair, hr] using h.cellVote hf ident scrub
  | some r =>
    rw [State.selRepair_eq _ hr]
    exact (h.cellVote hf ident scrub).foldl _ _ fun u hu e _ => hu.selVote hf _ _ _ _ e

theorem State.repair_votesOnly (s : State) (page ident : Nat) (scrub : Bool) : VotesOnly s (s.repair page ident scrub) := by
  rw [State.repair_eq]
  cases hr : pageRun page with
  | none => simpa only [State.selRepair, hr] using (s.cellVote_regsOnly page ident scrub).votesOnly
  | some r =>
    rw [State.selRepair_eq _ hr]
    exact (s.cellVote_regsOnly page ident scrub).votesOnly.trans
      (VotesOnly.foldl _ (fun u e => u.selVote_votesOnly _ _ _ _ _ e) _ _)

/-! ### Who armed a page -/

theorem VotesOnly.armedBy {s t : State} (h : VotesOnly s t) : t.armedBy = s.armedBy := (congrArg State.armedBy h.frame :)

theorem RegsOnly.armedBy {s t : State} (h : RegsOnly s t) : t.armedBy = s.armedBy := (congrArg State.armedBy h.frame :)

theorem RegsOnly.putMax {s t : State} (h : RegsOnly s t) (f : Fld) (v : Nat) : RegsOnly s (t.putMax f v) := by
  unfold State.putMax
  split
  · exact h.put _ _
  · exact h

theorem State.wqShow_regsOnly (s : State) (k : Nat) : RegsOnly s (s.wqShow k) := ((RegsOnly.refl s).put _ _).putMax _ _

theorem State.mcMode_armedBy (s : State) (k : Nat) : (s.mcMode k).armedBy = s.armedBy := by
  have hempty : (s.wqEmpty k).armedBy = s.armedBy := (State.wqShow_regsOnly _ k).armedBy
  unfold State.mcMode
  extract_lets m
  split
  · rfl
  · split
    · rfl
    · split
      · split
        · exact hempty
        · rfl
      · rfl

theorem State.memgNormal_armedBy (s : State) : s.memgNormal.armedBy = s.armedBy := by
  refine List.foldlRecOn (motive := fun u : State => u.armedBy = s.armedBy) _ _ ?_ fun u hu k _ => (State.mcMode_armedBy u k).trans hu
  split <;> rfl

theorem State.setView_armedBy {s t : State} {b : Blk} {inst ident : Nat} {w : Word} (h : s.setView b inst ident w = some t) :
    t.armedBy = s.armedBy := by
  unfold State.setView at h
  split at h
  · simp only [State.mcSetView, Option.ite_none_right_eq_some, Option.some.injEq] at h
    obtain ⟨-, rfl⟩ := h
    rfl
  · simp only [State.projSetView, Option.ite_none_right_eq_some, Option.some.injEq] at h
    obtain ⟨-, rfl⟩ := h
    rfl
  · simp only [State.fusSetView] at h
    split at h
    all_goals cases h
    all_goals rfl
  · simp only [State.xgsSetView, Option.ite_none_right_eq_some, Option.some.injEq] at h
    obtain ⟨-, rfl⟩ := h
    rfl
  · cases h

theorem State.irqEdge_regsOnly (s : State) (l : Bool) (p : Nat) : RegsOnly s (s.irqEdge l p) := by
  unfold State.irqEdge
  split
  · exact (RegsOnly.refl s).put _ _
  · exact RegsOnly.refl s

theorem State.afterWrite_armedBy (s : State) (b : Blk) (inst ident : Nat) : (s.afterWrite b inst ident).armedBy = s.armedBy := by
  unfold State.afterWrite
  split
  · split
    · exact s.mcMode_armedBy inst
    · rfl
  · split
    · exact s.memgNormal_armedBy
    · rfl
  · split
    · unfold State.capsShow
      extract_lets old new
      split
      · rfl
      · exact State.raise_armedBy _ _ _
    · rfl
  · split <;> rfl
  · split
    · split
      · split <;> rfl
      · rfl
    · rfl
  · rfl

/-- Storing a register arms and disarms no page. -/
theorem State.storeReg_armedBy (s : State) (page ident : Nat) (acc : Acc) : (s.storeReg page ident acc).armedBy = s.armedBy := by
  unfold State.storeReg
  split
  next r d _ _ =>
    extract_lets inst s1 old cm new
    have h1 : s1.armedBy = s.armedBy := by
      simp only [s1]
      split
      · rfl
      · exact (s.repair_votesOnly _ _ _).armedBy
    split
    · exact h1
    · exact (State.regsOnly_accessErr s1 _).armedBy.trans h1
    next w _ =>
      rw [State.afterWrite_armedBy, (State.irqEdge_regsOnly _ _ _).armedBy]
      cases hv : s1.setView r.blk inst ident w with
      | none => exact h1
      | some u => exact (State.setView_armedBy hv).trans h1
  · rfl

end Sys2Proof.Machine
end

section
/-! SUPPORT. The unlock sequence as a whole (R61 to R63), and BLK_FAULT_ROUTE (R65). -/

namespace Sys2Proof.Machine

/-! ### Writes to BLK_LEVEL -/

/-- The first word leaves the page armed at basic level (R61, R62). -/
theorem State.writeLevel_first {s : State} {page : Nat} {acc : Acc} (ht : s.takesWrites page acc = true) (hbe : acc.be = 0xF#4)
    (hv : acc.view = .base) (hw : acc.val = 0x5A5A#32) (hallow : acc.req = .host → s.get F.GEN_HOST_EXPERT_allow = 1) :
    let t := s.writeReg page 8 acc
    t.get (F.BLK_LEVEL_armed page) = 1 ∧ t.get (F.BLK_LEVEL_expert page) = 0 ∧ tabFind t.armedBy page = some acc.req
      ∧ FieldsBut (levelFields page) s t ∧ RegsAndArmed s t := by
  rw [State.writeReg_level ht hbe, hv, hw, if_pos rfl, State.levelWrite_first (fun h => (s.get_disarm_allow page).trans (hallow h))]
  refine ⟨State.get_put_bit _ page 8 1 (by decide), ?_, tabFind_tabSet_same _ _ _, ?_, (s.disarm_frame page).trans ⟨rfl⟩⟩
  · exact (State.get_put_apart _ (blkLevel_armed_apart_expert page) 1).trans (State.get_put_bit _ page 8 0 (by decide))
  · exact (((s.disarm_levelFields page).put (by simp [levelFields]) 0).put (by simp [levelFields]) 1).of_regs rfl rfl

/-- The second word leaves the page disarmed at expert level (R61). -/
theorem State.writeLevel_second {s : State} {page : Nat} {acc : Acc} (ht : s.takesWrites page acc = true) (hbe : acc.be = 0xF#4)
    (hv : acc.view = .base) (hw : acc.val = 0xA5A5#32) (harmed : tabFind s.armedBy page = some acc.req)
    (hallow : acc.req = .host → s.get F.GEN_HOST_EXPERT_allow = 1) :
    let t := s.writeReg page 8 acc
    t.get (F.BLK_LEVEL_armed page) = 0 ∧ t.get (F.BLK_LEVEL_expert page) = 1 ∧ tabFind t.armedBy page = none
      ∧ FieldsBut (levelFields page) s t ∧ RegsAndArmed s t := by
  have hapart := Fld.apart_symm (blkLevel_armed_apart_expert page)
  rw [State.writeReg_level ht hbe, hv, hw, if_pos rfl, harmed,
    State.levelWrite_second (fun h => (s.get_disarm_allow page).trans (hallow h))]
  refine ⟨?_, State.get_put_bit _ page 8 1 (by decide), s.disarm_armedBy page, ?_, (s.disarm_frame page).trans ⟨rfl⟩⟩
  · exact (State.get_put_apart _ hapart 1).trans
      ((State.get_put_apart _ hapart 0).trans (State.get_disarm_armed (by rw [harmed]; rfl)))
  · exact ((s.disarm_levelFields page).put (by simp [levelFields]) 0).put (by simp [levelFields]) 1

/-- A word that R63 refuses leaves the page disarmed at basic level, with level_reject set. -/
theorem State.writeLevel_refused {s : State} {page : Nat} {acc : Acc} (ht : s.takesWrites page acc = true) (hbe : acc.be = 0xF#4)
    (hv : acc.view = .base) (hw : acc.val = 0x5A5A#32 ∨ acc.val = 0xA5A5#32) (hreq : acc.req = .host)
    (h0 : s.get F.GEN_HOST_EXPERT_allow = 0) :
    let t := s.writeReg page 8 acc
    t.get (F.BLK_LEVEL_expert page) = 0 ∧ t.get (F.BLK_STATUS_level_reject page) = 1 ∧ tabFind t.armedBy page = none
      ∧ FieldsBut ([F.BLK_LEVEL_armed page, F.BLK_LEVEL_expert page, F.BLK_STATUS_level_reject page] ++ eventFields page 29) s t
      ∧ { t with regs := s.regs, armedBy := s.armedBy, flt := s.flt } = s := by
  rw [State.writeReg_level ht hbe, hv, hreq, if_pos rfl, State.levelWrite_refused hw ((s.get_disarm_allow page).trans h0)]
  have hframe : RegsAndArmed s ((s.disarm page).put (F.BLK_LEVEL_expert page) 0) := (s.disarm_frame page).trans ⟨rfl⟩
  have hreject : (F.BLK_STATUS_level_reject page).apart (F.BLK_LEVEL_expert page) := Fld.apart_of_off (by simp)
  refine ⟨?_, State.get_accessErr_self _ (by decide), ?_, ?_, hframe.regsOnly (State.regsOnly_accessErr _ _)⟩
  · rw [State.get_accessErr _ hreject (eventFields_apart (q := page) (o := 8) rfl (by decide) (by decide) fun _ => by decide)]
    exact State.get_put_bit _ page 8 0 (by decide)
  · rw [(State.regsOnly_accessErr _ _).armedBy]
    exact s.disarm_armedBy page
  · exact (((FieldsBut.refl _ s).disarm (by simp)).put (by simp) 0).accessErr (by simp) fun e he => List.mem_append_right _ he

/-- Any other write leaves the page disarmed at basic level (R61, R62). -/
theorem State.writeLevel_other {s : State} {page : Nat} {acc : Acc} (ht : s.takesWrites page acc = true) (hbe : acc.be = 0xF#4)
    (hw : acc.view ≠ .base ∨ (acc.val ≠ 0x5A5A#32 ∧ acc.val ≠ 0xA5A5#32)) :
    let t := s.writeReg page 8 acc
    t.get (F.BLK_LEVEL_expert page) = 0 ∧ tabFind t.armedBy page = none ∧ FieldsBut (levelFields page) s t ∧ RegsAndArmed s t := by
  have hword : ∀ w, (if acc.view = .base then some acc.val else none) = some w → w ≠ 0x5A5A#32 ∧ w ≠ 0xA5A5#32 := by
    intro w h
    simp only [Option.ite_none_right_eq_some, Option.some.injEq] at h
    obtain ⟨hv, rfl⟩ := h
    exact hw.resolve_left (not_not_intro hv)
  rw [State.writeReg_level ht hbe, State.levelWrite_other hword]
  exact ⟨State.get_put_bit _ page 8 0 (by decide), s.disarm_armedBy page, (s.disarm_levelFields page).put (by simp [levelFields]) 0,
    (s.disarm_frame page).trans ⟨rfl⟩⟩

/-! ### What abandons a sequence -/

/-- Any write but one to BLK_LEVEL leaves nobody with the page armed (R61). -/
theorem State.writeReg_disarms {s : State} {page off : Nat} {acc : Acc} (ht : s.takesWrites page acc = true)
    (hident : pageIdent page off ≠ 8) : tabFind (s.writeReg page off acc).armedBy page = none := by
  obtain ⟨ha, hc, hp, hshadow, hrst⟩ := State.takesWrites_iff.1 ht
  cases hreg : regAt page (pageIdent page off) with
  | none =>
    rw [State.writeReg_of_stop (State.gate_of_noRegister ha hc hp hreg), State.writeNowhere, if_neg (by simp [hshadow, hrst])]
    exact State.disarm_armedBy _ _
  | some d =>
    have hreg : (regAt page (pageIdent page off)).isSome = true := by rw [hreg]; rfl
    by_cases hbe : acc.be = 0xF#4
    · have hgate := State.gate_of_register ht hbe hreg
      rw [if_neg hident] at hgate
      split at hgate
      · rw [State.writeReg_of_stop hgate, (State.regsOnly_accessErr _ _).armedBy]
        exact State.disarm_armedBy _ _
      · rw [State.writeReg_of_pass hgate, State.storeReg_armedBy]
        exact State.disarm_armedBy _ _
    · have hgate := State.gate_of_narrow ha hc hp hreg hbe
      rw [if_neg hident] at hgate
      rw [State.writeReg_of_stop hgate]
      exact State.disarm_armedBy _ _

/-! ### GEN_HOST_EXPERT (R63) -/

/-- An interrupt whose level did not rise raises no vector (R409). -/
theorem State.irqEdge_of_level {s : State} {page : Nat} {l : Bool} (h : s.irqLevel page = l) : s.irqEdge l page = s := by
  subst h
  cases hl : s.irqLevel page <;> simp [State.irqEdge, hl]

/-- A register other than BLK_IRQ_STATUS and BLK_IRQ_ENABLE written leaves the interrupt as it was. -/
theorem State.irqLevel_putWord (s : State) {p o : Nat} (w : Word) (page : Nat) (h1 : regKey p o ≠ regKey page 0x10)
    (h2 : regKey p o ≠ regKey page 0x14) : (s.putWord p o w).irqLevel page = s.irqLevel page := by
  simp only [State.irqLevel, State.regWord_putWord_ne _ _ _ _ _ _ h1, State.regWord_putWord_ne _ _ _ _ _ _ h2]

/-- GEN_HOST_EXPERT. -/
def hostExpertReg : RegDef := ⟨0x100, 0, 1, [⟨0, 0, .rwv, 1⟩]⟩

theorem regAt_hostExpert : regAt 0 0x100 = some hostExpertReg := by decide +kernel

/-- A base write to GEN_HOST_EXPERT offers its bit 0. -/
theorem writtenWord_hostExpert (old val : Word) :
    writtenWord hostExpertReg .base old val = F.GEN_HOST_EXPERT_allow.ins val.toNat old := by
  have hw : BitVec.ofNat 32 (hostExpertReg.maskOf FAcc.writable) = F.GEN_HOST_EXPERT_allow.mask := by decide
  have hc : BitVec.ofNat 32 (hostExpertReg.maskOf (· == .w1c)) = 0#32 := by decide
  simp only [writtenWord, viewValue, hw, hc, if_true, Fld.ins, BitVec.and_zero, BitVec.ofNat_toNat, BitVec.setWidth_eq,
    BitVec.shiftLeft_zero]
  exact BitVec.and_allOnes

/-- A base write to GEN_HOST_EXPERT stores bit 0 from the management complex and nothing from another requester (R63). -/
theorem State.storeReg_hostExpert (s : State) {acc : Acc} (hv : acc.view = .base) :
    s.storeReg 0 0x100 acc =
      if acc.req = .mgmt then s.putWord 0 0x100 (F.GEN_HOST_EXPERT_allow.ins acc.val.toNat (s.regWord 0 0x100)) else s := by
  have hshown : s.shown 0 0x100 = s.regWord 0 0x100 := rfl
  have hedge : ∀ w, (s.putWord 0 0x100 w).irqEdge (s.irqLevel 0) 0 = s.putWord 0 0x100 w :=
    fun w => State.irqEdge_of_level (s.irqLevel_putWord w 0 (by decide) (by decide))
  have hrun : pageRun 0 = some ⟨.gen, 0, 1, 0, 0xFF⟩ := rfl
  simp only [State.storeReg, hrun, regAt_hostExpert, hv, if_true, hshown, writtenWord_hostExpert, cmdMask, BitVec.not_zero,
    BitVec.and_allOnes, BitVec.and_zero, BitVec.or_zero]
  by_cases hreq : acc.req = .mgmt
  · simp [State.writeRule, State.setView, State.afterWrite, hreq, hedge]
  · simp [State.writeRule, hreq]

/-- A field written into the word of its register, all copies rewritten. -/
theorem State.get_putWord_ins (s : State) {f g : Fld} (h : f.apart g) (v : Nat) :
    (s.putWord f.page f.off (f.ins v (s.regWord f.page f.off))).get g = s.get g := by
  rcases h with h | ⟨hp, ho, hm⟩
  · exact State.get_putWord_apart s (.inl h) _
  · rw [State.get_putWord_same s _ _ _ g hp.symm ho.symm, Fld.ext_ins_apart f g hm, State.get, hp, ho]

/-- A base write at expert level: the value of the management complex is taken, and no other requester's (R63). -/
theorem State.writeReg_hostExpert {s : State} {acc : Acc} (ht : s.takesWrites 0 acc = true) (hbe : acc.be = 0xF#4)
    (hv : acc.view = .base) (hx : s.get (F.BLK_LEVEL_expert 0) = 1) :
    let t := s.writeReg 0 0x100 acc
    t.get F.GEN_HOST_EXPERT_allow = (if acc.req = .mgmt then acc.val.toNat % 2 else s.get F.GEN_HOST_EXPERT_allow)
      ∧ FieldsBut [F.GEN_HOST_EXPERT_allow, F.BLK_LEVEL_armed 0] s t ∧ RegsAndArmed s t := by
  have hident : pageIdent 0 0x100 = 0x100 := by decide
  have hgate := State.gate_of_register (off := 0x100) ht hbe (by rw [hident, regAt_hostExpert]; rfl)
  rw [hident, if_neg (by decide), if_neg (by simp [State.flag, hx])] at hgate
  rw [State.writeReg_of_pass hgate, State.storeReg_hostExpert _ hv]
  have hdisarm : FieldsBut [F.GEN_HOST_EXPERT_allow, F.BLK_LEVEL_armed 0] s (s.disarm 0) := (FieldsBut.refl _ s).disarm (by simp)
  split
  · refine ⟨?_, fun g hg => ?_, (s.disarm_frame 0).trans ⟨rfl⟩⟩
    · rw [State.get_putWord_same _ _ _ _ F.GEN_HOST_EXPERT_allow rfl rfl, Fld.ext_ins_self _ (Fld.fits_bit (by decide))]
      rfl
    · exact (State.get_putWord_ins _ (hg F.GEN_HOST_EXPERT_allow (by simp)) _).trans (hdisarm g hg)
  · exact ⟨s.get_disarm_allow 0, hdisarm, s.disarm_frame 0⟩

/-- Settles O11: each clause by the outcome of the write to BLK_LEVEL that it speaks of. -/
theorem unlockSequence : Obligations.UnlockSequence := by
  intro page acc s
  refine ⟨fun ht hbe => ⟨fun hv hw hallow => ?_, fun hv hw harmed hallow => ?_, fun hv hw hreq h0 => ?_, fun hw => ?_⟩,
    fun harmed => ?_, fun off ht hident => ?_, fun ht hbe hv hx => ?_⟩
  · obtain ⟨harm, hexpert, hby, hfields, hframe⟩ := State.writeLevel_first ht hbe hv hw hallow
    exact ⟨_, rfl, harm, hexpert, hby, hfields, hframe.frame⟩
  · obtain ⟨harm, hexpert, hby, hfields, hframe⟩ := State.writeLevel_second ht hbe hv hw harmed hallow
    exact ⟨_, rfl, harm, hexpert, hby, hfields, hframe.frame⟩
  · exact ⟨_, rfl, State.writeLevel_refused ht hbe hv hw hreq h0⟩
  · obtain ⟨hexpert, hby, hfields, hframe⟩ := State.writeLevel_other ht hbe hw
    exact ⟨_, rfl, hexpert, hby, hfields, hframe.frame⟩
  · exact ⟨_, rfl, State.get_disarm_armed (by rw [harmed]; rfl), s.disarm_armedBy _, (FieldsBut.refl _ s).disarm (by simp),
      (s.disarm_frame _).frame⟩
  · exact ⟨_, rfl, State.writeReg_disarms ht hident⟩
  · obtain ⟨hallow, hfields, hframe⟩ := State.writeReg_hostExpert ht hbe hv hx
    exact ⟨_, rfl, hallow, hfields, hframe.frame⟩

/-! ### BLK_FAULT_ROUTE (R65) -/

/-- The fields that the checks of a write may change, whatever becomes of it (R45 to R63, R408). -/
def checkFields (page : Nat) : List Fld :=
  [F.GEN_ACCESS_ERR_narrow, F.GEN_ACCESS_ERR_unmapped, F.GEN_ACCESS_ERR_last_page, F.PCIE_ERR_poisoned_in, F.BLK_LEVEL_armed page,
    F.BLK_LEVEL_expert page, F.BLK_STATUS_width_err page, F.BLK_STATUS_level_reject page]
    ++ eventFields page 29 ++ eventFields pgPCIE Ev.PCIE_poisoned_in

theorem mem_checkFields_of_event {page : Nat} {e : Fld} (h : e ∈ eventFields page 29) : e ∈ checkFields page := by
  simp only [checkFields, List.mem_append]
  exact .inl (.inr h)

theorem FieldsBut.levelWrite {s t : State} {page : Nat} (h : FieldsBut (checkFields page) s t) (req : Requester) (word : Option Word)
    (was : Option Requester) : FieldsBut (checkFields page) s (t.levelWrite page req word was) := by
  unfold State.levelWrite
  extract_lets s1
  have h1 : FieldsBut (checkFields page) s s1 := h.put (by simp [checkFields]) 0
  clear_value s1
  split
  · exact h1
  · split
    · split
      · exact h1.accessErr (by simp [checkFields]) fun e => mem_checkFields_of_event
      · split
        · exact (h1.put (f := F.BLK_LEVEL_armed page) (by simp [checkFields]) 1).of_regs rfl rfl
        · split
          · exact h1.put (by simp [checkFields]) 1
          · exact h1
    · exact h1

theorem FieldsBut.narrowWrite {s t : State} {page : Nat} (h : FieldsBut (checkFields page) s t) :
    FieldsBut (checkFields page) s (t.narrowWrite page) := by
  have h1 := (h.satInc (f := F.GEN_ACCESS_ERR_narrow) (by simp [checkFields])).put (f := F.GEN_ACCESS_ERR_last_page)
    (by simp [checkFields]) page
  unfold State.narrowWrite
  extract_lets s1
  split
  · exact h1
  · exact h1.accessErr (by simp [checkFields]) fun e => mem_checkFields_of_event

/-- The state in which a write leaves the checks: where it ends there, or where it goes on to its register. -/
def Gate.state : Gate → State
  | .stop s => s
  | .pass s _ => s

/-- Whatever the checks make of a write, they change no field but those of `checkFields`. -/
theorem State.gate_fieldsBut (s : State) (page off : Nat) (acc : Acc) :
    FieldsBut (checkFields page) s (s.gate page off acc).state := by
  have h0 := FieldsBut.refl (checkFields page) s
  have hnarrow : FieldsBut (checkFields page) s (if acc.be = 0xF#4 then s else s.narrowWrite page) := by
    split
    · exact h0
    · exact h0.narrowWrite
  have hdisarm : ∀ {u}, FieldsBut (checkFields page) s u → FieldsBut (checkFields page) s (u.disarm page) :=
    fun h => h.disarm (by simp [checkFields])
  unfold State.gate
  extract_lets ident was counted narrowed disarmed
  have hcounted : FieldsBut (checkFields page) s counted := by
    simp only [counted]
    split
    · exact h0
    · exact (h0.satInc (by simp [checkFields])).put (by simp [checkFields]) _
  have hnarrowed : FieldsBut (checkFields page) s narrowed := hdisarm h0.narrowWrite
  have hdisarmed : FieldsBut (checkFields page) s disarmed := hdisarm h0
  clear_value counted narrowed disarmed
  split
  · exact h0
  split
  · exact (h0.satInc (by simp [checkFields])).raise (by simp [checkFields, eventFields]) (by simp [checkFields, eventFields])
  split
  · exact (hnarrow.satInc (by simp [checkFields])).put (by simp [checkFields]) _
  split
  · exact hnarrow
  split
  · simp only [Gate.state]
    split
    · exact hcounted
    · exact hdisarm hcounted
  split
  · simp only [Gate.state]
    split
    · exact hnarrowed.levelWrite _ _ _
    · exact hnarrowed
  split
  · exact h0
  split
  · exact h0
  split
  · exact hdisarmed.levelWrite _ _ _
  split
  · exact hdisarmed.accessErr (by simp [checkFields]) fun e => mem_checkFields_of_event
  · exact hdisarmed

/-- A write that goes on goes to the register at its identity. -/
theorem State.ident_of_gate_pass {s s1 : State} {page off ident : Nat} {acc : Acc} (h : s.gate page off acc = .pass s1 ident) :
    ident = pageIdent page off := by
  unfold State.gate at h
  iterate 10 obtain ⟨-, h⟩ := Gate.pass_of_ite h
  exact (Gate.pass.inj h).2.symm

/-- No check of a write reaches BLK_FAULT_ROUTE. -/
theorem checkFields_apart_faultRoute (page : Nat) : ∀ f ∈ checkFields page, f.apart (wholeReg page 0x1C) := by
  intro f hf
  simp only [checkFields, eventFields, List.mem_append, List.mem_cons, List.not_mem_nil, or_false] at hf
  rcases hf with (((rfl | rfl | rfl | rfl | rfl | rfl | rfl | rfl) | (rfl | rfl)) | (rfl | rfl)) <;>
    exact Fld.apart_of_off (by simp [wholeReg])

/-- No repair reaches BLK_FAULT_ROUTE but to rewrite its copies from their majority. -/
theorem repairFields_apart_faultRoute (page : Nat) : ∀ f ∈ repairFields page, f.apart (wholeReg page 0x1C) := by
  intro f hf
  simp only [repairFields, eventFields, List.mem_append, List.mem_cons, List.not_mem_nil, or_false] at hf
  rcases hf with rfl | rfl | rfl <;> exact Fld.apart_of_off (by simp [wholeReg])

theorem State.setView_faultRoute (s : State) (b : Blk) (inst : Nat) (w : Word) : s.setView b inst 0x1C w = none := by
  cases b <;> rfl

theorem State.afterWrite_faultRoute (s : State) (b : Blk) (inst : Nat) : s.afterWrite b inst 0x1C = s := by
  cases b <;> simp [State.afterWrite]

theorem State.writeRule_faultRoute (s : State) (b : Blk) (inst : Nat) (req : Requester) (new : Word) :
    s.writeRule b inst 0x1C req new = .ok (widenRoute b new) ∨ s.writeRule b inst 0x1C req new = .ignore := by
  by_cases hb : b = .psr ∨ b = .nor
  · exact .inr (by simp [State.writeRule, hb])
  · exact .inl (by simp [State.writeRule, hb])

/-- Storing BLK_FAULT_ROUTE leaves it as it was or widens what is written (R65). -/
theorem State.storeReg_faultRoute (s : State) {page : Nat} {r : PageRun} (hr : pageRun page = some r) (acc : Acc) :
    (s.storeReg page 0x1C acc).regWord page 0x1C = s.regWord page 0x1C
      ∨ ∃ w, (s.storeReg page 0x1C acc).regWord page 0x1C = widenRoute r.blk w := by
  obtain ⟨d, hd⟩ := Option.isSome_iff_exists.1 (regAt_header_isSome hr (o := 0x1C) (by decide))
  simp only [State.storeReg, hr, hd]
  generalize hs1 : (if acc.view = .base then s else s.repair page 0x1C false) = s1
  have h1 : s1.regWord page 0x1C = s.regWord page 0x1C := by
    rw [← hs1]
    split
    · rfl
    · exact ((FieldsBut.refl (repairFields page) s).repair (fun _ h => h) _ _).regWord (repairFields_apart_faultRoute page)
  generalize (writtenWord d acc.view (s1.shown page 0x1C) acc.val &&& ~~~cmdMask r.blk 0x1C)
    ||| (s1.shown page 0x1C &&& cmdMask r.blk 0x1C) = new
  rcases s1.writeRule_faultRoute r.blk (page - r.first) acc.req new with h | h
  · refine .inr ⟨new, ?_⟩
    rw [h]
    simp only [State.setView_faultRoute, Option.getD_none, State.afterWrite_faultRoute]
    rw [((FieldsBut.refl [F.PCIE_MSI_PEND_pending] _).irqEdge (by simp) _ _).regWord
      (by simpa using Fld.apart_of_off (by simp [wholeReg])), State.regWord_putWord_same]
  · refine .inl ?_
    rw [h]
    exact h1

/-- The bits of BLK_FAULT_ROUTE that R65 keeps. -/
def routeBits (b : Blk) : Word := BitVec.ofNat 32 (faultRouteReset b) &&& 0x0031FFFF#32

/-- The severity of BLK_FAULT_ROUTE at reset. -/
def routeSeverity (b : Blk) : Nat := (F.BLK_FAULT_ROUTE_severity 0).ext (BitVec.ofNat 32 (faultRouteReset b))

theorem routeSeverity_eq (b : Blk) : routeSeverity b = if b = .stest then 1 else 2 := by
  cases b <;> decide

/-- A field written leaves every other bit. -/
theorem Fld.ins_and_apart (f : Fld) {m : Word} (h : f.mask &&& m = 0#32) (v : Nat) (w : Word) : f.ins v w &&& m = w &&& m := by
  ext i hi
  have hz : (f.mask &&& m)[i] = false := by rw [h, BitVec.getElem_zero]
  rw [BitVec.getElem_and] at hz
  simp only [Fld.ins, BitVec.getElem_and, BitVec.getElem_or, BitVec.getElem_not]
  cases hf : f.mask[i] <;> cases hm : m[i] <;> simp_all

/-- What is written is widened to the bits and the severity of reset (R65). -/
theorem widenRoute_widens (b : Blk) (w : Word) :
    widenRoute b w &&& routeBits b = routeBits b ∧ routeSeverity b ≤ (F.BLK_FAULT_ROUTE_severity 0).ext (widenRoute b w) := by
  have hmask : (F.BLK_FAULT_ROUTE_severity 0).mask &&& routeBits b = 0#32 := by cases b <;> decide
  refine ⟨?_, ?_⟩
  · calc widenRoute b w &&& routeBits b = (w ||| routeBits b) &&& routeBits b := Fld.ins_and_apart _ hmask _ _
      _ = routeBits b := by
        ext i hi
        simp only [BitVec.getElem_and, BitVec.getElem_or]
        cases w[i] <;> cases (routeBits b)[i] <;> rfl
  · have hfit : (F.BLK_FAULT_ROUTE_severity 0).fits := ⟨by simp, by simp⟩
    have hsize : (F.BLK_FAULT_ROUTE_severity 0).size = 4 := rfl
    simp only [widenRoute, clampFld, Fld.ext_ins_self _ hfit, hsize, routeSeverity_eq]
    split <;> omega

/-- Settles O13: the checks leave BLK_FAULT_ROUTE, and what is stored there is widened. -/
theorem routeOnlyWidens : Obligations.RouteOnlyWidens := by
  intro page r acc s t hr bits low hbits hlow hexec
  obtain rfl : s.writeReg page.toNat 0x1C acc = t := Host.Outcome.next.inj hexec
  have hkept : ∀ {u : State}, u.regWord page.toNat 0x1C = s.regWord page.toNat 0x1C →
      u.regWord page.toNat 0x1C &&& bits = bits ∧ low ≤ u.get (F.BLK_FAULT_ROUTE_severity page.toNat) := by
    intro u hu
    refine ⟨by rw [hu, hbits], ?_⟩
    simpa only [State.get, hu] using hlow
  have hgate : (s.gate page.toNat 0x1C acc).state.regWord page.toNat 0x1C = s.regWord page.toNat 0x1C :=
    (s.gate_fieldsBut page.toNat 0x1C acc).regWord (checkFields_apart_faultRoute _)
  cases hg : s.gate page.toNat 0x1C acc with
  | stop u =>
    rw [hg] at hgate
    rw [State.writeReg_of_stop hg]
    exact hkept hgate
  | pass u ident =>
    rw [hg] at hgate
    obtain rfl : ident = 0x1C := (State.ident_of_gate_pass hg).trans (pageIdent_header hr (by decide))
    rw [State.writeReg_of_pass hg]
    rcases u.storeReg_faultRoute hr acc with h | ⟨w, h⟩
    · exact hkept (h.trans hgate)
    · obtain ⟨hwide, hsev⟩ := widenRoute_widens r.blk w
      refine ⟨by rw [h]; exact hwide, ?_⟩
      rw [State.get, h]
      exact hsev

end Sys2Proof.Machine
end

section
/-! SUPPORT. Expert registers (R60): what is refused at basic level, and why a read does not depend on the level. -/

namespace Sys2Proof.Machine

/-! ### States that differ in BLK_LEVEL alone -/

/-- `t` is `s` but for the copies of BLK_LEVEL, which stands at offset 8 of every page. -/
structure LevelApart (s t : State) : Prop where
  cell : ∀ p o, regKey p o % 512 ≠ 2 → t.cell p o = s.cell p o
  frame : { t with regs := s.regs } = s

section
variable {s t : State}

theorem LevelApart.exists_regs (h : LevelApart s t) : ∃ R, t = { s with regs := R } :=
  ⟨t.regs, calc t = { ({ t with regs := s.regs } : State) with regs := t.regs } := rfl
    _ = { s with regs := t.regs } := by rw [h.frame]⟩

theorem LevelApart.regWord (h : LevelApart s t) {p o : Nat} (hk : regKey p o % 512 ≠ 2) : t.regWord p o = s.regWord p o := by
  rw [State.regWord, State.regWord, h.cell p o hk]

theorem LevelApart.get (h : LevelApart s t) {g : Fld} (hk : regKey g.page g.off % 512 ≠ 2) : t.get g = s.get g := by
  rw [State.get, State.get, h.regWord hk]

theorem LevelApart.flag (h : LevelApart s t) {g : Fld} (hk : regKey g.page g.off % 512 ≠ 2) : t.flag g = s.flag g := by
  rw [State.flag, State.flag, h.get hk]

/-- The level of a page written. -/
theorem LevelApart.of_put (s : State) {f : Fld} (hf : regKey f.page f.off % 512 = 2) (v : Nat) : LevelApart s (s.put f v) :=
  ⟨fun p o hk => s.cell_put_ne f v p o fun he => hk (he ▸ hf), rfl⟩

/-- What does not look at the registers, and leaves them, keeps states alike. -/
theorem LevelApart.map (h : LevelApart s t) {op : State → State} (hregs : (op s).regs = s.regs) (hfuse : (op s).fuse = s.fuse)
    (hop : ∀ R, op { s with regs := R } = { op s with regs := R }) : LevelApart (op s) (op t) := by
  obtain ⟨R, rfl⟩ := h.exists_regs
  rw [hop R]
  refine ⟨fun p o hk => ?_, rfl⟩
  calc ({ op s with regs := R } : State).cell p o = ({ s with regs := R } : State).cell p o :=
      State.cell_of_regs (s := { s with regs := R }) (t := { op s with regs := R }) rfl hfuse p o
    _ = s.cell p o := h.cell p o hk
    _ = (op s).cell p o := (State.cell_of_regs hregs hfuse p o).symm

theorem LevelApart.put (h : LevelApart s t) (f : Fld) (v : Nat) : LevelApart (s.put f v) (t.put f v) := by
  refine ⟨fun p o hk => ?_, ?_⟩
  · by_cases he : regKey f.page f.off = regKey p o
    · simp only [State.put, State.cell, he, tabFind_tabSet_same]
      have hc := h.cell f.page f.off (by rw [he]; exact hk)
      simp only [State.cell, he] at hc
      rw [hc]
    · rw [State.cell_put_ne _ _ _ _ _ he, State.cell_put_ne _ _ _ _ _ he, h.cell p o hk]
  · obtain ⟨R, rfl⟩ := h.exists_regs
    rfl

theorem LevelApart.putWord (h : LevelApart s t) (p o : Nat) (w : Word) : LevelApart (s.putWord p o w) (t.putWord p o w) := by
  refine ⟨fun p' o' hk => ?_, ?_⟩
  · by_cases he : regKey p o = regKey p' o'
    · simp only [State.putWord, State.cell, he, tabFind_tabSet_same]
    · simp only [State.putWord, State.cell]
      rw [tabFind_tabSet_ne _ _ (Ne.symm he), tabFind_tabSet_ne _ _ (Ne.symm he)]
      exact h.cell p' o' hk
  · obtain ⟨R, rfl⟩ := h.exists_regs
    rfl

theorem LevelApart.satInc (h : LevelApart s t) {f : Fld} (hk : regKey f.page f.off % 512 ≠ 2) :
    LevelApart (s.satInc f) (t.satInc f) := by
  rw [State.satInc_eq, State.satInc_eq, h.get hk]
  exact h.put _ _

/-- The offset of a register of a page decides whether it is BLK_LEVEL. -/
theorem regKey_ne_level {p o : Nat} (ho : o < 0x800) (h : o / 4 ≠ 2) : regKey p o % 512 ≠ 2 := by
  simp only [regKey]
  omega

theorem LevelApart.irqLevel (h : LevelApart s t) (p : Nat) : t.irqLevel p = s.irqLevel p := by
  rw [State.irqLevel, State.irqLevel, h.regWord (regKey_ne_level (by decide) (by decide)),
    h.regWord (regKey_ne_level (by decide) (by decide))]

theorem LevelApart.irqEdge (h : LevelApart s t) (l : Bool) {p : Nat} (hp : p < 256) : LevelApart (s.irqEdge l p) (t.irqEdge l p) := by
  have hroute : t.irqRouted p = s.irqRouted p := by
    rw [State.irqRouted, State.irqRouted, h.get (regKey_ne_level (by simp only; omega) (by simp only; omega))]
  unfold State.irqEdge
  rw [h.irqLevel, hroute]
  split
  · rw [h.get (by decide), State.msiPend, State.msiPend, h.get (by decide)]
    exact h.put _ _
  · exact h

theorem LevelApart.raise (h : LevelApart s t) {p : Nat} (hp : p < 256) (b : Nat) : LevelApart (s.raise p b) (t.raise p b) := by
  have hget : ∀ {u v : State}, LevelApart u v → ∀ {o : Nat} (hi lo : Nat), o < 0x800 → o / 4 ≠ 2 →
      v.get ⟨p, o, hi, lo⟩ = u.get ⟨p, o, hi, lo⟩ :=
    fun huv _ _ _ ho h2 => huv.get (regKey_ne_level ho h2)
  have hdetail : ∀ {u v : State}, LevelApart u v → v.pageDetail p = u.pageDetail p := fun huv =>
    List.map_congr_left fun k hk => huv.regWord (regKey_ne_level (by have := List.mem_range.1 hk; omega)
      (by have := List.mem_range.1 hk; omega))
  have hforward : t.forwarded p b = s.forwarded p b := by
    simp only [State.forwarded, State.flag, hget h _ _ (o := 0x1C) (by decide) (by decide)]
  have hpos : t.jrnPos = s.jrnPos := by
    rw [State.jrnPos, State.jrnPos, h.get (by decide), h.get (by decide)]
  have h1 := (h.putWord p 0x10 (s.regWord p 0x10 ||| (1#32 <<< b))).irqEdge (s.irqLevel p) hp
  unfold State.raise
  rw [h.regWord (p := p) (o := 0x10) (regKey_ne_level (by decide) (by decide)), h.irqLevel]
  simp only [hforward, hget h _ _ (o := 0x1C) (by decide) (by decide), hpos, hdetail h1]
  split
  · exact h1.map (op := fun u => { u with flt := u.flt ++ [_] }) rfl rfl fun _ => rfl
  · exact h1

theorem LevelApart.repairNote (h : LevelApart s t) {page : Nat} (hp : page < 256) (ident copy : Nat) (scrub : Bool) :
    LevelApart (s.repairNote page ident copy scrub) (t.repairNote page ident copy scrub) :=
  ((((h.satInc (regKey_ne_level (by simp) (by simp))).put _ _).put _ _).put _ _).raise hp 31

theorem LevelApart.selMend (h : LevelApart s t) (b : Blk) (inst ident k : Nat) :
    LevelApart (s.selMend b inst ident k) (t.selMend b inst ident k) :=
  h.map (op := fun u => u.selMend b inst ident k) (s.selMend_regs b inst ident k).1 (s.selMend_regs b inst ident k).2 fun R => by
    cases b <;> rfl

theorem LevelApart.selVote (h : LevelApart s t) {page : Nat} (hp : page < 256) (ident : Nat) (b : Blk) (inst : Nat) (scrub : Bool)
    (e : Nat × Nat × RegCell) : LevelApart (s.selVote page ident b inst scrub e) (t.selVote page ident b inst scrub e) := by
  unfold State.selVote
  split
  · exact h
  · exact (h.selMend _ _ _ _).repairNote hp _ _ _

theorem LevelApart.selVoted (h : LevelApart s t) (b : Blk) (inst ident : Nat) (scrub : Bool) :
    t.selVoted b inst ident scrub = s.selVoted b inst ident scrub := by
  have hcells : t.selCells b inst = s.selCells b inst := by
    obtain ⟨R, rfl⟩ := h.exists_regs
    cases b <;> rfl
  have hsel : t.selected b inst ident = s.selected b inst ident := by
    unfold State.selected State.remapSel
    split
    · exact h.get (by decide)
    · rw [h.get (g := F.FUS_SENSOR_SEL_sensor) (by decide), h.get (g := F.FUS_SCFG_SEL_sensor) (by decide)]
    · exact h.get (by decide)
    · rw [h.get (g := F.MC_REMAP_SEL_ch inst) (regKey_ne_level (by simp) (by simp)),
        h.get (g := F.MC_REMAP_SEL_entry inst) (regKey_ne_level (by simp) (by simp))]
    · exact h.get (by decide)
  rw [State.selVoted, State.selVoted, hcells, hsel]

theorem LevelApart.cellVote (h : LevelApart s t) {page ident : Nat} (hp : page < 256) (hk : regKey page ident % 512 ≠ 2) (scrub : Bool) :
    LevelApart (s.cellVote page ident scrub) (t.cellVote page ident scrub) := by
  unfold State.cellVote
  rw [h.cell _ _ hk, h.regWord hk]
  split
  · exact h
  · exact (h.putWord _ _ _).repairNote hp _ _ _

theorem LevelApart.repair (h : LevelApart s t) {page ident : Nat} (hp : page < 256) (hk : regKey page ident % 512 ≠ 2) (scrub : Bool) :
    LevelApart (s.repair page ident scrub) (t.repair page ident scrub) := by
  have hcell := h.cellVote hp hk scrub
  rw [State.repair_eq, State.repair_eq]
  cases hr : pageRun page with
  | none => simpa only [State.selRepair, hr] using hcell
  | some r =>
    rw [State.selRepair_eq _ hr, State.selRepair_eq _ hr, hcell.selVoted]
    exact List.foldl_rel hcell fun e _ u v huv => huv.selVote hp _ _ _ _ e

end

/-! ### What an expert register shows -/

/-- An expert register of any block but four shows what it stores. -/
theorem State.readView_of_expert (s : State) {b : Blk} (inst : Nat) {ident : Nat} (hx : 0x100 ≤ ident ∨ ident = 0x1C)
    (hb : b ∉ [Blk.mc, .proj, .fus, .xgs]) : s.readView b inst ident = none := by
  have hband : ∀ {lo hi : Nat} {w : Word}, 0x1C < lo → hi ≤ 0x100 → (if lo ≤ ident ∧ ident < hi then some w else none) = none :=
    fun hlo hhi => if_neg (by omega)
  have hat : ∀ {o : Nat} {w : Word}, o < 0x100 → o ≠ 0x1C → (if ident = o then some w else none) = none :=
    fun ho h1 => if_neg (by omega)
  cases b
  case mc | proj | fus | xgs => simp at hb
  case memg => exact hat (by decide) (by decide)
  case qeng | fenceB | det | ing | planB | stest | isl =>
    simp only [State.readView, State.qengView, State.fenceView, State.detView, State.ingView, State.planView, State.stestView,
      State.islView]
    split <;> simp at hx ⊢
  case ward => exact hat (by decide) (by decide)
  case pcie => exact hband (by decide) (by decide)
  case flt => exact hband (by decide) (by decide)
  case sec =>
    unfold State.readView State.secView
    rw [if_neg (by omega)]
    exact hband (by decide) (by decide)
  case farm => exact if_neg (by omega)
  all_goals rfl

/-- What an expert register shows does not depend on the level of a page. -/
theorem LevelApart.shown {s t : State} (h : LevelApart s t) {page ident : Nat} (hident : ident < 0x800)
    (hx : 0x100 ≤ ident ∨ ident = 0x1C) : t.shown page ident = s.shown page ident := by
  have hword : t.regWord page ident = s.regWord page ident := h.regWord (regKey_ne_level hident (by omega))
  unfold State.shown
  split
  · rfl
  next r hr =>
    rw [hword]
    congr 1
    generalize page - r.first = inst
    by_cases hb : r.blk ∈ [Blk.mc, .proj, .fus, .xgs]
    · have hproj : t.get F.PROJ_CAL_SEL_entry = s.get F.PROJ_CAL_SEL_entry := h.get (by decide)
      have hdelta : t.get F.PROJ_DELTA_SEL_entry = s.get F.PROJ_DELTA_SEL_entry := h.get (by decide)
      have hfus : t.get F.FUS_SCFG_SEL_sensor = s.get F.FUS_SCFG_SEL_sensor := h.get (by decide)
      have hsensor : t.get F.FUS_SENSOR_SEL_sensor = s.get F.FUS_SENSOR_SEL_sensor := h.get (by decide)
      have hgroup : t.get F.XGS_GROUP_SEL_group = s.get F.XGS_GROUP_SEL_group := h.get (by decide)
      have hroute : t.get F.XGS_ROUTE_SEL_id = s.get F.XGS_ROUTE_SEL_id := h.get (by decide)
      have hmc : t.remapSel inst = s.remapSel inst := by
        rw [State.remapSel, State.remapSel, h.get (g := F.MC_REMAP_SEL_ch inst) (regKey_ne_level (by simp) (by simp)),
          h.get (g := F.MC_REMAP_SEL_entry inst) (regKey_ne_level (by simp) (by simp))]
      obtain ⟨R, rfl⟩ := h.exists_regs
      simp only [List.mem_cons, List.not_mem_nil, or_false] at hb
      rcases hb with hb | hb | hb | hb
      · simp only [hb, State.readView, State.mcView, hmc, State.mc]
      · simp only [hb, State.readView, State.projView, hproj, hdelta]
      · simp only [hb, State.readView, State.fusView, hfus, hsensor]
      · simp only [hb, State.readView, State.xgsView, hgroup, hroute]
    · rw [State.readView_of_expert t inst hx hb, State.readView_of_expert s inst hx hb]

/-! ### Reads of an expert register -/

/-- An identity lies within the decoded offsets (R55). -/
theorem pageIdent_le (page off : Nat) : pageIdent page off ≤ 0x7FC := by
  unfold pageIdent
  split
  · exact Nat.and_le_left.trans Nat.and_le_right
  · exact Nat.zero_le _

theorem isExpert_iff {ident : Nat} : isExpert ident = true ↔ 0x100 ≤ ident ∨ ident = 0x1C := by simp [isExpert]

/-- No expert register shows what the module measures. -/
theorem measured_of_expert (b : Blk) {ident : Nat} (hx : 0x100 ≤ ident ∨ ident = 0x1C) : measured b ident = false := by
  unfold measured
  split <;> simp <;> omega

/-- What a read of an expert register brings (R45 to R47, R60, R67). -/
theorem State.readReg_readData_of_expert (s : State) {page off : Nat} (hn : (regAt page (pageIdent page off)).isSome = true)
    (hx : isExpert (pageIdent page off) = true) (v : View) (be : BitVec 4) (req : Requester) :
    (s.readReg page off v be req).readData =
      if s.hubOff = true ∨ (req = .xs ∧ page ≠ 62) then s.readData
      else if s.pageUnmapped page = true ∨ s.bootHides page req = true then 0#32
      else if s.pageShadow page = true then
        if pageIdent page off = 0x1C then s.shown page (pageIdent page off) &&& beMask be else 0#32
      else if s.flag (F.BLK_STATUS_in_reset page) = true then 0#32
      else (s.repair page (pageIdent page off) false).shown page (pageIdent page off) &&& beMask be := by
  obtain ⟨d, hd⟩ := Option.isSome_iff_exists.1 hn
  unfold State.readReg
  extract_lets ident src s0 opened s1 rst
  have hident : pageIdent page off = ident := rfl
  rw [hident] at hd hx ⊢
  have hclosed : opened = false := by
    simp only [opened]
    cases pageRun page with
    | none => exact Bool.and_false _
    | some r => exact (congrArg _ (measured_of_expert r.blk (isExpert_iff.1 hx))).trans (Bool.and_false _)
  have hs1 : s1 = s0 := if_neg (by simp [hclosed])
  clear_value ident opened s1
  have hx := isExpert_iff.1 hx
  by_cases h1 : s.hubOff = true ∨ (req = .xs ∧ page ≠ 62)
  · rw [if_pos h1, if_pos h1]
  rw [if_neg h1, if_neg h1]
  by_cases h2 : s.pageUnmapped page = true ∨ s.bootHides page req = true
  · rw [if_pos h2, if_pos h2]
  rw [if_neg h2, if_neg h2]
  have hid : ident ≠ 0 ∧ ident ≠ 4 ∧ ident ≠ 0xC ∧ ident ≠ 0x20 := by omega
  have hhead : ident < 0x20 ↔ ident = 0x1C := by omega
  by_cases hsh : s.pageShadow page = true
  · by_cases h1c : ident = 0x1C
    · subst h1c
      simp [s0, hsh, hd, hs1, hclosed]
    · simp [hsh, h1c, hid, hhead]
  · by_cases hrst : s.flag (F.BLK_STATUS_in_reset page) = true
    · simp [hsh, hrst, hid]
    · simp [s0, hsh, hrst, hd, hs1, hclosed]

/-- The access checks do not depend on the level of a page. -/
theorem LevelApart.checks {s t : State} (h : LevelApart s t) (page : Nat) (req : Requester) :
    t.hubOff = s.hubOff ∧ t.pageUnmapped page = s.pageUnmapped page ∧ t.bootHides page req = s.bootHides page req
      ∧ t.pageShadow page = s.pageShadow page
      ∧ t.flag (F.BLK_STATUS_in_reset page) = s.flag (F.BLK_STATUS_in_reset page) ∧ t.readData = s.readData := by
  have hdie : ∀ d, t.cdState d = s.cdState d := fun d => h.get (regKey_ne_level (by simp) (by simp))
  have hstate : t.get F.PWR_STATE_state = s.get F.PWR_STATE_state := h.get (by decide)
  have hrst : t.flag (F.BLK_STATUS_in_reset page) = s.flag (F.BLK_STATUS_in_reset page) := h.flag (regKey_ne_level (by simp) (by simp))
  have hshadow : t.pageShadow page = s.pageShadow page := by
    unfold State.pageShadow
    simp only [hdie]
  obtain ⟨R, rfl⟩ := h.exists_regs
  refine ⟨?_, ?_, rfl, hshadow, hrst, rfl⟩
  · simp only [State.hubOff, hstate]
  · simp only [State.pageUnmapped, hdie]

/-- A read of an expert register brings the same data at either level (R60). -/
theorem LevelApart.readReg_readData {s t : State} (h : LevelApart s t) {page off : Nat} (hp : page < 256)
    (hn : (regAt page (pageIdent page off)).isSome = true) (hx : isExpert (pageIdent page off) = true) (v : View) (be : BitVec 4)
    (req : Requester) : (t.readReg page off v be req).readData = (s.readReg page off v be req).readData := by
  have hident : pageIdent page off < 0x800 := (pageIdent_le page off).trans_lt (by decide)
  have hx' := isExpert_iff.1 hx
  have hrepaired := h.repair hp (regKey_ne_level hident (by omega)) (page := page) (ident := pageIdent page off) false
  obtain ⟨hoff, hmap, hboot, hshadow, hrst, hdata⟩ := h.checks page req
  rw [s.readReg_readData_of_expert hn hx, t.readReg_readData_of_expert hn hx, hoff, hmap, hboot, hshadow, hrst, hdata,
    h.shown hident hx', hrepaired.shown hident hx']

/-- At basic level the write ends at the level check (R60). -/
theorem State.writeReg_of_basic {s : State} {page off : Nat} {acc : Acc} (ht : s.takesWrites page acc = true) (hbe : acc.be = 0xF#4)
    (hn : (regAt page (pageIdent page off)).isSome = true) (hx : isExpert (pageIdent page off) = true)
    (h8 : pageIdent page off ≠ 8) (hbasic : s.get (F.BLK_LEVEL_expert page) = 0) :
    s.writeReg page off acc = (s.disarm page).accessErr (F.BLK_STATUS_level_reject page) := by
  have hgate := State.gate_of_register ht hbe hn
  rw [if_neg h8, if_pos (by simp [hx, State.flag, hbasic])] at hgate
  exact State.writeReg_of_stop hgate

/-- Settles O10: at basic level the write ends at the level check, and a read does not look at the level. -/
theorem expertLevel : Obligations.ExpertLevel := by
  refine ⟨by decide, fun page off acc s ht hbe hn hx h8 => ⟨fun hbasic => ?_, fun hexpert => ?_, fun v be req t u ht' hu => ?_⟩⟩
  · refine ⟨_, congrArg Host.Outcome.next (State.writeReg_of_basic ht hbe hn hx h8 hbasic), State.get_accessErr_self _ (by decide), ?_,
      (s.disarm_frame _).regsOnly (State.regsOnly_accessErr _ _)⟩
    exact ((FieldsBut.refl _ s).disarm (by simp)).accessErr (by simp) fun e he => List.mem_append_right _ he
  · rw [State.gate_of_register ht hbe hn, if_neg h8, if_neg (by simp [State.flag, hexpert])]
  · obtain rfl : s.readReg page.toNat off.toNat v be req = t := Host.Outcome.next.inj ht'
    obtain rfl := Host.Outcome.next.inj hu
    exact (LevelApart.of_put s (f := F.BLK_LEVEL_expert page.toNat) (by simp only [regKey]; omega) _).readReg_readData
      page.isLt hn hx v be req

end Sys2Proof.Machine
end

section
/-! SUPPORT. The tumbler scrub (R58, R59): after it no copy differs from the majority, and every majority is as before. -/

namespace Sys2Proof.Machine

/-! ### Copies that agree -/

/-- The stored copies of the register with this key agree. -/
def State.agrees (s : State) (k : Nat) : Prop := ∀ c, tabFind s.regs k = some c → c.wrong = none

theorem State.agrees_iff {s : State} {p o : Nat} : s.agrees (regKey p o) ↔ (s.cell p o).wrong = none := by
  unfold State.agrees State.cell
  cases hc : tabFind s.regs (regKey p o) with
  | none => simp [RegCell.wrong_eq_none_iff]
  | some c => simp

theorem RegCell.wrong_ins {c : RegCell} (h : c.wrong = none) (f : Fld) (v : Nat) :
    (RegCell.mk (f.ins v c.c0) (f.ins v c.c1) (f.ins v c.c2)).wrong = none := by
  obtain ⟨h0, h1, h2⟩ := RegCell.wrong_eq_none_iff.1 h
  rw [h0, h1, h2, RegCell.wrong_eq_none_iff, RegCell.vote_same]
  exact ⟨rfl, rfl, rfl⟩

theorem State.agrees.put {s : State} {k : Nat} (h : s.agrees k) (f : Fld) (v : Nat) : (s.put f v).agrees k := by
  intro c hc
  by_cases he : k = regKey f.page f.off
  · subst he
    simp only [State.put, tabFind_tabSet_same, Option.some.injEq] at hc
    subst hc
    exact RegCell.wrong_ins (State.agrees_iff.1 h) f v
  · simp only [State.put, tabFind_tabSet_ne _ _ he] at hc
    exact h c hc

theorem State.agrees_putWord_same (s : State) (p o : Nat) (w : Word) : (s.putWord p o w).agrees (regKey p o) := by
  intro c hc
  simp only [State.putWord, tabFind_tabSet_same, Option.some.injEq] at hc
  subst hc
  simp [RegCell.wrong_eq_none_iff]

theorem State.agrees.putWord {s : State} {k : Nat} (h : s.agrees k) (p o : Nat) (w : Word) : (s.putWord p o w).agrees k := by
  by_cases he : k = regKey p o
  · rw [he]
    exact s.agrees_putWord_same p o w
  · intro c hc
    simp only [State.putWord, tabFind_tabSet_ne _ _ he] at hc
    exact h c hc

theorem State.agrees.of_regs {s t : State} {k : Nat} (h : s.agrees k) (hr : t.regs = s.regs) : t.agrees k := by
  rwa [State.agrees, hr]

theorem State.agrees.raise {s : State} {k : Nat} (h : s.agrees k) (p b : Nat) : (s.raise p b).agrees k := by
  have h1 : ((s.putWord p 0x10 (s.regWord p 0x10 ||| (1#32 <<< b))).irqEdge (s.irqLevel p) p).agrees k := by
    unfold State.irqEdge
    split
    · exact (h.putWord _ _ _).put _ _
    · exact h.putWord _ _ _
  unfold State.raise
  extract_lets l s1 isl
  change s1.agrees k at h1
  split
  · exact h1.of_regs rfl
  · exact h1

theorem State.agrees.repairNote {s : State} {k : Nat} (h : s.agrees k) (page ident copy : Nat) (scrub : Bool) :
    (s.repairNote page ident copy scrub).agrees k :=
  ((((h.put _ _).put _ _).put _ _).put _ _).raise _ _

theorem State.agrees.selVote {s : State} {k : Nat} (h : s.agrees k) (page ident : Nat) (b : Blk) (inst : Nat) (scrub : Bool)
    (e : Nat × Nat × RegCell) : (s.selVote page ident b inst scrub e).agrees k := by
  unfold State.selVote
  split
  · exact h
  · exact (h.of_regs (s.selMend_regs _ _ _ _).1).repairNote _ _ _ _

theorem State.agrees.selRepair {s : State} {k : Nat} (h : s.agrees k) (page ident : Nat) (scrub : Bool) :
    (s.selRepair page ident scrub).agrees k := by
  cases hr : pageRun page with
  | none => simpa only [State.selRepair, hr] using h
  | some r =>
    rw [State.selRepair_eq _ hr]
    exact List.foldlRecOn (motive := fun u : State => u.agrees k) _ _ h fun _ hu e _ => State.agrees.selVote hu _ _ _ _ _ e

theorem State.agrees.repair {s : State} {k : Nat} (h : s.agrees k) (page ident : Nat) (scrub : Bool) :
    (s.repair page ident scrub).agrees k := by
  refine State.agrees.selRepair ?_ _ _ _
  change (s.cellVote page ident scrub).agrees k
  unfold State.cellVote
  split
  · exact h
  · exact (h.putWord _ _ _).repairNote _ _ _ _

/-- A register that was voted has copies that agree (R58). -/
theorem State.repair_agrees (s : State) (page ident : Nat) (scrub : Bool) :
    (s.repair page ident scrub).agrees (regKey page ident) := by
  refine State.agrees.selRepair ?_ _ _ _
  change (s.cellVote page ident scrub).agrees (regKey page ident)
  unfold State.cellVote
  split
  next h => exact State.agrees_iff.2 h
  · exact (s.agrees_putWord_same _ _ _).repairNote _ _ _ _

/-! ### Registers behind a select register -/

/-- The identities at which a block has tumbler registers that a select register addresses. -/
def selIdents : Blk → List Nat
  | .ing => [0x048]
  | .fus => [0x044, 0x104]
  | .xgs => [0x11C]
  | .mc => [0x114]
  | .sec => [0x088]
  | _ => []

theorem State.selCells_ident {s : State} {b : Blk} {inst : Nat} {e : Nat × Nat × RegCell} (he : e ∈ s.selCells b inst) :
    e.1 ∈ selIdents b := by
  cases b
  case ing | xgs | mc | sec =>
    simp only [State.selCells, List.mem_map] at he
    obtain ⟨x, -, rfl⟩ := he
    exact List.mem_singleton.2 rfl
  case fus =>
    simp only [State.selCells, List.mem_flatMap, List.mem_cons, List.not_mem_nil, or_false] at he
    obtain ⟨x, -, rfl | rfl⟩ := he <;> simp [selIdents]
  all_goals simp [State.selCells] at he

/-- Every identity with such registers holds a tumbler field, which the scrub votes. -/
theorem selIdents_subset {page : Nat} {r : PageRun} (hr : pageRun page = some r) : ∀ i ∈ selIdents r.blk, i ∈ tumblerIdents page := by
  have h : ∀ r ∈ pageDir, ∀ i ∈ selIdents r.blk, i ∈ [4, 0x1C] ++ ((blkRegs r.blk).filter RegDef.tumbler).flatMap fun d =>
      (List.range d.count).map fun i => d.off + d.stride * i := by decide +kernel
  simpa only [tumblerIdents, hr] using h r (pageRun_mem hr)

/-- An entry as mended when it is the one at this identity with this selection. -/
def mendAt (ident k : Nat) (e : Nat × Nat × RegCell) : Nat × Nat × RegCell :=
  if e.1 = ident ∧ e.2.1 = k then (e.1, e.2.1, e.2.2.mended) else e

theorem RegCell.mended_of (n : Nat) : (RegCell.of n).mended = RegCell.of n := by simp [RegCell.mended, RegCell.of]

theorem State.selCells_selMend (s : State) {b : Blk} (inst : Nat) {ident : Nat} (hi : ident ∈ selIdents b) (k : Nat) :
    (s.selMend b inst ident k).selCells b inst = (s.selCells b inst).map (mendAt ident k) := by
  cases b
  case ing =>
    obtain rfl := List.mem_singleton.1 hi
    simp only [State.selMend, State.selCells, List.map_map]
    refine List.map_congr_left fun e _ => ?_
    by_cases hk : e.1 = k <;> simp [mendAt, hk]
  case xgs =>
    obtain rfl := List.mem_singleton.1 hi
    simp only [State.selMend, State.selCells, List.map_map]
    refine List.map_congr_left fun e _ => ?_
    obtain ⟨n, g⟩ := e
    by_cases hk : n = k <;> cases g <;> simp [mendAt, hk, RegCell.mended_of]
  case mc =>
    obtain rfl := List.mem_singleton.1 hi
    simp only [State.selMend, State.selCells, State.setMc, State.mc, tabGet_tabSet_same, List.map_map]
    refine List.map_congr_left fun e _ => ?_
    by_cases hk : e.1 = k <;> simp [mendAt, hk]
  case sec =>
    obtain rfl := List.mem_singleton.1 hi
    simp only [State.selMend, State.selCells, List.map_map]
    refine List.map_congr_left fun e _ => ?_
    by_cases hk : e.1 = k <;> simp [mendAt, hk]
  case fus =>
    simp only [State.selMend, State.selCells, List.flatMap_map, List.map_flatMap]
    refine List.flatMap_congr fun e _ => ?_
    simp only [selIdents, List.mem_cons, List.not_mem_nil, or_false] at hi
    rcases hi with rfl | rfl
    · by_cases hk : e.1 = k <;> simp [mendAt, hk]
    · by_cases hk : e.1 = k <;> simp [mendAt, hk]
  all_goals cases hi

/-- What stands behind the select registers depends on the registers in nothing. -/
theorem RegsOnly.selCells {s t : State} (h : RegsOnly s t) (b : Blk) (inst : Nat) : t.selCells b inst = s.selCells b inst := by
  rw [← h.frame]
  cases b <;> rfl

/-- What a vote of an entry does to the entries: it mends that one if its copies differ. -/
theorem State.selCells_selVote (s : State) {b : Blk} (inst page : Nat) {ident : Nat} (hi : ident ∈ selIdents b) (scrub : Bool)
    (e : Nat × Nat × RegCell) :
    (s.selVote page ident b inst scrub e).selCells b inst =
      if e.2.2.wrong = none then s.selCells b inst else (s.selCells b inst).map (mendAt ident e.2.1) := by
  unfold State.selVote
  split
  next h => rw [if_pos h]
  next k h =>
    rw [if_neg (by rw [h]; exact nofun), (State.repairNote_regsOnly _ _ _ _ _).selCells]
    exact s.selCells_selMend inst hi e.2.1

/-- The majorities of the entries. -/
def State.selVotes (s : State) (b : Blk) (inst : Nat) : List (Nat × Nat × Word) :=
  (s.selCells b inst).map fun e => (e.1, e.2.1, e.2.2.vote)

theorem State.selVotes_selVote (s : State) {b : Blk} (inst page : Nat) {ident : Nat} (hi : ident ∈ selIdents b) (scrub : Bool)
    (e : Nat × Nat × RegCell) : (s.selVote page ident b inst scrub e).selVotes b inst = s.selVotes b inst := by
  unfold State.selVotes
  rw [s.selCells_selVote inst page hi]
  split
  · rfl
  · rw [List.map_map]
    refine List.map_congr_left fun x _ => ?_
    by_cases hx : x.1 = ident ∧ x.2.1 = e.2.1 <;> simp [mendAt, hx]

/-- Entries voted one after the other: what still differs is an entry that was there and was not voted. -/
theorem State.selCells_foldl_selVote {b : Blk} (inst page : Nat) {ident : Nat} (hi : ident ∈ selIdents b) (scrub : Bool)
    (l : List (Nat × Nat × RegCell)) (hl : ∀ e ∈ l, e.1 = ident) (s : State) :
    ∀ x ∈ (l.foldl (fun u e => u.selVote page ident b inst scrub e) s).selCells b inst,
      x.2.2.wrong = none ∨ (x ∈ s.selCells b inst ∧ x ∉ l) := by
  induction l generalizing s with
  | nil => exact fun x hx => .inr ⟨hx, List.not_mem_nil⟩
  | cons e l ih =>
    obtain ⟨he, hl⟩ := List.forall_mem_cons.1 hl
    intro x hx
    rcases ih hl _ x hx with hx | ⟨hx, hxl⟩
    · exact .inl hx
    · rw [s.selCells_selVote inst page hi] at hx
      split at hx
      next hw =>
        by_cases hxe : x = e
        · exact .inl (hxe ▸ hw)
        · exact .inr ⟨hx, List.not_mem_cons_of_ne_of_not_mem hxe hxl⟩
      next hw =>
        obtain ⟨y, hy, rfl⟩ := List.mem_map.1 hx
        by_cases hm : y.1 = ident ∧ y.2.1 = e.2.1
        · exact .inl (by simp [mendAt, hm])
        · have hkeep : mendAt ident e.2.1 y = y := if_neg hm
          rw [hkeep] at hxl ⊢
          exact .inr ⟨hy, List.not_mem_cons_of_ne_of_not_mem (fun hye => hm (by rw [hye]; exact ⟨he, rfl⟩)) hxl⟩

/-- The entries after a scrub of an identity: what still differs stands at another. -/
theorem State.selCells_repair (s : State) {page : Nat} {r : PageRun} (hr : pageRun page = some r) (ident : Nat) :
    ∀ x ∈ (s.repair page ident true).selCells r.blk (page - r.first),
      x.2.2.wrong = none ∨ (x ∈ s.selCells r.blk (page - r.first) ∧ x.1 ≠ ident) := by
  have hcell := (s.cellVote_regsOnly page ident true).selCells r.blk (page - r.first)
  rw [State.repair_eq, State.selRepair_eq _ hr]
  generalize s.cellVote page ident true = u at hcell
  intro x hx
  by_cases hi : ident ∈ selIdents r.blk
  · have hl : ∀ e ∈ u.selVoted r.blk (page - r.first) ident true, e.1 = ident := fun e he => by
      simpa [State.selVoted] using (List.mem_filter.1 he).2
    rcases State.selCells_foldl_selVote (page - r.first) page hi true _ hl u x hx with hw | ⟨hx, hno⟩
    · exact .inl hw
    · refine .inr ⟨hcell ▸ hx, fun he => hno ?_⟩
      simpa [State.selVoted, he] using hx
  · have hnone : u.selVoted r.blk (page - r.first) ident true = [] := by
      refine List.filter_eq_nil_iff.2 fun e he h => hi ?_
      obtain ⟨rfl, -⟩ := of_decide_eq_true h
      exact State.selCells_ident he
    rw [hnone, List.foldl_nil, hcell] at hx
    exact .inr ⟨hx, fun he => hi (he ▸ State.selCells_ident hx)⟩

theorem State.selVotes_repair (s : State) {page : Nat} {r : PageRun} (hr : pageRun page = some r) (ident : Nat) (scrub : Bool) :
    (s.repair page ident scrub).selVotes r.blk (page - r.first) = s.selVotes r.blk (page - r.first) := by
  have hcell : (s.cellVote page ident scrub).selVotes r.blk (page - r.first) = s.selVotes r.blk (page - r.first) :=
    congrArg (List.map _) ((s.cellVote_regsOnly page ident scrub).selCells r.blk (page - r.first))
  rw [State.repair_eq, State.selRepair_eq _ hr, ← hcell]
  generalize s.cellVote page ident scrub = u
  by_cases hi : ident ∈ selIdents r.blk
  · exact List.foldlRecOn (motive := fun v : State => v.selVotes r.blk (page - r.first) = u.selVotes r.blk (page - r.first)) _ _ rfl
      fun v hv e _ => (v.selVotes_selVote _ page hi scrub e).trans hv
  · have hnone : u.selVoted r.blk (page - r.first) ident scrub = [] := by
      refine List.filter_eq_nil_iff.2 fun e he h => hi ?_
      obtain ⟨rfl, -⟩ := of_decide_eq_true h
      exact State.selCells_ident he
    rw [hnone, List.foldl_nil]

/-- A block without such registers: a repair changes registers and the events at the collector alone. -/
theorem State.repair_regsOnly (s : State) {page : Nat} {r : PageRun} (hr : pageRun page = some r) (hb : selIdents r.blk = [])
    (ident : Nat) (scrub : Bool) : RegsOnly s (s.repair page ident scrub) := by
  rw [State.repair_eq, State.selRepair_eq _ hr]
  have hcell := s.cellVote_regsOnly page ident scrub
  generalize s.cellVote page ident scrub = u at hcell
  have hnone : u.selVoted r.blk (page - r.first) ident scrub = [] := by
    refine List.filter_eq_nil_iff.2 fun e he => ?_
    have hmem := State.selCells_ident he
    rw [hb] at hmem
    cases hmem
  rw [hnone, List.foldl_nil]
  exact hcell

/-! ### The scrub -/

/-- The registers at these identities voted one after the other. -/
def State.scrub (s : State) (page : Nat) (l : List Nat) : State := l.foldl (fun u i => u.repair page i true) s

theorem State.scrub_agrees (page : Nat) (l : List Nat) (s : State) : ∀ i ∈ l, (s.scrub page l).agrees (regKey page i) := by
  induction l generalizing s with
  | nil => exact nofun
  | cons j l ih =>
    refine List.forall_mem_cons.2 ⟨?_, ih _⟩
    change ((s.repair page j true).scrub page l).agrees (regKey page j)
    exact List.foldlRecOn (motive := fun u : State => u.agrees (regKey page j)) _ _ (s.repair_agrees page j true)
      fun _ hu i _ => State.agrees.repair hu page i true

/-- What still differs behind a select register stands at an identity that was not voted. -/
theorem State.scrub_selCells {page : Nat} {r : PageRun} (hr : pageRun page = some r) (l : List Nat) (s : State) :
    ∀ x ∈ (s.scrub page l).selCells r.blk (page - r.first), x.2.2.wrong = none ∨ x.1 ∉ l := by
  have hstep : ∀ x ∈ (s.scrub page l).selCells r.blk (page - r.first),
      x.2.2.wrong = none ∨ (x ∈ s.selCells r.blk (page - r.first) ∧ x.1 ∉ l) := by
    induction l generalizing s with
    | nil => exact fun x hx => .inr ⟨hx, List.not_mem_nil⟩
    | cons j l ih =>
      intro x hx
      rcases ih (s.repair page j true) x hx with hw | ⟨hx, hl⟩
      · exact .inl hw
      · exact (s.selCells_repair hr j x hx).imp_right fun ⟨hx, hj⟩ => ⟨hx, List.not_mem_cons_of_ne_of_not_mem hj hl⟩
  exact fun x hx => (hstep x hx).imp_right And.right

theorem State.scrub_selVotes {page : Nat} {r : PageRun} (hr : pageRun page = some r) (l : List Nat) (s : State) :
    (s.scrub page l).selVotes r.blk (page - r.first) = s.selVotes r.blk (page - r.first) :=
  List.foldlRecOn (motive := fun u : State => u.selVotes r.blk (page - r.first) = s.selVotes r.blk (page - r.first)) _ _ rfl
    fun u hu i _ => (u.selVotes_repair hr i true).trans hu

theorem State.scrub_fieldsBut (s : State) (page : Nat) (l : List Nat) : FieldsBut (repairFields page) s (s.scrub page l) :=
  (FieldsBut.refl _ s).foldl _ _ fun _ hu i _ => hu.repair (fun _ h => h) i true

theorem State.scrub_votesOnly (s : State) (page : Nat) (l : List Nat) : VotesOnly s (s.scrub page l) :=
  VotesOnly.foldl _ (fun u i => u.repair_votesOnly page i true) l s

theorem State.scrub_regsOnly (s : State) {page : Nat} {r : PageRun} (hr : pageRun page = some r) (hb : selIdents r.blk = [])
    (l : List Nat) : RegsOnly s (s.scrub page l) :=
  RegsOnly.foldl _ (fun u i => u.repair_regsOnly hr hb i true) l s

theorem exec_tumblerScrub (page : BitVec 8) (s : State) :
    exec (.tumblerScrub page) s = .next (s.scrub page.toNat (tumblerIdents page.toNat)) := rfl

/-- What a scrub comes to (R58, R59). -/
theorem scrub_outcome (page : BitVec 8) (r : PageRun) (s : State) (hr : pageRun page.toNat = some r) :
    ∃ t, exec (.tumblerScrub page) s = .next t
      ∧ (∀ i ∈ tumblerIdents page.toNat, (t.cell page.toNat i).wrong = none)
      ∧ (∀ e ∈ t.selCells r.blk (page.toNat - r.first), e.2.2.wrong = none)
      ∧ (t.selCells r.blk (page.toNat - r.first)).map (fun e => (e.1, e.2.1, e.2.2.vote))
          = (s.selCells r.blk (page.toNat - r.first)).map (fun e => (e.1, e.2.1, e.2.2.vote))
      ∧ FieldsBut ([wholeReg page.toNat 0x018] ++ eventFields page.toNat 31) s t
      ∧ (r.blk ∉ [.ing, .fus, .xgs, .mc, .sec] → { t with regs := s.regs, flt := s.flt } = s)
      ∧ { t with regs := s.regs, flt := s.flt, streams := s.streams, fus := s.fus, xgs := s.xgs, mcs := s.mcs, sec := s.sec } = s := by
  refine ⟨_, exec_tumblerScrub page s, fun i hi => State.agrees_iff.1 (State.scrub_agrees _ _ s i hi), fun e he => ?_,
    State.scrub_selVotes hr _ s, s.scrub_fieldsBut _ _, fun hb => ?_, (s.scrub_votesOnly _ _).frame⟩
  · exact (State.scrub_selCells hr _ s e he).resolve_right
      fun hno => hno (selIdents_subset hr _ (State.selCells_ident he))
  · have hnone : selIdents r.blk = [] := by
      cases hbk : r.blk
      case ing | fus | xgs | mc | sec => simp [hbk] at hb
      all_goals rfl
    exact (s.scrub_regsOnly hr hnone _).frame

end Sys2Proof.Machine
end

section
/-! SUPPORT. The end of the block resets (R67) and the request for a module reset (R70). -/

namespace Sys2Proof.Machine

/-! ### Islands changed in place -/

theorem State.island_modIsl_same (s : State) (i : Nat) (f : IslSt → IslSt) : (s.modIsl i f).island i = f (s.island i) := by
  simp [State.modIsl, State.setIsl, State.island]

theorem State.island_modIsl_ne (s : State) {i j : Nat} (f : IslSt → IslSt) (h : j ≠ i) : (s.modIsl i f).island j = s.island j :=
  tabGet_tabSet_ne _ _ _ h

/-- The state of the islands alone differs. -/
structure IslOnly (s t : State) : Prop where
  frame : { t with isl := s.isl } = s

theorem IslOnly.refl (s : State) : IslOnly s s := ⟨rfl⟩

theorem IslOnly.trans {s t u : State} (h : IslOnly s t) (k : IslOnly t u) : IslOnly s u := by
  refine ⟨?_⟩
  calc { u with isl := s.isl } = { ({ u with isl := t.isl } : State) with isl := s.isl } := rfl
    _ = { t with isl := s.isl } := by rw [k.frame]
    _ = s := h.frame

theorem IslOnly.modIsl (s : State) (i : Nat) (f : IslSt → IslSt) : IslOnly s (s.modIsl i f) := ⟨rfl⟩

theorem IslOnly.foldl {ι : Type} (op : State → ι → State) (hop : ∀ u i, IslOnly u (op u i)) (l : List ι) (s : State) :
    IslOnly s (l.foldl op s) :=
  List.foldlRecOn l op (IslOnly.refl s) fun u hu i _ => hu.trans (hop u i)

theorem IslOnly.regs {s t : State} (h : IslOnly s t) : t.regs = s.regs := (congrArg State.regs h.frame :)

theorem IslOnly.fuse {s t : State} (h : IslOnly s t) : t.fuse = s.fuse := (congrArg State.fuse h.frame :)

/-- Both islands changed in place where a test of each holds. -/
def State.modIslands (s : State) (c : State → Nat → Bool) (f : IslSt → IslSt) : State :=
  [0, 1].foldl (fun s i => if c s i then s.modIsl i f else s) s

theorem State.modIslands_islOnly (s : State) (c : State → Nat → Bool) (f : IslSt → IslSt) : IslOnly s (s.modIslands c f) := by
  refine IslOnly.foldl _ (fun u i => ?_) _ s
  split
  · exact IslOnly.modIsl u i f
  · exact IslOnly.refl u

/-- Where the test looks at the island alone, each island changes by its own test. -/
theorem State.island_modIslands (s : State) (c : IslSt → Bool) (f : IslSt → IslSt) {i : Nat} (hi : i < 2) :
    (s.modIslands (fun s i => c (s.island i)) f).island i = if c (s.island i) then f (s.island i) else s.island i := by
  have hstep : ∀ (u : State) (j k : Nat), (if c (u.island j) then u.modIsl j f else u).island k =
      if k = j ∧ c (u.island j) then f (u.island k) else u.island k := by
    intro u j k
    by_cases hc : c (u.island j) = true
    · by_cases hk : k = j
      · simp [hc, hk, State.island_modIsl_same]
      · simp [hc, hk, State.island_modIsl_ne]
    · simp [hc]
  have h0 := hstep s 0
  simp only [State.modIslands, List.foldl_cons, List.foldl_nil]
  generalize (if c (s.island 0) = true then s.modIsl 0 f else s) = u at h0
  rw [hstep u 1 i, h0 1, h0 i]
  obtain rfl | rfl : i = 0 ∨ i = 1 := by omega
  all_goals simp

/-! ### The end of the block resets (R67) -/

/-- The fields that the end of a page's block reset writes. -/
def readyFields (p : Nat) : List Fld := [F.BLK_STATUS_in_reset p, F.BLK_STATUS_ready p]

/-- The registers of a page whose block leaves its reset. -/
def State.showReady (s : State) (p : Nat) : State := (s.put (F.BLK_STATUS_in_reset p) 0).put (F.BLK_STATUS_ready p) 1

/-- An island that waits for the reset of a page waits no longer. -/
def IslSt.noEngine (v : IslSt) : IslSt := { v with engine := none }

theorem State.blockReady_eq (s : State) (p : Nat) :
    s.blockReady p = (s.showReady p).modIslands (fun s i => decide ((s.island i).engine = some p)) IslSt.noEngine := by
  simp only [State.blockReady, State.modIslands, decide_eq_true_eq]
  rfl

theorem State.get_blockReady (s : State) (p : Nat) (g : Fld) : (s.blockReady p).get g = (s.showReady p).get g := by
  have h : IslOnly (s.showReady p) (s.blockReady p) := by
    rw [State.blockReady_eq]
    exact State.modIslands_islOnly _ _ _
  exact State.get_of_regs h.regs h.fuse g

theorem State.get_blockReady_in_reset (s : State) (p q : Nat) :
    (s.blockReady p).get (F.BLK_STATUS_in_reset q) = if q = p then 0 else s.get (F.BLK_STATUS_in_reset q) := by
  have hbits : (F.BLK_STATUS_ready p).apart (F.BLK_STATUS_in_reset p) :=
    Fld.apart_bits ⟨le_rfl, by simp⟩ ⟨le_rfl, by simp⟩ rfl rfl (by simp)
  rw [State.get_blockReady, State.showReady]
  by_cases h : q = p
  · rw [if_pos h, h, State.get_put_apart _ hbits, State.get_put_same _ _ ⟨le_rfl, by simp⟩, Nat.zero_mod]
  · have ha : ∀ f : Fld, f.page = p → f.off = 0xC → f.apart (F.BLK_STATUS_in_reset q) := fun f hp ho =>
      Fld.apart_key (by simp only [regKey, hp, ho]; omega)
    rw [if_neg h, State.get_put_apart _ (ha _ rfl rfl), State.get_put_apart _ (ha _ rfl rfl)]

theorem State.get_blockReady_ready (s : State) (p q : Nat) :
    (s.blockReady p).get (F.BLK_STATUS_ready q) = if q = p then 1 else s.get (F.BLK_STATUS_ready q) := by
  rw [State.get_blockReady, State.showReady]
  by_cases h : q = p
  · rw [if_pos h, h, State.get_put_same _ _ ⟨le_rfl, by simp⟩]
    rfl
  · have ha : ∀ f : Fld, f.page = p → f.off = 0xC → f.apart (F.BLK_STATUS_ready q) := fun f hp ho =>
      Fld.apart_key (by simp only [regKey, hp, ho]; omega)
    rw [if_neg h, State.get_put_apart _ (ha _ rfl rfl), State.get_put_apart _ (ha _ rfl rfl)]

theorem FieldsBut.blockReady {fs : List Fld} {s t : State} (h : FieldsBut fs s t) {p : Nat} (hf : ∀ f ∈ readyFields p, f ∈ fs) :
    FieldsBut fs s (t.blockReady p) := fun g hg =>
  (t.get_blockReady p g).trans (((h.put (hf _ (by simp [readyFields])) 0).put (hf _ (by simp [readyFields])) 1) g hg)

theorem State.island_blockReady (s : State) (p : Nat) {i : Nat} (hi : i < 2) :
    (s.blockReady p).island i = { s.island i with
      engine := if (s.island i).engine = some p then none else (s.island i).engine } := by
  have hisl : (s.showReady p).island i = s.island i := rfl
  rw [State.blockReady_eq, (s.showReady p).island_modIslands (fun v => decide (v.engine = some p)) _ hi, hisl]
  by_cases h : (s.island i).engine = some p <;> simp [h, IslSt.noEngine]

/-- What the end of the resets changes: registers and the islands. -/
structure RegsIslOnly (s t : State) : Prop where
  frame : { t with regs := s.regs, isl := s.isl } = s

theorem RegsIslOnly.trans {s t u : State} (h : RegsIslOnly s t) (k : RegsIslOnly t u) : RegsIslOnly s u := by
  refine ⟨?_⟩
  calc { u with regs := s.regs, isl := s.isl }
      = { ({ u with regs := t.regs, isl := t.isl } : State) with regs := s.regs, isl := s.isl } := rfl
    _ = { t with regs := s.regs, isl := s.isl } := by rw [k.frame]
    _ = s := h.frame

theorem State.blockReady_regsIslOnly (s : State) (p : Nat) : RegsIslOnly s (s.blockReady p) := by
  have h : IslOnly (s.showReady p) (s.blockReady p) := by
    rw [State.blockReady_eq]
    exact State.modIslands_islOnly _ _ _
  exact ⟨congrArg (fun u : State => { u with regs := s.regs }) h.frame⟩

/-- Blocks out of their resets, one page after the other. -/
def State.allReady (s : State) (l : List Nat) : State := l.foldl State.blockReady s

theorem State.get_allReady_in_reset (l : List Nat) (s : State) (q : Nat) :
    (s.allReady l).get (F.BLK_STATUS_in_reset q) = if q ∈ l then 0 else s.get (F.BLK_STATUS_in_reset q) := by
  induction l generalizing s with
  | nil => rfl
  | cons p l ih =>
    refine (ih (s.blockReady p)).trans ?_
    rw [State.get_blockReady_in_reset]
    by_cases hq : q ∈ l <;> by_cases hp : q = p <;> simp [hq, hp]

theorem State.get_allReady_ready (l : List Nat) (s : State) (q : Nat) :
    (s.allReady l).get (F.BLK_STATUS_ready q) = if q ∈ l then 1 else s.get (F.BLK_STATUS_ready q) := by
  induction l generalizing s with
  | nil => rfl
  | cons p l ih =>
    refine (ih (s.blockReady p)).trans ?_
    rw [State.get_blockReady_ready]
    by_cases hq : q ∈ l <;> by_cases hp : q = p <;> simp [hq, hp]

theorem State.allReady_fieldsBut (s : State) (l : List Nat) : FieldsBut (l.flatMap readyFields) s (s.allReady l) :=
  (FieldsBut.refl _ s).foldl _ _ fun _ hu p hp => hu.blockReady fun _ hf => List.mem_flatMap.2 ⟨p, hp, hf⟩

theorem State.allReady_regsIslOnly (s : State) (l : List Nat) : RegsIslOnly s (s.allReady l) :=
  List.foldlRecOn (motive := fun u : State => RegsIslOnly s u) _ _ ⟨rfl⟩ fun u hu p _ => hu.trans (u.blockReady_regsIslOnly p)

theorem State.island_allReady (l : List Nat) (s : State) {i : Nat} (hi : i < 2) :
    (s.allReady l).island i = { s.island i with
      engine := if (s.island i).engine.any fun p => l.contains p then none else (s.island i).engine } := by
  induction l generalizing s with
  | nil => cases h : (s.island i).engine <;> simp [State.allReady, ← h]
  | cons p l ih =>
    refine (ih (s.blockReady p)).trans ?_
    rw [State.island_blockReady s p hi]
    cases h : (s.island i).engine with
    | none => simp
    | some q => by_cases hq : q = p <;> simp [hq]

/-- What the end of the resets comes to (R67). -/
theorem blockResetDone_outcome (s : State) (hne : s.pagesInReset ≠ []) :
    ∃ t, exec .blockResetDone s = .next t ∧ t.pagesInReset = []
      ∧ (∀ p ∈ s.pagesInReset, t.get (F.BLK_STATUS_ready p) = 1) ∧ t.get F.GEN_BLK_RESET_busy = 0
      ∧ FieldsBut (F.GEN_BLK_RESET_busy :: s.pagesInReset.flatMap fun p => [F.BLK_STATUS_in_reset p, F.BLK_STATUS_ready p]) s t
      ∧ (∀ i, i < 2 → t.island i = { s.island i with
          engine := if (s.island i).engine.any fun p => s.pagesInReset.contains p then none else (s.island i).engine })
      ∧ { t with regs := s.regs, isl := s.isl } = s := by
  have hbusy : ∀ f : Fld, f.off = 0xC → F.GEN_BLK_RESET_busy.apart f := fun f ho =>
    Fld.apart_of_off (by simp [ho])
  refine ⟨(s.allReady s.pagesInReset).put F.GEN_BLK_RESET_busy 0, ?_, ?_, fun p hp => ?_, ?_, ?_, fun i hi => ?_,
    (s.allReady_regsIslOnly _).frame⟩
  · exact congrArg Host.Outcome.next (if_neg hne)
  · refine List.filter_eq_nil_iff.2 fun p hp => ?_
    rw [State.flag, State.get_put_apart _ (hbusy _ rfl), State.get_allReady_in_reset]
    split
    · simp
    next hno => exact fun h => hno (List.mem_filter.2 ⟨hp, h⟩)
  · rw [State.get_put_apart _ (hbusy _ rfl), State.get_allReady_ready, if_pos hp]
  · exact State.get_put_same _ _ ⟨le_rfl, by simp⟩ 0
  · exact ((s.allReady_fieldsBut _).mono fun _ => List.mem_cons_of_mem _).put List.mem_cons_self 0
  · exact State.island_allReady s.pagesInReset s hi

/-! ### The request for a module reset (R70) -/

/-- An island decides on a module reset. -/
def IslSt.wantsModule (cause : Nat) (v : IslSt) : IslSt := { v with modDue := setAdd v.modDue cause }

/-- The running islands taken once are those found running one after the other: a decision leaves what runs. -/
theorem State.allWantModule_eq (s : State) (cause : Nat) :
    s.allWantModule cause = s.modIslands (fun s i => (s.island i).running) (IslSt.wantsModule cause) := by
  have hrun : ((s.modIsl 0 (IslSt.wantsModule cause)).island 1).running = (s.island 1).running := by
    rw [State.island_modIsl_ne _ _ (by decide)]
  simp only [State.allWantModule, State.islandsUp, State.islUp, State.modIslands, List.foldl_cons, List.foldl_nil]
  by_cases h0 : (s.island 0).running <;> by_cases h1 : (s.island 1).running <;> simp [h0, h1, hrun] <;> rfl

/-- What the request for a module reset comes to (R70). -/
theorem moduleResetReq_outcome (s : State) (acc : Acc) (s2 : State) (w : Word) (h : s.written pgGEN 0x060 acc = some (s2, w))
    (hw : w.getLsbD 0 = true) :
    ∃ t, exec (.moduleResetReq acc) s = .next t
      ∧ (∀ i, i < 2 → t.island i = if s2.islUp i then { s2.island i with modDue := setAdd (s2.island i).modDue 2 } else s2.island i)
      ∧ { t with isl := s2.isl } = s2 := by
  refine ⟨s2.allWantModule 2, congrArg Host.Outcome.next ?_, fun i hi => ?_, ?_⟩
  · exact (State.command_of_written h _).trans (by rw [if_pos hw])
  · rw [State.allWantModule_eq, s2.island_modIslands IslSt.running _ hi]
    rfl
  · rw [State.allWantModule_eq]
    exact (State.modIslands_islOnly _ _ _).frame

end Sys2Proof.Machine
end

section
/-! SUPPORT. What a block shows again after its reset (R66, R67): it writes no BLK_LEVEL and not GEN_BLK_RESET. -/

namespace Sys2Proof.Machine

/-- From `s` to `t` no BLK_LEVEL changed, nor GEN_BLK_RESET, nor who armed a page. -/
structure LevelKept (s t : State) : Prop where
  armedBy : t.armedBy = s.armedBy
  cell : ∀ k, k = regKey 0 0x104 ∨ k % 512 = 2 → tabFind t.regs k = tabFind s.regs k

theorem LevelKept.refl (s : State) : LevelKept s s := ⟨rfl, fun _ _ => rfl⟩

theorem LevelKept.trans {s t u : State} (h : LevelKept s t) (k : LevelKept t u) : LevelKept s u :=
  ⟨k.armedBy.trans h.armedBy, fun i hi => (k.cell i hi).trans (h.cell i hi)⟩

theorem LevelKept.of_regs {s t : State} (hr : t.regs = s.regs) (ha : t.armedBy = s.armedBy) : LevelKept s t :=
  ⟨ha, fun _ _ => by rw [hr]⟩

/-- A register at an offset of its own, on a page behind GEN's. -/
theorem LevelKept.put {s t : State} (h : LevelKept s t) {f : Fld} (hf : f.page ≠ 0 ∧ f.off < 0x800 ∧ f.off / 4 ≠ 2) (v : Nat) :
    LevelKept s (t.put f v) :=
  h.trans ⟨rfl, fun k hk => tabFind_tabSet_ne _ _ (by simp only [regKey] at *; omega)⟩

theorem LevelKept.raise {s t : State} (h : LevelKept s t) (p b : Nat) : LevelKept s (t.raise p b) := by
  have hword : LevelKept s (t.putWord p 0x10 (t.regWord p 0x10 ||| (1#32 <<< b))) :=
    h.trans ⟨rfl, fun k hk => tabFind_tabSet_ne _ _ (by simp only [regKey] at *; omega)⟩
  have hedge : LevelKept s ((t.putWord p 0x10 (t.regWord p 0x10 ||| (1#32 <<< b))).irqEdge (t.irqLevel p) p) := by
    unfold State.irqEdge
    split
    · exact hword.put (by simp) _
    · exact hword
  unfold State.raise
  extract_lets l s1 isl
  change LevelKept s s1 at hedge
  split
  · exact hedge.trans (LevelKept.of_regs rfl rfl)
  · exact hedge

theorem LevelKept.foldl {ι : Type} (op : State → ι → State) (hop : ∀ u i, LevelKept u (op u i)) (l : List ι) (s : State) :
    LevelKept s (l.foldl op s) :=
  List.foldlRecOn l op (LevelKept.refl s) fun u hu i _ => hu.trans (hop u i)

/-! ### Memory controllers -/

theorem State.wqShow_levelKept (s : State) (k : Nat) : LevelKept s (s.wqShow k) := by
  unfold State.wqShow State.putMax
  extract_lets n
  have h : LevelKept s (s.put (F.MC_WQ_entries k) n) := (LevelKept.refl s).put (by simp) _
  split
  · exact h.put (by simp) _
  · exact h

theorem State.wqEmpty_levelKept (s : State) (k : Nat) : LevelKept s (s.wqEmpty k) := by
  have h : ∀ m, LevelKept s (s.setMc k m) := fun m => LevelKept.of_regs rfl rfl
  exact (h _).trans (State.wqShow_levelKept _ k)

theorem State.mcMode_levelKept (s : State) (k : Nat) : LevelKept s (s.mcMode k) := by
  unfold State.mcMode
  extract_lets m
  split
  · exact LevelKept.refl s
  · split
    · exact ((LevelKept.refl s).put (by simp) _).put (by simp) _
    · split
      · have h : LevelKept s (if m = 2 then s.wqEmpty k else s) := by
          split
          · exact s.wqEmpty_levelKept k
          · exact LevelKept.refl s
        exact (h.put (by simp) _).put (by simp) _
      · exact ((LevelKept.refl s).put (by simp) _).put (by simp) _

theorem State.mcModes_levelKept (s : State) : LevelKept s s.mcModes :=
  LevelKept.foldl _ (fun u k => u.mcMode_levelKept k) _ s

/-! ### Dips of a rail -/

theorem State.dipReport_levelKept (s : State) (r : Nat) (p : DipSt) : LevelKept s (s.dipReport r p) := by
  unfold State.dipReport
  extract_lets s1 s2
  have h1 : LevelKept s s1 := (((LevelKept.refl s).put (by simp) _).put (by simp) _).put (by simp) _
  have h2 : LevelKept s s2 := (h1.put (by simp) _).raise _ _
  clear_value s2
  split
  · exact (h2.put (by simp) _).raise _ _
  · exact h2

theorem State.dipsReport_levelKept (s : State) : LevelKept s s.dipsReport := by
  unfold State.dipsReport
  exact LevelKept.foldl _ (fun u (e : Nat × DipSt) => u.dipReport_levelKept e.1 e.2) _ s

/-! ### Links of the domain -/

theorem State.xPut_levelKept (s : State) (l : Nat) (f : XFrame) : LevelKept s (s.xPut l f) := by
  unfold State.xPut
  extract_lets k c g left s1 s2
  have h1 : LevelKept s s1 := LevelKept.of_regs rfl rfl
  have h2 : LevelKept s s2 := by
    unfold s2
    split
    · exact h1.put (by simp) _
    · exact h1
  clear_value s2
  split
  · exact h2
  · exact h2.trans (LevelKept.of_regs rfl rfl)

theorem State.xTransmit_levelKept (s : State) (l : Nat) (f : XFrame) : LevelKept s (s.xTransmit l f) := by
  unfold State.xTransmit
  extract_lets k
  split
  · exact LevelKept.of_regs rfl rfl
  · exact s.xPut_levelKept l f

theorem State.floodOwn_levelKept (s : State) : LevelKept s s.floodOwn := by
  unfold State.floodOwn
  extract_lets g s1
  have h1 : LevelKept s s1 := LevelKept.of_regs rfl rfl
  exact h1.trans (LevelKept.foldl _ (fun u l => u.xTransmit_levelKept l _) _ _)

theorem State.domainForm_levelKept (s : State) : LevelKept s s.domainForm := by
  unfold State.domainForm
  extract_lets training s1 s2
  split
  · exact LevelKept.refl s
  · exact (((LevelKept.refl s).put (by simp) _).trans (LevelKept.foldl _ (fun u l => u.xTransmit_levelKept l _) _ s1)).trans
      (State.floodOwn_levelKept s2)

theorem State.linkTrain_levelKept (s : State) (l : Nat) : LevelKept s (s.linkTrain l) :=
  (((LevelKept.refl s).put (by simp) _).put (by simp) _).trans (State.domainForm_levelKept _)

/-! ### All blocks -/

/-- What a page shows again after its block's reset leaves BLK_LEVEL, GEN_BLK_RESET and who armed a page. -/
theorem State.blockShows_levelKept (s old : State) (b : Blk) (inst : Nat) : LevelKept s (s.blockShows old b inst) := by
  have h := LevelKept.refl s
  cases b
  case sup => exact s.dipsReport_levelKept
  case sec =>
    have hs : LevelKept s
        (if old.sec.update.isSome then s.put F.SEC_UPDATE_CMD_state (old.get F.SEC_UPDATE_CMD_state) else s) := by
      split
      · exact h.put (by simp) _
      · exact h
    exact ((hs.put (by simp) _).put (by simp) _).put (by simp) _
  case jrn =>
    change LevelKept s (if old.replaying then (s.put F.JRN_STATUS_state 4).put F.JRN_STATUS_stop_cause 9 else s)
    split
    · exact (h.put (by simp) _).put (by simp) _
    · exact h
  case xl =>
    change LevelKept s (if old.flag (F.XL_CTRL_enable inst) then s.linkTrain inst else s)
    split
    · exact s.linkTrain_levelKept inst
    · exact h
  case farm => exact (h.put (by simp) _).put (by simp) _
  case mc => exact (((h.put (by simp) _).put (by simp) _).put (by simp) _).trans (State.mcMode_levelKept _ inst)
  case memg =>
    exact ((((((h.put (by simp) _).put (by simp) _).put (by simp) _).put (by simp) _).put (by simp) _).put (by simp) _).trans
      (State.mcModes_levelKept _)
  case pwr | dike | st | psr | nor => exact h.put (by simp) _
  all_goals exact h

end Sys2Proof.Machine
end

section
/-! SUPPORT. GEN_BLK_RESET through what a block's reset ends (R66, R67): no block's own operation writes it. -/

namespace Sys2Proof.Machine

/-- The stored copies of GEN_BLK_RESET. -/
def resetCell (t : Tab RegCell) : Option RegCell := tabFind t (regKey 0 0x104)

/-! ### Registers -/

theorem regKey_ne_reset {p o : Nat} (hp : p ≠ 0) : regKey 0 0x104 ≠ regKey p o := by
  simp only [regKey]
  omega

@[simp] theorem resetCell_put (s : State) {f : Fld} (hf : f.page ≠ 0) (v : Nat) : resetCell (s.put f v).regs = resetCell s.regs :=
  tabFind_tabSet_ne _ _ (regKey_ne_reset hf)

@[simp] theorem resetCell_putB (s : State) {f : Fld} (hf : f.page ≠ 0) (b : Bool) :
    resetCell (s.putB f b).regs = resetCell s.regs := resetCell_put s hf _

@[simp] theorem resetCell_satInc (s : State) {f : Fld} (hf : f.page ≠ 0) : resetCell (s.satInc f).regs = resetCell s.regs :=
  resetCell_put s hf _

@[simp] theorem resetCell_count (s : State) {f : Fld} (hf : f.page ≠ 0) (n : Nat) :
    resetCell (s.count f n).regs = resetCell s.regs := resetCell_put s hf _

@[simp] theorem resetCell_putWord (s : State) {p : Nat} (hp : p ≠ 0) (o : Nat) (w : Word) :
    resetCell (s.putWord p o w).regs = resetCell s.regs := tabFind_tabSet_ne _ _ (regKey_ne_reset hp)

@[simp] theorem resetCell_clearPage (s : State) {p : Nat} (hp : p ≠ 0) (keep : Nat → Bool) :
    resetCell (s.clearPage p keep).regs = resetCell s.regs := by
  have hkey : regKey 0 0x104 / 512 ≠ p := by simp [regKey, hp.symm]
  exact (tabFind_filter _ (fun k => decide (k / 512 ≠ p) || keep (k % 512 * 4)) _).trans (if_pos (by simp [hkey]))

@[simp] theorem resetCell_ite (c : Prop) [Decidable c] (s t : State) :
    resetCell (if c then s else t).regs = if c then resetCell s.regs else resetCell t.regs := by
  split <;> rfl

@[simp] theorem resetCell_putMax (s : State) {f : Fld} (hf : f.page ≠ 0) (v : Nat) :
    resetCell (s.putMax f v).regs = resetCell s.regs := by
  simp [State.putMax, hf]

@[simp] theorem resetCell_msiPend (s : State) (v : Nat) : resetCell (s.msiPend v).regs = resetCell s.regs :=
  resetCell_put s (by simp) _

@[simp] theorem resetCell_irqEdge (s : State) (before : Bool) (p : Nat) :
    resetCell (s.irqEdge before p).regs = resetCell s.regs := by
  simp [State.irqEdge]

@[simp] theorem resetCell_raise (s : State) (p b : Nat) : resetCell (s.raise p b).regs = resetCell s.regs := by
  have hput : ∀ w, resetCell (s.putWord p 0x10 w).regs = resetCell s.regs := fun w =>
    tabFind_tabSet_ne _ _ (by simp only [regKey]; omega)
  simp [State.raise, hput]

@[simp] theorem resetCell_raiseIf (s : State) (c : Bool) (p b : Nat) : resetCell (s.raiseIf c p b).regs = resetCell s.regs := by
  simp [State.raiseIf]

/-- What keeps the register one time after the other keeps it in the end. -/
@[simp] theorem resetCell_foldl {ι : Type} (op : State → ι → State) (h : ∀ u i, resetCell (op u i).regs = resetCell u.regs) (l : List ι)
    (s : State) : resetCell (l.foldl op s).regs = resetCell s.regs :=
  List.foldlRecOn (motive := fun u : State => resetCell u.regs = resetCell s.regs) l op rfl fun u hu i _ => (h u i).trans hu

theorem LevelKept.resetCell {s t : State} (h : LevelKept s t) : resetCell t.regs = resetCell s.regs := h.cell _ (.inl rfl)

/-! ### Memory -/

@[simp] theorem resetCell_poke (s : State) (a : Nat) (bs : List Byte) (p : Bool) : resetCell (s.poke a bs p).regs = resetCell s.regs := rfl

@[simp] theorem resetCell_pokeNat (s : State) (a n v : Nat) : resetCell (s.pokeNat a n v).regs = resetCell s.regs := rfl

@[simp] theorem resetCell_countUnmapped (s : State) (a : Nat) : resetCell (s.countUnmapped a).regs = resetCell s.regs := by
  unfold State.countUnmapped
  split <;> simp

@[simp] theorem resetCell_setMc (s : State) (k : Nat) (m : McSt) : resetCell (s.setMc k m).regs = resetCell s.regs := rfl

@[simp] theorem resetCell_wqShow (s : State) (k : Nat) : resetCell (s.wqShow k).regs = resetCell s.regs :=
  (s.wqShow_levelKept k).resetCell

@[simp] theorem resetCell_wqEmpty (s : State) (k : Nat) : resetCell (s.wqEmpty k).regs = resetCell s.regs :=
  (s.wqEmpty_levelKept k).resetCell

@[simp] theorem resetCell_mcMode (s : State) (k : Nat) : resetCell (s.mcMode k).regs = resetCell s.regs :=
  (s.mcMode_levelKept k).resetCell

@[simp] theorem resetCell_ccAccess (s : State) (k ch x : Nat) (write : Bool) :
    resetCell (s.ccAccess k ch x write).regs = resetCell s.regs := by
  unfold State.ccAccess
  extract_lets
  split <;> simp

@[simp] theorem resetCell_wqAccept (s : State) (k ch w : Nat) : resetCell (s.wqAccept k ch w).regs = resetCell s.regs := by
  unfold State.wqAccept
  extract_lets m m1 m2
  split
  · rfl
  · split <;> simp

@[simp] theorem resetCell_flushStart (s : State) (k : Nat) : resetCell (s.flushStart k).regs = resetCell s.regs := by
  simp [State.flushStart]

@[simp] theorem resetCell_flushEnd (s : State) (k : Nat) : resetCell (s.flushEnd k).regs = resetCell s.regs := by
  simp [State.flushEnd]

@[simp] theorem resetCell_errLoc (s : State) (k ch x byte : Nat) (scrub cache : Bool) :
    resetCell (s.errLoc k ch x byte scrub cache).regs = resetCell s.regs := by
  simp [State.errLoc]

@[simp] theorem resetCell_rowRetireStart (s : State) (k ch bank row : Nat) :
    resetCell (s.rowRetireStart k ch bank row).regs = resetCell s.regs := by
  simp [State.rowRetireStart]

@[simp] theorem resetCell_mcCorrected (s : State) (k ch x byte : Nat) (scrub : Bool) :
    resetCell (s.mcCorrected k ch x byte scrub).regs = resetCell s.regs := by
  have hpage : (if ch = 0 then F.MC_CORR_ch0 k else F.MC_CORR_ch1 k).page ≠ 0 := by split <;> simp
  simp [State.mcCorrected, hpage]

@[simp] theorem resetCell_mcUncorrectable (s : State) (k ch x : Nat) (scrub : Bool) :
    resetCell (s.mcUncorrectable k ch x scrub).regs = resetCell s.regs := by
  have hpage : (if ch = 0 then F.MC_UNCORR_ch0 k else F.MC_UNCORR_ch1 k).page ≠ 0 := by split <;> simp
  simp [State.mcUncorrectable, hpage]

@[simp] theorem resetCell_mcTouch (s : State) (write : Bool) (w : Nat) : resetCell (s.mcTouch write w).regs = resetCell s.regs := by
  simp [State.mcTouch]

@[simp] theorem resetCell_mcTouches (s : State) (write : Bool) (a n : Nat) :
    resetCell (s.mcTouches write a n).regs = resetCell s.regs := by
  simp [State.mcTouches]

@[simp] theorem resetCell_logRead (s : State) (w : Nat) : resetCell (s.logRead w).regs = resetCell s.regs := by
  unfold State.logRead
  split
  iterate 2 rfl
  extract_lets
  split <;> simp

@[simp] theorem resetCell_load (s : State) (a n : Nat) : resetCell (s.load a n).1.regs = resetCell s.regs := by
  unfold State.load
  split <;> simp

@[simp] theorem resetCell_storeRaw (s : State) (a : Nat) (bs : List Byte) (p : Bool) :
    resetCell (s.storeRaw a bs p).regs = resetCell s.regs := by
  simp [State.storeRaw]

@[simp] theorem resetCell_applyInject (s : State) (w : Nat) : resetCell (s.applyInject w).regs = resetCell s.regs := by
  unfold State.applyInject
  split
  · extract_lets
    split <;> rfl
  · rfl

@[simp] theorem resetCell_rfxWrite (s : State) (isl : Option Nat) (p a : Nat) (bs : List Byte) (poison : Bool) :
    resetCell (s.rfxWrite isl p a bs poison).regs = resetCell s.regs := by
  simp [State.rfxWrite]

@[simp] theorem resetCell_storeBy (s : State) (isl : Option Nat) (a : Nat) (bs : List Byte) (poison : Bool) :
    resetCell (s.storeBy isl a bs poison).regs = resetCell s.regs := by
  unfold State.storeBy
  extract_lets b
  split
  · refine resetCell_foldl _ (fun u p => ?_) _ s
    split <;> simp
  · simp

@[simp] theorem resetCell_collGo (s : State) (a n : Nat) : resetCell (s.collGo a n).regs = resetCell s.regs := by
  simp [State.collGo]

@[simp] theorem resetCell_store (s : State) (a : Nat) (bs : List Byte) (poison : Bool) :
    resetCell (s.store a bs poison).regs = resetCell s.regs := by
  simp [State.store]

@[simp] theorem resetCell_fenceAdd (s : State) (o n : Nat) : resetCell (s.fenceAdd o n).regs = resetCell s.regs := by
  simp [State.fenceAdd]

/-! ### Journal, queues and jobs -/

@[simp] theorem resetCell_ringPoke (base units : Nat) (l : List (List Byte)) (s : State) (unit : Nat) :
    resetCell (s.ringPoke base units unit l).regs = resetCell s.regs := by
  induction l generalizing s unit with
  | nil => rfl
  | cons u l ih => exact ih _ _

@[simp] theorem resetCell_exportUntil (need n : Nat) (s : State) : resetCell (s.exportUntil need n).regs = resetCell s.regs := by
  induction n generalizing s with
  | zero => rfl
  | succ n ih => simp [State.exportUntil, State.exportNext, ih]

@[simp] theorem resetCell_ringPut (s : State) (r : List Byte) : resetCell (s.ringPut r).regs = resetCell s.regs := by
  simp [State.ringPut]

@[simp] theorem resetCell_droppedShow (s : State) : resetCell s.droppedShow.regs = resetCell s.regs := by
  simp [State.droppedShow]

@[simp] theorem resetCell_recordLost (s : State) (r : List Byte) : resetCell (s.recordLost r).regs = resetCell s.regs := by
  simp [State.recordLost]

@[simp] theorem resetCell_recordMissed (s : State) (r : List Byte) : resetCell (s.recordMissed r).regs = resetCell s.regs := by
  simp [State.recordMissed]

@[simp] theorem resetCell_ringRecord (s : State) (r : List Byte) : resetCell (s.ringRecord r).regs = resetCell s.regs := by
  simp [State.ringRecord]

@[simp] theorem resetCell_journalWrite (s : State) : resetCell s.journalWrite.regs = resetCell s.regs := by
  unfold State.journalWrite
  split <;> simp

@[simp] theorem resetCell_stage (s : State) (r : List Byte) : resetCell (s.stage r).regs = resetCell s.regs := by
  simp [State.stage, State.stagePut]

@[simp] theorem resetCell_record (s : State) (kind flags src aux0 aux1 aux2 : Nat) (payload : List Byte) :
    resetCell (s.record kind flags src aux0 aux1 aux2 payload).regs = resetCell s.regs := resetCell_stage s _

@[simp] theorem resetCell_publish (s : State) (kind flags src aux0 aux1 aux2 : Nat) (payload : List Byte) :
    resetCell (s.publish kind flags src aux0 aux1 aux2 payload).regs = resetCell s.regs := by
  simp [State.publish]

@[simp] theorem resetCell_farmIdle (s : State) : resetCell s.farmIdle.regs = resetCell s.regs := by
  simp [State.farmIdle]

@[simp] theorem resetCell_replayStop (s : State) (cause : Nat) : resetCell (s.replayStop cause).regs = resetCell s.regs := by
  simp [State.replayStop]

@[simp] theorem resetCell_closeHostData (s : State) : resetCell s.closeHostData.regs = resetCell s.regs := by
  unfold State.closeHostData
  split <;> simp

@[simp] theorem resetCell_setQueue (s : State) (q : Nat) (v : QSt) : resetCell (s.setQueue q v).regs = resetCell s.regs := by
  simp [State.setQueue, State.pendShow]

@[simp] theorem resetCell_ringEntry (s : State) (q : Nat) (r : List Byte) : resetCell (s.ringEntry q r).regs = resetCell s.regs := by
  simp [State.ringEntry]

@[simp] theorem resetCell_setJob (s : State) (j : Job) : resetCell (s.setJob j).regs = resetCell s.regs := rfl

@[simp] theorem resetCell_modJob (s : State) (q i : Nat) (f : Job → Job) : resetCell (s.modJob q i f).regs = resetCell s.regs := rfl

@[simp] theorem resetCell_cqWrite (s : State) (n : Nat) (r : List Byte) : resetCell (s.cqWrite n r).regs = resetCell s.regs := by
  simp [State.cqWrite]

@[simp] theorem resetCell_complete (s : State) (n : Nat) (r : List Byte) : resetCell (s.complete n r).regs = resetCell s.regs := by
  simp [State.complete]

/-! ### Arrays -/

@[simp] theorem resetCell_setArr (s : State) (n : Nat) (a : ArrSt) : resetCell (s.setArr n a).regs = resetCell s.regs := rfl

@[simp] theorem resetCell_modArr (s : State) (n : Nat) (f : ArrSt → ArrSt) : resetCell (s.modArr n f).regs = resetCell s.regs := rfl

@[simp] theorem resetCell_suspectArr (s : State) (n : Nat) : resetCell (s.suspectArr n).regs = resetCell s.regs := by
  simp [State.suspectArr, State.setService]

@[simp] theorem resetCell_redShow (s : State) (j : Job) : resetCell (s.redShow j).regs = resetCell s.regs := by
  simp [State.redShow]

@[simp] theorem resetCell_redRelease (s : State) (j : Job) : resetCell (s.redRelease j).regs = resetCell s.regs := by
  simp [State.redRelease]

@[simp] theorem resetCell_stopSlots (s : State) (j : Job) (self cause : Nat) :
    resetCell (s.stopSlots j self cause).regs = resetCell s.regs := by
  simp [State.stopSlots]

@[simp] theorem resetCell_slotFault (s : State) (n cause : Nat) : resetCell (s.slotFault n cause).regs = resetCell s.regs := by
  unfold State.slotFault State.slotFaultAt
  extract_lets a s0 s1 s2 s3
  have h3 : resetCell s3.regs = resetCell s.regs := by simp [s3, s2, s1, s0]
  clear_value s3
  split
  · rfl
  · split <;> simp [h3]

@[simp] theorem resetCell_slotGone (s : State) (n : Nat) : resetCell (s.slotGone n).regs = resetCell s.regs := by
  unfold State.slotGone
  extract_lets slot s1
  have h1 : resetCell s1.regs = resetCell s.regs := by
    unfold s1
    split <;> simp
  simp [h1]

/-! ### Commands of the hub and reads outside the module -/

@[simp] theorem resetCell_projShow (s : State) : resetCell s.projShow.regs = resetCell s.regs := by
  simp [State.projShow]

@[simp] theorem resetCell_hubShow (s : State) (cls : Nat) : resetCell (s.hubShow cls).regs = resetCell s.regs := by
  simp [State.hubShow]

@[simp] theorem resetCell_commandDone (s : State) (q i : Nat) (d : Option DWord) :
    resetCell (s.commandDone q i d).regs = resetCell s.regs := resetCell_hubShow _ _

@[simp] theorem resetCell_commandFailed (s : State) (q i : Nat) : resetCell (s.commandFailed q i).regs = resetCell s.regs := by
  simp [State.commandFailed]

@[simp] theorem resetCell_hostWrite (s : State) (addr : Nat) (bs : List Byte) (bad : Bool) :
    resetCell (s.hostWrite addr bs bad).regs = resetCell s.regs := by
  simp [State.hostWrite, State.emit]

@[simp] theorem resetCell_dmaEnd (s : State) (q i : Nat) (bs : List Byte) (bad : Bool) :
    resetCell (s.dmaEnd q i bs bad).regs = resetCell s.regs := by
  simp [State.dmaEnd]

@[simp] theorem resetCell_extDeliver (s : State) (r : ExtRead) (bs : List Byte) (bad : Bool) :
    resetCell (s.extDeliver r bs bad).regs = resetCell s.regs := by
  unfold State.extDeliver
  split <;> simp [State.flyData, State.flyBits]

@[simp] theorem resetCell_readFailed (s : State) (r : ExtRead) : resetCell (s.readFailed r).regs = resetCell s.regs := by
  simp [State.readFailed, State.recordHostRead]

/-! ### The KV manager -/

@[simp] theorem resetCell_kvSet (s : State) (page old new : Nat) : resetCell (s.kvSet page old new).regs = resetCell s.regs := by
  unfold State.kvSet
  extract_lets s1
  have h1 : resetCell s1.regs = resetCell s.regs := resetCell_store _ _ _ _
  split <;> simp [h1]

@[simp] theorem resetCell_kvBlockFault (s : State) : resetCell s.kvBlockFault.regs = resetCell s.regs := by
  simp [State.kvBlockFault]

@[simp] theorem resetCell_kvWord (s : State) (page : Nat) : resetCell (s.kvWord page).1.regs = resetCell s.regs := by
  unfold State.kvWord
  extract_lets a r
  have hr : resetCell r.1.regs = resetCell s.regs := resetCell_load _ _ _
  split
  · simp [hr]
  · split <;> simp [hr]

@[simp] theorem resetCell_kvReturn (s : State) (page old : Nat) : resetCell (s.kvReturn page old).regs = resetCell s.regs := by
  unfold State.kvReturn
  split <;> simp

@[simp] theorem resetCell_kvDec (s : State) (page dref dpin : Nat) :
    resetCell (s.kvDec page dref dpin).1.regs = resetCell s.regs := by
  unfold State.kvDec
  extract_lets r
  have hr : resetCell r.1.regs = resetCell s.regs := resetCell_kvWord _ _
  split
  · exact hr
  · extract_lets ref pins
    split_ifs <;> simp [hr]

@[simp] theorem resetCell_kvNote (s : State) (f : KvFail) (seq layer queue : Nat) :
    resetCell (s.kvNote f seq layer queue).regs = resetCell s.regs := by
  simp [State.kvNote]

/-! ### Jobs that end -/

@[simp] theorem resetCell_detPair (s : State) (run rec : DetEnt) : resetCell (s.detPair run rec).regs = resetCell s.regs := by
  simp [State.detPair]

@[simp] theorem resetCell_detOverflow (s : State) : resetCell s.detOverflow.regs = resetCell s.regs := by
  simp [State.detOverflow]

@[simp] theorem resetCell_detAdd (s : State) (e : DetEnt) (run : Bool) : resetCell (s.detAdd e run).regs = resetCell s.regs := by
  unfold State.detAdd
  split
  · rfl
  · split
    · split <;> simp
    · split <;> simp

@[simp] theorem resetCell_checkpoint (s : State) (j : Job) : resetCell (s.checkpoint j).regs = resetCell s.regs :=
  resetCell_record s _ _ _ _ _ _ _

@[simp] theorem resetCell_jobSignals (s : State) (j : Job) : resetCell (s.jobSignals j).regs = resetCell s.regs := by
  simp [State.jobSignals]

@[simp] theorem resetCell_jobDone (s : State) (j : Job) : resetCell (s.jobDone j).regs = resetCell s.regs := by
  unfold State.jobDone
  extract_lets s0 s1 s2 s3 s4 us r s5a s5 v u s6 gone bad
  have h4 : resetCell s4.regs = resetCell s.regs := by simp [s4, s3, s2, s1, s0]
  have hus : resetCell us.2.regs = resetCell s.regs := by
    refine Eq.trans ?_ h4
    unfold us
    split <;> rfl
  have h6 : resetCell s6.regs = resetCell s.regs := by simp [s6, u, s5, s5a, hus]
  clear_value s6
  simp [State.tellIslands, h6]

/-! ### Ingress and fusion -/

@[simp] theorem resetCell_modStream (s : State) (n : Nat) (f : StreamSt → StreamSt) :
    resetCell (s.modStream n f).regs = resetCell s.regs := rfl

@[simp] theorem resetCell_putStreamOn (s : State) (n : Nat) (b : Bool) : resetCell (s.putStreamOn n b).regs = resetCell s.regs := by
  simp [State.putStreamOn]

@[simp] theorem resetCell_healthBad (s : State) (n : Nat) : resetCell (s.healthBad n).regs = resetCell s.regs := by
  simp [State.healthBad, State.health]

@[simp] theorem resetCell_dropItem (s : State) (n : Nat) : resetCell (s.dropItem n).regs = resetCell s.regs := by
  simp [State.dropItem]

@[simp] theorem resetCell_dropNumbered (s : State) (n : Nat) (r : IngRec) : resetCell (s.dropNumbered n r).regs = resetCell s.regs := by
  simp [State.dropNumbered]

@[simp] theorem resetCell_frameDrop (s : State) (n : Nat) : resetCell (s.frameDrop n).regs = resetCell s.regs := by
  simp [State.frameDrop]

@[simp] theorem resetCell_streamStop (s : State) (n : Nat) : resetCell (s.streamStop n).regs = resetCell s.regs := by
  simp [State.streamStop]

@[simp] theorem resetCell_fusIdle (s : State) : resetCell s.fusIdle.regs = resetCell s.regs := by
  simp [State.fusIdle]

@[simp] theorem resetCell_fusFail (s : State) (q i : Nat) : resetCell (s.fusFail q i).regs = resetCell s.regs := rfl

@[simp] theorem resetCell_fusFailAll (s : State) : resetCell s.fusFailAll.regs = resetCell s.regs :=
  (resetCell_put _ (by simp) _).trans (resetCell_foldl _ (fun u (p : Instant) => resetCell_fusFail u p.queue p.index) _ s)

/-! ### Planning -/

@[simp] theorem resetCell_planShow (s : State) : resetCell s.planShow.regs = resetCell s.regs := by
  simp [State.planShow]

@[simp] theorem resetCell_twinFrame (s : State) (typ : Nat) (payload : List Byte) :
    resetCell (s.twinFrame typ payload).regs = resetCell s.regs :=
  ((s.xTransmit_levelKept 6 _).trans (State.xTransmit_levelKept _ 7 _)).resetCell

@[simp] theorem resetCell_twinSend (s : State) (slot number flags digest : Nat) :
    resetCell (s.twinSend slot number flags digest).regs = resetCell s.regs := by
  simp [State.twinSend]

@[simp] theorem resetCell_planTell (s : State) (slot number flags digest : Nat) (stop : List Byte) :
    resetCell (s.planTell slot number flags digest stop).regs = resetCell s.regs := by
  simp [State.planTell]

@[simp] theorem resetCell_planCount (s : State) (flags : Nat) : resetCell (s.planCount flags).regs = resetCell s.regs := by
  simp [State.planCount]

@[simp] theorem resetCell_planJobCheck (s : State) (q i : Nat) : resetCell (s.planJobCheck q i).regs = resetCell s.regs := by
  unfold State.planJobCheck
  split
  · rfl
  · split_ifs <;> rfl

@[simp] theorem resetCell_planStop (s : State) (q i status cmd : Nat) :
    resetCell (s.planStop q i status cmd).regs = resetCell s.regs := rfl

@[simp] theorem resetCell_planTile (s : State) (q : PlanQ) (how : PlanEnd) (digest : Nat) :
    resetCell (s.planTile q how digest).regs = resetCell s.regs := by
  simp [State.planTile]

@[simp] theorem resetCell_planFinish (s : State) (q : PlanQ) (how : PlanEnd) (outcome flags : Nat) (kept : List Byte) :
    resetCell (s.planFinish q how outcome flags kept).regs = resetCell s.regs := by
  simp [State.planFinish, State.planDrop]

@[simp] theorem resetCell_planKept (s : State) (q : PlanQ) (how : PlanEnd) : resetCell (s.planKept q how).regs = resetCell s.regs :=
  resetCell_planFinish s q how _ _ _

/-! ### The domain -/

@[simp] theorem resetCell_linkDown (s : State) (l state : Nat) : resetCell (s.linkDown l state).regs = resetCell s.regs := by
  unfold State.linkDown
  extract_lets s1 k s2 s3
  have h2 : resetCell s2.regs = resetCell s.regs := by simp [s2, s1, State.setXl]
  have h3 : resetCell s3.regs = resetCell s.regs := by simp [s3, h2]
  exact s3.domainForm_levelKept.resetCell.trans h3

@[simp] theorem resetCell_domainEnd (s : State) : resetCell s.domainEnd.regs = resetCell s.regs := by
  simp [State.domainEnd, State.twinRestart, State.xGone, State.xLoseGroups, State.xLoseReads, State.xLose, State.extDone]

@[simp] theorem resetCell_collEnd (s : State) (n status : Nat) : resetCell (s.collEnd n status).regs = resetCell s.regs := by
  simp [State.collEnd]

/-! ### What each block ends -/

@[simp] theorem resetCell_ingReset (s : State) : resetCell s.ingReset.regs = resetCell s.regs := by
  simp [State.ingReset]

@[simp] theorem resetCell_classFail (s : State) (cls : Nat) : resetCell (s.classFail cls).regs = resetCell s.regs := by
  simp [State.classFail]

@[simp] theorem resetCell_fusReset (s : State) : resetCell s.fusReset.regs = resetCell s.regs := resetCell_fusFailAll s

@[simp] theorem resetCell_projReset (s : State) : resetCell s.projReset.regs = resetCell s.regs := resetCell_classFail s 4

@[simp] theorem resetCell_reflexRefused (s : State) (port epoch : Nat) :
    resetCell (s.reflexRefused port epoch).regs = resetCell s.regs := rfl

@[simp] theorem resetCell_collReset (s : State) : resetCell s.collReset.regs = resetCell s.regs := by
  unfold State.collReset
  extract_lets s1 s2 s3
  have h1 : resetCell s1.regs = resetCell s.regs := resetCell_foldl _ (fun u _ => resetCell_reflexRefused u _ _) _ s
  have h2 : resetCell s2.regs = resetCell s1.regs := resetCell_foldl _ (fun u _ => resetCell_reflexRefused u _ _) _ s1
  change resetCell s3.regs = resetCell s.regs
  refine Eq.trans ?_ (h2.trans h1)
  unfold s3
  split
  · exact resetCell_commandFailed s2 _ _
  · rfl

@[simp] theorem resetCell_planReset (s : State) : resetCell s.planReset.regs = resetCell s.regs := by
  unfold State.planReset
  extract_lets s1 s2
  have h1 : resetCell s1.regs = resetCell s.regs := by simp [s1]
  change resetCell s2.regs = resetCell s.regs
  refine Eq.trans ?_ h1
  unfold s2
  split
  · exact resetCell_commandFailed s1 _ _
  · rfl

@[simp] theorem resetCell_kvReset (s : State) : resetCell s.kvReset.regs = resetCell s.regs := by
  simp [State.kvReset]

@[simp] theorem resetCell_jrnReset (s : State) : resetCell s.jrnReset.regs = resetCell s.regs := by
  simp [State.jrnReset]

@[simp] theorem resetCell_dropPins (s : State) (n : Nat) : resetCell (s.dropPins n).regs = resetCell s.regs := by
  unfold State.dropPins
  refine resetCell_foldl _ (fun u f => ?_) _ s
  cases f.kvF with
  | none => rfl
  | some q =>
    refine resetCell_foldl _ (fun v p => ?_) _ u
    have hd := resetCell_kvDec v p.1 0 1
    simp only []
    split <;> simp [hd]

@[simp] theorem resetCell_slotAborted (s : State) (n : Nat) : resetCell (s.slotAborted n).regs = resetCell s.regs := by
  simp [State.slotAborted]

@[simp] theorem resetCell_qengAbort1 (s : State) (j : Job) : resetCell (s.qengAbort1 j).regs = resetCell s.regs := by
  simp [State.qengAbort1]

@[simp] theorem resetCell_queueOff (s : State) (q : Nat) : resetCell (s.queueOff q).regs = resetCell s.regs := by
  simp [State.queueOff]

@[simp] theorem resetCell_buildOver (s : State) : resetCell s.buildOver.regs = resetCell s.regs := by
  simp [State.buildOver]

@[simp] theorem resetCell_qengReset (s : State) : resetCell s.qengReset.regs = resetCell s.regs := by
  simp [State.qengReset]

@[simp] theorem resetCell_xgsReset (s : State) : resetCell s.xgsReset.regs = resetCell s.regs := by
  simp [State.xgsReset]

@[simp] theorem resetCell_pcieReset (s : State) : resetCell s.pcieReset.regs = resetCell s.regs := by
  have hcfg : ∀ u : State, resetCell u.cfgWritten.regs = resetCell u.regs := fun u => by simp [State.cfgWritten]
  simp [State.pcieReset, State.extDone, hcfg]

@[simp] theorem resetCell_faultForward (s : State) : resetCell s.faultForward.regs = resetCell s.regs := by
  have hsend : ∀ (u : State) (i : Nat) (sent : Bool) (e : FltEvent), resetCell (u.deliver i sent e).regs = resetCell u.regs := by
    intro u i sent e
    have hpage : (if i = 0 then F.FLT_FORWARD_LOST_sia else F.FLT_FORWARD_LOST_sib).page ≠ 0 := by split <;> simp
    simp [State.deliver, State.modIsl, State.setIsl, hpage]
  unfold State.faultForward
  split
  · rfl
  · simp [hsend]

@[simp] theorem resetCell_setStDie (s : State) (d : Nat) (v : StestDie) : resetCell (s.setStDie d v).regs = resetCell s.regs := rfl

@[simp] theorem resetCell_stestReset (s : State) : resetCell s.stestReset.regs = resetCell s.regs := by
  have hlost : ∀ (u : State) (d : Nat), resetCell (u.sliceLost d).regs = resetCell u.regs := by
    intro u d
    unfold State.sliceLost
    extract_lets v
    split
    · rfl
    · simp
  simp [State.stestReset, hlost]

@[simp] theorem resetCell_farmReset (s : State) : resetCell s.farmReset.regs = resetCell s.regs := by
  simp [State.farmReset]

@[simp] theorem resetCell_arrReset (s : State) (n : Nat) (byDie : Bool) : resetCell (s.arrReset n byDie).regs = resetCell s.regs := by
  simp [State.arrReset, State.capsSet]

/-- What a page's block ends and forgets leaves GEN_BLK_RESET. -/
theorem resetCell_blockEnds (s : State) (b : Blk) (inst : Nat) : resetCell (s.blockEnds b inst).regs = resetCell s.regs := by
  cases b
  case dike => exact tabFind_tabSet_ne _ _ (by decide)
  case csi => exact resetCell_foldl _ (fun u v => resetCell_frameDrop u _) _ s
  case flt => exact resetCell_foldl _ (fun u _ => resetCell_faultForward u) _ s
  all_goals simp [State.blockEnds, State.wardReset, State.memgReset]

end Sys2Proof.Machine
end

section
/-! SUPPORT. Block resets (R66, R67, R69): what a reset that goes leaves, and O12. -/

namespace Sys2Proof.Machine

/-! ### A page cleared -/

theorem State.get_of_tabFind {s t : State} {g : Fld}
    (h : tabFind t.regs (regKey g.page g.off) = tabFind s.regs (regKey g.page g.off)) (hf : t.fuse = s.fuse) : t.get g = s.get g := by
  simp only [State.get, State.regWord, State.cell, h, hf]

theorem tabFind_clearPage (s : State) (p : Nat) (keep : Nat → Bool) (k : Nat) :
    tabFind (s.clearPage p keep).regs k = if decide (k / 512 ≠ p) || keep (k % 512 * 4) then tabFind s.regs k else none :=
  tabFind_filter _ (fun k => decide (k / 512 ≠ p) || keep (k % 512 * 4)) k

/-- A header register that is not listed reads its reset value. -/
theorem State.regWord_header_of_unlisted {s : State} {p o : Nat} {d : RegDef} (ho : o < 0x20) (hd : regAt p o = some d)
    (h : tabFind s.regs (regKey p o) = none) : s.regWord p o = BitVec.ofNat 32 d.resetNat := by
  simp [State.regWord, State.cell, h, RegCell.vote_same, resetWord_header _ ho hd]

theorem State.blkLevel_of_unlisted {s : State} {p : Nat} {r : PageRun} (hr : pageRun p = some r)
    (h : tabFind s.regs (regKey p 8) = none) : s.regWord p 8 = 0#32 := by
  rw [State.regWord_header_of_unlisted (by omega) (regAt_header hr (by omega)) h]
  rfl

theorem State.irqEnable_of_unlisted {s : State} {p : Nat} {r : PageRun} (hr : pageRun p = some r)
    (h : tabFind s.regs (regKey p 0x14) = none) : s.regWord p 0x14 = 0#32 := by
  rw [State.regWord_header_of_unlisted (by omega) (regAt_header hr (by omega)) h]
  rfl

/-- The offsets of a page that its block's reset keeps. -/
def resetKeeps (b : Blk) : Nat → Bool :=
  if b = .arr then fun off => !(off == 8) && !(off == 0x10) && !(off == 0x18) else blockKeeps b

/-- BLK_LEVEL is kept by no reset. -/
theorem resetKeeps_level (b : Blk) : resetKeeps b 8 = false := by cases b <;> rfl

/-- The page's registers as its block's reset clears them. -/
def State.resetCleared (s : State) (p : Nat) (r : PageRun) : State :=
  (s.blockEnds r.blk (p - r.first)).clearPage p (resetKeeps r.blk)

/-- The page with what it shows again. -/
def State.resetShown (s : State) (p : Nat) (r : PageRun) : State := (s.resetCleared p r).blockShows s r.blk (p - r.first)

theorem State.blockReset_eq (s : State) {p : Nat} {r : PageRun} (hr : pageRun p = some r) :
    s.blockReset p = ((s.resetShown p r).put (F.BLK_STATUS_ready p) 0).put (F.BLK_STATUS_in_reset p) 1 := by
  simp only [State.blockReset, hr]
  rfl

/-! ### What every block's reset leaves -/

theorem State.blockReset_status (s : State) {p : Nat} {r : PageRun} (hr : pageRun p = some r) :
    (s.blockReset p).get (F.BLK_STATUS_in_reset p) = 1 ∧ (s.blockReset p).get (F.BLK_STATUS_ready p) = 0 := by
  have hbits : (F.BLK_STATUS_in_reset p).apart (F.BLK_STATUS_ready p) :=
    Fld.apart_bits ⟨le_rfl, by simp⟩ ⟨le_rfl, by simp⟩ rfl rfl (by simp)
  rw [s.blockReset_eq hr]
  refine ⟨State.get_put_same _ _ ⟨le_rfl, by simp⟩ 1, ?_⟩
  rw [State.get_put_apart _ hbits]
  exact State.get_put_same _ _ ⟨le_rfl, by simp⟩ 0

/-- The page is at basic level. -/
theorem State.blockReset_level (s : State) {p : Nat} {r : PageRun} (hr : pageRun p = some r) :
    (s.blockReset p).get (F.BLK_LEVEL_expert p) = 0 := by
  have hcleared : tabFind (s.resetCleared p r).regs (regKey p 8) = none := by
    have hkey : regKey p 8 / 512 = p ∧ regKey p 8 % 512 * 4 = 8 := by
      simp only [regKey]
      omega
    rw [State.resetCleared, tabFind_clearPage, hkey.1, hkey.2, resetKeeps_level, if_neg (by simp)]
  have hshown : tabFind (s.resetShown p r).regs (regKey p 8) = none :=
    ((State.blockShows_levelKept _ _ _ _).cell _ (.inr (by simp only [regKey]; omega))).trans hcleared
  have hstatus : ∀ f : Fld, f.off = 0xC → f.apart (F.BLK_LEVEL_expert p) := fun f ho => Fld.apart_of_off (by simp [ho])
  rw [s.blockReset_eq hr, State.get_put_apart _ (hstatus _ rfl), State.get_put_apart _ (hstatus _ rfl), State.get,
    State.blkLevel_of_unlisted hr hshown]
  simp [Fld.ext]

/-- The page is armed by none. -/
theorem State.blockReset_armedBy (s : State) {p : Nat} {r : PageRun} (hr : pageRun p = some r) :
    tabFind (s.blockReset p).armedBy p = none := by
  have hshown : (s.resetShown p r).armedBy = (s.resetCleared p r).armedBy := (State.blockShows_levelKept _ _ _ _).armedBy
  have harmed : (s.blockReset p).armedBy = (s.resetShown p r).armedBy := by
    rw [s.blockReset_eq hr]
    rfl
  rw [harmed, hshown]
  exact tabFind_tabDel_same _ p

/-- GEN_BLK_RESET reads as before. -/
theorem State.get_blockReset_genBlkReset (s : State) {p : Nat} {r : PageRun} (hr : pageRun p = some r) (hp : p ≠ 0) {g : Fld}
    (hg : g.page = 0 ∧ g.off = 0x104) {c : RegCell} (hc : resetCell s.regs = some c) : (s.blockReset p).get g = s.get g := by
  have hshown : resetCell (s.resetShown p r).regs = resetCell s.regs := by
    have hcleared : resetCell (s.resetCleared p r).regs = resetCell s.regs :=
      (resetCell_clearPage _ hp _).trans (resetCell_blockEnds s _ _)
    exact (State.blockShows_levelKept _ _ _ _).resetCell.trans hcleared
  have hreset : resetCell (s.blockReset p).regs = some c := by
    rw [s.blockReset_eq hr, resetCell_put _ hp, resetCell_put _ hp, hshown, hc]
  obtain ⟨hpage, hoff⟩ := hg
  simp only [resetCell] at hreset hc
  simp only [State.get, State.regWord, State.cell, hpage, hoff, hreset, hc]

/-! ### Blocks whose reset stays on their page -/

/-- The blocks whose reset changes no other page. -/
def pageBlocks : List Blk := [.disc, .xslot, .pwr, .thm, .fenceB, .st, .eth, .psr, .nor, .det, .ego, .sec]

/-- From `s` to `t` only registers of page `p` changed, and its BLK_IRQ_ENABLE did not. -/
structure PageOnly (p : Nat) (s t : State) : Prop where
  frame : { t with regs := s.regs } = s
  cell : ∀ k, k / 512 ≠ p ∨ k % 512 = 5 → tabFind t.regs k = tabFind s.regs k

theorem PageOnly.refl (p : Nat) (s : State) : PageOnly p s s := ⟨rfl, fun _ _ => rfl⟩

theorem PageOnly.put {p : Nat} {s t : State} (h : PageOnly p s t) {f : Fld} (hp : f.page = p) (ho : f.off < 0x800 ∧ f.off / 4 ≠ 5)
    (v : Nat) : PageOnly p s (t.put f v) :=
  ⟨h.frame, fun k hk => (tabFind_tabSet_ne _ _ (by simp only [regKey] at *; omega)).trans (h.cell k hk)⟩

/-- Where the fields stand that such a page shows again. -/
theorem pageDir_shown : ∀ r ∈ pageDir, (r.blk = .pwr → r.first = 1 ∧ r.count = 1) ∧ (r.blk = .sec → r.first = 4 ∧ r.count = 1)
    ∧ (r.blk = .st → r.first = 224) ∧ (r.blk = .psr → r.first = 228) ∧ (r.blk = .nor → r.first = 230) := by decide

theorem State.blockShows_pageOnly (s old : State) {p : Nat} {r : PageRun} (hr : pageRun p = some r) (hb : r.blk ∈ pageBlocks) :
    PageOnly p s (s.blockShows old r.blk (p - r.first)) := by
  have h := PageOnly.refl p s
  obtain ⟨hlo, hhi⟩ := pageRun_range hr
  obtain ⟨hpwr, hsec, hst, hpsr, hnor⟩ := pageDir_shown r (pageRun_mem hr)
  cases hk : r.blk
  case pwr => exact h.put (by have := hpwr hk; simp only; omega) (by simp) _
  case st => exact h.put (by have := hst hk; simp only; omega) (by simp) _
  case psr => exact h.put (by have := hpsr hk; simp only; omega) (by simp) _
  case nor => exact h.put (by have := hnor hk; simp only; omega) (by simp) _
  case sec =>
    have hp : 4 = p := by have := hsec hk; omega
    have hs : PageOnly p s
        (if old.sec.update.isSome then s.put F.SEC_UPDATE_CMD_state (old.get F.SEC_UPDATE_CMD_state) else s) := by
      split
      · exact h.put hp (by simp) _
      · exact h
    exact ((hs.put hp (by simp) _).put hp (by simp) _).put hp (by simp) _
  case disc | xslot | thm | fenceB | eth | det | ego => exact h
  all_goals exact absurd hb (by simp [hk, pageBlocks])

/-- What such a block ends: its own state. -/
theorem State.blockEnds_pageBlocks (s : State) {b : Blk} (hb : b ∈ pageBlocks) (inst : Nat) :
    s.blockEnds b inst = { s with
      det := if b = .det then {} else s.det
      ego := if b = .ego then {} else s.ego
      egoIn := if b = .ego then [] else s.egoIn
      sec := if b = .sec then { s.sec with attest := none } else s.sec } := by
  cases b
  case disc | xslot | pwr | thm | fenceB | st | eth | psr | nor | det | ego | sec => rfl
  all_goals exact absurd hb (by simp [pageBlocks])

/-- Such a block keeps no interrupt enable. -/
theorem resetKeeps_irqEnable {b : Blk} (hb : b ∈ pageBlocks) : resetKeeps b 0x14 = false := by
  cases b
  case arr => exact absurd hb (by simp [pageBlocks])
  all_goals rfl

/-- From the page cleared to the end of the reset only registers of the page change, and not its interrupt enables. -/
theorem State.blockReset_pageOnly (s : State) {p : Nat} {r : PageRun} (hr : pageRun p = some r) (hb : r.blk ∈ pageBlocks) :
    PageOnly p (s.resetCleared p r) (s.blockReset p) := by
  rw [s.blockReset_eq hr]
  exact ((State.blockShows_pageOnly _ s hr hb).put rfl (by simp) 0).put rfl (by simp) 1

theorem State.resetCleared_regs (s : State) {p : Nat} {r : PageRun} (hb : r.blk ∈ pageBlocks) (k : Nat) :
    tabFind (s.resetCleared p r).regs k = if decide (k / 512 ≠ p) || resetKeeps r.blk (k % 512 * 4) then tabFind s.regs k else none := by
  rw [State.resetCleared, tabFind_clearPage, s.blockEnds_pageBlocks hb]

/-- No register of another page changes. -/
theorem State.get_blockReset (s : State) {p : Nat} {r : PageRun} (hr : pageRun p = some r) (hb : r.blk ∈ pageBlocks) {g : Fld}
    (hg : regKey g.page g.off / 512 ≠ p) : (s.blockReset p).get g = s.get g := by
  have h := s.blockReset_pageOnly hr hb
  have hfuse : (s.blockReset p).fuse = s.fuse := by
    have he : (s.resetCleared p r).fuse = s.fuse := by
      rw [State.resetCleared, s.blockEnds_pageBlocks hb]
      rfl
    exact (congrArg State.fuse h.frame :).trans he
  refine State.get_of_tabFind ?_ hfuse
  rw [h.cell _ (.inl hg), s.resetCleared_regs hb, if_pos (by simp [hg])]

/-- The page's interrupt enables are cleared. -/
theorem State.blockReset_irqEnable (s : State) {p : Nat} {r : PageRun} (hr : pageRun p = some r) (hb : r.blk ∈ pageBlocks) :
    (s.blockReset p).regWord p 0x14 = 0#32 := by
  have hkey : regKey p 0x14 / 512 = p ∧ regKey p 0x14 % 512 = 5 := by
    simp only [regKey]
    omega
  refine State.irqEnable_of_unlisted hr ?_
  rw [(s.blockReset_pageOnly hr hb).cell _ (.inr hkey.2), s.resetCleared_regs hb, hkey.1, hkey.2, resetKeeps_irqEnable hb,
    if_neg (by simp)]

/-- Nothing but registers, who armed a page and the block's own state changes. -/
theorem State.blockReset_frame (s : State) {p : Nat} {r : PageRun} (hr : pageRun p = some r) (hb : r.blk ∈ pageBlocks) :
    { s.blockReset p with regs := s.regs, armedBy := s.armedBy } = { s with
      det := if r.blk = .det then {} else s.det
      ego := if r.blk = .ego then {} else s.ego
      egoIn := if r.blk = .ego then [] else s.egoIn
      sec := if r.blk = .sec then { s.sec with attest := none } else s.sec } := by
  have h := (s.blockReset_pageOnly hr hb).frame
  have hends := s.blockEnds_pageBlocks hb (p - r.first)
  calc { s.blockReset p with regs := s.regs, armedBy := s.armedBy }
      = { ({ s.blockReset p with regs := (s.resetCleared p r).regs } : State) with regs := s.regs, armedBy := s.armedBy } := rfl
    _ = { s.resetCleared p r with regs := s.regs, armedBy := s.armedBy } := by rw [h]
    _ = { s.blockEnds r.blk (p - r.first) with regs := s.regs, armedBy := s.armedBy } := rfl
    _ = _ := by rw [hends]

/-! ### The command -/

/-- The state in which a reset that is accepted begins: refused is clear, busy set. -/
def State.resetTaken (s : State) : State := (s.put F.GEN_BLK_RESET_refused 0).put F.GEN_BLK_RESET_busy 1

theorem State.resetTaken_listed (s : State) : ∃ c, resetCell s.resetTaken.regs = some c :=
  ⟨_, tabFind_tabSet_same _ _ _⟩

theorem State.resetTaken_get (s : State) :
    s.resetTaken.get F.GEN_BLK_RESET_busy = 1 ∧ s.resetTaken.get F.GEN_BLK_RESET_refused = 0 := by
  have hbits : F.GEN_BLK_RESET_busy.apart F.GEN_BLK_RESET_refused :=
    Fld.apart_bits ⟨le_rfl, by simp⟩ ⟨le_rfl, by simp⟩ rfl rfl (by simp)
  refine ⟨State.get_put_same _ _ ⟨le_rfl, by simp⟩ 1, ?_⟩
  rw [State.resetTaken, State.get_put_apart _ hbits]
  exact State.get_put_same _ _ ⟨le_rfl, by simp⟩ 0

theorem exec_blockReset_refused {s s2 : State} {acc : Acc} {w : Word} (h : s.written pgGEN 0x104 acc = some (s2, w))
    (hw : w.getLsbD 31 = true) (hno : s2.blockResetNo (F.GEN_BLK_RESET_page.ext w) = true) :
    exec (.blockReset acc) s = .next (s2.put F.GEN_BLK_RESET_refused 1) :=
  congrArg Host.Outcome.next ((State.command_of_written h _).trans (by simp [hw, hno]))

theorem exec_blockReset_accepted {s s2 : State} {acc : Acc} {w : Word} (h : s.written pgGEN 0x104 acc = some (s2, w))
    (hw : w.getLsbD 31 = true) (hno : s2.blockResetNo (F.GEN_BLK_RESET_page.ext w) = false) :
    exec (.blockReset acc) s = .next (s2.resetTaken.blockReset (F.GEN_BLK_RESET_page.ext w)) :=
  congrArg Host.Outcome.next ((State.command_of_written h _).trans (by simp [hw, hno, State.resetTaken]))

/-- GEN's own page is reset by no such command (R69). -/
theorem State.blockResetNo_gen (s : State) : s.blockResetNo 0 = true := by simp [State.blockResetNo]

/-- What a reset that is accepted comes to (R66, R67). -/
theorem blockReset_outcome {s s2 : State} {acc : Acc} {w : Word} (h : s.written pgGEN 0x104 acc = some (s2, w))
    (hw : w.getLsbD 31 = true) (p : Nat) (r : PageRun) (hno : s2.blockResetNo (F.GEN_BLK_RESET_page.ext w) = false)
    (hp : F.GEN_BLK_RESET_page.ext w = p) (hr : pageRun p = some r) :
    ∃ t, exec (.blockReset acc) s = .next t
      ∧ t.get (F.BLK_STATUS_in_reset p) = 1 ∧ t.get (F.BLK_STATUS_ready p) = 0
      ∧ t.get F.GEN_BLK_RESET_busy = 1 ∧ t.get F.GEN_BLK_RESET_refused = 0
      ∧ t.get (F.BLK_LEVEL_expert p) = 0 ∧ tabFind t.armedBy p = none
      ∧ (r.blk ∈ [.disc, .xslot, .pwr, .thm, .fenceB, .st, .eth, .psr, .nor, .det, .ego, .sec] →
          PagesBut [p] [F.GEN_BLK_RESET_busy, F.GEN_BLK_RESET_refused] s2 t ∧ t.regWord p 0x014 = 0#32
          ∧ t.det = (if r.blk = .det then {} else s2.det) ∧ t.ego = (if r.blk = .ego then {} else s2.ego)
          ∧ t.egoIn = (if r.blk = .ego then [] else s2.egoIn) ∧ t.sec = (if r.blk = .sec then { s2.sec with attest := none } else s2.sec)
          ∧ { t with regs := s2.regs, armedBy := s2.armedBy, det := s2.det, ego := s2.ego, egoIn := s2.egoIn, sec := s2.sec } = s2) := by
  have hexec := exec_blockReset_accepted h hw hno
  have hgen : p ≠ 0 := by
    rintro rfl
    rw [hp, State.blockResetNo_gen] at hno
    exact absurd hno (by decide)
  rw [hp] at hexec
  obtain ⟨c, hc⟩ := s2.resetTaken_listed
  obtain ⟨hin, hready⟩ := s2.resetTaken.blockReset_status hr
  obtain ⟨hbusy, hrefused⟩ := s2.resetTaken_get
  refine ⟨_, hexec, hin, hready, ?_, ?_, s2.resetTaken.blockReset_level hr, s2.resetTaken.blockReset_armedBy hr, fun hb => ?_⟩
  · rw [State.get_blockReset_genBlkReset _ hr hgen ⟨rfl, rfl⟩ hc, hbusy]
  · rw [State.get_blockReset_genBlkReset _ hr hgen ⟨rfl, rfl⟩ hc, hrefused]
  · have hframe := s2.resetTaken.blockReset_frame hr hb
    refine ⟨fun g hg hfs => ?_, s2.resetTaken.blockReset_irqEnable hr hb, (congrArg State.det hframe :), (congrArg State.ego hframe :),
      (congrArg State.egoIn hframe :), (congrArg State.sec hframe :), ?_⟩
    · rw [s2.resetTaken.get_blockReset hr hb (by simpa using hg), State.resetTaken, State.get_put_apart _ (hfs _ (by simp)),
        State.get_put_apart _ (hfs _ (by simp))]
    · exact congrArg (fun u : State => { u with
        regs := s2.regs, armedBy := s2.armedBy, det := s2.det, ego := s2.ego, egoIn := s2.egoIn, sec := s2.sec }) hframe

/-- Settles O12: the scrub leaves copies that agree under the majorities they had, a reset is followed through the block's own operation,
the page cleared and what it shows again, and the islands are followed through the end of the resets and the request. -/
theorem scrubAndResets : Obligations.ScrubAndResets := by
  refine ⟨scrub_outcome, fun s => ⟨fun acc s2 w h hw => ⟨fun hno => ?_, blockReset_outcome h hw⟩, blockResetDone_outcome s,
    moduleResetReq_outcome s⟩⟩
  exact ⟨_, exec_blockReset_refused h hw hno, State.get_put_same _ _ ⟨le_rfl, by simp⟩ 1,
    (FieldsBut.refl _ s2).put List.mem_cons_self 1, rfl⟩

end Sys2Proof.Machine
end

section
/-! SUPPORT. Sums of partials in any order of arrival (R87 to R91). -/

namespace Sys2Proof.Machine

/-! ### Integer partials (R90) -/

/-- Two integer partials of one element added: the sum, poisoned where either is. -/
def PElt.addInt (x y : PElt) : PElt := ⟨x.val + y.val, x.bad || y.bad⟩

theorem PElt.addInt_comm (x y : PElt) : x.addInt y = y.addInt x := by
  simp only [PElt.addInt, Int.add_comm, Bool.or_comm]

theorem PElt.addInt_right_comm (x y z : PElt) : (x.addInt y).addInt z = (x.addInt z).addInt y := by
  simp only [PElt.addInt, Int.add_right_comm, Bool.or_right_comm]

/-- Integer partials add without flags. -/
theorem addEls_int (x y : List PElt) : addEls true x y = (List.zipWith PElt.addInt x y, 0) := by
  have hflags : ∀ l : List (PElt × PElt), (l.map fun p => (PElt.addInt p.1 p.2, 0)).foldl (fun f e => f ||| e.2) 0 = 0 := by
    intro l
    induction l with
    | nil => rfl
    | cons p l ih => simpa using ih
  refine Prod.ext ?_ (hflags _)
  simp [addEls, ← List.map_uncurry_zip_eq_zipWith, Function.uncurry_def, PElt.addInt]

theorem zipWith_addInt_right_comm : ∀ x y z : List PElt,
    List.zipWith PElt.addInt (List.zipWith PElt.addInt x y) z = List.zipWith PElt.addInt (List.zipWith PElt.addInt x z) y
  | a :: x, b :: y, c :: z => by simp [zipWith_addInt_right_comm x y z, PElt.addInt_right_comm a b c]
  | [], _, _ | _ :: _, [], [] | _ :: _, [], _ :: _ | _ :: _, _ :: _, [] => by simp

/-- An integer partial taken: the accumulator starts with the first and adds the others. -/
theorem TileSt.take_int {p : Partial} (hp : p.int = true) (t : TileSt) (exact : Bool) : t.take p exact =
    { t with acc := if t.count = 0 then p.els else List.zipWith PElt.addInt t.acc p.els, count := t.count + 1 } := by
  by_cases hc : t.count = 0 <;> simp [TileSt.take, hp, hc, addEls_int]

/-- Two integer partials may come in either order. -/
theorem TileSt.take_int_comm {p q : Partial} (hp : p.int = true) (hq : q.int = true) (t : TileSt) (exact : Bool) :
    (t.take p exact).take q exact = (t.take q exact).take p exact := by
  have hfirst : List.zipWith PElt.addInt p.els q.els = List.zipWith PElt.addInt q.els p.els :=
    List.zipWith_comm_of_comm PElt.addInt_comm
  by_cases hc : t.count = 0
  · simp [TileSt.take_int hp, TileSt.take_int hq, hc, hfirst]
  · simp [TileSt.take_int hp, TileSt.take_int hq, hc, zipWith_addInt_right_comm t.acc p.els q.els]

/-! ### The canonical tree over the K-tiles that have arrived (R87, R91) -/

/-- What the reduction adder holds of a node of the canonical tree: the sum of the whole node once it has formed, the entries
of the reduction buffer within the node, the flags of the additions made there. -/
structure RedTree where
  whole   : Option (List PElt)
  entries : List RedNode
  flags   : Nat

/-- A node of a single K-tile. -/
def redLeaf (els : Nat → Option (List PElt)) (lo n : Nat) : RedTree :=
  match if n = 1 then els lo else none with
  | some x => ⟨some x, [⟨lo, 1, x⟩], 0⟩
  | none => ⟨none, [], 0⟩

/-- A node over its two children: added once both have formed. -/
def redJoin (lo n : Nat) (u v : RedTree) : RedTree :=
  match u.whole, v.whole with
  | some x, some y => ⟨some (addEls false x y).1, [⟨lo, n, (addEls false x y).1⟩], u.flags ||| v.flags ||| (addEls false x y).2⟩
  | _, _ => ⟨none, u.entries ++ v.entries, u.flags ||| v.flags⟩

/-- Node (lo, n) of the canonical tree over the K-tiles of which `els` gives the partials that have arrived. -/
def redTree (els : Nat → Option (List PElt)) : Nat → Nat → Nat → RedTree
  | 0, lo, n => redLeaf els lo n
  | fuel + 1, lo, n =>
    if n ≤ 1 then redLeaf els lo n
    else redJoin lo n (redTree els fuel lo (treeSplit n)) (redTree els fuel (lo + treeSplit n) (n - treeSplit n))

theorem redJoin_of_none {lo n : Nat} {u v : RedTree} (h : u.whole = none ∨ v.whole = none) :
    redJoin lo n u v = ⟨none, u.entries ++ v.entries, u.flags ||| v.flags⟩ := by
  unfold redJoin
  split
  next x y hx hy => simp [hx, hy] at h
  next => rfl

theorem redJoin_whole_eq_none_iff {lo n : Nat} {u v : RedTree} :
    (redJoin lo n u v).whole = none ↔ u.whole = none ∨ v.whole = none := by
  cases hu : u.whole <;> cases hv : v.whole <;> simp [redJoin, hu, hv]

theorem treeSplit_pos (n : Nat) : 0 < treeSplit n := Nat.two_pow_pos _

theorem treeSplit_lt {n : Nat} (hn : 1 < n) : treeSplit n < n := by
  have := Nat.log2_self_le (n := n - 1) (by omega)
  simp only [treeSplit]
  omega

/-- Both children of a node of at most 2^(fuel + 1) K-tiles have at most 2^fuel. -/
theorem treeSplit_le {n fuel : Nat} (hn : 1 < n) (h : n ≤ 2 ^ (fuel + 1)) :
    treeSplit n ≤ 2 ^ fuel ∧ n - treeSplit n ≤ 2 ^ fuel := by
  have hlog : n - 1 < 2 ^ (Nat.log2 (n - 1) + 1) := Nat.lt_log2_self
  have hle : Nat.log2 (n - 1) ≤ fuel := by
    have hlt := (Nat.log2_lt (by omega)).2 (by omega : n - 1 < 2 ^ (fuel + 1))
    omega
  have hpow := Nat.pow_le_pow_right (n := 2) (by omega) hle
  simp only [treeSplit, pow_succ] at *
  omega

/-- The entry lies within [lo, lo + n). -/
def RedNode.inside (lo n : Nat) (e : RedNode) : Prop := lo ≤ e.lo ∧ e.lo + e.n ≤ lo + n ∧ 0 < e.n

/-- The entry shares no K-tile with [lo, lo + n). -/
def RedNode.outside (lo n : Nat) (e : RedNode) : Prop := (e.lo + e.n ≤ lo ∨ lo + n ≤ e.lo) ∧ 0 < e.n

/-- What a node holds: its own entry once it has formed, entries of smaller nodes within it before. -/
def RedTree.spans (lo n : Nat) (u : RedTree) : Prop :=
  match u.whole with
  | some x => u.entries = [⟨lo, n, x⟩] ∧ 0 < n
  | none => ∀ e ∈ u.entries, e.inside lo n ∧ e.n < n

theorem RedTree.spans.inside {lo n : Nat} {u : RedTree} (h : u.spans lo n) : ∀ e ∈ u.entries, e.inside lo n := by
  unfold RedTree.spans at h
  split at h
  · simp [h.1, RedNode.inside, h.2]
  · exact fun e he => (h e he).1

/-- Seen from the left child, the right child's entries lie beside it as those outside the node do. -/
theorem RedTree.spans.outside_left {lo n h : Nat} {v : RedTree} (hv : v.spans (lo + h) (n - h)) (hle : h ≤ n) {rest : List RedNode}
    (hrest : ∀ e ∈ rest, e.outside lo n) : ∀ e ∈ v.entries ++ rest, e.outside lo h := by
  intro e he
  rcases List.mem_append.1 he with he | he
  · have := hv.inside e he
    simp only [RedNode.inside, RedNode.outside] at *
    omega
  · have := hrest e he
    simp only [RedNode.outside] at *
    omega

/-- Seen from the right child, the left child's entries lie beside it as those outside the node do. -/
theorem RedTree.spans.outside_right {lo n h : Nat} {u : RedTree} (hu : u.spans lo h) (hle : h ≤ n) {rest : List RedNode}
    (hrest : ∀ e ∈ rest, e.outside lo n) : ∀ e ∈ u.entries ++ rest, e.outside (lo + h) (n - h) := by
  intro e he
  rcases List.mem_append.1 he with he | he
  · have := hu.inside e he
    simp only [RedNode.inside, RedNode.outside] at *
    omega
  · have := hrest e he
    simp only [RedNode.outside] at *
    omega

theorem redLeaf_spans (els : Nat → Option (List PElt)) (lo n : Nat) : (redLeaf els lo n).spans lo n := by
  unfold redLeaf
  by_cases hn : n = 1
  · cases h : els lo <;> simp [RedTree.spans, hn]
  · simp [RedTree.spans, hn]

theorem redJoin_spans {lo n h : Nat} {u v : RedTree} (hu : u.spans lo h) (hv : v.spans (lo + h) (n - h)) (hpos : 0 < h) (hlt : h < n) :
    (redJoin lo n u v).spans lo n := by
  unfold redJoin
  split
  · exact ⟨rfl, by omega⟩
  · intro e he
    rcases List.mem_append.1 he with he | he
    · have := hu.inside e he
      simp only [RedNode.inside] at *
      omega
    · have := hv.inside e he
      simp only [RedNode.inside] at *
      omega

theorem redTree_spans (els : Nat → Option (List PElt)) : ∀ fuel lo n, (redTree els fuel lo n).spans lo n
  | 0, lo, n => redLeaf_spans els lo n
  | fuel + 1, lo, n => by
    unfold redTree
    split
    · exact redLeaf_spans els lo n
    · exact redJoin_spans (redTree_spans els fuel _ _) (redTree_spans els fuel _ _) (treeSplit_pos n) (treeSplit_lt (by omega))

/-- A node depends on its own K-tiles alone. -/
theorem redTree_congr {els els' : Nat → Option (List PElt)} : ∀ {fuel lo n : Nat},
    (∀ k, lo ≤ k → k < lo + n → els k = els' k) → redTree els fuel lo n = redTree els' fuel lo n := by
  have hleaf : ∀ {lo n : Nat}, (∀ k, lo ≤ k → k < lo + n → els k = els' k) → redLeaf els lo n = redLeaf els' lo n := by
    intro lo n h
    unfold redLeaf
    by_cases hn : n = 1
    · rw [h lo le_rfl (by omega)]
    · simp only [hn, if_false]
  intro fuel
  induction fuel with
  | zero => exact hleaf
  | succ fuel ih =>
    intro lo n h
    unfold redTree
    split
    · exact hleaf h
    · have hlt := treeSplit_lt (n := n) (by omega)
      rw [ih fun k hlo hhi => h k hlo (by omega), ih fun k hlo hhi => h k (by omega) (by omega)]

/-- A node with a K-tile still missing has not formed. -/
theorem redTree_whole_of_missing {els : Nat → Option (List PElt)} {k : Nat} (hk : els k = none) :
    ∀ {fuel lo n : Nat}, lo ≤ k → k < lo + n → (redTree els fuel lo n).whole = none := by
  have hleaf : ∀ {lo n : Nat}, lo ≤ k → k < lo + n → (redLeaf els lo n).whole = none := by
    intro lo n hlo hhi
    unfold redLeaf
    by_cases hn : n = 1
    · obtain rfl : lo = k := by omega
      simp [hn, hk]
    · simp [hn]
  intro fuel
  induction fuel with
  | zero => exact hleaf
  | succ fuel ih =>
    intro lo n hlo hhi
    unfold redTree
    split
    · exact hleaf hlo hhi
    · by_cases hside : k < lo + treeSplit n
      · rw [redJoin_of_none (.inl (ih hlo hside))]
      · rw [redJoin_of_none (.inr (ih (Nat.le_of_not_lt hside) (by omega)))]

/-! ### The adder keeps the tree -/

theorem redFind_eq_none {l : List RedNode} {lo n : Nat} (h : ∀ e ∈ l, ¬(e.lo = lo ∧ e.n = n)) : redFind l lo n = none := by
  simpa [redFind] using h

/-- An entry is found where no other has its node. -/
theorem redFind_of_perm {l m : List RedNode} {x : RedNode} (hl : l.Perm (x :: m)) (hm : ∀ e ∈ m, ¬(e.lo = x.lo ∧ e.n = x.n)) :
    redFind l x.lo x.n = some x := by
  cases h : redFind l x.lo x.n with
  | none => exact absurd (List.find?_eq_none.1 h x (hl.mem_iff.2 List.mem_cons_self)) (by simp)
  | some y =>
    have hy : y.lo = x.lo ∧ y.n = x.n := by simpa using List.find?_some h
    rcases List.mem_cons.1 (hl.mem_iff.1 (List.mem_of_find?_eq_some h)) with rfl | hmem
    · rfl
    · exact absurd hy (hm y hmem)

/-- What the adder does at node (lo, n) after its child. -/
def redStep (lo n : Nat) (r : List RedNode × Nat) : List RedNode × Nat :=
  match redFind r.1 lo (treeSplit n), redFind r.1 (lo + treeSplit n) (n - treeSplit n) with
  | some x, some y =>
    (⟨lo, n, (addEls false x.els y.els).1⟩ :: r.1.filter fun e => decide (e ≠ x ∧ e ≠ y), r.2 ||| (addEls false x.els y.els).2)
  | _, _ => r

theorem redAdd_succ {fuel lo n t : Nat} (hn : 1 < n) (l : List RedNode) : redAdd (fuel + 1) lo n t l =
    redStep lo n (if t < lo + treeSplit n then redAdd fuel lo (treeSplit n) t l
      else redAdd fuel (lo + treeSplit n) (n - treeSplit n) t l) :=
  if_neg (Nat.not_le.2 hn)

theorem redAdd_leaf {fuel lo n t : Nat} (hn : n ≤ 1) (l : List RedNode) : redAdd fuel lo n t l = (l, 0) := by
  cases fuel <;> simp [redAdd, hn]

/-- Nothing is added at a node one of whose children has no entry. -/
theorem redStep_of_none {lo n : Nat} {r : List RedNode × Nat}
    (h : redFind r.1 lo (treeSplit n) = none ∨ redFind r.1 (lo + treeSplit n) (n - treeSplit n) = none) : redStep lo n r = r := by
  unfold redStep
  rcases h with h | h <;> simp [h]

/-- The entries of two children joined (R91), with other entries of the buffer beside them. -/
theorem redStep_join {lo n : Nat} (hn : 1 < n) {u v : RedTree} (hu : u.spans lo (treeSplit n))
    (hv : v.spans (lo + treeSplit n) (n - treeSplit n)) {rest : List RedNode} (hrest : ∀ e ∈ rest, e.outside lo n)
    {r : List RedNode × Nat} (hr : r.1.Perm (u.entries ++ v.entries ++ rest)) :
    (redStep lo n r).1.Perm ((redJoin lo n u v).entries ++ rest)
      ∧ ∀ f, u.flags ||| v.flags = f ||| r.2 → (redJoin lo n u v).flags = f ||| (redStep lo n r).2 := by
  have hpos := treeSplit_pos n
  have hlt := treeSplit_lt hn
  have hmem : ∀ e ∈ r.1, e ∈ u.entries ∨ e ∈ v.entries ∨ e.outside lo n := fun e he => by
    rcases List.mem_append.1 (hr.mem_iff.1 he) with h | h
    · exact (List.mem_append.1 h).imp_right .inl
    · exact .inr (.inr (hrest e h))
  unfold redJoin
  split
  next x y hx hy =>
    simp only [RedTree.spans, hx, hy] at hu hv
    rw [hu.1, hv.1] at hr
    have hfx : redFind r.1 lo (treeSplit n) = some ⟨lo, treeSplit n, x⟩ := by
      refine redFind_of_perm (x := ⟨lo, treeSplit n, x⟩) hr fun e he => ?_
      rcases List.mem_append.1 he with he | he
      · obtain rfl := List.mem_singleton.1 he
        simp only
        omega
      · have := hrest e he
        simp only [RedNode.outside] at *
        omega
    have hfy : redFind r.1 (lo + treeSplit n) (n - treeSplit n) = some ⟨lo + treeSplit n, n - treeSplit n, y⟩ := by
      refine redFind_of_perm (x := ⟨lo + treeSplit n, n - treeSplit n, y⟩) (hr.trans (List.Perm.swap _ _ _)) fun e he => ?_
      rcases List.mem_cons.1 he with rfl | he
      · simp only
        omega
      · have := hrest e he
        simp only [RedNode.outside] at *
        omega
    simp only [redStep, hfx, hfy]
    refine ⟨List.Perm.cons _ ?_, fun f hf => by rw [hf, Nat.or_assoc]⟩
    refine (hr.filter _).trans (List.Perm.of_eq ?_)
    simp only [List.cons_append, List.nil_append]
    rw [List.filter_cons_of_neg (by simp), List.filter_cons_of_neg (by simp)]
    refine List.filter_eq_self.2 fun e he => ?_
    have hout := hrest e he
    have hne : e ≠ ⟨lo, treeSplit n, x⟩ ∧ e ≠ ⟨lo + treeSplit n, n - treeSplit n, y⟩ := by
      constructor <;> rintro rfl <;> simp only [RedNode.outside] at hout <;> omega
    simpa using hne
  next hnone =>
    have hchild : redFind r.1 lo (treeSplit n) = none ∨ redFind r.1 (lo + treeSplit n) (n - treeSplit n) = none := by
      cases hx : u.whole with
      | none =>
        refine .inl (redFind_eq_none fun e he => ?_)
        simp only [RedTree.spans, hx] at hu
        rcases hmem e he with h | h | h
        · have := hu e h
          omega
        · have := hv.inside e h
          simp only [RedNode.inside] at this
          omega
        · simp only [RedNode.outside] at h
          omega
      | some x =>
        have hy : v.whole = none := by
          cases hy : v.whole with
          | none => rfl
          | some y => exact absurd hy (hnone x y hx)
        refine .inr (redFind_eq_none fun e he => ?_)
        simp only [RedTree.spans, hy] at hv
        rcases hmem e he with h | h | h
        · have := hu.inside e h
          simp only [RedNode.inside] at this
          omega
        · have := hv e h
          omega
        · simp only [RedNode.outside] at h
          omega
    rw [redStep_of_none hchild]
    exact ⟨hr, fun _ hf => hf⟩

/-- A K-tile that arrives within a node: what the node holds is the tree with that K-tile, and its flags grow by those of the
additions made. -/
theorem redAdd_arrival {els : Nat → Option (List PElt)} {t : Nat} (hmiss : els t = none) (x : List PElt) :
    ∀ {fuel lo n : Nat} {l rest : List RedNode}, n ≤ 2 ^ fuel → lo ≤ t → t < lo + n → (∀ e ∈ rest, e.outside lo n) →
      l.Perm (⟨t, 1, x⟩ :: ((redTree els fuel lo n).entries ++ rest)) →
      let u := redTree (Function.update els t (some x)) fuel lo n
      let r := redAdd fuel lo n t l
      r.1.Perm (u.entries ++ rest) ∧ u.flags = (redTree els fuel lo n).flags ||| r.2 := by
  have hleaf : ∀ {lo n : Nat} {l rest : List RedNode}, n ≤ 1 → lo ≤ t → t < lo + n →
      l.Perm (⟨t, 1, x⟩ :: ((redLeaf els lo n).entries ++ rest)) →
      l.Perm ((redLeaf (Function.update els t (some x)) lo n).entries ++ rest)
        ∧ (redLeaf (Function.update els t (some x)) lo n).flags = (redLeaf els lo n).flags ||| 0 := by
    intro lo n l rest hn hlo hhi hl
    obtain rfl : lo = t := by omega
    obtain rfl : n = 1 := by omega
    simpa [redLeaf, hmiss] using hl
  intro fuel
  induction fuel with
  | zero =>
    intro lo n l rest hn hlo hhi _ hl
    exact hleaf (by simpa using hn) hlo hhi hl
  | succ fuel ih =>
    intro lo n l rest hn hlo hhi hrest hl
    by_cases h1 : n ≤ 1
    · simp only [redTree, if_pos h1, redAdd_leaf h1] at hl ⊢
      exact hleaf h1 hlo hhi hl
    · have hgt : 1 < n := Nat.lt_of_not_le h1
      obtain ⟨hnl, hnr⟩ := treeSplit_le hgt hn
      have hlt := treeSplit_lt hgt
      have hus := redTree_spans els fuel lo (treeSplit n)
      have hvs := redTree_spans els fuel (lo + treeSplit n) (n - treeSplit n)
      simp only [redTree, if_neg h1, redAdd_succ hgt] at hl ⊢
      by_cases hside : t < lo + treeSplit n
      · have hnone : (redTree els fuel lo (treeSplit n)).whole = none := redTree_whole_of_missing hmiss hlo hside
        have hsame : redTree (Function.update els t (some x)) fuel (lo + treeSplit n) (n - treeSplit n)
            = redTree els fuel (lo + treeSplit n) (n - treeSplit n) :=
          redTree_congr fun k hk _ => Function.update_of_ne (by omega) _ _
        rw [redJoin_of_none (.inl hnone)] at hl ⊢
        rw [if_pos hside, hsame]
        obtain ⟨hperm, hflags⟩ := ih (rest := (redTree els fuel (lo + treeSplit n) (n - treeSplit n)).entries ++ rest) hnl hlo hside
          (hvs.outside_left hlt.le hrest) (by simpa only [List.append_assoc] using hl)
        obtain ⟨hout, hsum⟩ := redStep_join hgt (redTree_spans (Function.update els t (some x)) fuel lo (treeSplit n)) hvs hrest
          (by simpa only [List.append_assoc] using hperm)
        exact ⟨hout, hsum _ (by rw [hflags, Nat.or_right_comm])⟩
      · have hge : lo + treeSplit n ≤ t := Nat.le_of_not_lt hside
        have hnone : (redTree els fuel (lo + treeSplit n) (n - treeSplit n)).whole = none :=
          redTree_whole_of_missing hmiss hge (by omega)
        have hsame : redTree (Function.update els t (some x)) fuel lo (treeSplit n) = redTree els fuel lo (treeSplit n) :=
          redTree_congr fun k _ hk => Function.update_of_ne (by omega) _ _
        rw [redJoin_of_none (.inr hnone)] at hl ⊢
        rw [if_neg hside, hsame]
        obtain ⟨hperm, hflags⟩ := ih (rest := (redTree els fuel lo (treeSplit n)).entries ++ rest) hnr hge (by omega)
          (hus.outside_right hlt.le hrest)
          (hl.trans (List.Perm.cons _ (by rw [List.append_assoc]; exact List.perm_append_comm_assoc _ _ _)))
        obtain ⟨hout, hsum⟩ := redStep_join hgt hus
          (redTree_spans (Function.update els t (some x)) fuel (lo + treeSplit n) (n - treeSplit n)) hrest
          (hperm.trans (by rw [List.append_assoc]; exact List.perm_append_comm_assoc _ _ _))
        exact ⟨hout, hsum _ (by rw [hflags, Nat.or_assoc])⟩

/-- Where no entry of a smaller node stands within a node, nothing is added there. -/
theorem redAdd_idle {t : Nat} : ∀ {fuel lo n : Nat} {l : List RedNode}, (∀ e ∈ l, ¬(e.inside lo n ∧ e.n < n)) →
    redAdd fuel lo n t l = (l, 0) := by
  intro fuel
  induction fuel with
  | zero => exact fun _ => rfl
  | succ fuel ih =>
    intro lo n l h
    by_cases h1 : n ≤ 1
    · exact redAdd_leaf h1 l
    · have hgt : 1 < n := Nat.lt_of_not_le h1
      have hpos := treeSplit_pos n
      have hlt := treeSplit_lt hgt
      have hl : redAdd fuel lo (treeSplit n) t l = (l, 0) := ih fun e he hin => h e he (by simp only [RedNode.inside] at *; omega)
      have hr : redAdd fuel (lo + treeSplit n) (n - treeSplit n) t l = (l, 0) :=
        ih fun e he hin => h e he (by simp only [RedNode.inside] at *; omega)
      rw [redAdd_succ hgt, hl, hr, ite_self]
      refine redStep_of_none (.inl (redFind_eq_none fun e he hkey => h e he ?_))
      simp only [RedNode.inside]
      omega

/-- A partial whose K-tile lies beyond the tile leaves the tree. -/
theorem redAdd_beyond (els : Nat → Option (List PElt)) {t : Nat} : ∀ {fuel lo n : Nat} {l rest : List RedNode}, lo + n ≤ t →
    (∀ e ∈ rest, e.outside lo n) → l.Perm ((redTree els fuel lo n).entries ++ rest) →
    (redAdd fuel lo n t l).1.Perm ((redTree els fuel lo n).entries ++ rest)
      ∧ (redTree els fuel lo n).flags = (redTree els fuel lo n).flags ||| (redAdd fuel lo n t l).2 := by
  intro fuel
  induction fuel with
  | zero => exact fun _ _ hl => ⟨hl, (Nat.or_zero _).symm⟩
  | succ fuel ih =>
    intro lo n l rest hout hrest hl
    by_cases h1 : n ≤ 1
    · rw [redAdd_leaf h1]
      exact ⟨hl, (Nat.or_zero _).symm⟩
    have hgt : 1 < n := Nat.lt_of_not_le h1
    have hpos := treeSplit_pos n
    have hlt := treeSplit_lt hgt
    cases hw : (redTree els (fuel + 1) lo n).whole with
    | some x =>
      have hs := redTree_spans els (fuel + 1) lo n
      simp only [RedTree.spans, hw] at hs
      rw [redAdd_idle fun e he hin => ?_]
      · exact ⟨hl, (Nat.or_zero _).symm⟩
      · rw [hs.1] at hl
        rcases List.mem_cons.1 (hl.mem_iff.1 he) with rfl | he
        · exact absurd hin.2 (lt_irrefl _)
        · have := hrest e he
          simp only [RedNode.inside, RedNode.outside] at *
          omega
    | none =>
      have hus := redTree_spans els fuel lo (treeSplit n)
      have hvs := redTree_spans els fuel (lo + treeSplit n) (n - treeSplit n)
      simp only [redTree, if_neg h1] at hw hl ⊢
      have hnone := redJoin_whole_eq_none_iff.1 hw
      rw [redAdd_succ hgt, if_neg (by omega)]
      have hflat : l.Perm ((redTree els fuel (lo + treeSplit n) (n - treeSplit n)).entries
          ++ ((redTree els fuel lo (treeSplit n)).entries ++ rest)) := by
        rw [redJoin_of_none hnone] at hl
        exact hl.trans (by rw [List.append_assoc]; exact List.perm_append_comm_assoc _ _ _)
      obtain ⟨hperm, hflags⟩ := ih (by omega) (hus.outside_right hlt.le hrest) hflat
      obtain ⟨hjoin, hsum⟩ := redStep_join hgt hus hvs hrest
        (hperm.trans (by rw [List.append_assoc]; exact List.perm_append_comm_assoc _ _ _))
      refine ⟨hjoin, hsum _ ?_⟩
      rw [redJoin_of_none hnone, Nat.or_assoc, ← hflags]

/-! ### Floating partials in Exact mode (R87, R88) -/

/-- The partials that have arrived, by K-tile. -/
def arrivedEls (ps : List Partial) : Nat → Option (List PElt) :=
  ps.foldl (fun els p => Function.update els p.t (some p.els)) fun _ => none

theorem arrivedEls_append (ps : List Partial) (p : Partial) :
    arrivedEls (ps ++ [p]) = Function.update (arrivedEls ps) p.t (some p.els) := by
  simp [arrivedEls]

theorem arrivedEls_of_notMem {ps : List Partial} {k : Nat} (h : k ∉ ps.map (·.t)) : arrivedEls ps k = none := by
  induction ps using List.reverseRecOn with
  | nil => rfl
  | append_singleton ps p ih =>
    simp only [List.map_append, List.map_cons, List.map_nil, List.mem_append, List.mem_singleton, not_or] at h
    rw [arrivedEls_append, Function.update_of_ne h.2, ih h.1]

/-- Which partials have arrived does not depend on their order. -/
theorem arrivedEls_perm {ps qs : List Partial} (h : ps.Perm qs) (hnd : (ps.map (·.t)).Nodup) : arrivedEls ps = arrivedEls qs := by
  refine h.foldl_eq' (fun p hp q hq els => ?_) _
  by_cases he : p = q
  · rw [he]
  · exact Function.update_comm (fun ht => he (List.inj_on_of_nodup_map hnd hp hq ht)) _ _ _

/-- The canonical tree of a tile over the partials that have arrived. -/
def TileSt.sumTree (t : TileSt) (ps : List Partial) : RedTree :=
  redTree (arrivedEls ps) (bitLen (kTiles t.kLen) + 1) 0 (kTiles t.kLen)

/-- The tile has combined these partials: its entries are those of the canonical tree, beside partials of no K-tile of it. -/
def TileSt.combined (t : TileSt) (ps : List Partial) (u : TileSt) : Prop :=
  u.kLen = t.kLen ∧ u.int = t.int ∧ u.empty = t.empty ∧ u.count = ps.length ∧ u.flags = (t.sumTree ps).flags
    ∧ ∃ rest, (∀ e ∈ rest, e.outside 0 (kTiles t.kLen)) ∧ u.arrived.Perm ((t.sumTree ps).entries ++ rest)

theorem le_two_pow_bitLen (n : Nat) : n ≤ 2 ^ (bitLen n + 1) := by
  by_cases hn : n = 0
  · simp [hn]
  · have : n < 2 ^ (Nat.log2 n + 1) := Nat.lt_log2_self
    have := Nat.pow_lt_pow_right (a := 2) (by omega) (Nat.lt_succ_self (Nat.log2 n + 1))
    simp only [bitLen, hn, if_false]
    omega

theorem TileSt.combined.take {t u : TileSt} {ps : List Partial} (h : t.combined ps u) {p : Partial} (hp : p.int = false)
    (hnew : p.t ∉ ps.map (·.t)) : t.combined (ps ++ [p]) (u.take p true) := by
  obtain ⟨hk, hint, hempty, hcount, hflags, rest, hrest, hperm⟩ := h
  have htake : u.take p true =
      { u with
        arrived := (redAdd (bitLen (kTiles t.kLen) + 1) 0 (kTiles t.kLen) p.t (⟨p.t, 1, p.els⟩ :: u.arrived)).1
        count := u.count + 1
        flags := u.flags ||| (redAdd (bitLen (kTiles t.kLen) + 1) 0 (kTiles t.kLen) p.t (⟨p.t, 1, p.els⟩ :: u.arrived)).2 } := by
    simp [TileSt.take, hp, hk]
  rw [htake]
  refine ⟨hk, hint, hempty, by simp [hcount], ?_⟩
  by_cases hin : p.t < kTiles t.kLen
  · obtain ⟨hout, hsum⟩ := redAdd_arrival (arrivedEls_of_notMem hnew) p.els (le_two_pow_bitLen (kTiles t.kLen)) (Nat.zero_le _)
      (by omega) hrest (hperm.cons ⟨p.t, 1, p.els⟩)
    simp only [TileSt.sumTree, arrivedEls_append]
    exact ⟨by rw [hflags]; exact hsum.symm, rest, hrest, hout⟩
  · have hsame : t.sumTree (ps ++ [p]) = t.sumTree ps := by
      simp only [TileSt.sumTree, arrivedEls_append]
      exact redTree_congr fun k _ hk => Function.update_of_ne (by omega) _ _
    obtain ⟨hout, hsum⟩ := redAdd_beyond (arrivedEls ps) (t := p.t) (rest := ⟨p.t, 1, p.els⟩ :: rest)
      (fuel := bitLen (kTiles t.kLen) + 1) (lo := 0) (n := kTiles t.kLen) (l := ⟨p.t, 1, p.els⟩ :: u.arrived) (by omega)
      (List.forall_mem_cons.2 ⟨⟨.inr (by simp only; omega), Nat.one_pos⟩, hrest⟩)
      ((hperm.cons _).trans List.perm_middle.symm)
    rw [hsame]
    exact ⟨by rw [hflags]; exact hsum.symm, _, List.forall_mem_cons.2 ⟨⟨.inr (by simp only; omega), Nat.one_pos⟩, hrest⟩, hout⟩

theorem TileSt.combined_foldl {t : TileSt} (hnone : t.arrived = []) (hcount : t.count = 0) (hflags : t.flags = 0)
    {ps : List Partial} (hint : ∀ p ∈ ps, p.int = false) (hnd : (ps.map (·.t)).Nodup) :
    t.combined ps (ps.foldl (fun t p => t.take p true) t) := by
  induction ps using List.reverseRecOn with
  | nil =>
    have hempty : ∀ fuel lo n, redTree (fun _ => none) fuel lo n = ⟨none, [], 0⟩ := by
      intro fuel
      induction fuel with
      | zero => simp [redTree, redLeaf]
      | succ fuel ih => simp [redTree, redLeaf, redJoin, ih]
    refine ⟨rfl, rfl, rfl, hcount, ?_, [], nofun, ?_⟩
    · simp [TileSt.sumTree, arrivedEls, hempty, hflags]
    · simp [TileSt.sumTree, arrivedEls, hempty, hnone]
  | append_singleton ps p ih =>
    rw [List.map_append, List.nodup_append] at hnd
    rw [List.foldl_append]
    exact (ih (fun q hq => hint q (List.mem_append_left _ hq)) hnd.1).take (hint p (by simp))
      fun hmem => hnd.2.2 _ hmem p.t (by simp) rfl

/-- The result of a tile in Exact mode is the root of its tree. -/
theorem TileSt.combined.result {t u : TileSt} {ps : List Partial} (h : t.combined ps u) (hint : t.int = false) : u.result true =
    if t.empty then some ([], 0)
    else if ps.length < kTiles t.kLen then none
    else (t.sumTree ps).whole.map fun els => (els.map fun e => (e.val.toNat, e.bad), (t.sumTree ps).flags) := by
  obtain ⟨hk, hi, hempty, hcount, hflags, rest, hrest, hperm⟩ := h
  have hroot : redFind u.arrived 0 (kTiles t.kLen) = (t.sumTree ps).whole.map fun els => ⟨0, kTiles t.kLen, els⟩ := by
    have hs := redTree_spans (arrivedEls ps) (bitLen (kTiles t.kLen) + 1) 0 (kTiles t.kLen)
    change (t.sumTree ps).spans _ _ at hs
    have hbeside : ∀ e ∈ rest, ¬(e.lo = 0 ∧ e.n = kTiles t.kLen) := fun e he hkey => by
      have := hrest e he
      simp only [RedNode.outside] at this
      omega
    cases hw : (t.sumTree ps).whole with
    | some x =>
      simp only [RedTree.spans, hw] at hs
      rw [hs.1] at hperm
      exact redFind_of_perm (x := ⟨0, kTiles t.kLen, x⟩) hperm hbeside
    | none =>
      simp only [RedTree.spans, hw] at hs
      refine redFind_eq_none fun e he hkey => ?_
      rcases List.mem_append.1 (hperm.mem_iff.1 he) with he | he
      · have := hs e he
        omega
      · exact hbeside e he hkey
  simp only [TileSt.result, hk, hi, hempty, hcount, hflags, hint, hroot, Bool.not_false, Bool.and_self, if_true, Option.map_map,
    Function.comp_def]

/-- Settles O24: integer partials commute one by one; in Exact mode the entries and flags are those of the canonical tree over
the partials that have arrived, whatever their order. -/
theorem sumOrder : Obligations.SumOrder := by
  intro t exact ps qs harr hcount _ hflags hperm hnd hps hmode
  cases hint : t.int with
  | true =>
    have hpint : ∀ p ∈ ps, p.int = true := fun p hp => (hps p hp).1.trans hint
    exact congrArg (TileSt.result · exact)
      (hperm.foldl_eq' (fun p hp q hq u => u.take_int_comm (hpint p hp) (hpint q hq) exact) t)
  | false =>
    obtain rfl : exact = true := hmode.resolve_right (by simp [hint])
    have hpint : ∀ p ∈ ps, p.int = false := fun p hp => (hps p hp).1.trans hint
    have htree : t.sumTree ps = t.sumTree qs := by rw [TileSt.sumTree, TileSt.sumTree, arrivedEls_perm hperm hnd]
    rw [(TileSt.combined_foldl harr hcount hflags hpint hnd).result hint,
      (TileSt.combined_foldl harr hcount hflags (fun p hp => hpint p (hperm.mem_iff.2 hp)) ((hperm.map _).nodup_iff.1 hnd)).result hint,
      htree, hperm.length_eq]

end Sys2Proof.Machine
end

section
/-! SUPPORT. The issue of an instruction, and the fault of a slot (R122, R135): what a fault shows and what it leaves. -/

namespace Sys2Proof.Machine

/-! ### Issue (R111, R122) -/

/-- An instruction that is due and accepted acts. -/
theorem State.issue_of_issues {s : State} {k op : Nat} (h : s.issues k op = true) (act : State → Insn → State) :
    s.issue k op act = act s (s.insn k) := by
  obtain ⟨hdue, hcause⟩ := Bool.and_eq_true_iff.1 h
  have h0 : s.issueCause k (s.insn k) = 0 := by simpa using hcause
  simp only [State.issue, hdue, if_true, h0]

/-- An instruction that is due and refused faults the slot with the cause of its refusal. -/
theorem State.issue_of_refused {s : State} {k op : Nat} (hdue : s.due k op = true) (hc : s.issueCause k (s.insn k) ≠ 0)
    (act : State → Insn → State) : s.issue k op act = s.slotFault k (s.issueCause k (s.insn k)) := by
  unfold State.issue
  rw [if_pos hdue]
  split
  next h0 => exact absurd h0 hc
  next => rfl

theorem State.not_ending_of_due {s : State} {k op : Nat} (h : s.due k op = true) : (s.arr k).ending = false := by
  simp only [State.due, State.canIssue, Bool.and_eq_true, Bool.not_eq_true'] at h
  exact h.1.1.1.2

theorem State.issueCause_lt (s : State) (k : Nat) (i : Insn) : s.issueCause k i < 16 := by
  unfold State.issueCause
  split_ifs <;> omega

/-! ### What the operations of a slot leave -/

/-- From `s` to `t` nothing changed but registers, arrays, jobs and the events at the collector. -/
structure SlotOnly (s t : State) : Prop where
  frame : { t with regs := s.regs, arrs := s.arrs, jobs := s.jobs, flt := s.flt } = s

theorem SlotOnly.refl (s : State) : SlotOnly s s := ⟨rfl⟩

theorem SlotOnly.trans {s t u : State} (h : SlotOnly s t) (k : SlotOnly t u) : SlotOnly s u := by
  refine ⟨?_⟩
  calc { u with regs := s.regs, arrs := s.arrs, jobs := s.jobs, flt := s.flt }
      = { ({ u with regs := t.regs, arrs := t.arrs, jobs := t.jobs, flt := t.flt } : State) with
          regs := s.regs, arrs := s.arrs, jobs := s.jobs, flt := s.flt } := rfl
    _ = { t with regs := s.regs, arrs := s.arrs, jobs := s.jobs, flt := s.flt } := by rw [k.frame]
    _ = s := h.frame

theorem RegsOnly.slotOnly {s t : State} (h : RegsOnly s t) : SlotOnly s t :=
  ⟨congrArg (fun u : State => { u with arrs := s.arrs, jobs := s.jobs }) h.frame⟩

theorem SlotOnly.foldl {ι : Type} (op : State → ι → State) (hop : ∀ u i, SlotOnly u (op u i)) (l : List ι) (s : State) :
    SlotOnly s (l.foldl op s) :=
  List.foldlRecOn l op (SlotOnly.refl s) fun u hu i _ => hu.trans (hop u i)

theorem State.setArr_slotOnly (s : State) (n : Nat) (a : ArrSt) : SlotOnly s (s.setArr n a) := ⟨rfl⟩

theorem State.setService_regsOnly (s : State) (n : Nat) (on : Bool) : RegsOnly s (s.setService n on) := (RegsOnly.refl s).put _ _

theorem State.suspectArr_slotOnly (s : State) (n : Nat) : SlotOnly s (s.suspectArr n) :=
  (s.setArr_slotOnly n _).trans (State.setService_regsOnly _ _ _).slotOnly

theorem State.redShow_regsOnly (s : State) (j : Job) : RegsOnly s (s.redShow j) := by
  refine RegsOnly.foldl _ (fun u q => ?_) _ s
  split
  · exact (RegsOnly.refl u).put _ _
  · exact RegsOnly.refl u

theorem State.redRelease_slotOnly (s : State) (j : Job) : SlotOnly s (s.redRelease j) := by
  have hjobs : ∀ j1, SlotOnly s (s.setJob j1) := fun _ => ⟨rfl⟩
  refine ((hjobs _).trans (State.redShow_regsOnly _ _).slotOnly).trans (RegsOnly.foldl _ (fun u q => ?_) _ _).slotOnly
  split
  · exact (RegsOnly.refl u).put _ _
  · exact RegsOnly.refl u

theorem State.stopSlots_slotOnly (s : State) (j : Job) (self cause : Nat) : SlotOnly s (s.stopSlots j self cause) := by
  refine SlotOnly.foldl _ (fun u q => ?_) _ s
  dsimp only
  split
  · exact u.setArr_slotOnly _ _
  · exact SlotOnly.refl u

/-! ### The fault of a slot (R135) -/

/-- What a fault shows at once: the sequencer has left issue, a suspect array is out of service, cause, pc and state are recorded. -/
def State.faultNoted (s : State) (n cause pc : Nat) : State :=
  let s0 := s.setArr n (s.arr n).leave
  let s1 := if cause = 1 ∨ cause = 4 then s0.suspectArr n else s0
  (((s1.put (F.ARR_FAULT_cause n) cause).put (F.ARR_FAULT_pc n) pc).put (F.ARR_STATE_state n) 4)

/-- The fault and refusal events raised. -/
def State.faultRaised (s : State) (n cause : Nat) : State :=
  (s.raise (pgARR n) Ev.ARR_fault).raiseIf (cause = 3) (pgARR n) Ev.ARR_n_refused

/-- The job of a slot that has faulted: its outcome reported, slots that have not started never start. -/
def Job.slotFaulted (j : Job) (cause at' : Nat) : Job :=
  { j.report (if cause = 7 then 0x0A else 0x04) cause at' with
    slots := j.slots.map fun k => if k.phase < 2 then { k with phase := 3 } else k }

/-- What the fault of a slot does to its job: entries released, the other slots told to stop. -/
def State.faultToJob (s : State) (n : Nat) (j : Job) : State := ((s.setJob j).redRelease j).stopSlots j n 0

theorem State.slotFault_eq {s : State} {n : Nat} (h : (s.arr n).ending = false) (cause : Nat) :
    let u := (s.faultNoted n cause (s.get (F.ARR_PC_pc n))).faultRaised n cause
    s.slotFault n cause = match u.arrJob n with
      | none => u
      | some j => u.faultToJob n (j.slotFaulted cause (slotWhere (s.arr n).slot n (s.get (F.ARR_PC_pc n)))) := by
  simp only [State.slotFault, State.slotFaultAt, h, Bool.false_eq_true, if_false]
  rfl

theorem State.faultNoted_slotOnly (s : State) (n cause pc : Nat) : SlotOnly s (s.faultNoted n cause pc) := by
  have h0 := s.setArr_slotOnly n (s.arr n).leave
  refine SlotOnly.trans ?_ (((RegsOnly.refl _).put _ _).put _ _ |>.put _ _).slotOnly
  split
  · exact h0.trans (State.suspectArr_slotOnly _ _)
  · exact h0

theorem State.faultRaised_regsOnly (s : State) (n cause : Nat) : RegsOnly s (s.faultRaised n cause) :=
  ((RegsOnly.refl s).raise _ _).raiseIf _ _ _

theorem State.faultToJob_slotOnly (s : State) (n : Nat) (j : Job) : SlotOnly s (s.faultToJob n j) := by
  have hjobs : SlotOnly s (s.setJob j) := ⟨rfl⟩
  exact (hjobs.trans (State.redRelease_slotOnly _ _)).trans (State.stopSlots_slotOnly _ _ _ _)

theorem State.slotFault_slotOnly (s : State) (n cause : Nat) : SlotOnly s (s.slotFault n cause) := by
  by_cases h : (s.arr n).ending = true
  · simpa only [State.slotFault, State.slotFaultAt, h, if_true] using SlotOnly.refl s
  · have hu := (s.faultNoted_slotOnly n cause (s.get (F.ARR_PC_pc n))).trans (State.faultRaised_regsOnly _ n cause).slotOnly
    rw [State.slotFault_eq (by simpa using h)]
    split
    · exact hu
    · exact hu.trans (State.faultToJob_slotOnly _ _ _)

/-- What a fault does to the job of the slot changes of the registers ARR_RED alone. -/
theorem State.get_faultToJob (s : State) (n : Nat) (j : Job) {g : Fld} (hg : g.off < 0x800 ∧ g.off / 4 ≠ 16) :
    (s.faultToJob n j).get g = s.get g := by
  have hred : ∀ q, (F.ARR_RED_reserved q).apart g ∧ (F.ARR_RED_granted q).apart g := fun q =>
    ⟨Fld.apart_of_off (by simp only; omega), Fld.apart_of_off (by simp only; omega)⟩
  have hstop : ∀ (u : State) (l : Job), (u.stopSlots l n 0).get g = u.get g := fun u l => by
    refine List.foldlRecOn (motive := fun v : State => v.get g = u.get g) l.slots _ rfl fun v hv q _ => ?_
    dsimp only
    split
    · exact (State.get_of_regs rfl rfl g).trans hv
    · exact hv
  have hshow : ∀ (u : State) (l : Job), (u.redShow l).get g = u.get g := fun u l => by
    refine List.foldlRecOn (motive := fun v : State => v.get g = u.get g) l.slots _ rfl fun v hv q _ => ?_
    split
    · exact (v.get_put_apart (hred _).1 _).trans hv
    · exact hv
  rw [State.faultToJob, hstop, State.redRelease]
  refine List.foldlRecOn (motive := fun v : State => v.get g = s.get g) _ _ ?_ fun v hv q _ => ?_
  · rw [hshow]
    exact State.get_of_regs rfl rfl g
  · split
    · exact (v.get_put_apart (hred _).2 _).trans hv
    · exact hv

/-- What a fault changes of the registers outside ARR_RED and the events is what it notes at once. -/
theorem State.get_slotFault {s : State} {n : Nat} (h : (s.arr n).ending = false) (cause : Nat) {g : Fld}
    (hg : g.off < 0x800 ∧ g.off / 4 ≠ 16)
    (he : ∀ e ∈ eventFields (pgARR n) Ev.ARR_fault ++ eventFields (pgARR n) Ev.ARR_n_refused, e.apart g) :
    (s.slotFault n cause).get g = (s.faultNoted n cause (s.get (F.ARR_PC_pc n))).get g := by
  simp only [eventFields, List.cons_append, List.nil_append, List.forall_mem_cons] at he
  obtain ⟨hfault, hmsi, hrefused, -⟩ := he
  have hraised : ∀ u : State, (u.faultRaised n cause).get g = u.get g := fun u =>
    (State.get_raiseIf _ _ hrefused hmsi).trans (State.get_raise _ hfault hmsi)
  rw [State.slotFault_eq h]
  split
  · exact hraised _
  · exact (State.get_faultToJob _ _ _ hg).trans (hraised _)

theorem State.eventSet_slotFault {s : State} {n : Nat} (h : (s.arr n).ending = false) (cause : Nat) :
    (s.slotFault n cause).eventSet (pgARR n) Ev.ARR_fault = true := by
  have hraised : ∀ u : State, (u.faultRaised n cause).eventSet (pgARR n) Ev.ARR_fault = true := fun u =>
    State.eventSet_raiseIf_of_eventSet (u.eventSet_raise _ _ (by decide)) (by decide) (by decide) _
  rw [State.slotFault_eq h]
  split
  · exact hraised _
  · rw [State.eventSet, State.flag, State.get_faultToJob _ _ _ ⟨by simp, by simp⟩]
    exact hraised _

/-- After a fault the array is faulted and shows its cause. -/
theorem State.slotFault_get {s : State} {n : Nat} (h : (s.arr n).ending = false) {cause : Nat} (hc : cause < 16) :
    (s.slotFault n cause).get (F.ARR_STATE_state n) = 4 ∧ (s.slotFault n cause).get (F.ARR_FAULT_cause n) = cause := by
  have hevents : ∀ o b, o < 0x800 ∧ o / 4 ≠ 4 ∧ o / 4 ≠ 57 →
      ∀ e ∈ eventFields (pgARR n) Ev.ARR_fault ++ eventFields (pgARR n) Ev.ARR_n_refused, e.apart ⟨128 + n, o, b, 0⟩ := by
    intro o b ho e he
    refine Fld.apart_of_off ?_
    simp only [eventFields, List.cons_append, List.nil_append, List.mem_cons, List.not_mem_nil, or_false] at he
    rcases he with rfl | rfl | rfl | rfl <;> simp only <;> omega
  rw [State.get_slotFault h _ ⟨by simp, by simp⟩ (hevents 0x20 3 (by decide)),
    State.get_slotFault h _ ⟨by simp, by simp⟩ (hevents 0x3C 3 (by decide))]
  constructor
  · exact State.get_put_self _ (F.ARR_STATE_state n) _ (by simp)
  · have hpc : (F.ARR_FAULT_pc n).apart (F.ARR_FAULT_cause n) :=
      Fld.apart_bits ⟨by simp, by simp⟩ ⟨by simp, by simp⟩ rfl rfl (by simp)
    have hstate : (F.ARR_STATE_state n).apart (F.ARR_FAULT_cause n) := Fld.apart_of_off (by simp)
    rw [State.faultNoted, State.get_put_apart _ hstate, State.get_put_apart _ hpc, State.get_put_self _ _ _ (by simp)]
    exact Nat.mod_eq_of_lt hc

/-! ### Instructions that the rules refuse (O18) -/

/-- Each command of class 0x0, 0x1 and 0xF is the issue of its opcode. -/
theorem exec_eq_issue (n : Arr) (s : State) : ∀ e ∈ [(0x00, Instr.nop n), (0x01, .endSlot n), (0x02, .jmp n), (0x03, .brz n),
    (0x04, .brnz n), (0x05, .loop n), (0x06, .call n), (0x07, .ret n), (0x08, .sli n), (0x09, .slih n), (0x0A, .sadd n),
    (0x0B, .ssub n), (0x0C, .smul n), (0x0D, .sget n), (0x10, .fenceA n), (0x11, .fenceD n), (0x12, .fenceP n),
    (0x13, .fenceX n), (0x14, .barD n), (0x15, .barP n), (0x16, .fwait n), (0x18, .rowwait n), (0x19, .rowwaitT n),
    (0x1A, .rowpub n), (0x1B, .rdslot n), (0xF0, .rdcyc n), (0xF1, .rdid n), (0xF2, .ckdig n), (0xF3, .lbsig n),
    (0xF4, .brk n)], ∃ act, exec e.2 s = .next (s.issue (arrNum n) e.1 act) := by
  simp only [List.forall_mem_cons, List.not_mem_nil, false_imp_iff, implies_true, and_true]
  and_intros <;> exact ⟨_, rfl⟩

/-- Settles O18: a refused instruction comes to `State.slotFault`, whatever its operation. -/
theorem seqRefused : Obligations.SeqRefused := by
  intro n s op c k hop hdue hc
  obtain ⟨act, hexec⟩ := exec_eq_issue n s (op, c) hop
  rw [State.issue_of_refused hdue hc] at hexec
  have hend := State.not_ending_of_due hdue
  obtain ⟨hstate, hcause⟩ := State.slotFault_get hend (s.issueCause_lt k (s.insn k))
  have hframe := (s.slotFault_slotOnly k (s.issueCause k (s.insn k))).frame
  exact ⟨_, hexec, rfl, hstate, hcause, State.eventSet_slotFault hend _, (congrArg State.mem hframe :), (congrArg State.cond hframe :),
    (congrArg State.fences hframe :)⟩

end Sys2Proof.Machine
end

section
/-! SUPPORT. An instruction that issues and goes into flight (R111, R113, R133). -/

namespace Sys2Proof.Machine

/-! ### The next instruction (R118) -/

theorem State.arr_of_arrs {s t : State} (h : t.arrs = s.arrs) (k : Nat) : t.arr k = s.arr k := by simp only [State.arr, h]

@[simp] theorem State.arr_setArr_same (s : State) (k : Nat) (a : ArrSt) : (s.setArr k a).arr k = a := tabGet_tabSet_same _ _ _ _

theorem State.sound_of_words {s t : State} {k : Nat} (h : (t.arr k).words = (s.arr k).words) (pc : Nat) : t.sound k pc = s.sound k pc := by
  simp only [State.sound, h]

/-- Fetching a sound instruction finds nothing. -/
theorem State.fetchCheck_of_sound {s : State} {k : Nat} (h : s.sound k (s.get (F.ARR_PC_pc k)) = true) : s.fetchCheck k = s := by
  unfold State.sound at h
  unfold State.fetchCheck State.current
  cases hw : (s.arr k).words[s.get (F.ARR_PC_pc k)]? with
  | none => simp [hw] at h
  | some e =>
    obtain ⟨w, cond⟩ := e
    simp only [hw, Bool.and_eq_true] at h
    obtain ⟨-, hcond, hop⟩ := h
    obtain rfl := Option.isNone_iff_eq_none.1 hcond
    simp [Option.isSome_iff_ne_none.1 hop]

theorem State.get_put_pc (s : State) {k pc : Nat} (h : s.sound k pc = true) : (s.put (F.ARR_PC_pc k) pc).get (F.ARR_PC_pc k) = pc := by
  have hlt : pc < 4096 := by
    simp only [State.sound, Bool.and_eq_true, decide_eq_true_eq] at h
    exact h.1
  exact (State.get_put_self _ _ _ (by simp)).trans (Nat.mod_eq_of_lt hlt)

/-- The sequencer moves to a sound instruction. -/
theorem State.goto_of_sound {s : State} {k pc : Nat} (h : s.sound k pc = true) : s.goto k pc = s.put (F.ARR_PC_pc k) pc :=
  State.fetchCheck_of_sound (by rw [State.get_put_pc s h]; exact h)

/-! ### The instruction counted (R133, R314) -/

/-- The job on an array by the registers that name it. -/
theorem State.arrJob_congr {s t : State} {k : Nat} (hjobs : t.jobs = s.jobs)
    (hget : ∀ g ∈ [F.ARR_JOB_QUEUE_valid k, F.ARR_JOB_QUEUE_queue k, F.ARR_JOB_INDEX_index k], t.get g = s.get g) :
    t.arrJob k = s.arrJob k := by
  have hvalid := hget (F.ARR_JOB_QUEUE_valid k) (by simp)
  have hqueue := hget (F.ARR_JOB_QUEUE_queue k) (by simp)
  have hindex := hget (F.ARR_JOB_INDEX_index k) (by simp)
  rw [State.arrJob, State.arrJob, State.flag, State.flag, State.job, State.job, hjobs, hvalid, hqueue, hindex]

theorem State.markJob_frame (s : State) (k : Nat) : { s.markJob k with jobs := s.jobs } = s := by
  unfold State.markJob
  split <;> rfl

theorem State.markJob_jobs {s t : State} {k : Nat} (hjobs : t.jobs = s.jobs)
    (hget : ∀ g ∈ [F.ARR_JOB_QUEUE_valid k, F.ARR_JOB_QUEUE_queue k, F.ARR_JOB_INDEX_index k], t.get g = s.get g) :
    (t.markJob k).jobs = (s.markJob k).jobs := by
  simp only [State.markJob, State.arrJob_congr hjobs hget]
  split <;> simp only [State.setJob, hjobs]

/-- The state with an issue counted on array `k`. -/
def State.issueCounted (s : State) (k : Nat) : State :=
  s.put (F.ARR_ISSUED_count k) ((s.get (F.ARR_ISSUED_count k) + 1) % 2 ^ 32)

theorem State.get_issueCounted (s : State) (k : Nat) :
    (s.issueCounted k).get (F.ARR_ISSUED_count k) = (s.get (F.ARR_ISSUED_count k) + 1) % 2 ^ 32 :=
  (State.get_put_self _ _ _ (by simp)).trans (Nat.mod_mod _ _)

theorem State.issued_of_not_markN (s : State) (k : Nat) {i : Insn} (h : i.markN = false) : s.issued k i = s.issueCounted k := by
  simp only [State.issued, h, Bool.false_eq_true, if_false]
  rfl

theorem State.issued_of_markN (s : State) (k : Nat) {i : Insn} (h : i.markN = true) :
    s.issued k i = ((s.issueCounted k).put (F.ARR_STATE_nonrepro k) 1).markJob k := by
  simp only [State.issued, h, if_true]
  rfl

/-- The fields that the issue of an instruction changes. -/
def issueFields (k : Nat) : List Fld := [F.ARR_PC_pc k, F.ARR_ISSUED_count k, F.ARR_STATE_nonrepro k]

/-- What the issue of an instruction shows, the sequencer at the next one, which is sound. -/
theorem State.stepTo_issued {s : State} {k pc : Nat} (h : s.sound k pc = true) (i : Insn) :
    let t := s.stepTo k i pc
    t.get (F.ARR_PC_pc k) = pc ∧ t.get (F.ARR_ISSUED_count k) = (s.get (F.ARR_ISSUED_count k) + 1) % 2 ^ 32
      ∧ t.get (F.ARR_STATE_nonrepro k) = (if i.markN then 1 else s.get (F.ARR_STATE_nonrepro k)) ∧ FieldsBut (issueFields k) s t
      ∧ t.jobs = (if i.markN then (s.markJob k).jobs else s.jobs) ∧ { t with regs := s.regs, jobs := s.jobs } = s := by
  have hpcCount : (F.ARR_PC_pc k).apart (F.ARR_ISSUED_count k) := Fld.apart_of_off (by simp)
  have hpcMark : (F.ARR_PC_pc k).apart (F.ARR_STATE_nonrepro k) := Fld.apart_of_off (by simp)
  have hmarkCount : (F.ARR_STATE_nonrepro k).apart (F.ARR_ISSUED_count k) := Fld.apart_of_off (by simp)
  have hcountMark : (F.ARR_ISSUED_count k).apart (F.ARR_STATE_nonrepro k) := Fld.apart_of_off (by simp)
  have hcounted : FieldsBut (issueFields k) s (s.issueCounted k) := (FieldsBut.refl _ s).put (by simp [issueFields]) _
  cases hn : i.markN with
  | false =>
    have hstep : s.stepTo k i pc = (s.issueCounted k).put (F.ARR_PC_pc k) pc := by
      rw [State.stepTo, s.issued_of_not_markN k hn]
      exact State.goto_of_sound (s := s.issueCounted k) h
    rw [hstep]
    refine ⟨State.get_put_pc (s.issueCounted k) h, ?_, ?_, hcounted.put (by simp [issueFields]) _, rfl, rfl⟩
    · rw [State.get_put_apart _ hpcCount, State.get_issueCounted]
    · rw [State.get_put_apart _ hpcMark]
      exact State.get_put_apart _ hcountMark _
  | true =>
    have hstep : s.stepTo k i pc = (((s.issueCounted k).put (F.ARR_STATE_nonrepro k) 1).markJob k).put (F.ARR_PC_pc k) pc := by
      rw [State.stepTo, s.issued_of_markN k hn]
      refine State.goto_of_sound (Eq.trans (State.sound_of_words ?_ pc) h)
      exact congrArg ArrSt.words (State.arr_of_arrs (congrArg State.arrs (State.markJob_frame _ k) :) k)
    have hframe := State.markJob_frame ((s.issueCounted k).put (F.ARR_STATE_nonrepro k) 1) k
    have hget : ∀ g, (((s.issueCounted k).put (F.ARR_STATE_nonrepro k) 1).markJob k).get g
        = ((s.issueCounted k).put (F.ARR_STATE_nonrepro k) 1).get g :=
      State.get_of_regs (congrArg State.regs hframe :) (congrArg State.fuse hframe :)
    have hsound : (((s.issueCounted k).put (F.ARR_STATE_nonrepro k) 1).markJob k).sound k pc = true :=
      (State.sound_of_words (congrArg ArrSt.words (State.arr_of_arrs (congrArg State.arrs hframe :) k)) pc).trans h
    rw [hstep]
    refine ⟨State.get_put_pc _ hsound, ?_, ?_, ?_, ?_, ?_⟩
    · rw [State.get_put_apart _ hpcCount, hget, State.get_put_apart _ hmarkCount, State.get_issueCounted]
    · rw [State.get_put_apart _ hpcMark, hget]
      exact State.get_put_self _ _ _ (by simp)
    · exact ((hcounted.put (by simp [issueFields]) 1).of_regs (congrArg State.regs hframe :) (congrArg State.fuse hframe :)).put
        (by simp [issueFields]) _
    · refine State.markJob_jobs rfl fun g hg => ?_
      simp only [List.mem_cons, List.not_mem_nil, or_false] at hg
      rcases hg with rfl | rfl | rfl
      all_goals rw [State.get_put_apart _ (Fld.apart_of_off (by simp))]; exact State.get_put_apart _ (Fld.apart_of_off (by simp)) _
    · exact congrArg (fun t : State => { t with regs := s.regs }) hframe

/-! ### Into flight (R111, R113) -/

/-- Line buffers in which no word is in error have nothing to log. -/
theorem State.lbRead_of_clean {s : State} {k : Nat} (h : (s.arr k).lbCond = []) (rs : List (Nat × Nat)) : s.lbRead k rs = s := by
  induction rs with
  | nil => rfl
  | cons r rs ih =>
    simp only [State.lbRead, List.foldl_cons, h, List.filter_nil, List.foldl_nil] at ih ⊢
    exact ih

/-- An instruction put in flight over sound line buffers. -/
theorem State.launch_launched {s : State} {k : Nat} (hs : s.sound k (s.nextPc k) = true) (hlb : (s.arr k).lbCond = []) (f : Fly)
    (seen : List (Nat × Nat)) : Launched k f s (s.launch k (s.insn k) f seen) := by
  let a := s.arr k
  let b : ArrSt := { a with
    flights := a.flights ++ [{ f with id := a.nextId, pc := s.get (F.ARR_PC_pc k) }]
    nextId := a.nextId + 1
    held := a.held.filter fun h => !f.wr.any (rangesMeet (h.word, h.pitch)) }
  have hlaunch : s.launch k (s.insn k) f seen = (s.setArr k b).stepTo k (s.insn k) (s.nextPc k) := by
    simp only [State.launch, State.lbRead_of_clean hlb]
    rfl
  have hsound : (s.setArr k b).sound k (s.nextPc k) = true :=
    (State.sound_of_words (by rw [State.arr_setArr_same]) _).trans hs
  obtain ⟨hpc, hcount, hmark, hfields, hjobs, hframe⟩ := State.stepTo_issued hsound (s.insn k)
  rw [hlaunch]
  refine ⟨?_, hpc, hcount, hmark, ?_, ?_, ?_⟩
  · exact (congrArg State.arrs hframe :)
  · exact fun g hg => hfields g hg
  · rw [hjobs]
    exact ite_congr rfl (fun _ => State.markJob_jobs rfl fun _ _ => rfl) fun _ => rfl
  · exact congrArg (fun t : State => { t with arrs := s.arrs }) hframe

end Sys2Proof.Machine
end

section
/-! SUPPORT. The vector unit, the transpose and shuffle unit, the fast approximations (R95 to R102, R113, R123, R124). -/

namespace Sys2Proof.Machine

/-! ### Instructions that the line buffers admit (R113, R122) -/

theorem State.admits_iff {s : State} {k : Nat} {rd wr : List (Nat × Nat)} : s.admits k rd wr = true ↔
    ((rd ++ wr).all fun r => lbFits r.1 r.2) = true ∧ (s.arr k).accepts rd wr = true ∧ (s.arr k).lbCond = [] := by
  simp only [State.admits, Bool.and_eq_true, List.isEmpty_iff, and_assoc]

theorem State.tryLaunch_launched {s : State} {k : Nat} (hs : s.sound k (s.nextPc k) = true) {f : Fly}
    (ha : s.admits k f.rd f.wr = true) : Launched k f s (s.tryLaunch k (s.insn k) f) := by
  obtain ⟨-, haccepts, hlb⟩ := State.admits_iff.1 ha
  rw [State.tryLaunch, if_pos haccepts]
  exact State.launch_launched hs hlb f f.rd

/-- Result elements that go into flight to operand d. -/
theorem State.vecDone_launched {s : State} {k : Nat} (hs : s.sound k (s.nextPc k) = true) (u : IssueUnit) (rd : List (Nat × Nat))
    (w : Nat) (es : List NumElt) (ha : s.admits k rd [((s.arr k).lbWord (s.insn k).d, elemWords es.length w)] = true) :
    Launched k (resultFly u rd [((s.arr k).lbWord (s.insn k).d, elemWords es.length w)]
      ((s.arr k).putElems ((s.arr k).lbWord (s.insn k).d) w (es.map fun e => (e.1.val, e.2))) es) s
      (s.vecDone k (s.insn k) u rd w es) := by
  rw [State.vecDone]
  exact (if_pos (State.admits_iff.1 ha).1).symm ▸ State.tryLaunch_launched hs ha

/-! ### The lengths of operands -/

theorem length_unpackGo (w : Nat) : ∀ n x, (unpackGo w n x).length = n
  | 0, _ => rfl
  | n + 1, x => by simp [unpackGo, length_unpackGo w n]

@[simp] theorem ArrSt.length_elems (a : ArrSt) (base w first n : Nat) : (a.elems base w first n).length = n := by
  simp [ArrSt.elems, length_unpackGo]

/-! ### The operations -/

/-- The command `c` puts result elements `es` of `w` bits in flight on array `k`, on their way to operand d, where the line buffers
admit it. -/
def State.sendsResults (s : State) (k : Nat) (c : Instr) (u : IssueUnit) (rd : List (Nat × Nat)) (w : Nat) (es : List NumElt) : Prop :=
  s.admits k rd [((s.arr k).lbWord (s.insn k).d, elemWords es.length w)] = true →
    ∃ t, exec c s = .next t ∧ Launched k (resultFly u rd [((s.arr k).lbWord (s.insn k).d, elemWords es.length w)]
      ((s.arr k).putElems ((s.arr k).lbWord (s.insn k).d) w (es.map fun e => (e.1.val, e.2))) es) s t

section
variable {s : State} {k op : Nat} {c : Instr} (hs : s.sound k (s.nextPc k) = true) (hi : s.issues k op = true)
include hs hi

theorem State.sendsResults_of_vecDone {u : IssueUnit} {rd : List (Nat × Nat)} {w : Nat} {es : List NumElt} {act : State → Insn → State}
    (hexec : exec c s = .next (s.issue k op act)) (hact : act s (s.insn k) = s.vecDone k (s.insn k) u rd w es) :
    s.sendsResults k c u rd w es := by
  intro ha
  rw [State.issue_of_issues hi, hact] at hexec
  exact ⟨_, hexec, State.vecDone_launched hs u rd w es ha⟩

theorem State.sendsResults_of_vec1 {u : IssueUnit} {w wo : Insn → Nat} {f : Insn → Nat → Machine.Num}
    (hexec : exec c s = .next (s.vec1 k op u w wo f)) :
    s.sendsResults k c u ((s.arr k).vecA (s.insn k) (w (s.insn k))).2 (wo (s.insn k))
      (((s.arr k).vecA (s.insn k) (w (s.insn k))).1.map fun e => (f (s.insn k) e.1, e.2)) :=
  State.sendsResults_of_vecDone hs hi hexec rfl

theorem State.sendsResults_of_vec2 {f : Insn → Nat → Nat → Machine.Num} (hexec : exec c s = .next (s.vec2 k op f)) :
    s.sendsResults k c .vector (((s.arr k).vecA (s.insn k) 32).2 ++ ((s.arr k).vecB (s.insn k)).2) 32
      ((((s.arr k).vecA (s.insn k) 32).1.zip ((s.arr k).vecB (s.insn k)).1).map
        fun e => (f (s.insn k) e.1.1 e.2.1, e.1.2 || e.2.2)) :=
  State.sendsResults_of_vecDone hs hi hexec rfl

theorem State.sendsResults_of_vec3 {f : Nat → Nat → Nat → Machine.Num} (hexec : exec c s = .next (s.vec3 k op f)) :
    s.sendsResults k c .vector
      (((s.arr k).vecA (s.insn k) 32).2 ++ ((s.arr k).vecB (s.insn k)).2 ++ ((s.arr k).vecReuse (s.insn k) (s.insn k).c).2) 32
      ((((s.arr k).vecA (s.insn k) 32).1.zip (((s.arr k).vecB (s.insn k)).1.zip ((s.arr k).vecReuse (s.insn k) (s.insn k).c).1)).map
        fun e => (f e.1.1 e.2.1.1 e.2.2.1, e.1.2 || e.2.1.2 || e.2.2.2)) :=
  State.sendsResults_of_vecDone hs hi hexec rfl

theorem State.sendsResults_of_vecReduce {f : List Nat → Machine.Num} (hexec : exec c s = .next (s.vecReduce k op f)) :
    s.sendsResults k c .vector ((s.arr k).vecA (s.insn k) 32).2 32
      ((groupsOf 256 (s.insn k).imm ((s.arr k).vecA (s.insn k) 32).1).map fun g => (f (g.map (·.1)), g.any (·.2))) :=
  State.sendsResults_of_vecDone hs hi hexec rfl

end

/-- The operations of two operands, by opcode. -/
theorem exec_eq_vec2 (n : Arr) (s : State) : ∀ e ∈ [(0x40, Instr.vadd n, f32add), (0x41, .vsub n, f32sub), (0x42, .vmul n, f32mul),
    (0x44, .vdiv n, f32div), (0x46, .vmin n, f32min), (0x47, .vmax n, f32max), (0x48, .vcmp n, cmpNum ((s.insn (arrNum n)).mod % 8)),
    (0x50, .viadd n, fun p q => ⟨(p + q) % 2 ^ 32, 0⟩), (0x51, .vsh n, shiftNum), (0x52, .vand n, fun p q => ⟨p &&& q, 0⟩),
    (0x53, .vor n, fun p q => ⟨p ||| q, 0⟩)],
    ∃ f : Insn → Nat → Nat → Machine.Num, f (s.insn (arrNum n)) = e.2.2 ∧ exec e.2.1 s = .next (s.vec2 (arrNum n) e.1 f) := by
  simp only [List.forall_mem_cons, List.not_mem_nil, false_imp_iff, implies_true, and_true]
  and_intros <;> exact ⟨_, by rfl, rfl⟩

/-- Results that raise no flag. -/
theorem resultFly_plain (u : IssueUnit) (rd wr : List (Nat × Nat)) (lbW : List Seg) (es : List Elt) :
    resultFly u rd wr lbW (es.map fun e => (⟨e.1, 0⟩, e.2)) =
      { id := 0, unit := u, pc := 0, rd := rd, wr := wr, lbW := lbW, cause := if es.any (·.2) then 1 else 0 } := by
  have hflags : (es.map fun e => ((⟨e.1, 0⟩ : Machine.Num), e.2)).foldl (fun f e => if e.2 then f else f ||| e.1.flags) 0 = 0 := by
    induction es with
    | nil => rfl
    | cons e es ih => simpa using ih
  simp only [resultFly, hflags, List.any_map]
  rfl

/-- The elements of a that SHUF takes by the indices of b (R123). -/
def ArrSt.shuffled (a : ArrSt) (i : Insn) (ix : List Nat) : List Elt :=
  ix.map fun j => (a.elems (a.lbWord i.a) 32 j 1).getD 0 (0, false)

/-- The issue of SHUF with sound indices that stay inside the line buffers (R123). -/
theorem State.exec_shuf {s : State} {n : Arr} (hi : s.issues (arrNum n) 0x61 = true) {a : ArrSt} (ha : s.arr (arrNum n) = a) {i : Insn}
    (hinsn : s.insn (arrNum n) = i) {ix : List Nat} (hix : a.elems (a.lbWord i.b) 32 0 i.imm = ix.map (·, false))
    (hb : lbFits (a.lbWord i.b) (elemWords i.imm 32) = true) (hd : lbFits (a.lbWord i.d) (elemWords i.imm 32) = true)
    (hin : ∀ j ∈ ix, a.lbWord i.a + j / 8 < 32768) (hacc : a.accepts [(0, 32768)] [(a.lbWord i.d, elemWords i.imm 32)] = true) :
    ∃ seen, exec (.shuf n) s = .next (s.launch (arrNum n) i
      { id := 0, unit := .shuffle, pc := 0, rd := [(0, 32768)], wr := [(a.lbWord i.d, elemWords i.imm 32)],
        lbW := a.putElems (a.lbWord i.d) 32 (a.shuffled i ix), cause := if (a.shuffled i ix).any (·.2) then 1 else 0 } seen) := by
  have hno : (a.elems (a.lbWord i.b) 32 0 i.imm).any (fun e => !e.2 && decide (32768 ≤ a.lbWord i.a + e.1 / 8)) = false := by
    rw [hix]
    simpa [List.any_map] using hin
  have hes : (a.elems (a.lbWord i.b) 32 0 i.imm).map
      (fun e => if e.2 = true then (0, true) else (a.elems (a.lbWord i.a) 32 e.1 1).headD (0, false)) = a.shuffled i ix := by
    rw [hix, List.map_map]
    refine List.map_congr_left fun j _ => ?_
    change (a.elems (a.lbWord i.a) 32 j 1).headD (0, false) = (a.elems (a.lbWord i.a) 32 j 1).getD 0 (0, false)
    cases a.elems (a.lbWord i.a) 32 j 1 <;> rfl
  have hexec : exec (.shuf n) s = .next (s.issue (arrNum n) 0x61 _) := rfl
  rw [State.issue_of_issues hi] at hexec
  simp only [ha, hinsn, hb, hd, hacc, hno, hes, Bool.not_true, Bool.or_self, Bool.false_eq_true, if_false] at hexec
  exact ⟨_, hexec⟩

theorem State.sendsResults_shuf {s : State} {n : Arr} (hs : s.sound (arrNum n) (s.nextPc (arrNum n)) = true)
    (hi : s.issues (arrNum n) 0x61 = true) {a : ArrSt} (ha : s.arr (arrNum n) = a) {i : Insn} (hinsn : s.insn (arrNum n) = i)
    {ix : List Nat} (hix : a.elems (a.lbWord i.b) 32 0 i.imm = ix.map (·, false))
    (hfit : lbFits (a.lbWord i.b) (elemWords i.imm 32) = true) (hin : ∀ j ∈ ix, a.lbWord i.a + j / 8 < 32768) :
    s.sendsResults (arrNum n) (.shuf n) .shuffle [(0, 32768)] 32 ((a.shuffled i ix).map fun e => (⟨e.1, 0⟩, e.2)) := by
  intro hadm
  have hlen : (a.shuffled i ix).length = i.imm := by
    have := congrArg List.length hix
    simpa [ArrSt.shuffled] using this.symm
  simp only [List.length_map, hlen, ha, hinsn] at hadm ⊢
  obtain ⟨hfits, haccepts, hlb⟩ := State.admits_iff.1 hadm
  simp only [List.cons_append, List.nil_append, List.all_cons, List.all_nil, Bool.and_true, Bool.and_eq_true] at hfits
  obtain ⟨seen, hexec⟩ := State.exec_shuf hi ha hinsn hix hfit hfits.2 hin (ha ▸ haccepts)
  refine ⟨_, hexec, ?_⟩
  rw [resultFly_plain, List.map_map, show ((fun e : NumElt => (e.1.val, e.2)) ∘ fun e : Elt => (⟨e.1, 0⟩, e.2)) = id from rfl,
    List.map_id]
  subst hinsn
  exact State.launch_launched hs hlb _ seen

/-! ### Elements of a format -/

theorem unpackGo_lt (w : Nat) : ∀ n x, ∀ v ∈ unpackGo w n x, v < 2 ^ w
  | 0, _ => nofun
  | n + 1, _ => List.forall_mem_cons.2 ⟨Nat.mod_lt _ (Nat.two_pow_pos w), unpackGo_lt w n _⟩

theorem ArrSt.elems_lt (a : ArrSt) (base w first n : Nat) : ∀ e ∈ a.elems base w first n, e.1 < 2 ^ w :=
  fun _ he => unpackGo_lt _ _ _ _ (List.of_mem_zip he).1

/-- A four-bit element as a signed byte (R123, UNPACK). -/
theorem ofInt_toSigned_four : ∀ v < 16, ofInt 8 (toSigned 4 v) = if 8 ≤ v then v + 240 else v := by decide

/-- UNPACK (R123). -/
theorem State.sendsResults_unpack {s : State} {n : Arr} (hs : s.sound (arrNum n) (s.nextPc (arrNum n)) = true)
    (hi : s.issues (arrNum n) 0x63 = true) {a : ArrSt} (ha : s.arr (arrNum n) = a) {i : Insn} (hinsn : s.insn (arrNum n) = i) :
    s.sendsResults (arrNum n) (.unpack n) .shuffle (a.vecA i (fmtWidth i.fa)).2 8
      ((a.vecA i (fmtWidth i.fa)).1.map fun e => (⟨if i.fa = 2 ∧ 8 ≤ e.1 then e.1 + 240 else e.1, 0⟩, e.2)) := by
  subst ha hinsn
  have hvals : ∀ e ∈ ((s.arr (arrNum n)).vecA (s.insn (arrNum n)) (fmtWidth (s.insn (arrNum n)).fa)).1,
      (if (s.insn (arrNum n)).fa = 2 then ofInt 8 (toSigned 4 e.1) else e.1)
        = if (s.insn (arrNum n)).fa = 2 ∧ 8 ≤ e.1 then e.1 + 240 else e.1 := by
    intro e he
    by_cases hf : (s.insn (arrNum n)).fa = 2
    · have hlt : e.1 < 16 := by simpa [hf, fmtWidth] using ArrSt.elems_lt _ _ _ _ _ e he
      simp only [hf, if_true, true_and, ofInt_toSigned_four _ hlt]
    · simp only [hf, if_false, false_and]
  have h := State.sendsResults_of_vec1 hs hi (c := .unpack n) rfl
  rw [List.map_congr_left fun e he => by rw [plainNum, hvals e he]] at h
  exact h

/-! ### Blocks (R97) -/

/-- VCVTMX (R97): the blocks that go into flight, and their scale bytes. -/
theorem State.vcvtmx_launched {s : State} {n : Arr} (hs : s.sound (arrNum n) (s.nextPc (arrNum n)) = true)
    (hi : s.issues (arrNum n) 0x55 = true) {a : ArrSt} (ha : s.arr (arrNum n) = a) {i : Insn} (hinsn : s.insn (arrNum n) = i)
    {gs : List ((Nat × List Nat × Nat) × Bool)}
    (hgs : gs = (groupsOf 32 i.imm (a.vecA i 32).1).map fun g => (mxBlock i.fo (g.map fun e => f32v e.1), g.any (·.2)))
    {es : List NumElt} (hes : es = gs.flatMap fun g => g.1.2.1.map fun v => (⟨v, if g.2 then 0 else g.1.2.2⟩, g.2))
    (hadm : s.admits (arrNum n) (a.vecA i 32).2
      [(a.lbWord i.d, elemWords es.length (fmtWidth i.fo)), (a.lbWord i.c, elemWords gs.length 8)] = true) :
    ∃ t, exec (.vcvtmx n) s = .next t ∧ Launched (arrNum n) { resultFly .vector (a.vecA i 32).2
        [(a.lbWord i.d, elemWords es.length (fmtWidth i.fo)), (a.lbWord i.c, elemWords gs.length 8)]
        (a.putElems (a.lbWord i.d) (fmtWidth i.fo) (es.map fun e => (e.1.val, e.2))
          ++ a.putElems (a.lbWord i.c) 8 (gs.map fun g => (g.1.1, g.2))) es with
      flags := gs.foldl (fun f g => if g.2 then f else f ||| g.1.2.2) 0
      cause := if gs.any (·.2) then 1 else 0 } s t := by
  obtain ⟨hfits, -, -⟩ := State.admits_iff.1 hadm
  have hplain : (gs.flatMap fun g => g.1.2.1.map fun v => (v, g.2)) = es.map fun e => (e.1.val, e.2) := by
    simp only [hes, List.map_flatMap, List.map_map, Function.comp_def]
  have hexec : exec (.vcvtmx n) s = .next (s.issue (arrNum n) 0x55 _) := rfl
  rw [State.issue_of_issues hi] at hexec
  simp only [ha, hinsn, ← hgs, hplain, List.length_map] at hexec
  rw [if_pos] at hexec
  · subst hinsn
    exact ⟨_, hexec, State.tryLaunch_launched hs hadm⟩
  · rw [List.all_append] at hfits
    simp only [List.all_cons, List.all_nil, Bool.and_true, Bool.and_eq_true] at hfits ⊢
    exact ⟨hfits.2.2, hfits.2.1, hfits.1⟩

/-- Settles O19: each operation by the shape of its issue, results as `State.vecDone` sends them; SHUF, UNPACK and VCVTMX on their
own. -/
theorem vectorOps : Obligations.VectorOps := by
  intro n s k a i d x y z writes hs
  refine ⟨?_, ?_, ?_, ?_, ?_, ?_, ?_, ?_, ?_, ?_⟩
  · intro op c f hop hi
    obtain ⟨g, hg, hexec⟩ := exec_eq_vec2 n s (op, c, f) hop
    change g i = f at hg
    exact hg ▸ State.sendsResults_of_vec2 hs hi hexec
  · intro op c f hop hi
    simp only [List.mem_cons, List.not_mem_nil, or_false, Prod.mk.injEq] at hop
    rcases hop with ⟨rfl, rfl, rfl⟩ | ⟨rfl, rfl, rfl⟩
    · exact State.sendsResults_of_vec3 hs hi (f := f32fma) rfl
    · exact State.sendsResults_of_vec3 hs hi (f := fun p q r => ⟨if r = 0 then q else p, 0⟩) rfl
  · exact fun hi => State.sendsResults_of_vec1 hs hi (u := .vector) (w := fun _ => 32) (wo := fun _ => 32) (f := fun _ => f32sqrt) rfl
  · exact fun hi => State.sendsResults_of_vec1 hs hi (u := .vector) (w := fun i => fmtWidth i.fa) (wo := fun i => fmtWidth i.fo)
      (f := fun i v => convert i.fo i.sat (fmtVal i.fa v)) rfl
  · intro op c f hop hi
    simp only [List.mem_cons, List.not_mem_nil, or_false, Prod.mk.injEq] at hop
    rcases hop with ⟨rfl, rfl, rfl⟩ | ⟨rfl, rfl, rfl⟩
    · exact State.sendsResults_of_vecReduce hs hi (f := laneSum) rfl
    · exact State.sendsResults_of_vecReduce hs hi (f := laneMax) rfl
  · exact fun hi => State.sendsResults_of_vec1 hs hi (u := .shuffle) (w := fun i => fmtWidth i.fa) (wo := fun i => fmtWidth i.fo)
      (f := fun _ v => ⟨v, 0⟩) rfl
  · exact fun hi => State.sendsResults_unpack hs hi rfl rfl
  · exact fun hi => State.sendsResults_of_vecDone hs hi rfl rfl
  · intro ix hi hix hfit hin
    have h := State.sendsResults_shuf hs hi rfl rfl hix hfit hin
    rw [ArrSt.shuffled, List.map_map] at h
    exact h
  · exact fun hi hadm => State.vcvtmx_launched hs hi rfl rfl rfl rfl hadm

/-! ### The fast approximations (R100) -/

/-- A fast approximation lies within its bound, or is the correctly rounded value. -/
theorem fastNear_within (v : Val) (k u : Nat) : inUlp v k (fastNear v k u).val = true ∨ (fastNear v k u).val = (fp32.ofVal v).val := by
  by_cases h : u % (nearUlp v k).length < (nearUlp v k).length
  · refine .inl (List.of_mem_filter (p := inUlp v k) (?_ : (fastNear v k u).val ∈ nearUlp v k))
    simp only [fastNear, List.getD_eq_getElem _ _ h]
    exact List.getElem_mem h
  · refine .inr ?_
    simp only [fastNear, List.getD_eq_default _ _ (Nat.le_of_not_lt h)]

theorem fastRcp_fin {x m : Nat} {n : Bool} {e : Int} (h : f32v x = .fin n m e) (hm : m ≠ 0) (u : Nat) :
    fastRcp x u = fastNear (.fin n (quotient 1 m (-e)).1 (quotient 1 m (-e)).2) 2 u := by
  simp only [fastRcp, h, hm, if_false]

theorem fastRsq_fin {x m : Nat} {e : Int} (h : f32v x = .fin false m e) (hm : m ≠ 0) (u : Nat) :
    fastRsq x u = fastNear (valRsq m e) 2 u := by
  simp [fastRsq, h, hm]

/-- Nothing is promised of a NaN operand but that it is noted. -/
theorem fast_nan {x : Nat} (h : (f32v x).isNan = true) (u : Nat) :
    ∀ f ∈ [fastRcp, fastRsq, fastExp, fastLog], f x u = ⟨u % 2 ^ 32, flNanIn⟩ := by
  have hv : f32v x = .nan := by
    cases hx : f32v x with
    | nan => rfl
    | inf n => simp [hx, Val.isNan] at h
    | fin n m e => simp [hx, Val.isNan] at h
  have hle : ∀ c, f32le c x = false := fun c => by
    simp only [f32le, hv, Val.le, Val.lt, Val.eq]
    cases f32v c <;> rfl
  simp [fastRcp, fastRsq, fastExp, fastLog, hv, hle, fastFree, Val.isNan]

/-- A fast approximation that the line buffers admit: one free value for each element. -/
theorem State.vecFast_launched {s : State} {k op : Nat} {c : Instr} {f : Nat → Nat → Machine.Num}
    (hexec : exec c s = .next (s.vecFast k op f)) (hs : s.sound k (s.nextPc k) = true) (hi : s.issues k op = true)
    (hadm : s.admits k ((s.arr k).vecA (s.insn k) 32).2 [((s.arr k).lbWord (s.insn k).d, elemWords (s.insn k).imm 32)] = true) :
    ∃ t, exec c s = .next t ∧
      let x := (s.arr k).vecA (s.insn k) 32
      let es := (x.1.zip (List.range x.1.length)).map fun e => (f e.1.1 (Config.free (s.freeCtr + e.2)), e.1.2)
      Launched k (resultFly .vector x.2 [((s.arr k).lbWord (s.insn k).d, elemWords (s.insn k).imm 32)]
        ((s.arr k).putElems ((s.arr k).lbWord (s.insn k).d) 32 (es.map fun e => (e.1.val, e.2))) es)
        { s with freeCtr := s.freeCtr + x.1.length } t := by
  extract_lets x es
  have hlen : es.length = (s.insn k).imm := by simp [es, x, ArrSt.vecA]
  rw [State.vecFast, State.issue_of_issues hi] at hexec
  simp only at hexec
  rw [if_pos (State.admits_iff.1 hadm).2.1] at hexec
  refine ⟨_, hexec, ?_⟩
  rw [← hlen] at hadm ⊢
  exact State.vecDone_launched (s := { s with freeCtr := s.freeCtr + x.1.length }) hs .vector x.2 32 es hadm

theorem exec_eq_vecFast (n : Arr) (s : State) : ∀ e ∈ [(0x70, Instr.vrcpF n, fastRcp), (0x71, .vrsqF n, fastRsq),
    (0x72, .vexpF n, fastExp), (0x73, .vlogF n, fastLog)], exec e.2.1 s = .next (s.vecFast (arrNum n) e.1 e.2.2) := by
  simp only [List.forall_mem_cons, List.not_mem_nil, false_imp_iff, implies_true, and_true]
  and_intros <;> rfl

/-- Settles O20: an approximation inside its domain is chosen by `fastNear` from the results that its bound allows. -/
theorem fastApproximations : Obligations.FastApproximations := by
  refine ⟨?_, ?_, ?_, ?_, ?_⟩
  · intro n s op c f k a i d x hop hi hs hadm
    exact State.vecFast_launched (exec_eq_vecFast n s (op, c, f) hop) hs hi hadm
  · intro x u n m e hx hm v
    refine ⟨?_, fun hn => ?_⟩
    · rw [fastRcp_fin hx hm]
      exact fastNear_within _ _ _
    · rw [fastRsq_fin (hn ▸ hx) hm]
      exact fastNear_within _ _ _
  · intro x u hlo hhi
    have h : fastLog x u = fastNear (valLog (f32v x)) 4 u := by simp only [fastLog, hlo, hhi, Bool.and_self, if_true]
    rw [h]
    exact fastNear_within _ _ _
  · intro x u hlo hhi
    have h : fastExp x u = fastNear (valExp (f32v x)) 4 u := by simp only [fastExp, hlo, hhi, Bool.and_self, if_true]
    rw [h]
    exact fastNear_within _ _ _
  · intro x u hx
    exact List.all_eq_true.2 fun f hf => beq_iff_eq.2 (fast_nan hx u f hf)

end Sys2Proof.Machine
end

section
/-! SUPPORT. The completion of a RED.GET (R111, R126) whose flight also carries packed bits. -/

namespace Sys2Proof.Machine

/-! ### A flight that carries packed bits (O23) -/

/-- A RED.GET in flight for tile 0, of one tile, to line-buffer word 0, that also carries the bits of one packed byte. -/
def packedRedGet : Fly := { id := 0, unit := .tensor, pc := 0, red := some (0, 1, 0), bitW := [⟨0, 8, 1, false⟩] }

/-- The tile it asks for: of empty size (R145), so that its result has no elements. -/
def packedTile : TileSt := { owner := 0, key := 0, kLen := 0, int := true, issued := [], empty := true }

/-- A module with that flight on array 0, in a job with that tile. -/
def packedModule : State :=
  { State.reset.put (F.ARR_JOB_QUEUE_valid 0) 1 with
    arrs := [(0, { flights := [packedRedGet] })]
    jobs := [{ queue := 0, index := 0, desc := [], accs := [packedTile] }] }

/-- The line buffers of array 0 after a command. -/
def lbAfter (r : Result) : List Host.Cell :=
  match r with
  | .next u => (u.arr 0).lb
  | _ => []

/-- The completion writes the packed bits too. -/
theorem packedModule_lbAfter : lbAfter (exec (.redGetComplete ⟨0, 0⟩) packedModule) = [(0, 1#8)] := by decide +kernel

/-- Without them nothing would be written: the result of an empty tile has no elements. -/
theorem putElems_nil_lands_nothing (a : ArrSt) (dst : Nat) :
    (a.putElems dst 32 []).foldl (fun m g => cellWrite m g.addr g.data) a.lb = a.lb := by
  simp [ArrSt.putElems, leBytes, segsOf, segsGo]

/-- Refutes O23: the clause of a RED.GET that completes says nothing of the packed bits of its flight, and the completion writes
them to the line buffers beside the results. (No instruction issues such a flight, but the clause holds of every state only with
`f.bitW = []` among its premises.) -/
theorem not_contractions : ¬ Obligations.Contractions := by
  rintro ⟨-, hcomplete, -⟩
  obtain ⟨u, hu, harrs, -⟩ := hcomplete ⟨0, 0⟩ packedModule packedRedGet _ 0 0 _ [] 0 (by decide +kernel) rfl rfl rfl rfl rfl rfl
    rfl rfl rfl rfl rfl rfl
  have hclaim : (u.arr 0).lb = [] := (congrArg (fun t => (tabGet t 0 ({} : ArrSt)).lb) harrs).trans (putElems_nil_lands_nothing _ 0)
  have hrun := packedModule_lbAfter
  rw [hu] at hrun
  exact absurd (hclaim.symm.trans hrun) (by decide)

end Sys2Proof.Machine
end

section
/-! SUPPORT. The sequencer's own instructions: control (O15) and scalars (O16) (R111, R112, R123, R135). -/

namespace Sys2Proof.Machine

/-! ### Instructions that act in the cycle of their issue (R112) -/

/-- An accepted instruction acts. -/
theorem State.exec_of_issues {s : State} {k op : Nat} {c : Instr} {act : State → Insn → State} (hi : s.issues k op = true)
    (hexec : exec c s = .next (s.issue k op act)) : exec c s = .next (act s (s.insn k)) := by
  rw [hexec, State.issue_of_issues hi]

theorem State.insn_op_of_issues {s : State} {k op : Nat} (hi : s.issues k op = true) : (s.insn k).op = op := by
  simp only [State.issues, State.due, Bool.and_eq_true, decide_eq_true_eq] at hi
  exact hi.1.2

/-- The mark N of an instruction is that of the row of its opcode (R123). -/
theorem State.markN_of_issues {s : State} {k op : Nat} {m : Bool} (hi : s.issues k op = true)
    (hm : (opInfo op).any OpInfo.n = m) : (s.insn k).markN = m := by
  rw [Insn.markN, State.insn_op_of_issues hi, ← hm]
  cases opInfo op <;> rfl

/-- An instruction without mark N, the next one sound: the sequencer moves on, nothing else changes. -/
theorem State.stepTo_moved {s : State} {k pc : Nat} (h : s.sound k pc = true) {i : Insn} (hn : i.markN = false) :
    Moved k pc s (s.stepTo k i pc) ∧ { s.stepTo k i pc with regs := s.regs } = s := by
  obtain ⟨hpc, hcount, hmark, hfields, hjobs, hframe⟩ := State.stepTo_issued h i
  simp only [hn, Bool.false_eq_true, if_false] at hmark hjobs
  have hstep : s.stepTo k i pc = (s.issueCounted k).put (F.ARR_PC_pc k) pc := by
    rw [State.stepTo, s.issued_of_not_markN k hn]
    exact State.goto_of_sound (s := s.issueCounted k) h
  refine ⟨⟨hpc, hcount, ?_⟩, ?_⟩
  · rw [hstep]
    exact ((FieldsBut.refl _ s).put (by simp) _).put (by simp) _
  · rw [hstep]
    rfl

/-- The same where the instruction also changes its array. -/
theorem State.setArr_stepTo_moved {s : State} {k pc : Nat} (h : s.sound k pc = true) {i : Insn} (hn : i.markN = false) {b : ArrSt}
    (hb : b.words = (s.arr k).words) :
    let t := (s.setArr k b).stepTo k i pc
    Moved k pc s t ∧ t.arrs = tabSet s.arrs k b ∧ { t with regs := s.regs, arrs := s.arrs } = s := by
  have hsound : (s.setArr k b).sound k pc = true := (State.sound_of_words (by rw [State.arr_setArr_same, hb]) pc).trans h
  obtain ⟨⟨hpc, hcount, hfields⟩, hframe⟩ := State.stepTo_moved hsound hn
  refine ⟨⟨hpc, hcount, fun g hg => hfields g hg⟩, (congrArg State.arrs hframe :), ?_⟩
  exact congrArg (fun t : State => { t with arrs := s.arrs }) hframe

/-! ### Scalar registers (R112) -/

theorem getD_listSet {α : Type} (v d : α) : ∀ {l : List α} {n : Nat}, n < l.length → (listSet l n v).getD n d = v
  | _ :: _, 0, _ => rfl
  | _ :: t, _ + 1, h => getD_listSet v d (l := t) (Nat.lt_of_succ_lt_succ h)

@[simp] theorem ArrSt.setScalar_words (a : ArrSt) (r v : Nat) : (a.setScalar r v).words = a.words := by
  unfold ArrSt.setScalar
  split <;> rfl

@[simp] theorem ArrSt.setScalar_cycles (a : ArrSt) (r v : Nat) : (a.setScalar r v).cycles = a.cycles := by
  unfold ArrSt.setScalar
  split <;> rfl

theorem ArrSt.scalar_setScalar (a : ArrSt) {r : Nat} (h0 : r ≠ 0) (h : r < 32) (v : Nat) : (a.setScalar r v).scalar r = v % 2 ^ 64 := by
  have hlen : r < (a.sr ++ List.replicate (32 - a.sr.length) 0#64).length := by
    simp only [List.length_append, List.length_replicate]
    omega
  simp only [ArrSt.scalar, ArrSt.setScalar, h0, if_false, getD_listSet _ _ hlen, BitVec.toNat_ofNat]

theorem ArrSt.scalar_lt (a : ArrSt) (r : Nat) : a.scalar r < 2 ^ 64 := by
  unfold ArrSt.scalar
  split
  · decide
  · exact BitVec.isLt _

theorem ArrSt.operand_lt (a : ArrSt) (r : Nat) : a.operand r < 2 ^ 64 := by
  unfold ArrSt.operand
  split
  · exact a.scalar_lt _
  · decide

/-- A reference that names a register other than s0. -/
theorem decodeRef_of_refReg {r : Nat} (h : refReg r ≠ 0) : decodeRef r = .sreg (refReg r) ∧ refReg r < 32 := by
  have hlt : ∀ q, decodeRef r = .sreg q → q < 32 := fun q hq => by
    unfold decodeRef at hq
    split_ifs at hq
    obtain rfl := Ref.sreg.inj hq
    omega
  unfold refReg at h ⊢
  cases hr : decodeRef r with
  | sreg q => exact ⟨rfl, hlt q hr⟩
  | _ => simp [hr] at h

theorem ArrSt.operand_setScalar (a : ArrSt) {r : Nat} (h : refReg r ≠ 0) (v : Nat) :
    (a.setScalar (refReg r) v).operand r = v % 2 ^ 64 := by
  obtain ⟨hr, hlt⟩ := decodeRef_of_refReg h
  simp only [ArrSt.operand, hr]
  exact a.scalar_setScalar h hlt v

theorem decodeRef_eq_none_iff {r : Nat} : decodeRef r = .none ↔ r = 0xFFFF := by
  unfold decodeRef
  split_ifs <;> simp <;> omega

/-! ### Control (O15) -/

/-- The counter of LOOP is 0 after its decrement exactly where it was 1. -/
theorem ArrSt.operand_decremented (a : ArrSt) {r : Nat} (h : refReg r ≠ 0) :
    (a.setScalar (refReg r) (a.operand r + 2 ^ 64 - 1)).operand r = 0 ↔ a.operand r = 1 := by
  have hlt := a.operand_lt r
  rw [a.operand_setScalar h]
  omega

/-- LOOP branches unless its counter was 1. -/
theorem State.loop_eq (s : State) (k : Nat) {i : Insn} (h : refReg i.a ≠ 0) :
    let b := (s.arr k).setScalar (refReg i.a) ((s.arr k).operand i.a + 2 ^ 64 - 1)
    (s.setArr k b).branch k i (decide (((s.setArr k b).arr k).operand i.a ≠ 0))
      = (s.setArr k b).stepTo k i (if (s.arr k).operand i.a = 1 then s.nextPc k else i.target) := by
  simp only [State.branch, State.arr_setArr_same, decide_eq_true_eq, ne_eq, ite_not, ArrSt.operand_decremented _ h]
  rfl

/-- The fields that the end of a slot changes. -/
def endFields (k : Nat) : List Fld :=
  [F.ARR_STATE_state k, F.ARR_JOB_QUEUE_valid k, F.ARR_ISSUED_count k, F.ARR_RED_granted k, F.ARR_RED_reserved k]
    ++ eventFields (pgARR k) Ev.ARR_job_done

/-- The job of a slot that left its array at `pc`: the slot has ended there. -/
def Job.slotLeft (j : Job) (slot pc : Nat) : Job :=
  { j with slots := listSet j.slots slot { j.slots.getD slot {} with phase := 3, pc := pc } }

/-- The job registers of an array cleared. -/
def State.jobCleared (s : State) (k : Nat) : State :=
  ((s.put (F.ARR_JOB_QUEUE_valid k) 0).put (F.ARR_RED_granted k) 0).put (F.ARR_RED_reserved k) 0

/-- An array that no slot runs on any more. -/
def ArrSt.freed (a : ArrSt) : ArrSt := { a with ending := false, wait := .none, stop := none, loading := false }

/-- The end of a slot: the registers, the job, the array. -/
theorem State.slotGone_spec (s : State) (k : Nat) :
    (∀ g, (s.slotGone k).get g = (s.jobCleared k).get g) ∧ (s.slotGone k).arrs = tabSet s.arrs k (s.arr k).freed
      ∧ (∀ j, s.arrJob k = some j → (s.slotGone k).jobs = (s.setJob (j.slotLeft (s.arr k).slot (s.get (F.ARR_PC_pc k)))).jobs)
      ∧ (s.arrJob k = none → (s.slotGone k).jobs = s.jobs)
      ∧ { s.slotGone k with regs := s.regs, arrs := s.arrs, jobs := s.jobs } = s := by
  unfold State.slotGone
  cases hj : s.arrJob k with
  | none => exact ⟨fun g => State.get_of_regs rfl rfl g, rfl, nofun, fun _ => rfl, rfl⟩
  | some j =>
    refine ⟨fun g => State.get_of_regs rfl rfl g, rfl, fun l hl => ?_, nofun, rfl⟩
    obtain rfl := Option.some.inj hl
    rfl

theorem State.get_jobCleared_valid (s : State) (k : Nat) : (s.jobCleared k).get (F.ARR_JOB_QUEUE_valid k) = 0 := by
  rw [State.jobCleared, State.get_put_apart _ (Fld.apart_of_off (by simp)), State.get_put_apart _ (Fld.apart_of_off (by simp))]
  exact State.get_put_self _ _ _ (by simp)

theorem State.get_jobCleared_issued (s : State) (k : Nat) :
    (s.jobCleared k).get (F.ARR_ISSUED_count k) = s.get (F.ARR_ISSUED_count k) := by
  rw [State.jobCleared]
  iterate 3 rw [State.get_put_apart _ (Fld.apart_of_off (by simp))]

theorem FieldsBut.jobCleared {fs : List Fld} {s t : State} (h : FieldsBut fs s t) {k : Nat} (hf : ∀ f ∈ endFields k, f ∈ fs) :
    FieldsBut fs s (t.jobCleared k) :=
  ((h.put (hf _ (by simp [endFields])) _).put (hf _ (by simp [endFields])) _).put (hf _ (by simp [endFields])) _

/-- A drained END (R135). -/
theorem State.endSlot_spec {s : State} {k : Nat} {i : Insn} (hn : i.markN = false) :
    let t := (((s.issued k i).slotGone k).put (F.ARR_STATE_state k) 0).raise (pgARR k) Ev.ARR_job_done
    t.get (F.ARR_STATE_state k) = 0 ∧ t.get (F.ARR_JOB_QUEUE_valid k) = 0
      ∧ t.get (F.ARR_ISSUED_count k) = (s.get (F.ARR_ISSUED_count k) + 1) % 2 ^ 32 ∧ t.eventSet (pgARR k) Ev.ARR_job_done = true
      ∧ FieldsBut (endFields k) s t ∧ t.arrs = tabSet s.arrs k (s.arr k).freed
      ∧ (∀ j, s.arrJob k = some j → t.jobs = (s.setJob (j.slotLeft (s.arr k).slot (s.get (F.ARR_PC_pc k)))).jobs)
      ∧ (s.arrJob k = none → t.jobs = s.jobs)
      ∧ { t with regs := s.regs, arrs := s.arrs, jobs := s.jobs, flt := s.flt } = s := by
  rw [s.issued_of_not_markN k hn]
  obtain ⟨hget, harrs, hjob, hnone, hframe⟩ := (s.issueCounted k).slotGone_spec k
  have hsame : (s.issueCounted k).arrJob k = s.arrJob k := State.arrJob_congr rfl fun g hg => by
    simp only [List.mem_cons, List.not_mem_nil, or_false] at hg
    rcases hg with rfl | rfl | rfl <;> exact State.get_put_apart _ (Fld.apart_of_off (by simp)) _
  have hpc : (s.issueCounted k).get (F.ARR_PC_pc k) = s.get (F.ARR_PC_pc k) := State.get_put_apart _ (Fld.apart_of_off (by simp)) _
  rw [hsame, hpc] at hjob
  rw [hsame] at hnone
  have hcleared : FieldsBut (endFields k) s ((s.issueCounted k).slotGone k) := fun g hg =>
    (hget g).trans ((((FieldsBut.refl _ s).put (by simp [endFields]) _).jobCleared fun _ h => h) g hg)
  have hslot : SlotOnly s ((s.issueCounted k).slotGone k) :=
    ((RegsOnly.refl s).put _ _).slotOnly.trans ⟨congrArg (fun u : State => { u with flt := s.flt }) hframe⟩
  change _ = tabSet s.arrs k (s.arr k).freed at harrs
  change ∀ j, s.arrJob k = some j → _ = (s.setJob (j.slotLeft (s.arr k).slot (s.get (F.ARR_PC_pc k)))).jobs at hjob
  change s.arrJob k = none → _ = s.jobs at hnone
  generalize (s.issueCounted k).slotGone k = u at *
  have hcell : ∀ o hi lo, o / 4 ≠ 4 ∧ o < 0x200 →
      (u.put (F.ARR_STATE_state k) 0 |>.raise (pgARR k) Ev.ARR_job_done).get ⟨128 + k, o, hi, lo⟩
        = (u.put (F.ARR_STATE_state k) 0).get ⟨128 + k, o, hi, lo⟩ := fun o hi lo ho =>
    State.get_raise _ (Fld.apart_of_off (by simp only; omega)) (Fld.apart_key (by simp only [regKey]; omega))
  refine ⟨?_, ?_, ?_, State.eventSet_raise _ _ _ (by decide), ?_, ?_, ?_, ?_, ?_⟩
  · exact (hcell _ _ _ (by simp)).trans (State.get_put_self _ (F.ARR_STATE_state k) _ (by simp))
  · refine (hcell _ _ _ (by simp)).trans ((State.get_put_apart _ (Fld.apart_of_off (by simp)) _).trans ((hget _).trans ?_))
    exact State.get_jobCleared_valid _ k
  · refine (hcell _ _ _ (by simp)).trans ((State.get_put_apart _ (Fld.apart_of_off (by simp)) _).trans ((hget _).trans ?_))
    exact (State.get_jobCleared_issued _ k).trans (s.get_issueCounted k)
  · exact (hcleared.put (by simp [endFields]) _).raise (by simp [endFields, eventFields]) (by simp [endFields, eventFields])
  · simpa using harrs
  · simpa using hjob
  · simpa using hnone
  · exact (hslot.trans (((RegsOnly.refl u).put _ _).raise _ _).slotOnly).frame

/-- Settles O15: each instruction by the lemma on what a step in the cycle of its issue leaves. -/
theorem seqControl : Obligations.SeqControl := by
  intro n s k a i
  have hmarkN : ∀ op ∈ List.range 8, s.issues k op = true → i.markN = false := fun op hop hi =>
    State.markN_of_issues hi ((by decide : ∀ q ∈ List.range 8, (opInfo q).any OpInfo.n = false) op hop)
  have moves : ∀ {op pc : Nat} {c : Instr}, s.issues k op = true → op ∈ List.range 8 → s.sound k pc = true →
      exec c s = .next (s.stepTo k i pc) → ∃ t, exec c s = .next t ∧ Moved k pc s t ∧ { t with regs := s.regs } = s :=
    fun hi hop hs hexec => ⟨_, hexec, State.stepTo_moved hs (hmarkN _ hop hi)⟩
  have changes : ∀ {op pc : Nat} {c : Instr} {b : ArrSt}, s.issues k op = true → op ∈ List.range 8 → s.sound k pc = true →
      b.words = a.words → exec c s = .next ((s.setArr k b).stepTo k i pc) →
      ∃ t, exec c s = .next t ∧ Moved k pc s t ∧ t.arrs = tabSet s.arrs k b ∧ { t with regs := s.regs, arrs := s.arrs } = s :=
    fun hi hop hs hb hexec => ⟨_, hexec, State.setArr_stepTo_moved hs (hmarkN _ hop hi) hb⟩
  refine ⟨?_, ?_, ?_, ?_, ?_, ?_, ?_, ?_⟩
  · exact fun hi hs => moves hi (by decide) hs (State.exec_of_issues (c := .nop n) hi rfl)
  · exact fun hi hs => moves hi (by decide) hs (State.exec_of_issues (c := .jmp n) hi rfl)
  · intro hi hs
    refine moves hi (by decide) hs ((State.exec_of_issues (c := .brz n) hi rfl).trans ?_)
    simp only [State.branch, decide_eq_true_eq]
    rfl
  · intro hi hs
    refine moves hi (by decide) hs ((State.exec_of_issues (c := .brnz n) hi rfl).trans ?_)
    simp only [State.branch, decide_eq_true_eq, ite_not]
    rfl
  · intro hi h0 hs
    exact changes hi (by decide) hs (a.setScalar_words _ _)
      ((State.exec_of_issues (c := .loop n) hi rfl).trans (congrArg Host.Outcome.next (s.loop_eq k h0)))
  · intro hi hlen hs
    refine changes hi (by decide) hs rfl ((State.exec_of_issues (c := .call n) hi rfl).trans ?_)
    exact congrArg Host.Outcome.next (if_neg (Nat.not_le_of_lt hlen))
  · intro pc rest hi hstack hs
    refine changes hi (by decide) hs rfl ((State.exec_of_issues (c := .ret n) hi rfl).trans ?_)
    have hst : (s.arr (arrNum n)).stack = pc :: rest := hstack
    simp only [hst]
    rfl
  · intro hi hd
    refine ⟨_, (State.exec_of_issues (c := .endSlot n) hi rfl).trans (congrArg Host.Outcome.next (if_pos hd)), ?_⟩
    exact State.endSlot_spec (hmarkN _ (by decide) hi)

/-! ### Scalars (O16) -/

/-- A key set twice holds what was set last. -/
theorem tabSet_tabSet_same {α : Type} (t : Tab α) (k : Nat) (v w : α) : tabSet (tabSet t k v) k w = tabSet t k w := by
  induction t with
  | nil => simp [tabSet]
  | cons e t ih =>
    simp only [tabSet]
    split_ifs with h1 h2 <;> simp [tabSet, *]

/-- An array changed twice in a row. -/
theorem State.modArr_setArr (s : State) (k : Nat) (b : ArrSt) (f : ArrSt → ArrSt) : (s.setArr k b).modArr k f = s.setArr k (f b) := by
  rw [State.modArr, State.arr_setArr_same, State.setArr, State.setArr, State.setArr]
  simp only [tabSet_tabSet_same]

/-- A scalar written by an instruction without mark N. -/
theorem State.setReg_moved {s : State} {k : Nat} (hs : s.sound k (s.nextPc k) = true) {i : Insn} (hn : i.markN = false) (r v : Nat) :
    let t := s.setReg k i r v
    Moved k (s.nextPc k) s t ∧ t.arrs = tabSet s.arrs k ((s.arr k).setScalar (refReg r) v)
      ∧ { t with regs := s.regs, arrs := s.arrs } = s :=
  State.setArr_stepTo_moved hs hn (ArrSt.setScalar_words _ _ _)

/-- An instruction with mark N that changes its array: the slot and its job are marked (R314). -/
theorem State.setArr_stepTo_marked {s : State} {k pc : Nat} (hs : s.sound k pc = true) {i : Insn} (hn : i.markN = true)
    {b : ArrSt} (hb : b.words = (s.arr k).words) :
    let t := (s.setArr k b).stepTo k i pc
    t.get (F.ARR_PC_pc k) = pc ∧ t.get (F.ARR_STATE_nonrepro k) = 1
      ∧ FieldsBut [F.ARR_PC_pc k, F.ARR_ISSUED_count k, F.ARR_STATE_nonrepro k] s t ∧ t.arrs = tabSet s.arrs k b
      ∧ (∀ j, s.arrJob k = some j → t.jobs = (s.setJob { j with nonrepro := true }).jobs)
      ∧ { t with regs := s.regs, arrs := s.arrs, jobs := s.jobs } = s := by
  have hsound : (s.setArr k b).sound k pc = true := (State.sound_of_words (by rw [State.arr_setArr_same, hb]) pc).trans hs
  obtain ⟨hpc, -, hmark, hfields, hjobs, hframe⟩ := State.stepTo_issued hsound i
  simp only [hn, if_true] at hmark hjobs
  refine ⟨hpc, hmark, fun g hg => hfields g hg, (congrArg State.arrs hframe :), fun j hj => ?_, ?_⟩
  · have hj' : (s.setArr k b).arrJob k = some j := hj
    rw [hjobs, State.markJob, hj']
    rfl
  · exact congrArg (fun t : State => { t with arrs := s.arrs }) hframe

/-- The opcodes of scalar instructions without mark N. -/
def scalarOps : List Nat := [0x08, 0x09, 0x0A, 0x0B, 0x0C, 0x0D, 0x1B]

/-- Settles O16: each instruction writes one scalar, by the lemma on what a step in the cycle of its issue leaves. -/
theorem seqScalars : Obligations.SeqScalars := by
  intro n s k a i simm writes hs
  have writes_of : ∀ {op v : Nat} {c : Instr}, s.issues k op = true → op ∈ scalarOps → exec c s = .next (s.setReg k i i.d v) →
      writes c v := fun hi hop hexec =>
    ⟨_, hexec, State.setReg_moved hs
      (State.markN_of_issues hi ((by decide : ∀ q ∈ scalarOps, (opInfo q).any OpInfo.n = false) _ hop)) _ _⟩
  refine ⟨?_, ?_, ?_, ?_, ?_, ?_, ?_, ?_, ?_, ?_⟩
  · exact fun hi => writes_of hi (by decide) (State.exec_of_issues (c := .sli n) hi rfl)
  · exact fun hi => writes_of hi (by decide) (State.exec_of_issues (c := .slih n) hi rfl)
  · intro hi
    refine writes_of hi (by decide) ((State.exec_of_issues (c := .sadd n) hi rfl).trans ?_)
    simp only [decodeRef_eq_none_iff]
    rfl
  · exact fun hi => writes_of hi (by decide) (State.exec_of_issues (c := .ssub n) hi rfl)
  · exact fun hi => writes_of hi (by decide) (State.exec_of_issues (c := .smul n) hi rfl)
  · intro hi h0
    exact writes_of hi (by decide) ((State.exec_of_issues (c := .sget n) hi rfl).trans (congrArg Host.Outcome.next (if_pos h0)))
  · intro f hi h0 hf
    refine writes_of hi (by decide) ((State.exec_of_issues (c := .sget n) hi rfl).trans (congrArg Host.Outcome.next
      ((if_neg h0).trans ?_)))
    have hf' : tdField (fieldAt ((s.arr (arrNum n)).td (s.insn k).a) 0 1) (s.insn k).imm = some f := hf
    simp only [hf']
    rfl
  · exact fun hi => writes_of hi (by decide) (State.exec_of_issues (c := .rdslot n) hi rfl)
  · intro hi
    have hdie : k / 24 = n.die.val := by have := n.num.isLt; simp only [k, arrNum]; omega
    refine ⟨_, State.exec_of_issues (c := .rdid n) hi rfl, ?_⟩
    rw [← hdie]
    exact State.setArr_stepTo_marked hs (State.markN_of_issues hi rfl) (ArrSt.setScalar_words _ _ _)
  · intro hi
    let c := (a.cycles + Config.free s.freeCtr) % 2 ^ 64
    let b := { a with cycles := c }.setScalar (refReg i.d) c
    let u := { s with freeCtr := s.freeCtr + 1 }
    have hexec : exec (.rdcyc n) s = .next ((u.setArr k b).stepTo k i (s.nextPc k)) := by
      refine (State.exec_of_issues (c := .rdcyc n) hi rfl).trans (congrArg Host.Outcome.next ?_)
      exact congrArg (fun v : State => v.stepTo k i (s.nextPc k)) (u.modArr_setArr k { a with cycles := c } _)
    obtain ⟨hpc, hmark, hfields, harrs, hjobs, hframe⟩ := State.setArr_stepTo_marked (s := u) (k := k) (b := b) hs
      (State.markN_of_issues hi rfl) (ArrSt.setScalar_words _ _ _)
    refine ⟨_, hexec, hpc, hmark, hfields, ?_, hjobs, congrArg (fun t : State => { t with freeCtr := s.freeCtr }) hframe⟩
    have hc : (((u.setArr k b).stepTo k i (s.nextPc k)).arr k).cycles = c := by
      rw [State.arr, harrs, tabGet_tabSet_same]
      exact ArrSt.setScalar_cycles _ _ _
    rw [hc]
    exact harrs

end Sys2Proof.Machine
end

section
/-! SUPPORT. A ROWPUB whose row counter is the control word of a collective slot (R154, R420). -/

namespace Sys2Proof.Machine

/-! ### A row published into a collective slot (O17) -/

/-- The instruction word ROWPUB s1, s2 with the scope of the die (R119, R123). -/
def rowpubWord : BitVec 128 := 0x1A000000#32 ++ 0x00000000#32 ++ 0xFFFF#16 ++ 0x8002#16 ++ 0x8001#16 ++ 0xFFFF#16

/-- The instruction word NOP. -/
def nopWord : BitVec 128 := 0x00000000#32 ++ 0x00000000#32 ++ 0xFFFF#16 ++ 0xFFFF#16 ++ 0xFFFF#16 ++ 0xFFFF#16

/-- Array 0 at a ROWPUB of row 1 to the counter at the start of the pool of die 0, where XGS_COLL_BASE places the collective slots. -/
def slotAtCounter : State :=
  { ((((State.reset.put (F.CD_STATE_state 0) 3).put (F.ARR_STATE_state 0) 1).put (F.ARR_JOB_QUEUE_valid 0) 1).put F.XGS_CTRL_enable
      1).putAddr F.XGS_COLL_BASE_LO_base (poolBase 0) with
    arrs := [(0, { words := [(rowpubWord, none), (nopWord, none)], sr := [0#64, BitVec.ofNat 64 (poolBase 0), 1#64] })]
    jobs := [{ queue := 0, index := 0, desc := [1#8] }] }

/-- The collective slots that wait to start after a command. -/
def goAfter (r : Result) : List Nat :=
  match r with
  | .next u => u.xgs.go
  | _ => []

/-- The row, which is odd, sets go in the control word of slot 0: the slot waits to start (R420). -/
theorem slotAtCounter_goAfter : slotAtCounter.xgs.go = [] ∧ goAfter (exec (.rowpub ⟨0, 0⟩) slotAtCounter) = [0] := by decide +kernel

/-- Refutes O17: the clause of an accepted ROWPUB says that registers and memory alone change, of every state. XGS_COLL_BASE is a
register that software writes, and nothing keeps the collective slots it places out of a die pool; a row published into the
control word of a slot starts the slot. (The clause lacks `s.plainStore` of the counter among its premises.) -/
theorem not_seqWaitsAndDiagnostics : ¬ Obligations.SeqWaitsAndDiagnostics := by
  rintro ⟨hwaits, -⟩
  obtain ⟨-, -, -, -, -, -, -, -, -, -, -, hrowpub⟩ := hwaits ⟨0, 0⟩ slotAtCounter
  obtain ⟨hpublish, -⟩ := hrowpub (by decide +kernel) (by decide +kernel) (by decide +kernel) (by decide +kernel) (by decide +kernel)
    rfl rfl
  obtain ⟨t, ht, -, -, -, hframe⟩ := hpublish (by decide +kernel)
  obtain ⟨hbefore, hafter⟩ := slotAtCounter_goAfter
  rw [ht] at hafter
  have hkept : t.xgs.go = slotAtCounter.xgs.go := (congrArg (fun u : State => u.xgs.go) hframe :)
  rw [hbefore] at hkept
  exact absurd (hkept.symm.trans hafter) (by decide)

end Sys2Proof.Machine
end

section
/-! SUPPORT. Moves and transforms within the line buffers (R123, R159 to R165), and what every move that goes into flight shares. -/

namespace Sys2Proof.Machine

/-! ### Moves into flight -/

/-- A flight of the move unit none of whose writes is poisoned, its ranges inside the line buffers. -/
theorem State.moveFly_eq {s : State} {k : Nat} {i : Insn} {f : Fly} (hunit : f.unit = .move)
    (hfit : ((f.rd ++ f.wr).all fun r => lbFits r.1 r.2) = true)
    (hclean : (f.lbW.any (·.poison) || f.bitW.any (·.poison) || f.memW.any (·.poison)) = false) :
    s.moveFly k i f = s.tryLaunch k i f := by
  have hf : { f with unit := .move, cause := if f.cause ≠ 0 then f.cause else 0 } = f := by
    obtain ⟨⟩ := f
    simp_all
  simp only [State.moveFly, hfit, hclean, if_true, Bool.false_eq_true, if_false, hf]

theorem State.moveFly_launched {s : State} {k : Nat} (hs : s.sound k (s.nextPc k) = true) {f : Fly} (hunit : f.unit = .move)
    (hclean : (f.lbW.any (·.poison) || f.bitW.any (·.poison) || f.memW.any (·.poison)) = false)
    (ha : s.admits k f.rd f.wr = true) : Launched k f s (s.moveFly k (s.insn k) f) := by
  rw [State.moveFly_eq hunit (State.admits_iff.1 ha).1 hclean]
  exact State.tryLaunch_launched hs ha

/-! ### Sound line buffers -/

theorem ArrSt.wordBad_of_clean {a : ArrSt} (h : a.lbCond = []) (w : Nat) : a.wordBad w = false := by
  simp [ArrSt.wordBad, h]

theorem ArrSt.rangeBad_of_clean {a : ArrSt} (h : a.lbCond = []) (b n : Nat) : a.rangeBad b n = false := by
  simp [ArrSt.rangeBad, ArrSt.wordBad_of_clean h]

/-- Elements of sound words are sound. -/
theorem ArrSt.elems_clean {a : ArrSt} (h : a.lbCond = []) (base w first n : Nat) : ∀ e ∈ a.elems base w first n, e.2 = false := by
  rintro ⟨v, p⟩ he
  simp only [ArrSt.elems, ArrSt.wordBad_of_clean h, Bool.or_self] at he
  obtain ⟨-, -, rfl⟩ := List.mem_map.1 (List.of_mem_zip he).2
  rfl

theorem ArrSt.elems_any_clean {a : ArrSt} (h : a.lbCond = []) (base w first n : Nat) : (a.elems base w first n).any (·.2) = false := by
  simpa using fun v p he => ArrSt.elems_clean h base w first n (v, p) he

theorem zip_range_map {α : Type} (g : Nat → α) (n : Nat) :
    (List.range n).zip ((List.range n).map g) = (List.range n).map fun k => (k, g k) := by
  rw [List.zip_map_right]
  refine List.ext_getElem (by simp) fun k _ _ => by simp

theorem zip_replicate_of_length {α β : Type} (b : β) {l : List α} {n : Nat} (h : l.length = n) :
    l.zip (List.replicate n b) = l.map (·, b) := by
  subst h
  induction l with
  | nil => rfl
  | cons x l ih => exact congrArg ((x, b) :: ·) ih

/-! ### Ranges -/

/-- Ranges of one length that coincide or do not meet. -/
theorem partOverlap_of_apart {p q n : Nat} (h : p = q ∨ p + n ≤ q ∨ q + n ≤ p) : partOverlap (p, n) (q, n) = false := by
  rcases h with rfl | h
  · simp [partOverlap]
  · simp only [partOverlap, rangesMeet, Bool.and_eq_false_iff, decide_eq_false_iff_not]
    omega

/-! ### The lengths of transforms (R159 to R162) -/

theorem length_toCx (bf : Bool) : ∀ l : List Elt, (toCx bf l).length = l.length / 2
  | [] => rfl
  | [_] => by simp [toCx]
  | _ :: _ :: t => by
    simp only [toCx, List.length_cons, length_toCx bf t]
    omega

theorem length_ofCx (bf bad : Bool) (l : List Cx) : (ofCx bf bad l).length = l.length * 2 := by
  simp [ofCx, List.length_flatMap]

theorem length_interleave : ∀ x y : List Cx, (interleave x y).length = x.length + y.length
  | [], _ => by simp [interleave]
  | _ :: _, [] => by simp [interleave]
  | _ :: x, _ :: y => by
    simp only [interleave, List.length_cons, length_interleave x y]
    omega

theorem length_fftStages (inv : Bool) (n : Nat) : ∀ {m : Nat} {x : List Cx}, x.length = 2 ^ m → (fftStages inv n m x).length = 2 ^ m
  | 0, _, h => h
  | m + 1, x, h => by
    have hx : x.length = 2 ^ m + 2 ^ m := by rw [h, pow_succ]; omega
    simp only [fftStages, length_interleave]
    rw [length_fftStages inv n (by simp; omega), length_fftStages inv n (by simp; omega), pow_succ]
    omega

theorem length_fft1 (inv : Bool) {m : Nat} {x : List Cx} (h : x.length = 2 ^ m) : (fft1 inv m x).length = 2 ^ m := by
  cases inv <;> simp [fft1, length_fftStages _ _ h]

theorem length_transposeCx (n : Nat) (rows : List (List Cx)) : (transposeCx n rows).length = n := by simp [transposeCx]

/-- A transform of two dimensions has as many results as points, whatever its input. -/
theorem length_fft2 (inv : Bool) {m1 m2 : Nat} {x : List Cx} (h : m2 = 0 → x.length = 2 ^ m1) :
    (fft2 inv m1 m2 x).length = 2 ^ (m1 + m2) := by
  unfold fft2
  split
  next h0 => rw [length_fft1 inv (h h0), h0, Nat.add_zero]
  next =>
    simp only [transposeCx, List.length_flatten, List.map_map]
    simp [Function.comp_def, pow_add, Nat.mul_comm]

/-- The points of a transform by its two exponents. -/
theorem pow_points (m1 m2 : Nat) : 2 ^ m1 * (if m2 = 0 then 1 else 2 ^ m2) = 2 ^ (m1 + m2) := by
  split
  next h => simp [h]
  next => rw [pow_add]

/-! ### FFT, IFFT and SPMUL at issue (R159 to R165) -/

/-- The results of `batch` transforms of the elements from word `src` on, none of them poisoned. -/
def ArrSt.transformed (a : ArrSt) (bf inv : Bool) (m1 m2 batch src : Nat) : List NumElt :=
  (List.range batch).flatMap fun b => ofCx bf false
    (fft2 inv m1 m2 (toCx bf (a.elems src (if bf then 16 else 32) (b * 2 ^ (m1 + m2) * 2) (2 ^ (m1 + m2) * 2))))

theorem ArrSt.length_transformed (a : ArrSt) (bf inv : Bool) (m1 m2 batch src : Nat) :
    (a.transformed bf inv m1 m2 batch src).length = batch * 2 ^ (m1 + m2) * 2 := by
  have hlen : ∀ es : List Elt, es.length = 2 ^ (m1 + m2) * 2 → (ofCx bf false (fft2 inv m1 m2 (toCx bf es))).length = 2 ^ (m1 + m2) * 2 :=
    fun es hes => by
      rw [length_ofCx, length_fft2 inv fun h => ?_]
      rw [length_toCx, hes, h]
      simp
  simp [ArrSt.transformed, List.length_flatMap, hlen, Nat.mul_assoc]

/-- A transform whose sizes and ranges the rules accept, over sound line buffers, sends its results. -/
theorem State.fftIssue_eq {s : State} {k : Nat} {i : Insn} {a : ArrSt} (ha : s.arr k = a) {inv : Bool} {m1 m2 batch words : Nat}
    (hm1 : i.imm % 16 = m1) (hm2 : i.imm / 16 % 16 = m2) (hbatch : i.imm / 256 % 4096 = batch)
    (hwords : elemWords (batch * 2 ^ (m1 + m2) * 2) (if i.mod.testBit 0 then 16 else 32) = words) (h1 : 4 ≤ m1 ∧ m1 ≤ 12)
    (h2 : m2 = 0 ∨ 4 ≤ m2 ∧ m2 ≤ 12) (hpoints : 2 ^ (m1 + m2) ≤ 65536) (hpos : 0 < batch)
    (hover : partOverlap (a.lbWord i.d, words) (a.lbWord i.a, words) = false)
    (hadm : s.admits k [(a.lbWord i.a, words)] [(a.lbWord i.d, words)] = true) :
    s.fftIssue k i inv = s.vecDone k i .fft [(a.lbWord i.a, words)] (if i.mod.testBit 0 then 16 else 32)
      (a.transformed (i.mod.testBit 0) inv m1 m2 batch (a.lbWord i.a)) := by
  obtain ⟨hfit, hacc, hlb⟩ := State.admits_iff.1 hadm
  simp only [List.cons_append, List.nil_append, List.all_cons, List.all_nil, Bool.and_true, Bool.and_eq_true] at hfit
  obtain ⟨hsrc, hdst⟩ := hfit
  rw [ha] at hacc hlb
  simp only [State.fftIssue, ha, hm1, hm2, hbatch, pow_points, hwords, hsrc, hdst, hover, hacc, ArrSt.elems_any_clean hlb]
  rw [if_neg (by simp; omega)]
  rfl

/-- The products of SPMUL, none of them poisoned. -/
def ArrSt.products (a : ArrSt) (n p q : Nat) : List NumElt :=
  ((toCx false (a.elems p 32 0 (2 * n))).zip (toCx false (a.elems q 32 0 (2 * n)))).flatMap fun e => ofCx false false [e.1.mul e.2]

theorem ArrSt.length_products (a : ArrSt) (n p q : Nat) : (a.products n p q).length = 2 * n := by
  simp [ArrSt.products, List.length_flatMap, length_ofCx, length_toCx]
  omega

/-- With sound operands every product of SPMUL is sound. -/
theorem ArrSt.products_eq {a : ArrSt} (h : a.lbCond = []) (n p q : Nat) :
    let ex := a.elems p 32 0 (2 * n)
    let ey := a.elems q 32 0 (2 * n)
    ((((toCx false ex).zip (toCx false ey)).map fun e => e.1.mul e.2).zip ((List.range n).map fun r =>
      ((ex.drop (2 * r)).take 2).any (·.2) || ((ey.drop (2 * r)).take 2).any (·.2))).flatMap (fun e => ofCx false e.2 [e.1])
      = a.products n p q := by
  intro ex ey
  have hsound : ∀ (b r : Nat), (((a.elems b 32 0 (2 * n)).drop (2 * r)).take 2).any (·.2) = false := fun b r =>
    List.any_eq_false.2 fun e he => by
      simp [ArrSt.elems_clean h b 32 0 (2 * n) e (List.mem_of_mem_drop (List.mem_of_mem_take he))]
  have hlen : (((toCx false ex).zip (toCx false ey)).map fun e => e.1.mul e.2).length = n := by
    simp [ex, ey, length_toCx]
  have hbads : ((List.range n).map fun r => ((ex.drop (2 * r)).take 2).any (·.2) || ((ey.drop (2 * r)).take 2).any (·.2))
      = List.replicate n false := by
    simp [ex, ey, hsound, List.map_const']
  rw [hbads, zip_replicate_of_length _ hlen, List.flatMap_map, List.flatMap_map]
  rfl

/-- Settles O21: what an accepted move or transform of the line buffers puts in flight. -/
theorem lineBufferOps : Obligations.LineBufferOps := by
  intro n s k a i d src hs
  refine ⟨?_, ?_, ?_, ?_⟩
  · intro hi ha
    obtain ⟨hfit, -, hlb⟩ := State.admits_iff.1 ha
    refine ⟨_, (State.exec_of_issues (c := .lbcopy n) hi rfl).trans (congrArg Host.Outcome.next ((if_pos ?_).trans
      (congrArg (fun l => s.moveFly k i { emptyFly with rd := [(src, i.imm)], wr := [(d, i.imm)], lbW := l }) ?_))),
      State.moveFly_launched hs rfl ?_ ha⟩
    · simpa using hfit
    · rw [ArrSt.wordsAt, zip_range_map, List.map_map]
      refine List.map_congr_left fun w _ => ?_
      exact congrArg (Seg.mk _ _) (ArrSt.wordBad_of_clean hlb _)
    · simp [emptyFly]
  · intro hi ha
    obtain ⟨hfit, -, -⟩ := State.admits_iff.1 ha
    refine ⟨_, (State.exec_of_issues (c := .lbfill n) hi rfl).trans (congrArg Host.Outcome.next (if_pos ?_)),
      State.moveFly_launched hs rfl ?_ ha⟩
    · simpa using hfit
    · simp [emptyFly]
  · intro op c inv hop hi m1 m2 batch points bf w words h41 h12 hm2 hpoints hpos hapart hadm es
    have hexec : exec c s = .next (s.fftIssue k i inv) := by
      simp only [List.mem_cons, List.not_mem_nil, or_false, Prod.mk.injEq] at hop
      rcases hop with ⟨rfl, rfl, rfl⟩ | ⟨rfl, rfl, rfl⟩
      · exact State.exec_of_issues (c := .fft n) hi rfl
      · exact State.exec_of_issues (c := .ifft n) hi rfl
    refine ⟨_, hexec.trans (congrArg Host.Outcome.next (State.fftIssue_eq rfl rfl rfl rfl rfl ⟨h41, h12⟩ hm2 hpoints hpos
      (partOverlap_of_apart hapart) hadm)), ?_⟩
    refine State.vecDone_launched hs .fft _ _ _ ?_
    have hlen : es.length = batch * points * 2 := a.length_transformed bf inv m1 m2 batch src
    rw [hlen]
    exact hadm
  · intro hi hpos words b disjoint hdx hdb hxb hadm es
    obtain ⟨hfit, -, hlb⟩ := State.admits_iff.1 hadm
    simp only [List.cons_append, List.nil_append, List.all_cons, List.all_nil, Bool.and_true, Bool.and_eq_true] at hfit
    obtain ⟨hx, hy, -⟩ := hfit
    refine ⟨_, (State.exec_of_issues (c := .spmul n) hi rfl).trans (congrArg Host.Outcome.next ((if_neg ?_).trans
      (congrArg (s.vecDone k i .fft [(src, words), (b, words)] 32) (ArrSt.products_eq hlb i.imm src b)))), ?_⟩
    · have hsrc : lbFits src words = true := hx
      have hb : lbFits b words = true := hy
      change ¬(i.imm = 0 ∨ (!lbFits src words) = true ∨ (!lbFits b words) = true ∨ partOverlap (d, words) (src, words) = true
        ∨ partOverlap (d, words) (b, words) = true ∨ partOverlap (src, words) (b, words) = true)
      simpa [hsrc, hb, partOverlap_of_apart hdx, partOverlap_of_apart hdb, partOverlap_of_apart hxb] using Nat.ne_of_gt hpos
    · refine State.vecDone_launched hs .fft _ _ _ ?_
      have hlen : es.length = 2 * i.imm := a.length_products i.imm src b
      rw [hlen]
      exact hadm

end Sys2Proof.Machine
end

section
/-! SUPPORT. Remote writes, reads and signals between members (O43) (R123, R127, R128, R139, R329, R343, R417 to R419). -/

namespace Sys2Proof.Machine

/-! ### A link's own work (R411, R412) -/

/-- From `s` to `t` link `l` worked for itself: nothing changed but its page, the links of the domain, what went out and the open
values used. -/
structure LinkOnly (l : Nat) (s t : State) : Prop where
  pages : PagesBut [48 + l] [] s t
  frame : { t with regs := s.regs, out := s.out, freeCtr := s.freeCtr, xgs := { t.xgs with links := s.xgs.links } } = s

theorem LinkOnly.refl (l : Nat) (s : State) : LinkOnly l s s := ⟨PagesBut.refl _ _ s, rfl⟩

theorem LinkOnly.trans {l : Nat} {s t u : State} (h : LinkOnly l s t) (k : LinkOnly l t u) : LinkOnly l s u := by
  refine ⟨h.pages.trans k.pages, ?_⟩
  have hx : t.xgs = { u.xgs with links := t.xgs.links } := (congrArg State.xgs k.frame :).symm
  calc { u with regs := s.regs, out := s.out, freeCtr := s.freeCtr, xgs := { u.xgs with links := s.xgs.links } }
      = { ({ u with
            regs := t.regs, out := t.out, freeCtr := t.freeCtr, xgs := { u.xgs with links := t.xgs.links } } : State) with
          regs := s.regs, out := s.out, freeCtr := s.freeCtr, xgs := { u.xgs with links := s.xgs.links } } := rfl
    _ = { t with regs := s.regs, out := s.out, freeCtr := s.freeCtr, xgs := { u.xgs with links := s.xgs.links } } := by
      rw [k.frame]
    _ = { t with regs := s.regs, out := s.out, freeCtr := s.freeCtr, xgs := { t.xgs with links := s.xgs.links } } := by rw [hx]
    _ = s := h.frame

theorem LinkOnly.foldl {ι : Type} {l : Nat} (op : State → ι → State) (hop : ∀ u i, LinkOnly l u (op u i)) (is : List ι) (s : State) :
    LinkOnly l s (is.foldl op s) :=
  List.foldlRecOn is op (LinkOnly.refl l s) fun u hu i _ => hu.trans (hop u i)

theorem LinkOnly.put {l : Nat} {s t : State} (h : LinkOnly l s t) {f : Fld} (hf : f.page = 48 + l ∧ f.off < 0x800) (v : Nat) :
    LinkOnly l s (t.put f v) :=
  h.trans ⟨PagesBut.put t (by simp only [regKey, List.mem_singleton]; omega) v, rfl⟩

theorem LinkOnly.setXl (l : Nat) (s : State) (v : XLinkSt) : LinkOnly l s (s.setXl l v) := ⟨PagesBut.of_regs rfl rfl, rfl⟩

theorem LinkOnly.xEmit (l : Nat) (s : State) (f : XFrame) : LinkOnly l s (s.xEmit l f) := ⟨PagesBut.of_regs rfl rfl, rfl⟩

theorem LinkOnly.xPut (l : Nat) (s : State) (f : XFrame) : LinkOnly l s (s.xPut l f) := by
  unfold State.xPut
  extract_lets k c g left s1 s2
  have h1 : LinkOnly l s s1 := LinkOnly.setXl l s _
  have h2 : LinkOnly l s s2 := by
    unfold s2
    split
    · exact h1.put (by simp) _
    · exact h1
  clear_value s2
  split
  · exact h2
  · exact h2.trans (LinkOnly.xEmit l s2 g)

theorem LinkOnly.xTransmit (l : Nat) (s : State) (f : XFrame) : LinkOnly l s (s.xTransmit l f) := by
  unfold State.xTransmit
  extract_lets k
  split
  · exact LinkOnly.setXl l s _
  · exact LinkOnly.xPut l s f

theorem LinkOnly.xDrain (l : Nat) (s : State) : LinkOnly l s (s.xDrain l) :=
  (LinkOnly.setXl l s _).trans (LinkOnly.foldl _ (fun u f => LinkOnly.xTransmit l u f) _ _)

theorem LinkOnly.xLog (l : Nat) (s : State) (f : XFrame) : LinkOnly l s (s.xLog l f) := by
  unfold State.xLog
  extract_lets codes one many
  split
  · exact (((LinkOnly.refl l s).put (by simp) _).put (by simp) _).put (by simp) _
  · exact LinkOnly.refl l s

/-- What a link does with a frame that it accepts is its own work. -/
theorem State.acceptedFrame_linkOnly (s : State) (l : Nat) (f : XFrame) : LinkOnly l s (s.acceptedFrame l f) := by
  unfold State.acceptedFrame
  extract_lets s1
  have h1 : LinkOnly l s s1 :=
    LinkOnly.trans (t := { s with freeCtr := s.freeCtr + 1 }) ⟨PagesBut.of_regs rfl rfl, rfl⟩
      ((LinkOnly.refl l _).put (by simp) _)
  exact ((h1.trans (LinkOnly.xLog l s1 f)).trans (LinkOnly.setXl l _ _)).trans (LinkOnly.xDrain l _)

section
variable {l : Nat} {s t : State}

theorem LinkOnly.get (h : LinkOnly l s t) {g : Fld} (hg : regKey g.page g.off / 512 ≠ 48 + l) : t.get g = s.get g :=
  h.pages g (by simpa using hg) (by simp)

theorem LinkOnly.regWord (h : LinkOnly l s t) {p o : Nat} (hg : regKey p o / 512 ≠ 48 + l) : t.regWord p o = s.regWord p o :=
  BitVec.eq_of_toNat_eq (by rw [← State.get_wholeReg, ← State.get_wholeReg]; exact h.get hg)

theorem LinkOnly.ext (h : LinkOnly l s t) : t.ext = s.ext := (congrArg State.ext h.frame :)

theorem LinkOnly.sec (h : LinkOnly l s t) : t.sec = s.sec := (congrArg State.sec h.frame :)

theorem LinkOnly.outs (h : LinkOnly l s t) : t.xgs.outs = s.xgs.outs := (congrArg (fun u : State => u.xgs.outs) h.frame :)

end

/-- A page that is no page of a link. -/
theorem regKey_ne_link {l p o : Nat} (hl : l < 8) (hp : p < 48 ∨ 56 ≤ p) (ho : o < 0x800) : regKey p o / 512 ≠ 48 + l := by
  simp only [regKey]
  omega

section
variable {l : Nat} {s t : State} (h : LinkOnly l s t) (hl : l < 8)
include h hl

theorem LinkOnly.xId : t.xId = s.xId := h.get (regKey_ne_link hl (by decide) (by decide))

theorem LinkOnly.replaying : t.replaying = s.replaying := by
  unfold State.replaying
  rw [h.get (regKey_ne_link hl (by decide) (by decide))]

theorem LinkOnly.journalDomain : t.flag F.JRN_CTRL_domain = s.flag F.JRN_CTRL_domain := by
  unfold State.flag
  rw [h.get (regKey_ne_link hl (by decide) (by decide))]

theorem LinkOnly.region (a : Nat) : t.region a = s.region a := by
  have hflag : t.flag F.MEMG_SPARE_reserve = s.flag F.MEMG_SPARE_reserve := by
    unfold State.flag
    rw [h.get (regKey_ne_link hl (by decide) (by decide))]
  simp only [State.region, hflag]

/-- The inbound apertures of the domain (R417). -/
theorem LinkOnly.aperture (o : Nat) (write : Bool) : t.aperture pgXGS 0x180 o write = s.aperture pgXGS 0x180 o write := by
  have hpage : ¬pgXGS = pgPCIE := by decide
  unfold State.aperture
  simp only [h.region hl, hpage, false_and, if_false]
  by_cases hn : o / 2 ^ 32 < 16
  · rw [h.regWord (regKey_ne_link hl (by decide) (by omega))]
  · simp only [hn, false_and, if_false]

theorem LinkOnly.remoteAt (operand : BitVec 44) (n : Nat) (write : Bool) : t.remoteAt operand n write = s.remoteAt operand n write := by
  unfold State.remoteAt
  simp only [h.aperture hl]

end

/-! ### A frame that the link awaits, for this device -/

/-- A frame of types 1 to 6 accepted for this device is acted on. -/
theorem State.xReceive_of_awaits {s : State} {l typ : Nat} {f : XFrame} (ha : s.awaits l typ f = true) (hm : s.forMe f = true)
    (ht : typ < 7) (act : State → List XWord → State) :
    s.xReceive l f typ act = act (s.acceptedFrame l f) (xWords f) := by
  simp only [State.awaits, decide_eq_true_eq] at ha
  obtain ⟨htyp, hup, hfec, hcrc, hseq⟩ := ha
  simp only [State.forMe, Bool.and_eq_true, decide_eq_true_eq, Bool.not_eq_true'] at hm
  obtain ⟨hdst, hmem⟩ := hm
  have hd : (f.seq.toNat + 4096 - ((s.xl l).lastRx + 1) % 4096) % 4096 = 0 := by
    rw [hseq]
    omega
  have hres : xReserved f = false := by simp [xReserved]; omega
  have h78 : ¬(typ = 7 ∨ typ = 8) := by omega
  unfold State.xReceive
  simp only [htyp, hup, hfec, xCrcOk, hcrc, hd, hres, h78, hmem, hdst]
  simp
  rfl

/-! ### A read of the module's memory leaves the registers below PCIE's (R370, R374, R384, R385) -/

/-- Every field of a page below PCIE's reads in `t` as in `s`. -/
def LowKept (s t : State) : Prop := ∀ g : Fld, regKey g.page g.off / 512 < pgPCIE → t.get g = s.get g

theorem LowKept.refl (s : State) : LowKept s s := fun _ _ => rfl

theorem LowKept.trans {s t u : State} (h : LowKept s t) (k : LowKept t u) : LowKept s u := fun g hg => (k g hg).trans (h g hg)

theorem LowKept.of_regs {s t : State} (hr : t.regs = s.regs) (hf : t.fuse = s.fuse) : LowKept s t :=
  fun g _ => State.get_of_regs hr hf g

theorem LowKept.put {s t : State} (h : LowKept s t) {f : Fld} (hf : pgPCIE ≤ f.page) (v : Nat) : LowKept s (t.put f v) :=
  h.trans fun g hg => t.get_put_apart (Fld.apart_key (by simp only [regKey] at *; omega)) v

theorem LowKept.raise {s t : State} (h : LowKept s t) {p : Nat} (hp : pgPCIE ≤ p) (b : Nat) : LowKept s (t.raise p b) :=
  h.trans fun g hg => t.get_raise (Fld.apart_key (by simp only [regKey, pgPCIE] at *; omega))
    (Fld.apart_key (by simp only [regKey, pgPCIE] at *; omega))

theorem LowKept.foldl {ι : Type} (op : State → ι → State) (hop : ∀ u i, LowKept u (op u i)) (l : List ι) (s : State) :
    LowKept s (l.foldl op s) :=
  List.foldlRecOn l op (LowKept.refl s) fun u hu i _ => hu.trans (hop u i)

theorem LowKept.setMc {s t : State} (h : LowKept s t) (k : Nat) (m : McSt) : LowKept s (t.setMc k m) :=
  h.trans (LowKept.of_regs rfl rfl)

theorem State.countUnmapped_lowKept (s : State) (a : Nat) : LowKept s (s.countUnmapped a) := by
  unfold State.countUnmapped
  split
  · exact ((LowKept.refl s).put (by decide) _).raise (by decide) _
  · exact ((LowKept.refl s).put (by decide) _).raise (by decide) _
  · exact LowKept.refl s

theorem State.wqShow_lowKept (s : State) (k : Nat) : LowKept s (s.wqShow k) := by
  have hpage : pgPCIE ≤ 64 + k := by simp [pgPCIE]; omega
  unfold State.wqShow State.putMax
  extract_lets n
  have h : LowKept s (s.put (F.MC_WQ_entries k) n) := (LowKept.refl s).put hpage n
  split
  · exact h.put hpage _
  · exact h

theorem State.wqEmpty_lowKept (s : State) (k : Nat) : LowKept s (s.wqEmpty k) :=
  ((LowKept.refl s).setMc k _).trans (State.wqShow_lowKept _ k)

theorem State.mcMode_lowKept (s : State) (k : Nat) : LowKept s (s.mcMode k) := by
  have hpage : pgPCIE ≤ 64 + k := by simp [pgPCIE]; omega
  unfold State.mcMode
  extract_lets m
  split
  · exact LowKept.refl s
  · split
    · exact ((LowKept.refl s).put hpage _).put hpage _
    · split
      · have h : LowKept s (if m = 2 then s.wqEmpty k else s) := by
          split
          · exact s.wqEmpty_lowKept k
          · exact LowKept.refl s
        exact (h.put hpage _).put hpage _
      · exact ((LowKept.refl s).put hpage _).put hpage _

theorem State.ccAccess_lowKept (s : State) (k ch x : Nat) (write : Bool) : LowKept s (s.ccAccess k ch x write) := by
  unfold State.ccAccess
  extract_lets line m set
  split
  · exact (LowKept.refl s).setMc k _
  · exact ((LowKept.refl s).setMc k _).put (by simp [pgPCIE]; omega) _

theorem State.mcTouch_lowKept (s : State) (w : Nat) : LowKept s (s.mcTouch false w) := by
  unfold State.mcTouch
  extract_lets cx k ch
  split
  · simp only [Bool.false_eq_true, if_false]
    split
    · exact ((LowKept.refl s).put (by simp [pgPCIE]; omega) _).trans (State.ccAccess_lowKept _ k ch _ _)
    · exact s.ccAccess_lowKept k ch _ _
  · exact LowKept.refl s

theorem State.errLoc_lowKept (s : State) (k ch x byte : Nat) (scrub cache : Bool) :
    LowKept s (s.errLoc k ch x byte scrub cache) := by
  have hpage : pgPCIE ≤ 64 + k := by simp [pgPCIE]; omega
  exact ((((((((LowKept.refl s).put hpage _).put hpage _).put hpage _).put hpage _).put hpage _).put hpage _).put hpage _).put hpage _

theorem State.rowRetireStart_lowKept (s : State) (k ch bank row : Nat) : LowKept s (s.rowRetireStart k ch bank row) := by
  have hpage : pgPCIE ≤ pgMC k := by simp [pgPCIE, pgMC]; omega
  unfold State.rowRetireStart
  extract_lets m
  split
  · exact LowKept.refl s
  · split
    · exact (LowKept.refl s).raise hpage _
    · exact (((LowKept.refl s).setMc k _).put hpage _).trans (State.mcMode_lowKept _ k)

theorem State.mcCorrected_lowKept (s : State) (k ch x byte : Nat) (scrub : Bool) : LowKept s (s.mcCorrected k ch x byte scrub) := by
  have hpage : pgPCIE ≤ pgMC k := by simp [pgPCIE, pgMC]; omega
  have hcorr : pgPCIE ≤ (if ch = 0 then F.MC_CORR_ch0 k else F.MC_CORR_ch1 k).page := by split <;> exact hpage
  unfold State.mcCorrected
  extract_lets m r s1 s2 thr
  have h2 : LowKept s s2 :=
    ((((LowKept.refl s).setMc k _).put hcorr _).trans (State.errLoc_lowKept _ k ch x byte scrub false)).raise hpage _
  clear_value s2
  split
  · exact h2.trans (s2.rowRetireStart_lowKept k ch _ _)
  · exact h2

theorem State.mcUncorrectable_lowKept (s : State) (k ch x : Nat) (scrub : Bool) : LowKept s (s.mcUncorrectable k ch x scrub) := by
  have hpage : pgPCIE ≤ pgMC k := by simp [pgPCIE, pgMC]; omega
  have hcorr : pgPCIE ≤ (if ch = 0 then F.MC_UNCORR_ch0 k else F.MC_UNCORR_ch1 k).page := by split <;> exact hpage
  exact ((((LowKept.refl s).put hcorr _).trans (State.errLoc_lowKept _ k ch x 63 scrub false)).raise hpage _).trans
    (State.rowRetireStart_lowKept _ k ch _ _)

theorem State.logRead_lowKept (s : State) (w : Nat) : LowKept s (s.logRead w) := by
  have hcd : ∀ n, pgPCIE ≤ pgCD n := fun n => by simp [pgPCIE, pgCD]; omega
  have hst : ∀ n, pgPCIE ≤ pgST n := fun n => by simp [pgPCIE, pgST]; omega
  unfold State.logRead
  split
  · exact LowKept.refl s
  · exact LowKept.refl s
  · rename_i c _ _
    extract_lets bad byte cx byteHi
    split
    · split
      · exact s.mcUncorrectable_lowKept _ _ _ _
      · exact s.mcCorrected_lowKept _ _ _ _ _
    · refine LowKept.raise ?_ (hcd _) _
      split <;> exact (LowKept.refl s).put (hcd _) _
    · rename_i n _
      have h1 : LowKept s (if bad then s.count (F.ST_UNCORR_COUNT_count n) 1 else s.count (F.ST_CORR_COUNT_count n) 1) := by
        split <;> exact (LowKept.refl s).put (hst n) _
      exact ((h1.put (hst n) _).put (hst n) _).raise (hst n) _
    · exact LowKept.refl s

theorem State.load_lowKept (s : State) (a n : Nat) : LowKept s (s.load a n).1 := by
  unfold State.load
  split
  · exact (LowKept.foldl _ (fun u w => u.mcTouch_lowKept w) _ s).trans (LowKept.foldl _ (fun u w => u.logRead_lowKept w) _ _)
  · exact s.countUnmapped_lowKept a

/-! ### Remote writes and reads (R417, R418) -/

/-- A saturating counter raised by one with its event: the counter, the event, nothing else. -/
theorem State.counted_spec (s : State) {f : Fld} {p b : Nat} (hf : f.lo ≤ f.hi ∧ f.hi < 32) (hb : b < 32)
    (hs : (Fld.mk p 0x10 b b).apartTest f = true) (hm : F.PCIE_MSI_PEND_pending.apartTest f = true) :
    let t := (s.satInc f).raise p b
    t.get f = min (s.get f + 1) (f.size - 1) ∧ t.eventSet p b = true ∧ FieldsBut (f :: eventFields p b) s t
      ∧ { t with regs := s.regs, flt := s.flt } = s := by
  have hsize : 0 < f.size := Nat.two_pow_pos _
  refine ⟨?_, State.eventSet_raise _ p b hb, ?_, ((RegsOnly.refl s).put f _ |>.raise p b).frame⟩
  · rw [State.get_raise_other _ hs hm, State.satInc_eq, State.get_put_self _ _ _ hf, Nat.mod_eq_of_lt (by omega)]
  · exact ((FieldsBut.refl _ s).satInc List.mem_cons_self).raise (by simp [eventFields]) (by simp [eventFields])

/-- Both ends of a range behind one aperture, or behind two that continue each other (R417). -/
theorem State.remoteAt_eq (s : State) (operand : BitVec 44) (n : Nat) (write : Bool) {o : Nat}
    (ho : o = operand.toNat % 2 ^ 43 * 32 % 2 ^ 36) :
    s.remoteAt operand n write = (s.aperture pgXGS 0x180 o write).filter fun a =>
      s.aperture pgXGS 0x180 (o + n - 1) write == some (a + n - 1) := by
  simp only [State.remoteAt, ← ho]
  cases s.aperture pgXGS 0x180 o write with
  | none => rfl
  | some a =>
    cases s.aperture pgXGS 0x180 (o + n - 1) write with
    | none => rfl
    | some z => by_cases h : z = a + n - 1 <;> simp [Option.filter, h]

section
variable {l : Fin 8} {f : XFrame} {s : State} (hm : s.forMe f = true)
include hm

theorem xagusWrite_refused (ha : s.awaits l.val 1 f = true) (h : s.remoteAt f.operand (32 * (xWords f).length) true = none) :
    exec (.xagusWrite l f) s = .next ((s.acceptedFrame l.val f).refusedIn.xSend
      (mkFrame 4 s.xId f.src.toNat (refusedBit f.operand true) 0 [])) := by
  have hlink := s.acceptedFrame_linkOnly l.val f
  refine congrArg Host.Outcome.next ((State.xReceive_of_awaits ha hm (by decide) _).trans ?_)
  simp only [hlink.remoteAt l.isLt, h, hlink.xId l.isLt]

theorem xagusWrite_applied (ha : s.awaits l.val 1 f = true) {a : Nat}
    (h : s.remoteAt f.operand (32 * (xWords f).length) true = some a) :
    exec (.xagusWrite l f) s = .next ((((List.range (xWords f).length).zip (xWords f)).foldl
      (fun (u : State) (w : Nat × XWord) => u.store (a + 32 * w.1) w.2.1 w.2.2) (s.acceptedFrame l.val f)).xSend
        (mkFrame 4 s.xId f.src.toNat (refusedBit f.operand false) 0 [])) := by
  have hlink := s.acceptedFrame_linkOnly l.val f
  refine congrArg Host.Outcome.next ((State.xReceive_of_awaits ha hm (by decide) _).trans ?_)
  simp only [hlink.remoteAt l.isLt, h, hlink.xId l.isLt]

theorem readRequest_refused (ha : s.awaits l.val 2 f = true) (h : s.remoteAt f.operand (32 * (xWords f).length) false = none) :
    exec (.readRequest l f) s = .next ((s.acceptedFrame l.val f).refusedIn.xSend (mkFrame 3 s.xId f.src.toNat
      (refusedBit f.operand true) (2 ^ (xWords f).length - 1) (List.replicate (32 * (xWords f).length) 0#8))) := by
  have hlink := s.acceptedFrame_linkOnly l.val f
  refine congrArg Host.Outcome.next ((State.xReceive_of_awaits ha hm (by decide) _).trans ?_)
  simp only [hlink.remoteAt l.isLt, h, hlink.xId l.isLt]

theorem readRequest_served (ha : s.awaits l.val 2 f = true) {a : Nat}
    (h : s.remoteAt f.operand (32 * (xWords f).length) false = some a) :
    let s1 := s.acceptedFrame l.val f
    let n := (xWords f).length
    let r := s1.load a (32 * n)
    exec (.readRequest l f) s = .next (r.1.xSend (mkFrame 3 r.1.xId f.src.toNat (refusedBit f.operand false)
      ((List.range n).map fun k => if s1.poisonedAt (a + 32 * k) 32 then 2 ^ k else 0).sum r.2.1)) := by
  intro s1 n r
  have hid : r.1.xId = s1.xId := s1.load_lowKept a (32 * n) _ (by decide)
  refine congrArg Host.Outcome.next ((State.xReceive_of_awaits ha hm (by decide) _).trans ?_)
  simp only [(s.acceptedFrame_linkOnly l.val f).remoteAt l.isLt, h]
  rw [hid]

/-! ### Answers and acknowledgements (R417 to R419) -/

theorem readReturn_eq (ha : s.awaits l.val 3 f = true) :
    let s1 := s.acceptedFrame l.val f
    let a := memberBase f.src.toNat + (f.operand.toNat % 2 ^ 43 * 32) % 2 ^ 36
    let got := fun (e : Nat × ExtRead) => State.flyWords { s1 with ext := tabDel s1.ext e.1 } e.2 ((xWords f).take (e.2.len / 32))
    exec (.readReturn l f) s = .next (match s.ext.find? fun e => !e.2.host && e.2.addr == a with
      | none => s1
      | some e => if f.operand.getLsbD 43 then (got e).refusedOut else got e) := by
  intro s1 a got
  refine congrArg Host.Outcome.next ((State.xReceive_of_awaits ha hm (by decide) _).trans ?_)
  simp only [(s.acceptedFrame_linkOnly l.val f).ext]
  rfl

end

/-- The oldest write or signal of a kind, destination and key that is not yet acknowledged. -/
def State.oldestOut (s : State) (src : Nat) (signal : Bool) (key : Nat) : Option RemOut :=
  s.xgs.outs.find? fun o => o.dst == src && (o.signal == signal && o.key == key)

/-- An acknowledgement ends the oldest of its kind; a refused one counts and is noted as lost. -/
theorem State.ackTaken_eq (s : State) (src : Nat) (signal bad : Bool) (key : Nat) :
    s.ackTaken src signal bad key = match s.oldestOut src signal key with
      | none => s
      | some o =>
        if bad then State.refusedOut { s with xgs := { s.xgs with
          outs := s.xgs.outs.erase o
          lost := s.xgs.lost ++ [(o.queue, o.index, o.slot)] } }
        else { s with xgs := { s.xgs with outs := s.xgs.outs.erase o } } := by
  have hp : (fun o : RemOut => decide (o.dst = src ∧ o.signal = signal ∧ o.key = key))
      = fun o => o.dst == src && (o.signal == signal && o.key == key) := by
    funext o
    simp only [Bool.decide_and]
    rfl
  simp only [State.ackTaken, State.oldestOut, hp]
  cases s.xgs.outs.find? fun o => o.dst == src && (o.signal == signal && o.key == key) with
  | none => rfl
  | some o => cases bad <;> rfl

section
variable {l : Fin 8} {f : XFrame} {s : State} (hm : s.forMe f = true)
include hm

/-- An acknowledgement accepted, by its kind: type, of a signal or not, key. -/
theorem acknowledge_eq : ∀ p ∈ [(Instr.writeAcknowledge l f, 4, false, f.operand.toNat % 2 ^ 43 * 32 % 2 ^ 36),
      (.signalAcknowledge l f, 6, true, f.operand.toNat % 4096)], s.awaits l.val p.2.1 f = true →
    exec p.1 s = .next ((s.acceptedFrame l.val f).ackTaken f.src.toNat p.2.2.1 (f.operand.getLsbD 43) p.2.2.2) := by
  simp only [List.mem_cons, List.not_mem_nil, or_false, forall_eq_or_imp, forall_eq]
  exact ⟨fun ha => congrArg Host.Outcome.next (State.xReceive_of_awaits ha hm (by decide) _),
    fun ha => congrArg Host.Outcome.next (State.xReceive_of_awaits ha hm (by decide) _)⟩

/-- A remote signal accepted (R329, R418). -/
theorem remoteSignal_eq (ha : s.awaits l.val 5 f = true) :
    let s1 := s.acceptedFrame l.val f
    let o := f.operand.toNat % 4096
    let n := f.operand.toNat / 4096
    let key := f.src.toNat * 4096 + o
    let u := if s.replaying then
        (if s.flag F.JRN_CTRL_domain then { s1 with jrn := { s1.jrn with live := tabSet s1.jrn.live key (tabGet s1.jrn.live key 0 + 1) } }
        else s1)
      else (s1.publish 0x08 0 f.src.toNat o n 0).fenceAdd o n
    exec (.remoteSignal l f) s = .next (u.xSend (mkFrame 6 s.xId f.src.toNat o 0 [])) := by
  intro s1 o n key u
  have hlink := s.acceptedFrame_linkOnly l.val f
  refine congrArg Host.Outcome.next ((State.xReceive_of_awaits ha hm (by decide) _).trans ?_)
  simp only [hlink.replaying l.isLt, hlink.journalDomain l.isLt, hlink.xId l.isLt]
  rfl

end

/-! ### Signals and fences of an array (R127, R128, R419) -/

theorem State.xOpen_eq (s : State) (n : Nat) :
    s.xOpen n = s.xgs.outs.any fun o => (o.queue, o.index, o.slot) == s.xOwner n := by
  unfold State.xOpen
  congr 1
  funext o
  rw [Bool.eq_iff_iff, decide_eq_true_iff, beq_iff_eq]

theorem State.xLostFault_eq (s : State) (n : Nat) :
    s.xLostFault n = State.slotFault { s with xgs := { s.xgs with lost := s.xgs.lost.filter fun x => x != s.xOwner n } } n 1 := by
  have hp : (fun x => decide (x ≠ s.xOwner n)) = fun x => x != s.xOwner n := by
    funext x
    rw [Bool.eq_iff_iff, decide_eq_true_iff, bne_iff_ne]
  simp only [State.xLostFault, hp]

theorem not_bnot_of_true {b : Bool} (h : b = true) : ¬(!b) = true := by simp [h]

/-- What a remote FSIG of a drained slot comes to. -/
def State.fsigRemote (s : State) (k : Nat) : State :=
  let i := s.insn k
  let o := refObj i.c
  let d := (s.arr k).operand i.b % 32
  if s.xOpen k then s
  else if s.xLost k then s.xLostFault k
  else if s.xReach d then ((s.xSend (mkFrame 5 s.xId d (o + 4096 * i.imm) 0 [])).xSent k d true o).stepTo k i (s.nextPc k)
  else if s.xgs.members ≠ [] ∧ d = s.xId then (s.fenceAdd o i.imm).stepTo k i (s.nextPc k)
  else s.slotFault k 1

theorem State.fsig_eq {n : Arr} {s : State} (hi : s.issues (arrNum n) 0x17 = true) :
    let k := arrNum n
    let i := s.insn k
    exec (.fsig n) s = .next (if !s.drained k then s
      else if !i.mod.testBit 0 then (s.fenceAdd (refObj i.c) i.imm).stepTo k i (s.nextPc k)
      else s.fsigRemote k) := by
  have hmem : ∀ p : Prop, ((!s.xgs.members.isEmpty) = true ∧ p) ↔ (s.xgs.members ≠ [] ∧ p) := fun p => by simp
  refine (State.exec_of_issues (c := .fsig n) hi rfl).trans (congrArg Host.Outcome.next ?_)
  simp only [State.fsigRemote, hmem]

theorem State.fsig_remote {n : Arr} {s : State} (hi : s.issues (arrNum n) 0x17 = true) (hd : s.drained (arrNum n) = true)
    (hr : (s.insn (arrNum n)).mod.testBit 0 = true) : exec (.fsig n) s = .next (s.fsigRemote (arrNum n)) :=
  (State.fsig_eq hi).trans (congrArg Host.Outcome.next ((if_neg (not_bnot_of_true hd)).trans (if_neg (not_bnot_of_true hr))))

theorem State.fenceDone_of_fence {n : Arr} {s : State} {kind k : Nat} (hk : arrNum n = k) (hrun : s.get (F.ARR_STATE_state k) = 1)
    (hw : (s.arr k).wait = .fence kind) :
    exec (.fenceDone n) s = .next (
      if (if kind = 0 then (s.arr k).flights = [] else s.drained k = true ∧ (kind = 3 → s.xOpen k = false)) then
        (if kind = 3 ∧ s.xLost k = true then s.xLostFault k else s.release k (s.nextPc k))
      else s) := by
  subst hk
  refine congrArg Host.Outcome.next ?_
  simp only [hrun, hw, ne_eq, not_true, if_false, List.isEmpty_iff]
  by_cases h0 : kind = 0
  · simp only [h0, if_true, Nat.reduceEqDiff, false_and, if_false]
  · by_cases h3 : kind = 3
    · cases s.drained (arrNum n) <;> cases s.xOpen (arrNum n) <;> simp [h3]
    · cases s.drained (arrNum n) <;> simp [h0, h3]

theorem State.fenceDone_of_not_fence {n : Arr} {s : State}
    (h : s.get (F.ARR_STATE_state (arrNum n)) ≠ 1 ∨ (s.arr (arrNum n)).wait = .none) : exec (.fenceDone n) s = .next s := by
  refine congrArg Host.Outcome.next ?_
  rcases h with h | h
  · exact if_pos h
  · simp [h]

/-! ### LD and ST of a member's window and of the doorbells (R123, R139, R343, R417) -/

/-- In a standalone replay the domain is not replayed (R329). -/
theorem State.xAlone_eq (s : State) : s.xAlone = (s.replaying && s.get F.JRN_CTRL_domain != 1) := by
  have hlt : s.get F.JRN_CTRL_domain < 2 := s.get_lt_size ⟨by decide, by decide⟩
  have hflag : (!s.flag F.JRN_CTRL_domain) = (s.get F.JRN_CTRL_domain != 1) := by
    unfold State.flag
    interval_cases s.get F.JRN_CTRL_domain <;> rfl
  rw [State.xAlone, hflag]

theorem xPieces_length (a n : Nat) : (xPieces a n).length = (n + 3) / 4 := by simp [xPieces]

/-- The flight of an LD. -/
def ldFly (dst n : Nat) : Fly := { emptyFly with wr := [(dst, n)] }

section
variable {n : Arr} {s : State} {d : Nat}

/-- An LD past its checks goes to the region that it names. -/
theorem State.ld_of_checked (hi : s.issues (arrNum n) 0x20 = true) :
    let k := arrNum n
    let i := s.insn k
    let a := (s.arr k).operand i.a
    let dst := (s.arr k).lbWord i.d
    a % 32 = 0 ∧ s.badRange a (32 * i.imm) = false ∧ lbFits dst i.imm = true ∧ (s.arr k).accepts [] [(dst, i.imm)] = true →
    exec (.ld n) s = .next (match s.region a with
      | .member d =>
        if s.xAlone then (s.markJob k).moveFly k i { ldFly dst i.imm with
          lbW := segsOf (fun _ => true) (32 * dst) (List.replicate (32 * i.imm) 0#8) }
        else if s.xReach d then
          ((s.moveFly k i { ldFly dst i.imm with await := (i.imm + 3) / 4 }).xReadRuns k d dst (xPieces a i.imm) a)
        else s.missCount.moveFly k i { ldFly dst i.imm with
          lbW := segsOf (fun _ => true) (32 * dst) (List.replicate (32 * i.imm) 0#8) }
      | .doorbell => s.moveFly k i { ldFly dst i.imm with
          lbW := segsOf (fun _ => false) (32 * dst) ((List.range i.imm).flatMap fun w => s.doorbellWord (a + 32 * w)) }
      | _ => (s.fromMem a (32 * dst) (32 * i.imm)).1.moveFly k i { ldFly dst i.imm with
          lbW := (s.fromMem a (32 * dst) (32 * i.imm)).2 }) := by
  intro k i a dst ⟨hal, hbad, hfit, hacc⟩
  refine (State.exec_of_issues (c := .ld n) hi rfl).trans (congrArg Host.Outcome.next ?_)
  refine (if_neg ?_).trans ((if_neg ?_).trans ((if_neg ?_).trans ?_))
  · exact fun h => h.elim (fun h => h hal) fun h => Bool.false_ne_true (hbad.symm.trans h)
  · exact not_bnot_of_true hfit
  · exact not_bnot_of_true hacc
  · rw [← xPieces_length a i.imm]
    rfl

/-- An ST into a member's window past its checks. -/
theorem State.st_member (hi : s.issues (arrNum n) 0x21 = true) :
    let k := arrNum n
    let i := s.insn k
    let a := (s.arr k).operand i.d
    let src := (s.arr k).lbWord i.a
    let f := { emptyFly with
      rd := [(src, i.imm)]
      cause := if (s.arr k).rangeBad (32 * src) (32 * i.imm) then 1 else 0 }
    a % 32 = 0 ∧ s.badRange a (32 * i.imm) = false ∧ lbFits src i.imm = true ∧ (s.arr k).accepts [(src, i.imm)] [] = true →
    s.region a = .member d →
    exec (.st n) s = .next (if s.xReach d then (s.xWriteRuns k d src (xPieces a i.imm) a).moveFly k i f
      else s.missCount.moveFly k i f) := by
  intro k i a src f ⟨hal, hbad, hfit, hacc⟩ hreg
  refine (State.exec_of_issues (c := .st n) hi rfl).trans (congrArg Host.Outcome.next ?_)
  refine (if_neg ?_).trans ((if_neg ?_).trans ((if_neg ?_).trans ((if_neg ?_).trans ?_)))
  · exact not_bnot_of_true hfit
  · exact fun h => by cases hreg.symm.trans h
  · exact fun h => h.elim (fun h => h hal) fun h => Bool.false_ne_true (hbad.symm.trans h)
  · exact not_bnot_of_true hacc
  · change (match s.region a with | .member d => _ | _ => _) = _
    rw [hreg]

end

/-! ### The obligation -/

/-- Settles O43: a frame of types 1 to 6 that the link awaits, for this device, is acted on in the state that its acceptance leaves,
and acceptance is the link's own work; the rest is each instruction's case split. -/
theorem remoteAccess : Obligations.RemoteAccess := by
  unfold Obligations.RemoteAccess
  refine ⟨?_, ?_, ?_, ?_, ?_, ?_, ?_, ?_⟩
  · intro l f s s1 ws n src unit ack bad
    refine ⟨fun ha hm => ⟨xagusWrite_refused hm ha, fun a => xagusWrite_applied hm ha⟩,
      fun ha hm => ⟨readRequest_refused hm ha, fun a => readRequest_served hm ha⟩, fun write => s.remoteAt_eq f.operand n write rfl, ?_, ?_⟩
    · exact s.counted_spec (by decide) (by decide) (by decide) (by decide)
    · exact s.counted_spec (by decide) (by decide) (by decide) (by decide)
  · intro l f s s1 refused a oldest got ha hm
    have h := readReturn_eq hm ha
    refine ⟨fun hn => h.trans ?_, fun e he hr => h.trans ?_, fun e he hr => h.trans ?_⟩
    · change (Host.Outcome.next (match oldest with | none => s1 | some e => _)) = _
      rw [hn]
    · change (Host.Outcome.next (match oldest with | none => s1 | some e => _)) = _
      rw [he]
      exact congrArg Host.Outcome.next (if_neg hr)
    · change (Host.Outcome.next (match oldest with | none => s1 | some e => _)) = _
      rw [he]
      exact congrArg Host.Outcome.next (if_pos hr)
  · intro r ws s
    constructor
    · intro h
      simp only [State.flyWords, h]
    · intro n h
      simp only [State.flyWords, h]
  · intro l f s s1 refused p hp oldest ha hm
    have hsame : s1.oldestOut f.src.toNat p.2.2.1 p.2.2.2 = oldest := by
      rw [State.oldestOut, (s.acceptedFrame_linkOnly l.val f).outs]
    have h := (acknowledge_eq hm p hp ha).trans (congrArg Host.Outcome.next (State.ackTaken_eq _ _ _ _ _))
    rw [hsame] at h
    refine ⟨fun hn => h.trans ?_, fun o ho hr => h.trans ?_, fun o ho hr => h.trans ?_⟩
    · rw [hn]
    · rw [ho]
      exact congrArg Host.Outcome.next (if_neg hr)
    · rw [ho]
      exact congrArg Host.Outcome.next (if_pos hr)
  · intro l f s s1 o n key ack ha hm
    have h := remoteSignal_eq hm ha
    refine ⟨fun hr => h.trans ?_, fun hr hd => h.trans ?_, fun hr hd => h.trans ?_⟩
    · rw [hr]
      rfl
    · rw [hr, State.flag, hd]
      rfl
    · rw [hr, State.flag, hd]
      rfl
  · intro n s k i o d remote sends mine
    refine ⟨fun hi hd => ?_, fun hi hd hr => ?_, fun hi hd hr => ?_, State.fenceDone_of_not_fence, fun kind hrun hw => ?_⟩
    · exact (State.fsig_eq hi).trans (congrArg Host.Outcome.next (if_pos (congrArg not hd)))
    · refine (State.fsig_eq hi).trans (congrArg Host.Outcome.next ((if_neg (not_bnot_of_true hd)).trans (if_pos ?_)))
      exact congrArg not (Bool.eq_false_of_not_eq_true hr)
    · have h := State.fsig_remote hi hd hr
      refine ⟨fun ho => h.trans ?_, fun ho hl => h.trans ?_, fun hs hx => h.trans ?_, fun hs hx hm => h.trans ?_, fun hs hx hm => h.trans ?_⟩
      · exact congrArg Host.Outcome.next (if_pos ho)
      · exact congrArg Host.Outcome.next ((if_neg (Bool.eq_false_iff.mp ho)).trans (if_pos hl))
      · exact congrArg Host.Outcome.next
          ((if_neg (Bool.eq_false_iff.mp hs.1)).trans ((if_neg (Bool.eq_false_iff.mp hs.2)).trans (if_pos hx)))
      · exact congrArg Host.Outcome.next
          ((if_neg (Bool.eq_false_iff.mp hs.1)).trans ((if_neg (Bool.eq_false_iff.mp hs.2)).trans
            ((if_neg (Bool.eq_false_iff.mp hx)).trans (if_pos hm))))
      · exact congrArg Host.Outcome.next
          ((if_neg (Bool.eq_false_iff.mp hs.1)).trans ((if_neg (Bool.eq_false_iff.mp hs.2)).trans
            ((if_neg (Bool.eq_false_iff.mp hx)).trans (if_neg hm))))
    · have h := State.fenceDone_of_fence (n := n) rfl hrun hw
      intro done
      refine ⟨fun hn => h.trans ?_, fun hy h3 hl => h.trans ?_, fun hy hl => h.trans ?_⟩
      · rw [if_neg hn]
      · rw [if_pos hy, if_pos ⟨h3, hl⟩]
      · rw [if_pos hy, if_neg fun hc => hl.elim (· hc.1) fun hl => Bool.false_ne_true (hl.symm.trans hc.2)]
  · intro n s own
    refine ⟨?_, ?_, s.xOpen_eq n, rfl, s.xLostFault_eq n, fun _ _ _ => rfl, s.counted_spec (by decide) (by decide) (by decide) (by decide),
      fun _ _ _ _ => rfl, fun _ _ _ _ => rfl⟩
    · intro h
      simp only [own, State.xOwner, h]
    · intro j h
      simp only [own, State.xOwner, h]
  · intro n s k a i src dst len pieces zeros ldOk into frm stOk out
    refine ⟨fun d hi hok hreg => ?_, fun hi hok hreg => ?_, fun d hi hok hreg => ?_, s.xAlone_eq⟩
    · have h := State.ld_of_checked hi hok
      simp only [show s.region ((s.arr (arrNum n)).operand (s.insn (arrNum n)).a) = .member d from hreg] at h
      refine ⟨fun ha => h.trans ?_, fun ha hx => h.trans ?_, fun ha hx => h.trans ?_⟩
      · exact congrArg Host.Outcome.next (if_pos ha)
      · exact congrArg Host.Outcome.next ((if_neg (Bool.eq_false_iff.mp ha)).trans (if_neg (Bool.eq_false_iff.mp hx)))
      · exact congrArg Host.Outcome.next ((if_neg (Bool.eq_false_iff.mp ha)).trans (if_pos hx))
    · have h := State.ld_of_checked hi hok
      simp only [show s.region ((s.arr (arrNum n)).operand (s.insn (arrNum n)).a) = .doorbell from hreg] at h
      exact h
    · have h := State.st_member hi hok hreg
      exact ⟨fun hx => h.trans (congrArg Host.Outcome.next (if_pos hx)),
        fun hx => h.trans (congrArg Host.Outcome.next (if_neg (Bool.eq_false_iff.mp hx)))⟩

end Sys2Proof.Machine
end

section
/-! SUPPORT. Loads and stores of an array over memory of the module and host memory (O22) (R123, R139, R145, R150 to R153, R177, R180,
R343, R352, R353, R407, R579). -/

namespace Sys2Proof.Machine

/-! ### A read at the memory controllers (R374, R377) -/

/-- From `s` to `t` main memory was only read: nothing changed but the controllers and their counters of reads forwarded and of misses
of the check-bit cache. -/
structure ReadOnly (s t : State) : Prop where
  get : ∀ g : Fld, regKey g.page g.off % 512 ≠ 18 → regKey g.page g.off % 512 ≠ 19 → t.get g = s.get g
  frame : { t with regs := s.regs, mcs := s.mcs } = s

theorem ReadOnly.refl (s : State) : ReadOnly s s := ⟨fun _ _ _ => rfl, rfl⟩

theorem ReadOnly.trans {s t u : State} (h : ReadOnly s t) (k : ReadOnly t u) : ReadOnly s u := by
  refine ⟨fun g h1 h2 => (k.get g h1 h2).trans (h.get g h1 h2), ?_⟩
  calc { u with regs := s.regs, mcs := s.mcs }
      = { ({ u with regs := t.regs, mcs := t.mcs } : State) with regs := s.regs, mcs := s.mcs } := rfl
    _ = { t with regs := s.regs, mcs := s.mcs } := by rw [k.frame]
    _ = s := h.frame

theorem ReadOnly.foldl {ι : Type} (op : State → ι → State) (hop : ∀ u i, ReadOnly u (op u i)) (l : List ι) (s : State) :
    ReadOnly s (l.foldl op s) :=
  List.foldlRecOn l op (ReadOnly.refl s) fun u hu i _ => hu.trans (hop u i)

theorem ReadOnly.put {s t : State} (h : ReadOnly s t) {f : Fld} (hf : f.off = 0x48 ∨ f.off = 0x4C) (v : Nat) :
    ReadOnly s (t.put f v) :=
  h.trans ⟨fun g h1 h2 => t.get_put_apart (Fld.apart_key (by simp only [regKey] at *; omega)) v, rfl⟩

theorem ReadOnly.setMc {s t : State} (h : ReadOnly s t) (k : Nat) (m : McSt) : ReadOnly s (t.setMc k m) :=
  h.trans ⟨fun _ _ _ => State.get_of_regs rfl rfl _, rfl⟩

theorem State.ccAccess_readOnly (s : State) (k ch x : Nat) (write : Bool) : ReadOnly s (s.ccAccess k ch x write) := by
  unfold State.ccAccess
  extract_lets line m set
  split
  · exact (ReadOnly.refl s).setMc k _
  · exact ((ReadOnly.refl s).setMc k _).put (by simp) _

theorem State.mcTouch_readOnly (s : State) (w : Nat) : ReadOnly s (s.mcTouch false w) := by
  unfold State.mcTouch
  extract_lets cx k ch
  split
  · simp only [Bool.false_eq_true, if_false]
    split
    · exact ((ReadOnly.refl s).put (by simp) _).trans (State.ccAccess_readOnly _ k ch _ _)
    · exact s.ccAccess_readOnly k ch _ _
  · exact ReadOnly.refl s

theorem State.mcTouches_readOnly (s : State) (a n : Nat) : ReadOnly s (s.mcTouches false a n) :=
  ReadOnly.foldl _ (fun u w => u.mcTouch_readOnly w) _ s

/-- Reads of ranges in their order, at the controllers alone. -/
def State.touched (s : State) (l : List (Nat × Nat)) : State := l.foldl (fun s e => s.mcTouches false e.1 e.2) s

theorem State.touched_readOnly (s : State) (l : List (Nat × Nat)) : ReadOnly s (s.touched l) :=
  ReadOnly.foldl _ (fun u (e : Nat × Nat) => u.mcTouches_readOnly e.1 e.2) l s

namespace ReadOnly
variable {s t : State} (h : ReadOnly s t)
include h

theorem cond : t.cond = s.cond := (congrArg State.cond h.frame :)
theorem mem : t.mem = s.mem := (congrArg State.mem h.frame :)
theorem spilled : t.spilled = s.spilled := (congrArg State.spilled h.frame :)
theorem arr (k : Nat) : t.arr k = s.arr k := State.arr_of_arrs (congrArg State.arrs h.frame :) k

theorem pc (k : Nat) : t.get (F.ARR_PC_pc k) = s.get (F.ARR_PC_pc k) := h.get _ (by simp only [regKey]; omega) (by simp only [regKey]; omega)

theorem nextPc (k : Nat) : t.nextPc k = s.nextPc k := congrArg (· + 1) (h.pc k)

theorem insn (k : Nat) : t.insn k = s.insn k := by simp only [State.insn, State.current, h.arr, h.pc]

theorem sound (k pc : Nat) : t.sound k pc = s.sound k pc := State.sound_of_words (congrArg ArrSt.words (h.arr k)) pc

theorem admits (k : Nat) (rd wr : List (Nat × Nat)) : t.admits k rd wr = s.admits k rd wr := by simp only [State.admits, h.arr]

theorem region (a : Nat) : t.region a = s.region a := by
  have hflag : t.flag F.MEMG_SPARE_reserve = s.flag F.MEMG_SPARE_reserve :=
    congrArg (· != 0) (h.get F.MEMG_SPARE_reserve (by decide) (by decide))
  simp only [State.region, hflag]

theorem cdState (n : Nat) : t.cdState n = s.cdState n := h.get _ (by simp only [regKey]; omega) (by simp only [regKey]; omega)

theorem storeAt (a : Nat) : t.storeAt a = s.storeAt a := by
  unfold State.storeAt
  simp only [h.region, h.cdState, h.spilled]

theorem plainAt (a : Nat) : t.plainAt a = s.plainAt a := by simp only [State.plainAt, h.storeAt, h.spilled]

theorem oneRegion (a n : Nat) : t.oneRegion a n = s.oneRegion a n := by
  unfold State.oneRegion
  simp only [h.region]

theorem badRange (a n : Nat) : t.badRange a n = s.badRange a n := by simp only [State.badRange, h.oneRegion]

theorem badRuns (rs : List Run) : t.badRuns rs = s.badRuns rs := by
  unfold State.badRuns
  simp only [h.badRange]

theorem bytes (a n : Nat) : t.bytes a n = s.bytes a n := by simp only [State.bytes, State.place, h.mem, h.spilled, h.region]

/-- What goes into flight once main memory has been read. -/
theorem launched {k : Nat} (hs : s.sound k (s.nextPc k) = true) {f : Fly} (hunit : f.unit = .move)
    (hclean : (f.lbW.any (·.poison) || f.bitW.any (·.poison) || f.memW.any (·.poison)) = false)
    (ha : s.admits k f.rd f.wr = true) : Launched k f t (t.moveFly k (s.insn k) f) := by
  rw [← h.insn k]
  refine State.moveFly_launched ?_ hunit hclean ?_
  · rwa [h.nextPc, h.sound]
  · rwa [h.admits]

end ReadOnly

/-! ### Ranges within one region (R138, R139) -/

/-- The bounds of the address map as numerals. -/
theorem mapBounds : (dramBase = 274877906944 ∧ dramUsable = 118256304128 ∧ dramBytes = 122071023616)
    ∧ (memberBase 0 = 277076930199552 ∧ memberBase 32 = 279275953455104)
    ∧ (stackBase 0 = 280375465082880 ∧ stackBase 4 = 280376538824704) ∧ (poolBase 0 = 280444184559616 ∧ poolBase 4 = 280444452995072)
    ∧ hubBase = 280512904036352 ∧ doorbellBase = 280581623513088 := by decide

theorem State.region_eq_dram {s : State} {a : Nat} : s.region a = .dram ↔
    dramBase ≤ a ∧ a < dramBase + (if s.flag F.MEMG_SPARE_reserve then dramUsable else dramBytes) := by
  obtain ⟨⟨h1, h2, h3⟩, ⟨h4, h5⟩, ⟨h6, h7⟩, ⟨h8, h9⟩, h10, h11⟩ := mapBounds
  simp only [State.region, ite_eq_iff, reduceCtorEq, and_false, false_or, or_false, and_true]
  by_cases hf : s.flag F.MEMG_SPARE_reserve = true
  all_goals
    simp only [hf, if_true, Bool.false_eq_true, if_false, not_true, not_false_eq_true, and_false, or_false, and_true]
    omega

theorem State.region_eq_hub {s : State} {a : Nat} : s.region a = .hub ↔ hubBase ≤ a ∧ a < hubBase + 96 * 1048576 := by
  obtain ⟨⟨h1, h2, h3⟩, ⟨h4, h5⟩, ⟨h6, h7⟩, ⟨h8, h9⟩, h10, h11⟩ := mapBounds
  simp only [State.region, ite_eq_iff, reduceCtorEq, and_false, false_or, or_false, and_true]
  omega

theorem State.region_eq_stack {s : State} {a n : Nat} : s.region a = .stack n ↔ n < 4 ∧ stackBase n ≤ a ∧ a < stackBase (n + 1) := by
  obtain ⟨⟨h1, h2, h3⟩, ⟨h4, h5⟩, ⟨h6, h7⟩, ⟨h8, h9⟩, h10, h11⟩ := mapBounds
  have hn : ∀ m, stackBase m = 280375465082880 + m * 268435456 := fun _ => rfl
  simp only [State.region, ite_eq_iff, reduceCtorEq, and_false, false_or, or_false, Region.stack.injEq]
  have := hn n
  have := hn (n + 1)
  omega

theorem State.region_eq_pool {s : State} {a n : Nat} : s.region a = .pool n ↔ n < 4 ∧ poolBase n ≤ a ∧ a < poolBase (n + 1) := by
  obtain ⟨⟨h1, h2, h3⟩, ⟨h4, h5⟩, ⟨h6, h7⟩, ⟨h8, h9⟩, h10, h11⟩ := mapBounds
  have hn : ∀ m, poolBase m = 280444184559616 + m * 67108864 := fun _ => rfl
  simp only [State.region, ite_eq_iff, reduceCtorEq, and_false, false_or, or_false, Region.pool.injEq]
  have := hn n
  have := hn (n + 1)
  omega

/-- Every address from the start of a word of memory to a later one of the same region lies in that region. -/
theorem State.region_between {s : State} {a y z : Nat} (ha : s.storeAt a = true) (hz : s.region z = s.region a) (h1 : a / 32 * 32 ≤ y)
    (h2 : y ≤ z) : s.region y = s.region a := by
  obtain ⟨⟨b1, b2, b3⟩, -, -, -, b4, -⟩ := mapBounds
  unfold State.storeAt at ha
  cases hr : s.region a with
  | dram =>
    rw [hr] at hz
    obtain ⟨l1, -⟩ := State.region_eq_dram.1 hr
    obtain ⟨-, l2⟩ := State.region_eq_dram.1 hz
    exact State.region_eq_dram.2 ⟨by omega, by omega⟩
  | hub =>
    rw [hr] at hz
    obtain ⟨l1, -⟩ := State.region_eq_hub.1 hr
    obtain ⟨-, l2⟩ := State.region_eq_hub.1 hz
    exact State.region_eq_hub.2 ⟨by omega, by omega⟩
  | stack n =>
    rw [hr] at hz
    have hn : stackBase n = 280375465082880 + n * 268435456 := rfl
    obtain ⟨l0, l1, -⟩ := State.region_eq_stack.1 hr
    obtain ⟨-, -, l2⟩ := State.region_eq_stack.1 hz
    exact State.region_eq_stack.2 ⟨l0, by omega, by omega⟩
  | pool n =>
    rw [hr] at hz
    have hn : poolBase n = 280444184559616 + n * 67108864 := rfl
    obtain ⟨l0, l1, -⟩ := State.region_eq_pool.1 hr
    obtain ⟨-, -, l2⟩ := State.region_eq_pool.1 hz
    exact State.region_eq_pool.2 ⟨l0, by omega, by omega⟩
  | _ => simp [hr] at ha

/-- The range [a, a + n) lies in one region. -/
def State.within (s : State) (a n : Nat) : Prop := n = 0 ∨ s.region (a + n - 1) = s.region a

theorem State.within_of_badRange {s : State} {a n : Nat} (h : s.badRange a n = false) : s.within a n := by
  by_cases h0 : n = 0
  · exact .inl h0
  · refine .inr ?_
    simp only [State.badRange, State.oneRegion, Bool.and_eq_false_iff, bne_eq_false_iff_eq, h0, false_or, Bool.or_eq_false_iff,
      Bool.not_eq_false', Bool.or_eq_true, beq_iff_eq, Bool.and_eq_true] at h
    exact h.2.1.symm

/-! ### Reads of plain memory (R139, R370, R373) -/

/-- No word of memory is in error and the address lies in memory of the module, no stack in a spill area. -/
structure State.Plain (s : State) (a : Nat) : Prop where
  cond : s.cond = []
  store : s.storeAt a = true
  spilled : s.spilled.isEmpty = true

theorem State.plain_of_plainAt {s : State} {a : Nat} (hc : s.cond = []) (h : s.plainAt a = true) : s.Plain a := by
  simp only [State.plainAt, Bool.and_eq_true] at h
  exact ⟨hc, h.1, h.2⟩

theorem State.Plain.place {s : State} {a : Nat} (h : s.Plain a) (b : Nat) : s.place b = b := by simp [State.place, h.spilled]

/-- No word of a range within one region reads poisoned. -/
theorem State.Plain.poisonedAt {s : State} {a n : Nat} (h : s.Plain a) (hw : s.within a n) {b m : Nat} (h1 : a ≤ b)
    (h2 : b + m ≤ a + n) : s.poisonedAt b m = false := by
  simp only [State.poisonedAt, h.place, h.cond, tabFind, Bool.or_false, List.any_eq_false, Bool.not_eq_true', Bool.not_eq_false]
  intro w hmem
  simp only [wordsOf] at hmem
  split at hmem
  next => exact absurd hmem (List.not_mem_nil)
  next hm =>
    obtain ⟨k, hk, rfl⟩ := List.mem_map.1 hmem
    rw [List.mem_range] at hk
    have hreg : s.region ((k + b / 32) * 32) = s.region a :=
      State.region_between h.store (hw.resolve_left (by omega)) (by omega) (by omega)
    have hstore := h.store
    unfold State.storeAt at hstore ⊢
    rwa [hreg]

/-- A word without a condition has nothing to log. -/
theorem State.logRead_of_clean {s : State} (h : s.cond = []) (w : Nat) : s.logRead w = s := by
  simp [State.logRead, h]

theorem State.logReads_of_clean {s : State} (h : s.cond = []) : ∀ l : List Nat, l.foldl State.logRead s = s
  | [] => rfl
  | w :: l => by rw [List.foldl_cons, State.logRead_of_clean h, State.logReads_of_clean h l]

theorem State.load_plain {s : State} {a : Nat} (h : s.Plain a) (n : Nat) :
    s.load a n = (s.mcTouches false a n, s.bytes a n, s.poisonedAt a n) := by
  have hc : (s.mcTouches false a n).cond = [] := (s.mcTouches_readOnly a n).cond.trans h.cond
  simp only [State.load, h.store, if_true, State.logReads_of_clean hc, State.peek]

theorem length_cellRead (m : List Host.Cell) : ∀ n a, (cellRead m a n).length = n
  | 0, _ => rfl
  | n + 1, a => congrArg (· + 1) (length_cellRead m n (a + 1))

theorem mem_segsGo {bad : Nat → Bool} {g : Seg} : ∀ {n addr : Nat} {bs : List Byte}, g ∈ segsGo bad n addr bs →
    addr ≤ g.addr ∧ g.addr + g.data.length ≤ addr + bs.length ∧ g.poison = bad (g.addr / 32)
  | 0, _, _, h => absurd h List.not_mem_nil
  | n + 1, addr, bs, h => by
    unfold segsGo at h
    split at h
    next => exact absurd h List.not_mem_nil
    next =>
      rcases List.mem_cons.1 h with rfl | h
      · refine ⟨le_rfl, ?_, rfl⟩
        simp only [List.length_take]
        omega
      · obtain ⟨h1, h2, h3⟩ := mem_segsGo h
        by_cases hk : 32 - addr % 32 ≤ bs.length
        · rw [List.length_drop] at h2
          exact ⟨by omega, by omega, h3⟩
        · rw [List.drop_of_length_le (by omega)] at h
          cases n <;> simp [segsGo] at h

/-- Segments of a range lie within it. -/
theorem mem_segsOf {bad : Nat → Bool} {addr : Nat} {bs : List Byte} {g : Seg} (h : g ∈ segsOf bad addr bs) :
    addr ≤ g.addr ∧ g.addr + g.data.length ≤ addr + bs.length ∧ g.poison = bad (g.addr / 32) := mem_segsGo h

theorem segsOf_clean (addr : Nat) (bs : List Byte) : ∀ g ∈ segsOf (fun _ => false) addr bs, g.poison = false :=
  fun _ h => (mem_segsOf h).2.2

/-- Clean segments whose poison is decided anew, none of it found. -/
theorem map_poison_of_clean {l : List Seg} (p : Seg → Bool) (hl : ∀ g ∈ l, g.poison = false) (hp : ∀ g ∈ l, p g = false) :
    l.map (fun g => { g with poison := p g }) = l := by
  refine (List.map_congr_left fun g hg => ?_).trans (List.map_id l)
  rw [hp g hg]
  exact congrArg (Seg.mk g.addr g.data) (hl g hg).symm

/-- Memory bytes of a range of plain memory on their way to the line buffers. -/
theorem State.fromMem_plain {s : State} {a n : Nat} (h : s.Plain a) (hw : s.within a n) (dst : Nat) :
    s.fromMem a dst n = (s.mcTouches false a n, segsOf (fun _ => false) dst (s.bytes a n)) := by
  simp only [State.fromMem, State.load_plain h, h.store]
  refine congrArg (Prod.mk _) (map_poison_of_clean _ (segsOf_clean _ _) fun g hg => ?_)
  obtain ⟨h1, h2, -⟩ := mem_segsOf hg
  rw [State.bytes, length_cellRead] at h2
  exact h.poisonedAt hw (by omega) (by omega)

/-- Bytes of sound line buffers on their way to memory. -/
theorem ArrSt.toMem_clean {a : ArrSt} (h : a.lbCond = []) (src dst n : Nat) :
    a.toMem src dst n = segsOf (fun _ => false) dst (cellRead a.lb src n) :=
  map_poison_of_clean _ (segsOf_clean _ _) fun _ _ => ArrSt.rangeBad_of_clean h _ _

theorem flatMap_clean {α : Type} {l : List α} {f : α → List Seg} (h : ∀ x ∈ l, ∀ g ∈ f x, g.poison = false) :
    (l.flatMap f).any (·.poison) = false := by
  rw [List.any_eq_false]
  intro g hg
  obtain ⟨x, hx, hgx⟩ := List.mem_flatMap.1 hg
  simp [h x hx g hgx]

theorem any_poison_segsOf (addr : Nat) (bs : List Byte) : (segsOf (fun _ => false) addr bs).any (·.poison) = false :=
  List.any_eq_false.2 fun g hg => by simp [segsOf_clean addr bs g hg]

/-! ### Tiles of runs (R139, R352) -/

theorem ReadOnly.plain {s t : State} (h : ReadOnly s t) {a : Nat} (hp : s.Plain a) : t.Plain a :=
  ⟨h.cond.trans hp.cond, (h.storeAt a).trans hp.store, (congrArg List.isEmpty h.spilled).trans hp.spilled⟩

theorem ReadOnly.within {s t : State} (h : ReadOnly s t) {a n : Nat} (hw : s.within a n) : t.within a n := by
  simpa only [State.within, h.region] using hw

/-- A run of whole bytes that lies in plain memory, in one region. -/
structure State.PlainRun (s : State) (r : Run) : Prop where
  bits : r.bits = 0
  plain : s.Plain r.mem
  within : s.within r.mem r.len

theorem ReadOnly.plainRun {s t : State} (h : ReadOnly s t) {r : Run} (hr : s.PlainRun r) : t.PlainRun r :=
  ⟨hr.bits, h.plain hr.plain, h.within hr.within⟩

/-- The lowest address of runs is that of one of them. -/
theorem foldl_min_mem (t : List Run) (m : Nat) :
    let lo := t.foldl (fun m x => min m x.mem) m
    (lo = m ∨ ∃ x ∈ t, lo = x.mem) ∧ lo ≤ m ∧ ∀ x ∈ t, lo ≤ x.mem := by
  induction t generalizing m with
  | nil => simp
  | cons x t ih =>
    obtain ⟨h1, h2, h3⟩ := ih (min m x.mem)
    simp only [List.foldl_cons, List.mem_cons, exists_eq_or_imp, forall_eq_or_imp]
    refine ⟨?_, by omega, by omega, h3⟩
    rcases h1 with h1 | h1
    · omega
    · exact .inr (.inr h1)

theorem le_foldl_max_end (t : List Run) (m : Nat) :
    let hi := t.foldl (fun m x => max m (x.mem + x.len)) m
    m ≤ hi ∧ ∀ x ∈ t, x.mem + x.len ≤ hi := by
  induction t generalizing m with
  | nil => simp
  | cons x t ih =>
    obtain ⟨h1, h2⟩ := ih (max m (x.mem + x.len))
    simp only [List.foldl_cons, List.forall_mem_cons]
    exact ⟨by omega, by omega, h2⟩

/-- Runs whose range does not break R139 lie in one region each. -/
theorem State.within_of_badRuns {s : State} {rs : List Run} (hs : ∀ r ∈ rs, s.storeAt r.mem = true) (h : s.badRuns rs = false) :
    ∀ r ∈ rs, s.within r.mem r.len := by
  intro r hr
  by_cases h0 : r.len = 0
  · exact .inl h0
  have hmem : r ∈ rs.filter fun r => r.len != 0 := List.mem_filter.2 ⟨hr, by simpa using h0⟩
  unfold State.badRuns at h
  split at h
  next he => exact absurd (he ▸ hmem) List.not_mem_nil
  next q t he =>
    obtain ⟨h1, h2, h3⟩ := foldl_min_mem t q.mem
    obtain ⟨h4, h5⟩ := le_foldl_max_end t (q.mem + q.len)
    have hin : ∀ x ∈ q :: t, x ∈ rs := fun x hx => List.mem_of_mem_filter (he ▸ hx)
    have hw := State.within_of_badRange h
    rw [he] at hmem
    generalize t.foldl (fun m x => min m x.mem) q.mem = lo at h1 h2 h3 hw
    generalize t.foldl (fun m x => max m (x.mem + x.len)) (q.mem + q.len) = hi at h4 h5 hw
    have hstore : s.storeAt lo = true := by
      rcases h1 with rfl | ⟨x, hx, rfl⟩
      · exact hs q (hin q List.mem_cons_self)
      · exact hs x (hin x (List.mem_cons_of_mem q hx))
    have hlo : lo ≤ r.mem := by
      rcases List.mem_cons.1 hmem with rfl | hm
      · exact h2
      · exact h3 r hm
    have hhi : r.mem + r.len ≤ hi := by
      rcases List.mem_cons.1 hmem with rfl | hm
      · exact h4
      · exact h5 r hm
    have hz : s.region (lo + (hi - lo) - 1) = s.region lo := hw.resolve_left (by omega)
    refine .inr ?_
    rw [State.region_between hstore hz (y := r.mem) (by omega) (by omega)]
    exact State.region_between hstore hz (by omega) (by omega)

/-- Runs of plain memory. -/
theorem State.plainRuns {s : State} (hc : s.cond = []) {rs : List Run} (hb : ∀ r ∈ rs, r.bits = 0)
    (hp : (rs.all fun q => s.plainAt q.mem) = true) (h : s.badRuns rs = false) : ∀ r ∈ rs, s.PlainRun r := by
  have hplain : ∀ r ∈ rs, s.Plain r.mem := fun r hr => State.plain_of_plainAt hc (List.all_eq_true.1 hp r hr)
  exact fun r hr => ⟨hb r hr, hplain r hr, State.within_of_badRuns (fun q hq => (hplain q hq).store) h r hr⟩

/-- The bytes of runs on their way to the line buffers. -/
def State.runSegs (s : State) (rs : List Run) : List Seg := rs.flatMap fun q => segsOf (fun _ => false) q.lb (s.bytes q.mem q.len)

theorem State.runSegs_clean (s : State) (rs : List Run) : (s.runSegs rs).any (·.poison) = false :=
  flatMap_clean fun _ _ => segsOf_clean _ _

theorem ReadOnly.runSegs {s t : State} (h : ReadOnly s t) (rs : List Run) : t.runSegs rs = s.runSegs rs := by
  simp only [State.runSegs, h.bytes]

/-- Runs of plain memory loaded one after the other. -/
theorem State.loadRun_foldl : ∀ {rs : List Run} {s : State} {f : Fly}, (∀ r ∈ rs, s.PlainRun r) →
    rs.foldl (fun (p : State × Fly) r => p.1.loadRun p.2 r) (s, f)
      = (s.touched (rs.map fun q => (q.mem, q.len)), { f with lbW := f.lbW ++ s.runSegs rs })
  | [], s, f, _ => by simp [State.touched, State.runSegs]
  | r :: rs, s, f, h => by
    obtain ⟨hr, hrs⟩ := List.forall_mem_cons.1 h
    have htouch := s.mcTouches_readOnly r.mem r.len
    have hone : s.loadRun f r = (s.mcTouches false r.mem r.len,
        { f with lbW := f.lbW ++ segsOf (fun _ => false) r.lb (s.bytes r.mem r.len) }) := by
      simp only [State.loadRun, hr.bits, if_true, State.fromMem_plain hr.plain hr.within]
    rw [List.foldl_cons, hone, State.loadRun_foldl fun q hq => htouch.plainRun (hrs q hq), htouch.runSegs]
    simp [State.touched, State.runSegs]

theorem State.modArr_arrs {s t : State} {k : Nat} {b : ArrSt} (h : t.arrs = tabSet s.arrs k b) (f : ArrSt → ArrSt) :
    (t.modArr k f).arrs = tabSet s.arrs k (f b) := by
  have hb : t.arr k = b := by rw [State.arr, h, tabGet_tabSet_same]
  change tabSet t.arrs k (f (t.arr k)) = _
  rw [hb, h, tabSet_tabSet_same]

/-- Rows noted as held. -/
def State.noteHeld (s : State) (k : Nat) (rows : List Held) : State := s.modArr k fun a => { a with held := rows ++ a.held }

theorem State.flights_noteHeld (s : State) (k : Nat) (rows : List Held) : ((s.noteHeld k rows).arr k).flights = (s.arr k).flights := by
  rw [State.noteHeld, State.modArr, State.arr_setArr_same]

/-- An instruction put in flight whose rows are then noted as held. -/
theorem Launched.holding {k : Nat} {f : Fly} {s t : State} (h : Launched k f s t) (rows : List Held) :
    LaunchedHolding k f rows s (t.noteHeld k rows) := by
  obtain ⟨harrs, hpc, hcount, hmark, hfields, hjobs, hframe⟩ := h
  exact ⟨State.modArr_arrs harrs _, hpc, hcount, hmark, hfields, hjobs, hframe⟩

/-- Runs of plain memory loaded by an instruction that its array admits. -/
theorem State.loadRuns_launched {s : State} {k : Nat} (hs : s.sound k (s.nextPc k) = true) {rs : List Run}
    (hr : ∀ r ∈ rs, s.PlainRun r) (hb : s.badRuns rs = false) {other : List Seg} (ho : other.any (·.poison) = false) {wr : Nat × Nat}
    (ha : s.admits k [] [wr] = true) (rows : List Held) :
    LaunchedHolding k { emptyFly with
      wr := [wr]
      lbW := other ++ s.runSegs rs } rows (s.touched (rs.map fun q => (q.mem, q.len)))
      (s.loadRuns k (s.insn k) false rs other wr rows) := by
  obtain ⟨hfit, hacc, -⟩ := State.admits_iff.1 ha
  have hfit1 : lbFits wr.1 wr.2 = true := by simpa using hfit
  have hload : s.loadRuns k (s.insn k) false rs other wr rows
      = ((s.touched (rs.map fun q => (q.mem, q.len))).moveFly k (s.insn k) { emptyFly with
          wr := [wr]
          lbW := other ++ s.runSegs rs }).noteHeld k rows := by
    simp only [State.loadRuns, hb, hfit1, hacc, State.loadRun_foldl hr]
    rfl
  rw [hload]
  refine ((s.touched_readOnly _).launched hs rfl ?_ ha).holding rows
  simp [emptyFly, ho, s.runSegs_clean rs, List.any_append]

theorem Dense.runs_bits (d : Dense) (b rows lb : Nat) : ∀ r ∈ (d.runs b rows lb).1, r.bits = 0 := by
  intro r hr
  simp only [Dense.runs, List.mem_flatMap, List.mem_map] at hr
  obtain ⟨_, -, _, -, _, -, rfl⟩ := hr
  rfl

/-- Runs of a tile stored from sound line buffers by an instruction that its array admits. -/
theorem State.storeRuns_launched {s : State} {k : Nat} (hs : s.sound k (s.nextPc k) = true) {d : Dense} (hd : d.host = false)
    {rs : List Run} (hb : s.badRuns rs = false) {rd : Nat × Nat} (ha : s.admits k [rd] [] = true) :
    Launched k { emptyFly with
      rd := [rd]
      memW := rs.flatMap fun q => segsOf (fun _ => false) q.mem (cellRead (s.arr k).lb q.lb q.len) } s
      (s.storeRuns k (s.insn k) d rs rd) := by
  obtain ⟨-, -, hlb⟩ := State.admits_iff.1 ha
  simp only [State.storeRuns, hd, hb, Bool.false_eq_true, if_false, ArrSt.toMem_clean hlb]
  refine State.moveFly_launched hs rfl ?_ ha
  have hclean := flatMap_clean (l := rs) (f := fun q => segsOf (fun _ => false) q.mem (cellRead (s.arr k).lb q.lb q.len))
    fun _ _ => segsOf_clean _ _
  simp [emptyFly, hclean]

/-! ### Conv stripes (R150 to R153) -/

/-- The held rows of a conv stripe, numbered. -/
def ConvBlock.numberedRows (c : ConvBlock) (b : Nat) : List (Nat × Int) := (List.range (c.stripeRows b).length).zip (c.stripeRows b)

/-- The runs of a conv stripe whose pixels fill whole bytes. -/
def ConvBlock.runs (c : ConvBlock) (d : Dense) (w b dst : Nat) : List Run :=
  (c.numberedRows b).flatMap fun r => match c.rows.src r.2 with
    | some y => ((List.range c.cols.heldIn.length).zip c.cols.heldIn).map fun x =>
        ⟨(d.base + d.p1 * x.2 + d.p2 * y) % 2 ^ 64, (dst + r.1 * c.pitch w) * 32 + x.1 * (c.cIn * w / 8), c.cIn * w / 8, 0⟩
    | none => []

/-- The padding rows of a conv stripe. -/
def ConvBlock.pads (c : ConvBlock) (w b dst : Nat) : List Seg :=
  (c.numberedRows b).flatMap fun r => match c.rows.src r.2 with
    | some _ => []
    | none => segsOf (fun _ => false) ((dst + r.1 * c.pitch w) * 32)
        (patternBytes w (c.cols.heldIn.length * c.cIn) (c.padValue (c.rows.mode r.2) w))

/-- The rows that a conv stripe places. -/
def ConvBlock.placed (c : ConvBlock) (td : List Byte) (w b dst : Nat) : List Held :=
  (c.numberedRows b).map fun r => ⟨dst + r.1 * c.pitch w, c.pitch w, td, true, r.2, 0, c.cols.heldIn⟩

theorem ConvBlock.runs_bits (c : ConvBlock) (d : Dense) (w b dst : Nat) : ∀ r ∈ c.runs d w b dst, r.bits = 0 := by
  intro r hr
  obtain ⟨x, -, hx⟩ := List.mem_flatMap.1 hr
  split at hx
  next =>
    obtain ⟨_, -, rfl⟩ := List.mem_map.1 hx
    rfl
  next => exact absurd hx List.not_mem_nil

theorem ConvBlock.pads_clean (c : ConvBlock) (w b dst : Nat) : (c.pads w b dst).any (·.poison) = false := by
  refine flatMap_clean fun r _ g hg => ?_
  split at hg
  next => exact absurd hg List.not_mem_nil
  next => exact segsOf_clean _ _ g hg

theorem State.ldtConv_eq {s : State} {k : Nat} {i : Insn} {td : List Byte} {d : Dense} {c : ConvBlock} {w b dst : Nat} (hw : fmtWidth d.fmt = w)
    (h8 : c.cIn * w % 8 = 0) : s.ldtConv k i td d c b dst = s.loadRuns k i d.host (c.runs d w b dst) (c.pads w b dst)
      (dst, (c.numberedRows b).length * c.pitch w) (c.placed td w b dst) := by
  have hlen : (c.numberedRows b).length = (c.stripeRows b).length := by simp [ConvBlock.numberedRows]
  subst hw
  simp only [State.ldtConv, h8, if_true, hlen]
  rfl

/-! ### Indexed moves (R579) -/

/-- The elements that indices name in memory of the module break no rule. -/
theorem State.badRange_of_elements {s : State} {d : Dense} (hd : d.host = false) : ∀ {ix : List Elt} {l : List (Option Nat)},
    s.elements d ix = some l → ∀ p, some p ∈ l → s.badRange p 4 = false
  | [], l, h, p, hp => by
    obtain rfl := Option.some.inj h
    exact absurd hp List.not_mem_nil
  | e :: ix, l, h, p, hp => by
    have hcons : s.elements d (e :: ix) = match s.elements d ix with
      | none => none
      | some l => if e.2 then some (none :: l) else match d.element e.1 with
        | some a => if !d.host && s.badRange a 4 then none else some (some a :: l)
        | none => none := rfl
    rw [hcons] at h
    cases hl : s.elements d ix with
    | none => simp [hl] at h
    | some l' =>
      simp only [hl] at h
      have ih := State.badRange_of_elements hd hl p
      split at h
      next =>
        obtain rfl := Option.some.inj h
        exact ih (by simpa using hp)
      next =>
        split at h
        next a _ =>
          cases hbad : s.badRange a 4 with
          | true => simp [hd, hbad] at h
          | false =>
            simp only [hbad, Bool.and_false, Bool.false_eq_true, if_false] at h
            obtain rfl := Option.some.inj h
            rcases List.mem_cons.1 hp with hp | hp
            · obtain rfl := Option.some.inj hp
              exact hbad
            · exact ih hp
        next => exact absurd h (by simp)

/-- Elements of a table in plain memory read one after the other. -/
theorem State.loadElements_foldl {op : State × List Elt → Option Nat → State × List Elt}
    (hop : ∀ p ad, op p (some ad) = ((p.1.load ad 4).1, p.2 ++ [(leNat (p.1.load ad 4).2.1, (p.1.load ad 4).2.2)])) :
    ∀ {ads : List Nat} {s : State} (l : List Elt), (∀ p ∈ ads, s.Plain p ∧ s.within p 4) →
    (ads.map some).foldl op (s, l) = (s.touched (ads.map fun p => (p, 4)), l ++ ads.map fun p => (s.peekNat p 4, false))
  | [], s, l, _ => by simp [State.touched]
  | p :: ads, s, l, h => by
    obtain ⟨⟨hp, hw⟩, hads⟩ := List.forall_mem_cons.1 h
    have htouch := s.mcTouches_readOnly p 4
    have hpeek : ∀ q, (s.mcTouches false p 4).peekNat q 4 = s.peekNat q 4 := fun q => by simp only [State.peekNat, htouch.bytes]
    have hbad : s.poisonedAt p 4 = false := hp.poisonedAt hw le_rfl le_rfl
    simp only [List.map_cons, List.foldl_cons, hop, State.load_plain hp, hbad]
    rw [State.loadElements_foldl hop _ fun q hq => ⟨htouch.plain (hads q hq).1, htouch.within (hads q hq).2⟩]
    simp only [hpeek, List.append_assoc]
    rfl

/-- Sound elements on their way to the line buffers are sound. -/
theorem ArrSt.putElems_clean (a : ArrSt) (base w : Nat) {es : List (Nat × Bool)} (h : ∀ e ∈ es, e.2 = false) :
    (a.putElems base w es).any (·.poison) = false := by
  have hbad : badWords base w es = [] := by
    rw [badWords, List.flatMap_eq_nil_iff]
    intro e he
    simp [h e.2 (List.of_mem_zip he).2]
  rw [ArrSt.putElems, hbad, List.any_eq_false]
  intro g hg
  simp [(mem_segsOf hg).2.2]

theorem freeOrder_perm {α : Type} (ctr : Nat) : ∀ (fuel : Nat) (l : List α), (freeOrder ctr fuel l).Perm l
  | 0, l => List.Perm.refl l
  | fuel + 1, l => by
    unfold freeOrder
    split
    next => exact List.Perm.refl l
    next h =>
      extract_lets j
      have hj : j < l.length := Nat.mod_lt _ (by omega)
      rw [List.drop_eq_getElem_cons hj]
      exact ((freeOrder_perm ctr fuel (l.eraseIdx j)).cons _).trans (List.getElem_cons_eraseIdx_perm hj)

/-- SCATTER and its adding forms over sound line buffers: mode 1 takes its elements in an open order. -/
theorem State.scatter_eq {s : State} {td : List Byte} {d : Dense} {ads : List Nat} {ia ib words op mode k : Nat}
    (hi : s.issues k op = true) (htd : (s.arr k).td (s.insn k).d = td) (hd : tableTd td = some d)
    (hia : (s.arr k).lbWord (s.insn k).a = ia) (hib : (s.arr k).lbWord (s.insn k).b = ib)
    (hwords : elemWords (s.insn k).imm 32 = words) (hhost : d.host = false)
    (hels : s.elements d ((s.arr k).elems ib 32 0 (s.insn k).imm) = some (ads.map some))
    (ha : s.admits k [(ia, words), (ib, words)] [] = true) {items : List (Nat × Nat × Bool)}
    (hitems : (ads.zip ((s.arr k).elems ia 32 0 (s.insn k).imm)).map (fun e => (e.1, e.2.1, e.2.2)) = items) :
    s.scatter k op mode = (if mode = 1 then { s with freeCtr := s.freeCtr + items.length } else s).moveFly k (s.insn k) { emptyFly with
      rd := [(ia, words), (ib, words)]
      scat := some ⟨if mode = 0 then 0 else if d.fmt = 12 then 1 else 2,
        if mode = 1 then freeOrder s.freeCtr items.length items else items⟩ } := by
  obtain ⟨hfit, hacc, hlb⟩ := State.admits_iff.1 ha
  have hfits : lbFits ia words = true ∧ lbFits ib words = true := by simpa using hfit
  have hnamed : ((ads.map some).zip ((s.arr k).elems ia 32 0 (s.insn k).imm)).filterMap (fun e => e.1.map fun ad => (ad, e.2.1, e.2.2))
      = items := by
    rw [← hitems, List.zip_map_left, List.filterMap_map, ← List.filterMap_eq_map]
    rfl
  have hsound : items.any (·.2.2) = false := by
    rw [← hitems, List.any_map, List.any_eq_false]
    intro e he
    simp [ArrSt.elems_clean hlb ia 32 0 _ e.2 (List.of_mem_zip he).2]
  subst htd hia hib hwords
  rw [State.scatter, State.issue_of_issues hi]
  simp only [hd, hfits, hacc, hels, hhost, hnamed, hsound, ArrSt.elems_any_clean hlb, Bool.not_true, Bool.or_self, Bool.false_eq_true,
    if_false]
  rfl

/-- The flight of an indexed store is admitted where its ranges are. -/
theorem State.scatFly_launched {s : State} {k : Nat} (hs : s.sound k (s.nextPc k) = true) {rd : List (Nat × Nat)}
    (ha : s.admits k rd [] = true) (x : Scat) :
    Launched k { emptyFly with
      rd := rd
      scat := some x } s (s.moveFly k (s.insn k) { emptyFly with
      rd := rd
      scat := some x }) :=
  State.moveFly_launched hs rfl (by simp [emptyFly]) ha

/-! ### LD and ST (R123, R139, R343) -/

theorem State.Plain.not_window {s : State} {a : Nat} (h : s.Plain a) : (∀ d, s.region a ≠ .member d) ∧ s.region a ≠ .doorbell := by
  have hs := h.store
  unfold State.storeAt at hs
  refine ⟨fun d hr => ?_, fun hr => ?_⟩ <;> simp [hr] at hs

section
variable {n : Arr} {s : State} (hs : s.sound (arrNum n) (s.nextPc (arrNum n)) = true)
include hs

theorem ld_plain (hi : s.issues (arrNum n) 0x20 = true) {a dst w : Nat} (hw : (s.insn (arrNum n)).imm = w)
    (hsrc : (s.arr (arrNum n)).operand (s.insn (arrNum n)).a = a) (hdst : (s.arr (arrNum n)).lbWord (s.insn (arrNum n)).d = dst)
    (hal : a % 32 = 0) (hp : s.Plain a) (hb : s.badRange a (32 * w) = false) (ha : s.admits (arrNum n) [] [(dst, w)] = true) :
    ∃ t, exec (.ld n) s = .next t ∧ Launched (arrNum n) { emptyFly with
      wr := [(dst, w)]
      lbW := segsOf (fun _ => false) (32 * dst) (s.bytes a (32 * w)) } (s.touched [(a, 32 * w)]) t := by
  obtain ⟨hfit, hacc, -⟩ := State.admits_iff.1 ha
  obtain ⟨hmember, hdoor⟩ := hp.not_window
  have h := State.ld_of_checked hi
  simp only [hw, hsrc, hdst] at h
  have hexec := h ⟨hal, hb, by simpa using hfit, hacc⟩
  rw [State.fromMem_plain hp (State.within_of_badRange hb)] at hexec
  refine ⟨_, hexec, (s.mcTouches_readOnly a (32 * w)).launched hs rfl ?_ ha⟩
  simp [emptyFly, any_poison_segsOf]

theorem st_plain (hi : s.issues (arrNum n) 0x21 = true) :
    let k := arrNum n
    let i := s.insn k
    let a := (s.arr k).operand i.d
    let src := (s.arr k).lbWord i.a
    a % 32 = 0 → s.Plain a → s.badRange a (32 * i.imm) = false → s.admits k [(src, i.imm)] [] = true →
    ∃ t, exec (.st n) s = .next t ∧ Launched k { emptyFly with
      rd := [(src, i.imm)]
      memW := segsOf (fun _ => false) a (cellRead (s.arr k).lb (32 * src) (32 * i.imm)) } s t := by
  intro k i a src hal hp hb ha
  obtain ⟨hfit, hacc, hlb⟩ := State.admits_iff.1 ha
  obtain ⟨hmember, hdoor⟩ := hp.not_window
  have hfit1 : lbFits src i.imm = true := by simpa using hfit
  refine ⟨_, (State.exec_of_issues (c := .st n) hi rfl).trans (congrArg Host.Outcome.next ?_), State.moveFly_launched hs rfl ?_ ha⟩
  · refine (if_neg (not_bnot_of_true hfit1)).trans ((if_neg hdoor).trans ((if_neg ?_).trans ((if_neg (not_bnot_of_true hacc)).trans ?_)))
    · exact fun h => h.elim (fun h => h hal) fun h => Bool.false_ne_true (hb.symm.trans h)
    · split
      next hr => exact absurd hr (hmember _)
      next => rw [ArrSt.toMem_clean hlb]
  · simp [emptyFly, any_poison_segsOf]

theorem st_doorbell (hi : s.issues (arrNum n) 0x21 = true) :
    let k := arrNum n
    let i := s.insn k
    let a := (s.arr k).operand i.d
    let src := (s.arr k).lbWord i.a
    s.region a = .doorbell → a % 4 = 0 → i.imm = 1 → s.admits k [(src, 1)] [] = true →
    ∃ t, exec (.st n) s = .next t ∧ Launched k { emptyFly with
      rd := [(src, 1)]
      bell := some ((a - doorbellBase) / 4, leNat (cellRead (s.arr k).lb (32 * src) 4)) } s t := by
  intro k i a src hr hal himm ha
  obtain ⟨hfit, hacc, hlb⟩ := State.admits_iff.1 ha
  have hfit1 : lbFits src i.imm = true := by simpa [himm] using hfit
  have hbad : (s.arr k).rangeBad (32 * src) (32 * i.imm) = false := ArrSt.rangeBad_of_clean hlb _ _
  refine ⟨_, (State.exec_of_issues (c := .st n) hi rfl).trans (congrArg Host.Outcome.next ?_), State.moveFly_launched hs rfl ?_ ha⟩
  · refine (if_neg (not_bnot_of_true hfit1)).trans ((if_pos hr).trans ((if_neg ?_).trans ((if_neg ?_).trans ?_)))
    · exact fun h => h.elim (· himm) (· hal)
    · exact fun h => Bool.false_ne_true (hbad.symm.trans h)
    · exact congrArg (fun w => s.moveFly k i { emptyFly with
        rd := [(src, w)]
        bell := some ((a - doorbellBase) / 4, leNat (cellRead (s.arr k).lb (32 * src) 4)) }) himm
  · simp [emptyFly]

/-! ### LDT and STT of dense tiles (R123, R145, R152, R352) -/

section
variable {d : Dense} {b dst : Nat} {td : List Byte} (hi : s.issues (arrNum n) 0x22 = true)
  (htd : (s.arr (arrNum n)).td (s.insn (arrNum n)).a = td) (hd : denseTd td = some d)
  (hb : (s.arr (arrNum n)).operand (s.insn (arrNum n)).b = b) (hdst : (s.arr (arrNum n)).lbWord (s.insn (arrNum n)).d = dst)
include hi htd hd hb hdst
omit hs

/-- LDT of a descriptor without a parameter block. -/
theorem ldt_dense_eq (h0 : d.block = 0) : exec (.ldt n) s = .next (s.loadRuns (arrNum n) (s.insn (arrNum n)) d.host
    (d.runs b d.d2 dst).1 [] (dst, (d.runs b d.d2 dst).2) (d.rowsHeld td b d.d2 dst)) := by
  subst htd hb hdst
  refine (State.exec_of_issues (c := .ldt n) hi rfl).trans (congrArg Host.Outcome.next ?_)
  simp only [hd, h0, if_true]

/-- LDT of a descriptor with a legal parameter block in plain memory. -/
theorem ldt_block_eq (h0 : d.block ≠ 0) (hp : s.Plain d.block) (hbad : s.badRange d.block 64 = false) {c : ConvBlock}
    (hc : convBlock (s.bytes d.block 64) = c) (hl : c.legal = true) :
    exec (.ldt n) s = .next ((s.mcTouches false d.block 64).ldtConv (arrNum n) (s.insn (arrNum n)) td d c b dst) := by
  have hclean := hp.poisonedAt (State.within_of_badRange hbad) le_rfl le_rfl
  subst htd hb hdst hc
  refine (State.exec_of_issues (c := .ldt n) hi rfl).trans (congrArg Host.Outcome.next ?_)
  simp only [hd, h0, if_false, hbad, State.load_plain hp, hclean, hl, if_true, Bool.false_eq_true]

end

theorem ldt_dense {d : Dense} {b dst : Nat} {td : List Byte} (hc : s.cond = []) (hi : s.issues (arrNum n) 0x22 = true)
    (htd : (s.arr (arrNum n)).td (s.insn (arrNum n)).a = td) (hd : denseTd td = some d)
    (hb : (s.arr (arrNum n)).operand (s.insn (arrNum n)).b = b) (hdst : (s.arr (arrNum n)).lbWord (s.insn (arrNum n)).d = dst)
    (h0 : d.block = 0) (hhost : d.host = false)
    (hp : ((d.runs b d.d2 dst).1.all fun q => s.plainAt q.mem) = true ∧ s.badRuns (d.runs b d.d2 dst).1 = false)
    (ha : s.admits (arrNum n) [] [(dst, (d.runs b d.d2 dst).2)] = true) :
    ∃ t, exec (.ldt n) s = .next t ∧ LaunchedHolding (arrNum n) { emptyFly with
      wr := [(dst, (d.runs b d.d2 dst).2)]
      lbW := s.runSegs (d.runs b d.d2 dst).1 }
      (d.rowsHeld td b d.d2 dst) (s.touched ((d.runs b d.d2 dst).1.map fun q => (q.mem, q.len))) t := by
  refine ⟨_, ldt_dense_eq hi htd hd hb hdst h0, ?_⟩
  rw [hhost]
  exact State.loadRuns_launched hs (State.plainRuns hc (d.runs_bits b d.d2 dst) hp.1 hp.2) hp.2 (other := []) rfl ha _

theorem ldt_conv {d : Dense} {b dst w : Nat} {td : List Byte} {c : ConvBlock} (hcond : s.cond = []) (hi : s.issues (arrNum n) 0x22 = true)
    (htd : (s.arr (arrNum n)).td (s.insn (arrNum n)).a = td) (hd : denseTd td = some d)
    (hb : (s.arr (arrNum n)).operand (s.insn (arrNum n)).b = b) (hdst : (s.arr (arrNum n)).lbWord (s.insn (arrNum n)).d = dst)
    (hhost : d.host = false) (h0 : d.block ≠ 0) (hp : s.plainAt d.block = true) (hbad : s.badRange d.block 64 = false)
    (hc : convBlock (s.bytes d.block 64) = c) (hl : c.legal = true) (hw : fmtWidth d.fmt = w) (h8 : c.cIn * w % 8 = 0)
    (hplain : ((c.runs d w b dst).all fun q => s.plainAt q.mem) = true ∧ s.badRuns (c.runs d w b dst) = false)
    (ha : s.admits (arrNum n) [] [(dst, (c.numberedRows b).length * c.pitch w)] = true) :
    ∃ t, exec (.ldt n) s = .next t ∧ LaunchedHolding (arrNum n) { emptyFly with
      wr := [(dst, (c.numberedRows b).length * c.pitch w)]
      lbW := c.pads w b dst ++ s.runSegs (c.runs d w b dst) } (c.placed td w b dst)
      (s.touched ((d.block, 64) :: (c.runs d w b dst).map fun q => (q.mem, q.len))) t := by
  have htouch := s.mcTouches_readOnly d.block 64
  have hexec := ldt_block_eq hi htd hd hb hdst h0 (State.plain_of_plainAt hcond hp) hbad hc hl
  rw [State.ldtConv_eq hw h8, hhost, ← htouch.insn] at hexec
  refine ⟨_, hexec, ?_⟩
  rw [← htouch.runSegs]
  refine State.loadRuns_launched ?_ (fun r hr => htouch.plainRun ?_) ?_ (c.pads_clean w b dst) ?_ _
  · rwa [htouch.nextPc, htouch.sound]
  · exact State.plainRuns hcond (c.runs_bits d w b dst) hplain.1 hplain.2 r hr
  · rw [htouch.badRuns, hplain.2]
  · rwa [htouch.admits]

theorem stt_dense {d : Dense} {b src : Nat} {td : List Byte} (hi : s.issues (arrNum n) 0x23 = true)
    (htd : (s.arr (arrNum n)).td (s.insn (arrNum n)).d = td) (hd : denseTd td = some d)
    (hb : (s.arr (arrNum n)).operand (s.insn (arrNum n)).b = b) (hsrc : (s.arr (arrNum n)).lbWord (s.insn (arrNum n)).a = src)
    (h0 : d.block = 0) (hhost : d.host = false) (hbad : s.badRuns (d.runs b d.d2 src).1 = false)
    (ha : s.admits (arrNum n) [(src, (d.runs b d.d2 src).2)] [] = true) :
    ∃ t, exec (.stt n) s = .next t ∧ Launched (arrNum n) { emptyFly with
      rd := [(src, (d.runs b d.d2 src).2)]
      memW := (d.runs b d.d2 src).1.flatMap fun q => segsOf (fun _ => false) q.mem (cellRead (s.arr (arrNum n)).lb q.lb q.len) } s t := by
  have hexec : exec (.stt n) s = .next (s.storeRuns (arrNum n) (s.insn (arrNum n)) d (d.runs b d.d2 src).1
      (src, (d.runs b d.d2 src).2)) := by
    subst htd hb hsrc
    refine (State.exec_of_issues (c := .stt n) hi rfl).trans (congrArg Host.Outcome.next ?_)
    simp only [hd, h0, if_true]
  exact ⟨_, hexec, State.storeRuns_launched hs hhost hbad ha⟩

theorem stt_block {d : Dense} {b src : Nat} {td : List Byte} {c : ConvBlock} {r : List Run × Nat} (hcond : s.cond = [])
    (hi : s.issues (arrNum n) 0x23 = true) (htd : (s.arr (arrNum n)).td (s.insn (arrNum n)).d = td) (hd : denseTd td = some d)
    (hb : (s.arr (arrNum n)).operand (s.insn (arrNum n)).b = b) (hsrc : (s.arr (arrNum n)).lbWord (s.insn (arrNum n)).a = src)
    (h0 : d.block ≠ 0) (hhost : d.host = false) (hp : s.plainAt d.block = true) (hblock : s.badRange d.block 64 = false)
    (hc : convBlock (s.bytes d.block 64) = c) (hl : c.legal = true) (hr : d.runs b (sttRows d (some c) b) src = r)
    (hbad : s.badRuns r.1 = false) (ha : s.admits (arrNum n) [(src, r.2)] [] = true) :
    ∃ t, exec (.stt n) s = .next t ∧ Launched (arrNum n) { emptyFly with
      rd := [(src, r.2)]
      memW := r.1.flatMap fun q => segsOf (fun _ => false) q.mem (cellRead (s.arr (arrNum n)).lb q.lb q.len) }
      (s.touched [(d.block, 64)]) t := by
  have hplain := State.plain_of_plainAt hcond hp
  have htouch := s.mcTouches_readOnly d.block 64
  have hclean := hplain.poisonedAt (State.within_of_badRange hblock) le_rfl le_rfl
  have hexec : exec (.stt n) s = .next ((s.mcTouches false d.block 64).storeRuns (arrNum n) (s.insn (arrNum n)) d r.1 (src, r.2)) := by
    subst htd hb hsrc hc hr
    refine (State.exec_of_issues (c := .stt n) hi rfl).trans (congrArg Host.Outcome.next ?_)
    simp only [hd, h0, if_false, hblock, State.load_plain hplain, hclean, hl, if_true, Bool.false_eq_true]
  rw [← htouch.insn] at hexec
  refine ⟨_, hexec, ?_⟩
  rw [← htouch.arr]
  refine State.storeRuns_launched ?_ hhost ?_ ?_
  · rwa [htouch.nextPc, htouch.sound]
  · rw [htouch.badRuns, hbad]
  · rwa [htouch.admits]

/-! ### LDT and STT of a KV descriptor (R177, R180, R353) -/

omit hs in
/-- A KV descriptor is no dense one. -/
theorem denseTd_of_kvTd {td : List Byte} {q : Nat × Nat × Nat × Nat} (h : kvTd td = some q) : denseTd td = none := by
  unfold kvTd at h
  extract_lets f at h
  split at h
  next hk => simp [denseTd, hk.1]
  next => exact absurd h (by simp)

theorem ldt_kv {td : List Byte} {f layer seq tokens b dst : Nat} (hi : s.issues (arrNum n) 0x22 = true)
    (htd : (s.arr (arrNum n)).td (s.insn (arrNum n)).a = td) (hkv : kvTd td = some (f, layer, seq, tokens))
    (hb : (s.arr (arrNum n)).operand (s.insn (arrNum n)).b = b) (hdst : (s.arr (arrNum n)).lbWord (s.insn (arrNum n)).d = dst)
    (h16 : tokens % 16 = 0) (hlo : 16 ≤ tokens) (hhi : tokens ≤ 1024) (hb16 : b % 16 = 0)
    (ha : s.admits (arrNum n) [] [(dst, s.kvWords seq tokens)] = true) :
    ∃ t, exec (.ldt n) s = .next t ∧ Launched (arrNum n) { emptyFly with
      wr := [(dst, s.kvWords seq tokens)]
      kvF := some { seq := seq, layer := layer, fmt := f, block := b / 16, blocks := tokens / 16, dst := dst } } s t := by
  have hd := denseTd_of_kvTd hkv
  have hin : ¬(tokens % 16 ≠ 0 ∨ tokens < 16 ∨ 1024 < tokens ∨ b % 16 ≠ 0) := by omega
  subst htd hb hdst
  refine ⟨_, (State.exec_of_issues (c := .ldt n) hi rfl).trans (congrArg Host.Outcome.next ?_), State.moveFly_launched hs rfl ?_ ha⟩
  · simp only [hd, hkv]
    exact if_neg hin
  · simp [emptyFly]

theorem stt_kv {td : List Byte} {f layer seq tokens b src : Nat} (hi : s.issues (arrNum n) 0x23 = true)
    (htd : (s.arr (arrNum n)).td (s.insn (arrNum n)).d = td) (hkv : kvTd td = some (f, layer, seq, tokens))
    (hb : (s.arr (arrNum n)).operand (s.insn (arrNum n)).b = b) (hsrc : (s.arr (arrNum n)).lbWord (s.insn (arrNum n)).a = src)
    (h0 : tokens ≠ 0) (h16 : b % 16 + tokens ≤ 16) (ha : s.admits (arrNum n) [(src, s.kvWords seq tokens)] [] = true) :
    ∃ t, exec (.stt n) s = .next t ∧ Launched (arrNum n) { emptyFly with
      rd := [(src, s.kvWords seq tokens)]
      kvS := some { seq := seq, layer := layer, fmt := f, token := b, count := tokens,
                    segs := segsOf (fun _ => false) 0 (cellRead (s.arr (arrNum n)).lb (src * 32) (s.kvWords seq tokens * 32)) } } s t := by
  obtain ⟨-, -, hlb⟩ := State.admits_iff.1 ha
  have hd := denseTd_of_kvTd hkv
  have hin : ¬(tokens = 0 ∨ 16 < b % 16 + tokens) := by omega
  subst htd hb hsrc
  refine ⟨_, (State.exec_of_issues (c := .stt n) hi rfl).trans (congrArg Host.Outcome.next ?_), State.moveFly_launched hs rfl ?_ ha⟩
  · simp only [hd, hkv, ArrSt.toMem_clean hlb]
    exact if_neg hin
  · simp [emptyFly]

/-! ### GATHER and SCATTER (R123, R579) -/

theorem gather_plain {td : List Byte} {d : Dense} {ads : List Nat} {ib dst words : Nat} (hcond : s.cond = [])
    (hi : s.issues (arrNum n) 0x24 = true) (htd : (s.arr (arrNum n)).td (s.insn (arrNum n)).a = td) (hd : tableTd td = some d)
    (hib : (s.arr (arrNum n)).lbWord (s.insn (arrNum n)).b = ib) (hdst : (s.arr (arrNum n)).lbWord (s.insn (arrNum n)).d = dst)
    (hwords : elemWords (s.insn (arrNum n)).imm 32 = words) (hhost : d.host = false)
    (hels : s.elements d ((s.arr (arrNum n)).elems ib 32 0 (s.insn (arrNum n)).imm) = some (ads.map some))
    (hp : (ads.all fun p => s.plainAt p) = true) (ha : s.admits (arrNum n) [(ib, words)] [(dst, words)] = true) :
    ∃ t, exec (.gather n) s = .next t ∧ Launched (arrNum n) { emptyFly with
      rd := [(ib, words)]
      wr := [(dst, words)]
      lbW := (s.arr (arrNum n)).putElems dst 32 (ads.map fun p => (s.peekNat p 4, false)) } (s.touched (ads.map fun p => (p, 4))) t := by
  obtain ⟨hfit, hacc, -⟩ := State.admits_iff.1 ha
  have hfits : lbFits ib words = true ∧ lbFits dst words = true := by simpa using hfit
  have hplain : ∀ p ∈ ads, s.Plain p ∧ s.within p 4 := fun p hmem =>
    ⟨State.plain_of_plainAt hcond (List.all_eq_true.1 hp p hmem),
      State.within_of_badRange (State.badRange_of_elements hhost hels p (List.mem_map_of_mem hmem))⟩
  subst htd hib hdst hwords
  refine ⟨_, (State.exec_of_issues (c := .gather n) hi rfl).trans (congrArg Host.Outcome.next ?_),
    (s.touched_readOnly _).launched hs rfl ?_ ha⟩
  · simp only [hd, hfits, hacc, hels, hhost, Bool.not_true, Bool.or_self, Bool.false_eq_true, if_false]
    rw [State.loadElements_foldl (fun _ _ => rfl) [] hplain]
    rfl
  · have hclean := ArrSt.putElems_clean (s.arr (arrNum n)) ((s.arr (arrNum n)).lbWord (s.insn (arrNum n)).d) 32
      (es := ads.map fun p => (s.peekNat p 4, false)) (by simp)
    simp [emptyFly, hclean]

end

/-! ### Reads of host memory (R407) -/

/-- A flight of the move unit of an instruction without mark N: what it leaves. -/
theorem State.moveFly_moved {s : State} {k : Nat} (hs : s.sound k (s.nextPc k) = true) (hn : (s.insn k).markN = false) {f : Fly}
    (hunit : f.unit = .move) (hclean : (f.lbW.any (·.poison) || f.bitW.any (·.poison) || f.memW.any (·.poison)) = false)
    (ha : s.admits k f.rd f.wr = true) :
    let a := s.arr k
    let t := s.moveFly k (s.insn k) f
    Moved k (s.nextPc k) s t
      ∧ t.arrs = tabSet s.arrs k { a with
          flights := a.flights ++ [{ f with id := a.nextId, pc := s.get (F.ARR_PC_pc k) }]
          nextId := a.nextId + 1
          held := a.held.filter fun h => !f.wr.any (rangesMeet (h.word, h.pitch)) }
      ∧ { t with regs := s.regs, arrs := s.arrs } = s := by
  intro a t
  obtain ⟨hfit, hacc, hlb⟩ := State.admits_iff.1 ha
  have ht : t = (s.setArr k { a with
      flights := a.flights ++ [{ f with id := a.nextId, pc := s.get (F.ARR_PC_pc k) }]
      nextId := a.nextId + 1
      held := a.held.filter fun h => !f.wr.any (rangesMeet (h.word, h.pitch)) }).stepTo k (s.insn k) (s.nextPc k) := by
    refine (State.moveFly_eq hunit hfit hclean).trans ((if_pos hacc).trans ?_)
    simp only [State.launch, State.lbRead_of_clean hlb]
    rfl
  rw [ht]
  exact State.setArr_stepTo_moved hs hn rfl

section
variable {k pc : Nat} {s t : State} (h : Moved k pc s t)
include h

theorem Moved.get {g : Fld} (h1 : (F.ARR_PC_pc k).apart g) (h2 : (F.ARR_ISSUED_count k).apart g) : t.get g = s.get g := by
  obtain ⟨-, -, hfields⟩ := h
  exact hfields g (by simp [h1, h2])

/-- A field of a page that is no array's. -/
theorem Moved.get_of_page {g : Fld} (hg : regKey g.page g.off / 512 < 128) : t.get g = s.get g :=
  h.get (Fld.apart_key (by simp only [regKey] at *; omega)) (Fld.apart_key (by simp only [regKey] at *; omega))

theorem Moved.replaying : t.replaying = s.replaying := by
  simp only [State.replaying, h.get_of_page (g := F.JRN_STATUS_state) (by decide)]

theorem Moved.busMaster : t.flag F.PCIE_STATUS_bus_master = s.flag F.PCIE_STATUS_bus_master :=
  congrArg (· != 0) (h.get_of_page (g := F.PCIE_STATUS_bus_master) (by decide))

theorem Moved.arrJob (hjobs : t.jobs = s.jobs) : t.arrJob k = s.arrJob k := by
  refine State.arrJob_congr hjobs fun g hg => ?_
  simp only [List.mem_cons, List.not_mem_nil, or_false] at hg
  rcases hg with rfl | rfl | rfl <;> exact h.get (Fld.apart_of_off (by simp)) (Fld.apart_of_off (by simp))

end

/-- One more host read of a job. -/
def Job.readCounted (j : Job) : Job := { j with reads := j.reads + 1 }

/-- A host read that goes out. -/
def State.hostAsked (s : State) (r : ExtRead) : State :=
  { s with
    jobs := (s.modJob r.queue r.index Job.readCounted).jobs
    ext := tabSet s.ext s.extTag r
    extTag := s.extTag + 1
    out := s.out ++ [⟨.hostRead, [s.extTag, r.addr, r.len], []⟩] }

theorem State.hostRequest_eq {s : State} (hr : s.replaying = false) (hm : s.flag F.PCIE_STATUS_bus_master = true) (r : ExtRead) :
    s.hostRequest r = s.hostAsked r := by
  simp only [State.hostRequest, hr, hm, Bool.false_eq_true, if_false, if_true]
  rfl

/-- A job found is found again once one more of its reads is counted. -/
theorem State.job_modJob_readCounted {s : State} {q i : Nat} (h : (s.job q i).isSome = true) (q' i' : Nat) :
    ((s.modJob q' i' Job.readCounted).job q i).isSome = true := by
  have his : ((fun j : Job => j.is q i) ∘ fun j : Job => if j.is q' i' then j.readCounted else j) = fun j => j.is q i := by
    funext j
    simp only [Function.comp_apply]
    split <;> rfl
  rw [State.job, State.modJob, List.find?_map, his, Option.isSome_map]
  exact h

theorem State.arrJob_hostAsked {s : State} {k : Nat} (h : (s.arrJob k).isSome = true) (r : ExtRead) :
    ((s.hostAsked r).arrJob k).isSome = true := by
  have hvalid : s.flag (F.ARR_JOB_QUEUE_valid k) = true := by
    by_contra hv
    simp [State.arrJob, hv] at h
  rw [State.arrJob, if_pos hvalid] at h
  exact (congrArg Option.isSome (if_pos hvalid)).trans (State.job_modJob_readCounted h r.queue r.index)

/-- The reads of the runs of a tile, one request each. -/
theorem State.hostRuns_spec {k : Nat} : ∀ {rs : List Run} {s : State}, s.replaying = false → s.flag F.PCIE_STATUS_bus_master = true →
    (s.arrJob k).isSome = true → ∃ jobs ext, s.hostRuns k rs = { s with
      jobs := jobs
      ext := ext
      extTag := s.extTag + rs.length
      out := s.out ++ ((List.range rs.length).zip rs).map fun q => ⟨.hostRead, [s.extTag + q.1, q.2.mem, q.2.len], []⟩ }
  | [], s, _, _, _ => ⟨s.jobs, s.ext, by simp [State.hostRuns]⟩
  | r :: rs, s, hr, hm, hj => by
    obtain ⟨j, hfound⟩ := Option.isSome_iff_exists.1 hj
    let x : ExtRead := ⟨true, some k, (s.arr k).nextId - 1, j.queue, j.index, j.reads, r.mem, r.lb, r.len, false, r.bits⟩
    have hone : s.hostRuns k (r :: rs) = (s.hostAsked x).hostRuns k rs := by
      rw [← State.hostRequest_eq hr hm, State.hostRuns, List.foldl_cons, hfound]
      rfl
    obtain ⟨jobs, ext, h⟩ := State.hostRuns_spec (rs := rs) (s := s.hostAsked x) hr hm (State.arrJob_hostAsked hj x)
    have htag : s.extTag + 1 + rs.length = s.extTag + (rs.length + 1) := by omega
    have hout : ((List.range (rs.length + 1)).zip (r :: rs)).map
          (fun q : Nat × Run => (⟨.hostRead, [s.extTag + q.1, q.2.mem, q.2.len], []⟩ : Out))
        = ⟨.hostRead, [s.extTag, r.mem, r.len], []⟩ :: ((List.range rs.length).zip rs).map
            fun q => ⟨.hostRead, [s.extTag + 1 + q.1, q.2.mem, q.2.len], []⟩ := by
      rw [List.range_succ_eq_map, List.zip_cons_cons, List.map_cons, List.zip_map_left, List.map_map]
      simp [Function.comp_def, Nat.add_assoc, Nat.add_comm 1]
    refine ⟨jobs, ext, (hone.trans h).trans ?_⟩
    simp only [State.hostAsked, List.length_cons, hout, htag, List.append_assoc]
    rfl

theorem ldt_host {n : Arr} {s : State} {d : Dense} {b dst : Nat} {td : List Byte} {rs : List Run}
    (hs : s.sound (arrNum n) (s.nextPc (arrNum n)) = true) (hi : s.issues (arrNum n) 0x22 = true)
    (htd : (s.arr (arrNum n)).td (s.insn (arrNum n)).a = td) (hd : denseTd td = some d)
    (hb : (s.arr (arrNum n)).operand (s.insn (arrNum n)).b = b) (hdst : (s.arr (arrNum n)).lbWord (s.insn (arrNum n)).d = dst)
    (h0 : d.block = 0) (hhost : d.host = true) (hj : (s.arrJob (arrNum n)).isSome = true) (hr : s.replaying = false)
    (hm : s.flag F.PCIE_STATUS_bus_master = true) (hrs : (d.runs b d.d2 dst).1 = rs)
    (ha : s.admits (arrNum n) [] [(dst, (d.runs b d.d2 dst).2)] = true) :
    ∃ t, exec (.ldt n) s = .next t ∧ (t.arr (arrNum n)).flights = (s.arr (arrNum n)).flights ++ [{ emptyFly with
        id := (s.arr (arrNum n)).nextId
        pc := s.get (F.ARR_PC_pc (arrNum n))
        wr := [(dst, (d.runs b d.d2 dst).2)]
        await := rs.length }]
      ∧ t.out = s.out ++ ((List.range rs.length).zip rs).map (fun q => ⟨.hostRead, [s.extTag + q.1, q.2.mem, q.2.len], []⟩)
      ∧ t.extTag = s.extTag + rs.length ∧ Moved (arrNum n) (s.nextPc (arrNum n)) s t
      ∧ { t with regs := s.regs, arrs := s.arrs, jobs := s.jobs, ext := s.ext, extTag := s.extTag, out := s.out } = s := by
  generalize hk : arrNum n = k at *
  let fly : Fly := { emptyFly with
    wr := [(dst, (d.runs b d.d2 dst).2)]
    await := rs.length }
  obtain ⟨hfit, hacc, -⟩ := State.admits_iff.1 ha
  have hfit1 : lbFits dst (d.runs b d.d2 dst).2 = true := by simpa using hfit
  obtain ⟨hmoved, harrs, hframe⟩ := State.moveFly_moved hs (State.markN_of_issues hi rfl) (f := fly) rfl (by simp [fly, emptyFly]) ha
  let u := s.moveFly k (s.insn k) fly
  let v := u.noteHeld k (d.rowsHeld td b d.d2 dst)
  have hv : Moved k (s.nextPc k) s v := hmoved
  obtain ⟨jobs, ext, hruns⟩ := State.hostRuns_spec (k := k) (rs := rs) (hv.replaying.trans hr) (hv.busMaster.trans hm)
    ((congrArg Option.isSome (hv.arrJob (congrArg State.jobs hframe :))).trans hj)
  have hexec : exec (.ldt n) s = .next (v.hostRuns k rs) := by
    have h := ldt_dense_eq (hk ▸ hi) (hk ▸ htd) hd (hk ▸ hb) (hk ▸ hdst) h0
    rw [hk, hhost, hrs] at h
    refine h.trans (congrArg Host.Outcome.next ?_)
    simp only [State.loadRuns, hfit1, hacc]
    rfl
  have hout : v.out = s.out := (congrArg State.out hframe :)
  have htag : v.extTag = s.extTag := (congrArg State.extTag hframe :)
  rw [hout, htag] at hruns
  refine ⟨_, hexec, ?_, ?_, ?_, ?_, ?_⟩
  · rw [hruns]
    refine (u.flights_noteHeld k _).trans ?_
    rw [State.arr, harrs, tabGet_tabSet_same]
  · rw [hruns]
  · rw [hruns]
  · rw [hruns]
    exact hv
  · rw [hruns]
    exact congrArg (fun w : State => { w with jobs := s.jobs, ext := s.ext, extTag := s.extTag, out := s.out }) hframe

/-! ### The obligation -/

/-- Settles O22: over sound memory a read is the bytes and a touch of the controllers, which keeps all that the issue of the
instruction turns on; each instruction then puts its flight in flight in the touched state. -/
theorem loadsAndStores : Obligations.LoadsAndStores := by
  unfold Obligations.LoadsAndStores
  intro n s k a i dst src words touched plain hs hc
  refine ⟨fun hi hal hp hb ha => ?_, fun hi hal hp hb ha => ?_, fun hi hr hal himm ha => ?_, fun d hi hd h0 hh hp ha => ?_,
    fun d j rs hi hd h0 hh hj hr hm hrs ha => ?_, fun d hi hd h0 hh hp ha => ?_,
    fun d c r hi hd h0 hh hp hb hcb hl hr hpr ha => ?_, fun d ads hi hd hh hels hp ha => ?_, fun d ads hd hh hels ha => ?_,
    fun f layer seq tokens hi hkv h1 h2 h3 h4 ha => ?_, fun f layer seq tokens hi hkv h0 h1 ha => ?_,
    fun d c w rows runs hi hd hh h0 hp hb hcb hl hw h8 hrows hruns hpr ha => ?_⟩
  · exact ld_plain hs hi rfl rfl rfl hal (State.plain_of_plainAt hc hp) hb ha
  · exact st_plain hs hi hal (State.plain_of_plainAt hc hp) hb ha
  · exact st_doorbell hs hi hr hal himm ha
  · exact ldt_dense hs hc hi rfl hd rfl rfl h0 hh hp ha
  · exact ldt_host hs hi rfl hd rfl rfl h0 hh (by rw [hj]; rfl) hr hm hrs.symm ha
  · exact stt_dense hs hi rfl hd rfl rfl h0 hh hp.2 ha
  · exact stt_block hs hc hi rfl hd rfl rfl h0 hh hp hb hcb.symm hl hr.symm hpr.2 ha
  · exact gather_plain hs hc hi rfl hd rfl rfl rfl hh hels hp ha
  · intro items fly add
    refine ⟨fun hi => ?_, fun hi => ?_, fun hi => ⟨freeOrder_perm _ _ _, ?_⟩⟩
    · refine ⟨_, congrArg Host.Outcome.next (State.scatter_eq (mode := 0) hi rfl hd rfl rfl rfl hh hels ha rfl), ?_⟩
      exact State.scatFly_launched hs ha _
    · refine ⟨_, congrArg Host.Outcome.next (State.scatter_eq (mode := 2) hi rfl hd rfl rfl rfl hh hels ha rfl), ?_⟩
      exact State.scatFly_launched hs ha _
    · refine ⟨_, congrArg Host.Outcome.next (State.scatter_eq (mode := 1) hi rfl hd rfl rfl rfl hh hels ha rfl), ?_⟩
      exact State.scatFly_launched (s := { s with freeCtr := s.freeCtr + items.length }) hs ha _
  · exact ldt_kv hs hi rfl hkv rfl rfl h1 h2 h3 h4 ha
  · exact stt_kv hs hi rfl hkv rfl rfl h0 h1 ha
  · subst hrows
    have hsame : runs = c.runs d w (a.operand i.b) dst := hruns
    subst hsame
    exact ldt_conv hs hc hi rfl hd rfl rfl hh h0 hp hb hcb.symm hl hw.symm h8 hpr ha

end Sys2Proof.Machine
end

section
/-! SUPPORT. Device memory in canonical form (R138, R370; O59): what keeps it, by the shape of a definition: fields changed beside the memory,
cases, folds, pairs and options of states. A lemma State.memOk.op says that op keeps it, so a chain of operations is a chain of lemmas. -/

namespace Sys2Proof.Machine

/-- After a command that completes, device memory is in canonical form. -/
def KeepsMemOk : Result → Prop
  | .next t => t.memOk
  | _ => True

variable {s t : State}

theorem KeepsMemOk.next (h : s.memOk) : KeepsMemOk (.next s) := h

theorem KeepsMemOk.ite {c : Prop} [Decidable c] {a b : Result} (ha : KeepsMemOk a) (hb : KeepsMemOk b) :
    KeepsMemOk (if c then a else b) := by split <;> assumption

theorem memWf_foldl {α : Type} {f : List Host.Cell → α → List Host.Cell} {l : List α} {m : List Host.Cell}
    (hf : ∀ {m a}, memWf m = true → memWf (f m a) = true) (h : memWf m = true) : memWf (l.foldl f m) = true := by
  induction l generalizing m with
  | nil => exact h
  | cons a l ih => exact ih (hf h)

/-- A state made of another's memory and of any other fields: what a record update leaves where it does not name the memory. -/
theorem State.memOk.upd (h : s.memOk) {regs fuse cond readData out freeCtr armedBy hubUs unitMaps ident accepted links disc
    dike flt mcs memg islMem arrs transit ext extTag kv streams egoIn wardRuns ego proj fus coll plan planMsgs queues qPtr
    qPend qSumm jobs relCount cqStaged fences jrn det islMsgs xgs twin isl fltLog fltNext stest spilled pwr sec farm cfg
    pending} :
    (State.mk regs fuse s.mem cond readData out freeCtr armedBy hubUs unitMaps ident accepted links disc dike flt mcs memg
      islMem arrs transit ext extTag kv streams egoIn wardRuns ego proj fus coll plan planMsgs queues qPtr qPend qSumm jobs
      relCount cqStaged fences jrn det islMsgs xgs twin isl fltLog fltNext stest spilled pwr sec farm cfg pending).memOk := h

theorem State.memOk.ite {c : Prop} [Decidable c] (hs : s.memOk) (ht : t.memOk) : (if c then s else t).memOk := by
  split <;> assumption

theorem State.memOk.fst {β : Type} {b : β} (h : s.memOk) : (s, b).1.memOk := h

theorem State.memOk.snd {β : Type} {b : β} (h : s.memOk) : (b, s).2.memOk := h

theorem State.memOk.foldl {α : Type} {f : State → α → State} {l : List α} (h : s.memOk)
    (hf : ∀ {s a}, s.memOk → (f s a).memOk) : (l.foldl f s).memOk := by
  induction l generalizing s with
  | nil => exact h
  | cons a l ih => exact ih (hf h)

theorem State.memOk.foldlFst {α β : Type} {f : State × β → α → State × β} {l : List α} {r : State × β} (hr : r.1.memOk)
    (hf : ∀ {r a}, r.1.memOk → (f r a).1.memOk) : (l.foldl f r).1.memOk := by
  induction l generalizing r with
  | nil => exact hr
  | cons a l ih => exact ih (hf hr)

theorem State.memOk.none : ∀ t ∈ (none : Option State), t.memOk := by simp

theorem State.memOk.some (h : s.memOk) : ∀ t ∈ some s, t.memOk := by
  rintro _ ⟨⟩
  exact h

theorem State.memOk.getD {o : Option State} (ho : ∀ t ∈ o, t.memOk) (h : s.memOk) : (o.getD s).memOk := by
  cases o with
  | none => exact h
  | some t => exact ho t rfl

end Sys2Proof.Machine
end

section
/-! SUPPORT. Registers, memory, controllers, queues: their operations keep the canonical form of device memory (O59). -/

namespace Sys2Proof.Machine

variable {s : State} (h : s.memOk)
include h

/-! ### Registers and block events (R45 to R67) -/

theorem State.memOk.put {f v} : (s.put f v).memOk := h.upd
theorem State.memOk.putB {f b} : (s.putB f b).memOk := h.put
theorem State.memOk.putWord {page off w} : (s.putWord page off w).memOk := h.upd
theorem State.memOk.satAdd {f n} : (s.satAdd f n).memOk := h.put
theorem State.memOk.satInc {f} : (s.satInc f).memOk := h.satAdd
theorem State.memOk.count {f n} : (s.count f n).memOk := h.put
theorem State.memOk.putMax {f v} : (s.putMax f v).memOk := .ite h.put h
theorem State.memOk.putAddr {lo v} : (s.putAddr lo v).memOk := h.putWord.putWord
theorem State.memOk.clearPage {page keep} : (s.clearPage page keep).memOk := h.upd
theorem State.memOk.emit {ch args data} : (s.emit ch args data).memOk := h.upd

theorem State.memOk.fresh : s.fresh.2.memOk := by
  unfold State.fresh
  exact .snd h.upd

theorem State.memOk.msiPend {v} : (s.msiPend v).memOk := h.put
theorem State.memOk.irqEdge {before page} : (s.irqEdge before page).memOk := .ite h.msiPend h
theorem State.memOk.raise {page bit} : (s.raise page bit).memOk := .ite h.putWord.irqEdge.upd h.putWord.irqEdge
theorem State.memOk.raiseIf {c page bit} : (s.raiseIf c page bit).memOk := .ite h.raise h
theorem State.memOk.accessErr {f} : (s.accessErr f).memOk := .ite h h.put.raise
theorem State.memOk.narrowWrite {page} : (s.narrowWrite page).memOk := .ite h.satInc.put h.satInc.put.accessErr
theorem State.memOk.unmappedAccess {page} : (s.unmappedAccess page).memOk := h.satInc.put
theorem State.memOk.disarm {page} : (s.disarm page).memOk := .ite h.put.upd h

theorem State.memOk.levelWrite {page req word wasArmed} : (s.levelWrite page req word wasArmed).memOk := by
  unfold State.levelWrite
  extract_lets +onlyGivenNames _
  split
  exacts [h.put, .ite (.ite h.put.accessErr (.ite h.put.put.upd (.ite h.put.put h.put))) h.put]

theorem State.memOk.poisonedIn : s.poisonedIn.memOk := h.satInc.raise

/-! ### Device memory (R138, R370, R373) -/

theorem State.memOk.poke {a bs poison} : (s.poke a bs poison).memOk := s.poke_memOk h a bs poison
theorem State.memOk.pokeNat {a n v} : (s.pokeNat a n v).memOk := h.poke

theorem State.memOk.countUnmapped {a} : (s.countUnmapped a).memOk := by
  unfold State.countUnmapped
  split
  exacts [h.satInc.raise, h.satInc.raise, h]

theorem State.memOk.zeroAt {a n} : (s.zeroAt a n).memOk := s.zeroAt_memOk h a n
theorem State.memOk.zero {a n} : (s.zero a n).memOk := h.zeroAt

/-! ### Memory controllers, loads and stores (R374 to R390) -/

theorem State.memOk.setMc {k m} : (s.setMc k m).memOk := h.upd
theorem State.memOk.wqShow {k} : (s.wqShow k).memOk := h.put.putMax
theorem State.memOk.wqEmpty {k} : (s.wqEmpty k).memOk := h.setMc.wqShow

theorem State.memOk.mcMode {k} : (s.mcMode k).memOk := by
  refine .ite h ?_
  split
  exacts [h.put.put, .ite (.put (.put (.ite h.wqEmpty h))) h.put.put]

theorem State.memOk.mcModes : s.mcModes.memOk := h.foldl fun h => h.mcMode
theorem State.memOk.memgNormal : s.memgNormal.memOk := .mcModes (.ite h.put h)

theorem State.memOk.ccAccess {k ch x write} : (s.ccAccess k ch x write).memOk := by
  unfold State.ccAccess
  extract_lets +onlyGivenNames _ _ _
  split
  exacts [h.setMc, h.setMc.count]

theorem State.memOk.wqAccept {k ch w} : (s.wqAccept k ch w).memOk :=
  .ite h (.ite h.setMc.wqShow.setMc.satInc.wqShow h.setMc.wqShow)

theorem State.memOk.flushStart {k} : (s.flushStart k).memOk := h.put
theorem State.memOk.flushEnd {k} : (s.flushEnd k).memOk := h.wqEmpty.setMc.put

theorem State.memOk.errLoc {k ch x byte scrub cache} : (s.errLoc k ch x byte scrub cache).memOk :=
  h.put.put.put.put.put.put.putB.putB

theorem State.memOk.rowRetireStart {k ch bank row} : (s.rowRetireStart k ch bank row).memOk :=
  .ite h (.ite h.raise h.setMc.flushStart.mcMode)

theorem State.memOk.mcCorrected {k ch x byte scrub} : (s.mcCorrected k ch x byte scrub).memOk :=
  .ite h.setMc.satInc.errLoc.raise.rowRetireStart h.setMc.satInc.errLoc.raise

theorem State.memOk.mcUncorrectable {k ch x scrub} : (s.mcUncorrectable k ch x scrub).memOk :=
  h.satInc.errLoc.raise.rowRetireStart

theorem State.memOk.cacheWord {k ch x w code} : (s.cacheWord k ch x w code).memOk := by
  unfold State.cacheWord
  split
  exacts [h, h.satInc.errLoc.raise, h.setMc.upd.satInc.errLoc.raise.raise]

theorem State.memOk.rowsShow {k} : (s.rowsShow k).memOk := h.put.put

theorem State.memOk.rowRetire {k ch bank row} : (s.rowRetire k ch bank row).memOk := by
  unfold State.rowRetire
  extract_lets +onlyGivenNames _ _
  split
  exacts [h.setMc.upd.rowsShow.raise.mcMode.raiseIf, h.setMc.mcMode]

theorem State.memOk.channelGone {c} : (s.channelGone c).memOk := h.upd.put.put.put.put.raise.mcModes
theorem State.memOk.retireRefused : s.retireRefused.memOk := h.put.raise

theorem State.memOk.channelFailed {c} : (s.channelFailed c).memOk :=
  .ite h.put.put.raise.channelGone h.put.put.raise.put.raise

theorem State.memOk.mcTouch {write w} : (s.mcTouch write w).memOk :=
  .ite (.ite h.ccAccess.wqAccept (.ccAccess (.ite h.count h))) h

theorem State.memOk.mcTouches {write a n} : (s.mcTouches write a n).memOk := h.foldl fun h => h.mcTouch

theorem State.memOk.logRead {w} : (s.logRead w).memOk := by
  unfold State.logRead
  split
  · exact h
  · exact h
  · extract_lets +onlyGivenNames _ _
    split
    · exact .ite h.mcUncorrectable h.mcCorrected
    · exact .raise (.ite h.satInc h.satInc)
    · exact .raise (.put (.put (.ite h.count h.count)))
    · exact h

theorem State.memOk.load {a n} : (s.load a n).1.memOk := by
  unfold State.load
  split
  exacts [.fst (.foldl h.mcTouches fun h => h.logRead), .fst h.countUnmapped]

theorem State.memOk.storeRaw {a bs poison} : (s.storeRaw a bs poison).memOk :=
  .ite (.poke (.foldl h.mcTouches fun h => h.logRead)) h.countUnmapped

theorem State.memOk.applyInject {w} : (s.applyInject w).memOk := by
  refine .ite ?_ h
  extract_lets +onlyGivenNames _ _ _
  split
  exacts [h.setMc.upd, h]

theorem State.memOk.rfxWrite {isl p a bs poison} : (s.rfxWrite isl p a bs poison).memOk :=
  .ite h (.ite h (.ite h.storeRaw.upd h.storeRaw))

theorem State.memOk.storeBy {isl a bs poison} : (s.storeBy isl a bs poison).memOk := by
  refine .ite (h.foldl fun h => ?_) h.storeRaw
  split
  exacts [h.rfxWrite, h.storeRaw]

theorem State.memOk.collGo {a n} : (s.collGo a n).memOk := .ite (h.foldl fun h => .ite h.upd h) h

theorem State.memOk.store {a bs poison} : (s.store a bs poison).memOk :=
  .collGo (.foldl h.storeBy fun h => h.applyInject)

theorem State.memOk.islStore {i a bs poison} : (s.islStore i a bs poison).memOk :=
  .collGo (.foldl h.storeBy fun h => h.applyInject)

theorem State.memOk.mcSetView {k ident w} : ∀ t ∈ s.mcSetView k ident w, t.memOk := by
  unfold State.mcSetView
  split
  exacts [.some h.setMc.rowsShow, .none]

/-! ### Fences, publications, queues and jobs (R317 to R323, R339 to R363) -/

theorem State.memOk.fenceAdd {o n} : (s.fenceAdd o n).memOk := .ite h.upd h.upd.put.put.raise

theorem State.memOk.ringPoke {base units unit us} : (s.ringPoke base units unit us).memOk := by
  induction us generalizing s unit with
  | nil => exact h
  | cons u us ih => exact ih h.poke

theorem State.memOk.exportNext : s.exportNext.memOk := h.put

theorem State.memOk.exportUntil {need n} : (s.exportUntil need n).memOk := by
  induction n generalizing s with
  | zero => exact h
  | succ n ih => exact .ite (ih h.exportNext) h

theorem State.memOk.ringPut {r} : (s.ringPut r).memOk := h.ringPoke.put
theorem State.memOk.droppedShow : s.droppedShow.memOk := h.count.put.raise
theorem State.memOk.recordLost {r} : (s.recordLost r).memOk := .ite h.upd h.upd.droppedShow
theorem State.memOk.recordMissed {r} : (s.recordMissed r).memOk := h.upd.droppedShow

theorem State.memOk.ringRecord {r} : (s.ringRecord r).memOk := by
  unfold State.ringRecord
  extract_lets +onlyGivenNames _ _ _
  refine .ite ?_ h.recordLost
  extract_lets +onlyGivenNames s1
  have h1 : s1.memOk := .ite h h.exportUntil.put.raise
  exact .ringPut (.ite h1.ringPut.upd h1)

theorem State.memOk.journalWrite : s.journalWrite.memOk := by
  unfold State.journalWrite
  split
  exacts [h, h.upd.ringRecord]

theorem State.memOk.stagePut {r} : (s.stagePut r).memOk := h.upd

theorem State.memOk.stage {r} : (s.stage r).memOk :=
  .ite h (.ite h.stagePut (.ite (.stagePut (.foldl h.put.raise fun h => h.journalWrite)) h.recordMissed))

theorem State.memOk.record {kind flags src aux0 aux1 aux2 payload} :
    (s.record kind flags src aux0 aux1 aux2 payload).memOk :=
    h.stage

theorem State.memOk.publish {kind flags src aux0 aux1 aux2 payload} :
    (s.publish kind flags src aux0 aux1 aux2 payload).memOk :=
    h.put.put.stage

theorem State.memOk.farmIdle : s.farmIdle.memOk := .ite h.put h
theorem State.memOk.replayStop {cause} : (s.replayStop cause).memOk := .ite h.farmIdle.put.put.put.raise h

theorem State.memOk.closeHostData : s.closeHostData.memOk := by
  unfold State.closeHostData
  split
  exacts [h, h.upd.publish]

theorem State.memOk.pendShow {q on} : (s.pendShow q on).memOk := h.upd

theorem State.memOk.setQueue {q v} : (s.setQueue q v).memOk := by
  unfold State.setQueue
  extract_lets +onlyGivenNames s1
  have h1 : s1.memOk := .ite h.pendShow h
  exact h1.upd

theorem State.memOk.ringEntry {q r} : (s.ringEntry q r).memOk := h.store.setQueue
theorem State.memOk.queueFault {q} : (s.queueFault q).memOk := h.setQueue.raise

theorem State.memOk.doorbell {q index host} : (s.doorbell q index host).memOk :=
  .ite h.satInc.raise (.ite h.satInc.raise (.ite h (.ite (.ite h.satInc.raise (.setQueue (.ite h.publish h)))
    (.ite h.satInc.raise h.setQueue))))

theorem State.memOk.setJob {j} : (s.setJob j).memOk := h.upd
theorem State.memOk.modJob {q i f} : (s.modJob q i f).memOk := h.upd
theorem State.memOk.cqWrite {n r} : (s.cqWrite n r).memOk := .ite h.ringEntry.setQueue.msiPend h.ringEntry.setQueue
theorem State.memOk.complete {n r} : (s.complete n r).memOk := .ite h.cqWrite (.ite h.upd h.setQueue.count.raise)

end Sys2Proof.Machine
end

section
/-! SUPPORT. What arrays and hub engines share, the KV page store, and register accesses keep the canonical form of device memory (O59). -/

namespace Sys2Proof.Machine

variable {s : State} (h : s.memOk)
include h

/-! ### What the operations of an array share (R102 to R135) -/

theorem State.memOk.setArr {n a} : (s.setArr n a).memOk := h.upd
theorem State.memOk.modArr {n f} : (s.modArr n f).memOk := h.setArr
theorem State.memOk.setService {n on} : (s.setService n on).memOk := h.put
theorem State.memOk.setGate {n ungated} : (s.setGate n ungated).memOk := .ite h.put.upd h.put

theorem State.memOk.slotLeft {n} : (s.slotLeft n).memOk := by
  unfold State.slotLeft
  extract_lets +onlyGivenNames _ _ _ s1
  have h1 : s1.memOk := .ite h.upd.put.setService h
  exact .ite h1.emit h1

theorem State.memOk.suspectArr {n} : (s.suspectArr n).memOk := h.modArr.setService

theorem State.memOk.lbLog {n w} : (s.lbLog n w).memOk := by
  unfold State.lbLog
  split
  exacts [h, h.satInc.put.put.raise, h.satInc.put.put.raise.suspectArr]

theorem State.memOk.lbRead {n rs} : (s.lbRead n rs).memOk := h.foldl fun h => h.foldl fun h => h.lbLog
theorem State.memOk.lbWrite {n g} : (s.lbWrite n g).memOk := .modArr (.ite h.lbLog h)
theorem State.memOk.bitWrite {n g} : (s.bitWrite n g).memOk := h.foldl fun h => h.lbWrite
theorem State.memOk.numFlags {n flags} : (s.numFlags n flags).memOk := .ite h h.putWord.raise
theorem State.memOk.redShow {j} : (s.redShow j).memOk := h.foldl fun h => .ite h.put h
theorem State.memOk.redRelease {j} : (s.redRelease j).memOk := .foldl h.setJob.redShow fun h => .ite h.put h
theorem State.memOk.stopSlots {j self cause} : (s.stopSlots j self cause).memOk := h.foldl fun h => .ite h.modArr h

theorem State.memOk.slotFaultAt {n cause pc} : (s.slotFaultAt n cause pc).memOk := by
  unfold State.slotFaultAt
  extract_lets +onlyGivenNames _
  refine .ite h ?_
  extract_lets +onlyGivenNames _ _ _ s3
  have h3 : s3.memOk := .raiseIf (.raise (.put (.put (.put (.ite h.setArr.suspectArr h.setArr)))))
  split
  exacts [h3, h3.setJob.redRelease.stopSlots]

theorem State.memOk.slotFault {n cause} : (s.slotFault n cause).memOk := h.slotFaultAt

theorem State.memOk.slotGone {n} : (s.slotGone n).memOk := by
  unfold State.slotGone
  extract_lets +onlyGivenNames _ s1
  have h1 : s1.memOk := by
    unfold s1
    split
    exacts [h, h.setJob]
  exact h1.put.put.put.modArr

theorem State.memOk.fetchCheck {n} : (s.fetchCheck n).memOk := by
  unfold State.fetchCheck
  split
  · exact h.slotFault
  · refine .ite h.satInc.raise.slotFault ?_
    extract_lets +onlyGivenNames s1
    have h1 : s1.memOk := .ite h.satInc.raise h
    exact .ite h1.slotFault h1

theorem State.memOk.goto {n pc} : (s.goto n pc).memOk := h.put.fetchCheck

theorem State.memOk.markJob {n} : (s.markJob n).memOk := by
  unfold State.markJob
  split
  exacts [h.setJob, h]

theorem State.memOk.issued {n i} : (s.issued n i).memOk := .ite h.count.put.markJob h.count
theorem State.memOk.stepTo {n i pc} : (s.stepTo n i pc).memOk := h.issued.goto

theorem State.memOk.issue {n op act} (hact : ∀ {s a}, s.memOk → (act s a).memOk) : (s.issue n op act).memOk := by
  refine .ite ?_ h
  split
  exacts [hact h, h.slotFault]

theorem State.memOk.launch {n i f seen} : (s.launch n i f seen).memOk := h.lbRead.modArr.stepTo
theorem State.memOk.tryLaunch {n i f} : (s.tryLaunch n i f).memOk := .ite h.launch h

omit h in
theorem State.memOk.scatItem {mode r it} (hr : r.1.memOk) :
    (State.scatItem mode r it).1.memOk := by
  unfold State.scatItem
  extract_lets +onlyGivenNames _
  split
  exacts [.fst hr.store, .fst hr.load.store]

theorem State.memOk.land {n f} : (s.land n f).1.memOk := by
  unfold State.land
  extract_lets +onlyGivenNames _ _ s2 s3 r
  have h2 : s2.memOk := .foldl (.foldl (h.foldl fun h => h.lbWrite) fun h => h.bitWrite) fun h => h.store
  have h3 : s3.memOk := by
    unfold s3
    split
    exacts [h2.doorbell, h2]
  have hr : r.1.memOk := by
    unfold r
    split
    exacts [.foldlFst (.fst h3) fun hr => hr.scatItem, .fst h3]
  exact .fst hr.upd.numFlags

theorem State.memOk.complete1 {n f} : (s.complete1 n f).memOk := .ite h.modArr.land h.modArr.land.slotFaultAt

/-! ### What the hub engines share (R184, R325, R356, R407) -/

theorem State.memOk.projShow : s.projShow.memOk := .ite h.put h
theorem State.memOk.hubShow {cls} : (s.hubShow cls).memOk := .ite h.projShow h
theorem State.memOk.commandDone {q i digest} : (s.commandDone q i digest).memOk := h.modJob.hubShow
theorem State.memOk.commandFailed {q i} : (s.commandFailed q i).memOk := h.modJob.raiseIf.hubShow

theorem State.memOk.commandBytes {j} : (s.commandBytes j).1.memOk := by
  unfold State.commandBytes
  exact h.load

theorem State.memOk.listCommand {id cls mine run} (hrun : ∀ {s a b}, s.memOk → (run s a b).memOk) :
    (s.listCommand id cls mine run).memOk := by
  unfold State.listCommand
  split
  exacts [h, .ite h (.ite h.commandBytes.commandFailed (.ite (hrun h.commandBytes) h))]

theorem State.memOk.hostWrite {addr bs bad} : (s.hostWrite addr bs bad).memOk := .ite h.emit h.satInc
theorem State.memOk.flyData {n id dst bs bad} : (s.flyData n id dst bs bad).memOk := h.modArr
theorem State.memOk.flyBits {n id bit len bs bad} : (s.flyBits n id bit len bs bad).memOk := h.modArr
theorem State.memOk.dmaEnd {q i bs bad} : (s.dmaEnd q i bs bad).memOk := .ite h.commandFailed h.commandDone

theorem State.memOk.extDeliver {r bs bad} : (s.extDeliver r bs bad).memOk := by
  unfold State.extDeliver
  split
  exacts [.ite h.flyData h.flyBits, .dmaEnd (.ite h.hostWrite h.store)]

theorem State.memOk.recordHostRead {r bs} : (s.recordHostRead r bs).memOk := h.record
theorem State.memOk.readFailed {r} : (s.readFailed r).memOk := h.recordHostRead.extDeliver

theorem State.memOk.hostRequest {r} : (s.hostRequest r).memOk := by
  refine .ite ?_ (.ite h.modJob.upd.emit h.modJob.readFailed)
  split
  · split
    exacts [.ite h.modJob.extDeliver h.modJob.replayStop.extDeliver, h.modJob.replayStop.extDeliver]
  · exact h.modJob.replayStop.extDeliver

/-! ### The KV page store (R167 to R176, R182) -/

theorem State.memOk.kvSet {page old new} : (s.kvSet page old new).memOk := by
  unfold State.kvSet
  extract_lets +onlyGivenNames _
  split
  exacts [h.store.count, h.store.put, h.store]

theorem State.memOk.kvBlockFault : s.kvBlockFault.memOk := h.put.raise

theorem State.memOk.kvWord {page} : (s.kvWord page).1.memOk := by
  unfold State.kvWord
  extract_lets +onlyGivenNames _ _
  split
  · exact .fst h.load.store.satInc.raise
  · split
    exacts [.fst h.load.satInc.raise, .fst h.load]

theorem State.memOk.kvReturn {page old} : (s.kvReturn page old).memOk := by
  unfold State.kvReturn
  split
  exacts [h.kvSet, h.kvSet.upd.count.count]

theorem State.memOk.kvFree {p n} : (s.kvFree p n).memOk := h.put.raiseIf

theorem State.memOk.kvDec {page dref dpin} : (s.kvDec page dref dpin).1.memOk := by
  unfold State.kvDec
  extract_lets +onlyGivenNames _
  split
  · exact .fst h.kvWord
  · extract_lets +onlyGivenNames _ _
    split
    · exact .fst h.kvWord
    · split
      · exact .fst h.kvWord
      · split
        · exact .fst h.kvWord
        · split
          · exact .fst h.kvWord
          · split
            exacts [.fst h.kvWord.kvReturn, .fst h.kvWord.kvSet]

theorem State.memOk.kvInc {page dref dpin} : (s.kvInc page dref dpin).1.memOk := by
  unfold State.kvInc
  extract_lets +onlyGivenNames _
  split
  · exact .fst h.kvWord
  · split
    · exact .fst h.kvWord
    · split
      · exact .fst h.kvWord
      · split
        exacts [.fst h.kvWord, .fst h.kvWord.kvSet]

theorem State.memOk.kvSeq {q} : (s.kvSeq q).1.memOk := by
  unfold State.kvSeq
  exact .fst h.load

theorem State.memOk.kvEntry {a} : (s.kvEntry a).1.memOk := by
  unfold State.kvEntry
  exact .fst h.load

theorem State.memOk.kvPutEntry {a page} : (s.kvPutEntry a page).memOk := h.store

theorem State.memOk.kvNote {f seq layer queue} : (s.kvNote f seq layer queue).memOk :=
  .ite h.put.putB.put.put.put.put.kvBlockFault h.put.putB.put.put.put.put

theorem State.memOk.kvCheck {seq layer block fmt} : (s.kvCheck seq layer block fmt).1.memOk := by
  unfold State.kvCheck
  split
  · exact .fst h
  · split
    · exact .fst h
    · extract_lets +onlyGivenNames _
      split
      · exact .fst h.kvSeq
      · split
        · exact .fst h.kvSeq
        · split <;> exact .fst h.kvSeq

theorem State.memOk.kvAlloc {p new} : (s.kvAlloc p new).1.1.memOk := by
  unfold State.kvAlloc
  split
  · exact h.raise
  · extract_lets +onlyGivenNames _
    split
    exacts [h.kvWord.upd.kvFree, h.kvWord.upd.kvFree.count.kvSet]

/-! ### The write and the read of a register (R47 to R60) -/

theorem State.memOk.fusSetView {ident w} : ∀ t ∈ s.fusSetView ident w, t.memOk := by
  unfold State.fusSetView
  extract_lets
  split
  exacts [.some h.upd, .some h.upd, .some h.upd, .none]

theorem State.memOk.projSetView {ident w} : ∀ t ∈ s.projSetView ident w, t.memOk := by
  unfold State.projSetView
  split
  exacts [.some h.upd, .none]

theorem State.memOk.xgsSetView {ident w} : ∀ t ∈ s.xgsSetView ident w, t.memOk := by
  unfold State.xgsSetView
  split
  exacts [.some h.upd, .none]

theorem State.memOk.setStDie {d v} : (s.setStDie d v).memOk := h.upd

theorem State.memOk.rcView {b ident} : (s.rcView b ident).memOk := by
  unfold State.rcView
  split
  exacts [h.upd, h]

theorem State.memOk.setView {b inst ident w} : ∀ t ∈ s.setView b inst ident w, t.memOk := by
  unfold State.setView
  split
  exacts [h.mcSetView, h.projSetView, h.fusSetView, h.xgsSetView, .none]

theorem State.memOk.capsShow {n} : (s.capsShow n).memOk := .ite h h.putWord.raise

theorem State.memOk.afterWrite {b inst ident} : (s.afterWrite b inst ident).memOk := by
  unfold State.afterWrite
  split
  · exact .ite h.mcMode h
  · exact .ite h.memgNormal h
  · exact .ite h.capsShow h
  · exact .ite h.put h
  · exact .ite (.ite (.ite h.put h) h.put) h
  · exact h

theorem State.memOk.repairNote {page ident copy scrub} : (s.repairNote page ident copy scrub).memOk :=
  h.satInc.put.put.putB.raise

theorem State.memOk.selMend {b inst ident k} : (s.selMend b inst ident k).memOk := by
  unfold State.selMend
  split
  exacts [h.upd, h.upd, h.upd, h.setMc, h.upd, h]

theorem State.memOk.selRepair {page ident scrub} : (s.selRepair page ident scrub).memOk := by
  unfold State.selRepair
  split
  · exact h
  · refine h.foldl fun h => ?_
    split
    exacts [h, h.selMend.repairNote]

theorem State.memOk.repair {page ident scrub} : (s.repair page ident scrub).memOk := by
  unfold State.repair
  extract_lets +onlyGivenNames s1
  have h1 : s1.memOk := by
    unfold s1
    split
    exacts [h, h.putWord.repairNote]
  exact h1.selRepair

theorem State.memOk.storeReg {page ident acc} : (s.storeReg page ident acc).memOk := by
  unfold State.storeReg
  split
  · extract_lets _ s1 _ _ _
    have h1 : s1.memOk := .ite h h.repair
    split
    exacts [h1, h1.accessErr, .afterWrite (.irqEdge (.getD h1.setView h1.putWord))]
  · exact h

/-- What a write leaves once the checks before its register are done. -/
def Gate.memOk : Gate → Prop
  | .stop s => s.memOk
  | .pass s _ => s.memOk

omit h in
theorem Gate.memOk.ite {c : Prop} [Decidable c] {a b : Gate} (ha : a.memOk) (hb : b.memOk) :
    (if c then a else b).memOk := by split <;> assumption

theorem Gate.memOk.stop : (Gate.stop s).memOk := h

theorem Gate.memOk.pass {ident} : (Gate.pass s ident).memOk := h

theorem State.memOk.gate {page off acc} : (s.gate page off acc).memOk := by
  unfold State.gate
  refine .ite (.stop h) (.ite (.stop h.poisonedIn) (.ite (.stop (.unmappedAccess (.ite h h.narrowWrite)))
    (.ite (.stop (.ite h h.narrowWrite)) (.ite (.stop (.ite (.ite h h.satInc.put) (.disarm (.ite h h.satInc.put))))
    (.ite (.stop (.ite h.narrowWrite.disarm.levelWrite h.narrowWrite.disarm)) (.ite (.stop h) (.ite (.stop h)
    (.ite (.stop h.disarm.levelWrite) (.ite (.stop h.disarm.accessErr) (.pass h.disarm))))))))))

theorem State.memOk.writeReg {page off acc} : (s.writeReg page off acc).memOk := by
  have hg := h.gate (page := page) (off := off) (acc := acc)
  unfold State.writeReg
  split <;> rename_i heq <;> rw [heq] at hg
  exacts [hg, State.memOk.storeReg hg]

theorem State.memOk.command {page off acc act} (hact : ∀ {s w}, s.memOk → (act s w).memOk) :
    (s.command page off acc act).memOk := by
  have hg := h.gate (page := page) (off := off) (acc := acc)
  unfold State.command
  split <;> rename_i heq <;> rw [heq] at hg
  · exact hg
  · split
    exacts [hact (State.memOk.storeReg hg), hg]

theorem State.memOk.readReg {page off v be req} : (s.readReg page off v be req).memOk := by
  refine .ite h (.ite h.unmappedAccess.upd (.ite h.upd (.ite h.upd ?_)))
  split
  · exact h.upd
  · extract_lets +onlyGivenNames s0 _ s1 _ _ _ _ s2
    have h0 : s0.memOk := .ite h h.repair
    have h1 : s1.memOk := .ite h0.fresh h0
    have h2 : s2.memOk := by
      unfold s2
      refine .ite ?_ h1
      split
      exacts [.ite h1.putWord.rcView h1.putWord, h1.putWord]
    exact h2.upd

/-! ### Commands of the register pages (R44 to R63) -/

theorem State.memOk.execRegisterWrite {page off acc} : KeepsMemOk (execRegisterWrite page off acc s) := .next h.writeReg
theorem State.memOk.execRcRead {page off v be req} : KeepsMemOk (execRcRead page off v be req s) := .next h.readReg
theorem State.memOk.execBlkLevelWrite {page acc} : KeepsMemOk (execBlkLevelWrite page acc s) := .next h.writeReg
theorem State.memOk.execUnlockTimeout {page} : KeepsMemOk (execUnlockTimeout page s) := .next h.disarm
theorem State.memOk.execGenHostExpertWrite {acc} : KeepsMemOk (execGenHostExpertWrite acc s) := .next h.writeReg
theorem State.memOk.execTumblerScrub {page} : KeepsMemOk (execTumblerScrub page s) := .next (h.foldl fun h => h.repair)
theorem State.memOk.execStThrWrite {n k acc} : KeepsMemOk (execStThrWrite n k acc s) := .next h.writeReg
theorem State.memOk.execStHystWrite {n acc} : KeepsMemOk (execStHystWrite n acc s) := .next h.writeReg
theorem State.memOk.execH2xDataWrite {k acc} : KeepsMemOk (execH2xDataWrite k acc s) := .next h.writeReg

end Sys2Proof.Machine
end

section
/-! SUPPORT. The instructions of an array and the KV manager keep the canonical form of device memory (O59). -/

namespace Sys2Proof.Machine

variable {s : State} (h : s.memOk)
include h

/-! ### Control, scalars, waits and diagnostics of the sequencer (R123) -/

theorem State.memOk.branch {n i taken} : (s.branch n i taken).memOk := h.stepTo
theorem State.memOk.execNop {n} : KeepsMemOk (execNop n s) := .next (h.issue fun h => h.stepTo)

theorem State.memOk.execEndSlot {n} : KeepsMemOk (execEndSlot n s) :=
  .next (h.issue fun h => .ite h.issued.slotGone.put.raise h)

theorem State.memOk.execJmp {n} : KeepsMemOk (execJmp n s) := .next (h.issue fun h => h.branch)
theorem State.memOk.execBrz {n} : KeepsMemOk (execBrz n s) := .next (h.issue fun h => h.branch)
theorem State.memOk.execBrnz {n} : KeepsMemOk (execBrnz n s) := .next (h.issue fun h => h.branch)
theorem State.memOk.setReg {n i r v} : (s.setReg n i r v).memOk := h.modArr.stepTo
theorem State.memOk.execLoop {n} : KeepsMemOk (execLoop n s) := .next (h.issue fun h => h.modArr.branch)

theorem State.memOk.execCall {n} : KeepsMemOk (execCall n s) :=
  .next (h.issue fun h => .ite h.slotFault h.modArr.branch)

theorem State.memOk.execRet {n} : KeepsMemOk (execRet n s) := by
  refine .next (h.issue fun h => ?_)
  split
  exacts [h.slotFault, h.modArr.stepTo]

theorem State.memOk.execSli {n} : KeepsMemOk (execSli n s) := .next (h.issue fun h => h.setReg)
theorem State.memOk.execSlih {n} : KeepsMemOk (execSlih n s) := .next (h.issue fun h => h.setReg)
theorem State.memOk.execSadd {n} : KeepsMemOk (execSadd n s) := .next (h.issue fun h => h.setReg)
theorem State.memOk.execSsub {n} : KeepsMemOk (execSsub n s) := .next (h.issue fun h => h.setReg)
theorem State.memOk.execSmul {n} : KeepsMemOk (execSmul n s) := .next (h.issue fun h => h.setReg)

theorem State.memOk.execSget {n} : KeepsMemOk (execSget n s) := by
  refine .next (h.issue fun h => .ite h.setReg ?_)
  split
  exacts [h.setReg, h.slotFault]

theorem State.memOk.execRdslot {n} : KeepsMemOk (execRdslot n s) := .next (h.issue fun h => h.setReg)
theorem State.memOk.execRdcyc {n} : KeepsMemOk (execRdcyc n s) := .next (h.issue fun h => h.fresh.modArr.setReg)
theorem State.memOk.execRdid {n} : KeepsMemOk (execRdid n s) := .next (h.issue fun h => h.setReg)

theorem State.memOk.diagRead {n i act} (hact : ∀ {s a}, a.memOk → (act s a).memOk) : (s.diagRead n i act).memOk := by
  refine .ite h.slotFault (.ite h ?_)
  extract_lets +onlyGivenNames _ s1
  have h1 : s1.memOk := hact h.lbRead
  exact .ite h1.slotFault h1.stepTo

theorem State.memOk.execCkdig {n} : KeepsMemOk (execCkdig n s) := by
  refine .next (h.issue fun h => h.diagRead fun h => ?_)
  extract_lets +onlyGivenNames _ _ _
  split
  exacts [h.setArr.setJob, h.setArr]

theorem State.memOk.execLbsig {n} : KeepsMemOk (execLbsig n s) := .next (h.issue fun h => h.diagRead fun h => h.modArr)
theorem State.memOk.haltArr {n} : (s.haltArr n).memOk := h.put.raise
theorem State.memOk.execBrk {n} : KeepsMemOk (execBrk n s) := .next (h.issue fun h => .ite h.stepTo.haltArr h.stepTo)
theorem State.memOk.holdFor {n i w} : (s.holdFor n i w).memOk := h.issued.modArr
theorem State.memOk.release {n pc} : (s.release n pc).memOk := h.modArr.goto
theorem State.memOk.execFenceA {n} : KeepsMemOk (execFenceA n s) := .next (h.issue fun h => h.holdFor)
theorem State.memOk.execFenceD {n} : KeepsMemOk (execFenceD n s) := .next (h.issue fun h => h.holdFor)
theorem State.memOk.execFenceP {n} : KeepsMemOk (execFenceP n s) := .next (h.issue fun h => h.holdFor)
theorem State.memOk.execFenceX {n} : KeepsMemOk (execFenceX n s) := .next (h.issue fun h => h.holdFor)

theorem State.memOk.execBarD {n} : KeepsMemOk (execBarD n s) := by
  refine .next (h.issue fun h => ?_)
  split
  exacts [h, .ite h.slotFault (.ite h h.setJob.holdFor)]

theorem State.memOk.execBarP {n} : KeepsMemOk (execBarP n s) :=
  .next (h.issue fun h => .ite h.slotFault (.ite h h.fenceAdd.holdFor))

theorem State.memOk.execBarrierRelease {n} : KeepsMemOk (execBarrierRelease n s) := by
  refine .next (.ite h ?_)
  split
  exacts [.ite h.release h, .ite h.release h, h]

theorem State.memOk.execFwait {n} : KeepsMemOk (execFwait n s) := .next (h.issue fun h => h.holdFor)

theorem State.memOk.execFwaitSatisfied {n} : KeepsMemOk (execFwaitSatisfied n s) := by
  refine .next (.ite h ?_)
  split
  exacts [.ite h.release h, h]

theorem State.memOk.execRowwait {n} : KeepsMemOk (execRowwait n s) :=
  .next (h.issue fun h => .ite h.holdFor h.slotFault)

theorem State.memOk.execRowwaitT {n} : KeepsMemOk (execRowwaitT n s) :=
  .next (h.issue fun h => .ite (.holdFor (.ite h h.markJob)) h.slotFault)

theorem State.memOk.rowCheck {n addr row} : (s.rowCheck n addr row).memOk :=
  .ite h.load.slotFault (.ite h.load.release h)

theorem State.memOk.execRowwaitSatisfied {n} : KeepsMemOk (execRowwaitSatisfied n s) := by
  refine .next (.ite h ?_)
  split
  exacts [h.rowCheck, h.rowCheck, h]

theorem State.memOk.execRowwaitTExpiry {n} : KeepsMemOk (execRowwaitTExpiry n s) := by
  refine .next (.ite h ?_)
  split
  exacts [.ite h.release h.rowCheck, h]

theorem State.memOk.execRowpub {n} : KeepsMemOk (execRowpub n s) :=
  .next (h.issue fun h => .ite h.slotFault (.ite h (.ite h.load.slotFault (.ite h.load.slotFault
    (.stepTo (.ite h.load h.load.store))))))

/-! ### The vector unit and the fast approximations (R95 to R101) -/

theorem State.memOk.vecDone {n i u rd w es} : (s.vecDone n i u rd w es).memOk := .ite h.tryLaunch h.slotFault
theorem State.memOk.vec1 {n op u w wo f} : (s.vec1 n op u w wo f).memOk := h.issue fun h => h.vecDone
theorem State.memOk.vec2 {n op f} : (s.vec2 n op f).memOk := h.issue fun h => h.vecDone
theorem State.memOk.vec3 {n op f} : (s.vec3 n op f).memOk := h.issue fun h => h.vecDone
theorem State.memOk.execVadd {n} : KeepsMemOk (execVadd n s) := .next h.vec2
theorem State.memOk.execVsub {n} : KeepsMemOk (execVsub n s) := .next h.vec2
theorem State.memOk.execVmul {n} : KeepsMemOk (execVmul n s) := .next h.vec2
theorem State.memOk.execVfma {n} : KeepsMemOk (execVfma n s) := .next h.vec3
theorem State.memOk.execVdiv {n} : KeepsMemOk (execVdiv n s) := .next h.vec2
theorem State.memOk.execVsqrt {n} : KeepsMemOk (execVsqrt n s) := .next h.vec1
theorem State.memOk.execVmin {n} : KeepsMemOk (execVmin n s) := .next h.vec2
theorem State.memOk.execVmax {n} : KeepsMemOk (execVmax n s) := .next h.vec2
theorem State.memOk.execVcmp {n} : KeepsMemOk (execVcmp n s) := .next h.vec2
theorem State.memOk.execVsel {n} : KeepsMemOk (execVsel n s) := .next h.vec3
theorem State.memOk.execViadd {n} : KeepsMemOk (execViadd n s) := .next h.vec2
theorem State.memOk.execVsh {n} : KeepsMemOk (execVsh n s) := .next h.vec2
theorem State.memOk.execVand {n} : KeepsMemOk (execVand n s) := .next h.vec2
theorem State.memOk.execVor {n} : KeepsMemOk (execVor n s) := .next h.vec2
theorem State.memOk.execVcvt {n} : KeepsMemOk (execVcvt n s) := .next h.vec1

theorem State.memOk.execVcvtmx {n} : KeepsMemOk (execVcvtmx n s) :=
  .next (h.issue fun h => .ite h.tryLaunch h.slotFault)

theorem State.memOk.vecReduce {n op f} : (s.vecReduce n op f).memOk := h.issue fun h => h.vecDone
theorem State.memOk.execVredsum {n} : KeepsMemOk (execVredsum n s) := .next h.vecReduce
theorem State.memOk.execVredmax {n} : KeepsMemOk (execVredmax n s) := .next h.vecReduce
theorem State.memOk.execTrans {n} : KeepsMemOk (execTrans n s) := .next (h.issue fun h => h.vecDone)

theorem State.memOk.execShuf {n} : KeepsMemOk (execShuf n s) :=
  .next (h.issue fun h => .ite h.slotFault (.ite h (.ite h.slotFault h.launch)))

theorem State.memOk.execPack {n} : KeepsMemOk (execPack n s) := .next h.vec1
theorem State.memOk.execUnpack {n} : KeepsMemOk (execUnpack n s) := .next h.vec1
theorem State.memOk.vecFast {n op f} : (s.vecFast n op f).memOk := h.issue fun h => .ite h.upd.vecDone h
theorem State.memOk.execVrcpF {n} : KeepsMemOk (execVrcpF n s) := .next h.vecFast
theorem State.memOk.execVrsqF {n} : KeepsMemOk (execVrsqF n s) := .next h.vecFast
theorem State.memOk.execVexpF {n} : KeepsMemOk (execVexpF n s) := .next h.vecFast
theorem State.memOk.execVlogF {n} : KeepsMemOk (execVlogF n s) := .next h.vecFast

/-! ### Moves (R139, R142 to R153, R579) -/

theorem State.memOk.fromMem {src dst n} : (s.fromMem src dst n).1.memOk := by
  unfold State.fromMem
  exact .fst h.load

theorem State.memOk.kvOutside {n seq layer} : (s.kvOutside n seq layer).memOk := h.kvNote.slotFault
theorem State.memOk.moveFly {n i f} : (s.moveFly n i f).memOk := .ite h.tryLaunch h.slotFault

theorem State.memOk.hostRuns {n rs} : (s.hostRuns n rs).memOk := by
  refine h.foldl fun h => ?_
  split
  exacts [h.hostRequest, h]

theorem State.memOk.loadRun {f r} : (s.loadRun f r).1.memOk := by
  unfold State.loadRun
  split
  exacts [.fst h.fromMem, .fst h.load]

theorem State.memOk.loadRuns {n i host rs other wr held} : (s.loadRuns n i host rs other wr held).memOk := by
  refine .ite h.slotFault (.ite h.slotFault (.ite h (.ite h.moveFly.modArr.hostRuns ?_)))
  extract_lets +onlyGivenNames _ r
  have hr : r.1.memOk := .foldlFst (.fst h) fun hp => hp.loadRun
  exact hr.moveFly.modArr

theorem State.memOk.ldtConv {n i td d c b dst} : (s.ldtConv n i td d c b dst).memOk := h.loadRuns

theorem State.memOk.execLdt {n} : KeepsMemOk (execLdt n s) := by
  refine .next (h.issue fun h => ?_)
  extract_lets +onlyGivenNames _ _ _ _
  split
  · exact .ite h.loadRuns (.ite h.slotFault (.ite h.load.slotFault (.ite h.load.ldtConv h.load.slotFault)))
  · exact .ite h.kvOutside h.moveFly
  · exact h.slotFault

theorem State.memOk.storeRuns {n i d rs rd} : (s.storeRuns n i d rs rd).memOk :=
  .ite h.slotFault (.ite h.slotFault h.moveFly)

theorem State.memOk.execStt {n} : KeepsMemOk (execStt n s) := by
  refine .next (h.issue fun h => ?_)
  extract_lets +onlyGivenNames _ _ _ _
  split
  · exact .ite h.storeRuns (.ite h.slotFault (.ite h.load.slotFault (.ite h.load.storeRuns h.load.slotFault)))
  · exact .ite h.kvOutside h.moveFly
  · exact h.slotFault

theorem State.memOk.execGather {n} : KeepsMemOk (execGather n s) := by
  refine .next (h.issue fun h => ?_)
  extract_lets +onlyGivenNames _ _ _ _
  split
  · exact h.slotFault
  · refine .ite h.slotFault (.ite h ?_)
    split
    · exact h.slotFault
    · refine .ite h.moveFly.hostRuns ?_
      extract_lets +onlyGivenNames r
      have hr : r.1.memOk := by
        unfold r
        refine .foldlFst (.fst h) fun hp => ?_
        split
        exacts [.fst hp, .fst hp.load]
      exact hr.moveFly

theorem State.memOk.scatter {n op mode} : (s.scatter n op mode).memOk := by
  refine h.issue fun h => ?_
  extract_lets +onlyGivenNames _ _ _ _
  split
  · exact h.slotFault
  · refine .ite h.slotFault (.ite h ?_)
    extract_lets +onlyGivenNames _
    split
    exacts [h.slotFault, .moveFly (.ite h.upd h)]

theorem State.memOk.execScatter {n} : KeepsMemOk (execScatter n s) := .next h.scatter
theorem State.memOk.execScatadd {n} : KeepsMemOk (execScatadd n s) := .next h.scatter
theorem State.memOk.execScataddS {n} : KeepsMemOk (execScataddS n s) := .next h.scatter
theorem State.memOk.execLbcopy {n} : KeepsMemOk (execLbcopy n s) := .next (h.issue fun h => .ite h.moveFly h.slotFault)
theorem State.memOk.execLbfill {n} : KeepsMemOk (execLbfill n s) := .next (h.issue fun h => .ite h.moveFly h.slotFault)

/-! ### Contractions, reductions and the FFT unit (R76 to R93, R159 to R165) -/

theorem State.memOk.contract {n i kv ts rd wr empty red make} : (s.contract n i kv ts rd wr empty red make).memOk := by
  unfold State.contract
  split
  · exact h
  · extract_lets +onlyGivenNames _ _
    split
    · refine .ite h.slotFault (.ite h (.ite h.slotFault (.ite h.modArr ?_)))
      extract_lets +onlyGivenNames _ _ s2
      have h2 : s2.memOk := .ite h.setJob.redShow.modArr h.setJob.redShow.modArr.markJob
      exact .ite h2.modJob.stepTo h2.launch
    · exact h.slotFault

theorem State.memOk.dotIssue {n i} : (s.dotIssue n i).memOk := .ite h.slotFault h.contract
theorem State.memOk.execDot {n} : KeepsMemOk (execDot n s) := .next (h.issue fun h => h.dotIssue)
theorem State.memOk.kvexpIssue {n i} : (s.kvexpIssue n i).memOk := .ite h.slotFault h.contract
theorem State.memOk.execKvexp {n} : KeepsMemOk (execKvexp n s) := .next (h.issue fun h => h.kvexpIssue)

theorem State.memOk.convIssue {n i} : (s.convIssue n i).memOk := by
  unfold State.convIssue
  extract_lets +onlyGivenNames _ _ _ _ _ _
  split
  · exact h
  · exact .ite h.slotFault (.ite h (.ite h.lbRead.slotFault (.ite h.slotFault (.ite h.contract h.contract))))
  · exact h.slotFault

theorem State.memOk.execConv {n} : KeepsMemOk (execConv n s) := .next (h.issue fun h => h.convIssue)

theorem State.memOk.execContractionResume {n} : KeepsMemOk (execContractionResume n s) :=
  .next (.ite h (.ite h.dotIssue (.ite h.convIssue (.ite h.kvexpIssue h))))

theorem State.memOk.execPartialArrival {k} : KeepsMemOk (execPartialArrival k s) := by
  refine .next ?_
  split
  · exact h
  · extract_lets +onlyGivenNames _
    split
    · exact h.upd
    · split
      exacts [h.upd, .ite h.upd h.upd.setJob]

theorem State.memOk.execRedGet {n} : KeepsMemOk (execRedGet n s) :=
  .next (h.issue fun h => .ite h.slotFault (.tryLaunch (.ite h.markJob h)))

theorem State.memOk.execRedGetComplete {n} : KeepsMemOk (execRedGetComplete n s) := by
  refine .next ?_
  split
  · split
    exacts [h, .ite h (.ite h h.setJob.redShow.complete1)]
  · exact h

theorem State.memOk.fftIssue {n i inv} : (s.fftIssue n i inv).memOk := .ite h.slotFault (.ite h h.vecDone)
theorem State.memOk.execFft {n} : KeepsMemOk (execFft n s) := .next (h.issue fun h => h.fftIssue)
theorem State.memOk.execIfft {n} : KeepsMemOk (execIfft n s) := .next (h.issue fun h => h.fftIssue)
theorem State.memOk.execSpmul {n} : KeepsMemOk (execSpmul n s) := .next (h.issue fun h => .ite h.slotFault h.vecDone)

/-! ### Slots and flights (R106, R111 to R118, R135) -/

theorem State.memOk.beginSlot {n j} : (s.beginSlot n j).memOk := h.modArr.putB.putB.put.put.goto
theorem State.memOk.twinArray {k j} : (s.twinArray k j).memOk := .ite h.put h

theorem State.memOk.loadProgram {addr count} : (s.loadProgram addr count).1.memOk := by
  unfold State.loadProgram
  exact .foldlFst (.fst h) fun hp => .fst hp.load

theorem State.memOk.programIn {n j} : (s.programIn n j).memOk := h.loadProgram.modArr

theorem State.memOk.execSlotStart {n j slot} : KeepsMemOk (execSlotStart n j slot s) := by
  refine .next ?_
  split
  · exact h
  · exact .ite h (.ite h.setJob.twinArray.setGate.modArr.put.put.put.put.redShow.beginSlot
      h.setJob.twinArray.setGate.modArr.put.put.put.put.redShow)

theorem State.memOk.execProgramLoadDone {n} : KeepsMemOk (execProgramLoadDone n s) := by
  refine .next ?_
  split
  exacts [h, .ite h h.programIn.beginSlot]

theorem State.memOk.sendParts {n f} : (s.sendParts n f).memOk := h.upd.modArr.numFlags

theorem State.memOk.execInstructionComplete {n u} : KeepsMemOk (execInstructionComplete n u s) := by
  refine .next ?_
  split
  exacts [.ite h.complete1 (.ite h.sendParts h), h]

theorem State.memOk.execSlotStop {n} : KeepsMemOk (execSlotStop n s) := by
  refine .next ?_
  split
  exacts [h, .ite h (.ite h.slotFault h.setArr)]

theorem State.memOk.execArrayDrainDone {n} : KeepsMemOk (execArrayDrainDone n s) :=
  .next (.ite h.slotGone.put.slotLeft h)

theorem State.memOk.execHalt {n acc} : KeepsMemOk (execHalt n acc s) := .next (h.command fun h => .ite h.haltArr h)
theorem State.memOk.execResume {n acc} : KeepsMemOk (execResume n acc s) := .next (h.command fun h => .ite h.put h)
theorem State.memOk.execAbort {n acc} : KeepsMemOk (execAbort n acc s) := .next (h.command fun h => .ite h.slotFault h)
theorem State.memOk.execArrCapDisableWrite {n acc} : KeepsMemOk (execArrCapDisableWrite n acc s) := .next h.writeReg
theorem State.memOk.armInject {n kind} : (s.armInject n kind).memOk := .ite h h.modArr

theorem State.memOk.execArrInjectOneByte {n acc} : KeepsMemOk (execArrInjectOneByte n acc s) :=
  .next (h.command fun h => .ite h.armInject h)

theorem State.memOk.execArrInjectTwoBytes {n acc} : KeepsMemOk (execArrInjectTwoBytes n acc s) :=
  .next (h.command fun h => .ite h.armInject h)

/-! ### The KV page manager (R177 to R187, R198 to R200) -/

theorem State.memOk.kvFetchFail {n f q e s0} : (s.kvFetchFail n f q e s0).memOk := h.kvNote.modArr.raiseIf.slotFaultAt

theorem State.memOk.execKvResolve {n} : KeepsMemOk (execKvResolve n s) := by
  refine .next ?_
  split
  · exact h
  · split
    · exact h
    · refine .ite h ?_
      extract_lets +onlyGivenNames _
      split
      · exact h.kvCheck.kvFetchFail
      · extract_lets +onlyGivenNames _
        split
        · exact h.kvCheck.kvEntry.kvFetchFail
        · extract_lets +onlyGivenNames _
          split
          exacts [h.kvCheck.kvEntry.kvInc.kvFetchFail, h.kvCheck.kvEntry.kvInc.modArr]

theorem State.memOk.execPinRelease {n} : KeepsMemOk (execPinRelease n s) := by
  refine .next ?_
  split
  · exact h
  · split
    · exact h
    · split
      · exact h
      · extract_lets +onlyGivenNames _ _ _ _ _
        split
        exacts [h.fromMem.modArr.kvDec, h.fromMem.modArr.kvDec.kvNote]

theorem State.memOk.kvPhase {n f q} : (s.kvPhase n f q).memOk := h.modArr

theorem State.memOk.kvTokens {n f q pool page} : (s.kvTokens n f q pool page).memOk :=
  .modArr (h.foldl fun h => h.store)

theorem State.memOk.kvStoreFail {n f q e queue} : (s.kvStoreFail n f q e queue).memOk := h.kvNote.kvPhase.slotFaultAt

theorem State.memOk.kvDecide {n f q} : (s.kvDecide n f q).memOk := by
  unfold State.kvDecide
  extract_lets +onlyGivenNames _ _ c
  have hc : c.1.memOk := h.kvCheck
  split
  · exact hc.kvStoreFail
  · refine .ite hc.kvPhase ?_
    extract_lets +onlyGivenNames _ _
    split
    · extract_lets +onlyGivenNames _
      split
      exacts [hc.kvEntry.kvAlloc.kvStoreFail, hc.kvEntry.kvAlloc.zero.kvPutEntry.kvTokens]
    · extract_lets +onlyGivenNames _
      split
      · exact hc.kvEntry.kvWord.kvStoreFail
      · refine .ite hc.kvEntry.kvWord.kvStoreFail (.ite hc.kvEntry.kvWord.kvTokens
          (.ite hc.kvEntry.kvWord.kvStoreFail ?_))
        extract_lets +onlyGivenNames _
        split
        exacts [hc.kvEntry.kvWord.kvAlloc.kvStoreFail, hc.kvEntry.kvWord.kvAlloc.kvSet.count.kvPhase]

theorem State.memOk.execKvWriteRequest {n} : KeepsMemOk (execKvWriteRequest n s) := by
  refine .next ?_
  split
  exacts [h, .ite h h.upd.kvDecide]

theorem State.memOk.execCowCopyDone {n} : KeepsMemOk (execCowCopyDone n s) := by
  refine .next ?_
  split
  exacts [h, .kvPhase (h.foldl fun h => h.load.store)]

theorem State.memOk.execCowCommit {n} : KeepsMemOk (execCowCommit n s) := by
  refine .next ?_
  split
  · exact h
  · extract_lets +onlyGivenNames _ _
    split
    exacts [h.kvSeq.kvDec.kvStoreFail, h.kvSeq.kvDec.kvSet.kvPutEntry.kvTokens]

theorem State.memOk.execKvWriteResume {n} : KeepsMemOk (execKvWriteResume n s) := by
  refine .next ?_
  split
  exacts [h, .ite h h.kvDecide]

/-- A plan whose page changes, and what it does after the last, keep the canonical form. -/
structure KvPlan.Keeps (p : KvPlan) : Prop where
  change : ∀ {s l b}, s.memOk → (p.change s l b).1.memOk
  last : ∀ {s}, s.memOk → (p.last s).memOk

omit h in
theorem KvPlan.Keeps.no {s cause} : (kvNo s cause).2.Keeps := ⟨id, id⟩

theorem State.memOk.kvCommand {id op plan} (hplan : ∀ {s c}, s.memOk → (plan s c).1.memOk ∧ (plan s c).2.Keeps) :
    (s.kvCommand id op plan).memOk := by
  refine h.listCommand fun h => ?_
  extract_lets +onlyGivenNames _ _ _ p done
  obtain ⟨hp, hkeep⟩ : p.1.memOk ∧ p.2.Keeps := hplan h
  have hdone {u : State} (hu : u.memOk) : (done u).memOk := .commandDone (.modJob (hkeep.last hu))
  refine .ite h (.ite h.kvNote.modJob.commandFailed (.ite h.kvNote.modJob.commandFailed
    (.ite hp.kvNote.modJob.commandFailed (.ite (hdone hp) ?_))))
  extract_lets +onlyGivenNames _ r
  have hr : r.1.memOk := hkeep.change hp
  split
  exacts [hr.kvNote.modJob.commandFailed, .ite hr.modJob (hdone hr)]

theorem State.memOk.execSeqOpen {j} : KeepsMemOk (execSeqOpen j s) := by
  refine .next (h.kvCommand fun h => ?_)
  extract_lets d
  have hd : d.1.memOk := h.kvSeq
  split
  · exact ⟨hd, .no⟩
  · split
    exacts [⟨hd, .no⟩, ⟨hd, id, fun h => h.store⟩]

theorem State.memOk.kvDrop {q layer block} : (kvDrop q s layer block).1.memOk := by
  unfold Machine.kvDrop
  extract_lets +onlyGivenNames _ _
  split
  · exact .fst h.kvEntry
  · extract_lets +onlyGivenNames _
    split
    exacts [.fst h.kvEntry.kvDec, .fst h.kvEntry.kvDec.kvPutEntry]

theorem State.memOk.execSeqClose {j} : KeepsMemOk (execSeqClose j s) := by
  refine .next (h.kvCommand fun h => ?_)
  extract_lets d
  have hd : d.1.memOk := h.kvSeq
  split
  exacts [⟨hd, .no⟩, ⟨hd, fun h => h.kvDrop, fun h => h.store⟩]

theorem State.memOk.kvShare {src dst layer block} : (kvShare src dst s layer block).1.memOk := by
  unfold Machine.kvShare
  extract_lets +onlyGivenNames _
  split
  · exact .fst h.kvEntry
  · extract_lets +onlyGivenNames _ _
    split
    · exact .fst h.kvEntry.kvEntry
    · extract_lets +onlyGivenNames _
      split
      exacts [.fst h.kvEntry.kvEntry.kvInc, .fst h.kvEntry.kvEntry.kvInc.kvPutEntry]

theorem State.memOk.execShare {j} : KeepsMemOk (execShare j s) := by
  refine .next (h.kvCommand fun h => ?_)
  extract_lets d q
  have hq : q.1.memOk := h.kvSeq.kvSeq
  split_ifs
  exacts [⟨hq, .no⟩, ⟨hq, .no⟩, ⟨hq, .no⟩, ⟨hq, .no⟩, ⟨hq, fun h => h.kvShare, id⟩]

theorem State.memOk.execFree {j} : KeepsMemOk (execFree j s) := by
  refine .next (h.kvCommand fun h => ?_)
  extract_lets d
  have hd : d.1.memOk := h.kvSeq
  split_ifs
  exacts [⟨hd, .no⟩, ⟨hd, .no⟩, ⟨hd, fun h => h.kvDrop, id⟩]

theorem State.memOk.kvGive {q layer block} : (kvGive q s layer block).1.memOk := by
  unfold Machine.kvGive
  extract_lets +onlyGivenNames _ _
  split
  · exact .fst h.kvEntry
  · extract_lets +onlyGivenNames _
    split
    exacts [.fst h.kvEntry.kvAlloc, .fst h.kvEntry.kvAlloc.zero.kvPutEntry]

theorem State.memOk.execAlloc {j} : KeepsMemOk (execAlloc j s) := by
  refine .next (h.kvCommand fun h => ?_)
  extract_lets d
  have hd : d.1.memOk := h.kvSeq
  split_ifs
  exacts [⟨hd, .no⟩, ⟨hd, .no⟩, ⟨hd, .no⟩, ⟨hd, fun h => h.kvGive, id⟩]

omit h in
theorem State.memOk.kvSweepPage {fmt p r page} (hr : r.1.memOk) :
    (kvSweepPage fmt p r page).1.memOk := by
  unfold Machine.kvSweepPage
  extract_lets +onlyGivenNames _ _
  split
  · exact .fst hr.store.upd.count
  · extract_lets +onlyGivenNames _
    split
    · exact .fst hr.kvWord
    · split
      · exact .fst hr.kvWord.store.upd.count
      · split
        exacts [.fst hr.kvWord, .fst hr.kvWord.store]

omit h in
theorem State.memOk.kvSweepPool {r p} (hr : r.1.memOk) :
    (State.kvSweepPool r p).1.memOk := by
  unfold State.kvSweepPool
  extract_lets +onlyGivenNames _ _ _ _ r1
  have hr1 : r1.1.memOk := .foldlFst (.fst hr) fun hr => hr.kvSweepPage
  exact .fst (hr1.foldl fun h => .ite h.kvReturn h)

theorem State.memOk.execKvSweepDone : KeepsMemOk (execKvSweepDone s) := by
  refine .next (.ite h ?_)
  extract_lets +onlyGivenNames _ _ r _
  have hr : r.1.memOk := .foldlFst (.fst (.foldl h.upd.put fun h => h.put)) fun hr => hr.kvSweepPool
  split
  exacts [hr.put.raise.kvNote, hr.put.raise]

theorem State.memOk.kvStart : s.kvStart.memOk := by
  unfold State.kvStart
  split
  exacts [h.put.put, h.put.put.put.upd]

theorem State.memOk.kvCtrl {w} : (s.kvCtrl w).memOk := by
  unfold State.kvCtrl
  extract_lets +onlyGivenNames s1
  have h1 : s1.memOk := .ite h.put h
  exact .ite (.ite h1.kvStart h1) (.ite h1.put.put h1)

theorem State.memOk.execKvEnable {acc} : KeepsMemOk (execKvEnable acc s) := .next (h.command fun h => h.kvCtrl)
theorem State.memOk.execKvDisable {acc} : KeepsMemOk (execKvDisable acc s) := .next (h.command fun h => h.kvCtrl)
theorem State.memOk.execKvResume {acc} : KeepsMemOk (execKvResume acc s) := .next (h.command fun h => h.kvCtrl)

end Sys2Proof.Machine
end

section
/-! SUPPORT. Queues, journal, ingress, wards and fusion keep the canonical form of device memory (O59). -/

namespace Sys2Proof.Machine

variable {s : State} (h : s.memOk)
include h

/-! ### Commands of queues and jobs (R331 to R366) -/

theorem State.memOk.execQengEnable {acc} : KeepsMemOk (execQengEnable acc s) :=
  .next (h.command fun h => .ite (.ite h (.ite h.put.put h.put.raise)) h.put.put)

theorem State.memOk.queueResult {cause} : (s.queueResult cause).memOk := h.put.putB.put
theorem State.memOk.farmIdle1 : s.farmIdle1.memOk := .ite h.put h

theorem State.memOk.queueEnable {q} : (s.queueEnable q).memOk := by
  refine .ite h.queueResult (.ite h.queueResult (.ite h.queueResult (.ite h.load.queueFault.queueResult ?_)))
  split
  exacts [h.load.setQueue.upd.farmIdle1.queueResult, h.load.queueResult]

theorem State.memOk.queueCommand {acc op act} (hact : ∀ {s a}, s.memOk → (act s a).memOk) :
    (s.queueCommand acc op act).memOk :=
    h.command fun h => .ite (hact h) h

theorem State.memOk.execQEnable {acc} : KeepsMemOk (execQEnable acc s) := .next (h.queueCommand fun h => h.queueEnable)

theorem State.memOk.execQDisable {acc} : KeepsMemOk (execQDisable acc s) :=
  .next (h.queueCommand fun h => .ite h.queueResult (.ite h.setQueue.queueResult.put h.queueResult))

theorem State.memOk.execQWriteback {q} : KeepsMemOk (execQWriteback q s) := .next (.ite h.store.setQueue.put h)

theorem State.memOk.execResetIndices {acc} : KeepsMemOk (execResetIndices acc s) :=
  .next (h.queueCommand fun h => .ite h.queueResult (.ite h.queueResult h.store.setQueue.queueResult))

theorem State.memOk.bar4Read {q} : (s.bar4Read q).memOk := h.emit

theorem State.memOk.execDoorbell {q be index poisoned} : KeepsMemOk (execDoorbell q be index poisoned s) := by
  refine .next (.ite h ?_)
  split
  exacts [h.bar4Read, .ite h.poisonedIn (.ite h (.ite h.count h.closeHostData.doorbell))]

theorem State.memOk.readHeader {a} : (s.readHeader a).1.memOk := by
  unfold State.readHeader
  exact .fst h.load

theorem State.memOk.popDescriptor {q} : (s.popDescriptor q).1.memOk := by
  unfold State.popDescriptor
  exact .fst h.load.setQueue.upd

theorem State.memOk.readTds {j} : (s.readTds j).1.memOk := by
  unfold State.readTds
  split
  exacts [.fst h, .fst h.load]

theorem State.memOk.checkTaken {j poisoned} : (s.checkTaken j poisoned).1.memOk := by
  unfold State.checkTaken
  extract_lets +onlyGivenNames hd _ t
  have hhd : hd.1.memOk := by
    unfold hd
    split
    exacts [h.readHeader, .fst h]
  refine .fst ?_
  unfold t
  split
  exacts [hhd.readTds, .fst hhd]

theorem State.memOk.execJobTake : KeepsMemOk (execJobTake s) := by
  refine .next (.ite h ?_)
  split
  exacts [h, .ite h.popDescriptor.checkTaken.upd.count h.popDescriptor.checkTaken.upd.raiseIf]

theorem State.memOk.tellIslands {j release status flags} : (s.tellIslands j release status flags).memOk := h.upd
theorem State.memOk.recordChoice {j alt b} : (s.recordChoice j alt b).memOk := h.record
theorem State.memOk.releaseWith {j alt b} : (s.releaseWith j alt b).memOk := .ite h.setJob.upd.recordChoice h.setJob.upd
theorem State.memOk.notPlaceable {j} : (s.notPlaceable j).memOk := h.setJob.count.raiseIf

theorem State.memOk.execJobRelease {id} : KeepsMemOk (execJobRelease id s) := by
  refine .next ?_
  split
  · exact h
  · refine .ite h ?_
    extract_lets +onlyGivenNames tell
    have htell {u : State} (hu : u.memOk) : (tell u).memOk := .ite hu.tellIslands.put hu
    refine .ite (htell h).releaseWith ?_
    extract_lets +onlyGivenNames a _ _ choice
    have ha : a.1.memOk := by
      unfold a
      split
      exacts [h.readHeader, .fst h]
    clear_value choice
    split
    exacts [.ite (htell ha).releaseWith ha.replayStop, .ite (htell ha).releaseWith ha.replayStop,
      .ite (htell ha).releaseWith (.ite (htell ha).releaseWith (htell ha).notPlaceable)]

theorem State.memOk.detPair {run rec} : (s.detPair run rec).memOk := by
  refine .ite h.count (.ite h.count ?_)
  extract_lets +onlyGivenNames _ _ _ _ _ _ s2
  have h2 : s2.memOk := .ite h.put.raise.replayStop h.put.raise
  exact .ite h2.upd.put h2

theorem State.memOk.detOverflow : s.detOverflow.memOk := h.put.raise

theorem State.memOk.detAdd {e run} : (s.detAdd e run).memOk := by
  refine .ite h ?_
  refine .ite ?_ ?_
  · split
    exacts [h.upd.detPair, .ite h.upd h.detOverflow]
  · split
    exacts [h.upd.detPair, .ite h.upd h.detOverflow]

theorem State.memOk.checkpoint {j} : (s.checkpoint j).memOk := h.record
theorem State.memOk.jobSignals {j} : (s.jobSignals j).memOk := .ite (h.foldl fun h => .ite h.fenceAdd h) h

theorem State.memOk.jobDone {j} : (s.jobDone j).memOk := by
  unfold State.jobDone
  extract_lets +onlyGivenNames _ _ _ s3 s4 us _ _ s5
  have h3 : s3.memOk := .jobSignals (.ite h.redRelease.upd.checkpoint.detAdd h.redRelease.upd)
  have h4 : s4.memOk := .ite h3.count.raise h3
  have hus : us.2.memOk := by
    unfold us
    split
    exacts [.snd h4, h4.fresh]
  have h5 : s5.memOk := .ite hus.complete.count.put hus.complete.count
  exact .ite h5.setQueue.upd.upd.tellIslands.put h5.setQueue.upd

theorem State.memOk.execJobComplete {id} : KeepsMemOk (execJobComplete id s) := by
  refine .next ?_
  split
  exacts [h, .ite h.jobDone h]

theorem State.memOk.execCompletionRecord {cq} : KeepsMemOk (execCompletionRecord cq s) := by
  refine .next ?_
  split
  exacts [h, .ite h.upd.cqWrite h]

theorem State.memOk.abortJob {j} : (s.abortJob j).memOk := by
  unfold State.abortJob
  split
  exacts [.ite h.setJob.stopSlots h.setJob, h, h.setJob]

theorem State.memOk.execQengAbort {acc} : KeepsMemOk (execQengAbort acc s) := by
  refine .next (h.command fun h => .ite ?_ h)
  split
  exacts [h.queueResult, .ite h.abortJob.queueResult h.queueResult]

theorem State.memOk.dmaStore {dst ws} : (s.dmaStore dst ws).memOk := h.foldl fun h => h.store

theorem State.memOk.dmaLoad {a n} : (s.dmaLoad a n).1.memOk := by
  unfold State.dmaLoad
  exact .foldlFst (.fst h) fun hp => .fst hp.load

theorem State.memOk.dmaPut {j toHost dst ws} : (s.dmaPut j toHost dst ws).memOk := .dmaEnd (.ite h.hostWrite h.dmaStore)

theorem State.memOk.execCopy {id} : KeepsMemOk (execCopy id s) :=
  .next (h.listCommand fun h => .ite h.commandFailed (.ite h.modJob.hostRequest h.dmaLoad.dmaPut))

theorem State.memOk.execFill {id} : KeepsMemOk (execFill id s) :=
  .next (h.listCommand fun h => .ite h.commandFailed h.dmaPut)

theorem State.memOk.execFenceInc {acc} : KeepsMemOk (execFenceInc acc s) :=
  .next (h.command fun h => .ite h (.ite h.count h.publish.fenceAdd))

theorem State.memOk.execFenceSet {acc} : KeepsMemOk (execFenceSet acc s) :=
  .next (h.command fun h => .ite h (.ite h.raise h.upd))

/-! ### Recordings and replays (R321 to R330, R337) -/

theorem State.memOk.segmentStart : s.segmentStart.memOk := h.record
theorem State.memOk.segmentEnd : s.segmentEnd.memOk := h.closeHostData.record
theorem State.memOk.recordStart : s.recordStart.memOk := h.put.put.segmentStart
theorem State.memOk.replayStart : s.replayStart.memOk := h.put.put.put.upd

theorem State.memOk.jrnMode {mode} : (s.jrnMode mode).memOk :=
  .ite (.ite h (.ite h.segmentEnd.put.put h.replayStop.put)) (.ite h (.ite h.put
    (.ite h.closeHostData.put.recordStart h.closeHostData.put.replayStart)))

theorem State.memOk.jrnCtrl {w} : (s.jrnCtrl w).memOk := by
  unfold State.jrnCtrl
  extract_lets +onlyGivenNames _ s2
  have h2 : s2.memOk := .ite h.jrnMode.segmentEnd.segmentStart h.jrnMode
  exact .ite h2.replayStop h2

theorem State.memOk.execRecord {acc} : KeepsMemOk (execRecord acc s) := .next (h.command fun h => h.jrnCtrl)
theorem State.memOk.execReplay {acc} : KeepsMemOk (execReplay acc s) := .next (h.command fun h => h.jrnCtrl)
theorem State.memOk.execJrnOff {acc} : KeepsMemOk (execJrnOff acc s) := .next (h.command fun h => h.jrnCtrl)
theorem State.memOk.execSegment {acc} : KeepsMemOk (execSegment acc s) := .next (h.command fun h => h.jrnCtrl)
theorem State.memOk.execJrnStop {acc} : KeepsMemOk (execJrnStop acc s) := .next (h.command fun h => h.jrnCtrl)
theorem State.memOk.execJournalWrite : KeepsMemOk (execJournalWrite s) := .next h.journalWrite
theorem State.memOk.farmBegin : s.farmBegin.memOk := h.put.put.upd

theorem State.memOk.execHeaderCheckDone : KeepsMemOk (execHeaderCheckDone s) :=
  .next (.ite h (.ite h.replayStop.raise (.ite h.replayStop (.ite h.replayStop
    (.ite h.replayStop h.put.put.farmBegin.upd)))))

theorem State.memOk.putPos {p} : (s.putPos p).memOk := h.put.put
theorem State.memOk.farmHold : s.farmHold.memOk := .ite h.put h
theorem State.memOk.replayTake : s.replayTake.memOk := h.putPos.put.put.put.upd.farmHold
theorem State.memOk.execReplayStall : KeepsMemOk (execReplayStall s) := .next (.ite h.raise h)
theorem State.memOk.execHostDataRecordClose : KeepsMemOk (execHostDataRecordClose s) := .next h.closeHostData

/-! ### Sensor ingress (R202 to R218, R224 to R228) -/

theorem State.memOk.setStream {n v} : (s.setStream n v).memOk := h.upd
theorem State.memOk.modStream {n f} : (s.modStream n f).memOk := h.setStream
theorem State.memOk.putStreamOn {n b} : (s.putStreamOn n b).memOk := h.put

theorem State.memOk.placeData {n len} : ∀ p ∈ s.placeData n len, p.2.memOk := by
  unfold State.placeData
  rintro p hp
  obtain ⟨o, -, rfl⟩ := Option.map_eq_some_iff.1 hp
  exact h.setStream

theorem State.memOk.health {n cause d} : (s.health n cause d).memOk := .ite h h.modStream
theorem State.memOk.healthZero {n} : (s.healthZero n).memOk := h.health
theorem State.memOk.healthBad {n} : (s.healthBad n).memOk := h.health
theorem State.memOk.dropItem {n} : (s.dropItem n).memOk := h.modStream.raise.healthBad
theorem State.memOk.dropNumbered {n r} : (s.dropNumbered n r).memOk := h.modStream.raise.healthBad

theorem State.memOk.streamEnable {n} : (s.streamEnable n).memOk :=
  .ite h.load.putStreamOn.modStream h.load.put.put.raise

theorem State.memOk.storeItem {n flags ts data last} : (s.storeItem n flags ts data last).memOk := by
  unfold State.storeItem
  split
  next => exact h.dropItem
  next heq => exact State.memOk.modStream (h.placeData _ heq)

theorem State.memOk.passItem {n flags ts data last} : (s.passItem n flags ts data last).memOk := by
  unfold State.passItem
  split
  exacts [h.dropItem, .ite h.modStream.emit h.dropItem]

theorem State.memOk.newItem {n flags ts data last} : (s.newItem n flags ts data last).memOk :=
  .ite h.count (.ite h.storeItem (.ite h.storeItem h.passItem))

theorem State.memOk.portItem {n place data} : (s.portItem n place data).memOk := h.modStream.upd.newItem

theorem State.memOk.commitRecord {n r} : (s.commitRecord n r).memOk := by
  unfold State.commitRecord
  extract_lets +onlyGivenNames _ _ _ _ _ _ _ s4
  have h4 : s4.memOk := .modStream (.fenceAdd (.publish (.ringEntry (.ite h.store h))))
  exact .ite h4.upd h4

theorem State.memOk.popReady {n} : (s.popReady n).memOk := h.modStream

theorem State.memOk.itemCounts {n r} : (s.itemCounts n r).memOk := by
  unfold State.itemCounts
  extract_lets +onlyGivenNames s1
  have h1 : s1.memOk := .ite h.count h
  exact .ite (.ite h1.count h1) (.ite h1.count h1)

theorem State.memOk.ignoreFront {n} : (s.ignoreFront n).memOk := by
  unfold State.ignoreFront
  split
  exacts [h, .ite h.popReady.modStream.count h.popReady.modStream]

theorem State.memOk.execItemCommit {n} : KeepsMemOk (execItemCommit n s) := by
  refine .next (.ite h.ignoreFront ?_)
  split
  · exact h
  · exact .ite h (.ite h.popReady.commitRecord (.ite h.popReady.commitRecord.itemCounts.healthBad
      h.popReady.commitRecord.itemCounts.health))

theorem State.memOk.execDropRecord {n} : KeepsMemOk (execDropRecord n s) := by
  refine .next (.ite h.ignoreFront ?_)
  split
  exacts [h, .ite h h.popReady.commitRecord]

theorem State.memOk.execStale {n} : KeepsMemOk (execStale n s) := .next (.ite h.health.raise h)
theorem State.memOk.frameDrop {n} : (s.frameDrop n).memOk := .ite h.modStream.dropItem h

theorem State.memOk.streamStop {n} : (s.streamStop n).memOk :=
  .ite (.modStream (.frameDrop (.modStream (.foldl h.putStreamOn fun h => h.dropNumbered)))) h

theorem State.memOk.streamEnWrite {k w} : (s.streamEnWrite k w).memOk :=
  h.foldl fun h => .ite (.ite h h.streamEnable) h.streamStop

theorem State.memOk.execStreamEnable {n acc} : KeepsMemOk (execStreamEnable n acc s) :=
  .next (h.command fun h => h.streamEnWrite)

theorem State.memOk.execStreamDisable {n acc} : KeepsMemOk (execStreamDisable n acc s) :=
  .next (h.command fun h => h.streamEnWrite)

theorem State.memOk.execIngEnable {acc} : KeepsMemOk (execIngEnable acc s) :=
  .next (h.command fun h => .ite h.put (.foldl h.put fun h => h.streamStop))

theorem State.memOk.frameItem {n f flags last} : (s.frameItem n f flags last).memOk := h.upd.newItem

theorem State.memOk.stampWaiting {n line} : (s.stampWaiting n line).memOk := by
  unfold State.stampWaiting
  extract_lets +onlyGivenNames _
  split
  exacts [h, h.upd.modStream]

theorem State.memOk.lastSlab {n f} : (s.lastSlab n f).memOk := by
  unfold State.lastSlab
  split
  exacts [h, .ite h (.ite h.modStream h.count)]

theorem State.memOk.embTest {r v f} : (s.embTest r v f).memOk := .ite h (.ite h h.satInc.raise.health)

theorem State.memOk.frameEnd {r v flags} : (s.frameEnd r v flags).memOk := by
  unfold State.frameEnd
  extract_lets +onlyGivenNames _
  split
  exacts [h, .embTest (.ite h.modStream.lastSlab h.modStream.frameItem)]

theorem State.memOk.csiStart {r v} : (s.csiStart r v).memOk := .modStream (.ite h.frameEnd.satInc.raise h)

theorem State.memOk.csiLine {r v dt crcOk payload} : (s.csiLine r v dt crcOk payload).memOk := by
  unfold State.csiLine
  extract_lets +onlyGivenNames _ _
  split
  · exact h
  · exact .ite (.ite h.setStream.stampWaiting h.setStream) (.ite h (.ite h.setStream.frameItem h.setStream))

theorem State.memOk.csiDamage {r slots} : (s.csiDamage r slots).memOk := h.foldl fun h => h.modStream

theorem State.memOk.execCsiPacket {r p} : KeepsMemOk (execCsiPacket r p s) := by
  refine .next (.ite h (.ite h.satInc.raise.csiDamage ?_))
  extract_lets +onlyGivenNames s1
  have h1 : s1.memOk := .ite h.satInc h
  split
  · exact h1
  · exact h1.foldl fun h => h.csiStart
  · exact h1.foldl fun h => h.frameEnd
  · exact .foldl (.ite h1 h1.satInc.raise) fun h => h.csiLine

theorem State.memOk.execCsiLinkChange {r link deskewed} : KeepsMemOk (execCsiLinkChange r link deskewed s) :=
  .next (.ite h.putB.putB.raiseIf h)

theorem State.memOk.execEthFrame {m f} : KeepsMemOk (execEthFrame m f s) := by
  refine .next (.ite h (.ite h.satInc.raise (.ite h ?_)))
  split
  exacts [h.satInc.raise, .ite h.portItem h]

theorem State.memOk.execEthLinkChange {m blockLock fecLock link} :
    KeepsMemOk (execEthLinkChange m blockLock fecLock link s) :=
    .next (.ite h.putB.putB.putB.raiseIf h)

theorem State.memOk.islandItem {i n place data} : (s.islandItem i n place data).memOk :=
  .ite h (.ite h.count (.ite h.dropItem h.portItem))

theorem State.memOk.execSpiFrame {i data} : KeepsMemOk (execSpiFrame i data s) := .next (.ite h.islandItem h)
theorem State.memOk.execCanFdFrame {i ctl f} : KeepsMemOk (execCanFdFrame i ctl f s) := .next h.islandItem

theorem State.memOk.xsPoison {n} : (s.xsPoison n).memOk := by
  refine h.foldl fun h => .ite ?_ h
  split
  next => exact h.dropNumbered
  next heq => exact State.memOk.modStream (h.placeData _ heq)

theorem State.memOk.xsLost : s.xsLost.memOk :=
  h.foldl fun h => .ite (.ite h.xsPoison h.xsPoison.putStreamOn.frameDrop.modStream.healthZero) h

/-! ### Wards (R219 to R223) -/

theorem State.memOk.wardOutcome {n stage} : (s.wardOutcome n stage).memOk := by
  unfold State.wardOutcome
  extract_lets +onlyGivenNames _
  split
  exacts [h.modStream.health, h.modStream.put.put.count.raise.health]

theorem State.memOk.execWardPoint {n} : KeepsMemOk (execWardPoint n s) := by
  refine .next (.ite h (.ite h.load ?_))
  extract_lets +onlyGivenNames _ _ _ _ _ got
  have hgot : got.2.memOk := by
    unfold got
    split
    exacts [h.load.load.setStream.fresh, .snd h.load.load.setStream]
  exact .ite hgot.wardOutcome (.ite hgot hgot.wardOutcome)

theorem State.memOk.wardStart {k n w} : (s.wardStart k n w).memOk := h.load.upd.modArr.modStream
theorem State.memOk.wardDefer {k} : (s.wardDefer k).memOk := h.modStream.raise

theorem State.memOk.execWardRun {n a} : KeepsMemOk (execWardRun n a s) := by
  refine .next ?_
  split
  exacts [h, .ite h (.ite (.ite h.wardDefer (.ite h.wardStart h)) (.ite h.wardStart h))]

theorem State.memOk.wardSaveLb {n} : (s.wardSaveLb n).memOk :=
  memWf_foldl (fun h => memWf_cellSet _ _ h) h.zero

theorem State.memOk.wardLoadLb {n} : (s.wardLoadLb n).memOk := .modArr (h.foldl fun h => h.logRead)

theorem State.memOk.execPreempt {n} : KeepsMemOk (execPreempt n s) := by
  refine .next ?_
  split
  · exact h
  · refine .ite h ?_
    split
    exacts [h, .ite h h.haltArr.wardSaveLb.count.raise.put.put.wardStart]

theorem State.memOk.wardRestore {v} : (s.wardRestore v).memOk := by
  unfold State.wardRestore
  extract_lets +onlyGivenNames _ _ _ s2
  have h2 : s2.memOk := .foldl h.setArr.wardLoadLb fun h => h.putWord
  split
  exacts [.ite h2 h2.programIn, h2]

theorem State.memOk.wardGiveBack {w} : (s.wardGiveBack w).memOk := by
  unfold State.wardGiveBack
  split
  exacts [h.wardRestore, h]

theorem State.memOk.wardGone {j} : (s.wardGone j).memOk := h.redRelease.upd
theorem State.memOk.wardCharge {d us} : (s.wardCharge d us).memOk := h.put

theorem State.memOk.execWardJobDone {n us} : KeepsMemOk (execWardJobDone n us s) := by
  refine .next ?_
  split
  · exact .ite h (.ite h.wardGone.wardGiveBack.wardCharge.wardOutcome
      (.ite h.wardGone.wardGiveBack.wardCharge.wardOutcome h.wardGone.wardGiveBack.wardCharge.wardOutcome))
  · exact h

theorem State.memOk.execOverrun {n} : KeepsMemOk (execOverrun n s) := by
  refine .next ?_
  split
  exacts [.ite h h.wardGone.wardGiveBack.wardCharge.raise.wardOutcome, h]

theorem State.memOk.execWardBudgetRefill {d} : KeepsMemOk (execWardBudgetRefill d s) := .next (.ite h h.put)

/-! ### Ego motion (R229 to R237) -/

theorem State.memOk.writePose {gap t pos w} : (s.writePose gap t pos w).memOk := h.store.count.upd

theorem State.memOk.egoBiases : s.egoBiases.memOk := by
  unfold State.egoBiases
  split
  exacts [.ite h.upd h, h]

theorem State.memOk.egoReady : s.egoReady.memOk := h.foldl fun h => h.egoBiases

theorem State.memOk.egoAccept {i} : (s.egoAccept i).memOk :=
  .ite h.upd.put.writePose (.ite h.upd.satInc.raise.writePose h.upd.writePose)

theorem State.memOk.execInertialItem : KeepsMemOk (execInertialItem s) := by
  refine .next ?_
  split
  · exact h.egoReady
  · exact .ite h.egoReady (.ite h.egoReady.upd.put.raiseIf (.ite h.egoReady.upd.put.raiseIf.satInc.raise
      h.egoReady.upd.put.raiseIf.egoAccept))

theorem State.memOk.execWheelItem : KeepsMemOk (execWheelItem s) := by
  refine .next ?_
  split
  exacts [h.egoReady, .ite h.egoReady (.ite h.egoReady.upd h.egoReady.upd)]

theorem State.memOk.execEgoEnable {acc} : KeepsMemOk (execEgoEnable acc s) :=
  .next (h.command fun h => .ite (.ite h h.put.put.put.upd) h.put.put.upd)

/-! ### Projection (R238 to R247) -/

theorem State.memOk.execProjEnable {acc} : KeepsMemOk (execProjEnable acc s) := by
  refine .next (h.command fun h => .ite (.ite h ?_) h.put.put)
  split
  exacts [h.put.put.raise, h.put.put]

theorem State.memOk.ringCheck : s.ringCheck.memOk := h.raiseIf
theorem State.memOk.projFail {j} : (s.projFail j).memOk := h.commandFailed
theorem State.memOk.poseMark {j b} : (s.poseMark j b).memOk := .ite h.modJob h

theorem State.memOk.projPut {j b items} : (s.projPut j b items).memOk := by
  unfold State.projPut
  exact h.store.count.count.raiseIf.ringCheck.commandDone

theorem State.memOk.projStart {j b run} (hrun : ∀ {s a}, s.memOk → (run s a).memOk) : (s.projStart j b run).memOk := by
  refine .ite h.projFail ?_
  split
  exacts [h, h.projFail, .ite h.poseMark.load.projFail (hrun h.poseMark.load)]

theorem State.memOk.projRun {j b run} : (s.projRun j b run).memOk := h.projStart fun h => h.projPut
theorem State.memOk.execP2i {id} : KeepsMemOk (execP2i id s) := .next (h.listCommand fun h => h.projRun)
theorem State.memOk.execP2g {id} : KeepsMemOk (execP2g id s) := .next (h.listCommand fun h => h.projRun)
theorem State.memOk.execF2g {id} : KeepsMemOk (execF2g id s) := .next (h.listCommand fun h => h.projRun)

theorem State.memOk.projValues {j b run} (hrun : ∀ {s a}, s.memOk → (run s a).memOk) : (s.projValues j b run).memOk :=
  h.projStart fun h => hrun h

theorem State.memOk.execDelta {id} : KeepsMemOk (execDelta id s) :=
  .next (h.listCommand fun h => h.projValues fun h => .ite h.upd.commandDone h.projFail)

theorem State.memOk.execBias {id} : KeepsMemOk (execBias id s) := by
  refine .next (h.listCommand fun h => .ite h (h.projValues fun h => ?_))
  extract_lets +onlyGivenNames _ s0
  have h0 : s0.memOk := .ite h.replayTake h
  exact .commandDone (.ite h0.publish h0.publish.upd)

/-! ### Fusion (R248 to R270) -/

theorem State.memOk.modSensor {j f} : (s.modSensor j f).memOk := h.upd
theorem State.memOk.fusFlush : s.fusFlush.memOk := h.foldl fun h => .ite h.ringEntry.upd h
theorem State.memOk.fusRecord {r} : (s.fusRecord r).memOk := h.upd.fusFlush
theorem State.memOk.correction {l action j} : (s.correction l action j).memOk := h.fusRecord
theorem State.memOk.fusIdle : s.fusIdle.memOk := .ite h.put.put h.put
theorem State.memOk.fusShow : s.fusShow.memOk := h.put.put
theorem State.memOk.fusFail {q i} : (s.fusFail q i).memOk := h.modJob

theorem State.memOk.fusFailAll : s.fusFailAll.memOk := by
  unfold State.fusFailAll
  extract_lets +onlyGivenNames s1
  have h1 : s1.memOk := h.foldl fun h => h.fusFail
  exact h1.upd.put

theorem State.memOk.fusClearGrid : s.fusClearGrid.memOk := h.zero.upd

theorem State.memOk.fusCtrl {w} : (s.fusCtrl w).memOk := by
  unfold State.fusCtrl
  extract_lets +onlyGivenNames s
  have h : s.memOk := .ite h.zero.put h
  exact .ite (.ite h (.ite h.put h.zero.fusClearGrid.put.put.upd.put)) (.ite h.fusFailAll.put.put h)

theorem State.memOk.execFusEnable {acc} : KeepsMemOk (execFusEnable acc s) := .next (h.command fun h => h.fusCtrl)
theorem State.memOk.execFusResume {acc} : KeepsMemOk (execFusResume acc s) := .next (h.command fun h => h.fusCtrl)

theorem State.memOk.execInstantRequest {id} : KeepsMemOk (execInstantRequest id s) := by
  refine .next ?_
  split
  · exact h
  · exact .ite h (.ite h.fusFail (.ite h.load.put.fusFail (.ite h.load.put.fusFail h.load.modJob.upd.fusShow)))

theorem State.memOk.setInstant {p} : (s.setInstant p).memOk := h.upd

theorem State.memOk.execFusionTimeout {sensor} : KeepsMemOk (execFusionTimeout sensor s) := by
  refine .next ?_
  split
  exacts [h, .ite h h.fusRecord.publish.setInstant.raise]

theorem State.memOk.execInstantRelease : KeepsMemOk (execInstantRelease s) := by
  refine .next ?_
  split
  · exact h
  · refine .ite ?_ (.ite h h.record.setInstant)
    split
    exacts [.ite h.setInstant h, h]

theorem State.memOk.lateEnter {l} : (s.lateEnter l).memOk := .ite h.upd (.ite h.upd h.satInc.raise.correction)

theorem State.memOk.lateCheck {i} : (s.lateCheck i).memOk := by
  refine .ite h ?_
  split
  exacts [h, h.upd.raise.lateEnter]

theorem State.memOk.inputErr : s.inputErr.memOk := h.count

theorem State.memOk.execFusionInput {sensor seq} : KeepsMemOk (execFusionInput sensor seq s) := by
  refine .next (.ite h (.ite h.load.inputErr ?_))
  extract_lets +onlyGivenNames _ _ s1
  have h1 : s1.memOk := .ite h.load.inputErr h.load
  exact h1.upd.lateCheck

theorem State.memOk.fusAccount {cells p u} : (s.fusAccount cells p u).memOk := .ite h.modSensor.health h.modSensor

theorem State.memOk.fusTracks {number dt pl pt ds} : (s.fusTracks number dt pl pt ds).1.memOk := by
  unfold State.fusTracks
  refine .foldlFst (.fst h) fun hp => ?_
  extract_lets +onlyGivenNames _ _ _
  split
  exacts [.fst hp.load.upd.put.put, .fst (.ite hp.load.store hp.load.store.upd)]

theorem State.memOk.newTracks {number live0 ds} : (s.newTracks number live0 ds).memOk :=
  h.foldl fun h => .ite (.ite h h.store.upd) (.ite h h.inputErr)

theorem State.memOk.fusFault : s.fusFault.memOk := h.fusFailAll.put.put.raise

theorem State.memOk.fusLateEnd {p r settled} : (s.fusLateEnd p r settled).memOk := by
  unfold State.fusLateEnd
  extract_lets +onlyGivenNames s1 _ _ _ _ s3
  have h1 : s1.memOk := h.foldl fun h => h.correction
  have h3 : s3.memOk := .foldl h1.upd.satAdd fun h => h.lateEnter
  exact h3.foldl fun h => h.lateCheck

theorem State.memOk.fusResult {p r parts failed settled} : (s.fusResult p r parts failed settled).memOk := by
  unfold State.fusResult
  extract_lets +onlyGivenNames _ _ s2
  have h2 : s2.memOk := .modJob (h.foldl fun h => .ite h h.store)
  exact h2.upd.put.put.fusShow.fusLateEnd.raise

theorem State.memOk.fusProcess {p r missing} : (s.fusProcess p r missing).memOk := by
  unfold State.fusProcess
  extract_lets +onlyGivenNames f _
  have hf : f.2.memOk := .snd h
  refine .ite hf.fusFault ?_
  extract_lets +onlyGivenNames _ _ _ _ _ _ _ _ _ _ _ _ _ _ _ _ _ _ s6
  have h6 : s6.memOk := .raiseIf (.raiseIf (.raiseIf (.put (.put (.foldl hf.storeRaw.fusTracks.newTracks
    fun h => h.fusAccount)))))
  exact h6.upd.ringCheck.fusResult

theorem State.memOk.execInstantInputsReady : KeepsMemOk (execInstantInputsReady s) := by
  refine .next ?_
  split
  exacts [h, .ite h.fusProcess h]

theorem State.memOk.execInstantDeadline : KeepsMemOk (execInstantDeadline s) := by
  refine .next ?_
  split
  exacts [h, .ite h h.fusProcess]

end Sys2Proof.Machine
end

section
/-! SUPPORT. Collision, planning, the host link and Xagus keep the canonical form of device memory (O59). -/

namespace Sys2Proof.Machine

variable {s : State} (h : s.memOk)
include h

/-! ### Collision (R272 to R289, R306 to R310) -/

theorem State.memOk.collBases : s.collBases.memOk := h.upd

theorem State.memOk.execCollEnable {acc} : KeepsMemOk (execCollEnable acc s) :=
  .next (h.command fun h => .ite (.ite h (.ite h.collBases.put.put h.put)) h.put.put)

theorem State.memOk.buildGrid {b margin} : (s.buildGrid b margin).1.memOk :=
  .fst (.foldl h.zero fun h => h.poke)

theorem State.memOk.collShow : s.collShow.memOk := h.put.put
theorem State.memOk.collSignal {valid object} : (s.collSignal valid object).memOk := .ite h.fenceAdd h
theorem State.memOk.publishFail {j b cause} : (s.publishFail j b cause).memOk := h.put.put.raise.raiseIf.commandFailed

theorem State.memOk.execPublish {id} : KeepsMemOk (execPublish id s) :=
  .next (h.listCommand fun h => .ite h (.ite h.publishFail (.ite h.publishFail
    (.ite h.load.publishFail (.ite h.load.publishFail h.load.modJob.put.upd)))))

theorem State.memOk.buildOver : s.buildOver.memOk := h.put.upd
theorem State.memOk.makeCurrent {b sat} : (s.makeCurrent b sat).memOk := h.upd.put.pokeNat.put.collShow

theorem State.memOk.execGridBuildDone : KeepsMemOk (execGridBuildDone s) := by
  refine .next ?_
  split
  · exact h
  · split
    · split
      exacts [h.buildOver.publishFail, h.buildOver]
    · refine .ite h ?_
      extract_lets +onlyGivenNames _ _ s2
      have h2 : s2.memOk := .makeCurrent (.buildOver (.ite h.buildGrid.replayTake h.buildGrid))
      exact h2.publish.collSignal.raise.raiseIf.commandDone

theorem State.memOk.execRetire : KeepsMemOk (execRetire s) := by
  refine .next ?_
  split
  exacts [h, h.upd.collShow.collSignal]

theorem State.memOk.execReflexQuery {u} : KeepsMemOk (execReflexQuery u s) := by
  refine .next ?_
  split
  exacts [h, .ite h h.pokeNat.pokeNat.upd]

theorem State.memOk.execReflexVerdict {u ns} : KeepsMemOk (execReflexVerdict u ns s) := by
  refine .next ?_
  split
  · exact h
  · extract_lets +onlyGivenNames _ _ _ _ _ s3
    have h3 : s3.memOk := .ite h.upd.poke.count.count h.upd.poke.count
    exact .putMax (.raiseIf (.ite h3.count.raise h3))

/-! ### Sending over Xagus (R411, R412, R416) -/

theorem State.memOk.setXl {l v} : (s.setXl l v).memOk := h.upd
theorem State.memOk.xEmit {l f} : (s.xEmit l f).memOk := h.emit

theorem State.memOk.xPut {l f} : (s.xPut l f).memOk := by
  unfold State.xPut
  extract_lets +onlyGivenNames _ _ _ _ _ s2
  have h2 : s2.memOk := .ite h.setXl.count h.setXl
  exact .ite h2 h2.xEmit

theorem State.memOk.xTransmit {l f} : (s.xTransmit l f).memOk := .ite h.setXl h.xPut
theorem State.memOk.xDrain {l} : (s.xDrain l).memOk := .foldl h.setXl fun h => h.xTransmit

theorem State.memOk.xSend {f} : (s.xSend f).memOk := by
  unfold State.xSend
  split
  exacts [h.xTransmit, h]

theorem State.memOk.twinFrame {typ payload} : (s.twinFrame typ payload).memOk := h.xTransmit.xTransmit

theorem State.memOk.twinSend {slot number flags digest} : (s.twinSend slot number flags digest).memOk :=
  .ite (.twinFrame (.ite h.upd.twinFrame h.upd)) h

/-! ### Planning (R290 to R309) -/

theorem State.memOk.planShow : s.planShow.memOk := h.put.put.put
theorem State.memOk.execLoad {id} : KeepsMemOk (execLoad id s) := .next (h.listCommand fun h => .ite h h.modJob.upd)

theorem State.memOk.loadFail {j cause index bad} : (s.loadFail j cause index bad).memOk :=
  h.put.put.raise.raiseIf.commandFailed

theorem State.memOk.execRoadmapCheck {id} : KeepsMemOk (execRoadmapCheck id s) := by
  refine .next ?_
  split
  · exact h
  · refine .ite h (.ite h.upd.loadFail ?_)
    split
    exacts [h.upd.loadFail, h.upd.upd.commandDone]

theorem State.memOk.planStop {q i status cmd} : (s.planStop q i status cmd).memOk := h.modJob

theorem State.memOk.planJobCheck {q i} : (s.planJobCheck q i).memOk := by
  unfold State.planJobCheck
  split
  exacts [h, .ite h (.ite h.setJob (.ite h.setJob h))]

theorem State.memOk.planFail {j cause} : (s.planFail j cause).memOk := h.put.planStop.planJobCheck

theorem State.memOk.execPlan {id} : KeepsMemOk (execPlan id s) :=
  .next (h.listCommand fun h => .ite h (.ite h.planFail (.ite h.planFail (.ite h.planFail h.modJob.upd.planShow))))

theorem State.memOk.setPlanQ {q} : (s.setPlanQ q).memOk := h.upd

theorem State.memOk.execSweepStart {slot} : KeepsMemOk (execSweepStart slot s) := by
  refine .next ?_
  split
  exacts [h, .ite h h.setPlanQ.planShow]

theorem State.memOk.execSweepDone {slot ns} : KeepsMemOk (execSweepDone slot ns s) := by
  refine .next (.ite h.upd.putMax.planShow ?_)
  split
  exacts [h, h.setPlanQ.putMax.planShow]

theorem State.memOk.planTell {slot number flags digest stop} : (s.planTell slot number flags digest stop).memOk :=
  .ite h.upd h

theorem State.memOk.planCount {flags} : (s.planCount flags).memOk :=
  .raiseIf (.raiseIf (.raiseIf (.ite h.count.count.raise h.count)))

theorem State.memOk.planTile {q how digest} : (s.planTile q how digest).memOk :=
  .planJobCheck (.ite h.modJob.planStop h.modJob)

theorem State.memOk.planDrop {gone} : (s.planDrop gone).memOk := h.upd

theorem State.memOk.planFinish {q how outcome flags kept} : (s.planFinish q how outcome flags kept).memOk :=
  h.storeRaw.planCount.record.planDrop.upd.twinSend.planTell.planTile.planShow

theorem State.memOk.planKept {q how} : (s.planKept q how).memOk := h.planFinish
theorem State.memOk.planFault : s.planFault.memOk := .foldl h.put.put.raise fun h => h.planKept
theorem State.memOk.attemptStart {q} : (s.attemptStart q).memOk := .ite h.setPlanQ h.setPlanQ

theorem State.memOk.execSelectionDone {e} : KeepsMemOk (execSelectionDone e s) := by
  refine .next ?_
  split
  exacts [h, .ite h (.ite h.planFault (.ite h.put.planKept (.ite h.planKept h.attemptStart)))]

theorem State.memOk.execAttemptDone {e} : KeepsMemOk (execAttemptDone e s) := by
  refine .next ?_
  split
  · exact h
  · refine .ite h ?_
    split
    · exact h.attemptStart
    · refine .ite h.planFault ?_
      extract_lets +onlyGivenNames _ _ _ s1
      have h1 : s1.memOk := .ite h h.count.raise
      exact .ite h1.planKept (.ite h1.planFinish (.ite h1.setPlanQ.attemptStart h1.planKept))

theorem State.memOk.execPlanDeadline {slot} : KeepsMemOk (execPlanDeadline slot s) := by
  refine .next ?_
  split
  exacts [h, .ite h.planKept h]

theorem State.memOk.clearSlots : s.clearSlots.memOk := h.foldl fun h => h.storeRaw

theorem State.memOk.planCtrl {w} : (s.planCtrl w).memOk := by
  unfold State.planCtrl
  extract_lets +onlyGivenNames s
  have h : s.memOk := .ite h.put.planShow h
  exact .ite (.ite h (.ite h.put h.upd.clearSlots.put.planShow)) h.put.planShow

theorem State.memOk.execPlanEnable {acc} : KeepsMemOk (execPlanEnable acc s) := .next (h.command fun h => h.planCtrl)
theorem State.memOk.execPlanResume {acc} : KeepsMemOk (execPlanResume acc s) := .next (h.command fun h => h.planCtrl)

/-! ### The host link (R400 to R410) -/

theorem State.memOk.bar2Refuse : s.bar2Refuse.memOk := h.satInc.raise

theorem State.memOk.capture {w a bs} : (s.capture w a bs).memOk := by
  unfold State.capture
  extract_lets +onlyGivenNames _ _ s2
  have h2 : s2.memOk := by
    unfold s2
    split
    exacts [.ite h.upd h.closeHostData.upd, h.closeHostData.upd]
  split
  exacts [.ite h2.closeHostData h2, h2]

theorem State.memOk.execBar2Write {t} : KeepsMemOk (execBar2Write t s) := by
  unfold Machine.execBar2Write
  extract_lets +onlyGivenNames s0
  have h0 : s0.memOk := .ite h.poisonedIn h
  refine .next (.ite h ?_)
  split
  · exact h0.bar2Refuse
  · split
    exacts [.ite h0.count h0.capture.store, .store (.ite h0.closeHostData h0)]

theorem State.memOk.execBar2Read {t} : KeepsMemOk (execBar2Read t s) := by
  refine .next (.ite h ?_)
  split
  exacts [h.bar2Refuse.satInc.emit, .emit (.ite h.load.satInc h.load)]

theorem State.memOk.extDone {tag} : (s.extDone tag).memOk := h.upd
theorem State.memOk.hostReadFail {tag r} : (s.hostReadFail tag r).memOk := h.extDone.satInc.raise.readFailed

theorem State.memOk.execHostReadCompletion {tag status data} :
    KeepsMemOk (execHostReadCompletion tag status data s) := by
  refine .next ?_
  split
  · exact h
  · refine .ite h ?_
    extract_lets +onlyGivenNames _
    split
    · exact h.extDone.recordHostRead.extDeliver
    · exact h.extDone.poisonedIn.recordHostRead.extDeliver
    · exact h.hostReadFail
    · exact h.hostReadFail

theorem State.memOk.execCompletionTimeout {tag} : KeepsMemOk (execCompletionTimeout tag s) := by
  refine .next ?_
  split
  exacts [h, .ite h.hostReadFail h]

theorem State.memOk.execMsiSend {v} : KeepsMemOk (execMsiSend v s) := .next (.ite h.put.emit h)
theorem State.memOk.cfgWritten : s.cfgWritten.memOk := .ite h.upd h
theorem State.memOk.pcieReset : s.pcieReset.memOk := .cfgWritten (.foldl h.clearPage.upd fun h => h.extDone.readFailed)
theorem State.memOk.execPerst : KeepsMemOk (execPerst s) := .next (.ite h.pcieReset h)
theorem State.memOk.execHotReset : KeepsMemOk (execHotReset s) := .next h.pcieReset
theorem State.memOk.execPcieLinkDown : KeepsMemOk (execPcieLinkDown s) := .next h.pcieReset.satInc.raise
theorem State.memOk.execD3hotExit : KeepsMemOk (execD3hotExit s) := .next h.pcieReset

theorem State.memOk.execPcieLinkUp {speed width flit master} : KeepsMemOk (execPcieLinkUp speed width flit master s) :=
  .next (.ite h h.put.put.put.putB.putB.raise)

theorem State.memOk.execPcieRetrain {acc} : KeepsMemOk (execPcieRetrain acc s) :=
  .next (h.command fun h => .ite h.put h)

/-! ### Xagus links, remote access and signals (R411 to R432) -/

theorem State.memOk.xLog {l f} : (s.xLog l f).memOk := .ite h.count.satAdd.count h
theorem State.memOk.xReplay {l} : (s.xReplay l).memOk := h.satInc.setXl.emit
theorem State.memOk.xDiscard {l} : (s.xDiscard l).memOk := h.count

theorem State.memOk.xReceive {l f typ act} (hact : ∀ {s ws}, s.memOk → (act s ws).memOk) :
    (s.xReceive l f typ act).memOk := by
  refine .ite h (.ite h.satInc.raise.xReplay (.ite h.xReplay (.ite (.ite h.xReplay h) ?_)))
  extract_lets +onlyGivenNames _ s1
  have h1 : s1.memOk := h.fresh.satAdd.xLog.setXl.xDrain
  exact .ite h1.xDiscard (.ite (.ite (hact h1) h1) (.ite h1.xDiscard (.ite (hact h1) (.ite h1.xSend h1.xDiscard))))

theorem State.memOk.hottestDie : s.hottestDie.1.memOk := by
  unfold State.hottestDie
  split
  exacts [.fst h.fresh, .fst h]

theorem State.memOk.telemetry {kind link} : (s.telemetry kind link).memOk :=
  .ite h (.ite h.fresh.hottestDie.ringEntry h.count.raise)

theorem State.memOk.flood {but serial r} : (s.flood but serial r).memOk := h.foldl fun h => h.xTransmit
theorem State.memOk.floodOwn : s.floodOwn.memOk := h.upd.flood
theorem State.memOk.domainForm : s.domainForm.memOk := .ite h (.floodOwn (.foldl h.put fun h => h.xTransmit))
theorem State.memOk.replayFrames {l} : (s.replayFrames l).memOk := h.foldl fun h => h.xEmit
theorem State.memOk.relinkEnd {l} : (s.relinkEnd l).memOk := h.put.upd

theorem State.memOk.relinkMet {l serial old} : (s.relinkMet l serial old).memOk :=
  .telemetry (.raise (.ite h.relinkEnd.replayFrames h.relinkEnd.setXl))

theorem State.memOk.execHello {l f} : KeepsMemOk (execHello l f s) := by
  refine .next (h.xReceive fun h => ?_)
  extract_lets +onlyGivenNames _ _ _ s0
  have h0 : s0.memOk := .ite h.relinkMet h
  exact h0.setXl.put.put.put.put.put.floodOwn

theorem State.memOk.execLinkState {l f} : KeepsMemOk (execLinkState l f s) :=
  .next (h.xReceive fun h => .ite h h.upd.flood)

theorem State.memOk.xLose {gone} : (s.xLose gone).memOk := h.upd
theorem State.memOk.xLoseReads {gone} : (s.xLoseReads gone).memOk := h.foldl fun h => h.extDone.extDeliver
theorem State.memOk.xLoseGroups {gone} : (s.xLoseGroups gone).memOk := h.upd
theorem State.memOk.xGone {gone} : (s.xGone gone).memOk := h.xLose.xLoseReads.xLoseGroups
theorem State.memOk.twinRestart : s.twinRestart.memOk := h.upd
theorem State.memOk.resend : s.resend.memOk := h.foldl fun h => .ite h (.foldl h.setXl fun h => h.xSend)
theorem State.memOk.takeoverEnd {ok} : (s.takeoverEnd ok).memOk := .ite h (.ite h.upd.raise.telemetry h.upd.put.put.put)

theorem State.memOk.execDomainQuiescent : KeepsMemOk (execDomainQuiescent s) := by
  refine .next (.ite h ?_)
  extract_lets +onlyGivenNames _ _ _ _ _ _ _ _
  split
  · exact .takeoverEnd (.ite h.upd.xGone.resend.put.put.put.put.raise.raiseIf.twinRestart
      h.upd.xGone.resend.put.put.put.put.raise.raiseIf)
  · exact h.upd.xGone.put.put.raise.takeoverEnd

theorem State.memOk.linkDown {l state} : (s.linkDown l state).memOk :=
  .domainForm (.ite h.put.put.put.setXl.put h.put.put.put.setXl)

theorem State.memOk.execXlLinkDown {l} : KeepsMemOk (execXlLinkDown l s) :=
  .next (.ite (.raise (.ite h.put.put.setXl h.linkDown)) h)

theorem State.memOk.linkTrain {l} : (s.linkTrain l).memOk := h.put.put.domainForm

theorem State.memOk.execXlEnable {l acc} : KeepsMemOk (execXlEnable l acc s) :=
  .next (h.command fun h => .ite (.ite h h.put.linkTrain) (.ite h.put.linkDown h))

theorem State.memOk.execXlRetrain {l acc} : KeepsMemOk (execXlRetrain l acc s) :=
  .next (h.command fun h => .ite h.linkTrain h)

theorem State.memOk.execXlTrainingDone {l lanes} : KeepsMemOk (execXlTrainingDone l lanes s) :=
  .next (.ite h (.ite (.ite h h.linkDown.raise) (.domainForm (.ite h.put.put.raise.raiseIf
    h.put.put.raise.raiseIf.replayFrames))))

theorem State.memOk.domainEnd : s.domainEnd.memOk := h.upd.xGone.put.put.put.put.twinRestart

theorem State.memOk.xgsCtrl {w} : (s.xgsCtrl w).memOk := by
  unfold State.xgsCtrl
  extract_lets +onlyGivenNames _ s1 s2
  have h1 : s1.memOk := .ite (.ite h h.put.domainForm) (.ite h.put.domainEnd h)
  have h2 : s2.memOk := .ite h1.domainForm h1
  exact .ite (.ite h2.twinRestart.twinFrame h2.twinRestart) h2

theorem State.memOk.execXgsEnable {acc} : KeepsMemOk (execXgsEnable acc s) := .next (h.command fun h => h.xgsCtrl)
theorem State.memOk.execRediscover {acc} : KeepsMemOk (execRediscover acc s) := .next (h.command fun h => h.xgsCtrl)
theorem State.memOk.refusedIn : s.refusedIn.memOk := h.satInc.raise

theorem State.memOk.execXagusWrite {l f} : KeepsMemOk (execXagusWrite l f s) := by
  refine .next (h.xReceive fun h => ?_)
  extract_lets +onlyGivenNames _
  split
  exacts [h.refusedIn.xSend, .xSend (h.foldl fun h => h.store)]

theorem State.memOk.execReadRequest {l f} : KeepsMemOk (execReadRequest l f s) := by
  refine .next (h.xReceive fun h => ?_)
  extract_lets +onlyGivenNames _
  split
  exacts [h.refusedIn.xSend, h.load.xSend]

theorem State.memOk.refusedOut : s.refusedOut.memOk := h.satInc.raise

theorem State.memOk.flyWords {r ws} : (s.flyWords r ws).memOk := by
  unfold State.flyWords
  split
  exacts [h, h.modArr]

theorem State.memOk.execReadReturn {l f} : KeepsMemOk (execReadReturn l f s) := by
  refine .next (h.xReceive fun h => ?_)
  extract_lets +onlyGivenNames _
  split
  exacts [h, .ite h.extDone.flyWords.refusedOut h.extDone.flyWords]

theorem State.memOk.ackTaken {src signal bad key} : (s.ackTaken src signal bad key).memOk := by
  unfold State.ackTaken
  split
  exacts [h, .ite h.upd.refusedOut h.upd]

theorem State.memOk.execWriteAcknowledge {l f} : KeepsMemOk (execWriteAcknowledge l f s) :=
  .next (h.xReceive fun h => h.ackTaken)

theorem State.memOk.execSignalAcknowledge {l f} : KeepsMemOk (execSignalAcknowledge l f s) :=
  .next (h.xReceive fun h => h.ackTaken)

theorem State.memOk.execRemoteSignal {l f} : KeepsMemOk (execRemoteSignal l f s) :=
  .next (h.xReceive fun h => .xSend (.ite (.ite h.upd h) h.publish.fenceAdd))

/-! ### Array instructions that may reach another device (R127, R139, R417 to R419) -/

theorem State.memOk.xLostFault {n} : (s.xLostFault n).memOk := h.upd.slotFault

theorem State.memOk.execFenceDone {n} : KeepsMemOk (execFenceDone n s) := by
  refine .next (.ite h ?_)
  split
  · exact .ite (.ite h.release h) (.ite h (.ite h.release (.ite h (.ite h.xLostFault h.release))))
  · exact h

theorem State.memOk.xSent {n dst signal key} : (s.xSent n dst signal key).memOk := h.upd

theorem State.memOk.execFsig {n} : KeepsMemOk (execFsig n s) :=
  .next (h.issue fun h => .ite h (.ite h.fenceAdd.stepTo (.ite h (.ite h.xLostFault
    (.ite h.xSend.xSent.stepTo (.ite h.fenceAdd.stepTo h.slotFault))))))

theorem State.memOk.xReadRuns {n d dst ps base} : (s.xReadRuns n d dst ps base).memOk := h.foldl fun h => h.upd.xSend
theorem State.memOk.missCount : s.missCount.memOk := h.satInc.raise

theorem State.memOk.execLd {n} : KeepsMemOk (execLd n s) := by
  refine .next (h.issue fun h => .ite h.slotFault (.ite h.slotFault (.ite h ?_)))
  split
  · exact .ite h.markJob.moveFly (.ite h.moveFly.xReadRuns h.missCount.moveFly)
  · exact h.moveFly
  · exact h.fromMem.moveFly

theorem State.memOk.xWriteRuns {n d src ps base} : (s.xWriteRuns n d src ps base).memOk :=
  h.foldl fun h => h.xSend.xSent

theorem State.memOk.execSt {n} : KeepsMemOk (execSt n s) := by
  refine .next (h.issue fun h => ?_)
  refine .ite h.slotFault (.ite (.ite h.slotFault (.ite h.moveFly h.moveFly)) (.ite h.slotFault (.ite h ?_)))
  split
  exacts [.ite h.xWriteRuns.moveFly h.missCount.moveFly, h.moveFly]

/-! ### Collectives (R191 to R193, R420 to R423) -/

theorem State.memOk.collTell {n members payload} : (s.collTell n members payload).memOk := h.foldl fun h => h.xSend

theorem State.memOk.collRead {a n} : (s.collRead a n).1.memOk := by
  unfold State.collRead
  exact .foldlFst (.fst h) fun hp => .fst hp.load

theorem State.memOk.collSend {n dst result ws} : (s.collSend n dst result ws).memOk := h.foldl fun h => h.xSend
theorem State.memOk.collNote {n member first result ws} : (s.collNote n member first result ws).memOk := h.upd
theorem State.memOk.collFail {n cause} : (s.collFail n cause).memOk := h.upd

theorem State.memOk.collTake {n members b cause} : (s.collTake n members b cause).memOk :=
  h.pokeNat.pokeNat.upd.collTell

theorem State.memOk.collBegin {n members b} : (s.collBegin n members b).memOk :=
  .foldl h.upd fun h => .ite h (.ite h.collRead.collNote h.collRead.collSend)

theorem State.memOk.collAbort {n cause} : (s.collAbort n cause).memOk := h.collFail.upd

theorem State.memOk.execCollectiveStart {n} : KeepsMemOk (execCollectiveStart n s) := by
  refine .next (.ite h (.ite h.collTake.collAbort ?_))
  extract_lets +onlyGivenNames _ s1 _
  have h1 : s1.memOk := .ite h h.collTake
  split
  exacts [h1.collAbort, .ite h1.collAbort (.ite h1 (.ite h1.collAbort h1.collBegin))]

theorem State.memOk.execCollectiveControl {l f} : KeepsMemOk (execCollectiveControl l f s) :=
  .next (h.xReceive fun h => .ite h.collFail h.upd)

theorem State.memOk.execCollectiveData {l f} : KeepsMemOk (execCollectiveData l f s) :=
  .next (h.xReceive fun h => h.collNote)

theorem State.memOk.collEnd {n status} : (s.collEnd n status).memOk := by
  unfold State.collEnd
  extract_lets +onlyGivenNames _ _ _ s2
  have h2 : s2.memOk := .ite h.pokeNat.fenceAdd h.pokeNat
  exact h2.count.upd

theorem State.memOk.execCollectiveDone {n} : KeepsMemOk (execCollectiveDone n s) := by
  refine .next (.ite h ?_)
  split
  · exact h.collEnd.raise
  · extract_lets +onlyGivenNames _ _
    split
    · exact h
    · extract_lets +onlyGivenNames s1
      have h1 : s1.memOk := h.foldl fun h => h.store
      exact .collEnd (.ite (h1.foldl fun h => h.collSend) h1)

end Sys2Proof.Machine
end

section
/-! SUPPORT. Main memory, Hinge, Dike and the islands keep the canonical form of device memory (O59). -/

namespace Sys2Proof.Machine

variable {s : State} (h : s.memOk)
include h

/-! ### Commands of main memory (R374 to R399) -/

theorem State.memOk.dramServe {r} : (s.dramServe r).memOk := by
  unfold State.dramServe
  extract_lets +onlyGivenNames _ _ _ _
  split
  · exact .mcMode (.wqAccept (.ccAccess (.applyInject (.poke (.ite h h.logRead)))))
  · extract_lets +onlyGivenNames _ _ _ s1 _
    have h1 : s1.memOk := .cacheWord (.ccAccess (.ite h.count h))
    split
    exacts [h1.emit, h1.mcUncorrectable.emit, h1.mcCorrected.emit, h1.emit]

theorem State.memOk.dramRequest {r} : (s.dramRequest r).memOk := by
  unfold State.dramRequest
  extract_lets +onlyGivenNames gone
  have hgone : (gone s).memOk := by
    unfold gone
    split
    exacts [h.countUnmapped, h.countUnmapped.emit]
  split
  exacts [.ite h.upd h.dramServe, hgone, hgone, h]

theorem State.memOk.dramRetry : s.dramRetry.memOk := .foldl h.upd fun h => h.dramRequest

theorem State.memOk.execDramWrite {addr data mask poison} : KeepsMemOk (execDramWrite addr data mask poison s) :=
  .next h.dramRequest

theorem State.memOk.execDramRead {addr found} : KeepsMemOk (execDramRead addr found s) := .next h.dramRequest
theorem State.memOk.trainStart : s.trainStart.memOk := .ite (.foldl h.put.upd fun h => h.put) h
theorem State.memOk.trainFail {c} : (s.trainFail c).memOk := .ite h.setMc.channelFailed h.setMc
theorem State.memOk.trainClear : s.trainClear.memOk := h.foldl fun h => h.setMc

theorem State.memOk.trainDone {temps} : (s.trainDone temps).memOk :=
  .mcModes (.raise (.put (.put (h.foldl fun h => h.setMc.put.put))))

theorem State.memOk.execTrainingStepDone {failed temps dip} : KeepsMemOk (execTrainingStepDone failed temps dip s) := by
  unfold Machine.execTrainingStepDone
  extract_lets +onlyGivenNames _
  refine .ite (.next h) ?_
  extract_lets +onlyGivenNames _ s1
  have h1 : s1.memOk := h.foldl fun h => h.trainFail
  exact .ite (.next h1) (.ite (.next h1) (.next (.ite h1.trainClear.upd.trainDone h1.trainClear.upd)))

theorem State.memOk.zeroSegment {seg} : (s.zeroSegment seg).memOk := memWf_filter _ h

theorem State.memOk.execSegmentSwept : KeepsMemOk (execSegmentSwept s) := by
  refine .ite (.next h) ?_
  extract_lets +onlyGivenNames _
  split
  · exact .next h.upd
  · extract_lets +onlyGivenNames s2
    have h2 : s2.memOk := .ite h.upd h.upd.zeroSegment
    exact .next (.dramRetry (.ite h2.put.put.memgNormal h2.put))

theorem State.memOk.retrainNext {k} : (s.retrainNext k).memOk := by
  unfold State.retrainNext
  extract_lets +onlyGivenNames _
  split
  exacts [h.setMc.flushStart.mcMode, h]

theorem State.memOk.retrainAsk {k ch} : (s.retrainAsk k ch).memOk := .ite h h.setMc.retrainNext

theorem State.memOk.execTemperatureRead {p celsius} : KeepsMemOk (execTemperatureRead p celsius s) := by
  refine .next (h.foldl fun h => .ite h.put ?_)
  extract_lets +onlyGivenNames _ _ s2
  have h2 : s2.memOk := .ite h.put.retrainAsk h.put
  exact .ite h2.retrainAsk h2

theorem State.memOk.execMr4Read {c rate hot} : KeepsMemOk (execMr4Read c rate hot s) := .next h.put.raiseIf
theorem State.memOk.execRefresh {c bank} : KeepsMemOk (execRefresh c bank s) := .ite (.next h) (.next h.setMc)

theorem State.memOk.mcCtrl {k w} : (s.mcCtrl k w).memOk := by
  unfold State.mcCtrl
  extract_lets +onlyGivenNames s1
  have h1 : s1.memOk := .ite h.flushStart h
  exact .ite h1.retrainAsk.retrainAsk h1

theorem State.memOk.execRetrain {k acc} : KeepsMemOk (execRetrain k acc s) := .next (h.command fun h => h.mcCtrl)

theorem State.memOk.execRetrainDone {k us} : KeepsMemOk (execRetrainDone k us s) := by
  unfold Machine.execRetrainDone
  extract_lets +onlyGivenNames _
  split
  · exact .next h
  · exact .ite (.next h) (.next h.setMc.put.satInc.putMax.raise.retrainNext.mcMode.dramRetry)

theorem State.memOk.execFlush {k acc} : KeepsMemOk (execFlush k acc s) := .next (h.command fun h => h.mcCtrl)
theorem State.memOk.execFlushDone {k} : KeepsMemOk (execFlushDone k s) := .ite (.next h.flushEnd) (.next h)

theorem State.memOk.scrubWord {k ch x code} : (s.scrubWord k ch x code).memOk := by
  refine .ite h ?_
  extract_lets +onlyGivenNames _
  split
  exacts [h, h.mcUncorrectable, h.upd.mcCorrected, h, h.mcCorrected, h.upd.mcUncorrectable]

theorem State.memOk.execPatrolScrub {k codes} : KeepsMemOk (execPatrolScrub k codes s) := by
  refine .ite (.next h) ?_
  extract_lets +onlyGivenNames _ s1
  have h1 : s1.memOk := h.foldl fun h => h.scrubWord
  exact .next (.ite h1.put.satInc h1.put)

theorem State.memOk.execRowRetireDone {k} : KeepsMemOk (execRowRetireDone k s) := by
  unfold Machine.execRowRetireDone
  split
  exacts [.next h, .ite (.next h) (.next h.rowRetire.dramRetry)]

theorem State.memOk.execChannelRetire {acc} : KeepsMemOk (execChannelRetire acc s) :=
  .next (h.command fun h => .ite (.ite h.retireRefused h.upd.put.put.put.put.flushStart.mcMode) h)

theorem State.memOk.execChannelRestore {acc} : KeepsMemOk (execChannelRestore acc s) :=
  .next (h.command fun h => .ite (.ite h.retireRefused h.channelGone.put) h)

theorem State.memOk.execChannelCopyDone : KeepsMemOk (execChannelCopyDone s) := by
  unfold Machine.execChannelCopyDone
  split
  exacts [.next h, .ite (.next h) (.next h.upd.put.channelGone)]

theorem State.memOk.parkBegin : s.parkBegin.memOk := .ite (.foldl h.upd.mcModes fun h => h.flushEnd) h
theorem State.memOk.parkReady : s.parkReady.memOk := .ite h h.store.upd.put.raise

theorem State.memOk.parkBack {drifted} : (s.parkBack drifted).memOk := by
  refine .ite ?_ h
  extract_lets +onlyGivenNames _ _ _ s2
  have h2 : s2.memOk := by
    unfold s2
    split
    exacts [h.upd.upd, h.upd]
  exact .dramRetry (.mcModes (.put (.foldl h2.put fun h => h.put.rowsShow)))

theorem State.memOk.memgCtrl {drifted w} : (s.memgCtrl drifted w).memOk :=
  .ite (.parkBack (.ite (.parkBegin (.ite h.trainStart h)) (.ite h.trainStart h)))
    (.ite (.parkBegin (.ite h.trainStart h)) (.ite h.trainStart h))

theorem State.memOk.execTrain {acc} : KeepsMemOk (execTrain acc s) := .next (h.command fun h => h.memgCtrl)
theorem State.memOk.execParkPrep {acc} : KeepsMemOk (execParkPrep acc s) := .next (h.command fun h => h.memgCtrl)

theorem State.memOk.execParkRestore {acc drifted} : KeepsMemOk (execParkRestore acc drifted s) :=
  .next (h.command fun h => h.memgCtrl)

theorem State.memOk.execMemoryTest {acc} : KeepsMemOk (execMemoryTest acc s) :=
  .next (h.command fun h => .ite h.upd.mcModes h)

theorem State.memOk.zeroChannel {c} : (s.zeroChannel c).memOk := memWf_filter _ h

theorem State.memOk.execTestDone {failed} : KeepsMemOk (execTestDone failed s) :=
  .ite (.next h) (.next (.dramRetry (.mcModes (.foldl (.raise (.put (.foldl h.upd fun h => h.zeroChannel)))
    fun h => h.channelFailed))))

theorem State.memOk.execMcSpillWrite {k acc} : KeepsMemOk (execMcSpillWrite k acc s) := .next h.writeReg
theorem State.memOk.execMcRemapEntryWrite {k acc} : KeepsMemOk (execMcRemapEntryWrite k acc s) := .next h.writeReg
theorem State.memOk.mcArmInject {k n} : (s.mcArmInject k n).memOk := h.setMc

theorem State.memOk.execMcInjectOneByte {k acc} : KeepsMemOk (execMcInjectOneByte k acc s) :=
  .next (h.command fun h => .ite h.mcArmInject h)

theorem State.memOk.execMcInjectTwoBytes {k acc} : KeepsMemOk (execMcInjectTwoBytes k acc s) :=
  .next (h.command fun h => .ite h.mcArmInject h)

theorem State.memOk.execPsrRead {i acc} : KeepsMemOk (execPsrRead i acc s) :=
  .next (h.command fun h => .ite (.ite h.put h.put.put) h)

theorem State.memOk.execNorRead {i acc} : KeepsMemOk (execNorRead i acc s) :=
  .next (h.command fun h => .ite (.ite h.put h.put.put) h)

theorem State.memOk.putData {page off bs} : (s.putData page off bs).memOk := h.foldl fun h => h.putWord

theorem State.memOk.psrLog {n c} : (s.psrLog n c).memOk := by
  unfold State.psrLog
  split
  exacts [h.satInc, h.satInc.raise, h, h]

theorem State.memOk.execReadDone {i src} : KeepsMemOk (execReadDone i src s) :=
  .ite (.ite (.next h.putData.put.raise) (.next h)) (.ite (.next h.put.psrLog.putData.putB.raise) (.next h))

/-! ### What the islands share (R441 to R472) -/

theorem State.memOk.setIsl {i v} : (s.setIsl i v).memOk := h.upd
theorem State.memOk.modIsl {i f} : (s.modIsl i f).memOk := h.setIsl
theorem State.memOk.islLevel {i bit on} : (s.islLevel i bit on).memOk := h.putWord.irqEdge

omit h in
theorem State.memOk.psramPut {s0 : State} {i a bs} (h0 : s0.memOk) :
    (s0.psramPut i a bs).memOk := by
  unfold State.psramPut
  extract_lets +onlyGivenNames s
  have h : s.memOk := h0.foldl fun h => h.psrLog
  exact h.upd

theorem State.memOk.faultHeader {i} : (s.faultHeader i).memOk := h.psramPut

theorem State.memOk.islPut {i kind sev r} : (s.islPut i kind sev r).memOk := by
  unfold State.islPut
  extract_lets +onlyGivenNames _ _ _ _ _ _ s5 _ s6
  have h5 : s5.memOk := .putData (.put (.put (.put (.put (.ite h.setIsl.psramPut.psramPut.faultHeader
    h.setIsl.psramPut)))))
  have h6 : s6.memOk := .ite h5.ringEntry h5
  exact .ite h6.upd h6

theorem State.memOk.islWrite {i kind sev page bit detail flags} : (s.islWrite i kind sev page bit detail flags).memOk :=
  .ite h.islPut h

theorem State.memOk.bothWrite {kind sev page bit detail} : (s.bothWrite kind sev page bit detail).memOk :=
  h.islWrite.islWrite

theorem State.memOk.bothWarn {kind page bit detail} : (s.bothWarn kind page bit detail).memOk :=
  h.bothWrite.modIsl.modIsl

theorem State.memOk.frameOut {i slot head samples} : (s.frameOut i slot head samples).memOk :=
  .ite h.emit.emit.islWrite h

theorem State.memOk.planFrame {i slot kept} : (s.planFrame i slot kept).memOk := by
  unfold State.planFrame
  split
  exacts [h, h.frameOut]

theorem State.memOk.fallbackFrame {i slot} : (s.fallbackFrame i slot).memOk := by
  unfold State.fallbackFrame
  split
  exacts [h, h.put.frameOut]

theorem State.memOk.statusFrame {i} : (s.statusFrame i).memOk := h.frameOut
theorem State.memOk.fallbackShow {i} : (s.fallbackShow i).memOk := h.putB.islLevel

theorem State.memOk.fallbackStart {i slot} : (s.fallbackStart i slot).memOk :=
  .ite h h.put.fallbackShow.islWrite.fallbackFrame

theorem State.memOk.fallbackEnd {i slot} : (s.fallbackEnd i slot).memOk := h.put.fallbackShow.islWrite
theorem State.memOk.missSlot {i slot} : (s.missSlot i slot).memOk := .ite h.put.upd h.fallbackStart
theorem State.memOk.recoveryQuery {i q} : (s.recoveryQuery i q).memOk := h.modIsl.emit.raise

theorem State.memOk.missJob {i t} : (s.missJob i t).memOk :=
  .recoveryQuery (.foldl h.satInc.islWrite fun h => h.missSlot)

theorem State.memOk.timersShow {i} : (s.timersShow i).memOk := h.put.putMax
theorem State.memOk.islArrayOut {i n} : (s.islArrayOut i n).memOk := .islWrite (.ite h.suspectArr.put h.suspectArr)
theorem State.memOk.wantDie {i d} : (s.wantDie i d).memOk := .ite h h.modIsl
theorem State.memOk.wantModule {i cause} : (s.wantModule i cause).memOk := h.modIsl
theorem State.memOk.allWantDie {d} : (s.allWantDie d).memOk := h.foldl fun h => h.wantDie
theorem State.memOk.allWantModule {cause} : (s.allWantModule cause).memOk := h.foldl fun h => h.wantModule
theorem State.memOk.norPut {i a bs} : (s.norPut i a bs).memOk := h.upd
theorem State.memOk.repairSeal {i} : (s.repairSeal i).memOk := h.psramPut.modIsl.norPut.norPut
theorem State.memOk.repairPut1 {i off bs} : (s.repairPut1 i off bs).memOk := .ite h.psramPut.repairSeal h
theorem State.memOk.repairPut {off bs} : (s.repairPut off bs).memOk := h.repairPut1.repairPut1
theorem State.memOk.enterRetired {d p} : (s.enterRetired d p).memOk := h.repairPut
theorem State.memOk.enterCaps {d p caps} : (s.enterCaps d p caps).memOk := h.repairPut

/-! ### Hinge flits, taps and discovery (R8 to R24) -/

theorem State.memOk.flitSend {rx tx f} : (s.flitSend rx tx f).memOk := .ite h (.ite h.upd h.upd)
theorem State.memOk.flitDrain {rx tx} : (s.flitDrain rx tx).memOk := .foldl h.upd fun h => h.flitSend
theorem State.memOk.flitAck {e f} : (s.flitAck e f).memOk := h.upd

theorem State.memOk.hingeCount {d f} : (s.hingeCount d f).memOk := by
  unfold State.hingeCount
  split
  exacts [h.satInc, h]

theorem State.memOk.flitDiscard {e} : (s.flitDiscard e).memOk := by
  unfold State.flitDiscard
  split
  exacts [h.satInc, h.upd]

theorem State.memOk.flitCode {e f} : (s.flitCode e f).memOk := by
  unfold State.flitCode
  split
  · exact h
  · extract_lets +onlyGivenNames _ _
    split
    exacts [h.upd.satInc.raise, h.upd]
  · split
    exacts [h.raise, h]

theorem State.memOk.flitOn {e f poison} : (s.flitOn e f poison).memOk :=
  .ite (.ite h.emit.islStore h.emit) (.ite h.fresh.flitSend h.flitSend)

theorem State.memOk.flitTake {e f} : (s.flitTake e f).memOk :=
  .ite h.flitAck.flitDiscard (.ite h.flitAck h.flitAck.flitCode.flitOn)

theorem State.memOk.flitAcked {e f} : (s.flitAcked e f).memOk := h.upd.flitDrain
theorem State.memOk.flitReplay {e} : (s.flitReplay e).memOk := h.upd

theorem State.memOk.execHingeFlit {e f} : KeepsMemOk (execHingeFlit e f s) :=
  .next (.ite h (.ite h.upd.hingeCount.emit.flitReplay (.ite h.flitAcked (.ite h h.upd.flitTake))))

theorem State.memOk.execHingeLinkDown {e} : KeepsMemOk (execHingeLinkDown e s) := by
  refine .next (.ite h ?_)
  extract_lets +onlyGivenNames _
  split
  exacts [h.upd.raise, h.upd.put.islLevel]

theorem State.memOk.dropPins {n} : (s.dropPins n).memOk := by
  refine h.foldl fun h => ?_
  split
  · exact h
  · refine h.foldl fun h => ?_
    extract_lets +onlyGivenNames _
    split
    exacts [h.kvDec.kvNote, h.kvDec]

theorem State.memOk.capsSet {n} : (s.capsSet n).memOk := h.putWord

theorem State.memOk.arrReset {n byDie} : (s.arrReset n byDie).memOk := by
  unfold State.arrReset
  extract_lets +onlyGivenNames s1
  have h1 : s1.memOk := .ite h.slotFault.dropPins.slotGone h
  exact h1.clearPage.setArr.putWord.put.put.put.capsSet

theorem State.memOk.dropPlaced {d} : (s.dropPlaced d).memOk := h.upd

theorem State.memOk.sliceLost {d} : (s.sliceLost d).memOk := by
  unfold State.sliceLost
  extract_lets +onlyGivenNames _
  split
  exacts [h, .ite h.setStDie.modArr.put h.setStDie.modArr]

theorem State.memOk.shadowed {d} : (s.shadowed d).memOk := h.foldl fun h => h.raise
theorem State.memOk.setCdState {d v} : (s.setCdState d v).memOk := .ite h (.ite h.put.raise.shadowed h.put.raise)
theorem State.memOk.physMap {d} : (s.physMap d).memOk := h.put

theorem State.memOk.dieReset {d} : (s.dieReset d).memOk := by
  unfold State.dieReset
  extract_lets +onlyGivenNames _ s1
  have h1 : s1.memOk := .foldl h.dropPlaced.sliceLost fun h => h.arrReset
  exact .zeroAt (.zeroAt (.foldl (.ite h1.upd.clearPage.clearPage.physMap.put.raiseIf.shadowed
    h1.upd.clearPage.clearPage.physMap.put.raiseIf) fun h => h.put.put))

theorem State.memOk.dieSettle {d} : (s.dieSettle d).memOk := .ite h.setCdState h
theorem State.memOk.tapShow {f d on} : (s.tapShow f d on).memOk := h.put

theorem State.memOk.dieQuiesce {d} : (s.dieQuiesce d).memOk :=
  .foldl (h.foldl fun h => h.upd.extDeliver) fun h => h.foldl fun h => h.complete1

theorem State.memOk.tapStop {i d} : (s.tapStop i d).memOk := .ite h h.put.tapShow.sliceLost.dieSettle.dieQuiesce
theorem State.memOk.tapFence {i d} : (s.tapFence i d).memOk := .ite h h.put.tapShow.dieSettle
theorem State.memOk.tapRelease {i d} : (s.tapRelease i d).memOk := h.put.put.tapShow.tapShow.dieSettle
theorem State.memOk.execStop {i d} : KeepsMemOk (execStop i d s) := .next h.tapStop
theorem State.memOk.execFence {i d} : KeepsMemOk (execFence i d s) := .next h.tapFence
theorem State.memOk.execReset {_i d} : KeepsMemOk (execReset _i d s) := .next (.ite h h.dieReset)
theorem State.memOk.execRelease {i d} : KeepsMemOk (execRelease i d s) := .next h.tapRelease

theorem State.memOk.execReadId {i d} : KeepsMemOk (execReadId i d s) := by
  refine .next ?_
  split
  exacts [h.emit, h]

theorem State.memOk.execReadFault {i d} : KeepsMemOk (execReadFault i d s) := .next (.ite h.fresh.emit h)
theorem State.memOk.execTapCommandDrop {i d} : KeepsMemOk (execTapCommandDrop i d s) := .next h.tapRelease
theorem State.memOk.serviceShow {d} : (s.serviceShow d).memOk := h.put

theorem State.memOk.mapDie {d u} : (s.mapDie d u).memOk := by
  refine .foldl (.foldl h.put fun h => h.put) fun h => ?_
  split
  exacts [h, .capsSet (.ite h.put.put.putWord.put h.put.put.putWord)]

theorem State.memOk.dieRun {d u} : (s.dieRun d u).memOk :=
  .serviceShow (.foldl h.mapDie.setCdState.put.dieSettle.setStDie fun h => h.modIsl)

theorem State.memOk.putTopo {p a} : (s.putTopo p a).memOk := h.put.put.put.put.put.put.put.put.upd
theorem State.memOk.discFlit {p} : (s.discFlit p).memOk := h.fresh.flitSend
theorem State.memOk.execDiscovery : KeepsMemOk (execDiscovery s) := .next (.ite h (.foldl h.upd fun h => h.discFlit))
theorem State.memOk.topoSend {i} : (s.topoSend i).memOk := h.foldl fun h => h.fresh.flitSend
theorem State.memOk.portDone {p} : (s.portDone p).memOk := .ite h.upd.topoSend.topoSend h.upd

theorem State.memOk.execDiscoveryAnswer {p ans} : KeepsMemOk (execDiscoveryAnswer p ans s) :=
  .next (.ite h.putTopo.portDone h)

theorem State.memOk.rediscFail {d} : (s.rediscFail d).memOk := h.put.setCdState.raise

theorem State.memOk.execDiscAnswerTimeout {p} : KeepsMemOk (execDiscAnswerTimeout p s) :=
  .next (.ite (.ite h (.ite h.upd.discFlit h.raise.portDone)) (.ite (.ite h.upd.discFlit h.rediscFail) h))

theorem State.memOk.dieFound {d} : (s.dieFound d).memOk := by
  unfold State.dieFound
  split
  · exact h.setCdState
  · extract_lets +onlyGivenNames _
    split
    exacts [h.put.dieRun, .foldl h.put.put.put.setCdState fun h => h.bothWrite]

theorem State.memOk.discDone : s.discDone.memOk := .raise (.put (.ite h.upd (.foldl h.upd fun h => h.dieFound)))

theorem State.memOk.discStop {p} : (s.discStop p).memOk :=
  .ite h (.raise (.put (.put (.foldl h.upd fun h => .ite h h.setCdState))))

theorem State.memOk.execTopologyCopy {i} : KeepsMemOk (execTopologyCopy i s) := by
  refine .next (.ite h ?_)
  extract_lets +onlyGivenNames _ _ s2
  have h2 : s2.memOk := by
    unfold s2
    split
    exacts [h.put.discStop, h.put]
  exact .ite h2.upd.discDone h2.upd

theorem State.memOk.execRediscovery {d ans} : KeepsMemOk (execRediscovery d ans s) := by
  refine .next (.ite h ?_)
  split
  exacts [h.rediscFail, .ite h.put.dieRun h.rediscFail]

theorem State.memOk.execRescan {acc ans} : KeepsMemOk (execRescan acc ans s) :=
  .next (h.command fun h => .ite h (.ite h.raise.allWantDie (.ite h.raise h)))

theorem State.memOk.execResetReq {d acc} : KeepsMemOk (execResetReq d acc s) :=
  .next (.ite h.allWantDie (h.command fun h => .ite h.allWantDie h))

theorem State.memOk.setStep {d step} : (s.setStep d step).memOk := .ite h h.put.count.raise

theorem State.memOk.execGridSample {d temps} : KeepsMemOk (execGridSample d temps s) := by
  refine .next (.ite h ?_)
  extract_lets +onlyGivenNames _ s1 _
  have h1 : s1.memOk := by
    unfold s1
    refine h.foldl fun h => ?_
    split
    exacts [h.put, h]
  split
  · exact h1.put.setStep.raise
  · exact .ite h1.put.put.put.raiseIf.setStep.raise (.ite h1.put.put.put.raiseIf h1.put.put.put.raiseIf.setStep)

/-! ### The XS slot and the Dike (R25 to R42) -/

theorem State.memOk.mailboxClear : s.mailboxClear.memOk := h.foldl fun h => h.putWord

theorem State.memOk.dikeFault {cause window addr} : (s.dikeFault cause window addr).memOk :=
  .xsLost (.raiseIf (.raiseIf (.raise (.mailboxClear (.put (.put (.put (.put
    (.foldl h.upd.put.put.put.put fun h => h.put)))))))))

theorem State.memOk.execAdmissionStart : KeepsMemOk (execAdmissionStart s) := .next (.ite h.put.upd h)
theorem State.memOk.execUcieTrainingDone : KeepsMemOk (execUcieTrainingDone s) := .next (.ite h.upd h)

theorem State.memOk.execChainReceived {cert inter} : KeepsMemOk (execChainReceived cert inter s) :=
  .next (.ite h.put.upd h)

theorem State.memOk.execChainVerified : KeepsMemOk (execChainVerified s) := by
  refine .next (.ite h ?_)
  split
  exacts [h.dikeFault, h.upd.put.put.put.put.put.put.raise]

theorem State.memOk.execAdmissionOverrun : KeepsMemOk (execAdmissionOverrun s) := .next (.ite h h.dikeFault)

theorem State.memOk.dikeCtrl {w} : (s.dikeCtrl w).memOk := by
  refine .ite h.dikeFault ?_
  extract_lets +onlyGivenNames _ s1
  have h1 : s1.memOk := .ite h.upd h
  exact .ite h1.put.upd h1

theorem State.memOk.execReadmit {acc} : KeepsMemOk (execReadmit acc s) := .next (h.command fun h => h.dikeCtrl)
theorem State.memOk.execDikeFence {acc} : KeepsMemOk (execDikeFence acc s) := .next (h.command fun h => h.dikeCtrl)

theorem State.memOk.execDikeEnableClear {acc} : KeepsMemOk (execDikeEnableClear acc s) :=
  .next (h.command fun h => h.dikeCtrl)

theorem State.memOk.execCommit {acc} : KeepsMemOk (execCommit acc s) := .next (h.command fun h => h.dikeCtrl)
theorem State.memOk.execUcieLinkLoss : KeepsMemOk (execUcieLinkLoss s) := .next (.ite h.dikeFault h)
theorem State.memOk.execCommitApply : KeepsMemOk (execCommitApply s) := .next (.ite h (.ite h.upd.put.upd h.upd.put))

theorem State.memOk.xsServe {r n w} : (s.xsServe r n w).memOk := by
  unfold State.xsServe
  extract_lets +onlyGivenNames _ _ _
  split
  exacts [h.upd.store, h.upd.load.emit]

theorem State.memOk.xsMemory {r fresh} : (s.xsMemory r fresh).memOk := by
  unfold State.xsMemory
  extract_lets +onlyGivenNames _
  split
  · exact h.dikeFault
  · exact .ite h.dikeFault (.ite h.dikeFault (.ite (.ite h.upd.count.raiseIf h) (.xsServe (.ite h h.upd))))

theorem State.memOk.xsTake {a n} : ∀ t ∈ s.xsTake a n, t.memOk := by
  unfold State.xsTake
  extract_lets
  split
  · split
    exacts [.none, .some h.upd]
  · exact .none

theorem State.memOk.execXsItemReturn {n item} : KeepsMemOk (execXsItemReturn n item s) := by
  refine .next ?_
  split
  · exact h
  · refine .ite h (.ite h.modStream.count ?_)
    split
    next => exact h.dropNumbered
    next heq =>
      have h1 := h.placeData _ heq
      refine .ite h.dikeFault ?_
      split
      · exact h.dikeFault
      · split
        next => exact h.count
        next heq => exact State.memOk.modStream (State.memOk.xsTake h1 _ heq)

theorem State.memOk.h2xAck : s.h2xAck.memOk := .ite h.put.raise h
theorem State.memOk.x2hPost : s.x2hPost.memOk := .ite h.put.raise h

theorem State.memOk.xsMailbox {off val} : (s.xsMailbox off val).memOk := by
  refine .ite h.dikeFault ?_
  split
  · exact h.emit
  · refine .ite ?_ (.ite h.putWord h)
    extract_lets +onlyGivenNames s1
    have h1 : s1.memOk := .ite h.h2xAck h
    exact .ite h1.x2hPost h1

theorem State.memOk.execXsRequest {r} : KeepsMemOk (execXsRequest r s) := by
  refine .next (.ite h (.ite h.dikeFault ?_))
  split
  exacts [h.dikeFault, h.xsMailbox, h.xsMailbox, h.xsMemory]

theorem State.memOk.execXsRequestUnstall : KeepsMemOk (execXsRequestUnstall s) := by
  refine .next ?_
  split
  exacts [h, h.xsMemory]

theorem State.memOk.h2xRing : s.h2xRing.memOk := .ite h.put.emit h
theorem State.memOk.x2hAck : s.x2hAck.memOk := .ite h.put.emit h

theorem State.memOk.xslotCtrl {w} : (s.xslotCtrl w).memOk := by
  unfold State.xslotCtrl
  extract_lets +onlyGivenNames s1
  have h1 : s1.memOk := .ite h.h2xRing h
  exact .ite h1.x2hAck h1

theorem State.memOk.execH2xRing {acc} : KeepsMemOk (execH2xRing acc s) := .next (h.command fun h => h.xslotCtrl)
theorem State.memOk.execX2hAck {acc} : KeepsMemOk (execX2hAck acc s) := .next (h.command fun h => h.xslotCtrl)
theorem State.memOk.execH2xAck : KeepsMemOk (execH2xAck s) := .next h.h2xAck
theorem State.memOk.execX2hPost : KeepsMemOk (execX2hPost s) := .next h.x2hPost
theorem State.memOk.dikeRefill : s.dikeRefill.memOk := h.upd
theorem State.memOk.clkShow {d} : (s.clkShow d).memOk := .ite h h.put.setStDie
theorem State.memOk.execClkStepWrite {d acc} : KeepsMemOk (execClkStepWrite d acc s) := .next h.writeReg.clkShow

/-! ### Commands of the islands (R435 to R472) -/

theorem State.memOk.islRestart {i} : (s.islRestart i).memOk := h.clearPage.put.put.setIsl
theorem State.memOk.reduced {i on} : (s.reduced i on).memOk := h.putB.islLevel
theorem State.memOk.peerReset {i} : (s.peerReset i).memOk := h.put.islWrite.islRestart

theorem State.memOk.peerDown {k} : (s.peerDown k).memOk :=
  .ite h (.statusFrame (.ite h.put.islLevel.reduced.modIsl.put.modIsl h.put.islLevel.reduced.modIsl.peerReset))

theorem State.memOk.execHeartbeat {i lockstepBad} : KeepsMemOk (execHeartbeat i lockstepBad s) := by
  refine .next (.ite h ?_)
  extract_lets +onlyGivenNames _ s2
  have h2 : s2.memOk := .ite h.emit.put.put h.emit.put
  exact .ite h2.peerDown h2

theorem State.memOk.execPeerDown {i} : KeepsMemOk (execPeerDown i s) := .next h.peerDown

theorem State.memOk.execPeerReturn {i} : KeepsMemOk (execPeerReturn i s) :=
  .next (.ite h (.modIsl (.timersShow (.foldl h.modIsl fun h => h.put.put.reduced.islLevel))))

theorem State.memOk.execPeerReturnTimeout {i} : KeepsMemOk (execPeerReturnTimeout i s) := .next (.ite h.put.modIsl h)
theorem State.memOk.hubLinkGone {i} : (s.hubLinkGone i).memOk := h.put.islLevel

theorem State.memOk.execHubLinkLoss {i peerToo} : KeepsMemOk (execHubLinkLoss i peerToo s) :=
  .next (.ite h (.ite (.allWantModule (.ite h.hubLinkGone.hubLinkGone h.hubLinkGone)) h.hubLinkGone.put.put.put.modIsl))

theorem State.memOk.execLockstepMismatch {i} : KeepsMemOk (execLockstepMismatch i s) := .next (.ite h.islRestart h)

theorem State.memOk.execClockCheck {i peerPpm refPpm} : KeepsMemOk (execClockCheck i peerPpm refPpm s) :=
  .next (.ite h (.ite h.put.put.islWrite h.put.put))

theorem State.memOk.deliver {i sent e} : (s.deliver i sent e).memOk := .ite h (.ite h.modIsl h.satInc.raise)

theorem State.memOk.faultForward : s.faultForward.memOk := by
  unfold State.faultForward
  split
  exacts [h, h.upd.put.put.put.raise.deliver.deliver]

theorem State.memOk.execFaultForward : KeepsMemOk (execFaultForward s) := .next h.faultForward

theorem State.memOk.sumCorrection {i page bit} : (s.sumCorrection i page bit).memOk :=
  .ite h (.ite (.ite h.modIsl.islWrite.modIsl.islArrayOut h.modIsl.islWrite.modIsl) h.modIsl)

theorem State.memOk.dieUncorrectable {i d} : (s.dieUncorrectable i d).memOk := .ite h.modIsl.wantDie h.modIsl

theorem State.memOk.islAct {i e} : (s.islAct i e).memOk := by
  unfold State.islAct
  split
  · exact h
  · exact h.modIsl
  · exact .ite (.ite h.islArrayOut h) (.ite (.ite h.wantDie (.ite h.dieUncorrectable h)) (.ite h.dieUncorrectable h))
  · split
    exacts [h.wantDie, h.wantModule]

theorem State.memOk.repairSync {i page bit} : (s.repairSync i page bit).memOk :=
  .ite h.repairPut1 (.ite h.repairPut1 (.ite (.ite h h.repairPut1) h))

theorem State.memOk.execIslandFaultEvent {i} : KeepsMemOk (execIslandFaultEvent i s) := by
  refine .next ?_
  split
  · exact h
  · exact .ite h.modIsl (.ite h.modIsl.islWrite h.modIsl.islWrite.islAct.sumCorrection.repairSync)

theorem State.memOk.execTapReport {i d hottest syndrome} : KeepsMemOk (execTapReport i d hottest syndrome s) :=
  .next (.ite h (.ite h.tapShow.islWrite.tapStop.tapFence.modIsl (.ite h.tapShow.islWrite.modIsl.wantDie
    h.tapShow.islWrite)))

theorem State.memOk.execTapKeepaliveLoss {i d} : KeepsMemOk (execTapKeepaliveLoss i d s) :=
  .next (.ite h h.tapShow.islWrite.wantDie)

theorem State.memOk.execClearLog {acc} : KeepsMemOk (execClearLog acc s) :=
  .next (h.command fun h => .ite h.upd.put.put h)

theorem State.memOk.execFltInject {acc} : KeepsMemOk (execFltInject acc s) :=
  .next (h.command fun h => .ite h (.ite h.put h.put.upd))

theorem State.memOk.popIslMsg {i} : (s.popIslMsg i).memOk := h.upd
theorem State.memOk.timerOpen {i m} : (s.timerOpen i m).memOk := .ite h.modIsl (.ite h.missJob h.modIsl.timersShow)

theorem State.memOk.execReleaseMessage {i} : KeepsMemOk (execReleaseMessage i s) := by
  refine .next ?_
  split
  exacts [.ite h (.ite h.popIslMsg.timerOpen h.popIslMsg), h]

theorem State.memOk.timerClose {i m} : (s.timerClose i m).memOk := .ite h.modIsl.timersShow h.modIsl.islWrite

theorem State.memOk.execCompletionMessage {i} : KeepsMemOk (execCompletionMessage i s) := by
  refine .next ?_
  split
  exacts [.ite h (.ite h.popIslMsg.timerClose h.popIslMsg), h]

theorem State.memOk.execDeadlineMiss {i q tag} : KeepsMemOk (execDeadlineMiss i q tag s) := by
  refine .next ?_
  split
  exacts [h, h.modIsl.timersShow.missJob]

theorem State.memOk.execSlotStale {i slot} : KeepsMemOk (execSlotStale i slot s) :=
  .next (.ite h h.satInc.islWrite.missSlot.recoveryQuery)

theorem State.memOk.execRecoveryAnswer {i} : KeepsMemOk (execRecoveryAnswer i s) := by
  refine .next ?_
  split
  · exact h
  · extract_lets +onlyGivenNames _ _ _
    split
    · exact .foldl h.put.put.put.put.modIsl fun h => .ite h.wantDie h
    · exact h.put.put.put.put.modIsl.modIsl.emit.islWrite
    · exact h.put.put.put.put.modIsl.islWrite

theorem State.memOk.execRecoveryTimeout {i} : KeepsMemOk (execRecoveryTimeout i s) := by
  refine .next ?_
  split
  exacts [h, h.modIsl.wantModule]

theorem State.memOk.execEngineResetTimeout {i} : KeepsMemOk (execEngineResetTimeout i s) :=
  .next (.ite h.modIsl.wantModule h)

theorem State.memOk.planTake {i m} : (s.planTake i m).memOk := by
  unfold State.planTake
  extract_lets +onlyGivenNames _ s1
  have h1 : s1.memOk := .ite h.modIsl h
  exact .ite h1 (.ite (.ite h1.fallbackEnd.planFrame h1) (.ite h1.put h1.put.planFrame))

theorem State.memOk.execResultMessage {i} : KeepsMemOk (execResultMessage i s) := by
  refine .next ?_
  split
  · exact h
  · refine .ite h.upd ?_
    extract_lets +onlyGivenNames _ _ s4
    have h4 : s4.memOk := .ite h.upd.modIsl.put.emit h.upd.modIsl.put
    exact .ite h4.modIsl h4.planTake

theorem State.memOk.execFallbackFrame {i slot} : KeepsMemOk (execFallbackFrame i slot s) :=
  .next (.ite h.fallbackFrame h)

theorem State.memOk.execStatusFrame {i} : KeepsMemOk (execStatusFrame i s) := .next (.ite h.statusFrame h)
theorem State.memOk.fenceForGood {d} : (s.fenceForGood d).memOk := h.foldl fun h => h.tapFence.islWrite

theorem State.memOk.execDieReset {i d} : KeepsMemOk (execDieReset i d s) := by
  refine .next (.ite h (.ite h.modIsl.modIsl (.ite h.modIsl.modIsl.fenceForGood ?_)))
  extract_lets +onlyGivenNames _ s3
  have h3 : s3.memOk := .dieReset (.tapFence (.tapStop (.foldl h.modIsl.modIsl fun h => h.modIsl.satInc.islWrite)))
  exact h3.upd

theorem State.memOk.testFailed {d a part action} : (s.testFailed d a part action).memOk := h.put.put.put.put.put.raise

theorem State.memOk.partFailed {d a p part} : (s.partFailed d a p part).memOk := by
  unfold State.partFailed
  extract_lets +onlyGivenNames _
  split
  exacts [h.putWord.capsShow.enterCaps.testFailed, h.put.setService.enterRetired.testFailed]

theorem State.memOk.execDieSelfTestDone {d failures} : KeepsMemOk (execDieSelfTestDone d failures s) := by
  refine .next (.ite h ?_)
  extract_lets +onlyGivenNames _ s2
  have h2 : s2.memOk := by
    unfold s2
    refine .foldl (h.foldl fun h => h.modArr) fun h => ?_
    split
    exacts [.ite h.partFailed h, h]
  exact h2.setCdState.upd.discFlit

/-! ### The twin pair (R425 to R429) -/

theorem State.memOk.pathsDiffer {a b} : (s.pathsDiffer a b).memOk := by
  unfold State.pathsDiffer
  split
  exacts [h.raiseIf, h]

theorem State.memOk.twinTake {r} : (s.twinTake r).memOk := h.upd.pathsDiffer.pathsDiffer

theorem State.memOk.execTwinDigest {l f} : KeepsMemOk (execTwinDigest l f s) :=
  .next (h.xReceive fun h => .ite h.count (.ite h (.ite h h.publish.twinTake)))

theorem State.memOk.execTwinControl {l f} : KeepsMemOk (execTwinControl l f s) := by
  refine .next (h.xReceive fun h => ?_)
  extract_lets +onlyGivenNames _
  split
  exacts [h.twinRestart, h.upd, h]

theorem State.memOk.execTwinRestart {acc} : KeepsMemOk (execTwinRestart acc s) := .next (h.command fun h => h.xgsCtrl)

theorem State.memOk.popWait {i slot index} : (s.popWait i slot index).1.memOk := by
  unfold State.popWait
  extract_lets +onlyGivenNames _
  split
  exacts [.fst h, .fst h.modIsl]

theorem State.memOk.streamsBack : s.streamsBack.memOk := by
  unfold State.streamsBack
  extract_lets +onlyGivenNames s1
  have h1 : s1.memOk := h.foldl fun h => h.foldl fun h => .ite h.put h
  exact h1.upd

theorem State.memOk.streamsOut : s.streamsOut.memOk := by
  unfold State.streamsOut
  extract_lets +onlyGivenNames s1
  have h1 : s1.memOk := h.foldl fun h => .fallbackShow (h.foldl fun h => h.put)
  exact h1.upd

theorem State.memOk.pairEmit {slot index} : (s.pairEmit slot index).memOk := by
  refine h.foldl fun h => ?_
  extract_lets +onlyGivenNames _
  split
  exacts [h.popWait.planTake, h.popWait]

theorem State.memOk.pairDrop {slot index} : (s.pairDrop slot index).memOk := h.foldl fun h => h.popWait

theorem State.memOk.twinAgree {slot index} : (s.twinAgree slot index).memOk := by
  unfold State.twinAgree
  extract_lets +onlyGivenNames _ s2
  have h2 : s2.memOk := .foldl h.count.put.put.put fun h => h.put
  exact .pairEmit (.bothWrite (.ite h2.upd.streamsBack h2.upd))

theorem State.memOk.twinHold {slot index} : (s.twinHold slot index).memOk := by
  unfold State.twinHold
  extract_lets +onlyGivenNames _ s2
  have h2 : s2.memOk := .ite h.pairDrop.put h.pairDrop.put
  exact h2.foldl fun h => h.foldl fun h => h.fallbackStart

theorem State.memOk.twinMismatch {slot index mine yours} : (s.twinMismatch slot index mine yours).memOk :=
  .ite h.satInc.raise.bothWrite.pairDrop.streamsOut (.ite h.satInc.raise.bothWrite.pairEmit
    h.satInc.raise.bothWrite.twinHold)

theorem State.memOk.execTwinCompare {slot index} : KeepsMemOk (execTwinCompare slot index s) := by
  refine .next ?_
  split
  exacts [.ite h.upd.twinAgree h.upd.twinMismatch, h]

theorem State.memOk.execTwinAbsent {slot} : KeepsMemOk (execTwinAbsent slot s) := by
  refine .next ?_
  split
  · exact h
  · refine .ite h ?_
    extract_lets +onlyGivenNames _ _ _ _ _ s3 s4
    have h3 : s3.memOk := .bothWrite (.ite h.raise.upd.put h.raise.upd)
    have h4 : s4.memOk := .ite h3.pairEmit h3.pairDrop
    exact h4.foldl fun h => .ite h.fallbackStart h

theorem State.memOk.execIslandTwinDigest {i slot index digest} :
    KeepsMemOk (execIslandTwinDigest i slot index digest s) :=
    .next (.ite h h.upd.pathsDiffer)

end Sys2Proof.Machine
end

section
/-! SUPPORT. Self-test, resets, power, boot and the replay farm keep the canonical form of device memory (O59). -/

namespace Sys2Proof.Machine

variable {s : State} (h : s.memOk)
include h

/-! ### Self-test and placement (R475 to R497) -/

theorem State.memOk.windowOpen {d a} : (s.windowOpen d a).memOk := h.setStDie.put
theorem State.memOk.windowClose {d a} : (s.windowClose d a).memOk := .ite h.setStDie.modArr.put h.setStDie.modArr
theorem State.memOk.testShow : s.testShow.memOk := h.put

theorem State.memOk.execStestEnable {acc} : KeepsMemOk (execStestEnable acc s) :=
  .next (h.command fun h => .ite (.ite h.put.testShow h) h.put.testShow)

theorem State.memOk.execSliceStart {d} : KeepsMemOk (execSliceStart d s) := by
  refine .next ?_
  split
  exacts [.ite h (.ite h.windowOpen h.setStDie), h]

theorem State.memOk.execWindowOpen {d} : KeepsMemOk (execWindowOpen d s) := by
  refine .next ?_
  split
  exacts [.ite h.windowOpen h, h]

theorem State.memOk.execDrainTimeout {d} : KeepsMemOk (execDrainTimeout d s) := by
  refine .next ?_
  split
  exacts [.ite h h.setStDie.count.raise, h]

theorem State.memOk.coverageShow : s.coverageShow.memOk := h.put

theorem State.memOk.targetsDone : s.targetsDone.memOk :=
  .ite h (.ite h.put.testShow.raise.put.raise.bothWrite h.put.testShow.raise)

theorem State.memOk.targetFailed {d a} : (s.targetFailed d a).memOk := .ite h (.ite h.put.allWantDie.streamsOut h.put)

theorem State.memOk.passDone {d a} : (s.passDone d a).memOk := by
  unfold State.passDone
  extract_lets +onlyGivenNames _ _ _ s2
  have h2 : s2.memOk := .foldl h.setStDie.modArr.count.raise fun h => h.modIsl
  exact h2.windowClose.setService.coverageShow

theorem State.memOk.execPartDone {d pass overlapsDip} : KeepsMemOk (execPartDone d pass overlapsDip s) := by
  refine .next ?_
  split
  · exact h
  · extract_lets +onlyGivenNames _ _ _ s2
    have h2 : s2.memOk := .ite h.setStDie h.setStDie.targetFailed.partFailed
    exact .ite h2.setStDie.windowClose.coverageShow.targetsDone (.ite h2.passDone.targetsDone (.ite h2.windowClose h2))

theorem State.memOk.execCoverage {d a ageMs} : KeepsMemOk (execCoverage d a ageMs s) :=
  .next (.ite h h.setStDie.coverageShow.raise.bothWarn)

theorem State.memOk.execTargetedTest {acc} : KeepsMemOk (execTargetedTest acc s) :=
  .next (h.command fun h => .ite h (.ite h.put (.targetsDone (.testShow (.put
    (.put (h.foldl fun h => h.put.setStDie)))))))

theorem State.memOk.execArrayOut {acc} : KeepsMemOk (execArrayOut acc s) :=
  .next (h.command fun h => .ite h (.ite h.put (.ite h.put.setStDie h.put.setStDie.slotLeft)))

theorem State.memOk.execArrayReturn {acc} : KeepsMemOk (execArrayReturn acc s) :=
  .next (h.command fun h => .ite h (.ite h.put h.put.put.setService))

theorem State.memOk.execDieOut {acc} : KeepsMemOk (execDieOut acc s) :=
  .next (h.command fun h => .ite h (.ite h.put (.ite h.put.setStDie.serviceShow h.put.setStDie.serviceShow.emit)))

theorem State.memOk.stackMove {acc op} : (s.stackMove acc op).memOk := by
  refine h.command fun h => .ite h ?_
  extract_lets +onlyGivenNames _ _ base
  clear_value base
  split
  exacts [.ite h.put h.put.put.put.upd, h.put]

theorem State.memOk.execSpill {acc} : KeepsMemOk (execSpill acc s) := .next h.stackMove
theorem State.memOk.execStackReturn {acc} : KeepsMemOk (execStackReturn acc s) := .next h.stackMove

theorem State.memOk.stackCopy {src dst} : (s.stackCopy src dst).memOk := by
  refine memWf_foldl (fun h => ?_) h.zeroAt
  split
  exacts [memWf_cellSet _ _ h, h]

theorem State.memOk.execStackCopyDone : KeepsMemOk (execStackCopyDone s) := by
  refine .next ?_
  split
  · exact h
  · extract_lets +onlyGivenNames s1
    have h1 : s1.memOk := .ite h.stackCopy h.stackCopy
    exact h1.upd.put.put.put.put.raiseIf

theorem State.memOk.execIslandTest {acc} : KeepsMemOk (execIslandTest acc s) :=
  .next (h.command fun h => .ite h (.ite h.put h.put.modIsl.put.reduced.peerReset))

theorem State.memOk.execRepairClear {acc} : KeepsMemOk (execRepairClear acc s) := by
  refine .next (h.command fun h => .ite h ?_)
  split
  exacts [.ite h.put h.put.repairPut.bothWarn, h.put]

theorem State.memOk.reclaim {n} : (s.reclaim n).memOk := .ite h.setStDie.windowClose.count.raise h
theorem State.memOk.placeArrays {j ns} : (s.placeArrays j ns).memOk := .ite h (.setJob (h.foldl fun h => h.reclaim))

theorem State.memOk.placeHub {j} : (s.placeHub j).memOk :=
  .ite h.setJob (.ite h.load.setJob.commandFailed h.load.setJob.hubShow)

theorem State.memOk.execJobPlace {id arrays} : KeepsMemOk (execJobPlace id arrays s) := by
  refine .next ?_
  split
  exacts [h, .ite h (.ite h.placeArrays h.placeHub)]

/-! ### Records applied in replay (R325 to R330) -/

theorem State.memOk.replayEnd : s.replayEnd.memOk := h.farmIdle.put.put.put.raise

theorem State.memOk.replayIngress {r off data} : (s.replayIngress r off data).memOk :=
  h.replayTake.putPos.commitRecord.modStream

theorem State.memOk.replayItem {r} : (s.replayItem r).memOk := by
  unfold State.replayItem
  extract_lets +onlyGivenNames _ s0
  have h0 : s0.memOk := .ite h h.upd
  split
  · exact h.replayStop
  · refine .ite h0 ?_
    split
    next => exact h0
    next heq => exact State.memOk.replayIngress (h0.placeData _ heq)

theorem State.memOk.replayDoorbell {r} : (s.replayDoorbell r).memOk :=
  .ite (.setQueue (.putPos (.replayTake (h.foldl fun h => h.store)))) h.replayTake.putPos

theorem State.memOk.replayPositioned {r} : (s.replayPositioned r).memOk := by
  unfold State.replayPositioned
  extract_lets +onlyGivenNames _
  split
  · exact h.replayItem
  · exact .ite h.replayIngress h
  · exact .ite h.replayIngress h
  · exact h.replayDoorbell
  · exact h.replayTake.putPos.fenceAdd
  · exact h.replayTake.putPos.store
  · exact h.replayTake.putPos.twinTake
  · exact h.replayTake.putPos.fusRecord
  · exact h

theorem State.memOk.replayUnpositioned {r} : (s.replayUnpositioned r).memOk := by
  unfold State.replayUnpositioned
  extract_lets +onlyGivenNames _ _
  split
  exacts [h.replayStop, h.upd.replayEnd, h.upd.detAdd, h.replayStop, h.upd.farmHold]

theorem State.memOk.execReplayApply : KeepsMemOk (execReplayApply s) :=
  .next (.ite h (.ite h.replayEnd (.ite h.replayStop.raise (.ite h.replayStop
    (.ite h.replayStop (.ite h.replayUnpositioned (.ite h.replayStop (.ite h.farmHold h.replayPositioned))))))))

theorem State.memOk.execReplayRemoteSignal : KeepsMemOk (execReplayRemoteSignal s) :=
  .next (.ite h (.ite h h.replayTake.putPos.fenceAdd.upd))

/-! ### Resets (R66 to R70, R466) -/

theorem State.memOk.dipReport {r p} : (s.dipReport r p).memOk :=
  .ite h.put.count.put.put.raise.put.raise h.put.count.put.put.raise

theorem State.memOk.dipsReport : s.dipsReport.memOk := h.foldl fun h => h.dipReport
theorem State.memOk.hubClkShow : s.hubClkShow.memOk := h.put.put
theorem State.memOk.clksShow : s.clksShow.memOk := .foldl h.hubClkShow fun h => h.clkShow
theorem State.memOk.ingReset : s.ingReset.memOk := h.foldl fun h => .ite h.streamStop.modStream h
theorem State.memOk.wardReset : s.wardReset.memOk := h.upd
theorem State.memOk.classFail {cls} : (s.classFail cls).memOk := h.foldl fun h => h.commandFailed
theorem State.memOk.fusReset : s.fusReset.memOk := h.fusFailAll.upd
theorem State.memOk.projReset : s.projReset.memOk := h.classFail.upd
theorem State.memOk.reflexRefused {port epoch} : (s.reflexRefused port epoch).memOk := h.poke

theorem State.memOk.collReset : s.collReset.memOk := by
  unfold State.collReset
  extract_lets +onlyGivenNames s1 s2 s3
  have h1 : s1.memOk := h.foldl fun h => h.reflexRefused
  have h2 : s2.memOk := h1.foldl fun h => h.reflexRefused
  have h3 : s3.memOk := by
    unfold s3
    split
    exacts [h2.commandFailed, h2]
  exact h3.upd

theorem State.memOk.planReset : s.planReset.memOk := by
  unfold State.planReset
  extract_lets +onlyGivenNames s1 s2
  have h1 : s1.memOk := h.foldl fun h => h.planStop.planKept
  have h2 : s2.memOk := by
    unfold s2
    split
    exacts [h1.commandFailed, h1]
  exact h2.upd

theorem State.memOk.kvReset : s.kvReset.memOk := .upd (.classFail (h.foldl fun h => h.slotFault.modArr))
theorem State.memOk.jrnReset : s.jrnReset.memOk := h.closeHostData.replayStop.upd
theorem State.memOk.slotAborted {n} : (s.slotAborted n).memOk := h.slotFault.dropPins.slotGone.put.modArr

theorem State.memOk.qengAbort1 {j} : (s.qengAbort1 j).memOk := by
  unfold State.qengAbort1
  extract_lets +onlyGivenNames _ s1
  have h1 : s1.memOk := h.foldl fun h => h.slotAborted
  exact h1.setJob.jobDone

theorem State.memOk.queueOff {q} : (s.queueOff q).memOk := .ite h h.store.setQueue

theorem State.memOk.qengReset : s.qengReset.memOk := by
  unfold State.qengReset
  extract_lets +onlyGivenNames _ _ _ _ _ _ s2
  have h2 : s2.memOk := .buildOver (.planShow (.projShow (.fusIdle (.foldl h.upd fun h => h.qengAbort1))))
  exact .upd (h2.foldl fun h => h.queueOff)

theorem State.memOk.xgsReset : s.xgsReset.memOk := by
  unfold State.xgsReset
  extract_lets +onlyGivenNames _ s2
  have h2 : s2.memOk := .domainEnd (h.foldl fun h => h.collEnd.raise)
  exact h2.upd

theorem State.memOk.memgReset : s.memgReset.memOk := h.upd
theorem State.memOk.stestReset : s.stestReset.memOk := h.foldl fun h => h.sliceLost.setStDie

theorem State.memOk.farmReset : s.farmReset.memOk := by
  unfold State.farmReset
  extract_lets +onlyGivenNames _ s1
  have h1 : s1.memOk := .ite h.storeRaw h
  exact h1.upd

theorem State.memOk.blockEnds {b inst} : (s.blockEnds b inst).memOk := by
  unfold State.blockEnds
  split
  · exact h.upd
  · exact h.upd.put
  · exact h.qengReset
  · exact h.jrnReset
  · exact h.upd
  · exact h.ingReset
  · exact h.foldl fun h => h.frameDrop
  · exact h.wardReset
  · exact h.fusReset
  · exact h.projReset
  · exact h.upd
  · exact h.collReset
  · exact h.planReset
  · exact h.kvReset
  · exact h.xgsReset
  · exact h.linkDown
  · exact h.pcieReset
  · exact .upd (h.foldl fun h => h.faultForward)
  · exact h.stestReset
  · exact h.farmReset
  · exact h.flushEnd
  · exact h.memgReset
  · exact h.arrReset
  · exact h

theorem State.memOk.blockShows {old b inst} : (s.blockShows old b inst).memOk := by
  unfold State.blockShows
  split
  · exact h.put
  · exact h.dipsReport
  · exact .putB (.putB (.put (.ite h.put h)))
  · exact h.put
  · exact .ite h.put.put h
  · exact h.put
  · exact .ite h.linkTrain h
  · exact h.put.put
  · exact h.put.put.put.mcMode
  · exact h.put.put.put.put.put.put.mcModes
  · exact h.put
  · exact h.put
  · exact h

theorem State.memOk.blockReset {page} : (s.blockReset page).memOk := by
  unfold State.blockReset
  split
  exacts [h, h.blockEnds.clearPage.blockShows.put.put]

theorem State.memOk.execBlockReset {acc} : KeepsMemOk (execBlockReset acc s) :=
  .next (h.command fun h => .ite h (.ite h.put h.put.put.blockReset))

theorem State.memOk.blockReady {p} : (s.blockReady p).memOk := .foldl h.put.put fun h => .ite h.modIsl h

theorem State.memOk.execBlockResetDone : KeepsMemOk (execBlockResetDone s) :=
  .next (.ite h (.put (h.foldl fun h => h.blockReady)))

theorem State.memOk.updateLost : s.updateLost.memOk := by
  unfold State.updateLost
  split
  exacts [h, .foldl h.fresh fun h => h.norPut]

theorem State.memOk.hubReset {keep} : (s.hubReset keep).memOk := by
  unfold State.hubReset
  extract_lets +onlyGivenNames s0 _ _ s1
  have h0 : s0.memOk := .updateLost (h.foldl fun h => h.faultForward)
  have h1 : s1.memOk := memWf_filter _ h0
  exact h1.putB.clksShow.dipsReport.foldl fun h => h.putWord.put.put.timersShow

theorem State.memOk.workEnds : s.workEnds.memOk :=
  .qengReset (.foldl h.fusReset.projReset.kvReset.collReset.planReset fun h => h.jobDone)

theorem State.memOk.moduleReset {cause} : (s.moduleReset cause).memOk := h.workEnds.upd.hubReset.put.put
theorem State.memOk.modNote {i} : (s.modNote i).memOk := h.modIsl.satInc.islWrite

theorem State.memOk.moduleFailed : s.moduleFailed.memOk := by
  unfold State.moduleFailed
  extract_lets +onlyGivenNames s1
  have h1 : s1.memOk := h.foldl fun h => .islWrite (.islLevel (.put (h.foldl fun h => .ite h h.fallbackStart)))
  exact h1.upd

theorem State.memOk.execModuleReset {i cause} : KeepsMemOk (execModuleReset i cause s) := by
  refine .next (.ite h (.ite h.modIsl.modIsl.upd ?_))
  extract_lets +onlyGivenNames _ s1 _ s2
  have h1 : s1.memOk := .moduleReset (h.foldl fun h => h.modNote)
  have h2 : s2.memOk := .ite h1.upd h1
  exact .ite h2.moduleFailed h2

theorem State.memOk.execModuleResetReq {acc} : KeepsMemOk (execModuleResetReq acc s) :=
  .next (h.command fun h => .ite h.allWantModule h)

/-! ### Power, supplies and temperatures (R498 to R520) -/

theorem State.memOk.powerState {v} : (s.powerState v).memOk := .ite h h.put.raise
theorem State.memOk.runCheck : s.runCheck.memOk := .ite h.upd.powerState h
theorem State.memOk.parkSave : s.parkSave.memOk := h.foldl fun h => h.psramPut
theorem State.memOk.parkHub {m} : (s.parkHub m).memOk := h.hubReset.putWord.upd
theorem State.memOk.parkEnter : s.parkEnter.memOk := h.parkSave.parkHub.put
theorem State.memOk.sleepEnter : s.sleepEnter.memOk := h.hubReset.put.put.modIsl.modIsl.put

theorem State.memOk.warmGo : s.warmGo.memOk := by
  unfold State.warmGo
  split
  exacts [h.sleepEnter, .ite h.parkEnter h, h.runCheck, h]

theorem State.memOk.warmCheck : s.warmCheck.memOk := .ite h.upd.powerState.warmGo h
theorem State.memOk.execParkReady : KeepsMemOk (execParkReady s) := .next (.ite h.parkReady.warmGo h.parkReady)

theorem State.memOk.powerAsk {v} : (s.powerAsk v).memOk :=
  .ite h.put.raise (.ite (.ite h.put.upd h.put.upd.runCheck) (.ite h.put.upd.warmCheck h.put.upd.warmGo))

theorem State.memOk.powerRequest {acc v} : (s.powerRequest acc v).memOk := h.command fun h => .ite h.powerAsk h
theorem State.memOk.execRequestDeepSleep {acc} : KeepsMemOk (execRequestDeepSleep acc s) := .next h.powerRequest
theorem State.memOk.execRequestPark {acc} : KeepsMemOk (execRequestPark acc s) := .next h.powerRequest

theorem State.memOk.execUngate {d} : KeepsMemOk (execUngate d s) := by
  refine .next (.ite ?_ h)
  split
  exacts [h.setGate.runCheck, h]

theorem State.memOk.lbLost {n} : (s.lbLost n).memOk := h.setArr.upd

theorem State.memOk.execGate {n} : KeepsMemOk (execGate n s) :=
  .next (.ite h (.ite h.lbLost.setGate.warmCheck (.ite h.setGate (.ite h h.setGate.upd))))

theorem State.memOk.powerOn {rings} : (s.powerOn rings).memOk := by
  unfold State.powerOn
  extract_lets +onlyGivenNames _ s2
  have h2 : s2.memOk := .foldl h.hubReset fun h => h.islRestart.setIsl
  exact h2.upd.put.put.clksShow

theorem State.memOk.execPowerGood : KeepsMemOk (execPowerGood s) := .next h.powerOn
theorem State.memOk.wake {wanted} : (s.wake wanted).memOk := .ite h (.ite h.put.raise.put.upd (.ite h.powerOn.upd h))
theorem State.memOk.execWake : KeepsMemOk (execWake s) := .next h.wake
theorem State.memOk.execRequestWarm {acc} : KeepsMemOk (execRequestWarm acc s) := .next (.ite h.wake h.powerRequest)
theorem State.memOk.execRequestRun {acc} : KeepsMemOk (execRequestRun acc s) := .next (.ite h.wake h.powerRequest)
theorem State.memOk.hold {why} : (s.hold why).memOk := h.upd
theorem State.memOk.unhold {why} : (s.unhold why).memOk := h.upd

theorem State.memOk.execMainInputFault : KeepsMemOk (execMainInputFault s) := by
  unfold Machine.execMainInputFault
  extract_lets +onlyGivenNames s1
  have h1 : s1.memOk := .ite h h.raise
  exact .next (.hold (.hubReset (h1.foldl fun h => .islWrite (h.foldl fun h => .ite h.fallbackStart h))))

theorem State.memOk.execMainInputRestored : KeepsMemOk (execMainInputRestored s) := .next (.ite h.moduleReset.unhold h)

theorem State.memOk.execIslandInputFault : KeepsMemOk (execIslandInputFault s) :=
  .next h.islRestart.islRestart.hubReset.hold

theorem State.memOk.execIslandInputRestored : KeepsMemOk (execIslandInputRestored s) :=
  .next (.ite h.moduleReset.unhold h)

theorem State.memOk.execThermalDiodeRelease : KeepsMemOk (execThermalDiodeRelease s) := .next h.unhold
theorem State.memOk.dipClose {r} : (s.dipClose r).memOk := .ite h.upd.put.put.clkShow h.upd.put.put.hubClkShow

theorem State.memOk.execRailFault {rail} : KeepsMemOk (execRailFault rail s) := by
  refine .next (.ite h ?_)
  extract_lets +onlyGivenNames s0
  have h0 : s0.memOk := .ite h.dipClose h
  exact .ite h0.upd.allWantDie h0.upd.allWantModule

theorem State.memOk.dipMark {r} : (s.dipMark r).memOk := h.upd

theorem State.memOk.execDip {rail mv} : KeepsMemOk (execDip rail mv s) := by
  refine .next (.ite h ?_)
  extract_lets +onlyGivenNames _ _ _ _ s2
  have h2 : s2.memOk := .ite h.upd.dipReport (.ite h.upd.put h.upd)
  exact .dipMark (.ite h2.clkShow h2.hubClkShow)

theorem State.memOk.execDipStepUp {rail us} : KeepsMemOk (execDipStepUp rail us s) := by
  refine .next ?_
  split
  · exact h
  · exact .ite (.ite h.upd.put.dipClose.put h.upd.put.dipClose) (.ite h.upd.put.clkShow h.upd.put.hubClkShow)

theorem State.memOk.execDipLong {rail} : KeepsMemOk (execDipLong rail s) := by
  refine .next ?_
  split
  exacts [h, .ite h h.upd.put.raise]

theorem State.memOk.putC {f t} : (s.putC f t).memOk := .ite h.put h.fresh.put
theorem State.memOk.thmBit {f on ev} : (s.thmBit f on ev).memOk := h.putB.raiseIf
theorem State.memOk.thmMask {f m ev} : (s.thmMask f m ev).memOk := h.put.raiseIf

theorem State.memOk.execThermalSample {t} : KeepsMemOk (execThermalSample t s) := by
  refine .next (.ite h ?_)
  extract_lets +onlyGivenNames hub s1 _ s2 show1
  have h1 : s1.memOk := by
    unfold s1
    clear_value hub
    split
    exacts [h.put.put, h]
  have h2 : s2.memOk := h1.foldl fun h => .ite h.putC h
  have hshow {u f x w} (hu : u.memOk) : (show1 u f x w).memOk := by
    unfold show1
    split
    exacts [.ite hu.put hu.putC, hu]
  extract_lets +onlyGivenNames s3 _ _ _ _ _ _ _ s5
  have h3 : s3.memOk := hshow (hshow (hshow (hshow h2)))
  have h5 : s5.memOk := h3.thmMask.thmMask.thmBit.thmBit
  exact .ite h5.allWantModule h5

theorem State.memOk.serviceChanged : s.serviceChanged.memOk :=
  .raise (.clksShow (.foldl (h.foldl fun h => h.serviceShow) fun h => .ite h.capsSet h))

theorem State.memOk.serviceWrite {v} : (s.serviceWrite v).memOk :=
  .ite h.put (.ite h.put.put.put.serviceChanged.upd.powerState (.ite h.put.put.serviceChanged h.put.raise))

theorem State.memOk.serviceCommand {acc} : (s.serviceCommand acc).memOk := h.command fun h => h.serviceWrite
theorem State.memOk.execReducedService {acc} : KeepsMemOk (execReducedService acc s) := .next h.serviceCommand
theorem State.memOk.execFullService {acc} : KeepsMemOk (execFullService acc s) := .next h.serviceCommand

/-! ### Boot, updates and attestation (R521 to R544) -/

theorem State.memOk.bankMark {i b v} : (s.bankMark i b v).memOk := h.norPut
theorem State.memOk.trialOver {i b} : (s.trialOver i b).memOk := .ite h.bankMark.upd h

theorem State.memOk.bankChoose {i} : (s.bankChoose i).1.memOk := by
  unfold State.bankChoose
  extract_lets +onlyGivenNames _
  split
  · exact .fst h.trialOver.trialOver.norPut
  · split <;> exact .fst h.trialOver.trialOver

omit h in
/-- One round of the ROM's search. The functions that it calls are set aside first: the two sides agree without running
  them. -/
theorem State.bankBoot_succ {i n} : s.bankBoot i (n + 1) =
    match s.bankChoose i with
    | (s1, none) => (s1, none)
    | (s1, some b) =>
      if s1.bankOk i b then (s1, some b)
      else
        let s2 := s1.bankMark i b 3
        State.bankBoot { s2 with sec := { s2.sec with boot := { s2.sec.boot with fell := true } } } i n := by
  delta State.bankBoot State.bankBoot._f
  generalize State.bankChoose = choose
  generalize State.bankMark = mark
  generalize State.bankOk = ok
  rfl

theorem State.memOk.bankBoot {i n} : (s.bankBoot i n).1.memOk := by
  induction n generalizing s with
  | zero => exact h
  | succ n ih =>
    have hc := h.bankChoose (i := i)
    rw [State.bankBoot_succ]
    generalize s.bankChoose i = r at hc ⊢
    obtain ⟨s1, _ | b⟩ := r
    · exact hc
    · dsimp only
      split
      exacts [hc, ih (State.memOk.bankMark hc).upd]

theorem State.memOk.repairLoad {i} : (s.repairLoad i).memOk := by
  unfold State.repairLoad
  extract_lets +onlyGivenNames _
  split
  exacts [h, h.psramPut.modIsl]

theorem State.memOk.islShow {i b} : (s.islShow i b).memOk := h.upd.put.put.put.put.put.put.put.put.put.put.put.put.put
theorem State.memOk.strapFault : s.strapFault.memOk := h.bothWrite.hubReset.hold

theorem State.memOk.execIslandBoot {i role bootSrc} : KeepsMemOk (execIslandBoot i role bootSrc s) := by
  refine .next (.ite h ?_)
  extract_lets +onlyGivenNames _ _
  split
  · exact .ite h.bankBoot.modIsl.hold h.bankBoot.modIsl
  · extract_lets +onlyGivenNames _ _ _ _ _ _ s3
    have h3 : s3.memOk := .faultHeader (.islShow (.ite h.bankBoot.modIsl.repairLoad.upd h.bankBoot.modIsl))
    exact .ite h3.strapFault h3

theorem State.memOk.measure {k d} : (s.measure k d).memOk := h.upd

theorem State.memOk.measureIslands : s.measureIslands.memOk :=
  .measure (.foldl h.measure.measure fun h => h.measure.measure)

theorem State.memOk.hubStart {src fw} : (s.hubStart src fw).memOk :=
  h.putWord.put.put.putB.raiseIf.upd.cfgWritten.runCheck

theorem State.memOk.execHubImageAccept : KeepsMemOk (execHubImageAccept s) := by
  refine .next (.ite h (.ite h.hubStart ?_))
  split
  exacts [h, .ite h h.measureIslands.measure.hubStart]

theorem State.memOk.bootFailed : s.bootFailed.memOk := .foldl h.hold fun h => h.islWrite.put.islLevel

theorem State.memOk.execHubImageRefused : KeepsMemOk (execHubImageRefused s) := by
  refine .next (.ite h (.ite h.upd ?_))
  split
  exacts [h, .ite h.upd.bootFailed h.upd]

theorem State.memOk.execTestContentAccept : KeepsMemOk (execTestContentAccept s) := by
  refine .next (.ite h ?_)
  extract_lets +onlyGivenNames _ _ _ s1
  have h1 : s1.memOk := .ite h h.store
  exact .ite h1.measure h1

theorem State.memOk.bootTake {no act} (hact : ∀ {s}, s.memOk → (act s).memOk) : (s.bootTake no act).memOk :=
  .ite h.put (hact h.put)

theorem State.memOk.hostGo : s.hostGo.memOk := h.bootTake fun h => h.upd
theorem State.memOk.testGo : s.testGo.memOk := h.bootTake fun h => h.upd
theorem State.memOk.counterUp {c v} : (s.counterUp c v).memOk := .ite h.upd h
theorem State.memOk.bankConfirm {i} : (s.bankConfirm i).memOk := .ite (.foldl h.bankMark fun h => h.counterUp) h

theorem State.memOk.confirmBanks : s.confirmBanks.memOk := by
  unfold State.confirmBanks
  extract_lets +onlyGivenNames s1
  have h1 : s1.memOk := h.foldl fun h => h.bankConfirm
  exact h1.upd.put.raiseIf

theorem State.memOk.bootConfirm : s.bootConfirm.memOk := h.bootTake fun h => h.confirmBanks
theorem State.memOk.restartDue : s.restartDue.memOk := h.upd
theorem State.memOk.bootActivate : s.bootActivate.memOk := h.bootTake fun h => h.restartDue

theorem State.memOk.bootCtrl {w} : (s.bootCtrl w).memOk := by
  unfold State.bootCtrl
  extract_lets on
  have hon {b f u} (hf : ∀ {s : State}, s.memOk → (f s).memOk) (hu : u.memOk) : (on b f u).memOk := .ite (hf hu) hu
  exact hon .testGo (hon .bootActivate (hon .bootConfirm (hon .hostGo h)))

theorem State.memOk.execHostGo {acc} : KeepsMemOk (execHostGo acc s) := .next (h.command fun h => h.bootCtrl)
theorem State.memOk.execTestGo {acc} : KeepsMemOk (execTestGo acc s) := .next (h.command fun h => h.bootCtrl)
theorem State.memOk.execConfirm {acc} : KeepsMemOk (execConfirm acc s) := .next (h.command fun h => h.bootCtrl)
theorem State.memOk.execActivate {acc} : KeepsMemOk (execActivate acc s) := .next (h.command fun h => h.bootCtrl)
theorem State.memOk.execTrialWindowExpiry : KeepsMemOk (execTrialWindowExpiry s) := .next (.ite h.restartDue h)

theorem State.memOk.execActivatingRestart : KeepsMemOk (execActivatingRestart s) :=
  .next (.ite h h.moduleReset.islRestart.islRestart)

theorem State.memOk.attestAsk {act} (hact : ∀ {s}, s.memOk → (act s).memOk) : (s.attestAsk act).memOk :=
  .ite h.put (.put (.put (hact h)))

theorem State.memOk.attestTake {bs} : (s.attestTake bs).memOk := h.upd
theorem State.memOk.askReport : s.askReport.memOk := h.attestAsk fun h => h.attestTake.upd
theorem State.memOk.askCerts : s.askCerts.memOk := h.attestAsk fun h => h.attestTake

theorem State.memOk.attestCtrl {w} : (s.attestCtrl w).memOk := by
  unfold State.attestCtrl
  extract_lets +onlyGivenNames s1
  have h1 : s1.memOk := .ite h.askReport h
  exact .ite h1.askCerts h1

theorem State.memOk.execAttest {acc} : KeepsMemOk (execAttest acc s) := .next (h.command fun h => h.attestCtrl)
theorem State.memOk.execCert {acc} : KeepsMemOk (execCert acc s) := .next (h.command fun h => h.attestCtrl)

theorem State.memOk.execAttestDone : KeepsMemOk (execAttestDone s) := by
  refine .next ?_
  split
  exacts [h, h.store.put.upd.raise]

theorem State.memOk.updateFail {cause} : (s.updateFail cause).memOk := .ite h.put.raise h.put.raise.put

theorem State.memOk.execUpdate {acc} : KeepsMemOk (execUpdate acc s) := by
  refine .next (h.command fun h => .ite h ?_)
  split
  exacts [h.updateFail, .ite h.updateFail (.put (.put (.foldl h.upd fun h => h.put.put)))]

theorem State.memOk.bankWrite {i set} : (s.bankWrite i set).memOk := by
  unfold State.bankWrite
  extract_lets +onlyGivenNames _ _ _ s2
  have h2 : s2.memOk := .norPut (h.foldl fun h => h.norPut)
  exact .put (.ite h2.satInc h2.satInc)

theorem State.memOk.execUpdateDone : KeepsMemOk (execUpdateDone s) := by
  refine .next ?_
  split
  · exact h
  · exact .ite (.updateFail (.foldl h.upd.put fun h => h.put)) h.upd.bankWrite.bankWrite.put.raise

theorem State.memOk.execEnrol {acc} : KeepsMemOk (execEnrol acc s) :=
  .next (h.command fun h => .ite h (.ite h.put h.put.put.upd))

theorem State.memOk.execRollbackAdvance {acc} : KeepsMemOk (execRollbackAdvance acc s) :=
  .next (h.command fun h => .ite h (.ite h.put h.put.upd.raise))

theorem State.memOk.extend {k bs} : (s.extend k bs).memOk := h.measure
theorem State.memOk.execExtend {acc} : KeepsMemOk (execExtend acc s) := .next (h.command fun h => .ite h h.extend)
theorem State.memOk.challenge : s.challenge.memOk := .put (h.foldl fun h => h.fresh.put)
theorem State.memOk.tokenTake : s.tokenTake.memOk := .ite h.put.put.raise h.put.put.put.extend.upd.bothWarn.raise

theorem State.memOk.debugCtrl {w} : (s.debugCtrl w).memOk := by
  unfold State.debugCtrl
  extract_lets +onlyGivenNames s1 s2
  have h1 : s1.memOk := .ite h.tokenTake h
  have h2 : s2.memOk := .ite h1.challenge h1
  exact .ite h2.put h2

theorem State.memOk.execChallenge {acc} : KeepsMemOk (execChallenge acc s) := .next (h.command fun h => h.debugCtrl)
theorem State.memOk.execSubmit {acc} : KeepsMemOk (execSubmit acc s) := .next (h.command fun h => h.debugCtrl)
theorem State.memOk.execLock {acc} : KeepsMemOk (execLock acc s) := .next (h.command fun h => h.debugCtrl)

/-! ### The replay farm (R545 to R558) -/

theorem State.memOk.farmRefuse {cause} : (s.farmRefuse cause).memOk := h.put.put
theorem State.memOk.farmTaken : s.farmTaken.memOk := h.put.put
theorem State.memOk.farmGo : s.farmGo.memOk := .ite h.put h
theorem State.memOk.farmArm : s.farmArm.memOk := .ite h.farmRefuse h.farmTaken.put.farmGo.farmHold
theorem State.memOk.farmDisarm : s.farmDisarm.memOk := h.farmTaken.put.farmGo
theorem State.memOk.farmContinue : s.farmContinue.memOk := h.farmTaken.put.farmGo.count.farmBegin
theorem State.memOk.execBoundary : KeepsMemOk (execBoundary s) := .next (.ite h h.put.raise.telemetry)
theorem State.memOk.execBoundaryFail : KeepsMemOk (execBoundaryFail s) := .next (.ite h h.farmHold.raise)
theorem State.memOk.headsBack : s.headsBack.memOk := .foldl h.upd fun h => h.setQueue
theorem State.memOk.queuesBack : s.queuesBack.memOk := h.foldl fun h => .ite h.store h

theorem State.memOk.farmSave : s.farmSave.memOk :=
  .ite h.farmRefuse (.ite h.farmRefuse h.headsBack.queuesBack.farmTaken.put.upd)

theorem State.memOk.ckptShow {b} : (s.ckptShow b).memOk := .put (h.foldl fun h => h.put)

theorem State.memOk.execSaved : KeepsMemOk (execSaved s) := by
  refine .next ?_
  split
  exacts [h, h.store.ckptShow.put.upd.raise]

theorem State.memOk.farmRestore : s.farmRestore.memOk :=
  .ite h.farmRefuse (.ite h.farmRefuse (.ite h.farmRefuse (.ite h.farmRefuse (.ite h.farmRefuse h.farmTaken.put.upd))))

theorem State.memOk.farmCtrl {w} : (s.farmCtrl w).memOk := by
  unfold State.farmCtrl
  extract_lets on
  have hon {b f u} (hf : ∀ {s : State}, s.memOk → (f s).memOk) (hu : u.memOk) : (on b f u).memOk := .ite (hf hu) hu
  exact hon .farmDisarm (hon .farmArm (hon .farmRestore (hon .farmSave (hon .farmContinue h))))

theorem State.memOk.execFarmContinue {acc} : KeepsMemOk (execFarmContinue acc s) :=
  .next (h.command fun h => h.farmCtrl)

theorem State.memOk.execArm {acc} : KeepsMemOk (execArm acc s) := .next (h.command fun h => h.farmCtrl)
theorem State.memOk.execDisarm {acc} : KeepsMemOk (execDisarm acc s) := .next (h.command fun h => h.farmCtrl)
theorem State.memOk.execSave {acc} : KeepsMemOk (execSave acc s) := .next (h.command fun h => h.farmCtrl)
theorem State.memOk.execRestore {acc} : KeepsMemOk (execRestore acc s) := .next (h.command fun h => h.farmCtrl)
theorem State.memOk.sramClear {rs} : (s.sramClear rs).memOk := memWf_filter _ h
theorem State.memOk.regionBack {r b} : (s.regionBack r b).memOk := h.foldl fun h => h.store

theorem State.memOk.regionsBack {rs b} : (s.regionsBack rs b).memOk := by
  induction rs generalizing s b with
  | nil => exact h
  | cons r rs ih => exact ih h.regionBack

theorem State.memOk.imageReg {p off mask v} : (s.imageReg p off mask v).memOk := by
  unfold State.imageReg
  extract_lets
  split
  exacts [.getD h.setView h.putWord, h]

theorem State.memOk.imageSensors {p off mask b} : (s.imageSensors p off mask b).memOk :=
  .put (h.foldl fun h => h.put.imageReg)

theorem State.memOk.imageRegsBack {rs b} : (s.imageRegsBack rs b).1.memOk := by
  induction rs generalizing s b with
  | nil => exact h
  | cons r rs ih =>
    unfold State.imageRegsBack
    split
    exacts [ih h.imageSensors, ih h.imageReg]

theorem State.memOk.registersBack {b} : (s.registersBack b).memOk := h.imageRegsBack.upd
theorem State.memOk.blockBack {b} : (s.blockBack b).memOk := .upd (.put (.foldl h.upd.putAddr fun h => h.modStream))
theorem State.memOk.egoBack {b} : (s.egoBack b).memOk := h.put.put.upd

theorem State.memOk.fusBack {b} : (s.fusBack b).memOk := by
  unfold State.fusBack
  extract_lets +onlyGivenNames _ s1
  have h1 : s1.memOk := h.foldl fun h => h.modSensor
  exact h1.upd

theorem State.memOk.statusUp {en st v} : (s.statusUp en st v).memOk := h.put
theorem State.memOk.streamsAgain : s.streamsAgain.memOk := h.foldl fun h => .ite h.putStreamOn.streamEnable.modStream h

theorem State.memOk.blocksBack : s.blocksBack.memOk :=
  h.statusUp.statusUp.statusUp.statusUp.statusUp.collBases.upd.put.put.collShow.planShow.afterWrite.streamsAgain

theorem State.memOk.queuesOn {b} : (s.queuesOn b).memOk :=
  h.foldl fun h => .ite h (h.foldl fun h => .ite h.queueEnable h)

theorem State.memOk.execRestored : KeepsMemOk (execRestored s) := by
  refine .next ?_
  split
  · exact h
  · exact h.sramClear.regionsBack.registersBack.blockBack.egoBack.fusBack.blocksBack.put.put.queuesOn.upd.farmBegin.put.put.ckptShow.raise

theorem State.memOk.execStraggler : KeepsMemOk (execStraggler s) := .next (.ite h h.upd.raise.telemetry)
theorem State.memOk.execPeriodic : KeepsMemOk (execPeriodic s) := .next (.ite h h.telemetry)

theorem State.memOk.execTakeover {acc} : KeepsMemOk (execTakeover acc s) :=
  .next (h.command fun h => .ite h (.ite h.put.farmRefuse h.put.farmTaken.put.put.upd.domainForm))

theorem State.memOk.reroute : s.reroute.memOk := h.upd

theorem State.memOk.execRelink {acc} : KeepsMemOk (execRelink acc s) :=
  .next (h.command fun h => .ite h (.ite h.put h.put.put.upd.reroute))

theorem State.memOk.execRelinkExpired {l} : KeepsMemOk (execRelinkExpired l s) :=
  .next (.ite h h.relinkEnd.linkDown.raise.telemetry)

end Sys2Proof.Machine
end

section
/-! SUPPORT. A step keeps the canonical form of device memory (O59). -/

namespace Sys2Proof.Machine

section
variable {s : State} (h : s.memOk)
include h

theorem State.memOk.tick : s.tick.memOk := h.dikeRefill.upd

/-- Every command keeps the canonical form; the arms stand in the order of the opcode table. -/
theorem State.memOk.exec (c : Instr) : KeepsMemOk (exec c s) := by
  unfold Machine.exec
  split
  exacts [h.execHingeFlit, h.execHingeLinkDown, h.execStop, h.execFence, h.execReset, h.execRelease, h.execReadId,
    h.execReadFault, h.execTapCommandDrop, h.execDiscovery, h.execDiscoveryAnswer, h.execDiscAnswerTimeout,
    h.execTopologyCopy, h.execRediscovery, h.execRescan, h.execAdmissionStart, h.execUcieTrainingDone,
    h.execChainReceived, h.execChainVerified, h.execAdmissionOverrun, h.execCommit, h.execCommitApply, h.execReadmit,
    h.execDikeFence, h.execDikeEnableClear, h.execXsRequest, h.execXsRequestUnstall, h.execUcieLinkLoss, h.execH2xRing,
    h.execX2hAck, h.execH2xAck, h.execX2hPost, h.execH2xDataWrite, h.execGridSample, h.execStThrWrite,
    h.execStHystWrite, h.execResetReq, h.execClkStepWrite, h.execRegisterWrite, h.execRcRead, h.execBlkLevelWrite,
    h.execUnlockTimeout, h.execGenHostExpertWrite, h.execTumblerScrub, h.execBlockReset, h.execBlockResetDone,
    h.execModuleResetReq, h.execSlotStart, h.execProgramLoadDone, h.execInstructionComplete, h.execNop, h.execEndSlot,
    h.execJmp, h.execBrz, h.execBrnz, h.execLoop, h.execCall, h.execRet, h.execSli, h.execSlih, h.execSadd, h.execSsub,
    h.execSmul, h.execSget, h.execFenceA, h.execFenceD, h.execFenceP, h.execFenceX, h.execFenceDone, h.execBarD,
    h.execBarP, h.execBarrierRelease, h.execFwait, h.execFwaitSatisfied, h.execFsig, h.execRowwait, h.execRowwaitT,
    h.execRowwaitSatisfied, h.execRowwaitTExpiry, h.execRowpub, h.execRdslot, h.execLd, h.execSt, h.execLdt, h.execStt,
    h.execGather, h.execScatter, h.execScatadd, h.execScataddS, h.execLbcopy, h.execLbfill, h.execDot, h.execConv,
    h.execContractionResume, h.execPartialArrival, h.execRedGet, h.execRedGetComplete, h.execFft, h.execIfft,
    h.execSpmul, h.execKvexp, h.execVadd, h.execVsub, h.execVmul, h.execVfma, h.execVdiv, h.execVsqrt, h.execVmin,
    h.execVmax, h.execVcmp, h.execVsel, h.execViadd, h.execVsh, h.execVand, h.execVor, h.execVcvt, h.execVcvtmx,
    h.execVredsum, h.execVredmax, h.execTrans, h.execShuf, h.execPack, h.execUnpack, h.execVrcpF, h.execVrsqF,
    h.execVexpF, h.execVlogF, h.execRdcyc, h.execRdid, h.execCkdig, h.execLbsig, h.execBrk, h.execSlotStop,
    h.execArrayDrainDone, h.execHalt, h.execResume, h.execAbort, h.execArrCapDisableWrite, h.execArrInjectOneByte,
    h.execArrInjectTwoBytes, h.execKvResolve, h.execPinRelease, h.execKvWriteRequest, h.execCowCopyDone,
    h.execCowCommit, h.execKvWriteResume, h.execSeqOpen, h.execSeqClose, h.execShare, h.execFree, h.execAlloc,
    h.execKvEnable, h.execKvSweepDone, h.execKvDisable, h.execKvResume, h.execStreamEnable, h.execStreamDisable,
    h.execCsiPacket, h.execEthFrame, h.execSpiFrame, h.execCanFdFrame, h.execXsItemReturn, h.execItemCommit,
    h.execDropRecord, h.execStale, h.execWardPoint, h.execWardRun, h.execPreempt, h.execWardJobDone, h.execOverrun,
    h.execWardBudgetRefill, h.execEgoEnable, h.execInertialItem, h.execWheelItem, h.execProjEnable, h.execP2i,
    h.execP2g, h.execF2g, h.execDelta, h.execBias, h.execFusEnable, h.execFusResume, h.execInstantRequest,
    h.execFusionInput, h.execFusionTimeout, h.execInstantRelease, h.execInstantInputsReady, h.execInstantDeadline,
    h.execCollEnable, h.execPublish, h.execGridBuildDone, h.execRetire, h.execLoad, h.execRoadmapCheck,
    h.execReflexQuery, h.execReflexVerdict, h.execPlan, h.execSweepStart, h.execSweepDone, h.execSelectionDone,
    h.execAttemptDone, h.execPlanDeadline, h.execPlanEnable, h.execPlanResume, h.execRecord, h.execReplay, h.execJrnOff,
    h.execSegment, h.execJrnStop, h.execJournalWrite, h.execHeaderCheckDone, h.execReplayApply,
    h.execReplayRemoteSignal, h.execReplayStall, h.execQEnable, h.execQDisable, h.execQWriteback, h.execResetIndices,
    h.execDoorbell, h.execJobTake, h.execJobRelease, h.execJobPlace, h.execJobComplete, h.execCompletionRecord,
    h.execQengAbort, h.execCopy, h.execFill, h.execFenceInc, h.execFenceSet, h.execDramWrite, h.execDramRead,
    h.execTrain, h.execTrainingStepDone, h.execSegmentSwept, h.execTemperatureRead, h.execMr4Read, h.execRefresh,
    h.execRetrain, h.execRetrainDone, h.execFlush, h.execFlushDone, h.execPatrolScrub, h.execRowRetireDone,
    h.execChannelRetire, h.execChannelRestore, h.execChannelCopyDone, h.execParkPrep, h.execParkReady,
    h.execParkRestore, h.execMemoryTest, h.execTestDone, h.execMcSpillWrite, h.execMcRemapEntryWrite,
    h.execMcInjectOneByte, h.execMcInjectTwoBytes, h.execPsrRead, h.execNorRead, h.execReadDone, h.execBar2Write,
    h.execBar2Read, h.execHostReadCompletion, h.execCompletionTimeout, h.execMsiSend, h.execPerst, h.execHotReset,
    h.execPcieLinkDown, h.execD3hotExit, h.execPcieRetrain, h.execXagusWrite, h.execReadRequest, h.execReadReturn,
    h.execWriteAcknowledge, h.execRemoteSignal, h.execSignalAcknowledge, h.execHello, h.execLinkState,
    h.execCollectiveData, h.execCollectiveControl, h.execTwinDigest, h.execTwinControl, h.execXlLinkDown,
    h.execXlRetrain, h.execXlTrainingDone, h.execXgsEnable, h.execRediscover, h.execTwinRestart, h.execDomainQuiescent,
    h.execCollectiveStart, h.execCollectiveDone, h.execTwinCompare, h.execTwinAbsent, h.execIslandTwinDigest,
    h.execHeartbeat, h.execPeerDown, h.execPeerReturn, h.execPeerReturnTimeout, h.execHubLinkLoss,
    h.execLockstepMismatch, h.execClockCheck, h.execFaultForward, h.execIslandFaultEvent, h.execTapReport,
    h.execTapKeepaliveLoss, h.execReleaseMessage, h.execCompletionMessage, h.execDeadlineMiss, h.execSlotStale,
    h.execRecoveryAnswer, h.execRecoveryTimeout, h.execEngineResetTimeout, h.execResultMessage, h.execFallbackFrame,
    h.execStatusFrame, h.execDieReset, h.execDieSelfTestDone, h.execModuleReset, h.execClearLog, h.execFltInject,
    h.execStestEnable, h.execSliceStart, h.execWindowOpen, h.execDrainTimeout, h.execPartDone, h.execCoverage,
    h.execTargetedTest, h.execArrayOut, h.execArrayReturn, h.execDieOut, h.execSpill, h.execStackReturn,
    h.execStackCopyDone, h.execIslandTest, h.execRepairClear, h.execPowerGood, h.execRequestDeepSleep,
    h.execRequestPark, h.execRequestWarm, h.execRequestRun, h.execUngate, h.execGate, h.execWake, h.execMainInputFault,
    h.execMainInputRestored, h.execIslandInputFault, h.execIslandInputRestored, h.execRailFault, h.execDip,
    h.execDipStepUp, h.execDipLong, h.execThermalSample, h.execReducedService, h.execFullService, h.execIslandBoot,
    h.execHubImageAccept, h.execHubImageRefused, h.execTestContentAccept, h.execHostGo, h.execTestGo, h.execConfirm,
    h.execActivate, h.execActivatingRestart, h.execTrialWindowExpiry, h.execAttest, h.execCert, h.execAttestDone,
    h.execUpdate, h.execUpdateDone, h.execEnrol, h.execRollbackAdvance, h.execExtend, h.execChallenge, h.execSubmit,
    h.execLock, h.execArm, h.execDisarm, h.execBoundary, h.execBoundaryFail, h.execFarmContinue, h.execSave,
    h.execSaved, h.execRestore, h.execRestored, h.execStraggler, h.execPeriodic, h.execTakeover, h.execRelink,
    h.execRelinkExpired, h.execCsiLinkChange, h.execEthLinkChange, h.execPcieLinkUp, h.execHostDataRecordClose,
    h.execQengEnable, h.execIngEnable, h.execXlEnable, h.execThermalDiodeRelease]

theorem State.memOk.step : KeepsMemOk (step s) := by
  unfold Machine.step
  split
  exacts [.next h.tick, h.upd.exec _]
end

/-- Settles O59: each command is a chain of operations that keep the canonical form of device memory, and so is a tick. -/
theorem stepsKeepMemoryForm : Obligations.StepsKeepMemoryForm := by
  unfold Obligations.StepsKeepMemoryForm
  intro s t h ht
  have hk : KeepsMemOk (step s) := h.step
  rw [ht] at hk
  exact hk

end Sys2Proof.Machine
end

section
/-! SUPPORT. A decrement of a page by more references than the field of its state word can hold (R173, R175, R176). -/

namespace Sys2Proof.Machine

/-! ### A page with one pin and no reference (O26) -/

/-- Pool 0 holds the one page 0, whose state word, the first of hub SRAM, stands at no reference and one pin (R173). -/
def drainingPage : State :=
  { (((State.reset.put (F.KV_POOL_CFG_valid 0) 1).put (F.KV_POOL_COUNT_pages 0) 1).put F.KV_STATE_BASE_HI_base 0xFF20) with
    mem := [(hubBase + 2, 1#8)] }

/-- The state word lies in plain memory and reads 2^16. -/
theorem drainingPage_word : drainingPage.plainStore (drainingPage.kvWordAddr 0) 4 = true
    ∧ drainingPage.peekNat (drainingPage.kvWordAddr 0) 4 = 65536 := by decide +kernel

theorem drainingPage_pool : drainingPage.kvPoolOf 0 = some 0 := by decide +kernel

/-- A decrement of it by 2^16 references would take its count below zero: it fails with cause 2 (R176). -/
theorem drainingPage_kvDec : (drainingPage.kvDec 0 65536 0).2 = some ⟨2, true, 0⟩ := by decide +kernel

/-- Refutes O26: the clause of the decrement that leaves both counts at zero asks `w = dref + 65536 * dpin` alone, which does not
say that the references of `w` are `dref` and its pins `dpin`. A decrement by 2^16 references and no pin adds up to the word of a
page with one pin and no reference; it would take the reference count below zero, so it fails and the page keeps its pin (R176).
(The clause lacks `dref ≤ w % 65536` among its premises, as the clause before it has it.) -/
theorem not_kvPagesAndReferences : ¬ Obligations.KvPagesAndReferences := by
  rintro ⟨hcounts, -⟩
  obtain ⟨hplain, hword⟩ := drainingPage_word
  obtain ⟨-, -, -, -, -, -, hreturn, -⟩ := hcounts drainingPage 0 65536 65536 0 hplain hword (by decide)
  obtain ⟨hdone, -⟩ := hreturn 0 rfl drainingPage_pool
  exact absurd (drainingPage_kvDec.symm.trans hdone) (by decide)

end Sys2Proof.Machine
end

section
/-! SUPPORT. Wards: the words of a preempted array put back (R222). -/

namespace Sys2Proof.Machine

/-- A preempted array saved with two words at the offsets 0x02C and 0x02D, which one register of its page holds. -/
def overlappingSave : SavedArr := ⟨0, {}, [(0x02C, 1#32), (0x02D, 2#32)]⟩

/-- The ward that took that array. -/
def overlappingWard : WardRun := { entry := [], bypass := false, saved := some overlappingSave }

/-- Of two words put back into one register the later stands. -/
theorem State.regWord_overlappingSave (s : State) (p : Nat) :
    (overlappingSave.words.foldl (fun (u : State) e => u.putWord p e.1 e.2) s).regWord p 0x02C = 2#32 :=
  State.regWord_putWord_same (s.putWord p 0x02C 1#32) p 0x02C 2#32

/-- Refutes O30: the words of a preempted array are put back in their order, so of two at offsets of one register (0x02C and 0x02D) the
first does not stand, though the offsets differ. -/
theorem not_wards : ¬ Obligations.Wards := by
  intro h
  obtain ⟨-, -, -, -, -, -, -, -, -, -, -, -, hback, -⟩ := h 0 State.reset
  obtain ⟨-, -, hword, -⟩ := hback 0 overlappingSave overlappingWard rfl rfl
  have hfirst := hword (0x02C, 1#32) (by decide) (by decide) rfl (by decide +kernel)
  rw [State.regWord_overlappingSave] at hfirst
  exact absurd hfirst (by decide)

end Sys2Proof.Machine
end

section
/-! SUPPORT. Ingress: streams in their table, their health, drops (R205, R207, R224, R225). -/

namespace Sys2Proof.Machine

/-! ### Fields -/

theorem State.flag_of_get_one {s : State} {f : Fld} (h : s.get f = 1) : s.flag f = true := by simp [State.flag, h]

/-- A field below 0x800 is apart from the status bits of every page and from the pending bits of PCIE where it lies at other offsets. -/
theorem Fld.apartTest_event {f : Fld} (h : f.off < 0x800 ∧ f.off / 4 ≠ 4 ∧ f.off / 4 ≠ 57) (p b : Nat) :
    (Fld.mk p 0x10 b b).apartTest f = true ∧ F.PCIE_MSI_PEND_pending.apartTest f = true := by
  simp only [Fld.apartTest, Bool.or_eq_true, bne_iff_ne, regKey]
  exact ⟨.inl (by omega), .inl (by omega)⟩

/-- An event leaves every field at another offset. -/
theorem State.get_raise_of_off (s : State) {p b : Nat} {g : Fld} (h : g.off < 0x800 ∧ g.off / 4 ≠ 4 ∧ g.off / 4 ≠ 57) :
    (s.raise p b).get g = s.get g :=
  s.get_raise_other (Fld.apartTest_event h p b).1 (Fld.apartTest_event h p b).2

/-- A counter raised by one, staying at its largest value, with its event. -/
theorem State.counted_of_off (s : State) {f : Fld} {p b : Nat} (hf : f.lo ≤ f.hi ∧ f.hi < 32) (hb : b < 32)
    (h : f.off < 0x800 ∧ f.off / 4 ≠ 4 ∧ f.off / 4 ≠ 57) :
    let t := (s.satInc f).raise p b
    t.get f = min (s.get f + 1) (f.size - 1) ∧ t.eventSet p b = true ∧ FieldsBut (f :: eventFields p b) s t
      ∧ { t with regs := s.regs, flt := s.flt } = s :=
  s.counted_spec hf hb (Fld.apartTest_event h p b).1 (Fld.apartTest_event h p b).2

/-- A counting field of 32 bits raised by `n`. -/
theorem State.get_count_word (s : State) {f : Fld} (hf : f.lo = 0 ∧ f.hi = 31) (n : Nat) :
    (s.count f n).get f = (s.get f + n) % 2 ^ 32 := by
  have hsize : f.size = 2 ^ 32 := by simp [Fld.size, hf]
  rw [State.count_eq, State.get_put_self _ _ _ (by omega), hsize, Nat.mod_mod]

theorem State.replaying_congr {s t : State} (h : t.get F.JRN_STATUS_state = s.get F.JRN_STATUS_state) : t.replaying = s.replaying := by
  simp only [State.replaying, h]

/-! ### Streams in their table -/

theorem State.stream_of_streams {s t : State} (h : t.streams = s.streams) (n : Nat) : t.stream n = s.stream n := by
  simp only [State.stream, h]

theorem State.stream_setStream_same (s : State) (n : Nat) (v : StreamSt) : (s.setStream n v).stream n = v :=
  tabGet_tabSet_same _ _ _ _

theorem State.setStream_setStream (s : State) (n : Nat) (v w : StreamSt) : (s.setStream n v).setStream n w = s.setStream n w := by
  simp only [State.setStream, tabSet_tabSet_same]

theorem State.modStream_setStream (s : State) (n : Nat) (v : StreamSt) (f : StreamSt → StreamSt) :
    (s.setStream n v).modStream n f = s.setStream n (f v) := by
  rw [State.modStream, State.stream_setStream_same, State.setStream_setStream]

/-- From `s` to `t` nothing changed but the streams. -/
structure StreamsOnly (s t : State) : Prop where
  frame : { t with streams := s.streams } = s

theorem StreamsOnly.refl (s : State) : StreamsOnly s s := ⟨rfl⟩

theorem StreamsOnly.trans {s t u : State} (h : StreamsOnly s t) (k : StreamsOnly t u) : StreamsOnly s u := by
  refine ⟨?_⟩
  calc { u with streams := s.streams }
      = { ({ u with streams := t.streams } : State) with streams := s.streams } := rfl
    _ = { t with streams := s.streams } := by rw [k.frame]
    _ = s := h.frame

theorem StreamsOnly.setStream (s : State) (n : Nat) (v : StreamSt) : StreamsOnly s (s.setStream n v) := ⟨rfl⟩

theorem StreamsOnly.foldl {ι : Type} (op : State → ι → State) (hop : ∀ u i, StreamsOnly u (op u i)) (l : List ι) (s : State) :
    StreamsOnly s (l.foldl op s) :=
  List.foldlRecOn l op (StreamsOnly.refl s) fun u hu i _ => hu.trans (hop u i)

theorem StreamsOnly.get {s t : State} (h : StreamsOnly s t) (g : Fld) : t.get g = s.get g :=
  State.get_of_regs (congrArg State.regs h.frame :) (congrArg State.fuse h.frame :) g

theorem StreamsOnly.eventSet {s t : State} (h : StreamsOnly s t) (p b : Nat) : t.eventSet p b = s.eventSet p b :=
  congrArg (· != 0) (h.get _)

theorem StreamsOnly.replaying {s t : State} (h : StreamsOnly s t) : t.replaying = s.replaying := State.replaying_congr (h.get _)

theorem StreamsOnly.fieldsBut {fs : List Fld} {s t u : State} (h : FieldsBut fs s t) (k : StreamsOnly t u) : FieldsBut fs s u :=
  fun g hg => (k.get g).trans (h g hg)

theorem RegsOnly.streams {s t : State} (h : RegsOnly s t) : t.streams = s.streams := (congrArg State.streams h.frame :)

/-- Registers and events first, then the streams. -/
theorem RegsOnly.streamsOnly {s t u : State} (h : RegsOnly s t) (k : StreamsOnly t u) :
    { u with regs := s.regs, streams := s.streams, flt := s.flt } = s := by
  calc { u with regs := s.regs, streams := s.streams, flt := s.flt }
      = { ({ u with streams := t.streams } : State) with regs := s.regs, streams := s.streams, flt := s.flt } := rfl
    _ = { t with regs := s.regs, streams := s.streams, flt := s.flt } := by rw [k.frame]
    _ = { ({ t with regs := s.regs, flt := s.flt } : State) with streams := s.streams } := rfl
    _ = s := by rw [h.frame]

/-- A counter raised by one with its event, then the streams changed. -/
theorem StreamsOnly.counted {s t : State} {f : Fld} {p b : Nat} (ht : StreamsOnly ((s.satInc f).raise p b) t)
    (hf : f.lo ≤ f.hi ∧ f.hi < 32) (hb : b < 32) (h : f.off < 0x800 ∧ f.off / 4 ≠ 4 ∧ f.off / 4 ≠ 57) :
    t.get f = min (s.get f + 1) (f.size - 1) ∧ t.eventSet p b = true ∧ FieldsBut (f :: eventFields p b) s t
      ∧ { t with regs := s.regs, streams := s.streams, flt := s.flt } = s := by
  obtain ⟨hget, hevent, hfields, hframe⟩ := s.counted_of_off hf hb h
  exact ⟨(ht.get f).trans hget, (ht.eventSet p b).trans hevent, ht.fieldsBut hfields, RegsOnly.streamsOnly ⟨hframe⟩ ht⟩

/-! ### Health (R225) -/

theorem State.health_of_replaying {s : State} (h : s.replaying = true) (n c : Nat) (d : Int) : s.health n c d = s := if_pos h

theorem State.health_eq {s : State} (h : s.replaying = false) (n c : Nat) (d : Int) :
    s.health n c d = s.setStream n ((s.stream n).health c d) := if_neg (by simp [h])

theorem State.health_streamsOnly (s : State) (n c : Nat) (d : Int) : StreamsOnly s (s.health n c d) := by
  unfold State.health
  split
  · exact StreamsOnly.refl s
  · exact StreamsOnly.setStream s n _

/-- A health change reads the streams and whether a replay runs. -/
theorem State.health_streams_congr {s t : State} (hs : t.streams = s.streams) (hr : t.replaying = s.replaying) (n c : Nat) (d : Int) :
    (t.health n c d).streams = (s.health n c d).streams := by
  cases h : s.replaying with
  | true => rw [State.health_of_replaying h, State.health_of_replaying (hr.trans h), hs]
  | false => rw [State.health_eq h, State.health_eq (hr.trans h), State.setStream, State.setStream, hs, State.stream_of_streams hs]

/-- A counter raised by one with its event, then a health change. -/
theorem State.counted_health (s : State) {f : Fld} {p b : Nat} (hf : f.lo ≤ f.hi ∧ f.hi < 32) (hb : b < 32)
    (h : f.off < 0x800 ∧ f.off / 4 ≠ 4 ∧ f.off / 4 ≠ 57) (hj : f.page ≠ pgJRN) (n c : Nat) (d : Int) :
    let t := ((s.satInc f).raise p b).health n c d
    t.get f = min (s.get f + 1) (f.size - 1) ∧ t.eventSet p b = true ∧ t.streams = (s.health n c d).streams
      ∧ FieldsBut (f :: eventFields p b) s t ∧ { t with regs := s.regs, streams := s.streams, flt := s.flt } = s := by
  intro t
  obtain ⟨hget, hevent, hfields, hframe⟩ := (State.health_streamsOnly ((s.satInc f).raise p b) n c d).counted hf hb h
  have hstreams : ((s.satInc f).raise p b).streams = s.streams := State.raise_streams _ _ _
  have hreplaying : ((s.satInc f).raise p b).replaying = s.replaying := by
    refine State.replaying_congr ((State.get_raise_of_off _ (by decide)).trans (State.get_put_apart _ (Fld.apart_key ?_) _))
    simp only [regKey, pgJRN] at hj ⊢
    omega
  exact ⟨hget, hevent, State.health_streams_congr hstreams hreplaying n c d, hfields, hframe⟩

end Sys2Proof.Machine
end

section
/-! SUPPORT. The ports (O29): camera packets, Ethernet frames and island frames on their way to the queues (R205, R210 to R218, R227, R328). -/

namespace Sys2Proof.Machine

/-! ### Items (R205, R207, R216, R217) -/

section
variable {s : State} {n : Nat} {data : List Byte}

theorem State.placeData_eq_none (h : s.ringPlace n data.length = none) : s.placeData n data.length = none := by
  rw [State.placeData, h]
  rfl

theorem State.placeData_eq_some {o : Nat} (h : s.ringPlace n data.length = some o) : s.placeData n data.length
    = some (o, s.setStream n { s.stream n with wr := o + data.length, held := s.heldNow n ++ [(none, o, data.length)] }) := by
  rw [State.placeData, h]
  rfl

theorem State.storeItem_of_full (h : s.ringPlace n data.length = none) (fl ts : Nat) (last : Bool) :
    s.storeItem n fl ts data last = s.dropItem n := by
  rw [State.storeItem, State.placeData_eq_none h]

theorem State.storeItem_of_place {o : Nat} (h : s.ringPlace n data.length = some o) (fl ts : Nat) (last : Bool) :
    s.storeItem n fl ts data last = s.setStream n (s.itemIn n fl ts data last o) := by
  rw [State.storeItem, State.placeData_eq_some h]
  exact State.modStream_setStream s n _ _

theorem State.passItem_of_full (h : s.ringPlace n data.length = none) (fl ts : Nat) (last : Bool) :
    s.passItem n fl ts data last = s.dropItem n := by
  rw [State.passItem, h]

/-- An item passed to the XS die (R217): it takes its number and waits for its return. -/
theorem State.passItem_sent {o : Nat} (h : s.ringPlace n data.length = some o) (hd : s.get F.DIKE_STATUS_state = 3)
    (hreach : s.xsReach ((s.stream n).ring + o) data.length 0 = true) (fl ts : Nat) (last : Bool) :
    s.passItem n fl ts data last = { s.setStream n { s.stream n with
      seq := ((s.stream n).seq + 1) % 2 ^ 32
      ready := (s.stream n).ready ++ [{ kind := 0, seq := (s.stream n).seq, flags := fl, ts := ts, data := data, xs := true, last := last }]
      done := (s.stream n).done ++ [(s.stream n).seq] } with out := s.out ++ [⟨.xsReturn, [n, (s.stream n).seq], data⟩] } := by
  rw [State.passItem]
  simp only [h]
  exact if_pos ⟨hd, hreach⟩

theorem State.passItem_refused {o : Nat} (h : s.ringPlace n data.length = some o)
    (hno : s.get F.DIKE_STATUS_state ≠ 3 ∨ s.xsReach ((s.stream n).ring + o) data.length 0 = false) (fl ts : Nat) (last : Bool) :
    s.passItem n fl ts data last = s.dropItem n := by
  rw [State.passItem]
  simp only [h]
  exact if_neg fun hc => hno.elim (fun hd => hd hc.1) fun hr => by simp [hr] at hc

theorem State.stampWaiting_eq {t : Nat} (h : readTs (s.stream n).tsFormat (s.stream n).tsOffset data (Config.free s.freeCtr) = some t) :
    s.stampWaiting n data = { s.setStream n { s.stream n with
      ready := (s.stream n).ready.map fun (r : IngRec) =>
        if r.kind = 0 ∧ (s.stream n).done.contains r.seq ∧ r.flags.testBit 0 then { r with flags := r.flags - 1, ts := t } else r } with
      freeCtr := s.freeCtr + 1 } := by
  rw [State.stampWaiting]
  simp only [h]
  rfl

theorem State.newItem_of_replaying (h : s.replaying = true) (fl ts : Nat) (last : Bool) :
    s.newItem n fl ts data last = s.count F.JRN_IGNORED_count 1 := if_pos h

theorem State.newItem_of_stored (h : s.replaying = false) (hx : (s.stream n).xsRoute = false) (fl ts : Nat) (last : Bool) :
    s.newItem n fl ts data last = s.storeItem n fl ts data last := by
  simp [State.newItem, h, hx]

theorem State.newItem_of_bypass (h : s.replaying = false) (hx : (s.stream n).xsRoute = true) (hf : s.xsFaulted = true)
    (hb : (s.stream n).xsBypass = true) (fl ts : Nat) (last : Bool) :
    s.newItem n fl ts data last = s.storeItem n (fl ||| 16) ts data last := by
  simp [State.newItem, h, hx, hf, hb]

theorem State.newItem_of_passed (h : s.replaying = false) (hx : (s.stream n).xsRoute = true)
    (hf : s.xsFaulted = false ∨ (s.stream n).xsBypass = false) (fl ts : Nat) (last : Bool) :
    s.newItem n fl ts data last = s.passItem n fl ts data last := by
  rcases hf with hf | hf <;> simp [State.newItem, h, hx, hf]

/-- An item without a place in its ring is dropped, whatever way it takes (R207). -/
theorem State.newItem_of_full (h : s.replaying = false) (hp : s.ringPlace n data.length = none) (fl ts : Nat) (last : Bool) :
    s.newItem n fl ts data last = s.dropItem n := by
  cases hx : (s.stream n).xsRoute with
  | false => rw [State.newItem_of_stored h hx, State.storeItem_of_full hp]
  | true =>
    by_cases hb : s.xsFaulted = true ∧ (s.stream n).xsBypass = true
    · rw [State.newItem_of_bypass h hx hb.1 hb.2, State.storeItem_of_full hp]
    · rw [State.newItem_of_passed h hx (by simpa [or_iff_not_imp_left] using hb), State.passItem_of_full hp]

/-- In replay the ports' items are counted (R328). -/
theorem State.count_ignored (s : State) (m : Nat) :
    let t := s.count F.JRN_IGNORED_count m
    t.get F.JRN_IGNORED_count = (s.get F.JRN_IGNORED_count + m) % 2 ^ 32 ∧ FieldsBut [F.JRN_IGNORED_count] s t
      ∧ { t with regs := s.regs } = s :=
  ⟨s.get_count_word (by decide) m, (FieldsBut.refl _ s).count List.mem_cons_self m, rfl⟩

end

/-! ### Camera packets (R210 to R212, R218) -/

section
variable {r : Fin 24} {p : CsiPacket} {s : State}

theorem csiPacket_off (h : s.get F.ING_CTRL_enable = 0 ∨ s.get (F.CSI_CTRL_enable r) = 0) : exec (.csiPacket r p) s = .next s :=
  congrArg Host.Outcome.next (if_pos (by simpa [State.flag] using h))

/-- A receiver takes packets: its bit and that of ingress are set. -/
def State.csiTakes (s : State) (k : Nat) : Prop := s.get F.ING_CTRL_enable = 1 ∧ s.get (F.CSI_CTRL_enable k) = 1

theorem State.csiTakes.not_off (h : s.csiTakes r) : ¬(!s.flag F.ING_CTRL_enable || !s.flag (F.CSI_CTRL_enable r)) = true := by
  simp [State.flag_of_get_one h.1, State.flag_of_get_one h.2]

/-- The state once a header is judged (R210). -/
def State.csiHeader (s : State) (k : Nat) (p : CsiPacket) : State := if p.ecc = .one then s.satInc (F.CSI_ERR_hdr_corrected k) else s

theorem State.csiHeader_streams (s : State) (k : Nat) (p : CsiPacket) : (s.csiHeader k p).streams = s.streams := by
  unfold State.csiHeader
  split <;> rfl

/-- The header's own count is apart from that of bad payloads. -/
theorem State.get_csiHeader_crc (s : State) (k : Nat) (p : CsiPacket) :
    (s.csiHeader k p).get (F.CSI_ERR_crc k) = s.get (F.CSI_ERR_crc k) := by
  unfold State.csiHeader
  split
  · have happart : (F.CSI_ERR_hdr_corrected k).apart (F.CSI_ERR_crc k) :=
      Fld.apart_bits (by simp [Fld.fits]) (by simp [Fld.fits]) rfl rfl (by simp)
    rw [State.satInc_eq, State.get_put_apart s happart]
  · rfl

theorem csiPacket_two (h : s.csiTakes r) (he : p.ecc = .two) : exec (.csiPacket r p) s
    = .next (((s.satInc (F.CSI_ERR_hdr_uncorr r)).raise (pgCSI r) Ev.CSI_header_uncorrectable).csiDamage r (s.csiSlots r p.vc.toNat)) :=
  congrArg Host.Outcome.next ((if_neg h.not_off).trans (if_pos he))

theorem csiPacket_lineSync (h : s.csiTakes r) (he : p.ecc ≠ .two) (hk : p.kind = .lineSync) :
    exec (.csiPacket r p) s = .next (s.csiHeader r p) :=
  congrArg Host.Outcome.next ((if_neg h.not_off).trans ((if_neg he).trans (by rw [hk]; rfl)))

theorem csiPacket_frameStart (h : s.csiTakes r) (he : p.ecc ≠ .two) (hk : p.kind = .frameStart) :
    exec (.csiPacket r p) s = .next ((s.csiSlots r p.vc.toNat).foldl (fun u v => u.csiStart r v) (s.csiHeader r p)) :=
  congrArg Host.Outcome.next ((if_neg h.not_off).trans ((if_neg he).trans (by rw [hk]; rfl)))

theorem csiPacket_frameEnd (h : s.csiTakes r) (he : p.ecc ≠ .two) (hk : p.kind = .frameEnd) :
    exec (.csiPacket r p) s = .next ((s.csiSlots r p.vc.toNat).foldl (fun u v => u.frameEnd r v 0) (s.csiHeader r p)) :=
  congrArg Host.Outcome.next ((if_neg h.not_off).trans ((if_neg he).trans (by rw [hk]; rfl)))

/-- The slots that take a long packet: those of its channel, for an image line those of its data type. -/
def State.csiMine (s : State) (k : Nat) (p : CsiPacket) (dt : BitVec 8) : List Nat :=
  (s.csiSlots k p.vc.toNat).filter fun v => dt.toNat == 0x12 || dt.toNat == (s.stream (4 * k + v)).dataType

theorem csiPacket_long (h : s.csiTakes r) (he : p.ecc ≠ .two) {dt : BitVec 8} {ok : Bool} {data : List Byte} (hk : p.kind = .long dt ok data) :
    exec (.csiPacket r p) s = .next ((s.csiMine r p dt).foldl (fun u v => u.csiLine r v dt.toNat ok data)
      (if ok = true ∨ s.csiMine r p dt = [] then s.csiHeader r p
        else ((s.csiHeader r p).satInc (F.CSI_ERR_crc r)).raise (pgCSI r) Ev.CSI_crc_error)) := by
  have hmine : s.csiMine r p dt = (s.csiSlots r p.vc.toNat).filter fun v =>
      dt.toNat == 0x12 || dt.toNat == ((s.csiHeader r p).stream (4 * r + v)).dataType := by
    simp only [State.csiMine, State.stream_of_streams (s.csiHeader_streams r p)]
  rw [hmine]
  exact congrArg Host.Outcome.next ((if_neg h.not_off).trans ((if_neg he).trans (by rw [hk]; rfl)))

theorem State.csiDamage_streams (s : State) (k : Nat) (slots : List Nat) : (s.csiDamage k slots).streams
    = slots.foldl (fun u v => tabSet u (4 * k + v) { tabGet u (4 * k + v) {} with
        frame := (tabGet u (4 * k + v) {}).frame.map fun f => { f with damaged := true } }) s.streams :=
  (List.foldl_hom State.streams fun _ _ => rfl).symm

theorem State.csiDamage_streamsOnly (s : State) (k : Nat) (slots : List Nat) : StreamsOnly s (s.csiDamage k slots) :=
  StreamsOnly.foldl _ (fun u _ => StreamsOnly.setStream u _ _) slots s

/-- A header with two errors (R210): counted, raised, the frames of its channel damaged. -/
theorem State.csiDamage_counted (s : State) (k : Nat) (slots : List Nat) :
    let t := ((s.satInc (F.CSI_ERR_hdr_uncorr k)).raise (pgCSI k) Ev.CSI_header_uncorrectable).csiDamage k slots
    t.eventSet (pgCSI k) Ev.CSI_header_uncorrectable = true
      ∧ t.get (F.CSI_ERR_hdr_uncorr k) = min (s.get (F.CSI_ERR_hdr_uncorr k) + 1) 255
      ∧ t.streams = slots.foldl (fun u v => tabSet u (4 * k + v) { tabGet u (4 * k + v) {} with
          frame := (tabGet u (4 * k + v) {}).frame.map fun f => { f with damaged := true } }) s.streams
      ∧ FieldsBut (F.CSI_ERR_hdr_uncorr k :: eventFields (pgCSI k) Ev.CSI_header_uncorrectable) s t
      ∧ { t with regs := s.regs, streams := s.streams, flt := s.flt } = s := by
  intro t
  obtain ⟨hget, hevent, hfields, hframe⟩ :=
    (State.csiDamage_streamsOnly ((s.satInc (F.CSI_ERR_hdr_uncorr k)).raise (pgCSI k) Ev.CSI_header_uncorrectable) k slots).counted
      (by simp) (by decide) (by simp)
  refine ⟨hevent, hget, (State.csiDamage_streams _ k slots).trans ?_, hfields, hframe⟩
  rw [State.raise_streams]
  rfl

end

/-! ### Frames (R211, R212, R218, R227) -/

/-- Stream of the slot once an embedded-data line has joined the frame. -/
def StreamSt.embedded (st : StreamSt) (f : FrameSt) (ok : Bool) (data : List Byte) : StreamSt :=
  { st with frame := some { f with
      emb := if f.emb.length < 16 then f.emb ++ [data] else f.emb
      damaged := f.damaged || !ok } }

/-- A frame with one more image line, of zeros where its CRC was bad. -/
def FrameSt.lined (f : FrameSt) (ok : Bool) (px : List Byte) : FrameSt :=
  { f with
    lines := f.lines ++ [if ok then px else List.replicate px.length 0#8]
    count := f.count + 1
    damaged := f.damaged || !ok }

section
variable {s : State} {k v : Nat}

theorem State.frameEnd_of_none (h : (s.stream (4 * k + v)).frame = none) (fl : Nat) : s.frameEnd k v fl = s := by
  rw [State.frameEnd]
  simp only [h]

theorem State.csiLine_of_none (h : (s.stream (4 * k + v)).frame = none) (dt : Nat) (ok : Bool) (data : List Byte) :
    s.csiLine k v dt ok data = s := by
  rw [State.csiLine]
  simp only [h]

theorem State.csiStart_of_none (h : (s.stream (4 * k + v)).frame = none) :
    s.csiStart k v = s.setStream (4 * k + v) { s.stream (4 * k + v) with frame := some {}, done := [] } := by
  rw [State.csiStart]
  simp only [h, Option.isSome_none, Bool.false_eq_true, if_false]
  rfl

/-- A frame start while a frame is in progress (R211): the frame is committed truncated, counted and raised, and the next one opens. -/
theorem State.csiStart_of_some (h : (s.stream (4 * k + v)).frame.isSome = true) :
    let u := s.frameEnd k v 4
    let t := s.csiStart k v
    t.get (F.CSI_ERR_truncated k) = min (u.get (F.CSI_ERR_truncated k) + 1) 255 ∧ t.eventSet (pgCSI k) Ev.CSI_truncated = true
      ∧ t.streams = tabSet u.streams (4 * k + v) { u.stream (4 * k + v) with frame := some {}, done := [] }
      ∧ FieldsBut (F.CSI_ERR_truncated k :: eventFields (pgCSI k) Ev.CSI_truncated) u t
      ∧ { t with regs := u.regs, streams := u.streams, flt := u.flt } = u := by
  intro u t
  let c := (u.satInc (F.CSI_ERR_truncated k)).raise (pgCSI k) Ev.CSI_truncated
  have ht : t = c.setStream (4 * k + v) { c.stream (4 * k + v) with frame := some {}, done := [] } := by
    change s.csiStart k v = _
    rw [State.csiStart]
    simp only [h, if_true]
    rfl
  have hstreams : c.streams = u.streams := State.raise_streams _ _ _
  obtain ⟨hget, hevent, hfields, hframe⟩ :=
    (StreamsOnly.setStream c (4 * k + v) { c.stream (4 * k + v) with frame := some {}, done := [] }).counted
      (by simp) (by decide) (by simp)
  rw [ht]
  refine ⟨hget, hevent, ?_, hfields, hframe⟩
  rw [State.setStream, State.stream_of_streams hstreams, hstreams]

section
variable {f : FrameSt} (hf : (s.stream (4 * k + v)).frame = some f) {dt : Nat} (ok : Bool) (data : List Byte)
include hf

theorem State.csiLine_embedded (hdt : dt = 0x12) : s.csiLine k v dt ok data =
    let s1 := s.setStream (4 * k + v) ((s.stream (4 * k + v)).embedded f ok data)
    if f.emb.length = (s.stream (4 * k + v)).tsLine then s1.stampWaiting (4 * k + v) data else s1 := by
  rw [State.csiLine]
  simp only [hf]
  exact if_pos hdt

theorem State.csiLine_image (hdt : dt ≠ 0x12) : s.csiLine k v dt ok data =
    let st := s.stream (4 * k + v)
    let px := unpackLine dt data
    let f1 := f.lined ok px
    if dt ≠ st.dataType ∨ 8192 ≤ f.count ∨ 8192 < linePixels dt px.length then s
    else if st.slabLines ≠ 0 ∧ st.slabLines ≤ f1.lines.length then
      (s.setStream (4 * k + v) { st with frame := some { f1 with
        lines := []
        items := f1.items ++ [st.seq] } }).frameItem (4 * k + v) f1 0 false
    else s.setStream (4 * k + v) { st with frame := some f1 } := by
  rw [State.csiLine]
  simp only [hf]
  exact if_neg hdt

section
variable (hdt : dt ≠ 0x12) (ht : dt = (s.stream (4 * k + v)).dataType) (hcount : f.count < 8192)
  (hpx : linePixels dt (unpackLine dt data).length ≤ 8192)
include hdt ht hcount hpx

/-- An image line joins the lines of the frame's present item. -/
theorem State.csiLine_joined (h : (s.stream (4 * k + v)).slabLines = 0 ∨ f.lines.length + 1 < (s.stream (4 * k + v)).slabLines) :
    s.csiLine k v dt ok data
      = s.setStream (4 * k + v) { s.stream (4 * k + v) with frame := some (f.lined ok (unpackLine dt data)) } := by
  refine (State.csiLine_image hf ok data hdt).trans ((if_neg (by omega)).trans (if_neg ?_))
  simp only [FrameSt.lined, List.length_append, List.length_singleton]
  omega

/-- An image line that fills a slab makes an item of it. -/
theorem State.csiLine_slab (h0 : (s.stream (4 * k + v)).slabLines ≠ 0) (h : (s.stream (4 * k + v)).slabLines ≤ f.lines.length + 1) :
    s.csiLine k v dt ok data = (s.setStream (4 * k + v) { s.stream (4 * k + v) with frame := some { f.lined ok (unpackLine dt data) with
      lines := []
      items := f.items ++ [(s.stream (4 * k + v)).seq] } }).frameItem (4 * k + v) (f.lined ok (unpackLine dt data)) 0 false := by
  refine (State.csiLine_image hf ok data hdt).trans ((if_neg (by omega)).trans (if_pos ⟨h0, ?_⟩))
  simpa only [FrameSt.lined, List.length_append, List.length_singleton] using h

end

/-- The frame's end, with its item or with the slab that took its last line (R211, R227). -/
theorem State.frameEnd_of_some (fl : Nat) : s.frameEnd k v fl =
    let st := s.stream (4 * k + v)
    let s1 := s.setStream (4 * k + v) { st with frame := none }
    (if st.slabLines ≠ 0 ∧ f.lines = [] ∧ f.count ≠ 0 then s1.lastSlab (4 * k + v) f
      else s1.frameItem (4 * k + v) f fl true).embTest k v f := by
  rw [State.frameEnd]
  simp only [hf]
  rfl

end

/-- The embedded test of a frame is met: not asked for, in replay, or the line is there with its CRC (R218, R328). -/
theorem State.embTest_met {f : FrameSt} (h : (s.get (F.CSI_EMB_LINE_check k)).testBit v = false ∨ s.replaying = true
    ∨ ((f.emb[s.get (F.CSI_EMB_LINE_line k v)]?).any fun l => (crc32 l).toNat == s.get (F.CSI_EMB_CRC_crc k v)) = true) :
    s.embTest k v f = s := by
  rw [State.embTest]
  rcases h with h | h | h
  · simp only [h, Bool.not_false, Bool.true_or, if_true]
  · simp only [h, Bool.or_true, if_true]
  · refine ite_eq_left_iff.2 fun _ => if_pos ?_
    cases hl : f.emb[s.get (F.CSI_EMB_LINE_line k v)]? with
    | none => simp [hl] at h
    | some l => simpa [hl] using h

/-- A failed embedded test (R218): counted, raised, the score lowered with cause 2. -/
theorem State.embTest_failed {f : FrameSt} (hon : (s.get (F.CSI_EMB_LINE_check k)).testBit v = true) (hr : s.replaying = false)
    (h : ((f.emb[s.get (F.CSI_EMB_LINE_line k v)]?).any fun l => (crc32 l).toNat == s.get (F.CSI_EMB_CRC_crc k v)) = false) :
    s.embTest k v f = ((s.satInc (F.CSI_EMB_FAIL_fail k v)).raise (pgCSI k) Ev.CSI_emb_fail).health (4 * k + v) 2
      (-(s.get F.WARD_HEALTH_DELTA_emb_fail : Int)) := by
  rw [State.embTest]
  refine (if_neg (by simp [hon, hr])).trans (if_neg ?_)
  cases hl : f.emb[s.get (F.CSI_EMB_LINE_line k v)]? with
  | none => simp
  | some l => simpa [hl] using h

end

section
variable {s : State} {n q : Nat} {f : FrameSt}

/-- The frame ends with a slab that waits for its commit: that one is the last of the frame (R227). -/
theorem State.lastSlab_waiting (hq : f.items.getLast? = some q) (hd : q ∈ (s.stream n).done)
    (h : ((s.stream n).ready.any fun r => r.kind == 0 && r.seq == q) = true) : s.lastSlab n f = s.setStream n { s.stream n with
      ready := (s.stream n).ready.map fun (r : IngRec) => if r.kind = 0 ∧ r.seq = q then { r with last := true } else r } := by
  rw [State.lastSlab]
  simp only [hq]
  refine (if_neg (by simpa using hd)).trans (if_pos ?_)
  simpa [Bool.beq_eq_decide_eq] using h

/-- The frame ends with a slab that is committed: the frame is counted (R227). -/
theorem State.lastSlab_committed (hq : f.items.getLast? = some q) (hd : q ∈ (s.stream n).done)
    (h : ((s.stream n).ready.any fun r => r.kind == 0 && r.seq == q) = false) :
    s.lastSlab n f = s.count (F.CSI_FRAMES_count (n / 4)) 1 := by
  rw [State.lastSlab]
  simp only [hq]
  refine (if_neg (by simpa using hd)).trans (if_neg ?_)
  simpa [Bool.beq_eq_decide_eq] using h

end

/-! ### Ethernet frames (R213, R214) -/

section
variable {m : Fin 4} {f : EthFrame} {s : State}

theorem ethFrame_off (h : s.get F.ING_CTRL_enable = 0 ∨ s.get (F.ETH_CTRL_enable m) = 0) : exec (.ethFrame m f) s = .next s :=
  congrArg Host.Outcome.next (if_pos (by simpa [State.flag] using h))

/-- A port takes frames: its bit and that of ingress are set. -/
def State.ethTakes (s : State) (k : Nat) : Prop := s.get F.ING_CTRL_enable = 1 ∧ s.get (F.ETH_CTRL_enable k) = 1

theorem State.ethTakes.not_off (h : s.ethTakes m) : ¬(!s.flag F.ING_CTRL_enable || !s.flag (F.ETH_CTRL_enable m)) = true := by
  simp [State.flag_of_get_one h.1, State.flag_of_get_one h.2]

/-- A frame for another destination, at a port that is not promiscuous (R213). -/
def State.ethOther (s : State) (k : Nat) (f : EthFrame) : Prop :=
  s.get (F.ETH_MAC_HI_promisc k) = 0 ∧ f.dst.toNat ≠ s.get (F.ETH_MAC_LO_mac k) + 2 ^ 32 * s.get (F.ETH_MAC_HI_mac k)

theorem State.ethOther_iff (s : State) (k : Nat) (f : EthFrame) : s.ethOther k f ↔ ((!s.flag (F.ETH_MAC_HI_promisc k)) = true ∧
    f.dst.toNat ≠ s.get (F.ETH_MAC_LO_mac k) + 2 ^ 32 * s.get (F.ETH_MAC_HI_mac k)) := by
  simp [State.ethOther, State.flag]

theorem ethFrame_badFcs (h : s.ethTakes m) (hf : f.fcsOk = false) :
    exec (.ethFrame m f) s = .next ((s.satInc (F.ETH_RX_ERR_fcs m)).raise (pgETH m) Ev.ETH_fcs_error) :=
  congrArg Host.Outcome.next ((if_neg h.not_off).trans (if_pos (by simp [hf])))

theorem ethFrame_discarded (h : s.ethTakes m) (hf : f.fcsOk = true) (hd : f.pause = true ∨ 9216 < ethBytes f ∨ s.ethOther m f) :
    exec (.ethFrame m f) s = .next s := by
  rw [State.ethOther_iff] at hd
  exact congrArg Host.Outcome.next ((if_neg h.not_off).trans ((if_neg (by simp [hf])).trans (if_pos hd)))

/-- A frame that the port passes on goes by its flow (R214). -/
theorem ethFrame_passed (h : s.ethTakes m) (hf : f.fcsOk = true) (hd : ¬(f.pause = true ∨ 9216 < ethBytes f ∨ s.ethOther m f)) :
    exec (.ethFrame m f) s = .next (match s.ethFlow m f with
      | none => (s.satInc (F.ETH_RX_ERR_unmatched m)).raise (pgETH m) Ev.ETH_unmatched
      | some j => if s.streamOn (96 + 4 * m + j) then s.portItem (96 + 4 * m + j) f.payload f.payload else s) := by
  rw [State.ethOther_iff] at hd
  exact congrArg Host.Outcome.next ((if_neg h.not_off).trans ((if_neg (by simp [hf])).trans (if_neg hd)))

end

/-! ### Island frames (R215) -/

/-- A frame of an island is an item of its stream. -/
theorem exec_islandItem {i : Island} {ctl : Fin 2} {d : List Byte} {f : CanFrame} {c : Instr} {n : Nat} {place data : List Byte}
    (h1 : 8 ≤ d.length) (h2 : d.length ≤ 64)
    (h : (c, n, place, data) ∈ [(.spiFrame i d, 112 + islNum i, d, d), (.canFdFrame i ctl f, 114 + 2 * islNum i + ctl.val, f.data,
      leBytes 4 (f.ident.toNat + (if f.extended then 2 ^ 29 else 0)) ++ f.data)]) (s : State) :
    exec c s = .next (s.islandItem (islNum i) n place data) := by
  simp only [List.mem_cons, List.not_mem_nil, or_false, Prod.mk.injEq] at h
  obtain ⟨rfl, rfl, rfl, rfl⟩ | ⟨rfl, rfl, rfl, rfl⟩ := h
  · exact congrArg Host.Outcome.next (if_pos ⟨h1, h2⟩)
  · rfl

section
variable {s : State} {n : Nat}

theorem State.islandItem_off (h : s.get F.ING_CTRL_enable = 0 ∨ s.streamOn n = false) (i : Nat) (place data : List Byte) :
    s.islandItem i n place data = s :=
  if_pos (by simpa [State.flag] using h)

theorem State.islandItem_on (hi : s.get F.ING_CTRL_enable = 1) (hn : s.streamOn n = true) (i : Nat) (place data : List Byte) :
    s.islandItem i n place data = if s.replaying then s.count F.JRN_IGNORED_count 1
      else if s.islLinkDown i then s.dropItem n else s.portItem n place data :=
  if_neg (by simp [State.flag_of_get_one hi, hn])

end

/-! ### Changes of link (R210, R213, R227) -/

/-- A bit written reads back. -/
theorem State.flag_putB (s : State) {f : Fld} (hf : f.lo = f.hi ∧ f.hi < 32) (b : Bool) : (s.putB f b).flag f = b := by
  have hsize : f.size = 2 := by simp [Fld.size, hf.1]
  rw [State.flag, State.putB_eq, State.get_put_self _ _ _ (by omega), hsize]
  cases b <;> rfl

theorem State.flag_putB_apart (s : State) {f g : Fld} (h : f.apart g) (b : Bool) : (s.putB f b).flag g = s.flag g :=
  congrArg (· != 0) (s.get_put_apart h _)

theorem State.flag_raiseIf_of_off (s : State) {p b : Nat} {g : Fld} (c : Bool) (h : g.off < 0x800 ∧ g.off / 4 ≠ 4 ∧ g.off / 4 ≠ 57) :
    (s.raiseIf c p b).flag g = s.flag g :=
  congrArg (· != 0) (s.get_raiseIf_other c (Fld.apartTest_event h p b).1 (Fld.apartTest_event h p b).2)

/-- Two bits of one register. -/
theorem Fld.apart_bit {p o b c : Nat} (hb : b < 32) (hc : c < 32) (h : b ≠ c) : (Fld.mk p o b b).apart ⟨p, o, c, c⟩ :=
  Fld.apart_bits ⟨le_rfl, hb⟩ ⟨le_rfl, hc⟩ rfl rfl (by simp only; omega)

/-- A change of a shown bit with its event. -/
theorem FieldsBut.raiseIf_change {fs : List Fld} {s t : State} (h : FieldsBut fs s t) (p b : Nat) (c : Prop) [Decidable c] :
    FieldsBut (fs ++ if c then [] else eventFields p b) s (t.raiseIf (!decide c) p b) := by
  by_cases hc : c
  · simpa [hc, State.raiseIf] using h
  · simp only [hc, if_false, decide_false, Bool.not_false]
    exact (h.mono fun _ hf => List.mem_append_left _ hf).raiseIf (by simp [eventFields]) (by simp [eventFields]) _

theorem csiLinkChange_on {r : Fin 24} {s : State} (h : s.get (F.CSI_CTRL_enable r) = 1) (link deskewed : Bool) :
    exec (.csiLinkChange r link deskewed) s = .next (((s.putB (F.CSI_STATUS_link r) link).putB (F.CSI_STATUS_deskewed r)
        ((deskewed && !s.flag (F.CSI_CTRL_phy r) && s.flag (F.CSI_CTRL_deskew r)) || s.flag (F.CSI_STATUS_deskewed r))).raiseIf
      (!decide (s.flag (F.CSI_STATUS_link r) = link)) (pgCSI r) Ev.CSI_link_change) :=
  congrArg Host.Outcome.next (if_pos (State.flag_of_get_one h))

theorem ethLinkChange_on {m : Fin 4} {s : State} (h : s.get (F.ETH_CTRL_enable m) = 1) (blockLock fecLock link : Bool) :
    exec (.ethLinkChange m blockLock fecLock link) s = .next ((((s.putB (F.ETH_STATUS_block_lock m) blockLock).putB
        (F.ETH_STATUS_fec_lock m) fecLock).putB (F.ETH_STATUS_link m) link).raiseIf
      (!decide (s.flag (F.ETH_STATUS_link m) = link)) (pgETH m) Ev.ETH_link_change) :=
  congrArg Host.Outcome.next (if_pos (State.flag_of_get_one h))

/-- An event raised on a condition that holds. -/
theorem State.eventSet_raiseIf (s : State) {c : Bool} (hc : c = true) (p : Nat) {b : Nat} (hb : b < 32) :
    (s.raiseIf c p b).eventSet p b = true := by
  rw [State.raiseIf, if_pos hc]
  exact s.eventSet_raise p b hb

/-- A receiver shows its link and its deskew, and raises a change of link (R210, R227). -/
theorem csiLinkChange_shown {r : Fin 24} {s : State} (h : s.get (F.CSI_CTRL_enable r) = 1) (link deskewed : Bool) :
    ∃ t, exec (.csiLinkChange r link deskewed) s = .next t ∧ t.flag (F.CSI_STATUS_link r) = link
      ∧ t.flag (F.CSI_STATUS_deskewed r)
        = (s.flag (F.CSI_STATUS_deskewed r) || (deskewed && !s.flag (F.CSI_CTRL_phy r) && s.flag (F.CSI_CTRL_deskew r)))
      ∧ (s.flag (F.CSI_STATUS_link r) ≠ link → t.eventSet (pgCSI r) Ev.CSI_link_change = true)
      ∧ FieldsBut ([F.CSI_STATUS_link r, F.CSI_STATUS_deskewed r]
          ++ if s.flag (F.CSI_STATUS_link r) = link then [] else eventFields (pgCSI r) Ev.CSI_link_change) s t
      ∧ { t with regs := s.regs, flt := s.flt } = s := by
  refine ⟨_, csiLinkChange_on h link deskewed, ?_, ?_, fun hne => ?_, ?_, ?_⟩
  · rw [State.flag_raiseIf_of_off _ _ (by simp), State.flag_putB_apart _ (Fld.apart_bit (by decide) (by decide) (by decide)),
      State.flag_putB _ (by simp)]
  · rw [State.flag_raiseIf_of_off _ _ (by simp), State.flag_putB _ (by simp), Bool.or_comm]
  · exact State.eventSet_raiseIf _ (by simpa using hne) _ (by decide)
  · exact (((FieldsBut.refl _ s).putB (by simp) _).putB (by simp) _).raiseIf_change _ _ _
  · exact ((((RegsOnly.refl s).put _ _).put _ _).raiseIf _ _ _).frame

/-- A port shows its link, its block lock and its FEC lock, and raises a change of link (R213, R227). -/
theorem ethLinkChange_shown {m : Fin 4} {s : State} (h : s.get (F.ETH_CTRL_enable m) = 1) (blockLock fecLock link : Bool) :
    ∃ t, exec (.ethLinkChange m blockLock fecLock link) s = .next t ∧ t.flag (F.ETH_STATUS_link m) = link
      ∧ t.flag (F.ETH_STATUS_block_lock m) = blockLock ∧ t.flag (F.ETH_STATUS_fec_lock m) = fecLock
      ∧ (s.flag (F.ETH_STATUS_link m) ≠ link → t.eventSet (pgETH m) Ev.ETH_link_change = true)
      ∧ FieldsBut ([F.ETH_STATUS_link m, F.ETH_STATUS_block_lock m, F.ETH_STATUS_fec_lock m]
          ++ if s.flag (F.ETH_STATUS_link m) = link then [] else eventFields (pgETH m) Ev.ETH_link_change) s t
      ∧ { t with regs := s.regs, flt := s.flt } = s := by
  refine ⟨_, ethLinkChange_on h blockLock fecLock link, ?_, ?_, ?_, fun hne => ?_, ?_, ?_⟩
  · rw [State.flag_raiseIf_of_off _ _ (by simp), State.flag_putB _ (by simp)]
  · rw [State.flag_raiseIf_of_off _ _ (by simp), State.flag_putB_apart _ (Fld.apart_bit (by decide) (by decide) (by decide)),
      State.flag_putB_apart _ (Fld.apart_bit (by decide) (by decide) (by decide)), State.flag_putB _ (by simp)]
  · rw [State.flag_raiseIf_of_off _ _ (by simp), State.flag_putB_apart _ (Fld.apart_bit (by decide) (by decide) (by decide)),
      State.flag_putB _ (by simp)]
  · exact State.eventSet_raiseIf _ (by simpa using hne) _ (by decide)
  · exact ((((FieldsBut.refl _ s).putB (by simp) _).putB (by simp) _).putB (by simp) _).raiseIf_change _ _ _
  · exact (((((RegsOnly.refl s).put _ _).put _ _).put _ _).raiseIf _ _ _).frame

/-- Settles O29: packet by packet and frame by frame, from the lemmas that say what each port does with one. -/
theorem sensorPorts : Obligations.SensorPorts := by
  refine ⟨fun r p s => ?_, fun r slot s => ?_, fun n fl ts data last s => ?_, fun m f s => ?_,
    fun i ctl d f c n place data s h1 h2 hmem => ?_, fun r link deskewed s => ?_,
    fun m blockLock fecLock link s => ?_⟩
  · intro k slots s1
    refine ⟨csiPacket_off, fun hi hc => ⟨fun he => ?_, fun hk he => ?_, fun hk he => ?_, fun hk he => ?_, fun hk he => ?_,
      fun dt ok data hk he => ?_⟩⟩
    · exact ⟨_, csiPacket_two ⟨hi, hc⟩ he, s.csiDamage_counted k slots⟩
    · refine ⟨_, (csiPacket_lineSync ⟨hi, hc⟩ (by simp [he]) hk).trans (congrArg Host.Outcome.next (if_pos he)), ?_, ?_, rfl⟩
      · exact s.get_satInc_byte rfl (by simp)
      · exact (FieldsBut.refl _ s).satInc List.mem_cons_self
    · exact (csiPacket_lineSync ⟨hi, hc⟩ (by simp [he]) hk).trans (congrArg Host.Outcome.next (if_neg (by simp [he])))
    · exact csiPacket_frameStart ⟨hi, hc⟩ he hk
    · exact csiPacket_frameEnd ⟨hi, hc⟩ he hk
    · intro mine line
      refine ⟨fun h => ?_, fun u hok hmine hu => ⟨?_, ?_⟩⟩
      · exact (csiPacket_long ⟨hi, hc⟩ he hk).trans (congrArg (fun t => Host.Outcome.next (line t)) (if_pos h))
      · rw [hu]
        exact (csiPacket_long ⟨hi, hc⟩ he hk).trans
          (congrArg (fun t => Host.Outcome.next (line t)) (if_neg (not_or_intro (by simp [hok]) hmine)))
      · rw [hu, ← s.get_csiHeader_crc k p]
        exact s1.counted_of_off (by simp) (by decide) (by simp)
  · intro k v n st put
    refine ⟨fun hn => ⟨State.csiStart_of_none hn, State.frameEnd_of_none hn, State.csiLine_of_none hn⟩, State.csiStart_of_some,
      fun f dt ok data hf => ?_, fun f fl hf => ?_, fun f fl last => rfl, fun f => ?_, fun f q hq hd => ?_⟩
    · intro px f1 emb
      refine ⟨fun hdt hne => ?_, fun hdt heq => ?_, fun hdt hout => ?_, fun hdt ht hcount hpx => ⟨?_, ?_⟩⟩
      · exact (State.csiLine_embedded hf ok data hdt).trans (if_neg hne)
      · exact (State.csiLine_embedded hf ok data hdt).trans (if_pos heq)
      · exact (State.csiLine_image hf ok data hdt).trans (if_pos hout)
      · exact State.csiLine_joined hf ok data hdt ht hcount hpx
      · exact State.csiLine_slab hf ok data hdt ht hcount hpx
    · refine ⟨fun h => ?_, fun hslab hlines hcount => ?_⟩
      · exact (State.frameEnd_of_some hf fl).trans (congrArg (fun t => State.embTest t k v f) (if_neg (by tauto)))
      · exact (State.frameEnd_of_some hf fl).trans (congrArg (fun t => State.embTest t k v f) (if_pos ⟨hslab, hlines, hcount⟩))
    · refine ⟨State.embTest_met, fun hon hr hbad => ?_⟩
      rw [State.embTest_failed hon hr hbad]
      have h := s.counted_health (f := F.CSI_EMB_FAIL_fail k v) (p := pgCSI k) (b := Ev.CSI_emb_fail) (by simp; omega) (by decide) (by simp)
        (by change 12 + k ≠ 9; omega) n 2 (-(s.get F.WARD_HEALTH_DELTA_emb_fail : Int))
      have hsize : (F.CSI_EMB_FAIL_fail k v).size - 1 = 255 := by simp [Fld.size]
      rwa [hsize] at h
    · refine ⟨State.lastSlab_waiting hq hd, fun h => ?_⟩
      rw [State.lastSlab_committed hq hd h]
      exact ⟨s.get_count_word (by simp) 1, (FieldsBut.refl _ s).count List.mem_cons_self 1, rfl⟩
  · intro v put new
    refine ⟨fun hr => ?_, fun hr => ⟨fun hp => State.newItem_of_full hr hp fl ts last, fun o ho => ⟨fun hx => ?_, fun hx hf hb => ?_,
      fun hx hf => ⟨fun hd hreach => ?_, fun hno => ?_⟩⟩⟩, fun place => rfl, fun t ht => State.stampWaiting_eq ht⟩
    · simp only [new, State.newItem_of_replaying hr]
      exact s.count_ignored 1
    · exact (State.newItem_of_stored hr hx fl ts last).trans (State.storeItem_of_place ho fl ts last)
    · exact (State.newItem_of_bypass hr hx hf hb fl ts last).trans (State.storeItem_of_place ho _ ts last)
    · exact (State.newItem_of_passed hr hx hf fl ts last).trans (State.passItem_sent ho hd hreach fl ts last)
    · exact (State.newItem_of_passed hr hx hf fl ts last).trans (State.passItem_refused ho hno fl ts last)
  · refine ⟨ethFrame_off, fun hi hc => ?_⟩
    intro other
    refine ⟨fun hf => ?_, fun hf hd => ethFrame_discarded ⟨hi, hc⟩ hf hd,
      fun hf hpause hlen hother => ⟨fun hn => ?_, fun j hj => ⟨fun hon => ?_, fun hoff => ?_⟩⟩⟩
    · exact ⟨_, ethFrame_badFcs ⟨hi, hc⟩ hf, s.counted_of_off (by simp) (by decide) (by simp)⟩
    all_goals
      have hpass : ¬(f.pause = true ∨ 9216 < ethBytes f ∨ s.ethOther m f) := by
        rw [hpause]
        exact not_or_intro (by simp) (not_or_intro (by omega) hother)
    · refine ⟨_, (ethFrame_passed ⟨hi, hc⟩ hf hpass).trans (congrArg Host.Outcome.next (by rw [hn])), ?_⟩
      have h := s.counted_of_off (f := F.ETH_RX_ERR_unmatched m) (p := pgETH m) (b := Ev.ETH_unmatched) (by simp) (by decide) (by simp)
      exact ⟨h.2.1, h.1, h.2.2⟩
    · exact (ethFrame_passed ⟨hi, hc⟩ hf hpass).trans (congrArg Host.Outcome.next (by rw [hj]; exact if_pos hon))
    · exact (ethFrame_passed ⟨hi, hc⟩ hf hpass).trans (congrArg Host.Outcome.next (by rw [hj]; exact if_neg (by simp [hoff])))
  · rw [exec_islandItem h1 h2 hmem]
    refine ⟨fun h => by rw [State.islandItem_off h], fun hi hon => ?_⟩
    rw [State.islandItem_on hi hon]
    refine ⟨fun hr => ?_, fun hr hdown => ?_, fun hr hup => ?_⟩
    · exact ⟨_, congrArg Host.Outcome.next (if_pos hr), s.count_ignored 1⟩
    · exact congrArg Host.Outcome.next ((if_neg (by simp [hr])).trans (if_pos hdown))
    · exact congrArg Host.Outcome.next ((if_neg (by simp [hr])).trans (if_neg (by simp [hup])))
  · exact ⟨fun h => congrArg Host.Outcome.next (if_neg (by simp [State.flag, h])), fun h => csiLinkChange_shown h link deskewed⟩
  · exact ⟨fun h => congrArg Host.Outcome.next (if_neg (by simp [State.flag, h])), fun h => ethLinkChange_shown h blockLock fecLock link⟩

end Sys2Proof.Machine
end

section
/-! SUPPORT. Device writes and publications keep the streams, the queues, the fence objects and the ego-motion engine's items (R208, R317). -/

namespace Sys2Proof.Machine

/-- The streams, the queues, the fence objects and the items of the ego-motion engine are those of `o`. -/
structure KeepsIngress (o s : State) : Prop where
  streams : s.streams = o.streams
  queues : s.queues = o.queues
  fences : s.fences = o.fences
  egoIn : s.egoIn = o.egoIn

namespace KeepsIngress

theorem refl (s : State) : KeepsIngress s s := ⟨rfl, rfl, rfl, rfl⟩

variable {o s t : State}

theorem stream (h : KeepsIngress o s) (n : Nat) : s.stream n = o.stream n := State.stream_of_streams h.streams n

theorem queue (h : KeepsIngress o s) (n : Nat) : s.queue n = o.queue n := by
  rw [State.queue, State.queue, h.queues]

theorem fence (h : KeepsIngress o s) (n : Nat) : s.fence n = o.fence n := by
  rw [State.fence, State.fence, h.fences]

theorem ite {c : Prop} [Decidable c] (hs : KeepsIngress o s) (ht : KeepsIngress o t) : KeepsIngress o (if c then s else t) := by
  split <;> assumption

theorem foldl {α : Type} {f : State → α → State} {l : List α} (h : KeepsIngress o s)
    (hf : ∀ {s a}, KeepsIngress o s → KeepsIngress o (f s a)) : KeepsIngress o (l.foldl f s) :=
  List.foldlRecOn l f h fun _ hu _ _ => hf hu

variable (h : KeepsIngress o s)
include h

/-- A change of other fields. -/
theorem upd (hs : t.streams = s.streams := by rfl) (hq : t.queues = s.queues := by rfl) (hf : t.fences = s.fences := by rfl)
    (he : t.egoIn = s.egoIn := by rfl) : KeepsIngress o t :=
  ⟨hs.trans h.streams, hq.trans h.queues, hf.trans h.fences, he.trans h.egoIn⟩

/-! ### Registers and events -/

theorem put {f v} : KeepsIngress o (s.put f v) := h.upd
theorem putB {f b} : KeepsIngress o (s.putB f b) := h.put
theorem satInc {f} : KeepsIngress o (s.satInc f) := h.upd
theorem count {f n} : KeepsIngress o (s.count f n) := h.put
theorem putMax {f v} : KeepsIngress o (s.putMax f v) := .ite h.put h
theorem raise {p b} : KeepsIngress o (s.raise p b) := h.upd (by simp) (by simp) (by simp) (by simp)

/-! ### Memory and its controllers (R370 to R390) -/

theorem poke {a bs p} : KeepsIngress o (s.poke a bs p) := h.upd

theorem countUnmapped {a} : KeepsIngress o (s.countUnmapped a) := by
  unfold State.countUnmapped
  split
  exacts [h.satInc.raise, h.satInc.raise, h]

theorem setMc {k m} : KeepsIngress o (s.setMc k m) := h.upd
theorem wqShow {k} : KeepsIngress o (s.wqShow k) := h.put.putMax
theorem wqEmpty {k} : KeepsIngress o (s.wqEmpty k) := h.setMc.wqShow

theorem mcMode {k} : KeepsIngress o (s.mcMode k) := by
  refine .ite h ?_
  split
  exacts [h.put.put, .ite (.put (.put (.ite h.wqEmpty h))) h.put.put]

theorem ccAccess {k ch x write} : KeepsIngress o (s.ccAccess k ch x write) := by
  unfold State.ccAccess
  extract_lets +onlyGivenNames _ _ _
  split
  exacts [h.setMc, h.setMc.count]

theorem wqAccept {k ch w} : KeepsIngress o (s.wqAccept k ch w) :=
  .ite h (.ite h.setMc.wqShow.setMc.satInc.wqShow h.setMc.wqShow)

theorem errLoc {k ch x byte scrub cache} : KeepsIngress o (s.errLoc k ch x byte scrub cache) :=
  h.put.put.put.put.put.put.putB.putB

theorem rowRetireStart {k ch bank row} : KeepsIngress o (s.rowRetireStart k ch bank row) :=
  .ite h (.ite h.raise h.setMc.put.mcMode)

theorem mcCorrected {k ch x byte scrub} : KeepsIngress o (s.mcCorrected k ch x byte scrub) :=
  .ite h.setMc.satInc.errLoc.raise.rowRetireStart h.setMc.satInc.errLoc.raise

theorem mcUncorrectable {k ch x scrub} : KeepsIngress o (s.mcUncorrectable k ch x scrub) := h.satInc.errLoc.raise.rowRetireStart

theorem mcTouch {write w} : KeepsIngress o (s.mcTouch write w) := .ite (.ite h.ccAccess.wqAccept (.ccAccess (.ite h.count h))) h

theorem mcTouches {write a n} : KeepsIngress o (s.mcTouches write a n) := h.foldl fun h => h.mcTouch

theorem logRead {w} : KeepsIngress o (s.logRead w) := by
  unfold State.logRead
  split
  · exact h
  · exact h
  · extract_lets +onlyGivenNames _ _
    split
    · exact .ite h.mcUncorrectable h.mcCorrected
    · exact .raise (.ite h.satInc h.satInc)
    · exact .raise (.put (.put (.ite h.count h.count)))
    · exact h

/-! ### Device writes -/

theorem storeRaw {a bs p} : KeepsIngress o (s.storeRaw a bs p) := .ite (.poke (.foldl h.mcTouches fun h => h.logRead)) h.countUnmapped

theorem applyInject {w} : KeepsIngress o (s.applyInject w) := by
  refine .ite ?_ h
  extract_lets +onlyGivenNames _ _ _
  split
  exacts [h.upd, h]

theorem rfxWrite {isl k a bs p} : KeepsIngress o (s.rfxWrite isl k a bs p) := .ite h (.ite h (.ite h.storeRaw.upd h.storeRaw))

theorem storeBy {isl a bs p} : KeepsIngress o (s.storeBy isl a bs p) := by
  refine .ite (h.foldl fun h => ?_) h.storeRaw
  split
  exacts [h.rfxWrite, h.storeRaw]

theorem collGo {a n} : KeepsIngress o (s.collGo a n) := .ite (h.foldl fun h => .ite h.upd h) h

theorem store {a bs p} : KeepsIngress o (s.store a bs p) := .collGo (.foldl h.storeBy fun h => h.applyInject)

/-! ### Publications (R317 to R323) -/

theorem ringPoke {base units unit us} : KeepsIngress o (s.ringPoke base units unit us) := by
  induction us generalizing s unit with
  | nil => exact h
  | cons u us ih => exact ih h.poke

theorem exportUntil {need n} : KeepsIngress o (s.exportUntil need n) := by
  induction n generalizing s with
  | zero => exact h
  | succ n ih => exact .ite (ih h.put) h

theorem ringPut {r} : KeepsIngress o (s.ringPut r) := h.ringPoke.put
theorem droppedShow : KeepsIngress o s.droppedShow := h.count.put.raise
theorem recordLost {r} : KeepsIngress o (s.recordLost r) := .ite h.upd h.upd.droppedShow

theorem ringRecord {r} : KeepsIngress o (s.ringRecord r) := by
  unfold State.ringRecord
  extract_lets +onlyGivenNames _ _ _
  refine .ite ?_ h.recordLost
  extract_lets +onlyGivenNames s1
  have h1 : KeepsIngress o s1 := .ite h h.exportUntil.put.raise
  exact .ringPut (.ite h1.ringPut.upd h1)

theorem journalWrite : KeepsIngress o s.journalWrite := by
  unfold State.journalWrite
  split
  exacts [h, h.upd.ringRecord]

theorem stage {r} : KeepsIngress o (s.stage r) :=
  .ite h (.ite h.upd (.ite (.upd (.foldl h.put.raise fun h => h.journalWrite)) h.upd.droppedShow))

theorem publish {kind flags src aux0 aux1 aux2 payload} : KeepsIngress o (s.publish kind flags src aux0 aux1 aux2 payload) :=
  h.put.put.stage

end KeepsIngress

end Sys2Proof.Machine
end

section
/-! SUPPORT. Streams and their records (O28): enabled, stopped, committed, dropped, back from the XS die (R203 to R209, R217, R224, R225, R328). -/

namespace Sys2Proof.Machine

/-! ### Records committed (R206 to R209) -/

/-- An ingress queue is replaced alone: no pending bit stands for it. -/
theorem State.setQueue_ingress (s : State) {n : Nat} (h : n < 0x80) (q : QSt) : s.setQueue n q = { s with queues := tabSet s.queues n q } := by
  have hkind : queueKind n = 3 := if_pos h
  simp [State.setQueue, hkind]

theorem State.fenceAdd_of_lt {s : State} {o n : Nat} (h : s.fence o + n < 2 ^ 64) :
    s.fenceAdd o n = { s with fences := tabSet s.fences o (s.fence o + n) } := if_pos h

/-- What a record of stream `n` does to the stream: its ring range waits for the consumer, its kind is remembered with the position. -/
def StreamSt.committed (v : StreamSt) (x : IngRec) (idx pos : Nat) : StreamSt :=
  { v with
    held := v.held.map fun h => if x.kind = 0 ∧ h = (none, x.off, x.len) then (some idx, x.off, x.len) else h
    hist := if x.kind = 1 then v.hist ++ [(pos, x.len % 256)] else v.hist
    items := if x.kind = 0 then v.items ++ [(pos, x.seq, x.ts)] else v.items }

/-- The state with an item's data in its stream's ring and the record in its queue's (R206). -/
def State.recordStored (s : State) (n : Nat) (x : IngRec) : State :=
  ((if x.kind = 0 then s.store ((s.stream n).ring + x.off) x.data (x.flags.testBit 3) else s).store
    ((s.queue n).ring + (s.queue n).producer % (s.queue n).size * 32) (ingRecord n x s.jrnPos))

theorem KeepsIngress.itemStore {s : State} {n : Nat} {x : IngRec} :
    KeepsIngress s (if x.kind = 0 then s.store ((s.stream n).ring + x.off) x.data (x.flags.testBit 3) else s) :=
  .ite (KeepsIngress.refl s).store (.refl s)

/-- The record stands in its queue. -/
theorem State.ringEntry_itemStore (s : State) {n : Nat} (hn : n < 0x80) (x : IngRec) :
    (if x.kind = 0 then s.store ((s.stream n).ring + x.off) x.data (x.flags.testBit 3) else s).ringEntry n (ingRecord n x s.jrnPos)
      = { s.recordStored n x with
          queues := tabSet s.queues n { s.queue n with producer := ((s.queue n).producer + 1) % 2 ^ 32 } } := by
  rw [State.ringEntry, KeepsIngress.itemStore.queue n, State.setQueue_ingress _ hn, (KeepsIngress.itemStore (s := s)).store.queues]
  rfl

/-- What is published of a record. -/
def State.recordPublished (s : State) (n : Nat) (x : IngRec) : State :=
  let pay := if x.kind = 0 then s.itemPayload n x.data (x.flags.testBit 3) else (0, [])
  State.publish { s.recordStored n x with
    queues := tabSet s.queues n { s.queue n with producer := ((s.queue n).producer + 1) % 2 ^ 32 } }
    (x.kind + 1) pay.1 n x.seq (n + 256 * x.kind + 65536 * x.flags) x.ts pay.2

/-- A record committed: data, entry, publication, fence, stream and the item for the ego-motion engine (R206, R208, R230). -/
theorem State.commitRecord_eq (s : State) {n : Nat} (hn : n < 0x80) (x : IngRec) (hf : s.fence (s.stream n).fenceObj + 1 < 2 ^ 64) :
    s.commitRecord n x = { s.recordPublished n x with
      fences := tabSet s.fences (s.stream n).fenceObj (s.fence (s.stream n).fenceObj + 1)
      streams := tabSet s.streams n ((s.stream n).committed x (s.queue n).producer s.jrnPos)
      egoIn := (s.recordPublished n x).egoIn
        ++ if x.kind = 0 ∧ s.egoWants n x.data = true then [⟨n, x.seq, x.flags, x.ts, s.jrnPos, x.data⟩] else [] } := by
  let e : State := { s.recordStored n x with
    queues := tabSet s.queues n { s.queue n with producer := ((s.queue n).producer + 1) % 2 ^ 32 } }
  have he : KeepsIngress e (s.recordPublished n x) := (KeepsIngress.refl e).publish
  have hs : KeepsIngress s (s.recordStored n x) := KeepsIngress.itemStore.store
  have hfences : (s.recordPublished n x).fences = s.fences := he.fences.trans hs.fences
  have hstreams : (s.recordPublished n x).streams = s.streams := he.streams.trans hs.streams
  have hfence : (s.recordPublished n x).fence (s.stream n).fenceObj = s.fence (s.stream n).fenceObj := by
    rw [State.fence, hfences, State.fence]
  have hadd : (s.recordPublished n x).fenceAdd (s.stream n).fenceObj 1 = { s.recordPublished n x with
      fences := tabSet s.fences (s.stream n).fenceObj (s.fence (s.stream n).fenceObj + 1) } := by
    rw [State.fenceAdd_of_lt (hfence.symm ▸ hf), hfence, hfences]
  have hmod : ((s.recordPublished n x).fenceAdd (s.stream n).fenceObj 1).modStream n
        (fun v => v.committed x (s.queue n).producer s.jrnPos) = { s.recordPublished n x with
      fences := tabSet s.fences (s.stream n).fenceObj (s.fence (s.stream n).fenceObj + 1)
      streams := tabSet s.streams n ((s.stream n).committed x (s.queue n).producer s.jrnPos) } := by
    rw [hadd, State.modStream, State.setStream, State.stream, State.stream, hstreams]
  have hcommit : s.commitRecord n x =
      (let s4 := ((s.recordPublished n x).fenceAdd (s.stream n).fenceObj 1).modStream n
        (fun v => v.committed x (s.queue n).producer s.jrnPos)
      if x.kind = 0 ∧ s.egoWants n x.data then { s4 with egoIn := s4.egoIn ++ [⟨n, x.seq, x.flags, x.ts, s.jrnPos, x.data⟩] } else s4) := by
    rw [State.commitRecord, State.ringEntry_itemStore s hn]
    rfl
  rw [hcommit, hmod]
  split
  · rfl
  · simp

/-! ### Streams enabled and stopped (R203, R204, R224) -/

theorem ingStreamEn_fits (k : Nat) : (F.ING_STREAM_EN_enable k).fits := ⟨by simp, by simp⟩

theorem State.get_putStreamOn_true (s : State) (n : Nat) :
    (s.putStreamOn n true).get (F.ING_STREAM_EN_enable (n / 32)) = s.get (F.ING_STREAM_EN_enable (n / 32)) ||| 2 ^ (n % 32) := by
  have hget : s.get (F.ING_STREAM_EN_enable (n / 32)) < 2 ^ 32 := s.get_lt_size (ingStreamEn_fits _)
  have hbit : 2 ^ (n % 32) < 2 ^ 32 := Nat.pow_lt_pow_right (by decide) (Nat.mod_lt _ (by decide))
  refine (s.get_put_self _ _ (ingStreamEn_fits _)).trans (Nat.mod_eq_of_lt ?_)
  exact Nat.or_lt_two_pow hget hbit

theorem State.get_putStreamOn_false {s : State} {n : Nat} (h : s.streamOn n = true) :
    (s.putStreamOn n false).get (F.ING_STREAM_EN_enable (n / 32)) = s.get (F.ING_STREAM_EN_enable (n / 32)) - 2 ^ (n % 32) := by
  have hget : s.get (F.ING_STREAM_EN_enable (n / 32)) < 2 ^ 32 := s.get_lt_size (ingStreamEn_fits _)
  have hor : s.get (F.ING_STREAM_EN_enable (n / 32)) ||| 2 ^ (n % 32) = s.get (F.ING_STREAM_EN_enable (n / 32)) := by
    refine Nat.eq_of_testBit_eq fun i => ?_
    simp only [Nat.testBit_or, Nat.testBit_two_pow, Bool.or_eq_left_iff_imp, decide_eq_true_eq]
    rintro rfl
    exact h
  refine (s.get_put_self _ _ (ingStreamEn_fits _)).trans ?_
  rw [if_neg (by decide), hor]
  exact Nat.mod_eq_of_lt (lt_of_le_of_lt (Nat.sub_le _ _) hget)

theorem State.streamStop_off {s : State} {n : Nat} (h : s.streamOn n = false) : s.streamStop n = s := if_neg (by simp [h])

/-- A stream with no item and no frame in flight stopped. -/
theorem State.streamStop_idle {s : State} {n : Nat} (hon : s.streamOn n = true) (hready : (s.stream n).ready.all (fun r => r.kind != 0) = true)
    (hframe : (s.stream n).frame = none) : s.streamStop n = (s.putStreamOn n false).setStream n { s.stream n with
      held := (s.stream n).held.filter fun h => h.1.isSome
      ward := if (s.stream n).ward.any (·.running) then (s.stream n).ward else none
      done := [] } := by
  have hfilter : ((s.stream n).ready.filter fun r => decide (r.kind = 0)) = [] := by
    simpa [List.filter_eq_nil_iff] using hready
  have hstream : (s.putStreamOn n false).stream n = s.stream n := State.stream_of_streams rfl n
  rw [State.streamStop, if_pos hon, hfilter]
  simp only [List.foldl_nil, State.modStream, hstream, State.frameDrop, State.stream_setStream_same, hframe,
    Option.isSome_none, Bool.false_eq_true, if_false, State.setStream_setStream]
  cases (s.stream n).ward with
  | none => rfl
  | some w => simp only [Option.any_some]

/-- A descriptor in plain memory reads whole and sound. -/
theorem State.streamLoad_plain {s : State} {a : Nat} (h : s.plainMem a 64 = true) :
    s.load a 64 = (s.mcTouches false a 64, s.bytes a 64, false) := by
  simp only [State.plainMem, Bool.and_eq_true, List.isEmpty_iff] at h
  obtain ⟨⟨⟨hat, hone⟩, hcond⟩, -⟩ := h
  have hplain : s.Plain a := State.plain_of_plainAt hcond hat
  have hwithin : s.within a 64 := by
    simp only [State.oneRegion, Bool.or_eq_true, Bool.and_eq_true, beq_iff_eq] at hone
    exact .inr (hone.resolve_left (by decide)).1.symm
  rw [State.load_plain hplain, hplain.poisonedAt hwithin le_rfl le_rfl]

section
variable {s : State} {n : Nat}

/-- A stream as its sound descriptor enables it (R204, R207, R224). -/
def State.enabledStream (s : State) (n : Nat) (desc : List Byte) : StreamSt :=
  { s.stream n with
    desc := desc
    scoreC := .of 192
    wr := 0
    held := if (s.stream n).ring = fieldAt desc 0x10 8 then s.heldNow n else [] }

theorem ReadOnly.get_streamEn {t : State} (h : ReadOnly s t) (hn : n < 128) :
    t.get (F.ING_STREAM_EN_enable (n / 32)) = s.get (F.ING_STREAM_EN_enable (n / 32)) :=
  h.get _ (by simp only [regKey]; omega) (by simp only [regKey]; omega)

theorem State.streamEnable_sound {a : Nat} (ha : a = s.addr F.ING_TABLE_BASE_LO_base + 64 * n) (h : s.plainMem a 64 = true)
    (hok : (s.mcTouches false a 64).streamOk n (s.bytes a 64) = true) :
    s.streamEnable n = ((s.mcTouches false a 64).putStreamOn n true).setStream n (s.enabledStream n (s.bytes a 64)) := by
  subst ha
  have hstreams : ((s.mcTouches false (s.addr F.ING_TABLE_BASE_LO_base + 64 * n) 64).putStreamOn n true).streams = s.streams :=
    (congrArg State.streams (s.mcTouches_readOnly _ 64).frame :)
  rw [State.streamEnable, State.streamLoad_plain h]
  refine (if_pos (by simp [hok])).trans ?_
  rw [State.modStream, State.stream_of_streams hstreams]
  rfl

theorem State.streamEnable_unsound {a : Nat} (ha : a = s.addr F.ING_TABLE_BASE_LO_base + 64 * n) (h : s.plainMem a 64 = true)
    (hbad : (s.mcTouches false a 64).streamOk n (s.bytes a 64) = false) :
    s.streamEnable n = (((s.mcTouches false a 64).put F.ING_STATUS_cfg_err 1).put F.ING_STATUS_cfg_stream n).raise pgING Ev.ING_cfg_err := by
  subst ha
  rw [State.streamEnable, State.streamLoad_plain h]
  exact if_neg (by simp [hbad])

/-- What a refused stream shows: the error, the stream and the event. -/
theorem State.cfgErr_shown (r : State) (hn : n < 128) :
    let t := ((r.put F.ING_STATUS_cfg_err 1).put F.ING_STATUS_cfg_stream n).raise pgING Ev.ING_cfg_err
    t.get F.ING_STATUS_cfg_err = 1 ∧ t.get F.ING_STATUS_cfg_stream = n ∧ t.eventSet pgING Ev.ING_cfg_err = true
      ∧ FieldsBut ([F.ING_STATUS_cfg_err, F.ING_STATUS_cfg_stream] ++ eventFields pgING Ev.ING_cfg_err) r t
      ∧ { t with regs := r.regs, flt := r.flt } = r := by
  have happart : F.ING_STATUS_cfg_stream.apart F.ING_STATUS_cfg_err :=
    Fld.apart_bits ⟨by decide, by decide⟩ ⟨by decide, by decide⟩ rfl rfl (by decide)
  refine ⟨?_, ?_, State.eventSet_raise _ _ _ (by decide), ?_, (((RegsOnly.refl r).put _ _).put _ _ |>.raise _ _).frame⟩
  · rw [State.get_raise_of_off _ (by decide), State.get_put_apart _ happart, State.get_put_self _ _ _ (by decide)]
    rfl
  · rw [State.get_raise_of_off _ (by decide), State.get_put_self _ _ _ (by decide)]
    exact Nat.mod_eq_of_lt hn
  · exact (((FieldsBut.refl _ r).put (by simp) _).put (by simp) _).raise (by simp [eventFields]) (by simp [eventFields])

/-! ### Scores lowered, items dropped (R205, R207, R225) -/

/-- A stream's score lowered with another cause than a good item. -/
theorem StreamSt.health_lowered {v : StreamSt} (h : v.score ≤ 255) {c : Nat} (hc : c ≠ 7) (d : Nat) : v.health c (-(d : Int)) = { v with
    scoreC := .of (v.score - d)
    cause := c
    ready := v.ready ++ [{ kind := 1, seq := v.seq, len := v.score - d + 256 * c }]
    seq := (v.seq + 1) % 2 ^ 32 } := by
  have hnew : (max 0 (min 255 ((v.score : Int) + -(d : Int)))).toNat = v.score - d := by omega
  rw [StreamSt.health, hnew, if_neg (by simp [hc])]

/-- The streams first, then registers and events. -/
theorem StreamsOnly.regsOnly {s t u : State} (h : StreamsOnly s t) (k : RegsOnly t u) :
    { u with regs := s.regs, streams := s.streams, flt := s.flt } = s := by
  have hregs : t.regs = s.regs := (congrArg State.regs h.frame :)
  have hflt : t.flt = s.flt := (congrArg State.flt h.frame :)
  calc { u with regs := s.regs, streams := s.streams, flt := s.flt }
      = { ({ u with regs := t.regs, flt := t.flt } : State) with streams := s.streams } := by rw [hregs, hflt]
    _ = { t with streams := s.streams } := by rw [k.frame]
    _ = s := h.frame

/-- A stream changed, then an event. -/
theorem State.setStream_raise (s : State) (n : Nat) (v : StreamSt) (p : Nat) {b : Nat} (hb : b < 32) :
    let t := (s.setStream n v).raise p b
    t.streams = tabSet s.streams n v ∧ t.eventSet p b = true ∧ FieldsBut (eventFields p b) s t
      ∧ { t with regs := s.regs, streams := s.streams, flt := s.flt } = s := by
  have hfields : FieldsBut (eventFields p b) s (s.setStream n v) := (FieldsBut.refl _ s).of_regs rfl rfl
  exact ⟨State.raise_streams _ _ _, State.eventSet_raise _ _ _ hb, hfields.raise (by simp [eventFields]) (by simp [eventFields]),
    (StreamsOnly.setStream s n v).regsOnly ((RegsOnly.refl _).raise p b)⟩

/-- A stream told of a bad item (cause 4), nothing in replay. -/
def State.badTold (s : State) (v : StreamSt) : StreamSt :=
  if s.replaying then v else
    { v with
      scoreC := .of (v.score - s.get F.WARD_HEALTH_DELTA2_bad_item)
      cause := 4
      ready := v.ready ++ [{ kind := 1, seq := v.seq, len := v.score - s.get F.WARD_HEALTH_DELTA2_bad_item + 256 * 4 }]
      seq := (v.seq + 1) % 2 ^ 32 }

/-- A stream that dropped an item: the event, and the score lowered. -/
theorem State.drop_told (s : State) (n : Nat) {v : StreamSt} (hv : v.score ≤ 255) :
    let t := ((s.setStream n v).raise pgING Ev.ING_drop).healthBad n
    t.streams = tabSet s.streams n (s.badTold v) ∧ t.eventSet pgING Ev.ING_drop = true
      ∧ FieldsBut (eventFields pgING Ev.ING_drop) s t ∧ { t with regs := s.regs, streams := s.streams, flt := s.flt } = s := by
  intro t
  let u := (s.setStream n v).raise pgING Ev.ING_drop
  obtain ⟨hstreams, hevent, hfields, hframe⟩ := s.setStream_raise n v pgING (b := Ev.ING_drop) (by decide)
  have hget : ∀ g : Fld, g.off < 0x800 ∧ g.off / 4 ≠ 4 ∧ g.off / 4 ≠ 57 → u.get g = s.get g :=
    fun g hg => ((s.setStream n v).get_raise_of_off hg).trans (State.get_of_regs rfl rfl g)
  have hreplaying : u.replaying = s.replaying := State.replaying_congr (hget _ (by decide))
  have hstream : u.stream n = v := (State.stream_of_streams (State.raise_streams _ _ _) n).trans (s.stream_setStream_same n v)
  have ht : StreamsOnly u t := State.health_streamsOnly u n 4 _
  refine ⟨?_, (ht.eventSet _ _).trans hevent, ht.fieldsBut hfields, ?_⟩
  · cases hr : s.replaying with
    | true =>
      have hsame : t = u := State.health_of_replaying (hreplaying.trans hr) _ _ _
      rw [hsame, hstreams, State.badTold, if_pos hr]
    | false =>
      have hset : t = u.setStream n ((u.stream n).health 4 (-(u.get F.WARD_HEALTH_DELTA2_bad_item : Int))) :=
        State.health_eq (hreplaying.trans hr) _ _ _
      rw [hset, State.setStream, hstream, hget _ (by decide), hstreams, tabSet_tabSet_same, StreamSt.health_lowered hv (by decide),
        State.badTold, if_neg (by simp [hr])]
  · calc { t with regs := s.regs, streams := s.streams, flt := s.flt }
        = { ({ t with streams := u.streams } : State) with regs := s.regs, streams := s.streams, flt := s.flt } := rfl
      _ = { u with regs := s.regs, streams := s.streams, flt := s.flt } := by rw [ht.frame]
      _ = s := hframe

end

/-! ### The first ready record of a stream (R206, R207, R209, R328) -/

/-- A counting field of 32 bits raised by one where a condition holds. -/
theorem State.countIf_word (s : State) {f : Fld} (hf : f.lo = 0 ∧ f.hi = 31) (c : Prop) [Decidable c] :
    let t := if c then s.count f 1 else s
    t.get f = (s.get f + if c then 1 else 0) % 2 ^ 32 ∧ FieldsBut [f] s t ∧ { t with regs := s.regs } = s := by
  by_cases hc : c
  · simp only [hc, if_true]
    exact ⟨s.get_count_word hf 1, (FieldsBut.refl _ s).count List.mem_cons_self 1, rfl⟩
  · simp only [hc, if_false]
    have hsize : f.size = 2 ^ 32 := by simp [Fld.size, hf]
    have hlt : s.get f < f.size := s.get_lt_size ⟨by omega, by omega⟩
    exact ⟨(Nat.mod_eq_of_lt (hsize ▸ hlt)).symm, FieldsBut.refl _ s, trivial⟩

/-- A stream changed, and an item of the ports ignored where a condition holds (R328). -/
theorem State.setStream_ignored (s : State) (n : Nat) (v : StreamSt) (c : Prop) [Decidable c] :
    let t := if c then (s.setStream n v).count F.JRN_IGNORED_count 1 else s.setStream n v
    t.streams = tabSet s.streams n v ∧ t.get F.JRN_IGNORED_count = (s.get F.JRN_IGNORED_count + if c then 1 else 0) % 2 ^ 32
      ∧ FieldsBut [F.JRN_IGNORED_count] s t ∧ { t with regs := s.regs, streams := s.streams } = s := by
  intro t
  obtain ⟨hget, hfields, hframe⟩ := (s.setStream n v).countIf_word (f := F.JRN_IGNORED_count) (by decide) c
  have hsame : ∀ g, (s.setStream n v).get g = s.get g := fun g => State.get_of_regs rfl rfl g
  refine ⟨(congrArg State.streams hframe :), by rw [hget, hsame], fun g hg => (hfields g hg).trans (hsame g), ?_⟩
  exact congrArg (fun u : State => { u with streams := s.streams }) hframe

section
variable {s : State} {n : Nat} {x : IngRec} {rest : List IngRec} (hv : (s.stream n).ready = x :: rest)
include hv

theorem State.popReady_eq : s.popReady n = s.setStream n { s.stream n with ready := rest } := by
  rw [State.popReady, State.modStream, hv]
  rfl

theorem State.ignoreFront_eq : s.ignoreFront n =
    let v := { s.stream n with
      ready := rest
      held := (s.stream n).held.filter fun h => decide (h ≠ (none, x.off, x.len)) }
    if x.kind = 0 then (s.setStream n v).count F.JRN_IGNORED_count 1 else s.setStream n v := by
  rw [State.ignoreFront]
  simp only [hv]
  rw [State.popReady_eq hv, State.modStream_setStream]

theorem State.front_eq (hroom : (s.queue n).hasRoom = true) (hx : x.xs = false) : s.front n = some x := by
  rw [State.front]
  simp only [hv]
  exact if_pos ⟨hroom, by simp [hx]⟩

end

section
variable {n : Fin 128} {s : State} {x : IngRec}

theorem exec_replayed {c : Instr} (hc : c = .itemCommit n ∨ c = .dropRecord n) (h : s.replaying = true) :
    exec c s = .next (s.ignoreFront n) := by
  rcases hc with rfl | rfl <;> exact congrArg Host.Outcome.next (if_pos h)

/-- A stream's first record, of a health change, committed with the timestamp that tells its length. -/
theorem exec_itemCommit_health (h : s.replaying = false) (hf : s.front n = some x) (hk : x.kind = 1) :
    exec (.itemCommit n) s = .next ((s.popReady n).commitRecord n { x with ts := openStamp n x }) := by
  refine congrArg Host.Outcome.next ((if_neg (by simp [h])).trans ?_)
  simp only [hf, hk]
  rfl

/-- A stream's first record, of an item, committed and counted, and the score changed by it. -/
theorem exec_itemCommit_item (h : s.replaying = false) (hf : s.front n = some x) (hk : x.kind = 0) :
    exec (.itemCommit n) s = .next (
      let c := ((s.popReady n).commitRecord n x).itemCounts n x
      if x.flags % 16 = 0 then c.health n 7 (s.get F.WARD_HEALTH_DELTA2_good_item) else c.healthBad n) := by
  refine congrArg Host.Outcome.next ((if_neg (by simp [h])).trans ?_)
  simp only [hf, hk]
  exact ite_not _ _ _

/-- A stream's first record, of drops, committed once the ring has room. -/
theorem exec_dropRecord_drops (h : s.replaying = false) (hf : s.front n = some x) (hk : x.kind = 2)
    (hring : (s.ringPlace n 1).isSome = true) :
    exec (.dropRecord n) s = .next ((s.popReady n).commitRecord n { x with ts := openStamp n x }) := by
  refine congrArg Host.Outcome.next ((if_neg (by simp [h])).trans ?_)
  simp only [hf]
  exact if_neg (not_or_intro (not_not_intro hk) (by simpa [Option.isSome_iff_ne_none] using hring))

end

/-- Two counting fields of 32 bits, each raised by one where its condition holds. -/
theorem State.countIf_words (s : State) {f g : Fld} (hf : f.lo = 0 ∧ f.hi = 31) (hg : g.lo = 0 ∧ g.hi = 31) (hfg : f.apart g)
    (hgf : g.apart f) (c d : Prop) [Decidable c] [Decidable d] :
    let u := if c then s.count f 1 else s
    let t := if d then u.count g 1 else u
    t.get f = (s.get f + if c then 1 else 0) % 2 ^ 32 ∧ t.get g = (s.get g + if d then 1 else 0) % 2 ^ 32
      ∧ FieldsBut [f, g] s t ∧ { t with regs := s.regs } = s := by
  intro u t
  obtain ⟨hcount, hu, hframe⟩ := s.countIf_word hf c
  obtain ⟨hcount', ht, hframe'⟩ := u.countIf_word hg d
  refine ⟨(ht f ?_).trans hcount, hcount'.trans ?_, (hu.mono (by simp)).trans (ht.mono (by simp)), ?_⟩
  · simpa using hgf
  · rw [hu g (by simpa using hfg)]
  · calc { t with regs := s.regs }
        = { ({ t with regs := u.regs } : State) with regs := s.regs } := rfl
      _ = { u with regs := s.regs } := by rw [hframe']
      _ = s := hframe

/-- The counters of an item committed (R206, R211, R213). -/
theorem State.itemCounts_spec (s : State) (n : Nat) (x : IngRec) :
    let t := s.itemCounts n x
    let count := if n < 96 then [F.CSI_FRAMES_count (n / 4)] else if n < 112 then [F.ETH_RX_FRAMES_count ((n - 96) / 4)] else []
    t.get F.ING_TS_INVALID_count = (s.get F.ING_TS_INVALID_count + if x.flags.testBit 0 then 1 else 0) % 2 ^ 32
      ∧ (∀ f ∈ count, t.get f = (s.get f + if n < 96 ∧ x.last = false then 0 else 1) % 2 ^ 32)
      ∧ FieldsBut (F.ING_TS_INVALID_count :: count) s t ∧ { t with regs := s.regs } = s := by
  have hpages (f : Fld) (h : f.page ≠ 11) (hoff : f.off < 0x800) :
      F.ING_TS_INVALID_count.apart f ∧ f.apart F.ING_TS_INVALID_count :=
    ⟨Fld.apart_key (by simp only [regKey]; omega), Fld.apart_key (by simp only [regKey]; omega)⟩
  by_cases hcam : n < 96
  · obtain ⟨h1, h2⟩ := hpages (F.CSI_FRAMES_count (n / 4)) (by simp only; omega) (by simp)
    obtain ⟨hts, hcount, hfields, hframe⟩ :=
      s.countIf_words (by decide) (by simp) h1 h2 (x.flags.testBit 0 = true) (x.last = true)
    simp only [State.itemCounts, hcam, if_true, true_and, List.forall_mem_singleton]
    refine ⟨hts, hcount.trans ?_, hfields, hframe⟩
    cases x.last <;> rfl
  · by_cases heth : n < 112
    · obtain ⟨h1, h2⟩ := hpages (F.ETH_RX_FRAMES_count ((n - 96) / 4)) (by simp only; omega) (by simp)
      obtain ⟨hts, hcount, hfields, hframe⟩ := s.countIf_words (by decide) (by simp) h1 h2 (x.flags.testBit 0 = true) True
      simp only [State.itemCounts, hcam, heth, if_true, if_false, false_and, List.forall_mem_singleton]
      exact ⟨hts, hcount, hfields, hframe⟩
    · obtain ⟨hts, hfields, hframe⟩ := s.countIf_word (f := F.ING_TS_INVALID_count) (by decide) (x.flags.testBit 0 = true)
      simp only [State.itemCounts, hcam, heth, if_false]
      exact ⟨hts, by simp, hfields, hframe⟩

/-! ### Items that return from the XS die (R217, R25, R30, R31, R33, R328) -/

/-- The stream with the item's place in its ring. -/
def State.itemPlaced (s : State) (n o len : Nat) : State :=
  s.setStream n { s.stream n with
    wr := o + len
    held := s.heldNow n ++ [(none, o, len)] }

section
variable {n : Fin 128} {item : XsItem} {s : State} {x : IngRec} (hx : (s.stream n).ready.find? (·.xs) = some x) (hd : s.dikeState = 3)
include hx hd

theorem exec_xsItemReturn_replayed (h : s.replaying = true) : exec (.xsItemReturn n item) s
    = .next ((s.setStream n { s.stream n with ready := (s.stream n).ready.erase x }).count F.JRN_IGNORED_count 1) := by
  change execXsItemReturn n item s = _
  simp only [execXsItemReturn, hx, hd, h, ne_eq, not_true, if_false, if_true]
  rfl

theorem exec_xsItemReturn_full (h : s.replaying = false) (hp : s.ringPlace n item.data.length = none) :
    exec (.xsItemReturn n item) s = .next (s.dropNumbered n x) := by
  change execXsItemReturn n item s = _
  simp only [execXsItemReturn, hx, hd, h, State.placeData_eq_none hp, ne_eq, not_true, if_false, Bool.false_eq_true]

section
variable {o : Nat} (h : s.replaying = false) (hp : s.ringPlace n item.data.length = some o)
include h hp

theorem exec_xsItemReturn_many (hc : item.code = .many) :
    exec (.xsItemReturn n item) s = .next (s.dikeFault 5 0 ((s.stream n).ring + o)) := by
  change execXsItemReturn n item s = _
  simp only [execXsItemReturn, hx, hd, h, State.placeData_eq_some hp, hc, ne_eq, not_true, if_false, Bool.false_eq_true, if_true]

variable (hc : item.code ≠ .many)
include hc

theorem exec_xsItemReturn_violation {c : Nat × Nat} (hw : s.xsViolation ((s.stream n).ring + o) item.data.length = some c) :
    exec (.xsItemReturn n item) s = .next (s.dikeFault c.1 c.2 ((s.stream n).ring + o)) := by
  change execXsItemReturn n item s = _
  simp only [execXsItemReturn, hx, hd, h, State.placeData_eq_some hp, hc, hw, ne_eq, not_true, if_false, Bool.false_eq_true]

variable (hw : s.xsViolation ((s.stream n).ring + o) item.data.length = none)
include hw

theorem exec_xsItemReturn_stalled (ht : (s.itemPlaced n o item.data.length).xsTake ((s.stream n).ring + o) item.data.length = none) :
    exec (.xsItemReturn n item) s = .next (s.count F.DIKE_STALL_COUNT_stalls ((item.data.length + 31) / 32)) := by
  change execXsItemReturn n item s = _
  rw [State.itemPlaced] at ht
  simp only [execXsItemReturn, hx, hd, h, State.placeData_eq_some hp, hc, hw, ht, ne_eq, not_true, if_false, Bool.false_eq_true]

theorem exec_xsItemReturn_taken {u : State}
    (ht : (s.itemPlaced n o item.data.length).xsTake ((s.stream n).ring + o) item.data.length = some u) :
    exec (.xsItemReturn n item) s = .next (u.modStream n fun v => { v with
      ready := v.ready.map fun y =>
        if y = x then { x with xs := false, off := o, len := item.data.length, data := item.data } else y }) := by
  change execXsItemReturn n item s = _
  rw [State.itemPlaced] at ht
  simp only [execXsItemReturn, hx, hd, h, State.placeData_eq_some hp, hc, hw, ht, ne_eq, not_true, if_false, Bool.false_eq_true]

end

end

/-- Settles O28: clause by clause, from the lemmas on streams, their health and drops, their records and their items from the XS die. -/
theorem ingressStreams : Obligations.IngressStreams := by
  refine ⟨fun n acc s s2 w => ⟨fun h => ⟨?_, ?_⟩, fun h => ⟨fun hw => ?_, fun hw => ?_⟩⟩, fun n s => ?_⟩
  · exact congrArg Host.Outcome.next (State.command_of_written h _)
  · exact congrArg Host.Outcome.next (State.command_of_written h _)
  · exact congrArg Host.Outcome.next ((State.command_of_written h _).trans (if_pos hw))
  · exact congrArg Host.Outcome.next ((State.command_of_written h _).trans (if_neg (Bool.eq_false_iff.1 hw)))
  intro k v en table desc r bad
  have hn : k < 128 := n.isLt
  refine ⟨fun hp hok => ?_, fun hp hno => ?_, fun hon hready hframe => ?_, State.streamStop_off, fun hv => ?_, fun x _ hv => ?_,
    fun x hf => State.commitRecord_eq s hn x hf, fun x rest hv => ⟨fun hr c hc => ?_, fun hr hroom hx => ⟨fun hk => ?_, fun hk => ?_,
      fun hk hring => ?_⟩⟩, State.itemCounts_spec s k, fun cause d hr => ?_, fun hon hd hr hv => ?_, fun x item hx hd => ?_⟩
  · intro t
    have ht : t = (r.putStreamOn k true).setStream k (s.enabledStream k desc) := State.streamEnable_sound rfl hp hok
    have hread : ReadOnly s r := s.mcTouches_readOnly table 64
    have hget : (r.putStreamOn k true).get en = s.get en ||| 2 ^ (k % 32) := by
      rw [State.get_putStreamOn_true, hread.get_streamEn hn]
    have hstreams : r.streams = s.streams := (congrArg State.streams hread.frame :)
    have hfields : FieldsBut [en] r (r.putStreamOn k true) := (FieldsBut.refl _ r).put List.mem_cons_self _
    rw [ht]
    refine ⟨(State.get_of_regs rfl rfl en).trans hget, hfields.of_regs rfl rfl, ?_, ?_⟩
    · rw [← hstreams]
      rfl
    · rw [← hstreams]
      rfl
  · have ht : s.streamEnable k = ((r.put F.ING_STATUS_cfg_err 1).put F.ING_STATUS_cfg_stream k).raise pgING Ev.ING_cfg_err :=
      State.streamEnable_unsound rfl hp hno
    rw [ht]
    exact r.cfgErr_shown hn
  · rw [State.streamStop_idle hon hready hframe]
    have hfields : FieldsBut [en] s (s.putStreamOn k false) := (FieldsBut.refl _ s).put List.mem_cons_self _
    exact ⟨(State.get_of_regs rfl rfl en).trans (State.get_putStreamOn_false hon), hfields.of_regs rfl rfl, rfl, rfl⟩
  · exact s.drop_told k hv
  · exact s.drop_told k hv
  · refine ⟨_, exec_replayed hc hr, ?_⟩
    rw [State.ignoreFront_eq hv]
    exact s.setStream_ignored k _ _
  · rw [exec_itemCommit_health hr (State.front_eq hv hroom hx) hk, State.popReady_eq hv]
    rfl
  · rw [exec_itemCommit_item hr (State.front_eq hv hroom hx) hk, State.popReady_eq hv]
    rfl
  · rw [exec_dropRecord_drops hr (State.front_eq hv hroom hx) hk hring, State.popReady_eq hv]
    rfl
  · exact State.health_eq hr k cause d
  · have hexec : exec (.stale n) s = .next ((s.health k 3 (-(s.get F.WARD_HEALTH_DELTA_stale : Int))).raise pgING Ev.ING_stale) :=
      congrArg Host.Outcome.next (if_pos ⟨hon, hd, by simp [hr]⟩)
    rw [State.health_eq hr, StreamSt.health_lowered hv (by decide)] at hexec
    exact ⟨_, hexec, s.setStream_raise k _ pgING (by decide)⟩
  · intro len
    refine ⟨fun hr => ⟨_, exec_xsItemReturn_replayed hx hd hr, ?_⟩, exec_xsItemReturn_full hx hd, fun o hr hp => ?_⟩
    · have h := s.setStream_ignored k { v with ready := v.ready.erase x } True
      simpa only [if_true] using h
    · intro a placed
      refine ⟨exec_xsItemReturn_many hx hd hr hp, fun c hc hw => exec_xsItemReturn_violation hx hd hr hp hc hw, fun hc hw ht => ?_,
        fun u hc hw ht => exec_xsItemReturn_taken hx hd hr hp hc hw ht⟩
      exact ⟨_, exec_xsItemReturn_stalled hx hd hr hp hc hw ht, s.get_count_word (by decide) _,
        (FieldsBut.refl _ s).count List.mem_cons_self _, rfl⟩

end Sys2Proof.Machine
end

section
/-! SUPPORT. Accesses of main memory at its controllers, reads and writes alike, and what decides whether a range is plain memory
(R139, R370, R373 to R379, R397). -/

namespace Sys2Proof.Machine

/-! ### No injection is armed (R397) -/

/-- No injection is armed at any controller. -/
def State.uninjected (s : State) : Bool := s.mcs.all fun m => m.2.inject.isEmpty

theorem all_tabSet {α : Type} {p : Nat × α → Bool} {k : Nat} {v : α} (hv : p (k, v) = true) :
    ∀ {t : Tab α}, t.all p = true → (tabSet t k v).all p = true
  | [], _ => by simpa [tabSet] using hv
  | (a, w) :: t, ht => by
    obtain ⟨hw, hrest⟩ : p (a, w) = true ∧ t.all p = true := by simpa [List.all_cons] using ht
    unfold tabSet
    split
    · rw [List.all_cons, hv, ht, Bool.and_self]
    · split
      · rw [List.all_cons, hv, hrest, Bool.and_self]
      · rw [List.all_cons, hw, all_tabSet hv hrest, Bool.and_self]

/-- What holds of every entry of a table holds of the one found. -/
theorem of_tabFind {α : Type} {p : Nat × α → Bool} {k : Nat} {v : α} :
    ∀ {t : Tab α}, t.all p = true → tabFind t k = some v → p (k, v) = true
  | (a, w) :: t, ht, hf => by
    obtain ⟨hw, hrest⟩ : p (a, w) = true ∧ t.all p = true := by simpa [List.all_cons] using ht
    unfold tabFind at hf
    split at hf
    next h =>
      cases hf
      exact h ▸ hw
    next => exact of_tabFind hrest hf

theorem State.mc_inject {s : State} (h : s.uninjected = true) (k : Nat) : (s.mc k).inject = [] := by
  unfold State.mc tabGet
  split
  next hf => exact List.isEmpty_iff.1 (of_tabFind (p := fun m : Nat × McSt => m.2.inject.isEmpty) h hf)
  next => rfl

@[simp] theorem McSt.setWq_inject (m : McSt) (ch : Nat) (q : List Nat) : (m.setWq ch q).inject = m.inject := by
  unfold McSt.setWq
  split <;> rfl

@[simp] theorem McSt.issueOne_inject (m : McSt) (ch : Nat) : (m.issueOne ch).inject = m.inject := by
  unfold McSt.issueOne
  split
  · rfl
  · split <;> exact m.setWq_inject ch _

@[simp] theorem McSt.issueTo_inject (ch n : Nat) : ∀ (fuel : Nat) (m : McSt), (m.issueTo ch n fuel).inject = m.inject
  | 0, _ => rfl
  | fuel + 1, m => by
    unfold McSt.issueTo
    split
    · exact (McSt.issueTo_inject ch n fuel _).trans (m.issueOne_inject ch)
    · rfl

/-! ### Addresses in registers -/

/-- An address reads by the two registers that hold it. -/
theorem State.addr_of_get {s t : State} {lo : Fld}
    (h : ∀ o, o = lo.off ∨ o = lo.off + 4 → t.get (wholeReg lo.page o) = s.get (wholeReg lo.page o)) :
    t.addr lo = s.addr lo := by
  simp only [State.addr, ← State.get_wholeReg, h _ (.inl rfl), h _ (.inr rfl)]

/-! ### An access at the controllers (R374 to R379) -/

/-- Does the register behind a field show what accesses do at a controller: its write queues, the reads forwarded, the misses of its
check-bit cache? -/
def Fld.showsAccess (g : Fld) : Prop := 64 ≤ regKey g.page g.off / 512 ∧ regKey g.page g.off % 512 ∈ [10, 18, 19]

/-- From `s` to `t` main memory was accessed: nothing changed but the controllers and the registers that show it; no injection came. -/
structure Accessed (s t : State) : Prop where
  get : ∀ g : Fld, ¬g.showsAccess → t.get g = s.get g
  uninjected : s.uninjected = true → t.uninjected = true
  frame : { t with regs := s.regs, mcs := s.mcs } = s

theorem Accessed.refl (s : State) : Accessed s s := ⟨fun _ _ => rfl, id, rfl⟩

theorem Accessed.trans {s t u : State} (h : Accessed s t) (k : Accessed t u) : Accessed s u := by
  refine ⟨fun g hg => (k.get g hg).trans (h.get g hg), k.uninjected ∘ h.uninjected, ?_⟩
  calc { u with regs := s.regs, mcs := s.mcs }
      = { ({ u with regs := t.regs, mcs := t.mcs } : State) with regs := s.regs, mcs := s.mcs } := rfl
    _ = { t with regs := s.regs, mcs := s.mcs } := by rw [k.frame]
    _ = s := h.frame

theorem Accessed.foldl {ι : Type} (op : State → ι → State) (hop : ∀ u i, Accessed u (op u i)) (l : List ι) (s : State) :
    Accessed s (l.foldl op s) :=
  List.foldlRecOn l op (Accessed.refl s) fun u hu i _ => hu.trans (hop u i)

theorem Accessed.put {s t : State} (h : Accessed s t) {f : Fld} (hp : 64 ≤ f.page) (hf : f.off ∈ [0x28, 0x48, 0x4C]) (v : Nat) :
    Accessed s (t.put f v) := by
  refine h.trans ⟨fun g hg => t.get_put_apart (Fld.apart_key fun hkey => hg ?_) v, id, rfl⟩
  rw [Fld.showsAccess, ← hkey, regKey]
  simp only [List.mem_cons, List.not_mem_nil, or_false] at hf ⊢
  omega

theorem Accessed.setMc {s t : State} (h : Accessed s t) {k : Nat} {m : McSt} (hm : m.inject = (t.mc k).inject) : Accessed s (t.setMc k m) :=
  h.trans ⟨fun _ _ => State.get_of_regs rfl rfl _,
    fun ht => all_tabSet (List.isEmpty_iff.2 (hm.trans (State.mc_inject ht k))) ht, rfl⟩

theorem State.wqShow_accessed (s : State) (k : Nat) : Accessed s (s.wqShow k) := by
  unfold State.wqShow State.putMax
  extract_lets n
  have h : Accessed s (s.put (F.MC_WQ_entries k) n) := (Accessed.refl s).put (by simp) (by simp) n
  split
  · exact h.put (by simp) (by simp) _
  · exact h

theorem State.ccAccess_accessed (s : State) (k ch x : Nat) (write : Bool) : Accessed s (s.ccAccess k ch x write) := by
  unfold State.ccAccess
  extract_lets line m set
  split
  · exact (Accessed.refl s).setMc rfl
  · exact ((Accessed.refl s).setMc (by rfl)).put (f := F.MC_CC_MISS_count k) (by simp) (by simp) _

theorem State.mc_setMc_wqShow (s : State) (k : Nat) (m : McSt) : ((s.setMc k m).wqShow k).mc k = m := by
  unfold State.wqShow State.putMax
  extract_lets n
  split <;> exact tabGet_tabSet_same _ _ _ _

theorem State.wqAccept_accessed (s : State) (k ch w : Nat) : Accessed s (s.wqAccept k ch w) := by
  unfold State.wqAccept
  extract_lets m m1 m2
  have hm1 : m1.inject = m.inject := by
    unfold m1
    split
    · rfl
    · exact McSt.issueTo_inject _ _ _ _
  have hm2 : m2.inject = m.inject := (McSt.setWq_inject _ _ _).trans hm1
  have h : Accessed s ((s.setMc k m2).wqShow k) := ((Accessed.refl s).setMc hm2).trans (State.wqShow_accessed _ k)
  split
  · exact Accessed.refl s
  · split
    · refine ((h.setMc ?_).put (by simp) (by simp) _).trans (State.wqShow_accessed _ k)
      rw [McSt.issueTo_inject, State.mc_setMc_wqShow]
    · exact h

theorem State.mcTouch_accessed (s : State) (write : Bool) (w : Nat) : Accessed s (s.mcTouch write w) := by
  unfold State.mcTouch
  extract_lets cx k ch
  split
  · split
    · exact (s.ccAccess_accessed k ch _ _).trans (State.wqAccept_accessed _ k ch _)
    · refine Accessed.trans ?_ (State.ccAccess_accessed _ k ch _ _)
      split
      · exact (Accessed.refl s).put (by simp) (by simp) _
      · exact Accessed.refl s
  · exact Accessed.refl s

theorem State.mcTouches_accessed (s : State) (write : Bool) (a n : Nat) : Accessed s (s.mcTouches write a n) :=
  Accessed.foldl _ (fun u w => u.mcTouch_accessed write w) _ s

/-! ### Plain memory (R139, R370) -/

/-- The address map is the same in `t` as in `s`, and memory is as sound. -/
structure SameMap (s t : State) : Prop where
  reserve : t.get F.MEMG_SPARE_reserve = s.get F.MEMG_SPARE_reserve
  cdState : ∀ n, t.cdState n = s.cdState n
  spilled : t.spilled = s.spilled
  cond : t.cond = s.cond
  uninjected : s.uninjected = true → t.uninjected = true

theorem SameMap.trans {s t u : State} (h : SameMap s t) (k : SameMap t u) : SameMap s u :=
  ⟨k.reserve.trans h.reserve, fun n => (k.cdState n).trans (h.cdState n), k.spilled.trans h.spilled, k.cond.trans h.cond,
    k.uninjected ∘ h.uninjected⟩

theorem Accessed.sameMap {s t : State} (h : Accessed s t) : SameMap s t where
  reserve := h.get _ (by simp [Fld.showsAccess, regKey])
  cdState n := h.get _ (by simp only [Fld.showsAccess, regKey, List.mem_cons, List.not_mem_nil, or_false]; omega)
  spilled := (congrArg State.spilled h.frame :)
  cond := (congrArg State.cond h.frame :)
  uninjected := h.uninjected

theorem State.modJob_sameMap (s : State) (q i : Nat) (f : Job → Job) : SameMap s (s.modJob q i f) := ⟨rfl, fun _ => rfl, rfl, rfl, id⟩

namespace SameMap
variable {s t : State} (h : SameMap s t)
include h

theorem region (a : Nat) : t.region a = s.region a := by
  have hflag : t.flag F.MEMG_SPARE_reserve = s.flag F.MEMG_SPARE_reserve := congrArg (· != 0) h.reserve
  simp only [State.region, hflag]

theorem storeAt (a : Nat) : t.storeAt a = s.storeAt a := by
  unfold State.storeAt
  simp only [h.region, h.cdState, h.spilled]

theorem oneRegion (a n : Nat) : t.oneRegion a n = s.oneRegion a n := by
  unfold State.oneRegion
  simp only [h.region]

theorem inMemory (a n : Nat) : t.inMemory a n = s.inMemory a n := by
  unfold State.inMemory
  simp only [h.oneRegion, h.region]

theorem plainMem {a n : Nat} (hp : s.plainMem a n = true) : t.plainMem a n = true := by
  simp only [State.plainMem, State.plainAt, Bool.and_eq_true] at hp ⊢
  obtain ⟨⟨⟨⟨hstore, hspilled⟩, hone⟩, hcond⟩, hinject⟩ := hp
  rw [h.storeAt, h.oneRegion, h.spilled, h.cond]
  exact ⟨⟨⟨⟨hstore, hspilled⟩, hone⟩, hcond⟩, h.uninjected hinject⟩

end SameMap

theorem State.within_of_oneRegion {s : State} {a n : Nat} (h : s.oneRegion a n = true) : s.within a n := by
  simp only [State.oneRegion, Bool.or_eq_true, Bool.and_eq_true, beq_iff_eq] at h
  exact h.imp id fun h => h.1.symm

section
variable {s : State} {a n : Nat} (h : s.plainMem a n = true)
include h

theorem State.plain_of_plainMem : s.Plain a := by
  simp only [State.plainMem, Bool.and_eq_true, List.isEmpty_iff] at h
  exact State.plain_of_plainAt h.1.2 h.1.1.1

theorem State.uninjected_of_plainMem : s.uninjected = true := (Bool.and_eq_true_iff.1 h).2

theorem State.poisonedAt_of_plainMem : s.poisonedAt a n = false := by
  have hone : s.oneRegion a n = true := by
    simp only [State.plainMem, Bool.and_eq_true] at h
    exact h.1.1.2
  exact (State.plain_of_plainMem h).poisonedAt (State.within_of_oneRegion hone) le_rfl le_rfl

/-- A range of plain memory reads whole and sound. -/
theorem State.load_plainMem : s.load a n = (s.mcTouches false a n, s.bytes a n, false) := by
  rw [State.load_plain (State.plain_of_plainMem h), State.poisonedAt_of_plainMem h]

end

/-! ### A device write of plain memory (R370, R375, R578) -/

theorem condWrite_nil (a n : Nat) : condWrite [] a n false = [] := by
  refine List.foldlRecOn (motive := (· = [])) (wordsOf a n) _ rfl fun t ht w _ => ?_
  have hmerge : mergeCond none w a n false = none := by simp [mergeCond]
  rw [ht, tabFind_nil, hmerge]
  rfl

theorem State.applyInject_of_uninjected {s : State} (h : s.uninjected = true) (w : Nat) : s.applyInject w = s := by
  unfold State.applyInject
  extract_lets cx k key
  split
  · rw [State.mc_inject h, tabFind_nil]
  · rfl

theorem State.applyInjects_of_uninjected {s : State} (h : s.uninjected = true) (l : List Nat) : l.foldl State.applyInject s = s :=
  List.foldlRecOn (motive := (· = s)) l _ rfl fun _ ht w _ => by rw [ht, State.applyInject_of_uninjected h]

/-- A device write of plain memory that no engine watches writes its bytes. -/
theorem State.store_plain {s : State} {a : Nat} {bs : List Byte} (h : s.plainStore a bs.length = true) : s.store a bs = s.wrote a bs := by
  simp only [State.plainStore, Bool.and_eq_true, Bool.or_eq_true, Bool.not_eq_true', decide_eq_true_eq] at h
  obtain ⟨⟨hmem, hcoll⟩, hxgs⟩ := h
  have hplain := State.plain_of_plainMem hmem
  have htouch := s.mcTouches_accessed true a bs.length
  have hcond : (s.mcTouches true a bs.length).cond = [] := htouch.sameMap.cond.trans hplain.cond
  have hplace : (s.mcTouches true a bs.length).place a = a := by
    simp only [State.place, htouch.sameMap.spilled, hplain.spilled, if_true]
  have hraw : s.storeBy none a bs false = s.wrote a bs := by
    unfold State.storeBy
    extract_lets b
    rw [if_neg (by simp [hcoll]), State.storeRaw, if_pos hplain.store, State.logReads_of_clean hcond, State.poke, hplace, hcond, condWrite_nil,
      State.wrote, ← hcond, (congrArg State.mem htouch.frame :)]
  have hinject : (s.wrote a bs).uninjected = true := htouch.uninjected (State.uninjected_of_plainMem hmem)
  have hflag : (s.wrote a bs).flag F.XGS_CTRL_enable = s.flag F.XGS_CTRL_enable :=
    congrArg (· != 0) (htouch.get F.XGS_CTRL_enable (by simp [Fld.showsAccess, regKey]))
  have hbase : (s.wrote a bs).addr F.XGS_COLL_BASE_LO_base = s.addr F.XGS_COLL_BASE_LO_base :=
    State.addr_of_get fun o ho => htouch.get _ (by rcases ho with rfl | rfl <;> simp [Fld.showsAccess, regKey, wholeReg])
  rw [State.store, hraw, State.applyInjects_of_uninjected hinject]
  refine if_neg fun ⟨hon, hlo, hhi⟩ => ?_
  rw [hbase] at hlo hhi
  rcases hxgs with hoff | hapart
  · exact Bool.false_ne_true (hoff.symm.trans (hflag.symm.trans hon))
  · omega

end Sys2Proof.Machine
end

section
/-! SUPPORT. A pose record longer than its place in the ring (R236), met by the collective slots behind it (R420). -/

namespace Sys2Proof.Machine

/-! ### A pose of nine coordinates (O31) -/

/-- The ego-motion engine at pose 63 of its ring in hub SRAM, with the collective slots right behind the place of its record. The list of
coordinates that it holds has nine entries, where a pose has three. -/
def ninePose : State :=
  { (((State.reset.put F.EGO_RING_BASE_HI_base 0xFF20).put F.EGO_POSE_COUNT_count 63).put F.XGS_CTRL_enable 1).putAddr
      F.XGS_COLL_BASE_LO_base (hubBase + 8192) with
    ego := { pose := { p := List.replicate 9 0 } } }

/-- The place of the record is plain memory apart from the slots. -/
theorem ninePose_plain : ninePose.plainStore (ninePose.poseAddr (ninePose.get F.EGO_POSE_COUNT_count)) 128 = true := by decide +kernel

/-- The record has 176 bytes. The low byte of its fence position, which is odd, comes to stand as the control word of slot 0, so the slot
waits to start. -/
theorem ninePose_go : ninePose.xgs.go = [] ∧ (ninePose.writePose false 0 1 {}).xgs.go = [0] := by decide +kernel

theorem State.wrote_xgs (s : State) (a : Nat) (bs : List Byte) : (s.wrote a bs).xgs = s.xgs :=
  (congrArg State.xgs (s.mcTouches_accessed true a bs.length).frame :)

/-- What O31 would make of a pose record: the collective slots stay. -/
theorem State.writePose_xgs_of_egoPoses (h : Obligations.EgoPoses) {s : State}
    (hp : s.plainStore (s.poseAddr (s.get F.EGO_POSE_COUNT_count)) 128 = true)
    (gap : Bool) (ts pos : Nat) (w : V3) : (s.writePose gap ts pos w).xgs = s.xgs := by
  obtain ⟨-, -, hrecord, -⟩ := h
  obtain ⟨-, -, -, hframe⟩ := hrecord gap ts pos w s hp
  exact (congrArg State.xgs hframe :).trans (State.wrote_xgs _ _ _)

/-- Refutes O31: the clause of the pose record takes 128 bytes at its address for plain, of every state, and says that the record changes
memory, the count and the engine alone. Nothing in a state bounds the coordinates that a pose lists, so the record may be longer than its place
and start a collective slot behind it. (The clause lacks `s.ego.pose.p.length = 3` among its premises.) -/
theorem not_egoPoses : ¬ Obligations.EgoPoses := by
  intro h
  obtain ⟨hbefore, hafter⟩ := ninePose_go
  rw [State.writePose_xgs_of_egoPoses h ninePose_plain, hbefore] at hafter
  exact absurd hafter (by decide)

end Sys2Proof.Machine
end

section
/-! SUPPORT. The header of a fusion result (R265) written over memory whose cells are not in canonical form. -/

namespace Sys2Proof.Machine

/-! ### A byte listed twice (O33) -/

/-- Instant 0, its R fixed, its result header at `hubBase + 0x1000`. -/
def instantZero : Instant := ⟨0, 0, 0, 0, 0, hubBase + 0x1000, 0, 0, 0, [], some 0⟩

/-- The fusion engine with that instant pending and a grid of no cells, one pose in the ring, and memory that lists the first byte of the
header twice. -/
def listedTwice : State :=
  { (((((State.reset.put F.FUS_GRID_CFG_width 0).put F.FUS_GRID_CFG_height 0).put F.EGO_RING_BASE_HI_base 0xFF20).put F.EGO_STATUS_state
      2).put F.EGO_POSE_COUNT_count 1).putAddr F.FUS_STATE_BASE_LO_base hubBase with
    mem := [(hubBase + 0x1000, 1#8), (hubBase + 0x1000, 1#8)]
    fus := { pending := [instantZero] } }

theorem listedTwice_plain : listedTwice.plainStore listedTwice.fusStateBase (4 * listedTwice.fusW * listedTwice.fusH) = true
    ∧ listedTwice.plainStore instantZero.header 128 = true
    ∧ listedTwice.fusStateBase + 4 * listedTwice.fusW * listedTwice.fusH ≤ instantZero.header := by decide +kernel

theorem listedTwice_quiet : (listedTwice.queue 0x101).hasRoom = false ∧ listedTwice.get F.XGS_CTRL_enable = 0 := by decide +kernel

/-- The number 0 written there takes one of the two cells out, and the other one shows. -/
theorem listedTwice_header : (listedTwice.fusProcess instantZero 0 []).peekNat instantZero.header 4 = 1 := by decide +kernel

/-- Refutes O33: the clause of a processed instant says, of every state, that the header reads back. Of memory that lists a byte twice a
byte 0 written takes out one cell only, so the instant's number does not stand there. (The clause lacks `memWf s.mem = true` among its
premises; O59 says that every step keeps it.) -/
theorem not_fusion : ¬ Obligations.Fusion := by
  rintro ⟨-, -, -, -, -, -, -, hprocess⟩
  obtain ⟨-, -, -, -, hresult⟩ := hprocess listedTwice instantZero 0 [] rfl rfl
  obtain ⟨hgrid, hheader, hapart⟩ := listedTwice_plain
  obtain ⟨hroom, hxgs⟩ := listedTwice_quiet
  obtain ⟨-, -, -, -, -, -, -, hnumber, -⟩ :=
    hresult [] (.inl rfl) (by decide) (by decide) hgrid rfl hheader rfl hroom hxgs (.inr hapart)
  exact absurd (listedTwice_header.symm.trans hnumber) (by decide)

end Sys2Proof.Machine
end

section
/-! SUPPORT. Command lists of the hub engines (R184, R241, R356, R361): the command that is due, and what a command done or failed leaves. -/

namespace Sys2Proof.Machine

/-! ### The command that is due (R241, R356) -/

section
variable {s : State} {id : JobId} {cls op : Nat} {j : Job} {b : List Byte} (h : s.commandAt id cls op = some (j, b))
include h

theorem State.commandAt_inv : s.jobOf id = some j ∧ (j.cls = cls ∧ j.stage = .placed ∧ j.busy = false ∧ j.cmd < j.listCount)
    ∧ (s.Plain (j.program + 32 + listBytes cls * j.cmd) ∧ s.oneRegion (j.program + 32 + listBytes cls * j.cmd) (listBytes cls) = true)
    ∧ s.bytes (j.program + 32 + listBytes cls * j.cmd) (listBytes cls) = b ∧ fieldAt b 0 1 = op := by
  unfold State.commandAt at h
  split at h
  next => cases h
  next k hk =>
    obtain ⟨⟨hcls, hstage, hbusy, hcmd, hplain, hone, hcond, hop⟩, hsome⟩ := Option.ite_none_right_eq_some.1 h
    cases hsome
    exact ⟨hk, ⟨hcls, hstage, hbusy, hcmd⟩, ⟨State.plain_of_plainAt hcond hplain, hone⟩, rfl, hop⟩

theorem State.opcode_of_commandAt : fieldAt b 0 1 = op := (State.commandAt_inv h).2.2.2.2

/-- A command that is due and sound is fetched and run. -/
theorem State.listCommand_due {mine : Nat → Bool} (hm : mine op = true) (run : State → Job → List Byte → State) :
    s.listCommand id cls mine run = run (s.fetched j) j b := by
  obtain ⟨hk, ⟨rfl, hstage, hbusy, hcmd⟩, ⟨hp, hone⟩, hb, hop⟩ := State.commandAt_inv h
  have hload : s.commandBytes j = (s.fetched j, b, false) := by
    rw [State.commandBytes, State.load_plain hp, hp.poisonedAt (State.within_of_oneRegion hone) le_rfl le_rfl, hb]
    rfl
  unfold State.listCommand
  simp only [hk, hstage, hbusy, hload, hop, hm, not_le.2 hcmd, ne_eq, not_true, Bool.false_eq_true, or_self, if_false, if_true]

end

/-! ### A job changed in place -/

theorem State.job_of_jobOf {s : State} {id : JobId} {j : Job} (h : s.jobOf id = some j) : s.job j.queue j.index = some j := by
  have his := List.find?_some h
  simp only [Job.is, decide_eq_true_eq] at his
  rw [his.1, his.2]
  exact h

theorem State.clsOf_of_jobOf {s : State} {id : JobId} {j : Job} (h : s.jobOf id = some j) : s.clsOf j.queue j.index = j.cls := by
  rw [State.clsOf, State.job_of_jobOf h]
  rfl

section
variable {g : Job → Job} (hg : ∀ k q i, (g k).is q i = k.is q i)
include hg

/-- A change that keeps a job's name, then another one: both in one. -/
theorem State.modJob_modJob (s : State) (q i : Nat) (f : Job → Job) : (s.modJob q i g).modJob q i f = s.modJob q i fun k => f (g k) := by
  simp only [State.modJob, List.map_map]
  refine congrArg (fun l => { s with jobs := l }) (List.map_congr_left fun k _ => ?_)
  simp only [Function.comp_apply]
  by_cases hk : k.is q i = true
  · simp only [hk, hg, if_true]
  · simp only [hk, if_false, Bool.false_eq_true]

theorem State.job_modJob (s : State) (q i : Nat) : (s.modJob q i g).job q i = (s.job q i).map g := by
  have his : ((fun k : Job => k.is q i) ∘ fun k : Job => if k.is q i then g k else k) = fun k => k.is q i := by
    funext k
    simp only [Function.comp_apply]
    split
    · exact hg k q i
    · rfl
  rw [State.job, State.modJob, List.find?_map, his]
  refine Option.map_congr fun k hk => if_pos ?_
  exact List.find?_some (p := fun k : Job => k.is q i) hk

theorem State.clsOf_modJob (hcls : ∀ k, (g k).cls = k.cls) (s : State) (q i : Nat) : (s.modJob q i g).clsOf q i = s.clsOf q i := by
  rw [State.clsOf, State.job_modJob hg, Option.map_map, (funext hcls : Job.cls ∘ g = Job.cls)]
  rfl

end

theorem Job.hubTile_keeps (j : Job) (d : DWord) :
    (j.hubTile d).queue = j.queue ∧ (j.hubTile d).index = j.index ∧ (j.hubTile d).desc = j.desc ∧ (j.hubTile d).cmd = j.cmd := by
  unfold Job.hubTile
  split <;> exact ⟨rfl, rfl, rfl, rfl⟩

/-! ### A command done (R356, R361) -/

/-- A list job with its current command done: the next is current, or the job has ended. -/
def Job.advanced (j : Job) : Job :=
  let next := { j with cmd := j.cmd + 1, busy := false }
  if next.listCount ≤ next.cmd then { next with stage := .ended } else if j.stopping then next.ended 0x0A 0 else next

theorem State.commandDone_none (s : State) (q i : Nat) : s.commandDone q i none = (s.modJob q i Job.advanced).hubShow (s.clsOf q i) := rfl

/-- The digest of a command's output is a tile of its job (R332). -/
theorem State.commandDone_digest (s : State) (q i : Nat) (d : DWord) :
    s.commandDone q i (some d) = (s.modJob q i fun k => k.hubTile d).commandDone q i none := by
  have his : ∀ (k : Job) q i, (k.hubTile d).is q i = k.is q i := fun k q i => by
    obtain ⟨hq, hi, -, -⟩ := k.hubTile_keeps d
    simp only [Job.is, hq, hi]
  have hcls : ∀ k : Job, (k.hubTile d).cls = k.cls := fun k => by simp only [Job.cls, (k.hubTile_keeps d).2.2.1]
  have hcmd : ∀ k : Job, (k.hubTile d).cmd = k.cmd := fun k => (k.hubTile_keeps d).2.2.2
  rw [State.commandDone_none, State.clsOf_modJob his hcls, State.modJob_modJob his]
  simp only [State.commandDone, Job.advanced, hcmd]

end Sys2Proof.Machine
end

section
/-! SUPPORT. The projection engine (R230, R238 to R247, R269): its enable, the checks and the poses of a command, what its operations
write, what it shows of its jobs. -/

namespace Sys2Proof.Machine

/-! ### PROJ_CTRL (R239, R269) -/

section
variable {acc : Acc} {s s2 : State} {w : Word} (h : s.written pgPROJ 0x020 acc = some (s2, w))
include h

theorem exec_projEnable_again (hw : w.getLsbD 0 = true) (hon : s2.get F.PROJ_CTRL_enable = 1) : exec (.projEnable acc) s = .next s2 :=
  congrArg Host.Outcome.next ((State.command_of_written h _).trans ((if_pos hw).trans (if_pos (State.flag_of_get_one hon))))

section
variable (hw : w.getLsbD 0 = true) (hoff : s2.get F.PROJ_CTRL_enable = 0)
include hw hoff

theorem exec_projEnable_sound (hcal : (List.range 64).find? (fun e => !s2.calOk e) = none) :
    exec (.projEnable acc) s = .next ((s2.put F.PROJ_CTRL_enable 1).put F.PROJ_STATUS_state 1) :=
  congrArg Host.Outcome.next ((State.command_of_written h _).trans ((if_pos hw).trans ((if_neg (by simp [State.flag, hoff])).trans
    (by simp only [hcal]))))

theorem exec_projEnable_refused {e : Nat} (hcal : (List.range 64).find? (fun e => !s2.calOk e) = some e) :
    exec (.projEnable acc) s
      = .next (((s2.put F.PROJ_STATUS_cal_err 1).put F.PROJ_STATUS_cal_entry e).raise pgPROJ Ev.PROJ_cal_err) :=
  congrArg Host.Outcome.next ((State.command_of_written h _).trans ((if_pos hw).trans ((if_neg (by simp [State.flag, hoff])).trans
    (by simp only [hcal]))))

end

theorem exec_projEnable_clear (hw : w.getLsbD 0 = false) :
    exec (.projEnable acc) s = .next ((s2.put F.PROJ_CTRL_enable 0).put F.PROJ_STATUS_state 0) :=
  congrArg Host.Outcome.next ((State.command_of_written h _).trans (if_neg (Bool.eq_false_iff.1 hw)))

end

/-- The enable and the engine's state written. -/
theorem State.projSet_spec (s : State) {on : Nat} (hon : on < 2) :
    let t := (s.put F.PROJ_CTRL_enable on).put F.PROJ_STATUS_state on
    t.get F.PROJ_CTRL_enable = on ∧ t.get F.PROJ_STATUS_state = on ∧ FieldsBut [F.PROJ_CTRL_enable, F.PROJ_STATUS_state] s t
      ∧ { t with regs := s.regs } = s := by
  refine ⟨?_, ?_, ((FieldsBut.refl _ s).put (by simp) on).put (by simp) on, rfl⟩
  · rw [State.get_put_other _ _ (by decide), State.get_put_self _ _ _ (by decide)]
    exact Nat.mod_eq_of_lt hon
  · rw [State.get_put_self _ _ _ (by decide)]
    exact Nat.mod_eq_of_lt (hon.trans (by decide))

/-- A bad calibration entry told (R239). -/
theorem State.projCalErr_spec (s : State) {e : Nat} (he : e < 64) :
    let t := ((s.put F.PROJ_STATUS_cal_err 1).put F.PROJ_STATUS_cal_entry e).raise pgPROJ Ev.PROJ_cal_err
    t.get F.PROJ_STATUS_cal_err = 1 ∧ t.get F.PROJ_STATUS_cal_entry = e ∧ t.eventSet pgPROJ Ev.PROJ_cal_err = true
      ∧ FieldsBut ([F.PROJ_STATUS_cal_err, F.PROJ_STATUS_cal_entry] ++ eventFields pgPROJ Ev.PROJ_cal_err) s t
      ∧ { t with regs := s.regs, flt := s.flt } = s := by
  refine ⟨?_, ?_, State.eventSet_raise _ _ _ (by decide), ?_, (((RegsOnly.refl s).put _ _).put _ _ |>.raise _ _).frame⟩
  · rw [State.get_raise_other _ (by decide) (by decide), State.get_put_other _ _ (by decide), State.get_put_self _ _ _ (by decide)]
    rfl
  · rw [State.get_raise_other _ (by decide) (by decide), State.get_put_self _ _ _ (by decide)]
    exact Nat.mod_eq_of_lt he
  · exact (((FieldsBut.refl _ s).put (by simp) 1).put (by simp) e).raise (by simp [eventFields]) (by simp [eventFields])

/-! ### PROJ_STATUS.state (R269) -/

/-- PROJ_STATUS.state brought up to date by the jobs: an engine that runs shows whether a projection job is on it. -/
theorem State.projShow_spec (s : State) :
    let t := s.projShow
    let was := s.get F.PROJ_STATUS_state
    t.get F.PROJ_STATUS_state = (if was = 1 ∨ was = 2 then (if s.jobs.any fun k => k.cls == 4 && k.stage == .placed then 2 else 1) else was)
      ∧ t.jobs = s.jobs ∧ FieldsBut [F.PROJ_STATUS_state] s t ∧ { t with regs := s.regs } = s := by
  intro t was
  unfold t State.projShow
  by_cases hwas : was = 1 ∨ was = 2
  · rw [if_pos hwas, if_pos hwas]
    refine ⟨?_, rfl, (FieldsBut.refl _ s).put (by simp) _, rfl⟩
    rw [State.get_put_self _ _ _ (by decide)]
    split <;> rfl
  · rw [if_neg hwas, if_neg hwas]
    exact ⟨rfl, rfl, FieldsBut.refl _ s, rfl⟩

section
variable {s : State} {id : JobId} {j : Job} (h : s.jobOf id = some j) (hcls : j.cls = 4)
include h hcls

theorem State.commandDone_proj : s.commandDone j.queue j.index none = (s.modJob j.queue j.index Job.advanced).projShow := by
  rw [State.commandDone_none, State.clsOf_of_jobOf h, hcls]
  rfl

theorem State.commandFailed_proj : s.commandFailed j.queue j.index
    = ((s.modJob j.queue j.index fun k => { k.ended (listStatus k.cls) k.cmd with busy := false }).raise pgPROJ Ev.PROJ_cmd_fail).projShow := by
  rw [State.commandFailed, State.clsOf_of_jobOf h, hcls]
  rfl

/-- What a command done leaves of its job and shows (R269, R356). -/
theorem State.commandDone_shown :
    let t := s.commandDone j.queue j.index none
    let was := s.get F.PROJ_STATUS_state
    t.jobs = (s.modJob j.queue j.index Job.advanced).jobs
      ∧ t.get F.PROJ_STATUS_state = (if was = 1 ∨ was = 2 then (if t.jobs.any fun k => k.cls == 4 && k.stage == .placed then 2 else 1) else was)
      ∧ FieldsBut [F.PROJ_STATUS_state] s t ∧ { t with regs := s.regs, jobs := s.jobs } = s := by
  intro t was
  have ht : t = (s.modJob j.queue j.index Job.advanced).projShow := State.commandDone_proj h hcls
  obtain ⟨hstate, hjobs, hfields, hframe⟩ := State.projShow_spec (s.modJob j.queue j.index Job.advanced)
  rw [ht, hjobs]
  exact ⟨rfl, hstate, hfields, congrArg (fun u : State => { u with jobs := s.jobs }) hframe⟩

/-- What a command that failed leaves of its job, tells and shows (R247, R269). -/
theorem State.commandFailed_shown :
    let t := s.commandFailed j.queue j.index
    let was := s.get F.PROJ_STATUS_state
    t.jobs = (s.modJob j.queue j.index fun k => { k.ended (listStatus k.cls) k.cmd with busy := false }).jobs
      ∧ t.get F.PROJ_STATUS_state = (if was = 1 ∨ was = 2 then (if t.jobs.any fun k => k.cls == 4 && k.stage == .placed then 2 else 1) else was)
      ∧ t.eventSet pgPROJ Ev.PROJ_cmd_fail = true ∧ FieldsBut (F.PROJ_STATUS_state :: eventFields pgPROJ Ev.PROJ_cmd_fail) s t
      ∧ { t with regs := s.regs, jobs := s.jobs, flt := s.flt } = s := by
  intro t was
  let r := s.modJob j.queue j.index fun k => { k.ended (listStatus k.cls) k.cmd with busy := false }
  have ht : t = (r.raise pgPROJ Ev.PROJ_cmd_fail).projShow := State.commandFailed_proj h hcls
  obtain ⟨hstate, hjobs, hfields, hframe⟩ := State.projShow_spec (r.raise pgPROJ Ev.PROJ_cmd_fail)
  have hwas : (r.raise pgPROJ Ev.PROJ_cmd_fail).get F.PROJ_STATUS_state = was := r.get_raise_other (by decide) (by decide)
  have hevent : FieldsBut (F.PROJ_STATUS_state :: eventFields pgPROJ Ev.PROJ_cmd_fail) s (r.raise pgPROJ Ev.PROJ_cmd_fail) :=
    ((FieldsBut.refl _ s).of_regs (u := r) rfl rfl).raise (by simp [eventFields]) (by simp [eventFields])
  rw [ht, hjobs]
  refine ⟨r.raise_jobs _ _, ?_, ?_, hevent.trans (hfields.mono (by simp)), ?_⟩
  · rw [hstate, hwas]
  · have hbit := hfields ⟨pgPROJ, 0x10, Ev.PROJ_cmd_fail, Ev.PROJ_cmd_fail⟩ (by simpa using Fld.apart_of_test (by decide))
    exact (congrArg (· != 0) hbit).trans (State.eventSet_raise r _ _ (by decide))
  · exact (congrArg (fun u : State => { u with regs := s.regs, jobs := s.jobs, flt := s.flt }) hframe).trans
      (congrArg (fun u : State => { u with jobs := s.jobs }) (r.raise_frame pgPROJ Ev.PROJ_cmd_fail))

end

/-! ### The checks of a command, and its poses (R241, R244) -/

/-- The engine runs, the command keeps to R241, and its source and output lie in memory. -/
def State.projSound (s : State) (b : List Byte) : Prop :=
  s.get F.PROJ_STATUS_state ≠ 0 ∧ s.get F.PROJ_STATUS_state ≠ 3 ∧ s.projOk b = true ∧ s.inMemory (pcSrc b) (pcSrcBytes b) = true
    ∧ (pcDstBytes b = 0 ∨ s.inMemory (pcDst b) (pcDstBytes b) = true)

/-- A sound command whose poses are there and whose source is plain memory. -/
def State.projRuns (s : State) (b : List Byte) : Prop :=
  s.projSound b ∧ s.poseGate b = some false ∧ s.plainMem (pcSrc b) (pcSrcBytes b) = true

theorem State.not_projSound_iff (s : State) (b : List Byte) : ¬s.projSound b ↔
    (s.get F.PROJ_STATUS_state = 0 ∨ s.get F.PROJ_STATUS_state = 3 ∨ (!s.projOk b) = true ∨ (!s.inMemory (pcSrc b) (pcSrcBytes b)) = true
      ∨ (pcDstBytes b ≠ 0 ∧ (!s.inMemory (pcDst b) (pcDstBytes b)) = true)) := by
  simp only [State.projSound, not_and_or, not_not, not_or, Bool.not_eq_true, Bool.not_eq_true', ne_eq]

section
variable {s : State} {b : List Byte} (j : Job) (run : State → List Byte → State)

theorem State.projStart_unsound (h : ¬s.projSound b) : s.projStart j b run = s.projFail j := if_pos ((s.not_projSound_iff b).1 h)

theorem State.projStart_gone (h : s.poseGate b = some true) : s.projStart j b run = s.projFail j := by
  unfold State.projStart
  rw [h]
  exact ite_self _

theorem State.projStart_waits (h : s.projSound b) (hg : s.poseGate b = none) : s.projStart j b run = s := by
  unfold State.projStart
  rw [if_neg (fun hn => (s.not_projSound_iff b).2 hn h), hg]

/-- A command that runs marks its job where it uses the poses present, and has read its source. -/
theorem State.projStart_runs (h : s.projRuns b) :
    s.projStart j b run = run ((s.poseMark j b).mcTouches false (pcSrc b) (pcSrcBytes b)) (s.bytes (pcSrc b) (pcSrcBytes b)) := by
  obtain ⟨hsound, hgate, hplain⟩ := h
  have hmark : (s.poseMark j b).plainMem (pcSrc b) (pcSrcBytes b) = true
      ∧ (s.poseMark j b).bytes (pcSrc b) (pcSrcBytes b) = s.bytes (pcSrc b) (pcSrcBytes b) := by
    unfold State.poseMark
    split
    · exact ⟨(s.modJob_sameMap _ _ _).plainMem hplain, rfl⟩
    · exact ⟨hplain, rfl⟩
  unfold State.projStart
  rw [if_neg (fun hn => (s.not_projSound_iff b).2 hn hsound), hgate]
  simp only [State.load_plainMem hmark.1, hmark.2, Bool.false_eq_true, if_false]

end

/-! ### A command fetched (R241) -/

theorem State.fetched_accessed (s : State) (j : Job) : Accessed s (s.fetched j) := s.mcTouches_accessed false _ _

/-- A field of a page below the controllers' shows no access. -/
theorem Fld.not_showsAccess_of_low {g : Fld} (h : regKey g.page g.off / 512 < 64) : ¬g.showsAccess := fun hs => by
  have := hs.1
  omega

namespace Accessed
variable {s t : State} (h : Accessed s t) (b : List Byte)
include h

theorem projOk : t.projOk b = s.projOk b := by
  have hproj : t.proj = s.proj := (congrArg State.proj h.frame :)
  have hmodel : ∀ e, t.calModel e = s.calModel e := fun e => by simp only [State.calModel, State.calWord, hproj]
  simp only [State.projOk, State.projSensors, hmodel]

theorem projSound : t.projSound b ↔ s.projSound b := by
  simp only [State.projSound, h.projOk, h.sameMap.inMemory, h.get F.PROJ_STATUS_state (Fld.not_showsAccess_of_low (by decide))]

theorem poseGate : t.poseGate b = s.poseGate b := by
  simp only [State.poseGate, h.get F.EGO_POSE_COUNT_count (Fld.not_showsAccess_of_low (by decide)),
    h.get F.EGO_STATUS_state (Fld.not_showsAccess_of_low (by decide))]

theorem projRuns (hr : s.projRuns b) : t.projRuns b :=
  ⟨(h.projSound b).2 hr.1, (h.poseGate b).trans hr.2.1, h.sameMap.plainMem hr.2.2⟩

theorem replaying : t.replaying = s.replaying := State.replaying_congr (h.get _ (Fld.not_showsAccess_of_low (by decide)))

end Accessed

/-- The state in which a command's operation runs: the command fetched, its job marked where it uses the poses present, its source read. -/
def State.projRead (s : State) (j : Job) (b : List Byte) : State := ((s.fetched j).poseMark j b).mcTouches false (pcSrc b) (pcSrcBytes b)

theorem State.projStart_fetched {s : State} {b : List Byte} (h : s.projRuns b) (j : Job) (run : State → List Byte → State) :
    (s.fetched j).projStart j b run = run (s.projRead j b) (s.bytes (pcSrc b) (pcSrcBytes b)) := by
  have hbytes : (s.fetched j).bytes (pcSrc b) (pcSrcBytes b) = s.bytes (pcSrc b) (pcSrcBytes b) := (s.mcTouches_readOnly _ _).bytes _ _
  rw [State.projStart_runs j run ((s.fetched_accessed j).projRuns b h), hbytes]
  rfl

theorem State.projRead_proj (s : State) (j : Job) (b : List Byte) : (s.projRead j b).proj = s.proj := by
  have hmark : ((s.fetched j).poseMark j b).proj = (s.fetched j).proj := by
    unfold State.poseMark
    split <;> rfl
  have hread : (s.projRead j b).proj = ((s.fetched j).poseMark j b).proj := (congrArg State.proj (State.mcTouches_accessed _ false _ _).frame :)
  rw [hread, hmark]
  exact (congrArg State.proj (s.fetched_accessed j).frame :)

/-- No field but those that show accesses has changed, and the address map is the same. -/
theorem State.projRead_keeps (s : State) (j : Job) (b : List Byte) :
    (∀ g : Fld, ¬g.showsAccess → (s.projRead j b).get g = s.get g) ∧ SameMap s (s.projRead j b) := by
  have hfetch := s.fetched_accessed j
  have hread := ((s.fetched j).poseMark j b).mcTouches_accessed false (pcSrc b) (pcSrcBytes b)
  have hmark : (∀ g, ((s.fetched j).poseMark j b).get g = (s.fetched j).get g) ∧ SameMap (s.fetched j) ((s.fetched j).poseMark j b) := by
    unfold State.poseMark
    split
    · exact ⟨fun _ => rfl, State.modJob_sameMap _ _ _ _⟩
    · exact ⟨fun _ => rfl, rfl, fun _ => rfl, rfl, rfl, id⟩
  exact ⟨fun g hg => (hread.get g hg).trans ((hmark.1 g).trans (hfetch.get g hg)), (hfetch.sameMap.trans hmark.2).trans hread.sameMap⟩

end Sys2Proof.Machine
end

section
/-! SUPPORT. The operations of the projection engine (R243 to R247): what each writes or sets when its command runs. -/

namespace Sys2Proof.Machine

/-! ### The pose ring -/

theorem State.ringCheck_of_plain {s : State}
    (h : s.plainMem (s.addr F.EGO_RING_BASE_LO_base) (128 * min (s.get F.EGO_POSE_COUNT_count) 16384) = true) : s.ringCheck = s := by
  simp only [State.ringCheck, State.poisonedAt_of_plainMem h, Bool.and_false]
  rfl

/-! ### Items written (R243, R245) -/

/-- Items of a command's output written and counted (each with 0: projected, 1: unposed, 2: its source point invalid). -/
def State.projWritten (s : State) (b : List Byte) (items : List (List Byte × Nat)) : State :=
  (((s.wrote (pcDst b) (items.flatMap (·.1))).count F.PROJ_POINTS_count (items.filter fun i => i.2 == 0).length).count F.PROJ_UNPOSED_count
    (items.filter fun i => i.2 == 1).length).raiseIf (decide (0 < (items.filter fun i => i.2 == 1).length)) pgPROJ Ev.PROJ_unposed

/-- Projected and unposed points counted, and the event of an unposed one. -/
theorem State.projCounted_spec (w : State) (ok un : Nat) :
    let v := ((w.count F.PROJ_POINTS_count ok).count F.PROJ_UNPOSED_count un).raiseIf (decide (0 < un)) pgPROJ Ev.PROJ_unposed
    v.get F.PROJ_POINTS_count = (w.get F.PROJ_POINTS_count + ok) % 2 ^ 32
      ∧ v.get F.PROJ_UNPOSED_count = (w.get F.PROJ_UNPOSED_count + un) % 2 ^ 32
      ∧ v.eventSet pgPROJ Ev.PROJ_unposed = (w.eventSet pgPROJ Ev.PROJ_unposed || decide (0 < un))
      ∧ FieldsBut ([F.PROJ_POINTS_count, F.PROJ_UNPOSED_count] ++ if un = 0 then [] else eventFields pgPROJ Ev.PROJ_unposed) w v
      ∧ { v with regs := w.regs, flt := w.flt } = w := by
  intro v
  have hpoints : ((w.count F.PROJ_POINTS_count ok).count F.PROJ_UNPOSED_count un).get F.PROJ_POINTS_count
      = (w.get F.PROJ_POINTS_count + ok) % 2 ^ 32 := by
    rw [State.count_eq _ F.PROJ_UNPOSED_count, State.get_put_other _ _ (by decide), State.get_count_word _ (by decide)]
  have hunposed : ((w.count F.PROJ_POINTS_count ok).count F.PROJ_UNPOSED_count un).get F.PROJ_UNPOSED_count
      = (w.get F.PROJ_UNPOSED_count + un) % 2 ^ 32 := by
    rw [State.get_count_word _ (by decide), State.count_eq, State.get_put_other _ _ (by decide)]
  have hevent : ((w.count F.PROJ_POINTS_count ok).count F.PROJ_UNPOSED_count un).eventSet pgPROJ Ev.PROJ_unposed
      = w.eventSet pgPROJ Ev.PROJ_unposed := by
    simp only [State.eventSet, State.flag, State.count_eq]
    rw [State.get_put_other _ _ (by decide), State.get_put_other _ _ (by decide)]
  have hregs : RegsOnly w v := (((RegsOnly.refl w).put _ _).put _ _).raiseIf _ _ _
  refine ⟨?_, ?_, ?_, ?_, hregs.frame⟩
  · exact (State.get_raiseIf_other _ _ (by decide) (by decide)).trans hpoints
  · exact (State.get_raiseIf_other _ _ (by decide) (by decide)).trans hunposed
  · by_cases hun : 0 < un
    · have hset : v.eventSet pgPROJ Ev.PROJ_unposed = true := by
        unfold v
        rw [decide_eq_true hun]
        exact State.eventSet_raise _ _ _ (by decide)
      rw [hset, decide_eq_true hun, Bool.or_true]
    · unfold v
      rw [decide_eq_false hun, Bool.or_false]
      exact hevent
  · have hcounts : ∀ fs, FieldsBut ([F.PROJ_POINTS_count, F.PROJ_UNPOSED_count] ++ fs) w
        ((w.count F.PROJ_POINTS_count ok).count F.PROJ_UNPOSED_count un) :=
      fun fs => ((FieldsBut.refl _ w).count (by simp) ok).count (by simp) un
    by_cases hun : un = 0
    · unfold v
      rw [decide_eq_false (by omega), if_pos hun]
      exact hcounts []
    · rw [if_neg hun]
      exact (hcounts _).raiseIf (by simp [eventFields]) (by simp [eventFields]) _

theorem State.projPut_eq (s : State) (j : Job) (b : List Byte) (items : List (List Byte × Nat)) : s.projPut j b items
    = ((((s.store (pcDst b) (items.flatMap (·.1))).count F.PROJ_POINTS_count (items.filter fun i => i.2 == 0).length).count
        F.PROJ_UNPOSED_count (items.filter fun i => i.2 == 1).length).raiseIf (decide (0 < (items.filter fun i => i.2 == 1).length)) pgPROJ
        Ev.PROJ_unposed).ringCheck.commandDone j.queue j.index (some (digest64 (items.flatMap (·.1)))) := rfl

section
variable {s : State} {b : List Byte} {items : List (List Byte × Nat)} (j : Job)

/-- Registers of other pages than PROJ's and PCIE's are those of the bytes written. -/
theorem State.projWritten_get (u : State) {g : Fld} (h : regKey g.page g.off / 512 ≠ pgPROJ ∧ regKey g.page g.off / 512 ≠ pgPCIE) :
    (u.projWritten b items).get g = (u.wrote (pcDst b) (items.flatMap (·.1))).get g := by
  have hapart : ∀ f : Fld, regKey f.page f.off / 512 = pgPROJ ∨ regKey f.page f.off / 512 = pgPCIE → f.apart g := fun f hf =>
    Fld.apart_key fun hkey => by
      rw [hkey] at hf
      exact hf.elim h.1 h.2
  rw [State.projWritten, State.get_raiseIf _ _ (hapart _ (by decide)) (hapart _ (by decide)), State.count_eq _ F.PROJ_UNPOSED_count,
    State.get_put_apart _ (hapart _ (by decide)), State.count_eq, State.get_put_apart _ (hapart _ (by decide))]

theorem State.wrote_get (u : State) (a : Nat) (bs : List Byte) {g : Fld} (hg : ¬g.showsAccess) : (u.wrote a bs).get g = u.get g :=
  (State.get_of_regs rfl rfl g).trans ((u.mcTouches_accessed true a bs.length).get g hg)

theorem State.wrote_sameMap (u : State) (a : Nat) (bs : List Byte) : SameMap u (u.wrote a bs) :=
  (u.mcTouches_accessed true a bs.length).sameMap.trans ⟨rfl, fun _ => rfl, rfl, rfl, id⟩

theorem State.projWritten_sameMap (u : State) : SameMap u (u.projWritten b items) := by
  have hregs : RegsOnly (u.wrote (pcDst b) (items.flatMap (·.1))) (u.projWritten b items) :=
    (((RegsOnly.refl _).put _ _).put _ _).raiseIf _ _ _
  refine (u.wrote_sameMap _ _).trans ⟨State.projWritten_get u (by decide), fun n => State.projWritten_get u ?_,
    (congrArg State.spilled hregs.frame :), (congrArg State.cond hregs.frame :), fun h => ?_⟩
  · simp only [regKey, pgPROJ, pgPCIE]
    omega
  · rw [State.uninjected, (congrArg State.mcs hregs.frame :)]
    exact h

/-- A device write is as plain as before. -/
theorem State.projRead_plainStore {a n : Nat} (h : s.plainStore a n = true) : (s.projRead j b).plainStore a n = true := by
  obtain ⟨hget, hmap⟩ := s.projRead_keeps j b
  have hlow : ∀ g : Fld, regKey g.page g.off / 512 < 64 → (s.projRead j b).get g = s.get g := fun g hg =>
    hget g (Fld.not_showsAccess_of_low hg)
  have haddr : (s.projRead j b).addr F.XGS_COLL_BASE_LO_base = s.addr F.XGS_COLL_BASE_LO_base :=
    State.addr_of_get fun o ho => hlow _ (by rcases ho with rfl | rfl <;> decide)
  simp only [State.plainStore, Bool.and_eq_true, State.flag, hlow F.COLL_CTRL_enable (by decide), hlow F.XGS_CTRL_enable (by decide), haddr]
    at h ⊢
  obtain ⟨⟨hmem, hcoll⟩, hxgs⟩ := h
  exact ⟨⟨hmap.plainMem hmem, hcoll⟩, hxgs⟩

variable (hstore : s.plainStore (pcDst b) (items.flatMap (·.1)).length = true)
  (hring : s.plainMem (s.addr F.EGO_RING_BASE_LO_base) (128 * min (s.get F.EGO_POSE_COUNT_count) 16384) = true)
include hstore hring

/-- Where the output and the pose ring are plain memory, the items are written, counted, and the command is done. -/
theorem State.projPut_plain : (s.projRead j b).projPut j b items
    = ((s.projRead j b).projWritten b items).commandDone j.queue j.index (some (digest64 (items.flatMap (·.1)))) := by
  obtain ⟨hget, hmap⟩ := s.projRead_keeps j b
  have hego : ∀ g : Fld, regKey g.page g.off / 512 = pgEGO → ((s.projRead j b).projWritten b items).get g = s.get g := fun g hg => by
    rw [State.projWritten_get _ (by rw [hg]; decide), State.wrote_get _ _ _ (Fld.not_showsAccess_of_low (by rw [hg]; decide)),
      hget g (Fld.not_showsAccess_of_low (by rw [hg]; decide))]
  have hcheck : ((s.projRead j b).projWritten b items).ringCheck = (s.projRead j b).projWritten b items := by
    refine State.ringCheck_of_plain ?_
    rw [hego F.EGO_POSE_COUNT_count (by decide), State.addr_of_get fun o ho => hego _ (by rcases ho with rfl | rfl <;> decide)]
    exact (hmap.trans (State.projWritten_sameMap _)).plainMem hring
  rw [State.projPut_eq, State.store_plain (State.projRead_plainStore j hstore), ← State.projWritten, hcheck]

end

/-! ### Commands that write items (R243, R245) -/

section
variable {s : State} {id : JobId} {op : Nat} {j : Job} {b : List Byte} (h : s.commandAt id 4 op = some (j, b))
include h

theorem exec_p2i_due (hop : op = 1 ∨ op = 0 ∨ 5 < op) : exec (.p2i id) s
    = .next ((s.fetched j).projRun j b fun s op src => (pcPoints b src).map (s.p2iOut op b)) :=
  congrArg Host.Outcome.next (State.listCommand_due h (decide_eq_true hop) _)

theorem exec_p2g_due (hop : op = 2) : exec (.p2g id) s
    = .next ((s.fetched j).projRun j b fun s op src => (pcPoints b src).map (s.p2gOut op b)) :=
  congrArg Host.Outcome.next (State.listCommand_due h (decide_eq_true hop) _)

theorem exec_f2g_due (hop : op = 3) : exec (.f2g id) s
    = .next ((s.fetched j).projRun j b fun s op src => (List.range (pcCount b)).flatMap fun c =>
        (List.range (pcHeights b)).map fun h => s.f2gOut op b c (fieldAt src (4 * h) 4)) :=
  congrArg Host.Outcome.next (State.listCommand_due h (decide_eq_true hop) _)

end

/-- A command that runs over plain memory writes its items, counts them, tells an unposed one, and is done. -/
theorem State.projRun_writes {s : State} {j : Job} {b : List Byte} {c : Instr} {run : State → Nat → List Byte → List (List Byte × Nat)}
    (hc : exec c s = .next ((s.fetched j).projRun j b run)) :
    let src := s.bytes (pcSrc b) (pcSrcBytes b)
    let u := s.projRead j b
    let items := run u (Config.freeOf [245, leNat b, leNat src]) src
    let out := items.flatMap (·.1)
    let un := (items.filter fun i => i.2 == 1).length
    let ok := (items.filter fun i => i.2 == 0).length
    let w := u.wrote (pcDst b) out
    let v := u.projWritten b items
    s.projRuns b → s.plainStore (pcDst b) out.length = true →
      s.plainMem (s.addr F.EGO_RING_BASE_LO_base) (128 * min (s.get F.EGO_POSE_COUNT_count) 16384) = true →
      exec c s = .next (v.commandDone j.queue j.index (some (digest64 out)))
        ∧ v.get F.PROJ_POINTS_count = (w.get F.PROJ_POINTS_count + ok) % 2 ^ 32
        ∧ v.get F.PROJ_UNPOSED_count = (w.get F.PROJ_UNPOSED_count + un) % 2 ^ 32
        ∧ v.eventSet pgPROJ Ev.PROJ_unposed = (s.eventSet pgPROJ Ev.PROJ_unposed || decide (0 < un))
        ∧ FieldsBut ([F.PROJ_POINTS_count, F.PROJ_UNPOSED_count] ++ if un = 0 then [] else eventFields pgPROJ Ev.PROJ_unposed) w v
        ∧ { v with regs := w.regs, flt := w.flt } = w := by
  intro src u items out un ok w v hruns hstore hring
  obtain ⟨hpoints, hunposed, hevent, hfields, hframe⟩ := State.projCounted_spec w ok un
  have hkept : w.eventSet pgPROJ Ev.PROJ_unposed = s.eventSet pgPROJ Ev.PROJ_unposed := by
    have hlow : ¬(Fld.mk pgPROJ 0x10 Ev.PROJ_unposed Ev.PROJ_unposed).showsAccess := Fld.not_showsAccess_of_low (by decide)
    exact congrArg (· != 0) ((State.wrote_get u _ _ hlow).trans ((s.projRead_keeps j b).1 _ hlow))
  refine ⟨?_, hpoints, hunposed, hkept ▸ hevent, hfields, hframe⟩
  rw [hc, State.projRun, State.projStart_fetched hruns]
  exact congrArg Host.Outcome.next (State.projPut_plain j hstore hring)

/-! ### DELTA and BIAS (R230, R246, R247, R325) -/

/-- The values of a command that runs: words of its source. -/
theorem State.projValues_runs {s : State} {b : List Byte} (h : s.projRuns b) (j : Job) (run : State → List Nat → State) {n : Nat}
    (hn : pcSrcBytes b / 4 = n) : (s.fetched j).projValues j b run
      = run (s.projRead j b) ((List.range n).map fun k => fieldAt (s.bytes (pcSrc b) (pcSrcBytes b)) (4 * k) 4) := by
  rw [State.projValues, State.projStart_fetched h, hn]

/-- Are the values of a DELTA command small enough (R246)? -/
def deltaSmall (d : List Nat) : Bool :=
  ((d.take 3).all (fSmall 0x3D4CCCCD)) && (((d.drop 3).take 3).all (fSmall 0x3DCCCCCD)) && fSmall 0x3CA3D70A (d.getD 6 0)

/-- What a DELTA command makes of its values. -/
def State.deltaRun (j : Job) (b : List Byte) (s : State) (d : List Nat) : State :=
  if deltaSmall d then
    { s with proj := { s.proj with deltas := tabSet s.proj.deltas (pcSrcS b) d } }.commandDone j.queue j.index (some (digest64 []))
  else s.projFail j

/-- Is a record the one of a job's current BIAS command (R325)? -/
def Job.biasRecord (j : Job) (r : JRec) : Bool := decide (r.kind = 0x0C ∧ r.aux0 = j.cmd ∧ r.aux1 = j.queue ∧ r.aux2 = j.index)

/-- Bytes of biases published and handed to the ego-motion engine; the command is done (R230). -/
def State.biasTold (s : State) (j : Job) (bytes : List Byte) : State :=
  { s.publish 0x0C 0 0 j.cmd j.queue j.index bytes with
    egoIn := s.egoIn ++ [(⟨255, 0, 0, 0, s.jrnPos, bytes⟩ : EgoItem)] }.commandDone j.queue j.index (some (digest64 []))

/-- What a BIAS command makes of its values. -/
def State.biasRun (j : Job) (s : State) (d : List Nat) : State :=
  let bytes := d.flatMap (leBytes 4)
  let s0 := if s.replaying then s.replayTake else s
  let s1 := s0.publish 0x0C 0 0 j.cmd j.queue j.index bytes
  (if s.get F.EGO_STATUS_state = 0 then s1 else { s1 with egoIn := s1.egoIn ++ [(⟨255, 0, 0, 0, s0.jrnPos, bytes⟩ : EgoItem)] }).commandDone
    j.queue j.index (some (digest64 []))

theorem State.biasRun_eq {s : State} (h : s.get F.EGO_STATUS_state ≠ 0) (j : Job) (d : List Nat) :
    s.biasRun j d = (if s.replaying then s.replayTake else s).biasTold j (d.flatMap (leBytes 4)) := by
  have hegoIn : ∀ (u : State) bytes, (u.publish 0x0C 0 0 j.cmd j.queue j.index bytes).egoIn = u.egoIn := fun u _ =>
    (KeepsIngress.refl u).publish.egoIn
  simp only [State.biasRun, if_neg h, hegoIn, State.biasTold]

theorem State.ego_of_poseGate {s : State} {b : List Byte} (h : s.poseGate b = some false) : s.get F.EGO_STATUS_state ≠ 0 := fun h0 => by
  simp [State.poseGate, h0] at h

section
variable {s : State} {id : JobId} {j : Job} {b : List Byte}

theorem exec_delta_due (h : s.commandAt id 4 4 = some (j, b)) :
    exec (.delta id) s = .next ((s.fetched j).projValues j b (State.deltaRun j b)) :=
  congrArg Host.Outcome.next (State.listCommand_due h rfl _)

section
variable {d : List Nat} (h : s.commandAt id 4 4 = some (j, b)) (hr : s.projRuns b)
  (hd : (List.range 7).map (fun k => fieldAt (s.bytes (pcSrc b) (pcSrcBytes b)) (4 * k) 4) = d)
include h hr hd

theorem exec_delta_runs : exec (.delta id) s = .next ((s.projRead j b).deltaRun j b d) := by
  have hop := State.opcode_of_commandAt h
  rw [exec_delta_due h, State.projValues_runs hr j _ (n := 7) (by simp [pcSrcBytes, hop]), hd]

theorem exec_delta_small (hs : deltaSmall d = true) : exec (.delta id) s = .next ({ s.projRead j b with
    proj := { s.proj with deltas := tabSet s.proj.deltas (pcSrcS b) d } }.commandDone j.queue j.index (some (digest64 []))) := by
  rw [exec_delta_runs h hr hd, State.deltaRun, if_pos hs, State.projRead_proj]

theorem exec_delta_large (hs : deltaSmall d = false) : exec (.delta id) s = .next ((s.projRead j b).commandFailed j.queue j.index) := by
  rw [exec_delta_runs h hr hd, State.deltaRun, hs]
  rfl

end

variable (h : s.commandAt id 4 5 = some (j, b))
include h

theorem exec_bias_due : exec (.bias id) s = .next (if (s.fetched j).replaying ∧ !(s.fetched j).replayTurn j.biasRecord then s.fetched j
    else (s.fetched j).projValues j b (State.biasRun j)) :=
  congrArg Host.Outcome.next (State.listCommand_due h rfl _)

theorem exec_bias_waits (hr : s.replaying = true) (hturn : (s.fetched j).replayTurn j.biasRecord = false) :
    exec (.bias id) s = .next (s.fetched j) := by
  rw [exec_bias_due h, if_pos ⟨(s.fetched_accessed j).replaying.trans hr, by rw [hturn]; rfl⟩]

theorem exec_bias_turn (hturn : s.replaying = false ∨ (s.fetched j).replayTurn j.biasRecord = true) :
    exec (.bias id) s = .next ((s.fetched j).projValues j b (State.biasRun j)) := by
  rw [exec_bias_due h, (s.fetched_accessed j).replaying]
  refine congrArg Host.Outcome.next (if_neg fun ⟨hr, ht⟩ => ?_)
  rcases hturn with hno | hyes
  · exact Bool.false_ne_true (hno.symm.trans hr)
  · rw [hyes] at ht
    exact Bool.false_ne_true ht

theorem exec_bias_runs (hturn : s.replaying = false ∨ (s.fetched j).replayTurn j.biasRecord = true) (hr : s.projRuns b) :
    exec (.bias id) s = .next ((if s.replaying then (s.projRead j b).replayTake else s.projRead j b).biasTold j
      (((List.range 6).map fun k => fieldAt (s.bytes (pcSrc b) (pcSrcBytes b)) (4 * k) 4).flatMap (leBytes 4))) := by
  have hop := State.opcode_of_commandAt h
  obtain ⟨hget, -⟩ := s.projRead_keeps j b
  have hego : (s.projRead j b).get F.EGO_STATUS_state ≠ 0 := by
    rw [hget _ (Fld.not_showsAccess_of_low (by decide))]
    exact State.ego_of_poseGate hr.2.1
  have hreplaying : (s.projRead j b).replaying = s.replaying :=
    State.replaying_congr (hget _ (Fld.not_showsAccess_of_low (by decide)))
  rw [exec_bias_turn h hturn, State.projValues_runs hr j _ (n := 6) (by simp [pcSrcBytes, hop]), State.biasRun_eq hego, hreplaying]

end

/-! ### Commands that fail or wait (R241, R244) -/

/-- A projection command that is due, in replay at its own record, begins with the checks that all of them share. -/
theorem exec_proj_due {s : State} {id : JobId} {j : Job} {b : List Byte} {op : Nat} {c : Instr}
    (hc : (op, c) ∈ [(1, .p2i id), (2, .p2g id), (3, .f2g id), (4, .delta id), (5, .bias id)]) (h : s.commandAt id 4 op = some (j, b))
    (hturn : op ≠ 5 ∨ s.replaying = false ∨ (s.fetched j).replayTurn j.biasRecord = true) :
    ∃ run, exec c s = .next ((s.fetched j).projStart j b run) := by
  simp only [List.mem_cons, List.not_mem_nil, or_false, Prod.mk.injEq] at hc
  obtain ⟨rfl, rfl⟩ | ⟨rfl, rfl⟩ | ⟨rfl, rfl⟩ | ⟨rfl, rfl⟩ | ⟨rfl, rfl⟩ := hc
  · exact ⟨_, exec_p2i_due h (.inl rfl)⟩
  · exact ⟨_, exec_p2g_due h rfl⟩
  · exact ⟨_, exec_f2g_due h rfl⟩
  · exact ⟨_, exec_delta_due h⟩
  · exact ⟨_, exec_bias_turn h (hturn.resolve_left (not_not.2 rfl))⟩

end Sys2Proof.Machine
end

section
/-! SUPPORT. The projection engine as a whole (O32). -/

namespace Sys2Proof.Machine

/-- Settles O32: the enable by its cases, each command by what the checks that all share leave of it, the end of a command by
`State.projShow_spec`. -/
theorem projection : Obligations.Projection := by
  refine ⟨fun acc s s2 w h => ⟨exec_projEnable_again h, fun hw hoff => ⟨fun hcal => ?_, fun e hcal => ?_⟩, fun hw => ?_⟩,
    fun id s j b => ?_⟩
  · exact ⟨_, exec_projEnable_sound h hw hoff hcal, s2.projSet_spec (by decide)⟩
  · exact ⟨_, exec_projEnable_refused h hw hoff hcal, s2.projCalErr_spec (List.mem_range.1 (List.mem_of_find?_eq_some hcal))⟩
  · exact ⟨_, exec_projEnable_clear h hw, s2.projSet_spec (by decide)⟩
  intro s0 u src op' done sound runs mine writes
  refine ⟨fun h => ?_, fun h => ?_, fun h => ?_, fun h hr => ?_, fun h => ?_, fun op c hc h hturn => ?_, fun op hop h => ?_, fun h hcls => ?_⟩
  · have hwrites := State.projRun_writes (exec_p2i_due h (.inl rfl))
    exact hwrites
  · have hwrites := State.projRun_writes (exec_p2g_due h rfl)
    exact hwrites
  · have hwrites := State.projRun_writes (exec_f2g_due h rfl)
    exact hwrites
  · exact ⟨exec_delta_small h hr rfl, exec_delta_large h hr rfl⟩
  · intro bytes told
    refine ⟨exec_bias_waits h, fun hr hruns => ?_, fun hr hturn hruns => ?_⟩
    · rw [exec_bias_runs h (.inl hr) hruns, if_neg (by rw [hr]; decide)]
      rfl
    · rw [exec_bias_runs h (.inr hturn) hruns, if_pos hr]
      rfl
  · obtain ⟨run, hrun⟩ := exec_proj_due hc h hturn
    have hfetch := s.fetched_accessed j
    refine ⟨fun hfail => hrun.trans (congrArg Host.Outcome.next ?_), fun hsound hgate => hrun.trans (congrArg Host.Outcome.next ?_)⟩
    · rcases hfail with hbad | hgone
      · exact State.projStart_unsound j run fun hs => hbad ((hfetch.projSound b).1 hs)
      · exact State.projStart_gone j run ((hfetch.poseGate b).trans hgone)
    · exact State.projStart_waits j run ((hfetch.projSound b).2 hsound) ((hfetch.poseGate b).trans hgate)
  · have hbad : (s.fetched j).projOk b = false := by
      have hcode := State.opcode_of_commandAt h
      simp only [State.projOk, hcode, Bool.and_eq_false_iff, decide_eq_false_iff_not]
      omega
    refine (exec_p2i_due h (.inr hop)).trans (congrArg Host.Outcome.next (State.projStart_unsound j _ fun hs => ?_))
    exact Bool.false_ne_true (hbad.symm.trans hs.2.2.1)
  · intro last shown
    exact ⟨State.commandDone_shown h hcls, State.commandFailed_shown h hcls, fun out => s.commandDone_digest j.queue j.index (digest64 out)⟩

end Sys2Proof.Machine
end


section
/-! SUPPORT. A reflex query taken (R287) over memory whose cells are not in canonical form. -/

namespace Sys2Proof.Machine

/-! ### A control word listed twice (O34) -/

/-- The collision engine running with a query waiting at port 0, and memory that lists the low byte of the port's control word twice. -/
def goListedTwice : State :=
  { State.reset.put F.COLL_CTRL_enable 1 with
    mem := [(0, 1#8), (0, 1#8)]
    coll := { waiting := [0] } }

/-- The control word of port 0 after a command. -/
def goAfterQuery (r : Result) : Nat :=
  match r with
  | .next t => t.peekNat (goListedTwice.rfxAt 0) 4
  | _ => 0

/-- Unit 0 is free and port 0 waits for it; no stack stands in a spill area. -/
theorem goListedTwice_due : goListedTwice.coll.waiting.find? (unitPort 0) = some 0 ∧ goListedTwice.get F.COLL_CTRL_enable = 1
    ∧ tabFind goListedTwice.coll.running 0 = none ∧ goListedTwice.spilled = [] := by decide +kernel

/-- The byte 0 written there takes one of the two cells out, and the other one shows go still set. -/
theorem goListedTwice_goAfterQuery : goAfterQuery (exec (.reflexQuery 0) goListedTwice) = 1 := by decide +kernel

/-- Refutes O34: the clause of a query taken says, of every state with no stack in a spill area, that go reads clear after it. Of memory
that lists a byte twice a byte 0 written takes out one cell only, so go still reads 1. (The clause lacks `memWf s.mem = true` among its
premises; O59 says that every step keeps it.) -/
theorem not_collision : ¬ Obligations.Collision := by
  rintro ⟨-, -, -, -, -, -, hunit⟩
  obtain ⟨hwaits, hon, hfree, hspilled⟩ := goListedTwice_due
  obtain ⟨-, htaken, -⟩ := hunit 0 goListedTwice
  obtain ⟨t, hexec, -, -, hclear⟩ := htaken 0 hwaits hon hfree
  obtain ⟨hgo, -⟩ := hclear hspilled
  have hshown := goListedTwice_goAfterQuery
  rw [hexec] at hshown
  exact absurd (hgo.symm.trans (congrArg (· % 2) hshown)) (by decide)

end Sys2Proof.Machine
end

section
/-! SUPPORT. What a record staged for the journal leaves (R317 to R323). -/

namespace Sys2Proof.Machine

/-- From `s` to `t` nothing changed but registers, memory, the journal and the events at the collector. -/
structure JournalOnly (s t : State) : Prop where
  frame : { t with regs := s.regs, mem := s.mem, cond := s.cond, jrn := s.jrn, flt := s.flt } = s

theorem RegsOnly.journalOnly {s t : State} (h : RegsOnly s t) : JournalOnly s t :=
  ⟨congrArg (fun u : State => { u with mem := s.mem, cond := s.cond, jrn := s.jrn }) h.frame⟩

namespace JournalOnly

theorem refl (s : State) : JournalOnly s s := ⟨rfl⟩

variable {o s t : State}

theorem trans (h : JournalOnly o s) (k : JournalOnly s t) : JournalOnly o t := by
  refine ⟨?_⟩
  calc { t with regs := o.regs, mem := o.mem, cond := o.cond, jrn := o.jrn, flt := o.flt }
      = { ({ t with regs := s.regs, mem := s.mem, cond := s.cond, jrn := s.jrn, flt := s.flt } : State) with
          regs := o.regs, mem := o.mem, cond := o.cond, jrn := o.jrn, flt := o.flt } := rfl
    _ = { s with regs := o.regs, mem := o.mem, cond := o.cond, jrn := o.jrn, flt := o.flt } := by rw [k.frame]
    _ = o := h.frame

theorem ite {c : Prop} [Decidable c] (hs : JournalOnly o s) (ht : JournalOnly o t) : JournalOnly o (if c then s else t) := by
  split <;> assumption

variable (h : JournalOnly o s)
include h

theorem put {f v} : JournalOnly o (s.put f v) := h.trans ⟨rfl⟩
theorem raise {p b} : JournalOnly o (s.raise p b) := h.trans ((RegsOnly.refl s).raise p b).journalOnly
theorem poke {a bs p} : JournalOnly o (s.poke a bs p) := h.trans ⟨rfl⟩
theorem setJrn {j} : JournalOnly o { s with jrn := j } := h.trans ⟨rfl⟩

theorem ringPoke {base units unit us} : JournalOnly o (s.ringPoke base units unit us) := by
  induction us generalizing s unit with
  | nil => exact h
  | cons u us ih => exact ih h.poke

theorem exportUntil {need n} : JournalOnly o (s.exportUntil need n) := by
  induction n generalizing s with
  | zero => exact h
  | succ n ih => exact .ite (ih h.put) h

theorem ringPut {r} : JournalOnly o (s.ringPut r) := h.ringPoke.put
theorem droppedShow : JournalOnly o s.droppedShow := h.put.put.raise
theorem recordLost {r} : JournalOnly o (s.recordLost r) := .ite h.setJrn h.setJrn.droppedShow

theorem ringRecord {r} : JournalOnly o (s.ringRecord r) := by
  unfold State.ringRecord
  extract_lets +onlyGivenNames _ _ _
  refine .ite ?_ h.recordLost
  extract_lets +onlyGivenNames s1
  have h1 : JournalOnly o s1 := .ite h h.exportUntil.put.raise
  exact .ringPut (.ite h1.ringPut.setJrn h1)

theorem journalWrite : JournalOnly o s.journalWrite := by
  unfold State.journalWrite
  split
  exacts [h, h.setJrn.ringRecord]

theorem stage {r} : JournalOnly o (s.stage r) :=
  .ite h (.ite h.setJrn (.ite (.setJrn (List.foldlRecOn _ _ h.put.raise fun _ hu _ _ => hu.journalWrite)) h.setJrn.droppedShow))

end JournalOnly

theorem State.record_journalOnly (s : State) (kind flags src aux0 aux1 aux2 : Nat) (payload : List Byte) :
    JournalOnly s (s.record kind flags src aux0 aux1 aux2 payload) := (JournalOnly.refl s).stage

end Sys2Proof.Machine
end

section
/-! SUPPORT. Fields raised to a peak, events raised or not, device writes where no word is in error. -/

namespace Sys2Proof.Machine

/-! ### Fields and events -/

/-- A peak field after a value: the larger of the two, the value within the field. -/
theorem State.get_putMax_self (s : State) {f : Fld} (hf : f.fits) (v : Nat) : (s.putMax f v).get f = max (s.get f) (min v (f.size - 1)) := by
  have hlt := s.get_lt_size hf
  unfold State.putMax
  split
  · rw [State.get_put_same _ _ hf, Nat.mod_eq_of_lt (by omega)]
    omega
  · omega

/-- A one-bit flag is clear where its field reads 0. -/
theorem State.flag_of_get_zero {s : State} {f : Fld} (h : s.get f = 0) : s.flag f = false := by simp [State.flag, h]

/-- A status bit after an event of its page that was raised under a condition. -/
theorem State.eventSet_raiseIf_eq (s : State) (c : Bool) (p : Nat) {b e : Nat} (hb : b < 32) (he : e < 32) :
    (s.raiseIf c p b).eventSet p e = (s.eventSet p e || (c && b == e)) := by
  cases c with
  | false => simp [State.raiseIf]
  | true =>
    by_cases hbe : b = e
    · subst hbe
      simp [State.raiseIf, State.eventSet_raise s p b hb]
    · have ha : (Fld.mk p 0x10 b b).apart ⟨p, 0x10, e, e⟩ :=
        Fld.apart_bits ⟨le_rfl, hb⟩ ⟨le_rfl, he⟩ rfl rfl (by simp only; omega)
      have hm : F.PCIE_MSI_PEND_pending.apart ⟨p, 0x10, e, e⟩ := Fld.apart_key (by simp only [regKey]; omega)
      simp [State.raiseIf, State.eventSet, State.flag, s.get_raise ha hm, hbe]

/-- A field written leaves a status bit apart from it. -/
theorem State.eventSet_put (s : State) {f : Fld} {p b : Nat} (v : Nat) (h : f.apartTest ⟨p, 0x10, b, b⟩ = true) :
    (s.put f v).eventSet p b = s.eventSet p b := congrArg (· != 0) (s.get_put_other v h)

/-! ### Device writes (R370, R375) -/

/-- Bytes stored over plain memory: they stand there, the controller has seen the write. -/
theorem State.storeRaw_plain {s : State} {a : Nat} (h : s.Plain a) (bs : List Byte) : s.storeRaw a bs = s.wrote a bs := by
  have htouch := s.mcTouches_accessed true a bs.length
  have hcond : (s.mcTouches true a bs.length).cond = [] := htouch.sameMap.cond.trans h.cond
  have hplace : (s.mcTouches true a bs.length).place a = a := by
    simp only [State.place, htouch.sameMap.spilled, h.spilled, if_true]
  rw [State.storeRaw, if_pos h.store, State.logReads_of_clean hcond, State.poke, hplace, hcond, condWrite_nil, State.wrote, ← hcond,
    (congrArg State.mem htouch.frame :)]

/-- No controller of main memory serves hub SRAM. -/
theorem State.mcTouches_hub {s : State} {a n : Nat} (hs : s.spilled = []) (hlo : hubBase ≤ a) (hhi : a + n ≤ hubBase + 96 * 1048576)
    (write : Bool) : s.mcTouches write a n = s := by
  have hplace : s.place a = a := by simp [State.place, hs]
  have hbase : hubBase % 32 = 0 := by decide
  refine List.foldlRecOn (motive := (· = s)) _ _ rfl fun t ht w hw => ?_
  rw [hplace, wordsOf] at hw
  split at hw
  · exact absurd hw List.not_mem_nil
  · obtain ⟨k, hk, rfl⟩ := List.mem_map.1 hw
    rw [List.mem_range] at hk
    have hreg : s.region ((k + a / 32) * 32) = .hub := State.region_eq_hub.2 ⟨by omega, by omega⟩
    rw [ht, State.mcTouch, if_neg (by simp [hreg])]

/-- Bytes stored in hub SRAM where no word is in error. -/
theorem State.storeRaw_hub {s : State} {a : Nat} {bs : List Byte} (hc : s.cond = []) (hs : s.spilled = []) (hlo : hubBase ≤ a)
    (hhi : a + bs.length ≤ hubBase + 96 * 1048576) (hn : bs ≠ []) : s.storeRaw a bs = { s with mem := cellWrite s.mem a bs } := by
  have hlen := List.length_pos_of_ne_nil hn
  have hreg : s.region a = .hub := State.region_eq_hub.2 ⟨hlo, by omega⟩
  have hplain : s.Plain a := ⟨hc, by simp [State.storeAt, hreg], by simp [hs]⟩
  rw [State.storeRaw_plain hplain, State.wrote, State.mcTouches_hub hs hlo hhi]

/-- A range inside hub SRAM lies between its bounds. -/
theorem State.hub_of_inHub {s : State} {a n : Nat} (h : s.inHub a n = true) (hn : 0 < n) :
    hubBase ≤ a ∧ a + n ≤ hubBase + 96 * 1048576 := by
  simp only [State.inHub, Bool.and_eq_true, beq_iff_eq] at h
  have hlast := (State.within_of_oneRegion h.1).resolve_left (by omega)
  rw [h.2] at hlast
  have hlo := State.region_eq_hub.1 h.2
  have hhi := State.region_eq_hub.1 hlast
  omega

theorem SameMap.inHub {s t : State} (h : SameMap s t) (a n : Nat) : t.inHub a n = s.inHub a n := by
  simp only [State.inHub, h.oneRegion, h.region]

end Sys2Proof.Machine
end

section
/-! SUPPORT. What the plan engine shows, what becomes of its jobs, what it tells of a refusal (R291, R298, R301, R306, R309). -/

namespace Sys2Proof.Machine

/-! ### PLAN_STATUS -/

/-- PLAN_STATUS brought up to date: state, sweeping halves and queries in flight. -/
theorem State.planShow_spec (s : State) :
    let t := s.planShow
    let n := s.plan.queries.length
    t.get F.PLAN_STATUS_state = (if s.get F.PLAN_STATUS_state = 3 then 3 else if s.get F.PLAN_CTRL_enable = 0 then 0 else if n = 0 then 1 else 2)
      ∧ t.get F.PLAN_STATUS_in_flight = min n 63
      ∧ t.get F.PLAN_STATUS_halves = (if s.planHalves.contains 0 then 1 else 0) + (if s.planHalves.contains 1 then 2 else 0)
      ∧ FieldsBut [F.PLAN_STATUS_state, F.PLAN_STATUS_halves, F.PLAN_STATUS_in_flight] s t ∧ { t with regs := s.regs } = s := by
  intro t n
  have hoff : (!s.flag F.PLAN_CTRL_enable) = decide (s.get F.PLAN_CTRL_enable = 0) := by
    simp only [State.flag, bne, Bool.not_not, beq_eq_decide]
  have hempty : s.plan.queries.isEmpty = decide (n = 0) := by
    rw [Bool.eq_iff_iff, List.isEmpty_iff, decide_eq_true_eq, List.length_eq_zero_iff]
  refine ⟨?_, ?_, ?_, (((FieldsBut.refl _ s).put (by simp) _).put (by simp) _).put (by simp) _, rfl⟩
  · unfold t State.planShow
    rw [State.get_put_other _ _ (by decide), State.get_put_other _ _ (by decide), State.get_put_self _ _ _ (by decide), hoff, hempty]
    simp only [decide_eq_true_eq]
    split_ifs <;> rfl
  · unfold t State.planShow
    rw [State.get_put_self _ _ _ (by decide)]
    exact Nat.mod_eq_of_lt (show min n 63 < 64 by omega)
  · unfold t State.planShow
    rw [State.get_put_other _ _ (by decide), State.get_put_self _ _ _ (by decide)]
    split_ifs <;> rfl

/-! ### Jobs of the plan engine (R306) -/

/-- A plan job checked: no more than its entry changes. -/
theorem State.planJobCheck_frame (s : State) (q i : Nat) : { s.planJobCheck q i with jobs := s.jobs } = s := by
  unfold State.planJobCheck
  split
  · rfl
  · split_ifs <;> rfl

/-- What the check makes of the jobs depends on the jobs and the queries alone. -/
theorem State.planJobCheck_jobs {s t : State} (hjobs : t.jobs = s.jobs) (hplan : t.plan = s.plan) (q i : Nat) :
    (t.planJobCheck q i).jobs = (s.planJobCheck q i).jobs := by
  have hjob : t.job q i = s.job q i := by simp only [State.job, hjobs]
  have hopen : ∀ k, t.planOpen k = s.planOpen k := fun k => by simp only [State.planOpen, hplan]
  unfold State.planJobCheck
  rw [hjob]
  cases s.job q i with
  | none => exact hjobs
  | some k =>
    simp only [hopen]
    split_ifs <;> simp only [State.setJob, hjobs]

section
variable {s : State} {q i : Nat} {k : Job} (h : s.job q i = some k)
include h

theorem State.planJobCheck_eq : s.planJobCheck q i = if s.planOpen k ∨ k.stage ≠ .placed ∨ k.busy then s
    else if k.listCount ≤ k.cmd then s.setJob { k with stage := .ended } else if k.stopping then s.setJob (k.ended 0x0A 0) else s := by
  unfold State.planJobCheck
  rw [h]

theorem State.planJobCheck_stays
    (hk : s.planOpen k = true ∨ k.stage ≠ .placed ∨ k.busy = true ∨ (k.cmd < k.listCount ∧ k.stopping = false)) :
    s.planJobCheck q i = s := by
  rw [State.planJobCheck_eq h]
  by_cases hheld : s.planOpen k = true ∨ k.stage ≠ .placed ∨ k.busy = true
  · exact if_pos hheld
  · obtain ⟨hcmd, hstop⟩ : k.cmd < k.listCount ∧ k.stopping = false := by tauto
    rw [if_neg hheld, if_neg (not_le.2 hcmd), if_neg (Bool.eq_false_iff.1 hstop)]

variable (hopen : s.planOpen k = false) (hstage : k.stage = .placed) (hbusy : k.busy = false)
include hopen hstage hbusy

theorem State.planJobCheck_done (hdone : k.listCount ≤ k.cmd) : s.planJobCheck q i = s.setJob { k with stage := .ended } := by
  rw [State.planJobCheck_eq h, if_neg (by simp [hopen, hstage, hbusy]), if_pos hdone]

theorem State.planJobCheck_stopped (hcmd : k.cmd < k.listCount) (hstop : k.stopping = true) :
    s.planJobCheck q i = s.setJob (k.ended 0x0A 0) := by
  rw [State.planJobCheck_eq h, if_neg (by simp [hopen, hstage, hbusy]), if_neg (by omega), if_pos hstop]

end

/-- A PLAN command refused: its cause is shown, its list stops with the collision error status. -/
theorem State.planFail_spec (s : State) (j : Job) {cause : Nat} (hc : cause < 16) :
    let t := s.planFail j cause
    t.get F.PLAN_ERR_cause = cause ∧ FieldsBut [F.PLAN_ERR_cause] s t
      ∧ t.jobs = ((s.modJob j.queue j.index fun k => { k.report 8 j.cmd 0 with cmd := max k.cmd k.listCount }).planJobCheck j.queue j.index).jobs
      ∧ { t with regs := s.regs, jobs := s.jobs } = s := by
  intro t
  let u := (s.put F.PLAN_ERR_cause cause).planStop j.queue j.index 8 j.cmd
  have hframe : { t with jobs := u.jobs } = u := u.planJobCheck_frame j.queue j.index
  have hget : ∀ g, t.get g = (s.put F.PLAN_ERR_cause cause).get g := fun g =>
    State.get_of_regs (congrArg State.regs hframe :) (congrArg State.fuse hframe :) g
  refine ⟨?_, fun g hg => ?_, State.planJobCheck_jobs (s := s.modJob j.queue j.index _) (t := u) rfl rfl _ _, ?_⟩
  · rw [hget, State.get_put_self _ _ _ (by decide)]
    exact Nat.mod_eq_of_lt hc
  · rw [hget]
    exact s.get_put_apart (hg _ List.mem_cons_self) cause
  · exact congrArg (fun v : State => { v with regs := s.regs, jobs := s.jobs }) hframe

/-! ### Refusals and faults told -/

/-- What a LOAD refused tells: cause, offending index, and its events. -/
theorem State.loadRefused_spec (s : State) {cause : Nat} (hc : cause < 16) (index : Nat) (bad : Bool) :
    let t := (((s.put F.PLAN_ERR_cause cause).put F.PLAN_ERR_index index).raise pgPLAN Ev.PLAN_load_refused).raiseIf bad
      pgPLAN Ev.PLAN_uncorrectable
    t.get F.PLAN_ERR_cause = cause ∧ t.get F.PLAN_ERR_index = index % 16384 ∧ t.eventSet pgPLAN Ev.PLAN_load_refused = true
      ∧ t.eventSet pgPLAN Ev.PLAN_uncorrectable = (s.eventSet pgPLAN Ev.PLAN_uncorrectable || bad)
      ∧ FieldsBut ([F.PLAN_ERR_cause, F.PLAN_ERR_index] ++ eventFields pgPLAN Ev.PLAN_load_refused
          ++ eventFields pgPLAN Ev.PLAN_uncorrectable) s t
      ∧ { t with regs := s.regs, flt := s.flt } = s := by
  intro t
  refine ⟨?_, ?_, ?_, ?_, ?_, ((((RegsOnly.refl s).put _ _).put _ _).raise _ _ |>.raiseIf _ _ _).frame⟩
  · unfold t
    rw [State.get_raiseIf_other _ _ (by decide) (by decide), State.get_raise_other _ (by decide) (by decide),
      State.get_put_other _ _ (by decide), State.get_put_self _ _ _ (by decide)]
    exact Nat.mod_eq_of_lt hc
  · unfold t
    rw [State.get_raiseIf_other _ _ (by decide) (by decide), State.get_raise_other _ (by decide) (by decide),
      State.get_put_self _ _ _ (by decide)]
    rfl
  · exact State.eventSet_raiseIf_of_eventSet (State.eventSet_raise _ _ _ (by decide)) (by decide) (by decide) _
  · unfold t
    rw [State.eventSet_raiseIf_eq _ _ _ (by decide) (by decide)]
    refine congrArg₂ _ ?_ (by simp)
    rw [State.eventSet, State.flag, State.get_raise_other _ (by decide) (by decide), State.get_put_other _ _ (by decide),
      State.get_put_other _ _ (by decide)]
    rfl
  · exact ((((FieldsBut.refl _ s).put (by simp) cause).put (by simp) index).raise (by simp [eventFields]) (by simp [eventFields])).raiseIf
      (by simp [eventFields]) (by simp [eventFields]) bad

/-- What a further rank tells (R298): it is counted and raised. -/
theorem State.fallthrough_spec (s : State) :
    let t := (s.count F.PLAN_FALLTHROUGH_count 1).raise pgPLAN Ev.PLAN_fallthrough
    t.get F.PLAN_FALLTHROUGH_count = (s.get F.PLAN_FALLTHROUGH_count + 1) % 2 ^ 32 ∧ t.eventSet pgPLAN Ev.PLAN_fallthrough = true
      ∧ FieldsBut (F.PLAN_FALLTHROUGH_count :: eventFields pgPLAN Ev.PLAN_fallthrough) s t
      ∧ { t with regs := s.regs, flt := s.flt } = s := by
  refine ⟨?_, State.eventSet_raise _ _ _ (by decide), ?_, (((RegsOnly.refl s).put _ _).raise _ _).frame⟩
  · rw [State.get_raise_other _ (by decide) (by decide), State.get_count_word _ (by decide)]
  · exact ((FieldsBut.refl _ s).count (by simp) 1).raise (by simp [eventFields]) (by simp [eventFields])

/-- What a bad word of the selector's own state tells (R309): PLAN is faulted. -/
theorem State.planFaulted_spec (s : State) :
    let t := ((s.put F.PLAN_ERR_cause 5).put F.PLAN_STATUS_state 3).raise pgPLAN Ev.PLAN_block_fault
    s.planFault = s.plan.queries.foldl (fun u q => u.planKept q .poisoned) t
      ∧ t.get F.PLAN_ERR_cause = 5 ∧ t.get F.PLAN_STATUS_state = 3 ∧ t.eventSet pgPLAN Ev.PLAN_block_fault = true
      ∧ FieldsBut ([F.PLAN_ERR_cause, F.PLAN_STATUS_state] ++ eventFields pgPLAN Ev.PLAN_block_fault) s t
      ∧ { t with regs := s.regs, flt := s.flt } = s := by
  intro t
  have hplan : t.plan = s.plan := State.raise_plan _ _ _
  refine ⟨?_, ?_, ?_, State.eventSet_raise _ _ _ (by decide), ?_, (((RegsOnly.refl s).put _ _).put _ _ |>.raise _ _).frame⟩
  · rw [← hplan]
    rfl
  · unfold t
    rw [State.get_raise_other _ (by decide) (by decide), State.get_put_other _ _ (by decide), State.get_put_self _ _ _ (by decide)]
    rfl
  · unfold t
    rw [State.get_raise_other _ (by decide) (by decide), State.get_put_self _ _ _ (by decide)]
    rfl
  · exact (((FieldsBut.refl _ s).put (by simp) 5).put (by simp) 3).raise (by simp [eventFields]) (by simp [eventFields])

/-! ### A result counted (R301) -/

/-- A result counted, a kept one also as kept. -/
def State.planKeptCount (s : State) (flags : Nat) : State :=
  if flags.testBit 1 then ((s.count F.PLAN_RESULTS_count 1).count F.PLAN_KEPT_count 1).raise pgPLAN Ev.PLAN_kept
  else s.count F.PLAN_RESULTS_count 1

theorem State.planCount_eq (s : State) (flags : Nat) : s.planCount flags
    = (((s.planKeptCount flags).raiseIf (flags.testBit 2) pgPLAN Ev.PLAN_epoch_advanced).raiseIf (flags.testBit 3) pgPLAN
        Ev.PLAN_no_path).raiseIf (flags.testBit 5) pgPLAN Ev.PLAN_uncorrectable := rfl

theorem State.planKeptCount_spec (s : State) (flags : Nat) :
    let t := s.planKeptCount flags
    t.get F.PLAN_RESULTS_count = (s.get F.PLAN_RESULTS_count + 1) % 2 ^ 32
      ∧ t.get F.PLAN_KEPT_count = (s.get F.PLAN_KEPT_count + if flags.testBit 1 then 1 else 0) % 2 ^ 32
      ∧ (∀ e < 32, t.eventSet pgPLAN e = (s.eventSet pgPLAN e || (flags.testBit 1 && Ev.PLAN_kept == e)))
      ∧ FieldsBut ([F.PLAN_RESULTS_count, F.PLAN_KEPT_count] ++ eventFields pgPLAN Ev.PLAN_kept) s t ∧ RegsOnly s t := by
  intro t
  have hone : FieldsBut ([F.PLAN_RESULTS_count, F.PLAN_KEPT_count] ++ eventFields pgPLAN Ev.PLAN_kept) s (s.count F.PLAN_RESULTS_count 1) :=
    (FieldsBut.refl _ s).count (by simp) 1
  have hlow : ∀ (u : State) (f : Fld) (e : Nat), f.off / 4 ≠ 4 → f.off < 0x800 → (u.count f 1).eventSet pgPLAN e = u.eventSet pgPLAN e :=
    fun u f e h4 h8 => congrArg (· != 0) (u.get_put_apart (Fld.apart_key (by simp only [regKey]; omega)) _)
  by_cases hkept : flags.testBit 1 = true
  · have ht : t = ((s.count F.PLAN_RESULTS_count 1).count F.PLAN_KEPT_count 1).raiseIf true pgPLAN Ev.PLAN_kept := if_pos hkept
    rw [ht, hkept, if_pos rfl]
    refine ⟨?_, ?_, fun e he => ?_, ?_, (((RegsOnly.refl s).put _ _).put _ _).raiseIf _ _ _⟩
    · rw [State.get_raiseIf_other _ _ (by decide) (by decide), State.count_eq _ F.PLAN_KEPT_count, State.get_put_other _ _ (by decide),
        State.get_count_word _ (by decide)]
    · rw [State.get_raiseIf_other _ _ (by decide) (by decide), State.get_count_word _ (by decide), State.count_eq,
        State.get_put_other _ _ (by decide)]
    · rw [State.eventSet_raiseIf_eq _ _ _ (by decide) he, hlow _ _ _ (by decide) (by decide), hlow _ _ _ (by decide) (by decide)]
    · exact (hone.count (by simp) 1).raiseIf (by simp [eventFields]) (by simp [eventFields]) true
  · have ht : t = s.count F.PLAN_RESULTS_count 1 := if_neg hkept
    rw [ht, if_neg hkept]
    refine ⟨State.get_count_word _ (by decide) 1, ?_, fun e _ => ?_, hone, (RegsOnly.refl s).put _ _⟩
    · rw [State.count_eq, State.get_put_other _ _ (by decide), Nat.add_zero]
      exact (Nat.mod_eq_of_lt (s.get_lt_size ⟨by decide, by decide⟩)).symm
    · rw [hlow _ _ _ (by decide) (by decide), Bool.eq_false_iff.2 hkept, Bool.false_and, Bool.or_false]

theorem State.planCount_regsOnly (s : State) (flags : Nat) : RegsOnly s (s.planCount flags) := by
  obtain ⟨-, -, -, -, hregs⟩ := s.planKeptCount_spec flags
  exact ((hregs.raiseIf _ _ _).raiseIf _ _ _).raiseIf _ _ _

/-- The counters and events of a result. -/
theorem State.planCount_spec (s : State) (flags : Nat) :
    let t := s.planCount flags
    t.get F.PLAN_RESULTS_count = (s.get F.PLAN_RESULTS_count + 1) % 2 ^ 32
      ∧ t.get F.PLAN_KEPT_count = (s.get F.PLAN_KEPT_count + if flags.testBit 1 then 1 else 0) % 2 ^ 32
      ∧ (∀ p ∈ [(Ev.PLAN_kept, 1), (Ev.PLAN_epoch_advanced, 2), (Ev.PLAN_no_path, 3), (Ev.PLAN_uncorrectable, 5)],
          t.eventSet pgPLAN p.1 = (s.eventSet pgPLAN p.1 || flags.testBit p.2))
      ∧ FieldsBut ([F.PLAN_RESULTS_count, F.PLAN_KEPT_count] ++ eventFields pgPLAN Ev.PLAN_kept ++ eventFields pgPLAN Ev.PLAN_epoch_advanced
          ++ eventFields pgPLAN Ev.PLAN_no_path ++ eventFields pgPLAN Ev.PLAN_uncorrectable) s t
      ∧ { t with regs := s.regs, flt := s.flt } = s := by
  intro t
  obtain ⟨hresults, hkept, hevents, hfields, -⟩ := s.planKeptCount_spec flags
  have hother : ∀ g : Fld, F.PCIE_MSI_PEND_pending.apartTest g = true → (∀ b ∈ [Ev.PLAN_epoch_advanced, Ev.PLAN_no_path,
      Ev.PLAN_uncorrectable], (Fld.mk pgPLAN 0x10 b b).apartTest g = true) → t.get g = (s.planKeptCount flags).get g := fun g hm hb => by
    unfold t
    rw [State.planCount_eq, State.get_raiseIf_other _ _ (hb _ (by simp)) hm, State.get_raiseIf_other _ _ (hb _ (by simp)) hm,
      State.get_raiseIf_other _ _ (hb _ (by simp)) hm]
  refine ⟨(hother _ (by decide) (by decide)).trans hresults, (hother _ (by decide) (by decide)).trans hkept, fun p hp => ?_, ?_,
    (s.planCount_regsOnly flags).frame⟩
  · have hp32 : p.1 < 32 := by
      revert p
      decide
    unfold t
    rw [State.planCount_eq, State.eventSet_raiseIf_eq _ _ _ (by decide) hp32, State.eventSet_raiseIf_eq _ _ _ (by decide) hp32,
      State.eventSet_raiseIf_eq _ _ _ (by decide) hp32, hevents _ hp32]
    simp only [List.mem_cons, List.not_mem_nil, or_false] at hp
    rcases hp with rfl | rfl | rfl | rfl <;>
      simp [Ev.PLAN_kept, Ev.PLAN_epoch_advanced, Ev.PLAN_no_path, Ev.PLAN_uncorrectable]
  · refine (((hfields.mono fun f hf => ?_).raiseIf ?_ ?_ _).raiseIf ?_ ?_ _).raiseIf ?_ ?_ _
    · exact List.mem_append_left _ (List.mem_append_left _ (List.mem_append_left _ hf))
    all_goals simp [eventFields]

end Sys2Proof.Machine
end

section
/-! SUPPORT. PLAN_CTRL (R303, R309, R310): a fault resumed, the enable, the headers of the plan slots cleared. -/

namespace Sys2Proof.Machine

/-! ### Resume (R309) -/

/-- The state after the resume bit of PLAN_CTRL: a faulted engine has left state faulted. -/
def State.planResumed (s : State) (w : Word) : State :=
  if w.getLsbD 1 && s.get F.PLAN_STATUS_state == 3 then (s.put F.PLAN_STATUS_state 0).planShow else s

theorem State.planCtrl_eq (s : State) (w : Word) : s.planCtrl w = if w.getLsbD 0 then
      if (s.planResumed w).flag F.PLAN_CTRL_enable then s.planResumed w
      else if !(s.planResumed w).planBaseOk then (s.planResumed w).put F.COLL_STATUS_cfg_err 1
      else ({ s.planResumed w with plan := { (s.planResumed w).plan with
        base := (s.planResumed w).addr F.PLAN_SLOT_BASE_LO_base } }.clearSlots.put F.PLAN_CTRL_enable 1).planShow
    else ((s.planResumed w).put F.PLAN_CTRL_enable 0).planShow := rfl

/-- The fields of PLAN_STATUS. -/
def planStatusFields : List Fld := [F.PLAN_STATUS_state, F.PLAN_STATUS_halves, F.PLAN_STATUS_in_flight]

/-- Resume changes PLAN_STATUS alone. -/
theorem State.planResumed_spec (s : State) (w : Word) :
    FieldsBut planStatusFields s (s.planResumed w)
      ∧ { s.planResumed w with regs := s.regs } = s := by
  unfold State.planResumed
  split
  · obtain ⟨-, -, -, hfields, hframe⟩ := (s.put F.PLAN_STATUS_state 0).planShow_spec
    exact ⟨((FieldsBut.refl _ s).put (by simp [planStatusFields]) 0).trans hfields, congrArg (fun u : State => { u with regs := s.regs }) hframe⟩
  · exact ⟨FieldsBut.refl _ s, rfl⟩

theorem State.planResumed_get (s : State) (w : Word) {g : Fld} (h : ∀ f ∈ planStatusFields, f.apartTest g = true) : (s.planResumed w).get g = s.get g :=
  (s.planResumed_spec w).1 g fun f hf => Fld.apart_of_test (h f hf)

theorem State.planResumed_flag (s : State) (w : Word) {g : Fld} (h : ∀ f ∈ planStatusFields, f.apartTest g = true) : (s.planResumed w).flag g = s.flag g :=
  congrArg (· != 0) (s.planResumed_get w h)

theorem State.planResumed_addr (s : State) (w : Word) : (s.planResumed w).addr F.PLAN_SLOT_BASE_LO_base = s.addr F.PLAN_SLOT_BASE_LO_base :=
  State.addr_of_get fun o ho => s.planResumed_get w (by rcases ho with rfl | rfl <;> decide)

theorem State.planResumed_plan (s : State) (w : Word) : (s.planResumed w).plan = s.plan :=
  (congrArg State.plan (s.planResumed_spec w).2 :)

theorem State.planResumed_sameMap (s : State) (w : Word) : SameMap s (s.planResumed w) := by
  have hframe := (s.planResumed_spec w).2
  refine ⟨s.planResumed_get w (by decide), fun n => (s.planResumed_spec w).1 _ fun f hf => Fld.apart_key ?_,
    (congrArg State.spilled hframe :), (congrArg State.cond hframe :), fun h => ?_⟩
  · simp only [planStatusFields, List.mem_cons, List.not_mem_nil, or_false] at hf
    rcases hf with rfl | rfl | rfl <;> simp only [regKey] <;> omega
  · exact (congrArg State.uninjected hframe :).trans h

theorem State.planResumed_baseOk (s : State) (w : Word) : (s.planResumed w).planBaseOk = s.planBaseOk := by
  have hcoll : (s.planResumed w).coll = s.coll := (congrArg State.coll (s.planResumed_spec w).2 :)
  have hregion : (s.planResumed w).planRegion = s.planRegion := by
    simp only [State.planRegion, s.planResumed_flag w (g := F.PLAN_CTRL_enable) (by decide), s.planResumed_addr,
      s.planResumed_plan]
  have hregions : (s.planResumed w).collRegions = s.collRegions := by
    simp only [State.collRegions, State.wsAt, State.triAt, State.rfxAt, hcoll]
  simp only [State.planBaseOk, hregion, hregions, (s.planResumed_sameMap w).inHub,
    s.planResumed_flag w (g := F.COLL_CTRL_enable) (by decide)]

/-! ### The headers of the plan slots (R303) -/

/-- Over hub SRAM in which no word is in error the first 16 bytes of every half are cleared, and nothing else happens. -/
theorem State.clearSlots_hub {s : State} (hc : s.cond = []) (hs : s.spilled = []) (hlo : hubBase ≤ s.planAt 0 0)
    (hhi : s.planAt 0 0 + 64 * 0x2000 ≤ hubBase + 96 * 1048576) : s.clearSlots = { s with
      mem := (List.range 128).foldl (fun m k => cellWrite m (s.planAt 0 0 + 0x1000 * k) (List.replicate 16 0#8)) s.mem } := by
  suffices hrest : ∀ (l : List Nat) (m : List Host.Cell), (∀ k ∈ l, k < 128) →
      l.foldl (fun u k => u.storeRaw (u.planAt 0 0 + 0x1000 * k) (List.replicate 16 0#8)) { s with mem := m }
        = { s with mem := l.foldl (fun m k => cellWrite m (s.planAt 0 0 + 0x1000 * k) (List.replicate 16 0#8)) m } from
    hrest _ s.mem fun k hk => List.mem_range.1 hk
  intro l
  induction l with
  | nil => exact fun m _ => rfl
  | cons k l ih =>
    intro m hl
    have hk := hl k List.mem_cons_self
    have hstep : ({ s with mem := m } : State).storeRaw (s.planAt 0 0 + 0x1000 * k) (List.replicate 16 0#8)
        = { s with mem := cellWrite m (s.planAt 0 0 + 0x1000 * k) (List.replicate 16 0#8) } :=
      State.storeRaw_hub hc hs (by omega) (by rw [List.length_replicate]; omega) (by decide)
    rw [List.foldl_cons, List.foldl_cons]
    exact (congrArg (List.foldl _ · l) hstep).trans (ih _ fun i hi => hl i (List.mem_cons_of_mem k hi))

/-! ### A write of PLAN_CTRL -/

section
variable {acc : Acc} {s s2 : State} {w : Word} (h : s.written pgPLAN 0x020 acc = some (s2, w)) {c : Instr}
  (hc : c = .planEnable acc ∨ c = .planResume acc)
include h hc

theorem exec_planCtrl : exec c s = .next (s2.planCtrl w) := by
  rcases hc with rfl | rfl <;> exact congrArg Host.Outcome.next (State.command_of_written h State.planCtrl)

theorem exec_planCtrl_clear (hw : w.getLsbD 0 = false) :
    exec c s = .next (((s2.planResumed w).put F.PLAN_CTRL_enable 0).planShow) := by
  rw [exec_planCtrl h hc, State.planCtrl_eq, if_neg (Bool.eq_false_iff.1 hw)]

section
variable (hw : w.getLsbD 0 = true)
include hw

theorem exec_planCtrl_again (hon : s2.get F.PLAN_CTRL_enable = 1) : exec c s = .next (s2.planResumed w) := by
  rw [exec_planCtrl h hc, State.planCtrl_eq, if_pos hw,
    if_pos ((s2.planResumed_flag w (by decide)).trans (State.flag_of_get_one hon))]

variable (hoff : s2.get F.PLAN_CTRL_enable = 0)
include hoff

theorem exec_planCtrl_refused (hbase : s2.planBaseOk = false) : exec c s = .next ((s2.planResumed w).put F.COLL_STATUS_cfg_err 1) := by
  rw [exec_planCtrl h hc, State.planCtrl_eq, if_pos hw,
    if_neg (by rw [s2.planResumed_flag w (by decide), State.flag_of_get_zero hoff]; decide),
    if_pos (by rw [s2.planResumed_baseOk, hbase]; rfl)]

theorem exec_planCtrl_starts (hbase : s2.planBaseOk = true) : exec c s = .next
    (({ s2.planResumed w with plan := { s2.plan with base := s2.addr F.PLAN_SLOT_BASE_LO_base } }.clearSlots.put F.PLAN_CTRL_enable
      1).planShow) := by
  rw [exec_planCtrl h hc, State.planCtrl_eq, if_pos hw,
    if_neg (by rw [s2.planResumed_flag w (by decide), State.flag_of_get_zero hoff]; decide),
    if_neg (by rw [s2.planResumed_baseOk, hbase]; decide), s2.planResumed_plan, s2.planResumed_addr]

end

end

/-- A sound slot region lies in hub SRAM where PLAN_SLOT_BASE puts it. -/
theorem State.slots_in_hub {s : State} (hoff : s.get F.PLAN_CTRL_enable = 0) (hbase : s.planBaseOk = true) :
    hubBase ≤ s.addr F.PLAN_SLOT_BASE_LO_base ∧ s.addr F.PLAN_SLOT_BASE_LO_base + 64 * 0x2000 ≤ hubBase + 96 * 1048576 := by
  have hregion : s.planRegion = (s.addr F.PLAN_SLOT_BASE_LO_base, 64 * 0x2000) := by
    rw [State.planRegion, State.flag_of_get_zero hoff]
    rfl
  rw [State.planBaseOk, hregion, Bool.and_eq_true] at hbase
  exact State.hub_of_inHub hbase.1 (by decide)

/-- At an enable the headers of the slots are cleared in their new place. -/
theorem State.clearSlots_started {s : State} (hc : s.cond = []) (hs : s.spilled = []) (hoff : s.get F.PLAN_CTRL_enable = 0)
    (hbase : s.planBaseOk = true) (w : Word) :
    let based := { s.planResumed w with plan := { s.plan with base := s.addr F.PLAN_SLOT_BASE_LO_base } }
    based.clearSlots = { based with
      mem := (List.range 128).foldl (fun m k => cellWrite m (based.planAt 0 0 + 0x1000 * k) (List.replicate 16 0#8)) s.mem } := by
  intro based
  obtain ⟨hlo, hhi⟩ := State.slots_in_hub hoff hbase
  have hframe := (s.planResumed_spec w).2
  have hcond : based.cond = s.cond := (congrArg State.cond hframe :)
  have hspilled : based.spilled = s.spilled := (congrArg State.spilled hframe :)
  have hmem : based.mem = s.mem := (congrArg State.mem hframe :)
  rw [← hmem]
  exact State.clearSlots_hub (hcond.trans hc) (hspilled.trans hs) hlo hhi

end Sys2Proof.Machine
end

section
/-! SUPPORT. The commands of a plan list: LOAD and the check of its image (R290, R291), PLAN (R298, R306). -/

namespace Sys2Proof.Machine

/-! ### What an access of main memory leaves to the checks of a command -/

namespace Accessed
variable {s t : State} (h : Accessed s t)
include h

theorem mem : t.mem = s.mem := (congrArg State.mem h.frame :)

theorem plan : t.plan = s.plan := (congrArg State.plan h.frame :)

theorem place (a : Nat) : t.place a = s.place a := by simp only [State.place, h.sameMap.spilled, h.sameMap.region]

theorem bytes (a n : Nat) : t.bytes a n = s.bytes a n := by
  simp only [State.bytes, h.place, h.mem]

theorem poisonedAt (a n : Nat) : t.poisonedAt a n = s.poisonedAt a n := by
  simp only [State.poisonedAt, h.place, h.sameMap.storeAt, h.sameMap.cond]

theorem planOpen (j : Job) : t.planOpen j = s.planOpen j := by simp only [State.planOpen, h.plan]

theorem rmEdges (m : Nat) : t.rmEdges m = s.rmEdges m := by simp only [State.rmEdges, State.peekNat, h.bytes]

theorem rmEdge (m e : Nat) : t.rmEdge m e = s.rmEdge m e := by
  simp only [State.rmEdge, State.rmEdgeAt, State.rmNodes, State.peekNat, h.bytes]

theorem planFieldsOk (c : List Byte) : t.planFieldsOk c = s.planFieldsOk c := by
  simp only [State.planFieldsOk, h.plan, h.rmEdges, h.sameMap.inMemory, h.sameMap.inHub]

theorem planStopsOk (m table count : Nat) : t.planStopsOk m table count = s.planStopsOk m table count := by
  simp only [State.planStopsOk, h.rmEdges, h.rmEdge, State.peek, h.bytes, h.poisonedAt]

end Accessed

/-- A command fetched leaves the fields of PLAN. -/
theorem State.fetched_get (s : State) (j : Job) {g : Fld} (h : regKey g.page g.off / 512 < 64) : (s.fetched j).get g = s.get g :=
  (s.fetched_accessed j).get g (Fld.not_showsAccess_of_low h)

/-! ### LOAD (R291, R306) -/

section
variable {s : State} {id : JobId} {j : Job} {c : List Byte} (h : s.commandAt id 5 2 = some (j, c))
include h

theorem exec_load_waits (hw : s.get F.PLAN_CTRL_enable = 0 ∨ s.planOpen j = true ∨ s.plan.loading ≠ none) :
    exec (.load id) s = .next (s.fetched j) := by
  have hfetch := s.fetched_accessed j
  refine congrArg Host.Outcome.next ((State.listCommand_due h rfl _).trans (if_pos ?_))
  rw [hfetch.planOpen, hfetch.plan, Option.isSome_iff_ne_none]
  refine hw.imp_left fun hoff => ?_
  rw [State.flag_of_get_zero ((s.fetched_get j (by decide)).trans hoff)]
  rfl

theorem exec_load_taken (hon : s.get F.PLAN_CTRL_enable = 1) (hopen : s.planOpen j = false) (hfree : s.plan.loading = none) :
    exec (.load id) s = .next { (s.fetched j).modJob j.queue j.index (fun j => { j with busy := true }) with
      plan := { s.plan with loading := some (j.queue, j.index) } } := by
  have hfetch := s.fetched_accessed j
  rw [← hfetch.plan]
  refine congrArg Host.Outcome.next ((State.listCommand_due h rfl _).trans (if_neg ?_))
  rw [hfetch.planOpen, hfetch.plan, hopen, hfree, State.flag_of_get_one ((s.fetched_get j (by decide)).trans hon)]
  decide

end

/-! ### PLAN (R298, R306) -/

/-- The query that a PLAN command asks for: numbered in its slot. -/
def State.queryOf (s : State) (j : Job) (c : List Byte) : PlanQ where
  queue := j.queue
  index := j.index
  cmd := j.cmd
  tile := j.plans
  slot := fieldAt c 1 1
  rm := fieldAt c 2 1
  number := (tabGet s.plan.numbers (fieldAt c 1 1) 0 + 1) % 2 ^ 32
  cost := fieldAt c 8 8
  stops := fieldAt c 0x10 8

/-- The query of a PLAN command taken behind the others; its list stands at the next command. -/
def State.planTaken (s : State) (j : Job) (c : List Byte) : State :=
  ({ s.modJob j.queue j.index (fun j => { j with cmd := j.cmd + 1, plans := j.plans + 1 }) with
    plan := { s.plan with
      numbers := tabSet s.plan.numbers (fieldAt c 1 1) (s.queryOf j c).number
      queries := s.plan.queries ++ [s.queryOf j c] } }).planShow

section
variable {s : State} {id : JobId} {j : Job} {c : List Byte} {op : Nat} (h1 : op ≠ 1) (h2 : op ≠ 2)
  (h : s.commandAt id 5 op = some (j, c))
include h1 h2 h

theorem exec_plan_off (hoff : s.get F.PLAN_CTRL_enable = 0) : exec (.plan id) s = .next (s.fetched j) := by
  refine congrArg Host.Outcome.next ((State.listCommand_due h (decide_eq_true ⟨h1, h2⟩) _).trans (if_pos ?_))
  rw [State.flag_of_get_zero ((s.fetched_get j (by decide)).trans hoff)]
  rfl

section
variable (hon : s.get F.PLAN_CTRL_enable = 1)
include hon

theorem exec_plan_faulted (hstate : s.get F.PLAN_STATUS_state = 3) : exec (.plan id) s = .next ((s.fetched j).planFail j 5) := by
  refine congrArg Host.Outcome.next ((State.listCommand_due h (decide_eq_true ⟨h1, h2⟩) _).trans ((if_neg ?_).trans
    (if_pos ((s.fetched_get j (by decide)).trans hstate))))
  rw [State.flag_of_get_one ((s.fetched_get j (by decide)).trans hon)]
  decide

variable (hstate : s.get F.PLAN_STATUS_state ≠ 3)
include hstate

/-- A PLAN command that finds the engine running is checked. -/
theorem exec_plan_checked {t : State}
    (ht : (if fieldAt c 0 1 ≠ 3 ∨ !(s.fetched j).planFieldsOk c then (s.fetched j).planFail j 4
      else if !(s.fetched j).planStopsOk (tabGet (s.fetched j).plan.maps (fieldAt c 2 1) 0) (fieldAt c 0x10 8) (fieldAt c 0x18 2) then
        (s.fetched j).planFail j 3
      else (s.fetched j).planTaken j c) = t) :
    exec (.plan id) s = .next t := by
  refine congrArg Host.Outcome.next ((State.listCommand_due h (decide_eq_true ⟨h1, h2⟩) _).trans ((if_neg ?_).trans
    ((if_neg fun h3 => hstate ((s.fetched_get j (by decide)).symm.trans h3)).trans ht)))
  rw [State.flag_of_get_one ((s.fetched_get j (by decide)).trans hon)]
  decide

theorem exec_plan_malformed (hbad : op ≠ 3 ∨ s.planFieldsOk c = false) : exec (.plan id) s = .next ((s.fetched j).planFail j 4) := by
  refine exec_plan_checked h1 h2 h hon hstate (if_pos ?_)
  rw [State.opcode_of_commandAt h, (s.fetched_accessed j).planFieldsOk, Bool.not_eq_true']
  exact hbad

variable (hop : op = 3) (hfields : s.planFieldsOk c = true)
include hop hfields

theorem exec_plan_badStop (hstops : s.planStopsOk (tabGet s.plan.maps (fieldAt c 2 1) 0) (fieldAt c 0x10 8) (fieldAt c 0x18 2) = false) :
    exec (.plan id) s = .next ((s.fetched j).planFail j 3) := by
  have hfetch := s.fetched_accessed j
  refine exec_plan_checked h1 h2 h hon hstate ((if_neg ?_).trans (if_pos ?_))
  · rw [State.opcode_of_commandAt h, hfetch.planFieldsOk, hfields]
    simp [hop]
  · rw [hfetch.plan, hfetch.planStopsOk, hstops]
    rfl

theorem exec_plan_taken (hstops : s.planStopsOk (tabGet s.plan.maps (fieldAt c 2 1) 0) (fieldAt c 0x10 8) (fieldAt c 0x18 2) = true) :
    exec (.plan id) s = .next ({ (s.fetched j).modJob j.queue j.index (fun j => { j with cmd := j.cmd + 1, plans := j.plans + 1 }) with
      plan := { s.plan with
        numbers := tabSet s.plan.numbers (fieldAt c 1 1) (s.queryOf j c).number
        queries := s.plan.queries ++ [s.queryOf j c] } }).planShow := by
  have hfetch := s.fetched_accessed j
  refine exec_plan_checked h1 h2 h hon hstate ((if_neg ?_).trans ((if_neg ?_).trans ?_))
  · rw [State.opcode_of_commandAt h, hfetch.planFieldsOk, hfields]
    simp [hop]
  · rw [hfetch.plan, hfetch.planStopsOk, hstops]
    decide
  · rw [State.planTaken, State.queryOf, hfetch.plan]
    rfl

end

end

/-! ### ROADMAP_CHECK (R290, R291) -/

theorem any_bne_zero_iff (l : List Byte) : l.any (· != 0#8) = true ↔ ¬(l.all (· == 0#8) = true) := by
  simp only [List.any_eq_true, bne_iff_ne, List.all_eq_true, beq_iff_eq, not_forall, exists_prop]

/-- The LOAD command at an address is sound (R291): a roadmap slot, zeros elsewhere. -/
def loadSound (c : List Byte) : Prop :=
  fieldAt c 1 1 < 2 ∧ (bytesAt c 2 6).all (· == 0#8) = true ∧ (c.drop 16).all (· == 0#8) = true

theorem State.commandBytes_plain {s : State} {j : Job} {c : List Byte}
    (hplain : s.plainMem (j.program + 32 + listBytes j.cls * j.cmd) (listBytes j.cls) = true)
    (hb : s.bytes (j.program + 32 + listBytes j.cls * j.cmd) (listBytes j.cls) = c) : (s.commandBytes j).2 = (c, false) := by
  rw [State.commandBytes, State.load_plainMem hplain, hb]

theorem exec_roadmapCheck_none {s : State} {id : JobId} (h : s.jobOf id = none) : exec (.roadmapCheck id) s = .next s := by
  change execRoadmapCheck id s = _
  rw [execRoadmapCheck, h]

section
variable {s : State} {id : JobId} {j : Job} (h : s.jobOf id = some j)
include h

/-- The check of a LOAD's image, its command's bytes and poison named. -/
theorem exec_roadmapCheck_of_job {c : List Byte} {bad : Bool} (hc : (s.commandBytes j).2 = (c, bad)) {t : State}
    (ht : (if s.plan.loading ≠ some (j.queue, j.index) ∨ s.plan.queries.any (fun q => decide (q.rm = fieldAt c 1 1)) then s
      else if 1 < fieldAt c 1 1 ∨ bad ∨ (bytesAt c 2 6).any (· != 0#8) ∨ (c.drop 16).any (· != 0#8) then
        { s with plan := { s.plan with loading := none } }.loadFail j 4 0 bad
      else (s.rmFault (fieldAt c 8 8)).elim
        ({ s with plan := { s.plan with
            loading := none
            maps := tabSet s.plan.maps (fieldAt c 1 1) (fieldAt c 8 8) } }.commandDone j.queue j.index none)
        fun i => { s with plan := { s.plan with loading := none } }.loadFail j 1 i (s.poisonedAt (fieldAt c 8 8) 64)) = t) :
    exec (.roadmapCheck id) s = .next t := by
  change execRoadmapCheck id s = _
  rw [execRoadmapCheck, h, ← ht]
  simp only [hc]
  cases s.rmFault (fieldAt c 8 8) <;> rfl

theorem exec_roadmapCheck_other (hl : s.plan.loading ≠ some (j.queue, j.index)) : exec (.roadmapCheck id) s = .next s :=
  exec_roadmapCheck_of_job h rfl (if_pos (.inl hl))

variable {c : List Byte} (hplain : s.plainMem (j.program + 32 + listBytes j.cls * j.cmd) (listBytes j.cls) = true)
  (hb : s.bytes (j.program + 32 + listBytes j.cls * j.cmd) (listBytes j.cls) = c)
include hplain hb

theorem exec_roadmapCheck_waits (hused : s.plan.queries.any (fun q => decide (q.rm = fieldAt c 1 1)) = true) :
    exec (.roadmapCheck id) s = .next s :=
  exec_roadmapCheck_of_job h (State.commandBytes_plain hplain hb) (if_pos (.inr hused))

section
variable (hl : s.plan.loading = some (j.queue, j.index)) (hfree : s.plan.queries.any (fun q => decide (q.rm = fieldAt c 1 1)) = false)
include hl hfree

theorem exec_roadmapCheck_unsound (hs : ¬loadSound c) :
    exec (.roadmapCheck id) s = .next ({ s with plan := { s.plan with loading := none } }.loadFail j 4 0 false) := by
  refine exec_roadmapCheck_of_job h (State.commandBytes_plain hplain hb) ((if_neg (by simp [hl, hfree])).trans (if_pos ?_))
  rw [any_bne_zero_iff, any_bne_zero_iff]
  simp only [loadSound, not_and_or, not_lt] at hs
  exact hs.imp_right .inr

theorem exec_roadmapCheck_sound (hs : loadSound c) : exec (.roadmapCheck id) s = .next ((s.rmFault (fieldAt c 8 8)).elim
    ({ s with plan := { s.plan with
        loading := none
        maps := tabSet s.plan.maps (fieldAt c 1 1) (fieldAt c 8 8) } }.commandDone j.queue j.index none)
    fun i => { s with plan := { s.plan with loading := none } }.loadFail j 1 i (s.poisonedAt (fieldAt c 8 8) 64)) := by
  refine exec_roadmapCheck_of_job h (State.commandBytes_plain hplain hb) ((if_neg (by simp [hl, hfree])).trans (if_neg ?_))
  rw [any_bne_zero_iff, any_bne_zero_iff]
  obtain ⟨hslot, hzero, hrest⟩ := hs
  simp [Nat.le_of_lt_succ hslot, hzero, hrest]

end

end

end Sys2Proof.Machine
end

section
/-! SUPPORT. Sweeps of plan queries (R292, R293, R300), their selection and final checks (R294 to R298, R307, R309). -/

namespace Sys2Proof.Machine

/-! ### Sweeps (R292, R293, R300) -/

/-- The bank halves that no sweep holds. -/
def State.freeHalves (s : State) : List Nat := [0, 1].filter fun h => !s.planHalves.contains h

/-- The bank halves that the sweep of a query needs. -/
def State.halvesNeeded (s : State) (q : PlanQ) : Nat := if 8192 < s.rmEdges (s.planMap q) then 2 else 1

/-- A query that begins its sweep takes epoch, buffer, leaf budget and bank halves. -/
def State.sweepBegun (s : State) (q : PlanQ) : State :=
  (s.setPlanQ { q with
    phase := .sweeping
    epoch := s.get F.COLL_EPOCH_epoch
    buf := s.coll.current
    budget := s.get F.PLAN_LEAF_BUDGET_leaves
    halves := s.freeHalves.take (s.halvesNeeded q) }).planShow

section
variable {slot : Fin 64} {ns : Nat} {s : State} {q : PlanQ}

theorem exec_sweepStart_of_waiting (hw : s.plan.queries.find? (fun q => decide (q.phase = .waiting)) = some q) {t : State}
    (ht : (if q.slot ≠ slot.val ∨ s.freeHalves.length < s.halvesNeeded q ∨ !s.epochDue q 8 then s else s.sweepBegun q) = t) :
    exec (.sweepStart slot) s = .next t := by
  change execSweepStart slot s = _
  rw [execSweepStart, hw, ← ht]
  rfl

/-- Nothing happens unless the oldest waiting query is of the slot. -/
theorem exec_sweepStart_other
    (h : (s.plan.queries.find? fun q => decide (q.phase = .waiting)).all (fun q => decide (q.slot ≠ slot.val)) = true) :
    exec (.sweepStart slot) s = .next s := by
  cases hw : s.plan.queries.find? fun q => decide (q.phase = .waiting) with
  | none =>
    change execSweepStart slot s = _
    rw [execSweepStart, hw]
  | some q =>
    rw [hw] at h
    exact exec_sweepStart_of_waiting hw (if_pos (.inl (of_decide_eq_true h)))

section
variable (hw : s.plan.queries.find? (fun q => decide (q.phase = .waiting)) = some q)
include hw

theorem exec_sweepStart_waits (h : s.freeHalves.length < s.halvesNeeded q ∨ s.epochDue q 8 = false) :
    exec (.sweepStart slot) s = .next s :=
  exec_sweepStart_of_waiting hw (if_pos (.inr (h.imp_right (by simp [·]))))

theorem exec_sweepStart_begins (hslot : q.slot = slot.val) (hfree : s.halvesNeeded q ≤ s.freeHalves.length) (hdue : s.epochDue q 8 = true) :
    exec (.sweepStart slot) s = .next (s.sweepBegun q) :=
  exec_sweepStart_of_waiting hw (if_neg (by simp [hslot, hdue, hfree]))

end

/-- The longest sweep shown. -/
theorem State.sweepTimed_spec (s : State) (ns : Nat) :
    let t := s.putMax F.PLAN_SWEEP_MAX_NS_ns ns
    t.get F.PLAN_SWEEP_MAX_NS_ns = max (s.get F.PLAN_SWEEP_MAX_NS_ns) (min ns 65535) ∧ FieldsBut [F.PLAN_SWEEP_MAX_NS_ns] s t
      ∧ { t with regs := s.regs } = s := by
  refine ⟨s.get_putMax_self ⟨by decide, by decide⟩ ns, (FieldsBut.refl _ s).putMax (by simp) ns, ?_⟩
  unfold State.putMax
  split <;> rfl

/-- The sweep of a query that has ended ends. -/
theorem exec_sweepDone_tail (h : s.plan.tails.any (fun t => decide (t.1 = slot.val)) = true) : exec (.sweepDone slot ns) s
    = .next (({ s with plan := { s.plan with tails := dropTail slot.val s.plan.tails } } : State).putMax F.PLAN_SWEEP_MAX_NS_ns ns).planShow :=
  congrArg Host.Outcome.next (if_pos h)

section
variable (htails : s.plan.tails.any (fun t => decide (t.1 = slot.val)) = false)
include htails

theorem exec_sweepDone_none (h : s.plan.queries.find? (fun q => decide (q.slot = slot.val ∧ q.phase = .sweeping)) = none) :
    exec (.sweepDone slot ns) s = .next s := by
  refine congrArg Host.Outcome.next ((if_neg (Bool.eq_false_iff.1 htails)).trans ?_)
  rw [h]

theorem exec_sweepDone_query (h : s.plan.queries.find? (fun q => decide (q.slot = slot.val ∧ q.phase = .sweeping)) = some q) :
    exec (.sweepDone slot ns) s = .next ((s.setPlanQ { q with
      phase := .selecting
      edges := (List.range (s.rmEdges (s.planMap q))).map (s.sweepEdge q) }).putMax F.PLAN_SWEEP_MAX_NS_ns ns).planShow := by
  refine congrArg Host.Outcome.next ((if_neg (Bool.eq_false_iff.1 htails)).trans ?_)
  rw [h]

end

end

/-! ### The end of a selection and of an attempt (R295, R297, R298, R309) -/

section
variable {e : SelectorEnd} {s : State}

theorem exec_selectors_none (h : s.planOldest e.slot.val = none) : exec (.selectionDone e) s = .next s
    ∧ exec (.attemptDone e) s = .next s ∧ exec (.planDeadline e.slot) s = .next s := by
  change execSelectionDone e s = _ ∧ execAttemptDone e s = _ ∧ execPlanDeadline e.slot s = _
  rw [execSelectionDone, execAttemptDone, execPlanDeadline, h]
  exact ⟨rfl, rfl, rfl⟩

variable {q : PlanQ} (h : s.planOldest e.slot.val = some q)
include h

/-- The end of the oldest query's selection, told. -/
theorem exec_selectionDone_of_oldest {t : State} (ht : (if q.phase ≠ .selecting then s else if e.bad then s.planFault
      else if s.poisonedAt q.cost (4 * q.edges.length) then (s.put F.PLAN_ERR_cause 2).planKept q .poisoned
      else if (s.selectPaths q).isEmpty then s.planKept q .noPath else s.attemptStart { q with paths := s.selectPaths q }) = t) :
    exec (.selectionDone e) s = .next t := by
  change execSelectionDone e s = _
  rw [execSelectionDone, h]
  exact congrArg Host.Outcome.next ht

theorem exec_selectionDone_idle (hphase : q.phase ≠ .selecting) : exec (.selectionDone e) s = .next s :=
  exec_selectionDone_of_oldest h (if_pos hphase)

section
variable (hphase : q.phase = .selecting)
include hphase

theorem exec_selectionDone_fault (hbad : e.bad = true) : exec (.selectionDone e) s = .next s.planFault :=
  exec_selectionDone_of_oldest h ((if_neg (not_not_intro hphase)).trans (if_pos hbad))

variable (hbad : e.bad = false)
include hbad

theorem exec_selectionDone_poisoned (hp : s.poisonedAt q.cost (4 * q.edges.length) = true) :
    exec (.selectionDone e) s = .next ((s.put F.PLAN_ERR_cause 2).planKept q .poisoned) :=
  exec_selectionDone_of_oldest h ((if_neg (not_not_intro hphase)).trans ((if_neg (Bool.eq_false_iff.1 hbad)).trans (if_pos hp)))

variable (hp : s.poisonedAt q.cost (4 * q.edges.length) = false)
include hp

theorem exec_selectionDone_noPath (hnone : s.selectPaths q = []) : exec (.selectionDone e) s = .next (s.planKept q .noPath) :=
  exec_selectionDone_of_oldest h ((if_neg (not_not_intro hphase)).trans ((if_neg (Bool.eq_false_iff.1 hbad)).trans
    ((if_neg (Bool.eq_false_iff.1 hp)).trans (if_pos (List.isEmpty_iff.2 hnone)))))

theorem exec_selectionDone_selected (hsome : s.selectPaths q ≠ []) :
    exec (.selectionDone e) s = .next (s.attemptStart { q with paths := s.selectPaths q }) :=
  exec_selectionDone_of_oldest h ((if_neg (not_not_intro hphase)).trans ((if_neg (Bool.eq_false_iff.1 hbad)).trans
    ((if_neg (Bool.eq_false_iff.1 hp)).trans (if_neg (mt List.isEmpty_iff.1 hsome)))))

end

theorem exec_attemptDone_idle (hphase : q.phase ≠ .checking) : exec (.attemptDone e) s = .next s := by
  change execAttemptDone e s = _
  rw [execAttemptDone, h]
  exact congrArg Host.Outcome.next (if_pos hphase)

theorem exec_attemptDone_unbegun (hphase : q.phase = .checking) (hnone : q.attempt = none) :
    exec (.attemptDone e) s = .next (s.attemptStart q) := by
  change execAttemptDone e s = _
  rw [execAttemptDone, h]
  refine congrArg Host.Outcome.next ((if_neg (not_not_intro hphase)).trans ?_)
  rw [hnone]

end

/-- The query with its attempt over. -/
def PlanQ.attempted (q : PlanQ) (epoch : Nat) : PlanQ := { q with epochs := q.epochs ++ [epoch], attempt := none }

/-- An attempt of a further rank told (R298): the first rank's is not. -/
def State.rankTold (s : State) (rank : Nat) : State :=
  if rank = 0 then s else (s.count F.PLAN_FALLTHROUGH_count 1).raise pgPLAN Ev.PLAN_fallthrough

/-- What the end of a query's attempt brings where no word of the selector's own state is bad: a result, the next rank or the end. -/
def State.attemptEnd (s : State) (q : PlanQ) (epoch : Nat) (buf : Option Nat) : State :=
  let rank := q.epochs.length
  let path := (q.path rank).2
  if s.poisonedAt (s.stopOf q path) 2048 then (s.rankTold rank).planKept (q.attempted epoch) .poisoned
  else if (s.attemptChecks q epoch buf path).all Rfx.clear then
    (s.rankTold rank).planFinish (q.attempted epoch) .passed rank (planFlags .passed (epoch != q.epoch) true) (s.planValid q rank epoch buf)
  else if rank + 1 < q.paths.length then ((s.rankTold rank).setPlanQ (q.attempted epoch)).attemptStart (q.attempted epoch)
  else (s.rankTold rank).planKept (q.attempted epoch) .exhausted

theorem exec_attemptDone_over {e : SelectorEnd} {s : State} {q : PlanQ} (h : s.planOldest e.slot.val = some q)
    (hphase : q.phase = .checking) {epoch : Nat} {buf : Option Nat} (ha : q.attempt = some (epoch, buf)) :
    (e.bad = true → exec (.attemptDone e) s = .next s.planFault)
      ∧ (e.bad = false → exec (.attemptDone e) s = .next (s.attemptEnd q epoch buf)) := by
  suffices hend : exec (.attemptDone e) s = .next (if e.bad then s.planFault else s.attemptEnd q epoch buf) from
    ⟨fun hbad => hend.trans (congrArg _ (if_pos hbad)), fun hbad => hend.trans (congrArg _ (if_neg (Bool.eq_false_iff.1 hbad)))⟩
  change execAttemptDone e s = _
  rw [execAttemptDone, h]
  refine congrArg Host.Outcome.next ((if_neg (not_not_intro hphase)).trans ?_)
  have hlen : (q.epochs ++ [epoch]).length = q.epochs.length + 1 := List.length_append
  rw [ha]
  simp only [hlen, State.attemptEnd, State.rankTold, PlanQ.attempted]

section
variable {s : State} {q : PlanQ} {epoch : Nat} {buf : Option Nat}

theorem State.attemptEnd_poisoned (hp : s.poisonedAt (s.stopOf q (q.path q.epochs.length).2) 2048 = true) :
    s.attemptEnd q epoch buf = (s.rankTold q.epochs.length).planKept (q.attempted epoch) .poisoned := if_pos hp

variable (hp : s.poisonedAt (s.stopOf q (q.path q.epochs.length).2) 2048 = false)
include hp

theorem State.attemptEnd_passed (hpass : (s.attemptChecks q epoch buf (q.path q.epochs.length).2).all Rfx.clear = true) :
    s.attemptEnd q epoch buf = (s.rankTold q.epochs.length).planFinish (q.attempted epoch) .passed q.epochs.length
      (planFlags .passed (epoch != q.epoch) true) (s.planValid q q.epochs.length epoch buf) :=
  (if_neg (Bool.eq_false_iff.1 hp)).trans (if_pos hpass)

variable (hpass : (s.attemptChecks q epoch buf (q.path q.epochs.length).2).all Rfx.clear = false)
include hpass

theorem State.attemptEnd_next (hnext : q.epochs.length + 1 < q.paths.length) :
    s.attemptEnd q epoch buf = ((s.rankTold q.epochs.length).setPlanQ (q.attempted epoch)).attemptStart (q.attempted epoch) :=
  (if_neg (Bool.eq_false_iff.1 hp)).trans ((if_neg (Bool.eq_false_iff.1 hpass)).trans (if_pos hnext))

theorem State.attemptEnd_exhausted (hlast : q.paths.length ≤ q.epochs.length + 1) :
    s.attemptEnd q epoch buf = (s.rankTold q.epochs.length).planKept (q.attempted epoch) .exhausted :=
  (if_neg (Bool.eq_false_iff.1 hp)).trans ((if_neg (Bool.eq_false_iff.1 hpass)).trans (if_neg (not_lt.2 hlast)))

end

/-- An attempt begins where a selector's unit is free and its epoch is due; otherwise it waits. -/
theorem State.attemptStart_eq (s : State) (q : PlanQ) : s.attemptStart q = s.setPlanQ { q with
    phase := .checking
    attempt := if s.selectorFree && s.epochDue q (0x10 + 2 * q.epochs.length) then some (s.get F.COLL_EPOCH_epoch, s.coll.current)
      else none } := by
  unfold State.attemptStart
  split <;> rfl

/-! ### Deadlines (R298, R299, R307) -/

section
variable {slot : Fin 64} {s : State} {q : PlanQ} (h : s.planOldest slot.val = some q)
include h

/-- A deadline ends the oldest query kept where it is due: in replay where the query's record says so. -/
theorem exec_planDeadline_due (hdue : s.replaying = false ∨ (s.planRecord q).any
    (fun b => fieldAt b 2 1 == 9 && fieldAt b 1 1 == q.epochs.length) = true) :
    exec (.planDeadline slot) s = .next (s.planKept q .deadline) := by
  change execPlanDeadline slot s = _
  rw [execPlanDeadline, h]
  refine congrArg Host.Outcome.next (if_pos ?_)
  rw [Bool.or_eq_true, Bool.not_eq_true']
  refine hdue.imp_right fun hr => ?_
  cases hrec : s.planRecord q with
  | none => simp [hrec] at hr
  | some b => simpa [hrec] using hr

theorem exec_planDeadline_undue (hdue : ¬(s.replaying = false ∨ (s.planRecord q).any
    (fun b => fieldAt b 2 1 == 9 && fieldAt b 1 1 == q.epochs.length) = true)) :
    exec (.planDeadline slot) s = .next s := by
  change execPlanDeadline slot s = _
  rw [execPlanDeadline, h]
  refine congrArg Host.Outcome.next (if_neg fun hd => hdue ?_)
  rw [Bool.or_eq_true, Bool.not_eq_true'] at hd
  refine hd.imp_right fun hr => ?_
  cases hrec : s.planRecord q with
  | none => simp [hrec] at hr
  | some b => simpa [hrec] using hr

end

end Sys2Proof.Machine
end

section
/-! SUPPORT. The result of a plan query (R301 to R304, R306, R307): written, counted, recorded, told to the twin and the islands. -/

namespace Sys2Proof.Machine

section
variable (q : PlanQ) (outcome flags : Nat) (kept : List Byte) (s : State)

/-- A result written to its half and counted. -/
def State.resultWritten : State := (s.wrote (s.planAt q.slot q.number) (planResult flags q.number kept)).planCount flags

/-- A result written and recorded. -/
def State.resultRecorded : State := (s.resultWritten q flags kept).record 0x13 0 q.slot q.number 0 0 (planDecision q outcome)

theorem State.wrote_plan (a : Nat) (bs : List Byte) : (s.wrote a bs).plan = s.plan := (s.mcTouches_accessed true a bs.length).plan

theorem State.resultRecorded_plan : (s.resultRecorded q outcome flags kept).plan = s.plan := by
  have hrecord : (s.resultRecorded q outcome flags kept).plan = (s.resultWritten q flags kept).plan :=
    (congrArg State.plan (State.record_journalOnly _ _ _ _ _ _ _ _).frame :)
  have hcount : (s.resultWritten q flags kept).plan = (s.wrote (s.planAt q.slot q.number) (planResult flags q.number kept)).plan :=
    (congrArg State.plan (State.planCount_regsOnly _ flags).frame :)
  rw [hrecord, hcount, s.wrote_plan]

theorem State.planDrop_frame (gone : PlanQ → Bool) : { s.planDrop gone with plan := s.plan } = s := rfl

/-- The query of a result is off the engine; a sweep of it under way goes on to its end (R300). -/
theorem State.resultRecorded_dropped : let d := (s.resultRecorded q outcome flags kept).planDrop fun x => x.is q.slot q.number
    d.plan.queries = s.plan.queries.filter (fun x => !x.is q.slot q.number)
      ∧ d.plan.tails = s.plan.tails ++ (s.plan.queries.filter fun x => x.is q.slot q.number && decide (x.phase = .sweeping)).map
        (fun x => (x.slot, x.halves, x.buf)) := by
  simp only [State.planDrop, s.resultRecorded_plan, and_self]

/-- What follows a result recorded: its query is off the engine, the slot shows it, the twin and the islands are told, its job goes on. -/
def State.resultTold (how : PlanEnd) (shown : Tab (Nat × Nat)) (last : Tab (List Byte)) : State :=
  let d := s.planDrop fun x => x.is q.slot q.number
  let v := { d with plan := { d.plan with
    shown := shown
    last := last } }
  let told := (v.twinSend q.slot q.number flags (fieldAt kept 4 8)).planTell q.slot q.number flags (fieldAt kept 4 8)
    (if how = PlanEnd.passed then bytesAt kept (0x100 - 0xC) 2048 else [])
  (told.planTile q how (fieldAt kept 4 8)).planShow

theorem State.planFinish_eq (how : PlanEnd) {r : State}
    (hr : ((s.storeRaw (s.planAt q.slot q.number) (planResult flags q.number kept)).planCount flags).record 0x13 0 q.slot q.number 0 0
      (planDecision q outcome) = r) : s.planFinish q how outcome flags kept
        = r.resultTold q flags kept how (tabSet r.plan.shown q.slot (q.number, flags))
          (if how = PlanEnd.passed then tabSet r.plan.last q.slot kept else r.plan.last) := by
  subst hr
  cases how <;> rfl

/-- The result of a query whose half is plain memory. -/
theorem State.planFinish_plain (how : PlanEnd) (h : s.plainStore (s.planAt q.slot q.number) 4096 = true) : s.planFinish q how outcome flags kept
    = (s.resultRecorded q outcome flags kept).resultTold q flags kept how (tabSet s.plan.shown q.slot (q.number, flags))
      (if how = PlanEnd.passed then tabSet s.plan.last q.slot kept else s.plan.last) := by
  have hmem : s.plainMem (s.planAt q.slot q.number) 4096 = true := by
    simp only [State.plainStore, Bool.and_eq_true] at h
    exact h.1.1
  rw [s.planFinish_eq q outcome flags kept how (by rw [State.storeRaw_plain (State.plain_of_plainMem hmem)]), ← State.resultWritten,
    ← State.resultRecorded, s.resultRecorded_plan]

end

/-- The result message of a slot that PLAN_ISLAND routes goes to both islands (R304). -/
theorem State.planTell_routed {s : State} {slot : Nat}
    (h : (s.get F.PLAN_ISLAND_LO_slots + 2 ^ 32 * s.get F.PLAN_ISLAND_HI_slots).testBit slot = true) (number flags digest : Nat)
    (stop : List Byte) : s.planTell slot number flags digest stop = { s with
      planMsgs := [0, 1].foldl (fun t i => tabSet t i (tabGet t i [] ++
        [⟨slot, number, flags, digest, stop, if s.twinPair && s.twinSlot slot then tabGet s.twin.index slot 0 else 0⟩])) s.planMsgs } :=
  if_pos h

theorem State.planTell_unrouted {s : State} {slot : Nat}
    (h : (s.get F.PLAN_ISLAND_LO_slots + 2 ^ 32 * s.get F.PLAN_ISLAND_HI_slots).testBit slot = false) (number flags digest : Nat)
    (stop : List Byte) : s.planTell slot number flags digest stop = s := if_neg (Bool.eq_false_iff.1 h)

end Sys2Proof.Machine
end

section
/-! SUPPORT. The plan engine as a whole (O35). -/

namespace Sys2Proof.Machine

/-- Settles O35: each command by its cases, each shared operation of the engine by what it leaves. -/
theorem planning : Obligations.Planning := by
  refine ⟨?ctrl, State.planShow_spec, ?list, ?check, ?sweep, ?selector, State.planFaulted_spec, ?result⟩
  case ctrl =>
    intro acc s s2 w h c hc r based
    refine ⟨exec_planCtrl_again h hc, fun hw hoff hbase => ⟨exec_planCtrl_starts h hc hw hoff hbase, fun hcond hspilled => ?_⟩,
      fun hw hoff hbase => ⟨_, exec_planCtrl_refused h hc hw hoff hbase, ?_, (FieldsBut.refl _ _).put List.mem_cons_self 1, rfl⟩,
      exec_planCtrl_clear h hc⟩
    · exact State.clearSlots_started hcond hspilled hoff hbase w
    · rw [State.get_put_self _ _ _ (by decide)]
      rfl
  case list =>
    intro id s j c s0
    refine ⟨fun h => ⟨exec_load_waits h, exec_load_taken h⟩, fun op h1 h2 h => ?_, fun cause => s.planFail_spec j, fun k hk => ?_⟩
    · refine ⟨exec_plan_off h1 h2 h, exec_plan_faulted h1 h2 h, exec_plan_malformed h1 h2 h, fun hon hstate hop hfields => ?_⟩
      exact ⟨exec_plan_badStop h1 h2 h hon hstate hop hfields, exec_plan_taken h1 h2 h hon hstate hop hfields⟩
    · exact ⟨State.planJobCheck_stays hk, fun hopen hstage hbusy => ⟨State.planJobCheck_done hk hopen hstage hbusy,
        State.planJobCheck_stopped hk hopen hstage hbusy⟩⟩
  case check =>
    intro id s
    refine ⟨fun j h => exec_roadmapCheck_other h, exec_roadmapCheck_none, fun j h hl hplain => ?_, fun j cause index bad hc => ?_⟩
    · intro c u sound
      refine ⟨exec_roadmapCheck_waits h hplain rfl, fun hfree => ⟨exec_roadmapCheck_unsound h hplain rfl hl hfree, fun i hs hi => ?_,
        fun hs hi => ?_⟩⟩
      all_goals
        rw [exec_roadmapCheck_sound h hplain rfl hl hfree hs, hi]
        rfl
    · exact ⟨rfl, s.loadRefused_spec hc index bad⟩
  case sweep =>
    intro slot ns s waiting sweeping free timed
    refine ⟨exec_sweepStart_other, fun q hw hslot => ⟨exec_sweepStart_waits hw, exec_sweepStart_begins hw hslot⟩, exec_sweepDone_tail,
      fun htails => ⟨exec_sweepDone_none htails, fun q => exec_sweepDone_query htails⟩, s.sweepTimed_spec ns⟩
  case selector =>
    intro slot bad s told
    refine ⟨exec_selectors_none (e := told), fun q h => ?_⟩
    intro due
    refine ⟨exec_planDeadline_due h, exec_planDeadline_undue h, exec_selectionDone_idle (e := told) h,
      exec_attemptDone_idle (e := told) h, exec_selectionDone_fault (e := told) h, fun hphase hbad => ?_,
      exec_attemptDone_unbegun (e := told) h, fun epoch buf hphase ha => ?_, s.attemptStart_eq q, s.fallthrough_spec⟩
    · exact ⟨exec_selectionDone_poisoned (e := told) h hphase hbad, exec_selectionDone_noPath (e := told) h hphase hbad,
        exec_selectionDone_selected (e := told) h hphase hbad⟩
    · obtain ⟨hfault, hend⟩ := exec_attemptDone_over (e := told) h hphase ha
      exact ⟨hfault, fun hbad hp => (hend hbad).trans (congrArg _ (State.attemptEnd_poisoned hp)),
        fun hbad hp hpass => (hend hbad).trans (congrArg _ (State.attemptEnd_passed hp hpass)),
        fun hbad hp hpass hnext => (hend hbad).trans (congrArg _ (State.attemptEnd_next hp hpass hnext)),
        fun hbad hp hpass hlast => (hend hbad).trans (congrArg _ (State.attemptEnd_exhausted hp hpass hlast))⟩
  case result =>
    intro q how outcome flags kept s prev
    refine ⟨rfl, fun hstore => ?_, s.planCount_spec flags, fun digest stop => ?_⟩
    · obtain ⟨hqueries, htails⟩ := s.resultRecorded_dropped q outcome flags kept
      exact ⟨fun _ => s.planFinish_plain q outcome flags kept how hstore, hqueries, htails,
        (s.resultRecorded q outcome flags kept).planDrop_frame _⟩
    · exact ⟨fun h => State.planTell_unrouted h _ _ _ _, fun h => State.planTell_routed h _ _ _ _, rfl⟩

end Sys2Proof.Machine
end
